-- ==== Sys2Proof/Word.lean ====
section
/-!
DEFINITION. The 32-bit register word and the bytes of frames and messages, and the named field of a word.
-/

namespace Sys2Proof

/-- A register word: every register access is one aligned 32-bit word (R34). -/
abbrev Word := BitVec 32

/-- One byte of a frame, a cell, a message or a key. -/
abbrev Byte := BitVec 8

/-- A named field of a register word: the byte address of its word and its bits `[hi:lo]`. -/
structure Fld where
  addr : Nat
  hi : Nat
  lo : Nat
  deriving DecidableEq, Repr

/-- A table from numbers (addresses, ports, contexts, channels) to entries: rising keys, no key twice. -/
abbrev Tbl (α : Type) := List (Nat × α)

/-- The four access paths of *Access paths*; a path's number is the IF code of PG_ERRCAP. -/
inductive Path
  | pcie | mspi | service | remote
  deriving DecidableEq, Repr

/-- The IF code of a path (*PG_ERRCAP*). -/
def Path.num : Path → Nat
  | .pcie => 0 | .mspi => 1 | .service => 2 | .remote => 3

end Sys2Proof
end

