-- ==== Sys2Proof/Syntax.lean ====
section
/-!
DEFINITION. The commands and events of the block: one constructor of `Instr` for each row of
`spec/opcode_table.json`, with the operands that the event brings from outside (an access path, an index, a written
value, a received message, a measured quantity).
-/

namespace Sys2Proof

/-- The body of a ROLE beacon and what goes with it: unit ID, strap, resolved role (0 none, 1 crown, 2 pavilion),
attached, chips in the own tree, depth, unit ID of the tree's crown, chip number and port of the sender. -/
structure RoleBeacon where
  unitId : Nat
  hwtype : Nat
  strap : Nat
  role : Nat
  attached : Bool
  chips : Nat
  depth : Nat
  crownId : Nat
  chip : Nat
  port : Nat
  deriving DecidableEq, Repr

/-- A received CYCLE message (*CYCLE*) with the control header's EPOCH and CYCNO and its time of arrival, in quarter
nanoseconds. -/
structure CycleMsg where
  cycno : Nat
  epoch : Nat
  timeMaster : Bool
  timeValid : Bool
  rxValid : Bool
  txStamp : Nat
  rxStamp : Nat
  rxCycno : Nat
  pend : Nat
  pendEpoch : Nat
  pendCycle : Nat
  arrival : Nat
  deriving DecidableEq, Repr

/-- The body of an ALLOT unit (*ALLOT*). -/
structure Allot where
  target : Nat
  swap : Nat
  digP : Nat
  digA : Nat
  carP : Nat
  carA : Nat
  prop : Nat
  deriving DecidableEq, Repr

/-- The header of a cell and its payload (*Cell header*). -/
structure Cell where
  ltn : Nat := 0
  tc : Nat := 0
  fs : Bool := false
  ls : Bool := false
  cm : Bool := false
  inc : Bool := false
  tw : Bool := false
  fill : Nat := 0
  keysel : Nat := 0
  seq : Nat := 0
  age : Nat := 0
  payload : List Byte := []
  deriving DecidableEq, Repr

/-- One entry of an ACK unit (*ACK*). -/
structure AckEntry where
  ltn : Nat
  ackSeq : Nat
  cmCount : Nat
  seqValid : Bool
  resync : Bool
  deriving DecidableEq, Repr

/-- A chip below the crown: parent chip, parent port and depth (R25). -/
abbrev TreeLink := Nat × Nat × Nat

/-- What the crown tells a pavilion of its place in the tree: its number (0 none), its depth, the unit ID of the crown, whether it is
excess, and the ports whose far chips are excess, as a bit mask (R25, R26). -/
structure TreeTold where
  chip : Nat
  depth : Nat
  crownId : Nat
  excess : Bool
  childExcess : Nat
  deriving DecidableEq, Repr

/-- What engine 5 reads in management messages about the tree (R25, R26). On the crown: upstream links further down that reached
ACTIVE, and those, by parent chip and parent's port, that left it; on a pavilion: what the crown told it. -/
structure TreeNews where
  joined : List TreeLink := []
  left : List (Nat × Nat) := []
  told : Option TreeTold := none
  /-- encrypted links elsewhere in the scope: chip, port, first cycle of the key in force (R187) -/
  keys : Option (List (Nat × Nat × Nat)) := none
  deriving DecidableEq, Repr

/-- What an earlier message and a later one say. -/
def TreeNews.plus (a b : TreeNews) : TreeNews :=
  { joined := a.joined ++ b.joined, left := a.left ++ b.left, told := b.told.orElse fun _ => a.told, keys := b.keys.orElse fun _ => a.keys }

/-- A management frame of one cell: its bytes, and what engine 5 reads in them about the tree, which have no stated format. -/
structure MgmtFrame where
  data : List Byte
  news : TreeNews := {}
  deriving DecidableEq, Repr

/-- What the FEC says of the codewords that end with a control slot (R57): the slot is void; corrected symbols and uncorrectable pairs. -/
structure SlotFec where
  void : Bool := false
  corr : Nat := 0
  uncorr : Nat := 0
  deriving DecidableEq, Repr

/-- A channel's TAIL, written through function 0, or in BAR0 of the NIC function (R223, R233). -/
structure TailReg where
  nic : Bool := false
  chan : Nat
  deriving DecidableEq, Repr

/-- A reset of a port or PHY (R265): its number, whether U1 runs at high speed, and the speed that comes of the chirp. -/
structure ResetOf where
  port : Nat
  hs : Bool := false
  speed : Nat := 0
  deriving DecidableEq, Repr

/-- What the grandmaster's Announce messages say of UTC: TAI − UTC in seconds, whether it is valid, and the leap-second warnings (R173). -/
structure UtcInfo where
  offset : Int
  valid : Bool
  li59 : Bool
  li61 : Bool
  deriving DecidableEq, Repr

/-- The timing of a video stream (*Timing frame body*): pixels, lines, kHz, FORMAT, DSC_BPP and the VSC bytes. -/
structure DpTiming where
  htotal : Nat
  hactive : Nat
  hstart : Nat
  hsync : Nat
  vtotal : Nat
  vactive : Nat
  vstart : Nat
  vsync : Nat
  pclk : Nat
  format : Nat
  dscBpp : Nat
  vsc : Nat
  deriving DecidableEq, Repr

/-- What the host has set in the configuration space of a PCIe function or port (R197, R211): max payload and max read request size (128 bytes
times two to the power), D3hot, ASPM L1, the AER masks and severities of uncorrectable errors, and the base of BAR2.  PRESUMED
(log entry 158): the values at reset, which are those of PCI Express. -/
structure PcieCfg where
  mps : Nat := 0
  mrrs : Nat := 2
  d3hot : Bool := false
  aspmL1 : Bool := false
  mask : Nat := 0x00400000
  sev : Nat := 0x00462030
  bar2 : Nat := 0
  deriving DecidableEq, Repr

/-- The commands of the block, one constructor per row of the table. -/
inductive Instr
  /-- `COLD_START` (R391). Power reaches D0 after it was lost, and the start runs from step B0. -/
  | coldStart (rtc : Option Nat) (vbat : Bool)
  /-- `REGISTER_WRITE` (R10). A write to a register word with no behaviour of its own is range-checked and then applied to its writable fields. -/
  | registerWrite (p : Path) (a : Nat) (v : Nat)
  /-- `RWP_SAFE_POINT_APPLY` (R6). At the block's safe point, pending RWP values are applied. -/
  | rwpSafePointApply (page : Nat) (sub : Nat)
  /-- `PG_ENABLE` (R38). A write of PG_CTRL.EN = 1 starts the page's function, or sets EN_PENDING during a stop. -/
  | pgEnable (p : Path) (page : Nat)
  /-- `PG_DISABLE` (R38). A write of PG_CTRL.EN = 0 stops the page's function, or clears EN_PENDING. -/
  | pgDisable (p : Path) (page : Nat)
  /-- `FUNCTION_START_COMPLETE` (R38). A function's start completes, and LIFE goes from STARTING to ON. -/
  | functionStartComplete (u : Nat)
  /-- `FUNCTION_STOP_COMPLETE` (R39). A stop completes, and LIFE goes to OFF, or to STARTING if EN_PENDING is set. -/
  | functionStopComplete (u : Nat)
  /-- `SOFT_RST` (R19). A write of PG_CTRL.SOFT_RST resets the block behind the page to its reset values and returns its function to OFF. -/
  | softRst (p : Path) (page : Nat) (stuck : Bool)
  /-- `DOMAIN_CYCLE` (R19). If a page is still wedged 1 ms after SOFT_RST, the power controller switches off its domain and dependants and switches them on again. -/
  | domainCycle (page : Nat)
  /-- `STALL_DETECT` (R17). A stall detector's limit expires: the block is marked WEDGED and FAULT, an interrupt is raised, a record is written, and accesses fail with code 0x05. -/
  | stallDetect (page : Nat)
  /-- `DOMAIN_SWITCH_ON` (R20). A request to switch on a domain switches on its prerequisites first, then the domain. -/
  | domainSwitchOn (d : Nat)
  /-- `DOMAIN_SWITCH_OFF` (R21). A request to switch off a domain is held until every dependant is off. -/
  | domainSwitchOff (d : Nat)
  /-- `DOMAIN_OFF_COMPLETE` (R22). A domain's switch-off completes, and a switch-on request made during it then runs. -/
  | domainOffComplete (d : Nat)
  /-- `PG_IFR_WRITE` (R40). A write to PG_IFR sets the matching PG_ISR bits for testing. -/
  | pgIfrWrite (p : Path) (page : Nat) (v : Nat)
  /-- `REMOTE_INT_UPDATE` (R42). A management message carrying a remote chip's INT# condition updates REMOTE_INT and may send REMOTE_VEC. -/
  | remoteIntUpdate (n : Nat) (cond : Bool)
  /-- `SEM_READ` (R44). A read of a semaphore returns its prior state and takes the semaphore if it was free. -/
  | semRead (p : Path) (n : Nat)
  /-- `SEM_RELEASE` (R44). A write of 0 to a semaphore's HELD bit releases it. -/
  | semRelease (p : Path) (n : Nat)
  /-- `SYS_RST` (R46). A write of SYS_RST with the right KEY and WARM = 1 makes a warm reset within 10 µs. -/
  | sysRst (p : Path) (v : Nat)
  /-- `WDT_KICK` (R47). A write of 0x0000_C3C3 to WDT_KICK restarts the watchdog count from PERIOD_MS. -/
  | wdtKick (p : Path) (v : Nat)
  /-- `WATCHDOG_EXPIRY` (R47). The chip watchdog count reaches zero and makes a warm reset, with failure code 0x10 in the ledger. -/
  | watchdogExpiry
  /-- `MSPI_REQUEST` (R51). A whole MSPI request frame is checked by CRC, executed and answered with start, status and data bytes. -/
  | mspiRequest (bytes : List Byte)
  /-- `MSPI_DESELECT_EARLY` (R51). Chip select rises before the request CRC byte, and the request is discarded. -/
  | mspiDeselectEarly
  /-- `REMOTE_ACCESS` (R50). An access addressed to another chip is sent over the management tunnel to its remote register agent. -/
  | remoteAccess (p : Path) (n : Nat) (off : Nat) (w : Option Nat)
  /-- `REMOTE_AGENT_ACCESS` (R50). The remote register agent on the target chip makes a received access with IF = 3 and returns the answer. -/
  | remoteAgentAccess (from_ : Nat) (id : Nat) (addr : Nat) (w : Option Nat)
  /-- `REMOTE_ANSWER` (R50). The answer to a remote access arrives and completes it, or is discarded if late. -/
  | remoteAnswer (id : Nat) (code : Nat) (data : Nat)
  /-- `REMOTE_ACCESS_TIMEOUT` (R50). No answer to a remote access within 3 ms, so it ends with code 0x07. -/
  | remoteAccessTimeout (id : Nat)
  /-- `DOMAIN_WAKE_ACCESS` (R53). An access to a page whose domain is off switches the domain on and stalls until DOMAIN_UP. -/
  | domainWakeAccess (p : Path) (a : Nat) (w : Option Nat)
  /-- `DOMAIN_WAKE_TIMEOUT` (R53). The domain is not ready 2 ms after the access arrived, so the access completes with code 0x04. -/
  | domainWakeTimeout (d : Nat)
  /-- `TERMINATION_SENSE` (R64). Every 100 µs in DETECT the port senses far termination and goes to GLINT when both pairs show it. -/
  | terminationSense (n : Nat) (pair0 : Bool) (pair1 : Bool)
  /-- `GLINT_RECOGNISED` (R63). Three glint bursts are recognised: wake is requested, or a port in GLINT sends one more pattern and enters SPEED. -/
  | glintRecognised (n : Nat)
  /-- `ACTIVITY_RECOGNISED` (R62). Energy above squelch for 2 µs is recognised as activity and requests a wake. -/
  | activityRecognised (n : Nat)
  /-- `TRAINING_TIMEOUT` (R65). A training state, including GLINT, exceeds its timeout and fails with cause 0x01. -/
  | trainingTimeout (n : Nat)
  /-- `FAIL_BEACON_END` (R69). After 100 µs of FAIL beacons the port returns to DETECT or enters HOLDOFF. -/
  | failBeaconEnd (n : Nat)
  /-- `HOLDOFF_EXPIRY` (R69). The 1 s HOLDOFF ends and training starts again from DETECT. -/
  | holdoffExpiry (n : Nat)
  /-- `SPEED_BEACON` (R66). An accepted SPEED beacon lets the end choose the rate and check KEYS_MODE, or fail SPEED. -/
  | speedBeacon (n : Nat) (rates : Nat) (ceil : Nat) (keysMode : Nat) (strap : Nat)
  /-- `RATE_CHANGE_DONE` (R65). The SerDes relocks at the chosen rate, and the port enters EQUALIZE. -/
  | rateChangeDone (n : Nat)
  /-- `EQ_REQ` (R67). A received EQ_REQ sets the requested preset on the transmitter and is answered with EQ_ACK. -/
  | eqReq (n : Nat) (lane : Nat) (preset : Nat)
  /-- `EQ_ACK` (R67). A received EQ_ACK starts the settle and eye-measurement period for that preset. -/
  | eqAck (n : Nat) (lane : Nat) (preset : Nat)
  /-- `EQ_PRESET_MEASURED` (R67). The settle and measure time of a preset ends and its eye is recorded. -/
  | eqPresetMeasured (n : Nat) (lane : Nat) (eye : Nat)
  /-- `EQ_ADAPT_DONE` (R67). CTLE and DFE adaptation ends; the eye margin is judged and EQ_DONE is sent, or EQUALIZE fails with cause 0x05. -/
  | eqAdaptDone (n : Nat) (eye0 : Nat) (eye1 : Nat)
  /-- `EQ_DONE` (R67). A received EQ_DONE carries the far end's chosen presets. -/
  | eqDone (n : Nat) (preset0 : Nat) (preset1 : Nat)
  /-- `LOCK_DONE` (R58). Marker, deskew, FEC and block lock complete, with lane-order and polarity corrections, and the port enters RANGE. -/
  | lockDone (n : Nat) (swapped : Bool) (inverted : Nat) (skew : Nat)
  /-- `RANGE_MEASUREMENT` (R68). Every 32 µs in RANGE a round-trip RANGE beacon request is sent. -/
  | rangeMeasurement (n : Nat)
  /-- `RANGE_BEACON` (R68). A RANGE request is answered, or a response is recorded as a measurement; after 64 the spread is judged. -/
  | rangeBeacon (n : Nat) (index : Nat) (response : Bool) (valid : Bool) (t1 : Nat) (t2 : Nat) (t3 : Nat) (arrival : Nat)
  /-- `ROLE_BEACON` (R71). An accepted ROLE beacon lets the end decide parent, child, park, conflict or unit-ID clash. -/
  | roleBeacon (n : Nat) (b : RoleBeacon)
  /-- `PARKED_BEACON_TIMER` (R71). A parked link sends a ROLE beacon every 1 ms. -/
  | parkedBeaconTimer (n : Nat)
  /-- `KEYS_BEACON` (R376). KEYS beacon fragments carry the certificate chain, ephemeral key and signature; when whole they are checked and link keys derived. -/
  | keysBeacon (n : Nat) (cert : List Byte) (eph : List Byte) (beacons : List Byte) (sig : List Byte)
  /-- `FAIL_BEACON` (R69). A received FAIL beacon is treated as the same failure at this end. -/
  | failBeacon (n : Nat) (cause : Nat) (st : Nat)
  /-- `LINK_LOSS` (R60). A link-down condition is met: LAST_DOWN is recorded, LINK_DOWN is set and the port returns to DETECT. -/
  | linkLoss (n : Nat) (cause : Nat)
  /-- `LINK_RETRAIN` (R74). A write of LNK_CTRL.RETRAIN takes the link down and starts DETECT. -/
  | linkRetrain (p : Path) (n : Nat)
  /-- `PORT_STOPPING` (R74). A received STATE PORT_STOPPING message announces that the far port is stopping. -/
  | portStopping (n : Nat)
  /-- `SWAP_REQ` (R72). A write of ROLE_CTRL.SWAP_REQ sends a role-swap request naming a swap cycle at least 4 cycles ahead. -/
  | swapReq (p : Path) (n : Nat)
  /-- `ROLE_SWAP_REQ_MSG` (R72). A received ROLE SWAP_REQ is accepted or refused, or abandoned on a collision. -/
  | roleSwapReqMsg (n : Nat) (cyc : Nat) (unit : Nat) (sent : Nat)
  /-- `ROLE_SWAP_RESEND` (R73). One cycle after a collision, the lower unit ID sends its swap request again. -/
  | roleSwapResend (n : Nat)
  /-- `ROLE_ACCEPT` (R72). A received ROLE ACCEPT confirms the pending swap. -/
  | roleAccept (n : Nat) (cyc : Nat)
  /-- `ROLE_REFUSE` (R72). A received ROLE REFUSE ends the swap request with LAST_RESULT 3. -/
  | roleRefuse (n : Nat)
  /-- `ROLE_SWAP` (R72). At the boundary of the swap cycle both ends exchange roles and the tree is renumbered. -/
  | roleSwap (n : Nat) (links : List TreeLink)
  /-- `CREDIT_UNIT` (R75). A received 1040-mode credit unit updates the freed counters of every class. -/
  | creditUnit (n : Nat) (freed : List Nat)
  /-- `UNIT_POSITION_FILL` (R156). In 1040 mode each unit position is filled with the highest class that passes credit, gate, fit and shaper, or with a credit unit. -/
  | unitPositionFill (n : Nat) (ecc : Tbl Nat)
  /-- `LOCAL_REFILL_1040` (R156). At each 125 µs boundary of local time, peak buckets of 1040-mode contexts are refilled. -/
  | localRefill1040 (n : Nat)
  /-- `CYCLE_BOUNDARY` (R76). A 125 µs cycle boundary of the time base starts a new cycle number, with its refills and scheduled swaps. -/
  | cycleBoundary
  /-- `FILL_SLOT` (R151). Before each data slot starts, the scheduler chooses the cell to send, or idle fill. -/
  | fillSlot (n : Nat) (d : Nat) (ecc : Tbl Nat)
  /-- `CONTROL_SLOT_SEND` (R82). A control slot is sent with its messages, filled by priority. -/
  | controlSlotSend (n : Nat) (j : Nat)
  /-- `CONTROL_SLOT_RECEIVED` (R81). A received control slot has its trailer and CYCNO checked, and its message units are passed on or the slot is discarded. -/
  | controlSlotReceived (n : Nat) (j : Nat) (nmsg : Nat) (keysel : Nat) (epoch : Nat) (cycno : Nat) (payload : List Byte) (trailer : Nat) (arrival : Nat) (fec : SlotFec)
  /-- `CYCLE_MSG` (R182). A valid CYCLE message supplies ranging stamps, time-master and epoch state, and counts towards link liveness. -/
  | cycleMsg (n : Nat) (m : CycleMsg)
  /-- `CELL_RECEIVED` (R80). A received data slot is decoded, its trailer checked and its LTN mapped to a context, or the slot is discarded. -/
  | cellReceived (n : Nat) (slot : Nat) (cycno : Nat) (cell : Cell) (trailer : Nat) (voided : Bool) (corr : Nat) (uncorr : Nat) (syncErr : Nat)
  /-- `ALLOT_PROPOSE` (R95). A received PROPOSE is checked and answered by ACCEPT or REFUSE, or met as a collision. -/
  | allotPropose (n : Nat) (a : Allot)
  /-- `ALLOT_ACCEPT` (R95). A received ACCEPT lets the proposer swap at S. -/
  | allotAccept (n : Nat) (a : Allot)
  /-- `ALLOT_REFUSE` (R95). A received REFUSE ends the proposer's change with RESULT 3. -/
  | allotRefuse (n : Nat) (a : Allot) (reason : Nat)
  /-- `ALLOT_WITHDRAW` (R95). A received WITHDRAW stops the acceptor from swapping. -/
  | allotWithdraw (n : Nat) (a : Allot)
  /-- `ACK_MSG` (R117). A received ACK message's entries free kept cells, are relayed by transits, and start congestion holds. -/
  | ackMsg (n : Nat) (entries : List AckEntry)
  /-- `CM_HOLD_EXPIRY` (R118). Eight cycles after the last marked entry, the peak-rate hold ends. -/
  | cmHoldExpiry (c : Nat)
  /-- `MGMT_MSG` (R83). A received MGMT unit is handled as a one-cell management-tunnel frame. -/
  | mgmtMsg (n : Nat) (seq : Nat) (m : MgmtFrame)
  /-- `IDLE_REQ` (R355). A received STATE IDLE_REQ is answered with IDLE_ACK when the answering end may idle or suspend the link. -/
  | idleReq (n : Nat) (power : Nat) (cycle : Nat)
  /-- `IDLE_ACK` (R356). A received IDLE_ACK puts the link into idle or suspension from the apply cycle. -/
  | idleAck (n : Nat) (power : Nat) (cycle : Nat)
  /-- `WAKE_REQ` (R81). A received STATE WAKE_REQ message asks the far end to wake from the named cycle. -/
  | wakeReq (n : Nat) (cycle : Nat)
  /-- `STATE_REPORT` (R81). A received STATE_REPORT message carries the sender's power state. -/
  | stateReport (n : Nat) (power : Nat)
  /-- `EPOCH_CHECK` (R91). A write of EPOCH_CTRL.CHECK runs placement and the proposer's checks without proposing. -/
  | epochCheck (p : Path) (n : Nat)
  /-- `EPOCH_REQ` (R95). A write of EPOCH_CTRL.REQ locks the shadow plans and starts the proposer's checks. -/
  | epochReq (p : Path) (n : Nat)
  /-- `EPOCH_CHECKS_DONE` (R93). The proposer's local checks end, and PROPOSE is sent or the change is refused locally. -/
  | epochChecksDone (n : Nat)
  /-- `EPOCH_WITHDRAW` (R95). A write of EPOCH_CTRL.WITHDRAW stops PROPOSE and sends WITHDRAW up to S. -/
  | epochWithdraw (p : Path) (n : Nat)
  /-- `EPOCH_ANSWER_TIMEOUT` (R95). No answer by the boundary of S − 1, so the proposer withdraws. -/
  | epochAnswerTimeout (n : Nat)
  /-- `EPOCH_SWAP` (R95). At the boundary of S an end makes its shadow plans active, increments the epoch and applies pending RWE values. -/
  | epochSwap (n : Nat)
  /-- `EPOCH_LATE_SWAP` (R97). An end that sees the far epoch one ahead swaps at the next boundary if its digests still match. -/
  | epochLateSwap (n : Nat)
  /-- `EPOCH_SETTLE_END` (R98). The settle period after S + 8 ends and the shadow plans unlock. -/
  | epochSettleEnd (n : Nat)
  /-- `EPOCH_SPLIT` (R97). The epoch disagreement lasts past the settle period, and the port refuses further changes until retraining. -/
  | epochSplit (n : Nat)
  /-- `TUN_LOAD` (R107). TUN_CMD.LOAD copies the selected context into the path's window. -/
  | tunLoad (p : Path)
  /-- `TUN_COMMIT` (R107). TUN_CMD.COMMIT checks the window and applies it to the context at one instant, or records a reason. -/
  | tunCommit (p : Path)
  /-- `TUN_REBASE` (R122). TUN_CMD.REBASE drops a merge's base and ends any open frame with INC. -/
  | tunRebase (p : Path)
  /-- `TUN_CLR_CNT` (R107). TUN_CMD.CLR_CNT clears the counters of the selected context. -/
  | tunClrCnt (p : Path)
  /-- `QUARANTINE_END` (R105). Four cycles after a context reached OFF, its (link point, LTN) pairs leave quarantine. -/
  | quarantineEnd (port : Nat) (ltn : Nat)
  /-- `TWIN_SPLIT_WAIT_END` (R110). A starting twin split's 9-cycle wait ends. -/
  | twinSplitWaitEnd (c : Nat)
  /-- `CONTEXT_START_COMPLETE` (R110). A context's start conditions hold: it resets its sequence state and goes ON. -/
  | contextStartComplete (c : Nat)
  /-- `RESYNC_TIMEOUT` (R116). No RESYNC entry within 16 cycles of STARTING, so the origin faults with cause 0x02. -/
  | resyncTimeout (c : Nat)
  /-- `STOP_DRAIN_TIMEOUT` (R111). Queued cells not sent within STOP_TO cycles are discarded as under DISCARD = 1. -/
  | stopDrainTimeout (c : Nat)
  /-- `CONTEXT_STOP_COMPLETE` (R111). A context's stop ends and it goes OFF, with its pairs entering quarantine. -/
  | contextStopComplete (c : Nat)
  /-- `CONTEXT_FAULT` (R112). A context faults: its queued cells and replay buffer are freed, and the cause is recorded. -/
  | contextFault (c : Nat)
  /-- `RETRANSMIT_TIMEOUT` (R117). A cell unacknowledged at the boundary of c + 3 starts a replay, or a fault after the eighth. -/
  | retransmitTimeout (c : Nat)
  /-- `MERGE_BASE_TIMEOUT` (R122). A merge with no delivery for 8 cycles drops its base and ends an open frame. -/
  | mergeBaseTimeout (c : Nat)
  /-- `OPEN_FRAME_TIMEOUT` (R123). A frame left open for 8 cycles at an unreliable end is ended with an INC tail. -/
  | openFrameTimeout (c : Nat)
  /-- `FRAME_PRESENTED` (R130). An adapter with flow control presents a held frame once the girdle reports room for all its cells. -/
  | framePresented (point : Nat) (sub : Nat) (firstNs : Nat) (stamp : Nat) (data : List Byte)
  /-- `INC_TAIL_FALLBACK` (R137). Eight cycles after an unreliable frame's discard began without its LS cell, the tail is sent. -/
  | incTailFallback (q : Nat) (c : Nat) (id : Nat)
  /-- `SCRUB_VISIT` (R138). The scrubber visits a queued cell of an unreliable tunnel and applies ageing. -/
  | scrubVisit (q : Nat) (c : Nat) (id : Nat) (idx : Nat)
  /-- `AGE_HOLD_END` (R139). 32 ms after a time step, AGE_HOLD clears and ageing resumes. -/
  | ageHoldEnd
  /-- `DESCRIPTOR_ECC_FLUSH` (R128). An uncorrectable descriptor error flushes the queue or replay list that holds it. -/
  | descriptorEccFlush (replay : Bool) (idx : Nat)
  /-- `PERF_UPDATE` (R145). Every 1 ms the replica loop updates PERF.NOW and PERF.MIN. -/
  | perfUpdate (now : Nat)
  /-- `PERF_READ` (R145). A read of PERF returns MIN and NOW, and MIN restarts from the present NOW. -/
  | perfRead (p : Path)
  /-- `ADAPTER_TX_OPPORTUNITY` (R157). An adapter egress transmit opportunity goes to the open frame or to the highest ready class. -/
  | adapterTxOpportunity (pt : Nat) (ecc : Tbl Nat)
  /-- `MTR_LOAD` (R171). MTR_CMD.LOAD copies the selected meter into the path's window. -/
  | mtrLoad (p : Path)
  /-- `MTR_COMMIT` (R171). MTR_CMD.COMMIT checks W0–W3 and applies them between two frames, or records a reason. -/
  | mtrCommit (p : Path)
  /-- `MTR_CLR_CNT` (R171). MTR_CMD.CLR_CNT clears the selected meter's counters. -/
  | mtrClrCnt (p : Path)
  /-- `CFG_CHANGE` (R166). GCL_CTRL.CFG_CHANGE copies the admin list into a pending configuration with its ConfigChangeTime. -/
  | cfgChange (p : Path) (l : Nat)
  /-- `CONFIG_CHANGE_TIME` (R166). At ConfigChangeTime the pending list becomes the oper list. -/
  | configChangeTime (l : Nat)
  /-- `GATE_ENTRY_CHANGE` (R165). An oper list entry's interval ends and the next gate states take effect. -/
  | gateEntryChange (l : Nat)
  /-- `TIME_LO_READ` (R172). A read of TIME_LO returns bits [31:0] and latches TIME_HI for the path. -/
  | timeLoRead (p : Path)
  /-- `SOURCE_MEASUREMENT` (R178). A source comparison yields an offset that drives the source state machine and servo. -/
  | sourceMeasurement (off : Int) (interval : Nat)
  /-- `PPS_EDGE` (R181). A selected PPS edge marks a second for the PPS source. -/
  | ppsEdge (rising : Bool) (q : Nat)
  /-- `TOD_SENTENCE` (R181). A time-of-day sentence received on the UART labels the latest PPS edge, or is not a measurement. -/
  | todSentence (uart : Nat) (b : List Byte) (endQ : Nat)
  /-- `IRIG_FRAME` (R180). A received IRIG-B frame gives an on-time point and time for the source. -/
  | irigFrame (q : Nat) (doy : Nat) (sod : Nat) (year : Option Nat) (ofsMin : Int) (li59 : Bool) (li61 : Bool)
  /-- `INPUT_LOST` (R178). A time input is lost, and the source machine goes to HOLDOVER or FREE. -/
  | inputLost (cause : Nat)
  /-- `HOLDOVER_EXPIRY` (R178). HOLD_MAX elapses in HOLDOVER, and the state becomes FREE. -/
  | holdoverExpiry
  /-- `HOLD_VALID_EXPIRY` (R179). HOLD_VALID seconds in HOLDOVER elapse, and TIME_VALID clears. -/
  | holdValidExpiry
  /-- `RTC_UPDATE` (R174). Once each second while TIME_VALID is 1, the RTC is rewritten from the time base. -/
  | rtcUpdate
  /-- `STEP_CMD_SET` (R185). STEP_CMD.SET on a root starts a step of the tree to SET_S and SET_NS. -/
  | stepCmdSet (p : Path)
  /-- `STEP_NOTICE` (R185). A received step notice schedules this chip's step at cycle S by Δ. -/
  | stepNotice (n : Nat) (cycle : Nat) (delta : Int)
  /-- `STEP_TAKEN` (R186). At the boundary of S the scope's time bases jump by Δ, links idle to the next boundary, and pending cycles move. -/
  | stepTaken
  /-- `EVI_EDGE` (R190). An edge on an event input starts a candidate or is latched within a debounce window. -/
  | eviEdge (edges : List (Nat × Bool)) (q : Nat)
  /-- `EVI_GLITCH_END` (R190). G after a candidate's edge, the change is accepted or counted as a glitch. -/
  | eviGlitchEnd (ins : List Nat)
  /-- `EVI_DEBOUNCE_END` (R190). The debounce window ends, and a differing level starts a candidate with BOUNCE = 1. -/
  | eviDebounceEnd (ins : List Nat) (at_ : Nat)
  /-- `EVI_FIFO_READ` (R193). A read of FIFO_LO removes the head entry of the capture FIFO. -/
  | eviFifoRead (p : Path)
  /-- `FOUT_ARM` (R194). A write of FOUT_CTRL.ARM schedules a level or pulse action, or acts at once as late. -/
  | foutArm (p : Path) (k : Nat)
  /-- `FOUT_ACTION` (R194). At the scheduled time a fast output drives its level. -/
  | foutAction (k : Nat)
  /-- `FOUT_PULSE_END` (R194). After PW a pulse output drives the opposite level. -/
  | foutPulseEnd (k : Nat)
  /-- `VDP_CONTEXT_CHANGE` (R199). A virtual downstream port's contexts come ON or leave it, changing presence and failing outstanding requests. -/
  | vdpContextChange (c : Nat)
  /-- `FARBUS_REQUEST` (R206). A BAR2 request is matched to a window and cut into far-bus bursts, or completed with UR. -/
  | farbusRequest (write : Bool) (tun : Option (Nat × Nat)) (addr : Nat) (be : List Bool) (data : List Byte) (reqId : Nat) (tag : Nat)
  /-- `FARBUS_TRANSACTION` (R203). A far-bus transaction runs its address phases and beats on one chip select. -/
  | farbusTransaction
  /-- `FARBUS_TRANSACTION_END` (R211). A far-bus transaction ends, with a failure logged in the error FIFO if it erred. -/
  | farbusTransactionEnd (remote : Option (Nat × Bool)) (cause : Nat) (addr : Nat) (time : Nat) (data : List Nat)
  /-- `READY_TIMEOUT` (R203). READY is not seen within RDY_TO, and the transaction ends with cause 1. -/
  | readyTimeout (addr : Nat)
  /-- `PREFETCH_EXPIRY` (R207). Prefetched data unused for 10 µs is discarded and counted as ghost beats. -/
  | prefetchExpiry (w : Nat)
  /-- `ATOMIC_OP` (R208). An AtomicOp runs a locked read-modify-write on the far bus. -/
  | atomicOp (tun : Option (Nat × Nat)) (addr : Nat) (op : Nat) (width : Nat) (operand : Nat) (compare : Nat) (reqId : Nat) (tag : Nat)
  /-- `MRDLK` (R209). A locked read runs with LOCK_N low and holds the lock. -/
  | mrdlk (tun : Option (Nat × Nat)) (addr : Nat) (be : List Bool) (reqId : Nat) (tag : Nat)
  /-- `UNLOCK` (R209). An Unlock message raises LOCK_N. -/
  | unlock (reqId : Nat)
  /-- `LOCK_TIMEOUT` (R209). No Unlock within LOCK_TO, so LOCK_N rises and cause 3 is logged. -/
  | lockTimeout
  /-- `FENCE_READ` (R212). A read of LPB.FENCE waits for every earlier posted write to end. -/
  | fenceRead (p : Path)
  /-- `FENCE_COMPLETE` (R212). The awaited writes have ended, and the FENCE read returns the failure count. -/
  | fenceComplete
  /-- `FENCE_TIMEOUT` (R212). After 2 ms the FENCE read completes with INCOMPLETE = 1. -/
  | fenceTimeout
  /-- `ERROR_FIFO_POP` (R211). A read of ERRF_TS_LO removes the head entry of the error FIFO. -/
  | errorFifoPop (p : Path)
  /-- `LSIO_MESSAGE` (R213). A bridge message is run on its low-speed unit in arrival order and answered by TAG. -/
  | lsioMessage (kind : Nat) (unit : Nat) (op : Nat) (tag : Nat) (arg : Nat) (data : List Byte) (status : Nat) (rdata : List Byte)
  /-- `GPIO_EDGE` (R213). An edge on a GPIO pin is recorded and may be sent as a stamped bridge event. -/
  | gpioEdge (pin : Nat) (level : Bool)
  /-- `UART_RX` (R213). Data received on a UART is sent as unsolicited RX data. -/
  | uartRx (unit : Nat) (data : List Byte)
  /-- `PCIE_RETRAIN` (R197). A write of PCIE_CTRL.RETRAIN takes the PCIe link to Detect. -/
  | pcieRetrain (p : Path)
  /-- `INV_GO` (R220). A write of INV_CTRL.GO issues an invalidation epoch of the chosen scope. -/
  | invGo (p : Path)
  /-- `INVALIDATION_DONE` (R220). Covered TLB entries are removed and walks marked, and DONE reaches the epoch. -/
  | invalidationDone
  /-- `INV_SYNC_READ` (R221). A read of INV_SYNC waits for DONE and for writes that used removed entries. -/
  | invSyncRead (p : Path)
  /-- `INV_SYNC_COMPLETE` (R221). The INV_SYNC read completes with its epoch, or with INCOMPLETE after 2 ms. -/
  | invSyncComplete (late : Bool)
  /-- `WALK_READ_COMPLETE` (R218). A table-walk read completes and the entry is checked, going to the next level, a TLB fill or a fault. -/
  | walkReadComplete (c : Nat) (err : Bool) (entry : Nat)
  /-- `WALK_TIMEOUT` (R218). A walk read gets no completion within WALK_TO, and faults with cause 3. -/
  | walkTimeout (c : Nat)
  /-- `DESCRIPTOR_FETCH` (R223). A channel fetches its next descriptor once the ring holds one. -/
  | descriptorFetch (c : Nat) (d : List Byte)
  /-- `DMA_CELL_BOUNDARY` (R226). At a cell boundary an engine commits a cell of the highest ready channel. -/
  | dmaCellBoundary (t2h : Bool) (bytes : List Byte)
  /-- `DMA_TAIL_WRITE` (R223). A write of a channel's TAIL hands descriptors to the hub. -/
  | dmaTailWrite (p : Path) (r : TailReg) (v : Nat)
  /-- `RESUME_RETRY` (R230). RESUME with ACTION 0 removes the faulting TLB entry and translates again. -/
  | resumeRetry (p : Path) (c : Nat)
  /-- `RESUME_SKIP` (R230). RESUME with ACTION 1 writes back the frame's descriptors with CODE 2 and continues. -/
  | resumeSkip (p : Path) (c : Nat)
  /-- `RESUME_STOP` (R230). RESUME with ACTION 2 stops the channel with DISCARD behaviour. -/
  | resumeStop (p : Path) (c : Nat)
  /-- `FAULT_FIFO_POP` (R229). A read of FF_REC7 removes the head fault record from the register FIFO. -/
  | faultFifoPop (p : Path)
  /-- `DMA_CHANNEL_DISABLE` (R231). A write of CH_CTRL.EN = 0 stops the channel at its next cell boundary. -/
  | dmaChannelDisable (p : Path) (c : Nat)
  /-- `DPI_LINE_CAPTURE` (R236). An active line arriving at the DPI is stamped and sent as one frame, preceded by a timing frame at line 0. -/
  | dpiLineCapture (line : Nat) (t : DpTiming) (dsc : Bool) (fec : Bool) (stamp : Nat) (ns : Nat) (symErr : Nat) (data : List Byte)
  /-- `DPO_CELL_ARRIVAL` (R239). A display cell arriving at the DPO is held, or discarded as headless, late or early. -/
  | dpoCellArrival (c : Cell)
  /-- `DPO_LINE_PLAYOUT` (R239). At a line's playout time the DPO plays, conceals or blanks the line and steers its DPLL. -/
  | dpoLinePlayout (phase : Int) (ppm : Int) (late : List (Nat × List Byte))
  /-- `DPO_FRAME_START` (R243). At a frame start the DPO enters the cameo screen or shows committed text. -/
  | dpoFrameStart
  /-- `CAMEO_TIMEOUT` (R243). No line for CAMEO_TO_MS, so the cameo screen is entered at the next frame start. -/
  | cameoTimeout
  /-- `CAMEO_FORCE` (R243). A write of CAMEO_CMD.FORCE requests or releases the cameo screen. -/
  | cameoForce (p : Path) (v : Bool)
  /-- `CAMEO_COMMIT` (R245). CAMEO_CMD.COMMIT makes the staging copy the shown copy at the next frame start. -/
  | cameoCommit (p : Path)
  /-- `AUX_REQUEST` (R240). A host AUX request at the DPI is answered locally, from the mirror, or forwarded with AUX_DEFER. -/
  | auxRequest (i2c : Bool) (read : Bool) (addr : Nat) (len : Nat) (data : List Byte)
  /-- `AUX_ANSWER` (R240). The pavilion's answer to a forwarded AUX request arrives and is held for the host's retry. -/
  | auxAnswer (status : Nat) (data : List Byte)
  /-- `AUX_FWD_TIMEOUT` (R240). No forwarded answer within FWD_TO_US, so the DPI answers AUX_NACK. -/
  | auxFwdTimeout
  /-- `MONITOR_HPD_CHANGE` (R241). A change or IRQ_HPD pulse of the monitor's HPD is reproduced at the DPI, with a mirror load on a rise. -/
  | monitorHpdChange (atDpi : Bool) (level : Bool) (irq : Bool) (dpcd : List Byte) (edid : List Byte)
  /-- `DPALT_ENTERED` (R246). A write of DPALT_CTRL.ENTERED drives or releases MUX_SEL by the CC orientation. -/
  | dpaltEntered (p : Path) (v : Bool)
  /-- `DPALT_SETTLE_END` (R246). SETTLE after MUX_SEL is driven, the DPO responds to HPD. -/
  | dpaltSettleEnd
  /-- `DPALT_IRQ_HPD` (R246). A write of DPALT_CTRL.IRQ_HPD passes the partner's IRQ_HPD to the DPO. -/
  | dpaltIrqHpd (p : Path)
  /-- `MGMT_PIPE_TRANSFER` (R251). A bulk OUT transfer of management records is executed in order and answered on EP1 IN. -/
  | mgmtPipeTransfer (data : List Byte) (read : Bool)
  /-- `ACM_DATA` (R252). Console data is routed to an LSIO UART or to the service console. -/
  | acmData (data : List Byte)
  /-- `SET_LINE_CODING` (R252). SET_LINE_CODING is applied to the routed UART, or stalled. -/
  | setLineCoding (baud : Nat) (stop : Nat) (parity : Nat) (bits : Nat)
  /-- `SET_CONTROL_LINE_STATE` (R252). SET_CONTROL_LINE_STATE drives RTS of the routed UART. -/
  | setControlLineState (rts : Bool)
  /-- `DFU_DETACH` (R253). DFU_DETACH makes the function leave the bus and the lapidary loader enumerate in DFU mode. -/
  | dfuDetach
  /-- `DFU_UPLOAD` (R253). DFU_UPLOAD is stalled. -/
  | dfuUpload
  /-- `DFU_DNLOAD` (R405). A DFU_DNLOAD block is staged, and a zero-length block ends the transfer and starts the checks and write. -/
  | dfuDnload (block : Nat) (d : List Byte)
  /-- `DFU_CLRSTATUS` (R405). DFU_CLRSTATUS discards the staged image and returns to dfuIDLE. -/
  | dfuClrstatus
  /-- `USB_BUS_RESET` (R254). A bus reset on U0 or U1 aborts any control transfer and returns the function to Default. -/
  | usbBusReset (u1 : Bool) (ctrl : Bool) (hs : Bool)
  /-- `REMOTE_WAKE_SIGNAL` (R255). The function signals remote wake with 2 ms of K, or yields to a colliding host resume. -/
  | remoteWakeSignal (u1 : Bool) (lineK : Bool) (hostK : Bool)
  /-- `PHY_PORT_CHANGE` (R256). A device change at a PHY updates the hub port's connection and reaches the host by the status-change endpoint. -/
  | phyPortChange (phy : Nat) (dev : Bool) (speed : Nat) (overcurrent : Bool) (power : Bool)
  /-- `HOST_TRANSACTION` (R259). A host transaction to a device behind a hub port is answered and forwarded under deferred completion. -/
  | hostTransaction (port : Nat) (addr : Nat) (ep : Nat) (typ : Nat) (kind : Nat) (toggle : Bool) (data : List Byte)
  /-- `USB_TRANSACTION_REQUEST` (R258). A transaction request arriving at a pavilion is run on its PHY and returned as a result.  `ifEps`: the
  endpoint addresses of the interface that a SetInterface completing here names (R264). -/
  | usbTransactionRequest (phy : Nat) (msg : List Byte) (resp : Nat) (rdata : List Byte) (ifEps : List Nat)
  /-- `PAVILION_REPEAT` (R259). The pavilion repeats a NAKed transaction on its bus at its repeat interval. -/
  | pavilionRepeat (idx : Nat) (resp : Nat) (rdata : List Byte) (ifEps : List Nat)
  /-- `USB_RESULT` (R259). A transaction result arriving at the crown is held for the host's next poll, with its toggle. -/
  | usbResult (port : Nat) (msg : List Byte)
  /-- `DEFER_STALE` (R260). A deferred transaction not polled for STALE is abandoned and an abort sent. -/
  | deferStale (tag : Nat)
  /-- `ABORT_DEVICE` (R260). An abort message makes the pavilion stop repeating a transaction. -/
  | abortDevice (phy : Nat) (msg : List Byte)
  /-- `PERIODIC_POLL` (R262). The pavilion runs a periodic endpoint at its interval on its own schedule. -/
  | periodicPoll (idx : Nat) (resp : Nat) (rdata : List Byte)
  /-- `HOST_SOF` (R263). A host SOF is stamped and FN_OFS recomputed, counting a slip when it changes. -/
  | hostSof (frame : Nat) (stampNs : Nat)
  /-- `FN_OFS_MSG` (R263). A frame-offset message sets the pavilion's FN_OFS. -/
  | fnOfsMsg (msg : List Byte)
  /-- `PORT_RESET` (R265). A PORT_RESET port command drives reset and chirp at the pavilion after discarding the port's deferred state. -/
  | portReset (atCrown : Bool) (r : ResetOf)
  /-- `PORT_STATUS_MSG` (R265). A port status message reports speed and completes the reset at the crown. -/
  | portStatusMsg (port : Nat) (msg : List Byte)
  /-- `HUB_SUSPEND` (R267). The host suspends the hub or a port, and mapped pavilion ports stop SOF. -/
  | hubSuspend (atCrown : Bool) (n : Nat) (rwake : Bool)
  /-- `HOST_RESUME` (R267). The host's resume is carried to pavilion ports, which drive resume for 20 ms. -/
  | hostResume (atCrown : Bool) (n : Nat)
  /-- `PAVILION_REMOTE_WAKE` (R267). A remote wake on a pavilion port is carried to the crown, which signals or records it. -/
  | pavilionRemoteWake (atCrown : Bool) (n : Nat)
  /-- `ETH_FRAME_RX` (R271). A received Ethernet frame is checked, stamped, tagged, classified and sent to a context, or discarded. -/
  | ethFrameRx (port : Nat) (data : List Byte) (fcsOk : Bool) (ns : Nat) (stamp : Nat) (endQ : Nat) (cut : Nat)
  /-- `TX_UNDERRUN` (R445). A started Ethernet frame's next cell is not stored in time, so the frame is ended with a stomped FCS. -/
  | txUnderrun (port : Nat)
  /-- `SUPERVISION_SEND` (R277). Every LIFE_CHECK, engine 7 sends supervision frames on both ports of an LRE. -/
  | supervisionSend (lre : Nat)
  /-- `NODE_FORGET` (R277). A node unseen for NODE_FORGET is removed from the node table. -/
  | nodeForget (lre : Nat) (mac : Nat)
  /-- `PTP_EVENT_MESSAGE` (R279). A PTP event message is stamped at its timestamp point on receive or transmit. -/
  | ptpEventMessage (port : Nat) (tx : Bool) (typ : Nat) (seq : Nat) (raw : Nat) (t2 : Nat) (t3 : Nat) (rx : Option Nat)
  /-- `FOLLOW_UP_SEND` (R279). Engine 3 sends a two-step Follow_Up within 1 ms of the Sync. -/
  | followUpSend (port : Nat)
  /-- `GOOSE_FRAME_MATCHED` (R283). A matched GOOSE frame is checked against stNum and sqNum, accepted or discarded, and sets a new expiry. -/
  | gooseFrameMatched
  /-- `SV_FRAME_MATCHED` (R283). A matched SV frame's smpCnt and smpSynch are checked and counted. -/
  | svFrameMatched
  /-- `TAL_EXPIRY` (R283). No accepted frame by the expiry time: TAL_EXP is set, the base dropped and the members take their FAIL action. -/
  | talExpiry (idx : Nat)
  /-- `PUBLICATION_REPEAT` (R288). A publication's repeat interval ends and the frame is sent again with the next sqNum. -/
  | publicationRepeat (idx : Nat)
  /-- `STN_LOAD` (R282). STN_CMD.LOAD copies the selected subscription or publication into the window. -/
  | stnLoad (p : Path)
  /-- `STN_COMMIT` (R285). STN_CMD.COMMIT checks and applies the window, or records a reason. -/
  | stnCommit (p : Path)
  /-- `STN_CLR_CNT` (R282). STN_CMD.CLR_CNT clears the selected entry's counters. -/
  | stnClrCnt (p : Path)
  /-- `SCRIBE_SEAL` (R290). A log block is sealed when full or SEAL_MS after its first entry, and written with FUA. -/
  | scribeSeal
  /-- `SCRIBE_WRITE_DONE` (R290). A scribe block write completes, or counts a write error. -/
  | scribeWriteDone (ok : Bool)
  /-- `SCRIBE_START` (R290). At start the scribe finds the highest valid block by binary search and continues after it. -/
  | scribeStart (last : Option (Nat × Nat))
  /-- `SCRIBE_HANDOVER` (R291). Contexts coming ON start the handover of the SSD from scribe to host. -/
  | scribeHandover (phase : Nat) (queueFound : Bool)
  /-- `SCRIBE_TAKE_OWNERSHIP` (R291). The host's contexts leave ON, and the scribe takes the controller within 10 ms. -/
  | scribeTakeOwnership
  /-- `ENGINE_CRASH` (R294). An engine crashes: it stops, its mailbox is cleared, DEGRADED is set and a reload starts, or it halts. -/
  | engineCrash (e : Nat) (cause : Nat)
  /-- `ENGINE_WATCHDOG` (R295). An engine's watchdog expires and the engine crashes with cause 0x01. -/
  | engineWatchdog (e : Nat)
  /-- `ENGINE_RELOADED` (R294). The reloaded segment is checked, and the engine restarts RUNNING or halts with cause 0x07. -/
  | engineReloaded (e : Nat) (read : Bool) (same : Bool)
  /-- `ENGINE_SERVICES_READY` (R294). The firmware reports its services ready, and DEGRADED clears. -/
  | engineServicesReady (e : Nat)
  /-- `RESTART` (R298). A write of ENG_CTRL.RESTART crashes the engine with cause 0x06 and clears its crash count. -/
  | engRestart (p : Path) (e : Nat)
  /-- `RING` (R299). A write of DB.RING sends the IN mailbox request and sets BUSY. -/
  | mbxRing (p : Path) (e : Nat)
  /-- `MAILBOX_TAKE` (R299). The engine copies the request and BUSY returns to 0. -/
  | mailboxTake (e : Nat)
  /-- `MAILBOX_RESPONSE` (R299). The engine writes OUT and sets READY. -/
  | mailboxResponse (e : Nat)
  /-- `ACK` (R299). A write of DB.ACK clears READY. -/
  | mbxAck (p : Path) (e : Nat)
  /-- `PING` (R300). Mailbox command PING returns the same data words. -/
  | mbxPing (e : Nat)
  /-- `VERSION` (R300). Mailbox command VERSION returns firmware version, rollback index and segment digest. -/
  | mbxVersion (e : Nat)
  /-- `LOAD` (R300). Mailbox command LOAD returns utilisation and watchdog margin. -/
  | mbxLoad (e : Nat) (m : Nat × Nat)
  /-- `UNKNOWN_MAILBOX_COMMAND` (R300). A mailbox command 0x04–0x3F is answered with status 0x02. -/
  | unknownMailboxCommand (e : Nat)
  /-- `DIAGNOSTIC_COMMAND` (R300). A Welnel diagnostic command 0x40–0xFF runs if debug is unlocked, otherwise it is answered with status 0x02. -/
  | diagnosticCommand (e : Nat) (answer : List Nat)
  /-- `SIEVE_RUN` (R302). A frame entering at a bound point starts its program once its first bytes are stored. -/
  | sieveRun (e : Nat) (f : Nat × Nat)
  /-- `LDB` (R304). Sieve instruction LDB loads a byte from the frame window. -/
  | sieveLdb (e : Nat)
  /-- `LDH` (R304). Sieve instruction LDH loads 16 bits from the frame window. -/
  | sieveLdh (e : Nat)
  /-- `LDW` (R304). Sieve instruction LDW loads 32 bits from the frame window. -/
  | sieveLdw (e : Nat)
  /-- `AND` (R304). Sieve instruction AND. -/
  | sieveAnd (e : Nat)
  /-- `OR` (R304). Sieve instruction OR. -/
  | sieveOr (e : Nat)
  /-- `XOR` (R304). Sieve instruction XOR. -/
  | sieveXor (e : Nat)
  /-- `ADD` (R304). Sieve instruction ADD, modulo 2^32. -/
  | sieveAdd (e : Nat)
  /-- `SUB` (R304). Sieve instruction SUB, modulo 2^32. -/
  | sieveSub (e : Nat)
  /-- `SHL` (R304). Sieve instruction SHL, shifting by the operand mod 32. -/
  | sieveShl (e : Nat)
  /-- `SHR` (R304). Sieve instruction SHR, a logical shift. -/
  | sieveShr (e : Nat)
  /-- `CMP` (R304). Sieve instruction CMP sets the result EQ, GT or LT, unsigned. -/
  | sieveCmp (e : Nat)
  /-- `BEQ` (R304). Sieve instruction BEQ branches forward if the result is EQ. -/
  | sieveBeq (e : Nat)
  /-- `BNE` (R304). Sieve instruction BNE branches forward unless the result is EQ. -/
  | sieveBne (e : Nat)
  /-- `BGT` (R304). Sieve instruction BGT branches forward if the result is GT. -/
  | sieveBgt (e : Nat)
  /-- `BLT` (R304). Sieve instruction BLT branches forward if the result is LT. -/
  | sieveBlt (e : Nat)
  /-- `JMP` (R304). Sieve instruction JMP branches forward. -/
  | sieveJmp (e : Nat)
  /-- `LKP` (R304). Sieve instruction LKP looks up a key in a lookup table. -/
  | sieveLkp (e : Nat)
  /-- `SETTC` (R305). Sieve instruction SETTC sets the frame's class. -/
  | sieveSettc (e : Nat)
  /-- `SETTUN` (R305). Sieve instruction SETTUN sets the frame's tunnel context. -/
  | sieveSettun (e : Nat)
  /-- `MARK` (R304). Sieve instruction MARK sets CM in every cell of the frame. -/
  | sieveMark (e : Nat)
  /-- `METER` (R305). Sieve instruction METER colours the frame, applies the colour's action and writes the colour. -/
  | sieveMeter (e : Nat)
  /-- `DROP` (R305). Sieve instruction DROP discards the frame and ends the run. -/
  | sieveDrop (e : Nat)
  /-- `COPYHOST` (R305). Sieve instruction COPYHOST queues a copy of the frame on a context, at most two per run. -/
  | sieveCopyhost (e : Nat)
  /-- `STAMP` (R305). Sieve instruction STAMP writes the ingress stamp into the frame. -/
  | sieveStamp (e : Nat)
  /-- `COUNT` (R304). Sieve instruction COUNT adds 1 to a counter. -/
  | sieveCount (e : Nat)
  /-- `ACCEPT` (R305). Sieve instruction ACCEPT ends the run, and the accumulated actions apply. -/
  | sieveAccept (e : Nat)
  /-- `IMEM_DATA_ACCESS` (R307). An IMEM_DATA access writes or reads an instruction word and advances IMEM_ADDR. -/
  | imemDataAccess (p : Path) (w : Option Nat)
  /-- `PROG_COMMIT` (R307). PROG_CMD.COMMIT checks a program and installs it, extending the measurement register. -/
  | progCommit (p : Path)
  /-- `PROG_DISABLE` (R308). PROG_CMD.DISABLE disables the selected program and extends the measurement register. -/
  | progDisable (p : Path)
  /-- `PROG_CLR_CNT` (R307). PROG_CMD.CLR_CNT clears the sieve counters. -/
  | progClrCnt (p : Path)
  /-- `TBL_COMMIT` (R306). TBL_CMD.COMMIT writes a lookup entry, or fails on a duplicate key. -/
  | tblCommit (p : Path)
  /-- `TBL_LOAD` (R306). TBL_CMD.LOAD reads a lookup entry into the window. -/
  | tblLoad (p : Path)
  /-- `STEPS_MAX_READ` (R303). A read of STEPS_MAX returns the longest run since the last read and restarts the measure. -/
  | stepsMaxRead (p : Path)
  /-- `SEAT_PIN_CHANGE` (R312). A level change on SEAT_A# or SEAT_B# starts seating qualification or loss timing. -/
  | seatPinChange (pinB : Bool) (low : Bool)
  /-- `SEAT_QUALIFIED` (R312). Both seating pins are low for 50 ms, SEATED becomes 1 and the hot-swap stage starts. -/
  | seatQualified
  /-- `SEAT_LOST` (R312). A seating pin high for 10 µs pulls the gate down, drops PG and clears faults. -/
  | seatLost
  /-- `FSEAT_PIN_CHANGE` (R314). A level change on FSEATn# starts feed qualification or withdrawal timing. -/
  | fseatPinChange (n : Nat) (low : Bool)
  /-- `FEED_QUALIFIED` (R314). FSEATn# is low for 50 ms with EN set, so LINE_ENn goes high. -/
  | feedQualified (n : Nat)
  /-- `FEED_WITHDRAWAL` (R314). FSEATn# is high, or EN bit n is written 0, so LINE_ENn goes low. -/
  | feedWithdrawal (n : Nat)
  /-- `INPUT_VALIDITY_CHANGE` (R315). LINE or AUX crosses UV or OV, and the OR FETs turn on or off. -/
  | inputValidityChange (aux : Bool) (mv : Nat) (fwd : Bool)
  /-- `REVERSE_VOLTAGE` (R315). Reverse voltage across an OR FET turns its gate off. -/
  | reverseVoltage (aux : Bool)
  /-- `HS_RAMP_END` (R317). VIN_MAIN reaches VOR − 1 V, the ramp ends and the gate is driven fully. -/
  | hsRampEnd
  /-- `FET_GATE_CHECK` (R320). HS_GATE has not reached HS_SRC + 6 V 5 ms after the ramp, so a FET fault is set. -/
  | fetGateCheck (reached : Bool)
  /-- `FET_SHORT` (R320). VIN_MAIN stays above half of VOR for 1 ms with the gate pulled down, so a FET fault is set. -/
  | fetShort
  /-- `SENSE_OVER_LIMIT` (R318). Sense voltage above ILIM, or dissipation above PLIM, starts the fault timer and limits current. -/
  | senseOverLimit (vsns : Nat) (fet : Nat)
  /-- `FAULT_TIMER_EXPIRY` (R318). The fault timer reaches CB_TIME; the gate is pulled down and BREAKER or PLIMIT is latched. -/
  | faultTimerExpiry (e : Nat)
  /-- `FAST_TRIP` (R318). Sense voltage at 3 × ILIM pulls the gate down within 1 µs and latches FAST_TRIP. -/
  | fastTrip (vsns : Nat) (e : Nat) (expiry : Bool)
  /-- `PG_QUALIFIED` (R321). The PG conditions hold for PG_DELAY, and PG is driven high. -/
  | pgQualified (vin : Nat)
  /-- `COOL_OFF_END` (R323). The cool-off ends and the hot-swap stage retries. -/
  | coolOffEnd
  /-- `RETRY_COUNT_RESET` (R323). PG high for 1 s resets the retry count. -/
  | retryCountReset
  /-- `HS_CLEAR` (R324). HS_CMD.CLEAR clears a latched fault and restarts if seated. -/
  | hsClear (p : Path)
  /-- `HS_ON` (R325). HS_CMD.ON leaves state 0 and starts the hot-swap stage. -/
  | hsOn (p : Path)
  /-- `HS_OFF` (R325). HS_CMD.OFF pulls the gate down and drops PG without recording a fault. -/
  | hsOff (p : Path)
  /-- `HS_CFG_WRITE` (R326). A write to ILIM, PLIM, CB_TIME or IGATE takes effect at once, including on a running timer. -/
  | hsCfgWrite (p : Path) (w : Nat) (v : Nat)
  /-- `MONITOR_AVERAGE` (R329). An averaging period of the monitor ends, updating readings, energy and alarms. -/
  | monitorAverage (samples : List (Nat × Nat × Nat))
  /-- `ENERGY_LO_READ` (R329). A read of ENERGY_LO latches ENERGY_HI for the path. -/
  | energyLoRead (p : Path)
  /-- `BROWNOUT` (R330). The supply falls below the brown-out threshold, and a final recorder commit starts. -/
  | brownout (vor : Nat) (vbus : Nat) (byVbus : Bool)
  /-- `FINAL_COMMIT_END` (R30). A final recorder commit ends, and a held watchdog reset is asserted. -/
  | finalCommitEnd
  /-- `THERMAL_SHUTDOWN` (R31). Tj above 130 °C starts a final commit and switches D3–D15 off. -/
  | thermalShutdown
  /-- `THERMAL_RESTART` (R33). After a thermal shutdown, once Tj is below 115 °C, a start request begins a start from B2. -/
  | thermalRestart (t : Int)
  /-- `TAMPER_EVENT` (R371). An armed tamper source fires, and the key store, KEK and link keys are zeroised within 10 µs. -/
  | tamperEvent (src : Nat)
  /-- `MESH_CHECK` (R371). Every 100 µs the mesh pattern changes and is compared, firing on two mismatches. -/
  | meshCheck (mismatch : Bool)
  /-- `TAMPER_CFG_WRITE` (R372). A write of TAMPER_CFG arms sources, or disarms them only under authorisation. -/
  | tamperCfgWrite (p : Path) (v : Nat)
  /-- `CC_ATTACH` (R333). A partner seen on CC for tCCDebounce attaches the port, with orientation and data role set. -/
  | ccAttach (cc2 : Bool) (rp : Nat) (vbus : Nat)
  /-- `DRP_TOGGLE` (R333). In DRP mode the port alternates Rp and Rd each period. -/
  | drpToggle
  /-- `SINK_DETACH` (R334). VBUS below 3.67 V for the detach filter time detaches a sink and clears port state. -/
  | sinkDetach (vbus : Nat)
  /-- `SOURCE_DETACH` (R334). Partner CC open for tPDDebounce detaches a source and clears port state. -/
  | sourceDetach
  /-- `RP_CHANGE` (R333). A change of the partner's Rp level updates RP_SEEN after debounce. -/
  | rpChange (rp : Nat)
  /-- `BEZEL_POWER_UP` (R335). D2 comes up, and the CC logic takes over from the dead-battery clamp. -/
  | bezelPowerUp (vbus : Nat) (rp : Nat) (cc2 : Bool)
  /-- `SERVICE_LEVEL_CHANGE` (R337). A change of allowed input power raises or lowers the reduced service level. -/
  | serviceLevelChange
  /-- `MAIN_PWR` (R338). LINE or AUX becomes valid while DEAD_BATT is 1, and MAIN_PWR is set. -/
  | mainPwr
  /-- `SRC_EN_WRITE` (R339). A write of VB_CTRL.SRC_EN enables the source switch, or is rejected while DEAD_BATT. -/
  | srcEnWrite (p : Path) (en : Bool)
  /-- `PD_MESSAGE_RX` (R340). A received PD message is CRC-checked, acknowledged with GoodCRC and queued, or discarded as a repeat. -/
  | pdMessageRx (sop : Nat) (msg : List Byte) (crcOk : Bool) (early : Bool)
  /-- `PD_RX_POP` (R340). A read of RX_BUF7 removes the head PD message. -/
  | pdRxPop (p : Path)
  /-- `SEND` (R341). TX_CTRL.SEND transmits TX_BUF with its MessageID after the inter-frame gap. -/
  | pdSend (p : Path) (v : Nat)
  /-- `PD_CA_DELAY_END` (R342). After the collision-avoidance delay at SinkTxNG, the source transmits. -/
  | pdCaDelayEnd
  /-- `GOODCRC_TIMEOUT` (R341). No matching GoodCRC within 0.9–1.1 ms, so the message is retried or fails. -/
  | goodcrcTimeout
  /-- `HARD_RESET_RX` (R343). A received Hard Reset ends any transmission and resets the receive FIFO and MessageIDs. -/
  | hardResetRx
  /-- `HARD_RESET` (R343). PD_CTRL.HARD_RESET sends the Hard Reset ordered set twice. -/
  | hardReset (p : Path)
  /-- `CABLE_RESET` (R343). PD_CTRL.CABLE_RESET sends the Cable Reset ordered set twice. -/
  | cableReset (p : Path)
  /-- `SWAP_HOLD_WRITE` (R344). A write of TC_CTRL.SWAP_HOLD suspends the sink detach filter for up to 1 s. -/
  | swapHoldWrite (p : Path) (v : Bool)
  /-- `SWAP_HOLD_EXPIRY` (R344). After 1 s, SWAP_HOLD clears itself. -/
  | swapHoldExpiry
  /-- `PWR_ROLE_WRITE` (R344). A write of TC_CTRL.PWR_ROLE moves Rp/Rd and the switch direction within 100 µs. -/
  | pwrRoleWrite (p : Path) (src : Bool)
  /-- `VBUS_FAULT` (R346). VBUS over-voltage, over-current or reverse current opens the switch and latches the fault. -/
  | vbusFault (vbus : Nat) (ma : Int)
  /-- `VB_CLEAR` (R346). VB_CTRL.CLEAR clears a latched VBUS fault whose condition has ended. -/
  | vbClear (p : Path)
  /-- `OVP_THR_WRITE` (R347). A write of OVP_THR is rejected if below the present VBUS + 0.5 V. -/
  | ovpThrWrite (p : Path) (v : Nat)
  /-- `TARGET_WRITE` (R350). A write of PS_CTRL.TARGET requests a power state, held until entry conditions hold. -/
  | targetWrite (p : Path) (t : Nat)
  /-- `STATE_ENTRY` (R350). Entry conditions hold and the chip enters the target state, discarding cells in non-retained banks. -/
  | stateEntry (wake : Nat)
  /-- `ENTRY_TIMEOUT` (R350). Entry is not possible within ENTRY_TO, so it is abandoned. -/
  | entryTimeout
  /-- `WAKE_EVENT` (R351). An enabled wake event starts exit from the present power state. -/
  | wakeEvent (cause : Nat)
  /-- `STATE_EXIT_COMPLETE` (R351). Every domain on at entry is up again, and the state reads S0. -/
  | stateExitComplete
  /-- `WAKE_PIN` (R352). WAKE# low for 1 µs is a wake event. -/
  | wakePin
  /-- `ALARM_FIRE` (R352). The armed time alarm is reached, wakes the chip and clears ARM. -/
  | alarmFire
  /-- `DOMAIN_IDLE_OFF` (R354). A domain whose functions have been OFF for DOM_IDLE switches off. -/
  | domainIdleOff (d : Nat)
  /-- `LINK_IDLE_TIMER` (R355). A link's transmit queues are empty for LIDLE_US, so IDLE_REQ is sent. -/
  | linkIdleTimer (n : Nat)
  /-- `LINK_SUSPEND` (R356). At the apply cycle both ends hold the link suspended with its SerDes off. -/
  | linkSuspend (n : Nat)
  /-- `LINK_RESUME` (R356). A glint resumes a suspended link through LOCK and 16 valid CYCLE messages. -/
  | linkResume (n : Nat) (ok : Bool)
  /-- `VIGIL_SAMPLE` (R357). Every PERIOD_MS in S4 the sampler compares its inputs and starts exit on a difference. -/
  | vigilSample (cause : Nat)
  /-- `VREQ_WRITE` (R360). A write of VREQ starts or holds a core-voltage request. -/
  | vreqWrite (p : Path) (v : Nat)
  /-- `PMBUS_POLL` (R359). Every 100 µs the hub reads STATUS_WORD and acknowledges the request when clean. -/
  | pmbusPoll (status : Nat) (pg0 : Bool) (held : Bool) (err : Nat)
  /-- `VREQ_TIMEOUT` (R359). No acknowledgement within 2 ms, so the request is retried or fails. -/
  | vreqTimeout
  /-- `VMIN_DECL_WRITE` (R94). A write lowering VMIN_DECL is rejected if the guaranteed load would exceed the girdle limit. -/
  | vminDeclWrite (p : Path) (v : Nat)
  /-- `BOOST_TICK` (R363). Each millisecond the boost bucket is updated, and boost ends when it empties or Tj reaches 110 °C. -/
  | boostTick
  /-- `THERMAL_HOT` (R364). The hottest sensor reaches HOT, so VMIN_DECL is requested and boost is blocked. -/
  | thermalHot
  /-- `RS_COMMIT` (R366). RS_CMD.COMMIT checks a rail-script copy and stores it, or records a reason. -/
  | rsCommit (p : Path)
  /-- `RS_LOAD` (R366). RS_CMD.LOAD reads the stored copy into the window. -/
  | rsLoad (p : Path)
  /-- `RS_DATA_ACCESS` (R366). An RS_DATA access reads or writes an entry and advances RS_ADDR. -/
  | rsDataAccess (p : Path) (w : Option Nat)
  /-- `END` (R365). Rail-script opcode END ends the script, failed if FAILED is set. -/
  | railEnd
  /-- `WAIT_US` (R365). Rail-script opcode WAIT_US starts a wait. -/
  | waitUs
  /-- `WAIT_US_DONE` (R365). A rail-script wait ends and the next entry runs. -/
  | waitUsDone
  /-- `PMB_WRITE` (R365). Rail-script opcode PMB_WRITE writes a PMBus command, failing on NACK or PEC. -/
  | pmbWrite (ok : Bool)
  /-- `PMB_EXPECT` (R365). Rail-script opcode PMB_EXPECT polls a PMBus value every 100 µs until it is equal, or fails after 2 ms. -/
  | pmbExpect (ok : Bool)
  /-- `PIN_SET` (R365). Rail-script opcode PIN_SET drives a RAIL_EN output. -/
  | pinSet
  /-- `PIN_WAIT` (R365). Rail-script opcode PIN_WAIT waits for a RAIL_PG level or a timeout. -/
  | pinWait (ok : Bool)
  /-- `ADC_CHECK` (R365). Rail-script opcode ADC_CHECK fails if a rail reading lies outside its range. -/
  | adcCheck (reading : Nat)
  /-- `BRANCH_FAIL` (R365). Rail-script opcode BRANCH_FAIL jumps and clears FAIL if FAIL is set. -/
  | branchFail
  /-- `RAIL_SCRIPT_TIMEOUT` (R365). A rail script running longer than 500 ms fails. -/
  | railScriptTimeout
  /-- `LOAD_NEXT` (R374). KS_CMD.LOAD_NEXT checks the known answer and loads a key as current or next. -/
  | ksLoadNext (p : Path)
  /-- `SWITCH` (R374). KS_CMD.SWITCH makes the next key current and starts retirement of the old one. -/
  | ksSwitch (p : Path)
  /-- `ERASE` (R374). KS_CMD.ERASE erases the slot after any retirement. -/
  | ksErase (p : Path)
  /-- `ERASE_ALL` (R374). KS_CMD.ERASE_ALL erases every slot and clears the tamper latch. -/
  | ksEraseAll (p : Path)
  /-- `KEY_RETIRED` (R374). The last operation under the former key ends, and the key is erased and the generation advances. -/
  | keyRetired (idx : Nat)
  /-- `ROTATE` (R379). A write of LINK_ROT.ROTATE starts a link-key replacement on a port. -/
  | linkRotate (p : Path) (n : Nat)
  /-- `KEY_ROTATION_DUE` (R381). The current link key reaches HOURS of use, and the initiator starts a replacement. -/
  | keyRotationDue (n : Nat)
  /-- `KEY_REPLACEMENT_RETRY` (R381). 60 s after a failed replacement it is tried again. -/
  | keyReplacementRetry (n : Nat)
  /-- `KEY_AGE_LIMIT` (R381). A link key reaching 96 h of use forces RETRAIN and sets KEY_FAIL. -/
  | keyAgeLimit (n : Nat)
  /-- `NEXT_READY` (R379). A received KEY NEXT_READY shows that the far end holds the next keys. -/
  | nextReady (n : Nat) (gen : Nat) (eph : List Byte) (farInit : Bool)
  /-- `KAT_CHAL` (R379). A received KAT_CHAL is answered with KAT_RESP under the next transmit key. -/
  | katChal (n : Nat) (data : Nat)
  /-- `KAT_RESP` (R379). A received KAT_RESP is checked, and a wrong answer abandons the replacement. -/
  | katResp (n : Nat) (data : Nat)
  /-- `KEY_SWITCH_MSG` (R379). A received KEY SWITCH naming W is acknowledged with SWITCH_ACK. -/
  | keySwitchMsg (n : Nat) (gen : Nat) (w : Nat)
  /-- `SWITCH_ACK` (R379). A received SWITCH_ACK confirms the switch cycle to the initiator. -/
  | switchAck (n : Nat) (gen : Nat) (w : Nat)
  /-- `OLD_RELEASED` (R380). A received OLD_RELEASED shows that the far end has seen the new key. -/
  | oldReleased (n : Nat) (gen : Nat)
  /-- `KEY_SWITCH_CYCLE` (R379). At cycle W slots are sent under the new key with KEYSEL 1. -/
  | keySwitchCycle (n : Nat)
  /-- `KEY_RELEASE_CYCLE` (R380). At cycle P the new key becomes current with KEYSEL 0 and the old is erased, or the port retrains. -/
  | keyReleaseCycle (n : Nat)
  /-- `KEY_LATE_SWITCH` (R380). An end that sees valid new-key slots without having switched switches at the next boundary. -/
  | keyLateSwitch (n : Nat)
  /-- `MR_EXT_GO` (R383). MR_EXT_CMD.GO extends the selected measurement register with 48 bytes. -/
  | mrExtGo (p : Path)
  /-- `ATT_GO` (R384). ATT_CMD.GO starts signing an attestation statement over the nonce. -/
  | attGo (p : Path)
  /-- `ATT_DONE` (R384). The signed statement is in ATT_BUF, and ATT_DONE is set. -/
  | attDone
  /-- `CHALLENGE_READ` (R386). A read of CHALLENGE0 makes a new 32-byte challenge and voids the old one. -/
  | challengeRead (p : Path)
  /-- `SUBMIT` (R386). AUTH_CMD.SUBMIT checks a token and opens its operation for 60 s. -/
  | authSubmit (p : Path)
  /-- `CLOSE` (R387). AUTH_CMD.CLOSE voids an open authorisation. -/
  | authClose (p : Path)
  /-- `AUTH_EXPIRY` (R387). 60 s after opening, an authorisation is voided. -/
  | authExpiry
  /-- `OTP_DATA_WRITE` (R387). An OTP_DATA write collects a word to program and advances OTP_ADDR. -/
  | otpDataWrite (p : Path) (v : Nat)
  /-- `PROGRAM` (R387). OTP_CMD.PROGRAM programs the collected words under an open OTP authorisation. -/
  | otpProgram (p : Path)
  /-- `DRBG_HEALTH_FAIL` (R385). A failed DRBG health test clears DRBG_OK, and random-data operations are rejected. -/
  | drbgHealthFail
  /-- `BOOT_B1_AON_UP` (R391). Step B1 samples straps and OTP and reads the ledger: three samples of ROLE and BOOTSEL (R428). -/
  | bootB1AonUp (x : Nat × Nat) (y : Nat × Nat) (z : Nat × Nat)
  /-- `BOOT_B2_RAILS` (R397). Step B2 runs the selected rail-script copy and extends MR2. -/
  | bootB2Rails (mode : Nat)
  /-- `BOOT_B3_KEYS` (R368). Step B3 regenerates the root secret from the PUF and derives the KEK and identity key. -/
  | bootB3Keys (ok : Bool)
  /-- `BOOT_B4_IMAGE` (R398). Step B4 checks the WSI header and payload in order and extends MR0. -/
  | bootB4Image
  /-- `BOOT_B5_ENGINES` (R293). Step B5 loads engine segments, checks their digests and brings engines to RUNNING. -/
  | bootB5Engines (bad : List Nat)
  /-- `BOOT_B6_CONFIGURATION` (R400). Step B6 applies the configuration region as register writes and extends MR4. -/
  | bootB6Configuration
  /-- `BOOT_B7_LINKS` (R401). Step B7 waits until every enabled port is settled. -/
  | bootB7Links (quiet : List Nat)
  /-- `BOOT_B8_RUNNING` (R394). The start reaches B8, and the ledger counts are zeroed. -/
  | bootB8Running
  /-- `BOOT_STEP_TIMEOUT` (R391). A start-up step exceeds its maximum and fails with code 0x01. -/
  | bootStepTimeout
  /-- `CLR_CNT` (R395). LEDGER_CMD.CLR_CNT sets every ledger count to zero. -/
  | clrCnt (p : Path)
  /-- `RESET_ALT` (R395). LEDGER_CMD.RESET_ALT clears the ALT flags of the named steps. -/
  | resetAlt (p : Path) (mask : Nat)
  /-- `RB_ADVANCE` (R399). RB_ADVANCE raises the OTP rollback floor to the running image's index after B8. -/
  | rbAdvance (p : Path)
  /-- `LOADER_ENTER` (R402). LOADER_CMD.ENTER starts the lapidary loader. -/
  | loaderEnter (p : Path)
  /-- `LOADER_IDLE_TIMEOUT` (R402). A loader entered from a running image with no transfer for 120 s makes a warm reset. -/
  | loaderIdleTimeout
  /-- `CFG_DATA_WRITE` (R400). A CFG_DATA write programs a configuration word and advances CFG_ADDR. -/
  | cfgDataWrite (p : Path) (v : Nat)
  /-- `CFG_COMMIT` (R400). CFG_CMD.COMMIT checks format and CRC and, on success, clears ALT B6. -/
  | cfgCommit (p : Path)
  /-- `CFG_ERASE` (R400). CFG_CMD.ERASE erases the configuration region. -/
  | cfgErase (p : Path)
  /-- `IMAGE_WRITE_DONE` (R404). The image write and read-back end, and UPD_INCOMPLETE clears before a warm reset, or the write fails. -/
  | imageWriteDone (ok : Bool) (erase : Bool)
  /-- `SVC_UART_GAP_TIMEOUT` (R406). A gap of more than 10 ms inside a service-UART frame discards it. -/
  | svcUartGapTimeout
  /-- `SVC_MGMT` (R406). Service-UART frame MGMT executes management records and returns their responses. -/
  | svcMgmt (seq : Nat) (data : List Byte)
  /-- `CONSOLE` (R406). Service-UART frame CONSOLE carries console text. -/
  | console (seq : Nat) (text : List Byte)
  /-- `UPD_START` (R406). Service-UART frame UPD_START begins an image transfer, entering the loader first if needed. -/
  | updStart (seq : Nat) (len : Nat)
  /-- `UPD_DATA` (R406). Service-UART frame UPD_DATA stages image bytes at the next offset. -/
  | updData (seq : Nat) (off : Nat) (d : List Byte)
  /-- `UPD_END` (R406). Service-UART frame UPD_END starts check 8 and the write. -/
  | updEnd (seq : Nat)
  /-- `UPD_STATUS` (R406). Service-UART frame UPD_STATUS returns phase, reason and bytes received. -/
  | updStatus (seq : Nat)
  /-- `ENTER_LOADER` (R402). Service-UART frame ENTER_LOADER starts the lapidary loader. -/
  | enterLoader (seq : Nat)
  /-- `TRIGGER_FIRE` (R412). A trigger slot's source fires, and its snapshot record is queued and started. -/
  | triggerFire
  /-- `FIRE` (R412). REC_CMD.FIRE fires the named trigger slot. -/
  | recFire (p : Path) (slot : Nat)
  /-- `SNAPSHOT_READ_TIMEOUT` (R413). A snapshot word not read within 100 µs is recorded as zero with its flag. -/
  | snapshotReadTimeout (e : Nat)
  /-- `RECORD_WRITTEN` (R413). A record's last snapshot read completes and the record enters the ring with its CRC. -/
  | recordWritten
  /-- `CHAIN_CONTINUATION` (R414). A chained slot continues the snapshot in a further record. -/
  | chainContinuation
  /-- `TRIGGER_HOLDOFF_END` (R415). A slot's HOLDOFF ends and it may fire again. -/
  | triggerHoldoffEnd (t : Nat)
  /-- `FLUSH_TIMER` (R417). The oldest waiting record reaches FLUSH_MS, so a flush starts. -/
  | flushTimer
  /-- `FLUSH` (R417). REC_CMD.FLUSH starts a flush of waiting records. -/
  | recFlush (p : Path)
  /-- `FLUSH_RECORD_DONE` (R417). A record is written to the flash region and FLUSHED_SEQ advances, or the failure is counted. -/
  | flushRecordDone (fails : Nat)
  /-- `CLEAR` (R423). REC_CMD.CLEAR under authorisation discards all records and writes a CLEARED record. -/
  | recClear (p : Path)
  /-- `CLEAR_ERASE_DONE` (R423). The flash region's erase ends, and held records are flushed after CLEARED. -/
  | clearEraseDone
  /-- `DOMAIN_UP` (R53). A domain that was switched on finishes powering up, DOMAIN_UP becomes 1, and accesses stalled on it proceed. -/
  | domainUp (d : Nat)
  /-- `D2_POWER_LOSS` (R13). LINE, AUX and VBUS are all below their thresholds and VHOLD is spent, so D2 and D0 lose power, which clears FET faults and the energy count. -/
  | d2PowerLoss (vbat : Bool)
  /-- `ETH_LINK_CHANGE` (R270). An Ethernet PCS gains or loses block lock, synchronisation or autonegotiation, so ETH_STATUS.LINK changes and LINK_UP, LINK_DOWN or AN_DONE is set. -/
  | ethLinkChange (port : Nat) (link : Bool) (an : Bool) (speed : Nat)
  /-- `PCIE_LINK_CHANGE` (R197). The PCIe LTSSM reaches the active data-link state or leaves it, setting LINK_UP or LINK_DOWN, and an RWP safe point falls on entry to Detect. -/
  | pcieLinkChange (active : Bool) (ltssm : Nat) (rate : Nat × Nat) (cfg : List (Nat × PcieCfg × Nat))
  /-- `DP_LINK_TRAINING` (R234). The host's source trains the DPI main link, or the DPO trains the monitor, or either link is lost, setting TRAINED or LINK_LOST. -/
  | dpLinkTraining (dpo : Bool) (phase : Nat) (lanes : Nat) (rate : Nat) (fec : Bool)
  /-- `I2C_STRETCH_TIMEOUT` (R213). An I2C target holds the clock past STRETCH_TO, so the transfer ends with status 0x02 and I2C_TIMEOUT is set. -/
  | i2cStretchTimeout (unit : Nat) (tag : Nat) (arg : Nat)
  /-- `TJ_UPDATE` (R364). The on-die sensors are updated every 1 ms, which sets or clears WARN and releases the HOT restriction once Tj falls below HOT − 5 °C. -/
  | tjUpdate (t0 : Int) (t1 : Int) (t2 : Int) (t3 : Int)
  /-- `ANNOUNCE_RECEIVED` (R280). A received PTP Announce message is passed to engine 3, which runs the BMCA and may change port state or grandmaster. -/
  | announceReceived (port : Nat) (states : Nat) (gm : Nat × Option UtcInfo)
  /-- `OP_SECONDS_TICK` (R393). Each second with D0 powered, OP_SECONDS advances. -/
  | opSecondsTick
  /-- `ENGINE_LOAD_DONE` (R293). An engine in LOADING after its domain came on has its segment loaded and checked, and goes RUNNING or HALTED. -/
  | engineLoadDone (e : Nat) (ok : Bool)
  /-- `USBD_SUSPEND_CHANGE` (R255). The host suspends the service function's bus or resumes it, which sets USBD_STATUS.SUSPENDED and PG_ISR.SUSPEND or RESUME. -/
  | usbdSuspendChange (suspended : Bool) (addr : Nat) (cfg : Bool) (rwake : Bool)
  deriving DecidableEq, Repr

end Sys2Proof
end

