-- ==== Sys2Proof/Config.lean ====
section
/-!
DEFINITION. What an implementation, a unit or an outside standard fixes, as constants without a body: no proof can
see their values, so every statement about them holds whatever they are.
-/

namespace Sys2Proof.Config

/-- A fresh free value: the model applies it to a counter of the state that every use advances.
Used for random data (R385) and for values the spec leaves open. -/
opaque freeValue : Nat → Nat

/-- SHA-384, which the spec uses by reference (R383). -/
opaque sha384 : List Byte → BitVec 384

/-- AES-256 of one block (R374, R379 known answers): key, block. -/
opaque aes256 : BitVec 256 → BitVec 128 → BitVec 128

/-- The key derivations of R369 and R377: a label number, the secret material and the context bytes. -/
opaque kdf : Nat → List Byte → List Byte → BitVec 384

/-- Verification of an ECDSA P-384 signature: public key, message, signature (R376, R386, R398). -/
opaque verify : List Byte → List Byte → List Byte → Bool

/-- An ECDSA P-384 signature over a message, with the chip's identity key (R384). -/
opaque sign : BitVec 384 → List Byte → List Byte

/-- ECDH P-384 shared secret of a private scalar and a public value (R377). -/
opaque ecdh : BitVec 384 → List Byte → BitVec 384

/-- The 64-bit AES-256-GCM tag of R378: key, nonce, additional authenticated data, ciphertext. -/
opaque gcmTag : BitVec 256 → List Byte → List Byte → List Byte → BitVec 64

/-- The AES-256-GCM key stream of a key and nonce (R378); a payload is encrypted and decrypted by XOR with it. -/
opaque gcmStream : BitVec 256 → List Byte → Nat → Byte

/-- The SP 800-108 KDF with HMAC-SHA-384 for 64 bytes (R377): secret and context; the label is "WLN LINK". -/
opaque kdfLink : List Byte → List Byte → BitVec 512

/-- HMAC-SHA-384: key and message (R374). -/
opaque hmac384 : BitVec 384 → List Byte → BitVec 384

/-- The x coordinate of the P-384 public key of a private scalar (R374). -/
opaque pubX : BitVec 384 → BitVec 384

/-- A public value of a private scalar as bytes x, y (R376). -/
opaque pubKey : BitVec 384 → List Byte

/-- A certificate chain ends at the Welnel root (R376). -/
opaque certRootOk : List Byte → Bool

/-- The unit ID and the public key that a certificate chain names (R376). -/
opaque certUnit : List Byte → Nat
opaque certKey : List Byte → List Byte

/-- The device identity key that R369 derives, per unit. -/
opaque deviceKey : BitVec 384

/-- The OTP words as manufactured, per unit; programmed bits are added to them (R387). -/
opaque otpWord : Nat → Nat

/-- Fields that the chip takes from its OTP words, whose places the spec does not give: the key hash 0 (Welnel) or 1 (OEM), the
rollback floor at manufacture, the addresses PMB_ADDRd, the USB and PCIe vendor IDs and the subsystem vendor ID, LOG2 of BAR2, and
the MAC address of a port.  The argument lists the words programmed since manufacture. -/
opaque otpKeyHash : List (Nat × Nat) → Nat → BitVec 384
opaque otpFloor : List (Nat × Nat) → Nat
opaque otpPmbAddr : List (Nat × Nat) → Nat → Nat
opaque otpIds : List (Nat × Nat) → Nat × Nat × Nat
opaque otpBar2 : List (Nat × Nat) → Nat
opaque otpMac : List (Nat × Nat) → Nat → Nat

/-- The word at an index of the certificate buffer, per unit (SEC.CERT_BUF, "per unit"). -/
opaque certWord : Nat → Word

/-- SEC.CERT_LEN, per unit: bytes of the certificates. -/
opaque certLen : Nat

/-- The bytes of an LPB frame, whose format the spec does not give: a request by kind (0 posted write, 1 read, 2 atomic, 3 locked read, 4 Unlock),
request number, requester, beats (address, byte enables, data) and atomic operation; an answer by number, whether more follow, cause, address,
time and data. -/
opaque lpbRequest : Nat → Nat → Nat → List (Nat × Nat × Nat) → Option (Nat × Nat × Nat × Nat) → List Byte
opaque lpbAnswer : Nat → Bool → Nat → Nat → Nat → List Nat → List Byte

/-- The namespace of the scribe's log has LBAs of 512 bytes; otherwise of 4,096 (R289). -/
opaque lba512 : Bool

/-- LBAs of a log block of 4,096 bytes (R289). -/
def lbaPerBlock : Nat := if lba512 then 8 else 1

end Sys2Proof.Config
end

