-- ==== Sys2Proof/Machine/RegMap.lean ====
section
/-!
DEFINITION. The register map: one `Fld` for every field of the register tables of `spec/`, the reset words
(R8), and for each page the access type and the range check of every field (R2, R9, R10).
Addresses are byte addresses of the register space of R34: page `p` starts at `p * 0x1000`.
State reached through a window (contexts, meters, subscriptions, publications) has addresses of the
model's own above the register space.  The tables below restate the register tables of the spec.
-/

namespace Sys2Proof.Machine

/-! Registers of `spec/01_architecture.md`. -/

def SYS_TREE_POS_CHIP : Fld := ⟨0x00060, 23, 20⟩
def SYS_TREE_POS_DEPTH : Fld := ⟨0x00060, 19, 17⟩
def SYS_TREE_POS_CROWN : Fld := ⟨0x00060, 16, 16⟩
def SYS_TREE_POS_UP_PORT : Fld := ⟨0x00060, 15, 14⟩
def SYS_TREE_POS_TWIN_PORTS : Fld := ⟨0x00060, 13, 11⟩
def SYS_TREE_POS_EXCESS : Fld := ⟨0x00060, 10, 8⟩
def SYS_TREE_POS_CHIPS : Fld := ⟨0x00060, 7, 0⟩

/-! Registers of `spec/02_register_pages.md`. -/

def SYS_STALL_LIMIT_US : Fld := ⟨0x00064, 9, 0⟩
def SYS_RST_WARM : Fld := ⟨0x00068, 16, 16⟩
def SYS_RST_KEY : Fld := ⟨0x00068, 15, 0⟩
def SYS_WDT_CTRL_EN : Fld := ⟨0x0006C, 31, 31⟩
def SYS_WDT_CTRL_PERIOD_MS : Fld := ⟨0x0006C, 15, 0⟩
def SYS_WDT_KICK : Fld := ⟨0x00070, 31, 0⟩
def SYS_WDT_STATUS_RESETS : Fld := ⟨0x00074, 31, 16⟩
def SYS_WDT_STATUS_REMAIN_MS : Fld := ⟨0x00074, 15, 0⟩

/-! Registers of `spec/03_kweiqlink_lanes.md`. -/

def LNK_CTRL_GLINT_TO (a : Nat) : Fld := ⟨0x10040 + 0x1000 * a, 23, 16⟩
def LNK_CTRL_RETRAIN (a : Nat) : Fld := ⟨0x10040 + 0x1000 * a, 8, 8⟩
def LNK_CTRL_STICKY_SPEED (a : Nat) : Fld := ⟨0x10040 + 0x1000 * a, 7, 7⟩
def LNK_CTRL_FIXED_EQ (a : Nat) : Fld := ⟨0x10040 + 0x1000 * a, 6, 6⟩
def LNK_CTRL_KEYS_MODE (a : Nat) : Fld := ⟨0x10040 + 0x1000 * a, 5, 4⟩
def LNK_CTRL_MODE1040 (a : Nat) : Fld := ⟨0x10040 + 0x1000 * a, 3, 3⟩
def LNK_CTRL_MAX_SPEED (a : Nat) : Fld := ⟨0x10040 + 0x1000 * a, 2, 1⟩
def LNK_STATUS_LAST_DOWN (a : Nat) : Fld := ⟨0x10044 + 0x1000 * a, 27, 24⟩
def LNK_STATUS_TX_PRESET (a : Nat) : Fld := ⟨0x10044 + 0x1000 * a, 23, 20⟩
def LNK_STATUS_SKEW_UI (a : Nat) : Fld := ⟨0x10044 + 0x1000 * a, 19, 13⟩
def LNK_STATUS_RX_INV (a : Nat) : Fld := ⟨0x10044 + 0x1000 * a, 12, 11⟩
def LNK_STATUS_LANES_SWAPPED (a : Nat) : Fld := ⟨0x10044 + 0x1000 * a, 10, 10⟩
def LNK_STATUS_KEYS_ON (a : Nat) : Fld := ⟨0x10044 + 0x1000 * a, 9, 9⟩
def LNK_STATUS_MODE1040 (a : Nat) : Fld := ⟨0x10044 + 0x1000 * a, 8, 8⟩
def LNK_STATUS_PARENT (a : Nat) : Fld := ⟨0x10044 + 0x1000 * a, 7, 7⟩
def LNK_STATUS_CHILD_EXCESS (a : Nat) : Fld := ⟨0x10044 + 0x1000 * a, 6, 6⟩
def LNK_STATUS_SPEED (a : Nat) : Fld := ⟨0x10044 + 0x1000 * a, 5, 4⟩
def LNK_STATUS_TSTATE (a : Nat) : Fld := ⟨0x10044 + 0x1000 * a, 3, 0⟩
def LNK_FAIL_COUNT (a : Nat) : Fld := ⟨0x10048 + 0x1000 * a, 17, 16⟩
def LNK_FAIL_CEILING (a : Nat) : Fld := ⟨0x10048 + 0x1000 * a, 15, 14⟩
def LNK_FAIL_SPEED (a : Nat) : Fld := ⟨0x10048 + 0x1000 * a, 13, 12⟩
def LNK_FAIL_STATE (a : Nat) : Fld := ⟨0x10048 + 0x1000 * a, 11, 8⟩
def LNK_FAIL_CAUSE (a : Nat) : Fld := ⟨0x10048 + 0x1000 * a, 7, 0⟩
def LNK_EQ_EYE1 (a : Nat) : Fld := ⟨0x1004C + 0x1000 * a, 23, 16⟩
def LNK_EQ_EYE0 (a : Nat) : Fld := ⟨0x1004C + 0x1000 * a, 15, 8⟩
def LNK_EQ_TX_PRESET (a : Nat) : Fld := ⟨0x1004C + 0x1000 * a, 3, 0⟩
def LNK_PEER_ID_LO (a : Nat) : Fld := ⟨0x10050 + 0x1000 * a, 31, 0⟩
def LNK_PEER_ID_HI (a : Nat) : Fld := ⟨0x10054 + 0x1000 * a, 31, 0⟩
def LNK_PEER_INFO_HWTYPE (a : Nat) : Fld := ⟨0x10058 + 0x1000 * a, 31, 16⟩
def LNK_PEER_INFO_PORT (a : Nat) : Fld := ⟨0x10058 + 0x1000 * a, 12, 11⟩
def LNK_PEER_INFO_DEPTH (a : Nat) : Fld := ⟨0x10058 + 0x1000 * a, 10, 8⟩
def LNK_PEER_INFO_CHIP (a : Nat) : Fld := ⟨0x10058 + 0x1000 * a, 7, 4⟩
def LNK_PEER_INFO_ATTACHED (a : Nat) : Fld := ⟨0x10058 + 0x1000 * a, 2, 2⟩
def LNK_PEER_INFO_STRAP (a : Nat) : Fld := ⟨0x10058 + 0x1000 * a, 1, 0⟩
def LNK_ROLE_CTRL_LAST_RESULT (a : Nat) : Fld := ⟨0x1005C + 0x1000 * a, 3, 2⟩
def LNK_ROLE_CTRL_SWAP_PENDING (a : Nat) : Fld := ⟨0x1005C + 0x1000 * a, 1, 1⟩
def LNK_ROLE_CTRL_SWAP_REQ (a : Nat) : Fld := ⟨0x1005C + 0x1000 * a, 0, 0⟩
def LNK_C1040_CRED_INIT (a : Nat) : Fld := ⟨0x10060 + 0x1000 * a, 9, 0⟩
def LNK_FEC_CORR (a : Nat) : Fld := ⟨0x10080 + 0x1000 * a, 31, 0⟩
def LNK_FEC_UNCORR (a : Nat) : Fld := ⟨0x10084 + 0x1000 * a, 31, 0⟩
def LNK_CELLS_VOID (a : Nat) : Fld := ⟨0x10088 + 0x1000 * a, 31, 0⟩
def LNK_TRAIN_CNT_FAIL (a : Nat) : Fld := ⟨0x1008C + 0x1000 * a, 31, 16⟩
def LNK_TRAIN_CNT_OK (a : Nat) : Fld := ⟨0x1008C + 0x1000 * a, 15, 0⟩
def LNK_WAKE_CNT_ACTIVITY (a : Nat) : Fld := ⟨0x10090 + 0x1000 * a, 31, 16⟩
def LNK_WAKE_CNT_GLINT (a : Nat) : Fld := ⟨0x10090 + 0x1000 * a, 15, 0⟩
def LNK_ROLE_CNT_COLLIDE (a : Nat) : Fld := ⟨0x10094 + 0x1000 * a, 31, 16⟩
def LNK_ROLE_CNT_SWAP (a : Nat) : Fld := ⟨0x10094 + 0x1000 * a, 15, 0⟩
def LNK_SYNC_ERR (a : Nat) : Fld := ⟨0x10098 + 0x1000 * a, 31, 0⟩

/-! Registers of `spec/04_cycle_and_carats.md`. -/

def CYC_STATUS_DATA_SLOTS (a : Nat) : Fld := ⟨0x13040 + 0x1000 * a, 31, 16⟩
def CYC_STATUS_TIME_MASTER (a : Nat) : Fld := ⟨0x13040 + 0x1000 * a, 11, 11⟩
def CYC_STATUS_PROPOSER (a : Nat) : Fld := ⟨0x13040 + 0x1000 * a, 10, 10⟩
def CYC_STATUS_PEND (a : Nat) : Fld := ⟨0x13040 + 0x1000 * a, 9, 8⟩
def CYC_STATUS_ACT_EPOCH (a : Nat) : Fld := ⟨0x13040 + 0x1000 * a, 7, 0⟩
def CYC_CYCLE_NUM (a : Nat) : Fld := ⟨0x13044 + 0x1000 * a, 31, 0⟩
def CYC_EPOCH_CTRL_LEAD (a : Nat) : Fld := ⟨0x13048 + 0x1000 * a, 15, 8⟩
def CYC_EPOCH_CTRL_CHECK (a : Nat) : Fld := ⟨0x13048 + 0x1000 * a, 2, 2⟩
def CYC_EPOCH_CTRL_WITHDRAW (a : Nat) : Fld := ⟨0x13048 + 0x1000 * a, 1, 1⟩
def CYC_EPOCH_CTRL_REQ (a : Nat) : Fld := ⟨0x13048 + 0x1000 * a, 0, 0⟩
def CYC_EPOCH_STATUS_EPOCH (a : Nat) : Fld := ⟨0x1304C + 0x1000 * a, 31, 24⟩
def CYC_EPOCH_STATUS_REASON (a : Nat) : Fld := ⟨0x1304C + 0x1000 * a, 23, 16⟩
def CYC_EPOCH_STATUS_RESULT (a : Nat) : Fld := ⟨0x1304C + 0x1000 * a, 11, 8⟩
def CYC_EPOCH_STATUS_CHECK_VALID (a : Nat) : Fld := ⟨0x1304C + 0x1000 * a, 7, 7⟩
def CYC_EPOCH_STATUS_CHECK_CODE (a : Nat) : Fld := ⟨0x1304C + 0x1000 * a, 6, 0⟩
def CYC_SWAP_CYCLE (a : Nat) : Fld := ⟨0x13050 + 0x1000 * a, 31, 0⟩
def CYC_DIGEST_TX_SH (a : Nat) : Fld := ⟨0x13054 + 0x1000 * a, 31, 0⟩
def CYC_DIGEST_RX_SH (a : Nat) : Fld := ⟨0x13058 + 0x1000 * a, 31, 0⟩
def CYC_DIGEST_TX_ACT (a : Nat) : Fld := ⟨0x1305C + 0x1000 * a, 31, 0⟩
def CYC_DIGEST_RX_ACT (a : Nat) : Fld := ⟨0x13060 + 0x1000 * a, 31, 0⟩
def CYC_PLACE_STATUS_VALID (a : Nat) : Fld := ⟨0x13064 + 0x1000 * a, 31, 31⟩
def CYC_PLACE_STATUS_FAIL (a : Nat) : Fld := ⟨0x13064 + 0x1000 * a, 30, 30⟩
def CYC_PLACE_STATUS_FAIL_LTN (a : Nat) : Fld := ⟨0x13064 + 0x1000 * a, 23, 16⟩
def CYC_PLACE_STATUS_SHARED (a : Nat) : Fld := ⟨0x13064 + 0x1000 * a, 15, 0⟩
def CYC_GIRDLE_LOAD_LIMIT (a : Nat) : Fld := ⟨0x13068 + 0x1000 * a, 31, 16⟩
def CYC_GIRDLE_LOAD_LOAD (a : Nat) : Fld := ⟨0x13068 + 0x1000 * a, 15, 0⟩
def CYC_EPOCH_CNT_REFUSED (a : Nat) : Fld := ⟨0x1306C + 0x1000 * a, 31, 16⟩
def CYC_EPOCH_CNT_DONE (a : Nat) : Fld := ⟨0x1306C + 0x1000 * a, 15, 0⟩
def CYC_CTRL_BAD (a : Nat) : Fld := ⟨0x13070 + 0x1000 * a, 31, 0⟩
def CYC_LATE_CNT_SPLIT (a : Nat) : Fld := ⟨0x13074 + 0x1000 * a, 31, 16⟩
def CYC_LATE_CNT_LATE (a : Nat) : Fld := ⟨0x13074 + 0x1000 * a, 15, 0⟩
def CYC_CELL_BAD (a : Nat) : Fld := ⟨0x13078 + 0x1000 * a, 31, 0⟩
def CYC_WIN_A_LEN (a b : Nat) : Fld := ⟨0x13100 + 0x1000 * a + 0x8 * b, 27, 16⟩
def CYC_WIN_A_START (a b : Nat) : Fld := ⟨0x13100 + 0x1000 * a + 0x8 * b, 11, 0⟩
def CYC_WIN_B_EN (a b : Nat) : Fld := ⟨0x13104 + 0x1000 * a + 0x8 * b, 31, 31⟩
def CYC_WIN_B_EXCL (a b : Nat) : Fld := ⟨0x13104 + 0x1000 * a + 0x8 * b, 8, 8⟩
def CYC_WIN_B_CMASK (a b : Nat) : Fld := ⟨0x13104 + 0x1000 * a + 0x8 * b, 7, 0⟩
def CYC_TX_SH_CAR_EVEN (a b : Nat) : Fld := ⟨0x13200 + 0x1000 * a + 0x4 * b, 11, 0⟩
def CYC_TX_SH_CAR_ODD (a b : Nat) : Fld := ⟨0x13200 + 0x1000 * a + 0x4 * b, 27, 16⟩
def CYC_TX_ACT_CAR_EVEN (a b : Nat) : Fld := ⟨0x13400 + 0x1000 * a + 0x4 * b, 11, 0⟩
def CYC_TX_ACT_CAR_ODD (a b : Nat) : Fld := ⟨0x13400 + 0x1000 * a + 0x4 * b, 27, 16⟩
def CYC_RX_SH_CAR_EVEN (a b : Nat) : Fld := ⟨0x13600 + 0x1000 * a + 0x4 * b, 11, 0⟩
def CYC_RX_SH_CAR_ODD (a b : Nat) : Fld := ⟨0x13600 + 0x1000 * a + 0x4 * b, 27, 16⟩
def CYC_RX_ACT_CAR_EVEN (a b : Nat) : Fld := ⟨0x13800 + 0x1000 * a + 0x4 * b, 11, 0⟩
def CYC_RX_ACT_CAR_ODD (a b : Nat) : Fld := ⟨0x13800 + 0x1000 * a + 0x4 * b, 27, 16⟩

/-! Registers of `spec/05_tunnels.md`. -/

def TUN_SEL_CTX : Fld := ⟨0x0F040, 7, 0⟩
def TUN_CMD_CLR_CNT : Fld := ⟨0x0F044, 3, 3⟩
def TUN_CMD_REBASE : Fld := ⟨0x0F044, 2, 2⟩
def TUN_CMD_COMMIT : Fld := ⟨0x0F044, 1, 1⟩
def TUN_CMD_LOAD : Fld := ⟨0x0F044, 0, 0⟩
def TUN_STATUS_LAST_CTX : Fld := ⟨0x0F048, 23, 16⟩
def TUN_STATUS_LAST_CMD : Fld := ⟨0x0F048, 11, 8⟩
def TUN_STATUS_REASON : Fld := ⟨0x0F048, 7, 0⟩
def TUN_COUNT_FAULT_N : Fld := ⟨0x0F04C, 24, 16⟩
def TUN_COUNT_ON_N : Fld := ⟨0x0F04C, 8, 0⟩
def TUN_NOCTX (a : Nat) : Fld := ⟨0x0F050 + 0x4 * a, 31, 0⟩
def TUN_CTX_EVT (a : Nat) : Fld := ⟨0x0F060 + 0x4 * a, 31, 0⟩
def TUN_CTX_FAULT (a : Nat) : Fld := ⟨0x0F080 + 0x4 * a, 31, 0⟩
def TUN_WIN (a : Nat) : Fld := ⟨0x0F100 + 0x4 * a, 31, 0⟩
def CTX_CTRL_DISCARD (a : Nat) : Fld := ⟨0x200000 + 0x80 * a, 1, 1⟩
def CTX_CTRL_EN (a : Nat) : Fld := ⟨0x200000 + 0x80 * a, 0, 0⟩
def CTX_STATE_CAUSE (a : Nat) : Fld := ⟨0x200004 + 0x80 * a, 15, 8⟩
def CTX_STATE_CM_HOLD (a : Nat) : Fld := ⟨0x200004 + 0x80 * a, 5, 5⟩
def CTX_STATE_BASE (a : Nat) : Fld := ⟨0x200004 + 0x80 * a, 4, 4⟩
def CTX_STATE_EN_PENDING (a : Nat) : Fld := ⟨0x200004 + 0x80 * a, 3, 3⟩
def CTX_STATE_LIFE (a : Nat) : Fld := ⟨0x200004 + 0x80 * a, 2, 0⟩
def CTX_MODE_ENC_REQ (a : Nat) : Fld := ⟨0x200008 + 0x80 * a, 16, 16⟩
def CTX_MODE_AGECLS (a : Nat) : Fld := ⟨0x200008 + 0x80 * a, 15, 13⟩
def CTX_MODE_FWD (a : Nat) : Fld := ⟨0x200008 + 0x80 * a, 12, 11⟩
def CTX_MODE_TWIN (a : Nat) : Fld := ⟨0x200008 + 0x80 * a, 10, 9⟩
def CTX_MODE_RELIABLE (a : Nat) : Fld := ⟨0x200008 + 0x80 * a, 8, 8⟩
def CTX_MODE_TC (a : Nat) : Fld := ⟨0x200008 + 0x80 * a, 6, 4⟩
def CTX_MODE_TYPE (a : Nat) : Fld := ⟨0x200008 + 0x80 * a, 3, 0⟩
def CTX_ING_A_V (a : Nat) : Fld := ⟨0x20000C + 0x80 * a, 31, 31⟩
def CTX_ING_A_POINT (a : Nat) : Fld := ⟨0x20000C + 0x80 * a, 27, 24⟩
def CTX_ING_A_LTN (a : Nat) : Fld := ⟨0x20000C + 0x80 * a, 23, 16⟩
def CTX_ING_A_SUB (a : Nat) : Fld := ⟨0x20000C + 0x80 * a, 15, 0⟩
def CTX_CARATS_B (a : Nat) : Fld := ⟨0x20001C + 0x80 * a, 27, 16⟩
def CTX_CARATS_A (a : Nat) : Fld := ⟨0x20001C + 0x80 * a, 11, 0⟩
def CTX_PEAK_PBS (a : Nat) : Fld := ⟨0x200020 + 0x80 * a, 31, 16⟩
def CTX_PEAK_PIR (a : Nat) : Fld := ⟨0x200020 + 0x80 * a, 11, 0⟩
def CTX_METER_MEN (a : Nat) : Fld := ⟨0x200024 + 0x80 * a, 31, 31⟩
def CTX_METER_MIDX (a : Nat) : Fld := ⟨0x200024 + 0x80 * a, 7, 0⟩
def CTX_REL_REPLAY_MAX (a : Nat) : Fld := ⟨0x200028 + 0x80 * a, 12, 0⟩
def CTX_STOP_STOP_TO (a : Nat) : Fld := ⟨0x20002C + 0x80 * a, 15, 0⟩
def CTX_SEQ_TX_NEXT (a : Nat) : Fld := ⟨0x200030 + 0x80 * a, 31, 16⟩
def CTX_SEQ_RX_NEXT (a : Nat) : Fld := ⟨0x200030 + 0x80 * a, 15, 0⟩
def CTX_ACKST_ACKED (a : Nat) : Fld := ⟨0x200034 + 0x80 * a, 31, 16⟩
def CTX_ACKST_OUTSTANDING (a : Nat) : Fld := ⟨0x200034 + 0x80 * a, 12, 0⟩
def CTX_RETRY_MERGE_H (a : Nat) : Fld := ⟨0x200038 + 0x80 * a, 31, 16⟩
def CTX_RETRY_RETRIES (a : Nat) : Fld := ⟨0x200038 + 0x80 * a, 3, 0⟩
def CTX_RSVD15 (a : Nat) : Fld := ⟨0x20003C + 0x80 * a, 31, 0⟩
def CTX_CELLS_IN (a : Nat) : Fld := ⟨0x200040 + 0x80 * a, 31, 0⟩
def CTX_CELLS_OUT (a : Nat) : Fld := ⟨0x200044 + 0x80 * a, 31, 0⟩
def CTX_FRAMES_IN (a : Nat) : Fld := ⟨0x200048 + 0x80 * a, 31, 0⟩
def CTX_FRAMES_OUT (a : Nat) : Fld := ⟨0x20004C + 0x80 * a, 31, 0⟩
def CTX_DROP_AGE (a : Nat) : Fld := ⟨0x200050 + 0x80 * a, 31, 0⟩
def CTX_DROP_INC (a : Nat) : Fld := ⟨0x200054 + 0x80 * a, 31, 0⟩
def CTX_REPLAY (a : Nat) : Fld := ⟨0x200058 + 0x80 * a, 31, 0⟩
def CTX_OOO (a : Nat) : Fld := ⟨0x20005C + 0x80 * a, 31, 0⟩
def CTX_DUP (a : Nat) : Fld := ⟨0x200060 + 0x80 * a, 31, 0⟩
def CTX_STALE (a : Nat) : Fld := ⟨0x200064 + 0x80 * a, 31, 0⟩
def CTX_LOST (a : Nat) : Fld := ⟨0x200068 + 0x80 * a, 31, 0⟩
def CTX_AHEAD (a : Nat) : Fld := ⟨0x20006C + 0x80 * a, 31, 0⟩
def CTX_CM_HOLDS (a : Nat) : Fld := ⟨0x200070 + 0x80 * a, 31, 16⟩
def CTX_CM_ENTRIES (a : Nat) : Fld := ⟨0x200070 + 0x80 * a, 15, 0⟩
def CTX_DROP_STOP (a : Nat) : Fld := ⟨0x200074 + 0x80 * a, 31, 0⟩
def CTX_FAULT_CYCLE (a : Nat) : Fld := ⟨0x200078 + 0x80 * a, 31, 0⟩
def CTX_RSVD31 (a : Nat) : Fld := ⟨0x20007C + 0x80 * a, 31, 0⟩

/-! Registers of `spec/06_girdle.md`. -/

def GRD_STATUS_AGE_HOLD : Fld := ⟨0x0D040, 16, 16⟩
def GRD_STATUS_BANKS_RET : Fld := ⟨0x0D040, 14, 8⟩
def GRD_STATUS_BANKS_UP : Fld := ⟨0x0D040, 6, 0⟩
def GRD_POOL_FREE_FREE : Fld := ⟨0x0D044, 17, 0⟩
def GRD_POOL_CM_CM_FREE : Fld := ⟨0x0D048, 17, 0⟩
def GRD_RSV_SUM_SUM : Fld := ⟨0x0D04C, 17, 0⟩
def GRD_PERF_MIN : Fld := ⟨0x0D050, 31, 16⟩
def GRD_PERF_NOW : Fld := ⟨0x0D050, 15, 0⟩
def GRD_AGE_TC_LIMIT (a : Nat) : Fld := ⟨0x0D060 + 0x4 * a, 19, 0⟩
def GRD_AGE_X_LIMIT (a : Nat) : Fld := ⟨0x0D080 + 0x4 * a, 19, 0⟩
def GRD_BANK_UP_LO : Fld := ⟨0x0D0A0, 31, 0⟩
def GRD_BANK_UP_HI : Fld := ⟨0x0D0A4, 31, 0⟩
def GRD_ECC_CORR : Fld := ⟨0x0D0A8, 31, 0⟩
def GRD_ECC_UNCORR : Fld := ⟨0x0D0AC, 31, 0⟩
def GRD_QFLUSH : Fld := ⟨0x0D0B0, 31, 0⟩
def GRD_QCFG_A_CM_THR (a : Nat) : Fld := ⟨0x0D200 + 0x8 * a, 31, 16⟩
def GRD_QCFG_A_RSV (a : Nat) : Fld := ⟨0x0D200 + 0x8 * a, 11, 0⟩
def GRD_QCFG_B_RETPREF (a : Nat) : Fld := ⟨0x0D204 + 0x8 * a, 31, 31⟩
def GRD_QCFG_B_MAX (a : Nat) : Fld := ⟨0x0D204 + 0x8 * a, 17, 0⟩
def GRD_QSTAT_OPEN (a : Nat) : Fld := ⟨0x0D600 + 0x4 * a, 31, 31⟩
def GRD_QSTAT_DEPTH (a : Nat) : Fld := ⟨0x0D600 + 0x4 * a, 17, 0⟩
def GRD_DROP_FULL (a : Nat) : Fld := ⟨0x0D800 + 0x20 * a, 31, 0⟩
def GRD_DROP_AGE (a : Nat) : Fld := ⟨0x0D804 + 0x20 * a, 31, 0⟩
def GRD_AGE_FRAMES (a : Nat) : Fld := ⟨0x0D808 + 0x20 * a, 31, 0⟩
def GRD_INC_OUT (a : Nat) : Fld := ⟨0x0D80C + 0x20 * a, 31, 0⟩
def GRD_CM_MARKED (a : Nat) : Fld := ⟨0x0D810 + 0x20 * a, 31, 0⟩
def GRD_CE_SET (a : Nat) : Fld := ⟨0x0D814 + 0x20 * a, 31, 0⟩
def GRD_CE_NOECT (a : Nat) : Fld := ⟨0x0D818 + 0x20 * a, 31, 0⟩
def GRD_ECC_VOID (a : Nat) : Fld := ⟨0x0D81C + 0x20 * a, 31, 0⟩

/-! Registers of `spec/07_scheduling.md`. -/

def SCH_LSCH_TC7_TAKE (a : Nat) : Fld := ⟨0x0E040 + 0x4 * a, 16, 16⟩
def SCH_LSCH_FIT_CT (a : Nat) : Fld := ⟨0x0E040 + 0x4 * a, 15, 8⟩
def SCH_FIT_DEFER (a : Nat) : Fld := ⟨0x0E050 + 0x10 * a, 31, 0⟩
def SCH_OWED (a : Nat) : Fld := ⟨0x0E054 + 0x10 * a, 31, 0⟩
def SCH_OWED_LOST (a : Nat) : Fld := ⟨0x0E058 + 0x10 * a, 31, 0⟩
def SCH_SHAPE_HOLD (a : Nat) : Fld := ⟨0x0E05C + 0x10 * a, 31, 0⟩
def SCH_MTR_SEL_MTR : Fld := ⟨0x0E0C0, 7, 0⟩
def SCH_MTR_CMD_CLR_CNT : Fld := ⟨0x0E0C4, 2, 2⟩
def SCH_MTR_CMD_COMMIT : Fld := ⟨0x0E0C4, 1, 1⟩
def SCH_MTR_CMD_LOAD : Fld := ⟨0x0E0C4, 0, 0⟩
def SCH_MTR_STATUS_LAST_MTR : Fld := ⟨0x0E0C8, 15, 8⟩
def SCH_MTR_STATUS_REASON : Fld := ⟨0x0E0C8, 7, 0⟩
def SCH_MTR_WIN (a : Nat) : Fld := ⟨0x0E0D0 + 0x4 * a, 31, 0⟩
def SCH_MTR_RED (a : Nat) : Fld := ⟨0x0E100 + 0x4 * a, 31, 0⟩
def MTR_CIR_RATE (a : Nat) : Fld := ⟨0x220000 + 0x20 * a, 26, 0⟩
def MTR_PIR_RATE (a : Nat) : Fld := ⟨0x220004 + 0x20 * a, 26, 0⟩
def MTR_BURST_PBS (a : Nat) : Fld := ⟨0x220008 + 0x20 * a, 31, 16⟩
def MTR_BURST_CBS (a : Nat) : Fld := ⟨0x220008 + 0x20 * a, 15, 0⟩
def MTR_CTRL_EN (a : Nat) : Fld := ⟨0x22000C + 0x20 * a, 31, 31⟩
def MTR_CTRL_AWARE (a : Nat) : Fld := ⟨0x22000C + 0x20 * a, 30, 30⟩
def MTR_CTRL_IRQ_RED (a : Nat) : Fld := ⟨0x22000C + 0x20 * a, 29, 29⟩
def MTR_CTRL_R_ACT (a : Nat) : Fld := ⟨0x22000C + 0x20 * a, 14, 13⟩
def MTR_CTRL_R_TC (a : Nat) : Fld := ⟨0x22000C + 0x20 * a, 12, 10⟩
def MTR_CTRL_Y_ACT (a : Nat) : Fld := ⟨0x22000C + 0x20 * a, 9, 8⟩
def MTR_CTRL_Y_TC (a : Nat) : Fld := ⟨0x22000C + 0x20 * a, 7, 5⟩
def MTR_CTRL_G_ACT (a : Nat) : Fld := ⟨0x22000C + 0x20 * a, 4, 3⟩
def MTR_CTRL_G_TC (a : Nat) : Fld := ⟨0x22000C + 0x20 * a, 2, 0⟩
def MTR_GREEN (a : Nat) : Fld := ⟨0x220010 + 0x20 * a, 31, 0⟩
def MTR_YELLOW (a : Nat) : Fld := ⟨0x220014 + 0x20 * a, 31, 0⟩
def MTR_RED (a : Nat) : Fld := ⟨0x220018 + 0x20 * a, 31, 0⟩
def MTR_W7 (a : Nat) : Fld := ⟨0x220018 + 0x20 * a, 31, 0⟩
def SCH_GCL_OPER_SEL_LIST : Fld := ⟨0x0E0F0, 10, 8⟩
def SCH_GCL_OPER_SEL_ENTRY : Fld := ⟨0x0E0F0, 5, 0⟩
def SCH_GCL_OPER_DATA : Fld := ⟨0x0E0F4, 31, 0⟩
def SCH_GCL_CTRL_GATE_EN (a : Nat) : Fld := ⟨0x0E200 + 0x20 * a, 31, 31⟩
def SCH_GCL_CTRL_CFG_CHANGE (a : Nat) : Fld := ⟨0x0E200 + 0x20 * a, 30, 30⟩
def SCH_GCL_CTRL_CFG_PENDING (a : Nat) : Fld := ⟨0x0E200 + 0x20 * a, 29, 29⟩
def SCH_GCL_CTRL_ADMIN_LEN (a : Nat) : Fld := ⟨0x0E200 + 0x20 * a, 6, 0⟩
def SCH_ADMIN_CYCLE_NS (a : Nat) : Fld := ⟨0x0E204 + 0x20 * a, 29, 0⟩
def SCH_ADMIN_BASE_S (a : Nat) : Fld := ⟨0x0E208 + 0x20 * a, 31, 0⟩
def SCH_ADMIN_BASE_NS_NS (a : Nat) : Fld := ⟨0x0E20C + 0x20 * a, 29, 0⟩
def SCH_ADMIN_EXT_NS (a : Nat) : Fld := ⟨0x0E210 + 0x20 * a, 19, 0⟩
def SCH_OPER_STATUS_GATES (a : Nat) : Fld := ⟨0x0E214 + 0x20 * a, 31, 24⟩
def SCH_OPER_STATUS_ENTRY (a : Nat) : Fld := ⟨0x0E214 + 0x20 * a, 21, 16⟩
def SCH_OPER_STATUS_VALID (a : Nat) : Fld := ⟨0x0E214 + 0x20 * a, 8, 8⟩
def SCH_OPER_STATUS_LEN (a : Nat) : Fld := ⟨0x0E214 + 0x20 * a, 6, 0⟩
def SCH_OPER_CYCLE_NS (a : Nat) : Fld := ⟨0x0E218 + 0x20 * a, 29, 0⟩
def SCH_OVERRUN (a : Nat) : Fld := ⟨0x0E21C + 0x20 * a, 31, 0⟩

/-! Registers of `spec/08_network_time.md`. -/

def TIME_LO : Fld := ⟨0x06040, 31, 0⟩
def TIME_HI : Fld := ⟨0x06044, 31, 0⟩
def TIME_UTC_OFS_VALID : Fld := ⟨0x06048, 31, 31⟩
def TIME_UTC_OFS_LI61 : Fld := ⟨0x06048, 17, 17⟩
def TIME_UTC_OFS_LI59 : Fld := ⟨0x06048, 16, 16⟩
def TIME_UTC_OFS_OFFSET : Fld := ⟨0x06048, 15, 0⟩
def TIME_SRC_CTRL_TOD_UART : Fld := ⟨0x0604C, 7, 6⟩
def TIME_SRC_CTRL_PTP_PORT : Fld := ⟨0x0604C, 5, 4⟩
def TIME_SRC_CTRL_SRC : Fld := ⟨0x0604C, 2, 0⟩
def TIME_SRC_STATUS_HOLD_S : Fld := ⟨0x06050, 31, 16⟩
def TIME_SRC_STATUS_CAUSE : Fld := ⟨0x06050, 11, 8⟩
def TIME_SRC_STATUS_ROOT : Fld := ⟨0x06050, 4, 4⟩
def TIME_SRC_STATUS_TIME_VALID : Fld := ⟨0x06050, 3, 3⟩
def TIME_SRC_STATUS_STATE : Fld := ⟨0x06050, 2, 0⟩
def TIME_OFFSET : Fld := ⟨0x06054, 31, 0⟩
def TIME_THRESH_STEP_THR : Fld := ⟨0x06058, 31, 16⟩
def TIME_THRESH_LOCK_THR : Fld := ⟨0x06058, 15, 0⟩
def TIME_SERVO_LINK_BW : Fld := ⟨0x0605C, 31, 16⟩
def TIME_SERVO_SRC_BW : Fld := ⟨0x0605C, 15, 0⟩
def TIME_SLEW_SLEW_MAX : Fld := ⟨0x06060, 7, 0⟩
def TIME_FREQ : Fld := ⟨0x06064, 31, 0⟩
def TIME_HOLD_HOLD_VALID : Fld := ⟨0x06068, 31, 16⟩
def TIME_HOLD_HOLD_MAX : Fld := ⟨0x06068, 15, 0⟩
def TIME_SET_S : Fld := ⟨0x0606C, 31, 0⟩
def TIME_SET_NS_NS : Fld := ⟨0x06070, 29, 0⟩
def TIME_STEP_CMD_SET : Fld := ⟨0x06074, 0, 0⟩
def TIME_STEP_STATUS_COUNT : Fld := ⟨0x06078, 31, 16⟩
def TIME_STEP_STATUS_PENDING : Fld := ⟨0x06078, 0, 0⟩
def TIME_STEP_CYCLE : Fld := ⟨0x0607C, 31, 0⟩
def TIME_STEP_DELTA_LO : Fld := ⟨0x06080, 31, 0⟩
def TIME_STEP_DELTA_HI : Fld := ⟨0x06084, 31, 0⟩
def TIME_LINK_TM_MODE2 : Fld := ⟨0x06088, 5, 4⟩
def TIME_LINK_TM_MODE1 : Fld := ⟨0x06088, 3, 2⟩
def TIME_LINK_TM_MODE0 : Fld := ⟨0x06088, 1, 0⟩
def TIME_LINK_TM_ST_FOLLOW : Fld := ⟨0x0608C, 10, 8⟩
def TIME_LINK_TM_ST_CONFLICT : Fld := ⟨0x0608C, 6, 4⟩
def TIME_LINK_TM_ST_MASTER : Fld := ⟨0x0608C, 2, 0⟩
def TIME_DELAY (a : Nat) : Fld := ⟨0x06090 + 0x4 * a, 23, 0⟩
def TIME_ASYM (a : Nat) : Fld := ⟨0x060A0 + 0x4 * a, 15, 0⟩
def TIME_LOFS (a : Nat) : Fld := ⟨0x060B0 + 0x4 * a, 31, 0⟩
def TIME_RANGE_REJ (a : Nat) : Fld := ⟨0x060C0 + 0x4 * a, 31, 0⟩
def TIME_IRIG_CTRL_COMP : Fld := ⟨0x060D0, 31, 16⟩
def TIME_IRIG_CTRL_EXT_1344 : Fld := ⟨0x060D0, 1, 1⟩
def TIME_IRIG_CTRL_FMT : Fld := ⟨0x060D0, 0, 0⟩
def TIME_PPS_CTRL_COMP : Fld := ⟨0x060D4, 31, 16⟩
def TIME_PPS_CTRL_TOD_FMT : Fld := ⟨0x060D4, 1, 1⟩
def TIME_PPS_CTRL_EDGE : Fld := ⟨0x060D4, 0, 0⟩
def EVI_LEVEL_RAW : Fld := ⟨0x07040, 31, 16⟩
def EVI_LEVEL_ACC : Fld := ⟨0x07040, 15, 0⟩
def EVI_FIFO_STAT_LOST : Fld := ⟨0x07044, 31, 16⟩
def EVI_FIFO_STAT_COUNT : Fld := ⟨0x07044, 6, 0⟩
def EVI_FIFO_INFO_SEQ : Fld := ⟨0x07048, 31, 16⟩
def EVI_FIFO_INFO_VALID : Fld := ⟨0x07048, 8, 8⟩
def EVI_FIFO_INFO_RAW : Fld := ⟨0x07048, 7, 7⟩
def EVI_FIFO_INFO_BOUNCE : Fld := ⟨0x07048, 6, 6⟩
def EVI_FIFO_INFO_TIME_VALID : Fld := ⟨0x07048, 5, 5⟩
def EVI_FIFO_INFO_LEVEL : Fld := ⟨0x07048, 4, 4⟩
def EVI_FIFO_INFO_INPUT : Fld := ⟨0x07048, 3, 0⟩
def EVI_FIFO_HI : Fld := ⟨0x0704C, 31, 0⟩
def EVI_FIFO_LO : Fld := ⟨0x07050, 31, 0⟩
def EVI_GLITCH_CNT : Fld := ⟨0x07054, 31, 0⟩
def EVI_CFG_DEBOUNCE (a : Nat) : Fld := ⟨0x07080 + 0x4 * a, 31, 16⟩
def EVI_CFG_GLITCH (a : Nat) : Fld := ⟨0x07080 + 0x4 * a, 15, 6⟩
def EVI_CFG_EDGE (a : Nat) : Fld := ⟨0x07080 + 0x4 * a, 5, 4⟩
def EVI_CFG_INVERT (a : Nat) : Fld := ⟨0x07080 + 0x4 * a, 3, 3⟩
def EVI_CFG_WAKE (a : Nat) : Fld := ⟨0x07080 + 0x4 * a, 2, 2⟩
def EVI_CFG_FIFO (a : Nat) : Fld := ⟨0x07080 + 0x4 * a, 1, 1⟩
def EVI_CFG_EN (a : Nat) : Fld := ⟨0x07080 + 0x4 * a, 0, 0⟩
def EVI_FOUT_CTRL_ARM (a : Nat) : Fld := ⟨0x07100 + 0x10 * a, 31, 31⟩
def EVI_FOUT_CTRL_LATE (a : Nat) : Fld := ⟨0x07100 + 0x10 * a, 30, 30⟩
def EVI_FOUT_CTRL_MODE (a : Nat) : Fld := ⟨0x07100 + 0x10 * a, 18, 16⟩
def EVI_FOUT_CTRL_LEVEL (a : Nat) : Fld := ⟨0x07100 + 0x10 * a, 8, 8⟩
def EVI_FOUT_T_S (a : Nat) : Fld := ⟨0x07104 + 0x10 * a, 31, 0⟩
def EVI_FOUT_T_NS (a : Nat) : Fld := ⟨0x07108 + 0x10 * a, 29, 0⟩
def EVI_FOUT_PW (a : Nat) : Fld := ⟨0x0710C + 0x10 * a, 29, 0⟩

/-! Registers of `spec/09_pcie_farbus.md`. -/

def PCIE_CTRL_RETRAIN : Fld := ⟨0x16040, 7, 7⟩
def PCIE_CTRL_ROOT : Fld := ⟨0x16040, 4, 4⟩
def PCIE_CTRL_MAX_WIDTH : Fld := ⟨0x16040, 3, 2⟩
def PCIE_CTRL_MAX_GEN : Fld := ⟨0x16040, 1, 0⟩
def PCIE_STATUS_LTSSM : Fld := ⟨0x16044, 23, 18⟩
def PCIE_STATUS_DL_ACTIVE : Fld := ⟨0x16044, 17, 17⟩
def PCIE_STATUS_WIDTH : Fld := ⟨0x16044, 13, 12⟩
def PCIE_STATUS_GEN : Fld := ⟨0x16044, 11, 10⟩
def PCIE_VDP_STATUS_UP : Fld := ⟨0x16048, 30, 17⟩
def PCIE_BAR2_SIZE_LOG2 : Fld := ⟨0x1604C, 4, 0⟩
def PCIE_IDS_SUBSYS_VID : Fld := ⟨0x16050, 31, 16⟩
def PCIE_IDS_VID : Fld := ⟨0x16050, 15, 0⟩
def PCIE_DISCARD : Fld := ⟨0x16054, 31, 0⟩
def PCIE_UR_SENT : Fld := ⟨0x16058, 31, 0⟩
def PCIE_CA_SENT : Fld := ⟨0x1605C, 31, 0⟩
def PCIE_VDP_CTX_EN (a : Nat) : Fld := ⟨0x16080 + 0x4 * a, 31, 31⟩
def PCIE_VDP_CTX_UP_CTX (a : Nat) : Fld := ⟨0x16080 + 0x4 * a, 15, 8⟩
def PCIE_VDP_CTX_DOWN_CTX (a : Nat) : Fld := ⟨0x16080 + 0x4 * a, 7, 0⟩
def LPB_READY_TO_LOCK_TO_US : Fld := ⟨0x19040, 25, 16⟩
def LPB_READY_TO_RDY_TO_US : Fld := ⟨0x19040, 13, 0⟩
def LPB_FENCE_INCOMPLETE : Fld := ⟨0x19044, 31, 31⟩
def LPB_FENCE_FAILS : Fld := ⟨0x19044, 15, 0⟩
def LPB_ERRF_STAT_LOST : Fld := ⟨0x19048, 31, 16⟩
def LPB_ERRF_STAT_COUNT : Fld := ⟨0x19048, 4, 0⟩
def LPB_ERRF_ADDR : Fld := ⟨0x1904C, 31, 0⟩
def LPB_ERRF_INFO_REQ_ID : Fld := ⟨0x19050, 31, 16⟩
def LPB_ERRF_INFO_CTX : Fld := ⟨0x19050, 15, 8⟩
def LPB_ERRF_INFO_CHIP : Fld := ⟨0x19050, 7, 4⟩
def LPB_ERRF_INFO_KIND : Fld := ⟨0x19050, 3, 2⟩
def LPB_ERRF_TS_HI : Fld := ⟨0x19054, 31, 0⟩
def LPB_ERRF_TS_LO : Fld := ⟨0x19058, 31, 0⟩
def LPB_ERRF_CAUSE_CAUSE : Fld := ⟨0x1905C, 3, 0⟩
def LPB_GHOST_CNT : Fld := ⟨0x19060, 31, 0⟩
def LPB_GHOST_ADDR : Fld := ⟨0x19064, 31, 0⟩
def LPB_GHOST_INFO_WIN : Fld := ⟨0x19068, 2, 0⟩
def LPB_CS_TIM_READY_EN (a : Nat) : Fld := ⟨0x19080 + 0x4 * a, 31, 31⟩
def LPB_CS_TIM_T_TA (a : Nat) : Fld := ⟨0x19080 + 0x4 * a, 29, 24⟩
def LPB_CS_TIM_T_STB (a : Nat) : Fld := ⟨0x19080 + 0x4 * a, 23, 16⟩
def LPB_CS_TIM_T_HOLD (a : Nat) : Fld := ⟨0x19080 + 0x4 * a, 13, 8⟩
def LPB_CS_TIM_T_ALE (a : Nat) : Fld := ⟨0x19080 + 0x4 * a, 5, 0⟩
def LPB_W_BASE_OFFSET (a : Nat) : Fld := ⟨0x19100 + 0x10 * a, 31, 12⟩
def LPB_W_FAR_ADDR (a : Nat) : Fld := ⟨0x19104 + 0x10 * a, 31, 12⟩
def LPB_W_ATTR_EN (a : Nat) : Fld := ⟨0x19108 + 0x10 * a, 31, 31⟩
def LPB_W_ATTR_SE (a : Nat) : Fld := ⟨0x19108 + 0x10 * a, 30, 30⟩
def LPB_W_ATTR_PF (a : Nat) : Fld := ⟨0x19108 + 0x10 * a, 29, 29⟩
def LPB_W_ATTR_ATOMIC (a : Nat) : Fld := ⟨0x19108 + 0x10 * a, 28, 28⟩
def LPB_W_ATTR_LOCK (a : Nat) : Fld := ⟨0x19108 + 0x10 * a, 27, 27⟩
def LPB_W_ATTR_SIZE (a : Nat) : Fld := ⟨0x19108 + 0x10 * a, 20, 16⟩
def LPB_W_ATTR_CTX (a : Nat) : Fld := ⟨0x19108 + 0x10 * a, 15, 8⟩
def LPB_W_ATTR_CS (a : Nat) : Fld := ⟨0x19108 + 0x10 * a, 7, 6⟩
def LPB_W_ATTR_CHIP (a : Nat) : Fld := ⟨0x19108 + 0x10 * a, 3, 0⟩
def LPB_W_RSVD (a : Nat) : Fld := ⟨0x1910C + 0x10 * a, 31, 0⟩
def LSIO_UART_CFG_EN (a : Nat) : Fld := ⟨0x1A040 + 0x4 * a, 31, 31⟩
def LSIO_UART_CFG_DIV (a : Nat) : Fld := ⟨0x1A040 + 0x4 * a, 30, 8⟩
def LSIO_UART_CFG_PARITY (a : Nat) : Fld := ⟨0x1A040 + 0x4 * a, 7, 6⟩
def LSIO_UART_CFG_STOP2 (a : Nat) : Fld := ⟨0x1A040 + 0x4 * a, 5, 5⟩
def LSIO_UART_CFG_BITS7 (a : Nat) : Fld := ⟨0x1A040 + 0x4 * a, 4, 4⟩
def LSIO_UART_CFG_RTSCTS (a : Nat) : Fld := ⟨0x1A040 + 0x4 * a, 3, 3⟩
def LSIO_I2C_CFG_EN (a : Nat) : Fld := ⟨0x1A050 + 0x4 * a, 31, 31⟩
def LSIO_I2C_CFG_SPEED (a : Nat) : Fld := ⟨0x1A050 + 0x4 * a, 17, 16⟩
def LSIO_I2C_CFG_STRETCH_TO (a : Nat) : Fld := ⟨0x1A050 + 0x4 * a, 15, 0⟩
def LSIO_QSPI_CFG_EN (a : Nat) : Fld := ⟨0x1A060 + 0x4 * a, 31, 31⟩
def LSIO_QSPI_CFG_MODE3 (a : Nat) : Fld := ⟨0x1A060 + 0x4 * a, 8, 8⟩
def LSIO_QSPI_CFG_DIV (a : Nat) : Fld := ⟨0x1A060 + 0x4 * a, 7, 0⟩
def LSIO_GPIO_DIR : Fld := ⟨0x1A070, 31, 0⟩
def LSIO_GPIO_OD : Fld := ⟨0x1A074, 31, 0⟩
def LSIO_GPIO_OUT : Fld := ⟨0x1A078, 31, 0⟩
def LSIO_GPIO_IN : Fld := ⟨0x1A07C, 31, 0⟩
def LSIO_GPIO_EDGE : Fld := ⟨0x1A080, 31, 0⟩
def LSIO_GPIO_EVEN : Fld := ⟨0x1A084, 31, 0⟩

/-! Registers of `spec/10_atu_dma.md`. -/

def ATU_CTRL_WALK_TO : Fld := ⟨0x17040, 7, 0⟩
def ATU_FQ_BASE_LO_ADDR : Fld := ⟨0x17044, 31, 12⟩
def ATU_FQ_BASE_HI_ADDR : Fld := ⟨0x17048, 15, 0⟩
def ATU_FQ_CTRL_EN : Fld := ⟨0x1704C, 31, 31⟩
def ATU_FQ_CTRL_LOG2 : Fld := ⟨0x1704C, 3, 0⟩
def ATU_FQ_HEAD_INDEX : Fld := ⟨0x17050, 11, 0⟩
def ATU_FQ_TAIL_INDEX : Fld := ⟨0x17054, 11, 0⟩
def ATU_FF_STAT_LOST : Fld := ⟨0x17058, 31, 16⟩
def ATU_FF_STAT_COUNT : Fld := ⟨0x17058, 4, 0⟩
def ATU_FF_REC (a : Nat) : Fld := ⟨0x17060 + 0x4 * a, 31, 0⟩
def ATU_RESUME_ACTION : Fld := ⟨0x17080, 9, 8⟩
def ATU_RESUME_CHAN : Fld := ⟨0x17080, 4, 0⟩
def ATU_INV_CTRL_GO : Fld := ⟨0x17084, 31, 31⟩
def ATU_INV_CTRL_ASID : Fld := ⟨0x17084, 12, 8⟩
def ATU_INV_CTRL_SCOPE : Fld := ⟨0x17084, 1, 0⟩
def ATU_INV_ADDR_LO_ADDR : Fld := ⟨0x17088, 31, 12⟩
def ATU_INV_ADDR_HI_ADDR : Fld := ⟨0x1708C, 15, 0⟩
def ATU_INV_LEN : Fld := ⟨0x17090, 31, 0⟩
def ATU_INV_EPOCH_ISSUED : Fld := ⟨0x17094, 31, 16⟩
def ATU_INV_EPOCH_DONE : Fld := ⟨0x17094, 15, 0⟩
def ATU_INV_SYNC_INCOMPLETE : Fld := ⟨0x17098, 31, 31⟩
def ATU_INV_SYNC_EPOCH : Fld := ⟨0x17098, 15, 0⟩
def ATU_TLB_HIT : Fld := ⟨0x170A0, 31, 0⟩
def ATU_TLB_MISS : Fld := ⟨0x170A4, 31, 0⟩
def ATU_WALK_REDO : Fld := ⟨0x170A8, 31, 0⟩
def ATU_FAULTS : Fld := ⟨0x170AC, 31, 0⟩
def ATU_ROOT_LO_BASE (a : Nat) : Fld := ⟨0x17100 + 0x8 * a, 31, 18⟩
def ATU_ROOT_LO_MODE (a : Nat) : Fld := ⟨0x17100 + 0x8 * a, 1, 0⟩
def ATU_ROOT_HI_BASE (a : Nat) : Fld := ⟨0x17104 + 0x8 * a, 15, 0⟩
def DMA_DESC_IRQ : Fld := ⟨0x18040, 31, 0⟩
def DMA_HALT_MAP : Fld := ⟨0x18044, 31, 0⟩
def DMA_NIC_CTRL_EN : Fld := ⟨0x18048, 0, 0⟩
def DMA_CH_CTRL_ASID (a : Nat) : Fld := ⟨0x18100 + 0x40 * a, 12, 8⟩
def DMA_CH_CTRL_TC (a : Nat) : Fld := ⟨0x18100 + 0x40 * a, 6, 4⟩
def DMA_CH_CTRL_DIR (a : Nat) : Fld := ⟨0x18100 + 0x40 * a, 2, 2⟩
def DMA_CH_CTRL_EN (a : Nat) : Fld := ⟨0x18100 + 0x40 * a, 0, 0⟩
def DMA_CH_STATE_CAUSE (a : Nat) : Fld := ⟨0x18104 + 0x40 * a, 15, 8⟩
def DMA_CH_STATE_PREEMPTED (a : Nat) : Fld := ⟨0x18104 + 0x40 * a, 7, 7⟩
def DMA_CH_STATE_WAIT (a : Nat) : Fld := ⟨0x18104 + 0x40 * a, 6, 6⟩
def DMA_CH_STATE_HALT (a : Nat) : Fld := ⟨0x18104 + 0x40 * a, 5, 5⟩
def DMA_CH_STATE_EN_PENDING (a : Nat) : Fld := ⟨0x18104 + 0x40 * a, 3, 3⟩
def DMA_CH_STATE_LIFE (a : Nat) : Fld := ⟨0x18104 + 0x40 * a, 2, 0⟩
def DMA_RING_LO_ADDR (a : Nat) : Fld := ⟨0x18108 + 0x40 * a, 31, 5⟩
def DMA_RING_HI_ADDR (a : Nat) : Fld := ⟨0x1810C + 0x40 * a, 15, 0⟩
def DMA_RING_SIZE_LOG2 (a : Nat) : Fld := ⟨0x18110 + 0x40 * a, 4, 0⟩
def DMA_HEAD (a : Nat) : Fld := ⟨0x18114 + 0x40 * a, 15, 0⟩
def DMA_TAIL (a : Nat) : Fld := ⟨0x18118 + 0x40 * a, 15, 0⟩
def DMA_CUR (a : Nat) : Fld := ⟨0x1811C + 0x40 * a, 16, 0⟩
def DMA_CH_CELLS (a : Nat) : Fld := ⟨0x18120 + 0x40 * a, 31, 0⟩
def DMA_CH_FRAMES (a : Nat) : Fld := ⟨0x18124 + 0x40 * a, 31, 0⟩
def DMA_CH_DROP (a : Nat) : Fld := ⟨0x18128 + 0x40 * a, 31, 0⟩

/-! Registers of `spec/11_display.md`. -/

def DPI_CTRL_DSC_ADV : Fld := ⟨0x1B040, 4, 4⟩
def DPI_CTRL_MAX_LANES : Fld := ⟨0x1B040, 3, 2⟩
def DPI_CTRL_MAX_RATE : Fld := ⟨0x1B040, 1, 0⟩
def DPI_STATUS_HPD_OUT : Fld := ⟨0x1B044, 8, 8⟩
def DPI_STATUS_FEC : Fld := ⟨0x1B044, 7, 7⟩
def DPI_STATUS_DSC : Fld := ⟨0x1B044, 6, 6⟩
def DPI_STATUS_VIDEO : Fld := ⟨0x1B044, 5, 5⟩
def DPI_STATUS_TRAINED : Fld := ⟨0x1B044, 4, 4⟩
def DPI_STATUS_LANES : Fld := ⟨0x1B044, 3, 2⟩
def DPI_STATUS_RATE : Fld := ⟨0x1B044, 1, 0⟩
def DPI_TIM_H_HTOTAL : Fld := ⟨0x1B048, 31, 16⟩
def DPI_TIM_H_HACTIVE : Fld := ⟨0x1B048, 15, 0⟩
def DPI_TIM_V_VTOTAL : Fld := ⟨0x1B04C, 31, 16⟩
def DPI_TIM_V_VACTIVE : Fld := ⟨0x1B04C, 15, 0⟩
def DPI_PCLK : Fld := ⟨0x1B050, 31, 0⟩
def DPI_AUX_CTRL_FWD_TO_US : Fld := ⟨0x1B054, 13, 0⟩
def DPI_LINES_OUT : Fld := ⟨0x1B060, 31, 0⟩
def DPI_FRAMES_OUT : Fld := ⟨0x1B064, 31, 0⟩
def DPI_AUX_DEFER : Fld := ⟨0x1B068, 31, 0⟩
def DPI_AUX_TIMEOUT : Fld := ⟨0x1B06C, 31, 0⟩
def DPI_SYM_ERR : Fld := ⟨0x1B070, 31, 0⟩
def DPO_CTRL_PLAYOUT_US : Fld := ⟨0x1C040, 31, 16⟩
def DPO_CTRL_SSC : Fld := ⟨0x1C040, 15, 15⟩
def DPO_CTRL_CAMEO_TO_MS : Fld := ⟨0x1C040, 13, 0⟩
def DPO_STATUS_FIT_FAIL : Fld := ⟨0x1C044, 11, 11⟩
def DPO_STATUS_HPD_IN : Fld := ⟨0x1C044, 10, 10⟩
def DPO_STATUS_DSC : Fld := ⟨0x1C044, 9, 9⟩
def DPO_STATUS_FEC : Fld := ⟨0x1C044, 8, 8⟩
def DPO_STATUS_LANES : Fld := ⟨0x1C044, 7, 6⟩
def DPO_STATUS_RATE : Fld := ⟨0x1C044, 5, 4⟩
def DPO_STATUS_LOCKED : Fld := ⟨0x1C044, 3, 3⟩
def DPO_STATUS_MODE : Fld := ⟨0x1C044, 2, 0⟩
def DPO_PHASE_ERR : Fld := ⟨0x1C048, 31, 0⟩
def DPO_CAMEO_CMD_COMMIT : Fld := ⟨0x1C04C, 1, 1⟩
def DPO_CAMEO_CMD_FORCE : Fld := ⟨0x1C04C, 0, 0⟩
def DPO_CAMEO_BG : Fld := ⟨0x1C050, 23, 0⟩
def DPO_CAMEO_FG : Fld := ⟨0x1C054, 23, 0⟩
def DPO_DPALT_CTRL_SETTLE : Fld := ⟨0x1C058, 15, 8⟩
def DPO_DPALT_CTRL_IRQ_HPD : Fld := ⟨0x1C058, 2, 2⟩
def DPO_DPALT_CTRL_HPD : Fld := ⟨0x1C058, 1, 1⟩
def DPO_DPALT_CTRL_ENTERED : Fld := ⟨0x1C058, 0, 0⟩
def DPO_DPALT_STATUS_MUX_SEL : Fld := ⟨0x1C05C, 1, 0⟩
def DPO_LINES_PLAYED : Fld := ⟨0x1C060, 31, 0⟩
def DPO_CONCEAL_LOST : Fld := ⟨0x1C064, 31, 0⟩
def DPO_CONCEAL_PART : Fld := ⟨0x1C068, 31, 0⟩
def DPO_LATE_DROP : Fld := ⟨0x1C06C, 31, 0⟩
def DPO_EARLY_DROP : Fld := ⟨0x1C070, 31, 0⟩
def DPO_CAMEO_CNT : Fld := ⟨0x1C074, 31, 0⟩
def DPO_HEADLESS_DROP : Fld := ⟨0x1C078, 31, 0⟩
def DPO_CAMEO_TEXT (a : Nat) : Fld := ⟨0x1C100 + 0x4 * a, 31, 0⟩

/-! Registers of `spec/12_usb.md`. -/

def USBD_CTRL_ACM_ROUTE : Fld := ⟨0x1D040, 6, 4⟩
def USBD_CTRL_DFU_EN : Fld := ⟨0x1D040, 3, 3⟩
def USBD_CTRL_ACM_EN : Fld := ⟨0x1D040, 2, 2⟩
def USBD_CTRL_MGMT_EN : Fld := ⟨0x1D040, 1, 1⟩
def USBD_CTRL_FS_ONLY : Fld := ⟨0x1D040, 0, 0⟩
def USBD_STATUS_ADDRESS : Fld := ⟨0x1D044, 18, 12⟩
def USBD_STATUS_SPEED : Fld := ⟨0x1D044, 11, 10⟩
def USBD_STATUS_RWAKE : Fld := ⟨0x1D044, 9, 9⟩
def USBD_STATUS_SUSPENDED : Fld := ⟨0x1D044, 8, 8⟩
def USBD_STATUS_STATE : Fld := ⟨0x1D044, 7, 4⟩
def USBD_IDS_PID : Fld := ⟨0x1D048, 31, 16⟩
def USBD_IDS_VID : Fld := ⟨0x1D048, 15, 0⟩
def USBD_PHY_CFG_HS_SWING (a : Nat) : Fld := ⟨0x1D050 + 0x4 * a, 9, 8⟩
def USBD_PHY_CFG_HS_PREEMP (a : Nat) : Fld := ⟨0x1D050 + 0x4 * a, 7, 4⟩
def USBD_SETUP_ABORT : Fld := ⟨0x1D070, 31, 0⟩
def USBD_BUS_RESETS : Fld := ⟨0x1D074, 31, 0⟩
def USBD_RESUME_COLLIDE : Fld := ⟨0x1D078, 31, 0⟩
def USBD_MGMT_RECS : Fld := ⟨0x1D07C, 31, 0⟩
def USBD_MGMT_ERR : Fld := ⟨0x1D080, 31, 0⟩
def USBD_DFU_BLOCKS : Fld := ⟨0x1D084, 31, 0⟩
def USBH_HUB_CTRL_NPORTS : Fld := ⟨0x1E040, 19, 16⟩
def USBH_HUB_CTRL_STALE : Fld := ⟨0x1E040, 7, 0⟩
def USBH_HUB_STATUS_FRAME : Fld := ⟨0x1E044, 26, 16⟩
def USBH_HUB_STATUS_HOST_HS : Fld := ⟨0x1E044, 15, 15⟩
def USBH_HUB_STATUS_SUSPENDED : Fld := ⟨0x1E044, 14, 14⟩
def USBH_FN_OFS_OFS : Fld := ⟨0x1E048, 10, 0⟩
def USBH_SOF_PHASE : Fld := ⟨0x1E04C, 31, 0⟩
def USBH_PORT_MAP_EN (a : Nat) : Fld := ⟨0x1E07C + 0x4 * a, 31, 31⟩
def USBH_PORT_MAP_UP_CTX (a : Nat) : Fld := ⟨0x1E07C + 0x4 * a, 23, 16⟩
def USBH_PORT_MAP_DOWN_CTX (a : Nat) : Fld := ⟨0x1E07C + 0x4 * a, 15, 8⟩
def USBH_PORT_MAP_CHIP (a : Nat) : Fld := ⟨0x1E07C + 0x4 * a, 7, 4⟩
def USBH_PORT_MAP_PHY (a : Nat) : Fld := ⟨0x1E07C + 0x4 * a, 2, 0⟩
def USBH_PORT_ST_SPEED (a : Nat) : Fld := ⟨0x1E0BC + 0x4 * a, 10, 9⟩
def USBH_PORT_ST_OVERCURRENT (a : Nat) : Fld := ⟨0x1E0BC + 0x4 * a, 8, 8⟩
def USBH_PORT_ST_SUSPEND (a : Nat) : Fld := ⟨0x1E0BC + 0x4 * a, 7, 7⟩
def USBH_PORT_ST_ENABLED (a : Nat) : Fld := ⟨0x1E0BC + 0x4 * a, 6, 6⟩
def USBH_PORT_ST_CONNECTED (a : Nat) : Fld := ⟨0x1E0BC + 0x4 * a, 5, 5⟩
def USBH_PORT_ST_POWER (a : Nat) : Fld := ⟨0x1E0BC + 0x4 * a, 4, 4⟩
def USBH_LPORT_ST (a : Nat) : Fld := ⟨0x1E140 + 0x4 * a, 31, 0⟩
def USBH_DEFER_NAK : Fld := ⟨0x1E100, 31, 0⟩
def USBH_DEFER_NYET : Fld := ⟨0x1E104, 31, 0⟩
def USBH_DEFER_TIMEOUT : Fld := ⟨0x1E108, 31, 0⟩
def USBH_STALE_DROP : Fld := ⟨0x1E10C, 31, 0⟩
def USBH_FN_SLIP : Fld := ⟨0x1E110, 31, 0⟩
def USBH_ISO_SKIP : Fld := ⟨0x1E114, 31, 0⟩
def USBH_CTRL_ABORT : Fld := ⟨0x1E118, 31, 0⟩

/-! Registers of `spec/13_station_services.md`. -/

def ETH_CTRL_MAX_LEN (a : Nat) : Fld := ⟨0x1F040 + 0x1000 * a, 31, 18⟩
def ETH_CTRL_DEF_EN (a : Nat) : Fld := ⟨0x1F040 + 0x1000 * a, 17, 17⟩
def ETH_CTRL_DEF_CTX (a : Nat) : Fld := ⟨0x1F040 + 0x1000 * a, 16, 9⟩
def ETH_CTRL_MODE (a : Nat) : Fld := ⟨0x1F040 + 0x1000 * a, 1, 0⟩
def ETH_VLAN_TAG_INS (a : Nat) : Fld := ⟨0x1F044 + 0x1000 * a, 31, 31⟩
def ETH_VLAN_ACCEPT (a : Nat) : Fld := ⟨0x1F044 + 0x1000 * a, 30, 29⟩
def ETH_VLAN_UNTAG_EN (a : Nat) : Fld := ⟨0x1F044 + 0x1000 * a, 28, 28⟩
def ETH_VLAN_DEF_PCP (a : Nat) : Fld := ⟨0x1F044 + 0x1000 * a, 27, 25⟩
def ETH_VLAN_UNTAG_VID (a : Nat) : Fld := ⟨0x1F044 + 0x1000 * a, 23, 12⟩
def ETH_VLAN_PVID (a : Nat) : Fld := ⟨0x1F044 + 0x1000 * a, 11, 0⟩
def ETH_STATUS_SPEED (a : Nat) : Fld := ⟨0x1F048 + 0x1000 * a, 3, 2⟩
def ETH_STATUS_AN_DONE (a : Nat) : Fld := ⟨0x1F048 + 0x1000 * a, 1, 1⟩
def ETH_STATUS_LINK (a : Nat) : Fld := ⟨0x1F048 + 0x1000 * a, 0, 0⟩
def ETH_RX_FRAMES (a : Nat) : Fld := ⟨0x1F060 + 0x1000 * a, 31, 0⟩
def ETH_TX_FRAMES (a : Nat) : Fld := ⟨0x1F064 + 0x1000 * a, 31, 0⟩
def ETH_FCS_ERR (a : Nat) : Fld := ⟨0x1F068 + 0x1000 * a, 31, 0⟩
def ETH_LEN_ERR (a : Nat) : Fld := ⟨0x1F06C + 0x1000 * a, 31, 0⟩
def ETH_VLAN_DROP (a : Nat) : Fld := ⟨0x1F070 + 0x1000 * a, 31, 0⟩
def ETH_NO_TUN (a : Nat) : Fld := ⟨0x1F074 + 0x1000 * a, 31, 0⟩
def ETH_CTRL_DROP (a : Nat) : Fld := ⟨0x1F078 + 0x1000 * a, 31, 0⟩
def ETH_TX_UNDERRUN (a : Nat) : Fld := ⟨0x1F07C + 0x1000 * a, 31, 0⟩
def RED_LRE_CTRL_SUP_ADDR (a : Nat) : Fld := ⟨0x23040 + 0x4 * a, 31, 24⟩
def RED_LRE_CTRL_PCP_TC7 (a : Nat) : Fld := ⟨0x23040 + 0x4 * a, 23, 21⟩
def RED_LRE_CTRL_MODE (a : Nat) : Fld := ⟨0x23040 + 0x4 * a, 1, 0⟩
def RED_TIMES_ENTRY_FORGET : Fld := ⟨0x23048, 31, 16⟩
def RED_TIMES_LIFE_CHECK : Fld := ⟨0x23048, 15, 0⟩
def RED_CNT_DUP (a : Nat) : Fld := ⟨0x23060 + 0x4 * a, 31, 0⟩
def RED_CNT_WRONG_LAN (a : Nat) : Fld := ⟨0x23070 + 0x4 * a, 31, 0⟩
def RED_CNT_UNTAGGED : Fld := ⟨0x23080, 31, 0⟩
def RED_DUP_EVICT : Fld := ⟨0x23084, 31, 0⟩
def SUB_EN (a : Nat) : Fld := ⟨0x230000 + 0x80 * a, 31, 31⟩
def SUB_KIND (a : Nat) : Fld := ⟨0x230000 + 0x80 * a, 30, 30⟩
def SUB_SIM_ACCEPT (a : Nat) : Fld := ⟨0x230000 + 0x80 * a, 29, 29⟩
def SUB_TUN_IN (a : Nat) : Fld := ⟨0x230000 + 0x80 * a, 28, 28⟩
def SUB_PORTS (a : Nat) : Fld := ⟨0x230000 + 0x80 * a, 27, 24⟩
def SUB_TAL_GRACE (a : Nat) : Fld := ⟨0x230000 + 0x80 * a, 15, 0⟩
def SUB_APPID (a : Nat) : Fld := ⟨0x230004 + 0x80 * a, 15, 0⟩
def SUB_DMAC (a b : Nat) : Fld := ⟨0x230008 + 0x80 * a + 0x4 * b, 31, 0⟩
def SUB_REF_CRC (a : Nat) : Fld := ⟨0x230010 + 0x80 * a, 31, 0⟩
def SUB_CONFREV (a : Nat) : Fld := ⟨0x230014 + 0x80 * a, 31, 0⟩
def SUB_SMP_WRAP (a : Nat) : Fld := ⟨0x230018 + 0x80 * a, 31, 16⟩
def SUB_SV_TO (a : Nat) : Fld := ⟨0x230018 + 0x80 * a, 15, 0⟩
def SUB_STATUS (a : Nat) : Fld := ⟨0x23001C + 0x80 * a, 31, 0⟩
def SUB_LAST (a b : Nat) : Fld := ⟨0x230020 + 0x80 * a + 0x4 * b, 31, 0⟩
def SUB_STAMP (a b : Nat) : Fld := ⟨0x230028 + 0x80 * a + 0x4 * b, 31, 0⟩
def SUB_MEMBER (a b : Nat) : Fld := ⟨0x230030 + 0x80 * a + 0x4 * b, 31, 0⟩
def SUB_CNT (a b : Nat) : Fld := ⟨0x230070 + 0x80 * a + 0x4 * b, 31, 0⟩
def PUB_EN (a : Nat) : Fld := ⟨0x240000 + 0x80 * a, 31, 31⟩
def PUB_OUT_PORTS (a : Nat) : Fld := ⟨0x240000 + 0x80 * a, 15, 12⟩
def PUB_OUT_LRE (a : Nat) : Fld := ⟨0x240000 + 0x80 * a, 11, 10⟩
def PUB_LEN (a : Nat) : Fld := ⟨0x240000 + 0x80 * a, 9, 0⟩
def PUB_MAX_T (a : Nat) : Fld := ⟨0x240004 + 0x80 * a, 31, 16⟩
def PUB_MIN_T (a : Nat) : Fld := ⟨0x240004 + 0x80 * a, 15, 0⟩
def PUB_TAL_MULT (a : Nat) : Fld := ⟨0x240008 + 0x80 * a, 3, 0⟩
def PUB_STSQ (a b : Nat) : Fld := ⟨0x24000C + 0x80 * a + 0x4 * b, 31, 0⟩
def PUB_MEMBER (a b : Nat) : Fld := ⟨0x240014 + 0x80 * a + 0x4 * b, 31, 0⟩
def PUB_SENT (a : Nat) : Fld := ⟨0x240054 + 0x80 * a, 31, 0⟩
def PTP_CTRL_DOMAIN : Fld := ⟨0x25040, 31, 24⟩
def PTP_CTRL_PRIO1 : Fld := ⟨0x25040, 23, 16⟩
def PTP_CTRL_PRIO2 : Fld := ⟨0x25040, 15, 8⟩
def PTP_CTRL_TYPE : Fld := ⟨0x25040, 7, 6⟩
def PTP_CTRL_ONE_STEP : Fld := ⟨0x25040, 5, 5⟩
def PTP_CTRL_PROFILE : Fld := ⟨0x25040, 4, 3⟩
def PTP_PORT_CFG (a : Nat) : Fld := ⟨0x25050 + 0x4 * a, 31, 0⟩
def PTP_RXDLY (a : Nat) : Fld := ⟨0x25060 + 0x4 * a, 15, 0⟩
def PTP_TXDLY (a : Nat) : Fld := ⟨0x25070 + 0x4 * a, 15, 0⟩
def PTP_PORT_ST : Fld := ⟨0x25080, 31, 0⟩
def PTP_PDELAY (a : Nat) : Fld := ⟨0x25090 + 0x4 * a, 31, 0⟩
def NVS_CTRL_SEAL_MS : Fld := ⟨0x26040, 31, 16⟩
def NVS_CTRL_QID : Fld := ⟨0x26040, 15, 0⟩
def NVS_NSID : Fld := ⟨0x26044, 31, 0⟩
def NVS_RING_START_LO : Fld := ⟨0x26048, 31, 0⟩
def NVS_RING_START_HI : Fld := ⟨0x2604C, 31, 0⟩
def NVS_RING_LEN : Fld := ⟨0x26050, 31, 0⟩
def NVS_WIN_BASE_HI : Fld := ⟨0x26054, 31, 16⟩
def NVS_WIN_BASE_LO_ADDR : Fld := ⟨0x26058, 31, 16⟩
def NVS_STATUS_STATE : Fld := ⟨0x2605C, 2, 0⟩
def NVS_BLOCK_SEQ : Fld := ⟨0x26060, 31, 0⟩
def NVS_LOST : Fld := ⟨0x26064, 31, 0⟩
def NVS_WRITE_ERR : Fld := ⟨0x26068, 31, 0⟩

/-! Registers of `spec/14_facets_and_sieve.md`. -/

def FAC_ENG_SUMMARY_DEGRADED : Fld := ⟨0x0B040, 31, 16⟩
def FAC_ENG_SUMMARY_RUNNING : Fld := ⟨0x0B040, 15, 0⟩
def FAC_CRASH_LIMIT_WINDOW_S : Fld := ⟨0x0B044, 15, 8⟩
def FAC_CRASH_LIMIT_LIMIT : Fld := ⟨0x0B044, 3, 0⟩
def FAC_MBX_READY_READY : Fld := ⟨0x0B048, 15, 0⟩
def FAC_ENG_CTRL_WDT_MS (a : Nat) : Fld := ⟨0x0B100 + 0x10 * a, 31, 16⟩
def FAC_ENG_CTRL_RESTART (a : Nat) : Fld := ⟨0x0B100 + 0x10 * a, 0, 0⟩
def FAC_ENG_STATE_CRASHES (a : Nat) : Fld := ⟨0x0B104 + 0x10 * a, 31, 16⟩
def FAC_ENG_STATE_LAST_CAUSE (a : Nat) : Fld := ⟨0x0B104 + 0x10 * a, 15, 8⟩
def FAC_ENG_STATE_DEGRADED (a : Nat) : Fld := ⟨0x0B104 + 0x10 * a, 4, 4⟩
def FAC_ENG_STATE_STATE (a : Nat) : Fld := ⟨0x0B104 + 0x10 * a, 2, 0⟩
def FAC_DB_ACK (a : Nat) : Fld := ⟨0x0B108 + 0x10 * a, 9, 9⟩
def FAC_DB_READY (a : Nat) : Fld := ⟨0x0B108 + 0x10 * a, 8, 8⟩
def FAC_DB_BUSY (a : Nat) : Fld := ⟨0x0B108 + 0x10 * a, 1, 1⟩
def FAC_DB_RING (a : Nat) : Fld := ⟨0x0B108 + 0x10 * a, 0, 0⟩
def FAC_ENG_INFO_FW_VER (a : Nat) : Fld := ⟨0x0B10C + 0x10 * a, 31, 16⟩
def FAC_ENG_INFO_LOAD (a : Nat) : Fld := ⟨0x0B10C + 0x10 * a, 7, 0⟩
def FAC_MBX_IN (a b : Nat) : Fld := ⟨0x0B800 + 0x80 * a + 0x4 * b, 31, 0⟩
def FAC_MBX_OUT (a b : Nat) : Fld := ⟨0x0B840 + 0x80 * a + 0x4 * b, 31, 0⟩
def SIEVE_IMEM_ADDR_ADDR : Fld := ⟨0x0C040, 11, 0⟩
def SIEVE_IMEM_DATA : Fld := ⟨0x0C044, 31, 0⟩
def SIEVE_PROG_SEL_PROG : Fld := ⟨0x0C048, 4, 0⟩
def SIEVE_PROG_CMD_CLR_CNT : Fld := ⟨0x0C04C, 2, 2⟩
def SIEVE_PROG_CMD_DISABLE : Fld := ⟨0x0C04C, 1, 1⟩
def SIEVE_PROG_CMD_COMMIT : Fld := ⟨0x0C04C, 0, 0⟩
def SIEVE_PROG_STATUS_LAST_PROG : Fld := ⟨0x0C050, 20, 16⟩
def SIEVE_PROG_STATUS_INDEX : Fld := ⟨0x0C050, 15, 8⟩
def SIEVE_PROG_STATUS_REASON : Fld := ⟨0x0C050, 7, 0⟩
def SIEVE_PROG_DEF_LEN : Fld := ⟨0x0C054, 24, 16⟩
def SIEVE_PROG_DEF_BASE : Fld := ⟨0x0C054, 11, 0⟩
def SIEVE_OOB : Fld := ⟨0x0C058, 31, 0⟩
def SIEVE_COPY_LOST : Fld := ⟨0x0C05C, 31, 0⟩
def SIEVE_STEPS_MAX : Fld := ⟨0x0C060, 8, 0⟩
def SIEVE_NO_CTX : Fld := ⟨0x0C064, 31, 0⟩
def SIEVE_PROG_ACT_EN (a : Nat) : Fld := ⟨0x0C080 + 0x4 * a, 31, 31⟩
def SIEVE_PROG_ACT_LEN (a : Nat) : Fld := ⟨0x0C080 + 0x4 * a, 24, 16⟩
def SIEVE_PROG_ACT_BASE (a : Nat) : Fld := ⟨0x0C080 + 0x4 * a, 11, 0⟩
def SIEVE_BIND_EN (a : Nat) : Fld := ⟨0x0C100 + 0x4 * a, 31, 31⟩
def SIEVE_BIND_PROG (a : Nat) : Fld := ⟨0x0C100 + 0x4 * a, 4, 0⟩
def SIEVE_TBL_SEL : Fld := ⟨0x0C140, 11, 0⟩
def SIEVE_TBL_KEY : Fld := ⟨0x0C144, 31, 0⟩
def SIEVE_TBL_VAL : Fld := ⟨0x0C148, 31, 0⟩
def SIEVE_TBL_CTRL_V : Fld := ⟨0x0C14C, 31, 31⟩
def SIEVE_TBL_CTRL_TID : Fld := ⟨0x0C14C, 3, 0⟩
def SIEVE_TBL_CMD_COMMIT : Fld := ⟨0x0C150, 1, 1⟩
def SIEVE_TBL_CMD_LOAD : Fld := ⟨0x0C150, 0, 0⟩
def SIEVE_TBL_STATUS_REASON : Fld := ⟨0x0C154, 7, 0⟩
def SIEVE_CNT (a : Nat) : Fld := ⟨0x0C800 + 0x4 * a, 31, 0⟩

/-! Registers of `spec/15_bezel_power_path.md`. -/

def BZL_STATUS_BROWNOUT : Fld := ⟨0x03040, 31, 31⟩
def BZL_STATUS_FLT_TMR : Fld := ⟨0x03040, 30, 30⟩
def BZL_STATUS_PG : Fld := ⟨0x03040, 29, 29⟩
def BZL_STATUS_FAULT : Fld := ⟨0x03040, 28, 28⟩
def BZL_STATUS_HS_STATE : Fld := ⟨0x03040, 27, 25⟩
def BZL_STATUS_LINE_EN : Fld := ⟨0x03040, 23, 21⟩
def BZL_STATUS_FEED_SEATED : Fld := ⟨0x03040, 20, 18⟩
def BZL_STATUS_FSEAT_LOW : Fld := ⟨0x03040, 17, 15⟩
def BZL_STATUS_AUX_ON : Fld := ⟨0x03040, 13, 13⟩
def BZL_STATUS_LINE_ON : Fld := ⟨0x03040, 12, 12⟩
def BZL_STATUS_AUX_OK : Fld := ⟨0x03040, 11, 11⟩
def BZL_STATUS_LINE_OK : Fld := ⟨0x03040, 10, 10⟩
def BZL_STATUS_SEATED : Fld := ⟨0x03040, 2, 2⟩
def BZL_STATUS_SEAT_B_LOW : Fld := ⟨0x03040, 1, 1⟩
def BZL_STATUS_SEAT_A_LOW : Fld := ⟨0x03040, 0, 0⟩
def BZL_FLT_CAUSE_RETRIES : Fld := ⟨0x03044, 15, 12⟩
def BZL_FLT_CAUSE_FIRST : Fld := ⟨0x03044, 11, 8⟩
def BZL_FLT_CAUSE_FET_SHORT : Fld := ⟨0x03044, 4, 4⟩
def BZL_FLT_CAUSE_FET_GATE : Fld := ⟨0x03044, 3, 3⟩
def BZL_FLT_CAUSE_PLIMIT : Fld := ⟨0x03044, 2, 2⟩
def BZL_FLT_CAUSE_BREAKER : Fld := ⟨0x03044, 1, 1⟩
def BZL_FLT_CAUSE_FAST_TRIP : Fld := ⟨0x03044, 0, 0⟩
def BZL_HS_CMD_CLEAR : Fld := ⟨0x03048, 2, 2⟩
def BZL_HS_CMD_ON : Fld := ⟨0x03048, 1, 1⟩
def BZL_HS_CMD_OFF : Fld := ⟨0x03048, 0, 0⟩
def BZL_HS_CFG0_CB_TIME : Fld := ⟨0x0304C, 23, 16⟩
def BZL_HS_CFG0_ILIM : Fld := ⟨0x0304C, 15, 8⟩
def BZL_HS_CFG1_PG_DELAY : Fld := ⟨0x03050, 31, 24⟩
def BZL_HS_CFG1_PLIM : Fld := ⟨0x03050, 23, 16⟩
def BZL_HS_CFG1_IGATE : Fld := ⟨0x03050, 10, 8⟩
def BZL_HS_CFG1_PG_THR : Fld := ⟨0x03050, 7, 0⟩
def BZL_HS_CFG2_P_COOL : Fld := ⟨0x03054, 23, 16⟩
def BZL_HS_CFG2_COOL_MIN : Fld := ⟨0x03054, 15, 8⟩
def BZL_HS_CFG2_RETRIES : Fld := ⟨0x03054, 2, 0⟩
def BZL_RSHUNT_UOHM : Fld := ⟨0x03058, 15, 0⟩
def BZL_OR_CTRL_OV : Fld := ⟨0x0305C, 31, 24⟩
def BZL_OR_CTRL_UV : Fld := ⟨0x0305C, 23, 16⟩
def BZL_OR_CTRL_BROWN_V : Fld := ⟨0x0305C, 15, 8⟩
def BZL_OR_CTRL_PRIO_AUX : Fld := ⟨0x0305C, 0, 0⟩
def BZL_FEED_CTRL_EN : Fld := ⟨0x03060, 2, 0⟩
def BZL_MON_V_VOR : Fld := ⟨0x03070, 31, 16⟩
def BZL_MON_V_VIN_MAIN : Fld := ⟨0x03070, 15, 0⟩
def BZL_MON_I_MA : Fld := ⟨0x03074, 15, 0⟩
def BZL_MON_P_MW : Fld := ⟨0x03078, 23, 0⟩
def BZL_ENERGY_LO : Fld := ⟨0x0307C, 31, 0⟩
def BZL_ENERGY_HI : Fld := ⟨0x03080, 31, 0⟩
def BZL_MON_CFG_AVG : Fld := ⟨0x03084, 3, 0⟩
def BZL_ALM_CFG_I_WARN : Fld := ⟨0x03088, 31, 16⟩
def BZL_ALM_CFG_P_WARN : Fld := ⟨0x03088, 15, 0⟩
def BZL_FET_E : Fld := ⟨0x0308C, 31, 0⟩
def BZL_HS_CNT_FAULTS : Fld := ⟨0x03090, 31, 16⟩
def BZL_HS_CNT_STARTS : Fld := ⟨0x03090, 15, 0⟩

/-! Registers of `spec/16_service_port.md`. -/

def SVC_TC_CTRL_PWR_ROLE : Fld := ⟨0x04040, 26, 26⟩
def SVC_TC_CTRL_SWAP_HOLD : Fld := ⟨0x04040, 25, 25⟩
def SVC_TC_CTRL_DATA_ROLE : Fld := ⟨0x04040, 24, 24⟩
def SVC_TC_CTRL_DRP_PERIOD : Fld := ⟨0x04040, 23, 16⟩
def SVC_TC_CTRL_DRP_DUTY : Fld := ⟨0x04040, 15, 8⟩
def SVC_TC_CTRL_RP_ADV : Fld := ⟨0x04040, 5, 4⟩
def SVC_TC_CTRL_TRY_SNK : Fld := ⟨0x04040, 2, 2⟩
def SVC_TC_CTRL_MODE : Fld := ⟨0x04040, 1, 0⟩
def SVC_TC_STATUS_DEAD_BATT : Fld := ⟨0x04044, 15, 15⟩
def SVC_TC_STATUS_SNK_SW : Fld := ⟨0x04044, 14, 14⟩
def SVC_TC_STATUS_SRC_SW : Fld := ⟨0x04044, 13, 13⟩
def SVC_TC_STATUS_VBUS_OK : Fld := ⟨0x04044, 12, 12⟩
def SVC_TC_STATUS_RP_SEEN : Fld := ⟨0x04044, 11, 10⟩
def SVC_TC_STATUS_PWR_ROLE : Fld := ⟨0x04044, 9, 9⟩
def SVC_TC_STATUS_DATA_ROLE : Fld := ⟨0x04044, 8, 8⟩
def SVC_TC_STATUS_ORIENT : Fld := ⟨0x04044, 6, 6⟩
def SVC_TC_STATUS_ATTACHED : Fld := ⟨0x04044, 5, 5⟩
def SVC_TC_STATUS_STATE : Fld := ⟨0x04044, 3, 0⟩
def SVC_PD_CTRL_CABLE_RESET : Fld := ⟨0x04048, 17, 17⟩
def SVC_PD_CTRL_HARD_RESET : Fld := ⟨0x04048, 16, 16⟩
def SVC_PD_CTRL_SPEC_REV : Fld := ⟨0x04048, 9, 8⟩
def SVC_PD_CTRL_CA_EN : Fld := ⟨0x04048, 7, 7⟩
def SVC_PD_CTRL_RETRIES : Fld := ⟨0x04048, 6, 5⟩
def SVC_PD_CTRL_SOP_MASK : Fld := ⟨0x04048, 3, 1⟩
def SVC_PD_CTRL_RX_EN : Fld := ⟨0x04048, 0, 0⟩
def SVC_POLICY_MSPI : Fld := ⟨0x0404C, 0, 0⟩
def SVC_TX_CTRL_LEN : Fld := ⟨0x04050, 15, 8⟩
def SVC_TX_CTRL_AMS_START : Fld := ⟨0x04050, 4, 4⟩
def SVC_TX_CTRL_SOP : Fld := ⟨0x04050, 3, 1⟩
def SVC_TX_CTRL_SEND : Fld := ⟨0x04050, 0, 0⟩
def SVC_TX_STATUS_ATTEMPTS : Fld := ⟨0x04054, 7, 4⟩
def SVC_TX_STATUS_RESULT : Fld := ⟨0x04054, 2, 0⟩
def SVC_TX_BUF (a : Nat) : Fld := ⟨0x04060 + 0x4 * a, 31, 0⟩
def SVC_RX_STAT_OVF : Fld := ⟨0x04080, 31, 31⟩
def SVC_RX_STAT_VALID : Fld := ⟨0x04080, 13, 13⟩
def SVC_RX_STAT_LEN : Fld := ⟨0x04080, 12, 8⟩
def SVC_RX_STAT_SOP : Fld := ⟨0x04080, 6, 4⟩
def SVC_RX_STAT_COUNT : Fld := ⟨0x04080, 2, 0⟩
def SVC_RX_BUF (a : Nat) : Fld := ⟨0x040A0 + 0x4 * a, 31, 0⟩
def SVC_VB_CFG_RCP_THR : Fld := ⟨0x040C0, 31, 24⟩
def SVC_VB_CFG_OCP_THR : Fld := ⟨0x040C0, 23, 16⟩
def SVC_VB_CFG_OVP_THR : Fld := ⟨0x040C0, 7, 0⟩
def SVC_VB_CTRL_CLEAR : Fld := ⟨0x040C4, 2, 2⟩
def SVC_VB_CTRL_SRC_EN : Fld := ⟨0x040C4, 1, 1⟩
def SVC_VB_CTRL_SNK_EN : Fld := ⟨0x040C4, 0, 0⟩
def SVC_VB_STATUS_MA : Fld := ⟨0x040C8, 31, 16⟩
def SVC_VB_STATUS_VBUS : Fld := ⟨0x040C8, 15, 0⟩
def SVC_VB_FLT_RCP : Fld := ⟨0x040CC, 2, 2⟩
def SVC_VB_FLT_OCP : Fld := ⟨0x040CC, 1, 1⟩
def SVC_VB_FLT_OVP : Fld := ⟨0x040CC, 0, 0⟩
def SVC_SINK_LIMIT_MV : Fld := ⟨0x040D0, 31, 16⟩
def SVC_SINK_LIMIT_MA : Fld := ⟨0x040D0, 15, 0⟩
def SVC_TX_FAIL : Fld := ⟨0x040E0, 31, 0⟩
def SVC_RX_CRC_ERR : Fld := ⟨0x040E4, 31, 0⟩
def SVC_RX_DUP : Fld := ⟨0x040E8, 31, 0⟩
def SVC_EVT_CNT_HARD_RESETS : Fld := ⟨0x040EC, 31, 16⟩
def SVC_EVT_CNT_ATTACHES : Fld := ⟨0x040EC, 15, 0⟩

/-! Registers of `spec/17_power_states.md`. -/

def PWR_PS_CTRL_ENTRY_TO : Fld := ⟨0x01040, 15, 8⟩
def PWR_PS_CTRL_TARGET : Fld := ⟨0x01040, 2, 0⟩
def PWR_PS_STATUS_WAKE_CAUSE : Fld := ⟨0x01044, 31, 24⟩
def PWR_PS_STATUS_RESULT : Fld := ⟨0x01044, 19, 16⟩
def PWR_PS_STATUS_BLOCK : Fld := ⟨0x01044, 15, 8⟩
def PWR_PS_STATUS_STATE : Fld := ⟨0x01044, 2, 0⟩
def PWR_WAKE_EN_SRC : Fld := ⟨0x01048, 7, 0⟩
def PWR_VIGIL_PERIOD_MS : Fld := ⟨0x0104C, 6, 0⟩
def PWR_ALARM_S : Fld := ⟨0x01050, 31, 0⟩
def PWR_ALARM_NS : Fld := ⟨0x01054, 29, 0⟩
def PWR_ALARM_CTRL_ARM : Fld := ⟨0x01058, 0, 0⟩
def PWR_RET_LO : Fld := ⟨0x01060, 31, 0⟩
def PWR_RET_HI : Fld := ⟨0x01064, 31, 0⟩
def PWR_RET_DISCARD : Fld := ⟨0x01068, 31, 0⟩
def PWR_KEEP : Fld := ⟨0x0106C, 15, 0⟩
def PWR_DOM_STATUS : Fld := ⟨0x01070, 15, 0⟩
def PWR_VMIN_DECL : Fld := ⟨0x01074, 5, 0⟩
def PWR_LIDLE_US : Fld := ⟨0x01078, 15, 0⟩
def PWR_DOM_IDLE : Fld := ⟨0x0107C, 7, 0⟩
def PWR_PS_CNT_WAKES : Fld := ⟨0x01080, 31, 16⟩
def PWR_PS_CNT_BLOCKED : Fld := ⟨0x01080, 15, 0⟩
def PMB_CTRL_CORE_ADDR : Fld := ⟨0x02040, 14, 8⟩
def PMB_CTRL_SPEED : Fld := ⟨0x02040, 2, 1⟩
def PMB_CTRL_PEC_EN : Fld := ⟨0x02040, 0, 0⟩
def PMB_VREQ : Fld := ⟨0x02044, 5, 0⟩
def PMB_VSTAT_LAST_ERR : Fld := ⟨0x02048, 31, 24⟩
def PMB_VSTAT_ATTEMPTS : Fld := ⟨0x02048, 19, 18⟩
def PMB_VSTAT_FAIL : Fld := ⟨0x02048, 17, 17⟩
def PMB_VSTAT_BUSY : Fld := ⟨0x02048, 16, 16⟩
def PMB_VSTAT_VTARGET : Fld := ⟨0x02048, 13, 8⟩
def PMB_VSTAT_VNOW : Fld := ⟨0x02048, 5, 0⟩
def PMB_STATUS_LAST : Fld := ⟨0x0204C, 15, 0⟩
def PMB_VOUT_MODE : Fld := ⟨0x02050, 7, 0⟩
def PMB_CNT_FAILS : Fld := ⟨0x02054, 31, 16⟩
def PMB_CNT_REQUESTS : Fld := ⟨0x02054, 15, 0⟩
def PMB_BOOST_ACTIVE : Fld := ⟨0x02060, 17, 17⟩
def PMB_BOOST_ALLOWED : Fld := ⟨0x02060, 16, 16⟩
def PMB_BOOST_BUCKET : Fld := ⟨0x02060, 15, 0⟩
def PMB_RS_SEL_COPY : Fld := ⟨0x02080, 0, 0⟩
def PMB_RS_ADDR : Fld := ⟨0x02084, 6, 0⟩
def PMB_RS_DATA : Fld := ⟨0x02088, 31, 0⟩
def PMB_RS_CMD_LOAD : Fld := ⟨0x0208C, 1, 1⟩
def PMB_RS_CMD_COMMIT : Fld := ⟨0x0208C, 0, 0⟩
def PMB_RS_STATUS_INDEX : Fld := ⟨0x02090, 14, 8⟩
def PMB_RS_STATUS_REASON : Fld := ⟨0x02090, 7, 0⟩
def PMB_RS_RUN_FAILED : Fld := ⟨0x02094, 16, 16⟩
def PMB_RS_RUN_LAST_INDEX : Fld := ⟨0x02094, 14, 8⟩
def PMB_RS_RUN_COPY : Fld := ⟨0x02094, 0, 0⟩
def THM_TJ_MAX_SENSOR : Fld := ⟨0x05040, 19, 16⟩
def THM_TJ_MAX_T : Fld := ⟨0x05040, 15, 0⟩
def THM_TJ (a : Nat) : Fld := ⟨0x05044 + 0x4 * a, 15, 0⟩
def THM_CFG_HOT : Fld := ⟨0x05054, 15, 8⟩
def THM_CFG_WARN : Fld := ⟨0x05054, 7, 0⟩
def THM_STATUS_SHUTDOWN_SEEN : Fld := ⟨0x05058, 2, 2⟩
def THM_STATUS_HOT : Fld := ⟨0x05058, 1, 1⟩
def THM_STATUS_WARN : Fld := ⟨0x05058, 0, 0⟩
def THM_SHUT_CNT : Fld := ⟨0x0505C, 15, 0⟩

/-! Registers of `spec/18_security.md`. -/

def SEC_STATUS_HELPER_BACKUP : Fld := ⟨0x09040, 6, 6⟩
def SEC_STATUS_KEK_OK : Fld := ⟨0x09040, 5, 5⟩
def SEC_STATUS_STORE_LOST : Fld := ⟨0x09040, 4, 4⟩
def SEC_STATUS_TAMPER : Fld := ⟨0x09040, 3, 3⟩
def SEC_STATUS_DEBUG_UNLOCKED : Fld := ⟨0x09040, 2, 2⟩
def SEC_STATUS_DRBG_OK : Fld := ⟨0x09040, 1, 1⟩
def SEC_TAMPER_CFG_IN_POL : Fld := ⟨0x09044, 11, 8⟩
def SEC_TAMPER_CFG_IN_ARM : Fld := ⟨0x09044, 7, 4⟩
def SEC_TAMPER_CFG_ARM : Fld := ⟨0x09044, 3, 0⟩
def SEC_TAMPER_LOG_COUNT : Fld := ⟨0x09048, 23, 16⟩
def SEC_TAMPER_LOG_FIRST : Fld := ⟨0x09048, 7, 0⟩
def SEC_TAMPER_TIME : Fld := ⟨0x0904C, 31, 0⟩
def SEC_KS_SEL_SLOT : Fld := ⟨0x09050, 4, 0⟩
def SEC_KS_STATE_ZEROISED : Fld := ⟨0x09054, 16, 16⟩
def SEC_KS_STATE_GEN : Fld := ⟨0x09054, 15, 8⟩
def SEC_KS_STATE_TYPE : Fld := ⟨0x09054, 7, 4⟩
def SEC_KS_STATE_STATE : Fld := ⟨0x09054, 2, 0⟩
def SEC_KS_CMD_ERASE_ALL : Fld := ⟨0x09058, 3, 3⟩
def SEC_KS_CMD_ERASE : Fld := ⟨0x09058, 2, 2⟩
def SEC_KS_CMD_SWITCH : Fld := ⟨0x09058, 1, 1⟩
def SEC_KS_CMD_LOAD_NEXT : Fld := ⟨0x09058, 0, 0⟩
def SEC_KS_STATUS_REASON : Fld := ⟨0x0905C, 7, 0⟩
def SEC_KS_DATA (a : Nat) : Fld := ⟨0x09060 + 0x4 * a, 31, 0⟩
def SEC_LINK_ROT_ROTATE : Fld := ⟨0x090C0, 10, 8⟩
def SEC_LINK_ROT_HOURS : Fld := ⟨0x090C0, 7, 0⟩
def SEC_LINK_KEY_GEN (a : Nat) : Fld := ⟨0x090C4 + 0x4 * a, 31, 24⟩
def SEC_LINK_KEY_AGE_H (a : Nat) : Fld := ⟨0x090C4 + 0x4 * a, 23, 16⟩
def SEC_LINK_KEY_PHASE (a : Nat) : Fld := ⟨0x090C4 + 0x4 * a, 2, 0⟩
def SEC_KEYSEL_ERR (a : Nat) : Fld := ⟨0x090D0 + 0x4 * a, 31, 0⟩
def SEC_MR_EXT_SEL : Fld := ⟨0x09100, 2, 0⟩
def SEC_MR_EXT_DATA (a : Nat) : Fld := ⟨0x09104 + 0x4 * a, 31, 0⟩
def SEC_MR_EXT_CMD_GO : Fld := ⟨0x09134, 0, 0⟩
def SEC_NONCE (a : Nat) : Fld := ⟨0x09140 + 0x4 * a, 31, 0⟩
def SEC_ATT_CMD_GO : Fld := ⟨0x09160, 0, 0⟩
def SEC_ATT_STATUS_BUSY : Fld := ⟨0x09164, 1, 1⟩
def SEC_ATT_STATUS_DONE : Fld := ⟨0x09164, 0, 0⟩
def SEC_CERT_LEN : Fld := ⟨0x09168, 10, 0⟩
def SEC_CHALLENGE (a : Nat) : Fld := ⟨0x09170 + 0x4 * a, 31, 0⟩
def SEC_AUTH_CMD_CLOSE : Fld := ⟨0x09190, 1, 1⟩
def SEC_AUTH_CMD_SUBMIT : Fld := ⟨0x09190, 0, 0⟩
def SEC_AUTH_STATUS_SECONDS : Fld := ⟨0x09194, 31, 16⟩
def SEC_AUTH_STATUS_KEY : Fld := ⟨0x09194, 12, 12⟩
def SEC_AUTH_STATUS_OP : Fld := ⟨0x09194, 11, 8⟩
def SEC_AUTH_STATUS_RESULT : Fld := ⟨0x09194, 2, 0⟩
def SEC_OTP_ADDR : Fld := ⟨0x09198, 9, 0⟩
def SEC_OTP_DATA : Fld := ⟨0x0919C, 31, 0⟩
def SEC_OTP_CMD_PROGRAM : Fld := ⟨0x091A0, 0, 0⟩
def SEC_WATCH_EN (a : Nat) : Fld := ⟨0x091C0 + 0x4 * a, 31, 31⟩
def SEC_WATCH_WORD (a : Nat) : Fld := ⟨0x091C0 + 0x4 * a, 15, 0⟩
def SEC_MR (a b : Nat) : Fld := ⟨0x09300 + 0x30 * a + 0x4 * b, 31, 0⟩
def SEC_ATT_BUF (a : Nat) : Fld := ⟨0x09480 + 0x4 * a, 31, 0⟩
def SEC_CERT_BUF (a : Nat) : Fld := ⟨0x09800 + 0x4 * a, 31, 0⟩
def SEC_AUTH_BUF (a : Nat) : Fld := ⟨0x09C00 + 0x4 * a, 31, 0⟩

/-! Registers of `spec/19_startup_and_update.md`. -/

def BOOT_STATUS_BOOTSEL : Fld := ⟨0x0A040, 17, 16⟩
def BOOT_STATUS_ALT : Fld := ⟨0x0A040, 12, 8⟩
def BOOT_STATUS_HALT : Fld := ⟨0x0A040, 7, 7⟩
def BOOT_STATUS_NO_KEYS : Fld := ⟨0x0A040, 6, 6⟩
def BOOT_STATUS_LOADER : Fld := ⟨0x0A040, 5, 5⟩
def BOOT_STATUS_STEP : Fld := ⟨0x0A040, 3, 0⟩
def BOOT_LEDGER_CFG_B7_TO : Fld := ⟨0x0A044, 15, 8⟩
def BOOT_LEDGER_CFG_THRESH : Fld := ⟨0x0A044, 3, 0⟩
def BOOT_LEDGER_CMD_CLR_CNT : Fld := ⟨0x0A048, 5, 5⟩
def BOOT_LEDGER_CMD_RESET_ALT : Fld := ⟨0x0A048, 4, 0⟩
def BOOT_LEDGER_LAST_FAIL_STEP : Fld := ⟨0x0A04C, 23, 16⟩
def BOOT_LEDGER_LAST_FAIL_CODE : Fld := ⟨0x0A04C, 15, 8⟩
def BOOT_LEDGER_LAST_FLAGS : Fld := ⟨0x0A04C, 7, 0⟩
def BOOT_LEDGER_CNT_CNT_C : Fld := ⟨0x0A050, 31, 24⟩
def BOOT_LEDGER_CNT_CNT_B : Fld := ⟨0x0A050, 23, 16⟩
def BOOT_LEDGER_CNT_CNT_A : Fld := ⟨0x0A050, 15, 8⟩
def BOOT_POWER_CYCLES : Fld := ⟨0x0A054, 31, 0⟩
def BOOT_OP_SECONDS : Fld := ⟨0x0A058, 31, 0⟩
def BOOT_FAIL_TIME_HI : Fld := ⟨0x0A05C, 31, 0⟩
def BOOT_FAIL_TIME_LO : Fld := ⟨0x0A060, 31, 0⟩
def BOOT_IMG_VERSION : Fld := ⟨0x0A064, 31, 0⟩
def BOOT_IMG_INFO_BINDING : Fld := ⟨0x0A068, 9, 9⟩
def BOOT_IMG_INFO_KEY_IDX : Fld := ⟨0x0A068, 8, 8⟩
def BOOT_IMG_INFO_RB_INDEX : Fld := ⟨0x0A068, 5, 0⟩
def BOOT_RB_FLOOR : Fld := ⟨0x0A06C, 5, 0⟩
def BOOT_RB_ADVANCE : Fld := ⟨0x0A070, 0, 0⟩
def BOOT_LOADER_CMD_ENTER : Fld := ⟨0x0A074, 0, 0⟩
def BOOT_SVC_UART_FAST : Fld := ⟨0x0A078, 0, 0⟩
def BOOT_CFG_ADDR : Fld := ⟨0x0A080, 13, 0⟩
def BOOT_CFG_DATA : Fld := ⟨0x0A084, 31, 0⟩
def BOOT_CFG_CMD_COMMIT : Fld := ⟨0x0A088, 1, 1⟩
def BOOT_CFG_CMD_ERASE : Fld := ⟨0x0A088, 0, 0⟩
def BOOT_CFG_STATUS_INDEX : Fld := ⟨0x0A08C, 31, 16⟩
def BOOT_CFG_STATUS_REASON : Fld := ⟨0x0A08C, 7, 0⟩
def BOOT_UPD_STATUS_REASON : Fld := ⟨0x0A090, 15, 8⟩
def BOOT_UPD_STATUS_PHASE : Fld := ⟨0x0A090, 2, 0⟩
def BOOT_UPD_BYTES : Fld := ⟨0x0A094, 31, 0⟩
def BOOT_STEP_MS (a : Nat) : Fld := ⟨0x0A0A0 + 0x4 * a, 15, 0⟩

/-! Registers of `spec/20_event_recorder.md`. -/

def REC_CTRL_FLUSH_MS : Fld := ⟨0x08040, 31, 16⟩
def REC_CTRL_FLUSH_THR : Fld := ⟨0x08040, 15, 8⟩
def REC_CTRL_SCRIBE : Fld := ⟨0x08040, 0, 0⟩
def REC_HEAD_SEQ : Fld := ⟨0x08044, 31, 0⟩
def REC_OLDEST_SEQ : Fld := ⟨0x08048, 31, 0⟩
def REC_FLUSHED_SEQ : Fld := ⟨0x0804C, 31, 0⟩
def REC_SEL : Fld := ⟨0x08050, 31, 0⟩
def REC_SRC_FLASH : Fld := ⟨0x08054, 0, 0⟩
def REC_CMD_SLOT : Fld := ⟨0x08058, 13, 8⟩
def REC_CMD_FIRE : Fld := ⟨0x08058, 2, 2⟩
def REC_CMD_CLEAR : Fld := ⟨0x08058, 1, 1⟩
def REC_CMD_FLUSH : Fld := ⟨0x08058, 0, 0⟩
def REC_STATUS_CLR_PHASE : Fld := ⟨0x0805C, 1, 0⟩
def REC_OVERRUN : Fld := ⟨0x08060, 31, 0⟩
def REC_TRG_LOST : Fld := ⟨0x08064, 31, 0⟩
def REC_FLUSH_ERR : Fld := ⟨0x08068, 31, 0⟩
def REC_WIN (a : Nat) : Fld := ⟨0x08080 + 0x4 * a, 31, 0⟩
def REC_TRG_CTRL_EN (a : Nat) : Fld := ⟨0x08100 + 0x20 * a, 31, 31⟩
def REC_TRG_CTRL_KIND (a : Nat) : Fld := ⟨0x08100 + 0x20 * a, 30, 29⟩
def REC_TRG_CTRL_COUNT (a : Nat) : Fld := ⟨0x08100 + 0x20 * a, 18, 16⟩
def REC_TRG_CTRL_SRC_A (a : Nat) : Fld := ⟨0x08100 + 0x20 * a, 15, 8⟩
def REC_TRG_CTRL_SRC_B (a : Nat) : Fld := ⟨0x08100 + 0x20 * a, 7, 0⟩
def REC_TRG_HOLD_CHAIN_EN (a : Nat) : Fld := ⟨0x08104 + 0x20 * a, 31, 31⟩
def REC_TRG_HOLD_NEXT (a : Nat) : Fld := ⟨0x08104 + 0x20 * a, 29, 24⟩
def REC_TRG_HOLD_HOLDOFF (a : Nat) : Fld := ⟨0x08104 + 0x20 * a, 15, 0⟩
def REC_SNAP01 (a : Nat) : Fld := ⟨0x08108 + 0x20 * a, 31, 0⟩
def REC_SNAP23 (a : Nat) : Fld := ⟨0x0810C + 0x20 * a, 31, 0⟩
def REC_SNAP4 (a : Nat) : Fld := ⟨0x08110 + 0x20 * a, 15, 0⟩
def REC_FIRED (a : Nat) : Fld := ⟨0x08114 + 0x20 * a, 31, 0⟩
def REC_SUPPRESSED (a : Nat) : Fld := ⟨0x08118 + 0x20 * a, 31, 0⟩

/-! Registers of `spec/02_register_pages.md`. -/

def PG_ID (a : Nat) : Fld := ⟨0x00000 + 0x1000 * a, 31, 0⟩
def PG_CAP (a : Nat) : Fld := ⟨0x00004 + 0x1000 * a, 31, 0⟩
def PG_CTRL_SOFT_RST (a : Nat) : Fld := ⟨0x00008 + 0x1000 * a, 1, 1⟩
def PG_CTRL_EN (a : Nat) : Fld := ⟨0x00008 + 0x1000 * a, 0, 0⟩
def PG_STATE_WEDGED (a : Nat) : Fld := ⟨0x0000C + 0x1000 * a, 5, 5⟩
def PG_STATE_DOMAIN_UP (a : Nat) : Fld := ⟨0x0000C + 0x1000 * a, 4, 4⟩
def PG_STATE_EN_PENDING (a : Nat) : Fld := ⟨0x0000C + 0x1000 * a, 3, 3⟩
def PG_STATE_LIFE (a : Nat) : Fld := ⟨0x0000C + 0x1000 * a, 2, 0⟩
def PG_ISR (a : Nat) : Fld := ⟨0x00010 + 0x1000 * a, 31, 0⟩
def PG_IER (a : Nat) : Fld := ⟨0x00014 + 0x1000 * a, 31, 0⟩
def PG_IFR (a : Nat) : Fld := ⟨0x00018 + 0x1000 * a, 31, 0⟩
def PG_ERRCAP_CODE (a : Nat) : Fld := ⟨0x0001C + 0x1000 * a, 31, 24⟩
def PG_ERRCAP_IF (a : Nat) : Fld := ⟨0x0001C + 0x1000 * a, 23, 22⟩
def PG_ERRCAP_MORE (a : Nat) : Fld := ⟨0x0001C + 0x1000 * a, 10, 10⟩
def PG_ERRCAP_WORD (a : Nat) : Fld := ⟨0x0001C + 0x1000 * a, 9, 0⟩
def PG_ERRVAL (a : Nat) : Fld := ⟨0x00020 + 0x1000 * a, 31, 0⟩
def SYS_INT_SUMMARY (a : Nat) : Fld := ⟨0x00040 + 0x4 * a, 31, 0⟩
def SYS_INT_CTRL_INT_EN : Fld := ⟨0x00048, 0, 0⟩
def SYS_INT_CTRL_MSIX_EN : Fld := ⟨0x00048, 1, 1⟩
def SYS_REMOTE_INT : Fld := ⟨0x0004C, 14, 1⟩
def SYS_REMOTE_VEC_VEC : Fld := ⟨0x00050, 5, 0⟩
def SYS_REMOTE_VEC_EN : Fld := ⟨0x00050, 7, 7⟩
def SYS_MSPI_CRCERR : Fld := ⟨0x00058, 15, 0⟩
def SYS_MSIX_MAP0_VEC (a : Nat) : Fld := ⟨0x00080 + 0x4 * a, 5, 0⟩
def SYS_MSIX_MAP0_EN (a : Nat) : Fld := ⟨0x00080 + 0x4 * a, 7, 7⟩
def SYS_MSIX_MAP1_VEC (a : Nat) : Fld := ⟨0x00080 + 0x4 * a, 13, 8⟩
def SYS_MSIX_MAP1_EN (a : Nat) : Fld := ⟨0x00080 + 0x4 * a, 15, 15⟩
def SYS_MSIX_MAP2_VEC (a : Nat) : Fld := ⟨0x00080 + 0x4 * a, 21, 16⟩
def SYS_MSIX_MAP2_EN (a : Nat) : Fld := ⟨0x00080 + 0x4 * a, 23, 23⟩
def SYS_MSIX_MAP3_VEC (a : Nat) : Fld := ⟨0x00080 + 0x4 * a, 29, 24⟩
def SYS_MSIX_MAP3_EN (a : Nat) : Fld := ⟨0x00080 + 0x4 * a, 31, 31⟩
def SYS_REMWIN_EN (a : Nat) : Fld := ⟨0x000C0 + 0x4 * a, 31, 31⟩
def SYS_REMWIN_CHIP (a : Nat) : Fld := ⟨0x000C0 + 0x4 * a, 3, 0⟩
def SYS_SEM_HELD (a : Nat) : Fld := ⟨0x00100 + 0x4 * a, 0, 0⟩
def SYS_SEM_IF (a : Nat) : Fld := ⟨0x00100 + 0x4 * a, 2, 1⟩

/-! Registers of `spec/05_tunnels.md`. -/

def CTX_ING_B_V (a : Nat) : Fld := ⟨0x200010 + 0x80 * a, 31, 31⟩
def CTX_ING_B_POINT (a : Nat) : Fld := ⟨0x200010 + 0x80 * a, 27, 24⟩
def CTX_ING_B_LTN (a : Nat) : Fld := ⟨0x200010 + 0x80 * a, 23, 16⟩
def CTX_ING_B_SUB (a : Nat) : Fld := ⟨0x200010 + 0x80 * a, 15, 0⟩
def CTX_EGR_A_V (a : Nat) : Fld := ⟨0x200014 + 0x80 * a, 31, 31⟩
def CTX_EGR_A_POINT (a : Nat) : Fld := ⟨0x200014 + 0x80 * a, 27, 24⟩
def CTX_EGR_A_LTN (a : Nat) : Fld := ⟨0x200014 + 0x80 * a, 23, 16⟩
def CTX_EGR_A_SUB (a : Nat) : Fld := ⟨0x200014 + 0x80 * a, 15, 0⟩
def CTX_EGR_B_V (a : Nat) : Fld := ⟨0x200018 + 0x80 * a, 31, 31⟩
def CTX_EGR_B_POINT (a : Nat) : Fld := ⟨0x200018 + 0x80 * a, 27, 24⟩
def CTX_EGR_B_LTN (a : Nat) : Fld := ⟨0x200018 + 0x80 * a, 23, 16⟩
def CTX_EGR_B_SUB (a : Nat) : Fld := ⟨0x200018 + 0x80 * a, 15, 0⟩

/-! Registers of `spec/07_scheduling.md`. -/

def SCH_GCL_GATES (a b : Nat) : Fld := ⟨0x0E400 + 0x100 * a + 0x4 * b, 31, 24⟩
def SCH_GCL_INTERVAL (a b : Nat) : Fld := ⟨0x0E400 + 0x100 * a + 0x4 * b, 23, 0⟩

/-! Registers of `spec/04_cycle_and_carats.md`. -/

def CYC_AWIN_A (a b : Nat) : Fld := ⟨0x13180 + 0x1000 * a + 0x8 * b, 31, 0⟩
def CYC_AWIN_B (a b : Nat) : Fld := ⟨0x13184 + 0x1000 * a + 0x8 * b, 31, 0⟩

/-! Registers of `spec/13_station_services.md`. -/

def STN_SUB_SEL : Fld := ⟨0x24040, 8, 0⟩
def STN_PUB_SEL : Fld := ⟨0x24044, 4, 0⟩
def STN_CMD_LOAD : Fld := ⟨0x24048, 0, 0⟩
def STN_CMD_COMMIT : Fld := ⟨0x24048, 1, 1⟩
def STN_CMD_CLR_CNT : Fld := ⟨0x24048, 2, 2⟩
def STN_STATUS_REASON : Fld := ⟨0x2404C, 7, 0⟩
def STN_SUB_EVT (a : Nat) : Fld := ⟨0x24080 + 0x4 * a, 31, 0⟩
def STN_WIN (a : Nat) : Fld := ⟨0x24100 + 0x4 * a, 31, 0⟩
def STN_TPL (a : Nat) : Fld := ⟨0x24400 + 0x4 * a, 31, 0⟩

/-! ## Reset words (R8) -/

/-- A family of words with one reset value: `base + s1 * i + s2 * j` for `i < n1`, `j < n2`. -/
structure RstRow where
  base : Nat
  n1 : Nat
  s1 : Nat
  n2 : Nat
  s2 : Nat
  val : Nat

/-- Words whose Reset column is not zero (part 1). -/
def resetPart0 : List RstRow :=
  [ ⟨0x00060, 1, 0x0, 1, 0x0, 0x0000C001⟩,
    ⟨0x00064, 1, 0x0, 1, 0x0, 0x00000064⟩,
    ⟨0x0006C, 1, 0x0, 1, 0x0, 0x000003E8⟩,
    ⟨0x01040, 1, 0x0, 1, 0x0, 0x00000A00⟩,
    ⟨0x01048, 1, 0x0, 1, 0x0, 0x000000FF⟩,
    ⟨0x0104C, 1, 0x0, 1, 0x0, 0x0000000A⟩,
    ⟨0x01070, 1, 0x0, 1, 0x0, 0x00000007⟩,
    ⟨0x0107C, 1, 0x0, 1, 0x0, 0x00000001⟩,
    ⟨0x02040, 1, 0x0, 1, 0x0, 0x00000005⟩,
    ⟨0x02044, 1, 0x0, 1, 0x0, 0x00000014⟩,
    ⟨0x02048, 1, 0x0, 1, 0x0, 0x00001414⟩,
    ⟨0x02060, 1, 0x0, 1, 0x0, 0x00011770⟩,
    ⟨0x03040, 1, 0x0, 1, 0x0, 0x02000000⟩,
    ⟨0x0304C, 1, 0x0, 1, 0x0, 0x00325000⟩,
    ⟨0x03050, 1, 0x0, 1, 0x0, 0x0A190140⟩,
    ⟨0x03054, 1, 0x0, 1, 0x0, 0x00050A00⟩,
    ⟨0x03058, 1, 0x0, 1, 0x0, 0x00002710⟩,
    ⟨0x0305C, 1, 0x0, 1, 0x0, 0x7C212000⟩,
    ⟨0x03060, 1, 0x0, 1, 0x0, 0x00000007⟩,
    ⟨0x03084, 1, 0x0, 1, 0x0, 0x00000004⟩,
    ⟨0x04040, 1, 0x0, 1, 0x0, 0x004B3200⟩,
    ⟨0x04044, 1, 0x0, 1, 0x0, 0x00000001⟩,
    ⟨0x04048, 1, 0x0, 1, 0x0, 0x00000242⟩,
    ⟨0x04050, 1, 0x0, 1, 0x0, 0x00000200⟩,
    ⟨0x040C0, 1, 0x0, 1, 0x0, 0x0A3C003C⟩,
    ⟨0x05054, 1, 0x0, 1, 0x0, 0x00007669⟩,
    ⟨0x06048, 1, 0x0, 1, 0x0, 0x00000025⟩,
    ⟨0x06058, 1, 0x0, 1, 0x0, 0x03E80064⟩,
    ⟨0x0605C, 1, 0x0, 1, 0x0, 0x006403E8⟩,
    ⟨0x06060, 1, 0x0, 1, 0x0, 0x00000064⟩,
    ⟨0x06068, 1, 0x0, 1, 0x0, 0x003C05A0⟩,
    ⟨0x0710C, 8, 0x10, 1, 0x0, 0x00000008⟩,
    ⟨0x08040, 1, 0x0, 1, 0x0, 0x03E82000⟩,
    ⟨0x08044, 1, 0x0, 1, 0x0, 0x00000001⟩,
    ⟨0x08048, 1, 0x0, 1, 0x0, 0x00000001⟩,
    ⟨0x0804C, 1, 0x0, 1, 0x0, 0x00000001⟩,
    ⟨0x08050, 1, 0x0, 1, 0x0, 0x00000001⟩,
    ⟨0x090C0, 1, 0x0, 1, 0x0, 0x00000018⟩,
    ⟨0x09100, 1, 0x0, 1, 0x0, 0x00000005⟩,
    ⟨0x0A044, 1, 0x0, 1, 0x0, 0x00000A02⟩ ]

/-- Words whose Reset column is not zero (part 2). -/
def resetPart1 : List RstRow :=
  [ ⟨0x0A04C, 1, 0x0, 1, 0x0, 0x00FF0020⟩,
    ⟨0x0B044, 1, 0x0, 1, 0x0, 0x00003C03⟩,
    ⟨0x0B100, 16, 0x10, 1, 0x0, 0x00320000⟩,
    ⟨0x0C054, 1, 0x0, 1, 0x0, 0x00010000⟩,
    ⟨0x0D048, 1, 0x0, 1, 0x0, 0x00002000⟩,
    ⟨0x0D050, 1, 0x0, 1, 0x0, 0xFFFF0000⟩,
    ⟨0x0D080, 8, 0x4, 1, 0x0, 0x000F4240⟩,
    ⟨0x0D204, 128, 0x8, 1, 0x0, 0x00004000⟩,
    ⟨0x0E040, 3, 0x4, 1, 0x0, 0x00010C00⟩,
    ⟨0x0E200, 7, 0x20, 1, 0x0, 0x00000001⟩,
    ⟨0x0E214, 7, 0x20, 1, 0x0, 0xFF000000⟩,
    ⟨0x0E400, 7, 0x100, 64, 0x4, 0xFF000001⟩,
    ⟨0x10040, 3, 0x1000, 1, 0x0, 0x000C0004⟩,
    ⟨0x10048, 3, 0x1000, 1, 0x0, 0x00008000⟩,
    ⟨0x1004C, 3, 0x1000, 1, 0x0, 0x00000005⟩,
    ⟨0x10060, 3, 0x1000, 1, 0x0, 0x00000100⟩,
    ⟨0x13048, 3, 0x1000, 1, 0x0, 0x00000800⟩,
    ⟨0x13068, 3, 0x1000, 1, 0x0, 0x4E200000⟩,
    ⟨0x16040, 1, 0x0, 1, 0x0, 0x0000000B⟩,
    ⟨0x17040, 1, 0x0, 1, 0x0, 0x0000000A⟩,
    ⟨0x1704C, 1, 0x0, 1, 0x0, 0x00000004⟩,
    ⟨0x17090, 1, 0x0, 1, 0x0, 0x00000001⟩,
    ⟨0x18100, 32, 0x40, 1, 0x0, 0x00000020⟩,
    ⟨0x18110, 32, 0x40, 1, 0x0, 0x00000004⟩,
    ⟨0x19040, 1, 0x0, 1, 0x0, 0x00640064⟩,
    ⟨0x19080, 4, 0x4, 1, 0x0, 0x840A0203⟩,
    ⟨0x19108, 8, 0x10, 1, 0x0, 0x000C0000⟩,
    ⟨0x1A040, 4, 0x4, 1, 0x0, 0x00036400⟩,
    ⟨0x1A050, 4, 0x4, 1, 0x0, 0x00002710⟩,
    ⟨0x1A060, 2, 0x4, 1, 0x0, 0x00000014⟩,
    ⟨0x1B040, 1, 0x0, 1, 0x0, 0x0000001B⟩,
    ⟨0x1B054, 1, 0x0, 1, 0x0, 0x00000C80⟩,
    ⟨0x1C040, 1, 0x0, 1, 0x0, 0x002800C8⟩,
    ⟨0x1C054, 1, 0x0, 1, 0x0, 0x00FFFFFF⟩,
    ⟨0x1C058, 1, 0x0, 1, 0x0, 0x00000A00⟩,
    ⟨0x1C100, 40, 0x4, 1, 0x0, 0x20202020⟩,
    ⟨0x1D040, 1, 0x0, 1, 0x0, 0x0000004E⟩,
    ⟨0x1D048, 1, 0x0, 1, 0x0, 0x31640000⟩,
    ⟨0x1D050, 6, 0x4, 1, 0x0, 0x00000100⟩,
    ⟨0x1E040, 1, 0x0, 1, 0x0, 0x0004000A⟩ ]

/-- Words whose Reset column is not zero (part 3). -/
def resetPart2 : List RstRow :=
  [ ⟨0x1E07C, 16, 0x4, 1, 0x0, 0x00000002⟩,
    ⟨0x1F040, 4, 0x1000, 1, 0x0, 0x17C80002⟩,
    ⟨0x1F044, 4, 0x1000, 1, 0x0, 0x00001001⟩,
    ⟨0x23040, 2, 0x4, 1, 0x0, 0x00C00000⟩,
    ⟨0x23048, 1, 0x0, 1, 0x0, 0x019007D0⟩,
    ⟨0x25040, 1, 0x0, 1, 0x0, 0x00808020⟩,
    ⟨0x26040, 1, 0x0, 1, 0x0, 0x03E80010⟩,
    ⟨0x26044, 1, 0x0, 1, 0x0, 0x00000001⟩,
    ⟨0x26050, 1, 0x0, 1, 0x0, 0x00000100⟩,
    ⟨0x26058, 1, 0x0, 1, 0x0, 0xFFF00000⟩,
    ⟨0x200020, 256, 0x80, 1, 0x0, 0x00400000⟩,
    ⟨0x200028, 256, 0x80, 1, 0x0, 0x00000100⟩,
    ⟨0x20002C, 256, 0x80, 1, 0x0, 0x00000050⟩,
    ⟨0x220000, 256, 0x20, 1, 0x0, 0x00000001⟩,
    ⟨0x220004, 256, 0x20, 1, 0x0, 0x00000001⟩,
    ⟨0x220008, 256, 0x20, 1, 0x0, 0x00010001⟩,
    ⟨0x230018, 512, 0x80, 1, 0x0, 0x0FA000FA⟩,
    ⟨0x240000, 32, 0x80, 1, 0x0, 0x00000040⟩,
    ⟨0x240004, 32, 0x80, 1, 0x0, 0x03E80002⟩,
    ⟨0x240008, 32, 0x80, 1, 0x0, 0x00000002⟩ ]

/-! ## Access types and range checks (R2, R9, R10) -/

/-- The access types of R2. -/
inductive AccTy
  | ro | rw | w1c | wo | rwe | rwp | rws
  deriving DecidableEq, Repr

/-- One field of the words at `off + s1 * i + s2 * j` of a page, with its type and its range check: the value
lies between `min` and `max` and is a multiple of `mul` (R10). -/
structure AccRow where
  off : Nat
  n1 : Nat
  s1 : Nat
  n2 : Nat
  s2 : Nat
  hi : Nat
  lo : Nat
  ty : AccTy
  min : Nat
  max : Nat
  mul : Nat

/-- Access rows of page SYS (part 1). -/
def accSys_0 : List AccRow :=
  [ ⟨0x060, 1, 0x0, 1, 0x0, 23, 20, .ro, 0, 0xFFFFFFFF, 1⟩,
    ⟨0x060, 1, 0x0, 1, 0x0, 19, 17, .ro, 0, 0xFFFFFFFF, 1⟩,
    ⟨0x060, 1, 0x0, 1, 0x0, 16, 16, .ro, 0, 0xFFFFFFFF, 1⟩,
    ⟨0x060, 1, 0x0, 1, 0x0, 15, 14, .ro, 0, 0xFFFFFFFF, 1⟩,
    ⟨0x060, 1, 0x0, 1, 0x0, 13, 11, .ro, 0, 0xFFFFFFFF, 1⟩,
    ⟨0x060, 1, 0x0, 1, 0x0, 10, 8, .ro, 0, 0xFFFFFFFF, 1⟩,
    ⟨0x060, 1, 0x0, 1, 0x0, 7, 0, .ro, 0, 0xFFFFFFFF, 1⟩,
    ⟨0x064, 1, 0x0, 1, 0x0, 9, 0, .rw, 1, 0x3E8, 1⟩,
    ⟨0x068, 1, 0x0, 1, 0x0, 16, 16, .wo, 0, 0xFFFFFFFF, 1⟩,
    ⟨0x068, 1, 0x0, 1, 0x0, 15, 0, .wo, 0, 0xFFFFFFFF, 1⟩,
    ⟨0x06C, 1, 0x0, 1, 0x0, 31, 31, .rw, 0, 0xFFFFFFFF, 1⟩,
    ⟨0x06C, 1, 0x0, 1, 0x0, 15, 0, .rw, 10, 0xFFFF, 1⟩,
    ⟨0x070, 1, 0x0, 1, 0x0, 31, 0, .wo, 0, 0xFFFFFFFF, 1⟩,
    ⟨0x074, 1, 0x0, 1, 0x0, 31, 16, .ro, 0, 0xFFFFFFFF, 1⟩,
    ⟨0x074, 1, 0x0, 1, 0x0, 15, 0, .ro, 0, 0xFFFFFFFF, 1⟩,
    ⟨0x040, 2, 0x4, 1, 0x0, 31, 0, .ro, 0, 0xFFFFFFFF, 1⟩,
    ⟨0x048, 1, 0x0, 1, 0x0, 0, 0, .rw, 0, 0xFFFFFFFF, 1⟩,
    ⟨0x048, 1, 0x0, 1, 0x0, 1, 1, .rw, 0, 0xFFFFFFFF, 1⟩,
    ⟨0x04C, 1, 0x0, 1, 0x0, 14, 1, .ro, 0, 0xFFFFFFFF, 1⟩,
    ⟨0x050, 1, 0x0, 1, 0x0, 5, 0, .rw, 0, 0xFFFFFFFF, 1⟩,
    ⟨0x050, 1, 0x0, 1, 0x0, 7, 7, .rw, 0, 0xFFFFFFFF, 1⟩,
    ⟨0x058, 1, 0x0, 1, 0x0, 15, 0, .ro, 0, 0xFFFFFFFF, 1⟩,
    ⟨0x080, 16, 0x4, 1, 0x0, 5, 0, .rw, 0, 0xFFFFFFFF, 1⟩,
    ⟨0x080, 16, 0x4, 1, 0x0, 7, 7, .rw, 0, 0xFFFFFFFF, 1⟩,
    ⟨0x080, 16, 0x4, 1, 0x0, 13, 8, .rw, 0, 0xFFFFFFFF, 1⟩,
    ⟨0x080, 16, 0x4, 1, 0x0, 15, 15, .rw, 0, 0xFFFFFFFF, 1⟩,
    ⟨0x080, 16, 0x4, 1, 0x0, 21, 16, .rw, 0, 0xFFFFFFFF, 1⟩,
    ⟨0x080, 16, 0x4, 1, 0x0, 23, 23, .rw, 0, 0xFFFFFFFF, 1⟩,
    ⟨0x080, 16, 0x4, 1, 0x0, 29, 24, .rw, 0, 0xFFFFFFFF, 1⟩,
    ⟨0x080, 16, 0x4, 1, 0x0, 31, 31, .rw, 0, 0xFFFFFFFF, 1⟩,
    ⟨0x0C0, 4, 0x4, 1, 0x0, 31, 31, .rw, 0, 0xFFFFFFFF, 1⟩,
    ⟨0x0C0, 4, 0x4, 1, 0x0, 3, 0, .rw, 0, 0xFFFFFFFF, 1⟩,
    ⟨0x100, 32, 0x4, 1, 0x0, 0, 0, .rw, 0, 0xFFFFFFFF, 1⟩,
    ⟨0x100, 32, 0x4, 1, 0x0, 2, 1, .ro, 0, 0xFFFFFFFF, 1⟩ ]

/-- Access rows of page PWR (part 1). -/
def accPwr_0 : List AccRow :=
  [ ⟨0x040, 1, 0x0, 1, 0x0, 15, 8, .rw, 1, 0xFF, 1⟩,
    ⟨0x040, 1, 0x0, 1, 0x0, 2, 0, .rw, 0, 0x5, 1⟩,
    ⟨0x044, 1, 0x0, 1, 0x0, 31, 24, .ro, 0, 0xFFFFFFFF, 1⟩,
    ⟨0x044, 1, 0x0, 1, 0x0, 19, 16, .ro, 0, 0xFFFFFFFF, 1⟩,
    ⟨0x044, 1, 0x0, 1, 0x0, 15, 8, .ro, 0, 0xFFFFFFFF, 1⟩,
    ⟨0x044, 1, 0x0, 1, 0x0, 2, 0, .ro, 0, 0xFFFFFFFF, 1⟩,
    ⟨0x048, 1, 0x0, 1, 0x0, 7, 0, .rw, 0, 0xFFFFFFFF, 1⟩,
    ⟨0x04C, 1, 0x0, 1, 0x0, 6, 0, .rw, 1, 0x64, 1⟩,
    ⟨0x050, 1, 0x0, 1, 0x0, 31, 0, .rw, 0, 0xFFFFFFFF, 1⟩,
    ⟨0x054, 1, 0x0, 1, 0x0, 29, 0, .rw, 0, 0x3B9AC9FF, 1⟩,
    ⟨0x058, 1, 0x0, 1, 0x0, 0, 0, .rw, 0, 0xFFFFFFFF, 1⟩,
    ⟨0x060, 1, 0x0, 1, 0x0, 31, 0, .rw, 0, 0xFFFFFFFF, 1⟩,
    ⟨0x064, 1, 0x0, 1, 0x0, 31, 0, .rw, 0, 0xFFFFFFFF, 1⟩,
    ⟨0x068, 1, 0x0, 1, 0x0, 31, 0, .ro, 0, 0xFFFFFFFF, 1⟩,
    ⟨0x06C, 1, 0x0, 1, 0x0, 15, 0, .rw, 0, 0xFFFFFFFF, 1⟩,
    ⟨0x070, 1, 0x0, 1, 0x0, 15, 0, .ro, 0, 0xFFFFFFFF, 1⟩,
    ⟨0x074, 1, 0x0, 1, 0x0, 5, 0, .rw, 0, 0x28, 1⟩,
    ⟨0x078, 1, 0x0, 1, 0x0, 15, 0, .rw, 0, 0xFFFFFFFF, 1⟩,
    ⟨0x07C, 1, 0x0, 1, 0x0, 7, 0, .rw, 1, 0xFF, 1⟩,
    ⟨0x080, 1, 0x0, 1, 0x0, 31, 16, .ro, 0, 0xFFFFFFFF, 1⟩,
    ⟨0x080, 1, 0x0, 1, 0x0, 15, 0, .ro, 0, 0xFFFFFFFF, 1⟩ ]

/-- Access rows of page PMB (part 1). -/
def accPmb_0 : List AccRow :=
  [ ⟨0x040, 1, 0x0, 1, 0x0, 14, 8, .ro, 0, 0xFFFFFFFF, 1⟩,
    ⟨0x040, 1, 0x0, 1, 0x0, 2, 1, .rw, 0, 0x2, 1⟩,
    ⟨0x040, 1, 0x0, 1, 0x0, 0, 0, .rw, 0, 0xFFFFFFFF, 1⟩,
    ⟨0x044, 1, 0x0, 1, 0x0, 5, 0, .rw, 0, 0xFFFFFFFF, 1⟩,
    ⟨0x048, 1, 0x0, 1, 0x0, 31, 24, .ro, 0, 0xFFFFFFFF, 1⟩,
    ⟨0x048, 1, 0x0, 1, 0x0, 19, 18, .ro, 0, 0xFFFFFFFF, 1⟩,
    ⟨0x048, 1, 0x0, 1, 0x0, 17, 17, .ro, 0, 0xFFFFFFFF, 1⟩,
    ⟨0x048, 1, 0x0, 1, 0x0, 16, 16, .ro, 0, 0xFFFFFFFF, 1⟩,
    ⟨0x048, 1, 0x0, 1, 0x0, 13, 8, .ro, 0, 0xFFFFFFFF, 1⟩,
    ⟨0x048, 1, 0x0, 1, 0x0, 5, 0, .ro, 0, 0xFFFFFFFF, 1⟩,
    ⟨0x04C, 1, 0x0, 1, 0x0, 15, 0, .ro, 0, 0xFFFFFFFF, 1⟩,
    ⟨0x050, 1, 0x0, 1, 0x0, 7, 0, .ro, 0, 0xFFFFFFFF, 1⟩,
    ⟨0x054, 1, 0x0, 1, 0x0, 31, 16, .ro, 0, 0xFFFFFFFF, 1⟩,
    ⟨0x054, 1, 0x0, 1, 0x0, 15, 0, .ro, 0, 0xFFFFFFFF, 1⟩,
    ⟨0x060, 1, 0x0, 1, 0x0, 17, 17, .ro, 0, 0xFFFFFFFF, 1⟩,
    ⟨0x060, 1, 0x0, 1, 0x0, 16, 16, .ro, 0, 0xFFFFFFFF, 1⟩,
    ⟨0x060, 1, 0x0, 1, 0x0, 15, 0, .ro, 0, 0xFFFFFFFF, 1⟩,
    ⟨0x080, 1, 0x0, 1, 0x0, 0, 0, .rw, 0, 0xFFFFFFFF, 1⟩,
    ⟨0x084, 1, 0x0, 1, 0x0, 6, 0, .rw, 0, 0xFFFFFFFF, 1⟩,
    ⟨0x088, 1, 0x0, 1, 0x0, 31, 0, .rw, 0, 0xFFFFFFFF, 1⟩,
    ⟨0x08C, 1, 0x0, 1, 0x0, 1, 1, .wo, 0, 0xFFFFFFFF, 1⟩,
    ⟨0x08C, 1, 0x0, 1, 0x0, 0, 0, .wo, 0, 0xFFFFFFFF, 1⟩,
    ⟨0x090, 1, 0x0, 1, 0x0, 14, 8, .ro, 0, 0xFFFFFFFF, 1⟩,
    ⟨0x090, 1, 0x0, 1, 0x0, 7, 0, .ro, 0, 0xFFFFFFFF, 1⟩,
    ⟨0x094, 1, 0x0, 1, 0x0, 16, 16, .ro, 0, 0xFFFFFFFF, 1⟩,
    ⟨0x094, 1, 0x0, 1, 0x0, 14, 8, .ro, 0, 0xFFFFFFFF, 1⟩,
    ⟨0x094, 1, 0x0, 1, 0x0, 0, 0, .ro, 0, 0xFFFFFFFF, 1⟩ ]

/-- Access rows of page BZL (part 1). -/
def accBzl_0 : List AccRow :=
  [ ⟨0x040, 1, 0x0, 1, 0x0, 31, 31, .ro, 0, 0xFFFFFFFF, 1⟩,
    ⟨0x040, 1, 0x0, 1, 0x0, 30, 30, .ro, 0, 0xFFFFFFFF, 1⟩,
    ⟨0x040, 1, 0x0, 1, 0x0, 29, 29, .ro, 0, 0xFFFFFFFF, 1⟩,
    ⟨0x040, 1, 0x0, 1, 0x0, 28, 28, .ro, 0, 0xFFFFFFFF, 1⟩,
    ⟨0x040, 1, 0x0, 1, 0x0, 27, 25, .ro, 0, 0xFFFFFFFF, 1⟩,
    ⟨0x040, 1, 0x0, 1, 0x0, 23, 21, .ro, 0, 0xFFFFFFFF, 1⟩,
    ⟨0x040, 1, 0x0, 1, 0x0, 20, 18, .ro, 0, 0xFFFFFFFF, 1⟩,
    ⟨0x040, 1, 0x0, 1, 0x0, 17, 15, .ro, 0, 0xFFFFFFFF, 1⟩,
    ⟨0x040, 1, 0x0, 1, 0x0, 13, 13, .ro, 0, 0xFFFFFFFF, 1⟩,
    ⟨0x040, 1, 0x0, 1, 0x0, 12, 12, .ro, 0, 0xFFFFFFFF, 1⟩,
    ⟨0x040, 1, 0x0, 1, 0x0, 11, 11, .ro, 0, 0xFFFFFFFF, 1⟩,
    ⟨0x040, 1, 0x0, 1, 0x0, 10, 10, .ro, 0, 0xFFFFFFFF, 1⟩,
    ⟨0x040, 1, 0x0, 1, 0x0, 2, 2, .ro, 0, 0xFFFFFFFF, 1⟩,
    ⟨0x040, 1, 0x0, 1, 0x0, 1, 1, .ro, 0, 0xFFFFFFFF, 1⟩,
    ⟨0x040, 1, 0x0, 1, 0x0, 0, 0, .ro, 0, 0xFFFFFFFF, 1⟩,
    ⟨0x044, 1, 0x0, 1, 0x0, 15, 12, .ro, 0, 0xFFFFFFFF, 1⟩,
    ⟨0x044, 1, 0x0, 1, 0x0, 11, 8, .ro, 0, 0xFFFFFFFF, 1⟩,
    ⟨0x044, 1, 0x0, 1, 0x0, 4, 4, .ro, 0, 0xFFFFFFFF, 1⟩,
    ⟨0x044, 1, 0x0, 1, 0x0, 3, 3, .ro, 0, 0xFFFFFFFF, 1⟩,
    ⟨0x044, 1, 0x0, 1, 0x0, 2, 2, .ro, 0, 0xFFFFFFFF, 1⟩,
    ⟨0x044, 1, 0x0, 1, 0x0, 1, 1, .ro, 0, 0xFFFFFFFF, 1⟩,
    ⟨0x044, 1, 0x0, 1, 0x0, 0, 0, .ro, 0, 0xFFFFFFFF, 1⟩,
    ⟨0x048, 1, 0x0, 1, 0x0, 2, 2, .wo, 0, 0xFFFFFFFF, 1⟩,
    ⟨0x048, 1, 0x0, 1, 0x0, 1, 1, .wo, 0, 0xFFFFFFFF, 1⟩,
    ⟨0x048, 1, 0x0, 1, 0x0, 0, 0, .wo, 0, 0xFFFFFFFF, 1⟩,
    ⟨0x04C, 1, 0x0, 1, 0x0, 23, 16, .rws, 1, 0x64, 1⟩,
    ⟨0x04C, 1, 0x0, 1, 0x0, 15, 8, .rws, 20, 0xC8, 1⟩,
    ⟨0x050, 1, 0x0, 1, 0x0, 31, 24, .rws, 1, 0xFF, 1⟩,
    ⟨0x050, 1, 0x0, 1, 0x0, 23, 16, .rws, 1, 0xC8, 1⟩,
    ⟨0x050, 1, 0x0, 1, 0x0, 10, 8, .rws, 0, 0x4, 1⟩,
    ⟨0x050, 1, 0x0, 1, 0x0, 7, 0, .rws, 16, 0xF0, 1⟩,
    ⟨0x054, 1, 0x0, 1, 0x0, 23, 16, .rws, 1, 0x64, 1⟩,
    ⟨0x054, 1, 0x0, 1, 0x0, 15, 8, .rws, 1, 0xFF, 1⟩,
    ⟨0x054, 1, 0x0, 1, 0x0, 2, 0, .rws, 0, 0xFFFFFFFF, 1⟩,
    ⟨0x058, 1, 0x0, 1, 0x0, 15, 0, .rws, 100, 0xFFFF, 1⟩,
    ⟨0x05C, 1, 0x0, 1, 0x0, 31, 24, .rws, 40, 0x8C, 1⟩,
    ⟨0x05C, 1, 0x0, 1, 0x0, 23, 16, .rws, 24, 0x64, 1⟩,
    ⟨0x05C, 1, 0x0, 1, 0x0, 15, 8, .rws, 12, 0x64, 1⟩,
    ⟨0x05C, 1, 0x0, 1, 0x0, 0, 0, .rws, 0, 0xFFFFFFFF, 1⟩,
    ⟨0x060, 1, 0x0, 1, 0x0, 2, 0, .rws, 0, 0xFFFFFFFF, 1⟩ ]

/-- Access rows of page BZL (part 2). -/
def accBzl_1 : List AccRow :=
  [ ⟨0x070, 1, 0x0, 1, 0x0, 31, 16, .ro, 0, 0xFFFFFFFF, 1⟩,
    ⟨0x070, 1, 0x0, 1, 0x0, 15, 0, .ro, 0, 0xFFFFFFFF, 1⟩,
    ⟨0x074, 1, 0x0, 1, 0x0, 15, 0, .ro, 0, 0xFFFFFFFF, 1⟩,
    ⟨0x078, 1, 0x0, 1, 0x0, 23, 0, .ro, 0, 0xFFFFFFFF, 1⟩,
    ⟨0x07C, 1, 0x0, 1, 0x0, 31, 0, .ro, 0, 0xFFFFFFFF, 1⟩,
    ⟨0x080, 1, 0x0, 1, 0x0, 31, 0, .ro, 0, 0xFFFFFFFF, 1⟩,
    ⟨0x084, 1, 0x0, 1, 0x0, 3, 0, .rws, 0, 0xA, 1⟩,
    ⟨0x088, 1, 0x0, 1, 0x0, 31, 16, .rws, 0, 0xFFFFFFFF, 1⟩,
    ⟨0x088, 1, 0x0, 1, 0x0, 15, 0, .rws, 0, 0xFFFFFFFF, 1⟩,
    ⟨0x08C, 1, 0x0, 1, 0x0, 31, 0, .ro, 0, 0xFFFFFFFF, 1⟩,
    ⟨0x090, 1, 0x0, 1, 0x0, 31, 16, .ro, 0, 0xFFFFFFFF, 1⟩,
    ⟨0x090, 1, 0x0, 1, 0x0, 15, 0, .ro, 0, 0xFFFFFFFF, 1⟩ ]

/-- Access rows of page SVC (part 1). -/
def accSvc_0 : List AccRow :=
  [ ⟨0x040, 1, 0x0, 1, 0x0, 26, 26, .rw, 0, 0xFFFFFFFF, 1⟩,
    ⟨0x040, 1, 0x0, 1, 0x0, 25, 25, .rw, 0, 0xFFFFFFFF, 1⟩,
    ⟨0x040, 1, 0x0, 1, 0x0, 24, 24, .rw, 0, 0xFFFFFFFF, 1⟩,
    ⟨0x040, 1, 0x0, 1, 0x0, 23, 16, .rws, 50, 0x64, 1⟩,
    ⟨0x040, 1, 0x0, 1, 0x0, 15, 8, .rws, 30, 0x46, 1⟩,
    ⟨0x040, 1, 0x0, 1, 0x0, 5, 4, .rws, 0, 0x2, 1⟩,
    ⟨0x040, 1, 0x0, 1, 0x0, 2, 2, .rws, 0, 0xFFFFFFFF, 1⟩,
    ⟨0x040, 1, 0x0, 1, 0x0, 1, 0, .rws, 0, 0x2, 1⟩,
    ⟨0x044, 1, 0x0, 1, 0x0, 15, 15, .ro, 0, 0xFFFFFFFF, 1⟩,
    ⟨0x044, 1, 0x0, 1, 0x0, 14, 14, .ro, 0, 0xFFFFFFFF, 1⟩,
    ⟨0x044, 1, 0x0, 1, 0x0, 13, 13, .ro, 0, 0xFFFFFFFF, 1⟩,
    ⟨0x044, 1, 0x0, 1, 0x0, 12, 12, .ro, 0, 0xFFFFFFFF, 1⟩,
    ⟨0x044, 1, 0x0, 1, 0x0, 11, 10, .ro, 0, 0xFFFFFFFF, 1⟩,
    ⟨0x044, 1, 0x0, 1, 0x0, 9, 9, .ro, 0, 0xFFFFFFFF, 1⟩,
    ⟨0x044, 1, 0x0, 1, 0x0, 8, 8, .ro, 0, 0xFFFFFFFF, 1⟩,
    ⟨0x044, 1, 0x0, 1, 0x0, 6, 6, .ro, 0, 0xFFFFFFFF, 1⟩,
    ⟨0x044, 1, 0x0, 1, 0x0, 5, 5, .ro, 0, 0xFFFFFFFF, 1⟩,
    ⟨0x044, 1, 0x0, 1, 0x0, 3, 0, .ro, 0, 0xFFFFFFFF, 1⟩,
    ⟨0x048, 1, 0x0, 1, 0x0, 17, 17, .wo, 0, 0xFFFFFFFF, 1⟩,
    ⟨0x048, 1, 0x0, 1, 0x0, 16, 16, .wo, 0, 0xFFFFFFFF, 1⟩,
    ⟨0x048, 1, 0x0, 1, 0x0, 9, 8, .rw, 1, 0x2, 1⟩,
    ⟨0x048, 1, 0x0, 1, 0x0, 7, 7, .rw, 0, 0xFFFFFFFF, 1⟩,
    ⟨0x048, 1, 0x0, 1, 0x0, 6, 5, .rw, 0, 0xFFFFFFFF, 1⟩,
    ⟨0x048, 1, 0x0, 1, 0x0, 3, 1, .rw, 0, 0xFFFFFFFF, 1⟩,
    ⟨0x048, 1, 0x0, 1, 0x0, 0, 0, .rw, 0, 0xFFFFFFFF, 1⟩,
    ⟨0x04C, 1, 0x0, 1, 0x0, 0, 0, .rws, 0, 0xFFFFFFFF, 1⟩,
    ⟨0x050, 1, 0x0, 1, 0x0, 15, 8, .rw, 2, 0x1E, 1⟩,
    ⟨0x050, 1, 0x0, 1, 0x0, 4, 4, .rw, 0, 0xFFFFFFFF, 1⟩,
    ⟨0x050, 1, 0x0, 1, 0x0, 3, 1, .rw, 0, 0x2, 1⟩,
    ⟨0x050, 1, 0x0, 1, 0x0, 0, 0, .wo, 0, 0xFFFFFFFF, 1⟩,
    ⟨0x054, 1, 0x0, 1, 0x0, 7, 4, .ro, 0, 0xFFFFFFFF, 1⟩,
    ⟨0x054, 1, 0x0, 1, 0x0, 2, 0, .ro, 0, 0xFFFFFFFF, 1⟩,
    ⟨0x060, 8, 0x4, 1, 0x0, 31, 0, .rw, 0, 0xFFFFFFFF, 1⟩,
    ⟨0x080, 1, 0x0, 1, 0x0, 31, 31, .ro, 0, 0xFFFFFFFF, 1⟩,
    ⟨0x080, 1, 0x0, 1, 0x0, 13, 13, .ro, 0, 0xFFFFFFFF, 1⟩,
    ⟨0x080, 1, 0x0, 1, 0x0, 12, 8, .ro, 0, 0xFFFFFFFF, 1⟩,
    ⟨0x080, 1, 0x0, 1, 0x0, 6, 4, .ro, 0, 0xFFFFFFFF, 1⟩,
    ⟨0x080, 1, 0x0, 1, 0x0, 2, 0, .ro, 0, 0xFFFFFFFF, 1⟩,
    ⟨0x0A0, 8, 0x4, 1, 0x0, 31, 0, .ro, 0, 0xFFFFFFFF, 1⟩,
    ⟨0x0C0, 1, 0x0, 1, 0x0, 31, 24, .rws, 5, 0x32, 1⟩ ]

/-- Access rows of page SVC (part 2). -/
def accSvc_1 : List AccRow :=
  [ ⟨0x0C0, 1, 0x0, 1, 0x0, 23, 16, .rws, 10, 0x6E, 1⟩,
    ⟨0x0C0, 1, 0x0, 1, 0x0, 7, 0, .rws, 55, 0xDC, 1⟩,
    ⟨0x0C4, 1, 0x0, 1, 0x0, 2, 2, .wo, 0, 0xFFFFFFFF, 1⟩,
    ⟨0x0C4, 1, 0x0, 1, 0x0, 1, 1, .rw, 0, 0xFFFFFFFF, 1⟩,
    ⟨0x0C4, 1, 0x0, 1, 0x0, 0, 0, .rw, 0, 0xFFFFFFFF, 1⟩,
    ⟨0x0C8, 1, 0x0, 1, 0x0, 31, 16, .ro, 0, 0xFFFFFFFF, 1⟩,
    ⟨0x0C8, 1, 0x0, 1, 0x0, 15, 0, .ro, 0, 0xFFFFFFFF, 1⟩,
    ⟨0x0CC, 1, 0x0, 1, 0x0, 2, 2, .ro, 0, 0xFFFFFFFF, 1⟩,
    ⟨0x0CC, 1, 0x0, 1, 0x0, 1, 1, .ro, 0, 0xFFFFFFFF, 1⟩,
    ⟨0x0CC, 1, 0x0, 1, 0x0, 0, 0, .ro, 0, 0xFFFFFFFF, 1⟩,
    ⟨0x0D0, 1, 0x0, 1, 0x0, 31, 16, .rw, 0, 0xFFFFFFFF, 1⟩,
    ⟨0x0D0, 1, 0x0, 1, 0x0, 15, 0, .rw, 0, 0xFFFFFFFF, 1⟩,
    ⟨0x0E0, 1, 0x0, 1, 0x0, 31, 0, .ro, 0, 0xFFFFFFFF, 1⟩,
    ⟨0x0E4, 1, 0x0, 1, 0x0, 31, 0, .ro, 0, 0xFFFFFFFF, 1⟩,
    ⟨0x0E8, 1, 0x0, 1, 0x0, 31, 0, .ro, 0, 0xFFFFFFFF, 1⟩,
    ⟨0x0EC, 1, 0x0, 1, 0x0, 31, 16, .ro, 0, 0xFFFFFFFF, 1⟩,
    ⟨0x0EC, 1, 0x0, 1, 0x0, 15, 0, .ro, 0, 0xFFFFFFFF, 1⟩ ]

/-- Access rows of page THM (part 1). -/
def accThm_0 : List AccRow :=
  [ ⟨0x040, 1, 0x0, 1, 0x0, 19, 16, .ro, 0, 0xFFFFFFFF, 1⟩,
    ⟨0x040, 1, 0x0, 1, 0x0, 15, 0, .ro, 0, 0xFFFFFFFF, 1⟩,
    ⟨0x044, 4, 0x4, 1, 0x0, 15, 0, .ro, 0, 0xFFFFFFFF, 1⟩,
    ⟨0x054, 1, 0x0, 1, 0x0, 15, 8, .rw, 90, 0x7C, 1⟩,
    ⟨0x054, 1, 0x0, 1, 0x0, 7, 0, .rw, 60, 0x7C, 1⟩,
    ⟨0x058, 1, 0x0, 1, 0x0, 2, 2, .rws, 0, 0xFFFFFFFF, 1⟩,
    ⟨0x058, 1, 0x0, 1, 0x0, 1, 1, .ro, 0, 0xFFFFFFFF, 1⟩,
    ⟨0x058, 1, 0x0, 1, 0x0, 0, 0, .ro, 0, 0xFFFFFFFF, 1⟩,
    ⟨0x05C, 1, 0x0, 1, 0x0, 15, 0, .rws, 0, 0xFFFFFFFF, 1⟩ ]

/-- Access rows of page TIME (part 1). -/
def accTime_0 : List AccRow :=
  [ ⟨0x040, 1, 0x0, 1, 0x0, 31, 0, .ro, 0, 0xFFFFFFFF, 1⟩,
    ⟨0x044, 1, 0x0, 1, 0x0, 31, 0, .ro, 0, 0xFFFFFFFF, 1⟩,
    ⟨0x048, 1, 0x0, 1, 0x0, 31, 31, .rw, 0, 0xFFFFFFFF, 1⟩,
    ⟨0x048, 1, 0x0, 1, 0x0, 17, 17, .rw, 0, 0xFFFFFFFF, 1⟩,
    ⟨0x048, 1, 0x0, 1, 0x0, 16, 16, .rw, 0, 0xFFFFFFFF, 1⟩,
    ⟨0x048, 1, 0x0, 1, 0x0, 15, 0, .rw, 0, 0xFFFFFFFF, 1⟩,
    ⟨0x04C, 1, 0x0, 1, 0x0, 7, 6, .rw, 0, 0xFFFFFFFF, 1⟩,
    ⟨0x04C, 1, 0x0, 1, 0x0, 5, 4, .rw, 0, 0xFFFFFFFF, 1⟩,
    ⟨0x04C, 1, 0x0, 1, 0x0, 2, 0, .rw, 0, 0x4, 1⟩,
    ⟨0x050, 1, 0x0, 1, 0x0, 31, 16, .ro, 0, 0xFFFFFFFF, 1⟩,
    ⟨0x050, 1, 0x0, 1, 0x0, 11, 8, .ro, 0, 0xFFFFFFFF, 1⟩,
    ⟨0x050, 1, 0x0, 1, 0x0, 4, 4, .ro, 0, 0xFFFFFFFF, 1⟩,
    ⟨0x050, 1, 0x0, 1, 0x0, 3, 3, .ro, 0, 0xFFFFFFFF, 1⟩,
    ⟨0x050, 1, 0x0, 1, 0x0, 2, 0, .ro, 0, 0xFFFFFFFF, 1⟩,
    ⟨0x054, 1, 0x0, 1, 0x0, 31, 0, .ro, 0, 0xFFFFFFFF, 1⟩,
    ⟨0x058, 1, 0x0, 1, 0x0, 31, 16, .rw, 100, 0xFFFF, 1⟩,
    ⟨0x058, 1, 0x0, 1, 0x0, 15, 0, .rw, 1, 0xFFFF, 1⟩,
    ⟨0x05C, 1, 0x0, 1, 0x0, 31, 16, .rw, 1, 0x3E8, 1⟩,
    ⟨0x05C, 1, 0x0, 1, 0x0, 15, 0, .rw, 1, 0x2710, 1⟩,
    ⟨0x060, 1, 0x0, 1, 0x0, 7, 0, .rw, 1, 0x64, 1⟩,
    ⟨0x064, 1, 0x0, 1, 0x0, 31, 0, .ro, 0, 0xFFFFFFFF, 1⟩,
    ⟨0x068, 1, 0x0, 1, 0x0, 31, 16, .rw, 0, 0xFFFFFFFF, 1⟩,
    ⟨0x068, 1, 0x0, 1, 0x0, 15, 0, .rw, 0, 0xFFFFFFFF, 1⟩,
    ⟨0x06C, 1, 0x0, 1, 0x0, 31, 0, .rw, 0, 0xFFFFFFFF, 1⟩,
    ⟨0x070, 1, 0x0, 1, 0x0, 29, 0, .rw, 0, 0x3B9AC9FF, 1⟩,
    ⟨0x074, 1, 0x0, 1, 0x0, 0, 0, .wo, 0, 0xFFFFFFFF, 1⟩,
    ⟨0x078, 1, 0x0, 1, 0x0, 31, 16, .ro, 0, 0xFFFFFFFF, 1⟩,
    ⟨0x078, 1, 0x0, 1, 0x0, 0, 0, .ro, 0, 0xFFFFFFFF, 1⟩,
    ⟨0x07C, 1, 0x0, 1, 0x0, 31, 0, .ro, 0, 0xFFFFFFFF, 1⟩,
    ⟨0x080, 1, 0x0, 1, 0x0, 31, 0, .ro, 0, 0xFFFFFFFF, 1⟩,
    ⟨0x084, 1, 0x0, 1, 0x0, 31, 0, .ro, 0, 0xFFFFFFFF, 1⟩,
    ⟨0x088, 1, 0x0, 1, 0x0, 5, 4, .rwp, 0, 0x1, 1⟩,
    ⟨0x088, 1, 0x0, 1, 0x0, 3, 2, .rwp, 0, 0x1, 1⟩,
    ⟨0x088, 1, 0x0, 1, 0x0, 1, 0, .rwp, 0, 0x1, 1⟩,
    ⟨0x08C, 1, 0x0, 1, 0x0, 10, 8, .ro, 0, 0xFFFFFFFF, 1⟩,
    ⟨0x08C, 1, 0x0, 1, 0x0, 6, 4, .ro, 0, 0xFFFFFFFF, 1⟩,
    ⟨0x08C, 1, 0x0, 1, 0x0, 2, 0, .ro, 0, 0xFFFFFFFF, 1⟩,
    ⟨0x090, 3, 0x4, 1, 0x0, 23, 0, .ro, 0, 0xFFFFFFFF, 1⟩,
    ⟨0x0A0, 3, 0x4, 1, 0x0, 15, 0, .rws, 0, 0xFFFFFFFF, 1⟩,
    ⟨0x0B0, 3, 0x4, 1, 0x0, 31, 0, .ro, 0, 0xFFFFFFFF, 1⟩ ]

/-- Access rows of page TIME (part 2). -/
def accTime_1 : List AccRow :=
  [ ⟨0x0C0, 3, 0x4, 1, 0x0, 31, 0, .ro, 0, 0xFFFFFFFF, 1⟩,
    ⟨0x0D0, 1, 0x0, 1, 0x0, 31, 16, .rw, 0, 0xFFFFFFFF, 1⟩,
    ⟨0x0D0, 1, 0x0, 1, 0x0, 1, 1, .rw, 0, 0xFFFFFFFF, 1⟩,
    ⟨0x0D0, 1, 0x0, 1, 0x0, 0, 0, .rw, 0, 0xFFFFFFFF, 1⟩,
    ⟨0x0D4, 1, 0x0, 1, 0x0, 31, 16, .rw, 0, 0xFFFFFFFF, 1⟩,
    ⟨0x0D4, 1, 0x0, 1, 0x0, 1, 1, .rw, 0, 0xFFFFFFFF, 1⟩,
    ⟨0x0D4, 1, 0x0, 1, 0x0, 0, 0, .rw, 0, 0xFFFFFFFF, 1⟩ ]

/-- Access rows of page EVI (part 1). -/
def accEvi_0 : List AccRow :=
  [ ⟨0x040, 1, 0x0, 1, 0x0, 31, 16, .ro, 0, 0xFFFFFFFF, 1⟩,
    ⟨0x040, 1, 0x0, 1, 0x0, 15, 0, .ro, 0, 0xFFFFFFFF, 1⟩,
    ⟨0x044, 1, 0x0, 1, 0x0, 31, 16, .ro, 0, 0xFFFFFFFF, 1⟩,
    ⟨0x044, 1, 0x0, 1, 0x0, 6, 0, .ro, 0, 0xFFFFFFFF, 1⟩,
    ⟨0x048, 1, 0x0, 1, 0x0, 31, 16, .ro, 0, 0xFFFFFFFF, 1⟩,
    ⟨0x048, 1, 0x0, 1, 0x0, 8, 8, .ro, 0, 0xFFFFFFFF, 1⟩,
    ⟨0x048, 1, 0x0, 1, 0x0, 7, 7, .ro, 0, 0xFFFFFFFF, 1⟩,
    ⟨0x048, 1, 0x0, 1, 0x0, 6, 6, .ro, 0, 0xFFFFFFFF, 1⟩,
    ⟨0x048, 1, 0x0, 1, 0x0, 5, 5, .ro, 0, 0xFFFFFFFF, 1⟩,
    ⟨0x048, 1, 0x0, 1, 0x0, 4, 4, .ro, 0, 0xFFFFFFFF, 1⟩,
    ⟨0x048, 1, 0x0, 1, 0x0, 3, 0, .ro, 0, 0xFFFFFFFF, 1⟩,
    ⟨0x04C, 1, 0x0, 1, 0x0, 31, 0, .ro, 0, 0xFFFFFFFF, 1⟩,
    ⟨0x050, 1, 0x0, 1, 0x0, 31, 0, .ro, 0, 0xFFFFFFFF, 1⟩,
    ⟨0x054, 1, 0x0, 1, 0x0, 31, 0, .ro, 0, 0xFFFFFFFF, 1⟩,
    ⟨0x080, 16, 0x4, 1, 0x0, 31, 16, .rw, 0, 0xFFFFFFFF, 1⟩,
    ⟨0x080, 16, 0x4, 1, 0x0, 15, 6, .rw, 0, 0x3E8, 1⟩,
    ⟨0x080, 16, 0x4, 1, 0x0, 5, 4, .rw, 0, 0x2, 1⟩,
    ⟨0x080, 16, 0x4, 1, 0x0, 3, 3, .rw, 0, 0xFFFFFFFF, 1⟩,
    ⟨0x080, 16, 0x4, 1, 0x0, 2, 2, .rw, 0, 0xFFFFFFFF, 1⟩,
    ⟨0x080, 16, 0x4, 1, 0x0, 1, 1, .rw, 0, 0xFFFFFFFF, 1⟩,
    ⟨0x080, 16, 0x4, 1, 0x0, 0, 0, .rw, 0, 0xFFFFFFFF, 1⟩,
    ⟨0x100, 8, 0x10, 1, 0x0, 31, 31, .rw, 0, 0xFFFFFFFF, 1⟩,
    ⟨0x100, 8, 0x10, 1, 0x0, 30, 30, .ro, 0, 0xFFFFFFFF, 1⟩,
    ⟨0x100, 8, 0x10, 1, 0x0, 18, 16, .rw, 0, 0x4, 1⟩,
    ⟨0x100, 8, 0x10, 1, 0x0, 8, 8, .rw, 0, 0xFFFFFFFF, 1⟩,
    ⟨0x104, 8, 0x10, 1, 0x0, 31, 0, .rw, 0, 0xFFFFFFFF, 1⟩,
    ⟨0x108, 8, 0x10, 1, 0x0, 29, 0, .rw, 0, 0x3B9AC9FF, 1⟩,
    ⟨0x10C, 8, 0x10, 1, 0x0, 29, 0, .rw, 8, 0x3B9AC9F8, 8⟩ ]

/-- Access rows of page REC (part 1). -/
def accRec_0 : List AccRow :=
  [ ⟨0x040, 1, 0x0, 1, 0x0, 31, 16, .rws, 10, 0xEA60, 1⟩,
    ⟨0x040, 1, 0x0, 1, 0x0, 15, 8, .rws, 1, 0xFF, 1⟩,
    ⟨0x040, 1, 0x0, 1, 0x0, 0, 0, .rws, 0, 0xFFFFFFFF, 1⟩,
    ⟨0x044, 1, 0x0, 1, 0x0, 31, 0, .ro, 0, 0xFFFFFFFF, 1⟩,
    ⟨0x048, 1, 0x0, 1, 0x0, 31, 0, .ro, 0, 0xFFFFFFFF, 1⟩,
    ⟨0x04C, 1, 0x0, 1, 0x0, 31, 0, .ro, 0, 0xFFFFFFFF, 1⟩,
    ⟨0x050, 1, 0x0, 1, 0x0, 31, 0, .rw, 0, 0xFFFFFFFF, 1⟩,
    ⟨0x054, 1, 0x0, 1, 0x0, 0, 0, .rw, 0, 0xFFFFFFFF, 1⟩,
    ⟨0x058, 1, 0x0, 1, 0x0, 13, 8, .wo, 0, 0xFFFFFFFF, 1⟩,
    ⟨0x058, 1, 0x0, 1, 0x0, 2, 2, .wo, 0, 0xFFFFFFFF, 1⟩,
    ⟨0x058, 1, 0x0, 1, 0x0, 1, 1, .wo, 0, 0xFFFFFFFF, 1⟩,
    ⟨0x058, 1, 0x0, 1, 0x0, 0, 0, .wo, 0, 0xFFFFFFFF, 1⟩,
    ⟨0x05C, 1, 0x0, 1, 0x0, 1, 0, .ro, 0, 0xFFFFFFFF, 1⟩,
    ⟨0x060, 1, 0x0, 1, 0x0, 31, 0, .ro, 0, 0xFFFFFFFF, 1⟩,
    ⟨0x064, 1, 0x0, 1, 0x0, 31, 0, .ro, 0, 0xFFFFFFFF, 1⟩,
    ⟨0x068, 1, 0x0, 1, 0x0, 31, 0, .ro, 0, 0xFFFFFFFF, 1⟩,
    ⟨0x080, 16, 0x4, 1, 0x0, 31, 0, .ro, 0, 0xFFFFFFFF, 1⟩,
    ⟨0x100, 64, 0x20, 1, 0x0, 31, 31, .rws, 0, 0xFFFFFFFF, 1⟩,
    ⟨0x100, 64, 0x20, 1, 0x0, 30, 29, .rws, 0, 0x2, 1⟩,
    ⟨0x100, 64, 0x20, 1, 0x0, 18, 16, .rws, 0, 0x5, 1⟩,
    ⟨0x100, 64, 0x20, 1, 0x0, 15, 8, .rws, 0, 0xFFFFFFFF, 1⟩,
    ⟨0x100, 64, 0x20, 1, 0x0, 7, 0, .rws, 0, 0xFFFFFFFF, 1⟩,
    ⟨0x104, 64, 0x20, 1, 0x0, 31, 31, .rws, 0, 0xFFFFFFFF, 1⟩,
    ⟨0x104, 64, 0x20, 1, 0x0, 29, 24, .rws, 0, 0xFFFFFFFF, 1⟩,
    ⟨0x104, 64, 0x20, 1, 0x0, 15, 0, .rws, 0, 0xFFFFFFFF, 1⟩,
    ⟨0x108, 64, 0x20, 1, 0x0, 31, 0, .rws, 0, 0xFFFFFFFF, 1⟩,
    ⟨0x10C, 64, 0x20, 1, 0x0, 31, 0, .rws, 0, 0xFFFFFFFF, 1⟩,
    ⟨0x110, 64, 0x20, 1, 0x0, 15, 0, .rws, 0, 0xFFFFFFFF, 1⟩,
    ⟨0x114, 64, 0x20, 1, 0x0, 31, 0, .ro, 0, 0xFFFFFFFF, 1⟩,
    ⟨0x118, 64, 0x20, 1, 0x0, 31, 0, .ro, 0, 0xFFFFFFFF, 1⟩ ]

/-- Access rows of page SEC (part 1). -/
def accSec_0 : List AccRow :=
  [ ⟨0x040, 1, 0x0, 1, 0x0, 6, 6, .ro, 0, 0xFFFFFFFF, 1⟩,
    ⟨0x040, 1, 0x0, 1, 0x0, 5, 5, .ro, 0, 0xFFFFFFFF, 1⟩,
    ⟨0x040, 1, 0x0, 1, 0x0, 4, 4, .ro, 0, 0xFFFFFFFF, 1⟩,
    ⟨0x040, 1, 0x0, 1, 0x0, 3, 3, .ro, 0, 0xFFFFFFFF, 1⟩,
    ⟨0x040, 1, 0x0, 1, 0x0, 2, 2, .ro, 0, 0xFFFFFFFF, 1⟩,
    ⟨0x040, 1, 0x0, 1, 0x0, 1, 1, .ro, 0, 0xFFFFFFFF, 1⟩,
    ⟨0x044, 1, 0x0, 1, 0x0, 11, 8, .rws, 0, 0xFFFFFFFF, 1⟩,
    ⟨0x044, 1, 0x0, 1, 0x0, 7, 4, .rws, 0, 0xFFFFFFFF, 1⟩,
    ⟨0x044, 1, 0x0, 1, 0x0, 3, 0, .rws, 0, 0xFFFFFFFF, 1⟩,
    ⟨0x048, 1, 0x0, 1, 0x0, 23, 16, .rws, 0, 0xFFFFFFFF, 1⟩,
    ⟨0x048, 1, 0x0, 1, 0x0, 7, 0, .rws, 0, 0xFFFFFFFF, 1⟩,
    ⟨0x04C, 1, 0x0, 1, 0x0, 31, 0, .rws, 0, 0xFFFFFFFF, 1⟩,
    ⟨0x050, 1, 0x0, 1, 0x0, 4, 0, .rw, 0, 0xFFFFFFFF, 1⟩,
    ⟨0x054, 1, 0x0, 1, 0x0, 16, 16, .ro, 0, 0xFFFFFFFF, 1⟩,
    ⟨0x054, 1, 0x0, 1, 0x0, 15, 8, .ro, 0, 0xFFFFFFFF, 1⟩,
    ⟨0x054, 1, 0x0, 1, 0x0, 7, 4, .ro, 0, 0xFFFFFFFF, 1⟩,
    ⟨0x054, 1, 0x0, 1, 0x0, 2, 0, .ro, 0, 0xFFFFFFFF, 1⟩,
    ⟨0x058, 1, 0x0, 1, 0x0, 3, 3, .wo, 0, 0xFFFFFFFF, 1⟩,
    ⟨0x058, 1, 0x0, 1, 0x0, 2, 2, .wo, 0, 0xFFFFFFFF, 1⟩,
    ⟨0x058, 1, 0x0, 1, 0x0, 1, 1, .wo, 0, 0xFFFFFFFF, 1⟩,
    ⟨0x058, 1, 0x0, 1, 0x0, 0, 0, .wo, 0, 0xFFFFFFFF, 1⟩,
    ⟨0x05C, 1, 0x0, 1, 0x0, 7, 0, .ro, 0, 0xFFFFFFFF, 1⟩,
    ⟨0x060, 21, 0x4, 1, 0x0, 31, 0, .wo, 0, 0xFFFFFFFF, 1⟩,
    ⟨0x0C0, 1, 0x0, 1, 0x0, 10, 8, .wo, 0, 0xFFFFFFFF, 1⟩,
    ⟨0x0C0, 1, 0x0, 1, 0x0, 7, 0, .rw, 1, 0x5F, 1⟩,
    ⟨0x0C4, 3, 0x4, 1, 0x0, 31, 24, .ro, 0, 0xFFFFFFFF, 1⟩,
    ⟨0x0C4, 3, 0x4, 1, 0x0, 23, 16, .ro, 0, 0xFFFFFFFF, 1⟩,
    ⟨0x0C4, 3, 0x4, 1, 0x0, 2, 0, .ro, 0, 0xFFFFFFFF, 1⟩,
    ⟨0x0D0, 3, 0x4, 1, 0x0, 31, 0, .ro, 0, 0xFFFFFFFF, 1⟩,
    ⟨0x100, 1, 0x0, 1, 0x0, 2, 0, .rw, 5, 0x7, 1⟩,
    ⟨0x104, 12, 0x4, 1, 0x0, 31, 0, .wo, 0, 0xFFFFFFFF, 1⟩,
    ⟨0x134, 1, 0x0, 1, 0x0, 0, 0, .wo, 0, 0xFFFFFFFF, 1⟩,
    ⟨0x140, 8, 0x4, 1, 0x0, 31, 0, .rw, 0, 0xFFFFFFFF, 1⟩,
    ⟨0x160, 1, 0x0, 1, 0x0, 0, 0, .wo, 0, 0xFFFFFFFF, 1⟩,
    ⟨0x164, 1, 0x0, 1, 0x0, 1, 1, .ro, 0, 0xFFFFFFFF, 1⟩,
    ⟨0x164, 1, 0x0, 1, 0x0, 0, 0, .ro, 0, 0xFFFFFFFF, 1⟩,
    ⟨0x168, 1, 0x0, 1, 0x0, 10, 0, .ro, 0, 0xFFFFFFFF, 1⟩,
    ⟨0x170, 8, 0x4, 1, 0x0, 31, 0, .ro, 0, 0xFFFFFFFF, 1⟩,
    ⟨0x190, 1, 0x0, 1, 0x0, 1, 1, .wo, 0, 0xFFFFFFFF, 1⟩,
    ⟨0x190, 1, 0x0, 1, 0x0, 0, 0, .wo, 0, 0xFFFFFFFF, 1⟩ ]

/-- Access rows of page SEC (part 2). -/
def accSec_1 : List AccRow :=
  [ ⟨0x194, 1, 0x0, 1, 0x0, 31, 16, .ro, 0, 0xFFFFFFFF, 1⟩,
    ⟨0x194, 1, 0x0, 1, 0x0, 12, 12, .ro, 0, 0xFFFFFFFF, 1⟩,
    ⟨0x194, 1, 0x0, 1, 0x0, 11, 8, .ro, 0, 0xFFFFFFFF, 1⟩,
    ⟨0x194, 1, 0x0, 1, 0x0, 2, 0, .ro, 0, 0xFFFFFFFF, 1⟩,
    ⟨0x198, 1, 0x0, 1, 0x0, 9, 0, .rw, 0, 0xFFFFFFFF, 1⟩,
    ⟨0x19C, 1, 0x0, 1, 0x0, 31, 0, .rw, 0, 0xFFFFFFFF, 1⟩,
    ⟨0x1A0, 1, 0x0, 1, 0x0, 0, 0, .wo, 0, 0xFFFFFFFF, 1⟩,
    ⟨0x1C0, 32, 0x4, 1, 0x0, 31, 31, .rw, 0, 0xFFFFFFFF, 1⟩,
    ⟨0x1C0, 32, 0x4, 1, 0x0, 15, 0, .rw, 0, 0xFFFFFFFF, 1⟩,
    ⟨0x300, 8, 0x30, 12, 0x4, 31, 0, .ro, 0, 0xFFFFFFFF, 1⟩,
    ⟨0x480, 138, 0x4, 1, 0x0, 31, 0, .ro, 0, 0xFFFFFFFF, 1⟩,
    ⟨0x800, 256, 0x4, 1, 0x0, 31, 0, .ro, 0, 0xFFFFFFFF, 1⟩,
    ⟨0xC00, 72, 0x4, 1, 0x0, 31, 0, .rw, 0, 0xFFFFFFFF, 1⟩ ]

/-- Access rows of page BOOT (part 1). -/
def accBoot_0 : List AccRow :=
  [ ⟨0x040, 1, 0x0, 1, 0x0, 17, 16, .ro, 0, 0xFFFFFFFF, 1⟩,
    ⟨0x040, 1, 0x0, 1, 0x0, 12, 8, .ro, 0, 0xFFFFFFFF, 1⟩,
    ⟨0x040, 1, 0x0, 1, 0x0, 7, 7, .ro, 0, 0xFFFFFFFF, 1⟩,
    ⟨0x040, 1, 0x0, 1, 0x0, 6, 6, .ro, 0, 0xFFFFFFFF, 1⟩,
    ⟨0x040, 1, 0x0, 1, 0x0, 5, 5, .ro, 0, 0xFFFFFFFF, 1⟩,
    ⟨0x040, 1, 0x0, 1, 0x0, 3, 0, .ro, 0, 0xFFFFFFFF, 1⟩,
    ⟨0x044, 1, 0x0, 1, 0x0, 15, 8, .rws, 1, 0xFF, 1⟩,
    ⟨0x044, 1, 0x0, 1, 0x0, 3, 0, .rws, 1, 0xF, 1⟩,
    ⟨0x048, 1, 0x0, 1, 0x0, 5, 5, .wo, 0, 0xFFFFFFFF, 1⟩,
    ⟨0x048, 1, 0x0, 1, 0x0, 4, 0, .wo, 0, 0xFFFFFFFF, 1⟩,
    ⟨0x04C, 1, 0x0, 1, 0x0, 23, 16, .ro, 0, 0xFFFFFFFF, 1⟩,
    ⟨0x04C, 1, 0x0, 1, 0x0, 15, 8, .ro, 0, 0xFFFFFFFF, 1⟩,
    ⟨0x04C, 1, 0x0, 1, 0x0, 7, 0, .ro, 0, 0xFFFFFFFF, 1⟩,
    ⟨0x050, 1, 0x0, 1, 0x0, 31, 24, .ro, 0, 0xFFFFFFFF, 1⟩,
    ⟨0x050, 1, 0x0, 1, 0x0, 23, 16, .ro, 0, 0xFFFFFFFF, 1⟩,
    ⟨0x050, 1, 0x0, 1, 0x0, 15, 8, .ro, 0, 0xFFFFFFFF, 1⟩,
    ⟨0x054, 1, 0x0, 1, 0x0, 31, 0, .ro, 0, 0xFFFFFFFF, 1⟩,
    ⟨0x058, 1, 0x0, 1, 0x0, 31, 0, .ro, 0, 0xFFFFFFFF, 1⟩,
    ⟨0x05C, 1, 0x0, 1, 0x0, 31, 0, .ro, 0, 0xFFFFFFFF, 1⟩,
    ⟨0x060, 1, 0x0, 1, 0x0, 31, 0, .ro, 0, 0xFFFFFFFF, 1⟩,
    ⟨0x064, 1, 0x0, 1, 0x0, 31, 0, .ro, 0, 0xFFFFFFFF, 1⟩,
    ⟨0x068, 1, 0x0, 1, 0x0, 9, 9, .ro, 0, 0xFFFFFFFF, 1⟩,
    ⟨0x068, 1, 0x0, 1, 0x0, 8, 8, .ro, 0, 0xFFFFFFFF, 1⟩,
    ⟨0x068, 1, 0x0, 1, 0x0, 5, 0, .ro, 0, 0xFFFFFFFF, 1⟩,
    ⟨0x06C, 1, 0x0, 1, 0x0, 5, 0, .ro, 0, 0xFFFFFFFF, 1⟩,
    ⟨0x070, 1, 0x0, 1, 0x0, 0, 0, .wo, 0, 0xFFFFFFFF, 1⟩,
    ⟨0x074, 1, 0x0, 1, 0x0, 0, 0, .wo, 0, 0xFFFFFFFF, 1⟩,
    ⟨0x078, 1, 0x0, 1, 0x0, 0, 0, .rws, 0, 0xFFFFFFFF, 1⟩,
    ⟨0x080, 1, 0x0, 1, 0x0, 13, 0, .rw, 0, 0xFFFFFFFF, 1⟩,
    ⟨0x084, 1, 0x0, 1, 0x0, 31, 0, .wo, 0, 0xFFFFFFFF, 1⟩,
    ⟨0x088, 1, 0x0, 1, 0x0, 1, 1, .wo, 0, 0xFFFFFFFF, 1⟩,
    ⟨0x088, 1, 0x0, 1, 0x0, 0, 0, .wo, 0, 0xFFFFFFFF, 1⟩,
    ⟨0x08C, 1, 0x0, 1, 0x0, 31, 16, .ro, 0, 0xFFFFFFFF, 1⟩,
    ⟨0x08C, 1, 0x0, 1, 0x0, 7, 0, .ro, 0, 0xFFFFFFFF, 1⟩,
    ⟨0x090, 1, 0x0, 1, 0x0, 15, 8, .ro, 0, 0xFFFFFFFF, 1⟩,
    ⟨0x090, 1, 0x0, 1, 0x0, 2, 0, .ro, 0, 0xFFFFFFFF, 1⟩,
    ⟨0x094, 1, 0x0, 1, 0x0, 31, 0, .ro, 0, 0xFFFFFFFF, 1⟩,
    ⟨0x0A0, 9, 0x4, 1, 0x0, 15, 0, .ro, 0, 0xFFFFFFFF, 1⟩ ]

/-- Access rows of page FAC (part 1). -/
def accFac_0 : List AccRow :=
  [ ⟨0x040, 1, 0x0, 1, 0x0, 31, 16, .ro, 0, 0xFFFFFFFF, 1⟩,
    ⟨0x040, 1, 0x0, 1, 0x0, 15, 0, .ro, 0, 0xFFFFFFFF, 1⟩,
    ⟨0x044, 1, 0x0, 1, 0x0, 15, 8, .rw, 1, 0xFF, 1⟩,
    ⟨0x044, 1, 0x0, 1, 0x0, 3, 0, .rw, 1, 0xF, 1⟩,
    ⟨0x048, 1, 0x0, 1, 0x0, 15, 0, .ro, 0, 0xFFFFFFFF, 1⟩,
    ⟨0x100, 16, 0x10, 1, 0x0, 31, 16, .rw, 1, 0x3E8, 1⟩,
    ⟨0x100, 16, 0x10, 1, 0x0, 0, 0, .wo, 0, 0xFFFFFFFF, 1⟩,
    ⟨0x104, 16, 0x10, 1, 0x0, 31, 16, .ro, 0, 0xFFFFFFFF, 1⟩,
    ⟨0x104, 16, 0x10, 1, 0x0, 15, 8, .ro, 0, 0xFFFFFFFF, 1⟩,
    ⟨0x104, 16, 0x10, 1, 0x0, 4, 4, .ro, 0, 0xFFFFFFFF, 1⟩,
    ⟨0x104, 16, 0x10, 1, 0x0, 2, 0, .ro, 0, 0xFFFFFFFF, 1⟩,
    ⟨0x108, 16, 0x10, 1, 0x0, 9, 9, .wo, 0, 0xFFFFFFFF, 1⟩,
    ⟨0x108, 16, 0x10, 1, 0x0, 8, 8, .ro, 0, 0xFFFFFFFF, 1⟩,
    ⟨0x108, 16, 0x10, 1, 0x0, 1, 1, .ro, 0, 0xFFFFFFFF, 1⟩,
    ⟨0x108, 16, 0x10, 1, 0x0, 0, 0, .wo, 0, 0xFFFFFFFF, 1⟩,
    ⟨0x10C, 16, 0x10, 1, 0x0, 31, 16, .ro, 0, 0xFFFFFFFF, 1⟩,
    ⟨0x10C, 16, 0x10, 1, 0x0, 7, 0, .ro, 0, 0xFFFFFFFF, 1⟩,
    ⟨0x800, 16, 0x80, 16, 0x4, 31, 0, .rw, 0, 0xFFFFFFFF, 1⟩,
    ⟨0x840, 16, 0x80, 16, 0x4, 31, 0, .ro, 0, 0xFFFFFFFF, 1⟩ ]

/-- Access rows of page SIEVE (part 1). -/
def accSieve_0 : List AccRow :=
  [ ⟨0x040, 1, 0x0, 1, 0x0, 11, 0, .rw, 0, 0xFFFFFFFF, 1⟩,
    ⟨0x044, 1, 0x0, 1, 0x0, 31, 0, .rw, 0, 0xFFFFFFFF, 1⟩,
    ⟨0x048, 1, 0x0, 1, 0x0, 4, 0, .rw, 0, 0xFFFFFFFF, 1⟩,
    ⟨0x04C, 1, 0x0, 1, 0x0, 2, 2, .wo, 0, 0xFFFFFFFF, 1⟩,
    ⟨0x04C, 1, 0x0, 1, 0x0, 1, 1, .wo, 0, 0xFFFFFFFF, 1⟩,
    ⟨0x04C, 1, 0x0, 1, 0x0, 0, 0, .wo, 0, 0xFFFFFFFF, 1⟩,
    ⟨0x050, 1, 0x0, 1, 0x0, 20, 16, .ro, 0, 0xFFFFFFFF, 1⟩,
    ⟨0x050, 1, 0x0, 1, 0x0, 15, 8, .ro, 0, 0xFFFFFFFF, 1⟩,
    ⟨0x050, 1, 0x0, 1, 0x0, 7, 0, .ro, 0, 0xFFFFFFFF, 1⟩,
    ⟨0x054, 1, 0x0, 1, 0x0, 24, 16, .rw, 0, 0xFFFFFFFF, 1⟩,
    ⟨0x054, 1, 0x0, 1, 0x0, 11, 0, .rw, 0, 0xFFFFFFFF, 1⟩,
    ⟨0x058, 1, 0x0, 1, 0x0, 31, 0, .ro, 0, 0xFFFFFFFF, 1⟩,
    ⟨0x05C, 1, 0x0, 1, 0x0, 31, 0, .ro, 0, 0xFFFFFFFF, 1⟩,
    ⟨0x060, 1, 0x0, 1, 0x0, 8, 0, .ro, 0, 0xFFFFFFFF, 1⟩,
    ⟨0x064, 1, 0x0, 1, 0x0, 31, 0, .ro, 0, 0xFFFFFFFF, 1⟩,
    ⟨0x080, 32, 0x4, 1, 0x0, 31, 31, .ro, 0, 0xFFFFFFFF, 1⟩,
    ⟨0x080, 32, 0x4, 1, 0x0, 24, 16, .ro, 0, 0xFFFFFFFF, 1⟩,
    ⟨0x080, 32, 0x4, 1, 0x0, 11, 0, .ro, 0, 0xFFFFFFFF, 1⟩,
    ⟨0x10C, 11, 0x4, 1, 0x0, 31, 31, .rw, 0, 0xFFFFFFFF, 1⟩,
    ⟨0x10C, 11, 0x4, 1, 0x0, 4, 0, .rw, 0, 0xFFFFFFFF, 1⟩,
    ⟨0x140, 1, 0x0, 1, 0x0, 11, 0, .rw, 0, 0xFFFFFFFF, 1⟩,
    ⟨0x144, 1, 0x0, 1, 0x0, 31, 0, .rw, 0, 0xFFFFFFFF, 1⟩,
    ⟨0x148, 1, 0x0, 1, 0x0, 31, 0, .rw, 0, 0xFFFFFFFF, 1⟩,
    ⟨0x14C, 1, 0x0, 1, 0x0, 31, 31, .rw, 0, 0xFFFFFFFF, 1⟩,
    ⟨0x14C, 1, 0x0, 1, 0x0, 3, 0, .rw, 0, 0xFFFFFFFF, 1⟩,
    ⟨0x150, 1, 0x0, 1, 0x0, 1, 1, .wo, 0, 0xFFFFFFFF, 1⟩,
    ⟨0x150, 1, 0x0, 1, 0x0, 0, 0, .wo, 0, 0xFFFFFFFF, 1⟩,
    ⟨0x154, 1, 0x0, 1, 0x0, 7, 0, .ro, 0, 0xFFFFFFFF, 1⟩,
    ⟨0x800, 256, 0x4, 1, 0x0, 31, 0, .ro, 0, 0xFFFFFFFF, 1⟩ ]

/-- Access rows of page GRD (part 1). -/
def accGrd_0 : List AccRow :=
  [ ⟨0x040, 1, 0x0, 1, 0x0, 16, 16, .ro, 0, 0xFFFFFFFF, 1⟩,
    ⟨0x040, 1, 0x0, 1, 0x0, 14, 8, .ro, 0, 0xFFFFFFFF, 1⟩,
    ⟨0x040, 1, 0x0, 1, 0x0, 6, 0, .ro, 0, 0xFFFFFFFF, 1⟩,
    ⟨0x044, 1, 0x0, 1, 0x0, 17, 0, .ro, 0, 0xFFFFFFFF, 1⟩,
    ⟨0x048, 1, 0x0, 1, 0x0, 17, 0, .rw, 0, 0x20000, 1⟩,
    ⟨0x04C, 1, 0x0, 1, 0x0, 17, 0, .ro, 0, 0xFFFFFFFF, 1⟩,
    ⟨0x050, 1, 0x0, 1, 0x0, 31, 16, .ro, 0, 0xFFFFFFFF, 1⟩,
    ⟨0x050, 1, 0x0, 1, 0x0, 15, 0, .ro, 0, 0xFFFFFFFF, 1⟩,
    ⟨0x060, 8, 0x4, 1, 0x0, 19, 0, .rw, 1, 0xF4240, 1⟩,
    ⟨0x084, 7, 0x4, 1, 0x0, 19, 0, .rw, 1, 0xF4240, 1⟩,
    ⟨0x0A0, 1, 0x0, 1, 0x0, 31, 0, .ro, 0, 0xFFFFFFFF, 1⟩,
    ⟨0x0A4, 1, 0x0, 1, 0x0, 31, 0, .ro, 0, 0xFFFFFFFF, 1⟩,
    ⟨0x0A8, 1, 0x0, 1, 0x0, 31, 0, .ro, 0, 0xFFFFFFFF, 1⟩,
    ⟨0x0AC, 1, 0x0, 1, 0x0, 31, 0, .ro, 0, 0xFFFFFFFF, 1⟩,
    ⟨0x0B0, 1, 0x0, 1, 0x0, 31, 0, .ro, 0, 0xFFFFFFFF, 1⟩,
    ⟨0x200, 128, 0x8, 1, 0x0, 31, 16, .rw, 0, 0xFFFFFFFF, 1⟩,
    ⟨0x200, 128, 0x8, 1, 0x0, 11, 0, .rw, 0, 0xFFFFFFFF, 1⟩,
    ⟨0x204, 128, 0x8, 1, 0x0, 31, 31, .rw, 0, 0xFFFFFFFF, 1⟩,
    ⟨0x204, 128, 0x8, 1, 0x0, 17, 0, .rw, 1, 0x20000, 1⟩,
    ⟨0x600, 128, 0x4, 1, 0x0, 31, 31, .ro, 0, 0xFFFFFFFF, 1⟩,
    ⟨0x600, 128, 0x4, 1, 0x0, 17, 0, .ro, 0, 0xFFFFFFFF, 1⟩,
    ⟨0x800, 16, 0x20, 1, 0x0, 31, 0, .ro, 0, 0xFFFFFFFF, 1⟩,
    ⟨0x804, 16, 0x20, 1, 0x0, 31, 0, .ro, 0, 0xFFFFFFFF, 1⟩,
    ⟨0x808, 16, 0x20, 1, 0x0, 31, 0, .ro, 0, 0xFFFFFFFF, 1⟩,
    ⟨0x80C, 16, 0x20, 1, 0x0, 31, 0, .ro, 0, 0xFFFFFFFF, 1⟩,
    ⟨0x810, 16, 0x20, 1, 0x0, 31, 0, .ro, 0, 0xFFFFFFFF, 1⟩,
    ⟨0x814, 16, 0x20, 1, 0x0, 31, 0, .ro, 0, 0xFFFFFFFF, 1⟩,
    ⟨0x818, 16, 0x20, 1, 0x0, 31, 0, .ro, 0, 0xFFFFFFFF, 1⟩,
    ⟨0x81C, 16, 0x20, 1, 0x0, 31, 0, .ro, 0, 0xFFFFFFFF, 1⟩ ]

/-- Access rows of page SCH (part 1). -/
def accSch_0 : List AccRow :=
  [ ⟨0x040, 3, 0x4, 1, 0x0, 16, 16, .rwe, 0, 0xFFFFFFFF, 1⟩,
    ⟨0x040, 3, 0x4, 1, 0x0, 15, 8, .rwe, 1, 0x80, 1⟩,
    ⟨0x050, 3, 0x10, 1, 0x0, 31, 0, .ro, 0, 0xFFFFFFFF, 1⟩,
    ⟨0x054, 3, 0x10, 1, 0x0, 31, 0, .ro, 0, 0xFFFFFFFF, 1⟩,
    ⟨0x058, 3, 0x10, 1, 0x0, 31, 0, .ro, 0, 0xFFFFFFFF, 1⟩,
    ⟨0x05C, 3, 0x10, 1, 0x0, 31, 0, .ro, 0, 0xFFFFFFFF, 1⟩,
    ⟨0x0C0, 1, 0x0, 1, 0x0, 7, 0, .rw, 0, 0xFFFFFFFF, 1⟩,
    ⟨0x0C4, 1, 0x0, 1, 0x0, 2, 2, .wo, 0, 0xFFFFFFFF, 1⟩,
    ⟨0x0C4, 1, 0x0, 1, 0x0, 1, 1, .wo, 0, 0xFFFFFFFF, 1⟩,
    ⟨0x0C4, 1, 0x0, 1, 0x0, 0, 0, .wo, 0, 0xFFFFFFFF, 1⟩,
    ⟨0x0C8, 1, 0x0, 1, 0x0, 15, 8, .ro, 0, 0xFFFFFFFF, 1⟩,
    ⟨0x0C8, 1, 0x0, 1, 0x0, 7, 0, .ro, 0, 0xFFFFFFFF, 1⟩,
    ⟨0x0D0, 8, 0x4, 1, 0x0, 31, 0, .rw, 0, 0xFFFFFFFF, 1⟩,
    ⟨0x100, 8, 0x4, 1, 0x0, 31, 0, .w1c, 0, 0xFFFFFFFF, 1⟩,
    ⟨0x0F0, 1, 0x0, 1, 0x0, 10, 8, .rw, 0, 0x6, 1⟩,
    ⟨0x0F0, 1, 0x0, 1, 0x0, 5, 0, .rw, 0, 0xFFFFFFFF, 1⟩,
    ⟨0x0F4, 1, 0x0, 1, 0x0, 31, 0, .ro, 0, 0xFFFFFFFF, 1⟩,
    ⟨0x200, 7, 0x20, 1, 0x0, 31, 31, .rw, 0, 0xFFFFFFFF, 1⟩,
    ⟨0x200, 7, 0x20, 1, 0x0, 30, 30, .wo, 0, 0xFFFFFFFF, 1⟩,
    ⟨0x200, 7, 0x20, 1, 0x0, 29, 29, .ro, 0, 0xFFFFFFFF, 1⟩,
    ⟨0x200, 7, 0x20, 1, 0x0, 6, 0, .rw, 1, 0x40, 1⟩,
    ⟨0x204, 7, 0x20, 1, 0x0, 29, 0, .rw, 0, 0x3B9ACA00, 32⟩,
    ⟨0x208, 7, 0x20, 1, 0x0, 31, 0, .rw, 0, 0xFFFFFFFF, 1⟩,
    ⟨0x20C, 7, 0x20, 1, 0x0, 29, 0, .rw, 0, 0x3B9AC9FF, 32⟩,
    ⟨0x210, 7, 0x20, 1, 0x0, 19, 0, .rw, 0, 0xF4240, 32⟩,
    ⟨0x214, 7, 0x20, 1, 0x0, 31, 24, .ro, 0, 0xFFFFFFFF, 1⟩,
    ⟨0x214, 7, 0x20, 1, 0x0, 21, 16, .ro, 0, 0xFFFFFFFF, 1⟩,
    ⟨0x214, 7, 0x20, 1, 0x0, 8, 8, .ro, 0, 0xFFFFFFFF, 1⟩,
    ⟨0x214, 7, 0x20, 1, 0x0, 6, 0, .ro, 0, 0xFFFFFFFF, 1⟩,
    ⟨0x218, 7, 0x20, 1, 0x0, 29, 0, .ro, 0, 0xFFFFFFFF, 1⟩,
    ⟨0x21C, 7, 0x20, 1, 0x0, 31, 0, .ro, 0, 0xFFFFFFFF, 1⟩,
    ⟨0x400, 7, 0x100, 64, 0x4, 31, 24, .rw, 0, 0xFFFFFFFF, 1⟩,
    ⟨0x400, 7, 0x100, 64, 0x4, 23, 0, .rw, 1, 0xFFFFFF, 1⟩ ]

/-- Access rows of page TUN (part 1). -/
def accTun_0 : List AccRow :=
  [ ⟨0x040, 1, 0x0, 1, 0x0, 7, 0, .rw, 0, 0xFFFFFFFF, 1⟩,
    ⟨0x044, 1, 0x0, 1, 0x0, 3, 3, .wo, 0, 0xFFFFFFFF, 1⟩,
    ⟨0x044, 1, 0x0, 1, 0x0, 2, 2, .wo, 0, 0xFFFFFFFF, 1⟩,
    ⟨0x044, 1, 0x0, 1, 0x0, 1, 1, .wo, 0, 0xFFFFFFFF, 1⟩,
    ⟨0x044, 1, 0x0, 1, 0x0, 0, 0, .wo, 0, 0xFFFFFFFF, 1⟩,
    ⟨0x048, 1, 0x0, 1, 0x0, 23, 16, .ro, 0, 0xFFFFFFFF, 1⟩,
    ⟨0x048, 1, 0x0, 1, 0x0, 11, 8, .ro, 0, 0xFFFFFFFF, 1⟩,
    ⟨0x048, 1, 0x0, 1, 0x0, 7, 0, .ro, 0, 0xFFFFFFFF, 1⟩,
    ⟨0x04C, 1, 0x0, 1, 0x0, 24, 16, .ro, 0, 0xFFFFFFFF, 1⟩,
    ⟨0x04C, 1, 0x0, 1, 0x0, 8, 0, .ro, 0, 0xFFFFFFFF, 1⟩,
    ⟨0x050, 3, 0x4, 1, 0x0, 31, 0, .ro, 0, 0xFFFFFFFF, 1⟩,
    ⟨0x060, 8, 0x4, 1, 0x0, 31, 0, .w1c, 0, 0xFFFFFFFF, 1⟩,
    ⟨0x080, 8, 0x4, 1, 0x0, 31, 0, .ro, 0, 0xFFFFFFFF, 1⟩,
    ⟨0x100, 32, 0x4, 1, 0x0, 31, 0, .rw, 0, 0xFFFFFFFF, 1⟩ ]

/-- Access rows of page LNK (part 1). -/
def accLnk_0 : List AccRow :=
  [ ⟨0x040, 1, 0x0, 1, 0x0, 23, 16, .rwp, 1, 0xFF, 1⟩,
    ⟨0x040, 1, 0x0, 1, 0x0, 8, 8, .wo, 0, 0xFFFFFFFF, 1⟩,
    ⟨0x040, 1, 0x0, 1, 0x0, 7, 7, .rw, 0, 0xFFFFFFFF, 1⟩,
    ⟨0x040, 1, 0x0, 1, 0x0, 6, 6, .rwp, 0, 0xFFFFFFFF, 1⟩,
    ⟨0x040, 1, 0x0, 1, 0x0, 5, 4, .rwp, 0, 0x2, 1⟩,
    ⟨0x040, 1, 0x0, 1, 0x0, 3, 3, .rwp, 0, 0xFFFFFFFF, 1⟩,
    ⟨0x040, 1, 0x0, 1, 0x0, 2, 1, .rwp, 0, 0x2, 1⟩,
    ⟨0x044, 1, 0x0, 1, 0x0, 27, 24, .ro, 0, 0xFFFFFFFF, 1⟩,
    ⟨0x044, 1, 0x0, 1, 0x0, 23, 20, .ro, 0, 0xFFFFFFFF, 1⟩,
    ⟨0x044, 1, 0x0, 1, 0x0, 19, 13, .ro, 0, 0xFFFFFFFF, 1⟩,
    ⟨0x044, 1, 0x0, 1, 0x0, 12, 11, .ro, 0, 0xFFFFFFFF, 1⟩,
    ⟨0x044, 1, 0x0, 1, 0x0, 10, 10, .ro, 0, 0xFFFFFFFF, 1⟩,
    ⟨0x044, 1, 0x0, 1, 0x0, 9, 9, .ro, 0, 0xFFFFFFFF, 1⟩,
    ⟨0x044, 1, 0x0, 1, 0x0, 8, 8, .ro, 0, 0xFFFFFFFF, 1⟩,
    ⟨0x044, 1, 0x0, 1, 0x0, 7, 7, .ro, 0, 0xFFFFFFFF, 1⟩,
    ⟨0x044, 1, 0x0, 1, 0x0, 6, 6, .ro, 0, 0xFFFFFFFF, 1⟩,
    ⟨0x044, 1, 0x0, 1, 0x0, 5, 4, .ro, 0, 0xFFFFFFFF, 1⟩,
    ⟨0x044, 1, 0x0, 1, 0x0, 3, 0, .ro, 0, 0xFFFFFFFF, 1⟩,
    ⟨0x048, 1, 0x0, 1, 0x0, 17, 16, .ro, 0, 0xFFFFFFFF, 1⟩,
    ⟨0x048, 1, 0x0, 1, 0x0, 15, 14, .ro, 0, 0xFFFFFFFF, 1⟩,
    ⟨0x048, 1, 0x0, 1, 0x0, 13, 12, .ro, 0, 0xFFFFFFFF, 1⟩,
    ⟨0x048, 1, 0x0, 1, 0x0, 11, 8, .ro, 0, 0xFFFFFFFF, 1⟩,
    ⟨0x048, 1, 0x0, 1, 0x0, 7, 0, .ro, 0, 0xFFFFFFFF, 1⟩,
    ⟨0x04C, 1, 0x0, 1, 0x0, 23, 16, .ro, 0, 0xFFFFFFFF, 1⟩,
    ⟨0x04C, 1, 0x0, 1, 0x0, 15, 8, .ro, 0, 0xFFFFFFFF, 1⟩,
    ⟨0x04C, 1, 0x0, 1, 0x0, 3, 0, .rwp, 0, 0xFFFFFFFF, 1⟩,
    ⟨0x050, 1, 0x0, 1, 0x0, 31, 0, .ro, 0, 0xFFFFFFFF, 1⟩,
    ⟨0x054, 1, 0x0, 1, 0x0, 31, 0, .ro, 0, 0xFFFFFFFF, 1⟩,
    ⟨0x058, 1, 0x0, 1, 0x0, 31, 16, .ro, 0, 0xFFFFFFFF, 1⟩,
    ⟨0x058, 1, 0x0, 1, 0x0, 12, 11, .ro, 0, 0xFFFFFFFF, 1⟩,
    ⟨0x058, 1, 0x0, 1, 0x0, 10, 8, .ro, 0, 0xFFFFFFFF, 1⟩,
    ⟨0x058, 1, 0x0, 1, 0x0, 7, 4, .ro, 0, 0xFFFFFFFF, 1⟩,
    ⟨0x058, 1, 0x0, 1, 0x0, 2, 2, .ro, 0, 0xFFFFFFFF, 1⟩,
    ⟨0x058, 1, 0x0, 1, 0x0, 1, 0, .ro, 0, 0xFFFFFFFF, 1⟩,
    ⟨0x05C, 1, 0x0, 1, 0x0, 3, 2, .ro, 0, 0xFFFFFFFF, 1⟩,
    ⟨0x05C, 1, 0x0, 1, 0x0, 1, 1, .ro, 0, 0xFFFFFFFF, 1⟩,
    ⟨0x05C, 1, 0x0, 1, 0x0, 0, 0, .wo, 0, 0xFFFFFFFF, 1⟩,
    ⟨0x060, 1, 0x0, 1, 0x0, 9, 0, .rwp, 16, 0x3FF, 1⟩,
    ⟨0x080, 1, 0x0, 1, 0x0, 31, 0, .ro, 0, 0xFFFFFFFF, 1⟩,
    ⟨0x084, 1, 0x0, 1, 0x0, 31, 0, .ro, 0, 0xFFFFFFFF, 1⟩ ]

/-- Access rows of page LNK (part 2). -/
def accLnk_1 : List AccRow :=
  [ ⟨0x088, 1, 0x0, 1, 0x0, 31, 0, .ro, 0, 0xFFFFFFFF, 1⟩,
    ⟨0x08C, 1, 0x0, 1, 0x0, 31, 16, .ro, 0, 0xFFFFFFFF, 1⟩,
    ⟨0x08C, 1, 0x0, 1, 0x0, 15, 0, .ro, 0, 0xFFFFFFFF, 1⟩,
    ⟨0x090, 1, 0x0, 1, 0x0, 31, 16, .ro, 0, 0xFFFFFFFF, 1⟩,
    ⟨0x090, 1, 0x0, 1, 0x0, 15, 0, .ro, 0, 0xFFFFFFFF, 1⟩,
    ⟨0x094, 1, 0x0, 1, 0x0, 31, 16, .ro, 0, 0xFFFFFFFF, 1⟩,
    ⟨0x094, 1, 0x0, 1, 0x0, 15, 0, .ro, 0, 0xFFFFFFFF, 1⟩,
    ⟨0x098, 1, 0x0, 1, 0x0, 31, 0, .ro, 0, 0xFFFFFFFF, 1⟩ ]

/-- Access rows of page CYC (part 1). -/
def accCyc_0 : List AccRow :=
  [ ⟨0x040, 1, 0x0, 1, 0x0, 31, 16, .ro, 0, 0xFFFFFFFF, 1⟩,
    ⟨0x040, 1, 0x0, 1, 0x0, 11, 11, .ro, 0, 0xFFFFFFFF, 1⟩,
    ⟨0x040, 1, 0x0, 1, 0x0, 10, 10, .ro, 0, 0xFFFFFFFF, 1⟩,
    ⟨0x040, 1, 0x0, 1, 0x0, 9, 8, .ro, 0, 0xFFFFFFFF, 1⟩,
    ⟨0x040, 1, 0x0, 1, 0x0, 7, 0, .ro, 0, 0xFFFFFFFF, 1⟩,
    ⟨0x044, 1, 0x0, 1, 0x0, 31, 0, .ro, 0, 0xFFFFFFFF, 1⟩,
    ⟨0x048, 1, 0x0, 1, 0x0, 15, 8, .rw, 4, 0xFF, 1⟩,
    ⟨0x048, 1, 0x0, 1, 0x0, 2, 2, .wo, 0, 0xFFFFFFFF, 1⟩,
    ⟨0x048, 1, 0x0, 1, 0x0, 1, 1, .wo, 0, 0xFFFFFFFF, 1⟩,
    ⟨0x048, 1, 0x0, 1, 0x0, 0, 0, .wo, 0, 0xFFFFFFFF, 1⟩,
    ⟨0x04C, 1, 0x0, 1, 0x0, 31, 24, .ro, 0, 0xFFFFFFFF, 1⟩,
    ⟨0x04C, 1, 0x0, 1, 0x0, 23, 16, .ro, 0, 0xFFFFFFFF, 1⟩,
    ⟨0x04C, 1, 0x0, 1, 0x0, 11, 8, .ro, 0, 0xFFFFFFFF, 1⟩,
    ⟨0x04C, 1, 0x0, 1, 0x0, 7, 7, .ro, 0, 0xFFFFFFFF, 1⟩,
    ⟨0x04C, 1, 0x0, 1, 0x0, 6, 0, .ro, 0, 0xFFFFFFFF, 1⟩,
    ⟨0x050, 1, 0x0, 1, 0x0, 31, 0, .ro, 0, 0xFFFFFFFF, 1⟩,
    ⟨0x054, 1, 0x0, 1, 0x0, 31, 0, .ro, 0, 0xFFFFFFFF, 1⟩,
    ⟨0x058, 1, 0x0, 1, 0x0, 31, 0, .ro, 0, 0xFFFFFFFF, 1⟩,
    ⟨0x05C, 1, 0x0, 1, 0x0, 31, 0, .ro, 0, 0xFFFFFFFF, 1⟩,
    ⟨0x060, 1, 0x0, 1, 0x0, 31, 0, .ro, 0, 0xFFFFFFFF, 1⟩,
    ⟨0x064, 1, 0x0, 1, 0x0, 31, 31, .ro, 0, 0xFFFFFFFF, 1⟩,
    ⟨0x064, 1, 0x0, 1, 0x0, 30, 30, .ro, 0, 0xFFFFFFFF, 1⟩,
    ⟨0x064, 1, 0x0, 1, 0x0, 23, 16, .ro, 0, 0xFFFFFFFF, 1⟩,
    ⟨0x064, 1, 0x0, 1, 0x0, 15, 0, .ro, 0, 0xFFFFFFFF, 1⟩,
    ⟨0x068, 1, 0x0, 1, 0x0, 31, 16, .ro, 0, 0xFFFFFFFF, 1⟩,
    ⟨0x068, 1, 0x0, 1, 0x0, 15, 0, .ro, 0, 0xFFFFFFFF, 1⟩,
    ⟨0x06C, 1, 0x0, 1, 0x0, 31, 16, .ro, 0, 0xFFFFFFFF, 1⟩,
    ⟨0x06C, 1, 0x0, 1, 0x0, 15, 0, .ro, 0, 0xFFFFFFFF, 1⟩,
    ⟨0x070, 1, 0x0, 1, 0x0, 31, 0, .ro, 0, 0xFFFFFFFF, 1⟩,
    ⟨0x074, 1, 0x0, 1, 0x0, 31, 16, .ro, 0, 0xFFFFFFFF, 1⟩,
    ⟨0x074, 1, 0x0, 1, 0x0, 15, 0, .ro, 0, 0xFFFFFFFF, 1⟩,
    ⟨0x078, 1, 0x0, 1, 0x0, 31, 0, .ro, 0, 0xFFFFFFFF, 1⟩,
    ⟨0x100, 16, 0x8, 1, 0x0, 27, 16, .rw, 0, 0xF00, 1⟩,
    ⟨0x100, 16, 0x8, 1, 0x0, 11, 0, .rw, 0, 0xEFF, 1⟩,
    ⟨0x104, 16, 0x8, 1, 0x0, 31, 31, .rw, 0, 0xFFFFFFFF, 1⟩,
    ⟨0x104, 16, 0x8, 1, 0x0, 8, 8, .rw, 0, 0xFFFFFFFF, 1⟩,
    ⟨0x104, 16, 0x8, 1, 0x0, 7, 0, .rw, 0, 0xFFFFFFFF, 1⟩,
    ⟨0x200, 128, 0x4, 1, 0x0, 11, 0, .rw, 0, 0xF00, 1⟩,
    ⟨0x200, 128, 0x4, 1, 0x0, 27, 16, .rw, 0, 0xF00, 1⟩,
    ⟨0x400, 128, 0x4, 1, 0x0, 11, 0, .ro, 0, 0xFFFFFFFF, 1⟩ ]

/-- Access rows of page CYC (part 2). -/
def accCyc_1 : List AccRow :=
  [ ⟨0x400, 128, 0x4, 1, 0x0, 27, 16, .ro, 0, 0xFFFFFFFF, 1⟩,
    ⟨0x600, 128, 0x4, 1, 0x0, 11, 0, .rw, 0, 0xF00, 1⟩,
    ⟨0x600, 128, 0x4, 1, 0x0, 27, 16, .rw, 0, 0xF00, 1⟩,
    ⟨0x800, 128, 0x4, 1, 0x0, 11, 0, .ro, 0, 0xFFFFFFFF, 1⟩,
    ⟨0x800, 128, 0x4, 1, 0x0, 27, 16, .ro, 0, 0xFFFFFFFF, 1⟩,
    ⟨0x180, 16, 0x8, 1, 0x0, 31, 0, .ro, 0, 0xFFFFFFFF, 1⟩,
    ⟨0x184, 16, 0x8, 1, 0x0, 31, 0, .ro, 0, 0xFFFFFFFF, 1⟩ ]

/-- Access rows of page PCIE (part 1). -/
def accPcie_0 : List AccRow :=
  [ ⟨0x040, 1, 0x0, 1, 0x0, 7, 7, .wo, 0, 0xFFFFFFFF, 1⟩,
    ⟨0x040, 1, 0x0, 1, 0x0, 4, 4, .ro, 0, 0xFFFFFFFF, 1⟩,
    ⟨0x040, 1, 0x0, 1, 0x0, 3, 2, .rwp, 0, 0x2, 1⟩,
    ⟨0x040, 1, 0x0, 1, 0x0, 1, 0, .rwp, 0, 0xFFFFFFFF, 1⟩,
    ⟨0x044, 1, 0x0, 1, 0x0, 23, 18, .ro, 0, 0xFFFFFFFF, 1⟩,
    ⟨0x044, 1, 0x0, 1, 0x0, 17, 17, .ro, 0, 0xFFFFFFFF, 1⟩,
    ⟨0x044, 1, 0x0, 1, 0x0, 13, 12, .ro, 0, 0xFFFFFFFF, 1⟩,
    ⟨0x044, 1, 0x0, 1, 0x0, 11, 10, .ro, 0, 0xFFFFFFFF, 1⟩,
    ⟨0x048, 1, 0x0, 1, 0x0, 30, 17, .ro, 0, 0xFFFFFFFF, 1⟩,
    ⟨0x04C, 1, 0x0, 1, 0x0, 4, 0, .rwp, 20, 0x1C, 1⟩,
    ⟨0x050, 1, 0x0, 1, 0x0, 31, 16, .ro, 0, 0xFFFFFFFF, 1⟩,
    ⟨0x050, 1, 0x0, 1, 0x0, 15, 0, .ro, 0, 0xFFFFFFFF, 1⟩,
    ⟨0x054, 1, 0x0, 1, 0x0, 31, 0, .ro, 0, 0xFFFFFFFF, 1⟩,
    ⟨0x058, 1, 0x0, 1, 0x0, 31, 0, .ro, 0, 0xFFFFFFFF, 1⟩,
    ⟨0x05C, 1, 0x0, 1, 0x0, 31, 0, .ro, 0, 0xFFFFFFFF, 1⟩,
    ⟨0x084, 14, 0x4, 1, 0x0, 31, 31, .rw, 0, 0xFFFFFFFF, 1⟩,
    ⟨0x084, 14, 0x4, 1, 0x0, 15, 8, .rw, 0, 0xFFFFFFFF, 1⟩,
    ⟨0x084, 14, 0x4, 1, 0x0, 7, 0, .rw, 0, 0xFFFFFFFF, 1⟩ ]

/-- Access rows of page ATU (part 1). -/
def accAtu_0 : List AccRow :=
  [ ⟨0x040, 1, 0x0, 1, 0x0, 7, 0, .rw, 1, 0x64, 1⟩,
    ⟨0x044, 1, 0x0, 1, 0x0, 31, 12, .rw, 0, 0xFFFFFFFF, 1⟩,
    ⟨0x048, 1, 0x0, 1, 0x0, 15, 0, .rw, 0, 0xFFFFFFFF, 1⟩,
    ⟨0x04C, 1, 0x0, 1, 0x0, 31, 31, .rw, 0, 0xFFFFFFFF, 1⟩,
    ⟨0x04C, 1, 0x0, 1, 0x0, 3, 0, .rw, 4, 0xC, 1⟩,
    ⟨0x050, 1, 0x0, 1, 0x0, 11, 0, .rw, 0, 0xFFFFFFFF, 1⟩,
    ⟨0x054, 1, 0x0, 1, 0x0, 11, 0, .ro, 0, 0xFFFFFFFF, 1⟩,
    ⟨0x058, 1, 0x0, 1, 0x0, 31, 16, .ro, 0, 0xFFFFFFFF, 1⟩,
    ⟨0x058, 1, 0x0, 1, 0x0, 4, 0, .ro, 0, 0xFFFFFFFF, 1⟩,
    ⟨0x060, 8, 0x4, 1, 0x0, 31, 0, .ro, 0, 0xFFFFFFFF, 1⟩,
    ⟨0x080, 1, 0x0, 1, 0x0, 9, 8, .wo, 0, 0x2, 1⟩,
    ⟨0x080, 1, 0x0, 1, 0x0, 4, 0, .wo, 0, 0xFFFFFFFF, 1⟩,
    ⟨0x084, 1, 0x0, 1, 0x0, 31, 31, .wo, 0, 0xFFFFFFFF, 1⟩,
    ⟨0x084, 1, 0x0, 1, 0x0, 12, 8, .rw, 0, 0xFFFFFFFF, 1⟩,
    ⟨0x084, 1, 0x0, 1, 0x0, 1, 0, .rw, 0, 0x2, 1⟩,
    ⟨0x088, 1, 0x0, 1, 0x0, 31, 12, .rw, 0, 0xFFFFFFFF, 1⟩,
    ⟨0x08C, 1, 0x0, 1, 0x0, 15, 0, .rw, 0, 0xFFFFFFFF, 1⟩,
    ⟨0x090, 1, 0x0, 1, 0x0, 31, 0, .rw, 1, 0x10000000, 1⟩,
    ⟨0x094, 1, 0x0, 1, 0x0, 31, 16, .ro, 0, 0xFFFFFFFF, 1⟩,
    ⟨0x094, 1, 0x0, 1, 0x0, 15, 0, .ro, 0, 0xFFFFFFFF, 1⟩,
    ⟨0x098, 1, 0x0, 1, 0x0, 31, 31, .ro, 0, 0xFFFFFFFF, 1⟩,
    ⟨0x098, 1, 0x0, 1, 0x0, 15, 0, .ro, 0, 0xFFFFFFFF, 1⟩,
    ⟨0x0A0, 1, 0x0, 1, 0x0, 31, 0, .ro, 0, 0xFFFFFFFF, 1⟩,
    ⟨0x0A4, 1, 0x0, 1, 0x0, 31, 0, .ro, 0, 0xFFFFFFFF, 1⟩,
    ⟨0x0A8, 1, 0x0, 1, 0x0, 31, 0, .ro, 0, 0xFFFFFFFF, 1⟩,
    ⟨0x0AC, 1, 0x0, 1, 0x0, 31, 0, .ro, 0, 0xFFFFFFFF, 1⟩,
    ⟨0x100, 32, 0x8, 1, 0x0, 31, 18, .rw, 0, 0xFFFFFFFF, 1⟩,
    ⟨0x100, 32, 0x8, 1, 0x0, 1, 0, .rw, 0, 0x2, 1⟩,
    ⟨0x104, 32, 0x8, 1, 0x0, 15, 0, .rw, 0, 0xFFFFFFFF, 1⟩ ]

/-- Access rows of page DMA (part 1). -/
def accDma_0 : List AccRow :=
  [ ⟨0x040, 1, 0x0, 1, 0x0, 31, 0, .w1c, 0, 0xFFFFFFFF, 1⟩,
    ⟨0x044, 1, 0x0, 1, 0x0, 31, 0, .ro, 0, 0xFFFFFFFF, 1⟩,
    ⟨0x048, 1, 0x0, 1, 0x0, 0, 0, .rw, 0, 0xFFFFFFFF, 1⟩,
    ⟨0x100, 32, 0x40, 1, 0x0, 12, 8, .rwp, 0, 0xFFFFFFFF, 1⟩,
    ⟨0x100, 32, 0x40, 1, 0x0, 6, 4, .rwp, 0, 0xFFFFFFFF, 1⟩,
    ⟨0x100, 32, 0x40, 1, 0x0, 2, 2, .rwp, 0, 0xFFFFFFFF, 1⟩,
    ⟨0x100, 32, 0x40, 1, 0x0, 0, 0, .rw, 0, 0xFFFFFFFF, 1⟩,
    ⟨0x104, 32, 0x40, 1, 0x0, 15, 8, .ro, 0, 0xFFFFFFFF, 1⟩,
    ⟨0x104, 32, 0x40, 1, 0x0, 7, 7, .ro, 0, 0xFFFFFFFF, 1⟩,
    ⟨0x104, 32, 0x40, 1, 0x0, 6, 6, .ro, 0, 0xFFFFFFFF, 1⟩,
    ⟨0x104, 32, 0x40, 1, 0x0, 5, 5, .ro, 0, 0xFFFFFFFF, 1⟩,
    ⟨0x104, 32, 0x40, 1, 0x0, 3, 3, .ro, 0, 0xFFFFFFFF, 1⟩,
    ⟨0x104, 32, 0x40, 1, 0x0, 2, 0, .ro, 0, 0xFFFFFFFF, 1⟩,
    ⟨0x108, 32, 0x40, 1, 0x0, 31, 5, .rwp, 0, 0xFFFFFFFF, 1⟩,
    ⟨0x10C, 32, 0x40, 1, 0x0, 15, 0, .rwp, 0, 0xFFFFFFFF, 1⟩,
    ⟨0x110, 32, 0x40, 1, 0x0, 4, 0, .rwp, 4, 0x10, 1⟩,
    ⟨0x114, 32, 0x40, 1, 0x0, 15, 0, .ro, 0, 0xFFFFFFFF, 1⟩,
    ⟨0x118, 32, 0x40, 1, 0x0, 15, 0, .rw, 0, 0xFFFFFFFF, 1⟩,
    ⟨0x11C, 32, 0x40, 1, 0x0, 16, 0, .ro, 0, 0xFFFFFFFF, 1⟩,
    ⟨0x120, 32, 0x40, 1, 0x0, 31, 0, .ro, 0, 0xFFFFFFFF, 1⟩,
    ⟨0x124, 32, 0x40, 1, 0x0, 31, 0, .ro, 0, 0xFFFFFFFF, 1⟩,
    ⟨0x128, 32, 0x40, 1, 0x0, 31, 0, .ro, 0, 0xFFFFFFFF, 1⟩ ]

/-- Access rows of page LPB (part 1). -/
def accLpb_0 : List AccRow :=
  [ ⟨0x040, 1, 0x0, 1, 0x0, 25, 16, .rw, 1, 0x3E8, 1⟩,
    ⟨0x040, 1, 0x0, 1, 0x0, 13, 0, .rw, 1, 0x2710, 1⟩,
    ⟨0x044, 1, 0x0, 1, 0x0, 31, 31, .ro, 0, 0xFFFFFFFF, 1⟩,
    ⟨0x044, 1, 0x0, 1, 0x0, 15, 0, .ro, 0, 0xFFFFFFFF, 1⟩,
    ⟨0x048, 1, 0x0, 1, 0x0, 31, 16, .ro, 0, 0xFFFFFFFF, 1⟩,
    ⟨0x048, 1, 0x0, 1, 0x0, 4, 0, .ro, 0, 0xFFFFFFFF, 1⟩,
    ⟨0x04C, 1, 0x0, 1, 0x0, 31, 0, .ro, 0, 0xFFFFFFFF, 1⟩,
    ⟨0x050, 1, 0x0, 1, 0x0, 31, 16, .ro, 0, 0xFFFFFFFF, 1⟩,
    ⟨0x050, 1, 0x0, 1, 0x0, 15, 8, .ro, 0, 0xFFFFFFFF, 1⟩,
    ⟨0x050, 1, 0x0, 1, 0x0, 7, 4, .ro, 0, 0xFFFFFFFF, 1⟩,
    ⟨0x050, 1, 0x0, 1, 0x0, 3, 2, .ro, 0, 0xFFFFFFFF, 1⟩,
    ⟨0x054, 1, 0x0, 1, 0x0, 31, 0, .ro, 0, 0xFFFFFFFF, 1⟩,
    ⟨0x058, 1, 0x0, 1, 0x0, 31, 0, .ro, 0, 0xFFFFFFFF, 1⟩,
    ⟨0x05C, 1, 0x0, 1, 0x0, 3, 0, .ro, 0, 0xFFFFFFFF, 1⟩,
    ⟨0x060, 1, 0x0, 1, 0x0, 31, 0, .ro, 0, 0xFFFFFFFF, 1⟩,
    ⟨0x064, 1, 0x0, 1, 0x0, 31, 0, .ro, 0, 0xFFFFFFFF, 1⟩,
    ⟨0x068, 1, 0x0, 1, 0x0, 2, 0, .ro, 0, 0xFFFFFFFF, 1⟩,
    ⟨0x080, 4, 0x4, 1, 0x0, 31, 31, .rwp, 0, 0xFFFFFFFF, 1⟩,
    ⟨0x080, 4, 0x4, 1, 0x0, 29, 24, .rwp, 1, 0x3F, 1⟩,
    ⟨0x080, 4, 0x4, 1, 0x0, 23, 16, .rwp, 1, 0xFF, 1⟩,
    ⟨0x080, 4, 0x4, 1, 0x0, 13, 8, .rwp, 0, 0xFFFFFFFF, 1⟩,
    ⟨0x080, 4, 0x4, 1, 0x0, 5, 0, .rwp, 1, 0x3F, 1⟩,
    ⟨0x100, 8, 0x10, 1, 0x0, 31, 12, .rw, 0, 0xFFFFFFFF, 1⟩,
    ⟨0x104, 8, 0x10, 1, 0x0, 31, 12, .rw, 0, 0xFFFFFFFF, 1⟩,
    ⟨0x108, 8, 0x10, 1, 0x0, 31, 31, .rw, 0, 0xFFFFFFFF, 1⟩,
    ⟨0x108, 8, 0x10, 1, 0x0, 30, 30, .rw, 0, 0xFFFFFFFF, 1⟩,
    ⟨0x108, 8, 0x10, 1, 0x0, 29, 29, .rw, 0, 0xFFFFFFFF, 1⟩,
    ⟨0x108, 8, 0x10, 1, 0x0, 28, 28, .rw, 0, 0xFFFFFFFF, 1⟩,
    ⟨0x108, 8, 0x10, 1, 0x0, 27, 27, .rw, 0, 0xFFFFFFFF, 1⟩,
    ⟨0x108, 8, 0x10, 1, 0x0, 20, 16, .rw, 12, 0x1C, 1⟩,
    ⟨0x108, 8, 0x10, 1, 0x0, 15, 8, .rw, 0, 0xFFFFFFFF, 1⟩,
    ⟨0x108, 8, 0x10, 1, 0x0, 7, 6, .rw, 0, 0xFFFFFFFF, 1⟩,
    ⟨0x108, 8, 0x10, 1, 0x0, 3, 0, .rw, 0, 0xE, 1⟩,
    ⟨0x10C, 8, 0x10, 1, 0x0, 31, 0, .ro, 0, 0xFFFFFFFF, 1⟩ ]

/-- Access rows of page LSIO (part 1). -/
def accLsio_0 : List AccRow :=
  [ ⟨0x040, 4, 0x4, 1, 0x0, 31, 31, .rwp, 0, 0xFFFFFFFF, 1⟩,
    ⟨0x040, 4, 0x4, 1, 0x0, 30, 8, .rwp, 5, 0xD904, 1⟩,
    ⟨0x040, 4, 0x4, 1, 0x0, 7, 6, .rwp, 0, 0x2, 1⟩,
    ⟨0x040, 4, 0x4, 1, 0x0, 5, 5, .rwp, 0, 0xFFFFFFFF, 1⟩,
    ⟨0x040, 4, 0x4, 1, 0x0, 4, 4, .rwp, 0, 0xFFFFFFFF, 1⟩,
    ⟨0x040, 4, 0x4, 1, 0x0, 3, 3, .rwp, 0, 0xFFFFFFFF, 1⟩,
    ⟨0x050, 4, 0x4, 1, 0x0, 31, 31, .rwp, 0, 0xFFFFFFFF, 1⟩,
    ⟨0x050, 4, 0x4, 1, 0x0, 17, 16, .rwp, 0, 0x2, 1⟩,
    ⟨0x050, 4, 0x4, 1, 0x0, 15, 0, .rwp, 1, 0xFFFF, 1⟩,
    ⟨0x060, 2, 0x4, 1, 0x0, 31, 31, .rwp, 0, 0xFFFFFFFF, 1⟩,
    ⟨0x060, 2, 0x4, 1, 0x0, 8, 8, .rwp, 0, 0xFFFFFFFF, 1⟩,
    ⟨0x060, 2, 0x4, 1, 0x0, 7, 0, .rwp, 10, 0xFF, 1⟩,
    ⟨0x070, 1, 0x0, 1, 0x0, 31, 0, .rw, 0, 0xFFFFFFFF, 1⟩,
    ⟨0x074, 1, 0x0, 1, 0x0, 31, 0, .rw, 0, 0xFFFFFFFF, 1⟩,
    ⟨0x078, 1, 0x0, 1, 0x0, 31, 0, .rw, 0, 0xFFFFFFFF, 1⟩,
    ⟨0x07C, 1, 0x0, 1, 0x0, 31, 0, .ro, 0, 0xFFFFFFFF, 1⟩,
    ⟨0x080, 1, 0x0, 1, 0x0, 31, 0, .w1c, 0, 0xFFFFFFFF, 1⟩,
    ⟨0x084, 1, 0x0, 1, 0x0, 31, 0, .rw, 0, 0xFFFFFFFF, 1⟩ ]

/-- Access rows of page DPI (part 1). -/
def accDpi_0 : List AccRow :=
  [ ⟨0x040, 1, 0x0, 1, 0x0, 4, 4, .rwp, 0, 0xFFFFFFFF, 1⟩,
    ⟨0x040, 1, 0x0, 1, 0x0, 3, 2, .rwp, 0, 0x2, 1⟩,
    ⟨0x040, 1, 0x0, 1, 0x0, 1, 0, .rwp, 0, 0xFFFFFFFF, 1⟩,
    ⟨0x044, 1, 0x0, 1, 0x0, 8, 8, .ro, 0, 0xFFFFFFFF, 1⟩,
    ⟨0x044, 1, 0x0, 1, 0x0, 7, 7, .ro, 0, 0xFFFFFFFF, 1⟩,
    ⟨0x044, 1, 0x0, 1, 0x0, 6, 6, .ro, 0, 0xFFFFFFFF, 1⟩,
    ⟨0x044, 1, 0x0, 1, 0x0, 5, 5, .ro, 0, 0xFFFFFFFF, 1⟩,
    ⟨0x044, 1, 0x0, 1, 0x0, 4, 4, .ro, 0, 0xFFFFFFFF, 1⟩,
    ⟨0x044, 1, 0x0, 1, 0x0, 3, 2, .ro, 0, 0xFFFFFFFF, 1⟩,
    ⟨0x044, 1, 0x0, 1, 0x0, 1, 0, .ro, 0, 0xFFFFFFFF, 1⟩,
    ⟨0x048, 1, 0x0, 1, 0x0, 31, 16, .ro, 0, 0xFFFFFFFF, 1⟩,
    ⟨0x048, 1, 0x0, 1, 0x0, 15, 0, .ro, 0, 0xFFFFFFFF, 1⟩,
    ⟨0x04C, 1, 0x0, 1, 0x0, 31, 16, .ro, 0, 0xFFFFFFFF, 1⟩,
    ⟨0x04C, 1, 0x0, 1, 0x0, 15, 0, .ro, 0, 0xFFFFFFFF, 1⟩,
    ⟨0x050, 1, 0x0, 1, 0x0, 31, 0, .ro, 0, 0xFFFFFFFF, 1⟩,
    ⟨0x054, 1, 0x0, 1, 0x0, 13, 0, .rw, 500, 0x2710, 1⟩,
    ⟨0x060, 1, 0x0, 1, 0x0, 31, 0, .ro, 0, 0xFFFFFFFF, 1⟩,
    ⟨0x064, 1, 0x0, 1, 0x0, 31, 0, .ro, 0, 0xFFFFFFFF, 1⟩,
    ⟨0x068, 1, 0x0, 1, 0x0, 31, 0, .ro, 0, 0xFFFFFFFF, 1⟩,
    ⟨0x06C, 1, 0x0, 1, 0x0, 31, 0, .ro, 0, 0xFFFFFFFF, 1⟩,
    ⟨0x070, 1, 0x0, 1, 0x0, 31, 0, .ro, 0, 0xFFFFFFFF, 1⟩ ]

/-- Access rows of page DPO (part 1). -/
def accDpo_0 : List AccRow :=
  [ ⟨0x040, 1, 0x0, 1, 0x0, 31, 16, .rwp, 10, 0x3E8, 1⟩,
    ⟨0x040, 1, 0x0, 1, 0x0, 15, 15, .rwp, 0, 0xFFFFFFFF, 1⟩,
    ⟨0x040, 1, 0x0, 1, 0x0, 13, 0, .rw, 10, 0x2710, 1⟩,
    ⟨0x044, 1, 0x0, 1, 0x0, 11, 11, .ro, 0, 0xFFFFFFFF, 1⟩,
    ⟨0x044, 1, 0x0, 1, 0x0, 10, 10, .ro, 0, 0xFFFFFFFF, 1⟩,
    ⟨0x044, 1, 0x0, 1, 0x0, 9, 9, .ro, 0, 0xFFFFFFFF, 1⟩,
    ⟨0x044, 1, 0x0, 1, 0x0, 8, 8, .ro, 0, 0xFFFFFFFF, 1⟩,
    ⟨0x044, 1, 0x0, 1, 0x0, 7, 6, .ro, 0, 0xFFFFFFFF, 1⟩,
    ⟨0x044, 1, 0x0, 1, 0x0, 5, 4, .ro, 0, 0xFFFFFFFF, 1⟩,
    ⟨0x044, 1, 0x0, 1, 0x0, 3, 3, .ro, 0, 0xFFFFFFFF, 1⟩,
    ⟨0x044, 1, 0x0, 1, 0x0, 2, 0, .ro, 0, 0xFFFFFFFF, 1⟩,
    ⟨0x048, 1, 0x0, 1, 0x0, 31, 0, .ro, 0, 0xFFFFFFFF, 1⟩,
    ⟨0x04C, 1, 0x0, 1, 0x0, 1, 1, .wo, 0, 0xFFFFFFFF, 1⟩,
    ⟨0x04C, 1, 0x0, 1, 0x0, 0, 0, .rw, 0, 0xFFFFFFFF, 1⟩,
    ⟨0x050, 1, 0x0, 1, 0x0, 23, 0, .rws, 0, 0xFFFFFFFF, 1⟩,
    ⟨0x054, 1, 0x0, 1, 0x0, 23, 0, .rws, 0, 0xFFFFFFFF, 1⟩,
    ⟨0x058, 1, 0x0, 1, 0x0, 15, 8, .rw, 1, 0x64, 1⟩,
    ⟨0x058, 1, 0x0, 1, 0x0, 2, 2, .wo, 0, 0xFFFFFFFF, 1⟩,
    ⟨0x058, 1, 0x0, 1, 0x0, 1, 1, .rw, 0, 0xFFFFFFFF, 1⟩,
    ⟨0x058, 1, 0x0, 1, 0x0, 0, 0, .rw, 0, 0xFFFFFFFF, 1⟩,
    ⟨0x05C, 1, 0x0, 1, 0x0, 1, 0, .ro, 0, 0xFFFFFFFF, 1⟩,
    ⟨0x060, 1, 0x0, 1, 0x0, 31, 0, .ro, 0, 0xFFFFFFFF, 1⟩,
    ⟨0x064, 1, 0x0, 1, 0x0, 31, 0, .ro, 0, 0xFFFFFFFF, 1⟩,
    ⟨0x068, 1, 0x0, 1, 0x0, 31, 0, .ro, 0, 0xFFFFFFFF, 1⟩,
    ⟨0x06C, 1, 0x0, 1, 0x0, 31, 0, .ro, 0, 0xFFFFFFFF, 1⟩,
    ⟨0x070, 1, 0x0, 1, 0x0, 31, 0, .ro, 0, 0xFFFFFFFF, 1⟩,
    ⟨0x074, 1, 0x0, 1, 0x0, 31, 0, .ro, 0, 0xFFFFFFFF, 1⟩,
    ⟨0x078, 1, 0x0, 1, 0x0, 31, 0, .ro, 0, 0xFFFFFFFF, 1⟩,
    ⟨0x100, 40, 0x4, 1, 0x0, 31, 0, .rws, 0, 0xFFFFFFFF, 1⟩ ]

/-- Access rows of page USBD (part 1). -/
def accUsbd_0 : List AccRow :=
  [ ⟨0x040, 1, 0x0, 1, 0x0, 6, 4, .rw, 0, 0x4, 1⟩,
    ⟨0x040, 1, 0x0, 1, 0x0, 3, 3, .rw, 0, 0xFFFFFFFF, 1⟩,
    ⟨0x040, 1, 0x0, 1, 0x0, 2, 2, .rw, 0, 0xFFFFFFFF, 1⟩,
    ⟨0x040, 1, 0x0, 1, 0x0, 1, 1, .rw, 0, 0xFFFFFFFF, 1⟩,
    ⟨0x040, 1, 0x0, 1, 0x0, 0, 0, .rw, 0, 0xFFFFFFFF, 1⟩,
    ⟨0x044, 1, 0x0, 1, 0x0, 18, 12, .ro, 0, 0xFFFFFFFF, 1⟩,
    ⟨0x044, 1, 0x0, 1, 0x0, 11, 10, .ro, 0, 0xFFFFFFFF, 1⟩,
    ⟨0x044, 1, 0x0, 1, 0x0, 9, 9, .ro, 0, 0xFFFFFFFF, 1⟩,
    ⟨0x044, 1, 0x0, 1, 0x0, 8, 8, .ro, 0, 0xFFFFFFFF, 1⟩,
    ⟨0x044, 1, 0x0, 1, 0x0, 7, 4, .ro, 0, 0xFFFFFFFF, 1⟩,
    ⟨0x048, 1, 0x0, 1, 0x0, 31, 16, .ro, 0, 0xFFFFFFFF, 1⟩,
    ⟨0x048, 1, 0x0, 1, 0x0, 15, 0, .ro, 0, 0xFFFFFFFF, 1⟩,
    ⟨0x050, 6, 0x4, 1, 0x0, 9, 8, .rw, 0, 0xFFFFFFFF, 1⟩,
    ⟨0x050, 6, 0x4, 1, 0x0, 7, 4, .rw, 0, 0xFFFFFFFF, 1⟩,
    ⟨0x070, 1, 0x0, 1, 0x0, 31, 0, .ro, 0, 0xFFFFFFFF, 1⟩,
    ⟨0x074, 1, 0x0, 1, 0x0, 31, 0, .ro, 0, 0xFFFFFFFF, 1⟩,
    ⟨0x078, 1, 0x0, 1, 0x0, 31, 0, .ro, 0, 0xFFFFFFFF, 1⟩,
    ⟨0x07C, 1, 0x0, 1, 0x0, 31, 0, .ro, 0, 0xFFFFFFFF, 1⟩,
    ⟨0x080, 1, 0x0, 1, 0x0, 31, 0, .ro, 0, 0xFFFFFFFF, 1⟩,
    ⟨0x084, 1, 0x0, 1, 0x0, 31, 0, .ro, 0, 0xFFFFFFFF, 1⟩ ]

/-- Access rows of page USBH (part 1). -/
def accUsbh_0 : List AccRow :=
  [ ⟨0x040, 1, 0x0, 1, 0x0, 19, 16, .rwp, 1, 0xF, 1⟩,
    ⟨0x040, 1, 0x0, 1, 0x0, 7, 0, .rw, 1, 0xFF, 1⟩,
    ⟨0x044, 1, 0x0, 1, 0x0, 26, 16, .ro, 0, 0xFFFFFFFF, 1⟩,
    ⟨0x044, 1, 0x0, 1, 0x0, 15, 15, .ro, 0, 0xFFFFFFFF, 1⟩,
    ⟨0x044, 1, 0x0, 1, 0x0, 14, 14, .ro, 0, 0xFFFFFFFF, 1⟩,
    ⟨0x048, 1, 0x0, 1, 0x0, 10, 0, .ro, 0, 0xFFFFFFFF, 1⟩,
    ⟨0x04C, 1, 0x0, 1, 0x0, 31, 0, .ro, 0, 0xFFFFFFFF, 1⟩,
    ⟨0x080, 15, 0x4, 1, 0x0, 31, 31, .rw, 0, 0xFFFFFFFF, 1⟩,
    ⟨0x080, 15, 0x4, 1, 0x0, 23, 16, .rw, 0, 0xFFFFFFFF, 1⟩,
    ⟨0x080, 15, 0x4, 1, 0x0, 15, 8, .rw, 0, 0xFFFFFFFF, 1⟩,
    ⟨0x080, 15, 0x4, 1, 0x0, 7, 4, .rw, 0, 0xE, 1⟩,
    ⟨0x080, 15, 0x4, 1, 0x0, 2, 0, .rw, 0, 0x5, 1⟩,
    ⟨0x0C0, 15, 0x4, 1, 0x0, 10, 9, .ro, 0, 0xFFFFFFFF, 1⟩,
    ⟨0x0C0, 15, 0x4, 1, 0x0, 8, 8, .ro, 0, 0xFFFFFFFF, 1⟩,
    ⟨0x0C0, 15, 0x4, 1, 0x0, 7, 7, .ro, 0, 0xFFFFFFFF, 1⟩,
    ⟨0x0C0, 15, 0x4, 1, 0x0, 6, 6, .ro, 0, 0xFFFFFFFF, 1⟩,
    ⟨0x0C0, 15, 0x4, 1, 0x0, 5, 5, .ro, 0, 0xFFFFFFFF, 1⟩,
    ⟨0x0C0, 15, 0x4, 1, 0x0, 4, 4, .ro, 0, 0xFFFFFFFF, 1⟩,
    ⟨0x140, 6, 0x4, 1, 0x0, 31, 0, .ro, 0, 0xFFFFFFFF, 1⟩,
    ⟨0x100, 1, 0x0, 1, 0x0, 31, 0, .ro, 0, 0xFFFFFFFF, 1⟩,
    ⟨0x104, 1, 0x0, 1, 0x0, 31, 0, .ro, 0, 0xFFFFFFFF, 1⟩,
    ⟨0x108, 1, 0x0, 1, 0x0, 31, 0, .ro, 0, 0xFFFFFFFF, 1⟩,
    ⟨0x10C, 1, 0x0, 1, 0x0, 31, 0, .ro, 0, 0xFFFFFFFF, 1⟩,
    ⟨0x110, 1, 0x0, 1, 0x0, 31, 0, .ro, 0, 0xFFFFFFFF, 1⟩,
    ⟨0x114, 1, 0x0, 1, 0x0, 31, 0, .ro, 0, 0xFFFFFFFF, 1⟩,
    ⟨0x118, 1, 0x0, 1, 0x0, 31, 0, .ro, 0, 0xFFFFFFFF, 1⟩ ]

/-- Access rows of page ETH (part 1). -/
def accEth_0 : List AccRow :=
  [ ⟨0x040, 1, 0x0, 1, 0x0, 31, 18, .rwp, 64, 0x2400, 1⟩,
    ⟨0x040, 1, 0x0, 1, 0x0, 17, 17, .rw, 0, 0xFFFFFFFF, 1⟩,
    ⟨0x040, 1, 0x0, 1, 0x0, 16, 9, .rw, 0, 0xFFFFFFFF, 1⟩,
    ⟨0x040, 1, 0x0, 1, 0x0, 1, 0, .rwp, 0, 0xFFFFFFFF, 1⟩,
    ⟨0x044, 1, 0x0, 1, 0x0, 31, 31, .rw, 0, 0xFFFFFFFF, 1⟩,
    ⟨0x044, 1, 0x0, 1, 0x0, 30, 29, .rw, 0, 0x2, 1⟩,
    ⟨0x044, 1, 0x0, 1, 0x0, 28, 28, .rw, 0, 0xFFFFFFFF, 1⟩,
    ⟨0x044, 1, 0x0, 1, 0x0, 27, 25, .rw, 0, 0xFFFFFFFF, 1⟩,
    ⟨0x044, 1, 0x0, 1, 0x0, 23, 12, .rw, 1, 0xFFE, 1⟩,
    ⟨0x044, 1, 0x0, 1, 0x0, 11, 0, .rw, 1, 0xFFE, 1⟩,
    ⟨0x048, 1, 0x0, 1, 0x0, 3, 2, .ro, 0, 0xFFFFFFFF, 1⟩,
    ⟨0x048, 1, 0x0, 1, 0x0, 1, 1, .ro, 0, 0xFFFFFFFF, 1⟩,
    ⟨0x048, 1, 0x0, 1, 0x0, 0, 0, .ro, 0, 0xFFFFFFFF, 1⟩,
    ⟨0x060, 1, 0x0, 1, 0x0, 31, 0, .ro, 0, 0xFFFFFFFF, 1⟩,
    ⟨0x064, 1, 0x0, 1, 0x0, 31, 0, .ro, 0, 0xFFFFFFFF, 1⟩,
    ⟨0x068, 1, 0x0, 1, 0x0, 31, 0, .ro, 0, 0xFFFFFFFF, 1⟩,
    ⟨0x06C, 1, 0x0, 1, 0x0, 31, 0, .ro, 0, 0xFFFFFFFF, 1⟩,
    ⟨0x070, 1, 0x0, 1, 0x0, 31, 0, .ro, 0, 0xFFFFFFFF, 1⟩,
    ⟨0x074, 1, 0x0, 1, 0x0, 31, 0, .ro, 0, 0xFFFFFFFF, 1⟩,
    ⟨0x078, 1, 0x0, 1, 0x0, 31, 0, .ro, 0, 0xFFFFFFFF, 1⟩,
    ⟨0x07C, 1, 0x0, 1, 0x0, 31, 0, .ro, 0, 0xFFFFFFFF, 1⟩ ]

/-- Access rows of page RED (part 1). -/
def accRed_0 : List AccRow :=
  [ ⟨0x040, 2, 0x4, 1, 0x0, 31, 24, .rw, 0, 0xFFFFFFFF, 1⟩,
    ⟨0x040, 2, 0x4, 1, 0x0, 23, 21, .rw, 0, 0xFFFFFFFF, 1⟩,
    ⟨0x040, 2, 0x4, 1, 0x0, 1, 0, .rwp, 0, 0xFFFFFFFF, 1⟩,
    ⟨0x048, 1, 0x0, 1, 0x0, 31, 16, .rw, 10, 0x2710, 1⟩,
    ⟨0x048, 1, 0x0, 1, 0x0, 15, 0, .rw, 100, 0x2710, 1⟩,
    ⟨0x060, 4, 0x4, 1, 0x0, 31, 0, .ro, 0, 0xFFFFFFFF, 1⟩,
    ⟨0x070, 4, 0x4, 1, 0x0, 31, 0, .ro, 0, 0xFFFFFFFF, 1⟩,
    ⟨0x080, 1, 0x0, 1, 0x0, 31, 0, .ro, 0, 0xFFFFFFFF, 1⟩,
    ⟨0x084, 1, 0x0, 1, 0x0, 31, 0, .ro, 0, 0xFFFFFFFF, 1⟩ ]

/-- Access rows of page STN (part 1). -/
def accStn_0 : List AccRow :=
  [ ⟨0x040, 1, 0x0, 1, 0x0, 8, 0, .rw, 0, 0xFFFFFFFF, 1⟩,
    ⟨0x044, 1, 0x0, 1, 0x0, 4, 0, .rw, 0, 0xFFFFFFFF, 1⟩,
    ⟨0x048, 1, 0x0, 1, 0x0, 0, 0, .wo, 0, 0xFFFFFFFF, 1⟩,
    ⟨0x048, 1, 0x0, 1, 0x0, 1, 1, .wo, 0, 0xFFFFFFFF, 1⟩,
    ⟨0x048, 1, 0x0, 1, 0x0, 2, 2, .wo, 0, 0xFFFFFFFF, 1⟩,
    ⟨0x04C, 1, 0x0, 1, 0x0, 7, 0, .ro, 0, 0xFFFFFFFF, 1⟩,
    ⟨0x080, 16, 0x4, 1, 0x0, 31, 0, .w1c, 0, 0xFFFFFFFF, 1⟩,
    ⟨0x100, 32, 0x4, 1, 0x0, 31, 0, .rw, 0, 0xFFFFFFFF, 1⟩,
    ⟨0x400, 128, 0x4, 1, 0x0, 31, 0, .rw, 0, 0xFFFFFFFF, 1⟩ ]

/-- Access rows of page PTP (part 1). -/
def accPtp_0 : List AccRow :=
  [ ⟨0x040, 1, 0x0, 1, 0x0, 31, 24, .rwp, 0, 0xFFFFFFFF, 1⟩,
    ⟨0x040, 1, 0x0, 1, 0x0, 23, 16, .rwp, 0, 0xFFFFFFFF, 1⟩,
    ⟨0x040, 1, 0x0, 1, 0x0, 15, 8, .rwp, 0, 0xFFFFFFFF, 1⟩,
    ⟨0x040, 1, 0x0, 1, 0x0, 7, 6, .rwp, 0, 0x2, 1⟩,
    ⟨0x040, 1, 0x0, 1, 0x0, 5, 5, .rwp, 0, 0xFFFFFFFF, 1⟩,
    ⟨0x040, 1, 0x0, 1, 0x0, 4, 3, .rwp, 0, 0x1, 1⟩,
    ⟨0x050, 4, 0x4, 1, 0x0, 31, 0, .rwp, 0, 0xFFFFFFFF, 1⟩,
    ⟨0x060, 4, 0x4, 1, 0x0, 15, 0, .rws, 0, 0xFFFFFFFF, 1⟩,
    ⟨0x070, 4, 0x4, 1, 0x0, 15, 0, .rws, 0, 0xFFFFFFFF, 1⟩,
    ⟨0x080, 1, 0x0, 1, 0x0, 31, 0, .ro, 0, 0xFFFFFFFF, 1⟩,
    ⟨0x090, 4, 0x4, 1, 0x0, 31, 0, .ro, 0, 0xFFFFFFFF, 1⟩ ]

/-- Access rows of page NVS (part 1). -/
def accNvs_0 : List AccRow :=
  [ ⟨0x040, 1, 0x0, 1, 0x0, 31, 16, .rw, 10, 0xEA60, 1⟩,
    ⟨0x040, 1, 0x0, 1, 0x0, 15, 0, .rw, 1, 0xFFFE, 1⟩,
    ⟨0x044, 1, 0x0, 1, 0x0, 31, 0, .rwp, 0, 0xFFFFFFFF, 1⟩,
    ⟨0x048, 1, 0x0, 1, 0x0, 31, 0, .rwp, 0, 0xFFFFFFFF, 1⟩,
    ⟨0x04C, 1, 0x0, 1, 0x0, 31, 0, .rwp, 0, 0xFFFFFFFF, 1⟩,
    ⟨0x050, 1, 0x0, 1, 0x0, 31, 0, .rwp, 16, 0x10000000, 1⟩,
    ⟨0x054, 1, 0x0, 1, 0x0, 31, 16, .rwp, 0, 0xFFFFFFFF, 1⟩,
    ⟨0x058, 1, 0x0, 1, 0x0, 31, 16, .rwp, 0, 0xFFFFFFFF, 1⟩,
    ⟨0x05C, 1, 0x0, 1, 0x0, 2, 0, .ro, 0, 0xFFFFFFFF, 1⟩,
    ⟨0x060, 1, 0x0, 1, 0x0, 31, 0, .ro, 0, 0xFFFFFFFF, 1⟩,
    ⟨0x064, 1, 0x0, 1, 0x0, 31, 0, .ro, 0, 0xFFFFFFFF, 1⟩,
    ⟨0x068, 1, 0x0, 1, 0x0, 31, 0, .ro, 0, 0xFFFFFFFF, 1⟩ ]

/-- The access rows of each page's block-specific registers. -/
def accRows (page : Nat) : List AccRow :=
  if page = 0 then accSys_0
  else if page = 1 then accPwr_0
  else if page = 2 then accPmb_0
  else if page = 3 then accBzl_0 ++ accBzl_1
  else if page = 4 then accSvc_0 ++ accSvc_1
  else if page = 5 then accThm_0
  else if page = 6 then accTime_0 ++ accTime_1
  else if page = 7 then accEvi_0
  else if page = 8 then accRec_0
  else if page = 9 then accSec_0 ++ accSec_1
  else if page = 10 then accBoot_0
  else if page = 11 then accFac_0
  else if page = 12 then accSieve_0
  else if page = 13 then accGrd_0
  else if page = 14 then accSch_0
  else if page = 15 then accTun_0
  else if 16 ≤ page ∧ page ≤ 18 then accLnk_0 ++ accLnk_1
  else if 19 ≤ page ∧ page ≤ 21 then accCyc_0 ++ accCyc_1
  else if page = 22 then accPcie_0
  else if page = 23 then accAtu_0
  else if page = 24 then accDma_0
  else if page = 25 then accLpb_0
  else if page = 26 then accLsio_0
  else if page = 27 then accDpi_0
  else if page = 28 then accDpo_0
  else if page = 29 then accUsbd_0
  else if page = 30 then accUsbh_0
  else if 31 ≤ page ∧ page ≤ 34 then accEth_0
  else if page = 35 then accRed_0
  else if page = 36 then accStn_0
  else if page = 37 then accPtp_0
  else if page = 38 then accNvs_0
  else []

/-- Every reset row. -/
def resetRows : List RstRow := resetPart0 ++ resetPart1 ++ resetPart2

/-! ## The default of every word -/

/-- Does the row hold the address? -/
def RstRow.has (r : RstRow) (a : Nat) : Bool :=
  r.base ≤ a &&
    (let d := a - r.base
     if r.n1 = 1 ∧ r.n2 = 1 then d == 0
     else if r.n2 = 1 then d % r.s1 == 0 && d / r.s1 < r.n1
     else (d / r.s1 < r.n1 && (d % r.s1) % r.s2 == 0 && (d % r.s1) / r.s2 < r.n2))

/-- PG_ID and PG_CAP of each page, as the chapters of `spec/` give them (the crown's value where a chapter gives
two).  LIFE_IMPL is bit 31 of PG_CAP and WAKEABLE bit 30 (R34, *Common page header*). -/
def pgIdCap (page : Nat) : Nat × Nat :=
  if page = 0 then (0x01000100, 0) else
  if page = 1 then (0x01010100, 5) else
  if page = 2 then (0x01020100, 4) else
  if page = 3 then (0x01030100, 3) else
  if page = 4 then (0x01040100, 0) else
  if page = 5 then (0x01050100, 4) else
  if page = 6 then (0x01060100, 0x80000000) else
  if page = 7 then (0x01070100, 0x80000810) else
  if page = 8 then (0x01080100, 0x80000040) else
  if page = 9 then (0x01090100, 0xC0000020) else
  if page = 10 then (0x010A0100, 8) else
  if page = 11 then (0x010B0100, 0x40000010) else
  if page = 12 then (0x010C0100, 0x40000020) else
  if page = 13 then (0x010D0100, 0x40000040) else
  if page = 14 then (0x010E0100, 0x40007100) else
  if page = 15 then (0x010F0100, 0x40000100) else
  if page ≤ 18 then (0x01100100, 0xC000001F) else
  if page ≤ 21 then (0x01130100, 0x40000010) else
  if page = 22 then (0x01160100, 0xC0000044) else
  if page = 23 then (0x01170100, 0xC0000020) else
  if page = 24 then (0x01180100, 0xC0000020) else
  if page = 25 then (0x01190100, 0xC0000008) else
  if page = 26 then (0x011A0100, 0xC0200244) else
  if page = 27 then (0x011B0100, 0xC0000034) else
  if page = 28 then (0x011C0100, 0xC0000134) else
  if page = 29 then (0x011D0100, 0xC0000006) else
  if page = 30 then (0x011E0100, 0xC000000F) else
  if page ≤ 34 then (0x011F0100, 0xC000000F) else
  if page = 35 then (0x01230100, 0xC0000002) else
  if page = 36 then (0x01240100, 0xC0002200) else
  if page = 37 then (0x01250100, 0xC0000004) else
  if page = 38 then (0x01260100, 0xC0000000) else (0, 0)

/-- The default ageing limits of R136's table *Default ageing limits*, AGE_TCc.LIMIT for classes 0–7. -/
def ageDefault (c : Nat) : Nat := ([1000000, 50000, 100000, 100000, 8000, 1000, 10000, 4000])[c]?.getD 0

/-- PG_STATE of each page at reset: the pages of the domains that DOM_STATUS shows on at reset (D0 and D2) read
DOMAIN_UP = 1, and those of them without LIFE_IMPL read LIFE ON, as the chapters of SYS, PWR, SVC and BOOT say. -/
def pgStateReset (page : Nat) : Nat :=
  if page = 6 ∨ page = 7 ∨ page = 8 then 0x10 else if page ≤ 5 ∨ page = 10 then 0x12 else 0

/-- The MODE, ING_A and EGR_A words of the fixed management contexts 0–5 (R99, R101, R442): context 2n receives link
port n and delivers to the queue of engine 5, context 2n + 1 sends. -/
def fixedCtxWord (c off : Nat) : Nat :=
  let link := 0x80000000 + 0x1000000 * (c / 2)
  if off = 8 then 0x130 else if (off = 12) = (c % 2 = 0) then link else 0x8C000005

/-- The value a register-space word has where nothing else has been written to it: its reset value (R8). -/
def dfltReg (a : Nat) : Nat :=
  if a < 0x40000 ∧ a % 0x1000 = 0x000 then (pgIdCap (a / 0x1000)).1
  else if a < 0x40000 ∧ a % 0x1000 = 0x004 then (pgIdCap (a / 0x1000)).2
  else if a < 0x40000 ∧ a % 0x1000 = 0x00C then pgStateReset (a / 0x1000)
  else if 0xD060 ≤ a ∧ a < 0xD080 ∧ a % 4 = 0 then ageDefault ((a - 0xD060) / 4)
  else if 0xD200 ≤ a ∧ a < 0xD600 ∧ a % 8 = 0 then (if ((a - 0xD200) / 8) % 8 < 5 then 0x04000000 else 0)
  else if 0x13000 ≤ a ∧ a < 0x16000 ∧ (a % 0x1000 = 0x200 ∨ a % 0x1000 = 0x400 ∨ a % 0x1000 = 0x600 ∨ a % 0x1000 = 0x800) then 0x10
  else if 0x200000 ≤ a ∧ a < 0x200300 ∧ (a % 0x80 = 8 ∨ a % 0x80 = 12 ∨ a % 0x80 = 20) then fixedCtxWord ((a - 0x200000) / 0x80) (a % 0x80)
  else match (resetRows).find? (fun r => r.has a) with
    | some r => r.val
    | none => 0

/-- The default of every word of the word store: register words of the other access paths' banks (`+ 0x40000 * p`)
and the values in force of RWE and RWP fields (`+ 0x100000`) start like the register word itself. -/
def dflt (a : Nat) : Word :=
  BitVec.ofNat 32
    (if a < 0x100000 then dfltReg (a % 0x40000)
     else if a < 0x200000 then dfltReg (a - 0x100000)
     else if 0x300000 ≤ a ∧ a < 0x400000 then dfltReg (a - 0x100000)
     else dfltReg a)

end Sys2Proof.Machine
end

