-- ==== Sys2Proof/Machine/State.lean ====
section
/-!
DEFINITION. The state of the block as plain data, what it emits, the reasons a step can stop, and the state after
reset.  Register words live in one sparse store, `words`; the state that no register shows lives in the structures
below, chapter by chapter.
-/

namespace Sys2Proof.Machine

/-! ## Power domains, accesses and prong machines (`01_architecture.md`, `02_register_pages.md`) -/

/-- Where a power domain stands (R20–R22). `waiting` is a requested switch-on whose prerequisites are not on yet. -/
inductive DomPhase
  | off | waiting | rising | on | falling
  deriving DecidableEq, Repr

/-- One power domain: its phase, a switch-on requested during the switch-off (R22), a switch-off held for its
dependants (R21), and whether a domain cycle is to switch it on again (R19). -/
structure DomSt where
  phase : DomPhase := .off
  onPending : Bool := false
  offHeld : Bool := false
  deriving DecidableEq, Repr

/-- An access of a path to a register word. -/
structure Acc where
  path : Path
  addr : Nat
  isWrite : Bool
  data : Nat
  deriving DecidableEq, Repr

/-- A remote access sent over the management tunnel and not yet answered (R50). -/
structure RemAcc where
  id : Nat
  chip : Nat
  acc : Acc
  deriving DecidableEq, Repr

/-- Management records that run (R251, R406): the records not answered yet, of which the first waits for its access if `acc` is
given; the responses so far; and the SEQ of the service-UART frame that brought them, none for the management pipe. -/
structure MgmtRun where
  left : List (List Byte)
  resp : List Byte := []
  acc : Option Acc := none
  uart : Option Nat := none
  deriving DecidableEq, Repr

/-- Domains, stalled and remote accesses, and the prong machines' running commits. -/
structure Chip where
  /-- power domains 0–15 -/
  doms : Tbl DomSt := [(0, ⟨.on, false, false⟩), (1, ⟨.on, false, false⟩), (2, ⟨.on, false, false⟩)]
  /-- accesses stalled on a domain that is switching on, in issue order (R53) -/
  stalled : List Acc := []
  /-- remote accesses without an answer (R50) -/
  remote : List RemAcc := []
  /-- number of the next remote access -/
  remoteNext : Nat := 0
  /-- a page was soft reset while wedged, so its domain is cycled if it stays wedged (R19) -/
  softRst : List Nat := []
  /-- a final recorder commit is running (R29) -/
  finalRun : Bool := false
  /-- a watchdog reset held behind the commit (R30), and a reset that SYS_RST asked for, with the path of its write (R46) -/
  wdtHeld : Bool := false
  rstHeld : Option Path := none
  /-- elapsed time (ns) at which the watchdog count reaches zero (R47) -/
  wdtEnd : Nat := 0
  /-- accesses of MSPI frames that have not ended, in the order of their frames, and whether the response of each is still awaited:
  chip select has not risen since the frame's CRC byte (R51) -/
  mspi : List (Acc × Bool) := []
  /-- management records, in the order of arrival; the first entry runs (R251, R406) -/
  mgmt : List MgmtRun := []
  /-- accesses of the remote register agent that wait: asking chip, its number, and the access (R50) -/
  agent : List (Nat × Nat × Acc) := []
  /-- after a thermal shutdown, until restarted (R31, R33) -/
  thermalOff : Bool := false
  /-- a thermal shutdown's commit has not ended yet: D3–D15 go off when it ends, or at this elapsed time (ns) (R31) -/
  thermalWait : Option Nat := none
  /-- this chip's ROLE strap (0 AUTO, 1 CROWN, 2 PAVILION, 3 not allowed), read at step B1 (R71) -/
  strap : Nat := 0
  /-- resolved role: 0 unresolved, 1 crown, 2 pavilion (R71) -/
  role : Nat := 0
  /-- the 64-bit unit ID in OTP: no command changes it (R1) -/
  unitId : Nat := 0
  /-- unit ID of the crown of the own tree, 0 if none -/
  crownId : Nat := 0
  /-- chips of the tree by number, on the crown: parent chip, parent port, depth (R25) -/
  tree : Tbl (Nat × Nat × Nat) := []
  /-- upstream links that reached ACTIVE in the present cycle and wait for their chip's number: parent chip, parent port, depth (R25) -/
  joining : List (Nat × Nat × Nat) := []
  /-- what engine 5 has read about the tree in the present cycle (R25) -/
  news : TreeNews := {}
  /-- supply: D0 has power -/
  d0Up : Bool := true
  deriving DecidableEq, Repr

/-! ## Event recorder (`20_event_recorder.md`) -/

/-- One record (*Record layout*). `snap` holds the entries (word index, value); `tail` the bytes 28–59 of a CLEARED
record. -/
structure Rec where
  seq : Nat
  typ : Nat
  flags : Nat
  opSec : Nat
  cycles : Nat
  time : Nat
  trigId : Nat
  source : Nat
  snap : List (Nat × Nat)
  tail : List Byte := []
  deriving DecidableEq, Repr

/-- A firing of a slot (R412, R415): its source, its trigger's TIME and TIME_VALID, and its instant in ns. -/
structure Trig where
  slot : Nat
  source : Nat
  time : Nat
  valid : Bool
  at_ : Nat
  deriving DecidableEq, Repr

/-- A chain of records that is being read and written (R413, R414). -/
structure RecRun where
  trig : Trig
  /-- slot that supplies the present list -/
  lst : Nat
  /-- position in the chain, 0–3 -/
  pos : Nat := 0
  /-- slots already used by the chain -/
  used : List Nat := []
  /-- the entries read: word index, and value if it was read -/
  vals : List (Nat × Option Nat) := []
  /-- the present record is in the ring, and this slot continues the chain -/
  next : Option Nat := none
  deriving DecidableEq, Repr

/-- What events did at one instant: the bits that they set in words of W1C bits, by address, and the first rejected access of a page, as
code, path, word and value (R3, R36). -/
structure Instant where
  at_ : Nat := 0
  bits : Tbl Nat := []
  rejects : Tbl (Nat × Nat × Nat × Nat) := []
  deriving DecidableEq, Repr

structure Recorder where
  /-- the latest instant at which events set W1C bits (R3) -/
  inst : Instant := {}
  /-- records of the final commit that runs, with their instants, in the order in which it writes them (R32) -/
  final : List (Nat × Rec) := []
  /-- ring of 1,024 records by position (R409) -/
  ring : Tbl Rec := []
  /-- flash region of 16,384 positions (R417) -/
  flash : Tbl Rec := []
  /-- last-words buffer of 4 records in D1 (R420) -/
  lastWords : List Rec := []
  /-- slots whose source has fired, in the order of the firings and of slots within an instant (R412, R416) -/
  due : List Trig := []
  /-- pending triggers, at most 16 (R415) -/
  queue : List Trig := []
  /-- the record that is being written (R416) -/
  run : Option RecRun := none
  /-- system and final records that wait for the chain in progress (R416, R424) -/
  held : List Rec := []
  /-- slots within HOLDOFF (R415) -/
  holdoff : List Nat := []
  /-- a flush is requested up to this SEQ, which is not flushed by it (R417) -/
  flushTo : Option Nat := none
  /-- FLUSH_MS runs for the oldest waiting record -/
  flushTimer : Bool := false
  deriving DecidableEq, Repr


/-! ## KweiqLink ports (`03_kweiqlink_lanes.md`, `04_cycle_and_carats.md`) -/

/-- What one control-slot message unit carries (*Message types*). -/
inductive CtlUnit
  | cycle (m : CycleMsg)
  /-- ALLOT with its OP (1 PROPOSE, 2 ACCEPT, 3 REFUSE, 4 WITHDRAW) and REASON -/
  | allot (op reason : Nat) (a : Allot)
  | ack (entries : List AckEntry)
  /-- ROLE: OP (1 SWAP_REQ, 2 ACCEPT, 3 REFUSE), reason, swap cycle, unit ID, cycle of the request -/
  | role (op reason swap unit sent : Nat)
  /-- STATE: OP (1 PORT_STOPPING, 2 IDLE_REQ, 3 IDLE_ACK, 4 WAKE_REQ, 5 STATE_REPORT), power state, cycle -/
  | state (op power cycle : Nat)
  /-- KEY: OP (1 NEXT_READY … 6 OLD_RELEASED), generation, switch cycle, known-answer data -/
  | key (op gen cycle data : Nat)
  /-- MGMT: SEQ and data of a one-cell management frame -/
  | mgmt (seq : Nat) (data : List Byte)
  deriving DecidableEq, Repr

/-- A role swap requested or accepted and not yet done (R72). -/
structure Swap where
  cycle : Nat
  sent : Nat
  mine : Bool
  accepted : Bool
  deriving DecidableEq, Repr

/-- Training of a port (R64–R71). -/
structure Train where
  /-- FAIL beacons are being sent (R69); the failure leads to HOLDOFF -/
  failing : Bool := false
  toHoldoff : Bool := false
  /-- the ceiling returns to MAX_SPEED after this HOLDOFF -/
  ceilReset : Bool := false
  /-- in GLINT: the elapsed time (ns) at which the running pattern ends (R61) -/
  glintAt : Nat := 0
  /-- cause 0x04 was recorded since the entry into DETECT -/
  pairWarned : Bool := false
  /-- the rate chosen in SPEED, while the SerDes relocks -/
  chosen : Option Nat := none
  /-- both ends advertised KEYS_MODE 1 or 2 -/
  keysUse : Bool := false
  /-- preset under measurement on each lane -/
  run0 : Option Nat := none
  run1 : Option Nat := none
  /-- widest eye so far and its preset, per lane -/
  best0 : Nat × Nat := (0, 0)
  best1 : Nat × Nat := (0, 0)
  /-- the preset sweep of each lane has ended (R67) -/
  sweep0 : Bool := false
  sweep1 : Bool := false
  /-- EQ_DONE sent, EQ_DONE received -/
  eqSelf : Bool := false
  eqFar : Bool := false
  /-- the far end asked for presets, so it chooses those of this transmitter (R67) -/
  asked : Bool := false
  /-- preset of the lane 1 transmitter (lane 0 is LNK_STATUS.TX_PRESET) -/
  txPreset1 : Nat := 0
  /-- RANGE requests sent, and valid delays in quarter nanoseconds -/
  rangeSent : Nat := 0
  rangeVals : List Nat := []
  /-- the far end's last ROLE beacon -/
  farRole : Option RoleBeacon := none
  /-- this end's ROLE beacon when the link was parked (R71) -/
  parkedAs : Option RoleBeacon := none
  /-- the far port announced that it stops -/
  farStopping : Bool := false
  /-- the role swap agreed or asked for (R72) -/
  swap : Option Swap := none
  /-- a request is to be sent again after a collision (R73) -/
  swapResend : Bool := false
  deriving DecidableEq, Repr

/-- An epoch change of a port (R95): until `sent` the proposer's local checks run. -/
structure Change where
  proposer : Bool
  body : Allot
  sent : Bool := false
  /-- ACCEPT received, or sent by the acceptor -/
  accepted : Bool := false
  deriving DecidableEq, Repr

/-- The last change, up to the end of its settle period: its swap cycle, the shadow digests of the proposal, and whether
this end swapped (R97). -/
structure LastChange where
  swap : Nat
  digTx : Nat
  digRx : Nat
  swapped : Bool
  deriving DecidableEq, Repr

/-- Cycle and epoch state of a port (R88–R98). -/
structure Epoch where
  /-- the epoch change in hand, and the last one (R93, R95) -/
  change : Option Change := none
  last : Option LastChange := none
  /-- withdrawn proposals whose WITHDRAW is sent from a cycle up to their swap cycle, oldest first (R95 step 7) -/
  wd : List (Allot × Nat) := []
  /-- PROP_CYCLE of the proposal answered last (R95 step 5) -/
  answered : Option Nat := none
  /-- the far end reported the next epoch within the settle period (R97) -/
  lateDue : Bool := false
  /-- in split until retraining (R97) -/
  split : Bool := false
  /-- EPOCH of the far end's last CYCLE message -/
  farEpoch : Option Nat := none
  /-- consecutive valid CYCLE messages, cycles without one, a mismatched CYCNO seen (R60, R89) -/
  okCount : Nat := 0
  missed : Nat := 0
  gotThis : Bool := false
  mismatch : Bool := false
  /-- type codes of the KEY, ALLOT, ROLE and STATE units sent in this cycle (R82) -/
  sentKinds : List Nat := []
  /-- units waiting for a control slot, and ACK entries waiting -/
  units : List CtlUnit := []
  acks : List AckEntry := []
  /-- guaranteed slots of LTN 0x00 used in this cycle (R83) -/
  mgmtUsed : Nat := 0
  deriving DecidableEq, Repr


/-! ## Contexts (`05_tunnels.md`) and the girdle (`06_girdle.md`) -/

/-- A frame arriving from a link at a context (R113). -/
structure RxFrame where
  id : Nat
  /-- cells held store-and-forward -/
  held : List Cell := []
  /-- cells already queued cut-through -/
  count : Nat := 0
  /-- SEQ of the last cell, and its class, AGE and TW for an INC tail -/
  high : Nat := 0
  tc : Nat := 0
  age : Nat := 0
  tw : Bool := false
  bad : Bool := false
  deriving DecidableEq, Repr

/-- A cell kept for replay (R134): its queue, frame and egress, the cycle of its last sending, and whether a replay has
put it back into its queue. -/
structure Kept where
  cell : Cell
  buf : Nat
  q : Nat
  frame : Nat
  eg : Nat
  sent : Nat
  queued : Bool := false
  deriving DecidableEq, Repr

/-- The hidden state of one context. -/
structure CtxS where
  /-- LTN that words ING_A, ING_B, EGR_A, EGR_B held before the swap, until the settle period ends (R108) -/
  oldLtn : Tbl Nat := []
  /-- LTN of the last cell that came in by words ING_A and ING_B since the last ACK entry (R117) -/
  inLtn : Tbl Nat := []
  /-- the frame that is open at the ingress (R113) -/
  rx : Option RxFrame := none
  /-- a frame without its FS cell is being discarded (R113) -/
  headless : Bool := false
  /-- cycle of entry into STARTING or STOPPING -/
  since : Nat := 0
  /-- a RESYNC entry arrived (R116); the 9-cycle wait of a split ended (R110) -/
  resynced : Bool := false
  splitDone : Bool := false
  /-- cycle in which a starting split had passed the steps before its wait (R110) -/
  splitFrom : Option Nat := none
  /-- the drain limit of a stop passed, or DISCARD = 1 (R111) -/
  drained : Bool := false
  /-- cells sent and not acknowledged, oldest first (R134) -/
  kept : List Kept := []
  /-- marked cells since the last entry, per ingress link (R118) -/
  cm : Tbl Nat := []
  /-- RX_NEXT advanced since the last entry (R117) -/
  advanced : Bool := false
  /-- SEQ of the last cell at an unreliable end; cycle of its last cell (R122, R123) -/
  lastSeq : Option Nat := none
  lastRx : Nat := 0
  /-- an entry with CM_COUNT > 0 arrived, so a hold starts or restarts at the next boundary; last cycle of the hold -/
  holdDue : Bool := false
  holdEnd : Nat := 0
  /-- committed and peak buckets of EGR_A (0) and EGR_B (1) (R154) -/
  c : Tbl Nat := []
  p : Tbl Int := []
  /-- the peak buckets before the refill of the present cycle, and whether a hold starts in it (R155, R169) -/
  pWas : Tbl Int := []
  holdStarts : Bool := false
  deriving DecidableEq, Repr

/-- A queued cell: its buffer index, its mark for this queue, and whether it has been sent before. -/
structure QCell where
  cell : Cell
  buf : Nat
  mark : Bool := false
  kept : Bool := false
  deriving DecidableEq, Repr

/-- The end of a frame whose head has left (R137). `cause`: 0 aged, 1 refused, 2 void, 3 stopped. -/
structure TailSt where
  cause : Nat
  /-- SEQ of the tail, once it may be sent -/
  seq : Option Nat
  /-- highest SEQ of the frame seen, and the cycle in which the discard began -/
  high : Nat
  since : Nat
  deriving DecidableEq, Repr

/-- A frame in a queue (R129). -/
structure QFrame where
  ctx : Nat
  eg : Nat
  id : Nat
  tc : Nat
  age : Nat
  tw : Bool
  cells : List QCell := []
  started : Bool := false
  lsStored : Bool := false
  high : Nat := 0
  tail : Option TailSt := none
  deriving DecidableEq, Repr

/-- A frame whose later cells are discarded as they arrive at a queue (R130, R136). -/
structure DropKey where
  q : Nat
  ctx : Nat
  id : Nat
  cause : Nat
  deriving DecidableEq, Repr

/-- An allocated buffer cell: its reference count, and the 1040-mode port and class it came from (R133, R144). -/
structure BufCell where
  refs : Nat
  src : Option (Nat × Nat) := none
  deriving DecidableEq, Repr

structure GirdleS where
  /-- queues by number, frames oldest first (R129) -/
  queues : Tbl (List QFrame) := []
  /-- frames whose further cells are discarded (R130, R136) -/
  drops : List DropKey := []
  /-- buffer cells in use, by number (R127) -/
  bufs : Tbl BufCell := []
  /-- the bank whose turn is next (R127) -/
  nextBank : Nat := 0
  /-- room set aside for presented frames, per queue (R130) -/
  aside : Tbl Nat := []
  /-- replays that wait for a frame boundary: queue and context (R134) -/
  relink : List (Nat × Nat) := []
  /-- number for the next frame that a queue takes -/
  nextFrame : Nat := 0
  /-- FREE is below CM_FREE (R141) -/
  poolLow : Bool := false
  /-- the 1040-mode frames at links and the adapters' open frames: egress point and class (R157) -/
  openAt : Tbl Nat := []
  /-- Ethernet egress points: the CRC over a frame that the hub changed as it left, up to its last four bytes, and those bytes (R272) -/
  fcs : Tbl (Nat × List Byte) := []
  deriving DecidableEq, Repr

/-- A quarantined (link point, LTN) pair, the context that held it and the last cycle of its quarantine (R105). -/
structure Quar where
  ctx : Nat
  port : Nat
  ltn : Nat
  upTo : Nat
  deriving DecidableEq, Repr

/-- One gate control list configuration (R166). -/
structure Gcl where
  entries : List (Nat × Nat) := []
  cycleNs : Nat := 0
  base : Nat := 0
  ext : Nat := 0
  deriving DecidableEq, Repr

/-- A gate control list's oper and pending configurations. -/
structure GclS where
  /-- the oper configuration (R165) -/
  oper : Option Gcl := none
  /-- present entry, and the time base at which its interval ends -/
  entry : Nat := 0
  until_ : Nat := 0
  /-- the pending configuration, and the time base at which it comes into force (R166) -/
  pending : Option (Gcl × Nat) := none
  /-- after a step, the present gates hold until the next cycle start (R168) -/
  held : Bool := false
  /-- frames being sent when a configuration came into force: class and frame number (R167) -/
  cut : List (Nat × Nat) := []
  deriving DecidableEq, Repr

/-- A meter's buckets in nanoframes and the time of the last frame in ns (R161). -/
structure MtrS where
  tc : Nat := 0
  tp : Nat := 0
  last : Nat := 0
  deriving DecidableEq, Repr

/-- Scheduler state: owed slots per port (owner LTN and class, oldest first), lists and meters. -/
structure SchedS where
  /-- owed slots per port, the oldest first -/
  owed : Tbl (List (Nat × Nat)) := []
  /-- gate control lists by number (R164) -/
  gcl : Tbl GclS := []
  /-- meters by number (R161) -/
  mtr : Tbl MtrS := []
  deriving DecidableEq, Repr


/-! ## Network time, event inputs and fast outputs (`08_network_time.md`) -/

/-- A step of the time base that is scheduled or waits for key replacements (R185, R187). -/
structure StepReq where
  /-- S, or none while the step waits for the key replacements of R187 -/
  cycle : Option Nat
  /-- Δ in nanoseconds -/
  delta : Int
  own : Bool
  deriving DecidableEq, Repr

/-- The time base, the source state machine and its servo.  Offsets are signed quarter nanoseconds, frequencies are in
units of 0.1 ppb. -/
structure TimeS where
  /-- TAI seconds and nanoseconds of the time base -/
  sec : Nat := 0
  ns : Nat := 0
  /-- number of the cycle that began last, counted from TAI zero without wrapping -/
  begun : Nat := 0
  /-- nanoseconds that have passed since D0 was powered, whatever the time base was set to -/
  ran : Nat := 0
  /-- in S3 and S4: nanoseconds of the running reference period, and the fraction of a nanosecond, in units of 10^-10, that FREQ has
  added (R175) -/
  refNs : Nat := 0
  frac : Int := 0
  /-- in S5: the running RTC period and the fraction carried from the ones before it, both in units of 1/32768 ns (R175) -/
  rtcRun : Nat := 0
  rtcFrac : Nat := 0
  /-- the time base has been set since the cold start (R410) -/
  everSet : Bool := false
  /-- the D1 real-time clock: TAI seconds, if valid (R174) -/
  rtc : Option Nat := none
  /-- links send idle until the next cycle boundary after a step (R186) -/
  gap : Bool := false
  /-- the step in hand (R186, R187) -/
  step : Option StepReq := none
  /-- the encrypted links whose key replacement a delayed step waits for: chip, port, first cycle of the key (R187); this chip is 15 -/
  stepWait : List (Nat × Nat × Nat) := []
  /-- measurements in a row within LOCK_THR, and above STEP_THR (R178) -/
  lockRun : Nat := 0
  stepRun : Nat := 0
  /-- LOCKED was reached since the last FREE -/
  lockedOnce : Bool := false
  /-- HOLD_VALID has not elapsed in HOLDOVER (R179) -/
  holdOk : Bool := false
  /-- elapsed time at the entry into HOLDOVER (R178) -/
  holdAt : Nat := 0
  /-- the links, by port, from which the chip could take its time (R176) -/
  inputs : List Nat := []
  /-- encrypted links elsewhere in the scope, as the management tunnel has told: chip, port, first cycle of the key in force (R187) -/
  farKeys : List (Nat × Nat × Nat) := []
  /-- TIME_VALID flag of the input link's CYCLE messages (R179) -/
  inValid : Bool := false
  /-- the local source is present and valid for the state machine -/
  srcPresent : Bool := false
  /-- the integral term of the servo, in millionths of 0.1 ppb (R440) -/
  integral : Int := 0
  /-- the frequency held for open-loop states and the slew limit: the mean over the last 64 s of LOCKED -/
  heldMean : Int := 0
  /-- FREQ in LOCKED: second, sum and number of samples (R178) -/
  means : List (Nat × Int × Nat) := []
  /-- the latest PPS edge that no sentence has labelled, and the second that it marks (the edge less COMP), both in quarter nanoseconds of
  the time base (R181) -/
  pps : Option (Nat × Nat) := none
  deriving DecidableEq, Repr

/-- The ranging of one link (R182–R184). -/
structure LinkTime where
  /-- the last 16 accepted delays in quarter nanoseconds, newest last -/
  filt : List Nat := []
  /-- rejections in a row -/
  rejRun : Nat := 0
  /-- the filter is being reseeded from the next 16 values -/
  reseed : Option (List Nat) := none
  /-- arrival stamp and cycle number of the far end's latest valid CYCLE slot -/
  rx : Option (Nat × Nat) := none
  /-- this end's last TX_STAMPs by cycle number, newest first -/
  tx : List (Nat × Nat) := []
  /-- offsets of the valid RANGE measurements (R184) -/
  rangeOfs : List Int := []
  deriving DecidableEq, Repr

/-- An event input (R190).  An edge is its stamp, in quarter nanoseconds of the time base, with TIME_VALID at the edge (R179). -/
structure EviIn where
  /-- edge of the candidate, and its BOUNCE -/
  cand : Option ((Nat × Bool) × Bool) := none
  /-- the debounce window is open, and the last edge within it -/
  window : Bool := false
  last : Option (Nat × Bool) := none
  deriving DecidableEq, Repr

/-- An entry of the capture FIFO (R191). -/
structure EviEntry where
  seq : Nat
  raw : Bool
  bounce : Bool
  timeValid : Bool
  level : Bool
  input : Nat
  stamp : Nat
  deriving DecidableEq, Repr

/-- Event inputs, their FIFO and the fast outputs. -/
structure EviS where
  /-- the event inputs (R190) -/
  ins : Tbl EviIn := []
  /-- the event FIFO, oldest entry first (R193) -/
  fifo : List EviEntry := []
  /-- number of the next entry -/
  seq : Nat := 0
  /-- levels driven on FOUT0–FOUT7 -/
  fout : Nat := 0
  /-- outputs within a pulse -/
  pulsing : List Nat := []
  /-- the times, in nanoseconds, for which ARM has scheduled the outputs (R194) -/
  armed : Tbl Nat := []
  /-- elapsed time at which an output's scheduled instant last came while it was not armed, plus one (R196) -/
  missed : Tbl Nat := []
  deriving DecidableEq, Repr



/-! ## Far bus, bridges and virtual ports (`09_pcie_farbus.md`) -/

/-- A PCIe function or port: the host's settings, its AER Uncorrectable Error Status and its header log (R197, R211). -/
structure PcieFn where
  cfg : PcieCfg := {}
  unc : Nat := 0
  hdr : List Nat := []
  deriving DecidableEq, Repr

/-- One far-bus burst of a request: kind 0 posted write, 1 read, 2 atomic, 3 locked read, 4 an Unlock in its place in the order.  A beat is an
address, its byte enables and its data; the last `ahead` beats are read ahead. -/
structure FarBurst where
  no : Nat
  kind : Nat
  chip : Nat := 0
  cs : Nat
  ctx : Nat
  win : Nat
  reqId : Nat
  tag : Nat
  write : Bool
  beats : List (Nat × Nat × Nat)
  ahead : Nat := 0
  last : Bool := true
  /-- beats of the whole request that the requester asked for; those after them are read ahead (R207) -/
  want : Nat := 0
  /-- a write to the window came after this read: what it reads ahead is not kept (R207) -/
  stale : Bool := false
  /-- its context has faulted: the transaction ends with the beat in progress (R214) -/
  cut : Bool := false
  /-- elapsed time of its arrival (R205) -/
  at_ : Nat := 0
  /-- header of the host's request (R211) -/
  hdr : List Nat := []
  /-- operation, width in bits, operand and compare value of an atomic -/
  atom : Option (Nat × Nat × Nat × Nat) := none
  deriving DecidableEq, Repr

/-- An entry of the error FIFO (R211). -/
structure ErrEntry where
  addr : Nat
  chip : Nat
  ctx : Nat
  reqId : Nat
  kind : Nat
  cause : Nat
  time : Nat
  deriving DecidableEq, Repr

structure BridgeS where
  /-- bursts that wait, in the order in which they are served (R205) -/
  queue : List FarBurst := []
  /-- the burst in progress (R205) -/
  cur : Option FarBurst := none
  /-- LOCK_N is low for the requester of this burst: an atomic in progress, or an MRdLk that has run -/
  lock : Option FarBurst := none
  /-- read data of the request in progress -/
  got : List (Nat × Nat) := []
  /-- requests sent to the far bus of another chip and not yet answered, by number -/
  remote : Tbl FarBurst := []
  /-- locked reads of another chip's far bus that have ended and hold its LOCK_N low, by number -/
  held : Tbl FarBurst := []
  /-- number of the next request -/
  nextReq : Nat := 0
  /-- the error FIFO, oldest entry first (R211) -/
  errf : List ErrEntry := []
  /-- FENCE reads that wait, with the posted writes they wait for -/
  fence : List (Path × List Nat) := []
  /-- prefetched beats per window: address and data -/
  pf : Tbl (List (Nat × Nat)) := []
  /-- non-posted requests without completion per virtual port (0 is the root port): requester and tag -/
  np : Tbl (List (Nat × Nat)) := []
  /-- PCIe functions and ports: 0 the upstream port, 1 function 0, 2 function 1, 16 + c virtual downstream port c -/
  fns : Tbl PcieFn := []
  deriving DecidableEq, Repr


/-! ## Address translation and DMA (`10_atu_dma.md`) -/

/-- A TLB entry (R219): the page's IOVA (4 KiB or 2 MiB aligned) and its frame. -/
structure TlbE where
  asid : Nat
  page : Nat
  big : Bool
  frame : Nat
  r : Bool
  w : Bool
  ns : Bool
  rlx : Bool
  deriving DecidableEq, Repr

/-- A table walk of a channel (R218, R220): the level whose entry is being read. -/
structure Walk where
  asid : Nat
  iova : Nat
  write : Bool
  desc : Bool
  level : Nat
  epoch : Nat
  /-- an invalidation done since covers its 4 KiB page, or its 2 MiB page (R220) -/
  marked : Bool := false
  markedBig : Bool := false
  deriving DecidableEq, Repr

/-- An invalidation that is issued and not done: epoch, scope (0 all, 1 ASID, 2 range), ASID, IOVA and pages (R220). -/
structure Inval where
  epoch : Nat
  scope : Nat
  asid : Nat
  addr : Nat
  len : Nat
  deriving DecidableEq, Repr

/-- A held descriptor (R223): ring index, buffer, length, SOF, EOF, IRQ, STAMP, and the bytes committed. -/
structure Desc where
  idx : Nat
  buf : Nat
  len : Nat
  sof : Bool
  eof : Bool
  irq : Bool
  stamp : Bool
  done : Nat := 0
  /-- it could not be fetched or written back and is passed over (R230) -/
  lost : Bool := false
  deriving DecidableEq, Repr

/-- A translated page that a channel holds for its next access: page IOVA, bus address, write, NS and RLX, the mode of the address space,
the TLB entry used (IOVA and size; none in pass-through), and whether an invalidation removed that entry since. -/
structure Xl where
  page : Nat
  bus : Nat
  write : Bool
  ns : Bool := false
  rlx : Bool := false
  mode : Nat := 1
  ent : Option (Nat × Nat) := none
  stale : Bool := false
  deriving DecidableEq, Repr

/-- One DMA channel. -/
structure Chan where
  /-- held descriptors, in ring order -/
  descs : List Desc := []
  /-- the table walk in progress (R218) -/
  walk : Option Walk := none
  /-- translated pages at hand (R227) -/
  xl : List Xl := []
  /-- bytes of an unfinished H2T frame -/
  data : List Byte := []
  /-- a frame is in progress -/
  inFrame : Bool := false
  /-- descriptors of the frame are only written back with this code, up to EOF (R224, R230) -/
  skip : Option Nat := none
  /-- descriptors with STAMP that a T2H frame has filled before its last cell, with those behind them (R223) -/
  full : List Desc := []
  /-- a stop has been carried out but for write-backs (R231) -/
  stopped : Bool := false
  /-- write-backs that wait for a translation: descriptor, DONE word and TS -/
  wb : List (Desc × Nat × Nat) := []
  /-- the frame (context and number) that a stop of the channel broke off: its further cells are discarded (R222) -/
  cut : Option (Nat × Nat) := none
  /-- the address that failed, and whether it was a descriptor access -/
  failed : Option (Nat × Bool) := none
  deriving DecidableEq, Repr

structure DmaS where
  /-- TLB entries, the most recently used last -/
  tlb : List TlbE := []
  /-- invalidations that are not done (R220) -/
  inv : List Inval := []
  /-- INV_SYNC reads that wait, with the epoch they wait for -/
  sync : List (Path × Nat) := []
  /-- channels by number -/
  chans : Tbl Chan := []
  /-- channels served last by the H2T and T2H engines -/
  lastH : Nat := 31
  lastT : Nat := 31
  /-- fault records of the register FIFO (R229) -/
  ff : List (List Byte) := []
  deriving DecidableEq, Repr


/-! ## Display (`11_display.md`) -/

/-- A received line at the DPO: its number, frame and stamp (ns), the bytes after the header, and the cells' bytes by their
offset in the line. -/
structure DpLine where
  line : Nat
  frame : Nat
  stamp : Nat
  bytes : Nat
  parts : Tbl (List Byte) := []
  deriving DecidableEq, Repr

/-- What the DPO makes of the cells that arrive: nothing yet, a line's cells (offset of the next cell), discarded ones of a
late or early line, or cells of a line without its FS cell. -/
inductive DpRx
  | none | line (frame line next : Nat) | drop | headless
  deriving DecidableEq, Repr

/-- An AUX request: I2C, read, address, length and data. -/
structure AuxReq where
  i2c : Bool
  read : Bool
  addr : Nat
  len : Nat
  data : List Byte
  deriving DecidableEq, Repr

structure DisplayS where
  /-- DPI: number of the video frame, and the last timing sent -/
  frame : Nat := 0
  sentTim : Option DpTiming := none
  /-- DPI: the DPCD bytes 0x100–0x2FF that the source wrote, and the EDID pointers -/
  dpcd : Tbl Nat := []
  seg : Nat := 0
  ofs : Nat := 0
  /-- the mirror of the monitor's DPCD 0x000–0x0FF and EDID, once loaded (R240) -/
  mirror : Option (List Byte × List Byte) := none
  /-- the level of the monitor's hot plug detect -/
  monHpd : Bool := false
  /-- the forwarded request, its answer, and whether its limit passed -/
  fwd : Option AuxReq := none
  ans : Option (Nat × List Byte) := none
  nack : Bool := false
  /-- DPO: trained, and the latest timing frame -/
  trained : Bool := false
  tim : Option DpTiming := none
  timFrame : Nat := 0
  timStamp : Nat := 0
  /-- line 0 of the latest timing's frame has arrived (R243) -/
  line0 : Bool := false
  /-- what the receiver of the DPO expects next -/
  rx : DpRx := .none
  /-- lines of the DPO that wait to be played, oldest first -/
  held : List DpLine := []
  /-- the line to be played next: frame and line; the last line's bytes; the last timing played -/
  next : Option (Nat × Nat) := none
  last : List Byte := []
  played : Option DpTiming := none
  /-- lines in a row within ±100 ns, and the DPLL's steering in ppm -/
  lockRun : Nat := 0
  ppm : Int := 0
  /-- black lines of a frame without a line (R239) -/
  blackFrame : Bool := false
  /-- the cameo screen's timeout has passed; when FORCE was last written 0 -/
  cameoDue : Bool := false
  forceOff : Option Nat := none
  /-- COMMIT waits for a frame start; the shown copy: colours and text words -/
  commit : Bool := false
  shown : Option (Nat × Nat × List Nat) := none
  /-- SETTLE has passed since MUX_SEL was driven -/
  settled : Bool := false
  deriving DecidableEq, Repr


/-! ## USB (`12_usb.md`) -/

/-- A transaction of a hub port that the crown has deferred (R259, R260). `kind`: 0 SETUP, 1 IN, 2 OUT. `res`: result code,
toggle and data. -/
structure Deferred where
  tag : Nat
  port : Nat
  addr : Nat
  ep : Nat
  typ : Nat
  kind : Nat
  data : List Byte := []
  mark : Nat := 0
  abandoned : Bool := false
  res : Option (Nat × Bool × List Byte) := none
  deriving DecidableEq, Repr

/-- A transaction that a pavilion runs on a PHY: its request, and the attempts without response. -/
structure PhyTr where
  phy : Nat
  tag : Nat
  addr : Nat
  ep : Nat
  typ : Nat
  kind : Nat
  mark : Nat
  data : List Byte
  tries : Nat := 0
  deriving DecidableEq, Repr

/-- A periodic endpoint: port (crown) or PHY (pavilion), address, endpoint and type; on the crown the data held, each with the
frame of its arrival, whether the next frame has no partner, and whether the device stalled it. -/
structure Periodic where
  port : Nat
  addr : Nat
  ep : Nat
  typ : Nat
  isIn : Bool
  tag : Nat
  held : List (Nat × Bool × List Byte) := []
  skip : Bool := false
  stall : Bool := false
  deriving DecidableEq, Repr

structure UsbS where
  /-- the interface enables of the service function in force: MGMT, ACM, DFU in bits 0–2 (R250) -/
  ifaces : Nat := 7
  /-- instant of the last bus reset of U0 -/
  resetAt : Option Nat := none
  /-- responses on EP1 IN that the host has not read -/
  mgmtWait : Bool := false
  /-- the function left the bus for the loader (R253) -/
  left : Bool := false
  hubRwake : Bool := false
  /-- when U0 and U1 were suspended, and a remote wake of a port that the hub is to signal (R255, R267) -/
  fnSusp : Nat := 0
  hubSusp : Nat := 0
  hubWake : Bool := false
  /-- tag of the next request -/
  nextTag : Nat := 0
  /-- crown: requests that wait for their answer -/
  deferred : List Deferred := []
  /-- crown: periodic endpoints (R262) -/
  periodic : List Periodic := []
  /-- ports whose PHY reports a device, and whose reset is not complete -/
  dev : List Nat := []
  resetting : List Nat := []
  /-- devices whose next token is answered as to an absent one (R265): port and address -/
  absent : List (Nat × Nat) := []
  /-- pavilion: transactions that run, toggles by PHY, address and endpoint (DATA1 listed), marked requests -/
  run : List PhyTr := []
  toggles : List (Nat × Nat × Nat) := []
  marks : List (Nat × Nat × Nat × Nat) := []
  /-- pavilion: periodic endpoints on its own schedule (R262) -/
  sched : List Periodic := []
  deriving DecidableEq, Repr


/-! ## Ethernet and station services (`13_station_services.md`) -/

/-- An entry of the duplicate table (R275): LRE, source MAC, sequence number, the ports it arrived on (bit mask), and the time
base in ns at its creation. -/
structure DupEntry where
  lre : Nat
  mac : Nat
  seq : Nat
  ports : Nat
  at_ : Nat
  deriving DecidableEq, Repr

/-- A publication that has sent a frame (R286–R288): repeats since the change, the t field, and the template with its members
set. -/
structure PubS where
  k : Nat := 0
  t : List Byte := []
  frame : List Byte := []
  deriving DecidableEq, Repr

structure StationS where
  /-- this chip's MAC address by Ethernet port -/
  mac : Tbl Nat := []
  /-- duplicate table, oldest first; sequence number of each LRE; node table: LRE, MAC, last seen; proxied MACs -/
  dup : List DupEntry := []
  redSeq : Tbl Nat := []
  nodes : List (Nat × Nat × Nat) := []
  proxy : List (Nat × Nat) := []
  /-- matched frames that wait for their checks: subscription, bytes, arrival stamp in quarter ns (R282) -/
  matched : List (Nat × List Byte × Nat) := []
  /-- bytes of a frame that arrives at point 12, SUB 0x2000 -/
  stnIn : List Byte := []
  /-- expiry times in quarter ns, of the subscriptions with a base -/
  expiry : Tbl Nat := []
  /-- access paths (by number) whose last select was PUB_SEL -/
  selPub : List Nat := []
  /-- templates of the publications -/
  tpl : Tbl (List Byte) := []
  /-- publications that run, by number -/
  pubs : Tbl PubS := []
  /-- the last transmit stamp of each PTP port and message type: sequence number and stamp; and ports in which a two-step Sync
  waits for its Follow_Up -/
  ptpTx : List (Nat × Nat × Nat × Nat) := []
  followUp : List Nat := []
  /-- grandmaster as engine 3 sees it -/
  gm : Nat := 0
  /-- staging ring of the scribe: kind (1 recorder record, 2 station event) and 64 bytes; sequence of the station events -/
  stage : List (Nat × List Byte) := []
  evSeq : Nat := 0
  /-- sequence and ring position of the next block; blocks written and not done -/
  blockSeq : Nat := 1
  blockPos : Nat := 0
  inFlight : List Nat := []
  /-- the root port reports no presence while a handover runs (R291) -/
  handover : Bool := false
  deriving DecidableEq, Repr


/-! ## Facet engines and the sieve (`14_facets_and_sieve.md`) -/

/-- A facet engine's hidden state. -/
structure EngS where
  /-- the request the engine has taken: the 16 words of IN -/
  req : Option (List Nat) := none
  /-- responses that wait for READY 0: the words of OUT, header first -/
  resp : List (List Nat) := []
  /-- times (s) of the crashes that R296 counts -/
  crashes : List Nat := []
  /-- elapsed time of the last crash -/
  crashAt : Option Nat := none
  deriving DecidableEq, Repr

/-- A frame that enters at a non-link point: the time in ns of its first bit, its ingress stamp (64-bit format), its
bytes, whether its length is not known when the sieve run starts, and for a received frame found bad, the cells of it that
had been queued by then (R271). -/
structure SvFrame where
  point : Nat
  sub : Nat
  ns : Nat
  stamp : Nat
  data : List Byte
  bad : Option Nat := none
  deriving DecidableEq, Repr

/-- A sieve run (R302–R305). `result`: 0 NE, 1 EQ, 2 GT, 3 LT. `over`: the run has ended, and whether its frame is
discarded. -/
structure SvRun where
  frame : SvFrame
  /-- the program as it was when the run started, the word it starts at, and L (R302) -/
  prog : List Nat
  base : Nat := 0
  len : Nat
  regs : List Nat
  pc : Nat := 0
  result : Nat := 0
  steps : Nat := 0
  tun : Option Nat := none
  tc : Option Nat := none
  fixed : Bool := false
  cm : Bool := false
  copies : List Nat := []
  stamps : List Nat := []
  ovr : Option Bool := none
  deriving DecidableEq, Repr

structure FacetS where
  /-- engines by number -/
  eng : Tbl EngS := []
  /-- SHA-384 of each engine's segment, recorded at B4 -/
  digest : Tbl (BitVec 384) := []
  /-- instruction store: words that are not zero -/
  imem : Tbl Nat := []
  /-- lookup entries that are not all zero: V, TID, KEY, VALUE (R306) -/
  entries : Tbl (Bool × Nat × Nat × Nat) := []
  /-- frames at bound points whose run has not started, in arrival order -/
  wait : List SvFrame := []
  /-- frames that adapters with flow control hold until the girdle can take them, in arrival order (R130) -/
  held : List SvFrame := []
  /-- runs by evaluator number, and the evaluators in the order in which their runs started -/
  runs : Tbl SvRun := []
  order : List Nat := []
  deriving DecidableEq, Repr


/-! ## Bezel power path (`15_bezel_power_path.md`) -/

/-- The bezel's hidden state.  Voltages are in mV, the sense voltage in µV, the dissipation in mW, energies in µJ. -/
structure BezelS where
  /-- inputs: voltage, and whether the input lies above VOR (R315) -/
  lineMv : Nat := 0
  auxMv : Nat := 0
  lineFwd : Bool := false
  auxFwd : Bool := false
  /-- the ramp has ended, so the gate is driven fully (R317) -/
  ramped : Bool := false
  /-- the present sense voltage, and the dissipation that the load asks of the FET -/
  vsns : Nat := 0
  fet : Nat := 0
  /-- the limit in force while the fault timer runs: 1 breaker, 2 power limit -/
  limit : Nat := 0
  /-- a latched fault: the state that followed it, 5 cool-off or 6 latched; 0 none (R323, R324) -/
  latched : Nat := 0
  /-- length of the running cool-off in µs (R323) -/
  coolUs : Nat := 0
  /-- energy count in µJ, and its fraction in pJ (R329) -/
  energy : Nat := 0
  energyPj : Nat := 0
  /-- the averages lie above I_WARN and P_WARN -/
  iOver : Bool := false
  pOver : Bool := false
  deriving DecidableEq, Repr


/-! ## Service port (`16_service_port.md`) -/

/-- The service port's hidden state. -/
structure ServiceS where
  /-- the CC logic has taken over from the dead-battery clamp (R335) -/
  up : Bool := false
  /-- messages of the receive FIFO, oldest first: SOP type and bytes -/
  fifo : List (Nat × List Byte) := []
  /-- MessageID received last and transmit counter, by SOP type (R340, R341) -/
  lastRx : Tbl Nat := []
  txId : Tbl Nat := []
  /-- the transmission in progress: SOP type and message; and whether it waits for the collision-avoidance delay -/
  tx : Option (Nat × List Byte) := none
  caWait : Bool := false
  /-- the source advertises SinkTxNG (R342) -/
  sinkNg : Bool := false
  /-- what CC1 and CC2 present, as `Out.cc` codes it; the clamp is an Rd on both (R333, R335) -/
  cc : Nat × Nat := (1, 1)
  /-- service level: 0 wait, 1 service, 2 service with update (R337) -/
  level : Nat := 0
  /-- the reduced service configuration, up to a warm reset (R337, R338) -/
  reduced : Bool := false
  deriving DecidableEq, Repr

/-! ## Power states (`17_power_states.md`) -/

/-- Idle and suspension of a port (R355, R356). -/
structure LinkIdle where
  /-- partial idle: only control slot 0 is sent -/
  idle : Bool := false
  /-- an IDLE_REQ of this end waits for its IDLE_ACK: target power state and apply cycle -/
  req : Option (Nat × Nat) := none
  /-- the far end asked for partial idle, and is answered when the queues are empty -/
  asked : Bool := false
  /-- suspension agreed from this cycle -/
  applyAt : Option Nat := none
  /-- the link is suspended (R356) -/
  suspended : Bool := false
  /-- a glint was sent or received; LOCK and 16 CYCLE messages are awaited -/
  resuming : Bool := false
  /-- the far end's power state, from its STATE messages -/
  farPower : Nat := 0
  deriving DecidableEq, Repr

/-- A rail script that runs (R365): the copy's words, the present entry, the FAIL flag, and whether a WAIT_US runs. -/
structure Script where
  words : List Nat
  pc : Nat := 0
  fail : Bool := false
  waiting : Bool := false
  deriving DecidableEq, Repr

structure PowerS where
  /-- a state of S2 or below is requested and not entered -/
  entryPending : Bool := false
  /-- an exit from a state of S2 or below runs (R351) -/
  exiting : Bool := false
  /-- the exit was started by a wake event (R351) -/
  woken : Bool := false
  /-- domains on at entry, and whether LINE was valid then (R351, R352) -/
  domsAtEntry : List Nat := []
  lineAtEntry : Bool := false
  /-- a wake source is pending -/
  wakePend : Bool := false
  /-- the core voltage held before S3 (R362) -/
  vBefore : Nat := 20
  /-- the held request, and the cause to record if the present attempt times out (R359, R360) -/
  vHeld : Option Nat := none
  vErr : Nat := 1
  /-- the boost bucket in 1/180 ms (R363) -/
  bucket : Nat := 10800000
  /-- the rail-script window: two copies as stored, and the window's words (R366) -/
  rsStore : Tbl Nat := []
  rsWin : Tbl Nat := []
  /-- the rail script that runs (R366) -/
  script : Option Script := none
  /-- the levels of RAIL_EN0–RAIL_EN3 -/
  railEn : Nat := 0
  deriving DecidableEq, Repr

/-! ## Link keys (`18_security.md`) -/

/-- A link key pair: transmit and receive key, generation, and the cycle of its first use. -/
structure KeyPair where
  tx : BitVec 256
  rx : BitVec 256
  gen : Nat
  first : Nat
  deriving DecidableEq, Repr

/-- Key state of a link (R376–R382). -/
structure LinkKey where
  /-- the key pair in force, and the next one -/
  cur : Option KeyPair := none
  next : Option KeyPair := none
  /-- switch cycle W, and whether this end switches at it -/
  w : Option Nat := none
  switches : Bool := false
  /-- this end is the initiator -/
  initiator : Bool := false
  /-- a replacement runs since this cycle, and waits for the agreement of the engines -/
  since : Option Nat := none
  readyFar : Bool := false
  /-- the KAT_CHAL data sent, and whether the far answer was right -/
  kat : Option Nat := none
  katOk : Bool := false
  /-- SWITCH_ACK came before the boundary of W − 2 (R379) -/
  acked : Bool := false
  /-- OLD_RELEASED sent and received -/
  relSent : Bool := false
  relFar : Bool := false
  /-- slots of W to W + 7 verified under the next key at an end that has not switched (R380) -/
  lateDue : Bool := false
  /-- a failed replacement waits for its retry (R381) -/
  retry : Bool := false
  deriving DecidableEq, Repr


/-! ## Keys and authorisation (`18_security.md`) -/

/-- A key-store slot (R373): its key and type, generation and state; the next key and its type; the former key while RETIRING;
an ERASE that waits for the retirement. -/
structure KeySlot where
  key : Nat := 0
  typ : Nat := 0
  gen : Nat := 0
  st : Nat := 0
  next : Option (Nat × Nat) := none
  former : Option Nat := none
  zeroised : Bool := false
  eraseDue : Bool := false
  deriving DecidableEq, Repr

/-- An open authorisation (R387): operation, key, data digest and the public key of its token. -/
structure Auth where
  op : Nat
  key : Nat
  digest : Nat
  pub : List Byte
  deriving DecidableEq, Repr

structure SecS where
  /-- key slots by number -/
  slots : Tbl KeySlot := []
  /-- the KEK is held (R369, R371) -/
  kek : Bool := false
  /-- the latest mesh sample mismatched (R371) -/
  meshMiss : Bool := false
  /-- the elapsed time of the last tamper event (R389) -/
  tamperAt : Option Nat := none
  /-- the elapsed time to which a used authorisation of ERASE_ALL still permits disarming (R387) -/
  disarm : Option Nat := none
  /-- the statement under signature (R384) -/
  att : List Byte := []
  /-- the challenge in force and the elapsed time of its reading (R386) -/
  chal : Option (List Nat × Nat) := none
  /-- the authorisation that is open (R387) -/
  auth : Option Auth := none
  /-- the elapsed time at which the open authorisation ends (R387) -/
  authBy : Nat := 0
  /-- a tamper event came before the recorder of this start ran: its record is due (R371) -/
  tamperDue : Bool := false
  /-- OTP words programmed since manufacture, and the words collected for PROGRAM (R387) -/
  otp : List (Nat × Nat) := []
  otpStage : List (Nat × Nat) := []
  /-- the rollback floor raised since manufacture (R399) -/
  rbRaised : Nat := 0
  deriving DecidableEq, Repr

/-! ## Start-up and field update (`19_startup_and_update.md`) -/

/-- Start-up, the ledger's mirror, the objects of the boot flash, and the update in progress. -/
structure BootS where
  /-- the WSI header (512 bytes) and payload in the flash; none where the header sector is erased -/
  image : Option (List Byte × List Byte) := none
  /-- programmed words of the configuration region; an unlisted word is erased (all ones) -/
  cfg : Tbl Nat := []
  /-- ledger mirror: records of sectors A and B in the order of writing, and whether B is the current one (R393) -/
  secA : List (List Byte) := []
  secB : List (List Byte) := []
  inB : Bool := false
  /-- SEQ of the last ledger update -/
  seq : Nat := 0
  /-- D0 lost power before this start, so B1 loads the ledger from the mirror -/
  cold : Bool := true
  /-- the last-words buffer or the key store lost its supply before this start (R370) -/
  lost : Bool := false
  /-- elapsed time of the last brown-out, and that of the last counted or noted step failure with its step (R408) -/
  brownAt : Option Nat := none
  failAt : Option (Nat × Nat) := none
  /-- B1 has run in this start -/
  b1 : Bool := false
  /-- every port is settled, so B7 has ended (R401) -/
  settled : Bool := false
  /-- time base (ns) at the entry into the present step -/
  stepAt : Nat := 0
  /-- the loader was entered from a running image (R402) -/
  fromRun : Bool := false
  /-- header and payload received so far -/
  staged : List Byte := []
  /-- a transfer over DFU, or over the service UART with the announced length, is staging -/
  dfu : Bool := false
  uart : Option Nat := none
  /-- DFU state and status, and the next wBlockNum (R405) -/
  dfuState : Nat := 2
  dfuStatus : Nat := 0
  dfuNext : Nat := 0
  /-- SEQ of the last service-UART frame and its answer: type, then data (R406) -/
  uartLast : Option (Nat × List Byte) := none
  /-- a write of the staged image runs: which attempt (R404) -/
  attempt : Nat := 0
  deriving DecidableEq, Repr


/-- The hidden state of one link port. -/
structure Port where
  /-- training -/
  tr : Train := {}
  /-- cycles, slots and epoch changes -/
  ep : Epoch := {}
  /-- link time -/
  tm : LinkTime := {}
  /-- keys -/
  key : LinkKey := {}
  /-- idle and suspension -/
  pw : LinkIdle := {}
  /-- 1040 mode: cells sent per class since ACTIVE, and the far end's freed counters (R75) -/
  sent1040 : Tbl Nat := []
  freed1040 : Tbl Nat := []
  /-- cells of each class this receiver has freed, for its own credit units -/
  own1040 : Tbl Nat := []
  /-- unit positions filled since the last credit unit (R75) -/
  since1040 : Nat := 0
  deriving DecidableEq, Repr

/-! ## What the block emits -/

/-- What the block sends or drives, in the order in which it does so.  The list is the model's own: the environment
reads it. -/
inductive Out
  /-- an access of a path completes: code 0x00 or an error code of R36, and the data read -/
  | complete (p : Path) (code : Nat) (data : Nat)
  /-- a read through PCI Express fails: Completer Abort (R37) -/
  | completerAbort
  /-- an access ends without a completion because of a reset (R46) -/
  | noCompletion (p : Path)
  /-- an MSPI response: start, status, data and CRC bytes (R51) -/
  | mspi (bytes : List Byte)
  /-- an MSI-X vector (R41, R42) -/
  | msix (vec : Nat)
  /-- an MSI-X vector of the NIC function (R233) -/
  | nicMsix (vec : Nat)
  /-- a management message to a chip: a register request (3) or answer (4), INT# state (5), a tree notice for the chip behind a port of
  that chip (6), or another notice -/
  | mgmt (chip : Nat) (kind : Nat) (args : List Nat)
  /-- a beacon on a link port: type and body -/
  | beacon (port : Nat) (kind : Nat) (body : List Nat)
  /-- a ROLE beacon with the decision -/
  | roleBeacon (port : Nat) (b : RoleBeacon) (decision : Nat)
  /-- one more whole glint pattern -/
  | glint (port : Nat)
  /-- a control slot: port, index, KEYSEL, active epoch, cycle number, units and trailer -/
  | ctlSlot (port slot keysel epoch cycno : Nat) (units : List CtlUnit) (trailer : Nat)
  /-- a data slot: port, slot index, cell as sent and trailer -/
  | slot (port slot : Nat) (c : Cell) (trailer : Nat)
  /-- a step notice to a chip of the scope: cycle and Δ (R185) -/
  | stepNotice (cycle : Nat) (delta : Int)
  /-- a fast output drives a level (R194) -/
  | fout (k : Nat) (level : Bool)
  /-- a cell leaves an adapter egress: point, context, cell -/
  | egress (point ctx : Nat) (c : Cell)
  /-- the TLP that egress point 3 is sending is nullified: ended with EDB and inverted LCRC (R140) -/
  | tlpNull
  /-- a completion to the host or the SSD: requester, tag, status (0 SC, 1 UR, 4 CA), data -/
  | cpl (reqId tag status : Nat) (data : List Nat)
  /-- a PCIe message or event: 1 ERR_NONFATAL or 5 ERR_FATAL of a function or port, 2 hot-plug event of a virtual port -/
  | pcieMsg (kind arg : Nat)
  /-- a far-bus transaction starts: chip select, LOCK_N low, write, address of the address phases -/
  | farbus (cs : Nat) (lock write : Bool) (addr : Nat)
  /-- the beats that a far-bus transaction ran: address, byte enables, data written -/
  | farBeats (cs : Nat) (beats : List (Nat × Nat × Nat))
  /-- a request goes to the far bus of another chip, through the LPB context that it names -/
  | farReq (b : FarBurst)
  /-- the answer of this chip's far bus to a request of another chip: context, number, whether more follow, cause (0 none), address, time, data -/
  | farAns (ctx tag : Nat) (more : Bool) (cause addr time : Nat) (data : List Nat)
  /-- a low-speed bridge message of a unit: kind, unit, bytes -/
  | lsio (kind unit : Nat) (bytes : List Byte)
  /-- data for a low-speed unit's pins: kind, unit, ARG of the message (command, dummy cycles and lane mode, or stop), bytes -/
  | unitTx (kind unit arg : Nat) (bytes : List Byte)
  /-- the GPIO pins: output levels, directions, open drain -/
  | gpio (out dir od : Nat)
  /-- a read of host memory: bus address, bytes, No Snoop -/
  | hostRead (addr len : Nat) (ns : Bool)
  /-- a write to host memory: bus address, bytes, No Snoop, Relaxed Ordering -/
  | hostWrite (addr : Nat) (bytes : List Byte) (ns rlx : Bool)
  /-- an AUX answer to the host's source: 0 ACK, 1 NACK, 2 DEFER; data -/
  | auxAns (status : Nat) (data : List Byte)
  /-- an AUX request that goes to the monitor's chip, or to the monitor -/
  | auxReq (r : AuxReq)
  /-- the DPI's HPD: 0 low, 1 high, 2 a low pulse of 0.75 ms -/
  | hpd (v : Nat)
  /-- the MUX_SEL balls -/
  | muxSel (v : Nat)
  /-- a line on the DPO's main link: 0 played, 1 repeated, 2 black; number and bytes -/
  | dpLine (kind line : Nat) (data : List Byte)
  /-- a cameo frame: timing, scale, block origin, colours, characters -/
  | cameo (t : DpTiming) (scale x y bg fg : Nat) (text : List Byte)
  /-- the hub function's answer to a host token behind port `p`: 0 ACK, 1 NAK, 2 STALL, 3 NYET, 4 data, 5 none -/
  | usbAns (p addr ep ans : Nat) (toggle : Bool) (data : List Byte)
  /-- a transaction of a PHY: address, endpoint, kind, toggle and data -/
  | usbTok (phy addr ep kind : Nat) (toggle : Bool) (data : List Byte)
  /-- a PHY sends SOF (0) or a keep-alive (1) with the frame number, reset (2), suspend (3) or resume (4) -/
  | usbPhy (phy what frame : Nat)
  /-- the hub's status-change endpoint reports a port (R256) -/
  | hubChange (p : Nat)
  /-- the service or hub function: 1 leaves the bus, 2 drives K on U0, 3 drives K on U1, 4 stalls a request -/
  | usbFn (what : Nat)
  /-- data on an IN endpoint of the service function -/
  | usbIn (ep : Nat) (data : List Byte)
  /-- RTS of a UART -/
  | uartRts (unit : Nat) (v : Bool)
  /-- a frame that the chip itself sends on an Ethernet port, at a class: publications, ring frames, supervision frames -/
  | ethTx (port tc : Nat) (data : List Byte)
  /-- the redundancy tag or trailer of the frame that starts on a port: mode, LanId or path, sequence number -/
  | lreTag (port mode lan seq : Nat)
  /-- the FCS that ends the frame a port sends, in place of its last four bytes, where the hub changed the frame as it left (R272) -/
  | ethFcs (port fcs : Nat)
  /-- an Ethernet frame ends with a stomped FCS -/
  | ethStomp (port : Nat)
  /-- a PTP message leaves: port, type, sequence number, stamp, correction in quarter ns; type 8 is a Follow_Up; with the clockClass that the
  Announce messages of the port carry (R280) -/
  | ptp (port typ seq stamp : Nat) (corr : Int) (cls : Nat)
  /-- a write of the scribe with FUA: logical block address and bytes -/
  | nvme (lba : Nat) (data : List Byte)
  /-- the scribe: 1 resets the controller and takes it, 2 sets CC.EN = 0 -/
  | scribe (what : Nat)
  /-- a PMBus write: device, command and data (R359, R365) -/
  | pmbus (dev cmd data : Nat)
  /-- a rail enable output (R365) -/
  | railEn (k : Nat) (level : Bool)
  /-- a PD message on CC: SOP type and bytes; a GoodCRC and a retry are messages too (R340, R341) -/
  | pdTx (sop : Nat) (msg : List Byte)
  /-- an ordered set sent twice: 0 Hard Reset, 1 Cable Reset (R343) -/
  | pdReset (kind : Nat)
  /-- what the port presents on CC1 and CC2: 0 open, 1 Rd, 2 Rp Default, 3 Rp 1.5 A (SinkTxNG), 4 Rp 3.0 A (SinkTxOK) (R333, R342) -/
  | cc (cc1 cc2 : Nat)
  /-- an answer frame of the service UART: type, sequence number and data, status first (R406) -/
  | svcUart (typ seq : Nat) (data : List Byte)
  /-- the DFU function's state and status after a request (R405) -/
  | dfu (state status : Nat)
  deriving DecidableEq, Repr


/-! ## The machine -/

/-- The state of one chip.  `words` holds every register word whose value differs from its reset value, in the
canonical form that `wordsWf` states; `pending` is the queue of waiting commands, first in, first out; `fresh` is the
model's own counter of free values; `out` is what the block has emitted. -/
structure State where
  words : Tbl Word := []
  pending : List Instr := []
  out : List Out := []
  fresh : Nat := 0
  chip : Chip := {}
  recd : Recorder := {}
  time : TimeS := {}
  ports : Tbl Port := []
  pwr : PowerS := {}
  evi : EviS := {}
  ctxs : Tbl CtxS := []
  quar : List Quar := []
  gird : GirdleS := {}
  sch : SchedS := {}
  brg : BridgeS := {}
  dma : DmaS := {}
  fac : FacetS := {}
  dp : DisplayS := {}
  usb : UsbS := {}
  stn : StationS := {}
  bzl : BezelS := {}
  svc : ServiceS := {}
  sec : SecS := {}
  boot : BootS := {}
  deriving DecidableEq, Repr

/-- The model has no fault: every command of the table has an effect.  The constructor is never raised; it stands so
that the type is inhabited. -/
inductive Fault
  | never
  deriving DecidableEq, Repr

/-- Why a command has no meaning. -/
inductive Refusal
  /-- not modelled yet; raised only by an arm of `exec` (safe: the machine stops) -/
  | notModelled (mnemonic : String)
  deriving DecidableEq, Repr

/-- The machine at a cold start, before step B0 has done anything: every register at its Reset column value, no
command waiting. -/
def State.reset : State := {}

end Sys2Proof.Machine
end

