-- ==== Sys2Proof/Machine/Ops.lean ====
section
/-!
DEFINITION. The named operations over tables, register words and fields, interrupts, life cycles, power domains,
register accesses and event records, which every meaning is written with.
-/

namespace Sys2Proof

/-! ## Fields of words -/

/-- The width of a field in bits. -/
def Fld.width (f : Fld) : Nat := f.hi + 1 - f.lo

/-- The field's value in a word. -/
def Fld.get (f : Fld) (w : Word) : Nat := (w.toNat >>> f.lo) % 2 ^ f.width

/-- The word with the field replaced by `v`, cut to the field's width. -/
def Fld.put (f : Fld) (v : Nat) (w : Word) : Word :=
  BitVec.ofNat 32
    (w.toNat % 2 ^ f.lo + (v % 2 ^ f.width) * 2 ^ f.lo + (w.toNat / 2 ^ (f.hi + 1)) * 2 ^ (f.hi + 1))

/-- Bits `[hi:lo]` of a number. -/
def Machine.bitsOf (w hi lo : Nat) : Nat := w / 2 ^ lo % 2 ^ (hi + 1 - lo)

/-- The same field in access path `p`'s bank of words (R106). -/
def Fld.onPath (f : Fld) (p : Path) : Fld := { f with addr := f.addr + 0x40000 * p.num }

/-- The value in force of an RWE or RWP field, which the register word does not show (R2, R6). -/
def Fld.inForce (f : Fld) : Fld := { f with addr := f.addr + 0x100000 }

end Sys2Proof

namespace Sys2Proof.Machine

open Host (Outcome)

/-! ## Tables -/

/-- The entry of a table, if there is one. -/
def tget? {α : Type} (t : Tbl α) (k : Nat) : Option α := (t.find? (fun e => e.1 == k)).map (·.2)

/-- The entry of a table, or `d`. -/
def tget {α : Type} (d : α) (t : Tbl α) (k : Nat) : α := (tget? t k).getD d

/-- The table without the entry. -/
def tdel {α : Type} (t : Tbl α) (k : Nat) : Tbl α := t.filter (fun e => e.1 != k)

/-- Insert an entry before the first greater key. -/
def tins {α : Type} (k : Nat) (v : α) : Tbl α → Tbl α
  | [] => [(k, v)]
  | e :: t => if k < e.1 then (k, v) :: e :: t else e :: tins k v t

/-- Set the entry of a table. -/
def tset {α : Type} (t : Tbl α) (k : Nat) (v : α) : Tbl α := tins k v (tdel t k)

/-- Change the entry of a table that holds `d` where nothing is listed. -/
def tmod {α : Type} (d : α) (t : Tbl α) (k : Nat) (f : α → α) : Tbl α := tset t k (f (tget d t k))

/-! ## Register words and fields -/

/-- The word at an address: a listed value, or the reset value (R8). -/
def wget (m : Tbl Word) (a : Nat) : Word := tget (dflt a) m a

/-- Write a word; a word equal to its reset value is not listed, so equal stores are equal data. -/
def wset (m : Tbl Word) (a : Nat) (v : Word) : Tbl Word :=
  if v = dflt a then tdel m a else tset m a v

/-- The keys rise strictly. -/
def tsorted {α : Type} : Tbl α → Bool
  | [] => true
  | [_] => true
  | a :: b :: t => a.1 < b.1 && tsorted (b :: t)

/-- The canonical form of the word store: rising addresses, and no entry equal to its reset value. -/
def wordsWf (m : Tbl Word) : Bool := tsorted m && m.all (fun e => e.2 != dflt e.1)

/-- Read a word of the state. -/
def State.word (s : State) (a : Nat) : Word := wget s.words a

/-- Write a word of the state. -/
def State.setWord (s : State) (a : Nat) (v : Word) : State := { s with words := wset s.words a v }

/-- Read a field. -/
def State.rd (s : State) (f : Fld) : Nat := f.get (s.word f.addr)

/-- Write a field. -/
def State.wr (s : State) (f : Fld) (v : Nat) : State := s.setWord f.addr (f.put v (s.word f.addr))

/-- A one-bit field as a truth value. -/
def State.on (s : State) (f : Fld) : Bool := s.rd f == 1

/-- Write a one-bit field. -/
def State.flag (s : State) (f : Fld) (b : Bool) : State := s.wr f b.toNat

/-- A counter that wraps at its width. -/
def State.inc (s : State) (f : Fld) (n : Nat := 1) : State := s.wr f (s.rd f + n)

/-- A counter that saturates. -/
def State.incSat (s : State) (f : Fld) : State :=
  s.wr f (if s.rd f + 1 < 2 ^ f.width then s.rd f + 1 else s.rd f)

/-- Bit `b` of a field. -/
def State.bit (s : State) (f : Fld) (b : Nat) : Bool := (s.rd f).testBit b

/-- Set or clear bit `b` of a field. -/
def State.setBit (s : State) (f : Fld) (b : Nat) (v : Bool) : State :=
  s.wr f (if v then s.rd f ||| 2 ^ b else s.rd f &&& (2 ^ f.width - 1 - 2 ^ b % 2 ^ f.width))

/-- Emit something. -/
def State.emit (s : State) (o : Out) : State := { s with out := s.out ++ [o] }

/-- A fresh free value (`Config.freeValue` of the counter, which advances). -/
def State.freshVal (s : State) : Nat × State := (Config.freeValue s.fresh, { s with fresh := s.fresh + 1 })

/-- Apply a change for every element of a list, in order. -/
def foldS {α : Type} (l : List α) (f : State → α → State) (s : State) : State := l.foldl f s

/-- Apply a change when a condition holds. -/
def State.when (s : State) (c : Bool) (f : State → State) : State := if c then f s else s

/-- A command's effect: every command completes (it never faults or is refused). -/
abbrev done (s : State) : Outcome State Fault Refusal := .next s

/-! ## Checksums -/

/-- One bit of a reflected CRC. -/
def crcBitR (poly : Nat) (c : Nat) : Nat := if c % 2 = 1 then (c / 2) ^^^ poly else c / 2

/-- One byte of CRC-32C (Castagnoli, reflected polynomial 0x82F6_3B78). -/
def crc32cByte (c : Nat) (b : Byte) : Nat :=
  (List.range 8).foldl (fun c _ => crcBitR 0x82F63B78 c) (c ^^^ b.toNat)

/-- CRC-32C: initial value and final XOR of all ones (R80). -/
def crc32c (bs : List Byte) : Nat := (bs.foldl crc32cByte 0xFFFFFFFF) ^^^ 0xFFFFFFFF

/-- One byte of CRC-32 (IEEE 802.3, reflected polynomial 0xEDB8_8320). -/
def crc32Byte (c : Nat) (b : Byte) : Nat := (List.range 8).foldl (fun c _ => crcBitR 0xEDB88320 c) (c ^^^ b.toNat)

/-- One byte of CRC-8 with polynomial 0x07 (R51). -/
def crc8Byte (c : Nat) (b : Byte) : Nat :=
  (List.range 8).foldl (fun c _ => if c ≥ 128 then ((c * 2) % 256) ^^^ 0x07 else c * 2) (c ^^^ b.toNat)

/-- CRC-8: initial value zero, no reflection, no final XOR (R51). -/
def crc8 (bs : List Byte) : Nat := bs.foldl crc8Byte 0

/-- One byte of CRC-16 with polynomial 0x1021. -/
def crc16Byte (c : Nat) (b : Byte) : Nat :=
  (List.range 8).foldl (fun c _ => if c ≥ 32768 then ((c * 2) % 65536) ^^^ 0x1021 else c * 2) (c ^^^ (b.toNat * 256))

/-- CRC-16 with an initial value. -/
def crc16 (init : Nat) (bs : List Byte) : Nat := bs.foldl crc16Byte init

/-- `n` bytes of a number, most significant first. -/
def beBytes (n v : Nat) : List Byte := (List.range n).map (fun i => BitVec.ofNat 8 (v / 256 ^ (n - 1 - i)))

/-- The number of a byte list, most significant first. -/
def beNat (bs : List Byte) : Nat := bs.foldl (fun a b => a * 256 + b.toNat) 0

/-- `n` bytes of a number, least significant first. -/
def leBytes (n v : Nat) : List Byte := (List.range n).map (fun i => BitVec.ofNat 8 (v / 256 ^ i))

/-- The frame with its FCS, the last four bytes, computed again (R272). -/
def fixFcs (b : List Byte) : List Byte :=
  let d := b.take (b.length - 4)
  d ++ (leBytes 4 (d.foldl crc32Byte 0xFFFFFFFF ^^^ 0xFFFFFFFF))

/-- The number of a byte list, least significant first. -/
def leNat (bs : List Byte) : Nat := bs.foldr (fun b a => a * 256 + b.toNat) 0

/-! ## Time -/

/-- The time base in nanoseconds since TAI zero (R172). -/
def State.now (s : State) : Nat := s.time.sec * 1000000000 + s.time.ns

/-- The 64-bit time format: seconds in [63:32], nanoseconds in [31:2], quarters in [1:0] (R172). -/
def time64 (ns : Nat) : Nat := (ns / 1000000000 % 2 ^ 32) * 2 ^ 32 + (ns % 1000000000) * 4

/-- The time base in the 64-bit time format. -/
def State.now64 (s : State) : Nat := time64 s.now

/-- Nanoseconds since D0 was powered: what waits and timers count, whatever the time base was set to. -/
def State.elapsed (s : State) : Nat := s.time.ran

/-- The cycle number: 125 µs cycles since TAI zero, modulo 2^32 (R76). -/
def State.cycle (s : State) : Nat := s.now / 125000 % 2 ^ 32

/-! ## Interrupts (R40, R41) and life cycles (R38, R39) -/

/-- The summary bit of a page: (PG_ISR AND PG_IER) is not zero (R40). -/
def State.summary (s : State) (p : Nat) : Bool :=
  s.word (PG_ISR p).addr &&& s.word (PG_IER p).addr != 0

/-- This chip is the crown. -/
def State.crown (s : State) : Bool := s.on SYS_TREE_POS_CROWN

/-- The page's byte of SYS.MSIX_MAP: vector and enable (R41). -/
def State.msixMap (s : State) (p : Nat) : Nat × Bool :=
  let w := (s.word (0x80 + 4 * (p / 4))).toNat / 256 ^ (p % 4)
  (w % 64, (w / 128) % 2 == 1)

/-- Send the page's vector, if it has one: the crown, with MSIX_EN and the page's enable (R41). -/
def State.sendMsix (s : State) (p : Nat) : State :=
  s.when (s.crown && s.on SYS_INT_CTRL_MSIX_EN && (s.msixMap p).2) (·.emit (.msix (s.msixMap p).1))

/-- The time of a record: the time base, or zero while it has never been set (R410). -/
def State.recTime (s : State) : Nat := if s.time.everSet then s.now64 else 0

/-- The trigger slot is enabled with this kind and source page or input. -/
def State.slotWatches (s : State) (kind a t : Nat) : Bool :=
  s.on (REC_TRG_CTRL_EN t) && s.rd (REC_TRG_CTRL_KIND t) == kind && s.rd (REC_TRG_CTRL_SRC_A t) == a

/-- Note that the sources of some slots have fired at this instant: the slots of one instant stand in ascending order
(R412, R416). -/
def State.sourceFires (s : State) (l : List (Nat × Nat)) : State :=
  let add := l.map (fun (e : Nat × Nat) =>
    ({ slot := e.1, source := e.2, time := s.recTime, valid := s.time.everSet && s.on TIME_SRC_STATUS_TIME_VALID, at_ := s.elapsed } : Trig))
  let old := s.recd.due
  let same := old.filter (fun t => t.at_ == s.elapsed)
  let ins := add.foldl (fun (l : List Trig) x => l.filter (fun t => t.slot ≤ x.slot) ++ [x] ++ l.filter (fun t => t.slot > x.slot)) same
  { s with recd := { s.recd with due := old.filter (fun t => t.at_ != s.elapsed) ++ ins } }

/-- PG_ISR bits of a page go from 0 to 1: the slots of KIND 0 that name them fire while the recorder is on (R412). -/
def State.isrFires (s : State) (p : Nat) (new : Word) : State :=
  if new = 0 ∨ s.rd (PG_STATE_LIFE 8) ≠ 2 then s
  else s.sourceFires (((List.range 64).filter (fun t =>
    s.slotWatches 0 p t && decide (s.rd (REC_TRG_CTRL_SRC_B t) < 32) && new.getLsbD (s.rd (REC_TRG_CTRL_SRC_B t)))).map
    (fun t => (t, 256 * p + s.rd (REC_TRG_CTRL_SRC_B t))))

/-- The value of SYS.INT_SUMMARY word `w` (R40). -/
def State.intSummary (s : State) (w : Nat) : Nat :=
  (List.range 32).foldl (fun a i => if s.summary (32 * w + i) then a + 2 ^ i else a) 0

/-- The chip's INT# condition (R40). -/
def State.intPin (s : State) : Bool :=
  s.on SYS_INT_CTRL_INT_EN && (List.range 64).any (fun p => s.summary p)

/-- A numbered pavilion whose INT# condition has changed from that of `old` tells the crown (R42). -/
def State.intReport (s old : State) : State :=
  s.when (!s.crown && s.rd SYS_TREE_POS_CHIP != 0 && (s.on SYS_INT_CTRL_INT_EN || old.on SYS_INT_CTRL_INT_EN) &&
    s.intPin != old.intPin) (·.emit (.mgmt 0 5 [s.intPin.toNat]))

/-- Write a word of PG_ISR or PG_IER and send the vector on a 0-to-1 change of the summary bit (R40, R41). -/
def State.setInt (s : State) (p : Nat) (a : Nat) (v : Word) : State :=
  let t := (s.setWord a v).when (a == (PG_ISR p).addr) (·.isrFires p (v &&& ~~~ s.word a))
  (t.when (!s.summary p && t.summary p) (·.sendMsix p)).intReport s

/-- What events have done at the present instant. -/
def State.instant (s : State) : Instant := if s.recd.inst.at_ = s.elapsed then s.recd.inst else { at_ := s.elapsed }

/-- Note that an event sets bits of a word of W1C bits at this instant (R3). -/
def State.noteBits (s : State) (a m : Nat) : State :=
  { s with recd := { s.recd with inst := { s.instant with bits := tmod 0 s.instant.bits a (· ||| m) } } }

/-- The bits of a word that events have set at this instant: a write of the same instant does not clear them (R3). -/
def State.keptBits (s : State) (a : Nat) : Nat := tget 0 s.instant.bits a

/-- An event sets bit `b` of a W1C field. -/
def State.eventBit (s : State) (f : Fld) (b : Nat) : State := (s.setBit f b true).noteBits f.addr (2 ^ (f.lo + b))

/-- Set bits of PG_ISR. -/
def State.setIsr (s : State) (p : Nat) (m : Nat) : State :=
  s.setInt p (PG_ISR p).addr (s.word (PG_ISR p).addr ||| BitVec.ofNat 32 m)

/-- Set bits of PG_ISR by an event. -/
def State.raiseMask (s : State) (p : Nat) (m : Nat) : State := (s.noteBits (PG_ISR p).addr m).setIsr p m

/-- Set one bit of PG_ISR by an event. -/
def State.raise (s : State) (p : Nat) (b : Nat) : State := s.raiseMask p (2 ^ b)

/-- LIFE codes of PG_STATE. -/
def lifeOff : Nat := 0
def lifeStarting : Nat := 1
def lifeOn : Nat := 2
def lifeStopping : Nat := 3
def lifeFault : Nat := 4

/-- Set PG_STATE.LIFE; a change sets PG_ISR.LIFE (R39). -/
def State.setLife (s : State) (p : Nat) (v : Nat) : State :=
  if s.rd (PG_STATE_LIFE p) = v then s else (s.wr (PG_STATE_LIFE p) v).raise p 30

/-- The page has an enableable function (PG_CAP.LIFE_IMPL).  NVS shows it on a pavilion only; ATU and DMA on a crown
only (R215). -/
def State.lifeImpl (s : State) (p : Nat) : Bool :=
  (pgIdCap p).2.testBit 31 && !(p == 38 && s.crown) && !((p == 23 || p == 24) && !s.crown)

/-- The page's function is ON. -/
def State.isOn (s : State) (p : Nat) : Bool := s.rd (PG_STATE_LIFE p) == lifeOn

/-- A fault or wedge takes LIFE to FAULT and clears EN_PENDING (R38). -/
def State.functionFault (s : State) (p : Nat) : State := (s.setLife p lifeFault).flag (PG_STATE_EN_PENDING p) false

/-! ## Power domains (R20–R22) -/

/-- The domain of a page's block-specific registers (R34); for FAC, which lies in D13 and D14, the first of the two. -/
def pageDom (p : Nat) : Nat :=
  if p = 3 ∨ p = 4 then 2
  else if p = 9 then 15
  else if p = 11 then 13
  else if p ≤ 10 then 0
  else if p ≤ 15 then 3
  else if p ≤ 18 then p - 10
  else if p ≤ 21 then p - 13
  else if p ≤ 26 ∨ p = 38 then 9
  else if p = 27 ∨ p = 28 then 10
  else if p = 29 ∨ p = 30 then 12
  else if p ≤ 37 then 11
  else 0

/-- The domains that hold a page's block-specific registers (R34). -/
def pageDoms (p : Nat) : List Nat := if p = 11 then [13, 14] else [pageDom p]

/-- The prerequisites of a domain (*Power domains*). -/
def domPrereqs (d : Nat) : List Nat :=
  if d = 0 then [2] else if d = 1 ∨ d = 2 then [] else if d = 3 ∨ d = 4 ∨ d = 5 then [0]
  else if d = 6 ∨ d = 7 ∨ d = 8 ∨ d = 11 then [3, 13] else if d = 9 ∨ d = 13 ∨ d = 14 then [3]
  else if d = 10 ∨ d = 12 then [3, 14] else if d = 15 then [0, 1] else []

/-- The domains that list `d` as a prerequisite. -/
def domDependants (d : Nat) : List Nat := (List.range 16).filter (fun e => (domPrereqs e).contains d)

def State.dom (s : State) (d : Nat) : DomSt := tget {} s.chip.doms d

def State.setDom (s : State) (d : Nat) (v : DomSt) : State :=
  { s with chip := { s.chip with doms := tset s.chip.doms d v } }

/-- The domain is on and ready. -/
def State.domOn (s : State) (d : Nat) : Bool := (s.dom d).phase == .on

/-- The pages whose block-specific registers lie in a domain. -/
def domPages (d : Nat) : List Nat :=
  (List.range 39).filter (fun p => (pageDoms p).contains d)

/-- A domain becomes ready or not: DOMAIN_UP of each of its pages is 1 while every domain of the page is ready. -/
def State.setDomainUp (s : State) (d : Nat) (v : Bool) : State :=
  foldS (domPages d) (fun s p => s.flag (PG_STATE_DOMAIN_UP p) (v && (pageDoms p).all (fun e => e == d || s.domOn e))) s

/-- Start powering a domain whose prerequisites are on, or note that it waits for them (R20). -/
def State.domBegin (s : State) (d : Nat) : State :=
  s.setDom d { s.dom d with phase := if (domPrereqs d).all s.domOn then .rising else .waiting, offHeld := false }

/-- A request to switch on one domain, its prerequisites taken as requested already (R20, R22); after a thermal shutdown D3–D15
stay off (R33). -/
def State.domRequestOne (s : State) (d : Nat) : State :=
  if s.chip.thermalOff && d ≥ 3 then s else
  match (s.dom d).phase with
  | .off => s.domBegin d
  | .falling => s.setDom d { s.dom d with onPending := true }
  | .on => s.setDom d { s.dom d with offHeld := false }
  | _ => s

/-- A request to switch on a domain first switches on its prerequisites that are off (R20).  No domain of the table
lies more than three prerequisites deep. -/
def State.domRequest (s : State) (d : Nat) : State :=
  let l1 := domPrereqs d
  let l2 := l1.flatMap domPrereqs
  let l3 := l2.flatMap domPrereqs
  foldS ((l3 ++ l2 ++ l1) ++ [d]) (fun s e => if s.domOn e then s else s.domRequestOne e) s |>.domRequestOne d

/-- The switch-off of a domain starts: its blocks are no longer ready. -/
def State.domFall (s : State) (d : Nat) : State :=
  (s.setDom d { s.dom d with phase := .falling, offHeld := false }).setDomainUp d false

/-- Is some dependant of the domain not off? (R21) -/
def State.domHasDependants (s : State) (d : Nat) : Bool :=
  (domDependants d).any (fun e => (s.dom e).phase == .on || (s.dom e).phase == .rising || (s.dom e).phase == .falling)

def State.port (s : State) (n : Nat) : Port := tget {} s.ports n

def State.modPort (s : State) (n : Nat) (f : Port → Port) : State := { s with ports := tmod {} s.ports n f }

/-! ## Boot ledger (R393) -/

def State.modBoot (s : State) (f : BootS → BootS) : State := { s with boot := f s.boot }

/-- The step that the start has reached. -/
def State.step_ (s : State) : Nat := s.rd BOOT_STATUS_STEP

/-- Bytes 0–59 of the ledger record (*Ledger record*). -/
def State.ledgerBody (s : State) : List Byte :=
  beBytes 4 0x574C4447 ++ beBytes 4 s.boot.seq ++ beBytes 1 s.step_ ++ beBytes 1 (s.rd BOOT_LEDGER_LAST_FAIL_STEP) ++
  beBytes 1 (s.rd BOOT_LEDGER_LAST_FAIL_CODE) ++ beBytes 1 (s.rd BOOT_LEDGER_LAST_FLAGS) ++
  beBytes 1 (s.rd BOOT_LEDGER_CNT_CNT_A) ++ beBytes 1 (s.rd BOOT_LEDGER_CNT_CNT_B) ++
  beBytes 1 (s.rd BOOT_LEDGER_CNT_CNT_C) ++ beBytes 1 (s.rd BOOT_STATUS_ALT) ++ beBytes 4 (s.rd BOOT_POWER_CYCLES) ++
  beBytes 4 (s.rd BOOT_OP_SECONDS) ++ beBytes 4 (s.rd BOOT_FAIL_TIME_HI) ++ beBytes 4 (s.rd BOOT_FAIL_TIME_LO) ++
  beBytes 4 (s.rd BOOT_IMG_VERSION) ++ beBytes 1 (s.rd BOOT_IMG_INFO_RB_INDEX) ++ List.replicate 23 0

/-- Update the ledger: the next SEQ, and the record appended to the current mirror sector; when that is full, the other sector is
erased first and takes it (R393). -/
def State.ledgerUpdate (s : State) : State :=
  let s := s.modBoot (fun b => { b with seq := (b.seq + 1) % 2 ^ 32 })
  let r := s.ledgerBody ++ beBytes 4 (crc32c s.ledgerBody)
  s.modBoot (fun b =>
    if b.inB then
      if b.secB.length < 64 then { b with secB := b.secB ++ [r] } else { b with secA := [r], inB := false }
    else if b.secA.length < 64 then { b with secA := b.secA ++ [r] } else { b with secB := [r], inB := true })

/-- Set the FLAGS byte of the ledger, with the bits of BOOT_STATUS that show it. -/
def State.setFlags (s : State) (v : Nat) : State :=
  ((s.wr BOOT_LEDGER_LAST_FLAGS v).flag BOOT_STATUS_HALT (v.testBit 1)).flag BOOT_STATUS_NO_KEYS (v.testBit 2)

/-- Set or clear bit `k` of the FLAGS byte. -/
def State.setFlagBit (s : State) (k : Nat) (b : Bool) : State :=
  let v := s.rd BOOT_LEDGER_LAST_FLAGS
  s.setFlags (if b then v ||| 2 ^ k else v &&& (255 - 2 ^ k))

/-- Enter a step of the start: the duration of the step before it is noted, and from B2 on the ledger is updated (R393). -/
def State.enterStep (s : State) (n : Nat) : State :=
  let ms := (s.elapsed - s.boot.stepAt) / 1000000
  let s := s.when (decide (s.step_ < n)) (·.wr (BOOT_STEP_MS s.step_) (min ms 65535))
  let s := (s.wr BOOT_STATUS_STEP n).modBoot (fun b => { b with stepAt := s.elapsed })
  s.when (decide (n ≥ 2)) (·.ledgerUpdate)

/-- A start in HALT goes on from B2 on WAKE# or the return of LINE (R395). -/
def State.haltEnd (s : State) : State := (s.setFlagBit 1 false).enterStep 2

/-! ## Wake events (R351, R352) -/

/-- A suspended link is resumed by a glint (R356). -/
def State.resumeLink (s : State) (n : Nat) : State :=
  s.when ((s.port n).pw.suspended && !(s.port n).pw.resuming)
    (fun s => (s.emit (.glint n)).modPort n (fun p => { p with pw := { p.pw with resuming := true } }))

/-- The exit from a state starts: every domain that was on at entry is requested, and the suspended links are resumed (R351, R356). -/
def State.exitBegin (s : State) : State :=
  let s := { s with pwr := { s.pwr with exiting := true } }
  let s := foldS s.pwr.domsAtEntry (fun s d => s.domRequest d) s
  foldS [0, 1, 2] (fun s n => s.resumeLink n) s

/-- The bit of PWR.WAKE_EN of a wake cause, if it has one: 1 link, 2 glint, 3 CC, 4 EVI, 5 WAKE#, 6 alarm, 7 LINE, 9 SEAT;
8, a register access, has none. -/
def wakeEnabled (s : State) (cause : Nat) : Bool :=
  cause == 8 || s.bit PWR_WAKE_EN_SRC (if cause = 9 then 7 else cause - 1)

/-- A wake event of a source.  DEDUCED (log entry 148): WAKE_CAUSE, PG_ISR.WAKE and TARGET follow the event itself, and a wake in S1
takes back a deeper state that is requested and not entered.  In S5 only WAKE#, LINE and a register access act.  The first cause starts the exit: every
domain that was on at entry is requested, and the suspended links are resumed; the exit from S5 is a start from B2 (R351, R352,
R356).  In HALT, WAKE# and the return of LINE let the start go on (R395). -/
def State.wakeBy (s : State) (cause : Nat) : State :=
  let st := s.rd PWR_PS_STATUS_STATE
  if st = 0 then
    let s := s.when (s.on BOOT_STATUS_HALT && (cause == 5 || cause == 7)) (·.haltEnd)
    s.when (s.pwr.entryPending && wakeEnabled s cause) (fun s => { s with pwr := { s.pwr with wakePend := true } })
  else if s.pwr.exiting then s
  else if (if st = 5 then cause == 5 || cause == 7 || cause == 8 else wakeEnabled s cause) then
    let s := (s.wr PWR_PS_STATUS_WAKE_CAUSE cause).wr PWR_PS_CTRL_TARGET 0
    let s := s.when (st == 5) (·.enterStep 2)
    let s := { s with pwr := { s.pwr with woken := true, entryPending := false } }
    s.exitBegin.raise 1 2
  else s

/-! ## Event records (`20_event_recorder.md`) -/

/-- The next sequence number: 1 to 0xFFFF_FFFE, then 1 (R409). -/
def seqNext (n : Nat) : Nat := if n ≥ 0xFFFFFFFE then 1 else n + 1

/-- The bytes 0–59 of a record (*Record layout*). -/
def recBody (r : Rec) : List Byte :=
  beBytes 4 r.seq ++ beBytes 1 r.typ ++ beBytes 1 r.snap.length ++ beBytes 2 r.flags ++ beBytes 4 r.opSec ++
  beBytes 4 r.cycles ++ beBytes 8 r.time ++ beBytes 2 r.trigId ++ beBytes 2 r.source ++
  (r.snap.flatMap (fun (e : Nat × Nat) => beBytes 2 e.1 ++ beBytes 4 e.2) ++ r.tail ++ List.replicate 32 0).take 32

/-- The 64 bytes of a record, its CRC-32C last. -/
def recBytes (r : Rec) : List Byte := recBody r ++ beBytes 4 (crc32c (recBody r))

/-- Word `k` of a record, most significant byte first. -/
def recWord (r : Rec) (k : Nat) : Nat := beNat (((recBytes r).drop (4 * k)).take 4)

/-- A side-effect-free read of a word, or none where its domain is off or its block is wedged (R413). -/
def State.peek (s : State) (a : Nat) : Option Nat :=
  let p := a / 0x1000
  if a % 0x1000 < 0x40 then some (s.word a).toNat
  else if ¬ s.on (PG_STATE_DOMAIN_UP p) ∨ s.on (PG_STATE_WEDGED p) then none
  else if a = 0x40 then some (s.intSummary 0)
  else if a = 0x44 then some (s.intSummary 1)
  else some (s.word a).toNat

/-- The distance from SEQ `a` on to SEQ `b`. -/
def seqDist (a b : Nat) : Nat := (b + 0xFFFFFFFE - a) % 0xFFFFFFFE

/-- The records of the ring that wait for the flush: their SEQ is not below FLUSHED_SEQ (R417). -/
def State.waiting (s : State) : List Rec :=
  let f := s.rd REC_FLUSHED_SEQ
  (s.recd.ring.map (·.2)).filter (fun r => seqDist f r.seq < seqDist f (s.rd REC_HEAD_SEQ))

/-- A record enters the ring under the next SEQ (R409); an unflushed record that it overwrites is counted (R419); a record of the final
commit also enters the last-words buffer of four (R420).  FLUSH_THR waiting records start a flush (R417). -/
def State.enterRing (s : State) (r : Rec) : State :=
  let n := s.rd REC_HEAD_SEQ
  let pos := n % 1024
  let r := { r with seq := n }
  let s1 := match tget? s.recd.ring pos with
    | none => s
    | some old =>
      let s := s.when (old.seq == s.rd REC_OLDEST_SEQ) (·.wr REC_OLDEST_SEQ (seqNext old.seq))
      s.when (old.seq == s.rd REC_FLUSHED_SEQ)
        (fun s => ((s.wr REC_FLUSHED_SEQ (seqNext old.seq)).inc REC_OVERRUN).raise 8 2)
  let lw := if r.flags.testBit 3 then (s1.recd.lastWords ++ [r]).drop (s1.recd.lastWords.length - 3) else s1.recd.lastWords
  let s2 := { s1 with recd := { s1.recd with ring := tset s1.recd.ring pos r, lastWords := lw, flushTimer := true } }
  let s3 := (s2.wr REC_HEAD_SEQ (seqNext n)).raise 8 0
  s3.when (decide (s3.waiting.length ≥ s3.rd REC_CTRL_FLUSH_THR) && s3.recd.flushTo.isNone)
    (fun s => { s with recd := { s.recd with flushTo := some (s.rd REC_HEAD_SEQ) } })

/-- A record or chain is in progress that goes before a system record of now: one with a record in the ring already, or triggered at
another instant (R416). -/
def State.runFirst (s : State) : Bool := s.recd.run.any (fun x => decide (x.pos > 0) || x.next.isSome || x.trig.at_ != s.elapsed)

/-- A record is written: at once, or after the chain in progress (R416, R424). -/
def State.putRecord (s : State) (r : Rec) : State :=
  if s.runFirst then { s with recd := { s.recd with held := s.recd.held ++ [r] } } else s.enterRing r

/-- A record of the present instant, with the snapshot words read without side effects (R409, R413). -/
def State.mkRecord (s : State) (typ flags trig source : Nat) (idx : List Nat) : Rec :=
  let vals := idx.map (fun i => s.peek (4 * i))
  let miss := (List.range idx.length).foldl (fun a i => if (vals.getD i none).isNone then a + 2 ^ (8 + i) else a) 0
  { seq := 0, typ := typ, flags := flags + miss + (if s.time.everSet && s.on TIME_SRC_STATUS_TIME_VALID then 4 else 0),
    opSec := s.rd BOOT_OP_SECONDS, cycles := s.rd BOOT_POWER_CYCLES, time := s.recTime, trigId := trig,
    source := source, snap := (idx.zip vals).map (fun (e : Nat × Option Nat) => (e.1, e.2.getD 0)) }

/-- A system record, written whatever EN is and ahead of pending triggers (R411, R415). -/
def State.sysRecord (s : State) (typ trig source : Nat) (idx : List Nat) : State :=
  s.putRecord (s.mkRecord typ 0 trig source idx)

/-- Put a record of the final commit behind those of other instants and of lower types of its own: brown-out (2), thermal shutdown (3),
wedge (4) (R32). -/
def finalInsert (n : Nat) (r : Rec) (l : List (Nat × Rec)) : List (Nat × Rec) :=
  let before (e : Nat × Rec) : Bool := e.1 != n || e.2.typ ≤ r.typ
  l.filter before ++ [(n, r)] ++ l.filter (fun e => !before e)

/-- A record of the final commit, which then runs: the record, read now, is written when the commit ends (R29, R32, R420). -/
def State.finalRecord (s : State) (typ trig source : Nat) (idx : List Nat) : State :=
  { s with recd := { s.recd with final := finalInsert s.elapsed (s.mkRecord typ 8 trig source idx) s.recd.final },
           chip := { s.chip with finalRun := true } }

/-- The word index of a register. -/
def wIdx (f : Fld) : Nat := f.addr / 4

/-! ## Register accesses (R35–R37, R43, R53) -/

/-- Note the first rejected access of a page at this instant, which a clear of the same instant leaves captured (R36). -/
def State.noteReject (s : State) (page code path word data : Nat) : State :=
  if (tget? s.instant.rejects page).isSome then s
  else { s with recd := { s.recd with inst := { s.instant with rejects := tset s.instant.rejects page (code, path, word, data) } } }

/-- Fill PG_ERRCAP and PG_ERRVAL. -/
def State.putCapture (s : State) (page code path word data : Nat) : State :=
  ((((s.wr (PG_ERRCAP_CODE page) code).wr (PG_ERRCAP_IF page) path).wr (PG_ERRCAP_MORE page) 0).wr
    (PG_ERRCAP_WORD page) word).wr (PG_ERRVAL page) data

/-- Capture a rejected access, or a failed window commit, in PG_ERRCAP and PG_ERRVAL; while they hold one (CODE is not zero) only MORE is
set (R36). -/
def State.capture (s : State) (page : Nat) (p : Path) (code word data : Nat) : State :=
  let s := s.noteReject page code p.num word data
  (if s.rd (PG_ERRCAP_CODE page) ≠ 0 then s.flag (PG_ERRCAP_MORE page) true else s.putCapture page code p.num word data).raise page 29

/-- The response part of an MSPI frame (R51). -/
def mspiFrame (status data : Nat) : List Byte :=
  let b := beBytes 1 status ++ beBytes 4 data
  beBytes 1 0xA5 ++ b ++ beBytes 1 (crc8 b)

/-- The response record to a management record (R251). -/
def mgmtResponse (r : List Byte) (status data : Nat) : List Byte :=
  beBytes 1 (beNat (r.take 1) + 0x80) ++ beBytes 1 status ++ ((r.drop 2).take 6) ++ beBytes 4 data ++ beBytes 4 0

/-- Who made the access through a frame, a record or another chip gets the answer (R50, R51, R251). -/
def Chip.answered (c : Chip) (p : Path) (a code data : Nat) : Chip × List Out :=
  let mine (x : Acc) : Bool := x.path == p && x.addr == a
  let asked := c.agent.find? (fun e => mine e.2.2)
  ({ c with
      mspi := c.mspi.eraseP (fun x => mine x.1)
      mgmt := match c.mgmt with
        | r :: l => if r.acc.any mine then
            { r with acc := none, left := r.left.drop 1, resp := r.resp ++ mgmtResponse (r.left.headD []) code data } :: l
          else r :: l
        | [] => []
      agent := match asked with
        | some e => c.agent.erase e
        | none => c.agent },
   (if (c.mspi.find? (fun x => mine x.1)).any (·.2) then [.mspi (mspiFrame code data)] else []) ++
     (match asked with
      | some (chip, id, _) => [.mgmt chip 4 [id, code, data]]
      | none => []))

/-- What a path reports of an access that has ended with a code (*Access paths*): PCI Express answers a failed read by Completer Abort
and reports nothing of a failed write. -/
def pathReport (p : Path) (w : Bool) (code data : Nat) : Out :=
  if p = .pcie ∧ code ≠ 0 then (if w then .complete p 0 0 else .completerAbort) else .complete p code data

/-- An access of a path to a word, a write (`w`) or a read, completes with a code and data. -/
def State.complete (s : State) (p : Path) (a : Nat) (w : Bool) (code data : Nat) : State :=
  let r := s.chip.answered p a code data
  { s with chip := r.1, out := s.out ++ [pathReport p w code data] ++ r.2 }

/-- A write is rejected: nothing changes, the access is captured and the path reports the code (R36, R37). -/
def State.reject (s : State) (p : Path) (a code data : Nat) : State :=
  (s.capture (a / 0x1000) p code (a % 0x1000 / 4) data).complete p a true code 0

/-- A read is rejected: it is captured and returns zero (R36, R37). -/
def State.rejectRead (s : State) (p : Path) (a code : Nat) : State :=
  (s.capture (a / 0x1000) p code (a % 0x1000 / 4) 0).complete p a false code 0

/-- An access is rejected. -/
def State.rejectAcc (s : State) (x : Acc) (code : Nat) : State :=
  if x.isWrite then s.reject x.path x.addr code x.data else s.rejectRead x.path x.addr code

/-- A write completes. -/
def State.wrote (s : State) (p : Path) (a : Nat) : State := s.complete p a true 0 0

/-- A read completes with its data. -/
def State.readBack (s : State) (p : Path) (a v : Nat) : State := s.complete p a false 0 v

/-- An access waits, in issue order. -/
def State.wait (s : State) (x : Acc) : State := { s with chip := { s.chip with stalled := s.chip.stalled ++ [x] } }

/-- An access to a page whose domain is off switches the domain on, wakes the chip, and stalls (R53, R352). -/
def State.stall (s : State) (x : Acc) : State :=
  (foldS (pageDoms (x.addr / 0x1000)) (fun s d => s.domRequest d) (s.wakeBy 8)).wait x

/-- Reads that wait within a block: FENCE and INV_SYNC. -/
def State.heldReads (s : State) (page : Nat) : List Acc :=
  if page = 25 then s.brg.fence.map (fun e => ⟨e.1, LPB_FENCE_FAILS.addr, false, 0⟩)
  else if page = 23 then s.dma.sync.map (fun e => ⟨e.1, ATU_INV_SYNC_EPOCH.addr, false, 0⟩)
  else []

/-- The accesses to a page that have not ended. -/
def State.open_ (s : State) (page : Nat) : List Acc :=
  s.chip.stalled.filter (fun x => x.addr / 0x1000 == page) ++ s.heldReads page

/-- Run an access when its page can take it: without D0 there is no access, an access waits behind an earlier one of its path to the page
(R43), a wedged block answers code 0x05 (R17), a sleeping domain stalls the access (R53). -/
def State.gate (s : State) (x : Acc) (k : State → State) : State :=
  let page := x.addr / 0x1000
  if !s.chip.d0Up then s
  else if (s.open_ page).any (fun y => y.path == x.path) then s.wait x
  else if x.addr % 0x1000 < 0x40 then k s
  else if s.on (PG_STATE_WEDGED page) then s.rejectAcc x 5
  else if s.on (PG_STATE_DOMAIN_UP page) then k s
  else s.stall x

/-- The watch register that records an applied write to a word: a register that names the word, or for a WATCH register itself
its own number (R388). -/
def State.watchOf (s : State) (a : Nat) : Option Nat :=
  if 0x91C0 ≤ a ∧ a < 0x9240 then some ((a - 0x91C0) / 4)
  else (List.range 32).find? (fun w => s.on (SEC_WATCH_EN w) && s.rd (SEC_WATCH_WORD w) == a / 4)

/-- An applied write takes the state `s` to `t`; on a watched word it is recorded with the old and the new value (R388). -/
def State.applied (s t : State) (p : Path) (a : Nat) : State :=
  match s.watchOf a with
  | none => t
  | some w =>
    let r := t.mkRecord 7 0 w p.num []
    (t.putRecord { r with snap := [(a / 4, (s.word a).toNat), (a / 4, (t.word a).toNat)] }).raise 9 4

/-- A write of one command bit, with the other fields of the word as they stand: checked first, then acting; or rejected whole with the
check's code (R443). -/
def State.command (s : State) (p : Path) (f : Fld) (chk : State → Nat) (act : State → State) : State :=
  let a := f.addr % 0x40000
  let v := (s.word a).toNat ||| 2 ^ f.lo
  s.gate ⟨p, a, true, v⟩ (fun s => if chk s = 0 then (s.applied (act s) p a).wrote p a else s.reject p a (chk s) v)

/-- A command bit of a register word: its field, its check (0 or the code of a rejection) and its effect. -/
structure Cmd where
  fld : Fld
  chk : State → Nat
  act : State → State

/-- A write of one command bit. -/
def State.runCmd (s : State) (p : Path) (c : Cmd) : State := s.command p c.fld c.chk c.act

/-- A write of a value to a word with a behaviour of its own. -/
def State.writeOwn (s : State) (p : Path) (a v : Nat) (chk : State → Nat) (act : State → State) : State :=
  s.gate ⟨p, a, true, v⟩ (fun s => if chk s = 0 then (s.applied (act s) p a).wrote p a else s.reject p a (chk s) v)

/-- A read with an effect of its own: the value of the state before, then the effect. -/
def State.readOwn (s : State) (p : Path) (a : Nat) (val : State → Nat) (act : State → State) : State :=
  s.gate ⟨p, a, false, 0⟩ (fun s => (act s).readBack p a (val s))

/-- No check. -/
def okChk : State → Nat := fun _ => 0

/-! ## Measurement registers (R383) -/

/-- The bytes of a 384-bit value, most significant first. -/
def bytes384 (v : BitVec 384) : List Byte := beBytes 48 v.toNat

/-- MR0–MR7 as 48 bytes. -/
def State.mrBytes (s : State) (r : Nat) : List Byte := (List.range 12).flatMap (fun k => beBytes 4 (s.rd (SEC_MR r k)))

/-- Extend a measurement register: MR = SHA-384(MR ‖ SHA-384(x)) (R383). -/
def State.mrExtend (s : State) (r : Nat) (x : List Byte) : State :=
  let v := (Config.sha384 (s.mrBytes r ++ bytes384 (Config.sha384 x))).toNat
  foldS (List.range 12) (fun s k => s.wr (SEC_MR r k) (v / 2 ^ (32 * (11 - k)))) s

/-! ## Event inputs and D11 (R192) -/

/-- An enabled input filters: with G or Db non-zero it holds D11 on in S0–S2. -/
def State.eviHolds (s : State) : Bool :=
  s.isOn 7 && (List.range 16).any (fun i => s.on (EVI_CFG_EN i) && (s.rd (EVI_CFG_GLITCH i) != 0 || s.rd (EVI_CFG_DEBOUNCE i) != 0))

/-- D11 is requested where an input holds it on. -/
def State.eviHold (s : State) : State := s.when (s.eviHolds && decide (s.rd PWR_PS_STATUS_STATE ≤ 2) && !s.domOn 11) (·.domRequest 11)

/-! ## The state of a port -/

/-- Training states (*Training states*). -/
def tDetect : Nat := 0
def tGlint : Nat := 1
def tSpeed : Nat := 2
def tEqualize : Nat := 3
def tLock : Nat := 4
def tRange : Nat := 5
def tRole : Nat := 6
def tKeys : Nat := 7
def tCycle : Nat := 8
def tActive : Nat := 9
def tParked : Nat := 10
def tHoldoff : Nat := 11

def State.tstate (s : State) (n : Nat) : Nat := s.rd (LNK_STATUS_TSTATE n)

/-- The link is ACTIVE. -/
def State.active (s : State) (n : Nat) : Bool := n < 3 && s.tstate n == tActive

/-- The link is ACTIVE in native mode. -/
def State.native (s : State) (n : Nat) : Bool := s.active n && !s.on (LNK_STATUS_MODE1040 n)

end Sys2Proof.Machine
end

