-- ==== Sys2Proof/Machine/TimeIn.lean ====
section
/-!
DEFINITION. Values of network time, the time input of a chip, and the source state machine (`08_network_time.md`, R172, R176–R179).
-/

namespace Sys2Proof.Machine

/-! ## Signed values -/

/-- A field read as two's complement. -/
def State.rdS (s : State) (f : Fld) : Int :=
  let v := s.rd f
  if v < 2 ^ (f.width - 1) then (v : Int) else (v : Int) - (2 ^ f.width : Nat)

/-- An integer as a two's complement number of `w` bits. -/
def twos (w : Nat) (i : Int) : Nat := (i % ((2 ^ w : Nat) : Int)).toNat

/-- An integer cut to the range of `w` bits. -/
def satInt (w : Nat) (i : Int) : Int :=
  let m : Int := ((2 ^ (w - 1) : Nat) : Int)
  if i > m - 1 then m - 1 else if i < -m then -m else i

/-- Write a signed value that saturates. -/
def State.wrS (s : State) (f : Fld) (i : Int) : State := s.wr f (twos f.width (satInt f.width i))

/-- The time base in quarter nanoseconds. -/
def State.nowQ (s : State) : Nat := 4 * s.now

/-- The 64-bit time format of a time in quarter nanoseconds (R172). -/
def stamp64 (q : Nat) : Nat := (q / 4000000000 % 2 ^ 32) * 2 ^ 32 + q % 4000000000

/-- Quarter nanoseconds of a 64-bit time. -/
def stampQ (t : Nat) : Nat := (t / 2 ^ 32) * 4000000000 + t % 2 ^ 32

/-- Set the time base. -/
def State.setTime (s : State) (ns : Nat) : State :=
  { s with time := { s.time with sec := ns / 1000000000 % 2 ^ 32, ns := ns % 1000000000, everSet := true } }

/-- The time base counts on to an instant; it is not thereby set. -/
def State.countTo (s : State) (ns : Nat) : State :=
  { s with time := { s.time with sec := ns / 1000000000 % 2 ^ 32, ns := ns % 1000000000 } }

def State.modTime (s : State) (f : TimeS → TimeS) : State := { s with time := f s.time }
def State.tm (s : State) (n : Nat) : LinkTime := (s.port n).tm
def State.modTm (s : State) (n : Nat) (f : LinkTime → LinkTime) : State := s.modPort n (fun p => { p with tm := f p.tm })

/-! ## Time master and time input (R176, R177) -/

def timeMode (n : Nat) : Fld := if n = 0 then TIME_LINK_TM_MODE0 else if n = 1 then TIME_LINK_TM_MODE1 else TIME_LINK_TM_MODE2

/-- This end's view of port `n`: it is the time master (R177). -/
def State.claimsMaster (s : State) (n : Nat) : Bool :=
  s.on (LNK_STATUS_PARENT n) != (s.rd (timeMode n).inForce == 1)

/-- The chip is a time root (R176). -/
def State.timeRoot (s : State) : Bool := 1 ≤ s.rd TIME_SRC_CTRL_SRC && s.rd TIME_SRC_CTRL_SRC ≤ 4

/-- The ports from which a chip that is no root could take time: ACTIVE, with the far end time master. -/
def State.inputPorts (s : State) : List Nat :=
  if s.timeRoot then []
  else (List.range 3).filter (fun n => s.native n && !s.bit TIME_LINK_TM_ST_MASTER n)

/-! ## The source state machine (R178, R179) -/

def stFree : Nat := 0
def stAcquiring : Nat := 1
def stLocked : Nat := 2
def stHoldover : Nat := 3

/-- TIME_VALID as R179 defines it. -/
def State.timeValidNow (s : State) : Bool :=
  let st := s.rd TIME_SRC_STATUS_STATE
  let src := s.rd TIME_SRC_CTRL_SRC
  (st == stLocked || (st == stHoldover && s.time.holdOk)) &&
    ((1 ≤ src && src ≤ 3) || (src == 0 && s.time.inValid))

def State.showTimeValid (s : State) : State := s.flag TIME_SRC_STATUS_TIME_VALID s.timeValidNow

/-- The mean FREQ over the last 64 s of LOCKED (R178). -/
def meanFreq (l : List (Nat × Int × Nat)) (d : Int) : Int :=
  let c : Nat := l.foldl (fun a e => a + e.2.2) 0
  if c = 0 then d else (l.foldl (fun a e => a + e.2.1) (0 : Int)).tdiv (c : Int)

/-- Seconds in HOLDOVER (R178). -/
def State.holdSecs (s : State) : Nat := (s.elapsed - s.time.holdAt) / 1000000000

/-- A change of the source state sets STATE_CHG, and HOLDOVER on entry into it (R178). -/
def State.srcState (s : State) (v : Nat) : State :=
  if s.rd TIME_SRC_STATUS_STATE = v then s.showTimeValid
  else
    let s := s.when (s.rd TIME_SRC_STATUS_STATE == stHoldover) (fun s => s.wr TIME_SRC_STATUS_HOLD_S (min 65535 s.holdSecs))
    let s := (s.wr TIME_SRC_STATUS_STATE v).raise 6 0
    let s :=
      if v = stHoldover then
        let m := meanFreq s.time.means s.time.heldMean
        ((((s.wr TIME_SRC_STATUS_HOLD_S 0).wrS TIME_FREQ m).modTime
          (fun t => { t with heldMean := m, holdOk := true, holdAt := s.elapsed })).raise 6 3)
      else if v = stLocked then s.modTime (fun t => { t with lockedOnce := true, stepRun := 0, means := [] })
      else if v = stFree then s.modTime (fun t => { t with lockedOnce := false, lockRun := 0 })
      else s.modTime (fun t => { t with lockRun := 0, stepRun := 0 })
    s.showTimeValid

/-- The input is lost (R178): LOCKED goes to HOLDOVER; ACQUIRING to HOLDOVER if LOCKED was reached, else to FREE. -/
def State.inputLost (s : State) (cause : Nat) : State :=
  let s := s.wr TIME_SRC_STATUS_CAUSE cause
  let st := s.rd TIME_SRC_STATUS_STATE
  if st = stLocked then s.srcState stHoldover
  else if st = stAcquiring then s.srcState (if s.time.lockedOnce then stHoldover else stFree)
  else s

/-- The links from which the chip could take its time are now these: FOLLOW shows the lowest; several set TIME_CONFLICT as another joins
them (R176).  Where the input was a link that is none of them any more, the input is lost with cause 4 (R178). -/
def State.showInputs (s : State) (l : List Nat) : State :=
  let old := s.rd TIME_LINK_TM_ST_FOLLOW
  let more := decide (l.length ≥ 2) && l.any (fun n => !s.time.inputs.contains n)
  let s := (s.when more (·.raise 6 2)).modTime (fun t => { t with inputs := l })
  let s := (s.wr TIME_LINK_TM_ST_FOLLOW (match l with | [] => 0 | n :: _ => 2 ^ n)).flag TIME_SRC_STATUS_ROOT s.timeRoot
  s.when (!s.timeRoot && old != 0 && !l.any (fun n => old == 2 ^ n)) fun s =>
    (s.modTime (fun t => { t with srcPresent := false, inValid := false })).inputLost 4

def State.showInput (s : State) : State := s.showInputs s.inputPorts

/-- SRC selects another source.  DESIGN CHOICE (log entry 131): the input it replaces is lost with cause 1; with SRC 4, which never leaves
FREE, the state becomes FREE (R178). -/
def State.srcWritten (s old : State) : State :=
  let s := s.showInput
  if s.rd TIME_SRC_CTRL_SRC = old.rd TIME_SRC_CTRL_SRC then s.showTimeValid
  else
    let s := s.modTime (fun t => { t with srcPresent := false, inValid := false, pps := none })
    if s.rd TIME_SRC_CTRL_SRC = 4 then s.srcState stFree
    else if s.rd TIME_SRC_STATUS_STATE = stLocked ∨ s.rd TIME_SRC_STATUS_STATE = stAcquiring then s.inputLost 1
    else s.showTimeValid

end Sys2Proof.Machine
end

