-- ==== Sys2Proof/Machine/LinkOps.lean ====
section
/-!
DEFINITION. Shared operations of the link ports: the port's registers and hidden state, carat tables, digests,
placement and admission, the life of a context, wake events, and what a port does when it enters DETECT, fails
training or loses its link.
-/

namespace Sys2Proof.Machine

/-! ## Ports -/

def State.tr (s : State) (n : Nat) : Train := (s.port n).tr
def State.ep (s : State) (n : Nat) : Epoch := (s.port n).ep
def State.modTr (s : State) (n : Nat) (f : Train → Train) : State := s.modPort n (fun p => { p with tr := f p.tr })
def State.modEp (s : State) (n : Nat) (f : Epoch → Epoch) : State := s.modPort n (fun p => { p with ep := f p.ep })

/-- Register page of link port `n`, and of its cycle. -/
def lnkPage (n : Nat) : Nat := 16 + n
def cycPage (n : Nat) : Nat := 19 + n

/-- Data slots of a cycle at a lane rate (*Slots per cycle*, R77). -/
def dataSlots (speed : Nat) : Nat := if speed = 2 then 3840 else if speed = 1 then 1920 else 960

/-- Control slots of a cycle at a lane rate (R77). -/
def controlSlots (speed : Nat) : Nat := if speed = 2 then 64 else if speed = 1 then 32 else 16

/-- Slot index of data slot `d` (R77). -/
def slotOfData (d : Nat) : Nat := d + d / 60 + 1

/-- Data slot number of slot `i`, which is not a control slot (R77). -/
def dataOfSlot (i : Nat) : Nat := i - i / 61 - 1

/-- D of a port at its present rate. -/
def State.dSlots (s : State) (n : Nat) : Nat := dataSlots (s.rd (LNK_STATUS_SPEED n))

/-- `a` is later than `b`, both modulo 2^32 (R76). -/
def cycLater (a b : Nat) : Bool :=
  let d := (a + 2 ^ 32 - b % 2 ^ 32) % 2 ^ 32
  1 ≤ d && d ≤ 2 ^ 31 - 1

/-- `a` is `b` or later. -/
def cycGe (a b : Nat) : Bool := a % 2 ^ 32 == b % 2 ^ 32 || cycLater a b

/-- Cycle arithmetic modulo 2^32. -/
def cycAdd (a n : Nat) : Nat := (a + n) % 2 ^ 32

/-- The cycle `n` before `a`. -/
def cycSub (a n : Nat) : Nat := (a + 2 ^ 32 - n % 2 ^ 32) % 2 ^ 32

/-! ## RWP and RWE fields -/

/-- The fields of one access row in a page. -/
def AccRow.fields (page : Nat) (r : AccRow) : List Fld :=
  (List.range r.n1).flatMap (fun i => (List.range r.n2).map (fun j =>
    ⟨page * 0x1000 + r.off + r.s1 * i + r.s2 * j, r.hi, r.lo⟩))

/-- Every field of a page with an access type. -/
def pageFields (page : Nat) (t : AccTy) : List Fld :=
  ((accRows page).filter (fun r => r.ty == t)).flatMap (AccRow.fields page)

/-- Apply the values held pending in some fields: the value last written comes into force (R2, R4). -/
def State.applyFields (s : State) (l : List Fld) : State := foldS l (fun s f => s.wr f.inForce (s.rd f)) s

/-- At the safe point of a page, its RWP fields come into force (R6). -/
def State.applyRwp (s : State) (page : Nat) : State := s.applyFields (pageFields page .rwp)

/-! ## Carat tables (R84, R85, R90–R92) -/

/-- The four carat tables of a port by their offset. -/
def txSh : Nat := 0x200
def txAct : Nat := 0x400
def rxSh : Nat := 0x600
def rxAct : Nat := 0x800

/-- The entry of an LTN in a carat table: two entries per word. -/
def carFld (tbl n ltn : Nat) : Fld :=
  if ltn % 2 = 0 then ⟨0x13000 + 0x1000 * n + tbl + 4 * (ltn / 2), 11, 0⟩
  else ⟨0x13000 + 0x1000 * n + tbl + 4 * (ltn / 2), 27, 16⟩

def State.carats (s : State) (tbl n ltn : Nat) : Nat := s.rd (carFld tbl n ltn)

/-- The entries for LTN 0x00 to 0xFE. -/
def State.caratTable (s : State) (tbl n : Nat) : List Nat := (List.range 255).map (s.carats tbl n)

/-- The sum of a carat table, management included. -/
def State.caratTotal (s : State) (tbl n : Nat) : Nat := (s.caratTable tbl n).foldl (· + ·) 0

/-- The carat digest of a table (R85). -/
def State.digest (s : State) (tbl n : Nat) : Nat := crc32c ((s.caratTable tbl n).flatMap (beBytes 2))

/-- Copy one carat table into another. -/
def State.copyTable (s : State) (src dst n : Nat) : State :=
  foldS (List.range 128) (fun s m => s.setWord (0x13000 + 0x1000 * n + dst + 4 * m)
    (s.word (0x13000 + 0x1000 * n + src + 4 * m))) s

/-- Set every word of a carat table to its reset value: only the 16 management carats. -/
def State.clearTable (s : State) (dst n : Nat) : State :=
  foldS (List.range 128) (fun s m => s.setWord (0x13000 + 0x1000 * n + dst + 4 * m)
    (dflt (0x13000 + 0x1000 * n + dst + 4 * m))) s

/-- The digests of the shadow or active tables as CYCn shows them. -/
def State.showDigests (s : State) (n : Nat) : State :=
  (((s.wr (CYC_DIGEST_TX_SH n) (s.digest txSh n)).wr (CYC_DIGEST_RX_SH n) (s.digest rxSh n)).wr
    (CYC_DIGEST_TX_ACT n) (s.digest txAct n)).wr (CYC_DIGEST_RX_ACT n) (s.digest rxAct n)

/-- The first of some candidate positions whose data slot is free. -/
def firstFree (d : Nat) (taken : List Nat) (cands : List Nat) : Option Nat :=
  cands.find? (fun p => !taken.contains (p % d))

/-- The positions from `lo` to `hi`. -/
def posRange (lo hi : Nat) : List Nat := (List.range (hi + 1 - lo)).map (lo + ·)

/-- Place the further carats of one tunnel (the loop of R90): the slots taken and the last position, or none. -/
def placeRest (d c b p0 : Nat) : List Nat → List Nat × Nat → Option (List Nat × Nat)
  | [], acc => some acc
  | k :: ks, (taken, prev) =>
    let ideal := p0 + k * d / c
    let lo := prev + 1
    let hi := prev + b
    let pick := match firstFree d taken (posRange (max ideal lo) hi) with
      | some p => some p
      | none => firstFree d taken (posRange lo (min ideal (hi + 1) - 1)).reverse
    match pick with
    | some p => placeRest d c b p0 ks (p % d :: taken, p)
    | none => none

/-- Place one tunnel's carats in `d` data slots: the slots taken after it, or none (R90). -/
def placeTunnel (d ltn c : Nat) (taken : List Nat) : Option (List Nat) :=
  let b := (d + c - 1) / c
  let phase := ltn * d / 256
  match firstFree d taken (posRange phase (phase + d - 1)) with
  | none => none
  | some p0 =>
    match placeRest d c b p0 ((List.range (c - 1)).map (· + 1)) (p0 % d :: taken, p0) with
    | none => none
    | some (t, prev) => if prev ≥ p0 + d ∨ p0 + d - prev > b then none else some t

/-- The order of placement: LTN 0x00 first, then by carats, highest first, and at equal count by LTN (R90). -/
def placeOrder (tbl : List Nat) : List (Nat × Nat) :=
  let all := (List.range tbl.length).zip tbl
  let rest := (all.drop 1).filter (fun (e : Nat × Nat) => e.2 > 0)
  all.take 1 ++ rest.mergeSort (fun a b => a.2 > b.2 || (a.2 == b.2 && a.1 ≤ b.1))

/-- The placement of a plan: the guaranteed data slots with their LTNs, or the LTN that failed (R90). -/
def placeGo (d : Nat) : List (Nat × Nat) → List Nat → Tbl Nat → Except Nat (Tbl Nat)
  | [], _, acc => .ok acc
  | (ltn, c) :: r, taken, acc =>
    if c = 0 then placeGo d r taken acc
    else match placeTunnel d ltn c taken with
      | none => .error ltn
      | some t => placeGo d r t (acc ++ (t.take (t.length - taken.length)).map (fun p => (p, ltn)))

/-- Place a carat table in `d` data slots (R90). -/
def placePlan (d : Nat) (tbl : List Nat) : Except Nat (Tbl Nat) := placeGo d (placeOrder tbl) [] []

/-- An enabled shadow (`act = 0`) or active (`act = 0x80`) window: start, length, mask and exclusive flag. -/
def State.window (s : State) (act n w : Nat) : Option (Nat × Nat × Nat × Bool) :=
  let a := 0x13100 + 0x1000 * n + act + 8 * w
  if s.on ⟨a + 4, 31, 31⟩ then some (s.rd ⟨a, 11, 0⟩, s.rd ⟨a, 27, 16⟩, s.rd ⟨a + 4, 7, 0⟩, s.on ⟨a + 4, 8, 8⟩)
  else none

/-- Enabled windows overlap or pass data slot D − 1 (R86). -/
def State.windowsBad (s : State) (act n d : Nat) : Bool :=
  let ws := (List.range 16).filterMap (s.window act n)
  ws.any (fun w => w.1 + w.2.1 > d) ||
    (List.range ws.length).any (fun i => (List.range ws.length).any (fun j =>
      i < j && (match ws[i]?, ws[j]? with
        | some a, some b => a.1 < b.1 + b.2.1 && b.1 < a.1 + a.2.1
        | _, _ => false)))

/-- A port's guaranteed load (R92): zero unless ACTIVE. -/
def State.portLoad (s : State) (n : Nat) : Nat :=
  if s.active n then
    max (s.caratTotal txAct n + s.caratTotal rxAct n)
      (match (s.ep n).change with
       | some c => if c.sent || !c.proposer then c.body.carP + c.body.carA else 0
       | none => 0)
  else 0

/-- The chip's guaranteed load (R92). -/
def State.chipLoad (s : State) : Nat := s.portLoad 0 + s.portLoad 1 + s.portLoad 2

/-- The girdle limit at a declared minimum voltage, code 0–40 for 0.70–0.90 V in steps of 5 mV (R92). -/
def girdleLimit (code : Nat) : Nat := if code < 20 then 20000 else if code < 40 then 32000 else 41250

/-- The port is within the settle period of a swap: up to and including cycle S + 8 (R95 step 9). -/
def State.settling (s : State) (n : Nat) : Bool :=
  match (s.ep n).last with
  | some l => l.swapped && cycGe (cycAdd l.swap 8) s.cycle
  | none => false

/-- An epoch change is in flight on the port (R95): until refused, withdrawn or settled. -/
def State.epochInFlight (s : State) (n : Nat) : Bool := (s.ep n).change.isSome || s.settling n

/-- RWE writes bound to the port are rejected (R5): from REQ or the receipt of PROPOSE until the swap cycle has
passed. -/
def State.rweLocked (s : State) (n : Nat) : Bool :=
  (s.ep n).change.isSome ||
    (match (s.ep n).last with
     | some l => l.swapped && cycGe l.swap s.cycle
     | none => false)

/-! ## Contexts: life and counts -/

/-- Set a context's LIFE; a change sets its CTX_EVT bit and CTX_EVENT, its CTX_FAULT bit and the counts follow. -/
def State.ctxSetLife (s : State) (c v : Nat) : State :=
  let old := s.rd (CTX_STATE_LIFE c)
  if old = v then s
  else
    let s := s.wr (CTX_STATE_LIFE c) v
    let s := (s.eventBit (TUN_CTX_EVT (c / 32)) (c % 32)).setBit (TUN_CTX_FAULT (c / 32)) (c % 32) (v == lifeFault)
    let s := s.wr TUN_COUNT_ON_N (s.rd TUN_COUNT_ON_N + (v == lifeOn).toNat - (old == lifeOn).toNat)
    let s := s.wr TUN_COUNT_FAULT_N (s.rd TUN_COUNT_FAULT_N + (v == lifeFault).toNat - (old == lifeFault).toNat)
    s.raise 15 0

/-- Drop every cell that a fixed context has queued or kept, with its references to buffer cells. -/
def State.dropFixed (s : State) (c : Nat) : State :=
  let own := s.gird.queues.flatMap (fun (e : Nat × List QFrame) => e.2.filter (fun f => f.ctx == c))
  let gone := own.flatMap (fun f => (f.cells.filter (fun x => !x.kept)).map (·.buf)) ++
    (tget {} s.ctxs c).kept.map (·.buf)
  let bufs := gone.foldl (fun (t : Tbl BufCell) i =>
    match tget? t i with
    | some b => if b.refs ≤ 1 then tdel t i else tset t i { b with refs := b.refs - 1 }
    | none => t) s.gird.bufs
  let queues := (s.gird.queues.map (fun (e : Nat × List QFrame) => (e.1, e.2.filter (fun f => f.ctx != c)))).filter
    (fun e => !e.2.isEmpty)
  let s := s.inc (CTX_DROP_STOP c) gone.length
  { s with gird := { s.gird with queues := queues, bufs := bufs, drops := s.gird.drops.filter (fun d => d.ctx != c) },
           ctxs := tdel s.ctxs c }

/-- The buckets of a fixed context that reaches ON (R155): on its link egress, that of context 2n + 1, C holds the management carats. -/
def State.fixedBuckets (s : State) (n c : Nat) : State :=
  let pbs : Int := (s.rd (CTX_PEAK_PBS c) : Nat)
  let k := if c = 2 * n + 1 ∧ !s.on (LNK_STATUS_MODE1040 n) then s.carats txAct n 0 else 0
  { s with ctxs := tmod {} s.ctxs c (fun t => { t with c := [(0, k), (1, 0)], p := [(0, pbs), (1, pbs)] }) }

/-- Contexts 2n and 2n + 1 are ON while port n is ACTIVE (R99); each time their sequence state starts afresh (R115) and their buckets are
set (R155). -/
def State.fixedContexts (s : State) (n : Nat) (up : Bool) : State :=
  foldS [2 * n, 2 * n + 1] (fun s c =>
    if (s.rd (CTX_STATE_LIFE c) == lifeOn) = up then s
    else
      let s := s.dropFixed c
      let s := ((s.setWord (0x200030 + 0x80 * c) 0).setWord (0x200034 + 0x80 * c) 0).setWord (0x200038 + 0x80 * c) 0
      let s := ((s.wr ⟨0x200004 + 0x80 * c, 5, 4⟩ 0))
      (s.when up (·.fixedBuckets n c)).ctxSetLife c (if up then lifeOn else lifeOff)) s

/-! ## The tree (R25) -/

/-- Remove from the crown's table the chips reached through a link of `chip`'s port `port`, with all below them.  The
tree is at most four hops deep. -/
def treeWithout (t : Tbl (Nat × Nat × Nat)) (chip port : Nat) : Tbl (Nat × Nat × Nat) :=
  let gone0 := (t.filter (fun e => e.2.1 == chip && e.2.2.1 == port)).map (·.1)
  let more (g : List Nat) := g ++ (t.filter (fun e => g.contains e.2.1)).map (·.1)
  let gone := more (more (more (more gone0)))
  t.filter (fun e => !gone.contains e.1)

/-- CHIPS on the crown counts the numbered chips, itself included. -/
def State.showChips (s : State) : State := s.wr SYS_TREE_POS_CHIPS (if s.crown then s.chip.tree.length + 1 else 1)

/-- The link has passed ROLE: it is in KEYS, CYCLE or ACTIVE, under the role that its chip has. -/
def State.roleHeld (s : State) (n : Nat) : Bool := [tKeys, tCycle, tActive].contains (s.tstate n)

/-- What leaving ACTIVE, or failing, takes from the chip's place in the tree (R25, R71): its upstream link, the twin
and excess marks, and on the crown the numbers of the chips below; an AUTO chip is unresolved again when no other link of it has passed
ROLE. -/
def State.leaveTree (s : State) (n : Nat) : State :=
  let s := (s.setBit SYS_TREE_POS_TWIN_PORTS n false).setBit SYS_TREE_POS_EXCESS n false
  let s := (s.flag (LNK_STATUS_CHILD_EXCESS n) false).flag (LNK_STATUS_PARENT n) false
  let s := s.when (!s.crown && s.rd SYS_TREE_POS_UP_PORT == n) (fun s =>
    let s := ((s.wr SYS_TREE_POS_UP_PORT 3).wr SYS_TREE_POS_DEPTH 0).wr SYS_TREE_POS_CHIP 0
    { s with chip := { s.chip with crownId := 0 } })
  let s := s.when s.crown (fun s => { s with chip := { s.chip with
    tree := treeWithout s.chip.tree 0 n, joining := s.chip.joining.filter (fun e => !(e.1 == 0 && e.2.1 == n)) } })
  let s := s.when ((s.chip.strap == 0 || s.chip.strap == 3) && !((List.range 3).any (fun m => m != n && s.roleHeld m))) (fun s =>
    { s.flag SYS_TREE_POS_CROWN false with chip := { s.chip with role := 0, crownId := 0, tree := [] } })
  s.showChips

/-- The port's function is ON and its training machine is in state `t`. -/
def State.inT (s : State) (n t : Nat) : Bool :=
  n < 3 && s.isOn (lnkPage n) && s.tstate n == t && !(s.tr n).failing

/-- The port is in one of the training states before ACTIVE, or parked. -/
def State.training (s : State) (n : Nat) : Bool :=
  n < 3 && s.isOn (lnkPage n) && s.tstate n != tDetect && s.tstate n != tActive && s.tstate n != tHoldoff &&
    !(s.tr n).failing

/-! ## Entry into DETECT, training failure, link loss (R60, R69, R70, R74) -/

/-- Entry into DETECT: the safe point of the LNK RWP fields (R74); training starts afresh. -/
def State.enterDetect (s : State) (n : Nat) : State :=
  let s := s.applyRwp (lnkPage n)
  let s := s.wr (LNK_STATUS_TSTATE n) tDetect
  let s := s.flag (LNK_STATUS_MODE1040 n) (s.on (LNK_CTRL_MODE1040 n).inForce)
  s.modTr n (fun t => { swap := none, ceilReset := t.ceilReset })

/-- LTNs of a port's link points from before its last swap map no more: its settle period has ended, or its link (R108). -/
def State.dropOldLtns (s : State) (n : Nat) : State :=
  { s with ctxs := s.ctxs.map (fun (e : Nat × CtxS) =>
      (e.1, { e.2 with oldLtn := e.2.oldLtn.filter (fun x => s.rd ⟨0x20000C + 0x80 * e.1 + 4 * x.1, 27, 24⟩ != n) })) }

/-- The link leaves ACTIVE, or training ends: the state that belongs to the link is dropped (R25, R88, R96, R99, R108). -/
def State.dropLink (s : State) (n : Nat) : State :=
  let s := (s.fixedContexts n false).dropOldLtns n
  let s := ((s.wr (CYC_STATUS_DATA_SLOTS n) 0).wr (CYC_STATUS_PEND n) 0).wr (CYC_STATUS_PROPOSER n) 0
  let s := ((s.flag (LNK_STATUS_KEYS_ON n) false).flag (LNK_STATUS_LANES_SWAPPED n) false).wr (LNK_STATUS_RX_INV n) 0
  let s := (s.wr (LNK_STATUS_SKEW_UI n) 0).flag (LNK_ROLE_CTRL_SWAP_PENDING n) false
  let s := (s.showInputs (s.inputPorts.filter (· != n))).setBit TIME_LINK_TM_ST_CONFLICT n false
  let s := s.setBit TIME_LINK_TM_ST_MASTER n false
  let s := (s.flag (CYC_STATUS_TIME_MASTER n) false).wr (SEC_LINK_KEY_PHASE n) 0
  let bufs := s.gird.bufs.map (fun e => (e.1, if e.2.src.any (·.1 == n) then { e.2 with src := none } else e.2))
  { s.modPort n (fun p => { tr := p.tr }) with gird := { s.gird with bufs := bufs } }

/-- An ACTIVE link goes down and the port returns to DETECT (R60); the ceiling returns to MAX_SPEED unless it is
sticky (R70). -/
def State.linkDown (s : State) (n cause : Nat) : State :=
  let s := (s.wr (LNK_STATUS_LAST_DOWN n) cause).wr (LNK_STATUS_TSTATE n) tDetect
  let s := s.leaveTree n
  let s := (s.dropLink n).enterDetect n
  let s := s.when (!s.on (LNK_CTRL_STICKY_SPEED n)) (fun s => s.wr (LNK_FAIL_CEILING n) (s.rd (LNK_CTRL_MAX_SPEED n).inForce))
  s.raise (lnkPage n) 1

/-- Does a failure cause count towards fall-back? (*Training failure causes*) -/
def countedCause (cause st : Nat) : Bool :=
  if cause = 1 then st == tSpeed || st == tEqualize || st == tLock || st == tRange
  else cause == 3 || cause == 5 || cause == 6

/-- A training failure (R69): recorded, announced by FAIL beacons, and counted towards fall-back where its cause
counts.  The third counted failure at 5 Gbit/s is counted too, up to the end of HOLDOFF. -/
def State.trainFail (s : State) (n cause st : Nat) : State :=
  let ceil := s.rd (LNK_FAIL_CEILING n)
  let s := ((s.wr (LNK_FAIL_CAUSE n) cause).wr (LNK_FAIL_STATE n) st).wr (LNK_FAIL_SPEED n) (s.rd (LNK_STATUS_SPEED n))
  let s := ((s.inc (LNK_TRAIN_CNT_FAIL n)).raise (lnkPage n) 2).emit (.beacon n 8 [cause, st])
  let third := s.rd (LNK_FAIL_COUNT n) + 1 ≥ 3
  let s :=
    if countedCause cause st then
      if third then
        if ceil > 0 then
          ((s.wr (LNK_FAIL_CEILING n) (ceil - 1)).wr (LNK_FAIL_COUNT n) 0).raise (lnkPage n) 3
        else s.wr (LNK_FAIL_COUNT n) 3
      else s.inc (LNK_FAIL_COUNT n)
    else s
  let hold := !countedCause cause st || (third && ceil == 0)
  let reset := countedCause cause st && third && ceil == 0
  let s := s.modTr n (fun t => { t with failing := true, toHoldoff := hold, ceilReset := reset })
  let s := s.when (s.tstate n == tRole || s.tstate n == tKeys || s.tstate n == tCycle || s.tstate n == tParked)
    (fun s => s.leaveTree n)
  s.when (cause == 7 || cause == 8) (fun s => s.functionFault (lnkPage n))

end Sys2Proof.Machine
end

