-- ==== Sys2Proof/Machine/TimeOps.lean ====
section
/-!
DEFINITION. Shared operations of network time: counting, the ranging filter, the time master of a link, steps of the time base, the servo,
and the numbers of the tree.
-/

namespace Sys2Proof.Machine

/-! ## Counting (R174, R175) -/

/-- A nanosecond of S5: the RTC's count carries the time base at each of its periods, of 10^9/32768 ns. -/
def State.passRtc (s : State) : State :=
  let run := s.time.rtcRun + 32768
  if run < 1000000000 then s.modTime (fun t => { t with rtcRun := run })
  else
    let f := s.time.rtcFrac + 1000000000
    (s.modTime (fun t => { t with rtcRun := run - 1000000000, rtcFrac := f % 32768 })).countTo (s.now + f / 32768)

/-- A nanosecond of S3 or S4: the time base advances by 40 ns on each reference period; what FREQ adds is carried by the accumulator. -/
def State.passRef (s : State) : State :=
  if s.time.refNs + 1 < 40 then s.modTime (fun t => { t with refNs := t.refNs + 1 })
  else
    let f := s.time.frac + 40 * s.rdS TIME_FREQ
    (s.modTime (fun t => { t with refNs := 0, frac := f % 10000000000 })).countTo ((s.now + 40 : Int) + f / 10000000000).toNat

/-- A nanosecond of S0–S2, in which the DPLL counts; a broken-off period of the slower counting joins it, so that the change of counting
loses nothing. -/
def State.passDpll (s : State) : State :=
  let rest := s.time.refNs + (s.time.rtcRun + s.time.rtcFrac) / 32768
  (s.modTime (fun t => { t with refNs := 0, rtcRun := 0, rtcFrac := 0 })).countTo (s.now + 1 + rest)

/-- A nanosecond passes. -/
def State.pass (s : State) : State :=
  let s := s.modTime (fun t => { t with ran := t.ran + 1 })
  if s.rd PWR_PS_STATUS_STATE = 5 then s.passRtc
  else if s.rd PWR_PS_STATUS_STATE = 3 ∨ s.rd PWR_PS_STATUS_STATE = 4 then s.passRef
  else s.passDpll

/-! ## Ranging (R182) -/

/-- The mean of some delays. -/
def meanNat (l : List Nat) : Nat := if l.isEmpty then 0 else l.foldl (· + ·) 0 / l.length

/-- The valid RANGE measurements seed the filter (R68): the mean of the last 16 is DELAYn. -/
def State.seedRange (s : State) (n : Nat) (vals : List Nat) : State :=
  let l := vals.drop (vals.length - 16)
  (s.modTm n (fun t => { t with filt := l, rejRun := 0, reseed := none })).wr (TIME_DELAY n) (meanNat l)

/-- RANGING_UPDATE (R182): a delay is accepted into the filter, rejected and counted, or used to reseed the filter. -/
def State.rangingUpdate (s : State) (n d : Nat) : State :=
  match (s.tm n).reseed with
  | some l =>
    let l := l ++ [d]
    if l.length ≥ 16 then
      (s.modTm n (fun t => { t with filt := l, rejRun := 0, reseed := none })).wr (TIME_DELAY n) (meanNat l)
    else s.modTm n (fun t => { t with reseed := some l })
  | none =>
    let cur := s.rd (TIME_DELAY n)
    if d > cur + 32 ∨ cur > d + 32 then
      let s := s.inc (TIME_RANGE_REJ n)
      if (s.tm n).rejRun + 1 ≥ 64 then
        (s.modTm n (fun t => { t with rejRun := 0, reseed := some [] })).raise 6 4
      else s.modTm n (fun t => { t with rejRun := t.rejRun + 1 })
    else
      let l := (s.tm n).filt ++ [d]
      let l := l.drop (l.length - 16)
      (s.modTm n (fun t => { t with filt := l, rejRun := 0 })).wr (TIME_DELAY n) (meanNat l)

/-! ## The time master of a link (R177) -/

/-- Settle the time master of a port from both ends' claims: with two or no claims the parent end is master and
CONFLICT is set (R177). -/
def State.settleMaster (s : State) (n : Nat) (farClaims : Bool) : State :=
  let own := s.claimsMaster n
  let conflict := own == farClaims
  let master := if conflict then s.on (LNK_STATUS_PARENT n) else own
  let s := s.when (conflict && !s.bit TIME_LINK_TM_ST_CONFLICT n) (·.raise 6 2)
  let s := (s.setBit TIME_LINK_TM_ST_CONFLICT n conflict).setBit TIME_LINK_TM_ST_MASTER n master
  (s.flag (CYC_STATUS_TIME_MASTER n) master).showInput

/-! ## Steps (R185–R187) -/

/-- n of a step: ⌈Δ ÷ 125 µs⌉ (R186). -/
def stepCycles (delta : Int) : Int := -((-delta) / 125000)

/-- The starting chip's scope holds only itself: no ACTIVE link on which it is time master. -/
def State.aloneInScope (s : State) : Bool := !(List.range 3).any (fun n => s.native n && s.bit TIME_LINK_TM_ST_MASTER n)

/-- The encrypted links of the scope, each with the first cycle of its current key: those of this chip (numbered 15) and, where it has
followers, those that the management tunnel has told of (R187). -/
def State.encLinks (s : State) : List (Nat × Nat × Nat) :=
  ((List.range 3).filter (fun n => s.native n && s.on (LNK_STATUS_KEYS_ON n))).map
    (fun n => (15, n, ((s.port n).key.cur.map (·.first)).getD 0)) ++ (if s.aloneInScope then [] else s.time.farKeys)

/-- Does R187 delay the step: it repeats cycle numbers, and a link of the scope is encrypted? -/
def State.stepDelayed (s : State) (delta : Int) : Bool := stepCycles delta < 0 && !s.encLinks.isEmpty

/-- Show a scheduled step. -/
def State.showStep (s : State) (r : StepReq) : State :=
  let s := s.flag TIME_STEP_STATUS_PENDING true
  let s := match r.cycle with | some c => s.wr TIME_STEP_CYCLE c | none => s
  let d := twos 64 r.delta
  ((s.wr TIME_STEP_DELTA_LO d).wr TIME_STEP_DELTA_HI (d / 2 ^ 32)).modTime (fun t => { t with step := some r })

/-- Choose S and send the notices (R185). -/
def State.scheduleStep (s : State) (delta : Int) : State :=
  let alone := s.aloneInScope
  let c := cycAdd s.cycle (if alone then 1 else 16)
  (s.showStep ⟨some c, delta, true⟩).when (!alone) (·.emit (.stepNotice c delta))

/-- Start a step of this chip and its followers (R185, R187). -/
def State.startStep (s : State) (delta : Int) : State :=
  if s.stepDelayed delta then (s.showStep ⟨none, delta, true⟩).modTime (fun t => { t with stepWait := s.encLinks })
  else s.scheduleStep delta

/-- A delayed step is scheduled once no link is encrypted still under the key it had when the step was asked for (R187). -/
def State.stepRelease (s : State) : State :=
  match s.time.step with
  | some r => s.when (r.cycle.isNone && r.own && !s.time.stepWait.any (fun e => s.encLinks.contains e)) (·.scheduleStep r.delta)
  | none => s

/-- A change named for cycle `c` waits: a step pending for that cycle or an earlier one that has begun will move it (R186, R196). -/
def State.stepMoves (s : State) (c : Nat) : Bool :=
  match s.time.step with
  | some r => r.cycle.any (fun t => cycGe c t && cycGe s.cycle t)
  | none => false

/-! ## The servo (R440) -/

/-- ωn in millionths of a radian per second: 2π × BW ÷ 2.48, with BW in mHz the lower of the setting and a tenth of
the measurement rate (interval in nanoseconds). -/
def servoOmega (bwMilli interval : Nat) : Int :=
  let bw := if interval = 0 then bwMilli else min bwMilli (100000000000 / interval)
  ((bw * 2533542 / 1000 : Nat) : Int)

/-- SERVO_UPDATE (R440): FREQ from an offset in quarter nanoseconds.  The proportional term is −2 ωn x; the integral
gains −ωn² x per second, unless FREQ is at the slew limit. -/
def State.servo (s : State) (off : Int) (interval : Nat) (link : Bool) : State :=
  let bw := if link then 1000 * s.rd TIME_SERVO_LINK_BW else s.rd TIME_SERVO_SRC_BW
  let w := servoOmega bw interval
  let p : Int := (-(5 * w * off)).tdiv 1000000
  let i : Int := s.time.integral - (w * w * off * 25 * (interval : Int)).tdiv 10000000000000000
  let f := p + i.tdiv 1000000
  let lim : Int := 10000 * (s.rd TIME_SLEW_SLEW_MAX : Int)
  let hi := min (s.time.heldMean + lim) 1000000
  let lo := max (s.time.heldMean - lim) (-1000000)
  if f > hi then s.wrS TIME_FREQ hi
  else if f < lo then s.wrS TIME_FREQ lo
  else (s.wrS TIME_FREQ f).modTime (fun t => { t with integral := i })

/-- Note FREQ in LOCKED for the mean over 64 s. -/
def State.noteFreq (s : State) : State :=
  let f := s.rdS TIME_FREQ
  let now := s.time.sec
  s.modTime fun t =>
    let l := t.means.filter (fun e => e.1 + 64 > now)
    { t with means := match l with
      | e :: r => if e.1 = now then (now, e.2.1 + f, e.2.2 + 1) :: r else (now, f, 1) :: l
      | [] => [(now, f, 1)] }

/-- A measurement drives the source machine and the servo (R178, R440); the offset is in quarter nanoseconds, the
interval between measurements in nanoseconds. -/
def State.measurement (s : State) (off : Int) (interval : Nat) (link : Bool) : State :=
  if !s.isOn 6 || s.rd TIME_SRC_CTRL_SRC == 4 then s
  else
    let s := s.wrS TIME_OFFSET off
    let st0 := s.rd TIME_SRC_STATUS_STATE
    let s := s.when (st0 == stFree || st0 == stHoldover) (·.srcState stAcquiring)
    let big := decide (off.natAbs > 4 * s.rd TIME_THRESH_STEP_THR)
    let delta := -(off.tdiv 4)
    if s.rd TIME_SRC_STATUS_STATE = stAcquiring then
      if big then (s.modTime (fun t => { t with lockRun := 0 })).when s.time.step.isNone (·.startStep delta)
      else
        let s := s.servo off interval link
        if off.natAbs ≤ 4 * s.rd TIME_THRESH_LOCK_THR then
          if s.time.lockRun + 1 ≥ 16 then s.srcState stLocked
          else s.modTime (fun t => { t with lockRun := t.lockRun + 1 })
        else s.modTime (fun t => { t with lockRun := 0 })
    else if big then
      if s.time.stepRun + 1 ≥ 16 then (s.srcState stAcquiring).when s.time.step.isNone (·.startStep delta)
      else s.modTime (fun t => { t with stepRun := t.stepRun + 1 })
    else ((s.modTime (fun t => { t with stepRun := 0 })).servo off interval link).noteFreq.showTimeValid

/-! ## Entry into CYCLE and ACTIVE (R88, R89, R184) -/

/-- The mean of some offsets. -/
def meanInt (l : List Int) : Int := if l.isEmpty then 0 else (l.foldl (· + ·) 0).tdiv (l.length : Int)

/-- The end will follow the link of port `n`: it is no root, the far end is master, and no lower port is its input. -/
def State.willFollow (s : State) (n : Nat) : Bool :=
  !s.timeRoot && !s.claimsMaster n && !(s.inputPorts.any (fun m => m < n))

/-! ## Numbers in the tree (R23, R25, R26) -/

/-- Links in the order of numbering: by depth, then by the parent's port, then by the parent's number (R25). -/
def treeOrder (links : List TreeLink) : List TreeLink :=
  let key (e : TreeLink) : Nat := e.2.2 * 10000 + e.2.1 * 100 + e.1
  links.foldl (fun l x => l.filter (fun y => key y ≤ key x) ++ [x] ++ l.filter (fun y => key x < key y)) []

/-- The chip below a link gets the lowest free number of 1–14; where none is free, or the link lies more than four hops deep, the chip is
excess, which the parent's end shows (R23, R25, R26).  The chip is told by the notice 6: port, number, depth, excess. -/
def State.numberOne (s : State) (l : TreeLink) : State :=
  match (List.range 14).find? (fun k => decide (1 ≤ l.2.2 ∧ l.2.2 ≤ 4) && (tget? s.chip.tree (k + 1)).isNone) with
  | some k => { s with chip := { s.chip with tree := tset s.chip.tree (k + 1) l } }.emit (.mgmt l.1 6 [l.2.1, k + 1, l.2.2, 0])
  | none => (s.when (l.1 == 0) (·.setBit SYS_TREE_POS_EXCESS l.2.1 true)).emit (.mgmt l.1 6 [l.2.1, 0, l.2.2, 1])

/-- Number the chips below some links. -/
def State.numberAll (s : State) (links : List TreeLink) : State := (foldS (treeOrder links) (fun s l => s.numberOne l) s).showChips

/-- A link of the crown reached ACTIVE: the chip below it is numbered when the cycle ends (R25). -/
def State.noteJoin (s : State) (n : Nat) : State :=
  s.when (s.crown && s.on (LNK_STATUS_PARENT n) && !s.bit SYS_TREE_POS_TWIN_PORTS n && !s.bit SYS_TREE_POS_EXCESS n) fun s =>
    { s with chip := { s.chip with joining := s.chip.joining ++ [(0, n, 1)] } }

/-- A pavilion shows what the crown told it; with its number it reports its INT# condition (R42). -/
def State.treeTold (s : State) (t : TreeTold) : State :=
  s.when (s.rd SYS_TREE_POS_UP_PORT != 3) fun s =>
    let u := s.rd SYS_TREE_POS_UP_PORT
    let first := s.rd SYS_TREE_POS_CHIP == 0 && t.chip % 16 != 0
    let s := (s.wr SYS_TREE_POS_CHIP t.chip).wr SYS_TREE_POS_DEPTH t.depth
    let s := { s with chip := { s.chip with crownId := t.crownId } }
    let s := (s.flag (LNK_STATUS_CHILD_EXCESS u) t.excess).wr SYS_TREE_POS_EXCESS (s.rd SYS_TREE_POS_EXCESS ||| t.childExcess)
    (s.setBit SYS_TREE_POS_EXCESS u t.excess).when (first && s.intPin) (·.emit (.mgmt 0 5 [1]))

/-- Change the chip's part. -/
def State.modChip (s : State) (f : Chip → Chip) : State := { s with chip := f s.chip }

/-- The tree messages of a cycle take effect: on the crown, chips leave, and those that joined in the cycle are numbered; a time root hears
of the encrypted links of its scope (R187). -/
def State.treeNews (s : State) (w : TreeNews) : State :=
  let s := match w.keys with
    | some l => s.modTime (fun t => { t with farKeys := l })
    | none => s
  if s.crown then
    let tree := w.left.foldl (fun t (e : Nat × Nat) => treeWithout t e.1 e.2) s.chip.tree
    { s with chip := { s.chip with tree := tree, joining := [] } }.numberAll (s.chip.joining ++ w.joined)
  else
    match w.told with
    | some t => s.treeTold t
    | none => s

/-- LINK_UP (R89, R25, R99, R70): the port is ACTIVE. -/
def State.linkUp (s : State) (n : Nat) : State :=
  let s := (s.wr (LNK_STATUS_TSTATE n) tActive).inc (LNK_TRAIN_CNT_OK n)
  let s := (s.raise (lnkPage n) 0).wr (LNK_FAIL_COUNT n) 0
  let s := s.wr (CYC_STATUS_DATA_SLOTS n) (s.dSlots n)
  let s := s.modPort n (fun p => { p with sent1040 := [], freed1040 := [], own1040 := [], since1040 := 0 })
  ((s.fixedContexts n true).noteJoin n).showInput

end Sys2Proof.Machine
end

