-- ==== Sys2Proof/Machine/GirdleOps.lean ====
section
/-!
DEFINITION. Shared operations of tunnel contexts and of the girdle: context words, mapping of LTNs, buffer cells, queues,
admission, discard and INC tails, dequeue, replay lists, and the stop and fault of a context.
-/

namespace Sys2Proof.Machine

/-! ## Context words -/

def State.ctx (s : State) (c : Nat) : CtxS := tget {} s.ctxs c
def State.modCtx (s : State) (c : Nat) (f : CtxS → CtxS) : State := { s with ctxs := tmod {} s.ctxs c f }

def State.ctxLife (s : State) (c : Nat) : Nat := s.rd (CTX_STATE_LIFE c)

/-- The fields of the point words: word 0 is ING_A, 1 ING_B, 2 EGR_A, 3 EGR_B. -/
def ptV (c w : Nat) : Fld := ⟨0x20000C + 0x80 * c + 4 * w, 31, 31⟩
def ptPoint (c w : Nat) : Fld := ⟨0x20000C + 0x80 * c + 4 * w, 27, 24⟩
def ptLtn (c w : Nat) : Fld := ⟨0x20000C + 0x80 * c + 4 * w, 23, 16⟩
def ptSub (c w : Nat) : Fld := ⟨0x20000C + 0x80 * c + 4 * w, 15, 0⟩

/-- The point word is in use and names a link. -/
def State.ptLink (s : State) (c w : Nat) : Bool := s.on (ptV c w) && s.rd (ptPoint c w) < 3

/-- The LTN in force in a point word (R108); word 0x00 of the fixed contexts. -/
def State.ltnOf (s : State) (c w : Nat) : Nat := s.rd (ptLtn c w).inForce

/-- The context's origin: its ingress point is not a link (R101). -/
def State.isOrigin (s : State) (c : Nat) : Bool := s.on (ptV c 0) && s.rd (ptPoint c 0) ≥ 3

/-- The context is an end: an egress point is not a link (R101). -/
def State.isEnd (s : State) (c : Nat) : Bool :=
  (s.on (ptV c 2) && s.rd (ptPoint c 2) ≥ 3) || (s.on (ptV c 3) && s.rd (ptPoint c 3) ≥ 3)

def State.reliable (s : State) (c : Nat) : Bool := s.on (CTX_MODE_RELIABLE c)
def State.twin (s : State) (c : Nat) : Nat := s.rd (CTX_MODE_TWIN c)

/-- The types that are reliable (*Tunnel types*). -/
def typeReliable (t : Nat) : Bool := t == 0 || t == 1 || t == 2 || t == 3 || t == 5

/-- Store-and-forward in the forwarding mode in force (R113). -/
def State.storeForward (s : State) (c tc : Nat) : Bool :=
  let f := s.rd (CTX_MODE_FWD c).inForce
  if f = 1 then true else if f = 2 then false else decide (tc < 5)

/-- The egresses of a context for a class: queue and egress index (R129). -/
def State.targets (s : State) (c tc : Nat) : List (Nat × Nat) :=
  ([0, 1].filter (fun e => s.on (ptV c (2 + e)))).map (fun e => (8 * s.rd (ptPoint c (2 + e)) + tc, e))

/-- A point word maps an LTN on a link point: its value in force, its pending value, or the value before the swap while
the settle period lasts (R108). -/
def State.ptMaps (s : State) (c w port ltn : Nat) : Bool :=
  s.ptLink c w && s.rd (ptPoint c w) == port &&
    (s.ltnOf c w == ltn || s.rd (ptLtn c w) == ltn || tget? (s.ctx c).oldLtn w == some ltn)

/-- A context whose pairs count as held (R102): ON, STARTING or STOPPING. -/
def State.holds (s : State) (c : Nat) : Bool :=
  let l := s.ctxLife c
  l == lifeOn || l == lifeStarting || l == lifeStopping

/-- The context and the word, one of `ws`, that maps an LTN on a link port: of the contexts whose pairs count as held, and failing these
of those in FAULT; none if no context that is not OFF holds it (R102, R104). -/
def State.ctxMapping (s : State) (ws : List Nat) (port ltn : Nat) : Option (Nat × Nat) :=
  let among (ok : Nat → Bool) : Option (Nat × Nat) := (List.range 256).findSome? (fun c =>
    if ok c then (ws.find? (fun w => s.ptMaps c w port ltn)).map (fun w => (c, w)) else none)
  match among s.holds with
  | some r => some r
  | none => among (fun c => s.ctxLife c == lifeFault)

/-- The context that receives an LTN on a link port, and its ingress word. -/
def State.ctxByRx (s : State) (port ltn : Nat) : Option (Nat × Nat) := s.ctxMapping [0, 1] port ltn

/-- The context that sends an LTN on a link port, and its egress index. -/
def State.ctxByTx (s : State) (port ltn : Nat) : Option (Nat × Nat) := (s.ctxMapping [2, 3] port ltn).map (fun e => (e.1, e.2 - 2))

/-- Discard a cell or entry under an LTN that no ON context holds (R104). -/
def State.noCtx (s : State) (port : Nat) : State := (s.inc (TUN_NOCTX port)).raise 15 2

/-! ## Buffer cells (R127, R133) -/

def State.bankUp (s : State) (b : Nat) : Bool :=
  if b < 32 then s.bit GRD_BANK_UP_LO b else s.bit GRD_BANK_UP_HI (b - 32)

def State.bankRet (s : State) (b : Nat) : Bool :=
  if b < 32 then s.bit PWR_RET_LO b else s.bit PWR_RET_HI (b - 32)

def State.powered (s : State) : Nat := 2048 * ((List.range 64).filter s.bankUp).length

/-- POOL_FREE.FREE: free cells in powered banks. -/
def State.poolFree (s : State) : Nat :=
  s.powered - (s.gird.bufs.filter (fun e => s.bankUp (e.1 / 2048))).length

/-- A free cell of a bank: the lowest free index. -/
def State.freeIn (s : State) (b : Nat) : Option Nat :=
  let used := (s.gird.bufs.filter (fun e => e.1 / 2048 == b)).map (·.1)
  if used.length ≥ 2048 then none
  else ((List.range 2048).map (2048 * b + ·)).find? (fun i => !used.contains i)

/-- Allocate a buffer cell: the banks in turn, retained banks first for a queue with RETPREF (R127). -/
def State.alloc (s : State) (retPref : Bool) (refs : Nat) (src : Option (Nat × Nat)) : Option (Nat × State) :=
  let order := (List.range 64).map (fun i => (s.gird.nextBank + i) % 64)
  let up := order.filter s.bankUp
  let cands := if retPref then up.filter s.bankRet ++ up.filter (fun b => !s.bankRet b) else up
  match cands.findSome? (fun b => (s.freeIn b).map (fun i => (b, i))) with
  | none => none
  | some (b, i) => some (i, { s with gird := { s.gird with bufs := tset s.gird.bufs i ⟨refs, src⟩,
                                                           nextBank := (b + 1) % 64 } })

/-- Release one reference; the cell is freed when none is left, which advances the freed counter of a 1040-mode port
(R133, R144). -/
def State.release (s : State) (buf : Nat) : State :=
  match tget? s.gird.bufs buf with
  | none => s
  | some b =>
    if b.refs ≤ 1 then
      let s := { s with gird := { s.gird with bufs := tdel s.gird.bufs buf } }
      match b.src with
      | some (n, tc) => s.modPort n (fun p => { p with own1040 := tmod 0 p.own1040 tc (fun v => (v + 1) % 65536) })
      | none => s
    else { s with gird := { s.gird with bufs := tset s.gird.bufs buf { b with refs := b.refs - 1 } } }

/-! ## Queues (R129) -/

def State.queue (s : State) (q : Nat) : List QFrame := tget [] s.gird.queues q
def State.setQueue (s : State) (q : Nat) (l : List QFrame) : State :=
  { s with gird := { s.gird with queues := if l.isEmpty then tdel s.gird.queues q else tset s.gird.queues q l } }

/-- DEPTH(q): cells queued and not yet sent (R129). -/
def State.depth (s : State) (q : Nat) : Nat := (s.queue q).foldl (fun a f => a + f.cells.length) 0

/-- Change the frame of a queue with a context and frame number. -/
def State.modFrame (s : State) (q c id : Nat) (f : QFrame → QFrame) : State :=
  s.setQueue q ((s.queue q).map (fun x => if x.ctx = c ∧ x.id = id then f x else x))

def State.findFrame (s : State) (q c id : Nat) : Option QFrame := (s.queue q).find? (fun x => x.ctx == c && x.id == id)

/-- Relink the context's kept cells of a queue, in SEQ order, just before its first unsent cell or at the tail (R134). -/
def State.applyRelink (s : State) (q c : Nat) : State :=
  let back := (s.ctx c).kept.filter (fun k => k.q == q && !k.queued)
  let s := s.modCtx c (fun t => { t with kept := t.kept.map (fun k => if k.q = q then { k with queued := true } else k) })
  let toQ (k : Kept) : QCell := ⟨k.cell, k.buf, false, true⟩
  let ids := (back.map (fun k => k.frame)).eraseDups
  let fr (id : Nat) : QFrame :=
    let ks := back.filter (fun k => k.frame == id)
    let k0 := ks.head?
    { ctx := c, eg := (k0.map (·.eg)).getD 0, id := id, tc := (k0.map (·.cell.tc)).getD 0,
      age := (k0.map (·.cell.age)).getD 0, tw := (k0.map (·.cell.tw)).getD false, cells := ks.map toQ,
      lsStored := ks.any (fun k => k.cell.ls), high := (ks.getLast?.map (·.cell.seq)).getD 0 }
  let queue := s.queue q
  let present := ids.filter (fun id => queue.any (fun f => f.ctx == c && f.id == id))
  let fresh := (ids.filter (fun id => !present.contains id)).map fr
  let queue := queue.map (fun f => if f.ctx = c ∧ present.contains f.id then { f with cells := (fr f.id).cells ++ f.cells } else f)
  let before := queue.takeWhile (fun f => f.ctx != c)
  let s := s.setQueue q (before ++ fresh ++ queue.drop before.length)
  { s with gird := { s.gird with relink := s.gird.relink.filter (fun e => e != (q, c)) } }

/-- At a frame boundary of a queue, where no frame of it is partly sent, its pending relinks take effect (R134). -/
def State.relinkDue (s : State) (q : Nat) : State :=
  s.when (!(s.queue q).head?.any (fun f => f.started)) fun s =>
    foldS (s.gird.relink.filter (fun e => e.1 == q)) (fun s e => s.applyRelink q e.2) s

/-- Take a frame out of its queue. -/
def State.unlinkFrame (s : State) (q c id : Nat) : State :=
  s.setQueue q ((s.queue q).filter (fun x => !(x.ctx == c && x.id == id)))

/-- A frame is gone from its queue, which may be a frame boundary. -/
def State.removeFrame (s : State) (q c id : Nat) : State := (s.unlinkFrame q c id).relinkDue q

/-- The ingress reserve of a link port: 8 × C1040_CRED.INIT cells while it is ACTIVE in 1040 mode (R144). -/
def State.rsv1040 (s : State) (n : Nat) : Nat :=
  if s.active n && s.on (LNK_STATUS_MODE1040 n) then 8 * s.rd (LNK_C1040_CRED_INIT n).inForce else 0

/-- What is left of a port's ingress reserve: less the cells that hold what was received on the port (R144). -/
def State.left1040 (s : State) (n : Nat) : Nat :=
  s.rsv1040 n - (s.gird.bufs.filter (fun e => e.2.src.any (fun x => x.1 == n))).length

/-- RSV_SUM: reserves of all queues and of the 1040-mode ports (R131, R144). -/
def State.rsvSum (s : State) : Nat :=
  (List.range 128).foldl (fun a q => a + s.rd (GRD_QCFG_A_RSV q)) 0 + (s.rsv1040 0 + s.rsv1040 1 + s.rsv1040 2)

/-- The reserves honoured, in queue order while the powered cells last (R131).  DESIGN CHOICE (log entry 128): the ingress reserves of
1040-mode ports are honoured before those of the queues. -/
def State.rsvHonoured (s : State) : List Nat :=
  let all := (List.range 128).map (fun q => s.rd (GRD_QCFG_A_RSV q))
  if s.powered ≥ s.rsvSum then all
  else (all.foldl (fun (a : List Nat × Nat) r => let g := min r a.2; (a.1 ++ [g], a.2 - g))
    ([], s.powered - (s.rsv1040 0 + s.rsv1040 1 + s.rsv1040 2))).1

/-- Cells of a queue with the room set aside in it. -/
def State.filled (s : State) (q : Nat) : Nat := s.depth q + tget 0 s.gird.aside q

/-- The unused reserve (R129). -/
def State.unusedRsv (s : State) : Nat :=
  ((List.range 128).zip s.rsvHonoured).foldl (fun a (e : Nat × Nat) => a + (e.2 - s.filled e.1)) 0

/-- Free cells less the room set aside for presented frames and the ingress reserves of 1040-mode ports (R130, R144). -/
def State.freeNow (s : State) : Nat :=
  s.poolFree - (s.gird.aside.foldl (fun a e => a + e.2) 0) - (s.left1040 0 + s.left1040 1 + s.left1040 2)

/-- The girdle admits `n` cells to a queue (R130). -/
def State.canAdmit (s : State) (q n : Nat) : Bool :=
  let rsv := (s.rsvHonoured)[q]?.getD 0
  let d := s.filled q
  let fromRsv := min n (rsv - d)
  let rest := n - fromRsv
  decide (n ≤ s.freeNow) &&
    (rest == 0 || (decide (d + n ≤ s.rd (GRD_QCFG_B_MAX q)) && decide (s.unusedRsv + rest ≤ s.freeNow + fromRsv)))

/-! ## Counting (R130, R136, R137) -/

/-- Count discarded cells by cause: 0 aged and 2 void in DROP_AGE, 1 refused in DROP_FULL, 3 in no girdle counter. -/
def State.countDrop (s : State) (q c cause n : Nat) : State :=
  if n = 0 then s
  else if cause = 1 then (s.inc (GRD_DROP_FULL (q / 8)) n).raise 13 1
  else if cause = 3 then s
  else (s.inc (GRD_DROP_AGE (q / 8)) n).inc (CTX_DROP_AGE c) n

/-- Count an INC tail sent, or a frame ended or discarded with INC, at an egress (R137, R140). -/
def State.countInc (s : State) (q c : Nat) : State :=
  ((s.inc (GRD_INC_OUT (q / 8))).inc (CTX_DROP_INC c)).raise 13 3

/-! ## Discard and INC tails (R136, R137) -/

/-- Serial order of SEQ values. -/
def seqLater (a b : Nat) : Bool :=
  let d := (a + 65536 - b % 65536) % 65536
  1 ≤ d && d < 32768

/-- Discard the queued cells of a frame. -/
def State.discardCells (s : State) (q : Nat) (f : QFrame) (cause : Nat) : State :=
  let s := foldS f.cells (fun s x => s.release x.buf) s
  let s := s.modFrame q f.ctx f.id (fun x => { x with cells := [] })
  let gone := (f.cells.filter (fun x => x.kept)).map (fun x => x.buf)
  let s := s.modCtx f.ctx (fun t => { t with kept := t.kept.filter (fun k => !(k.queued && gone.contains k.buf)) })
  s.countDrop q f.ctx cause f.cells.length

/-- Later cells of the frame are discarded as they arrive. -/
def State.addDrop (s : State) (q c id cause : Nat) : State :=
  { s with gird := { s.gird with drops := s.gird.drops ++ [⟨q, c, id, cause⟩] } }

def State.delDrop (s : State) (q c id : Nat) : State :=
  { s with gird := { s.gird with drops := s.gird.drops.filter (fun d => !(d.q == q && d.ctx == c && d.id == id)) } }

/-- Discard a frame of which nothing has left: every queued cell, and every cell that arrives later (R136). -/
def State.discardFrame (s : State) (q : Nat) (f : QFrame) (cause : Nat) : State :=
  let s := (s.discardCells q f cause).removeFrame q f.ctx f.id
  s.when (!f.lsStored) (·.addDrop q f.ctx f.id cause)

/-- The head of the frame has left (R137): its queued cells are discarded and a tail takes their place.  `extraLs` tells
that a refused cell was the LS cell with SEQ `extraSeq`. -/
def State.beginTail (s : State) (q : Nat) (f : QFrame) (cause : Nat) (extraLs : Bool) (extraSeq : Nat) : State :=
  let s := s.discardCells q f cause
  if s.reliable f.ctx then
    if s.isOrigin f.ctx then
      let seq := match f.cells.find? (fun x => x.kept) with
        | some x => x.cell.seq
        | none => s.rd (CTX_SEQ_TX_NEXT f.ctx)
      let s := s.wr (CTX_SEQ_TX_NEXT f.ctx) (seq + 1)
      s.modFrame q f.ctx f.id (fun x => { x with tail := some ⟨cause, some seq, f.high, s.cycle⟩ })
    else (s.removeFrame q f.ctx f.id).when (!f.lsStored && !extraLs) (·.addDrop q f.ctx f.id 3)
  else
    let ls := f.cells.find? (fun x => x.cell.ls)
    let seq := match ls with
      | some x => some x.cell.seq
      | none => if extraLs then some extraSeq else none
    s.modFrame q f.ctx f.id (fun x => { x with tail := some ⟨cause, seq, f.high, s.cycle⟩ })

/-! ## Enqueue (R130, R133, R140, R141) -/

/-- A cell is refused at a queue (R130). -/
def State.refuse (s : State) (q c id : Nat) (cell : Cell) : State :=
  let s := (s.inc (GRD_DROP_FULL (q / 8))).raise 13 1
  if s.reliable c && !s.isOrigin c then s
  else match s.findFrame q c id with
    | none => s.when (!cell.ls) (·.addDrop q c id 1)
    | some f =>
      if f.started then s.beginTail q { f with high := if seqLater cell.seq f.high then cell.seq else f.high } 1 cell.ls cell.seq
      else ((s.discardCells q f 1).removeFrame q c id).when (!cell.ls) (·.addDrop q c id 1)

/-- What a queue makes of an arriving cell before admission: none lets it go on (R130, R136, R137, R140). -/
def State.heldArrival (s : State) (q c id : Nat) (cell : Cell) : Option State :=
  match s.gird.drops.find? (fun d => d.q == q && d.ctx == c && d.id == id) with
  | some d => some ((s.countDrop q c d.cause 1).when cell.ls (·.delDrop q c id))
  | none =>
    match s.findFrame q c id with
    | some f =>
      match f.tail with
      | some t =>
        let seq := if t.seq.isNone && cell.ls then some cell.seq else t.seq
        let high := if seqLater cell.seq t.high then cell.seq else t.high
        some ((s.countDrop q c t.cause 1).modFrame q c id
          (fun x => { x with lsStored := x.lsStored || cell.ls, tail := some { t with seq := seq, high := high } }))
      | none =>
        if cell.inc then
          let s := s.discardCells q f 3
          if f.started then none else some ((s.removeFrame q c id).countInc q c)
        else none
    | none => if cell.inc then some (s.countInc q c) else none

/-- The cell is marked for the queue (R141); never at the egress of a 1040-mode port (R144). -/
def State.markFor (s : State) (q : Nat) : Bool :=
  let thr := s.rd (GRD_QCFG_A_CM_THR q)
  let cmFree := s.rd GRD_POOL_CM_CM_FREE
  !(q < 24 && s.on (LNK_STATUS_MODE1040 (q / 8))) &&
    ((thr != 0 && s.depth q ≥ thr) || (q % 8 ≤ 4 && cmFree != 0 && s.poolFree < cmFree))

/-- FREE is below CM_FREE (R141). -/
def State.poolIsLow (s : State) : Bool := s.rd GRD_POOL_CM_CM_FREE != 0 && s.poolFree < s.rd GRD_POOL_CM_CM_FREE

/-- Note whether FREE is below CM_FREE, before a change that may take it there. -/
def State.notePool (s : State) : State := { s with gird := { s.gird with poolLow := s.poolIsLow } }

/-- After that change: POOL_LOW is set where FREE has fallen below CM_FREE (R141). -/
def State.showPool (s : State) : State := s.notePool.when (s.poolIsLow && !s.gird.poolLow) (·.raise 13 0)

/-- Put a stored cell at the end of its frame, or as a new frame at the end of the queue (R129). -/
def State.putCell (s : State) (q c eg id : Nat) (x : QCell) : State :=
  match s.findFrame q c id with
  | some _ => s.modFrame q c id (fun f =>
      { f with cells := f.cells ++ [x], lsStored := f.lsStored || x.cell.ls,
               high := if seqLater x.cell.seq f.high then x.cell.seq else f.high })
  | none => s.setQueue q (s.queue q ++
      [{ ctx := c, eg := eg, id := id, tc := x.cell.tc, age := x.cell.age, tw := x.cell.tw, cells := [x],
         lsStored := x.cell.ls, high := x.cell.seq }])

/-- The first cell queued at either end ends the partial idle of a link (R355), and resumes a suspended one (R356). -/
def State.endIdle (s : State) (n : Nat) : State :=
  (s.when (s.port n).pw.idle (fun s => s.modPort n (fun p => { p with pw := { p.pw with idle := false } }))).when
    (s.rd PWR_PS_STATUS_STATE ≤ 1) (·.resumeLink n)

/-- One place of a stored cell: its context, frame, queue and egress, and the cell with the header that it has there (R133). -/
structure Dest where
  ctx : Nat
  id : Nat
  q : Nat
  eg : Nat
  cell : Cell
  deriving DecidableEq, Repr

/-- Use up one cell of the room set aside in a queue (R130). -/
def State.useAside (s : State) (q : Nat) : State :=
  let k := tget 0 s.gird.aside q
  { s with gird := { s.gird with aside := if k ≤ 1 then tdel s.gird.aside q else tset s.gird.aside q (k - 1) } }

/-- A stored cell enters its queue: marked, counted and linked to its frame (R129, R141). -/
def State.link (s : State) (buf : Nat) (d : Dest) : State :=
  let m := s.markFor d.q
  let s := (s.when m (·.inc (GRD_CM_MARKED (d.q / 8)))).putCell d.q d.ctx d.eg d.id ⟨d.cell, buf, m, false⟩
  s.when (d.q < 24) (·.endIdle (d.q / 8))

/-- Admission of a cell at one of its queues: the places that admitted it so far, and whether one refused it (R130, R133).  A cell of a
1040-mode port is admitted from the port's reserve (R144), one of a presented frame from the room set aside. -/
def State.admitDest (src : Option (Nat × Nat)) (room : Bool) (a : State × List Dest × Bool) (d : Dest) : State × List Dest × Bool :=
  match a.1.heldArrival d.q d.ctx d.id d.cell with
  | some t => (t, a.2)
  | none =>
    -- an INC cell whose frame is partly sent: the frame's queued cells go before it (R140)
    let s := match a.1.findFrame d.q d.ctx d.id with
      | some f => if d.cell.inc then a.1.discardCells d.q f 3 else a.1
      | none => a.1
    if src.isSome || room || s.canAdmit d.q 1 then (s.when room (·.useAside d.q), a.2.1 ++ [d], a.2.2)
    else (s.refuse d.q d.ctx d.id d.cell, a.2.1, true)

/-- CELL_ENQUEUE (R130, R133, R141): a cell is offered to its queues; each admits, refuses or discards it; it is stored once, with one
reference for each queue that admits it.  The second result says that a queue refused it. -/
def State.store (s : State) (ds : List Dest) (src : Option (Nat × Nat)) (room : Bool) : State × Bool :=
  let (s, ok, no) := ds.foldl (State.admitDest src room) (s, [], false)
  if ok.isEmpty then (s, no)
  else
    match s.notePool.alloc (ok.any (fun d => s.on (GRD_QCFG_B_RETPREF d.q))) ok.length src with
    | none => (foldS ok (fun s d => s.refuse d.q d.ctx d.id d.cell) s, true)
    | some (buf, s) => ((foldS ok (fun s d => s.link buf d) s).showPool, no)

/-- CELL_ENQUEUE of a cell of one context at its queues and egresses. -/
def State.enqueue (s : State) (c id : Nat) (cell : Cell) (qs : List (Nat × Nat)) (src : Option (Nat × Nat)) : State × Bool :=
  s.store (qs.map (fun e => ⟨c, id, e.1, e.2, cell⟩)) src false

/-- A new frame number. -/
def State.newFrame (s : State) : Nat × State :=
  (s.gird.nextFrame, { s with gird := { s.gird with nextFrame := s.gird.nextFrame + 1 } })

/-! ## Ageing (R135) -/

/-- The AGE of a time in nanoseconds (R135). -/
def ageOf (ns : Nat) : Nat := ns / 64 % 2 ^ 24

/-- The ageing limit of a cell in nanoseconds (R114, R135). -/
def State.ageLimit (s : State) (c tc : Nat) : Nat :=
  let n := s.rd (CTX_MODE_AGECLS c).inForce
  1000 * (if n = 0 then s.rd (GRD_AGE_TC_LIMIT tc) else s.rd (GRD_AGE_X_LIMIT n))

/-- The cell is aged (R135, R114, R139). -/
def State.aged (s : State) (c : Nat) (cell : Cell) : Bool :=
  !s.reliable c && !s.on GRD_STATUS_AGE_HOLD &&
    ((ageOf s.now + 2 ^ 24 - cell.age % 2 ^ 24) % 2 ^ 24) * 64 > s.ageLimit c cell.tc

/-- Apply R136 or R137 to the aged first cell of a queued frame. -/
def State.ageFrame (s : State) (q : Nat) (f : QFrame) (fs : Bool) : State :=
  let s := (s.inc (GRD_AGE_FRAMES (q / 8))).raise 13 2
  if fs then s.discardFrame q f 0 else s.beginTail q f 0 false 0

/-! ## Replay lists (R117, R134) -/

/-- ACKST.OUTSTANDING shows the cells kept for replay. -/
def State.showKept (s : State) (c : Nat) : State := s.wr (CTX_ACKST_OUTSTANDING c) (s.ctx c).kept.length

/-- Start a replay: at each queue now, or at its next frame boundary (R134). -/
def State.startReplay (s : State) (c : Nat) : State :=
  foldS (((s.ctx c).kept.filter (fun k => !k.queued)).map (fun k => k.q)).eraseDups (fun s q =>
    { s with gird := { s.gird with relink := s.gird.relink.filter (fun e => e != (q, c)) ++ [(q, c)] } }.relinkDue q) s

/-- An acknowledgement frees every kept cell up to a SEQ: the state and the number of cells freed (R117, R134). -/
def State.freeAcked (s : State) (c seq : Nat) : State × Nat :=
  let acked (x : Nat) : Bool := !seqLater x seq
  let gone := (s.ctx c).kept.filter (fun k => acked k.cell.seq)
  let s := foldS gone (fun s k =>
    let s := s.release k.buf
    s.when k.queued (fun s => (s.setQueue k.q (((s.queue k.q).map (fun f =>
      if f.ctx = c ∧ f.id = k.frame then { f with cells := f.cells.filter (fun x => !(x.kept && x.buf == k.buf)) } else f)).filter
        (fun f => !(f.ctx == c && f.id == k.frame && f.cells.isEmpty && f.tail.isNone && f.lsStored)))).relinkDue k.q)) s
  let s := s.modCtx c (fun t => { t with kept := t.kept.filter (fun k => !acked k.cell.seq) })
  (s.showKept c, gone.length)

/-! ## Dequeue (R129, R134, R142) -/

/-- A cell that leaves a queue: its context, egress and frame, and the cell as sent. -/
structure Sent where
  ctx : Nat
  eg : Nat
  id : Nat
  cell : Cell
  replay : Bool
  tail : Bool
  deriving DecidableEq, Repr

/-- A reliable origin with a link egress numbers and keeps the cell as it leaves (R115, R117, R134). -/
def State.keeps (s : State) (q c : Nat) : Bool := s.reliable c && s.isOrigin c && q < 24

/-- The head of the queue is held by REPLAY_MAX (R117). -/
def State.capped (s : State) (q c : Nat) (kept : Bool) : Bool :=
  s.keeps q c && !kept && s.rd (CTX_ACKST_OUTSTANDING c) ≥ s.rd (CTX_REL_REPLAY_MAX c)

/-- A cell departs from the frame at the head of a queue. -/
def State.depart (s : State) (q : Nat) (f : QFrame) (x : QCell) (isTail : Bool) : State × Sent :=
  let keep := s.keeps q f.ctx
  let cell := { x.cell with cm := x.cell.cm || x.mark }
  -- the SEQ of a reliable origin's cell is given at its first sending
  let (cell, s) :=
    if keep && !isTail && !x.kept then
      ({ cell with seq := s.rd (CTX_SEQ_TX_NEXT f.ctx) }, s.inc (CTX_SEQ_TX_NEXT f.ctx))
    else (cell, s)
  let s := s.modFrame q f.ctx f.id (fun y => { y with started := true, cells := if isTail then y.cells else y.cells.drop 1 })
  let late := isTail && !f.lsStored && !keep
  let s := s.when late (·.addDrop q f.ctx f.id ((f.tail.map (·.cause)).getD 3))
  let s := s.when cell.ls (·.unlinkFrame q f.ctx f.id)
  let s := s.when cell.inc (·.countInc q f.ctx)
  let s :=
    if keep then
      if x.kept then
        s.modCtx f.ctx (fun t => { t with kept := t.kept.map (fun k =>
          if k.buf = x.buf ∧ k.queued then { k with queued := false, sent := s.cycle, cell := cell } else k) })
      else
        (s.modCtx f.ctx (fun t => { t with kept := t.kept ++ [⟨cell, x.buf, q, f.id, f.eg, s.cycle, false⟩] })).showKept f.ctx
    else if isTail then s else s.release x.buf
  (s.when cell.ls (·.relinkDue q), ⟨f.ctx, f.eg, f.id, cell, x.kept, isTail⟩)

/-- The INC tail of a frame (R137). -/
def QFrame.tailCell (f : QFrame) (seq : Nat) : Cell :=
  { ltn := 0, tc := f.tc, fs := false, ls := true, cm := false, inc := true, tw := f.tw, fill := 0, keysel := 0,
    seq := seq % 65536, age := f.age, payload := List.replicate 128 0 }

/-- The girdle's `dequeue`: the head cell of a queue for an opportunity, applying ECC voiding, ageing, INC tails, the
REPLAY_MAX limit and `may_start`.  `ecc` tells what the ECC of the cells read shows: 0 good, 1 corrected, 2
uncorrectable (R128), as a table by buffer cell; a key of 131,072 more tells of an error corrected in the cell's descriptor.  Once a frame is
to be ended by a tail, only cells that a replay put back go before the tail.  Each round that does not answer removes a frame or turns it into a tail, so `fuel` bounds them. -/
def State.dequeue (s : State) (q : Nat) (ecc : Tbl Nat) (mayStart : State → QFrame → Cell → State × Bool) : Nat → State × Option Sent
  | 0 => (s, none)
  | fuel + 1 =>
    match s.queue q with
    | [] => (s, none)
    | f :: _ =>
      match f.tail.filter (fun _ => !f.cells.head?.any (fun x => x.kept)) with
      | some t =>
        match t.seq with
        | none => (s, none)
        | some seq =>
          if s.capped q f.ctx false then (s, none)
          else
            -- a reliable origin keeps the tail like any cell of the tunnel
            if s.keeps q f.ctx then
              match s.alloc (s.on (GRD_QCFG_B_RETPREF q)) 1 none with
              | none => (s, none)
              | some (b, s) => let r := s.depart q f ⟨f.tailCell seq, b, false, false⟩ true; (r.1, some r.2)
            else let r := s.depart q f ⟨f.tailCell seq, 0, false, false⟩ true; (r.1, some r.2)
      | none =>
        match f.cells with
        | [] => (s, none)
        | x :: _ =>
          if tget 0 ecc x.buf = 2 then
            let s := (((s.inc GRD_ECC_UNCORR).inc (GRD_ECC_VOID (q / 8))).raise 13 5).inc (GRD_AGE_FRAMES (q / 8))
            let s := s.raise 13 2
            let s := if x.cell.fs && !f.started && !x.kept then s.discardFrame q f 2 else s.beginTail q f 2 false 0
            State.dequeue s q ecc mayStart fuel
          else if q ≥ 24 && !f.started && !x.cell.fs && !x.cell.inc then
            State.dequeue (s.discardFrame q f 3) q ecc mayStart fuel
          else if s.aged f.ctx x.cell then State.dequeue (s.ageFrame q f x.cell.fs) q ecc mayStart fuel
          else if s.capped q f.ctx x.kept then (s, none)
          else
            let (s, ok) := if x.cell.fs then mayStart s f x.cell else (s, true)
            let fixed := (tget 0 ecc x.buf == 1).toNat + (tget 0 ecc (131072 + x.buf) == 1).toNat
            let s := s.when (ok && fixed != 0) (fun s => (s.inc GRD_ECC_CORR fixed).raise 13 4)
            if ok then let r := s.depart q f x false; (r.1, some r.2) else (s, none)

/-- Dequeue with enough rounds.  No cell leaves the buffer while the girdle is wedged (R146). -/
def State.takeCell (s : State) (q : Nat) (ecc : Tbl Nat) (mayStart : State → QFrame → Cell → State × Bool) : State × Option Sent :=
  if s.on (PG_STATE_WEDGED 13) then (s, none) else s.dequeue q ecc mayStart (2 * (s.queue q).length + 2)

/-! ## Stop and fault of a context (R111, R112) -/

/-- A stop discards the unsent cells of one frame of a queue (R111 step 3): cells that a replay has put back stay, and a frame whose head
has left and whose end has not is ended by an INC tail. -/
def State.stopFrame (s : State) (q : Nat) (f : QFrame) : State :=
  let kept := f.cells.filter (fun x => x.kept)
  let fresh := f.cells.filter (fun x => !x.kept)
  if f.tail.isSome || kept.getLast?.any (fun x => x.cell.ls) then s
  else if f.started || !kept.isEmpty then
    let s := s.inc (CTX_DROP_STOP f.ctx) fresh.length
    let s := s.modFrame q f.ctx f.id (fun x => { x with cells := fresh })
    (s.beginTail q { f with cells := fresh } 3 false 0).modFrame q f.ctx f.id (fun x => { x with cells := kept })
  else ((s.inc (CTX_DROP_STOP f.ctx) fresh.length).discardCells q f 3).removeFrame q f.ctx f.id

/-- A fault frees every cell of one frame of a queue: those never sent are counted in DROP_STOP here (R112). -/
def State.faultFrame (s : State) (q : Nat) (f : QFrame) : State :=
  let fresh := f.cells.filter (fun x => !x.kept)
  let s := (s.inc (CTX_DROP_STOP f.ctx) fresh.length).modFrame q f.ctx f.id (fun x => { x with cells := fresh })
  (s.discardCells q { f with cells := fresh } 3).removeFrame q f.ctx f.id

/-- Discard the context's queued cells.  With `tails` (a stop) a frame whose head has left is ended by an INC tail and sent cells stay kept;
otherwise (a fault) kept cells go too.  The discarded cells are counted in DROP_STOP. -/
def State.flushCtx (s : State) (c : Nat) (tails : Bool) : State :=
  let own (l : List QFrame) : List QFrame := l.filter (fun f => f.ctx == c)
  let s := { s with gird := { s.gird with drops := s.gird.drops.filter (fun d => d.ctx != c),
                                          relink := if tails then s.gird.relink else s.gird.relink.filter (fun e => e.2 != c) } }
  let s := foldS (s.gird.queues.map (·.1)) (fun s q =>
    foldS (own (s.queue q)) (fun s f => if tails then s.stopFrame q f else s.faultFrame q f) s) s
  let held := match (s.ctx c).rx with | some r => r.held.length | none => 0
  let s := (s.inc (CTX_DROP_STOP c) held).modCtx c (fun t => { t with rx := none, headless := false })
  if tails then s
  else
    let ks := (s.ctx c).kept
    let s := foldS ks (fun s k => s.release k.buf) s
    (((s.inc (CTX_DROP_STOP c) ks.length).modCtx c (fun t => { t with kept := [] }))).showKept c

/-- CONTEXT_FAULT (R112): queued cells and the replay buffer are freed, the cause and the cycle recorded. -/
def State.ctxFault (s : State) (c cause : Nat) : State :=
  let s := (s.flushCtx c false).ctxSetLife c lifeFault
  ((s.flag (CTX_STATE_EN_PENDING c) false).wr (CTX_STATE_CAUSE c) cause).wr (CTX_FAULT_CYCLE c) s.cycle

end Sys2Proof.Machine
end

