-- ==== Sys2Proof/Machine/Slots.lean ====
section
/-!
DEFINITION. The bytes of slots: cell headers, control headers, message units and trailers (R78, R80, R81), the key a slot
is sealed with (R378–R380), and the units that wait for control slots (R82).
-/

namespace Sys2Proof.Machine

/-- One bit as a number. -/
def bitN (b : Bool) : Nat := b.toNat

/-- The 64-bit cell header (*Cell header*). -/
def cellHeader (c : Cell) : Nat :=
  (c.ltn % 256) * 2 ^ 56 + (c.tc % 8) * 2 ^ 53 + bitN c.fs * 2 ^ 52 + bitN c.ls * 2 ^ 51 + bitN c.cm * 2 ^ 50 +
  bitN c.inc * 2 ^ 49 + bitN c.tw * 2 ^ 48 + (c.fill % 128) * 2 ^ 41 + (c.keysel % 2) * 2 ^ 40 +
  (c.seq % 65536) * 2 ^ 24 + c.age % 2 ^ 24

/-- A payload of 128 bytes. -/
def pad128 (l : List Byte) : List Byte := (l ++ List.replicate 128 0).take 128

/-- The 136 bytes of a data slot before its trailer. -/
def cellBytes (c : Cell) : List Byte := beBytes 8 (cellHeader c) ++ pad128 c.payload

/-- Idle fill (R78). -/
def idleFill : Cell := { ltn := 0xFF }

/-- The unencrypted trailer: CRC-32C in [63:32] (R80). -/
def crcTrailer (bs : List Byte) : Nat := crc32c bs * 2 ^ 32

/-- The 96-bit nonce: sender's unit ID [31:0], cycle number, slot index, zero (R378). -/
def slotNonce (unit cycno slot : Nat) : List Byte :=
  beBytes 4 (unit % 2 ^ 32) ++ beBytes 4 cycno ++ beBytes 2 slot ++ beBytes 2 0

/-- XOR a payload with the key stream. -/
def cryptPayload (k : BitVec 256) (nonce l : List Byte) : List Byte :=
  ((List.range l.length).zip l).map (fun (e : Nat × Byte) => e.2 ^^^ Config.gcmStream k nonce e.1)

def State.lk (s : State) (n : Nat) : LinkKey := (s.port n).key
def State.modLk (s : State) (n : Nat) (f : LinkKey → LinkKey) : State := s.modPort n (fun p => { p with key := f p.key })

/-- The key pair and KEYSEL for a slot of cycle `c` (R379, R380): the old key up to W, the new key with KEYSEL 1 from W
to P − 1, and with KEYSEL 0 from P. -/
def keyFor (k : LinkKey) (c : Nat) : Option KeyPair × Nat :=
  match k.w with
  | some w =>
    if k.switches && cycGe c w then
      (if k.next.isSome then k.next else k.cur, if cycGe c (cycAdd w 8) then 0 else 1)
    else (k.cur, 0)
  | none => (k.cur, 0)

/-- The far end's unit ID. -/
def State.farUnit (s : State) (n : Nat) : Nat := s.rd (LNK_PEER_ID_LO n) + 2 ^ 32 * s.rd (LNK_PEER_ID_HI n)

/-- A data slot as sent: the header with KEYSEL, the payload (encrypted when KEYS_ON), and the trailer (R80, R378).  DESIGN CHOICE (log
entry 127): idle fill carries the KEYSEL of its cycle as every slot does (R379), its other header fields being zero (R78). -/
def State.sealCell (s : State) (n slot : Nat) (c : Cell) : Cell × Nat :=
  if s.on (LNK_STATUS_KEYS_ON n) then
    match keyFor (s.lk n) s.cycle with
    | (some k, sel) =>
      let nonce := slotNonce s.chip.unitId s.cycle slot
      let c := { c with keysel := sel, payload := cryptPayload k.tx nonce (pad128 c.payload) }
      (c, (Config.gcmTag k.tx nonce (beBytes 8 (cellHeader c)) c.payload).toNat)
    | (none, _) => (c, 0)
  else
    let c := { c with keysel := 0, payload := pad128 c.payload }
    (c, crcTrailer (cellBytes c))

/-- A received data slot of cycle `cycno`: the cell with its payload decrypted, or none where the trailer or KEYSEL is
wrong; the second result says that KEYSEL differed from the rule (R80, R380). -/
def State.openCell (s : State) (n slot cycno : Nat) (c : Cell) (trailer : Nat) : Option Cell × Bool :=
  if s.on (LNK_STATUS_KEYS_ON n) then
    match keyFor (s.lk n) cycno with
    | (some k, sel) =>
      let nonce := slotNonce (s.farUnit n) cycno slot
      if c.keysel ≠ sel then (none, true)
      else if (Config.gcmTag k.rx nonce (beBytes 8 (cellHeader c)) (pad128 c.payload)).toNat = trailer then
        (some { c with payload := cryptPayload k.rx nonce (pad128 c.payload) }, false)
      else (none, false)
    | (none, _) => (none, false)
  else (if trailer = crcTrailer (cellBytes c) then some c else none, false)

/-- The slot's tag verifies under the next key at an end that has not switched, in a cycle from W to W + 7 (R380). -/
def State.verifiesNext (s : State) (n slot cycno keysel : Nat) (aad ct : List Byte) (trailer : Nat) : Bool :=
  let k := s.lk n
  match k.w, k.next with
  | some w, some nx =>
    !k.switches && cycGe cycno w && !cycGe cycno (cycAdd w 8) && keysel == 1 &&
      (Config.gcmTag nx.rx (slotNonce (s.farUnit n) cycno slot) aad ct).toNat == trailer
  | _, _ => false

/-! ## Control slots (R81, R82) -/

/-- The 32 bytes of a message unit. -/
def unitBytes (u : CtlUnit) : List Byte :=
  let b := match u with
    | .cycle m =>
      [1, BitVec.ofNat 8 (bitN m.timeMaster + 2 * bitN m.timeValid + 4 * bitN m.rxValid), 0, 0] ++ beBytes 8 m.txStamp ++
        beBytes 8 m.rxStamp ++ beBytes 4 m.rxCycno ++ beBytes 1 m.pendEpoch ++ beBytes 1 m.pend ++ beBytes 4 m.pendCycle
    | .allot op reason a =>
      [2] ++ beBytes 1 op ++ beBytes 1 a.target ++ beBytes 1 reason ++ beBytes 4 a.swap ++ beBytes 4 a.digP ++
        beBytes 4 a.digA ++ beBytes 2 a.carP ++ beBytes 2 a.carA ++ beBytes 4 a.prop
    | .ack es =>
      [3] ++ beBytes 1 es.length ++ es.flatMap (fun e => beBytes 1 e.ltn ++ beBytes 2 e.ackSeq ++ beBytes 1 e.cmCount ++
        beBytes 1 (bitN e.seqValid + 2 * bitN e.resync))
    | .role op reason swap unit sent =>
      [4] ++ beBytes 1 op ++ beBytes 1 reason ++ [0] ++ beBytes 4 swap ++ beBytes 8 unit ++ beBytes 4 sent
    | .state op power cycle => [5] ++ beBytes 1 op ++ beBytes 1 power ++ [0] ++ beBytes 4 cycle
    | .key op gen cycle data => [6] ++ beBytes 1 op ++ beBytes 1 gen ++ [0] ++ beBytes 4 cycle ++ beBytes 16 data
    | .mgmt seq data => [7] ++ beBytes 1 data.length ++ beBytes 2 seq ++ data
  (b ++ List.replicate 32 0).take 32

/-- The type code of a unit (*Message types*). -/
def unitType : CtlUnit → Nat
  | .cycle _ => 1 | .allot .. => 2 | .ack _ => 3 | .role .. => 4 | .state .. => 5 | .key .. => 6 | .mgmt .. => 7

/-- The control header (*Control header*). -/
def ctlHeader (slot nmsg keysel epoch cycno : Nat) : Nat :=
  0xC3 * 2 ^ 56 + (slot % 64) * 2 ^ 50 + (nmsg % 8) * 2 ^ 47 + (keysel % 2) * 2 ^ 40 + (epoch % 256) * 2 ^ 32 +
    cycno % 2 ^ 32

/-- The trailer of a control slot of this end: header and payload are authenticated, not encrypted (R81). -/
def State.sealCtl (s : State) (n slot nmsg epoch : Nat) (payload : List Byte) : Nat × Nat :=
  if s.on (LNK_STATUS_KEYS_ON n) then
    match keyFor (s.lk n) s.cycle with
    | (some k, sel) =>
      let h := beBytes 8 (ctlHeader slot nmsg sel epoch s.cycle)
      (sel, (Config.gcmTag k.tx (slotNonce s.chip.unitId s.cycle (61 * slot)) (h ++ payload) []).toNat)
    | (none, _) => (0, 0)
  else (0, crcTrailer (beBytes 8 (ctlHeader slot nmsg 0 epoch s.cycle) ++ payload))

/-- The trailer and KEYSEL of a received control slot are right; the second result says that KEYSEL differed. -/
def State.openCtl (s : State) (n slot nmsg keysel epoch cycno : Nat) (payload : List Byte) (trailer : Nat) : Bool × Bool :=
  let h := beBytes 8 (ctlHeader slot nmsg keysel epoch cycno)
  if s.on (LNK_STATUS_KEYS_ON n) then
    match keyFor (s.lk n) cycno with
    | (some k, sel) =>
      if keysel ≠ sel then (false, true)
      else ((Config.gcmTag k.rx (slotNonce (s.farUnit n) cycno (61 * slot)) (h ++ payload) []).toNat == trailer, false)
    | (none, _) => (false, false)
  else (trailer == crcTrailer (h ++ payload), false)

/-- Queue a message unit for a control slot (R82). -/
def State.queueUnit (s : State) (n : Nat) (u : CtlUnit) : State := s.modEp n (fun e => { e with units := e.units ++ [u] })

/-- Queue an ACK entry of an end's own; an entry waiting for the same LTN is brought up to date: the later ACK_SEQ stands, the counts of
marks add up to at most 255 (R82, R117, R118). -/
def State.queueAck (s : State) (n : Nat) (e : AckEntry) : State :=
  s.modEp n (fun t =>
    if t.acks.any (fun x => x.ltn == e.ltn) then
      { t with acks := t.acks.map (fun x => if x.ltn = e.ltn then { e with cmCount := min 255 (x.cmCount + e.cmCount) } else x) }
    else { t with acks := t.acks ++ [e] })

/-- Relay an ACK entry: it goes on unchanged (R117). -/
def State.relayAck (s : State) (n : Nat) (e : AckEntry) : State := s.modEp n (fun t => { t with acks := t.acks ++ [e] })

/-- A valid slot of the far end arrived (R379 step 4, R380): the first of cycle W or later is answered by OLD_RELEASED. -/
def State.slotValid (s : State) (n cycno : Nat) : State :=
  let k := s.lk n
  match k.w, k.next with
  | some w, some nx =>
    s.when (k.switches && cycGe cycno w && !k.relSent) fun s =>
      (s.queueUnit n (.key 6 nx.gen w 0)).modLk n (fun k => { k with relSent := true })
  | _, _ => s

end Sys2Proof.Machine
end

