-- ==== Sys2Proof/Machine/StepOps.lean ====
section
/-!
DEFINITION. What follows the time base: gate control lists (R164–R168), scheduled outputs (R194, R195), what a change of the time base
does to them, and the alignment of time on entry into CYCLE (R184).
-/

namespace Sys2Proof.Machine

/-! ## Gate control lists (R164–R168) -/

def State.gcl (s : State) (l : Nat) : GclS := tget {} s.sch.gcl l
def State.modGcl (s : State) (l : Nat) (f : GclS → GclS) : State :=
  { s with sch := { s.sch with gcl := tmod {} s.sch.gcl l f } }

/-- The entries of a list as they run within one cycle: gate states and length in ns.  The last entry holds to the end of
the cycle, and the list is cut there (R165). -/
def Gcl.segs (g : Gcl) : List (Nat × Nat) :=
  let cut (a : List (Nat × Nat) × Nat) (e : Nat × Nat) : List (Nat × Nat) × Nat :=
    let len := min (32 * e.2) (g.cycleNs - a.2)
    if len = 0 then a else (a.1 ++ [(e.1, len)], a.2 + len)
  let (l, used) := g.entries.foldl cut ([], 0)
  match l.reverse with
  | [] => []
  | (gt, len) :: r => ((gt, len + (g.cycleNs - used)) :: r).reverse

/-- The entry in force at an offset within the cycle: index, gates, and the offset of its end. -/
def segAt (off : Nat) : List (Nat × Nat) → Nat → Nat → Option (Nat × Nat × Nat)
  | [], _, _ => none
  | (gt, len) :: r, i, start => if off < start + len then some (i, gt, start + len) else segAt off r (i + 1) (start + len)

/-- The egress point that a list governs. -/
def gclPoint (l : Nat) : Nat := if l < 4 then 6 + l else l - 4

/-- The list is in force at its egress: GATE_EN is 1, and a link port is in 1040 mode (R164). -/
def State.gclActs (s : State) (l : Nat) : Bool :=
  s.on (SCH_GCL_CTRL_GATE_EN l) && (decide (l < 4) || s.on (LNK_STATUS_MODE1040 (l - 4)))

/-- The frames being sent at the egress of a list: class and frame number. -/
def State.openFrames (s : State) (l : Nat) : List (Nat × Nat) :=
  (List.range 8).filterMap (fun tc => ((s.queue (8 * gclPoint l + tc)).head?.filter (·.started)).map (fun f => (tc, f.id)))

/-- Closures that cut frames pass: a frame being sent since before the oper list came into force, whose gate these states close, is counted
in OVERRUN (R167). -/
def State.overrun (s : State) (l gates : Nat) : State :=
  let still := (s.gcl l).cut.filter (fun e => (s.openFrames l).contains e)
  let hit := still.filter (fun e => s.gclActs l && !gates.testBit e.1)
  let s := s.modGcl l (fun x => { x with cut := still.filter (fun e => !hit.contains e) })
  s.when (!hit.isEmpty) (fun s => (s.inc (SCH_OVERRUN l) hit.length).raise 14 1)

/-- Enter the entry that the time base gives (R165). -/
def State.gclEnter (s : State) (l : Nat) (g : Gcl) : State :=
  if g.cycleNs = 0 then s
  else
    let now := s.now
    let off := if now ≥ g.base then (now - g.base) % g.cycleNs else 0
    let start := if now ≥ g.base then now - off else g.base
    match segAt off g.segs 0 0 with
    | none => s
    | some (i, gt, e) =>
      let s := (s.wr (SCH_OPER_STATUS_GATES l) gt).wr (SCH_OPER_STATUS_ENTRY l) i
      (s.modGcl l (fun x => { x with entry := i, until_ := start + e, held := false })).overrun l gt

/-- A pending configuration becomes the oper configuration (R166); frames being sent may pass a closure that it brings (R167). -/
def State.gclInstall (s : State) (l : Nat) : State :=
  match (s.gcl l).pending with
  | none => s
  | some (g, _) =>
    let s := s.modGcl l (fun x => { x with oper := some g, pending := none, cut := s.openFrames l })
    let s := (s.flag (SCH_GCL_CTRL_CFG_PENDING l) false).raise 14 0
    let s := (s.flag (SCH_OPER_STATUS_VALID l) true).wr (SCH_OPER_STATUS_LEN l) g.entries.length
    (s.wr (SCH_OPER_CYCLE_NS l) g.cycleNs).gclEnter l g

/-- A class's gate is open under a list (R164). -/
def State.gateOpen (s : State) (l tc : Nat) : Bool :=
  !s.on (SCH_GCL_CTRL_GATE_EN l) || !s.on (SCH_OPER_STATUS_VALID l) || (s.rd (SCH_OPER_STATUS_GATES l)).testBit tc

/-- The class is checked by the list: its gate closes in some entry (R167). -/
def State.gateChecked (s : State) (l tc : Nat) : Bool :=
  s.on (SCH_GCL_CTRL_GATE_EN l) && (match (s.gcl l).oper with
    | some g => g.entries.any (fun (e : Nat × Nat) => !e.1.testBit tc)
    | none => false)

/-- Nanoseconds of the segments until the first one in which the class's gate is closed. -/
def closeAfter (tc : Nat) : List (Nat × Nat) → Nat
  | [] => 0
  | (gt, len) :: r => if gt.testBit tc then len + closeAfter tc r else 0

/-- The time until the gate of an open class closes, looked for up to one cycle ahead (R167); after gates held over a step the list goes on
from entry 0 (R168). -/
def State.gateRoom (s : State) (l tc : Nat) : Nat :=
  match (s.gcl l).oper with
  | none => 0
  | some g =>
    let segs := g.segs
    let i := (s.gcl l).entry
    ((s.gcl l).until_ - s.now) + closeAfter tc (if (s.gcl l).held then segs else segs.drop (i + 1) ++ segs.take i)

/-- A frame's transmission of `ns` nanoseconds ends before its gate closes (R167). -/
def State.gateFits (s : State) (l tc ns : Nat) : Bool := !s.gateChecked l tc || decide (ns ≤ s.gateRoom l tc)

/-- Gate control lists at a step (R168): the present gates hold until the first cycle start of the stepped time; a
ConfigChangeTime that the step passed takes effect at once. -/
def State.gclStep (s : State) (l : Nat) : State :=
  let passed := match (s.gcl l).pending with | some (_, t) => decide (s.now ≥ t) | none => false
  if passed then s.gclInstall l
  else match (s.gcl l).oper with
    | none => s
    | some g =>
      if g.cycleNs = 0 then s
      else
        let next := if s.now ≤ g.base then g.base else g.base + ((s.now - g.base + g.cycleNs - 1) / g.cycleNs) * g.cycleNs
        s.modGcl l (fun x => { x with until_ := next, held := true })

/-! ## Scheduled outputs (R194, R195) -/

/-- Drive an output. -/
def State.drive (s : State) (k : Nat) (v : Bool) : State :=
  let m := if v then s.evi.fout ||| 2 ^ k else s.evi.fout &&& (255 - 2 ^ (k % 8))
  ({ s with evi := { s.evi with fout := m } }).emit (.fout k v)

/-- The time, in nanoseconds, for which ARM scheduled an output (R194). -/
def State.foutTime (s : State) (k : Nat) : Nat := tget 0 s.evi.armed k

/-- Take the action of an armed output: LEVEL is driven, ARM clears and FOUT_DONE is set; in mode 2 a pulse begins. -/
def State.foutAct (s : State) (k : Nat) : State :=
  let s := s.drive k (s.on (EVI_FOUT_CTRL_LEVEL k))
  let s := (s.flag (EVI_FOUT_CTRL_ARM k) false).raise 7 2
  s.when (s.rd (EVI_FOUT_CTRL_MODE k) == 2) (fun s => { s with evi := { s.evi with pulsing := s.evi.pulsing.filter (· != k) ++ [k] } })

/-- The action is taken at once because its time has passed (R195). -/
def State.foutLate (s : State) (k : Nat) : State := ((s.flag (EVI_FOUT_CTRL_LATE k) true).raise 7 3).foutAct k

/-! ## A change of the time base -/

/-- The action of an armed output in mode 1 or 2 whose time the time base has passed is taken late (R195). -/
def State.foutPassed (s : State) (j : Nat) : State :=
  s.when ((s.rd (EVI_FOUT_CTRL_MODE j) == 1 || s.rd (EVI_FOUT_CTRL_MODE j) == 2) && s.on (EVI_FOUT_CTRL_ARM j) && s.isOn 7 &&
    decide (s.foutTime j < s.now)) (·.foutLate j)

/-- What a step of the time base, once taken, does within the chip: ageing is held (R139), gate control lists hold their gates (R168), and
outputs whose time it passed act late (R195). -/
def State.timeStepped (s : State) : State :=
  let s := foldS (List.range 7) (fun s l => s.gclStep l) (s.flag GRD_STATUS_AGE_HOLD true)
  foldS (List.range 8) (fun s j => s.foutPassed j) s

/-! ## Entry into CYCLE (R88, R177, R184) -/

/-- Time alignment on entry into CYCLE (R184): the mean offset of the RANGE measurements is removed at once, or by a
step of the chip and its followers. -/
def State.alignTime (s : State) (n : Nat) : State :=
  if s.willFollow n then
    let off := meanInt (s.tm n).rangeOfs
    if s.aloneInScope then
      let q := (s.nowQ : Int) - off
      ((s.setTime (q.toNat / 4)).modTime (fun x => { x with begun := q.toNat / 500000 })).timeStepped
    else s.startStep (-(off.tdiv 4))
  else s

/-- CYCLE_STATE_ENTRY (R88, R177, R184): the pending LINK_TM mode of the port comes into force, the epoch 0 plan becomes
active in both directions, and the follower aligns its time. -/
def State.enterCycle (s : State) (n : Nat) : State :=
  let s := (s.wr (LNK_STATUS_TSTATE n) tCycle).applyFields [timeMode n]
  let s := (s.clearTable txAct n).clearTable rxAct n
  let s := foldS (List.range 32) (fun s w => s.setWord (0x13180 + 0x1000 * n + 4 * w) 0) s
  let s := (s.wr (CYC_STATUS_ACT_EPOCH n) 0).modEp n (fun _ => {})
  let s := s.setBit TIME_LINK_TM_ST_MASTER n (s.claimsMaster n)
  (s.showDigests n).alignTime n

end Sys2Proof.Machine
end

