-- ==== Sys2Proof/Machine/Links.lean ====
section
/-!
DEFINITION. KweiqLink training, roles and link loss: the commands of `03_kweiqlink_lanes.md`.
An event whose precondition does not hold in the state changes nothing.
-/

namespace Sys2Proof.Machine

open Host (Outcome)

/-- 1040 mode is selected on the port. -/
def State.mode1040 (s : State) (n : Nat) : Bool := s.on (LNK_STATUS_MODE1040 n)

def State.goT (s : State) (n t : Nat) : State := s.wr (LNK_STATUS_TSTATE n) t

/-- KEYS_MODE as this end advertises it: 0 while KEK_OK is 0 (R66). -/
def State.ownKeys (s : State) (n : Nat) : Nat := if s.on SEC_STATUS_KEK_OK then s.rd (LNK_CTRL_KEYS_MODE n).inForce else 0

/-- The highest rate this end may use: its MAX_SPEED and its ceiling (R55). -/
def State.ownCeiling (s : State) (n : Nat) : Nat :=
  min (s.rd (LNK_CTRL_MAX_SPEED n).inForce) (s.rd (LNK_FAIL_CEILING n))

/-- The body of this end's SPEED beacon (*Beacon bodies*): every rate is supported, and the ceiling is the one of R55. -/
def State.speedBody (s : State) (n : Nat) : List Nat :=
  [7 + 16 * s.ownCeiling n, s.ownKeys n + 4 * s.rd (LNK_FAIL_COUNT n), s.chip.strap]

/-- Entry into SPEED (R64, R66): the port runs at 5 Gbit/s and sends its SPEED beacon. -/
def State.enterSpeed (s : State) (n : Nat) : State :=
  let s := (s.goT n tSpeed).wr (LNK_STATUS_SPEED n) 0
  s.emit (.beacon n 1 (s.speedBody n))

/-- A port in GLINT recognises the far end: one more whole pattern, then SPEED (R63). -/
def State.glintSeen (s : State) (n : Nat) : State := (s.emit (.glint n)).enterSpeed n

/-- The glints that ports in GLINT have to send up to now: a pattern of 20 µs after another, without a gap (R61). -/
def State.glintsDue (s : State) : State :=
  foldS [0, 1, 2] (fun s n =>
    s.when (s.tstate n == tGlint && s.isOn (lnkPage n) && decide ((s.tr n).glintAt ≤ s.elapsed)) fun s =>
      let k := (s.elapsed - (s.tr n).glintAt) / 20000 + 1
      (foldS (List.range k) (fun s _ => s.emit (.glint n)) s).modTr n (fun t => { t with glintAt := t.glintAt + 20000 * k })) s

/-- Entry into EQUALIZE (R67): the sweep starts at preset 0 on both lanes; with FIXED_EQ or in 1040 mode only the
adaptation runs.  The own transmitter uses LNK_EQ.TX_PRESET until the far end asks for presets. -/
def State.enterEqualize (s : State) (n : Nat) : State :=
  let p := s.rd (LNK_EQ_TX_PRESET n).inForce
  let fixed := s.on (LNK_CTRL_FIXED_EQ n).inForce || s.mode1040 n
  let s := ((s.goT n tEqualize).wr (LNK_STATUS_TX_PRESET n) p).modTr n (fun t =>
    { t with run0 := none, run1 := none, best0 := (0, 0), best1 := (0, 0), sweep0 := fixed, sweep1 := fixed,
             eqSelf := false, eqFar := false, asked := false, txPreset1 := p })
  if fixed then s else (s.emit (.beacon n 2 [0, 0])).emit (.beacon n 2 [1, 0])

/-- TERMINATION_SENSE (R64): both pairs terminated take the port to GLINT, or in 1040 mode, which trains without GLINT
and SPEED and on lane 0 only, straight to EQUALIZE; one pair only records cause 0x04, once per entry into DETECT.  DESIGN CHOICE (log
entry 118): cause 0x04 is no failure of R69, so LNK_FAIL.SPEED, TRAIN_FAIL and TRAIN_CNT.FAIL stay. -/
def execTerminationSense (n : Nat) (pair0 pair1 : Bool) (s : State) : Outcome State Fault Refusal :=
  done <| s.when (s.inT n tDetect) fun s =>
    if s.mode1040 n then s.when pair0 (fun s => (s.wr (LNK_STATUS_SPEED n) 1).enterEqualize n)
    else if pair0 && pair1 then ((s.goT n tGlint).emit (.glint n)).modTr n (fun t => { t with glintAt := s.elapsed + 20000 })
    else s.when ((pair0 || pair1) && !(s.tr n).pairWarned) fun s =>
      ((s.wr (LNK_FAIL_CAUSE n) 4).wr (LNK_FAIL_STATE n) tDetect).modTr n (fun t => { t with pairWarned := true })

/-- GLINT_RECOGNISED (R61–R63, R352): GLINT_RX is set and the recognition counted; a sleeping chip is woken and the
port's domain switched on; a port in GLINT sends one more pattern and enters SPEED. -/
def execGlintRecognised (n : Nat) (s : State) : Outcome State Fault Refusal :=
  done <| s.when (n < 3 && !s.mode1040 n) fun s =>
    let s := ((s.inc (LNK_WAKE_CNT_GLINT n)).raise (lnkPage n) 6).wakeBy 2
    let s := s.when (!s.domOn (6 + n) && s.on (PG_CTRL_EN (lnkPage n)) && s.rd PWR_PS_STATUS_STATE != 5)
      (fun s => s.domRequest (6 + n))
    let s := s.resumeLink n
    s.when (s.inT n tGlint) (·.glintSeen n)

/-- ACTIVITY_RECOGNISED (R62, R63, R352): counted, and a wake is requested. -/
def execActivityRecognised (n : Nat) (s : State) : Outcome State Fault Refusal :=
  done <| s.when (n < 3) fun s =>
    let s := (s.inc (LNK_WAKE_CNT_ACTIVITY n)).wakeBy 1
    s.when (!s.domOn (6 + n) && s.on (PG_CTRL_EN (lnkPage n)) && s.rd PWR_PS_STATUS_STATE != 5)
      (fun s => s.domRequest (6 + n))

/-- TRAINING_TIMEOUT (R65, R69, R89): the state fails with cause 0x01, or in CYCLE with cause 0x0A where valid trailers
came with mismatched cycle numbers.  A parked port has no timeout, and a port in DETECT waits without one. -/
def execTrainingTimeout (n : Nat) (s : State) : Outcome State Fault Refusal :=
  done <| s.when (s.training n && s.tstate n != tParked) fun s =>
    s.trainFail n (if s.tstate n = tCycle ∧ (s.ep n).mismatch then 0x0A else 1) (s.tstate n)

/-- FAIL_BEACON_END (R69): after the FAIL beacons the port returns to DETECT or waits in HOLDOFF.  DESIGN CHOICE (log entry 119): a port
that cause 0x07 or 0x08 put in FAULT runs no training, so it goes to DETECT without HOLDOFF. -/
def execFailBeaconEnd (n : Nat) (s : State) : Outcome State Fault Refusal :=
  done <| s.when (n < 3 && (s.tr n).failing) fun s =>
    let hold := (s.tr n).toHoldoff && s.isOn (lnkPage n)
    let reset := (s.tr n).ceilReset
    let s := (s.dropLink n).enterDetect n
    let s := s.modTr n (fun t => { t with ceilReset := reset })
    s.when hold (fun s => s.goT n tHoldoff)

/-- HOLDOFF_EXPIRY (R69): training starts again from DETECT, after the lowest ceiling at MAX_SPEED and count zero. -/
def execHoldoffExpiry (n : Nat) (s : State) : Outcome State Fault Refusal :=
  done <| s.when (s.inT n tHoldoff) fun s =>
    let reset := (s.tr n).ceilReset
    let s := s.enterDetect n
    let s := s.modTr n (fun t => { t with ceilReset := false })
    s.when reset (fun s => (s.wr (LNK_FAIL_CEILING n) (s.rd (LNK_CTRL_MAX_SPEED n).inForce)).wr (LNK_FAIL_COUNT n) 0)

/-- The highest rate in both masks and at or below both ceilings (R66). -/
def commonRate (mask ceil : Nat) : Option Nat := [2, 1, 0].find? (fun r => mask.testBit r && r ≤ ceil)

/-- SPEED_BEACON (R55, R63, R66, R375): in GLINT the beacon is recognised; in SPEED the rate is chosen, or SPEED fails with cause 0x02 or
0x09. -/
def execSpeedBeacon (n rates ceil keysMode strap : Nat) (s : State) : Outcome State Fault Refusal :=
  done <| if s.inT n tGlint then s.glintSeen n else s.when (s.inT n tSpeed && (s.tr n).chosen.isNone) fun s =>
    let s := s.wr (LNK_PEER_INFO_STRAP n) strap
    let own := s.ownKeys n
    match commonRate (rates % 8) (min ceil (s.ownCeiling n)) with
    | none => s.trainFail n 2 tSpeed
    | some r =>
      if (own == 2 && keysMode == 0) || (keysMode == 2 && own == 0) ||
          (s.rd (LNK_CTRL_KEYS_MODE n).inForce == 2 && !s.on SEC_STATUS_KEK_OK) then s.trainFail n 9 tSpeed
      else s.modTr n (fun t => { t with chosen := some r, keysUse := own ≥ 1 && keysMode ≥ 1 })

/-- RATE_CHANGE_DONE (R65): the SerDes runs at the chosen rate and the port enters EQUALIZE. -/
def execRateChangeDone (n : Nat) (s : State) : Outcome State Fault Refusal :=
  done <| s.when (s.inT n tSpeed) fun s =>
    match (s.tr n).chosen with
    | none => s
    | some r => (s.wr (LNK_STATUS_SPEED n) r).enterEqualize n

/-- EQ_REQ (R67): the transmitter of the lane takes the requested preset and answers EQ_ACK. -/
def execEqReq (n lane preset : Nat) (s : State) : Outcome State Fault Refusal :=
  done <| s.when (s.inT n tEqualize) fun s =>
    let p := preset % 16
    let s := if lane = 0 then s.wr (LNK_STATUS_TX_PRESET n) p else s.modTr n (fun t => { t with txPreset1 := p })
    (s.modTr n (fun t => { t with asked := true })).emit (.beacon n 3 [lane, p])

/-- EQ_ACK (R67): the settle and measurement of that preset start. -/
def execEqAck (n lane preset : Nat) (s : State) : Outcome State Fault Refusal :=
  done <| s.when (s.inT n tEqualize) fun s =>
    s.modTr n (fun t => if lane = 0 then { t with run0 := some (preset % 16) } else { t with run1 := some (preset % 16) })

/-- The better of a best eye and a new one; at equal eyes the lower preset stays (R67). -/
def betterEye (best : Nat × Nat) (eye preset : Nat) : Nat × Nat :=
  if eye > best.1 ∨ (eye = best.1 ∧ preset < best.2) then (eye, preset) else best

/-- EQ_PRESET_MEASURED (R67): the eye is recorded, and the next preset asked for, or the sweep of the lane ends. -/
def execEqPresetMeasured (n lane eye : Nat) (s : State) : Outcome State Fault Refusal :=
  done <| s.when (s.inT n tEqualize) fun s =>
    let next (s : State) (p : Nat) : State := s.when (p < 15) (fun s => s.emit (.beacon n 2 [lane, p + 1]))
    if lane = 0 then
      match (s.tr n).run0 with
      | none => s
      | some p =>
        let b := betterEye (s.tr n).best0 (eye % 256) p
        next ((s.modTr n (fun t => { t with run0 := none, best0 := b, sweep0 := p == 15 })).wr (LNK_EQ_EYE0 n) b.1) p
    else
      match (s.tr n).run1 with
      | none => s
      | some p =>
        let b := betterEye (s.tr n).best1 (eye % 256) p
        next ((s.modTr n (fun t => { t with run1 := none, best1 := b, sweep1 := p == 15 })).wr (LNK_EQ_EYE1 n) b.1) p

/-- Both ends have ended EQUALIZE: LOCK. -/
def State.tryLock (s : State) (n : Nat) : State :=
  s.when ((s.tr n).eqSelf && (s.tr n).eqFar) (fun s => s.goT n tLock)

/-- The eye margin of R67, 0.30 UI in units of 1/256 UI. -/
def eyeBelowMargin (eye : Nat) : Bool := eye * 100 < 30 * 256

/-- EQ_ADAPT_DONE (R67): adaptation ends after the sweep; an eye below 0.30 UI fails with cause 0x05, and EQ_DONE is
sent otherwise.  With FIXED_EQ and in 1040 mode the eyes measured after adaptation are judged. -/
def execEqAdaptDone (n eye0 eye1 : Nat) (s : State) : Outcome State Fault Refusal :=
  done <| s.when (s.inT n tEqualize && (s.tr n).sweep0 && ((s.tr n).sweep1 || s.mode1040 n) && !(s.tr n).eqSelf) fun s =>
    let fixed := s.on (LNK_CTRL_FIXED_EQ n).inForce || s.mode1040 n
    let s := s.when fixed (fun s => (s.wr (LNK_EQ_EYE0 n) eye0).wr (LNK_EQ_EYE1 n) (if s.mode1040 n then 0 else eye1))
    let e0 := s.rd (LNK_EQ_EYE0 n)
    let e1 := s.rd (LNK_EQ_EYE1 n)
    if eyeBelowMargin e0 || (eyeBelowMargin e1 && !s.mode1040 n) then s.trainFail n 5 tEqualize
    else
      let s := (s.modTr n (fun t => { t with eqSelf := true, eqFar := t.eqFar || s.mode1040 n })).emit
        (.beacon n 4 [(s.tr n).best0.2, (s.tr n).best1.2])
      s.tryLock n

/-- EQ_DONE (R67): a far end that swept has chosen the presets that are used, and EQUALIZE ends when both ends are done. -/
def execEqDone (n preset0 preset1 : Nat) (s : State) : Outcome State Fault Refusal :=
  done <| s.when (s.inT n tEqualize) fun s =>
    let s := s.when (s.tr n).asked (fun s => (s.wr (LNK_STATUS_TX_PRESET n) preset0).modTr n
      (fun t => { t with txPreset1 := preset1 % 16 }))
    (s.modTr n (fun t => { t with eqFar := true })).tryLock n

/-- This end's own ROLE beacon. -/
def State.ownRole (s : State) (n : Nat) : RoleBeacon :=
  { unitId := s.chip.unitId, hwtype := 0x3160, strap := s.chip.strap, role := s.chip.role,
    attached := !s.crown && s.rd SYS_TREE_POS_UP_PORT != 3, chips := s.rd SYS_TREE_POS_CHIPS,
    depth := s.rd SYS_TREE_POS_DEPTH, crownId := s.chip.crownId, chip := s.rd SYS_TREE_POS_CHIP, port := n }

/-- Entry into ROLE (R64, R71): the ROLE beacon goes out, with no decision yet. -/
def State.enterRole (s : State) (n : Nat) : State :=
  let s := s.goT n tRole
  s.emit (.roleBeacon n (s.ownRole n) 0)

/-- LOCK_DONE (R58, R59): the corrections are shown and the port enters RANGE, or ROLE in 1040 mode; a skew above
64 UI fails with cause 0x03. -/
def execLockDone (n : Nat) (swapped : Bool) (inverted skew : Nat) (s : State) : Outcome State Fault Refusal :=
  done <| s.when (s.inT n tLock) fun s =>
    if s.mode1040 n then s.enterRole n
    else if skew > 64 then s.trainFail n 3 tLock
    else
      let s := ((s.flag (LNK_STATUS_LANES_SWAPPED n) swapped).wr (LNK_STATUS_RX_INV n) inverted).wr
        (LNK_STATUS_SKEW_UI n) skew
      ((s.goT n tRange).modTr n (fun t => { t with rangeSent := 0, rangeVals := [] })).modTm n
        (fun t => { t with rangeOfs := [] })

/-- RANGE_MEASUREMENT (R68): one of the 64 round-trip requests is sent, with t1 the time base. -/
def execRangeMeasurement (n : Nat) (s : State) : Outcome State Fault Refusal :=
  done <| s.when (s.inT n tRange && (s.tr n).rangeSent < 64) fun s =>
    (s.emit (.beacon n 5 [(s.tr n).rangeSent, 0, s.now64])).modTr n (fun t => { t with rangeSent := t.rangeSent + 1 })

/-- The spread of some values. -/
def spread (l : List Nat) : Nat := l.foldl max 0 - l.foldl min (l.foldl max 0)

/-- RANGE_BEACON (R68, R184): a request is answered with t2 and t3; a valid response gives a delay and an offset, in
quarter nanoseconds, from the stamps t1–t3 and the arrival t4; the last one ends RANGE, with cause 0x06 where fewer than
48 are valid or the delays spread by more than 16 ns. -/
def execRangeBeacon (n index : Nat) (response valid : Bool) (t1 t2 t3 arrival : Nat) (s : State) :
    Outcome State Fault Refusal :=
  done <| s.when (s.inT n tRange) fun s =>
    if !response then s.emit (.beacon n 5 [index, 1, stamp64 arrival, s.now64])
    else
      let delay := ((arrival + t2) - (t1 + t3)) / 2
      let off : Int := (((t1 : Int) - t2) + ((arrival : Int) - t3)).tdiv 2
      let s := s.when valid (fun s => (s.modTr n (fun t => { t with rangeVals := t.rangeVals ++ [delay] })).modTm n
        (fun t => { t with rangeOfs := t.rangeOfs ++ [off] }))
      s.when (index == 63) fun s =>
        if (s.tr n).rangeVals.length < 48 ∨ spread (s.tr n).rangeVals > 64 then s.trainFail n 6 tRange
        else (s.seedRange n (s.tr n).rangeVals).enterRole n

/-! ## Roles (R71) -/

/-- What the role rules decide. -/
inductive RoleDecision
  | parent | child | parked
  | fail (cause : Nat)
  deriving DecidableEq, Repr

/-- "In a tree": a crown or an attached pavilion. -/
def beaconInTree (b : RoleBeacon) : Bool := b.role == 1 || b.attached

/-- AUTO straps: 0b00, and 0b11, which is treated as AUTO. -/
def beaconAuto (b : RoleBeacon) : Bool := b.strap == 0 || b.strap == 3

/-- The rules of R71 in order; the first that matches decides.  The second result says that the link is a twin link,
the third that the child is a second crown. -/
def decideRole (own far : RoleBeacon) : RoleDecision × Bool × Bool :=
  let par (b : Bool) : RoleDecision := if b then .parent else .child
  if own.unitId = far.unitId then (.fail 7, false, false)
  else if own.crownId ≠ 0 ∧ own.crownId = far.crownId ∧ beaconInTree own ∧ beaconInTree far then
    (par (own.depth < far.depth || (own.depth == far.depth && own.chip < far.chip)), true, false)
  else if own.role = 1 ∧ far.role = 1 ∧ (own.chips = 1 ∨ far.chips = 1) then
    if own.chips = 1 ∧ far.chips = 1 then (par (own.unitId > far.unitId), false, true)
    else (par (far.chips = 1), false, true)
  else if own.role = 1 ∧ own.chips = 1 ∧ far.attached then (.child, false, true)
  else if far.role = 1 ∧ far.chips = 1 ∧ own.attached then (.parent, false, true)
  else if beaconInTree own ∧ beaconInTree far then (.fail 8, false, false)
  else if beaconInTree own then (.parent, false, false)
  else if beaconInTree far then (.child, false, false)
  else if beaconAuto own && beaconAuto far then (par (own.unitId > far.unitId), false, false)
  else if beaconAuto own then (.parent, false, false)
  else if beaconAuto far then (.child, false, false)
  else (.parked, false, false)

/-- Take the crown role. -/
def State.becomeCrown (s : State) : State :=
  let s := ((s.flag SYS_TREE_POS_CROWN true).wr SYS_TREE_POS_CHIP 0).wr SYS_TREE_POS_DEPTH 0
  let s := s.wr SYS_TREE_POS_UP_PORT 3
  ({ s with chip := { s.chip with role := 1, crownId := s.chip.unitId, tree := [] } }).showChips

/-- What the parent's end takes from the decision (R71, R23, R26): an AUTO end resolves to crown unless it is an
attached pavilion; a chip at depth 4 cannot take a child, which is then excess. -/
def State.asParent (s : State) (n : Nat) (twin second : Bool) : State :=
  let s := s.when (s.chip.role == 0) (·.becomeCrown)
  let s := s.flag (LNK_STATUS_PARENT n) true
  let s := s.setBit SYS_TREE_POS_TWIN_PORTS n twin
  s.setBit SYS_TREE_POS_EXCESS n (second || (!twin && s.rd SYS_TREE_POS_DEPTH ≥ 4))

/-- What the child's end takes from the decision: an AUTO end resolves to pavilion; it attaches below the parent unless
the link is a twin link or the chip is excess (R26). -/
def State.asChild (s : State) (n : Nat) (twin second : Bool) (far : RoleBeacon) : State :=
  let s := s.when (s.chip.role == 0) (fun s => { s with chip := { s.chip with role := 2 } })
  let s := (s.flag (LNK_STATUS_PARENT n) false).setBit SYS_TREE_POS_TWIN_PORTS n twin
  let excess := second || (!twin && far.depth ≥ 4)
  let s := (s.flag (LNK_STATUS_CHILD_EXCESS n) excess).setBit SYS_TREE_POS_EXCESS n excess
  s.when (!twin && !excess && s.rd SYS_TREE_POS_UP_PORT == 3 && !s.crown) fun s =>
    let s := (s.wr SYS_TREE_POS_UP_PORT n).wr SYS_TREE_POS_DEPTH (far.depth + 1)
    { s with chip := { s.chip with crownId := far.crownId } }

/-- The far end as the peer registers show it. -/
def State.showPeer (s : State) (n : Nat) (b : RoleBeacon) : State :=
  let s := ((s.wr (LNK_PEER_ID_LO n) b.unitId).wr (LNK_PEER_ID_HI n) (b.unitId / 2 ^ 32)).wr (LNK_PEER_INFO_HWTYPE n) b.hwtype
  let s := ((s.wr (LNK_PEER_INFO_PORT n) b.port).wr (LNK_PEER_INFO_DEPTH n) b.depth).wr (LNK_PEER_INFO_CHIP n) b.chip
  (s.flag (LNK_PEER_INFO_ATTACHED n) b.attached).wr (LNK_PEER_INFO_STRAP n) b.strap

/-- After the decision: KEYS where both ends use keys, CYCLE otherwise, ACTIVE at once in 1040 mode. -/
def State.afterRole (s : State) (n : Nat) : State :=
  if s.mode1040 n then s.linkUp n
  else if (s.tr n).keysUse then s.goT n tKeys
  else s.enterCycle n

/-- ROLE_BEACON (R71): the end decides parent, child, park, conflict or unit-ID clash; a parked link re-enters ROLE
when the far beacon has changed. -/
def execRoleBeacon (n : Nat) (b : RoleBeacon) (s : State) : Outcome State Fault Refusal :=
  done <| s.when (s.inT n tRole || (s.inT n tParked && (s.tr n).farRole != some b)) fun s =>
    let own := s.ownRole n
    let s := (s.when (s.tstate n == tParked) (·.enterRole n)).showPeer n b
    let s := s.modTr n (fun t => { t with farRole := some b })
    match decideRole own b with
    | (.fail c, _, _) => s.trainFail n c tRole
    | (.parked, _, _) => ((s.goT n tParked).modTr n (fun t => { t with parkedAs := some own })).emit (.roleBeacon n own 3)
    | (.parent, twin, second) => ((s.asParent n twin second).emit (.roleBeacon n own 1)).afterRole n
    | (.child, twin, second) => ((s.asChild n twin second b).emit (.roleBeacon n own 2)).afterRole n

/-- PARKED_BEACON_TIMER (R71): a parked link sends its ROLE beacon, and re-enters ROLE when that has changed. -/
def execParkedBeaconTimer (n : Nat) (s : State) : Outcome State Fault Refusal :=
  done <| s.when (s.inT n tParked) fun s =>
    if (s.tr n).parkedAs = some (s.ownRole n) then s.emit (.roleBeacon n (s.ownRole n) 3) else s.enterRole n

/-- FAIL_BEACON (R69): an end that receives a FAIL beacon treats it as the same failure. -/
def execFailBeacon (n cause st : Nat) (s : State) : Outcome State Fault Refusal :=
  done <| s.when (s.training n) fun s => s.trainFail n cause st

/-- LINK_LOSS (R60): an ACTIVE link goes down; 1 sync headers, 2 alignment markers, 3 uncorrectable pairs, 4 CYCLE
slots missing.  In 1040 mode only the sync headers count (R75); a suspended link is not lost (R356). -/
def execLinkLoss (n cause : Nat) (s : State) : Outcome State Fault Refusal :=
  done <| s.when (s.active n && 1 ≤ cause && cause ≤ 4 && (!s.mode1040 n || cause == 1) &&
      (!(s.port n).pw.suspended || (s.port n).pw.resuming) && (cause != 4 || (s.ep n).missed ≥ 8))
    fun s => s.linkDown n cause

/-- What LNK_CTRL.RETRAIN does (R74): the link goes down, or training restarts from DETECT. -/
def State.retrain (s : State) (n : Nat) : State :=
  if s.active n then s.linkDown n 5
  else s.when (s.isOn (lnkPage n)) (fun s => ((s.leaveTree n).dropLink n).enterDetect n)

/-- The command bit of LINK_RETRAIN (R74). -/
def cmdLinkRetrain (n : Nat) : Cmd :=
  Cmd.mk (LNK_CTRL_RETRAIN n) okChk (·.retrain n)

/-- LINK_RETRAIN (R74): a write of LNK_CTRL.RETRAIN. -/
def execLinkRetrain (p : Path) (n : Nat) (s : State) : Outcome State Fault Refusal :=
  done <| s.when (n < 3) fun s => s.runCmd p (cmdLinkRetrain n)

/-- PORT_STOPPING (R74): the far port announced that it is stopping. -/
def execPortStopping (n : Nat) (s : State) : Outcome State Fault Refusal :=
  done <| s.when (s.native n) fun s => s.modTr n (fun t => { t with farStopping := true })

/-! ## Role swap (R72, R73) -/

/-- The port's link-manager engine is not RUNNING (R74). -/
def State.managerDown (s : State) (n : Nat) : Bool := s.rd (FAC_ENG_STATE_STATE n) != 2

/-- Send a swap request that names a cycle four cycles ahead (R72). -/
def State.sendSwapReq (s : State) (n : Nat) : State :=
  let c := s.cycle
  let s := s.queueUnit n (.role 1 0 (cycAdd c 4) s.chip.unitId c)
  let s := s.modTr n (fun t => { t with swap := some ⟨cycAdd c 4, c, true, false⟩, swapResend := false })
  s.flag (LNK_ROLE_CTRL_SWAP_PENDING n) true

/-- What ROLE_CTRL.SWAP_REQ does: a request on an ACTIVE native link; while the link manager restarts it is refused
(R74).  DESIGN CHOICE (log entry 120): on any other link, and while a swap is pending, the write has no effect and LAST_RESULT stays. -/
def State.swapReq (s : State) (n : Nat) : State :=
  if s.native n && (s.tr n).swap.isNone then
    if s.managerDown n then s.wr (LNK_ROLE_CTRL_LAST_RESULT n) 3 else s.sendSwapReq n
  else s

/-- The command bit of SWAP_REQ (R72). -/
def cmdSwapReq (n : Nat) : Cmd :=
  Cmd.mk (LNK_ROLE_CTRL_SWAP_REQ n) okChk (·.swapReq n)

/-- SWAP_REQ (R72): a write of ROLE_CTRL.SWAP_REQ. -/
def execSwapReq (p : Path) (n : Nat) (s : State) : Outcome State Fault Refusal :=
  done <| s.when (n < 3) fun s => s.runCmd p (cmdSwapReq n)

/-- Why a swap request is refused: 1 strap, 2 topology, 3 busy, or 0 (R72).  DESIGN CHOICE (log entry 121): a request that names a swap
cycle less than 4 cycles after its sending is refused as busy. -/
def State.swapRefusal (s : State) (n cyc sent : Nat) : Nat :=
  let auto (v : Nat) : Bool := v == 0 || v == 3
  if !(auto s.chip.strap && auto (s.rd (LNK_PEER_INFO_STRAP n))) then 1
  else if s.bit SYS_TREE_POS_TWIN_PORTS n || s.bit SYS_TREE_POS_EXCESS n ||
      !((s.crown && s.on (LNK_STATUS_PARENT n)) ||
        (!s.crown && s.rd SYS_TREE_POS_UP_PORT == n && s.rd SYS_TREE_POS_DEPTH == 1)) then 2
  else if s.epochInFlight n || s.rd (SEC_LINK_KEY_PHASE n) ≥ 2 || (s.lk n).since.isSome || s.managerDown n || (s.ep n).split ||
      cycLater (cycAdd sent 4) cyc then 3
  else 0

/-- ROLE_SWAP_REQ_MSG (R72, R73): the request is accepted or refused; requests of one cycle cross and both are
abandoned; of two cycles the earlier request stands. -/
def execRoleSwapReqMsg (n cyc unit sent : Nat) (s : State) : Outcome State Fault Refusal :=
  done <| s.when (s.native n) fun s =>
    let accept (s : State) : State :=
      let r := s.swapRefusal n cyc sent
      if r = 0 then
        ((s.queueUnit n (.role 2 0 cyc s.chip.unitId sent)).modTr n
          (fun t => { t with swap := some ⟨cyc, sent, false, true⟩ })).flag (LNK_ROLE_CTRL_SWAP_PENDING n) true
      else s.queueUnit n (.role 3 r cyc s.chip.unitId sent)
    match (s.tr n).swap with
    | none => accept s
    | some w =>
      if !w.mine || w.accepted then s.queueUnit n (.role 3 3 cyc s.chip.unitId sent)
      else if w.sent = sent then
        let s := (s.wr (LNK_ROLE_CTRL_LAST_RESULT n) 2).inc (LNK_ROLE_CNT_COLLIDE n)
        let again := decide (s.chip.unitId < unit)
        (s.modTr n (fun t => { t with swap := none, swapResend := again })).flag (LNK_ROLE_CTRL_SWAP_PENDING n) again
      else if cycLater w.sent sent then
        accept (((s.wr (LNK_ROLE_CTRL_LAST_RESULT n) 3).modTr n (fun t => { t with swap := none })).flag (LNK_ROLE_CTRL_SWAP_PENDING n) false)
      else s.queueUnit n (.role 3 3 cyc s.chip.unitId sent)

/-- ROLE_SWAP_RESEND (R73): one cycle after the collision the lower unit ID sends its request again. -/
def execRoleSwapResend (n : Nat) (s : State) : Outcome State Fault Refusal :=
  done <| s.when (s.native n && (s.tr n).swapResend) fun s => s.sendSwapReq n

/-- ROLE_ACCEPT (R72): the pending swap is confirmed. -/
def execRoleAccept (n cyc : Nat) (s : State) : Outcome State Fault Refusal :=
  done <| s.when (s.native n) fun s =>
    match (s.tr n).swap with
    | none => s
    | some w => s.when (w.mine && w.cycle == cyc) fun s =>
        s.modTr n (fun t => { t with swap := some { w with accepted := true } })

/-- ROLE_REFUSE (R72): the request ends with LAST_RESULT 3. -/
def execRoleRefuse (n : Nat) (s : State) : Outcome State Fault Refusal :=
  done <| s.when (s.native n) fun s =>
    match (s.tr n).swap with
    | none => s
    | some w => s.when (w.mine && !w.accepted) fun s =>
        ((s.wr (LNK_ROLE_CTRL_LAST_RESULT n) 3).modTr n (fun t => { t with swap := none })).flag
          (LNK_ROLE_CTRL_SWAP_PENDING n) false

/-- ROLE_SWAP (R72): at the boundary of the swap cycle the ends exchange roles; the tree is renumbered from the new
crown, whose chips (parent chip, parent port, depth) the management tunnel supplies, the old crown being a child of it at depth 1; that one
has no number until it is told.  Contexts, plans and the time master stay. -/
def execRoleSwap (n : Nat) (links : List TreeLink) (s : State) : Outcome State Fault Refusal :=
  done <| s.when (s.native n) fun s =>
    match (s.tr n).swap with
    | none => s
    | some w => s.when (w.accepted && cycGe s.cycle w.cycle && !s.stepMoves w.cycle) fun s =>
      let far := s.rd (LNK_PEER_ID_LO n) + 2 ^ 32 * s.rd (LNK_PEER_ID_HI n)
      let s :=
        if s.crown then
          let s := ((s.flag SYS_TREE_POS_CROWN false).wr SYS_TREE_POS_UP_PORT n).wr SYS_TREE_POS_DEPTH 1
          let s := (s.wr SYS_TREE_POS_CHIP 0).flag (LNK_STATUS_PARENT n) false
          { s with chip := { s.chip with role := 2, crownId := far, tree := [], joining := [] } }
        else
          let s := s.becomeCrown.flag (LNK_STATUS_PARENT n) true
          s.numberAll links
      let s := (s.showChips.wr (LNK_ROLE_CTRL_LAST_RESULT n) 1).inc (LNK_ROLE_CNT_SWAP n)
      ((s.modTr n (fun t => { t with swap := none })).flag (LNK_ROLE_CTRL_SWAP_PENDING n) false).raise (lnkPage n) 4

/-- CREDIT_UNIT (R75): the far end's eight freed counters replace those held. -/
def execCreditUnit (n : Nat) (freed : List Nat) (s : State) : Outcome State Fault Refusal :=
  done <| s.when (s.active n && s.mode1040 n && freed.length == 8) fun s =>
    s.modPort n (fun p => { p with freed1040 := (List.range 8).zip (freed.map (· % 65536)) })

end Sys2Proof.Machine
end

