-- ==== Sys2Proof/Machine/Cycle.lean ====
section
/-!
DEFINITION. The link cycle: control slots and their messages, placement, admission and the epoch change
(`04_cycle_and_carats.md`).  An event whose precondition does not hold in the state changes nothing.
-/

namespace Sys2Proof.Machine

open Host (Outcome)

/-! ## Placement and admission (R90–R93) -/

/-- What PLACE_STATUS shows of a computed plan. -/
def State.showPlan (s : State) (n : Nat) (r : Except Nat (Tbl Nat)) : State :=
  match r with
  | .ok _ => (s.flag (CYC_PLACE_STATUS_FAIL n) false).wr (CYC_PLACE_STATUS_FAIL_LTN n) 0
  | .error ltn => ((s.flag (CYC_PLACE_STATUS_FAIL n) true).wr (CYC_PLACE_STATUS_FAIL_LTN n) ltn).raise (cycPage n) 5

/-- CARAT_PLACEMENT (R90, R91): place the TX shadow plan and report it in PLACE_STATUS.  DESIGN CHOICE (log entry 122): SHARED is 0 where
the total exceeds D. -/
def State.place (s : State) (n : Nat) : State :=
  let d := s.dSlots n
  let s := ((s.flag (CYC_PLACE_STATUS_VALID n) true).wr (CYC_PLACE_STATUS_SHARED n) (d - s.caratTotal txSh n))
  s.showPlan n (placePlan d (s.caratTable txSh n))

/-- The placement of the TX shadow plan fails. -/
def State.placeFails (s : State) (n : Nat) : Bool := !(placePlan (s.dSlots n) (s.caratTable txSh n)).toBool

/-- Something in flight makes a change BUSY (R93, R97, R74, R73), the change under check itself apart.  DESIGN CHOICE (log entry 123): a
port that is not ACTIVE in native mode is BUSY, and its D is that of the rate that LNK_STATUS.SPEED shows. -/
def State.epochBusy (s : State) (n : Nat) (own : Bool) : Bool :=
  !s.native n || (!own && (s.ep n).change.isSome) || s.settling n || (s.ep n).split || (s.tr n).swap.isSome || (s.tr n).swapResend ||
    s.rd (SEC_LINK_KEY_PHASE n) ≥ 2 || (s.lk n).since.isSome || s.managerDown n

/-- The chip's guaranteed load with the shadow plans of the port pending (R92). -/
def State.loadWith (s : State) (n : Nat) : Nat :=
  s.chipLoad - s.portLoad n +
    max (s.caratTotal txAct n + s.caratTotal rxAct n) (s.caratTotal txSh n + s.caratTotal rxSh n)

/-- The lowest refusal code that applies, 0 if none (R93): `own` at the proposer, whose change is the one under check;
`prop` is a received proposal with the cycle of its receipt.  DESIGN CHOICE (log entry 124): the totals of codes 1 and 3 are those of the
own shadow tables, at the acceptor too. -/
def State.epochChecks (s : State) (n : Nat) (own : Bool) (prop : Option (Allot × Nat)) : Nat :=
  let d := s.dSlots n
  if s.caratTotal txSh n > d ∨ s.caratTotal rxSh n > d then 1
  else if s.epochBusy n own then 2
  else if s.loadWith n > girdleLimit (s.rd PWR_VMIN_DECL) then 3
  else
    let far := match prop with
      | none => 0
      | some (a, rcv) =>
        if a.digP ≠ s.digest rxSh n ∨ a.digA ≠ s.digest txSh n then 4
        else if a.target ≠ (s.rd (CYC_STATUS_ACT_EPOCH n) + 1) % 256 then 5
        else if !cycGe a.swap (cycAdd rcv 2) then 6
        else 0
    if far ≠ 0 then far
    else if s.placeFails n then 7
    else if s.windowsBad 0 n d then 8
    else 0

/-! ## Software commands (R91, R95) -/

/-- Show the pending change of the port in CYC_STATUS. -/
def State.showPend (s : State) (n : Nat) : State :=
  let (p, o) := match (s.ep n).change with
    | some c => (if c.accepted then 2 else 1, c.proposer)
    | none => (if s.settling n then 3 else 0, false)
  (s.wr (CYC_STATUS_PEND n) p).flag (CYC_STATUS_PROPOSER n) o

def State.epochResult (s : State) (n result reason : Nat) : State :=
  (s.wr (CYC_EPOCH_STATUS_RESULT n) result).wr (CYC_EPOCH_STATUS_REASON n) reason

/-- A refusal is counted and raised (R95). -/
def State.epochRefused (s : State) (n result reason : Nat) : State :=
  ((s.epochResult n result reason).inc (CYC_EPOCH_CNT_REFUSED n)).raise (cycPage n) 1

/-- What CHECK does (R91). -/
def State.epochCheck (s : State) (n : Nat) : State :=
  let s := s.place n
  (s.wr (CYC_EPOCH_STATUS_CHECK_CODE n) (s.epochChecks n false none)).flag (CYC_EPOCH_STATUS_CHECK_VALID n) true

/-- The command bit of EPOCH_CHECK (R91). -/
def cmdEpochCheck (n : Nat) : Cmd :=
  Cmd.mk (CYC_EPOCH_CTRL_CHECK n) okChk (·.epochCheck n)

/-- EPOCH_CHECK (R91): a write of EPOCH_CTRL.CHECK. -/
def execEpochCheck (p : Path) (n : Nat) (s : State) : Outcome State Fault Refusal :=
  done <| s.when (n < 3) fun s => s.runCmd p (cmdEpochCheck n)

/-- What REQ does (R95 step 2, R98): the shadow plans are locked and the local checks start; a request while another
change is in flight is refused locally at once. -/
def State.epochReq (s : State) (n : Nat) : State :=
  let s := s.flag (CYC_EPOCH_STATUS_CHECK_VALID n) false
  let target := (s.rd (CYC_STATUS_ACT_EPOCH n) + 1) % 256
  let s := (s.place n).wr (CYC_EPOCH_STATUS_EPOCH n) target
  if (s.ep n).change.isSome then s.epochRefused n 2 (s.epochChecks n false none)
  else
    let a : Allot := ⟨target, 0, s.digest txSh n, s.digest rxSh n, s.caratTotal txSh n, s.caratTotal rxSh n, 0⟩
    (s.modEp n (fun e => { e with change := some ⟨true, a, false, false⟩ })).showPend n

/-- The command bit of EPOCH_REQ (R95). -/
def cmdEpochReq (n : Nat) : Cmd :=
  Cmd.mk (CYC_EPOCH_CTRL_REQ n) okChk (·.epochReq n)

/-- EPOCH_REQ (R95): a write of EPOCH_CTRL.REQ. -/
def execEpochReq (p : Path) (n : Nat) (s : State) : Outcome State Fault Refusal :=
  done <| s.when (n < 3) fun s => s.runCmd p (cmdEpochReq n)

/-- EPOCH_CHECKS_DONE (R93, R95 steps 3 and 4): the change is refused locally, or PROPOSE goes out from this cycle with
S = c + LEAD.  DESIGN CHOICE (log entry 125): RESULT and REASON then read 0 until the change ends. -/
def execEpochChecksDone (n : Nat) (s : State) : Outcome State Fault Refusal :=
  done <| s.when (n < 3) fun s =>
    match (s.ep n).change with
    | none => s
    | some c => s.when (c.proposer && !c.sent) fun s =>
      let code := s.epochChecks n true none
      if code ≠ 0 then ((s.modEp n (fun e => { e with change := none })).epochRefused n 2 code).showPend n
      else
        let swap := cycAdd s.cycle (s.rd (CYC_EPOCH_CTRL_LEAD n))
        let s := s.modEp n (fun e =>
          { e with change := some { c with sent := true, body := { c.body with swap := swap, prop := s.cycle } } })
        ((s.wr (CYC_SWAP_CYCLE n) swap).epochResult n 0 0).showPend n

/-- A proposal ends without a swap at this end; its digests are kept for R97. -/
def State.dropChange (s : State) (n : Nat) (c : Change) : State :=
  let (tx, rx) := if c.proposer then (c.body.digP, c.body.digA) else (c.body.digA, c.body.digP)
  s.modEp n (fun e => { e with change := none, last := some ⟨c.body.swap, tx, rx, false⟩ })

/-- Withdraw the own proposal: WITHDRAW is sent from cycle `start` up to S, RESULT reads 4 (R95 step 7). -/
def State.withdraw (s : State) (n start : Nat) : State :=
  match (s.ep n).change with
  | none => s
  | some c =>
    let s :=
      if c.sent then (s.dropChange n c).modEp n (fun e =>
        { e with wd := e.wd.filter (fun w => cycGe w.1.swap s.cycle) ++ [(c.body, start)] })
      else s.modEp n (fun e => { e with change := none })
    (s.epochResult n 4 0).showPend n

/-- Why a withdrawal is rejected: ACCEPT has arrived, the boundary of S − 1 has come, or no proposal of this end is
pending. -/
def State.withdrawChk (n : Nat) (s : State) : Nat :=
  match (s.ep n).change with
  | none => 3
  | some c => if !c.proposer || c.accepted || (c.sent && cycGe s.cycle (cycSub c.body.swap 1)) then 3 else 0

/-- The command bit of EPOCH_WITHDRAW (R95 step 7). -/
def cmdEpochWithdraw (n : Nat) : Cmd :=
  Cmd.mk (CYC_EPOCH_CTRL_WITHDRAW n) (State.withdrawChk n) (fun s => s.withdraw n (cycAdd s.cycle 1))

/-- EPOCH_WITHDRAW (R95 step 7): a write of EPOCH_CTRL.WITHDRAW. -/
def execEpochWithdraw (p : Path) (n : Nat) (s : State) : Outcome State Fault Refusal :=
  done <| s.when (n < 3) fun s =>
    s.runCmd p (cmdEpochWithdraw n)

/-- EPOCH_ANSWER_TIMEOUT (R95 step 7): no answer by the boundary of S − 1. -/
def execEpochAnswerTimeout (n : Nat) (s : State) : Outcome State Fault Refusal :=
  done <| s.when (n < 3) fun s =>
    match (s.ep n).change with
    | none => s
    | some c => s.when (c.proposer && c.sent && !c.accepted && cycGe s.cycle (cycSub c.body.swap 1)) fun s =>
        s.withdraw n s.cycle

/-! ## Received ALLOT units (R95, R96) -/

/-- The acceptor's part of R95 step 5. -/
def State.answerProposal (s : State) (n : Nat) (a : Allot) : State :=
  let code := s.epochChecks n false (some (a, s.cycle))
  let s := s.modEp n (fun e => { e with answered := some a.prop })
  if code ≠ 0 then
    (((s.wr (CYC_EPOCH_STATUS_EPOCH n) a.target).epochRefused n 7 code).queueUnit n (.allot 3 code a)).showPend n
  else
    ((s.modEp n (fun e => { e with change := some ⟨false, a, true, true⟩ })).wr (CYC_SWAP_CYCLE n) a.swap).showPend n

/-- ALLOT_PROPOSE (R95 step 5, R96): the proposal is checked and answered, or met as a collision. -/
def execAllotPropose (n : Nat) (a : Allot) (s : State) : Outcome State Fault Refusal :=
  done <| s.when (s.native n && (s.ep n).answered != some a.prop) fun s =>
    match (s.ep n).change with
    | some c =>
      if c.proposer && c.sent && !c.accepted then
        if s.on (LNK_STATUS_PARENT n) then
          let s := s.modEp n (fun e => { e with answered := some a.prop })
          ((s.queueUnit n (.allot 3 0x0A a)).inc (CYC_EPOCH_CNT_REFUSED n)).raise (cycPage n) 1
        else ((s.modEp n (fun e => { e with change := none })).epochRefused n 3 0x0A).answerProposal n a
      else s.answerProposal n a
    | none => s.answerProposal n a

/-- The unit belongs to the change in hand: it repeats the PROPOSE's bytes. -/
def sameProposal (a b : Allot) : Bool := a.prop == b.prop && a.target == b.target

/-- ALLOT_ACCEPT (R95 step 8): the proposer may swap at S. -/
def execAllotAccept (n : Nat) (a : Allot) (s : State) : Outcome State Fault Refusal :=
  done <| s.when (s.native n) fun s =>
    match (s.ep n).change with
    | none => s
    | some c => s.when (c.proposer && c.sent && sameProposal c.body a) fun s =>
        (s.modEp n (fun e => { e with change := some { c with accepted := true } })).showPend n

/-- ALLOT_REFUSE (R95 step 6): the proposer's change ends with RESULT 3. -/
def execAllotRefuse (n : Nat) (a : Allot) (reason : Nat) (s : State) : Outcome State Fault Refusal :=
  done <| s.when (s.native n) fun s =>
    match (s.ep n).change with
    | none => s
    | some c => s.when (c.proposer && c.sent && !c.accepted && sameProposal c.body a) fun s =>
        ((s.modEp n (fun e => { e with change := none })).epochRefused n 3 reason).showPend n

/-- ALLOT_WITHDRAW (R95 step 8): the acceptor does not swap. -/
def execAllotWithdraw (n : Nat) (a : Allot) (s : State) : Outcome State Fault Refusal :=
  done <| s.when (s.native n) fun s =>
    match (s.ep n).change with
    | none => s
    | some c => s.when (!c.proposer && sameProposal c.body a) fun s =>
        ((s.dropChange n c).epochResult n 4 0).showPend n

/-! ## The swap (R95 step 8, R97, R108, R169, R383) -/

/-- Pending LTN changes of the port's link points take effect; the old values map until the settle period ends
(R108). -/
def State.swapLtns (s : State) (n : Nat) : State :=
  foldS (List.range 256) (fun s c =>
    if s.ctxLife c = lifeOff then s
    else foldS (List.range 4) (fun s w =>
      if s.ptLink c w && s.rd (ptPoint c w) == n && s.ltnOf c w != s.rd (ptLtn c w) then
        let old := s.ltnOf c w
        (s.modCtx c (fun t => { t with oldLtn := tset t.oldLtn w old })).wr (ptLtn c w).inForce (s.rd (ptLtn c w))
      else s) s) s

/-- The active TX carats of a context's link egress (CARATS.A and CARATS.B); a 1040-mode port has no cycle plan (R156). -/
def State.caratsOf (s : State) (c e : Nat) : Nat :=
  let n := s.rd (ptPoint c (2 + e))
  if s.ptLink c (2 + e) && !s.on (LNK_STATUS_MODE1040 n) then s.carats txAct n (s.ltnOf c (2 + e)) else 0

/-- The peak bucket after a refill (R155): from `p0` before it, with the context's carats on the egress; `starts` says that a hold starts
at this boundary. -/
def State.peakAfter (s : State) (c : Nat) (p0 : Int) (car : Nat) (starts : Bool) : Int :=
  let carI : Int := (car : Int)
  let pbs : Int := (s.rd (CTX_PEAK_PBS c).inForce : Nat)
  let pir : Int := (s.rd (CTX_PEAK_PIR c).inForce : Nat)
  let p0 := if starts then min p0 carI else p0
  if s.on (CTX_STATE_CM_HOLD c) then min pbs (p0 + carI) else if pir > 0 then min pbs (p0 + max pir carI) else pbs

/-- The swap at a boundary: the new plan's carats give C, and the refill of P, from data slot 0 of the swap cycle (R155, R169). -/
def State.planBuckets (s : State) (n : Nat) : State :=
  foldS (List.range 256) (fun s c => foldS [0, 1] (fun s e =>
    s.when (s.ctxLife c != lifeOff && s.ptLink c (2 + e) && s.rd (ptPoint c (2 + e)) == n) fun s =>
      let car := s.caratsOf c e
      s.modCtx c (fun t => { t with c := tset t.c e car,
                                    p := match tget? t.pWas e with
                                      | some p0 => tset t.p e (s.peakAfter c p0 car t.holdStarts)
                                      | none => t.p })) s) s

/-- Owed slots of the port that are still unpaid are discarded and counted (R152). -/
def State.dropOwed (s : State) (n : Nat) : State :=
  let k := (tget [] s.sch.owed n).length
  s.when (k != 0) fun s =>
    ({ s.inc (SCH_OWED_LOST n) k with sch := { s.sch with owed := tdel s.sch.owed n } }).raise 14 2

/-- Make both shadow plans active, increment the epoch and apply the RWE values of the port. -/
def State.swapPlans (s : State) (n result : Nat) : State :=
  let s := (s.copyTable txSh txAct n).copyTable rxSh rxAct n
  let s := foldS (List.range 32) (fun s w => s.setWord (0x13180 + 0x1000 * n + 4 * w) (s.word (0x13100 + 0x1000 * n + 4 * w))) s
  let e := (s.rd (CYC_STATUS_ACT_EPOCH n) + 1) % 256
  let s := (s.wr (CYC_STATUS_ACT_EPOCH n) e).wr (CYC_EPOCH_STATUS_EPOCH n) e
  let s := (s.applyFields [SCH_LSCH_TC7_TAKE n, SCH_LSCH_FIT_CT n]).swapLtns n
  let s := ((s.dropOwed n).planBuckets n).epochResult n result 0
  let s := (s.inc (CYC_EPOCH_CNT_DONE n)).raise (cycPage n) 0
  let s := (s.showDigests n).mrExtend 3 (beBytes 1 n ++ beBytes 1 e ++ beBytes 4 (s.digest txAct n) ++ beBytes 4 (s.digest rxAct n))
  s.showPend n

/-- EPOCH_SWAP (R95 step 8): at the boundary of S the proposer with ACCEPT, or the acceptor without WITHDRAW, swaps. -/
def execEpochSwap (n : Nat) (s : State) : Outcome State Fault Refusal :=
  done <| s.when (s.native n) fun s =>
    match (s.ep n).change with
    | none => s
    | some c => s.when (c.accepted && cycGe s.cycle c.body.swap && !s.stepMoves c.body.swap) fun s =>
      let s := s.dropChange n c
      let s := s.modEp n (fun e => { e with last := e.last.map (fun l => { l with swapped := true }) })
      s.swapPlans n 1

/-- EPOCH_SPLIT's effect (R97). -/
def State.enterSplit (s : State) (n : Nat) : State :=
  (((s.modEp n (fun e => { e with split := true, lateDue := false })).epochResult n 6 0).inc (CYC_LATE_CNT_SPLIT n)).raise
    (cycPage n) 3

/-- EPOCH_LATE_SWAP (R97): the end that saw the far epoch one ahead swaps at the next boundary if its shadow digests
still equal the proposal's, and is split otherwise. -/
def execEpochLateSwap (n : Nat) (s : State) : Outcome State Fault Refusal :=
  done <| s.when (s.native n && (s.ep n).lateDue && !(s.ep n).split) fun s =>
    match (s.ep n).last with
    | none => s
    | some l =>
      if l.swapped then s
      else if s.digest txSh n = l.digTx ∧ s.digest rxSh n = l.digRx then
        let s := s.modEp n (fun e => { e with last := some { l with swapped := true }, lateDue := false, change := none })
        ((s.swapPlans n 5).inc (CYC_LATE_CNT_LATE n)).raise (cycPage n) 2
      else s.enterSplit n

/-- EPOCH_SPLIT (R97): the disagreement lasts past the settle period. -/
def execEpochSplit (n : Nat) (s : State) : Outcome State Fault Refusal :=
  done <| s.when (s.native n && !(s.ep n).split) fun s =>
    let act := s.rd (CYC_STATUS_ACT_EPOCH n)
    let apart := match (s.ep n).farEpoch with
      | some f => f == (act + 1) % 256 || (f + 1) % 256 == act
      | none => false
    let past := match (s.ep n).last with
      | some l => cycLater s.cycle (cycAdd l.swap 8)
      | none => (s.ep n).change.isNone
    s.when (apart && past) fun s => s.enterSplit n

/-- EPOCH_SETTLE_END (R98): after cycle S + 8 the shadow plans unlock and old LTNs no longer map (R108). -/
def execEpochSettleEnd (n : Nat) (s : State) : Outcome State Fault Refusal :=
  done <| s.when (n < 3) fun s =>
    match (s.ep n).last with
    | none => s
    | some l => s.when (cycLater s.cycle (cycAdd l.swap 8)) fun s =>
      ((s.modEp n (fun e => { e with last := none, lateDue := false })).dropOldLtns n).showPend n

/-! ## Control slots (R81, R82) -/

/-- The CYCLE message of this cycle (*CYCLE*); its TX_STAMP is the cycle boundary, where slot 0 starts (R56). -/
def State.cycleMsg (s : State) (n : Nat) : CycleMsg :=
  let rx := (s.tm n).rx
  let (pend, pe, pc) := match (s.ep n).change with
    | some c => if c.sent then ((if c.accepted then 2 else 1) + (if c.proposer then 4 else 0), c.body.target, c.body.swap)
        else (0, 0, 0)
    | none => (0, 0, 0)
  { cycno := s.cycle, epoch := s.rd (CYC_STATUS_ACT_EPOCH n), timeMaster := s.claimsMaster n,
    timeValid := s.on TIME_SRC_STATUS_TIME_VALID, rxValid := rx.isSome, txStamp := stamp64 (s.nowQ / 500000 * 500000),
    rxStamp := (rx.map (·.1)).getD 0, rxCycno := (rx.map (·.2)).getD 0, pend := pend, pendEpoch := pe, pendCycle := pc,
    arrival := 0 }

/-- The ALLOT unit that the epoch change repeats in this cycle, if any (R95 steps 4, 5 and 7).  DESIGN CHOICE (log entry 126): the one
ALLOT unit of a cycle is a WITHDRAW while one is due, then that of the present change. -/
def State.allotRepeat (s : State) (n : Nat) : Option CtlUnit :=
  let c := s.cycle
  match (s.ep n).wd.find? (fun w => cycGe c w.2 && cycGe w.1.swap c) with
  | some (a, _) => some (.allot 4 0 a)
  | none =>
    match (s.ep n).change with
    | none => none
    | some x =>
      if x.proposer then
        if x.sent && !x.accepted && cycGe (cycSub x.body.swap 2) c then some (.allot 1 0 x.body) else none
      else if cycGe (cycSub x.body.swap 1) c then some (.allot 2 0 x.body) else none

/-- The KEY unit that the key replacement repeats in this cycle, if any (R379 step 3): SWITCH until it is acknowledged,
SWITCH_ACK up to W − 1. -/
def State.keyRepeat (s : State) (n : Nat) : Option CtlUnit :=
  let k := s.lk n
  match k.w, k.next with
  | some w, some nx =>
    if k.initiator then
      if !k.acked && cycLater w s.cycle then some (.key 4 nx.gen w 0) else none
    else if cycLater w s.cycle then some (.key 5 nx.gen w 0) else none
  | _, _ => none

/-- Take the first `k` queued units of a type. -/
def takeUnits (t k : Nat) (l : List CtlUnit) : List CtlUnit × List CtlUnit :=
  let pick := (l.filter (fun u => unitType u == t)).take k
  (pick, l.filter (fun u => unitType u != t) ++ (l.filter (fun u => unitType u == t)).drop k)

/-- Groups of six ACK entries. -/
def ackUnits : Nat → List AckEntry → List CtlUnit
  | 0, _ => []
  | k + 1, l => if l.isEmpty then [] else .ack (l.take 6) :: ackUnits k (l.drop 6)

/-- The units of a control slot in order of priority, with what is left waiting (R82, R83). -/
def State.fillUnits (s : State) (n room : Nat) : List CtlUnit × State :=
  let e := s.ep n
  let sent (t : Nat) : Nat := (e.sentKinds.filter (· == t)).length
  -- a repeated unit is sent once in a cycle; code 60 + type marks it
  let rep (o : Option CtlUnit) (t : Nat) : List CtlUnit := if e.sentKinds.contains (60 + t) then [] else o.toList
  let keyRep := rep (s.keyRepeat n) 6
  let (keyQ, u1) := takeUnits 6 (min room (2 - sent 6)) e.units
  let key := (keyQ ++ keyRep).take (min room (2 - sent 6))
  let room1 := room - key.length
  let (alQ, u2) := takeUnits 2 (min room1 (1 - sent 2)) u1
  let al := (alQ ++ rep (s.allotRepeat n) 2).take (min room1 (1 - sent 2))
  let room2 := room1 - al.length
  let (ro, u3) := takeUnits 4 (min room2 (1 - sent 4)) u2
  let room3 := room2 - ro.length
  let (st, u4) := takeUnits 5 (min room3 (1 - sent 5)) u3
  let room4 := room3 - st.length
  let acks := ackUnits room4 e.acks
  let room5 := room4 - acks.length
  let (mg, u5) := if e.mgmtUsed ≥ 16 then takeUnits 7 room5 u4 else ([], u4)
  let kinds := (key ++ al ++ ro ++ st).map unitType ++
    (if keyRep.any (fun u => key.contains u) then [66] else []) ++
    (if al.length > alQ.length then [62] else [])
  (key ++ al ++ ro ++ st ++ acks ++ mg, s.modEp n (fun e =>
    { e with units := u5, acks := e.acks.drop (6 * room4), sentKinds := e.sentKinds ++ kinds }))

/-- A port that stops has no "port stopping" to send any more, and holds electrical idle (R74). -/
def State.silenced (s : State) (n : Nat) : Bool :=
  s.rd (PG_STATE_LIFE (lnkPage n)) == lifeStopping && !(s.ep n).units.any (fun u => match u with
    | .state op _ _ => op == 1
    | _ => false)

/-- The link's current key has been in use for 96 h: it is used for no further slot (R381). -/
def State.keySpent (s : State) (n : Nat) : Bool :=
  s.on (LNK_STATUS_KEYS_ON n) && (s.port n).key.cur.any (fun k => decide (cycSub s.cycle k.first ≥ 2764800000))

/-- The port sends slots in this cycle: it is in CYCLE or ACTIVE in native mode, not suspended, not stopped, its key not spent, and no step
gap runs (R74, R186, R356, R381). -/
def State.sendsSlots (s : State) (n : Nat) : Bool :=
  n < 3 && !s.on (LNK_STATUS_MODE1040 n) && (s.tstate n == tCycle || s.tstate n == tActive) && !s.time.gap &&
    (!(s.port n).pw.suspended || (s.port n).pw.resuming) && !s.silenced n && !s.keySpent n

/-- The receiver's cycle in which a control slot counts: that of its arrival less the filtered link delay (R81). -/
def State.arrivalCycle (s : State) (n arrival : Nat) : Nat := (arrival - s.rd (TIME_DELAY n)) / 500000 % 2 ^ 32

/-- The FEC outcome of a slot (R57): corrected symbols and uncorrectable pairs. -/
def State.fecCount (s : State) (n corr uncorr : Nat) : State :=
  ((s.inc (LNK_FEC_CORR n) corr).inc (LNK_FEC_UNCORR n) uncorr).when (uncorr != 0) (·.raise (lnkPage n) 5)

/-- CONTROL_SLOT_RECEIVED (R57, R81, R380): the FEC codewords that ended with the slot are counted; the trailer and CYCNO are checked; the
slot's message units arrive as events of their own, or the slot is discarded and counted. -/
def execControlSlotReceived (n j nmsg keysel epoch cycno : Nat) (payload : List Byte) (trailer arrival : Nat)
    (fec : SlotFec) (s : State) : Outcome State Fault Refusal :=
  done <| s.when (n < 3 && (s.tstate n == tCycle || s.tstate n == tActive) && !s.on (LNK_STATUS_MODE1040 n)) fun s =>
    let s := s.fecCount n fec.corr fec.uncorr
    if fec.void then s.inc (LNK_CELLS_VOID n)
    else
      let pl := pad128 payload
      let (ok, selErr) := s.openCtl n j nmsg keysel epoch cycno pl trailer
      let bad (s : State) : State := (s.inc (CYC_CTRL_BAD n)).raise (cycPage n) 4
      if !ok then
        let late := s.verifiesNext n (61 * j) cycno keysel (beBytes 8 (ctlHeader j nmsg keysel epoch cycno) ++ pl) [] trailer
        let s := s.when late (fun s => s.modLk n (fun k => { k with lateDue := true }))
        bad (s.when selErr (fun s => s.inc (SEC_KEYSEL_ERR n)))
      else if cycno ≠ s.arrivalCycle n arrival then bad (s.modEp n (fun e => { e with mismatch := true }))
      else s.slotValid n cycno

/-- WAKE_REQ (R81, R352): the far end asks this end to wake; it is a link wake event. -/
def execWakeReq (n cycle : Nat) (s : State) : Outcome State Fault Refusal :=
  done <| s.when (s.native n && cycGe s.cycle cycle) fun s => s.wakeBy 1

/-- STATE_REPORT (R81): the far end's power state is noted. -/
def execStateReport (n power : Nat) (s : State) : Outcome State Fault Refusal :=
  done <| s.when (s.native n) fun s => s.modPort n (fun p => { p with pw := { p.pw with farPower := power } })

end Sys2Proof.Machine
end

