-- ==== Sys2Proof/Machine/CtxOps.lean ====
section
/-!
DEFINITION. What a context does: its life (R38, R105, R110, R111), its buckets at a start (R155), cells that arrive for it
from a link (R113, R115, R116, R121–R123), frames that enter at an origin (R115, R130, R135), the metering of frames
(R160–R162), and its ACK entries (R116–R118).
-/

namespace Sys2Proof.Machine

/-! ## Life of a context -/

/-- Some ingress pair of the context is quarantined (R105). -/
def State.quarantined (s : State) (c : Nat) : Bool :=
  [0, 1].any (fun w => s.ptLink c w && s.quar.any (fun q => q.port == s.rd (ptPoint c w) && q.ltn == s.ltnOf c w))

/-- The context reaches OFF (R105, R108): pending LTNs are dropped, the pairs held for ingress enter quarantine for
4 cycles, pending RWP values apply, and the held cells of a frame that arrived in part are counted in DROP_STOP. -/
def State.ctxRelease (s : State) (c : Nat) : State :=
  let s := foldS (List.range 4) (fun s w => s.wr (ptLtn c w) (s.ltnOf c w)) s
  let pairs := ([0, 1].filter (s.ptLink c)).map (fun w => (⟨c, s.rd (ptPoint c w), s.ltnOf c w, cycAdd s.cycle 4⟩ : Quar))
  let s := { s with quar := s.quar.filter (fun (q : Quar) => !pairs.any (fun (x : Quar) => x.port == q.port && x.ltn == q.ltn)) ++ pairs }
  let s := s.applyFields [CTX_MODE_AGECLS c, CTX_MODE_FWD c, CTX_MODE_TC c]
  let held := match (s.ctx c).rx with | some r => r.held.length | none => 0
  (s.inc (CTX_DROP_STOP c) held).modCtx c (fun _ => {})

/-- The tree lets the context use its link points (R24, R26): none lies on a link that is marked excess, and one on a twin link belongs to a
type that may be twinned, within four hops of the crown.  DESIGN CHOICE (log entry 129): a start that is not let in waits, since the
commit has no reason for it. -/
def State.admitted (s : State) (c : Nat) : Bool :=
  ((List.range 4).filter (s.ptLink c)).all (fun w =>
    let n := s.rd (ptPoint c w)
    !s.bit SYS_TREE_POS_EXCESS n &&
      (!s.bit SYS_TREE_POS_TWIN_PORTS n ||
        ((s.rd (CTX_MODE_TYPE c) == 6 || s.rd (CTX_MODE_TYPE c) == 7) &&
          (decide (s.rd SYS_TREE_POS_DEPTH < 4) || (s.tr n).farRole.any (fun b => b.depth < 4)))))

/-- Steps 1–3 of a start hold (R110): no quarantine, every link egress ACTIVE and encrypted where the context requires it, and for a
reliable origin a RESYNC entry. -/
def State.startSteps (s : State) (c : Nat) : Bool :=
  s.ctxLife c == lifeStarting && !s.quarantined c && s.admitted c &&
    ([2, 3].filter (s.ptLink c)).all (fun w => s.active (s.rd (ptPoint c w)) &&
      (!s.on (CTX_MODE_ENC_REQ c) || s.on (LNK_STATUS_KEYS_ON (s.rd (ptPoint c w))))) &&
    (!(s.reliable c && s.isOrigin c) || (s.ctx c).resynced)

/-- A twin split that has passed steps 1–3 begins its wait (R110 step 4). -/
def State.splitWait (s : State) (c : Nat) : State :=
  s.when (s.twin c == 1 && (s.ctx c).splitFrom.isNone && s.startSteps c) (·.modCtx c (fun t => { t with splitFrom := some s.cycle }))

/-- Entry into STARTING (R110). -/
def State.ctxStart (s : State) (c : Nat) : State :=
  ((s.ctxSetLife c lifeStarting).modCtx c (fun t =>
    { t with since := s.cycle, resynced := false, splitDone := false, splitFrom := none, drained := false })).splitWait c

/-- An ACTIVE link egress lacks encryption that the context requires, and no quarantine runs: the start faults with cause 0x03
(R110 step 2). -/
def State.encCheck (s : State) (c : Nat) : State :=
  s.when (s.ctxLife c == lifeStarting && !s.quarantined c && s.on (CTX_MODE_ENC_REQ c) &&
      ([2, 3].filter (s.ptLink c)).any (fun w => s.active (s.rd (ptPoint c w)) && !s.on (LNK_STATUS_KEYS_ON (s.rd (ptPoint c w)))))
    fun s => s.ctxFault c 3

/-- The stop ends (R111 step 6, R38, R39): OFF, or STARTING where EN_PENDING is set. -/
def State.ctxStopped (s : State) (c : Nat) : State :=
  let s := s.ctxRelease c
  if s.on (CTX_STATE_EN_PENDING c) then ((s.flag (CTX_STATE_EN_PENDING c) false).ctxStart c).encCheck c
  else s.ctxSetLife c lifeOff

/-- Unsent cells are discarded and frames whose head has left are ended with INC (R111 step 3). -/
def State.ctxDiscard (s : State) (c : Nat) : State := (s.flushCtx c true).modCtx c (fun t => { t with drained := true })

/-- ACK entries of the context that wait for a control slot are not sent any more (R111 step 5). -/
def State.dropEntries (s : State) (c : Nat) : State :=
  foldS ([0, 1].filter (s.ptLink c)) (fun s w =>
    let n := s.rd (ptPoint c w)
    s.modEp n (fun e => { e with acks := e.acks.filter (fun a => !s.ptMaps c w n a.ltn) })) s

/-- Entry into STOPPING (R111). -/
def State.ctxStop (s : State) (c : Nat) : State :=
  let s := ((s.dropEntries c).ctxSetLife c lifeStopping).modCtx c (fun t => { t with since := s.cycle, drained := false })
  s.when (s.on (CTX_CTRL_DISCARD c)) (·.ctxDiscard c)

/-- CONTEXT_ENABLE and CONTEXT_DISABLE (R38, R110, R111): a committed EN. -/
def State.ctxWriteEn (s : State) (c : Nat) (en : Bool) : State :=
  let life := s.ctxLife c
  if en then
    if life = lifeOff then (s.ctxStart c).encCheck c
    else s.when (life == lifeStopping) (·.flag (CTX_STATE_EN_PENDING c) true)
  else if life = lifeStarting then ((s.ctxSetLife c lifeStopping).flushCtx c false).ctxStopped c
  else if life = lifeOn then s.ctxStop c
  else if life = lifeStopping then s.flag (CTX_STATE_EN_PENDING c) false
  else if life = lifeFault then (s.ctxSetLife c lifeStopping).modCtx c (fun t => { t with since := s.cycle, drained := true })
  else s

/-- PIR and PBS come into force and the buckets of a context that reaches ON are set, as a refill with no hold would set them (R155). -/
def State.freshBuckets (s : State) (c : Nat) : State :=
  let pbs : Int := (s.rd (CTX_PEAK_PBS c) : Nat)
  (s.applyFields [CTX_PEAK_PIR c, CTX_PEAK_PBS c]).modCtx c (fun t =>
    { t with c := [(0, s.caratsOf c 0), (1, s.caratsOf c 1)], p := [(0, pbs), (1, pbs)] })

/-- The sequence state of a start (R110 step 5, R115). -/
def State.resetSeq (s : State) (c : Nat) : State :=
  let s := ((s.wr (CTX_SEQ_TX_NEXT c) 0).wr (CTX_SEQ_RX_NEXT c) 0).wr (CTX_ACKST_ACKED c) 0
  let s := ((s.wr (CTX_RETRY_MERGE_H c) 0).wr (CTX_RETRY_RETRIES c) 0).flag (CTX_STATE_BASE c) false
  (s.flag (CTX_STATE_CM_HOLD c) false).modCtx c (fun t =>
    { t with rx := none, headless := false, kept := [], inLtn := [], cm := [], advanced := false, lastSeq := none, lastRx := s.cycle,
             holdDue := false, holdEnd := 0 })

/-- Every condition of R110 holds for a context in STARTING. -/
def State.startReady (s : State) (c : Nat) : Bool := s.startSteps c && (s.twin c != 1 || (s.ctx c).splitDone)

/-- The context is ready to be OFF: nothing of it is queued or kept (R111). -/
def State.stopReady (s : State) (c : Nat) : Bool :=
  s.ctxLife c == lifeStopping && (s.ctx c).kept.isEmpty && !s.gird.queues.any (fun e => e.2.any (fun f => f.ctx == c))

/-! ## Cells from a link (R113, R115, R116, R121–R123) -/

/-- End the frame open at the context: a held frame is discarded and counted in DROP_INC, a cut-through one is ended by
an INC tail (R121–R123). -/
def State.closeRx (s : State) (c : Nat) : State :=
  match (s.ctx c).rx with
  | none => s
  | some r =>
    let s := s.modCtx c (fun t => { t with rx := none })
    if r.count = 0 then s.when (!r.held.isEmpty) (·.inc (CTX_DROP_INC c))
    else
      let tail : Cell := { ltn := 0, tc := r.tc, ls := true, inc := true, tw := r.tw, fill := 0,
                           seq := (r.high + 1) % 65536, age := r.age, payload := List.replicate 128 0 }
      (s.enqueue c r.id tail (s.targets c r.tc) none).1

/-- Queue a received cell at the context's egress, cut-through or store-and-forward (R113); a split marks both copies (R119).  The second
result is false where the queue of a reliable end refused the cell (R130). -/
def State.forwardCell (s : State) (c : Nat) (cell : Cell) (src : Option (Nat × Nat)) : State × Bool :=
  let cell := { cell with tw := cell.tw || s.twin c == 1 }
  let s := s.when ((s.ctx c).rx.isSome && cell.fs) (·.closeRx c)
  let sf := s.storeForward c cell.tc
  match (s.ctx c).rx with
  | none =>
    if sf && !cell.fs then
      let s := s.when (!(s.ctx c).headless) (·.inc (CTX_DROP_INC c))
      (s.modCtx c (fun t => { t with headless := !cell.ls }), true)
    else
      let (id, s) := s.newFrame
      let s := s.modCtx c (fun t => { t with headless := false })
      if sf && !cell.ls then
        (s.modCtx c (fun t => { t with rx := some { id := id, held := [cell], high := cell.seq, tc := cell.tc, age := cell.age, tw := cell.tw } }), true)
      else if sf && cell.inc then (s.inc (CTX_DROP_INC c), true)
      else
        let (s, no) := s.enqueue c id cell (s.targets c cell.tc) src
        if no && s.reliable c && s.isEnd c then (s, false)
        else (s.when (!cell.ls) (fun s => s.modCtx c (fun t =>
          { t with rx := some { id := id, count := 1, high := cell.seq, tc := cell.tc, age := cell.age, tw := cell.tw } })), true)
  | some r =>
    if r.count = 0 then
      let bad := r.bad || cell.seq != (r.high + 1) % 65536
      let held := r.held ++ [cell]
      if !cell.ls then (s.modCtx c (fun t => { t with rx := some { r with held := held, high := cell.seq, bad := bad } }), true)
      else if cell.inc || bad || held.length > 128 then
        ((s.inc (CTX_DROP_INC c)).modCtx c (fun t => { t with rx := none }), true)
      else
        let qs := s.targets c r.tc
        if s.reliable c && s.isEnd c && qs.any (fun e => !s.canAdmit e.1 held.length) && src.isNone then
          (foldS qs (fun s e => (s.inc (GRD_DROP_FULL (e.1 / 8))).raise 13 1) s, false)
        else
          let s := s.modCtx c (fun t => { t with rx := none })
          (foldS held (fun s x => (s.enqueue c r.id x qs src).1) s, true)
    else
      let (s, no) := s.enqueue c r.id cell (s.targets c r.tc) src
      if no && s.reliable c && s.isEnd c then (s, false)
      else (s.modCtx c (fun t =>
        { t with rx := if cell.ls then none else some { r with count := r.count + 1, high := cell.seq } }), true)

/-- RELIABLE_END_DELIVER (R115, R116). -/
def State.reliableEnd (s : State) (c : Nat) (cell : Cell) (src : Option (Nat × Nat)) : State :=
  if !s.on (CTX_STATE_BASE c) && !(cell.seq == 0 && cell.fs) then s.inc (CTX_OOO c)
  else
    let s := s.flag (CTX_STATE_BASE c) true
    if cell.seq ≠ s.rd (CTX_SEQ_RX_NEXT c) then s.inc (CTX_OOO c)
    else
      let (s, ok) := s.forwardCell c cell src
      s.when ok fun s => (s.inc (CTX_SEQ_RX_NEXT c)).modCtx c (fun t => { t with advanced := true })

/-- UNRELIABLE_END_DELIVER (R123). -/
def State.unreliableEnd (s : State) (c : Nat) (cell : Cell) (src : Option (Nat × Nat)) : State :=
  let d := match (s.ctx c).lastSeq with
    | some l => (cell.seq + 65536 - l) % 65536
    | none => 0
  let s := s.when (1 < d && d < 32768) (fun s => s.inc (CTX_LOST c) (d - 1))
  ((s.modCtx c (fun t => { t with lastSeq := some cell.seq, lastRx := s.cycle })).forwardCell c cell src).1

/-- MERGE_CELL (R121). -/
def State.mergeCell (s : State) (c : Nat) (cell : Cell) (src : Option (Nat × Nat)) : State :=
  if !s.on (CTX_STATE_BASE c) && !cell.fs then s.inc (CTX_AHEAD c)
  else
    let s := if s.on (CTX_STATE_BASE c) then s
      else (s.flag (CTX_STATE_BASE c) true).wr (CTX_RETRY_MERGE_H c) (cell.seq + 65535)
    let h := s.rd (CTX_RETRY_MERGE_H c)
    let d := (cell.seq + 65536 - h) % 65536
    let deliver (s : State) : State :=
      (((s.wr (CTX_RETRY_MERGE_H c) cell.seq).modCtx c (fun t => { t with lastRx := s.cycle })).forwardCell c cell src).1
    if d = 0 ∨ d ≥ 32768 then
      if (h + 65536 - cell.seq) % 65536 < 256 then s.inc (CTX_DUP c) else s.inc (CTX_STALE c)
    else if d = 1 then deliver s
    else if cell.fs then deliver ((s.closeRx c).inc (CTX_LOST c) (d - 1))
    else s.inc (CTX_AHEAD c)

/-- A cell arrives on a link port for a context by its ingress word `w` (R104, R111, R112, R117, R118): `src` names the port of a
1040-mode link. -/
def State.ctxReceive (s : State) (port c w : Nat) (cell : Cell) (src : Option (Nat × Nat)) : State :=
  let life := s.ctxLife c
  if life = lifeStarting then s.noCtx port
  else if life ≠ lifeOn then s.inc (CTX_DROP_STOP c)
  else
    let s := (s.inc (CTX_CELLS_IN c)).when cell.fs (·.inc (CTX_FRAMES_IN c))
    let s := s.when (s.isEnd c) (·.modCtx c (fun t => { t with inLtn := tset t.inLtn w cell.ltn }))
    let s := s.when (s.isEnd c && cell.cm) (fun s => s.modCtx c (fun t => { t with cm := tmod 0 t.cm port (· + 1) }))
    if s.twin c = 2 then s.mergeCell c cell src
    else if !s.isEnd c then (s.forwardCell c cell src).1
    else if s.reliable c then s.reliableEnd c cell src
    else s.unreliableEnd c cell src

/-- The merge drops its base; a frame open at its egress is ended with INC (R122). -/
def State.dropBase (s : State) (c : Nat) : State := (s.flag (CTX_STATE_BASE c) false).closeRx c

/-! ## ACK entries (R116–R118) -/

/-- The entries a context sends in this cycle, one for each ingress link, into the waiting entries of its port. -/
def State.ctxEntries (s : State) (c : Nat) : State :=
  if s.ctxLife c ≠ lifeOn || !s.isEnd c then s
  else
    let s := foldS ([0, 1].filter (fun w => s.ptLink c w && s.active (s.rd (ptPoint c w)))) (fun s w =>
      let port := s.rd (ptPoint c w)
      let cm := min 255 (tget 0 (s.ctx c).cm port)
      let ltn := (tget? (s.ctx c).inLtn w).getD (s.ltnOf c w)
      let s := s.modCtx c (fun t => { t with cm := tdel t.cm port, inLtn := tdel t.inLtn w })
      if s.reliable c && !s.on (CTX_STATE_BASE c) then s.queueAck port ⟨ltn, 0, cm, false, true⟩
      else if s.reliable c && ((s.ctx c).advanced || cm != 0) then
        s.queueAck port ⟨ltn, (s.rd (CTX_SEQ_RX_NEXT c) + 65535) % 65536, cm, true, false⟩
      else s.when (cm != 0) (fun s => s.queueAck port ⟨ltn, 0, cm, false, false⟩)) s
    s.modCtx c (fun t => { t with advanced := false })

/-! ## Meters (R160–R163) -/

/-- METER_COLOUR (R161): refill by elapsed time and colour a frame of ingress time `t`: 0 green, 1 yellow, 2 red. -/
def State.meterColour (s : State) (m t : Nat) (preYellow : Bool) : State × Nat :=
  let b := tget {} s.sch.mtr m
  let dt := t - b.last
  let cir := s.rd (MTR_CIR_RATE m)
  let pir := s.rd (MTR_PIR_RATE m)
  let tc := min (s.rd (MTR_BURST_CBS m) * 1000000000) (b.tc + dt * cir)
  let tp := min (s.rd (MTR_BURST_PBS m) * 1000000000) (b.tp + dt * pir)
  let put (tc tp : Nat) (s : State) : State :=
    { s with sch := { s.sch with mtr := tset s.sch.mtr m ⟨tc, tp, max b.last t⟩ } }
  if tp < 1000000000 then (put tc tp s, 2)
  else if tc < 1000000000 || (s.on (MTR_CTRL_AWARE m) && preYellow) then (put tc (tp - 1000000000) s, 1)
  else (put (tc - 1000000000) (tp - 1000000000) s, 0)

/-- What a meter makes of a frame (R162). -/
structure Metered where
  drop : Bool := false
  mark : Bool := false
  tc : Option Nat := none
  colour : Option Nat := none
  deriving DecidableEq, Repr

/-- Apply a meter to a frame: colour, counters, MTR_RED and the colour's action (R160–R163); a disabled meter lets the
frame pass uncoloured. -/
def State.meter (s : State) (m t : Nat) (preYellow : Bool) : State × Metered :=
  if !s.on (MTR_CTRL_EN m) then (s, {})
  else
    let (s, col) := s.meterColour m t preYellow
    let s := s.inc (if col = 0 then MTR_GREEN m else if col = 1 then MTR_YELLOW m else MTR_RED m)
    let s := s.when (col == 2 && s.on (MTR_CTRL_IRQ_RED m)) (fun s => (s.eventBit (SCH_MTR_RED (m / 32)) (m % 32)).raise 14 3)
    let act := s.rd (if col = 0 then MTR_CTRL_G_ACT m else if col = 1 then MTR_CTRL_Y_ACT m else MTR_CTRL_R_ACT m)
    let tc := s.rd (if col = 0 then MTR_CTRL_G_TC m else if col = 1 then MTR_CTRL_Y_TC m else MTR_CTRL_R_TC m)
    (s, { drop := act == 3, mark := act == 2, tc := if act = 1 then some tc else none, colour := some col })

/-! ## Frames at an origin (R111, R113, R115, R130, R135, R160) -/

/-- The cells of a frame: 128 bytes each, FILL of the last one. -/
def cellsOf (data : List Byte) (tc age : Nat) (cm tw : Bool) : List Cell :=
  let n := max 1 ((data.length + 127) / 128)
  (List.range n).map (fun i =>
    let chunk := (data.drop (128 * i)).take 128
    { ltn := 0, tc := tc, fs := i == 0, ls := i + 1 == n, cm := cm, inc := false, tw := tw,
      fill := if i + 1 = n then chunk.length - 1 else 127, keysel := 0, seq := 0, age := age, payload := pad128 chunk })

/-- The cells of a frame.  Of a received frame found bad, the cells queued so far and an INC tail (R79, R271). -/
def SvFrame.cells (f : SvFrame) (data : List Byte) (tc : Nat) (cm tw : Bool) : List Cell :=
  let l := cellsOf data tc (ageOf f.ns) cm tw
  match f.bad with
  | none => l
  | some k =>
    (l.take k).map (fun (c : Cell) => { c with ls := false, fill := 127 }) ++
      [{ ltn := 0, tc := tc, ls := true, inc := true, tw := tw, age := ageOf f.ns, payload := List.replicate 128 0 }]

/-- A frame that enters at an origin context, or a copy of it: the context, the class and the cells (R133). -/
structure Flow where
  ctx : Nat
  tc : Nat
  cells : List Cell
  deriving DecidableEq, Repr

/-- What an origin context makes of a frame with its class and mark, before any cell is queued: the tunnel's meter colours it (R160); none is
left of a frame that the meter drops, of one for a context that is not ON, counted in DROP_STOP (R111), of an oversize store-and-forward
frame, counted in DROP_INC (R113), of a bad frame that is held whole (R271), and, uncounted, of any frame while the girdle is wedged
(R146). -/
def State.originFlow (s : State) (f : SvFrame) (data : List Byte) (c tc : Nat) (cm : Bool) : State × Option Flow :=
  let n := max 1 ((data.length + 127) / 128)
  if s.on (PG_STATE_WEDGED 13) then (s, none)
  else if s.ctxLife c ≠ lifeOn then (s.when f.bad.isNone (·.inc (CTX_DROP_STOP c) n), none)
  else if f.bad = some 0 ∨ (f.bad.isSome ∧ s.storeForward c tc) then (s, none)
  else
    let (s, m) := if s.on (CTX_METER_MEN c) && s.isOrigin c then s.meter (s.rd (CTX_METER_MIDX c)) f.ns cm else (s, {})
    if m.drop then (s, none)
    else
      let tc := m.tc.getD tc
      if s.storeForward c tc && f.bad.isSome then (s, none)
      else if s.storeForward c tc && n > 128 then (s.inc (CTX_DROP_INC c), none)
      else (s, some ⟨c, tc, f.cells data tc (cm || m.mark) (s.twin c == 1)⟩)

/-- Number the `i`-th cell of each flow: the places that they take.  An unreliable origin numbers its cells as they are stored, a reliable
one as they leave (R115). -/
def State.numberCells (s : State) (i : Nat) (l : List (Nat × Flow)) : State × List Dest :=
  l.foldl (fun (a : State × List Dest) (e : Nat × Flow) =>
    match e.2.cells[i]? with
    | none => a
    | some x =>
      let c := e.2.ctx
      let qs := a.1.targets c e.2.tc
      let (x, s) :=
        if a.1.reliable c && qs.all (fun e => e.1 < 24) then (x, a.1)
        else ({ x with seq := a.1.rd (CTX_SEQ_TX_NEXT c) }, a.1.inc (CTX_SEQ_TX_NEXT c))
      let s := (s.inc (CTX_CELLS_IN c)).when x.fs (·.inc (CTX_FRAMES_IN c))
      (s, a.2 ++ qs.map (fun q => ⟨c, e.1, q.1, q.2, x⟩))) (s, [])

/-- Queue the flows of one frame: cell by cell, each stored once for all of them (R133).  `room` says that the girdle set room aside. -/
def State.storeFlows (s : State) (l : List Flow) (room : Bool) : State :=
  let (ids, s) := l.foldl (fun (a : List (Nat × Flow) × State) f => let r := a.2.newFrame; (a.1 ++ [(r.1, f)], r.2)) ([], s)
  let n := l.foldl (fun a f => max a f.cells.length) 0
  foldS (List.range n) (fun s i => let (s, ds) := s.numberCells i ids; (s.store ds none room).1) s

/-- The cells that some flows bring to each queue. -/
def State.needs (s : State) (l : List Flow) : Tbl Nat :=
  l.foldl (fun t f => (s.targets f.ctx f.tc).foldl (fun t e => tmod 0 t e.1 (· + f.cells.length)) t) []

/-- Every queue that a frame and its copies are bound for have room for all of their cells (R130). -/
def State.hasRoom (s : State) (l : List Flow) : Bool := (s.needs l).all (fun e => s.canAdmit e.1 e.2)

/-- A frame of an adapter with flow control is presented: the girdle sets the room aside until its last cell is stored (R130). -/
def State.present (s : State) (l : List Flow) : State :=
  { s with gird := { s.gird with aside := (s.needs l).foldl (fun t (e : Nat × Nat) => tmod 0 t e.1 (· + e.2)) s.gird.aside } }.storeFlows l true

/-- The class of a frame that neither the sieve nor a meter classed (R101). -/
def State.modeTc (s : State) (c : Nat) : Nat := s.rd (CTX_MODE_TC c).inForce

/-- The ON or other context that names an ingress stream (point and SUB), if any. -/
def State.ctxByStream (s : State) (point sub : Nat) : Option Nat :=
  (List.range 256).find? (fun c => s.ctxLife c != lifeOff && s.on (ptV c 0) && s.rd (ptPoint c 0) == point && s.rd (ptSub c 0) == sub)

/-- A context whose egress names a stream (point and SUB). -/
def State.ctxToStream (s : State) (point sub : Nat) : Option Nat :=
  (List.range 256).find? (fun c => s.ctxLife c != lifeOff &&
    [2, 3].any (fun w => s.on (ptV c w) && s.rd (ptPoint c w) == point && s.rd (ptSub c w) == sub))

end Sys2Proof.Machine
end

