-- ==== Sys2Proof/Machine/SchedOps.lean ====
section
/-!
DEFINITION. Shared operations of the scheduler: shapers and their refill (R154, R155), the cells that leave on a link or at
an adapter, gate control lists (R164–R168), and CE marking (R143).
-/

namespace Sys2Proof.Machine

/-! ## Shapers (R154, R155) -/

def State.bucketC (s : State) (c e : Nat) : Nat := tget 0 (s.ctx c).c e
def State.bucketP (s : State) (c e : Nat) : Int := tget 0 (s.ctx c).p e

/-- The peak bucket of the context is enforced: PIR in force, or a hold (R155). -/
def State.peakEnforced (s : State) (c : Nat) : Bool :=
  s.rd (CTX_PEAK_PIR c).inForce != 0 || s.on (CTX_STATE_CM_HOLD c)

/-- A frame of the context may start at the egress (R154). -/
def State.shaperOpen (s : State) (c e : Nat) : Bool :=
  s.bucketC c e ≥ 1 || s.bucketP c e ≥ 1 || !s.peakEnforced c

/-- A cell sent takes its tokens (R154). -/
def State.charge (s : State) (c e : Nat) : State :=
  let enf := s.peakEnforced c
  s.modCtx c (fun t =>
    { t with c := tset t.c e (tget 0 t.c e - 1), p := if enf then tset t.p e (tget 0 t.p e - 1) else t.p })

/-- Refill the buckets of one link egress (R155); `starts` says that a hold starts at this boundary. -/
def State.refill (s : State) (c e : Nat) (starts : Bool) : State :=
  let car := s.caratsOf c e
  s.modCtx c (fun t =>
    let p0 := tget 0 t.p e
    { t with c := tset t.c e car, p := tset t.p e (s.peakAfter c p0 car starts), pWas := tset t.pWas e p0, holdStarts := starts })

/-- BUCKET_REFILL (R155, R118) of one context for the link egresses that `sel` picks: PIR and PBS come into force, a hold
that is due starts or restarts for 8 cycles, and the buckets are refilled. -/
def State.refillCtx (s : State) (c : Nat) (sel : Nat → Bool) : State :=
  let es := [0, 1].filter (fun e => s.ptLink c (2 + e) && sel (s.rd (ptPoint c (2 + e))))
  if es.isEmpty || s.ctxLife c == lifeOff then s
  else
    let s := s.applyFields [CTX_PEAK_PIR c, CTX_PEAK_PBS c]
    let due := (s.ctx c).holdDue
    -- a hold whose eight cycles are over is in force no longer, even if its expiry has not been processed yet
    let s := s.when (s.on (CTX_STATE_CM_HOLD c) && !due && cycLater s.cycle (s.ctx c).holdEnd)
      (·.flag (CTX_STATE_CM_HOLD c) false)
    let starts := due && !s.on (CTX_STATE_CM_HOLD c)
    let s := s.when due (fun s =>
      ((s.when starts (·.inc (CTX_CM_HOLDS c))).flag (CTX_STATE_CM_HOLD c) true).modCtx c
        (fun t => { t with holdDue := false, holdEnd := cycAdd s.cycle 7 }))
    foldS es (fun s e => s.refill c e starts) s

/-! ## Cells that leave -/

/-- Count a cell that leaves the chip at an egress of its context (CELLS_OUT, FRAMES_OUT, REPLAY). -/
def State.countOut (s : State) (x : Sent) : State :=
  if x.replay then s.inc (CTX_REPLAY x.ctx)
  else (s.inc (CTX_CELLS_OUT x.ctx)).when (x.cell.ls && !x.cell.inc) (·.inc (CTX_FRAMES_OUT x.ctx))

/-- The cell as a link sends it: the outgoing LTN in force (R103, R108). -/
def State.withTxLtn (s : State) (x : Sent) : Cell := { x.cell with ltn := s.ltnOf x.ctx (2 + x.eg) }

/-- Send a cell, or idle fill, in slot `i` of a link (R78, R80). -/
def State.sendSlot (s : State) (n i : Nat) (c : Cell) : State :=
  let (c, t) := s.sealCell n i c
  s.emit (.slot n i c t)

/-- Offer an opportunity of link port `n` to class `tc` (R151, R153, R154): `fit` holds the window's end and the present
data slot when the frame-fit check applies. -/
def State.offer (s : State) (n tc : Nat) (ecc : Tbl Nat) (fit : Option (Nat × Nat)) : State × Option Sent :=
  let mayStart (s : State) (f : QFrame) (_ : Cell) : State × Bool :=
    if !s.shaperOpen f.ctx f.eg then (s.inc (SCH_SHAPE_HOLD n), false)
    else match fit with
      | none => (s, true)
      | some (e, d) =>
        let k := if f.lsStored then f.cells.length else max f.cells.length (s.rd (SCH_LSCH_FIT_CT n).inForce)
        if k > e - d then (s.inc (SCH_FIT_DEFER n), false) else (s, true)
  let (s, r) := s.takeCell (8 * n + tc) ecc mayStart
  match r with
  | none => (s, none)
  | some x =>
    let s := (s.charge x.ctx x.eg).countOut x
    (s.when (x.ctx < 6) (fun s => s.modEp n (fun e => { e with mgmtUsed := e.mgmtUsed + 1 })), some x)

/-- The first of some classes that has a cell to send. -/
def State.offerFirst (s : State) (n : Nat) (ecc : Tbl Nat) (fit : Nat → Option (Nat × Nat)) : List Nat → State × Option Sent
  | [] => (s, none)
  | tc :: l =>
    match s.offer n tc ecc (fit tc) with
    | (s, some x) => (s, some x)
    | (s, none) => s.offerFirst n ecc fit l

/-! ## Congestion marks at an Ethernet egress (R143) -/

/-- A byte of a list, 0 past its end. -/
def byteAt (l : List Byte) (i : Nat) : Nat := ((l[i]?).map (·.toNat)).getD 0
def halfAt (l : List Byte) (i : Nat) : Nat := 256 * byteAt l i + byteAt l (i + 1)

/-- Replace the bytes from an index on. -/
def putBytes (l : List Byte) (i : Nat) (b : List Byte) : List Byte := l.take i ++ b ++ l.drop (i + b.length)

/-- Skip up to `v` VLAN tags and up to `h` HSR tags: the index of the EtherType that follows them. -/
def etherAt (b : List Byte) : Nat → Nat → Nat → Nat → Nat
  | 0, i, _, _ => i
  | f + 1, i, v, h =>
    let t := halfAt b i
    if (t = 0x8100 ∨ t = 0x88A8) ∧ v > 0 then etherAt b f (i + 4) (v - 1) h
    else if t = 0x892F ∧ h > 0 then etherAt b f (i + 6) v (h - 1)
    else i

/-- One's complement sum of the 16-bit halves of a list. -/
def onesSum (b : List Byte) : Nat :=
  (List.range (b.length / 2)).foldl (fun a i => let x := a + halfAt b (2 * i); x % 65536 + x / 65536) 0

/-- Set ECN to CE in the first cell of a frame: the payload and whether it is at CE now (R143). -/
def ceMark (b : List Byte) : List Byte × Bool :=
  let i := etherAt b 3 12 2 1
  let t := halfAt b i
  if t = 0x0800 then
    let tos := byteAt b (i + 3)
    if tos % 4 = 0 then (b, false)
    else if tos % 4 = 3 then (b, true)
    else
      let hlen := 4 * (byteAt b (i + 2) % 16)
      let b1 := putBytes b (i + 3) (beBytes 1 (tos / 4 * 4 + 3))
      let b2 := putBytes b1 (i + 12) (beBytes 2 0)
      let sum := onesSum ((b2.drop (i + 2)).take hlen)
      (putBytes b2 (i + 12) (beBytes 2 (65535 - sum)), true)
  else if t = 0x86DD then
    let x := byteAt b (i + 3)
    let ecn := x / 16 % 4
    if ecn = 0 then (b, false)
    else if ecn = 3 then (b, true)
    else (putBytes b (i + 3) (beBytes 1 (x % 16 + 48 + x / 64 * 64)), true)
  else (b, false)

end Sys2Proof.Machine
end

