-- ==== Sys2Proof/Machine/BridgeOps.lean ====
section
/-!
DEFINITION. Shared operations of the PCIe port and the far-bus bridge: virtual ports, completions, the error FIFO, windows
and bursts (`09_pcie_farbus.md`).
-/

namespace Sys2Proof.Machine

def State.modBrg (s : State) (f : BridgeS → BridgeS) : State := { s with brg := f s.brg }

/-! ## Completions -/

/-- A completion with UR, counted. -/
def State.cplUr (s : State) (reqId tag : Nat) : State := (s.inc PCIE_UR_SENT).emit (.cpl reqId tag 1 [])
/-- A completion with CA, counted. -/
def State.cplCa (s : State) (reqId tag : Nat) : State := (s.inc PCIE_CA_SENT).emit (.cpl reqId tag 4 [])

/-! ## Functions and ports (R197, R198, R211) -/

def State.pcieFn (s : State) (fn : Nat) : PcieFn := tget {} s.brg.fns fn

/-- An uncorrectable error of a function or port: its AER status; where the mask leaves it open, the header log, unless an earlier error holds
it, and ERR_FATAL or ERR_NONFATAL by its severity (R211). -/
def State.aerError (s : State) (fn bit : Nat) (hdr : List Nat) : State :=
  let f := s.pcieFn fn
  let held := !(f.unc &&& (2 ^ 32 - 1 - f.cfg.mask % 2 ^ 32) == 0)
  let open_ := !f.cfg.mask.testBit bit
  let s := s.modBrg (fun t => { t with fns := tset t.fns fn { f with unc := f.unc ||| 2 ^ bit, hdr := if open_ && !held then hdr else f.hdr } })
  if !open_ then s
  else if f.cfg.sev.testBit bit then s.emit (.pcieMsg 5 fn)
  else (s.raise 22 3).emit (.pcieMsg 1 fn)

/-- The BARs of function 0: number, address bits, prefetchable, bytes (R198). -/
def State.bars (s : State) : List (Nat × Nat × Bool × Nat) :=
  [(0, 32, false, 2 ^ 18), (1, 32, false, 2 ^ 20), (2, 64, false, 2 ^ s.rd PCIE_BAR2_SIZE_LOG2.inForce)]

/-- The size of BAR2. -/
def State.bar2Bytes (s : State) : Nat := ((s.bars.find? (fun e => e.1 == 2)).map (fun e => e.2.2.2)).getD 0

/-- Halves with their addresses, cut where the address passes a multiple of `n`. -/
def cutAt (n : Nat) : List (Nat × Nat) → List (List (Nat × Nat))
  | [] => []
  | e :: l => match cutAt n l with
    | (g :: gs) :: r => if e.1 / n = g.1 / n then (e :: g :: gs) :: r else [e] :: (g :: gs) :: r
    | _ => [[e]]

/-- The completions of a read: DESIGN CHOICE (log entry 134): cut at every multiple of the max payload size, which is a read completion
boundary (R197); a zero-length read gets one DW of zero (R205). -/
def State.cplRead (s : State) (reqId tag : Nat) (l : List (Nat × Nat)) : State :=
  if l.isEmpty then s.emit (.cpl reqId tag 0 [0, 0])
  else foldS (cutAt (128 * 2 ^ (s.pcieFn 1).cfg.mps) l) (fun s d => s.emit (.cpl reqId tag 0 (d.map (·.2)))) s

/-! ## Virtual downstream ports and the root port (R199) -/

/-- Kind of a TLP by its first byte: 0 posted, 1 non-posted, 2 completion. -/
def tlpKind (b : List Byte) : Nat :=
  let x := byteAt b 0
  let fmt := x / 32
  let t := x % 32
  if t = 10 ∨ t = 11 then 2
  else if t ≥ 16 then 0
  else if t = 0 then (if fmt % 4 ≥ 2 then 0 else 1)
  else 1

/-- The requester's tag of a request, or of the completion whose byte 10 holds it, with bits 8 and 9 of a 10-bit tag (R197). -/
def tlpTag (b : List Byte) (at_ : Nat) : Nat := byteAt b at_ + 256 * (byteAt b 1 / 8 % 2) + 512 * (byteAt b 1 / 128)

/-- A completion is the last one of its request: it carries no data, or an error, or every byte that is left. -/
def tlpLast (b : List Byte) : Bool :=
  let len := halfAt b 2 % 1024
  let left := halfAt b 6 % 4096
  byteAt b 0 / 64 == 0 || byteAt b 6 / 32 != 0 ||
    decide ((if left = 0 then 4096 else left) + byteAt b 11 % 4 ≤ 4 * (if len = 0 then 1024 else len))

/-- A context of type PCIE is ON. -/
def State.pcieOn (s : State) (x : Nat) : Bool := s.ctxLife x == lifeOn && s.rd (CTX_MODE_TYPE x) == 1

/-- The contexts of virtual port `c`, of type PCIE, are ON and the port is in use; 0 is a pavilion's root port. -/
def State.vdpReady (s : State) (c : Nat) : Bool :=
  if c = 0 then
    !s.stn.handover && (s.ctxByStream 3 0x4000).any s.pcieOn && (s.ctxToStream 3 0x4000).any s.pcieOn
  else s.on (PCIE_VDP_CTX_EN c) && s.pcieOn (s.rd (PCIE_VDP_CTX_UP_CTX c)) && s.pcieOn (s.rd (PCIE_VDP_CTX_DOWN_CTX c))

/-- The port is up as it reports it. -/
def State.vdpUp (s : State) (c : Nat) : Bool := if c = 0 then s.vdpReady 0 else s.bit PCIE_VDP_STATUS_UP (c - 1)

/-- A TLP presented at virtual port `c` (0: the root port) that is not up: non-posted requests are completed with UR,
posted ones discarded and counted (R199). -/
def State.vdpDownTlp (s : State) (b : List Byte) : State :=
  let k := tlpKind b
  if k = 1 then s.cplUr (halfAt b 4) (tlpTag b 6)
  else s.when (k == 0) (fun s => (s.inc PCIE_DISCARD).raise 22 4)

/-- Note a non-posted request sent through a port, or the last completion of one that came back. -/
def State.npNote (s : State) (c : Nat) (b : List Byte) : State :=
  let k := tlpKind b
  if k = 1 then s.modBrg (fun t => { t with np := tmod [] t.np c (· ++ [(halfAt b 4, tlpTag b 6)]) })
  else if k = 2 ∧ tlpLast b then s.modBrg (fun t => { t with np := tmod [] t.np c (·.filter (· != (halfAt b 8, tlpTag b 10))) })
  else s

/-- Every non-posted request without completion of a port is completed with UR. -/
def State.npFail (s : State) (c : Nat) : State :=
  let l := tget [] s.brg.np c
  (foldS l (fun s (e : Nat × Nat) => s.cplUr e.1 e.2) s).modBrg (fun t => { t with np := tdel t.np c })

/-- The virtual port of a stream of point 3: KIND 1 names a chip, KIND 4 the root port. -/
def vdpOfSub (sub : Nat) : Option Nat :=
  if sub / 4096 = 1 then some (sub % 4096) else if sub = 0x4000 then some 0 else none

/-! ## The error FIFO (R211) -/

/-- Show the head entry and the count. -/
def State.showErrf (s : State) : State :=
  let s := s.wr LPB_ERRF_STAT_COUNT s.brg.errf.length
  match s.brg.errf with
  | [] => ((((s.wr LPB_ERRF_ADDR 0).setWord LPB_ERRF_INFO_CHIP.addr 0).wr LPB_ERRF_TS_HI 0).wr LPB_ERRF_TS_LO 0).wr LPB_ERRF_CAUSE_CAUSE 0
  | e :: _ =>
    let s := (s.wr LPB_ERRF_ADDR e.addr).setWord LPB_ERRF_INFO_CHIP.addr 0
    let s := (((s.wr LPB_ERRF_INFO_REQ_ID e.reqId).wr LPB_ERRF_INFO_CTX e.ctx).wr LPB_ERRF_INFO_CHIP e.chip).wr LPB_ERRF_INFO_KIND e.kind
    ((s.wr LPB_ERRF_TS_HI (e.time / 2 ^ 32)).wr LPB_ERRF_TS_LO e.time).wr LPB_ERRF_CAUSE_CAUSE e.cause

/-- Log a far-side failure, with the interrupt of its kind, and for a posted write the AER report of function 0 and the
count that FENCE returns (R211, R212). -/
def State.logFail (s : State) (b : FarBurst) (addr cause time : Nat) : State :=
  let s := if s.brg.errf.length ≥ 16 then (s.incSat LPB_ERRF_STAT_LOST).raise 25 2
    else (s.modBrg (fun t => { t with errf := t.errf ++ [⟨addr, b.chip, b.ctx, b.reqId, b.kind, cause, time⟩] })).showErrf
  if b.kind = 0 then
    let s := (s.incSat LPB_FENCE_FAILS).raise 25 0
    s.when s.crown (·.aerError 1 15 b.hdr)
  else s.raise 25 1

/-- The GPIO pins as the registers set them (R213). -/
def State.gpioOut (s : State) : State :=
  s.when (s.isOn 26) (fun s => s.emit (.gpio (s.rd LSIO_GPIO_OUT) (s.rd LSIO_GPIO_DIR) (s.rd LSIO_GPIO_OD)))

/-! ## Windows and bursts (R204, R206, R207) -/

/-- The enabled windows that a BAR2 offset hits; BAR2 ends at its size (R198). -/
def State.winHits (s : State) (off : Nat) : List Nat :=
  (List.range 8).filter (fun w => s.on (LPB_W_ATTR_EN w) && decide (off < s.bar2Bytes) &&
    (let base := 4096 * s.rd (LPB_W_BASE_OFFSET w)
     base ≤ off && off < base + 2 ^ s.rd (LPB_W_ATTR_SIZE w)))

/-- The far-bus address of a BAR2 offset in a window. -/
def State.farAddr (s : State) (w off : Nat) : Nat :=
  4096 * s.rd (LPB_W_FAR_ADDR w) + (off - 4096 * s.rd (LPB_W_BASE_OFFSET w))

/-- The beats of a request: 16-bit halves in ascending order whose byte enables are not both zero (R204). -/
def toBeats (addr : Nat) (be : List Bool) (data : List Byte) : List (Nat × Nat × Nat) :=
  let h0 := addr / 2
  let n := (addr + be.length + 1) / 2 - h0
  (List.range n).filterMap (fun i =>
    let a := 2 * (h0 + i)
    let en (x : Nat) : Bool := decide (x ≥ addr) && (be[x - addr]?).getD false
    let by_ (x : Nat) : Nat := if x ≥ addr then byteAt data (x - addr) else 0
    let e := (en a).toNat + 2 * (en (a + 1)).toNat
    if e = 0 then none else some (a, e, by_ a + 256 * by_ (a + 1)))

/-- Cut beats into bursts of at most 16 that are contiguous and do not cross a 256-byte boundary (R204). -/
def cutBursts (l : List (Nat × Nat × Nat)) : List (List (Nat × Nat × Nat)) :=
  (l.foldl (fun (a : List (List (Nat × Nat × Nat))) b =>
    match a with
    | [] => [[b]]
    | cur :: r =>
      match cur.head? with
      | some p => if cur.length < 16 && b.1 == p.1 + 2 && b.1 % 256 != 0 then (b :: cur) :: r else [b] :: cur :: r
      | none => [b] :: r) []).reverse.map List.reverse

/-- Beats read ahead in a window are discarded and counted as ghosts (R207). -/
def State.ghosts (s : State) (w : Nat) (l : List (Nat × Nat)) : State :=
  match l.getLast? with
  | none => s
  | some e => (((s.inc LPB_GHOST_CNT l.length).wr LPB_GHOST_ADDR e.1).wr LPB_GHOST_INFO_WIN w).raise 25 3

/-- The prefetched beats of a window are discarded. -/
def State.ghost (s : State) (w : Nat) : State :=
  (s.modBrg (fun t => { t with pf := tdel t.pf w })).ghosts w (tget [] s.brg.pf w)

/-- A write to a window discards what was read ahead in it, and what the reads before it will still read ahead (R207). -/
def State.ghostWrite (s : State) (w : Nat) : State :=
  let mark (b : FarBurst) : FarBurst := if b.win = w ∧ b.want ≠ 0 then { b with stale := true } else b
  (s.ghost w).modBrg (fun t => { t with queue := t.queue.map mark, cur := t.cur.map mark })

/-- A burst's place in the queue: behind all that came before it; of one instant, the lower context is served first (R205). -/
def farInsert (q : List FarBurst) (l : List FarBurst) (at_ ctx : Nat) : List FarBurst :=
  let later := (q.reverse.takeWhile (fun e => e.at_ == at_ && decide (e.ctx > ctx))).reverse
  q.take (q.length - later.length) ++ l ++ later

/-- The bursts of a request (R204). -/
def farBursts (b : FarBurst) : List FarBurst :=
  let bursts := if b.beats.isEmpty then [[]] else cutBursts b.beats
  ((List.range bursts.length).zip bursts).map (fun (e : Nat × List (Nat × Nat × Nat)) =>
    { b with beats := e.2, last := e.1 + 1 == bursts.length, want := b.beats.length - b.ahead })

/-- Entries of a buffer that a posted write takes: one per 256 bytes (R210). -/
def entriesOf (kind beats : Nat) : Nat := if kind = 0 then max 1 ((beats + 127) / 128) else 1

/-- The bridge to chip `chip`, for the host's requests or for those that reach this chip through contexts, has room for one more request of
`beats` beats: 32 posted entries, 16 non-posted; a posted write takes an entry for each 256 bytes of it that have not ended (R210). -/
def State.farRoom (s : State) (chip : Nat) (host : Bool) (kind beats : Nat) : Bool :=
  let l := (s.brg.queue ++ s.brg.cur.toList ++ s.brg.remote.map (·.2)).filter
    (fun b => b.kind != 4 && (b.kind == 0) == (kind == 0) && b.chip == chip && (chip != 0 || (b.ctx == 0) == host))
  let used (no : Nat) : Nat := entriesOf kind ((l.filter (fun b => b.no == no)).map (fun b => b.beats.length)).sum
  decide ((((l.map (·.no)).eraseDups).map used).sum + entriesOf kind beats ≤ (if kind = 0 then 32 else 16))

/-- Completions that wait at this chip's end of a far-bus bridge for the girdle (R210): 16 at most. -/
def State.answersFull (s : State) : Bool := decide ((s.fac.held.filter (fun f => f.point == 4 && decide (f.sub < 4))).length ≥ 16)

/-- The numbers of the posted writes that have not ended (R212). -/
def State.postedOut (s : State) : List Nat :=
  (((s.brg.queue ++ s.brg.cur.toList ++ s.brg.remote.map (·.2)).filter (fun b => b.kind == 0)).map (·.no)).eraseDups

/-- An LPB context that is ON, or draining, ends at this chip's far bus on a chip select (R441). -/
def State.lpbEnd (s : State) (c cs : Nat) : Bool :=
  let l := s.ctxLife c
  decide (c < 256) && (l == lifeOn || l == lifeStopping) && s.rd (CTX_MODE_TYPE c) == 2 &&
    [2, 3].any (fun w => s.on (ptV c w) && s.rd (ptPoint c w) == 4 && s.rd (ptSub c w) == cs)

/-- An LPB context that is ON leads from point 3 to another chip (R206). -/
def State.lpbWay (s : State) (c : Nat) : Bool :=
  s.ctxLife c == lifeOn && s.rd (CTX_MODE_TYPE c) == 2 && s.on (ptV c 0) && s.rd (ptPoint c 0) == 3

end Sys2Proof.Machine
end

