-- ==== Sys2Proof/Machine/IngressOps.lean ====
section
/-!
DEFINITION. Frames that enter at a non-link point: the sieve's queue, the context that takes a frame, the end of a sieve run
and the copies it made (R301–R305, R444).
-/

namespace Sys2Proof.Machine

def State.modFac (s : State) (f : FacetS → FacetS) : State := { s with fac := f s.fac }

/-- The sieve can work: D3 is on and SIEVE is not wedged (R148). -/
def State.sieveUp (s : State) : Bool := s.domOn 3 && !s.on (PG_STATE_WEDGED 12)

/-- The program bound to a point, if the binding and the program are enabled (R301, R308). -/
def State.boundProg (s : State) (point : Nat) : Option Nat :=
  if 3 ≤ point ∧ point ≤ 13 ∧ s.on (SIEVE_BIND_EN point) ∧ s.on (SIEVE_PROG_ACT_EN (s.rd (SIEVE_BIND_PROG point))) then
    some (s.rd (SIEVE_BIND_PROG point))
  else none

/-- OOB counts one. -/
def State.sieveOob (s : State) : State := (s.inc SIEVE_OOB).raise 12 1

/-- COPY_LOST counts one. -/
def State.copyLost (s : State) : State := (s.inc SIEVE_COPY_LOST).raise 12 2

/-- NO_CTX_DISCARD (R444). -/
def State.noStream (s : State) : State := (s.inc SIEVE_NO_CTX).raise 12 3

/-- The lowest-numbered context that is ON and whose ING_A names the stream (R444). -/
def State.ctxOn (s : State) (point sub : Nat) : Option Nat :=
  (List.range 256).find? (fun c => s.ctxLife c == lifeOn && s.on (ptV c 0) && s.rd (ptPoint c 0) == point && s.rd (ptSub c 0) == sub)

/-- Some ingress word of context `c` names the point. -/
def State.ingressAt (s : State) (c point : Nat) : Bool :=
  [0, 1].any (fun w => s.on (ptV c w) && s.rd (ptPoint c w) == point)

/-- An adapter that offers flow control (R130). -/
def flowPoint (p : Nat) : Bool := p == 3 || p == 4 || p == 10 || p == 12

/-- The context that takes a frame which no program sent elsewhere: at Ethernet the default context (R271), else the one its
adapter names (R444). -/
def State.adapterCtx (s : State) (f : SvFrame) : Option Nat :=
  if 6 ≤ f.point ∧ f.point ≤ 9 then
    (if s.on (ETH_CTRL_DEF_EN (f.point - 6)) then some (s.rd (ETH_CTRL_DEF_CTX (f.point - 6))) else none)
  else s.ctxOn f.point f.sub

/-- No context takes the frame. -/
def State.unrouted (s : State) (f : SvFrame) : State :=
  if 6 ≤ f.point ∧ f.point ≤ 9 then s.inc (ETH_NO_TUN (f.point - 6)) else s.noStream

/-- The girdle can take the flows of a frame: always, but for the adapters with flow control (R130). -/
def State.takes (s : State) (f : SvFrame) (l : List Flow) : Bool := !flowPoint f.point || s.hasRoom l

/-- The flows of a frame enter the girdle. -/
def State.deliver (s : State) (f : SvFrame) (l : List Flow) : State := if flowPoint f.point then s.present l else s.storeFlows l false

/-- An adapter holds a frame until the girdle can take it (R130). -/
def State.holdFrame (s : State) (f : SvFrame) : State := s.modFac (fun t => { t with held := t.held ++ [f] })

/-- A frame for which no program runs goes to its context (R301), or is held at its adapter. -/
def State.toContext (s : State) (f : SvFrame) : State :=
  match s.adapterCtx f with
  | none => s.unrouted f
  | some c =>
    let r := s.originFlow f f.data c (s.modeTc c) false
    if r.1.takes f r.2.toList then r.1.deliver f r.2.toList else s.holdFrame f

/-- An earlier frame of the same stream is held. -/
def State.heldBefore (s : State) (f : SvFrame) : Bool := s.fac.held.any (fun g => g.point == f.point && g.sub == f.sub)

/-- A frame enters at a non-link point: behind frames of its stream that are held, it is held too; else it waits for the program bound
there, or goes to its context (R301). -/
def State.ingress (s : State) (f : SvFrame) : State :=
  if s.heldBefore f then s.holdFrame f
  else if (s.boundProg f.point).isSome then s.modFac (fun t => { t with wait := t.wait ++ [f] })
  else s.toContext f

/-- The frame bytes with the run's stamps written (R305); the FCS of a frame so changed is computed again (R272). -/
def SvRun.stamped (r : SvRun) : List Byte :=
  let b := r.stamps.foldl (fun d o => putBytes d o (beBytes 8 r.frame.stamp)) r.frame.data
  if 6 ≤ r.frame.point ∧ r.frame.point ≤ 9 ∧ !r.stamps.isEmpty then fixFcs b else b

/-- The flow of a copy, on its own context at that context's class (R305). -/
def State.copyFlow (f : SvFrame) (data : List Byte) (cm : Bool) (a : State × List Flow) (c : Nat) : State × List Flow :=
  if a.1.ctxLife c ≠ lifeOn then (a.1.copyLost, a.2)
  else let r := a.1.originFlow f data c (a.1.modeTc c) cm; (r.1, a.2 ++ r.2.toList)

/-- The flow of the frame itself after its run: none of a dropped frame or of one that no context takes. -/
def State.ownFlow (s : State) (r : SvRun) : State × List Flow :=
  if r.ovr = some true then (s, [])
  else
    match (match r.tun with | some c => some c | none => s.adapterCtx r.frame) with
    | none => (s.unrouted r.frame, [])
    | some c => let x := s.originFlow r.frame r.stamped c (r.tc.getD (s.modeTc c)) r.cm; (x.1, x.2.toList)

/-- SIEVE_ACTIONS_APPLY (R133, R305): the frame and its copies leave the sieve, each cell stored once for all of them; none while the
girdle cannot take them. -/
def State.svApply (s : State) (r : SvRun) : Option State :=
  let f := r.frame
  let data := if r.ovr = some true then f.data else r.stamped
  let (t, l) := r.copies.foldl (State.copyFlow f data (r.ovr != some true && r.cm)) (s.ownFlow r)
  if t.takes f l then some (t.deliver f l) else none

/-- Ended runs of a point leave in the order in which their frames arrived (R303). -/
def State.svRelease (s : State) (point : Nat) : List Nat → State
  | [] => s
  | e :: l =>
    match tget? s.fac.runs e with
    | none => s.svRelease point l
    | some r =>
      if r.frame.point ≠ point then s.svRelease point l
      else if r.ovr.isNone then s
      else match s.svApply r with
        | none => s
        | some t =>
          (t.modFac (fun u => { u with runs := tdel u.runs e, order := u.order.filter (· != e) })).svRelease point l

/-- The adapters with flow control present again what they hold, each stream in its order: frames whose runs have ended, then the others
(R130).  DESIGN CHOICE (log entry 130): they do so at each cycle boundary. -/
def State.retryHeld (s : State) : State :=
  let s := foldS [3, 4, 10, 12] (fun s p => s.svRelease p s.fac.order) s
  foldS s.fac.held (fun s f => s.ingress f) (s.modFac (fun t => { t with held := [] }))

end Sys2Proof.Machine
end

