-- ==== Sys2Proof/Machine/Girdle.lean ====
section
/-!
DEFINITION. The girdle's own events: frames presented by adapters with flow control, tail fall-back, scrubbing, the ageing
hold, descriptor errors and the capacity reading (`06_girdle.md`).
-/

namespace Sys2Proof.Machine

open Host (Outcome)

/-- FRAME_PRESENTED (R130, R160, R199, R444): an adapter with flow control presents a frame of a stream (ingress point and
SUB).  `firstNs` is the time of the frame's first bit and `stamp` its ingress stamp (R15).  A TLP for a virtual port that is
down is completed with UR or discarded. -/
def execFramePresented (point sub firstNs stamp : Nat) (data : List Byte) (s : State) : Outcome State Fault Refusal :=
  done <| s.when (flowPoint point) fun s =>
    let f : SvFrame := { point := point, sub := sub, ns := firstNs, stamp := stamp, data := data }
    match (if point = 3 then vdpOfSub sub else none) with
    | some c => if s.vdpUp c then (s.npNote c data).ingress f else s.vdpDownTlp data
    | none => s.ingress f

/-- INC_TAIL_FALLBACK (R137): eight cycles after an unreliable frame's discard began without its LS cell, its tail is sent
with SEQ one above the highest seen. -/
def execIncTailFallback (q c id : Nat) (s : State) : Outcome State Fault Refusal :=
  done <|
    match s.findFrame q c id with
    | none => s
    | some f => match f.tail with
      | none => s
      | some t => s.when (t.seq.isNone && cycGe s.cycle (cycAdd t.since 8)) fun s =>
          s.modFrame q c id (fun x => { x with tail := some { t with seq := some ((t.high + 1) % 65536) } })

/-- SCRUB_VISIT (R138): the scrubber visits cell `i` of a queued frame of an unreliable tunnel; a frame whose cell is aged
is discarded whole if nothing of it has left, and otherwise ended by a tail. -/
def execScrubVisit (q c id i : Nat) (s : State) : Outcome State Fault Refusal :=
  done <|
    match s.findFrame q c id with
    | none => s
    | some f => match f.cells[i]? with
      | none => s
      | some x => s.when (f.tail.isNone && s.aged c x.cell) (·.ageFrame q f (!f.started))

/-- AGE_HOLD_END (R139): 32 ms after a time step ageing resumes. -/
def execAgeHoldEnd (s : State) : Outcome State Fault Refusal := done (s.flag GRD_STATUS_AGE_HOLD false)

/-- Discard every cell of a queue. -/
def State.flushQueue (s : State) (q : Nat) : State :=
  let fs := s.queue q
  let s := foldS fs (fun s f =>
    let s := foldS f.cells (fun s x => s.release x.buf) s
    let gone := (f.cells.filter (fun x => x.kept)).map (·.buf)
    (s.modCtx f.ctx (fun t => { t with kept := t.kept.filter (fun k => !(k.queued && gone.contains k.buf)) })).showKept f.ctx) s
  (s.setQueue q []).relinkDue q

/-- Discard every cell of a context's replay list. -/
def State.flushReplay (s : State) (c : Nat) : State :=
  let gone := (s.ctx c).kept.filter (fun k => !k.queued)
  let s := foldS gone (fun s k => s.release k.buf) s
  (s.modCtx c (fun t => { t with kept := t.kept.filter (fun k => k.queued) })).showKept c

/-- DESCRIPTOR_ECC_FLUSH (R128): the queue `i`, or the replay list of context `i`, that holds the descriptor is flushed. -/
def execDescriptorEccFlush (replay : Bool) (i : Nat) (s : State) : Outcome State Fault Refusal :=
  done <| s.when (i < (if replay then 256 else 128)) fun s =>
    ((if replay then s.flushReplay i else s.flushQueue i).inc GRD_QFLUSH).raise 13 6

/-- PERF_UPDATE (R145): a new reading of the replica loop, in M cells/s. -/
def execPerfUpdate (now : Nat) (s : State) : Outcome State Fault Refusal :=
  done <| s.when (s.domOn 3 && now < 65536) fun s =>
    (s.wr GRD_PERF_NOW now).wr GRD_PERF_MIN (min now (s.rd GRD_PERF_MIN))

/-- PERF_READ (R145): the read returns MIN and NOW; MIN restarts from the present NOW. -/
def execPerfRead (p : Path) (s : State) : Outcome State Fault Refusal :=
  done <| s.readOwn p GRD_PERF_NOW.addr (fun s => (s.word GRD_PERF_NOW.addr).toNat)
    (fun s => s.wr GRD_PERF_MIN (if s.rd GRD_PERF_NOW = 0 then s.rd GRD_PERF_MIN else s.rd GRD_PERF_NOW))

end Sys2Proof.Machine
end

