-- ==== Sys2Proof/Machine/FacetOps.lean ====
section
/-!
DEFINITION. Shared operations of the facet engines: their state, crashes and mailbox answers (R293–R300).
-/

namespace Sys2Proof.Machine

def State.eng (s : State) (e : Nat) : EngS := tget {} s.fac.eng e
def State.modEng (s : State) (e : Nat) (f : EngS → EngS) : State := s.modFac (fun t => { t with eng := tmod {} t.eng e f })

/-- STATE codes (*Engine states*). -/
def engOff : Nat := 0
def engLoading : Nat := 1
def engRunning : Nat := 2
def engReloading : Nat := 3
def engHalted : Nat := 4

def State.engState (s : State) (e : Nat) : Nat := s.rd (FAC_ENG_STATE_STATE e)

/-- The engine runs. -/
def State.engUp (s : State) (e : Nat) : Bool := s.engState e == engRunning

/-- Set an engine's state, shown in ENG_STATE and ENG_SUMMARY. -/
def State.setEng (s : State) (e v : Nat) : State :=
  (s.wr (FAC_ENG_STATE_STATE e) v).setBit FAC_ENG_SUMMARY_RUNNING e (v == engRunning)

/-- An engine starts with the running image's firmware. -/
def State.engStart (s : State) (e : Nat) : State :=
  (s.setEng e engRunning).wr (FAC_ENG_INFO_FW_VER e) (s.rd BOOT_IMG_VERSION % 65536)

/-- Set or clear an engine's DEGRADED, shown in ENG_STATE and ENG_SUMMARY. -/
def State.setDegraded (s : State) (e : Nat) (b : Bool) : State :=
  (s.flag (FAC_ENG_STATE_DEGRADED e) b).setBit FAC_ENG_SUMMARY_DEGRADED e b

/-- READY of an engine, with its bit of MBX_READY (R299). -/
def State.setReady (s : State) (e : Nat) (b : Bool) : State :=
  let s := (s.flag (FAC_DB_READY e) b).setBit FAC_MBX_READY_READY e b
  s.when b (·.raise 11 3)

/-- Write the oldest response that waits into OUT while READY is 0, and set READY. -/
def State.writeOut (s : State) (e : Nat) : State :=
  match (s.eng e).resp with
  | [] => s
  | r :: l =>
    if s.on (FAC_DB_READY e) then s
    else
      let s := foldS (List.range 16) (fun s k => s.wr (FAC_MBX_OUT e k) ((r[k]?).getD 0)) s
      (s.modEng e (fun t => { t with resp := l })).setReady e true

/-- A mailbox header. -/
def mbxHeader (cmd tag len status : Nat) : Nat := cmd * 2 ^ 24 + tag * 2 ^ 16 + len * 2 ^ 8 + status

/-- The words of IN. -/
def State.mbxIn (s : State) (e : Nat) : List Nat := (List.range 16).map (fun k => s.rd (FAC_MBX_IN e k))

/-- The engine prepares the answer to the request it holds. -/
def State.answer (s : State) (e : Nat) (status : Nat) (data : List Nat) : State :=
  match (s.eng e).req with
  | none => s
  | some q =>
    let h := (q[0]?).getD 0
    let r := mbxHeader (bitsOf h 31 24) (bitsOf h 23 16) data.length status :: data
    s.modEng e (fun t => { t with req := none, resp := t.resp ++ [r] })

/-- The notice that an engine posts after each restart (R300). -/
def State.notice (s : State) (e : Nat) : State :=
  (s.modEng e (fun t => { t with resp := t.resp ++ [[mbxHeader 0 0 1 0, s.rd (FAC_ENG_INFO_FW_VER e)]] })).writeOut e

/-- The header with which the hub answers a request, given its own, that a crash met (R300). -/
def crashHeader (h : Nat) : Nat := mbxHeader (bitsOf h 31 24) (bitsOf h 23 16) 0 0xFE

/-- The headers of the requests that engine `e` holds, the oldest first: those whose response is not in OUT yet, the one it has taken and
the one in IN.  DEDUCED (log entry 70): each of them is held in the sense of R300; a notice is no request. -/
def State.heldRequests (s : State) (e : Nat) : List Nat :=
  ((s.eng e).resp.filterMap (fun r => r[0]?)).filter (fun h => bitsOf h 31 24 != 0) ++
    ((s.eng e).req.bind (fun q => q[0]?)).toList ++ (if s.on (FAC_DB_BUSY e) then [s.rd (FAC_MBX_IN e 0)] else [])

/-- A crash clears the mailbox: each request held is answered with status 0xFE, and BUSY returns to 0 (R300). -/
def State.clearMailbox (s : State) (e : Nat) : State :=
  let l := (s.heldRequests e).map (fun h => [crashHeader h])
  ((s.flag (FAC_DB_BUSY e) false).modEng e (fun t => { t with req := none, resp := l })).writeOut e

/-- RING (R299): BUSY becomes 1; in the instant of a crash the request counts as held, and the hub answers it (R300). -/
def State.ring (s : State) (e : Nat) : State :=
  if (s.eng e).crashAt = some s.elapsed then
    (s.modEng e (fun t => { t with resp := t.resp ++ [[crashHeader (s.rd (FAC_MBX_IN e 0))]] })).writeOut e
  else s.flag (FAC_DB_BUSY e) true

/-- The ENGINE record: cause, engine and ENG_STATE (R411). -/
def State.engRecord (s : State) (e cause : Nat) : State :=
  s.sysRecord 5 cause (0x0B00 + e) [wIdx (FAC_ENG_STATE_STATE e)]

/-- An engine halts (R294, R296). -/
def State.engHalt (s : State) (e cause : Nat) : State :=
  (((s.setEng e engHalted).wr (FAC_ENG_STATE_LAST_CAUSE e) cause).raise 11 1).engRecord e cause

/-- ENGINE_CRASH (R74, R294, R296): the engine stops, its mailbox is cleared, and it reloads; or, at the LIMIT-th crash of causes
0x01–0x05 within the window, it halts.  Training under a link manager that so restarts fails with cause 0x0B. -/
def State.engCrash (s : State) (e cause : Nat) : State :=
  let s := s.when (s.training e) (fun s => s.trainFail e 0x0B (s.tstate e))
  let s := (s.clearMailbox e).setDegraded e true
  let s := ((s.incSat (FAC_ENG_STATE_CRASHES e)).wr (FAC_ENG_STATE_LAST_CAUSE e) cause).setEng e engReloading
  let s := (s.raise 11 0).engRecord e cause
  let now := s.elapsed / 1000000000
  let win := s.rd FAC_CRASH_LIMIT_WINDOW_S
  let l := if 1 ≤ cause ∧ cause ≤ 5 then ((s.eng e).crashes.filter (fun t => now < t + win)) ++ [now]
    else if cause = 6 then [] else (s.eng e).crashes
  let s := s.modEng e (fun t => { t with crashes := l, crashAt := some s.elapsed })
  if 1 ≤ cause ∧ cause ≤ 5 ∧ l.length ≥ s.rd FAC_CRASH_LIMIT_LIMIT then s.engHalt e cause else s

end Sys2Proof.Machine
end

