-- ==== Sys2Proof/Machine/Facets.lean ====
section
/-!
DEFINITION. Facet engines and their mailboxes (`14_facets_and_sieve.md`).
-/

namespace Sys2Proof.Machine

open Host (Outcome)

/-- An engine that can crash: running, or being loaded again (R296). -/
def State.engAlive (s : State) (e : Nat) : Bool := e < 16 && (s.engState e == engRunning || s.engState e == engReloading)

/-- ENGINE_CRASH (R294): causes 0x02 to 0x05. -/
def execEngineCrash (e cause : Nat) (s : State) : Outcome State Fault Refusal :=
  done <| s.when (s.engAlive e && 2 ≤ cause && cause ≤ 5) (·.engCrash e cause)

/-- ENGINE_WATCHDOG (R295): cause 0x01. -/
def execEngineWatchdog (e : Nat) (s : State) : Outcome State Fault Refusal :=
  done <| s.when (e < 16 && s.engUp e) (·.engCrash e 1)

/-- ENGINE_RELOADED (R294): the segment could be read again (`read`) and has the digest recorded at B4 (`same`), and the engine runs and posts its
notice; or it halts with cause 0x07. -/
def execEngineReloaded (e : Nat) (read same : Bool) (s : State) : Outcome State Fault Refusal :=
  done <| s.when (e < 16 && s.engState e == engReloading) fun s =>
    if read && same then (s.engStart e).notice e else s.engHalt e 7

/-- ENGINE_SERVICES_READY (R294): DEGRADED clears, and RESTORED is set. -/
def execEngineServicesReady (e : Nat) (s : State) : Outcome State Fault Refusal :=
  done <| s.when (e < 16 && s.engUp e && s.on (FAC_ENG_STATE_DEGRADED e)) fun s => (s.setDegraded e false).raise 11 2

/-- The command bit of RESTART (R298). -/
def cmdEngRestart (e : Nat) : Cmd :=
  Cmd.mk (FAC_ENG_CTRL_RESTART e) (fun s => if s.engState e = engLoading ∨ s.engState e = engReloading then 3 else 0) (fun s => s.when (s.engState e == engRunning || s.engState e == engHalted) (·.engCrash e 6))

/-- RESTART (R298): a running or halted engine crashes with cause 0x06, and its crash count is cleared; during a load the write
is rejected with code 0x03. -/
def execEngRestart (p : Path) (e : Nat) (s : State) : Outcome State Fault Refusal :=
  done <| s.when (e < 16) fun s => s.runCmd p (cmdEngRestart e)

/-- The command bit of RING (R299). -/
def cmdMbxRing (e : Nat) : Cmd :=
  Cmd.mk (FAC_DB_RING e) (fun s => if s.on (FAC_DB_BUSY e) then 3 else 0) (·.ring e)

/-- RING (R299): the request is sent; rejected with code 0x03 while BUSY is 1. -/
def execMbxRing (p : Path) (e : Nat) (s : State) : Outcome State Fault Refusal :=
  done <| s.when (e < 16) fun s => s.runCmd p (cmdMbxRing e)

/-- MAILBOX_TAKE (R299): the running engine copies the request, and BUSY returns to 0. -/
def execMailboxTake (e : Nat) (s : State) : Outcome State Fault Refusal :=
  done <| s.when (e < 16 && s.engUp e && s.on (FAC_DB_BUSY e) && (s.eng e).req.isNone) fun s =>
    (s.modEng e (fun t => { t with req := some (s.mbxIn e) })).flag (FAC_DB_BUSY e) false

/-- MAILBOX_RESPONSE (R299): the response goes to OUT, and READY is set; the engine does not write OUT while READY is 1. -/
def execMailboxResponse (e : Nat) (s : State) : Outcome State Fault Refusal := done (s.when (e < 16) (·.writeOut e))

/-- The command bit of ACK (R299). -/
def cmdMbxAck (e : Nat) : Cmd :=
  Cmd.mk (FAC_DB_ACK e) okChk (fun s => s.when (s.on (FAC_DB_READY e)) (fun s => (s.setReady e false).writeOut e))

/-- ACK (R299): clears READY; a response that waited is then written. -/
def execMbxAck (p : Path) (e : Nat) (s : State) : Outcome State Fault Refusal :=
  done <| s.when (e < 16) fun s => s.runCmd p (cmdMbxAck e)

/-- The request that engine `e` has taken, when its command lies in a range. -/
def State.mbxReq (s : State) (e lo hi : Nat) : Option (List Nat) :=
  if e < 16 ∧ s.engUp e then
    (s.eng e).req.filter (fun q => lo ≤ bitsOf ((q[0]?).getD 0) 31 24 && bitsOf ((q[0]?).getD 0) 31 24 ≤ hi)
  else none

/-- LEN of a request. -/
def reqLen (q : List Nat) : Nat := bitsOf ((q[0]?).getD 0) 15 8

/-- PING (*Common commands*): the same words; more than 15 is a bad length. -/
def execMbxPing (e : Nat) (s : State) : Outcome State Fault Refusal :=
  done <| match s.mbxReq e 1 1 with
    | none => s
    | some q => if reqLen q > 15 then s.answer e 1 [] else s.answer e 0 ((q.drop 1).take (reqLen q))

/-- VERSION (*Common commands*): firmware version, rollback index and the segment's SHA-384. -/
def execMbxVersion (e : Nat) (s : State) : Outcome State Fault Refusal :=
  done <| match s.mbxReq e 2 2 with
    | none => s
    | some q =>
      if reqLen q ≠ 0 then s.answer e 1 []
      else
        let d := (tget 0 s.fac.digest e).toNat
        s.answer e 0 ([s.rd (FAC_ENG_INFO_FW_VER e), s.rd BOOT_IMG_INFO_RB_INDEX] ++
          (List.range 12).map (fun k => d / 2 ^ (32 * (11 - k)) % 2 ^ 32))

/-- LOAD (*Common commands*): `m` is the utilisation over the last second and the watchdog margin in µs at its last restart, which the firmware
measures.  DESIGN CHOICE (log entry 146): ENG_INFO.LOAD shows the utilisation that the last LOAD reported. -/
def execMbxLoad (e : Nat) (m : Nat × Nat) (s : State) : Outcome State Fault Refusal :=
  done <| match s.mbxReq e 3 3 with
    | none => s
    | some q => if reqLen q ≠ 0 then s.answer e 1 [] else (s.wr (FAC_ENG_INFO_LOAD e) m.1).answer e 0 [m.1, m.2 % 2 ^ 32]

/-- UNKNOWN_MAILBOX_COMMAND (R300): commands 0x04–0x3F, and 0x00, which only the engine sends, are answered with status 0x02. -/
def execUnknownMailboxCommand (e : Nat) (s : State) : Outcome State Fault Refusal :=
  done <| match s.mbxReq e 0 0x3F with
    | none => s
    | some q => s.when (let c := bitsOf ((q[0]?).getD 0) 31 24; c == 0 || c ≥ 4) (·.answer e 2 [])

/-- DIAGNOSTIC_COMMAND (R300): commands 0x40–0xFF are answered with status 0x02 unless debug is unlocked; `answer` is then what
the command, which the spec does not disclose, gives back: a status and up to 15 words. -/
def execDiagnosticCommand (e : Nat) (answer : List Nat) (s : State) : Outcome State Fault Refusal :=
  done <| match s.mbxReq e 0x40 0xFF with
    | none => s
    | some _ =>
      if s.on SEC_STATUS_DEBUG_UNLOCKED then s.answer e (answer.headD 0 % 256) ((answer.drop 1).take 15) else s.answer e 2 []

end Sys2Proof.Machine
end

