-- ==== Sys2Proof/Machine/Bridges.lean ====
section
/-!
DEFINITION. The PCIe port, the far-bus bridge and the low-speed bridges (`09_pcie_farbus.md`).
-/

namespace Sys2Proof.Machine

open Host (Outcome)

/-! ## PCIe (R197, R199) -/

/-- VDP_CONTEXT_CHANGE (R199): the presence of virtual port `c` (0: a pavilion's root port) follows its contexts; when it
goes, surprise down is reported in its AER and every outstanding non-posted request is completed with UR. -/
def execVdpContextChange (c : Nat) (s : State) : Outcome State Fault Refusal :=
  done <| s.when (c ≤ 14) fun s =>
    if c = 0 then s.when (!s.vdpReady 0) (·.npFail 0)
    else
      let was := s.vdpUp c
      let up := s.vdpReady c
      if was = up then s
      else
        let s := (((s.setBit PCIE_VDP_STATUS_UP (c - 1) up).raise 22 2).emit (.pcieMsg 2 c))
        s.when (!up) (fun s => (s.aerError (16 + c) 5 []).npFail c)

/-- PCIE_RETRAIN (R197): the LTSSM goes to Detect, which is the safe point of the PCIE RWP fields. -/
def State.pcieDetect (s : State) : State :=
  let was := s.on PCIE_STATUS_DL_ACTIVE
  let s := ((s.wr PCIE_STATUS_LTSSM 0).flag PCIE_STATUS_DL_ACTIVE false).applyRwp 22
  s.when was (·.raise 22 1)

/-- The command bit of PcieRetrain. -/
def cmdPcieRetrain : Cmd :=
  Cmd.mk PCIE_CTRL_RETRAIN okChk (·.pcieDetect)

def execPcieRetrain (p : Path) (s : State) : Outcome State Fault Refusal :=
  done <| s.runCmd p cmdPcieRetrain

/-- The host's configuration requests to a function or port: settings, and AER status bits cleared.  DESIGN CHOICE (log entry 135): the table
has no row for them, so they arrive with PCIE_LINK_CHANGE. -/
def State.pcieConfig (s : State) (l : List (Nat × PcieCfg × Nat)) : State :=
  foldS l (fun s e =>
    let f := s.pcieFn e.1
    let cfg := { e.2.1 with mps := min e.2.1.mps 2, mrrs := min e.2.1.mrrs 5 }
    s.modBrg (fun t => { t with fns := tset t.fns e.1 { f with cfg := cfg, unc := f.unc &&& (2 ^ 32 - 1 - e.2.2 % 2 ^ 32) } })) s

/-- PCIE_LINK_CHANGE (R197): the LTSSM reaches the active data-link state with a rate and a width (`rate`), within MAX_GEN and MAX_WIDTH, or enters
another state; entry into Detect (LTSSM 0) is a safe point. -/
def execPcieLinkChange (active : Bool) (ltssm : Nat) (rate : Nat × Nat) (cfg : List (Nat × PcieCfg × Nat)) (s : State) : Outcome State Fault Refusal :=
  done <| s.when (s.domOn 9) fun s =>
    let was := s.on PCIE_STATUS_DL_ACTIVE
    let s := s.when (ltssm == 0) (·.applyRwp 22)
    let s := (s.wr PCIE_STATUS_LTSSM ltssm).wr PCIE_STATUS_GEN (min rate.1 (s.rd PCIE_CTRL_MAX_GEN.inForce))
    let s := (s.wr PCIE_STATUS_WIDTH (min rate.2 (s.rd PCIE_CTRL_MAX_WIDTH.inForce))).flag PCIE_STATUS_DL_ACTIVE active
    ((s.when (active && !was) (·.raise 22 0)).when (was && !active) (·.raise 22 1)).pcieConfig cfg

/-! ## Requests to BAR2 windows (R206–R209) -/

/-- The window of a BAR2 offset, when exactly one enabled window is hit. -/
def State.theWindow (s : State) (off : Nat) : Option Nat :=
  match s.winHits off with
  | [w] => some w
  | _ => none

/-- A burst template for a request to window `w`, or for a request that reached this chip through an LPB context. -/
def State.winBurst (s : State) (w kind reqId tag : Nat) (write : Bool) : FarBurst :=
  { no := 0, kind := kind, chip := s.rd (LPB_W_ATTR_CHIP w), cs := s.rd (LPB_W_ATTR_CS w),
    ctx := if s.rd (LPB_W_ATTR_CHIP w) = 0 then 0 else s.rd (LPB_W_ATTR_CTX w), win := w, reqId := reqId, tag := tag,
    write := write, beats := [] }

/-- The further beats up to the end of the 256-byte page. -/
def aheadBeats (l : List (Nat × Nat × Nat)) : List (Nat × Nat × Nat) :=
  match l.getLast? with
  | none => []
  | some b => (List.range ((256 - b.1 % 256) / 2 - 1)).map (fun i => (b.1 + 2 + 2 * i, 3, 0))

/-- The frame of a request enters its LPB context at point 3 (R206). -/
def State.lpbCarry (s : State) (b : FarBurst) : State :=
  s.ingress { point := 3, sub := s.rd (ptSub b.ctx 0), ns := s.now, stamp := s.now64,
              data := Config.lpbRequest b.kind b.no b.reqId b.beats b.atom }

/-- A request that its context discards is logged with cause 4 if it was posted, and completed with CA otherwise (R214). -/
def State.farLost (s : State) (b : FarBurst) : State :=
  if b.kind = 0 then s.logFail b (((b.beats.head?).map (·.1)).getD 0) 4 s.now64 else s.cplCa b.reqId b.tag

/-- A request goes to another chip through its LPB context.  DESIGN CHOICE (log entry 136): where that context is not of type LPB, not ON, or
does not lead from point 3, the request fails as at a tunnel fault (cause 4). -/
def State.farRemote (s : State) (b : FarBurst) : State :=
  if s.lpbWay b.ctx then ((s.modBrg (fun t => { t with remote := tset t.remote b.no b })).emit (.farReq b)).lpbCarry b
  else s.farLost b

/-- Queue the bursts of a request at this chip's bridge, or send the request to another chip (R205, R206). -/
def State.farQueue (s : State) (b : FarBurst) : State :=
  let b := { b with no := s.brg.nextReq, at_ := s.elapsed, want := b.beats.length - b.ahead }
  let s := s.modBrg (fun t => { t with nextReq := t.nextReq + 1 })
  if b.chip ≠ 0 then s.farRemote b
  else s.modBrg (fun t => { t with queue := farInsert t.queue (farBursts b) b.at_ b.ctx })

/-- A read of a prefetchable window: from the prefetched beats where they hold it all, else with the rest of the page read
ahead (R207). -/
def State.pfRead (s : State) (b : FarBurst) : State :=
  let buf := tget [] s.brg.pf b.win
  if !b.beats.isEmpty && b.beats.all (fun x => buf.any (fun e => e.1 == x.1)) then
    let d := b.beats.map (fun x => (x.1, ((buf.find? (fun e => e.1 == x.1)).map (·.2)).getD 0))
    let rest := buf.filter (fun e => !b.beats.any (fun x => x.1 == e.1))
    (s.modBrg (fun t => { t with pf := if rest.isEmpty then tdel t.pf b.win else tset t.pf b.win rest })).cplRead b.reqId b.tag d
  else
    let more := aheadBeats b.beats
    (s.ghost b.win).farQueue { b with beats := b.beats ++ more, ahead := more.length }

/-- The header of a host's memory write: three DWs (R211). -/
def hostHdr (base addr : Nat) (be : List Bool) (reqId tag : Nat) : List Nat :=
  let o := addr % 4
  let n := (o + be.length + 3) / 4
  let en (w : Nat) : Nat := (List.range 4).foldl (fun a j =>
    let x := 4 * w + j
    if x ≥ o ∧ (be[x - o]?).getD false then a + 2 ^ j else a) 0
  [0x40000000 + 2 ^ 23 * (tag / 512 % 2) + 2 ^ 19 * (tag / 256 % 2) + n % 1024,
   reqId % 65536 * 65536 + tag % 256 * 256 + 16 * (if n > 1 then en (n - 1) else 0) + en 0, (base + addr) / 4 * 4]

/-- A host request that function 0 turns away: a non-posted one is completed with UR, a posted one discarded. -/
def State.hostUr (s : State) (posted : Bool) (reqId tag : Nat) : State := s.when (!posted) (·.cplUr reqId tag)

/-- Function 0 is in D3hot, where it accepts no memory request.  PRESUMED (log entry 137): as PCI Express has it. -/
def State.fn0Sleeps (s : State) : Bool := (s.pcieFn 1).cfg.d3hot

/-- FARBUS_REQUEST (R204–R207, R210, R441): a host request to BAR2 (`tun` none, `addr` the BAR2 offset), or a request that reached
this chip through LPB context `tun` on a chip select (`addr` the far-bus address).  `be` holds the byte enables from `addr`
on.  A full class holds the request back. -/
def execFarbusRequest (write : Bool) (tun : Option (Nat × Nat)) (addr : Nat) (be : List Bool) (data : List Byte)
    (reqId tag : Nat) (s : State) : Outcome State Fault Refusal :=
  done <| s.when (s.domOn 9 && be.length ≤ 4096) fun s =>
    let kind := if write then 0 else 1
    match tun with
    | some (ctx, cs) =>
      let beats := toBeats addr be data
      s.when (s.lpbEnd ctx cs && s.farRoom 0 false kind beats.length) (·.farQueue
        { no := 0, kind := kind, cs := cs, ctx := ctx, win := 0, reqId := reqId, tag := tag, write := write, beats := beats })
    | none =>
      if s.fn0Sleeps then s.hostUr write reqId tag
      else
        let hdr := hostHdr (s.pcieFn 1).cfg.bar2 addr be reqId tag
        match s.theWindow addr with
        | none =>
          if write then
            s.logFail { no := 0, kind := 0, cs := 0, ctx := 0, win := 0, reqId := reqId, tag := tag, write := true, beats := [], hdr := hdr }
              addr 5 s.now64
          else s.cplUr reqId tag
        | some w =>
          let b := { s.winBurst w kind reqId tag write with beats := toBeats (s.farAddr w addr) be data, hdr := hdr }
          s.when (s.farRoom b.chip true kind b.beats.length) fun s =>
            if write then (s.ghostWrite w).farQueue b
            else if s.on (LPB_W_ATTR_PF w) && b.chip == 0 && !b.beats.isEmpty then s.pfRead b
            else s.farQueue b

/-- ATOMIC_OP (R208): `op` 0 FetchAdd, 1 Swap, 2 CAS, of 32 or 64 bits; another width, or a window without ATOMIC, is
completed with UR. -/
def execAtomicOp (tun : Option (Nat × Nat)) (addr op width operand compare reqId tag : Nat) (s : State) :
    Outcome State Fault Refusal :=
  done <| s.when (s.domOn 9) fun s =>
    let bytes := width / 8
    let bs (a : Nat) := toBeats a (List.replicate bytes true) []
    if (width ≠ 32 ∧ width ≠ 64) ∨ op > 2 then s.cplUr reqId tag
    else match tun with
      | some (ctx, cs) =>
        s.when (s.lpbEnd ctx cs && s.farRoom 0 false 2 (bs addr).length) (·.farQueue
          { no := 0, kind := 2, cs := cs, ctx := ctx, win := 0, reqId := reqId, tag := tag, write := false,
            beats := bs addr, atom := some (op, width, operand, compare) })
      | none => match (if s.fn0Sleeps then none else s.theWindow addr) with
        | none => s.cplUr reqId tag
        | some w =>
          if !s.on (LPB_W_ATTR_ATOMIC w) then s.cplUr reqId tag
          else
            let b := { s.winBurst w 2 reqId tag false with beats := bs (s.farAddr w addr), atom := some (op, width, operand, compare) }
            s.when (s.farRoom b.chip true 2 b.beats.length) (fun s => (s.ghostWrite w).farQueue b)

/-- MRDLK (R209): a locked read; a window without LOCK is completed with UR. -/
def execMrdlk (tun : Option (Nat × Nat)) (addr : Nat) (be : List Bool) (reqId tag : Nat) (s : State) :
    Outcome State Fault Refusal :=
  done <| s.when (s.domOn 9) fun s =>
    match tun with
    | some (ctx, cs) =>
      let beats := toBeats addr be []
      s.when (s.lpbEnd ctx cs && s.farRoom 0 false 3 beats.length) (·.farQueue
        { no := 0, kind := 3, cs := cs, ctx := ctx, win := 0, reqId := reqId, tag := tag, write := false, beats := beats })
    | none => match (if s.fn0Sleeps then none else s.theWindow addr) with
      | none => s.cplUr reqId tag
      | some w =>
        if !s.on (LPB_W_ATTR_LOCK w) then s.cplUr reqId tag
        else
          let b := { s.winBurst w 3 reqId tag false with beats := toBeats (s.farAddr w addr) be [] }
          s.when (s.farRoom b.chip true 3 b.beats.length) (·.farQueue b)

/-! ## Transactions (R203, R205, R211) -/

/-- The answer of this chip's far bus to a request that came through a context: it goes back by the context that leads from the chip select
(R441). -/
def State.farAnswer (s : State) (b : FarBurst) (more : Bool) (cause addr : Nat) (d : List Nat) : State :=
  (s.emit (.farAns b.ctx b.tag more cause addr s.now64 d)).ingress
    { point := 4, sub := b.cs, ns := s.now, stamp := s.now64, data := Config.lpbAnswer b.tag more cause addr s.now64 d }

/-- A request of this chip's far bus ends well: a completion to the host, or the answer to the chip that asked. -/
def State.farDone (s : State) (b : FarBurst) (l : List (Nat × Nat)) : State :=
  if b.ctx ≠ 0 then s.farAnswer b false 0 0 (if b.beats.isEmpty ∧ b.kind ≠ 0 then [0, 0] else l.map (·.2))
  else s.when (b.kind != 0) (·.cplRead b.reqId b.tag l)

/-- LOCK_N rises if an MRdLk of the requester holds it low (R209). -/
def State.lockEnd (s : State) (reqId : Nat) : State :=
  s.when (s.brg.lock.any (fun l => l.kind == 3 && l.reqId == reqId)) (·.modBrg (fun t => { t with lock := none }))

/-- LOCK_N rises at the end of an atomic that lowered it (R208). -/
def BridgeS.lockAfter (t : BridgeS) : Option FarBurst := if t.lock.any (fun l => l.kind == 2) then none else t.lock

/-- The burst may be served: LOCK_N is high or low for its requester (R209), and its completion has room (R210). -/
def State.farMay (s : State) (b : FarBurst) : Bool :=
  (match s.brg.lock with | some l => b.reqId == l.reqId && b.ctx == l.ctx | none => true) &&
    (b.kind == 0 || b.kind == 4 || b.ctx == 0 || !s.answersFull)

/-- FARBUS_TRANSACTION (R203, R205, R208, R209): the next burst in arrival order starts on the far bus with its address phases; while LOCK_N
is low only its requester is served.  A zero-length read runs no access and completes with one DW of zero; a write without enabled bytes
runs none either; an Unlock in the order raises LOCK_N. -/
def execFarbusTransaction (s : State) : Outcome State Fault Refusal :=
  done <| s.when (s.isOn 25 && s.brg.cur.isNone) fun s =>
    match s.brg.queue.find? s.farMay with
    | none => s
    | some b =>
      let i := (s.brg.queue.takeWhile (fun x => !s.farMay x)).length
      let s := s.modBrg (fun t => { t with queue := t.queue.eraseIdx i })
      if b.kind = 4 then s.lockEnd b.reqId
      else match b.beats.head? with
        | none => s.farDone b []
        | some x =>
          let lock := if b.kind ≥ 2 ∧ s.brg.lock.isNone then some b else s.brg.lock
          (s.modBrg (fun t => { t with cur := some b, lock := lock })).emit (.farbus b.cs lock.isSome b.write x.1)

/-- The read value of halves, lowest address first. -/
def halvesNat (l : List Nat) : Nat := l.foldr (fun h a => a * 65536 + h % 65536) 0

/-- The halves of a value. -/
def natHalves (n v : Nat) : List Nat := (List.range n).map (fun i => v / 65536 ^ i % 65536)

/-- What an atomic writes back, if anything (R208). -/
def atomicResult (a : Nat × Nat × Nat × Nat) (v : Nat) : Option Nat :=
  let (op, width, x, cmp) := a
  if op = 0 then some ((v + x) % 2 ^ width)
  else if op = 1 then some (x % 2 ^ width)
  else if v = cmp % 2 ^ width then some (x % 2 ^ width) else none

/-- A burst ends in failure (R211): what is left of a read or atomic is dropped, a posted write's other bursts still run, and the failure is
logged here or told to the chip that asked. -/
def State.farFail (s : State) (b : FarBurst) (addr cause : Nat) : State :=
  let s := s.modBrg (fun t =>
    { t with cur := none, got := [], queue := if b.kind = 0 then t.queue else t.queue.filter (fun x => x.no != b.no),
             lock := if b.kind = 2 then t.lockAfter else t.lock })
  if b.ctx ≠ 0 then s.farAnswer b (b.kind == 0 && !b.last) cause addr []
  else (s.logFail b addr cause s.now64).when (b.kind != 0) (·.cplCa b.reqId b.tag)

/-- A read has all its data: what it asked for completes it, what was read ahead is kept, or is a ghost after a write to the window (R207). -/
def State.farRead (s : State) (b : FarBurst) (got : List (Nat × Nat)) : State :=
  let extra := got.drop b.want
  let s := s.modBrg (fun t => { t with got := [] })
  let s := if extra.isEmpty then s else if b.stale then s.ghosts b.win extra
    else s.modBrg (fun t => { t with pf := tset t.pf b.win extra })
  s.farDone b (got.take b.want)

/-- The burst in progress ended well with its read data. -/
def State.farOk (s : State) (b : FarBurst) (data : List Nat) : State :=
  let s := s.modBrg (fun t => { t with cur := none })
  if b.write then
    if b.kind = 2 then
      let l := s.brg.got
      (s.modBrg (fun t => { t with got := [], lock := t.lockAfter })).farDone b l
    else s.when b.last (·.farDone b [])
  else
    let got := s.brg.got ++ ((b.beats.map (·.1)).zip data)
    if !b.last then s.modBrg (fun t => { t with got := got })
    else match b.atom with
      | some a =>
        match atomicResult a (halvesNat (got.map (·.2))) with
        | some v =>
          let w := ((b.beats.map (·.1)).zip (natHalves b.beats.length v)).map (fun (e : Nat × Nat) => (e.1, 3, e.2))
          s.modBrg (fun t => { t with got := got, queue := { b with write := true, beats := w } :: t.queue })
        | none => (s.modBrg (fun t => { t with got := [], lock := t.lockAfter })).farDone b got
      | none => s.farRead b got

/-- The transaction in progress ends, with a failure at an address (cause 1 or 2) or well (cause 0): the beats that ran, then what follows.
One whose context has faulted only ends (R214). -/
def State.farEnd (s : State) (b : FarBurst) (cause addr : Nat) (data : List Nat) : State :=
  let ran := if cause = 0 ∧ !b.cut then b.beats else b.beats.takeWhile (fun x => x.1 ≤ addr)
  let s := s.emit (.farBeats b.cs ran)
  if b.cut then s.modBrg (fun t => { t with cur := none, got := [], lock := if b.kind = 2 then t.lockAfter else t.lock })
  else if cause = 0 then s.farOk b data
  else s.farFail b addr cause

/-- The answer of another chip's far bus (R211, R212): a completion, or a failure to log; the request has ended unless more of it runs.  An
MRdLk that ended leaves that chip's LOCK_N low (R209). -/
def State.farAnswered (s : State) (no : Nat) (b : FarBurst) (more : Bool) (cause addr time : Nat) (data : List Nat) : State :=
  let s := s.when (!more) (·.modBrg (fun t =>
    { t with remote := tdel t.remote no, held := if b.kind = 3 ∧ cause = 0 then tset t.held no b else t.held }))
  if cause = 0 then s.when (b.kind != 0) (·.cplRead b.reqId b.tag ((b.beats.map (·.1)).zip data))
  else (s.logFail b addr cause time).when (b.kind != 0) (·.cplCa b.reqId b.tag)

/-- The lock of another chip's far bus timed out (R209). -/
def State.farLockTimeout (s : State) (no addr time : Nat) : State :=
  match tget? s.brg.held no with
  | some b => ((s.modBrg (fun t => { t with held := tdel t.held no })).raise 25 4).logFail b addr 3 time
  | none => s

/-- FARBUS_TRANSACTION_END (R203, R205, R208, R211): the transaction on this chip's far bus ends, well or with ERR_N at a beat (cause 2),
which only a chip select with READY_EN samples; or an answer of another chip's far bus to request `remote` arrives, which further answers may follow. -/
def execFarbusTransactionEnd (remote : Option (Nat × Bool)) (cause addr time : Nat) (data : List Nat) (s : State) :
    Outcome State Fault Refusal :=
  done <|
    match remote with
    | none => match s.brg.cur with
      | none => s
      | some b =>
        s.when (cause == 0 || (cause == 2 && s.on (LPB_CS_TIM_READY_EN b.cs).inForce && b.beats.any (fun x => x.1 == addr)))
          (·.farEnd b cause addr data)
    | some (no, more) => match tget? s.brg.remote no with
      | none => s.when (cause == 3) (·.farLockTimeout no addr time)
      | some b => s.farAnswered no b (more && b.kind == 0) cause addr time data

/-- READY_TIMEOUT (R203): READY was not seen within RDY_TO at a beat, and the transaction ends with cause 1. -/
def execReadyTimeout (addr : Nat) (s : State) : Outcome State Fault Refusal :=
  done <|
    match s.brg.cur with
    | none => s
    | some b => s.when (s.on (LPB_CS_TIM_READY_EN b.cs).inForce && b.beats.any (fun x => x.1 == addr)) (·.farEnd b 1 addr [])

/-- PREFETCH_EXPIRY (R207): prefetched data unused for 10 µs is discarded. -/
def execPrefetchExpiry (w : Nat) (s : State) : Outcome State Fault Refusal := done (s.ghost w)

/-- An Unlock goes on to the chips whose far bus a locked read of the requester holds, or will hold (R209). -/
def State.unlockRemote (s : State) (reqId : Nat) : State :=
  let l := ((s.brg.remote ++ s.brg.held).map (·.2)).filter (fun b => b.kind == 3 && b.reqId == reqId)
  let s := s.modBrg (fun t => { t with held := t.held.filter (fun e => e.2.reqId != reqId) })
  foldS l (fun s b => let u := { b with kind := 4, beats := [], atom := none }; (s.emit (.farReq u)).lpbCarry u) s

/-- UNLOCK (R209, R214): LOCK_N rises once what the requester sent before the Unlock has run, if its MRdLk holds it; the message goes on to
the remote bridges that its MRdLk reached.  An Unlock after the lock's timeout finds nothing and is ignored. -/
def execUnlock (reqId : Nat) (s : State) : Outcome State Fault Refusal :=
  done <|
    let before := (s.brg.cur.toList ++ s.brg.queue).filter (fun b => b.reqId == reqId)
    let s := match before.getLast? with
      | some b => s.when (before.any (fun x => x.kind == 3) || s.brg.lock.any (fun (l : FarBurst) => l.kind == 3 && l.reqId == reqId))
          (·.farQueue { b with kind := 4, beats := [], ahead := 0, atom := none, write := false, stale := false, cut := false })
      | none => s.lockEnd reqId
    s.unlockRemote reqId

/-- LOCK_TIMEOUT (R209): no Unlock within LOCK_TO; LOCK_N rises and cause 3 is logged, here or at the chip that asked. -/
def execLockTimeout (s : State) : Outcome State Fault Refusal :=
  done <|
    match s.brg.lock with
    | none => s
    | some b => s.when (b.kind == 3) fun s =>
      let s := (s.modBrg (fun t => { t with lock := none })).raise 25 4
      let addr := ((b.beats.head?).map (·.1)).getD 0
      if b.ctx ≠ 0 then s.farAnswer b false 3 addr [] else s.logFail b addr 3 s.now64

/-- When a context faults, the posted writes it held are logged with cause 4 and its other requests completed with CA
(R211, R214); on the chip of the far bus its waiting bursts go, and the transaction in progress ends with its beat. -/
def State.farCtxFault (s : State) (c : Nat) : State :=
  let mine (b : FarBurst) : Bool := b.ctx == c && c != 0
  let l := (s.brg.remote.filter (fun e => mine e.2)).map (·.2)
  let s := s.modBrg (fun t =>
    { t with remote := t.remote.filter (fun e => !mine e.2), held := t.held.filter (fun e => !mine e.2),
             queue := t.queue.filter (fun b => !mine b), cur := t.cur.map (fun b => if mine b then { b with cut := true } else b) })
  foldS l (fun s b => s.farLost b) s

/-! ## FENCE and the error FIFO (R212) -/

/-- The FENCE read completes: FAILS is returned and cleared. -/
def State.fenceAnswer (s : State) (p : Path) (incomplete : Bool) : State :=
  let v := s.rd LPB_FENCE_FAILS + (if incomplete then 2 ^ 31 else 0)
  (s.wr LPB_FENCE_FAILS 0).readBack p LPB_FENCE_FAILS.addr v

/-- FENCE_READ (R212): the read waits for every posted write accepted before it. -/
def execFenceRead (p : Path) (s : State) : Outcome State Fault Refusal :=
  done <| s.gate ⟨p, 0x19044, false, 0⟩ fun s =>
    let l := s.postedOut
    if l.isEmpty then s.fenceAnswer p false else s.modBrg (fun t => { t with fence := t.fence ++ [(p, l)] })

/-- The awaited writes of the first FENCE read have ended, so it completes (R212). -/
def State.fenceComplete (s : State) : State :=
  let open_ := s.postedOut
  match s.brg.fence with
  | [] => s
  | (p, l) :: r => s.when (!l.any (fun n => open_.contains n)) fun s =>
      (s.modBrg (fun t => { t with fence := r })).fenceAnswer p false

/-- The first FENCE read completes after 2 ms (R212). -/
def State.fenceTimeout (s : State) : State :=
  match s.brg.fence with
  | [] => s
  | (p, _) :: r => (s.modBrg (fun t => { t with fence := r })).fenceAnswer p true

/-- ERROR_FIFO_POP (R211): a read of ERRF_TS_LO removes the head entry. -/
def execErrorFifoPop (p : Path) (s : State) : Outcome State Fault Refusal :=
  done <| s.readOwn p LPB_ERRF_TS_LO.addr (fun s => s.rd LPB_ERRF_TS_LO)
    (fun s => (s.modBrg (fun t => { t with errf := t.errf.drop 1 })).showErrf)

/-! ## Low-speed units (R213) -/

/-- A bridge message of a unit goes out: through the context whose ingress is the unit, and as the unit's output. -/
def State.lsioSend (s : State) (kind unit op tag status arg : Nat) (data : List Byte) : State :=
  let b := beBytes 1 (16 * kind + unit) ++ beBytes 1 op ++ beBytes 1 tag ++ beBytes 1 status ++ beBytes 2 data.length ++
    beBytes 2 arg ++ data
  let s := s.emit (.lsio kind unit b)
  s.ingress { point := 4, sub := 4096 * kind + unit, ns := s.now, stamp := s.now64, data := b }

/-- The chip has the unit (*SUB of point 4*). -/
def unitExists (kind unit : Nat) : Bool :=
  ((kind == 1 || kind == 2) && decide (unit < 4)) || (kind == 3 && decide (unit < 2)) || (kind == 4 && unit == 0)

/-- The unit exists, and is enabled. -/
def State.unitOn (s : State) (kind unit : Nat) : Bool :=
  unitExists kind unit && s.isOn 26 && (if kind = 1 then s.on (LSIO_UART_CFG_EN unit).inForce
    else if kind = 2 then s.on (LSIO_I2C_CFG_EN unit).inForce
    else if kind = 3 then s.on (LSIO_QSPI_CFG_EN unit).inForce
    else true)

/-- The outcome that a unit's bus gives: the status of a transfer (0x00 done, 0x01 NACK) and the data read. -/
def State.lsioRun (s : State) (kind unit op tag arg : Nat) (data : List Byte) (status : Nat) (rdata : List Byte) : State :=
  if !unitExists kind unit then s.lsioSend kind unit op tag 4 arg []
  else if !s.unitOn kind unit then s.lsioSend kind unit op tag 3 arg []
  else if kind = 1 ∧ op = 1 then (s.emit (.unitTx kind unit arg data)).lsioSend kind unit op tag 0 arg []
  else if kind = 1 ∧ op = 3 then s.lsioSend kind unit op tag 0 arg rdata
  else if kind = 2 ∧ op = 1 ∧ arg / 32 ≤ data.length then
    (s.emit (.unitTx kind unit arg (data.take (arg / 32)))).lsioSend kind unit op tag (if status ≤ 2 then status else 0) arg rdata
  else if kind = 3 ∧ op = 1 ∧ data.length ≤ 4096 then
    (s.emit (.unitTx kind unit arg data)).lsioSend kind unit op tag 0 arg rdata
  else if kind = 4 ∧ op = 1 ∧ data.length = 4 then
    (s.wr LSIO_GPIO_OUT (beNat data)).gpioOut.lsioSend kind unit op tag 0 arg []
  else if kind = 4 ∧ op = 2 then s.lsioSend kind unit op tag 0 arg (beBytes 4 (s.rd LSIO_GPIO_IN))
  else s.lsioSend kind unit op tag 4 arg []

/-- LSIO_MESSAGE (R213): a request of a bridge is run on its unit and answered by TAG. -/
def execLsioMessage (kind unit op tag arg : Nat) (data : List Byte) (status : Nat) (rdata : List Byte) (s : State) :
    Outcome State Fault Refusal :=
  done <| s.when (s.domOn 9) (·.lsioRun kind unit op tag arg data status rdata)

/-- GPIO_EDGE (R213): an edge on a pin is recorded, and sent as a stamped event where GPIO_EVEN selects it. -/
def execGpioEdge (pin : Nat) (level : Bool) (s : State) : Outcome State Fault Refusal :=
  done <| s.when (pin < 32 && s.isOn 26) fun s =>
    let s := ((s.setBit LSIO_GPIO_IN pin level).eventBit LSIO_GPIO_EDGE pin).raise 26 0
    s.when (s.bit LSIO_GPIO_EVEN pin) (·.lsioSend 4 0 3 0 0 0 (beBytes 1 pin ++ beBytes 1 (bitN level) ++ beBytes 8 s.now64))

/-- UART_RX (R213, R252): received data is sent as unsolicited RX data, and to the USB console routed to the unit. -/
def execUartRx (unit : Nat) (data : List Byte) (s : State) : Outcome State Fault Refusal :=
  done <| s.when (s.unitOn 1 unit && data.length ≤ 256) fun s =>
    let s := (s.raise 26 1).lsioSend 1 unit 2 0 0 0 data
    s.when (s.isOn 29 && s.rd USBD_CTRL_ACM_ROUTE == unit && s.usb.ifaces.testBit 1) (·.emit (.usbIn 3 data))

/-- I2C_STRETCH_TIMEOUT (R213): the clock was held past STRETCH_TO; the transfer ends with status 0x02. -/
def execI2cStretchTimeout (unit tag arg : Nat) (s : State) : Outcome State Fault Refusal :=
  done <| s.when (s.unitOn 2 unit) fun s => (s.raise 26 2).lsioSend 2 unit 1 tag 2 arg []

end Sys2Proof.Machine
end

