-- ==== Sys2Proof/Machine/Display.lean ====
section
/-!
DEFINITION. Display tunnels and the cameo screen (`11_display.md`).
-/

namespace Sys2Proof.Machine

open Host (Outcome)

def State.modDp (s : State) (f : DisplayS → DisplayS) : State := { s with dp := f s.dp }

/-! ## The sink (R235, R236) -/

/-- The body of a timing frame (*Timing frame body*). -/
def timingBody (t : DpTiming) : List Byte :=
  beBytes 2 t.htotal ++ beBytes 2 t.hactive ++ beBytes 2 t.hstart ++ beBytes 2 t.hsync ++ beBytes 2 t.vtotal ++ beBytes 2 t.vactive ++
  beBytes 2 t.vstart ++ beBytes 2 t.vsync ++ beBytes 4 t.pclk ++ beBytes 1 t.format ++ beBytes 1 t.dscBpp ++ beBytes 3 t.vsc ++
  List.replicate 7 0

/-- The timing of a timing frame's body.  DSC_BPP is the low byte of the bits per pixel × 16.  PRESUMED (log entry 141): a low byte under
96 belongs to a value 256 higher, since DSC 1.2a has no less than 6 bits per pixel. -/
def readTiming (dsc : Bool) (b : List Byte) : DpTiming :=
  { htotal := halfAt b 0, hactive := halfAt b 2, hstart := halfAt b 4, hsync := halfAt b 6, vtotal := halfAt b 8,
    vactive := halfAt b 10, vstart := halfAt b 12, vsync := halfAt b 14, pclk := beNat ((b.drop 16).take 4),
    format := byteAt b 20, dscBpp := if dsc then (if byteAt b 21 < 96 then byteAt b 21 + 256 else byteAt b 21) else 0, vsc := beNat ((b.drop 22).take 3) }

/-- The 16-byte header of a display frame (*Display frame header*). -/
def dpHeader (typ flags line frame bytes stamp : Nat) : List Byte :=
  beBytes 1 typ ++ beBytes 1 flags ++ beBytes 2 line ++ beBytes 2 frame ++ beBytes 2 bytes ++ beBytes 8 stamp

/-- A frame of the DPI's stream enters at point 5. -/
def State.dpiFrame (s : State) (ns stamp : Nat) (b : List Byte) : State :=
  s.ingress { point := 5, sub := 0, ns := ns, stamp := stamp, data := b }

/-- The new timing of line 0: a timing frame, the DPI_TIM registers, and TIMING_CHG if it differs. -/
def State.dpiTiming (s : State) (t : DpTiming) (dsc : Bool) (ns stamp : Nat) : State :=
  let diff := s.dp.sentTim != some t
  let fr := (s.dp.frame + 1) % 65536
  let s := s.modDp (fun d => { d with frame := fr, sentTim := some t })
  let s := (((s.wr DPI_TIM_H_HTOTAL t.htotal).wr DPI_TIM_H_HACTIVE t.hactive).wr DPI_TIM_V_VTOTAL t.vtotal).wr DPI_TIM_V_VACTIVE t.vactive
  let s := ((s.wr DPI_PCLK t.pclk).inc DPI_FRAMES_OUT).when diff (·.raise 27 2)
  s.dpiFrame ns stamp (dpHeader 2 (2 * dsc.toNat + 4 * diff.toNat) 0 fr 32 stamp ++ timingBody t)

/-- The stream is one that the DPI carries (*DisplayPort support*): timing, pixel format, and FEC with DSC.  DEDUCED (log entry 157): the
lines of another stream are not sent, since what is not listed is not supported (R234). -/
def dpSupported (t : DpTiming) (dsc fec : Bool) : Bool :=
  decide (t.hactive ≤ 4096) && decide (t.vactive ≤ 4096) && decide (t.pclk ≤ 600000) &&
    (if t.format % 16 = 0 then ([6, 8, 10] : List Nat).contains (t.format / 16)
     else (t.format % 16 == 1 || t.format % 16 == 2) && ([8, 10] : List Nat).contains (t.format / 16)) &&
    (dsc == (t.dscBpp != 0)) && (!dsc || fec)

/-- DPI_LINE_CAPTURE (R236): active line `line` arrives with its stamp (64-bit format) and the time in ns of its first pixel;
`symErr` counts the main link's symbol errors since the last line. -/
def execDpiLineCapture (line : Nat) (t : DpTiming) (dsc fec : Bool) (stamp ns symErr : Nat) (data : List Byte) (s : State) :
    Outcome State Fault Refusal :=
  done <| s.when (s.isOn 27 && s.on DPI_STATUS_TRAINED && dpSupported t dsc fec) fun s =>
    let s := ((s.flag DPI_STATUS_VIDEO true).flag DPI_STATUS_DSC dsc).flag DPI_STATUS_FEC fec
    let s := s.inc DPI_SYM_ERR symErr
    let s := s.when (line == 0) (·.dpiTiming t dsc ns stamp)
    (s.inc DPI_LINES_OUT).dpiFrame ns stamp
      (dpHeader 1 ((line == 0).toNat + 2 * dsc.toNat) line s.dp.frame data.length stamp ++ data)

/-! ## The source (R237–R239) -/

/-- MODE of DPO_STATUS. -/
def dpVideo : Nat := 1
def dpBlack : Nat := 2
def dpCameo : Nat := 3
def dpResync : Nat := 4

def State.dpoMode (s : State) (m : Nat) : State := s.wr DPO_STATUS_MODE m

/-- Payload of a DP lane in kbit/s at a rate code, after 8b/10b coding.  PRESUMED from DisplayPort (log entry 141): the rates of RBR to HBR3;
what FEC takes is not counted. -/
def dpLaneRate (r : Nat) : Nat := if r = 0 then 1296000 else if r = 1 then 2160000 else if r = 2 then 4320000 else 6480000

/-- Bits per pixel of a timing × 16. -/
def bpp16 (t : DpTiming) : Nat :=
  if t.dscBpp ≠ 0 then t.dscBpp else (if t.format % 16 = 2 then 2 else 3) * (t.format / 16) * 16

/-- A timing fits the DPO's trained link (R238): its bits, and FEC for a compressed stream (R234). -/
def State.dpoFits (s : State) (t : DpTiming) : Bool :=
  s.dp.trained && (t.dscBpp == 0 || s.on DPO_STATUS_FEC) && t.pclk * bpp16 t ≤ 16 * 2 ^ s.rd DPO_STATUS_LANES * dpLaneRate (s.rd DPO_STATUS_RATE)

/-- The playout time in quarter nanoseconds of line `n` of a frame whose line 0 has a stamp (R237). -/
def State.playTime (s : State) (t : DpTiming) (stamp0 n : Nat) : Nat :=
  stamp0 + n * t.htotal * 4000000 / max 1 t.pclk + 4000 * s.rd DPO_CTRL_PLAYOUT_US.inForce

/-- The line period in quarter nanoseconds. -/
def dpPeriod (t : DpTiming) : Nat := t.htotal * 4000000 / max 1 t.pclk

/-- The stamp of line 0 of a line's frame. -/
def State.stamp0 (s : State) (l : DpLine) (t : DpTiming) : Nat :=
  if l.frame = s.dp.timFrame then s.dp.timStamp else l.stamp - l.line * t.htotal * 4000000 / max 1 t.pclk

/-- DPO_RESYNC (R238): black, and LOCKED is dropped. -/
def State.dpoResync (s : State) : State :=
  let s := s.when (s.on DPO_STATUS_LOCKED) (fun s => (s.flag DPO_STATUS_LOCKED false).raise 28 2)
  (s.dpoMode dpResync).modDp (fun d => { d with next := none, lockRun := 0, blackFrame := false })

/-- A timing frame arrives (R237, R238). -/
def State.dpoTiming (s : State) (flags frame stamp : Nat) (t : DpTiming) : State :=
  let s := s.modDp (fun d => { d with tim := some t, timFrame := frame, timStamp := stamp,
                                      line0 := d.line0 && !flags.testBit 2 })
  let bad := !s.dpoFits t
  let s := (s.flag DPO_STATUS_FIT_FAIL bad).when (bad && !s.on DPO_STATUS_FIT_FAIL) (·.raise 28 4)
  s.when ((flags.testBit 2 || bad) && (s.rd DPO_STATUS_MODE == dpVideo || s.rd DPO_STATUS_MODE == dpBlack)) (·.dpoResync)

/-- Lines whose playout time has passed while the timing is not running are not kept. -/
def State.dpoPrune (s : State) : State :=
  if s.dp.next.isSome then s
  else match s.dp.tim with
    | none => s
    | some t => s.modDp (fun d => { d with held := d.held.filter (fun l => s.playTime t (s.stamp0 l t) l.line ≥ s.nowQ) })

/-- The FS cell of a line arrives: held, or discarded as late or early (R239, R247). -/
def State.dpoLine (s : State) (c : Cell) : State :=
  let b := c.payload
  let line := halfAt b 2
  let frame := halfAt b 4
  let l : DpLine := { line := line, frame := frame, stamp := stampQ (beNat ((b.drop 8).take 8)), bytes := halfAt b 6,
                      parts := [(0, (b.drop 16).take (if c.ls then c.fill + 1 - 16 else 112))] }
  let s := s.modDp (fun d => { d with cameoDue := false, line0 := d.line0 || (line == 0 && frame == d.timFrame && d.tim.isSome) })
  let rest : DpRx := if c.ls then .none else .drop
  match s.dp.tim with
  | none => s.modDp (fun d => { d with rx := rest })
  | some t =>
    let due := s.playTime t (s.stamp0 l t) line
    if s.nowQ ≥ due || s.dp.next.any (fun p => p.1 == frame && decide (line < p.2)) then (s.inc DPO_LATE_DROP).modDp (fun d => { d with rx := rest })
    else if due > s.nowQ + 8000000 then (s.inc DPO_EARLY_DROP).modDp (fun d => { d with rx := rest })
    else
      s.modDp (fun d => { d with held := d.held.filter (fun x => !(x.frame == frame && x.line == line)) ++ [l],
                                 rx := if c.ls then .none else .line frame line ((c.seq + 1) % 65536) })

/-- A later cell of a line: held at its place, or counted as headless (R239).  Cells missed before it leave a hole. -/
def State.dpoMore (s : State) (c : Cell) : State :=
  let headless (s : State) : State :=
    (s.when (s.dp.rx != .headless) (·.inc DPO_HEADLESS_DROP)).modDp (fun d => { d with rx := if c.ls then .none else .headless })
  match s.dp.rx with
  | .drop => s.modDp (fun d => { d with rx := if c.ls then .none else .drop })
  | .line frame line next =>
    let gap := (c.seq + 65536 - next) % 65536
    match s.dp.held.find? (fun x => x.frame == frame && x.line == line) with
    | none => s.modDp (fun d => { d with rx := if c.ls then .none else .drop })
    | some l =>
      let at_ := ((l.parts.getLast?.map (·.1)).getD 0)
      let off := (if at_ = 0 then 112 else at_ + 128) + 128 * gap
      if off ≥ l.bytes ∧ !c.inc then headless s
      else
        let data := c.payload.take (if c.ls then c.fill + 1 else 128)
        s.modDp (fun d =>
          { d with held := if c.inc then d.held else d.held.map (fun (x : DpLine) =>
                     if x.frame == frame && x.line == line then { x with parts := x.parts ++ [(off, data)] } else x),
                   rx := if c.ls then .none else .line frame line ((c.seq + 1) % 65536) })
  | _ => if c.inc then s.modDp (fun d => { d with rx := .none }) else headless s

/-- DPO_CELL_ARRIVAL (R236–R239): a cell that egress point 5 delivers. -/
def execDpoCellArrival (c : Cell) (s : State) : Outcome State Fault Refusal :=
  done <| s.when (s.isOn 28) fun s =>
    let s := s.dpoPrune
    if c.fs && !c.inc then
      if byteAt c.payload 0 = 2 then
        (s.dpoTiming (byteAt c.payload 1) (halfAt c.payload 4) (stampQ (beNat ((c.payload.drop 8).take 8)))
          (readTiming ((byteAt c.payload 1).testBit 1) (c.payload.drop 16))).modDp (fun d => { d with rx := if c.ls then .none else .drop })
      else s.dpoLine c
    else s.dpoMore c

/-- The bytes sent for a line: those that arrived, the previous line's elsewhere; and whether any was missing. -/
def dpMerge (l : DpLine) (late : List (Nat × List Byte)) (prev : List Byte) : List Byte × Bool :=
  let parts := l.parts ++ late
  let have_ (i : Nat) : Option Byte := (parts.find? (fun e => e.1 ≤ i && i < e.1 + e.2.length)).bind (fun e => e.2[i - e.1]?)
  ((List.range l.bytes).map (fun i => (have_ i).getD ((prev[i]?).getD 0)), (List.range l.bytes).any (fun i => (have_ i).isNone))

/-- The position after a line. -/
def dpAfter (t : DpTiming) (p : Nat × Nat) : Nat × Nat := if p.2 + 1 < t.vactive then (p.1, p.2 + 1) else ((p.1 + 1) % 65536, 0)

/-- The phase error after a line: the DPLL is steered, and LOCKED or a resync follows (R237, R238). -/
def State.dpoPhase (s : State) (t : DpTiming) (phase ppm : Int) : State :=
  let s := s.wrS DPO_PHASE_ERR phase
  let s := s.modDp (fun d => { d with ppm := max (-1000) (min 1000 ppm) })
  if phase.natAbs > dpPeriod t then s.dpoResync
  else
    let n := if phase.natAbs ≤ 400 then s.dp.lockRun + 1 else 0
    let s := s.modDp (fun d => { d with lockRun := min n 64 })
    s.when (decide (n ≥ 64)) (·.flag DPO_STATUS_LOCKED true)

/-- A held line is played (R239). -/
def State.dpoPlay (s : State) (t : DpTiming) (l : DpLine) (phase ppm : Int) (late : List (Nat × List Byte)) : State :=
  let m := dpMerge l late s.dp.last
  let s := (s.inc DPO_LINES_PLAYED).when m.2 (·.inc DPO_CONCEAL_PART)
  let s := s.emit (.dpLine 0 l.line m.1)
  let s := (s.flag DPO_STATUS_DSC (t.dscBpp != 0)).dpoMode dpVideo
  let s := s.modDp (fun d => { d with last := m.1, played := some t, blackFrame := false, next := some (dpAfter t (l.frame, l.line)),
                                      held := d.held.filter (fun x => !(x.frame == l.frame && x.line ≤ l.line)) })
  s.dpoPhase t phase ppm

/-- DPO_LINE_PLAYOUT (R237–R239): the playout time of the next line comes.  DEDUCED (log entry 157): a line of which only headless cells arrived
counts as one for which no cell has arrived, since the DPO cannot tell whose they were.  `phase` is the phase error in quarter
nanoseconds, `ppm` the DPLL's steering after it, and `late` the parts of the line that arrive before their pixels are needed. -/
def execDpoLinePlayout (phase ppm : Int) (late : List (Nat × List Byte)) (s : State) : Outcome State Fault Refusal :=
  done <| s.when (s.isOn 28) fun s =>
    match s.dp.tim with
    | none => s
    | some t =>
      s.when (s.dpoFits t && s.rd DPO_STATUS_MODE != dpCameo) fun s =>
        match s.dp.next with
        | none =>
          -- the timing restarts at a line 0 (R238)
          match s.dp.held.find? (fun l => l.line == 0) with
          | some l => s.dpoPlay t l phase ppm late
          | none => s
        | some p =>
          match s.dp.held.find? (fun l => l.frame == p.1 && l.line == p.2) with
          | some l => s.dpoPlay t l phase ppm late
          | none =>
            let black := s.dp.blackFrame || p.2 == 0
            let s := if black then (s.emit (.dpLine 2 p.2 [])).dpoMode dpBlack
              else (s.inc DPO_CONCEAL_LOST).emit (.dpLine 1 p.2 s.dp.last)
            let s := s.modDp (fun d => { d with next := some (dpAfter t p), blackFrame := black })
            s.dpoPhase t phase ppm

/-- The fit of the latest timing, judged again after training (R238). -/
def State.dpoRefit (s : State) : State :=
  match s.dp.tim with
  | none => s
  | some t =>
    let bad := !s.dpoFits t
    let s := (s.flag DPO_STATUS_FIT_FAIL bad).when (bad && !s.on DPO_STATUS_FIT_FAIL) (·.raise 28 4)
    s.when (bad && (s.rd DPO_STATUS_MODE == dpVideo || s.rd DPO_STATUS_MODE == dpBlack)) (·.dpoResync)

/-- The DPO's main link is trained, or goes idle: the latest timing's fit is judged again. -/
def State.dpoLink (s : State) (up : Bool) (lanes rate : Nat) (fec : Bool) : State :=
  let s := (s.modDp (fun d => { d with trained := up })).flag DPO_STATUS_FEC (up && fec)
  let s := (s.wr DPO_STATUS_LANES (if up then lanes else 0)).wr DPO_STATUS_RATE (if up then rate else 0)
  s.dpoRefit

/-- The DPI receives nothing any more. -/
def State.dpiDown (s : State) : State :=
  (((s.flag DPI_STATUS_TRAINED false).flag DPI_STATUS_VIDEO false).flag DPI_STATUS_FEC false).flag DPI_STATUS_DSC false

/-! ## The cameo screen (R243–R245) -/

/-- 640 × 480 at 60 Hz and 25,175 kHz (R244).  PRESUMED from the VESA mode (log entry 141): its totals, syncs and polarities. -/
def vgaTiming : DpTiming :=
  { htotal := 800, hactive := 640, hstart := 144, hsync := 0x8060, vtotal := 525, vactive := 480, vstart := 35, vsync := 0x8002,
    pclk := 25175, format := 0x80, dscBpp := 0, vsc := 0 }

/-- The cameo screen's timing: the last one played, as RGB at 8 bpc without DSC, if it fits; else 640 × 480 (R244). -/
def State.cameoTiming (s : State) : DpTiming :=
  match s.dp.played with
  | none => vgaTiming
  | some t =>
    let u := { t with format := 0x80, dscBpp := 0, vsc := 0 }
    if s.dpoFits u then u else vgaTiming

/-- The scale: the largest S from 1 to 8 with 320 S ≤ HACTIVE and 96 S ≤ VACTIVE (R244). -/
def cameoScale (t : DpTiming) : Nat :=
  (([8, 7, 6, 5, 4, 3, 2, 1] : List Nat).find? (fun k => 320 * k ≤ t.hactive && 96 * k ≤ t.vactive)).getD 1

/-- Characters 4w to 4w + 3 of the text words; codes 0x00–0x1F and 0x7F–0x9F are drawn as spaces (R244). -/
def cameoChars (ws : List Nat) : List Byte :=
  ws.flatMap (fun w => (List.range 4).map (fun k =>
    let c := w / 256 ^ k % 256
    BitVec.ofNat 8 (if c < 0x20 ∨ (0x7F ≤ c ∧ c ≤ 0x9F) then 0x20 else c)))

/-- The shown copy (R245).  DEDUCED (log entry 157): the staging registers' reset values until a COMMIT. -/
def State.shownCopy (s : State) : Nat × Nat × List Nat := s.dp.shown.getD (0, 0xFFFFFF, List.replicate 40 0x20202020)

/-- Draw a cameo frame (R244). -/
def State.cameoFrame (s : State) : State :=
  let t := s.cameoTiming
  let k := cameoScale t
  let c := s.shownCopy
  s.emit (.cameo t k ((t.hactive - 320 * k) / 2) ((t.vactive - 96 * k) / 2) c.1 c.2.1 (cameoChars c.2.2))

/-- Enter the cameo screen; with DSC the monitor's DSC enable is first written 0 (R244). -/
def State.cameoEnter (s : State) : State :=
  let s := s.when (s.on DPO_STATUS_DSC) (fun s => (s.emit (.auxReq ⟨false, false, 0x160, 1, [0]⟩)).flag DPO_STATUS_DSC false)
  let s := s.when (s.on DPO_STATUS_LOCKED) (fun s => (s.flag DPO_STATUS_LOCKED false).raise 28 2)
  let s := ((s.dpoMode dpCameo).inc DPO_CAMEO_CNT).raise 28 0
  s.modDp (fun d => { d with cameoDue := false, line0 := false, next := none, lockRun := 0, blackFrame := false })

/-- The cameo screen may be left (R243). -/
def State.cameoMayLeave (s : State) : Bool :=
  !s.on DPO_CAMEO_CMD_FORCE && s.dp.line0 && (match s.dp.tim with | some t => s.dpoFits t | none => false)

/-- DPO_FRAME_START (R243–R245): the safe point of the DPO's RWP fields; committed text is shown, and the cameo screen is
entered, goes on or is left. -/
def execDpoFrameStart (s : State) : Outcome State Fault Refusal :=
  done <| s.when (s.isOn 28) fun s =>
    let s := s.applyRwp 28
    let s := s.when s.dp.commit (fun s => s.modDp (fun d =>
      { d with commit := false,
               shown := some (s.rd DPO_CAMEO_BG, s.rd DPO_CAMEO_FG, (List.range 40).map (fun k => s.rd (DPO_CAMEO_TEXT k))) }))
    if s.rd DPO_STATUS_MODE = dpCameo then
      if s.cameoMayLeave then (s.raise 28 1).dpoResync else s.cameoFrame
    else s.when (s.dp.cameoDue || s.on DPO_CAMEO_CMD_FORCE) (fun s => s.cameoEnter.cameoFrame)

/-- CAMEO_TIMEOUT (R243, R247): no line for CAMEO_TO_MS; a write of FORCE = 0 granted in the same instant keeps the cameo screen
from being entered. -/
def execCameoTimeout (s : State) : Outcome State Fault Refusal :=
  done <| s.when (s.isOn 28 && s.rd DPO_STATUS_MODE != dpCameo && s.dp.forceOff != some s.elapsed) fun s =>
    s.modDp (fun d => { d with cameoDue := true })

/-- What a write of FORCE does. -/
def State.cameoForced (s : State) (v : Bool) : State :=
  (s.flag DPO_CAMEO_CMD_FORCE v).when (!v) (fun s => s.modDp (fun d => { d with forceOff := some s.elapsed }))

/-- CAMEO_FORCE (R243): a write of CAMEO_CMD.FORCE. -/
def execCameoForce (p : Path) (v : Bool) (s : State) : Outcome State Fault Refusal :=
  done <| s.writeOwn p DPO_CAMEO_CMD_FORCE.addr v.toNat okChk (·.cameoForced v)

/-- The command bit of CAMEO_COMMIT (R245). -/
def cmdCameoCommit : Cmd :=
  Cmd.mk DPO_CAMEO_CMD_COMMIT okChk (·.modDp (fun d => { d with commit := true }))

/-- CAMEO_COMMIT (R245): the staging copy is shown from the next frame start on. -/
def execCameoCommit (p : Path) (s : State) : Outcome State Fault Refusal :=
  done <| s.runCmd p cmdCameoCommit

/-! ## AUX and HPD (R240–R242) -/

/-- The display tunnel's contexts are ON.  DEDUCED (log entry 157): the crown knows those of its own chip, which feed from the DPI. -/
def State.dpiCtxOn (s : State) : Bool := (s.ctxOn 5 0).isSome

/-- HPD at the DPI follows the three conditions of R241; it holds its level while engine 10 is being reloaded (R242), and a fall
waits for a forwarded request's answer (R247). -/
def State.dpiHpd (s : State) : State :=
  let want := s.isOn 27 && s.dpiCtxOn && s.dp.monHpd && s.dp.mirror.isSome
  if want = s.on DPI_STATUS_HPD_OUT ∨ !s.engUp 10 ∨ (!want && s.dp.fwd.isSome && !s.dp.nack) then s
  else (s.flag DPI_STATUS_HPD_OUT want).emit (.hpd want.toNat)

/-- An answer of the DPI. -/
def State.auxAck (s : State) (d : List Byte) : State := s.emit (.auxAns 0 d)
def State.auxDefer (s : State) : State := (s.inc DPI_AUX_DEFER).emit (.auxAns 2 [])
def State.auxNack (s : State) : State := s.emit (.auxAns 1 [])

/-- DPCD addresses that the DPI answers itself (R240): the link-rate, lane-count and training fields of the capabilities, and
the link configuration and status. -/
def auxOwn (a : Nat) : Bool := a == 1 || a == 2 || a == 3 || a == 14 || (0x100 ≤ a && a ≤ 0x2FF)

/-- A byte of the DPI's own DPCD.  The standard's training and status bytes, of which the spec states no value, are free. -/
def State.ownByte (s : State) (a : Nat) : Nat × State :=
  if a = 1 then ((([0x06, 0x0A, 0x14, 0x1E] : List Nat)[s.rd DPI_CTRL_MAX_RATE.inForce]?).getD 0, s)
  else if a = 2 then (0xC0 + 2 ^ s.rd DPI_CTRL_MAX_LANES.inForce, s)
  else if a = 3 ∨ a = 14 ∨ a ≥ 0x200 then (s.freshVal.1 % 256, s.freshVal.2)
  else (tget 0 s.dp.dpcd a, s)

/-- A byte of the mirror (R240): DPCD 0x000–0x0FF.  With DSC_ADV = 0 no DSC capability is reported; a mirror that is not loaded
gives free values. -/
def State.mirrorByte (s : State) (a : Nat) : Nat × State :=
  match s.dp.mirror with
  | some m => (if 0x60 ≤ a ∧ a ≤ 0x6F ∧ !s.on DPI_CTRL_DSC_ADV.inForce then 0 else byteAt m.1 a, s)
  | none => (s.freshVal.1 % 256, s.freshVal.2)

/-- Read `n` bytes of the DPI's DPCD from address `a`. -/
def State.auxRead (s : State) : Nat → Nat → List Byte × State
  | _, 0 => ([], s)
  | a, n + 1 =>
    let (v, s) := if auxOwn a then s.ownByte a else s.mirrorByte a
    let (l, s) := s.auxRead (a + 1) n
    (BitVec.ofNat 8 v :: l, s)

/-- Write bytes of the DPI's link configuration. -/
def State.auxWrite (s : State) (a : Nat) (d : List Byte) : State :=
  foldS ((List.range d.length).zip d) (fun s (e : Nat × Byte) =>
    s.when (0x100 ≤ a + e.1 && a + e.1 ≤ 0x1FF) (·.modDp (fun t => { t with dpcd := tset t.dpcd (a + e.1) e.2.toNat }))) s

/-- A request that the DPI answers from the EDID mirror. -/
def State.auxEdid (s : State) (r : AuxReq) : Option State :=
  if !r.i2c then none
  else if r.addr = 0x30 ∧ !r.read then some ((s.modDp (fun d => { d with seg := byteAt r.data 0 })).auxAck [])
  else if r.addr = 0x50 ∧ !r.read then some ((s.modDp (fun d => { d with ofs := byteAt r.data 0 })).auxAck [])
  else if r.addr = 0x50 ∧ s.dp.seg < 2 then
    match s.dp.mirror with
    | none => none
    | some m =>
      let a := 256 * s.dp.seg + s.dp.ofs
      some ((s.modDp (fun d => { d with ofs := (d.ofs + r.len) % 256 })).auxAck
        ((List.range r.len).map (fun i => BitVec.ofNat 8 (byteAt m.2 (a + i)))))
  else none

/-- A request that is forwarded (R240, R242). -/
def State.auxForward (s : State) (r : AuxReq) : State :=
  let clear (s : State) : State := s.modDp (fun d => { d with fwd := none, ans := none, nack := false })
  if s.dp.fwd = some r then
    match s.dp.ans with
    | some a => (clear (s.emit (.auxAns a.1 a.2))).dpiHpd
    | none => if s.dp.nack then (clear s.auxNack).dpiHpd else s.auxDefer
  else if s.dp.fwd.isSome && s.dp.ans.isNone && !s.dp.nack then s.auxDefer
  else
    let s := ((clear s).modDp (fun d => { d with fwd := some r })).when (s.engUp 10) (·.emit (.auxReq r))
    s.auxDefer

/-- AUX_REQUEST (R240, R242): a request of the host's source at the DPI. -/
def execAuxRequest (i2c read : Bool) (addr len : Nat) (data : List Byte) (s : State) : Outcome State Fault Refusal :=
  done <| s.when (s.isOn 27 && len ≤ 16) fun s =>
    let r : AuxReq := ⟨i2c, read, addr, len, data⟩
    if i2c then
      match s.auxEdid r with
      | some t => t
      | none => s.auxForward r
    else if addr + max 1 len ≤ 0x300 && (read || (addr ≥ 0x100)) then
      if read then let (l, s) := s.auxRead addr len; s.auxAck l
      else (s.auxWrite addr data).auxAck []
    else s.auxForward r

/-- AUX_ANSWER (R240): the answer is held for the host's next retry; one after the limit finds no request. -/
def execAuxAnswer (status : Nat) (data : List Byte) (s : State) : Outcome State Fault Refusal :=
  done <| s.when (s.dp.fwd.isSome && s.dp.ans.isNone && !s.dp.nack && s.engUp 10) fun s =>
    s.modDp (fun d => { d with ans := some (status % 3, data) })

/-- AUX_FWD_TIMEOUT (R240): no answer within FWD_TO_US; the request is answered AUX_NACK and counted. -/
def execAuxFwdTimeout (s : State) : Outcome State Fault Refusal :=
  done <| s.when (s.dp.fwd.isSome && s.dp.ans.isNone && !s.dp.nack) fun s =>
    ((s.modDp (fun d => { d with nack := true })).inc DPI_AUX_TIMEOUT).raise 27 3 |>.dpiHpd

/-- The monitor's HPD as the DPO sees it. -/
def State.dpoHpd (s : State) (level : Bool) : State :=
  if s.on DPO_STATUS_HPD_IN = level then s
  else ((s.flag DPO_STATUS_HPD_IN level).raise 28 3).emit (.mgmt 0 1 [level.toNat])

/-- MONITOR_HPD_CHANGE (R240–R242): the monitor's HPD changes, or pulses IRQ_HPD: at the DPO's pin, or at the DPI, where a rise
comes with the mirror that the pavilion loaded. -/
def execMonitorHpdChange (atDpi level irq : Bool) (dpcd edid : List Byte) (s : State) : Outcome State Fault Refusal :=
  done <|
    if !atDpi then
      s.when (s.isOn 28 && s.rd DPO_DPALT_STATUS_MUX_SEL == 0) fun s =>
        if irq then s.when (s.on DPO_STATUS_HPD_IN) (·.emit (.mgmt 0 2 [])) else s.dpoHpd level
    else
      s.when (s.domOn 10 && s.engUp 10) fun s =>
        if irq then s.when (s.on DPI_STATUS_HPD_OUT) (·.emit (.hpd 2))
        else
          (s.modDp (fun d => { d with monHpd := level,
                                      mirror := if level && !d.monHpd then some (dpcd.take 256, edid.take 512) else d.mirror })).dpiHpd

/-! ## DP Alternate Mode (R246) -/

/-- The main link and AUX go idle, and MUX_SEL returns to 0b00: ENTERED written 0, or detach. -/
def State.dpaltRelease (s : State) : State :=
  if s.rd DPO_DPALT_STATUS_MUX_SEL = 0 then s
  else
    let s := (((s.wr DPO_DPALT_STATUS_MUX_SEL 0).raise 28 5).emit (.muxSel 0)).modDp (fun d => { d with settled := false })
    (s.dpoLink false 0 0 false).dpoHpd false

/-- What a write of ENTERED does. -/
def State.dpaltEntered (s : State) (v : Bool) : State :=
  let s := s.flag DPO_DPALT_CTRL_ENTERED v
  if !v then s.dpaltRelease
  else
    let m := if s.on SVC_TC_STATUS_ORIENT then 2 else 1
    if s.rd DPO_DPALT_STATUS_MUX_SEL = m then s
    else (((s.wr DPO_DPALT_STATUS_MUX_SEL m).raise 28 5).emit (.muxSel m)).modDp (fun d => { d with settled := false })

/-- DPALT_ENTERED (R246): a write of ENTERED. -/
def execDpaltEntered (p : Path) (v : Bool) (s : State) : Outcome State Fault Refusal :=
  done <| s.writeOwn p DPO_DPALT_CTRL_ENTERED.addr (DPO_DPALT_CTRL_ENTERED.put v.toNat (s.word DPO_DPALT_CTRL_ENTERED.addr)).toNat
    (fun s => if v && !s.on SVC_TC_STATUS_ATTACHED then 3 else 0) (·.dpaltEntered v)

/-- DPALT_SETTLE_END (R246): the DPO responds to the HPD level that the host reports. -/
def execDpaltSettleEnd (s : State) : Outcome State Fault Refusal :=
  done <| s.when (s.rd DPO_DPALT_STATUS_MUX_SEL != 0 && !s.dp.settled) fun s =>
    (s.modDp (fun d => { d with settled := true })).dpoHpd (s.on DPO_DPALT_CTRL_HPD)

/-- The host wrote DPALT_CTRL.HPD. -/
def State.dpaltHpd (s : State) : State := s.when s.dp.settled (fun s => s.dpoHpd (s.on DPO_DPALT_CTRL_HPD))

/-- The command bit of DPALT_IRQ_HPD (R246). -/
def cmdDpaltIrqHpd : Cmd :=
  Cmd.mk DPO_DPALT_CTRL_IRQ_HPD okChk (fun s =>
    s.when (s.dp.settled && s.on DPO_STATUS_HPD_IN) (·.emit (.mgmt 0 2 [])))

/-- DPALT_IRQ_HPD (R246): the partner's IRQ_HPD goes on as the monitor's. -/
def execDpaltIrqHpd (p : Path) (s : State) : Outcome State Fault Refusal :=
  done <| s.runCmd p cmdDpaltIrqHpd

/-- The DPO's function has ended: it sends nothing and holds no line; the timing last played stays for the cameo screen (R244). -/
def State.dpoOff (s : State) : State :=
  let s := (((s.dpoMode 0).flag DPO_STATUS_LOCKED false).flag DPO_STATUS_DSC false).flag DPO_STATUS_FIT_FAIL false
  (s.modDp (fun d => { d with tim := none, line0 := false, rx := .none, held := [], next := none, lockRun := 0, blackFrame := false,
                              cameoDue := false })).dpaltRelease

/-! ## Main links (R234) -/

/-- DP_LINK_TRAINING (R234): phase 0 the source starts training, which is the safe point of the DPI's RWP fields; 1 the link is
trained; 2 it is lost. -/
def execDpLinkTraining (dpo : Bool) (phase lanes rate : Nat) (fec : Bool) (s : State) : Outcome State Fault Refusal :=
  done <| s.when (phase ≤ 2 && s.isOn (if dpo then 28 else 27)) fun s =>
    if dpo then
      if phase = 0 then s
      else
        s.dpoLink (phase == 1) lanes rate fec
    else if phase = 0 then s.applyRwp 27
    else if phase = 1 then
      let s := (s.wr DPI_STATUS_LANES (min lanes (s.rd DPI_CTRL_MAX_LANES.inForce))).wr DPI_STATUS_RATE
        (min rate (s.rd DPI_CTRL_MAX_RATE.inForce))
      ((s.flag DPI_STATUS_TRAINED true).flag DPI_STATUS_FEC fec).raise 27 0
    else
      s.when (s.on DPI_STATUS_TRAINED) fun s =>
        s.dpiDown.raise 27 1

end Sys2Proof.Machine
end

