-- ==== Sys2Proof/Machine/Dma.lean ====
section
/-!
DEFINITION. Address translation and the DMA channels (`10_atu_dma.md`).
-/

namespace Sys2Proof.Machine

open Host (Outcome)

def State.modDma (s : State) (f : DmaS → DmaS) : State := { s with dma := f s.dma }
def State.chan (s : State) (c : Nat) : Chan := tget {} s.dma.chans c
def State.modChan (s : State) (c : Nat) (f : Chan → Chan) : State :=
  s.modDma (fun d => { d with chans := tmod {} d.chans c f })

/-- Bytes of a number in host memory order (little-endian). -/
def le (n v : Nat) : List Byte := leBytes n v

/-! ## The TLB and its invalidation (R219, R220) -/

/-- The set of a page: 128 sets of four ways. -/
def tlbSet (big : Bool) (page : Nat) : Nat := (page / (if big then 2 ^ 21 else 4096)) % 128

/-- Enter an entry; a fifth entry of one set displaces the least recently used one. -/
def State.tlbFill (s : State) (e : TlbE) : State :=
  s.modDma fun d =>
    let l := d.tlb.filter (fun x => !(x.asid == e.asid && x.page == e.page && x.big == e.big))
    let same (x : TlbE) : Bool := tlbSet x.big x.page == tlbSet e.big e.page
    let l := if (l.filter same).length ≥ 4 then (match l.find? same with | some v => l.erase v | none => l) else l
    { d with tlb := l ++ [e] }

/-- An entry becomes the most recently used one. -/
def State.tlbTouch (s : State) (e : TlbE) : State := s.modDma (fun d => { d with tlb := d.tlb.erase e ++ [e] })

/-- An invalidation covers the page at an IOVA. -/
def Inval.covers (i : Inval) (asid page size : Nat) : Bool :=
  i.scope == 0 || (i.asid == asid &&
    (i.scope == 1 || (decide (page < i.addr + 4096 * i.len) && decide (i.addr < page + size))))

/-- The bytes of an entry's page. -/
def TlbE.size (e : TlbE) : Nat := if e.big then 2 ^ 21 else 4096

/-- Probe both page sizes; an entry that a pending invalidation covers is no hit (R232). -/
def State.tlbFind (s : State) (asid iova : Nat) : Option TlbE :=
  s.dma.tlb.find? (fun e => e.asid == asid && e.page == iova / e.size * e.size && !s.dma.inv.any (fun i => i.covers asid e.page e.size))

/-- An epoch issued later than another, modulo 2^16. -/
def epochLater (a b : Nat) : Bool := let d := (a + 65536 - b % 65536) % 65536; 1 ≤ d && d < 32768

/-- A new invalidation takes the next epoch (R220); SCOPE 3 is refused at the write of INV_CTRL. -/
def State.invGo (s : State) : State :=
  let e := (s.rd ATU_INV_EPOCH_ISSUED + 1) % 65536
  let i : Inval := ⟨e, s.rd ATU_INV_CTRL_SCOPE, s.rd ATU_INV_CTRL_ASID,
    s.rd ATU_INV_ADDR_HI_ADDR * 2 ^ 32 + s.rd ATU_INV_ADDR_LO_ADDR * 4096, s.rd ATU_INV_LEN⟩
  (s.wr ATU_INV_EPOCH_ISSUED e).modDma (fun d => { d with inv := d.inv ++ [i] })

/-- ATU and DMA run only on a crown (R215). -/
def crownChk (s : State) : Nat := if s.crown then 0 else 3

/-- The command bit of INV_GO (R220). -/
def cmdInvGo : Cmd :=
  Cmd.mk ATU_INV_CTRL_GO crownChk (·.invGo)

/-- INV_GO (R220). -/
def execInvGo (p : Path) (s : State) : Outcome State Fault Refusal :=
  done <| s.runCmd p cmdInvGo

/-- INVALIDATION_DONE (R220): covered entries are removed, covered walks marked, and DONE reaches the epoch. -/
def execInvalidationDone (s : State) : Outcome State Fault Refusal :=
  done <|
    match s.dma.inv with
    | [] => s
    | i :: r =>
      let s := s.modDma (fun d =>
        { d with inv := r, tlb := d.tlb.filter (fun e => !i.covers e.asid e.page e.size),
                 chans := d.chans.map (fun (e : Nat × Chan) =>
                   (e.1, { e.2 with
                     walk := e.2.walk.map (fun w => if epochLater i.epoch w.epoch then
                       { w with marked := w.marked || i.covers w.asid (w.iova / 4096 * 4096) 4096,
                                markedBig := w.markedBig || i.covers w.asid (w.iova / 2 ^ 21 * 2 ^ 21) (2 ^ 21) } else w),
                     xl := e.2.xl.map (fun x =>
                       { x with stale := x.stale || x.ent.any (fun p => i.covers (s.rd (DMA_CH_CTRL_ASID e.1).inForce) p.1 p.2) }) })) })
      (s.wr ATU_INV_EPOCH_DONE i.epoch).raise 23 2

/-- The translation is usable: the mode of the address space is still the one it was made in (R216). -/
def State.xlOk (s : State) (c : Nat) (x : Xl) : Bool := s.rd (ATU_ROOT_LO_MODE (s.rd (DMA_CH_CTRL_ASID c).inForce)) == x.mode

/-- The conditions of an INV_SYNC read for an epoch hold (R221): DONE has reached it, and no channel still holds a removed entry for a write. -/
def State.syncReady (s : State) (e : Nat) : Bool :=
  !epochLater e (s.rd ATU_INV_EPOCH_DONE) && !s.dma.chans.any (fun c => c.2.xl.any (fun x => x.stale && x.write && s.xlOk c.1 x))

/-- INV_SYNC_READ (R221): the read waits for the epoch issued last. -/
def execInvSyncRead (p : Path) (s : State) : Outcome State Fault Refusal :=
  done <| s.gate ⟨p, 0x17098, false, 0⟩ fun s =>
    let e := s.rd ATU_INV_EPOCH_ISSUED
    if !s.crown then s.readBack p ATU_INV_SYNC_EPOCH.addr 0
    else if s.syncReady e then s.readBack p ATU_INV_SYNC_EPOCH.addr e
    else s.modDma (fun d => { d with sync := d.sync ++ [(p, e)] })

/-- The first INV_SYNC read completes with its epoch, or 2 ms after it arrived with INCOMPLETE = 1 and DONE (R221). -/
def State.invSyncComplete (s : State) (late : Bool) : State :=
  match s.dma.sync with
  | [] => s
  | (p, e) :: r =>
    if s.syncReady e then (s.modDma (fun d => { d with sync := r })).readBack p ATU_INV_SYNC_EPOCH.addr e
    else s.when late (fun s => (s.modDma (fun d => { d with sync := r })).readBack p ATU_INV_SYNC_EPOCH.addr (2 ^ 31 + s.rd ATU_INV_EPOCH_DONE))

/-! ## Channels -/

def State.chAsid (s : State) (c : Nat) : Nat := s.rd (DMA_CH_CTRL_ASID c).inForce
/-- The channel is a ring of the NIC function (R233). -/
def State.isRing (s : State) (c : Nat) : Bool := decide (16 ≤ c) && s.on DMA_NIC_CTRL_EN
/-- The channel's direction; of the NIC's rings, the odd ones are T2H (R233). -/
def State.chT2h (s : State) (c : Nat) : Bool := if s.isRing c then c % 2 == 1 else s.rd (DMA_CH_CTRL_DIR c).inForce == 1
def State.chOn (s : State) (c : Nat) : Bool := s.rd (DMA_CH_STATE_LIFE c) == lifeOn
def State.chSize (s : State) (c : Nat) : Nat := 2 ^ s.rd (DMA_RING_SIZE_LOG2 c).inForce
def State.ringIova (s : State) (c idx : Nat) : Nat :=
  s.rd (DMA_RING_HI_ADDR c).inForce * 2 ^ 32 + s.rd (DMA_RING_LO_ADDR c).inForce * 32 + 32 * idx

/-- The RWP fields of a channel that a safe point of an ON channel applies. -/
def chRwpOn (c : Nat) : List Fld :=
  [DMA_CH_CTRL_ASID c, DMA_CH_CTRL_TC c, DMA_RING_LO_ADDR c, DMA_RING_HI_ADDR c, DMA_RING_SIZE_LOG2 c]

/-- All its RWP fields: DIR changes only while the channel is OFF (*DMA channel registers*). -/
def chRwp (c : Nat) : List Fld := chRwpOn c ++ [DMA_CH_CTRL_DIR c]

/-- Bytes committed in the channel's current descriptor. -/
def State.chCur (s : State) (c : Nat) : Nat :=
  let ch := s.chan c
  (((ch.descs.find? (fun d => d.done < d.len)).orElse (fun _ => ch.descs.getLast?)).map (·.done)).getD 0

/-- CH_STATE.WAIT and CUR as they read. -/
def State.showChan (s : State) (c : Nat) : State :=
  let s := s.wr (DMA_CUR c) (s.chCur c)
  s.flag (DMA_CH_STATE_WAIT c) (s.chOn c && s.rd (DMA_HEAD c) == s.rd (DMA_TAIL c))

/-- The safe point of the channel's RWP fields: no frame in progress. -/
def State.chSafe (s : State) (c : Nat) : State :=
  s.when (!(s.chan c).inFrame && (s.chan c).descs.isEmpty) (·.applyFields (chRwpOn c))

/-- The stream of a channel at point 3: a NIC ring or a DMA channel (R222, R233). -/
def State.chSub (s : State) (c : Nat) : Nat :=
  if s.isRing c then 0x2000 + (c - 16) else 0x3000 + c

/-- The channel that a stream of point 3 names, whether or not the NIC function has it. -/
def chanOfSub (sub : Nat) : Option Nat :=
  if sub / 4096 = 3 then some (sub % 4096) else if sub / 4096 = 2 then some (16 + sub % 4096) else none

/-- A stream of point 3 reaches channel `c`: channels 16–31 as rings while NIC_CTRL.EN is 1, else as channels (R233). -/
def State.reaches (s : State) (sub c : Nat) : Bool := chanOfSub sub == some c && decide (c < 32) && s.chSub c == sub

/-! ## Faults (R228, R229) -/

/-- Show the head record of the register FIFO. -/
def State.showFf (s : State) : State :=
  let s := s.wr ATU_FF_STAT_COUNT s.dma.ff.length
  let r := s.dma.ff.head?.getD []
  foldS (List.range 8) (fun s k => s.wr (ATU_FF_REC k) (leNat ((r.drop (4 * k)).take 4))) s

/-- Write a record: to the host queue, to the register FIFO, or nowhere (R229). -/
def State.faultRecord (s : State) (rec_ : List Byte) : State :=
  let s := s.inc ATU_FAULTS
  let size := 2 ^ s.rd ATU_FQ_CTRL_LOG2
  let t := s.rd ATU_FQ_TAIL_INDEX
  if s.on ATU_FQ_CTRL_EN && (t + 1) % size != s.rd ATU_FQ_HEAD_INDEX % size then
    let base := s.rd ATU_FQ_BASE_HI_ADDR * 2 ^ 32 + s.rd ATU_FQ_BASE_LO_ADDR * 4096
    (s.emit (.hostWrite (base + 32 * t) rec_ false false)).wr ATU_FQ_TAIL_INDEX ((t + 1) % size)
  else if s.dma.ff.length < 16 then (s.modDma (fun d => { d with ff := d.ff ++ [rec_] })).showFf
  else (s.incSat ATU_FF_STAT_LOST).raise 23 1

/-- Halt a channel (R228, R231). -/
def State.halt (s : State) (c cause : Nat) : State :=
  let s := (s.flag (DMA_CH_STATE_HALT c) true).wr (DMA_CH_STATE_CAUSE c) cause
  (s.setBit DMA_HALT_MAP c true).raise 24 1

/-- The cell index of the channel's next cell within its descriptor. -/
def State.cellIndex (s : State) (c : Nat) : Nat := s.chCur c / 128

/-- TRANSLATION_FAULT (R228): the channel halts and a record is written.  Once EN = 0 has been granted there is no record (R232): what can no
longer be written back is dropped. -/
def State.xlFault (s : State) (c iova cause level : Nat) (write desc : Bool) (epoch : Nat) : State :=
  if s.rd (DMA_CH_STATE_LIFE c) = lifeStopping then s.modChan c (fun t => { t with walk := none, wb := if t.stopped then [] else t.wb })
  else
  let pre := s.on (DMA_CH_STATE_PREEMPTED c)
  let idx := match (s.chan c).descs.find? (fun d => d.done < d.len) with
    | some d => d.idx
    | none => s.rd (DMA_HEAD c)
  let idx := if desc then (iova - s.ringIova c 0) / 32 else idx
  let r := le 8 iova ++ le 1 c ++ le 1 (s.chAsid c) ++ le 1 cause ++ le 1 level ++
    le 1 (bitN write + 2 * bitN desc + 4 * bitN pre) ++ le 1 epoch ++ le 2 0 ++
    le 4 (if desc then 0xFFFFFFFF else s.cellIndex c) ++ le 4 idx ++ le 8 s.now64
  let s := (s.modChan c (fun t => { t with walk := none, failed := some (iova, desc) })).halt c cause
  (s.faultRecord r).raise 23 0

/-! ## Translation (R216–R218) -/

/-- Start a walk of a channel's page: the level-1 entry is read. -/
def State.startWalk (s : State) (c iova : Nat) (write desc : Bool) : State :=
  let a := s.chAsid c
  let base := s.rd (ATU_ROOT_HI_BASE a) * 2 ^ 32 + s.rd (ATU_ROOT_LO_BASE a) * 2 ^ 18
  let w : Walk := ⟨a, iova, write, desc, 1, s.rd ATU_INV_EPOCH_ISSUED, false, false⟩
  ((s.inc ATU_TLB_MISS).modChan c (fun t => { t with walk := some w })).emit (.hostRead (base + 8 * (iova / 2 ^ 33)) 8 false)

/-- Keep a translated page for the channel. -/
def State.keepXl (s : State) (c : Nat) (x : Xl) : State :=
  s.modChan c (fun t => { t with xl := t.xl.filter (fun y => !(y.page == x.page && y.write == x.write)) ++ [x] })

/-- The translation that an entry gives for an address (R217). -/
def TlbE.xl (e : TlbE) (iova : Nat) (write : Bool) : Xl :=
  { page := iova / 4096 * 4096, bus := if e.big then e.frame + iova % 2 ^ 21 / 4096 * 4096 else e.frame, write := write, ns := e.ns,
    rlx := e.rlx, ent := some (e.page, e.size) }

/-- The translation of the page that the channel holds. -/
def State.theXl (s : State) (c iova : Nat) (write : Bool) : Option Xl :=
  (s.chan c).xl.find? (fun x => x.page == iova / 4096 * 4096 && x.write == write && s.xlOk c x)

/-- The bus address that it gives. -/
def State.hasXl (s : State) (c iova : Nat) (write : Bool) : Option Nat := (s.theXl c iova write).map (fun x => x.bus + iova % 4096)

/-- Translate one page for a channel: held already, passed through, from the TLB, by a walk that starts, or with a
fault. -/
def State.xlate (s : State) (c iova : Nat) (write desc : Bool) : State :=
  if (s.hasXl c iova write).isSome || (s.chan c).walk.isSome || s.on (DMA_CH_STATE_HALT c) then s
  else
    let a := s.chAsid c
    let mode := s.rd (ATU_ROOT_LO_MODE a)
    if mode = 0 then s.xlFault c iova 5 0 write desc (s.rd ATU_INV_EPOCH_ISSUED)
    else if iova ≥ 2 ^ 48 then s.xlFault c iova 6 0 write desc (s.rd ATU_INV_EPOCH_ISSUED)
    else if mode = 2 then s.keepXl c { page := iova / 4096 * 4096, bus := iova / 4096 * 4096, write := write, mode := 2 }
    else match s.tlbFind a iova with
      | none => s.startWalk c iova write desc
      | some e =>
        let s := (s.inc ATU_TLB_HIT).tlbTouch e
        if (if write then e.w else e.r) then s.keepXl c (e.xl iova write)
        else s.xlFault c iova 2 (if e.big then 2 else 3) write desc (s.rd ATU_INV_EPOCH_ISSUED)

/-- Translate several pages, one after another. -/
def State.xlateAll (s : State) (c : Nat) (write desc : Bool) (l : List Nat) : State :=
  foldS l (fun s a => s.xlate c a write desc) s

/-- The first bytes of the pages that an access touches. -/
def pagesOf (iova len : Nat) : List Nat :=
  if len = 0 then []
  else (List.range ((iova + len - 1) / 4096 - iova / 4096 + 1)).map (fun i => if i = 0 then iova else (iova / 4096 + i) * 4096)

/-- The address of a walk is translated afresh, in the mode that the address space now has (R216). -/
def State.walkAgain (s : State) (c : Nat) (w : Walk) : State :=
  (s.modChan c (fun t => { t with walk := none })).xlate c w.iova w.write w.desc

/-- A walk that was overtaken by a covering invalidation starts again (R220). -/
def State.walkRedo (s : State) (c : Nat) (w : Walk) : State :=
  let t := s.inc ATU_WALK_REDO
  if s.rd (ATU_ROOT_LO_MODE w.asid) = 1 then (t.startWalk c w.iova w.write w.desc).wr ATU_TLB_MISS (s.rd ATU_TLB_MISS) else t.walkAgain c w

/-- An invalidation of a later epoch, done or pending, covers the walk, whose page is of `size` bytes (R220). -/
def State.walkOvertaken (s : State) (w : Walk) (size : Nat) : Bool :=
  w.marked || (decide (size > 4096) && w.markedBig) ||
    s.dma.inv.any (fun i => epochLater i.epoch w.epoch && i.covers w.asid (w.iova / size * size) size)

/-- WALK_READ_COMPLETE (R218, R219): the entry read for a channel's walk is checked; it leads to the next level, a TLB
entry or a fault.  `err` says that the completion had UR, CA or poisoned data. -/
def execWalkReadComplete (c : Nat) (err : Bool) (entry : Nat) (s : State) : Outcome State Fault Refusal :=
  done <|
    match (s.chan c).walk with
    | none => s
    | some w =>
      let fault (cause : Nat) : State := s.xlFault c w.iova cause w.level w.write w.desc w.epoch
      let bit_ (i : Nat) : Bool := entry.testBit i
      let addr := bitsOf entry 47 12 * 4096
      let leaf := w.level == 3 || (w.level == 2 && bit_ 3)
      if s.walkOvertaken w (if w.level == 2 && bit_ 3 then 2 ^ 21 else 4096) then s.walkRedo c w
      else if s.rd (ATU_ROOT_LO_MODE w.asid) ≠ 1 then s.walkAgain c w
      else if err then fault 3
      else if bitsOf entry 63 48 ≠ 0 ∨ bitsOf entry 11 6 ≠ 0 ∨ (w.level = 1 ∧ bit_ 3) ∨
          (w.level = 2 ∧ bit_ 3 ∧ bitsOf entry 20 12 ≠ 0) then fault 4
      else if !bit_ 0 then fault 1
      else if leaf then
        if (if w.write then !bit_ 2 else !bit_ 1) then fault 2
        else
          let big := w.level == 2
          let page := if big then w.iova / 2 ^ 21 * 2 ^ 21 else w.iova / 4096 * 4096
          let e : TlbE := ⟨w.asid, page, big, addr, bit_ 1, bit_ 2, bit_ 4, bit_ 5⟩
          ((s.modChan c (fun t => { t with walk := none })).tlbFill e).keepXl c (e.xl w.iova w.write)
      else
        let idx := if w.level = 1 then w.iova / 2 ^ 21 % 4096 else w.iova / 4096 % 512
        (s.modChan c (fun t => { t with walk := some { w with level := w.level + 1 } })).emit (.hostRead (addr + 8 * idx) 8 false)

/-- WALK_TIMEOUT (R218): no completion within WALK_TO is a read error; a marked walk starts again. -/
def execWalkTimeout (c : Nat) (s : State) : Outcome State Fault Refusal :=
  done <|
    match (s.chan c).walk with
    | none => s
    | some w => if s.walkOvertaken w 4096 then s.walkRedo c w
      else if s.rd (ATU_ROOT_LO_MODE w.asid) ≠ 1 then s.walkAgain c w
      else s.xlFault c w.iova 3 w.level w.write w.desc w.epoch

/-! ## Descriptors (R223) -/

/-- The bytes 0–15 of a descriptor (*Descriptor*). -/
def Desc.bytes (d : Desc) : List Byte :=
  le 8 d.buf ++ le 4 d.len ++ le 4 (bitN d.sof + 2 * bitN d.eof + 4 * bitN d.irq + 8 * bitN d.stamp)

/-- A descriptor with IRQ is written back: DESC_IRQ, and the interrupt of the DMA page or, for a ring, of the NIC function (R233). -/
def State.descIrq (s : State) (c : Nat) : State :=
  let s := s.eventBit DMA_DESC_IRQ c
  if s.isRing c then s.emit (.nicMsix (c - 16)) else s.raise 24 0

/-- HEAD advances past a descriptor. -/
def State.headPast (s : State) (c : Nat) (d : Desc) (r : List (Desc × Nat × Nat)) : State :=
  (s.modChan c (fun t => { t with wb := r })).wr (DMA_HEAD c) ((d.idx + 1) % s.chSize c)

/-- Write back what waits and can be translated: 32 bytes at the descriptor, HEAD advances, and IRQ is reported.  A lost descriptor is passed
over. -/
def State.wbFlush (s : State) (c : Nat) : Nat → State
  | 0 => s
  | fuel + 1 =>
    match (s.chan c).wb with
    | [] => s
    | (d, dn, ts) :: r =>
      if d.lost then ((s.headPast c d r).showChan c).wbFlush c fuel
      else
        let a := s.ringIova c d.idx
        let s := s.xlate c a true true
        match s.theXl c a true with
        | none => s
        | some x =>
          let s := s.emit (.hostWrite (x.bus + a % 4096) (d.bytes ++ le 4 dn ++ le 4 0 ++ le 8 ts) x.ns x.rlx)
          let s := (s.headPast c d r).when d.irq (·.descIrq c)
          (s.showChan c).wbFlush c fuel

/-- Retire a descriptor with its DONE flags ([31:24] as a byte) and, with STAMP, the time of its frame's last cell. -/
def State.retire (s : State) (c : Nat) (d : Desc) (flags ts : Nat) : State :=
  let dn := d.done % 2 ^ 17 + flags * 2 ^ 24
  let s := s.modChan c (fun t => { t with wb := t.wb ++ [(d, dn, if d.stamp then ts else 0)] })
  s.wbFlush c (s.chan c).wb.length

/-- DONE flags: COMPLETE, EOF, ERROR with CODE. -/
def doneFlags (complete eof : Bool) (code : Nat) : Nat :=
  bitN complete + 2 * bitN eof + (if code = 0 then 0 else 4) + 16 * code

/-- The bytes a channel's next cell needs from its held descriptors, and whether they are there. -/
def Chan.left (ch : Chan) : Nat := ch.descs.foldl (fun a d => a + (d.len - d.done)) 0

/-- The pieces of the next `n` bytes in the held buffers: IOVA and length. -/
def pieces : Nat → List Desc → List (Nat × Nat)
  | _, [] => []
  | n, d :: r =>
    let k := min n (d.len - d.done)
    if n = 0 then [] else if k = 0 then pieces n r else (d.buf + d.done, k) :: pieces (n - k) r

/-- Advance the held descriptors by `n` bytes. -/
def advance : Nat → List Desc → List Desc
  | _, [] => []
  | n, d :: r => let k := min n (d.len - d.done); { d with done := d.done + k } :: advance (n - k) r

/-- The length of the next cell of an H2T channel, if its descriptors give one. -/
def Chan.h2tNext (ch : Chan) : Option Nat :=
  let n := ch.left
  if n ≥ 128 then some 128 else if ch.descs.getLast?.any (·.eof) && n > 0 then some n else none

/-- Start the translation of the pages of an H2T channel's next cell (R227). -/
def State.prepH2t (s : State) (c : Nat) : State :=
  match (s.chan c).h2tNext with
  | none => s
  | some n => s.xlateAll c false false ((pieces n (s.chan c).descs).flatMap (fun (e : Nat × Nat) => pagesOf e.1 e.2))

/-- Retire every held descriptor of a frame that is not to be sent, with a code, and skip the rest of it up to EOF. -/
def State.skipFrame (s : State) (c code : Nat) : State :=
  let ds := (s.chan c).descs
  let eof := ds.getLast?.any (·.eof)
  let s := s.modChan c (fun t => { t with descs := [], data := [], xl := [], inFrame := !eof, skip := if eof then none else some code })
  foldS ds (fun s d => s.retire c d (doneFlags true false code) 0) s

/-- The page of a T2H channel's next byte is translated as soon as a descriptor gives it, whether or not the next cell has arrived (R227). -/
def State.prepT2hPage (s : State) (c : Nat) : State :=
  match pieces 1 (s.chan c).descs with
  | (a, _) :: _ => s.xlate c a true false
  | [] => s

/-- The ring has no further descriptor for a T2H frame that has filled some with STAMP: they are written back before the frame's last cell,
with a TS that the manual does not state: a free value (log entry 138). -/
def State.ringShort (s : State) (c : Nat) : State :=
  let l := (s.chan c).full
  if l.isEmpty then s
  else
    let (ts, s) := s.freshVal
    let s := s.modChan c (fun t => { t with full := [] })
    foldS l (fun s d => s.retire c d (doneFlags true false 0) (ts % 2 ^ 64)) s

/-- DESCRIPTOR_FETCH (R223): a channel whose ring holds a further descriptor reads it, once the descriptor's page is
translated; `d` are the 32 bytes read. -/
def execDescriptorFetch (c : Nat) (d : List Byte) (s : State) : Outcome State Fault Refusal :=
  done <| s.when (c < 32 && s.crown && s.isOn 24 && s.chOn c && !s.on (DMA_CH_STATE_HALT c) && d.length == 32) fun s =>
    let s := s.chSafe c
    let ch := s.chan c
    let next := (s.rd (DMA_HEAD c) + ch.full.length + ch.descs.length + ch.wb.length) % s.chSize c
    let wants := ch.wb.isEmpty && (if s.chT2h c then decide (ch.left < 128) else ch.h2tNext.isNone)
    if !wants then s
    else if next = s.rd (DMA_TAIL c) then s.ringShort c
    else
      let a := s.ringIova c next
      let s := s.xlate c a false true
      match s.theXl c a false with
      | none => s
      | some tr =>
        let ctl := leNat ((d.drop 12).take 4)
        let x : Desc := { idx := next, buf := leNat (d.take 8), len := leNat ((d.drop 8).take 4) % 2 ^ 17, sof := ctl.testBit 0,
                          eof := ctl.testBit 1, irq := ctl.testBit 2, stamp := ctl.testBit 3 }
        let s := s.emit (.hostRead (tr.bus + a % 4096) 32 tr.ns)
        match (s.chan c).skip with
        | some code =>
          let s := s.modChan c (fun t => { t with skip := if x.eof then none else some code, inFrame := !x.eof })
          (s.retire c x (doneFlags true false code) 0).showChan c
        | none =>
          let s := s.modChan c (fun t => { t with descs := t.descs ++ [x], xl := [] })
          ((if s.chT2h c then s.prepT2hPage c else s.prepH2t c)).showChan c

/-! ## Cell boundaries (R224–R227) -/

/-- The frames at the heads of the egress queues of point 3 that are bound for a channel, from TC7 down, each with its queue. -/
def State.t2hFrames (s : State) (c : Nat) : List (Nat × QFrame) :=
  ([7, 6, 5, 4, 3, 2, 1, 0].map (24 + ·)).filterMap (fun q =>
    match s.queue q with
    | f :: _ => if s.reaches (s.rd (ptSub f.ctx (2 + f.eg))) c then some (q, f) else none
    | [] => none)

/-- The frame that gives a T2H channel its next cell, with its queue: the frame in progress, or the first whose cells wait. -/
def State.t2hHead (s : State) (c : Nat) : Option (Nat × QFrame) :=
  let l := s.t2hFrames c
  let waits (e : Nat × QFrame) : Bool := !e.2.cells.isEmpty || e.2.tail.any (·.seq.isSome)
  match l.find? (fun e => e.2.started) with
  | some e => if waits e then some e else none
  | none => l.find? waits

/-- Frames at point 3 for a channel that is H2T, not ON or not reached by their stream are discarded and counted (R222), and so is what is
left of a frame that a stop of its channel broke off. -/
def State.dropForeign (s : State) : State :=
  foldS (List.range 8) (fun s tc =>
    match s.queue (24 + tc) with
    | f :: _ => match chanOfSub (s.rd (ptSub f.ctx (2 + f.eg))) with
      | some c => s.when (c < 32 && (!(s.reaches (s.rd (ptSub f.ctx (2 + f.eg))) c && s.chOn c && s.chT2h c) ||
          (s.chan c).cut == some (f.ctx, f.id))) (fun s =>
          ((s.discardFrame (24 + tc) f 3).inc (DMA_CH_DROP c)).raise 24 2)
      | none => s
    | [] => s) s

/-- The bytes of the cell at the head for a T2H channel. -/
def headBytes (f : QFrame) : Nat := match f.cells with | x :: _ => if x.cell.inc then 0 else x.cell.fill + 1 | [] => 0

/-- The channel takes part in an engine's choice: a cell waits for it and it holds a descriptor. -/
def State.candidate (s : State) (c : Nat) (t2h : Bool) : Bool :=
  s.chOn c && s.chT2h c == t2h && !s.on (DMA_CH_STATE_HALT c) && (s.chan c).wb.isEmpty && !(s.chan c).descs.isEmpty &&
    (if t2h then (s.t2hHead c).isSome else true)

/-- The pieces of the next cell of a channel, when its descriptors suffice. -/
def State.nextPieces (s : State) (c : Nat) (t2h : Bool) : Option (List (Nat × Nat)) :=
  let ch := s.chan c
  if t2h then
    match s.t2hHead c with
    | none => none
    | some (_, f) => if headBytes f ≤ ch.left then some (pieces (headBytes f) ch.descs) else none
  else ch.h2tNext.map (fun n => pieces n ch.descs)

/-- A candidate's cell is ready (R226): its pages are translated; and an H2T channel's adapter does not hold an earlier frame of its stream for
the girdle (R130). -/
def State.cellReady (s : State) (c : Nat) (t2h : Bool) : Bool :=
  match s.nextPieces c t2h with
  | none => false
  | some ps =>
    ps.all (fun (e : Nat × Nat) => (pagesOf e.1 e.2).all (fun a => (s.hasXl c a t2h).isSome)) &&
      (t2h || !s.fac.held.any (fun f => f.point == 3 && f.sub == s.chSub c))

/-- The channel an engine serves: highest class, then in turn after the one served last (R226). -/
def State.pick (s : State) (t2h : Bool) (ready : List Nat) : Option Nat :=
  let last := if t2h then s.dma.lastT else s.dma.lastH
  let top := ready.foldl (fun a c => max a (s.rd (DMA_CH_CTRL_TC c).inForce)) 0
  let l := ready.filter (fun c => s.rd (DMA_CH_CTRL_TC c).inForce == top)
  match l.find? (fun c => c > last) with
  | some c => some c
  | none => l.head?

/-- Write bytes to the pieces of a cell, split at 4 KiB boundaries (R204, R225). -/
def State.writePieces (s : State) (c : Nat) : List (Nat × Nat) → List Byte → State
  | [], _ => s
  | (a, n) :: r, b =>
    let s := foldS (pagesOf a n) (fun s x =>
      let e := min (a + n) ((x / 4096 + 1) * 4096)
      let w := s.theXl c x true
      s.emit (.hostWrite ((s.hasXl c x true).getD 0) ((b.drop (x - a)).take (e - x)) (w.any (·.ns)) (w.any (·.rlx)))) s
    s.writePieces c r (b.drop n)

/-- Commit a T2H cell (R224, R225). -/
def State.commitT2h (s : State) (c q : Nat) : State :=
  let ps := (s.nextPieces c true).getD []
  match s.takeCell q [] (fun s _ _ => (s, true)) with
  | (s, none) => s
  | (s, some x) =>
    let s := s.countOut x
    let n := if x.cell.inc then 0 else x.cell.fill + 1
    let s := (s.writePieces c ps x.cell.payload).inc (DMA_CH_CELLS c)
    let ds := advance n (s.chan c).descs
    let full := ds.takeWhile (fun d => d.done ≥ d.len)
    let rest := ds.drop full.length
    if x.cell.ls then
      -- the last descriptor of the frame is written back with EOF; one that is full already is that descriptor
      let used := if rest.head?.any (fun d => d.done > 0) || full.isEmpty then full ++ rest.take 1 else full
      let used := (s.chan c).full ++ used
      let s := s.modChan c (fun t => { t with descs := ds.drop (used.length - t.full.length), full := [], xl := [], inFrame := false })
      let code := if x.cell.inc then 3 else 0
      let ts := s.now64
      let s := foldS ((List.range used.length).zip used) (fun s (e : Nat × Desc) =>
        let l := !e.2.lost && (used.drop (e.1 + 1)).all (·.lost)
        s.retire c e.2 (doneFlags true l (if l then code else 0)) ts) s
      (s.inc (DMA_CH_FRAMES c)).showChan c
    else
      let all := (s.chan c).full ++ full
      let out := all.takeWhile (fun d => !d.stamp)
      let s := s.modChan c (fun t => { t with descs := rest, full := all.drop out.length, xl := [], inFrame := true })
      (foldS out (fun s d => s.retire c d (doneFlags true false 0) 0) s).showChan c

/-- Commit an H2T cell: its bytes are stored; the last one queues the frame (R224). -/
def State.commitH2t (s : State) (c : Nat) (bytes : List Byte) : State :=
  let n := (s.chan c).h2tNext.getD 0
  let b := (bytes ++ List.replicate n 0).take n
  let ps := pieces n (s.chan c).descs
  let s := foldS ps (fun s (e : Nat × Nat) => foldS (pagesOf e.1 e.2) (fun s a =>
    s.emit (.hostRead ((s.hasXl c a false).getD 0) (min (e.1 + e.2) ((a / 4096 + 1) * 4096) - a) ((s.theXl c a false).any (·.ns)))) s) s
  let s := s.modChan c (fun t => { t with descs := advance n t.descs, data := t.data ++ b, xl := [], inFrame := true })
  let s := s.inc (DMA_CH_CELLS c)
  let ch := s.chan c
  if ch.data.length > 16384 then (s.skipFrame c 1).showChan c
  else if ch.left = 0 && ch.descs.getLast?.any (·.eof) then
    let s := s.ingress { point := 3, sub := s.chSub c, ns := s.now, stamp := s.now64, data := ch.data }
    let s := s.modChan c (fun t => { t with descs := [], data := [], inFrame := false })
    let ds := ch.descs
    let ts := s.now64
    let s := foldS ds (fun s d => s.retire c d (doneFlags true false 0) ts) s
    ((s.inc (DMA_CH_FRAMES c)).showChan c).chSafe c
  else (s.prepH2t c).showChan c

/-- Start the translation of the pages of a T2H channel's next cell (R227). -/
def State.prepT2h (s : State) (c : Nat) : State :=
  match s.nextPieces c true with
  | some ps => s.xlateAll c true false (ps.flatMap (fun (e : Nat × Nat) => pagesOf e.1 e.2))
  | none => s.prepT2hPage c

/-- A halted channel runs again. -/
def State.unhalt (s : State) (c : Nat) : State :=
  ((s.flag (DMA_CH_STATE_HALT c) false).setBit DMA_HALT_MAP c false).modChan c (fun t => { t with failed := none })

/-- The stop of a channel ends once nothing of it waits to be written back: it is OFF, or starts again where EN_PENDING was set (R38). -/
def State.chStopEnd (s : State) (c : Nat) : State :=
  s.when ((s.chan c).stopped && (s.chan c).wb.isEmpty) fun s =>
    let s := ((s.modChan c (fun t => { t with stopped := false, walk := none, xl := [] })).flag (DMA_CH_STATE_PREEMPTED c) false).applyFields (chRwp c)
    let s := if s.on (DMA_CH_STATE_EN_PENDING c) then (s.flag (DMA_CH_STATE_EN_PENDING c) false).wr (DMA_CH_STATE_LIFE c) lifeStarting
      else s.wr (DMA_CH_STATE_LIFE c) lifeOff
    s.showChan c

/-- The stop of a channel at its safe point (R231): stored cells of an unfinished H2T frame are discarded, and the current
descriptor is written back with the bytes committed; the rest of a T2H frame in progress is not delivered (R222).  What could not be
written back before is written back first. -/
def State.chStop (s : State) (c : Nat) : State :=
  let s := s.wr (DMA_CH_STATE_LIFE c) lifeStopping
  if (s.chan c).stopped then (s.wbFlush c (s.chan c).wb.length).chStopEnd c
  else
    let ds := (s.chan c).descs
    let fs := (s.chan c).full
    let h2t := !s.chT2h c
    let cut := if h2t then none else ((s.t2hFrames c).find? (fun e => e.2.started)).map (fun e => (e.2.ctx, e.2.id))
    let s := (s.unhalt c).modChan c (fun t =>
      { t with descs := [], full := [], data := [], xl := [], walk := none, inFrame := false, skip := none, cut := cut, stopped := true })
    let s := foldS fs (fun s d => s.retire c d (doneFlags true false 0) 0) s
    let s := foldS (ds.filter (fun d => d.done > 0 || (h2t && d.sof))) (fun s d => s.retire c d (doneFlags false false 0) 0) s
    (s.wbFlush c (s.chan c).wb.length).chStopEnd c

/-- Channels that stop do so at a cell boundary of their direction. -/
def State.chStops (s : State) (t2h : Bool) : State :=
  foldS ((List.range 32).filter (fun c => s.rd (DMA_CH_STATE_LIFE c) == lifeStopping && s.chT2h c == t2h)) (fun s c => s.chStop c) s

/-- DMA_CELL_BOUNDARY (R226, R227): the H2T or T2H engine commits one cell of the channel it chooses; `bytes` are those read
from the host for an H2T cell.  Candidates that are passed over are pre-empted.  Frames that no channel takes are discarded whether or not
the engines run. -/
def execDmaCellBoundary (t2h : Bool) (bytes : List Byte) (s : State) : Outcome State Fault Refusal :=
  done <| (s.when (s.crown && t2h) (·.dropForeign)).when (s.crown && s.isOn 24 && !s.on (PG_STATE_WEDGED 24)) fun s =>
    let s := s.chStops t2h
    let s := foldS (List.range 32) (fun s c => (s.chSafe c).when (!(s.chan c).wb.isEmpty) (·.wbFlush c (s.chan c).wb.length)) s
    let cands := (List.range 32).filter (fun c => s.candidate c t2h)
    let s := foldS cands (fun s c => match s.nextPieces c t2h with
      | some ps => s.xlateAll c t2h false (ps.flatMap (fun (e : Nat × Nat) => pagesOf e.1 e.2))
      | none => s) s
    let served := s.pick t2h (cands.filter (fun c => s.candidate c t2h && s.cellReady c t2h))
    let s := foldS ((List.range 32).filter (fun c => s.chT2h c == t2h)) (fun s x =>
      s.flag (DMA_CH_STATE_PREEMPTED x) (served.any (· != x) && s.candidate x t2h)) s
    match served with
    | none => s
    | some c =>
      let s := s.modDma (fun d => if t2h then { d with lastT := c } else { d with lastH := c })
      if t2h then match s.t2hHead c with
        | some (q, _) => (s.commitT2h c q).prepT2h c
        | none => s
      else s.commitH2t c bytes

/-! ## Software commands -/

/-- Why a write to a channel word through function 0 is rejected (R215, R233). -/
def chanChk (p : Path) (c : Nat) (s : State) : Nat :=
  if !s.crown then 3 else if s.isRing c ∧ p = .pcie then 3 else 0

/-- DMA_TAIL_WRITE (R223, R233): a value of 2^LOG2 or more is rejected; reserved bits are ignored (R9).  TAIL in BAR0 of the NIC function
belongs to a ring. -/
def execDmaTailWrite (p : Path) (r : TailReg) (v : Nat) (s : State) : Outcome State Fault Refusal :=
  let c := r.chan
  done <| s.when (c < 32) fun s =>
    s.writeOwn p (DMA_TAIL c).addr v
      (fun s => if (if r.nic then !(s.crown && s.isRing c && p == .pcie) else chanChk p c s != 0) then 3
        else if v % 65536 ≥ s.chSize c then 1 else 0)
      (fun s => (s.wr (DMA_TAIL c) (v % 65536)).showChan c)

/-- A word of the NIC function's BAR0 (R233): of ring r, at 0x100 × r, TAIL, HEAD, CH_STATE and the write-back interrupt; DESIGN CHOICE (log
entry 140): in this order, one word each. -/
def State.nicWord (s : State) (off : Nat) : Nat :=
  let c := 16 + off / 0x100
  if !s.isRing c ∨ c ≥ 32 then 0
  else if off % 0x100 = 0 then s.rd (DMA_TAIL c)
  else if off % 0x100 = 4 then s.rd (DMA_HEAD c)
  else if off % 0x100 = 8 then (s.word (DMA_CH_STATE_LIFE c).addr).toNat
  else if off % 0x100 = 12 then (s.bit DMA_DESC_IRQ c).toNat
  else 0

/-- A write of EN of a channel (R38, R231): a start runs up to FUNCTION_START_COMPLETE; a stop is at a cell boundary, or at once while the channel
is halted or waits. -/
def State.chWriteEn (s : State) (c : Nat) (en : Bool) : State :=
  let s := s.flag (DMA_CH_CTRL_EN c) en
  let life := s.rd (DMA_CH_STATE_LIFE c)
  if en then
    if life = lifeOff then (s.applyFields (chRwp c)).wr (DMA_CH_STATE_LIFE c) lifeStarting
    else s.when (life == lifeStopping) (·.flag (DMA_CH_STATE_EN_PENDING c) true)
  else if life = lifeOff then s
  else
    let s := (s.flag (DMA_CH_STATE_EN_PENDING c) false).wr (DMA_CH_STATE_LIFE c) lifeStopping
    s.when (life == lifeStarting || s.on (DMA_CH_STATE_HALT c) || s.on (DMA_CH_STATE_WAIT c)) (·.chStop c)

/-- The whole function stops: the channel ends at once, and what cannot be written back is dropped. -/
def State.chQuit (s : State) (c : Nat) : State :=
  s.when (s.rd (DMA_CH_STATE_LIFE c) != lifeOff) fun s =>
    ((s.chStop c).modChan c (fun t => { t with wb := [] })).chStopEnd c

/-- A channel's start completes. -/
def State.chStarted (s : State) (c : Nat) : State :=
  s.when (s.rd (DMA_CH_STATE_LIFE c) == lifeStarting) (fun s => (s.wr (DMA_CH_STATE_LIFE c) lifeOn).showChan c)

/-- DMA_CHANNEL_DISABLE (R231). -/
def execDmaChannelDisable (p : Path) (c : Nat) (s : State) : Outcome State Fault Refusal :=
  done <| s.when (c < 32) fun s =>
    s.writeOwn p (DMA_CH_CTRL_EN c).addr ((s.word (DMA_CH_CTRL_EN c).addr).toNat / 2 * 2) (chanChk p c) (·.chWriteEn c false)

/-- Why RESUME is rejected: the channel is not halted (R230). -/
def resumeChk (c : Nat) (s : State) : Nat := if !s.crown then 3 else if s.on (DMA_CH_STATE_HALT c) then 0 else 3

/-- A write of RESUME for channel `c` with an action. -/
def State.resume (s : State) (p : Path) (c action : Nat) (act : State → State) : State :=
  s.writeOwn p ATU_RESUME_CHAN.addr (action * 256 + c) (resumeChk c) act

/-- Action 0 of RESUME: the page's TLB entries are removed and it is translated again. -/
def State.resumeRetry (s : State) (c : Nat) : State :=
  let f := (s.chan c).failed
  let s := s.unhalt c
  match f with
  | none => s
  | some (iova, desc) =>
    let a := s.chAsid c
    let hit (e : TlbE) : Bool := e.asid == a && (if e.big then e.page == iova / 2 ^ 21 * 2 ^ 21 else e.page == iova / 4096 * 4096)
    let s := s.modDma (fun d => { d with tlb := d.tlb.filter (fun e => !hit e) })
    s.xlate c iova ((s.chT2h c && !desc) || (desc && !(s.chan c).wb.isEmpty)) desc

/-- The descriptor whose access failed is passed over: the first that waits to be written back, or the one that could not be fetched, at ring
index `idx` behind those held.  DESIGN CHOICE (log entry 139): it is not written back with CODE 2, since its page fails. -/
def State.passLost (s : State) (c idx : Nat) (wb : Bool) : State :=
  let x : Desc := ⟨idx, 0, 0, false, false, false, false, 0, true⟩
  let s := s.modChan c (fun t =>
    if wb then { t with wb := match t.wb with | (d, y) :: r => ({ d with lost := true }, y) :: r | [] => [] }
    else if t.descs.isEmpty then { t with wb := t.wb ++ [(x, 0, 0)] }
    else { t with descs := t.descs ++ [x] })
  s.wbFlush c (s.chan c).wb.length

/-- Action 1 of RESUME: the frame's descriptors are written back with CODE 2 and the channel goes on. -/
def State.resumeSkip (s : State) (c : Nat) : State :=
  let ch := s.chan c
  let desc := ch.failed.any (·.2)
  let wb := !ch.wb.isEmpty
  let idx := (s.rd (DMA_HEAD c) + ch.full.length + ch.descs.length) % s.chSize c
  let s := s.unhalt c
  let s := if s.chT2h c then
      match ch.descs with
      | d :: r => if desc then s else
          let s := s.modChan c (fun t => { t with full := [], descs := r, xl := [] })
          (foldS ch.full (fun s d => s.retire c d (doneFlags true false 0) 0) s).retire c d (doneFlags true false 2) 0
      | [] => s
    else s.when (ch.inFrame || !desc) (·.skipFrame c 2)
  (s.when desc (·.passLost c idx wb)).showChan c

/-- What a write of RESUME does: 0 RETRY, 1 SKIP, 2 STOP (R230). -/
def State.resumeAct (s : State) (c action : Nat) : State :=
  if action = 0 then s.resumeRetry c else if action = 1 then s.resumeSkip c else s.chWriteEn c false

/-- RESUME_RETRY (R230). -/
def execResumeRetry (p : Path) (c : Nat) (s : State) : Outcome State Fault Refusal :=
  done <| s.when (c < 32) fun s => s.resume p c 0 (·.resumeAct c 0)

/-- RESUME_SKIP (R230). -/
def execResumeSkip (p : Path) (c : Nat) (s : State) : Outcome State Fault Refusal :=
  done <| s.when (c < 32) fun s => s.resume p c 1 (·.resumeAct c 1)

/-- RESUME_STOP (R230): the channel is stopped as by EN = 0. -/
def execResumeStop (p : Path) (c : Nat) (s : State) : Outcome State Fault Refusal :=
  done <| s.when (c < 32) fun s => s.resume p c 2 (·.resumeAct c 2)

/-- FAULT_FIFO_POP (R229): a read of FF_REC7 removes the head record. -/
def execFaultFifoPop (p : Path) (s : State) : Outcome State Fault Refusal :=
  done <| s.readOwn p (ATU_FF_REC 7).addr (fun s => s.rd (ATU_FF_REC 7))
    (fun s => (s.modDma (fun d => { d with ff := d.ff.drop 1 })).showFf)

/-- ON channels whose tunnel context faults halt with cause 0 (R231). -/
def State.dmaCtxFault (s : State) (c : Nat) : State :=
  let subs := [0, 2, 3].filterMap (fun w => if s.on (ptV c w) && s.rd (ptPoint c w) == 3 then some (s.rd (ptSub c w)) else none)
  foldS ((List.range 32).filter (fun x => subs.any (fun y => s.reaches y x))) (fun s x => s.when (s.chOn x) (·.halt x 0)) s

end Sys2Proof.Machine
end

