-- ==== Sys2Proof/Machine/PowerOps.lean ====
section
/-!
DEFINITION. Shared operations of power control: switching domains off, core-voltage requests and POWER records
(`17_power_states.md`).
-/

namespace Sys2Proof.Machine

def State.modPwr (s : State) (f : PowerS → PowerS) : State := { s with pwr := f s.pwr }

/-- Snapshot words of a POWER record (R411). -/
def powerSnap : List Nat :=
  [wIdx PMB_VSTAT_VNOW, wIdx PMB_BOOST_BUCKET, wIdx THM_TJ_MAX_T, wIdx BZL_STATUS_PG, wIdx BZL_FLT_CAUSE_FIRST]

/-- Write a POWER record for a bit of PG_ISR of a page (R411). -/
def State.powerRecord (s : State) (page bit : Nat) : State := s.sysRecord 0x0A bit (page * 256 + bit) powerSnap

/-- A request to switch off a domain: held while a domain that lists it is not off (R21). -/
def State.domOffReq (s : State) (d : Nat) : State :=
  match (s.dom d).phase with
  | .on => if s.domHasDependants d then s.setDom d { s.dom d with offHeld := true } else s.domFall d
  | .waiting => s.setDom d { s.dom d with phase := .off }
  | .rising => s.setDom d { s.dom d with offHeld := true }
  | .falling => s.setDom d { s.dom d with onPending := false }
  | .off => s

/-- The VOUT_COMMAND value of a voltage code (R359): round(V × 2^−N) with the exponent N of the ULINEAR16 VOUT_MODE, and
V = (140 + code) ÷ 200. -/
def voutValue (mode code : Nat) : Nat :=
  let m := mode % 32
  if m ≥ 16 then ((140 + code) * 2 ^ (32 - m) * 2 + 200) / 400
  else ((140 + code) * 2 + 200 * 2 ^ m) / (400 * 2 ^ m)

/-- VOUT_COMMAND is written with a voltage code. -/
def State.voutWrite (s : State) (code : Nat) : State :=
  s.emit (.pmbus 0 0x21 (voutValue (s.rd PMB_VOUT_MODE) code))

/-- A core-voltage request (R359, R360): it starts, or is held while another is in flight. -/
def State.vRequest (s : State) (code : Nat) : State :=
  if s.on PMB_VSTAT_BUSY then s.modPwr (fun p => { p with vHeld := some code })
  else
    let s := (((s.incSat PMB_CNT_REQUESTS).wr PMB_VSTAT_VTARGET code).flag PMB_VSTAT_BUSY true).wr PMB_VSTAT_ATTEMPTS 1
    (s.modPwr (fun p => { p with vErr := 1 })).voutWrite code

/-- The request in flight ends, and a held one starts (R360). -/
def State.vEnd (s : State) : State :=
  let s := s.flag PMB_VSTAT_BUSY false
  match s.pwr.vHeld with
  | none => s
  | some c => (s.modPwr (fun p => { p with vHeld := none })).vRequest c

/-- An attempt of a request fails with a cause: the request is made once more, or ends with the old value (R359). -/
def State.vFail (s : State) (cause : Nat) : State :=
  if s.rd PMB_VSTAT_ATTEMPTS < 2 then
    ((s.wr PMB_VSTAT_ATTEMPTS 2).modPwr (fun p => { p with vErr := 1 })).voutWrite (s.rd PMB_VSTAT_VTARGET)
  else
    let s := ((s.voutWrite (s.rd PMB_VSTAT_VNOW)).flag PMB_VSTAT_FAIL true).wr PMB_VSTAT_LAST_ERR cause
    (((s.incSat PMB_CNT_FAILS).raise 2 1).powerRecord 2 1).vEnd

/-- A request in flight is abandoned by a brown-out (R362). -/
def State.vAbandon (s : State) : State :=
  s.when (s.on PMB_VSTAT_BUSY) fun s =>
    ((s.flag PMB_VSTAT_BUSY false).wr PMB_VSTAT_LAST_ERR 6).modPwr (fun p => { p with vHeld := none })

end Sys2Proof.Machine
end

