-- ==== Sys2Proof/Machine/UsbOps.lean ====
section
/-!
DEFINITION. Shared operations of the split hub and the service function: tunnel messages, port state, deferred transactions
and toggles (`12_usb.md`).
-/

namespace Sys2Proof.Machine

def State.modUsb (s : State) (f : UsbS → UsbS) : State := { s with usb := f s.usb }

/-! ## Tunnel messages (R258) -/

/-- A USB tunnel message (*USB tunnel message header*).  A request's RESULT byte carries the mark of R264 in bits [3:1]. -/
def usbMsg (op addr ep : Nat) (isIn : Bool) (typ res : Nat) (toggle : Bool) (tag : Nat) (data : List Byte) : List Byte :=
  beBytes 1 op ++ beBytes 1 (addr % 128) ++ beBytes 1 (16 * (ep % 16) + 8 * isIn.toNat + typ % 4) ++
  beBytes 1 (16 * (res / 16 % 16) + 2 * (res % 8) + toggle.toNat) ++ beBytes 2 data.length ++ beBytes 2 tag ++ data

/-- A message of the crown's side of hub port `p`, or of the far side of PHY `u`, enters the tunnel. -/
def State.usbUp (s : State) (sub : Nat) (b : List Byte) : State :=
  s.ingress { point := 10, sub := sub, ns := s.now, stamp := s.now64, data := b }

def State.hubMsg (s : State) (p : Nat) (b : List Byte) : State := s.usbUp (0x1000 + p) b
def State.phyMsg (s : State) (u : Nat) (b : List Byte) : State := s.usbUp (0x2000 + u) b

/-! ## Ports of the crown's hub (R256, R266) -/

/-- The hop distance of a chip of the tree. -/
def State.chipDepth (s : State) (c : Nat) : Nat :=
  if c = 0 then 0 else match tget? s.chip.tree c with | some (_, _, d) => d | none => 15

/-- A hub port is in use with its contexts ON, on a chip within reach. -/
def State.portBound (s : State) (p : Nat) : Bool :=
  p ≥ 1 && p ≤ s.rd USBH_HUB_CTRL_NPORTS.inForce && s.on (USBH_PORT_MAP_EN p) &&
  s.ctxLife (s.rd (USBH_PORT_MAP_UP_CTX p)) == lifeOn && s.ctxLife (s.rd (USBH_PORT_MAP_DOWN_CTX p)) == lifeOn

/-- Discard what the crown holds for the deferred and periodic transactions a predicate names, counting held data. -/
def State.dropDeferred (s : State) (sel : Nat → Bool) : State :=
  let n := (s.usb.deferred.filter (fun d => sel d.port && d.res.isSome)).length +
    (s.usb.periodic.filter (fun d => sel d.port)).foldl (fun a d => a + d.held.length) 0
  (s.inc USBH_STALE_DROP n).modUsb (fun u =>
    { u with deferred := u.deferred.filter (fun d => !sel d.port), periodic := u.periodic.filter (fun d => !sel d.port) })

/-- A port's status changed: PORT_CHG, and the hub's status-change endpoint reports it (R256). -/
def State.portChg (s : State) (p : Nat) : State := (s.raise 30 0).emit (.hubChange p)

/-- The frame offset goes to the pavilion of a hub port (R263). -/
def State.sendFnOfs (s : State) (p : Nat) : State :=
  s.hubMsg p (usbMsg 5 0 0 false 0 0 false 0 (beBytes 4 (s.rd USBH_FN_OFS_OFS)))

/-- A hub port goes down: its deferred transactions are answered with no response, and its held data is discarded (R266). -/
def State.portDown (s : State) (p : Nat) : State :=
  let s := foldS (s.usb.deferred.filter (fun d => d.port == p)) (fun s d => s.emit (.usbAns p d.addr d.ep 5 false [])) s
  let s := s.dropDeferred (· == p)
  (((s.flag (USBH_PORT_ST_CONNECTED p) false).flag (USBH_PORT_ST_ENABLED p) false).flag (USBH_PORT_ST_SUSPEND p) false).wr
    (USBH_PORT_ST_SPEED p) 0

/-- The connection of a hub port follows its binding, its contexts, its chip's distance and its PHY (R256, R266); the pavilion of a new one is
told the frame offset (R263). -/
def State.portUpdate (s : State) (p : Nat) : State :=
  let bound := s.portBound p
  let far := decide (s.chipDepth (s.rd (USBH_PORT_MAP_CHIP p)) > 3)
  let s := s.when (bound && far && (tget? s.chip.tree (s.rd (USBH_PORT_MAP_CHIP p))).isSome) (·.raise 30 5)
  let up := bound && !far && s.usb.dev.contains p
  if up = s.on (USBH_PORT_ST_CONNECTED p) then s
  else (if up then (s.flag (USBH_PORT_ST_CONNECTED p) true).sendFnOfs p else s.portDown p).portChg p

/-- Every hub port, as when a context's life changes. -/
def State.portsUpdate (s : State) : State :=
  s.when (s.crown && s.isOn 30) (fun s => foldS ((List.range 15).map (· + 1)) (fun s p => s.portUpdate p) s)

/-! ## Deferred completion (R259, R264) -/

/-- The answer to a host token. -/
def State.hostAns (s : State) (p addr ep ans : Nat) (toggle : Bool) (data : List Byte) : State :=
  s.emit (.usbAns p addr ep ans toggle data)

/-- NAK, counted: the transaction is deferred. -/
def State.deferNak (s : State) (p addr ep : Nat) : State := (s.inc USBH_DEFER_NAK).hostAns p addr ep 1 false []

/-- The mark of a SETUP packet (R264): 1 SetConfiguration, 2 SetInterface, 3 ClearFeature(ENDPOINT_HALT). -/
def setupMark (d : List Byte) : Nat :=
  let t := byteAt d 0
  let r := byteAt d 1
  if t = 0 ∧ r = 9 then 1 else if t = 1 ∧ r = 11 then 2 else if t = 2 ∧ r = 1 ∧ byteAt d 2 = 0 then 3 else 0

/-- Forward a new transaction to the pavilion. -/
def State.deferNew (s : State) (p addr ep typ kind : Nat) (toggle : Bool) (data : List Byte) : State :=
  let tag := s.usb.nextTag
  let mark := if kind = 0 then setupMark data else 0
  let d : Deferred := { tag := tag, port := p, addr := addr, ep := ep, typ := typ, kind := kind, data := data, mark := mark }
  let s := s.modUsb (fun u => { u with nextTag := (tag + 1) % 65536, deferred := u.deferred ++ [d] })
  s.hubMsg p (usbMsg 1 addr ep (kind == 1) typ (if kind = 0 then 4 + mark else mark) toggle tag data)

/-- The deferred transaction of an endpoint and direction. -/
def State.findDef (s : State) (p addr ep kind : Nat) : Option Deferred :=
  s.usb.deferred.find? (fun d => d.port == p && d.addr == addr && d.ep == ep && d.kind == kind)

def State.dropTag (s : State) (tag : Nat) : State := s.modUsb (fun u => { u with deferred := u.deferred.filter (fun d => d.tag != tag) })

/-- An abandoned transaction is polled again and forwarded again under its TAG (R260). -/
def State.deferAgain (s : State) (d : Deferred) : State :=
  let s := s.modUsb (fun u =>
    { u with deferred := u.deferred.map (fun (x : Deferred) => if x.tag = d.tag then { x with abandoned := false } else x) })
  s.hubMsg d.port (usbMsg 1 d.addr d.ep (d.kind == 1) d.typ (if d.kind = 0 then 4 + d.mark else d.mark) false d.tag d.data)

/-- Answer a token from a held result: data for IN, ACK for OUT, or STALL. -/
def State.fromResult (s : State) (d : Deferred) (r : Nat × Bool × List Byte) (wire : Nat) : State :=
  let s := s.dropTag d.tag
  if r.1 ≠ 0 then s.hostAns d.port d.addr wire 2 false []
  else if d.kind = 1 then s.hostAns d.port d.addr wire 4 r.2.1 r.2.2
  else s.hostAns d.port d.addr wire 0 false []

/-- A bulk or control IN or OUT token, or the complete-split of one (`split`): answered from the result, or deferred. -/
def State.deferToken (s : State) (p addr ep typ kind : Nat) (toggle split : Bool) (data : List Byte) : State :=
  match s.findDef p addr ep kind with
  | some d =>
    match d.res with
    | some r => s.fromResult d r ep
    | none =>
      let s := s.when d.abandoned (·.deferAgain d)
      if split then (s.inc USBH_DEFER_NYET).hostAns p addr ep 3 false [] else s.deferNak p addr ep
  | none =>
    if split then s.hostAns p addr ep 3 false []
    else (s.deferNew p addr ep typ kind toggle data).deferNak p addr ep

/-- The present frame of a periodic endpoint: microframes at high speed, frames otherwise (R262). -/
def State.usbFrame (s : State) (p : Nat) : Nat := if s.rd (USBH_PORT_ST_SPEED p) = 3 then s.cycle else s.cycle / 8

/-- A periodic IN token (R262, R263): data of an earlier frame, else NAK or a zero-length packet; STALL where the device answered so. -/
def State.periodicIn (s : State) (p addr ep typ : Nat) (split : Bool) : State :=
  match s.usb.periodic.find? (fun x => x.port == p && x.addr == addr && x.ep == ep && x.isIn) with
  | none =>
    let tag := s.usb.nextTag
    let s := s.modUsb (fun u => { u with nextTag := (tag + 1) % 65536, periodic := u.periodic ++ [⟨p, addr, ep, typ, true, tag, [], false, false⟩] })
    let s := s.hubMsg p (usbMsg 1 addr ep true typ 0 false tag [])
    if typ = 1 then s.hostAns p addr ep 4 false [] else s.hostAns p addr ep (if split then 3 else 1) false []
  | some x =>
    let upd (g : Periodic → Periodic) (s : State) : State := s.modUsb (fun u =>
      { u with periodic := u.periodic.map (fun (y : Periodic) => if y.tag = x.tag then g y else y) })
    if x.stall then (upd (fun y => { y with stall := false }) s).hostAns p addr ep 2 false []
    else if x.skip ∧ typ = 1 then (upd (fun y => { y with skip := false, held := y.held.drop 1 }) (s.inc USBH_ISO_SKIP)).hostAns p addr ep 4 false []
    else match x.held with
      | (f, t, d) :: l =>
        if f = s.usbFrame p then
          (if typ = 1 then s.hostAns p addr ep 4 false [] else s.hostAns p addr ep (if split then 3 else 1) false [])
        else (upd (fun y => { y with held := l }) s).hostAns p addr ep 4 t d
      | [] => if typ = 1 then s.hostAns p addr ep 4 false [] else s.hostAns p addr ep (if split then 3 else 1) false []

/-- An isochronous OUT (R262, R263): the data goes on at once, unless its frame has no partner. -/
def State.isoOut (s : State) (p addr ep : Nat) (data : List Byte) : State :=
  match s.usb.periodic.find? (fun x => x.port == p && x.addr == addr && x.ep == ep && !x.isIn) with
  | some x =>
    if x.skip then
      (s.inc USBH_ISO_SKIP).modUsb (fun u =>
        { u with periodic := u.periodic.map (fun (y : Periodic) => if y.tag = x.tag then { y with skip := false } else y) })
    else s.hubMsg p (usbMsg 1 addr ep false 1 0 false x.tag data)
  | none =>
    let tag := s.usb.nextTag
    (s.modUsb (fun u => { u with nextTag := (tag + 1) % 65536, periodic := u.periodic ++ [⟨p, addr, ep, 1, false, tag, [], false, false⟩] })).hubMsg
      p (usbMsg 1 addr ep false 1 0 false tag data)

/-! ## The pavilion's side (R258, R259, R264) -/

/-- The present frame of a PHY: microframes at high speed, frames otherwise (R262). -/
def State.phyFrame (s : State) (u : Nat) : Nat := if bitsOf (s.rd (USBH_LPORT_ST u)) 10 9 = 3 then s.cycle else s.cycle / 8

/-- Two transactions of one PHY are for one endpoint; control endpoints have both directions (R258). -/
def PhyTr.sameEp (x r : PhyTr) : Bool :=
  x.phy == r.phy && x.addr == r.addr && x.ep == r.ep && (r.typ == 0 || (x.kind == 1) == (r.kind == 1))

/-- What a PHY holds for its device is dropped. -/
def State.phyForget (s : State) (u : Nat) : State :=
  s.modUsb (fun t => { t with run := t.run.filter (fun r => r.phy != u), toggles := t.toggles.filter (fun e => e.1 != u),
                              marks := t.marks.filter (fun m => m.1 != u), sched := t.sched.filter (fun x => x.port != u) })

/-- The toggle of an endpoint: endpoint number, + 16 for IN. -/
def State.toggle (s : State) (u addr ep : Nat) : Bool := s.usb.toggles.contains (u, addr, ep)

def State.setToggle (s : State) (u addr ep : Nat) (v : Bool) : State :=
  s.modUsb (fun t =>
    { t with toggles := let l := t.toggles.filter (· != (u, addr, ep)); if v then l ++ [(u, addr, ep)] else l })

/-- The key of an endpoint: its number, and 16 more for IN. -/
def epKey (ep : Nat) (isIn : Bool) : Nat := ep + if isIn then 16 else 0

/-- The key of the endpoint that an endpoint address names (bit 7 IN). -/
def epOfAddress (a : Nat) : Nat := epKey (a % 16) (a.testBit 7)

/-- Return the toggles of a device's endpoints, chosen by their keys, to DATA0, and discard their held data (R264): transactions that are still
to run, and what the pavilion's own schedule holds. -/
def State.clearToggles (s : State) (u addr : Nat) (sel : Nat → Bool) : State :=
  s.modUsb (fun t =>
    { t with toggles := t.toggles.filter (fun e => !(e.1 == u && e.2.1 == addr && sel e.2.2)),
             run := t.run.filter (fun r => !(r.phy == u && r.addr == addr && r.ep != 0 && sel (epKey r.ep (r.kind == 1)))),
             sched := t.sched.map (fun e =>
               if e.port = u ∧ e.addr = addr ∧ sel (epKey e.ep e.isIn) then { e with held := [] } else e) })

/-- TOGGLE_RESET (R264): the status stage of a marked request completed with ACK. -/
def State.toggleReset (s : State) (u addr mark arg : Nat) (ifEps : List Nat) : State :=
  let s := if mark = 1 then s.clearToggles u addr (fun e => e % 16 != 0)
    else if mark = 2 then s.clearToggles u addr (fun e => (ifEps.map epOfAddress).contains e)
    else if mark = 3 then s.clearToggles u addr (· == epOfAddress arg) else s
  s.modUsb (fun t => { t with marks := t.marks.filter (fun m => !(m.1 == u && m.2.1 == addr)) })

/-- A result goes back to the crown. -/
def State.result (s : State) (r : PhyTr) (code : Nat) (toggle : Bool) (data : List Byte) : State :=
  s.phyMsg r.phy (usbMsg 2 r.addr r.ep (r.kind == 1) r.typ (16 * code) toggle r.tag data)

/-- A transaction is tried once on its PHY: `resp` 0 ACK or data, 1 NAK, 2 STALL, 3 no response (R258, R259, R264). -/
def State.tryPhy (s : State) (r : PhyTr) (resp : Nat) (rdata : List Byte) (ifEps : List Nat) : State :=
  let e := epKey r.ep (r.kind == 1)
  let t := if r.kind = 0 then false else s.toggle r.phy r.addr e
  let s := s.emit (.usbTok r.phy r.addr r.ep r.kind t r.data)
  let s := s.modUsb (fun u => { u with run := u.run.filter (fun x => !(x.phy == r.phy && x.tag == r.tag)) })
  if resp = 0 then
    let s := if r.kind = 0 then
        let s := (s.setToggle r.phy r.addr 0 true).setToggle r.phy r.addr 16 true
        s.when (r.mark != 0) (fun s => s.modUsb (fun u =>
          { u with marks := u.marks.filter (fun m => !(m.1 == r.phy && m.2.1 == r.addr)) ++ [(r.phy, r.addr, r.mark, byteAt r.data 4)] }))
      else if r.typ = 1 then s else s.setToggle r.phy r.addr e (!t)
    let s := match (if r.kind = 1 ∧ r.ep = 0 then s.usb.marks.find? (fun m => m.1 == r.phy && m.2.1 == r.addr) else none) with
      | some m => s.toggleReset r.phy r.addr m.2.2.1 m.2.2.2 ifEps
      | none => s
    s.result r 0 t (if r.kind = 1 then rdata else [])
  else if resp = 2 then s.result r 2 t []
  else if resp = 1 then s.modUsb (fun u => { u with run := u.run ++ [{ r with tries := 0 }] })
  else if r.tries ≥ 2 then s.result r 3 t []
  else s.modUsb (fun u => { u with run := u.run ++ [{ r with tries := r.tries + 1 }] })

/-- The request of a message. -/
def phyTrOf (u : Nat) (b : List Byte) : PhyTr :=
  let m := byteAt b 3 / 2 % 8
  { phy := u, tag := halfAt b 6, addr := byteAt b 1 % 128, ep := byteAt b 2 / 16, typ := byteAt b 2 % 4,
    kind := if m ≥ 4 then 0 else if byteAt b 2 / 8 % 2 = 1 then 1 else 2, mark := m % 4,
    data := (b.drop 8).take (halfAt b 4) }

/-- The PORT_ST layout of a local PHY. -/
def portWord (speed : Nat) (oc susp en conn pow : Bool) : Nat :=
  speed % 4 * 512 + oc.toNat * 256 + susp.toNat * 128 + en.toNat * 64 + conn.toNat * 32 + pow.toNat * 16

/-- The status of a PHY goes to the crown as a port status message (R256, R265). -/
def State.sendPhyStatus (s : State) (u : Nat) : State :=
  s.phyMsg u (usbMsg 4 0 0 false 0 0 false 0 (beBytes 4 (s.rd (USBH_LPORT_ST u))))

/-- A PHY loses its role and is powered down (R248): its device is gone for the crown. -/
def State.phyGone (s : State) (u : Nat) : State :=
  s.when (s.isOn 30 && s.rd (USBH_LPORT_ST u) != 0) (fun s => (((s.phyForget u).wr (USBH_LPORT_ST u) 0).raise 30 0).sendPhyStatus u)

/-- The split hub's function has ended (R248, R266): the ports go down and the PHYs are powered down. -/
def State.hubOff (s : State) : State :=
  let s := foldS ((List.range 15).map (· + 1)) (fun s p => s.when (s.on (USBH_PORT_ST_CONNECTED p)) (fun s => (s.portDown p).portChg p)) s
  foldS [0, 2, 3, 4, 5] (fun s u => (s.phyForget u).wr (USBH_LPORT_ST u) 0) (s.modUsb (fun u => { u with dev := [], resetting := [], absent := [] }))

/-- PAVILION_SOF (R263): at a cycle boundary each enabled and not suspended PHY sends SOF, or a keep-alive at low speed. -/
def State.pavilionSof (s : State) : State :=
  let k := s.cycle
  let frame := (k / 8 + s.rd USBH_FN_OFS_OFS) % 2048
  s.when (s.isOn 30) (fun s => foldS [0, 2, 3, 4, 5] (fun s u =>
    let w := s.rd (USBH_LPORT_ST u)
    let sp := bitsOf w 10 9
    if bitsOf w 5 5 = 0 ∨ bitsOf w 6 6 = 0 ∨ bitsOf w 7 7 = 1 then s
    else if sp = 3 then s.emit (.usbPhy u 0 frame)
    else if k % 8 = 0 then s.emit (.usbPhy u (if sp = 1 then 1 else 0) frame) else s) s)

end Sys2Proof.Machine
end

