-- ==== Sys2Proof/Machine/ServiceOps.lean ====
section
/-!
DEFINITION. Shared operations of the service port (`16_service_port.md`): switches, attach and detach, the PD transmitter
and receiver, and the service level.
-/

namespace Sys2Proof.Machine

def State.modSvc (s : State) (f : ServiceS → ServiceS) : State := { s with svc := f s.svc }

/-- STATE codes of TC_STATUS. -/
def tcSnk : Nat := 3
def tcSrc : Nat := 6

def State.tcState (s : State) : Nat := s.rd SVC_TC_STATUS_STATE

/-- What the port presents: Rp in the source states, RP_ADV or, with collision avoidance at an attached source, SinkTxOK or SinkTxNG; else Rd;
attached, on the pin that found the partner only (R333, R342). -/
def State.ccPulls (s : State) : Nat × Nat :=
  let pull :=
    if ([4, 5, 6, 8] : List Nat).contains s.tcState then
      if s.on SVC_PD_CTRL_CA_EN ∧ s.tcState = tcSrc then (if s.svc.sinkNg then 3 else 4) else s.rd SVC_TC_CTRL_RP_ADV + 2
    else 1
  if !s.on SVC_TC_STATUS_ATTACHED then (pull, pull) else if s.on SVC_TC_STATUS_ORIENT then (0, pull) else (pull, 0)

/-- CC1 and CC2 follow. -/
def State.ccShow (s : State) : State :=
  s.when (s.svc.cc != s.ccPulls) (fun s => (s.modSvc (fun v => { v with cc := s.ccPulls })).emit (.cc s.ccPulls.1 s.ccPulls.2))

/-- LINE or AUX is valid. -/
def State.mainValid (s : State) : Bool := s.on BZL_STATUS_LINE_OK || s.on BZL_STATUS_AUX_OK

/-- A VBUS fault is latched. -/
def State.vbFault (s : State) : Bool := s.on SVC_VB_FLT_OVP || s.on SVC_VB_FLT_OCP || s.on SVC_VB_FLT_RCP

/-- The VBUS switch and DEAD_BATT under the present conditions (R336, R338, R339): the sink direction closes by itself while
LINE and AUX are invalid, and stays closed until the buck has raised PG. -/
def State.svcUpdate (s : State) : State :=
  let dead := s.tcState == tcSnk && (!s.mainValid || (s.on SVC_TC_STATUS_DEAD_BATT && !s.on BZL_STATUS_PG))
  let s := (s.flag SVC_TC_STATUS_DEAD_BATT dead).when dead (·.modSvc (fun v => { v with reduced := true }))
  let s := s.flag SVC_TC_STATUS_SNK_SW (s.tcState == tcSnk && !s.vbFault && (dead || s.on SVC_VB_CTRL_SNK_EN))
  (s.flag SVC_TC_STATUS_SRC_SW (s.tcState == tcSrc && !s.vbFault && s.on SVC_VB_CTRL_SRC_EN && !dead)).ccShow

/-- The service function follows the data role (R248, R250): attached as UFP it is powered, otherwise detached. -/
def State.usbdUpdate (s : State) : State :=
  let want := s.isOn 29 && s.on SVC_TC_STATUS_ATTACHED && !s.on SVC_TC_STATUS_DATA_ROLE
  if want && s.rd USBD_STATUS_STATE == 0 then (s.wr USBD_STATUS_STATE 2).raise 29 0
  else if !want && s.rd USBD_STATUS_STATE != 0 then
    let s := (((s.wr USBD_STATUS_STATE 0).wr USBD_STATUS_SPEED 0).wr USBD_STATUS_ADDRESS 0).flag USBD_STATUS_RWAKE false
    (s.flag USBD_STATUS_SUSPENDED false).raise 29 1
  else s

/-- Set the data role in force; a swap leaves the service function detached and brings the port up in the new role; as UFP, U0 is no port of the
split hub (R248). -/
def State.setDataRole (s : State) (dfp : Bool) : State :=
  (((s.flag SVC_TC_STATUS_DATA_ROLE dfp).flag SVC_TC_CTRL_DATA_ROLE dfp).when (!dfp) (·.phyGone 0)).usbdUpdate

/-- The state of an unattached port for MODE (R333). -/
def State.tcIdle (s : State) : Nat := if s.rd SVC_TC_CTRL_MODE = 1 then 4 else 1

/-- The port attaches as a sink or a source on a CC pin (R333): DATA_ROLE is UFP or DFP. -/
def State.svcAttach (s : State) (src cc2 : Bool) (rp : Nat) : State :=
  let s := ((s.wr SVC_TC_STATUS_STATE (if src then tcSrc else tcSnk)).flag SVC_TC_STATUS_ORIENT cc2).flag SVC_TC_STATUS_ATTACHED true
  let s := ((s.flag SVC_TC_STATUS_PWR_ROLE src).flag SVC_TC_CTRL_PWR_ROLE src).wr SVC_TC_STATUS_RP_SEEN (if src then 0 else rp)
  ((((s.setDataRole src).incSat SVC_EVT_CNT_ATTACHES).raise 4 0).svcUpdate).wakeBy 3

/-- RX_STAT and the RX_BUF words show the head of the receive FIFO. -/
def State.showRx (s : State) : State :=
  let n := s.svc.fifo.length
  let h : Nat × List Byte := (s.svc.fifo.head?).getD (0, [])
  let s := ((s.flag SVC_RX_STAT_VALID (decide (n ≠ 0))).wr SVC_RX_STAT_COUNT n).wr SVC_RX_STAT_LEN h.2.length
  let s := s.wr SVC_RX_STAT_SOP h.1
  foldS (List.range 8) (fun s k => s.wr (SVC_RX_BUF k) (leNat ((h.2.drop (4 * k)).take 4))) s

/-- A transmission ends with a result. -/
def State.txEnd (s : State) (r : Nat) : State :=
  ((s.wr SVC_TX_STATUS_RESULT r).modSvc (fun v => { v with tx := none, caWait := false })).raise 4 3

/-- The receive FIFO is emptied and the MessageID counters are reset. -/
def State.pdClear (s : State) : State := (s.modSvc (fun v => { v with fifo := [], lastRx := [], txId := [] })).showRx

/-- What a detach does (R334); the DPO leaves the connector (R246). -/
def State.svcDetach (s : State) : State :=
  let s := ((s.wr SVC_TC_STATUS_STATE s.tcIdle).flag SVC_TC_STATUS_ATTACHED false).flag SVC_TC_STATUS_ORIENT false
  let s := ((s.wr SVC_VB_FLT_OVP 0).wr SVC_VB_FLT_OCP 0).wr SVC_VB_FLT_RCP 0
  let s := (((s.wr SVC_SINK_LIMIT_MV 0).wr SVC_SINK_LIMIT_MA 0).wr SVC_TC_STATUS_RP_SEEN 0).pdClear
  let s := (s.when s.svc.tx.isSome (·.txEnd 6)).modSvc (fun v => { v with sinkNg := false })
  (((s.usbdUpdate).svcUpdate).raise 4 1).dpaltRelease.phyGone 0

/-- The policy host's path (R345): code 0x03 for the others. -/
def State.policyChk (s : State) (p : Path) : Nat := if s.on SVC_POLICY_MSPI = (p == .mspi) then 0 else 3

/-- The header of a GoodCRC (R340). -/
def State.goodCrc (s : State) (msgId : Nat) : List Byte :=
  leBytes 2 (1 + 32 * s.rd SVC_TC_STATUS_DATA_ROLE + 64 * (s.rd SVC_PD_CTRL_SPEC_REV % 4) + 256 * s.rd SVC_TC_STATUS_PWR_ROLE +
    512 * msgId)

/-- The message of TX_BUF with the MessageID of its SOP type in header bits [11:9] (R341). -/
def State.txMessage (s : State) (sop len : Nat) : List Byte :=
  let bytes := ((List.range 8).flatMap (fun k => leBytes 4 (s.rd (SVC_TX_BUF k)))).take len
  let h := leNat (bytes.take 2)
  leBytes 2 (h - bitsOf h 11 9 * 512 + tget 0 s.svc.txId sop * 512) ++ bytes.drop 2

/-- The message is put on the line. -/
def State.pdTransmit (s : State) : State :=
  match s.svc.tx with
  | none => s
  | some (sop, m) =>
    ((s.inc SVC_TX_STATUS_ATTEMPTS).modSvc (fun v => { v with caWait := false })).emit (.pdTx sop m)

/-- The allowed input power in mW (R337). -/
def State.allowedMw (s : State) : Nat :=
  if s.rd SVC_SINK_LIMIT_MA = 0 then
    5 * (match s.rd SVC_TC_STATUS_RP_SEEN with | 1 => 500 | 2 => 1500 | 3 => 3000 | _ => 0)
  else s.rd SVC_SINK_LIMIT_MV * s.rd SVC_SINK_LIMIT_MA / 1000

/-- The level that the allowed power permits (*Reduced service configuration*). -/
def State.allowedLevel (s : State) : Nat := if s.allowedMw < 2500 then 0 else if s.allowedMw < 5000 then 1 else 2

/-- The domains of a level, beside D0–D2. -/
def levelDoms (l : Nat) : List Nat := if l = 0 then [] else if l = 1 then [3, 12, 13, 14, 15] else [3, 4, 12, 13, 14, 15]

/-- Link ports, PCIe, display and Ethernet stay off in the reduced service configuration (R337). -/
def reducedOff (page : Nat) : Bool :=
  (16 ≤ page && page ≤ 22) || page == 27 || page == 28 || (31 ≤ page && page ≤ 34)

/-- The link ports and PCIe stay off while the lapidary loader runs (R402). -/
def loaderOff (page : Nat) : Bool := (16 ≤ page && page ≤ 18) || page == 22

/-- What a lower level does not have goes off; at the Wait level every rail is off, and the ledger records B1 as the step reached (R337,
R392). -/
def State.levelFall (s : State) : State :=
  let s := foldS ((levelDoms 2).reverse.filter (fun d => !(levelDoms s.svc.level).contains d)) (fun s d => s.domOffReq d) s
  s.when (s.svc.level == 0) fun s =>
    let s := foldS ((List.range 4).filter s.pwr.railEn.testBit) (fun s k => s.emit (.railEn k false)) s
    (((s.modPwr (fun p => { p with railEn := 0, script := none })).flag BOOT_STATUS_LOADER false).wr BOOT_STATUS_STEP 1).ledgerUpdate

end Sys2Proof.Machine
end

