-- ==== Sys2Proof/Machine/Bezel.lean ====
section
/-!
DEFINITION. The bezel power path (`15_bezel_power_path.md`): seating, feeds, the ideal-diode OR, the hot-swap stage,
power good, retry and clearing, and the monitor.
-/

namespace Sys2Proof.Machine

open Host (Outcome)

def State.modBzl (s : State) (f : BezelS → BezelS) : State := { s with bzl := f s.bzl }

/-- A value for a field of `w` bits: the value itself, or a free value where the spec states none because it does not fit. -/
def State.fitOr (s : State) (w v : Nat) : Nat × State :=
  if v < 2 ^ w then (v, s) else ((s.freshVal.1) % 2 ^ w, s.freshVal.2)

/-! ## The stage -/

/-- LIFE of BZL follows HS_STATE (R327). -/
def hsLife (st : Nat) : Nat :=
  if st ≤ 1 then lifeOff else if st = 4 then lifeOn else if st ≥ 6 then lifeFault else lifeStarting

/-- Enter a state of the hot-swap stage: FAULT# is low in 5, 6 and 7 (R322), LIFE follows (R327), and entries into state 4 are
counted. -/
def State.hsEnter (s : State) (st : Nat) : State :=
  let t := s.when (st == 4 && s.rd BZL_STATUS_HS_STATE != 4) (·.incSat BZL_HS_CNT_STARTS)
  ((t.wr BZL_STATUS_HS_STATE st).flag BZL_STATUS_FAULT (decide (st ≥ 5))).setLife 3 (hsLife st)

/-- Drive PG (R321); when the buck has raised it, the sink switch of the service port may open (R338). -/
def State.pgSet (s : State) (b : Bool) : State :=
  if s.on BZL_STATUS_PG = b then s else ((s.flag BZL_STATUS_PG b).raise 3 1).svcUpdate

/-- The fault timer stops. -/
def State.timerStop (s : State) : State := (s.flag BZL_STATUS_FLT_TMR false).modBzl (fun b => { b with limit := 0 })

/-- The gate is pulled down: PG falls and the fault timer stops. -/
def State.gateDown (s : State) : State :=
  ((s.pgSet false).timerStop).modBzl (fun b => { b with ramped := false, vsns := 0, fet := 0 })

/-- A FET fault is held (R320). -/
def State.fetFault (s : State) : Bool := s.rd BZL_STATUS_HS_STATE == 7

/-- The stage starts under R317 if SEATED is 1, and otherwise waits for it. -/
def State.hsStart (s : State) : State :=
  (s.hsEnter (if s.on BZL_STATUS_SEATED then 2 else 1)).modBzl (fun b => { b with ramped := false, latched := 0 })

/-- A cause bit of FLT_CAUSE is set; FIRST names the first one (R324). -/
def State.setCause (s : State) (k : Nat) : State :=
  let t := s.when (s.rd BZL_FLT_CAUSE_FIRST == 0) (·.wr BZL_FLT_CAUSE_FIRST (k + 1))
  t.wr ⟨BZL_FLT_CAUSE_FAST_TRIP.addr, k, k⟩ 1

/-- The cool-off in µs: the longer of COOL_MIN and E ÷ P_COOL, at most 60 s (R323). -/
def State.coolOff (s : State) (e : Nat) : Nat :=
  min 60000000 (max (s.rd BZL_HS_CFG2_COOL_MIN * 10000) (e * 10 / s.rd BZL_HS_CFG2_P_COOL))

/-- A FAST_TRIP, BREAKER or PLIMIT fault (0, 1, 2) latches, with the energy that the FET absorbed; `also` is a further cause of
the same instant (R318, R323, R331). -/
def State.hsFault (s : State) (k : Nat) (also : Option Nat) (e : Nat) : State :=
  let (ev, s) := s.fitOr 32 e
  let s := (s.gateDown.setCause k)
  let s := match also with | some j => s.setCause j | none => s
  let s := ((s.incSat BZL_HS_CNT_FAULTS).wr BZL_FET_E ev).raise 3 2
  let st := if s.rd BZL_FLT_CAUSE_RETRIES < s.rd BZL_HS_CFG2_RETRIES then 5 else 6
  let s := (s.hsEnter st).modBzl (fun b => { b with latched := st, coolUs := s.coolOff e })
  s.powerRecord 3 2

/-- A FET_GATE or FET_SHORT fault (3, 4): the gate is held down and no retry is made (R320). -/
def State.hsFetFault (s : State) (k : Nat) : State :=
  let s := ((s.gateDown.setCause k).incSat BZL_HS_CNT_FAULTS).raise 3 3
  (s.hsEnter 7).powerRecord 3 3

/-- The comparison of the sense voltage with ILIM and of the dissipation with PLIM (R318): 0 neither, 1 breaker, 2 power
limit.  Where both apply, the power limit regulates the gate. -/
def State.limitOf (s : State) : Nat :=
  if s.bzl.fet > s.rd BZL_HS_CFG1_PLIM * 1000 then 2
  else if s.bzl.vsns > s.rd BZL_HS_CFG0_ILIM * 250 then 1 else 0

/-- The stage conducts: ramp, qualify or on. -/
def State.hsActive (s : State) : Bool := let st := s.rd BZL_STATUS_HS_STATE; 2 ≤ st && st ≤ 4

/-- The fault timer runs while a limit is exceeded; its start drops PG, and qualification restarts from zero (R318, R321). -/
def State.limitCheck (s : State) : State :=
  s.when s.hsActive fun s =>
    if s.limitOf = 0 then s.timerStop
    else
      let s := (s.modBzl (fun b => { b with limit := s.limitOf })).flag BZL_STATUS_FLT_TMR true
      (s.pgSet false).when (s.rd BZL_STATUS_HS_STATE == 4) (·.hsEnter 3)

/-! ## Seating (R311, R312) -/

/-- SEAT_PIN_CHANGE (R312, R352): a seating pin changes its level; the 50 ms or 10 µs timing starts, and the change is a wake
event. -/
def execSeatPinChange (pinB low : Bool) (s : State) : Outcome State Fault Refusal :=
  let f := if pinB then BZL_STATUS_SEAT_B_LOW else BZL_STATUS_SEAT_A_LOW
  done <| s.when (s.domOn 2 && s.on f != low) (fun s => (s.flag f low).wakeBy 9)

/-- SEAT_QUALIFIED (R312, R317): both pins have been low for 50 ms. -/
def execSeatQualified (s : State) : Outcome State Fault Refusal :=
  done <| s.when (s.domOn 2 && s.on BZL_STATUS_SEAT_A_LOW && s.on BZL_STATUS_SEAT_B_LOW && !s.on BZL_STATUS_SEATED) fun s =>
    let s := (s.flag BZL_STATUS_SEATED true).raise 3 0
    s.when (s.rd BZL_STATUS_HS_STATE == 1) (·.hsStart)

/-- The latched fault is cleared: causes 0–2, and FIRST unless a FET fault stays. -/
def State.clearCauses (s : State) : State :=
  let s := ((s.wr BZL_FLT_CAUSE_FAST_TRIP 0).wr BZL_FLT_CAUSE_BREAKER 0).wr BZL_FLT_CAUSE_PLIMIT 0
  let fet := if s.on BZL_FLT_CAUSE_FET_GATE then 4 else if s.on BZL_FLT_CAUSE_FET_SHORT then 5 else 0
  (s.when (s.rd BZL_FLT_CAUSE_FIRST < 4) (·.wr BZL_FLT_CAUSE_FIRST fet)).modBzl (fun b => { b with latched := 0 })

/-- SEAT_LOST (R312): a pin has been high for 10 µs. -/
def execSeatLost (s : State) : Outcome State Fault Refusal :=
  done <| s.when (s.domOn 2 && s.on BZL_STATUS_SEATED && !(s.on BZL_STATUS_SEAT_A_LOW && s.on BZL_STATUS_SEAT_B_LOW)) fun s =>
    let s := ((s.flag BZL_STATUS_SEATED false).raise 3 0).gateDown
    let s := s.clearCauses.wr BZL_FLT_CAUSE_RETRIES 0
    s.when (s.rd BZL_STATUS_HS_STATE != 0 && !s.fetFault) (·.hsEnter 1)

/-! ## Feeds (R314) -/

/-- LINE_ENn is high while EN bit n is 1 and FSEATn# is qualified. -/
def State.lineEn (s : State) (n : Nat) (b : Bool) : State :=
  if s.bit BZL_STATUS_LINE_EN n = b then s else (s.setBit BZL_STATUS_LINE_EN n b).raise 3 6

/-- FSEAT_PIN_CHANGE (R314): FSEATn# changes its level. -/
def execFseatPinChange (n : Nat) (low : Bool) (s : State) : Outcome State Fault Refusal :=
  done <| s.when (s.domOn 2 && decide (n < 3)) (·.setBit BZL_STATUS_FSEAT_LOW n low)

/-- FEED_QUALIFIED (R314): FSEATn# has been low for 50 ms. -/
def execFeedQualified (n : Nat) (s : State) : Outcome State Fault Refusal :=
  done <| s.when (s.domOn 2 && decide (n < 3) && s.bit BZL_STATUS_FSEAT_LOW n) fun s =>
    (s.setBit BZL_STATUS_FEED_SEATED n true).when (s.bit BZL_FEED_CTRL_EN n) (·.lineEn n true)

/-- FEED_WITHDRAWAL (R314): FSEATn# reads high, or EN bit n is 0. -/
def execFeedWithdrawal (n : Nat) (s : State) : Outcome State Fault Refusal :=
  done <| s.when (s.domOn 2 && decide (n < 3) && !(s.bit BZL_STATUS_FSEAT_LOW n && s.bit BZL_FEED_CTRL_EN n)) fun s =>
    (s.lineEn n false).when (!s.bit BZL_STATUS_FSEAT_LOW n) (·.setBit BZL_STATUS_FEED_SEATED n false)

/-- A write of FEED_CTRL.EN acts at once (R314, R331). -/
def State.feedEnWritten (s : State) : State :=
  foldS [0, 1, 2] (fun s n => s.lineEn n
    (s.bit BZL_FEED_CTRL_EN n && s.bit BZL_STATUS_FEED_SEATED n && s.bit BZL_STATUS_FSEAT_LOW n)) s

/-! ## The ideal-diode OR (R315) -/

/-- An input is valid between UV and OV; a valid one stays so down to 1.0 V below UV. -/
def State.orValid (s : State) (was : Bool) (mv : Nat) : Bool :=
  decide ((if was then s.rd BZL_OR_CTRL_UV * 500 - 1000 else s.rd BZL_OR_CTRL_UV * 500) ≤ mv ∧ mv ≤ s.rd BZL_OR_CTRL_OV * 500)

/-- Bring the validity bits and the FETs up to the present inputs and settings; LINE that becomes valid after having been
invalid at entry is a wake event (R352), and an input that becomes valid while DEAD_BATT is 1 sets MAIN_PWR (R338). -/
def State.orUpdate (s : State) : State :=
  let l := s.orValid (s.on BZL_STATUS_LINE_OK) s.bzl.lineMv
  let a := s.orValid (s.on BZL_STATUS_AUX_OK) s.bzl.auxMv
  let chg := l != s.on BZL_STATUS_LINE_OK || a != s.on BZL_STATUS_AUX_OK
  let main := (l || a) && !s.mainValid && s.on SVC_TC_STATUS_DEAD_BATT
  let wake := l && !s.on BZL_STATUS_LINE_OK && (!s.pwr.lineAtEntry || s.on BOOT_STATUS_HALT)
  let s := (s.flag BZL_STATUS_LINE_OK l).flag BZL_STATUS_AUX_OK a
  let s := s.flag BZL_STATUS_LINE_ON (l && s.bzl.lineFwd && !(a && s.on BZL_OR_CTRL_PRIO_AUX))
  let s := (s.flag BZL_STATUS_AUX_ON (a && s.bzl.auxFwd)).when chg (fun s => ((s.raise 3 7).when main (·.raise 4 8)).svcUpdate)
  s.when wake (·.wakeBy 7)

/-- INPUT_VALIDITY_CHANGE (R315): LINE or AUX reaches a voltage; `fwd` tells whether it lies above VOR. -/
def execInputValidityChange (aux : Bool) (mv : Nat) (fwd : Bool) (s : State) : Outcome State Fault Refusal :=
  done <| s.when (s.domOn 2) fun s =>
    (s.modBzl (fun b => if aux then { b with auxMv := mv, auxFwd := fwd } else { b with lineMv := mv, lineFwd := fwd })).orUpdate

/-- REVERSE_VOLTAGE (R315): VOR lies 20 mV above an input, so its gate is turned off. -/
def execReverseVoltage (aux : Bool) (s : State) : Outcome State Fault Refusal :=
  done <| s.when (s.domOn 2) fun s =>
    (s.modBzl (fun b => if aux then { b with auxFwd := false } else { b with lineFwd := false })).orUpdate

/-! ## The hot-swap stage (R317–R321) -/

/-- HS_RAMP_END (R317): VIN_MAIN reaches VOR − 1 V. -/
def execHsRampEnd (s : State) : Outcome State Fault Refusal :=
  done <| s.when (s.domOn 2 && s.rd BZL_STATUS_HS_STATE == 2) (·.modBzl (fun b => { b with ramped := true }))

/-- FET_GATE_CHECK (R317, R320): after the ramp, HS_GATE has reached HS_SRC + 6 V, or has not within 5 ms. -/
def execFetGateCheck (reached : Bool) (s : State) : Outcome State Fault Refusal :=
  done <| s.when (s.domOn 2 && s.rd BZL_STATUS_HS_STATE == 2 && s.bzl.ramped) fun s =>
    if reached then s.hsEnter 3 else s.hsFetFault 3

/-- FET_SHORT (R320): VIN_MAIN stays above half of VOR for 1 ms with the gate pulled down. -/
def execFetShort (s : State) : Outcome State Fault Refusal :=
  done <| s.when (s.domOn 2 && !s.hsActive && !s.on BZL_FLT_CAUSE_FET_SHORT) (·.hsFetFault 4)

/-- The limit cause that the fault timer would latch now. -/
def State.limitCause (s : State) : Option Nat :=
  if s.on BZL_STATUS_FLT_TMR then some (if s.bzl.limit = 2 then 2 else 1) else none

/-- SENSE_OVER_LIMIT (R318): the sense voltage (µV) and the dissipation that the load asks of the FET (mW) change; above ILIM
or PLIM the fault timer runs. -/
def execSenseOverLimit (vsns fet : Nat) (s : State) : Outcome State Fault Refusal :=
  done <| s.when (s.domOn 2 && s.hsActive) fun s => (s.modBzl (fun b => { b with vsns := vsns, fet := fet })).limitCheck

/-- FAULT_TIMER_EXPIRY (R318): the fault timer has run for CB_TIME; `e` is the energy that the FET absorbed in µJ. -/
def execFaultTimerExpiry (e : Nat) (s : State) : Outcome State Fault Refusal :=
  done <| s.when (s.domOn 2 && s.hsActive) fun s =>
    match s.limitCause with
    | some k => s.hsFault k none e
    | none => s

/-- FAST_TRIP (R318, R319): the sense voltage (µV) reaches 3 × ILIM; `expiry` tells that the fault timer expires in the same
instant (R331). -/
def execFastTrip (vsns e : Nat) (expiry : Bool) (s : State) : Outcome State Fault Refusal :=
  done <| s.when (s.domOn 2 && s.hsActive && decide (vsns ≥ 3 * (s.rd BZL_HS_CFG0_ILIM * 250))) fun s =>
    s.hsFault 0 (if expiry then s.limitCause else none) e

/-- PG_QUALIFIED (R321): the conditions have held for PG_DELAY; `vin` is VIN_MAIN in mV. -/
def execPgQualified (vin : Nat) (s : State) : Outcome State Fault Refusal :=
  done <| s.when (s.domOn 2 && s.rd BZL_STATUS_HS_STATE == 3 && s.on BZL_STATUS_SEATED && !s.on BZL_STATUS_FLT_TMR
      && decide (vin > s.rd BZL_HS_CFG1_PG_THR * 250)) fun s => (s.hsEnter 4).pgSet true

/-! ## Retry and clearing (R323–R326) -/

/-- COOL_OFF_END (R323): the stage retries. -/
def execCoolOffEnd (s : State) : Outcome State Fault Refusal :=
  done <| s.when (s.domOn 2 && s.rd BZL_STATUS_HS_STATE == 5 && s.on BZL_STATUS_SEATED) fun s =>
    ((s.inc BZL_FLT_CAUSE_RETRIES).hsStart).raise 3 4

/-- RETRY_COUNT_RESET (R323): PG has been high for 1 s. -/
def execRetryCountReset (s : State) : Outcome State Fault Refusal :=
  done <| s.when (s.domOn 2 && s.on BZL_STATUS_PG) (·.wr BZL_FLT_CAUSE_RETRIES 0)

/-- CLEAR and ON are rejected while a FET fault is held (R320). -/
def fetChk (s : State) : Nat := if s.fetFault then 3 else 0

/-- The command bit of HS_CLEAR (R324). -/
def cmdHsClear : Cmd :=
  Cmd.mk BZL_HS_CMD_CLEAR fetChk fun s =>
    s.clearCauses.when (s.rd BZL_STATUS_HS_STATE == 5 || s.rd BZL_STATUS_HS_STATE == 6) (·.hsStart)

/-- HS_CLEAR (R324): clears a latched fault, ends a cool-off, and restarts. -/
def execHsClear (p : Path) (s : State) : Outcome State Fault Refusal :=
  done <| s.runCmd p cmdHsClear

/-- The command bit of HS_ON (R325). -/
def cmdHsOn : Cmd :=
  Cmd.mk BZL_HS_CMD_ON fetChk fun s =>
    s.when (s.rd BZL_STATUS_HS_STATE == 0) fun s => if s.bzl.latched = 0 then s.hsStart else s.hsEnter s.bzl.latched

/-- HS_ON (R325): leaves state 0.  A fault latched before OFF is still latched. -/
def execHsOn (p : Path) (s : State) : Outcome State Fault Refusal :=
  done <| s.runCmd p cmdHsOn

/-- The command bit of HS_OFF (R325). -/
def cmdHsOff : Cmd :=
  Cmd.mk BZL_HS_CMD_OFF okChk fun s => s.gateDown.when (!s.fetFault) (·.hsEnter 0)

/-- HS_OFF (R325): the gate is pulled down, PG drops and the state is 0; a FET fault stays. -/
def execHsOff (p : Path) (s : State) : Outcome State Fault Refusal :=
  done <| s.runCmd p cmdHsOff

/-- The ranges of HS_CFG0 and HS_CFG1. -/
def hsCfgBad (w v : Nat) : Bool :=
  if w = 0 then
    let cb := bitsOf v 23 16; let il := bitsOf v 15 8
    cb == 0 || decide (cb > 100) || decide (il < 20) || decide (il > 200)
  else
    let pl := bitsOf v 23 16; let th := bitsOf v 7 0
    bitsOf v 31 24 == 0 || pl == 0 || decide (pl > 200) || decide (bitsOf v 10 8 > 4) || decide (th < 16) || decide (th > 240)

/-- HS_CFG_WRITE (R326): a write of HS_CFG0 (`w` 0) or HS_CFG1 (`w` 1) takes effect when it completes. -/
def execHsCfgWrite (p : Path) (w v : Nat) (s : State) : Outcome State Fault Refusal :=
  done <|
    let w := if w = 0 then 0 else 1
    s.writeOwn p (BZL_HS_CFG0_ILIM.addr + 4 * w) v (fun _ => if hsCfgBad w v then 1 else 0) fun s =>
      let s := if w = 0 then (s.wr BZL_HS_CFG0_CB_TIME (bitsOf v 23 16)).wr BZL_HS_CFG0_ILIM (bitsOf v 15 8)
        else (((s.wr BZL_HS_CFG1_PG_DELAY (bitsOf v 31 24)).wr BZL_HS_CFG1_PLIM (bitsOf v 23 16)).wr BZL_HS_CFG1_IGATE
          (bitsOf v 10 8)).wr BZL_HS_CFG1_PG_THR (bitsOf v 7 0)
      s.limitCheck

/-! ## The monitor (R329) -/

/-- Energy of a sample in pJ: VIN_MAIN (mV) × current, over 10 µs; the current is VSNS (µV) ÷ RSHUNT (µΩ). -/
def State.samplePj (s : State) (x : Nat × Nat × Nat) : Nat := x.2.1 * x.2.2 * 10000 / s.rd BZL_RSHUNT_UOHM

/-- The mean of a list of numbers, rounded down. -/
def meanOf (l : List Nat) : Nat := l.sum / l.length

/-- MONITOR_AVERAGE (R329): an averaging period ends; a sample is VOR (mV), VIN_MAIN (mV) and VSNS (µV). -/
def execMonitorAverage (samples : List (Nat × Nat × Nat)) (s : State) : Outcome State Fault Refusal :=
  done <| s.when (s.domOn 2 && samples.length == 2 ^ s.rd BZL_MON_CFG_AVG) fun s =>
    let pj := s.bzl.energyPj + (samples.map s.samplePj).sum
    let vor := meanOf (samples.map (·.1))
    let vin := meanOf (samples.map (·.2.1))
    let ma := meanOf (samples.map (·.2.2)) * 1000 / s.rd BZL_RSHUNT_UOHM
    let mw := vin * ma / 1000
    let s := s.modBzl (fun b => { b with energy := (b.energy + pj / 1000000) % 2 ^ 64, energyPj := pj % 1000000 })
    let s := s.wr BZL_ENERGY_LO s.bzl.energy
    let (a, s) := s.fitOr 16 (vor / 10)
    let (b, s) := s.fitOr 16 (vin / 10)
    let (c, s) := s.fitOr 16 ma
    let (d, s) := s.fitOr 24 mw
    let s := (((s.wr BZL_MON_V_VOR a).wr BZL_MON_V_VIN_MAIN b).wr BZL_MON_I_MA c).wr BZL_MON_P_MW d
    let iw := s.rd BZL_ALM_CFG_I_WARN; let pw := s.rd BZL_ALM_CFG_P_WARN
    let io := iw != 0 && decide (ma > iw)
    let po := pw != 0 && decide (mw > pw * 100)
    let s := s.when ((io && !s.bzl.iOver) || (po && !s.bzl.pOver)) (·.raise 3 8)
    s.modBzl (fun b => { b with iOver := io, pOver := po })

/-- ENERGY_LO_READ (R329): a read of ENERGY_LO latches ENERGY_HI for the path. -/
def execEnergyLoRead (p : Path) (s : State) : Outcome State Fault Refusal :=
  done <| s.readOwn p BZL_ENERGY_LO.addr (·.rd BZL_ENERGY_LO) fun s => s.wr (BZL_ENERGY_HI.onPath p) (s.bzl.energy / 2 ^ 32)

end Sys2Proof.Machine
end

