-- ==== Sys2Proof/Machine/Service.lean ====
section
/-!
DEFINITION. The service port (`16_service_port.md`): CC attach and detach, the reduced service configuration, the PD
physical and protocol layer, and VBUS protection.
-/

namespace Sys2Proof.Machine

open Host (Outcome)

/-! ## Type-C detection (R333–R335) -/

/-- CC_ATTACH (R333, R352): a partner was seen on a CC pin for tCCDebounce; `rp` is the Rp level it presents, or 0 for Rd, and
`vbus` is VBUS in 10 mV.  A source partner attaches the port as a sink where it presents Rd and VBUS is there, a sink
partner as a source where it presents Rp; with TRY_SNK a DRP tries the sink role first. -/
def execCcAttach (cc2 : Bool) (rp vbus : Nat) (s : State) : Outcome State Fault Refusal :=
  done <| State.ccShow <| s.when (s.domOn 2 && !s.on SVC_TC_STATUS_ATTACHED) fun s =>
    let s := (s.wr SVC_VB_STATUS_VBUS vbus).flag SVC_TC_STATUS_VBUS_OK (decide (vbus > 475))
    let st := s.tcState
    if rp % 4 ≠ 0 then
      if st = 1 ∨ st = 2 ∨ st = 7 then
        if vbus > 367 then s.svcAttach false cc2 (rp % 4) else s.wr SVC_TC_STATUS_STATE (if st = 7 then 7 else 2)
      else s
    else if st = 4 ∨ st = 5 then
      if s.rd SVC_TC_CTRL_MODE = 2 ∧ s.on SVC_TC_CTRL_TRY_SNK then s.wr SVC_TC_STATUS_STATE 7 else s.svcAttach true cc2 0
    else if st = 7 then s.wr SVC_TC_STATUS_STATE 8
    else if st = 8 then s.svcAttach true cc2 0
    else s

/-- DRP_TOGGLE (R333): in DRP mode an unattached port alternates between Rd and Rp. -/
def execDrpToggle (s : State) : Outcome State Fault Refusal :=
  done <| s.when (s.domOn 2 && s.rd SVC_TC_CTRL_MODE == 2 && (s.tcState == 1 || s.tcState == 4)) fun s =>
    (s.wr SVC_TC_STATUS_STATE (if s.tcState = 1 then 4 else 1)).ccShow

/-- SINK_DETACH (R334): VBUS (10 mV) has been below 3.67 V for the detach filter time; SWAP_HOLD suspends the filter. -/
def execSinkDetach (vbus : Nat) (s : State) : Outcome State Fault Refusal :=
  done <| s.when (s.domOn 2 && s.tcState == tcSnk && !s.on SVC_TC_CTRL_SWAP_HOLD && decide (vbus < 367)) fun s =>
    ((s.wr SVC_VB_STATUS_VBUS vbus).flag SVC_TC_STATUS_VBUS_OK false).svcDetach

/-- SOURCE_DETACH (R334): the partner's CC has been open for tPDDebounce. -/
def execSourceDetach (s : State) : Outcome State Fault Refusal :=
  done <| s.when (s.domOn 2 && s.tcState == tcSrc) (·.svcDetach)

/-- RP_CHANGE (R333): the partner's Rp level changed. -/
def execRpChange (rp : Nat) (s : State) : Outcome State Fault Refusal :=
  done <| s.when (s.domOn 2 && s.tcState == tcSnk && s.rd SVC_TC_STATUS_RP_SEEN != rp % 4) fun s =>
    (s.wr SVC_TC_STATUS_RP_SEEN rp).raise 4 6

/-- BEZEL_POWER_UP (R13, R335): D2 comes up, and VDD_AON for D0 with it; the CC logic takes over; with VBUS present (10 mV) it starts in
Attached.SNK. -/
def execBezelPowerUp (vbus rp : Nat) (cc2 : Bool) (s : State) : Outcome State Fault Refusal :=
  done <| s.when (!s.svc.up) fun s =>
    let s := ((s.setDom 2 ⟨.on, false, false⟩).setDom 0 ⟨.on, false, false⟩).setDomainUp 2 true
    let s := { s with chip := { s.chip with d0Up := true } }
    let s := (s.modSvc (fun v => { v with up := true })).setLife 4 lifeOn
    let s := (s.wr SVC_VB_STATUS_VBUS vbus).flag SVC_TC_STATUS_VBUS_OK (decide (vbus > 475))
    if vbus > 367 then s.svcAttach false cc2 rp else (s.wr SVC_TC_STATUS_STATE s.tcIdle).ccShow

/-! ## Sink power (R336–R339) -/

/-- SERVICE_LEVEL_CHANGE (R337): the level follows the allowed power; a change is recorded.  An update that is being written
goes on, and what it uses goes off after it; a rise brings up its domains once the rails are up (B2).  At the Wait level every rail is off, and the ledger records B1 as the step reached (R392). -/
def execServiceLevelChange (s : State) : Outcome State Fault Refusal :=
  done <| s.when (s.domOn 2 && s.on SVC_TC_STATUS_DEAD_BATT && s.allowedLevel != s.svc.level) fun s =>
    let new := s.allowedLevel
    let old := s.svc.level
    let s := (s.modSvc (fun v => { v with level := new })).powerRecord 4 6
    if new > old then s.when (decide (s.step_ ≥ 3)) (foldS (levelDoms new) (fun s d => s.domRequest d))
    else if s.rd BOOT_UPD_STATUS_PHASE = 3 then s
    else s.levelFall

/-- MAIN_PWR (R338): LINE or AUX became valid while DEAD_BATT is 1. -/
def execMainPwr (s : State) : Outcome State Fault Refusal :=
  done <| s.when (s.domOn 2 && s.on SVC_TC_STATUS_DEAD_BATT && s.mainValid) fun s => (s.raise 4 8).svcUpdate

/-- SRC_EN_WRITE (R339): a write of VB_CTRL.SRC_EN. -/
def execSrcEnWrite (p : Path) (en : Bool) (s : State) : Outcome State Fault Refusal :=
  done <| s.writeOwn p SVC_VB_CTRL_SRC_EN.addr (2 * en.toNat + s.rd SVC_VB_CTRL_SNK_EN)
    (fun s => if en && s.on SVC_TC_STATUS_DEAD_BATT then 3 else s.policyChk p)
    (fun s => (s.flag SVC_VB_CTRL_SRC_EN en).svcUpdate)

/-! ## PD messages (R340–R343) -/

/-- The control-message type of a message, 0 for a data or extended message. -/
def pdControl (h : Nat) : Nat := if bitsOf h 15 15 = 0 ∧ bitsOf h 14 12 = 0 then bitsOf h 4 0 else 0

/-- PD_MESSAGE_RX (R340, R343): a message arrives: SOP type, bytes, CRC check, and whether it started before the first
preamble bit of a transmission had left. -/
def execPdMessageRx (sop : Nat) (msg : List Byte) (crcOk early : Bool) (s : State) : Outcome State Fault Refusal :=
  done <| s.when (s.domOn 2 && s.on SVC_PD_CTRL_RX_EN && s.on SVC_TC_STATUS_ATTACHED && decide (sop < 3)
      && s.bit SVC_PD_CTRL_SOP_MASK sop && decide (msg.length ≤ 30)) fun s =>
    let s := s.when (s.svc.tx.isSome && (early || s.svc.caWait)) (·.txEnd 4)
    if !crcOk then s.inc SVC_RX_CRC_ERR
    else
      let h := leNat (msg.take 2)
      let id := bitsOf h 11 9
      let c := pdControl h
      if c = 1 then
        match s.svc.tx with
        | some (sp, m) =>
          s.when (sp == sop && bitsOf (leNat (m.take 2)) 11 9 == id && !s.svc.caWait) fun s =>
            (s.modSvc (fun v => { v with txId := tset v.txId sop ((tget 0 v.txId sop + 1) % 8) })).txEnd 2
        | none => s
      else
        let s := s.when (c == 13) (·.modSvc (fun v => { v with lastRx := tdel v.lastRx sop, txId := tdel v.txId sop }))
        if tget? s.svc.lastRx sop = some id then (s.emit (.pdTx sop (s.goodCrc id))).inc SVC_RX_DUP
        else if s.svc.fifo.length ≥ 4 then (s.flag SVC_RX_STAT_OVF true).raise 4 7
        else
          let s := (s.emit (.pdTx sop (s.goodCrc id))).modSvc (fun v =>
            { v with fifo := v.fifo ++ [(sop, msg)], lastRx := tset v.lastRx sop id })
          s.showRx.raise 4 2

/-- PD_RX_POP (R340): a read of RX_BUF7 removes the head message. -/
def execPdRxPop (p : Path) (s : State) : Outcome State Fault Refusal :=
  done <| s.readOwn p (SVC_RX_BUF 7).addr (·.rd (SVC_RX_BUF 7)) fun s =>
    (s.modSvc (fun v => { v with fifo := v.fifo.drop 1 })).showRx

/-- A write of TX_CTRL with AMS_START = 0 returns the source to SinkTxOK (R342). -/
def State.sinkOk (s : State) : State :=
  s.when s.svc.sinkNg (fun s => (s.modSvc (fun v => { v with sinkNg := false })).ccShow)

/-- The fields of TX_CTRL are in range. -/
def txCtrlBad (v : Nat) : Bool := decide (bitsOf v 15 8 < 2 ∨ bitsOf v 15 8 > 30 ∨ bitsOf v 3 1 > 2)

/-- What SEND does (R341, R342). -/
def State.pdSend (s : State) : State :=
  let ams := s.on SVC_TX_CTRL_AMS_START
  let s := s.when (!ams) (·.sinkOk)
  let sop := s.rd SVC_TX_CTRL_SOP
  let s := s.wr SVC_TX_STATUS_ATTEMPTS 0
  if !s.on SVC_TC_STATUS_ATTACHED then s.txEnd 6
  else
    let src := s.on SVC_TC_STATUS_PWR_ROLE
    if s.on SVC_PD_CTRL_CA_EN && ams && !src && s.rd SVC_TC_STATUS_RP_SEEN == 2 then s.txEnd 5
    else
      let s := (s.wr SVC_TX_STATUS_RESULT 1).modSvc (fun v => { v with tx := some (sop, s.txMessage sop (s.rd SVC_TX_CTRL_LEN)) })
      if s.on SVC_PD_CTRL_CA_EN && ams && src then
        (s.modSvc (fun v => { v with caWait := true, sinkNg := true })).ccShow
      else s.pdTransmit

/-- SEND (R341): a write of TX_CTRL with SEND = 1; `v` is the word written. -/
def execPdSend (p : Path) (v : Nat) (s : State) : Outcome State Fault Refusal :=
  done <| s.writeOwn p SVC_TX_CTRL_SEND.addr v
    (fun s => if txCtrlBad v then 1 else if s.policyChk p ≠ 0 then 3 else if s.rd SVC_TX_STATUS_RESULT = 1 then 3 else 0)
    (fun s => (((s.wr SVC_TX_CTRL_LEN (bitsOf v 15 8)).wr SVC_TX_CTRL_AMS_START (bitsOf v 4 4)).wr SVC_TX_CTRL_SOP (bitsOf v 3 1)).pdSend)

/-- PD_CA_DELAY_END (R342): the source transmits. -/
def execPdCaDelayEnd (s : State) : Outcome State Fault Refusal := done (s.when s.svc.caWait (·.pdTransmit))

/-- GOODCRC_TIMEOUT (R341): the message is retried, or fails. -/
def execGoodcrcTimeout (s : State) : Outcome State Fault Refusal :=
  done <| s.when (s.svc.tx.isSome && !s.svc.caWait) fun s =>
    if s.rd SVC_TX_STATUS_ATTEMPTS ≤ s.rd SVC_PD_CTRL_RETRIES then s.pdTransmit else (s.inc SVC_TX_FAIL).txEnd 3

/-- HARD_RESET_RX (R343): a Hard Reset was received. -/
def execHardResetRx (s : State) : Outcome State Fault Refusal :=
  done <| s.when (s.domOn 2 && s.on SVC_TC_STATUS_ATTACHED) fun s =>
    (((s.when s.svc.tx.isSome (·.txEnd 7)).pdClear).incSat SVC_EVT_CNT_HARD_RESETS).raise 4 4

/-- A Hard Reset or Cable Reset is sent, with the same clearing (R343). -/
def State.pdResetSend (s : State) (kind : Nat) : State :=
  let s := (s.when s.svc.tx.isSome (·.txEnd 7)).pdClear
  ((s.when (kind == 0) (·.incSat SVC_EVT_CNT_HARD_RESETS)).emit (.pdReset kind)).raise 4 3

/-- The command bit of HARD_RESET (R343). -/
def cmdHardReset (p : Path) : Cmd :=
  Cmd.mk SVC_PD_CTRL_HARD_RESET (·.policyChk p) (·.pdResetSend 0)

/-- HARD_RESET (R343). -/
def execHardReset (p : Path) (s : State) : Outcome State Fault Refusal :=
  done <| s.runCmd p (cmdHardReset p)

/-- The command bit of CABLE_RESET (R343). -/
def cmdCableReset (p : Path) : Cmd :=
  Cmd.mk SVC_PD_CTRL_CABLE_RESET (·.policyChk p) (·.pdResetSend 1)

/-- CABLE_RESET (R343). -/
def execCableReset (p : Path) (s : State) : Outcome State Fault Refusal :=
  done <| s.runCmd p (cmdCableReset p)

/-! ## Power-role swap (R344) -/

/-- SWAP_HOLD_WRITE (R344): a write of TC_CTRL.SWAP_HOLD. -/
def execSwapHoldWrite (p : Path) (v : Bool) (s : State) : Outcome State Fault Refusal :=
  done <| s.writeOwn p SVC_TC_CTRL_SWAP_HOLD.addr (SVC_TC_CTRL_SWAP_HOLD.put v.toNat (s.word SVC_TC_CTRL_SWAP_HOLD.addr)).toNat
    (·.policyChk p) (·.flag SVC_TC_CTRL_SWAP_HOLD v)

/-- SWAP_HOLD_EXPIRY (R344): after 1 s SWAP_HOLD clears itself. -/
def execSwapHoldExpiry (s : State) : Outcome State Fault Refusal := done (s.when (s.domOn 2) (·.flag SVC_TC_CTRL_SWAP_HOLD false))

/-- The role in force follows TC_CTRL.PWR_ROLE at an attached port (R344). -/
def State.pwrRoleWritten (s : State) : State :=
  s.when (s.on SVC_TC_STATUS_ATTACHED) fun s =>
    let src := s.on SVC_TC_CTRL_PWR_ROLE
    ((s.flag SVC_TC_STATUS_PWR_ROLE src).wr SVC_TC_STATUS_STATE (if src then tcSrc else tcSnk)).svcUpdate

/-- PWR_ROLE_WRITE (R344): a write of TC_CTRL.PWR_ROLE moves Rp, Rd and the switch direction. -/
def execPwrRoleWrite (p : Path) (src : Bool) (s : State) : Outcome State Fault Refusal :=
  done <| s.writeOwn p SVC_TC_CTRL_PWR_ROLE.addr (SVC_TC_CTRL_PWR_ROLE.put src.toNat (s.word SVC_TC_CTRL_PWR_ROLE.addr)).toNat
    (fun s => if src && s.on SVC_TC_STATUS_DEAD_BATT then 3 else s.policyChk p)
    (fun s => (s.flag SVC_TC_CTRL_PWR_ROLE src).pwrRoleWritten)

/-! ## VBUS protection (R346, R347) -/

/-- The signed current of VB_STATUS.MA. -/
def State.vbMa (s : State) : Int := let m := s.rd SVC_VB_STATUS_MA; if m ≥ 32768 then (m : Int) - 65536 else m

/-- The conditions of OVP, OCP and RCP hold now; reverse current is against the direction of the switch. -/
def State.vbCond (s : State) : Bool × Bool × Bool :=
  let ma := s.vbMa
  let rev := if s.tcState = tcSrc then ma else -ma
  (decide (s.rd SVC_VB_STATUS_VBUS > s.rd SVC_VB_CFG_OVP_THR * 10), decide (ma.natAbs > s.rd SVC_VB_CFG_OCP_THR * 50),
    decide (rev > ((s.rd SVC_VB_CFG_RCP_THR * 10 : Nat) : Int)))

/-- Faults whose condition holds latch, and the switch opens (R346). -/
def State.vbProtect (s : State) : State :=
  let (ov, oc, rc) := s.vbCond
  let new := (ov && !s.on SVC_VB_FLT_OVP) || (oc && !s.on SVC_VB_FLT_OCP) || (rc && !s.on SVC_VB_FLT_RCP)
  let s := ((s.when ov (·.wr SVC_VB_FLT_OVP 1)).when oc (·.wr SVC_VB_FLT_OCP 1)).when rc (·.wr SVC_VB_FLT_RCP 1)
  s.when new (fun s => (s.raise 4 5).svcUpdate)

/-- VBUS_FAULT (R346): VBUS (10 mV) and the current (mA, positive into the hub) reach these values. -/
def execVbusFault (vbus : Nat) (ma : Int) (s : State) : Outcome State Fault Refusal :=
  done <| s.when (s.domOn 2) fun s =>
    let s := (s.wr SVC_VB_STATUS_VBUS vbus).wr SVC_VB_STATUS_MA (ma % 65536).toNat
    (s.flag SVC_TC_STATUS_VBUS_OK (decide (vbus > 475))).vbProtect

/-- The command bit of VB_CLEAR (R346). -/
def cmdVbClear (p : Path) : Cmd :=
  Cmd.mk SVC_VB_CTRL_CLEAR (fun s =>
      let (ov, oc, rc) := s.vbCond
      if (ov && s.on SVC_VB_FLT_OVP) || (oc && s.on SVC_VB_FLT_OCP) || (rc && s.on SVC_VB_FLT_RCP) then 3 else s.policyChk p) (fun s => (((s.wr SVC_VB_FLT_OVP 0).wr SVC_VB_FLT_OCP 0).wr SVC_VB_FLT_RCP 0).svcUpdate)

/-- VB_CLEAR (R346): clears latched faults; refused while the condition of one persists. -/
def execVbClear (p : Path) (s : State) : Outcome State Fault Refusal :=
  done <| s.runCmd p (cmdVbClear p)

/-- The check of a new OVP_THR (R347): its range, and the present VBUS + 0.5 V. -/
def State.ovpBad (s : State) (v : Nat) : Bool :=
  decide (v < 55 ∨ v > 220 ∨ v * 10 < s.rd SVC_VB_STATUS_VBUS + 50)

/-- OVP_THR_WRITE (R347): a write of VB_CFG.OVP_THR. -/
def execOvpThrWrite (p : Path) (v : Nat) (s : State) : Outcome State Fault Refusal :=
  done <| s.writeOwn p SVC_VB_CFG_OVP_THR.addr (SVC_VB_CFG_OVP_THR.put v (s.word SVC_VB_CFG_OVP_THR.addr)).toNat
    (fun s => if s.ovpBad (v % 256) then 1 else 0) (fun s => s.wr SVC_VB_CFG_OVP_THR v)

end Sys2Proof.Machine
end

