-- ==== Sys2Proof/Machine/Power.lean ====
section
/-!
DEFINITION. Power states, domains on demand, link idle and suspension, core voltage, boost and thermal limits
(`17_power_states.md`).  The rail scripts are in `Rails.lean`.
-/

namespace Sys2Proof.Machine

open Host (Outcome)

def State.modPw (s : State) (n : Nat) (f : LinkIdle → LinkIdle) : State := s.modPort n (fun p => { p with pw := f p.pw })

/-! ## Link idle and suspension (R355, R356) -/

/-- The transmit queues of a link port are empty. -/
def State.txEmpty (s : State) (n : Nat) : Bool := (List.range 8).all (fun tc => (s.queue (8 * n + tc)).isEmpty)

/-- Send an IDLE_REQ with a power state and the cycle from which it applies. -/
def State.sendIdleReq (s : State) (n power cycle : Nat) : State :=
  (s.queueUnit n (.state 2 power cycle)).modPw n (fun w => { w with req := some (power, cycle) })

/-- Send the IDLE_REQ of a descent to every ACTIVE native port that is not suspended: its apply cycle lies 8 cycles ahead. -/
def State.suspendLinks (s : State) (target : Nat) : State :=
  foldS [0, 1, 2] (fun s n => s.when (s.native n && !(s.port n).pw.suspended && (s.port n).pw.applyAt.isNone)
    (fun s => s.sendIdleReq n target (cycAdd s.cycle 8))) s

/-- Partial idle of a port whose queues are empty. -/
def State.goIdle (s : State) (n : Nat) : State := s.modPw n (fun w => { w with idle := s.txEmpty n, asked := false })

/-- An epoch change, role swap or key replacement is in flight on the port (R356). -/
def State.portBusy (s : State) (n : Nat) : Bool :=
  s.epochInFlight n || (s.tr n).swap.isSome || s.rd (SEC_LINK_KEY_PHASE n) ≥ 2 || (s.lk n).since.isSome

/-- LINK_IDLE_TIMER (R355): the transmit queues have been empty for LIDLE_US. -/
def execLinkIdleTimer (n : Nat) (s : State) : Outcome State Fault Refusal :=
  done <| s.when (s.native n && s.rd PWR_LIDLE_US != 0 && s.txEmpty n && !(s.port n).pw.idle && !(s.port n).pw.suspended)
    fun s => s.sendIdleReq n (s.rd PWR_PS_STATUS_STATE) s.cycle

/-- IDLE_REQ (R81, R355, R356): the far end asks for partial idle (`power` below 2) or for suspension from a cycle. -/
def execIdleReq (n power cycle : Nat) (s : State) : Outcome State Fault Refusal :=
  done <| s.when (s.native n) fun s =>
    if power ≥ 2 then
      if s.portBusy n then s
      else (s.queueUnit n (.state 3 (s.rd PWR_PS_STATUS_STATE) cycle)).modPw n (fun w => { w with applyAt := some cycle })
    else if s.txEmpty n then (s.queueUnit n (.state 3 (s.rd PWR_PS_STATUS_STATE) cycle)).goIdle n
    else s.modPw n (fun w => { w with asked := true })

/-- A partial idle asked for by the far end is answered once the queues are empty (R355). -/
def State.answerIdle (s : State) (n : Nat) : State :=
  s.when (s.native n && (s.port n).pw.asked && s.txEmpty n)
    (fun s => (s.queueUnit n (.state 3 (s.rd PWR_PS_STATUS_STATE) s.cycle)).goIdle n)

/-- IDLE_ACK (R81, R355, R356): the far end accepts this end's request. -/
def execIdleAck (n power cycle : Nat) (s : State) : Outcome State Fault Refusal :=
  done <| s.when (s.native n) fun s =>
    let s := s.modPw n (fun w => { w with farPower := power })
    match (s.port n).pw.req with
    | none => s
    | some (pw, c) =>
      let s := s.modPw n (fun w => { w with req := none })
      if pw ≥ 2 then s.when (c == cycle) (·.modPw n (fun w => { w with applyAt := some c })) else s.goIdle n

/-- LINK_SUSPEND (R356): from the apply cycle both ends hold the link suspended. -/
def execLinkSuspend (n : Nat) (s : State) : Outcome State Fault Refusal :=
  done <| s.when (s.native n) fun s =>
    match (s.port n).pw.applyAt with
    | some c => s.when (cycGe s.cycle c)
        (·.modPw n (fun w => { w with applyAt := none, suspended := true, resuming := false, idle := false }))
    | none => s

/-- Put an ACTIVE native link that is not suspended into partial idle for S1, whatever LIDLE_US is (R355). -/
def State.lull (s : State) (n : Nat) : State := s.when (s.native n && !(s.port n).pw.suspended) (fun s => s.sendIdleReq n 1 s.cycle)

/-- LINK_RESUME (R356, R382): after a glint, LOCK and 16 valid CYCLE messages resume the link, or resumption fails and the link is lost; a
key older than 96 h at resumption forces RETRAIN.  In S1 the link that resumes is put into partial idle. -/
def execLinkResume (n : Nat) (ok : Bool) (s : State) : Outcome State Fault Refusal :=
  done <| s.when (s.native n && (s.port n).pw.suspended && (s.port n).pw.resuming && (!ok || s.domOn (6 + n))) fun s =>
    let old := (s.lk n).cur.any (fun k => decide (cycSub s.cycle k.first ≥ 2764800000))
    if !ok then s.linkDown n 4
    else if old then (s.retrain n).raise 9 3
    else (s.modPw n (fun w => { w with suspended := false, resuming := false })).when (s.rd PWR_PS_STATUS_STATE == 1) (·.lull n)

/-! ## The state ladder (R350–R353, R358) -/

/-- Bank `b` is retained in a state: selected, and not in S5 (*Power states*). -/
def State.retained (s : State) (target b : Nat) : Bool := target ≤ 4 && s.bankRet b

/-- The buffer indices of the queued and kept cells of reliable tunnels. -/
def State.reliableBufs (s : State) : List Nat :=
  (s.gird.queues.flatMap (fun (e : Nat × List QFrame) =>
    (e.2.filter (fun f => s.reliable f.ctx)).flatMap (fun f => f.cells.map (·.buf)))) ++
  (s.ctxs.flatMap (fun (e : Nat × CtxS) => if s.reliable e.1 then e.2.kept.map (·.buf) else []))

/-- The failing entry conditions as the BLOCK bits (*Entry conditions for S2–S5*). -/
def State.entryBlock (s : State) (target : Nat) : Nat :=
  let b0 := (List.range 3).any (fun n => s.active n && !(s.port n).pw.suspended)
  let b1 := s.reliableBufs.any (fun i => !s.retained target (i / 2048))
  let b2 := (List.range 16).any (fun e => s.on (FAC_DB_BUSY e))
  let b3 := let ph := s.rd BOOT_UPD_STATUS_PHASE; 1 ≤ ph && ph ≤ 3
  let b4 := s.recd.flushTo.isSome || !s.stn.inFlight.isEmpty
  let b5 := s.on PMB_VSTAT_BUSY
  let b6 := s.pwr.wakePend
  b0.toNat + 2 * b1.toNat + 4 * b2.toNat + 8 * b3.toNat + 16 * b4.toNat + 32 * b5.toNat + 64 * b6.toNat

/-- Every queued frame that holds a cell in a bank that is not retained is discarded whole and counted (R358). -/
def State.retDiscard (s : State) (target : Nat) : State :=
  foldS s.gird.queues (fun s (e : Nat × List QFrame) =>
    foldS (e.2.filter (fun f => f.cells.any (fun x => !s.retained target (x.buf / 2048)))) (fun s f =>
      let s := foldS f.cells (fun s x => s.release x.buf) s
      ((s.removeFrame e.1 f.ctx f.id).inc PWR_RET_DISCARD f.cells.length).raise 1 3) s) s

/-- Power the banks that are retained; the others go down. -/
def State.keepBanks (s : State) (target : Nat) : State :=
  foldS (List.range 64) (fun s b =>
    let f := if b < 32 then GRD_BANK_UP_LO else GRD_BANK_UP_HI
    s.when (!s.retained target b) (·.setBit f (b % 32) false)) s

/-- D3–D15 but for the domains `keep` go off at once, their functions and settings kept. -/
def State.doms3Off (s : State) (keep : List Nat) : State :=
  foldS (((List.range 13).map (· + 3)).filter (fun d => !keep.contains d)) (fun s d => (s.setDom d {}).setDomainUp d false) s

/-- Entry into a state completes (R350): domains that are on are noted for the exit (a descent from S2 or below keeps those noted
before, and the voltage held before S3), and for S3 and S4 0.70 V is requested (R362).  In S2 D11 stays on where an event input holds it (R192); DEDUCED (log entry 133): its prerequisites D3 and D13 then stay on with it,
by R21. -/
def State.enterState (s : State) (target : Nat) : State :=
  let st := s.rd PWR_PS_STATUS_STATE
  let on := if st ≥ 2 then s.pwr.domsAtEntry else (List.range 16).filter s.domOn
  let v := if st ≥ 3 then s.pwr.vBefore else s.rd PMB_VSTAT_VNOW
  let s := s.modPwr (fun p => { p with entryPending := false, exiting := false, woken := false, wakePend := false, domsAtEntry := on,
                                        lineAtEntry := s.on BZL_STATUS_LINE_OK, vBefore := v })
  let s := (((s.wr PWR_PS_STATUS_STATE target).wr PWR_PS_STATUS_RESULT 1).wr PWR_PS_STATUS_BLOCK 0).raise 1 0
  if target = 1 then
    foldS [0, 1, 2] (fun s n => s.lull n) s
  else
    let keep := if target = 2 ∧ s.eviHolds then [3, 11, 13].filter s.domOn else []
    let s := ((s.retDiscard target).keepBanks target).doms3Off keep
    s.when (target == 3 || target == 4) (·.vRequest 0)

/-- A request for S2 or below is taken back or abandoned: links asked to suspend are not, and suspended ones are resumed. -/
def State.entryDropped (s : State) : State :=
  foldS [0, 1, 2] (fun s n => (s.modPw n (fun w => { w with req := none })).resumeLink n)
    (s.modPwr (fun p => { p with entryPending := false, wakePend := false }))

/-- What a write of TARGET does (R350, R367): a deeper state is requested; the present state takes back what was requested; S2 or S3 from
below is entered at once, its domains being off already; S0 or S1 from below, and every state from S5, is reached by an exit.  DEDUCED (log
entry 148): a write during an exit waits for its end. -/
def State.targetWritten (s : State) (t : Nat) : State :=
  let s := s.wr PWR_PS_CTRL_TARGET t
  let st := s.rd PWR_PS_STATUS_STATE
  if s.pwr.exiting then s
  else if t > st then
    if t = 1 then s.enterState 1
    else (s.modPwr (fun p => { p with entryPending := true, wakePend := false })).suspendLinks t
  else
    let s := s.when s.pwr.entryPending (·.entryDropped)
    if t = st then s
    else if 2 ≤ t ∧ st < 5 then
      (((s.wr PWR_PS_STATUS_STATE t).wr PWR_PS_STATUS_RESULT 1).raise 1 0).when (t == 2) (·.vRequest s.pwr.vBefore)
    else ((s.modPwr (fun p => { p with woken := false })).when (st == 5) (·.enterStep 2)).exitBegin

/-- TARGET_WRITE (R350): a write of PS_CTRL.TARGET requests a state. -/
def execTargetWrite (p : Path) (t : Nat) (s : State) : Outcome State Fault Refusal :=
  done <| s.writeOwn p PWR_PS_CTRL_TARGET.addr (PWR_PS_CTRL_TARGET.put t (s.word PWR_PS_CTRL_TARGET.addr)).toNat
    (fun _ => if t % 8 > 5 then 1 else 0) (·.targetWritten (t % 8))

/-- ENTRY_TIMEOUT (R350): the conditions did not all hold within ENTRY_TO.  DESIGN CHOICE (log entry 149): BLOCK goes on showing those that
fail now. -/
def execEntryTimeout (s : State) : Outcome State Fault Refusal :=
  done <| s.when s.pwr.entryPending fun s =>
    let s := s.wr PWR_PS_STATUS_BLOCK (s.entryBlock (s.rd PWR_PS_CTRL_TARGET))
    let s := ((s.wr PWR_PS_STATUS_RESULT 2).wr PWR_PS_CTRL_TARGET (s.rd PWR_PS_STATUS_STATE)).incSat PWR_PS_CNT_BLOCKED
    (s.raise 1 1).entryDropped

/-- WAKE_EVENT (R351, R352): a wake event of a source. -/
def execWakeEvent (cause : Nat) (s : State) : Outcome State Fault Refusal :=
  done (s.when (decide (1 ≤ cause ∧ cause ≤ 9)) (·.wakeBy cause))

/-- WAKE_PIN (R352): WAKE# has been low for 1 µs. -/
def execWakePin (s : State) : Outcome State Fault Refusal := done (s.wakeBy 5)

/-- STATE_EXIT_COMPLETE (R351, R362): every domain that was on at entry is up again; the state reads S0, and a TARGET written meanwhile is
then applied (R367). -/
def execStateExitComplete (s : State) : Outcome State Fault Refusal :=
  done <| s.when (s.pwr.exiting && s.pwr.domsAtEntry.all s.domOn) fun s =>
    let was := s.rd PWR_PS_STATUS_STATE
    let t := s.rd PWR_PS_CTRL_TARGET
    let s := (s.wr PWR_PS_STATUS_RESULT (if s.pwr.woken then 3 else 1)).modPwr (fun p => { p with exiting := false, woken := false, wakePend := false })
    let s := ((s.wr PWR_PS_STATUS_STATE 0).incSat PWR_PS_CNT_WAKES).raise 1 0
    let s := foldS [0, 1, 2] (fun s n => s.modPw n (fun w => { w with idle := false })) s
    (s.when (was == 3 || was == 4) (·.vRequest s.pwr.vBefore)).when (t != 0) (·.targetWritten t)

/-- ALARM_FIRE (R352): the armed alarm time is reached. -/
def execAlarmFire (s : State) : Outcome State Fault Refusal :=
  done <| s.when (s.on PWR_ALARM_CTRL_ARM && decide (s.now ≥ s.rd PWR_ALARM_S * 1000000000 + s.rd PWR_ALARM_NS)) fun s =>
    ((s.flag PWR_ALARM_CTRL_ARM false).raise 1 4).wakeBy 6

/-- VIGIL_SAMPLE (R357): in S4 the sampler finds a difference of an input that it samples, or none (0); LINE differs when it was invalid at
entry. -/
def execVigilSample (cause : Nat) (s : State) : Outcome State Fault Refusal :=
  done (s.when (s.rd PWR_PS_STATUS_STATE == 4 && ([1, 2, 3, 4, 7, 9] : List Nat).contains cause && (cause != 7 || !s.pwr.lineAtEntry)) (·.wakeBy cause))

/-! ## Domains on demand (R354) -/

/-- The engines that a domain carries (R293). -/
def domEngines (d : Nat) : List Nat := if d = 13 then List.range 8 else if d = 14 then (List.range 8).map (· + 8) else []

/-- The pages whose functions a domain carries; the buffer banks serve the girdle. -/
def domFunctions (d : Nat) : List Nat := if d = 4 ∨ d = 5 then [13] else domPages d

/-- DOMAIN_IDLE_OFF (R354, R382): the functions of a domain have all been OFF for DOM_IDLE ms; DEDUCED (log entry 150): those of D13 and D14
are their engines. -/
def execDomainIdleOff (d : Nat) (s : State) : Outcome State Fault Refusal :=
  done <| s.when (decide (3 ≤ d ∧ d ≤ 15) && s.rd PWR_PS_STATUS_STATE == 0 && s.domOn d && !s.bit PWR_KEEP d
      && !(d == 3 && (List.range 256).any (fun c => s.ctxLife c != lifeOff))
      && !(d == 11 && s.eviHolds) && (domEngines d).all (fun e => s.engState e == engOff)
      && !(d == 15 && (List.range 3).any (fun n => s.on (LNK_STATUS_KEYS_ON n)))
      && (domFunctions d).all (fun p => !s.lifeImpl p || s.rd (PG_STATE_LIFE p) == lifeOff)) (·.domOffReq d)

/-! ## Core voltage (R94, R359, R360) -/

/-- The check of a voltage request (R360, R364). -/
def State.vreqChk (s : State) (v : Nat) : Nat :=
  if v > 40 ∨ v < s.rd PWR_VMIN_DECL then 1
  else if v > 20 ∧ !s.on PMB_BOOST_ALLOWED then 3
  else if s.on THM_STATUS_HOT ∧ v > s.rd PWR_VMIN_DECL then 3
  else 0

/-- VREQ_WRITE (R360): a write of VREQ starts or holds a core-voltage request. -/
def execVreqWrite (p : Path) (v : Nat) (s : State) : Outcome State Fault Refusal :=
  done <| s.writeOwn p PMB_VREQ.addr v (·.vreqChk (v % 64)) (fun s => (s.wr PMB_VREQ v).vRequest (v % 64))

/-- PMBUS_POLL (R359): STATUS_WORD is read; `held` tells that it and RAIL_PG0 have been good for 50 µs; `err` is 0, 4 (NACK) or
5 (PEC). -/
def execPmbusPoll (status : Nat) (pg0 held : Bool) (err : Nat) (s : State) : Outcome State Fault Refusal :=
  done <| s.when (s.on PMB_VSTAT_BUSY) fun s =>
    if err = 4 ∨ err = 5 then s.vFail err
    else
      let s := (s.wr PMB_STATUS_LAST status).modPwr (fun p =>
        { p with vErr := if status % 65536 ≠ 0 then 2 else if !pg0 then 3 else 1 })
      s.when (status % 65536 == 0 && pg0 && held) fun s =>
        let v := s.rd PMB_VSTAT_VTARGET
        let s := ((s.wr PMB_VSTAT_VNOW v).flag PMB_BOOST_ACTIVE (decide (v > 20))).flag PMB_VSTAT_FAIL false
        (s.raise 2 0).vEnd

/-- VREQ_TIMEOUT (R359): no acknowledgement within 2 ms. -/
def execVreqTimeout (s : State) : Outcome State Fault Refusal := done (s.when (s.on PMB_VSTAT_BUSY) (fun s => s.vFail s.pwr.vErr))

/-- The check of a new VMIN_DECL (R94). -/
def State.vminChk (s : State) (v : Nat) : Nat :=
  if v > 40 ∨ (v < s.rd PWR_VMIN_DECL ∧ s.chipLoad > girdleLimit v) then 1 else 0

/-- VMIN_DECL_WRITE (R94): a write of VMIN_DECL. -/
def execVminDeclWrite (p : Path) (v : Nat) (s : State) : Outcome State Fault Refusal :=
  done <| s.writeOwn p PWR_VMIN_DECL.addr v (·.vminChk (v % 64)) (fun s => s.wr PWR_VMIN_DECL v)

/-! ## Boost and thermal limits (R363, R364) -/

/-- A signed 16-bit register value. -/
def signed16 (v : Nat) : Int := if v % 65536 ≥ 32768 then ((v % 65536 : Nat) : Int) - 65536 else ((v % 65536 : Nat) : Int)

/-- Tj of the hottest sensor in 1/16 °C. -/
def State.tj (s : State) : Int := signed16 (s.rd THM_TJ_MAX_T)

/-- BOOST.ALLOWED: B ≥ 100 and Tj < 110 °C (R363). -/
def State.boostShow (s : State) : State :=
  s.flag PMB_BOOST_ALLOWED (decide (s.pwr.bucket / 1800 ≥ 100) && decide (s.tj < 1760))

/-- BOOST_TICK (R363): each millisecond the bucket, held in 1/180 ms, falls by 9 for each 5 mV above 0.80 V or rises by 20;
boost ends when it empties or Tj reaches 110 °C. -/
def execBoostTick (s : State) : Outcome State Fault Refusal :=
  let v := s.rd PMB_VSTAT_VNOW
  let b := if v > 20 then s.pwr.bucket - 9 * (v - 20) else min 10800000 (s.pwr.bucket + 20)
  let s := (s.modPwr (fun p => { p with bucket := b })).wr PMB_BOOST_BUCKET (b / 1800)
  let hot := decide (s.tj ≥ 1760)
  let s := s.boostShow
  let ending : Bool := (s.on PMB_VSTAT_BUSY && decide (s.rd PMB_VSTAT_VTARGET ≤ 20)) || s.pwr.vHeld.any (fun c => decide (c ≤ 20))
  done <| s.when (decide (v > 20) && (b == 0 || hot) && !ending) fun s => ((s.vRequest 20).raise 2 2).powerRecord 2 2

/-- THERMAL_HOT (R364): the hottest sensor reaches HOT. -/
def execThermalHot (s : State) : Outcome State Fault Refusal :=
  done <| s.when (!s.on THM_STATUS_HOT && decide (s.tj ≥ (s.rd THM_CFG_HOT * 16 : Nat))) fun s =>
    (((s.flag THM_STATUS_HOT true).vRequest (s.rd PWR_VMIN_DECL)).raise 5 1).powerRecord 5 1

/-- TJ_UPDATE (R364): the sensors are read, in 1/16 °C; WARN follows, and HOT is released below HOT − 5 °C. -/
def execTjUpdate (t0 t1 t2 t3 : Int) (s : State) : Outcome State Fault Refusal :=
  let ts := [t0, t1, t2, t3].map (fun t => signed16 (t % 65536).toNat)
  let hi := ts.foldl max (-32768)
  let s := foldS (ts.zip [0, 1, 2, 3]) (fun s (e : Int × Nat) => s.wr (THM_TJ e.2) (e.1 % 65536).toNat) s
  let s := (s.wr THM_TJ_MAX_T (hi % 65536).toNat).wr THM_TJ_MAX_SENSOR (ts.findIdx (fun t => t == hi))
  let s := s.boostShow
  let warn := decide (hi ≥ (s.rd THM_CFG_WARN * 16 : Nat))
  let s := s.when (warn && !s.on THM_STATUS_WARN) (·.raise 5 0)
  let s := s.flag THM_STATUS_WARN warn
  done <| s.when (s.on THM_STATUS_HOT && decide (hi < ((s.rd THM_CFG_HOT * 16 : Nat) : Int) - 80)) (·.flag THM_STATUS_HOT false)

end Sys2Proof.Machine
end

