-- ==== Sys2Proof/Machine/StationOps.lean ====
section
/-!
DEFINITION. Shared operations of the Ethernet ports and station services: BER, GOOSE and SV frames, subscription matching,
redundancy, egress of Ethernet frames, and the scribe's staging ring (`13_station_services.md`).
-/

namespace Sys2Proof.Machine

def State.modStn (s : State) (f : StationS → StationS) : State := { s with stn := f s.stn }

/-! ## BER (R282) -/

/-- A definite length field of 1–3 bytes. -/
def berLen : List Byte → Option (Nat × List Byte)
  | [] => none
  | x :: r =>
    if x.toNat < 128 then some (x.toNat, r)
    else if x.toNat = 0x81 then (match r with | a :: r => some (a.toNat, r) | [] => none)
    else if x.toNat = 0x82 then (match r with | a :: b :: r => some (256 * a.toNat + b.toNat, r) | _ => none)
    else none

/-- The first element: tag, content and rest. -/
def berNext : List Byte → Option (Nat × List Byte × List Byte)
  | [] => none
  | t :: r => match berLen r with
    | none => none
    | some (n, r) => if n ≤ r.length then some (t.toNat, r.take n, r.drop n) else none

/-- All elements of a content. -/
def berAll : Nat → List Byte → Option (List (Nat × List Byte))
  | _, [] => some []
  | 0, _ => none
  | n + 1, b => match berNext b with
    | none => none
    | some (t, c, r) => (berAll n r).map (fun l => (t, c) :: l)

/-- An element. -/
def berEnc (t : Nat) (c : List Byte) : List Byte :=
  let n := c.length
  beBytes 1 t ++ (if n < 128 then beBytes 1 n else if n < 256 then beBytes 1 0x81 ++ beBytes 1 n else beBytes 1 0x82 ++ beBytes 2 n) ++ c

/-- A non-negative integer in minimal BER. -/
def berNat (v : Nat) : List Byte :=
  beBytes (if v < 0x80 then 1 else if v < 0x8000 then 2 else if v < 0x800000 then 3 else if v < 0x80000000 then 4 else 5) v

/-- The content of the first element with a tag. -/
def berGet (l : List (Nat × List Byte)) (t : Nat) : Option (List Byte) := (l.find? (fun e => e.1 == t)).map (·.2)

/-! ## GOOSE and SV frames (R282, R284) -/

/-- Where the EtherType lies: one C-tag and the HSR tag are skipped. -/
def appOff (b : List Byte) : Nat :=
  let o := if halfAt b 12 = 0x8100 then 16 else 12
  if halfAt b o = 0x892F then o + 6 else o

/-- The elements of the PDU with tag `t`. -/
def pduElems (t : Nat) (b : List Byte) : Option (List (Nat × List Byte)) :=
  match berNext (b.drop (appOff b + 10)) with
  | some (u, c, _) => if u = t then berAll 64 c else none
  | none => none

/-- The ASDUs of an SV frame. -/
def svAsdus (b : List Byte) : Option (List (List (Nat × List Byte))) :=
  match (pduElems 0x60 b).bind (fun l => berGet l 0xA2) with
  | none => none
  | some c => match berAll 64 c with
    | none => none
    | some l => (l.filter (fun e => e.1 == 0x30)).mapM (fun e => berAll 64 e.2)

/-- gocbRef, or svID of the first ASDU. -/
def appRef (sv : Bool) (b : List Byte) : Option (List Byte) :=
  if sv then (match svAsdus b with | some (a :: _) => berGet a 0x80 | _ => none)
  else (pduElems 0x61 b).bind (fun l => berGet l 0x80)

/-- Subscription `i` matches a frame from an Ethernet port, or from point 12 (`none`) (R282). -/
def State.subMatches (s : State) (i : Nat) (port : Option Nat) (b : List Byte) : Bool :=
  let o := appOff b
  let sv := s.on (SUB_KIND i)
  s.on (SUB_EN i) && (match port with | some p => s.bit (SUB_PORTS i) p | none => s.on (SUB_TUN_IN i)) &&
  halfAt b o == (if sv then 0x88BA else 0x88B8) && halfAt b (o + 2) == s.rd (SUB_APPID i) &&
  beNat (b.take 6) == s.rd (SUB_DMAC i 0) + 2 ^ 32 * (s.rd (SUB_DMAC i 1) % 65536) &&
  (match appRef sv b with | some r => crc32c r == s.rd (SUB_REF_CRC i) | none => false)

/-- A frame is matched against the subscriptions in D11; the matches wait for their checks (R282). -/
def State.matchFrame (s : State) (port : Option Nat) (b : List Byte) (endQ : Nat) : State :=
  let et := halfAt b (appOff b)
  if (et ≠ 0x88B8 ∧ et ≠ 0x88BA) ∨ !s.isOn 36 then s
  else
    let l := (List.range 512).filter (fun i => s.subMatches i port b)
    s.modStn (fun t => { t with matched := t.matched ++ l.map (fun i => (i, b, endQ)) })

/-! ## Redundancy (R274–R276) -/

/-- MODE of the LRE of a port. -/
def State.lreMode (s : State) (port : Nat) : Nat := if s.isOn 35 then s.rd (RED_LRE_CTRL_MODE (port / 2)).inForce else 0

/-- The redundancy control trailer of a PRP frame (FCS included in `b`): sequence number and LanId. -/
def prpTrailer (b : List Byte) : Option (Nat × Nat) :=
  let n := b.length
  if n < 24 ∨ halfAt b (n - 6) ≠ 0x88FB then none
  else
    let w := halfAt b (n - 8)
    let hdr := if halfAt b 12 = 0x8100 then 18 else 14
    if w % 4096 ≠ n - 4 - hdr then none else some (halfAt b (n - 10), w / 4096)

/-- The HSR tag of a frame: sequence number. -/
def hsrTag (b : List Byte) : Option Nat :=
  let o := if halfAt b 12 = 0x8100 then 16 else 12
  if halfAt b o = 0x892F then some (halfAt b (o + 4)) else none

/-- This node's own MAC addresses at an LRE. -/
def State.lreOwn (s : State) (lre mac : Nat) : Bool :=
  tget? s.stn.mac (2 * lre) == some mac || tget? s.stn.mac (2 * lre + 1) == some mac

/-- The entry of a frame, still young (R275). -/
def State.dupFind (s : State) (lre mac seq : Nat) : Option DupEntry :=
  s.stn.dup.find? (fun e => e.lre == lre && e.mac == mac && e.seq == seq &&
    s.elapsed < e.at_ + 1000000 * s.rd RED_TIMES_ENTRY_FORGET)

/-- Note a frame's arrival on a port: a new entry, or one more port of a young one; a full table replaces its oldest entry. -/
def State.dupNote (s : State) (lre mac seq port : Nat) : State :=
  match s.dupFind lre mac seq with
  | some x => s.modStn (fun t =>
      { t with dup := t.dup.map (fun (e : DupEntry) => if e = x then { e with ports := e.ports ||| 2 ^ port } else e) })
  | none =>
    let l := s.stn.dup.filter (fun e => !(e.lre == lre && e.mac == mac && e.seq == seq))
    let s := s.when (l.length ≥ 4096) (·.inc RED_DUP_EVICT)
    s.modStn (fun t => { t with dup := (if l.length ≥ 4096 then l.drop 1 else l) ++ [⟨lre, mac, seq, 2 ^ port, s.elapsed⟩] })

/-- The node table learns a node from its supervision frames (R277); it is frozen while engine 7 reloads. -/
def State.nodeSeen (s : State) (lre : Nat) (b : List Byte) : State :=
  let mac := beNat ((b.drop 6).take 6)
  if s.rd (FAC_ENG_STATE_STATE 7) ≠ 2 ∨ beNat (b.take 5) ≠ 0x01154E0001 then s
  else
    let known := s.stn.nodes.any (fun e => e.1 == lre && e.2.1 == mac)
    if !known && s.stn.nodes.length ≥ 512 then s
    else
      let s := s.modStn (fun t => { t with nodes := t.nodes.filter (fun e => !(e.1 == lre && e.2.1 == mac)) ++ [(lre, mac, s.elapsed)] })
      s.when (!known) (·.raise 35 0)

/-- The next sequence number of an LRE. -/
def State.lreSeq (s : State) (lre : Nat) : Nat × State :=
  let n := tget 0 s.stn.redSeq lre
  (n, s.modStn (fun t => { t with redSeq := tset t.redSeq lre ((n + 1) % 65536) }))

/-! ## Egress (R272–R274) -/

/-- The port sends: its LIFE is ON and the link is up (R270). -/
def State.ethUp (s : State) (port : Nat) : Bool := s.isOn (31 + port) && s.on (ETH_STATUS_LINK port)

/-- A frame of the chip itself goes out on a port.  DESIGN CHOICE (log entry 65): a port without link sends none, and it is not kept. -/
def State.ethSend (s : State) (port tc : Nat) (b : List Byte) : State :=
  s.when (s.ethUp port) (fun s => (s.inc (ETH_TX_FRAMES port)).emit (.ethTx port tc b))

/-- ETH_STATUS.SPEED of a port that runs in another mode than SGMII (R270). -/
def State.ethBegin (s : State) (port : Nat) : State := s.when (s.rd (ETH_CTRL_MODE port).inForce != 3) (·.wr (ETH_STATUS_SPEED port) 3)

/-- The port's function has ended: it has no link (R270). -/
def State.ethOff (s : State) (port : Nat) : State :=
  (((s.when (s.on (ETH_STATUS_LINK port)) (·.raise (31 + port) 1)).flag (ETH_STATUS_LINK port) false).flag (ETH_STATUS_AN_DONE port) false).wr
    (ETH_STATUS_SPEED port) 0

/-- The FS cell of a frame at an Ethernet egress, without an outer C-tag with UNTAG_VID (R272). -/
def State.untag (s : State) (port : Nat) (c : Cell) : Cell :=
  if s.on (ETH_VLAN_UNTAG_EN port) && halfAt c.payload 12 == 0x8100 &&
      halfAt c.payload 14 % 4096 == s.rd (ETH_VLAN_UNTAG_VID port) && c.fill ≥ 20 then
    { c with payload := c.payload.take 12 ++ c.payload.drop 16, fill := c.fill - 4 }
  else c

/-- A frame starts at an LRE egress: its tag or trailer on both ports; a RedBox learns the source as proxied (R274). -/
def State.lreStart (s : State) (lre : Nat) (c : Cell) : State :=
  let mode := s.lreMode (2 * lre)
  if mode = 0 then s
  else
    let (seq, s) := s.lreSeq lre
    let src := beNat ((c.payload.drop 6).take 6)
    let s := s.when (mode == 3 && !s.stn.proxy.contains (lre, src) && (s.stn.proxy.filter (fun e => e.1 == lre)).length < 512)
      (·.modStn (fun t => { t with proxy := t.proxy ++ [(lre, src)] }))
    (s.emit (.lreTag (2 * lre) mode 10 seq)).emit (.lreTag (2 * lre + 1) mode 11 seq)

/-- An Ethernet cell leaves on a port: the end of a frame is counted, and an INC tail ends the frame with a stomped FCS (R140, R272). -/
def State.ethCell (s : State) (port ctx : Nat) (c : Cell) : State :=
  (s.when c.ls (·.inc (ETH_TX_FRAMES port))).emit (if c.inc then .ethStomp port else .egress (6 + port) ctx c)

/-- A cell of a frame leaves: the FCS of a frame that the hub changes as it leaves (`chg`, at its FS cell) is computed again, and ends it (R272). -/
def State.fcsCell (s : State) (pt : Nat) (chg : Bool) (c : Cell) : State :=
  let set (t : Tbl (Nat × List Byte)) (s : State) : State := { s with gird := { s.gird with fcs := t } }
  match (if chg then some (0xFFFFFFFF, []) else if c.fs then none else tget? s.gird.fcs pt) with
  | none => s.when (tget? s.gird.fcs pt).isSome (set (tdel s.gird.fcs pt))
  | some (crc, tail) =>
    let b := tail ++ c.payload.take (if c.ls then c.fill + 1 else 128)
    let crc := (b.take (b.length - 4)).foldl crc32Byte crc
    if c.ls then (set (tdel s.gird.fcs pt) s).when (!c.inc) (·.emit (.ethFcs (pt - 6) (crc ^^^ 0xFFFFFFFF)))
    else set (tset s.gird.fcs pt (crc, b.drop (b.length - 4))) s

/-- An Ethernet cell leaves (R272–R274): untagged, and sent on both ports of an LRE; `marked` tells that its FS cell was given CE (R143). -/
def State.ethOut (s : State) (pt ctx sub : Nat) (marked : Bool) (c : Cell) : State :=
  let port := pt - 6
  let lre := sub == 0x1000
  let u := if c.fs && !c.inc then s.untag port c else c
  let s := s.fcsCell pt (u.fs && !lre && (marked || u.fill != c.fill)) u
  let c := u
  let s := s.when (lre && c.fs) (·.lreStart (port / 2) c)
  (s.ethCell port ctx c).when lre (·.ethCell (port + 1) ctx c)

/-- A cell that arrives at the station-services input; at the frame's end the frame is matched (R273, R282). -/
def State.stnCell (s : State) (c : Cell) : State :=
  let b := (if c.fs then [] else s.stn.stnIn) ++ c.payload.take (if c.ls then c.fill + 1 else 128)
  if c.inc then s.modStn (fun t => { t with stnIn := [] })
  else if c.ls then (s.modStn (fun t => { t with stnIn := [] })).matchFrame none b s.nowQ
  else s.modStn (fun t => { t with stnIn := b })

/-! ## The scribe's staging ring (R289) -/

/-- Stage an entry; a full ring discards it. -/
def State.stageEntry (s : State) (kind : Nat) (b : List Byte) : State :=
  if s.rd NVS_STATUS_STATE = 0 then s
  else if s.stn.stage.length ≥ 2048 then (s.inc NVS_LOST).raise 38 2
  else s.modStn (fun t => { t with stage := t.stage ++ [(kind, b)] })

/-- Stage a station event (*Station event entry*): type, subscription or input, stamp, stNum, sqNum and status word. -/
def State.stageEvent (s : State) (typ sub stamp st sq status : Nat) : State :=
  if s.rd NVS_STATUS_STATE = 0 then s
  else
    let n := s.stn.evSeq
    let body := beBytes 4 n ++ beBytes 1 typ ++ beBytes 1 sub ++ beBytes 2 (if typ = 4 then 0 else sub % 512) ++ beBytes 8 stamp ++
      beBytes 4 st ++ beBytes 4 sq ++ beBytes 4 status ++ List.replicate 32 0
    (s.modStn (fun t => { t with evSeq := (n + 1) % 2 ^ 32 })).stageEntry 2 (body ++ beBytes 4 (crc32c body))

end Sys2Proof.Machine
end

