-- ==== Sys2Proof/Machine/Sched.lean ====
section
/-!
DEFINITION. Slots, opportunities, meters and gate control lists (`07_scheduling.md`), and the sending of control slots
(R81–R83).
-/

namespace Sys2Proof.Machine

open Host (Outcome)

/-! ## Data slots (R151–R153) -/

/-- The enabled active window that holds a data slot. -/
def State.windowOf (s : State) (n d : Nat) : Option (Nat × Nat × Nat × Bool) :=
  ((List.range 16).filterMap (s.window 0x80 n)).find? (fun w => w.1 ≤ d && d < w.1 + w.2.1)

/-- The identifier that a computed plan places on a data slot. -/
def planAt (d slots : Nat) (r : Except Nat (Tbl Nat)) : Option Nat :=
  match r with
  | .error _ => none
  | .ok t => (t.find? (fun e => e.1 % slots == d)).map (·.2)

/-- The tunnel placed on a data slot under the active plan: its LTN and class (R90). -/
def State.ownerOf (s : State) (n d : Nat) : Option (Nat × Nat) :=
  (planAt d (s.dSlots n) (placePlan (s.dSlots n) (s.caratTable txAct n))).bind fun ltn =>
    (s.ctxByTx n ltn).map (fun e => (ltn, s.modeTc e.1))

/-- SLOT_OWED (R152). -/
def State.owe (s : State) (n : Nat) (g : Nat × Nat) : State :=
  let s := s.inc (SCH_OWED n)
  let l := tget [] s.sch.owed n
  if l.length ≥ 64 then (s.inc (SCH_OWED_LOST n)).raise 14 2
  else { s with sch := { s.sch with owed := tset s.sch.owed n (l ++ [g]) } }

/-- Offer a slot to the owed tunnels, oldest first, and strike off the one that is repaid. -/
def State.offerOwed (s : State) (n : Nat) (ecc : Tbl Nat) : List (Nat × Nat) → List (Nat × Nat) → State × Option Sent
  | _, [] => (s, none)
  | pre, o :: r =>
    match s.offer n o.2 ecc none with
    | (s, some x) =>
      let l := pre ++ r
      ({ s with sch := { s.sch with owed := if l.isEmpty then tdel s.sch.owed n else tset s.sch.owed n l } }, some x)
    | (s, none) => s.offerOwed n ecc (pre ++ [o]) r

/-- The shared part of a slot: the window's classes, then the others (R151). -/
def State.fillShared (s : State) (n d : Nat) (ecc : Tbl Nat) : State × Option Sent :=
  match s.windowOf n d with
  | none => s.offerFirst n ecc (fun _ => none) [6, 5, 4, 3, 2, 1, 0]
  | some (start, len, mask, excl) =>
    let named := [6, 5, 4, 3, 2, 1, 0].filter (fun tc => mask.testBit tc)
    match s.offerFirst n ecc (fun _ => some (start + len, d)) named with
    | (s, some x) => (s, some x)
    | (s, none) =>
      if excl then (s, none)
      else s.offerFirst n ecc (fun _ => none) ([6, 5, 4, 3, 2, 1, 0].filter (fun tc => !mask.testBit tc))

/-- The slot once its guaranteed owner has been offered it: owed tunnels, TC7 if not tried yet, then shared use. -/
def State.fillRest (s : State) (n d : Nat) (ecc : Tbl Nat) (tried7 : Bool) : State × Option Sent :=
  match s.offerOwed n ecc [] (tget [] s.sch.owed n) with
  | (s, some x) => (s, some x)
  | (s, none) =>
    match (if tried7 then (s, none) else s.offer n 7 ecc none) with
    | (s, some x) => (s, some x)
    | (s, none) => s.fillShared n d ecc

/-- `fill_slot` (R151). -/
def State.fillSlot (s : State) (n d : Nat) (ecc : Tbl Nat) : State × Option Sent :=
  let g := s.ownerOf n d
  let tried7 := s.on (SCH_LSCH_TC7_TAKE n).inForce || g.isNone
  match (if tried7 then s.offer n 7 ecc none else (s, none)) with
  | (s, some x) =>
    match g with
    | some o => (s.when (o.2 != 7 && s.depth (8 * n + o.2) > 0) (·.owe n o), some x)
    | none => (s, some x)
  | (s, none) =>
    match g with
    | none => s.fillRest n d ecc tried7
    | some o =>
      match s.offer n o.2 ecc none with
      | (s, some x) => (s, some x)
      | (s, none) => s.fillRest n d ecc tried7

/-- FILL_SLOT (R78, R151): the cell for data slot `d` of an ACTIVE native port is chosen and sent, or idle fill is.
`ecc` tells by buffer cell what the ECC of a read shows (R128): 1 corrected, 2 uncorrectable. -/
def execFillSlot (n d : Nat) (ecc : Tbl Nat) (s : State) : Outcome State Fault Refusal :=
  done <| s.when (s.sendsSlots n && s.native n && !(s.port n).pw.idle && d < s.dSlots n) fun s =>
    match s.fillSlot n d ecc with
    | (s, some x) => s.sendSlot n (slotOfData d) (s.withTxLtn x)
    | (s, none) => s.sendSlot n (slotOfData d) idleFill

/-! ## 1040 mode (R75, R144, R156) -/

/-- The credit unit: the freed counters of this receiver (R75). -/
def State.creditUnit (s : State) (n : Nat) : Cell :=
  { ltn := 0xFF, fs := true, ls := true, fill := 0x7F,
    payload := pad128 ((List.range 8).flatMap (fun tc => beBytes 2 (tget 0 (s.port n).own1040 tc))) }

/-- The credit check of R75. -/
def State.credit (s : State) (n tc : Nat) : Bool :=
  (tget 0 (s.port n).sent1040 tc + 65536 - tget 0 (s.port n).freed1040 tc) % 65536 < s.rd (LNK_C1040_CRED_INIT n).inForce

/-- The highest class that may send in a unit position (R156). -/
def State.unitPick (s : State) (n : Nat) (ecc : Tbl Nat) : List Nat → State × Option Sent
  | [] => (s, none)
  | tc :: l =>
    if !s.credit n tc || !s.gateOpen (4 + n) tc then s.unitPick n ecc l
    else
      let mayStart (s : State) (f : QFrame) (_ : Cell) : State × Bool :=
        let k := if f.lsStored then f.cells.length else max f.cells.length (s.rd (SCH_LSCH_FIT_CT n).inForce)
        let units := (k * 16 + 14) / 15
        if !s.shaperOpen f.ctx f.eg then (s.inc (SCH_SHAPE_HOLD n), false)
        else (s, s.gateFits (4 + n) tc ((units * 1188 + 9) / 10))
      match s.takeCell (8 * n + tc) ecc mayStart with
      | (s, some x) =>
        let s := (s.charge x.ctx x.eg).countOut x
        (s.modPort n (fun p => { p with sent1040 := tmod 0 p.sent1040 tc (fun v => (v + 1) % 65536) }), some x)
      | (s, none) => s.unitPick n ecc l

/-- UNIT_POSITION_FILL (R75, R156): every 16th unit position carries a credit unit, the others a cell or idle fill. -/
def execUnitPositionFill (n : Nat) (ecc : Tbl Nat) (s : State) : Outcome State Fault Refusal :=
  done <| s.when (s.active n && s.on (LNK_STATUS_MODE1040 n) && !s.time.gap) fun s =>
    if (s.port n).since1040 ≥ 15 then
      (s.sendSlot n 0 (s.creditUnit n)).modPort n (fun p => { p with since1040 := 0 })
    else
      let s := s.modPort n (fun p => { p with since1040 := p.since1040 + 1 })
      match s.unitPick n ecc [7, 6, 5, 4, 3, 2, 1, 0] with
      | (s, some x) => s.sendSlot n 0 (s.withTxLtn x)
      | (s, none) => s.sendSlot n 0 idleFill

/-- LOCAL_REFILL_1040 (R156): at a local-time boundary of 125 µs the peak buckets of the port's contexts are refilled. -/
def execLocalRefill1040 (n : Nat) (s : State) : Outcome State Fault Refusal :=
  done <| s.when (s.active n && s.on (LNK_STATUS_MODE1040 n)) fun s =>
    foldS (List.range 256) (fun s c => s.refillCtx c (· == n)) s

/-! ## Control slots (R81–R83) -/

/-- With the management carats of the cycle used, a one-cell frame of at most 28 bytes goes as a MGMT unit, its shaper open (R83, R154). -/
def State.mgmtUnit (s : State) (n : Nat) : State × List CtlUnit :=
  let q := 8 * n + 3
  match s.queue q with
  | f :: _ =>
    match f.cells with
    | x :: _ =>
      if (s.ep n).mgmtUsed ≥ 16 && f.ctx == 2 * n + 1 && x.cell.fs && x.cell.ls && !x.cell.inc && x.cell.fill < 28 &&
          f.tail.isNone then
        match s.takeCell q [] (fun s f _ => if s.shaperOpen f.ctx f.eg then (s, true) else (s.inc (SCH_SHAPE_HOLD n), false)) with
        | (s, some y) => ((s.charge y.ctx y.eg).countOut y, [.mgmt y.cell.seq (y.cell.payload.take (y.cell.fill + 1))])
        | (s, none) => (s, [])
      else (s, [])
    | [] => (s, [])
  | [] => (s, [])

/-- CONTROL_SLOT_SEND (R81, R82): control slot `j` of the present cycle is sent; slot 0 begins with CYCLE.  In CYCLE only
the CYCLE message is sent, and in idle only control slot 0 (R355). -/
def execControlSlotSend (n j : Nat) (s : State) : Outcome State Fault Refusal :=
  done <| s.when (s.sendsSlots n && j < controlSlots (s.rd (LNK_STATUS_SPEED n)) && (!(s.port n).pw.idle || j == 0)) fun s =>
    let m := s.cycleMsg n
    let first := if j = 0 then [CtlUnit.cycle m] else []
    let s := s.when (j == 0) (fun s => s.modTm n (fun t => { t with tx := ((m.cycno, stampQ m.txStamp) :: t.tx).take 4 }))
    let (rest, s) := if s.active n then s.fillUnits n (4 - first.length) else ([], s)
    let (s, mg) := if s.active n && first.length + rest.length < 4 then s.mgmtUnit n else (s, [])
    let units := first ++ rest ++ mg
    let epoch := s.rd (CYC_STATUS_ACT_EPOCH n)
    let payload := pad128 (units.flatMap unitBytes)
    let (sel, trailer) := s.sealCtl n j units.length epoch payload
    s.emit (.ctlSlot n j sel epoch s.cycle units trailer)

/-! ## Adapter egress (R140, R143, R157, R167, R445) -/

/-- The nanoseconds that a frame of `bytes` takes at an Ethernet egress, with preamble and inter-frame gap, at the port's
rate (*Ethernet modes*). -/
def State.ethNs (s : State) (port bytes : Nat) : Nat :=
  let bits := 8 * (bytes + 20)
  let mode := s.rd (ETH_CTRL_MODE port).inForce
  let sp := s.rd (ETH_STATUS_SPEED port)
  if mode = 0 then (bits + 9) / 10
  else if mode = 1 then (bits * 2 + 4) / 5
  else if mode = 2 ∨ sp = 2 then bits
  else if sp = 1 then bits * 10 else bits * 100

/-- The bytes of a stored frame. -/
def frameBytes (f : QFrame) : Nat := f.cells.foldl (fun a x => a + x.cell.fill + 1) 0

/-- Egress points that start a frame only when its LS cell is stored (R140). -/
def holdsWhole (pt : Nat) : Bool := pt == 4 || (10 ≤ pt && pt ≤ 13)

/-- A stream of point 3 that only the DMA engines serve: a NIC or DMA channel (R226). -/
def dmaSub (sub : Nat) : Bool := sub / 4096 == 2 || sub / 4096 == 3

/-- A frame may start at an adapter egress (R140, R167, R226, R445). -/
def State.adapterMay (s : State) (pt tc : Nat) (f : QFrame) : Bool :=
  if 6 ≤ pt ∧ pt ≤ 9 then
    s.gateOpen (pt - 6) tc &&
      (!s.gateChecked (pt - 6) tc || (f.lsStored && s.gateFits (pt - 6) tc (s.ethNs (pt - 6) (frameBytes f))))
  else (pt != 3 || !dmaSub (s.rd (ptSub f.ctx (2 + f.eg)))) && (!holdsWhole pt || f.lsStored)

/-- A cell leaves at an adapter egress: an INC tail ends a frame partly sent, at point 3 by nullifying the TLP (R140); an Ethernet frame whose
FS cell has CM is examined (R143). -/
def State.adapterOut (s : State) (pt tc : Nat) (x : Sent) : State :=
  let s := s.countOut x
  -- a completion that leaves at a virtual port ends its request there (R199)
  let s := match (if pt = 3 ∧ x.cell.fs then vdpOfSub (s.rd (ptSub x.ctx (2 + x.eg))) else none) with
    | some c => s.when (tlpKind x.cell.payload == 2) (·.npNote c x.cell.payload)
    | none => s
  let (c, s) :=
    if 6 ≤ pt ∧ pt ≤ 9 ∧ x.cell.fs ∧ x.cell.cm then
      let (b, set) := ceMark x.cell.payload
      ({ x.cell with payload := b }, s.inc (if set then GRD_CE_SET pt else GRD_CE_NOECT pt))
    else (x.cell, s)
  let opn := if x.cell.ls then tdel s.gird.openAt pt else tset s.gird.openAt pt tc
  let s := { s with gird := { s.gird with openAt := opn } }
  let sub := s.rd (ptSub x.ctx (2 + x.eg))
  if 6 ≤ pt ∧ pt ≤ 9 then s.ethOut pt x.ctx sub (x.cell.fs && c.payload != x.cell.payload) c
  else if pt = 3 ∧ c.inc then s.emit .tlpNull
  else (s.when (pt == 12 && sub == 0x2000) (·.stnCell c)).emit (.egress pt x.ctx c)

/-- An Ethernet frame whose next cell is not stored in time ends with a stomped FCS, and the rest of it is discarded
(R445). -/
def State.underrun (s : State) (pt tc : Nat) : State :=
  let q := 8 * pt + tc
  let s := ((s.inc (ETH_TX_UNDERRUN (pt - 6))).inc (ETH_TX_FRAMES (pt - 6))).emit (.ethStomp (pt - 6))
  let s := match s.queue q with
    | f :: _ =>
      let s := (s.discardCells q f 3).removeFrame q f.ctx f.id
      s.when (!f.lsStored) (·.addDrop q f.ctx f.id 3)
    | [] => s
  { s with gird := { s.gird with openAt := tdel s.gird.openAt pt } }

/-- The highest class of an adapter egress whose queue head may be sent. -/
def State.adapterPick (s : State) (pt : Nat) (ecc : Tbl Nat) : List Nat → State × Option (Nat × Sent)
  | [] => (s, none)
  | tc :: l =>
    match s.takeCell (8 * pt + tc) ecc (fun s f _ => (s, s.adapterMay pt tc f)) with
    | (s, some x) => (s, some (tc, x))
    | (s, none) => s.adapterPick pt ecc l

/-- The frame that an egress was sending has been discarded: an Ethernet frame ends with a stomped FCS, a TLP is nullified (R140, R445). -/
def State.openLost (s : State) (pt : Nat) : State :=
  let s := { s with gird := { s.gird with openAt := tdel s.gird.openAt pt } }
  if 6 ≤ pt ∧ pt ≤ 9 then ((s.inc (ETH_TX_UNDERRUN (pt - 6))).inc (ETH_TX_FRAMES (pt - 6))).emit (.ethStomp (pt - 6))
  else s.when (pt == 3) (·.emit .tlpNull)

/-- The frame that an egress sends in a class is still there. -/
def State.openThere (s : State) (pt tc : Nat) : Bool := (s.queue (8 * pt + tc)).head?.any (fun f => f.started)

/-- ADAPTER_TX_OPPORTUNITY (R157, R270): the opportunity goes to the open frame, or to the highest ready class; it ends an open frame that
has been discarded. -/
def execAdapterTxOpportunity (pt : Nat) (ecc : Tbl Nat) (s : State) : Outcome State Fault Refusal :=
  done <| s.when (3 ≤ pt && pt ≤ 13 && (pt < 6 || pt > 9 || s.ethUp (pt - 6))) fun s =>
    match tget? s.gird.openAt pt with
    | some tc =>
      if !s.openThere pt tc then s.openLost pt
      else match s.takeCell (8 * pt + tc) ecc (fun s _ _ => (s, true)) with
      | (s, some x) => s.adapterOut pt tc x
      | (s, none) => s.when (6 ≤ pt && pt ≤ 9) (·.underrun pt tc)
    | none =>
      match s.adapterPick pt ecc [7, 6, 5, 4, 3, 2, 1, 0] with
      | (s, some (tc, x)) => s.adapterOut pt tc x
      | (s, none) => s

/-! ## Meters (R161, R163, R171) -/

def mtrWin (p : Path) (k : Nat) : Fld := (SCH_MTR_WIN k).onPath p
def State.mtrSel (s : State) (p : Path) : Nat := s.rd (SCH_MTR_SEL_MTR.onPath p)

/-- What LOAD does: the eight words of the selected meter as one snapshot. -/
def State.mtrLoad (s : State) (p : Path) : State :=
  let m := s.mtrSel p
  let s := foldS (List.range 8) (fun s k => s.wr (mtrWin p k) (s.word (0x220000 + 0x20 * m + 4 * k)).toNat) s
  s.wr (SCH_MTR_STATUS_LAST_MTR.onPath p) m

/-- The command bit of MTR_LOAD (R171). -/
def cmdMtrLoad (p : Path) : Cmd :=
  Cmd.mk SCH_MTR_CMD_LOAD okChk (·.mtrLoad p)

/-- MTR_LOAD (R171). -/
def execMtrLoad (p : Path) (s : State) : Outcome State Fault Refusal :=
  done <| s.runCmd p (cmdMtrLoad p)

/-- The first failed check of a meter window: word and reason. -/
def mtrCheck (w : Nat → Nat) : Option (Nat × Nat) :=
  let cir := bitsOf' (w 0) 27
  let pir := bitsOf' (w 1) 27
  if cir < 1 ∨ cir > 100000000 then some (0, 1)
  else if pir < 1 ∨ pir > 100000000 then some (1, 1)
  else if pir < cir then some (1, 2)
  else if w 2 % 65536 = 0 ∨ w 2 / 65536 % 65536 = 0 then some (2, 3)
  else none
where
  bitsOf' (x n : Nat) : Nat := x % 2 ^ n

/-- What COMMIT does: words W0–W3 apply at one instant, the buckets are clamped to the new bursts, and enabling fills them
(R161, R163). -/
def State.mtrCommit (s : State) (p : Path) : State :=
  let m := s.mtrSel p
  let w (k : Nat) : Nat := s.rd (mtrWin p k)
  let s := s.wr (SCH_MTR_STATUS_LAST_MTR.onPath p) m
  match mtrCheck w with
  | some (k, r) =>
    (s.wr (SCH_MTR_STATUS_REASON.onPath p) r).capture 14 p 1 ((0x0D0 + 4 * k) / 4) (w k)
  | none =>
    let was := s.on (MTR_CTRL_EN m)
    let s := (s.wr (MTR_CIR_RATE m) (w 0)).wr (MTR_PIR_RATE m) (w 1)
    let s := s.setWord (0x220008 + 0x20 * m) (BitVec.ofNat 32 (w 2))
    let s := s.setWord (0x22000C + 0x20 * m) (BitVec.ofNat 32 (w 3 % 2 ^ 15 + w 3 / 2 ^ 29 % 8 * 2 ^ 29))
    let cap := (s.rd (MTR_BURST_CBS m) * 1000000000, s.rd (MTR_BURST_PBS m) * 1000000000)
    let b := tget {} s.sch.mtr m
    let b := if s.on (MTR_CTRL_EN m) && !was then ⟨cap.1, cap.2, s.now⟩ else ⟨min b.tc cap.1, min b.tp cap.2, b.last⟩
    ({ s with sch := { s.sch with mtr := tset s.sch.mtr m b } }).wr (SCH_MTR_STATUS_REASON.onPath p) 0

/-- The command bit of MTR_COMMIT (R171). -/
def cmdMtrCommit (p : Path) : Cmd :=
  Cmd.mk SCH_MTR_CMD_COMMIT okChk (·.mtrCommit p)

/-- MTR_COMMIT (R171). -/
def execMtrCommit (p : Path) (s : State) : Outcome State Fault Refusal :=
  done <| s.runCmd p (cmdMtrCommit p)

/-- What CLR_CNT does. -/
def State.mtrClrCnt (s : State) (p : Path) : State :=
  let m := s.mtrSel p
  (((s.wr (MTR_GREEN m) 0).wr (MTR_YELLOW m) 0).wr (MTR_RED m) 0).wr (SCH_MTR_STATUS_LAST_MTR.onPath p) m

/-- The command bit of MTR_CLR_CNT (R171). -/
def cmdMtrClrCnt (p : Path) : Cmd :=
  Cmd.mk SCH_MTR_CMD_CLR_CNT okChk (·.mtrClrCnt p)

/-- MTR_CLR_CNT (R171). -/
def execMtrClrCnt (p : Path) (s : State) : Outcome State Fault Refusal :=
  done <| s.runCmd p (cmdMtrClrCnt p)

/-! ## Gate control lists (R165, R166) -/

/-- Why CFG_CHANGE is rejected. -/
def State.cfgChk (l : Nat) (s : State) : Nat :=
  if s.on (SCH_GCL_CTRL_CFG_PENDING l) then 3 else if s.rd (SCH_ADMIN_CYCLE_NS l) = 0 then 1 else 0

/-- What CFG_CHANGE does (R166): the admin list becomes the pending configuration with its ConfigChangeTime. -/
def State.cfgChange (s : State) (l : Nat) : State :=
  let base := s.rd (SCH_ADMIN_BASE_S l) * 1000000000 + s.rd (SCH_ADMIN_BASE_NS_NS l)
  let cyc := s.rd (SCH_ADMIN_CYCLE_NS l)
  let g : Gcl :=
    { entries := (List.range (s.rd (SCH_GCL_CTRL_ADMIN_LEN l))).map (fun e => (s.rd (SCH_GCL_GATES l e), s.rd (SCH_GCL_INTERVAL l e)))
      cycleNs := cyc, base := base, ext := s.rd (SCH_ADMIN_EXT_NS l) }
  let t := if base > s.now then base else base + ((s.now - base) / cyc + 1) * cyc
  (s.modGcl l (fun x => { x with pending := some (g, t) })).flag (SCH_GCL_CTRL_CFG_PENDING l) true

/-- The command bit of CFG_CHANGE (R166). -/
def cmdCfgChange (l : Nat) : Cmd :=
  Cmd.mk (SCH_GCL_CTRL_CFG_CHANGE l) (State.cfgChk l) (·.cfgChange l)

/-- CFG_CHANGE (R166). -/
def execCfgChange (p : Path) (l : Nat) (s : State) : Outcome State Fault Refusal :=
  done <| s.when (l < 7) fun s => s.runCmd p (cmdCfgChange l)

/-- CONFIG_CHANGE_TIME (R166): the pending configuration becomes the oper configuration. -/
def execConfigChangeTime (l : Nat) (s : State) : Outcome State Fault Refusal :=
  done <| s.when (l < 7 && (match (s.gcl l).pending with | some (_, t) => decide (s.now ≥ t) | none => false)) (·.gclInstall l)

/-- GATE_ENTRY_CHANGE (R165, R166, R168): the present interval ends and the next gate states take effect; a cycle that
would end less than the extension before ConfigChangeTime is extended instead. -/
def execGateEntryChange (l : Nat) (s : State) : Outcome State Fault Refusal :=
  done <|
    match (s.gcl l).oper with
    | none => s
    | some g => s.when (l < 7 && g.cycleNs != 0 && decide (s.now ≥ (s.gcl l).until_)) fun s =>
      let last := (s.gcl l).entry + 1 == g.segs.length
      let ends := (s.gcl l).until_
      match (s.gcl l).pending with
      | some (a, t) =>
        if last && decide (ends < t) && decide (t - ends < a.ext) then s.modGcl l (fun x => { x with until_ := t })
        else s.gclEnter l g
      | none => s.gclEnter l g

end Sys2Proof.Machine
end

