-- ==== Sys2Proof/Machine/Time.lean ====
section
/-!
DEFINITION. Network time (`08_network_time.md`): CYCLE messages, the time register, local sources, holdover, steps, and the
work of a cycle boundary.
-/

namespace Sys2Proof.Machine

open Host (Outcome)

/-! ## CYCLE messages (R89, R97, R177, R182, R183) -/

/-- The ranging part of a CYCLE message (R182, R183): D from the four stamps, then LOFSn. -/
def State.rangeCycle (s : State) (n : Nat) (m : CycleMsg) : State :=
  let s :=
    match (s.tm n).tx.find? (fun (e : Nat × Nat) => e.1 == m.rxCycno) with
    | some (_, t1) =>
      if m.rxValid && m.rxCycno == cycSub m.cycno 1 then
        let d : Int := (((m.arrival : Int) - t1) - ((stampQ m.txStamp : Int) - stampQ m.rxStamp)).tdiv 2
        s.rangingUpdate n d.toNat
      else s
    | none => s
  let asym := s.rdS (TIME_ASYM n)
  let lofs : Int := (m.arrival : Int) - stampQ m.txStamp - ((s.rd (TIME_DELAY n) : Int) - asym.tdiv 2)
  (s.wrS (TIME_LOFS n) lofs).modTm n (fun t => { t with rx := some (stamp64 m.arrival, m.cycno) })

/-- The far epoch is one ahead within the settle period of a change that this end has not swapped (R97). -/
def State.noteFarEpoch (s : State) (n epoch : Nat) : State :=
  let ahead := epoch == (s.rd (CYC_STATUS_ACT_EPOCH n) + 1) % 256
  let due := match (s.ep n).last with
    | some l => ahead && !l.swapped && cycGe (cycAdd l.swap 8) s.cycle && cycGe s.cycle l.swap
    | none => false
  s.modEp n (fun e => { e with farEpoch := some epoch, lateDue := e.lateDue || (due && !e.split) })

/-- CYCLE_MSG (R182): a valid CYCLE message supplies stamps, time-master and epoch state, and counts towards liveness; a
link whose CYCLE state has seen sixteen in a row is up (R89). -/
def execCycleMsg (n : Nat) (m : CycleMsg) (s : State) : Outcome State Fault Refusal :=
  done <| s.when (n < 3 && (s.tstate n == tCycle || s.tstate n == tActive) && !s.on (LNK_STATUS_MODE1040 n)) fun s =>
    if m.cycno ≠ s.arrivalCycle n m.arrival then s.modEp n (fun e => { e with mismatch := true })
    else
      let s := s.modEp n (fun e => { e with okCount := e.okCount + 1, missed := 0, gotThis := true })
      let s := (s.noteFarEpoch n m.epoch).rangeCycle n m
      let s := s.settleMaster n m.timeMaster
      let s := s.when (s.bit TIME_LINK_TM_ST_FOLLOW n) (fun s =>
        ((s.modTime (fun t => { t with inValid := m.timeValid, srcPresent := true })).measurement (s.rdS (TIME_LOFS n)) 125000 true).showTimeValid)
      s.when (s.tstate n == tCycle && (s.ep n).okCount ≥ 16) (·.linkUp n)

/-! ## The time register (R172) -/

/-- TIME_LO_READ (R172): bits [31:0] are returned, with [1:0] zero, and TIME_HI of the same instant is latched for the
path. -/
def execTimeLoRead (p : Path) (s : State) : Outcome State Fault Refusal :=
  done <| s.readOwn p TIME_LO.addr (fun s => s.time.ns * 4) (fun s => s.wr (TIME_HI.onPath p) s.time.sec)

/-! ## Local sources (R178, R180, R181) -/

/-- PTP feeds the source machine: the port that PTP_PORT names is in SLAVE state (1588 portState 9) (R280). -/
def State.ptpFeeds (s : State) : Bool := s.isOn 37 && s.rd PTP_PORT_ST / 16 ^ s.rd TIME_SRC_CTRL_PTP_PORT % 16 == 9

/-- SOURCE_MEASUREMENT (R178, R280, R440): a comparison with a local source of a root gives an offset, in quarter nanoseconds,
`interval` nanoseconds after the last one. -/
def execSourceMeasurement (off : Int) (interval : Nat) (s : State) : Outcome State Fault Refusal :=
  done <| s.when (1 ≤ s.rd TIME_SRC_CTRL_SRC && s.rd TIME_SRC_CTRL_SRC ≤ 3 && (s.rd TIME_SRC_CTRL_SRC != 1 || s.ptpFeeds)) fun s =>
    (s.modTime (fun t => { t with srcPresent := true })).measurement off interval false

/-- PPS_EDGE (R181): the selected edge, less COMP, marks a second. -/
def execPpsEdge (rising : Bool) (q : Nat) (s : State) : Outcome State Fault Refusal :=
  done <| s.when (s.rd TIME_SRC_CTRL_SRC == 3 && rising == !s.on TIME_PPS_CTRL_EDGE) fun s =>
    s.modTime (fun t => { t with pps := some (q, q - 4 * s.rd TIME_PPS_CTRL_COMP) })

/-- The ASCII characters of bytes split at commas. -/
def splitComma (l : List Byte) : List (List Byte) :=
  l.foldr (fun b (a : List (List Byte)) =>
    if b = 0x2C then [] :: a else match a with | x :: r => (b :: x) :: r | [] => [[b]]) [[]]

/-- A decimal number, or none. -/
def decNat (l : List Byte) : Option Nat :=
  if l.isEmpty || l.any (fun b => b < 0x30 || b > 0x39) then none
  else some (l.foldl (fun a b => a * 10 + (b.toNat - 48)) 0)

/-- A signed decimal number, or none. -/
def decInt : List Byte → Option Int
  | 0x2D :: l => (decNat l).map (fun (n : Nat) => -(n : Int))
  | l => (decNat l).map (fun (n : Nat) => (n : Int))

/-- An upper-case hexadecimal digit. -/
def hexDigit (n : Nat) : Byte := BitVec.ofNat 8 (if n < 10 then 48 + n else 55 + n)

/-- The fields between the dollar sign and the asterisk of a sentence whose checksum is right and which ends with CR LF. -/
def sentenceFields (b : List Byte) : Option (List (List Byte)) :=
  match b with
  | 0x24 :: r =>
    let body := r.takeWhile (· != 0x2A)
    let x := (body.foldl (· ^^^ ·) (0 : Byte)).toNat
    if r.drop body.length = [0x2A, hexDigit (x / 16), hexDigit (x % 16), 0x0D, 0x0A] then some (splitComma body) else none
  | _ => none

/-- Days from 0000-03-01 to 1970-01-01. -/
def daysTo1970 : Nat := 719468

/-- Days from 1970-01-01 to a date of the Gregorian calendar. -/
def civilDays (y m d : Nat) : Nat :=
  let y' := if m ≤ 2 then y - 1 else y
  let m' := (m + 9) % 12
  365 * y' + y' / 4 - y' / 100 + y' / 400 + (153 * m' + 2) / 5 + d - 1 - daysTo1970

/-- The TAI second of a UTC second, by UTC_OFS (R173). -/
def State.utcToTai (s : State) (u : Nat) : Nat := ((u : Int) + s.rdS TIME_UTC_OFS_OFFSET).toNat

/-- The TAI second that a Welnel or ZDA sentence names, if it is a measurement (R181). -/
def State.todSecond (s : State) (b : List Byte) : Option Nat :=
  match sentenceFields b with
  | none => none
  | some f =>
    if s.rd TIME_PPS_CTRL_TOD_FMT = 0 then
      match f with
      | [h, sec, _, q] => if h = [0x57, 0x54, 0x4F, 0x44] ∧ q = [0x30] then decNat sec else none
      | _ => none
    else if !s.on TIME_UTC_OFS_VALID then none
    else match f with
      | h :: t :: d :: m :: y :: _ =>
        if h.drop 2 ≠ [0x5A, 0x44, 0x41] then none
        else match decNat (t.take 6), decNat d, decNat m, decNat y with
          | some hms, some d, some m, some y =>
            if m = 0 ∨ m > 12 ∨ d = 0 ∨ d > 31 ∨ y < 1970 then none
            else some (s.utcToTai (86400 * civilDays y m d + 3600 * (hms / 10000) + 60 * (hms / 100 % 100) + hms % 100))
          | _, _, _, _ => none
      | _ => none

/-- The signed offset of the local stamp `q` (quarter nanoseconds) from a TAI second, modulo 2^32 seconds. -/
def offsetFrom (q sec : Nat) : Int :=
  let span : Int := 4000000000 * 4294967296
  let d := ((q : Int) - (sec % 2 ^ 32 : Nat) * 4000000000) % span
  if d ≥ span / 2 then d - span else d

/-- TOD_SENTENCE (R181): a sentence that ends between 100 ms and 900 ms after the latest edge labels it; any other is no
measurement. -/
def execTodSentence (uart : Nat) (b : List Byte) (endQ : Nat) (s : State) : Outcome State Fault Refusal :=
  done <| s.when (s.rd TIME_SRC_CTRL_SRC == 3 && uart == s.rd TIME_SRC_CTRL_TOD_UART) fun s =>
    match s.time.pps, s.todSecond b with
    | some (q, mark), some sec =>
      if q + 400000000 ≤ endQ && endQ ≤ q + 3600000000 then
        (s.modTime (fun t => { t with pps := none, srcPresent := true })).measurement (offsetFrom mark sec) 1000000000 false
      else s
    | _, _ => s

/-- The year of a UTC second. -/
def yearOf (u : Nat) : Nat :=
  let days := u / 86400
  let y := 1970 + days / 366
  let y := if civilDays (y + 1) 1 1 ≤ days then y + 1 else y
  if civilDays (y + 1) 1 1 ≤ days then y + 1 else y

/-- The year, among the present one and its neighbours, in which a second of the year lies nearest to the time base. -/
def nearestYear (u sec : Nat) : Nat :=
  let y := yearOf u
  let dist (y : Nat) : Nat := let t := 86400 * civilDays y 1 1 + sec; (u - t) + (t - u)
  if dist (y - 1) < dist y then y - 1 else if dist (y + 1) < dist y then y + 1 else y

/-- A frame arrives while UTC_OFS is not valid: the source is not present, and the state is ACQUIRING with cause 3 (R180).  DEDUCED (log
entry 132): so it is from every state of the source machine. -/
def State.irigNoUtc (s : State) : State :=
  s.when (s.isOn 6) fun s => ((s.wr TIME_SRC_STATUS_CAUSE 3).modTime (fun t => { t with srcPresent := false, lockRun := 0 })).srcState stAcquiring

/-- IRIG_FRAME (R180): the on-time point, less COMP, and the UTC second that the frame gives.  `doy` counts from 1; the
year is the frame's own or its control functions', or that of the time base. -/
def execIrigFrame (q doy sod : Nat) (year : Option Nat) (ofsMin : Int) (li59 li61 : Bool) (s : State) :
    Outcome State Fault Refusal :=
  done <| s.when (s.rd TIME_SRC_CTRL_SRC == 2) fun s =>
    if !s.on TIME_UTC_OFS_VALID then s.irigNoUtc
    else
      let ext := s.on TIME_IRIG_CTRL_EXT_1344
      let now : Nat := ((s.time.sec : Int) - s.rdS TIME_UTC_OFS_OFFSET).toNat
      let inYear := 86400 * (doy - 1) + sod
      let y := year.getD (nearestYear now inYear)
      let utc : Int := (86400 * civilDays y 1 1 + inYear : Nat) - (if ext then 60 * ofsMin else 0)
      let s := s.when ext (fun s => (s.flag TIME_UTC_OFS_LI59 li59).flag TIME_UTC_OFS_LI61 li61)
      let at_ := q - 4 * s.rd TIME_IRIG_CTRL_COMP
      (s.modTime (fun t => { t with srcPresent := true })).measurement (offsetFrom at_ (s.utcToTai utc.toNat)) 1000000000 false

/-- INPUT_LOST (R178): the input is lost for a cause of SRC_STATUS.CAUSE. -/
def execInputLost (cause : Nat) (s : State) : Outcome State Fault Refusal :=
  done <| s.when (s.isOn 6 && cause < 16) fun s => (s.modTime (fun t => { t with srcPresent := false })).inputLost cause

/-- HOLDOVER_EXPIRY (R178): HOLD_MAX minutes of HOLDOVER have passed; FREQ is still held. -/
def execHoldoverExpiry (s : State) : Outcome State Fault Refusal :=
  done <| s.when (s.rd TIME_SRC_STATUS_STATE == stHoldover && s.holdSecs ≥ 60 * s.rd TIME_HOLD_HOLD_MAX) (·.srcState stFree)

/-- HOLD_VALID_EXPIRY (R179): HOLD_VALID seconds of HOLDOVER have passed, and TIME_VALID clears. -/
def execHoldValidExpiry (s : State) : Outcome State Fault Refusal :=
  done <| s.when (s.rd TIME_SRC_STATUS_STATE == stHoldover && s.holdSecs ≥ s.rd TIME_HOLD_HOLD_VALID)
    (fun s => (s.modTime (fun t => { t with holdOk := false })).showTimeValid)

/-- RTC_UPDATE (R174): while TIME_VALID is 1 the RTC is rewritten from the time base. -/
def execRtcUpdate (s : State) : Outcome State Fault Refusal :=
  done <| s.when (s.on TIME_SRC_STATUS_TIME_VALID) (fun s => s.modTime (fun t => { t with rtc := some t.sec }))

/-! ## Fast outputs (R194, R195) -/

/-- T of an output in nanoseconds. -/
def State.foutT (s : State) (k : Nat) : Nat := s.rd (EVI_FOUT_T_S k) * 1000000000 + s.rd (EVI_FOUT_T_NS k)

/-- What ARM does (R194, R195): the action is scheduled for T as it stands.  At the instant of T itself the action is late only where that
instant had come to the output first (R196). -/
def State.foutArm (s : State) (k : Nat) : State :=
  let m := s.rd (EVI_FOUT_CTRL_MODE k)
  let s := (s.flag (EVI_FOUT_CTRL_LATE k) false).flag (EVI_FOUT_CTRL_ARM k) true
  let s := { s with evi := { s.evi with armed := tset s.evi.armed k (s.foutT k) } }
  let late := decide (s.foutT k < s.now) || (s.foutT k == s.now && tget? s.evi.missed k == some (s.elapsed + 1))
  s.when ((m == 1 || m == 2) && s.isOn 7 && late) (·.foutLate k)

/-- The command bit of FOUT_ARM (R194, R195). -/
def cmdFoutArm (k : Nat) : Cmd :=
  Cmd.mk (EVI_FOUT_CTRL_ARM k) (fun s => if s.rd (EVI_FOUT_CTRL_MODE k) = 4 then 3 else 0) (·.foutArm k)

/-- FOUT_ARM (R194, R195): in mode 4 the write is rejected. -/
def execFoutArm (p : Path) (k : Nat) (s : State) : Outcome State Fault Refusal :=
  done <| s.when (k < 8) fun s =>
    s.runCmd p (cmdFoutArm k)

/-- FOUT_ACTION (R194): the scheduled time of an armed output has come, or in mode 3 the instant of this second has. -/
def execFoutAction (k : Nat) (s : State) : Outcome State Fault Refusal :=
  done <| s.when (k < 8 && s.isOn 7) fun s =>
    let m := s.rd (EVI_FOUT_CTRL_MODE k)
    if m = 1 ∨ m = 2 then
      if s.on (EVI_FOUT_CTRL_ARM k) then s.when (decide (s.foutTime k ≤ s.now)) (·.foutAct k)
      else { s with evi := { s.evi with missed := tset s.evi.missed k (s.elapsed + 1) } }
    else s.when (m == 3 && decide (s.rd (EVI_FOUT_T_NS k) ≤ s.time.ns)) (fun s =>
      let s := s.drive k (s.on (EVI_FOUT_CTRL_LEVEL k))
      { s with evi := { s.evi with pulsing := s.evi.pulsing.filter (· != k) ++ [k] } })

/-- FOUT_PULSE_END (R194): after PW a pulse output drives the opposite level. -/
def execFoutPulseEnd (k : Nat) (s : State) : Outcome State Fault Refusal :=
  done <| s.when (k < 8 && s.evi.pulsing.contains k) fun s =>
    let s := s.drive k (!s.on (EVI_FOUT_CTRL_LEVEL k))
    { s with evi := { s.evi with pulsing := s.evi.pulsing.filter (· != k) } }

/-! ## Steps (R185–R187, R195, R196) -/

/-- SET time − present time. -/
def State.setDelta (s : State) : Int :=
  ((s.rd TIME_SET_S * 1000000000 + s.rd TIME_SET_NS_NS : Nat) : Int) - s.now

/-- The command bit of STEP_CMD_SET (R185). -/
def cmdStepCmdSet : Cmd :=
  Cmd.mk TIME_STEP_CMD_SET (fun s => if s.timeRoot then 0 else 3) (fun s => s.startStep s.setDelta)

/-- STEP_CMD_SET (R185): a root steps the tree; on another chip the write is rejected. -/
def execStepCmdSet (p : Path) (s : State) : Outcome State Fault Refusal :=
  done <| s.runCmd p cmdStepCmdSet

/-- STEP_NOTICE (R185, R196): a notice that arrives through the time input schedules this chip's step; it wins over a step
of the chip's own. -/
def execStepNotice (n cycle : Nat) (delta : Int) (s : State) : Outcome State Fault Refusal :=
  done <| s.when (s.native n && s.bit TIME_LINK_TM_ST_FOLLOW n) (·.showStep ⟨some (cycle % 2 ^ 32), delta, false⟩)

/-- Move a pending cycle number of S or later by n (R186). -/
def moveCycle (sCyc : Nat) (k : Int) (c : Nat) : Nat := if cycGe c sCyc then (((c : Int) + k) % 4294967296).toNat else c

/-- Pending swap, key-switch and role-swap cycles of a port move by n (R186). -/
def State.movePort (s : State) (n sCyc : Nat) (k : Int) : State :=
  let mv := moveCycle sCyc k
  let body (a : Allot) : Allot := { a with swap := mv a.swap }
  let s := s.modEp n (fun e =>
    { e with change := e.change.map (fun c => if c.sent then { c with body := body c.body } else c),
             wd := e.wd.map (fun x => (body x.1, x.2)) })
  let s := match (s.ep n).change with
    | some c => s.when c.sent (·.wr (CYC_SWAP_CYCLE n) c.body.swap)
    | none => s
  let s := s.modTr n (fun t => { t with swap := t.swap.map (fun w => { w with cycle := mv w.cycle }) })
  s.modLk n (fun t => { t with w := t.w.map mv })

/-- The time at which the pending step of cycle S is taken, if S is the cycle about to begin or just begun. -/
def State.stepAt (s : State) (c : Nat) : Option Nat :=
  if (s.time.begun + 1) % 2 ^ 32 = c then some ((s.time.begun + 1) * 125000)
  else if s.time.begun % 2 ^ 32 = c then some s.now
  else none

/-- STEP_TAKEN (R186): at the boundary of S the time base jumps by Δ, the links send idle up to the next boundary, and
pending cycles move. -/
def execStepTaken (s : State) : Outcome State Fault Refusal :=
  done <|
    match s.time.step with
    | none => s
    | some r => match r.cycle with
      | none => s
      | some c => match s.stepAt c with
        | none => s
        | some t =>
          let new := ((t : Int) + r.delta).toNat
          let k := stepCycles r.delta
          let s := s.setTime new
          let s := s.modTime (fun x => { x with step := none, gap := true, begun := (new + 124999) / 125000 - 1 })
          let s := foldS [0, 1, 2] (fun s n => s.movePort n c k) s
          let s := (s.flag TIME_STEP_STATUS_PENDING false).wr TIME_STEP_STATUS_COUNT (s.rd TIME_STEP_STATUS_COUNT + 1)
          (s.raise 6 1).timeStepped

/-! ## Cycle boundaries (R76, R118, R152, R155) -/

/-- The per-cycle counters of a port start afresh. -/
def State.cycleOfPort (s : State) (n : Nat) : State :=
  let s := s.dropOwed n
  s.when (s.tstate n == tCycle || s.tstate n == tActive) fun s => s.modEp n (fun e =>
    { e with sentKinds := [], mgmtUsed := 0, gotThis := false,
             okCount := if e.gotThis then e.okCount else 0, missed := if e.gotThis then 0 else e.missed + 1 })

/-- What a cycle boundary does: the time base reaches it, owed slots are discarded, buckets refilled (native egresses),
acknowledgements collected, the waits of starting splits begun (R110), and a step that waited for key replacements is scheduled (R187). -/
def State.cycleBoundary (s : State) : State :=
  let k := s.time.begun + 1
  let s := if s.now < k * 125000 then (s.modTime (fun t => { t with ran := t.ran + (k * 125000 - s.now) })).countTo (k * 125000) else s
  let s := s.modTime (fun t => { t with begun := max k (s.now / 125000), gap := false })
  let s := foldS [0, 1, 2] (fun s n => s.cycleOfPort n) s
  let s := foldS (List.range 256) (fun s c => s.refillCtx c (fun n => !s.on (LNK_STATUS_MODE1040 n))) s
  (foldS (List.range 256) (fun s c => (s.ctxEntries c).splitWait c) s).stepRelease

end Sys2Proof.Machine
end

