-- ==== Sys2Proof/Machine/Station.lean ====
section
/-!
DEFINITION. Ethernet ports, redundancy, PTP, GOOSE and SV subscriptions and publications, and the NVMe scribe
(`13_station_services.md`).
-/

namespace Sys2Proof.Machine

open Host (Outcome)

/-! ## Ethernet reception (R270, R271, R275, R276) -/

/-- ETH_LINK_CHANGE (R270): the PCS gains or loses the link; `an` tells whether autonegotiation is complete, or the link bit of the SGMII control
word set, which modes 2 and 3 need; `speed` is the rate of that word. -/
def execEthLinkChange (port : Nat) (link an : Bool) (speed : Nat) (s : State) : Outcome State Fault Refusal :=
  done <| s.when (port < 4 && s.isOn (31 + port)) fun s =>
    let was := s.on (ETH_STATUS_LINK port)
    let wasAn := s.on (ETH_STATUS_AN_DONE port)
    let mode := s.rd (ETH_CTRL_MODE port).inForce
    let an := an && mode ≥ 2
    let link := link && (mode < 2 || an)
    let s := (s.flag (ETH_STATUS_LINK port) link).flag (ETH_STATUS_AN_DONE port) an
    let s := s.wr (ETH_STATUS_SPEED port) (if mode = 3 then speed else 3)
    let s := (s.when (link && !was) (·.raise (31 + port) 0)).when (was && !link) (·.raise (31 + port) 1)
    s.when (an && !wasAn) (·.raise (31 + port) 2)

/-- The class of a forwarded ring frame (R276). -/
def State.ringTc (s : State) (lre : Nat) (b : List Byte) : Nat :=
  let pcp := if halfAt b 12 = 0x8100 then halfAt b 14 / 8192 else 0
  if pcp ≥ s.rd (RED_LRE_CTRL_PCP_TC7 lre) then 7 else 1

/-- HSR_FORWARD (R276): a ring frame not for this node alone goes on to the other ring port, unless the duplicate table holds it
for that direction or its source is this node or a proxied one. -/
def State.hsrForward (s : State) (port : Nat) (b : List Byte) (seen : Option DupEntry) : State :=
  let lre := port / 2
  let own (m : Nat) : Bool := s.lreOwn lre m || s.stn.proxy.contains (lre, m)
  let held : Bool := match seen with | some e => e.ports.testBit port | none => false
  if held || own (beNat ((b.drop 6).take 6)) || own (beNat (b.take 6)) then s
  else
    let other := if port % 2 = 0 then port + 1 else port - 1
    s.when (s.ethUp other) (·.ethSend other (s.ringTc lre b) b)

/-- The redundancy stage: what becomes of a frame (none: it is discarded), with the counters of R275. -/
def State.lreRx (s : State) (port : Nat) (b : List Byte) : State × Bool :=
  let mode := s.lreMode port
  let lre := port / 2
  let src := beNat ((b.drop 6).take 6)
  if mode = 0 ∨ halfAt b (appOff b) = 0x88F7 then (s, true)
  else
    let s := s.nodeSeen lre b
    if mode = 1 then
      match prpTrailer b with
      | none => (s.inc RED_CNT_UNTAGGED, true)
      | some (seq, lan) =>
        let s := s.when (lan != (if port % 2 = 0 then 10 else 11)) (fun s => (s.inc (RED_CNT_WRONG_LAN port)).raise 35 1)
        match s.dupFind lre src seq with
        | some _ => ((s.inc (RED_CNT_DUP port)).dupNote lre src seq port, false)
        | none => (s.dupNote lre src seq port, true)
    else
      match hsrTag b with
      | none => (s.inc RED_CNT_UNTAGGED, true)
      | some seq =>
        let seen := s.dupFind lre src seq
        let s := (s.hsrForward port b seen).dupNote lre src seq port
        if s.lreOwn lre src ∨ s.stn.proxy.contains (lre, src) then (s, false)
        else match seen with
          | some _ => (s.inc (RED_CNT_DUP port), false)
          | none => (s, true)

/-- The frame carries a C-tag or an S-tag. -/
def tagged (b : List Byte) : Bool := halfAt b 12 == 0x8100 || halfAt b 12 == 0x88A8

/-- A frame that the redundancy stage passes: matching, the VLAN tag, with the FCS computed again (R272), and the way into the switch. -/
def State.ethPass (s : State) (port : Nat) (data : List Byte) (ns stamp endQ : Nat) (bad : Option Nat) : State :=
  let s := s.when bad.isNone (·.matchFrame (some port) data endQ)
  let b := if s.on (ETH_VLAN_TAG_INS port) && !tagged data then
      fixFcs (data.take 12 ++ beBytes 2 0x8100 ++ beBytes 2 (s.rd (ETH_VLAN_DEF_PCP port) * 8192 + s.rd (ETH_VLAN_PVID port)) ++
        data.drop 12)
    else data
  let lre := s.lreMode port != 0
  s.ingress { point := if lre then 6 + 2 * (port / 2) else 6 + port, sub := if lre then 0x1000 else 0, ns := ns,
              stamp := stamp, data := b, bad := bad }

/-- What becomes of a frame that is long enough: `bad` gives the cells that were queued when it was found bad. -/
def State.ethTake (s : State) (port : Nat) (data : List Byte) (ns stamp endQ : Nat) (bad : Option Nat) : State :=
  if bad = some 0 then s
  else if halfAt data 12 = 0x8808 then s.inc (ETH_CTRL_DROP port)
  else if (s.rd (ETH_VLAN_ACCEPT port) = 1 ∧ !tagged data) ∨ (s.rd (ETH_VLAN_ACCEPT port) = 2 ∧ tagged data) then
    s.inc (ETH_VLAN_DROP port)
  else if halfAt data (appOff data) = 0x88F7 ∧ s.isOn 37 then s
  else
    match s.lreRx port data with
    | (s, false) => s
    | (s, true) => s.ethPass port data ns stamp endQ bad

/-- ETH_FRAME_RX (R271, R275, R276, R282): a frame arrives (destination MAC to FCS), with the time in ns of its first bit, its
ingress stamp (64-bit format), the stamp in quarter ns of its last bit, and, for a frame found bad, the cells queued by then. -/
def execEthFrameRx (port : Nat) (data : List Byte) (fcsOk : Bool) (ns stamp endQ cut : Nat) (s : State) :
    Outcome State Fault Refusal :=
  done <| s.when (port < 4 && s.ethUp port) fun s =>
    let s := s.inc (ETH_RX_FRAMES port)
    let long := decide (data.length > s.rd (ETH_CTRL_MAX_LEN port).inForce)
    if data.length < 64 then s.inc (ETH_LEN_ERR port)
    else
      let s := if long then s.inc (ETH_LEN_ERR port) else if fcsOk then s else s.inc (ETH_FCS_ERR port)
      s.ethTake port data ns stamp endQ (if long || !fcsOk then some cut else none)

/-- TX_UNDERRUN (R445): the next cell of the frame that a port sends is not stored in time. -/
def execTxUnderrun (port : Nat) (s : State) : Outcome State Fault Refusal :=
  done <| s.when (port < 4) fun s =>
    match tget? s.gird.openAt (6 + port) with
    | none => s
    | some tc =>
      if !s.openThere (6 + port) tc then s.openLost (6 + port)
      else match s.queue (8 * (6 + port) + tc) with
      | f :: _ => s.when f.cells.isEmpty (·.underrun (6 + port) tc)
      | [] => s

/-- SUPERVISION_SEND (R277): supervision frames on both ports of an active LRE, to 01-15-4E-00-01-XX. -/
def execSupervisionSend (lre : Nat) (s : State) : Outcome State Fault Refusal :=
  done <| s.when (lre < 2 && s.lreMode (2 * lre) != 0 && s.rd (FAC_ENG_STATE_STATE 7) == 2) fun s =>
    let (seq, s) := s.lreSeq lre
    foldS [2 * lre, 2 * lre + 1] (fun s p => s.ethSend p 1
      (beBytes 6 (0x01154E000100 + s.rd (RED_LRE_CTRL_SUP_ADDR lre)) ++ beBytes 6 (tget 0 s.stn.mac p) ++ beBytes 2 0x88FB ++
        beBytes 2 0x1 ++ beBytes 2 seq)) s

/-- NODE_FORGET (R277): a node unseen for 60 s is removed, unless engine 7 is being reloaded. -/
def execNodeForget (lre mac : Nat) (s : State) : Outcome State Fault Refusal :=
  done <| s.when (s.rd (FAC_ENG_STATE_STATE 7) == 2 &&
      s.stn.nodes.any (fun e => e.1 == lre && e.2.1 == mac && e.2.2 + 60000000000 ≤ s.elapsed)) fun s =>
    (s.modStn (fun t => { t with nodes := t.nodes.filter (fun e => !(e.1 == lre && e.2.1 == mac)) })).raise 35 0

/-! ## PTP (R279–R281) -/

/-- The clockClass that master ports send (R280). -/
def State.clockClass (s : State) : Nat :=
  let st := s.rd TIME_SRC_STATUS_STATE
  if !s.on TIME_SRC_STATUS_TIME_VALID then 248 else if st = stLocked then 6 else if st = stHoldover then 7 else 248

/-- PTP_EVENT_MESSAGE (R279, R281): an event message passes its timestamp point, at raw stamp `raw` in quarter ns; `typ` 0 Sync,
1 Delay_Req, 2 Pdelay_Req, 3 Pdelay_Resp.  A received Pdelay_Resp carries t2 and t3; a message that the transparent clock
passes on names the receive stamp `rx`. -/
def execPtpEventMessage (port : Nat) (tx : Bool) (typ seq raw t2 t3 : Nat) (rx : Option Nat) (s : State) :
    Outcome State Fault Refusal :=
  done <| s.when (port < 4 && typ ≤ 3 && s.isOn 37) fun s =>
    if tx then
      let st := raw + s.rd (PTP_TXDLY port)
      let s := s.modStn (fun t =>
        { t with ptpTx := t.ptpTx.filter (fun e => !(e.1 == port && e.2.1 == typ)) ++ [(port, typ, seq, st)] })
      let two := typ == 0 && !s.on PTP_CTRL_ONE_STEP.inForce
      let corr : Int := match rx with | some r => if s.rd PTP_CTRL_TYPE.inForce = 2 then (st : Int) - r else 0 | none => 0
      (s.when two (·.modStn (fun t => { t with followUp := t.followUp.filter (· != port) ++ [port] }))).emit
        (.ptp port typ seq st corr s.clockClass)
    else
      let st := raw - s.rd (PTP_RXDLY port)
      s.when (typ == 3) fun s =>
        match s.stn.ptpTx.find? (fun e => e.1 == port && e.2.1 == 2 && e.2.2.1 == seq) with
        | none => s
        | some (_, _, _, t1) => s.wr (PTP_PDELAY port) (((st - t1) - (t3 - t2)) / 2)

/-- FOLLOW_UP_SEND (R279): engine 3 sends the Follow_Up of a two-step Sync. -/
def execFollowUpSend (port : Nat) (s : State) : Outcome State Fault Refusal :=
  done <| s.when (s.stn.followUp.contains port && s.rd (FAC_ENG_STATE_STATE 3) == 2) fun s =>
    let s := s.modStn (fun t => { t with followUp := t.followUp.filter (· != port) })
    match s.stn.ptpTx.find? (fun e => e.1 == port && e.2.1 == 0) with
    | none => s
    | some (_, _, seq, st) => s.emit (.ptp port 8 seq st 0 s.clockClass)

/-- UTC_OFS takes what a grandmaster says of UTC (R173). -/
def State.putUtc (s : State) (u : UtcInfo) : State :=
  (((s.wrS TIME_UTC_OFS_OFFSET u.offset).flag TIME_UTC_OFS_VALID u.valid).flag TIME_UTC_OFS_LI59 u.li59).flag TIME_UTC_OFS_LI61 u.li61

/-- ANNOUNCE_RECEIVED (R280): engine 3 runs the BMCA on an Announce; `states` are the port states (4 bits per port) and `gm` the
grandmaster that follow.  Where PTP is the source, what the grandmaster's Announce messages now say of UTC is kept in UTC_OFS (R173). -/
def execAnnounceReceived (port states : Nat) (gm : Nat × Option UtcInfo) (s : State) : Outcome State Fault Refusal :=
  done <| s.when (port < 4 && s.isOn 37 && s.rd (FAC_ENG_STATE_STATE 3) == 2) fun s =>
    let s := s.when (s.rd PTP_PORT_ST != states % 65536) (fun s => (s.wr PTP_PORT_ST (states % 65536)).raise 37 0)
    let s := s.when (s.stn.gm != gm.1) (fun s => (s.modStn (fun t => { t with gm := gm.1 })).raise 37 1)
    match gm.2 with
    | some u => s.when (s.rd TIME_SRC_CTRL_SRC == 1) (·.putUtc u)
    | none => s

/-! ## Subscriptions (R283–R285) -/

/-- Status bits of a subscription (W7). -/
def subBase : Nat := 0
def subTalExp : Nat := 1
def subNotSync : Nat := 2
def subTplErr : Nat := 3

/-- Add one to a 10-bit field of W31: 2 CONF_ERR, 1 TPL_MISMATCH, 0 MALFORMED. -/
def State.subSmall (s : State) (i k : Nat) : State :=
  let f : Fld := ⟨(SUB_CNT i 3).addr, 10 * k + 9, 10 * k⟩
  s.inc f

/-- The values of a subscription's enabled members in a dataset: FOUT and level; none if a check fails (R284). -/
def State.members (s : State) (i : Nat) (all : List Byte) : Option (List (Nat × Bool)) :=
  let ms := ((List.range 16).map (fun m => s.rd (SUB_MEMBER i m))).filter (fun w => bitsOf w 31 31 == 1)
  if ms.all (fun w => byteAt all (bitsOf w 11 0) == 0x83 && byteAt all (bitsOf w 11 0 + 1) == 1 && bitsOf w 11 0 + 2 < all.length) then
    some (ms.map (fun w => (bitsOf w 18 16, (byteAt all (bitsOf w 11 0 + 2) != 0) != (bitsOf w 30 30 == 1))))
  else none

/-- GOOSE_PIN_DRIVE (R284, R285). -/
def State.pinDrive (s : State) (i : Nat) (all : List Byte) : State :=
  match s.members i all with
  | some l => foldS l (fun s (e : Nat × Bool) => s.drive e.1 e.2) (s.setBit (SUB_STATUS i) subTplErr false)
  | none => ((s.setBit (SUB_STATUS i) subTplErr true).subSmall i 1).raise 36 1

/-- The expiry of a subscription moves. -/
def State.setExpiry (s : State) (i q : Nat) : State := s.modStn (fun t => { t with expiry := tset t.expiry i q })

/-- The outcome of the GOOSE checks: accepted, new state, and the counter (0 SQ_GAP, 1 OOO, 2 ST_JUMP). -/
def gooseCheck (base : Bool) (sN qN st sq : Nat) : Bool × Bool × Option Nat :=
  let nxt (n : Nat) : Nat := if n ≥ 0xFFFFFFFF then 1 else n + 1
  if !base then (true, false, none)
  else if st = nxt sN ∧ sq = 0 then (true, true, none)
  else if st = sN ∧ sq = nxt qN then (true, false, none)
  else if st = sN ∧ sq > qN then (true, false, some 0)
  else if st = sN then (false, false, some 1)
  else (true, true, some 2)

/-- A matched GOOSE frame is accepted (R283, R285).  DEDUCED (log entry 144): the status bits show the present state, so acceptance clears
TAL_EXP, a matching template TPL_ERR, and each SV frame NOT_SYNC. -/
def State.gooseAccept (s : State) (i st sq tal q : Nat) (fresh : Bool) (all : List Byte) : State :=
  let was := s.bit (SUB_STATUS i) subBase
  let s := (s.setBit (SUB_STATUS i) subBase true).setBit (SUB_STATUS i) subTalExp false
  let s := (s.wr (SUB_LAST i 0) st).wr (SUB_LAST i 1) sq
  let s := (s.wr (SUB_STAMP i 0) (stamp64 q / 2 ^ 32)).wr (SUB_STAMP i 1) (stamp64 q)
  let s := s.setExpiry i (q + 4000000 * tal + 4000 * s.rd (SUB_TAL_GRACE i))
  let s := s.pinDrive i all
  let s := s.when fresh (·.stageEvent 1 i (stamp64 q) st sq (s.rd (SUB_STATUS i)))
  s.when (!was) (·.stageEvent 2 i (stamp64 q) st sq (s.rd (SUB_STATUS i)))

/-- A matched GOOSE frame is checked (R283). -/
def State.gooseFrame (s : State) (i : Nat) (b : List Byte) (q : Nat) : State :=
  match pduElems 0x61 b with
  | none => s.subSmall i 0
  | some l =>
    let num (t : Nat) : Option Nat := (berGet l t).map beNat
    match num 0x81, num 0x85, num 0x86, num 0x88, berGet l 0xAB with
    | some tal, some st, some sq, some rev, some all =>
      let sim := (num 0x87).getD 0 != 0
      let nds := (num 0x89).getD 0 != 0
      if rev % 2 ^ 32 ≠ s.rd (SUB_CONFREV i) ∨ nds then s.subSmall i 2
      else if sim && !s.on (SUB_SIM_ACCEPT i) then s
      else
        let st := st % 2 ^ 32
        let sq := sq % 2 ^ 32
        let r := gooseCheck (s.bit (SUB_STATUS i) subBase) (s.rd (SUB_LAST i 0)) (s.rd (SUB_LAST i 1)) st sq
        let s := match r.2.2 with | some k => s.inc (SUB_CNT i k) | none => s
        s.when r.1 (·.gooseAccept i st sq tal q r.2.1 all)
    | _, _, _, _, _ => s.subSmall i 0

/-- Take the first matched frame of a kind that waits. -/
def State.takeMatched (s : State) (sv : Bool) : Option ((Nat × List Byte × Nat) × State) :=
  let k := (s.stn.matched.takeWhile (fun m => (halfAt m.2.1 (appOff m.2.1) == 0x88BA) != sv)).length
  match s.stn.matched[k]? with
  | none => none
  | some m => some (m, s.modStn (fun t => { t with matched := t.matched.eraseIdx k }))

/-- GOOSE_FRAME_MATCHED (R283–R285): the matched GOOSE frame that waits longest is checked. -/
def execGooseFrameMatched (s : State) : Outcome State Fault Refusal :=
  done <| match s.takeMatched false with
    | none => s
    | some ((i, b, q), s) => s.gooseFrame i b q

/-- A matched SV frame is checked (R283). -/
def State.svFrame (s : State) (i : Nat) (b : List Byte) (q : Nat) : State :=
  match svAsdus b with
  | none => s.subSmall i 0
  | some l =>
    let was := s.bit (SUB_STATUS i) subBase
    let asdu (a : State × Bool) (e : List (Nat × List Byte)) : State × Bool :=
      match (berGet e 0x82).map beNat with
      | none => (a.1.subSmall i 0, a.2)
      | some n =>
        let want := (a.1.rd (SUB_LAST i 0) + 1) % max 1 (a.1.rd (SUB_SMP_WRAP i))
        let s := a.1.when (a.2 && n != want) (·.inc (SUB_CNT i 0))
        let s := s.when ((berGet e 0x85).map beNat == some 0) (·.setBit (SUB_STATUS i) subNotSync true)
        (s.wr (SUB_LAST i 0) n, true)
    let s := s.setBit (SUB_STATUS i) subNotSync false
    let s := (l.foldl asdu (s, was)).1
    let s := (s.setBit (SUB_STATUS i) subBase true).setBit (SUB_STATUS i) subTalExp false
    let s := (s.wr (SUB_STAMP i 0) (stamp64 q / 2 ^ 32)).wr (SUB_STAMP i 1) (stamp64 q)
    let s := s.setExpiry i (q + 4000 * s.rd (SUB_SV_TO i))
    s.when (!was) (·.stageEvent 3 i (stamp64 q) 0 0 (s.rd (SUB_STATUS i)))

/-- SV_FRAME_MATCHED (R283): the matched SV frame that waits longest is checked. -/
def execSvFrameMatched (s : State) : Outcome State Fault Refusal :=
  done <| match s.takeMatched true with
    | none => s
    | some ((i, b, q), s) => s.svFrame i b q

/-- TAL_EXPIRY (R283, R285): the expiry time of subscription `i` has come: its base is dropped, and its members take their FAIL
action. -/
def execTalExpiry (i : Nat) (s : State) : Outcome State Fault Refusal :=
  done <| match tget? s.stn.expiry i with
    | none => s
    | some q => s.when (q ≤ s.nowQ + 3 && s.isOn 36) fun s =>
      let s := s.modStn (fun t => { t with expiry := tdel t.expiry i })
      let s := (s.setBit (SUB_STATUS i) subBase false).setBit (SUB_STATUS i) subTalExp true
      let s := (s.eventBit (STN_SUB_EVT (i / 32)) (i % 32)).raise 36 0
      let s := s.stageEvent (if s.on (SUB_KIND i) then 3 else 2) i (stamp64 q) (s.rd (SUB_LAST i 0)) (s.rd (SUB_LAST i 1))
        (s.rd (SUB_STATUS i))
      s.when (!s.on (SUB_KIND i)) fun s => foldS (List.range 16) (fun s m =>
        let w := s.rd (SUB_MEMBER i m)
        s.when (bitsOf w 31 31 == 1 && bitsOf w 29 29 == 1) (·.drive (bitsOf w 18 16) (bitsOf w 28 28 == 1))) s

/-! ## Publications (R286–R288) -/

/-- The elements before the PDU and of the PDU of a template, and the template's head. -/
def tplParts (b : List Byte) : Option (List Byte × List (Nat × List Byte)) :=
  (pduElems 0x61 b).map (fun l => (b.take (appOff b + 10), l))

/-- The frame of a publication: stNum, sqNum, timeAllowedToLive and t written in, lengths recomputed (R286). -/
def pubFrame (b t : List Byte) (tal st sq : Nat) : List Byte :=
  match tplParts b with
  | none => b
  | some (head, l) =>
    let sub (e : Nat × List Byte) : List Byte :=
      berEnc e.1 (if e.1 = 0x81 then berNat tal else if e.1 = 0x84 then t else if e.1 = 0x85 then berNat st
        else if e.1 = 0x86 then berNat sq else e.2)
    let pdu := berEnc 0x61 (l.flatMap sub)
    putBytes head (appOff b + 4) (beBytes 2 (8 + pdu.length)) ++ pdu

/-- The interval in ms from frame `k` to frame `k + 1`. -/
def State.pubInterval (s : State) (i k : Nat) : Nat := min (s.rd (PUB_MIN_T i) * 2 ^ min k 16) (s.rd (PUB_MAX_T i))

/-- Send the present frame of a publication on its ports and LREs (R286, R288). -/
def State.pubSend (s : State) (i : Nat) : State :=
  let p := tget {} s.stn.pubs i
  let b := pubFrame p.frame p.t (s.rd (PUB_TAL_MULT i) * s.pubInterval i p.k) (s.rd (PUB_STSQ i 0)) (s.rd (PUB_STSQ i 1))
  let ports := (List.range 4).filter (fun k => s.bit (PUB_OUT_PORTS i) k)
  let s := foldS ports (fun s k => s.ethSend k 7 b) s
  let s := foldS ((List.range 2).filter (fun x => s.bit (PUB_OUT_LRE i) x)) (fun s x =>
    let (seq, s) := s.lreSeq x
    ((s.emit (.lreTag (2 * x) (s.lreMode (2 * x)) 10 seq)).ethSend (2 * x) 7 b).emit (.lreTag (2 * x + 1) (s.lreMode (2 * x)) 11 seq)
      |>.ethSend (2 * x + 1) 7 b) s
  s.inc (PUB_SENT i)

/-- Where allData's content begins in a template. -/
def allDataAt (b : List Byte) : Option Nat :=
  match (pduElems 0x61 b).bind (fun l => berGet l 0xAB) with
  | none => none
  | some c => some (b.length - c.length)

/-- The t field of an EVI stamp in quarter ns (R287). -/
def State.utcTime (s : State) (q : Nat) (valid : Bool) : List Byte :=
  let ns := q / 4
  beBytes 4 (twos 32 (((ns / 1000000000 : Nat) : Int) - s.rdS TIME_UTC_OFS_OFFSET)) ++
    beBytes 3 (ns % 1000000000 * 2 ^ 24 / 1000000000) ++
    beBytes 1 (128 * s.rd TIME_UTC_OFS_VALID + 32 * (!valid).toNat + if valid then 20 else 31)

/-- Accepted changes of inputs at one instant: each publication that binds one of them sets its members and sends one frame
(R286, R288).  `l` holds the inputs and their accepted levels. -/
def State.pubChanges (s : State) (l : List (Nat × Bool)) (q : Nat) (valid : Bool) : State :=
  s.when (s.isOn 36) fun s => foldS (List.range 32) (fun s i =>
    let ms := ((List.range 16).map (fun m => s.rd (PUB_MEMBER i m))).filter (fun w => bitsOf w 31 31 == 1)
    let hit := ms.filterMap (fun w => (l.find? (fun e => e.1 == bitsOf w 19 16)).map (fun e => (w, e.2)))
    if !s.on (PUB_EN i) || hit.isEmpty then s
    else
      let p := tget {} s.stn.pubs i
      let base := if p.frame.isEmpty then (tget [] s.stn.tpl i).take (s.rd (PUB_LEN i)) else p.frame
      match allDataAt base with
      | none => s
      | some o =>
        let f := hit.foldl (fun b (e : Nat × Bool) =>
          putBytes b (o + bitsOf e.1 11 0 + 2) [if e.2 != (bitsOf e.1 30 30 == 1) then 0xFF else 0]) base
        let st := s.rd (PUB_STSQ i 0)
        let s := (s.wr (PUB_STSQ i 0) (if st ≥ 0xFFFFFFFF then 1 else st + 1)).wr (PUB_STSQ i 1) 0
        (s.modStn (fun t => { t with pubs := tset t.pubs i { k := 0, t := s.utcTime q valid, frame := f } })).pubSend i) s

/-- PUBLICATION_REPEAT (R288): the repeat interval of publication `i` ends. -/
def execPublicationRepeat (i : Nat) (s : State) : Outcome State Fault Refusal :=
  done <| s.when (i < 32 && s.isOn 36 && s.on (PUB_EN i)) fun s =>
    match tget? s.stn.pubs i with
    | none => s
    | some p =>
      let sq := s.rd (PUB_STSQ i 1)
      let s := s.wr (PUB_STSQ i 1) (if sq ≥ 0xFFFFFFFF then 1 else sq + 1)
      (s.modStn (fun t => { t with pubs := tset t.pubs i { p with k := p.k + 1 } })).pubSend i

/-! ## The window (R282, R285, R286) -/

/-- The path's window shows a publication: its last select was PUB_SEL. -/
def State.winPub (s : State) (p : Path) : Bool := s.stn.selPub.contains p.num

/-- The base address of the entry that a path has selected. -/
def State.stnEntry (s : State) (p : Path) : Nat :=
  if s.winPub p then 0x240000 + 0x80 * s.rd (STN_PUB_SEL.onPath p) else 0x230000 + 0x80 * s.rd (STN_SUB_SEL.onPath p)

/-- Word `k` of a path's window. -/
def stnWin (p : Path) (k : Nat) : Fld := (STN_WIN k).onPath p

/-- The template words of a path as bytes. -/
def State.tplBytes (s : State) (p : Path) : List Byte := (List.range 128).flatMap (fun k => leBytes 4 (s.rd ((STN_TPL k).onPath p)))

/-- What LOAD does. -/
def State.stnLoad (s : State) (p : Path) : State :=
  let a := s.stnEntry p
  let s := foldS (List.range 32) (fun s k => s.wr (stnWin p k) (s.word (a + 4 * k)).toNat) s
  s.when (s.winPub p) fun s =>
    let b := tget [] s.stn.tpl (s.rd (STN_PUB_SEL.onPath p))
    foldS (List.range 128) (fun s k => s.wr ((STN_TPL k).onPath p) (leNat ((b.drop (4 * k)).take 4))) s

/-- The command bit of STN_LOAD (R282). -/
def cmdStnLoad (p : Path) : Cmd :=
  Cmd.mk STN_CMD_LOAD okChk (·.stnLoad p)

/-- STN_LOAD (R282). -/
def execStnLoad (p : Path) (s : State) : Outcome State Fault Refusal :=
  done <| s.runCmd p (cmdStnLoad p)

/-- An output is bound by an enabled member of a GOOSE subscription other than `i`.  DEDUCED (log entry 144): only enabled subscriptions own
outputs, and the members of an SV subscription bind none. -/
def State.foutOwned (s : State) (i k : Nat) : Bool :=
  (List.range 512).any (fun j => j != i && s.on (SUB_EN j) && !s.on (SUB_KIND j) &&
    (List.range 16).any (fun m => bitsOf (s.rd (SUB_MEMBER j m)) 31 31 == 1 && bitsOf (s.rd (SUB_MEMBER j m)) 18 16 == k))

/-- The reason for which a subscription window fails; 0 if none (R285). -/
def State.subReason (s : State) (p : Path) : Nat :=
  let i := s.rd (STN_SUB_SEL.onPath p)
  let w (k : Nat) : Nat := s.rd (stnWin p k)
  let ms := ((List.range 16).map (fun m => w (12 + m))).filter (fun x => bitsOf x 31 31 == 1)
  let fs := ms.map (fun x => bitsOf x 18 16)
  if bitsOf (w 6) 31 16 = 0 ∧ bitsOf (w 0) 30 30 = 1 then 1
  else if bitsOf (w 0) 31 30 = 2 ∧ (fs.eraseDups.length ≠ fs.length ∨
      fs.any (fun k => s.foutOwned i k || s.rd (EVI_FOUT_CTRL_MODE k) != 4)) then 4
  else 0

/-- The reason for which a publication window fails; 0 if none (R286). -/
def State.pubReason (s : State) (p : Path) : Nat :=
  let w (k : Nat) : Nat := s.rd (stnWin p k)
  let len := bitsOf (w 0) 9 0
  let minT := bitsOf (w 1) 15 0
  let b := (s.tplBytes p).take len
  let ms := ((List.range 16).map (fun m => w (5 + m))).filter (fun x => bitsOf x 31 31 == 1)
  if len < 64 ∨ len > 512 ∨ minT < 1 ∨ minT > bitsOf (w 1) 31 16 ∨ bitsOf (w 2) 3 0 = 0 then 1
  else if bitsOf (w 0) 31 31 = 0 then 0
  else match allDataAt b with
    | none => 3
    | some o =>
      if ms.all (fun x => byteAt b (o + bitsOf x 11 0) == 0x83 && byteAt b (o + bitsOf x 11 0 + 1) == 1 && o + bitsOf x 11 0 + 2 < len)
      then 0 else 3

/-- The writable bits of window word `k`. -/
def stnMask (pub : Bool) (k : Nat) : Nat :=
  if pub then
    (if k = 0 then 0x8000FFFF else if k = 1 then 0xFFFFFFFF else if k = 2 then 0xF else if k ≤ 4 then 0xFFFFFFFF
     else if k ≤ 20 then 0xC00F0FFF else 0)
  else
    (if k = 0 then 0xFF00FFFF else if k = 1 then 0xFFFF else if k ≤ 6 then 0xFFFFFFFF else if 12 ≤ k ∧ k ≤ 27 then 0xF0070FFF else 0)

/-- What COMMIT does: the writable words apply at one instant.  stNum and sqNum of a publication apply only while it is not
enabled; a subscription that is enabled starts without a base. -/
def State.stnCommit (s : State) (p : Path) : State :=
  let pub := s.winPub p
  let r := if pub then s.pubReason p else s.subReason p
  let s := s.wr (STN_STATUS_REASON.onPath p) r
  if r ≠ 0 then s
  else
    let a := s.stnEntry p
    let was := (s.word a).toNat / 2 ^ 31 = 1
    let s := foldS (List.range 32) (fun s k =>
      let m := stnMask pub k
      s.when (m != 0 && !(pub && was && (k == 3 || k == 4))) (fun s =>
        s.setWord (a + 4 * k) ((s.word (a + 4 * k) &&& ~~~(BitVec.ofNat 32 m)) ||| (BitVec.ofNat 32 (s.rd (stnWin p k)) &&& BitVec.ofNat 32 m)))) s
    let en := (s.word a).toNat / 2 ^ 31 = 1
    if pub then
      let i := s.rd (STN_PUB_SEL.onPath p)
      s.modStn (fun t => { t with tpl := if was then t.tpl else tset t.tpl i (s.tplBytes p), pubs := if en && was then t.pubs else tdel t.pubs i })
    else
      let i := s.rd (STN_SUB_SEL.onPath p)
      if en && was then s else (s.wr (SUB_STATUS i) 0).modStn (fun t => { t with expiry := tdel t.expiry i })

/-- The command bit of STN_COMMIT (R285, R286). -/
def cmdStnCommit (p : Path) : Cmd :=
  Cmd.mk STN_CMD_COMMIT okChk (·.stnCommit p)

/-- STN_COMMIT (R285, R286). -/
def execStnCommit (p : Path) (s : State) : Outcome State Fault Refusal :=
  done <| s.runCmd p (cmdStnCommit p)

/-- What CLR_CNT does. -/
def State.stnClr (s : State) (p : Path) : State :=
  if s.winPub p then s.wr (PUB_SENT (s.rd (STN_PUB_SEL.onPath p))) 0
  else foldS (List.range 4) (fun s k => s.wr (SUB_CNT (s.rd (STN_SUB_SEL.onPath p)) k) 0) s

/-- The command bit of STN_CLR_CNT (R282). -/
def cmdStnClrCnt (p : Path) : Cmd :=
  Cmd.mk STN_CMD_CLR_CNT okChk (·.stnClr p)

/-- STN_CLR_CNT (R282). -/
def execStnClrCnt (p : Path) (s : State) : Outcome State Fault Refusal :=
  done <| s.runCmd p (cmdStnClrCnt p)

/-! ## The scribe (R289–R291) -/

/-- STATE of the scribe. -/
def State.setScribe (s : State) (v : Nat) : State :=
  if s.rd NVS_STATUS_STATE = v then s else (s.wr NVS_STATUS_STATE v).raise 38 0

/-- A log block (*Log block*): magic, sequence, time, entries in use, unit ID, kind map, CRC and 63 entries. -/
def logBlock (seq time unit : Nat) (l : List (Nat × List Byte)) : List Byte :=
  let map_ := ((List.range l.length).zip l).foldl (fun a (e : Nat × Nat × List Byte) => a + e.2.1 * 4 ^ e.1) 0
  let head := beBytes 4 0x57534C47 ++ beBytes 4 seq ++ beBytes 8 time ++ beBytes 2 l.length ++ beBytes 2 0 ++ beBytes 8 unit ++
    leBytes 16 map_ ++ List.replicate 16 0
  let body := ((l.flatMap (fun (e : Nat × List Byte) => e.2)) ++ List.replicate 4032 0).take 4032
  head ++ beBytes 4 (crc32c (head ++ body)) ++ body

/-- SCRIBE_SEAL (R290): the block is sealed and written with FUA to the next ring position, in the states in which the scribe may
write. -/
def execScribeSeal (s : State) : Outcome State Fault Refusal :=
  done <| s.when ((s.rd NVS_STATUS_STATE == 1 || s.rd NVS_STATUS_STATE == 3) && !s.stn.stage.isEmpty) fun s =>
    let l := s.stn.stage.take 63
    let n := s.stn.blockSeq
    let start := s.rd NVS_RING_START_LO.inForce + 2 ^ 32 * s.rd NVS_RING_START_HI.inForce
    let pos := s.stn.blockPos
    let s := s.modStn (fun t =>
      { t with stage := t.stage.drop 63, blockSeq := (n + 1) % 2 ^ 32, blockPos := (pos + 1) % max 1 (s.rd NVS_RING_LEN.inForce),
               inFlight := t.inFlight ++ [n] })
    s.emit (.nvme (start + Config.lbaPerBlock * pos) (logBlock n s.recTime s.chip.unitId l))

/-- SCRIBE_WRITE_DONE (R290): the oldest write completes, or counts an error; with none in flight the RWP fields take effect. -/
def execScribeWriteDone (ok : Bool) (s : State) : Outcome State Fault Refusal :=
  done <| match s.stn.inFlight with
    | [] => s
    | n :: l =>
      let s := s.modStn (fun t => { t with inFlight := l })
      let s := if ok then s.wr NVS_BLOCK_SEQ n else (s.inc NVS_WRITE_ERR).raise 38 1
      s.when l.isEmpty (·.applyRwp 38)

/-- SCRIBE_START (R290): the highest valid block that the search found (sequence and position), after which the log goes on. -/
def execScribeStart (last : Option (Nat × Nat)) (s : State) : Outcome State Fault Refusal :=
  done <| s.when (s.rd NVS_STATUS_STATE == 1) fun s =>
    s.modStn (fun t => match last with
      | some (n, pos) => { t with blockSeq := (n + 1) % 2 ^ 32, blockPos := (pos + 1) % max 1 (s.rd NVS_RING_LEN.inForce) }
      | none => { t with blockSeq := 1, blockPos := 0 })

/-- SCRIBE_HANDOVER (R291, R292): phase 0, the host's contexts come ON: a block being sealed is written first, and the handover
starts; phase 1, the outstanding writes are complete: CC.EN = 0, and the port reports presence; phase 2, the driver has created
the scribe's queue pair, or its queue is gone. -/
def execScribeHandover (phase : Nat) (queueFound : Bool) (s : State) : Outcome State Fault Refusal :=
  done <|
    let st := s.rd NVS_STATUS_STATE
    if phase = 0 then s.when (st == 1) (fun s => (s.setScribe 2).modStn (fun t => { t with handover := true }))
    else if phase = 1 then
      s.when (st == 2 && s.stn.inFlight.isEmpty) (fun s =>
        ((s.emit (.scribe 2)).setScribe (if queueFound then 3 else 4)).modStn (fun t => { t with handover := false }))
    else s.when (st == 3 || st == 4) (·.setScribe (if queueFound then 3 else 4))

/-- SCRIBE_TAKE_OWNERSHIP (R291): the host's contexts leave ON, and the scribe takes the controller. -/
def execScribeTakeOwnership (s : State) : Outcome State Fault Refusal :=
  done <| s.when (s.rd NVS_STATUS_STATE ≥ 2 && s.isOn 38) fun s =>
    ((s.setScribe 1).emit (.scribe 1)).modStn (fun t => { t with handover := false, inFlight := [] })

end Sys2Proof.Machine
end

