-- ==== Sys2Proof/Machine/Usb.lean ====
section
/-!
DEFINITION. The service function and the split hub (`12_usb.md`).
-/

namespace Sys2Proof.Machine

open Host (Outcome)

/-! ## The service function (R250–R255) -/

/-- An interface of the service function is present: 0 MGMT, 1 ACM, 2 DFU (R250). -/
def State.iface (s : State) (k : Nat) : Bool := s.isOn 29 && s.rd USBD_STATUS_STATE ≥ 3 && s.usb.ifaces.testBit k && !s.usb.left

/-- A request is stalled. -/
def State.usbStall (s : State) : State := s.emit (.usbFn 4)

/-- ACM_DATA (R252): console data of the host goes to the routed UART, or to the service console. -/
def execAcmData (data : List Byte) (s : State) : Outcome State Fault Refusal :=
  done <| s.when (s.iface 1) fun s =>
    let r := s.rd USBD_CTRL_ACM_ROUTE
    if r ≤ 3 then s.when (s.isOn 26 && s.on (LSIO_UART_CFG_EN r).inForce) (·.emit (.unitTx 1 r 0 data))
    else s.emit (.unitTx 5 0 0 data)

/-- The divisor of a baud rate, rounded: 266.7 MHz ÷ 16 ÷ rate (*LSIO registers*). -/
def baudDiv (baud : Nat) : Nat := (100000000 + 3 * baud) / (6 * baud)

/-- SET_LINE_CODING (R252): applied to the routed UART's configuration when its values lie in range, else stalled. -/
def execSetLineCoding (baud stop parity bits : Nat) (s : State) : Outcome State Fault Refusal :=
  done <| s.when (s.iface 1) fun s =>
    let r := s.rd USBD_CTRL_ACM_ROUTE
    let d := baudDiv baud
    if r > 3 then s
    else if baud = 0 ∨ d < 5 ∨ d > 55556 ∨ (stop ≠ 0 ∧ stop ≠ 2) ∨ parity > 2 ∨ (bits ≠ 7 ∧ bits ≠ 8) then s.usbStall
    else
      let s := (s.wr (LSIO_UART_CFG_DIV r) d).wr (LSIO_UART_CFG_PARITY r) parity
      (s.flag (LSIO_UART_CFG_STOP2 r) (stop == 2)).flag (LSIO_UART_CFG_BITS7 r) (bits == 7)

/-- SET_CONTROL_LINE_STATE (R252): drives RTS of the routed UART. -/
def execSetControlLineState (rts : Bool) (s : State) : Outcome State Fault Refusal :=
  done <| s.when (s.iface 1 && s.rd USBD_CTRL_ACM_ROUTE ≤ 3) fun s => s.emit (.uartRts (s.rd USBD_CTRL_ACM_ROUTE) rts)

/-- DFU_UPLOAD (R253): stalled. -/
def execDfuUpload (s : State) : Outcome State Fault Refusal := done (s.when (s.iface 2) (·.usbStall))

/-- USB_BUS_RESET (R250, R254): a bus reset on U0, or on U1 (`u1`), with a control transfer in progress at the function
(`ctrl`); `hs` tells whether the chirp gives high speed. -/
def execUsbBusReset (u1 ctrl hs : Bool) (s : State) : Outcome State Fault Refusal :=
  done <|
    if u1 then
      s.when (s.isOn 30 && s.crown) fun s =>
        let s := (s.applyRwp 30).when ctrl (fun s => (s.inc USBD_SETUP_ABORT).raise 29 6)
        let s := ((s.inc USBD_BUS_RESETS).flag USBH_HUB_STATUS_HOST_HS hs).flag USBH_HUB_STATUS_SUSPENDED false
        let s := (s.dropDeferred (fun _ => true)).modUsb (fun u => { u with hubRwake := false, hubWake := false, absent := [], resetting := [] })
        foldS ((List.range 15).map (· + 1)) (fun s p => s.flag (USBH_PORT_ST_ENABLED p) false) s
    else
      s.when (s.isOn 29 && s.rd USBD_STATUS_STATE ≥ 1 && !s.usb.left) fun s =>
        let s := s.when ctrl (fun s => (s.inc USBD_SETUP_ABORT).raise 29 6)
        let s := ((s.inc USBD_BUS_RESETS).raise 29 2).wr USBD_STATUS_STATE 3
        let s := ((s.wr USBD_STATUS_ADDRESS 0).flag USBD_STATUS_RWAKE false).flag USBD_STATUS_SUSPENDED false
        let s := s.wr USBD_STATUS_SPEED (if hs && !s.on USBD_CTRL_FS_ONLY then 3 else 2)
        s.modUsb (fun u =>
          { u with resetAt := some s.elapsed, mgmtWait := false,
                   ifaces := s.rd USBD_CTRL_MGMT_EN + 2 * s.rd USBD_CTRL_ACM_EN + 4 * s.rd USBD_CTRL_DFU_EN })

/-- The bus of U0, or of U1 (`u1`), may be woken: remote wake is enabled and the bus has been suspended for at least 5 ms (R255). -/
def State.mayWake (s : State) (u1 : Bool) : Bool :=
  if u1 then s.isOn 30 && s.on USBH_HUB_STATUS_SUSPENDED && s.usb.hubRwake && s.usb.hubWake && decide (s.usb.hubSusp + 5000000 ≤ s.elapsed)
  else s.isOn 29 && s.on USBD_STATUS_SUSPENDED && s.on USBD_STATUS_RWAKE && decide (s.usb.fnSusp + 5000000 ≤ s.elapsed)

/-- REMOTE_WAKE_SIGNAL (R255, R267): the service function, or the hub for a remote wake of a port, drives K for 2 ms, unless the line is K
already or the host starts its own resume while it drives. -/
def execRemoteWakeSignal (u1 lineK hostK : Bool) (s : State) : Outcome State Fault Refusal :=
  done <|
    s.when (s.mayWake u1) fun s =>
      let s := s.when u1 (·.modUsb (fun u => { u with hubWake := false }))
      if lineK then s.inc USBD_RESUME_COLLIDE
      else (s.emit (.usbFn (if u1 then 3 else 2))).when hostK (·.inc USBD_RESUME_COLLIDE)

/-- USBD_SUSPEND_CHANGE (R255): the host suspends the service function's bus or resumes it; `addr`, `cfg` and `rwake` are the
address, configuration and DEVICE_REMOTE_WAKEUP that the host's standard requests have set. -/
def execUsbdSuspendChange (suspended : Bool) (addr : Nat) (cfg rwake : Bool) (s : State) : Outcome State Fault Refusal :=
  done <| s.when (s.isOn 29 && s.rd USBD_STATUS_STATE ≥ 3 && s.on USBD_STATUS_SUSPENDED != suspended) fun s =>
    let s := s.when suspended (fun s => s.modUsb (fun u => { u with fnSusp := s.elapsed }))
    let s := ((s.flag USBD_STATUS_SUSPENDED suspended).wr USBD_STATUS_ADDRESS addr).flag USBD_STATUS_RWAKE rwake
    (s.wr USBD_STATUS_STATE (if addr % 128 = 0 then 3 else if cfg then 5 else 4)).raise 29 (if suspended then 3 else 4)

/-! ## Hub ports (R256, R265–R267) -/

/-- PHY_PORT_CHANGE (R248, R256): a device change at local PHY `u`; U0 has a role in the hub only as DFP.  DEDUCED (log entry 143): the other
PHYs have one while the page is ON, since a pavilion does not see the hub's port map. -/
def execPhyPortChange (phy : Nat) (dev : Bool) (speed : Nat) (overcurrent power : Bool) (s : State) : Outcome State Fault Refusal :=
  done <| s.when (((phy == 0 && s.on SVC_TC_STATUS_DATA_ROLE) || (2 ≤ phy && phy ≤ 5)) && s.isOn 30) fun s =>
    let was := s.rd (USBH_LPORT_ST phy)
    let en := dev && bitsOf was 6 6 == 1 && bitsOf was 5 5 == 1
    let s := s.wr (USBH_LPORT_ST phy) (portWord (if dev then speed else 0) overcurrent (bitsOf was 7 7 == 1 && dev) en dev power)
    ((s.when (!dev) (·.phyForget phy)).raise 30 0).sendPhyStatus phy

/-- PORT_STATUS_MSG (R256, R265): a port status message reaches the crown; it completes a reset of the port. -/
def execPortStatusMsg (port : Nat) (msg : List Byte) (s : State) : Outcome State Fault Refusal :=
  done <| s.when (s.crown && s.isOn 30 && 1 ≤ port && port ≤ 15 && byteAt msg 0 == 4) fun s =>
    let w := beNat ((msg.drop 8).take 4)
    let dev := bitsOf w 5 5 == 1
    let s := s.modUsb (fun u => { u with dev := u.dev.filter (· != port) ++ (if dev then [port] else []) })
    let s := (s.portUpdate port).portChg port
    let s := ((s.wr (USBH_PORT_ST_OVERCURRENT port) (bitsOf w 8 8)).wr (USBH_PORT_ST_POWER port) (bitsOf w 4 4)).wr
      (USBH_PORT_ST_SUSPEND port) (bitsOf w 7 7)
    let up := s.on (USBH_PORT_ST_CONNECTED port)
    let s := s.wr (USBH_PORT_ST_SPEED port) (if up then bitsOf w 10 9 else 0)
    let done_ := up && s.usb.resetting.contains port
    (s.flag (USBH_PORT_ST_ENABLED port) (up && bitsOf w 6 6 == 1)).modUsb (fun u =>
      { u with resetting := if done_ then u.resetting.filter (· != port) else u.resetting })

/-- PORT_RESET (R265): at the crown the host resets hub port `n`; at the pavilion the port command reaches PHY `n`, which drives
reset and runs the chirp: a speed comes of it, high speed only where the command says that U1 runs at it. -/
def execPortReset (atCrown : Bool) (r : ResetOf) (s : State) : Outcome State Fault Refusal :=
  let n := r.port
  done <| s.when (s.isOn 30) fun s =>
    if atCrown then
      s.when (s.crown && 1 ≤ n && n ≤ 15 && s.on (USBH_PORT_ST_CONNECTED n)) fun s =>
        let ctl := s.usb.deferred.filter (fun d => d.port == n && d.typ == 0)
        let s := s.when (!ctl.isEmpty) (fun s => (s.inc USBH_CTRL_ABORT).modUsb (fun u =>
          { u with absent := u.absent.filter (fun e => e.1 != n) ++ (ctl.map (fun d => (n, d.addr))).eraseDups }))
        let s := (s.dropDeferred (· == n)).flag (USBH_PORT_ST_ENABLED n) false
        let s := s.modUsb (fun u => { u with resetting := u.resetting.filter (· != n) ++ [n] })
        s.hubMsg n (usbMsg 3 0 0 false 0 0 (s.on USBH_HUB_STATUS_HOST_HS) 0 (beBytes 4 4))
    else
      s.when (n ≤ 5 && n != 1) fun s =>
        let s := s.phyForget n
        let w := s.rd (USBH_LPORT_ST n)
        let s := s.when (bitsOf w 5 5 == 1) (fun s =>
          s.wr (USBH_LPORT_ST n) (portWord (if r.speed = 3 ∧ !r.hs then 2 else r.speed) (bitsOf w 8 8 == 1) false true true (bitsOf w 4 4 == 1)))
        (s.emit (.usbPhy n 2 0)).sendPhyStatus n

/-- The mapped ports of the hub. -/
def State.mappedPorts (s : State) : List Nat := ((List.range 15).map (· + 1)).filter (fun p => s.on (USBH_PORT_ST_CONNECTED p))

/-- A port command to suspend (2) or resume (8) ports. -/
def State.portsCmd (s : State) (ports : List Nat) (cmd : Nat) (susp : Bool) : State :=
  foldS ports (fun s p => (s.flag (USBH_PORT_ST_SUSPEND p) susp).hubMsg p (usbMsg 3 0 0 false 0 0 false 0 (beBytes 4 cmd))) s

/-- HUB_SUSPEND (R267): the host suspends the hub (`n` 0, with its remote-wake setting) or hub port `n`; at the pavilion the port
command reaches PHY `n`, which stops SOF. -/
def execHubSuspend (atCrown : Bool) (n : Nat) (rwake : Bool) (s : State) : Outcome State Fault Refusal :=
  done <| s.when (s.isOn 30) fun s =>
    if atCrown then
      s.when (s.crown && n ≤ 15) fun s =>
        if n = 0 then
          (((s.flag USBH_HUB_STATUS_SUSPENDED true).raise 30 1).modUsb (fun u => { u with hubRwake := rwake, hubWake := false, hubSusp := s.elapsed })).portsCmd s.mappedPorts 2 true
        else s.portsCmd (s.mappedPorts.filter (· == n)) 2 true
    else s.when (n ≤ 5 && n != 1) fun s =>
      (s.wr (USBH_LPORT_ST n) (s.rd (USBH_LPORT_ST n) ||| 128)).emit (.usbPhy n 3 0)

/-- HOST_RESUME (R267): the host's resume, at the crown for the hub or a port, or at the pavilion for PHY `n`, which drives
resume. -/
def execHostResume (atCrown : Bool) (n : Nat) (s : State) : Outcome State Fault Refusal :=
  done <| s.when (s.isOn 30) fun s =>
    if atCrown then
      s.when (s.crown && n ≤ 15) fun s =>
        if n = 0 then ((s.flag USBH_HUB_STATUS_SUSPENDED false).modUsb (fun u => { u with hubWake := false })).portsCmd s.mappedPorts 8 false
        else s.portsCmd (s.mappedPorts.filter (· == n)) 8 false
    else s.when (n ≤ 5 && n != 1 && bitsOf (s.rd (USBH_LPORT_ST n)) 7 7 == 1) fun s =>
      (s.wr (USBH_LPORT_ST n) (s.rd (USBH_LPORT_ST n) - 128)).emit (.usbPhy n 4 0)

/-- PAVILION_REMOTE_WAKE (R267): a device on PHY `n` wakes; or the message reaches the crown for hub port `n`: the hub is to signal under
R255 if it is suspended and has remote wake enabled (REMOTE_WAKE_SIGNAL), and otherwise only records the port's change. -/
def execPavilionRemoteWake (atCrown : Bool) (n : Nat) (s : State) : Outcome State Fault Refusal :=
  done <| s.when (s.isOn 30) fun s =>
    if atCrown then
      s.when (s.crown && 1 ≤ n && n ≤ 15) fun s =>
        let s := (s.portChg n).raise 30 2
        s.when (s.usb.hubRwake && s.on USBH_HUB_STATUS_SUSPENDED) (·.modUsb (fun u => { u with hubWake := true }))
    else s.when (n ≤ 5 && n != 1 && bitsOf (s.rd (USBH_LPORT_ST n)) 7 7 == 1) fun s =>
      (s.raise 30 2).phyMsg n (usbMsg 4 0 0 false 0 0 true 0 (beBytes 4 (s.rd (USBH_LPORT_ST n))))

/-! ## Transactions (R259–R262, R268) -/

/-- HOST_TRANSACTION (R259, R262, R265, R266, R268): a token of the host for a device behind hub port `port`. `kind`: 0 SETUP,
1 IN, 2 OUT, 3 PING, 4–6 start-split of SETUP, IN and OUT, 7–9 complete-split of them. `typ`: 0 control, 1 isochronous, 2 bulk,
3 interrupt. -/
def execHostTransaction (port addr ep typ kind : Nat) (toggle : Bool) (data : List Byte) (s : State) : Outcome State Fault Refusal :=
  done <| s.when (s.crown && s.isOn 30 && 1 ≤ port && port ≤ 15 && kind ≤ 9) fun s =>
    let k := if kind ≤ 2 then kind else if kind = 3 then 2 else (kind - 4) % 3
    let css := decide (kind ≥ 7)
    let sss := decide (4 ≤ kind ∧ kind ≤ 6)
    if s.usb.absent.contains (port, addr) then
      (s.modUsb (fun u => { u with absent := u.absent.filter (· != (port, addr)) })).hostAns port addr ep 5 false []
    else if !s.on (USBH_PORT_ST_CONNECTED port) || !s.on (USBH_PORT_ST_ENABLED port) then s.hostAns port addr ep 5 false []
    else if !s.engUp 9 then
      (s.when (typ == 1 || typ == 3) (·.inc USBH_ISO_SKIP)).hostAns port addr ep (if css then 3 else 1) false []
    else if typ = 1 ∨ (typ = 3 ∧ k = 1) then
      if k = 1 then (if sss then s.hostAns port addr ep 0 false [] else s.periodicIn port addr ep typ css)
      else if css then s.hostAns port addr ep 0 false []
      else (s.isoOut port addr ep data).when sss (·.hostAns port addr ep 0 false [])
    else if sss then
      let s := s.when (s.findDef port addr ep k).isNone (·.deferNew port addr ep typ k toggle data)
      s.hostAns port addr ep 0 false []
    else if css then s.deferToken port addr ep typ k toggle true data
    else if kind = 0 then
      let s := s.modUsb (fun u => { u with deferred := u.deferred.filter (fun d => !(d.port == port && d.addr == addr && d.ep == ep)) })
      (s.deferNew port addr ep typ 0 toggle data).hostAns port addr ep 0 false []
    else if kind = 3 then
      match s.findDef port addr ep 2 with
      | some d => match d.res with
        | some r => if r.1 = 0 then s.hostAns port addr ep 0 false [] else s.fromResult d r ep
        | none => s.deferNak port addr ep
      | none => s.hostAns port addr ep 0 false []
    else
      -- the stages of a control transfer wait for its SETUP
      match (if typ = 0 then s.findDef port addr ep 0 else none) with
      | some d => match d.res with
        | none => s.deferNak port addr ep
        | some r =>
          if r.1 = 0 then (s.dropTag d.tag).deferToken port addr ep typ k toggle false data else s.fromResult d r ep
      | none => s.deferToken port addr ep typ k toggle false data

/-- USB_TRANSACTION_REQUEST (R258, R259, R262): a request reaches PHY `u`, which runs it; `resp` 0 ACK or data, 1 NAK, 2 STALL,
3 no response.  A periodic endpoint joins the schedule; a request for an endpoint with an earlier one waits behind it. -/
def execUsbTransactionRequest (phy : Nat) (msg : List Byte) (resp : Nat) (rdata : List Byte) (ifEps : List Nat) (s : State) :
    Outcome State Fault Refusal :=
  done <| s.when (s.isOn 30 && byteAt msg 0 == 1 && phy ≤ 5 && phy != 1 && resp ≤ 3) fun s =>
    let r := phyTrOf phy msg
    if (r.typ = 1 ∨ r.typ = 3) ∧ r.kind = 1 then
      s.modUsb (fun u => { u with sched := u.sched.filter (fun x => !(x.port == phy && x.tag == r.tag)) ++
                                           [⟨phy, r.addr, r.ep, r.typ, true, r.tag, [], false, false⟩] })
    else if r.typ = 1 then
      s.modUsb (fun u =>
        let x := (u.sched.find? (fun x => x.port == phy && x.tag == r.tag)).getD ⟨phy, r.addr, r.ep, 1, false, r.tag, [], false, false⟩
        { u with sched := u.sched.filter (fun y => !(y.port == phy && y.tag == r.tag)) ++
                          [{ x with held := x.held ++ [(s.phyFrame phy, false, r.data)] }] })
    else if s.usb.run.any (fun x => x.sameEp r) then s.modUsb (fun u => { u with run := u.run ++ [r] })
    else s.tryPhy r resp rdata ifEps

/-- PAVILION_REPEAT (R258, R259): the `i`-th transaction that waits is tried again on its bus, if it is the first of its endpoint. -/
def execPavilionRepeat (i resp : Nat) (rdata : List Byte) (ifEps : List Nat) (s : State) : Outcome State Fault Refusal :=
  done <| s.when (s.isOn 30 && resp ≤ 3) fun s =>
    match s.usb.run[i]? with
    | none => s
    | some r => s.when (!(s.usb.run.take i).any (fun x => x.sameEp r)) (·.tryPhy r resp rdata ifEps)

/-- PERIODIC_POLL (R262): the pavilion runs the `i`-th endpoint of its schedule: IN data goes to the crown, and isochronous OUT
data received in an earlier frame is sent. -/
def execPeriodicPoll (i resp : Nat) (rdata : List Byte) (s : State) : Outcome State Fault Refusal :=
  done <| s.when (s.isOn 30 && resp ≤ 3) fun s =>
    match s.usb.sched[i]? with
    | none => s
    | some x =>
      let e := x.ep + if x.isIn then 16 else 0
      let t := s.toggle x.port x.addr e
      let r : PhyTr := { phy := x.port, tag := x.tag, addr := x.addr, ep := x.ep, typ := x.typ, kind := 1, mark := 0, data := [] }
      if x.isIn then
        let s := s.emit (.usbTok x.port x.addr x.ep 1 t [])
        if resp = 0 then (if x.typ = 3 then s.setToggle x.port x.addr e (!t) else s).result r 0 t rdata
        else s.when (resp == 2) (·.result r 2 t [])
      else
        match x.held with
        | [] => s
        | (f, _, d) :: l => s.when (f != s.phyFrame x.port) fun s =>
            (s.emit (.usbTok x.port x.addr x.ep 2 false d)).modUsb (fun u =>
              { u with sched := u.sched.map (fun (y : Periodic) => if y.port = x.port ∧ y.tag = x.tag then { y with held := l } else y) })

/-- USB_RESULT (R258–R260): a result reaches the crown and is held under its TAG; one without a deferred transaction is
discarded. -/
def execUsbResult (port : Nat) (msg : List Byte) (s : State) : Outcome State Fault Refusal :=
  done <| s.when (s.crown && s.isOn 30 && byteAt msg 0 == 2) fun s =>
    let tag := halfAt msg 6
    let code := byteAt msg 3 / 16
    let t := byteAt msg 3 % 2 == 1
    let data := (msg.drop 8).take (halfAt msg 4)
    match s.usb.deferred.find? (fun d => d.port == port && d.tag == tag) with
    | some d =>
      if d.res.isSome then s
      else if code = 4 then s.when d.abandoned (·.dropTag tag)
      else if code = 1 then s
      else
        let s := s.when (code == 3) (fun s => (s.inc USBH_DEFER_TIMEOUT).raise 30 4)
        s.modUsb (fun u =>
          { u with deferred := u.deferred.map (fun (x : Deferred) =>
              if x.tag = tag then { x with res := some (code, t, data), abandoned := false } else x) })
    | none =>
      s.modUsb (fun u =>
        { u with periodic := u.periodic.map (fun (x : Periodic) =>
            if x.port = port ∧ x.tag = tag then
              (if code = 0 then { x with held := x.held ++ [(s.usbFrame port, t, data)] } else if code = 2 then { x with stall := true } else x)
            else x) })

/-- DEFER_STALE (R260): a deferred transaction that the host has not polled for STALE is abandoned, and an abort is sent. -/
def execDeferStale (tag : Nat) (s : State) : Outcome State Fault Refusal :=
  done <|
    match s.usb.deferred.find? (fun d => d.tag == tag) with
    | none => s
    | some d => s.when (d.res.isNone && !d.abandoned) fun s =>
        (s.modUsb (fun u =>
          { u with deferred := u.deferred.map (fun (x : Deferred) => if x.tag = tag then { x with abandoned := true } else x) })).hubMsg
          d.port (usbMsg 6 d.addr d.ep (d.kind == 1) d.typ 0 false tag [])

/-- ABORT_DEVICE (R260): the pavilion stops repeating the transaction and returns it as aborted. -/
def execAbortDevice (phy : Nat) (msg : List Byte) (s : State) : Outcome State Fault Refusal :=
  done <| s.when (s.isOn 30 && byteAt msg 0 == 6) fun s =>
    match s.usb.run.find? (fun r => r.phy == phy && r.tag == halfAt msg 6) with
    | none => s
    | some r =>
      (s.modUsb (fun u => { u with run := u.run.filter (fun x => !(x.phy == phy && x.tag == r.tag)) })).result r 4 false []

/-! ## Frame timing (R263) -/

/-- HOST_SOF (R263): a host SOF with its frame number and stamp in ns; a change of FN_OFS is a slip. -/
def execHostSof (frame stampNs : Nat) (s : State) : Outcome State Fault Refusal :=
  done <| s.when (s.crown && s.isOn 30) fun s =>
    let k := (stampNs + 62500) / 125000
    let ofs := (frame % 2048 + 2048 - k % 2 ^ 32 / 8 % 2048) % 2048
    let s := (s.wr USBH_HUB_STATUS_FRAME frame).wrS USBH_SOF_PHASE ((stampNs : Int) - (k * 125000 : Nat))
    if ofs = s.rd USBH_FN_OFS_OFS then s
    else
      let s := ((s.wr USBH_FN_OFS_OFS ofs).inc USBH_FN_SLIP).raise 30 3
      let s := s.modUsb (fun u =>
        { u with periodic := u.periodic.map (fun (x : Periodic) => if x.typ = 1 then { x with skip := true } else x) })
      foldS s.mappedPorts (fun s p => s.sendFnOfs p) s

/-- FN_OFS_MSG (R263): the frame offset of the crown; a change is a slip. -/
def execFnOfsMsg (msg : List Byte) (s : State) : Outcome State Fault Refusal :=
  done <| s.when (s.isOn 30 && !s.crown && byteAt msg 0 == 5) fun s =>
    let ofs := beNat ((msg.drop 8).take 4) % 2048
    if ofs = s.rd USBH_FN_OFS_OFS then s else ((s.wr USBH_FN_OFS_OFS ofs).inc USBH_FN_SLIP).raise 30 3

end Sys2Proof.Machine
end

