-- ==== Sys2Proof/Machine/Events.lean ====
section
/-!
DEFINITION. Event inputs and the capture FIFO (R190–R193), the cycle boundary, and the ends, faults and timeouts of
contexts (R110–R117).
-/

namespace Sys2Proof.Machine

open Host (Outcome)

/-! ## The capture FIFO (R191, R193) -/

def State.modEvi (s : State) (f : EviS → EviS) : State := { s with evi := f s.evi }

/-- The FIFO_INFO word of an entry. -/
def EviEntry.info (e : EviEntry) : Nat :=
  e.seq * 65536 + 256 + 128 * e.raw.toNat + 64 * e.bounce.toNat + 32 * e.timeValid.toNat + 16 * e.level.toNat + e.input

/-- FIFO_STAT, FIFO_INFO, FIFO_HI and FIFO_LO show the capture FIFO and its head. -/
def State.showEvi (s : State) : State :=
  let s := s.wr EVI_FIFO_STAT_COUNT s.evi.fifo.length
  match s.evi.fifo with
  | [] => ((s.setWord EVI_FIFO_INFO_SEQ.addr 0).wr EVI_FIFO_HI 0).wr EVI_FIFO_LO 0
  | e :: _ =>
    ((s.setWord EVI_FIFO_INFO_SEQ.addr (BitVec.ofNat 32 e.info)).wr EVI_FIFO_HI (e.stamp / 2 ^ 32)).wr EVI_FIFO_LO e.stamp

/-- Write an entry into the FIFO; a full FIFO loses it (R193). -/
def State.eviPush (s : State) (e : EviEntry) : State :=
  if s.evi.fifo.length ≥ 64 then (s.incSat EVI_FIFO_STAT_LOST).raise 7 1
  else ((s.modEvi (fun t => { t with fifo := t.fifo ++ [e], seq := (t.seq + 1) % 65536 })).showEvi).raise 7 0

/-! ## Event inputs (R190–R192) -/

def State.eviIn (s : State) (i : Nat) : EviIn := tget {} s.evi.ins i
def State.modIn (s : State) (i : Nat) (f : EviIn → EviIn) : State := s.modEvi (fun t => { t with ins := tmod {} t.ins i f })

/-- G and Db of an input in quarter nanoseconds. -/
def State.glitchQ (s : State) (i : Nat) : Nat := 4000 * s.rd (EVI_CFG_GLITCH i)
def State.debounceQ (s : State) (i : Nat) : Nat := 4000 * s.rd (EVI_CFG_DEBOUNCE i)

/-- The input follows R190: the page's function is on and the input is enabled. -/
def State.eviOn (s : State) (i : Nat) : Bool := s.isOn 7 && s.on (EVI_CFG_EN i)

/-- The trigger slots of KIND 1 that an accepted change fires (R412). -/
def State.eviFires (s : State) (i : Nat) (level : Bool) : State :=
  if !s.isOn 8 then s
  else s.sourceFires (((List.range 64).filter (fun t =>
    s.slotWatches 1 i t && (let e := s.rd (REC_TRG_CTRL_SRC_B t); e == 0 || e == 1 && level || e == 2 && !level))).map
    (fun t => (t, 0x700 + i)))

/-- A change is accepted with its stamp and TIME_VALID at its edge (R179): A changes, an entry is written where EDGE and FIFO ask for
it, the scribe stages it, and it wakes the chip where WAKE is 1 (R191, R192, R289). -/
def State.eviAccept (s : State) (i : Nat) (level : Bool) (at_ : Nat × Bool) (bounce raw : Bool) : State :=
  let s := s.setBit EVI_LEVEL_ACC i level
  let e : EviEntry := { seq := s.evi.seq, raw := raw, bounce := bounce, timeValid := at_.2, level := level, input := i, stamp := stamp64 at_.1 }
  let edge := s.rd (EVI_CFG_EDGE i)
  let s := s.when (s.on (EVI_CFG_FIFO i) && (edge == 0 || edge == 1 && level || edge == 2 && !level)) (·.eviPush e)
  let s := (s.stageEvent 4 i (stamp64 at_.1) 0 0 e.info).eviFires i level
  s.when (s.on (EVI_CFG_WAKE i)) (·.wakeBy 4)

/-- Accepted changes of one instant reach the publications together (R286). -/
def State.eviPublish (s old : State) (ins : List Nat) (at_ : Nat × Bool) : State :=
  let l := (ins.filter (fun i => s.bit EVI_LEVEL_ACC i != old.bit EVI_LEVEL_ACC i)).map (fun i => (i, s.bit EVI_LEVEL_ACC i))
  s.when (!l.isEmpty) (·.pubChanges l at_.1 at_.2)

/-- An edge at the time `q` of the time base: its stamp, and TIME_VALID.  In S3 and S4 the stamp is the time base as its 40 ns steps leave it
(R175). -/
def State.edgeAt (s : State) (q : Nat) : Nat × Bool :=
  (if s.rd PWR_PS_STATUS_STATE = 3 ∨ s.rd PWR_PS_STATUS_STATE = 4 then s.nowQ else q, s.on TIME_SRC_STATUS_TIME_VALID)

/-- An edge at an input: `level` is the sampled level. -/
def State.eviEdge (s : State) (i : Nat) (level : Bool) (at_ : Nat × Bool) : State :=
  let lv := level != s.on (EVI_CFG_INVERT i)
  let s := s.setBit EVI_LEVEL_RAW i lv
  if !s.eviOn i then s
  else
    let a := s.bit EVI_LEVEL_ACC i
    let raw := !s.domOn 11
    let g := s.rd (EVI_CFG_GLITCH i)
    let db := s.rd (EVI_CFG_DEBOUNCE i)
    if raw || (g == 0 && db == 0) then
      (s.modIn i (fun _ => {})).when (lv != a) (·.eviAccept i lv at_ false raw)
    else
      let t := s.eviIn i
      if t.window then s.modIn i (fun t => { t with last := some at_ })
      else match t.cand with
        | some _ => if lv = a then ((s.modIn i (fun t => { t with cand := none })).inc EVI_GLITCH_CNT).raise 7 4 else s
        | none =>
          if lv = a then s
          else if g = 0 then (s.eviAccept i lv at_ false false).modIn i (fun t => { t with window := decide (db ≠ 0), last := none })
          else s.modIn i (fun t => { t with cand := some (at_, false) })

/-- EVI_EDGE (R190–R193): edges at one instant, input and sampled level, with the time base in quarter nanoseconds. -/
def execEviEdge (edges : List (Nat × Bool)) (q : Nat) (s : State) : Outcome State Fault Refusal :=
  let ins := (List.range 16).filter (fun i => edges.any (fun e => e.1 == i))
  let at_ := s.edgeAt q
  let t := foldS ins (fun s i => s.eviEdge i (((edges.find? (fun e => e.1 == i)).map (·.2)).getD false) at_) s
  done (t.eviPublish s ins at_)

/-- A candidate has held for G: the change is accepted with the stamp of its edge.  Its window of Db runs from that edge, so one no longer
than G is over; after a bounce it runs from the acceptance (R190). -/
def State.candAccept (s : State) (i : Nat) : State :=
  match (s.eviIn i).cand with
  | none => s
  | some (te, b) =>
    if !s.eviOn i then s
    else
      let s := s.eviAccept i (s.bit EVI_LEVEL_RAW i) te b false
      s.modIn i (fun _ => { window := decide (s.rd (EVI_CFG_DEBOUNCE i) > if b then 0 else s.rd (EVI_CFG_GLITCH i)) })

/-- EVI_GLITCH_END (R190): G has passed since the edges of the candidates of these inputs, and their levels still hold. -/
def execEviGlitchEnd (ins : List Nat) (s : State) : Outcome State Fault Refusal :=
  let l := (List.range 16).filter ins.contains
  let q := ((l.filterMap (fun i => (s.eviIn i).cand)).head?.map (·.1)).getD (s.edgeAt s.nowQ)
  done ((foldS l State.candAccept s).eviPublish s l q)

/-- The debounce window of an input ends at `at_` (quarter nanoseconds): a differing level starts a candidate at the last edge,
which is accepted at once where its G has passed already (R190). -/
def State.debounceEnd (s : State) (at_ i : Nat) : State :=
  s.when ((s.eviIn i).window) fun s =>
    let te := ((s.eviIn i).last).getD (s.edgeAt at_)
    let s := s.modIn i (fun _ => {})
    s.when (s.eviOn i && s.bit EVI_LEVEL_RAW i != s.bit EVI_LEVEL_ACC i) fun s =>
      let s := s.modIn i (fun _ => { cand := some (te, true) })
      s.when (decide (te.1 + s.glitchQ i ≤ at_)) (·.candAccept i)

/-- EVI_DEBOUNCE_END (R190): the windows of these inputs end. -/
def execEviDebounceEnd (ins : List Nat) (at_ : Nat) (s : State) : Outcome State Fault Refusal :=
  let l := (List.range 16).filter ins.contains
  let q := ((l.filterMap (fun i => (s.eviIn i).last)).head?).getD (s.edgeAt at_)
  done ((foldS l (fun s i => s.debounceEnd at_ i) s).eviPublish s l q)

/-- EVI_FIFO_READ (R193): a read of FIFO_LO removes the head entry. -/
def execEviFifoRead (p : Path) (s : State) : Outcome State Fault Refusal :=
  done <| s.readOwn p EVI_FIFO_LO.addr (·.rd EVI_FIFO_LO) fun s => (s.modEvi (fun t => { t with fifo := t.fifo.drop 1 })).showEvi

/-! ## The cycle boundary (R76) -/

/-- A new cycle starts (R76): the chips that joined the tree in the cycle before are numbered (R25); time base, ports, refills and ACK entries; frame starts of the pavilion ports (R263);
frames held at adapters are presented again (R130); the partial idle asked for (R355), and the suspension requests of a descent again (R356). -/
def State.cycleBegins (s : State) : State :=
  let s := ((s.modChip (fun c => { c with news := {} })).treeNews s.chip.news).cycleBoundary.pavilionSof.retryHeld
  let s := foldS [0, 1, 2] (fun s n => s.answerIdle n) s
  s.when s.pwr.entryPending (fun s => s.suspendLinks (s.rd PWR_PS_CTRL_TARGET))

/-! ## Ends and faults of contexts (R110–R117) -/

/-- What follows a context's change at the adapters: the DPI's HPD (R241) and the split hub's ports (R266). -/
def State.ctxHooks (s : State) : State := s.dpiHpd.portsUpdate

/-- A context faults, with its effects at the far bus (R214) and the DMA channels (R231). -/
def State.ctxFaultAll (s : State) (c cause : Nat) : State := (((s.ctxFault c cause).farCtxFault c).dmaCtxFault c).ctxHooks

/-- CONTEXT_START_COMPLETE (R110, R155): every start condition holds; the sequence state and buckets are set, and the context
goes ON.  A link egress without the encryption it requires faults it. -/
def execContextStartComplete (c : Nat) (s : State) : Outcome State Fault Refusal :=
  done <| s.when (decide (c < 256)) fun s =>
    let s := s.encCheck c
    s.when (s.startReady c) fun s => (((s.resetSeq c).freshBuckets c).ctxSetLife c lifeOn).ctxHooks

/-- CONTEXT_STOP_COMPLETE (R105, R111): nothing of the context is queued or kept any more; it goes OFF, or to STARTING. -/
def execContextStopComplete (c : Nat) (s : State) : Outcome State Fault Refusal :=
  done <| s.when (decide (c < 256) && s.stopReady c) fun s => (s.ctxStopped c).ctxHooks

/-- CONTEXT_FAULT (R112): a block on the context's path is wedged (cause 0x04). -/
def execContextFault (c : Nat) (s : State) : Outcome State Fault Refusal :=
  let l := s.ctxLife c
  done <| s.when (decide (c < 256) && 1 ≤ l && l ≤ 3) (·.ctxFaultAll c 4)

/-- RETRANSMIT_TIMEOUT (R117): the oldest kept cell is unacknowledged three boundaries after its last sending: a replay, or the
fault after the eighth. -/
def execRetransmitTimeout (c : Nat) (s : State) : Outcome State Fault Refusal :=
  let due := (s.ctx c).kept.head?.any (fun k => !k.queued && cycGe s.cycle (cycAdd k.sent 3))
  let l := s.ctxLife c
  done <| s.when (decide (c < 256) && due && (l == lifeOn || l == lifeStopping)) fun s =>
    if s.rd (CTX_RETRY_RETRIES c) ≥ 8 then s.ctxFaultAll c 1
    else (s.inc (CTX_RETRY_RETRIES c)).startReplay c

/-- RESYNC_TIMEOUT (R116): no RESYNC entry arrived within 16 cycles of STARTING. -/
def execResyncTimeout (c : Nat) (s : State) : Outcome State Fault Refusal :=
  done <| s.when (decide (c < 256) && s.ctxLife c == lifeStarting && s.reliable c && s.isOrigin c && !(s.ctx c).resynced &&
      cycGe s.cycle (cycAdd (s.ctx c).since 16)) (·.ctxFaultAll c 2)

end Sys2Proof.Machine
end

