-- ==== Sys2Proof/Machine/Security.lean ====
section
/-!
DEFINITION. Keys, link encryption and attestation (`18_security.md`).
-/

namespace Sys2Proof.Machine

open Host (Outcome)

def State.modSec (s : State) (f : SecS → SecS) : State := { s with sec := f s.sec }

/-- Slot use, attestation and authorisation need the SEC function ON and the keys of R369 (R395). -/
def State.secReady (s : State) : Bool := s.isOn 9 && s.on SEC_STATUS_KEK_OK

/-- `n` random bytes of the DRBG as a number: a free value. -/
def State.random (s : State) (n : Nat) : Nat × State := (s.freshVal.1 % 256 ^ n, s.freshVal.2)

/-! ## Link keys (R376–R381) -/

/-- Derive a generation's key pair from an ECDH secret (R377): bytes 0–31 are the parent-to-child key. -/
def State.derivePair (s : State) (n gen : Nat) (z : BitVec 384) : KeyPair :=
  let parent := s.on (LNK_STATUS_PARENT n)
  let pu := if parent then s.chip.unitId else s.farUnit n
  let cu := if parent then s.farUnit n else s.chip.unitId
  let k := (Config.kdfLink (bytes384 z) (beBytes 8 pu ++ beBytes 8 cu ++ beBytes 1 gen)).toNat
  let down := BitVec.ofNat 256 (k / 2 ^ 256)
  let up := BitVec.ofNat 256 k
  { tx := if parent then down else up, rx := if parent then up else down, gen := gen % 256, first := s.cycle }

/-- Show the current key of a port: generation and phase. -/
def State.showKey (s : State) (n : Nat) : State :=
  let k := s.lk n
  let ph := match k.cur with
    | none => 0
    | some _ => if k.next.isNone then 1 else if k.switches && k.w.any (fun w => cycGe s.cycle w) then 3 else 2
  (s.wr (SEC_LINK_KEY_GEN n) ((k.cur.map (·.gen)).getD 0)).wr (SEC_LINK_KEY_PHASE n) ph

/-- The device certificate and its Welnel intermediate (R385). -/
def ownCert : List Byte := ((List.range 256).flatMap (fun k => beBytes 4 (Config.certWord k).toNat)).take (Config.certLen % 2 ^ 16)

/-- KEYS_BEACON (R376, R377): the far end's key-agreement message is whole: its certificate chain, its ephemeral public value,
the beacons of both ends that are signed, and the signature.  This end's message carries the same, signed by its identity key.  DESIGN CHOICE
(log entry 153): what is signed is the beacons, then the sender's public value, then the other's. -/
def execKeysBeacon (n : Nat) (cert eph beacons sig : List Byte) (s : State) : Outcome State Fault Refusal :=
  done <| s.when (s.inT n tKeys) fun s =>
    let (r, s) := s.random 48
    let own := Config.pubKey (BitVec.ofNat 384 r)
    let sigOwn := Config.sign Config.deviceKey (beacons ++ own ++ eph)
    let s := s.emit (.beacon n 7 ((ownCert ++ own ++ sigOwn).map (·.toNat)))
    if Config.certRootOk cert && Config.certUnit cert == s.farUnit n && Config.verify (Config.certKey cert) (beacons ++ eph ++ own) sig
        && s.on SEC_STATUS_DRBG_OK then
      let k := s.derivePair n 0 (Config.ecdh (BitVec.ofNat 384 r) eph)
      let s := (s.modLk n (fun _ => { cur := some k })).flag (LNK_STATUS_KEYS_ON n) true
      (s.enterCycle n).showKey n
    else s.trainFail n 9 tKeys

/-- A replacement may run: the link is encrypted, and no epoch change, role swap or engine restart stands in its way (R379). -/
def State.mayReplace (s : State) (n : Nat) : Bool :=
  s.native n && s.on (LNK_STATUS_KEYS_ON n) && (s.lk n).cur.isSome && (s.lk n).since.isNone && !s.epochInFlight n &&
    (s.tr n).swap.isNone && !s.managerDown n && s.on SEC_STATUS_DRBG_OK

/-- Start a replacement, or let it fail with reason BUSY, to be tried again (R379, R381). -/
def State.startReplace (s : State) (n : Nat) (init : Bool) : State :=
  if s.mayReplace n then
    s.modLk n (fun k => { k with since := some s.cycle, initiator := init, readyFar := false, kat := none, katOk := false,
                                  acked := false, relSent := false, relFar := false, lateDue := false, w := none,
                                  switches := false, next := none, retry := false })
  else s.when (init && s.native n && s.on (LNK_STATUS_KEYS_ON n) && (s.lk n).since.isNone) (·.modLk n (fun k => { k with retry := true }))

/-- The replacement is abandoned; an initiator tries again (R379, R381). -/
def State.abandonKey (s : State) (n : Nat) : State :=
  (s.modLk n (fun k => { k with next := none, since := none, w := none, switches := false, retry := k.initiator })).showKey n

/-- The port retrains for a key failure (R380, R381). -/
def State.keyFail (s : State) (n : Nat) : State := (s.retrain n).raise 9 3

/-- The command bit of ROTATE (R379). -/
def cmdLinkRotate (n : Nat) : Cmd :=
  Cmd.mk ⟨SEC_LINK_ROT_ROTATE.addr, 8 + n, 8 + n⟩ okChk (·.startReplace n true)

/-- ROTATE (R379): a write of LINK_ROT.ROTATE. -/
def execLinkRotate (p : Path) (n : Nat) (s : State) : Outcome State Fault Refusal :=
  done <| s.when (n < 3) fun s => s.runCmd p (cmdLinkRotate n)

/-- Cycles since the first use of the current key (R381). -/
def State.keyAge (s : State) (n : Nat) : Nat := match (s.lk n).cur with | some k => cycSub s.cycle k.first | none => 0

/-- KEY_ROTATION_DUE (R379, R381): the current key reaches HOURS of use; the parent end starts a replacement. -/
def execKeyRotationDue (n : Nat) (s : State) : Outcome State Fault Refusal :=
  done <| s.when (s.native n && s.on (LNK_STATUS_PARENT n) && decide (s.keyAge n ≥ s.rd SEC_LINK_ROT_HOURS * 28800000))
    (·.startReplace n true)

/-- KEY_REPLACEMENT_RETRY (R381): 60 s after a failed replacement. -/
def execKeyReplacementRetry (n : Nat) (s : State) : Outcome State Fault Refusal :=
  done <| s.when (s.native n && (s.lk n).retry) (·.startReplace n true)

/-- KEY_AGE_LIMIT (R381): the current key has been in use for 96 h. -/
def execKeyAgeLimit (n : Nat) (s : State) : Outcome State Fault Refusal :=
  done <| s.when (s.native n && s.on (LNK_STATUS_KEYS_ON n) && decide (s.keyAge n ≥ 2764800000)) (·.keyFail n)

/-- NEXT_READY (R379 steps 1 and 2): the engines' agreement of the next generation is complete; `eph` is the far end's public
value, and `farInit` tells that the far end started this replacement.  Of two starts in one cycle the parent's proceeds. -/
def execNextReady (n gen : Nat) (eph : List Byte) (farInit : Bool) (s : State) : Outcome State Fault Refusal :=
  done <| s.when (s.native n) fun s =>
    let want := (((s.lk n).cur.map (·.gen)).getD 0 + 1) % 256
    let s := s.when (farInit && (s.lk n).initiator && (s.lk n).since.isSome && !s.on (LNK_STATUS_PARENT n))
      (·.modLk n (fun k => { k with initiator := false }))
    let s := s.when ((s.lk n).since.isNone && farInit) (·.startReplace n false)
    s.when ((s.lk n).since.isSome && gen % 256 == want && (s.lk n).next.isNone) fun s =>
      let (r, s) := s.random 48
      let (c, s) := s.random 16
      let k := s.derivePair n want (Config.ecdh (BitVec.ofNat 384 r) eph)
      let s := s.modLk n (fun t => { t with next := some k, readyFar := true, kat := some c })
      (((s.queueUnit n (.key 1 want 0 0)).queueUnit n (.key 2 want 0 c)).showKey n)

/-- KAT_CHAL (R379 step 2): answered with the first 16 bytes of AES-256 of the data under the next transmit key. -/
def execKatChal (n data : Nat) (s : State) : Outcome State Fault Refusal :=
  done <| s.when (s.native n) fun s =>
    match (s.lk n).next with
    | none => s
    | some k => s.queueUnit n (.key 3 k.gen 0 (Config.aes256 k.tx (BitVec.ofNat 128 data)).toNat)

/-- KAT_RESP (R379 steps 2 and 3): a right answer lets the initiator name the switch cycle W, 8 cycles ahead; a wrong one
abandons the replacement. -/
def execKatResp (n data : Nat) (s : State) : Outcome State Fault Refusal :=
  done <| s.when (s.native n) fun s =>
    match (s.lk n).next, (s.lk n).kat with
    | some k, some c =>
      if (Config.aes256 k.rx (BitVec.ofNat 128 c)).toNat ≠ data then s.abandonKey n
      else
        let w := cycAdd s.cycle 8
        s.modLk n (fun t => { t with katOk := true, kat := none, w := if t.initiator then some w else t.w })
    | _, _ => s

/-- KEY_SWITCH_MSG (R379 step 3): the responder holds W and acknowledges it in each cycle up to W − 1. -/
def execKeySwitchMsg (n gen w : Nat) (s : State) : Outcome State Fault Refusal :=
  done <| s.when (s.native n && !(s.lk n).initiator && (s.lk n).next.any (fun k => k.gen == gen % 256) && cycLater w s.cycle) fun s =>
    s.modLk n (fun t => { t with w := some w, switches := true })

/-- SWITCH_ACK (R379 step 3): the initiator switches at W if the acknowledgement came before the boundary of W − 2. -/
def execSwitchAck (n gen w : Nat) (s : State) : Outcome State Fault Refusal :=
  done <| s.when (s.native n && (s.lk n).initiator && (s.lk n).w == some w && (s.lk n).next.any (fun k => k.gen == gen % 256)
      && cycLater (cycSub w 2) s.cycle) fun s =>
    s.modLk n (fun t => { t with acked := true, switches := true })

/-- OLD_RELEASED (R379 step 4, R380): the far end has seen the new key. -/
def execOldReleased (n gen : Nat) (s : State) : Outcome State Fault Refusal :=
  done <| s.when (s.native n && (s.lk n).w.isSome && (s.lk n).next.any (fun k => k.gen == gen % 256)) fun s =>
    s.modLk n (fun t => { t with relFar := true })

/-- KEY_SWITCH_CYCLE (R379 step 4): cycle W has begun; an end that switches sends under the new key from W on. -/
def execKeySwitchCycle (n : Nat) (s : State) : Outcome State Fault Refusal :=
  done <| s.when (s.native n && (s.lk n).w.any (fun w => cycGe s.cycle w && !s.stepMoves w)) fun s =>
    (s.modLk n (fun t => { t with next := t.next.map (fun k => { k with first := if t.switches then t.w.getD k.first else k.first }) })).showKey n

/-- KEY_RELEASE_CYCLE (R379 step 5, R380): at P = W + 8 the new key becomes current and the old one is erased, or, where the far
end's OLD_RELEASED has not arrived or the ends disagree, the port retrains. -/
def execKeyReleaseCycle (n : Nat) (s : State) : Outcome State Fault Refusal :=
  done <| s.when (s.native n && (s.lk n).w.any (fun w => cycGe s.cycle (cycAdd w 8))) fun s =>
    let k := s.lk n
    if k.switches && k.relFar && k.next.isSome then
      (s.modLk n (fun t => { cur := t.next.map (fun x => { x with first := t.w.getD x.first }) })).showKey n
    else s.keyFail n

/-- KEY_LATE_SWITCH (R380): an end that received valid slots under the next key switches at the next cycle boundary. -/
def execKeyLateSwitch (n : Nat) (s : State) : Outcome State Fault Refusal :=
  done <| s.when (s.native n && (s.lk n).lateDue && !(s.lk n).switches) fun s =>
    (s.modLk n (fun t => { t with switches := true, lateDue := false })).showKey n

/-! ## Tamper (R371, R372) -/

/-- The sources that are armed, by the bits of TAMPER_LOG.FIRST. -/
def State.armed (s : State) : Nat := s.rd SEC_TAMPER_CFG_IN_ARM + 16 * s.rd SEC_TAMPER_CFG_ARM

/-- A tamper event raises its interrupt bit, and the recorder writes a record of it (R371). -/
def State.tamperRecord (s : State) : State :=
  (s.raise 9 0).sysRecord 6 0 0x0900 [wIdx SEC_TAMPER_LOG_FIRST, wIdx SEC_TAMPER_TIME]

/-- The zeroisation machine (R29, R371): key store, KEK and link keys are zeroised, TAMPER latched with the sources and time of
the first event, and links whose keys are erased retrained.  The record of an event before step B1 of a start is written there. -/
def State.zeroise (s : State) (src : Nat) : State :=
  let first := !s.on SEC_STATUS_TAMPER
  let s := s.modSec (fun t =>
    { t with slots := (List.range 32).map (fun i => (i, { zeroised := true })), kek := false, tamperAt := some s.elapsed })
  let now := if s.chip.d0Up then s.time.sec else s.time.rtc.getD 0
  let s := s.when first (fun s => (s.wr SEC_TAMPER_LOG_FIRST src).wr SEC_TAMPER_TIME (now % 2 ^ 32))
  let s := (s.flag SEC_STATUS_TAMPER true).incSat SEC_TAMPER_LOG_COUNT
  let s := if s.chip.d0Up && !s.boot.cold then s.tamperRecord else s.modSec (fun t => { t with tamperDue := true })
  foldS [0, 1, 2] (fun s n => if s.on (LNK_STATUS_KEYS_ON n) then (s.modLk n (fun _ => {})).retrain n else s.modLk n (fun _ => {})) s

/-- TAMPER_EVENT (R371): sources fire; the armed ones start the zeroisation. -/
def execTamperEvent (src : Nat) (s : State) : Outcome State Fault Refusal :=
  let a := src &&& s.armed
  done (s.when (a != 0) (·.zeroise a))

/-- MESH_CHECK (R371): the mesh pattern is compared; a mismatch in two consecutive samples fires an armed mesh. -/
def execMeshCheck (mismatch : Bool) (s : State) : Outcome State Fault Refusal :=
  let two := mismatch && s.sec.meshMiss
  done <| (s.modSec (fun t => { t with meshMiss := mismatch })).when (two && s.armed.testBit 4) (·.zeroise 16)

/-- An open authorisation of an operation. -/
def State.authFor (s : State) (op : Nat) : Option Auth := s.sec.auth.filter (fun a => a.op == op)

/-- A write of TAMPER_CFG disarms a source, or changes the polarity of an armed input. -/
def State.disarms (s : State) (v : Nat) : Bool :=
  let ia := s.rd SEC_TAMPER_CFG_IN_ARM; let ar := s.rd SEC_TAMPER_CFG_ARM; let po := s.rd SEC_TAMPER_CFG_IN_POL
  (ia &&& bitsOf v 7 4) != ia || (ar &&& bitsOf v 3 0) != ar || ((po ^^^ bitsOf v 11 8) &&& ia) != 0

/-- A key-store authorisation is open, or the one that an ERASE_ALL used is within its 60 s (R387).  DEDUCED (log entry 151): it permits disarming
throughout the 60 s, after that use too. -/
def State.mayDisarm (s : State) : Bool := (s.authFor 2).isSome || s.sec.disarm.any (fun t => decide (s.elapsed ≤ t))

/-- TAMPER_CFG_WRITE (R372). -/
def execTamperCfgWrite (p : Path) (v : Nat) (s : State) : Outcome State Fault Refusal :=
  done <| s.writeOwn p SEC_TAMPER_CFG_ARM.addr v (fun s => if s.disarms v && !s.mayDisarm then 6 else 0)
    (fun s => ((s.wr SEC_TAMPER_CFG_IN_POL (bitsOf v 11 8)).wr SEC_TAMPER_CFG_IN_ARM (bitsOf v 7 4)).wr SEC_TAMPER_CFG_ARM (bitsOf v 3 0))

/-! ## The key store (R373, R374) -/

def State.slot (s : State) (i : Nat) : KeySlot := tget {} s.sec.slots i
def State.modSlot (s : State) (i : Nat) (f : KeySlot → KeySlot) : State := s.modSec (fun t => { t with slots := tmod {} t.slots i f })

/-- The selected slot. -/
def State.ksSel (s : State) : Nat := s.rd SEC_KS_SEL_SLOT

/-- The open authorisation is used up or voided (R387).  DESIGN CHOICE (log entry 152): RESULT then reads 6, and 0 after CLOSE. -/
def State.authEnd (s : State) (result : Nat) : State :=
  (((s.modSec (fun t => { t with auth := none, disarm := none })).wr SEC_AUTH_STATUS_OP 0).wr SEC_AUTH_STATUS_SECONDS 0).wr SEC_AUTH_STATUS_RESULT result

/-- A key-store authorisation whose digest matches data is open. -/
def State.ksAuth (s : State) (data : List Byte) : Bool := (s.authFor 2).any (fun a => a.digest == (Config.sha384 data).toNat)

/-- The words of KS_DATA, which read as zero, as bytes. -/
def State.ksBytes (s : State) : List Byte := (List.range 21).flatMap (fun k => beBytes 4 (s.rd (SEC_KS_DATA k).inForce))

/-- The checks of LOAD_NEXT, SWITCH and ERASE: readiness, the tamper latch, and the authorisation. -/
def State.ksChk (s : State) (data : List Byte) : Nat :=
  if !s.secReady ∨ s.on SEC_STATUS_TAMPER then 3 else if s.ksAuth data then 0 else 6

/-- The known-answer check of a key (R374). -/
def katOk (typ : Nat) (d : List Byte) : Bool :=
  let key := d.take 48
  let chal := (d.drop 52).take 16
  let ans := beNat ((d.drop 68).take 16)
  if typ = 1 then (Config.aes256 (BitVec.ofNat 256 (beNat (key.take 32))) (BitVec.ofNat 128 (beNat chal))).toNat == ans
  else if typ = 2 then (Config.hmac384 (BitVec.ofNat 384 (beNat key)) chal).toNat / 2 ^ 256 == ans
  else (Config.pubX (BitVec.ofNat 384 (beNat key))).toNat / 2 ^ 256 == ans

/-- The command bit of LOAD_NEXT (R374 step 1). -/
def cmdKsLoadNext : Cmd :=
  Cmd.mk SEC_KS_CMD_LOAD_NEXT (fun s => if s.ksChk s.ksBytes ≠ 0 then s.ksChk s.ksBytes else if !s.sec.kek ∨ (s.slot s.ksSel).st = 3 then 3 else 0) (fun s =>
      let d := s.ksBytes
      let typ := beNat ((d.drop 48).take 4) % 16
      let key := beNat (d.take 48)
      let s := s.authEnd 6
      if typ < 1 ∨ typ > 3 then s.wr SEC_KS_STATUS_REASON 1
      else if !katOk typ d then s.wr SEC_KS_STATUS_REASON 2
      else
        (s.modSlot s.ksSel (fun t =>
          if t.st = 0 then { t with key := key, typ := typ, st := 1, zeroised := false }
          else { t with next := some (key, typ), st := 2 })).wr SEC_KS_STATUS_REASON 0)

/-- LOAD_NEXT (R374 step 1).  DESIGN CHOICE (log entry 152): a rejected command leaves KS_STATUS.REASON as it is, since the write changes
nothing. -/
def execKsLoadNext (p : Path) (s : State) : Outcome State Fault Refusal :=
  done <| s.runCmd p cmdKsLoadNext

/-- The command bit of SWITCH (R374 step 2). -/
def cmdKsSwitch : Cmd :=
  Cmd.mk SEC_KS_CMD_SWITCH (fun s => if s.ksChk (beBytes 1 s.ksSel) ≠ 0 then s.ksChk (beBytes 1 s.ksSel) else if (s.slot s.ksSel).st ≠ 2 then 3 else 0) (fun s =>
      ((s.authEnd 6).modSlot s.ksSel (fun t => match t.next with
        | some (k, y) => { t with former := some t.key, key := k, typ := y, next := none, st := 3 }
        | none => t)).wr SEC_KS_STATUS_REASON 0)

/-- SWITCH (R374 step 2). -/
def execKsSwitch (p : Path) (s : State) : Outcome State Fault Refusal :=
  done <| s.runCmd p cmdKsSwitch

/-- Erase a slot, or let the erasure wait for a retirement. -/
def eraseSlot (t : KeySlot) : KeySlot := if t.st = 3 then { t with eraseDue := true } else { zeroised := t.zeroised }

/-- The command bit of ERASE (R374 step 3). -/
def cmdKsErase : Cmd :=
  Cmd.mk SEC_KS_CMD_ERASE (fun s => s.ksChk (beBytes 1 s.ksSel)) (fun s => ((s.authEnd 6).modSlot s.ksSel eraseSlot).wr SEC_KS_STATUS_REASON 0)

/-- ERASE (R374 step 3). -/
def execKsErase (p : Path) (s : State) : Outcome State Fault Refusal :=
  done <| s.runCmd p cmdKsErase

/-- The command bit of ERASE_ALL (R374 step 4). -/
def cmdKsEraseAll : Cmd :=
  Cmd.mk SEC_KS_CMD_ERASE_ALL (fun s => if !s.secReady then 3 else if s.ksAuth [0xFF] then 0 else 6) (fun s =>
      let by_ := s.sec.authBy
      let s := (s.authEnd 6).modSec (fun t =>
        { t with disarm := some by_, slots := t.slots.filterMap (fun (e : Nat × KeySlot) =>
            if e.2.st = 3 then some (e.1, { e.2 with eraseDue := true, zeroised := false }) else none) })
      (s.flag SEC_STATUS_TAMPER (s.on SEC_STATUS_TAMPER && s.sec.tamperAt == some s.elapsed)).wr SEC_KS_STATUS_REASON 0)

/-- ERASE_ALL (R374 step 4, R389): every slot is erased, and the tamper latch cleared, but for one that an event of the same instant set.  It
is accepted while TAMPER is latched. -/
def execKsEraseAll (p : Path) (s : State) : Outcome State Fault Refusal :=
  done <| s.runCmd p cmdKsEraseAll

/-- KEY_RETIRED (R374 step 2): the last operation under the former key has ended. -/
def execKeyRetired (i : Nat) (s : State) : Outcome State Fault Refusal :=
  done <| s.when (decide (i < 32) && (s.slot i).st == 3) fun s =>
    s.modSlot i (fun t =>
      if t.eraseDue then { zeroised := t.zeroised } else { t with former := none, st := 1, gen := (t.gen + 1) % 256 })

/-- KS_STATE shows the selected slot. -/
def State.ksState (s : State) : Nat :=
  let t := s.slot s.ksSel
  (if t.zeroised then 65536 else 0) + t.gen * 256 + t.typ * 16 + t.st

/-! ## Measurement and attestation (R383–R385) -/

/-- The command bit of MR_EXT_GO (R383). -/
def cmdMrExtGo : Cmd :=
  Cmd.mk SEC_MR_EXT_CMD_GO okChk fun s =>
    s.mrExtend (s.rd SEC_MR_EXT_SEL) ((List.range 12).flatMap (fun k => beBytes 4 (s.rd (SEC_MR_EXT_DATA k).inForce)))

/-- MR_EXT_GO (R383): extends the selected register with 48 bytes. -/
def execMrExtGo (p : Path) (s : State) : Outcome State Fault Refusal :=
  done <| s.runCmd p cmdMrExtGo

/-- The bytes of an attestation statement without its signature (*Attestation statement*). -/
def State.attBody (s : State) : List Byte :=
  let fl := (s.on TIME_SRC_STATUS_TIME_VALID).toNat + 2 * s.rd SEC_STATUS_DEBUG_UNLOCKED + 4 * s.rd SEC_STATUS_TAMPER +
    8 * s.rd SEC_STATUS_HELPER_BACKUP
  beBytes 4 0x57415453 ++ beBytes 2 1 ++ beBytes 2 fl ++ beBytes 4 0x3160 ++ beBytes 4 0 ++ beBytes 8 s.chip.unitId ++
    (List.range 8).flatMap (fun k => beBytes 4 (s.rd (SEC_NONCE k))) ++ beBytes 8 s.now64 ++ beBytes 4 (s.rd BOOT_POWER_CYCLES) ++
    beBytes 1 (s.rd BOOT_IMG_INFO_RB_INDEX) ++ beBytes 3 0 ++ (List.range 8).flatMap s.mrBytes

/-- The command bit of ATT_GO (R384).  DEDUCED (log entry 154): the statement is that of the instant of GO. -/
def cmdAttGo : Cmd :=
  Cmd.mk SEC_ATT_CMD_GO (fun s => if !s.secReady ∨ s.on SEC_ATT_STATUS_BUSY ∨ !s.on SEC_STATUS_DRBG_OK then 3 else 0) (fun s =>
    ((s.modSec (fun t => { t with att := s.attBody })).flag SEC_ATT_STATUS_BUSY true).flag SEC_ATT_STATUS_DONE false)

/-- ATT_GO (R384): starts the signing of a statement. -/
def execAttGo (p : Path) (s : State) : Outcome State Fault Refusal :=
  done <| s.runCmd p cmdAttGo

/-- ATT_DONE (R384): the signed statement is in ATT_BUF. -/
def execAttDone (s : State) : Outcome State Fault Refusal :=
  done <| s.when (s.on SEC_ATT_STATUS_BUSY) fun s =>
    let b := s.sec.att
    let b := b ++ (Config.sign Config.deviceKey b ++ List.replicate 96 0).take 96
    let s := foldS (List.range 138) (fun s k => s.wr (SEC_ATT_BUF k) (beNat ((b.drop (4 * k)).take 4))) s
    ((s.flag SEC_ATT_STATUS_BUSY false).flag SEC_ATT_STATUS_DONE true).raise 9 1

/-- DRBG_HEALTH_FAIL (R385). -/
def execDrbgHealthFail (s : State) : Outcome State Fault Refusal := done (s.flag SEC_STATUS_DRBG_OK false)

/-! ## Signed authorisation (R386, R387) -/

/-- CHALLENGE_READ (R386): a read of CHALLENGE0 makes 32 new random bytes and voids the earlier challenge. -/
def execChallengeRead (p : Path) (s : State) : Outcome State Fault Refusal :=
  let a := (SEC_CHALLENGE 0).addr
  done <| s.gate ⟨p, a, false, 0⟩ fun s =>
    if !s.secReady ∨ !s.on SEC_STATUS_DRBG_OK then s.reject p a 3 0
    else
      let (r, s) := s.random 32
      let ws := (List.range 8).map (fun k => r / 2 ^ (32 * (7 - k)) % 2 ^ 32)
      let s := foldS (ws.zip (List.range 8)) (fun s (e : Nat × Nat) => s.wr (SEC_CHALLENGE e.2) e.1) s
      (s.modSec (fun t => { t with chal := some (ws, s.elapsed) })).readBack p (SEC_CHALLENGE 0).addr (ws.headD 0)

/-- The bytes of AUTH_BUF. -/
def State.token (s : State) : List Byte := (List.range 72).flatMap (fun k => beBytes 4 (s.rd (SEC_AUTH_BUF k)))

/-- The result of the checks of a token (R386): 1 opens the operation. -/
def State.tokenResult (s : State) : Nat :=
  let t := s.token
  let op := byteAt t 4; let key := byteAt t 5
  let pub := (t.drop 96).take 96
  if beNat (t.take 4) ≠ 0x57415554 ∨ op < 1 ∨ op > 4 ∨ key > 1 ∨ beNat ((t.drop 6).take 2) ≠ 0 then 7
  else if Config.sha384 pub ≠ Config.otpKeyHash s.sec.otp key then 3
  else if beNat ((t.drop 8).take 8) ≠ s.chip.unitId then 5
  else match s.sec.chal with
    | none => 6
    | some (ws, at_) =>
      if s.elapsed > at_ + 60000000000 then 6
      else if (t.drop 16).take 32 ≠ ws.flatMap (beBytes 4) then 4
      else if Config.verify pub (t.take 192) (t.drop 192) then 1 else 2

/-- The command bit of SUBMIT (R386, R387). -/
def cmdAuthSubmit : Cmd :=
  Cmd.mk SEC_AUTH_CMD_SUBMIT (fun s => if s.secReady then 0 else 3) fun s =>
    let r := s.tokenResult
    let t := s.token
    let op := byteAt t 4; let key := byteAt t 5
    let s := (s.authEnd r).modSec (fun u => { u with chal := none })
    let s := if r ≠ 1 then s
      else
        let s := (s.wr SEC_AUTH_STATUS_OP op).wr SEC_AUTH_STATUS_KEY key
        let s := s.when (op == 3) (·.modSec (fun u => { u with otpStage := [] }))
        let s := if op = 4 then s.flag SEC_STATUS_DEBUG_UNLOCKED true
          else (s.wr SEC_AUTH_STATUS_SECONDS 60).modSec (fun u =>
            { u with authBy := s.elapsed + 60000000000, auth := some ⟨op, key, beNat ((t.drop 48).take 48), (t.drop 96).take 96⟩ })
        let s := s.sysRecord 0x0B op key [wIdx SEC_AUTH_STATUS_OP]
        if op = 4 then (s.wr SEC_AUTH_STATUS_OP 0).wr SEC_AUTH_STATUS_RESULT 1 else s
    s.raise 9 2

/-- SUBMIT (R386, R387): the token is checked; a token that passes opens its operation for 60 s (DEDUCED, log entry 92: for OTP programming,
the words collected for PROGRAM start anew), and debug is unlocked until the
next cold start. -/
def execAuthSubmit (p : Path) (s : State) : Outcome State Fault Refusal :=
  done <| s.runCmd p cmdAuthSubmit

/-- The command bit of CLOSE (R387). -/
def cmdAuthClose : Cmd :=
  Cmd.mk SEC_AUTH_CMD_CLOSE (fun s => if s.secReady then 0 else 3) (·.authEnd 0)

/-- CLOSE (R387): voids an open authorisation. -/
def execAuthClose (p : Path) (s : State) : Outcome State Fault Refusal :=
  done <| s.runCmd p cmdAuthClose

/-- AUTH_EXPIRY (R387): 60 s after opening. -/
def execAuthExpiry (s : State) : Outcome State Fault Refusal := done (s.when s.sec.auth.isSome (·.authEnd 6))

/-- An OTP word: as manufactured, with the bits programmed since. -/
def State.otp (s : State) (i : Nat) : Nat :=
  (s.sec.otp.filter (fun (e : Nat × Nat) => e.1 == i)).foldl (fun a e => a ||| e.2) (Config.otpWord i % 2 ^ 32)

/-- OTP_DATA_WRITE (R387): collects a word to program and advances OTP_ADDR. -/
def execOtpDataWrite (p : Path) (v : Nat) (s : State) : Outcome State Fault Refusal :=
  done <| s.writeOwn p SEC_OTP_DATA.addr v okChk fun s =>
    (s.modSec (fun t => { t with otpStage := t.otpStage ++ [(s.rd SEC_OTP_ADDR, v % 2 ^ 32)] })).inc SEC_OTP_ADDR

/-- The command bit of PROGRAM (R387). -/
def cmdOtpProgram : Cmd :=
  Cmd.mk SEC_OTP_CMD_PROGRAM (fun s =>
      let d := s.sec.otpStage.flatMap (fun (e : Nat × Nat) => beBytes 4 e.1 ++ beBytes 4 e.2)
      if !s.secReady then 3 else if (s.authFor 3).any (fun a => a.digest == (Config.sha384 d).toNat) then 0 else 6) (fun s => (s.modSec (fun t => { t with otp := t.otp ++ t.otpStage, otpStage := [] })).authEnd 6)

/-- PROGRAM (R387): the collected words are programmed under an OTP authorisation whose digest matches them. -/
def execOtpProgram (p : Path) (s : State) : Outcome State Fault Refusal :=
  done <| s.runCmd p cmdOtpProgram

end Sys2Proof.Machine
end

