-- ==== Sys2Proof/Machine/Sieve.lean ====
section
/-!
DEFINITION. The sieve: runs, its instructions, loading and lookup tables (`14_facets_and_sieve.md`).
-/

namespace Sys2Proof.Machine

open Host (Outcome)

/-! ## Runs (R302, R303) -/

/-- L of a frame at the start of a run when `stored` bytes of it are stored: its length, or for an Ethernet frame of more than 256 bytes
the bytes stored at that moment, at least 256 (R302). -/
def SvFrame.runLength (f : SvFrame) (stored : Nat) : Nat :=
  if 6 ≤ f.point ∧ f.point ≤ 9 ∧ f.data.length > 256 then min (max stored 256) f.data.length else f.data.length

/-- SIEVE_RUN (R302, R309): the program bound to the point starts on evaluator `e` (0–23) for a waiting frame (`w`: which, and how many
of its bytes are stored), the first of its point.  If the program is no longer enabled, the frame goes on as at an unbound point. -/
def execSieveRun (e : Nat) (w : Nat × Nat) (s : State) : Outcome State Fault Refusal :=
  done <| s.when (s.sieveUp && e < 24 && (tget? s.fac.runs e).isNone) fun s =>
    match s.fac.wait[w.1]? with
    | none => s
    | some f => s.when (!(s.fac.wait.take w.1).any (fun g => g.point == f.point)) fun s =>
      let s := s.modFac (fun t => { t with wait := t.wait.eraseIdx w.1 })
      match s.boundProg f.point with
      | none => s.toContext f
      | some n =>
        let len := f.runLength w.2
        let base := s.rd (SIEVE_PROG_ACT_BASE n)
        let prog := (List.range (s.rd (SIEVE_PROG_ACT_LEN n))).map (fun k => tget 0 s.fac.imem (base + k))
        let r : SvRun := { frame := f, prog := prog, base := base, len := len,
                           regs := [0, 0, 0, 0, 0, 0, min len 65535, f.point * 65536 + f.sub % 65536] }
        s.modFac (fun t => { t with runs := tset t.runs e r, order := t.order ++ [e] })

/-! ## The instruction word (R304) -/

/-- The fields of an instruction word. -/
structure SvWord where
  op : Nat
  rd : Nat
  rs : Nat
  r : Bool
  imm : Nat
  deriving DecidableEq, Repr

/-- The instruction of a word: [31:26] OPCODE, [25:23] rd, [22:20] rs, [19] R, [18:0] the immediate. -/
def svDecode (w : Nat) : SvWord := ⟨bitsOf w 31 26, bitsOf w 25 23, bitsOf w 22 20, bitsOf w 19 19 == 1, bitsOf w 18 0⟩

/-- The opcode numbers (*Sieve opcodes*). -/
def opLdb : Nat := 0x01
def opLdh : Nat := 0x02
def opLdw : Nat := 0x03
def opAnd : Nat := 0x08
def opOr : Nat := 0x09
def opXor : Nat := 0x0A
def opAdd : Nat := 0x0B
def opSub : Nat := 0x0C
def opShl : Nat := 0x0D
def opShr : Nat := 0x0E
def opCmp : Nat := 0x0F
def opBeq : Nat := 0x10
def opBne : Nat := 0x11
def opBgt : Nat := 0x12
def opBlt : Nat := 0x13
def opJmp : Nat := 0x14
def opLkp : Nat := 0x18
def opSettc : Nat := 0x20
def opSettun : Nat := 0x21
def opMark : Nat := 0x22
def opMeter : Nat := 0x23
def opDrop : Nat := 0x24
def opCopyhost : Nat := 0x25
def opStamp : Nat := 0x26
def opCount : Nat := 0x27
def opAccept : Nat := 0x28

/-- Register `k` of a run. -/
def SvRun.reg (r : SvRun) (k : Nat) : Nat := (r.regs[k]?).getD 0

/-- The run with register `k` set, modulo 2^32. -/
def SvRun.setReg (r : SvRun) (k v : Nat) : SvRun := { r with regs := r.regs.set k (v % 2 ^ 32) }

/-- The operand of an action: rs, or IMM[7:0] (R304). -/
def SvRun.operand (r : SvRun) (i : SvWord) : Nat := if i.r then r.reg i.rs else i.imm % 256

/-- An operand from a register above 255 makes SETTUN, METER, COPYHOST and COUNT ignored (R305). -/
def SvRun.tooBig (r : SvRun) (i : SvWord) : Bool := i.r && r.reg i.rs > 255

/-- Put a run back; a run that has passed its last instruction, or ended, leaves the sieve in order (R303, R304). -/
def State.svPut (s : State) (e : Nat) (r : SvRun) : State :=
  let r := if r.ovr.isNone && r.pc ≥ r.prog.length then { r with ovr := some false } else r
  let s := s.modFac (fun t => { t with runs := tset t.runs e r })
  if r.ovr.isSome then
    let s := s.wr SIEVE_STEPS_MAX (max (s.rd SIEVE_STEPS_MAX) r.steps)
    s.svRelease r.frame.point s.fac.order
  else s

/-- Evaluator `e` executes its next instruction, which is one of opcode `op`: `f` gives the state and the run after it, the
run's pc already past it. -/
def State.svStep (s : State) (e op : Nat) (f : State → SvRun → SvWord → State × SvRun) : State :=
  s.when s.sieveUp fun s =>
    match tget? s.fac.runs e with
    | none => s
    | some r =>
      match r.prog[r.pc]? with
      | none => s
      | some w =>
        let i := svDecode w
        s.when (r.ovr.isNone && i.op == op) fun s =>
          let (s, r) := f s { r with pc := r.pc + 1, steps := r.steps + 1 } i
          s.svPut e r

/-! ## Loads and arithmetic (R302, R304) -/

/-- A load of `n` bytes at a = IMM[7:0] + (R ? rs : 0); one whose last byte lies at or beyond min(L, 256) returns zero and is
counted. -/
def svLoad (n : Nat) (s : State) (r : SvRun) (i : SvWord) : State × SvRun :=
  let a := (i.imm % 256 + (if i.r then r.reg i.rs else 0)) % 2 ^ 32
  if a + n > min r.len 256 then (s.sieveOob, r.setReg i.rd 0)
  else (s, r.setReg i.rd (beNat ((r.frame.data.drop a).take n)))

/-- An ALU instruction: rd ∘ rs with R = 1, rs ∘ IMM[18:0] with R = 0. -/
def svAlu (f : Nat → Nat → Nat) (s : State) (r : SvRun) (i : SvWord) : State × SvRun :=
  (s, r.setReg i.rd (if i.r then f (r.reg i.rd) (r.reg i.rs) else f (r.reg i.rs) i.imm))

/-- LDB (R304). -/
def execSieveLdb (e : Nat) (s : State) : Outcome State Fault Refusal := done (s.svStep e opLdb (svLoad 1))
/-- LDH (R304). -/
def execSieveLdh (e : Nat) (s : State) : Outcome State Fault Refusal := done (s.svStep e opLdh (svLoad 2))
/-- LDW (R304). -/
def execSieveLdw (e : Nat) (s : State) : Outcome State Fault Refusal := done (s.svStep e opLdw (svLoad 4))
/-- AND (R304). -/
def execSieveAnd (e : Nat) (s : State) : Outcome State Fault Refusal := done (s.svStep e opAnd (svAlu (· &&& ·)))
/-- OR (R304). -/
def execSieveOr (e : Nat) (s : State) : Outcome State Fault Refusal := done (s.svStep e opOr (svAlu (· ||| ·)))
/-- XOR (R304). -/
def execSieveXor (e : Nat) (s : State) : Outcome State Fault Refusal := done (s.svStep e opXor (svAlu (· ^^^ ·)))
/-- ADD (R304), modulo 2^32. -/
def execSieveAdd (e : Nat) (s : State) : Outcome State Fault Refusal := done (s.svStep e opAdd (svAlu (· + ·)))
/-- SUB (R304), modulo 2^32. -/
def execSieveSub (e : Nat) (s : State) : Outcome State Fault Refusal :=
  done (s.svStep e opSub (svAlu (fun a b => a + 2 ^ 32 - b % 2 ^ 32)))
/-- SHL (R304): shift by the operand mod 32. -/
def execSieveShl (e : Nat) (s : State) : Outcome State Fault Refusal := done (s.svStep e opShl (svAlu (fun a b => a * 2 ^ (b % 32))))
/-- SHR (R304): logical shift by the operand mod 32. -/
def execSieveShr (e : Nat) (s : State) : Outcome State Fault Refusal := done (s.svStep e opShr (svAlu (fun a b => a / 2 ^ (b % 32))))

/-- CMP (R304): compares rd with rs or IMM[18:0], unsigned. -/
def execSieveCmp (e : Nat) (s : State) : Outcome State Fault Refusal :=
  done <| s.svStep e opCmp (fun s r i =>
    let a := r.reg i.rd
    let b := if i.r then r.reg i.rs else i.imm
    (s, { r with result := if a = b then 1 else if a > b then 2 else 3 }))

/-! ## Branches (R304) -/

/-- A branch to pc + IMM[7:0] if the result of the last compare meets a condition. -/
def svBranch (c : Nat → Bool) (s : State) (r : SvRun) (i : SvWord) : State × SvRun :=
  (s, if c r.result then { r with pc := r.pc - 1 + i.imm % 256 } else r)

/-- BEQ (R304). -/
def execSieveBeq (e : Nat) (s : State) : Outcome State Fault Refusal := done (s.svStep e opBeq (svBranch (· == 1)))
/-- BNE (R304). -/
def execSieveBne (e : Nat) (s : State) : Outcome State Fault Refusal := done (s.svStep e opBne (svBranch (· != 1)))
/-- BGT (R304). -/
def execSieveBgt (e : Nat) (s : State) : Outcome State Fault Refusal := done (s.svStep e opBgt (svBranch (· == 2)))
/-- BLT (R304). -/
def execSieveBlt (e : Nat) (s : State) : Outcome State Fault Refusal := done (s.svStep e opBlt (svBranch (· == 3)))
/-- JMP (R304). -/
def execSieveJmp (e : Nat) (s : State) : Outcome State Fault Refusal := done (s.svStep e opJmp (svBranch (fun _ => true)))

/-- The value that a table holds under a key (R306). -/
def State.lookup (s : State) (tid key : Nat) : Option Nat :=
  (s.fac.entries.find? (fun (x : Nat × Bool × Nat × Nat × Nat) => x.2.1 && x.2.2.1 == tid && x.2.2.2.1 == key)).map (·.2.2.2.2)

/-- LKP (R304, R306): a hit gives the value and EQ, a miss zero and LT. -/
def execSieveLkp (e : Nat) (s : State) : Outcome State Fault Refusal :=
  done <| s.svStep e opLkp (fun s r i =>
    match s.lookup (i.imm % 16) (r.reg i.rs) with
    | some v => (s, { r.setReg i.rd v with result := 1 })
    | none => (s, { r.setReg i.rd 0 with result := 3 }))

/-! ## Actions (R305) -/

/-- SETTC (R305): the class, unless a remark fixed it. -/
def execSieveSettc (e : Nat) (s : State) : Outcome State Fault Refusal :=
  done <| s.svStep e opSettc (fun s r i => (s, if r.fixed then r else { r with tc := some (r.operand i % 8) }))

/-- SETTUN (R305): a context that is ON and whose ingress point is this point.  DESIGN CHOICE (log entry 147): both are tested when the
instruction runs. -/
def execSieveSettun (e : Nat) (s : State) : Outcome State Fault Refusal :=
  done <| s.svStep e opSettun (fun s r i =>
    if r.tooBig i then (s.sieveOob, r)
    else
      let c := r.operand i
      (s, if s.ctxLife c == lifeOn && s.ingressAt c r.frame.point then { r with tun := some c } else r))

/-- MARK (R304). -/
def execSieveMark (e : Nat) (s : State) : Outcome State Fault Refusal :=
  done <| s.svStep e opMark (fun s r _ => (s, { r with cm := true }))

/-- The frame's pre-colour at a sieve's meter is yellow: DEI of the outer VLAN tag of a frame at Ethernet ingress (R161). -/
def SvFrame.preYellow (f : SvFrame) : Bool :=
  6 ≤ f.point && f.point ≤ 9 && (halfAt f.data 12 == 0x8100 || halfAt f.data 12 == 0x88A8) && (halfAt f.data 14).testBit 12

/-- METER (R160–R162, R305): colours the frame at its ingress stamp, applies the colour's action and writes the colour. -/
def execSieveMeter (e : Nat) (s : State) : Outcome State Fault Refusal :=
  done <| s.svStep e opMeter (fun s r i =>
    if r.tooBig i then (s.sieveOob, r)
    else
      let (s, m) := s.meter (r.operand i) r.frame.ns r.frame.preYellow
      let r := r.setReg i.rd (m.colour.getD 0)
      let r := if m.mark then { r with cm := true } else r
      let r := match m.tc with | some tc => { r with tc := some tc, fixed := true } | none => r
      (s, if m.drop then { r with ovr := some true } else r))

/-- DROP (R305). -/
def execSieveDrop (e : Nat) (s : State) : Outcome State Fault Refusal :=
  done <| s.svStep e opDrop (fun s r _ => (s, { r with ovr := some true }))

/-- COPYHOST (R305): at most two copies per run. -/
def execSieveCopyhost (e : Nat) (s : State) : Outcome State Fault Refusal :=
  done <| s.svStep e opCopyhost (fun s r i =>
    if r.tooBig i then (s.sieveOob, r)
    else if r.copies.length ≥ 2 then (s.copyLost, r)
    else (s, { r with copies := r.copies ++ [r.operand i] }))

/-- STAMP (R305): never past the bytes of the window's length, nor into the FCS at Ethernet ingress. -/
def execSieveStamp (e : Nat) (s : State) : Outcome State Fault Refusal :=
  done <| s.svStep e opStamp (fun s r i =>
    let o := r.operand i
    let lim := if 6 ≤ r.frame.point && r.frame.point ≤ 9 then r.len - 4 else r.len
    if (i.r && o > 248) || o + 8 > lim then (s.sieveOob, r) else (s, { r with stamps := r.stamps ++ [o] }))

/-- COUNT (R304, R309). -/
def execSieveCount (e : Nat) (s : State) : Outcome State Fault Refusal :=
  done <| s.svStep e opCount (fun s r i =>
    if r.tooBig i then (s.sieveOob, r) else (s.inc (SIEVE_CNT (r.operand i)), r))

/-- ACCEPT (R305). -/
def execSieveAccept (e : Nat) (s : State) : Outcome State Fault Refusal :=
  done <| s.svStep e opAccept (fun s r _ => (s, { r with ovr := some false }))

/-! ## Loading and measurement (R307, R308) -/

/-- The word lies in the area of an enabled program, or in an old area on which a run still goes on.  DEDUCED (log entry 145): an area
that is not free yet takes no instruction, as that of an enabled program (R307). -/
def State.imemUsed (s : State) (a : Nat) : Bool :=
  s.fac.runs.any (fun (e : Nat × SvRun) => e.2.base ≤ a && decide (a < e.2.base + e.2.prog.length)) ||
  (List.range 32).any (fun n => s.on (SIEVE_PROG_ACT_EN n) && s.rd (SIEVE_PROG_ACT_BASE n) ≤ a &&
    a < s.rd (SIEVE_PROG_ACT_BASE n) + s.rd (SIEVE_PROG_ACT_LEN n))

/-- IMEM_ADDR advances by one. -/
def State.imemNext (s : State) : State := s.inc SIEVE_IMEM_ADDR_ADDR

/-- IMEM_DATA_ACCESS (R307): a write (`w`) or a read of the word at IMEM_ADDR, which then advances; a write inside an enabled
program is rejected with code 0x03 and advances nothing. -/
def execImemDataAccess (p : Path) (w : Option Nat) (s : State) : Outcome State Fault Refusal :=
  done <|
    match w with
    | some v => s.writeOwn p SIEVE_IMEM_DATA.addr (v % 2 ^ 32)
        (fun s => if s.imemUsed (s.rd SIEVE_IMEM_ADDR_ADDR) then 3 else 0)
        (fun s =>
          let a := s.rd SIEVE_IMEM_ADDR_ADDR
          let v := v % 2 ^ 32
          (s.modFac (fun t => { t with imem := if v = 0 then tdel t.imem a else tset t.imem a v })).imemNext)
    | none => s.readOwn p SIEVE_IMEM_DATA.addr (fun s => tget 0 s.fac.imem (s.rd SIEVE_IMEM_ADDR_ADDR)) (·.imemNext)

/-- The opcodes of R304. -/
def svOps : List Nat :=
  [opLdb, opLdh, opLdw, opAnd, opOr, opXor, opAdd, opSub, opShl, opShr, opCmp, opBeq, opBne, opBgt, opBlt, opJmp, opLkp, opSettc,
   opSettun, opMark, opMeter, opDrop, opCopyhost, opStamp, opCount, opAccept]

/-- A field that R304 requires to be zero is not, or a STAMP operand lies above 248. -/
def svZeroBad (i : SvWord) : Bool :=
  let high := i.imm / 256 != 0
  if i.op = opLdb ∨ i.op = opLdh ∨ i.op = opLdw ∨ i.op = opSettun ∨ i.op = opMeter ∨ i.op = opCopyhost ∨ i.op = opCount then high
  else if i.op = opCmp then !i.r && i.rs != 0
  else if opBeq ≤ i.op ∧ i.op ≤ opJmp then i.r || i.rd != 0 || i.rs != 0
  else if i.op = opLkp then i.r || i.imm / 16 != 0
  else if i.op = opSettc then i.imm / 8 != 0
  else if i.op = opMark ∨ i.op = opDrop ∨ i.op = opAccept then i.r || i.imm != 0
  else if i.op = opStamp then !i.r && i.imm % 256 > 248
  else false

/-- The reason for which the word at offset `k` of a program of `len` words fails; 0 if none (R307). -/
def svWordReason (w k len : Nat) : Nat :=
  let i := svDecode w
  let b := i.imm % 256
  if !svOps.contains i.op then 1
  else if opBeq ≤ i.op && i.op ≤ opJmp && (b == 0 || k + b > len - 1) then 2
  else if svZeroBad i then 5 else 0

/-- The outcome of the commit checks: reason and index (R307). -/
def State.progCheck (s : State) (n base len : Nat) : Nat × Nat :=
  if len < 1 ∨ len > 256 ∨ base + len > 4096 then (3, 0)
  else if (List.range 32).any (fun m => m != n && s.on (SIEVE_PROG_ACT_EN m) &&
      base < s.rd (SIEVE_PROG_ACT_BASE m) + s.rd (SIEVE_PROG_ACT_LEN m) && s.rd (SIEVE_PROG_ACT_BASE m) < base + len) then (4, 0)
  else match (List.range len).find? (fun k => svWordReason (tget 0 s.fac.imem (base + k)) k len != 0) with
    | some k => (svWordReason (tget 0 s.fac.imem (base + k)) k len, k)
    | none => (0, 0)

/-- What PROG_CMD.COMMIT does on a path (R307, R308). -/
def State.progCommit (s : State) (p : Path) : State :=
  let n := s.rd (SIEVE_PROG_SEL_PROG.onPath p)
  let base := s.rd (SIEVE_PROG_DEF_BASE.onPath p)
  let len := s.rd (SIEVE_PROG_DEF_LEN.onPath p)
  let r := s.progCheck n base len
  let s := ((s.wr (SIEVE_PROG_STATUS_LAST_PROG.onPath p) n).wr (SIEVE_PROG_STATUS_INDEX.onPath p) r.2).wr
    (SIEVE_PROG_STATUS_REASON.onPath p) r.1
  if r.1 ≠ 0 then (s.raise 12 0).capture 12 p 1 (wIdx SIEVE_PROG_CMD_COMMIT % 1024) 1
  else
    let s := ((s.flag (SIEVE_PROG_ACT_EN n) true).wr (SIEVE_PROG_ACT_LEN n) len).wr (SIEVE_PROG_ACT_BASE n) base
    s.mrExtend 1 (beBytes 1 n ++ beBytes 2 len ++ (List.range len).flatMap (fun k => beBytes 4 (tget 0 s.fac.imem (base + k))))

/-- The command bit of PROG_COMMIT (R307). -/
def cmdProgCommit (p : Path) : Cmd :=
  Cmd.mk SIEVE_PROG_CMD_COMMIT okChk (·.progCommit p)

/-- PROG_COMMIT (R307). -/
def execProgCommit (p : Path) (s : State) : Outcome State Fault Refusal :=
  done <| s.runCmd p (cmdProgCommit p)

/-- Disable program `n` and measure it (R308). -/
def State.progOff (s : State) (n : Nat) : State := (s.flag (SIEVE_PROG_ACT_EN n) false).mrExtend 1 (beBytes 1 n ++ beBytes 2 0)

/-- What PROG_CMD.DISABLE does on a path. -/
def State.progDisable (s : State) (p : Path) : State :=
  let n := s.rd (SIEVE_PROG_SEL_PROG.onPath p)
  (s.wr (SIEVE_PROG_STATUS_LAST_PROG.onPath p) n).progOff n

/-- The command bit of PROG_DISABLE (R308). -/
def cmdProgDisable (p : Path) : Cmd :=
  Cmd.mk SIEVE_PROG_CMD_DISABLE okChk (·.progDisable p)

/-- PROG_DISABLE (R308). -/
def execProgDisable (p : Path) (s : State) : Outcome State Fault Refusal :=
  done <| s.runCmd p (cmdProgDisable p)

/-- What PROG_CMD.CLR_CNT does. -/
def State.progClr (s : State) (p : Path) : State :=
  let s := foldS (List.range 256) (fun s k => s.wr (SIEVE_CNT k) 0) s
  (((s.wr SIEVE_OOB 0).wr SIEVE_COPY_LOST 0).wr SIEVE_NO_CTX 0).wr (SIEVE_PROG_STATUS_LAST_PROG.onPath p) (s.rd (SIEVE_PROG_SEL_PROG.onPath p))

/-- The command bit of PROG_CLR_CNT (R307). -/
def cmdProgClrCnt (p : Path) : Cmd :=
  Cmd.mk SIEVE_PROG_CMD_CLR_CNT okChk (·.progClr p)

/-- PROG_CLR_CNT (R307). -/
def execProgClrCnt (p : Path) (s : State) : Outcome State Fault Refusal :=
  done <| s.runCmd p (cmdProgClrCnt p)

/-! ## Lookup entries (R306) -/

/-- What TBL_CMD.LOAD does on a path. -/
def State.tblLoad (s : State) (p : Path) : State :=
  let x := tget (false, 0, 0, 0) s.fac.entries (s.rd (SIEVE_TBL_SEL.onPath p))
  (((s.wr (SIEVE_TBL_KEY.onPath p) x.2.2.1).wr (SIEVE_TBL_VAL.onPath p) x.2.2.2).flag (SIEVE_TBL_CTRL_V.onPath p) x.1).wr
    (SIEVE_TBL_CTRL_TID.onPath p) x.2.1

/-- The command bit of TBL_LOAD (R306). -/
def cmdTblLoad (p : Path) : Cmd :=
  Cmd.mk SIEVE_TBL_CMD_LOAD okChk (·.tblLoad p)

/-- TBL_LOAD (R306). -/
def execTblLoad (p : Path) (s : State) : Outcome State Fault Refusal :=
  done <| s.runCmd p (cmdTblLoad p)

/-- What TBL_CMD.COMMIT does on a path. -/
def State.tblCommit (s : State) (p : Path) : State :=
  let i := s.rd (SIEVE_TBL_SEL.onPath p)
  let v := s.on (SIEVE_TBL_CTRL_V.onPath p)
  let tid := s.rd (SIEVE_TBL_CTRL_TID.onPath p)
  let key := s.rd (SIEVE_TBL_KEY.onPath p)
  let x := (v, tid, key, s.rd (SIEVE_TBL_VAL.onPath p))
  if v && s.fac.entries.any (fun (e : Nat × Bool × Nat × Nat × Nat) => e.1 != i && e.2.1 && e.2.2.1 == tid && e.2.2.2.1 == key) then
    ((s.wr (SIEVE_TBL_STATUS_REASON.onPath p) 1).raise 12 0).capture 12 p 1 (wIdx SIEVE_TBL_CMD_COMMIT % 1024) 2
  else
    (s.modFac (fun t =>
      { t with entries := if x = (false, 0, 0, 0) then tdel t.entries i else tset t.entries i x })).wr
      (SIEVE_TBL_STATUS_REASON.onPath p) 0

/-- The command bit of TBL_COMMIT (R306). -/
def cmdTblCommit (p : Path) : Cmd :=
  Cmd.mk SIEVE_TBL_CMD_COMMIT okChk (·.tblCommit p)

/-- TBL_COMMIT (R306). -/
def execTblCommit (p : Path) (s : State) : Outcome State Fault Refusal :=
  done <| s.runCmd p (cmdTblCommit p)

/-- STEPS_MAX_READ (*SIEVE registers*): the read restarts the measure. -/
def execStepsMaxRead (p : Path) (s : State) : Outcome State Fault Refusal :=
  done <| s.readOwn p SIEVE_STEPS_MAX.addr (fun s => s.rd SIEVE_STEPS_MAX) (·.wr SIEVE_STEPS_MAX 0)

end Sys2Proof.Machine
end

