-- ==== Sys2Proof/Machine/ResetOps.lean ====
section
/-!
DEFINITION. What resets do: the fields that keep their values (R7, R8), the warm reset, the loss of D0 and D2 power,
the reset of one block (R19), and what a power domain takes with it when it goes off and brings when it comes on.
-/

namespace Sys2Proof.Machine

open Host (Outcome)

/-! ## Which bits of the word store a reset keeps -/

/-- The row's field lies in the word at this offset of its page. -/
def AccRow.has (r : AccRow) (o : Nat) : Bool :=
  r.off ≤ o &&
    (let d := o - r.off
     if r.n1 = 1 ∧ r.n2 = 1 then d == 0
     else if r.n2 = 1 then d % r.s1 == 0 && decide (d / r.s1 < r.n1)
     else decide (d / r.s1 < r.n1) && (d % r.s1) % r.s2 == 0 && decide ((d % r.s1) / r.s2 < r.n2))

/-- The bits of the row's field in its word. -/
def AccRow.mask (r : AccRow) : Nat := 2 ^ (r.hi + 1) - 2 ^ r.lo

/-- The rows of the fields in the word at a register-space address. -/
def rowsAt (a : Nat) : List AccRow := (accRows (a / 0x1000)).filter (fun r => r.has (a % 0x1000))

/-- The bits of the word at `a` whose type satisfies `sel`. -/
def typeMask (a : Nat) (sel : AccTy → Bool) : Nat :=
  ((rowsAt a).filter (fun r => sel r.ty)).foldl (fun m r => m ||| r.mask) 0

/-- The RWS bits of a word. -/
def rwsMask (a : Nat) : Nat := typeMask a (fun t => t == .rws)

/-- A word keeps the bits of `keep`; the others return to the reset value. -/
def resetWord (a keep : Nat) (w : Word) : Word :=
  let k := BitVec.ofNat 32 keep
  (w &&& k) ||| (dflt a &&& ~~~k)

/-- Every word keeps the bits that `keep` gives for its address. -/
def resetWords (keep : Nat → Nat) (m : Tbl Word) : Tbl Word :=
  m.filterMap (fun e => let v := resetWord e.1 (keep e.1) e.2; if v == dflt e.1 then none else some (e.1, v))

/-- All bits. -/
def allBits : Nat := 0xFFFFFFFF

/-- The register-space address that a word of a path's bank or of the values in force belongs to, if it belongs to one. -/
def baseAddr (a : Nat) : Option Nat :=
  if a < 0x100000 then some (a % 0x40000) else if a < 0x140000 then some (a - 0x100000) else none

/-- The bits that keep their values through a warm reset: the pages BZL, SVC and REC, RWS fields, and the fields that their
chapters name (R7): watchdog resets (R47), engine crashes, the tamper latch and the debug unlock (R371, R387), and the fields that mirror
the ledger (`19_startup_and_update.md`). -/
def warmKeep (a : Nat) : Nat :=
  match baseAddr a with
  | none => 0
  | some b =>
    let p := b / 0x1000
    if p = 3 ∨ p = 4 ∨ p = 8 then allBits
    else if b ≠ a ∨ b % 0x1000 < 0x40 then 0
    else if b = SYS_WDT_STATUS_RESETS.addr then 0xFFFF0000
    else if b = SEC_STATUS_TAMPER.addr then 0xC
    else if b = BOOT_STATUS_ALT.addr then 0x1FC0
    else if 0xA04C ≤ b ∧ b ≤ 0xA064 then allBits
    else if b = BOOT_IMG_INFO_RB_INDEX.addr then 0x3F
    else if p = 11 ∧ (List.range 16).any (fun e => (FAC_ENG_STATE_CRASHES e).addr == b) then 0xFFFF0000
    else rwsMask b

/-- The bits that the loss of D0 keeps while D2 stays powered: BZL and SVC; and TAMPER_CFG and the tamper log in D1. -/
def coldKeep (d1 : Bool) (a : Nat) : Nat :=
  match baseAddr a with
  | none => 0
  | some b =>
    if b / 0x1000 = 3 ∨ b / 0x1000 = 4 then allBits
    else if d1 ∧ (b = SEC_TAMPER_CFG_ARM.addr ∨ b = SEC_TAMPER_LOG_FIRST.addr ∨ b = SEC_TAMPER_TIME.addr) then allBits
    else if d1 ∧ b = SEC_STATUS_TAMPER.addr then 0x8
    else 0

/-! ## The resets of the whole chip (R7, R391) -/

/-- What the boot flash holds, and the ledger's AON copy. -/
def BootS.keepFlash (b : BootS) : BootS :=
  { image := b.image, cfg := b.cfg, secA := b.secA, secB := b.secB, inB := b.inB, seq := b.seq }

/-- The fast outputs are driven low. -/
def State.foutLow (s : State) : State :=
  let s := foldS ((List.range 8).filter s.evi.fout.testBit) (fun s k => s.emit (.fout k false)) s
  s.modEvi (fun t => { t with fout := 0, pulsing := [] })

/-- Accesses that stall or are remote end without a completion (R46). -/
def State.dropAccesses (s : State) : State :=
  foldS (s.chip.stalled ++ s.chip.remote.map (·.acc)) (fun s x => s.emit (.noCompletion x.path)) s

/-- A warm reset (R7): every field and every hidden state that is not kept returns to its reset value, and the start begins at B1
(R391). -/
def State.warmReset (s : State) : State :=
  let s := s.dropAccesses.foutLow
  let t : State :=
    { words := resetWords warmKeep s.words
      pending := s.pending, out := s.out, fresh := s.fresh
      chip := { unitId := s.chip.unitId, finalRun := s.chip.finalRun, thermalOff := s.chip.thermalOff }
      recd := { s.recd with flushTo := none }
      time := { sec := s.time.sec, ns := s.time.ns, begun := s.time.begun, ran := s.time.ran, everSet := s.time.everSet, rtc := s.time.rtc }
      pwr := { rsStore := s.pwr.rsStore, railEn := s.pwr.railEn }
      evi := { fifo := s.evi.fifo, seq := s.evi.seq }
      dp := { shown := s.dp.shown, played := s.dp.played }
      bzl := s.bzl
      svc := { s.svc with reduced := s.on SVC_TC_STATUS_DEAD_BATT }
      sec := { slots := s.sec.slots, otp := s.sec.otp, rbRaised := s.sec.rbRaised }
      boot := { s.boot.keepFlash with cold := false, stepAt := s.elapsed, failAt := s.boot.failAt } }
  (t.showEvi).wr BOOT_STATUS_STEP 1

/-- D0 loses power: everything but D2, the flash and the OTP returns to its reset value; with VBAT, D1 keeps the key store, the tamper
state, the last-words buffer and the RTC. -/
def State.loseD0 (s : State) (vbat : Bool) (rtc : Option Nat) : State :=
  let s := s.dropAccesses.foutLow
  { words := resetWords (coldKeep vbat) s.words
    pending := s.pending, out := s.out, fresh := s.fresh
    recd := { flash := s.recd.flash, lastWords := if vbat then s.recd.lastWords else [] }
    time := { rtc := rtc }
    pwr := { rsStore := s.pwr.rsStore }
    bzl := s.bzl
    svc := { s.svc with reduced := s.on SVC_TC_STATUS_DEAD_BATT }
    sec := { slots := if vbat then s.sec.slots else [], otp := s.sec.otp, rbRaised := s.sec.rbRaised,
             tamperDue := vbat && s.sec.tamperDue }
    boot := { s.boot.keepFlash with seq := 0, lost := !vbat }
    chip := { unitId := s.chip.unitId } }

/-- A start begins after a loss of D0 (R174, R391): the seconds come from the RTC if it is valid. -/
def State.coldStart (s : State) (vbat : Bool) (rtc : Option Nat) : State :=
  let s := s.loseD0 vbat rtc
  let sec := rtc.getD 0
  s.modTime (fun t => { t with sec := sec, begun := sec * 8000, everSet := rtc.isSome })

/-! ## The reset of one block (R19) -/

/-- The address is one of a page's words at offset 0x040 or above, in any bank or in force. -/
def inPage (page a : Nat) : Bool :=
  match baseAddr a with
  | some b => b / 0x1000 == page && decide (b % 0x1000 ≥ 0x40)
  | none => false

/-- Window words of a page: contexts from `lo` on, meters, subscriptions and publications. -/
def inWindow (page a : Nat) : Bool :=
  if page = 15 then (0x200300 ≤ a && a < 0x208000) || (0x300300 ≤ a && a < 0x308000)
  else if page = 14 then 0x220000 ≤ a && a < 0x230000
  else if page = 36 then 0x230000 ≤ a && a < 0x250000
  else false

/-- The fields of D0 and D2 pages that show state which the block behind the page does not hold: the chip's place in the tree, its power
state, the core supply, the levels of pins, the recorder's ring, the key store, the link keys, and the boot ledger with the image.
DEDUCED (log entry 115): a soft reset of the page leaves them as they are (R19). -/
def shownElsewhere (b : Nat) : Nat :=
  if b = SYS_TREE_POS_CHIP.addr ∨ b = SEC_STATUS_TAMPER.addr then allBits
  else if b = PWR_PS_STATUS_STATE.addr then 0x7
  else if b = PMB_CTRL_CORE_ADDR.addr then 0x7F00
  else if b = PMB_VSTAT_VNOW.addr then 0x3F3F
  else if b = BZL_STATUS_PG.addr then 0x38C03
  else if b = SVC_TC_STATUS_STATE.addr then 0x9000
  else if REC_HEAD_SEQ.addr ≤ b ∧ b ≤ REC_FLUSHED_SEQ.addr then allBits
  else if (SEC_LINK_KEY_GEN 0).addr ≤ b ∧ b ≤ (SEC_LINK_KEY_GEN 2).addr then allBits
  else if b = BOOT_STATUS_STEP.addr ∨ (BOOT_LEDGER_LAST_FLAGS.addr ≤ b ∧ b ≤ BOOT_RB_FLOOR.addr) then allBits
  else 0

/-- The bits of a word that the reset of a page's block keeps: RWS fields, and those that show state outside the block (R19). -/
def blockKeep (page a : Nat) : Nat :=
  if inWindow page a then 0
  else if inPage page a then
    let b := (baseAddr a).getD 0
    rwsMask b ||| (if a = b then shownElsewhere b else 0)
  else allBits

/-- The discard of a context's cells without a trace. -/
def State.ctxErase (s : State) (c : Nat) : State :=
  let s := (s.flushCtx c false).modCtx c (fun _ => {})
  { s with ctxs := tdel s.ctxs c, quar := s.quar.filter (fun q => q.ctx != c) }

/-- The hidden state behind a page is reset. -/
def State.blockHidden (s : State) (page : Nat) : State :=
  if page = 1 then s.modPwr (fun p => { p with entryPending := false, wakePend := false })
  else if page = 2 then s.modPwr (fun p => { p with vHeld := none, vErr := 1, bucket := 10800000, rsWin := [] })
  else if page = 3 then { s with bzl := { lineMv := s.bzl.lineMv, auxMv := s.bzl.auxMv, lineFwd := s.bzl.lineFwd, auxFwd := s.bzl.auxFwd } }
  else if page = 4 then s.modSvc (fun v => { up := v.up, level := v.level, reduced := v.reduced })
  else if page = 6 then
    let s := s.modTime (fun t =>
      { sec := t.sec, ns := t.ns, begun := t.begun, ran := t.ran, everSet := t.everSet, rtc := t.rtc, gap := t.gap })
    foldS [0, 1, 2] (fun s n => s.modTm n (fun _ => {})) s
  else if page = 7 then s.foutLow.modEvi (fun _ => {})
  else if page = 8 then { s with recd := { s.recd with due := [], queue := [], run := none, holdoff := [] } }
  else if page = 9 then s.modSec (fun t => { t with chal := none, auth := none, otpStage := [] })
  else if page = 11 then s.modFac (fun t => { t with eng := [] })
  else if page = 12 then s.modFac (fun t => { eng := t.eng, digest := t.digest, held := t.held })
  else if page = 13 then
    let s := { s with gird := {}, ctxs := s.ctxs.map (fun e => (e.1, { e.2 with kept := [], rx := none })) }
    foldS (List.range 256) (fun s c => s.showKept c) s
  else if page = 14 then { s with sch := {} }
  else if page = 15 then
    foldS ((List.range 250).map (· + 6)) (fun s c => s.ctxErase c) s
  else if 16 ≤ page ∧ page ≤ 18 then
    let n := page - 16
    let s := ((s.leaveTree n).dropLink n).enterDetect n
    s.modTr n (fun _ => {})
  else if 19 ≤ page ∧ page ≤ 21 then s.modEp (page - 19) (fun _ => {})
  else if page = 22 then s.modBrg (fun b => { b with np := [] })
  else if page = 23 then s.modDma (fun d => { d with tlb := [], inv := [], sync := [], ff := [] })
  else if page = 24 then s.modDma (fun d => { d with chans := [], lastH := 31, lastT := 31 })
  else if page = 25 then s.modBrg (fun b => { np := b.np })
  else if page = 27 then s.modDp (fun d =>
    { d with frame := 0, sentTim := none, dpcd := [], seg := 0, ofs := 0, mirror := none, monHpd := false, fwd := none,
             ans := none, nack := false })
  else if page = 28 then s.modDp (fun d =>
    { frame := d.frame, sentTim := d.sentTim, dpcd := d.dpcd, seg := d.seg, ofs := d.ofs, mirror := d.mirror,
      monHpd := d.monHpd, fwd := d.fwd, ans := d.ans, nack := d.nack, shown := d.shown, played := d.played })
  else if page = 29 then s.modUsb (fun u => { u with ifaces := 7, resetAt := none, mgmtWait := false, left := false })
  else if page = 30 then s.modUsb (fun u => { ifaces := u.ifaces, resetAt := u.resetAt, mgmtWait := u.mgmtWait, left := u.left })
  else if page = 35 then s.modStn (fun t => { t with dup := [], redSeq := [], nodes := [], proxy := [] })
  else if page = 36 then s.modStn (fun t =>
    { t with matched := [], stnIn := [], expiry := [], selPub := [], tpl := [], pubs := [] })
  else if page = 37 then s.modStn (fun t => { t with ptpTx := [], followUp := [] })
  else if page = 38 then s.modStn (fun t => { t with stage := [], evSeq := 0, blockSeq := 1, blockPos := 0, inFlight := [], handover := false })
  else s

/-- Show the powered buffer banks: all of D4 and D5 while they are on. -/
def State.showBanks (s : State) : State :=
  ((s.notePool.wr GRD_BANK_UP_LO (if s.domOn 4 then allBits else 0)).wr GRD_BANK_UP_HI (if s.domOn 5 then allBits else 0)).showPool

/-- The block behind a page returns to reset (R19): its fields other than RWS ones, its windows and its hidden state.  Enabled sieve
programs extend MR1 as their disable does (R308). -/
def State.blockReset (s : State) (page : Nat) : State :=
  let s := s.when (page == 12) (fun s =>
    foldS ((List.range 32).filter (fun n => s.on (SIEVE_PROG_ACT_EN n))) (fun s n => s.progOff n) s)
  let s := s.blockHidden page
  let s := { s with words := resetWords (blockKeep page) s.words }
  let s := s.when (page == 3) (·.orUpdate)
  let s := s.when (page == 4) (fun s => (s.wr SVC_TC_STATUS_STATE s.tcIdle).svcUpdate)
  let s := s.when (page == 13) (·.showBanks)
  let s := s.when (page == 7) (·.showEvi)
  let s := s.when (page == 15) (·.ctxHooks)
  s.when (page == 28) (·.dpaltHpd)

/-- The pages whose LIFE follows their domain and WEDGED (R148, R170). -/
def lifeFollows (page : Nat) : Bool := [11, 12, 13, 14, 15, 19, 20, 21].contains page

/-- A soft reset of a page (R19): the block is reset, EN reads 0 and the function is OFF.  A numbered pavilion whose INT# condition it
ends tells the crown (R42). -/
def State.softReset (s : State) (page : Nat) : State :=
  let t := (s.blockReset page).flag (PG_CTRL_EN page) false
  let t := (t.flag (PG_STATE_WEDGED page) false).flag (PG_STATE_EN_PENDING page) false
  let t :=
    if t.lifeImpl page then t.setLife page lifeOff
    else if lifeFollows page then t.setLife page (if (pageDoms page).all t.domOn then lifeOn else lifeOff)
    else t.setLife page (if page < 39 ∧ t.on (PG_STATE_DOMAIN_UP page) then lifeOn else t.rd (PG_STATE_LIFE page))
  t.when (page == 0) (·.intReport s)

/-! ## What a domain takes and brings (R22, R148, R293) -/

/-- Discard the frames and kept cells that hold a cell in a bank of the domain. -/
def State.banksLost (s : State) (d : Nat) : State :=
  let gone (b : Nat) : Bool := if d = 4 then b / 2048 < 32 else decide (b / 2048 ≥ 32)
  let s := foldS s.gird.queues (fun s (e : Nat × List QFrame) =>
    foldS (e.2.filter (fun f => f.cells.any (fun x => gone x.buf))) (fun s f =>
      (foldS f.cells (fun s x => s.release x.buf) s).unlinkFrame e.1 f.ctx f.id) s) s
  { s with ctxs := s.ctxs.map (fun e => (e.1, { e.2 with kept := e.2.kept.filter (fun k => !gone k.buf) })) }

/-- A domain has gone off: DOMAIN_UP and the functions that follow the domain fall, its buffer banks lose their cells, its engines
are OFF, and the sieve loses its store with D3. -/
def State.domLost (s : State) (d : Nat) : State :=
  let s := s.setDomainUp d false
  let s := foldS ((domPages d).filter lifeFollows) (fun s p => s.setLife p lifeOff) s
  let s := s.when (d == 3) (·.blockReset 12)
  let s := s.when (d == 4 || d == 5) (fun s => (s.banksLost d).showBanks)
  let engs := if d = 13 then List.range 8 else if d = 14 then (List.range 8).map (· + 8) else []
  foldS engs (fun s e => (s.clearMailbox e).setEng e engOff) s

/-- The engines that a start or a domain loads: all of them, or the few of the reduced service configuration (R337). -/
def State.enginesToLoad (s : State) : List Nat := if s.svc.reduced then [6, 8, 12, 13] else List.range 16

/-- A domain is up: DOMAIN_UP and the functions that follow it, its banks, and its engines after B5 (R148, R293). -/
def State.domReady (s : State) (d : Nat) : State :=
  let s := (s.setDom d ⟨.on, false, (s.dom d).offHeld⟩).setDomainUp d true
  let s := foldS ((domPages d).filter lifeFollows) (fun s p =>
    s.setLife p (if s.on (PG_STATE_WEDGED p) then lifeFault else if s.on (PG_STATE_DOMAIN_UP p) then lifeOn else lifeOff)) s
  let s := s.when (d == 4 || d == 5) (·.showBanks)
  let engs := s.enginesToLoad.filter (fun e => if d = 13 then e < 8 else d == 14 && decide (e ≥ 8))
  s.when (decide (s.step_ ≥ 5) && !s.fac.digest.isEmpty)
    (foldS (engs.filter (fun e => s.engState e == engOff)) (fun s e => s.setEng e engLoading))

/-- Every block of a domain passes through OFF and returns to reset (R19, R351). -/
def State.domReset (s : State) (d : Nat) : State :=
  (foldS (domPages d) (fun s p => s.softReset p) s).domLost d

end Sys2Proof.Machine
end

