-- ==== Sys2Proof/Machine/BootOps.lean ====
section
/-!
DEFINITION. Shared operations of the start-up: counts and alternatives of the ledger, step failures, the loader, the
image checks and the ledger's mirror (`19_startup_and_update.md`).
-/

namespace Sys2Proof.Machine

open Host (Outcome)

/-! ## Counts and alternatives (R394, R395) -/

/-- The failure count of a step that has one: B2, B3, B4, B6, B7. -/
def State.stepCount (s : State) (n : Nat) : Nat :=
  if n = 2 then s.rd BOOT_LEDGER_CNT_CNT_A % 16
  else if n = 3 then s.rd BOOT_LEDGER_CNT_CNT_A / 16
  else if n = 4 then s.rd BOOT_LEDGER_CNT_CNT_B % 16
  else if n = 6 then s.rd BOOT_LEDGER_CNT_CNT_B / 16
  else if n = 7 then s.rd BOOT_LEDGER_CNT_CNT_C % 16
  else 0

/-- Set the failure count of a step. -/
def State.setCount (s : State) (n v : Nat) : State :=
  let a := s.rd BOOT_LEDGER_CNT_CNT_A
  let b := s.rd BOOT_LEDGER_CNT_CNT_B
  let c := s.rd BOOT_LEDGER_CNT_CNT_C
  if n = 2 then s.wr BOOT_LEDGER_CNT_CNT_A (a / 16 * 16 + v)
  else if n = 3 then s.wr BOOT_LEDGER_CNT_CNT_A (a % 16 + 16 * v)
  else if n = 4 then s.wr BOOT_LEDGER_CNT_CNT_B (b / 16 * 16 + v)
  else if n = 6 then s.wr BOOT_LEDGER_CNT_CNT_B (b % 16 + 16 * v)
  else if n = 7 then s.wr BOOT_LEDGER_CNT_CNT_C (c / 16 * 16 + v)
  else s

/-- Every count is zero; the B7 rate steps are no count. -/
def State.clearCounts (s : State) : State :=
  ((s.wr BOOT_LEDGER_CNT_CNT_A 0).wr BOOT_LEDGER_CNT_CNT_B 0).setCount 7 0

/-- The bit of ALT of a step. -/
def altBit (n : Nat) : Nat := if n = 2 then 0 else if n = 3 then 1 else if n = 4 then 2 else if n = 6 then 3 else 4

/-- The alternative of a step is in force. -/
def State.altOn (s : State) (n : Nat) : Bool := s.bit BOOT_STATUS_ALT (altBit n)

/-- The rate steps of B7 in force (R395). -/
def State.rateSteps (s : State) : Nat := bitsOf (s.rd BOOT_LEDGER_CNT_CNT_C) 5 4
def State.setRateSteps (s : State) (v : Nat) : State :=
  s.wr BOOT_LEDGER_CNT_CNT_C (s.rd BOOT_LEDGER_CNT_CNT_C % 16 + 16 * v)

/-- Clear the ALT flag of a step; for B7 the rate steps go too.  DEDUCED (log entry 155): with that of B3 NO_KEYS goes, which stands for the
failure of its alternative. -/
def State.clearAlt (s : State) (n : Nat) : State :=
  ((s.setBit BOOT_STATUS_ALT (altBit n) false).when (n == 7) (·.setRateSteps 0)).when (n == 3) (·.setFlagBit 2 false)

/-- A count reaches THRESH (R395): the alternative is taken, or what follows it. -/
def State.altNext (s : State) (n : Nat) : State :=
  let s0 := s.setCount n 0
  if s.altOn n then
    if n = 2 then s0.setFlagBit 1 true
    else if n = 3 then s0.setFlagBit 2 true
    else if n = 7 then s0.setRateSteps (min 2 (s.rateSteps + 1))
    else s0
  else
    let s1 := (s0.setBit BOOT_STATUS_ALT (altBit n) true).raise 10 1
    s1.when (n == 7) (·.setRateSteps 1)

/-! ## The loader (R402) -/

/-- Every tunnel, the link ports and PCIe go down. -/
def State.tunnelsDown (s : State) : State :=
  let s := foldS [0, 1, 2] (fun s n => s.when (s.rd (PG_STATE_LIFE (lnkPage n)) != lifeOff) (fun s =>
    (((s.leaveTree n).dropLink n).enterDetect n).setLife (lnkPage n) lifeOff)) s
  let s := s.when (s.rd (PG_STATE_LIFE 22) != lifeOff) (fun s => s.pcieDetect.setLife 22 lifeOff)
  (foldS (((List.range 250).map (· + 6)).filter (fun c => s.ctxLife c != lifeOff)) (fun s c =>
    (s.ctxErase c).ctxSetLife c lifeOff) s).ctxHooks

/-- The lapidary loader starts, in D0, D3, D4 and D12. -/
def State.loaderEnter (s : State) (fromRun : Bool) : State :=
  let s := (s.flag BOOT_STATUS_LOADER true).raise 10 4
  let s := (s.wr BOOT_UPD_STATUS_PHASE 0).wr BOOT_UPD_STATUS_REASON 0
  let s := s.tunnelsDown.modBoot (fun b =>
    { b with fromRun := fromRun, staged := [], dfu := false, uart := none, dfuState := 2, dfuStatus := 0, dfuNext := 0, attempt := 0 })
  foldS [3, 4, 12] (fun s d => s.domRequest d) s

/-! ## Failure of a step (R394, R408) -/

/-- The failure is noted in the ledger: step, code, time; BROWNOUT follows the code.  Of a brown-out and a step failure in one instant the
brown-out stays the last (R408). -/
def State.noteFail (s : State) (n code : Nat) : State :=
  let t := s.recTime
  let s := s.modBoot (fun b => if code = 0x20 then { b with brownAt := some s.elapsed } else { b with failAt := some (s.elapsed, n) })
  if code ≠ 0x20 ∧ s.boot.brownAt = some s.elapsed then s else
  let s := (s.wr BOOT_LEDGER_LAST_FAIL_STEP n).wr BOOT_LEDGER_LAST_FAIL_CODE code
  ((s.wr BOOT_FAIL_TIME_HI (t / 2 ^ 32)).wr BOOT_FAIL_TIME_LO t).setFlagBit 3 (code == 0x20)

/-- The counting of a failure: one in B5 is counted against B4; the count saturates at 15, and THRESH takes the alternative. -/
def State.countFail (s : State) (n : Nat) : State :=
  let k := if n = 5 then 4 else n
  let c := min 15 (s.stepCount k + 1)
  if c ≥ s.rd BOOT_LEDGER_CFG_THRESH then s.altNext k else s.setCount k c

/-- A step fails (R394): in B1 and B8 only the recorder notes it; otherwise the ledger notes and counts it.  A missing image enters the
loader at once; every counted failure causes a warm reset. -/
def State.bootFail (s : State) (n code : Nat) : State :=
  let s := s.raise 10 0
  if n ≤ 1 ∨ n = 8 then (s.sysRecord 9 code (0x0A00 + n) [wIdx BOOT_STATUS_STEP]).warmReset
  else
    let s := s.noteFail n code
    if code = 4 then s.ledgerUpdate.loaderEnter false
    else ((s.countFail n).ledgerUpdate).warmReset

/-- A watchdog reset (R47): the reset is counted, the failure goes to the ledger, and the chip is reset. -/
def State.watchdogReset (s : State) : State := (s.incSat SYS_WDT_STATUS_RESETS).bootFail s.step_ 0x10

/-! ## The WSI image (R398, R399) -/

/-- The number at bytes `[a, a + n)` of a byte list. -/
def beAt (b : List Byte) (a n : Nat) : Nat := beNat ((b.drop a).take n)

/-- The segments: offset and length, of the 16 engines. -/
def wsiSegs (h : List Byte) : List (Nat × Nat) := (List.range 16).map (fun e => (beAt h (96 + 8 * e) 4, beAt h (100 + 8 * e) 4))

/-- Two segments overlap. -/
def segsMeet (a b : Nat × Nat) : Bool := decide (a.1 < b.1 + b.2 ∧ b.1 < a.1 + a.2)

/-- Some two different segments overlap. -/
def anyMeet : List (Nat × Nat) → Bool
  | [] => false
  | x :: l => l.any (segsMeet x) || anyMeet l

/-- Header fields that are malformed (check 2 of R398, and any BINDING above 1). -/
def wsiMalformed (h : List Byte) : Bool :=
  let len := beAt h 20 4
  beAt h 4 2 != 1 || beAt h 17 3 != 0 || beAt h 88 8 != 0 || beAt h 320 96 != 0 || len == 0 || decide (len > 8388608) ||
    (wsiSegs h).any (fun e => decide (e.1 + e.2 > len ∨ e.2 > 49152)) ||
    anyMeet ((wsiSegs h).filter (fun e => e.2 != 0))

/-- Checks 1–7 of R398: 0, or the code of the first that fails.  `missing` tells that a bad magic means no image. -/
def State.wsiCheck (s : State) (h : List Byte) : Nat :=
  let key := beAt h 7 1
  let pub := (h.drop 224).take 96
  let hash := Config.otpKeyHash s.sec.otp key
  if beAt h 0 4 ≠ 0x57534931 ∨ wsiMalformed h then 5
  else if beAt h 8 4 ≠ 0x3160 then 6
  else if beAt h 6 1 > 1 then 5
  else if beAt h 24 16 ≠ (if beAt h 6 1 = 1 then (Config.sha384 (beBytes 8 s.chip.unitId)).toNat / 2 ^ 256 else 0) then 7
  else if beAt h 16 1 < s.rd BOOT_RB_FLOOR then 8
  else if key > 1 ∨ Config.sha384 pub ≠ hash ∨ hash = 0 then 9
  else if !Config.verify pub (h.take 416) ((h.drop 416).take 96) then 0xA
  else 0

/-- Check 8 of R398: the payload's digest. -/
def payloadOk (h p : List Byte) : Bool := (Config.sha384 p).toNat == beAt h 40 48

/-! ## The mirror (R393) -/

/-- A mirror record is valid. -/
def ledgerOk (r : List Byte) : Bool := r.length == 64 && beAt r 0 4 == 0x574C4447 && beAt r 60 4 == crc32c (r.take 60)

/-- The valid record with the highest SEQ in either sector. -/
def BootS.newest (b : BootS) : Option (List Byte) :=
  ((b.secA ++ b.secB).filter ledgerOk).foldl (fun (o : Option (List Byte)) r =>
    match o with
    | none => some r
    | some x => if beAt r 4 4 > beAt x 4 4 then some r else some x) none

/-- The ledger is loaded from the mirror; with no valid record it starts from zero with THRESH 2.  HALT ends with the loss of D0. -/
def State.ledgerLoad (s : State) : State :=
  match s.boot.newest with
  | none => s.modBoot (fun b => { b with seq := 0 })
  | some r =>
    let fl := beAt r 11 1
    let s := (s.modBoot (fun b => { b with seq := beAt r 4 4 })).setFlags (fl &&& 0xFD)
    let s := (s.wr BOOT_LEDGER_CFG_THRESH (fl / 16)).wr BOOT_LEDGER_LAST_FAIL_STEP (beAt r 9 1)
    let s := (s.wr BOOT_LEDGER_LAST_FAIL_CODE (beAt r 10 1)).wr BOOT_LEDGER_CNT_CNT_A (beAt r 12 1)
    let s := (s.wr BOOT_LEDGER_CNT_CNT_B (beAt r 13 1)).wr BOOT_LEDGER_CNT_CNT_C (beAt r 14 1)
    let s := (s.wr BOOT_STATUS_ALT (beAt r 15 1)).wr BOOT_POWER_CYCLES (beAt r 16 4)
    let s := (s.wr BOOT_OP_SECONDS (beAt r 20 4)).wr BOOT_FAIL_TIME_HI (beAt r 24 4)
    ((s.wr BOOT_FAIL_TIME_LO (beAt r 28 4)).wr BOOT_IMG_VERSION (beAt r 32 4)).wr BOOT_IMG_INFO_RB_INDEX (beAt r 36 1)

/-! ## Recorder at B1 of a cold start (R420, R421) -/

/-- The records that the recorder holds in some region, in ascending order of key. -/
def recsOf (t : Tbl Rec) : List Rec := t.map (·.2)

/-- The next SEQ follows the highest in the flash region and the last-words buffer; last words not in the flash go into the ring; what was
written before B1 follows (R420, R421). -/
def State.recorderStart (s : State) : State :=
  let early := recsOf s.recd.ring
  let fl := recsOf s.recd.flash
  let words := s.recd.lastWords.filter (fun r => !early.contains r)
  let top := (fl ++ words).foldl (fun a r => max a r.seq) 0
  let head := if top = 0 then 1 else seqNext top
  let add := words.filter (fun r => !fl.any (fun x => x.seq == r.seq))
  let low := add.foldl (fun a r => min a r.seq) head
  let ring := add.foldl (fun (t : Tbl Rec) r => tset t (r.seq % 1024) r) []
  let s := { s with recd := { s.recd with ring := ring, lastWords := [], flushTimer := !add.isEmpty } }
  let s := ((s.wr REC_HEAD_SEQ head).wr REC_OLDEST_SEQ low).wr REC_FLUSHED_SEQ low
  foldS early (fun s r => s.putRecord r) s

end Sys2Proof.Machine
end

