-- ==== Sys2Proof/Machine/Rails.lean ====
section
/-!
DEFINITION. Rail scripts (R365, R366): the window, the commit checks, and the run of a copy, one command for each
opcode.
-/

namespace Sys2Proof.Machine

open Host (Outcome)

/-! ## The window (R366) -/

/-- Entry `i` of a stored copy; an erased entry reads all ones. -/
def State.rsStored (s : State) (copy i : Nat) : Nat := tget 0xFFFFFFFF s.pwr.rsStore (128 * copy + i)

/-- Entry `i` of the window. -/
def State.rsWord (s : State) (i : Nat) : Nat := tget 0 s.pwr.rsWin i

/-- The bits of an entry that its opcode names (*Rail-script encoding*). -/
def rsNamed (op : Nat) : Nat :=
  if op = 0 then 0xF0000001 else if op = 1 then 0xF00FFFFF else if op = 2 ∨ op = 3 then 0xFFFFFFFF
  else if op = 4 then 0xFF000001 else if op = 5 then 0xFF1FFFFF else if op = 6 then 0xFFFFFFFF else 0xF000007F

/-- A field of the entry lies outside its range. -/
def rsRangeBad (w : Nat) : Bool :=
  let op := bitsOf w 31 28
  if op = 1 then bitsOf w 19 0 == 0 || decide (bitsOf w 19 0 > 1000000)
  else if op = 2 then bitsOf w 25 24 == 3
  else if op = 3 then bitsOf w 25 24 == 0 || bitsOf w 25 24 == 3
  else if op = 4 ∨ op = 5 then decide (bitsOf w 27 24 > 3)
  else if op = 6 then decide (bitsOf w 27 24 > 6)
  else false

/-- The reason that entry `i` fails the commit with, or 0. -/
def rsReason (i w : Nat) : Nat :=
  let op := bitsOf w 31 28
  if op ≥ 8 then 1
  else if op = 7 ∧ bitsOf w 6 0 ≤ i then 2
  else if rsRangeBad w then 3
  else if w ||| rsNamed op ≠ rsNamed op then 4
  else 0

/-- COMMIT: every entry is checked; all pass and the copy is stored, or nothing is written. -/
def State.rsCommit (s : State) (p : Path) : State :=
  match (List.range 128).find? (fun i => rsReason i (s.rsWord i) != 0) with
  | some i =>
    let s := (s.wr PMB_RS_STATUS_INDEX i).wr PMB_RS_STATUS_REASON (rsReason i (s.rsWord i))
    (s.capture 2 p 1 (PMB_RS_CMD_COMMIT.addr % 0x1000 / 4) 1).raise 2 3
  | none =>
    let c := s.rd PMB_RS_SEL_COPY
    let s := (s.wr PMB_RS_STATUS_INDEX 0).wr PMB_RS_STATUS_REASON 0
    let s := s.modPwr (fun q => { q with rsStore := (List.range 128).foldl (fun t i => tset t (128 * c + i) (s.rsWord i)) q.rsStore })
    s.clearAlt 2

/-- The command bit of RS_COMMIT (R366). -/
def cmdRsCommit (p : Path) : Cmd := Cmd.mk PMB_RS_CMD_COMMIT okChk (·.rsCommit p)

/-- RS_COMMIT (R366, R395): a stored copy clears ALT B2. -/
def execRsCommit (p : Path) (s : State) : Outcome State Fault Refusal := done (s.runCmd p (cmdRsCommit p))

/-- LOAD: the stored copy is read into the window. -/
def State.rsLoad (s : State) : State :=
  let c := s.rd PMB_RS_SEL_COPY
  let s := s.modPwr (fun q => { q with rsWin := (List.range 128).map (fun i => (i, s.rsStored c i)) })
  s.wr PMB_RS_DATA (s.rsWord (s.rd PMB_RS_ADDR))

/-- The command bit of RS_LOAD (R366). -/
def cmdRsLoad : Cmd := Cmd.mk PMB_RS_CMD_LOAD okChk (·.rsLoad)

/-- RS_LOAD (R366). -/
def execRsLoad (p : Path) (s : State) : Outcome State Fault Refusal := done (s.runCmd p cmdRsLoad)

/-- RS_ADDR advances, and RS_DATA shows its entry. -/
def State.rsNext (s : State) : State :=
  let s := s.inc PMB_RS_ADDR
  s.wr PMB_RS_DATA (s.rsWord (s.rd PMB_RS_ADDR))

/-- RS_DATA_ACCESS (R366): a write (`w`) or a read of RS_DATA; RS_ADDR advances. -/
def execRsDataAccess (p : Path) (w : Option Nat) (s : State) : Outcome State Fault Refusal :=
  done <| match w with
    | some v => s.writeOwn p PMB_RS_DATA.addr v okChk (fun s =>
        (s.modPwr (fun q => { q with rsWin := tset q.rsWin (s.rd PMB_RS_ADDR) (v % 2 ^ 32) })).rsNext)
    | none => s.readOwn p PMB_RS_DATA.addr (fun s => s.rsWord (s.rd PMB_RS_ADDR)) (·.rsNext)

/-! ## The run (R365, R397) -/

def State.modScript (s : State) (f : Script → Script) : State := s.modPwr (fun p => { p with script := p.script.map f })

/-- The script starts with a copy: MR2 is extended with its 512 bytes (R383, R397). -/
def State.scriptStart (s : State) (copy : Nat) : State :=
  let ws := (List.range 128).map (s.rsStored copy)
  let s := ((s.wr PMB_RS_RUN_COPY copy).flag PMB_RS_RUN_FAILED false).wr PMB_RS_RUN_LAST_INDEX 0
  (s.modPwr (fun p => { p with script := some { words := ws } })).mrExtend 2 (ws.flatMap (beBytes 4))

/-- The domains that a start brings up with the rails. -/
def State.startDoms (s : State) : List Nat := if s.svc.reduced then levelDoms s.svc.level else [3, 4, 5, 13, 14, 15]

/-- The script ends: B2 passes, or fails with code 0x02. -/
def State.scriptEnd (s : State) (failed : Bool) : State :=
  let s := (s.flag PMB_RS_RUN_FAILED failed).modPwr (fun p => { p with script := none })
  if failed then (s.raise 2 3).bootFail 2 2
  else foldS s.startDoms (fun s d => s.domRequest d) (s.enterStep 3)

/-- Go to entry `pc`; past the last one the script fails. -/
def State.scriptGo (s : State) (pc : Nat) : State :=
  if pc < 128 then s.modScript (fun c => { c with pc := pc, waiting := false }) else s.scriptEnd true

/-- The present entry fails: the run goes on at the next BRANCH_FAIL, or the script fails. -/
def State.scriptFail (s : State) (c : Script) : State :=
  match (List.range 128).find? (fun i => decide (i > c.pc) && bitsOf ((c.words[i]?).getD 0) 31 28 == 7) with
  | some i => (s.modScript (fun c => { c with fail := true })).scriptGo i
  | none => s.scriptEnd true

/-- Run the present entry if it has this opcode and no wait runs. -/
def State.scriptRun (s : State) (op : Nat) (f : State → Script → Nat → State) : State :=
  match s.pwr.script with
  | none => s
  | some c =>
    let w := (c.words[c.pc]?).getD 0
    if bitsOf w 31 28 = op ∧ !c.waiting then f (s.wr PMB_RS_RUN_LAST_INDEX c.pc) c w else s

/-- The present entry has succeeded or failed. -/
def State.scriptNext (s : State) (c : Script) (ok : Bool) : State := if ok then s.scriptGo (c.pc + 1) else s.scriptFail c

/-- END (R365): ends the script, as failed when FAILED is 1. -/
def execRailEnd (s : State) : Outcome State Fault Refusal := done (s.scriptRun 0 (fun s _ w => s.scriptEnd (w % 2 == 1)))

/-- WAIT_US (R365): a wait begins. -/
def execWaitUs (s : State) : Outcome State Fault Refusal :=
  done (s.scriptRun 1 (fun s _ _ => s.modScript (fun c => { c with waiting := true })))

/-- WAIT_US_DONE (R365): the wait ends. -/
def execWaitUsDone (s : State) : Outcome State Fault Refusal :=
  done <| match s.pwr.script with
    | some c => if c.waiting then s.scriptGo (c.pc + 1) else s
    | none => s

/-- PMB_WRITE (R365): a PMBus write, acknowledged or not (`ok`). -/
def execPmbWrite (ok : Bool) (s : State) : Outcome State Fault Refusal :=
  done (s.scriptRun 2 (fun s c w => (s.emit (.pmbus (bitsOf w 27 26) (bitsOf w 23 16)
    (if bitsOf w 25 24 = 0 then 0 else if bitsOf w 25 24 = 1 then bitsOf w 7 0 else bitsOf w 15 0))).scriptNext c ok))

/-- PMB_EXPECT (R365): the value polled is equal within 2 ms (`ok`), or not. -/
def execPmbExpect (ok : Bool) (s : State) : Outcome State Fault Refusal := done (s.scriptRun 3 (fun s c _ => s.scriptNext c ok))

/-- PIN_SET (R365): drives RAIL_EN. -/
def execPinSet (s : State) : Outcome State Fault Refusal :=
  done (s.scriptRun 4 (fun s c w =>
    let k := bitsOf w 27 24 % 4
    let v := w % 2 == 1
    let m := if v then s.pwr.railEn ||| 2 ^ k else s.pwr.railEn &&& (15 - 2 ^ k)
    ((s.modPwr (fun p => { p with railEn := m })).emit (.railEn k v)).scriptGo (c.pc + 1)))

/-- PIN_WAIT (R365): the level of RAIL_PG is reached (`ok`), or the timeout passes. -/
def execPinWait (ok : Bool) (s : State) : Outcome State Fault Refusal := done (s.scriptRun 5 (fun s c _ => s.scriptNext c ok))

/-- ADC_CHECK (R365): a reading in 2 mV; it fails outside the range. -/
def execAdcCheck (reading : Nat) (s : State) : Outcome State Fault Refusal :=
  done (s.scriptRun 6 (fun s c w => s.scriptNext c (decide (bitsOf w 23 12 ≤ reading ∧ reading ≤ bitsOf w 11 0))))

/-- BRANCH_FAIL (R365): if FAIL is set, clears it and jumps. -/
def execBranchFail (s : State) : Outcome State Fault Refusal :=
  done (s.scriptRun 7 (fun s c w =>
    if c.fail then (s.modScript (fun c => { c with fail := false })).scriptGo (bitsOf w 6 0) else s.scriptGo (c.pc + 1)))

/-- RAIL_SCRIPT_TIMEOUT (R365): the script has run for 500 ms, and fails. -/
def execRailScriptTimeout (s : State) : Outcome State Fault Refusal := done (s.when s.pwr.script.isSome (·.scriptEnd true))

end Sys2Proof.Machine
end

