-- ==== Sys2Proof/Machine/Boot.lean ====
section
/-!
DEFINITION. The steps of a start (R391–R401), the ledger's commands, the configuration region, the lapidary loader and
field update over DFU and the service UART (R402–R407).  Step B6 and the MGMT frame are in `Access.lean`.
-/

namespace Sys2Proof.Machine

open Host (Outcome)

/-! ## B1 to B5, B7, B8 -/

/-- Every rail goes off (R392, R395). -/
def State.railsOff (s : State) : State :=
  let s := foldS ((List.range 4).filter s.pwr.railEn.testBit) (fun s k => s.emit (.railEn k false)) s
  s.modPwr (fun p => { p with railEn := 0, script := none })

/-- The fields that come from OTP (R8). -/
def State.otpFields (s : State) : State :=
  let o := s.sec.otp
  let ids := Config.otpIds o
  let s := (((s.wr BOOT_RB_FLOOR (max (Config.otpFloor o) s.sec.rbRaised)).wr PMB_CTRL_CORE_ADDR (Config.otpPmbAddr o 0)).wr
    USBD_IDS_VID ids.1).wr PCIE_IDS_VID ids.2.1
  let s := (s.wr PCIE_IDS_SUBSYS_VID ids.2.2).wr PCIE_BAR2_SIZE_LOG2 (Config.otpBar2 o)
  s.modStn (fun t => { t with mac := (List.range 4).map (fun k => (k, Config.otpMac o k)) })

/-- The majority of three samples, bit by bit (R428). -/
def majority (a b c : Nat) : Nat := (a &&& b) ||| (a &&& c) ||| (b &&& c)

/-- The straps: ROLE and BOOTSEL (R71, R396). -/
def State.straps (s : State) (role sel : Nat) : State :=
  let s := { s with chip := { s.chip with strap := role % 4, role := if role % 4 = 2 then 2 else 0 } }
  let s := (s.wr BOOT_STATUS_BOOTSEL sel).when (role % 4 == 1) (·.becomeCrown)
  let note (s : State) : State := s.sysRecord 9 0x0100 0x0A01 [wIdx BOOT_STATUS_STEP]
  (s.when (role % 4 == 3) note).when (sel % 4 == 3) note

/-- BOOT_B1_AON_UP (R391–R393, R420, R421): straps and OTP are sampled (`x`, `y` and `z` are three samples of ROLE and BOOTSEL,
of which the majority is used, R428); after a cold start the ledger comes from the mirror, and the recorder finds its SEQ and writes the record of a tamper event
that came while D0 was down (R371).  The start goes on to B2, or waits in HALT or at the Wait level. -/
def execBootB1AonUp (x y z : Nat × Nat) (s : State) : Outcome State Fault Refusal :=
  let b0 := s.on BZL_STATUS_PG || s.on SVC_TC_STATUS_DEAD_BATT
  done <| s.when (s.chip.d0Up && !s.boot.b1 && (s.step_ == 1 || (s.step_ == 0 && b0))) fun s =>
    let s := s.when (s.step_ == 0) (·.enterStep 1)
    let s := s.when s.boot.cold fun s =>
      let s := (s.ledgerLoad.inc BOOT_POWER_CYCLES).flag SEC_STATUS_STORE_LOST s.boot.lost
      let s := s.recorderStart.modBoot (fun b => { b with cold := false, lost := false })
      s.when s.sec.tamperDue (fun s => (s.modSec (fun t => { t with tamperDue := false })).tamperRecord)
    let s := (s.otpFields.straps (majority x.1 y.1 z.1) (majority x.2 y.2 z.2)).modBoot (fun b => { b with b1 := true })
    if s.on BOOT_STATUS_HALT then s.railsOff
    else if s.svc.reduced ∧ s.svc.level = 0 then s.ledgerUpdate
    else s.enterStep 2

/-- BOOT_B2_RAILS (R365, R397): VOUT_MODE of the core regulator is read, and the rail script runs from the copy that the ledger
selects.  A VOUT_MODE that is not linear fails the step (R359). -/
def execBootB2Rails (mode : Nat) (s : State) : Outcome State Fault Refusal :=
  let wait := s.step_ == 1 && s.boot.b1 && s.svc.reduced && decide (s.svc.level ≥ 1)
  done <| s.when ((s.step_ == 2 || wait) && !s.on BOOT_STATUS_HALT && !s.chip.thermalOff && s.pwr.script.isNone) fun s =>
    let s := (s.when (s.step_ == 1) (·.enterStep 2)).wr PMB_VOUT_MODE mode
    let s := s.scriptStart (s.altOn 2).toNat
    s.when (mode % 256 / 32 != 0) (·.scriptEnd true)

/-- BOOT_B3_KEYS (R368, R369, R395): the PUF result is good with the helper data in use (`ok`), or not. -/
def execBootB3Keys (ok : Bool) (s : State) : Outcome State Fault Refusal :=
  done <| s.when (s.step_ == 3 && !s.on BOOT_STATUS_LOADER) fun s =>
    if !ok && !s.on BOOT_STATUS_NO_KEYS then s.bootFail 3 3
    else
      let keys := !s.on BOOT_STATUS_NO_KEYS
      let s := (s.flag SEC_STATUS_KEK_OK keys).modSec (fun t => { t with kek := keys })
      let s := (s.flag SEC_STATUS_HELPER_BACKUP (keys && s.altOn 3)).flag SEC_STATUS_DRBG_OK true
      if s.rd BOOT_STATUS_BOOTSEL = 1 then s.loaderEnter false else s.enterStep 4

/-- The result of B4's checks on the flash: 0 or the failure code (R398). -/
def State.imageCheck (s : State) : Nat :=
  match s.boot.image with
  | none => 4
  | some (h, p) =>
    if (s.rd BOOT_LEDGER_LAST_FLAGS).testBit 0 then 4
    else
      let c := s.wsiCheck h
      if c ≠ 0 then c else if payloadOk h p then 0 else 0xB

/-- BOOT_B4_IMAGE (R383, R395, R398): the image is checked; when accepted, MR0 is extended and the segment digests are recorded. -/
def execBootB4Image (s : State) : Outcome State Fault Refusal :=
  done <| s.when (s.step_ == 4 && !s.on BOOT_STATUS_LOADER) fun s =>
    if s.altOn 4 then s.loaderEnter false
    else
      let c := s.imageCheck
      if c ≠ 0 then s.bootFail 4 c
      else match s.boot.image with
        | none => s
        | some (h, p) =>
          let seg (e : Nat × Nat) : BitVec 384 := Config.sha384 ((p.drop e.1).take e.2)
          let s := (s.mrExtend 0 (h ++ bytes384 (Config.sha384 p))).modFac (fun t =>
            { t with digest := (List.range 16).zip ((wsiSegs h).map seg) })
          let s := ((s.wr BOOT_IMG_VERSION (beAt h 12 4)).wr BOOT_IMG_INFO_RB_INDEX (beAt h 16 1)).wr BOOT_IMG_INFO_KEY_IDX (beAt h 7 1)
          (s.wr BOOT_IMG_INFO_BINDING (beAt h 6 1)).enterStep 5

/-- BOOT_B5_ENGINES (R293, R392): the engines are loaded; those of `bad` are not loaded, do not match their digest or do not run. -/
def execBootB5Engines (bad : List Nat) (s : State) : Outcome State Fault Refusal :=
  let l := s.enginesToLoad
  done <| s.when (s.step_ == 5 && !s.on BOOT_STATUS_LOADER && s.domOn 13 && s.domOn 14 && !l.all s.engUp) fun s =>
    if l.any bad.contains then s.bootFail 5 0xC
    else
      let s := foldS l (fun s e => s.engStart e) s
      if s.svc.reduced then s.ledgerUpdate else s.enterStep 6

/-- ENGINE_LOAD_DONE (R293): an engine that loads after its domain came on runs, or halts on a mismatch. -/
def execEngineLoadDone (e : Nat) (ok : Bool) (s : State) : Outcome State Fault Refusal :=
  done <| s.when (decide (e < 16) && s.engState e == engLoading) fun s => if ok then s.engStart e else s.engHalt e 7

/-- A port that is ON is settled (R401); `quiet` names the ports that have sensed no termination for 100 ms. -/
def State.portSettled (s : State) (quiet : List Nat) (n : Nat) : Bool :=
  !s.isOn (lnkPage n) || s.active n || quiet.contains n || s.tstate n == tParked ||
    (s.tstate n == tHoldoff && !countedCause (s.rd (LNK_FAIL_CAUSE n)) (s.rd (LNK_FAIL_STATE n)))

/-- BOOT_B7_LINKS (R401): B7 ends when every enabled port is settled. -/
def execBootB7Links (quiet : List Nat) (s : State) : Outcome State Fault Refusal :=
  done <| s.when (s.step_ == 7 && [0, 1, 2].all (s.portSettled quiet)) (·.modBoot (fun b => { b with settled := true }))

/-- BOOT_B8_RUNNING (R394): the start is complete; the counts are zeroed. -/
def execBootB8Running (s : State) : Outcome State Fault Refusal :=
  done <| s.when (s.step_ == 7 && s.boot.settled) (fun s => s.clearCounts.enterStep 8)

/-- A step that has a maximum is in progress (*Start-up steps*). -/
def State.stepRuns (s : State) : Bool :=
  1 ≤ s.step_ && s.step_ ≤ 7 && !s.on BOOT_STATUS_LOADER && !s.on BOOT_STATUS_HALT && !s.boot.settled &&
    !(s.step_ == 1 && s.boot.b1) && !(s.step_ == 5 && s.enginesToLoad.all s.engUp)

/-- BOOT_STEP_TIMEOUT (R391, R401): the step in progress exceeds its maximum. -/
def execBootStepTimeout (s : State) : Outcome State Fault Refusal :=
  done (s.when s.stepRuns (fun s => s.bootFail s.step_ (if s.step_ = 7 then 0xF else 1)))

/-- OP_SECONDS_TICK (R393): a second with D0 powered. -/
def execOpSecondsTick (s : State) : Outcome State Fault Refusal := done (s.when s.chip.d0Up (·.inc BOOT_OP_SECONDS))

/-! ## Ledger commands (R395, R399) -/

/-- The command bit of CLR_CNT (R395). -/
def cmdClrCnt : Cmd := Cmd.mk BOOT_LEDGER_CMD_CLR_CNT okChk (·.clearCounts)

/-- CLR_CNT (R395): every count is zero. -/
def execClrCnt (p : Path) (s : State) : Outcome State Fault Refusal := done (s.runCmd p cmdClrCnt)

/-- What RESET_ALT does: each named step's flag is cleared. -/
def State.resetAlt (s : State) (mask : Nat) : State :=
  foldS ([2, 3, 4, 6, 7].filter (fun n => mask.testBit (altBit n))) (fun s n => s.clearAlt n) s

/-- RESET_ALT (R395): clears the ALT flags of the steps in `mask`. -/
def execResetAlt (p : Path) (mask : Nat) (s : State) : Outcome State Fault Refusal :=
  done (s.writeOwn p BOOT_LEDGER_CMD_RESET_ALT.addr (mask % 32) okChk (·.resetAlt mask))

/-- The command bit of RB_ADVANCE (R399, R408). -/
def cmdRbAdvance : Cmd :=
  Cmd.mk BOOT_RB_ADVANCE (fun s => if s.step_ = 8 ∧ !s.on BOOT_STATUS_LOADER then 0 else 3) fun s =>
    let v := max (s.rd BOOT_RB_FLOOR) (s.rd BOOT_IMG_INFO_RB_INDEX)
    (s.wr BOOT_RB_FLOOR v).modSec (fun t => { t with rbRaised := v })

/-- RB_ADVANCE (R399): the floor rises to the running image's index; code 0x03 before B8. -/
def execRbAdvance (p : Path) (s : State) : Outcome State Fault Refusal := done (s.runCmd p cmdRbAdvance)

/-! ## The configuration region (R400) -/

/-- Word `i` of the configuration region. -/
def State.cfgWord (s : State) (i : Nat) : Nat := tget 0xFFFFFFFF s.boot.cfg i

/-- The first `n` words as bytes. -/
def State.cfgBytes (s : State) (n : Nat) : List Byte := (List.range n).flatMap (fun i => beBytes 4 (s.cfgWord i))

/-- The region's header, count and CRC are right; its entry count. -/
def State.cfgCount (s : State) : Option Nat :=
  let n := s.cfgWord 1
  if s.cfgWord 0 = 0x57434647 ∧ 1 ≤ n ∧ n ≤ 6000 ∧ s.cfgWord 2 = 0 ∧ s.cfgWord 3 = 0 then
    if s.cfgWord (4 + 2 * n) = crc32c (s.cfgBytes (4 + 2 * n)) then some n else none
  else none

/-- What a CFG_DATA write does: the word is programmed (a flash program can only clear bits), and CFG_ADDR advances. -/
def State.cfgProgram (s : State) (v : Nat) : State :=
  let a := s.rd BOOT_CFG_ADDR
  let s := s.when (decide (a < 12288)) (·.modBoot (fun b => { b with cfg := tset b.cfg a (s.cfgWord a &&& (v % 2 ^ 32)) }))
  s.inc BOOT_CFG_ADDR

/-- CFG_DATA_WRITE (R400). -/
def execCfgDataWrite (p : Path) (v : Nat) (s : State) : Outcome State Fault Refusal :=
  done (s.writeOwn p BOOT_CFG_DATA.addr v okChk (·.cfgProgram v))

/-- The command bit of CFG_COMMIT (R395, R400). -/
def cmdCfgCommit : Cmd :=
  Cmd.mk BOOT_CFG_CMD_COMMIT okChk fun s =>
    if s.cfgCount.isSome then (s.wr BOOT_CFG_STATUS_REASON 0).clearAlt 6 else s.wr BOOT_CFG_STATUS_REASON 0xD

/-- CFG_COMMIT (R400): format and CRC are checked; on success ALT B6 is cleared. -/
def execCfgCommit (p : Path) (s : State) : Outcome State Fault Refusal := done (s.runCmd p cmdCfgCommit)

/-- The command bit of CFG_ERASE (R400). -/
def cmdCfgErase : Cmd := Cmd.mk BOOT_CFG_CMD_ERASE okChk (·.modBoot (fun b => { b with cfg := [] }))

/-- CFG_ERASE (R400): the region is erased. -/
def execCfgErase (p : Path) (s : State) : Outcome State Fault Refusal := done (s.runCmd p cmdCfgErase)

/-! ## Staging and writing an image (R403, R404) -/

/-- A transfer is staging, verifying or writing. -/
def State.updBusy (s : State) : Bool := let p := s.rd BOOT_UPD_STATUS_PHASE; 1 ≤ p && p ≤ 3

/-- A transfer begins. -/
def State.updStart (s : State) : State :=
  ((s.wr BOOT_UPD_STATUS_PHASE 1).wr BOOT_UPD_STATUS_REASON 0).wr BOOT_UPD_BYTES 0 |>.modBoot (fun b => { b with staged := [] })

/-- The update fails with a reason. -/
def State.updFail (s : State) (reason : Nat) : State :=
  (((s.wr BOOT_UPD_STATUS_PHASE 5).wr BOOT_UPD_STATUS_REASON reason).raise 10 3).modBoot (fun b =>
    { b with dfu := false, uart := none, attempt := 0 })

/-- The bytes of the whole image, once its header is there. -/
def BootS.imageLen (b : BootS) : Nat := 512 + beAt b.staged 20 4

/-- Bytes arrive: the state, and 0, a code of R398, or 0x100 for a transfer that runs beyond the image (R403). -/
def State.updStage (s : State) (d : List Byte) : State × Nat :=
  let was := s.boot.staged.length
  let s := s.modBoot (fun b => { b with staged := b.staged ++ d })
  let now := s.boot.staged.length
  let s := s.wr BOOT_UPD_BYTES now
  let c := if was < 512 ∧ now ≥ 512 then s.wsiCheck (s.boot.staged.take 512) else 0
  (s, if c ≠ 0 then c else if now ≥ 512 ∧ now > s.boot.imageLen then 0x100 else 0)

/-- Every byte of the image has arrived. -/
def State.updWhole (s : State) : Bool := decide (s.boot.staged.length ≥ 512) && s.boot.staged.length == s.boot.imageLen

/-- Check 8 of the staged image. -/
def State.stagedOk (s : State) : Bool := payloadOk (s.boot.staged.take 512) (s.boot.staged.drop 512)

/-- The write begins: UPD_INCOMPLETE is set and the header sector is erased (R404 steps 1, 2). -/
def State.updWrite (s : State) : State :=
  let s := (s.setFlagBit 0 true).ledgerUpdate
  (s.wr BOOT_UPD_STATUS_PHASE 3).modBoot (fun b => { b with image := none, attempt := 1, dfu := false, uart := none })

/-- The DFU function's state and status after a request. -/
def State.dfuSet (s : State) (st status : Nat) : State :=
  (s.modBoot (fun b => { b with dfuState := st, dfuStatus := status })).emit (.dfu st status)

/-- IMAGE_WRITE_DONE (R404): the write and its read-back have ended well (`ok`), or an erase (`erase`), a program or the read-back
failed: the write is repeated once; after its end the level falls that fell meanwhile (R337). -/
def execImageWriteDone (ok erase : Bool) (s : State) : Outcome State Fault Refusal :=
  done <| s.when (s.rd BOOT_UPD_STATUS_PHASE == 3 && decide (s.boot.attempt ≥ 1)) fun s =>
    let viaDfu := s.boot.dfuState == 7
    if ok then
      let s := s.modBoot (fun b => { b with image := some (b.staged.take 512, b.staged.drop 512), attempt := 0 })
      let s := ((s.setFlagBit 0 false).clearAlt 4).setCount 4 0
      let s := ((s.wr BOOT_UPD_STATUS_PHASE 4).raise 10 2).ledgerUpdate
      (s.when viaDfu (·.dfuSet 8 0)).warmReset
    else if s.boot.attempt = 1 then s.modBoot (fun b => { b with attempt := 2 })
    else ((s.updFail 4).when viaDfu (·.dfuSet 10 (if erase then 4 else 6))).when (s.svc.reduced && decide (s.svc.level < 2)) (·.levelFall)

/-! ## DFU (R253, R405) -/

/-- bStatus of a failure code (*DFU status by cause*). -/
def dfuStatusOf (c : Nat) : Nat :=
  if c = 0x100 then 8 else if c = 6 then 1 else if c = 5 ∨ c = 7 ∨ c = 8 then 2 else 7

/-- DFU_DETACH (R253, R337): the function leaves the bus for the loader; stalled at the Service level.  A bus reset of the same
instant comes first (R254). -/
def execDfuDetach (s : State) : Outcome State Fault Refusal :=
  done <| s.when (s.iface 2 && s.usb.resetAt != some s.elapsed) fun s =>
    if s.svc.reduced && decide (s.svc.level < 2) then s.usbStall
    else ((s.modUsb (fun u => { u with left := true })).emit (.usbFn 1)).loaderEnter true

/-- A DFU_DNLOAD with data. -/
def State.dfuBlock (s : State) (block : Nat) (d : List Byte) : State :=
  let s := s.when (!s.boot.dfu) (fun s => s.updStart.modBoot (fun b => { b with dfu := true, dfuNext := 0 }))
  if block ≠ s.boot.dfuNext ∨ d.length > 4096 then (s.updFail 0).dfuSet 10 2
  else
    let (s, c) := s.updStage d
    if c ≠ 0 then (s.updFail (if c = 0x100 then 0 else c)).dfuSet 10 (dfuStatusOf c)
    else if s.updWhole && !s.stagedOk then (s.updFail 0xB).dfuSet 10 7
    else (s.modBoot (fun b => { b with dfuNext := (b.dfuNext + 1) % 65536 })).dfuSet 5 0

/-- DFU_DNLOAD (R403, R405, R407): a block, or the zero-length request that ends the transfer and starts the write. -/
def execDfuDnload (block : Nat) (d : List Byte) (s : State) : Outcome State Fault Refusal :=
  done <| s.when (s.on BOOT_STATUS_LOADER && s.boot.dfuState != 10) fun s =>
    let s := s.inc USBD_DFU_BLOCKS
    if s.updBusy && !s.boot.dfu then s.dfuSet 10 9
    else if d.isEmpty then
      if s.boot.dfu && s.updWhole then s.updWrite.dfuSet 7 0 else (s.updFail 0).dfuSet 10 9
    else s.dfuBlock block d

/-- DFU_CLRSTATUS (R405): the staged image is discarded, and the state is dfuIDLE. -/
def execDfuClrstatus (s : State) : Outcome State Fault Refusal :=
  done <| s.when (s.on BOOT_STATUS_LOADER && s.rd BOOT_UPD_STATUS_PHASE != 3) fun s =>
    let s := s.when s.boot.uart.isNone (fun s => (s.wr BOOT_UPD_STATUS_PHASE 0).modBoot (fun b => { b with staged := [] }))
    (s.modBoot (fun b => { b with dfu := false, dfuNext := 0 })).dfuSet 2 0

/-! ## The loader's commands (R402) -/

/-- The command bit of LOADER_ENTER (R402). -/
def cmdLoaderEnter : Cmd :=
  Cmd.mk BOOT_LOADER_CMD_ENTER okChk (fun s => s.when (!s.on BOOT_STATUS_LOADER) (·.loaderEnter true))

/-- LOADER_ENTER (R402). -/
def execLoaderEnter (p : Path) (s : State) : Outcome State Fault Refusal := done (s.runCmd p cmdLoaderEnter)

/-- LOADER_IDLE_TIMEOUT (R402): 120 s without a transfer in a loader entered from a running image: a warm reset, if the image passes
B4. -/
def execLoaderIdleTimeout (s : State) : Outcome State Fault Refusal :=
  done <| s.when (s.on BOOT_STATUS_LOADER && s.boot.fromRun && s.rd BOOT_UPD_STATUS_PHASE == 0 && s.imageCheck == 0) (·.warmReset)

/-! ## The service UART (R406, R407) -/

/-- The service UART is served: by engine 13, or by the loader. -/
def State.uartUp (s : State) : Bool := s.on BOOT_STATUS_LOADER || s.engUp 13

/-- An accepted frame: executed and answered with its TYPE + 0x80, its SEQ and status; a frame that repeats the SEQ before it is
answered again with the previous answer. -/
def State.uartFrame (s : State) (typ seq : Nat) (act : State → State × List Byte) : State :=
  s.when s.uartUp fun s =>
    match s.boot.uartLast.filter (fun l => l.1 == seq) with
    | some (_, t :: d) => s.emit (.svcUart t.toNat seq d)
    | _ =>
      let (s, a) := act s
      let t := 128 + typ
      (s.modBoot (fun b => { b with uartLast := some (seq, beBytes 1 t ++ a) })).emit (.svcUart t seq a)

/-- SVC_UART_GAP_TIMEOUT (R406): a frame cut short by a gap is discarded; nothing of it has acted. -/
def execSvcUartGapTimeout (s : State) : Outcome State Fault Refusal := done s

/-- CONSOLE (R406): console text. -/
def execConsole (seq : Nat) (text : List Byte) (s : State) : Outcome State Fault Refusal :=
  done (s.uartFrame 2 seq (fun s => (s.emit (.unitTx 5 0 0 text), [0])))

/-- UPD_START (R406, R407): an image transfer begins, entering the loader first. -/
def execUpdStart (seq len : Nat) (s : State) : Outcome State Fault Refusal :=
  done <| s.uartFrame 0x10 seq fun s =>
    if s.updBusy || (s.svc.reduced && decide (s.svc.level < 2)) then (s, [5])
    else if len ≤ 512 ∨ len > 8389120 then (s, [1])
    else
      let s := s.when (!s.on BOOT_STATUS_LOADER) (·.loaderEnter true)
      (s.updStart.modBoot (fun b => { b with uart := some len }), [0])

/-- UPD_DATA (R403, R406): bytes at the next offset. -/
def execUpdData (seq off : Nat) (d : List Byte) (s : State) : Outcome State Fault Refusal :=
  done <| s.uartFrame 0x11 seq fun s =>
    match s.boot.uart with
    | none => (s, [if s.updBusy then 5 else 1])
    | some len =>
      if d.isEmpty ∨ d.length > 1016 then (s, [1])
      else if off ≠ s.boot.staged.length then (s, [2])
      else
        let (s, c) := s.updStage d
        if c ≠ 0 then (s.updFail (if c = 0x100 then 0 else c), [3])
        else if s.boot.staged.length > len then (s.updFail 0, [3])
        else (s, [0])

/-- UPD_END (R403, R404, R406): check 8, and the write. -/
def execUpdEnd (seq : Nat) (s : State) : Outcome State Fault Refusal :=
  done <| s.uartFrame 0x12 seq fun s =>
    match s.boot.uart with
    | none => (s, [if s.updBusy then 5 else 1])
    | some _ =>
      if !s.updWhole then (s, [2])
      else if s.stagedOk then (s.updWrite, [0]) else (s.updFail 0xB, [3])

/-- UPD_STATUS (R406): phase, reason and bytes received. -/
def execUpdStatus (seq : Nat) (s : State) : Outcome State Fault Refusal :=
  done <| s.uartFrame 0x13 seq fun s =>
    (s, [0] ++ beBytes 1 (s.rd BOOT_UPD_STATUS_PHASE) ++ beBytes 1 (s.rd BOOT_UPD_STATUS_REASON) ++ beBytes 4 (s.rd BOOT_UPD_BYTES))

/-- ENTER_LOADER (R402, R406). -/
def execEnterLoader (seq : Nat) (s : State) : Outcome State Fault Refusal :=
  done (s.uartFrame 0x20 seq (fun s => (s.when (!s.on BOOT_STATUS_LOADER) (·.loaderEnter true), [0])))

end Sys2Proof.Machine
end

