-- ==== Sys2Proof/Machine/Live.lean ====
section
/-!
DEFINITION. The value that a read of a register word returns, without any effect of the read: stored words, the sets of words
that each access path has of its own (R106), and the words that show state held elsewhere.  LIFE_IMPL of ATU, DMA and NVS depends on
the chip's role (R215).
-/

namespace Sys2Proof.Machine

/-- The word is one of a set that each access path has of its own (R106, R171, R179, R282, R301, R306, R329). -/
def perPath (a : Nat) : Bool :=
  let p := a / 0x1000
  let o := a % 0x1000
  if p = 15 then decide (o = 0x40 ∨ o = 0x44 ∨ o = 0x48 ∨ (0x100 ≤ o ∧ o < 0x180))
  else if p = 14 then decide (0xC0 ≤ o ∧ o < 0xF0)
  else if p = 12 then decide ((0x48 ≤ o ∧ o < 0x58) ∨ (0x140 ≤ o ∧ o < 0x158))
  else if p = 36 then decide ((0x40 ≤ o ∧ o < 0x50) ∨ (0x100 ≤ o ∧ o < 0x180) ∨ (0x400 ≤ o ∧ o < 0x600))
  else a == TIME_HI.addr || a == BZL_ENERGY_HI.addr

/-- The store's address of a register word, as an access path reaches it. -/
def pathAddr (p : Path) (a : Nat) : Nat := if perPath a then a + 0x40000 * p.num else a

/-- ⌊hours⌋ that the link's current key has been in use. -/
def State.keyHours (s : State) (n : Nat) : Nat :=
  match (s.port n).key.cur with
  | none => 0
  | some k => ((s.cycle + 2 ^ 32 - k.first) % 2 ^ 32) / 28800000

/-- The word of REC_WIN that the record selected by REC_SEL shows (R422): zero where the ring holds no record, all ones where the
flash is erased. -/
def State.recWin (s : State) (k : Nat) : Nat :=
  let n := s.rd REC_SEL
  if s.on REC_SRC_FLASH then
    match tget? s.recd.flash (n % 16384) with
    | some r => recWord r k
    | none => 0xFFFFFFFF
  else
    match tget? s.recd.ring (n % 1024) with
    | some r => recWord r k
    | none => 0

/-- A bit per powered domain (PWR.DOM_STATUS). -/
def State.domStatus (s : State) : Nat := (List.range 16).foldl (fun a d => if s.domOn d then a + 2 ^ d else a) 0

/-- Milliseconds before the watchdog expires (R47).  DESIGN CHOICE (log entry 114): a millisecond that has begun counts whole. -/
def State.wdtRemain (s : State) : Nat :=
  if s.on SYS_WDT_CTRL_EN then min 65535 ((s.chip.wdtEnd - s.elapsed + 999999) / 1000000) else 0

/-- Seconds before an open authorisation ends, the running one counted (R387). -/
def State.authLeft (s : State) : Nat := if s.sec.auth.isSome then (s.sec.authBy - s.elapsed + 999999999) / 1000000000 else 0

/-- The selected entry of a gate control list's oper configuration: in the entry format. -/
def State.gclOper (s : State) : Nat :=
  match (s.gcl (s.rd SCH_GCL_OPER_SEL_LIST)).oper with
  | none => 0
  | some g => match g.entries[s.rd SCH_GCL_OPER_SEL_ENTRY]? with
    | none => 0
    | some e => e.1 * 2 ^ 24 + e.2

/-- The words that show state held elsewhere: their value, or none for a stored word. -/
def State.liveWord (s : State) (a : Nat) : Option Nat :=
  let pg := a / 0x1000
  let o := a % 0x1000
  let st := (s.word a).toNat
  if pg = 0 then
    if o = 0x40 then some (s.intSummary 0)
    else if o = 0x44 then some (s.intSummary 1)
    else if o = 0x74 then some (st / 65536 * 65536 + s.wdtRemain)
    else none
  else if a = PWR_DOM_STATUS.addr then some s.domStatus
  else if a = PWR_PS_STATUS_BLOCK.addr then
    some (if s.pwr.entryPending then (PWR_PS_STATUS_BLOCK.put (s.entryBlock (s.rd PWR_PS_CTRL_TARGET)) (s.word a)).toNat else st)
  else if a = PMB_RS_DATA.addr then some (s.rsWord (s.rd PMB_RS_ADDR))
  else if a = TIME_LO.addr then some (s.time.ns * 4)
  else if a = TIME_SRC_STATUS_HOLD_S.addr then
    some (if s.rd TIME_SRC_STATUS_STATE = stHoldover then (TIME_SRC_STATUS_HOLD_S.put (min 65535 s.holdSecs) (s.word a)).toNat else st)
  else if pg = 8 ∧ 0x80 ≤ o ∧ o < 0xC0 then some (s.recWin ((o - 0x80) / 4))
  else if a = SEC_KS_STATE_STATE.addr then some s.ksState
  else if a = SEC_AUTH_STATUS_SECONDS.addr then some (SEC_AUTH_STATUS_SECONDS.put s.authLeft (s.word a)).toNat
  else if a = SEC_OTP_DATA.addr then some (s.otp (s.rd SEC_OTP_ADDR))
  else if a = SEC_CERT_LEN.addr then some (Config.certLen % 2 ^ 16)
  else if (SEC_CERT_BUF 0).addr ≤ a ∧ a < (SEC_CERT_BUF 256).addr then some (Config.certWord ((a - (SEC_CERT_BUF 0).addr) / 4)).toNat
  else if a = SIEVE_IMEM_DATA.addr then some (tget 0 s.fac.imem (s.rd SIEVE_IMEM_ADDR_ADDR))
  else if pg = 13 then
    if o = 0x40 then
      some (GRD_STATUS_BANKS_RET.put ((List.range 64).filter s.bankRet).length
        (GRD_STATUS_BANKS_UP.put ((List.range 64).filter s.bankUp).length (s.word a))).toNat
    else if o = 0x44 then some s.poolFree
    else if o = 0x4C then some s.rsvSum
    else if 0x600 ≤ o ∧ o < 0x800 then
      let q := (o - 0x600) / 4
      some (s.depth q + if (s.queue q).any (fun f => f.started) then 2 ^ 31 else 0)
    else none
  else if a = SCH_GCL_OPER_DATA.addr then some s.gclOper
  else if pg = 14 ∧ 0x200 ≤ o ∧ o < 0x2E0 ∧ o % 0x20 = 0x14 then
    let l := (o - 0x200) / 0x20
    some (if s.on (SCH_GCL_CTRL_GATE_EN l) then st else (SCH_OPER_STATUS_GATES l |>.put 255 (s.word a)).toNat)
  else if 19 ≤ pg ∧ pg ≤ 21 then
    if o = 0x44 then some s.cycle
    else if o = 0x68 then
      some (CYC_GIRDLE_LOAD_LIMIT (pg - 19) |>.put (girdleLimit (s.rd PWR_VMIN_DECL))
        ((CYC_GIRDLE_LOAD_LOAD (pg - 19)).put s.chipLoad 0)).toNat
    else none
  else if a = PCIE_CTRL_ROOT.addr then some (PCIE_CTRL_ROOT.put (!s.crown).toNat (s.word a)).toNat
  else if a = (SEC_LINK_KEY_AGE_H 0).addr then some ((SEC_LINK_KEY_AGE_H 0).put (s.keyHours 0) (s.word a)).toNat
  else if a = (SEC_LINK_KEY_AGE_H 1).addr then some ((SEC_LINK_KEY_AGE_H 1).put (s.keyHours 1) (s.word a)).toNat
  else if a = (SEC_LINK_KEY_AGE_H 2).addr then some ((SEC_LINK_KEY_AGE_H 2).put (s.keyHours 2) (s.word a)).toNat
  else none

/-- The word holds ATU or DMA registers, which read as zero on a pavilion (R215). -/
def State.absentWord (s : State) (a : Nat) : Bool := (a / 0x1000 == 23 || a / 0x1000 == 24) && decide (a % 0x1000 ≥ 0x40) && !s.crown

/-- The value that a read of the word by a path returns (R9, R35): reserved pages and undefined words read as zero. -/
def State.readWord (s : State) (p : Path) (a : Nat) : Nat :=
  if a / 0x1000 ≥ 39 then 0
  else if a % 0x1000 = 4 ∧ (a / 0x1000 = 23 ∨ a / 0x1000 = 24 ∨ a / 0x1000 = 38) then
    (s.word a).toNat % 2 ^ 31 + (if s.lifeImpl (a / 0x1000) then 2 ^ 31 else 0)
  else if a % 0x1000 < 0x40 then (s.word a).toNat
  else if s.absentWord a ∨ (rowsAt a).isEmpty then 0
  else match s.liveWord a with
    | some v => v
    | none => (s.word (pathAddr p a)).toNat

/-- A snapshot read of a word (R413): none where its domain is off or its block is wedged. -/
def State.snapRead (s : State) (i : Nat) : Nat × Option Nat :=
  let a := 4 * i
  let pg := a / 0x1000
  (i, if a % 0x1000 ≥ 0x40 ∧ pg < 39 ∧ (s.on (PG_STATE_WEDGED pg) ∨ !s.on (PG_STATE_DOMAIN_UP pg)) then none
      else some (s.readWord .pcie a))

end Sys2Proof.Machine
end

