-- ==== Sys2Proof/Machine/Recorder.lean ====
section
/-!
DEFINITION. The event recorder's triggers, chains, flush and clear (R412–R424).
-/

namespace Sys2Proof.Machine

open Host (Outcome)

def State.modRec (s : State) (f : Recorder → Recorder) : State := { s with recd := f s.recd }

/-! ## Triggers (R412, R415) -/

/-- The word list of a slot: COUNT words, at most five. -/
def State.slotList (s : State) (t : Nat) : List Nat :=
  let w01 := s.rd (REC_SNAP01 t); let w23 := s.rd (REC_SNAP23 t)
  [w01 % 65536, w01 / 65536, w23 % 65536, w23 / 65536, s.rd (REC_SNAP4 t)].take (s.rd (REC_TRG_CTRL_COUNT t))

/-- The reading of a slot's list: every word is read at the instant at which the record is started (R413). -/
def State.readList (s : State) (t : Nat) : List (Nat × Option Nat) := (s.slotList t).map s.snapRead

/-- The next pending trigger is started, once B1 has ended and no chain runs (R415, R416, R421). -/
def State.startTrig (s : State) : State :=
  match s.recd.run, s.recd.queue with
  | none, t :: q =>
    s.when s.boot.b1 (fun s => s.modRec (fun r =>
      { r with queue := q, run := some { trig := t, lst := t.slot, used := [t.slot], vals := s.readList t.slot } }))
  | _, _ => s

/-- A slot fires: within HOLDOFF it is only counted; a full queue loses it; otherwise it is queued (R415). -/
def State.fireSlot (s : State) (t : Trig) : State :=
  if s.recd.holdoff.contains t.slot then s.inc (REC_SUPPRESSED t.slot)
  else
    let s := s.when (s.rd (REC_TRG_HOLD_HOLDOFF t.slot) != 0) (·.modRec (fun r => { r with holdoff := r.holdoff ++ [t.slot] }))
    if s.recd.queue.length ≥ 16 then (s.inc REC_TRG_LOST).raise 8 3
    else ((s.inc (REC_FIRED t.slot)).modRec (fun r => { r with queue := r.queue ++ [t] })).startTrig

/-- TRIGGER_FIRE (R412, R415): the source that fired first and is not served yet fires its slot. -/
def execTriggerFire (s : State) : Outcome State Fault Refusal :=
  done <| match s.recd.due with
    | [] => s
    | t :: l => (s.modRec (fun r => { r with due := l })).fireSlot t

/-- The command bit of FIRE for a slot.  A firing without a source has a SOURCE that the manual does not state: a free value. -/
def cmdRecFire (slot : Nat) : Cmd :=
  Cmd.mk REC_CMD_FIRE okChk fun s =>
    s.when (s.isOn 8 && s.on (REC_TRG_CTRL_EN slot)) fun s =>
      let v := s.time.everSet && s.on TIME_SRC_STATUS_TIME_VALID
      let t := s.recTime
      let n := s.elapsed
      let (x, s) := s.freshVal
      s.fireSlot ⟨slot, x % 65536, t, v, n⟩

/-- FIRE (R412). -/
def execRecFire (p : Path) (slot : Nat) (s : State) : Outcome State Fault Refusal :=
  done (s.when (decide (slot < 64)) (·.runCmd p (cmdRecFire slot)))

/-- TRIGGER_HOLDOFF_END (R415). -/
def execTriggerHoldoffEnd (t : Nat) (s : State) : Outcome State Fault Refusal :=
  done (s.modRec (fun r => { r with holdoff := r.holdoff.filter (· != t) }))

/-! ## Records and chains (R413, R414, R416) -/

/-- SNAPSHOT_READ_TIMEOUT (R413): entry `e` of the record being read is not read in time. -/
def execSnapshotReadTimeout (e : Nat) (s : State) : Outcome State Fault Refusal :=
  done <| s.modRec (fun r =>
    { r with run := r.run.map (fun x =>
        if x.next.isSome then x
        else { x with vals := (List.range x.vals.length).zip x.vals |>.map (fun (y : Nat × Nat × Option Nat) =>
          if y.1 = e then (y.2.1, none) else y.2) }) })

/-- The slot that continues a chain, if any (R414). -/
def State.chainNext (s : State) (x : RecRun) : Option Nat :=
  let n := s.rd (REC_TRG_HOLD_NEXT x.lst)
  if s.on (REC_TRG_HOLD_CHAIN_EN x.lst) && decide (x.pos < 3) && !x.used.contains n then some n else none

/-- The record of a run: its flags are MORE, CONT, TIME_VALID and a bit per entry not read. -/
def State.runRecord (s : State) (x : RecRun) : Rec :=
  let more := (s.chainNext x).isSome
  let miss := (List.range x.vals.length).foldl (fun a i =>
    if ((x.vals.map (·.2)).getD i none).isNone then a + 2 ^ (8 + i) else a) 0
  { seq := 0, typ := 1, flags := more.toNat + (if x.pos > 0 then 2 else 0) + (if x.trig.valid then 4 else 0) + miss
    opSec := s.rd BOOT_OP_SECONDS, cycles := s.rd BOOT_POWER_CYCLES, time := x.trig.time, trigId := x.trig.slot
    source := if x.pos = 0 then x.trig.source else 256 * x.lst + x.pos
    snap := x.vals.map (fun (e : Nat × Option Nat) => (e.1, e.2.getD 0)) }

/-- A chain ends: the system records that waited for it enter the ring, and the next trigger starts (R416, R424). -/
def State.runEnd (s : State) : State :=
  let held := s.recd.held
  let s := s.modRec (fun r => { r with run := none, held := [] })
  (foldS held (fun s r => s.enterRing r) s).startTrig

/-- The record being read enters the ring; a chained slot continues. -/
def State.recordWritten (s : State) : State :=
  match s.recd.run with
  | none => s
  | some x =>
    if x.next.isSome then s
    else
      let n := s.chainNext x
      let s := s.enterRing (s.runRecord x)
      if n.isSome then s.modRec (fun r => { r with run := some { x with next := n } }) else s.runEnd

/-- The continuation starts: its words are read. -/
def State.chainGo (s : State) : State :=
  match s.recd.run with
  | none => s
  | some x => match x.next with
    | none => s
    | some n => s.modRec (fun r =>
      { r with run := some { x with lst := n, pos := x.pos + 1, used := x.used ++ [n], vals := s.readList n, next := none } })

/-- RECORD_WRITTEN (R409, R413, R419): the last read completes, and the record enters the ring with its CRC. -/
def execRecordWritten (s : State) : Outcome State Fault Refusal := done s.recordWritten

/-- CHAIN_CONTINUATION (R414). -/
def execChainContinuation (s : State) : Outcome State Fault Refusal := done s.chainGo

/-! ## Flushing (R417, R418) -/

/-- A flush is requested of every record that waits now. -/
def State.flushReq (s : State) : State :=
  s.when (!s.waiting.isEmpty) (fun s => s.modRec (fun r => { r with flushTo := some (s.rd REC_HEAD_SEQ) }))

/-- FLUSH_TIMER (R417): the oldest waiting record is FLUSH_MS old. -/
def execFlushTimer (s : State) : Outcome State Fault Refusal := done (s.when s.recd.flushTimer (·.flushReq))

/-- The command bit of FLUSH. -/
def cmdRecFlush : Cmd := Cmd.mk REC_CMD_FLUSH okChk (·.flushReq)

/-- FLUSH (R417). -/
def execRecFlush (p : Path) (s : State) : Outcome State Fault Refusal := done (s.runCmd p cmdRecFlush)

/-- Engine 6 may flush: it is RUNNING, the loader does not write, and no erase runs (R417, R423). -/
def State.mayFlush (s : State) : Bool :=
  s.engUp 6 && !(s.on BOOT_STATUS_LOADER && s.rd BOOT_UPD_STATUS_PHASE == 3) && s.rd REC_STATUS_CLR_PHASE != 1

/-- The waiting record that is flushed next: the first in SEQ order. -/
def State.flushNext (s : State) : Option Rec :=
  let f := s.rd REC_FLUSHED_SEQ
  s.waiting.foldl (fun (o : Option Rec) r =>
    match o with
    | none => some r
    | some x => if seqDist f r.seq < seqDist f x.seq then some r else some x) none

/-- A record goes into the flash region at its position; a sector is erased before its first position is written (R417). -/
def flashPut (t : Tbl Rec) (r : Rec) : Tbl Rec :=
  let pos := r.seq % 16384
  let t := if pos % 64 = 0 then t.filter (fun (e : Nat × Rec) => e.1 / 64 != pos / 64) else t
  tset t pos r

/-- FLUSH_RECORD_DONE (R417, R418): the next record is in the flash after no or one failed attempt, or a second attempt failed. -/
def execFlushRecordDone (fails : Nat) (s : State) : Outcome State Fault Refusal :=
  done <| match s.recd.flushTo, s.flushNext with
    | some upTo, some r => s.when s.mayFlush fun s =>
      if fails ≥ 2 then ((s.inc REC_FLUSH_ERR).raise 8 5).modRec (fun x => { x with flushTo := none, flushTimer := true })
      else
        let f := s.rd REC_FLUSHED_SEQ
        let last := decide (seqDist f (seqNext r.seq) ≥ seqDist f upTo)
        let s := s.modRec (fun x => { x with flash := flashPut x.flash r })
        let s := (s.wr REC_FLUSHED_SEQ (seqNext r.seq)).raise 8 1
        let s := s.when (!s.crown && s.on REC_CTRL_SCRIBE) (·.stageEntry 1 (recBytes r))
        let s := s.when last (·.modRec (fun x => { x with flushTo := none }))
        s.modRec (fun x => { x with flushTimer := !s.waiting.isEmpty })
    | _, _ => s

/-! ## Clearing (R423, R424) -/

/-- The triggers granted before a CLEAR: the chain in progress and those of the queue, at most 17 chains of four records, are written first
(R424). -/
def State.finishRuns (s : State) : State :=
  foldS (List.range 68) (fun s _ => s.chainGo.recordWritten) s

/-- The SEQ values held in the ring, the last-words buffer and the flash region. -/
def State.heldSeqs (s : State) : List Nat :=
  (s.recd.ring.map (·.2.seq) ++ s.recd.lastWords.map (·.seq) ++ s.recd.flash.map (·.2.seq)).eraseDups

/-- What CLEAR does under an authorisation: the triggers granted before it are written and every record is discarded, CLEARED takes the next SEQ, and the flash region is to be
erased. -/
def State.recClear (s : State) (a : Auth) : State :=
  let s := s.finishRuns
  let seqs := s.heldSeqs
  let low := match seqs with | [] => 0 | x :: l => l.foldl min x
  let pub := (beBytes 48 (Config.sha384 a.pub).toNat).take 16
  let r : Rec := { s.mkRecord 8 0 0 a.key [] with tail := beBytes 4 seqs.length ++ beBytes 4 low ++ pub ++ List.replicate 8 0 }
  let n := s.rd REC_HEAD_SEQ
  let s := s.modRec (fun x => { x with ring := [], lastWords := [], flushTo := none })
  let s := ((s.wr REC_OLDEST_SEQ n).wr REC_FLUSHED_SEQ n).enterRing r
  (((s.wr REC_STATUS_CLR_PHASE 1).authEnd 6).raise 8 4).startTrig

/-- The command bit of CLEAR: code 0x03 while an erase runs, 0x06 without an authorisation. -/
def cmdRecClear : Cmd :=
  Cmd.mk REC_CMD_CLEAR
    (fun s => if s.rd REC_STATUS_CLR_PHASE = 1 then 3 else if (s.authFor 1).isNone then 6 else 0)
    (fun s => match s.authFor 1 with | some a => s.recClear a | none => s)

/-- CLEAR (R387, R423). -/
def execRecClear (p : Path) (s : State) : Outcome State Fault Refusal := done (s.runCmd p cmdRecClear)

/-- CLEAR_ERASE_DONE (R423): the flash region is erased; the held records are flushed, CLEARED first. -/
def execClearEraseDone (s : State) : Outcome State Fault Refusal :=
  done <| s.when (s.rd REC_STATUS_CLR_PHASE == 1 && s.engUp 6) fun s =>
    ((s.modRec (fun x => { x with flash := [] })).wr REC_STATUS_CLR_PHASE 2).flushReq

end Sys2Proof.Machine
end

