-- ==== Sys2Proof/Machine/Prong.lean ====
section
/-!
DEFINITION. Life cycles (R38, R39), soft reset and stalls (R17, R19), power domains (R20–R22, R53), the prong machines' brown-out,
thermal shutdown and watchdog (R29–R33, R47), and the loss and return of D0 and D2 (R13, R391).
-/

namespace Sys2Proof.Machine

open Host (Outcome)

/-! ## Life cycles (R38, R39) -/

/-- A function's start begins: its domain is requested (R20). -/
def State.pageStart (s : State) (p : Nat) : State := foldS (pageDoms p) (fun s d => s.domRequest d) (s.setLife p lifeStarting)

/-- What ends with a function that stops, faults or is reset; an ACTIVE link goes down with LAST_DOWN 5. -/
def State.functionEnded (s : State) (p : Nat) : State :=
  if p = 6 then s.srcState stFree
  else if p = 7 then s.foutLow
  else if 16 ≤ p ∧ p ≤ 18 then
    if s.active (p - 16) then s.linkDown (p - 16) 5 else ((s.leaveTree (p - 16)).dropLink (p - 16)).enterDetect (p - 16)
  else if p = 22 then s.pcieDetect
  else if p = 24 then foldS (List.range 32) (fun s c => s.chQuit c) s
  else if p = 27 then s.dpiDown.ctxHooks
  else if p = 30 then s.hubOff
  else if p = 28 then s.dpoOff
  else if p = 29 then s.usbdUpdate
  else if 31 ≤ p ∧ p ≤ 34 then s.ethOff (p - 31)
  else if p = 36 then s.modStn (fun t => { t with matched := [], expiry := [], pubs := [] })
  else if p = 37 then s.modStn (fun t => { t with ptpTx := [], followUp := [] })
  else if p = 38 then s.setScribe 0
  else s

/-- An output in mode 0 drives LEVEL (R194). -/
def State.foutWritten (s : State) (k : Nat) : State :=
  s.when (s.isOn 7 && s.rd (EVI_FOUT_CTRL_MODE k) == 0 && s.evi.fout.testBit k != s.on (EVI_FOUT_CTRL_LEVEL k))
    (·.drive k (s.on (EVI_FOUT_CTRL_LEVEL k)))

/-- What a function does when it reaches ON.  DESIGN CHOICE (log entry 116): a port starts with a failure count of 0; its ceiling starts
from MAX_SPEED, and under STICKY_SPEED from the lower of that and the ceiling that it had (R70). -/
def State.functionBegins (s : State) (p : Nat) : State :=
  if 16 ≤ p ∧ p ≤ 18 then
    let n := p - 16
    let s := s.enterDetect n
    let top := s.rd (LNK_CTRL_MAX_SPEED n).inForce - s.rateSteps
    let ceil := if s.on (LNK_CTRL_STICKY_SPEED n) then min top (s.rd (LNK_FAIL_CEILING n)) else top
    (s.wr (LNK_FAIL_CEILING n) ceil).wr (LNK_FAIL_COUNT n) 0
  else if p = 7 then (foldS (List.range 8) (fun s k => (s.foutWritten k).foutPassed k) s).eviHold
  else if p = 26 then s.gpioOut
  else if p = 27 ∨ p = 30 then s.ctxHooks
  else if p = 28 then s.dpaltHpd
  else if p = 29 then s.usbdUpdate
  else if 31 ≤ p ∧ p ≤ 34 then s.ethBegin (p - 31)
  else if p = 38 then (s.setScribe 1).emit (.scribe 1)
  else s

/-- What a stop of a function does as it begins: an ACTIVE link announces it, training ends at once (R74), DMA channels stop. -/
def State.functionStops (s : State) (p : Nat) : State :=
  if 16 ≤ p ∧ p ≤ 18 then
    let n := p - 16
    if s.native n then s.modEp n (fun e => { e with units := e.units ++ [.state 1 0 s.cycle] })
    else if s.active n then s
    else (s.dropLink n).enterDetect n
  else if p = 6 then s.srcState stFree
  else s

/-- A write of EN = 1 (*Life-cycle transitions*). -/
def State.enable (s : State) (p : Nat) : State :=
  let s := s.flag (PG_CTRL_EN p) true
  if !s.lifeImpl p then s
  else
    let l := s.rd (PG_STATE_LIFE p)
    if l = lifeOff then s.pageStart p
    else if l = lifeStopping then s.flag (PG_STATE_EN_PENDING p) true
    else s

/-- A write of EN = 0 (*Life-cycle transitions*). -/
def State.disable (s : State) (p : Nat) : State :=
  let s := s.flag (PG_CTRL_EN p) false
  if !s.lifeImpl p then s
  else
    let l := s.rd (PG_STATE_LIFE p)
    if l = lifeStopping then s.flag (PG_STATE_EN_PENDING p) false
    else if l = lifeStarting ∨ l = lifeOn ∨ l = lifeFault then (s.setLife p lifeStopping).functionStops p
    else s

/-- A write of a header word of a page: no write to a reserved page has an effect (R9). -/
def State.headerWrite (s : State) (p : Path) (page off v : Nat) (act : State → State) : State :=
  if page ≥ 39 then s.gate ⟨p, 0, true, v⟩ (·.wrote p (0x1000 * page + off)) else s.writeOwn p (0x1000 * page + off) v okChk act

/-- PG_ENABLE (R38, R39): a write of PG_CTRL.EN = 1. -/
def execPgEnable (p : Path) (page : Nat) (s : State) : Outcome State Fault Refusal :=
  done (s.headerWrite p page 8 1 (·.enable page))

/-- PG_DISABLE (R38): a write of PG_CTRL.EN = 0. -/
def execPgDisable (p : Path) (page : Nat) (s : State) : Outcome State Fault Refusal :=
  done (s.headerWrite p page 8 0 (·.disable page))

/-- What the start of a function waits for: its domain, the link-manager engine of a port (R64), and the end of the reduced service
configuration or of the loader where that keeps it off (R337, R402). -/
def State.startOk (s : State) (p : Nat) : Bool :=
  s.rd (PG_STATE_LIFE p) == lifeStarting && s.on (PG_STATE_DOMAIN_UP p) && !s.on (PG_STATE_WEDGED p) &&
    !(s.svc.reduced && reducedOff p) && !(s.on BOOT_STATUS_LOADER && loaderOff p) && !(16 ≤ p && p ≤ 18 && !s.engUp (p - 16))

/-- FUNCTION_START_COMPLETE (R38, R64): the start of a page's function, or of DMA channel `u` − 64, completes. -/
def execFunctionStartComplete (u : Nat) (s : State) : Outcome State Fault Refusal :=
  done <|
    if u ≥ 64 then s.when (decide (u < 96)) (·.chStarted (u - 64))
    else s.when (decide (u < 39) && s.startOk u) (fun s => (s.setLife u lifeOn).functionBegins u)

/-- FUNCTION_STOP_COMPLETE (R39): the stop of a page's function, or of DMA channel `u` − 64 at a cell boundary, completes: OFF, or STARTING where
EN_PENDING was set. -/
def execFunctionStopComplete (u : Nat) (s : State) : Outcome State Fault Refusal :=
  done <|
    if u ≥ 64 then s.when (decide (u < 96) && s.rd (DMA_CH_STATE_LIFE (u - 64)) == lifeStopping) (·.chStop (u - 64))
    else s.when (decide (u < 39) && s.rd (PG_STATE_LIFE u) == lifeStopping) fun s =>
    let s := s.functionEnded u
    if s.on (PG_STATE_EN_PENDING u) then (s.flag (PG_STATE_EN_PENDING u) false).pageStart u else s.setLife u lifeOff

/-! ## Safe points (R6, R109) -/

/-- A context has a frame partly received at its ingress or partly sent at its egress (R109). -/
def State.ctxMidFrame (s : State) (c : Nat) : Bool :=
  (s.ctx c).rx.isSome || s.gird.queues.any (fun (e : Nat × List QFrame) => e.2.any (fun f => f.ctx == c && f.started))

/-- A frame is in transmission on an Ethernet port, whose egress point is `pt` (R270). -/
def State.ethBusy (s : State) (pt : Nat) : Bool := (tget? s.gird.openAt pt).isSome

/-- RWP_SAFE_POINT_APPLY (R6): a safe point of a page, or of context or channel `sub` of the pages TUN and DMA.  A page applies nothing
while a frame, transaction or transfer is in progress: reception of an Ethernet frame and the run of a low-speed message are one command
each, so none is in progress between commands; PTP's safe point is the Announce interval that the command reports.  The pages LNK, TIME,
PCIE, DPI, DPO and USBH have safe points that are events of their own. -/
def execRwpSafePointApply (page sub : Nat) (s : State) : Outcome State Fault Refusal :=
  done <|
    if page = 15 then
      s.when (decide (sub < 256) && !s.ctxMidFrame sub) (·.applyFields [CTX_MODE_TC sub, CTX_MODE_FWD sub, CTX_MODE_AGECLS sub])
    else if page = 24 then s.when (decide (sub < 32)) (·.chSafe sub)
    else if page = 25 then s.when s.brg.cur.isNone (·.applyRwp 25)
    else if page = 38 then s.when s.stn.inFlight.isEmpty (·.applyRwp 38)
    else if 31 ≤ page ∧ page ≤ 34 then s.when (!s.ethBusy (page - 25)) (fun s => (s.applyRwp page).ethBegin (page - 31))
    else if page = 35 then s.when (!(List.range 4).any (fun x => s.ethBusy (6 + x))) (·.applyRwp 35)
    else s.when (page == 26 || page == 37) (·.applyRwp page)

/-! ## Power domains (R20–R22) -/

/-- DOMAIN_SWITCH_ON (R20). -/
def execDomainSwitchOn (d : Nat) (s : State) : Outcome State Fault Refusal := done (s.when (decide (d < 16)) (·.domRequest d))

/-- DOMAIN_SWITCH_OFF (R21): held while a dependant is on. -/
def execDomainSwitchOff (d : Nat) (s : State) : Outcome State Fault Refusal :=
  done (s.when (decide (3 ≤ d ∧ d < 16)) (·.domOffReq d))

/-- Requests to switch off that were held take effect where the last dependant is off (R21). -/
def State.releaseHeld (s : State) (d : Nat) : State :=
  foldS (domPrereqs d) (fun s e =>
    s.when ((s.dom e).offHeld && s.domOn e && !s.domHasDependants e) (·.domFall e)) s

/-- DOMAIN_OFF_COMPLETE (R21, R22): a switch-off completes; a switch-on requested during it runs then. -/
def execDomainOffComplete (d : Nat) (s : State) : Outcome State Fault Refusal :=
  done <| s.when ((s.dom d).phase == .falling && !s.domHasDependants d) fun s =>
    let again := (s.dom d).onPending
    let s := (s.domLost d).setDom d { phase := .off }
    (s.when again (·.domRequest d)).releaseHeld d

/-- Domains that waited for their prerequisites begin to rise (R20). -/
def State.beginWaiting (s : State) : State :=
  foldS (List.range 16) (fun s e => s.when ((s.dom e).phase == .waiting && (domPrereqs e).all s.domOn) (·.domBegin e)) s

/-- A domain has come up; a switch-off requested meanwhile takes effect (R21). -/
def State.domainUp (s : State) (d : Nat) : State :=
  let s := (s.domReady d).beginWaiting
  s.when ((s.dom d).offHeld && !s.domHasDependants d) (·.domFall d)

/-- Cut the supply of domains at once, dependants first: their blocks pass through OFF. -/
def State.cutDomains (s : State) (l : List Nat) : State :=
  foldS l (fun s d => (s.domReset d).setDom d { phase := .off }) s

/-- D3–D15, dependants first. -/
def upperDoms : List Nat := [6, 7, 8, 9, 10, 11, 12, 13, 14, 3, 4, 5, 15]

/-! ## Soft reset, stalls and domain cycles (R17, R19) -/

/-- A soft reset of a page; a block that stays wedged keeps WEDGED (R19). -/
def State.softRstWrite (s : State) (page : Nat) (stuck : Bool) : State :=
  let was := s.on (PG_STATE_WEDGED page)
  let s := (s.functionEnded page).softReset page
  s.when (was && stuck) (fun s => (s.flag (PG_STATE_WEDGED page) true).modChip (fun c =>
    { c with softRst := c.softRst.filter (· != page) ++ [page] }))

/-- SOFT_RST (R19, R146): a write of PG_CTRL.SOFT_RST = 1; `stuck` tells that the block is still wedged after it. -/
def execSoftRst (p : Path) (page : Nat) (stuck : Bool) (s : State) : Outcome State Fault Refusal :=
  done (s.headerWrite p page 8 2 (·.softRstWrite page stuck))

/-- The domains that depend on a domain, deepest first, without it. -/
def domClosure (d : Nat) : List Nat :=
  let l1 := domDependants d
  let l2 := (l1.flatMap domDependants).filter (fun e => !l1.contains e)
  upperDoms.filter (fun e => l2.contains e || l1.contains e)

/-- The domain is on, or coming on. -/
def State.domRises (s : State) (d : Nat) : Bool := s.domOn d || (s.dom d).phase == .rising

/-- The domains that a cycle of a page's domains switches off: the dependants that are on or coming on, deepest first, then the page's own. -/
def State.cycled (s : State) (page : Nat) : List Nat :=
  (upperDoms.filter (fun e => !(pageDoms page).contains e && (pageDoms page).any (fun d => (domClosure d).contains e)) ++
    pageDoms page).filter s.domRises

/-- DOMAIN_CYCLE (R19): a page is still wedged 1 ms after SOFT_RST: its domains and the dependants that are on go off, every block
passing through OFF, and come on again.  D0, D1 and D2 are never cycled. -/
def execDomainCycle (page : Nat) (s : State) : Outcome State Fault Refusal :=
  done <| s.when (s.chip.softRst.contains page && s.on (PG_STATE_WEDGED page) && (pageDoms page).all (fun d => decide (d ≥ 3) && s.domOn d)) fun s =>
    let l := s.cycled page
    let s := s.modChip (fun c => { c with softRst := c.softRst.filter (fun x => !(l.contains (pageDom x))) })
    foldS l (fun s e => (foldS (domPages e) (fun s p => s.functionEnded p) (s.domReset e)).setDom e { phase := .falling, onPending := true }) s

/-- The accesses to a page that have not ended end with code 0x05 (R17). -/
def State.stallEnd (s : State) (page : Nat) : State :=
  let l := s.heldReads page ++ s.chip.stalled.filter (fun x => x.addr / 0x1000 == page)
  let s := s.modChip (fun c => { c with stalled := c.stalled.filter (fun x => x.addr / 0x1000 != page) })
  let s := s.when (page == 25) (·.modBrg (fun b => { b with fence := [] }))
  let s := s.when (page == 23) (·.modDma (fun d => { d with sync := [] }))
  foldS l (fun s x => s.rejectAcc x 5) s

/-- STALL_DETECT (R17, R146, R411): a stall detector of a page's block fires. -/
def execStallDetect (page : Nat) (s : State) : Outcome State Fault Refusal :=
  done <| s.when (decide (page < 39) && s.on (PG_STATE_DOMAIN_UP page) && !s.on (PG_STATE_WEDGED page)) fun s =>
    let s := ((s.flag (PG_STATE_WEDGED page) true).functionFault page).raise page 31
    let idx := [wIdx (PG_STATE_LIFE page), wIdx (PG_ERRCAP_CODE page)]
    let s := if 12 ≤ page ∧ page ≤ 15 then s.finalRecord 4 page (256 * page + 31) idx else s.sysRecord 4 page (256 * page + 31) idx
    (s.stallEnd page).when (page == 13) fun s =>
      foldS (((List.range 250).map (· + 6)).filter (fun c => s.ctxLife c != lifeOff)) (fun s c => s.ctxFaultAll c 4) s

/-! ## The final commit, brown-out, thermal shutdown and watchdog (R29–R33, R47, R330) -/

/-- WATCHDOG_EXPIRY (R30, R47): the count reaches zero: a warm reset, held behind a final commit. -/
def execWatchdogExpiry (s : State) : Outcome State Fault Refusal :=
  done <| s.when (s.on SYS_WDT_CTRL_EN && s.chip.d0Up) fun s =>
    if s.chip.finalRun then s.modChip (fun c => { c with wdtHeld := true }) else s.watchdogReset

/-- D3–D15 go off after a thermal shutdown (R31). -/
def State.thermalCut (s : State) : State :=
  (s.cutDomains upperDoms).modChip (fun c => { c with thermalWait := none })

/-- The status bytes of a response. -/
def mgmtErrs (resp : List Byte) : Nat := ((List.range (resp.length / 16)).filter (fun k => beNat ((resp.drop (16 * k + 1)).take 1) != 0)).length

/-- The run in progress has ended: its responses are returned. -/
def State.mgmtEnd (s : State) (r : MgmtRun) : State :=
  let s := s.modChip (fun c => { c with mgmt := c.mgmt.drop 1 })
  match r.uart with
  | none =>
    let s := (s.inc USBD_MGMT_RECS (r.resp.length / 16)).inc USBD_MGMT_ERR (mgmtErrs r.resp)
    (s.modUsb (fun u => { u with mgmtWait := true })).emit (.usbIn 1 r.resp)
  | some seq =>
    (s.modBoot (fun b => { b with uartLast := some (seq, 0x81 :: 0 :: r.resp) })).emit (.svcUart 0x81 seq (0 :: r.resp))

/-- The reset that SYS_RST asked for is made; where its write came as a management record, the response to it is sent first (R46). -/
def State.rstNow (s : State) : State :=
  (match s.chip.mgmt with
    | r :: _ => s.when (s.chip.rstHeld == some Path.service) (·.mgmtEnd r)
    | [] => s).warmReset

/-- A reset that SYS_RST asked for falls due: no final commit holds it (R30). -/
def State.rstReady (s : State) : Bool := s.chip.rstHeld.isSome && !s.chip.finalRun

/-- A reset that SYS_RST asked for is made, unless a final commit holds it (R30, R46). -/
def State.rstDue (s : State) : State := s.when s.rstReady (·.rstNow)

/-- FINAL_COMMIT_END (R30–R32): no chain runs, and the records of the commit enter the ring in their order; what waited for the commit
happens. -/
def execFinalCommitEnd (s : State) : Outcome State Fault Refusal :=
  done <| s.when (s.chip.finalRun && s.recd.run.isNone) fun s =>
    let l := s.recd.final.map (·.2)
    let s := foldS l (fun s r => s.enterRing r) { s with recd := { s.recd with final := [] } }
    let wdt := s.chip.wdtHeld
    let s := s.modChip (fun c => { c with finalRun := false, wdtHeld := false })
    let s := s.when s.chip.thermalWait.isSome (·.thermalCut)
    if wdt then s.watchdogReset else s.rstDue

/-- The step during which a brown-out falls: the present one, or that which failed in the same instant (R408). -/
def State.brownStep (s : State) : Nat :=
  match s.boot.failAt with
  | some (t, n) => if t = s.elapsed then n else s.step_
  | none => s.step_

/-- BROWNOUT (R330, R362, R408): VOR lies below BROWN_V while VBUS does not supply VHOLD, or VBUS, which alone supplies it (`byVbus`),
lies below 4.4 V; voltages in mV. -/
def execBrownout (vor vbus : Nat) (byVbus : Bool) (s : State) : Outcome State Fault Refusal :=
  done <| s.when (s.domOn 2 && s.chip.d0Up &&
      (if byVbus then decide (vbus < 4400) else decide (vor < 500 * s.rd BZL_OR_CTRL_BROWN_V))) fun s =>
    let s := (s.flag BZL_STATUS_BROWNOUT true).raise 3 5
    let s := s.finalRecord 2 0 0x0300
      [wIdx BZL_STATUS_BROWNOUT, wIdx BZL_FLT_CAUSE_FIRST, wIdx BZL_MON_V_VOR, wIdx BZL_MON_I_MA, wIdx PMB_VSTAT_VNOW]
    let n := s.brownStep
    s.vAbandon.when (decide (2 ≤ n ∧ n ≤ 7)) (fun s => (s.noteFail n 0x20).ledgerUpdate)

/-- THERMAL_SHUTDOWN (R29, R31): a sensor lies above 130 °C: the final commit starts, and D3–D15 go off when it ends, or after
100 µs. -/
def execThermalShutdown (s : State) : Outcome State Fault Refusal :=
  done <| s.when (decide (s.tj > 2080) && !s.chip.thermalOff && s.chip.d0Up) fun s =>
    let s := s.finalRecord 3 0 0x0500 ([wIdx THM_TJ_MAX_T] ++ (List.range 4).map (fun k => wIdx (THM_TJ k)))
    let s := (s.incSat THM_SHUT_CNT).flag THM_STATUS_SHUTDOWN_SEEN true
    s.modChip (fun c => { c with thermalOff := true, thermalWait := some (s.elapsed + 100000) })

/-- The 100 µs of a thermal shutdown have passed (R31). -/
def State.thermalDue (s : State) : State :=
  s.when (s.chip.thermalWait.any (fun t => decide (s.elapsed ≥ t))) (·.thermalCut)

/-- THERMAL_RESTART (R33): a start is requested after a thermal shutdown, with the hottest sensor (1/16 °C) below 115 °C: it proceeds
from B2. -/
def execThermalRestart (t : Int) (s : State) : Outcome State Fault Refusal :=
  done <| s.when (s.chip.thermalOff && s.chip.thermalWait.isNone && s.chip.d0Up && decide (t < 1840)) fun s =>
    ((s.modChip (fun c => { c with thermalOff := false })).enterStep 2).raise 5 2

/-! ## Entry into a power state (R350) -/

/-- STATE_ENTRY (R350, R358, R367): the conditions are checked; when all hold, the target is entered; in S5 every
block of D3–D15 loses its state, and the source machine starts again from FREE, so that TIME_VALID is 0 on exit (R175).  A wake event
of the same instant (`wake`, 0 none) starts the exit at once. -/
def execStateEntry (wake : Nat) (s : State) : Outcome State Fault Refusal :=
  done <| s.when s.pwr.entryPending fun s =>
    let t := s.rd PWR_PS_CTRL_TARGET
    let b := s.entryBlock t
    if b ≠ 0 then s.wr PWR_PS_STATUS_BLOCK b
    else
      ((s.enterState t).when (t == 5) (fun s => (foldS upperDoms (fun s d => s.domReset d) s).srcState stFree)).when (wake != 0)
        (·.wakeBy wake)

/-! ## Loss and return of D2 and D0 (R13, R391) -/

/-- LINE, AUX and VBUS all lie below their undervoltage thresholds: nothing supplies the bezel die (R13). -/
def State.unsupplied (s : State) : Bool :=
  let uv := 500 * s.rd BZL_OR_CTRL_UV
  decide (s.bzl.lineMv < uv ∧ s.bzl.auxMv < uv) && !s.on SVC_TC_STATUS_VBUS_OK

/-- D2_POWER_LOSS (R13, R324): LINE, AUX and VBUS are gone and VHOLD is spent: D2 and D0 lose power.  With VBAT, D1 keeps its state. -/
def execD2PowerLoss (vbat : Bool) (s : State) : Outcome State Fault Refusal :=
  done <| s.when s.unsupplied fun s =>
    let t := s.loseD0 vbat (if vbat then s.time.rtc else none)
    let d1 (a : Nat) : Nat := if a = SEC_TAMPER_CFG_ARM.addr ∨ a = SEC_TAMPER_LOG_FIRST.addr ∨ a = SEC_TAMPER_TIME.addr then allBits
      else if a = SEC_STATUS_TAMPER.addr then 8 else 0
    let t := { t with words := resetWords (fun a => if vbat then d1 a else 0) t.words, bzl := {}, svc := {} }
    let t := (t.setDom 0 { phase := .off }).setDom 2 { phase := .off }
    let t := foldS (List.range 39) (fun t p => t.setWord (PG_STATE_LIFE p).addr 0) t
    t.modChip (fun c => { c with d0Up := false })

/-- COLD_START (R7, R174, R391): power reaches D0 after it was lost, with D2 powered; `rtc` is the time of a valid RTC. -/
def execColdStart (rtc : Option Nat) (vbat : Bool) (s : State) : Outcome State Fault Refusal :=
  done (s.when (s.domOn 2) (·.coldStart vbat rtc))

end Sys2Proof.Machine
end

