-- ==== Sys2Proof/Machine/Tunnels.lean ====
section
/-!
DEFINITION. Tunnel contexts: their window and commit (R106–R109), the waits and timeouts of their life (R105, R110, R111,
R118, R122, R123), and the ACK, MGMT and cell arrivals of a link (`05_tunnels.md`).
-/

namespace Sys2Proof.Machine

open Host (Outcome)

/-! ## The window (R106, R107) -/

/-- Word `k` of a path's context window. -/
def winWord (p : Path) (k : Nat) : Fld := (TUN_WIN k).onPath p

/-- The context a path has selected. -/
def State.tunSel (s : State) (p : Path) : Nat := s.rd (TUN_SEL_CTX.onPath p)

/-- TUN_STATUS shows the last command and its context. -/
def State.tunLast (s : State) (p : Path) (cmd : Nat) : State :=
  (s.wr (TUN_STATUS_LAST_CTX.onPath p) (s.tunSel p)).wr (TUN_STATUS_LAST_CMD.onPath p) cmd

/-- The CARATS word of a context (W7). -/
def State.showCarats (s : State) (c : Nat) : State :=
  (s.wr (CTX_CARATS_A c) (s.caratsOf c 0)).wr (CTX_CARATS_B c) (s.caratsOf c 1)

/-- What LOAD does (R107). -/
def State.tunLoad (s : State) (p : Path) : State :=
  let c := s.tunSel p
  let s := s.showCarats c
  let s := foldS (List.range 32) (fun s k => s.wr (winWord p k) (s.word (0x200000 + 0x80 * c + 4 * k)).toNat) s
  s.tunLast p 1

/-- The command bit of TUN_LOAD (R107). -/
def cmdTunLoad (p : Path) : Cmd :=
  Cmd.mk TUN_CMD_LOAD okChk (·.tunLoad p)

/-- TUN_LOAD (R107). -/
def execTunLoad (p : Path) (s : State) : Outcome State Fault Refusal :=
  done <| s.runCmd p (cmdTunLoad p)

/-! ## Commit checks (R101, R102, R107, R442) -/

/-- The non-link points a type may name in a user context (*Tunnel types*). -/
def typePoints (t : Nat) : List Nat :=
  if t = 1 then [3, 11] else if t = 2 then [3, 4] else if t = 3 then [3, 4, 12] else if t = 4 then [5]
  else if t = 5 then [10] else if t = 6 then [3, 6, 7, 8, 9, 12] else if t = 7 then [11, 12, 13] else []

/-- The SUB values a context of a type may name at a point (R442, R200, R441). -/
def subOk (point sub typ : Nat) (egress crown : Bool) : Bool :=
  let kind := sub / 4096
  let idx := sub % 4096
  if point < 3 then sub == 0
  else if point = 3 then
    if kind = 4 then idx == 0 && !crown
    else crown && (if kind = 0 then idx ≤ 7 else if kind = 1 then 1 ≤ idx && idx ≤ 14
      else if kind = 2 then idx ≤ 15 else kind == 3 && idx ≤ 31)
  else if point = 4 then
    if kind = 0 then idx ≤ 3 && typ == 2
    else typ == 3 && (if kind = 1 ∨ kind = 2 then idx ≤ 3 else if kind = 3 then idx ≤ 1 else kind == 4 && idx == 0)
  else if point = 5 then sub == 0
  else if point ≤ 9 then sub == 0 || (sub == 0x1000 && (point == 6 || point == 8))
  else if point = 10 then (crown && 0x1001 ≤ sub && sub ≤ 0x100F) || sub == 0x2000 || (0x2002 ≤ sub && sub ≤ 0x2005)
  else if point = 11 then sub == 0
  else if point = 12 then sub ≤ 15 || (sub == 0x2000 && egress)
  else if point = 13 then sub ≤ (if egress then 7 else 15)
  else false

/-- Another context holds the pair in a word of the same direction, committed or pending (R102). -/
def State.pairHeld (s : State) (c : Nat) (egress : Bool) (port ltn : Nat) : Bool :=
  (List.range 256).any (fun x => x != c && s.holds x &&
    (if egress then [2, 3] else [0, 1]).any (fun w =>
      s.ptLink x w && s.rd (ptPoint x w) == port && (s.ltnOf x w == ltn || s.rd (ptLtn x w) == ltn)))

/-- The checks of word 2, MODE: the reasons that apply. -/
def State.modeReasons (s : State) (c m : Nat) : List Nat :=
  let typ := bitsOf m 3 0
  let twin := bitsOf m 10 9
  let running := s.ctxLife c != lifeOff
  (if typ = 0 ∨ (typ = 4 ∧ twin ≠ 0) then [1] else []) ++
  (if twin = 3 ∨ (twin ≠ 0 ∧ typeReliable typ) then [2] else []) ++
  (if running ∧ (typ ≠ s.rd (CTX_MODE_TYPE c) ∨ twin ≠ s.twin c) then [7] else []) ++
  (if typ ≥ 8 ∨ bitsOf m 12 11 = 3 ∨ (typeReliable typ ∧ bitsOf m 15 13 ≠ 0) then [9] else [])

/-- The checks of point word `w` (0 ING_A to 3 EGR_B): the reasons that apply. -/
def State.pointReasons (s : State) (c w typ twin : Nat) (pts : List Nat) : List Nat :=
  let x := pts[w]?.getD 0
  let old := (s.word (0x20000C + 0x80 * c + 4 * w)).toNat
  let v := bitsOf x 31 31
  let point := bitsOf x 27 24
  let ltn := bitsOf x 23 16
  let sub := bitsOf x 15 0
  let link := point < 3
  let running := s.ctxLife c != lifeOff
  let second := (w = 1 ∧ twin = 2) ∨ (w = 3 ∧ twin = 1)
  let first := (w = 0 ∧ twin = 2) ∨ (w = 2 ∧ twin = 1)
  let other := pts[w - 1]?.getD 0
  let changed := bitsOf old 31 31 ≠ v ∨ bitsOf old 27 24 ≠ point ∨ bitsOf old 15 0 ≠ sub
  (if v = 1 ∧ (point ≥ 14 ∨ (!link ∧ (ltn ≠ 0 ∨ !(typePoints typ).contains point)) ∨
      !subOk point sub typ (w ≥ 2) s.crown) then [1] else []) ++
  (if ((first ∨ second) ∧ (v = 0 ∨ !link)) ∨ (second ∧ bitsOf other 27 24 = point) ∨ (!second ∧ (w = 1 ∨ w = 3) ∧ v = 1) ∨
      (w = 2 ∧ twin = 2 ∧ (v = 0 ∨ link)) ∨ (w = 0 ∧ twin = 1 ∧ v = 0) then [2] else []) ++
  (if v = 1 ∧ link ∧ w < 2 ∧ s.pairHeld c false point ltn then [3] else []) ++
  (if v = 1 ∧ link ∧ w ≥ 2 ∧ s.pairHeld c true point ltn then [4] else []) ++
  (if v = 1 ∧ link ∧ (ltn = 0 ∨ ltn = 0xFF) then [5] else []) ++
  (if v = 1 ∧ link ∧ w < 2 ∧ s.quar.any (fun (q : Quar) => q.port == point && q.ltn == ltn && q.ctx != c) then [6] else []) ++
  (if running ∧ changed then [7] else []) ++
  (if running ∧ v = 1 ∧ link ∧ ltn ≠ bitsOf old 23 16 ∧ s.rweLocked point then [10] else [])

/-- The first failing word of the window and its lowest reason (R107), or none. -/
def State.commitCheck (s : State) (c : Nat) (w : List Nat) : Option (Nat × Nat) :=
  if c < 6 then some (0, 8)
  else
    let at_ (k : Nat) : Nat := w[k]?.getD 0
    let m := at_ 2
    let pts := [at_ 3, at_ 4, at_ 5, at_ 6]
    let rm := bitsOf (at_ 10) 12 0
    let st := bitsOf (at_ 11) 15 0
    let checks : List (Nat × List Nat) :=
      (2, s.modeReasons c m) ::
      (List.range 4).map (fun i => (3 + i, s.pointReasons c i (bitsOf m 3 0) (bitsOf m 10 9) pts)) ++
      [(8, if bitsOf (at_ 8) 31 16 = 0 ∨ bitsOf (at_ 8) 11 0 > 3840 then [9] else []),
       (10, (if s.ctxLife c ≠ lifeOff ∧ rm ≠ s.rd (CTX_REL_REPLAY_MAX c) then [7] else []) ++
            (if rm < 16 ∨ rm > 4096 then [9] else [])),
       (11, if st < 1 ∨ st > 8000 then [9] else [])]
    (checks.find? (fun e => !e.2.isEmpty)).map (fun e => (e.1, e.2.foldl min 15))

/-- The capture code of a reason (*Commit reasons*). -/
def commitCode (r : Nat) : Nat := if r = 8 then 2 else if r = 6 ∨ r = 7 ∨ r = 10 then 3 else 1

/-- The context has no frame partly received and none partly sent: the safe point of its RWP fields (R109). -/
def State.ctxSafe (s : State) (c : Nat) : Bool :=
  (s.ctx c).rx.isNone && !s.gird.queues.any (fun e => e.2.any (fun f => f.ctx == c && f.started))

/-- Pending RWP values of a context come into force at its safe point (R109). -/
def State.ctxRwp (s : State) (c : Nat) : State :=
  s.when (s.ctxSafe c) (·.applyFields [CTX_MODE_AGECLS c, CTX_MODE_FWD c, CTX_MODE_TC c])

/-- Apply every writable field of the window at one instant (R107, R108). -/
def State.commitApply (s : State) (c : Nat) (w : List Nat) : State :=
  let at_ (k : Nat) : Nat := w[k]?.getD 0
  let off := s.ctxLife c == lifeOff
  let m := at_ 2
  let wordAt (k : Nat) : Nat := 0x200000 + 0x80 * c + 4 * k
  let s := s.wr (CTX_CTRL_DISCARD c) (bitsOf (at_ 0) 1 1)
  let s := s.wr (CTX_CTRL_EN c) (bitsOf (at_ 0) 0 0)
  let s := s.setWord (wordAt 2) (BitVec.ofNat 32
    (bitsOf m 16 9 * 2 ^ 9 + bitN (typeReliable (bitsOf m 3 0)) * 2 ^ 8 + bitsOf m 6 0))
  let s := if off then s.applyFields [CTX_MODE_AGECLS c, CTX_MODE_FWD c, CTX_MODE_TC c] else s.ctxRwp c
  let s := foldS (List.range 4) (fun s i =>
    let x := at_ (3 + i)
    let s := s.setWord (wordAt (3 + i)) (BitVec.ofNat 32 (bitsOf x 31 31 * 2 ^ 31 + bitsOf x 27 0))
    -- an LTN change of a link point is held until the swap unless the context is OFF (R108)
    s.when (off || !s.ptLink c i) (fun s => s.wr (ptLtn c i).inForce (s.rd (ptLtn c i)))) s
  let s := s.setWord (wordAt 8) (BitVec.ofNat 32 (bitsOf (at_ 8) 31 16 * 2 ^ 16 + bitsOf (at_ 8) 11 0))
  let s := s.setWord (wordAt 9) (BitVec.ofNat 32 (bitsOf (at_ 9) 31 31 * 2 ^ 31 + bitsOf (at_ 9) 7 0))
  let s := s.setWord (wordAt 10) (BitVec.ofNat 32 (bitsOf (at_ 10) 12 0))
  let s := s.setWord (wordAt 11) (BitVec.ofNat 32 (bitsOf (at_ 11) 15 0))
  s.ctxWriteEn c (s.on (CTX_CTRL_EN c))

/-- What COMMIT does (R107): apply, or record the reason, COMMIT_REJ and the capture; the write itself completes. -/
def State.tunCommit (s : State) (p : Path) : State :=
  let c := s.tunSel p
  let w := (List.range 32).map (fun k => s.rd (winWord p k))
  let s := s.tunLast p 2
  match s.commitCheck c w with
  | none => (s.commitApply c w).wr (TUN_STATUS_REASON.onPath p) 0
  | some (k, r) =>
    ((s.wr (TUN_STATUS_REASON.onPath p) r).raise 15 1).capture 15 p (commitCode r) ((0x100 + 4 * k) / 4) (w[k]?.getD 0)

/-- The command bit of TUN_COMMIT (R107). -/
def cmdTunCommit (p : Path) : Cmd :=
  Cmd.mk TUN_CMD_COMMIT okChk (·.tunCommit p)

/-- TUN_COMMIT (R107). -/
def execTunCommit (p : Path) (s : State) : Outcome State Fault Refusal :=
  done <| s.runCmd p (cmdTunCommit p)

/-- What REBASE does (R122). -/
def State.tunRebase (s : State) (p : Path) : State :=
  let c := s.tunSel p
  (s.tunLast p 4).when (s.twin c == 2 && s.on (CTX_STATE_BASE c)) (·.dropBase c)

/-- The command bit of TUN_REBASE (R122). -/
def cmdTunRebase (p : Path) : Cmd :=
  Cmd.mk TUN_CMD_REBASE okChk (·.tunRebase p)

/-- TUN_REBASE (R122). -/
def execTunRebase (p : Path) (s : State) : Outcome State Fault Refusal :=
  done <| s.runCmd p (cmdTunRebase p)

/-- What CLR_CNT does: words 16–29 are cleared. -/
def State.tunClrCnt (s : State) (p : Path) : State :=
  let c := s.tunSel p
  foldS (List.range 14) (fun s k => s.setWord (0x200040 + 0x80 * c + 4 * k) 0) (s.tunLast p 8)

/-- The command bit of TUN_CLR_CNT (R107). -/
def cmdTunClrCnt (p : Path) : Cmd :=
  Cmd.mk TUN_CMD_CLR_CNT okChk (·.tunClrCnt p)

/-- TUN_CLR_CNT (R107). -/
def execTunClrCnt (p : Path) (s : State) : Outcome State Fault Refusal :=
  done <| s.runCmd p (cmdTunClrCnt p)

/-! ## Waits and timeouts -/

/-- QUARANTINE_END (R105): four cycles after a context reached OFF its pair leaves quarantine; a start that waited for it
goes on (R110). -/
def execQuarantineEnd (port ltn : Nat) (s : State) : Outcome State Fault Refusal :=
  done <|
    let due (q : Quar) : Bool := q.port == port && q.ltn == ltn && cycGe s.cycle q.upTo
    s.when (s.quar.any due) fun s =>
      let s := { s with quar := s.quar.filter (fun q => !due q) }
      foldS (List.range 256) (fun s c => s.when (s.ctxLife c == lifeStarting) (·.encCheck c)) s

/-- TWIN_SPLIT_WAIT_END (R110 step 4): the 9-cycle wait of a starting split ends; it began when steps 1–3 had been passed. -/
def execTwinSplitWaitEnd (c : Nat) (s : State) : Outcome State Fault Refusal :=
  done <| s.when (s.ctxLife c == lifeStarting && s.twin c == 1 && (s.ctx c).splitFrom.any (fun x => cycGe s.cycle (cycAdd x 9))) fun s =>
    s.modCtx c (fun t => { t with splitDone := true })

/-- STOP_DRAIN_TIMEOUT (R111 step 2): what was not sent within STOP_TO cycles is treated as under DISCARD = 1. -/
def execStopDrainTimeout (c : Nat) (s : State) : Outcome State Fault Refusal :=
  done <| s.when (s.ctxLife c == lifeStopping && !(s.ctx c).drained &&
      cycGe s.cycle (cycAdd (s.ctx c).since (s.rd (CTX_STOP_STOP_TO c)))) (·.ctxDiscard c)

/-- MERGE_BASE_TIMEOUT (R122): a merge with no delivery for 8 cycles drops its base. -/
def execMergeBaseTimeout (c : Nat) (s : State) : Outcome State Fault Refusal :=
  done <| s.when (s.ctxLife c == lifeOn && s.twin c == 2 && s.on (CTX_STATE_BASE c) &&
      cycGe s.cycle (cycAdd (s.ctx c).lastRx 8)) (·.dropBase c)

/-- OPEN_FRAME_TIMEOUT (R123): a frame left open for 8 cycles at an unreliable end is ended with an INC tail. -/
def execOpenFrameTimeout (c : Nat) (s : State) : Outcome State Fault Refusal :=
  done <| s.when (s.ctxLife c == lifeOn && s.isEnd c && !s.reliable c && s.twin c != 2 && (s.ctx c).rx.isSome &&
      cycGe s.cycle (cycAdd (s.ctx c).lastRx 8)) (·.closeRx c)

/-- CM_HOLD_EXPIRY (R118): eight cycles after the last marked entry the hold ends. -/
def execCmHoldExpiry (c : Nat) (s : State) : Outcome State Fault Refusal :=
  done <| s.when (s.on (CTX_STATE_CM_HOLD c) && !(s.ctx c).holdDue && cycLater s.cycle (s.ctx c).holdEnd)
    (·.flag (CTX_STATE_CM_HOLD c) false)

/-! ## ACK entries (R104, R116–R118) -/

/-- An entry at the origin of its tunnel: RESYNC goes to a start, an acknowledgement frees kept cells, and marks start
or restart a hold at the next boundary. -/
def State.originEntry (s : State) (c : Nat) (e : AckEntry) : State :=
  let life := s.ctxLife c
  let s := s.when (e.resync && life == lifeStarting && s.reliable c) (fun s => s.modCtx c (fun t => { t with resynced := true }))
  let s := s.when (e.seqValid && s.reliable c && (life == lifeOn || life == lifeStopping)) (fun s =>
    let (s, n) := s.freeAcked c e.ackSeq
    s.when (n != 0) (fun s => (s.wr (CTX_ACKST_ACKED c) e.ackSeq).wr (CTX_RETRY_RETRIES c) 0))
  s.when (e.cmCount != 0 && (life == lifeOn || life == lifeStopping)) (fun s => s.modCtx c (fun t => { t with holdDue := true }))

/-- One ACK entry that arrives on a link port (R104, R117, R118). -/
def State.ackEntry (s : State) (n : Nat) (e : AckEntry) : State :=
  match s.ctxByTx n e.ltn with
  | none => s.noCtx n
  | some (c, _) =>
    let life := s.ctxLife c
    let s := s.when (e.cmCount != 0 && life != lifeFault) (·.inc (CTX_CM_ENTRIES c))
    if s.isOrigin c then s.originEntry c e
    -- ACK_RELAY: a transit relays the entry on its ingress link under the incoming LTN
    else s.when (life == lifeOn && s.ptLink c 0) (fun s => s.relayAck (s.rd (ptPoint c 0)) { e with ltn := s.ltnOf c 0 })

/-- ACK_MSG (R117). -/
def execAckMsg (n : Nat) (entries : List AckEntry) (s : State) : Outcome State Fault Refusal :=
  done <| s.when (s.native n) (foldS entries (fun s e => s.ackEntry n e))

/-! ## Cells from a link -/

/-- MGMT_MSG (R83, R146): the unit is a one-cell frame of the management tunnel; a wedged girdle discards it uncounted.  What engine 5 reads
in it about the tree takes effect at the next cycle boundary (R25). -/
def execMgmtMsg (n seq : Nat) (m : MgmtFrame) (s : State) : Outcome State Fault Refusal :=
  done <| s.when (s.native n && 1 ≤ m.data.length && m.data.length ≤ 28 && !s.on (PG_STATE_WEDGED 13)) fun s =>
    (s.modChip (fun c => { c with news := c.news.plus m.news })).ctxReceive n (2 * n) 0
      { ltn := 0, tc := 3, fs := true, ls := true, fill := m.data.length - 1, seq := seq % 65536, age := ageOf s.now,
        payload := pad128 m.data }
      none

/-- What becomes of a cell, given what opening it answers: the opened cell, if it is valid, and whether its key select is wrong. -/
def State.cellOpened (s : State) (n slot cycno : Nat) (cell : Cell) (trailer : Nat) (r : Option Cell) (selErr : Bool) : State :=
  match r with
  | none =>
    let late := s.verifiesNext n slot cycno cell.keysel (beBytes 8 (cellHeader cell)) (pad128 cell.payload) trailer
    let s := s.when late (fun s => s.modLk n (fun k => { k with lateDue := true }))
    (s.when selErr (·.inc (SEC_KEYSEL_ERR n))).inc (CYC_CELL_BAD n)
  | some c =>
    let s := s.slotValid n cycno
    if c.ltn = 0xFF ∨ s.on (PG_STATE_WEDGED 13) then s
    else match s.ctxByRx n c.ltn with
      | none => s.noCtx n
      | some (x, w) => s.ctxReceive n x w c (if s.on (LNK_STATUS_MODE1040 n) then some (n, c.tc) else none)

/-- CELL_RECEIVED (R57, R80, R104, R144, R146): a data slot, or in 1040 mode a unit, is checked and its cell handed to the
context that holds its LTN.  `voided` says that an uncorrectable pair touched the slot. -/
def execCellReceived (n slot cycno : Nat) (cell : Cell) (trailer : Nat) (voided : Bool) (corr uncorr syncErr : Nat)
    (s : State) : Outcome State Fault Refusal :=
  done <| s.when (s.active n) fun s =>
    let s := (s.fecCount n corr uncorr).inc (LNK_SYNC_ERR n) syncErr
    if voided then s.inc (LNK_CELLS_VOID n)
    else
      let r := s.openCell n slot cycno cell trailer
      s.cellOpened n slot cycno cell trailer r.1 r.2

end Sys2Proof.Machine
end

