-- ==== Sys2Proof/Machine/Writes.lean ====
section
/-!
DEFINITION. A write of any register word (R2–R6, R9, R10, R35–R37, R443): which writes are rejected, the command bits of every word,
what is stored, and what a stored value brings about at once.
-/

namespace Sys2Proof.Machine

open Host (Outcome)

/-! ## The common page header (R38–R41) -/

/-- The bits of PG_ISR that a page defines: WEDGED, LIFE, ERR and its own. -/
def isrMask (page : Nat) : Nat :=
  let own : Nat :=
    if page = 0 then 0
    else if page = 2 ∨ page = 11 ∨ page = 12 ∨ page = 14 ∨ page = 27 then 4
    else if page = 3 ∨ page = 4 then 9
    else if page = 8 ∨ page = 9 ∨ page = 19 ∨ page = 20 ∨ page = 21 ∨ page = 28 ∨ page = 30 then 6
    else if page = 13 ∨ page = 16 ∨ page = 17 ∨ page = 18 ∨ page = 29 then 7
    else if page = 35 ∨ page = 36 ∨ page = 37 then 2
    else if page = 1 ∨ page = 6 ∨ page = 7 ∨ page = 10 ∨ page = 22 ∨ page = 25 then 5
    else 3
  0xE0000000 + (2 ^ own - 1)

/-- The bits that a write of `v` clears in a word of W1C bits: not those that an event of the same instant has set (R3). -/
def State.clears (s : State) (a v : Nat) : Word := BitVec.ofNat 32 v &&& ~~~(BitVec.ofNat 32 (s.keptBits a))

/-- A write of 1 to ERR clears the capture; the first rejection of the same instant stays captured (R36). -/
def State.clearCapture (s : State) (page : Nat) : State :=
  match tget? s.instant.rejects page with
  | some (code, path, word, data) => s.putCapture page code path word data
  | none => s.putCapture page 0 0 0 0

/-- A write of PG_ISR clears bits; ERR clears the capture (R36); a summary bit that stays 1 sends the vector again (R41). -/
def State.isrWritten (s : State) (page v : Nat) : State :=
  let a := (PG_ISR page).addr
  let t := (s.setInt page a (s.word a &&& ~~~(s.clears a v))).when (v.testBit 29) (·.clearCapture page)
  t.when (s.summary page && t.summary page) (·.sendMsix page)

/-- A write of a header word of an existing page. -/
def State.headerWritten (s : State) (page off v : Nat) : State :=
  if off = 8 then
    if v.testBit 1 then s.softRstWrite page false else if v.testBit 0 then s.enable page else s.disable page
  else if off = 0x10 then s.isrWritten page v
  else if off = 0x14 then s.setInt page (PG_IER page).addr (BitVec.ofNat 32 (v &&& isrMask page))
  else s.setIsr page (v &&& isrMask page)

/-- The header words that take writes: PG_CTRL, PG_ISR, PG_IER and PG_IFR. -/
def headerRw (off : Nat) : Bool := off == 8 || off == 0x10 || off == 0x14 || off == 0x18

/-! ## Command bits (R443) -/

/-- Every command bit of the word at `a`, in ascending bit order; `v` is the word written. -/
def wordCmds (p : Path) (a v : Nat) : List Cmd :=
  let o := a % 0x1000
  let page := a / 0x1000
  if page = 2 then if o = 0x8C then [cmdRsCommit p, cmdRsLoad] else []
  else if page = 3 then if o = 0x48 then [cmdHsOff, cmdHsOn, cmdHsClear] else []
  else if page = 4 then
    if o = 0x48 then [cmdHardReset p, cmdCableReset p]
    else if o = 0x50 then
      [Cmd.mk SVC_TX_CTRL_SEND (fun s => if s.rd SVC_TX_STATUS_RESULT = 1 then 3 else 0) (·.pdSend)]
    else if o = 0xC4 then [cmdVbClear p] else []
  else if page = 6 then if o = 0x74 then [cmdStepCmdSet] else []
  else if page = 7 then if 0x100 ≤ o ∧ o < 0x180 ∧ o % 16 = 0 then [cmdFoutArm ((o - 0x100) / 16)] else []
  else if page = 8 then if o = 0x58 then [cmdRecFlush, cmdRecClear, cmdRecFire (bitsOf v 13 8)] else []
  else if page = 9 then
    if o = 0x58 then [cmdKsLoadNext, cmdKsSwitch, cmdKsErase, cmdKsEraseAll]
    else if o = 0xC0 then [cmdLinkRotate 0, cmdLinkRotate 1, cmdLinkRotate 2]
    else if o = 0x134 then [cmdMrExtGo]
    else if o = 0x160 then [cmdAttGo]
    else if o = 0x190 then [cmdAuthSubmit, cmdAuthClose]
    else if o = 0x1A0 then [cmdOtpProgram] else []
  else if page = 10 then
    if o = 0x48 then [Cmd.mk BOOT_LEDGER_CMD_RESET_ALT okChk (·.resetAlt (v % 32)), cmdClrCnt]
    else if o = 0x70 then [cmdRbAdvance]
    else if o = 0x74 then [cmdLoaderEnter]
    else if o = 0x88 then [cmdCfgErase, cmdCfgCommit] else []
  else if page = 11 then
    if 0x100 ≤ o ∧ o < 0x200 then
      let e := (o - 0x100) / 16
      if o % 16 = 0 then [cmdEngRestart e] else if o % 16 = 8 then [cmdMbxRing e, cmdMbxAck e] else []
    else []
  else if page = 12 then
    if o = 0x4C then [cmdProgCommit p, cmdProgDisable p, cmdProgClrCnt p]
    else if o = 0x150 then [cmdTblLoad p, cmdTblCommit p] else []
  else if page = 14 then
    if o = 0xC4 then [cmdMtrLoad p, cmdMtrCommit p, cmdMtrClrCnt p]
    else if 0x200 ≤ o ∧ o < 0x2E0 ∧ o % 32 = 0 then [cmdCfgChange ((o - 0x200) / 32)] else []
  else if page = 15 then if o = 0x44 then [cmdTunLoad p, cmdTunCommit p, cmdTunRebase p, cmdTunClrCnt p] else []
  else if 16 ≤ page ∧ page ≤ 18 then
    if o = 0x40 then [cmdLinkRetrain (page - 16)] else if o = 0x5C then [cmdSwapReq (page - 16)] else []
  else if 19 ≤ page ∧ page ≤ 21 then
    if o = 0x48 then [cmdEpochReq (page - 19), cmdEpochWithdraw (page - 19), cmdEpochCheck (page - 19)] else []
  else if page = 22 then if o = 0x40 then [cmdPcieRetrain] else []
  else if page = 23 then if o = 0x84 then [cmdInvGo] else []
  else if page = 28 then
    if o = 0x4C then [cmdCameoCommit] else if o = 0x58 then [cmdDpaltIrqHpd] else []
  else if page = 36 then if o = 0x48 then [cmdStnLoad p, cmdStnCommit p, cmdStnClrCnt p] else []
  else []

/-- The commands that a write of `v` gives. -/
def cmdsOf (p : Path) (a v : Nat) : List Cmd := (wordCmds p a v).filter (fun c => bitsOf v c.fld.hi c.fld.lo != 0)

/-- The code of the lowest-numbered command that fails its check against the state before the write, or 0. -/
def State.cmdsCode (s : State) (l : List Cmd) : Nat := ((l.map (fun c => c.chk s)).find? (· != 0)).getD 0

/-! ## Which writes are rejected (R5, R9, R10) -/

/-- An entry of a shadow carat table that is read-only: LTN 0x00 and LTN 0xFF. -/
def caratFixed (a : Nat) (r : AccRow) : Bool :=
  let o := a % 0x1000
  19 ≤ a / 0x1000 && a / 0x1000 ≤ 21 &&
    (((o == 0x200 || o == 0x600) && r.lo == 0) || ((o == 0x3FC || o == 0x7FC) && r.lo == 16))

/-- The fields of the word that take writes. -/
def writableRows (a : Nat) : List AccRow := (rowsAt a).filter (fun r => r.ty != .ro && !caratFixed a r)

/-- The field's part of `v` fails its range check (R10). -/
def AccRow.bad (r : AccRow) (v : Nat) : Bool :=
  let x := bitsOf v r.hi r.lo
  decide (x < r.min ∨ x > r.max) || x % r.mul != 0

/-- The value of a writable field after the write. -/
def newVal (v : Nat) (f : Fld) : Nat := bitsOf v f.hi f.lo

/-- Checks of REC.TRG_CTRL: sources that do not exist. -/
def trgBad (v : Nat) : Bool :=
  let a := bitsOf v 15 8
  let b := bitsOf v 7 0
  (bitsOf v 30 29 == 0 && (a == 8 || decide (a > 63 ∨ b > 31))) || (bitsOf v 30 29 == 1 && decide (a > 15 ∨ b > 2))

/-- The word belongs to an admin list: which one, and whether a write changes it (R166). -/
def State.adminChange (s : State) (o v : Nat) : Option Nat :=
  if 0x200 ≤ o ∧ o < 0x2E0 then
    let l := (o - 0x200) / 32
    if o % 32 = 0 then (if bitsOf v 6 0 = s.rd (SCH_GCL_CTRL_ADMIN_LEN l) then none else some l) else some l
  else if 0x400 ≤ o ∧ o < 0xB00 then some ((o - 0x400) / 0x100)
  else none

/-- Checks of an LPB window word while and before the window is enabled (R206, R207). -/
def State.lpbCode (s : State) (o v : Nat) : Nat :=
  let w := (o - 0x100) / 16
  let r := o % 16
  if s.on (LPB_W_ATTR_EN w) then (if r = 8 ∧ !v.testBit 31 then (if v.testBit 30 ∧ v.testBit 29 then 1 else 0) else 3)
  else if r = 8 then
    let size := 2 ^ bitsOf v 20 16
    if v.testBit 30 ∧ v.testBit 29 then 1
    else if v.testBit 31 ∧ ((s.rd (LPB_W_BASE_OFFSET w) * 4096) % size ≠ 0 ∨ (s.rd (LPB_W_FAR_ADDR w) * 4096) % size ≠ 0) then 1
    else 0
  else 0

/-- Checks of a CYC word: the shadow plans are locked while a change is in flight (R98), and an enabled window has a length. -/
def State.cycCode (s : State) (n o v : Nat) : Nat :=
  let w := (o - 0x100) / 8
  if ((0x100 ≤ o ∧ o < 0x180) ∨ (0x200 ≤ o ∧ o < 0x400) ∨ (0x600 ≤ o ∧ o < 0x800)) ∧ s.epochInFlight n then 3
  else if 0x100 ≤ o ∧ o < 0x180 then
    if o % 8 = 0 then (if s.on (CYC_WIN_B_EN n w) ∧ bitsOf v 27 16 = 0 then 1 else 0)
    else if v.testBit 31 ∧ s.rd (CYC_WIN_A_LEN n w) = 0 then 1 else 0
  else 0

/-- Checks of a SVC word (R332, R338, R347). -/
def State.svcCode (s : State) (p : Path) (o v : Nat) : Nat :=
  if o = 0xC0 then (if s.ovpBad (bitsOf v 7 0) then 1 else 0)
  else if o = 0x40 ∧ v.testBit 26 ∧ s.on SVC_TC_STATUS_DEAD_BATT then 3
  else if o = 0xC4 ∧ v.testBit 1 ∧ s.on SVC_TC_STATUS_DEAD_BATT then 3
  else if o = 0x40 ∨ o = 0x48 ∨ o = 0x50 ∨ (0x60 ≤ o ∧ o < 0x80) ∨ o = 0xC4 ∨ o = 0xD0 then s.policyChk p
  else 0

/-- A PTP port's configuration lies outside the ranges of *PTP support*: the three intervals −4 to 4, announceReceiptTimeout 2–10. -/
def ptpPortBad (v : Nat) : Bool :=
  let log (hi : Nat) : Bool := decide (4 < bitsOf v hi (hi - 3) ∧ bitsOf v hi (hi - 3) < 12)
  log 15 || log 11 || log 7 || decide (bitsOf v 23 20 < 2 ∨ bitsOf v 23 20 > 10)

/-- Checks of a DMA word (R223, R233). -/
def State.dmaCode (s : State) (p : Path) (o v : Nat) : Nat :=
  if o = 0x48 then
    if v % 2 ≠ s.rd DMA_NIC_CTRL_EN ∧ (List.range 16).any (fun c => s.rd (DMA_CH_STATE_LIFE (16 + c)) != lifeOff) then 3 else 0
  else if 0x100 ≤ o ∧ o < 0x900 then
    let c := (o - 0x100) / 64
    if chanChk p c s ≠ 0 then 3
    else if 0x18000 + o = (DMA_TAIL c).addr ∧ newVal v (DMA_TAIL c) ≥ s.chSize c then 1
    else 0
  else 0

/-- The checks that tie a written value to other fields or to the state of its block: the code of a rejection, or 0. -/
def State.tiedCode (s : State) (p : Path) (a v : Nat) : Nat :=
  let o := a % 0x1000
  let page := a / 0x1000
  if page = 0 then
    if a = SYS_WDT_CTRL_EN.addr then (if s.on SYS_WDT_CTRL_EN ∧ !v.testBit 31 then 3 else 0)
    else if a = SYS_WDT_KICK.addr then (if v = 0xC3C3 then 0 else 1)
    else if a = SYS_RST_KEY.addr then (if v % 2 ^ 17 = 0x15A5A then 0 else 1)
    else if 0xC0 ≤ o ∧ o < 0xD0 then (if bitsOf v 3 0 = 0 ∨ bitsOf v 3 0 = 15 then 1 else 0)
    else 0
  else if page = 1 then if a = PWR_VMIN_DECL.addr then s.vminChk (v % 64) else 0
  else if page = 2 then if a = PMB_VREQ.addr then s.vreqChk (v % 64) else 0
  else if page = 3 then
    if a = BZL_OR_CTRL_OV.addr then (if bitsOf v 23 16 + 10 > bitsOf v 31 24 then 1 else 0) else 0
  else if page = 4 then s.svcCode p o v
  else if page = 5 then if a = THM_CFG_HOT.addr then (if bitsOf v 7 0 > bitsOf v 15 8 then 1 else 0) else 0
  else if page = 6 then
    if a = TIME_THRESH_LOCK_THR.addr then (if bitsOf v 15 0 > bitsOf v 31 16 then 1 else 0) else 0
  else if page = 7 then
    if 0x100 ≤ o ∧ o < 0x180 ∧ o % 16 ≠ 0 ∧ s.rd (EVI_FOUT_CTRL_MODE ((o - 0x100) / 16)) = 4 then 3 else 0
  else if page = 8 then if 0x100 ≤ o ∧ o < 0x900 ∧ o % 32 = 0 ∧ trgBad v then 1 else 0
  else if page = 9 then
    if a = SEC_TAMPER_CFG_ARM.addr then (if s.disarms v ∧ (s.authFor 2).isNone then 6 else 0) else 0
  else if page = 11 then if 0x800 ≤ o ∧ s.on (FAC_DB_BUSY ((o - 0x800) / 128)) then 3 else 0
  else if page = 12 then
    if a = SIEVE_IMEM_DATA.addr ∧ s.imemUsed (s.rd SIEVE_IMEM_ADDR_ADDR) then 3 else 0
  else if page = 13 then
    if 0x200 ≤ o ∧ o < 0x600 then
      let q := (o - 0x200) / 8
      if o % 8 = 0 then
        if s.rsvSum - s.rd (GRD_QCFG_A_RSV q) + bitsOf v 11 0 > 122880 ∨ s.rd (GRD_QCFG_B_MAX q) < bitsOf v 11 0 then 1 else 0
      else if bitsOf v 17 0 < s.rd (GRD_QCFG_A_RSV q) then 1 else 0
    else 0
  else if page = 14 then
    match s.adminChange o v with
    | some l => if s.on (SCH_GCL_CTRL_CFG_PENDING l) then 3 else 0
    | none => 0
  else if 19 ≤ page ∧ page ≤ 21 then s.cycCode (page - 19) o v
  else if page = 23 then
    if a = ATU_FQ_CTRL_EN.addr then (if s.on ATU_FQ_CTRL_EN ∧ bitsOf v 3 0 ≠ s.rd ATU_FQ_CTRL_LOG2 then 3 else 0)
    else if a = ATU_RESUME_CHAN.addr then resumeChk (v % 32) s
    else 0
  else if page = 24 then s.dmaCode p o v
  else if page = 25 then if 0x100 ≤ o ∧ o < 0x180 then s.lpbCode o v else 0
  else if page = 28 then
    if a = DPO_DPALT_CTRL_ENTERED.addr ∧ v.testBit 0 ∧ !s.on SVC_TC_STATUS_ATTACHED then 3 else 0
  else if page = 30 then if 0x80 ≤ o ∧ o < 0xC0 ∧ bitsOf v 2 0 = 1 then 1 else 0
  else if page = 35 then
    if o = 0x40 ∨ o = 0x44 then
      let x := (o - 0x40) / 4
      if v % 4 ≠ 0 ∧ s.rd (ETH_CTRL_MODE (2 * x)) ≠ s.rd (ETH_CTRL_MODE (2 * x + 1)) then 1 else 0
    else 0
  else if page = 36 then
    if 0x400 ≤ o ∧ o < 0x600 ∧ s.winPub p ∧ s.on ⟨0x240000 + 0x80 * s.rd (STN_PUB_SEL.onPath p), 0, 0⟩ then 3 else 0
  else if page = 37 then if 0x50 ≤ o ∧ o < 0x60 ∧ ptpPortBad v then 1 else 0
  else 0

/-- The code with which a write of a defined word is rejected, or 0. -/
def State.writeCode (s : State) (p : Path) (a v : Nat) : Nat :=
  let rows := writableRows a
  if s.absentWord a then 3
  else if rows.isEmpty then 2
  else if rows.any (fun r => r.bad v) then 1
  else if rows.any (fun r => r.ty == .rwe) && s.rweLocked (a % 0x1000 / 4 - 16) then 3
  else if s.tiedCode p a v ≠ 0 then s.tiedCode p a v
  else s.cmdsCode (cmdsOf p a v)

/-! ## What is stored -/

/-- The bits of the word that a write replaces. -/
def storeMask (a : Nat) : Nat :=
  ((writableRows a).filter (fun r => r.ty == .rw || r.ty == .rws || r.ty == .rwe || r.ty == .rwp)).foldl (fun m r => m ||| r.mask) 0

/-- The words that hold no value of their own: data ports and semaphores. -/
def dataPort (a : Nat) : Bool :=
  a == SIEVE_IMEM_DATA.addr || a == PMB_RS_DATA.addr || a == SEC_OTP_DATA.addr || (0x100 ≤ a && a < 0x180)

/-- The words of the write-only data registers, which a command uses later. -/
def hiddenData (a : Nat) : Bool :=
  ((SEC_KS_DATA 0).addr ≤ a && a < (SEC_KS_DATA 21).addr) || ((SEC_MR_EXT_DATA 0).addr ≤ a && a < (SEC_MR_EXT_DATA 12).addr)

/-- Store a written word: writable bits are replaced, W1C bits cleared (R3), write-only data kept out of sight. -/
def State.storeWord (s : State) (p : Path) (a v : Nat) : State :=
  if dataPort a then s
  else if hiddenData a then s.setWord (a + 0x100000) (BitVec.ofNat 32 v)
  else
    let b := pathAddr p a
    let old := s.word b
    let m := BitVec.ofNat 32 (storeMask a)
    let c := BitVec.ofNat 32 (typeMask a (fun t => t == .w1c))
    let w := BitVec.ofNat 32 v
    let clr := c &&& s.clears b v
    let keep := if a = THM_STATUS_SHUTDOWN_SEEN.addr then old &&& w &&& m else w &&& m
    s.setWord b ((old &&& ~~~m &&& ~~~clr) ||| keep)

/-! ## What a stored value brings about at once -/

/-- A semaphore is released by a write of 0 (R44).  DESIGN CHOICE (log entries 14 and 113): a write of 1 changes nothing, and IF reads 0
while HELD is 0. -/
def State.semWritten (s : State) (n v : Nat) : State :=
  s.when (v % 2 == 0) (fun s => (s.flag (SYS_SEM_HELD n) false).wr (SYS_SEM_IF n) 0)

/-- The watchdog count restarts from PERIOD_MS (R47). -/
def State.wdtStart (s : State) : State := s.modChip (fun c => { c with wdtEnd := s.elapsed + s.rd SYS_WDT_CTRL_PERIOD_MS * 1000000 })

/-- The settings of an event input changed: INVERT acts on RAW, and an input that becomes enabled starts from its level (R190). -/
def State.eviWritten (s old : State) (i : Nat) : State :=
  let s := s.when (s.on (EVI_CFG_INVERT i) != old.on (EVI_CFG_INVERT i)) (fun s => s.setBit EVI_LEVEL_RAW i (!s.bit EVI_LEVEL_RAW i))
  let s := s.when (s.on (EVI_CFG_EN i) && !old.on (EVI_CFG_EN i)) fun s =>
    (s.setBit EVI_LEVEL_ACC i (s.bit EVI_LEVEL_RAW i)).modIn i (fun _ => {})
  s.eviHold

/-- TC_CTRL was written: mode of an unattached port, data role, power role (R333, R344, R345). -/
def State.tcWritten (s old : State) : State :=
  let s := s.when (!s.on SVC_TC_STATUS_ATTACHED && s.rd SVC_TC_CTRL_MODE != old.rd SVC_TC_CTRL_MODE) (fun s => s.wr SVC_TC_STATUS_STATE s.tcIdle)
  let s := s.when (s.on SVC_TC_STATUS_ATTACHED && s.on SVC_TC_CTRL_DATA_ROLE != s.on SVC_TC_STATUS_DATA_ROLE)
    (fun s => s.setDataRole (s.on SVC_TC_CTRL_DATA_ROLE))
  (s.when (s.on SVC_TC_CTRL_PWR_ROLE != old.on SVC_TC_CTRL_PWR_ROLE) (·.pwrRoleWritten)).ccShow

/-- What the write of `v` to the word does beside storing it; `old` is the state before the write. -/
def State.wordWritten (s old : State) (p : Path) (a v : Nat) : State :=
  let o := a % 0x1000
  let page := a / 0x1000
  if page = 0 then
    if o = 0x48 then s.intReport old
    else if o = 0x6C then s.when (s.on SYS_WDT_CTRL_EN && !old.on SYS_WDT_CTRL_EN) (·.wdtStart)
    else if o = 0x70 then s.when (s.on SYS_WDT_CTRL_EN) (·.wdtStart)
    else if o = 0x68 then s.modChip (fun c => { c with rstHeld := some p })
    else if 0x100 ≤ o ∧ o < 0x180 then s.semWritten ((o - 0x100) / 4) v
    else s
  else if page = 1 then if a = PWR_PS_CTRL_TARGET.addr then s.targetWritten (bitsOf v 2 0) else s
  else if page = 2 then
    if a = PMB_VREQ.addr then s.vRequest (v % 64)
    else if a = PMB_RS_DATA.addr then
      (s.modPwr (fun q => { q with rsWin := tset q.rsWin (s.rd PMB_RS_ADDR) (v % 2 ^ 32) })).rsNext
    else s
  else if page = 3 then
    if a = BZL_HS_CFG0_ILIM.addr ∨ a = BZL_HS_CFG1_PLIM.addr then s.limitCheck
    else if a = BZL_FEED_CTRL_EN.addr then s.feedEnWritten
    else if a = BZL_OR_CTRL_OV.addr then s.orUpdate
    else s
  else if page = 4 then
    if o = 0x40 then s.tcWritten old
    else if o = 0x48 then s.ccShow
    else if o = 0x50 then s.when (!v.testBit 4) (·.sinkOk)
    else if o = 0xC0 then s.vbProtect
    else if o = 0xC4 ∨ o = 0xD0 then s.svcUpdate
    else s
  else if page = 6 then
    if a = TIME_SRC_CTRL_SRC.addr then s.srcWritten old else if a = TIME_HOLD_HOLD_MAX.addr then s.showTimeValid else s
  else if page = 7 then
    if 0x80 ≤ o ∧ o < 0xC0 then s.eviWritten old ((o - 0x80) / 4)
    else if 0x100 ≤ o ∧ o < 0x180 then s.foutWritten ((o - 0x100) / 16)
    else s
  else if page = 26 then s.when (0x70 ≤ o && decide (o < 0x7C)) (·.gpioOut)
  else if page = 9 then
    if a = SEC_OTP_DATA.addr then
      (s.modSec (fun t => { t with otpStage := t.otpStage ++ [(s.rd SEC_OTP_ADDR, v % 2 ^ 32)] })).inc SEC_OTP_ADDR
    else s
  else if page = 10 then
    if a = BOOT_CFG_DATA.addr then s.cfgProgram v
    else if a = BOOT_LEDGER_CFG_THRESH.addr then s.setFlags (s.rd BOOT_LEDGER_LAST_FLAGS % 16 + 16 * s.rd BOOT_LEDGER_CFG_THRESH)
    else s
  else if page = 12 then
    if a = SIEVE_IMEM_DATA.addr then
      let i := s.rd SIEVE_IMEM_ADDR_ADDR
      let x := v % 2 ^ 32
      (s.modFac (fun t => { t with imem := if x = 0 then tdel t.imem i else tset t.imem i x })).imemNext
    else s
  else if page = 13 then if a = GRD_POOL_CM_CM_FREE.addr then s.notePool.when (s.poolIsLow && !old.poolIsLow) (·.raise 13 0) else s
  else if 19 ≤ page ∧ page ≤ 21 then
    let n := page - 19
    let table := decide ((0x200 ≤ o ∧ o < 0x400) ∨ (0x600 ≤ o ∧ o < 0x800))
    (s.when (table || decide (0x100 ≤ o ∧ o < 0x180)) (fun s =>
      (s.flag (CYC_EPOCH_STATUS_CHECK_VALID n) false).flag (CYC_PLACE_STATUS_VALID n) false)).when table (·.showDigests n)
  else if page = 23 then
    if a = ATU_RESUME_CHAN.addr then s.resumeAct (v % 32) (bitsOf v 9 8) else s
  else if page = 24 then
    if 0x100 ≤ o ∧ o < 0x900 then
      let c := (o - 0x100) / 64
      if o % 64 = 0 then s.when (v.testBit 0 != old.on (DMA_CH_CTRL_EN c)) (·.chWriteEn c (v.testBit 0))
      else s.when (a == (DMA_TAIL c).addr) (·.showChan c)
    else s
  else if page = 28 then
    if o = 0x4C then s.cameoForced (v.testBit 0)
    else if o = 0x58 then
      (s.dpaltEntered (v.testBit 0)).when
        (v.testBit 1 != old.on DPO_DPALT_CTRL_HPD) (·.dpaltHpd)
    else s
  else if page = 30 then s.when (decide (0x80 ≤ o ∧ o < 0xC0)) (·.portsUpdate)
  else if page = 36 then
    if o = 0x40 then s.modStn (fun t => { t with selPub := t.selPub.filter (· != p.num) })
    else if o = 0x44 then s.modStn (fun t => { t with selPub := t.selPub.filter (· != p.num) ++ [p.num] })
    else s
  else s

/-! ## A write of a word -/

/-- An accepted write: the value is stored and acts, then its commands act in ascending bit order (R443). -/
def State.wordStored (s : State) (p : Path) (a v : Nat) : State :=
  foldS (cmdsOf p a v) (fun s c => c.act s) (((s.storeWord p a v).wordWritten s p a v))

/-- A write of a word by a path (R9, R10, R35–R37): writes of reserved pages and of undefined words have no effect. -/
def State.writeWord (s : State) (p : Path) (a v : Nat) : State :=
  let page := a / 0x1000
  let o := a % 0x1000
  if page ≥ 39 then s.gate ⟨p, 0, true, v⟩ (·.wrote p a)
  else if o < 0x40 then
    s.gate ⟨p, a, true, v⟩ fun s =>
      if headerRw o then (s.applied (s.headerWritten page o v) p a).wrote p a else s.reject p a 2 v
  else
    s.gate ⟨p, a, true, v⟩ fun s =>
      if (rowsAt a).isEmpty then s.wrote p a
      else if s.writeCode p a v ≠ 0 then s.reject p a (s.writeCode p a v) v
      else (s.applied (s.wordStored p a v) p a).wrote p a

end Sys2Proof.Machine
end

