-- ==== Sys2Proof/Machine/Access.lean ====
section
/-!
DEFINITION. Accesses of every path: reads and writes of a word, semaphores, SYS controls (R42–R47), MSPI frames (R51, R52), remote
accesses (R49, R50), sleeping domains (R53), management records (R251, R406), and the configuration region at B6 (R400).
-/

namespace Sys2Proof.Machine

open Host (Outcome)

/-! ## A read of a word -/

/-- The next state of an outcome that has one. -/
def after (s : State) (o : Outcome State Fault Refusal) : State :=
  match o with
  | .next t => t
  | _ => s

/-- The fields that a read of the word clears. -/
def clearOnRead (a : Nat) : List Fld :=
  if a = EVI_FIFO_STAT_LOST.addr then [EVI_FIFO_STAT_LOST]
  else if a = LPB_ERRF_STAT_LOST.addr then [LPB_ERRF_STAT_LOST]
  else if a = ATU_FF_STAT_LOST.addr then [ATU_FF_STAT_LOST]
  else if a = SVC_RX_STAT_OVF.addr then [SVC_RX_STAT_OVF]
  else if a = SYS_MSPI_CRCERR.addr then [SYS_MSPI_CRCERR]
  else []

/-- A read of a semaphore returns the state before it and takes a free one for the reader's path (R44). -/
def State.semRead (s : State) (p : Path) (n : Nat) : State :=
  s.readOwn p (SYS_SEM_HELD n).addr (fun s => (s.word (SYS_SEM_HELD n).addr).toNat)
    (fun s => s.when (!s.on (SYS_SEM_HELD n)) (fun s => (s.flag (SYS_SEM_HELD n) true).wr (SYS_SEM_IF n) p.num))

/-- A read of a word by a path; some reads have an effect of their own. -/
def State.readAccess (s : State) (p : Path) (a : Nat) : State :=
  if a / 0x1000 ≥ 39 then s.gate ⟨p, 0, false, 0⟩ (·.readBack p a 0)
  else if 0x100 ≤ a ∧ a < 0x180 then s.semRead p ((a - 0x100) / 4)
  else if a = TIME_LO.addr then after s (execTimeLoRead p s)
  else if a = EVI_FIFO_LO.addr then after s (execEviFifoRead p s)
  else if a = BZL_ENERGY_LO.addr then after s (execEnergyLoRead p s)
  else if a = (SVC_RX_BUF 7).addr then after s (execPdRxPop p s)
  else if a = PMB_RS_DATA.addr then after s (execRsDataAccess p none s)
  else if a = (SEC_CHALLENGE 0).addr then after s (execChallengeRead p s)
  else if a = SIEVE_IMEM_DATA.addr then after s (execImemDataAccess p none s)
  else if a = SIEVE_STEPS_MAX.addr then after s (execStepsMaxRead p s)
  else if a = GRD_PERF_NOW.addr then after s (execPerfRead p s)
  else if a = LPB_FENCE_FAILS.addr then after s (execFenceRead p s)
  else if a = LPB_ERRF_TS_LO.addr then after s (execErrorFifoPop p s)
  else if a = ATU_INV_SYNC_EPOCH.addr then after s (execInvSyncRead p s)
  else if a = (ATU_FF_REC 7).addr ∧ s.crown then after s (execFaultFifoPop p s)
  else s.gate ⟨p, a, false, 0⟩ fun s => (foldS (clearOnRead a) (fun s f => s.wr f 0) s).readBack p a (s.readWord p a)

/-- The word that an offset lies in (R34). -/
def wordAddr (a : Nat) : Nat := a % 0x40000 / 4 * 4

/-- An access reaches its page. -/
def State.access (s : State) (x : Acc) : State := if x.isWrite then s.writeWord x.path x.addr x.data else s.readAccess x.path x.addr

/-- An access, and the reset that it may bring. -/
def State.perform (s : State) (x : Acc) : State := (s.access x).rstDue

/-- A write of a value by a path. -/
def writeAcc (p : Path) (a v : Nat) : Acc := ⟨p, wordAddr a, true, v % 2 ^ 32⟩

/-- A read by a path. -/
def readAcc (p : Path) (a : Nat) : Acc := ⟨p, wordAddr a, false, 0⟩

/-- REGISTER_WRITE (R2–R6, R9, R10, R35–R37, R43, R443). -/
def execRegisterWrite (p : Path) (a v : Nat) (s : State) : Outcome State Fault Refusal := done (s.perform (writeAcc p a v))

/-- PG_IFR_WRITE (R40, R41). -/
def execPgIfrWrite (p : Path) (page v : Nat) (s : State) : Outcome State Fault Refusal :=
  done (s.perform (writeAcc p (0x1000 * page + 0x18) v))

/-- SEM_READ (R44). -/
def execSemRead (p : Path) (n : Nat) (s : State) : Outcome State Fault Refusal := done (s.when (decide (n < 32)) (·.semRead p n))

/-- SEM_RELEASE (R44): a write of 0 to HELD, from any path. -/
def execSemRelease (p : Path) (n : Nat) (s : State) : Outcome State Fault Refusal :=
  done (s.when (decide (n < 32)) (fun s => s.perform (writeAcc p (0x100 + 4 * n) 0)))

/-- SYS_RST (R7, R44, R46): a write of SYS_RST; the write completes before the reset. -/
def execSysRst (p : Path) (v : Nat) (s : State) : Outcome State Fault Refusal := done (s.perform (writeAcc p SYS_RST_KEY.addr v))

/-- WDT_KICK (R47). -/
def execWdtKick (p : Path) (v : Nat) (s : State) : Outcome State Fault Refusal := done (s.perform (writeAcc p SYS_WDT_KICK.addr v))

/-- REMOTE_INT_UPDATE (R42): the INT# condition of chip `n` arrives at the crown. -/
def execRemoteIntUpdate (n : Nat) (cond : Bool) (s : State) : Outcome State Fault Refusal :=
  done <| s.when (s.crown && decide (1 ≤ n ∧ n ≤ 14) && s.chip.d0Up) fun s =>
    let rises := cond && !s.bit SYS_REMOTE_INT (n - 1)
    (s.setBit SYS_REMOTE_INT (n - 1) cond).when (rises && s.on SYS_REMOTE_VEC_EN) (·.emit (.msix (s.rd SYS_REMOTE_VEC_VEC)))

/-! ## Remote accesses (R48–R50) -/

/-- An access is sent to the register agent of another chip over the management tunnel; without engine 5 nothing is sent, and the
access waits for its timeout. -/
def State.remoteSend (s : State) (chip : Nat) (x : Acc) : State :=
  let id := s.chip.remoteNext
  (s.modChip (fun c => { c with remote := c.remote ++ [⟨id, chip, x⟩], remoteNext := id + 1 })).when (s.engUp 5)
    (·.emit (.mgmt chip 3 [id, x.addr, x.isWrite.toNat, x.data]))

/-- An access ends with code 0x07, captured in the SYS page (R49, R50). -/
def State.unreachable (s : State) (x : Acc) : State :=
  (s.capture 0 x.path 7 (x.addr % 0x1000 / 4) (if x.isWrite then x.data else 0)).complete x.path x.addr x.isWrite 7 0

/-- The access of an address under R48; `note` registers who waits for it. -/
def State.route (s : State) (p : Path) (addr : Nat) (w : Bool) (data : Nat) (note : Acc → State → State) : State :=
  let x : Acc := ⟨p, wordAddr addr, w, if w then data % 2 ^ 32 else 0⟩
  let s := note x s
  if addr / 2 ^ 22 ≠ 0 then
    (s.capture 0 p 1 (x.addr % 0x1000 / 4) x.data).complete p x.addr w 1 0
  else if addr / 2 ^ 18 = s.rd SYS_TREE_POS_CHIP then s.access x
  else s.remoteSend (addr / 2 ^ 18) x

/-- REMOTE_ACCESS (R49, R50): an access through remote window `n` (PCIe), or to chip `n` (MSPI, service); `w` is the value of a
write. -/
def execRemoteAccess (p : Path) (n off : Nat) (w : Option Nat) (s : State) : Outcome State Fault Refusal :=
  done <| s.when s.chip.d0Up fun s =>
    let x : Acc := ⟨p, wordAddr off, w.isSome, w.getD 0 % 2 ^ 32⟩
    match p with
    | .pcie => s.when (s.crown && decide (n < 4)) fun s =>
        let c := s.rd (SYS_REMWIN_CHIP n)
        if s.on (SYS_REMWIN_EN n) && s.chip.tree.any (fun e => e.1 == c) then s.remoteSend c x else s.unreachable x
    | .remote => s
    | _ => s.when (decide (n < 16)) fun s => (s.route p (n * 2 ^ 18 + off % 2 ^ 18) w.isSome (w.getD 0) (fun _ s => s)).rstDue

/-- REMOTE_AGENT_ACCESS (R50): the agent makes an access of chip `from_` with IF = 3, and returns the answer. -/
def execRemoteAgentAccess (from_ id addr : Nat) (w : Option Nat) (s : State) : Outcome State Fault Refusal :=
  done <| s.when (s.engUp 5 && s.chip.d0Up) fun s =>
    let x : Acc := ⟨.remote, wordAddr addr, w.isSome, w.getD 0 % 2 ^ 32⟩
    (s.modChip (fun c => { c with agent := c.agent ++ [(from_, id, x)] })).perform x

/-! ## MSPI frames (R51, R52) -/

/-- MSPI_REQUEST (R51, R52): the bytes on the bus from the fall of chip select to its rise.  With ten bytes chip select rose right after
the CRC byte, so the access is executed and its response is lost; further bytes are the controller's clocks for the response.  A new frame
loses the responses of the ones before it that are still awaited. -/
def execMspiRequest (bytes : List Byte) (s : State) : Outcome State Fault Refusal :=
  done <| s.when (s.chip.d0Up && decide (bytes.length ≥ 10)) fun s =>
    let b := bytes.take 9
    let kept := decide (bytes.length > 10)
    let s := s.modChip (fun c => { c with mspi := c.mspi.map (fun e => (e.1, false)) })
    let answer (v : Nat) (s : State) : State := s.when kept (·.emit (.mspi (mspiFrame v 0)))
    if beNat ((bytes.drop 9).take 1) ≠ crc8 b then answer 0xE0 (s.incSat SYS_MSPI_CRCERR)
    else
      let op := beNat (b.take 1)
      if op = 2 ∨ op = 3 then
        (s.route .mspi (beNat ((b.drop 1).take 4)) (op == 2) (beNat (b.drop 5))
          (fun x s => s.modChip (fun c => { c with mspi := c.mspi ++ [(x, kept)] }))).rstDue
      else
        let (v, s) := s.freshVal
        answer (v % 256) s

/-- MSPI_DESELECT_EARLY (R51): the request is discarded. -/
def execMspiDeselectEarly (s : State) : Outcome State Fault Refusal := done s

/-! ## Management records (R251, R406) -/

/-- Change the run in progress. -/
def State.modRun (s : State) (f : MgmtRun → MgmtRun) : State :=
  s.modChip (fun c => { c with mgmt := match c.mgmt with
    | r :: l => f r :: l
    | [] => [] })

/-- Execute the first record of the run in progress.  A byte 0 other than 0x02 and 0x03 is answered with status 0x01; the byte 0 of
that response is not stated: a free value. -/
def State.mgmtRecord (s : State) (r : List Byte) : State :=
  let op := beNat (r.take 1)
  if op = 2 ∨ op = 3 then
    s.route .service (beNat ((r.drop 4).take 4)) (op == 2) (beNat ((r.drop 8).take 4)) (fun x s => s.modRun (fun t => { t with acc := some x }))
  else
    let (v, s) := s.freshVal
    s.modRun (fun t => { t with left := t.left.drop 1, resp := t.resp ++ beBytes 1 v ++ (mgmtResponse r 1 0).drop 1 })

/-- Go on with the management records, one after another, up to one whose access waits or that resets the chip; `n` bounds the steps. -/
def State.mgmtSteps : Nat → State → State
  | 0, s => s
  | n + 1, s =>
    match s.chip.mgmt with
    | [] => s
    | r :: _ =>
      if r.acc.isSome || s.rstReady then s
      else match r.left with
        | [] => State.mgmtSteps n (s.mgmtEnd r)
        | b :: _ => State.mgmtSteps n (s.mgmtRecord b)

/-- The records that have not been answered, and the runs. -/
def State.mgmtLeft (s : State) : Nat := (s.chip.mgmt.map (fun r => r.left.length + 1)).sum

/-- Go on with the management records. -/
def State.mgmtGo (s : State) : State := (State.mgmtSteps s.mgmtLeft s).rstDue

/-- Cut bytes into records of 16. -/
def mgmtCut (d : List Byte) : List (List Byte) := (List.range (d.length / 16)).map (fun k => (d.drop (16 * k)).take 16)

/-- A transfer of 1–32 whole records. -/
def mgmtWhole (d : List Byte) : Bool := d.length % 16 == 0 && decide (16 ≤ d.length ∧ d.length ≤ 512)

/-- MGMT_PIPE_TRANSFER (R48, R251): a bulk OUT transfer of records; `read` tells that the host has read the responses of the one before
it, without which it is not accepted. -/
def execMgmtPipeTransfer (data : List Byte) (read : Bool) (s : State) : Outcome State Fault Refusal :=
  done <| s.when (s.iface 0 && !s.on USBD_STATUS_SUSPENDED && (read || !s.usb.mgmtWait) && !s.chip.mgmt.any (fun r => r.uart.isNone)) fun s =>
    (s.modUsb (fun u => { u with mgmtWait := false })).when (mgmtWhole data) fun s =>
      (s.modChip (fun c => { c with mgmt := c.mgmt ++ [{ left := mgmtCut data }] })).mgmtGo

/-- SVC_MGMT (R406): a frame MGMT with its records. -/
def execSvcMgmt (seq : Nat) (data : List Byte) (s : State) : Outcome State Fault Refusal :=
  done <|
    if !mgmtWhole data then s.uartFrame 1 seq (fun s => (s, [1]))
    else s.when s.uartUp fun s =>
      match s.boot.uartLast.filter (fun l => l.1 == seq) with
      | some (_, t :: d) => s.emit (.svcUart t.toNat seq d)
      | _ => s.when (!s.chip.mgmt.any (fun r => r.uart == some seq)) fun s =>
          (s.modChip (fun c => { c with mgmt := c.mgmt ++ [{ left := mgmtCut data, uart := some seq }] })).mgmtGo

/-! ## Answers to remote accesses (R50) -/

/-- A remote access ends. -/
def State.remoteEnd (s : State) (id : Nat) (act : Acc → State → State) : State :=
  match s.chip.remote.find? (fun r => r.id == id) with
  | none => s
  | some r => (act r.acc (s.modChip (fun c => { c with remote := c.remote.filter (fun e => e.id != id) }))).mgmtGo

/-- REMOTE_ANSWER (R50): the answer to remote access `id`; a late one is discarded. -/
def execRemoteAnswer (id code data : Nat) (s : State) : Outcome State Fault Refusal :=
  done (s.remoteEnd id (fun x s => s.complete x.path x.addr x.isWrite code (if code = 0 ∧ !x.isWrite then data else 0)))

/-- REMOTE_ACCESS_TIMEOUT (R50): no answer within 3 ms. -/
def execRemoteAccessTimeout (id : Nat) (s : State) : Outcome State Fault Refusal :=
  done (s.remoteEnd id (fun x s => s.unreachable x))

/-! ## Sleeping domains (R53) -/

/-- The waiting accesses of a selection leave the list. -/
def State.takeStalled (s : State) (sel : Acc → Bool) : List Acc × State :=
  (s.chip.stalled.filter sel, s.modChip (fun c => { c with stalled := c.stalled.filter (fun x => !sel x) }))

/-- Waiting accesses of a selection go on, in issue order; what still cannot go on waits again (R43, R53). -/
def State.goOn (s : State) (sel : Acc → Bool) : State :=
  let (l, s) := s.takeStalled sel
  (foldS l (fun s x => s.perform x) s).mgmtGo

/-- The access waits for its turn in a page of the domain. -/
def ofDom (d : Nat) (x : Acc) : Bool := (pageDoms (x.addr / 0x1000)).contains d

/-- DOMAIN_UP (R20, R53): a domain has powered up; the accesses that stalled on it proceed in issue order. -/
def execDomainUp (d : Nat) (s : State) : Outcome State Fault Refusal :=
  done <| s.when ((s.dom d).phase == .rising && s.chip.d0Up) fun s => (s.domainUp d).goOn (ofDom d)

/-- DOMAIN_WAKE_ACCESS (R53): an access to a word of a page whose domain is off; `w` is the value of a write. -/
def execDomainWakeAccess (p : Path) (a : Nat) (w : Option Nat) (s : State) : Outcome State Fault Refusal :=
  let x : Acc := match w with
    | some v => writeAcc p a v
    | none => readAcc p a
  done (s.when (decide (x.addr / 0x1000 < 39) && !s.on (PG_STATE_DOMAIN_UP (x.addr / 0x1000))) (·.perform x))

/-- An access that shared the 2 ms of a wake ends: with code 0x04, or by being made where it needs no domain (R53). -/
def State.wakeEnd (s : State) (x : Acc) : State := if x.addr % 0x1000 < 0x40 then s.perform x else s.rejectAcc x 4

/-- DOMAIN_WAKE_TIMEOUT (R53): 2 ms after the first of the accesses that stall on a domain arrived, all end with code 0x04; accesses to
the page header that waited behind them are made. -/
def execDomainWakeTimeout (d : Nat) (s : State) : Outcome State Fault Refusal :=
  done <| s.when (!s.domOn d) fun s =>
    let (l, s) := s.takeStalled (ofDom d)
    (foldS l (fun s x => s.wakeEnd x) s).mgmtGo

/-! ## Reads that wait within a block (R43, R212, R221) -/

/-- FENCE_COMPLETE (R212): the awaited writes have ended; the accesses that waited behind the read go on. -/
def execFenceComplete (s : State) : Outcome State Fault Refusal := done (s.fenceComplete.goOn (fun x => x.addr / 0x1000 == 25))

/-- FENCE_TIMEOUT (R212): after 2 ms the read completes with INCOMPLETE = 1 and the count so far. -/
def execFenceTimeout (s : State) : Outcome State Fault Refusal := done (s.fenceTimeout.goOn (fun x => x.addr / 0x1000 == 25))

/-- INV_SYNC_COMPLETE (R221): the awaited writes have left, or 2 ms have passed; the accesses that waited behind the read go on. -/
def execInvSyncComplete (late : Bool) (s : State) : Outcome State Fault Refusal :=
  done ((s.invSyncComplete late).goOn (fun x => x.addr / 0x1000 == 23))

/-! ## Step B6 (R400) -/

/-- A domain comes up within the step: a switch-off that runs completes first (R22). -/
def State.cfgUp (s : State) (d : Nat) : State :=
  let s := s.when ((s.dom d).phase == .falling) (fun s => (s.domLost d).setDom d { phase := .off })
  s.when (!s.domOn d) (·.domainUp d)

/-- The domains of a page are brought up within the step, prerequisites first; what stalled on them goes on (R53). -/
def State.cfgWake (s : State) (page : Nat) : State :=
  if page ≥ 39 ∨ s.on (PG_STATE_DOMAIN_UP page) ∨ s.chip.thermalOff then s
  else
    let l1 := (pageDoms page).flatMap domPrereqs
    let l2 := l1.flatMap domPrereqs
    let t := foldS ((l2.flatMap domPrereqs ++ l2 ++ l1) ++ pageDoms page) (fun s e => s.cfgUp e) s
    t.goOn (fun x => t.on (PG_STATE_DOMAIN_UP (x.addr / 0x1000)))

/-- Entry `i` fails step B6 (R394, R400): CFG_STATUS.INDEX names it. -/
def State.cfgFail (s : State) (i : Nat) : State := (s.bootFail 6 0xE).wr BOOT_CFG_STATUS_INDEX i

/-- The code with which the last completed access of a list of outputs ended. -/
def lastCode (l : List Out) : Option Nat :=
  l.foldl (fun c o => match o with
    | .complete _ k _ => some k
    | _ => c) none

/-- An entry's write: the code it ended with (0x04 where it stalls) and the state after it. -/
def State.cfgWrite (s : State) (a v : Nat) : Nat × State :=
  let x := writeAcc .service a v
  let s := s.cfgWake (a / 0x1000)
  let t := s.access x
  match lastCode (t.out.drop s.out.length) with
  | some c => (c, t.rstDue)
  | none => (4, (t.modChip (fun c => { c with stalled := c.stalled.erase x })).rejectAcc x 4)

/-- Apply the entries of the region in order. -/
def State.cfgApply : List Nat → State → State
  | [], s => s.enterStep 7
  | i :: l, s =>
    let a := s.cfgWord (4 + 2 * i)
    let v := s.cfgWord (5 + 2 * i)
    if a = 0xFFFFFFFF then (if 1 ≤ v ∧ v ≤ 100000 then State.cfgApply l s else s.cfgFail i)
    else if a ≥ 2 ^ 18 then s.cfgFail i
    else
      let r := s.cfgWrite a v
      if r.1 ≠ 0 then r.2.cfgFail i else if r.2.step_ ≠ 6 then r.2 else State.cfgApply l r.2

/-- BOOT_B6_CONFIGURATION (R383, R392–R396, R400). -/
def execBootB6Configuration (s : State) : Outcome State Fault Refusal :=
  done <| s.when (s.step_ == 6 && !s.on BOOT_STATUS_LOADER && !s.svc.reduced) fun s =>
    if s.altOn 6 ∨ s.rd BOOT_STATUS_BOOTSEL = 2 then (s.mrExtend 4 []).enterStep 7
    else match s.cfgCount with
      | none => (s.bootFail 6 0xD).wr BOOT_CFG_STATUS_REASON 0xD
      | some n => State.cfgApply (List.range n) ((s.wr BOOT_CFG_STATUS_REASON 0).mrExtend 4 (s.cfgBytes (4 + 2 * n + 1)))

/-! ## The passing of time -/

/-- What falls due as time passes: the end of a thermal shutdown's wait (R31), the glints of ports in GLINT (R61), and management records
whose access has ended (R251). -/
def State.timeDue (s : State) : State := s.thermalDue.glintsDue.mgmtGo

/-- A step without a command: a nanosecond passes. -/
def State.tick (s : State) : State := s.when s.chip.d0Up (fun s => s.pass.timeDue)

/-- CYCLE_BOUNDARY (R76): the time base reaches the next cycle boundary, a new cycle starts, and what fell due meanwhile happens. -/
def execCycleBoundary (s : State) : Outcome State Fault Refusal := done s.cycleBegins.timeDue

end Sys2Proof.Machine
end

