-- ==== Sys2Proof/Machine/Dispatch.lean ====
section
/-!
DEFINITION. One arm per constructor of `Instr`: the direct call of that command's meaning.
-/

namespace Sys2Proof.Machine

/-- The effect of a command on everything but the queue. -/
def exec (i : Instr) (s : State) : Host.Outcome State Fault Refusal :=
  match i with
  | .coldStart rtc vbat => Sys2Proof.Machine.execColdStart rtc vbat s
  | .registerWrite p a v => Sys2Proof.Machine.execRegisterWrite p a v s
  | .rwpSafePointApply page sub => Sys2Proof.Machine.execRwpSafePointApply page sub s
  | .pgEnable p page => Sys2Proof.Machine.execPgEnable p page s
  | .pgDisable p page => Sys2Proof.Machine.execPgDisable p page s
  | .functionStartComplete u => Sys2Proof.Machine.execFunctionStartComplete u s
  | .functionStopComplete u => Sys2Proof.Machine.execFunctionStopComplete u s
  | .softRst p page stuck => Sys2Proof.Machine.execSoftRst p page stuck s
  | .domainCycle page => Sys2Proof.Machine.execDomainCycle page s
  | .stallDetect page => Sys2Proof.Machine.execStallDetect page s
  | .domainSwitchOn d => Sys2Proof.Machine.execDomainSwitchOn d s
  | .domainSwitchOff d => Sys2Proof.Machine.execDomainSwitchOff d s
  | .domainOffComplete d => Sys2Proof.Machine.execDomainOffComplete d s
  | .pgIfrWrite p page v => Sys2Proof.Machine.execPgIfrWrite p page v s
  | .remoteIntUpdate n cond => Sys2Proof.Machine.execRemoteIntUpdate n cond s
  | .semRead p n => Sys2Proof.Machine.execSemRead p n s
  | .semRelease p n => Sys2Proof.Machine.execSemRelease p n s
  | .sysRst p v => Sys2Proof.Machine.execSysRst p v s
  | .wdtKick p v => Sys2Proof.Machine.execWdtKick p v s
  | .watchdogExpiry => Sys2Proof.Machine.execWatchdogExpiry s
  | .mspiRequest bytes => Sys2Proof.Machine.execMspiRequest bytes s
  | .mspiDeselectEarly => Sys2Proof.Machine.execMspiDeselectEarly s
  | .remoteAccess p n off w => Sys2Proof.Machine.execRemoteAccess p n off w s
  | .remoteAgentAccess from_ id addr w => Sys2Proof.Machine.execRemoteAgentAccess from_ id addr w s
  | .remoteAnswer id code data => Sys2Proof.Machine.execRemoteAnswer id code data s
  | .remoteAccessTimeout id => Sys2Proof.Machine.execRemoteAccessTimeout id s
  | .domainWakeAccess p a w => Sys2Proof.Machine.execDomainWakeAccess p a w s
  | .domainWakeTimeout d => Sys2Proof.Machine.execDomainWakeTimeout d s
  | .terminationSense n pair0 pair1 => Sys2Proof.Machine.execTerminationSense n pair0 pair1 s
  | .glintRecognised n => Sys2Proof.Machine.execGlintRecognised n s
  | .activityRecognised n => Sys2Proof.Machine.execActivityRecognised n s
  | .trainingTimeout n => Sys2Proof.Machine.execTrainingTimeout n s
  | .failBeaconEnd n => Sys2Proof.Machine.execFailBeaconEnd n s
  | .holdoffExpiry n => Sys2Proof.Machine.execHoldoffExpiry n s
  | .speedBeacon n rates ceil keysMode strap => Sys2Proof.Machine.execSpeedBeacon n rates ceil keysMode strap s
  | .rateChangeDone n => Sys2Proof.Machine.execRateChangeDone n s
  | .eqReq n lane preset => Sys2Proof.Machine.execEqReq n lane preset s
  | .eqAck n lane preset => Sys2Proof.Machine.execEqAck n lane preset s
  | .eqPresetMeasured n lane eye => Sys2Proof.Machine.execEqPresetMeasured n lane eye s
  | .eqAdaptDone n eye0 eye1 => Sys2Proof.Machine.execEqAdaptDone n eye0 eye1 s
  | .eqDone n preset0 preset1 => Sys2Proof.Machine.execEqDone n preset0 preset1 s
  | .lockDone n swapped inverted skew => Sys2Proof.Machine.execLockDone n swapped inverted skew s
  | .rangeMeasurement n => Sys2Proof.Machine.execRangeMeasurement n s
  | .rangeBeacon n index response valid t1 t2 t3 arrival => Sys2Proof.Machine.execRangeBeacon n index response valid t1 t2 t3 arrival s
  | .roleBeacon n b => Sys2Proof.Machine.execRoleBeacon n b s
  | .parkedBeaconTimer n => Sys2Proof.Machine.execParkedBeaconTimer n s
  | .keysBeacon n cert eph beacons sig => Sys2Proof.Machine.execKeysBeacon n cert eph beacons sig s
  | .failBeacon n cause st => Sys2Proof.Machine.execFailBeacon n cause st s
  | .linkLoss n cause => Sys2Proof.Machine.execLinkLoss n cause s
  | .linkRetrain p n => Sys2Proof.Machine.execLinkRetrain p n s
  | .portStopping n => Sys2Proof.Machine.execPortStopping n s
  | .swapReq p n => Sys2Proof.Machine.execSwapReq p n s
  | .roleSwapReqMsg n cyc unit sent => Sys2Proof.Machine.execRoleSwapReqMsg n cyc unit sent s
  | .roleSwapResend n => Sys2Proof.Machine.execRoleSwapResend n s
  | .roleAccept n cyc => Sys2Proof.Machine.execRoleAccept n cyc s
  | .roleRefuse n => Sys2Proof.Machine.execRoleRefuse n s
  | .roleSwap n links => Sys2Proof.Machine.execRoleSwap n links s
  | .creditUnit n freed => Sys2Proof.Machine.execCreditUnit n freed s
  | .unitPositionFill n ecc => Sys2Proof.Machine.execUnitPositionFill n ecc s
  | .localRefill1040 n => Sys2Proof.Machine.execLocalRefill1040 n s
  | .cycleBoundary => Sys2Proof.Machine.execCycleBoundary s
  | .fillSlot n d ecc => Sys2Proof.Machine.execFillSlot n d ecc s
  | .controlSlotSend n j => Sys2Proof.Machine.execControlSlotSend n j s
  | .controlSlotReceived n j nmsg keysel epoch cycno payload trailer arrival fec => Sys2Proof.Machine.execControlSlotReceived n j nmsg keysel epoch cycno payload trailer arrival fec s
  | .cycleMsg n m => Sys2Proof.Machine.execCycleMsg n m s
  | .cellReceived n slot cycno cell trailer voided corr uncorr syncErr => Sys2Proof.Machine.execCellReceived n slot cycno cell trailer voided corr uncorr syncErr s
  | .allotPropose n a => Sys2Proof.Machine.execAllotPropose n a s
  | .allotAccept n a => Sys2Proof.Machine.execAllotAccept n a s
  | .allotRefuse n a reason => Sys2Proof.Machine.execAllotRefuse n a reason s
  | .allotWithdraw n a => Sys2Proof.Machine.execAllotWithdraw n a s
  | .ackMsg n entries => Sys2Proof.Machine.execAckMsg n entries s
  | .cmHoldExpiry c => Sys2Proof.Machine.execCmHoldExpiry c s
  | .mgmtMsg n seq m => Sys2Proof.Machine.execMgmtMsg n seq m s
  | .idleReq n power cycle => Sys2Proof.Machine.execIdleReq n power cycle s
  | .idleAck n power cycle => Sys2Proof.Machine.execIdleAck n power cycle s
  | .wakeReq n cycle => Sys2Proof.Machine.execWakeReq n cycle s
  | .stateReport n power => Sys2Proof.Machine.execStateReport n power s
  | .epochCheck p n => Sys2Proof.Machine.execEpochCheck p n s
  | .epochReq p n => Sys2Proof.Machine.execEpochReq p n s
  | .epochChecksDone n => Sys2Proof.Machine.execEpochChecksDone n s
  | .epochWithdraw p n => Sys2Proof.Machine.execEpochWithdraw p n s
  | .epochAnswerTimeout n => Sys2Proof.Machine.execEpochAnswerTimeout n s
  | .epochSwap n => Sys2Proof.Machine.execEpochSwap n s
  | .epochLateSwap n => Sys2Proof.Machine.execEpochLateSwap n s
  | .epochSettleEnd n => Sys2Proof.Machine.execEpochSettleEnd n s
  | .epochSplit n => Sys2Proof.Machine.execEpochSplit n s
  | .tunLoad p => Sys2Proof.Machine.execTunLoad p s
  | .tunCommit p => Sys2Proof.Machine.execTunCommit p s
  | .tunRebase p => Sys2Proof.Machine.execTunRebase p s
  | .tunClrCnt p => Sys2Proof.Machine.execTunClrCnt p s
  | .quarantineEnd port ltn => Sys2Proof.Machine.execQuarantineEnd port ltn s
  | .twinSplitWaitEnd c => Sys2Proof.Machine.execTwinSplitWaitEnd c s
  | .contextStartComplete c => Sys2Proof.Machine.execContextStartComplete c s
  | .resyncTimeout c => Sys2Proof.Machine.execResyncTimeout c s
  | .stopDrainTimeout c => Sys2Proof.Machine.execStopDrainTimeout c s
  | .contextStopComplete c => Sys2Proof.Machine.execContextStopComplete c s
  | .contextFault c => Sys2Proof.Machine.execContextFault c s
  | .retransmitTimeout c => Sys2Proof.Machine.execRetransmitTimeout c s
  | .mergeBaseTimeout c => Sys2Proof.Machine.execMergeBaseTimeout c s
  | .openFrameTimeout c => Sys2Proof.Machine.execOpenFrameTimeout c s
  | .framePresented point sub firstNs stamp data => Sys2Proof.Machine.execFramePresented point sub firstNs stamp data s
  | .incTailFallback q c id => Sys2Proof.Machine.execIncTailFallback q c id s
  | .scrubVisit q c id idx => Sys2Proof.Machine.execScrubVisit q c id idx s
  | .ageHoldEnd => Sys2Proof.Machine.execAgeHoldEnd s
  | .descriptorEccFlush replay idx => Sys2Proof.Machine.execDescriptorEccFlush replay idx s
  | .perfUpdate now => Sys2Proof.Machine.execPerfUpdate now s
  | .perfRead p => Sys2Proof.Machine.execPerfRead p s
  | .adapterTxOpportunity pt ecc => Sys2Proof.Machine.execAdapterTxOpportunity pt ecc s
  | .mtrLoad p => Sys2Proof.Machine.execMtrLoad p s
  | .mtrCommit p => Sys2Proof.Machine.execMtrCommit p s
  | .mtrClrCnt p => Sys2Proof.Machine.execMtrClrCnt p s
  | .cfgChange p l => Sys2Proof.Machine.execCfgChange p l s
  | .configChangeTime l => Sys2Proof.Machine.execConfigChangeTime l s
  | .gateEntryChange l => Sys2Proof.Machine.execGateEntryChange l s
  | .timeLoRead p => Sys2Proof.Machine.execTimeLoRead p s
  | .sourceMeasurement off interval => Sys2Proof.Machine.execSourceMeasurement off interval s
  | .ppsEdge rising q => Sys2Proof.Machine.execPpsEdge rising q s
  | .todSentence uart b endQ => Sys2Proof.Machine.execTodSentence uart b endQ s
  | .irigFrame q doy sod year ofsMin li59 li61 => Sys2Proof.Machine.execIrigFrame q doy sod year ofsMin li59 li61 s
  | .inputLost cause => Sys2Proof.Machine.execInputLost cause s
  | .holdoverExpiry => Sys2Proof.Machine.execHoldoverExpiry s
  | .holdValidExpiry => Sys2Proof.Machine.execHoldValidExpiry s
  | .rtcUpdate => Sys2Proof.Machine.execRtcUpdate s
  | .stepCmdSet p => Sys2Proof.Machine.execStepCmdSet p s
  | .stepNotice n cycle delta => Sys2Proof.Machine.execStepNotice n cycle delta s
  | .stepTaken => Sys2Proof.Machine.execStepTaken s
  | .eviEdge edges q => Sys2Proof.Machine.execEviEdge edges q s
  | .eviGlitchEnd ins => Sys2Proof.Machine.execEviGlitchEnd ins s
  | .eviDebounceEnd ins at_ => Sys2Proof.Machine.execEviDebounceEnd ins at_ s
  | .eviFifoRead p => Sys2Proof.Machine.execEviFifoRead p s
  | .foutArm p k => Sys2Proof.Machine.execFoutArm p k s
  | .foutAction k => Sys2Proof.Machine.execFoutAction k s
  | .foutPulseEnd k => Sys2Proof.Machine.execFoutPulseEnd k s
  | .vdpContextChange c => Sys2Proof.Machine.execVdpContextChange c s
  | .farbusRequest write tun addr be data reqId tag => Sys2Proof.Machine.execFarbusRequest write tun addr be data reqId tag s
  | .farbusTransaction => Sys2Proof.Machine.execFarbusTransaction s
  | .farbusTransactionEnd remote cause addr time data => Sys2Proof.Machine.execFarbusTransactionEnd remote cause addr time data s
  | .readyTimeout addr => Sys2Proof.Machine.execReadyTimeout addr s
  | .prefetchExpiry w => Sys2Proof.Machine.execPrefetchExpiry w s
  | .atomicOp tun addr op width operand compare reqId tag => Sys2Proof.Machine.execAtomicOp tun addr op width operand compare reqId tag s
  | .mrdlk tun addr be reqId tag => Sys2Proof.Machine.execMrdlk tun addr be reqId tag s
  | .unlock reqId => Sys2Proof.Machine.execUnlock reqId s
  | .lockTimeout => Sys2Proof.Machine.execLockTimeout s
  | .fenceRead p => Sys2Proof.Machine.execFenceRead p s
  | .fenceComplete => Sys2Proof.Machine.execFenceComplete s
  | .fenceTimeout => Sys2Proof.Machine.execFenceTimeout s
  | .errorFifoPop p => Sys2Proof.Machine.execErrorFifoPop p s
  | .lsioMessage kind unit op tag arg data status rdata => Sys2Proof.Machine.execLsioMessage kind unit op tag arg data status rdata s
  | .gpioEdge pin level => Sys2Proof.Machine.execGpioEdge pin level s
  | .uartRx unit data => Sys2Proof.Machine.execUartRx unit data s
  | .pcieRetrain p => Sys2Proof.Machine.execPcieRetrain p s
  | .invGo p => Sys2Proof.Machine.execInvGo p s
  | .invalidationDone => Sys2Proof.Machine.execInvalidationDone s
  | .invSyncRead p => Sys2Proof.Machine.execInvSyncRead p s
  | .invSyncComplete late => Sys2Proof.Machine.execInvSyncComplete late s
  | .walkReadComplete c err entry => Sys2Proof.Machine.execWalkReadComplete c err entry s
  | .walkTimeout c => Sys2Proof.Machine.execWalkTimeout c s
  | .descriptorFetch c d => Sys2Proof.Machine.execDescriptorFetch c d s
  | .dmaCellBoundary t2h bytes => Sys2Proof.Machine.execDmaCellBoundary t2h bytes s
  | .dmaTailWrite p r v => Sys2Proof.Machine.execDmaTailWrite p r v s
  | .resumeRetry p c => Sys2Proof.Machine.execResumeRetry p c s
  | .resumeSkip p c => Sys2Proof.Machine.execResumeSkip p c s
  | .resumeStop p c => Sys2Proof.Machine.execResumeStop p c s
  | .faultFifoPop p => Sys2Proof.Machine.execFaultFifoPop p s
  | .dmaChannelDisable p c => Sys2Proof.Machine.execDmaChannelDisable p c s
  | .dpiLineCapture line t dsc fec stamp ns symErr data => Sys2Proof.Machine.execDpiLineCapture line t dsc fec stamp ns symErr data s
  | .dpoCellArrival c => Sys2Proof.Machine.execDpoCellArrival c s
  | .dpoLinePlayout phase ppm late => Sys2Proof.Machine.execDpoLinePlayout phase ppm late s
  | .dpoFrameStart => Sys2Proof.Machine.execDpoFrameStart s
  | .cameoTimeout => Sys2Proof.Machine.execCameoTimeout s
  | .cameoForce p v => Sys2Proof.Machine.execCameoForce p v s
  | .cameoCommit p => Sys2Proof.Machine.execCameoCommit p s
  | .auxRequest i2c read addr len data => Sys2Proof.Machine.execAuxRequest i2c read addr len data s
  | .auxAnswer status data => Sys2Proof.Machine.execAuxAnswer status data s
  | .auxFwdTimeout => Sys2Proof.Machine.execAuxFwdTimeout s
  | .monitorHpdChange atDpi level irq dpcd edid => Sys2Proof.Machine.execMonitorHpdChange atDpi level irq dpcd edid s
  | .dpaltEntered p v => Sys2Proof.Machine.execDpaltEntered p v s
  | .dpaltSettleEnd => Sys2Proof.Machine.execDpaltSettleEnd s
  | .dpaltIrqHpd p => Sys2Proof.Machine.execDpaltIrqHpd p s
  | .mgmtPipeTransfer data read => Sys2Proof.Machine.execMgmtPipeTransfer data read s
  | .acmData data => Sys2Proof.Machine.execAcmData data s
  | .setLineCoding baud stop parity bits => Sys2Proof.Machine.execSetLineCoding baud stop parity bits s
  | .setControlLineState rts => Sys2Proof.Machine.execSetControlLineState rts s
  | .dfuDetach => Sys2Proof.Machine.execDfuDetach s
  | .dfuUpload => Sys2Proof.Machine.execDfuUpload s
  | .dfuDnload block d => Sys2Proof.Machine.execDfuDnload block d s
  | .dfuClrstatus => Sys2Proof.Machine.execDfuClrstatus s
  | .usbBusReset u1 ctrl hs => Sys2Proof.Machine.execUsbBusReset u1 ctrl hs s
  | .remoteWakeSignal u1 lineK hostK => Sys2Proof.Machine.execRemoteWakeSignal u1 lineK hostK s
  | .phyPortChange phy dev speed overcurrent power => Sys2Proof.Machine.execPhyPortChange phy dev speed overcurrent power s
  | .hostTransaction port addr ep typ kind toggle data => Sys2Proof.Machine.execHostTransaction port addr ep typ kind toggle data s
  | .usbTransactionRequest phy msg resp rdata ifEps => Sys2Proof.Machine.execUsbTransactionRequest phy msg resp rdata ifEps s
  | .pavilionRepeat idx resp rdata ifEps => Sys2Proof.Machine.execPavilionRepeat idx resp rdata ifEps s
  | .usbResult port msg => Sys2Proof.Machine.execUsbResult port msg s
  | .deferStale tag => Sys2Proof.Machine.execDeferStale tag s
  | .abortDevice phy msg => Sys2Proof.Machine.execAbortDevice phy msg s
  | .periodicPoll idx resp rdata => Sys2Proof.Machine.execPeriodicPoll idx resp rdata s
  | .hostSof frame stampNs => Sys2Proof.Machine.execHostSof frame stampNs s
  | .fnOfsMsg msg => Sys2Proof.Machine.execFnOfsMsg msg s
  | .portReset atCrown r => Sys2Proof.Machine.execPortReset atCrown r s
  | .portStatusMsg port msg => Sys2Proof.Machine.execPortStatusMsg port msg s
  | .hubSuspend atCrown n rwake => Sys2Proof.Machine.execHubSuspend atCrown n rwake s
  | .hostResume atCrown n => Sys2Proof.Machine.execHostResume atCrown n s
  | .pavilionRemoteWake atCrown n => Sys2Proof.Machine.execPavilionRemoteWake atCrown n s
  | .ethFrameRx port data fcsOk ns stamp endQ cut => Sys2Proof.Machine.execEthFrameRx port data fcsOk ns stamp endQ cut s
  | .txUnderrun port => Sys2Proof.Machine.execTxUnderrun port s
  | .supervisionSend lre => Sys2Proof.Machine.execSupervisionSend lre s
  | .nodeForget lre mac => Sys2Proof.Machine.execNodeForget lre mac s
  | .ptpEventMessage port tx typ seq raw t2 t3 rx => Sys2Proof.Machine.execPtpEventMessage port tx typ seq raw t2 t3 rx s
  | .followUpSend port => Sys2Proof.Machine.execFollowUpSend port s
  | .gooseFrameMatched => Sys2Proof.Machine.execGooseFrameMatched s
  | .svFrameMatched => Sys2Proof.Machine.execSvFrameMatched s
  | .talExpiry idx => Sys2Proof.Machine.execTalExpiry idx s
  | .publicationRepeat idx => Sys2Proof.Machine.execPublicationRepeat idx s
  | .stnLoad p => Sys2Proof.Machine.execStnLoad p s
  | .stnCommit p => Sys2Proof.Machine.execStnCommit p s
  | .stnClrCnt p => Sys2Proof.Machine.execStnClrCnt p s
  | .scribeSeal => Sys2Proof.Machine.execScribeSeal s
  | .scribeWriteDone ok => Sys2Proof.Machine.execScribeWriteDone ok s
  | .scribeStart last => Sys2Proof.Machine.execScribeStart last s
  | .scribeHandover phase queueFound => Sys2Proof.Machine.execScribeHandover phase queueFound s
  | .scribeTakeOwnership => Sys2Proof.Machine.execScribeTakeOwnership s
  | .engineCrash e cause => Sys2Proof.Machine.execEngineCrash e cause s
  | .engineWatchdog e => Sys2Proof.Machine.execEngineWatchdog e s
  | .engineReloaded e read same => Sys2Proof.Machine.execEngineReloaded e read same s
  | .engineServicesReady e => Sys2Proof.Machine.execEngineServicesReady e s
  | .engRestart p e => Sys2Proof.Machine.execEngRestart p e s
  | .mbxRing p e => Sys2Proof.Machine.execMbxRing p e s
  | .mailboxTake e => Sys2Proof.Machine.execMailboxTake e s
  | .mailboxResponse e => Sys2Proof.Machine.execMailboxResponse e s
  | .mbxAck p e => Sys2Proof.Machine.execMbxAck p e s
  | .mbxPing e => Sys2Proof.Machine.execMbxPing e s
  | .mbxVersion e => Sys2Proof.Machine.execMbxVersion e s
  | .mbxLoad e m => Sys2Proof.Machine.execMbxLoad e m s
  | .unknownMailboxCommand e => Sys2Proof.Machine.execUnknownMailboxCommand e s
  | .diagnosticCommand e answer => Sys2Proof.Machine.execDiagnosticCommand e answer s
  | .sieveRun e f => Sys2Proof.Machine.execSieveRun e f s
  | .sieveLdb e => Sys2Proof.Machine.execSieveLdb e s
  | .sieveLdh e => Sys2Proof.Machine.execSieveLdh e s
  | .sieveLdw e => Sys2Proof.Machine.execSieveLdw e s
  | .sieveAnd e => Sys2Proof.Machine.execSieveAnd e s
  | .sieveOr e => Sys2Proof.Machine.execSieveOr e s
  | .sieveXor e => Sys2Proof.Machine.execSieveXor e s
  | .sieveAdd e => Sys2Proof.Machine.execSieveAdd e s
  | .sieveSub e => Sys2Proof.Machine.execSieveSub e s
  | .sieveShl e => Sys2Proof.Machine.execSieveShl e s
  | .sieveShr e => Sys2Proof.Machine.execSieveShr e s
  | .sieveCmp e => Sys2Proof.Machine.execSieveCmp e s
  | .sieveBeq e => Sys2Proof.Machine.execSieveBeq e s
  | .sieveBne e => Sys2Proof.Machine.execSieveBne e s
  | .sieveBgt e => Sys2Proof.Machine.execSieveBgt e s
  | .sieveBlt e => Sys2Proof.Machine.execSieveBlt e s
  | .sieveJmp e => Sys2Proof.Machine.execSieveJmp e s
  | .sieveLkp e => Sys2Proof.Machine.execSieveLkp e s
  | .sieveSettc e => Sys2Proof.Machine.execSieveSettc e s
  | .sieveSettun e => Sys2Proof.Machine.execSieveSettun e s
  | .sieveMark e => Sys2Proof.Machine.execSieveMark e s
  | .sieveMeter e => Sys2Proof.Machine.execSieveMeter e s
  | .sieveDrop e => Sys2Proof.Machine.execSieveDrop e s
  | .sieveCopyhost e => Sys2Proof.Machine.execSieveCopyhost e s
  | .sieveStamp e => Sys2Proof.Machine.execSieveStamp e s
  | .sieveCount e => Sys2Proof.Machine.execSieveCount e s
  | .sieveAccept e => Sys2Proof.Machine.execSieveAccept e s
  | .imemDataAccess p w => Sys2Proof.Machine.execImemDataAccess p w s
  | .progCommit p => Sys2Proof.Machine.execProgCommit p s
  | .progDisable p => Sys2Proof.Machine.execProgDisable p s
  | .progClrCnt p => Sys2Proof.Machine.execProgClrCnt p s
  | .tblCommit p => Sys2Proof.Machine.execTblCommit p s
  | .tblLoad p => Sys2Proof.Machine.execTblLoad p s
  | .stepsMaxRead p => Sys2Proof.Machine.execStepsMaxRead p s
  | .seatPinChange pinB low => Sys2Proof.Machine.execSeatPinChange pinB low s
  | .seatQualified => Sys2Proof.Machine.execSeatQualified s
  | .seatLost => Sys2Proof.Machine.execSeatLost s
  | .fseatPinChange n low => Sys2Proof.Machine.execFseatPinChange n low s
  | .feedQualified n => Sys2Proof.Machine.execFeedQualified n s
  | .feedWithdrawal n => Sys2Proof.Machine.execFeedWithdrawal n s
  | .inputValidityChange aux mv fwd => Sys2Proof.Machine.execInputValidityChange aux mv fwd s
  | .reverseVoltage aux => Sys2Proof.Machine.execReverseVoltage aux s
  | .hsRampEnd => Sys2Proof.Machine.execHsRampEnd s
  | .fetGateCheck reached => Sys2Proof.Machine.execFetGateCheck reached s
  | .fetShort => Sys2Proof.Machine.execFetShort s
  | .senseOverLimit vsns fet => Sys2Proof.Machine.execSenseOverLimit vsns fet s
  | .faultTimerExpiry e => Sys2Proof.Machine.execFaultTimerExpiry e s
  | .fastTrip vsns e expiry => Sys2Proof.Machine.execFastTrip vsns e expiry s
  | .pgQualified vin => Sys2Proof.Machine.execPgQualified vin s
  | .coolOffEnd => Sys2Proof.Machine.execCoolOffEnd s
  | .retryCountReset => Sys2Proof.Machine.execRetryCountReset s
  | .hsClear p => Sys2Proof.Machine.execHsClear p s
  | .hsOn p => Sys2Proof.Machine.execHsOn p s
  | .hsOff p => Sys2Proof.Machine.execHsOff p s
  | .hsCfgWrite p w v => Sys2Proof.Machine.execHsCfgWrite p w v s
  | .monitorAverage samples => Sys2Proof.Machine.execMonitorAverage samples s
  | .energyLoRead p => Sys2Proof.Machine.execEnergyLoRead p s
  | .brownout vor vbus byVbus => Sys2Proof.Machine.execBrownout vor vbus byVbus s
  | .finalCommitEnd => Sys2Proof.Machine.execFinalCommitEnd s
  | .thermalShutdown => Sys2Proof.Machine.execThermalShutdown s
  | .thermalRestart t => Sys2Proof.Machine.execThermalRestart t s
  | .tamperEvent src => Sys2Proof.Machine.execTamperEvent src s
  | .meshCheck mismatch => Sys2Proof.Machine.execMeshCheck mismatch s
  | .tamperCfgWrite p v => Sys2Proof.Machine.execTamperCfgWrite p v s
  | .ccAttach cc2 rp vbus => Sys2Proof.Machine.execCcAttach cc2 rp vbus s
  | .drpToggle => Sys2Proof.Machine.execDrpToggle s
  | .sinkDetach vbus => Sys2Proof.Machine.execSinkDetach vbus s
  | .sourceDetach => Sys2Proof.Machine.execSourceDetach s
  | .rpChange rp => Sys2Proof.Machine.execRpChange rp s
  | .bezelPowerUp vbus rp cc2 => Sys2Proof.Machine.execBezelPowerUp vbus rp cc2 s
  | .serviceLevelChange => Sys2Proof.Machine.execServiceLevelChange s
  | .mainPwr => Sys2Proof.Machine.execMainPwr s
  | .srcEnWrite p en => Sys2Proof.Machine.execSrcEnWrite p en s
  | .pdMessageRx sop msg crcOk early => Sys2Proof.Machine.execPdMessageRx sop msg crcOk early s
  | .pdRxPop p => Sys2Proof.Machine.execPdRxPop p s
  | .pdSend p v => Sys2Proof.Machine.execPdSend p v s
  | .pdCaDelayEnd => Sys2Proof.Machine.execPdCaDelayEnd s
  | .goodcrcTimeout => Sys2Proof.Machine.execGoodcrcTimeout s
  | .hardResetRx => Sys2Proof.Machine.execHardResetRx s
  | .hardReset p => Sys2Proof.Machine.execHardReset p s
  | .cableReset p => Sys2Proof.Machine.execCableReset p s
  | .swapHoldWrite p v => Sys2Proof.Machine.execSwapHoldWrite p v s
  | .swapHoldExpiry => Sys2Proof.Machine.execSwapHoldExpiry s
  | .pwrRoleWrite p src => Sys2Proof.Machine.execPwrRoleWrite p src s
  | .vbusFault vbus ma => Sys2Proof.Machine.execVbusFault vbus ma s
  | .vbClear p => Sys2Proof.Machine.execVbClear p s
  | .ovpThrWrite p v => Sys2Proof.Machine.execOvpThrWrite p v s
  | .targetWrite p t => Sys2Proof.Machine.execTargetWrite p t s
  | .stateEntry wake => Sys2Proof.Machine.execStateEntry wake s
  | .entryTimeout => Sys2Proof.Machine.execEntryTimeout s
  | .wakeEvent cause => Sys2Proof.Machine.execWakeEvent cause s
  | .stateExitComplete => Sys2Proof.Machine.execStateExitComplete s
  | .wakePin => Sys2Proof.Machine.execWakePin s
  | .alarmFire => Sys2Proof.Machine.execAlarmFire s
  | .domainIdleOff d => Sys2Proof.Machine.execDomainIdleOff d s
  | .linkIdleTimer n => Sys2Proof.Machine.execLinkIdleTimer n s
  | .linkSuspend n => Sys2Proof.Machine.execLinkSuspend n s
  | .linkResume n ok => Sys2Proof.Machine.execLinkResume n ok s
  | .vigilSample cause => Sys2Proof.Machine.execVigilSample cause s
  | .vreqWrite p v => Sys2Proof.Machine.execVreqWrite p v s
  | .pmbusPoll status pg0 held err => Sys2Proof.Machine.execPmbusPoll status pg0 held err s
  | .vreqTimeout => Sys2Proof.Machine.execVreqTimeout s
  | .vminDeclWrite p v => Sys2Proof.Machine.execVminDeclWrite p v s
  | .boostTick => Sys2Proof.Machine.execBoostTick s
  | .thermalHot => Sys2Proof.Machine.execThermalHot s
  | .rsCommit p => Sys2Proof.Machine.execRsCommit p s
  | .rsLoad p => Sys2Proof.Machine.execRsLoad p s
  | .rsDataAccess p w => Sys2Proof.Machine.execRsDataAccess p w s
  | .railEnd => Sys2Proof.Machine.execRailEnd s
  | .waitUs => Sys2Proof.Machine.execWaitUs s
  | .waitUsDone => Sys2Proof.Machine.execWaitUsDone s
  | .pmbWrite ok => Sys2Proof.Machine.execPmbWrite ok s
  | .pmbExpect ok => Sys2Proof.Machine.execPmbExpect ok s
  | .pinSet => Sys2Proof.Machine.execPinSet s
  | .pinWait ok => Sys2Proof.Machine.execPinWait ok s
  | .adcCheck reading => Sys2Proof.Machine.execAdcCheck reading s
  | .branchFail => Sys2Proof.Machine.execBranchFail s
  | .railScriptTimeout => Sys2Proof.Machine.execRailScriptTimeout s
  | .ksLoadNext p => Sys2Proof.Machine.execKsLoadNext p s
  | .ksSwitch p => Sys2Proof.Machine.execKsSwitch p s
  | .ksErase p => Sys2Proof.Machine.execKsErase p s
  | .ksEraseAll p => Sys2Proof.Machine.execKsEraseAll p s
  | .keyRetired idx => Sys2Proof.Machine.execKeyRetired idx s
  | .linkRotate p n => Sys2Proof.Machine.execLinkRotate p n s
  | .keyRotationDue n => Sys2Proof.Machine.execKeyRotationDue n s
  | .keyReplacementRetry n => Sys2Proof.Machine.execKeyReplacementRetry n s
  | .keyAgeLimit n => Sys2Proof.Machine.execKeyAgeLimit n s
  | .nextReady n gen eph farInit => Sys2Proof.Machine.execNextReady n gen eph farInit s
  | .katChal n data => Sys2Proof.Machine.execKatChal n data s
  | .katResp n data => Sys2Proof.Machine.execKatResp n data s
  | .keySwitchMsg n gen w => Sys2Proof.Machine.execKeySwitchMsg n gen w s
  | .switchAck n gen w => Sys2Proof.Machine.execSwitchAck n gen w s
  | .oldReleased n gen => Sys2Proof.Machine.execOldReleased n gen s
  | .keySwitchCycle n => Sys2Proof.Machine.execKeySwitchCycle n s
  | .keyReleaseCycle n => Sys2Proof.Machine.execKeyReleaseCycle n s
  | .keyLateSwitch n => Sys2Proof.Machine.execKeyLateSwitch n s
  | .mrExtGo p => Sys2Proof.Machine.execMrExtGo p s
  | .attGo p => Sys2Proof.Machine.execAttGo p s
  | .attDone => Sys2Proof.Machine.execAttDone s
  | .challengeRead p => Sys2Proof.Machine.execChallengeRead p s
  | .authSubmit p => Sys2Proof.Machine.execAuthSubmit p s
  | .authClose p => Sys2Proof.Machine.execAuthClose p s
  | .authExpiry => Sys2Proof.Machine.execAuthExpiry s
  | .otpDataWrite p v => Sys2Proof.Machine.execOtpDataWrite p v s
  | .otpProgram p => Sys2Proof.Machine.execOtpProgram p s
  | .drbgHealthFail => Sys2Proof.Machine.execDrbgHealthFail s
  | .bootB1AonUp x y z => Sys2Proof.Machine.execBootB1AonUp x y z s
  | .bootB2Rails mode => Sys2Proof.Machine.execBootB2Rails mode s
  | .bootB3Keys ok => Sys2Proof.Machine.execBootB3Keys ok s
  | .bootB4Image => Sys2Proof.Machine.execBootB4Image s
  | .bootB5Engines bad => Sys2Proof.Machine.execBootB5Engines bad s
  | .bootB6Configuration => Sys2Proof.Machine.execBootB6Configuration s
  | .bootB7Links quiet => Sys2Proof.Machine.execBootB7Links quiet s
  | .bootB8Running => Sys2Proof.Machine.execBootB8Running s
  | .bootStepTimeout => Sys2Proof.Machine.execBootStepTimeout s
  | .clrCnt p => Sys2Proof.Machine.execClrCnt p s
  | .resetAlt p mask => Sys2Proof.Machine.execResetAlt p mask s
  | .rbAdvance p => Sys2Proof.Machine.execRbAdvance p s
  | .loaderEnter p => Sys2Proof.Machine.execLoaderEnter p s
  | .loaderIdleTimeout => Sys2Proof.Machine.execLoaderIdleTimeout s
  | .cfgDataWrite p v => Sys2Proof.Machine.execCfgDataWrite p v s
  | .cfgCommit p => Sys2Proof.Machine.execCfgCommit p s
  | .cfgErase p => Sys2Proof.Machine.execCfgErase p s
  | .imageWriteDone ok erase => Sys2Proof.Machine.execImageWriteDone ok erase s
  | .svcUartGapTimeout => Sys2Proof.Machine.execSvcUartGapTimeout s
  | .svcMgmt seq data => Sys2Proof.Machine.execSvcMgmt seq data s
  | .console seq text => Sys2Proof.Machine.execConsole seq text s
  | .updStart seq len => Sys2Proof.Machine.execUpdStart seq len s
  | .updData seq off d => Sys2Proof.Machine.execUpdData seq off d s
  | .updEnd seq => Sys2Proof.Machine.execUpdEnd seq s
  | .updStatus seq => Sys2Proof.Machine.execUpdStatus seq s
  | .enterLoader seq => Sys2Proof.Machine.execEnterLoader seq s
  | .triggerFire => Sys2Proof.Machine.execTriggerFire s
  | .recFire p slot => Sys2Proof.Machine.execRecFire p slot s
  | .snapshotReadTimeout e => Sys2Proof.Machine.execSnapshotReadTimeout e s
  | .recordWritten => Sys2Proof.Machine.execRecordWritten s
  | .chainContinuation => Sys2Proof.Machine.execChainContinuation s
  | .triggerHoldoffEnd t => Sys2Proof.Machine.execTriggerHoldoffEnd t s
  | .flushTimer => Sys2Proof.Machine.execFlushTimer s
  | .recFlush p => Sys2Proof.Machine.execRecFlush p s
  | .flushRecordDone fails => Sys2Proof.Machine.execFlushRecordDone fails s
  | .recClear p => Sys2Proof.Machine.execRecClear p s
  | .clearEraseDone => Sys2Proof.Machine.execClearEraseDone s
  | .domainUp d => Sys2Proof.Machine.execDomainUp d s
  | .d2PowerLoss vbat => Sys2Proof.Machine.execD2PowerLoss vbat s
  | .ethLinkChange port link an speed => Sys2Proof.Machine.execEthLinkChange port link an speed s
  | .pcieLinkChange active ltssm rate cfg => Sys2Proof.Machine.execPcieLinkChange active ltssm rate cfg s
  | .dpLinkTraining dpo phase lanes rate fec => Sys2Proof.Machine.execDpLinkTraining dpo phase lanes rate fec s
  | .i2cStretchTimeout unit tag arg => Sys2Proof.Machine.execI2cStretchTimeout unit tag arg s
  | .tjUpdate t0 t1 t2 t3 => Sys2Proof.Machine.execTjUpdate t0 t1 t2 t3 s
  | .announceReceived port states gm => Sys2Proof.Machine.execAnnounceReceived port states gm s
  | .opSecondsTick => Sys2Proof.Machine.execOpSecondsTick s
  | .engineLoadDone e ok => Sys2Proof.Machine.execEngineLoadDone e ok s
  | .usbdSuspendChange suspended addr cfg rwake => Sys2Proof.Machine.execUsbdSuspendChange suspended addr cfg rwake s

end Sys2Proof.Machine
end

