-- ==== Sys2Proof/Safety.lean ====
section
/-!
DEFINITION. What counts as a safe state and a safe run, in the terms that the statements use.
-/

namespace Sys2Proof.Machine

/-- The word store is in its canonical form: equal stores are equal data. -/
def State.wf (s : State) : Bool := wordsWf s.words

/-- A step neither faults nor is refused: every command completes. -/
def Completes (s : State) : Prop := ∃ t, step s = .next t

/-- The command completes with a next state of which `p` holds. -/
def Yields (c : Instr) (s : State) (p : State → Prop) : Prop := ∃ t, exec c s = .next t ∧ p t

/-- An access of the path to the word reaches what stands behind it: D0 is up, no earlier access of the path to the page is still open
(R43), and, for a word that the front door does not hold, the page's block is not wedged and its domain is on (R17, R18, R53). -/
def Reaches (s : State) (p : Path) (a : Nat) : Prop :=
  s.chip.d0Up = true ∧ (s.open_ (a / 0x1000)).any (fun y => y.path == p) = false ∧
    (a % 0x1000 < 0x40 ∨ (s.on (PG_STATE_WEDGED (a / 0x1000)) = false ∧ s.on (PG_STATE_DOMAIN_UP (a / 0x1000)) = true))

/-- What a write leaves that a path makes and that is accepted: the effect `t`, a record if the word is watched (R388), and the
completion. -/
def accepted (s t : State) (p : Path) (a : Nat) : State := (s.applied t p a).wrote p a

/-- Every register word except those at the addresses of the list is the same in two states. -/
def SameWords (l : List Nat) (s t : State) : Prop := ∀ a, a ∉ l → t.word a = s.word a

/-- The parts of the hidden state: everything of `State` but the register words, the queue, the output and the count of free
values. -/
inductive Part
  /-- accesses in progress, domains, resets -/
  | chip
  /-- recorder -/
  | recd
  /-- time base -/
  | time
  /-- link ports -/
  | ports
  /-- power states -/
  | pwr
  /-- event inputs and outputs -/
  | evi
  /-- tunnel contexts -/
  | ctxs
  /-- identifiers in quarantine -/
  | quar
  /-- girdle: buffers and queues -/
  | gird
  /-- scheduler -/
  | sch
  /-- PCI Express, LPB and other bridges -/
  | brg
  /-- DMA -/
  | dma
  /-- facet engines and sieve -/
  | fac
  /-- displays -/
  | dp
  /-- USB -/
  | usb
  /-- substation ports -/
  | stn
  /-- bezel -/
  | bzl
  /-- service port -/
  | svc
  /-- security -/
  | sec
  /-- start and update -/
  | boot
  deriving DecidableEq, Repr

/-- A part is the same in two states. -/
def Part.same (p : Part) (s t : State) : Prop :=
  match p with
  | .chip => t.chip = s.chip
  | .recd => t.recd = s.recd
  | .time => t.time = s.time
  | .ports => t.ports = s.ports
  | .pwr => t.pwr = s.pwr
  | .evi => t.evi = s.evi
  | .ctxs => t.ctxs = s.ctxs
  | .quar => t.quar = s.quar
  | .gird => t.gird = s.gird
  | .sch => t.sch = s.sch
  | .brg => t.brg = s.brg
  | .dma => t.dma = s.dma
  | .fac => t.fac = s.fac
  | .dp => t.dp = s.dp
  | .usb => t.usb = s.usb
  | .stn => t.stn = s.stn
  | .bzl => t.bzl = s.bzl
  | .svc => t.svc = s.svc
  | .sec => t.sec = s.sec
  | .boot => t.boot = s.boot

/-- The parts of the hidden state that a command may change; every other part it leaves alone.  `recd` stands for many commands because
an interrupt bit or an event may fire a trigger slot of the recorder (R412). -/
def touches (c : Instr) : List Part :=
  match c with
  | .coldStart .. | .watchdogExpiry | .railEnd | .waitUsDone | .pmbWrite .. | .pmbExpect .. | .pinSet | .pinWait .. | .adcCheck ..
  | .branchFail | .railScriptTimeout | .bootB2Rails .. | .bootB3Keys .. | .bootB4Image | .bootB5Engines .. | .bootStepTimeout
  | .loaderIdleTimeout | .imageWriteDone .. =>
      [.chip, .recd, .time, .ports, .pwr, .evi, .ctxs, .quar, .gird, .sch, .brg, .dma, .fac, .dp, .usb, .stn, .svc, .sec, .boot]
  | .registerWrite .. | .softRst .. | .domainCycle .. | .domainOffComplete .. | .pgIfrWrite .. | .semRelease .. | .sysRst ..
  | .wdtKick .. | .mspiRequest .. | .remoteAccess .. | .remoteAgentAccess .. | .remoteAnswer .. | .remoteAccessTimeout ..
  | .domainWakeAccess .. | .domainWakeTimeout .. | .cycleBoundary .. | .fenceComplete | .fenceTimeout | .invSyncComplete ..
  | .mgmtPipeTransfer .. | .finalCommitEnd | .stateEntry .. | .bootB6Configuration | .svcMgmt .. | .domainUp .. | .d2PowerLoss .. =>
      [.chip, .recd, .time, .ports, .pwr, .evi, .ctxs, .quar, .gird, .sch, .brg, .dma, .fac, .dp, .usb, .stn, .bzl, .svc, .sec, .boot]
  | .rwpSafePointApply .. | .remoteIntUpdate .. | .mspiDeselectEarly | .parkedBeaconTimer .. | .cmHoldExpiry .. | .ageHoldEnd
  | .perfUpdate .. | .acmData .. | .setLineCoding .. | .setControlLineState .. | .dfuUpload | .fseatPinChange .. | .retryCountReset
  | .swapHoldExpiry | .drbgHealthFail | .svcUartGapTimeout | .opSecondsTick => []
  | .pgEnable .. | .semRead .. | .glintRecognised .. | .activityRecognised .. | .swapReq .. | .wakeReq .. | .epochCheck ..
  | .epochReq .. | .epochWithdraw .. | .tunLoad .. | .tunClrCnt .. | .perfRead .. | .mtrLoad .. | .mtrClrCnt .. | .timeLoRead ..
  | .pcieRetrain .. | .dmaTailWrite .. | .dpaltIrqHpd .. | .stnLoad .. | .stnClrCnt .. | .progCommit .. | .progDisable ..
  | .progClrCnt .. | .tblLoad .. | .stepsMaxRead .. | .seatPinChange .. | .energyLoRead .. | .tamperCfgWrite .. | .swapHoldWrite ..
  | .ovpThrWrite .. | .wakeEvent .. | .wakePin | .alarmFire | .vigilSample .. | .vreqWrite .. | .vminDeclWrite .. | .rsCommit ..
  | .rsLoad .. | .rsDataAccess .. | .linkRotate .. | .mrExtGo .. | .clrCnt .. | .resetAlt .. | .cfgDataWrite .. | .cfgCommit ..
  | .cfgErase .. | .recFire .. | .recFlush .. =>
      [.chip, .recd, .ports, .pwr, .boot]
  | .pgDisable .. | .linkRetrain .. =>
      [.chip, .recd, .time, .ports, .pwr, .ctxs, .gird, .boot]
  | .functionStartComplete .. =>
      [.chip, .recd, .ports, .evi, .ctxs, .gird, .sch, .fac, .usb]
  | .functionStopComplete .. =>
      [.chip, .recd, .time, .ports, .evi, .ctxs, .gird, .sch, .dma, .fac, .dp, .usb, .stn]
  | .stallDetect .. =>
      [.chip, .recd, .ports, .ctxs, .gird, .sch, .brg, .dma, .fac, .usb]
  | .domainSwitchOn .. | .domainSwitchOff .. | .domainIdleOff .. =>
      [.chip]
  | .terminationSense .. | .holdoffExpiry .. | .rateChangeDone .. | .eqReq .. | .eqAck .. | .eqPresetMeasured .. | .eqDone ..
  | .rangeMeasurement .. | .portStopping .. | .roleSwapReqMsg .. | .roleSwapResend .. | .roleAccept .. | .roleRefuse .. | .creditUnit ..
  | .allotAccept .. | .allotWithdraw .. | .idleReq .. | .idleAck .. | .stateReport .. | .epochAnswerTimeout .. | .linkIdleTimer ..
  | .linkSuspend .. | .keyRotationDue .. | .keyReplacementRetry .. | .nextReady .. | .katChal .. | .katResp .. | .keySwitchMsg ..
  | .switchAck .. | .oldReleased .. | .keySwitchCycle .. | .keyLateSwitch .. =>
      [.ports]
  | .trainingTimeout .. | .speedBeacon .. | .eqAdaptDone .. | .lockDone .. | .rangeBeacon .. | .failBeacon .. | .roleSwap .. =>
      [.chip, .recd, .ports]
  | .failBeaconEnd .. =>
      [.recd, .time, .ports, .ctxs, .gird]
  | .roleBeacon .. =>
      [.chip, .recd, .time, .ports, .evi, .ctxs, .gird, .sch]
  | .keysBeacon .. =>
      [.chip, .recd, .time, .ports, .evi, .sch]
  | .linkLoss .. | .cycleMsg .. | .linkResume .. | .keyAgeLimit .. | .keyReleaseCycle .. =>
      [.chip, .recd, .time, .ports, .ctxs, .gird]
  | .unitPositionFill .. | .controlSlotSend .. | .cellReceived .. | .ackMsg .. | .stopDrainTimeout ..
  | .mergeBaseTimeout .. | .openFrameTimeout .. | .scrubVisit .. | .descriptorEccFlush .. | .txUnderrun .. =>
      [.recd, .ports, .ctxs, .gird]
  | .mgmtMsg .. =>
      [.chip, .recd, .ports, .ctxs, .gird]
  | .localRefill1040 .. | .twinSplitWaitEnd .. =>
      [.ctxs]
  | .fillSlot .. =>
      [.recd, .ports, .ctxs, .gird, .sch]
  | .controlSlotReceived .. | .allotPropose .. | .allotRefuse .. | .epochChecksDone .. | .epochSplit .. =>
      [.recd, .ports]
  | .epochSwap .. | .epochLateSwap .. =>
      [.recd, .ports, .ctxs, .sch]
  | .epochSettleEnd .. =>
      [.ports, .ctxs]
  | .tunCommit .. =>
      [.chip, .recd, .ports, .pwr, .ctxs, .quar, .gird, .boot]
  | .tunRebase .. | .targetWrite .. | .stateExitComplete =>
      [.chip, .recd, .ports, .pwr, .ctxs, .gird, .boot]
  | .quarantineEnd .. =>
      [.recd, .ports, .ctxs, .quar, .gird]
  | .contextStartComplete .. | .phyPortChange .. | .hostTransaction .. | .usbTransactionRequest .. | .pavilionRepeat .. | .deferStale ..
  | .abortDevice .. | .periodicPoll .. | .hostSof .. | .portReset .. | .portStatusMsg .. | .hubSuspend .. | .hostResume ..
  | .pavilionRemoteWake .. =>
      [.recd, .ports, .ctxs, .gird, .sch, .fac, .usb]
  | .resyncTimeout .. | .contextFault .. | .retransmitTimeout .. =>
      [.recd, .ports, .ctxs, .gird, .sch, .brg, .fac, .usb]
  | .contextStopComplete .. =>
      [.recd, .ports, .ctxs, .quar, .gird, .sch, .fac, .usb]
  | .framePresented .. | .farbusRequest .. | .farbusTransaction | .farbusTransactionEnd .. | .readyTimeout .. | .atomicOp .. | .mrdlk ..
  | .unlock .. | .lockTimeout =>
      [.recd, .ports, .ctxs, .gird, .sch, .brg, .fac]
  | .incTailFallback .. =>
      [.gird]
  | .adapterTxOpportunity .. =>
      [.recd, .ports, .ctxs, .gird, .brg, .stn]
  | .mtrCommit .. | .cfgChange .. =>
      [.chip, .recd, .ports, .pwr, .sch, .boot]
  | .configChangeTime .. | .gateEntryChange .. =>
      [.recd, .sch]
  | .sourceMeasurement .. | .todSentence .. | .irigFrame .. | .inputLost .. | .holdoverExpiry =>
      [.recd, .time]
  | .ppsEdge .. | .holdValidExpiry | .rtcUpdate | .stepNotice .. =>
      [.time]
  | .stepCmdSet .. =>
      [.chip, .recd, .time, .ports, .pwr, .boot]
  | .stepTaken =>
      [.recd, .time, .ports, .evi, .sch]
  | .eviEdge .. | .eviGlitchEnd .. | .eviDebounceEnd .. =>
      [.chip, .recd, .ports, .pwr, .evi, .stn, .boot]
  | .eviFifoRead .. | .foutArm .. =>
      [.chip, .recd, .ports, .pwr, .evi, .boot]
  | .foutAction .. =>
      [.recd, .evi]
  | .foutPulseEnd .. =>
      [.evi]
  | .vdpContextChange .. | .prefetchExpiry .. | .pcieLinkChange .. =>
      [.recd, .brg]
  | .fenceRead .. | .errorFifoPop .. =>
      [.chip, .recd, .ports, .pwr, .brg, .boot]
  | .lsioMessage .. | .gpioEdge .. | .uartRx .. | .sieveRun .. | .sieveLdb .. | .sieveLdh .. | .sieveLdw .. | .sieveAnd .. | .sieveOr ..
  | .sieveXor .. | .sieveAdd .. | .sieveSub .. | .sieveShl .. | .sieveShr .. | .sieveCmp .. | .sieveBeq .. | .sieveBne .. | .sieveBgt ..
  | .sieveBlt .. | .sieveJmp .. | .sieveLkp .. | .sieveSettc .. | .sieveSettun .. | .sieveMark .. | .sieveMeter .. | .sieveDrop ..
  | .sieveCopyhost .. | .sieveStamp .. | .sieveCount .. | .sieveAccept .. | .i2cStretchTimeout .. =>
      [.recd, .ports, .ctxs, .gird, .sch, .fac]
  | .invGo .. | .invSyncRead .. | .resumeRetry .. | .resumeSkip .. | .resumeStop .. | .faultFifoPop .. | .dmaChannelDisable .. =>
      [.chip, .recd, .ports, .pwr, .dma, .boot]
  | .invalidationDone | .walkReadComplete .. | .walkTimeout .. | .descriptorFetch .. =>
      [.recd, .dma]
  | .dmaCellBoundary .. =>
      [.recd, .ports, .ctxs, .gird, .sch, .dma, .fac]
  | .dpiLineCapture .. =>
      [.recd, .ports, .ctxs, .gird, .sch, .fac, .dp]
  | .dpoCellArrival .. | .dpoLinePlayout .. | .dpoFrameStart | .auxFwdTimeout | .monitorHpdChange .. | .dpaltSettleEnd
  | .dpLinkTraining .. =>
      [.recd, .dp]
  | .cameoTimeout | .auxRequest .. | .auxAnswer .. =>
      [.dp]
  | .cameoForce .. | .cameoCommit .. | .dpaltEntered .. =>
      [.chip, .recd, .ports, .pwr, .dp, .boot]
  | .dfuDetach | .updStart .. | .enterLoader .. =>
      [.chip, .recd, .time, .ports, .ctxs, .quar, .gird, .sch, .fac, .usb, .boot]
  | .dfuDnload .. | .updData .. | .updEnd .. =>
      [.recd, .boot]
  | .dfuClrstatus | .bootB7Links .. | .bootB8Running | .console .. | .updStatus .. =>
      [.boot]
  | .usbBusReset .. | .usbResult .. | .usbdSuspendChange .. =>
      [.recd, .usb]
  | .remoteWakeSignal .. =>
      [.usb]
  | .fnOfsMsg .. | .engineServicesReady .. | .feedQualified .. | .feedWithdrawal .. | .rpChange .. | .attDone | .triggerFire
  | .snapshotReadTimeout .. | .recordWritten | .chainContinuation | .triggerHoldoffEnd .. | .flushTimer | .clearEraseDone
  | .ethLinkChange .. | .tjUpdate .. | .engineLoadDone .. =>
      [.recd]
  | .ethFrameRx .. =>
      [.recd, .ports, .ctxs, .gird, .sch, .fac, .stn]
  | .supervisionSend .. | .ptpEventMessage .. | .followUpSend .. | .publicationRepeat .. | .scribeSeal | .scribeStart .. =>
      [.stn]
  | .nodeForget .. | .svFrameMatched | .scribeWriteDone .. | .scribeHandover .. | .scribeTakeOwnership | .flushRecordDone ..
  | .announceReceived .. =>
      [.recd, .stn]
  | .gooseFrameMatched | .talExpiry .. =>
      [.recd, .evi, .stn]
  | .stnCommit .. =>
      [.chip, .recd, .ports, .pwr, .stn, .boot]
  | .engineCrash .. | .engineWatchdog .. =>
      [.chip, .recd, .ports, .fac]
  | .engineReloaded .. | .mailboxResponse .. =>
      [.recd, .fac]
  | .engRestart .. | .mbxRing .. | .mbxAck .. | .imemDataAccess .. | .tblCommit .. =>
      [.chip, .recd, .ports, .pwr, .fac, .boot]
  | .mailboxTake .. | .mbxPing .. | .mbxVersion .. | .mbxLoad .. | .unknownMailboxCommand .. | .diagnosticCommand .. =>
      [.fac]
  | .seatQualified | .coolOffEnd | .monitorAverage .. =>
      [.recd, .bzl]
  | .seatLost | .fetGateCheck .. | .fetShort | .senseOverLimit .. | .faultTimerExpiry .. | .fastTrip .. =>
      [.recd, .bzl, .svc]
  | .inputValidityChange .. | .reverseVoltage .. | .hsOff .. | .hsCfgWrite .. =>
      [.chip, .recd, .ports, .pwr, .bzl, .svc, .boot]
  | .hsRampEnd =>
      [.bzl]
  | .pgQualified .. | .mainPwr | .pdMessageRx .. | .goodcrcTimeout | .hardResetRx | .vbusFault .. =>
      [.recd, .svc]
  | .hsClear .. | .hsOn .. =>
      [.chip, .recd, .ports, .pwr, .bzl, .boot]
  | .brownout .. =>
      [.chip, .recd, .pwr, .boot]
  | .thermalShutdown =>
      [.chip, .recd]
  | .thermalRestart .. =>
      [.chip, .recd, .boot]
  | .tamperEvent .. | .meshCheck .. =>
      [.chip, .recd, .time, .ports, .ctxs, .gird, .sec]
  | .ccAttach .. | .bezelPowerUp .. =>
      [.chip, .recd, .ports, .pwr, .ctxs, .gird, .sch, .fac, .usb, .svc, .boot]
  | .drpToggle | .pdCaDelayEnd =>
      [.svc]
  | .sinkDetach .. | .sourceDetach =>
      [.recd, .ports, .ctxs, .gird, .sch, .fac, .dp, .usb, .svc]
  | .serviceLevelChange =>
      [.chip, .recd, .pwr, .svc, .boot]
  | .srcEnWrite .. | .pdRxPop .. | .pdSend .. | .hardReset .. | .cableReset .. | .pwrRoleWrite .. | .vbClear .. =>
      [.chip, .recd, .ports, .pwr, .svc, .boot]
  | .entryTimeout =>
      [.recd, .ports, .pwr]
  | .pmbusPoll .. | .vreqTimeout | .boostTick | .thermalHot =>
      [.recd, .pwr]
  | .waitUs =>
      [.pwr]
  | .ksLoadNext .. | .ksSwitch .. | .ksErase .. | .ksEraseAll .. | .attGo .. | .challengeRead .. | .authSubmit .. | .authClose ..
  | .otpDataWrite .. | .otpProgram .. | .rbAdvance .. | .recClear .. =>
      [.chip, .recd, .ports, .pwr, .sec, .boot]
  | .keyRetired .. | .authExpiry =>
      [.sec]
  | .bootB1AonUp .. =>
      [.chip, .recd, .pwr, .stn, .sec, .boot]
  | .loaderEnter .. =>
      [.chip, .recd, .time, .ports, .pwr, .ctxs, .quar, .gird, .sch, .fac, .usb, .boot]

end Sys2Proof.Machine
end

