-- ==== Sys2Proof/WellFormed.lean ====
section
/-!
DEFINITION. Well-formed commands: every index names something that the block has (a port, a context, a channel, an engine, a page, a
domain, a word of the register space), and every written value fits a word.
-/

namespace Sys2Proof

/-- The indices of a command are in range and its written values are words of 32 bits. -/
def Instr.wf (i : Instr) : Bool :=
  match i with
  | .coldStart _ _ => true
  | .registerWrite _ a v => decide (a < 262144) && decide (v < 2 ^ 32)
  | .rwpSafePointApply page _ => decide (page < 64)
  | .pgEnable _ page => decide (page < 64)
  | .pgDisable _ page => decide (page < 64)
  | .functionStartComplete u => decide (u < 96)
  | .functionStopComplete u => decide (u < 96)
  | .softRst _ page _ => decide (page < 64)
  | .domainCycle page => decide (page < 64)
  | .stallDetect page => decide (page < 64)
  | .domainSwitchOn d => decide (d < 16)
  | .domainSwitchOff d => decide (d < 16)
  | .domainOffComplete d => decide (d < 16)
  | .pgIfrWrite _ page v => decide (page < 64) && decide (v < 2 ^ 32)
  | .remoteIntUpdate n _ => decide (n < 15)
  | .semRead _ n => decide (n < 32)
  | .semRelease _ n => decide (n < 32)
  | .sysRst _ v => decide (v < 2 ^ 32)
  | .wdtKick _ v => decide (v < 2 ^ 32)
  | .watchdogExpiry => true
  | .mspiRequest _ => true
  | .mspiDeselectEarly => true
  | .remoteAccess _ n _ w => decide (n < 16) && w.all (fun v => decide (v < 2 ^ 32))
  | .remoteAgentAccess _ _ _ w => w.all (fun v => decide (v < 2 ^ 32))
  | .remoteAnswer _ _ _ => true
  | .remoteAccessTimeout _ => true
  | .domainWakeAccess _ _ w => w.all (fun v => decide (v < 2 ^ 32))
  | .domainWakeTimeout d => decide (d < 16)
  | .terminationSense n _ _ => decide (n < 3)
  | .glintRecognised n => decide (n < 3)
  | .activityRecognised n => decide (n < 3)
  | .trainingTimeout n => decide (n < 3)
  | .failBeaconEnd n => decide (n < 3)
  | .holdoffExpiry n => decide (n < 3)
  | .speedBeacon n _ _ _ _ => decide (n < 3)
  | .rateChangeDone n => decide (n < 3)
  | .eqReq n lane _ => decide (n < 3) && decide (lane < 2)
  | .eqAck n lane _ => decide (n < 3) && decide (lane < 2)
  | .eqPresetMeasured n lane _ => decide (n < 3) && decide (lane < 2)
  | .eqAdaptDone n _ _ => decide (n < 3)
  | .eqDone n _ _ => decide (n < 3)
  | .lockDone n _ _ _ => decide (n < 3)
  | .rangeMeasurement n => decide (n < 3)
  | .rangeBeacon n _ _ _ _ _ _ _ => decide (n < 3)
  | .roleBeacon n _ => decide (n < 3)
  | .parkedBeaconTimer n => decide (n < 3)
  | .keysBeacon n _ _ _ _ => decide (n < 3)
  | .failBeacon n _ _ => decide (n < 3)
  | .linkLoss n _ => decide (n < 3)
  | .linkRetrain _ n => decide (n < 3)
  | .portStopping n => decide (n < 3)
  | .swapReq _ n => decide (n < 3)
  | .roleSwapReqMsg n _ _ _ => decide (n < 3)
  | .roleSwapResend n => decide (n < 3)
  | .roleAccept n _ => decide (n < 3)
  | .roleRefuse n => decide (n < 3)
  | .roleSwap n _ => decide (n < 3)
  | .creditUnit n _ => decide (n < 3)
  | .unitPositionFill n _ => decide (n < 3)
  | .localRefill1040 n => decide (n < 3)
  | .cycleBoundary => true
  | .fillSlot n d _ => decide (n < 3) && decide (d < 3840)
  | .controlSlotSend n j => decide (n < 3) && decide (j < 64)
  | .controlSlotReceived n j _ _ _ _ _ _ _ _ => decide (n < 3) && decide (j < 64)
  | .cycleMsg n _ => decide (n < 3)
  | .cellReceived n slot _ _ _ _ _ _ _ => decide (n < 3) && decide (slot < 3904)
  | .allotPropose n _ => decide (n < 3)
  | .allotAccept n _ => decide (n < 3)
  | .allotRefuse n _ _ => decide (n < 3)
  | .allotWithdraw n _ => decide (n < 3)
  | .ackMsg n _ => decide (n < 3)
  | .cmHoldExpiry c => decide (c < 256)
  | .mgmtMsg n _ _ => decide (n < 3)
  | .idleReq n _ _ => decide (n < 3)
  | .idleAck n _ _ => decide (n < 3)
  | .wakeReq n _ => decide (n < 3)
  | .stateReport n _ => decide (n < 3)
  | .epochCheck _ n => decide (n < 3)
  | .epochReq _ n => decide (n < 3)
  | .epochChecksDone n => decide (n < 3)
  | .epochWithdraw _ n => decide (n < 3)
  | .epochAnswerTimeout n => decide (n < 3)
  | .epochSwap n => decide (n < 3)
  | .epochLateSwap n => decide (n < 3)
  | .epochSettleEnd n => decide (n < 3)
  | .epochSplit n => decide (n < 3)
  | .tunLoad _ => true
  | .tunCommit _ => true
  | .tunRebase _ => true
  | .tunClrCnt _ => true
  | .quarantineEnd port ltn => decide (port < 3) && decide (ltn < 256)
  | .twinSplitWaitEnd c => decide (c < 256)
  | .contextStartComplete c => decide (c < 256)
  | .resyncTimeout c => decide (c < 256)
  | .stopDrainTimeout c => decide (c < 256)
  | .contextStopComplete c => decide (c < 256)
  | .contextFault c => decide (c < 256)
  | .retransmitTimeout c => decide (c < 256)
  | .mergeBaseTimeout c => decide (c < 256)
  | .openFrameTimeout c => decide (c < 256)
  | .framePresented point _ _ _ _ => decide (point < 16)
  | .incTailFallback q c _ => decide (q < 128) && decide (c < 256)
  | .scrubVisit q c _ _ => decide (q < 128) && decide (c < 256)
  | .ageHoldEnd => true
  | .descriptorEccFlush _ idx => decide (idx < 256)
  | .perfUpdate _ => true
  | .perfRead _ => true
  | .adapterTxOpportunity pt _ => decide (pt < 16)
  | .mtrLoad _ => true
  | .mtrCommit _ => true
  | .mtrClrCnt _ => true
  | .cfgChange _ l => decide (l < 7)
  | .configChangeTime l => decide (l < 7)
  | .gateEntryChange l => decide (l < 7)
  | .timeLoRead _ => true
  | .sourceMeasurement _ _ => true
  | .ppsEdge _ _ => true
  | .todSentence uart _ _ => decide (uart < 4)
  | .irigFrame _ _ _ _ _ _ _ => true
  | .inputLost _ => true
  | .holdoverExpiry => true
  | .holdValidExpiry => true
  | .rtcUpdate => true
  | .stepCmdSet _ => true
  | .stepNotice n _ _ => decide (n < 3)
  | .stepTaken => true
  | .eviEdge _ _ => true
  | .eviGlitchEnd _ => true
  | .eviDebounceEnd _ _ => true
  | .eviFifoRead _ => true
  | .foutArm _ k => decide (k < 8)
  | .foutAction k => decide (k < 8)
  | .foutPulseEnd k => decide (k < 8)
  | .vdpContextChange c => decide (c < 16)
  | .farbusRequest _ _ _ _ _ _ _ => true
  | .farbusTransaction => true
  | .farbusTransactionEnd _ _ _ _ _ => true
  | .readyTimeout _ => true
  | .prefetchExpiry w => decide (w < 8)
  | .atomicOp _ _ _ _ _ _ _ _ => true
  | .mrdlk _ _ _ _ _ => true
  | .unlock _ => true
  | .lockTimeout => true
  | .fenceRead _ => true
  | .fenceComplete => true
  | .fenceTimeout => true
  | .errorFifoPop _ => true
  | .lsioMessage _ _ _ _ _ _ _ _ => true
  | .gpioEdge pin _ => decide (pin < 32)
  | .uartRx _ _ => true
  | .pcieRetrain _ => true
  | .invGo _ => true
  | .invalidationDone => true
  | .invSyncRead _ => true
  | .invSyncComplete _ => true
  | .walkReadComplete c _ _ => decide (c < 32)
  | .walkTimeout c => decide (c < 32)
  | .descriptorFetch c _ => decide (c < 32)
  | .dmaCellBoundary _ _ => true
  | .dmaTailWrite _ r v => decide (r.chan < 32) && decide (v < 2 ^ 32)
  | .resumeRetry _ c => decide (c < 32)
  | .resumeSkip _ c => decide (c < 32)
  | .resumeStop _ c => decide (c < 32)
  | .faultFifoPop _ => true
  | .dmaChannelDisable _ c => decide (c < 32)
  | .dpiLineCapture _ _ _ _ _ _ _ _ => true
  | .dpoCellArrival _ => true
  | .dpoLinePlayout _ _ _ => true
  | .dpoFrameStart => true
  | .cameoTimeout => true
  | .cameoForce _ _ => true
  | .cameoCommit _ => true
  | .auxRequest _ _ _ _ _ => true
  | .auxAnswer _ _ => true
  | .auxFwdTimeout => true
  | .monitorHpdChange _ _ _ _ _ => true
  | .dpaltEntered _ _ => true
  | .dpaltSettleEnd => true
  | .dpaltIrqHpd _ => true
  | .mgmtPipeTransfer _ _ => true
  | .acmData _ => true
  | .setLineCoding _ _ _ _ => true
  | .setControlLineState _ => true
  | .dfuDetach => true
  | .dfuUpload => true
  | .dfuDnload _ _ => true
  | .dfuClrstatus => true
  | .usbBusReset _ _ _ => true
  | .remoteWakeSignal _ _ _ => true
  | .phyPortChange phy _ _ _ _ => decide (phy < 6)
  | .hostTransaction port _ _ _ _ _ _ => decide (port < 16)
  | .usbTransactionRequest phy _ _ _ _ => decide (phy < 6)
  | .pavilionRepeat _ _ _ _ => true
  | .usbResult port _ => decide (port < 16)
  | .deferStale _ => true
  | .abortDevice phy _ => decide (phy < 6)
  | .periodicPoll _ _ _ => true
  | .hostSof _ _ => true
  | .fnOfsMsg _ => true
  | .portReset _ r => decide (r.port < 16 ∧ r.speed < 4)
  | .portStatusMsg port _ => decide (port < 16)
  | .hubSuspend _ n _ => decide (n < 16)
  | .hostResume _ n => decide (n < 16)
  | .pavilionRemoteWake _ n => decide (n < 16)
  | .ethFrameRx port _ _ _ _ _ _ => decide (port < 4)
  | .txUnderrun port => decide (port < 4)
  | .supervisionSend lre => decide (lre < 2)
  | .nodeForget lre _ => decide (lre < 2)
  | .ptpEventMessage port _ _ _ _ _ _ _ => decide (port < 4)
  | .followUpSend port => decide (port < 4)
  | .gooseFrameMatched => true
  | .svFrameMatched => true
  | .talExpiry idx => decide (idx < 512)
  | .publicationRepeat idx => decide (idx < 32)
  | .stnLoad _ => true
  | .stnCommit _ => true
  | .stnClrCnt _ => true
  | .scribeSeal => true
  | .scribeWriteDone _ => true
  | .scribeStart _ => true
  | .scribeHandover _ _ => true
  | .scribeTakeOwnership => true
  | .engineCrash e _ => decide (e < 16)
  | .engineWatchdog e => decide (e < 16)
  | .engineReloaded e _ _ => decide (e < 16)
  | .engineServicesReady e => decide (e < 16)
  | .engRestart _ e => decide (e < 16)
  | .mbxRing _ e => decide (e < 16)
  | .mailboxTake e => decide (e < 16)
  | .mailboxResponse e => decide (e < 16)
  | .mbxAck _ e => decide (e < 16)
  | .mbxPing e => decide (e < 16)
  | .mbxVersion e => decide (e < 16)
  | .mbxLoad e m => decide (e < 16) && decide (m.1 ≤ 100)
  | .unknownMailboxCommand e => decide (e < 16)
  | .diagnosticCommand e _ => decide (e < 16)
  | .sieveRun e _ => decide (e < 24)
  | .sieveLdb e => decide (e < 24)
  | .sieveLdh e => decide (e < 24)
  | .sieveLdw e => decide (e < 24)
  | .sieveAnd e => decide (e < 24)
  | .sieveOr e => decide (e < 24)
  | .sieveXor e => decide (e < 24)
  | .sieveAdd e => decide (e < 24)
  | .sieveSub e => decide (e < 24)
  | .sieveShl e => decide (e < 24)
  | .sieveShr e => decide (e < 24)
  | .sieveCmp e => decide (e < 24)
  | .sieveBeq e => decide (e < 24)
  | .sieveBne e => decide (e < 24)
  | .sieveBgt e => decide (e < 24)
  | .sieveBlt e => decide (e < 24)
  | .sieveJmp e => decide (e < 24)
  | .sieveLkp e => decide (e < 24)
  | .sieveSettc e => decide (e < 24)
  | .sieveSettun e => decide (e < 24)
  | .sieveMark e => decide (e < 24)
  | .sieveMeter e => decide (e < 24)
  | .sieveDrop e => decide (e < 24)
  | .sieveCopyhost e => decide (e < 24)
  | .sieveStamp e => decide (e < 24)
  | .sieveCount e => decide (e < 24)
  | .sieveAccept e => decide (e < 24)
  | .imemDataAccess _ w => w.all (fun v => decide (v < 2 ^ 32))
  | .progCommit _ => true
  | .progDisable _ => true
  | .progClrCnt _ => true
  | .tblCommit _ => true
  | .tblLoad _ => true
  | .stepsMaxRead _ => true
  | .seatPinChange _ _ => true
  | .seatQualified => true
  | .seatLost => true
  | .fseatPinChange n _ => decide (n < 3)
  | .feedQualified n => decide (n < 3)
  | .feedWithdrawal n => decide (n < 3)
  | .inputValidityChange _ _ _ => true
  | .reverseVoltage _ => true
  | .hsRampEnd => true
  | .fetGateCheck _ => true
  | .fetShort => true
  | .senseOverLimit _ _ => true
  | .faultTimerExpiry _ => true
  | .fastTrip _ _ _ => true
  | .pgQualified _ => true
  | .coolOffEnd => true
  | .retryCountReset => true
  | .hsClear _ => true
  | .hsOn _ => true
  | .hsOff _ => true
  | .hsCfgWrite _ w v => decide (w < 2) && decide (v < 2 ^ 32)
  | .monitorAverage _ => true
  | .energyLoRead _ => true
  | .brownout _ _ _ => true
  | .finalCommitEnd => true
  | .thermalShutdown => true
  | .thermalRestart _ => true
  | .tamperEvent _ => true
  | .meshCheck _ => true
  | .tamperCfgWrite _ v => decide (v < 2 ^ 32)
  | .ccAttach _ _ _ => true
  | .drpToggle => true
  | .sinkDetach _ => true
  | .sourceDetach => true
  | .rpChange _ => true
  | .bezelPowerUp _ _ _ => true
  | .serviceLevelChange => true
  | .mainPwr => true
  | .srcEnWrite _ _ => true
  | .pdMessageRx sop _ _ _ => decide (sop < 3)
  | .pdRxPop _ => true
  | .pdSend _ v => decide (v < 2 ^ 32)
  | .pdCaDelayEnd => true
  | .goodcrcTimeout => true
  | .hardResetRx => true
  | .hardReset _ => true
  | .cableReset _ => true
  | .swapHoldWrite _ _ => true
  | .swapHoldExpiry => true
  | .pwrRoleWrite _ _ => true
  | .vbusFault _ _ => true
  | .vbClear _ => true
  | .ovpThrWrite _ v => decide (v < 2 ^ 32)
  | .targetWrite _ t => decide (t < 8)
  | .stateEntry _ => true
  | .entryTimeout => true
  | .wakeEvent cause => decide (cause < 10)
  | .stateExitComplete => true
  | .wakePin => true
  | .alarmFire => true
  | .domainIdleOff d => decide (d < 16)
  | .linkIdleTimer n => decide (n < 3)
  | .linkSuspend n => decide (n < 3)
  | .linkResume n _ => decide (n < 3)
  | .vigilSample cause => decide (cause < 10)
  | .vreqWrite _ v => decide (v < 2 ^ 32)
  | .pmbusPoll _ _ _ _ => true
  | .vreqTimeout => true
  | .vminDeclWrite _ v => decide (v < 2 ^ 32)
  | .boostTick => true
  | .thermalHot => true
  | .rsCommit _ => true
  | .rsLoad _ => true
  | .rsDataAccess _ w => w.all (fun v => decide (v < 2 ^ 32))
  | .railEnd => true
  | .waitUs => true
  | .waitUsDone => true
  | .pmbWrite _ => true
  | .pmbExpect _ => true
  | .pinSet => true
  | .pinWait _ => true
  | .adcCheck _ => true
  | .branchFail => true
  | .railScriptTimeout => true
  | .ksLoadNext _ => true
  | .ksSwitch _ => true
  | .ksErase _ => true
  | .ksEraseAll _ => true
  | .keyRetired idx => decide (idx < 32)
  | .linkRotate _ n => decide (n < 3)
  | .keyRotationDue n => decide (n < 3)
  | .keyReplacementRetry n => decide (n < 3)
  | .keyAgeLimit n => decide (n < 3)
  | .nextReady n _ _ _ => decide (n < 3)
  | .katChal n _ => decide (n < 3)
  | .katResp n _ => decide (n < 3)
  | .keySwitchMsg n _ _ => decide (n < 3)
  | .switchAck n _ _ => decide (n < 3)
  | .oldReleased n _ => decide (n < 3)
  | .keySwitchCycle n => decide (n < 3)
  | .keyReleaseCycle n => decide (n < 3)
  | .keyLateSwitch n => decide (n < 3)
  | .mrExtGo _ => true
  | .attGo _ => true
  | .attDone => true
  | .challengeRead _ => true
  | .authSubmit _ => true
  | .authClose _ => true
  | .authExpiry => true
  | .otpDataWrite _ v => decide (v < 2 ^ 32)
  | .otpProgram _ => true
  | .drbgHealthFail => true
  | .bootB1AonUp _ _ _ => true
  | .bootB2Rails _ => true
  | .bootB3Keys _ => true
  | .bootB4Image => true
  | .bootB5Engines _ => true
  | .bootB6Configuration => true
  | .bootB7Links _ => true
  | .bootB8Running => true
  | .bootStepTimeout => true
  | .clrCnt _ => true
  | .resetAlt _ _ => true
  | .rbAdvance _ => true
  | .loaderEnter _ => true
  | .loaderIdleTimeout => true
  | .cfgDataWrite _ v => decide (v < 2 ^ 32)
  | .cfgCommit _ => true
  | .cfgErase _ => true
  | .imageWriteDone _ _ => true
  | .svcUartGapTimeout => true
  | .svcMgmt _ _ => true
  | .console _ _ => true
  | .updStart _ _ => true
  | .updData _ _ _ => true
  | .updEnd _ => true
  | .updStatus _ => true
  | .enterLoader _ => true
  | .triggerFire => true
  | .recFire _ slot => decide (slot < 64)
  | .snapshotReadTimeout e => decide (e < 5)
  | .recordWritten => true
  | .chainContinuation => true
  | .triggerHoldoffEnd t => decide (t < 64)
  | .flushTimer => true
  | .recFlush _ => true
  | .flushRecordDone _ => true
  | .recClear _ => true
  | .clearEraseDone => true
  | .domainUp d => decide (d < 16)
  | .d2PowerLoss _ => true
  | .ethLinkChange port _ _ _ => decide (port < 4)
  | .pcieLinkChange _ _ _ _ => true
  | .dpLinkTraining _ _ _ _ _ => true
  | .i2cStretchTimeout _ _ _ => true
  | .tjUpdate _ _ _ _ => true
  | .announceReceived port _ _ => decide (port < 4)
  | .opSecondsTick => true
  | .engineLoadDone e _ => decide (e < 16)
  | .usbdSuspendChange _ _ _ _ => true

end Sys2Proof
end

