-- ==== Sys2Proof/Certificates/Slice0/Obligations.lean ====
section
/-!
DEFINITION. The statements for the provers.
-/

open Sys2Proof Sys2Proof.Machine
open Host (Outcome)

/-- A step executes the command at the front of the queue on the rest of the queue. For every command c and every state s, a step of
s with c at the front of its queue is exec of c on s with the queue's rest. With an empty queue a step answers the tick of the
state, one nanosecond of time (DESIGN CHOICE, log entry 7), and the queue stays empty. -/
def Obligations.StepRunsFront : Prop :=
  (∀ (c : Instr) (s : State) (rest : List Instr), step { s with pending := c :: rest } = exec c { s with pending := rest }) ∧
  (∀ s : State, s.pending = [] → step s = .next s.tick)

/-- After reset the queue is empty, the word store is canonical, and registers hold the values that their tables give. State.reset
has an empty queue and output, a canonical word store, and in each register group the reset values of the register tables, for these
fields: the stall limit, the watchdog period, the epoch lead, the UTC offset, the step threshold, the walk timeout, the AUX and
cameo timeouts, the crash limit and window, the shunt, the over- and under-voltage levels, the DRP period, the entry timeout, the
wake sources, the sampler period, the key rotation hours, the ledger threshold, the flush threshold and interval. -/
def Obligations.ResetState : Prop :=
  State.reset.pending = [] ∧ State.reset.out = [] ∧ State.reset.wf = true ∧
  State.reset.rd SYS_STALL_LIMIT_US = 100 ∧ State.reset.rd SYS_WDT_CTRL_PERIOD_MS = 1000 ∧
  (∀ n, n < 3 → State.reset.rd (CYC_EPOCH_CTRL_LEAD n) = 8) ∧ State.reset.rd TIME_UTC_OFS_OFFSET = 37 ∧
  State.reset.rd TIME_THRESH_STEP_THR = 1000 ∧ State.reset.rd ATU_CTRL_WALK_TO = 10 ∧ State.reset.rd DPI_AUX_CTRL_FWD_TO_US = 3200 ∧
  State.reset.rd DPO_CTRL_CAMEO_TO_MS = 200 ∧ State.reset.rd FAC_CRASH_LIMIT_WINDOW_S = 60 ∧ State.reset.rd FAC_CRASH_LIMIT_LIMIT = 3 ∧
  State.reset.rd BZL_RSHUNT_UOHM = 10000 ∧ State.reset.rd BZL_OR_CTRL_OV = 124 ∧ State.reset.rd BZL_OR_CTRL_UV = 33 ∧
  State.reset.rd SVC_TC_CTRL_DRP_PERIOD = 75 ∧ State.reset.rd PWR_PS_CTRL_ENTRY_TO = 10 ∧ State.reset.rd PWR_WAKE_EN_SRC = 255 ∧
  State.reset.rd PWR_VIGIL_PERIOD_MS = 10 ∧ State.reset.rd SEC_LINK_ROT_HOURS = 24 ∧ State.reset.rd BOOT_LEDGER_CFG_THRESH = 2 ∧
  State.reset.rd REC_CTRL_FLUSH_THR = 32 ∧ State.reset.rd REC_CTRL_FLUSH_MS = 1000 ∧
  (∀ n, n < 39 → (State.reset.word (PG_ISR n).addr).toNat = 0 ∧ (State.reset.word (PG_IER n).addr).toNat = 0 ∧
    State.reset.on (PG_CTRL_EN n) = false)

/-- Every step of every state completes, takes one command, and takes back no output. In every state, whatever it holds, a step
answers a next state: no command faults or is refused. The next state has the queue's rest waiting, its output begins with the
output before, and its count of free values has not gone back, so that no free value is used for two answers. -/
def Obligations.EveryStepCompletes : Prop :=
  ∀ s : State, ∃ t, step s = .next t ∧ t.pending = s.pending.tail ∧ s.out <+: t.out ∧ s.fresh ≤ t.fresh

/-- Every step keeps the word store in its canonical form, so that equal register contents are equal data. For every state whose
word store is canonical (addresses strictly rising, no entry equal to what an unlisted address reads as), if a step answers a next
state, the word store of the next state is canonical. Any two canonical stores that read the same at every address are the same
data, so that after a step states with equal registers have equal stores. Where the spec is silent it follows the model: log entry
10. -/
def Obligations.StepKeepsCanonicalWords : Prop :=
  (∀ s t : State, s.wf = true → step s = .next t → t.wf = true) ∧
  (∀ s s' t t' : State, s.wf = true → s'.wf = true → step s = .next t → step s' = .next t' → (∀ a, t.word a = t'.word a) →
    t.words = t'.words)

/-- Every command leaves alone each part of the machine that it does not touch. For every command c and every state s, if exec of c
answers a next state, then each part of the hidden state that touches c does not list is the same in it: link ports, contexts,
girdle, scheduler, DMA, bridges, engines, displays, USB, station services, bezel, service port, security and boot state, recorder,
time base, power states. The queue is left alone by every command. -/
def Obligations.FramesByPart : Prop :=
  ∀ (c : Instr) (s t : State), exec c s = .next t → t.pending = s.pending ∧ ∀ p : Part, p ∉ touches c → p.same s t

/-- Register writes, semaphore accesses, SYS_RST, the watchdog kick and the remote interrupt bit complete with the result of their
rules. For an access that reaches its word (D0 is up, no earlier access of its path to the page is open, and behind the page header
the block is not wedged and its domain is on). REGISTER_WRITE of a defined word whose checks give code 0 stores the word with its
effects and completes with code 0; with another code c it is rejected with c and stores nothing; of an undefined word or of a
reserved page it completes and changes nothing; of a read-only header word it is rejected with code 2 (R9, R10, R35–R37).
PG_IFR_WRITE sets the written bits of PG_ISR that the page defines (R40). SEM_READ answers the word as it was and takes a free
semaphore for the path; SEM_RELEASE frees it, IF then reads 0 (R44). SYS_RST with the key and WARM = 1 restarts the chip at B1 when
no final commit runs, its write having completed; with another value it is rejected with code 1 (R7, R46). WDT_KICK of 0xC3C3
restarts the count from PERIOD_MS, of another value it is rejected with code 1 (R47). REMOTE_INT_UPDATE of chip n at the crown sets
or clears bit n - 1 of REMOTE_INT and no other register (R42). A reset that a final commit held back follows the completion of each.
Where the spec is silent it follows the model: log entries 12, 13, 14, 17, 22, 113, 114. It concludes, under conditions on state and
operands alone, that exec answers a next state for: registerWrite, pgIfrWrite, remoteIntUpdate, semRead, semRelease, sysRst,
wdtKick. -/
def Obligations.RegisterAccessCommands : Prop :=
  (∀ s p a v, Reaches s p (wordAddr a) → wordAddr a / 0x1000 < 39 → 0x40 ≤ wordAddr a % 0x1000 → rowsAt (wordAddr a) ≠ [] →
    s.writeCode p (wordAddr a) (v % 2 ^ 32) = 0 →
    exec (.registerWrite p a v) s = .next (accepted s (s.wordStored p (wordAddr a) (v % 2 ^ 32)) p (wordAddr a)).rstDue) ∧
  (∀ s p a v c, Reaches s p (wordAddr a) → wordAddr a / 0x1000 < 39 → 0x40 ≤ wordAddr a % 0x1000 → rowsAt (wordAddr a) ≠ [] →
    s.writeCode p (wordAddr a) (v % 2 ^ 32) = c → c ≠ 0 →
    exec (.registerWrite p a v) s = .next (s.reject p (wordAddr a) c (v % 2 ^ 32)).rstDue) ∧
  (∀ s p a v, Reaches s p (wordAddr a) → wordAddr a / 0x1000 < 39 → 0x40 ≤ wordAddr a % 0x1000 → rowsAt (wordAddr a) = [] →
    exec (.registerWrite p a v) s = .next (s.wrote p (wordAddr a)).rstDue) ∧
  (∀ s p a v, Reaches s p 0 → 39 ≤ wordAddr a / 0x1000 →
    exec (.registerWrite p a v) s = .next (s.wrote p (wordAddr a)).rstDue) ∧
  (∀ s p a v, Reaches s p (wordAddr a) → wordAddr a / 0x1000 < 39 → wordAddr a % 0x1000 < 0x40 → headerRw (wordAddr a % 0x1000) = false →
    exec (.registerWrite p a v) s = .next (s.reject p (wordAddr a) 2 (v % 2 ^ 32)).rstDue) ∧
  (∀ s p n v, Reaches s p (0x1000 * n + 0x18) → n < 39 → exec (.pgIfrWrite p n v) s =
    .next (accepted s (s.setIsr n (v % 2 ^ 32 &&& isrMask n)) p (0x1000 * n + 0x18)).rstDue) ∧
  (∀ s p n, n < 32 → Reaches s p (SYS_SEM_HELD n).addr → s.on (SYS_SEM_HELD n) = false →
    exec (.semRead p n) s = .next (((s.flag (SYS_SEM_HELD n) true).wr (SYS_SEM_IF n) p.num).readBack p (SYS_SEM_HELD n).addr
      (s.word (SYS_SEM_HELD n).addr).toNat)) ∧
  (∀ s p n, n < 32 → Reaches s p (SYS_SEM_HELD n).addr → s.on (SYS_SEM_HELD n) = true →
    exec (.semRead p n) s = .next (s.readBack p (SYS_SEM_HELD n).addr (s.word (SYS_SEM_HELD n).addr).toNat)) ∧
  (∀ s p n, n < 32 → Reaches s p (SYS_SEM_HELD n).addr → s.chip.rstHeld = none →
    Yields (.semRelease p n) s fun t => t.on (SYS_SEM_HELD n) = false ∧ t.rd (SYS_SEM_IF n) = 0 ∧ Out.complete p 0 0 ∈ t.out) ∧
  (∀ s p v, Reaches s p SYS_RST_KEY.addr → v % 2 ^ 17 = 0x15A5A → s.chip.finalRun = false → v < 2 ^ 17 →
    Yields (.sysRst p v) s fun t => t.step_ = 1 ∧ t.chip.rstHeld = none ∧ Out.complete p 0 0 ∈ t.out) ∧
  (∀ s p v, Reaches s p SYS_RST_KEY.addr → v % 2 ^ 17 ≠ 0x15A5A →
    exec (.sysRst p v) s = .next (s.reject p SYS_RST_KEY.addr 1 (v % 2 ^ 32)).rstDue) ∧
  (∀ s p, Reaches s p SYS_WDT_KICK.addr → s.on SYS_WDT_CTRL_EN = true → s.chip.rstHeld = none →
    Yields (.wdtKick p 0xC3C3) s fun t => t.chip.wdtEnd = s.elapsed + s.rd SYS_WDT_CTRL_PERIOD_MS * 1000000 ∧ Out.complete p 0 0 ∈ t.out) ∧
  (∀ s p v, Reaches s p SYS_WDT_KICK.addr → v % 2 ^ 32 ≠ 0xC3C3 →
    exec (.wdtKick p v) s = .next (s.reject p SYS_WDT_KICK.addr 1 (v % 2 ^ 32)).rstDue) ∧
  (∀ s n c, s.crown = true → 1 ≤ n → n ≤ 14 → s.chip.d0Up = true →
    Yields (.remoteIntUpdate n c) s fun t => t.bit SYS_REMOTE_INT (n - 1) = c ∧ SameWords [SYS_REMOTE_INT.addr] s t)

/-- Remote, framed and stalled accesses, management records and step B6 complete with the result of their rules. REMOTE_ACCESS
through an enabled window to a chip of the tree sends the request and waits, through another it ends with code 7; on MSPI and the
service port it is routed by its chip number; a sent request has the next number (R48–R50). REMOTE_ANSWER ends the access of its
number with the code, and for a read that succeeded the data; without such an access it changes nothing; REMOTE_ACCESS_TIMEOUT ends
it as unreachable (R50). REMOTE_AGENT_ACCESS makes the access with the path of the agent (R50). MSPI_REQUEST of ten bytes or more
with a bad CRC only counts it, and answers 0xE0 where the controller clocks a response; with a good CRC and the byte of a read or a
write it is routed, its response awaited only where it is clocked; fewer bytes, and MSPI_DESELECT_EARLY, change nothing (R51, R52).
MGMT_PIPE_TRANSFER and SVC_MGMT of whole records queue them and run them in order; SVC_MGMT of another length is answered with the
error byte 1 and changes no register (R251, R406). DOMAIN_UP of a domain that rises sets it up and makes the accesses that waited
for its pages in order; DOMAIN_WAKE_ACCESS to a sleeping page stalls; DOMAIN_WAKE_TIMEOUT ends those accesses: those that need the
domain with code 4, those of the page header are made (R53). BOOT_B6_CONFIGURATION with an alternative of B6 or boot selection 2
extends MR4 with the empty string and goes to step 7; without a valid region it fails with 0xD; else it extends MR4 with the region
and applies its entries in order (R400). Where the spec is silent it follows the model: log entries 12, 18, 20, 21, 98. It
concludes, under conditions on state and operands alone, that exec answers a next state for: mspiRequest, mspiDeselectEarly,
remoteAccess, remoteAgentAccess, remoteAnswer, remoteAccessTimeout, domainWakeAccess, domainWakeTimeout, mgmtPipeTransfer,
bootB6Configuration, svcMgmt, domainUp. -/
def Obligations.RemoteAndManagementCommands : Prop :=
  (∀ s n o w, s.chip.d0Up = true → s.crown = true → n < 4 → s.on (SYS_REMWIN_EN n) = true →
    s.chip.tree.any (fun e => e.1 == s.rd (SYS_REMWIN_CHIP n)) = true →
    exec (.remoteAccess .pcie n o w) s = .next (s.remoteSend (s.rd (SYS_REMWIN_CHIP n)) ⟨.pcie, wordAddr o, w.isSome, w.getD 0 % 2 ^ 32⟩)) ∧
  (∀ s n o w, s.chip.d0Up = true → s.crown = true → n < 4 → s.on (SYS_REMWIN_EN n) = false →
    exec (.remoteAccess .pcie n o w) s = .next (s.unreachable ⟨.pcie, wordAddr o, w.isSome, w.getD 0 % 2 ^ 32⟩)) ∧
  (∀ s p n o w, s.chip.d0Up = true → p = .mspi ∨ p = .service → n < 16 →
    exec (.remoteAccess p n o w) s = .next (s.route p (n * 2 ^ 18 + o % 2 ^ 18) w.isSome (w.getD 0) (fun _ s => s)).rstDue) ∧
  (∀ (s : State) c x, s.engUp 5 = true → (s.remoteSend c x).chip.remote = s.chip.remote ++ [⟨s.chip.remoteNext, c, x⟩] ∧
    Out.mgmt c 3 [s.chip.remoteNext, x.addr, x.isWrite.toNat, x.data] ∈ (s.remoteSend c x).out) ∧
  (∀ s i c d r, s.chip.remote.find? (fun r => r.id == i) = some r →
    exec (.remoteAnswer i c d) s = .next (((s.modChip (fun u => { u with remote := u.remote.filter (fun e => e.id != i) })).complete
      r.acc.path r.acc.addr r.acc.isWrite c (if c = 0 ∧ !r.acc.isWrite then d else 0)).mgmtGo)) ∧
  (∀ s i r, s.chip.remote.find? (fun r => r.id == i) = some r →
    exec (.remoteAccessTimeout i) s = .next (((s.modChip (fun u => { u with remote := u.remote.filter (fun e => e.id != i) })).unreachable
      r.acc).mgmtGo)) ∧
  (∀ s i c d, s.chip.remote.find? (fun r => r.id == i) = none → exec (.remoteAnswer i c d) s = .next s) ∧
  (∀ s f i a w, s.engUp 5 = true → s.chip.d0Up = true →
    exec (.remoteAgentAccess f i a w) s = .next ((s.modChip (fun c =>
      { c with agent := c.agent ++ [(f, i, ⟨.remote, wordAddr a, w.isSome, w.getD 0 % 2 ^ 32⟩)] })).perform
      ⟨.remote, wordAddr a, w.isSome, w.getD 0 % 2 ^ 32⟩)) ∧
  (∀ s b, s.chip.d0Up = true → 10 < b.length → beNat ((b.drop 9).take 1) ≠ crc8 (b.take 9) →
    Yields (.mspiRequest b) s fun t => t.rd SYS_MSPI_CRCERR = min 65535 (s.rd SYS_MSPI_CRCERR + 1) ∧
      SameWords [SYS_MSPI_CRCERR.addr] s t ∧ t.out = s.out ++ [.mspi (mspiFrame 0xE0 0)]) ∧
  (∀ s b, s.chip.d0Up = true → b.length = 10 → beNat ((b.drop 9).take 1) ≠ crc8 (b.take 9) →
    Yields (.mspiRequest b) s fun t => t.rd SYS_MSPI_CRCERR = min 65535 (s.rd SYS_MSPI_CRCERR + 1) ∧
      SameWords [SYS_MSPI_CRCERR.addr] s t ∧ t.out = s.out) ∧
  (∀ s b, s.chip.d0Up = true → 10 ≤ b.length → beNat ((b.drop 9).take 1) = crc8 (b.take 9) → beNat ((b.take 9).take 1) = 2 ∨ beNat ((b.take 9).take 1) = 3 →
    exec (.mspiRequest b) s = .next (((s.modChip (fun c => { c with mspi := c.mspi.map (fun e => (e.1, false)) })).route .mspi
      (beNat (((b.take 9).drop 1).take 4)) (beNat ((b.take 9).take 1) == 2) (beNat ((b.take 9).drop 5))
      (fun x s => s.modChip (fun c => { c with mspi := c.mspi ++ [(x, decide (10 < b.length))] }))).rstDue)) ∧
  (∀ s b, b.length < 10 → exec (.mspiRequest b) s = .next s) ∧
  (∀ s, exec .mspiDeselectEarly s = .next s) ∧
  (∀ s d, s.iface 0 = true → s.on USBD_STATUS_SUSPENDED = false → s.chip.mgmt = [] → mgmtWhole d = true →
    exec (.mgmtPipeTransfer d true) s = .next (((s.modUsb (fun u => { u with mgmtWait := false })).modChip (fun c =>
      { c with mgmt := c.mgmt ++ [{ left := mgmtCut d }] })).mgmtGo)) ∧
  (∀ s q d, s.uartUp = true → s.boot.uartLast = none → mgmtWhole d = false →
    Yields (.svcMgmt q d) s fun t => t.out = s.out ++ [.svcUart 0x81 q [1]] ∧ SameWords [] s t) ∧
  (∀ s q d, s.uartUp = true → s.boot.uartLast = none → mgmtWhole d = true → s.chip.mgmt = [] →
    exec (.svcMgmt q d) s = .next ((s.modChip (fun c => { c with mgmt := c.mgmt ++ [{ left := mgmtCut d, uart := some q }] })).mgmtGo)) ∧
  (∀ s d, (s.dom d).phase = .rising → s.chip.d0Up = true →
    exec (.domainUp d) s = .next (foldS ((s.domainUp d).chip.stalled.filter (ofDom d)) (fun s x => s.perform x)
      ((s.domainUp d).modChip (fun c => { c with stalled := c.stalled.filter (fun x => !ofDom d x) }))).mgmtGo) ∧
  (∀ s p a w, s.chip.d0Up = true → wordAddr a / 0x1000 < 39 → 0x40 ≤ wordAddr a % 0x1000 →
    (s.open_ (wordAddr a / 0x1000)).any (fun y => y.path == p) = false →
    s.on (PG_STATE_DOMAIN_UP (wordAddr a / 0x1000)) = false → s.on (PG_STATE_WEDGED (wordAddr a / 0x1000)) = false →
    exec (.domainWakeAccess p a (some w)) s = .next (s.stall (writeAcc p a w)).rstDue) ∧
  (∀ s d, s.domOn d = false →
    exec (.domainWakeTimeout d) s = .next (foldS (s.chip.stalled.filter (ofDom d)) (fun s x => s.wakeEnd x)
      (s.modChip (fun c => { c with stalled := c.stalled.filter (fun x => !ofDom d x) }))).mgmtGo) ∧
  (∀ s, s.step_ = 6 → s.on BOOT_STATUS_LOADER = false → s.svc.reduced = false → s.altOn 6 = true ∨ s.rd BOOT_STATUS_BOOTSEL = 2 →
    exec .bootB6Configuration s = .next ((s.mrExtend 4 []).enterStep 7)) ∧
  (∀ s, s.step_ = 6 → s.on BOOT_STATUS_LOADER = false → s.svc.reduced = false → s.altOn 6 = false → s.rd BOOT_STATUS_BOOTSEL ≠ 2 →
    s.cfgCount = none → exec .bootB6Configuration s = .next ((s.bootFail 6 0xD).wr BOOT_CFG_STATUS_REASON 0xD)) ∧
  (∀ s n, s.step_ = 6 → s.on BOOT_STATUS_LOADER = false → s.svc.reduced = false → s.altOn 6 = false → s.rd BOOT_STATUS_BOOTSEL ≠ 2 →
    s.cfgCount = some n → exec .bootB6Configuration s =
      .next (State.cfgApply (List.range n) ((s.wr BOOT_CFG_STATUS_REASON 0).mrExtend 4 (s.cfgBytes (4 + 2 * n + 1)))))

/-- The training commands of a port from DETECT to the end of EQUALIZE complete with the state, the registers and the beacons of
their rules. In native mode TERMINATION_SENSE of both pairs takes a port in DETECT to GLINT and sends a glint; one pair records
cause 4 once (R64; log entry 118); in 1040 mode the pair of lane 0 takes it to EQUALIZE at rate 1. TRAINING_TIMEOUT fails a state
other than PARKED and CYCLE with cause 1 (R65, R69). RATE_CHANGE_DONE shows the chosen rate and enters EQUALIZE with
LNK_EQ.TX_PRESET in use and neither end done. EQ_REQ makes the transmitter of the lane take the preset and sends EQ_ACK; EQ_ACK
notes that the measurement of the preset runs; EQ_PRESET_MEASURED of a better eye before the last preset keeps and shows it and asks
for the next preset; EQ_ADAPT_DONE after the sweep with both eyes at or above the margin sends EQ_DONE with the best presets and
waits for the far end. EQ_DONE when this end is done enters LOCK, with the presets of the message where the far end asked for
presets and with unchanged presets where it did not (R67). Where a clause names the words that change, every other register word is
the same. Where the spec is silent it follows the model: log entry 118. It concludes, under conditions on state and operands alone,
that exec answers a next state for: terminationSense, trainingTimeout, rateChangeDone, eqReq, eqAck, eqPresetMeasured, eqAdaptDone,
eqDone. -/
def Obligations.LaneTrainingCompletes : Prop :=
  (∀ s n, s.inT n tDetect = true → s.mode1040 n = false →
    Yields (.terminationSense n true true) s fun t => t.rd (LNK_STATUS_TSTATE n) = tGlint ∧ Out.glint n ∈ t.out ∧
      SameWords [(LNK_STATUS_TSTATE n).addr] s t) ∧
  (∀ s n, s.inT n tDetect = true → s.mode1040 n = false → (s.tr n).pairWarned = false →
    Yields (.terminationSense n true false) s fun t =>
      t.rd (LNK_FAIL_CAUSE n) = 4 ∧ t.rd (LNK_FAIL_STATE n) = tDetect ∧ (t.tr n).pairWarned = true ∧
        SameWords [(LNK_FAIL_CAUSE n).addr] s t) ∧
  (∀ s n, s.training n = true → s.tstate n ≠ tParked → s.tstate n ≠ tCycle →
    exec (.trainingTimeout n) s = .next (s.trainFail n 1 (s.tstate n))) ∧
  (∀ s n r, s.inT n tSpeed = true → (s.tr n).chosen = some r → r < 3 →
    Yields (.rateChangeDone n) s fun t => t.rd (LNK_STATUS_SPEED n) = r ∧ t.rd (LNK_STATUS_TSTATE n) = tEqualize ∧
      (t.tr n).eqSelf = false ∧ (t.tr n).eqFar = false ∧ t.rd (LNK_STATUS_TX_PRESET n) = s.rd (LNK_EQ_TX_PRESET n).inForce ∧
      SameWords [(LNK_STATUS_SPEED n).addr, (LNK_STATUS_TX_PRESET n).addr] s t) ∧
  (∀ s n preset, s.inT n tEqualize = true →
    Yields (.eqReq n 0 preset) s fun t => t.rd (LNK_STATUS_TX_PRESET n) = preset % 16 ∧ Out.beacon n 3 [0, preset % 16] ∈ t.out ∧
      SameWords [(LNK_STATUS_TX_PRESET n).addr] s t) ∧
  (∀ s n lane preset, s.inT n tEqualize = true → lane ≠ 0 →
    Yields (.eqReq n lane preset) s fun t => (t.tr n).txPreset1 = preset % 16 ∧ Out.beacon n 3 [lane, preset % 16] ∈ t.out ∧
      SameWords [] s t) ∧
  (∀ s n preset, s.inT n tEqualize = true →
    Yields (.eqAck n 0 preset) s fun t => (t.tr n).run0 = some (preset % 16) ∧ SameWords [] s t) ∧
  (∀ s n eye p, s.inT n tEqualize = true → (s.tr n).run0 = some p → p < 15 → eye < 256 → (s.tr n).best0.1 < eye →
    Yields (.eqPresetMeasured n 0 eye) s fun t => t.rd (LNK_EQ_EYE0 n) = eye ∧ (t.tr n).best0 = (eye, p) ∧
      Out.beacon n 2 [0, p + 1] ∈ t.out ∧ SameWords [(LNK_EQ_EYE0 n).addr] s t) ∧
  (∀ s n e0 e1, s.inT n tEqualize = true → s.mode1040 n = false → s.on (LNK_CTRL_FIXED_EQ n).inForce = false →
    (s.tr n).sweep0 = true → (s.tr n).sweep1 = true → (s.tr n).eqSelf = false → 77 ≤ s.rd (LNK_EQ_EYE0 n) →
    77 ≤ s.rd (LNK_EQ_EYE1 n) → (s.tr n).eqFar = false →
    Yields (.eqAdaptDone n e0 e1) s fun t => (t.tr n).eqSelf = true ∧
      Out.beacon n 4 [(s.tr n).best0.2, (s.tr n).best1.2] ∈ t.out ∧ t.rd (LNK_STATUS_TSTATE n) = tEqualize) ∧
  (∀ s n p0 p1, s.inT n tEqualize = true → (s.tr n).eqSelf = true → (s.tr n).asked = true →
    Yields (.eqDone n p0 p1) s fun t => t.rd (LNK_STATUS_TX_PRESET n) = p0 % 16 ∧ (t.tr n).txPreset1 = p1 % 16 ∧
      t.rd (LNK_STATUS_TSTATE n) = tLock) ∧
  (∀ s n p0 p1, s.inT n tEqualize = true → (s.tr n).eqSelf = true → (s.tr n).asked = false →
    Yields (.eqDone n p0 p1) s fun t => t.rd (LNK_STATUS_TX_PRESET n) = s.rd (LNK_STATUS_TX_PRESET n) ∧
      (t.tr n).txPreset1 = (s.tr n).txPreset1 ∧ t.rd (LNK_STATUS_TSTATE n) = tLock) ∧
  (∀ s n pair1, s.inT n tDetect = true → s.mode1040 n = true →
    Yields (.terminationSense n true pair1) s fun t => t.rd (LNK_STATUS_SPEED n) = 1 ∧ t.rd (LNK_STATUS_TSTATE n) = tEqualize)

/-- A training failure records its cause and its state and is announced, whatever follows from it. TRAINING_TIMEOUT (cause 1),
FAIL_BEACON (the cause and the state that it names), SPEED_BEACON without a common rate (2), LOCK_DONE with a skew above 64 UI in
native mode (3), and EQ_ADAPT_DONE after the sweep with the eye of lane 0 below 77/256 UI (5) each fail the state of training (R69):
the cause and the state stand in LNK_FAIL, the FAIL beacon with them is sent, the port is failing, and the output only grows, in
every state of the port in which the command acts. It concludes, under conditions on state and operands alone, that exec answers a
next state for: trainingTimeout, speedBeacon, eqAdaptDone, lockDone, failBeacon. -/
def Obligations.TrainingFailureRecorded : Prop :=
  let failed (s t : State) (n cause st : Nat) : Prop :=
    t.rd (LNK_FAIL_CAUSE n) = cause ∧ t.rd (LNK_FAIL_STATE n) = st ∧ Out.beacon n 8 [cause, st] ∈ t.out ∧
      (t.tr n).failing = true ∧ s.out <+: t.out
  (∀ s n, s.training n = true → s.tstate n ≠ tParked → s.tstate n ≠ tCycle →
    Yields (.trainingTimeout n) s fun t => failed s t n 1 (s.tstate n)) ∧
  (∀ s n cause st, s.training n = true → cause < 256 → st < 16 →
    Yields (.failBeacon n cause st) s fun t => failed s t n cause st) ∧
  (∀ s n rates ceil km strap, s.inT n tSpeed = true → (s.tr n).chosen = none → rates % 8 = 0 →
    Yields (.speedBeacon n rates ceil km strap) s fun t => failed s t n 2 tSpeed) ∧
  (∀ s n sw inv skew, s.inT n tLock = true → s.mode1040 n = false → 64 < skew →
    Yields (.lockDone n sw inv skew) s fun t => failed s t n 3 tLock) ∧
  (∀ s n e0 e1, s.inT n tEqualize = true → s.mode1040 n = false → s.on (LNK_CTRL_FIXED_EQ n).inForce = false →
    (s.tr n).sweep0 = true → (s.tr n).sweep1 = true → (s.tr n).eqSelf = false → s.rd (LNK_EQ_EYE0 n) < 77 →
    Yields (.eqAdaptDone n e0 e1) s fun t => failed s t n 5 tEqualize)

/-- The commands of LOCK, RANGE and ROLE and the role-swap messages act as the link rules say. LOCK_DONE with a skew of at most 64
UI shows swap, inversion and skew and enters RANGE afresh; in 1040 mode it enters ROLE and sends the ROLE beacon. RANGE_MEASUREMENT
sends the next of 64 requests. RANGE_BEACON of a request is answered with the arrival and the time; of a valid response before the
last keeps the delay; the last, with 48 delays or more that spread by at most 64 quarter nanoseconds, seeds the ranging filter and
enters ROLE (R68). PARKED_BEACON_TIMER sends the ROLE beacon with which the port parked, or enters ROLE again where it has changed
(R71). ROLE_BEACON in ROLE shows the peer and keeps its beacon; then, as R71 decides, the port parks and sends its beacon as parked,
goes on from ROLE as parent or child, or, at equal unit IDs, fails with cause 7. On an ACTIVE native link. SWAP_REQ is accepted;
with no swap pending and the link manager running it sends the request for the cycle four ahead and shows it pending;
ROLE_SWAP_RESEND sends the request again. ROLE_SWAP_REQ_MSG without a pending swap is accepted, or refused with the reason that R72
gives (log entry 121); against an own request of the same cycle both are abandoned, LAST_RESULT reads 2, the collision is counted,
and only the lower unit ID sends again; against an own earlier one it is refused as busy. ROLE_ACCEPT of the pending cycle confirms
the swap; ROLE_REFUSE ends it with LAST_RESULT 3. ROLE_SWAP at the cycle of a confirmed swap, with no time step that moves it: the
crown becomes a pavilion at depth 1 below the port, its number 0 until it is told; a pavilion becomes the crown, number 0 at depth
0; each reads LAST_RESULT 1 and has no swap pending. Where the spec is silent it follows the model: log entries 119, 120, 121. It
concludes, under conditions on state and operands alone, that exec answers a next state for: lockDone, rangeMeasurement,
rangeBeacon, roleBeacon, parkedBeaconTimer, swapReq, roleSwapReqMsg, roleSwapResend, roleAccept, roleRefuse, roleSwap. -/
def Obligations.RangingAndRoles : Prop :=
  (
    (∀ s n sw inv skew, s.inT n tLock = true → s.mode1040 n = false → skew ≤ 64 →
      Yields (.lockDone n sw inv skew) s fun t => t.rd (LNK_STATUS_TSTATE n) = tRange ∧ t.on (LNK_STATUS_LANES_SWAPPED n) = sw ∧
        t.rd (LNK_STATUS_RX_INV n) = inv % 4 ∧ t.rd (LNK_STATUS_SKEW_UI n) = skew ∧ (t.tr n).rangeSent = 0 ∧ (t.tr n).rangeVals = [] ∧
        SameWords [(LNK_STATUS_TSTATE n).addr] s t) ∧
    (∀ s n sw inv skew, s.inT n tLock = true → s.mode1040 n = true →
      Yields (.lockDone n sw inv skew) s fun t => t.rd (LNK_STATUS_TSTATE n) = tRole ∧ Out.roleBeacon n (s.ownRole n) 0 ∈ t.out ∧
        SameWords [(LNK_STATUS_TSTATE n).addr] s t) ∧
    (∀ s n, s.inT n tRange = true → (s.tr n).rangeSent < 64 →
      Yields (.rangeMeasurement n) s fun t => (t.tr n).rangeSent = (s.tr n).rangeSent + 1 ∧
        Out.beacon n 5 [(s.tr n).rangeSent, 0, s.now64] ∈ t.out ∧ SameWords [] s t) ∧
    (∀ s n i v t1 t2 t3 t4, s.inT n tRange = true →
      Yields (.rangeBeacon n i false v t1 t2 t3 t4) s fun t => Out.beacon n 5 [i, 1, stamp64 t4, s.now64] ∈ t.out ∧ SameWords [] s t) ∧
    (∀ s n i t1 t2 t3 t4, s.inT n tRange = true → i < 63 →
      Yields (.rangeBeacon n i true true t1 t2 t3 t4) s fun t =>
        (t.tr n).rangeVals = (s.tr n).rangeVals ++ [((t4 + t2) - (t1 + t3)) / 2] ∧ SameWords [] s t) ∧
    (∀ s n t1 t2 t3 t4, s.inT n tRange = true → 48 ≤ (s.tr n).rangeVals.length → spread (s.tr n).rangeVals ≤ 64 →
      exec (.rangeBeacon n 63 true false t1 t2 t3 t4) s = .next ((s.seedRange n (s.tr n).rangeVals).enterRole n)) ∧
    (∀ s n, s.inT n tParked = true → (s.tr n).parkedAs = some (s.ownRole n) →
      Yields (.parkedBeaconTimer n) s fun t => Out.roleBeacon n (s.ownRole n) 3 ∈ t.out ∧ SameWords [] s t) ∧
    (∀ s n b, s.inT n tRole = true → decideRole (s.ownRole n) b = (.parked, false, false) →
      Yields (.roleBeacon n b) s fun t => t.rd (LNK_STATUS_TSTATE n) = tParked ∧ Out.roleBeacon n (s.ownRole n) 3 ∈ t.out ∧
        (t.tr n).farRole = some b ∧ (t.tr n).parkedAs = some (s.ownRole n)) ∧
    (∀ s n b, s.inT n tRole = true → b.unitId = s.chip.unitId →
      exec (.roleBeacon n b) s = .next ((((s.showPeer n b).modTr n (fun t => { t with farRole := some b })).trainFail n 7 tRole))) ∧
    (∀ s n, s.inT n tParked = true → (s.tr n).parkedAs ≠ some (s.ownRole n) →
      Yields (.parkedBeaconTimer n) s fun t => t.rd (LNK_STATUS_TSTATE n) = tRole ∧ Out.roleBeacon n (s.ownRole n) 0 ∈ t.out ∧
        SameWords [(LNK_STATUS_TSTATE n).addr] s t) ∧
    (∀ s n b twin second, s.inT n tRole = true → decideRole (s.ownRole n) b = (.parent, twin, second) →
      exec (.roleBeacon n b) s = .next (((((s.showPeer n b).modTr n (fun t => { t with farRole := some b })).asParent n twin second).emit
        (.roleBeacon n (s.ownRole n) 1)).afterRole n)) ∧
    (∀ s n b twin second, s.inT n tRole = true → decideRole (s.ownRole n) b = (.child, twin, second) →
      exec (.roleBeacon n b) s = .next (((((s.showPeer n b).modTr n (fun t => { t with farRole := some b })).asChild n twin second b).emit
        (.roleBeacon n (s.ownRole n) 2)).afterRole n))) ∧
  (
    (∀ s n, s.native n = true → (s.tr n).swapResend = true →
      Yields (.roleSwapResend n) s fun t => (t.tr n).swap = some ⟨cycAdd s.cycle 4, s.cycle, true, false⟩ ∧
        (t.tr n).swapResend = false ∧ t.on (LNK_ROLE_CTRL_SWAP_PENDING n) = true ∧
        (t.ep n).units = (s.ep n).units ++ [.role 1 0 (cycAdd s.cycle 4) s.chip.unitId s.cycle] ∧
        SameWords [(LNK_ROLE_CTRL_SWAP_PENDING n).addr] s t) ∧
    (∀ s n cyc unit sent, s.native n = true → (s.tr n).swap = none → s.swapRefusal n cyc sent = 0 →
      Yields (.roleSwapReqMsg n cyc unit sent) s fun t => (t.tr n).swap = some ⟨cyc, sent, false, true⟩ ∧
        t.on (LNK_ROLE_CTRL_SWAP_PENDING n) = true ∧ (t.ep n).units = (s.ep n).units ++ [.role 2 0 cyc s.chip.unitId sent] ∧
        SameWords [(LNK_ROLE_CTRL_SWAP_PENDING n).addr] s t) ∧
    (∀ s n cyc unit sent, s.native n = true → (s.tr n).swap = none → s.swapRefusal n cyc sent ≠ 0 →
      Yields (.roleSwapReqMsg n cyc unit sent) s fun t => (t.tr n).swap = none ∧ SameWords [] s t ∧
        (t.ep n).units = (s.ep n).units ++ [.role 3 (s.swapRefusal n cyc sent) cyc s.chip.unitId sent]) ∧
    (∀ s n cyc unit c sent, s.native n = true → (s.tr n).swap = some ⟨c, sent, true, false⟩ →
      Yields (.roleSwapReqMsg n cyc unit sent) s fun t => t.rd (LNK_ROLE_CTRL_LAST_RESULT n) = 2 ∧ (t.tr n).swap = none ∧
        (t.tr n).swapResend = decide (s.chip.unitId < unit) ∧
        t.on (LNK_ROLE_CTRL_SWAP_PENDING n) = decide (s.chip.unitId < unit) ∧
        t.rd (LNK_ROLE_CNT_COLLIDE n) = (s.rd (LNK_ROLE_CNT_COLLIDE n) + 1) % 65536) ∧
    (∀ s n c sent, s.native n = true → (s.tr n).swap = some ⟨c, sent, true, false⟩ →
      Yields (.roleAccept n c) s fun t => (t.tr n).swap = some ⟨c, sent, true, true⟩ ∧ SameWords [] s t) ∧
    (∀ s n c sent, s.native n = true → (s.tr n).swap = some ⟨c, sent, true, false⟩ →
      Yields (.roleRefuse n) s fun t => (t.tr n).swap = none ∧ t.rd (LNK_ROLE_CTRL_LAST_RESULT n) = 3 ∧
        t.on (LNK_ROLE_CTRL_SWAP_PENDING n) = false ∧ SameWords [(LNK_ROLE_CTRL_LAST_RESULT n).addr] s t) ∧
    (∀ s n links w, s.native n = true → (s.tr n).swap = some w → w.accepted = true → cycGe s.cycle w.cycle = true →
      s.stepMoves w.cycle = false → s.crown = true →
      Yields (.roleSwap n links) s fun t => t.on SYS_TREE_POS_CROWN = false ∧ t.rd SYS_TREE_POS_CHIP = 0 ∧ t.rd SYS_TREE_POS_DEPTH = 1 ∧
        t.rd SYS_TREE_POS_UP_PORT = n ∧ t.rd (LNK_ROLE_CTRL_LAST_RESULT n) = 1 ∧ t.on (LNK_ROLE_CTRL_SWAP_PENDING n) = false ∧
        (t.tr n).swap = none) ∧
    (∀ s n links w, s.native n = true → (s.tr n).swap = some w → w.accepted = true → cycGe s.cycle w.cycle = true →
      s.stepMoves w.cycle = false → s.crown = false →
      Yields (.roleSwap n links) s fun t => t.on SYS_TREE_POS_CROWN = true ∧ t.rd SYS_TREE_POS_CHIP = 0 ∧ t.rd SYS_TREE_POS_DEPTH = 0 ∧
        t.rd SYS_TREE_POS_UP_PORT = 3 ∧ t.rd (LNK_ROLE_CTRL_LAST_RESULT n) = 1 ∧ t.on (LNK_ROLE_CTRL_SWAP_PENDING n) = false ∧
        (t.tr n).swap = none) ∧
    (∀ s p n, s.native n = true → (s.tr n).swap = none → s.managerDown n = false → Reaches s p (LNK_ROLE_CTRL_SWAP_REQ n).addr →
      exec (.swapReq p n) s = .next (accepted s (s.sendSwapReq n) p (LNK_ROLE_CTRL_SWAP_REQ n).addr)) ∧
    (∀ s n cyc unit c own sent, s.native n = true → (s.tr n).swap = some ⟨c, own, true, false⟩ → own ≠ sent → cycLater own sent = false →
      Yields (.roleSwapReqMsg n cyc unit sent) s fun t => (t.tr n).swap = (s.tr n).swap ∧ SameWords [] s t ∧
        (t.ep n).units = (s.ep n).units ++ [.role 3 3 cyc s.chip.unitId sent]))

/-- Wake, loss, stop and retry events of a port complete as the link rules say. In S0 with the port's domain on, GLINT_RECOGNISED of
a port in GLINT counts the glint, sends one more glint and enters SPEED; ACTIVITY_RECOGNISED counts the activity and, with no entry
into a sleep state begun, changes nothing else (R62, R63). FAIL_BEACON_END returns the port to DETECT, or to HOLDOFF where the
failure takes it there; HOLDOFF_EXPIRY returns it to DETECT, with a failure count of 0 where the ceiling was at its lowest (R69).
SPEED_BEACON with a common rate chooses the highest, and with keys off at this end and not required by the far end uses no keys
(R66). LINK_LOSS takes an ACTIVE native link down with its cause: a loss condition of 1 to 3, or 4 after eight missed cycle slots;
LINK_RETRAIN takes an ACTIVE link down with cause 5 (R60, R74). PORT_STOPPING notes that the far port stops. CREDIT_UNIT replaces
the eight freed counters of a 1040 link (R75). It concludes, under conditions on state and operands alone, that exec answers a next
state for: glintRecognised, activityRecognised, failBeaconEnd, holdoffExpiry, speedBeacon, linkLoss, linkRetrain, portStopping,
creditUnit. -/
def Obligations.LinkEventsComplete : Prop :=
  (∀ s n, n < 3 → s.mode1040 n = false → s.rd PWR_PS_STATUS_STATE = 0 → s.on BOOT_STATUS_HALT = false → s.domOn (6 + n) = true →
    s.inT n tGlint = true →
    Yields (.glintRecognised n) s fun t => t.rd (LNK_WAKE_CNT_GLINT n) = (s.rd (LNK_WAKE_CNT_GLINT n) + 1) % 65536 ∧
      t.rd (LNK_STATUS_TSTATE n) = tSpeed ∧ Out.glint n ∈ t.out) ∧
  (∀ s n, n < 3 → s.rd PWR_PS_STATUS_STATE = 0 → s.on BOOT_STATUS_HALT = false → s.domOn (6 + n) = true →
    s.pwr.entryPending = false →
    Yields (.activityRecognised n) s fun t => t.rd (LNK_WAKE_CNT_ACTIVITY n) = (s.rd (LNK_WAKE_CNT_ACTIVITY n) + 1) % 65536 ∧
      SameWords [(LNK_WAKE_CNT_ACTIVITY n).addr] s t ∧ t.out = s.out) ∧
  (∀ s n, n < 3 → (s.tr n).failing = true → (s.tr n).toHoldoff = true → s.isOn (lnkPage n) = true →
    exec (.failBeaconEnd n) s = .next ((((s.dropLink n).enterDetect n).modTr n (fun t => { t with ceilReset := (s.tr n).ceilReset })).goT n tHoldoff)) ∧
  (∀ s n, n < 3 → (s.tr n).failing = true → (s.tr n).toHoldoff = false →
    exec (.failBeaconEnd n) s = .next (((s.dropLink n).enterDetect n).modTr n (fun t => { t with ceilReset := (s.tr n).ceilReset }))) ∧
  (∀ s n, s.inT n tHoldoff = true →
    Yields (.holdoffExpiry n) s fun t => t.rd (LNK_STATUS_TSTATE n) = tDetect ∧ (t.tr n).ceilReset = false ∧ (t.tr n).failing = false ∧
      ((s.tr n).ceilReset = true → t.rd (LNK_FAIL_COUNT n) = 0)) ∧
  (∀ s n rates ceil km strap r, s.inT n tSpeed = true → (s.tr n).chosen = none →
    commonRate (rates % 8) (min ceil (s.ownCeiling n)) = some r → s.rd (LNK_CTRL_KEYS_MODE n).inForce = 0 → km ≠ 2 →
    Yields (.speedBeacon n rates ceil km strap) s fun t => (t.tr n).chosen = some r ∧ (t.tr n).keysUse = false ∧
      t.rd (LNK_PEER_INFO_STRAP n) = strap % 4) ∧
  (∀ s n cause, s.active n = true → s.mode1040 n = false → 1 ≤ cause → cause ≤ 3 → (s.port n).pw.suspended = false →
    exec (.linkLoss n cause) s = .next (s.linkDown n cause)) ∧
  (∀ s n, s.active n = true → s.mode1040 n = false → 8 ≤ (s.ep n).missed → (s.port n).pw.suspended = false →
    exec (.linkLoss n 4) s = .next (s.linkDown n 4)) ∧
  (∀ s p n, s.active n = true → Reaches s p (LNK_CTRL_RETRAIN n).addr →
    exec (.linkRetrain p n) s = .next (accepted s (s.linkDown n 5) p (LNK_CTRL_RETRAIN n).addr)) ∧
  (∀ s n, s.native n = true → Yields (.portStopping n) s fun t => (t.tr n).farStopping = true ∧ SameWords [] s t) ∧
  (∀ s n freed, s.active n = true → s.mode1040 n = true → freed.length = 8 →
    Yields (.creditUnit n freed) s fun t => (t.port n).freed1040 = (List.range 8).zip (freed.map (· % 65536)) ∧ SameWords [] s t)

/-- The commands and answers of an epoch change act as its rules say. EPOCH_CHECK is accepted, places the plan and shows, as valid,
the lowest code that applies (R91, R93). EPOCH_REQ is accepted; with no change in hand the proposer's change, not sent and not
accepted, is in hand, its epoch shown, and CHECK_VALID reads 0 (R95 step 2). EPOCH_CHECKS_DONE without a code shows and proposes the
swap cycle S, LEAD cycles ahead, with RESULT and REASON 0 (log entry 125); with a code it ends the change with RESULT 2 and the code
as REASON, counted (steps 3, 4). EPOCH_WITHDRAW where it is allowed withdraws from the next cycle, else it is rejected with code 3;
EPOCH_ANSWER_TIMEOUT withdraws an unanswered one at S - 1 (step 7). ALLOT_ACCEPT of the own proposal confirms it and shows PEND 2;
ALLOT_REFUSE ends it with RESULT 3 and the reason, counted (step 6); ALLOT_WITHDRAW ends the far end's with RESULT 4.
EPOCH_SETTLE_END after cycle S + 8 forgets the swap (R98). ALLOT_PROPOSE of a new proposal with no change in hand is checked and
answered (R95 step 5); against an own proposal sent and not accepted, the parent end keeps its own and answers a refusal 0x0A, and
the child end gives its own up with RESULT 3 and REASON 0x0A and answers (R96). EPOCH_SWAP at the cycle of an accepted change that
no time step moves makes the plans active with RESULT 1 (R95 step 8). EPOCH_LATE_SWAP when it is due makes them active with RESULT
5, counted and raised, where both shadow digests equal those of the proposal, and splits the link, with RESULT 6, counted, where
that of TX differs. EPOCH_SPLIT of a link whose far epoch is one ahead with no change in hand or settling splits it with RESULT 6
(R97). Where the spec is silent it follows the model: log entries 122, 123, 124, 125, 126. It concludes, under conditions on state
and operands alone, that exec answers a next state for: allotPropose, allotAccept, allotRefuse, allotWithdraw, epochCheck, epochReq,
epochChecksDone, epochWithdraw, epochAnswerTimeout, epochSwap, epochLateSwap, epochSettleEnd, epochSplit. -/
def Obligations.EpochChangeCommands : Prop :=
  (
    (∀ s p n, n < 3 → Reaches s p (CYC_EPOCH_CTRL_CHECK n).addr →
      exec (.epochCheck p n) s = .next (accepted s (s.epochCheck n) p (CYC_EPOCH_CTRL_CHECK n).addr)) ∧
    (∀ (s : State) n, (s.epochCheck n).on (CYC_EPOCH_STATUS_CHECK_VALID n) = true ∧
      (s.epochCheck n).rd (CYC_EPOCH_STATUS_CHECK_CODE n) = (s.place n).epochChecks n false none % 128) ∧
    (∀ s p n, n < 3 → Reaches s p (CYC_EPOCH_CTRL_REQ n).addr →
      exec (.epochReq p n) s = .next (accepted s (s.epochReq n) p (CYC_EPOCH_CTRL_REQ n).addr)) ∧
    (∀ s p n, n < 3 → Reaches s p (CYC_EPOCH_CTRL_WITHDRAW n).addr → s.withdrawChk n = 0 →
      exec (.epochWithdraw p n) s = .next (accepted s (s.withdraw n (cycAdd s.cycle 1)) p (CYC_EPOCH_CTRL_WITHDRAW n).addr)) ∧
    (∀ s n c, n < 3 → (s.ep n).change = some c → c.proposer = true → c.sent = false → s.epochChecks n true none = 0 →
      Yields (.epochChecksDone n) s fun t =>
        (t.ep n).change = some { c with sent := true, body := { c.body with swap := cycAdd s.cycle (s.rd (CYC_EPOCH_CTRL_LEAD n)), prop := s.cycle } } ∧
        t.rd (CYC_EPOCH_STATUS_RESULT n) = 0 ∧ t.rd (CYC_EPOCH_STATUS_REASON n) = 0 ∧
        t.rd (CYC_SWAP_CYCLE n) = cycAdd s.cycle (s.rd (CYC_EPOCH_CTRL_LEAD n)) ∧
        t.rd (CYC_STATUS_PEND n) = if c.accepted then 2 else 1) ∧
    (∀ s n c, n < 3 → (s.ep n).change = some c → c.proposer = true → c.sent = true → c.accepted = false →
      cycGe s.cycle (cycSub c.body.swap 1) = true → exec (.epochAnswerTimeout n) s = .next (s.withdraw n s.cycle)) ∧
    (∀ s n a c, s.native n = true → (s.ep n).change = some c → c.proposer = true → c.sent = true → sameProposal c.body a = true →
      Yields (.allotAccept n a) s fun t => (t.ep n).change = some { c with accepted := true } ∧ t.rd (CYC_STATUS_PEND n) = 2 ∧
        SameWords [(CYC_STATUS_PEND n).addr] s t) ∧
    (∀ s n a c r, s.native n = true → (s.ep n).change = some c → c.proposer = true → c.sent = true → c.accepted = false →
      sameProposal c.body a = true →
      Yields (.allotRefuse n a r) s fun t => (t.ep n).change = none ∧ t.rd (CYC_EPOCH_STATUS_RESULT n) = 3 ∧
        t.rd (CYC_EPOCH_STATUS_REASON n) = r % 256 ∧ t.rd (CYC_EPOCH_CNT_REFUSED n) = (s.rd (CYC_EPOCH_CNT_REFUSED n) + 1) % 65536) ∧
    (∀ s n a c, s.native n = true → (s.ep n).change = some c → c.proposer = false → sameProposal c.body a = true →
      Yields (.allotWithdraw n a) s fun t => (t.ep n).change = none ∧ t.rd (CYC_EPOCH_STATUS_RESULT n) = 4) ∧
    (∀ s n l, n < 3 → (s.ep n).last = some l → cycLater s.cycle (cycAdd l.swap 8) = true →
      Yields (.epochSettleEnd n) s fun t => (t.ep n).last = none ∧ (t.ep n).lateDue = false ∧
        SameWords [(CYC_STATUS_PEND n).addr] s t) ∧
    (∀ s n c, n < 3 → (s.ep n).change = some c → c.proposer = true → c.sent = false → s.epochChecks n true none ≠ 0 →
      Yields (.epochChecksDone n) s fun t => (t.ep n).change = none ∧ t.rd (CYC_EPOCH_STATUS_RESULT n) = 2 ∧
        t.rd (CYC_EPOCH_STATUS_REASON n) = s.epochChecks n true none ∧
        t.rd (CYC_EPOCH_CNT_REFUSED n) = (s.rd (CYC_EPOCH_CNT_REFUSED n) + 1) % 65536) ∧
    (∀ s p n c, n < 3 → (s.ep n).change = none → Reaches s p (CYC_EPOCH_CTRL_REQ n).addr →
      Yields (.epochReq p n) s fun t => Out.complete p 0 0 ∈ t.out ∧
        t.rd (CYC_EPOCH_STATUS_EPOCH n) = (s.rd (CYC_STATUS_ACT_EPOCH n) + 1) % 256 ∧
        t.on (CYC_EPOCH_STATUS_CHECK_VALID n) = false ∧
        ((t.ep n).change = some c → c.proposer = true ∧ c.sent = false ∧ c.accepted = false) ∧ (t.ep n).change ≠ none) ∧
    (∀ s p n, n < 3 → Reaches s p (CYC_EPOCH_CTRL_WITHDRAW n).addr → s.withdrawChk n ≠ 0 →
      exec (.epochWithdraw p n) s = .next (s.reject p (CYC_EPOCH_CTRL_WITHDRAW n).addr 3
        ((s.word (CYC_EPOCH_CTRL_WITHDRAW n).addr).toNat ||| 2 ^ (CYC_EPOCH_CTRL_WITHDRAW n).lo)))) ∧
  (
    (∀ s n a, s.native n = true → (s.ep n).answered ≠ some a.prop → (s.ep n).change = none →
      exec (.allotPropose n a) s = .next (s.answerProposal n a)) ∧
    (∀ s n a c, s.native n = true → (s.ep n).answered ≠ some a.prop → (s.ep n).change = some c → c.proposer = true → c.sent = true →
      c.accepted = false → s.on (LNK_STATUS_PARENT n) = true →
      Yields (.allotPropose n a) s fun t => (t.ep n).change = some c ∧ (t.ep n).units = (s.ep n).units ++ [.allot 3 0x0A a] ∧
        (t.ep n).answered = some a.prop) ∧
    (∀ s n a c, s.native n = true → (s.ep n).answered ≠ some a.prop → (s.ep n).change = some c → c.proposer = true → c.sent = true →
      c.accepted = false → s.on (LNK_STATUS_PARENT n) = false →
      exec (.allotPropose n a) s = .next (((s.modEp n (fun e => { e with change := none })).epochRefused n 3 0x0A).answerProposal n a)) ∧
    (∀ s n c, s.native n = true → (s.ep n).change = some c → c.accepted = true → cycGe s.cycle c.body.swap = true →
      s.stepMoves c.body.swap = false → exec (.epochSwap n) s = .next
        (((s.dropChange n c).modEp n (fun e => { e with last := e.last.map (fun l => { l with swapped := true }) })).swapPlans n 1)) ∧
    (∀ s n l, s.native n = true → (s.ep n).lateDue = true → (s.ep n).split = false → (s.ep n).last = some l → l.swapped = false →
      s.digest txSh n = l.digTx → s.digest rxSh n = l.digRx →
      exec (.epochLateSwap n) s = .next ((((s.modEp n (fun e => { e with last := some { l with swapped := true }, lateDue := false, change := none })).swapPlans n 5).inc
        (CYC_LATE_CNT_LATE n)).raise (cycPage n) 2)) ∧
    (∀ s n l, s.native n = true → (s.ep n).lateDue = true → (s.ep n).split = false → (s.ep n).last = some l → l.swapped = false →
      s.digest txSh n ≠ l.digTx →
      Yields (.epochLateSwap n) s fun t => (t.ep n).split = true ∧ t.rd (CYC_EPOCH_STATUS_RESULT n) = 6 ∧
        t.rd (CYC_LATE_CNT_SPLIT n) = (s.rd (CYC_LATE_CNT_SPLIT n) + 1) % 65536) ∧
    (∀ s n, s.native n = true → (s.ep n).split = false →
      (s.ep n).farEpoch = some ((s.rd (CYC_STATUS_ACT_EPOCH n) + 1) % 256) → (s.ep n).last = none → (s.ep n).change = none →
      Yields (.epochSplit n) s fun t => (t.ep n).split = true ∧ t.rd (CYC_EPOCH_STATUS_RESULT n) = 6))

/-- A received control slot and the wake, state and acknowledgement messages complete as the slot rules say. On a native port in
CYCLE or ACTIVE, CONTROL_SLOT_RECEIVED first counts the FEC outcome (R57); a voided slot is then counted in CELLS_VOID, and with no
uncorrectable pair only that counter and FEC_CORR change; a slot that verifies under no key is counted and raised as bad; one that
verifies with the number of another cycle is noted as a mismatch and counted and raised as bad; one that verifies with the number of
the cycle of its arrival counts as valid (R81). WAKE_REQ of a cycle that has come is a link wake event (R352); STATE_REPORT notes
the far power state and changes no register; ACK_MSG applies its entries in order (R117). It concludes, under conditions on state
and operands alone, that exec answers a next state for: controlSlotReceived, ackMsg, wakeReq, stateReport. -/
def Obligations.ControlSlotCommandsComplete : Prop :=
  let recv (s : State) (n : Nat) : Prop :=
    n < 3 ∧ (s.tstate n = tCycle ∨ s.tstate n = tActive) ∧ s.on (LNK_STATUS_MODE1040 n) = false
  (∀ s n j m k e c pl tr ar co un, recv s n →
    exec (.controlSlotReceived n j m k e c pl tr ar ⟨true, co, un⟩) s = .next ((s.fecCount n co un).inc (LNK_CELLS_VOID n))) ∧
  (∀ s n j m k e c pl tr ar co, recv s n →
    Yields (.controlSlotReceived n j m k e c pl tr ar ⟨true, co, 0⟩) s fun t =>
      t.rd (LNK_CELLS_VOID n) = (s.rd (LNK_CELLS_VOID n) + 1) % 2 ^ 32 ∧
      t.rd (LNK_FEC_CORR n) = (s.rd (LNK_FEC_CORR n) + co) % 2 ^ 32 ∧
      SameWords [(LNK_CELLS_VOID n).addr, (LNK_FEC_CORR n).addr] s t) ∧
  (∀ s n j m k e c pl tr ar co un, recv s n →
    (s.fecCount n co un).openCtl n j m k e c (pad128 pl) tr = (false, false) →
    (s.fecCount n co un).verifiesNext n (61 * j) c k (beBytes 8 (ctlHeader j m k e c) ++ pad128 pl) [] tr = false →
    exec (.controlSlotReceived n j m k e c pl tr ar ⟨false, co, un⟩) s =
      .next (((s.fecCount n co un).inc (CYC_CTRL_BAD n)).raise (cycPage n) 4)) ∧
  (∀ s n j m k e c pl tr ar co un, recv s n → (s.fecCount n co un).openCtl n j m k e c (pad128 pl) tr = (true, false) →
    c ≠ (s.fecCount n co un).arrivalCycle n ar →
    exec (.controlSlotReceived n j m k e c pl tr ar ⟨false, co, un⟩) s =
      .next ((((s.fecCount n co un).modEp n (fun e => { e with mismatch := true })).inc (CYC_CTRL_BAD n)).raise (cycPage n) 4)) ∧
  (∀ s n j m k e c pl tr ar co un, recv s n → (s.fecCount n co un).openCtl n j m k e c (pad128 pl) tr = (true, false) →
    c = (s.fecCount n co un).arrivalCycle n ar →
    exec (.controlSlotReceived n j m k e c pl tr ar ⟨false, co, un⟩) s = .next ((s.fecCount n co un).slotValid n c)) ∧
  (∀ s n c, s.native n = true → cycGe s.cycle c = true → exec (.wakeReq n c) s = .next (s.wakeBy 1)) ∧
  (∀ s n p, s.native n = true →
    Yields (.stateReport n p) s fun t => (t.port n).pw.farPower = p ∧ SameWords [] s t) ∧
  (∀ s n es, s.native n = true → exec (.ackMsg n es) s = .next (foldS es (fun s e => s.ackEntry n e) s))

/-- The commands of the context window and the waits of a context act as the tunnel rules say. TUN_LOAD, TUN_COMMIT, TUN_REBASE and
TUN_CLR_CNT are accepted writes of TUN_CMD. After LOAD the window's words are those of the selected context (word 7, the carats,
apart), and LAST_CMD reads 1; after REBASE it reads 4; LAST_CTX reads the selected context. A COMMIT whose checks find nothing
leaves REASON 0; one that fails shows the lowest reason of the first failing word and raises COMMIT_REJ. CLR_CNT clears the fourteen
counter words of the selected context (R106, R107). QUARANTINE_END takes a pair whose cycles have passed out of quarantine and no
entry of another pair (R105). TWIN_SPLIT_WAIT_END ends the nine-cycle wait of a starting split and changes no register (R110).
STOP_DRAIN_TIMEOUT after STOP_TO cycles discards what a stopping context has not sent (R111). MERGE_BASE_TIMEOUT after eight cycles
without a delivery drops the base and ends the open frame (R122); OPEN_FRAME_TIMEOUT after eight cycles ends the open frame at an
unreliable end (R123). CM_HOLD_EXPIRY after the hold's last cycle ends the hold and changes no other register (R118). Where the spec
is silent it follows the model: log entry 42. It concludes, under conditions on state and operands alone, that exec answers a next
state for: cmHoldExpiry, tunLoad, tunCommit, tunRebase, tunClrCnt, quarantineEnd, twinSplitWaitEnd, stopDrainTimeout,
mergeBaseTimeout, openFrameTimeout. -/
def Obligations.ContextWindowAndTimers : Prop :=
  (
    (∀ s p, Reaches s p TUN_CMD_LOAD.addr → exec (.tunLoad p) s = .next (accepted s (s.tunLoad p) p TUN_CMD_LOAD.addr)) ∧
    (∀ s p, Reaches s p TUN_CMD_COMMIT.addr → exec (.tunCommit p) s = .next (accepted s (s.tunCommit p) p TUN_CMD_COMMIT.addr)) ∧
    (∀ s p, Reaches s p TUN_CMD_REBASE.addr → exec (.tunRebase p) s = .next (accepted s (s.tunRebase p) p TUN_CMD_REBASE.addr)) ∧
    (∀ s p, Reaches s p TUN_CMD_CLR_CNT.addr → exec (.tunClrCnt p) s = .next (accepted s (s.tunClrCnt p) p TUN_CMD_CLR_CNT.addr)) ∧
    (∀ (s : State) p, (s.tunLoad p).rd (TUN_STATUS_LAST_CMD.onPath p) = 1 ∧
      (s.tunLoad p).rd (TUN_STATUS_LAST_CTX.onPath p) = s.tunSel p) ∧
    (∀ (s : State) p, (s.tunLast p 2).commitCheck (s.tunSel p) ((List.range 32).map (fun k => s.rd (winWord p k))) = none →
      (s.tunCommit p).rd (TUN_STATUS_REASON.onPath p) = 0) ∧
    (∀ (s : State) p k, k < 14 → (s.tunClrCnt p).word (0x200040 + 0x80 * s.tunSel p + 4 * k) = 0) ∧
    (∀ (s : State) p k r, (s.tunLast p 2).commitCheck (s.tunSel p) ((List.range 32).map (fun k => s.rd (winWord p k))) = some (k, r) →
      (s.tunCommit p).rd (TUN_STATUS_REASON.onPath p) = r ∧ ((s.tunCommit p).word (PG_ISR 15).addr).getLsbD 1 = true) ∧
    (∀ (s : State) p, (s.tunRebase p).rd (TUN_STATUS_LAST_CMD.onPath p) = 4 ∧
      (s.tunRebase p).rd (TUN_STATUS_LAST_CTX.onPath p) = s.tunSel p) ∧
    (∀ (s : State) p k, k < 32 → k ≠ 7 → (s.tunLoad p).rd (winWord p k) = (s.word (0x200000 + 0x80 * s.tunSel p + 4 * k)).toNat)) ∧
  (
    (∀ s port ltn q, q ∈ s.quar → q.port = port → q.ltn = ltn → cycGe s.cycle q.upTo = true →
      Yields (.quarantineEnd port ltn) s fun t => q ∉ t.quar ∧ ∀ r ∈ s.quar, (r.port ≠ port ∨ r.ltn ≠ ltn) → r ∈ t.quar) ∧
    (∀ s c, s.ctxLife c = lifeStarting → s.twin c = 1 → (s.ctx c).splitFrom.any (fun x => cycGe s.cycle (cycAdd x 9)) = true →
      Yields (.twinSplitWaitEnd c) s fun t => (t.ctx c).splitDone = true ∧ SameWords [] s t) ∧
    (∀ s c, s.ctxLife c = lifeStopping → (s.ctx c).drained = false → cycGe s.cycle (cycAdd (s.ctx c).since (s.rd (CTX_STOP_STOP_TO c))) = true →
      Yields (.stopDrainTimeout c) s fun t => t = s.ctxDiscard c ∧ (t.ctx c).drained = true) ∧
    (∀ s c, s.ctxLife c = lifeOn → s.twin c = 2 → s.on (CTX_STATE_BASE c) = true → cycGe s.cycle (cycAdd (s.ctx c).lastRx 8) = true →
      exec (.mergeBaseTimeout c) s = .next ((s.flag (CTX_STATE_BASE c) false).closeRx c)) ∧
    (∀ s c, s.ctxLife c = lifeOn → s.isEnd c = true → s.reliable c = false → s.twin c ≠ 2 → (s.ctx c).rx.isSome = true →
      cycGe s.cycle (cycAdd (s.ctx c).lastRx 8) = true → exec (.openFrameTimeout c) s = .next (s.closeRx c)) ∧
    (∀ s c, s.on (CTX_STATE_CM_HOLD c) = true → (s.ctx c).holdDue = false → cycLater s.cycle (s.ctx c).holdEnd = true →
      Yields (.cmHoldExpiry c) s fun t => t.on (CTX_STATE_CM_HOLD c) = false ∧ SameWords [(CTX_STATE_CM_HOLD c).addr] s t))

/-- A cell that arrives on an active link is counted and handed on as its slot turns out. CELL_RECEIVED counts the FEC outcome and
the sync errors (R57); a voided slot is then counted in CELLS_VOID and hands nothing on; any other is opened. A slot that verifies
neither under the present key nor under the next is counted in CELL_BAD. A valid cell of an LTN that no context holds is counted and
raised as such (R104); on a native link one that a context holds is received by it; neither happens while the girdle is wedged
(R146). MGMT_MSG of 1 to 28 bytes, with the girdle not wedged, is a one-cell frame of class 3 for context 2n (R83); what it says of
the tree waits for the next cycle boundary. Where the spec is silent it follows the model: log entries 39, 117, 127. It concludes,
under conditions on state and operands alone, that exec answers a next state for: cellReceived, mgmtMsg. -/
def Obligations.LinkCellsComplete : Prop :=
  let fec (s : State) (n corr uncorr syncErr : Nat) : State := (s.fecCount n corr uncorr).inc (LNK_SYNC_ERR n) syncErr
  (∀ s n slot cyc cell tr co un sy, s.active n = true →
    exec (.cellReceived n slot cyc cell tr true co un sy) s = .next ((fec s n co un sy).inc (LNK_CELLS_VOID n))) ∧
  (∀ s n slot cyc cell tr co un sy, s.active n = true →
    exec (.cellReceived n slot cyc cell tr false co un sy) s =
      .next ((fec s n co un sy).cellOpened n slot cyc cell tr ((fec s n co un sy).openCell n slot cyc cell tr).1
        ((fec s n co un sy).openCell n slot cyc cell tr).2)) ∧
  (∀ (s : State) n slot cyc cell tr, s.verifiesNext n slot cyc cell.keysel (beBytes 8 (cellHeader cell)) (pad128 cell.payload) tr = false →
    (s.cellOpened n slot cyc cell tr none false).rd (CYC_CELL_BAD n) = (s.rd (CYC_CELL_BAD n) + 1) % 2 ^ 32) ∧
  (∀ (s : State) n slot cyc cell tr (c : Cell) x w, c.ltn ≠ 0xFF → (s.slotValid n cyc).on (PG_STATE_WEDGED 13) = false →
    (s.slotValid n cyc).ctxByRx n c.ltn = some (x, w) → (s.slotValid n cyc).on (LNK_STATUS_MODE1040 n) = false →
    s.cellOpened n slot cyc cell tr (some c) false = (s.slotValid n cyc).ctxReceive n x w c none) ∧
  (∀ (s : State) n slot cyc cell tr (c : Cell), c.ltn ≠ 0xFF → (s.slotValid n cyc).on (PG_STATE_WEDGED 13) = false →
    (s.slotValid n cyc).ctxByRx n c.ltn = none →
    s.cellOpened n slot cyc cell tr (some c) false = ((s.slotValid n cyc).inc (TUN_NOCTX n)).raise 15 2) ∧
  (∀ s n sq d w, s.native n = true → 1 ≤ d.length → d.length ≤ 28 → s.on (PG_STATE_WEDGED 13) = false →
    let cell : Cell := { ltn := 0, tc := 3, fs := true, ls := true, fill := d.length - 1, seq := sq % 65536, age := ageOf s.now, payload := pad128 d }
    exec (.mgmtMsg n sq ⟨d, w⟩) s = .next ((s.modChip (fun c => { c with news := c.news.plus w })).ctxReceive n (2 * n) 0 cell none))

/-- The events of the girdle complete on the frame, queue or reading that they name. FRAME_PRESENTED at a point with flow control
other than PCI Express hands the frame to the ingress of its point (R130). INC_TAIL_FALLBACK eight cycles after a frame's discard
began gives its tail the number above the highest seen (R137). SCRUB_VISIT of an aged cell discards or ends its frame (R138).
AGE_HOLD_END lets ageing resume and changes no other register (R139). DESCRIPTOR_ECC_FLUSH flushes the queue, or the replay list,
counts it and raises it (R128). PERF_UPDATE shows the reading and the least one, and changes no other word; PERF_READ returns both,
and the least one starts afresh from a reading other than 0 (R145). Where the spec is silent it follows the model: log entries 40,
128, 130. It concludes, under conditions on state and operands alone, that exec answers a next state for: framePresented,
incTailFallback, scrubVisit, ageHoldEnd, descriptorEccFlush, perfUpdate, perfRead. -/
def Obligations.GirdleCommandsComplete : Prop :=
  (∀ s pt sub ns st d, flowPoint pt = true → pt ≠ 3 →
    exec (.framePresented pt sub ns st d) s = .next (s.ingress { point := pt, sub := sub, ns := ns, stamp := st, data := d })) ∧
  (∀ s q c id f x, s.findFrame q c id = some f → f.tail = some x → x.seq = none → cycGe s.cycle (cycAdd x.since 8) = true →
    exec (.incTailFallback q c id) s =
      .next (s.modFrame q c id (fun f => { f with tail := some { x with seq := some ((x.high + 1) % 65536) } }))) ∧
  (∀ s q c id i f x, s.findFrame q c id = some f → f.cells[i]? = some x → f.tail = none → s.aged c x.cell = true →
    exec (.scrubVisit q c id i) s = .next (s.ageFrame q f (!f.started))) ∧
  (∀ s, Yields .ageHoldEnd s fun t => t.on GRD_STATUS_AGE_HOLD = false ∧ SameWords [GRD_STATUS_AGE_HOLD.addr] s t) ∧
  (∀ s i, i < 128 → exec (.descriptorEccFlush false i) s = .next (((s.flushQueue i).inc GRD_QFLUSH).raise 13 6)) ∧
  (∀ s i, i < 256 → exec (.descriptorEccFlush true i) s = .next (((s.flushReplay i).inc GRD_QFLUSH).raise 13 6)) ∧
  (∀ s v, s.domOn 3 = true → v < 65536 →
    Yields (.perfUpdate v) s fun t => t.rd GRD_PERF_NOW = v ∧ t.rd GRD_PERF_MIN = min v (s.rd GRD_PERF_MIN) ∧
      SameWords [GRD_PERF_NOW.addr] s t) ∧
  (∀ s p, Reaches s p GRD_PERF_NOW.addr → s.rd GRD_PERF_NOW ≠ 0 →
    exec (.perfRead p) s = .next ((s.wr GRD_PERF_MIN (s.rd GRD_PERF_NOW)).readBack p GRD_PERF_NOW.addr (s.word GRD_PERF_NOW.addr).toNat))

/-- A slot, a unit position, a control slot and an adapter opportunity send what the scheduler picks. In a data slot of an active
native link DATA_SLOT_FILL sends the cell that the slot rule picks, and idle fill where it picks none. In 1040 mode
UNIT_POSITION_FILL sends the credit unit when fifteen positions have passed since the last (R75), and idle fill where the pick finds
nothing; LOCAL_REFILL_1040 refills the buckets of the port's contexts. On a port in CYCLE, control slot 0 carries the CYCLE message,
whose number and stamp are kept. At the points 3 to 5 and 10 to 13 an opportunity goes on with the open frame of the egress; an open
frame that has been discarded is ended; with none open the cell that the class choice picks goes out (R157). Where the spec is
silent it follows the model: log entries 43, 44, 117. It concludes, under conditions on state and operands alone, that exec answers
a next state for: unitPositionFill, localRefill1040, fillSlot, controlSlotSend, adapterTxOpportunity. -/
def Obligations.SlotCommandsComplete : Prop :=
  (∀ s n d ecc t x, s.sendsSlots n = true → s.native n = true → (s.port n).pw.idle = false → d < s.dSlots n →
    s.fillSlot n d ecc = (t, some x) → exec (.fillSlot n d ecc) s = .next (t.sendSlot n (slotOfData d) (t.withTxLtn x))) ∧
  (∀ s n d ecc t, s.sendsSlots n = true → s.native n = true → (s.port n).pw.idle = false → d < s.dSlots n →
    s.fillSlot n d ecc = (t, none) → exec (.fillSlot n d ecc) s = .next (t.sendSlot n (slotOfData d) idleFill)) ∧
  (∀ s n ecc, s.active n = true → s.on (LNK_STATUS_MODE1040 n) = true → s.time.gap = false → 15 ≤ (s.port n).since1040 →
    Yields (.unitPositionFill n ecc) s fun t => (t.port n).since1040 = 0 ∧
      Out.slot n 0 (s.sealCell n 0 (s.creditUnit n)).1 (s.sealCell n 0 (s.creditUnit n)).2 ∈ t.out) ∧
  (∀ s n ecc t, s.active n = true → s.on (LNK_STATUS_MODE1040 n) = true → s.time.gap = false → (s.port n).since1040 < 15 →
    (s.modPort n (fun p => { p with since1040 := p.since1040 + 1 })).unitPick n ecc [7, 6, 5, 4, 3, 2, 1, 0] = (t, none) →
    exec (.unitPositionFill n ecc) s = .next (t.sendSlot n 0 idleFill)) ∧
  (∀ s n, s.active n = true → s.on (LNK_STATUS_MODE1040 n) = true →
    exec (.localRefill1040 n) s = .next (foldS (List.range 256) (fun s c => s.refillCtx c (· == n)) s)) ∧
  (∀ s n, s.sendsSlots n = true → s.tstate n = tCycle →
    Yields (.controlSlotSend n 0) s fun t =>
      let u := s.modTm n (fun t => { t with tx := (((s.cycleMsg n).cycno, stampQ (s.cycleMsg n).txStamp) :: t.tx).take 4 })
      let x := u.sealCtl n 0 1 (s.rd (CYC_STATUS_ACT_EPOCH n)) (pad128 (unitBytes (.cycle (s.cycleMsg n))))
      t = u.emit (.ctlSlot n 0 x.1 (s.rd (CYC_STATUS_ACT_EPOCH n)) s.cycle [.cycle (s.cycleMsg n)] x.2)) ∧
  (∀ s pt ecc tc t x, pt = 3 ∨ pt = 4 ∨ pt = 5 ∨ 10 ≤ pt ∧ pt ≤ 13 → tget? s.gird.openAt pt = some tc →
    s.openThere pt tc = true → s.takeCell (8 * pt + tc) ecc (fun s _ _ => (s, true)) = (t, some x) →
    exec (.adapterTxOpportunity pt ecc) s = .next (t.adapterOut pt tc x)) ∧
  (∀ s pt ecc tc, pt = 3 ∨ pt = 4 ∨ pt = 5 ∨ 10 ≤ pt ∧ pt ≤ 13 → tget? s.gird.openAt pt = some tc → s.openThere pt tc = false →
    exec (.adapterTxOpportunity pt ecc) s = .next (s.openLost pt)) ∧
  (∀ s pt ecc tc t x, pt = 3 ∨ pt = 4 ∨ pt = 5 ∨ 10 ≤ pt ∧ pt ≤ 13 → tget? s.gird.openAt pt = none →
    s.adapterPick pt ecc [7, 6, 5, 4, 3, 2, 1, 0] = (t, some (tc, x)) →
    exec (.adapterTxOpportunity pt ecc) s = .next (t.adapterOut pt tc x))

/-- The meter window and the gate control lists take their commands. LOAD, COMMIT and CLR_CNT of the meter window and CFG_CHANGE of
a list are accepted command writes. LOAD shows the selected meter's eight words. A COMMIT whose window fails a check shows the
reason and changes, beside the page's interrupt and capture words, nothing else; one that passes shows reason 0 and puts the
committed rate in force (R171). CLR_CNT zeroes the three counters. CFG_CHANGE makes the admin list pending, and is rejected with
code 1 where the cycle time is 0; at the configuration change time the pending list becomes the oper list and CFG_PENDING falls
(R166); at the end of an interval, with no configuration pending, the list enters the entry that the time gives (R165). Where the
spec is silent it follows the model: log entries 45, 47. It concludes, under conditions on state and operands alone, that exec
answers a next state for: mtrLoad, mtrCommit, mtrClrCnt, cfgChange, configChangeTime, gateEntryChange. -/
def Obligations.MeterAndGateCommands : Prop :=
  (∀ s p, Reaches s p SCH_MTR_CMD_LOAD.addr → exec (.mtrLoad p) s = .next (accepted s (s.mtrLoad p) p SCH_MTR_CMD_LOAD.addr)) ∧
  (∀ s p, Reaches s p SCH_MTR_CMD_COMMIT.addr → exec (.mtrCommit p) s = .next (accepted s (s.mtrCommit p) p SCH_MTR_CMD_COMMIT.addr)) ∧
  (∀ s p, Reaches s p SCH_MTR_CMD_CLR_CNT.addr → exec (.mtrClrCnt p) s = .next (accepted s (s.mtrClrCnt p) p SCH_MTR_CMD_CLR_CNT.addr)) ∧
  (∀ s p l, l < 7 → Reaches s p (SCH_GCL_CTRL_CFG_CHANGE l).addr → s.on (SCH_GCL_CTRL_CFG_PENDING l) = false →
    s.rd (SCH_ADMIN_CYCLE_NS l) ≠ 0 →
    exec (.cfgChange p l) s = .next (accepted s (s.cfgChange l) p (SCH_GCL_CTRL_CFG_CHANGE l).addr)) ∧
  (∀ s p l, l < 7 → Reaches s p (SCH_GCL_CTRL_CFG_CHANGE l).addr → s.on (SCH_GCL_CTRL_CFG_PENDING l) = false →
    s.rd (SCH_ADMIN_CYCLE_NS l) = 0 →
    exec (.cfgChange p l) s = .next (s.reject p (SCH_GCL_CTRL_CFG_CHANGE l).addr 1
      ((s.word (SCH_GCL_CTRL_CFG_CHANGE l).addr).toNat ||| 2 ^ (SCH_GCL_CTRL_CFG_CHANGE l).lo))) ∧
  (∀ (s : State) p, (s.mtrClrCnt p).rd (MTR_GREEN (s.mtrSel p)) = 0 ∧ (s.mtrClrCnt p).rd (MTR_YELLOW (s.mtrSel p)) = 0 ∧
    (s.mtrClrCnt p).rd (MTR_RED (s.mtrSel p)) = 0) ∧
  (∀ (s : State) l, (s.cfgChange l).on (SCH_GCL_CTRL_CFG_PENDING l) = true ∧ ((s.cfgChange l).gcl l).pending.isSome = true) ∧
  (∀ s l g t, l < 7 → (s.gcl l).pending = some (g, t) → t ≤ s.now → exec (.configChangeTime l) s = .next (s.gclInstall l)) ∧
  (∀ s l g, l < 7 → (s.gcl l).oper = some g → g.cycleNs ≠ 0 → (s.gcl l).until_ ≤ s.now → (s.gcl l).pending = none →
    exec (.gateEntryChange l) s = .next (s.gclEnter l g)) ∧
  (∀ (s : State) p k r, mtrCheck (fun k => s.rd (mtrWin p k)) = some (k, r) →
    (s.mtrCommit p).rd (SCH_MTR_STATUS_REASON.onPath p) = r ∧ SameWords [(SCH_MTR_STATUS_REASON.onPath p).addr, (PG_ISR 14).addr,
      (PG_ERRCAP_CODE 14).addr, (PG_ERRVAL 14).addr] s (s.mtrCommit p)) ∧
  (∀ (s : State) p, mtrCheck (fun k => s.rd (mtrWin p k)) = none →
    (s.mtrCommit p).rd (SCH_MTR_STATUS_REASON.onPath p) = 0 ∧
    (s.mtrCommit p).rd (MTR_CIR_RATE (s.mtrSel p)) = s.rd (mtrWin p 0) % 2 ^ 27) ∧
  (∀ (s : State) p k, k < 8 → (s.mtrLoad p).rd (mtrWin p k) = (s.word (0x220000 + 0x20 * s.mtrSel p + 4 * k)).toNat) ∧
  (∀ s l g t, l < 7 → (s.gcl l).pending = some (g, t) → t ≤ s.now →
    Yields (.configChangeTime l) s fun u => (u.gcl l).oper = some g ∧ (u.gcl l).pending = none ∧
      u.on (SCH_GCL_CTRL_CFG_PENDING l) = false)

/-- CYCLE messages, local sources and the ends of holdover act on the time status. On an ACTIVE native link a CYCLE message of
another cycle than its arrival gives is noted as a mismatch and changes no register; one of the right cycle counts, ends the run of
missed ones and gives the far epoch (R97); in CYCLE the sixteenth in a row makes the port ACTIVE (R89). Reading TIME_LO returns the
quarter nanoseconds and latches TIME_HI of the same instant for the path (R172). SOURCE_MEASUREMENT of a selected local source, PTP
only while it feeds the source machine, is a measurement (R178). PPS_EDGE notes the edge and the edge less COMP; a sentence that
ends 100 ms to 900 ms after the edge labels the second and is a measurement (R181). IRIG_FRAME without a valid UTC offset shows
cause 3 and ACQUIRING; with one it is a measurement against the second that the frame and the offset give (R180). INPUT_LOST ends
the input for its cause. At HOLD_MAX minutes of HOLDOVER the state is FREE (R178); at HOLD_VALID seconds TIME_VALID falls and no
other register changes (R179). RTC_UPDATE with TIME_VALID keeps the second (R174). Where the spec is silent it follows the model:
log entries 33, 34, 35, 131, 132. It concludes, under conditions on state and operands alone, that exec answers a next state for:
cycleMsg, timeLoRead, sourceMeasurement, ppsEdge, todSentence, irigFrame, inputLost, holdoverExpiry, holdValidExpiry, rtcUpdate. -/
def Obligations.TimeSourceCommands : Prop :=
  (∀ s n m, n < 3 → s.tstate n = tActive → s.on (LNK_STATUS_MODE1040 n) = false → m.cycno ≠ s.arrivalCycle n m.arrival →
    Yields (.cycleMsg n m) s fun t => (t.ep n).mismatch = true ∧ SameWords [] s t) ∧
  (∀ s n m, n < 3 → s.tstate n = tActive → s.on (LNK_STATUS_MODE1040 n) = false → m.cycno = s.arrivalCycle n m.arrival →
    Yields (.cycleMsg n m) s fun t => (t.ep n).okCount = (s.ep n).okCount + 1 ∧ (t.ep n).missed = 0 ∧ (t.ep n).gotThis = true ∧
      (t.ep n).farEpoch = some m.epoch) ∧
  (∀ s p, Reaches s p TIME_LO.addr →
    exec (.timeLoRead p) s = .next ((s.wr (TIME_HI.onPath p) s.time.sec).readBack p TIME_LO.addr (s.time.ns * 4))) ∧
  (∀ s off i, 1 ≤ s.rd TIME_SRC_CTRL_SRC → s.rd TIME_SRC_CTRL_SRC ≤ 3 → (s.rd TIME_SRC_CTRL_SRC = 1 → s.ptpFeeds = true) →
    exec (.sourceMeasurement off i) s = .next ((s.modTime (fun t => { t with srcPresent := true })).measurement off i false)) ∧
  (∀ s q, s.rd TIME_SRC_CTRL_SRC = 3 →
    Yields (.ppsEdge (!s.on TIME_PPS_CTRL_EDGE) q) s fun t => t.time.pps = some (q, q - 4 * s.rd TIME_PPS_CTRL_COMP) ∧ SameWords [] s t) ∧
  (∀ s b e q m sec, s.rd TIME_SRC_CTRL_SRC = 3 → s.time.pps = some (q, m) → s.todSecond b = some sec → q + 400000000 ≤ e → e ≤ q + 3600000000 →
    exec (.todSentence (s.rd TIME_SRC_CTRL_TOD_UART) b e) s = .next
      ((s.modTime (fun t => { t with pps := none, srcPresent := true })).measurement (offsetFrom m sec) 1000000000 false)) ∧
  (∀ s q doy sod y o a b, s.rd TIME_SRC_CTRL_SRC = 2 → s.isOn 6 = true → s.on TIME_UTC_OFS_VALID = false →
    Yields (.irigFrame q doy sod y o a b) s fun t => t.rd TIME_SRC_STATUS_CAUSE = 3 ∧ t.rd TIME_SRC_STATUS_STATE = stAcquiring ∧
      t.time.srcPresent = false) ∧
  (∀ s q doy sod y o a b, s.rd TIME_SRC_CTRL_SRC = 2 → s.on TIME_UTC_OFS_VALID = true → s.on TIME_IRIG_CTRL_EXT_1344 = false →
    exec (.irigFrame q doy sod (some y) o a b) s = .next ((s.modTime (fun t => { t with srcPresent := true })).measurement
      (offsetFrom (q - 4 * s.rd TIME_IRIG_CTRL_COMP) (s.utcToTai (86400 * civilDays y 1 1 + (86400 * (doy - 1) + sod)))) 1000000000 false)) ∧
  (∀ s c, s.isOn 6 = true → c < 16 →
    exec (.inputLost c) s = .next ((s.modTime (fun t => { t with srcPresent := false })).inputLost c)) ∧
  (∀ s, s.rd TIME_SRC_STATUS_STATE = stHoldover → 60 * s.rd TIME_HOLD_HOLD_MAX ≤ s.holdSecs →
    Yields .holdoverExpiry s fun t => t = s.srcState stFree ∧ t.rd TIME_SRC_STATUS_STATE = stFree) ∧
  (∀ s, s.rd TIME_SRC_STATUS_STATE = stHoldover → s.rd TIME_HOLD_HOLD_VALID ≤ s.holdSecs →
    Yields .holdValidExpiry s fun t => t.on TIME_SRC_STATUS_TIME_VALID = false ∧ SameWords [TIME_SRC_STATUS_TIME_VALID.addr] s t) ∧
  (∀ s, s.on TIME_SRC_STATUS_TIME_VALID = true →
    Yields .rtcUpdate s fun t => t.time.rtc = some s.time.sec ∧ SameWords [] s t) ∧
  (∀ s n m, n < 3 → s.tstate n = tCycle → s.on (LNK_STATUS_MODE1040 n) = false → m.cycno = s.arrivalCycle n m.arrival →
    (s.ep n).okCount = 15 → Yields (.cycleMsg n m) s fun t => t.tstate n = tActive)

/-- Timed outputs, steps and cycle boundaries act as the time rules say. FOUT_ARM is an accepted write outside mode 4 and is
rejected with code 3 in mode 4 (R194). FOUT_ACTION of a due armed output in mode 1 drives LEVEL, clears ARM and sets FOUT_DONE; in
mode 3 it drives LEVEL from the instant in the second on and begins the pulse; FOUT_PULSE_END drives the opposite level and changes
no register. STEP_CMD_SET at a root of time is an accepted write that starts the step; elsewhere it is rejected with code 3 (R185).
STEP_NOTICE over the link that the chip follows schedules the step. STEP_TAKEN at the step's cycle ends the step, leaves the gap up
to the next boundary, clears PENDING and holds ageing (R186). CYCLE_BOUNDARY begins the cycle and does what has fallen due
meanwhile; after the beginning the gap has ended and the number of cycles begun has risen (R76). Where the spec is silent it follows
the model: log entries 31, 32, 110, 117. It concludes, under conditions on state and operands alone, that exec answers a next state
for: cycleBoundary, stepCmdSet, stepNotice, stepTaken, foutArm, foutAction, foutPulseEnd. -/
def Obligations.OutputAndStepCommands : Prop :=
  (∀ s p k, k < 8 → Reaches s p (EVI_FOUT_CTRL_ARM k).addr → s.rd (EVI_FOUT_CTRL_MODE k) ≠ 4 →
    exec (.foutArm p k) s = .next (accepted s (s.foutArm k) p (EVI_FOUT_CTRL_ARM k).addr)) ∧
  (∀ s p k, k < 8 → Reaches s p (EVI_FOUT_CTRL_ARM k).addr → s.rd (EVI_FOUT_CTRL_MODE k) = 4 →
    exec (.foutArm p k) s = .next (s.reject p (EVI_FOUT_CTRL_ARM k).addr 3 ((s.word (EVI_FOUT_CTRL_ARM k).addr).toNat ||| 2 ^ (EVI_FOUT_CTRL_ARM k).lo))) ∧
  (∀ s k, k < 8 → s.isOn 7 = true → s.rd (EVI_FOUT_CTRL_MODE k) = 1 → s.on (EVI_FOUT_CTRL_ARM k) = true → s.foutTime k ≤ s.now →
    Yields (.foutAction k) s fun t => t.on (EVI_FOUT_CTRL_ARM k) = false ∧ Out.fout k (s.on (EVI_FOUT_CTRL_LEVEL k)) ∈ t.out ∧
      (t.word (PG_ISR 7).addr).getLsbD 2 = true) ∧
  (∀ s k, k < 8 → s.evi.pulsing.contains k = true →
    Yields (.foutPulseEnd k) s fun t => Out.fout k (!s.on (EVI_FOUT_CTRL_LEVEL k)) ∈ t.out ∧ t.evi.pulsing.contains k = false ∧
      SameWords [] s t) ∧
  (∀ s p, Reaches s p TIME_STEP_CMD_SET.addr → s.timeRoot = true →
    exec (.stepCmdSet p) s = .next (accepted s (s.startStep s.setDelta) p TIME_STEP_CMD_SET.addr)) ∧
  (∀ s p, Reaches s p TIME_STEP_CMD_SET.addr → s.timeRoot = false →
    exec (.stepCmdSet p) s = .next (s.reject p TIME_STEP_CMD_SET.addr 3 ((s.word TIME_STEP_CMD_SET.addr).toNat ||| 2 ^ TIME_STEP_CMD_SET.lo))) ∧
  (∀ s n c d, s.native n = true → s.bit TIME_LINK_TM_ST_FOLLOW n = true →
    exec (.stepNotice n c d) s = .next (s.showStep ⟨some (c % 2 ^ 32), d, false⟩)) ∧
  (∀ s r c at_, s.time.step = some r → r.cycle = some c → s.stepAt c = some at_ →
    Yields .stepTaken s fun t => t.time.step = none ∧ t.time.gap = true ∧ t.on TIME_STEP_STATUS_PENDING = false ∧
      t.on GRD_STATUS_AGE_HOLD = true) ∧
  (∀ s, exec .cycleBoundary s = .next s.cycleBegins.timeDue) ∧
  (∀ s : State, s.cycleBegins.time.gap = false ∧ s.time.begun + 1 ≤ s.cycleBegins.time.begun) ∧
  (∀ s k, k < 8 → s.isOn 7 = true → s.rd (EVI_FOUT_CTRL_MODE k) = 3 → s.rd (EVI_FOUT_T_NS k) ≤ s.time.ns →
    Yields (.foutAction k) s fun t => Out.fout k (s.on (EVI_FOUT_CTRL_LEVEL k)) ∈ t.out ∧ t.evi.pulsing.contains k = true ∧
      SameWords [] s t)

/-- Event inputs follow their edges, filters and windows, and reading the FIFO takes its head. With D11 on, an edge that changes an
enabled input which has neither glitch filter nor debouncing is accepted at once; with a glitch filter, outside a window, it becomes
a candidate, RAW follows and no other register changes. EVI_GLITCH_END accepts a candidate: the accepted level becomes RAW's, and
the publications see the change. A debounce window in which the level has come back ends and changes no register (R190). Reading
FIFO_LO returns the head's low word and removes the head (R193). Where the spec is silent it follows the model: log entries 36, 37.
It concludes, under conditions on state and operands alone, that exec answers a next state for: eviEdge, eviGlitchEnd,
eviDebounceEnd, eviFifoRead. -/
def Obligations.EventInputCommands : Prop :=
  (∀ s i level q, i < 16 → s.eviOn i = true → s.domOn 11 = true → 0 < s.rd (EVI_CFG_GLITCH i) → (s.eviIn i).window = false →
    (s.eviIn i).cand = none → (level != s.on (EVI_CFG_INVERT i)) ≠ s.bit EVI_LEVEL_ACC i →
    Yields (.eviEdge [(i, level)] q) s fun t => (t.eviIn i).cand = some (s.edgeAt q, false) ∧
      t.bit EVI_LEVEL_RAW i = (level != s.on (EVI_CFG_INVERT i)) ∧ SameWords [EVI_LEVEL_RAW.addr] s t) ∧
  (∀ s i, i < 16 → exec (.eviGlitchEnd [i]) s = .next ((s.candAccept i).eviPublish s [i] (((s.eviIn i).cand.map (·.1)).getD (s.edgeAt s.nowQ)))) ∧
  (∀ s i at_, i < 16 → (s.eviIn i).window = true → (s.eviIn i).last = none → s.bit EVI_LEVEL_RAW i = s.bit EVI_LEVEL_ACC i →
    Yields (.eviDebounceEnd [i] at_) s fun t => t.eviIn i = {} ∧ SameWords [] s t) ∧
  (∀ s p, Reaches s p EVI_FIFO_LO.addr →
    exec (.eviFifoRead p) s = .next (((s.modEvi (fun t => { t with fifo := t.fifo.drop 1 })).showEvi).readBack p EVI_FIFO_LO.addr (s.rd EVI_FIFO_LO))) ∧
  (∀ s i level q, i < 16 → s.eviOn i = true → s.domOn 11 = true → s.rd (EVI_CFG_GLITCH i) = 0 → s.rd (EVI_CFG_DEBOUNCE i) = 0 →
    (level != s.on (EVI_CFG_INVERT i)) ≠ s.bit EVI_LEVEL_ACC i →
    Yields (.eviEdge [(i, level)] q) s fun t => t.bit EVI_LEVEL_ACC i = (level != s.on (EVI_CFG_INVERT i)) ∧ t.eviIn i = {}) ∧
  (∀ s i x, i < 16 → s.eviOn i = true → (s.eviIn i).cand = some x →
    Yields (.eviGlitchEnd [i]) s fun t => t.bit EVI_LEVEL_ACC i = s.bit EVI_LEVEL_RAW i ∧ (t.eviIn i).cand = none)

/-- The ends, faults and timeouts of a context act where their condition holds. CONTEXT_START_COMPLETE of a context whose start
conditions hold sets its sequence state and buckets and puts it ON (R110). CONTEXT_STOP_COMPLETE of one with nothing left ends
STOPPING (R111). CONTEXT_FAULT puts a context that is STARTING, ON or STOPPING in FAULT with cause 4 (R112). A cell that is
unacknowledged three boundaries after its last sending is replayed and counted in RETRIES, and after eight retries the context
faults with cause 1 (R117). A STARTING reliable origin without a RESYNC after sixteen cycles faults with cause 2 (R116). Where the
spec is silent it follows the model: log entries 41, 129. It concludes, under conditions on state and operands alone, that exec
answers a next state for: contextStartComplete, resyncTimeout, contextStopComplete, contextFault, retransmitTimeout. -/
def Obligations.ContextLifeCommands : Prop :=
  (∀ s c, c < 256 → (s.encCheck c).startReady c = true →
    Yields (.contextStartComplete c) s fun t =>
      t = (((((s.encCheck c).resetSeq c).freshBuckets c).ctxSetLife c lifeOn)).ctxHooks ∧ t.ctxLife c = lifeOn) ∧
  (∀ s c, c < 256 → s.stopReady c = true → exec (.contextStopComplete c) s = .next (s.ctxStopped c).ctxHooks) ∧
  (∀ s c, c < 256 → 1 ≤ s.ctxLife c → s.ctxLife c ≤ 3 → 
    Yields (.contextFault c) s fun t => t = s.ctxFaultAll c 4 ∧ t.ctxLife c = lifeFault ∧ t.rd (CTX_STATE_CAUSE c) = 4) ∧
  (∀ s c k r, c < 256 → s.ctxLife c = lifeOn → (s.ctx c).kept = k :: r → k.queued = false → cycGe s.cycle (cycAdd k.sent 3) = true →
    s.rd (CTX_RETRY_RETRIES c) < 8 →
    exec (.retransmitTimeout c) s = .next ((s.inc (CTX_RETRY_RETRIES c)).startReplay c)) ∧
  (∀ s c k r, c < 256 → s.ctxLife c = lifeOn → (s.ctx c).kept = k :: r → k.queued = false → cycGe s.cycle (cycAdd k.sent 3) = true →
    8 ≤ s.rd (CTX_RETRY_RETRIES c) → exec (.retransmitTimeout c) s = .next (s.ctxFaultAll c 1)) ∧
  (∀ s c, c < 256 → s.ctxLife c = lifeStarting → s.reliable c = true → s.isOrigin c = true → (s.ctx c).resynced = false →
    cycGe s.cycle (cycAdd (s.ctx c).since 16) = true → exec (.resyncTimeout c) s = .next (s.ctxFaultAll c 2))

/-- The PCIe port and the far-bus bridge take their requests. PCIE_RETRAIN is an accepted write that puts the LTSSM in Detect.
PCIE_LINK_CHANGE shows the new LTSSM state, the rate and the width, at most MAX_GEN and MAX_WIDTH, and raises the bit of the data
link's coming up, or of its going (R197). A virtual port whose contexts come up is shown and announced (R199). A write, a locked
read or an atomic of 32 or 64 bits that one window takes, with room for it and function 0 not in D3hot, is queued as a burst at its
far address; writes and atomics discard what was read ahead in the window (R206, R207). A read that hits no single window, an atomic
of another width, and a locked read of a window without LOCK are completed with UR, which is counted (R206, R208, R209). Where the
spec is silent it follows the model: log entries 48, 54, 134, 135, 136, 137. It concludes, under conditions on state and operands
alone, that exec answers a next state for: vdpContextChange, farbusRequest, atomicOp, mrdlk, pcieRetrain, pcieLinkChange. -/
def Obligations.PcieAndFarBusRequests : Prop :=
  (∀ s p, Reaches s p PCIE_CTRL_RETRAIN.addr → exec (.pcieRetrain p) s = .next (accepted s s.pcieDetect p PCIE_CTRL_RETRAIN.addr)) ∧
  (∀ s l g w, s.domOn 9 = true → s.on PCIE_STATUS_DL_ACTIVE = false → l < 64 → l ≠ 0 → g < 4 → w < 4 →
    Yields (.pcieLinkChange true l (g, w) []) s fun t => t.rd PCIE_STATUS_LTSSM = l ∧
      t.rd PCIE_STATUS_GEN = min g (s.rd PCIE_CTRL_MAX_GEN.inForce) ∧ t.rd PCIE_STATUS_WIDTH = min w (s.rd PCIE_CTRL_MAX_WIDTH.inForce) ∧
      t.on PCIE_STATUS_DL_ACTIVE = true ∧ (t.word (PG_ISR 22).addr).getLsbD 0 = true) ∧
  (∀ s c, 1 ≤ c → c ≤ 14 → s.vdpUp c = false → s.vdpReady c = true →
    Yields (.vdpContextChange c) s fun t => t.vdpUp c = true ∧ Out.pcieMsg 2 c ∈ t.out ∧ (t.word (PG_ISR 22).addr).getLsbD 2 = true) ∧
  (∀ s addr be data r g w, s.domOn 9 = true → be.length ≤ 4096 → s.fn0Sleeps = false → s.theWindow addr = some w →
    let b := { s.winBurst w 0 r g true with beats := toBeats (s.farAddr w addr) be data, hdr := hostHdr (s.pcieFn 1).cfg.bar2 addr be r g }
    s.farRoom b.chip true 0 b.beats.length = true → exec (.farbusRequest true none addr be data r g) s = .next ((s.ghostWrite w).farQueue b)) ∧
  (∀ s addr be data r g, s.domOn 9 = true → be.length ≤ 4096 → s.theWindow addr = none →
    exec (.farbusRequest false none addr be data r g) s = .next (s.cplUr r g)) ∧
  (∀ s addr op width x cmp r g w, s.domOn 9 = true → s.fn0Sleeps = false → width = 32 ∨ width = 64 → op ≤ 2 →
    s.theWindow addr = some w → s.on (LPB_W_ATTR_ATOMIC w) = true →
    let l := toBeats (s.farAddr w addr) (List.replicate (width / 8) true) []
    let b := { s.winBurst w 2 r g false with beats := l, atom := some (op, width, x, cmp) }
    s.farRoom b.chip true 2 b.beats.length = true → exec (.atomicOp none addr op width x cmp r g) s = .next ((s.ghostWrite w).farQueue b)) ∧
  (∀ s tun addr op width x cmp r g, s.domOn 9 = true → width ≠ 32 → width ≠ 64 →
    exec (.atomicOp tun addr op width x cmp r g) s = .next (s.cplUr r g)) ∧
  (∀ s addr be r g w, s.domOn 9 = true → s.fn0Sleeps = false → s.theWindow addr = some w → s.on (LPB_W_ATTR_LOCK w) = true →
    let b := { s.winBurst w 3 r g false with beats := toBeats (s.farAddr w addr) be [] }
    s.farRoom b.chip true 3 b.beats.length = true → exec (.mrdlk none addr be r g) s = .next (s.farQueue b)) ∧
  (∀ s addr be r g w, s.domOn 9 = true → s.theWindow addr = some w → s.on (LPB_W_ATTR_LOCK w) = false →
    exec (.mrdlk none addr be r g) s = .next (s.cplUr r g)) ∧
  (∀ (s : State) r g, (s.cplUr r g).out = s.out ++ [Out.cpl r g 1 []] ∧ (s.cplUr r g).rd PCIE_UR_SENT = (s.rd PCIE_UR_SENT + 1) % 2 ^ 32) ∧
  (∀ s l g w, s.domOn 9 = true → s.on PCIE_STATUS_DL_ACTIVE = true → l < 64 → l ≠ 0 → g < 4 → w < 4 →
    Yields (.pcieLinkChange false l (g, w) []) s fun t => t.rd PCIE_STATUS_LTSSM = l ∧ t.on PCIE_STATUS_DL_ACTIVE = false ∧
      (t.word (PG_ISR 22).addr).getLsbD 1 = true)

/-- Far-bus transactions, their ends and timeouts, FENCE and the error FIFO act as the bridge rules say. With the bus free the first
burst in order that may be served starts with its first address and changes no register (R205). A transaction ends well, with ERR_N
at one of its beats where the chip select has READY_EN, or with cause 1 at the READY timeout (R203). The end of a remote posted
write removes its entry. PREFETCH_EXPIRY discards the window's prefetched beats and counts them as ghosts (R207). UNLOCK with
nothing of the requester on its way raises LOCK_N if its MRdLk holds it, goes on to the chip whose far bus that MRdLk holds, and is
ignored where nothing is held (R209, R214). LOCK_TIMEOUT of a request that came by a context raises LOCK_N and LOCK_TO and answers
with cause 3. A FENCE read answers at once when no posted write is out, and otherwise waits for those that are; it completes when
they have ended, or incomplete at the timeout, and then accesses that waited behind it go on (R43, R212). Reading ERRF_TS_LO returns
it and removes the head entry (R211). Where the spec is silent it follows the model: log entries 49, 50, 142. It concludes, under
conditions on state and operands alone, that exec answers a next state for: farbusTransaction, farbusTransactionEnd, readyTimeout,
prefetchExpiry, unlock, lockTimeout, fenceRead, fenceComplete, fenceTimeout, errorFifoPop. -/
def Obligations.FarBusTransactions : Prop :=
  (∀ s b x r l, s.isOn 25 = true → s.brg.cur = none → s.brg.queue = b :: l → s.farMay b = true → b.kind < 2 → b.beats = x :: r →
    Yields .farbusTransaction s fun t => t.brg.cur = some b ∧ t.brg.queue = l ∧ Out.farbus b.cs s.brg.lock.isSome b.write x.1 ∈ t.out ∧
      SameWords [] s t) ∧
  (∀ s b a d tm, s.brg.cur = some b → exec (.farbusTransactionEnd none 0 a tm d) s = .next (s.farEnd b 0 a d)) ∧
  (∀ s b a d tm, s.brg.cur = some b → s.on (LPB_CS_TIM_READY_EN b.cs).inForce = true → b.beats.any (fun x => x.1 == a) = true →
    exec (.farbusTransactionEnd none 2 a tm d) s = .next (s.farEnd b 2 a d)) ∧
  (∀ s b no a d tm, tget? s.brg.remote no = some b → b.kind = 0 →
    Yields (.farbusTransactionEnd (some (no, false)) 0 a tm d) s fun t => t.brg.remote = tdel s.brg.remote no ∧ SameWords [] s t) ∧
  (∀ s b a, s.brg.cur = some b → s.on (LPB_CS_TIM_READY_EN b.cs).inForce = true → b.beats.any (fun x => x.1 == a) = true →
    exec (.readyTimeout a) s = .next (s.farEnd b 1 a [])) ∧
  (∀ s w, Yields (.prefetchExpiry w) s fun t => tget? t.brg.pf w = none ∧
    t.rd LPB_GHOST_CNT = (s.rd LPB_GHOST_CNT + (tget [] s.brg.pf w).length) % 2 ^ 32) ∧
  (∀ s b r, s.brg.lock = some b → b.kind = 3 → b.reqId = r → s.brg.cur = none → s.brg.queue = [] → s.brg.remote = [] → s.brg.held = [] →
    Yields (.unlock r) s fun t => t.brg.lock = none ∧ SameWords [] s t) ∧
  (∀ s r, s.brg.lock = none → s.brg.cur = none → s.brg.queue = [] → s.brg.remote = [] → s.brg.held = [] →
    Yields (.unlock r) s fun t => t.brg = s.brg ∧ t.out = s.out ∧ SameWords [] s t) ∧
  (∀ s b, s.brg.lock = some b → b.kind = 3 → b.ctx ≠ 0 →
    Yields .lockTimeout s fun t => t.brg.lock = none ∧ Out.farAns b.ctx b.tag false 3 (((b.beats.head?).map (·.1)).getD 0) s.now64 [] ∈ t.out ∧
      (t.word (PG_ISR 25).addr).getLsbD 4 = true) ∧
  (∀ s p, Reaches s p LPB_FENCE_FAILS.addr → s.postedOut = [] → exec (.fenceRead p) s = .next (s.fenceAnswer p false)) ∧
  (∀ s p, Reaches s p LPB_FENCE_FAILS.addr → s.postedOut ≠ [] →
    Yields (.fenceRead p) s fun t => t.brg.fence = s.brg.fence ++ [(p, s.postedOut)] ∧ SameWords [] s t) ∧
  (∀ s p r, s.brg.fence = (p, []) :: r →
    exec .fenceComplete s = .next ((((s.modBrg (fun t => { t with fence := r })).fenceAnswer p false)).goOn (fun x => x.addr / 0x1000 == 25))) ∧
  (∀ s p l r, s.brg.fence = (p, l) :: r →
    exec .fenceTimeout s = .next ((((s.modBrg (fun t => { t with fence := r })).fenceAnswer p true)).goOn (fun x => x.addr / 0x1000 == 25))) ∧
  (∀ s p, Reaches s p LPB_ERRF_TS_LO.addr →
    exec (.errorFifoPop p) s = .next (((s.modBrg (fun t => { t with errf := t.errf.drop 1 })).showErrf).readBack p LPB_ERRF_TS_LO.addr (s.rd LPB_ERRF_TS_LO))) ∧
  (∀ s b no, s.brg.lock = none → s.brg.cur = none → s.brg.queue = [] → s.brg.remote = [] → s.brg.held = [(no, b)] → b.kind = 3 →
    Yields (.unlock b.reqId) s fun t => Out.farReq { b with kind := 4, beats := [], atom := none } ∈ t.out ∧ t.brg.held = [])

/-- The low-speed units answer their messages and report their events. A message to a unit that is off is answered with status 3,
and one to a unit that the chip does not have with status 4. UART data to send goes to the unit's pins and is answered with status
0; GPIO output data is written to GPIO_OUT and put on the pins; a GPIO read is answered with GPIO_IN. GPIO_EDGE shows the level,
records the edge and raises its bit. Received UART data, with page 29 not ON, goes out as unsolicited data. A clock held past
STRETCH_TO raises I2C_TIMEOUT and ends the transfer with status 2 (R213). Where the spec is silent it follows the model: log entry
62. It concludes, under conditions on state and operands alone, that exec answers a next state for: lsioMessage, gpioEdge, uartRx,
i2cStretchTimeout. -/
def Obligations.LowSpeedUnitCommands : Prop :=
  (∀ s k u op g a d st rd, s.domOn 9 = true → unitExists k u = true → s.unitOn k u = false →
    exec (.lsioMessage k u op g a d st rd) s = .next (s.lsioSend k u op g 3 a [])) ∧
  (∀ s g a d st rd, s.domOn 9 = true → s.isOn 26 = true → d.length = 4 →
    exec (.lsioMessage 4 0 1 g a d st rd) s = .next ((s.wr LSIO_GPIO_OUT (beNat d)).gpioOut.lsioSend 4 0 1 g 0 a [])) ∧
  (∀ s p l, p < 32 → s.isOn 26 = true → s.bit LSIO_GPIO_EVEN p = false →
    Yields (.gpioEdge p l) s fun t => t.bit LSIO_GPIO_IN p = l ∧ t.bit LSIO_GPIO_EDGE p = true ∧ (t.word (PG_ISR 26).addr).getLsbD 0 = true) ∧
  (∀ s u d, s.unitOn 1 u = true → d.length ≤ 256 → ((s.raise 26 1).lsioSend 1 u 2 0 0 0 d).isOn 29 = false →
    exec (.uartRx u d) s = .next ((s.raise 26 1).lsioSend 1 u 2 0 0 0 d)) ∧
  (∀ s u g a, s.unitOn 2 u = true → exec (.i2cStretchTimeout u g a) s = .next ((s.raise 26 2).lsioSend 2 u 1 g 2 a [])) ∧
  (∀ s k u op g a d st rd, s.domOn 9 = true → unitExists k u = false →
    exec (.lsioMessage k u op g a d st rd) s = .next (s.lsioSend k u op g 4 a [])) ∧
  (∀ s u g a d st rd, s.domOn 9 = true → s.unitOn 1 u = true →
    exec (.lsioMessage 1 u 1 g a d st rd) s = .next ((s.emit (.unitTx 1 u a d)).lsioSend 1 u 1 g 0 a [])) ∧
  (∀ s g a d st rd, s.domOn 9 = true → s.isOn 26 = true →
    exec (.lsioMessage 4 0 2 g a d st rd) s = .next (s.lsioSend 4 0 2 g 0 a (beBytes 4 (s.rd LSIO_GPIO_IN))))

/-- Invalidations, walks and the fault FIFO act as the translation rules say. INV_GO on a crown is an accepted write that issues the
next epoch and changes no other register; on another chip it is rejected with code 3 (R215, R220). INVALIDATION_DONE removes the
entries that its invalidation covers and shows its epoch (R220). An INV_SYNC read answers at once when its conditions hold, and
otherwise waits; it completes with its epoch when they come to hold, and accesses that waited behind it go on (R43, R221). In mode
1, the reading of a valid level-1 entry goes on to level 2; that of a valid writable level-3 leaf ends the walk with the translation
to its frame; a read error or a timeout faults with cause 3, an entry that is not valid with cause 1 (R217, R218). A walk marked by
an invalidation starts again, counted in WALK_REDO, and changes no other register (R220). Reading FF_REC7 returns it and removes the
head record (R229). Where the spec is silent it follows the model: log entries 50, 51, 53. It concludes, under conditions on state
and operands alone, that exec answers a next state for: invGo, invalidationDone, invSyncRead, invSyncComplete, walkReadComplete,
walkTimeout, faultFifoPop. -/
def Obligations.TranslationCommands : Prop :=
  (∀ s p, Reaches s p ATU_INV_CTRL_GO.addr → s.crown = true → exec (.invGo p) s = .next (accepted s s.invGo p ATU_INV_CTRL_GO.addr)) ∧
  (∀ s p, Reaches s p ATU_INV_CTRL_GO.addr → s.crown = false →
    exec (.invGo p) s = .next (s.reject p ATU_INV_CTRL_GO.addr 3 ((s.word ATU_INV_CTRL_GO.addr).toNat ||| 2 ^ ATU_INV_CTRL_GO.lo))) ∧
  (∀ s i r, s.dma.inv = i :: r → i.epoch < 65536 →
    Yields .invalidationDone s fun t => t.dma.inv = r ∧ t.rd ATU_INV_EPOCH_DONE = i.epoch ∧
      (∀ e ∈ t.dma.tlb, e ∈ s.dma.tlb ∧ i.covers e.asid e.page (if e.big then 2 ^ 21 else 4096) = false)) ∧
  (∀ s p, Reaches s p ATU_INV_SYNC_EPOCH.addr → s.crown = true → s.syncReady (s.rd ATU_INV_EPOCH_ISSUED) = true →
    exec (.invSyncRead p) s = .next (s.readBack p ATU_INV_SYNC_EPOCH.addr (s.rd ATU_INV_EPOCH_ISSUED))) ∧
  (∀ s p, Reaches s p ATU_INV_SYNC_EPOCH.addr → s.crown = true → s.syncReady (s.rd ATU_INV_EPOCH_ISSUED) = false →
    Yields (.invSyncRead p) s fun t => t.dma.sync = s.dma.sync ++ [(p, s.rd ATU_INV_EPOCH_ISSUED)] ∧ SameWords [] s t) ∧
  (∀ s p e r, s.dma.sync = (p, e) :: r → s.syncReady e = true →
    exec (.invSyncComplete false) s =
      .next (((s.modDma (fun d => { d with sync := r })).readBack p ATU_INV_SYNC_EPOCH.addr e).goOn (fun x => x.addr / 0x1000 == 23))) ∧
  (∀ s c w, (s.chan c).walk = some w → s.walkOvertaken w 4096 = false → s.rd (ATU_ROOT_LO_MODE w.asid) = 1 → w.level = 1 →
    Yields (.walkReadComplete c false 1) s fun t => (t.chan c).walk = some { w with level := 2 } ∧
      Out.hostRead (8 * (w.iova / 2 ^ 21 % 4096)) 8 false ∈ t.out ∧ SameWords [] s t) ∧
  (∀ s c w e, (s.chan c).walk = some w → s.walkOvertaken w 4096 = false → s.walkOvertaken w (2 ^ 21) = false →
    s.rd (ATU_ROOT_LO_MODE w.asid) = 1 →
    exec (.walkReadComplete c true e) s = .next (s.xlFault c w.iova 3 w.level w.write w.desc w.epoch)) ∧
  (∀ s c w, (s.chan c).walk = some w → s.walkOvertaken w 4096 = false → s.rd (ATU_ROOT_LO_MODE w.asid) = 1 →
    exec (.walkReadComplete c false 0) s = .next (s.xlFault c w.iova 1 w.level w.write w.desc w.epoch)) ∧
  (∀ s c w, (s.chan c).walk = some w → s.walkOvertaken w 4096 = false → s.rd (ATU_ROOT_LO_MODE w.asid) = 1 →
    exec (.walkTimeout c) s = .next (s.xlFault c w.iova 3 w.level w.write w.desc w.epoch)) ∧
  (∀ s p, Reaches s p (ATU_FF_REC 7).addr →
    exec (.faultFifoPop p) s = .next (((s.modDma (fun d => { d with ff := d.ff.drop 1 })).showFf).readBack p (ATU_FF_REC 7).addr (s.rd (ATU_FF_REC 7)))) ∧
  (∀ s : State, s.invGo.rd ATU_INV_EPOCH_ISSUED = (s.rd ATU_INV_EPOCH_ISSUED + 1) % 65536 ∧ SameWords [ATU_INV_EPOCH_ISSUED.addr] s s.invGo) ∧
  (∀ s c w k, (s.chan c).walk = some w → s.walkOvertaken w 4096 = false → s.rd (ATU_ROOT_LO_MODE w.asid) = 1 → s.chAsid c = w.asid →
    w.level = 3 → w.write = true → k < 2 ^ 36 →
    Yields (.walkReadComplete c false (4096 * k + 7)) s fun t => (t.chan c).walk = none ∧
      t.hasXl c w.iova true = some (4096 * k + w.iova % 4096) ∧ SameWords [] s t) ∧
  (∀ s c w e, (s.chan c).walk = some w → w.marked = true → s.rd (ATU_ROOT_LO_MODE w.asid) = 1 →
    Yields (.walkReadComplete c false e) s fun t => (t.chan c).walk.map (·.level) = some 1 ∧
      t.rd ATU_WALK_REDO = (s.rd ATU_WALK_REDO + 1) % 2 ^ 32 ∧ SameWords [ATU_WALK_REDO.addr] s t)

/-- The DMA channels take their commands. On a crown, a TAIL inside the ring is an accepted write and one outside is rejected with
code 1, the reserved bits apart; a ring of the NIC function takes its TAIL through that function (R223, R233). EN = 0 is an accepted
write, and a channel that neither is halted nor waits is then STOPPING (R231). RESUME retries, skips or stops a halted channel and
is rejected with code 3 on one that is not halted; a RETRY with no failed access ends the halt and changes no other register (R230).
DESCRIPTOR_FETCH of a T2H channel that holds none reads the descriptor at HEAD and holds it with its buffer address (R223). At
DMA_CELL_BOUNDARY an H2T channel whose cell is ready, with every other channel OFF, commits one cell, counted, and is the one served
last (R226); with every channel OFF and no frame queued nothing moves. Where the spec is silent it follows the model: log entries
52, 112, 138, 139, 140. It concludes, under conditions on state and operands alone, that exec answers a next state for:
descriptorFetch, dmaCellBoundary, dmaTailWrite, resumeRetry, resumeSkip, resumeStop, dmaChannelDisable. -/
def Obligations.DmaChannelCommands : Prop :=
  (∀ s p c v, c < 32 → Reaches s p (DMA_TAIL c).addr → s.crown = true → s.isRing c = false → v % 65536 < s.chSize c →
    exec (.dmaTailWrite p ⟨false, c⟩ v) s = .next (accepted s ((s.wr (DMA_TAIL c) (v % 65536)).showChan c) p (DMA_TAIL c).addr)) ∧
  (∀ s p c v, c < 32 → Reaches s p (DMA_TAIL c).addr → s.crown = true → s.isRing c = false → s.chSize c ≤ v % 65536 →
    exec (.dmaTailWrite p ⟨false, c⟩ v) s = .next (s.reject p (DMA_TAIL c).addr 1 v)) ∧
  (∀ s p c, c < 32 → Reaches s p (DMA_CH_CTRL_EN c).addr → s.crown = true → s.isRing c = false →
    exec (.dmaChannelDisable p c) s = .next (accepted s (s.chWriteEn c false) p (DMA_CH_CTRL_EN c).addr)) ∧
  (∀ s p c, c < 32 → Reaches s p ATU_RESUME_CHAN.addr → s.crown = true → s.on (DMA_CH_STATE_HALT c) = true →
    exec (.resumeRetry p c) s = .next (accepted s (s.resumeRetry c) p ATU_RESUME_CHAN.addr)) ∧
  (∀ s p c, c < 32 → Reaches s p ATU_RESUME_CHAN.addr → s.crown = true → s.on (DMA_CH_STATE_HALT c) = true →
    exec (.resumeSkip p c) s = .next (accepted s (s.resumeSkip c) p ATU_RESUME_CHAN.addr)) ∧
  (∀ s p c, c < 32 → Reaches s p ATU_RESUME_CHAN.addr → s.crown = true → s.on (DMA_CH_STATE_HALT c) = true →
    exec (.resumeStop p c) s = .next (accepted s (s.chWriteEn c false) p ATU_RESUME_CHAN.addr)) ∧
  (∀ s p c, c < 32 → Reaches s p ATU_RESUME_CHAN.addr → s.on (DMA_CH_STATE_HALT c) = false →
    exec (.resumeRetry p c) s = .next (s.reject p ATU_RESUME_CHAN.addr 3 c)) ∧
  (∀ s c d x, c < 32 → s.crown = true → s.isOn 24 = true → s.chOn c = true → s.on (DMA_CH_STATE_HALT c) = false → d.length = 32 →
    (s.chan c).inFrame = true → (s.chan c).full = [] → (s.chan c).descs = [] → (s.chan c).wb = [] → s.chT2h c = true →
    (s.chan c).skip = none → s.rd (DMA_HEAD c) < s.chSize c → s.rd (DMA_HEAD c) ≠ s.rd (DMA_TAIL c) →
    s.theXl c (s.ringIova c (s.rd (DMA_HEAD c))) false = some x →
    Yields (.descriptorFetch c d) s fun t => (t.chan c).descs.map (·.idx) = [s.rd (DMA_HEAD c)] ∧
      (t.chan c).descs.map (·.buf) = [leNat (d.take 8)] ∧
      Out.hostRead (x.bus + s.ringIova c (s.rd (DMA_HEAD c)) % 4096) 32 x.ns ∈ t.out) ∧
  (∀ s c b n, c < 32 → s.crown = true → s.isOn 24 = true → s.on (PG_STATE_WEDGED 24) = false → s.chOn c = true → s.chT2h c = false →
    s.on (DMA_CH_STATE_HALT c) = false → (∀ x : Nat, x < 32 → x ≠ c → s.rd (DMA_CH_STATE_LIFE x) = lifeOff) → (∀ x : Nat, x < 32 → (s.chan x).wb = []) →
    (s.chan c).h2tNext = some n → s.cellReady c false = true →
    Yields (.dmaCellBoundary false b) s fun t => t.rd (DMA_CH_CELLS c) = (s.rd (DMA_CH_CELLS c) + 1) % 2 ^ 32 ∧ t.dma.lastH = c) ∧
  (∀ s t2h b, s.crown = true → s.isOn 24 = true → s.on (PG_STATE_WEDGED 24) = false → (∀ x : Nat, x < 32 → s.rd (DMA_CH_STATE_LIFE x) = lifeOff) →
    (∀ x : Nat, x < 32 → (s.chan x).wb = []) → s.gird.queues = [] →
    Yields (.dmaCellBoundary t2h b) s fun t => t.out = s.out ∧ t.gird = s.gird ∧ t.dma.chans = s.dma.chans) ∧
  (∀ s c v, 16 ≤ c → c < 32 → Reaches s .pcie (DMA_TAIL c).addr → s.crown = true → s.on DMA_NIC_CTRL_EN = true → v % 65536 < s.chSize c →
    exec (.dmaTailWrite .pcie ⟨true, c⟩ v) s = .next (accepted s ((s.wr (DMA_TAIL c) (v % 65536)).showChan c) .pcie (DMA_TAIL c).addr)) ∧
  (∀ (s : State) c, s.rd (DMA_CH_STATE_LIFE c) = lifeOn → s.on (DMA_CH_STATE_HALT c) = false → s.on (DMA_CH_STATE_WAIT c) = false →
    (s.chWriteEn c false).rd (DMA_CH_STATE_LIFE c) = lifeStopping ∧ (s.chWriteEn c false).on (DMA_CH_CTRL_EN c) = false) ∧
  (∀ (s : State) c, (s.chan c).failed = none → (s.resumeRetry c).on (DMA_CH_STATE_HALT c) = false ∧
    (s.resumeRetry c).bit DMA_HALT_MAP c = false ∧ SameWords [(DMA_CH_STATE_HALT c).addr, DMA_HALT_MAP.addr] s (s.resumeRetry c))

/-- The display sink captures lines, and the source plays, conceals or shows the cameo screen. With the DPI's link trained, a line
other than 0 of a supported stream enters at point 5 behind its header, and is counted with its symbol errors (R236). A line that
arrives at the DPO before any timing is not held. A held line 0 starts the playout; a missing line other than 0, in a frame that is
not black, repeats the last line and is counted as concealed; a missing line 0 makes the frame black (R238, R239). At the frame
start the cameo screen goes on, or is left when it may be (R243). CAMEO_TIMEOUT asks for the cameo screen and changes no register;
CAMEO_FORCE and CAMEO_COMMIT are accepted writes. DP_LINK_TRAINING shows the link's training, at the DPI with at most its advertised
lanes and rate and with its interrupt, and its loss (R234). Where the spec is silent it follows the model: log entries 58, 141, 157.
It concludes, under conditions on state and operands alone, that exec answers a next state for: dpiLineCapture, dpoCellArrival,
dpoLinePlayout, dpoFrameStart, cameoTimeout, cameoForce, cameoCommit, dpLinkTraining. -/
def Obligations.DisplaySourceAndSink : Prop :=
  (∀ s line t dsc fec st ns e d, s.isOn 27 = true → s.on DPI_STATUS_TRAINED = true → dpSupported t dsc fec = true → line ≠ 0 →
    exec (.dpiLineCapture line t dsc fec st ns e d) s = .next (((((((s.flag DPI_STATUS_VIDEO true).flag DPI_STATUS_DSC dsc).flag
      DPI_STATUS_FEC fec).inc DPI_SYM_ERR e).inc DPI_LINES_OUT)).dpiFrame ns st
        (dpHeader 1 (2 * dsc.toNat) line s.dp.frame d.length st ++ d))) ∧
  (∀ s c, s.isOn 28 = true → s.dp.tim = none → c.fs = true → c.inc = false → c.ls = true → byteAt c.payload 0 ≠ 2 →
    Yields (.dpoCellArrival c) s fun t => t.dp.held = s.dp.held ∧ t.dp.rx = .none ∧ t.dp.cameoDue = false) ∧
  (∀ s t l ph pp late, s.isOn 28 = true → s.dp.tim = some t → s.dpoFits t = true → s.rd DPO_STATUS_MODE ≠ dpCameo →
    s.dp.next = none → s.dp.held.find? (fun l => l.line == 0) = some l →
    exec (.dpoLinePlayout ph pp late) s = .next (s.dpoPlay t l ph pp late)) ∧
  (∀ s t f n ph pp late, s.isOn 28 = true → s.dp.tim = some t → s.dpoFits t = true → s.rd DPO_STATUS_MODE ≠ dpCameo →
    s.dp.next = some (f, n + 1) → s.dp.held = [] → s.dp.blackFrame = false →
    exec (.dpoLinePlayout ph pp late) s = .next ((((s.inc DPO_CONCEAL_LOST).emit (.dpLine 1 (n + 1) s.dp.last)).modDp
      (fun d => { d with next := some (dpAfter t (f, n + 1)), blackFrame := false })).dpoPhase t ph pp)) ∧
  (∀ s, s.isOn 28 = true → s.dp.commit = false → (s.applyRwp 28).rd DPO_STATUS_MODE = dpCameo → (s.applyRwp 28).cameoMayLeave = false →
    exec .dpoFrameStart s = .next (s.applyRwp 28).cameoFrame) ∧
  (∀ s, s.isOn 28 = true → s.dp.commit = false → (s.applyRwp 28).rd DPO_STATUS_MODE = dpCameo → (s.applyRwp 28).cameoMayLeave = true →
    exec .dpoFrameStart s = .next (((s.applyRwp 28).raise 28 1).dpoResync)) ∧
  (∀ s, s.isOn 28 = true → s.rd DPO_STATUS_MODE ≠ dpCameo → s.dp.forceOff = none →
    Yields .cameoTimeout s fun t => t.dp.cameoDue = true ∧ SameWords [] s t) ∧
  (∀ s p v, Reaches s p DPO_CAMEO_CMD_FORCE.addr →
    exec (.cameoForce p v) s = .next (accepted s (s.cameoForced v) p DPO_CAMEO_CMD_FORCE.addr)) ∧
  (∀ s p, Reaches s p DPO_CAMEO_CMD_COMMIT.addr →
    exec (.cameoCommit p) s = .next (accepted s (s.modDp (fun d => { d with commit := true })) p DPO_CAMEO_CMD_COMMIT.addr)) ∧
  (∀ s l r fec, s.isOn 27 = true →
    Yields (.dpLinkTraining false 1 l r fec) s fun t => t.on DPI_STATUS_TRAINED = true ∧ t.on DPI_STATUS_FEC = fec ∧
      (t.word (PG_ISR 27).addr).getLsbD 0 = true) ∧
  (∀ s l r, s.isOn 28 = true → s.dp.tim = none → l < 4 → r < 4 →
    Yields (.dpLinkTraining true 1 l r false) s fun t => t.dp.trained = true ∧ t.rd DPO_STATUS_LANES = l ∧ t.rd DPO_STATUS_RATE = r) ∧
  (∀ s l r fec, s.isOn 27 = true → s.on DPI_STATUS_TRAINED = true →
    Yields (.dpLinkTraining false 2 l r fec) s fun t => t.on DPI_STATUS_TRAINED = false ∧ t.on DPI_STATUS_VIDEO = false ∧
      (t.word (PG_ISR 27).addr).getLsbD 1 = true) ∧
  (∀ s t f ph pp late, s.isOn 28 = true → s.dp.tim = some t → s.dpoFits t = true → s.rd DPO_STATUS_MODE ≠ dpCameo →
    s.dp.next = some (f, 0) → s.dp.held = [] →
    exec (.dpoLinePlayout ph pp late) s = .next ((((s.emit (.dpLine 2 0 [])).dpoMode dpBlack).modDp
      (fun d => { d with next := some (dpAfter t (f, 0)), blackFrame := true })).dpoPhase t ph pp)) ∧
  (∀ s l r fec, s.isOn 27 = true → l < 4 → r < 4 →
    Yields (.dpLinkTraining false 1 l r fec) s fun t => t.rd DPI_STATUS_LANES = min l (s.rd DPI_CTRL_MAX_LANES.inForce) ∧
      t.rd DPI_STATUS_RATE = min r (s.rd DPI_CTRL_MAX_RATE.inForce))

/-- AUX requests, hot plug and DisplayPort Alternate Mode act as the display rules say. A write within 0x100 to 0x2FF is taken by
the DPI and acknowledged; a native read from 0x300 on is forwarded and deferred (R240). An answer is held for the host's next retry
and changes no register; at the limit without one the request is marked for AUX_NACK, counted and raised (R240). The monitor's HPD
at the DPO's pin is shown and passed on; at the DPI a rise takes the mirror that came with it (R241). ENTERED is an accepted write
with a partner attached and is rejected with code 3 without one; the end of the settle time passes on the HPD that the host reports;
IRQ_HPD is passed on (R246). Where the spec is silent it follows the model: log entries 55, 56. It concludes, under conditions on
state and operands alone, that exec answers a next state for: auxRequest, auxAnswer, auxFwdTimeout, monitorHpdChange, dpaltEntered,
dpaltSettleEnd, dpaltIrqHpd. -/
def Obligations.DisplayAuxAndAltMode : Prop :=
  (∀ s a d, s.isOn 27 = true → 0x100 ≤ a → a + max 1 d.length ≤ 0x300 → d.length ≤ 16 →
    exec (.auxRequest false false a d.length d) s = .next ((s.auxWrite a d).auxAck [])) ∧
  (∀ s a n, s.isOn 27 = true → n ≤ 16 → 0x300 ≤ a → s.dp.fwd = none → s.engUp 10 = true →
    Yields (.auxRequest false true a n []) s fun t => t.dp.fwd = some ⟨false, true, a, n, []⟩ ∧ Out.auxAns 2 [] ∈ t.out ∧
      Out.auxReq ⟨false, true, a, n, []⟩ ∈ t.out) ∧
  (∀ s st d r, s.dp.fwd = some r → s.dp.ans = none → s.dp.nack = false → s.engUp 10 = true →
    Yields (.auxAnswer st d) s fun t => t.dp.ans = some (st % 3, d) ∧ SameWords [] s t) ∧
  (∀ s r, s.dp.fwd = some r → s.dp.ans = none → s.dp.nack = false →
    exec .auxFwdTimeout s = .next ((((s.modDp (fun d => { d with nack := true })).inc DPI_AUX_TIMEOUT).raise 27 3).dpiHpd)) ∧
  (∀ s l d e, s.isOn 28 = true → s.rd DPO_DPALT_STATUS_MUX_SEL = 0 → s.on DPO_STATUS_HPD_IN ≠ l →
    Yields (.monitorHpdChange false l false d e) s fun t => t.on DPO_STATUS_HPD_IN = l ∧ Out.mgmt 0 1 [l.toNat] ∈ t.out) ∧
  (∀ s l d e, s.domOn 10 = true → s.engUp 10 = true →
    let mir (x : DisplayS) := if l && !x.monHpd then some (d.take 256, e.take 512) else x.mirror
    exec (.monitorHpdChange true l false d e) s = .next ((s.modDp (fun x => { x with monHpd := l, mirror := mir x })).dpiHpd)) ∧
  (∀ s p v, Reaches s p DPO_DPALT_CTRL_ENTERED.addr → s.on SVC_TC_STATUS_ATTACHED = true →
    exec (.dpaltEntered p v) s = .next (accepted s (s.dpaltEntered v) p DPO_DPALT_CTRL_ENTERED.addr)) ∧
  (∀ s p, Reaches s p DPO_DPALT_CTRL_ENTERED.addr → s.on SVC_TC_STATUS_ATTACHED = false →
    exec (.dpaltEntered p true) s = .next (s.reject p DPO_DPALT_CTRL_ENTERED.addr 3
      (DPO_DPALT_CTRL_ENTERED.put 1 (s.word DPO_DPALT_CTRL_ENTERED.addr)).toNat)) ∧
  (∀ s, s.rd DPO_DPALT_STATUS_MUX_SEL ≠ 0 → s.dp.settled = false →
    exec .dpaltSettleEnd s = .next ((s.modDp (fun d => { d with settled := true })).dpoHpd (s.on DPO_DPALT_CTRL_HPD))) ∧
  (∀ s p, Reaches s p DPO_DPALT_CTRL_IRQ_HPD.addr → s.dp.settled = true → s.on DPO_STATUS_HPD_IN = true →
    exec (.dpaltIrqHpd p) s = .next (accepted s (s.emit (.mgmt 0 2 [])) p DPO_DPALT_CTRL_IRQ_HPD.addr))

/-- The service function and the frame timing act as the USB rules say. Console data goes to the routed UART, or to the service
console (R252). A line coding of an unknown parity is stalled; one in range is written to the UART's configuration; RTS follows the
host; an upload is stalled (R252, R253). A bus reset of U0 puts the function into Default with address 0, remote wake off and the
speed of the chirp (R254). A suspend or resume is shown with the address, configuration and remote-wake setting. REMOTE_WAKE_SIGNAL
of a bus that may be woken drives K, or, with the line at K already, only counts the collision (R255). HOST_SOF with an unchanged
offset shows the frame number and keeps the offset; at a pavilion another offset is taken over, counted as a slip and raised (R263).
Where the spec is silent it follows the model: log entries 61, 62. It concludes, under conditions on state and operands alone, that
exec answers a next state for: acmData, setLineCoding, setControlLineState, dfuUpload, usbBusReset, remoteWakeSignal, hostSof,
fnOfsMsg, usbdSuspendChange. -/
def Obligations.UsbFunctionCommands : Prop :=
  (∀ s d r, s.iface 1 = true → s.rd USBD_CTRL_ACM_ROUTE = r → r ≤ 3 → s.isOn 26 = true → s.on (LSIO_UART_CFG_EN r).inForce = true →
    Yields (.acmData d) s fun t => t = s.emit (.unitTx 1 r 0 d)) ∧
  (∀ s d, s.iface 1 = true → 3 < s.rd USBD_CTRL_ACM_ROUTE → Yields (.acmData d) s fun t => t = s.emit (.unitTx 5 0 0 d)) ∧
  (∀ s b st p n, s.iface 1 = true → s.rd USBD_CTRL_ACM_ROUTE ≤ 3 → 2 < p →
    Yields (.setLineCoding b st p n) s fun t => t = s.emit (.usbFn 4)) ∧
  (∀ s b r, s.iface 1 = true → s.rd USBD_CTRL_ACM_ROUTE = r → r ≤ 3 → b ≠ 0 → 5 ≤ baudDiv b → baudDiv b ≤ 55556 →
    Yields (.setLineCoding b 2 1 7) s fun t => t.rd (LSIO_UART_CFG_DIV r) = baudDiv b ∧ t.rd (LSIO_UART_CFG_PARITY r) = 1 ∧
      t.on (LSIO_UART_CFG_STOP2 r) = true ∧ t.on (LSIO_UART_CFG_BITS7 r) = true) ∧
  (∀ s v, s.iface 1 = true → s.rd USBD_CTRL_ACM_ROUTE ≤ 3 →
    Yields (.setControlLineState v) s fun t => t = s.emit (.uartRts (s.rd USBD_CTRL_ACM_ROUTE) v)) ∧
  (∀ s, s.iface 2 = true → Yields .dfuUpload s fun t => t = s.emit (.usbFn 4)) ∧
  (∀ s hs, s.isOn 29 = true → 1 ≤ s.rd USBD_STATUS_STATE → s.usb.left = false →
    Yields (.usbBusReset false false hs) s fun t => t.rd USBD_STATUS_STATE = 3 ∧ t.rd USBD_STATUS_ADDRESS = 0 ∧
      t.on USBD_STATUS_RWAKE = false ∧ t.on USBD_STATUS_SUSPENDED = false ∧
      t.rd USBD_STATUS_SPEED = (if hs && !s.on USBD_CTRL_FS_ONLY then 3 else 2)) ∧
  (∀ s v a c w, s.isOn 29 = true → 3 ≤ s.rd USBD_STATUS_STATE → s.on USBD_STATUS_SUSPENDED ≠ v →
    Yields (.usbdSuspendChange v a c w) s fun t => t.on USBD_STATUS_SUSPENDED = v ∧ t.rd USBD_STATUS_ADDRESS = a % 128 ∧
      t.on USBD_STATUS_RWAKE = w ∧ t.rd USBD_STATUS_STATE = (if a % 128 = 0 then 3 else if c then 5 else 4)) ∧
  (∀ s, s.mayWake false = true → Yields (.remoteWakeSignal false false false) s fun t => t = s.emit (.usbFn 2)) ∧
  (∀ s hk, s.mayWake false = true → Yields (.remoteWakeSignal false true hk) s fun t => t = s.inc USBD_RESUME_COLLIDE) ∧
  (∀ s f x, s.crown = true → s.isOn 30 = true →
    (f % 2048 + 2048 - (x + 62500) / 125000 % 2 ^ 32 / 8 % 2048) % 2048 = s.rd USBH_FN_OFS_OFS →
    Yields (.hostSof f x) s fun t => t.rd USBH_HUB_STATUS_FRAME = f % 2048 ∧ t.rd USBH_FN_OFS_OFS = s.rd USBH_FN_OFS_OFS) ∧
  (∀ s m, s.isOn 30 = true → s.crown = false → byteAt m 0 = 5 →
    beNat ((m.drop 8).take 4) % 2048 ≠ s.rd USBH_FN_OFS_OFS →
    Yields (.fnOfsMsg m) s fun t => t.rd USBH_FN_OFS_OFS = beNat ((m.drop 8).take 4) % 2048 ∧
      t.rd USBH_FN_SLIP = (s.rd USBH_FN_SLIP + 1) % 2 ^ 32 ∧ (t.word (PG_ISR 30).addr).getLsbD 3 = true) ∧
  (∀ s, s.mayWake true = true → Yields (.remoteWakeSignal true false false) s fun t => Out.usbFn 3 ∈ t.out ∧ t.usb.hubWake = false ∧
    SameWords [] s t)

/-- The split hub's ports follow their device, their resets and their power states. A device change at a local PHY is shown in its
port word, with what was deferred for a device that left forgotten, and is reported (R256). A port status message at the crown shows
the port's over-current and power. A port reset at the crown, with nothing deferred, disables the port and sends the command to the
pavilion; there the PHY forgets its transactions, drives reset and reports, with a device enabled at the speed of the chirp (R265).
A port command to suspend stops SOF at the PHY, one to resume drives resume, and each changes only the port's word. The suspended
hub is shown, raised and given the host's remote-wake setting; a remote wake that reaches the crown marks the port's change, and
where the hub is suspended with remote wake enabled the hub is to signal it (R267). Where the spec is silent it follows the model:
log entry 143. It concludes, under conditions on state and operands alone, that exec answers a next state for: phyPortChange,
portReset, portStatusMsg, hubSuspend, hostResume, pavilionRemoteWake. -/
def Obligations.UsbHubPortCommands : Prop :=
  (∀ s u d sp oc pw, (u = 0 ∧ s.on SVC_TC_STATUS_DATA_ROLE = true) ∨ (2 ≤ u ∧ u ≤ 5) → s.isOn 30 = true →
    let b (i : Nat) : Bool := bitsOf (s.rd (USBH_LPORT_ST u)) i i == 1
    let w := portWord (if d then sp else 0) oc (b 7 && d) (d && b 6 && b 5) d pw
    exec (.phyPortChange u d sp oc pw) s =
      .next ((((s.wr (USBH_LPORT_ST u) w).when (!d) (·.phyForget u)).raise 30 0).sendPhyStatus u)) ∧
  (∀ s p m, s.crown = true → s.isOn 30 = true → 1 ≤ p → p ≤ 15 → byteAt m 0 = 4 →
    Yields (.portStatusMsg p m) s fun t =>
      t.on (USBH_PORT_ST_OVERCURRENT p) = (bitsOf (beNat ((m.drop 8).take 4)) 8 8 == 1) ∧
      t.on (USBH_PORT_ST_POWER p) = (bitsOf (beNat ((m.drop 8).take 4)) 4 4 == 1)) ∧
  (∀ s p hs sp, s.crown = true → s.isOn 30 = true → 1 ≤ p → p ≤ 15 → s.on (USBH_PORT_ST_CONNECTED p) = true →
    s.usb.deferred = [] →
    exec (.portReset true ⟨p, hs, sp⟩) s = .next ((((s.dropDeferred (· == p)).flag (USBH_PORT_ST_ENABLED p) false).modUsb
      (fun u => { u with resetting := u.resetting.filter (· != p) ++ [p] })).hubMsg p
        (usbMsg 3 0 0 false 0 0 ((s.dropDeferred (· == p)).on USBH_HUB_STATUS_HOST_HS) 0 (beBytes 4 4)))) ∧
  (∀ s n hs sp, s.isOn 30 = true → n ≤ 5 → n ≠ 1 → bitsOf (s.rd (USBH_LPORT_ST n)) 5 5 = 0 →
    exec (.portReset false ⟨n, hs, sp⟩) s = .next (((s.phyForget n).emit (.usbPhy n 2 0)).sendPhyStatus n)) ∧
  (∀ s n w, s.isOn 30 = true → n ≤ 5 → n ≠ 1 →
    Yields (.hubSuspend false n w) s fun t => t.rd (USBH_LPORT_ST n) = (s.rd (USBH_LPORT_ST n) ||| 128) % 2 ^ 32 ∧ Out.usbPhy n 3 0 ∈ t.out ∧
      SameWords [(USBH_LPORT_ST n).addr] s t) ∧
  (∀ s n, s.isOn 30 = true → n ≤ 5 → n ≠ 1 → bitsOf (s.rd (USBH_LPORT_ST n)) 7 7 = 1 →
    Yields (.hostResume false n) s fun t => t.rd (USBH_LPORT_ST n) = (s.rd (USBH_LPORT_ST n) - 128) % 2 ^ 32 ∧ Out.usbPhy n 4 0 ∈ t.out ∧
      SameWords [(USBH_LPORT_ST n).addr] s t) ∧
  (∀ s w, s.isOn 30 = true → s.crown = true → s.mappedPorts = [] →
    exec (.hubSuspend true 0 w) s = .next (((s.flag USBH_HUB_STATUS_SUSPENDED true).raise 30 1).modUsb
      (fun u => { u with hubRwake := w, hubWake := false, hubSusp := s.elapsed }))) ∧
  (∀ s n, s.isOn 30 = true → s.crown = true → 1 ≤ n → n ≤ 15 → s.usb.hubRwake = true → s.on USBH_HUB_STATUS_SUSPENDED = true →
    Yields (.pavilionRemoteWake true n) s fun t => 
      t = ((s.portChg n).raise 30 2).modUsb (fun u => { u with hubWake := true })) ∧
  (∀ s n hs sp, s.isOn 30 = true → n ≤ 5 → n ≠ 1 → bitsOf (s.rd (USBH_LPORT_ST n)) 5 5 = 1 →
    let b (i : Nat) : Bool := bitsOf (s.rd (USBH_LPORT_ST n)) i i == 1
    let w := portWord (if sp = 3 ∧ !hs then 2 else sp) (b 8) false true true (b 4)
    exec (.portReset false ⟨n, hs, sp⟩) s = .next ((((s.phyForget n).wr (USBH_LPORT_ST n) w).emit (.usbPhy n 2 0)).sendPhyStatus n)) ∧
  (∀ (s : State) n, (s.phyForget n).usb.run.all (·.phy != n) = true ∧ (s.phyForget n).usb.sched.all (·.port != n) = true ∧
    SameWords [] s (s.phyForget n)) ∧
  (∀ s n, s.isOn 30 = true → s.crown = true → 1 ≤ n → n ≤ 15 → s.on USBH_HUB_STATUS_SUSPENDED = false →
    Yields (.pavilionRemoteWake true n) s fun t => t = (s.portChg n).raise 30 2)

/-- Transactions through the split hub are deferred, run, repeated, reported and aborted. A token for a port that is not connected
gets no answer of a device. A SETUP for an enabled port, with engine 9 up, replaces what was deferred for its endpoint, is deferred
and acknowledged (R259). At the pavilion a bulk request with none of its endpoint before it is run on its bus; a periodic IN
endpoint joins the schedule; a waiting transaction that is the first of its endpoint is tried again; a poll of an IN endpoint that
gets no data sends the token (R258, R262). A result with data is held under its tag and changes no register; a stale transaction is
abandoned and an abort sent, which the pavilion answers with the result code for aborted (R260). Where the spec is silent it follows
the model: log entries 59, 60, 143. It concludes, under conditions on state and operands alone, that exec answers a next state for:
hostTransaction, usbTransactionRequest, pavilionRepeat, usbResult, deferStale, abortDevice, periodicPoll. -/
def Obligations.UsbTransactionCommands : Prop :=
  (∀ s p a e ty k g d, s.crown = true → s.isOn 30 = true → 1 ≤ p → p ≤ 15 → k ≤ 9 → s.usb.absent = [] → s.on (USBH_PORT_ST_CONNECTED p) = false →
    exec (.hostTransaction p a e ty k g d) s = .next (s.hostAns p a e 5 false [])) ∧
  (∀ s p a e g d, s.crown = true → s.isOn 30 = true → 1 ≤ p → p ≤ 15 → s.usb.absent = [] → s.on (USBH_PORT_ST_CONNECTED p) = true →
    s.on (USBH_PORT_ST_ENABLED p) = true → s.engUp 9 = true →
    exec (.hostTransaction p a e 0 0 g d) s = .next (((s.modUsb (fun u => { u with
      deferred := u.deferred.filter (fun d => !(d.port == p && d.addr == a && d.ep == e)) })).deferNew p a e 0 0 g d).hostAns p a e 0 false [])) ∧
  (∀ s u m r d l, s.isOn 30 = true → byteAt m 0 = 1 → u ≤ 5 → u ≠ 1 → r ≤ 3 → (phyTrOf u m).typ = 2 →
    s.usb.run.any (fun x => x.sameEp (phyTrOf u m)) = false →
    exec (.usbTransactionRequest u m r d l) s = .next (s.tryPhy (phyTrOf u m) r d l)) ∧
  (∀ s u m r d l, s.isOn 30 = true → byteAt m 0 = 1 → u ≤ 5 → u ≠ 1 → r ≤ 3 → (phyTrOf u m).typ = 3 → (phyTrOf u m).kind = 1 →
    Yields (.usbTransactionRequest u m r d l) s fun t => SameWords [] s t ∧
      t.usb.sched = s.usb.sched.filter (fun x => !(x.port == u && x.tag == (phyTrOf u m).tag)) ++
        [⟨u, (phyTrOf u m).addr, (phyTrOf u m).ep, 3, true, (phyTrOf u m).tag, [], false, false⟩]) ∧
  (∀ s i r d l x, s.isOn 30 = true → r ≤ 3 → s.usb.run[i]? = some x → (s.usb.run.take i).any (fun y => y.sameEp x) = false →
    exec (.pavilionRepeat i r d l) s = .next (s.tryPhy x r d l)) ∧
  (∀ s i d x, s.isOn 30 = true → s.usb.sched[i]? = some x → x.isIn = true →
    Yields (.periodicPoll i 1 d) s fun t => t = s.emit (.usbTok x.port x.addr x.ep 1 (s.toggle x.port x.addr (x.ep + 16)) [])) ∧
  (∀ s p m d, s.crown = true → s.isOn 30 = true → byteAt m 0 = 2 → byteAt m 3 / 16 = 0 →
    s.usb.deferred.find? (fun d => d.port == p && d.tag == halfAt m 6) = some d → d.res = none →
    Yields (.usbResult p m) s fun t => SameWords [] s t ∧ t.usb.deferred = s.usb.deferred.map (fun (x : Deferred) =>
      if x.tag = halfAt m 6 then { x with res := some (0, byteAt m 3 % 2 == 1, (m.drop 8).take (halfAt m 4)), abandoned := false } else x)) ∧
  (∀ s g d, s.usb.deferred.find? (fun d => d.tag == g) = some d → d.res = none → d.abandoned = false →
    exec (.deferStale g) s = .next ((s.modUsb (fun u => { u with deferred := u.deferred.map (fun (x : Deferred) =>
      if x.tag = g then { x with abandoned := true } else x) })).hubMsg d.port (usbMsg 6 d.addr d.ep (d.kind == 1) d.typ 0 false g []))) ∧
  (∀ s u m r, s.isOn 30 = true → byteAt m 0 = 6 → s.usb.run.find? (fun r => r.phy == u && r.tag == halfAt m 6) = some r →
    exec (.abortDevice u m) s = .next ((s.modUsb (fun x => { x with run := x.run.filter (fun y => !(y.phy == u && y.tag == r.tag)) })).result r 4 false []))

/-- Ethernet ports, redundancy and PTP act on frames and messages as their rules say. A link change is shown, with autonegotiation
where the mode has it, and with the rate of the control word in mode 3 (R270). A received frame is counted; one under 64 bytes is
counted in LEN_ERR and goes no further, one up to MAX_LEN with a good FCS is taken whole, one with a bad FCS is counted in FCS_ERR
and taken as bad; a frame of type 0x8808 ends at the port, counted (R271). A TX underrun of a started frame without a stored cell
ends that frame; one whose frame is gone ends the transmission (R445). With engine 7 running and both ports up, a supervision frame
of an active LRE goes out on each and takes the next sequence number; a node unseen for 60 s is removed and raised (R277). A sent
two-step Sync is stamped, its correction is the residence time of a transparent clock, and its Follow_Up is due; FOLLOW_UP_SEND
sends it; a received Pdelay_Resp gives the path delay (R279). An Announce shows the port states and the grandmaster that follow, and
with PTP as the source what the grandmaster says of UTC (R173, R280). Where the spec is silent it follows the model: log entries 63,
64, 65. It concludes, under conditions on state and operands alone, that exec answers a next state for: ethFrameRx, txUnderrun,
supervisionSend, nodeForget, ptpEventMessage, followUpSend, ethLinkChange, announceReceived. -/
def Obligations.EthernetPortCommands : Prop :=
  (∀ s k l a v, k < 4 → s.isOn (31 + k) = true →
    Yields (.ethLinkChange k l a v) s fun t => 
      t.on (ETH_STATUS_LINK k) = (l && (decide (s.rd (ETH_CTRL_MODE k).inForce < 2) || a)) ∧
      t.on (ETH_STATUS_AN_DONE k) = (a && decide (2 ≤ s.rd (ETH_CTRL_MODE k).inForce)) ∧
      t.rd (ETH_STATUS_SPEED k) = (if s.rd (ETH_CTRL_MODE k).inForce = 3 then v % 4 else 3)) ∧
  (∀ s k d ok ns st q c, k < 4 → s.ethUp k = true → d.length < 64 →
    exec (.ethFrameRx k d ok ns st q c) s = .next ((s.inc (ETH_RX_FRAMES k)).inc (ETH_LEN_ERR k))) ∧
  (∀ s k d ns st q c, k < 4 → s.ethUp k = true → 64 ≤ d.length → d.length ≤ (s.inc (ETH_RX_FRAMES k)).rd (ETH_CTRL_MAX_LEN k).inForce →
    exec (.ethFrameRx k d true ns st q c) s = .next ((s.inc (ETH_RX_FRAMES k)).ethTake k d ns st q none)) ∧
  (∀ s k d ns st q c, k < 4 → s.ethUp k = true → 64 ≤ d.length → d.length ≤ (s.inc (ETH_RX_FRAMES k)).rd (ETH_CTRL_MAX_LEN k).inForce →
    exec (.ethFrameRx k d false ns st q c) s = .next (((s.inc (ETH_RX_FRAMES k)).inc (ETH_FCS_ERR k)).ethTake k d ns st q (some c))) ∧
  (∀ (s : State) k d ns st q, halfAt d 12 = 0x8808 → s.ethTake k d ns st q none = s.inc (ETH_CTRL_DROP k)) ∧
  (∀ s k tc f r, k < 4 → tget? s.gird.openAt (6 + k) = some tc → s.queue (8 * (6 + k) + tc) = f :: r → f.started = true → f.cells = [] →
    exec (.txUnderrun k) s = .next (s.underrun (6 + k) tc)) ∧
  (∀ s x, x < 2 → s.lreMode (2 * x) ≠ 0 → s.rd (FAC_ENG_STATE_STATE 7) = 2 → s.ethUp (2 * x) = true → s.ethUp (2 * x + 1) = true →
    Yields (.supervisionSend x) s fun t => t.rd (ETH_TX_FRAMES (2 * x)) = (s.rd (ETH_TX_FRAMES (2 * x)) + 1) % 2 ^ 32 ∧
      t.rd (ETH_TX_FRAMES (2 * x + 1)) = (s.rd (ETH_TX_FRAMES (2 * x + 1)) + 1) % 2 ^ 32 ∧
      tget 0 t.stn.redSeq x = (tget 0 s.stn.redSeq x + 1) % 65536 ∧
      SameWords [(ETH_TX_FRAMES (2 * x)).addr, (ETH_TX_FRAMES (2 * x + 1)).addr] s t) ∧
  (∀ s x m q, s.rd (FAC_ENG_STATE_STATE 7) = 2 → (x, m, q) ∈ s.stn.nodes → q + 60000000000 ≤ s.elapsed →
    Yields (.nodeForget x m) s fun t => t.stn.nodes = s.stn.nodes.filter (fun e => !(e.1 == x && e.2.1 == m)) ∧
      (t.word (PG_ISR 35).addr).getLsbD 0 = true) ∧
  (∀ s k q raw a b r, k < 4 → s.isOn 37 = true → s.on PTP_CTRL_ONE_STEP.inForce = false →
    Yields (.ptpEventMessage k true 0 q raw a b (some r)) s fun t => (k, 0, q, raw + s.rd (PTP_TXDLY k)) ∈ t.stn.ptpTx ∧
      k ∈ t.stn.followUp ∧ t.out = s.out ++ [.ptp k 0 q (raw + s.rd (PTP_TXDLY k))
        (if s.rd PTP_CTRL_TYPE.inForce = 2 then ((raw + s.rd (PTP_TXDLY k) : Nat) : Int) - r else 0) s.clockClass] ∧ SameWords [] s t) ∧
  (∀ s k q raw a b r, k < 4 → s.isOn 37 = true → s.stn.ptpTx.find? (fun e => e.1 == k && e.2.1 == 2 && e.2.2.1 == q) = some r →
    exec (.ptpEventMessage k false 3 q raw a b none) s =
      .next (s.wr (PTP_PDELAY k) (((raw - s.rd (PTP_RXDLY k) - r.2.2.2) - (b - a)) / 2))) ∧
  (∀ s k e, k ∈ s.stn.followUp → s.rd (FAC_ENG_STATE_STATE 3) = 2 → s.stn.ptpTx.find? (fun e => e.1 == k && e.2.1 == 0) = some e →
    Yields (.followUpSend k) s fun t => t.stn.followUp = s.stn.followUp.filter (· != k) ∧
      t.out = s.out ++ [.ptp k 8 e.2.2.1 e.2.2.2 0 s.clockClass] ∧ SameWords [] s t) ∧
  (∀ s k st g, k < 4 → s.isOn 37 = true → s.rd (FAC_ENG_STATE_STATE 3) = 2 →
    Yields (.announceReceived k st (g, none)) s fun t => t.rd PTP_PORT_ST = st % 65536 ∧ t.stn.gm = g) ∧
  (∀ s k tc, k < 4 → tget? s.gird.openAt (6 + k) = some tc → s.openThere (6 + k) tc = false →
    exec (.txUnderrun k) s = .next (s.openLost (6 + k))) ∧
  (∀ s k u, k < 4 → s.isOn 37 = true → s.rd (FAC_ENG_STATE_STATE 3) = 2 → s.rd TIME_SRC_CTRL_SRC = 1 →
    s.rd PTP_PORT_ST < 65536 →
    Yields (.announceReceived k (s.rd PTP_PORT_ST) (s.stn.gm, some u)) s fun t => t.on TIME_UTC_OFS_VALID = u.valid ∧
      t.on TIME_UTC_OFS_LI59 = u.li59 ∧ t.on TIME_UTC_OFS_LI61 = u.li61 ∧ SameWords [TIME_UTC_OFS_VALID.addr] s t)

/-- Matched frames, expiries, repetitions and the window commands of the station services. GOOSE_FRAME_MATCHED and SV_FRAME_MATCHED
check the matched frame of their kind that waits longest. A GOOSE frame is accepted without a base; as new with the next stNum, 1
after 0xFFFFFFFF, and sqNum 0; with the next sqNum; with a later sqNum, counted as a gap; and with another stNum, counted as a jump;
an earlier or equal sqNum is discarded and counted (R283). At its expiry a subscription drops its base, shows TAL_EXP and raises its
event bit (R283). A repetition raises sqNum and sends the frame (R288). LOAD, COMMIT and CLR_CNT of the window are accepted command
writes, and a COMMIT whose window fails changes only the reason (R285, R286). Where the spec is silent it follows the model: log
entries 66, 67, 144. It concludes, under conditions on state and operands alone, that exec answers a next state for:
gooseFrameMatched, svFrameMatched, talExpiry, publicationRepeat, stnLoad, stnCommit, stnClrCnt. -/
def Obligations.SubscriptionsAndPublications : Prop :=
  (∀ s i b q u, s.takeMatched false = some ((i, b, q), u) → exec .gooseFrameMatched s = .next (u.gooseFrame i b q)) ∧
  (∀ s i b q u, s.takeMatched true = some ((i, b, q), u) → exec .svFrameMatched s = .next (u.svFrame i b q)) ∧
  (∀ sN qN st sq, gooseCheck false sN qN st sq = (true, false, none)) ∧
  (∀ sN qN, sN < 0xFFFFFFFF → gooseCheck true sN qN (sN + 1) 0 = (true, true, none)) ∧
  (∀ qN, gooseCheck true 0xFFFFFFFF qN 1 0 = (true, true, none)) ∧
  (∀ sN qN, qN < 0xFFFFFFFF → gooseCheck true sN qN sN (qN + 1) = (true, false, none)) ∧
  (∀ sN qN sq, qN + 1 < sq → gooseCheck true sN qN sN sq = (true, false, some 0)) ∧
  (∀ sN qN sq, sq ≤ qN → sq ≠ 1 ∨ qN < 0xFFFFFFFF → gooseCheck true sN qN sN sq = (false, false, some 1)) ∧
  (∀ sN qN st sq, st ≠ sN → sq ≠ 0 ∨ st ≠ (if sN ≥ 0xFFFFFFFF then 1 else sN + 1) → gooseCheck true sN qN st sq = (true, true, some 2)) ∧
  (∀ s i q, i < 512 → s.isOn 36 = true → tget? s.stn.expiry i = some q → q ≤ s.nowQ + 3 →
    Yields (.talExpiry i) s fun t => t.bit (SUB_STATUS i) subBase = false ∧ t.bit (SUB_STATUS i) subTalExp = true ∧
      t.bit (STN_SUB_EVT (i / 32)) (i % 32) = true ∧ (t.word (PG_ISR 36).addr).getLsbD 0 = true ∧ tget? t.stn.expiry i = none) ∧
  (∀ s i p, i < 32 → s.isOn 36 = true → s.on (PUB_EN i) = true → tget? s.stn.pubs i = some p → s.rd (PUB_STSQ i 1) < 0xFFFFFFFF →
    exec (.publicationRepeat i) s = .next (((s.wr (PUB_STSQ i 1) (s.rd (PUB_STSQ i 1) + 1)).modStn
      (fun t => { t with pubs := tset t.pubs i { p with k := p.k + 1 } })).pubSend i)) ∧
  (∀ s p, Reaches s p STN_CMD_LOAD.addr → exec (.stnLoad p) s = .next (accepted s (s.stnLoad p) p STN_CMD_LOAD.addr)) ∧
  (∀ s p, Reaches s p STN_CMD_COMMIT.addr → exec (.stnCommit p) s = .next (accepted s (s.stnCommit p) p STN_CMD_COMMIT.addr)) ∧
  (∀ s p, Reaches s p STN_CMD_CLR_CNT.addr → exec (.stnClrCnt p) s = .next (accepted s (s.stnClr p) p STN_CMD_CLR_CNT.addr)) ∧
  (∀ (s : State) p, s.winPub p = false → s.subReason p ≠ 0 → s.stnCommit p = s.wr (STN_STATUS_REASON.onPath p) (s.subReason p)) ∧
  (∀ (s : State) p, s.winPub p = true → s.pubReason p ≠ 0 → s.stnCommit p = s.wr (STN_STATUS_REASON.onPath p) (s.pubReason p))

/-- The scribe seals, writes, hands over and takes back the log. A seal in state 1 with entries staged takes up to 63 of them into
the block of the next sequence number, sends it to the next ring position and changes no register (R290). A completed write that is
not the last shows its sequence number; a failed one is counted and raised. The search for the highest valid block sets where the
log goes on, or that it begins at 1, and changes no register (R290). The handover passes from state 1 to 2, and with no write
outstanding to 3 or 4; the queue pair's coming and going moves between 3 and 4; the scribe takes the controller back in state 1 with
nothing outstanding (R291). Where the spec is silent it follows the model: log entries 69, 109. It concludes, under conditions on
state and operands alone, that exec answers a next state for: scribeSeal, scribeWriteDone, scribeStart, scribeHandover,
scribeTakeOwnership. -/
def Obligations.ScribeCommands : Prop :=
  (∀ s, s.rd NVS_STATUS_STATE = 1 → s.stn.stage ≠ [] →
    Yields .scribeSeal s fun t => t.stn.stage = s.stn.stage.drop 63 ∧ t.stn.inFlight = s.stn.inFlight ++ [s.stn.blockSeq] ∧
      t.stn.blockSeq = (s.stn.blockSeq + 1) % 2 ^ 32 ∧ t.stn.blockPos = (s.stn.blockPos + 1) % max 1 (s.rd NVS_RING_LEN.inForce) ∧
      t.out = s.out ++ [.nvme (s.rd NVS_RING_START_LO.inForce + 2 ^ 32 * s.rd NVS_RING_START_HI.inForce + Config.lbaPerBlock * s.stn.blockPos)
        (logBlock s.stn.blockSeq s.recTime s.chip.unitId (s.stn.stage.take 63))] ∧ SameWords [] s t) ∧
  (∀ s n m l, s.stn.inFlight = n :: m :: l →
    Yields (.scribeWriteDone true) s fun t => t.stn.inFlight = m :: l ∧ t.rd NVS_BLOCK_SEQ = n % 2 ^ 32 ∧ SameWords [NVS_BLOCK_SEQ.addr] s t) ∧
  (∀ s n m l, s.stn.inFlight = n :: m :: l →
    Yields (.scribeWriteDone false) s fun t => t.stn.inFlight = m :: l ∧ t.rd NVS_WRITE_ERR = (s.rd NVS_WRITE_ERR + 1) % 2 ^ 32 ∧
      (t.word (PG_ISR 38).addr).getLsbD 1 = true) ∧
  (∀ s n k, s.rd NVS_STATUS_STATE = 1 →
    Yields (.scribeStart (some (n, k))) s fun t => t.stn.blockSeq = (n + 1) % 2 ^ 32 ∧
      t.stn.blockPos = (k + 1) % max 1 (s.rd NVS_RING_LEN.inForce) ∧ SameWords [] s t) ∧
  (∀ s, s.rd NVS_STATUS_STATE = 1 →
    Yields (.scribeStart none) s fun t => t.stn.blockSeq = 1 ∧ t.stn.blockPos = 0 ∧ SameWords [] s t) ∧
  (∀ s f, s.rd NVS_STATUS_STATE = 1 →
    Yields (.scribeHandover 0 f) s fun t => t.rd NVS_STATUS_STATE = 2 ∧ t.stn.handover = true) ∧
  (∀ s f, s.rd NVS_STATUS_STATE = 2 → s.stn.inFlight = [] →
    Yields (.scribeHandover 1 f) s fun t => t.rd NVS_STATUS_STATE = (if f then 3 else 4) ∧ t.stn.handover = false ∧
      Out.scribe 2 ∈ t.out) ∧
  (∀ s f, s.rd NVS_STATUS_STATE = 3 ∨ s.rd NVS_STATUS_STATE = 4 →
    Yields (.scribeHandover 2 f) s fun t => t.rd NVS_STATUS_STATE = (if f then 3 else 4)) ∧
  (∀ s, s.isOn 38 = true → 2 ≤ s.rd NVS_STATUS_STATE →
    Yields .scribeTakeOwnership s fun t => t.rd NVS_STATUS_STATE = 1 ∧ t.stn.inFlight = [] ∧ t.stn.handover = false ∧ Out.scribe 1 ∈ t.out)

/-- The facet engines crash, reload and answer as their rules say. ENGINE_CRASH of a living engine, and ENGINE_WATCHDOG of a running
one, make it crash with their cause (R294, R295). A good reload makes the engine run with the firmware version of the image and
posts its notice; a bad one halts it with cause 7 (R294). Services that are ready clear DEGRADED and raise RESTORED. RESTART is an
accepted write that makes a running engine crash with cause 6, and is rejected with code 3 during a reload (R298). RING sends the
request, which sets BUSY unless the engine crashed in that instant, and is rejected with code 3 while BUSY is 1; the engine takes a
request and clears BUSY; its first response is written and sets READY; ACK clears READY and lets the next one be written (R299).
Where the spec is silent it follows the model: log entries 70, 71, 72. It concludes, under conditions on state and operands alone,
that exec answers a next state for: engineCrash, engineWatchdog, engineReloaded, engineServicesReady, engRestart, mbxRing,
mailboxTake, mailboxResponse, mbxAck. -/
def Obligations.EngineCommandsComplete : Prop :=
  (∀ s e c, s.engAlive e = true → 2 ≤ c → c ≤ 5 → exec (.engineCrash e c) s = .next (s.engCrash e c)) ∧
  (∀ s e, e < 16 → s.engUp e = true → exec (.engineWatchdog e) s = .next (s.engCrash e 1)) ∧
  (∀ s e, e < 16 → s.engState e = engReloading →
    exec (.engineReloaded e true true) s =
      .next (((s.setEng e engRunning).wr (FAC_ENG_INFO_FW_VER e) (s.rd BOOT_IMG_VERSION % 65536)).notice e)) ∧
  (∀ s e rd sm, e < 16 → s.engState e = engReloading → (rd && sm) = false →
    Yields (.engineReloaded e rd sm) s fun t => t = s.engHalt e 7 ∧ t.engState e = engHalted ∧ t.rd (FAC_ENG_STATE_LAST_CAUSE e) = 7) ∧
  (∀ s e, e < 16 → s.engUp e = true → s.on (FAC_ENG_STATE_DEGRADED e) = true →
    Yields (.engineServicesReady e) s fun t => t.on (FAC_ENG_STATE_DEGRADED e) = false ∧ t.bit FAC_ENG_SUMMARY_DEGRADED e = false ∧
      (t.word (PG_ISR 11).addr).getLsbD 2 = true) ∧
  (∀ s p e, e < 16 → Reaches s p (FAC_ENG_CTRL_RESTART e).addr → s.engState e ≠ engLoading → s.engState e ≠ engReloading →
    exec (.engRestart p e) s = .next (accepted s ((cmdEngRestart e).act s) p (FAC_ENG_CTRL_RESTART e).addr)) ∧
  (∀ s e, s.engState e = engRunning → (cmdEngRestart e).act s = s.engCrash e 6) ∧
  (∀ s p e, e < 16 → Reaches s p (FAC_ENG_CTRL_RESTART e).addr → s.engState e = engReloading →
    exec (.engRestart p e) s = .next (s.reject p (FAC_ENG_CTRL_RESTART e).addr 3 ((s.word (FAC_ENG_CTRL_RESTART e).addr).toNat ||| 2 ^ (FAC_ENG_CTRL_RESTART e).lo))) ∧
  (∀ s p e, e < 16 → Reaches s p (FAC_DB_RING e).addr → s.on (FAC_DB_BUSY e) = false →
    exec (.mbxRing p e) s = .next (accepted s (s.ring e) p (FAC_DB_RING e).addr)) ∧
  (∀ s p e, e < 16 → Reaches s p (FAC_DB_RING e).addr → s.on (FAC_DB_BUSY e) = true →
    exec (.mbxRing p e) s = .next (s.reject p (FAC_DB_RING e).addr 3 ((s.word (FAC_DB_RING e).addr).toNat ||| 2 ^ (FAC_DB_RING e).lo))) ∧
  (∀ s e, e < 16 → s.engUp e = true → s.on (FAC_DB_BUSY e) = true → (s.eng e).req = none →
    Yields (.mailboxTake e) s fun t => (t.eng e).req = some (s.mbxIn e) ∧ t.on (FAC_DB_BUSY e) = false) ∧
  (∀ s e r l, e < 16 → (s.eng e).resp = r :: l → s.on (FAC_DB_READY e) = false →
    Yields (.mailboxResponse e) s fun t => (t.eng e).resp = l ∧ t.on (FAC_DB_READY e) = true) ∧
  (∀ s p e, e < 16 → Reaches s p (FAC_DB_ACK e).addr → s.on (FAC_DB_READY e) = true →
    exec (.mbxAck p e) s = .next (accepted s ((s.setReady e false).writeOut e) p (FAC_DB_ACK e).addr)) ∧
  (∀ (s : State) e, (s.eng e).crashAt ≠ some s.elapsed → s.ring e = s.flag (FAC_DB_BUSY e) true)

/-- A running engine answers each mailbox command that it has taken. PING gives its words back, or status 1 for more than 15;
VERSION gives the firmware version, the rollback index and the segment's digest, LOAD the utilisation, which ENG_INFO then shows,
and the margin, each with status 1 for a length other than 0; the commands that name nothing are answered with status 2; so is a
diagnostic command unless debug is unlocked, and then with the answer that it gives (R300). Each answer takes the request, stands
behind the responses that wait, and but for LOAD changes no register. Where the spec is silent it follows the model: log entries 73,
146. It concludes, under conditions on state and operands alone, that exec answers a next state for: mbxPing, mbxVersion, mbxLoad,
unknownMailboxCommand, diagnosticCommand. -/
def Obligations.MailboxCommandsAnswered : Prop :=
  let asks (s : State) (e cmd len : Nat) (q : List Nat) : Prop :=
    e < 16 ∧ s.engUp e = true ∧ (s.eng e).req = some q ∧ bitsOf ((q[0]?).getD 0) 31 24 = cmd ∧ reqLen q = len
  let answered (s t : State) (e status : Nat) (q data : List Nat) : Prop :=
    (t.eng e).req = none ∧ SameWords [] s t ∧
    (t.eng e).resp = (s.eng e).resp ++ [mbxHeader (bitsOf ((q[0]?).getD 0) 31 24) (bitsOf ((q[0]?).getD 0) 23 16) data.length status :: data]
  (∀ s e n q, asks s e 1 n q → n ≤ 15 → Yields (.mbxPing e) s fun t => answered s t e 0 q ((q.drop 1).take n)) ∧
  (∀ s e n q, asks s e 1 n q → 15 < n → Yields (.mbxPing e) s fun t => answered s t e 1 q []) ∧
  (∀ s e q, asks s e 2 0 q → Yields (.mbxVersion e) s fun t => answered s t e 0 q
    ([s.rd (FAC_ENG_INFO_FW_VER e), s.rd BOOT_IMG_INFO_RB_INDEX] ++
      (List.range 12).map (fun k => (tget 0 s.fac.digest e).toNat / 2 ^ (32 * (11 - k)) % 2 ^ 32))) ∧
  (∀ s e n q, asks s e 2 n q → n ≠ 0 → Yields (.mbxVersion e) s fun t => answered s t e 1 q []) ∧
  (∀ s e u m q, asks s e 3 0 q → u < 256 → Yields (.mbxLoad e (u, m)) s fun t =>
    answered (s.wr (FAC_ENG_INFO_LOAD e) u) t e 0 q [u, m % 2 ^ 32] ∧ t.rd (FAC_ENG_INFO_LOAD e) = u) ∧
  (∀ s e n u m q, asks s e 3 n q → n ≠ 0 → Yields (.mbxLoad e (u, m)) s fun t => answered s t e 1 q []) ∧
  (∀ s e c n q, asks s e c n q → (c = 0 ∨ 4 ≤ c ∧ c < 64) → Yields (.unknownMailboxCommand e) s fun t => answered s t e 2 q []) ∧
  (∀ s e c n q a, asks s e c n q → 64 ≤ c → c < 256 → s.on SEC_STATUS_DEBUG_UNLOCKED = false →
    Yields (.diagnosticCommand e a) s fun t => answered s t e 2 q []) ∧
  (∀ s e c n q a, asks s e c n q → 64 ≤ c → c < 256 → s.on SEC_STATUS_DEBUG_UNLOCKED = true →
    Yields (.diagnosticCommand e a) s fun t => answered s t e (a.headD 0 % 256) q ((a.drop 1).take 15))

/-- The arithmetic, load and lookup instructions of the sieve compute what their opcode says. An evaluator whose run's next word is
the instruction executes it: the run's next instruction is the following one, one more step is counted, and register rd, or the
result of CMP, takes the value of the opcode, for the register and for the immediate form (R304). A load beyond min(L, 256) gives
zero and is counted (R302, R304). While words follow, no register of the chip changes but that count; a run that has passed its last
word is accepted and leaves the sieve. It concludes, under conditions on state and operands alone, that exec answers a next state
for: sieveLdb, sieveLdh, sieveLdw, sieveAnd, sieveOr, sieveXor, sieveAdd, sieveSub, sieveShl, sieveShr, sieveCmp, sieveLkp. -/
def Obligations.SieveAluInstructions : Prop :=
  let runs (s : State) (e op : Nat) (r : SvRun) (i : SvWord) : Prop :=
    s.sieveUp = true ∧ tget? s.fac.runs e = some r ∧ r.ovr = none ∧ (r.prog[r.pc]?).map svDecode = some i ∧ i.op = op
  let next (r : SvRun) : SvRun := { r with pc := r.pc + 1, steps := r.steps + 1 }
  let after (s t : State) (e : Nat) (r : SvRun) : Prop :=
    if r.pc < r.prog.length then tget? t.fac.runs e = some r ∧ SameWords [] s t else t = s.svPut e { r with ovr := some false }
  let alu (r : SvRun) (i : SvWord) (f : Nat → Nat → Nat) : SvRun :=
    (next r).setReg i.rd (if i.r then f (r.reg i.rd) (r.reg i.rs) else f (r.reg i.rs) i.imm)
  let addr (r : SvRun) (i : SvWord) : Nat := (i.imm % 256 + (if i.r then r.reg i.rs else 0)) % 2 ^ 32
  let loaded (r : SvRun) (i : SvWord) (n : Nat) : SvRun := (next r).setReg i.rd (beNat ((r.frame.data.drop (addr r i)).take n))
  (∀ s e r i, runs s e opLdb r i → addr r i + 1 ≤ min r.len 256 → Yields (.sieveLdb e) s fun t => after s t e (loaded r i 1)) ∧
  (∀ s e r i, runs s e opLdh r i → addr r i + 2 ≤ min r.len 256 → Yields (.sieveLdh e) s fun t => after s t e (loaded r i 2)) ∧
  (∀ s e r i, runs s e opLdw r i → addr r i + 4 ≤ min r.len 256 → Yields (.sieveLdw e) s fun t => after s t e (loaded r i 4)) ∧
  (∀ s e r i, runs s e opLdb r i → min r.len 256 < addr r i + 1 →
    Yields (.sieveLdb e) s fun t => after s.sieveOob t e ((next r).setReg i.rd 0)) ∧
  (∀ s e r i, runs s e opLdh r i → min r.len 256 < addr r i + 2 →
    Yields (.sieveLdh e) s fun t => after s.sieveOob t e ((next r).setReg i.rd 0)) ∧
  (∀ s e r i, runs s e opLdw r i → min r.len 256 < addr r i + 4 →
    Yields (.sieveLdw e) s fun t => after s.sieveOob t e ((next r).setReg i.rd 0)) ∧
  (∀ s e r i, runs s e opAnd r i → Yields (.sieveAnd e) s fun t => after s t e (alu r i (· &&& ·))) ∧
  (∀ s e r i, runs s e opOr r i → Yields (.sieveOr e) s fun t => after s t e (alu r i (· ||| ·))) ∧
  (∀ s e r i, runs s e opXor r i → Yields (.sieveXor e) s fun t => after s t e (alu r i (· ^^^ ·))) ∧
  (∀ s e r i, runs s e opAdd r i → Yields (.sieveAdd e) s fun t => after s t e (alu r i (· + ·))) ∧
  (∀ s e r i, runs s e opSub r i → Yields (.sieveSub e) s fun t => after s t e (alu r i (fun a b => a + 2 ^ 32 - b % 2 ^ 32))) ∧
  (∀ s e r i, runs s e opShl r i → Yields (.sieveShl e) s fun t => after s t e (alu r i (fun a b => a * 2 ^ (b % 32)))) ∧
  (∀ s e r i, runs s e opShr r i → Yields (.sieveShr e) s fun t => after s t e (alu r i (fun a b => a / 2 ^ (b % 32)))) ∧
  (∀ s e r i, runs s e opCmp r i → Yields (.sieveCmp e) s fun t =>
    let a := r.reg i.rd
    let b := if i.r then r.reg i.rs else i.imm
    after s t e { next r with result := if a = b then 1 else if a > b then 2 else 3 }) ∧
  (∀ s e r i v, runs s e opLkp r i → s.lookup (i.imm % 16) (r.reg i.rs) = some v →
    Yields (.sieveLkp e) s fun t => after s t e { (next r).setReg i.rd v with result := 1 }) ∧
  (∀ s e r i, runs s e opLkp r i → s.lookup (i.imm % 16) (r.reg i.rs) = none →
    Yields (.sieveLkp e) s fun t => after s t e { (next r).setReg i.rd 0 with result := 3 })

/-- The branches and actions of the sieve act on the run. A branch whose condition the last compare meets goes to pc + IMM[7:0], and
else to the next instruction (R304). SETTC is noted unless a remark fixed the class, SETTUN where the context is ON and starts at
this point, MARK, COPYHOST up to two copies, and STAMP inside its limits; COUNT counts; SETTUN from a register above 255 and a third
COPYHOST do nothing but count (R305). METER writes the colour, marks and remarks as the meter says, and ends the run with a drop
where the meter drops; DROP ends the run with a drop, ACCEPT without one. Where the spec is silent it follows the model: log entries
74, 147. It concludes, under conditions on state and operands alone, that exec answers a next state for: sieveBeq, sieveBne,
sieveBgt, sieveBlt, sieveJmp, sieveSettc, sieveSettun, sieveMark, sieveMeter, sieveDrop, sieveCopyhost, sieveStamp, sieveCount,
sieveAccept. -/
def Obligations.SieveBranchesAndActions : Prop :=
  let runs (s : State) (e op : Nat) (r : SvRun) (i : SvWord) : Prop :=
    s.sieveUp = true ∧ tget? s.fac.runs e = some r ∧ r.ovr = none ∧ (r.prog[r.pc]?).map svDecode = some i ∧ i.op = op
  let next (r : SvRun) : SvRun := { r with pc := r.pc + 1, steps := r.steps + 1 }
  let after (s t : State) (e : Nat) (r : SvRun) : Prop :=
    if r.pc < r.prog.length then tget? t.fac.runs e = some r ∧ SameWords [] s t else t = s.svPut e { r with ovr := some false }
  let dest (r : SvRun) (i : SvWord) (c : Bool) : SvRun := if c then { next r with pc := r.pc + i.imm % 256 } else next r
  (∀ s e r i, runs s e opBeq r i → Yields (.sieveBeq e) s fun t => after s t e (dest r i (r.result == 1))) ∧
  (∀ s e r i, runs s e opBne r i → Yields (.sieveBne e) s fun t => after s t e (dest r i (r.result != 1))) ∧
  (∀ s e r i, runs s e opBgt r i → Yields (.sieveBgt e) s fun t => after s t e (dest r i (r.result == 2))) ∧
  (∀ s e r i, runs s e opBlt r i → Yields (.sieveBlt e) s fun t => after s t e (dest r i (r.result == 3))) ∧
  (∀ s e r i, runs s e opJmp r i → Yields (.sieveJmp e) s fun t => after s t e (dest r i true)) ∧
  (∀ s e r i, runs s e opSettc r i → Yields (.sieveSettc e) s fun t =>
    after s t e (if r.fixed then next r else { next r with tc := some (r.operand i % 8) })) ∧
  (∀ s e r i, runs s e opSettun r i → r.tooBig i = false → Yields (.sieveSettun e) s fun t =>
    after s t e (if s.ctxLife (r.operand i) == lifeOn && s.ingressAt (r.operand i) r.frame.point then { next r with tun := some (r.operand i) }
      else next r)) ∧
  (∀ s e r i, runs s e opMark r i → Yields (.sieveMark e) s fun t => after s t e { next r with cm := true }) ∧
  (∀ s e r i, runs s e opCopyhost r i → r.tooBig i = false → r.copies.length < 2 → Yields (.sieveCopyhost e) s fun t =>
    after s t e { next r with copies := r.copies ++ [r.operand i] }) ∧
  (∀ s e r i, runs s e opStamp r i → r.operand i ≤ 248 →
    r.operand i + 8 ≤ (if 6 ≤ r.frame.point ∧ r.frame.point ≤ 9 then r.len - 4 else r.len) → Yields (.sieveStamp e) s fun t =>
    after s t e { next r with stamps := r.stamps ++ [r.operand i] }) ∧
  (∀ s e r i, runs s e opCount r i → r.tooBig i = false → Yields (.sieveCount e) s fun t =>
    after (s.inc (SIEVE_CNT (r.operand i))) t e (next r) ∧
      t.rd (SIEVE_CNT (r.operand i)) = (s.rd (SIEVE_CNT (r.operand i)) + 1) % 2 ^ 32) ∧
  (∀ s e r i u m, runs s e opMeter r i → r.tooBig i = false → s.meter (r.operand i) r.frame.ns r.frame.preYellow = (u, m) → m.drop = false → r.pc + 1 < r.prog.length →
    Yields (.sieveMeter e) s fun t => (tget? t.fac.runs e).map (·.pc) = some (r.pc + 1) ∧
      (tget? t.fac.runs e).map (·.cm) = some (r.cm || m.mark) ∧ (m.tc ≠ none → (tget? t.fac.runs e).map (·.tc) = some m.tc)) ∧
  (∀ s e r i u m, runs s e opMeter r i → r.tooBig i = false → s.meter (r.operand i) r.frame.ns r.frame.preYellow = (u, m) →
    let q := (next r).setReg i.rd (m.colour.getD 0)
    let q := if m.mark then { q with cm := true } else q
    let q := if m.tc.isSome then { q with tc := m.tc, fixed := true } else q
    exec (.sieveMeter e) s = .next (u.svPut e (if m.drop then { q with ovr := some true } else q))) ∧
  (∀ s e r i, runs s e opSettun r i → r.tooBig i = true → Yields (.sieveSettun e) s fun t => after s.sieveOob t e (next r)) ∧
  (∀ s e r i, runs s e opCopyhost r i → r.tooBig i = false → 2 ≤ r.copies.length → Yields (.sieveCopyhost e) s fun t =>
    after s.copyLost t e (next r)) ∧
  (∀ s e r i, runs s e opDrop r i → exec (.sieveDrop e) s = .next (s.svPut e { next r with ovr := some true })) ∧
  (∀ s e r i, runs s e opAccept r i → exec (.sieveAccept e) s = .next (s.svPut e { next r with ovr := some false }))

/-- A sieve run starts for the first waiting frame, and the loading commands act on their words. The first waiting frame of a bound
point starts a run on a free evaluator at its first instruction with its length L (R302, R309), and no register changes. A write of
a non-zero word to IMEM_DATA outside the enabled programs stores it and advances IMEM_ADDR, one inside is rejected with code 3, and
a read advances too (R307). COMMIT, DISABLE and CLR_CNT of a program and LOAD and COMMIT of a lookup entry are accepted command
writes that do their operation (R303, R307, R308). Reading STEPS_MAX answers it and restarts the measure. A COMMIT whose check fails
shows the program, the index and the reason, raises PROG_FAIL and is captured with code 1; one whose check passes enables the
program at DEF's base and length (R307). Where the spec is silent it follows the model: log entry 145. It concludes, under
conditions on state and operands alone, that exec answers a next state for: sieveRun, imemDataAccess, progCommit, progDisable,
progClrCnt, tblCommit, tblLoad, stepsMaxRead. -/
def Obligations.SieveLoadingCommands : Prop :=
  (∀ s e f l n st, s.sieveUp = true → e < 24 → tget? s.fac.runs e = none → s.fac.wait = f :: l → s.boundProg f.point = some n →
    Yields (.sieveRun e (0, st)) s fun t => t.fac.wait = l ∧ t.fac.order = s.fac.order ++ [e] ∧
      (tget? t.fac.runs e).map (·.frame) = some f ∧ (tget? t.fac.runs e).map (·.pc) = some 0 ∧
      (tget? t.fac.runs e).map (·.len) = some (f.runLength st) ∧ SameWords [] s t) ∧
  (∀ s p v, Reaches s p SIEVE_IMEM_DATA.addr → s.imemUsed (s.rd SIEVE_IMEM_ADDR_ADDR) = false → 0 < v → v < 2 ^ 32 →
    exec (.imemDataAccess p (some v)) s = .next (accepted s
      ((s.modFac (fun t => { t with imem := tset t.imem (s.rd SIEVE_IMEM_ADDR_ADDR) v })).imemNext) p SIEVE_IMEM_DATA.addr)) ∧
  (∀ s p v, Reaches s p SIEVE_IMEM_DATA.addr → s.imemUsed (s.rd SIEVE_IMEM_ADDR_ADDR) = true →
    exec (.imemDataAccess p (some v)) s = .next (s.reject p SIEVE_IMEM_DATA.addr 3 (v % 2 ^ 32))) ∧
  (∀ s p, Reaches s p SIEVE_IMEM_DATA.addr →
    exec (.imemDataAccess p none) s = .next (s.imemNext.readBack p SIEVE_IMEM_DATA.addr (tget 0 s.fac.imem (s.rd SIEVE_IMEM_ADDR_ADDR)))) ∧
  (∀ s p, Reaches s p SIEVE_PROG_CMD_COMMIT.addr → exec (.progCommit p) s = .next (accepted s (s.progCommit p) p SIEVE_PROG_CMD_COMMIT.addr)) ∧
  (∀ s p, Reaches s p SIEVE_PROG_CMD_DISABLE.addr → exec (.progDisable p) s = .next (accepted s (s.progDisable p) p SIEVE_PROG_CMD_DISABLE.addr)) ∧
  (∀ s p, Reaches s p SIEVE_PROG_CMD_CLR_CNT.addr → exec (.progClrCnt p) s = .next (accepted s (s.progClr p) p SIEVE_PROG_CMD_CLR_CNT.addr)) ∧
  (∀ s p, Reaches s p SIEVE_TBL_CMD_LOAD.addr → exec (.tblLoad p) s = .next (accepted s (s.tblLoad p) p SIEVE_TBL_CMD_LOAD.addr)) ∧
  (∀ s p, Reaches s p SIEVE_TBL_CMD_COMMIT.addr → exec (.tblCommit p) s = .next (accepted s (s.tblCommit p) p SIEVE_TBL_CMD_COMMIT.addr)) ∧
  (∀ s p, Reaches s p SIEVE_STEPS_MAX.addr →
    exec (.stepsMaxRead p) s = .next ((s.wr SIEVE_STEPS_MAX 0).readBack p SIEVE_STEPS_MAX.addr (s.rd SIEVE_STEPS_MAX))) ∧
  (∀ (s : State) p, (s.progCheck (s.rd (SIEVE_PROG_SEL_PROG.onPath p)) (s.rd (SIEVE_PROG_DEF_BASE.onPath p)) (s.rd (SIEVE_PROG_DEF_LEN.onPath p))).1 ≠ 0 →
    s.progCommit p = ((((s.wr (SIEVE_PROG_STATUS_LAST_PROG.onPath p) (s.rd (SIEVE_PROG_SEL_PROG.onPath p))).wr (SIEVE_PROG_STATUS_INDEX.onPath p)
      (s.progCheck (s.rd (SIEVE_PROG_SEL_PROG.onPath p)) (s.rd (SIEVE_PROG_DEF_BASE.onPath p)) (s.rd (SIEVE_PROG_DEF_LEN.onPath p))).2).wr
      (SIEVE_PROG_STATUS_REASON.onPath p)
      (s.progCheck (s.rd (SIEVE_PROG_SEL_PROG.onPath p)) (s.rd (SIEVE_PROG_DEF_BASE.onPath p)) (s.rd (SIEVE_PROG_DEF_LEN.onPath p))).1).raise 12 0).capture
      12 p 1 (wIdx SIEVE_PROG_CMD_COMMIT % 1024) 1) ∧
  (∀ (s : State) p n, s.rd (SIEVE_PROG_SEL_PROG.onPath p) = n → n < 32 →
    (s.progCheck n (s.rd (SIEVE_PROG_DEF_BASE.onPath p)) (s.rd (SIEVE_PROG_DEF_LEN.onPath p))).1 = 0 →
    (s.progCommit p).on (SIEVE_PROG_ACT_EN n) = true ∧ (s.progCommit p).rd (SIEVE_PROG_ACT_LEN n) = s.rd (SIEVE_PROG_DEF_LEN.onPath p) ∧
      (s.progCommit p).rd (SIEVE_PROG_ACT_BASE n) = s.rd (SIEVE_PROG_DEF_BASE.onPath p) ∧ (s.progCommit p).fac.imem = s.fac.imem)

/-- Seating, feeds, the ideal-diode OR and the monitor act on their state. While domain D2 is on: a pin change is shown and is wake
event 9 (R312, R352); both pins qualified low seat the card, raise SEAT and start a waiting stage (R312, R317); a qualified high pin
unseats it, drops PG, stops the fault timer and clears the retries and the latched fault (R312); a qualified feed drives LINE_EN
while its enable is 1, and its withdrawal ends that (R314). An input at a new voltage is valid within UV and OV, with 1.0 V of
hysteresis below UV, and a reverse voltage turns the input's FET off (R315). A monitor period of 2^AVG samples shows the means and
adds the energy; reading ENERGY_LO latches ENERGY_HI for the path (R329). Measured values are operands. Where the spec is silent it
follows the model: log entries 77, 78. It concludes, under conditions on state and operands alone, that exec answers a next state
for: seatPinChange, seatQualified, seatLost, fseatPinChange, feedQualified, feedWithdrawal, inputValidityChange, reverseVoltage,
monitorAverage, energyLoRead. -/
def Obligations.SeatingFeedAndMonitorCommands : Prop :=
  (∀ s b l, s.domOn 2 = true → s.on (if b then BZL_STATUS_SEAT_B_LOW else BZL_STATUS_SEAT_A_LOW) ≠ l →
    exec (.seatPinChange b l) s = .next ((s.flag (if b then BZL_STATUS_SEAT_B_LOW else BZL_STATUS_SEAT_A_LOW) l).wakeBy 9)) ∧
  (∀ s, s.domOn 2 = true → s.on BZL_STATUS_SEAT_A_LOW = true → s.on BZL_STATUS_SEAT_B_LOW = true → s.on BZL_STATUS_SEATED = false →
    s.rd BZL_STATUS_HS_STATE ≠ 1 →
    Yields .seatQualified s fun t => t.on BZL_STATUS_SEATED = true ∧ (t.word (PG_ISR 3).addr).getLsbD 0 = true ∧
      t.rd BZL_STATUS_HS_STATE = s.rd BZL_STATUS_HS_STATE) ∧
  (∀ s, s.domOn 2 = true → s.on BZL_STATUS_SEAT_A_LOW = true → s.on BZL_STATUS_SEAT_B_LOW = true → s.on BZL_STATUS_SEATED = false →
    s.rd BZL_STATUS_HS_STATE = 1 →
    Yields .seatQualified s fun t => t.on BZL_STATUS_SEATED = true ∧ t.rd BZL_STATUS_HS_STATE = 2 ∧ t.bzl.ramped = false) ∧
  (∀ s, s.domOn 2 = true → s.on BZL_STATUS_SEATED = true → s.on BZL_STATUS_SEAT_A_LOW = false ∨ s.on BZL_STATUS_SEAT_B_LOW = false →
    Yields .seatLost s fun t => t.on BZL_STATUS_SEATED = false ∧ t.on BZL_STATUS_PG = false ∧ t.on BZL_STATUS_FLT_TMR = false ∧
      t.rd BZL_FLT_CAUSE_RETRIES = 0 ∧ t.rd BZL_FLT_CAUSE_BREAKER = 0 ∧ t.bzl.latched = 0) ∧
  (∀ s n l, s.domOn 2 = true → n < 3 → Yields (.fseatPinChange n l) s fun t => t.bit BZL_STATUS_FSEAT_LOW n = l ∧
    SameWords [BZL_STATUS_FSEAT_LOW.addr] s t) ∧
  (∀ s n, s.domOn 2 = true → n < 3 → s.bit BZL_STATUS_FSEAT_LOW n = true → s.bit BZL_FEED_CTRL_EN n = true →
    Yields (.feedQualified n) s fun t => t.bit BZL_STATUS_FEED_SEATED n = true ∧ t.bit BZL_STATUS_LINE_EN n = true) ∧
  (∀ s n, s.domOn 2 = true → n < 3 → s.bit BZL_STATUS_FSEAT_LOW n = false →
    Yields (.feedWithdrawal n) s fun t => t.bit BZL_STATUS_FEED_SEATED n = false ∧ t.bit BZL_STATUS_LINE_EN n = false) ∧
  (∀ s n, s.domOn 2 = true → n < 3 → s.bit BZL_STATUS_FSEAT_LOW n = true → s.bit BZL_FEED_CTRL_EN n = false →
    Yields (.feedWithdrawal n) s fun t => t.bit BZL_STATUS_FEED_SEATED n = s.bit BZL_STATUS_FEED_SEATED n ∧
      t.bit BZL_STATUS_LINE_EN n = false) ∧
  (∀ s mv f, s.domOn 2 = true → Yields (.inputValidityChange false mv f) s fun t =>
    t.bzl.lineMv = mv ∧ t.on BZL_STATUS_LINE_OK = s.orValid (s.on BZL_STATUS_LINE_OK) mv ∧ t.bzl.auxMv = s.bzl.auxMv) ∧
  (∀ s mv f, s.domOn 2 = true → Yields (.inputValidityChange true mv f) s fun t =>
    t.bzl.auxMv = mv ∧ t.on BZL_STATUS_AUX_OK = s.orValid (s.on BZL_STATUS_AUX_OK) mv ∧ t.bzl.lineMv = s.bzl.lineMv) ∧
  (∀ s, s.domOn 2 = true → Yields (.reverseVoltage false) s fun t => t.on BZL_STATUS_LINE_ON = false ∧ t.bzl.lineMv = s.bzl.lineMv) ∧
  (∀ s, s.domOn 2 = true → Yields (.reverseVoltage true) s fun t => t.on BZL_STATUS_AUX_ON = false ∧ t.bzl.auxMv = s.bzl.auxMv) ∧
  (∀ (s : State) mv, s.orValid false mv = true ↔ s.rd BZL_OR_CTRL_UV * 500 ≤ mv ∧ mv ≤ s.rd BZL_OR_CTRL_OV * 500) ∧
  (∀ s l, s.domOn 2 = true → l.length = 2 ^ s.rd BZL_MON_CFG_AVG → meanOf (l.map (·.1)) < 655360 → meanOf (l.map (·.2.1)) < 655360 →
    Yields (.monitorAverage l) s fun t => t.rd BZL_MON_V_VOR = meanOf (l.map (·.1)) / 10 ∧
      t.rd BZL_MON_V_VIN_MAIN = meanOf (l.map (·.2.1)) / 10 ∧
      t.bzl.energy = (s.bzl.energy + (s.bzl.energyPj + (l.map s.samplePj).sum) / 1000000) % 2 ^ 64) ∧
  (∀ s p, Reaches s p BZL_ENERGY_LO.addr → exec (.energyLoRead p) s =
    .next ((s.wr (BZL_ENERGY_HI.onPath p) (s.bzl.energy / 2 ^ 32)).readBack p BZL_ENERGY_LO.addr (s.rd BZL_ENERGY_LO)))

/-- The hot-swap stage ramps, qualifies, trips, cools off and retries in its states. While domain D2 is on: the end of the ramp is
kept; the gate check goes to state 3, or to 7 with FET_GATE; a shorted FET goes to 7 (R317, R320). A sense voltage or a dissipation
over its limit runs the fault timer and drops PG (R318, R321); the timer's expiry latches BREAKER or PLIMIT with the absorbed
energy, and a sense voltage of 3 × ILIM latches FAST_TRIP: state 5 while retries remain, else 6 (R318, R319, R323). PG qualified
goes to state 4 with PG high (R321); the end of a cool-off counts a retry and ramps again; PG high for 1 s resets the retries
(R323). CLEAR, ON and OFF are accepted writes that do their operation; CLEAR and ON are rejected with code 3 in state 7, where OFF
leaves the state (R320, R324, R325); HS_CFG0 and HS_CFG1 in range are stored and checked at once, out of range rejected with code 1
(R326). The energy absorbed is an operand. Where the spec is silent it follows the model: log entries 75, 76. It concludes, under
conditions on state and operands alone, that exec answers a next state for: hsRampEnd, fetGateCheck, fetShort, senseOverLimit,
faultTimerExpiry, fastTrip, pgQualified, coolOffEnd, retryCountReset, hsClear, hsOn, hsOff, hsCfgWrite. -/
def Obligations.HotSwapStageCommands : Prop :=
  (∀ s, s.domOn 2 = true → s.rd BZL_STATUS_HS_STATE = 2 →
    Yields .hsRampEnd s fun t => t.bzl.ramped = true ∧ SameWords [] s t) ∧
  (∀ s, s.domOn 2 = true → s.rd BZL_STATUS_HS_STATE = 2 → s.bzl.ramped = true →
    Yields (.fetGateCheck true) s fun t => t.rd BZL_STATUS_HS_STATE = 3 ∧ t.on BZL_STATUS_FAULT = false) ∧
  (∀ s, s.domOn 2 = true → s.rd BZL_STATUS_HS_STATE = 2 → s.bzl.ramped = true →
    Yields (.fetGateCheck false) s fun t => t.rd BZL_STATUS_HS_STATE = 7 ∧ t.on BZL_STATUS_FAULT = true ∧ t.on BZL_FLT_CAUSE_FET_GATE = true) ∧
  (∀ s, s.domOn 2 = true → s.hsActive = false → s.on BZL_FLT_CAUSE_FET_SHORT = false →
    Yields .fetShort s fun t => t.rd BZL_STATUS_HS_STATE = 7 ∧ t.on BZL_STATUS_FAULT = true ∧ t.on BZL_FLT_CAUSE_FET_SHORT = true) ∧
  (∀ s v f, s.domOn 2 = true → s.rd BZL_STATUS_HS_STATE = 4 → s.rd BZL_HS_CFG0_ILIM * 250 < v ∨ s.rd BZL_HS_CFG1_PLIM * 1000 < f →
    Yields (.senseOverLimit v f) s fun t => t.rd BZL_STATUS_HS_STATE = 3 ∧ t.on BZL_STATUS_FLT_TMR = true ∧ t.on BZL_STATUS_PG = false ∧
      t.bzl.vsns = v ∧ t.bzl.fet = f) ∧
  (∀ s e, s.domOn 2 = true → s.hsActive = true → s.on BZL_STATUS_FLT_TMR = true → e < 2 ^ 32 →
    Yields (.faultTimerExpiry e) s fun t => t.rd BZL_STATUS_HS_STATE = (if s.rd BZL_FLT_CAUSE_RETRIES < s.rd BZL_HS_CFG2_RETRIES then 5 else 6) ∧
      t.on BZL_STATUS_PG = false ∧ t.on BZL_STATUS_FLT_TMR = false ∧ t.rd BZL_FET_E = e ∧ t.bzl.coolUs = s.coolOff e ∧
      t.on (if s.bzl.limit = 2 then BZL_FLT_CAUSE_PLIMIT else BZL_FLT_CAUSE_BREAKER) = true) ∧
  (∀ s v e x, s.domOn 2 = true → s.hsActive = true → 3 * (s.rd BZL_HS_CFG0_ILIM * 250) ≤ v →
    Yields (.fastTrip v e x) s fun t => t.rd BZL_STATUS_HS_STATE = (if s.rd BZL_FLT_CAUSE_RETRIES < s.rd BZL_HS_CFG2_RETRIES then 5 else 6) ∧
      t.on BZL_STATUS_PG = false ∧ t.on BZL_FLT_CAUSE_FAST_TRIP = true) ∧
  (∀ s v, s.domOn 2 = true → s.rd BZL_STATUS_HS_STATE = 3 → s.on BZL_STATUS_SEATED = true → s.on BZL_STATUS_FLT_TMR = false →
    s.rd BZL_HS_CFG1_PG_THR * 250 < v →
    Yields (.pgQualified v) s fun t => t.rd BZL_STATUS_HS_STATE = 4 ∧ t.on BZL_STATUS_PG = true ∧ t.on BZL_STATUS_FAULT = false) ∧
  (∀ s, s.domOn 2 = true → s.rd BZL_STATUS_HS_STATE = 5 → s.on BZL_STATUS_SEATED = true →
    Yields .coolOffEnd s fun t => t.rd BZL_STATUS_HS_STATE = 2 ∧ t.rd BZL_FLT_CAUSE_RETRIES = (s.rd BZL_FLT_CAUSE_RETRIES + 1) % 16 ∧
      (t.word (PG_ISR 3).addr).getLsbD 4 = true) ∧
  (∀ s, s.domOn 2 = true → s.on BZL_STATUS_PG = true →
    Yields .retryCountReset s fun t => t.rd BZL_FLT_CAUSE_RETRIES = 0 ∧ SameWords [BZL_FLT_CAUSE_RETRIES.addr] s t) ∧
  (∀ s p, Reaches s p BZL_HS_CMD_CLEAR.addr → s.rd BZL_STATUS_HS_STATE ≠ 7 →
    exec (.hsClear p) s = .next (accepted s (s.clearCauses.when (s.rd BZL_STATUS_HS_STATE == 5 || s.rd BZL_STATUS_HS_STATE == 6) (·.hsStart)) p
      BZL_HS_CMD_CLEAR.addr)) ∧
  (∀ s p, Reaches s p BZL_HS_CMD_CLEAR.addr → s.rd BZL_STATUS_HS_STATE = 7 →
    exec (.hsClear p) s = .next (s.reject p BZL_HS_CMD_CLEAR.addr 3 ((s.word BZL_HS_CMD_CLEAR.addr).toNat ||| 4))) ∧
  (∀ s p, Reaches s p BZL_HS_CMD_ON.addr → s.rd BZL_STATUS_HS_STATE = 0 → s.bzl.latched = 0 →
    exec (.hsOn p) s = .next (accepted s s.hsStart p BZL_HS_CMD_ON.addr)) ∧
  (∀ s p, Reaches s p BZL_HS_CMD_ON.addr → s.rd BZL_STATUS_HS_STATE = 7 →
    exec (.hsOn p) s = .next (s.reject p BZL_HS_CMD_ON.addr 3 ((s.word BZL_HS_CMD_ON.addr).toNat ||| 2))) ∧
  (∀ s p, Reaches s p BZL_HS_CMD_OFF.addr → s.rd BZL_STATUS_HS_STATE ≠ 7 →
    exec (.hsOff p) s = .next (accepted s (s.gateDown.hsEnter 0) p BZL_HS_CMD_OFF.addr)) ∧
  (∀ s p, Reaches s p BZL_HS_CMD_OFF.addr → s.rd BZL_STATUS_HS_STATE = 7 →
    exec (.hsOff p) s = .next (accepted s s.gateDown p BZL_HS_CMD_OFF.addr)) ∧
  (∀ s p v, Reaches s p BZL_HS_CFG0_ILIM.addr → hsCfgBad 0 v = false →
    exec (.hsCfgWrite p 0 v) s = .next (accepted s (((s.wr BZL_HS_CFG0_CB_TIME (bitsOf v 23 16)).wr BZL_HS_CFG0_ILIM (bitsOf v 15 8)).limitCheck) p
      BZL_HS_CFG0_ILIM.addr)) ∧
  (∀ s p v, Reaches s p BZL_HS_CFG0_ILIM.addr → hsCfgBad 0 v = true →
    exec (.hsCfgWrite p 0 v) s = .next (s.reject p BZL_HS_CFG0_ILIM.addr 1 v)) ∧
  (∀ s p v, Reaches s p BZL_HS_CFG1_PLIM.addr → hsCfgBad 1 v = false →
    exec (.hsCfgWrite p 1 v) s = .next (accepted s (((((s.wr BZL_HS_CFG1_PG_DELAY (bitsOf v 31 24)).wr BZL_HS_CFG1_PLIM (bitsOf v 23 16)).wr
      BZL_HS_CFG1_IGATE (bitsOf v 10 8)).wr BZL_HS_CFG1_PG_THR (bitsOf v 7 0)).limitCheck) p BZL_HS_CFG1_PLIM.addr)) ∧
  (∀ s p v, Reaches s p BZL_HS_CFG1_PLIM.addr → hsCfgBad 1 v = true →
    exec (.hsCfgWrite p 1 v) s = .next (s.reject p BZL_HS_CFG1_PLIM.addr 1 v))

/-- Attach, detach, roles and service levels act on the service port. While domain D2 is on: a source partner, with VBUS above 3.67
V, attaches the port in state 1 as a sink and UFP, and a partner with Rd the port in state 4, with MODE not DRP, as a source and
DFP, with the pin and the Rp level shown and ATTACH raised (R333); DRP alternates between states 1 and 4 (R333); both detaches leave
the port unattached with its message store empty, a sink's with its limits 0 and its switch open (R334); a new Rp level is shown
(R333). At bezel power-up with VBUS the port is Attached.SNK (R335). With a dead battery a risen level follows the allowed power
(R337), and a valid LINE or AUX raises MAIN_PWR, DEAD_BATT going down once the buck's PG is high (R338). The writes of SRC_EN,
SWAP_HOLD and PWR_ROLE by the policy path are accepted writes that do their operation, SRC_EN = 1 with a dead battery is rejected
with code 3 (R339, R344, R345), and SWAP_HOLD clears itself (R344). Where the spec is silent it follows the model: log entries 79,
81, 82. It concludes, under conditions on state and operands alone, that exec answers a next state for: ccAttach, drpToggle,
sinkDetach, sourceDetach, rpChange, bezelPowerUp, serviceLevelChange, mainPwr, srcEnWrite, swapHoldWrite, swapHoldExpiry,
pwrRoleWrite. -/
def Obligations.TypeCAndLevelCommands : Prop :=
  (∀ s c rp v, s.domOn 2 = true → s.on SVC_TC_STATUS_ATTACHED = false → s.tcState = 1 → rp % 4 ≠ 0 → 367 < v → v < 65536 →
    Yields (.ccAttach c rp v) s fun t => t.rd SVC_TC_STATUS_STATE = 3 ∧ t.on SVC_TC_STATUS_ATTACHED = true ∧
      t.on SVC_TC_STATUS_ORIENT = c ∧ t.on SVC_TC_STATUS_PWR_ROLE = false ∧ t.on SVC_TC_STATUS_DATA_ROLE = false ∧
      t.rd SVC_TC_STATUS_RP_SEEN = rp % 4 ∧ (t.word (PG_ISR 4).addr).getLsbD 0 = true) ∧
  (∀ s c v, s.domOn 2 = true → s.on SVC_TC_STATUS_ATTACHED = false → s.tcState = 4 → s.rd SVC_TC_CTRL_MODE ≠ 2 →
    Yields (.ccAttach c 0 v) s fun t => t.rd SVC_TC_STATUS_STATE = 6 ∧ t.on SVC_TC_STATUS_ATTACHED = true ∧
      t.on SVC_TC_STATUS_ORIENT = c ∧ t.on SVC_TC_STATUS_PWR_ROLE = true ∧ t.on SVC_TC_STATUS_DATA_ROLE = true) ∧
  (∀ s, s.domOn 2 = true → s.rd SVC_TC_CTRL_MODE = 2 → s.tcState = 1 ∨ s.tcState = 4 →
    Yields .drpToggle s fun t => t.tcState = (if s.tcState = 1 then 4 else 1) ∧ SameWords [SVC_TC_STATUS_STATE.addr] s t) ∧
  (∀ s v, s.domOn 2 = true → s.tcState = 3 → s.on SVC_TC_CTRL_SWAP_HOLD = false → v < 367 →
    Yields (.sinkDetach v) s fun t => t.on SVC_TC_STATUS_ATTACHED = false ∧ t.rd SVC_VB_STATUS_VBUS = v ∧
      t.rd SVC_SINK_LIMIT_MA = 0 ∧ t.svc.fifo = [] ∧ t.svc.tx = none ∧ t.on SVC_TC_STATUS_SNK_SW = false ∧
      (t.word (PG_ISR 4).addr).getLsbD 1 = true) ∧
  (∀ s, s.domOn 2 = true → s.tcState = 6 →
    Yields .sourceDetach s fun t => t.on SVC_TC_STATUS_ATTACHED = false ∧ t.on SVC_TC_STATUS_SRC_SW = false ∧ t.svc.fifo = [] ∧
      t.svc.tx = none ∧ (t.word (PG_ISR 4).addr).getLsbD 1 = true) ∧
  (∀ s rp, s.domOn 2 = true → s.tcState = 3 → s.rd SVC_TC_STATUS_RP_SEEN ≠ rp % 4 →
    Yields (.rpChange rp) s fun t => t.rd SVC_TC_STATUS_RP_SEEN = rp % 4 ∧ (t.word (PG_ISR 4).addr).getLsbD 6 = true) ∧
  (∀ s v rp c, s.svc.up = false → 367 < v → v < 65536 →
    Yields (.bezelPowerUp v rp c) s fun t => t.svc.up = true ∧ t.domOn 2 = true ∧ t.rd SVC_TC_STATUS_STATE = 3 ∧
      t.on SVC_TC_STATUS_ATTACHED = true ∧ t.on SVC_TC_STATUS_VBUS_OK = decide (475 < v)) ∧
  (∀ s, s.domOn 2 = true → s.on SVC_TC_STATUS_DEAD_BATT = true → s.svc.level < s.allowedLevel →
    Yields .serviceLevelChange s fun t => t.svc.level = s.allowedLevel) ∧
  (∀ s, s.domOn 2 = true → s.on SVC_TC_STATUS_DEAD_BATT = true → s.mainValid = true →
    Yields .mainPwr s fun t => (t.word (PG_ISR 4).addr).getLsbD 8 = true ∧ t.on SVC_TC_STATUS_DEAD_BATT = (s.tcState == 3 && !s.on BZL_STATUS_PG)) ∧
  (∀ s p e, Reaches s p SVC_VB_CTRL_SRC_EN.addr → s.policyChk p = 0 → e = false ∨ s.on SVC_TC_STATUS_DEAD_BATT = false →
    exec (.srcEnWrite p e) s = .next (accepted s ((s.flag SVC_VB_CTRL_SRC_EN e).svcUpdate) p SVC_VB_CTRL_SRC_EN.addr)) ∧
  (∀ s p, Reaches s p SVC_VB_CTRL_SRC_EN.addr → s.on SVC_TC_STATUS_DEAD_BATT = true →
    exec (.srcEnWrite p true) s = .next (s.reject p SVC_VB_CTRL_SRC_EN.addr 3 (2 + s.rd SVC_VB_CTRL_SNK_EN))) ∧
  (∀ s p v, Reaches s p SVC_TC_CTRL_SWAP_HOLD.addr → s.policyChk p = 0 →
    exec (.swapHoldWrite p v) s = .next (accepted s (s.flag SVC_TC_CTRL_SWAP_HOLD v) p SVC_TC_CTRL_SWAP_HOLD.addr)) ∧
  (∀ s, s.domOn 2 = true → Yields .swapHoldExpiry s fun t => t.on SVC_TC_CTRL_SWAP_HOLD = false ∧
    SameWords [SVC_TC_CTRL_SWAP_HOLD.addr] s t) ∧
  (∀ s p v, Reaches s p SVC_TC_CTRL_PWR_ROLE.addr → s.policyChk p = 0 → v = false ∨ s.on SVC_TC_STATUS_DEAD_BATT = false →
    exec (.pwrRoleWrite p v) s = .next (accepted s ((s.flag SVC_TC_CTRL_PWR_ROLE v).pwrRoleWritten) p SVC_TC_CTRL_PWR_ROLE.addr))

/-- PD messages, resets and VBUS protection act on the service port. With no transmission in hand, a message with a bad CRC is
counted, a new one is acknowledged, queued and shown, and one of the last identifier is acknowledged and counted (R340, R343). A pop
removes the head; SEND in range by the policy path with none in flight starts the transmission, and is rejected with code 3 while
one is in flight and with code 1 out of range (R340, R341). The source transmits at the end of its collision-avoidance delay (R342);
a missing GoodCRC repeats the message, and after the last retry fails it with RESULT 3 (R341). A received Hard Reset empties the
message store and the counters; HARD_RESET and CABLE_RESET are accepted writes that send (R343). VBUS above OVP_THR latches OVP and
opens the switches; CLEAR with no condition left clears the faults; OVP_THR is stored in its range and rejected with code 1 outside
it (R346, R347). Where the spec is silent it follows the model: log entry 80. It concludes, under conditions on state and operands
alone, that exec answers a next state for: pdMessageRx, pdRxPop, pdSend, pdCaDelayEnd, goodcrcTimeout, hardResetRx, hardReset,
cableReset, vbusFault, vbClear, ovpThrWrite. -/
def Obligations.PdAndVbusCommands : Prop :=
  let hears (s : State) (k : Nat) (m : List Byte) : Prop :=
    s.domOn 2 = true ∧ s.on SVC_PD_CTRL_RX_EN = true ∧ s.on SVC_TC_STATUS_ATTACHED = true ∧ k < 3 ∧ s.bit SVC_PD_CTRL_SOP_MASK k = true ∧
      m.length ≤ 30 ∧ s.svc.tx = none
  (∀ s k m e, hears s k m → exec (.pdMessageRx k m false e) s = .next (s.inc SVC_RX_CRC_ERR)) ∧
  (∀ s k m e, hears s k m → pdControl (leNat (m.take 2)) ≠ 1 → pdControl (leNat (m.take 2)) ≠ 13 →
    tget? s.svc.lastRx k ≠ some (bitsOf (leNat (m.take 2)) 11 9) → s.svc.fifo.length < 4 →
    Yields (.pdMessageRx k m true e) s fun t => t.svc.fifo = s.svc.fifo ++ [(k, m)] ∧
      .pdTx k (s.goodCrc (bitsOf (leNat (m.take 2)) 11 9)) ∈ t.out ∧ t.rd SVC_RX_STAT_COUNT = s.svc.fifo.length + 1 ∧
      (t.word (PG_ISR 4).addr).getLsbD 2 = true) ∧
  (∀ s k m e, hears s k m → pdControl (leNat (m.take 2)) ≠ 1 → pdControl (leNat (m.take 2)) ≠ 13 →
    tget? s.svc.lastRx k = some (bitsOf (leNat (m.take 2)) 11 9) →
    exec (.pdMessageRx k m true e) s = .next ((s.emit (.pdTx k (s.goodCrc (bitsOf (leNat (m.take 2)) 11 9)))).inc SVC_RX_DUP)) ∧
  (∀ s p, Reaches s p (SVC_RX_BUF 7).addr → exec (.pdRxPop p) s =
    .next (((s.modSvc (fun v => { v with fifo := v.fifo.drop 1 })).showRx).readBack p (SVC_RX_BUF 7).addr (s.rd (SVC_RX_BUF 7)))) ∧
  (∀ s p v, Reaches s p SVC_TX_CTRL_SEND.addr → txCtrlBad v = false → s.policyChk p = 0 → s.rd SVC_TX_STATUS_RESULT ≠ 1 →
    exec (.pdSend p v) s = .next (accepted s ((((s.wr SVC_TX_CTRL_LEN (bitsOf v 15 8)).wr SVC_TX_CTRL_AMS_START (bitsOf v 4 4)).wr
      SVC_TX_CTRL_SOP (bitsOf v 3 1)).pdSend) p SVC_TX_CTRL_SEND.addr)) ∧
  (∀ s p v, Reaches s p SVC_TX_CTRL_SEND.addr → txCtrlBad v = false → s.rd SVC_TX_STATUS_RESULT = 1 →
    exec (.pdSend p v) s = .next (s.reject p SVC_TX_CTRL_SEND.addr 3 v)) ∧
  (∀ s p v, Reaches s p SVC_TX_CTRL_SEND.addr → txCtrlBad v = true → exec (.pdSend p v) s = .next (s.reject p SVC_TX_CTRL_SEND.addr 1 v)) ∧
  (∀ s k m, s.svc.caWait = true → s.svc.tx = some (k, m) →
    Yields .pdCaDelayEnd s fun t => t.svc.caWait = false ∧ t.out = s.out ++ [.pdTx k m]) ∧
  (∀ s k m, s.svc.caWait = false → s.svc.tx = some (k, m) → s.rd SVC_TX_STATUS_ATTEMPTS ≤ s.rd SVC_PD_CTRL_RETRIES →
    Yields .goodcrcTimeout s fun t => t.svc.tx = some (k, m) ∧ t.out = s.out ++ [.pdTx k m]) ∧
  (∀ s k m, s.svc.caWait = false → s.svc.tx = some (k, m) → s.rd SVC_PD_CTRL_RETRIES < s.rd SVC_TX_STATUS_ATTEMPTS →
    Yields .goodcrcTimeout s fun t => t.svc.tx = none ∧ t.rd SVC_TX_STATUS_RESULT = 3 ∧ (t.word (PG_ISR 4).addr).getLsbD 3 = true) ∧
  (∀ s, s.domOn 2 = true → s.on SVC_TC_STATUS_ATTACHED = true →
    Yields .hardResetRx s fun t => t.svc.fifo = [] ∧ t.svc.tx = none ∧ t.svc.txId = [] ∧ t.svc.lastRx = [] ∧
      (t.word (PG_ISR 4).addr).getLsbD 4 = true) ∧
  (∀ s p, Reaches s p SVC_PD_CTRL_HARD_RESET.addr → s.policyChk p = 0 →
    exec (.hardReset p) s = .next (accepted s (s.pdResetSend 0) p SVC_PD_CTRL_HARD_RESET.addr)) ∧
  (∀ s p, Reaches s p SVC_PD_CTRL_CABLE_RESET.addr → s.policyChk p = 0 →
    exec (.cableReset p) s = .next (accepted s (s.pdResetSend 1) p SVC_PD_CTRL_CABLE_RESET.addr)) ∧
  (∀ s v m, s.domOn 2 = true → v < 65536 → s.rd SVC_VB_CFG_OVP_THR * 10 < v →
    Yields (.vbusFault v m) s fun t => t.rd SVC_VB_STATUS_VBUS = v ∧ t.on SVC_VB_FLT_OVP = true ∧
      (s.on SVC_VB_FLT_OVP = false → t.on SVC_TC_STATUS_SNK_SW = false ∧ t.on SVC_TC_STATUS_SRC_SW = false ∧
        (t.word (PG_ISR 4).addr).getLsbD 5 = true)) ∧
  (∀ s p, Reaches s p SVC_VB_CTRL_CLEAR.addr → s.policyChk p = 0 → s.vbCond = (false, false, false) →
    exec (.vbClear p) s = .next (accepted s ((((s.wr SVC_VB_FLT_OVP 0).wr SVC_VB_FLT_OCP 0).wr SVC_VB_FLT_RCP 0).svcUpdate) p
      SVC_VB_CTRL_CLEAR.addr)) ∧
  (∀ s p v, Reaches s p SVC_VB_CFG_OVP_THR.addr → s.ovpBad (v % 256) = false →
    exec (.ovpThrWrite p v) s = .next (accepted s (s.wr SVC_VB_CFG_OVP_THR v) p SVC_VB_CFG_OVP_THR.addr)) ∧
  (∀ s p v, Reaches s p SVC_VB_CFG_OVP_THR.addr → s.ovpBad (v % 256) = true →
    exec (.ovpThrWrite p v) s = .next (s.reject p SVC_VB_CFG_OVP_THR.addr 1
      (SVC_VB_CFG_OVP_THR.put v (s.word SVC_VB_CFG_OVP_THR.addr)).toNat))

/-- Link idle, the power-state ladder, wakes and domains on demand act on their state. On an ACTIVE native link with empty queues
the idle timer sends an IDLE_REQ with the power state (R355); a request for suspension is kept with its cycle and ignored while the
port is busy, one for partial idle waits for the queues; an IDLE_ACK fixes the apply cycle, from which the link is suspended; a
resuming link that locks, with no key in use and its domain on, is no longer suspended outside S1, and one that fails is down (R355,
R356). A write of TARGET up to 5 is accepted and does what R350 says: a deeper state than the present one is requested, S1 is
entered at once, the present one takes the request back; 6 and 7 are rejected with code 1. A timeout of the entry shows RESULT 2 and
raises PS_BLOCK; an exit with TARGET 0 whose domains are up reads S0 and RESULT 3 after a wake, else 1 (R350, R351). A wake event,
WAKE#, and a vigil sample in S4 of an input that it samples wake by their cause, the alarm disarms and is shown (R352, R357); an
enabled cause in S3 starts the exit and is shown. A domain in S0 with every function off, and for D3, D11, D13, D14 and D15 no
context, input, engine or key that holds it on, is asked to go off (R354). Where the spec is silent it follows the model: log
entries 83, 84, 148, 149, 150. It concludes, under conditions on state and operands alone, that exec answers a next state for:
idleReq, idleAck, targetWrite, entryTimeout, wakeEvent, stateExitComplete, wakePin, alarmFire, domainIdleOff, linkIdleTimer,
linkSuspend, linkResume, vigilSample. -/
def Obligations.LinkIdleAndLadderCommands : Prop :=
  (∀ s n, s.native n = true → s.rd PWR_LIDLE_US ≠ 0 → s.txEmpty n = true → (s.port n).pw.idle = false → (s.port n).pw.suspended = false →
    Yields (.linkIdleTimer n) s fun t => (t.port n).pw.req = some (s.rd PWR_PS_STATUS_STATE, s.cycle) ∧
      (t.ep n).units = (s.ep n).units ++ [.state 2 (s.rd PWR_PS_STATUS_STATE) s.cycle] ∧ SameWords [] s t) ∧
  (∀ s n w c, s.native n = true → 2 ≤ w → s.portBusy n = false →
    Yields (.idleReq n w c) s fun t => (t.port n).pw.applyAt = some c ∧ SameWords [] s t) ∧
  (∀ s n w c, s.native n = true → 2 ≤ w → s.portBusy n = true → exec (.idleReq n w c) s = .next s) ∧
  (∀ s n w c, s.native n = true → w < 2 → s.txEmpty n = false →
    Yields (.idleReq n w c) s fun t => (t.port n).pw.asked = true ∧ SameWords [] s t) ∧
  (∀ s n w c x, s.native n = true → (s.port n).pw.req = some (x, c) → 2 ≤ x →
    Yields (.idleAck n w c) s fun t => (t.port n).pw.applyAt = some c ∧ (t.port n).pw.req = none ∧ (t.port n).pw.farPower = w ∧ SameWords [] s t) ∧
  (∀ s n c, s.native n = true → (s.port n).pw.applyAt = some c → cycGe s.cycle c = true →
    Yields (.linkSuspend n) s fun t => (t.port n).pw.suspended = true ∧ (t.port n).pw.applyAt = none ∧ SameWords [] s t) ∧
  (∀ s n, s.native n = true → (s.port n).pw.suspended = true → (s.port n).pw.resuming = true → s.domOn (6 + n) = true → (s.lk n).cur = none →
    s.rd PWR_PS_STATUS_STATE ≠ 1 → Yields (.linkResume n true) s fun t => (t.port n).pw.suspended = false ∧ (t.port n).pw.resuming = false ∧ SameWords [] s t) ∧
  (∀ s n, s.native n = true → (s.port n).pw.suspended = true → (s.port n).pw.resuming = true → exec (.linkResume n false) s = .next (s.linkDown n 4)) ∧
  (∀ s p t, Reaches s p PWR_PS_CTRL_TARGET.addr → t % 8 ≤ 5 →
    exec (.targetWrite p t) s = .next (accepted s (s.targetWritten (t % 8)) p PWR_PS_CTRL_TARGET.addr)) ∧
  (∀ s p t, Reaches s p PWR_PS_CTRL_TARGET.addr → 5 < t % 8 →
    exec (.targetWrite p t) s = .next (s.reject p PWR_PS_CTRL_TARGET.addr 1 (PWR_PS_CTRL_TARGET.put t (s.word PWR_PS_CTRL_TARGET.addr)).toNat)) ∧
  (∀ s, s.pwr.entryPending = true →
    Yields .entryTimeout s fun t => t.pwr.entryPending = false ∧ t.rd PWR_PS_STATUS_RESULT = 2 ∧
      t.rd PWR_PS_CTRL_TARGET = s.rd PWR_PS_STATUS_STATE ∧ t.rd PWR_PS_STATUS_STATE = s.rd PWR_PS_STATUS_STATE ∧
      (t.word (PG_ISR 1).addr).getLsbD 1 = true) ∧
  (∀ s, s.pwr.exiting = true → s.pwr.domsAtEntry.all s.domOn = true → s.rd PWR_PS_CTRL_TARGET = 0 →
    Yields .stateExitComplete s fun t => t.pwr.exiting = false ∧ t.rd PWR_PS_STATUS_STATE = 0 ∧
      t.rd PWR_PS_STATUS_RESULT = (if s.pwr.woken then 3 else 1) ∧ (t.word (PG_ISR 1).addr).getLsbD 0 = true) ∧
  (∀ s c, 1 ≤ c → c ≤ 9 → exec (.wakeEvent c) s = .next (s.wakeBy c)) ∧
  (∀ s, exec .wakePin s = .next (s.wakeBy 5)) ∧
  (∀ s, s.on PWR_ALARM_CTRL_ARM = true → s.rd PWR_ALARM_S * 1000000000 + s.rd PWR_ALARM_NS ≤ s.now →
    Yields .alarmFire s fun t => t.on PWR_ALARM_CTRL_ARM = false ∧ (t.word (PG_ISR 1).addr).getLsbD 4 = true) ∧
  (∀ s c, s.rd PWR_PS_STATUS_STATE = 4 → c ∈ [1, 2, 3, 4, 7, 9] → (c = 7 → s.pwr.lineAtEntry = false) →
    exec (.vigilSample c) s = .next (s.wakeBy c)) ∧
  (∀ s d, 3 ≤ d → d ≤ 15 → s.rd PWR_PS_STATUS_STATE = 0 → s.domOn d = true → s.bit PWR_KEEP d = false →
    (d = 3 → ∀ c : Nat, c < 256 → s.ctxLife c = lifeOff) → (d = 11 → s.eviHolds = false) →
    (d = 13 → ∀ e : Nat, e < 8 → s.engState e = engOff) → (d = 14 → ∀ e : Nat, e < 8 → s.engState (8 + e) = engOff) →
    (d = 15 → ∀ n : Nat, n < 3 → s.on (LNK_STATUS_KEYS_ON n) = false) →
    (∀ p ∈ domFunctions d, s.lifeImpl p = true → s.rd (PG_STATE_LIFE p) = lifeOff) →
    exec (.domainIdleOff d) s = .next (s.domOffReq d)) ∧
  (∀ (s : State) c, s.rd PWR_PS_STATUS_STATE = 3 → s.pwr.exiting = false → wakeEnabled s c = true → c < 256 →
    (s.wakeBy c).pwr.exiting = true ∧ (s.wakeBy c).rd PWR_PS_STATUS_WAKE_CAUSE = c ∧ (s.wakeBy c).rd PWR_PS_CTRL_TARGET = 0 ∧
      ((s.wakeBy c).word (PG_ISR 1).addr).getLsbD 2 = true) ∧
  (∀ (s : State) t, 2 ≤ t → t ≤ 5 → s.rd PWR_PS_STATUS_STATE < t → s.pwr.exiting = false →
    (s.targetWritten t).pwr.entryPending = true ∧ (s.targetWritten t).rd PWR_PS_CTRL_TARGET = t ∧
      (s.targetWritten t).rd PWR_PS_STATUS_STATE = s.rd PWR_PS_STATUS_STATE) ∧
  (∀ (s : State), s.rd PWR_PS_STATUS_STATE = 0 → s.pwr.exiting = false →
    (s.targetWritten 1).rd PWR_PS_STATUS_STATE = 1 ∧ (s.targetWritten 1).rd PWR_PS_STATUS_RESULT = 1 ∧
      ((s.targetWritten 1).word (PG_ISR 1).addr).getLsbD 0 = true) ∧
  (∀ (s : State), s.pwr.entryPending = true → s.pwr.exiting = false →
    (s.targetWritten (s.rd PWR_PS_STATUS_STATE)).pwr.entryPending = false)

/-- Core-voltage requests, boost and the thermal limits act on their state. A VREQ whose check passes is stored and requested,
another is rejected with the check's code: 1 out of range, 3 for a boost not allowed and for more than VMIN_DECL while HOT (R360,
R364). A request with none in flight starts with one attempt, one with another in flight is held (R359, R360). A good poll ends the
request at its voltage and raises V_DONE; a NACK, a PEC error and a timeout fail the attempt: the first is followed by a second, the
second ends the request with the old voltage and the cause (R359). VMIN_DECL is stored if its check passes and rejected with code 1
otherwise (R94). A millisecond adds 20 or takes 9 for each 5 mV above 0.80 V from the bucket (R363). The hottest sensor at HOT sets
HOT; the sensors' temperatures and the maximum are shown, with WARN from its threshold (R364). Where the spec is silent it follows
the model: log entry 85. It concludes, under conditions on state and operands alone, that exec answers a next state for: vreqWrite,
pmbusPoll, vreqTimeout, vminDeclWrite, boostTick, thermalHot, tjUpdate. -/
def Obligations.CoreVoltageAndThermalCommands : Prop :=
  (∀ s p v, Reaches s p PMB_VREQ.addr → s.vreqChk (v % 64) = 0 →
    exec (.vreqWrite p v) s = .next (accepted s ((s.wr PMB_VREQ v).vRequest (v % 64)) p PMB_VREQ.addr)) ∧
  (∀ s p v, Reaches s p PMB_VREQ.addr → s.vreqChk (v % 64) ≠ 0 →
    exec (.vreqWrite p v) s = .next (s.reject p PMB_VREQ.addr (s.vreqChk (v % 64)) v)) ∧
  (∀ (s : State) v, s.vreqChk v = 1 ↔ 40 < v ∨ v < s.rd PWR_VMIN_DECL) ∧
  (∀ (s : State) v, s.rd PWR_VMIN_DECL ≤ v → v ≤ 40 → 20 < v → s.on PMB_BOOST_ALLOWED = false → s.vreqChk v = 3) ∧
  (∀ (s : State) v, s.rd PWR_VMIN_DECL < v → v ≤ 40 → s.on THM_STATUS_HOT = true → s.vreqChk v = 3) ∧
  (∀ (s : State) v, s.on PMB_VSTAT_BUSY = false → v < 64 → (s.vRequest v).rd PMB_VSTAT_VTARGET = v ∧ (s.vRequest v).on PMB_VSTAT_BUSY = true ∧
    (s.vRequest v).rd PMB_VSTAT_ATTEMPTS = 1) ∧
  (∀ (s : State) v, s.on PMB_VSTAT_BUSY = true → s.vRequest v = s.modPwr (fun p => { p with vHeld := some v })) ∧
  (∀ s, s.on PMB_VSTAT_BUSY = true → s.pwr.vHeld = none →
    Yields (.pmbusPoll 0 true true 0) s fun t => t.on PMB_VSTAT_BUSY = false ∧ t.rd PMB_VSTAT_VNOW = s.rd PMB_VSTAT_VTARGET ∧
      t.on PMB_VSTAT_FAIL = false ∧ t.on PMB_BOOST_ACTIVE = decide (20 < s.rd PMB_VSTAT_VTARGET) ∧ (t.word (PG_ISR 2).addr).getLsbD 0 = true) ∧
  (∀ s st g h e, s.on PMB_VSTAT_BUSY = true → e = 4 ∨ e = 5 → exec (.pmbusPoll st g h e) s = .next (s.vFail e)) ∧
  (∀ s, s.on PMB_VSTAT_BUSY = true → exec .vreqTimeout s = .next (s.vFail s.pwr.vErr)) ∧
  (∀ (s : State) e, s.rd PMB_VSTAT_ATTEMPTS < 2 → (s.vFail e).rd PMB_VSTAT_ATTEMPTS = 2 ∧ (s.vFail e).on PMB_VSTAT_BUSY = s.on PMB_VSTAT_BUSY) ∧
  (∀ (s : State) e, 2 ≤ s.rd PMB_VSTAT_ATTEMPTS → s.pwr.vHeld = none → e < 256 →
    (s.vFail e).on PMB_VSTAT_BUSY = false ∧ (s.vFail e).on PMB_VSTAT_FAIL = true ∧ (s.vFail e).rd PMB_VSTAT_LAST_ERR = e ∧
      (s.vFail e).rd PMB_VSTAT_VNOW = s.rd PMB_VSTAT_VNOW) ∧
  (∀ s p v, Reaches s p PWR_VMIN_DECL.addr → s.vminChk (v % 64) = 0 →
    exec (.vminDeclWrite p v) s = .next (accepted s (s.wr PWR_VMIN_DECL v) p PWR_VMIN_DECL.addr)) ∧
  (∀ s p v, Reaches s p PWR_VMIN_DECL.addr → s.vminChk (v % 64) = 1 →
    exec (.vminDeclWrite p v) s = .next (s.reject p PWR_VMIN_DECL.addr 1 v)) ∧
  (∀ s, s.rd PMB_VSTAT_VNOW ≤ 20 → s.pwr.bucket ≤ 10800000 →
    Yields .boostTick s fun t => t.pwr.bucket = min 10800000 (s.pwr.bucket + 20) ∧ t.rd PMB_BOOST_BUCKET = min 10800000 (s.pwr.bucket + 20) / 1800) ∧
  (∀ s, 20 < s.rd PMB_VSTAT_VNOW → s.pwr.bucket ≤ 10800000 →
    Yields .boostTick s fun t => t.pwr.bucket = s.pwr.bucket - 9 * (s.rd PMB_VSTAT_VNOW - 20) ∧
      t.rd PMB_BOOST_BUCKET = (s.pwr.bucket - 9 * (s.rd PMB_VSTAT_VNOW - 20)) / 1800) ∧
  (∀ s, s.on THM_STATUS_HOT = false → ((s.rd THM_CFG_HOT * 16 : Nat) : Int) ≤ s.tj →
    Yields .thermalHot s fun t => t.on THM_STATUS_HOT = true ∧ (t.word (PG_ISR 5).addr).getLsbD 1 = true) ∧
  (∀ s (a b c d : Nat), a < 4096 → b < 4096 → c < 4096 → d < 4096 →
    Yields (.tjUpdate a b c d) s fun t => t.rd (THM_TJ 0) = a ∧ t.rd (THM_TJ 1) = b ∧ t.rd (THM_TJ 2) = c ∧ t.rd (THM_TJ 3) = d ∧
      t.rd THM_TJ_MAX_T = max (max a b) (max c d) ∧ t.on THM_STATUS_WARN = decide (s.rd THM_CFG_WARN * 16 ≤ max (max a b) (max c d)))

/-- The rail-script window and each entry of a running script act as their opcode says. COMMIT, LOAD and the data port are accepted
accesses that do their operation; a COMMIT whose check fails shows the first bad entry and its reason, stores nothing and raises
RS_FAIL (R366). An entry that is the running script's present one, with no wait, is performed: END ends the script, WAIT_US waits,
PMB_WRITE and PIN_SET drive, PMB_EXPECT, PIN_WAIT and ADC_CHECK go on or fail, BRANCH_FAIL branches on a failure and clears it; a
failed entry goes to the next BRANCH_FAIL; the timeout ends the script as failed (R365). What a bus or a pin answers is an operand.
Where the spec is silent it follows the model: log entry 86. It concludes, under conditions on state and operands alone, that exec
answers a next state for: rsCommit, rsLoad, rsDataAccess, railEnd, waitUs, waitUsDone, pmbWrite, pmbExpect, pinSet, pinWait,
adcCheck, branchFail, railScriptTimeout. -/
def Obligations.RailScriptCommands : Prop :=
  let runs (s : State) (c : Script) (w : Nat) (op : Nat) : Prop :=
    s.pwr.script = some c ∧ c.waiting = false ∧ (c.words[c.pc]?).getD 0 = w ∧ bitsOf w 31 28 = op
  (∀ s p, Reaches s p PMB_RS_CMD_COMMIT.addr → exec (.rsCommit p) s = .next (accepted s (s.rsCommit p) p PMB_RS_CMD_COMMIT.addr)) ∧
  (∀ s p, Reaches s p PMB_RS_CMD_LOAD.addr → exec (.rsLoad p) s = .next (accepted s s.rsLoad p PMB_RS_CMD_LOAD.addr)) ∧
  (∀ s p v, Reaches s p PMB_RS_DATA.addr → exec (.rsDataAccess p (some v)) s = .next (accepted s
    ((s.modPwr (fun q => { q with rsWin := tset q.rsWin (s.rd PMB_RS_ADDR) (v % 2 ^ 32) })).rsNext) p PMB_RS_DATA.addr)) ∧
  (∀ s p, Reaches s p PMB_RS_DATA.addr → exec (.rsDataAccess p none) s =
    .next (s.rsNext.readBack p PMB_RS_DATA.addr (s.rsWord (s.rd PMB_RS_ADDR)))) ∧
  (∀ (s : State) p i, (List.range 128).find? (fun i => rsReason i (s.rsWord i) != 0) = some i →
    (s.rsCommit p).rd PMB_RS_STATUS_INDEX = i ∧ (s.rsCommit p).rd PMB_RS_STATUS_REASON = rsReason i (s.rsWord i) ∧
      (s.rsCommit p).pwr.rsStore = s.pwr.rsStore ∧ ((s.rsCommit p).word (PG_ISR 2).addr).getLsbD 3 = true) ∧
  (∀ s c w, runs s c w 0 → exec .railEnd s = .next ((s.wr PMB_RS_RUN_LAST_INDEX c.pc).scriptEnd (w % 2 == 1))) ∧
  (∀ s c w, runs s c w 1 → Yields .waitUs s fun t => t.pwr.script = some { c with waiting := true } ∧
    t.rd PMB_RS_RUN_LAST_INDEX = c.pc % 128 ∧ SameWords [PMB_RS_RUN_LAST_INDEX.addr] s t) ∧
  (∀ s c, s.pwr.script = some c → c.waiting = true → c.pc < 127 →
    Yields .waitUsDone s fun t => t.pwr.script = some { c with pc := c.pc + 1, waiting := false } ∧ SameWords [] s t) ∧
  (∀ s c w, runs s c w 2 → c.pc < 127 →
    Yields (.pmbWrite true) s fun t => t.pwr.script = some { c with pc := c.pc + 1 } ∧
      t.out = s.out ++ [.pmbus (bitsOf w 27 26) (bitsOf w 23 16)
        (if bitsOf w 25 24 = 0 then 0 else if bitsOf w 25 24 = 1 then bitsOf w 7 0 else bitsOf w 15 0)]) ∧
  (∀ s c w, runs s c w 3 → c.pc < 127 → Yields (.pmbExpect true) s fun t => t.pwr.script = some { c with pc := c.pc + 1 }) ∧
  (∀ s c w, runs s c w 3 → exec (.pmbExpect false) s = .next ((s.wr PMB_RS_RUN_LAST_INDEX c.pc).scriptFail c)) ∧
  (∀ s c w, runs s c w 4 → c.pc < 127 →
    Yields .pinSet s fun t => t.pwr.script = some { c with pc := c.pc + 1 } ∧ t.out = s.out ++ [.railEn (bitsOf w 27 24 % 4) (w % 2 == 1)]) ∧
  (∀ s c w, runs s c w 5 → c.pc < 127 → Yields (.pinWait true) s fun t => t.pwr.script = some { c with pc := c.pc + 1 }) ∧
  (∀ s c w, runs s c w 5 → exec (.pinWait false) s = .next ((s.wr PMB_RS_RUN_LAST_INDEX c.pc).scriptFail c)) ∧
  (∀ s c w r, runs s c w 6 → bitsOf w 23 12 ≤ r → r ≤ bitsOf w 11 0 → c.pc < 127 →
    Yields (.adcCheck r) s fun t => t.pwr.script = some { c with pc := c.pc + 1 }) ∧
  (∀ s c w r, runs s c w 6 → r < bitsOf w 23 12 ∨ bitsOf w 11 0 < r →
    exec (.adcCheck r) s = .next ((s.wr PMB_RS_RUN_LAST_INDEX c.pc).scriptFail c)) ∧
  (∀ s c w, runs s c w 7 → c.fail = true →
    Yields .branchFail s fun t => t.pwr.script = some { c with pc := bitsOf w 6 0, fail := false }) ∧
  (∀ s c w, runs s c w 7 → c.fail = false → c.pc < 127 → Yields .branchFail s fun t => t.pwr.script = some { c with pc := c.pc + 1 }) ∧
  (∀ s c, s.pwr.script = some c → exec .railScriptTimeout s = .next (s.scriptEnd true)) ∧
  (∀ (s : State) c i, s.pwr.script = some c → (List.range 128).find? (fun i => decide (i > c.pc) && bitsOf ((c.words[i]?).getD 0) 31 28 == 7) = some i →
    (s.scriptFail c).pwr.script = some { c with pc := i, waiting := false, fail := true })

/-- Key agreement and key replacement of a link act step by step. In the KEYS state this end sends its certificate, public value and
signature, and a far message that verifies gives the first pair and enters the cycle, another fails the training with cause 0x09
(R376, R377). A replacement starts by ROTATE, by age at the parent and after a failure (R379, R381); where one may run it holds the
cycle and its initiator and keeps the current pair. The next pair of the expected generation is held with a challenge; a challenge
is answered; the right answer lets the initiator name W, 8 cycles ahead, a wrong one abandons; the switch message, its
acknowledgement and OLD_RELEASED are held (R379). At W the pair that switches is first used, at W + 8 it becomes current if both
ends have released, else the port retrains; a late switch is made (R379, R380). A key of 96 h retrains (R381). W = cycle + 8 and
what is signed are readings (log entry of link keys, log entry 153). Where the spec is silent it follows the model: log entries 88,
89, 91, 153. It concludes, under conditions on state and operands alone, that exec answers a next state for: keysBeacon, linkRotate,
keyRotationDue, keyReplacementRetry, keyAgeLimit, nextReady, katChal, katResp, keySwitchMsg, switchAck, oldReleased, keySwitchCycle,
keyReleaseCycle, keyLateSwitch. -/
def Obligations.LinkKeyCommands : Prop :=
  (∀ s n c e b g, s.inT n tKeys = true →
    let r := BitVec.ofNat 384 (s.random 48).1
    let own := Config.pubKey r
    let good := Config.certRootOk c = true ∧ Config.certUnit c = s.farUnit n ∧ Config.verify (Config.certKey c) (b ++ e ++ own) g = true ∧ s.on SEC_STATUS_DRBG_OK = true
    let sent := (ownCert ++ own ++ Config.sign Config.deviceKey (b ++ own ++ e)).map (·.toNat)
    Yields (.keysBeacon n c e b g) s fun t =>
      (good → .beacon n 7 sent ∈ t.out ∧ (t.lk n).cur = some (s.derivePair n 0 (Config.ecdh r e)) ∧ t.on (LNK_STATUS_KEYS_ON n) = true) ∧
      (¬ good → t = ((s.random 48).2.emit (.beacon n 7 sent)).trainFail n 9 tKeys)) ∧
  (∀ s p n, n < 3 → Reaches s p SEC_LINK_ROT_ROTATE.addr →
    exec (.linkRotate p n) s = .next (accepted s (s.startReplace n true) p SEC_LINK_ROT_ROTATE.addr)) ∧
  (∀ s n, s.native n = true → s.on (LNK_STATUS_PARENT n) = true → s.rd SEC_LINK_ROT_HOURS * 28800000 ≤ s.keyAge n →
    exec (.keyRotationDue n) s = .next (s.startReplace n true)) ∧
  (∀ s n, s.native n = true → (s.lk n).retry = true → exec (.keyReplacementRetry n) s = .next (s.startReplace n true)) ∧
  (∀ s n, s.native n = true → s.on (LNK_STATUS_KEYS_ON n) = true → 2764800000 ≤ s.keyAge n →
    exec (.keyAgeLimit n) s = .next (s.keyFail n)) ∧
  (∀ (s : State) n b, s.mayReplace n = true → ((s.startReplace n b).lk n).since = some s.cycle ∧ ((s.startReplace n b).lk n).initiator = b ∧
    ((s.startReplace n b).lk n).cur = (s.lk n).cur) ∧
  (∀ s n k e, s.native n = true → (s.lk n).cur = some k → (s.lk n).since.isSome = true → (s.lk n).next = none →
    Yields (.nextReady n (k.gen + 1) e false) s fun t => ((t.lk n).next).map (·.gen) = some ((k.gen + 1) % 256) ∧ (t.lk n).cur = some k ∧
      (t.lk n).kat.isSome = true ∧ t.fresh = s.fresh + 2) ∧
  (∀ s n d k, s.native n = true → (s.lk n).next = some k →
    exec (.katChal n d) s = .next (s.queueUnit n (.key 3 k.gen 0 (Config.aes256 k.tx (BitVec.ofNat 128 d)).toNat))) ∧
  (∀ s n d k c, s.native n = true → (s.lk n).next = some k → (s.lk n).kat = some c → (s.lk n).initiator = true →
    Yields (.katResp n d) s fun t =>
      ((Config.aes256 k.rx (BitVec.ofNat 128 c)).toNat ≠ d → t = s.abandonKey n) ∧
      ((Config.aes256 k.rx (BitVec.ofNat 128 c)).toNat = d → (t.lk n).katOk = true ∧ (t.lk n).w = some (cycAdd s.cycle 8) ∧
        SameWords [] s t)) ∧
  (∀ s n k w, s.native n = true → (s.lk n).initiator = false → (s.lk n).next = some k → k.gen < 256 → cycLater w s.cycle = true →
    Yields (.keySwitchMsg n k.gen w) s fun t => (t.lk n).w = some w ∧ (t.lk n).switches = true ∧ SameWords [] s t) ∧
  (∀ s n k w, s.native n = true → (s.lk n).initiator = true → (s.lk n).next = some k → k.gen < 256 → (s.lk n).w = some w →
    cycLater (cycSub w 2) s.cycle = true →
    Yields (.switchAck n k.gen w) s fun t => (t.lk n).acked = true ∧ (t.lk n).switches = true ∧ SameWords [] s t) ∧
  (∀ s n k w, s.native n = true → (s.lk n).next = some k → k.gen < 256 → (s.lk n).w = some w →
    Yields (.oldReleased n k.gen) s fun t => (t.lk n).relFar = true ∧ SameWords [] s t) ∧
  (∀ s n k w, s.native n = true → (s.lk n).next = some k → (s.lk n).w = some w → (s.lk n).switches = true → cycGe s.cycle w = true →
    s.stepMoves w = false → Yields (.keySwitchCycle n) s fun t => (t.lk n).next = some { k with first := w } ∧
      ((s.lk n).cur.isSome = true → t.rd (SEC_LINK_KEY_PHASE n) = 3)) ∧
  (∀ s n k w, s.native n = true → (s.lk n).next = some k → (s.lk n).w = some w → (s.lk n).switches = true → (s.lk n).relFar = true →
    cycGe s.cycle (cycAdd w 8) = true →
    Yields (.keyReleaseCycle n) s fun t => (t.lk n).cur = some { k with first := w } ∧ (t.lk n).next = none ∧ (t.lk n).since = none) ∧
  (∀ s n w, s.native n = true → (s.lk n).w = some w → (s.lk n).switches = false ∨ (s.lk n).relFar = false →
    cycGe s.cycle (cycAdd w 8) = true → exec (.keyReleaseCycle n) s = .next (s.keyFail n)) ∧
  (∀ s n, s.native n = true → (s.lk n).lateDue = true → (s.lk n).switches = false →
    Yields (.keyLateSwitch n) s fun t => (t.lk n).switches = true ∧ (t.lk n).lateDue = false)

/-- Tamper events zeroise, and the key store acts under readiness and authorisation. An armed source, and an armed mesh at its
second mismatch, zeroise: TAMPER is set, the KEK is gone and every slot is empty and marked (R371). TAMPER_CFG is stored, but a
write that disarms without a key-store authorisation is rejected with code 6 (R372). While the keys are ready and no tamper is
latched, LOAD_NEXT, SWITCH and ERASE are accepted under an authorisation whose digest matches and rejected with code 6 without one,
LOAD_NEXT with the check's code otherwise; ERASE_ALL is accepted while a tamper is latched, too, and clears the latch of an earlier
instant (R373, R374, R387). SWITCH makes the next key current and keeps the former; a retirement ends the former key and raises the
generation, or erases the slot where that waits (R374). What AUTH_STATUS shows after a use is the model's choice (log entry 152).
Where the spec is silent it follows the model: log entries 87, 93, 151, 152. It concludes, under conditions on state and operands
alone, that exec answers a next state for: tamperEvent, meshCheck, tamperCfgWrite, ksLoadNext, ksSwitch, ksErase, ksEraseAll,
keyRetired. -/
def Obligations.TamperAndKeyStoreCommands : Prop :=
  (∀ s x, x &&& s.armed ≠ 0 → exec (.tamperEvent x) s = .next (s.zeroise (x &&& s.armed))) ∧
  (∀ (s : State) x, (s.zeroise x).on SEC_STATUS_TAMPER = true ∧ (s.zeroise x).sec.kek = false ∧
    (∀ i, i < 32 → (s.zeroise x).slot i = { zeroised := true })) ∧
  (∀ s, s.sec.meshMiss = true → s.armed.testBit 4 = true →
    exec (.meshCheck true) s = .next ((s.modSec (fun t => { t with meshMiss := true })).zeroise 16)) ∧
  (∀ s, Yields (.meshCheck false) s fun t => t.sec.meshMiss = false ∧ SameWords [] s t) ∧
  (∀ s p v, Reaches s p SEC_TAMPER_CFG_ARM.addr → s.disarms v = false ∨ s.mayDisarm = true →
    exec (.tamperCfgWrite p v) s = .next (accepted s (((s.wr SEC_TAMPER_CFG_IN_POL (bitsOf v 11 8)).wr SEC_TAMPER_CFG_IN_ARM
      (bitsOf v 7 4)).wr SEC_TAMPER_CFG_ARM (bitsOf v 3 0)) p SEC_TAMPER_CFG_ARM.addr)) ∧
  (∀ s p v, Reaches s p SEC_TAMPER_CFG_ARM.addr → s.disarms v = true → s.mayDisarm = false →
    exec (.tamperCfgWrite p v) s = .next (s.reject p SEC_TAMPER_CFG_ARM.addr 6 v)) ∧
  (∀ s p, Reaches s p SEC_KS_CMD_LOAD_NEXT.addr → s.secReady = true → s.on SEC_STATUS_TAMPER = false → s.sec.kek = true →
    (s.slot s.ksSel).st ≠ 3 →
    exec (.ksLoadNext p) s = .next (if s.ksAuth s.ksBytes then accepted s (cmdKsLoadNext.act s) p SEC_KS_CMD_LOAD_NEXT.addr
      else s.reject p SEC_KS_CMD_LOAD_NEXT.addr 6 ((s.word SEC_KS_CMD_LOAD_NEXT.addr).toNat ||| 2 ^ SEC_KS_CMD_LOAD_NEXT.lo))) ∧
  (∀ s p, Reaches s p SEC_KS_CMD_LOAD_NEXT.addr → s.ksChk s.ksBytes ≠ 0 →
    exec (.ksLoadNext p) s = .next (s.reject p SEC_KS_CMD_LOAD_NEXT.addr (s.ksChk s.ksBytes)
      ((s.word SEC_KS_CMD_LOAD_NEXT.addr).toNat ||| 2 ^ SEC_KS_CMD_LOAD_NEXT.lo))) ∧
  (∀ s p, Reaches s p SEC_KS_CMD_SWITCH.addr → s.secReady = true → s.on SEC_STATUS_TAMPER = false → (s.slot s.ksSel).st = 2 →
    exec (.ksSwitch p) s = .next (if s.ksAuth (beBytes 1 s.ksSel) then accepted s (cmdKsSwitch.act s) p SEC_KS_CMD_SWITCH.addr
      else s.reject p SEC_KS_CMD_SWITCH.addr 6 ((s.word SEC_KS_CMD_SWITCH.addr).toNat ||| 2 ^ SEC_KS_CMD_SWITCH.lo))) ∧
  (∀ s p, Reaches s p SEC_KS_CMD_ERASE.addr → s.secReady = true → s.on SEC_STATUS_TAMPER = false →
    exec (.ksErase p) s = .next (if s.ksAuth (beBytes 1 s.ksSel) then
      accepted s (((s.authEnd 6).modSlot s.ksSel eraseSlot).wr SEC_KS_STATUS_REASON 0) p SEC_KS_CMD_ERASE.addr
      else s.reject p SEC_KS_CMD_ERASE.addr 6 ((s.word SEC_KS_CMD_ERASE.addr).toNat ||| 2 ^ SEC_KS_CMD_ERASE.lo))) ∧
  (∀ s p, Reaches s p SEC_KS_CMD_ERASE_ALL.addr → s.secReady = true →
    exec (.ksEraseAll p) s = .next (if s.ksAuth [0xFF] then accepted s (cmdKsEraseAll.act s) p SEC_KS_CMD_ERASE_ALL.addr
      else s.reject p SEC_KS_CMD_ERASE_ALL.addr 6 ((s.word SEC_KS_CMD_ERASE_ALL.addr).toNat ||| 2 ^ SEC_KS_CMD_ERASE_ALL.lo))) ∧
  (∀ (s : State), s.sec.tamperAt ≠ some s.elapsed → (cmdKsEraseAll.act s).on SEC_STATUS_TAMPER = false ∧ (cmdKsEraseAll.act s).sec.auth = none ∧
    (cmdKsEraseAll.act s).rd SEC_KS_STATUS_REASON = 0) ∧
  (∀ (s : State) k y, (s.slot s.ksSel).next = some (k, y) →
    ((cmdKsSwitch.act s).slot s.ksSel).key = k ∧ ((cmdKsSwitch.act s).slot s.ksSel).typ = y ∧ ((cmdKsSwitch.act s).slot s.ksSel).st = 3 ∧
      ((cmdKsSwitch.act s).slot s.ksSel).former = some (s.slot s.ksSel).key) ∧
  (∀ s i, i < 32 → (s.slot i).st = 3 → (s.slot i).eraseDue = false →
    Yields (.keyRetired i) s fun t => (t.slot i).st = 1 ∧ (t.slot i).former = none ∧ (t.slot i).gen = ((s.slot i).gen + 1) % 256 ∧
      (t.slot i).key = (s.slot i).key ∧ SameWords [] s t) ∧
  (∀ s i, i < 32 → (s.slot i).st = 3 → (s.slot i).eraseDue = true →
    Yields (.keyRetired i) s fun t => t.slot i = { zeroised := (s.slot i).zeroised } ∧ SameWords [] s t)

/-- Measurement, attestation, challenges, authorisations and OTP act on the security state. MR_EXT_GO extends the selected register
(R383). ATT_GO keeps the statement of its instant and starts the signing, rejected with code 3 when not ready; the end of the
signing shows the statement and its signature in ATT_BUF (R384; that it is the statement of GO is log entry 154). A failed DRBG is
shown (R385). A read of CHALLENGE0 gives 32 new random bytes, rejected with code 3 when not ready (R386). SUBMIT voids the challenge
and, for a token that passes, opens its operation for 60 s, else shows the failing check; CLOSE and the expiry void it (R386, R387).
OTP words are collected, and programmed under an authorisation whose digest matches them, else rejected with code 6 (R387). Random
bytes are free values. Where the spec is silent it follows the model: log entries 92, 154. It concludes, under conditions on state
and operands alone, that exec answers a next state for: mrExtGo, attGo, attDone, challengeRead, authSubmit, authClose, authExpiry,
otpDataWrite, otpProgram, drbgHealthFail. -/
def Obligations.AttestationAndAuthorisationCommands : Prop :=
  (∀ s p, Reaches s p SEC_MR_EXT_CMD_GO.addr → exec (.mrExtGo p) s = .next (accepted s (s.mrExtend (s.rd SEC_MR_EXT_SEL)
    ((List.range 12).flatMap (fun k => beBytes 4 (s.rd (SEC_MR_EXT_DATA k).inForce)))) p SEC_MR_EXT_CMD_GO.addr)) ∧
  (∀ s p, Reaches s p SEC_ATT_CMD_GO.addr → s.secReady = true → s.on SEC_ATT_STATUS_BUSY = false → s.on SEC_STATUS_DRBG_OK = true →
    exec (.attGo p) s = .next (accepted s (((s.modSec (fun t => { t with att := s.attBody })).flag SEC_ATT_STATUS_BUSY true).flag SEC_ATT_STATUS_DONE false) p SEC_ATT_CMD_GO.addr)) ∧
  (∀ s p, Reaches s p SEC_ATT_CMD_GO.addr → s.secReady = false ∨ s.on SEC_ATT_STATUS_BUSY = true ∨ s.on SEC_STATUS_DRBG_OK = false →
    exec (.attGo p) s = .next (s.reject p SEC_ATT_CMD_GO.addr 3 ((s.word SEC_ATT_CMD_GO.addr).toNat ||| 2 ^ SEC_ATT_CMD_GO.lo))) ∧
  (∀ s, s.on SEC_ATT_STATUS_BUSY = true →
    Yields .attDone s fun t => t.on SEC_ATT_STATUS_BUSY = false ∧ t.on SEC_ATT_STATUS_DONE = true ∧ (t.word (PG_ISR 9).addr).getLsbD 1 = true ∧
      ∀ k, k < 138 → t.rd (SEC_ATT_BUF k) =
        beNat (((s.sec.att ++ (Config.sign Config.deviceKey s.sec.att ++ List.replicate 96 0).take 96).drop (4 * k)).take 4)) ∧
  (∀ s, Yields .drbgHealthFail s fun t => t.on SEC_STATUS_DRBG_OK = false ∧ SameWords [SEC_STATUS_DRBG_OK.addr] s t) ∧
  (∀ s p, Reaches s p (SEC_CHALLENGE 0).addr → s.secReady = false ∨ s.on SEC_STATUS_DRBG_OK = false →
    exec (.challengeRead p) s = .next (s.reject p (SEC_CHALLENGE 0).addr 3 0)) ∧
  (∀ s p, Reaches s p (SEC_CHALLENGE 0).addr → s.secReady = true → s.on SEC_STATUS_DRBG_OK = true →
    Yields (.challengeRead p) s fun t => t.fresh = s.fresh + 1 ∧
      t.sec.chal = some ((List.range 8).map (fun k => (s.random 32).1 / 2 ^ (32 * (7 - k)) % 2 ^ 32), s.elapsed)) ∧
  (∀ s p, Reaches s p SEC_AUTH_CMD_SUBMIT.addr → s.secReady = true →
    exec (.authSubmit p) s = .next (accepted s (cmdAuthSubmit.act s) p SEC_AUTH_CMD_SUBMIT.addr)) ∧
  (∀ (s : State),
    (s.tokenResult ≠ 1 → (cmdAuthSubmit.act s).sec.auth = none ∧ (cmdAuthSubmit.act s).rd SEC_AUTH_STATUS_RESULT = s.tokenResult ∧
      (cmdAuthSubmit.act s).rd SEC_AUTH_STATUS_OP = 0) ∧
    (s.tokenResult = 1 ∧ byteAt s.token 4 ≠ 4 → ((cmdAuthSubmit.act s).sec.auth).map (·.op) = some (byteAt s.token 4) ∧
      (cmdAuthSubmit.act s).rd SEC_AUTH_STATUS_SECONDS = 60) ∧
    (cmdAuthSubmit.act s).sec.chal = none) ∧
  (∀ s p, Reaches s p SEC_AUTH_CMD_CLOSE.addr → s.secReady = true →
    exec (.authClose p) s = .next (accepted s (s.authEnd 0) p SEC_AUTH_CMD_CLOSE.addr)) ∧
  (∀ s a, s.sec.auth = some a → exec .authExpiry s = .next (s.authEnd 6)) ∧
  (∀ (s : State) r, r < 8 → (s.authEnd r).sec.auth = none ∧ (s.authEnd r).rd SEC_AUTH_STATUS_OP = 0 ∧
    (s.authEnd r).rd SEC_AUTH_STATUS_SECONDS = 0 ∧ (s.authEnd r).rd SEC_AUTH_STATUS_RESULT = r) ∧
  (∀ s p v, Reaches s p SEC_OTP_DATA.addr → exec (.otpDataWrite p v) s = .next (accepted s
    ((s.modSec (fun t => { t with otpStage := t.otpStage ++ [(s.rd SEC_OTP_ADDR, v % 2 ^ 32)] })).inc SEC_OTP_ADDR) p SEC_OTP_DATA.addr)) ∧
  (∀ s p a, Reaches s p SEC_OTP_CMD_PROGRAM.addr → s.secReady = true → s.authFor 3 = some a →
    exec (.otpProgram p) s = .next (
      if a.digest = (Config.sha384 (s.sec.otpStage.flatMap (fun e => beBytes 4 e.1 ++ beBytes 4 e.2))).toNat then accepted s
        ((s.modSec (fun t => { t with otp := t.otp ++ t.otpStage, otpStage := [] })).authEnd 6) p SEC_OTP_CMD_PROGRAM.addr
      else s.reject p SEC_OTP_CMD_PROGRAM.addr 6 ((s.word SEC_OTP_CMD_PROGRAM.addr).toNat ||| 2 ^ SEC_OTP_CMD_PROGRAM.lo))) ∧
  (∀ s p, Reaches s p SEC_OTP_CMD_PROGRAM.addr → s.secReady = true → s.authFor 3 = none →
    exec (.otpProgram p) s = .next (s.reject p SEC_OTP_CMD_PROGRAM.addr 6
      ((s.word SEC_OTP_CMD_PROGRAM.addr).toNat ||| 2 ^ SEC_OTP_CMD_PROGRAM.lo)))

/-- The steps of a start, the ledger commands and the configuration region act on the start-up state. A step of a start in progress
does its work: B1 takes the majority of three samples of each strap and goes on to B2; B2 reads the regulator and starts the rail
script of the copy the ledger selects; B3 has keys, or fails with code 0x03; B4 enters the loader for the alternative, fails with
the image check's code, or records the image; B5 fails with 0x0C for a bad engine or starts the engines; a late engine runs or
halts; B7 ends when every port is settled; B8 zeroes the counts (R391–R394, R397, R401). A step that exceeds its time fails with
code 0x01, B7 with 0x0F (R391). A second with D0 up is counted (R393). CLR_CNT, RESET_ALT, RB_ADVANCE, CFG_COMMIT and CFG_ERASE are
accepted writes that do their operation, RB_ADVANCE rejected with code 3 before B8 (R395, R399, R400); a CFG_DATA write can only
clear bits and advances the address (R400). Straps, PUF, regulator and engine results are operands; the unit ID is a constant of the
chip. Where the spec is silent it follows the model: log entries 94, 95, 98, 155. It concludes, under conditions on state and
operands alone, that exec answers a next state for: bootB1AonUp, bootB2Rails, bootB3Keys, bootB4Image, bootB5Engines, bootB7Links,
bootB8Running, bootStepTimeout, clrCnt, resetAlt, rbAdvance, cfgDataWrite, cfgCommit, cfgErase, opSecondsTick, engineLoadDone. -/
def Obligations.StartUpStepCommands : Prop :=
  (∀ s x y z, s.chip.d0Up = true → s.boot.b1 = false → s.step_ = 1 → s.boot.cold = false → s.svc.reduced = false →
    s.on BOOT_STATUS_HALT = false → Yields (.bootB1AonUp x y z) s fun t => t.boot.b1 = true ∧ t.step_ = 2 ∧
      t.rd BOOT_STATUS_BOOTSEL = majority x.2 y.2 z.2 % 4 ∧ t.chip.strap = majority x.1 y.1 z.1 % 4 ∧ t.chip.unitId = s.chip.unitId) ∧
  (∀ s m, s.step_ = 2 → s.on BOOT_STATUS_HALT = false → s.chip.thermalOff = false → s.pwr.script = none → m % 256 / 32 = 0 →
    exec (.bootB2Rails m) s = .next ((s.wr PMB_VOUT_MODE m).scriptStart ((s.wr PMB_VOUT_MODE m).altOn 2).toNat)) ∧
  (∀ s, s.step_ = 3 → s.on BOOT_STATUS_LOADER = false → s.on BOOT_STATUS_NO_KEYS = false →
    exec (.bootB3Keys false) s = .next (s.bootFail 3 3)) ∧
  (∀ s, s.step_ = 3 → s.on BOOT_STATUS_LOADER = false → s.on BOOT_STATUS_NO_KEYS = false → s.rd BOOT_STATUS_BOOTSEL ≠ 1 →
    Yields (.bootB3Keys true) s fun t => t.on SEC_STATUS_KEK_OK = true ∧ t.on SEC_STATUS_DRBG_OK = true ∧ t.sec.kek = true ∧ t.step_ = 4) ∧
  (∀ s, s.step_ = 4 → s.on BOOT_STATUS_LOADER = false → s.altOn 4 = true → exec .bootB4Image s = .next (s.loaderEnter false)) ∧
  (∀ s, s.step_ = 4 → s.on BOOT_STATUS_LOADER = false → s.altOn 4 = false → s.imageCheck ≠ 0 →
    exec .bootB4Image s = .next (s.bootFail 4 s.imageCheck)) ∧
  (∀ s h p, s.step_ = 4 → s.on BOOT_STATUS_LOADER = false → s.altOn 4 = false → s.boot.image = some (h, p) →
    Yields .bootB4Image s fun t => s.imageCheck = 0 → t.step_ = 5 ∧ t.rd BOOT_IMG_VERSION = beAt h 12 4 % 2 ^ 32 ∧
      t.rd BOOT_IMG_INFO_RB_INDEX = beAt h 16 1 % 64) ∧
  (∀ s l, s.step_ = 5 → s.on BOOT_STATUS_LOADER = false → s.domOn 13 = true → s.domOn 14 = true → s.enginesToLoad.all s.engUp = false →
    s.enginesToLoad.any l.contains = true → exec (.bootB5Engines l) s = .next (s.bootFail 5 0xC)) ∧
  (∀ s l, s.step_ = 5 → s.on BOOT_STATUS_LOADER = false → s.domOn 13 = true → s.domOn 14 = true → s.enginesToLoad.all s.engUp = false →
    s.enginesToLoad.any l.contains = false → s.svc.reduced = false →
    exec (.bootB5Engines l) s = .next ((foldS s.enginesToLoad (fun s e => s.engStart e) s).enterStep 6)) ∧
  (∀ s e, e < 16 → s.engState e = engLoading → exec (.engineLoadDone e true) s = .next (s.engStart e)) ∧
  (∀ s e, e < 16 → s.engState e = engLoading → exec (.engineLoadDone e false) s = .next (s.engHalt e 7)) ∧
  (∀ s l, s.step_ = 7 → s.portSettled l 0 = true → s.portSettled l 1 = true → s.portSettled l 2 = true →
    Yields (.bootB7Links l) s fun t => t.boot.settled = true ∧ SameWords [] s t) ∧
  (∀ s, s.step_ = 7 → s.boot.settled = true → exec .bootB8Running s = .next (s.clearCounts.enterStep 8)) ∧
  (∀ s, s.stepRuns = true → exec .bootStepTimeout s = .next (s.bootFail s.step_ (if s.step_ = 7 then 0xF else 1))) ∧
  (∀ s, s.chip.d0Up = true → Yields .opSecondsTick s fun t => t.rd BOOT_OP_SECONDS = (s.rd BOOT_OP_SECONDS + 1) % 2 ^ 32 ∧
    SameWords [BOOT_OP_SECONDS.addr] s t) ∧
  (∀ s p, Reaches s p BOOT_LEDGER_CMD_CLR_CNT.addr → exec (.clrCnt p) s = .next (accepted s s.clearCounts p BOOT_LEDGER_CMD_CLR_CNT.addr)) ∧
  (∀ s p m, Reaches s p BOOT_LEDGER_CMD_RESET_ALT.addr →
    exec (.resetAlt p m) s = .next (accepted s (s.resetAlt m) p BOOT_LEDGER_CMD_RESET_ALT.addr)) ∧
  (∀ s p, Reaches s p BOOT_RB_ADVANCE.addr → s.step_ = 8 → s.on BOOT_STATUS_LOADER = false →
    exec (.rbAdvance p) s = .next (accepted s ((s.wr BOOT_RB_FLOOR (max (s.rd BOOT_RB_FLOOR) (s.rd BOOT_IMG_INFO_RB_INDEX))).modSec
      (fun t => { t with rbRaised := max (s.rd BOOT_RB_FLOOR) (s.rd BOOT_IMG_INFO_RB_INDEX) })) p BOOT_RB_ADVANCE.addr)) ∧
  (∀ s p, Reaches s p BOOT_RB_ADVANCE.addr → s.step_ ≠ 8 →
    exec (.rbAdvance p) s = .next (s.reject p BOOT_RB_ADVANCE.addr 3 ((s.word BOOT_RB_ADVANCE.addr).toNat ||| 2 ^ BOOT_RB_ADVANCE.lo))) ∧
  (∀ s p v, Reaches s p BOOT_CFG_DATA.addr → exec (.cfgDataWrite p v) s = .next (accepted s (s.cfgProgram v) p BOOT_CFG_DATA.addr)) ∧
  (∀ (s : State) v, s.rd BOOT_CFG_ADDR < 12288 → (s.cfgProgram v).cfgWord (s.rd BOOT_CFG_ADDR) = s.cfgWord (s.rd BOOT_CFG_ADDR) &&& (v % 2 ^ 32)) ∧
  (∀ s p, Reaches s p BOOT_CFG_CMD_COMMIT.addr → s.cfgCount.isSome = true →
    exec (.cfgCommit p) s = .next (accepted s ((s.wr BOOT_CFG_STATUS_REASON 0).clearAlt 6) p BOOT_CFG_CMD_COMMIT.addr)) ∧
  (∀ s p, Reaches s p BOOT_CFG_CMD_ERASE.addr →
    exec (.cfgErase p) s = .next (accepted s (s.modBoot (fun b => { b with cfg := [] })) p BOOT_CFG_CMD_ERASE.addr))

/-- The loader, DFU, the service UART and the image write act on the update state. LOADER_ENTER enters the loader, an idle one
entered from a running image over a good image resets (R402). DETACH leaves the bus for the loader, stalled at the Service level
(R253, R337). A DFU block is staged, or fails out of order or too long; the zero-length request over a whole image starts the write;
CLRSTATUS discards the staged image (R403, R405). A failed write is made once more and then fails with reason 4; a good one ends
with a warm reset (R404). A UART frame with a new SEQ is executed and answered, a repeated one is answered again: CONSOLE passes
text, UPD_START, UPD_DATA and UPD_END stage and write an image or answer their error, UPD_STATUS answers phase, reason and bytes,
ENTER_LOADER enters the loader (R403, R406, R407). A gap cuts a frame short with no effect (R406). Where the spec is silent it
follows the model: log entries 96, 97, 156. It concludes, under conditions on state and operands alone, that exec answers a next
state for: dfuDetach, dfuDnload, dfuClrstatus, loaderEnter, loaderIdleTimeout, imageWriteDone, svcUartGapTimeout, console, updStart,
updData, updEnd, updStatus, enterLoader. -/
def Obligations.LoaderAndUpdateCommands : Prop :=
  let anew (s : State) (q : Nat) : Prop := s.uartUp = true ∧ s.boot.uartLast.filter (fun l => l.1 == q) = none
  (∀ s p, Reaches s p BOOT_LOADER_CMD_ENTER.addr →
    exec (.loaderEnter p) s = .next (accepted s (s.when (!s.on BOOT_STATUS_LOADER) (·.loaderEnter true)) p BOOT_LOADER_CMD_ENTER.addr)) ∧
  (∀ s, s.on BOOT_STATUS_LOADER = true → s.boot.fromRun = true → s.rd BOOT_UPD_STATUS_PHASE = 0 →
    exec .loaderIdleTimeout s = .next (if s.imageCheck = 0 then s.warmReset else s)) ∧
  (∀ s, s.iface 2 = true → s.usb.resetAt ≠ some s.elapsed → s.svc.reduced = true → s.svc.level < 2 → exec .dfuDetach s = .next s.usbStall) ∧
  (∀ s, s.iface 2 = true → s.usb.resetAt ≠ some s.elapsed → s.svc.reduced = false →
    exec .dfuDetach s = .next (((s.modUsb (fun u => { u with left := true })).emit (.usbFn 1)).loaderEnter true)) ∧
  (∀ s b x d, s.on BOOT_STATUS_LOADER = true → s.boot.dfuState ≠ 10 → (s.inc USBD_DFU_BLOCKS).updBusy = false ∨ s.boot.dfu = true →
    exec (.dfuDnload b (x :: d)) s = .next ((s.inc USBD_DFU_BLOCKS).dfuBlock b (x :: d))) ∧
  (∀ s b, s.on BOOT_STATUS_LOADER = true → s.boot.dfuState ≠ 10 → s.boot.dfu = true → s.updWhole = true →
    exec (.dfuDnload b []) s = .next (((s.inc USBD_DFU_BLOCKS).updWrite).dfuSet 7 0)) ∧
  (∀ (s : State) b d, s.boot.dfu = true → b ≠ s.boot.dfuNext ∨ 4096 < d.length → s.dfuBlock b d = (s.updFail 0).dfuSet 10 2) ∧
  (∀ s, s.on BOOT_STATUS_LOADER = true → s.rd BOOT_UPD_STATUS_PHASE ≠ 3 → s.boot.uart = none →
    Yields .dfuClrstatus s fun t => t.rd BOOT_UPD_STATUS_PHASE = 0 ∧ t.boot.staged = [] ∧ t.boot.dfuState = 2 ∧ t.boot.dfuStatus = 0 ∧
      t.boot.dfu = false) ∧
  (∀ s e, s.rd BOOT_UPD_STATUS_PHASE = 3 → s.boot.attempt = 1 →
    Yields (.imageWriteDone false e) s fun t => t.boot.attempt = 2 ∧ t.boot.staged = s.boot.staged ∧ SameWords [] s t) ∧
  (∀ s e, s.rd BOOT_UPD_STATUS_PHASE = 3 → s.boot.attempt = 2 →
    exec (.imageWriteDone false e) s = .next (((s.updFail 4).when (s.boot.dfuState == 7) (·.dfuSet 10 (if e then 4 else 6))).when
      (s.svc.reduced && decide (s.svc.level < 2)) (·.levelFall))) ∧
  (∀ s e, s.rd BOOT_UPD_STATUS_PHASE = 3 → 1 ≤ s.boot.attempt →
    let written := s.modBoot (fun b => { b with image := some (b.staged.take 512, b.staged.drop 512), attempt := 0 })
    exec (.imageWriteDone true e) s = .next ((((((((written.setFlagBit 0 false).clearAlt 4).setCount 4 0).wr BOOT_UPD_STATUS_PHASE 4).raise
      10 2).ledgerUpdate).when (s.boot.dfuState == 7) (·.dfuSet 8 0)).warmReset)) ∧
  (∀ s, exec .svcUartGapTimeout s = .next s) ∧
  (∀ s q x, anew s q → Yields (.console q x) s fun t => t.out = s.out ++ [.unitTx 5 0 0 x, .svcUart 0x82 q [0]] ∧
    t.boot.uartLast = some (q, [0x82, 0]) ∧ SameWords [] s t) ∧
  (∀ s q x a l, s.uartUp = true → s.boot.uartLast = some (q, a :: l) →
    exec (.console q x) s = .next (s.emit (.svcUart a.toNat q l))) ∧
  (∀ s q n, anew s q → s.updBusy = false → s.svc.reduced = false → 512 < n → n ≤ 8389120 → s.on BOOT_STATUS_LOADER = true →
    Yields (.updStart q n) s fun t => t.boot.uart = some n ∧ t.boot.staged = [] ∧ t.rd BOOT_UPD_STATUS_PHASE = 1 ∧
      t.out = s.out ++ [.svcUart 0x90 q [0]]) ∧
  (∀ s q n, anew s q → s.updBusy = true → Yields (.updStart q n) s fun t => t.out = s.out ++ [.svcUart 0x90 q [5]] ∧ SameWords [] s t) ∧
  (∀ s q o d n, anew s q → s.boot.uart = some n → d ≠ [] → d.length ≤ 1016 → o = s.boot.staged.length → (s.updStage d).2 = 0 →
    s.boot.staged.length + d.length ≤ n →
    Yields (.updData q o d) s fun t => t.boot.staged = s.boot.staged ++ d ∧ t.out = s.out ++ [.svcUart 0x91 q [0]] ∧
      t.rd BOOT_UPD_BYTES = (s.boot.staged.length + d.length) % 2 ^ BOOT_UPD_BYTES.width) ∧
  (∀ s q o d n, anew s q → s.boot.uart = some n → d ≠ [] → d.length ≤ 1016 → o ≠ s.boot.staged.length →
    Yields (.updData q o d) s fun t => t.boot.staged = s.boot.staged ∧ t.out = s.out ++ [.svcUart 0x91 q [2]] ∧ SameWords [] s t) ∧
  (∀ s q n, anew s q → s.boot.uart = some n → s.updWhole = true →
    Yields (.updEnd q) s fun t => if s.stagedOk then t.rd BOOT_UPD_STATUS_PHASE = 3 ∧ t.boot.image = none ∧ t.boot.attempt = 1 ∧
      .svcUart 0x92 q [0] ∈ t.out else t.rd BOOT_UPD_STATUS_PHASE = 5 ∧ t.rd BOOT_UPD_STATUS_REASON = 0xB ∧ .svcUart 0x92 q [3] ∈ t.out) ∧
  (∀ s q, anew s q → Yields (.updStatus q) s fun t => SameWords [] s t ∧ t.out = s.out ++ [.svcUart 0x93 q
    ([0] ++ beBytes 1 (s.rd BOOT_UPD_STATUS_PHASE) ++ beBytes 1 (s.rd BOOT_UPD_STATUS_REASON) ++ beBytes 4 (s.rd BOOT_UPD_BYTES))]) ∧
  (∀ s q, anew s q → Yields (.enterLoader q) s fun t => t.on BOOT_STATUS_LOADER = true ∧ .svcUart 0xA0 q [0] ∈ t.out)

/-- Triggers, chains, flush and clear act on the event recorder. The source that fired first is served (R412). A firing within
HOLDOFF is only counted, one with 16 queued is lost and counted, another during a chain is queued and starts its HOLDOFF (R415).
FIRE and FLUSH are accepted writes that do their operation (R412, R417); CLEAR is accepted under its authorisation, rejected with
code 3 during an erase and with code 6 without one (R423). The end of a HOLDOFF ends that slot's alone (R415). A word not read in
time is marked as missing (R413). A written record enters the ring, and the chain goes on or ends; a continuation reads its slot's
list (R413, R414). The flush timer requests a flush; a record flushed with at most one failed attempt is in the flash and FLUSHED
follows, and a second failure is counted and ends the flush (R417, R418). An ended erase empties the flash (R423). Where the spec is
silent it follows the model: log entries 99, 100, 101, 102, 103. It concludes, under conditions on state and operands alone, that
exec answers a next state for: triggerFire, recFire, snapshotReadTimeout, recordWritten, chainContinuation, triggerHoldoffEnd,
flushTimer, recFlush, flushRecordDone, recClear, clearEraseDone. -/
def Obligations.RecorderCommands : Prop :=
  (∀ s x l, s.recd.due = x :: l → exec .triggerFire s = .next ((s.modRec (fun r => { r with due := l })).fireSlot x)) ∧
  (∀ s, s.recd.due = [] → exec .triggerFire s = .next s) ∧
  (∀ (s : State) x, x.slot ∈ s.recd.holdoff → s.fireSlot x = s.inc (REC_SUPPRESSED x.slot)) ∧
  (∀ (s : State) x, x.slot ∉ s.recd.holdoff → 16 ≤ s.recd.queue.length →
    (s.fireSlot x).rd REC_TRG_LOST = (s.rd REC_TRG_LOST + 1) % 2 ^ 32 ∧ (s.fireSlot x).recd.queue = s.recd.queue ∧
      ((s.fireSlot x).word (PG_ISR 8).addr).getLsbD 3 = true) ∧
  (∀ (s : State) x, x.slot < 64 → x.slot ∉ s.recd.holdoff → s.recd.queue.length < 16 → s.recd.run.isSome = true →
    (s.fireSlot x).recd.queue = s.recd.queue ++ [x] ∧
      (s.rd (REC_TRG_HOLD_HOLDOFF x.slot) ≠ 0 → x.slot ∈ (s.fireSlot x).recd.holdoff)) ∧
  (∀ s p k, k < 64 → Reaches s p REC_CMD_FIRE.addr →
    exec (.recFire p k) s = .next (accepted s ((cmdRecFire k).act s) p REC_CMD_FIRE.addr)) ∧
  (∀ s p, Reaches s p REC_CMD_FLUSH.addr → exec (.recFlush p) s = .next (accepted s s.flushReq p REC_CMD_FLUSH.addr)) ∧
  (∀ s p a, Reaches s p REC_CMD_CLEAR.addr → s.rd REC_STATUS_CLR_PHASE ≠ 1 → s.authFor 1 = some a →
    exec (.recClear p) s = .next (accepted s (s.recClear a) p REC_CMD_CLEAR.addr)) ∧
  (∀ s p, Reaches s p REC_CMD_CLEAR.addr → s.rd REC_STATUS_CLR_PHASE = 1 →
    exec (.recClear p) s = .next (s.reject p REC_CMD_CLEAR.addr 3 ((s.word REC_CMD_CLEAR.addr).toNat ||| 2 ^ REC_CMD_CLEAR.lo))) ∧
  (∀ s p, Reaches s p REC_CMD_CLEAR.addr → s.rd REC_STATUS_CLR_PHASE ≠ 1 → s.authFor 1 = none →
    exec (.recClear p) s = .next (s.reject p REC_CMD_CLEAR.addr 6 ((s.word REC_CMD_CLEAR.addr).toNat ||| 2 ^ REC_CMD_CLEAR.lo))) ∧
  (∀ s k, Yields (.triggerHoldoffEnd k) s fun t => k ∉ t.recd.holdoff ∧ (∀ j, j ≠ k → (j ∈ t.recd.holdoff ↔ j ∈ s.recd.holdoff)) ∧ SameWords [] s t) ∧
  (∀ s x k w v, s.recd.run = some x → x.next = none → x.vals[k]? = some (w, v) →
    Yields (.snapshotReadTimeout k) s fun t => (t.recd.run.map (fun y => y.vals[k]?)) = some (some (w, none)) ∧ SameWords [] s t) ∧
  (∀ s x n, s.recd.run = some x → x.next = none → s.chainNext x = some n →
    exec .recordWritten s = .next ((s.enterRing (s.runRecord x)).modRec (fun r => { r with run := some { x with next := some n } }))) ∧
  (∀ s x, s.recd.run = some x → x.next = none → s.chainNext x = none →
    exec .recordWritten s = .next ((s.enterRing (s.runRecord x)).runEnd)) ∧
  (∀ s x n, s.recd.run = some x → x.next = some n →
    Yields .chainContinuation s fun t => t.recd.run = some { x with lst := n, pos := x.pos + 1, used := x.used ++ [n], vals := s.readList n, next := none } ∧
      SameWords [] s t) ∧
  (∀ s, s.recd.flushTimer = true → exec .flushTimer s = .next s.flushReq) ∧
  (∀ s n r f, s.recd.flushTo = some n → s.flushNext = some r → s.mayFlush = true → 2 ≤ f →
    Yields (.flushRecordDone f) s fun t => t.rd REC_FLUSH_ERR = (s.rd REC_FLUSH_ERR + 1) % 2 ^ 32 ∧ t.recd.flushTo = none ∧
      t.recd.flash = s.recd.flash ∧ (t.word (PG_ISR 8).addr).getLsbD 5 = true) ∧
  (∀ s n r f, s.recd.flushTo = some n → s.flushNext = some r → s.mayFlush = true → f < 2 →
    Yields (.flushRecordDone f) s fun t => t.recd.flash = flashPut s.recd.flash r ∧ t.rd REC_FLUSHED_SEQ = seqNext r.seq % 2 ^ 32 ∧
      (t.word (PG_ISR 8).addr).getLsbD 1 = true) ∧
  (∀ s, s.rd REC_STATUS_CLR_PHASE = 1 → s.engUp 6 = true →
    Yields .clearEraseDone s fun t => t.recd.flash = [] ∧ t.rd REC_STATUS_CLR_PHASE = 2)

/-- Life cycles, soft resets, stalls, power domains and the state entry act on their state. While D0 is up and no earlier access of
the path to the page waits, writes of EN = 1, EN = 0 and SOFT_RST to a page are accepted writes that start, stop or reset its
function, and to a reserved page are completed with no effect (R9, R19, R38, R39, R43). A start from OFF requests the page's
domains; one while stopping sets EN_PENDING; a stop from ON begins it (R38). A start completes when nothing it waits for is missing;
a stop ends in OFF or starts again (R39). A safe point with nothing in progress brings the waiting fields into force (R6). A domain
is requested, asked to go off, held for its dependants, goes off, and is cycled for a block that stays wedged (R19–R22). A stall of
a block that is up wedges it, with a record, a final one for the pages 12, 14 and 15, and ends its accesses (R17, R31). An entry
into a power state whose conditions fail shows them, else, below S5, the state is entered (R350). Where the spec is silent it
follows the model: log entries 15, 16, 25, 107, 115, 116. It concludes, under conditions on state and operands alone, that exec
answers a next state for: rwpSafePointApply, pgEnable, pgDisable, functionStartComplete, functionStopComplete, softRst, domainCycle,
stallDetect, domainSwitchOn, domainSwitchOff, domainOffComplete, stateEntry. -/
def Obligations.LifeCycleAndDomainCommands : Prop :=
  (∀ s p n, n < 39 → Reaches s p (0x1000 * n + 8) →
    exec (.pgEnable p n) s = .next (accepted s (s.enable n) p (0x1000 * n + 8))) ∧
  (∀ s p n, n < 39 → Reaches s p (0x1000 * n + 8) →
    exec (.pgDisable p n) s = .next (accepted s (s.disable n) p (0x1000 * n + 8))) ∧
  (∀ s p n k, n < 39 → Reaches s p (0x1000 * n + 8) →
    exec (.softRst p n k) s = .next (accepted s (s.softRstWrite n k) p (0x1000 * n + 8))) ∧
  (∀ s p n, 39 ≤ n → Reaches s p 0 → exec (.pgEnable p n) s = .next (s.wrote p (0x1000 * n + 8)) ∧
    exec (.pgDisable p n) s = .next (s.wrote p (0x1000 * n + 8))) ∧
  (∀ (s : State) n, s.lifeImpl n = true → s.rd (PG_STATE_LIFE n) = lifeOff →
    s.enable n = foldS (pageDoms n) (fun s d => s.domRequest d) ((s.flag (PG_CTRL_EN n) true).setLife n lifeStarting)) ∧
  (∀ (s : State) n, s.lifeImpl n = true → s.rd (PG_STATE_LIFE n) = lifeStopping →
    s.enable n = (s.flag (PG_CTRL_EN n) true).flag (PG_STATE_EN_PENDING n) true) ∧
  (∀ (s : State) n, s.lifeImpl n = true → s.rd (PG_STATE_LIFE n) = lifeOn →
    s.disable n = ((s.flag (PG_CTRL_EN n) false).setLife n lifeStopping).functionStops n) ∧
  (∀ s n, n < 39 → s.startOk n = true → exec (.functionStartComplete n) s = .next ((s.setLife n lifeOn).functionBegins n)) ∧
  (∀ s c, c < 32 → exec (.functionStartComplete (64 + c)) s = .next (s.chStarted c)) ∧
  (∀ s n, n < 39 → s.rd (PG_STATE_LIFE n) = lifeStopping → (s.functionEnded n).on (PG_STATE_EN_PENDING n) = false →
    exec (.functionStopComplete n) s = .next ((s.functionEnded n).setLife n lifeOff)) ∧
  (∀ s n, n < 39 → s.rd (PG_STATE_LIFE n) = lifeStopping → (s.functionEnded n).on (PG_STATE_EN_PENDING n) = true →
    exec (.functionStopComplete n) s = .next (((s.functionEnded n).flag (PG_STATE_EN_PENDING n) false).pageStart n)) ∧
  (∀ s k, s.brg.cur = none → exec (.rwpSafePointApply 25 k) s = .next (s.applyRwp 25)) ∧
  (∀ s k, exec (.rwpSafePointApply 26 k) s = .next (s.applyRwp 26)) ∧
  (∀ s d, d < 16 → exec (.domainSwitchOn d) s = .next (s.domRequest d)) ∧
  (∀ s d, 3 ≤ d → d < 16 → exec (.domainSwitchOff d) s = .next (s.domOffReq d)) ∧
  (∀ (s : State) d, (s.dom d).phase = .on → s.domHasDependants d = true → s.domOffReq d = s.setDom d { s.dom d with offHeld := true }) ∧
  (∀ (s : State) d, (s.dom d).phase = .on → s.domHasDependants d = false → s.domOffReq d = s.domFall d) ∧
  (∀ s d, (s.dom d).phase = .falling → s.domHasDependants d = false → (s.dom d).onPending = false →
    exec (.domainOffComplete d) s = .next (((s.domLost d).setDom d { phase := .off }).releaseHeld d)) ∧
  (∀ s d, (s.dom d).phase = .falling → s.domHasDependants d = false → (s.dom d).onPending = true →
    exec (.domainOffComplete d) s = .next ((((s.domLost d).setDom d { phase := .off }).domRequest d).releaseHeld d)) ∧
  (∀ s n, s.chip.softRst.contains n = true → s.on (PG_STATE_WEDGED n) = true → (∀ d ∈ pageDoms n, 3 ≤ d ∧ s.domOn d = true) →
    Yields (.domainCycle n) s fun t => ∀ d ∈ pageDoms n, (t.dom d).phase = .falling ∧ (t.dom d).onPending = true) ∧
  (∀ s n, n < 39 → n < 12 ∨ 15 < n → s.on (PG_STATE_DOMAIN_UP n) = true → s.on (PG_STATE_WEDGED n) = false →
    exec (.stallDetect n) s = .next (((((s.flag (PG_STATE_WEDGED n) true).functionFault n).raise n 31).sysRecord 4 n (256 * n + 31)
      [wIdx (PG_STATE_LIFE n), wIdx (PG_ERRCAP_CODE n)]).stallEnd n)) ∧
  (∀ s n, n = 12 ∨ n = 14 ∨ n = 15 → s.on (PG_STATE_DOMAIN_UP n) = true → s.on (PG_STATE_WEDGED n) = false →
    exec (.stallDetect n) s = .next (((((s.flag (PG_STATE_WEDGED n) true).functionFault n).raise n 31).finalRecord 4 n (256 * n + 31)
      [wIdx (PG_STATE_LIFE n), wIdx (PG_ERRCAP_CODE n)]).stallEnd n)) ∧
  (∀ s w, s.pwr.entryPending = true → s.entryBlock (s.rd PWR_PS_CTRL_TARGET) ≠ 0 →
    exec (.stateEntry w) s = .next (s.wr PWR_PS_STATUS_BLOCK (s.entryBlock (s.rd PWR_PS_CTRL_TARGET)))) ∧
  (∀ s, s.pwr.entryPending = true → s.entryBlock (s.rd PWR_PS_CTRL_TARGET) = 0 → s.rd PWR_PS_CTRL_TARGET ≠ 5 →
    exec (.stateEntry 0) s = .next (s.enterState (s.rd PWR_PS_CTRL_TARGET)))

/-- Watchdog, brown-out, thermal shutdown, power loss and starts act on the chip. An expired watchdog resets, or waits for a final
commit in hand (R30, R47). The end of a final commit with no chain in progress enters its records, and then the watchdog reset, the
warm reset a write of the path mspi asked for, or the cut of D3–D15 after a thermal shutdown, happens (R30–R32). A brown-out on VOR,
and one on VBUS that supplies alone, is shown and starts a final commit, and ends a voltage request (R330, R362). A thermal shutdown
starts one and waits at most 100 µs, and a start below 115 °C goes on from B2 (R31, R33). A loss of every supply of D2 leaves no
power, keeping the key store with VBAT, the flash and the image (R13). A cold start takes the seconds of a valid RTC (R174, R391). A
warm reset keeps time, bezel, key store and ring, and starts at B1 (R7). Where the spec is silent it follows the model: log entries
5, 24, 28, 29, 30. It concludes, under conditions on state and operands alone, that exec answers a next state for: coldStart,
watchdogExpiry, brownout, finalCommitEnd, thermalShutdown, thermalRestart, d2PowerLoss. -/
def Obligations.ResetAndProngCommands : Prop :=
  let committed (s : State) : State :=
    (foldS (s.recd.final.map (·.2)) (fun s r => s.enterRing r) { s with recd := { s.recd with final := [] } }).modChip (fun c => { c with finalRun := false, wdtHeld := false })
  (∀ s, s.on SYS_WDT_CTRL_EN = true → s.chip.d0Up = true → s.chip.finalRun = false → exec .watchdogExpiry s = .next s.watchdogReset) ∧
  (∀ s, s.on SYS_WDT_CTRL_EN = true → s.chip.d0Up = true → s.chip.finalRun = true →
    exec .watchdogExpiry s = .next (s.modChip (fun c => { c with wdtHeld := true }))) ∧
  (∀ s, s.chip.finalRun = true → s.recd.run = none → s.chip.thermalWait = none → s.chip.wdtHeld = true →
    exec .finalCommitEnd s = .next (committed s).watchdogReset) ∧
  (∀ s, s.chip.finalRun = true → s.recd.run = none → s.chip.thermalWait = none → s.chip.wdtHeld = false → s.chip.rstHeld = some .mspi →
    exec .finalCommitEnd s = .next (committed s).warmReset) ∧
  (∀ s x, s.chip.finalRun = true → s.recd.run = none → s.chip.thermalWait = some x → s.chip.wdtHeld = false → s.chip.rstHeld = none →
    exec .finalCommitEnd s = .next (committed s).thermalCut) ∧
  (∀ s v b, s.domOn 2 = true → s.chip.d0Up = true → v < 500 * s.rd BZL_OR_CTRL_BROWN_V →
    Yields (.brownout v b false) s fun t => t.on BZL_STATUS_BROWNOUT = true ∧ t.chip.finalRun = true ∧ t.on PMB_VSTAT_BUSY = false ∧
      (t.word (PG_ISR 3).addr).getLsbD 5 = true) ∧
  (∀ s v b, s.domOn 2 = true → s.chip.d0Up = true → b < 4400 →
    Yields (.brownout v b true) s fun t => t.on BZL_STATUS_BROWNOUT = true ∧ t.chip.finalRun = true) ∧
  (∀ s, 2080 < s.tj → s.chip.thermalOff = false → s.chip.d0Up = true →
    Yields .thermalShutdown s fun t => t.chip.thermalOff = true ∧ t.chip.thermalWait = some (s.elapsed + 100000) ∧ t.chip.finalRun = true ∧
      t.on THM_STATUS_SHUTDOWN_SEEN = true) ∧
  (∀ s x, s.chip.thermalOff = true → s.chip.thermalWait = none → s.chip.d0Up = true → x < 1840 →
    Yields (.thermalRestart x) s fun t => t.chip.thermalOff = false ∧ t.step_ = 2 ∧ (t.word (PG_ISR 5).addr).getLsbD 2 = true) ∧
  (∀ s b, s.unsupplied = true → Yields (.d2PowerLoss b) s fun t => t.chip.d0Up = false ∧ t.domOn 2 = false ∧ t.domOn 0 = false ∧ t.bzl = {} ∧ t.svc = {} ∧
    t.sec.slots = (if b then s.sec.slots else []) ∧ t.recd.flash = s.recd.flash ∧ t.recd.ring = [] ∧
    t.boot.image = s.boot.image) ∧
  (∀ s r b, s.domOn 2 = true →
    Yields (.coldStart r b) s fun t => t.time.sec = r.getD 0 ∧ t.time.ns = 0 ∧ t.time.everSet = r.isSome ∧ t.boot.b1 = false ∧
      t.recd.ring = [] ∧ t.recd.flash = s.recd.flash ∧ t.bzl = s.bzl ∧ t.sec.slots = (if b then s.sec.slots else []) ∧
      t.step_ = 0 ∧ t.chip.d0Up = true) ∧
  (∀ (s : State), s.warmReset.step_ = 1 ∧ s.warmReset.time.sec = s.time.sec ∧ s.warmReset.time.ns = s.time.ns ∧
    s.warmReset.bzl = s.bzl ∧ s.warmReset.sec.slots = s.sec.slots ∧ s.warmReset.recd.ring = s.recd.ring ∧ s.warmReset.ctxs = [] ∧
    s.warmReset.fac.runs = [] ∧ s.warmReset.evi.fout = 0)

/-- A write that lowers VMIN_DECL below what the guaranteed load needs is rejected with code 0x01. A write that lowers the declared
minimum core voltage, when the chip's guaranteed load exceeds the girdle limit at the new value, is rejected with code 0x01, and the
declared minimum stays as it was. -/
def Obligations.LowerMinimumRejected : Prop :=
  ∀ (s : State) (p : Path) (v : Nat), Reaches s p PWR_VMIN_DECL.addr → v % 64 < s.rd PWR_VMIN_DECL → girdleLimit (v % 64) < s.chipLoad →
    Yields (.vminDeclWrite p v) s fun t => t = s.reject p PWR_VMIN_DECL.addr 1 v ∧ t.rd PWR_VMIN_DECL = s.rd PWR_VMIN_DECL

/-- A switch-on requested during a switch-off does not abort it and takes effect when it has completed. A request to switch on a
domain that is switching off leaves it switching off and is kept. The switch-off completes: the domain then rises if its
prerequisites are on, else it waits for them. When it has come up it is on. A function whose start is requested while it stops keeps
stopping with EN_PENDING set. -/
def Obligations.DomainOnDuringSwitchOff : Prop :=
  (∀ (s : State) (d : Nat), d < 16 → s.chip.thermalOff = false → (s.dom d).phase = .falling →
    Yields (.domainSwitchOn d) s fun t => (t.dom d).phase = .falling ∧ (t.dom d).onPending = true) ∧
  (∀ (s : State) (d : Nat), d < 16 → s.chip.thermalOff = false → (s.dom d).phase = .falling → s.domHasDependants d = false →
    (s.dom d).onPending = true →
    Yields (.domainOffComplete d) s fun t => (t.dom d).phase = if (domPrereqs d).all s.domOn then .rising else .waiting) ∧
  (∀ (s : State) (d : Nat), d < 16 → s.chip.d0Up = true → (s.dom d).phase = .rising → (s.dom d).offHeld = false → s.chip.stalled = [] →
    s.chip.mgmt = [] → s.chip.rstHeld = none →
    Yields (.domainUp d) s fun t => (t.dom d).phase = .on) ∧
  (∀ (s : State) (n : Nat), s.lifeImpl n = true → s.rd (PG_STATE_LIFE n) = lifeStopping →
    (s.enable n).rd (PG_STATE_LIFE n) = lifeStopping ∧ (s.enable n).on (PG_STATE_EN_PENDING n) = true)

/-- RESTART crashes a running or halted engine with cause 0x06, and is refused during a load. A RESTART of an engine that is RUNNING
or HALTED is accepted and crashes it: the last cause is 0x06, the engine reloads, and the crashes that count towards the limit are
forgotten. A RESTART during LOADING or RELOADING is rejected with code 0x03, and the engine's state stays. Where the spec is silent
it follows the model: log entry 70. It concludes, under conditions on state and operands alone, that exec answers a next state for:
engRestart. -/
def Obligations.RestartCrashesEngine : Prop :=
  (∀ (s : State) (p : Path) (e : Nat), e < 16 → Reaches s p (FAC_ENG_CTRL_RESTART e).addr → s.engState e = engRunning ∨ s.engState e = engHalted →
    exec (.engRestart p e) s = .next (accepted s (s.engCrash e 6) p (FAC_ENG_CTRL_RESTART e).addr)) ∧
  (∀ (s : State) (e : Nat), e < 16 → (s.engCrash e 6).engState e = engReloading ∧ (s.engCrash e 6).rd (FAC_ENG_STATE_LAST_CAUSE e) = 6 ∧
    ((s.engCrash e 6).eng e).crashes = []) ∧
  (∀ (s : State) (p : Path) (e : Nat), e < 16 → Reaches s p (FAC_ENG_CTRL_RESTART e).addr → s.engState e = engLoading ∨ s.engState e = engReloading →
    Yields (.engRestart p e) s fun t => t.engState e = s.engState e ∧
      t = s.reject p (FAC_ENG_CTRL_RESTART e).addr 3 ((s.word (FAC_ENG_CTRL_RESTART e).addr).toNat ||| 2 ^ (FAC_ENG_CTRL_RESTART e).lo))

/-- A write of OVP_THR below the VBUS reading + 0.5 V is rejected with code 0x01. A write of the over-voltage threshold, in units of
0.1 V, below the present VBUS reading, in units of 10 mV, + 0.5 V is rejected with code 0x01, and the threshold stays as it was. A
write at or above it and within 5.5 V to 22.0 V is accepted, so that the host raises the threshold before it requests a higher
voltage and lowers it only after the transition. -/
def Obligations.OvpThresholdRejected : Prop :=
  (∀ (s : State) (p : Path) (v : Nat), Reaches s p SVC_VB_CFG_OVP_THR.addr → v % 256 * 10 < s.rd SVC_VB_STATUS_VBUS + 50 →
    Yields (.ovpThrWrite p v) s fun t => t.rd SVC_VB_CFG_OVP_THR = s.rd SVC_VB_CFG_OVP_THR ∧
      t = s.reject p SVC_VB_CFG_OVP_THR.addr 1 (SVC_VB_CFG_OVP_THR.put v (s.word SVC_VB_CFG_OVP_THR.addr)).toNat) ∧
  (∀ (s : State) (p : Path) (v : Nat), Reaches s p SVC_VB_CFG_OVP_THR.addr → s.rd SVC_VB_STATUS_VBUS + 50 ≤ v % 256 * 10 → 55 ≤ v % 256 →
    v % 256 ≤ 220 →
    exec (.ovpThrWrite p v) s = .next (accepted s (s.wr SVC_VB_CFG_OVP_THR v) p SVC_VB_CFG_OVP_THR.addr))

/-- A transfer that begins while another is under way is answered busy, and the one under way continues. An UPD_START with a new SEQ
while a transfer is staging, verifying or writing is answered with status 0x05, and a DFU download that begins then, in DFU mode and
outside dfuERROR, is answered with DFU status errNOTDONE (0x09). The staged bytes, the sender's length, the phase and the count of
bytes of the transfer under way stay. -/
def Obligations.OneTransferAtATime : Prop :=
  (∀ (s : State) (q n : Nat), s.uartUp = true → s.boot.uartLast.filter (fun l => l.1 == q) = none → s.updBusy = true →
    Yields (.updStart q n) s fun t => t.out = s.out ++ [.svcUart 0x90 q [5]] ∧ SameWords [] s t ∧
      t.boot = { s.boot with uartLast := some (q, [0x90, 5]) }) ∧
  (∀ (s : State) (b : Nat) (d : List Byte), s.on BOOT_STATUS_LOADER = true → s.boot.dfuState ≠ 10 → s.updBusy = true → s.boot.dfu = false →
    Yields (.dfuDnload b d) s fun t => t.out = s.out ++ [.dfu 10 9] ∧ SameWords [USBD_DFU_BLOCKS.addr] s t ∧
      t.boot = { s.boot with dfuState := 10, dfuStatus := 9 })
end

