-- ==== Sys2Proof/Laws/Words.lean ====
section
/-!
SUPPORT. Tables, register words and fields: a read after a write, other words and fields left alone, and the canonical form of the word
store.
-/

namespace Sys2Proof

/-! ## Fields -/

/-- The bits of a word with a field replaced. -/
theorem Fld.put_testBit (f : Fld) (v : Nat) (w : Word) (i : Nat) (h : f.lo ≤ f.hi) (hi : i < 32) :
    (f.put v w).toNat.testBit i =
      if f.lo ≤ i ∧ i ≤ f.hi then v.testBit (i - f.lo) else w.toNat.testBit i := by
  unfold Fld.put Fld.width
  rw [BitVec.toNat_ofNat, Nat.testBit_mod_two_pow]
  have e1 : w.toNat % 2 ^ f.lo + (v % 2 ^ (f.hi + 1 - f.lo)) * 2 ^ f.lo < 2 ^ (f.hi + 1) := by
    have a : w.toNat % 2 ^ f.lo < 2 ^ f.lo := Nat.mod_lt _ (by positivity)
    have b : v % 2 ^ (f.hi + 1 - f.lo) < 2 ^ (f.hi + 1 - f.lo) := Nat.mod_lt _ (by positivity)
    have c : 2 ^ (f.hi + 1) = 2 ^ (f.hi + 1 - f.lo) * 2 ^ f.lo := by rw [← pow_add]; congr 1; omega
    rw [c]; nlinarith [Nat.mul_le_mul_right (2 ^ f.lo) (Nat.succ_le_of_lt b)]
  rw [show w.toNat % 2 ^ f.lo + v % 2 ^ (f.hi + 1 - f.lo) * 2 ^ f.lo + w.toNat / 2 ^ (f.hi + 1) * 2 ^ (f.hi + 1) =
    2 ^ (f.hi + 1) * (w.toNat / 2 ^ (f.hi + 1)) + (w.toNat % 2 ^ f.lo + v % 2 ^ (f.hi + 1 - f.lo) * 2 ^ f.lo) by ring,
    Nat.testBit_two_pow_mul_add _ e1,
    show w.toNat % 2 ^ f.lo + v % 2 ^ (f.hi + 1 - f.lo) * 2 ^ f.lo =
      2 ^ f.lo * (v % 2 ^ (f.hi + 1 - f.lo)) + w.toNat % 2 ^ f.lo by ring,
    Nat.testBit_two_pow_mul_add _ (Nat.mod_lt _ (by positivity))]
  simp only [hi, decide_true, Bool.true_and, Nat.testBit_mod_two_pow, Nat.testBit_div_two_pow]
  by_cases h1 : i < f.lo
  · have : ¬ (f.lo ≤ i ∧ i ≤ f.hi) := by omega
    have h2 : i < f.hi + 1 := by omega
    simp [h1, h2, this]
  · by_cases h2 : i ≤ f.hi
    · have h3 : i < f.hi + 1 := by omega
      have h4 : i - f.lo < f.hi + 1 - f.lo := by omega
      simp [h1, h3, h4, h2, show f.lo ≤ i by omega]
    · have h3 : ¬ i < f.hi + 1 := by omega
      have h5 : i - (f.hi + 1) + (f.hi + 1) = i := by omega
      simp [h3, h2, h5, Nat.add_comm (f.hi + 1)]

/-- The bits of a field. -/
theorem Fld.get_testBit (f : Fld) (w : Word) (i : Nat) :
    (f.get w).testBit i = (decide (i < f.width) && w.toNat.testBit (f.lo + i)) := by
  simp [Fld.get, Nat.testBit_mod_two_pow, Nat.testBit_shiftRight]

/-- A field read back after it was written. -/
theorem Fld.get_put (f : Fld) (v : Nat) (w : Word) (h : f.lo ≤ f.hi) (h32 : f.hi < 32) :
    f.get (f.put v w) = v % 2 ^ f.width := by
  apply Nat.eq_of_testBit_eq; intro i
  rw [Fld.get_testBit, Nat.testBit_mod_two_pow]
  by_cases hi : i < f.width
  · have : f.lo + i ≤ f.hi := by unfold Fld.width at hi; omega
    rw [Fld.put_testBit f v w _ h (by omega)]
    simp [hi, this]
  · simp [hi]

/-- Writing a field leaves a disjoint field of the same word alone. -/
theorem Fld.get_put_ne (f g : Fld) (v : Nat) (w : Word) (h : f.lo ≤ f.hi) (h32 : g.hi < 32)
    (d : g.hi < f.lo ∨ f.hi < g.lo) : g.get (f.put v w) = g.get w := by
  apply Nat.eq_of_testBit_eq; intro i
  rw [Fld.get_testBit, Fld.get_testBit]
  by_cases hi : i < g.width
  · have hg : g.lo + i ≤ g.hi := by unfold Fld.width at hi; omega
    rw [Fld.put_testBit f v w _ h (by omega), if_neg (by omega)]
  · simp [hi]

end Sys2Proof

namespace Sys2Proof.Machine

/-! ## Tables -/

section Tables
variable {α : Type} (t : Tbl α) (k j : Nat) (v : α)

theorem tget?_tins_self (l : Tbl α) (h : ∀ e ∈ l, e.1 ≠ k) : tget? (tins k v l) k = some v := by
  induction l with
  | nil => simp [tins, tget?]
  | cons e l ih =>
    unfold tins; split
    · simp [tget?]
    · have he : e.1 ≠ k := h e (by simp)
      have := ih (fun x hx => h x (by simp [hx]))
      simpa [tget?, List.find?_cons, he] using this

theorem tget?_tins_ne (l : Tbl α) (h : j ≠ k) : tget? (tins k v l) j = tget? l j := by
  induction l with
  | nil => simp [tins, tget?, Ne.symm h]
  | cons e l ih =>
    unfold tins; split
    · simp [tget?, List.find?_cons, Ne.symm h]
    · by_cases he : e.1 = j
      · simp [tget?, he]
      · simpa [tget?, List.find?_cons, he] using ih

theorem tget?_tdel_self : tget? (tdel t k) k = none := by
  simp [tget?, tdel, List.find?_eq_none]

theorem tget?_tdel_ne (h : j ≠ k) : tget? (tdel t k) j = tget? t j := by
  unfold tget? tdel
  congr 1
  induction t with
  | nil => rfl
  | cons e l ih =>
    by_cases he : e.1 = k
    · have : e.1 ≠ j := by omega
      simp [List.filter_cons, he, List.find?_cons, ih, Ne.symm h]
    · by_cases hj : e.1 = j
      · simp [List.filter_cons, he, List.find?_cons, hj, h]
      · simp [List.filter_cons, he, List.find?_cons, hj, ih]

/-- A table entry read back after it was set. -/
theorem tget?_tset_self : tget? (tset t k v) k = some v := by
  unfold tset
  exact tget?_tins_self k v _ (by intro e he; simp [tdel] at he; exact he.2)

/-- Setting an entry leaves the others alone. -/
theorem tget?_tset_ne (h : j ≠ k) : tget? (tset t k v) j = tget? t j := by
  unfold tset; rw [tget?_tins_ne k j v _ h, tget?_tdel_ne t k j h]

@[simp] theorem tget_tset_self (d : α) : tget d (tset t k v) k = v := by simp [tget, tget?_tset_self]

theorem tget_tset_ne (d : α) (h : j ≠ k) : tget d (tset t k v) j = tget d t j := by simp [tget, tget?_tset_ne t k j v h]

@[simp] theorem tget_tmod_self (d : α) (f : α → α) : tget d (tmod d t k f) k = f (tget d t k) := by simp [tmod]

theorem tget_tmod_ne (d : α) (f : α → α) (h : j ≠ k) : tget d (tmod d t k f) j = tget d t j := by
  simp [tmod, tget_tset_ne t k j _ d h]

end Tables

/-! ## Words -/

/-- A word read back after it was written. -/
theorem wget_wset_self (m : Tbl Word) (a : Nat) (v : Word) : wget (wset m a v) a = v := by
  unfold wget wset; split
  · next h => simp [tget, tget?_tdel_self, h]
  · simp [tget, tget?_tset_self]

/-- Writing a word leaves every other word alone. -/
theorem wget_wset_ne (m : Tbl Word) (a b : Nat) (v : Word) (h : b ≠ a) : wget (wset m a v) b = wget m b := by
  unfold wget wset; split
  · simp [tget, tget?_tdel_ne m a b h]
  · simp [tget, tget?_tset_ne m a b v h]

@[simp] theorem State.word_setWord_self (s : State) (a : Nat) (v : Word) : (s.setWord a v).word a = v := wget_wset_self _ _ _

theorem State.word_setWord_ne (s : State) (a b : Nat) (v : Word) (h : b ≠ a) : (s.setWord a v).word b = s.word b :=
  wget_wset_ne _ _ _ _ h

theorem State.word_setWord (s : State) (a b : Nat) (v : Word) : (s.setWord a v).word b = if b = a then v else s.word b := by
  split
  · next h => subst h; simp
  · next h => exact s.word_setWord_ne a b v h

/-- A write of a field changes the field's word only. -/
theorem State.word_wr_ne (s : State) (f : Fld) (v b : Nat) (h : b ≠ f.addr) : (s.wr f v).word b = s.word b :=
  s.word_setWord_ne _ _ _ h

/-- A field read back after it was written. -/
theorem State.rd_wr_self (s : State) (f : Fld) (v : Nat) (h : f.lo ≤ f.hi) (h32 : f.hi < 32) :
    (s.wr f v).rd f = v % 2 ^ f.width := by
  simp [State.rd, State.wr, Fld.get_put f v _ h h32]

/-- Writing a field leaves every field of another word alone. -/
theorem State.rd_wr_ne (s : State) (f g : Fld) (v : Nat) (h : g.addr ≠ f.addr) : (s.wr f v).rd g = s.rd g := by
  simp [State.rd, State.word_wr_ne s f v g.addr h]

/-- Writing a field leaves a disjoint field of the same word alone. -/
theorem State.rd_wr_disj (s : State) (f g : Fld) (v : Nat) (ha : g.addr = f.addr) (h : f.lo ≤ f.hi) (h32 : g.hi < 32)
    (d : g.hi < f.lo ∨ f.hi < g.lo) : (s.wr f v).rd g = s.rd g := by
  simp [State.rd, State.wr, ha, Fld.get_put_ne f g v _ h h32 d]

/-! ## The canonical form of the word store -/

/-- The keys of a table rise strictly. -/
def Rising {α : Type} (t : Tbl α) : Prop := t.Pairwise (fun a b => a.1 < b.1)

theorem tsorted_iff {α : Type} (t : Tbl α) : tsorted t = true ↔ Rising t := by
  induction t with
  | nil => simp [tsorted, Rising]
  | cons a t ih =>
    cases t with
    | nil => simp [tsorted, Rising]
    | cons b t =>
      simp only [tsorted, Bool.and_eq_true, decide_eq_true_eq, ih, Rising, List.pairwise_cons]
      constructor
      · rintro ⟨h, h1, h2⟩
        refine ⟨?_, h1, h2⟩
        intro c hc
        rcases List.mem_cons.1 hc with rfl | hc
        · exact h
        · exact lt_trans h (h1 c hc)
      · rintro ⟨h, h1, h2⟩
        exact ⟨h b (by simp), h1, h2⟩

theorem Rising.tdel {α : Type} {t : Tbl α} (h : Rising t) (k : Nat) : Rising (tdel t k) := List.Pairwise.filter _ h

theorem mem_tins {α : Type} {k : Nat} {v : α} {l : Tbl α} {e : Nat × α} (h : e ∈ tins k v l) : e = (k, v) ∨ e ∈ l := by
  induction l with
  | nil => simpa [tins] using h
  | cons x l ih =>
    unfold tins at h; split at h
    · simpa using h
    · rcases List.mem_cons.1 h with rfl | h
      · simp
      · rcases ih h with h | h <;> simp [h]

theorem Rising.tins {α : Type} {t : Tbl α} (h : Rising t) (k : Nat) (v : α) (hk : ∀ e ∈ t, e.1 ≠ k) : Rising (tins k v t) := by
  induction t with
  | nil => simp [Machine.tins, Rising]
  | cons e l ih =>
    unfold Machine.tins
    have he := List.pairwise_cons.1 h
    split
    · next hlt =>
      refine List.pairwise_cons.2 ⟨?_, h⟩
      intro c hc
      rcases List.mem_cons.1 hc with rfl | hc
      · exact hlt
      · exact lt_trans hlt (he.1 c hc)
    · next hlt =>
      refine List.pairwise_cons.2 ⟨?_, ih he.2 (fun x hx => hk x (by simp [hx]))⟩
      intro c hc
      rcases mem_tins hc with rfl | hc
      · have := hk e (by simp); simp only; omega
      · exact he.1 c hc

theorem Rising.tset {α : Type} {t : Tbl α} (h : Rising t) (k : Nat) (v : α) : Rising (tset t k v) :=
  (h.tdel k).tins k v (by intro e he; simp [Machine.tdel] at he; exact he.2)

/-- The canonical form: rising addresses, and no entry that equals its reset value. -/
theorem wordsWf_iff (m : Tbl Word) : wordsWf m = true ↔ Rising m ∧ ∀ e ∈ m, e.2 ≠ dflt e.1 := by
  simp [wordsWf, tsorted_iff]

/-- A write keeps the canonical form. -/
theorem wordsWf_wset {m : Tbl Word} (h : wordsWf m = true) (a : Nat) (v : Word) : wordsWf (wset m a v) = true := by
  rw [wordsWf_iff] at *
  unfold wset; split
  · exact ⟨h.1.tdel a, fun e he => h.2 e (List.mem_of_mem_filter he)⟩
  · next hv =>
    refine ⟨h.1.tset a v, ?_⟩
    intro e he
    rcases mem_tins he with rfl | he
    · exact hv
    · exact h.2 e (List.mem_of_mem_filter he)

end Sys2Proof.Machine
end

