-- ==== Sys2Proof/Laws/Follows.lean ====
section
/-!
SUPPORT. What every command leaves: `Follows m s t` says that `t` has the waiting commands of `s`, emits what `s` has emitted and then
possibly more, has used at least the free values that `s` has used, keeps the word store canonical, and differs from `s` in the parts of
the mask `m` only.  One lemma for each shared operation; the lemma of a meaning is built from them.
-/

namespace Sys2Proof.Machine

open Host (Outcome)

/-- The place of a part in a mask of parts. -/
def Part.bit (p : Part) : Nat :=
  match p with
  | .chip => 0
  | .recd => 1
  | .time => 2
  | .ports => 3
  | .pwr => 4
  | .evi => 5
  | .ctxs => 6
  | .quar => 7
  | .gird => 8
  | .sch => 9
  | .brg => 10
  | .dma => 11
  | .fac => 12
  | .dp => 13
  | .usb => 14
  | .stn => 15
  | .bzl => 16
  | .svc => 17
  | .sec => 18
  | .boot => 19

/-- The mask of some parts. -/
def maskOf (l : List Part) : Nat := l.foldl (fun a p => a ||| 2 ^ p.bit) 0

/-- The queue is as it was, the output only grows, no free value is used twice, the word store stays canonical, and only the parts of
the mask may change. -/
structure Follows (m : Nat) (s t : State) : Prop where
  pending : t.pending = s.pending
  out : s.out <+: t.out
  fresh : s.fresh ≤ t.fresh
  words : wordsWf s.words = true → wordsWf t.words = true
  parts : ∀ p : Part, m.testBit p.bit = false → p.same s t

theorem Part.same_refl (p : Part) (s : State) : p.same s s := by cases p <;> rfl

theorem Part.same_trans {p : Part} {s t u : State} (h : p.same s t) (k : p.same t u) : p.same s u := by
  cases p <;> exact Eq.trans k h

theorem Part.same_symm {p : Part} {s t : State} (h : p.same s t) : p.same t s := by
  cases p <;> exact Eq.symm h

theorem Follows.refl (m : Nat) (s : State) : Follows m s s := ⟨rfl, List.prefix_refl _, le_refl _, id, fun p _ => p.same_refl s⟩

theorem Follows.trans {m : Nat} {s t u : State} (h : Follows m s t) (k : Follows m t u) : Follows m s u :=
  ⟨k.pending.trans h.pending, h.out.trans k.out, le_trans h.fresh k.fresh, fun w => k.words (h.words w),
    fun p hp => Part.same_trans (h.parts p hp) (k.parts p hp)⟩

/-- A smaller mask within a larger one that is allowed. -/
theorem within {m a b : Nat} (h : m ||| a = m) (k : a ||| b = a) : m ||| b = m := by rw [← h, Nat.or_assoc, k]

theorem full_foldl (l : List Part) (a : Nat) (h : 1048575 ||| a = 1048575) :
    1048575 ||| l.foldl (fun a p => a ||| 2 ^ p.bit) a = 1048575 := by
  induction l generalizing a with
  | nil => exact h
  | cons p l ih => exact ih _ (by rw [← Nat.or_assoc, h]; cases p <;> decide)

/-- The mask of all parts allows every list of parts. -/
theorem full_maskOf (l : List Part) : 1048575 ||| maskOf l = 1048575 := full_foldl l 0 rfl

theorem foldl_testBit (l : List Part) (a : Nat) (p : Part) (h : a.testBit p.bit = false) (hp : p ∉ l) :
    (l.foldl (fun a p => a ||| 2 ^ p.bit) a).testBit p.bit = false := by
  induction l generalizing a with
  | nil => exact h
  | cons q l ih =>
    refine ih _ ?_ (fun k => hp (List.mem_cons_of_mem _ k))
    have hq : p ≠ q := fun e => hp (e ▸ List.mem_cons_self)
    rw [Nat.testBit_or, h, Nat.testBit_two_pow]
    cases p <;> cases q <;> first | rfl | exact absurd rfl hq

/-- A part that is not in a list is not in its mask. -/
theorem maskOf_testBit {l : List Part} {p : Part} (hp : p ∉ l) : (maskOf l).testBit p.bit = false :=
  foldl_testBit l 0 p (Nat.zero_testBit _) hp

/-- A state that differs in one part of the mask. -/
theorem Follows.to_part {m : Nat} {a s t : State} (h : Follows m a s) (p : Part) (hm : m ||| 2 ^ p.bit = m) (h1 : t.words = s.words)
    (h2 : t.pending = s.pending) (h3 : t.out = s.out) (h4 : t.fresh = s.fresh) (h5 : ∀ q : Part, q ≠ p → q.same s t) :
    Follows m a t :=
  ⟨h2.trans h.pending, by rw [h3]; exact h.out, by rw [h4]; exact h.fresh, by rw [h1]; exact h.words, fun q hq =>
    Part.same_trans (h.parts q hq) (h5 q (by
      rintro rfl
      have := congrArg (Nat.testBit · q.bit) hm
      simp [hq] at this))⟩

/-- Writing what is neither a part nor the queue nor the output. -/
theorem Follows.to_words {m : Nat} {a s t : State} (h : Follows m a s) (h1 : wordsWf s.words = true → wordsWf t.words = true)
    (h2 : t.pending = s.pending) (h3 : s.out <+: t.out) (h4 : s.fresh ≤ t.fresh) (h5 : ∀ q : Part, q.same s t) : Follows m a t :=
  ⟨h2.trans h.pending, h.out.trans h3, le_trans h.fresh h4, fun w => h1 (h.words w), fun q hq => Part.same_trans (h.parts q hq) (h5 q)⟩

theorem Follows.chip_iff {m : Nat} (hm : m ||| 1 = m) {a s : State} {c} :
    Follows m a ⟨s.words, s.pending, s.out, s.fresh, c, s.recd, s.time, s.ports, s.pwr, s.evi, s.ctxs, s.quar, s.gird, s.sch, s.brg,
    s.dma, s.fac, s.dp, s.usb, s.stn, s.bzl, s.svc, s.sec, s.boot⟩ ↔ Follows m a s :=
  ⟨fun h => h.to_part .chip hm rfl rfl rfl rfl (by intro q hq; cases q <;> first | rfl | exact absurd rfl hq),
    fun h => h.to_part .chip hm rfl rfl rfl rfl (by intro q hq; cases q <;> first | rfl | exact absurd rfl hq)⟩

theorem Follows.recd_iff {m : Nat} (hm : m ||| 2 = m) {a s : State} {r} :
    Follows m a ⟨s.words, s.pending, s.out, s.fresh, s.chip, r, s.time, s.ports, s.pwr, s.evi, s.ctxs, s.quar, s.gird, s.sch, s.brg,
    s.dma, s.fac, s.dp, s.usb, s.stn, s.bzl, s.svc, s.sec, s.boot⟩ ↔ Follows m a s :=
  ⟨fun h => h.to_part .recd hm rfl rfl rfl rfl (by intro q hq; cases q <;> first | rfl | exact absurd rfl hq),
    fun h => h.to_part .recd hm rfl rfl rfl rfl (by intro q hq; cases q <;> first | rfl | exact absurd rfl hq)⟩

theorem Follows.time_iff {m : Nat} (hm : m ||| 4 = m) {a s : State} {tm} :
    Follows m a ⟨s.words, s.pending, s.out, s.fresh, s.chip, s.recd, tm, s.ports, s.pwr, s.evi, s.ctxs, s.quar, s.gird, s.sch,
    s.brg, s.dma, s.fac, s.dp, s.usb, s.stn, s.bzl, s.svc, s.sec, s.boot⟩ ↔ Follows m a s :=
  ⟨fun h => h.to_part .time hm rfl rfl rfl rfl (by intro q hq; cases q <;> first | rfl | exact absurd rfl hq),
    fun h => h.to_part .time hm rfl rfl rfl rfl (by intro q hq; cases q <;> first | rfl | exact absurd rfl hq)⟩

theorem Follows.ports_iff {m : Nat} (hm : m ||| 8 = m) {a s : State} {po} :
    Follows m a ⟨s.words, s.pending, s.out, s.fresh, s.chip, s.recd, s.time, po, s.pwr, s.evi, s.ctxs, s.quar, s.gird, s.sch, s.brg,
    s.dma, s.fac, s.dp, s.usb, s.stn, s.bzl, s.svc, s.sec, s.boot⟩ ↔ Follows m a s :=
  ⟨fun h => h.to_part .ports hm rfl rfl rfl rfl (by intro q hq; cases q <;> first | rfl | exact absurd rfl hq),
    fun h => h.to_part .ports hm rfl rfl rfl rfl (by intro q hq; cases q <;> first | rfl | exact absurd rfl hq)⟩

theorem Follows.pwr_iff {m : Nat} (hm : m ||| 16 = m) {a s : State} {pw} :
    Follows m a ⟨s.words, s.pending, s.out, s.fresh, s.chip, s.recd, s.time, s.ports, pw, s.evi, s.ctxs, s.quar, s.gird, s.sch,
    s.brg, s.dma, s.fac, s.dp, s.usb, s.stn, s.bzl, s.svc, s.sec, s.boot⟩ ↔ Follows m a s :=
  ⟨fun h => h.to_part .pwr hm rfl rfl rfl rfl (by intro q hq; cases q <;> first | rfl | exact absurd rfl hq),
    fun h => h.to_part .pwr hm rfl rfl rfl rfl (by intro q hq; cases q <;> first | rfl | exact absurd rfl hq)⟩

theorem Follows.evi_iff {m : Nat} (hm : m ||| 32 = m) {a s : State} {ev} :
    Follows m a ⟨s.words, s.pending, s.out, s.fresh, s.chip, s.recd, s.time, s.ports, s.pwr, ev, s.ctxs, s.quar, s.gird, s.sch,
    s.brg, s.dma, s.fac, s.dp, s.usb, s.stn, s.bzl, s.svc, s.sec, s.boot⟩ ↔ Follows m a s :=
  ⟨fun h => h.to_part .evi hm rfl rfl rfl rfl (by intro q hq; cases q <;> first | rfl | exact absurd rfl hq),
    fun h => h.to_part .evi hm rfl rfl rfl rfl (by intro q hq; cases q <;> first | rfl | exact absurd rfl hq)⟩

theorem Follows.ctxs_iff {m : Nat} (hm : m ||| 64 = m) {a s : State} {cx} :
    Follows m a ⟨s.words, s.pending, s.out, s.fresh, s.chip, s.recd, s.time, s.ports, s.pwr, s.evi, cx, s.quar, s.gird, s.sch,
    s.brg, s.dma, s.fac, s.dp, s.usb, s.stn, s.bzl, s.svc, s.sec, s.boot⟩ ↔ Follows m a s :=
  ⟨fun h => h.to_part .ctxs hm rfl rfl rfl rfl (by intro q hq; cases q <;> first | rfl | exact absurd rfl hq),
    fun h => h.to_part .ctxs hm rfl rfl rfl rfl (by intro q hq; cases q <;> first | rfl | exact absurd rfl hq)⟩

theorem Follows.quar_iff {m : Nat} (hm : m ||| 128 = m) {a s : State} {qu} :
    Follows m a ⟨s.words, s.pending, s.out, s.fresh, s.chip, s.recd, s.time, s.ports, s.pwr, s.evi, s.ctxs, qu, s.gird, s.sch,
    s.brg, s.dma, s.fac, s.dp, s.usb, s.stn, s.bzl, s.svc, s.sec, s.boot⟩ ↔ Follows m a s :=
  ⟨fun h => h.to_part .quar hm rfl rfl rfl rfl (by intro q hq; cases q <;> first | rfl | exact absurd rfl hq),
    fun h => h.to_part .quar hm rfl rfl rfl rfl (by intro q hq; cases q <;> first | rfl | exact absurd rfl hq)⟩

theorem Follows.gird_iff {m : Nat} (hm : m ||| 256 = m) {a s : State} {gi} :
    Follows m a ⟨s.words, s.pending, s.out, s.fresh, s.chip, s.recd, s.time, s.ports, s.pwr, s.evi, s.ctxs, s.quar, gi, s.sch,
    s.brg, s.dma, s.fac, s.dp, s.usb, s.stn, s.bzl, s.svc, s.sec, s.boot⟩ ↔ Follows m a s :=
  ⟨fun h => h.to_part .gird hm rfl rfl rfl rfl (by intro q hq; cases q <;> first | rfl | exact absurd rfl hq),
    fun h => h.to_part .gird hm rfl rfl rfl rfl (by intro q hq; cases q <;> first | rfl | exact absurd rfl hq)⟩

theorem Follows.sch_iff {m : Nat} (hm : m ||| 512 = m) {a s : State} {sc} :
    Follows m a ⟨s.words, s.pending, s.out, s.fresh, s.chip, s.recd, s.time, s.ports, s.pwr, s.evi, s.ctxs, s.quar, s.gird, sc,
    s.brg, s.dma, s.fac, s.dp, s.usb, s.stn, s.bzl, s.svc, s.sec, s.boot⟩ ↔ Follows m a s :=
  ⟨fun h => h.to_part .sch hm rfl rfl rfl rfl (by intro q hq; cases q <;> first | rfl | exact absurd rfl hq),
    fun h => h.to_part .sch hm rfl rfl rfl rfl (by intro q hq; cases q <;> first | rfl | exact absurd rfl hq)⟩

theorem Follows.brg_iff {m : Nat} (hm : m ||| 1024 = m) {a s : State} {br} :
    Follows m a ⟨s.words, s.pending, s.out, s.fresh, s.chip, s.recd, s.time, s.ports, s.pwr, s.evi, s.ctxs, s.quar, s.gird, s.sch,
    br, s.dma, s.fac, s.dp, s.usb, s.stn, s.bzl, s.svc, s.sec, s.boot⟩ ↔ Follows m a s :=
  ⟨fun h => h.to_part .brg hm rfl rfl rfl rfl (by intro q hq; cases q <;> first | rfl | exact absurd rfl hq),
    fun h => h.to_part .brg hm rfl rfl rfl rfl (by intro q hq; cases q <;> first | rfl | exact absurd rfl hq)⟩

theorem Follows.dma_iff {m : Nat} (hm : m ||| 2048 = m) {a s : State} {dm} :
    Follows m a ⟨s.words, s.pending, s.out, s.fresh, s.chip, s.recd, s.time, s.ports, s.pwr, s.evi, s.ctxs, s.quar, s.gird, s.sch,
    s.brg, dm, s.fac, s.dp, s.usb, s.stn, s.bzl, s.svc, s.sec, s.boot⟩ ↔ Follows m a s :=
  ⟨fun h => h.to_part .dma hm rfl rfl rfl rfl (by intro q hq; cases q <;> first | rfl | exact absurd rfl hq),
    fun h => h.to_part .dma hm rfl rfl rfl rfl (by intro q hq; cases q <;> first | rfl | exact absurd rfl hq)⟩

theorem Follows.fac_iff {m : Nat} (hm : m ||| 4096 = m) {a s : State} {fa} :
    Follows m a ⟨s.words, s.pending, s.out, s.fresh, s.chip, s.recd, s.time, s.ports, s.pwr, s.evi, s.ctxs, s.quar, s.gird, s.sch,
    s.brg, s.dma, fa, s.dp, s.usb, s.stn, s.bzl, s.svc, s.sec, s.boot⟩ ↔ Follows m a s :=
  ⟨fun h => h.to_part .fac hm rfl rfl rfl rfl (by intro q hq; cases q <;> first | rfl | exact absurd rfl hq),
    fun h => h.to_part .fac hm rfl rfl rfl rfl (by intro q hq; cases q <;> first | rfl | exact absurd rfl hq)⟩

theorem Follows.dp_iff {m : Nat} (hm : m ||| 8192 = m) {a s : State} {dp} :
    Follows m a ⟨s.words, s.pending, s.out, s.fresh, s.chip, s.recd, s.time, s.ports, s.pwr, s.evi, s.ctxs, s.quar, s.gird, s.sch,
    s.brg, s.dma, s.fac, dp, s.usb, s.stn, s.bzl, s.svc, s.sec, s.boot⟩ ↔ Follows m a s :=
  ⟨fun h => h.to_part .dp hm rfl rfl rfl rfl (by intro q hq; cases q <;> first | rfl | exact absurd rfl hq),
    fun h => h.to_part .dp hm rfl rfl rfl rfl (by intro q hq; cases q <;> first | rfl | exact absurd rfl hq)⟩

theorem Follows.usb_iff {m : Nat} (hm : m ||| 16384 = m) {a s : State} {us} :
    Follows m a ⟨s.words, s.pending, s.out, s.fresh, s.chip, s.recd, s.time, s.ports, s.pwr, s.evi, s.ctxs, s.quar, s.gird, s.sch,
    s.brg, s.dma, s.fac, s.dp, us, s.stn, s.bzl, s.svc, s.sec, s.boot⟩ ↔ Follows m a s :=
  ⟨fun h => h.to_part .usb hm rfl rfl rfl rfl (by intro q hq; cases q <;> first | rfl | exact absurd rfl hq),
    fun h => h.to_part .usb hm rfl rfl rfl rfl (by intro q hq; cases q <;> first | rfl | exact absurd rfl hq)⟩

theorem Follows.stn_iff {m : Nat} (hm : m ||| 32768 = m) {a s : State} {st} :
    Follows m a ⟨s.words, s.pending, s.out, s.fresh, s.chip, s.recd, s.time, s.ports, s.pwr, s.evi, s.ctxs, s.quar, s.gird, s.sch,
    s.brg, s.dma, s.fac, s.dp, s.usb, st, s.bzl, s.svc, s.sec, s.boot⟩ ↔ Follows m a s :=
  ⟨fun h => h.to_part .stn hm rfl rfl rfl rfl (by intro q hq; cases q <;> first | rfl | exact absurd rfl hq),
    fun h => h.to_part .stn hm rfl rfl rfl rfl (by intro q hq; cases q <;> first | rfl | exact absurd rfl hq)⟩

theorem Follows.bzl_iff {m : Nat} (hm : m ||| 65536 = m) {a s : State} {bz} :
    Follows m a ⟨s.words, s.pending, s.out, s.fresh, s.chip, s.recd, s.time, s.ports, s.pwr, s.evi, s.ctxs, s.quar, s.gird, s.sch,
    s.brg, s.dma, s.fac, s.dp, s.usb, s.stn, bz, s.svc, s.sec, s.boot⟩ ↔ Follows m a s :=
  ⟨fun h => h.to_part .bzl hm rfl rfl rfl rfl (by intro q hq; cases q <;> first | rfl | exact absurd rfl hq),
    fun h => h.to_part .bzl hm rfl rfl rfl rfl (by intro q hq; cases q <;> first | rfl | exact absurd rfl hq)⟩

theorem Follows.svc_iff {m : Nat} (hm : m ||| 131072 = m) {a s : State} {sv} :
    Follows m a ⟨s.words, s.pending, s.out, s.fresh, s.chip, s.recd, s.time, s.ports, s.pwr, s.evi, s.ctxs, s.quar, s.gird, s.sch,
    s.brg, s.dma, s.fac, s.dp, s.usb, s.stn, s.bzl, sv, s.sec, s.boot⟩ ↔ Follows m a s :=
  ⟨fun h => h.to_part .svc hm rfl rfl rfl rfl (by intro q hq; cases q <;> first | rfl | exact absurd rfl hq),
    fun h => h.to_part .svc hm rfl rfl rfl rfl (by intro q hq; cases q <;> first | rfl | exact absurd rfl hq)⟩

theorem Follows.sec_iff {m : Nat} (hm : m ||| 262144 = m) {a s : State} {se} :
    Follows m a ⟨s.words, s.pending, s.out, s.fresh, s.chip, s.recd, s.time, s.ports, s.pwr, s.evi, s.ctxs, s.quar, s.gird, s.sch,
    s.brg, s.dma, s.fac, s.dp, s.usb, s.stn, s.bzl, s.svc, se, s.boot⟩ ↔ Follows m a s :=
  ⟨fun h => h.to_part .sec hm rfl rfl rfl rfl (by intro q hq; cases q <;> first | rfl | exact absurd rfl hq),
    fun h => h.to_part .sec hm rfl rfl rfl rfl (by intro q hq; cases q <;> first | rfl | exact absurd rfl hq)⟩

theorem Follows.boot_iff {m : Nat} (hm : m ||| 524288 = m) {a s : State} {bo} :
    Follows m a ⟨s.words, s.pending, s.out, s.fresh, s.chip, s.recd, s.time, s.ports, s.pwr, s.evi, s.ctxs, s.quar, s.gird, s.sch,
    s.brg, s.dma, s.fac, s.dp, s.usb, s.stn, s.bzl, s.svc, s.sec, bo⟩ ↔ Follows m a s :=
  ⟨fun h => h.to_part .boot hm rfl rfl rfl rfl (by intro q hq; cases q <;> first | rfl | exact absurd rfl hq),
    fun h => h.to_part .boot hm rfl rfl rfl rfl (by intro q hq; cases q <;> first | rfl | exact absurd rfl hq)⟩

/-- A change of chip and recd together. -/
theorem Follows.chip_recd_iff {m : Nat} (hm : m ||| 3 = m) {a s : State} {ch re} :
    Follows m a ⟨s.words, s.pending, s.out, s.fresh, ch, re, s.time, s.ports, s.pwr, s.evi, s.ctxs, s.quar, s.gird, s.sch, s.brg, s.dma,
      s.fac, s.dp, s.usb, s.stn, s.bzl, s.svc, s.sec, s.boot⟩ ↔ Follows m a s :=
  have h1 : m ||| 1 = m := within hm (by decide)
  have h2 : m ||| 2 = m := within hm (by decide)
  ⟨fun h => (Follows.chip_iff h1).1 ((Follows.recd_iff h2 (s := { s with chip := ch })).1 h),
    fun h => (Follows.recd_iff h2 (s := { s with chip := ch })).2 ((Follows.chip_iff h1).2 h)⟩


/-- Contexts and identifiers in quarantine together. -/
theorem Follows.ctxs_quar_iff {m : Nat} (hm : m ||| 192 = m) {a s : State} {cx qu} :
    Follows m a ⟨s.words, s.pending, s.out, s.fresh, s.chip, s.recd, s.time, s.ports, s.pwr, s.evi, cx, qu, s.gird, s.sch, s.brg, s.dma,
      s.fac, s.dp, s.usb, s.stn, s.bzl, s.svc, s.sec, s.boot⟩ ↔ Follows m a s :=
  have h1 : m ||| 64 = m := within hm (by decide)
  have h2 : m ||| 128 = m := within hm (by decide)
  ⟨fun h => (Follows.ctxs_iff h1).1 ((Follows.quar_iff h2 (s := { s with ctxs := cx })).1 h),
    fun h => (Follows.quar_iff h2 (s := { s with ctxs := cx })).2 ((Follows.ctxs_iff h1).2 h)⟩

/-- Buffers and contexts together. -/
theorem Follows.ctxs_gird_iff {m : Nat} (hm : m ||| 320 = m) {a s : State} {cx gi} :
    Follows m a ⟨s.words, s.pending, s.out, s.fresh, s.chip, s.recd, s.time, s.ports, s.pwr, s.evi, cx, s.quar, gi, s.sch, s.brg, s.dma,
      s.fac, s.dp, s.usb, s.stn, s.bzl, s.svc, s.sec, s.boot⟩ ↔ Follows m a s :=
  have h1 : m ||| 64 = m := within hm (by decide)
  have h2 : m ||| 256 = m := within hm (by decide)
  ⟨fun h => (Follows.ctxs_iff h1).1 ((Follows.gird_iff h2 (s := { s with ctxs := cx })).1 h),
    fun h => (Follows.gird_iff h2 (s := { s with ctxs := cx })).2 ((Follows.ctxs_iff h1).2 h)⟩

theorem prefix_two {α : Type} (a b c : List α) : a <+: a ++ b ++ c := by rw [List.append_assoc]; exact List.prefix_append _ _

/-- A state with a result beside it: the state follows. -/
def LFollows {β : Type} (m : Nat) (a : State) (x : State × β) : Prop := Follows m a x.1

/-- The same with the state second. -/
def RFollows {β : Type} (m : Nat) (a : State) (x : β × State) : Prop := Follows m a x.2

theorem LFollows.pair_iff {β : Type} {m : Nat} {a s : State} {b : β} : LFollows m a (s, b) ↔ Follows m a s := Iff.rfl

theorem RFollows.pair_iff {β : Type} {m : Nat} {a s : State} {b : β} : RFollows m a (b, s) ↔ Follows m a s := Iff.rfl

theorem LFollows.fst {β : Type} {m : Nat} {a : State} {x : State × β} (h : LFollows m a x) : Follows m a x.1 := h

theorem RFollows.snd {β : Type} {m : Nat} {a : State} {x : β × State} (h : RFollows m a x) : Follows m a x.2 := h

theorem LFollows.of_eq {β : Type} {m : Nat} {a t : State} {b : β} {x : State × β} (h : LFollows m a x) (e : x = (t, b)) : Follows m a t := by
  subst e; exact h

theorem RFollows.of_eq {β : Type} {m : Nat} {a t : State} {b : β} {x : β × State} (h : RFollows m a x) (e : x = (b, t)) : Follows m a t := by
  subst e; exact h

theorem Follows.ite {m : Nat} {a s t : State} {c : Prop} [Decidable c] (h : Follows m a s) (k : Follows m a t) : Follows m a (if c then s else t) := by
  by_cases hc : c
  · rwa [if_pos hc]
  · rwa [if_neg hc]

theorem LFollows.ite {β : Type} {m : Nat} {a : State} {x y : State × β} {c : Prop} [Decidable c] (h : LFollows m a x) (k : LFollows m a y) :
    LFollows m a (if c then x else y) := by
  by_cases hc : c
  · rwa [if_pos hc]
  · rwa [if_neg hc]

/-- A result that may be absent: what is there follows. -/
def OFollows (m : Nat) (a : State) : Option State → Prop
  | none => True
  | some t => Follows m a t

/-- The same of a result with a value beside it. -/
def PFollows {α : Type} (m : Nat) (a : State) : Option (α × State) → Prop
  | none => True
  | some y => Follows m a y.2

theorem OFollows.none {m : Nat} (a : State) : OFollows m a none := trivial

theorem OFollows.some {m : Nat} {a t : State} (h : Follows m a t) : OFollows m a (some t) := h

theorem PFollows.none {α : Type} {m : Nat} (a : State) : PFollows (α := α) m a none := trivial

theorem PFollows.some {α : Type} {m : Nat} {a : State} {y : α × State} (h : Follows m a y.2) : PFollows m a (some y) := h

theorem OFollows.get {m : Nat} {a t : State} {x : Option State} (h : OFollows m a x) (e : x = Option.some t) : Follows m a t := by subst e; exact h

theorem PFollows.get {α : Type} {m : Nat} {a t : State} {b : α} {x : Option (α × State)} (h : PFollows m a x) (e : x = Option.some (b, t)) :
    Follows m a t := by subst e; exact h

theorem PFollows.get' {α : Type} {m : Nat} {a : State} {y : α × State} {x : Option (α × State)} (h : PFollows m a x) (e : x = Option.some y) :
    Follows m a y.2 := by subst e; exact h

theorem foldl_fst_follows {α β : Type} {m : Nat} {a : State} (l : List α) (f : State × β → α → State × β) {s : State × β}
    (hf : ∀ t x, LFollows m a t → LFollows m a (f t x)) (h : LFollows m a s) : LFollows m a (l.foldl f s) := by
  induction l generalizing s with
  | nil => exact h
  | cons x l ih => exact ih (hf s x h)

theorem foldl_snd_follows {α β : Type} {m : Nat} {a : State} (l : List α) (f : β × State → α → β × State) {s : β × State}
    (hf : ∀ t x, RFollows m a t → RFollows m a (f t x)) (h : RFollows m a s) : RFollows m a (l.foldl f s) := by
  induction l generalizing s with
  | nil => exact h
  | cons x l ih => exact ih (hf s x h)

theorem foldl_follows {α : Type} {m : Nat} {a : State} (l : List α) (f : State → α → State) {s : State}
    (hf : ∀ t x, Follows m a t → Follows m a (f t x)) (h : Follows m a s) : Follows m a (l.foldl f s) := by
  induction l generalizing s with
  | nil => exact h
  | cons x l ih => exact ih (hf s x h)

theorem State.setWord_follows {m : Nat} {a s : State} (h : Follows m a s) (k : Nat) (v : Word) : Follows m a (s.setWord k v) :=
  h.to_words (fun w => wordsWf_wset w k v) rfl (List.prefix_refl _) (le_refl _) (fun q => by cases q <;> rfl)

theorem State.wr_follows {m : Nat} {a s : State} (h : Follows m a s) (f : Fld) (v : Nat) : Follows m a (s.wr f v) := State.setWord_follows h _ _

theorem State.flag_follows {m : Nat} {a s : State} (h : Follows m a s) (f : Fld) (b : Bool) : Follows m a (s.flag f b) := State.wr_follows h _ _

theorem State.inc_follows {m : Nat} {a s : State} (h : Follows m a s) (f : Fld) (n : Nat) : Follows m a (s.inc f n) := State.wr_follows h _ _

theorem State.incSat_follows {m : Nat} {a s : State} (h : Follows m a s) (f : Fld) : Follows m a (s.incSat f) := State.wr_follows h _ _

theorem State.setBit_follows {m : Nat} {a s : State} (h : Follows m a s) (f : Fld) (b : Nat) (v : Bool) : Follows m a (s.setBit f b v) :=
  State.wr_follows h _ _

theorem State.emit_follows {m : Nat} {a s : State} (h : Follows m a s) (o : Out) : Follows m a (s.emit o) :=
  h.to_words id rfl (List.prefix_append _ _) (le_refl _) (fun q => by cases q <;> rfl)

theorem State.freshVal_follows {m : Nat} {a s : State} (h : Follows m a s) : RFollows m a s.freshVal :=
  Follows.to_words h id rfl (List.prefix_refl _) (Nat.le_succ _) (fun q => by cases q <;> rfl)

theorem foldS_follows {α : Type} {m : Nat} {a : State} (l : List α) (f : State → α → State) {s : State}
    (hf : ∀ t x, Follows m a t → Follows m a (f t x)) (h : Follows m a s) : Follows m a (foldS l f s) := by
  unfold foldS
  induction l generalizing s with
  | nil => exact h
  | cons x l ih => exact ih (hf s x h)

theorem State.when_follows {m : Nat} {a s : State} (h : Follows m a s) (c : Bool) {f : State → State} (hf : ∀ t, Follows m a t → Follows m a (f t)) :
    Follows m a (s.when c f) := by
  unfold State.when; split
  · exact hf s h
  · exact h

theorem done_follows {m : Nat} {a s : State} (h : Follows m a s) : ∃ t, done s = .next t ∧ Follows m a t := ⟨s, rfl, h⟩

end Sys2Proof.Machine
end

