-- ==== Sys2Proof/Laws/FolOps.lean ====
section
/-!
SUPPORT. `Follows` for the operations and meanings of `Ops.lean`.
-/

namespace Sys2Proof.Machine

open Host (Outcome)

set_option linter.unusedTactic false
set_option linter.unreachableTactic false
set_option linter.unusedSimpArgs false
set_option linter.unusedVariables false

theorem State.sendMsix_follows {msk : Nat} {z s : State} (p : Nat) (h : Follows msk z s) : Follows msk z (State.sendMsix s p) := by
  unfold State.sendMsix
  repeat' first
    | with_reducible assumption | (intro _) | with_reducible apply State.when_follows | with_reducible apply State.emit_follows | split
    | dsimp only

theorem State.sourceFires_follows {msk : Nat} (hmsk : msk ||| 2 = msk) {z s : State} (l : List (Nat × Nat)) (h : Follows msk z s) :
    Follows msk z (State.sourceFires s l) := by
  unfold State.sourceFires
  repeat' first
    | with_reducible assumption | (intro _) | simp only [Follows.recd_iff (within hmsk (by decide))] | simp only [LFollows.pair_iff]
    | with_reducible refine LFollows.of_eq ?_ (by with_reducible assumption) | simp only [RFollows.pair_iff]
    | with_reducible refine RFollows.of_eq ?_ (by with_reducible assumption) | with_reducible apply foldl_fst_follows
    | with_reducible apply foldl_snd_follows | with_reducible apply foldl_follows
    | with_reducible refine LFollows.fst (foldl_fst_follows _ _ ?_ ?_) | with_reducible refine RFollows.snd (foldl_snd_follows _ _ ?_ ?_)
    | with_reducible exact LFollows.fst (by with_reducible assumption) | with_reducible exact RFollows.snd (by with_reducible assumption)
    | split | dsimp only

theorem State.isrFires_follows {msk : Nat} (hmsk : msk ||| 2 = msk) {z s : State} (p : Nat) (new : Sys2Proof.Word) (h : Follows msk z s)
    : Follows msk z (State.isrFires s p new) := by
  unfold State.isrFires
  repeat' first
    | with_reducible assumption | (intro _) | with_reducible apply State.sourceFires_follows (within hmsk (by decide))
    | with_reducible apply Follows.ite | split | dsimp only

theorem State.intReport_follows {msk : Nat} {z s : State} (old : State) (h : Follows msk z s) : Follows msk z (State.intReport s old) :=
    by
  unfold State.intReport
  repeat' first
    | with_reducible assumption | (intro _) | with_reducible apply State.when_follows | with_reducible apply State.emit_follows | split
    | dsimp only

theorem State.setInt_follows {msk : Nat} (hmsk : msk ||| 2 = msk) {z s : State} (p : Nat) (a : Nat) (v : Sys2Proof.Word) (h : Follows
    msk z s) : Follows msk z (State.setInt s p a v) := by
  unfold State.setInt
  repeat' first
    | with_reducible assumption | (intro _) | with_reducible apply State.isrFires_follows (within hmsk (by decide))
    | with_reducible apply State.intReport_follows | with_reducible apply State.sendMsix_follows | with_reducible apply State.when_follows
    | with_reducible apply State.setWord_follows | split | dsimp only

theorem State.noteBits_follows {msk : Nat} (hmsk : msk ||| 2 = msk) {z s : State} (a : Nat) (m : Nat) (h : Follows msk z s) : Follows
    msk z (State.noteBits s a m) := by
  unfold State.noteBits
  repeat' first
    | with_reducible assumption | (intro _) | simp only [Follows.recd_iff (within hmsk (by decide))] | split | dsimp only

theorem State.eventBit_follows {msk : Nat} (hmsk : msk ||| 2 = msk) {z s : State} (f : Sys2Proof.Fld) (b : Nat) (h : Follows msk z s) :
    Follows msk z (State.eventBit s f b) := by
  unfold State.eventBit
  repeat' first
    | with_reducible assumption | (intro _) | with_reducible apply State.noteBits_follows (within hmsk (by decide))
    | with_reducible apply State.setBit_follows | split | dsimp only

theorem State.setIsr_follows {msk : Nat} (hmsk : msk ||| 2 = msk) {z s : State} (p : Nat) (m : Nat) (h : Follows msk z s) : Follows msk
    z (State.setIsr s p m) := by
  unfold State.setIsr
  repeat' first
    | with_reducible assumption | (intro _) | with_reducible apply State.setInt_follows (within hmsk (by decide)) | split | dsimp only

theorem State.raiseMask_follows {msk : Nat} (hmsk : msk ||| 2 = msk) {z s : State} (p : Nat) (m : Nat) (h : Follows msk z s) : Follows
    msk z (State.raiseMask s p m) := by
  unfold State.raiseMask
  repeat' first
    | with_reducible assumption | (intro _) | with_reducible apply State.setIsr_follows (within hmsk (by decide))
    | with_reducible apply State.noteBits_follows (within hmsk (by decide)) | split | dsimp only

theorem State.raise_follows {msk : Nat} (hmsk : msk ||| 2 = msk) {z s : State} (p : Nat) (b : Nat) (h : Follows msk z s) : Follows msk z
    (State.raise s p b) := by
  unfold State.raise
  repeat' first
    | with_reducible assumption | (intro _) | with_reducible apply State.raiseMask_follows (within hmsk (by decide)) | split | dsimp only

theorem State.setLife_follows {msk : Nat} (hmsk : msk ||| 2 = msk) {z s : State} (p : Nat) (v : Nat) (h : Follows msk z s) : Follows msk
    z (State.setLife s p v) := by
  unfold State.setLife
  repeat' first
    | with_reducible assumption | (intro _) | with_reducible apply State.raise_follows (within hmsk (by decide))
    | with_reducible apply State.wr_follows | with_reducible apply Follows.ite | split | dsimp only

theorem State.functionFault_follows {msk : Nat} (hmsk : msk ||| 2 = msk) {z s : State} (p : Nat) (h : Follows msk z s) : Follows msk z
    (State.functionFault s p) := by
  unfold State.functionFault
  repeat' first
    | with_reducible assumption | (intro _) | with_reducible apply State.setLife_follows (within hmsk (by decide))
    | with_reducible apply State.flag_follows | split | dsimp only

theorem State.setDom_follows {msk : Nat} (hmsk : msk ||| 1 = msk) {z s : State} (d : Nat) (v : DomSt) (h : Follows msk z s) : Follows
    msk z (State.setDom s d v) := by
  unfold State.setDom
  repeat' first
    | with_reducible assumption | (intro _) | simp only [Follows.chip_iff (within hmsk (by decide))] | split | dsimp only

theorem State.setDomainUp_follows {msk : Nat} {z s : State} (d : Nat) (v : Bool) (h : Follows msk z s) : Follows msk z
    (State.setDomainUp s d v) := by
  unfold State.setDomainUp
  repeat' first
    | with_reducible assumption | (intro _) | with_reducible apply foldS_follows | with_reducible apply State.flag_follows | split
    | dsimp only

theorem State.domBegin_follows {msk : Nat} (hmsk : msk ||| 1 = msk) {z s : State} (d : Nat) (h : Follows msk z s) : Follows msk z
    (State.domBegin s d) := by
  unfold State.domBegin
  repeat' first
    | with_reducible assumption | (intro _) | with_reducible apply State.setDom_follows (within hmsk (by decide))
    | with_reducible apply Follows.ite | split | dsimp only

theorem State.domRequestOne_follows {msk : Nat} (hmsk : msk ||| 1 = msk) {z s : State} (d : Nat) (h : Follows msk z s) : Follows msk z
    (State.domRequestOne s d) := by
  unfold State.domRequestOne
  repeat' first
    | with_reducible assumption | (intro _) | with_reducible apply State.domBegin_follows (within hmsk (by decide))
    | with_reducible apply State.setDom_follows (within hmsk (by decide)) | with_reducible apply Follows.ite | split | dsimp only

theorem State.domRequest_follows {msk : Nat} (hmsk : msk ||| 1 = msk) {z s : State} (d : Nat) (h : Follows msk z s) : Follows msk z
    (State.domRequest s d) := by
  unfold State.domRequest
  repeat' first
    | with_reducible assumption | (intro _) | with_reducible apply State.domRequestOne_follows (within hmsk (by decide))
    | with_reducible apply foldS_follows | with_reducible apply Follows.ite | split | dsimp only

theorem State.domFall_follows {msk : Nat} (hmsk : msk ||| 1 = msk) {z s : State} (d : Nat) (h : Follows msk z s) : Follows msk z
    (State.domFall s d) := by
  unfold State.domFall
  repeat' first
    | with_reducible assumption | (intro _) | with_reducible apply State.setDomainUp_follows
    | with_reducible apply State.setDom_follows (within hmsk (by decide)) | split | dsimp only

theorem State.modPort_follows {msk : Nat} (hmsk : msk ||| 8 = msk) {z s : State} (n : Nat) (f : Port → Port) (h : Follows msk z s) :
    Follows msk z (State.modPort s n f) := by
  unfold State.modPort
  repeat' first
    | with_reducible assumption | (intro _) | simp only [Follows.ports_iff (within hmsk (by decide))] | split | dsimp only

theorem State.modBoot_follows {msk : Nat} (hmsk : msk ||| 524288 = msk) {z s : State} (f : BootS → BootS) (h : Follows msk z s) :
    Follows msk z (State.modBoot s f) := by
  unfold State.modBoot
  repeat' first
    | with_reducible assumption | (intro _) | simp only [Follows.boot_iff (within hmsk (by decide))] | split | dsimp only

theorem State.ledgerUpdate_follows {msk : Nat} (hmsk : msk ||| 524288 = msk) {z s : State} (h : Follows msk z s) : Follows msk z
    (State.ledgerUpdate s) := by
  unfold State.ledgerUpdate
  repeat' first
    | with_reducible assumption | (intro _) | with_reducible apply State.modBoot_follows (within hmsk (by decide))
    | with_reducible apply Follows.ite | split | dsimp only

theorem State.setFlags_follows {msk : Nat} {z s : State} (v : Nat) (h : Follows msk z s) : Follows msk z (State.setFlags s v) := by
  unfold State.setFlags
  repeat' first
    | with_reducible assumption | (intro _) | with_reducible apply State.flag_follows | with_reducible apply State.wr_follows | split
    | dsimp only

theorem State.setFlagBit_follows {msk : Nat} {z s : State} (k : Nat) (b : Bool) (h : Follows msk z s) : Follows msk z (State.setFlagBit
    s k b) := by
  unfold State.setFlagBit
  repeat' first
    | with_reducible assumption | (intro _) | with_reducible apply State.setFlags_follows | with_reducible apply Follows.ite | split
    | dsimp only

theorem State.enterStep_follows {msk : Nat} (hmsk : msk ||| 524288 = msk) {z s : State} (n : Nat) (h : Follows msk z s) : Follows msk z
    (State.enterStep s n) := by
  unfold State.enterStep
  repeat' first
    | with_reducible assumption | (intro _) | with_reducible apply State.modBoot_follows (within hmsk (by decide))
    | with_reducible apply State.ledgerUpdate_follows (within hmsk (by decide)) | with_reducible apply State.when_follows
    | with_reducible apply State.wr_follows | split | dsimp only

theorem State.haltEnd_follows {msk : Nat} (hmsk : msk ||| 524288 = msk) {z s : State} (h : Follows msk z s) : Follows msk z
    (State.haltEnd s) := by
  unfold State.haltEnd
  repeat' first
    | with_reducible assumption | (intro _) | with_reducible apply State.enterStep_follows (within hmsk (by decide))
    | with_reducible apply State.setFlagBit_follows | split | dsimp only

theorem State.resumeLink_follows {msk : Nat} (hmsk : msk ||| 8 = msk) {z s : State} (n : Nat) (h : Follows msk z s) : Follows msk z
    (State.resumeLink s n) := by
  unfold State.resumeLink
  repeat' first
    | with_reducible assumption | (intro _) | with_reducible apply State.modPort_follows (within hmsk (by decide))
    | with_reducible apply State.when_follows | with_reducible apply State.emit_follows | split | dsimp only

theorem State.exitBegin_follows {msk : Nat} (hmsk : msk ||| 25 = msk) {z s : State} (h : Follows msk z s) : Follows msk z
    (State.exitBegin s) := by
  unfold State.exitBegin
  repeat' first
    | with_reducible assumption | (intro _) | simp only [Follows.pwr_iff (within hmsk (by decide))]
    | with_reducible apply State.domRequest_follows (within hmsk (by decide))
    | with_reducible apply State.resumeLink_follows (within hmsk (by decide)) | with_reducible apply foldS_follows | split | dsimp only

theorem State.wakeBy_follows {msk : Nat} (hmsk : msk ||| 524315 = msk) {z s : State} (cause : Nat) (h : Follows msk z s) : Follows msk z
    (State.wakeBy s cause) := by
  unfold State.wakeBy
  repeat' first
    | with_reducible assumption | (intro _) | simp only [Follows.pwr_iff (within hmsk (by decide))]
    | with_reducible apply State.haltEnd_follows (within hmsk (by decide))
    | with_reducible apply State.enterStep_follows (within hmsk (by decide))
    | with_reducible apply State.raise_follows (within hmsk (by decide))
    | with_reducible apply State.exitBegin_follows (within hmsk (by decide)) | with_reducible apply State.when_follows
    | with_reducible apply State.wr_follows | with_reducible apply Follows.ite | split | dsimp only

theorem State.enterRing_follows {msk : Nat} (hmsk : msk ||| 2 = msk) {z s : State} (r : Rec) (h : Follows msk z s) : Follows msk z
    (State.enterRing s r) := by
  unfold State.enterRing
  repeat' first
    | with_reducible assumption | (intro _) | simp only [Follows.recd_iff (within hmsk (by decide))]
    | with_reducible apply State.raise_follows (within hmsk (by decide)) | with_reducible apply State.when_follows
    | with_reducible apply State.wr_follows | with_reducible apply State.inc_follows | with_reducible apply Follows.ite | split
    | dsimp only

theorem State.putRecord_follows {msk : Nat} (hmsk : msk ||| 2 = msk) {z s : State} (r : Rec) (h : Follows msk z s) : Follows msk z
    (State.putRecord s r) := by
  unfold State.putRecord
  repeat' first
    | with_reducible assumption | (intro _) | simp only [Follows.recd_iff (within hmsk (by decide))]
    | with_reducible apply State.enterRing_follows (within hmsk (by decide)) | with_reducible apply Follows.ite | split | dsimp only

theorem State.sysRecord_follows {msk : Nat} (hmsk : msk ||| 2 = msk) {z s : State} (typ : Nat) (trig : Nat) (source : Nat) (idx : List
    Nat) (h : Follows msk z s) : Follows msk z (State.sysRecord s typ trig source idx) := by
  unfold State.sysRecord
  repeat' first
    | with_reducible assumption | (intro _) | with_reducible apply State.putRecord_follows (within hmsk (by decide)) | split | dsimp only

theorem State.finalRecord_follows {msk : Nat} (hmsk : msk ||| 3 = msk) {z s : State} (typ : Nat) (trig : Nat) (source : Nat) (idx : List
    Nat) (h : Follows msk z s) : Follows msk z (State.finalRecord s typ trig source idx) := by
  unfold State.finalRecord
  repeat' first
    | with_reducible assumption | (intro _)
    | simp only [Follows.chip_iff (within hmsk (by decide)), Follows.recd_iff (within hmsk (by decide)), Follows.chip_recd_iff (within hmsk (by decide))]
    | split | dsimp only

theorem State.noteReject_follows {msk : Nat} (hmsk : msk ||| 2 = msk) {z s : State} (page : Nat) (code : Nat) (path : Nat) (word : Nat)
    (data : Nat) (h : Follows msk z s) : Follows msk z (State.noteReject s page code path word data) := by
  unfold State.noteReject
  repeat' first
    | with_reducible assumption | (intro _) | simp only [Follows.recd_iff (within hmsk (by decide))] | with_reducible apply Follows.ite
    | split | dsimp only

theorem State.putCapture_follows {msk : Nat} {z s : State} (page : Nat) (code : Nat) (path : Nat) (word : Nat) (data : Nat) (h : Follows
    msk z s) : Follows msk z (State.putCapture s page code path word data) := by
  unfold State.putCapture
  repeat' first
    | with_reducible assumption | (intro _) | with_reducible apply State.wr_follows | split | dsimp only

theorem State.capture_follows {msk : Nat} (hmsk : msk ||| 2 = msk) {z s : State} (page : Nat) (p : Sys2Proof.Path) (code : Nat) (word :
    Nat) (data : Nat) (h : Follows msk z s) : Follows msk z (State.capture s page p code word data) := by
  unfold State.capture
  repeat' first
    | with_reducible assumption | (intro _) | with_reducible apply State.noteReject_follows (within hmsk (by decide))
    | with_reducible apply State.raise_follows (within hmsk (by decide)) | with_reducible apply State.putCapture_follows
    | with_reducible apply State.flag_follows | with_reducible apply Follows.ite | split | dsimp only

theorem State.complete_follows {msk : Nat} (hmsk : msk ||| 1 = msk) {z s : State} (p : Path) (a : Nat) (w : Bool) (code data : Nat)
    (h : Follows msk z s) : Follows msk z (State.complete s p a w code data) :=
  Follows.to_words (s := { s with chip := (s.chip.answered p a code data).1 }) ((Follows.chip_iff hmsk).2 h) id rfl (prefix_two _ _ _)
    (le_refl _) (fun q => by cases q <;> rfl)

theorem State.reject_follows {msk : Nat} (hmsk : msk ||| 3 = msk) {z s : State} (p : Sys2Proof.Path) (a : Nat) (code : Nat) (data : Nat)
    (h : Follows msk z s) : Follows msk z (State.reject s p a code data) := by
  unfold State.reject
  repeat' first
    | with_reducible assumption | (intro _) | with_reducible apply State.complete_follows (within hmsk (by decide))
    | with_reducible apply State.capture_follows (within hmsk (by decide)) | split | dsimp only

theorem State.rejectRead_follows {msk : Nat} (hmsk : msk ||| 3 = msk) {z s : State} (p : Sys2Proof.Path) (a : Nat) (code : Nat) (h :
    Follows msk z s) : Follows msk z (State.rejectRead s p a code) := by
  unfold State.rejectRead
  repeat' first
    | with_reducible assumption | (intro _) | with_reducible apply State.complete_follows (within hmsk (by decide))
    | with_reducible apply State.capture_follows (within hmsk (by decide)) | split | dsimp only

theorem State.rejectAcc_follows {msk : Nat} (hmsk : msk ||| 3 = msk) {z s : State} (x : Acc) (code : Nat) (h : Follows msk z s) :
    Follows msk z (State.rejectAcc s x code) := by
  unfold State.rejectAcc
  repeat' first
    | with_reducible assumption | (intro _) | with_reducible apply State.reject_follows (within hmsk (by decide))
    | with_reducible apply State.rejectRead_follows (within hmsk (by decide)) | with_reducible apply Follows.ite | split | dsimp only

theorem State.wrote_follows {msk : Nat} (hmsk : msk ||| 1 = msk) {z s : State} (p : Sys2Proof.Path) (a : Nat) (h : Follows msk z s) :
    Follows msk z (State.wrote s p a) := by
  unfold State.wrote
  repeat' first
    | with_reducible assumption | (intro _) | with_reducible apply State.complete_follows (within hmsk (by decide)) | split | dsimp only

theorem State.readBack_follows {msk : Nat} (hmsk : msk ||| 1 = msk) {z s : State} (p : Sys2Proof.Path) (a : Nat) (v : Nat) (h : Follows
    msk z s) : Follows msk z (State.readBack s p a v) := by
  unfold State.readBack
  repeat' first
    | with_reducible assumption | (intro _) | with_reducible apply State.complete_follows (within hmsk (by decide)) | split | dsimp only

theorem State.wait_follows {msk : Nat} (hmsk : msk ||| 1 = msk) {z s : State} (x : Acc) (h : Follows msk z s) : Follows msk z
    (State.wait s x) := by
  unfold State.wait
  repeat' first
    | with_reducible assumption | (intro _) | simp only [Follows.chip_iff (within hmsk (by decide))] | split | dsimp only

theorem State.stall_follows {msk : Nat} (hmsk : msk ||| 524315 = msk) {z s : State} (x : Acc) (h : Follows msk z s) : Follows msk z
    (State.stall s x) := by
  unfold State.stall
  repeat' first
    | with_reducible assumption | (intro _) | with_reducible apply State.wait_follows (within hmsk (by decide))
    | with_reducible apply State.domRequest_follows (within hmsk (by decide))
    | with_reducible apply State.wakeBy_follows (within hmsk (by decide)) | with_reducible apply foldS_follows | split | dsimp only

theorem State.gate_follows {msk : Nat} (hmsk : msk ||| 524315 = msk) {z s : State} (x : Acc) (k : State → State) (h : Follows msk z s)
    (hk : ∀ t, Follows msk z t → Follows msk z (k t)) : Follows msk z (State.gate s x k) := by
  unfold State.gate
  repeat' first
    | with_reducible assumption | (intro _) | with_reducible apply hk | with_reducible apply State.wait_follows (within hmsk (by decide))
    | with_reducible apply State.rejectAcc_follows (within hmsk (by decide))
    | with_reducible apply State.stall_follows (within hmsk (by decide)) | simp only [LFollows.pair_iff]
    | with_reducible refine LFollows.of_eq ?_ (by with_reducible assumption) | with_reducible apply Follows.ite
    | with_reducible apply LFollows.ite | split | dsimp only

theorem State.applied_follows {msk : Nat} (hmsk : msk ||| 2 = msk) {z t : State} (s : State) (p : Sys2Proof.Path) (a : Nat) (h : Follows
    msk z t) : Follows msk z (State.applied s t p a) := by
  unfold State.applied
  repeat' first
    | with_reducible assumption | (intro _) | with_reducible apply State.raise_follows (within hmsk (by decide))
    | with_reducible apply State.putRecord_follows (within hmsk (by decide)) | split | dsimp only

theorem State.command_follows {msk : Nat} (hmsk : msk ||| 524315 = msk) {z s : State} (p : Sys2Proof.Path) (f : Sys2Proof.Fld) (chk :
    State → Nat) (act : State → State) (h : Follows msk z s) (hact : ∀ t, Follows msk z t → Follows msk z (act t)) : Follows msk z
    (State.command s p f chk act) := by
  unfold State.command
  repeat' first
    | with_reducible assumption | (intro _) | with_reducible apply hact
    | with_reducible apply State.gate_follows (within hmsk (by decide))
    | with_reducible apply State.wrote_follows (within hmsk (by decide))
    | with_reducible apply State.applied_follows (within hmsk (by decide))
    | with_reducible apply State.reject_follows (within hmsk (by decide)) | simp only [LFollows.pair_iff]
    | with_reducible refine LFollows.of_eq ?_ (by with_reducible assumption) | with_reducible apply Follows.ite
    | with_reducible apply LFollows.ite | split | dsimp only

theorem State.runCmd_follows {msk : Nat} (hmsk : msk ||| 524315 = msk) {z s : State} (p : Sys2Proof.Path) (c : Cmd) (h : Follows msk z
    s) (hc : ∀ t, Follows msk z t → Follows msk z (c.act t)) : Follows msk z (State.runCmd s p c) := by
  unfold State.runCmd
  repeat' first
    | with_reducible assumption | (intro _) | with_reducible apply hc
    | with_reducible apply State.command_follows (within hmsk (by decide)) | simp only [LFollows.pair_iff]
    | with_reducible refine LFollows.of_eq ?_ (by with_reducible assumption) | split | dsimp only

theorem State.writeOwn_follows {msk : Nat} (hmsk : msk ||| 524315 = msk) {z s : State} (p : Sys2Proof.Path) (a : Nat) (v : Nat) (chk :
    State → Nat) (act : State → State) (h : Follows msk z s) (hact : ∀ t, Follows msk z t → Follows msk z (act t)) : Follows msk z
    (State.writeOwn s p a v chk act) := by
  unfold State.writeOwn
  repeat' first
    | with_reducible assumption | (intro _) | with_reducible apply hact
    | with_reducible apply State.gate_follows (within hmsk (by decide))
    | with_reducible apply State.wrote_follows (within hmsk (by decide))
    | with_reducible apply State.applied_follows (within hmsk (by decide))
    | with_reducible apply State.reject_follows (within hmsk (by decide)) | simp only [LFollows.pair_iff]
    | with_reducible refine LFollows.of_eq ?_ (by with_reducible assumption) | with_reducible apply Follows.ite
    | with_reducible apply LFollows.ite | split | dsimp only

theorem State.readOwn_follows {msk : Nat} (hmsk : msk ||| 524315 = msk) {z s : State} (p : Sys2Proof.Path) (a : Nat) (val : State → Nat)
    (act : State → State) (h : Follows msk z s) (hact : ∀ t, Follows msk z t → Follows msk z (act t)) : Follows msk z (State.readOwn s p
    a val act) := by
  unfold State.readOwn
  repeat' first
    | with_reducible assumption | (intro _) | with_reducible apply hact
    | with_reducible apply State.gate_follows (within hmsk (by decide))
    | with_reducible apply State.readBack_follows (within hmsk (by decide)) | simp only [LFollows.pair_iff]
    | with_reducible refine LFollows.of_eq ?_ (by with_reducible assumption) | split | dsimp only

theorem State.mrExtend_follows {msk : Nat} {z s : State} (r : Nat) (x : List Sys2Proof.Byte) (h : Follows msk z s) : Follows msk z
    (State.mrExtend s r x) := by
  unfold State.mrExtend
  repeat' first
    | with_reducible assumption | (intro _) | with_reducible apply foldS_follows | with_reducible apply State.wr_follows | split
    | dsimp only

theorem State.eviHold_follows {msk : Nat} (hmsk : msk ||| 1 = msk) {z s : State} (h : Follows msk z s) : Follows msk z (State.eviHold s)
    := by
  unfold State.eviHold
  repeat' first
    | with_reducible assumption | (intro _) | with_reducible apply State.domRequest_follows (within hmsk (by decide))
    | with_reducible apply State.when_follows | split | dsimp only

end Sys2Proof.Machine
end

