-- ==== Sys2Proof/Laws/State.lean ====
section
/-!
SUPPORT. Every update of the state leaves every other field as it was, and registers read as before through an update that writes none.
-/

namespace Sys2Proof.Machine

/-! ## Writing a word -/

@[simp] theorem State.setWord_words (s : State) (a : Nat) (v : Word) : (s.setWord a v).words = wset s.words a v := (rfl)
@[simp] theorem State.setWord_pending (s : State) (a : Nat) (v : Word) : (s.setWord a v).pending = s.pending := (rfl)
@[simp] theorem State.setWord_out (s : State) (a : Nat) (v : Word) : (s.setWord a v).out = s.out := (rfl)
@[simp] theorem State.setWord_fresh (s : State) (a : Nat) (v : Word) : (s.setWord a v).fresh = s.fresh := (rfl)
@[simp] theorem State.setWord_chip (s : State) (a : Nat) (v : Word) : (s.setWord a v).chip = s.chip := (rfl)
@[simp] theorem State.setWord_recd (s : State) (a : Nat) (v : Word) : (s.setWord a v).recd = s.recd := (rfl)
@[simp] theorem State.setWord_time (s : State) (a : Nat) (v : Word) : (s.setWord a v).time = s.time := (rfl)
@[simp] theorem State.setWord_ports (s : State) (a : Nat) (v : Word) : (s.setWord a v).ports = s.ports := (rfl)
@[simp] theorem State.setWord_pwr (s : State) (a : Nat) (v : Word) : (s.setWord a v).pwr = s.pwr := (rfl)
@[simp] theorem State.setWord_evi (s : State) (a : Nat) (v : Word) : (s.setWord a v).evi = s.evi := (rfl)
@[simp] theorem State.setWord_ctxs (s : State) (a : Nat) (v : Word) : (s.setWord a v).ctxs = s.ctxs := (rfl)
@[simp] theorem State.setWord_quar (s : State) (a : Nat) (v : Word) : (s.setWord a v).quar = s.quar := (rfl)
@[simp] theorem State.setWord_gird (s : State) (a : Nat) (v : Word) : (s.setWord a v).gird = s.gird := (rfl)
@[simp] theorem State.setWord_sch (s : State) (a : Nat) (v : Word) : (s.setWord a v).sch = s.sch := (rfl)
@[simp] theorem State.setWord_brg (s : State) (a : Nat) (v : Word) : (s.setWord a v).brg = s.brg := (rfl)
@[simp] theorem State.setWord_dma (s : State) (a : Nat) (v : Word) : (s.setWord a v).dma = s.dma := (rfl)
@[simp] theorem State.setWord_fac (s : State) (a : Nat) (v : Word) : (s.setWord a v).fac = s.fac := (rfl)
@[simp] theorem State.setWord_dp (s : State) (a : Nat) (v : Word) : (s.setWord a v).dp = s.dp := (rfl)
@[simp] theorem State.setWord_usb (s : State) (a : Nat) (v : Word) : (s.setWord a v).usb = s.usb := (rfl)
@[simp] theorem State.setWord_stn (s : State) (a : Nat) (v : Word) : (s.setWord a v).stn = s.stn := (rfl)
@[simp] theorem State.setWord_bzl (s : State) (a : Nat) (v : Word) : (s.setWord a v).bzl = s.bzl := (rfl)
@[simp] theorem State.setWord_svc (s : State) (a : Nat) (v : Word) : (s.setWord a v).svc = s.svc := (rfl)
@[simp] theorem State.setWord_sec (s : State) (a : Nat) (v : Word) : (s.setWord a v).sec = s.sec := (rfl)
@[simp] theorem State.setWord_boot (s : State) (a : Nat) (v : Word) : (s.setWord a v).boot = s.boot := (rfl)

@[simp] theorem State.wr_pending (s : State) (f : Fld) (v : Nat) : (s.wr f v).pending = s.pending := (rfl)
@[simp] theorem State.wr_out (s : State) (f : Fld) (v : Nat) : (s.wr f v).out = s.out := (rfl)
@[simp] theorem State.wr_fresh (s : State) (f : Fld) (v : Nat) : (s.wr f v).fresh = s.fresh := (rfl)
@[simp] theorem State.wr_chip (s : State) (f : Fld) (v : Nat) : (s.wr f v).chip = s.chip := (rfl)
@[simp] theorem State.wr_recd (s : State) (f : Fld) (v : Nat) : (s.wr f v).recd = s.recd := (rfl)
@[simp] theorem State.wr_time (s : State) (f : Fld) (v : Nat) : (s.wr f v).time = s.time := (rfl)
@[simp] theorem State.wr_ports (s : State) (f : Fld) (v : Nat) : (s.wr f v).ports = s.ports := (rfl)
@[simp] theorem State.wr_pwr (s : State) (f : Fld) (v : Nat) : (s.wr f v).pwr = s.pwr := (rfl)
@[simp] theorem State.wr_evi (s : State) (f : Fld) (v : Nat) : (s.wr f v).evi = s.evi := (rfl)
@[simp] theorem State.wr_ctxs (s : State) (f : Fld) (v : Nat) : (s.wr f v).ctxs = s.ctxs := (rfl)
@[simp] theorem State.wr_quar (s : State) (f : Fld) (v : Nat) : (s.wr f v).quar = s.quar := (rfl)
@[simp] theorem State.wr_gird (s : State) (f : Fld) (v : Nat) : (s.wr f v).gird = s.gird := (rfl)
@[simp] theorem State.wr_sch (s : State) (f : Fld) (v : Nat) : (s.wr f v).sch = s.sch := (rfl)
@[simp] theorem State.wr_brg (s : State) (f : Fld) (v : Nat) : (s.wr f v).brg = s.brg := (rfl)
@[simp] theorem State.wr_dma (s : State) (f : Fld) (v : Nat) : (s.wr f v).dma = s.dma := (rfl)
@[simp] theorem State.wr_fac (s : State) (f : Fld) (v : Nat) : (s.wr f v).fac = s.fac := (rfl)
@[simp] theorem State.wr_dp (s : State) (f : Fld) (v : Nat) : (s.wr f v).dp = s.dp := (rfl)
@[simp] theorem State.wr_usb (s : State) (f : Fld) (v : Nat) : (s.wr f v).usb = s.usb := (rfl)
@[simp] theorem State.wr_stn (s : State) (f : Fld) (v : Nat) : (s.wr f v).stn = s.stn := (rfl)
@[simp] theorem State.wr_bzl (s : State) (f : Fld) (v : Nat) : (s.wr f v).bzl = s.bzl := (rfl)
@[simp] theorem State.wr_svc (s : State) (f : Fld) (v : Nat) : (s.wr f v).svc = s.svc := (rfl)
@[simp] theorem State.wr_sec (s : State) (f : Fld) (v : Nat) : (s.wr f v).sec = s.sec := (rfl)
@[simp] theorem State.wr_boot (s : State) (f : Fld) (v : Nat) : (s.wr f v).boot = s.boot := (rfl)

@[simp] theorem State.flag_pending (s : State) (f : Fld) (b : Bool) : (s.flag f b).pending = s.pending := (rfl)
@[simp] theorem State.flag_out (s : State) (f : Fld) (b : Bool) : (s.flag f b).out = s.out := (rfl)
@[simp] theorem State.flag_fresh (s : State) (f : Fld) (b : Bool) : (s.flag f b).fresh = s.fresh := (rfl)
@[simp] theorem State.flag_chip (s : State) (f : Fld) (b : Bool) : (s.flag f b).chip = s.chip := (rfl)
@[simp] theorem State.flag_recd (s : State) (f : Fld) (b : Bool) : (s.flag f b).recd = s.recd := (rfl)
@[simp] theorem State.flag_time (s : State) (f : Fld) (b : Bool) : (s.flag f b).time = s.time := (rfl)
@[simp] theorem State.flag_ports (s : State) (f : Fld) (b : Bool) : (s.flag f b).ports = s.ports := (rfl)
@[simp] theorem State.flag_pwr (s : State) (f : Fld) (b : Bool) : (s.flag f b).pwr = s.pwr := (rfl)
@[simp] theorem State.flag_evi (s : State) (f : Fld) (b : Bool) : (s.flag f b).evi = s.evi := (rfl)
@[simp] theorem State.flag_ctxs (s : State) (f : Fld) (b : Bool) : (s.flag f b).ctxs = s.ctxs := (rfl)
@[simp] theorem State.flag_quar (s : State) (f : Fld) (b : Bool) : (s.flag f b).quar = s.quar := (rfl)
@[simp] theorem State.flag_gird (s : State) (f : Fld) (b : Bool) : (s.flag f b).gird = s.gird := (rfl)
@[simp] theorem State.flag_sch (s : State) (f : Fld) (b : Bool) : (s.flag f b).sch = s.sch := (rfl)
@[simp] theorem State.flag_brg (s : State) (f : Fld) (b : Bool) : (s.flag f b).brg = s.brg := (rfl)
@[simp] theorem State.flag_dma (s : State) (f : Fld) (b : Bool) : (s.flag f b).dma = s.dma := (rfl)
@[simp] theorem State.flag_fac (s : State) (f : Fld) (b : Bool) : (s.flag f b).fac = s.fac := (rfl)
@[simp] theorem State.flag_dp (s : State) (f : Fld) (b : Bool) : (s.flag f b).dp = s.dp := (rfl)
@[simp] theorem State.flag_usb (s : State) (f : Fld) (b : Bool) : (s.flag f b).usb = s.usb := (rfl)
@[simp] theorem State.flag_stn (s : State) (f : Fld) (b : Bool) : (s.flag f b).stn = s.stn := (rfl)
@[simp] theorem State.flag_bzl (s : State) (f : Fld) (b : Bool) : (s.flag f b).bzl = s.bzl := (rfl)
@[simp] theorem State.flag_svc (s : State) (f : Fld) (b : Bool) : (s.flag f b).svc = s.svc := (rfl)
@[simp] theorem State.flag_sec (s : State) (f : Fld) (b : Bool) : (s.flag f b).sec = s.sec := (rfl)
@[simp] theorem State.flag_boot (s : State) (f : Fld) (b : Bool) : (s.flag f b).boot = s.boot := (rfl)

@[simp] theorem State.inc_pending (s : State) (f : Fld) (n : Nat) : (s.inc f n).pending = s.pending := (rfl)
@[simp] theorem State.inc_out (s : State) (f : Fld) (n : Nat) : (s.inc f n).out = s.out := (rfl)
@[simp] theorem State.inc_fresh (s : State) (f : Fld) (n : Nat) : (s.inc f n).fresh = s.fresh := (rfl)
@[simp] theorem State.inc_chip (s : State) (f : Fld) (n : Nat) : (s.inc f n).chip = s.chip := (rfl)
@[simp] theorem State.inc_recd (s : State) (f : Fld) (n : Nat) : (s.inc f n).recd = s.recd := (rfl)
@[simp] theorem State.inc_time (s : State) (f : Fld) (n : Nat) : (s.inc f n).time = s.time := (rfl)
@[simp] theorem State.inc_ports (s : State) (f : Fld) (n : Nat) : (s.inc f n).ports = s.ports := (rfl)
@[simp] theorem State.inc_pwr (s : State) (f : Fld) (n : Nat) : (s.inc f n).pwr = s.pwr := (rfl)
@[simp] theorem State.inc_evi (s : State) (f : Fld) (n : Nat) : (s.inc f n).evi = s.evi := (rfl)
@[simp] theorem State.inc_ctxs (s : State) (f : Fld) (n : Nat) : (s.inc f n).ctxs = s.ctxs := (rfl)
@[simp] theorem State.inc_quar (s : State) (f : Fld) (n : Nat) : (s.inc f n).quar = s.quar := (rfl)
@[simp] theorem State.inc_gird (s : State) (f : Fld) (n : Nat) : (s.inc f n).gird = s.gird := (rfl)
@[simp] theorem State.inc_sch (s : State) (f : Fld) (n : Nat) : (s.inc f n).sch = s.sch := (rfl)
@[simp] theorem State.inc_brg (s : State) (f : Fld) (n : Nat) : (s.inc f n).brg = s.brg := (rfl)
@[simp] theorem State.inc_dma (s : State) (f : Fld) (n : Nat) : (s.inc f n).dma = s.dma := (rfl)
@[simp] theorem State.inc_fac (s : State) (f : Fld) (n : Nat) : (s.inc f n).fac = s.fac := (rfl)
@[simp] theorem State.inc_dp (s : State) (f : Fld) (n : Nat) : (s.inc f n).dp = s.dp := (rfl)
@[simp] theorem State.inc_usb (s : State) (f : Fld) (n : Nat) : (s.inc f n).usb = s.usb := (rfl)
@[simp] theorem State.inc_stn (s : State) (f : Fld) (n : Nat) : (s.inc f n).stn = s.stn := (rfl)
@[simp] theorem State.inc_bzl (s : State) (f : Fld) (n : Nat) : (s.inc f n).bzl = s.bzl := (rfl)
@[simp] theorem State.inc_svc (s : State) (f : Fld) (n : Nat) : (s.inc f n).svc = s.svc := (rfl)
@[simp] theorem State.inc_sec (s : State) (f : Fld) (n : Nat) : (s.inc f n).sec = s.sec := (rfl)
@[simp] theorem State.inc_boot (s : State) (f : Fld) (n : Nat) : (s.inc f n).boot = s.boot := (rfl)

@[simp] theorem State.incSat_pending (s : State) (f : Fld) : (s.incSat f).pending = s.pending := (rfl)
@[simp] theorem State.incSat_out (s : State) (f : Fld) : (s.incSat f).out = s.out := (rfl)
@[simp] theorem State.incSat_fresh (s : State) (f : Fld) : (s.incSat f).fresh = s.fresh := (rfl)
@[simp] theorem State.incSat_chip (s : State) (f : Fld) : (s.incSat f).chip = s.chip := (rfl)
@[simp] theorem State.incSat_recd (s : State) (f : Fld) : (s.incSat f).recd = s.recd := (rfl)
@[simp] theorem State.incSat_time (s : State) (f : Fld) : (s.incSat f).time = s.time := (rfl)
@[simp] theorem State.incSat_ports (s : State) (f : Fld) : (s.incSat f).ports = s.ports := (rfl)
@[simp] theorem State.incSat_pwr (s : State) (f : Fld) : (s.incSat f).pwr = s.pwr := (rfl)
@[simp] theorem State.incSat_evi (s : State) (f : Fld) : (s.incSat f).evi = s.evi := (rfl)
@[simp] theorem State.incSat_ctxs (s : State) (f : Fld) : (s.incSat f).ctxs = s.ctxs := (rfl)
@[simp] theorem State.incSat_quar (s : State) (f : Fld) : (s.incSat f).quar = s.quar := (rfl)
@[simp] theorem State.incSat_gird (s : State) (f : Fld) : (s.incSat f).gird = s.gird := (rfl)
@[simp] theorem State.incSat_sch (s : State) (f : Fld) : (s.incSat f).sch = s.sch := (rfl)
@[simp] theorem State.incSat_brg (s : State) (f : Fld) : (s.incSat f).brg = s.brg := (rfl)
@[simp] theorem State.incSat_dma (s : State) (f : Fld) : (s.incSat f).dma = s.dma := (rfl)
@[simp] theorem State.incSat_fac (s : State) (f : Fld) : (s.incSat f).fac = s.fac := (rfl)
@[simp] theorem State.incSat_dp (s : State) (f : Fld) : (s.incSat f).dp = s.dp := (rfl)
@[simp] theorem State.incSat_usb (s : State) (f : Fld) : (s.incSat f).usb = s.usb := (rfl)
@[simp] theorem State.incSat_stn (s : State) (f : Fld) : (s.incSat f).stn = s.stn := (rfl)
@[simp] theorem State.incSat_bzl (s : State) (f : Fld) : (s.incSat f).bzl = s.bzl := (rfl)
@[simp] theorem State.incSat_svc (s : State) (f : Fld) : (s.incSat f).svc = s.svc := (rfl)
@[simp] theorem State.incSat_sec (s : State) (f : Fld) : (s.incSat f).sec = s.sec := (rfl)
@[simp] theorem State.incSat_boot (s : State) (f : Fld) : (s.incSat f).boot = s.boot := (rfl)

@[simp] theorem State.setBit_pending (s : State) (f : Fld) (b : Nat) (v : Bool) : (s.setBit f b v).pending = s.pending := (rfl)
@[simp] theorem State.setBit_out (s : State) (f : Fld) (b : Nat) (v : Bool) : (s.setBit f b v).out = s.out := (rfl)
@[simp] theorem State.setBit_fresh (s : State) (f : Fld) (b : Nat) (v : Bool) : (s.setBit f b v).fresh = s.fresh := (rfl)
@[simp] theorem State.setBit_chip (s : State) (f : Fld) (b : Nat) (v : Bool) : (s.setBit f b v).chip = s.chip := (rfl)
@[simp] theorem State.setBit_recd (s : State) (f : Fld) (b : Nat) (v : Bool) : (s.setBit f b v).recd = s.recd := (rfl)
@[simp] theorem State.setBit_time (s : State) (f : Fld) (b : Nat) (v : Bool) : (s.setBit f b v).time = s.time := (rfl)
@[simp] theorem State.setBit_ports (s : State) (f : Fld) (b : Nat) (v : Bool) : (s.setBit f b v).ports = s.ports := (rfl)
@[simp] theorem State.setBit_pwr (s : State) (f : Fld) (b : Nat) (v : Bool) : (s.setBit f b v).pwr = s.pwr := (rfl)
@[simp] theorem State.setBit_evi (s : State) (f : Fld) (b : Nat) (v : Bool) : (s.setBit f b v).evi = s.evi := (rfl)
@[simp] theorem State.setBit_ctxs (s : State) (f : Fld) (b : Nat) (v : Bool) : (s.setBit f b v).ctxs = s.ctxs := (rfl)
@[simp] theorem State.setBit_quar (s : State) (f : Fld) (b : Nat) (v : Bool) : (s.setBit f b v).quar = s.quar := (rfl)
@[simp] theorem State.setBit_gird (s : State) (f : Fld) (b : Nat) (v : Bool) : (s.setBit f b v).gird = s.gird := (rfl)
@[simp] theorem State.setBit_sch (s : State) (f : Fld) (b : Nat) (v : Bool) : (s.setBit f b v).sch = s.sch := (rfl)
@[simp] theorem State.setBit_brg (s : State) (f : Fld) (b : Nat) (v : Bool) : (s.setBit f b v).brg = s.brg := (rfl)
@[simp] theorem State.setBit_dma (s : State) (f : Fld) (b : Nat) (v : Bool) : (s.setBit f b v).dma = s.dma := (rfl)
@[simp] theorem State.setBit_fac (s : State) (f : Fld) (b : Nat) (v : Bool) : (s.setBit f b v).fac = s.fac := (rfl)
@[simp] theorem State.setBit_dp (s : State) (f : Fld) (b : Nat) (v : Bool) : (s.setBit f b v).dp = s.dp := (rfl)
@[simp] theorem State.setBit_usb (s : State) (f : Fld) (b : Nat) (v : Bool) : (s.setBit f b v).usb = s.usb := (rfl)
@[simp] theorem State.setBit_stn (s : State) (f : Fld) (b : Nat) (v : Bool) : (s.setBit f b v).stn = s.stn := (rfl)
@[simp] theorem State.setBit_bzl (s : State) (f : Fld) (b : Nat) (v : Bool) : (s.setBit f b v).bzl = s.bzl := (rfl)
@[simp] theorem State.setBit_svc (s : State) (f : Fld) (b : Nat) (v : Bool) : (s.setBit f b v).svc = s.svc := (rfl)
@[simp] theorem State.setBit_sec (s : State) (f : Fld) (b : Nat) (v : Bool) : (s.setBit f b v).sec = s.sec := (rfl)
@[simp] theorem State.setBit_boot (s : State) (f : Fld) (b : Nat) (v : Bool) : (s.setBit f b v).boot = s.boot := (rfl)

/-! ## The output and the free values -/

@[simp] theorem State.emit_words (s : State) (o : Out) : (s.emit o).words = s.words := (rfl)
@[simp] theorem State.emit_pending (s : State) (o : Out) : (s.emit o).pending = s.pending := (rfl)
@[simp] theorem State.emit_out (s : State) (o : Out) : (s.emit o).out = s.out ++ [o] := (rfl)
@[simp] theorem State.emit_fresh (s : State) (o : Out) : (s.emit o).fresh = s.fresh := (rfl)
@[simp] theorem State.emit_chip (s : State) (o : Out) : (s.emit o).chip = s.chip := (rfl)
@[simp] theorem State.emit_recd (s : State) (o : Out) : (s.emit o).recd = s.recd := (rfl)
@[simp] theorem State.emit_time (s : State) (o : Out) : (s.emit o).time = s.time := (rfl)
@[simp] theorem State.emit_ports (s : State) (o : Out) : (s.emit o).ports = s.ports := (rfl)
@[simp] theorem State.emit_pwr (s : State) (o : Out) : (s.emit o).pwr = s.pwr := (rfl)
@[simp] theorem State.emit_evi (s : State) (o : Out) : (s.emit o).evi = s.evi := (rfl)
@[simp] theorem State.emit_ctxs (s : State) (o : Out) : (s.emit o).ctxs = s.ctxs := (rfl)
@[simp] theorem State.emit_quar (s : State) (o : Out) : (s.emit o).quar = s.quar := (rfl)
@[simp] theorem State.emit_gird (s : State) (o : Out) : (s.emit o).gird = s.gird := (rfl)
@[simp] theorem State.emit_sch (s : State) (o : Out) : (s.emit o).sch = s.sch := (rfl)
@[simp] theorem State.emit_brg (s : State) (o : Out) : (s.emit o).brg = s.brg := (rfl)
@[simp] theorem State.emit_dma (s : State) (o : Out) : (s.emit o).dma = s.dma := (rfl)
@[simp] theorem State.emit_fac (s : State) (o : Out) : (s.emit o).fac = s.fac := (rfl)
@[simp] theorem State.emit_dp (s : State) (o : Out) : (s.emit o).dp = s.dp := (rfl)
@[simp] theorem State.emit_usb (s : State) (o : Out) : (s.emit o).usb = s.usb := (rfl)
@[simp] theorem State.emit_stn (s : State) (o : Out) : (s.emit o).stn = s.stn := (rfl)
@[simp] theorem State.emit_bzl (s : State) (o : Out) : (s.emit o).bzl = s.bzl := (rfl)
@[simp] theorem State.emit_svc (s : State) (o : Out) : (s.emit o).svc = s.svc := (rfl)
@[simp] theorem State.emit_sec (s : State) (o : Out) : (s.emit o).sec = s.sec := (rfl)
@[simp] theorem State.emit_boot (s : State) (o : Out) : (s.emit o).boot = s.boot := (rfl)

@[simp] theorem State.freshVal_words (s : State) : (s.freshVal.2).words = s.words := (rfl)
@[simp] theorem State.freshVal_pending (s : State) : (s.freshVal.2).pending = s.pending := (rfl)
@[simp] theorem State.freshVal_out (s : State) : (s.freshVal.2).out = s.out := (rfl)
@[simp] theorem State.freshVal_fresh (s : State) : (s.freshVal.2).fresh = s.fresh + 1 := (rfl)
@[simp] theorem State.freshVal_chip (s : State) : (s.freshVal.2).chip = s.chip := (rfl)
@[simp] theorem State.freshVal_recd (s : State) : (s.freshVal.2).recd = s.recd := (rfl)
@[simp] theorem State.freshVal_time (s : State) : (s.freshVal.2).time = s.time := (rfl)
@[simp] theorem State.freshVal_ports (s : State) : (s.freshVal.2).ports = s.ports := (rfl)
@[simp] theorem State.freshVal_pwr (s : State) : (s.freshVal.2).pwr = s.pwr := (rfl)
@[simp] theorem State.freshVal_evi (s : State) : (s.freshVal.2).evi = s.evi := (rfl)
@[simp] theorem State.freshVal_ctxs (s : State) : (s.freshVal.2).ctxs = s.ctxs := (rfl)
@[simp] theorem State.freshVal_quar (s : State) : (s.freshVal.2).quar = s.quar := (rfl)
@[simp] theorem State.freshVal_gird (s : State) : (s.freshVal.2).gird = s.gird := (rfl)
@[simp] theorem State.freshVal_sch (s : State) : (s.freshVal.2).sch = s.sch := (rfl)
@[simp] theorem State.freshVal_brg (s : State) : (s.freshVal.2).brg = s.brg := (rfl)
@[simp] theorem State.freshVal_dma (s : State) : (s.freshVal.2).dma = s.dma := (rfl)
@[simp] theorem State.freshVal_fac (s : State) : (s.freshVal.2).fac = s.fac := (rfl)
@[simp] theorem State.freshVal_dp (s : State) : (s.freshVal.2).dp = s.dp := (rfl)
@[simp] theorem State.freshVal_usb (s : State) : (s.freshVal.2).usb = s.usb := (rfl)
@[simp] theorem State.freshVal_stn (s : State) : (s.freshVal.2).stn = s.stn := (rfl)
@[simp] theorem State.freshVal_bzl (s : State) : (s.freshVal.2).bzl = s.bzl := (rfl)
@[simp] theorem State.freshVal_svc (s : State) : (s.freshVal.2).svc = s.svc := (rfl)
@[simp] theorem State.freshVal_sec (s : State) : (s.freshVal.2).sec = s.sec := (rfl)
@[simp] theorem State.freshVal_boot (s : State) : (s.freshVal.2).boot = s.boot := (rfl)

@[simp] theorem State.freshVal_fst (s : State) : s.freshVal.1 = Config.freeValue s.fresh := (rfl)

/-! ## The hidden state of the blocks -/

@[simp] theorem State.modChip_words (s : State) (f : Chip → Chip) : (s.modChip f).words = s.words := (rfl)
@[simp] theorem State.modChip_pending (s : State) (f : Chip → Chip) : (s.modChip f).pending = s.pending := (rfl)
@[simp] theorem State.modChip_out (s : State) (f : Chip → Chip) : (s.modChip f).out = s.out := (rfl)
@[simp] theorem State.modChip_fresh (s : State) (f : Chip → Chip) : (s.modChip f).fresh = s.fresh := (rfl)
@[simp] theorem State.modChip_chip (s : State) (f : Chip → Chip) : (s.modChip f).chip = f s.chip := (rfl)
@[simp] theorem State.modChip_recd (s : State) (f : Chip → Chip) : (s.modChip f).recd = s.recd := (rfl)
@[simp] theorem State.modChip_time (s : State) (f : Chip → Chip) : (s.modChip f).time = s.time := (rfl)
@[simp] theorem State.modChip_ports (s : State) (f : Chip → Chip) : (s.modChip f).ports = s.ports := (rfl)
@[simp] theorem State.modChip_pwr (s : State) (f : Chip → Chip) : (s.modChip f).pwr = s.pwr := (rfl)
@[simp] theorem State.modChip_evi (s : State) (f : Chip → Chip) : (s.modChip f).evi = s.evi := (rfl)
@[simp] theorem State.modChip_ctxs (s : State) (f : Chip → Chip) : (s.modChip f).ctxs = s.ctxs := (rfl)
@[simp] theorem State.modChip_quar (s : State) (f : Chip → Chip) : (s.modChip f).quar = s.quar := (rfl)
@[simp] theorem State.modChip_gird (s : State) (f : Chip → Chip) : (s.modChip f).gird = s.gird := (rfl)
@[simp] theorem State.modChip_sch (s : State) (f : Chip → Chip) : (s.modChip f).sch = s.sch := (rfl)
@[simp] theorem State.modChip_brg (s : State) (f : Chip → Chip) : (s.modChip f).brg = s.brg := (rfl)
@[simp] theorem State.modChip_dma (s : State) (f : Chip → Chip) : (s.modChip f).dma = s.dma := (rfl)
@[simp] theorem State.modChip_fac (s : State) (f : Chip → Chip) : (s.modChip f).fac = s.fac := (rfl)
@[simp] theorem State.modChip_dp (s : State) (f : Chip → Chip) : (s.modChip f).dp = s.dp := (rfl)
@[simp] theorem State.modChip_usb (s : State) (f : Chip → Chip) : (s.modChip f).usb = s.usb := (rfl)
@[simp] theorem State.modChip_stn (s : State) (f : Chip → Chip) : (s.modChip f).stn = s.stn := (rfl)
@[simp] theorem State.modChip_bzl (s : State) (f : Chip → Chip) : (s.modChip f).bzl = s.bzl := (rfl)
@[simp] theorem State.modChip_svc (s : State) (f : Chip → Chip) : (s.modChip f).svc = s.svc := (rfl)
@[simp] theorem State.modChip_sec (s : State) (f : Chip → Chip) : (s.modChip f).sec = s.sec := (rfl)
@[simp] theorem State.modChip_boot (s : State) (f : Chip → Chip) : (s.modChip f).boot = s.boot := (rfl)

@[simp] theorem State.modRec_words (s : State) (f : Recorder → Recorder) : (s.modRec f).words = s.words := (rfl)
@[simp] theorem State.modRec_pending (s : State) (f : Recorder → Recorder) : (s.modRec f).pending = s.pending := (rfl)
@[simp] theorem State.modRec_out (s : State) (f : Recorder → Recorder) : (s.modRec f).out = s.out := (rfl)
@[simp] theorem State.modRec_fresh (s : State) (f : Recorder → Recorder) : (s.modRec f).fresh = s.fresh := (rfl)
@[simp] theorem State.modRec_chip (s : State) (f : Recorder → Recorder) : (s.modRec f).chip = s.chip := (rfl)
@[simp] theorem State.modRec_recd (s : State) (f : Recorder → Recorder) : (s.modRec f).recd = f s.recd := (rfl)
@[simp] theorem State.modRec_time (s : State) (f : Recorder → Recorder) : (s.modRec f).time = s.time := (rfl)
@[simp] theorem State.modRec_ports (s : State) (f : Recorder → Recorder) : (s.modRec f).ports = s.ports := (rfl)
@[simp] theorem State.modRec_pwr (s : State) (f : Recorder → Recorder) : (s.modRec f).pwr = s.pwr := (rfl)
@[simp] theorem State.modRec_evi (s : State) (f : Recorder → Recorder) : (s.modRec f).evi = s.evi := (rfl)
@[simp] theorem State.modRec_ctxs (s : State) (f : Recorder → Recorder) : (s.modRec f).ctxs = s.ctxs := (rfl)
@[simp] theorem State.modRec_quar (s : State) (f : Recorder → Recorder) : (s.modRec f).quar = s.quar := (rfl)
@[simp] theorem State.modRec_gird (s : State) (f : Recorder → Recorder) : (s.modRec f).gird = s.gird := (rfl)
@[simp] theorem State.modRec_sch (s : State) (f : Recorder → Recorder) : (s.modRec f).sch = s.sch := (rfl)
@[simp] theorem State.modRec_brg (s : State) (f : Recorder → Recorder) : (s.modRec f).brg = s.brg := (rfl)
@[simp] theorem State.modRec_dma (s : State) (f : Recorder → Recorder) : (s.modRec f).dma = s.dma := (rfl)
@[simp] theorem State.modRec_fac (s : State) (f : Recorder → Recorder) : (s.modRec f).fac = s.fac := (rfl)
@[simp] theorem State.modRec_dp (s : State) (f : Recorder → Recorder) : (s.modRec f).dp = s.dp := (rfl)
@[simp] theorem State.modRec_usb (s : State) (f : Recorder → Recorder) : (s.modRec f).usb = s.usb := (rfl)
@[simp] theorem State.modRec_stn (s : State) (f : Recorder → Recorder) : (s.modRec f).stn = s.stn := (rfl)
@[simp] theorem State.modRec_bzl (s : State) (f : Recorder → Recorder) : (s.modRec f).bzl = s.bzl := (rfl)
@[simp] theorem State.modRec_svc (s : State) (f : Recorder → Recorder) : (s.modRec f).svc = s.svc := (rfl)
@[simp] theorem State.modRec_sec (s : State) (f : Recorder → Recorder) : (s.modRec f).sec = s.sec := (rfl)
@[simp] theorem State.modRec_boot (s : State) (f : Recorder → Recorder) : (s.modRec f).boot = s.boot := (rfl)

@[simp] theorem State.modTime_words (s : State) (f : TimeS → TimeS) : (s.modTime f).words = s.words := (rfl)
@[simp] theorem State.modTime_pending (s : State) (f : TimeS → TimeS) : (s.modTime f).pending = s.pending := (rfl)
@[simp] theorem State.modTime_out (s : State) (f : TimeS → TimeS) : (s.modTime f).out = s.out := (rfl)
@[simp] theorem State.modTime_fresh (s : State) (f : TimeS → TimeS) : (s.modTime f).fresh = s.fresh := (rfl)
@[simp] theorem State.modTime_chip (s : State) (f : TimeS → TimeS) : (s.modTime f).chip = s.chip := (rfl)
@[simp] theorem State.modTime_recd (s : State) (f : TimeS → TimeS) : (s.modTime f).recd = s.recd := (rfl)
@[simp] theorem State.modTime_time (s : State) (f : TimeS → TimeS) : (s.modTime f).time = f s.time := (rfl)
@[simp] theorem State.modTime_ports (s : State) (f : TimeS → TimeS) : (s.modTime f).ports = s.ports := (rfl)
@[simp] theorem State.modTime_pwr (s : State) (f : TimeS → TimeS) : (s.modTime f).pwr = s.pwr := (rfl)
@[simp] theorem State.modTime_evi (s : State) (f : TimeS → TimeS) : (s.modTime f).evi = s.evi := (rfl)
@[simp] theorem State.modTime_ctxs (s : State) (f : TimeS → TimeS) : (s.modTime f).ctxs = s.ctxs := (rfl)
@[simp] theorem State.modTime_quar (s : State) (f : TimeS → TimeS) : (s.modTime f).quar = s.quar := (rfl)
@[simp] theorem State.modTime_gird (s : State) (f : TimeS → TimeS) : (s.modTime f).gird = s.gird := (rfl)
@[simp] theorem State.modTime_sch (s : State) (f : TimeS → TimeS) : (s.modTime f).sch = s.sch := (rfl)
@[simp] theorem State.modTime_brg (s : State) (f : TimeS → TimeS) : (s.modTime f).brg = s.brg := (rfl)
@[simp] theorem State.modTime_dma (s : State) (f : TimeS → TimeS) : (s.modTime f).dma = s.dma := (rfl)
@[simp] theorem State.modTime_fac (s : State) (f : TimeS → TimeS) : (s.modTime f).fac = s.fac := (rfl)
@[simp] theorem State.modTime_dp (s : State) (f : TimeS → TimeS) : (s.modTime f).dp = s.dp := (rfl)
@[simp] theorem State.modTime_usb (s : State) (f : TimeS → TimeS) : (s.modTime f).usb = s.usb := (rfl)
@[simp] theorem State.modTime_stn (s : State) (f : TimeS → TimeS) : (s.modTime f).stn = s.stn := (rfl)
@[simp] theorem State.modTime_bzl (s : State) (f : TimeS → TimeS) : (s.modTime f).bzl = s.bzl := (rfl)
@[simp] theorem State.modTime_svc (s : State) (f : TimeS → TimeS) : (s.modTime f).svc = s.svc := (rfl)
@[simp] theorem State.modTime_sec (s : State) (f : TimeS → TimeS) : (s.modTime f).sec = s.sec := (rfl)
@[simp] theorem State.modTime_boot (s : State) (f : TimeS → TimeS) : (s.modTime f).boot = s.boot := (rfl)

@[simp] theorem State.modPwr_words (s : State) (f : PowerS → PowerS) : (s.modPwr f).words = s.words := (rfl)
@[simp] theorem State.modPwr_pending (s : State) (f : PowerS → PowerS) : (s.modPwr f).pending = s.pending := (rfl)
@[simp] theorem State.modPwr_out (s : State) (f : PowerS → PowerS) : (s.modPwr f).out = s.out := (rfl)
@[simp] theorem State.modPwr_fresh (s : State) (f : PowerS → PowerS) : (s.modPwr f).fresh = s.fresh := (rfl)
@[simp] theorem State.modPwr_chip (s : State) (f : PowerS → PowerS) : (s.modPwr f).chip = s.chip := (rfl)
@[simp] theorem State.modPwr_recd (s : State) (f : PowerS → PowerS) : (s.modPwr f).recd = s.recd := (rfl)
@[simp] theorem State.modPwr_time (s : State) (f : PowerS → PowerS) : (s.modPwr f).time = s.time := (rfl)
@[simp] theorem State.modPwr_ports (s : State) (f : PowerS → PowerS) : (s.modPwr f).ports = s.ports := (rfl)
@[simp] theorem State.modPwr_pwr (s : State) (f : PowerS → PowerS) : (s.modPwr f).pwr = f s.pwr := (rfl)
@[simp] theorem State.modPwr_evi (s : State) (f : PowerS → PowerS) : (s.modPwr f).evi = s.evi := (rfl)
@[simp] theorem State.modPwr_ctxs (s : State) (f : PowerS → PowerS) : (s.modPwr f).ctxs = s.ctxs := (rfl)
@[simp] theorem State.modPwr_quar (s : State) (f : PowerS → PowerS) : (s.modPwr f).quar = s.quar := (rfl)
@[simp] theorem State.modPwr_gird (s : State) (f : PowerS → PowerS) : (s.modPwr f).gird = s.gird := (rfl)
@[simp] theorem State.modPwr_sch (s : State) (f : PowerS → PowerS) : (s.modPwr f).sch = s.sch := (rfl)
@[simp] theorem State.modPwr_brg (s : State) (f : PowerS → PowerS) : (s.modPwr f).brg = s.brg := (rfl)
@[simp] theorem State.modPwr_dma (s : State) (f : PowerS → PowerS) : (s.modPwr f).dma = s.dma := (rfl)
@[simp] theorem State.modPwr_fac (s : State) (f : PowerS → PowerS) : (s.modPwr f).fac = s.fac := (rfl)
@[simp] theorem State.modPwr_dp (s : State) (f : PowerS → PowerS) : (s.modPwr f).dp = s.dp := (rfl)
@[simp] theorem State.modPwr_usb (s : State) (f : PowerS → PowerS) : (s.modPwr f).usb = s.usb := (rfl)
@[simp] theorem State.modPwr_stn (s : State) (f : PowerS → PowerS) : (s.modPwr f).stn = s.stn := (rfl)
@[simp] theorem State.modPwr_bzl (s : State) (f : PowerS → PowerS) : (s.modPwr f).bzl = s.bzl := (rfl)
@[simp] theorem State.modPwr_svc (s : State) (f : PowerS → PowerS) : (s.modPwr f).svc = s.svc := (rfl)
@[simp] theorem State.modPwr_sec (s : State) (f : PowerS → PowerS) : (s.modPwr f).sec = s.sec := (rfl)
@[simp] theorem State.modPwr_boot (s : State) (f : PowerS → PowerS) : (s.modPwr f).boot = s.boot := (rfl)

@[simp] theorem State.modEvi_words (s : State) (f : EviS → EviS) : (s.modEvi f).words = s.words := (rfl)
@[simp] theorem State.modEvi_pending (s : State) (f : EviS → EviS) : (s.modEvi f).pending = s.pending := (rfl)
@[simp] theorem State.modEvi_out (s : State) (f : EviS → EviS) : (s.modEvi f).out = s.out := (rfl)
@[simp] theorem State.modEvi_fresh (s : State) (f : EviS → EviS) : (s.modEvi f).fresh = s.fresh := (rfl)
@[simp] theorem State.modEvi_chip (s : State) (f : EviS → EviS) : (s.modEvi f).chip = s.chip := (rfl)
@[simp] theorem State.modEvi_recd (s : State) (f : EviS → EviS) : (s.modEvi f).recd = s.recd := (rfl)
@[simp] theorem State.modEvi_time (s : State) (f : EviS → EviS) : (s.modEvi f).time = s.time := (rfl)
@[simp] theorem State.modEvi_ports (s : State) (f : EviS → EviS) : (s.modEvi f).ports = s.ports := (rfl)
@[simp] theorem State.modEvi_pwr (s : State) (f : EviS → EviS) : (s.modEvi f).pwr = s.pwr := (rfl)
@[simp] theorem State.modEvi_evi (s : State) (f : EviS → EviS) : (s.modEvi f).evi = f s.evi := (rfl)
@[simp] theorem State.modEvi_ctxs (s : State) (f : EviS → EviS) : (s.modEvi f).ctxs = s.ctxs := (rfl)
@[simp] theorem State.modEvi_quar (s : State) (f : EviS → EviS) : (s.modEvi f).quar = s.quar := (rfl)
@[simp] theorem State.modEvi_gird (s : State) (f : EviS → EviS) : (s.modEvi f).gird = s.gird := (rfl)
@[simp] theorem State.modEvi_sch (s : State) (f : EviS → EviS) : (s.modEvi f).sch = s.sch := (rfl)
@[simp] theorem State.modEvi_brg (s : State) (f : EviS → EviS) : (s.modEvi f).brg = s.brg := (rfl)
@[simp] theorem State.modEvi_dma (s : State) (f : EviS → EviS) : (s.modEvi f).dma = s.dma := (rfl)
@[simp] theorem State.modEvi_fac (s : State) (f : EviS → EviS) : (s.modEvi f).fac = s.fac := (rfl)
@[simp] theorem State.modEvi_dp (s : State) (f : EviS → EviS) : (s.modEvi f).dp = s.dp := (rfl)
@[simp] theorem State.modEvi_usb (s : State) (f : EviS → EviS) : (s.modEvi f).usb = s.usb := (rfl)
@[simp] theorem State.modEvi_stn (s : State) (f : EviS → EviS) : (s.modEvi f).stn = s.stn := (rfl)
@[simp] theorem State.modEvi_bzl (s : State) (f : EviS → EviS) : (s.modEvi f).bzl = s.bzl := (rfl)
@[simp] theorem State.modEvi_svc (s : State) (f : EviS → EviS) : (s.modEvi f).svc = s.svc := (rfl)
@[simp] theorem State.modEvi_sec (s : State) (f : EviS → EviS) : (s.modEvi f).sec = s.sec := (rfl)
@[simp] theorem State.modEvi_boot (s : State) (f : EviS → EviS) : (s.modEvi f).boot = s.boot := (rfl)

@[simp] theorem State.modBrg_words (s : State) (f : BridgeS → BridgeS) : (s.modBrg f).words = s.words := (rfl)
@[simp] theorem State.modBrg_pending (s : State) (f : BridgeS → BridgeS) : (s.modBrg f).pending = s.pending := (rfl)
@[simp] theorem State.modBrg_out (s : State) (f : BridgeS → BridgeS) : (s.modBrg f).out = s.out := (rfl)
@[simp] theorem State.modBrg_fresh (s : State) (f : BridgeS → BridgeS) : (s.modBrg f).fresh = s.fresh := (rfl)
@[simp] theorem State.modBrg_chip (s : State) (f : BridgeS → BridgeS) : (s.modBrg f).chip = s.chip := (rfl)
@[simp] theorem State.modBrg_recd (s : State) (f : BridgeS → BridgeS) : (s.modBrg f).recd = s.recd := (rfl)
@[simp] theorem State.modBrg_time (s : State) (f : BridgeS → BridgeS) : (s.modBrg f).time = s.time := (rfl)
@[simp] theorem State.modBrg_ports (s : State) (f : BridgeS → BridgeS) : (s.modBrg f).ports = s.ports := (rfl)
@[simp] theorem State.modBrg_pwr (s : State) (f : BridgeS → BridgeS) : (s.modBrg f).pwr = s.pwr := (rfl)
@[simp] theorem State.modBrg_evi (s : State) (f : BridgeS → BridgeS) : (s.modBrg f).evi = s.evi := (rfl)
@[simp] theorem State.modBrg_ctxs (s : State) (f : BridgeS → BridgeS) : (s.modBrg f).ctxs = s.ctxs := (rfl)
@[simp] theorem State.modBrg_quar (s : State) (f : BridgeS → BridgeS) : (s.modBrg f).quar = s.quar := (rfl)
@[simp] theorem State.modBrg_gird (s : State) (f : BridgeS → BridgeS) : (s.modBrg f).gird = s.gird := (rfl)
@[simp] theorem State.modBrg_sch (s : State) (f : BridgeS → BridgeS) : (s.modBrg f).sch = s.sch := (rfl)
@[simp] theorem State.modBrg_brg (s : State) (f : BridgeS → BridgeS) : (s.modBrg f).brg = f s.brg := (rfl)
@[simp] theorem State.modBrg_dma (s : State) (f : BridgeS → BridgeS) : (s.modBrg f).dma = s.dma := (rfl)
@[simp] theorem State.modBrg_fac (s : State) (f : BridgeS → BridgeS) : (s.modBrg f).fac = s.fac := (rfl)
@[simp] theorem State.modBrg_dp (s : State) (f : BridgeS → BridgeS) : (s.modBrg f).dp = s.dp := (rfl)
@[simp] theorem State.modBrg_usb (s : State) (f : BridgeS → BridgeS) : (s.modBrg f).usb = s.usb := (rfl)
@[simp] theorem State.modBrg_stn (s : State) (f : BridgeS → BridgeS) : (s.modBrg f).stn = s.stn := (rfl)
@[simp] theorem State.modBrg_bzl (s : State) (f : BridgeS → BridgeS) : (s.modBrg f).bzl = s.bzl := (rfl)
@[simp] theorem State.modBrg_svc (s : State) (f : BridgeS → BridgeS) : (s.modBrg f).svc = s.svc := (rfl)
@[simp] theorem State.modBrg_sec (s : State) (f : BridgeS → BridgeS) : (s.modBrg f).sec = s.sec := (rfl)
@[simp] theorem State.modBrg_boot (s : State) (f : BridgeS → BridgeS) : (s.modBrg f).boot = s.boot := (rfl)

@[simp] theorem State.modDma_words (s : State) (f : DmaS → DmaS) : (s.modDma f).words = s.words := (rfl)
@[simp] theorem State.modDma_pending (s : State) (f : DmaS → DmaS) : (s.modDma f).pending = s.pending := (rfl)
@[simp] theorem State.modDma_out (s : State) (f : DmaS → DmaS) : (s.modDma f).out = s.out := (rfl)
@[simp] theorem State.modDma_fresh (s : State) (f : DmaS → DmaS) : (s.modDma f).fresh = s.fresh := (rfl)
@[simp] theorem State.modDma_chip (s : State) (f : DmaS → DmaS) : (s.modDma f).chip = s.chip := (rfl)
@[simp] theorem State.modDma_recd (s : State) (f : DmaS → DmaS) : (s.modDma f).recd = s.recd := (rfl)
@[simp] theorem State.modDma_time (s : State) (f : DmaS → DmaS) : (s.modDma f).time = s.time := (rfl)
@[simp] theorem State.modDma_ports (s : State) (f : DmaS → DmaS) : (s.modDma f).ports = s.ports := (rfl)
@[simp] theorem State.modDma_pwr (s : State) (f : DmaS → DmaS) : (s.modDma f).pwr = s.pwr := (rfl)
@[simp] theorem State.modDma_evi (s : State) (f : DmaS → DmaS) : (s.modDma f).evi = s.evi := (rfl)
@[simp] theorem State.modDma_ctxs (s : State) (f : DmaS → DmaS) : (s.modDma f).ctxs = s.ctxs := (rfl)
@[simp] theorem State.modDma_quar (s : State) (f : DmaS → DmaS) : (s.modDma f).quar = s.quar := (rfl)
@[simp] theorem State.modDma_gird (s : State) (f : DmaS → DmaS) : (s.modDma f).gird = s.gird := (rfl)
@[simp] theorem State.modDma_sch (s : State) (f : DmaS → DmaS) : (s.modDma f).sch = s.sch := (rfl)
@[simp] theorem State.modDma_brg (s : State) (f : DmaS → DmaS) : (s.modDma f).brg = s.brg := (rfl)
@[simp] theorem State.modDma_dma (s : State) (f : DmaS → DmaS) : (s.modDma f).dma = f s.dma := (rfl)
@[simp] theorem State.modDma_fac (s : State) (f : DmaS → DmaS) : (s.modDma f).fac = s.fac := (rfl)
@[simp] theorem State.modDma_dp (s : State) (f : DmaS → DmaS) : (s.modDma f).dp = s.dp := (rfl)
@[simp] theorem State.modDma_usb (s : State) (f : DmaS → DmaS) : (s.modDma f).usb = s.usb := (rfl)
@[simp] theorem State.modDma_stn (s : State) (f : DmaS → DmaS) : (s.modDma f).stn = s.stn := (rfl)
@[simp] theorem State.modDma_bzl (s : State) (f : DmaS → DmaS) : (s.modDma f).bzl = s.bzl := (rfl)
@[simp] theorem State.modDma_svc (s : State) (f : DmaS → DmaS) : (s.modDma f).svc = s.svc := (rfl)
@[simp] theorem State.modDma_sec (s : State) (f : DmaS → DmaS) : (s.modDma f).sec = s.sec := (rfl)
@[simp] theorem State.modDma_boot (s : State) (f : DmaS → DmaS) : (s.modDma f).boot = s.boot := (rfl)

@[simp] theorem State.modFac_words (s : State) (f : FacetS → FacetS) : (s.modFac f).words = s.words := (rfl)
@[simp] theorem State.modFac_pending (s : State) (f : FacetS → FacetS) : (s.modFac f).pending = s.pending := (rfl)
@[simp] theorem State.modFac_out (s : State) (f : FacetS → FacetS) : (s.modFac f).out = s.out := (rfl)
@[simp] theorem State.modFac_fresh (s : State) (f : FacetS → FacetS) : (s.modFac f).fresh = s.fresh := (rfl)
@[simp] theorem State.modFac_chip (s : State) (f : FacetS → FacetS) : (s.modFac f).chip = s.chip := (rfl)
@[simp] theorem State.modFac_recd (s : State) (f : FacetS → FacetS) : (s.modFac f).recd = s.recd := (rfl)
@[simp] theorem State.modFac_time (s : State) (f : FacetS → FacetS) : (s.modFac f).time = s.time := (rfl)
@[simp] theorem State.modFac_ports (s : State) (f : FacetS → FacetS) : (s.modFac f).ports = s.ports := (rfl)
@[simp] theorem State.modFac_pwr (s : State) (f : FacetS → FacetS) : (s.modFac f).pwr = s.pwr := (rfl)
@[simp] theorem State.modFac_evi (s : State) (f : FacetS → FacetS) : (s.modFac f).evi = s.evi := (rfl)
@[simp] theorem State.modFac_ctxs (s : State) (f : FacetS → FacetS) : (s.modFac f).ctxs = s.ctxs := (rfl)
@[simp] theorem State.modFac_quar (s : State) (f : FacetS → FacetS) : (s.modFac f).quar = s.quar := (rfl)
@[simp] theorem State.modFac_gird (s : State) (f : FacetS → FacetS) : (s.modFac f).gird = s.gird := (rfl)
@[simp] theorem State.modFac_sch (s : State) (f : FacetS → FacetS) : (s.modFac f).sch = s.sch := (rfl)
@[simp] theorem State.modFac_brg (s : State) (f : FacetS → FacetS) : (s.modFac f).brg = s.brg := (rfl)
@[simp] theorem State.modFac_dma (s : State) (f : FacetS → FacetS) : (s.modFac f).dma = s.dma := (rfl)
@[simp] theorem State.modFac_fac (s : State) (f : FacetS → FacetS) : (s.modFac f).fac = f s.fac := (rfl)
@[simp] theorem State.modFac_dp (s : State) (f : FacetS → FacetS) : (s.modFac f).dp = s.dp := (rfl)
@[simp] theorem State.modFac_usb (s : State) (f : FacetS → FacetS) : (s.modFac f).usb = s.usb := (rfl)
@[simp] theorem State.modFac_stn (s : State) (f : FacetS → FacetS) : (s.modFac f).stn = s.stn := (rfl)
@[simp] theorem State.modFac_bzl (s : State) (f : FacetS → FacetS) : (s.modFac f).bzl = s.bzl := (rfl)
@[simp] theorem State.modFac_svc (s : State) (f : FacetS → FacetS) : (s.modFac f).svc = s.svc := (rfl)
@[simp] theorem State.modFac_sec (s : State) (f : FacetS → FacetS) : (s.modFac f).sec = s.sec := (rfl)
@[simp] theorem State.modFac_boot (s : State) (f : FacetS → FacetS) : (s.modFac f).boot = s.boot := (rfl)

@[simp] theorem State.modDp_words (s : State) (f : DisplayS → DisplayS) : (s.modDp f).words = s.words := (rfl)
@[simp] theorem State.modDp_pending (s : State) (f : DisplayS → DisplayS) : (s.modDp f).pending = s.pending := (rfl)
@[simp] theorem State.modDp_out (s : State) (f : DisplayS → DisplayS) : (s.modDp f).out = s.out := (rfl)
@[simp] theorem State.modDp_fresh (s : State) (f : DisplayS → DisplayS) : (s.modDp f).fresh = s.fresh := (rfl)
@[simp] theorem State.modDp_chip (s : State) (f : DisplayS → DisplayS) : (s.modDp f).chip = s.chip := (rfl)
@[simp] theorem State.modDp_recd (s : State) (f : DisplayS → DisplayS) : (s.modDp f).recd = s.recd := (rfl)
@[simp] theorem State.modDp_time (s : State) (f : DisplayS → DisplayS) : (s.modDp f).time = s.time := (rfl)
@[simp] theorem State.modDp_ports (s : State) (f : DisplayS → DisplayS) : (s.modDp f).ports = s.ports := (rfl)
@[simp] theorem State.modDp_pwr (s : State) (f : DisplayS → DisplayS) : (s.modDp f).pwr = s.pwr := (rfl)
@[simp] theorem State.modDp_evi (s : State) (f : DisplayS → DisplayS) : (s.modDp f).evi = s.evi := (rfl)
@[simp] theorem State.modDp_ctxs (s : State) (f : DisplayS → DisplayS) : (s.modDp f).ctxs = s.ctxs := (rfl)
@[simp] theorem State.modDp_quar (s : State) (f : DisplayS → DisplayS) : (s.modDp f).quar = s.quar := (rfl)
@[simp] theorem State.modDp_gird (s : State) (f : DisplayS → DisplayS) : (s.modDp f).gird = s.gird := (rfl)
@[simp] theorem State.modDp_sch (s : State) (f : DisplayS → DisplayS) : (s.modDp f).sch = s.sch := (rfl)
@[simp] theorem State.modDp_brg (s : State) (f : DisplayS → DisplayS) : (s.modDp f).brg = s.brg := (rfl)
@[simp] theorem State.modDp_dma (s : State) (f : DisplayS → DisplayS) : (s.modDp f).dma = s.dma := (rfl)
@[simp] theorem State.modDp_fac (s : State) (f : DisplayS → DisplayS) : (s.modDp f).fac = s.fac := (rfl)
@[simp] theorem State.modDp_dp (s : State) (f : DisplayS → DisplayS) : (s.modDp f).dp = f s.dp := (rfl)
@[simp] theorem State.modDp_usb (s : State) (f : DisplayS → DisplayS) : (s.modDp f).usb = s.usb := (rfl)
@[simp] theorem State.modDp_stn (s : State) (f : DisplayS → DisplayS) : (s.modDp f).stn = s.stn := (rfl)
@[simp] theorem State.modDp_bzl (s : State) (f : DisplayS → DisplayS) : (s.modDp f).bzl = s.bzl := (rfl)
@[simp] theorem State.modDp_svc (s : State) (f : DisplayS → DisplayS) : (s.modDp f).svc = s.svc := (rfl)
@[simp] theorem State.modDp_sec (s : State) (f : DisplayS → DisplayS) : (s.modDp f).sec = s.sec := (rfl)
@[simp] theorem State.modDp_boot (s : State) (f : DisplayS → DisplayS) : (s.modDp f).boot = s.boot := (rfl)

@[simp] theorem State.modUsb_words (s : State) (f : UsbS → UsbS) : (s.modUsb f).words = s.words := (rfl)
@[simp] theorem State.modUsb_pending (s : State) (f : UsbS → UsbS) : (s.modUsb f).pending = s.pending := (rfl)
@[simp] theorem State.modUsb_out (s : State) (f : UsbS → UsbS) : (s.modUsb f).out = s.out := (rfl)
@[simp] theorem State.modUsb_fresh (s : State) (f : UsbS → UsbS) : (s.modUsb f).fresh = s.fresh := (rfl)
@[simp] theorem State.modUsb_chip (s : State) (f : UsbS → UsbS) : (s.modUsb f).chip = s.chip := (rfl)
@[simp] theorem State.modUsb_recd (s : State) (f : UsbS → UsbS) : (s.modUsb f).recd = s.recd := (rfl)
@[simp] theorem State.modUsb_time (s : State) (f : UsbS → UsbS) : (s.modUsb f).time = s.time := (rfl)
@[simp] theorem State.modUsb_ports (s : State) (f : UsbS → UsbS) : (s.modUsb f).ports = s.ports := (rfl)
@[simp] theorem State.modUsb_pwr (s : State) (f : UsbS → UsbS) : (s.modUsb f).pwr = s.pwr := (rfl)
@[simp] theorem State.modUsb_evi (s : State) (f : UsbS → UsbS) : (s.modUsb f).evi = s.evi := (rfl)
@[simp] theorem State.modUsb_ctxs (s : State) (f : UsbS → UsbS) : (s.modUsb f).ctxs = s.ctxs := (rfl)
@[simp] theorem State.modUsb_quar (s : State) (f : UsbS → UsbS) : (s.modUsb f).quar = s.quar := (rfl)
@[simp] theorem State.modUsb_gird (s : State) (f : UsbS → UsbS) : (s.modUsb f).gird = s.gird := (rfl)
@[simp] theorem State.modUsb_sch (s : State) (f : UsbS → UsbS) : (s.modUsb f).sch = s.sch := (rfl)
@[simp] theorem State.modUsb_brg (s : State) (f : UsbS → UsbS) : (s.modUsb f).brg = s.brg := (rfl)
@[simp] theorem State.modUsb_dma (s : State) (f : UsbS → UsbS) : (s.modUsb f).dma = s.dma := (rfl)
@[simp] theorem State.modUsb_fac (s : State) (f : UsbS → UsbS) : (s.modUsb f).fac = s.fac := (rfl)
@[simp] theorem State.modUsb_dp (s : State) (f : UsbS → UsbS) : (s.modUsb f).dp = s.dp := (rfl)
@[simp] theorem State.modUsb_usb (s : State) (f : UsbS → UsbS) : (s.modUsb f).usb = f s.usb := (rfl)
@[simp] theorem State.modUsb_stn (s : State) (f : UsbS → UsbS) : (s.modUsb f).stn = s.stn := (rfl)
@[simp] theorem State.modUsb_bzl (s : State) (f : UsbS → UsbS) : (s.modUsb f).bzl = s.bzl := (rfl)
@[simp] theorem State.modUsb_svc (s : State) (f : UsbS → UsbS) : (s.modUsb f).svc = s.svc := (rfl)
@[simp] theorem State.modUsb_sec (s : State) (f : UsbS → UsbS) : (s.modUsb f).sec = s.sec := (rfl)
@[simp] theorem State.modUsb_boot (s : State) (f : UsbS → UsbS) : (s.modUsb f).boot = s.boot := (rfl)

@[simp] theorem State.modStn_words (s : State) (f : StationS → StationS) : (s.modStn f).words = s.words := (rfl)
@[simp] theorem State.modStn_pending (s : State) (f : StationS → StationS) : (s.modStn f).pending = s.pending := (rfl)
@[simp] theorem State.modStn_out (s : State) (f : StationS → StationS) : (s.modStn f).out = s.out := (rfl)
@[simp] theorem State.modStn_fresh (s : State) (f : StationS → StationS) : (s.modStn f).fresh = s.fresh := (rfl)
@[simp] theorem State.modStn_chip (s : State) (f : StationS → StationS) : (s.modStn f).chip = s.chip := (rfl)
@[simp] theorem State.modStn_recd (s : State) (f : StationS → StationS) : (s.modStn f).recd = s.recd := (rfl)
@[simp] theorem State.modStn_time (s : State) (f : StationS → StationS) : (s.modStn f).time = s.time := (rfl)
@[simp] theorem State.modStn_ports (s : State) (f : StationS → StationS) : (s.modStn f).ports = s.ports := (rfl)
@[simp] theorem State.modStn_pwr (s : State) (f : StationS → StationS) : (s.modStn f).pwr = s.pwr := (rfl)
@[simp] theorem State.modStn_evi (s : State) (f : StationS → StationS) : (s.modStn f).evi = s.evi := (rfl)
@[simp] theorem State.modStn_ctxs (s : State) (f : StationS → StationS) : (s.modStn f).ctxs = s.ctxs := (rfl)
@[simp] theorem State.modStn_quar (s : State) (f : StationS → StationS) : (s.modStn f).quar = s.quar := (rfl)
@[simp] theorem State.modStn_gird (s : State) (f : StationS → StationS) : (s.modStn f).gird = s.gird := (rfl)
@[simp] theorem State.modStn_sch (s : State) (f : StationS → StationS) : (s.modStn f).sch = s.sch := (rfl)
@[simp] theorem State.modStn_brg (s : State) (f : StationS → StationS) : (s.modStn f).brg = s.brg := (rfl)
@[simp] theorem State.modStn_dma (s : State) (f : StationS → StationS) : (s.modStn f).dma = s.dma := (rfl)
@[simp] theorem State.modStn_fac (s : State) (f : StationS → StationS) : (s.modStn f).fac = s.fac := (rfl)
@[simp] theorem State.modStn_dp (s : State) (f : StationS → StationS) : (s.modStn f).dp = s.dp := (rfl)
@[simp] theorem State.modStn_usb (s : State) (f : StationS → StationS) : (s.modStn f).usb = s.usb := (rfl)
@[simp] theorem State.modStn_stn (s : State) (f : StationS → StationS) : (s.modStn f).stn = f s.stn := (rfl)
@[simp] theorem State.modStn_bzl (s : State) (f : StationS → StationS) : (s.modStn f).bzl = s.bzl := (rfl)
@[simp] theorem State.modStn_svc (s : State) (f : StationS → StationS) : (s.modStn f).svc = s.svc := (rfl)
@[simp] theorem State.modStn_sec (s : State) (f : StationS → StationS) : (s.modStn f).sec = s.sec := (rfl)
@[simp] theorem State.modStn_boot (s : State) (f : StationS → StationS) : (s.modStn f).boot = s.boot := (rfl)

@[simp] theorem State.modBzl_words (s : State) (f : BezelS → BezelS) : (s.modBzl f).words = s.words := (rfl)
@[simp] theorem State.modBzl_pending (s : State) (f : BezelS → BezelS) : (s.modBzl f).pending = s.pending := (rfl)
@[simp] theorem State.modBzl_out (s : State) (f : BezelS → BezelS) : (s.modBzl f).out = s.out := (rfl)
@[simp] theorem State.modBzl_fresh (s : State) (f : BezelS → BezelS) : (s.modBzl f).fresh = s.fresh := (rfl)
@[simp] theorem State.modBzl_chip (s : State) (f : BezelS → BezelS) : (s.modBzl f).chip = s.chip := (rfl)
@[simp] theorem State.modBzl_recd (s : State) (f : BezelS → BezelS) : (s.modBzl f).recd = s.recd := (rfl)
@[simp] theorem State.modBzl_time (s : State) (f : BezelS → BezelS) : (s.modBzl f).time = s.time := (rfl)
@[simp] theorem State.modBzl_ports (s : State) (f : BezelS → BezelS) : (s.modBzl f).ports = s.ports := (rfl)
@[simp] theorem State.modBzl_pwr (s : State) (f : BezelS → BezelS) : (s.modBzl f).pwr = s.pwr := (rfl)
@[simp] theorem State.modBzl_evi (s : State) (f : BezelS → BezelS) : (s.modBzl f).evi = s.evi := (rfl)
@[simp] theorem State.modBzl_ctxs (s : State) (f : BezelS → BezelS) : (s.modBzl f).ctxs = s.ctxs := (rfl)
@[simp] theorem State.modBzl_quar (s : State) (f : BezelS → BezelS) : (s.modBzl f).quar = s.quar := (rfl)
@[simp] theorem State.modBzl_gird (s : State) (f : BezelS → BezelS) : (s.modBzl f).gird = s.gird := (rfl)
@[simp] theorem State.modBzl_sch (s : State) (f : BezelS → BezelS) : (s.modBzl f).sch = s.sch := (rfl)
@[simp] theorem State.modBzl_brg (s : State) (f : BezelS → BezelS) : (s.modBzl f).brg = s.brg := (rfl)
@[simp] theorem State.modBzl_dma (s : State) (f : BezelS → BezelS) : (s.modBzl f).dma = s.dma := (rfl)
@[simp] theorem State.modBzl_fac (s : State) (f : BezelS → BezelS) : (s.modBzl f).fac = s.fac := (rfl)
@[simp] theorem State.modBzl_dp (s : State) (f : BezelS → BezelS) : (s.modBzl f).dp = s.dp := (rfl)
@[simp] theorem State.modBzl_usb (s : State) (f : BezelS → BezelS) : (s.modBzl f).usb = s.usb := (rfl)
@[simp] theorem State.modBzl_stn (s : State) (f : BezelS → BezelS) : (s.modBzl f).stn = s.stn := (rfl)
@[simp] theorem State.modBzl_bzl (s : State) (f : BezelS → BezelS) : (s.modBzl f).bzl = f s.bzl := (rfl)
@[simp] theorem State.modBzl_svc (s : State) (f : BezelS → BezelS) : (s.modBzl f).svc = s.svc := (rfl)
@[simp] theorem State.modBzl_sec (s : State) (f : BezelS → BezelS) : (s.modBzl f).sec = s.sec := (rfl)
@[simp] theorem State.modBzl_boot (s : State) (f : BezelS → BezelS) : (s.modBzl f).boot = s.boot := (rfl)

@[simp] theorem State.modSvc_words (s : State) (f : ServiceS → ServiceS) : (s.modSvc f).words = s.words := (rfl)
@[simp] theorem State.modSvc_pending (s : State) (f : ServiceS → ServiceS) : (s.modSvc f).pending = s.pending := (rfl)
@[simp] theorem State.modSvc_out (s : State) (f : ServiceS → ServiceS) : (s.modSvc f).out = s.out := (rfl)
@[simp] theorem State.modSvc_fresh (s : State) (f : ServiceS → ServiceS) : (s.modSvc f).fresh = s.fresh := (rfl)
@[simp] theorem State.modSvc_chip (s : State) (f : ServiceS → ServiceS) : (s.modSvc f).chip = s.chip := (rfl)
@[simp] theorem State.modSvc_recd (s : State) (f : ServiceS → ServiceS) : (s.modSvc f).recd = s.recd := (rfl)
@[simp] theorem State.modSvc_time (s : State) (f : ServiceS → ServiceS) : (s.modSvc f).time = s.time := (rfl)
@[simp] theorem State.modSvc_ports (s : State) (f : ServiceS → ServiceS) : (s.modSvc f).ports = s.ports := (rfl)
@[simp] theorem State.modSvc_pwr (s : State) (f : ServiceS → ServiceS) : (s.modSvc f).pwr = s.pwr := (rfl)
@[simp] theorem State.modSvc_evi (s : State) (f : ServiceS → ServiceS) : (s.modSvc f).evi = s.evi := (rfl)
@[simp] theorem State.modSvc_ctxs (s : State) (f : ServiceS → ServiceS) : (s.modSvc f).ctxs = s.ctxs := (rfl)
@[simp] theorem State.modSvc_quar (s : State) (f : ServiceS → ServiceS) : (s.modSvc f).quar = s.quar := (rfl)
@[simp] theorem State.modSvc_gird (s : State) (f : ServiceS → ServiceS) : (s.modSvc f).gird = s.gird := (rfl)
@[simp] theorem State.modSvc_sch (s : State) (f : ServiceS → ServiceS) : (s.modSvc f).sch = s.sch := (rfl)
@[simp] theorem State.modSvc_brg (s : State) (f : ServiceS → ServiceS) : (s.modSvc f).brg = s.brg := (rfl)
@[simp] theorem State.modSvc_dma (s : State) (f : ServiceS → ServiceS) : (s.modSvc f).dma = s.dma := (rfl)
@[simp] theorem State.modSvc_fac (s : State) (f : ServiceS → ServiceS) : (s.modSvc f).fac = s.fac := (rfl)
@[simp] theorem State.modSvc_dp (s : State) (f : ServiceS → ServiceS) : (s.modSvc f).dp = s.dp := (rfl)
@[simp] theorem State.modSvc_usb (s : State) (f : ServiceS → ServiceS) : (s.modSvc f).usb = s.usb := (rfl)
@[simp] theorem State.modSvc_stn (s : State) (f : ServiceS → ServiceS) : (s.modSvc f).stn = s.stn := (rfl)
@[simp] theorem State.modSvc_bzl (s : State) (f : ServiceS → ServiceS) : (s.modSvc f).bzl = s.bzl := (rfl)
@[simp] theorem State.modSvc_svc (s : State) (f : ServiceS → ServiceS) : (s.modSvc f).svc = f s.svc := (rfl)
@[simp] theorem State.modSvc_sec (s : State) (f : ServiceS → ServiceS) : (s.modSvc f).sec = s.sec := (rfl)
@[simp] theorem State.modSvc_boot (s : State) (f : ServiceS → ServiceS) : (s.modSvc f).boot = s.boot := (rfl)

@[simp] theorem State.modSec_words (s : State) (f : SecS → SecS) : (s.modSec f).words = s.words := (rfl)
@[simp] theorem State.modSec_pending (s : State) (f : SecS → SecS) : (s.modSec f).pending = s.pending := (rfl)
@[simp] theorem State.modSec_out (s : State) (f : SecS → SecS) : (s.modSec f).out = s.out := (rfl)
@[simp] theorem State.modSec_fresh (s : State) (f : SecS → SecS) : (s.modSec f).fresh = s.fresh := (rfl)
@[simp] theorem State.modSec_chip (s : State) (f : SecS → SecS) : (s.modSec f).chip = s.chip := (rfl)
@[simp] theorem State.modSec_recd (s : State) (f : SecS → SecS) : (s.modSec f).recd = s.recd := (rfl)
@[simp] theorem State.modSec_time (s : State) (f : SecS → SecS) : (s.modSec f).time = s.time := (rfl)
@[simp] theorem State.modSec_ports (s : State) (f : SecS → SecS) : (s.modSec f).ports = s.ports := (rfl)
@[simp] theorem State.modSec_pwr (s : State) (f : SecS → SecS) : (s.modSec f).pwr = s.pwr := (rfl)
@[simp] theorem State.modSec_evi (s : State) (f : SecS → SecS) : (s.modSec f).evi = s.evi := (rfl)
@[simp] theorem State.modSec_ctxs (s : State) (f : SecS → SecS) : (s.modSec f).ctxs = s.ctxs := (rfl)
@[simp] theorem State.modSec_quar (s : State) (f : SecS → SecS) : (s.modSec f).quar = s.quar := (rfl)
@[simp] theorem State.modSec_gird (s : State) (f : SecS → SecS) : (s.modSec f).gird = s.gird := (rfl)
@[simp] theorem State.modSec_sch (s : State) (f : SecS → SecS) : (s.modSec f).sch = s.sch := (rfl)
@[simp] theorem State.modSec_brg (s : State) (f : SecS → SecS) : (s.modSec f).brg = s.brg := (rfl)
@[simp] theorem State.modSec_dma (s : State) (f : SecS → SecS) : (s.modSec f).dma = s.dma := (rfl)
@[simp] theorem State.modSec_fac (s : State) (f : SecS → SecS) : (s.modSec f).fac = s.fac := (rfl)
@[simp] theorem State.modSec_dp (s : State) (f : SecS → SecS) : (s.modSec f).dp = s.dp := (rfl)
@[simp] theorem State.modSec_usb (s : State) (f : SecS → SecS) : (s.modSec f).usb = s.usb := (rfl)
@[simp] theorem State.modSec_stn (s : State) (f : SecS → SecS) : (s.modSec f).stn = s.stn := (rfl)
@[simp] theorem State.modSec_bzl (s : State) (f : SecS → SecS) : (s.modSec f).bzl = s.bzl := (rfl)
@[simp] theorem State.modSec_svc (s : State) (f : SecS → SecS) : (s.modSec f).svc = s.svc := (rfl)
@[simp] theorem State.modSec_sec (s : State) (f : SecS → SecS) : (s.modSec f).sec = f s.sec := (rfl)
@[simp] theorem State.modSec_boot (s : State) (f : SecS → SecS) : (s.modSec f).boot = s.boot := (rfl)

@[simp] theorem State.modBoot_words (s : State) (f : BootS → BootS) : (s.modBoot f).words = s.words := (rfl)
@[simp] theorem State.modBoot_pending (s : State) (f : BootS → BootS) : (s.modBoot f).pending = s.pending := (rfl)
@[simp] theorem State.modBoot_out (s : State) (f : BootS → BootS) : (s.modBoot f).out = s.out := (rfl)
@[simp] theorem State.modBoot_fresh (s : State) (f : BootS → BootS) : (s.modBoot f).fresh = s.fresh := (rfl)
@[simp] theorem State.modBoot_chip (s : State) (f : BootS → BootS) : (s.modBoot f).chip = s.chip := (rfl)
@[simp] theorem State.modBoot_recd (s : State) (f : BootS → BootS) : (s.modBoot f).recd = s.recd := (rfl)
@[simp] theorem State.modBoot_time (s : State) (f : BootS → BootS) : (s.modBoot f).time = s.time := (rfl)
@[simp] theorem State.modBoot_ports (s : State) (f : BootS → BootS) : (s.modBoot f).ports = s.ports := (rfl)
@[simp] theorem State.modBoot_pwr (s : State) (f : BootS → BootS) : (s.modBoot f).pwr = s.pwr := (rfl)
@[simp] theorem State.modBoot_evi (s : State) (f : BootS → BootS) : (s.modBoot f).evi = s.evi := (rfl)
@[simp] theorem State.modBoot_ctxs (s : State) (f : BootS → BootS) : (s.modBoot f).ctxs = s.ctxs := (rfl)
@[simp] theorem State.modBoot_quar (s : State) (f : BootS → BootS) : (s.modBoot f).quar = s.quar := (rfl)
@[simp] theorem State.modBoot_gird (s : State) (f : BootS → BootS) : (s.modBoot f).gird = s.gird := (rfl)
@[simp] theorem State.modBoot_sch (s : State) (f : BootS → BootS) : (s.modBoot f).sch = s.sch := (rfl)
@[simp] theorem State.modBoot_brg (s : State) (f : BootS → BootS) : (s.modBoot f).brg = s.brg := (rfl)
@[simp] theorem State.modBoot_dma (s : State) (f : BootS → BootS) : (s.modBoot f).dma = s.dma := (rfl)
@[simp] theorem State.modBoot_fac (s : State) (f : BootS → BootS) : (s.modBoot f).fac = s.fac := (rfl)
@[simp] theorem State.modBoot_dp (s : State) (f : BootS → BootS) : (s.modBoot f).dp = s.dp := (rfl)
@[simp] theorem State.modBoot_usb (s : State) (f : BootS → BootS) : (s.modBoot f).usb = s.usb := (rfl)
@[simp] theorem State.modBoot_stn (s : State) (f : BootS → BootS) : (s.modBoot f).stn = s.stn := (rfl)
@[simp] theorem State.modBoot_bzl (s : State) (f : BootS → BootS) : (s.modBoot f).bzl = s.bzl := (rfl)
@[simp] theorem State.modBoot_svc (s : State) (f : BootS → BootS) : (s.modBoot f).svc = s.svc := (rfl)
@[simp] theorem State.modBoot_sec (s : State) (f : BootS → BootS) : (s.modBoot f).sec = s.sec := (rfl)
@[simp] theorem State.modBoot_boot (s : State) (f : BootS → BootS) : (s.modBoot f).boot = f s.boot := (rfl)

@[simp] theorem State.modPort_words (s : State) (n : Nat) (f : Port → Port) : (s.modPort n f).words = s.words := (rfl)
@[simp] theorem State.modPort_pending (s : State) (n : Nat) (f : Port → Port) : (s.modPort n f).pending = s.pending := (rfl)
@[simp] theorem State.modPort_out (s : State) (n : Nat) (f : Port → Port) : (s.modPort n f).out = s.out := (rfl)
@[simp] theorem State.modPort_fresh (s : State) (n : Nat) (f : Port → Port) : (s.modPort n f).fresh = s.fresh := (rfl)
@[simp] theorem State.modPort_chip (s : State) (n : Nat) (f : Port → Port) : (s.modPort n f).chip = s.chip := (rfl)
@[simp] theorem State.modPort_recd (s : State) (n : Nat) (f : Port → Port) : (s.modPort n f).recd = s.recd := (rfl)
@[simp] theorem State.modPort_time (s : State) (n : Nat) (f : Port → Port) : (s.modPort n f).time = s.time := (rfl)
@[simp] theorem State.modPort_pwr (s : State) (n : Nat) (f : Port → Port) : (s.modPort n f).pwr = s.pwr := (rfl)
@[simp] theorem State.modPort_evi (s : State) (n : Nat) (f : Port → Port) : (s.modPort n f).evi = s.evi := (rfl)
@[simp] theorem State.modPort_ctxs (s : State) (n : Nat) (f : Port → Port) : (s.modPort n f).ctxs = s.ctxs := (rfl)
@[simp] theorem State.modPort_quar (s : State) (n : Nat) (f : Port → Port) : (s.modPort n f).quar = s.quar := (rfl)
@[simp] theorem State.modPort_gird (s : State) (n : Nat) (f : Port → Port) : (s.modPort n f).gird = s.gird := (rfl)
@[simp] theorem State.modPort_sch (s : State) (n : Nat) (f : Port → Port) : (s.modPort n f).sch = s.sch := (rfl)
@[simp] theorem State.modPort_brg (s : State) (n : Nat) (f : Port → Port) : (s.modPort n f).brg = s.brg := (rfl)
@[simp] theorem State.modPort_dma (s : State) (n : Nat) (f : Port → Port) : (s.modPort n f).dma = s.dma := (rfl)
@[simp] theorem State.modPort_fac (s : State) (n : Nat) (f : Port → Port) : (s.modPort n f).fac = s.fac := (rfl)
@[simp] theorem State.modPort_dp (s : State) (n : Nat) (f : Port → Port) : (s.modPort n f).dp = s.dp := (rfl)
@[simp] theorem State.modPort_usb (s : State) (n : Nat) (f : Port → Port) : (s.modPort n f).usb = s.usb := (rfl)
@[simp] theorem State.modPort_stn (s : State) (n : Nat) (f : Port → Port) : (s.modPort n f).stn = s.stn := (rfl)
@[simp] theorem State.modPort_bzl (s : State) (n : Nat) (f : Port → Port) : (s.modPort n f).bzl = s.bzl := (rfl)
@[simp] theorem State.modPort_svc (s : State) (n : Nat) (f : Port → Port) : (s.modPort n f).svc = s.svc := (rfl)
@[simp] theorem State.modPort_sec (s : State) (n : Nat) (f : Port → Port) : (s.modPort n f).sec = s.sec := (rfl)
@[simp] theorem State.modPort_boot (s : State) (n : Nat) (f : Port → Port) : (s.modPort n f).boot = s.boot := (rfl)

@[simp] theorem State.modCtx_words (s : State) (c : Nat) (f : CtxS → CtxS) : (s.modCtx c f).words = s.words := (rfl)
@[simp] theorem State.modCtx_pending (s : State) (c : Nat) (f : CtxS → CtxS) : (s.modCtx c f).pending = s.pending := (rfl)
@[simp] theorem State.modCtx_out (s : State) (c : Nat) (f : CtxS → CtxS) : (s.modCtx c f).out = s.out := (rfl)
@[simp] theorem State.modCtx_fresh (s : State) (c : Nat) (f : CtxS → CtxS) : (s.modCtx c f).fresh = s.fresh := (rfl)
@[simp] theorem State.modCtx_chip (s : State) (c : Nat) (f : CtxS → CtxS) : (s.modCtx c f).chip = s.chip := (rfl)
@[simp] theorem State.modCtx_recd (s : State) (c : Nat) (f : CtxS → CtxS) : (s.modCtx c f).recd = s.recd := (rfl)
@[simp] theorem State.modCtx_time (s : State) (c : Nat) (f : CtxS → CtxS) : (s.modCtx c f).time = s.time := (rfl)
@[simp] theorem State.modCtx_ports (s : State) (c : Nat) (f : CtxS → CtxS) : (s.modCtx c f).ports = s.ports := (rfl)
@[simp] theorem State.modCtx_pwr (s : State) (c : Nat) (f : CtxS → CtxS) : (s.modCtx c f).pwr = s.pwr := (rfl)
@[simp] theorem State.modCtx_evi (s : State) (c : Nat) (f : CtxS → CtxS) : (s.modCtx c f).evi = s.evi := (rfl)
@[simp] theorem State.modCtx_quar (s : State) (c : Nat) (f : CtxS → CtxS) : (s.modCtx c f).quar = s.quar := (rfl)
@[simp] theorem State.modCtx_gird (s : State) (c : Nat) (f : CtxS → CtxS) : (s.modCtx c f).gird = s.gird := (rfl)
@[simp] theorem State.modCtx_sch (s : State) (c : Nat) (f : CtxS → CtxS) : (s.modCtx c f).sch = s.sch := (rfl)
@[simp] theorem State.modCtx_brg (s : State) (c : Nat) (f : CtxS → CtxS) : (s.modCtx c f).brg = s.brg := (rfl)
@[simp] theorem State.modCtx_dma (s : State) (c : Nat) (f : CtxS → CtxS) : (s.modCtx c f).dma = s.dma := (rfl)
@[simp] theorem State.modCtx_fac (s : State) (c : Nat) (f : CtxS → CtxS) : (s.modCtx c f).fac = s.fac := (rfl)
@[simp] theorem State.modCtx_dp (s : State) (c : Nat) (f : CtxS → CtxS) : (s.modCtx c f).dp = s.dp := (rfl)
@[simp] theorem State.modCtx_usb (s : State) (c : Nat) (f : CtxS → CtxS) : (s.modCtx c f).usb = s.usb := (rfl)
@[simp] theorem State.modCtx_stn (s : State) (c : Nat) (f : CtxS → CtxS) : (s.modCtx c f).stn = s.stn := (rfl)
@[simp] theorem State.modCtx_bzl (s : State) (c : Nat) (f : CtxS → CtxS) : (s.modCtx c f).bzl = s.bzl := (rfl)
@[simp] theorem State.modCtx_svc (s : State) (c : Nat) (f : CtxS → CtxS) : (s.modCtx c f).svc = s.svc := (rfl)
@[simp] theorem State.modCtx_sec (s : State) (c : Nat) (f : CtxS → CtxS) : (s.modCtx c f).sec = s.sec := (rfl)
@[simp] theorem State.modCtx_boot (s : State) (c : Nat) (f : CtxS → CtxS) : (s.modCtx c f).boot = s.boot := (rfl)

@[simp] theorem State.modGcl_words (s : State) (l : Nat) (f : GclS → GclS) : (s.modGcl l f).words = s.words := (rfl)
@[simp] theorem State.modGcl_pending (s : State) (l : Nat) (f : GclS → GclS) : (s.modGcl l f).pending = s.pending := (rfl)
@[simp] theorem State.modGcl_out (s : State) (l : Nat) (f : GclS → GclS) : (s.modGcl l f).out = s.out := (rfl)
@[simp] theorem State.modGcl_fresh (s : State) (l : Nat) (f : GclS → GclS) : (s.modGcl l f).fresh = s.fresh := (rfl)
@[simp] theorem State.modGcl_chip (s : State) (l : Nat) (f : GclS → GclS) : (s.modGcl l f).chip = s.chip := (rfl)
@[simp] theorem State.modGcl_recd (s : State) (l : Nat) (f : GclS → GclS) : (s.modGcl l f).recd = s.recd := (rfl)
@[simp] theorem State.modGcl_time (s : State) (l : Nat) (f : GclS → GclS) : (s.modGcl l f).time = s.time := (rfl)
@[simp] theorem State.modGcl_ports (s : State) (l : Nat) (f : GclS → GclS) : (s.modGcl l f).ports = s.ports := (rfl)
@[simp] theorem State.modGcl_pwr (s : State) (l : Nat) (f : GclS → GclS) : (s.modGcl l f).pwr = s.pwr := (rfl)
@[simp] theorem State.modGcl_evi (s : State) (l : Nat) (f : GclS → GclS) : (s.modGcl l f).evi = s.evi := (rfl)
@[simp] theorem State.modGcl_ctxs (s : State) (l : Nat) (f : GclS → GclS) : (s.modGcl l f).ctxs = s.ctxs := (rfl)
@[simp] theorem State.modGcl_quar (s : State) (l : Nat) (f : GclS → GclS) : (s.modGcl l f).quar = s.quar := (rfl)
@[simp] theorem State.modGcl_gird (s : State) (l : Nat) (f : GclS → GclS) : (s.modGcl l f).gird = s.gird := (rfl)
@[simp] theorem State.modGcl_brg (s : State) (l : Nat) (f : GclS → GclS) : (s.modGcl l f).brg = s.brg := (rfl)
@[simp] theorem State.modGcl_dma (s : State) (l : Nat) (f : GclS → GclS) : (s.modGcl l f).dma = s.dma := (rfl)
@[simp] theorem State.modGcl_fac (s : State) (l : Nat) (f : GclS → GclS) : (s.modGcl l f).fac = s.fac := (rfl)
@[simp] theorem State.modGcl_dp (s : State) (l : Nat) (f : GclS → GclS) : (s.modGcl l f).dp = s.dp := (rfl)
@[simp] theorem State.modGcl_usb (s : State) (l : Nat) (f : GclS → GclS) : (s.modGcl l f).usb = s.usb := (rfl)
@[simp] theorem State.modGcl_stn (s : State) (l : Nat) (f : GclS → GclS) : (s.modGcl l f).stn = s.stn := (rfl)
@[simp] theorem State.modGcl_bzl (s : State) (l : Nat) (f : GclS → GclS) : (s.modGcl l f).bzl = s.bzl := (rfl)
@[simp] theorem State.modGcl_svc (s : State) (l : Nat) (f : GclS → GclS) : (s.modGcl l f).svc = s.svc := (rfl)
@[simp] theorem State.modGcl_sec (s : State) (l : Nat) (f : GclS → GclS) : (s.modGcl l f).sec = s.sec := (rfl)
@[simp] theorem State.modGcl_boot (s : State) (l : Nat) (f : GclS → GclS) : (s.modGcl l f).boot = s.boot := (rfl)

@[simp] theorem State.modTr_words (s : State) (n : Nat) (f : Train → Train) : (s.modTr n f).words = s.words := (rfl)
@[simp] theorem State.modTr_pending (s : State) (n : Nat) (f : Train → Train) : (s.modTr n f).pending = s.pending := (rfl)
@[simp] theorem State.modTr_out (s : State) (n : Nat) (f : Train → Train) : (s.modTr n f).out = s.out := (rfl)
@[simp] theorem State.modTr_fresh (s : State) (n : Nat) (f : Train → Train) : (s.modTr n f).fresh = s.fresh := (rfl)
@[simp] theorem State.modTr_chip (s : State) (n : Nat) (f : Train → Train) : (s.modTr n f).chip = s.chip := (rfl)
@[simp] theorem State.modTr_recd (s : State) (n : Nat) (f : Train → Train) : (s.modTr n f).recd = s.recd := (rfl)
@[simp] theorem State.modTr_time (s : State) (n : Nat) (f : Train → Train) : (s.modTr n f).time = s.time := (rfl)
@[simp] theorem State.modTr_pwr (s : State) (n : Nat) (f : Train → Train) : (s.modTr n f).pwr = s.pwr := (rfl)
@[simp] theorem State.modTr_evi (s : State) (n : Nat) (f : Train → Train) : (s.modTr n f).evi = s.evi := (rfl)
@[simp] theorem State.modTr_ctxs (s : State) (n : Nat) (f : Train → Train) : (s.modTr n f).ctxs = s.ctxs := (rfl)
@[simp] theorem State.modTr_quar (s : State) (n : Nat) (f : Train → Train) : (s.modTr n f).quar = s.quar := (rfl)
@[simp] theorem State.modTr_gird (s : State) (n : Nat) (f : Train → Train) : (s.modTr n f).gird = s.gird := (rfl)
@[simp] theorem State.modTr_sch (s : State) (n : Nat) (f : Train → Train) : (s.modTr n f).sch = s.sch := (rfl)
@[simp] theorem State.modTr_brg (s : State) (n : Nat) (f : Train → Train) : (s.modTr n f).brg = s.brg := (rfl)
@[simp] theorem State.modTr_dma (s : State) (n : Nat) (f : Train → Train) : (s.modTr n f).dma = s.dma := (rfl)
@[simp] theorem State.modTr_fac (s : State) (n : Nat) (f : Train → Train) : (s.modTr n f).fac = s.fac := (rfl)
@[simp] theorem State.modTr_dp (s : State) (n : Nat) (f : Train → Train) : (s.modTr n f).dp = s.dp := (rfl)
@[simp] theorem State.modTr_usb (s : State) (n : Nat) (f : Train → Train) : (s.modTr n f).usb = s.usb := (rfl)
@[simp] theorem State.modTr_stn (s : State) (n : Nat) (f : Train → Train) : (s.modTr n f).stn = s.stn := (rfl)
@[simp] theorem State.modTr_bzl (s : State) (n : Nat) (f : Train → Train) : (s.modTr n f).bzl = s.bzl := (rfl)
@[simp] theorem State.modTr_svc (s : State) (n : Nat) (f : Train → Train) : (s.modTr n f).svc = s.svc := (rfl)
@[simp] theorem State.modTr_sec (s : State) (n : Nat) (f : Train → Train) : (s.modTr n f).sec = s.sec := (rfl)
@[simp] theorem State.modTr_boot (s : State) (n : Nat) (f : Train → Train) : (s.modTr n f).boot = s.boot := (rfl)

@[simp] theorem State.modEp_words (s : State) (n : Nat) (f : Epoch → Epoch) : (s.modEp n f).words = s.words := (rfl)
@[simp] theorem State.modEp_pending (s : State) (n : Nat) (f : Epoch → Epoch) : (s.modEp n f).pending = s.pending := (rfl)
@[simp] theorem State.modEp_out (s : State) (n : Nat) (f : Epoch → Epoch) : (s.modEp n f).out = s.out := (rfl)
@[simp] theorem State.modEp_fresh (s : State) (n : Nat) (f : Epoch → Epoch) : (s.modEp n f).fresh = s.fresh := (rfl)
@[simp] theorem State.modEp_chip (s : State) (n : Nat) (f : Epoch → Epoch) : (s.modEp n f).chip = s.chip := (rfl)
@[simp] theorem State.modEp_recd (s : State) (n : Nat) (f : Epoch → Epoch) : (s.modEp n f).recd = s.recd := (rfl)
@[simp] theorem State.modEp_time (s : State) (n : Nat) (f : Epoch → Epoch) : (s.modEp n f).time = s.time := (rfl)
@[simp] theorem State.modEp_pwr (s : State) (n : Nat) (f : Epoch → Epoch) : (s.modEp n f).pwr = s.pwr := (rfl)
@[simp] theorem State.modEp_evi (s : State) (n : Nat) (f : Epoch → Epoch) : (s.modEp n f).evi = s.evi := (rfl)
@[simp] theorem State.modEp_ctxs (s : State) (n : Nat) (f : Epoch → Epoch) : (s.modEp n f).ctxs = s.ctxs := (rfl)
@[simp] theorem State.modEp_quar (s : State) (n : Nat) (f : Epoch → Epoch) : (s.modEp n f).quar = s.quar := (rfl)
@[simp] theorem State.modEp_gird (s : State) (n : Nat) (f : Epoch → Epoch) : (s.modEp n f).gird = s.gird := (rfl)
@[simp] theorem State.modEp_sch (s : State) (n : Nat) (f : Epoch → Epoch) : (s.modEp n f).sch = s.sch := (rfl)
@[simp] theorem State.modEp_brg (s : State) (n : Nat) (f : Epoch → Epoch) : (s.modEp n f).brg = s.brg := (rfl)
@[simp] theorem State.modEp_dma (s : State) (n : Nat) (f : Epoch → Epoch) : (s.modEp n f).dma = s.dma := (rfl)
@[simp] theorem State.modEp_fac (s : State) (n : Nat) (f : Epoch → Epoch) : (s.modEp n f).fac = s.fac := (rfl)
@[simp] theorem State.modEp_dp (s : State) (n : Nat) (f : Epoch → Epoch) : (s.modEp n f).dp = s.dp := (rfl)
@[simp] theorem State.modEp_usb (s : State) (n : Nat) (f : Epoch → Epoch) : (s.modEp n f).usb = s.usb := (rfl)
@[simp] theorem State.modEp_stn (s : State) (n : Nat) (f : Epoch → Epoch) : (s.modEp n f).stn = s.stn := (rfl)
@[simp] theorem State.modEp_bzl (s : State) (n : Nat) (f : Epoch → Epoch) : (s.modEp n f).bzl = s.bzl := (rfl)
@[simp] theorem State.modEp_svc (s : State) (n : Nat) (f : Epoch → Epoch) : (s.modEp n f).svc = s.svc := (rfl)
@[simp] theorem State.modEp_sec (s : State) (n : Nat) (f : Epoch → Epoch) : (s.modEp n f).sec = s.sec := (rfl)
@[simp] theorem State.modEp_boot (s : State) (n : Nat) (f : Epoch → Epoch) : (s.modEp n f).boot = s.boot := (rfl)

@[simp] theorem State.modTm_words (s : State) (n : Nat) (f : LinkTime → LinkTime) : (s.modTm n f).words = s.words := (rfl)
@[simp] theorem State.modTm_pending (s : State) (n : Nat) (f : LinkTime → LinkTime) : (s.modTm n f).pending = s.pending := (rfl)
@[simp] theorem State.modTm_out (s : State) (n : Nat) (f : LinkTime → LinkTime) : (s.modTm n f).out = s.out := (rfl)
@[simp] theorem State.modTm_fresh (s : State) (n : Nat) (f : LinkTime → LinkTime) : (s.modTm n f).fresh = s.fresh := (rfl)
@[simp] theorem State.modTm_chip (s : State) (n : Nat) (f : LinkTime → LinkTime) : (s.modTm n f).chip = s.chip := (rfl)
@[simp] theorem State.modTm_recd (s : State) (n : Nat) (f : LinkTime → LinkTime) : (s.modTm n f).recd = s.recd := (rfl)
@[simp] theorem State.modTm_time (s : State) (n : Nat) (f : LinkTime → LinkTime) : (s.modTm n f).time = s.time := (rfl)
@[simp] theorem State.modTm_pwr (s : State) (n : Nat) (f : LinkTime → LinkTime) : (s.modTm n f).pwr = s.pwr := (rfl)
@[simp] theorem State.modTm_evi (s : State) (n : Nat) (f : LinkTime → LinkTime) : (s.modTm n f).evi = s.evi := (rfl)
@[simp] theorem State.modTm_ctxs (s : State) (n : Nat) (f : LinkTime → LinkTime) : (s.modTm n f).ctxs = s.ctxs := (rfl)
@[simp] theorem State.modTm_quar (s : State) (n : Nat) (f : LinkTime → LinkTime) : (s.modTm n f).quar = s.quar := (rfl)
@[simp] theorem State.modTm_gird (s : State) (n : Nat) (f : LinkTime → LinkTime) : (s.modTm n f).gird = s.gird := (rfl)
@[simp] theorem State.modTm_sch (s : State) (n : Nat) (f : LinkTime → LinkTime) : (s.modTm n f).sch = s.sch := (rfl)
@[simp] theorem State.modTm_brg (s : State) (n : Nat) (f : LinkTime → LinkTime) : (s.modTm n f).brg = s.brg := (rfl)
@[simp] theorem State.modTm_dma (s : State) (n : Nat) (f : LinkTime → LinkTime) : (s.modTm n f).dma = s.dma := (rfl)
@[simp] theorem State.modTm_fac (s : State) (n : Nat) (f : LinkTime → LinkTime) : (s.modTm n f).fac = s.fac := (rfl)
@[simp] theorem State.modTm_dp (s : State) (n : Nat) (f : LinkTime → LinkTime) : (s.modTm n f).dp = s.dp := (rfl)
@[simp] theorem State.modTm_usb (s : State) (n : Nat) (f : LinkTime → LinkTime) : (s.modTm n f).usb = s.usb := (rfl)
@[simp] theorem State.modTm_stn (s : State) (n : Nat) (f : LinkTime → LinkTime) : (s.modTm n f).stn = s.stn := (rfl)
@[simp] theorem State.modTm_bzl (s : State) (n : Nat) (f : LinkTime → LinkTime) : (s.modTm n f).bzl = s.bzl := (rfl)
@[simp] theorem State.modTm_svc (s : State) (n : Nat) (f : LinkTime → LinkTime) : (s.modTm n f).svc = s.svc := (rfl)
@[simp] theorem State.modTm_sec (s : State) (n : Nat) (f : LinkTime → LinkTime) : (s.modTm n f).sec = s.sec := (rfl)
@[simp] theorem State.modTm_boot (s : State) (n : Nat) (f : LinkTime → LinkTime) : (s.modTm n f).boot = s.boot := (rfl)

@[simp] theorem State.modLk_words (s : State) (n : Nat) (f : LinkKey → LinkKey) : (s.modLk n f).words = s.words := (rfl)
@[simp] theorem State.modLk_pending (s : State) (n : Nat) (f : LinkKey → LinkKey) : (s.modLk n f).pending = s.pending := (rfl)
@[simp] theorem State.modLk_out (s : State) (n : Nat) (f : LinkKey → LinkKey) : (s.modLk n f).out = s.out := (rfl)
@[simp] theorem State.modLk_fresh (s : State) (n : Nat) (f : LinkKey → LinkKey) : (s.modLk n f).fresh = s.fresh := (rfl)
@[simp] theorem State.modLk_chip (s : State) (n : Nat) (f : LinkKey → LinkKey) : (s.modLk n f).chip = s.chip := (rfl)
@[simp] theorem State.modLk_recd (s : State) (n : Nat) (f : LinkKey → LinkKey) : (s.modLk n f).recd = s.recd := (rfl)
@[simp] theorem State.modLk_time (s : State) (n : Nat) (f : LinkKey → LinkKey) : (s.modLk n f).time = s.time := (rfl)
@[simp] theorem State.modLk_pwr (s : State) (n : Nat) (f : LinkKey → LinkKey) : (s.modLk n f).pwr = s.pwr := (rfl)
@[simp] theorem State.modLk_evi (s : State) (n : Nat) (f : LinkKey → LinkKey) : (s.modLk n f).evi = s.evi := (rfl)
@[simp] theorem State.modLk_ctxs (s : State) (n : Nat) (f : LinkKey → LinkKey) : (s.modLk n f).ctxs = s.ctxs := (rfl)
@[simp] theorem State.modLk_quar (s : State) (n : Nat) (f : LinkKey → LinkKey) : (s.modLk n f).quar = s.quar := (rfl)
@[simp] theorem State.modLk_gird (s : State) (n : Nat) (f : LinkKey → LinkKey) : (s.modLk n f).gird = s.gird := (rfl)
@[simp] theorem State.modLk_sch (s : State) (n : Nat) (f : LinkKey → LinkKey) : (s.modLk n f).sch = s.sch := (rfl)
@[simp] theorem State.modLk_brg (s : State) (n : Nat) (f : LinkKey → LinkKey) : (s.modLk n f).brg = s.brg := (rfl)
@[simp] theorem State.modLk_dma (s : State) (n : Nat) (f : LinkKey → LinkKey) : (s.modLk n f).dma = s.dma := (rfl)
@[simp] theorem State.modLk_fac (s : State) (n : Nat) (f : LinkKey → LinkKey) : (s.modLk n f).fac = s.fac := (rfl)
@[simp] theorem State.modLk_dp (s : State) (n : Nat) (f : LinkKey → LinkKey) : (s.modLk n f).dp = s.dp := (rfl)
@[simp] theorem State.modLk_usb (s : State) (n : Nat) (f : LinkKey → LinkKey) : (s.modLk n f).usb = s.usb := (rfl)
@[simp] theorem State.modLk_stn (s : State) (n : Nat) (f : LinkKey → LinkKey) : (s.modLk n f).stn = s.stn := (rfl)
@[simp] theorem State.modLk_bzl (s : State) (n : Nat) (f : LinkKey → LinkKey) : (s.modLk n f).bzl = s.bzl := (rfl)
@[simp] theorem State.modLk_svc (s : State) (n : Nat) (f : LinkKey → LinkKey) : (s.modLk n f).svc = s.svc := (rfl)
@[simp] theorem State.modLk_sec (s : State) (n : Nat) (f : LinkKey → LinkKey) : (s.modLk n f).sec = s.sec := (rfl)
@[simp] theorem State.modLk_boot (s : State) (n : Nat) (f : LinkKey → LinkKey) : (s.modLk n f).boot = s.boot := (rfl)

@[simp] theorem State.modPw_words (s : State) (n : Nat) (f : LinkIdle → LinkIdle) : (s.modPw n f).words = s.words := (rfl)
@[simp] theorem State.modPw_pending (s : State) (n : Nat) (f : LinkIdle → LinkIdle) : (s.modPw n f).pending = s.pending := (rfl)
@[simp] theorem State.modPw_out (s : State) (n : Nat) (f : LinkIdle → LinkIdle) : (s.modPw n f).out = s.out := (rfl)
@[simp] theorem State.modPw_fresh (s : State) (n : Nat) (f : LinkIdle → LinkIdle) : (s.modPw n f).fresh = s.fresh := (rfl)
@[simp] theorem State.modPw_chip (s : State) (n : Nat) (f : LinkIdle → LinkIdle) : (s.modPw n f).chip = s.chip := (rfl)
@[simp] theorem State.modPw_recd (s : State) (n : Nat) (f : LinkIdle → LinkIdle) : (s.modPw n f).recd = s.recd := (rfl)
@[simp] theorem State.modPw_time (s : State) (n : Nat) (f : LinkIdle → LinkIdle) : (s.modPw n f).time = s.time := (rfl)
@[simp] theorem State.modPw_pwr (s : State) (n : Nat) (f : LinkIdle → LinkIdle) : (s.modPw n f).pwr = s.pwr := (rfl)
@[simp] theorem State.modPw_evi (s : State) (n : Nat) (f : LinkIdle → LinkIdle) : (s.modPw n f).evi = s.evi := (rfl)
@[simp] theorem State.modPw_ctxs (s : State) (n : Nat) (f : LinkIdle → LinkIdle) : (s.modPw n f).ctxs = s.ctxs := (rfl)
@[simp] theorem State.modPw_quar (s : State) (n : Nat) (f : LinkIdle → LinkIdle) : (s.modPw n f).quar = s.quar := (rfl)
@[simp] theorem State.modPw_gird (s : State) (n : Nat) (f : LinkIdle → LinkIdle) : (s.modPw n f).gird = s.gird := (rfl)
@[simp] theorem State.modPw_sch (s : State) (n : Nat) (f : LinkIdle → LinkIdle) : (s.modPw n f).sch = s.sch := (rfl)
@[simp] theorem State.modPw_brg (s : State) (n : Nat) (f : LinkIdle → LinkIdle) : (s.modPw n f).brg = s.brg := (rfl)
@[simp] theorem State.modPw_dma (s : State) (n : Nat) (f : LinkIdle → LinkIdle) : (s.modPw n f).dma = s.dma := (rfl)
@[simp] theorem State.modPw_fac (s : State) (n : Nat) (f : LinkIdle → LinkIdle) : (s.modPw n f).fac = s.fac := (rfl)
@[simp] theorem State.modPw_dp (s : State) (n : Nat) (f : LinkIdle → LinkIdle) : (s.modPw n f).dp = s.dp := (rfl)
@[simp] theorem State.modPw_usb (s : State) (n : Nat) (f : LinkIdle → LinkIdle) : (s.modPw n f).usb = s.usb := (rfl)
@[simp] theorem State.modPw_stn (s : State) (n : Nat) (f : LinkIdle → LinkIdle) : (s.modPw n f).stn = s.stn := (rfl)
@[simp] theorem State.modPw_bzl (s : State) (n : Nat) (f : LinkIdle → LinkIdle) : (s.modPw n f).bzl = s.bzl := (rfl)
@[simp] theorem State.modPw_svc (s : State) (n : Nat) (f : LinkIdle → LinkIdle) : (s.modPw n f).svc = s.svc := (rfl)
@[simp] theorem State.modPw_sec (s : State) (n : Nat) (f : LinkIdle → LinkIdle) : (s.modPw n f).sec = s.sec := (rfl)
@[simp] theorem State.modPw_boot (s : State) (n : Nat) (f : LinkIdle → LinkIdle) : (s.modPw n f).boot = s.boot := (rfl)

@[simp] theorem State.modIn_words (s : State) (i : Nat) (f : EviIn → EviIn) : (s.modIn i f).words = s.words := (rfl)
@[simp] theorem State.modIn_pending (s : State) (i : Nat) (f : EviIn → EviIn) : (s.modIn i f).pending = s.pending := (rfl)
@[simp] theorem State.modIn_out (s : State) (i : Nat) (f : EviIn → EviIn) : (s.modIn i f).out = s.out := (rfl)
@[simp] theorem State.modIn_fresh (s : State) (i : Nat) (f : EviIn → EviIn) : (s.modIn i f).fresh = s.fresh := (rfl)
@[simp] theorem State.modIn_chip (s : State) (i : Nat) (f : EviIn → EviIn) : (s.modIn i f).chip = s.chip := (rfl)
@[simp] theorem State.modIn_recd (s : State) (i : Nat) (f : EviIn → EviIn) : (s.modIn i f).recd = s.recd := (rfl)
@[simp] theorem State.modIn_time (s : State) (i : Nat) (f : EviIn → EviIn) : (s.modIn i f).time = s.time := (rfl)
@[simp] theorem State.modIn_ports (s : State) (i : Nat) (f : EviIn → EviIn) : (s.modIn i f).ports = s.ports := (rfl)
@[simp] theorem State.modIn_pwr (s : State) (i : Nat) (f : EviIn → EviIn) : (s.modIn i f).pwr = s.pwr := (rfl)
@[simp] theorem State.modIn_ctxs (s : State) (i : Nat) (f : EviIn → EviIn) : (s.modIn i f).ctxs = s.ctxs := (rfl)
@[simp] theorem State.modIn_quar (s : State) (i : Nat) (f : EviIn → EviIn) : (s.modIn i f).quar = s.quar := (rfl)
@[simp] theorem State.modIn_gird (s : State) (i : Nat) (f : EviIn → EviIn) : (s.modIn i f).gird = s.gird := (rfl)
@[simp] theorem State.modIn_sch (s : State) (i : Nat) (f : EviIn → EviIn) : (s.modIn i f).sch = s.sch := (rfl)
@[simp] theorem State.modIn_brg (s : State) (i : Nat) (f : EviIn → EviIn) : (s.modIn i f).brg = s.brg := (rfl)
@[simp] theorem State.modIn_dma (s : State) (i : Nat) (f : EviIn → EviIn) : (s.modIn i f).dma = s.dma := (rfl)
@[simp] theorem State.modIn_fac (s : State) (i : Nat) (f : EviIn → EviIn) : (s.modIn i f).fac = s.fac := (rfl)
@[simp] theorem State.modIn_dp (s : State) (i : Nat) (f : EviIn → EviIn) : (s.modIn i f).dp = s.dp := (rfl)
@[simp] theorem State.modIn_usb (s : State) (i : Nat) (f : EviIn → EviIn) : (s.modIn i f).usb = s.usb := (rfl)
@[simp] theorem State.modIn_stn (s : State) (i : Nat) (f : EviIn → EviIn) : (s.modIn i f).stn = s.stn := (rfl)
@[simp] theorem State.modIn_bzl (s : State) (i : Nat) (f : EviIn → EviIn) : (s.modIn i f).bzl = s.bzl := (rfl)
@[simp] theorem State.modIn_svc (s : State) (i : Nat) (f : EviIn → EviIn) : (s.modIn i f).svc = s.svc := (rfl)
@[simp] theorem State.modIn_sec (s : State) (i : Nat) (f : EviIn → EviIn) : (s.modIn i f).sec = s.sec := (rfl)
@[simp] theorem State.modIn_boot (s : State) (i : Nat) (f : EviIn → EviIn) : (s.modIn i f).boot = s.boot := (rfl)

@[simp] theorem State.modEng_words (s : State) (e : Nat) (f : EngS → EngS) : (s.modEng e f).words = s.words := (rfl)
@[simp] theorem State.modEng_pending (s : State) (e : Nat) (f : EngS → EngS) : (s.modEng e f).pending = s.pending := (rfl)
@[simp] theorem State.modEng_out (s : State) (e : Nat) (f : EngS → EngS) : (s.modEng e f).out = s.out := (rfl)
@[simp] theorem State.modEng_fresh (s : State) (e : Nat) (f : EngS → EngS) : (s.modEng e f).fresh = s.fresh := (rfl)
@[simp] theorem State.modEng_chip (s : State) (e : Nat) (f : EngS → EngS) : (s.modEng e f).chip = s.chip := (rfl)
@[simp] theorem State.modEng_recd (s : State) (e : Nat) (f : EngS → EngS) : (s.modEng e f).recd = s.recd := (rfl)
@[simp] theorem State.modEng_time (s : State) (e : Nat) (f : EngS → EngS) : (s.modEng e f).time = s.time := (rfl)
@[simp] theorem State.modEng_ports (s : State) (e : Nat) (f : EngS → EngS) : (s.modEng e f).ports = s.ports := (rfl)
@[simp] theorem State.modEng_pwr (s : State) (e : Nat) (f : EngS → EngS) : (s.modEng e f).pwr = s.pwr := (rfl)
@[simp] theorem State.modEng_evi (s : State) (e : Nat) (f : EngS → EngS) : (s.modEng e f).evi = s.evi := (rfl)
@[simp] theorem State.modEng_ctxs (s : State) (e : Nat) (f : EngS → EngS) : (s.modEng e f).ctxs = s.ctxs := (rfl)
@[simp] theorem State.modEng_quar (s : State) (e : Nat) (f : EngS → EngS) : (s.modEng e f).quar = s.quar := (rfl)
@[simp] theorem State.modEng_gird (s : State) (e : Nat) (f : EngS → EngS) : (s.modEng e f).gird = s.gird := (rfl)
@[simp] theorem State.modEng_sch (s : State) (e : Nat) (f : EngS → EngS) : (s.modEng e f).sch = s.sch := (rfl)
@[simp] theorem State.modEng_brg (s : State) (e : Nat) (f : EngS → EngS) : (s.modEng e f).brg = s.brg := (rfl)
@[simp] theorem State.modEng_dma (s : State) (e : Nat) (f : EngS → EngS) : (s.modEng e f).dma = s.dma := (rfl)
@[simp] theorem State.modEng_dp (s : State) (e : Nat) (f : EngS → EngS) : (s.modEng e f).dp = s.dp := (rfl)
@[simp] theorem State.modEng_usb (s : State) (e : Nat) (f : EngS → EngS) : (s.modEng e f).usb = s.usb := (rfl)
@[simp] theorem State.modEng_stn (s : State) (e : Nat) (f : EngS → EngS) : (s.modEng e f).stn = s.stn := (rfl)
@[simp] theorem State.modEng_bzl (s : State) (e : Nat) (f : EngS → EngS) : (s.modEng e f).bzl = s.bzl := (rfl)
@[simp] theorem State.modEng_svc (s : State) (e : Nat) (f : EngS → EngS) : (s.modEng e f).svc = s.svc := (rfl)
@[simp] theorem State.modEng_sec (s : State) (e : Nat) (f : EngS → EngS) : (s.modEng e f).sec = s.sec := (rfl)
@[simp] theorem State.modEng_boot (s : State) (e : Nat) (f : EngS → EngS) : (s.modEng e f).boot = s.boot := (rfl)

@[simp] theorem State.modSlot_words (s : State) (i : Nat) (f : KeySlot → KeySlot) : (s.modSlot i f).words = s.words := (rfl)
@[simp] theorem State.modSlot_pending (s : State) (i : Nat) (f : KeySlot → KeySlot) : (s.modSlot i f).pending = s.pending := (rfl)
@[simp] theorem State.modSlot_out (s : State) (i : Nat) (f : KeySlot → KeySlot) : (s.modSlot i f).out = s.out := (rfl)
@[simp] theorem State.modSlot_fresh (s : State) (i : Nat) (f : KeySlot → KeySlot) : (s.modSlot i f).fresh = s.fresh := (rfl)
@[simp] theorem State.modSlot_chip (s : State) (i : Nat) (f : KeySlot → KeySlot) : (s.modSlot i f).chip = s.chip := (rfl)
@[simp] theorem State.modSlot_recd (s : State) (i : Nat) (f : KeySlot → KeySlot) : (s.modSlot i f).recd = s.recd := (rfl)
@[simp] theorem State.modSlot_time (s : State) (i : Nat) (f : KeySlot → KeySlot) : (s.modSlot i f).time = s.time := (rfl)
@[simp] theorem State.modSlot_ports (s : State) (i : Nat) (f : KeySlot → KeySlot) : (s.modSlot i f).ports = s.ports := (rfl)
@[simp] theorem State.modSlot_pwr (s : State) (i : Nat) (f : KeySlot → KeySlot) : (s.modSlot i f).pwr = s.pwr := (rfl)
@[simp] theorem State.modSlot_evi (s : State) (i : Nat) (f : KeySlot → KeySlot) : (s.modSlot i f).evi = s.evi := (rfl)
@[simp] theorem State.modSlot_ctxs (s : State) (i : Nat) (f : KeySlot → KeySlot) : (s.modSlot i f).ctxs = s.ctxs := (rfl)
@[simp] theorem State.modSlot_quar (s : State) (i : Nat) (f : KeySlot → KeySlot) : (s.modSlot i f).quar = s.quar := (rfl)
@[simp] theorem State.modSlot_gird (s : State) (i : Nat) (f : KeySlot → KeySlot) : (s.modSlot i f).gird = s.gird := (rfl)
@[simp] theorem State.modSlot_sch (s : State) (i : Nat) (f : KeySlot → KeySlot) : (s.modSlot i f).sch = s.sch := (rfl)
@[simp] theorem State.modSlot_brg (s : State) (i : Nat) (f : KeySlot → KeySlot) : (s.modSlot i f).brg = s.brg := (rfl)
@[simp] theorem State.modSlot_dma (s : State) (i : Nat) (f : KeySlot → KeySlot) : (s.modSlot i f).dma = s.dma := (rfl)
@[simp] theorem State.modSlot_fac (s : State) (i : Nat) (f : KeySlot → KeySlot) : (s.modSlot i f).fac = s.fac := (rfl)
@[simp] theorem State.modSlot_dp (s : State) (i : Nat) (f : KeySlot → KeySlot) : (s.modSlot i f).dp = s.dp := (rfl)
@[simp] theorem State.modSlot_usb (s : State) (i : Nat) (f : KeySlot → KeySlot) : (s.modSlot i f).usb = s.usb := (rfl)
@[simp] theorem State.modSlot_stn (s : State) (i : Nat) (f : KeySlot → KeySlot) : (s.modSlot i f).stn = s.stn := (rfl)
@[simp] theorem State.modSlot_bzl (s : State) (i : Nat) (f : KeySlot → KeySlot) : (s.modSlot i f).bzl = s.bzl := (rfl)
@[simp] theorem State.modSlot_svc (s : State) (i : Nat) (f : KeySlot → KeySlot) : (s.modSlot i f).svc = s.svc := (rfl)
@[simp] theorem State.modSlot_boot (s : State) (i : Nat) (f : KeySlot → KeySlot) : (s.modSlot i f).boot = s.boot := (rfl)

@[simp] theorem State.modChan_words (s : State) (c : Nat) (f : Chan → Chan) : (s.modChan c f).words = s.words := (rfl)
@[simp] theorem State.modChan_pending (s : State) (c : Nat) (f : Chan → Chan) : (s.modChan c f).pending = s.pending := (rfl)
@[simp] theorem State.modChan_out (s : State) (c : Nat) (f : Chan → Chan) : (s.modChan c f).out = s.out := (rfl)
@[simp] theorem State.modChan_fresh (s : State) (c : Nat) (f : Chan → Chan) : (s.modChan c f).fresh = s.fresh := (rfl)
@[simp] theorem State.modChan_chip (s : State) (c : Nat) (f : Chan → Chan) : (s.modChan c f).chip = s.chip := (rfl)
@[simp] theorem State.modChan_recd (s : State) (c : Nat) (f : Chan → Chan) : (s.modChan c f).recd = s.recd := (rfl)
@[simp] theorem State.modChan_time (s : State) (c : Nat) (f : Chan → Chan) : (s.modChan c f).time = s.time := (rfl)
@[simp] theorem State.modChan_ports (s : State) (c : Nat) (f : Chan → Chan) : (s.modChan c f).ports = s.ports := (rfl)
@[simp] theorem State.modChan_pwr (s : State) (c : Nat) (f : Chan → Chan) : (s.modChan c f).pwr = s.pwr := (rfl)
@[simp] theorem State.modChan_evi (s : State) (c : Nat) (f : Chan → Chan) : (s.modChan c f).evi = s.evi := (rfl)
@[simp] theorem State.modChan_ctxs (s : State) (c : Nat) (f : Chan → Chan) : (s.modChan c f).ctxs = s.ctxs := (rfl)
@[simp] theorem State.modChan_quar (s : State) (c : Nat) (f : Chan → Chan) : (s.modChan c f).quar = s.quar := (rfl)
@[simp] theorem State.modChan_gird (s : State) (c : Nat) (f : Chan → Chan) : (s.modChan c f).gird = s.gird := (rfl)
@[simp] theorem State.modChan_sch (s : State) (c : Nat) (f : Chan → Chan) : (s.modChan c f).sch = s.sch := (rfl)
@[simp] theorem State.modChan_brg (s : State) (c : Nat) (f : Chan → Chan) : (s.modChan c f).brg = s.brg := (rfl)
@[simp] theorem State.modChan_fac (s : State) (c : Nat) (f : Chan → Chan) : (s.modChan c f).fac = s.fac := (rfl)
@[simp] theorem State.modChan_dp (s : State) (c : Nat) (f : Chan → Chan) : (s.modChan c f).dp = s.dp := (rfl)
@[simp] theorem State.modChan_usb (s : State) (c : Nat) (f : Chan → Chan) : (s.modChan c f).usb = s.usb := (rfl)
@[simp] theorem State.modChan_stn (s : State) (c : Nat) (f : Chan → Chan) : (s.modChan c f).stn = s.stn := (rfl)
@[simp] theorem State.modChan_bzl (s : State) (c : Nat) (f : Chan → Chan) : (s.modChan c f).bzl = s.bzl := (rfl)
@[simp] theorem State.modChan_svc (s : State) (c : Nat) (f : Chan → Chan) : (s.modChan c f).svc = s.svc := (rfl)
@[simp] theorem State.modChan_sec (s : State) (c : Nat) (f : Chan → Chan) : (s.modChan c f).sec = s.sec := (rfl)
@[simp] theorem State.modChan_boot (s : State) (c : Nat) (f : Chan → Chan) : (s.modChan c f).boot = s.boot := (rfl)

@[simp] theorem State.modScript_words (s : State) (f : Script → Script) : (s.modScript f).words = s.words := (rfl)
@[simp] theorem State.modScript_pending (s : State) (f : Script → Script) : (s.modScript f).pending = s.pending := (rfl)
@[simp] theorem State.modScript_out (s : State) (f : Script → Script) : (s.modScript f).out = s.out := (rfl)
@[simp] theorem State.modScript_fresh (s : State) (f : Script → Script) : (s.modScript f).fresh = s.fresh := (rfl)
@[simp] theorem State.modScript_chip (s : State) (f : Script → Script) : (s.modScript f).chip = s.chip := (rfl)
@[simp] theorem State.modScript_recd (s : State) (f : Script → Script) : (s.modScript f).recd = s.recd := (rfl)
@[simp] theorem State.modScript_time (s : State) (f : Script → Script) : (s.modScript f).time = s.time := (rfl)
@[simp] theorem State.modScript_ports (s : State) (f : Script → Script) : (s.modScript f).ports = s.ports := (rfl)
@[simp] theorem State.modScript_evi (s : State) (f : Script → Script) : (s.modScript f).evi = s.evi := (rfl)
@[simp] theorem State.modScript_ctxs (s : State) (f : Script → Script) : (s.modScript f).ctxs = s.ctxs := (rfl)
@[simp] theorem State.modScript_quar (s : State) (f : Script → Script) : (s.modScript f).quar = s.quar := (rfl)
@[simp] theorem State.modScript_gird (s : State) (f : Script → Script) : (s.modScript f).gird = s.gird := (rfl)
@[simp] theorem State.modScript_sch (s : State) (f : Script → Script) : (s.modScript f).sch = s.sch := (rfl)
@[simp] theorem State.modScript_brg (s : State) (f : Script → Script) : (s.modScript f).brg = s.brg := (rfl)
@[simp] theorem State.modScript_dma (s : State) (f : Script → Script) : (s.modScript f).dma = s.dma := (rfl)
@[simp] theorem State.modScript_fac (s : State) (f : Script → Script) : (s.modScript f).fac = s.fac := (rfl)
@[simp] theorem State.modScript_dp (s : State) (f : Script → Script) : (s.modScript f).dp = s.dp := (rfl)
@[simp] theorem State.modScript_usb (s : State) (f : Script → Script) : (s.modScript f).usb = s.usb := (rfl)
@[simp] theorem State.modScript_stn (s : State) (f : Script → Script) : (s.modScript f).stn = s.stn := (rfl)
@[simp] theorem State.modScript_bzl (s : State) (f : Script → Script) : (s.modScript f).bzl = s.bzl := (rfl)
@[simp] theorem State.modScript_svc (s : State) (f : Script → Script) : (s.modScript f).svc = s.svc := (rfl)
@[simp] theorem State.modScript_sec (s : State) (f : Script → Script) : (s.modScript f).sec = s.sec := (rfl)
@[simp] theorem State.modScript_boot (s : State) (f : Script → Script) : (s.modScript f).boot = s.boot := (rfl)

@[simp] theorem State.setDom_words (s : State) (d : Nat) (v : DomSt) : (s.setDom d v).words = s.words := (rfl)
@[simp] theorem State.setDom_pending (s : State) (d : Nat) (v : DomSt) : (s.setDom d v).pending = s.pending := (rfl)
@[simp] theorem State.setDom_out (s : State) (d : Nat) (v : DomSt) : (s.setDom d v).out = s.out := (rfl)
@[simp] theorem State.setDom_fresh (s : State) (d : Nat) (v : DomSt) : (s.setDom d v).fresh = s.fresh := (rfl)
@[simp] theorem State.setDom_recd (s : State) (d : Nat) (v : DomSt) : (s.setDom d v).recd = s.recd := (rfl)
@[simp] theorem State.setDom_time (s : State) (d : Nat) (v : DomSt) : (s.setDom d v).time = s.time := (rfl)
@[simp] theorem State.setDom_ports (s : State) (d : Nat) (v : DomSt) : (s.setDom d v).ports = s.ports := (rfl)
@[simp] theorem State.setDom_pwr (s : State) (d : Nat) (v : DomSt) : (s.setDom d v).pwr = s.pwr := (rfl)
@[simp] theorem State.setDom_evi (s : State) (d : Nat) (v : DomSt) : (s.setDom d v).evi = s.evi := (rfl)
@[simp] theorem State.setDom_ctxs (s : State) (d : Nat) (v : DomSt) : (s.setDom d v).ctxs = s.ctxs := (rfl)
@[simp] theorem State.setDom_quar (s : State) (d : Nat) (v : DomSt) : (s.setDom d v).quar = s.quar := (rfl)
@[simp] theorem State.setDom_gird (s : State) (d : Nat) (v : DomSt) : (s.setDom d v).gird = s.gird := (rfl)
@[simp] theorem State.setDom_sch (s : State) (d : Nat) (v : DomSt) : (s.setDom d v).sch = s.sch := (rfl)
@[simp] theorem State.setDom_brg (s : State) (d : Nat) (v : DomSt) : (s.setDom d v).brg = s.brg := (rfl)
@[simp] theorem State.setDom_dma (s : State) (d : Nat) (v : DomSt) : (s.setDom d v).dma = s.dma := (rfl)
@[simp] theorem State.setDom_fac (s : State) (d : Nat) (v : DomSt) : (s.setDom d v).fac = s.fac := (rfl)
@[simp] theorem State.setDom_dp (s : State) (d : Nat) (v : DomSt) : (s.setDom d v).dp = s.dp := (rfl)
@[simp] theorem State.setDom_usb (s : State) (d : Nat) (v : DomSt) : (s.setDom d v).usb = s.usb := (rfl)
@[simp] theorem State.setDom_stn (s : State) (d : Nat) (v : DomSt) : (s.setDom d v).stn = s.stn := (rfl)
@[simp] theorem State.setDom_bzl (s : State) (d : Nat) (v : DomSt) : (s.setDom d v).bzl = s.bzl := (rfl)
@[simp] theorem State.setDom_svc (s : State) (d : Nat) (v : DomSt) : (s.setDom d v).svc = s.svc := (rfl)
@[simp] theorem State.setDom_sec (s : State) (d : Nat) (v : DomSt) : (s.setDom d v).sec = s.sec := (rfl)
@[simp] theorem State.setDom_boot (s : State) (d : Nat) (v : DomSt) : (s.setDom d v).boot = s.boot := (rfl)

/-! ## Registers through what does not write them -/

@[simp] theorem State.emit_word (s : State) (o : Out) (b : Nat) : (s.emit o).word b = s.word b := (rfl)
@[simp] theorem State.emit_rd (s : State) (o : Out) (g : Fld) : (s.emit o).rd g = s.rd g := (rfl)
@[simp] theorem State.emit_on (s : State) (o : Out) (g : Fld) : (s.emit o).on g = s.on g := (rfl)
@[simp] theorem State.freshVal_word (s : State) (b : Nat) : (s.freshVal.2).word b = s.word b := (rfl)
@[simp] theorem State.freshVal_rd (s : State) (g : Fld) : (s.freshVal.2).rd g = s.rd g := (rfl)
@[simp] theorem State.freshVal_on (s : State) (g : Fld) : (s.freshVal.2).on g = s.on g := (rfl)
@[simp] theorem State.modChip_word (s : State) (f : Chip → Chip) (b : Nat) : (s.modChip f).word b = s.word b := (rfl)
@[simp] theorem State.modChip_rd (s : State) (f : Chip → Chip) (g : Fld) : (s.modChip f).rd g = s.rd g := (rfl)
@[simp] theorem State.modChip_on (s : State) (f : Chip → Chip) (g : Fld) : (s.modChip f).on g = s.on g := (rfl)
@[simp] theorem State.modRec_word (s : State) (f : Recorder → Recorder) (b : Nat) : (s.modRec f).word b = s.word b := (rfl)
@[simp] theorem State.modRec_rd (s : State) (f : Recorder → Recorder) (g : Fld) : (s.modRec f).rd g = s.rd g := (rfl)
@[simp] theorem State.modRec_on (s : State) (f : Recorder → Recorder) (g : Fld) : (s.modRec f).on g = s.on g := (rfl)
@[simp] theorem State.modTime_word (s : State) (f : TimeS → TimeS) (b : Nat) : (s.modTime f).word b = s.word b := (rfl)
@[simp] theorem State.modTime_rd (s : State) (f : TimeS → TimeS) (g : Fld) : (s.modTime f).rd g = s.rd g := (rfl)
@[simp] theorem State.modTime_on (s : State) (f : TimeS → TimeS) (g : Fld) : (s.modTime f).on g = s.on g := (rfl)
@[simp] theorem State.modPwr_word (s : State) (f : PowerS → PowerS) (b : Nat) : (s.modPwr f).word b = s.word b := (rfl)
@[simp] theorem State.modPwr_rd (s : State) (f : PowerS → PowerS) (g : Fld) : (s.modPwr f).rd g = s.rd g := (rfl)
@[simp] theorem State.modPwr_on (s : State) (f : PowerS → PowerS) (g : Fld) : (s.modPwr f).on g = s.on g := (rfl)
@[simp] theorem State.modEvi_word (s : State) (f : EviS → EviS) (b : Nat) : (s.modEvi f).word b = s.word b := (rfl)
@[simp] theorem State.modEvi_rd (s : State) (f : EviS → EviS) (g : Fld) : (s.modEvi f).rd g = s.rd g := (rfl)
@[simp] theorem State.modEvi_on (s : State) (f : EviS → EviS) (g : Fld) : (s.modEvi f).on g = s.on g := (rfl)
@[simp] theorem State.modBrg_word (s : State) (f : BridgeS → BridgeS) (b : Nat) : (s.modBrg f).word b = s.word b := (rfl)
@[simp] theorem State.modBrg_rd (s : State) (f : BridgeS → BridgeS) (g : Fld) : (s.modBrg f).rd g = s.rd g := (rfl)
@[simp] theorem State.modBrg_on (s : State) (f : BridgeS → BridgeS) (g : Fld) : (s.modBrg f).on g = s.on g := (rfl)
@[simp] theorem State.modDma_word (s : State) (f : DmaS → DmaS) (b : Nat) : (s.modDma f).word b = s.word b := (rfl)
@[simp] theorem State.modDma_rd (s : State) (f : DmaS → DmaS) (g : Fld) : (s.modDma f).rd g = s.rd g := (rfl)
@[simp] theorem State.modDma_on (s : State) (f : DmaS → DmaS) (g : Fld) : (s.modDma f).on g = s.on g := (rfl)
@[simp] theorem State.modFac_word (s : State) (f : FacetS → FacetS) (b : Nat) : (s.modFac f).word b = s.word b := (rfl)
@[simp] theorem State.modFac_rd (s : State) (f : FacetS → FacetS) (g : Fld) : (s.modFac f).rd g = s.rd g := (rfl)
@[simp] theorem State.modFac_on (s : State) (f : FacetS → FacetS) (g : Fld) : (s.modFac f).on g = s.on g := (rfl)
@[simp] theorem State.modDp_word (s : State) (f : DisplayS → DisplayS) (b : Nat) : (s.modDp f).word b = s.word b := (rfl)
@[simp] theorem State.modDp_rd (s : State) (f : DisplayS → DisplayS) (g : Fld) : (s.modDp f).rd g = s.rd g := (rfl)
@[simp] theorem State.modDp_on (s : State) (f : DisplayS → DisplayS) (g : Fld) : (s.modDp f).on g = s.on g := (rfl)
@[simp] theorem State.modUsb_word (s : State) (f : UsbS → UsbS) (b : Nat) : (s.modUsb f).word b = s.word b := (rfl)
@[simp] theorem State.modUsb_rd (s : State) (f : UsbS → UsbS) (g : Fld) : (s.modUsb f).rd g = s.rd g := (rfl)
@[simp] theorem State.modUsb_on (s : State) (f : UsbS → UsbS) (g : Fld) : (s.modUsb f).on g = s.on g := (rfl)
@[simp] theorem State.modStn_word (s : State) (f : StationS → StationS) (b : Nat) : (s.modStn f).word b = s.word b := (rfl)
@[simp] theorem State.modStn_rd (s : State) (f : StationS → StationS) (g : Fld) : (s.modStn f).rd g = s.rd g := (rfl)
@[simp] theorem State.modStn_on (s : State) (f : StationS → StationS) (g : Fld) : (s.modStn f).on g = s.on g := (rfl)
@[simp] theorem State.modBzl_word (s : State) (f : BezelS → BezelS) (b : Nat) : (s.modBzl f).word b = s.word b := (rfl)
@[simp] theorem State.modBzl_rd (s : State) (f : BezelS → BezelS) (g : Fld) : (s.modBzl f).rd g = s.rd g := (rfl)
@[simp] theorem State.modBzl_on (s : State) (f : BezelS → BezelS) (g : Fld) : (s.modBzl f).on g = s.on g := (rfl)
@[simp] theorem State.modSvc_word (s : State) (f : ServiceS → ServiceS) (b : Nat) : (s.modSvc f).word b = s.word b := (rfl)
@[simp] theorem State.modSvc_rd (s : State) (f : ServiceS → ServiceS) (g : Fld) : (s.modSvc f).rd g = s.rd g := (rfl)
@[simp] theorem State.modSvc_on (s : State) (f : ServiceS → ServiceS) (g : Fld) : (s.modSvc f).on g = s.on g := (rfl)
@[simp] theorem State.modSec_word (s : State) (f : SecS → SecS) (b : Nat) : (s.modSec f).word b = s.word b := (rfl)
@[simp] theorem State.modSec_rd (s : State) (f : SecS → SecS) (g : Fld) : (s.modSec f).rd g = s.rd g := (rfl)
@[simp] theorem State.modSec_on (s : State) (f : SecS → SecS) (g : Fld) : (s.modSec f).on g = s.on g := (rfl)
@[simp] theorem State.modBoot_word (s : State) (f : BootS → BootS) (b : Nat) : (s.modBoot f).word b = s.word b := (rfl)
@[simp] theorem State.modBoot_rd (s : State) (f : BootS → BootS) (g : Fld) : (s.modBoot f).rd g = s.rd g := (rfl)
@[simp] theorem State.modBoot_on (s : State) (f : BootS → BootS) (g : Fld) : (s.modBoot f).on g = s.on g := (rfl)
@[simp] theorem State.modPort_word (s : State) (n : Nat) (f : Port → Port) (b : Nat) : (s.modPort n f).word b = s.word b := (rfl)
@[simp] theorem State.modPort_rd (s : State) (n : Nat) (f : Port → Port) (g : Fld) : (s.modPort n f).rd g = s.rd g := (rfl)
@[simp] theorem State.modPort_on (s : State) (n : Nat) (f : Port → Port) (g : Fld) : (s.modPort n f).on g = s.on g := (rfl)
@[simp] theorem State.modCtx_word (s : State) (c : Nat) (f : CtxS → CtxS) (b : Nat) : (s.modCtx c f).word b = s.word b := (rfl)
@[simp] theorem State.modCtx_rd (s : State) (c : Nat) (f : CtxS → CtxS) (g : Fld) : (s.modCtx c f).rd g = s.rd g := (rfl)
@[simp] theorem State.modCtx_on (s : State) (c : Nat) (f : CtxS → CtxS) (g : Fld) : (s.modCtx c f).on g = s.on g := (rfl)
@[simp] theorem State.modGcl_word (s : State) (l : Nat) (f : GclS → GclS) (b : Nat) : (s.modGcl l f).word b = s.word b := (rfl)
@[simp] theorem State.modGcl_rd (s : State) (l : Nat) (f : GclS → GclS) (g : Fld) : (s.modGcl l f).rd g = s.rd g := (rfl)
@[simp] theorem State.modGcl_on (s : State) (l : Nat) (f : GclS → GclS) (g : Fld) : (s.modGcl l f).on g = s.on g := (rfl)
@[simp] theorem State.modTr_word (s : State) (n : Nat) (f : Train → Train) (b : Nat) : (s.modTr n f).word b = s.word b := (rfl)
@[simp] theorem State.modTr_rd (s : State) (n : Nat) (f : Train → Train) (g : Fld) : (s.modTr n f).rd g = s.rd g := (rfl)
@[simp] theorem State.modTr_on (s : State) (n : Nat) (f : Train → Train) (g : Fld) : (s.modTr n f).on g = s.on g := (rfl)
@[simp] theorem State.modEp_word (s : State) (n : Nat) (f : Epoch → Epoch) (b : Nat) : (s.modEp n f).word b = s.word b := (rfl)
@[simp] theorem State.modEp_rd (s : State) (n : Nat) (f : Epoch → Epoch) (g : Fld) : (s.modEp n f).rd g = s.rd g := (rfl)
@[simp] theorem State.modEp_on (s : State) (n : Nat) (f : Epoch → Epoch) (g : Fld) : (s.modEp n f).on g = s.on g := (rfl)
@[simp] theorem State.modTm_word (s : State) (n : Nat) (f : LinkTime → LinkTime) (b : Nat) : (s.modTm n f).word b = s.word b := (rfl)
@[simp] theorem State.modTm_rd (s : State) (n : Nat) (f : LinkTime → LinkTime) (g : Fld) : (s.modTm n f).rd g = s.rd g := (rfl)
@[simp] theorem State.modTm_on (s : State) (n : Nat) (f : LinkTime → LinkTime) (g : Fld) : (s.modTm n f).on g = s.on g := (rfl)
@[simp] theorem State.modLk_word (s : State) (n : Nat) (f : LinkKey → LinkKey) (b : Nat) : (s.modLk n f).word b = s.word b := (rfl)
@[simp] theorem State.modLk_rd (s : State) (n : Nat) (f : LinkKey → LinkKey) (g : Fld) : (s.modLk n f).rd g = s.rd g := (rfl)
@[simp] theorem State.modLk_on (s : State) (n : Nat) (f : LinkKey → LinkKey) (g : Fld) : (s.modLk n f).on g = s.on g := (rfl)
@[simp] theorem State.modPw_word (s : State) (n : Nat) (f : LinkIdle → LinkIdle) (b : Nat) : (s.modPw n f).word b = s.word b := (rfl)
@[simp] theorem State.modPw_rd (s : State) (n : Nat) (f : LinkIdle → LinkIdle) (g : Fld) : (s.modPw n f).rd g = s.rd g := (rfl)
@[simp] theorem State.modPw_on (s : State) (n : Nat) (f : LinkIdle → LinkIdle) (g : Fld) : (s.modPw n f).on g = s.on g := (rfl)
@[simp] theorem State.modIn_word (s : State) (i : Nat) (f : EviIn → EviIn) (b : Nat) : (s.modIn i f).word b = s.word b := (rfl)
@[simp] theorem State.modIn_rd (s : State) (i : Nat) (f : EviIn → EviIn) (g : Fld) : (s.modIn i f).rd g = s.rd g := (rfl)
@[simp] theorem State.modIn_on (s : State) (i : Nat) (f : EviIn → EviIn) (g : Fld) : (s.modIn i f).on g = s.on g := (rfl)
@[simp] theorem State.modEng_word (s : State) (e : Nat) (f : EngS → EngS) (b : Nat) : (s.modEng e f).word b = s.word b := (rfl)
@[simp] theorem State.modEng_rd (s : State) (e : Nat) (f : EngS → EngS) (g : Fld) : (s.modEng e f).rd g = s.rd g := (rfl)
@[simp] theorem State.modEng_on (s : State) (e : Nat) (f : EngS → EngS) (g : Fld) : (s.modEng e f).on g = s.on g := (rfl)
@[simp] theorem State.modSlot_word (s : State) (i : Nat) (f : KeySlot → KeySlot) (b : Nat) : (s.modSlot i f).word b = s.word b := (rfl)
@[simp] theorem State.modSlot_rd (s : State) (i : Nat) (f : KeySlot → KeySlot) (g : Fld) : (s.modSlot i f).rd g = s.rd g := (rfl)
@[simp] theorem State.modSlot_on (s : State) (i : Nat) (f : KeySlot → KeySlot) (g : Fld) : (s.modSlot i f).on g = s.on g := (rfl)
@[simp] theorem State.modChan_word (s : State) (c : Nat) (f : Chan → Chan) (b : Nat) : (s.modChan c f).word b = s.word b := (rfl)
@[simp] theorem State.modChan_rd (s : State) (c : Nat) (f : Chan → Chan) (g : Fld) : (s.modChan c f).rd g = s.rd g := (rfl)
@[simp] theorem State.modChan_on (s : State) (c : Nat) (f : Chan → Chan) (g : Fld) : (s.modChan c f).on g = s.on g := (rfl)
@[simp] theorem State.modScript_word (s : State) (f : Script → Script) (b : Nat) : (s.modScript f).word b = s.word b := (rfl)
@[simp] theorem State.modScript_rd (s : State) (f : Script → Script) (g : Fld) : (s.modScript f).rd g = s.rd g := (rfl)
@[simp] theorem State.modScript_on (s : State) (f : Script → Script) (g : Fld) : (s.modScript f).on g = s.on g := (rfl)
@[simp] theorem State.setDom_word (s : State) (d : Nat) (v : DomSt) (b : Nat) : (s.setDom d v).word b = s.word b := (rfl)
@[simp] theorem State.setDom_rd (s : State) (d : Nat) (v : DomSt) (g : Fld) : (s.setDom d v).rd g = s.rd g := (rfl)
@[simp] theorem State.setDom_on (s : State) (d : Nat) (v : DomSt) (g : Fld) : (s.setDom d v).on g = s.on g := (rfl)

end Sys2Proof.Machine
end

