-- ==== Sys2Proof/Laws/Raise.lean ====
section
/-!
SUPPORT. What raising an interrupt bit does to the registers: it sets the bit of PG_ISR and changes no other word; likewise a change of
LIFE.  Their other effects (the vector, the report to the crown, a trigger slot of the recorder) write no register.
-/

namespace Sys2Proof.Machine

@[simp] theorem State.sourceFires_word (s : State) (l : List (Nat × Nat)) (a : Nat) : (s.sourceFires l).word a = s.word a := (rfl)

@[simp] theorem State.isrFires_word (s : State) (p : Nat) (w : Word) (a : Nat) : (s.isrFires p w).word a = s.word a := by
  unfold State.isrFires; split <;> simp

@[simp] theorem State.sendMsix_word (s : State) (p a : Nat) : (s.sendMsix p).word a = s.word a := by
  unfold State.sendMsix State.when; split <;> simp

@[simp] theorem State.intReport_word (s old : State) (a : Nat) : (s.intReport old).word a = s.word a := by
  unfold State.intReport State.when; split <;> simp

theorem State.when_word (s : State) (c : Bool) (f : State → State) (a : Nat) (h : (f s).word a = s.word a) :
    (s.when c f).word a = s.word a := by
  unfold State.when; split <;> simp [h]

@[simp] theorem State.setInt_word (s : State) (p a : Nat) (v : Word) (b : Nat) : (s.setInt p a v).word b = (s.setWord a v).word b := by
  unfold State.setInt
  rw [State.intReport_word, State.when_word _ _ (·.sendMsix p) _ (State.sendMsix_word _ _ _),
    State.when_word _ _ (·.isrFires p _) _ (State.isrFires_word _ _ _ _)]

@[simp] theorem State.noteBits_word (s : State) (a m b : Nat) : (s.noteBits a m).word b = s.word b := (rfl)

/-- Raising sets bits of PG_ISR. -/
theorem State.raiseMask_isr (s : State) (p m : Nat) :
    (s.raiseMask p m).word (PG_ISR p).addr = s.word (PG_ISR p).addr ||| BitVec.ofNat 32 m := by
  simp [State.raiseMask, State.setIsr]

/-- Raising changes no other word. -/
theorem State.raiseMask_word (s : State) (p m a : Nat) (h : a ≠ (PG_ISR p).addr) : (s.raiseMask p m).word a = s.word a := by
  simp [State.raiseMask, State.setIsr, State.word_setWord_ne _ _ _ _ h]

theorem State.raise_word (s : State) (p b a : Nat) (h : a ≠ (PG_ISR p).addr) : (s.raise p b).word a = s.word a :=
  s.raiseMask_word p _ a h

theorem State.raise_rd (s : State) (p b : Nat) (g : Fld) (h : g.addr ≠ (PG_ISR p).addr) : (s.raise p b).rd g = s.rd g := by
  unfold State.rd; rw [s.raise_word p b _ h]

theorem State.raise_on (s : State) (p b : Nat) (g : Fld) (h : g.addr ≠ (PG_ISR p).addr) : (s.raise p b).on g = s.on g := by
  unfold State.on; rw [s.raise_rd p b _ h]

/-- The bit raised reads 1. -/
theorem State.raise_bit (s : State) (p b : Nat) (h : b < 32) : ((s.raise p b).word (PG_ISR p).addr).getLsbD b = true := by
  unfold State.raise
  rw [State.raiseMask_isr, BitVec.getLsbD_or, BitVec.getLsbD_ofNat]
  simp [h]

/-- LIFE takes the value; the word changes in no other way, and no other word but PG_ISR changes. -/
theorem State.setLife_word (s : State) (p v a : Nat) (h : a ≠ (PG_ISR p).addr) (k : a ≠ (PG_STATE_LIFE p).addr) :
    (s.setLife p v).word a = s.word a := by
  unfold State.setLife; split
  · rfl
  · rw [State.raise_word _ _ _ _ h, State.word_wr_ne _ _ _ _ k]

theorem State.setLife_rd (s : State) (p v : Nat) (g : Fld) (h : g.addr ≠ (PG_ISR p).addr) (k : g.addr ≠ (PG_STATE_LIFE p).addr) :
    (s.setLife p v).rd g = s.rd g := by
  unfold State.rd; rw [s.setLife_word p v _ h k]

theorem State.setLife_life (s : State) (p v : Nat) (h : v < 8) : (s.setLife p v).rd (PG_STATE_LIFE p) = v := by
  unfold State.setLife; split
  · assumption
  · rw [State.raise_rd _ _ _ _ (by simp [PG_ISR, PG_STATE_LIFE]), State.rd_wr_self _ _ _ (by simp [PG_STATE_LIFE]) (by simp [PG_STATE_LIFE])]
    simp only [Fld.width, PG_STATE_LIFE]; omega

/-! ## What raising leaves alone -/

@[simp] theorem State.raise_pending (s : State) (p b : Nat) : (s.raise p b).pending = s.pending :=
  (State.raise_follows (msk := 2) rfl p b (Follows.refl 2 s)).pending

@[simp] theorem State.raise_chip (s : State) (p b : Nat) : (s.raise p b).chip = s.chip :=
  (State.raise_follows (msk := 2) rfl p b (Follows.refl 2 s)).parts .chip rfl

@[simp] theorem State.raise_time (s : State) (p b : Nat) : (s.raise p b).time = s.time :=
  (State.raise_follows (msk := 2) rfl p b (Follows.refl 2 s)).parts .time rfl

@[simp] theorem State.raise_ports (s : State) (p b : Nat) : (s.raise p b).ports = s.ports :=
  (State.raise_follows (msk := 2) rfl p b (Follows.refl 2 s)).parts .ports rfl

@[simp] theorem State.raise_pwr (s : State) (p b : Nat) : (s.raise p b).pwr = s.pwr :=
  (State.raise_follows (msk := 2) rfl p b (Follows.refl 2 s)).parts .pwr rfl

@[simp] theorem State.raise_evi (s : State) (p b : Nat) : (s.raise p b).evi = s.evi :=
  (State.raise_follows (msk := 2) rfl p b (Follows.refl 2 s)).parts .evi rfl

@[simp] theorem State.raise_ctxs (s : State) (p b : Nat) : (s.raise p b).ctxs = s.ctxs :=
  (State.raise_follows (msk := 2) rfl p b (Follows.refl 2 s)).parts .ctxs rfl

@[simp] theorem State.raise_quar (s : State) (p b : Nat) : (s.raise p b).quar = s.quar :=
  (State.raise_follows (msk := 2) rfl p b (Follows.refl 2 s)).parts .quar rfl

@[simp] theorem State.raise_gird (s : State) (p b : Nat) : (s.raise p b).gird = s.gird :=
  (State.raise_follows (msk := 2) rfl p b (Follows.refl 2 s)).parts .gird rfl

@[simp] theorem State.raise_sch (s : State) (p b : Nat) : (s.raise p b).sch = s.sch :=
  (State.raise_follows (msk := 2) rfl p b (Follows.refl 2 s)).parts .sch rfl

@[simp] theorem State.raise_brg (s : State) (p b : Nat) : (s.raise p b).brg = s.brg :=
  (State.raise_follows (msk := 2) rfl p b (Follows.refl 2 s)).parts .brg rfl

@[simp] theorem State.raise_dma (s : State) (p b : Nat) : (s.raise p b).dma = s.dma :=
  (State.raise_follows (msk := 2) rfl p b (Follows.refl 2 s)).parts .dma rfl

@[simp] theorem State.raise_fac (s : State) (p b : Nat) : (s.raise p b).fac = s.fac :=
  (State.raise_follows (msk := 2) rfl p b (Follows.refl 2 s)).parts .fac rfl

@[simp] theorem State.raise_dp (s : State) (p b : Nat) : (s.raise p b).dp = s.dp :=
  (State.raise_follows (msk := 2) rfl p b (Follows.refl 2 s)).parts .dp rfl

@[simp] theorem State.raise_usb (s : State) (p b : Nat) : (s.raise p b).usb = s.usb :=
  (State.raise_follows (msk := 2) rfl p b (Follows.refl 2 s)).parts .usb rfl

@[simp] theorem State.raise_stn (s : State) (p b : Nat) : (s.raise p b).stn = s.stn :=
  (State.raise_follows (msk := 2) rfl p b (Follows.refl 2 s)).parts .stn rfl

@[simp] theorem State.raise_bzl (s : State) (p b : Nat) : (s.raise p b).bzl = s.bzl :=
  (State.raise_follows (msk := 2) rfl p b (Follows.refl 2 s)).parts .bzl rfl

@[simp] theorem State.raise_svc (s : State) (p b : Nat) : (s.raise p b).svc = s.svc :=
  (State.raise_follows (msk := 2) rfl p b (Follows.refl 2 s)).parts .svc rfl

@[simp] theorem State.raise_sec (s : State) (p b : Nat) : (s.raise p b).sec = s.sec :=
  (State.raise_follows (msk := 2) rfl p b (Follows.refl 2 s)).parts .sec rfl

@[simp] theorem State.raise_boot (s : State) (p b : Nat) : (s.raise p b).boot = s.boot :=
  (State.raise_follows (msk := 2) rfl p b (Follows.refl 2 s)).parts .boot rfl

@[simp] theorem State.setLife_pending (s : State) (p v : Nat) : (s.setLife p v).pending = s.pending :=
  (State.setLife_follows (msk := 2) rfl p v (Follows.refl 2 s)).pending

@[simp] theorem State.setLife_chip (s : State) (p v : Nat) : (s.setLife p v).chip = s.chip :=
  (State.setLife_follows (msk := 2) rfl p v (Follows.refl 2 s)).parts .chip rfl

@[simp] theorem State.setLife_time (s : State) (p v : Nat) : (s.setLife p v).time = s.time :=
  (State.setLife_follows (msk := 2) rfl p v (Follows.refl 2 s)).parts .time rfl

@[simp] theorem State.setLife_ports (s : State) (p v : Nat) : (s.setLife p v).ports = s.ports :=
  (State.setLife_follows (msk := 2) rfl p v (Follows.refl 2 s)).parts .ports rfl

@[simp] theorem State.setLife_pwr (s : State) (p v : Nat) : (s.setLife p v).pwr = s.pwr :=
  (State.setLife_follows (msk := 2) rfl p v (Follows.refl 2 s)).parts .pwr rfl

@[simp] theorem State.setLife_evi (s : State) (p v : Nat) : (s.setLife p v).evi = s.evi :=
  (State.setLife_follows (msk := 2) rfl p v (Follows.refl 2 s)).parts .evi rfl

@[simp] theorem State.setLife_ctxs (s : State) (p v : Nat) : (s.setLife p v).ctxs = s.ctxs :=
  (State.setLife_follows (msk := 2) rfl p v (Follows.refl 2 s)).parts .ctxs rfl

@[simp] theorem State.setLife_quar (s : State) (p v : Nat) : (s.setLife p v).quar = s.quar :=
  (State.setLife_follows (msk := 2) rfl p v (Follows.refl 2 s)).parts .quar rfl

@[simp] theorem State.setLife_gird (s : State) (p v : Nat) : (s.setLife p v).gird = s.gird :=
  (State.setLife_follows (msk := 2) rfl p v (Follows.refl 2 s)).parts .gird rfl

@[simp] theorem State.setLife_sch (s : State) (p v : Nat) : (s.setLife p v).sch = s.sch :=
  (State.setLife_follows (msk := 2) rfl p v (Follows.refl 2 s)).parts .sch rfl

@[simp] theorem State.setLife_brg (s : State) (p v : Nat) : (s.setLife p v).brg = s.brg :=
  (State.setLife_follows (msk := 2) rfl p v (Follows.refl 2 s)).parts .brg rfl

@[simp] theorem State.setLife_dma (s : State) (p v : Nat) : (s.setLife p v).dma = s.dma :=
  (State.setLife_follows (msk := 2) rfl p v (Follows.refl 2 s)).parts .dma rfl

@[simp] theorem State.setLife_fac (s : State) (p v : Nat) : (s.setLife p v).fac = s.fac :=
  (State.setLife_follows (msk := 2) rfl p v (Follows.refl 2 s)).parts .fac rfl

@[simp] theorem State.setLife_dp (s : State) (p v : Nat) : (s.setLife p v).dp = s.dp :=
  (State.setLife_follows (msk := 2) rfl p v (Follows.refl 2 s)).parts .dp rfl

@[simp] theorem State.setLife_usb (s : State) (p v : Nat) : (s.setLife p v).usb = s.usb :=
  (State.setLife_follows (msk := 2) rfl p v (Follows.refl 2 s)).parts .usb rfl

@[simp] theorem State.setLife_stn (s : State) (p v : Nat) : (s.setLife p v).stn = s.stn :=
  (State.setLife_follows (msk := 2) rfl p v (Follows.refl 2 s)).parts .stn rfl

@[simp] theorem State.setLife_bzl (s : State) (p v : Nat) : (s.setLife p v).bzl = s.bzl :=
  (State.setLife_follows (msk := 2) rfl p v (Follows.refl 2 s)).parts .bzl rfl

@[simp] theorem State.setLife_svc (s : State) (p v : Nat) : (s.setLife p v).svc = s.svc :=
  (State.setLife_follows (msk := 2) rfl p v (Follows.refl 2 s)).parts .svc rfl

@[simp] theorem State.setLife_sec (s : State) (p v : Nat) : (s.setLife p v).sec = s.sec :=
  (State.setLife_follows (msk := 2) rfl p v (Follows.refl 2 s)).parts .sec rfl

@[simp] theorem State.setLife_boot (s : State) (p v : Nat) : (s.setLife p v).boot = s.boot :=
  (State.setLife_follows (msk := 2) rfl p v (Follows.refl 2 s)).parts .boot rfl

end Sys2Proof.Machine
end

