-- ==== Sys2Proof/Laws/Parts.lean ====
section
/-!
SUPPORT. The parts of a link port, a DMA channel, a gate list and a domain through the updates of the state.
-/

namespace Sys2Proof.Machine

@[simp] theorem State.setWord_port (s : State) (a : Nat) (v : Word) (n : Nat) : (s.setWord a v).port n = s.port n := (rfl)
@[simp] theorem State.wr_port (s : State) (f : Fld) (v : Nat) (n : Nat) : (s.wr f v).port n = s.port n := (rfl)
@[simp] theorem State.flag_port (s : State) (f : Fld) (b : Bool) (n : Nat) : (s.flag f b).port n = s.port n := (rfl)
@[simp] theorem State.inc_port (s : State) (f : Fld) (k : Nat) (n : Nat) : (s.inc f k).port n = s.port n := (rfl)
@[simp] theorem State.incSat_port (s : State) (f : Fld) (n : Nat) : (s.incSat f).port n = s.port n := (rfl)
@[simp] theorem State.setBit_port (s : State) (f : Fld) (b : Nat) (v : Bool) (n : Nat) : (s.setBit f b v).port n = s.port n := (rfl)
@[simp] theorem State.emit_port (s : State) (o : Out) (n : Nat) : (s.emit o).port n = s.port n := (rfl)
@[simp] theorem State.freshVal_port (s : State) (n : Nat) : (s.freshVal.2).port n = s.port n := (rfl)
@[simp] theorem State.raise_port (s : State) (p b : Nat) (n : Nat) : (s.raise p b).port n = s.port n := by simp [State.port]
@[simp] theorem State.setLife_port (s : State) (p v : Nat) (n : Nat) : (s.setLife p v).port n = s.port n := by simp [State.port]

@[simp] theorem State.setWord_tr (s : State) (a : Nat) (v : Word) (n : Nat) : (s.setWord a v).tr n = s.tr n := (rfl)
@[simp] theorem State.wr_tr (s : State) (f : Fld) (v : Nat) (n : Nat) : (s.wr f v).tr n = s.tr n := (rfl)
@[simp] theorem State.flag_tr (s : State) (f : Fld) (b : Bool) (n : Nat) : (s.flag f b).tr n = s.tr n := (rfl)
@[simp] theorem State.inc_tr (s : State) (f : Fld) (k : Nat) (n : Nat) : (s.inc f k).tr n = s.tr n := (rfl)
@[simp] theorem State.incSat_tr (s : State) (f : Fld) (n : Nat) : (s.incSat f).tr n = s.tr n := (rfl)
@[simp] theorem State.setBit_tr (s : State) (f : Fld) (b : Nat) (v : Bool) (n : Nat) : (s.setBit f b v).tr n = s.tr n := (rfl)
@[simp] theorem State.emit_tr (s : State) (o : Out) (n : Nat) : (s.emit o).tr n = s.tr n := (rfl)
@[simp] theorem State.freshVal_tr (s : State) (n : Nat) : (s.freshVal.2).tr n = s.tr n := (rfl)
@[simp] theorem State.raise_tr (s : State) (p b : Nat) (n : Nat) : (s.raise p b).tr n = s.tr n := by simp [State.tr, State.port]
@[simp] theorem State.setLife_tr (s : State) (p v : Nat) (n : Nat) : (s.setLife p v).tr n = s.tr n := by simp [State.tr, State.port]

@[simp] theorem State.setWord_ep (s : State) (a : Nat) (v : Word) (n : Nat) : (s.setWord a v).ep n = s.ep n := (rfl)
@[simp] theorem State.wr_ep (s : State) (f : Fld) (v : Nat) (n : Nat) : (s.wr f v).ep n = s.ep n := (rfl)
@[simp] theorem State.flag_ep (s : State) (f : Fld) (b : Bool) (n : Nat) : (s.flag f b).ep n = s.ep n := (rfl)
@[simp] theorem State.inc_ep (s : State) (f : Fld) (k : Nat) (n : Nat) : (s.inc f k).ep n = s.ep n := (rfl)
@[simp] theorem State.incSat_ep (s : State) (f : Fld) (n : Nat) : (s.incSat f).ep n = s.ep n := (rfl)
@[simp] theorem State.setBit_ep (s : State) (f : Fld) (b : Nat) (v : Bool) (n : Nat) : (s.setBit f b v).ep n = s.ep n := (rfl)
@[simp] theorem State.emit_ep (s : State) (o : Out) (n : Nat) : (s.emit o).ep n = s.ep n := (rfl)
@[simp] theorem State.freshVal_ep (s : State) (n : Nat) : (s.freshVal.2).ep n = s.ep n := (rfl)
@[simp] theorem State.raise_ep (s : State) (p b : Nat) (n : Nat) : (s.raise p b).ep n = s.ep n := by simp [State.ep, State.port]
@[simp] theorem State.setLife_ep (s : State) (p v : Nat) (n : Nat) : (s.setLife p v).ep n = s.ep n := by simp [State.ep, State.port]

@[simp] theorem State.setWord_tm (s : State) (a : Nat) (v : Word) (n : Nat) : (s.setWord a v).tm n = s.tm n := (rfl)
@[simp] theorem State.wr_tm (s : State) (f : Fld) (v : Nat) (n : Nat) : (s.wr f v).tm n = s.tm n := (rfl)
@[simp] theorem State.flag_tm (s : State) (f : Fld) (b : Bool) (n : Nat) : (s.flag f b).tm n = s.tm n := (rfl)
@[simp] theorem State.inc_tm (s : State) (f : Fld) (k : Nat) (n : Nat) : (s.inc f k).tm n = s.tm n := (rfl)
@[simp] theorem State.incSat_tm (s : State) (f : Fld) (n : Nat) : (s.incSat f).tm n = s.tm n := (rfl)
@[simp] theorem State.setBit_tm (s : State) (f : Fld) (b : Nat) (v : Bool) (n : Nat) : (s.setBit f b v).tm n = s.tm n := (rfl)
@[simp] theorem State.emit_tm (s : State) (o : Out) (n : Nat) : (s.emit o).tm n = s.tm n := (rfl)
@[simp] theorem State.freshVal_tm (s : State) (n : Nat) : (s.freshVal.2).tm n = s.tm n := (rfl)
@[simp] theorem State.raise_tm (s : State) (p b : Nat) (n : Nat) : (s.raise p b).tm n = s.tm n := by simp [State.tm, State.port]
@[simp] theorem State.setLife_tm (s : State) (p v : Nat) (n : Nat) : (s.setLife p v).tm n = s.tm n := by simp [State.tm, State.port]

@[simp] theorem State.setWord_lk (s : State) (a : Nat) (v : Word) (n : Nat) : (s.setWord a v).lk n = s.lk n := (rfl)
@[simp] theorem State.wr_lk (s : State) (f : Fld) (v : Nat) (n : Nat) : (s.wr f v).lk n = s.lk n := (rfl)
@[simp] theorem State.flag_lk (s : State) (f : Fld) (b : Bool) (n : Nat) : (s.flag f b).lk n = s.lk n := (rfl)
@[simp] theorem State.inc_lk (s : State) (f : Fld) (k : Nat) (n : Nat) : (s.inc f k).lk n = s.lk n := (rfl)
@[simp] theorem State.incSat_lk (s : State) (f : Fld) (n : Nat) : (s.incSat f).lk n = s.lk n := (rfl)
@[simp] theorem State.setBit_lk (s : State) (f : Fld) (b : Nat) (v : Bool) (n : Nat) : (s.setBit f b v).lk n = s.lk n := (rfl)
@[simp] theorem State.emit_lk (s : State) (o : Out) (n : Nat) : (s.emit o).lk n = s.lk n := (rfl)
@[simp] theorem State.freshVal_lk (s : State) (n : Nat) : (s.freshVal.2).lk n = s.lk n := (rfl)
@[simp] theorem State.raise_lk (s : State) (p b : Nat) (n : Nat) : (s.raise p b).lk n = s.lk n := by simp [State.lk, State.port]
@[simp] theorem State.setLife_lk (s : State) (p v : Nat) (n : Nat) : (s.setLife p v).lk n = s.lk n := by simp [State.lk, State.port]

@[simp] theorem State.setWord_chan (s : State) (a : Nat) (v : Word) (c : Nat) : (s.setWord a v).chan c = s.chan c := (rfl)
@[simp] theorem State.wr_chan (s : State) (f : Fld) (v : Nat) (c : Nat) : (s.wr f v).chan c = s.chan c := (rfl)
@[simp] theorem State.flag_chan (s : State) (f : Fld) (b : Bool) (c : Nat) : (s.flag f b).chan c = s.chan c := (rfl)
@[simp] theorem State.inc_chan (s : State) (f : Fld) (k : Nat) (c : Nat) : (s.inc f k).chan c = s.chan c := (rfl)
@[simp] theorem State.incSat_chan (s : State) (f : Fld) (c : Nat) : (s.incSat f).chan c = s.chan c := (rfl)
@[simp] theorem State.setBit_chan (s : State) (f : Fld) (b : Nat) (v : Bool) (c : Nat) : (s.setBit f b v).chan c = s.chan c := (rfl)
@[simp] theorem State.emit_chan (s : State) (o : Out) (c : Nat) : (s.emit o).chan c = s.chan c := (rfl)
@[simp] theorem State.freshVal_chan (s : State) (c : Nat) : (s.freshVal.2).chan c = s.chan c := (rfl)
@[simp] theorem State.raise_chan (s : State) (p b : Nat) (c : Nat) : (s.raise p b).chan c = s.chan c := by simp [State.chan]
@[simp] theorem State.setLife_chan (s : State) (p v : Nat) (c : Nat) : (s.setLife p v).chan c = s.chan c := by simp [State.chan]

@[simp] theorem State.setWord_gcl (s : State) (a : Nat) (v : Word) (l : Nat) : (s.setWord a v).gcl l = s.gcl l := (rfl)
@[simp] theorem State.wr_gcl (s : State) (f : Fld) (v : Nat) (l : Nat) : (s.wr f v).gcl l = s.gcl l := (rfl)
@[simp] theorem State.flag_gcl (s : State) (f : Fld) (b : Bool) (l : Nat) : (s.flag f b).gcl l = s.gcl l := (rfl)
@[simp] theorem State.inc_gcl (s : State) (f : Fld) (k : Nat) (l : Nat) : (s.inc f k).gcl l = s.gcl l := (rfl)
@[simp] theorem State.incSat_gcl (s : State) (f : Fld) (l : Nat) : (s.incSat f).gcl l = s.gcl l := (rfl)
@[simp] theorem State.setBit_gcl (s : State) (f : Fld) (b : Nat) (v : Bool) (l : Nat) : (s.setBit f b v).gcl l = s.gcl l := (rfl)
@[simp] theorem State.emit_gcl (s : State) (o : Out) (l : Nat) : (s.emit o).gcl l = s.gcl l := (rfl)
@[simp] theorem State.freshVal_gcl (s : State) (l : Nat) : (s.freshVal.2).gcl l = s.gcl l := (rfl)
@[simp] theorem State.raise_gcl (s : State) (p b : Nat) (l : Nat) : (s.raise p b).gcl l = s.gcl l := by simp [State.gcl]
@[simp] theorem State.setLife_gcl (s : State) (p v : Nat) (l : Nat) : (s.setLife p v).gcl l = s.gcl l := by simp [State.gcl]

@[simp] theorem State.setWord_dom (s : State) (a : Nat) (v : Word) (d : Nat) : (s.setWord a v).dom d = s.dom d := (rfl)
@[simp] theorem State.wr_dom (s : State) (f : Fld) (v : Nat) (d : Nat) : (s.wr f v).dom d = s.dom d := (rfl)
@[simp] theorem State.flag_dom (s : State) (f : Fld) (b : Bool) (d : Nat) : (s.flag f b).dom d = s.dom d := (rfl)
@[simp] theorem State.inc_dom (s : State) (f : Fld) (k : Nat) (d : Nat) : (s.inc f k).dom d = s.dom d := (rfl)
@[simp] theorem State.incSat_dom (s : State) (f : Fld) (d : Nat) : (s.incSat f).dom d = s.dom d := (rfl)
@[simp] theorem State.setBit_dom (s : State) (f : Fld) (b : Nat) (v : Bool) (d : Nat) : (s.setBit f b v).dom d = s.dom d := (rfl)
@[simp] theorem State.emit_dom (s : State) (o : Out) (d : Nat) : (s.emit o).dom d = s.dom d := (rfl)
@[simp] theorem State.freshVal_dom (s : State) (d : Nat) : (s.freshVal.2).dom d = s.dom d := (rfl)
@[simp] theorem State.raise_dom (s : State) (p b : Nat) (d : Nat) : (s.raise p b).dom d = s.dom d := by simp [State.dom]
@[simp] theorem State.setLife_dom (s : State) (p v : Nat) (d : Nat) : (s.setLife p v).dom d = s.dom d := by simp [State.dom]

@[simp] theorem State.setWord_ctx (s : State) (a : Nat) (v : Word) (c : Nat) : (s.setWord a v).ctx c = s.ctx c := (rfl)
@[simp] theorem State.wr_ctx (s : State) (f : Fld) (v : Nat) (c : Nat) : (s.wr f v).ctx c = s.ctx c := (rfl)
@[simp] theorem State.flag_ctx (s : State) (f : Fld) (b : Bool) (c : Nat) : (s.flag f b).ctx c = s.ctx c := (rfl)
@[simp] theorem State.inc_ctx (s : State) (f : Fld) (k : Nat) (c : Nat) : (s.inc f k).ctx c = s.ctx c := (rfl)
@[simp] theorem State.incSat_ctx (s : State) (f : Fld) (c : Nat) : (s.incSat f).ctx c = s.ctx c := (rfl)
@[simp] theorem State.setBit_ctx (s : State) (f : Fld) (b : Nat) (v : Bool) (c : Nat) : (s.setBit f b v).ctx c = s.ctx c := (rfl)
@[simp] theorem State.emit_ctx (s : State) (o : Out) (c : Nat) : (s.emit o).ctx c = s.ctx c := (rfl)
@[simp] theorem State.freshVal_ctx (s : State) (c : Nat) : (s.freshVal.2).ctx c = s.ctx c := (rfl)
@[simp] theorem State.raise_ctx (s : State) (p b : Nat) (c : Nat) : (s.raise p b).ctx c = s.ctx c := by simp [State.ctx]
@[simp] theorem State.setLife_ctx (s : State) (p v : Nat) (c : Nat) : (s.setLife p v).ctx c = s.ctx c := by simp [State.ctx]

@[simp] theorem State.setWord_eng (s : State) (a : Nat) (v : Word) (e : Nat) : (s.setWord a v).eng e = s.eng e := (rfl)
@[simp] theorem State.wr_eng (s : State) (f : Fld) (v : Nat) (e : Nat) : (s.wr f v).eng e = s.eng e := (rfl)
@[simp] theorem State.flag_eng (s : State) (f : Fld) (b : Bool) (e : Nat) : (s.flag f b).eng e = s.eng e := (rfl)
@[simp] theorem State.inc_eng (s : State) (f : Fld) (k : Nat) (e : Nat) : (s.inc f k).eng e = s.eng e := (rfl)
@[simp] theorem State.incSat_eng (s : State) (f : Fld) (e : Nat) : (s.incSat f).eng e = s.eng e := (rfl)
@[simp] theorem State.setBit_eng (s : State) (f : Fld) (b : Nat) (v : Bool) (e : Nat) : (s.setBit f b v).eng e = s.eng e := (rfl)
@[simp] theorem State.emit_eng (s : State) (o : Out) (e : Nat) : (s.emit o).eng e = s.eng e := (rfl)
@[simp] theorem State.freshVal_eng (s : State) (e : Nat) : (s.freshVal.2).eng e = s.eng e := (rfl)
@[simp] theorem State.raise_eng (s : State) (p b : Nat) (e : Nat) : (s.raise p b).eng e = s.eng e := by simp [State.eng]
@[simp] theorem State.setLife_eng (s : State) (p v : Nat) (e : Nat) : (s.setLife p v).eng e = s.eng e := by simp [State.eng]

@[simp] theorem State.setWord_slot (s : State) (a : Nat) (v : Word) (i : Nat) : (s.setWord a v).slot i = s.slot i := (rfl)
@[simp] theorem State.wr_slot (s : State) (f : Fld) (v : Nat) (i : Nat) : (s.wr f v).slot i = s.slot i := (rfl)
@[simp] theorem State.flag_slot (s : State) (f : Fld) (b : Bool) (i : Nat) : (s.flag f b).slot i = s.slot i := (rfl)
@[simp] theorem State.inc_slot (s : State) (f : Fld) (k : Nat) (i : Nat) : (s.inc f k).slot i = s.slot i := (rfl)
@[simp] theorem State.incSat_slot (s : State) (f : Fld) (i : Nat) : (s.incSat f).slot i = s.slot i := (rfl)
@[simp] theorem State.setBit_slot (s : State) (f : Fld) (b : Nat) (v : Bool) (i : Nat) : (s.setBit f b v).slot i = s.slot i := (rfl)
@[simp] theorem State.emit_slot (s : State) (o : Out) (i : Nat) : (s.emit o).slot i = s.slot i := (rfl)
@[simp] theorem State.freshVal_slot (s : State) (i : Nat) : (s.freshVal.2).slot i = s.slot i := (rfl)
@[simp] theorem State.raise_slot (s : State) (p b : Nat) (i : Nat) : (s.raise p b).slot i = s.slot i := by simp [State.slot]
@[simp] theorem State.setLife_slot (s : State) (p v : Nat) (i : Nat) : (s.setLife p v).slot i = s.slot i := by simp [State.slot]

@[simp] theorem State.setWord_eviIn (s : State) (a : Nat) (v : Word) (i : Nat) : (s.setWord a v).eviIn i = s.eviIn i := (rfl)
@[simp] theorem State.wr_eviIn (s : State) (f : Fld) (v : Nat) (i : Nat) : (s.wr f v).eviIn i = s.eviIn i := (rfl)
@[simp] theorem State.flag_eviIn (s : State) (f : Fld) (b : Bool) (i : Nat) : (s.flag f b).eviIn i = s.eviIn i := (rfl)
@[simp] theorem State.inc_eviIn (s : State) (f : Fld) (k : Nat) (i : Nat) : (s.inc f k).eviIn i = s.eviIn i := (rfl)
@[simp] theorem State.incSat_eviIn (s : State) (f : Fld) (i : Nat) : (s.incSat f).eviIn i = s.eviIn i := (rfl)
@[simp] theorem State.setBit_eviIn (s : State) (f : Fld) (b : Nat) (v : Bool) (i : Nat) : (s.setBit f b v).eviIn i = s.eviIn i := (rfl)
@[simp] theorem State.emit_eviIn (s : State) (o : Out) (i : Nat) : (s.emit o).eviIn i = s.eviIn i := (rfl)
@[simp] theorem State.freshVal_eviIn (s : State) (i : Nat) : (s.freshVal.2).eviIn i = s.eviIn i := (rfl)
@[simp] theorem State.raise_eviIn (s : State) (p b : Nat) (i : Nat) : (s.raise p b).eviIn i = s.eviIn i := by simp [State.eviIn]
@[simp] theorem State.setLife_eviIn (s : State) (p v : Nat) (i : Nat) : (s.setLife p v).eviIn i = s.eviIn i := by simp [State.eviIn]

/-! ## A part of a port, written and read back -/

@[simp] theorem State.port_modPort_self (s : State) (n : Nat) (f : Port → Port) : (s.modPort n f).port n = f (s.port n) := by
  simp [State.port, State.modPort]

@[simp] theorem State.modTr_tr (s : State) (n : Nat) (f : Train → Train) : (s.modTr n f).tr n = f (s.tr n) := by
  simp [State.modTr, State.tr]

@[simp] theorem State.modTr_ep (s : State) (n : Nat) (f : Train → Train) : (s.modTr n f).ep n = s.ep n := by
  simp [State.modTr, State.ep]

@[simp] theorem State.modTr_tm (s : State) (n : Nat) (f : Train → Train) : (s.modTr n f).tm n = s.tm n := by
  simp [State.modTr, State.tm]

@[simp] theorem State.modTr_lk (s : State) (n : Nat) (f : Train → Train) : (s.modTr n f).lk n = s.lk n := by
  simp [State.modTr, State.lk]

@[simp] theorem State.modEp_ep (s : State) (n : Nat) (f : Epoch → Epoch) : (s.modEp n f).ep n = f (s.ep n) := by
  simp [State.modEp, State.ep]

@[simp] theorem State.modEp_tr (s : State) (n : Nat) (f : Epoch → Epoch) : (s.modEp n f).tr n = s.tr n := by
  simp [State.modEp, State.tr]

@[simp] theorem State.modEp_tm (s : State) (n : Nat) (f : Epoch → Epoch) : (s.modEp n f).tm n = s.tm n := by
  simp [State.modEp, State.tm]

@[simp] theorem State.modEp_lk (s : State) (n : Nat) (f : Epoch → Epoch) : (s.modEp n f).lk n = s.lk n := by
  simp [State.modEp, State.lk]

@[simp] theorem State.modTm_tm (s : State) (n : Nat) (f : LinkTime → LinkTime) : (s.modTm n f).tm n = f (s.tm n) := by
  simp [State.modTm, State.tm]

@[simp] theorem State.modTm_tr (s : State) (n : Nat) (f : LinkTime → LinkTime) : (s.modTm n f).tr n = s.tr n := by
  simp [State.modTm, State.tr]

@[simp] theorem State.modTm_ep (s : State) (n : Nat) (f : LinkTime → LinkTime) : (s.modTm n f).ep n = s.ep n := by
  simp [State.modTm, State.ep]

@[simp] theorem State.modTm_lk (s : State) (n : Nat) (f : LinkTime → LinkTime) : (s.modTm n f).lk n = s.lk n := by
  simp [State.modTm, State.lk]

@[simp] theorem State.modLk_lk (s : State) (n : Nat) (f : LinkKey → LinkKey) : (s.modLk n f).lk n = f (s.lk n) := by
  simp [State.modLk, State.lk]

@[simp] theorem State.modLk_tr (s : State) (n : Nat) (f : LinkKey → LinkKey) : (s.modLk n f).tr n = s.tr n := by
  simp [State.modLk, State.tr]

@[simp] theorem State.modLk_ep (s : State) (n : Nat) (f : LinkKey → LinkKey) : (s.modLk n f).ep n = s.ep n := by
  simp [State.modLk, State.ep]

@[simp] theorem State.modLk_tm (s : State) (n : Nat) (f : LinkKey → LinkKey) : (s.modLk n f).tm n = s.tm n := by
  simp [State.modLk, State.tm]

@[simp] theorem State.modCtx_ctx (s : State) (c : Nat) (f : CtxS → CtxS) : (s.modCtx c f).ctx c = f (s.ctx c) := by
  simp [State.modCtx, State.ctx]

@[simp] theorem State.modEng_eng (s : State) (e : Nat) (f : EngS → EngS) : (s.modEng e f).eng e = f (s.eng e) := by
  simp [State.modEng, State.eng, State.modFac]

@[simp] theorem State.modSlot_slot (s : State) (i : Nat) (f : KeySlot → KeySlot) : (s.modSlot i f).slot i = f (s.slot i) := by
  simp [State.modSlot, State.slot, State.modSec]

@[simp] theorem State.modIn_eviIn (s : State) (i : Nat) (f : EviIn → EviIn) : (s.modIn i f).eviIn i = f (s.eviIn i) := by
  simp [State.modIn, State.eviIn, State.modEvi]

@[simp] theorem State.modChan_chan (s : State) (c : Nat) (f : Chan → Chan) : (s.modChan c f).chan c = f (s.chan c) := by
  simp [State.modChan, State.chan, State.modDma]

@[simp] theorem State.modGcl_gcl (s : State) (l : Nat) (f : GclS → GclS) : (s.modGcl l f).gcl l = f (s.gcl l) := by
  simp [State.modGcl, State.gcl]

end Sys2Proof.Machine
end

