-- ==== Sys2Proof/Laws/Gate.lean ====
section
/-!
SUPPORT. Accesses that reach their block, and writes of command bits.
-/

namespace Sys2Proof.Machine

theorem State.gate_reaches {s : State} {x : Acc} (h : Reaches s x.path x.addr) (k : State → State) : s.gate x k = k s := by
  unfold State.gate Reaches at *
  rcases h with ⟨h0, ho, h1 | ⟨h1, h2⟩⟩ <;> simp [*]

/-- A command bit whose check passes acts. -/
theorem State.command_accepted {s : State} {p : Path} {f : Fld} {chk : State → Nat} {act : State → State}
    (h : Reaches s p (f.addr % 0x40000)) (hc : chk s = 0) : s.command p f chk act = accepted s (act s) p (f.addr % 0x40000) := by
  simp [State.command, State.gate_reaches (x := ⟨p, f.addr % 0x40000, true, _⟩) h, hc, accepted]

/-- A command bit whose check fails is rejected with its code. -/
theorem State.command_rejected {s : State} {p : Path} {f : Fld} {chk : State → Nat} {act : State → State}
    (h : Reaches s p (f.addr % 0x40000)) (hc : chk s ≠ 0) : s.command p f chk act =
      s.reject p (f.addr % 0x40000) (chk s) ((s.word (f.addr % 0x40000)).toNat ||| 2 ^ f.lo) := by
  simp [State.command, State.gate_reaches (x := ⟨p, f.addr % 0x40000, true, _⟩) h, hc]

theorem State.writeOwn_accepted {s : State} {p : Path} {a v : Nat} {chk : State → Nat} {act : State → State} (h : Reaches s p a)
    (hc : chk s = 0) : s.writeOwn p a v chk act = accepted s (act s) p a := by
  simp [State.writeOwn, State.gate_reaches (x := ⟨p, a, true, v⟩) h, hc, accepted]

theorem State.writeOwn_rejected {s : State} {p : Path} {a v : Nat} {chk : State → Nat} {act : State → State} (h : Reaches s p a)
    (hc : chk s ≠ 0) : s.writeOwn p a v chk act = s.reject p a (chk s) v := by
  simp [State.writeOwn, State.gate_reaches (x := ⟨p, a, true, v⟩) h, hc]

theorem State.readOwn_reaches {s : State} {p : Path} {a : Nat} {val : State → Nat} {act : State → State} (h : Reaches s p a) :
    s.readOwn p a val act = (act s).readBack p a (val s) := by
  simp [State.readOwn, State.gate_reaches (x := ⟨p, a, false, 0⟩) h]

end Sys2Proof.Machine
end

