-- ==== Sys2Proof/Laws/Fields.lean ====
section
/-!
SUPPORT. Reading a field after a field of the same or another place is written, reading an entry of a table after one is changed, and
the answers of a command bit and of a read with an effect.
-/

namespace Sys2Proof.Machine

open Sys2Proof

theorem Fld.width_def (f : Fld) : f.width = f.hi + 1 - f.lo := (rfl)
@[simp] theorem State.when_true (s : State) (f : State → State) : s.when true f = f s := (rfl)
@[simp] theorem State.when_false (s : State) (f : State → State) : s.when false f = s := (rfl)
theorem State.rd_flag_self (s : State) (f : Fld) (b : Bool) (h : f.lo = f.hi) (h32 : f.hi < 32) : (s.flag f b).rd f = b.toNat := by
  rw [State.flag, State.rd_wr_self _ _ _ (le_of_eq h) h32, Fld.width_def, h, Nat.add_sub_cancel_left]; cases b <;> rfl
theorem State.on_flag_self (s : State) (f : Fld) (b : Bool) (h : f.lo = f.hi) (h32 : f.hi < 32) : (s.flag f b).on f = b := by
  unfold State.on; rw [State.rd_flag_self s f b h h32]; cases b <;> rfl
theorem State.rd_flag_ne (s : State) (f g : Fld) (b : Bool) (h : g.addr ≠ f.addr) : (s.flag f b).rd g = s.rd g := State.rd_wr_ne s f g _ h
theorem State.on_flag_ne (s : State) (f g : Fld) (b : Bool) (h : g.addr ≠ f.addr) : (s.flag f b).on g = s.on g := by unfold State.on; rw [State.rd_flag_ne s f g b h]
theorem State.on_wr_ne (s : State) (f g : Fld) (b : Nat) (h : g.addr ≠ f.addr) : (s.wr f b).on g = s.on g := by unfold State.on; rw [State.rd_wr_ne s f g b h]
theorem State.rd_flag_disj (s : State) (f g : Fld) (v : Bool) (ha : g.addr = f.addr) (h : f.lo ≤ f.hi) (h32 : g.hi < 32)
    (d : g.hi < f.lo ∨ f.hi < g.lo) : (s.flag f v).rd g = s.rd g := State.rd_wr_disj s f g _ ha h h32 d
theorem State.on_flag_disj (s : State) (f g : Fld) (v : Bool) (ha : g.addr = f.addr) (h : f.lo ≤ f.hi) (h32 : g.hi < 32)
    (d : g.hi < f.lo ∨ f.hi < g.lo) : (s.flag f v).on g = s.on g := by unfold State.on; rw [State.rd_flag_disj s f g v ha h h32 d]
theorem State.on_wr_disj (s : State) (f g : Fld) (v : Nat) (ha : g.addr = f.addr) (h : f.lo ≤ f.hi) (h32 : g.hi < 32)
    (d : g.hi < f.lo ∨ f.hi < g.lo) : (s.wr f v).on g = s.on g := by unfold State.on; rw [State.rd_wr_disj s f g v ha h h32 d]
theorem State.rd_inc_self (s : State) (f : Fld) (n : Nat) (h : f.lo ≤ f.hi) (h32 : f.hi < 32) : (s.inc f n).rd f = (s.rd f + n) % 2 ^ f.width := State.rd_wr_self _ _ _ h h32
theorem State.rd_inc_ne (s : State) (f g : Fld) (n : Nat) (h : g.addr ≠ f.addr) : (s.inc f n).rd g = s.rd g := State.rd_wr_ne s f g _ h
theorem State.rd_inc_disj (s : State) (f g : Fld) (v : Nat) (ha : g.addr = f.addr) (h : f.lo ≤ f.hi) (h32 : g.hi < 32)
    (d : g.hi < f.lo ∨ f.hi < g.lo) : (s.inc f v).rd g = s.rd g := State.rd_wr_disj s f g _ ha h h32 d
theorem State.on_inc_ne (s : State) (f g : Fld) (n : Nat) (h : g.addr ≠ f.addr) : (s.inc f n).on g = s.on g := by unfold State.on; rw [State.rd_inc_ne s f g n h]
theorem State.mem_emit (s : State) (o : Out) : o ∈ (s.emit o).out := by simp
theorem State.word_flag_ne (s : State) (f : Fld) (v : Bool) (b : Nat) (h : b ≠ f.addr) : (s.flag f v).word b = s.word b := State.word_wr_ne s f _ b h
theorem State.word_inc_ne (s : State) (f : Fld) (v b : Nat) (h : b ≠ f.addr) : (s.inc f v).word b = s.word b := State.word_wr_ne s f _ b h
theorem State.word_setBit_ne (s : State) (f : Fld) (i : Nat) (v : Bool) (b : Nat) (h : b ≠ f.addr) : (s.setBit f i v).word b = s.word b := State.word_wr_ne s f _ b h
theorem State.rd_setBit_ne (s : State) (f g : Fld) (i : Nat) (v : Bool) (h : g.addr ≠ f.addr) : (s.setBit f i v).rd g = s.rd g := State.rd_wr_ne s f g _ h
theorem State.rd_setBit_disj (s : State) (f g : Fld) (i : Nat) (v : Bool) (ha : g.addr = f.addr) (h : f.lo ≤ f.hi) (h32 : g.hi < 32)
    (d : g.hi < f.lo ∨ f.hi < g.lo) : (s.setBit f i v).rd g = s.rd g := State.rd_wr_disj s f g _ ha h h32 d
theorem State.when_rd (s : State) (c : Bool) (F : State → State) (f : Fld) (h : ∀ u : State, (F u).rd f = u.rd f) : (s.when c F).rd f = s.rd f := by
  cases c <;> simp [h]

/-! ## Entries of the tables of the hidden state -/

@[simp] theorem State.modPort_port (s : State) (n : Nat) (f : Port → Port) : (s.modPort n f).port n = f (s.port n) := tget_tmod_self ..
theorem State.modPort_port_ne (s : State) {n k : Nat} (f : Port → Port) (h : k ≠ n) : (s.modPort n f).port k = s.port k :=
  tget_tmod_ne _ _ _ _ _ h
theorem State.modCtx_ctx_ne (s : State) {n k : Nat} (f : CtxS → CtxS) (h : k ≠ n) : (s.modCtx n f).ctx k = s.ctx k :=
  tget_tmod_ne _ _ _ _ _ h
theorem State.modChan_chan_ne (s : State) {n k : Nat} (f : Chan → Chan) (h : k ≠ n) : (s.modChan n f).chan k = s.chan k :=
  tget_tmod_ne _ _ _ _ _ h
theorem State.modEng_eng_ne (s : State) {n k : Nat} (f : EngS → EngS) (h : k ≠ n) : (s.modEng n f).eng k = s.eng k :=
  tget_tmod_ne _ _ _ _ _ h
theorem State.modGcl_gcl_ne (s : State) {n k : Nat} (f : GclS → GclS) (h : k ≠ n) : (s.modGcl n f).gcl k = s.gcl k :=
  tget_tmod_ne _ _ _ _ _ h
theorem State.modIn_eviIn_ne (s : State) {n k : Nat} (f : EviIn → EviIn) (h : k ≠ n) : (s.modIn n f).eviIn k = s.eviIn k :=
  tget_tmod_ne _ _ _ _ _ h
theorem State.modTr_tr_ne (s : State) {n k : Nat} (f : Train → Train) (h : k ≠ n) : (s.modTr n f).tr k = s.tr k := by
  simp [State.modTr, State.tr, State.modPort_port_ne _ _ h]
theorem State.modEp_ep_ne (s : State) {n k : Nat} (f : Epoch → Epoch) (h : k ≠ n) : (s.modEp n f).ep k = s.ep k := by
  simp [State.modEp, State.ep, State.modPort_port_ne _ _ h]
theorem State.modTm_tm_ne (s : State) {n k : Nat} (f : LinkTime → LinkTime) (h : k ≠ n) : (s.modTm n f).tm k = s.tm k := by
  simp [State.modTm, State.tm, State.modPort_port_ne _ _ h]
theorem State.modLk_lk_ne (s : State) {n k : Nat} (f : LinkKey → LinkKey) (h : k ≠ n) : (s.modLk n f).lk k = s.lk k := by
  simp [State.modLk, State.lk, State.modPort_port_ne _ _ h]

/-! ## Command bits and reads with an effect -/

/-- A command bit that is accepted. -/
theorem State.runCmd_accepted {s : State} {p : Path} {c : Cmd} {a : Nat} {t : State} (h : Reaches s p a) (ha : c.fld.addr % 0x40000 = a)
    (hc : c.chk s = 0) (ht : c.act s = t) : s.runCmd p c = accepted s t p a := by
  subst ha ht; exact State.command_accepted h hc

/-- A command bit that is rejected. -/
theorem State.runCmd_rejected {s : State} {p : Path} {c : Cmd} {a k : Nat} (h : Reaches s p a) (ha : c.fld.addr % 0x40000 = a) (hk : k ≠ 0)
    (hc : c.chk s = k) : s.runCmd p c = s.reject p a k ((s.word a).toNat ||| 2 ^ c.fld.lo) := by
  subst ha hc; exact State.command_rejected h hk

end Sys2Proof.Machine
end

