-- ==== Sys2Proof/Laws/FolTimeIn.lean ====
section
/-!
SUPPORT. `Follows` for the operations and meanings of `TimeIn.lean`.
-/

namespace Sys2Proof.Machine

open Host (Outcome)

set_option linter.unusedTactic false
set_option linter.unreachableTactic false
set_option linter.unusedSimpArgs false
set_option linter.unusedVariables false

theorem State.wrS_follows {msk : Nat} {z s : State} (f : Sys2Proof.Fld) (i : Int) (h : Follows msk z s) : Follows msk z (State.wrS s f
    i) := by
  unfold State.wrS
  repeat' first
    | with_reducible assumption | (intro _) | with_reducible apply State.wr_follows | split | dsimp only

theorem State.setTime_follows {msk : Nat} (hmsk : msk ||| 4 = msk) {z s : State} (ns : Nat) (h : Follows msk z s) : Follows msk z
    (State.setTime s ns) := by
  unfold State.setTime
  repeat' first
    | with_reducible assumption | (intro _) | simp only [Follows.time_iff (within hmsk (by decide))] | split | dsimp only

theorem State.countTo_follows {msk : Nat} (hmsk : msk ||| 4 = msk) {z s : State} (ns : Nat) (h : Follows msk z s) : Follows msk z
    (State.countTo s ns) := by
  unfold State.countTo
  repeat' first
    | with_reducible assumption | (intro _) | simp only [Follows.time_iff (within hmsk (by decide))] | split | dsimp only

theorem State.modTime_follows {msk : Nat} (hmsk : msk ||| 4 = msk) {z s : State} (f : TimeS → TimeS) (h : Follows msk z s) : Follows msk
    z (State.modTime s f) := by
  unfold State.modTime
  repeat' first
    | with_reducible assumption | (intro _) | simp only [Follows.time_iff (within hmsk (by decide))] | split | dsimp only

theorem State.modTm_follows {msk : Nat} (hmsk : msk ||| 8 = msk) {z s : State} (n : Nat) (f : LinkTime → LinkTime) (h : Follows msk z s)
    : Follows msk z (State.modTm s n f) := by
  unfold State.modTm
  repeat' first
    | with_reducible assumption | (intro _) | with_reducible apply State.modPort_follows (within hmsk (by decide)) | split | dsimp only

theorem State.showTimeValid_follows {msk : Nat} {z s : State} (h : Follows msk z s) : Follows msk z (State.showTimeValid s) := by
  unfold State.showTimeValid
  repeat' first
    | with_reducible assumption | (intro _) | with_reducible apply State.flag_follows | split | dsimp only

theorem State.srcState_follows {msk : Nat} (hmsk : msk ||| 6 = msk) {z s : State} (v : Nat) (h : Follows msk z s) : Follows msk z
    (State.srcState s v) := by
  unfold State.srcState
  repeat' first
    | with_reducible assumption | (intro _) | with_reducible apply State.showTimeValid_follows
    | with_reducible apply State.raise_follows (within hmsk (by decide))
    | with_reducible apply State.modTime_follows (within hmsk (by decide)) | with_reducible apply State.wrS_follows
    | with_reducible apply State.when_follows | with_reducible apply State.wr_follows | with_reducible apply Follows.ite | split
    | dsimp only

theorem State.inputLost_follows {msk : Nat} (hmsk : msk ||| 6 = msk) {z s : State} (cause : Nat) (h : Follows msk z s) : Follows msk z
    (State.inputLost s cause) := by
  unfold State.inputLost
  repeat' first
    | with_reducible assumption | (intro _) | with_reducible apply State.srcState_follows (within hmsk (by decide))
    | with_reducible apply State.wr_follows | with_reducible apply Follows.ite | split | dsimp only

theorem State.showInputs_follows {msk : Nat} (hmsk : msk ||| 6 = msk) {z s : State} (l : List Nat) (h : Follows msk z s) : Follows msk z
    (State.showInputs s l) := by
  unfold State.showInputs
  repeat' first
    | with_reducible assumption | (intro _) | with_reducible apply State.modTime_follows (within hmsk (by decide))
    | with_reducible apply State.raise_follows (within hmsk (by decide))
    | with_reducible apply State.inputLost_follows (within hmsk (by decide)) | with_reducible apply State.when_follows
    | with_reducible apply State.flag_follows | with_reducible apply State.wr_follows | split | dsimp only

theorem State.showInput_follows {msk : Nat} (hmsk : msk ||| 6 = msk) {z s : State} (h : Follows msk z s) : Follows msk z
    (State.showInput s) := by
  unfold State.showInput
  repeat' first
    | with_reducible assumption | (intro _) | with_reducible apply State.showInputs_follows (within hmsk (by decide)) | split | dsimp only

theorem State.srcWritten_follows {msk : Nat} (hmsk : msk ||| 6 = msk) {z s : State} (old : State) (h : Follows msk z s) : Follows msk z
    (State.srcWritten s old) := by
  unfold State.srcWritten
  repeat' first
    | with_reducible assumption | (intro _) | with_reducible apply State.showInput_follows (within hmsk (by decide))
    | with_reducible apply State.showTimeValid_follows | with_reducible apply State.modTime_follows (within hmsk (by decide))
    | with_reducible apply State.srcState_follows (within hmsk (by decide))
    | with_reducible apply State.inputLost_follows (within hmsk (by decide)) | with_reducible apply Follows.ite | split | dsimp only

end Sys2Proof.Machine
end

