-- ==== Sys2Proof/Laws/FolLinkOps.lean ====
section
/-!
SUPPORT. `Follows` for the operations and meanings of `LinkOps.lean`.
-/

namespace Sys2Proof.Machine

open Host (Outcome)

set_option linter.unusedTactic false
set_option linter.unreachableTactic false
set_option linter.unusedSimpArgs false
set_option linter.unusedVariables false

theorem State.modTr_follows {msk : Nat} (hmsk : msk ||| 8 = msk) {z s : State} (n : Nat) (f : Train → Train) (h : Follows msk z s) :
    Follows msk z (State.modTr s n f) := by
  unfold State.modTr
  repeat' first
    | with_reducible assumption | (intro _) | with_reducible apply State.modPort_follows (within hmsk (by decide)) | split | dsimp only

theorem State.modEp_follows {msk : Nat} (hmsk : msk ||| 8 = msk) {z s : State} (n : Nat) (f : Epoch → Epoch) (h : Follows msk z s) :
    Follows msk z (State.modEp s n f) := by
  unfold State.modEp
  repeat' first
    | with_reducible assumption | (intro _) | with_reducible apply State.modPort_follows (within hmsk (by decide)) | split | dsimp only

theorem State.applyFields_follows {msk : Nat} {z s : State} (l : List Sys2Proof.Fld) (h : Follows msk z s) : Follows msk z
    (State.applyFields s l) := by
  unfold State.applyFields
  repeat' first
    | with_reducible assumption | (intro _) | with_reducible apply foldS_follows | with_reducible apply State.wr_follows | split
    | dsimp only

theorem State.applyRwp_follows {msk : Nat} {z s : State} (page : Nat) (h : Follows msk z s) : Follows msk z (State.applyRwp s page) := by
  unfold State.applyRwp
  repeat' first
    | with_reducible assumption | (intro _) | with_reducible apply State.applyFields_follows | split | dsimp only

theorem State.copyTable_follows {msk : Nat} {z s : State} (src : Nat) (dst : Nat) (n : Nat) (h : Follows msk z s) : Follows msk z
    (State.copyTable s src dst n) := by
  unfold State.copyTable
  repeat' first
    | with_reducible assumption | (intro _) | with_reducible apply foldS_follows | with_reducible apply State.setWord_follows | split
    | dsimp only

theorem State.clearTable_follows {msk : Nat} {z s : State} (dst : Nat) (n : Nat) (h : Follows msk z s) : Follows msk z (State.clearTable
    s dst n) := by
  unfold State.clearTable
  repeat' first
    | with_reducible assumption | (intro _) | with_reducible apply foldS_follows | with_reducible apply State.setWord_follows | split
    | dsimp only

theorem State.showDigests_follows {msk : Nat} {z s : State} (n : Nat) (h : Follows msk z s) : Follows msk z (State.showDigests s n) := by
  unfold State.showDigests
  repeat' first
    | with_reducible assumption | (intro _) | with_reducible apply State.wr_follows | split | dsimp only

theorem State.ctxSetLife_follows {msk : Nat} (hmsk : msk ||| 2 = msk) {z s : State} (c : Nat) (v : Nat) (h : Follows msk z s) : Follows
    msk z (State.ctxSetLife s c v) := by
  unfold State.ctxSetLife
  repeat' first
    | with_reducible assumption | (intro _) | with_reducible apply State.eventBit_follows (within hmsk (by decide))
    | with_reducible apply State.raise_follows (within hmsk (by decide)) | with_reducible apply State.wr_follows
    | with_reducible apply State.setBit_follows | with_reducible apply Follows.ite | split | dsimp only

theorem State.dropFixed_follows {msk : Nat} (hmsk : msk ||| 320 = msk) {z s : State} (c : Nat) (h : Follows msk z s) : Follows msk z
    (State.dropFixed s c) := by
  unfold State.dropFixed
  repeat' first
    | with_reducible assumption | (intro _)
    | simp only [Follows.ctxs_iff (within hmsk (by decide)), Follows.gird_iff (within hmsk (by decide)), Follows.ctxs_gird_iff (within hmsk (by decide))]
    | with_reducible apply State.inc_follows | simp only [LFollows.pair_iff]
    | with_reducible refine LFollows.of_eq ?_ (by with_reducible assumption) | simp only [RFollows.pair_iff]
    | with_reducible refine RFollows.of_eq ?_ (by with_reducible assumption) | with_reducible apply foldl_fst_follows
    | with_reducible apply foldl_snd_follows | with_reducible apply foldl_follows
    | with_reducible refine LFollows.fst (foldl_fst_follows _ _ ?_ ?_) | with_reducible refine RFollows.snd (foldl_snd_follows _ _ ?_ ?_)
    | with_reducible exact LFollows.fst (by with_reducible assumption) | with_reducible exact RFollows.snd (by with_reducible assumption)
    | with_reducible apply Follows.ite | with_reducible apply LFollows.ite | split | dsimp only

theorem State.fixedBuckets_follows {msk : Nat} (hmsk : msk ||| 64 = msk) {z s : State} (n : Nat) (c : Nat) (h : Follows msk z s) :
    Follows msk z (State.fixedBuckets s n c) := by
  unfold State.fixedBuckets
  repeat' first
    | with_reducible assumption | (intro _) | simp only [Follows.ctxs_iff (within hmsk (by decide))] | with_reducible apply Follows.ite
    | split | dsimp only

theorem State.fixedContexts_follows {msk : Nat} (hmsk : msk ||| 322 = msk) {z s : State} (n : Nat) (up : Bool) (h : Follows msk z s) :
    Follows msk z (State.fixedContexts s n up) := by
  unfold State.fixedContexts
  repeat' first
    | with_reducible assumption | (intro _) | with_reducible apply State.dropFixed_follows (within hmsk (by decide))
    | with_reducible apply State.ctxSetLife_follows (within hmsk (by decide))
    | with_reducible apply State.fixedBuckets_follows (within hmsk (by decide)) | with_reducible apply foldS_follows
    | with_reducible apply State.setWord_follows | with_reducible apply State.wr_follows | with_reducible apply State.when_follows
    | with_reducible apply Follows.ite | split | dsimp only

theorem State.showChips_follows {msk : Nat} {z s : State} (h : Follows msk z s) : Follows msk z (State.showChips s) := by
  unfold State.showChips
  repeat' first
    | with_reducible assumption | (intro _) | with_reducible apply State.wr_follows | with_reducible apply Follows.ite | split
    | dsimp only

theorem State.leaveTree_follows {msk : Nat} (hmsk : msk ||| 1 = msk) {z s : State} (n : Nat) (h : Follows msk z s) : Follows msk z
    (State.leaveTree s n) := by
  unfold State.leaveTree
  repeat' first
    | with_reducible assumption | (intro _) | simp only [Follows.chip_iff (within hmsk (by decide))]
    | with_reducible apply State.showChips_follows | with_reducible apply State.setBit_follows | with_reducible apply State.flag_follows
    | with_reducible apply State.when_follows | with_reducible apply State.wr_follows | split | dsimp only

theorem State.enterDetect_follows {msk : Nat} (hmsk : msk ||| 8 = msk) {z s : State} (n : Nat) (h : Follows msk z s) : Follows msk z
    (State.enterDetect s n) := by
  unfold State.enterDetect
  repeat' first
    | with_reducible assumption | (intro _) | with_reducible apply State.applyRwp_follows
    | with_reducible apply State.modTr_follows (within hmsk (by decide)) | with_reducible apply State.wr_follows
    | with_reducible apply State.flag_follows | split | dsimp only

theorem State.dropOldLtns_follows {msk : Nat} (hmsk : msk ||| 64 = msk) {z s : State} (n : Nat) (h : Follows msk z s) : Follows msk z
    (State.dropOldLtns s n) := by
  unfold State.dropOldLtns
  repeat' first
    | with_reducible assumption | (intro _) | simp only [Follows.ctxs_iff (within hmsk (by decide))] | split | dsimp only

theorem State.dropLink_follows {msk : Nat} (hmsk : msk ||| 334 = msk) {z s : State} (n : Nat) (h : Follows msk z s) : Follows msk z
    (State.dropLink s n) := by
  unfold State.dropLink
  repeat' first
    | with_reducible assumption | (intro _) | simp only [Follows.gird_iff (within hmsk (by decide))]
    | with_reducible apply State.dropOldLtns_follows (within hmsk (by decide))
    | with_reducible apply State.fixedContexts_follows (within hmsk (by decide))
    | with_reducible apply State.showInputs_follows (within hmsk (by decide))
    | with_reducible apply State.modPort_follows (within hmsk (by decide)) | with_reducible apply State.wr_follows
    | with_reducible apply State.flag_follows | with_reducible apply State.setBit_follows | with_reducible apply Follows.ite | split
    | dsimp only

theorem State.linkDown_follows {msk : Nat} (hmsk : msk ||| 335 = msk) {z s : State} (n : Nat) (cause : Nat) (h : Follows msk z s) :
    Follows msk z (State.linkDown s n cause) := by
  unfold State.linkDown
  repeat' first
    | with_reducible assumption | (intro _) | with_reducible apply State.leaveTree_follows (within hmsk (by decide))
    | with_reducible apply State.enterDetect_follows (within hmsk (by decide))
    | with_reducible apply State.dropLink_follows (within hmsk (by decide))
    | with_reducible apply State.raise_follows (within hmsk (by decide)) | with_reducible apply State.wr_follows
    | with_reducible apply State.when_follows | split | dsimp only

theorem State.trainFail_follows {msk : Nat} (hmsk : msk ||| 11 = msk) {z s : State} (n : Nat) (cause : Nat) (st : Nat) (h : Follows msk
    z s) : Follows msk z (State.trainFail s n cause st) := by
  unfold State.trainFail
  repeat' first
    | with_reducible assumption | (intro _) | with_reducible apply State.raise_follows (within hmsk (by decide))
    | with_reducible apply State.modTr_follows (within hmsk (by decide))
    | with_reducible apply State.leaveTree_follows (within hmsk (by decide))
    | with_reducible apply State.functionFault_follows (within hmsk (by decide)) | with_reducible apply State.wr_follows
    | with_reducible apply State.emit_follows | with_reducible apply State.inc_follows | with_reducible apply State.when_follows
    | with_reducible apply Follows.ite | split | dsimp only

end Sys2Proof.Machine
end

