-- ==== Sys2Proof/Laws/FolTimeOps.lean ====
section
/-!
SUPPORT. `Follows` for the operations and meanings of `TimeOps.lean`.
-/

namespace Sys2Proof.Machine

open Host (Outcome)

set_option linter.unusedTactic false
set_option linter.unreachableTactic false
set_option linter.unusedSimpArgs false
set_option linter.unusedVariables false

theorem State.passRtc_follows {msk : Nat} (hmsk : msk ||| 4 = msk) {z s : State} (h : Follows msk z s) : Follows msk z (State.passRtc s)
    := by
  unfold State.passRtc
  repeat' first
    | with_reducible assumption | (intro _) | with_reducible apply State.modTime_follows (within hmsk (by decide))
    | with_reducible apply State.countTo_follows (within hmsk (by decide)) | with_reducible apply Follows.ite | split | dsimp only

theorem State.passRef_follows {msk : Nat} (hmsk : msk ||| 4 = msk) {z s : State} (h : Follows msk z s) : Follows msk z (State.passRef s)
    := by
  unfold State.passRef
  repeat' first
    | with_reducible assumption | (intro _) | with_reducible apply State.modTime_follows (within hmsk (by decide))
    | with_reducible apply State.countTo_follows (within hmsk (by decide)) | with_reducible apply Follows.ite | split | dsimp only

theorem State.passDpll_follows {msk : Nat} (hmsk : msk ||| 4 = msk) {z s : State} (h : Follows msk z s) : Follows msk z (State.passDpll
    s) := by
  unfold State.passDpll
  repeat' first
    | with_reducible assumption | (intro _) | with_reducible apply State.countTo_follows (within hmsk (by decide))
    | with_reducible apply State.modTime_follows (within hmsk (by decide)) | split | dsimp only

theorem State.pass_follows {msk : Nat} (hmsk : msk ||| 4 = msk) {z s : State} (h : Follows msk z s) : Follows msk z (State.pass s) := by
  unfold State.pass
  repeat' first
    | with_reducible assumption | (intro _) | with_reducible apply State.modTime_follows (within hmsk (by decide))
    | with_reducible apply State.passRtc_follows (within hmsk (by decide))
    | with_reducible apply State.passRef_follows (within hmsk (by decide))
    | with_reducible apply State.passDpll_follows (within hmsk (by decide)) | with_reducible apply Follows.ite | split | dsimp only

theorem State.seedRange_follows {msk : Nat} (hmsk : msk ||| 8 = msk) {z s : State} (n : Nat) (vals : List Nat) (h : Follows msk z s) :
    Follows msk z (State.seedRange s n vals) := by
  unfold State.seedRange
  repeat' first
    | with_reducible assumption | (intro _) | with_reducible apply State.modTm_follows (within hmsk (by decide))
    | with_reducible apply State.wr_follows | split | dsimp only

theorem State.rangingUpdate_follows {msk : Nat} (hmsk : msk ||| 10 = msk) {z s : State} (n : Nat) (d : Nat) (h : Follows msk z s) :
    Follows msk z (State.rangingUpdate s n d) := by
  unfold State.rangingUpdate
  repeat' first
    | with_reducible assumption | (intro _) | with_reducible apply State.modTm_follows (within hmsk (by decide))
    | with_reducible apply State.raise_follows (within hmsk (by decide)) | with_reducible apply State.wr_follows
    | with_reducible apply State.inc_follows | with_reducible apply Follows.ite | split | dsimp only

theorem State.settleMaster_follows {msk : Nat} (hmsk : msk ||| 6 = msk) {z s : State} (n : Nat) (farClaims : Bool) (h : Follows msk z s)
    : Follows msk z (State.settleMaster s n farClaims) := by
  unfold State.settleMaster
  repeat' first
    | with_reducible assumption | (intro _) | with_reducible apply State.raise_follows (within hmsk (by decide))
    | with_reducible apply State.showInput_follows (within hmsk (by decide)) | with_reducible apply State.when_follows
    | with_reducible apply State.setBit_follows | with_reducible apply State.flag_follows | with_reducible apply Follows.ite | split
    | dsimp only

theorem State.showStep_follows {msk : Nat} (hmsk : msk ||| 4 = msk) {z s : State} (r : StepReq) (h : Follows msk z s) : Follows msk z
    (State.showStep s r) := by
  unfold State.showStep
  repeat' first
    | with_reducible assumption | (intro _) | with_reducible apply State.modTime_follows (within hmsk (by decide))
    | with_reducible apply State.flag_follows | with_reducible apply State.wr_follows | split | dsimp only

theorem State.scheduleStep_follows {msk : Nat} (hmsk : msk ||| 4 = msk) {z s : State} (delta : Int) (h : Follows msk z s) : Follows msk
    z (State.scheduleStep s delta) := by
  unfold State.scheduleStep
  repeat' first
    | with_reducible assumption | (intro _) | with_reducible apply State.showStep_follows (within hmsk (by decide))
    | with_reducible apply State.when_follows | with_reducible apply State.emit_follows | with_reducible apply Follows.ite | split
    | dsimp only

theorem State.startStep_follows {msk : Nat} (hmsk : msk ||| 4 = msk) {z s : State} (delta : Int) (h : Follows msk z s) : Follows msk z
    (State.startStep s delta) := by
  unfold State.startStep
  repeat' first
    | with_reducible assumption | (intro _) | with_reducible apply State.modTime_follows (within hmsk (by decide))
    | with_reducible apply State.showStep_follows (within hmsk (by decide))
    | with_reducible apply State.scheduleStep_follows (within hmsk (by decide)) | with_reducible apply Follows.ite | split | dsimp only

theorem State.stepRelease_follows {msk : Nat} (hmsk : msk ||| 4 = msk) {z s : State} (h : Follows msk z s) : Follows msk z
    (State.stepRelease s) := by
  unfold State.stepRelease
  repeat' first
    | with_reducible assumption | (intro _) | with_reducible apply State.scheduleStep_follows (within hmsk (by decide))
    | with_reducible apply State.when_follows | split | dsimp only

theorem State.servo_follows {msk : Nat} (hmsk : msk ||| 4 = msk) {z s : State} (off : Int) (interval : Nat) (link : Bool) (h : Follows
    msk z s) : Follows msk z (State.servo s off interval link) := by
  unfold State.servo
  repeat' first
    | with_reducible assumption | (intro _) | with_reducible apply State.wrS_follows
    | with_reducible apply State.modTime_follows (within hmsk (by decide)) | with_reducible apply Follows.ite | split | dsimp only

theorem State.noteFreq_follows {msk : Nat} (hmsk : msk ||| 4 = msk) {z s : State} (h : Follows msk z s) : Follows msk z (State.noteFreq
    s) := by
  unfold State.noteFreq
  repeat' first
    | with_reducible assumption | (intro _) | with_reducible apply State.modTime_follows (within hmsk (by decide))
    | with_reducible apply Follows.ite | split | dsimp only

theorem State.measurement_follows {msk : Nat} (hmsk : msk ||| 6 = msk) {z s : State} (off : Int) (interval : Nat) (link : Bool) (h :
    Follows msk z s) : Follows msk z (State.measurement s off interval link) := by
  unfold State.measurement
  repeat' first
    | with_reducible assumption | (intro _) | with_reducible apply State.wrS_follows
    | with_reducible apply State.srcState_follows (within hmsk (by decide))
    | with_reducible apply State.modTime_follows (within hmsk (by decide))
    | with_reducible apply State.startStep_follows (within hmsk (by decide))
    | with_reducible apply State.servo_follows (within hmsk (by decide)) | with_reducible apply State.showTimeValid_follows
    | with_reducible apply State.noteFreq_follows (within hmsk (by decide)) | with_reducible apply State.when_follows
    | with_reducible apply Follows.ite | split | dsimp only

theorem State.numberOne_follows {msk : Nat} (hmsk : msk ||| 1 = msk) {z s : State} (l : Sys2Proof.TreeLink) (h : Follows msk z s) :
    Follows msk z (State.numberOne s l) := by
  unfold State.numberOne
  repeat' first
    | with_reducible assumption | (intro _) | simp only [Follows.chip_iff (within hmsk (by decide))]
    | with_reducible apply State.emit_follows | with_reducible apply State.when_follows | with_reducible apply State.setBit_follows
    | split | dsimp only

theorem State.numberAll_follows {msk : Nat} (hmsk : msk ||| 1 = msk) {z s : State} (links : List Sys2Proof.TreeLink) (h : Follows msk z
    s) : Follows msk z (State.numberAll s links) := by
  unfold State.numberAll
  repeat' first
    | with_reducible assumption | (intro _) | with_reducible apply State.showChips_follows
    | with_reducible apply State.numberOne_follows (within hmsk (by decide)) | with_reducible apply foldS_follows | split | dsimp only

theorem State.noteJoin_follows {msk : Nat} (hmsk : msk ||| 1 = msk) {z s : State} (n : Nat) (h : Follows msk z s) : Follows msk z
    (State.noteJoin s n) := by
  unfold State.noteJoin
  repeat' first
    | with_reducible assumption | (intro _) | simp only [Follows.chip_iff (within hmsk (by decide))]
    | with_reducible apply State.when_follows | split | dsimp only

theorem State.treeTold_follows {msk : Nat} (hmsk : msk ||| 1 = msk) {z s : State} (t : Sys2Proof.TreeTold) (h : Follows msk z s) :
    Follows msk z (State.treeTold s t) := by
  unfold State.treeTold
  repeat' first
    | with_reducible assumption | (intro _) | simp only [Follows.chip_iff (within hmsk (by decide))]
    | with_reducible apply State.when_follows | with_reducible apply State.wr_follows | with_reducible apply State.flag_follows
    | with_reducible apply State.setBit_follows | with_reducible apply State.emit_follows | split | dsimp only

theorem State.modChip_follows {msk : Nat} (hmsk : msk ||| 1 = msk) {z s : State} (f : Chip → Chip) (h : Follows msk z s) : Follows msk z
    (State.modChip s f) := by
  unfold State.modChip
  repeat' first
    | with_reducible assumption | (intro _) | simp only [Follows.chip_iff (within hmsk (by decide))] | split | dsimp only

theorem State.treeNews_follows {msk : Nat} (hmsk : msk ||| 5 = msk) {z s : State} (w : Sys2Proof.TreeNews) (h : Follows msk z s) :
    Follows msk z (State.treeNews s w) := by
  unfold State.treeNews
  repeat' first
    | with_reducible assumption | (intro _) | simp only [Follows.chip_iff (within hmsk (by decide))]
    | with_reducible apply State.modTime_follows (within hmsk (by decide))
    | with_reducible apply State.numberAll_follows (within hmsk (by decide))
    | with_reducible apply State.treeTold_follows (within hmsk (by decide)) | simp only [LFollows.pair_iff]
    | with_reducible refine LFollows.of_eq ?_ (by with_reducible assumption) | simp only [RFollows.pair_iff]
    | with_reducible refine RFollows.of_eq ?_ (by with_reducible assumption) | with_reducible apply foldl_fst_follows
    | with_reducible apply foldl_snd_follows | with_reducible apply foldl_follows
    | with_reducible refine LFollows.fst (foldl_fst_follows _ _ ?_ ?_) | with_reducible refine RFollows.snd (foldl_snd_follows _ _ ?_ ?_)
    | with_reducible exact LFollows.fst (by with_reducible assumption) | with_reducible exact RFollows.snd (by with_reducible assumption)
    | with_reducible apply Follows.ite | with_reducible apply LFollows.ite | split | dsimp only

theorem State.linkUp_follows {msk : Nat} (hmsk : msk ||| 335 = msk) {z s : State} (n : Nat) (h : Follows msk z s) : Follows msk z
    (State.linkUp s n) := by
  unfold State.linkUp
  repeat' first
    | with_reducible assumption | (intro _) | with_reducible apply State.raise_follows (within hmsk (by decide))
    | with_reducible apply State.modPort_follows (within hmsk (by decide))
    | with_reducible apply State.showInput_follows (within hmsk (by decide))
    | with_reducible apply State.noteJoin_follows (within hmsk (by decide))
    | with_reducible apply State.fixedContexts_follows (within hmsk (by decide)) | with_reducible apply State.inc_follows
    | with_reducible apply State.wr_follows | split | dsimp only

end Sys2Proof.Machine
end

