-- ==== Sys2Proof/Laws/FolGirdleOps.lean ====
section
/-!
SUPPORT. `Follows` for the operations and meanings of `GirdleOps.lean`.
-/

namespace Sys2Proof.Machine

open Host (Outcome)

set_option linter.unusedTactic false
set_option linter.unreachableTactic false
set_option linter.unusedSimpArgs false
set_option linter.unusedVariables false

theorem State.modCtx_follows {msk : Nat} (hmsk : msk ||| 64 = msk) {z s : State} (c : Nat) (f : CtxS → CtxS) (h : Follows msk z s) :
    Follows msk z (State.modCtx s c f) := by
  unfold State.modCtx
  repeat' first
    | with_reducible assumption | (intro _) | simp only [Follows.ctxs_iff (within hmsk (by decide))] | split | dsimp only

theorem State.noCtx_follows {msk : Nat} (hmsk : msk ||| 2 = msk) {z s : State} (port : Nat) (h : Follows msk z s) : Follows msk z
    (State.noCtx s port) := by
  unfold State.noCtx
  repeat' first
    | with_reducible assumption | (intro _) | with_reducible apply State.raise_follows (within hmsk (by decide))
    | with_reducible apply State.inc_follows | split | dsimp only

theorem State.alloc_follows {msk : Nat} (hmsk : msk ||| 256 = msk) {z s : State} (retPref : Bool) (refs : Nat) (src : Option (Nat ×
    Nat)) (h : Follows msk z s) : PFollows msk z (State.alloc s retPref refs src) := by
  unfold State.alloc
  repeat' first
    | with_reducible assumption | (intro _) | simp only [Follows.gird_iff (within hmsk (by decide))]
    | with_reducible refine PFollows.get ?_ (by with_reducible assumption)
    | with_reducible refine PFollows.get' ?_ (by with_reducible assumption) | with_reducible apply PFollows.some
    | with_reducible apply PFollows.none | with_reducible apply Follows.ite | split | dsimp only

theorem State.release_follows {msk : Nat} (hmsk : msk ||| 264 = msk) {z s : State} (buf : Nat) (h : Follows msk z s) : Follows msk z
    (State.release s buf) := by
  unfold State.release
  repeat' first
    | with_reducible assumption | (intro _) | simp only [Follows.gird_iff (within hmsk (by decide))]
    | with_reducible apply State.modPort_follows (within hmsk (by decide)) | with_reducible apply Follows.ite | split | dsimp only

theorem State.setQueue_follows {msk : Nat} (hmsk : msk ||| 256 = msk) {z s : State} (q : Nat) (l : List QFrame) (h : Follows msk z s) :
    Follows msk z (State.setQueue s q l) := by
  unfold State.setQueue
  repeat' first
    | with_reducible assumption | (intro _) | simp only [Follows.gird_iff (within hmsk (by decide))] | with_reducible apply Follows.ite
    | split | dsimp only

theorem State.modFrame_follows {msk : Nat} (hmsk : msk ||| 256 = msk) {z s : State} (q : Nat) (c : Nat) (id : Nat) (f : QFrame → QFrame)
    (h : Follows msk z s) : Follows msk z (State.modFrame s q c id f) := by
  unfold State.modFrame
  repeat' first
    | with_reducible assumption | (intro _) | with_reducible apply State.setQueue_follows (within hmsk (by decide))
    | with_reducible apply Follows.ite | split | dsimp only

theorem State.applyRelink_follows {msk : Nat} (hmsk : msk ||| 320 = msk) {z s : State} (q : Nat) (c : Nat) (h : Follows msk z s) :
    Follows msk z (State.applyRelink s q c) := by
  unfold State.applyRelink
  repeat' first
    | with_reducible assumption | (intro _) | simp only [Follows.gird_iff (within hmsk (by decide))]
    | with_reducible apply State.modCtx_follows (within hmsk (by decide))
    | with_reducible apply State.setQueue_follows (within hmsk (by decide)) | with_reducible apply Follows.ite | split | dsimp only

theorem State.relinkDue_follows {msk : Nat} (hmsk : msk ||| 320 = msk) {z s : State} (q : Nat) (h : Follows msk z s) : Follows msk z
    (State.relinkDue s q) := by
  unfold State.relinkDue
  repeat' first
    | with_reducible assumption | (intro _) | with_reducible apply State.applyRelink_follows (within hmsk (by decide))
    | with_reducible apply State.when_follows | with_reducible apply foldS_follows | split | dsimp only

theorem State.unlinkFrame_follows {msk : Nat} (hmsk : msk ||| 256 = msk) {z s : State} (q : Nat) (c : Nat) (id : Nat) (h : Follows msk z
    s) : Follows msk z (State.unlinkFrame s q c id) := by
  unfold State.unlinkFrame
  repeat' first
    | with_reducible assumption | (intro _) | with_reducible apply State.setQueue_follows (within hmsk (by decide)) | split | dsimp only

theorem State.removeFrame_follows {msk : Nat} (hmsk : msk ||| 320 = msk) {z s : State} (q : Nat) (c : Nat) (id : Nat) (h : Follows msk z
    s) : Follows msk z (State.removeFrame s q c id) := by
  unfold State.removeFrame
  repeat' first
    | with_reducible assumption | (intro _) | with_reducible apply State.relinkDue_follows (within hmsk (by decide))
    | with_reducible apply State.unlinkFrame_follows (within hmsk (by decide)) | split | dsimp only

theorem State.countDrop_follows {msk : Nat} (hmsk : msk ||| 2 = msk) {z s : State} (q : Nat) (c : Nat) (cause : Nat) (n : Nat) (h :
    Follows msk z s) : Follows msk z (State.countDrop s q c cause n) := by
  unfold State.countDrop
  repeat' first
    | with_reducible assumption | (intro _) | with_reducible apply State.raise_follows (within hmsk (by decide))
    | with_reducible apply State.inc_follows | with_reducible apply Follows.ite | split | dsimp only

theorem State.countInc_follows {msk : Nat} (hmsk : msk ||| 2 = msk) {z s : State} (q : Nat) (c : Nat) (h : Follows msk z s) : Follows
    msk z (State.countInc s q c) := by
  unfold State.countInc
  repeat' first
    | with_reducible assumption | (intro _) | with_reducible apply State.raise_follows (within hmsk (by decide))
    | with_reducible apply State.inc_follows | split | dsimp only

theorem State.discardCells_follows {msk : Nat} (hmsk : msk ||| 330 = msk) {z s : State} (q : Nat) (f : QFrame) (cause : Nat) (h :
    Follows msk z s) : Follows msk z (State.discardCells s q f cause) := by
  unfold State.discardCells
  repeat' first
    | with_reducible assumption | (intro _) | with_reducible apply State.release_follows (within hmsk (by decide))
    | with_reducible apply State.modFrame_follows (within hmsk (by decide))
    | with_reducible apply State.modCtx_follows (within hmsk (by decide))
    | with_reducible apply State.countDrop_follows (within hmsk (by decide)) | with_reducible apply foldS_follows | split | dsimp only

theorem State.addDrop_follows {msk : Nat} (hmsk : msk ||| 256 = msk) {z s : State} (q : Nat) (c : Nat) (id : Nat) (cause : Nat) (h :
    Follows msk z s) : Follows msk z (State.addDrop s q c id cause) := by
  unfold State.addDrop
  repeat' first
    | with_reducible assumption | (intro _) | simp only [Follows.gird_iff (within hmsk (by decide))] | split | dsimp only

theorem State.delDrop_follows {msk : Nat} (hmsk : msk ||| 256 = msk) {z s : State} (q : Nat) (c : Nat) (id : Nat) (h : Follows msk z s)
    : Follows msk z (State.delDrop s q c id) := by
  unfold State.delDrop
  repeat' first
    | with_reducible assumption | (intro _) | simp only [Follows.gird_iff (within hmsk (by decide))] | split | dsimp only

theorem State.discardFrame_follows {msk : Nat} (hmsk : msk ||| 330 = msk) {z s : State} (q : Nat) (f : QFrame) (cause : Nat) (h :
    Follows msk z s) : Follows msk z (State.discardFrame s q f cause) := by
  unfold State.discardFrame
  repeat' first
    | with_reducible assumption | (intro _) | with_reducible apply State.removeFrame_follows (within hmsk (by decide))
    | with_reducible apply State.discardCells_follows (within hmsk (by decide))
    | with_reducible apply State.addDrop_follows (within hmsk (by decide)) | with_reducible apply State.when_follows | split | dsimp only

theorem State.beginTail_follows {msk : Nat} (hmsk : msk ||| 330 = msk) {z s : State} (q : Nat) (f : QFrame) (cause : Nat) (extraLs :
    Bool) (extraSeq : Nat) (h : Follows msk z s) : Follows msk z (State.beginTail s q f cause extraLs extraSeq) := by
  unfold State.beginTail
  repeat' first
    | with_reducible assumption | (intro _) | with_reducible apply State.discardCells_follows (within hmsk (by decide))
    | with_reducible apply State.modFrame_follows (within hmsk (by decide))
    | with_reducible apply State.removeFrame_follows (within hmsk (by decide))
    | with_reducible apply State.addDrop_follows (within hmsk (by decide)) | with_reducible apply State.wr_follows
    | with_reducible apply State.when_follows | with_reducible apply Follows.ite | split | dsimp only

theorem State.refuse_follows {msk : Nat} (hmsk : msk ||| 330 = msk) {z s : State} (q : Nat) (c : Nat) (id : Nat) (cell : Sys2Proof.Cell)
    (h : Follows msk z s) : Follows msk z (State.refuse s q c id cell) := by
  unfold State.refuse
  repeat' first
    | with_reducible assumption | (intro _) | with_reducible apply State.raise_follows (within hmsk (by decide))
    | with_reducible apply State.addDrop_follows (within hmsk (by decide))
    | with_reducible apply State.beginTail_follows (within hmsk (by decide))
    | with_reducible apply State.removeFrame_follows (within hmsk (by decide))
    | with_reducible apply State.discardCells_follows (within hmsk (by decide)) | with_reducible apply State.inc_follows
    | with_reducible apply State.when_follows | with_reducible apply Follows.ite | split | dsimp only

theorem State.heldArrival_follows {msk : Nat} (hmsk : msk ||| 330 = msk) {z s : State} (q : Nat) (c : Nat) (id : Nat) (cell :
    Sys2Proof.Cell) (h : Follows msk z s) : OFollows msk z (State.heldArrival s q c id cell) := by
  unfold State.heldArrival
  repeat' first
    | with_reducible assumption | (intro _) | with_reducible apply State.countDrop_follows (within hmsk (by decide))
    | with_reducible apply State.delDrop_follows (within hmsk (by decide))
    | with_reducible apply State.modFrame_follows (within hmsk (by decide))
    | with_reducible apply State.discardCells_follows (within hmsk (by decide))
    | with_reducible apply State.countInc_follows (within hmsk (by decide))
    | with_reducible apply State.removeFrame_follows (within hmsk (by decide)) | with_reducible apply State.when_follows
    | with_reducible refine OFollows.get ?_ (by with_reducible assumption) | with_reducible apply OFollows.some
    | with_reducible apply OFollows.none | with_reducible apply Follows.ite | split | dsimp only

theorem State.notePool_follows {msk : Nat} (hmsk : msk ||| 256 = msk) {z s : State} (h : Follows msk z s) : Follows msk z
    (State.notePool s) := by
  unfold State.notePool
  repeat' first
    | with_reducible assumption | (intro _) | simp only [Follows.gird_iff (within hmsk (by decide))] | split | dsimp only

theorem State.showPool_follows {msk : Nat} (hmsk : msk ||| 258 = msk) {z s : State} (h : Follows msk z s) : Follows msk z
    (State.showPool s) := by
  unfold State.showPool
  repeat' first
    | with_reducible assumption | (intro _) | with_reducible apply State.notePool_follows (within hmsk (by decide))
    | with_reducible apply State.raise_follows (within hmsk (by decide)) | with_reducible apply State.when_follows | split | dsimp only

theorem State.putCell_follows {msk : Nat} (hmsk : msk ||| 256 = msk) {z s : State} (q : Nat) (c : Nat) (eg : Nat) (id : Nat) (x : QCell)
    (h : Follows msk z s) : Follows msk z (State.putCell s q c eg id x) := by
  unfold State.putCell
  repeat' first
    | with_reducible assumption | (intro _) | with_reducible apply State.modFrame_follows (within hmsk (by decide))
    | with_reducible apply State.setQueue_follows (within hmsk (by decide)) | with_reducible apply Follows.ite | split | dsimp only

theorem State.endIdle_follows {msk : Nat} (hmsk : msk ||| 8 = msk) {z s : State} (n : Nat) (h : Follows msk z s) : Follows msk z
    (State.endIdle s n) := by
  unfold State.endIdle
  repeat' first
    | with_reducible assumption | (intro _) | with_reducible apply State.modPort_follows (within hmsk (by decide))
    | with_reducible apply State.resumeLink_follows (within hmsk (by decide)) | with_reducible apply State.when_follows | split
    | dsimp only

theorem State.useAside_follows {msk : Nat} (hmsk : msk ||| 256 = msk) {z s : State} (q : Nat) (h : Follows msk z s) : Follows msk z
    (State.useAside s q) := by
  unfold State.useAside
  repeat' first
    | with_reducible assumption | (intro _) | simp only [Follows.gird_iff (within hmsk (by decide))] | with_reducible apply Follows.ite
    | split | dsimp only

theorem State.link_follows {msk : Nat} (hmsk : msk ||| 264 = msk) {z s : State} (buf : Nat) (d : Dest) (h : Follows msk z s) : Follows
    msk z (State.link s buf d) := by
  unfold State.link
  repeat' first
    | with_reducible assumption | (intro _) | with_reducible apply State.putCell_follows (within hmsk (by decide))
    | with_reducible apply State.endIdle_follows (within hmsk (by decide)) | with_reducible apply State.when_follows
    | with_reducible apply State.inc_follows | split | dsimp only

theorem State.admitDest_follows {msk : Nat} (hmsk : msk ||| 330 = msk) {z : State} (src : Option (Nat × Nat)) (room : Bool) (a : State ×
    List Dest × Bool) (d : Dest) (h : Follows msk z a.1) : LFollows msk z (State.admitDest src room a d) := by
  unfold State.admitDest
  repeat' first
    | with_reducible assumption | (intro _) | with_reducible apply State.heldArrival_follows (within hmsk (by decide))
    | with_reducible apply State.discardCells_follows (within hmsk (by decide))
    | with_reducible apply State.useAside_follows (within hmsk (by decide))
    | with_reducible apply State.refuse_follows (within hmsk (by decide)) | with_reducible apply State.when_follows
    | simp only [LFollows.pair_iff] | with_reducible refine LFollows.of_eq ?_ (by with_reducible assumption)
    | with_reducible refine OFollows.get ?_ (by with_reducible assumption) | with_reducible apply Follows.ite
    | with_reducible apply LFollows.ite | split | dsimp only

theorem State.store_follows {msk : Nat} (hmsk : msk ||| 330 = msk) {z s : State} (ds : List Dest) (src : Option (Nat × Nat)) (room :
    Bool) (h : Follows msk z s) : LFollows msk z (State.store s ds src room) := by
  unfold State.store
  repeat' first
    | with_reducible assumption | (intro _) | with_reducible apply State.admitDest_follows (within hmsk (by decide))
    | with_reducible apply State.alloc_follows (within hmsk (by decide))
    | with_reducible apply State.notePool_follows (within hmsk (by decide))
    | with_reducible apply State.refuse_follows (within hmsk (by decide))
    | with_reducible apply State.showPool_follows (within hmsk (by decide))
    | with_reducible apply State.link_follows (within hmsk (by decide)) | with_reducible apply foldS_follows
    | simp only [LFollows.pair_iff] | with_reducible refine LFollows.of_eq ?_ (by with_reducible assumption)
    | simp only [RFollows.pair_iff] | with_reducible refine RFollows.of_eq ?_ (by with_reducible assumption)
    | with_reducible refine PFollows.get ?_ (by with_reducible assumption)
    | with_reducible refine PFollows.get' ?_ (by with_reducible assumption) | with_reducible apply foldl_fst_follows
    | with_reducible apply foldl_snd_follows | with_reducible apply foldl_follows
    | with_reducible refine LFollows.fst (foldl_fst_follows _ _ ?_ ?_) | with_reducible refine RFollows.snd (foldl_snd_follows _ _ ?_ ?_)
    | with_reducible exact LFollows.fst (by with_reducible assumption) | with_reducible exact RFollows.snd (by with_reducible assumption)
    | with_reducible refine LFollows.fst (State.admitDest_follows (within hmsk (by decide)) _ _ _ _ ?_) | with_reducible apply Follows.ite
    | with_reducible apply LFollows.ite | split | dsimp only

theorem State.enqueue_follows {msk : Nat} (hmsk : msk ||| 330 = msk) {z s : State} (c : Nat) (id : Nat) (cell : Sys2Proof.Cell) (qs :
    List (Nat × Nat)) (src : Option (Nat × Nat)) (h : Follows msk z s) : LFollows msk z (State.enqueue s c id cell qs src) := by
  unfold State.enqueue
  repeat' first
    | with_reducible assumption | (intro _) | with_reducible apply State.store_follows (within hmsk (by decide))
    | simp only [LFollows.pair_iff] | with_reducible refine LFollows.of_eq ?_ (by with_reducible assumption)
    | with_reducible refine LFollows.fst (State.store_follows (within hmsk (by decide)) _ _ _ ?_) | split | dsimp only

theorem State.newFrame_follows {msk : Nat} (hmsk : msk ||| 256 = msk) {z s : State} (h : Follows msk z s) : RFollows msk z
    (State.newFrame s) := by
  unfold State.newFrame
  repeat' first
    | with_reducible assumption | (intro _) | simp only [Follows.gird_iff (within hmsk (by decide))] | simp only [RFollows.pair_iff]
    | with_reducible refine RFollows.of_eq ?_ (by with_reducible assumption) | split | dsimp only

theorem State.ageFrame_follows {msk : Nat} (hmsk : msk ||| 330 = msk) {z s : State} (q : Nat) (f : QFrame) (fs : Bool) (h : Follows msk
    z s) : Follows msk z (State.ageFrame s q f fs) := by
  unfold State.ageFrame
  repeat' first
    | with_reducible assumption | (intro _) | with_reducible apply State.raise_follows (within hmsk (by decide))
    | with_reducible apply State.discardFrame_follows (within hmsk (by decide))
    | with_reducible apply State.beginTail_follows (within hmsk (by decide)) | with_reducible apply State.inc_follows
    | with_reducible apply Follows.ite | split | dsimp only

theorem State.showKept_follows {msk : Nat} {z s : State} (c : Nat) (h : Follows msk z s) : Follows msk z (State.showKept s c) := by
  unfold State.showKept
  repeat' first
    | with_reducible assumption | (intro _) | with_reducible apply State.wr_follows | split | dsimp only

theorem State.startReplay_follows {msk : Nat} (hmsk : msk ||| 320 = msk) {z s : State} (c : Nat) (h : Follows msk z s) : Follows msk z
    (State.startReplay s c) := by
  unfold State.startReplay
  repeat' first
    | with_reducible assumption | (intro _) | simp only [Follows.gird_iff (within hmsk (by decide))]
    | with_reducible apply State.relinkDue_follows (within hmsk (by decide)) | with_reducible apply foldS_follows | split | dsimp only

theorem State.freeAcked_follows {msk : Nat} (hmsk : msk ||| 328 = msk) {z s : State} (c : Nat) (seq : Nat) (h : Follows msk z s) :
    LFollows msk z (State.freeAcked s c seq) := by
  unfold State.freeAcked
  repeat' first
    | with_reducible assumption | (intro _) | with_reducible apply State.release_follows (within hmsk (by decide))
    | with_reducible apply State.relinkDue_follows (within hmsk (by decide))
    | with_reducible apply State.setQueue_follows (within hmsk (by decide))
    | with_reducible apply State.modCtx_follows (within hmsk (by decide)) | with_reducible apply State.showKept_follows
    | with_reducible apply foldS_follows | with_reducible apply State.when_follows | simp only [LFollows.pair_iff]
    | with_reducible refine LFollows.of_eq ?_ (by with_reducible assumption) | with_reducible apply Follows.ite
    | with_reducible apply LFollows.ite | split | dsimp only

theorem State.depart_follows {msk : Nat} (hmsk : msk ||| 330 = msk) {z s : State} (q : Nat) (f : QFrame) (x : QCell) (isTail : Bool) (h
    : Follows msk z s) : LFollows msk z (State.depart s q f x isTail) := by
  unfold State.depart
  repeat' first
    | with_reducible assumption | (intro _) | with_reducible apply State.modFrame_follows (within hmsk (by decide))
    | with_reducible apply State.addDrop_follows (within hmsk (by decide))
    | with_reducible apply State.unlinkFrame_follows (within hmsk (by decide))
    | with_reducible apply State.countInc_follows (within hmsk (by decide))
    | with_reducible apply State.modCtx_follows (within hmsk (by decide)) | with_reducible apply State.showKept_follows
    | with_reducible apply State.release_follows (within hmsk (by decide))
    | with_reducible apply State.relinkDue_follows (within hmsk (by decide)) | with_reducible apply State.inc_follows
    | with_reducible apply State.when_follows | simp only [LFollows.pair_iff]
    | with_reducible refine LFollows.of_eq ?_ (by with_reducible assumption) | with_reducible apply Follows.ite
    | with_reducible apply LFollows.ite | split | dsimp only

theorem State.dequeue_follows {msk : Nat} (hmsk : msk ||| 330 = msk) {z s : State} (q : Nat) (ecc : Sys2Proof.Tbl Nat) (mayStart : State
    → QFrame → Sys2Proof.Cell → State × Bool) (x4 : Nat) (h : Follows msk z s) (hmayStart : ∀ t x y, Follows msk z t → LFollows msk z
    (mayStart t x y)) : LFollows msk z (State.dequeue s q ecc mayStart x4) := by
  induction x4 generalizing s with
  | zero =>
    unfold State.dequeue
    repeat' first
      | with_reducible assumption | (intro _) | with_reducible refine LFollows.fst (ih ?_)
      | with_reducible refine LFollows.fst (hmayStart _ _ _ ?_) | with_reducible apply hmayStart
      | with_reducible apply State.ageFrame_follows (within hmsk (by decide))
      | with_reducible apply State.alloc_follows (within hmsk (by decide))
      | with_reducible apply State.beginTail_follows (within hmsk (by decide))
      | with_reducible apply State.depart_follows (within hmsk (by decide))
      | with_reducible apply State.discardFrame_follows (within hmsk (by decide))
      | with_reducible apply State.raise_follows (within hmsk (by decide)) | with_reducible apply State.inc_follows
      | with_reducible apply State.when_follows | simp only [LFollows.pair_iff]
      | with_reducible refine LFollows.of_eq ?_ (by with_reducible assumption)
      | with_reducible refine PFollows.get ?_ (by with_reducible assumption)
      | with_reducible refine PFollows.get' ?_ (by with_reducible assumption)
      | with_reducible refine LFollows.fst (State.depart_follows (within hmsk (by decide)) _ _ _ _ ?_) | with_reducible apply Follows.ite
      | with_reducible apply LFollows.ite | split | dsimp only
  | succ n ih =>
    unfold State.dequeue
    repeat' first
      | with_reducible assumption | (intro _) | with_reducible apply ih | with_reducible refine LFollows.fst (ih ?_)
      | with_reducible refine LFollows.fst (hmayStart _ _ _ ?_) | with_reducible apply hmayStart
      | with_reducible apply State.ageFrame_follows (within hmsk (by decide))
      | with_reducible apply State.alloc_follows (within hmsk (by decide))
      | with_reducible apply State.beginTail_follows (within hmsk (by decide))
      | with_reducible apply State.depart_follows (within hmsk (by decide))
      | with_reducible apply State.discardFrame_follows (within hmsk (by decide))
      | with_reducible apply State.raise_follows (within hmsk (by decide)) | with_reducible apply State.inc_follows
      | with_reducible apply State.when_follows | simp only [LFollows.pair_iff]
      | with_reducible refine LFollows.of_eq ?_ (by with_reducible assumption)
      | with_reducible refine PFollows.get ?_ (by with_reducible assumption)
      | with_reducible refine PFollows.get' ?_ (by with_reducible assumption)
      | with_reducible refine LFollows.fst (State.depart_follows (within hmsk (by decide)) _ _ _ _ ?_) | with_reducible apply Follows.ite
      | with_reducible apply LFollows.ite | split | dsimp only

theorem State.takeCell_follows {msk : Nat} (hmsk : msk ||| 330 = msk) {z s : State} (q : Nat) (ecc : Sys2Proof.Tbl Nat) (mayStart :
    State → QFrame → Sys2Proof.Cell → State × Bool) (h : Follows msk z s) (hmayStart : ∀ t x y, Follows msk z t → LFollows msk z
    (mayStart t x y)) : LFollows msk z (State.takeCell s q ecc mayStart) := by
  unfold State.takeCell
  repeat' first
    | with_reducible assumption | (intro _) | with_reducible refine LFollows.fst (hmayStart _ _ _ ?_) | with_reducible apply hmayStart
    | with_reducible apply State.dequeue_follows (within hmsk (by decide)) | simp only [LFollows.pair_iff]
    | with_reducible refine LFollows.of_eq ?_ (by with_reducible assumption)
    | with_reducible refine LFollows.fst (State.dequeue_follows (within hmsk (by decide)) _ _ _ _ ?_ ?_)
    | with_reducible apply Follows.ite | with_reducible apply LFollows.ite | split | dsimp only

theorem State.stopFrame_follows {msk : Nat} (hmsk : msk ||| 330 = msk) {z s : State} (q : Nat) (f : QFrame) (h : Follows msk z s) :
    Follows msk z (State.stopFrame s q f) := by
  unfold State.stopFrame
  repeat' first
    | with_reducible assumption | (intro _) | with_reducible apply State.modFrame_follows (within hmsk (by decide))
    | with_reducible apply State.beginTail_follows (within hmsk (by decide))
    | with_reducible apply State.removeFrame_follows (within hmsk (by decide))
    | with_reducible apply State.discardCells_follows (within hmsk (by decide)) | with_reducible apply State.inc_follows
    | with_reducible apply Follows.ite | split | dsimp only

theorem State.faultFrame_follows {msk : Nat} (hmsk : msk ||| 330 = msk) {z s : State} (q : Nat) (f : QFrame) (h : Follows msk z s) :
    Follows msk z (State.faultFrame s q f) := by
  unfold State.faultFrame
  repeat' first
    | with_reducible assumption | (intro _) | with_reducible apply State.modFrame_follows (within hmsk (by decide))
    | with_reducible apply State.removeFrame_follows (within hmsk (by decide))
    | with_reducible apply State.discardCells_follows (within hmsk (by decide)) | with_reducible apply State.inc_follows | split
    | dsimp only

theorem State.flushCtx_follows {msk : Nat} (hmsk : msk ||| 330 = msk) {z s : State} (c : Nat) (tails : Bool) (h : Follows msk z s) :
    Follows msk z (State.flushCtx s c tails) := by
  unfold State.flushCtx
  repeat' first
    | with_reducible assumption | (intro _) | simp only [Follows.gird_iff (within hmsk (by decide))]
    | with_reducible apply State.stopFrame_follows (within hmsk (by decide))
    | with_reducible apply State.faultFrame_follows (within hmsk (by decide))
    | with_reducible apply State.modCtx_follows (within hmsk (by decide))
    | with_reducible apply State.release_follows (within hmsk (by decide)) | with_reducible apply State.showKept_follows
    | with_reducible apply foldS_follows | with_reducible apply State.inc_follows | with_reducible apply Follows.ite | split | dsimp only

theorem State.ctxFault_follows {msk : Nat} (hmsk : msk ||| 330 = msk) {z s : State} (c : Nat) (cause : Nat) (h : Follows msk z s) :
    Follows msk z (State.ctxFault s c cause) := by
  unfold State.ctxFault
  repeat' first
    | with_reducible assumption | (intro _) | with_reducible apply State.ctxSetLife_follows (within hmsk (by decide))
    | with_reducible apply State.flushCtx_follows (within hmsk (by decide)) | with_reducible apply State.wr_follows
    | with_reducible apply State.flag_follows | split | dsimp only

end Sys2Proof.Machine
end

