-- ==== Sys2Proof/Laws/FolSlots.lean ====
section
/-!
SUPPORT. `Follows` for the operations and meanings of `Slots.lean`.
-/

namespace Sys2Proof.Machine

open Host (Outcome)

set_option linter.unusedTactic false
set_option linter.unreachableTactic false
set_option linter.unusedSimpArgs false
set_option linter.unusedVariables false

theorem State.modLk_follows {msk : Nat} (hmsk : msk ||| 8 = msk) {z s : State} (n : Nat) (f : LinkKey → LinkKey) (h : Follows msk z s) :
    Follows msk z (State.modLk s n f) := by
  unfold State.modLk
  repeat' first
    | with_reducible assumption | (intro _) | with_reducible apply State.modPort_follows (within hmsk (by decide)) | split | dsimp only

theorem State.queueUnit_follows {msk : Nat} (hmsk : msk ||| 8 = msk) {z s : State} (n : Nat) (u : CtlUnit) (h : Follows msk z s) :
    Follows msk z (State.queueUnit s n u) := by
  unfold State.queueUnit
  repeat' first
    | with_reducible assumption | (intro _) | with_reducible apply State.modEp_follows (within hmsk (by decide)) | split | dsimp only

theorem State.queueAck_follows {msk : Nat} (hmsk : msk ||| 8 = msk) {z s : State} (n : Nat) (e : Sys2Proof.AckEntry) (h : Follows msk z
    s) : Follows msk z (State.queueAck s n e) := by
  unfold State.queueAck
  repeat' first
    | with_reducible assumption | (intro _) | with_reducible apply State.modEp_follows (within hmsk (by decide))
    | with_reducible apply Follows.ite | split | dsimp only

theorem State.relayAck_follows {msk : Nat} (hmsk : msk ||| 8 = msk) {z s : State} (n : Nat) (e : Sys2Proof.AckEntry) (h : Follows msk z
    s) : Follows msk z (State.relayAck s n e) := by
  unfold State.relayAck
  repeat' first
    | with_reducible assumption | (intro _) | with_reducible apply State.modEp_follows (within hmsk (by decide)) | split | dsimp only

theorem State.slotValid_follows {msk : Nat} (hmsk : msk ||| 8 = msk) {z s : State} (n : Nat) (cycno : Nat) (h : Follows msk z s) :
    Follows msk z (State.slotValid s n cycno) := by
  unfold State.slotValid
  repeat' first
    | with_reducible assumption | (intro _) | with_reducible apply State.modLk_follows (within hmsk (by decide))
    | with_reducible apply State.queueUnit_follows (within hmsk (by decide)) | with_reducible apply State.when_follows | split
    | dsimp only

end Sys2Proof.Machine
end

