-- ==== Sys2Proof/Laws/FolStepOps.lean ====
section
/-!
SUPPORT. `Follows` for the operations and meanings of `StepOps.lean`.
-/

namespace Sys2Proof.Machine

open Host (Outcome)

set_option linter.unusedTactic false
set_option linter.unreachableTactic false
set_option linter.unusedSimpArgs false
set_option linter.unusedVariables false

theorem State.modGcl_follows {msk : Nat} (hmsk : msk ||| 512 = msk) {z s : State} (l : Nat) (f : GclS → GclS) (h : Follows msk z s) :
    Follows msk z (State.modGcl s l f) := by
  unfold State.modGcl
  repeat' first
    | with_reducible assumption | (intro _) | simp only [Follows.sch_iff (within hmsk (by decide))] | split | dsimp only

theorem State.overrun_follows {msk : Nat} (hmsk : msk ||| 514 = msk) {z s : State} (l : Nat) (gates : Nat) (h : Follows msk z s) :
    Follows msk z (State.overrun s l gates) := by
  unfold State.overrun
  repeat' first
    | with_reducible assumption | (intro _) | with_reducible apply State.modGcl_follows (within hmsk (by decide))
    | with_reducible apply State.raise_follows (within hmsk (by decide)) | with_reducible apply State.when_follows
    | with_reducible apply State.inc_follows | split | dsimp only

theorem State.gclEnter_follows {msk : Nat} (hmsk : msk ||| 514 = msk) {z s : State} (l : Nat) (g : Gcl) (h : Follows msk z s) : Follows
    msk z (State.gclEnter s l g) := by
  unfold State.gclEnter
  repeat' first
    | with_reducible assumption | (intro _) | with_reducible apply State.overrun_follows (within hmsk (by decide))
    | with_reducible apply State.modGcl_follows (within hmsk (by decide)) | with_reducible apply State.wr_follows
    | with_reducible apply Follows.ite | split | dsimp only

theorem State.gclInstall_follows {msk : Nat} (hmsk : msk ||| 514 = msk) {z s : State} (l : Nat) (h : Follows msk z s) : Follows msk z
    (State.gclInstall s l) := by
  unfold State.gclInstall
  repeat' first
    | with_reducible assumption | (intro _) | with_reducible apply State.modGcl_follows (within hmsk (by decide))
    | with_reducible apply State.raise_follows (within hmsk (by decide))
    | with_reducible apply State.gclEnter_follows (within hmsk (by decide)) | with_reducible apply State.flag_follows
    | with_reducible apply State.wr_follows | split | dsimp only

theorem State.gclStep_follows {msk : Nat} (hmsk : msk ||| 514 = msk) {z s : State} (l : Nat) (h : Follows msk z s) : Follows msk z
    (State.gclStep s l) := by
  unfold State.gclStep
  repeat' first
    | with_reducible assumption | (intro _) | with_reducible apply State.gclInstall_follows (within hmsk (by decide))
    | with_reducible apply State.modGcl_follows (within hmsk (by decide)) | with_reducible apply Follows.ite | split | dsimp only

theorem State.drive_follows {msk : Nat} (hmsk : msk ||| 32 = msk) {z s : State} (k : Nat) (v : Bool) (h : Follows msk z s) : Follows msk
    z (State.drive s k v) := by
  unfold State.drive
  repeat' first
    | with_reducible assumption | (intro _) | simp only [Follows.evi_iff (within hmsk (by decide))]
    | with_reducible apply State.emit_follows | with_reducible apply Follows.ite | split | dsimp only

theorem State.foutAct_follows {msk : Nat} (hmsk : msk ||| 34 = msk) {z s : State} (k : Nat) (h : Follows msk z s) : Follows msk z
    (State.foutAct s k) := by
  unfold State.foutAct
  repeat' first
    | with_reducible assumption | (intro _) | simp only [Follows.evi_iff (within hmsk (by decide))]
    | with_reducible apply State.drive_follows (within hmsk (by decide))
    | with_reducible apply State.raise_follows (within hmsk (by decide)) | with_reducible apply State.flag_follows
    | with_reducible apply State.when_follows | split | dsimp only

theorem State.foutLate_follows {msk : Nat} (hmsk : msk ||| 34 = msk) {z s : State} (k : Nat) (h : Follows msk z s) : Follows msk z
    (State.foutLate s k) := by
  unfold State.foutLate
  repeat' first
    | with_reducible assumption | (intro _) | with_reducible apply State.foutAct_follows (within hmsk (by decide))
    | with_reducible apply State.raise_follows (within hmsk (by decide)) | with_reducible apply State.flag_follows | split | dsimp only

theorem State.foutPassed_follows {msk : Nat} (hmsk : msk ||| 34 = msk) {z s : State} (j : Nat) (h : Follows msk z s) : Follows msk z
    (State.foutPassed s j) := by
  unfold State.foutPassed
  repeat' first
    | with_reducible assumption | (intro _) | with_reducible apply State.foutLate_follows (within hmsk (by decide))
    | with_reducible apply State.when_follows | split | dsimp only

theorem State.timeStepped_follows {msk : Nat} (hmsk : msk ||| 546 = msk) {z s : State} (h : Follows msk z s) : Follows msk z
    (State.timeStepped s) := by
  unfold State.timeStepped
  repeat' first
    | with_reducible assumption | (intro _) | with_reducible apply State.gclStep_follows (within hmsk (by decide))
    | with_reducible apply State.foutPassed_follows (within hmsk (by decide)) | with_reducible apply foldS_follows
    | with_reducible apply State.flag_follows | split | dsimp only

theorem State.alignTime_follows {msk : Nat} (hmsk : msk ||| 550 = msk) {z s : State} (n : Nat) (h : Follows msk z s) : Follows msk z
    (State.alignTime s n) := by
  unfold State.alignTime
  repeat' first
    | with_reducible assumption | (intro _) | with_reducible apply State.timeStepped_follows (within hmsk (by decide))
    | with_reducible apply State.modTime_follows (within hmsk (by decide))
    | with_reducible apply State.setTime_follows (within hmsk (by decide))
    | with_reducible apply State.startStep_follows (within hmsk (by decide)) | with_reducible apply Follows.ite | split | dsimp only

theorem State.enterCycle_follows {msk : Nat} (hmsk : msk ||| 558 = msk) {z s : State} (n : Nat) (h : Follows msk z s) : Follows msk z
    (State.enterCycle s n) := by
  unfold State.enterCycle
  repeat' first
    | with_reducible assumption | (intro _) | with_reducible apply State.applyFields_follows
    | with_reducible apply State.clearTable_follows | with_reducible apply State.modEp_follows (within hmsk (by decide))
    | with_reducible apply State.alignTime_follows (within hmsk (by decide)) | with_reducible apply State.showDigests_follows
    | with_reducible apply State.wr_follows | with_reducible apply foldS_follows | with_reducible apply State.setWord_follows
    | with_reducible apply State.setBit_follows | split | dsimp only

end Sys2Proof.Machine
end

