-- ==== Sys2Proof/Laws/FolLinks.lean ====
section
/-!
SUPPORT. `Follows` for the operations and meanings of `Links.lean`.
-/

namespace Sys2Proof.Machine

open Host (Outcome)

set_option linter.unusedTactic false
set_option linter.unreachableTactic false
set_option linter.unusedSimpArgs false
set_option linter.unusedVariables false

theorem State.goT_follows {msk : Nat} {z s : State} (n : Nat) (t : Nat) (h : Follows msk z s) : Follows msk z (State.goT s n t) := by
  unfold State.goT
  repeat' first
    | with_reducible assumption | (intro _) | with_reducible apply State.wr_follows | split | dsimp only

theorem State.enterSpeed_follows {msk : Nat} {z s : State} (n : Nat) (h : Follows msk z s) : Follows msk z (State.enterSpeed s n) := by
  unfold State.enterSpeed
  repeat' first
    | with_reducible assumption | (intro _) | with_reducible apply State.goT_follows | with_reducible apply State.wr_follows
    | with_reducible apply State.emit_follows | split | dsimp only

theorem State.glintSeen_follows {msk : Nat} {z s : State} (n : Nat) (h : Follows msk z s) : Follows msk z (State.glintSeen s n) := by
  unfold State.glintSeen
  repeat' first
    | with_reducible assumption | (intro _) | with_reducible apply State.enterSpeed_follows | with_reducible apply State.emit_follows
    | split | dsimp only

theorem State.glintsDue_follows {msk : Nat} (hmsk : msk ||| 8 = msk) {z s : State} (h : Follows msk z s) : Follows msk z
    (State.glintsDue s) := by
  unfold State.glintsDue
  repeat' first
    | with_reducible assumption | (intro _) | with_reducible apply State.modTr_follows (within hmsk (by decide))
    | with_reducible apply foldS_follows | with_reducible apply State.when_follows | with_reducible apply State.emit_follows | split
    | dsimp only

theorem State.enterEqualize_follows {msk : Nat} (hmsk : msk ||| 8 = msk) {z s : State} (n : Nat) (h : Follows msk z s) : Follows msk z
    (State.enterEqualize s n) := by
  unfold State.enterEqualize
  repeat' first
    | with_reducible assumption | (intro _) | with_reducible apply State.modTr_follows (within hmsk (by decide))
    | with_reducible apply State.goT_follows | with_reducible apply State.wr_follows | with_reducible apply State.emit_follows
    | with_reducible apply Follows.ite | split | dsimp only

theorem execTerminationSense_follows {msk : Nat} (hmsk : msk ||| 8 = msk) {z s : State} (n : Nat) (pair0 : Bool) (pair1 : Bool) (h :
    Follows msk z s) : ∃ nx, execTerminationSense n pair0 pair1 s = .next nx ∧ Follows msk z nx := by
  unfold execTerminationSense; refine done_follows ?_
  repeat' first
    | with_reducible assumption | (intro _) | with_reducible apply State.enterEqualize_follows (within hmsk (by decide))
    | with_reducible apply State.modTr_follows (within hmsk (by decide)) | with_reducible apply State.goT_follows
    | with_reducible apply State.when_follows | with_reducible apply State.wr_follows | with_reducible apply State.emit_follows
    | with_reducible apply Follows.ite | split | dsimp only

theorem execGlintRecognised_follows {msk : Nat} (hmsk : msk ||| 524315 = msk) {z s : State} (n : Nat) (h : Follows msk z s) : ∃ nx,
    execGlintRecognised n s = .next nx ∧ Follows msk z nx := by
  unfold execGlintRecognised; refine done_follows ?_
  repeat' first
    | with_reducible assumption | (intro _) | with_reducible apply State.wakeBy_follows (within hmsk (by decide))
    | with_reducible apply State.raise_follows (within hmsk (by decide))
    | with_reducible apply State.domRequest_follows (within hmsk (by decide))
    | with_reducible apply State.resumeLink_follows (within hmsk (by decide)) | with_reducible apply State.glintSeen_follows
    | with_reducible apply State.when_follows | with_reducible apply State.inc_follows | split | dsimp only

theorem execActivityRecognised_follows {msk : Nat} (hmsk : msk ||| 524315 = msk) {z s : State} (n : Nat) (h : Follows msk z s) : ∃ nx,
    execActivityRecognised n s = .next nx ∧ Follows msk z nx := by
  unfold execActivityRecognised; refine done_follows ?_
  repeat' first
    | with_reducible assumption | (intro _) | with_reducible apply State.wakeBy_follows (within hmsk (by decide))
    | with_reducible apply State.domRequest_follows (within hmsk (by decide)) | with_reducible apply State.when_follows
    | with_reducible apply State.inc_follows | split | dsimp only

theorem execTrainingTimeout_follows {msk : Nat} (hmsk : msk ||| 11 = msk) {z s : State} (n : Nat) (h : Follows msk z s) : ∃ nx,
    execTrainingTimeout n s = .next nx ∧ Follows msk z nx := by
  unfold execTrainingTimeout; refine done_follows ?_
  repeat' first
    | with_reducible assumption | (intro _) | with_reducible apply State.trainFail_follows (within hmsk (by decide))
    | with_reducible apply State.when_follows | with_reducible apply Follows.ite | split | dsimp only

theorem execFailBeaconEnd_follows {msk : Nat} (hmsk : msk ||| 334 = msk) {z s : State} (n : Nat) (h : Follows msk z s) : ∃ nx,
    execFailBeaconEnd n s = .next nx ∧ Follows msk z nx := by
  unfold execFailBeaconEnd; refine done_follows ?_
  repeat' first
    | with_reducible assumption | (intro _) | with_reducible apply State.enterDetect_follows (within hmsk (by decide))
    | with_reducible apply State.dropLink_follows (within hmsk (by decide))
    | with_reducible apply State.modTr_follows (within hmsk (by decide)) | with_reducible apply State.goT_follows
    | with_reducible apply State.when_follows | split | dsimp only

theorem execHoldoffExpiry_follows {msk : Nat} (hmsk : msk ||| 8 = msk) {z s : State} (n : Nat) (h : Follows msk z s) : ∃ nx,
    execHoldoffExpiry n s = .next nx ∧ Follows msk z nx := by
  unfold execHoldoffExpiry; refine done_follows ?_
  repeat' first
    | with_reducible assumption | (intro _) | with_reducible apply State.enterDetect_follows (within hmsk (by decide))
    | with_reducible apply State.modTr_follows (within hmsk (by decide)) | with_reducible apply State.when_follows
    | with_reducible apply State.wr_follows | split | dsimp only

theorem execSpeedBeacon_follows {msk : Nat} (hmsk : msk ||| 11 = msk) {z s : State} (n : Nat) (rates : Nat) (ceil : Nat) (keysMode :
    Nat) (strap : Nat) (h : Follows msk z s) : ∃ nx, execSpeedBeacon n rates ceil keysMode strap s = .next nx ∧ Follows msk z nx := by
  unfold execSpeedBeacon; refine done_follows ?_
  repeat' first
    | with_reducible assumption | (intro _) | with_reducible apply State.glintSeen_follows
    | with_reducible apply State.trainFail_follows (within hmsk (by decide))
    | with_reducible apply State.modTr_follows (within hmsk (by decide)) | with_reducible apply State.when_follows
    | with_reducible apply State.wr_follows | with_reducible apply Follows.ite | split | dsimp only

theorem execRateChangeDone_follows {msk : Nat} (hmsk : msk ||| 8 = msk) {z s : State} (n : Nat) (h : Follows msk z s) : ∃ nx,
    execRateChangeDone n s = .next nx ∧ Follows msk z nx := by
  unfold execRateChangeDone; refine done_follows ?_
  repeat' first
    | with_reducible assumption | (intro _) | with_reducible apply State.enterEqualize_follows (within hmsk (by decide))
    | with_reducible apply State.when_follows | with_reducible apply State.wr_follows | split | dsimp only

theorem execEqReq_follows {msk : Nat} (hmsk : msk ||| 8 = msk) {z s : State} (n : Nat) (lane : Nat) (preset : Nat) (h : Follows msk z s)
    : ∃ nx, execEqReq n lane preset s = .next nx ∧ Follows msk z nx := by
  unfold execEqReq; refine done_follows ?_
  repeat' first
    | with_reducible assumption | (intro _) | with_reducible apply State.modTr_follows (within hmsk (by decide))
    | with_reducible apply State.when_follows | with_reducible apply State.wr_follows | with_reducible apply State.emit_follows
    | with_reducible apply Follows.ite | split | dsimp only

theorem execEqAck_follows {msk : Nat} (hmsk : msk ||| 8 = msk) {z s : State} (n : Nat) (lane : Nat) (preset : Nat) (h : Follows msk z s)
    : ∃ nx, execEqAck n lane preset s = .next nx ∧ Follows msk z nx := by
  unfold execEqAck; refine done_follows ?_
  repeat' first
    | with_reducible assumption | (intro _) | with_reducible apply State.modTr_follows (within hmsk (by decide))
    | with_reducible apply State.when_follows | with_reducible apply Follows.ite | split | dsimp only

theorem execEqPresetMeasured_follows {msk : Nat} (hmsk : msk ||| 8 = msk) {z s : State} (n : Nat) (lane : Nat) (eye : Nat) (h : Follows
    msk z s) : ∃ nx, execEqPresetMeasured n lane eye s = .next nx ∧ Follows msk z nx := by
  unfold execEqPresetMeasured; refine done_follows ?_
  repeat' first
    | with_reducible assumption | (intro _) | with_reducible apply State.modTr_follows (within hmsk (by decide))
    | with_reducible apply State.when_follows | with_reducible apply State.emit_follows | with_reducible apply State.wr_follows
    | with_reducible apply Follows.ite | split | dsimp only

theorem State.tryLock_follows {msk : Nat} {z s : State} (n : Nat) (h : Follows msk z s) : Follows msk z (State.tryLock s n) := by
  unfold State.tryLock
  repeat' first
    | with_reducible assumption | (intro _) | with_reducible apply State.goT_follows | with_reducible apply State.when_follows | split
    | dsimp only

theorem execEqAdaptDone_follows {msk : Nat} (hmsk : msk ||| 11 = msk) {z s : State} (n : Nat) (eye0 : Nat) (eye1 : Nat) (h : Follows msk
    z s) : ∃ nx, execEqAdaptDone n eye0 eye1 s = .next nx ∧ Follows msk z nx := by
  unfold execEqAdaptDone; refine done_follows ?_
  repeat' first
    | with_reducible assumption | (intro _) | with_reducible apply State.trainFail_follows (within hmsk (by decide))
    | with_reducible apply State.modTr_follows (within hmsk (by decide)) | with_reducible apply State.tryLock_follows
    | with_reducible apply State.when_follows | with_reducible apply State.wr_follows | with_reducible apply State.emit_follows
    | with_reducible apply Follows.ite | split | dsimp only

theorem execEqDone_follows {msk : Nat} (hmsk : msk ||| 8 = msk) {z s : State} (n : Nat) (preset0 : Nat) (preset1 : Nat) (h : Follows msk
    z s) : ∃ nx, execEqDone n preset0 preset1 s = .next nx ∧ Follows msk z nx := by
  unfold execEqDone; refine done_follows ?_
  repeat' first
    | with_reducible assumption | (intro _) | with_reducible apply State.modTr_follows (within hmsk (by decide))
    | with_reducible apply State.tryLock_follows | with_reducible apply State.when_follows | with_reducible apply State.wr_follows | split
    | dsimp only

theorem State.enterRole_follows {msk : Nat} {z s : State} (n : Nat) (h : Follows msk z s) : Follows msk z (State.enterRole s n) := by
  unfold State.enterRole
  repeat' first
    | with_reducible assumption | (intro _) | with_reducible apply State.goT_follows | with_reducible apply State.emit_follows | split
    | dsimp only

theorem execLockDone_follows {msk : Nat} (hmsk : msk ||| 11 = msk) {z s : State} (n : Nat) (swapped : Bool) (inverted : Nat) (skew :
    Nat) (h : Follows msk z s) : ∃ nx, execLockDone n swapped inverted skew s = .next nx ∧ Follows msk z nx := by
  unfold execLockDone; refine done_follows ?_
  repeat' first
    | with_reducible assumption | (intro _) | with_reducible apply State.enterRole_follows
    | with_reducible apply State.trainFail_follows (within hmsk (by decide))
    | with_reducible apply State.modTm_follows (within hmsk (by decide))
    | with_reducible apply State.modTr_follows (within hmsk (by decide)) | with_reducible apply State.goT_follows
    | with_reducible apply State.when_follows | with_reducible apply State.wr_follows | with_reducible apply State.flag_follows
    | with_reducible apply Follows.ite | split | dsimp only

theorem execRangeMeasurement_follows {msk : Nat} (hmsk : msk ||| 8 = msk) {z s : State} (n : Nat) (h : Follows msk z s) : ∃ nx,
    execRangeMeasurement n s = .next nx ∧ Follows msk z nx := by
  unfold execRangeMeasurement; refine done_follows ?_
  repeat' first
    | with_reducible assumption | (intro _) | with_reducible apply State.modTr_follows (within hmsk (by decide))
    | with_reducible apply State.when_follows | with_reducible apply State.emit_follows | split | dsimp only

theorem execRangeBeacon_follows {msk : Nat} (hmsk : msk ||| 11 = msk) {z s : State} (n : Nat) (index : Nat) (response : Bool) (valid :
    Bool) (t1 : Nat) (t2 : Nat) (t3 : Nat) (arrival : Nat) (h : Follows msk z s) : ∃ nx, execRangeBeacon n index response valid t1 t2 t3
    arrival s = .next nx ∧ Follows msk z nx := by
  unfold execRangeBeacon; refine done_follows ?_
  repeat' first
    | with_reducible assumption | (intro _) | with_reducible apply State.modTm_follows (within hmsk (by decide))
    | with_reducible apply State.modTr_follows (within hmsk (by decide))
    | with_reducible apply State.trainFail_follows (within hmsk (by decide)) | with_reducible apply State.enterRole_follows
    | with_reducible apply State.seedRange_follows (within hmsk (by decide)) | with_reducible apply State.when_follows
    | with_reducible apply State.emit_follows | with_reducible apply Follows.ite | split | dsimp only

theorem State.becomeCrown_follows {msk : Nat} (hmsk : msk ||| 1 = msk) {z s : State} (h : Follows msk z s) : Follows msk z
    (State.becomeCrown s) := by
  unfold State.becomeCrown
  repeat' first
    | with_reducible assumption | (intro _) | simp only [Follows.chip_iff (within hmsk (by decide))]
    | with_reducible apply State.showChips_follows | with_reducible apply State.wr_follows | with_reducible apply State.flag_follows
    | split | dsimp only

theorem State.asParent_follows {msk : Nat} (hmsk : msk ||| 1 = msk) {z s : State} (n : Nat) (twin : Bool) (second : Bool) (h : Follows
    msk z s) : Follows msk z (State.asParent s n twin second) := by
  unfold State.asParent
  repeat' first
    | with_reducible assumption | (intro _) | with_reducible apply State.becomeCrown_follows (within hmsk (by decide))
    | with_reducible apply State.when_follows | with_reducible apply State.flag_follows | with_reducible apply State.setBit_follows
    | split | dsimp only

theorem State.asChild_follows {msk : Nat} (hmsk : msk ||| 1 = msk) {z s : State} (n : Nat) (twin : Bool) (second : Bool) (far :
    Sys2Proof.RoleBeacon) (h : Follows msk z s) : Follows msk z (State.asChild s n twin second far) := by
  unfold State.asChild
  repeat' first
    | with_reducible assumption | (intro _) | simp only [Follows.chip_iff (within hmsk (by decide))]
    | with_reducible apply State.when_follows | with_reducible apply State.setBit_follows | with_reducible apply State.flag_follows
    | with_reducible apply State.wr_follows | split | dsimp only

theorem State.showPeer_follows {msk : Nat} {z s : State} (n : Nat) (b : Sys2Proof.RoleBeacon) (h : Follows msk z s) : Follows msk z
    (State.showPeer s n b) := by
  unfold State.showPeer
  repeat' first
    | with_reducible assumption | (intro _) | with_reducible apply State.wr_follows | with_reducible apply State.flag_follows | split
    | dsimp only

theorem State.afterRole_follows {msk : Nat} (hmsk : msk ||| 879 = msk) {z s : State} (n : Nat) (h : Follows msk z s) : Follows msk z
    (State.afterRole s n) := by
  unfold State.afterRole
  repeat' first
    | with_reducible assumption | (intro _) | with_reducible apply State.linkUp_follows (within hmsk (by decide))
    | with_reducible apply State.goT_follows | with_reducible apply State.enterCycle_follows (within hmsk (by decide))
    | with_reducible apply Follows.ite | split | dsimp only

theorem execRoleBeacon_follows {msk : Nat} (hmsk : msk ||| 879 = msk) {z s : State} (n : Nat) (b : Sys2Proof.RoleBeacon) (h : Follows
    msk z s) : ∃ nx, execRoleBeacon n b s = .next nx ∧ Follows msk z nx := by
  unfold execRoleBeacon; refine done_follows ?_
  repeat' first
    | with_reducible assumption | (intro _) | with_reducible apply State.showPeer_follows | with_reducible apply State.enterRole_follows
    | with_reducible apply State.modTr_follows (within hmsk (by decide))
    | with_reducible apply State.trainFail_follows (within hmsk (by decide)) | with_reducible apply State.goT_follows
    | with_reducible apply State.afterRole_follows (within hmsk (by decide))
    | with_reducible apply State.asParent_follows (within hmsk (by decide))
    | with_reducible apply State.asChild_follows (within hmsk (by decide)) | with_reducible apply State.when_follows
    | with_reducible apply State.emit_follows | split | dsimp only

theorem execParkedBeaconTimer_follows {msk : Nat} {z s : State} (n : Nat) (h : Follows msk z s) : ∃ nx, execParkedBeaconTimer n s =
    .next nx ∧ Follows msk z nx := by
  unfold execParkedBeaconTimer; refine done_follows ?_
  repeat' first
    | with_reducible assumption | (intro _) | with_reducible apply State.enterRole_follows | with_reducible apply State.when_follows
    | with_reducible apply State.emit_follows | with_reducible apply Follows.ite | split | dsimp only

theorem execFailBeacon_follows {msk : Nat} (hmsk : msk ||| 11 = msk) {z s : State} (n : Nat) (cause : Nat) (st : Nat) (h : Follows msk z
    s) : ∃ nx, execFailBeacon n cause st s = .next nx ∧ Follows msk z nx := by
  unfold execFailBeacon; refine done_follows ?_
  repeat' first
    | with_reducible assumption | (intro _) | with_reducible apply State.trainFail_follows (within hmsk (by decide))
    | with_reducible apply State.when_follows | split | dsimp only

theorem execLinkLoss_follows {msk : Nat} (hmsk : msk ||| 335 = msk) {z s : State} (n : Nat) (cause : Nat) (h : Follows msk z s) : ∃ nx,
    execLinkLoss n cause s = .next nx ∧ Follows msk z nx := by
  unfold execLinkLoss; refine done_follows ?_
  repeat' first
    | with_reducible assumption | (intro _) | with_reducible apply State.linkDown_follows (within hmsk (by decide))
    | with_reducible apply State.when_follows | split | dsimp only

theorem State.retrain_follows {msk : Nat} (hmsk : msk ||| 335 = msk) {z s : State} (n : Nat) (h : Follows msk z s) : Follows msk z
    (State.retrain s n) := by
  unfold State.retrain
  repeat' first
    | with_reducible assumption | (intro _) | with_reducible apply State.linkDown_follows (within hmsk (by decide))
    | with_reducible apply State.enterDetect_follows (within hmsk (by decide))
    | with_reducible apply State.dropLink_follows (within hmsk (by decide))
    | with_reducible apply State.leaveTree_follows (within hmsk (by decide)) | with_reducible apply State.when_follows
    | with_reducible apply Follows.ite | split | dsimp only

theorem cmdLinkRetrain_follows {msk : Nat} (hmsk : msk ||| 335 = msk) {z t : State} (n : Nat) (h : Follows msk z t) : Follows msk z
    ((cmdLinkRetrain n).act t) := by
  unfold cmdLinkRetrain; dsimp only
  repeat' first
    | with_reducible assumption | (intro _) | with_reducible apply State.retrain_follows (within hmsk (by decide)) | split | dsimp only

theorem execLinkRetrain_follows {msk : Nat} (hmsk : msk ||| 524639 = msk) {z s : State} (p : Sys2Proof.Path) (n : Nat) (h : Follows msk
    z s) : ∃ nx, execLinkRetrain p n s = .next nx ∧ Follows msk z nx := by
  unfold execLinkRetrain; refine done_follows ?_
  repeat' first
    | with_reducible assumption | (intro _) | with_reducible apply State.runCmd_follows (within hmsk (by decide))
    | with_reducible apply cmdLinkRetrain_follows (within hmsk (by decide)) | with_reducible apply State.when_follows | split | dsimp only

theorem execPortStopping_follows {msk : Nat} (hmsk : msk ||| 8 = msk) {z s : State} (n : Nat) (h : Follows msk z s) : ∃ nx,
    execPortStopping n s = .next nx ∧ Follows msk z nx := by
  unfold execPortStopping; refine done_follows ?_
  repeat' first
    | with_reducible assumption | (intro _) | with_reducible apply State.modTr_follows (within hmsk (by decide))
    | with_reducible apply State.when_follows | split | dsimp only

theorem State.sendSwapReq_follows {msk : Nat} (hmsk : msk ||| 8 = msk) {z s : State} (n : Nat) (h : Follows msk z s) : Follows msk z
    (State.sendSwapReq s n) := by
  unfold State.sendSwapReq
  repeat' first
    | with_reducible assumption | (intro _) | with_reducible apply State.queueUnit_follows (within hmsk (by decide))
    | with_reducible apply State.modTr_follows (within hmsk (by decide)) | with_reducible apply State.flag_follows | split | dsimp only

theorem State.swapReq_follows {msk : Nat} (hmsk : msk ||| 8 = msk) {z s : State} (n : Nat) (h : Follows msk z s) : Follows msk z
    (State.swapReq s n) := by
  unfold State.swapReq
  repeat' first
    | with_reducible assumption | (intro _) | with_reducible apply State.sendSwapReq_follows (within hmsk (by decide))
    | with_reducible apply State.wr_follows | with_reducible apply Follows.ite | split | dsimp only

theorem cmdSwapReq_follows {msk : Nat} (hmsk : msk ||| 8 = msk) {z t : State} (n : Nat) (h : Follows msk z t) : Follows msk z
    ((cmdSwapReq n).act t) := by
  unfold cmdSwapReq; dsimp only
  repeat' first
    | with_reducible assumption | (intro _) | with_reducible apply State.swapReq_follows (within hmsk (by decide)) | split | dsimp only

theorem execSwapReq_follows {msk : Nat} (hmsk : msk ||| 524315 = msk) {z s : State} (p : Sys2Proof.Path) (n : Nat) (h : Follows msk z s)
    : ∃ nx, execSwapReq p n s = .next nx ∧ Follows msk z nx := by
  unfold execSwapReq; refine done_follows ?_
  repeat' first
    | with_reducible assumption | (intro _) | with_reducible apply State.runCmd_follows (within hmsk (by decide))
    | with_reducible apply cmdSwapReq_follows (within hmsk (by decide)) | with_reducible apply State.when_follows | split | dsimp only

theorem execRoleSwapReqMsg_follows {msk : Nat} (hmsk : msk ||| 8 = msk) {z s : State} (n : Nat) (cyc : Nat) (unit : Nat) (sent : Nat) (h
    : Follows msk z s) : ∃ nx, execRoleSwapReqMsg n cyc unit sent s = .next nx ∧ Follows msk z nx := by
  unfold execRoleSwapReqMsg; refine done_follows ?_
  repeat' first
    | with_reducible assumption | (intro _) | with_reducible apply State.modTr_follows (within hmsk (by decide))
    | with_reducible apply State.queueUnit_follows (within hmsk (by decide)) | with_reducible apply State.when_follows
    | with_reducible apply State.flag_follows | with_reducible apply State.inc_follows | with_reducible apply State.wr_follows
    | with_reducible apply Follows.ite | split | dsimp only

theorem execRoleSwapResend_follows {msk : Nat} (hmsk : msk ||| 8 = msk) {z s : State} (n : Nat) (h : Follows msk z s) : ∃ nx,
    execRoleSwapResend n s = .next nx ∧ Follows msk z nx := by
  unfold execRoleSwapResend; refine done_follows ?_
  repeat' first
    | with_reducible assumption | (intro _) | with_reducible apply State.sendSwapReq_follows (within hmsk (by decide))
    | with_reducible apply State.when_follows | split | dsimp only

theorem execRoleAccept_follows {msk : Nat} (hmsk : msk ||| 8 = msk) {z s : State} (n : Nat) (cyc : Nat) (h : Follows msk z s) : ∃ nx,
    execRoleAccept n cyc s = .next nx ∧ Follows msk z nx := by
  unfold execRoleAccept; refine done_follows ?_
  repeat' first
    | with_reducible assumption | (intro _) | with_reducible apply State.modTr_follows (within hmsk (by decide))
    | with_reducible apply State.when_follows | split | dsimp only

theorem execRoleRefuse_follows {msk : Nat} (hmsk : msk ||| 8 = msk) {z s : State} (n : Nat) (h : Follows msk z s) : ∃ nx, execRoleRefuse
    n s = .next nx ∧ Follows msk z nx := by
  unfold execRoleRefuse; refine done_follows ?_
  repeat' first
    | with_reducible assumption | (intro _) | with_reducible apply State.modTr_follows (within hmsk (by decide))
    | with_reducible apply State.when_follows | with_reducible apply State.flag_follows | with_reducible apply State.wr_follows | split
    | dsimp only

theorem execRoleSwap_follows {msk : Nat} (hmsk : msk ||| 11 = msk) {z s : State} (n : Nat) (links : List Sys2Proof.TreeLink) (h :
    Follows msk z s) : ∃ nx, execRoleSwap n links s = .next nx ∧ Follows msk z nx := by
  unfold execRoleSwap; refine done_follows ?_
  repeat' first
    | with_reducible assumption | (intro _) | simp only [Follows.chip_iff (within hmsk (by decide))]
    | with_reducible apply State.becomeCrown_follows (within hmsk (by decide))
    | with_reducible apply State.numberAll_follows (within hmsk (by decide)) | with_reducible apply State.showChips_follows
    | with_reducible apply State.raise_follows (within hmsk (by decide))
    | with_reducible apply State.modTr_follows (within hmsk (by decide)) | with_reducible apply State.when_follows
    | with_reducible apply State.wr_follows | with_reducible apply State.flag_follows | with_reducible apply State.inc_follows
    | with_reducible apply Follows.ite | split | dsimp only

theorem execCreditUnit_follows {msk : Nat} (hmsk : msk ||| 8 = msk) {z s : State} (n : Nat) (freed : List Nat) (h : Follows msk z s) : ∃
    nx, execCreditUnit n freed s = .next nx ∧ Follows msk z nx := by
  unfold execCreditUnit; refine done_follows ?_
  repeat' first
    | with_reducible assumption | (intro _) | with_reducible apply State.modPort_follows (within hmsk (by decide))
    | with_reducible apply State.when_follows | split | dsimp only

end Sys2Proof.Machine
end

