-- ==== Sys2Proof/Laws/FolCycle.lean ====
section
/-!
SUPPORT. `Follows` for the operations and meanings of `Cycle.lean`.
-/

namespace Sys2Proof.Machine

open Host (Outcome)

set_option linter.unusedTactic false
set_option linter.unreachableTactic false
set_option linter.unusedSimpArgs false
set_option linter.unusedVariables false

theorem State.showPlan_follows {msk : Nat} (hmsk : msk ||| 2 = msk) {z s : State} (n : Nat) (r : Except Nat (Sys2Proof.Tbl Nat)) (h :
    Follows msk z s) : Follows msk z (State.showPlan s n r) := by
  unfold State.showPlan
  repeat' first
    | with_reducible assumption | (intro _) | with_reducible apply State.raise_follows (within hmsk (by decide))
    | with_reducible apply State.wr_follows | with_reducible apply State.flag_follows | split | dsimp only

theorem State.place_follows {msk : Nat} (hmsk : msk ||| 2 = msk) {z s : State} (n : Nat) (h : Follows msk z s) : Follows msk z
    (State.place s n) := by
  unfold State.place
  repeat' first
    | with_reducible assumption | (intro _) | with_reducible apply State.showPlan_follows (within hmsk (by decide))
    | with_reducible apply State.wr_follows | with_reducible apply State.flag_follows | split | dsimp only

theorem State.showPend_follows {msk : Nat} {z s : State} (n : Nat) (h : Follows msk z s) : Follows msk z (State.showPend s n) := by
  unfold State.showPend
  repeat' first
    | with_reducible assumption | (intro _) | with_reducible apply State.flag_follows | with_reducible apply State.wr_follows
    | with_reducible apply Follows.ite | split | dsimp only

theorem State.epochResult_follows {msk : Nat} {z s : State} (n : Nat) (result : Nat) (reason : Nat) (h : Follows msk z s) : Follows msk
    z (State.epochResult s n result reason) := by
  unfold State.epochResult
  repeat' first
    | with_reducible assumption | (intro _) | with_reducible apply State.wr_follows | split | dsimp only

theorem State.epochRefused_follows {msk : Nat} (hmsk : msk ||| 2 = msk) {z s : State} (n : Nat) (result : Nat) (reason : Nat) (h :
    Follows msk z s) : Follows msk z (State.epochRefused s n result reason) := by
  unfold State.epochRefused
  repeat' first
    | with_reducible assumption | (intro _) | with_reducible apply State.raise_follows (within hmsk (by decide))
    | with_reducible apply State.epochResult_follows | with_reducible apply State.inc_follows | split | dsimp only

theorem State.epochCheck_follows {msk : Nat} (hmsk : msk ||| 2 = msk) {z s : State} (n : Nat) (h : Follows msk z s) : Follows msk z
    (State.epochCheck s n) := by
  unfold State.epochCheck
  repeat' first
    | with_reducible assumption | (intro _) | with_reducible apply State.place_follows (within hmsk (by decide))
    | with_reducible apply State.flag_follows | with_reducible apply State.wr_follows | split | dsimp only

theorem cmdEpochCheck_follows {msk : Nat} (hmsk : msk ||| 2 = msk) {z t : State} (n : Nat) (h : Follows msk z t) : Follows msk z
    ((cmdEpochCheck n).act t) := by
  unfold cmdEpochCheck; dsimp only
  repeat' first
    | with_reducible assumption | (intro _) | with_reducible apply State.epochCheck_follows (within hmsk (by decide)) | split | dsimp only

theorem execEpochCheck_follows {msk : Nat} (hmsk : msk ||| 524315 = msk) {z s : State} (p : Sys2Proof.Path) (n : Nat) (h : Follows msk z
    s) : ∃ nx, execEpochCheck p n s = .next nx ∧ Follows msk z nx := by
  unfold execEpochCheck; refine done_follows ?_
  repeat' first
    | with_reducible assumption | (intro _) | with_reducible apply State.runCmd_follows (within hmsk (by decide))
    | with_reducible apply cmdEpochCheck_follows (within hmsk (by decide)) | with_reducible apply State.when_follows | split | dsimp only

theorem State.epochReq_follows {msk : Nat} (hmsk : msk ||| 10 = msk) {z s : State} (n : Nat) (h : Follows msk z s) : Follows msk z
    (State.epochReq s n) := by
  unfold State.epochReq
  repeat' first
    | with_reducible assumption | (intro _) | with_reducible apply State.place_follows (within hmsk (by decide))
    | with_reducible apply State.epochRefused_follows (within hmsk (by decide)) | with_reducible apply State.showPend_follows
    | with_reducible apply State.modEp_follows (within hmsk (by decide)) | with_reducible apply State.flag_follows
    | with_reducible apply State.wr_follows | with_reducible apply Follows.ite | split | dsimp only

theorem cmdEpochReq_follows {msk : Nat} (hmsk : msk ||| 10 = msk) {z t : State} (n : Nat) (h : Follows msk z t) : Follows msk z
    ((cmdEpochReq n).act t) := by
  unfold cmdEpochReq; dsimp only
  repeat' first
    | with_reducible assumption | (intro _) | with_reducible apply State.epochReq_follows (within hmsk (by decide)) | split | dsimp only

theorem execEpochReq_follows {msk : Nat} (hmsk : msk ||| 524315 = msk) {z s : State} (p : Sys2Proof.Path) (n : Nat) (h : Follows msk z
    s) : ∃ nx, execEpochReq p n s = .next nx ∧ Follows msk z nx := by
  unfold execEpochReq; refine done_follows ?_
  repeat' first
    | with_reducible assumption | (intro _) | with_reducible apply State.runCmd_follows (within hmsk (by decide))
    | with_reducible apply cmdEpochReq_follows (within hmsk (by decide)) | with_reducible apply State.when_follows | split | dsimp only

theorem execEpochChecksDone_follows {msk : Nat} (hmsk : msk ||| 10 = msk) {z s : State} (n : Nat) (h : Follows msk z s) : ∃ nx,
    execEpochChecksDone n s = .next nx ∧ Follows msk z nx := by
  unfold execEpochChecksDone; refine done_follows ?_
  repeat' first
    | with_reducible assumption | (intro _) | with_reducible apply State.showPend_follows
    | with_reducible apply State.epochRefused_follows (within hmsk (by decide))
    | with_reducible apply State.modEp_follows (within hmsk (by decide)) | with_reducible apply State.epochResult_follows
    | with_reducible apply State.when_follows | with_reducible apply State.wr_follows | with_reducible apply Follows.ite | split
    | dsimp only

theorem State.dropChange_follows {msk : Nat} (hmsk : msk ||| 8 = msk) {z s : State} (n : Nat) (c : Change) (h : Follows msk z s) :
    Follows msk z (State.dropChange s n c) := by
  unfold State.dropChange
  repeat' first
    | with_reducible assumption | (intro _) | with_reducible apply State.modEp_follows (within hmsk (by decide))
    | with_reducible apply Follows.ite | split | dsimp only

theorem State.withdraw_follows {msk : Nat} (hmsk : msk ||| 8 = msk) {z s : State} (n : Nat) (start : Nat) (h : Follows msk z s) :
    Follows msk z (State.withdraw s n start) := by
  unfold State.withdraw
  repeat' first
    | with_reducible assumption | (intro _) | with_reducible apply State.modEp_follows (within hmsk (by decide))
    | with_reducible apply State.dropChange_follows (within hmsk (by decide)) | with_reducible apply State.showPend_follows
    | with_reducible apply State.epochResult_follows | with_reducible apply Follows.ite | split | dsimp only

theorem cmdEpochWithdraw_follows {msk : Nat} (hmsk : msk ||| 8 = msk) {z t : State} (n : Nat) (h : Follows msk z t) : Follows msk z
    ((cmdEpochWithdraw n).act t) := by
  unfold cmdEpochWithdraw; dsimp only
  repeat' first
    | with_reducible assumption | (intro _) | with_reducible apply State.withdraw_follows (within hmsk (by decide)) | split | dsimp only

theorem execEpochWithdraw_follows {msk : Nat} (hmsk : msk ||| 524315 = msk) {z s : State} (p : Sys2Proof.Path) (n : Nat) (h : Follows
    msk z s) : ∃ nx, execEpochWithdraw p n s = .next nx ∧ Follows msk z nx := by
  unfold execEpochWithdraw; refine done_follows ?_
  repeat' first
    | with_reducible assumption | (intro _) | with_reducible apply State.runCmd_follows (within hmsk (by decide))
    | with_reducible apply cmdEpochWithdraw_follows (within hmsk (by decide)) | with_reducible apply State.when_follows | split
    | dsimp only

theorem execEpochAnswerTimeout_follows {msk : Nat} (hmsk : msk ||| 8 = msk) {z s : State} (n : Nat) (h : Follows msk z s) : ∃ nx,
    execEpochAnswerTimeout n s = .next nx ∧ Follows msk z nx := by
  unfold execEpochAnswerTimeout; refine done_follows ?_
  repeat' first
    | with_reducible assumption | (intro _) | with_reducible apply State.withdraw_follows (within hmsk (by decide))
    | with_reducible apply State.when_follows | split | dsimp only

theorem State.answerProposal_follows {msk : Nat} (hmsk : msk ||| 10 = msk) {z s : State} (n : Nat) (a : Sys2Proof.Allot) (h : Follows
    msk z s) : Follows msk z (State.answerProposal s n a) := by
  unfold State.answerProposal
  repeat' first
    | with_reducible assumption | (intro _) | with_reducible apply State.modEp_follows (within hmsk (by decide))
    | with_reducible apply State.showPend_follows | with_reducible apply State.queueUnit_follows (within hmsk (by decide))
    | with_reducible apply State.epochRefused_follows (within hmsk (by decide)) | with_reducible apply State.wr_follows
    | with_reducible apply Follows.ite | split | dsimp only

theorem execAllotPropose_follows {msk : Nat} (hmsk : msk ||| 10 = msk) {z s : State} (n : Nat) (a : Sys2Proof.Allot) (h : Follows msk z
    s) : ∃ nx, execAllotPropose n a s = .next nx ∧ Follows msk z nx := by
  unfold execAllotPropose; refine done_follows ?_
  repeat' first
    | with_reducible assumption | (intro _) | with_reducible apply State.modEp_follows (within hmsk (by decide))
    | with_reducible apply State.raise_follows (within hmsk (by decide))
    | with_reducible apply State.queueUnit_follows (within hmsk (by decide))
    | with_reducible apply State.answerProposal_follows (within hmsk (by decide))
    | with_reducible apply State.epochRefused_follows (within hmsk (by decide)) | with_reducible apply State.when_follows
    | with_reducible apply State.inc_follows | with_reducible apply Follows.ite | split | dsimp only

theorem execAllotAccept_follows {msk : Nat} (hmsk : msk ||| 8 = msk) {z s : State} (n : Nat) (a : Sys2Proof.Allot) (h : Follows msk z s)
    : ∃ nx, execAllotAccept n a s = .next nx ∧ Follows msk z nx := by
  unfold execAllotAccept; refine done_follows ?_
  repeat' first
    | with_reducible assumption | (intro _) | with_reducible apply State.showPend_follows
    | with_reducible apply State.modEp_follows (within hmsk (by decide)) | with_reducible apply State.when_follows | split | dsimp only

theorem execAllotRefuse_follows {msk : Nat} (hmsk : msk ||| 10 = msk) {z s : State} (n : Nat) (a : Sys2Proof.Allot) (reason : Nat) (h :
    Follows msk z s) : ∃ nx, execAllotRefuse n a reason s = .next nx ∧ Follows msk z nx := by
  unfold execAllotRefuse; refine done_follows ?_
  repeat' first
    | with_reducible assumption | (intro _) | with_reducible apply State.showPend_follows
    | with_reducible apply State.epochRefused_follows (within hmsk (by decide))
    | with_reducible apply State.modEp_follows (within hmsk (by decide)) | with_reducible apply State.when_follows | split | dsimp only

theorem execAllotWithdraw_follows {msk : Nat} (hmsk : msk ||| 8 = msk) {z s : State} (n : Nat) (a : Sys2Proof.Allot) (h : Follows msk z
    s) : ∃ nx, execAllotWithdraw n a s = .next nx ∧ Follows msk z nx := by
  unfold execAllotWithdraw; refine done_follows ?_
  repeat' first
    | with_reducible assumption | (intro _) | with_reducible apply State.showPend_follows | with_reducible apply State.epochResult_follows
    | with_reducible apply State.dropChange_follows (within hmsk (by decide)) | with_reducible apply State.when_follows | split
    | dsimp only

theorem State.swapLtns_follows {msk : Nat} (hmsk : msk ||| 64 = msk) {z s : State} (n : Nat) (h : Follows msk z s) : Follows msk z
    (State.swapLtns s n) := by
  unfold State.swapLtns
  repeat' first
    | with_reducible assumption | (intro _) | with_reducible apply State.modCtx_follows (within hmsk (by decide))
    | with_reducible apply foldS_follows | with_reducible apply State.wr_follows | with_reducible apply Follows.ite | split | dsimp only

theorem State.planBuckets_follows {msk : Nat} (hmsk : msk ||| 64 = msk) {z s : State} (n : Nat) (h : Follows msk z s) : Follows msk z
    (State.planBuckets s n) := by
  unfold State.planBuckets
  repeat' first
    | with_reducible assumption | (intro _) | with_reducible apply State.modCtx_follows (within hmsk (by decide))
    | with_reducible apply foldS_follows | with_reducible apply State.when_follows | split | dsimp only

theorem State.dropOwed_follows {msk : Nat} (hmsk : msk ||| 514 = msk) {z s : State} (n : Nat) (h : Follows msk z s) : Follows msk z
    (State.dropOwed s n) := by
  unfold State.dropOwed
  repeat' first
    | with_reducible assumption | (intro _) | simp only [Follows.sch_iff (within hmsk (by decide))]
    | with_reducible apply State.raise_follows (within hmsk (by decide)) | with_reducible apply State.when_follows
    | with_reducible apply State.inc_follows | split | dsimp only

theorem State.swapPlans_follows {msk : Nat} (hmsk : msk ||| 578 = msk) {z s : State} (n : Nat) (result : Nat) (h : Follows msk z s) :
    Follows msk z (State.swapPlans s n result) := by
  unfold State.swapPlans
  repeat' first
    | with_reducible assumption | (intro _) | with_reducible apply State.copyTable_follows
    | with_reducible apply State.swapLtns_follows (within hmsk (by decide)) | with_reducible apply State.applyFields_follows
    | with_reducible apply State.epochResult_follows | with_reducible apply State.planBuckets_follows (within hmsk (by decide))
    | with_reducible apply State.dropOwed_follows (within hmsk (by decide))
    | with_reducible apply State.raise_follows (within hmsk (by decide)) | with_reducible apply State.mrExtend_follows
    | with_reducible apply State.showDigests_follows | with_reducible apply State.showPend_follows | with_reducible apply foldS_follows
    | with_reducible apply State.setWord_follows | with_reducible apply State.wr_follows | with_reducible apply State.inc_follows | split
    | dsimp only

theorem execEpochSwap_follows {msk : Nat} (hmsk : msk ||| 586 = msk) {z s : State} (n : Nat) (h : Follows msk z s) : ∃ nx, execEpochSwap
    n s = .next nx ∧ Follows msk z nx := by
  unfold execEpochSwap; refine done_follows ?_
  repeat' first
    | with_reducible assumption | (intro _) | with_reducible apply State.dropChange_follows (within hmsk (by decide))
    | with_reducible apply State.modEp_follows (within hmsk (by decide))
    | with_reducible apply State.swapPlans_follows (within hmsk (by decide)) | with_reducible apply State.when_follows | split
    | dsimp only

theorem State.enterSplit_follows {msk : Nat} (hmsk : msk ||| 10 = msk) {z s : State} (n : Nat) (h : Follows msk z s) : Follows msk z
    (State.enterSplit s n) := by
  unfold State.enterSplit
  repeat' first
    | with_reducible assumption | (intro _) | with_reducible apply State.raise_follows (within hmsk (by decide))
    | with_reducible apply State.epochResult_follows | with_reducible apply State.modEp_follows (within hmsk (by decide))
    | with_reducible apply State.inc_follows | split | dsimp only

theorem execEpochLateSwap_follows {msk : Nat} (hmsk : msk ||| 586 = msk) {z s : State} (n : Nat) (h : Follows msk z s) : ∃ nx,
    execEpochLateSwap n s = .next nx ∧ Follows msk z nx := by
  unfold execEpochLateSwap; refine done_follows ?_
  repeat' first
    | with_reducible assumption | (intro _) | with_reducible apply State.modEp_follows (within hmsk (by decide))
    | with_reducible apply State.raise_follows (within hmsk (by decide))
    | with_reducible apply State.swapPlans_follows (within hmsk (by decide))
    | with_reducible apply State.enterSplit_follows (within hmsk (by decide)) | with_reducible apply State.when_follows
    | with_reducible apply State.inc_follows | with_reducible apply Follows.ite | split | dsimp only

theorem execEpochSplit_follows {msk : Nat} (hmsk : msk ||| 10 = msk) {z s : State} (n : Nat) (h : Follows msk z s) : ∃ nx,
    execEpochSplit n s = .next nx ∧ Follows msk z nx := by
  unfold execEpochSplit; refine done_follows ?_
  repeat' first
    | with_reducible assumption | (intro _) | with_reducible apply State.enterSplit_follows (within hmsk (by decide))
    | with_reducible apply State.when_follows | split | dsimp only

theorem execEpochSettleEnd_follows {msk : Nat} (hmsk : msk ||| 72 = msk) {z s : State} (n : Nat) (h : Follows msk z s) : ∃ nx,
    execEpochSettleEnd n s = .next nx ∧ Follows msk z nx := by
  unfold execEpochSettleEnd; refine done_follows ?_
  repeat' first
    | with_reducible assumption | (intro _) | with_reducible apply State.showPend_follows
    | with_reducible apply State.dropOldLtns_follows (within hmsk (by decide))
    | with_reducible apply State.modEp_follows (within hmsk (by decide)) | with_reducible apply State.when_follows | split | dsimp only

theorem State.fillUnits_follows {msk : Nat} (hmsk : msk ||| 8 = msk) {z s : State} (n : Nat) (room : Nat) (h : Follows msk z s) :
    RFollows msk z (State.fillUnits s n room) := by
  unfold State.fillUnits
  repeat' first
    | with_reducible assumption | (intro _) | with_reducible apply State.modEp_follows (within hmsk (by decide))
    | simp only [RFollows.pair_iff] | with_reducible refine RFollows.of_eq ?_ (by with_reducible assumption)
    | with_reducible apply Follows.ite | split | dsimp only

theorem State.fecCount_follows {msk : Nat} (hmsk : msk ||| 2 = msk) {z s : State} (n : Nat) (corr : Nat) (uncorr : Nat) (h : Follows msk
    z s) : Follows msk z (State.fecCount s n corr uncorr) := by
  unfold State.fecCount
  repeat' first
    | with_reducible assumption | (intro _) | with_reducible apply State.raise_follows (within hmsk (by decide))
    | with_reducible apply State.when_follows | with_reducible apply State.inc_follows | split | dsimp only

theorem execControlSlotReceived_follows {msk : Nat} (hmsk : msk ||| 10 = msk) {z s : State} (n : Nat) (j : Nat) (nmsg : Nat) (keysel :
    Nat) (epoch : Nat) (cycno : Nat) (payload : List Sys2Proof.Byte) (trailer : Nat) (arrival : Nat) (fec : Sys2Proof.SlotFec) (h :
    Follows msk z s) : ∃ nx, execControlSlotReceived n j nmsg keysel epoch cycno payload trailer arrival fec s = .next nx ∧ Follows msk z
    nx := by
  unfold execControlSlotReceived; refine done_follows ?_
  repeat' first
    | with_reducible assumption | (intro _) | with_reducible apply State.fecCount_follows (within hmsk (by decide))
    | with_reducible apply State.raise_follows (within hmsk (by decide))
    | with_reducible apply State.modLk_follows (within hmsk (by decide))
    | with_reducible apply State.modEp_follows (within hmsk (by decide))
    | with_reducible apply State.slotValid_follows (within hmsk (by decide)) | with_reducible apply State.when_follows
    | with_reducible apply State.inc_follows | with_reducible apply Follows.ite | split | dsimp only

theorem execWakeReq_follows {msk : Nat} (hmsk : msk ||| 524315 = msk) {z s : State} (n : Nat) (cycle : Nat) (h : Follows msk z s) : ∃
    nx, execWakeReq n cycle s = .next nx ∧ Follows msk z nx := by
  unfold execWakeReq; refine done_follows ?_
  repeat' first
    | with_reducible assumption | (intro _) | with_reducible apply State.wakeBy_follows (within hmsk (by decide))
    | with_reducible apply State.when_follows | split | dsimp only

theorem execStateReport_follows {msk : Nat} (hmsk : msk ||| 8 = msk) {z s : State} (n : Nat) (power : Nat) (h : Follows msk z s) : ∃ nx,
    execStateReport n power s = .next nx ∧ Follows msk z nx := by
  unfold execStateReport; refine done_follows ?_
  repeat' first
    | with_reducible assumption | (intro _) | with_reducible apply State.modPort_follows (within hmsk (by decide))
    | with_reducible apply State.when_follows | split | dsimp only

end Sys2Proof.Machine
end

