-- ==== Sys2Proof/Laws/FolCtxOps.lean ====
section
/-!
SUPPORT. `Follows` for the operations and meanings of `CtxOps.lean`.
-/

namespace Sys2Proof.Machine

open Host (Outcome)

set_option linter.unusedTactic false
set_option linter.unreachableTactic false
set_option linter.unusedSimpArgs false
set_option linter.unusedVariables false

theorem State.ctxRelease_follows {msk : Nat} (hmsk : msk ||| 192 = msk) {z s : State} (c : Nat) (h : Follows msk z s) : Follows msk z
    (State.ctxRelease s c) := by
  unfold State.ctxRelease
  repeat' first
    | with_reducible assumption | (intro _) | simp only [Follows.quar_iff (within hmsk (by decide))]
    | with_reducible apply State.applyFields_follows | with_reducible apply State.modCtx_follows (within hmsk (by decide))
    | with_reducible apply foldS_follows | with_reducible apply State.wr_follows | with_reducible apply State.inc_follows | split
    | dsimp only

theorem State.splitWait_follows {msk : Nat} (hmsk : msk ||| 64 = msk) {z s : State} (c : Nat) (h : Follows msk z s) : Follows msk z
    (State.splitWait s c) := by
  unfold State.splitWait
  repeat' first
    | with_reducible assumption | (intro _) | with_reducible apply State.modCtx_follows (within hmsk (by decide))
    | with_reducible apply State.when_follows | split | dsimp only

theorem State.ctxStart_follows {msk : Nat} (hmsk : msk ||| 66 = msk) {z s : State} (c : Nat) (h : Follows msk z s) : Follows msk z
    (State.ctxStart s c) := by
  unfold State.ctxStart
  repeat' first
    | with_reducible assumption | (intro _) | with_reducible apply State.splitWait_follows (within hmsk (by decide))
    | with_reducible apply State.modCtx_follows (within hmsk (by decide))
    | with_reducible apply State.ctxSetLife_follows (within hmsk (by decide)) | split | dsimp only

theorem State.encCheck_follows {msk : Nat} (hmsk : msk ||| 330 = msk) {z s : State} (c : Nat) (h : Follows msk z s) : Follows msk z
    (State.encCheck s c) := by
  unfold State.encCheck
  repeat' first
    | with_reducible assumption | (intro _) | with_reducible apply State.ctxFault_follows (within hmsk (by decide))
    | with_reducible apply State.when_follows | split | dsimp only

theorem State.ctxStopped_follows {msk : Nat} (hmsk : msk ||| 458 = msk) {z s : State} (c : Nat) (h : Follows msk z s) : Follows msk z
    (State.ctxStopped s c) := by
  unfold State.ctxStopped
  repeat' first
    | with_reducible assumption | (intro _) | with_reducible apply State.ctxRelease_follows (within hmsk (by decide))
    | with_reducible apply State.encCheck_follows (within hmsk (by decide))
    | with_reducible apply State.ctxStart_follows (within hmsk (by decide))
    | with_reducible apply State.ctxSetLife_follows (within hmsk (by decide)) | with_reducible apply State.flag_follows
    | with_reducible apply Follows.ite | split | dsimp only

theorem State.ctxDiscard_follows {msk : Nat} (hmsk : msk ||| 330 = msk) {z s : State} (c : Nat) (h : Follows msk z s) : Follows msk z
    (State.ctxDiscard s c) := by
  unfold State.ctxDiscard
  repeat' first
    | with_reducible assumption | (intro _) | with_reducible apply State.modCtx_follows (within hmsk (by decide))
    | with_reducible apply State.flushCtx_follows (within hmsk (by decide)) | split | dsimp only

theorem State.dropEntries_follows {msk : Nat} (hmsk : msk ||| 8 = msk) {z s : State} (c : Nat) (h : Follows msk z s) : Follows msk z
    (State.dropEntries s c) := by
  unfold State.dropEntries
  repeat' first
    | with_reducible assumption | (intro _) | with_reducible apply State.modEp_follows (within hmsk (by decide))
    | with_reducible apply foldS_follows | split | dsimp only

theorem State.ctxStop_follows {msk : Nat} (hmsk : msk ||| 330 = msk) {z s : State} (c : Nat) (h : Follows msk z s) : Follows msk z
    (State.ctxStop s c) := by
  unfold State.ctxStop
  repeat' first
    | with_reducible assumption | (intro _) | with_reducible apply State.modCtx_follows (within hmsk (by decide))
    | with_reducible apply State.ctxSetLife_follows (within hmsk (by decide))
    | with_reducible apply State.dropEntries_follows (within hmsk (by decide))
    | with_reducible apply State.ctxDiscard_follows (within hmsk (by decide)) | with_reducible apply State.when_follows | split
    | dsimp only

theorem State.ctxWriteEn_follows {msk : Nat} (hmsk : msk ||| 458 = msk) {z s : State} (c : Nat) (en : Bool) (h : Follows msk z s) :
    Follows msk z (State.ctxWriteEn s c en) := by
  unfold State.ctxWriteEn
  repeat' first
    | with_reducible assumption | (intro _) | with_reducible apply State.encCheck_follows (within hmsk (by decide))
    | with_reducible apply State.ctxStart_follows (within hmsk (by decide))
    | with_reducible apply State.ctxStopped_follows (within hmsk (by decide))
    | with_reducible apply State.flushCtx_follows (within hmsk (by decide))
    | with_reducible apply State.ctxSetLife_follows (within hmsk (by decide))
    | with_reducible apply State.ctxStop_follows (within hmsk (by decide))
    | with_reducible apply State.modCtx_follows (within hmsk (by decide)) | with_reducible apply State.when_follows
    | with_reducible apply State.flag_follows | with_reducible apply Follows.ite | split | dsimp only

theorem State.freshBuckets_follows {msk : Nat} (hmsk : msk ||| 64 = msk) {z s : State} (c : Nat) (h : Follows msk z s) : Follows msk z
    (State.freshBuckets s c) := by
  unfold State.freshBuckets
  repeat' first
    | with_reducible assumption | (intro _) | with_reducible apply State.modCtx_follows (within hmsk (by decide))
    | with_reducible apply State.applyFields_follows | split | dsimp only

theorem State.resetSeq_follows {msk : Nat} (hmsk : msk ||| 64 = msk) {z s : State} (c : Nat) (h : Follows msk z s) : Follows msk z
    (State.resetSeq s c) := by
  unfold State.resetSeq
  repeat' first
    | with_reducible assumption | (intro _) | with_reducible apply State.modCtx_follows (within hmsk (by decide))
    | with_reducible apply State.wr_follows | with_reducible apply State.flag_follows | split | dsimp only

theorem State.closeRx_follows {msk : Nat} (hmsk : msk ||| 330 = msk) {z s : State} (c : Nat) (h : Follows msk z s) : Follows msk z
    (State.closeRx s c) := by
  unfold State.closeRx
  repeat' first
    | with_reducible assumption | (intro _) | with_reducible apply State.modCtx_follows (within hmsk (by decide))
    | with_reducible apply State.enqueue_follows (within hmsk (by decide)) | with_reducible apply State.when_follows
    | with_reducible apply State.inc_follows | simp only [LFollows.pair_iff]
    | with_reducible refine LFollows.of_eq ?_ (by with_reducible assumption)
    | with_reducible refine LFollows.fst (State.enqueue_follows (within hmsk (by decide)) _ _ _ _ _ ?_) | with_reducible apply Follows.ite
    | with_reducible apply LFollows.ite | split | dsimp only

theorem State.forwardCell_follows {msk : Nat} (hmsk : msk ||| 330 = msk) {z s : State} (c : Nat) (cell : Sys2Proof.Cell) (src : Option
    (Nat × Nat)) (h : Follows msk z s) : LFollows msk z (State.forwardCell s c cell src) := by
  unfold State.forwardCell
  repeat' first
    | with_reducible assumption | (intro _) | with_reducible apply State.closeRx_follows (within hmsk (by decide))
    | with_reducible apply State.modCtx_follows (within hmsk (by decide))
    | with_reducible apply State.newFrame_follows (within hmsk (by decide))
    | with_reducible apply State.enqueue_follows (within hmsk (by decide))
    | with_reducible apply State.raise_follows (within hmsk (by decide)) | with_reducible apply State.when_follows
    | with_reducible apply State.inc_follows | with_reducible apply foldS_follows | simp only [LFollows.pair_iff]
    | with_reducible refine LFollows.of_eq ?_ (by with_reducible assumption) | simp only [RFollows.pair_iff]
    | with_reducible refine RFollows.of_eq ?_ (by with_reducible assumption)
    | with_reducible refine RFollows.snd (State.newFrame_follows (within hmsk (by decide)) ?_)
    | with_reducible refine LFollows.fst (State.enqueue_follows (within hmsk (by decide)) _ _ _ _ _ ?_) | with_reducible apply Follows.ite
    | with_reducible apply LFollows.ite | split | dsimp only

theorem State.reliableEnd_follows {msk : Nat} (hmsk : msk ||| 330 = msk) {z s : State} (c : Nat) (cell : Sys2Proof.Cell) (src : Option
    (Nat × Nat)) (h : Follows msk z s) : Follows msk z (State.reliableEnd s c cell src) := by
  unfold State.reliableEnd
  repeat' first
    | with_reducible assumption | (intro _) | with_reducible apply State.forwardCell_follows (within hmsk (by decide))
    | with_reducible apply State.modCtx_follows (within hmsk (by decide)) | with_reducible apply State.inc_follows
    | with_reducible apply State.flag_follows | with_reducible apply State.when_follows | simp only [LFollows.pair_iff]
    | with_reducible refine LFollows.of_eq ?_ (by with_reducible assumption)
    | with_reducible refine LFollows.fst (State.forwardCell_follows (within hmsk (by decide)) _ _ _ ?_) | with_reducible apply Follows.ite
    | with_reducible apply LFollows.ite | split | dsimp only

theorem State.unreliableEnd_follows {msk : Nat} (hmsk : msk ||| 330 = msk) {z s : State} (c : Nat) (cell : Sys2Proof.Cell) (src : Option
    (Nat × Nat)) (h : Follows msk z s) : Follows msk z (State.unreliableEnd s c cell src) := by
  unfold State.unreliableEnd
  repeat' first
    | with_reducible assumption | (intro _) | with_reducible apply State.forwardCell_follows (within hmsk (by decide))
    | with_reducible apply State.modCtx_follows (within hmsk (by decide)) | with_reducible apply State.when_follows
    | with_reducible apply State.inc_follows | simp only [LFollows.pair_iff]
    | with_reducible refine LFollows.of_eq ?_ (by with_reducible assumption)
    | with_reducible refine LFollows.fst (State.forwardCell_follows (within hmsk (by decide)) _ _ _ ?_) | split | dsimp only

theorem State.mergeCell_follows {msk : Nat} (hmsk : msk ||| 330 = msk) {z s : State} (c : Nat) (cell : Sys2Proof.Cell) (src : Option
    (Nat × Nat)) (h : Follows msk z s) : Follows msk z (State.mergeCell s c cell src) := by
  unfold State.mergeCell
  repeat' first
    | with_reducible assumption | (intro _) | with_reducible apply State.forwardCell_follows (within hmsk (by decide))
    | with_reducible apply State.modCtx_follows (within hmsk (by decide))
    | with_reducible apply State.closeRx_follows (within hmsk (by decide)) | with_reducible apply State.inc_follows
    | with_reducible apply State.wr_follows | with_reducible apply State.flag_follows | simp only [LFollows.pair_iff]
    | with_reducible refine LFollows.of_eq ?_ (by with_reducible assumption)
    | with_reducible refine LFollows.fst (State.forwardCell_follows (within hmsk (by decide)) _ _ _ ?_) | with_reducible apply Follows.ite
    | with_reducible apply LFollows.ite | split | dsimp only

theorem State.ctxReceive_follows {msk : Nat} (hmsk : msk ||| 330 = msk) {z s : State} (port : Nat) (c : Nat) (w : Nat) (cell :
    Sys2Proof.Cell) (src : Option (Nat × Nat)) (h : Follows msk z s) : Follows msk z (State.ctxReceive s port c w cell src) := by
  unfold State.ctxReceive
  repeat' first
    | with_reducible assumption | (intro _) | with_reducible apply State.noCtx_follows (within hmsk (by decide))
    | with_reducible apply State.modCtx_follows (within hmsk (by decide))
    | with_reducible apply State.mergeCell_follows (within hmsk (by decide))
    | with_reducible apply State.forwardCell_follows (within hmsk (by decide))
    | with_reducible apply State.reliableEnd_follows (within hmsk (by decide))
    | with_reducible apply State.unreliableEnd_follows (within hmsk (by decide)) | with_reducible apply State.inc_follows
    | with_reducible apply State.when_follows | simp only [LFollows.pair_iff]
    | with_reducible refine LFollows.of_eq ?_ (by with_reducible assumption)
    | with_reducible refine LFollows.fst (State.forwardCell_follows (within hmsk (by decide)) _ _ _ ?_) | with_reducible apply Follows.ite
    | with_reducible apply LFollows.ite | split | dsimp only

theorem State.dropBase_follows {msk : Nat} (hmsk : msk ||| 330 = msk) {z s : State} (c : Nat) (h : Follows msk z s) : Follows msk z
    (State.dropBase s c) := by
  unfold State.dropBase
  repeat' first
    | with_reducible assumption | (intro _) | with_reducible apply State.closeRx_follows (within hmsk (by decide))
    | with_reducible apply State.flag_follows | split | dsimp only

theorem State.ctxEntries_follows {msk : Nat} (hmsk : msk ||| 72 = msk) {z s : State} (c : Nat) (h : Follows msk z s) : Follows msk z
    (State.ctxEntries s c) := by
  unfold State.ctxEntries
  repeat' first
    | with_reducible assumption | (intro _) | with_reducible apply State.modCtx_follows (within hmsk (by decide))
    | with_reducible apply State.queueAck_follows (within hmsk (by decide)) | with_reducible apply foldS_follows
    | with_reducible apply State.when_follows | with_reducible apply Follows.ite | split | dsimp only

theorem State.meterColour_follows {msk : Nat} (hmsk : msk ||| 512 = msk) {z s : State} (m : Nat) (t : Nat) (preYellow : Bool) (h :
    Follows msk z s) : LFollows msk z (State.meterColour s m t preYellow) := by
  unfold State.meterColour
  repeat' first
    | with_reducible assumption | (intro _) | simp only [Follows.sch_iff (within hmsk (by decide))] | simp only [LFollows.pair_iff]
    | with_reducible refine LFollows.of_eq ?_ (by with_reducible assumption) | with_reducible apply Follows.ite
    | with_reducible apply LFollows.ite | split | dsimp only

theorem State.meter_follows {msk : Nat} (hmsk : msk ||| 514 = msk) {z s : State} (m : Nat) (t : Nat) (preYellow : Bool) (h : Follows msk
    z s) :
    LFollows msk z (State.meter s m t preYellow) := by
  unfold State.meter
  have k := State.meterColour_follows (within hmsk (by decide)) m t preYellow h
  generalize s.meterColour m t preYellow = r at k ⊢
  obtain ⟨s1, col⟩ := r
  rw [LFollows.pair_iff] at k
  refine LFollows.ite h ?_
  exact State.when_follows (State.inc_follows k _ _) _ fun t ht => State.raise_follows (within hmsk (by decide)) _ _ (State.eventBit_follows (within hmsk (by decide)) _ _ ht)

theorem State.originFlow_follows {msk : Nat} (hmsk : msk ||| 514 = msk) {z s : State} (f : SvFrame) (data : List Sys2Proof.Byte) (c :
    Nat) (tc : Nat) (cm : Bool) (h : Follows msk z s) : LFollows msk z (State.originFlow s f data c tc cm) := by
  unfold State.originFlow
  repeat' first
    | with_reducible assumption | (intro _) | with_reducible apply State.meter_follows (within hmsk (by decide))
    | with_reducible apply State.when_follows | with_reducible apply State.inc_follows | simp only [LFollows.pair_iff]
    | with_reducible refine LFollows.of_eq ?_ (by with_reducible assumption)
    | with_reducible refine LFollows.fst (State.meter_follows (within hmsk (by decide)) _ _ _ ?_) | with_reducible apply Follows.ite
    | with_reducible apply LFollows.ite | split | dsimp only

theorem State.numberCells_follows {msk : Nat} {z s : State} (i : Nat) (l : List (Nat × Flow)) (h : Follows msk z s) : LFollows msk z
    (State.numberCells s i l) := by
  unfold State.numberCells
  repeat' first
    | with_reducible assumption | (intro _) | with_reducible apply State.inc_follows | with_reducible apply State.when_follows
    | simp only [LFollows.pair_iff] | with_reducible refine LFollows.of_eq ?_ (by with_reducible assumption)
    | simp only [RFollows.pair_iff] | with_reducible refine RFollows.of_eq ?_ (by with_reducible assumption)
    | with_reducible apply foldl_fst_follows | with_reducible apply foldl_snd_follows | with_reducible apply foldl_follows
    | with_reducible refine LFollows.fst (foldl_fst_follows _ _ ?_ ?_) | with_reducible refine RFollows.snd (foldl_snd_follows _ _ ?_ ?_)
    | with_reducible exact LFollows.fst (by with_reducible assumption) | with_reducible exact RFollows.snd (by with_reducible assumption)
    | with_reducible apply Follows.ite | with_reducible apply LFollows.ite | split | dsimp only

theorem State.storeFlows_follows {msk : Nat} (hmsk : msk ||| 330 = msk) {z s : State} (l : List Flow) (room : Bool)
    (h : Follows msk z s) : Follows msk z (State.storeFlows s l room) := by
  have k : RFollows msk z (l.foldl (fun (a : List (Nat × Flow) × State) f => let r := a.2.newFrame; (a.1 ++ [(r.1, f)], r.2)) ([], s)) :=
    foldl_snd_follows _ _ (fun t _ ht => RFollows.pair_iff.2 (RFollows.snd (State.newFrame_follows (within hmsk (by decide)) ht))) h
  unfold State.storeFlows
  exact foldS_follows _ _ (fun t i ht =>
    LFollows.fst (State.store_follows (within hmsk (by decide)) _ _ _ (LFollows.fst (State.numberCells_follows i _ ht)))) k.snd

theorem State.present_follows {msk : Nat} (hmsk : msk ||| 330 = msk) {z s : State} (l : List Flow) (h : Follows msk z s) : Follows msk z
    (State.present s l) := by
  unfold State.present
  repeat' first
    | with_reducible assumption | (intro _) | simp only [Follows.gird_iff (within hmsk (by decide))]
    | with_reducible apply State.storeFlows_follows (within hmsk (by decide)) | simp only [LFollows.pair_iff]
    | with_reducible refine LFollows.of_eq ?_ (by with_reducible assumption) | simp only [RFollows.pair_iff]
    | with_reducible refine RFollows.of_eq ?_ (by with_reducible assumption) | with_reducible apply foldl_fst_follows
    | with_reducible apply foldl_snd_follows | with_reducible apply foldl_follows
    | with_reducible refine LFollows.fst (foldl_fst_follows _ _ ?_ ?_) | with_reducible refine RFollows.snd (foldl_snd_follows _ _ ?_ ?_)
    | with_reducible exact LFollows.fst (by with_reducible assumption) | with_reducible exact RFollows.snd (by with_reducible assumption)
    | split | dsimp only

end Sys2Proof.Machine
end

