-- ==== Sys2Proof/Laws/FolSchedOps.lean ====
section
/-!
SUPPORT. `Follows` for the operations and meanings of `SchedOps.lean`.
-/

namespace Sys2Proof.Machine

open Host (Outcome)

set_option linter.unusedTactic false
set_option linter.unreachableTactic false
set_option linter.unusedSimpArgs false
set_option linter.unusedVariables false

theorem State.charge_follows {msk : Nat} (hmsk : msk ||| 64 = msk) {z s : State} (c : Nat) (e : Nat) (h : Follows msk z s) : Follows msk
    z (State.charge s c e) := by
  unfold State.charge
  repeat' first
    | with_reducible assumption | (intro _) | with_reducible apply State.modCtx_follows (within hmsk (by decide))
    | with_reducible apply Follows.ite | split | dsimp only

theorem State.refill_follows {msk : Nat} (hmsk : msk ||| 64 = msk) {z s : State} (c : Nat) (e : Nat) (starts : Bool) (h : Follows msk z
    s) : Follows msk z (State.refill s c e starts) := by
  unfold State.refill
  repeat' first
    | with_reducible assumption | (intro _) | with_reducible apply State.modCtx_follows (within hmsk (by decide)) | split | dsimp only

theorem State.refillCtx_follows {msk : Nat} (hmsk : msk ||| 64 = msk) {z s : State} (c : Nat) (sel : Nat → Bool) (h : Follows msk z s) :
    Follows msk z (State.refillCtx s c sel) := by
  unfold State.refillCtx
  repeat' first
    | with_reducible assumption | (intro _) | with_reducible apply State.applyFields_follows
    | with_reducible apply State.modCtx_follows (within hmsk (by decide))
    | with_reducible apply State.refill_follows (within hmsk (by decide)) | with_reducible apply State.when_follows
    | with_reducible apply State.flag_follows | with_reducible apply State.inc_follows | with_reducible apply foldS_follows
    | with_reducible apply Follows.ite | split | dsimp only

theorem State.countOut_follows {msk : Nat} {z s : State} (x : Sent) (h : Follows msk z s) : Follows msk z (State.countOut s x) := by
  unfold State.countOut
  repeat' first
    | with_reducible assumption | (intro _) | with_reducible apply State.inc_follows | with_reducible apply State.when_follows
    | with_reducible apply Follows.ite | split | dsimp only

theorem State.sendSlot_follows {msk : Nat} {z s : State} (n : Nat) (i : Nat) (c : Sys2Proof.Cell) (h : Follows msk z s) : Follows msk z
    (State.sendSlot s n i c) := by
  unfold State.sendSlot
  repeat' first
    | with_reducible assumption | (intro _) | with_reducible apply State.emit_follows | split | dsimp only

theorem State.offer_follows {msk : Nat} (hmsk : msk ||| 330 = msk) {z s : State} (n : Nat) (tc : Nat) (ecc : Sys2Proof.Tbl Nat) (fit :
    Option (Nat × Nat)) (h : Follows msk z s) : LFollows msk z (State.offer s n tc ecc fit) := by
  unfold State.offer
  repeat' first
    | with_reducible assumption | (intro _) | with_reducible apply State.takeCell_follows (within hmsk (by decide))
    | with_reducible apply State.countOut_follows | with_reducible apply State.charge_follows (within hmsk (by decide))
    | with_reducible apply State.modEp_follows (within hmsk (by decide)) | with_reducible apply State.inc_follows
    | with_reducible apply State.when_follows | simp only [LFollows.pair_iff]
    | with_reducible refine LFollows.of_eq ?_ (by with_reducible assumption)
    | with_reducible refine LFollows.fst (State.takeCell_follows (within hmsk (by decide)) _ _ _ ?_ ?_) | with_reducible apply Follows.ite
    | with_reducible apply LFollows.ite | split | dsimp only

theorem State.offerFirst_follows {msk : Nat} (hmsk : msk ||| 330 = msk) {z s : State} (n : Nat) (ecc : Sys2Proof.Tbl Nat) (fit : Nat →
    Option (Nat × Nat)) (x4 : List Nat) (h : Follows msk z s) : LFollows msk z (State.offerFirst s n ecc fit x4) := by
  induction x4 generalizing s with
  | nil =>
    unfold State.offerFirst
    repeat' first
      | with_reducible assumption | (intro _) | with_reducible refine LFollows.fst (ih ?_)
      | with_reducible apply State.offer_follows (within hmsk (by decide)) | simp only [LFollows.pair_iff]
      | with_reducible refine LFollows.of_eq ?_ (by with_reducible assumption)
      | with_reducible refine LFollows.fst (State.offer_follows (within hmsk (by decide)) _ _ _ _ ?_) | split | dsimp only
  | cons y l ih =>
    unfold State.offerFirst
    repeat' first
      | with_reducible assumption | (intro _) | with_reducible apply ih | with_reducible refine LFollows.fst (ih ?_)
      | with_reducible apply State.offer_follows (within hmsk (by decide)) | simp only [LFollows.pair_iff]
      | with_reducible refine LFollows.of_eq ?_ (by with_reducible assumption)
      | with_reducible refine LFollows.fst (State.offer_follows (within hmsk (by decide)) _ _ _ _ ?_) | split | dsimp only

end Sys2Proof.Machine
end

