-- ==== Sys2Proof/Laws/FolBridgeOps.lean ====
section
/-!
SUPPORT. `Follows` for the operations and meanings of `BridgeOps.lean`.
-/

namespace Sys2Proof.Machine

open Host (Outcome)

set_option linter.unusedTactic false
set_option linter.unreachableTactic false
set_option linter.unusedSimpArgs false
set_option linter.unusedVariables false

theorem State.modBrg_follows {msk : Nat} (hmsk : msk ||| 1024 = msk) {z s : State} (f : BridgeS → BridgeS) (h : Follows msk z s) :
    Follows msk z (State.modBrg s f) := by
  unfold State.modBrg
  repeat' first
    | with_reducible assumption | (intro _) | simp only [Follows.brg_iff (within hmsk (by decide))] | split | dsimp only

theorem State.cplUr_follows {msk : Nat} {z s : State} (reqId : Nat) (tag : Nat) (h : Follows msk z s) : Follows msk z (State.cplUr s
    reqId tag) := by
  unfold State.cplUr
  repeat' first
    | with_reducible assumption | (intro _) | with_reducible apply State.emit_follows | with_reducible apply State.inc_follows | split
    | dsimp only

theorem State.cplCa_follows {msk : Nat} {z s : State} (reqId : Nat) (tag : Nat) (h : Follows msk z s) : Follows msk z (State.cplCa s
    reqId tag) := by
  unfold State.cplCa
  repeat' first
    | with_reducible assumption | (intro _) | with_reducible apply State.emit_follows | with_reducible apply State.inc_follows | split
    | dsimp only

theorem State.aerError_follows {msk : Nat} (hmsk : msk ||| 1026 = msk) {z s : State} (fn : Nat) (bit : Nat) (hdr : List Nat) (h :
    Follows msk z s) : Follows msk z (State.aerError s fn bit hdr) := by
  unfold State.aerError
  repeat' first
    | with_reducible assumption | (intro _) | with_reducible apply State.modBrg_follows (within hmsk (by decide))
    | with_reducible apply State.raise_follows (within hmsk (by decide)) | with_reducible apply State.emit_follows
    | with_reducible apply Follows.ite | split | dsimp only

theorem State.cplRead_follows {msk : Nat} {z s : State} (reqId : Nat) (tag : Nat) (l : List (Nat × Nat)) (h : Follows msk z s) : Follows
    msk z (State.cplRead s reqId tag l) := by
  unfold State.cplRead
  repeat' first
    | with_reducible assumption | (intro _) | with_reducible apply State.emit_follows | with_reducible apply foldS_follows
    | with_reducible apply Follows.ite | split | dsimp only

theorem State.vdpDownTlp_follows {msk : Nat} (hmsk : msk ||| 2 = msk) {z s : State} (b : List Sys2Proof.Byte) (h : Follows msk z s) :
    Follows msk z (State.vdpDownTlp s b) := by
  unfold State.vdpDownTlp
  repeat' first
    | with_reducible assumption | (intro _) | with_reducible apply State.cplUr_follows
    | with_reducible apply State.raise_follows (within hmsk (by decide)) | with_reducible apply State.when_follows
    | with_reducible apply State.inc_follows | with_reducible apply Follows.ite | split | dsimp only

theorem State.npNote_follows {msk : Nat} (hmsk : msk ||| 1024 = msk) {z s : State} (c : Nat) (b : List Sys2Proof.Byte) (h : Follows msk
    z s) : Follows msk z (State.npNote s c b) := by
  unfold State.npNote
  repeat' first
    | with_reducible assumption | (intro _) | with_reducible apply State.modBrg_follows (within hmsk (by decide))
    | with_reducible apply Follows.ite | split | dsimp only

theorem State.npFail_follows {msk : Nat} (hmsk : msk ||| 1024 = msk) {z s : State} (c : Nat) (h : Follows msk z s) : Follows msk z
    (State.npFail s c) := by
  unfold State.npFail
  repeat' first
    | with_reducible assumption | (intro _) | with_reducible apply State.modBrg_follows (within hmsk (by decide))
    | with_reducible apply State.cplUr_follows | with_reducible apply foldS_follows | split | dsimp only

theorem State.showErrf_follows {msk : Nat} {z s : State} (h : Follows msk z s) : Follows msk z (State.showErrf s) := by
  unfold State.showErrf
  repeat' first
    | with_reducible assumption | (intro _) | with_reducible apply State.wr_follows | with_reducible apply State.setWord_follows | split
    | dsimp only

theorem State.logFail_follows {msk : Nat} (hmsk : msk ||| 1026 = msk) {z s : State} (b : FarBurst) (addr : Nat) (cause : Nat) (time :
    Nat) (h : Follows msk z s) : Follows msk z (State.logFail s b addr cause time) := by
  unfold State.logFail
  repeat' first
    | with_reducible assumption | (intro _) | with_reducible apply State.raise_follows (within hmsk (by decide))
    | with_reducible apply State.showErrf_follows | with_reducible apply State.modBrg_follows (within hmsk (by decide))
    | with_reducible apply State.aerError_follows (within hmsk (by decide)) | with_reducible apply State.incSat_follows
    | with_reducible apply State.when_follows | with_reducible apply Follows.ite | split | dsimp only

theorem State.gpioOut_follows {msk : Nat} {z s : State} (h : Follows msk z s) : Follows msk z (State.gpioOut s) := by
  unfold State.gpioOut
  repeat' first
    | with_reducible assumption | (intro _) | with_reducible apply State.when_follows | with_reducible apply State.emit_follows | split
    | dsimp only

theorem State.ghosts_follows {msk : Nat} (hmsk : msk ||| 2 = msk) {z s : State} (w : Nat) (l : List (Nat × Nat)) (h : Follows msk z s) :
    Follows msk z (State.ghosts s w l) := by
  unfold State.ghosts
  repeat' first
    | with_reducible assumption | (intro _) | with_reducible apply State.raise_follows (within hmsk (by decide))
    | with_reducible apply State.wr_follows | with_reducible apply State.inc_follows | split | dsimp only

theorem State.ghost_follows {msk : Nat} (hmsk : msk ||| 1026 = msk) {z s : State} (w : Nat) (h : Follows msk z s) : Follows msk z
    (State.ghost s w) := by
  unfold State.ghost
  repeat' first
    | with_reducible assumption | (intro _) | with_reducible apply State.ghosts_follows (within hmsk (by decide))
    | with_reducible apply State.modBrg_follows (within hmsk (by decide)) | split | dsimp only

theorem State.ghostWrite_follows {msk : Nat} (hmsk : msk ||| 1026 = msk) {z s : State} (w : Nat) (h : Follows msk z s) : Follows msk z
    (State.ghostWrite s w) := by
  unfold State.ghostWrite
  repeat' first
    | with_reducible assumption | (intro _) | with_reducible apply State.modBrg_follows (within hmsk (by decide))
    | with_reducible apply State.ghost_follows (within hmsk (by decide)) | with_reducible apply Follows.ite | split | dsimp only

end Sys2Proof.Machine
end

