-- ==== Sys2Proof/Laws/FolIngressOps.lean ====
section
/-!
SUPPORT. `Follows` for the operations and meanings of `IngressOps.lean`.
-/

namespace Sys2Proof.Machine

open Host (Outcome)

set_option linter.unusedTactic false
set_option linter.unreachableTactic false
set_option linter.unusedSimpArgs false
set_option linter.unusedVariables false

theorem State.modFac_follows {msk : Nat} (hmsk : msk ||| 4096 = msk) {z s : State} (f : FacetS → FacetS) (h : Follows msk z s) : Follows
    msk z (State.modFac s f) := by
  unfold State.modFac
  repeat' first
    | with_reducible assumption | (intro _) | simp only [Follows.fac_iff (within hmsk (by decide))] | split | dsimp only

theorem State.sieveOob_follows {msk : Nat} (hmsk : msk ||| 2 = msk) {z s : State} (h : Follows msk z s) : Follows msk z (State.sieveOob
    s) := by
  unfold State.sieveOob
  repeat' first
    | with_reducible assumption | (intro _) | with_reducible apply State.raise_follows (within hmsk (by decide))
    | with_reducible apply State.inc_follows | split | dsimp only

theorem State.copyLost_follows {msk : Nat} (hmsk : msk ||| 2 = msk) {z s : State} (h : Follows msk z s) : Follows msk z (State.copyLost
    s) := by
  unfold State.copyLost
  repeat' first
    | with_reducible assumption | (intro _) | with_reducible apply State.raise_follows (within hmsk (by decide))
    | with_reducible apply State.inc_follows | split | dsimp only

theorem State.noStream_follows {msk : Nat} (hmsk : msk ||| 2 = msk) {z s : State} (h : Follows msk z s) : Follows msk z (State.noStream
    s) := by
  unfold State.noStream
  repeat' first
    | with_reducible assumption | (intro _) | with_reducible apply State.raise_follows (within hmsk (by decide))
    | with_reducible apply State.inc_follows | split | dsimp only

theorem State.unrouted_follows {msk : Nat} (hmsk : msk ||| 2 = msk) {z s : State} (f : SvFrame) (h : Follows msk z s) : Follows msk z
    (State.unrouted s f) := by
  unfold State.unrouted
  repeat' first
    | with_reducible assumption | (intro _) | with_reducible apply State.noStream_follows (within hmsk (by decide))
    | with_reducible apply State.inc_follows | with_reducible apply Follows.ite | split | dsimp only

theorem State.deliver_follows {msk : Nat} (hmsk : msk ||| 330 = msk) {z s : State} (f : SvFrame) (l : List Flow) (h : Follows msk z s) :
    Follows msk z (State.deliver s f l) := by
  unfold State.deliver
  repeat' first
    | with_reducible assumption | (intro _) | with_reducible apply State.present_follows (within hmsk (by decide))
    | with_reducible apply State.storeFlows_follows (within hmsk (by decide)) | with_reducible apply Follows.ite | split | dsimp only

theorem State.holdFrame_follows {msk : Nat} (hmsk : msk ||| 4096 = msk) {z s : State} (f : SvFrame) (h : Follows msk z s) : Follows msk
    z (State.holdFrame s f) := by
  unfold State.holdFrame
  repeat' first
    | with_reducible assumption | (intro _) | with_reducible apply State.modFac_follows (within hmsk (by decide)) | split | dsimp only

theorem State.toContext_follows {msk : Nat} (hmsk : msk ||| 4938 = msk) {z s : State} (f : SvFrame) (h : Follows msk z s) : Follows msk
    z (State.toContext s f) := by
  unfold State.toContext
  repeat' first
    | with_reducible assumption | (intro _) | with_reducible apply State.unrouted_follows (within hmsk (by decide))
    | with_reducible apply State.originFlow_follows (within hmsk (by decide))
    | with_reducible apply State.deliver_follows (within hmsk (by decide))
    | with_reducible apply State.holdFrame_follows (within hmsk (by decide)) | simp only [LFollows.pair_iff]
    | with_reducible refine LFollows.of_eq ?_ (by with_reducible assumption)
    | with_reducible refine LFollows.fst (State.originFlow_follows (within hmsk (by decide)) _ _ _ _ _ ?_)
    | with_reducible apply Follows.ite | with_reducible apply LFollows.ite | split | dsimp only

theorem State.ingress_follows {msk : Nat} (hmsk : msk ||| 4938 = msk) {z s : State} (f : SvFrame) (h : Follows msk z s) : Follows msk z
    (State.ingress s f) := by
  unfold State.ingress
  repeat' first
    | with_reducible assumption | (intro _) | with_reducible apply State.holdFrame_follows (within hmsk (by decide))
    | with_reducible apply State.modFac_follows (within hmsk (by decide))
    | with_reducible apply State.toContext_follows (within hmsk (by decide)) | with_reducible apply Follows.ite | split | dsimp only

theorem State.copyFlow_follows {msk : Nat} (hmsk : msk ||| 514 = msk) {z : State} (f : SvFrame) (data : List Sys2Proof.Byte) (cm : Bool)
    (a : State × List Flow) (c : Nat) (h : Follows msk z a.1) : LFollows msk z (State.copyFlow f data cm a c) := by
  unfold State.copyFlow
  repeat' first
    | with_reducible assumption | (intro _) | with_reducible apply State.copyLost_follows (within hmsk (by decide))
    | with_reducible apply State.originFlow_follows (within hmsk (by decide)) | simp only [LFollows.pair_iff]
    | with_reducible refine LFollows.of_eq ?_ (by with_reducible assumption)
    | with_reducible refine LFollows.fst (State.originFlow_follows (within hmsk (by decide)) _ _ _ _ _ ?_)
    | with_reducible apply Follows.ite | with_reducible apply LFollows.ite | split | dsimp only

theorem State.ownFlow_follows {msk : Nat} (hmsk : msk ||| 514 = msk) {z s : State} (r : SvRun) (h : Follows msk z s) : LFollows msk z
    (State.ownFlow s r) := by
  unfold State.ownFlow
  repeat' first
    | with_reducible assumption | (intro _) | with_reducible apply State.unrouted_follows (within hmsk (by decide))
    | with_reducible apply State.originFlow_follows (within hmsk (by decide)) | simp only [LFollows.pair_iff]
    | with_reducible refine LFollows.of_eq ?_ (by with_reducible assumption)
    | with_reducible refine LFollows.fst (State.originFlow_follows (within hmsk (by decide)) _ _ _ _ _ ?_)
    | with_reducible apply Follows.ite | with_reducible apply LFollows.ite | split | dsimp only

theorem State.svApply_follows {msk : Nat} (hmsk : msk ||| 842 = msk) {z s : State} (r : SvRun) (h : Follows msk z s) : OFollows msk z
    (State.svApply s r) := by
  unfold State.svApply
  repeat' first
    | with_reducible assumption | (intro _) | with_reducible apply State.copyFlow_follows (within hmsk (by decide))
    | with_reducible apply State.ownFlow_follows (within hmsk (by decide))
    | with_reducible apply State.deliver_follows (within hmsk (by decide)) | simp only [LFollows.pair_iff]
    | with_reducible refine LFollows.of_eq ?_ (by with_reducible assumption) | simp only [RFollows.pair_iff]
    | with_reducible refine RFollows.of_eq ?_ (by with_reducible assumption)
    | with_reducible refine OFollows.get ?_ (by with_reducible assumption) | with_reducible apply OFollows.some
    | with_reducible apply OFollows.none | with_reducible apply foldl_fst_follows | with_reducible apply foldl_snd_follows
    | with_reducible apply foldl_follows | with_reducible refine LFollows.fst (foldl_fst_follows _ _ ?_ ?_)
    | with_reducible refine RFollows.snd (foldl_snd_follows _ _ ?_ ?_) | with_reducible exact LFollows.fst (by with_reducible assumption)
    | with_reducible exact RFollows.snd (by with_reducible assumption)
    | with_reducible refine LFollows.fst (State.copyFlow_follows (within hmsk (by decide)) _ _ _ _ _ ?_)
    | with_reducible refine LFollows.fst (State.ownFlow_follows (within hmsk (by decide)) _ ?_) | with_reducible apply Follows.ite
    | with_reducible apply LFollows.ite | split | dsimp only

theorem State.svRelease_follows {msk : Nat} (hmsk : msk ||| 4938 = msk) {z s : State} (point : Nat) (x2 : List Nat) (h : Follows msk z
    s) : Follows msk z (State.svRelease s point x2) := by
  induction x2 generalizing s with
  | nil =>
    unfold State.svRelease
    repeat' first
      | with_reducible assumption | (intro _)
      | with_reducible apply State.modFac_follows (within hmsk (by decide))
      | with_reducible apply State.svApply_follows (within hmsk (by decide))
      | with_reducible refine OFollows.get ?_ (by with_reducible assumption) | with_reducible apply Follows.ite | split | dsimp only
  | cons y l ih =>
    unfold State.svRelease
    repeat' first
      | with_reducible assumption | (intro _) | with_reducible apply ih
      | with_reducible apply State.modFac_follows (within hmsk (by decide))
      | with_reducible apply State.svApply_follows (within hmsk (by decide))
      | with_reducible refine OFollows.get ?_ (by with_reducible assumption) | with_reducible apply Follows.ite | split | dsimp only

theorem State.retryHeld_follows {msk : Nat} (hmsk : msk ||| 4938 = msk) {z s : State} (h : Follows msk z s) : Follows msk z
    (State.retryHeld s) := by
  unfold State.retryHeld
  repeat' first
    | with_reducible assumption | (intro _) | with_reducible apply State.svRelease_follows (within hmsk (by decide))
    | with_reducible apply State.ingress_follows (within hmsk (by decide))
    | with_reducible apply State.modFac_follows (within hmsk (by decide)) | with_reducible apply foldS_follows | split | dsimp only

end Sys2Proof.Machine
end

