-- ==== Sys2Proof/Laws/FolGirdle.lean ====
section
/-!
SUPPORT. `Follows` for the operations and meanings of `Girdle.lean`.
-/

namespace Sys2Proof.Machine

open Host (Outcome)

set_option linter.unusedTactic false
set_option linter.unreachableTactic false
set_option linter.unusedSimpArgs false
set_option linter.unusedVariables false

theorem execFramePresented_follows {msk : Nat} (hmsk : msk ||| 5962 = msk) {z s : State} (point : Nat) (sub : Nat) (firstNs : Nat)
    (stamp : Nat) (data : List Sys2Proof.Byte) (h : Follows msk z s) : ∃ nx, execFramePresented point sub firstNs stamp data s = .next
    nx ∧ Follows msk z nx := by
  unfold execFramePresented; refine done_follows ?_
  repeat' first
    | with_reducible assumption | (intro _) | with_reducible apply State.ingress_follows (within hmsk (by decide))
    | with_reducible apply State.npNote_follows (within hmsk (by decide))
    | with_reducible apply State.vdpDownTlp_follows (within hmsk (by decide)) | with_reducible apply State.when_follows
    | with_reducible apply Follows.ite | split | dsimp only

theorem execIncTailFallback_follows {msk : Nat} (hmsk : msk ||| 256 = msk) {z s : State} (q : Nat) (c : Nat) (id : Nat) (h : Follows msk
    z s) : ∃ nx, execIncTailFallback q c id s = .next nx ∧ Follows msk z nx := by
  unfold execIncTailFallback; refine done_follows ?_
  repeat' first
    | with_reducible assumption | (intro _) | with_reducible apply State.modFrame_follows (within hmsk (by decide))
    | with_reducible apply State.when_follows | split | dsimp only

theorem execScrubVisit_follows {msk : Nat} (hmsk : msk ||| 330 = msk) {z s : State} (q : Nat) (c : Nat) (id : Nat) (i : Nat) (h :
    Follows msk z s) : ∃ nx, execScrubVisit q c id i s = .next nx ∧ Follows msk z nx := by
  unfold execScrubVisit; refine done_follows ?_
  repeat' first
    | with_reducible assumption | (intro _) | with_reducible apply State.ageFrame_follows (within hmsk (by decide))
    | with_reducible apply State.when_follows | split | dsimp only

theorem execAgeHoldEnd_follows {msk : Nat} {z s : State} (h : Follows msk z s) : ∃ nx, execAgeHoldEnd s = .next nx ∧ Follows msk z nx :=
    by
  unfold execAgeHoldEnd; refine done_follows ?_
  repeat' first
    | with_reducible assumption | (intro _) | with_reducible apply State.flag_follows | split | dsimp only

theorem State.flushQueue_follows {msk : Nat} (hmsk : msk ||| 328 = msk) {z s : State} (q : Nat) (h : Follows msk z s) : Follows msk z
    (State.flushQueue s q) := by
  unfold State.flushQueue
  repeat' first
    | with_reducible assumption | (intro _) | with_reducible apply State.release_follows (within hmsk (by decide))
    | with_reducible apply State.showKept_follows | with_reducible apply State.modCtx_follows (within hmsk (by decide))
    | with_reducible apply State.relinkDue_follows (within hmsk (by decide))
    | with_reducible apply State.setQueue_follows (within hmsk (by decide)) | with_reducible apply foldS_follows | split | dsimp only

theorem State.flushReplay_follows {msk : Nat} (hmsk : msk ||| 328 = msk) {z s : State} (c : Nat) (h : Follows msk z s) : Follows msk z
    (State.flushReplay s c) := by
  unfold State.flushReplay
  repeat' first
    | with_reducible assumption | (intro _) | with_reducible apply State.release_follows (within hmsk (by decide))
    | with_reducible apply State.showKept_follows | with_reducible apply State.modCtx_follows (within hmsk (by decide))
    | with_reducible apply foldS_follows | split | dsimp only

theorem execDescriptorEccFlush_follows {msk : Nat} (hmsk : msk ||| 330 = msk) {z s : State} (replay : Bool) (i : Nat) (h : Follows msk z
    s) : ∃ nx, execDescriptorEccFlush replay i s = .next nx ∧ Follows msk z nx := by
  unfold execDescriptorEccFlush; refine done_follows ?_
  repeat' first
    | with_reducible assumption | (intro _) | with_reducible apply State.raise_follows (within hmsk (by decide))
    | with_reducible apply State.flushReplay_follows (within hmsk (by decide))
    | with_reducible apply State.flushQueue_follows (within hmsk (by decide)) | with_reducible apply State.when_follows
    | with_reducible apply State.inc_follows | with_reducible apply Follows.ite | split | dsimp only

theorem execPerfUpdate_follows {msk : Nat} {z s : State} (now : Nat) (h : Follows msk z s) : ∃ nx, execPerfUpdate now s = .next nx ∧
    Follows msk z nx := by
  unfold execPerfUpdate; refine done_follows ?_
  repeat' first
    | with_reducible assumption | (intro _) | with_reducible apply State.when_follows | with_reducible apply State.wr_follows | split
    | dsimp only

theorem execPerfRead_follows {msk : Nat} (hmsk : msk ||| 524315 = msk) {z s : State} (p : Sys2Proof.Path) (h : Follows msk z s) : ∃ nx,
    execPerfRead p s = .next nx ∧ Follows msk z nx := by
  unfold execPerfRead; refine done_follows ?_
  repeat' first
    | with_reducible assumption | (intro _) | with_reducible apply State.readOwn_follows (within hmsk (by decide))
    | with_reducible apply State.wr_follows | with_reducible apply Follows.ite | split | dsimp only

end Sys2Proof.Machine
end

