-- ==== Sys2Proof/Laws/FolFacetOps.lean ====
section
/-!
SUPPORT. `Follows` for the operations and meanings of `FacetOps.lean`.
-/

namespace Sys2Proof.Machine

open Host (Outcome)

set_option linter.unusedTactic false
set_option linter.unreachableTactic false
set_option linter.unusedSimpArgs false
set_option linter.unusedVariables false

theorem State.modEng_follows {msk : Nat} (hmsk : msk ||| 4096 = msk) {z s : State} (e : Nat) (f : EngS → EngS) (h : Follows msk z s) :
    Follows msk z (State.modEng s e f) := by
  unfold State.modEng
  repeat' first
    | with_reducible assumption | (intro _) | with_reducible apply State.modFac_follows (within hmsk (by decide)) | split | dsimp only

theorem State.setEng_follows {msk : Nat} {z s : State} (e : Nat) (v : Nat) (h : Follows msk z s) : Follows msk z (State.setEng s e v) :=
    by
  unfold State.setEng
  repeat' first
    | with_reducible assumption | (intro _) | with_reducible apply State.setBit_follows | with_reducible apply State.wr_follows | split
    | dsimp only

theorem State.engStart_follows {msk : Nat} {z s : State} (e : Nat) (h : Follows msk z s) : Follows msk z (State.engStart s e) := by
  unfold State.engStart
  repeat' first
    | with_reducible assumption | (intro _) | with_reducible apply State.setEng_follows | with_reducible apply State.wr_follows | split
    | dsimp only

theorem State.setDegraded_follows {msk : Nat} {z s : State} (e : Nat) (b : Bool) (h : Follows msk z s) : Follows msk z
    (State.setDegraded s e b) := by
  unfold State.setDegraded
  repeat' first
    | with_reducible assumption | (intro _) | with_reducible apply State.setBit_follows | with_reducible apply State.flag_follows | split
    | dsimp only

theorem State.setReady_follows {msk : Nat} (hmsk : msk ||| 2 = msk) {z s : State} (e : Nat) (b : Bool) (h : Follows msk z s) : Follows
    msk z (State.setReady s e b) := by
  unfold State.setReady
  repeat' first
    | with_reducible assumption | (intro _) | with_reducible apply State.raise_follows (within hmsk (by decide))
    | with_reducible apply State.setBit_follows | with_reducible apply State.flag_follows | with_reducible apply State.when_follows
    | split | dsimp only

theorem State.writeOut_follows {msk : Nat} (hmsk : msk ||| 4098 = msk) {z s : State} (e : Nat) (h : Follows msk z s) : Follows msk z
    (State.writeOut s e) := by
  unfold State.writeOut
  repeat' first
    | with_reducible assumption | (intro _) | with_reducible apply State.setReady_follows (within hmsk (by decide))
    | with_reducible apply State.modEng_follows (within hmsk (by decide)) | with_reducible apply foldS_follows
    | with_reducible apply State.wr_follows | with_reducible apply Follows.ite | split | dsimp only

theorem State.answer_follows {msk : Nat} (hmsk : msk ||| 4096 = msk) {z s : State} (e : Nat) (status : Nat) (data : List Nat) (h :
    Follows msk z s) : Follows msk z (State.answer s e status data) := by
  unfold State.answer
  repeat' first
    | with_reducible assumption | (intro _) | with_reducible apply State.modEng_follows (within hmsk (by decide)) | split | dsimp only

theorem State.notice_follows {msk : Nat} (hmsk : msk ||| 4098 = msk) {z s : State} (e : Nat) (h : Follows msk z s) : Follows msk z
    (State.notice s e) := by
  unfold State.notice
  repeat' first
    | with_reducible assumption | (intro _) | with_reducible apply State.writeOut_follows (within hmsk (by decide))
    | with_reducible apply State.modEng_follows (within hmsk (by decide)) | split | dsimp only

theorem State.clearMailbox_follows {msk : Nat} (hmsk : msk ||| 4098 = msk) {z s : State} (e : Nat) (h : Follows msk z s) : Follows msk z
    (State.clearMailbox s e) := by
  unfold State.clearMailbox
  repeat' first
    | with_reducible assumption | (intro _) | with_reducible apply State.writeOut_follows (within hmsk (by decide))
    | with_reducible apply State.modEng_follows (within hmsk (by decide)) | with_reducible apply State.flag_follows | split | dsimp only

theorem State.ring_follows {msk : Nat} (hmsk : msk ||| 4098 = msk) {z s : State} (e : Nat) (h : Follows msk z s) : Follows msk z
    (State.ring s e) := by
  unfold State.ring
  repeat' first
    | with_reducible assumption | (intro _) | with_reducible apply State.writeOut_follows (within hmsk (by decide))
    | with_reducible apply State.modEng_follows (within hmsk (by decide)) | with_reducible apply State.flag_follows
    | with_reducible apply Follows.ite | split | dsimp only

theorem State.engRecord_follows {msk : Nat} (hmsk : msk ||| 2 = msk) {z s : State} (e : Nat) (cause : Nat) (h : Follows msk z s) :
    Follows msk z (State.engRecord s e cause) := by
  unfold State.engRecord
  repeat' first
    | with_reducible assumption | (intro _) | with_reducible apply State.sysRecord_follows (within hmsk (by decide)) | split | dsimp only

theorem State.engHalt_follows {msk : Nat} (hmsk : msk ||| 2 = msk) {z s : State} (e : Nat) (cause : Nat) (h : Follows msk z s) : Follows
    msk z (State.engHalt s e cause) := by
  unfold State.engHalt
  repeat' first
    | with_reducible assumption | (intro _) | with_reducible apply State.engRecord_follows (within hmsk (by decide))
    | with_reducible apply State.raise_follows (within hmsk (by decide)) | with_reducible apply State.setEng_follows
    | with_reducible apply State.wr_follows | split | dsimp only

theorem State.engCrash_follows {msk : Nat} (hmsk : msk ||| 4107 = msk) {z s : State} (e : Nat) (cause : Nat) (h : Follows msk z s) :
    Follows msk z (State.engCrash s e cause) := by
  unfold State.engCrash
  repeat' first
    | with_reducible assumption | (intro _) | with_reducible apply State.trainFail_follows (within hmsk (by decide))
    | with_reducible apply State.setDegraded_follows | with_reducible apply State.clearMailbox_follows (within hmsk (by decide))
    | with_reducible apply State.setEng_follows | with_reducible apply State.engRecord_follows (within hmsk (by decide))
    | with_reducible apply State.raise_follows (within hmsk (by decide))
    | with_reducible apply State.modEng_follows (within hmsk (by decide))
    | with_reducible apply State.engHalt_follows (within hmsk (by decide)) | with_reducible apply State.when_follows
    | with_reducible apply State.wr_follows | with_reducible apply State.incSat_follows | with_reducible apply Follows.ite | split
    | dsimp only

end Sys2Proof.Machine
end

