-- ==== Sys2Proof/Laws/FolFacets.lean ====
section
/-!
SUPPORT. `Follows` for the operations and meanings of `Facets.lean`.
-/

namespace Sys2Proof.Machine

open Host (Outcome)

set_option linter.unusedTactic false
set_option linter.unreachableTactic false
set_option linter.unusedSimpArgs false
set_option linter.unusedVariables false

theorem execEngineCrash_follows {msk : Nat} (hmsk : msk ||| 4107 = msk) {z s : State} (e : Nat) (cause : Nat) (h : Follows msk z s) : ∃
    nx, execEngineCrash e cause s = .next nx ∧ Follows msk z nx := by
  unfold execEngineCrash; refine done_follows ?_
  repeat' first
    | with_reducible assumption | (intro _) | with_reducible apply State.engCrash_follows (within hmsk (by decide))
    | with_reducible apply State.when_follows | split | dsimp only

theorem execEngineWatchdog_follows {msk : Nat} (hmsk : msk ||| 4107 = msk) {z s : State} (e : Nat) (h : Follows msk z s) : ∃ nx,
    execEngineWatchdog e s = .next nx ∧ Follows msk z nx := by
  unfold execEngineWatchdog; refine done_follows ?_
  repeat' first
    | with_reducible assumption | (intro _) | with_reducible apply State.engCrash_follows (within hmsk (by decide))
    | with_reducible apply State.when_follows | split | dsimp only

theorem execEngineReloaded_follows {msk : Nat} (hmsk : msk ||| 4098 = msk) {z s : State} (e : Nat) (read : Bool) (same : Bool) (h :
    Follows msk z s) : ∃ nx, execEngineReloaded e read same s = .next nx ∧ Follows msk z nx := by
  unfold execEngineReloaded; refine done_follows ?_
  repeat' first
    | with_reducible assumption | (intro _) | with_reducible apply State.notice_follows (within hmsk (by decide))
    | with_reducible apply State.engStart_follows | with_reducible apply State.engHalt_follows (within hmsk (by decide))
    | with_reducible apply State.when_follows | with_reducible apply Follows.ite | split | dsimp only

theorem execEngineServicesReady_follows {msk : Nat} (hmsk : msk ||| 2 = msk) {z s : State} (e : Nat) (h : Follows msk z s) : ∃ nx,
    execEngineServicesReady e s = .next nx ∧ Follows msk z nx := by
  unfold execEngineServicesReady; refine done_follows ?_
  repeat' first
    | with_reducible assumption | (intro _) | with_reducible apply State.raise_follows (within hmsk (by decide))
    | with_reducible apply State.setDegraded_follows | with_reducible apply State.when_follows | split | dsimp only

theorem cmdEngRestart_follows {msk : Nat} (hmsk : msk ||| 4107 = msk) {z t : State} (e : Nat) (h : Follows msk z t) : Follows msk z
    ((cmdEngRestart e).act t) := by
  unfold cmdEngRestart; dsimp only
  repeat' first
    | with_reducible assumption | (intro _) | with_reducible apply State.engCrash_follows (within hmsk (by decide))
    | with_reducible apply State.when_follows | with_reducible apply Follows.ite | split | dsimp only

theorem execEngRestart_follows {msk : Nat} (hmsk : msk ||| 528411 = msk) {z s : State} (p : Sys2Proof.Path) (e : Nat) (h : Follows msk z
    s) : ∃ nx, execEngRestart p e s = .next nx ∧ Follows msk z nx := by
  unfold execEngRestart; refine done_follows ?_
  repeat' first
    | with_reducible assumption | (intro _) | with_reducible apply State.runCmd_follows (within hmsk (by decide))
    | with_reducible apply cmdEngRestart_follows (within hmsk (by decide)) | with_reducible apply State.when_follows | split | dsimp only

theorem cmdMbxRing_follows {msk : Nat} (hmsk : msk ||| 4098 = msk) {z t : State} (e : Nat) (h : Follows msk z t) : Follows msk z
    ((cmdMbxRing e).act t) := by
  unfold cmdMbxRing; dsimp only
  repeat' first
    | with_reducible assumption | (intro _) | with_reducible apply State.ring_follows (within hmsk (by decide))
    | with_reducible apply Follows.ite | split | dsimp only

theorem execMbxRing_follows {msk : Nat} (hmsk : msk ||| 528411 = msk) {z s : State} (p : Sys2Proof.Path) (e : Nat) (h : Follows msk z s)
    : ∃ nx, execMbxRing p e s = .next nx ∧ Follows msk z nx := by
  unfold execMbxRing; refine done_follows ?_
  repeat' first
    | with_reducible assumption | (intro _) | with_reducible apply State.runCmd_follows (within hmsk (by decide))
    | with_reducible apply cmdMbxRing_follows (within hmsk (by decide)) | with_reducible apply State.when_follows | split | dsimp only

theorem execMailboxTake_follows {msk : Nat} (hmsk : msk ||| 4096 = msk) {z s : State} (e : Nat) (h : Follows msk z s) : ∃ nx,
    execMailboxTake e s = .next nx ∧ Follows msk z nx := by
  unfold execMailboxTake; refine done_follows ?_
  repeat' first
    | with_reducible assumption | (intro _) | with_reducible apply State.modEng_follows (within hmsk (by decide))
    | with_reducible apply State.when_follows | with_reducible apply State.flag_follows | split | dsimp only

theorem execMailboxResponse_follows {msk : Nat} (hmsk : msk ||| 4098 = msk) {z s : State} (e : Nat) (h : Follows msk z s) : ∃ nx,
    execMailboxResponse e s = .next nx ∧ Follows msk z nx := by
  unfold execMailboxResponse; refine done_follows ?_
  repeat' first
    | with_reducible assumption | (intro _) | with_reducible apply State.writeOut_follows (within hmsk (by decide))
    | with_reducible apply State.when_follows | split | dsimp only

theorem cmdMbxAck_follows {msk : Nat} (hmsk : msk ||| 4098 = msk) {z t : State} (e : Nat) (h : Follows msk z t) : Follows msk z
    ((cmdMbxAck e).act t) := by
  unfold cmdMbxAck; dsimp only
  repeat' first
    | with_reducible assumption | (intro _) | with_reducible apply State.writeOut_follows (within hmsk (by decide))
    | with_reducible apply State.setReady_follows (within hmsk (by decide)) | with_reducible apply State.when_follows | split | dsimp only

theorem execMbxAck_follows {msk : Nat} (hmsk : msk ||| 528411 = msk) {z s : State} (p : Sys2Proof.Path) (e : Nat) (h : Follows msk z s)
    : ∃ nx, execMbxAck p e s = .next nx ∧ Follows msk z nx := by
  unfold execMbxAck; refine done_follows ?_
  repeat' first
    | with_reducible assumption | (intro _) | with_reducible apply State.runCmd_follows (within hmsk (by decide))
    | with_reducible apply cmdMbxAck_follows (within hmsk (by decide)) | with_reducible apply State.when_follows | split | dsimp only

theorem execMbxPing_follows {msk : Nat} (hmsk : msk ||| 4096 = msk) {z s : State} (e : Nat) (h : Follows msk z s) : ∃ nx, execMbxPing e
    s = .next nx ∧ Follows msk z nx := by
  unfold execMbxPing; refine done_follows ?_
  repeat' first
    | with_reducible assumption | (intro _) | with_reducible apply State.answer_follows (within hmsk (by decide))
    | with_reducible apply Follows.ite | split | dsimp only

theorem execMbxVersion_follows {msk : Nat} (hmsk : msk ||| 4096 = msk) {z s : State} (e : Nat) (h : Follows msk z s) : ∃ nx,
    execMbxVersion e s = .next nx ∧ Follows msk z nx := by
  unfold execMbxVersion; refine done_follows ?_
  repeat' first
    | with_reducible assumption | (intro _) | with_reducible apply State.answer_follows (within hmsk (by decide))
    | with_reducible apply Follows.ite | split | dsimp only

theorem execMbxLoad_follows {msk : Nat} (hmsk : msk ||| 4096 = msk) {z s : State} (e : Nat) (m : Nat × Nat) (h : Follows msk z s) : ∃ nx,
    execMbxLoad e m s = .next nx ∧ Follows msk z nx := by
  unfold execMbxLoad; refine done_follows ?_
  repeat' first
    | with_reducible assumption | (intro _) | with_reducible apply State.answer_follows (within hmsk (by decide))
    | with_reducible apply State.wr_follows | with_reducible apply Follows.ite | split | dsimp only

theorem execUnknownMailboxCommand_follows {msk : Nat} (hmsk : msk ||| 4096 = msk) {z s : State} (e : Nat) (h : Follows msk z s) : ∃ nx,
    execUnknownMailboxCommand e s = .next nx ∧ Follows msk z nx := by
  unfold execUnknownMailboxCommand; refine done_follows ?_
  repeat' first
    | with_reducible assumption | (intro _) | with_reducible apply State.answer_follows (within hmsk (by decide))
    | with_reducible apply State.when_follows | split | dsimp only

theorem execDiagnosticCommand_follows {msk : Nat} (hmsk : msk ||| 4096 = msk) {z s : State} (e : Nat) (answer : List Nat) (h : Follows
    msk z s) : ∃ nx, execDiagnosticCommand e answer s = .next nx ∧ Follows msk z nx := by
  unfold execDiagnosticCommand; refine done_follows ?_
  repeat' first
    | with_reducible assumption | (intro _) | with_reducible apply State.answer_follows (within hmsk (by decide))
    | with_reducible apply Follows.ite | split | dsimp only

end Sys2Proof.Machine
end

