-- ==== Sys2Proof/Laws/FolBridges.lean ====
section
/-!
SUPPORT. `Follows` for the operations and meanings of `Bridges.lean`.
-/

namespace Sys2Proof.Machine

open Host (Outcome)

set_option linter.unusedTactic false
set_option linter.unreachableTactic false
set_option linter.unusedSimpArgs false
set_option linter.unusedVariables false

theorem execVdpContextChange_follows {msk : Nat} (hmsk : msk ||| 1026 = msk) {z s : State} (c : Nat) (h : Follows msk z s) : ∃ nx,
    execVdpContextChange c s = .next nx ∧ Follows msk z nx := by
  unfold execVdpContextChange; refine done_follows ?_
  repeat' first
    | with_reducible assumption | (intro _) | with_reducible apply State.npFail_follows (within hmsk (by decide))
    | with_reducible apply State.raise_follows (within hmsk (by decide))
    | with_reducible apply State.aerError_follows (within hmsk (by decide)) | with_reducible apply State.when_follows
    | with_reducible apply State.emit_follows | with_reducible apply State.setBit_follows | with_reducible apply Follows.ite | split
    | dsimp only

theorem State.pcieDetect_follows {msk : Nat} (hmsk : msk ||| 2 = msk) {z s : State} (h : Follows msk z s) : Follows msk z
    (State.pcieDetect s) := by
  unfold State.pcieDetect
  repeat' first
    | with_reducible assumption | (intro _) | with_reducible apply State.applyRwp_follows
    | with_reducible apply State.raise_follows (within hmsk (by decide)) | with_reducible apply State.flag_follows
    | with_reducible apply State.wr_follows | with_reducible apply State.when_follows | split | dsimp only

theorem cmdPcieRetrain_follows {msk : Nat} (hmsk : msk ||| 2 = msk) {z t : State} (h : Follows msk z t) : Follows msk z
    ((cmdPcieRetrain).act t) := by
  unfold cmdPcieRetrain; dsimp only
  repeat' first
    | with_reducible assumption | (intro _) | with_reducible apply State.pcieDetect_follows (within hmsk (by decide)) | split | dsimp only

theorem execPcieRetrain_follows {msk : Nat} (hmsk : msk ||| 524315 = msk) {z s : State} (p : Sys2Proof.Path) (h : Follows msk z s) : ∃
    nx, execPcieRetrain p s = .next nx ∧ Follows msk z nx := by
  unfold execPcieRetrain; refine done_follows ?_
  repeat' first
    | with_reducible assumption | (intro _) | with_reducible apply State.runCmd_follows (within hmsk (by decide))
    | with_reducible apply cmdPcieRetrain_follows (within hmsk (by decide)) | split | dsimp only

theorem State.pcieConfig_follows {msk : Nat} (hmsk : msk ||| 1024 = msk) {z s : State} (l : List (Nat × Sys2Proof.PcieCfg × Nat)) (h :
    Follows msk z s) : Follows msk z (State.pcieConfig s l) := by
  unfold State.pcieConfig
  repeat' first
    | with_reducible assumption | (intro _) | with_reducible apply State.modBrg_follows (within hmsk (by decide))
    | with_reducible apply foldS_follows | split | dsimp only

theorem execPcieLinkChange_follows {msk : Nat} (hmsk : msk ||| 1026 = msk) {z s : State} (active : Bool) (ltssm : Nat) (rate : Nat × Nat)
    (cfg : List (Nat × Sys2Proof.PcieCfg × Nat)) (h : Follows msk z s) : ∃ nx, execPcieLinkChange active ltssm rate cfg s = .next nx ∧
    Follows msk z nx := by
  unfold execPcieLinkChange; refine done_follows ?_
  repeat' first
    | with_reducible assumption | (intro _) | with_reducible apply State.applyRwp_follows
    | with_reducible apply State.pcieConfig_follows (within hmsk (by decide))
    | with_reducible apply State.raise_follows (within hmsk (by decide)) | with_reducible apply State.when_follows
    | with_reducible apply State.wr_follows | with_reducible apply State.flag_follows | split | dsimp only

theorem State.lpbCarry_follows {msk : Nat} (hmsk : msk ||| 4938 = msk) {z s : State} (b : FarBurst) (h : Follows msk z s) : Follows msk
    z (State.lpbCarry s b) := by
  unfold State.lpbCarry
  repeat' first
    | with_reducible assumption | (intro _) | with_reducible apply State.ingress_follows (within hmsk (by decide)) | split | dsimp only

theorem State.farLost_follows {msk : Nat} (hmsk : msk ||| 1026 = msk) {z s : State} (b : FarBurst) (h : Follows msk z s) : Follows msk z
    (State.farLost s b) := by
  unfold State.farLost
  repeat' first
    | with_reducible assumption | (intro _) | with_reducible apply State.logFail_follows (within hmsk (by decide))
    | with_reducible apply State.cplCa_follows | with_reducible apply Follows.ite | split | dsimp only

theorem State.farRemote_follows {msk : Nat} (hmsk : msk ||| 5962 = msk) {z s : State} (b : FarBurst) (h : Follows msk z s) : Follows msk
    z (State.farRemote s b) := by
  unfold State.farRemote
  repeat' first
    | with_reducible assumption | (intro _) | with_reducible apply State.lpbCarry_follows (within hmsk (by decide))
    | with_reducible apply State.modBrg_follows (within hmsk (by decide))
    | with_reducible apply State.farLost_follows (within hmsk (by decide)) | with_reducible apply State.emit_follows
    | with_reducible apply Follows.ite | split | dsimp only

theorem State.farQueue_follows {msk : Nat} (hmsk : msk ||| 5962 = msk) {z s : State} (b : FarBurst) (h : Follows msk z s) : Follows msk
    z (State.farQueue s b) := by
  unfold State.farQueue
  repeat' first
    | with_reducible assumption | (intro _) | with_reducible apply State.modBrg_follows (within hmsk (by decide))
    | with_reducible apply State.farRemote_follows (within hmsk (by decide)) | with_reducible apply Follows.ite | split | dsimp only

theorem State.pfRead_follows {msk : Nat} (hmsk : msk ||| 5962 = msk) {z s : State} (b : FarBurst) (h : Follows msk z s) : Follows msk z
    (State.pfRead s b) := by
  unfold State.pfRead
  repeat' first
    | with_reducible assumption | (intro _) | with_reducible apply State.cplRead_follows
    | with_reducible apply State.modBrg_follows (within hmsk (by decide))
    | with_reducible apply State.farQueue_follows (within hmsk (by decide))
    | with_reducible apply State.ghost_follows (within hmsk (by decide)) | with_reducible apply Follows.ite | split | dsimp only

theorem State.hostUr_follows {msk : Nat} {z s : State} (posted : Bool) (reqId : Nat) (tag : Nat) (h : Follows msk z s) : Follows msk z
    (State.hostUr s posted reqId tag) := by
  unfold State.hostUr
  repeat' first
    | with_reducible assumption | (intro _) | with_reducible apply State.cplUr_follows | with_reducible apply State.when_follows | split
    | dsimp only

theorem execFarbusRequest_follows {msk : Nat} (hmsk : msk ||| 5962 = msk) {z s : State} (write : Bool) (tun : Option (Nat × Nat)) (addr
    : Nat) (be : List Bool) (data : List Sys2Proof.Byte) (reqId : Nat) (tag : Nat) (h : Follows msk z s) : ∃ nx, execFarbusRequest write
    tun addr be data reqId tag s = .next nx ∧ Follows msk z nx := by
  unfold execFarbusRequest; refine done_follows ?_
  repeat' first
    | with_reducible assumption | (intro _) | with_reducible apply State.farQueue_follows (within hmsk (by decide))
    | with_reducible apply State.hostUr_follows | with_reducible apply State.logFail_follows (within hmsk (by decide))
    | with_reducible apply State.cplUr_follows | with_reducible apply State.ghostWrite_follows (within hmsk (by decide))
    | with_reducible apply State.pfRead_follows (within hmsk (by decide)) | with_reducible apply State.when_follows
    | with_reducible apply Follows.ite | split | dsimp only

theorem execAtomicOp_follows {msk : Nat} (hmsk : msk ||| 5962 = msk) {z s : State} (tun : Option (Nat × Nat)) (addr : Nat) (op : Nat)
    (width : Nat) (operand : Nat) (compare : Nat) (reqId : Nat) (tag : Nat) (h : Follows msk z s) : ∃ nx, execAtomicOp tun addr op width
    operand compare reqId tag s = .next nx ∧ Follows msk z nx := by
  unfold execAtomicOp; refine done_follows ?_
  repeat' first
    | with_reducible assumption | (intro _) | with_reducible apply State.cplUr_follows
    | with_reducible apply State.farQueue_follows (within hmsk (by decide))
    | with_reducible apply State.ghostWrite_follows (within hmsk (by decide)) | with_reducible apply State.when_follows
    | with_reducible apply Follows.ite | split | dsimp only

theorem execMrdlk_follows {msk : Nat} (hmsk : msk ||| 5962 = msk) {z s : State} (tun : Option (Nat × Nat)) (addr : Nat) (be : List Bool)
    (reqId : Nat) (tag : Nat) (h : Follows msk z s) : ∃ nx, execMrdlk tun addr be reqId tag s = .next nx ∧ Follows msk z nx := by
  unfold execMrdlk; refine done_follows ?_
  repeat' first
    | with_reducible assumption | (intro _) | with_reducible apply State.farQueue_follows (within hmsk (by decide))
    | with_reducible apply State.cplUr_follows | with_reducible apply State.when_follows | with_reducible apply Follows.ite | split
    | dsimp only

theorem State.farAnswer_follows {msk : Nat} (hmsk : msk ||| 4938 = msk) {z s : State} (b : FarBurst) (more : Bool) (cause : Nat) (addr :
    Nat) (d : List Nat) (h : Follows msk z s) : Follows msk z (State.farAnswer s b more cause addr d) := by
  unfold State.farAnswer
  repeat' first
    | with_reducible assumption | (intro _) | with_reducible apply State.ingress_follows (within hmsk (by decide))
    | with_reducible apply State.emit_follows | split | dsimp only

theorem State.farDone_follows {msk : Nat} (hmsk : msk ||| 4938 = msk) {z s : State} (b : FarBurst) (l : List (Nat × Nat)) (h : Follows
    msk z s) : Follows msk z (State.farDone s b l) := by
  unfold State.farDone
  repeat' first
    | with_reducible assumption | (intro _) | with_reducible apply State.farAnswer_follows (within hmsk (by decide))
    | with_reducible apply State.cplRead_follows | with_reducible apply State.when_follows | with_reducible apply Follows.ite | split
    | dsimp only

theorem State.lockEnd_follows {msk : Nat} (hmsk : msk ||| 1024 = msk) {z s : State} (reqId : Nat) (h : Follows msk z s) : Follows msk z
    (State.lockEnd s reqId) := by
  unfold State.lockEnd
  repeat' first
    | with_reducible assumption | (intro _) | with_reducible apply State.modBrg_follows (within hmsk (by decide))
    | with_reducible apply State.when_follows | split | dsimp only

theorem execFarbusTransaction_follows {msk : Nat} (hmsk : msk ||| 5962 = msk) {z s : State} (h : Follows msk z s) : ∃ nx,
    execFarbusTransaction s = .next nx ∧ Follows msk z nx := by
  unfold execFarbusTransaction; refine done_follows ?_
  repeat' first
    | with_reducible assumption | (intro _) | with_reducible apply State.modBrg_follows (within hmsk (by decide))
    | with_reducible apply State.lockEnd_follows (within hmsk (by decide))
    | with_reducible apply State.farDone_follows (within hmsk (by decide)) | with_reducible apply State.when_follows
    | with_reducible apply State.emit_follows | with_reducible apply Follows.ite | split | dsimp only

theorem State.farFail_follows {msk : Nat} (hmsk : msk ||| 5962 = msk) {z s : State} (b : FarBurst) (addr : Nat) (cause : Nat) (h :
    Follows msk z s) : Follows msk z (State.farFail s b addr cause) := by
  unfold State.farFail
  repeat' first
    | with_reducible assumption | (intro _) | with_reducible apply State.modBrg_follows (within hmsk (by decide))
    | with_reducible apply State.farAnswer_follows (within hmsk (by decide))
    | with_reducible apply State.logFail_follows (within hmsk (by decide)) | with_reducible apply State.cplCa_follows
    | with_reducible apply State.when_follows | with_reducible apply Follows.ite | split | dsimp only

theorem State.farRead_follows {msk : Nat} (hmsk : msk ||| 5962 = msk) {z s : State} (b : FarBurst) (got : List (Nat × Nat)) (h : Follows
    msk z s) : Follows msk z (State.farRead s b got) := by
  unfold State.farRead
  repeat' first
    | with_reducible assumption | (intro _) | with_reducible apply State.modBrg_follows (within hmsk (by decide))
    | with_reducible apply State.ghosts_follows (within hmsk (by decide))
    | with_reducible apply State.farDone_follows (within hmsk (by decide)) | with_reducible apply Follows.ite | split | dsimp only

theorem State.farOk_follows {msk : Nat} (hmsk : msk ||| 5962 = msk) {z s : State} (b : FarBurst) (data : List Nat) (h : Follows msk z s)
    : Follows msk z (State.farOk s b data) := by
  unfold State.farOk
  repeat' first
    | with_reducible assumption | (intro _) | with_reducible apply State.modBrg_follows (within hmsk (by decide))
    | with_reducible apply State.farDone_follows (within hmsk (by decide))
    | with_reducible apply State.farRead_follows (within hmsk (by decide)) | with_reducible apply State.when_follows
    | with_reducible apply Follows.ite | split | dsimp only

theorem State.farEnd_follows {msk : Nat} (hmsk : msk ||| 5962 = msk) {z s : State} (b : FarBurst) (cause : Nat) (addr : Nat) (data :
    List Nat) (h : Follows msk z s) : Follows msk z (State.farEnd s b cause addr data) := by
  unfold State.farEnd
  repeat' first
    | with_reducible assumption | (intro _) | with_reducible apply State.modBrg_follows (within hmsk (by decide))
    | with_reducible apply State.farOk_follows (within hmsk (by decide))
    | with_reducible apply State.farFail_follows (within hmsk (by decide)) | with_reducible apply State.emit_follows
    | with_reducible apply Follows.ite | split | dsimp only

theorem State.farAnswered_follows {msk : Nat} (hmsk : msk ||| 1026 = msk) {z s : State} (no : Nat) (b : FarBurst) (more : Bool) (cause :
    Nat) (addr : Nat) (time : Nat) (data : List Nat) (h : Follows msk z s) : Follows msk z (State.farAnswered s no b more cause addr
    time data) := by
  unfold State.farAnswered
  repeat' first
    | with_reducible assumption | (intro _) | with_reducible apply State.modBrg_follows (within hmsk (by decide))
    | with_reducible apply State.cplRead_follows | with_reducible apply State.logFail_follows (within hmsk (by decide))
    | with_reducible apply State.cplCa_follows | with_reducible apply State.when_follows | with_reducible apply Follows.ite | split
    | dsimp only

theorem State.farLockTimeout_follows {msk : Nat} (hmsk : msk ||| 1026 = msk) {z s : State} (no : Nat) (addr : Nat) (time : Nat) (h :
    Follows msk z s) : Follows msk z (State.farLockTimeout s no addr time) := by
  unfold State.farLockTimeout
  repeat' first
    | with_reducible assumption | (intro _) | with_reducible apply State.logFail_follows (within hmsk (by decide))
    | with_reducible apply State.raise_follows (within hmsk (by decide))
    | with_reducible apply State.modBrg_follows (within hmsk (by decide)) | split | dsimp only

theorem execFarbusTransactionEnd_follows {msk : Nat} (hmsk : msk ||| 5962 = msk) {z s : State} (remote : Option (Nat × Bool)) (cause :
    Nat) (addr : Nat) (time : Nat) (data : List Nat) (h : Follows msk z s) : ∃ nx, execFarbusTransactionEnd remote cause addr time data s
    = .next nx ∧ Follows msk z nx := by
  unfold execFarbusTransactionEnd; refine done_follows ?_
  repeat' first
    | with_reducible assumption | (intro _) | with_reducible apply State.farEnd_follows (within hmsk (by decide))
    | with_reducible apply State.farLockTimeout_follows (within hmsk (by decide))
    | with_reducible apply State.farAnswered_follows (within hmsk (by decide)) | with_reducible apply State.when_follows | split
    | dsimp only

theorem execReadyTimeout_follows {msk : Nat} (hmsk : msk ||| 5962 = msk) {z s : State} (addr : Nat) (h : Follows msk z s) : ∃ nx,
    execReadyTimeout addr s = .next nx ∧ Follows msk z nx := by
  unfold execReadyTimeout; refine done_follows ?_
  repeat' first
    | with_reducible assumption | (intro _) | with_reducible apply State.farEnd_follows (within hmsk (by decide))
    | with_reducible apply State.when_follows | split | dsimp only

theorem execPrefetchExpiry_follows {msk : Nat} (hmsk : msk ||| 1026 = msk) {z s : State} (w : Nat) (h : Follows msk z s) : ∃ nx,
    execPrefetchExpiry w s = .next nx ∧ Follows msk z nx := by
  unfold execPrefetchExpiry; refine done_follows ?_
  repeat' first
    | with_reducible assumption | (intro _) | with_reducible apply State.ghost_follows (within hmsk (by decide)) | split | dsimp only

theorem State.unlockRemote_follows {msk : Nat} (hmsk : msk ||| 5962 = msk) {z s : State} (reqId : Nat) (h : Follows msk z s) : Follows
    msk z (State.unlockRemote s reqId) := by
  unfold State.unlockRemote
  repeat' first
    | with_reducible assumption | (intro _) | with_reducible apply State.modBrg_follows (within hmsk (by decide))
    | with_reducible apply State.lpbCarry_follows (within hmsk (by decide)) | with_reducible apply foldS_follows
    | with_reducible apply State.emit_follows | split | dsimp only

theorem execUnlock_follows {msk : Nat} (hmsk : msk ||| 5962 = msk) {z s : State} (reqId : Nat) (h : Follows msk z s) : ∃ nx, execUnlock
    reqId s = .next nx ∧ Follows msk z nx := by
  unfold execUnlock; refine done_follows ?_
  repeat' first
    | with_reducible assumption | (intro _) | with_reducible apply State.farQueue_follows (within hmsk (by decide))
    | with_reducible apply State.lockEnd_follows (within hmsk (by decide))
    | with_reducible apply State.unlockRemote_follows (within hmsk (by decide)) | with_reducible apply State.when_follows | split
    | dsimp only

theorem execLockTimeout_follows {msk : Nat} (hmsk : msk ||| 5962 = msk) {z s : State} (h : Follows msk z s) : ∃ nx, execLockTimeout s =
    .next nx ∧ Follows msk z nx := by
  unfold execLockTimeout; refine done_follows ?_
  repeat' first
    | with_reducible assumption | (intro _) | with_reducible apply State.raise_follows (within hmsk (by decide))
    | with_reducible apply State.modBrg_follows (within hmsk (by decide))
    | with_reducible apply State.farAnswer_follows (within hmsk (by decide))
    | with_reducible apply State.logFail_follows (within hmsk (by decide)) | with_reducible apply State.when_follows
    | with_reducible apply Follows.ite | split | dsimp only

theorem State.farCtxFault_follows {msk : Nat} (hmsk : msk ||| 1026 = msk) {z s : State} (c : Nat) (h : Follows msk z s) : Follows msk z
    (State.farCtxFault s c) := by
  unfold State.farCtxFault
  repeat' first
    | with_reducible assumption | (intro _) | with_reducible apply State.modBrg_follows (within hmsk (by decide))
    | with_reducible apply State.farLost_follows (within hmsk (by decide)) | with_reducible apply foldS_follows
    | with_reducible apply Follows.ite | split | dsimp only

theorem State.fenceAnswer_follows {msk : Nat} (hmsk : msk ||| 1 = msk) {z s : State} (p : Sys2Proof.Path) (incomplete : Bool) (h :
    Follows msk z s) : Follows msk z (State.fenceAnswer s p incomplete) := by
  unfold State.fenceAnswer
  repeat' first
    | with_reducible assumption | (intro _) | with_reducible apply State.readBack_follows (within hmsk (by decide))
    | with_reducible apply State.wr_follows | with_reducible apply Follows.ite | split | dsimp only

theorem execFenceRead_follows {msk : Nat} (hmsk : msk ||| 525339 = msk) {z s : State} (p : Sys2Proof.Path) (h : Follows msk z s) : ∃ nx,
    execFenceRead p s = .next nx ∧ Follows msk z nx := by
  unfold execFenceRead; refine done_follows ?_
  repeat' first
    | with_reducible assumption | (intro _) | with_reducible apply State.gate_follows (within hmsk (by decide))
    | with_reducible apply State.fenceAnswer_follows (within hmsk (by decide))
    | with_reducible apply State.modBrg_follows (within hmsk (by decide)) | with_reducible apply Follows.ite | split | dsimp only

theorem State.fenceComplete_follows {msk : Nat} (hmsk : msk ||| 1025 = msk) {z s : State} (h : Follows msk z s) : Follows msk z
    (State.fenceComplete s) := by
  unfold State.fenceComplete
  repeat' first
    | with_reducible assumption | (intro _) | with_reducible apply State.fenceAnswer_follows (within hmsk (by decide))
    | with_reducible apply State.modBrg_follows (within hmsk (by decide)) | with_reducible apply State.when_follows | split | dsimp only

theorem State.fenceTimeout_follows {msk : Nat} (hmsk : msk ||| 1025 = msk) {z s : State} (h : Follows msk z s) : Follows msk z
    (State.fenceTimeout s) := by
  unfold State.fenceTimeout
  repeat' first
    | with_reducible assumption | (intro _) | with_reducible apply State.fenceAnswer_follows (within hmsk (by decide))
    | with_reducible apply State.modBrg_follows (within hmsk (by decide)) | split | dsimp only

theorem execErrorFifoPop_follows {msk : Nat} (hmsk : msk ||| 525339 = msk) {z s : State} (p : Sys2Proof.Path) (h : Follows msk z s) : ∃
    nx, execErrorFifoPop p s = .next nx ∧ Follows msk z nx := by
  unfold execErrorFifoPop; refine done_follows ?_
  repeat' first
    | with_reducible assumption | (intro _) | with_reducible apply State.readOwn_follows (within hmsk (by decide))
    | with_reducible apply State.showErrf_follows | with_reducible apply State.modBrg_follows (within hmsk (by decide)) | split
    | dsimp only

theorem State.lsioSend_follows {msk : Nat} (hmsk : msk ||| 4938 = msk) {z s : State} (kind : Nat) (unit : Nat) (op : Nat) (tag : Nat)
    (status : Nat) (arg : Nat) (data : List Sys2Proof.Byte) (h : Follows msk z s) : Follows msk z (State.lsioSend s kind unit op tag
    status arg data) := by
  unfold State.lsioSend
  repeat' first
    | with_reducible assumption | (intro _) | with_reducible apply State.ingress_follows (within hmsk (by decide))
    | with_reducible apply State.emit_follows | split | dsimp only

theorem State.lsioRun_follows {msk : Nat} (hmsk : msk ||| 4938 = msk) {z s : State} (kind : Nat) (unit : Nat) (op : Nat) (tag : Nat)
    (arg : Nat) (data : List Sys2Proof.Byte) (status : Nat) (rdata : List Sys2Proof.Byte) (h : Follows msk z s) : Follows msk z
    (State.lsioRun s kind unit op tag arg data status rdata) := by
  unfold State.lsioRun
  repeat' first
    | with_reducible assumption | (intro _) | with_reducible apply State.lsioSend_follows (within hmsk (by decide))
    | with_reducible apply State.gpioOut_follows | with_reducible apply State.emit_follows | with_reducible apply State.wr_follows
    | with_reducible apply Follows.ite | split | dsimp only

theorem execLsioMessage_follows {msk : Nat} (hmsk : msk ||| 4938 = msk) {z s : State} (kind : Nat) (unit : Nat) (op : Nat) (tag : Nat)
    (arg : Nat) (data : List Sys2Proof.Byte) (status : Nat) (rdata : List Sys2Proof.Byte) (h : Follows msk z s) : ∃ nx, execLsioMessage
    kind unit op tag arg data status rdata s = .next nx ∧ Follows msk z nx := by
  unfold execLsioMessage; refine done_follows ?_
  repeat' first
    | with_reducible assumption | (intro _) | with_reducible apply State.lsioRun_follows (within hmsk (by decide))
    | with_reducible apply State.when_follows | split | dsimp only

theorem execGpioEdge_follows {msk : Nat} (hmsk : msk ||| 4938 = msk) {z s : State} (pin : Nat) (level : Bool) (h : Follows msk z s) : ∃
    nx, execGpioEdge pin level s = .next nx ∧ Follows msk z nx := by
  unfold execGpioEdge; refine done_follows ?_
  repeat' first
    | with_reducible assumption | (intro _) | with_reducible apply State.raise_follows (within hmsk (by decide))
    | with_reducible apply State.eventBit_follows (within hmsk (by decide))
    | with_reducible apply State.lsioSend_follows (within hmsk (by decide)) | with_reducible apply State.when_follows
    | with_reducible apply State.setBit_follows | split | dsimp only

theorem execUartRx_follows {msk : Nat} (hmsk : msk ||| 4938 = msk) {z s : State} (unit : Nat) (data : List Sys2Proof.Byte) (h : Follows
    msk z s) : ∃ nx, execUartRx unit data s = .next nx ∧ Follows msk z nx := by
  unfold execUartRx; refine done_follows ?_
  repeat' first
    | with_reducible assumption | (intro _) | with_reducible apply State.lsioSend_follows (within hmsk (by decide))
    | with_reducible apply State.raise_follows (within hmsk (by decide)) | with_reducible apply State.when_follows
    | with_reducible apply State.emit_follows | split | dsimp only

theorem execI2cStretchTimeout_follows {msk : Nat} (hmsk : msk ||| 4938 = msk) {z s : State} (unit : Nat) (tag : Nat) (arg : Nat) (h :
    Follows msk z s) : ∃ nx, execI2cStretchTimeout unit tag arg s = .next nx ∧ Follows msk z nx := by
  unfold execI2cStretchTimeout; refine done_follows ?_
  repeat' first
    | with_reducible assumption | (intro _) | with_reducible apply State.lsioSend_follows (within hmsk (by decide))
    | with_reducible apply State.raise_follows (within hmsk (by decide)) | with_reducible apply State.when_follows | split | dsimp only

end Sys2Proof.Machine
end

