-- ==== Sys2Proof/Laws/FolDisplay.lean ====
section
/-!
SUPPORT. `Follows` for the operations and meanings of `Display.lean`.
-/

namespace Sys2Proof.Machine

open Host (Outcome)

set_option linter.unusedTactic false
set_option linter.unreachableTactic false
set_option linter.unusedSimpArgs false
set_option linter.unusedVariables false

theorem State.modDp_follows {msk : Nat} (hmsk : msk ||| 8192 = msk) {z s : State} (f : DisplayS → DisplayS) (h : Follows msk z s) :
    Follows msk z (State.modDp s f) := by
  unfold State.modDp
  repeat' first
    | with_reducible assumption | (intro _) | simp only [Follows.dp_iff (within hmsk (by decide))] | split | dsimp only

theorem State.dpiFrame_follows {msk : Nat} (hmsk : msk ||| 4938 = msk) {z s : State} (ns : Nat) (stamp : Nat) (b : List Sys2Proof.Byte)
    (h : Follows msk z s) : Follows msk z (State.dpiFrame s ns stamp b) := by
  unfold State.dpiFrame
  repeat' first
    | with_reducible assumption | (intro _) | with_reducible apply State.ingress_follows (within hmsk (by decide)) | split | dsimp only

theorem State.dpiTiming_follows {msk : Nat} (hmsk : msk ||| 13130 = msk) {z s : State} (t : Sys2Proof.DpTiming) (dsc : Bool) (ns : Nat)
    (stamp : Nat) (h : Follows msk z s) : Follows msk z (State.dpiTiming s t dsc ns stamp) := by
  unfold State.dpiTiming
  repeat' first
    | with_reducible assumption | (intro _) | with_reducible apply State.modDp_follows (within hmsk (by decide))
    | with_reducible apply State.raise_follows (within hmsk (by decide))
    | with_reducible apply State.dpiFrame_follows (within hmsk (by decide)) | with_reducible apply State.wr_follows
    | with_reducible apply State.when_follows | with_reducible apply State.inc_follows | split | dsimp only

theorem execDpiLineCapture_follows {msk : Nat} (hmsk : msk ||| 13130 = msk) {z s : State} (line : Nat) (t : Sys2Proof.DpTiming) (dsc :
    Bool) (fec : Bool) (stamp : Nat) (ns : Nat) (symErr : Nat) (data : List Sys2Proof.Byte) (h : Follows msk z s) : ∃ nx,
    execDpiLineCapture line t dsc fec stamp ns symErr data s = .next nx ∧ Follows msk z nx := by
  unfold execDpiLineCapture; refine done_follows ?_
  repeat' first
    | with_reducible assumption | (intro _) | with_reducible apply State.dpiTiming_follows (within hmsk (by decide))
    | with_reducible apply State.dpiFrame_follows (within hmsk (by decide)) | with_reducible apply State.when_follows
    | with_reducible apply State.flag_follows | with_reducible apply State.inc_follows | split | dsimp only

theorem State.dpoMode_follows {msk : Nat} {z s : State} (m : Nat) (h : Follows msk z s) : Follows msk z (State.dpoMode s m) := by
  unfold State.dpoMode
  repeat' first
    | with_reducible assumption | (intro _) | with_reducible apply State.wr_follows | split | dsimp only

theorem State.dpoResync_follows {msk : Nat} (hmsk : msk ||| 8194 = msk) {z s : State} (h : Follows msk z s) : Follows msk z
    (State.dpoResync s) := by
  unfold State.dpoResync
  repeat' first
    | with_reducible assumption | (intro _) | with_reducible apply State.raise_follows (within hmsk (by decide))
    | with_reducible apply State.modDp_follows (within hmsk (by decide)) | with_reducible apply State.dpoMode_follows
    | with_reducible apply State.when_follows | with_reducible apply State.flag_follows | split | dsimp only

theorem State.dpoTiming_follows {msk : Nat} (hmsk : msk ||| 8194 = msk) {z s : State} (flags : Nat) (frame : Nat) (stamp : Nat) (t :
    Sys2Proof.DpTiming) (h : Follows msk z s) : Follows msk z (State.dpoTiming s flags frame stamp t) := by
  unfold State.dpoTiming
  repeat' first
    | with_reducible assumption | (intro _) | with_reducible apply State.modDp_follows (within hmsk (by decide))
    | with_reducible apply State.raise_follows (within hmsk (by decide))
    | with_reducible apply State.dpoResync_follows (within hmsk (by decide)) | with_reducible apply State.when_follows
    | with_reducible apply State.flag_follows | split | dsimp only

theorem State.dpoPrune_follows {msk : Nat} (hmsk : msk ||| 8192 = msk) {z s : State} (h : Follows msk z s) : Follows msk z
    (State.dpoPrune s) := by
  unfold State.dpoPrune
  repeat' first
    | with_reducible assumption | (intro _) | with_reducible apply State.modDp_follows (within hmsk (by decide))
    | with_reducible apply Follows.ite | split | dsimp only

theorem State.dpoLine_follows {msk : Nat} (hmsk : msk ||| 8192 = msk) {z s : State} (c : Sys2Proof.Cell) (h : Follows msk z s) : Follows
    msk z (State.dpoLine s c) := by
  unfold State.dpoLine
  repeat' first
    | with_reducible assumption | (intro _) | with_reducible apply State.modDp_follows (within hmsk (by decide))
    | with_reducible apply State.inc_follows | with_reducible apply Follows.ite | split | dsimp only

theorem State.dpoMore_follows {msk : Nat} (hmsk : msk ||| 8192 = msk) {z s : State} (c : Sys2Proof.Cell) (h : Follows msk z s) : Follows
    msk z (State.dpoMore s c) := by
  unfold State.dpoMore
  repeat' first
    | with_reducible assumption | (intro _) | with_reducible apply State.modDp_follows (within hmsk (by decide))
    | with_reducible apply State.when_follows | with_reducible apply State.inc_follows | with_reducible apply Follows.ite | split
    | dsimp only

theorem execDpoCellArrival_follows {msk : Nat} (hmsk : msk ||| 8194 = msk) {z s : State} (c : Sys2Proof.Cell) (h : Follows msk z s) : ∃
    nx, execDpoCellArrival c s = .next nx ∧ Follows msk z nx := by
  unfold execDpoCellArrival; refine done_follows ?_
  repeat' first
    | with_reducible assumption | (intro _) | with_reducible apply State.dpoPrune_follows (within hmsk (by decide))
    | with_reducible apply State.modDp_follows (within hmsk (by decide))
    | with_reducible apply State.dpoTiming_follows (within hmsk (by decide))
    | with_reducible apply State.dpoLine_follows (within hmsk (by decide))
    | with_reducible apply State.dpoMore_follows (within hmsk (by decide)) | with_reducible apply State.when_follows
    | with_reducible apply Follows.ite | split | dsimp only

theorem State.dpoPhase_follows {msk : Nat} (hmsk : msk ||| 8194 = msk) {z s : State} (t : Sys2Proof.DpTiming) (phase : Int) (ppm : Int)
    (h : Follows msk z s) : Follows msk z (State.dpoPhase s t phase ppm) := by
  unfold State.dpoPhase
  repeat' first
    | with_reducible assumption | (intro _) | with_reducible apply State.wrS_follows
    | with_reducible apply State.modDp_follows (within hmsk (by decide))
    | with_reducible apply State.dpoResync_follows (within hmsk (by decide)) | with_reducible apply State.when_follows
    | with_reducible apply State.flag_follows | with_reducible apply Follows.ite | split | dsimp only

theorem State.dpoPlay_follows {msk : Nat} (hmsk : msk ||| 8194 = msk) {z s : State} (t : Sys2Proof.DpTiming) (l : DpLine) (phase : Int)
    (ppm : Int) (late : List (Nat × List Sys2Proof.Byte)) (h : Follows msk z s) : Follows msk z (State.dpoPlay s t l phase ppm late) :=
    by
  unfold State.dpoPlay
  repeat' first
    | with_reducible assumption | (intro _) | with_reducible apply State.dpoMode_follows
    | with_reducible apply State.modDp_follows (within hmsk (by decide))
    | with_reducible apply State.dpoPhase_follows (within hmsk (by decide)) | with_reducible apply State.when_follows
    | with_reducible apply State.inc_follows | with_reducible apply State.emit_follows | with_reducible apply State.flag_follows | split
    | dsimp only

theorem execDpoLinePlayout_follows {msk : Nat} (hmsk : msk ||| 8194 = msk) {z s : State} (phase : Int) (ppm : Int) (late : List (Nat ×
    List Sys2Proof.Byte)) (h : Follows msk z s) : ∃ nx, execDpoLinePlayout phase ppm late s = .next nx ∧ Follows msk z nx := by
  unfold execDpoLinePlayout; refine done_follows ?_
  repeat' first
    | with_reducible assumption | (intro _) | with_reducible apply State.dpoPlay_follows (within hmsk (by decide))
    | with_reducible apply State.dpoMode_follows | with_reducible apply State.modDp_follows (within hmsk (by decide))
    | with_reducible apply State.dpoPhase_follows (within hmsk (by decide)) | with_reducible apply State.when_follows
    | with_reducible apply State.emit_follows | with_reducible apply State.inc_follows | with_reducible apply Follows.ite | split
    | dsimp only

theorem State.dpoRefit_follows {msk : Nat} (hmsk : msk ||| 8194 = msk) {z s : State} (h : Follows msk z s) : Follows msk z
    (State.dpoRefit s) := by
  unfold State.dpoRefit
  repeat' first
    | with_reducible assumption | (intro _) | with_reducible apply State.raise_follows (within hmsk (by decide))
    | with_reducible apply State.dpoResync_follows (within hmsk (by decide)) | with_reducible apply State.when_follows
    | with_reducible apply State.flag_follows | split | dsimp only

theorem State.dpoLink_follows {msk : Nat} (hmsk : msk ||| 8194 = msk) {z s : State} (up : Bool) (lanes : Nat) (rate : Nat) (fec : Bool)
    (h : Follows msk z s) : Follows msk z (State.dpoLink s up lanes rate fec) := by
  unfold State.dpoLink
  repeat' first
    | with_reducible assumption | (intro _) | with_reducible apply State.modDp_follows (within hmsk (by decide))
    | with_reducible apply State.dpoRefit_follows (within hmsk (by decide)) | with_reducible apply State.flag_follows
    | with_reducible apply State.wr_follows | with_reducible apply Follows.ite | split | dsimp only

theorem State.dpiDown_follows {msk : Nat} {z s : State} (h : Follows msk z s) : Follows msk z (State.dpiDown s) := by
  unfold State.dpiDown
  repeat' first
    | with_reducible assumption | (intro _) | with_reducible apply State.flag_follows | split | dsimp only

theorem State.cameoFrame_follows {msk : Nat} {z s : State} (h : Follows msk z s) : Follows msk z (State.cameoFrame s) := by
  unfold State.cameoFrame
  repeat' first
    | with_reducible assumption | (intro _) | with_reducible apply State.emit_follows | split | dsimp only

theorem State.cameoEnter_follows {msk : Nat} (hmsk : msk ||| 8194 = msk) {z s : State} (h : Follows msk z s) : Follows msk z
    (State.cameoEnter s) := by
  unfold State.cameoEnter
  repeat' first
    | with_reducible assumption | (intro _) | with_reducible apply State.raise_follows (within hmsk (by decide))
    | with_reducible apply State.dpoMode_follows | with_reducible apply State.modDp_follows (within hmsk (by decide))
    | with_reducible apply State.when_follows | with_reducible apply State.flag_follows | with_reducible apply State.emit_follows
    | with_reducible apply State.inc_follows | split | dsimp only

theorem execDpoFrameStart_follows {msk : Nat} (hmsk : msk ||| 8194 = msk) {z s : State} (h : Follows msk z s) : ∃ nx, execDpoFrameStart
    s = .next nx ∧ Follows msk z nx := by
  unfold execDpoFrameStart; refine done_follows ?_
  repeat' first
    | with_reducible assumption | (intro _) | with_reducible apply State.applyRwp_follows
    | with_reducible apply State.modDp_follows (within hmsk (by decide))
    | with_reducible apply State.dpoResync_follows (within hmsk (by decide))
    | with_reducible apply State.raise_follows (within hmsk (by decide)) | with_reducible apply State.cameoFrame_follows
    | with_reducible apply State.cameoEnter_follows (within hmsk (by decide)) | with_reducible apply State.when_follows
    | with_reducible apply Follows.ite | split | dsimp only

theorem execCameoTimeout_follows {msk : Nat} (hmsk : msk ||| 8192 = msk) {z s : State} (h : Follows msk z s) : ∃ nx, execCameoTimeout s
    = .next nx ∧ Follows msk z nx := by
  unfold execCameoTimeout; refine done_follows ?_
  repeat' first
    | with_reducible assumption | (intro _) | with_reducible apply State.modDp_follows (within hmsk (by decide))
    | with_reducible apply State.when_follows | split | dsimp only

theorem State.cameoForced_follows {msk : Nat} (hmsk : msk ||| 8192 = msk) {z s : State} (v : Bool) (h : Follows msk z s) : Follows msk z
    (State.cameoForced s v) := by
  unfold State.cameoForced
  repeat' first
    | with_reducible assumption | (intro _) | with_reducible apply State.modDp_follows (within hmsk (by decide))
    | with_reducible apply State.when_follows | with_reducible apply State.flag_follows | split | dsimp only

theorem execCameoForce_follows {msk : Nat} (hmsk : msk ||| 532507 = msk) {z s : State} (p : Sys2Proof.Path) (v : Bool) (h : Follows msk
    z s) : ∃ nx, execCameoForce p v s = .next nx ∧ Follows msk z nx := by
  unfold execCameoForce; refine done_follows ?_
  repeat' first
    | with_reducible assumption | (intro _) | with_reducible apply State.writeOwn_follows (within hmsk (by decide))
    | with_reducible apply State.cameoForced_follows (within hmsk (by decide)) | split | dsimp only

theorem cmdCameoCommit_follows {msk : Nat} (hmsk : msk ||| 8192 = msk) {z t : State} (h : Follows msk z t) : Follows msk z
    ((cmdCameoCommit).act t) := by
  unfold cmdCameoCommit; dsimp only
  repeat' first
    | with_reducible assumption | (intro _) | with_reducible apply State.modDp_follows (within hmsk (by decide)) | split | dsimp only

theorem execCameoCommit_follows {msk : Nat} (hmsk : msk ||| 532507 = msk) {z s : State} (p : Sys2Proof.Path) (h : Follows msk z s) : ∃
    nx, execCameoCommit p s = .next nx ∧ Follows msk z nx := by
  unfold execCameoCommit; refine done_follows ?_
  repeat' first
    | with_reducible assumption | (intro _) | with_reducible apply State.runCmd_follows (within hmsk (by decide))
    | with_reducible apply cmdCameoCommit_follows (within hmsk (by decide)) | split | dsimp only

theorem State.dpiHpd_follows {msk : Nat} {z s : State} (h : Follows msk z s) : Follows msk z (State.dpiHpd s) := by
  unfold State.dpiHpd
  repeat' first
    | with_reducible assumption | (intro _) | with_reducible apply State.emit_follows | with_reducible apply State.flag_follows
    | with_reducible apply Follows.ite | split | dsimp only

theorem State.auxAck_follows {msk : Nat} {z s : State} (d : List Sys2Proof.Byte) (h : Follows msk z s) : Follows msk z (State.auxAck s
    d) := by
  unfold State.auxAck
  repeat' first
    | with_reducible assumption | (intro _) | with_reducible apply State.emit_follows | split | dsimp only

theorem State.auxDefer_follows {msk : Nat} {z s : State} (h : Follows msk z s) : Follows msk z (State.auxDefer s) := by
  unfold State.auxDefer
  repeat' first
    | with_reducible assumption | (intro _) | with_reducible apply State.emit_follows | with_reducible apply State.inc_follows | split
    | dsimp only

theorem State.auxNack_follows {msk : Nat} {z s : State} (h : Follows msk z s) : Follows msk z (State.auxNack s) := by
  unfold State.auxNack
  repeat' first
    | with_reducible assumption | (intro _) | with_reducible apply State.emit_follows | split | dsimp only

theorem State.ownByte_follows {msk : Nat} {z s : State} (a : Nat) (h : Follows msk z s) : RFollows msk z (State.ownByte s a) := by
  unfold State.ownByte
  repeat' first
    | with_reducible assumption | (intro _) | with_reducible apply State.freshVal_follows | simp only [RFollows.pair_iff]
    | with_reducible refine RFollows.of_eq ?_ (by with_reducible assumption)
    | with_reducible refine RFollows.snd (State.freshVal_follows ?_) | with_reducible apply Follows.ite | split | dsimp only

theorem State.mirrorByte_follows {msk : Nat} {z s : State} (a : Nat) (h : Follows msk z s) : RFollows msk z (State.mirrorByte s a) := by
  unfold State.mirrorByte
  repeat' first
    | with_reducible assumption | (intro _) | with_reducible apply State.freshVal_follows | simp only [RFollows.pair_iff]
    | with_reducible refine RFollows.of_eq ?_ (by with_reducible assumption)
    | with_reducible refine RFollows.snd (State.freshVal_follows ?_) | with_reducible apply Follows.ite | split | dsimp only

theorem State.auxRead_follows {msk : Nat} {z s : State} (x1 : Nat) (x2 : Nat) (h : Follows msk z s) : RFollows msk z (State.auxRead s x1
    x2) := by
  induction x2 generalizing s x1 with
  | zero =>
    unfold State.auxRead
    repeat' first
      | with_reducible assumption | (intro _) | with_reducible refine RFollows.snd (ih _ ?_)
      | with_reducible apply State.mirrorByte_follows | with_reducible apply State.ownByte_follows | simp only [RFollows.pair_iff]
      | with_reducible refine RFollows.of_eq ?_ (by with_reducible assumption)
      | with_reducible refine RFollows.snd (State.mirrorByte_follows _ ?_) | with_reducible refine RFollows.snd (State.ownByte_follows _ ?_)
      | with_reducible apply Follows.ite | split | dsimp only
  | succ n ih =>
    unfold State.auxRead
    repeat' first
      | with_reducible assumption | (intro _) | with_reducible apply ih | with_reducible refine RFollows.snd (ih _ ?_)
      | with_reducible apply State.mirrorByte_follows | with_reducible apply State.ownByte_follows | simp only [RFollows.pair_iff]
      | with_reducible refine RFollows.of_eq ?_ (by with_reducible assumption)
      | with_reducible refine RFollows.snd (State.mirrorByte_follows _ ?_) | with_reducible refine RFollows.snd (State.ownByte_follows _ ?_)
      | with_reducible apply Follows.ite | split | dsimp only

theorem State.auxWrite_follows {msk : Nat} (hmsk : msk ||| 8192 = msk) {z s : State} (a : Nat) (d : List Sys2Proof.Byte) (h : Follows
    msk z s) : Follows msk z (State.auxWrite s a d) := by
  unfold State.auxWrite
  repeat' first
    | with_reducible assumption | (intro _) | with_reducible apply State.modDp_follows (within hmsk (by decide))
    | with_reducible apply foldS_follows | with_reducible apply State.when_follows | split | dsimp only

theorem State.auxEdid_follows {msk : Nat} (hmsk : msk ||| 8192 = msk) {z s : State} (r : AuxReq) (h : Follows msk z s) : OFollows msk z
    (State.auxEdid s r) := by
  unfold State.auxEdid
  repeat' first
    | with_reducible assumption | (intro _) | with_reducible apply State.auxAck_follows
    | with_reducible apply State.modDp_follows (within hmsk (by decide))
    | with_reducible refine OFollows.get ?_ (by with_reducible assumption) | with_reducible apply OFollows.some
    | with_reducible apply OFollows.none | with_reducible apply Follows.ite | split | dsimp only

theorem State.auxForward_follows {msk : Nat} (hmsk : msk ||| 8192 = msk) {z s : State} (r : AuxReq) (h : Follows msk z s) : Follows msk
    z (State.auxForward s r) := by
  unfold State.auxForward
  repeat' first
    | with_reducible assumption | (intro _) | with_reducible apply State.modDp_follows (within hmsk (by decide))
    | with_reducible apply State.dpiHpd_follows | with_reducible apply State.auxNack_follows | with_reducible apply State.auxDefer_follows
    | with_reducible apply State.emit_follows | with_reducible apply State.when_follows | with_reducible apply Follows.ite | split
    | dsimp only

theorem execAuxRequest_follows {msk : Nat} (hmsk : msk ||| 8192 = msk) {z s : State} (i2c : Bool) (read : Bool) (addr : Nat) (len : Nat)
    (data : List Sys2Proof.Byte) (h : Follows msk z s) : ∃ nx, execAuxRequest i2c read addr len data s = .next nx ∧ Follows msk z nx :=
    by
  unfold execAuxRequest; refine done_follows ?_
  repeat' first
    | with_reducible assumption | (intro _) | with_reducible apply State.auxEdid_follows (within hmsk (by decide))
    | with_reducible apply State.auxForward_follows (within hmsk (by decide)) | with_reducible apply State.auxRead_follows
    | with_reducible apply State.auxAck_follows | with_reducible apply State.auxWrite_follows (within hmsk (by decide))
    | with_reducible apply State.when_follows | simp only [RFollows.pair_iff]
    | with_reducible refine RFollows.of_eq ?_ (by with_reducible assumption)
    | with_reducible refine OFollows.get ?_ (by with_reducible assumption)
    | with_reducible refine RFollows.snd (State.auxRead_follows _ _ ?_) | with_reducible apply Follows.ite | split | dsimp only

theorem execAuxAnswer_follows {msk : Nat} (hmsk : msk ||| 8192 = msk) {z s : State} (status : Nat) (data : List Sys2Proof.Byte) (h :
    Follows msk z s) : ∃ nx, execAuxAnswer status data s = .next nx ∧ Follows msk z nx := by
  unfold execAuxAnswer; refine done_follows ?_
  repeat' first
    | with_reducible assumption | (intro _) | with_reducible apply State.modDp_follows (within hmsk (by decide))
    | with_reducible apply State.when_follows | split | dsimp only

theorem execAuxFwdTimeout_follows {msk : Nat} (hmsk : msk ||| 8194 = msk) {z s : State} (h : Follows msk z s) : ∃ nx, execAuxFwdTimeout
    s = .next nx ∧ Follows msk z nx := by
  unfold execAuxFwdTimeout; refine done_follows ?_
  repeat' first
    | with_reducible assumption | (intro _) | with_reducible apply State.dpiHpd_follows
    | with_reducible apply State.raise_follows (within hmsk (by decide))
    | with_reducible apply State.modDp_follows (within hmsk (by decide)) | with_reducible apply State.when_follows
    | with_reducible apply State.inc_follows | split | dsimp only

theorem State.dpoHpd_follows {msk : Nat} (hmsk : msk ||| 2 = msk) {z s : State} (level : Bool) (h : Follows msk z s) : Follows msk z
    (State.dpoHpd s level) := by
  unfold State.dpoHpd
  repeat' first
    | with_reducible assumption | (intro _) | with_reducible apply State.raise_follows (within hmsk (by decide))
    | with_reducible apply State.emit_follows | with_reducible apply State.flag_follows | with_reducible apply Follows.ite | split
    | dsimp only

theorem execMonitorHpdChange_follows {msk : Nat} (hmsk : msk ||| 8194 = msk) {z s : State} (atDpi : Bool) (level : Bool) (irq : Bool)
    (dpcd : List Sys2Proof.Byte) (edid : List Sys2Proof.Byte) (h : Follows msk z s) : ∃ nx, execMonitorHpdChange atDpi level irq dpcd
    edid s = .next nx ∧ Follows msk z nx := by
  unfold execMonitorHpdChange; refine done_follows ?_
  repeat' first
    | with_reducible assumption | (intro _) | with_reducible apply State.dpoHpd_follows (within hmsk (by decide))
    | with_reducible apply State.dpiHpd_follows | with_reducible apply State.modDp_follows (within hmsk (by decide))
    | with_reducible apply State.when_follows | with_reducible apply State.emit_follows | with_reducible apply Follows.ite | split
    | dsimp only

theorem State.dpaltRelease_follows {msk : Nat} (hmsk : msk ||| 8194 = msk) {z s : State} (h : Follows msk z s) : Follows msk z
    (State.dpaltRelease s) := by
  unfold State.dpaltRelease
  repeat' first
    | with_reducible assumption | (intro _) | with_reducible apply State.modDp_follows (within hmsk (by decide))
    | with_reducible apply State.raise_follows (within hmsk (by decide))
    | with_reducible apply State.dpoHpd_follows (within hmsk (by decide))
    | with_reducible apply State.dpoLink_follows (within hmsk (by decide)) | with_reducible apply State.emit_follows
    | with_reducible apply State.wr_follows | with_reducible apply Follows.ite | split | dsimp only

theorem State.dpaltEntered_follows {msk : Nat} (hmsk : msk ||| 8194 = msk) {z s : State} (v : Bool) (h : Follows msk z s) : Follows msk
    z (State.dpaltEntered s v) := by
  unfold State.dpaltEntered
  repeat' first
    | with_reducible assumption | (intro _) | with_reducible apply State.dpaltRelease_follows (within hmsk (by decide))
    | with_reducible apply State.modDp_follows (within hmsk (by decide))
    | with_reducible apply State.raise_follows (within hmsk (by decide)) | with_reducible apply State.flag_follows
    | with_reducible apply State.emit_follows | with_reducible apply State.wr_follows | with_reducible apply Follows.ite | split
    | dsimp only

theorem execDpaltEntered_follows {msk : Nat} (hmsk : msk ||| 532507 = msk) {z s : State} (p : Sys2Proof.Path) (v : Bool) (h : Follows
    msk z s) : ∃ nx, execDpaltEntered p v s = .next nx ∧ Follows msk z nx := by
  unfold execDpaltEntered; refine done_follows ?_
  repeat' first
    | with_reducible assumption | (intro _) | with_reducible apply State.writeOwn_follows (within hmsk (by decide))
    | with_reducible apply State.dpaltEntered_follows (within hmsk (by decide)) | with_reducible apply Follows.ite | split | dsimp only

theorem execDpaltSettleEnd_follows {msk : Nat} (hmsk : msk ||| 8194 = msk) {z s : State} (h : Follows msk z s) : ∃ nx,
    execDpaltSettleEnd s = .next nx ∧ Follows msk z nx := by
  unfold execDpaltSettleEnd; refine done_follows ?_
  repeat' first
    | with_reducible assumption | (intro _) | with_reducible apply State.dpoHpd_follows (within hmsk (by decide))
    | with_reducible apply State.modDp_follows (within hmsk (by decide)) | with_reducible apply State.when_follows | split | dsimp only

theorem State.dpaltHpd_follows {msk : Nat} (hmsk : msk ||| 2 = msk) {z s : State} (h : Follows msk z s) : Follows msk z (State.dpaltHpd
    s) := by
  unfold State.dpaltHpd
  repeat' first
    | with_reducible assumption | (intro _) | with_reducible apply State.dpoHpd_follows (within hmsk (by decide))
    | with_reducible apply State.when_follows | split | dsimp only

theorem cmdDpaltIrqHpd_follows {msk : Nat} {z t : State} (h : Follows msk z t) : Follows msk z ((cmdDpaltIrqHpd).act t) := by
  unfold cmdDpaltIrqHpd; dsimp only
  repeat' first
    | with_reducible assumption | (intro _) | with_reducible apply State.when_follows | with_reducible apply State.emit_follows | split
    | dsimp only

theorem execDpaltIrqHpd_follows {msk : Nat} (hmsk : msk ||| 524315 = msk) {z s : State} (p : Sys2Proof.Path) (h : Follows msk z s) : ∃
    nx, execDpaltIrqHpd p s = .next nx ∧ Follows msk z nx := by
  unfold execDpaltIrqHpd; refine done_follows ?_
  repeat' first
    | with_reducible assumption | (intro _) | with_reducible apply State.runCmd_follows (within hmsk (by decide))
    | with_reducible apply cmdDpaltIrqHpd_follows | split | dsimp only

theorem State.dpoOff_follows {msk : Nat} (hmsk : msk ||| 8194 = msk) {z s : State} (h : Follows msk z s) : Follows msk z (State.dpoOff
    s) := by
  unfold State.dpoOff
  repeat' first
    | with_reducible assumption | (intro _) | with_reducible apply State.dpoMode_follows
    | with_reducible apply State.dpaltRelease_follows (within hmsk (by decide))
    | with_reducible apply State.modDp_follows (within hmsk (by decide)) | with_reducible apply State.flag_follows | split | dsimp only

theorem execDpLinkTraining_follows {msk : Nat} (hmsk : msk ||| 8194 = msk) {z s : State} (dpo : Bool) (phase : Nat) (lanes : Nat) (rate
    : Nat) (fec : Bool) (h : Follows msk z s) : ∃ nx, execDpLinkTraining dpo phase lanes rate fec s = .next nx ∧ Follows msk z nx := by
  unfold execDpLinkTraining; refine done_follows ?_
  repeat' first
    | with_reducible assumption | (intro _) | with_reducible apply State.dpoLink_follows (within hmsk (by decide))
    | with_reducible apply State.applyRwp_follows | with_reducible apply State.raise_follows (within hmsk (by decide))
    | with_reducible apply State.dpiDown_follows | with_reducible apply State.when_follows | with_reducible apply State.wr_follows
    | with_reducible apply State.flag_follows | with_reducible apply Follows.ite | split | dsimp only

end Sys2Proof.Machine
end

