-- ==== Sys2Proof/Laws/FolDma.lean ====
section
/-!
SUPPORT. `Follows` for the operations and meanings of `Dma.lean`.
-/

namespace Sys2Proof.Machine

open Host (Outcome)

set_option linter.unusedTactic false
set_option linter.unreachableTactic false
set_option linter.unusedSimpArgs false
set_option linter.unusedVariables false

theorem State.modDma_follows {msk : Nat} (hmsk : msk ||| 2048 = msk) {z s : State} (f : DmaS → DmaS) (h : Follows msk z s) : Follows msk
    z (State.modDma s f) := by
  unfold State.modDma
  repeat' first
    | with_reducible assumption | (intro _) | simp only [Follows.dma_iff (within hmsk (by decide))] | split | dsimp only

theorem State.modChan_follows {msk : Nat} (hmsk : msk ||| 2048 = msk) {z s : State} (c : Nat) (f : Chan → Chan) (h : Follows msk z s) :
    Follows msk z (State.modChan s c f) := by
  unfold State.modChan
  repeat' first
    | with_reducible assumption | (intro _) | with_reducible apply State.modDma_follows (within hmsk (by decide)) | split | dsimp only

theorem State.tlbFill_follows {msk : Nat} (hmsk : msk ||| 2048 = msk) {z s : State} (e : TlbE) (h : Follows msk z s) : Follows msk z
    (State.tlbFill s e) := by
  unfold State.tlbFill
  repeat' first
    | with_reducible assumption | (intro _) | with_reducible apply State.modDma_follows (within hmsk (by decide))
    | with_reducible apply Follows.ite | split | dsimp only

theorem State.tlbTouch_follows {msk : Nat} (hmsk : msk ||| 2048 = msk) {z s : State} (e : TlbE) (h : Follows msk z s) : Follows msk z
    (State.tlbTouch s e) := by
  unfold State.tlbTouch
  repeat' first
    | with_reducible assumption | (intro _) | with_reducible apply State.modDma_follows (within hmsk (by decide)) | split | dsimp only

theorem State.invGo_follows {msk : Nat} (hmsk : msk ||| 2048 = msk) {z s : State} (h : Follows msk z s) : Follows msk z (State.invGo s)
    := by
  unfold State.invGo
  repeat' first
    | with_reducible assumption | (intro _) | with_reducible apply State.modDma_follows (within hmsk (by decide))
    | with_reducible apply State.wr_follows | split | dsimp only

theorem cmdInvGo_follows {msk : Nat} (hmsk : msk ||| 2048 = msk) {z t : State} (h : Follows msk z t) : Follows msk z ((cmdInvGo).act t)
    := by
  unfold cmdInvGo; dsimp only
  repeat' first
    | with_reducible assumption | (intro _) | with_reducible apply State.invGo_follows (within hmsk (by decide)) | split | dsimp only

theorem execInvGo_follows {msk : Nat} (hmsk : msk ||| 526363 = msk) {z s : State} (p : Sys2Proof.Path) (h : Follows msk z s) : ∃ nx,
    execInvGo p s = .next nx ∧ Follows msk z nx := by
  unfold execInvGo; refine done_follows ?_
  repeat' first
    | with_reducible assumption | (intro _) | with_reducible apply State.runCmd_follows (within hmsk (by decide))
    | with_reducible apply cmdInvGo_follows (within hmsk (by decide)) | split | dsimp only

theorem execInvalidationDone_follows {msk : Nat} (hmsk : msk ||| 2050 = msk) {z s : State} (h : Follows msk z s) : ∃ nx,
    execInvalidationDone s = .next nx ∧ Follows msk z nx := by
  unfold execInvalidationDone; refine done_follows ?_
  repeat' first
    | with_reducible assumption | (intro _) | with_reducible apply State.modDma_follows (within hmsk (by decide))
    | with_reducible apply State.raise_follows (within hmsk (by decide)) | with_reducible apply State.wr_follows
    | with_reducible apply Follows.ite | split | dsimp only

theorem execInvSyncRead_follows {msk : Nat} (hmsk : msk ||| 526363 = msk) {z s : State} (p : Sys2Proof.Path) (h : Follows msk z s) : ∃
    nx, execInvSyncRead p s = .next nx ∧ Follows msk z nx := by
  unfold execInvSyncRead; refine done_follows ?_
  repeat' first
    | with_reducible assumption | (intro _) | with_reducible apply State.gate_follows (within hmsk (by decide))
    | with_reducible apply State.readBack_follows (within hmsk (by decide))
    | with_reducible apply State.modDma_follows (within hmsk (by decide)) | with_reducible apply Follows.ite | split | dsimp only

theorem State.invSyncComplete_follows {msk : Nat} (hmsk : msk ||| 2049 = msk) {z s : State} (late : Bool) (h : Follows msk z s) :
    Follows msk z (State.invSyncComplete s late) := by
  unfold State.invSyncComplete
  repeat' first
    | with_reducible assumption | (intro _) | with_reducible apply State.readBack_follows (within hmsk (by decide))
    | with_reducible apply State.modDma_follows (within hmsk (by decide)) | with_reducible apply State.when_follows
    | with_reducible apply Follows.ite | split | dsimp only

theorem State.showChan_follows {msk : Nat} {z s : State} (c : Nat) (h : Follows msk z s) : Follows msk z (State.showChan s c) := by
  unfold State.showChan
  repeat' first
    | with_reducible assumption | (intro _) | with_reducible apply State.wr_follows | with_reducible apply State.flag_follows | split
    | dsimp only

theorem State.chSafe_follows {msk : Nat} {z s : State} (c : Nat) (h : Follows msk z s) : Follows msk z (State.chSafe s c) := by
  unfold State.chSafe
  repeat' first
    | with_reducible assumption | (intro _) | with_reducible apply State.applyFields_follows | with_reducible apply State.when_follows
    | split | dsimp only

theorem State.showFf_follows {msk : Nat} {z s : State} (h : Follows msk z s) : Follows msk z (State.showFf s) := by
  unfold State.showFf
  repeat' first
    | with_reducible assumption | (intro _) | with_reducible apply State.wr_follows | with_reducible apply foldS_follows | split
    | dsimp only

theorem State.faultRecord_follows {msk : Nat} (hmsk : msk ||| 2050 = msk) {z s : State} (rec_ : List Sys2Proof.Byte) (h : Follows msk z
    s) : Follows msk z (State.faultRecord s rec_) := by
  unfold State.faultRecord
  repeat' first
    | with_reducible assumption | (intro _) | with_reducible apply State.showFf_follows
    | with_reducible apply State.modDma_follows (within hmsk (by decide))
    | with_reducible apply State.raise_follows (within hmsk (by decide)) | with_reducible apply State.inc_follows
    | with_reducible apply State.wr_follows | with_reducible apply State.emit_follows | with_reducible apply State.incSat_follows
    | with_reducible apply Follows.ite | split | dsimp only

theorem State.halt_follows {msk : Nat} (hmsk : msk ||| 2 = msk) {z s : State} (c : Nat) (cause : Nat) (h : Follows msk z s) : Follows
    msk z (State.halt s c cause) := by
  unfold State.halt
  repeat' first
    | with_reducible assumption | (intro _) | with_reducible apply State.raise_follows (within hmsk (by decide))
    | with_reducible apply State.wr_follows | with_reducible apply State.flag_follows | with_reducible apply State.setBit_follows | split
    | dsimp only

theorem State.xlFault_follows {msk : Nat} (hmsk : msk ||| 2050 = msk) {z s : State} (c : Nat) (iova : Nat) (cause : Nat) (level : Nat)
    (write : Bool) (desc : Bool) (epoch : Nat) (h : Follows msk z s) : Follows msk z (State.xlFault s c iova cause level write desc
    epoch) := by
  unfold State.xlFault
  repeat' first
    | with_reducible assumption | (intro _) | with_reducible apply State.modChan_follows (within hmsk (by decide))
    | with_reducible apply State.halt_follows (within hmsk (by decide))
    | with_reducible apply State.raise_follows (within hmsk (by decide))
    | with_reducible apply State.faultRecord_follows (within hmsk (by decide)) | with_reducible apply Follows.ite | split | dsimp only

theorem State.startWalk_follows {msk : Nat} (hmsk : msk ||| 2048 = msk) {z s : State} (c : Nat) (iova : Nat) (write : Bool) (desc :
    Bool) (h : Follows msk z s) : Follows msk z (State.startWalk s c iova write desc) := by
  unfold State.startWalk
  repeat' first
    | with_reducible assumption | (intro _) | with_reducible apply State.modChan_follows (within hmsk (by decide))
    | with_reducible apply State.emit_follows | with_reducible apply State.inc_follows | split | dsimp only

theorem State.keepXl_follows {msk : Nat} (hmsk : msk ||| 2048 = msk) {z s : State} (c : Nat) (x : Xl) (h : Follows msk z s) : Follows
    msk z (State.keepXl s c x) := by
  unfold State.keepXl
  repeat' first
    | with_reducible assumption | (intro _) | with_reducible apply State.modChan_follows (within hmsk (by decide)) | split | dsimp only

theorem State.xlate_follows {msk : Nat} (hmsk : msk ||| 2050 = msk) {z s : State} (c : Nat) (iova : Nat) (write : Bool) (desc : Bool) (h
    : Follows msk z s) : Follows msk z (State.xlate s c iova write desc) := by
  unfold State.xlate
  repeat' first
    | with_reducible assumption | (intro _) | with_reducible apply State.xlFault_follows (within hmsk (by decide))
    | with_reducible apply State.keepXl_follows (within hmsk (by decide))
    | with_reducible apply State.startWalk_follows (within hmsk (by decide))
    | with_reducible apply State.tlbTouch_follows (within hmsk (by decide)) | with_reducible apply State.inc_follows
    | with_reducible apply Follows.ite | split | dsimp only

theorem State.xlateAll_follows {msk : Nat} (hmsk : msk ||| 2050 = msk) {z s : State} (c : Nat) (write : Bool) (desc : Bool) (l : List
    Nat) (h : Follows msk z s) : Follows msk z (State.xlateAll s c write desc l) := by
  unfold State.xlateAll
  repeat' first
    | with_reducible assumption | (intro _) | with_reducible apply State.xlate_follows (within hmsk (by decide))
    | with_reducible apply foldS_follows | split | dsimp only

theorem State.walkAgain_follows {msk : Nat} (hmsk : msk ||| 2050 = msk) {z s : State} (c : Nat) (w : Walk) (h : Follows msk z s) :
    Follows msk z (State.walkAgain s c w) := by
  unfold State.walkAgain
  repeat' first
    | with_reducible assumption | (intro _) | with_reducible apply State.xlate_follows (within hmsk (by decide))
    | with_reducible apply State.modChan_follows (within hmsk (by decide)) | split | dsimp only

theorem State.walkRedo_follows {msk : Nat} (hmsk : msk ||| 2050 = msk) {z s : State} (c : Nat) (w : Walk) (h : Follows msk z s) :
    Follows msk z (State.walkRedo s c w) := by
  unfold State.walkRedo
  repeat' first
    | with_reducible assumption | (intro _) | with_reducible apply State.startWalk_follows (within hmsk (by decide))
    | with_reducible apply State.walkAgain_follows (within hmsk (by decide)) | with_reducible apply State.inc_follows
    | with_reducible apply State.wr_follows | with_reducible apply Follows.ite | split | dsimp only

theorem execWalkReadComplete_follows {msk : Nat} (hmsk : msk ||| 2050 = msk) {z s : State} (c : Nat) (err : Bool) (entry : Nat) (h :
    Follows msk z s) : ∃ nx, execWalkReadComplete c err entry s = .next nx ∧ Follows msk z nx := by
  unfold execWalkReadComplete; refine done_follows ?_
  repeat' first
    | with_reducible assumption | (intro _) | with_reducible apply State.xlFault_follows (within hmsk (by decide))
    | with_reducible apply State.walkRedo_follows (within hmsk (by decide))
    | with_reducible apply State.walkAgain_follows (within hmsk (by decide))
    | with_reducible apply State.keepXl_follows (within hmsk (by decide))
    | with_reducible apply State.tlbFill_follows (within hmsk (by decide))
    | with_reducible apply State.modChan_follows (within hmsk (by decide)) | with_reducible apply State.emit_follows
    | with_reducible apply Follows.ite | split | dsimp only

theorem execWalkTimeout_follows {msk : Nat} (hmsk : msk ||| 2050 = msk) {z s : State} (c : Nat) (h : Follows msk z s) : ∃ nx,
    execWalkTimeout c s = .next nx ∧ Follows msk z nx := by
  unfold execWalkTimeout; refine done_follows ?_
  repeat' first
    | with_reducible assumption | (intro _) | with_reducible apply State.walkRedo_follows (within hmsk (by decide))
    | with_reducible apply State.walkAgain_follows (within hmsk (by decide))
    | with_reducible apply State.xlFault_follows (within hmsk (by decide)) | with_reducible apply Follows.ite | split | dsimp only

theorem State.descIrq_follows {msk : Nat} (hmsk : msk ||| 2 = msk) {z s : State} (c : Nat) (h : Follows msk z s) : Follows msk z
    (State.descIrq s c) := by
  unfold State.descIrq
  repeat' first
    | with_reducible assumption | (intro _) | with_reducible apply State.eventBit_follows (within hmsk (by decide))
    | with_reducible apply State.raise_follows (within hmsk (by decide)) | with_reducible apply State.emit_follows
    | with_reducible apply Follows.ite | split | dsimp only

theorem State.headPast_follows {msk : Nat} (hmsk : msk ||| 2048 = msk) {z s : State} (c : Nat) (d : Desc) (r : List (Desc × Nat × Nat))
    (h : Follows msk z s) : Follows msk z (State.headPast s c d r) := by
  unfold State.headPast
  repeat' first
    | with_reducible assumption | (intro _) | with_reducible apply State.modChan_follows (within hmsk (by decide))
    | with_reducible apply State.wr_follows | split | dsimp only

theorem State.wbFlush_follows {msk : Nat} (hmsk : msk ||| 2050 = msk) {z s : State} (c : Nat) (x2 : Nat) (h : Follows msk z s) : Follows
    msk z (State.wbFlush s c x2) := by
  induction x2 generalizing s with
  | zero =>
    unfold State.wbFlush
    repeat' first
      | with_reducible assumption | (intro _)
      | with_reducible apply State.descIrq_follows (within hmsk (by decide))
      | with_reducible apply State.headPast_follows (within hmsk (by decide)) | with_reducible apply State.showChan_follows
      | with_reducible apply State.xlate_follows (within hmsk (by decide)) | with_reducible apply State.emit_follows
      | with_reducible apply State.when_follows | with_reducible apply Follows.ite | split | dsimp only
  | succ n ih =>
    unfold State.wbFlush
    repeat' first
      | with_reducible assumption | (intro _) | with_reducible apply ih
      | with_reducible apply State.descIrq_follows (within hmsk (by decide))
      | with_reducible apply State.headPast_follows (within hmsk (by decide)) | with_reducible apply State.showChan_follows
      | with_reducible apply State.xlate_follows (within hmsk (by decide)) | with_reducible apply State.emit_follows
      | with_reducible apply State.when_follows | with_reducible apply Follows.ite | split | dsimp only

theorem State.retire_follows {msk : Nat} (hmsk : msk ||| 2050 = msk) {z s : State} (c : Nat) (d : Desc) (flags : Nat) (ts : Nat) (h :
    Follows msk z s) : Follows msk z (State.retire s c d flags ts) := by
  unfold State.retire
  repeat' first
    | with_reducible assumption | (intro _) | with_reducible apply State.modChan_follows (within hmsk (by decide))
    | with_reducible apply State.wbFlush_follows (within hmsk (by decide)) | with_reducible apply Follows.ite | split | dsimp only

theorem State.prepH2t_follows {msk : Nat} (hmsk : msk ||| 2050 = msk) {z s : State} (c : Nat) (h : Follows msk z s) : Follows msk z
    (State.prepH2t s c) := by
  unfold State.prepH2t
  repeat' first
    | with_reducible assumption | (intro _) | with_reducible apply State.xlateAll_follows (within hmsk (by decide)) | split | dsimp only

theorem State.skipFrame_follows {msk : Nat} (hmsk : msk ||| 2050 = msk) {z s : State} (c : Nat) (code : Nat) (h : Follows msk z s) :
    Follows msk z (State.skipFrame s c code) := by
  unfold State.skipFrame
  repeat' first
    | with_reducible assumption | (intro _) | with_reducible apply State.modChan_follows (within hmsk (by decide))
    | with_reducible apply State.retire_follows (within hmsk (by decide)) | with_reducible apply foldS_follows
    | with_reducible apply Follows.ite | split | dsimp only

theorem State.prepT2hPage_follows {msk : Nat} (hmsk : msk ||| 2050 = msk) {z s : State} (c : Nat) (h : Follows msk z s) : Follows msk z
    (State.prepT2hPage s c) := by
  unfold State.prepT2hPage
  repeat' first
    | with_reducible assumption | (intro _) | with_reducible apply State.xlate_follows (within hmsk (by decide)) | split | dsimp only

theorem State.ringShort_follows {msk : Nat} (hmsk : msk ||| 2050 = msk) {z s : State} (c : Nat) (h : Follows msk z s) : Follows msk z
    (State.ringShort s c) := by
  unfold State.ringShort
  repeat' first
    | with_reducible assumption | (intro _) | with_reducible apply State.modChan_follows (within hmsk (by decide))
    | with_reducible apply State.retire_follows (within hmsk (by decide)) | with_reducible apply State.freshVal_follows
    | with_reducible apply foldS_follows | simp only [RFollows.pair_iff]
    | with_reducible refine RFollows.of_eq ?_ (by with_reducible assumption)
    | with_reducible refine RFollows.snd (State.freshVal_follows ?_) | with_reducible apply Follows.ite | split | dsimp only

theorem execDescriptorFetch_follows {msk : Nat} (hmsk : msk ||| 2050 = msk) {z s : State} (c : Nat) (d : List Sys2Proof.Byte) (h :
    Follows msk z s) : ∃ nx, execDescriptorFetch c d s = .next nx ∧ Follows msk z nx := by
  unfold execDescriptorFetch; refine done_follows ?_
  repeat' first
    | with_reducible assumption | (intro _) | with_reducible apply State.chSafe_follows
    | with_reducible apply State.ringShort_follows (within hmsk (by decide))
    | with_reducible apply State.xlate_follows (within hmsk (by decide))
    | with_reducible apply State.modChan_follows (within hmsk (by decide)) | with_reducible apply State.showChan_follows
    | with_reducible apply State.retire_follows (within hmsk (by decide))
    | with_reducible apply State.prepT2hPage_follows (within hmsk (by decide))
    | with_reducible apply State.prepH2t_follows (within hmsk (by decide)) | with_reducible apply State.when_follows
    | with_reducible apply State.emit_follows | with_reducible apply Follows.ite | split | dsimp only

theorem State.dropForeign_follows {msk : Nat} (hmsk : msk ||| 330 = msk) {z s : State} (h : Follows msk z s) : Follows msk z
    (State.dropForeign s) := by
  unfold State.dropForeign
  repeat' first
    | with_reducible assumption | (intro _) | with_reducible apply State.raise_follows (within hmsk (by decide))
    | with_reducible apply State.discardFrame_follows (within hmsk (by decide)) | with_reducible apply foldS_follows
    | with_reducible apply State.when_follows | with_reducible apply State.inc_follows | split | dsimp only

theorem State.writePieces_follows {msk : Nat} {z s : State} (c : Nat) (x2 : List (Nat × Nat)) (x3 : List Sys2Proof.Byte) (h : Follows
    msk z s) : Follows msk z (State.writePieces s c x2 x3) := by
  induction x2 generalizing s x3 with
  | nil =>
    unfold State.writePieces
    repeat' first
      | with_reducible assumption | (intro _) | with_reducible apply State.emit_follows
      | with_reducible apply foldS_follows | split | dsimp only
  | cons y l ih =>
    unfold State.writePieces
    repeat' first
      | with_reducible assumption | (intro _) | with_reducible apply ih | with_reducible apply State.emit_follows
      | with_reducible apply foldS_follows | split | dsimp only

theorem State.commitT2h_follows {msk : Nat} (hmsk : msk ||| 2378 = msk) {z s : State} (c : Nat) (q : Nat) (h : Follows msk z s) :
    Follows msk z (State.commitT2h s c q) := by
  unfold State.commitT2h
  repeat' first
    | with_reducible assumption | (intro _) | with_reducible apply State.takeCell_follows (within hmsk (by decide))
    | with_reducible apply State.countOut_follows | with_reducible apply State.writePieces_follows
    | with_reducible apply State.modChan_follows (within hmsk (by decide))
    | with_reducible apply State.retire_follows (within hmsk (by decide)) | with_reducible apply State.showChan_follows
    | with_reducible apply State.inc_follows | with_reducible apply foldS_follows | simp only [LFollows.pair_iff]
    | with_reducible refine LFollows.of_eq ?_ (by with_reducible assumption)
    | with_reducible refine LFollows.fst (State.takeCell_follows (within hmsk (by decide)) _ _ _ ?_ ?_) | with_reducible apply Follows.ite
    | with_reducible apply LFollows.ite | split | dsimp only

theorem State.commitH2t_follows {msk : Nat} (hmsk : msk ||| 6986 = msk) {z s : State} (c : Nat) (bytes : List Sys2Proof.Byte) (h :
    Follows msk z s) : Follows msk z (State.commitH2t s c bytes) := by
  unfold State.commitH2t
  repeat' first
    | with_reducible assumption | (intro _) | with_reducible apply State.modChan_follows (within hmsk (by decide))
    | with_reducible apply State.showChan_follows | with_reducible apply State.skipFrame_follows (within hmsk (by decide))
    | with_reducible apply State.ingress_follows (within hmsk (by decide))
    | with_reducible apply State.retire_follows (within hmsk (by decide)) | with_reducible apply State.chSafe_follows
    | with_reducible apply State.prepH2t_follows (within hmsk (by decide)) | with_reducible apply foldS_follows
    | with_reducible apply State.emit_follows | with_reducible apply State.inc_follows | with_reducible apply Follows.ite | split
    | dsimp only

theorem State.prepT2h_follows {msk : Nat} (hmsk : msk ||| 2050 = msk) {z s : State} (c : Nat) (h : Follows msk z s) : Follows msk z
    (State.prepT2h s c) := by
  unfold State.prepT2h
  repeat' first
    | with_reducible assumption | (intro _) | with_reducible apply State.xlateAll_follows (within hmsk (by decide))
    | with_reducible apply State.prepT2hPage_follows (within hmsk (by decide)) | split | dsimp only

theorem State.unhalt_follows {msk : Nat} (hmsk : msk ||| 2048 = msk) {z s : State} (c : Nat) (h : Follows msk z s) : Follows msk z
    (State.unhalt s c) := by
  unfold State.unhalt
  repeat' first
    | with_reducible assumption | (intro _) | with_reducible apply State.modChan_follows (within hmsk (by decide))
    | with_reducible apply State.setBit_follows | with_reducible apply State.flag_follows | split | dsimp only

theorem State.chStopEnd_follows {msk : Nat} (hmsk : msk ||| 2048 = msk) {z s : State} (c : Nat) (h : Follows msk z s) : Follows msk z
    (State.chStopEnd s c) := by
  unfold State.chStopEnd
  repeat' first
    | with_reducible assumption | (intro _) | with_reducible apply State.applyFields_follows
    | with_reducible apply State.modChan_follows (within hmsk (by decide)) | with_reducible apply State.showChan_follows
    | with_reducible apply State.when_follows | with_reducible apply State.flag_follows | with_reducible apply State.wr_follows
    | with_reducible apply Follows.ite | split | dsimp only

theorem State.chStop_follows {msk : Nat} (hmsk : msk ||| 2050 = msk) {z s : State} (c : Nat) (h : Follows msk z s) : Follows msk z
    (State.chStop s c) := by
  unfold State.chStop
  repeat' first
    | with_reducible assumption | (intro _) | with_reducible apply State.chStopEnd_follows (within hmsk (by decide))
    | with_reducible apply State.wbFlush_follows (within hmsk (by decide))
    | with_reducible apply State.modChan_follows (within hmsk (by decide))
    | with_reducible apply State.unhalt_follows (within hmsk (by decide))
    | with_reducible apply State.retire_follows (within hmsk (by decide)) | with_reducible apply State.wr_follows
    | with_reducible apply foldS_follows | with_reducible apply Follows.ite | split | dsimp only

theorem State.chStops_follows {msk : Nat} (hmsk : msk ||| 2050 = msk) {z s : State} (t2h : Bool) (h : Follows msk z s) : Follows msk z
    (State.chStops s t2h) := by
  unfold State.chStops
  repeat' first
    | with_reducible assumption | (intro _) | with_reducible apply State.chStop_follows (within hmsk (by decide))
    | with_reducible apply foldS_follows | split | dsimp only

theorem execDmaCellBoundary_follows {msk : Nat} (hmsk : msk ||| 6986 = msk) {z s : State} (t2h : Bool) (bytes : List Sys2Proof.Byte) (h
    : Follows msk z s) : ∃ nx, execDmaCellBoundary t2h bytes s = .next nx ∧ Follows msk z nx := by
  unfold execDmaCellBoundary; refine done_follows ?_
  repeat' first
    | with_reducible assumption | (intro _) | with_reducible apply State.dropForeign_follows (within hmsk (by decide))
    | with_reducible apply State.chStops_follows (within hmsk (by decide)) | with_reducible apply State.chSafe_follows
    | with_reducible apply State.wbFlush_follows (within hmsk (by decide))
    | with_reducible apply State.xlateAll_follows (within hmsk (by decide))
    | with_reducible apply State.modDma_follows (within hmsk (by decide))
    | with_reducible apply State.prepT2h_follows (within hmsk (by decide))
    | with_reducible apply State.commitT2h_follows (within hmsk (by decide))
    | with_reducible apply State.commitH2t_follows (within hmsk (by decide)) | with_reducible apply State.when_follows
    | with_reducible apply foldS_follows | with_reducible apply State.flag_follows | with_reducible apply Follows.ite | split | dsimp only

theorem execDmaTailWrite_follows {msk : Nat} (hmsk : msk ||| 524315 = msk) {z s : State} (p : Path) (r : Sys2Proof.TailReg) (v : Nat) (h :
    Follows msk z s) : ∃ nx, execDmaTailWrite p r v s = .next nx ∧ Follows msk z nx := by
  unfold execDmaTailWrite; refine done_follows ?_
  repeat' first
    | with_reducible assumption | (intro _) | with_reducible apply State.writeOwn_follows (within hmsk (by decide))
    | with_reducible apply State.showChan_follows | with_reducible apply State.when_follows | with_reducible apply State.wr_follows
    | with_reducible apply Follows.ite | split | dsimp only

theorem State.chWriteEn_follows {msk : Nat} (hmsk : msk ||| 2050 = msk) {z s : State} (c : Nat) (en : Bool) (h : Follows msk z s) :
    Follows msk z (State.chWriteEn s c en) := by
  unfold State.chWriteEn
  repeat' first
    | with_reducible assumption | (intro _) | with_reducible apply State.applyFields_follows
    | with_reducible apply State.chStop_follows (within hmsk (by decide)) | with_reducible apply State.flag_follows
    | with_reducible apply State.wr_follows | with_reducible apply State.when_follows | with_reducible apply Follows.ite | split
    | dsimp only

theorem State.chQuit_follows {msk : Nat} (hmsk : msk ||| 2050 = msk) {z s : State} (c : Nat) (h : Follows msk z s) : Follows msk z
    (State.chQuit s c) := by
  unfold State.chQuit
  repeat' first
    | with_reducible assumption | (intro _) | with_reducible apply State.chStopEnd_follows (within hmsk (by decide))
    | with_reducible apply State.modChan_follows (within hmsk (by decide))
    | with_reducible apply State.chStop_follows (within hmsk (by decide)) | with_reducible apply State.when_follows | split | dsimp only

theorem State.chStarted_follows {msk : Nat} {z s : State} (c : Nat) (h : Follows msk z s) : Follows msk z (State.chStarted s c) := by
  unfold State.chStarted
  repeat' first
    | with_reducible assumption | (intro _) | with_reducible apply State.showChan_follows | with_reducible apply State.when_follows
    | with_reducible apply State.wr_follows | split | dsimp only

theorem execDmaChannelDisable_follows {msk : Nat} (hmsk : msk ||| 526363 = msk) {z s : State} (p : Sys2Proof.Path) (c : Nat) (h :
    Follows msk z s) : ∃ nx, execDmaChannelDisable p c s = .next nx ∧ Follows msk z nx := by
  unfold execDmaChannelDisable; refine done_follows ?_
  repeat' first
    | with_reducible assumption | (intro _) | with_reducible apply State.writeOwn_follows (within hmsk (by decide))
    | with_reducible apply State.chWriteEn_follows (within hmsk (by decide)) | with_reducible apply State.when_follows | split
    | dsimp only

theorem State.resume_follows {msk : Nat} (hmsk : msk ||| 524315 = msk) {z s : State} (p : Sys2Proof.Path) (c : Nat) (action : Nat) (act
    : State → State) (h : Follows msk z s) (hact : ∀ t, Follows msk z t → Follows msk z (act t)) : Follows msk z (State.resume s p c
    action act) := by
  unfold State.resume
  repeat' first
    | with_reducible assumption | (intro _) | with_reducible apply hact
    | with_reducible apply State.writeOwn_follows (within hmsk (by decide)) | simp only [LFollows.pair_iff]
    | with_reducible refine LFollows.of_eq ?_ (by with_reducible assumption) | split | dsimp only

theorem State.resumeRetry_follows {msk : Nat} (hmsk : msk ||| 2050 = msk) {z s : State} (c : Nat) (h : Follows msk z s) : Follows msk z
    (State.resumeRetry s c) := by
  unfold State.resumeRetry
  repeat' first
    | with_reducible assumption | (intro _) | with_reducible apply State.unhalt_follows (within hmsk (by decide))
    | with_reducible apply State.modDma_follows (within hmsk (by decide))
    | with_reducible apply State.xlate_follows (within hmsk (by decide)) | with_reducible apply Follows.ite | split | dsimp only

theorem State.passLost_follows {msk : Nat} (hmsk : msk ||| 2050 = msk) {z s : State} (c : Nat) (idx : Nat) (wb : Bool) (h : Follows msk
    z s) : Follows msk z (State.passLost s c idx wb) := by
  unfold State.passLost
  repeat' first
    | with_reducible assumption | (intro _) | with_reducible apply State.modChan_follows (within hmsk (by decide))
    | with_reducible apply State.wbFlush_follows (within hmsk (by decide)) | with_reducible apply Follows.ite | split | dsimp only

theorem State.resumeSkip_follows {msk : Nat} (hmsk : msk ||| 2050 = msk) {z s : State} (c : Nat) (h : Follows msk z s) : Follows msk z
    (State.resumeSkip s c) := by
  unfold State.resumeSkip
  repeat' first
    | with_reducible assumption | (intro _) | with_reducible apply State.unhalt_follows (within hmsk (by decide))
    | with_reducible apply State.modChan_follows (within hmsk (by decide))
    | with_reducible apply State.retire_follows (within hmsk (by decide))
    | with_reducible apply State.skipFrame_follows (within hmsk (by decide)) | with_reducible apply State.showChan_follows
    | with_reducible apply State.passLost_follows (within hmsk (by decide)) | with_reducible apply foldS_follows
    | with_reducible apply State.when_follows | with_reducible apply Follows.ite | split | dsimp only

theorem State.resumeAct_follows {msk : Nat} (hmsk : msk ||| 2050 = msk) {z s : State} (c : Nat) (action : Nat) (h : Follows msk z s) :
    Follows msk z (State.resumeAct s c action) := by
  unfold State.resumeAct
  repeat' first
    | with_reducible assumption | (intro _) | with_reducible apply State.resumeRetry_follows (within hmsk (by decide))
    | with_reducible apply State.resumeSkip_follows (within hmsk (by decide))
    | with_reducible apply State.chWriteEn_follows (within hmsk (by decide)) | with_reducible apply Follows.ite | split | dsimp only

theorem execResumeRetry_follows {msk : Nat} (hmsk : msk ||| 526363 = msk) {z s : State} (p : Sys2Proof.Path) (c : Nat) (h : Follows msk
    z s) : ∃ nx, execResumeRetry p c s = .next nx ∧ Follows msk z nx := by
  unfold execResumeRetry; refine done_follows ?_
  repeat' first
    | with_reducible assumption | (intro _) | with_reducible apply State.resume_follows (within hmsk (by decide))
    | with_reducible apply State.resumeAct_follows (within hmsk (by decide)) | with_reducible apply State.when_follows | split
    | dsimp only

theorem execResumeSkip_follows {msk : Nat} (hmsk : msk ||| 526363 = msk) {z s : State} (p : Sys2Proof.Path) (c : Nat) (h : Follows msk z
    s) : ∃ nx, execResumeSkip p c s = .next nx ∧ Follows msk z nx := by
  unfold execResumeSkip; refine done_follows ?_
  repeat' first
    | with_reducible assumption | (intro _) | with_reducible apply State.resume_follows (within hmsk (by decide))
    | with_reducible apply State.resumeAct_follows (within hmsk (by decide)) | with_reducible apply State.when_follows | split
    | dsimp only

theorem execResumeStop_follows {msk : Nat} (hmsk : msk ||| 526363 = msk) {z s : State} (p : Sys2Proof.Path) (c : Nat) (h : Follows msk z
    s) : ∃ nx, execResumeStop p c s = .next nx ∧ Follows msk z nx := by
  unfold execResumeStop; refine done_follows ?_
  repeat' first
    | with_reducible assumption | (intro _) | with_reducible apply State.resume_follows (within hmsk (by decide))
    | with_reducible apply State.resumeAct_follows (within hmsk (by decide)) | with_reducible apply State.when_follows | split
    | dsimp only

theorem execFaultFifoPop_follows {msk : Nat} (hmsk : msk ||| 526363 = msk) {z s : State} (p : Sys2Proof.Path) (h : Follows msk z s) : ∃
    nx, execFaultFifoPop p s = .next nx ∧ Follows msk z nx := by
  unfold execFaultFifoPop; refine done_follows ?_
  repeat' first
    | with_reducible assumption | (intro _) | with_reducible apply State.readOwn_follows (within hmsk (by decide))
    | with_reducible apply State.showFf_follows | with_reducible apply State.modDma_follows (within hmsk (by decide)) | split | dsimp only

theorem State.dmaCtxFault_follows {msk : Nat} (hmsk : msk ||| 2 = msk) {z s : State} (c : Nat) (h : Follows msk z s) : Follows msk z
    (State.dmaCtxFault s c) := by
  unfold State.dmaCtxFault
  repeat' first
    | with_reducible assumption | (intro _) | with_reducible apply State.halt_follows (within hmsk (by decide))
    | with_reducible apply foldS_follows | with_reducible apply State.when_follows | with_reducible apply Follows.ite | split | dsimp only

end Sys2Proof.Machine
end

