-- ==== Sys2Proof/Laws/FolPowerOps.lean ====
section
/-!
SUPPORT. `Follows` for the operations and meanings of `PowerOps.lean`.
-/

namespace Sys2Proof.Machine

open Host (Outcome)

set_option linter.unusedTactic false
set_option linter.unreachableTactic false
set_option linter.unusedSimpArgs false
set_option linter.unusedVariables false

theorem State.modPwr_follows {msk : Nat} (hmsk : msk ||| 16 = msk) {z s : State} (f : PowerS → PowerS) (h : Follows msk z s) : Follows
    msk z (State.modPwr s f) := by
  unfold State.modPwr
  repeat' first
    | with_reducible assumption | (intro _) | simp only [Follows.pwr_iff (within hmsk (by decide))] | split | dsimp only

theorem State.powerRecord_follows {msk : Nat} (hmsk : msk ||| 2 = msk) {z s : State} (page : Nat) (bit : Nat) (h : Follows msk z s) :
    Follows msk z (State.powerRecord s page bit) := by
  unfold State.powerRecord
  repeat' first
    | with_reducible assumption | (intro _) | with_reducible apply State.sysRecord_follows (within hmsk (by decide)) | split | dsimp only

theorem State.domOffReq_follows {msk : Nat} (hmsk : msk ||| 1 = msk) {z s : State} (d : Nat) (h : Follows msk z s) : Follows msk z
    (State.domOffReq s d) := by
  unfold State.domOffReq
  repeat' first
    | with_reducible assumption | (intro _) | with_reducible apply State.setDom_follows (within hmsk (by decide))
    | with_reducible apply State.domFall_follows (within hmsk (by decide)) | with_reducible apply Follows.ite | split | dsimp only

theorem State.voutWrite_follows {msk : Nat} {z s : State} (code : Nat) (h : Follows msk z s) : Follows msk z (State.voutWrite s code) :=
    by
  unfold State.voutWrite
  repeat' first
    | with_reducible assumption | (intro _) | with_reducible apply State.emit_follows | split | dsimp only

theorem State.vRequest_follows {msk : Nat} (hmsk : msk ||| 16 = msk) {z s : State} (code : Nat) (h : Follows msk z s) : Follows msk z
    (State.vRequest s code) := by
  unfold State.vRequest
  repeat' first
    | with_reducible assumption | (intro _) | with_reducible apply State.modPwr_follows (within hmsk (by decide))
    | with_reducible apply State.voutWrite_follows | with_reducible apply State.wr_follows | with_reducible apply State.flag_follows
    | with_reducible apply State.incSat_follows | with_reducible apply Follows.ite | split | dsimp only

theorem State.vEnd_follows {msk : Nat} (hmsk : msk ||| 16 = msk) {z s : State} (h : Follows msk z s) : Follows msk z (State.vEnd s) := by
  unfold State.vEnd
  repeat' first
    | with_reducible assumption | (intro _) | with_reducible apply State.vRequest_follows (within hmsk (by decide))
    | with_reducible apply State.modPwr_follows (within hmsk (by decide)) | with_reducible apply State.flag_follows | split | dsimp only

theorem State.vFail_follows {msk : Nat} (hmsk : msk ||| 18 = msk) {z s : State} (cause : Nat) (h : Follows msk z s) : Follows msk z
    (State.vFail s cause) := by
  unfold State.vFail
  repeat' first
    | with_reducible assumption | (intro _) | with_reducible apply State.voutWrite_follows
    | with_reducible apply State.modPwr_follows (within hmsk (by decide))
    | with_reducible apply State.vEnd_follows (within hmsk (by decide))
    | with_reducible apply State.powerRecord_follows (within hmsk (by decide))
    | with_reducible apply State.raise_follows (within hmsk (by decide)) | with_reducible apply State.wr_follows
    | with_reducible apply State.flag_follows | with_reducible apply State.incSat_follows | with_reducible apply Follows.ite | split
    | dsimp only

theorem State.vAbandon_follows {msk : Nat} (hmsk : msk ||| 16 = msk) {z s : State} (h : Follows msk z s) : Follows msk z (State.vAbandon
    s) := by
  unfold State.vAbandon
  repeat' first
    | with_reducible assumption | (intro _) | with_reducible apply State.modPwr_follows (within hmsk (by decide))
    | with_reducible apply State.when_follows | with_reducible apply State.wr_follows | with_reducible apply State.flag_follows | split
    | dsimp only

end Sys2Proof.Machine
end

