-- ==== Sys2Proof/Laws/FolUsbOps.lean ====
section
/-!
SUPPORT. `Follows` for the operations and meanings of `UsbOps.lean`.
-/

namespace Sys2Proof.Machine

open Host (Outcome)

set_option linter.unusedTactic false
set_option linter.unreachableTactic false
set_option linter.unusedSimpArgs false
set_option linter.unusedVariables false

theorem State.modUsb_follows {msk : Nat} (hmsk : msk ||| 16384 = msk) {z s : State} (f : UsbS → UsbS) (h : Follows msk z s) : Follows
    msk z (State.modUsb s f) := by
  unfold State.modUsb
  repeat' first
    | with_reducible assumption | (intro _) | simp only [Follows.usb_iff (within hmsk (by decide))] | split | dsimp only

theorem State.usbUp_follows {msk : Nat} (hmsk : msk ||| 4938 = msk) {z s : State} (sub : Nat) (b : List Sys2Proof.Byte) (h : Follows msk
    z s) : Follows msk z (State.usbUp s sub b) := by
  unfold State.usbUp
  repeat' first
    | with_reducible assumption | (intro _) | with_reducible apply State.ingress_follows (within hmsk (by decide)) | split | dsimp only

theorem State.hubMsg_follows {msk : Nat} (hmsk : msk ||| 4938 = msk) {z s : State} (p : Nat) (b : List Sys2Proof.Byte) (h : Follows msk
    z s) : Follows msk z (State.hubMsg s p b) := by
  unfold State.hubMsg
  repeat' first
    | with_reducible assumption | (intro _) | with_reducible apply State.usbUp_follows (within hmsk (by decide)) | split | dsimp only

theorem State.phyMsg_follows {msk : Nat} (hmsk : msk ||| 4938 = msk) {z s : State} (u : Nat) (b : List Sys2Proof.Byte) (h : Follows msk
    z s) : Follows msk z (State.phyMsg s u b) := by
  unfold State.phyMsg
  repeat' first
    | with_reducible assumption | (intro _) | with_reducible apply State.usbUp_follows (within hmsk (by decide)) | split | dsimp only

theorem State.dropDeferred_follows {msk : Nat} (hmsk : msk ||| 16384 = msk) {z s : State} (sel : Nat → Bool) (h : Follows msk z s) :
    Follows msk z (State.dropDeferred s sel) := by
  unfold State.dropDeferred
  repeat' first
    | with_reducible assumption | (intro _) | with_reducible apply State.modUsb_follows (within hmsk (by decide))
    | with_reducible apply State.inc_follows | simp only [LFollows.pair_iff]
    | with_reducible refine LFollows.of_eq ?_ (by with_reducible assumption) | simp only [RFollows.pair_iff]
    | with_reducible refine RFollows.of_eq ?_ (by with_reducible assumption) | with_reducible apply foldl_fst_follows
    | with_reducible apply foldl_snd_follows | with_reducible apply foldl_follows
    | with_reducible refine LFollows.fst (foldl_fst_follows _ _ ?_ ?_) | with_reducible refine RFollows.snd (foldl_snd_follows _ _ ?_ ?_)
    | with_reducible exact LFollows.fst (by with_reducible assumption) | with_reducible exact RFollows.snd (by with_reducible assumption)
    | split | dsimp only

theorem State.portChg_follows {msk : Nat} (hmsk : msk ||| 2 = msk) {z s : State} (p : Nat) (h : Follows msk z s) : Follows msk z
    (State.portChg s p) := by
  unfold State.portChg
  repeat' first
    | with_reducible assumption | (intro _) | with_reducible apply State.raise_follows (within hmsk (by decide))
    | with_reducible apply State.emit_follows | split | dsimp only

theorem State.sendFnOfs_follows {msk : Nat} (hmsk : msk ||| 4938 = msk) {z s : State} (p : Nat) (h : Follows msk z s) : Follows msk z
    (State.sendFnOfs s p) := by
  unfold State.sendFnOfs
  repeat' first
    | with_reducible assumption | (intro _) | with_reducible apply State.hubMsg_follows (within hmsk (by decide)) | split | dsimp only

theorem State.portDown_follows {msk : Nat} (hmsk : msk ||| 16384 = msk) {z s : State} (p : Nat) (h : Follows msk z s) : Follows msk z
    (State.portDown s p) := by
  unfold State.portDown
  repeat' first
    | with_reducible assumption | (intro _) | with_reducible apply State.dropDeferred_follows (within hmsk (by decide))
    | with_reducible apply foldS_follows | with_reducible apply State.emit_follows | with_reducible apply State.wr_follows
    | with_reducible apply State.flag_follows | split | dsimp only

theorem State.portUpdate_follows {msk : Nat} (hmsk : msk ||| 21322 = msk) {z s : State} (p : Nat) (h : Follows msk z s) : Follows msk z
    (State.portUpdate s p) := by
  unfold State.portUpdate
  repeat' first
    | with_reducible assumption | (intro _) | with_reducible apply State.raise_follows (within hmsk (by decide))
    | with_reducible apply State.portChg_follows (within hmsk (by decide))
    | with_reducible apply State.sendFnOfs_follows (within hmsk (by decide))
    | with_reducible apply State.portDown_follows (within hmsk (by decide)) | with_reducible apply State.when_follows
    | with_reducible apply State.flag_follows | with_reducible apply Follows.ite | split | dsimp only

theorem State.portsUpdate_follows {msk : Nat} (hmsk : msk ||| 21322 = msk) {z s : State} (h : Follows msk z s) : Follows msk z
    (State.portsUpdate s) := by
  unfold State.portsUpdate
  repeat' first
    | with_reducible assumption | (intro _) | with_reducible apply State.portUpdate_follows (within hmsk (by decide))
    | with_reducible apply State.when_follows | with_reducible apply foldS_follows | split | dsimp only

theorem State.hostAns_follows {msk : Nat} {z s : State} (p : Nat) (addr : Nat) (ep : Nat) (ans : Nat) (toggle : Bool) (data : List
    Sys2Proof.Byte) (h : Follows msk z s) : Follows msk z (State.hostAns s p addr ep ans toggle data) := by
  unfold State.hostAns
  repeat' first
    | with_reducible assumption | (intro _) | with_reducible apply State.emit_follows | split | dsimp only

theorem State.deferNak_follows {msk : Nat} {z s : State} (p : Nat) (addr : Nat) (ep : Nat) (h : Follows msk z s) : Follows msk z
    (State.deferNak s p addr ep) := by
  unfold State.deferNak
  repeat' first
    | with_reducible assumption | (intro _) | with_reducible apply State.hostAns_follows | with_reducible apply State.inc_follows | split
    | dsimp only

theorem State.deferNew_follows {msk : Nat} (hmsk : msk ||| 21322 = msk) {z s : State} (p : Nat) (addr : Nat) (ep : Nat) (typ : Nat)
    (kind : Nat) (toggle : Bool) (data : List Sys2Proof.Byte) (h : Follows msk z s) : Follows msk z (State.deferNew s p addr ep typ kind
    toggle data) := by
  unfold State.deferNew
  repeat' first
    | with_reducible assumption | (intro _) | with_reducible apply State.modUsb_follows (within hmsk (by decide))
    | with_reducible apply State.hubMsg_follows (within hmsk (by decide)) | with_reducible apply Follows.ite | split | dsimp only

theorem State.dropTag_follows {msk : Nat} (hmsk : msk ||| 16384 = msk) {z s : State} (tag : Nat) (h : Follows msk z s) : Follows msk z
    (State.dropTag s tag) := by
  unfold State.dropTag
  repeat' first
    | with_reducible assumption | (intro _) | with_reducible apply State.modUsb_follows (within hmsk (by decide)) | split | dsimp only

theorem State.deferAgain_follows {msk : Nat} (hmsk : msk ||| 21322 = msk) {z s : State} (d : Deferred) (h : Follows msk z s) : Follows
    msk z (State.deferAgain s d) := by
  unfold State.deferAgain
  repeat' first
    | with_reducible assumption | (intro _) | with_reducible apply State.modUsb_follows (within hmsk (by decide))
    | with_reducible apply State.hubMsg_follows (within hmsk (by decide)) | with_reducible apply Follows.ite | split | dsimp only

theorem State.fromResult_follows {msk : Nat} (hmsk : msk ||| 16384 = msk) {z s : State} (d : Deferred) (r : Nat × Bool × List
    Sys2Proof.Byte) (wire : Nat) (h : Follows msk z s) : Follows msk z (State.fromResult s d r wire) := by
  unfold State.fromResult
  repeat' first
    | with_reducible assumption | (intro _) | with_reducible apply State.dropTag_follows (within hmsk (by decide))
    | with_reducible apply State.hostAns_follows | with_reducible apply Follows.ite | split | dsimp only

theorem State.deferToken_follows {msk : Nat} (hmsk : msk ||| 21322 = msk) {z s : State} (p : Nat) (addr : Nat) (ep : Nat) (typ : Nat)
    (kind : Nat) (toggle : Bool) (split : Bool) (data : List Sys2Proof.Byte) (h : Follows msk z s) : Follows msk z (State.deferToken s p
    addr ep typ kind toggle split data) := by
  unfold State.deferToken
  repeat' first
    | with_reducible assumption | (intro _) | with_reducible apply State.fromResult_follows (within hmsk (by decide))
    | with_reducible apply State.deferAgain_follows (within hmsk (by decide)) | with_reducible apply State.hostAns_follows
    | with_reducible apply State.deferNak_follows | with_reducible apply State.deferNew_follows (within hmsk (by decide))
    | with_reducible apply State.when_follows | with_reducible apply State.inc_follows | with_reducible apply Follows.ite | split
    | dsimp only

theorem State.periodicIn_follows {msk : Nat} (hmsk : msk ||| 21322 = msk) {z s : State} (p : Nat) (addr : Nat) (ep : Nat) (typ : Nat)
    (split : Bool) (h : Follows msk z s) : Follows msk z (State.periodicIn s p addr ep typ split) := by
  unfold State.periodicIn
  repeat' first
    | with_reducible assumption | (intro _) | with_reducible apply State.modUsb_follows (within hmsk (by decide))
    | with_reducible apply State.hubMsg_follows (within hmsk (by decide)) | with_reducible apply State.hostAns_follows
    | with_reducible apply State.inc_follows | with_reducible apply Follows.ite | split | dsimp only

theorem State.isoOut_follows {msk : Nat} (hmsk : msk ||| 21322 = msk) {z s : State} (p : Nat) (addr : Nat) (ep : Nat) (data : List
    Sys2Proof.Byte) (h : Follows msk z s) : Follows msk z (State.isoOut s p addr ep data) := by
  unfold State.isoOut
  repeat' first
    | with_reducible assumption | (intro _) | with_reducible apply State.modUsb_follows (within hmsk (by decide))
    | with_reducible apply State.hubMsg_follows (within hmsk (by decide)) | with_reducible apply State.inc_follows
    | with_reducible apply Follows.ite | split | dsimp only

theorem State.phyForget_follows {msk : Nat} (hmsk : msk ||| 16384 = msk) {z s : State} (u : Nat) (h : Follows msk z s) : Follows msk z
    (State.phyForget s u) := by
  unfold State.phyForget
  repeat' first
    | with_reducible assumption | (intro _) | with_reducible apply State.modUsb_follows (within hmsk (by decide)) | split | dsimp only

theorem State.setToggle_follows {msk : Nat} (hmsk : msk ||| 16384 = msk) {z s : State} (u : Nat) (addr : Nat) (ep : Nat) (v : Bool) (h :
    Follows msk z s) : Follows msk z (State.setToggle s u addr ep v) := by
  unfold State.setToggle
  repeat' first
    | with_reducible assumption | (intro _) | with_reducible apply State.modUsb_follows (within hmsk (by decide))
    | with_reducible apply Follows.ite | split | dsimp only

theorem State.clearToggles_follows {msk : Nat} (hmsk : msk ||| 16384 = msk) {z s : State} (u : Nat) (addr : Nat) (sel : Nat → Bool) (h :
    Follows msk z s) : Follows msk z (State.clearToggles s u addr sel) := by
  unfold State.clearToggles
  repeat' first
    | with_reducible assumption | (intro _) | with_reducible apply State.modUsb_follows (within hmsk (by decide))
    | with_reducible apply Follows.ite | split | dsimp only

theorem State.toggleReset_follows {msk : Nat} (hmsk : msk ||| 16384 = msk) {z s : State} (u : Nat) (addr : Nat) (mark : Nat) (arg : Nat)
    (ifEps : List Nat) (h : Follows msk z s) : Follows msk z (State.toggleReset s u addr mark arg ifEps) := by
  unfold State.toggleReset
  repeat' first
    | with_reducible assumption | (intro _) | with_reducible apply State.clearToggles_follows (within hmsk (by decide))
    | with_reducible apply State.modUsb_follows (within hmsk (by decide)) | with_reducible apply Follows.ite | split | dsimp only

theorem State.result_follows {msk : Nat} (hmsk : msk ||| 4938 = msk) {z s : State} (r : PhyTr) (code : Nat) (toggle : Bool) (data : List
    Sys2Proof.Byte) (h : Follows msk z s) : Follows msk z (State.result s r code toggle data) := by
  unfold State.result
  repeat' first
    | with_reducible assumption | (intro _) | with_reducible apply State.phyMsg_follows (within hmsk (by decide)) | split | dsimp only

theorem State.tryPhy_follows {msk : Nat} (hmsk : msk ||| 21322 = msk) {z s : State} (r : PhyTr) (resp : Nat) (rdata : List
    Sys2Proof.Byte) (ifEps : List Nat) (h : Follows msk z s) : Follows msk z (State.tryPhy s r resp rdata ifEps) := by
  unfold State.tryPhy
  repeat' first
    | with_reducible assumption | (intro _) | with_reducible apply State.modUsb_follows (within hmsk (by decide))
    | with_reducible apply State.setToggle_follows (within hmsk (by decide))
    | with_reducible apply State.toggleReset_follows (within hmsk (by decide))
    | with_reducible apply State.result_follows (within hmsk (by decide)) | with_reducible apply State.emit_follows
    | with_reducible apply State.when_follows | with_reducible apply Follows.ite | split | dsimp only

theorem State.sendPhyStatus_follows {msk : Nat} (hmsk : msk ||| 4938 = msk) {z s : State} (u : Nat) (h : Follows msk z s) : Follows msk
    z (State.sendPhyStatus s u) := by
  unfold State.sendPhyStatus
  repeat' first
    | with_reducible assumption | (intro _) | with_reducible apply State.phyMsg_follows (within hmsk (by decide)) | split | dsimp only

theorem State.phyGone_follows {msk : Nat} (hmsk : msk ||| 21322 = msk) {z s : State} (u : Nat) (h : Follows msk z s) : Follows msk z
    (State.phyGone s u) := by
  unfold State.phyGone
  repeat' first
    | with_reducible assumption | (intro _) | with_reducible apply State.sendPhyStatus_follows (within hmsk (by decide))
    | with_reducible apply State.raise_follows (within hmsk (by decide))
    | with_reducible apply State.phyForget_follows (within hmsk (by decide)) | with_reducible apply State.when_follows
    | with_reducible apply State.wr_follows | split | dsimp only

theorem State.hubOff_follows {msk : Nat} (hmsk : msk ||| 16386 = msk) {z s : State} (h : Follows msk z s) : Follows msk z (State.hubOff
    s) := by
  unfold State.hubOff
  repeat' first
    | with_reducible assumption | (intro _) | with_reducible apply State.portChg_follows (within hmsk (by decide))
    | with_reducible apply State.portDown_follows (within hmsk (by decide))
    | with_reducible apply State.phyForget_follows (within hmsk (by decide))
    | with_reducible apply State.modUsb_follows (within hmsk (by decide)) | with_reducible apply foldS_follows
    | with_reducible apply State.when_follows | with_reducible apply State.wr_follows | split | dsimp only

theorem State.pavilionSof_follows {msk : Nat} {z s : State} (h : Follows msk z s) : Follows msk z (State.pavilionSof s) := by
  unfold State.pavilionSof
  repeat' first
    | with_reducible assumption | (intro _) | with_reducible apply State.when_follows | with_reducible apply foldS_follows
    | with_reducible apply State.emit_follows | with_reducible apply Follows.ite | split | dsimp only

end Sys2Proof.Machine
end

