-- ==== Sys2Proof/Laws/FolServiceOps.lean ====
section
/-!
SUPPORT. `Follows` for the operations and meanings of `ServiceOps.lean`.
-/

namespace Sys2Proof.Machine

open Host (Outcome)

set_option linter.unusedTactic false
set_option linter.unreachableTactic false
set_option linter.unusedSimpArgs false
set_option linter.unusedVariables false

theorem State.modSvc_follows {msk : Nat} (hmsk : msk ||| 131072 = msk) {z s : State} (f : ServiceS → ServiceS) (h : Follows msk z s) :
    Follows msk z (State.modSvc s f) := by
  unfold State.modSvc
  repeat' first
    | with_reducible assumption | (intro _) | simp only [Follows.svc_iff (within hmsk (by decide))] | split | dsimp only

theorem State.ccShow_follows {msk : Nat} (hmsk : msk ||| 131072 = msk) {z s : State} (h : Follows msk z s) : Follows msk z (State.ccShow
    s) := by
  unfold State.ccShow
  repeat' first
    | with_reducible assumption | (intro _) | with_reducible apply State.modSvc_follows (within hmsk (by decide))
    | with_reducible apply State.when_follows | with_reducible apply State.emit_follows | split | dsimp only

theorem State.svcUpdate_follows {msk : Nat} (hmsk : msk ||| 131072 = msk) {z s : State} (h : Follows msk z s) : Follows msk z
    (State.svcUpdate s) := by
  unfold State.svcUpdate
  repeat' first
    | with_reducible assumption | (intro _) | with_reducible apply State.modSvc_follows (within hmsk (by decide))
    | with_reducible apply State.ccShow_follows (within hmsk (by decide)) | with_reducible apply State.when_follows
    | with_reducible apply State.flag_follows | split | dsimp only

theorem State.usbdUpdate_follows {msk : Nat} (hmsk : msk ||| 2 = msk) {z s : State} (h : Follows msk z s) : Follows msk z
    (State.usbdUpdate s) := by
  unfold State.usbdUpdate
  repeat' first
    | with_reducible assumption | (intro _) | with_reducible apply State.raise_follows (within hmsk (by decide))
    | with_reducible apply State.wr_follows | with_reducible apply State.flag_follows | with_reducible apply Follows.ite | split
    | dsimp only

theorem State.setDataRole_follows {msk : Nat} (hmsk : msk ||| 21322 = msk) {z s : State} (dfp : Bool) (h : Follows msk z s) : Follows
    msk z (State.setDataRole s dfp) := by
  unfold State.setDataRole
  repeat' first
    | with_reducible assumption | (intro _) | with_reducible apply State.usbdUpdate_follows (within hmsk (by decide))
    | with_reducible apply State.phyGone_follows (within hmsk (by decide)) | with_reducible apply State.when_follows
    | with_reducible apply State.flag_follows | split | dsimp only

theorem State.svcAttach_follows {msk : Nat} (hmsk : msk ||| 676699 = msk) {z s : State} (src : Bool) (cc2 : Bool) (rp : Nat) (h :
    Follows msk z s) : Follows msk z (State.svcAttach s src cc2 rp) := by
  unfold State.svcAttach
  repeat' first
    | with_reducible assumption | (intro _) | with_reducible apply State.wakeBy_follows (within hmsk (by decide))
    | with_reducible apply State.svcUpdate_follows (within hmsk (by decide))
    | with_reducible apply State.raise_follows (within hmsk (by decide))
    | with_reducible apply State.setDataRole_follows (within hmsk (by decide)) | with_reducible apply State.flag_follows
    | with_reducible apply State.wr_follows | with_reducible apply State.incSat_follows | with_reducible apply Follows.ite | split
    | dsimp only

theorem State.showRx_follows {msk : Nat} {z s : State} (h : Follows msk z s) : Follows msk z (State.showRx s) := by
  unfold State.showRx
  repeat' first
    | with_reducible assumption | (intro _) | with_reducible apply State.wr_follows | with_reducible apply State.flag_follows
    | with_reducible apply foldS_follows | split | dsimp only

theorem State.txEnd_follows {msk : Nat} (hmsk : msk ||| 131074 = msk) {z s : State} (r : Nat) (h : Follows msk z s) : Follows msk z
    (State.txEnd s r) := by
  unfold State.txEnd
  repeat' first
    | with_reducible assumption | (intro _) | with_reducible apply State.raise_follows (within hmsk (by decide))
    | with_reducible apply State.modSvc_follows (within hmsk (by decide)) | with_reducible apply State.wr_follows | split | dsimp only

theorem State.pdClear_follows {msk : Nat} (hmsk : msk ||| 131072 = msk) {z s : State} (h : Follows msk z s) : Follows msk z
    (State.pdClear s) := by
  unfold State.pdClear
  repeat' first
    | with_reducible assumption | (intro _) | with_reducible apply State.showRx_follows
    | with_reducible apply State.modSvc_follows (within hmsk (by decide)) | split | dsimp only

theorem State.svcDetach_follows {msk : Nat} (hmsk : msk ||| 160586 = msk) {z s : State} (h : Follows msk z s) : Follows msk z
    (State.svcDetach s) := by
  unfold State.svcDetach
  repeat' first
    | with_reducible assumption | (intro _) | with_reducible apply State.pdClear_follows (within hmsk (by decide))
    | with_reducible apply State.modSvc_follows (within hmsk (by decide))
    | with_reducible apply State.txEnd_follows (within hmsk (by decide))
    | with_reducible apply State.phyGone_follows (within hmsk (by decide))
    | with_reducible apply State.dpaltRelease_follows (within hmsk (by decide))
    | with_reducible apply State.raise_follows (within hmsk (by decide))
    | with_reducible apply State.svcUpdate_follows (within hmsk (by decide))
    | with_reducible apply State.usbdUpdate_follows (within hmsk (by decide)) | with_reducible apply State.flag_follows
    | with_reducible apply State.wr_follows | with_reducible apply State.when_follows | split | dsimp only

theorem State.pdTransmit_follows {msk : Nat} (hmsk : msk ||| 131072 = msk) {z s : State} (h : Follows msk z s) : Follows msk z
    (State.pdTransmit s) := by
  unfold State.pdTransmit
  repeat' first
    | with_reducible assumption | (intro _) | with_reducible apply State.modSvc_follows (within hmsk (by decide))
    | with_reducible apply State.emit_follows | with_reducible apply State.inc_follows | split | dsimp only

theorem State.levelFall_follows {msk : Nat} (hmsk : msk ||| 524305 = msk) {z s : State} (h : Follows msk z s) : Follows msk z
    (State.levelFall s) := by
  unfold State.levelFall
  repeat' first
    | with_reducible assumption | (intro _) | with_reducible apply State.domOffReq_follows (within hmsk (by decide))
    | with_reducible apply State.ledgerUpdate_follows (within hmsk (by decide))
    | with_reducible apply State.modPwr_follows (within hmsk (by decide)) | with_reducible apply foldS_follows
    | with_reducible apply State.when_follows | with_reducible apply State.emit_follows | with_reducible apply State.wr_follows
    | with_reducible apply State.flag_follows | split | dsimp only

end Sys2Proof.Machine
end

