-- ==== Sys2Proof/Laws/FolBezel.lean ====
section
/-!
SUPPORT. `Follows` for the operations and meanings of `Bezel.lean`.
-/

namespace Sys2Proof.Machine

open Host (Outcome)

set_option linter.unusedTactic false
set_option linter.unreachableTactic false
set_option linter.unusedSimpArgs false
set_option linter.unusedVariables false

theorem State.modBzl_follows {msk : Nat} (hmsk : msk ||| 65536 = msk) {z s : State} (f : BezelS → BezelS) (h : Follows msk z s) :
    Follows msk z (State.modBzl s f) := by
  unfold State.modBzl
  repeat' first
    | with_reducible assumption | (intro _) | simp only [Follows.bzl_iff (within hmsk (by decide))] | split | dsimp only

theorem State.fitOr_follows {msk : Nat} {z s : State} (w : Nat) (v : Nat) (h : Follows msk z s) : RFollows msk z (State.fitOr s w v) := by
  unfold State.fitOr
  repeat' first
    | with_reducible assumption | (intro _) | with_reducible apply State.freshVal_follows | simp only [RFollows.pair_iff]
    | with_reducible refine RFollows.of_eq ?_ (by with_reducible assumption)
    | with_reducible refine RFollows.snd (State.freshVal_follows ?_) | with_reducible apply Follows.ite | split | dsimp only

theorem State.hsEnter_follows {msk : Nat} (hmsk : msk ||| 2 = msk) {z s : State} (st : Nat) (h : Follows msk z s) : Follows msk z
    (State.hsEnter s st) := by
  unfold State.hsEnter
  repeat' first
    | with_reducible assumption | (intro _) | with_reducible apply State.setLife_follows (within hmsk (by decide))
    | with_reducible apply State.when_follows | with_reducible apply State.incSat_follows | with_reducible apply State.flag_follows
    | with_reducible apply State.wr_follows | split | dsimp only

theorem State.pgSet_follows {msk : Nat} (hmsk : msk ||| 131074 = msk) {z s : State} (b : Bool) (h : Follows msk z s) : Follows msk z
    (State.pgSet s b) := by
  unfold State.pgSet
  repeat' first
    | with_reducible assumption | (intro _) | with_reducible apply State.svcUpdate_follows (within hmsk (by decide))
    | with_reducible apply State.raise_follows (within hmsk (by decide)) | with_reducible apply State.flag_follows
    | with_reducible apply Follows.ite | split | dsimp only

theorem State.timerStop_follows {msk : Nat} (hmsk : msk ||| 65536 = msk) {z s : State} (h : Follows msk z s) : Follows msk z
    (State.timerStop s) := by
  unfold State.timerStop
  repeat' first
    | with_reducible assumption | (intro _) | with_reducible apply State.modBzl_follows (within hmsk (by decide))
    | with_reducible apply State.flag_follows | split | dsimp only

theorem State.gateDown_follows {msk : Nat} (hmsk : msk ||| 196610 = msk) {z s : State} (h : Follows msk z s) : Follows msk z
    (State.gateDown s) := by
  unfold State.gateDown
  repeat' first
    | with_reducible assumption | (intro _) | with_reducible apply State.modBzl_follows (within hmsk (by decide))
    | with_reducible apply State.timerStop_follows (within hmsk (by decide))
    | with_reducible apply State.pgSet_follows (within hmsk (by decide)) | split | dsimp only

theorem State.hsStart_follows {msk : Nat} (hmsk : msk ||| 65538 = msk) {z s : State} (h : Follows msk z s) : Follows msk z
    (State.hsStart s) := by
  unfold State.hsStart
  repeat' first
    | with_reducible assumption | (intro _) | with_reducible apply State.modBzl_follows (within hmsk (by decide))
    | with_reducible apply State.hsEnter_follows (within hmsk (by decide)) | with_reducible apply Follows.ite | split | dsimp only

theorem State.setCause_follows {msk : Nat} {z s : State} (k : Nat) (h : Follows msk z s) : Follows msk z (State.setCause s k) := by
  unfold State.setCause
  repeat' first
    | with_reducible assumption | (intro _) | with_reducible apply State.when_follows | with_reducible apply State.wr_follows | split
    | dsimp only

theorem State.hsFault_follows {msk : Nat} (hmsk : msk ||| 196610 = msk) {z s : State} (k : Nat) (also : Option Nat) (e : Nat) (h :
    Follows msk z s) : Follows msk z (State.hsFault s k also e) := by
  unfold State.hsFault
  repeat' first
    | with_reducible assumption | (intro _) | with_reducible apply State.fitOr_follows | with_reducible apply State.setCause_follows
    | with_reducible apply State.gateDown_follows (within hmsk (by decide))
    | with_reducible apply State.raise_follows (within hmsk (by decide))
    | with_reducible apply State.modBzl_follows (within hmsk (by decide))
    | with_reducible apply State.hsEnter_follows (within hmsk (by decide))
    | with_reducible apply State.powerRecord_follows (within hmsk (by decide)) | with_reducible apply State.wr_follows
    | with_reducible apply State.incSat_follows | simp only [RFollows.pair_iff]
    | with_reducible refine RFollows.of_eq ?_ (by with_reducible assumption)
    | with_reducible refine RFollows.snd (State.fitOr_follows _ _ ?_) | with_reducible apply Follows.ite | split | dsimp only

theorem State.hsFetFault_follows {msk : Nat} (hmsk : msk ||| 196610 = msk) {z s : State} (k : Nat) (h : Follows msk z s) : Follows msk z
    (State.hsFetFault s k) := by
  unfold State.hsFetFault
  repeat' first
    | with_reducible assumption | (intro _) | with_reducible apply State.raise_follows (within hmsk (by decide))
    | with_reducible apply State.setCause_follows | with_reducible apply State.gateDown_follows (within hmsk (by decide))
    | with_reducible apply State.powerRecord_follows (within hmsk (by decide))
    | with_reducible apply State.hsEnter_follows (within hmsk (by decide)) | with_reducible apply State.incSat_follows | split
    | dsimp only

theorem State.limitCheck_follows {msk : Nat} (hmsk : msk ||| 196610 = msk) {z s : State} (h : Follows msk z s) : Follows msk z
    (State.limitCheck s) := by
  unfold State.limitCheck
  repeat' first
    | with_reducible assumption | (intro _) | with_reducible apply State.timerStop_follows (within hmsk (by decide))
    | with_reducible apply State.modBzl_follows (within hmsk (by decide))
    | with_reducible apply State.pgSet_follows (within hmsk (by decide))
    | with_reducible apply State.hsEnter_follows (within hmsk (by decide)) | with_reducible apply State.when_follows
    | with_reducible apply State.flag_follows | with_reducible apply Follows.ite | split | dsimp only

theorem execSeatPinChange_follows {msk : Nat} (hmsk : msk ||| 524315 = msk) {z s : State} (pinB : Bool) (low : Bool) (h : Follows msk z
    s) : ∃ nx, execSeatPinChange pinB low s = .next nx ∧ Follows msk z nx := by
  unfold execSeatPinChange; refine done_follows ?_
  repeat' first
    | with_reducible assumption | (intro _) | with_reducible apply State.wakeBy_follows (within hmsk (by decide))
    | with_reducible apply State.when_follows | with_reducible apply State.flag_follows | with_reducible apply Follows.ite | split
    | dsimp only

theorem execSeatQualified_follows {msk : Nat} (hmsk : msk ||| 65538 = msk) {z s : State} (h : Follows msk z s) : ∃ nx, execSeatQualified
    s = .next nx ∧ Follows msk z nx := by
  unfold execSeatQualified; refine done_follows ?_
  repeat' first
    | with_reducible assumption | (intro _) | with_reducible apply State.raise_follows (within hmsk (by decide))
    | with_reducible apply State.hsStart_follows (within hmsk (by decide)) | with_reducible apply State.when_follows
    | with_reducible apply State.flag_follows | split | dsimp only

theorem State.clearCauses_follows {msk : Nat} (hmsk : msk ||| 65536 = msk) {z s : State} (h : Follows msk z s) : Follows msk z
    (State.clearCauses s) := by
  unfold State.clearCauses
  repeat' first
    | with_reducible assumption | (intro _) | with_reducible apply State.modBzl_follows (within hmsk (by decide))
    | with_reducible apply State.wr_follows | with_reducible apply State.when_follows | with_reducible apply Follows.ite | split
    | dsimp only

theorem execSeatLost_follows {msk : Nat} (hmsk : msk ||| 196610 = msk) {z s : State} (h : Follows msk z s) : ∃ nx, execSeatLost s =
    .next nx ∧ Follows msk z nx := by
  unfold execSeatLost; refine done_follows ?_
  repeat' first
    | with_reducible assumption | (intro _) | with_reducible apply State.gateDown_follows (within hmsk (by decide))
    | with_reducible apply State.raise_follows (within hmsk (by decide))
    | with_reducible apply State.clearCauses_follows (within hmsk (by decide))
    | with_reducible apply State.hsEnter_follows (within hmsk (by decide)) | with_reducible apply State.when_follows
    | with_reducible apply State.flag_follows | with_reducible apply State.wr_follows | split | dsimp only

theorem State.lineEn_follows {msk : Nat} (hmsk : msk ||| 2 = msk) {z s : State} (n : Nat) (b : Bool) (h : Follows msk z s) : Follows msk
    z (State.lineEn s n b) := by
  unfold State.lineEn
  repeat' first
    | with_reducible assumption | (intro _) | with_reducible apply State.raise_follows (within hmsk (by decide))
    | with_reducible apply State.setBit_follows | with_reducible apply Follows.ite | split | dsimp only

theorem execFseatPinChange_follows {msk : Nat} {z s : State} (n : Nat) (low : Bool) (h : Follows msk z s) : ∃ nx, execFseatPinChange n
    low s = .next nx ∧ Follows msk z nx := by
  unfold execFseatPinChange; refine done_follows ?_
  repeat' first
    | with_reducible assumption | (intro _) | with_reducible apply State.when_follows | with_reducible apply State.setBit_follows | split
    | dsimp only

theorem execFeedQualified_follows {msk : Nat} (hmsk : msk ||| 2 = msk) {z s : State} (n : Nat) (h : Follows msk z s) : ∃ nx,
    execFeedQualified n s = .next nx ∧ Follows msk z nx := by
  unfold execFeedQualified; refine done_follows ?_
  repeat' first
    | with_reducible assumption | (intro _) | with_reducible apply State.lineEn_follows (within hmsk (by decide))
    | with_reducible apply State.when_follows | with_reducible apply State.setBit_follows | split | dsimp only

theorem execFeedWithdrawal_follows {msk : Nat} (hmsk : msk ||| 2 = msk) {z s : State} (n : Nat) (h : Follows msk z s) : ∃ nx,
    execFeedWithdrawal n s = .next nx ∧ Follows msk z nx := by
  unfold execFeedWithdrawal; refine done_follows ?_
  repeat' first
    | with_reducible assumption | (intro _) | with_reducible apply State.lineEn_follows (within hmsk (by decide))
    | with_reducible apply State.when_follows | with_reducible apply State.setBit_follows | split | dsimp only

theorem State.feedEnWritten_follows {msk : Nat} (hmsk : msk ||| 2 = msk) {z s : State} (h : Follows msk z s) : Follows msk z
    (State.feedEnWritten s) := by
  unfold State.feedEnWritten
  repeat' first
    | with_reducible assumption | (intro _) | with_reducible apply State.lineEn_follows (within hmsk (by decide))
    | with_reducible apply foldS_follows | split | dsimp only

theorem State.orUpdate_follows {msk : Nat} (hmsk : msk ||| 655387 = msk) {z s : State} (h : Follows msk z s) : Follows msk z
    (State.orUpdate s) := by
  unfold State.orUpdate
  repeat' first
    | with_reducible assumption | (intro _) | with_reducible apply State.svcUpdate_follows (within hmsk (by decide))
    | with_reducible apply State.raise_follows (within hmsk (by decide))
    | with_reducible apply State.wakeBy_follows (within hmsk (by decide)) | with_reducible apply State.flag_follows
    | with_reducible apply State.when_follows | split | dsimp only

theorem execInputValidityChange_follows {msk : Nat} (hmsk : msk ||| 720923 = msk) {z s : State} (aux : Bool) (mv : Nat) (fwd : Bool) (h
    : Follows msk z s) : ∃ nx, execInputValidityChange aux mv fwd s = .next nx ∧ Follows msk z nx := by
  unfold execInputValidityChange; refine done_follows ?_
  repeat' first
    | with_reducible assumption | (intro _) | with_reducible apply State.orUpdate_follows (within hmsk (by decide))
    | with_reducible apply State.modBzl_follows (within hmsk (by decide)) | with_reducible apply State.when_follows
    | with_reducible apply Follows.ite | split | dsimp only

theorem execReverseVoltage_follows {msk : Nat} (hmsk : msk ||| 720923 = msk) {z s : State} (aux : Bool) (h : Follows msk z s) : ∃ nx,
    execReverseVoltage aux s = .next nx ∧ Follows msk z nx := by
  unfold execReverseVoltage; refine done_follows ?_
  repeat' first
    | with_reducible assumption | (intro _) | with_reducible apply State.orUpdate_follows (within hmsk (by decide))
    | with_reducible apply State.modBzl_follows (within hmsk (by decide)) | with_reducible apply State.when_follows
    | with_reducible apply Follows.ite | split | dsimp only

theorem execHsRampEnd_follows {msk : Nat} (hmsk : msk ||| 65536 = msk) {z s : State} (h : Follows msk z s) : ∃ nx, execHsRampEnd s =
    .next nx ∧ Follows msk z nx := by
  unfold execHsRampEnd; refine done_follows ?_
  repeat' first
    | with_reducible assumption | (intro _) | with_reducible apply State.modBzl_follows (within hmsk (by decide))
    | with_reducible apply State.when_follows | split | dsimp only

theorem execFetGateCheck_follows {msk : Nat} (hmsk : msk ||| 196610 = msk) {z s : State} (reached : Bool) (h : Follows msk z s) : ∃ nx,
    execFetGateCheck reached s = .next nx ∧ Follows msk z nx := by
  unfold execFetGateCheck; refine done_follows ?_
  repeat' first
    | with_reducible assumption | (intro _) | with_reducible apply State.hsEnter_follows (within hmsk (by decide))
    | with_reducible apply State.hsFetFault_follows (within hmsk (by decide)) | with_reducible apply State.when_follows
    | with_reducible apply Follows.ite | split | dsimp only

theorem execFetShort_follows {msk : Nat} (hmsk : msk ||| 196610 = msk) {z s : State} (h : Follows msk z s) : ∃ nx, execFetShort s =
    .next nx ∧ Follows msk z nx := by
  unfold execFetShort; refine done_follows ?_
  repeat' first
    | with_reducible assumption | (intro _) | with_reducible apply State.hsFetFault_follows (within hmsk (by decide))
    | with_reducible apply State.when_follows | split | dsimp only

theorem execSenseOverLimit_follows {msk : Nat} (hmsk : msk ||| 196610 = msk) {z s : State} (vsns : Nat) (fet : Nat) (h : Follows msk z
    s) : ∃ nx, execSenseOverLimit vsns fet s = .next nx ∧ Follows msk z nx := by
  unfold execSenseOverLimit; refine done_follows ?_
  repeat' first
    | with_reducible assumption | (intro _) | with_reducible apply State.limitCheck_follows (within hmsk (by decide))
    | with_reducible apply State.modBzl_follows (within hmsk (by decide)) | with_reducible apply State.when_follows | split | dsimp only

theorem execFaultTimerExpiry_follows {msk : Nat} (hmsk : msk ||| 196610 = msk) {z s : State} (e : Nat) (h : Follows msk z s) : ∃ nx,
    execFaultTimerExpiry e s = .next nx ∧ Follows msk z nx := by
  unfold execFaultTimerExpiry; refine done_follows ?_
  repeat' first
    | with_reducible assumption | (intro _) | with_reducible apply State.hsFault_follows (within hmsk (by decide))
    | with_reducible apply State.when_follows | split | dsimp only

theorem execFastTrip_follows {msk : Nat} (hmsk : msk ||| 196610 = msk) {z s : State} (vsns : Nat) (e : Nat) (expiry : Bool) (h : Follows
    msk z s) : ∃ nx, execFastTrip vsns e expiry s = .next nx ∧ Follows msk z nx := by
  unfold execFastTrip; refine done_follows ?_
  repeat' first
    | with_reducible assumption | (intro _) | with_reducible apply State.hsFault_follows (within hmsk (by decide))
    | with_reducible apply State.when_follows | with_reducible apply Follows.ite | split | dsimp only

theorem execPgQualified_follows {msk : Nat} (hmsk : msk ||| 131074 = msk) {z s : State} (vin : Nat) (h : Follows msk z s) : ∃ nx,
    execPgQualified vin s = .next nx ∧ Follows msk z nx := by
  unfold execPgQualified; refine done_follows ?_
  repeat' first
    | with_reducible assumption | (intro _) | with_reducible apply State.pgSet_follows (within hmsk (by decide))
    | with_reducible apply State.hsEnter_follows (within hmsk (by decide)) | with_reducible apply State.when_follows | split | dsimp only

theorem execCoolOffEnd_follows {msk : Nat} (hmsk : msk ||| 65538 = msk) {z s : State} (h : Follows msk z s) : ∃ nx, execCoolOffEnd s =
    .next nx ∧ Follows msk z nx := by
  unfold execCoolOffEnd; refine done_follows ?_
  repeat' first
    | with_reducible assumption | (intro _) | with_reducible apply State.raise_follows (within hmsk (by decide))
    | with_reducible apply State.hsStart_follows (within hmsk (by decide)) | with_reducible apply State.when_follows
    | with_reducible apply State.inc_follows | split | dsimp only

theorem execRetryCountReset_follows {msk : Nat} {z s : State} (h : Follows msk z s) : ∃ nx, execRetryCountReset s = .next nx ∧ Follows
    msk z nx := by
  unfold execRetryCountReset; refine done_follows ?_
  repeat' first
    | with_reducible assumption | (intro _) | with_reducible apply State.when_follows | with_reducible apply State.wr_follows | split
    | dsimp only

theorem cmdHsClear_follows {msk : Nat} (hmsk : msk ||| 65538 = msk) {z t : State} (h : Follows msk z t) : Follows msk z
    ((cmdHsClear).act t) := by
  unfold cmdHsClear; dsimp only
  repeat' first
    | with_reducible assumption | (intro _) | with_reducible apply State.clearCauses_follows (within hmsk (by decide))
    | with_reducible apply State.hsStart_follows (within hmsk (by decide)) | with_reducible apply State.when_follows | split | dsimp only

theorem execHsClear_follows {msk : Nat} (hmsk : msk ||| 589851 = msk) {z s : State} (p : Sys2Proof.Path) (h : Follows msk z s) : ∃ nx,
    execHsClear p s = .next nx ∧ Follows msk z nx := by
  unfold execHsClear; refine done_follows ?_
  repeat' first
    | with_reducible assumption | (intro _) | with_reducible apply State.runCmd_follows (within hmsk (by decide))
    | with_reducible apply cmdHsClear_follows (within hmsk (by decide)) | split | dsimp only

theorem cmdHsOn_follows {msk : Nat} (hmsk : msk ||| 65538 = msk) {z t : State} (h : Follows msk z t) : Follows msk z ((cmdHsOn).act t)
    := by
  unfold cmdHsOn; dsimp only
  repeat' first
    | with_reducible assumption | (intro _) | with_reducible apply State.hsStart_follows (within hmsk (by decide))
    | with_reducible apply State.hsEnter_follows (within hmsk (by decide)) | with_reducible apply State.when_follows
    | with_reducible apply Follows.ite | split | dsimp only

theorem execHsOn_follows {msk : Nat} (hmsk : msk ||| 589851 = msk) {z s : State} (p : Sys2Proof.Path) (h : Follows msk z s) : ∃ nx,
    execHsOn p s = .next nx ∧ Follows msk z nx := by
  unfold execHsOn; refine done_follows ?_
  repeat' first
    | with_reducible assumption | (intro _) | with_reducible apply State.runCmd_follows (within hmsk (by decide))
    | with_reducible apply cmdHsOn_follows (within hmsk (by decide)) | split | dsimp only

theorem cmdHsOff_follows {msk : Nat} (hmsk : msk ||| 196610 = msk) {z t : State} (h : Follows msk z t) : Follows msk z ((cmdHsOff).act
    t) := by
  unfold cmdHsOff; dsimp only
  repeat' first
    | with_reducible assumption | (intro _) | with_reducible apply State.gateDown_follows (within hmsk (by decide))
    | with_reducible apply State.hsEnter_follows (within hmsk (by decide)) | with_reducible apply State.when_follows | split | dsimp only

theorem execHsOff_follows {msk : Nat} (hmsk : msk ||| 720923 = msk) {z s : State} (p : Sys2Proof.Path) (h : Follows msk z s) : ∃ nx,
    execHsOff p s = .next nx ∧ Follows msk z nx := by
  unfold execHsOff; refine done_follows ?_
  repeat' first
    | with_reducible assumption | (intro _) | with_reducible apply State.runCmd_follows (within hmsk (by decide))
    | with_reducible apply cmdHsOff_follows (within hmsk (by decide)) | split | dsimp only

theorem execHsCfgWrite_follows {msk : Nat} (hmsk : msk ||| 720923 = msk) {z s : State} (p : Sys2Proof.Path) (w : Nat) (v : Nat) (h :
    Follows msk z s) : ∃ nx, execHsCfgWrite p w v s = .next nx ∧ Follows msk z nx := by
  unfold execHsCfgWrite; refine done_follows ?_
  repeat' first
    | with_reducible assumption | (intro _) | with_reducible apply State.writeOwn_follows (within hmsk (by decide))
    | with_reducible apply State.limitCheck_follows (within hmsk (by decide)) | with_reducible apply State.wr_follows
    | with_reducible apply Follows.ite | split | dsimp only

theorem execMonitorAverage_follows {msk : Nat} (hmsk : msk ||| 65538 = msk) {z s : State} (samples : List (Nat × Nat × Nat)) (h :
    Follows msk z s) : ∃ nx, execMonitorAverage samples s = .next nx ∧ Follows msk z nx := by
  unfold execMonitorAverage; refine done_follows ?_
  repeat' first
    | with_reducible assumption | (intro _) | with_reducible apply State.modBzl_follows (within hmsk (by decide))
    | with_reducible apply State.fitOr_follows | with_reducible apply State.raise_follows (within hmsk (by decide))
    | with_reducible apply State.when_follows | with_reducible apply State.wr_follows | simp only [RFollows.pair_iff]
    | with_reducible refine RFollows.of_eq ?_ (by with_reducible assumption)
    | with_reducible refine RFollows.snd (State.fitOr_follows _ _ ?_) | split | dsimp only

theorem execEnergyLoRead_follows {msk : Nat} (hmsk : msk ||| 524315 = msk) {z s : State} (p : Sys2Proof.Path) (h : Follows msk z s) : ∃
    nx, execEnergyLoRead p s = .next nx ∧ Follows msk z nx := by
  unfold execEnergyLoRead; refine done_follows ?_
  repeat' first
    | with_reducible assumption | (intro _) | with_reducible apply State.readOwn_follows (within hmsk (by decide))
    | with_reducible apply State.wr_follows | split | dsimp only

end Sys2Proof.Machine
end

