-- ==== Sys2Proof/Laws/FolService.lean ====
section
/-!
SUPPORT. `Follows` for the operations and meanings of `Service.lean`.
-/

namespace Sys2Proof.Machine

open Host (Outcome)

set_option linter.unusedTactic false
set_option linter.unreachableTactic false
set_option linter.unusedSimpArgs false
set_option linter.unusedVariables false

theorem execCcAttach_follows {msk : Nat} (hmsk : msk ||| 676699 = msk) {z s : State} (cc2 : Bool) (rp : Nat) (vbus : Nat) (h : Follows
    msk z s) : ∃ nx, execCcAttach cc2 rp vbus s = .next nx ∧ Follows msk z nx := by
  unfold execCcAttach; refine done_follows ?_
  repeat' first
    | with_reducible assumption | (intro _) | with_reducible apply State.ccShow_follows (within hmsk (by decide))
    | with_reducible apply State.svcAttach_follows (within hmsk (by decide)) | with_reducible apply State.when_follows
    | with_reducible apply State.flag_follows | with_reducible apply State.wr_follows | with_reducible apply Follows.ite | split
    | dsimp only

theorem execDrpToggle_follows {msk : Nat} (hmsk : msk ||| 131072 = msk) {z s : State} (h : Follows msk z s) : ∃ nx, execDrpToggle s =
    .next nx ∧ Follows msk z nx := by
  unfold execDrpToggle; refine done_follows ?_
  repeat' first
    | with_reducible assumption | (intro _) | with_reducible apply State.ccShow_follows (within hmsk (by decide))
    | with_reducible apply State.when_follows | with_reducible apply State.wr_follows | with_reducible apply Follows.ite | split
    | dsimp only

theorem execSinkDetach_follows {msk : Nat} (hmsk : msk ||| 160586 = msk) {z s : State} (vbus : Nat) (h : Follows msk z s) : ∃ nx,
    execSinkDetach vbus s = .next nx ∧ Follows msk z nx := by
  unfold execSinkDetach; refine done_follows ?_
  repeat' first
    | with_reducible assumption | (intro _) | with_reducible apply State.svcDetach_follows (within hmsk (by decide))
    | with_reducible apply State.when_follows | with_reducible apply State.flag_follows | with_reducible apply State.wr_follows | split
    | dsimp only

theorem execSourceDetach_follows {msk : Nat} (hmsk : msk ||| 160586 = msk) {z s : State} (h : Follows msk z s) : ∃ nx, execSourceDetach
    s = .next nx ∧ Follows msk z nx := by
  unfold execSourceDetach; refine done_follows ?_
  repeat' first
    | with_reducible assumption | (intro _) | with_reducible apply State.svcDetach_follows (within hmsk (by decide))
    | with_reducible apply State.when_follows | split | dsimp only

theorem execRpChange_follows {msk : Nat} (hmsk : msk ||| 2 = msk) {z s : State} (rp : Nat) (h : Follows msk z s) : ∃ nx, execRpChange rp
    s = .next nx ∧ Follows msk z nx := by
  unfold execRpChange; refine done_follows ?_
  repeat' first
    | with_reducible assumption | (intro _) | with_reducible apply State.raise_follows (within hmsk (by decide))
    | with_reducible apply State.when_follows | with_reducible apply State.wr_follows | split | dsimp only

theorem execBezelPowerUp_follows {msk : Nat} (hmsk : msk ||| 676699 = msk) {z s : State} (vbus : Nat) (rp : Nat) (cc2 : Bool) (h :
    Follows msk z s) : ∃ nx, execBezelPowerUp vbus rp cc2 s = .next nx ∧ Follows msk z nx := by
  unfold execBezelPowerUp; refine done_follows ?_
  repeat' first
    | with_reducible assumption | (intro _) | simp only [Follows.chip_iff (within hmsk (by decide))]
    | with_reducible apply State.setDomainUp_follows | with_reducible apply State.setDom_follows (within hmsk (by decide))
    | with_reducible apply State.setLife_follows (within hmsk (by decide))
    | with_reducible apply State.modSvc_follows (within hmsk (by decide))
    | with_reducible apply State.svcAttach_follows (within hmsk (by decide))
    | with_reducible apply State.ccShow_follows (within hmsk (by decide)) | with_reducible apply State.when_follows
    | with_reducible apply State.flag_follows | with_reducible apply State.wr_follows | with_reducible apply Follows.ite | split
    | dsimp only

theorem execServiceLevelChange_follows {msk : Nat} (hmsk : msk ||| 655379 = msk) {z s : State} (h : Follows msk z s) : ∃ nx,
    execServiceLevelChange s = .next nx ∧ Follows msk z nx := by
  unfold execServiceLevelChange; refine done_follows ?_
  repeat' first
    | with_reducible assumption | (intro _) | with_reducible apply State.powerRecord_follows (within hmsk (by decide))
    | with_reducible apply State.modSvc_follows (within hmsk (by decide))
    | with_reducible apply State.domRequest_follows (within hmsk (by decide))
    | with_reducible apply State.levelFall_follows (within hmsk (by decide)) | with_reducible apply State.when_follows
    | with_reducible apply foldS_follows | with_reducible apply Follows.ite | split | dsimp only

theorem execMainPwr_follows {msk : Nat} (hmsk : msk ||| 131074 = msk) {z s : State} (h : Follows msk z s) : ∃ nx, execMainPwr s = .next
    nx ∧ Follows msk z nx := by
  unfold execMainPwr; refine done_follows ?_
  repeat' first
    | with_reducible assumption | (intro _) | with_reducible apply State.svcUpdate_follows (within hmsk (by decide))
    | with_reducible apply State.raise_follows (within hmsk (by decide)) | with_reducible apply State.when_follows | split | dsimp only

theorem execSrcEnWrite_follows {msk : Nat} (hmsk : msk ||| 655387 = msk) {z s : State} (p : Sys2Proof.Path) (en : Bool) (h : Follows msk
    z s) : ∃ nx, execSrcEnWrite p en s = .next nx ∧ Follows msk z nx := by
  unfold execSrcEnWrite; refine done_follows ?_
  repeat' first
    | with_reducible assumption | (intro _) | with_reducible apply State.writeOwn_follows (within hmsk (by decide))
    | with_reducible apply State.svcUpdate_follows (within hmsk (by decide)) | with_reducible apply State.flag_follows
    | with_reducible apply Follows.ite | split | dsimp only

theorem execPdMessageRx_follows {msk : Nat} (hmsk : msk ||| 131074 = msk) {z s : State} (sop : Nat) (msg : List Sys2Proof.Byte) (crcOk :
    Bool) (early : Bool) (h : Follows msk z s) : ∃ nx, execPdMessageRx sop msg crcOk early s = .next nx ∧ Follows msk z nx := by
  unfold execPdMessageRx; refine done_follows ?_
  repeat' first
    | with_reducible assumption | (intro _) | with_reducible apply State.txEnd_follows (within hmsk (by decide))
    | with_reducible apply State.modSvc_follows (within hmsk (by decide))
    | with_reducible apply State.raise_follows (within hmsk (by decide)) | with_reducible apply State.showRx_follows
    | with_reducible apply State.when_follows | with_reducible apply State.inc_follows | with_reducible apply State.emit_follows
    | with_reducible apply State.flag_follows | with_reducible apply Follows.ite | split | dsimp only

theorem execPdRxPop_follows {msk : Nat} (hmsk : msk ||| 655387 = msk) {z s : State} (p : Sys2Proof.Path) (h : Follows msk z s) : ∃ nx,
    execPdRxPop p s = .next nx ∧ Follows msk z nx := by
  unfold execPdRxPop; refine done_follows ?_
  repeat' first
    | with_reducible assumption | (intro _) | with_reducible apply State.readOwn_follows (within hmsk (by decide))
    | with_reducible apply State.showRx_follows | with_reducible apply State.modSvc_follows (within hmsk (by decide)) | split | dsimp only

theorem State.sinkOk_follows {msk : Nat} (hmsk : msk ||| 131072 = msk) {z s : State} (h : Follows msk z s) : Follows msk z (State.sinkOk
    s) := by
  unfold State.sinkOk
  repeat' first
    | with_reducible assumption | (intro _) | with_reducible apply State.ccShow_follows (within hmsk (by decide))
    | with_reducible apply State.modSvc_follows (within hmsk (by decide)) | with_reducible apply State.when_follows | split | dsimp only

theorem State.pdSend_follows {msk : Nat} (hmsk : msk ||| 131074 = msk) {z s : State} (h : Follows msk z s) : Follows msk z (State.pdSend
    s) := by
  unfold State.pdSend
  repeat' first
    | with_reducible assumption | (intro _) | with_reducible apply State.sinkOk_follows (within hmsk (by decide))
    | with_reducible apply State.txEnd_follows (within hmsk (by decide))
    | with_reducible apply State.modSvc_follows (within hmsk (by decide))
    | with_reducible apply State.ccShow_follows (within hmsk (by decide))
    | with_reducible apply State.pdTransmit_follows (within hmsk (by decide)) | with_reducible apply State.when_follows
    | with_reducible apply State.wr_follows | with_reducible apply Follows.ite | split | dsimp only

theorem execPdSend_follows {msk : Nat} (hmsk : msk ||| 655387 = msk) {z s : State} (p : Sys2Proof.Path) (v : Nat) (h : Follows msk z s)
    : ∃ nx, execPdSend p v s = .next nx ∧ Follows msk z nx := by
  unfold execPdSend; refine done_follows ?_
  repeat' first
    | with_reducible assumption | (intro _) | with_reducible apply State.writeOwn_follows (within hmsk (by decide))
    | with_reducible apply State.pdSend_follows (within hmsk (by decide)) | with_reducible apply State.wr_follows
    | with_reducible apply Follows.ite | split | dsimp only

theorem execPdCaDelayEnd_follows {msk : Nat} (hmsk : msk ||| 131072 = msk) {z s : State} (h : Follows msk z s) : ∃ nx, execPdCaDelayEnd
    s = .next nx ∧ Follows msk z nx := by
  unfold execPdCaDelayEnd; refine done_follows ?_
  repeat' first
    | with_reducible assumption | (intro _) | with_reducible apply State.pdTransmit_follows (within hmsk (by decide))
    | with_reducible apply State.when_follows | split | dsimp only

theorem execGoodcrcTimeout_follows {msk : Nat} (hmsk : msk ||| 131074 = msk) {z s : State} (h : Follows msk z s) : ∃ nx,
    execGoodcrcTimeout s = .next nx ∧ Follows msk z nx := by
  unfold execGoodcrcTimeout; refine done_follows ?_
  repeat' first
    | with_reducible assumption | (intro _) | with_reducible apply State.pdTransmit_follows (within hmsk (by decide))
    | with_reducible apply State.txEnd_follows (within hmsk (by decide)) | with_reducible apply State.when_follows
    | with_reducible apply State.inc_follows | with_reducible apply Follows.ite | split | dsimp only

theorem execHardResetRx_follows {msk : Nat} (hmsk : msk ||| 131074 = msk) {z s : State} (h : Follows msk z s) : ∃ nx, execHardResetRx s
    = .next nx ∧ Follows msk z nx := by
  unfold execHardResetRx; refine done_follows ?_
  repeat' first
    | with_reducible assumption | (intro _) | with_reducible apply State.raise_follows (within hmsk (by decide))
    | with_reducible apply State.pdClear_follows (within hmsk (by decide))
    | with_reducible apply State.txEnd_follows (within hmsk (by decide)) | with_reducible apply State.when_follows
    | with_reducible apply State.incSat_follows | split | dsimp only

theorem State.pdResetSend_follows {msk : Nat} (hmsk : msk ||| 131074 = msk) {z s : State} (kind : Nat) (h : Follows msk z s) : Follows
    msk z (State.pdResetSend s kind) := by
  unfold State.pdResetSend
  repeat' first
    | with_reducible assumption | (intro _) | with_reducible apply State.pdClear_follows (within hmsk (by decide))
    | with_reducible apply State.txEnd_follows (within hmsk (by decide))
    | with_reducible apply State.raise_follows (within hmsk (by decide)) | with_reducible apply State.when_follows
    | with_reducible apply State.emit_follows | with_reducible apply State.incSat_follows | split | dsimp only

theorem cmdHardReset_follows {msk : Nat} (hmsk : msk ||| 131074 = msk) {z t : State} (p : Sys2Proof.Path) (h : Follows msk z t) :
    Follows msk z ((cmdHardReset p).act t) := by
  unfold cmdHardReset; dsimp only
  repeat' first
    | with_reducible assumption | (intro _) | with_reducible apply State.pdResetSend_follows (within hmsk (by decide)) | split
    | dsimp only

theorem execHardReset_follows {msk : Nat} (hmsk : msk ||| 655387 = msk) {z s : State} (p : Sys2Proof.Path) (h : Follows msk z s) : ∃ nx,
    execHardReset p s = .next nx ∧ Follows msk z nx := by
  unfold execHardReset; refine done_follows ?_
  repeat' first
    | with_reducible assumption | (intro _) | with_reducible apply State.runCmd_follows (within hmsk (by decide))
    | with_reducible apply cmdHardReset_follows (within hmsk (by decide)) | split | dsimp only

theorem cmdCableReset_follows {msk : Nat} (hmsk : msk ||| 131074 = msk) {z t : State} (p : Sys2Proof.Path) (h : Follows msk z t) :
    Follows msk z ((cmdCableReset p).act t) := by
  unfold cmdCableReset; dsimp only
  repeat' first
    | with_reducible assumption | (intro _) | with_reducible apply State.pdResetSend_follows (within hmsk (by decide)) | split
    | dsimp only

theorem execCableReset_follows {msk : Nat} (hmsk : msk ||| 655387 = msk) {z s : State} (p : Sys2Proof.Path) (h : Follows msk z s) : ∃
    nx, execCableReset p s = .next nx ∧ Follows msk z nx := by
  unfold execCableReset; refine done_follows ?_
  repeat' first
    | with_reducible assumption | (intro _) | with_reducible apply State.runCmd_follows (within hmsk (by decide))
    | with_reducible apply cmdCableReset_follows (within hmsk (by decide)) | split | dsimp only

theorem execSwapHoldWrite_follows {msk : Nat} (hmsk : msk ||| 524315 = msk) {z s : State} (p : Sys2Proof.Path) (v : Bool) (h : Follows
    msk z s) : ∃ nx, execSwapHoldWrite p v s = .next nx ∧ Follows msk z nx := by
  unfold execSwapHoldWrite; refine done_follows ?_
  repeat' first
    | with_reducible assumption | (intro _) | with_reducible apply State.writeOwn_follows (within hmsk (by decide))
    | with_reducible apply State.flag_follows | split | dsimp only

theorem execSwapHoldExpiry_follows {msk : Nat} {z s : State} (h : Follows msk z s) : ∃ nx, execSwapHoldExpiry s = .next nx ∧ Follows msk
    z nx := by
  unfold execSwapHoldExpiry; refine done_follows ?_
  repeat' first
    | with_reducible assumption | (intro _) | with_reducible apply State.when_follows | with_reducible apply State.flag_follows | split
    | dsimp only

theorem State.pwrRoleWritten_follows {msk : Nat} (hmsk : msk ||| 131072 = msk) {z s : State} (h : Follows msk z s) : Follows msk z
    (State.pwrRoleWritten s) := by
  unfold State.pwrRoleWritten
  repeat' first
    | with_reducible assumption | (intro _) | with_reducible apply State.svcUpdate_follows (within hmsk (by decide))
    | with_reducible apply State.when_follows | with_reducible apply State.wr_follows | with_reducible apply State.flag_follows
    | with_reducible apply Follows.ite | split | dsimp only

theorem execPwrRoleWrite_follows {msk : Nat} (hmsk : msk ||| 655387 = msk) {z s : State} (p : Sys2Proof.Path) (src : Bool) (h : Follows
    msk z s) : ∃ nx, execPwrRoleWrite p src s = .next nx ∧ Follows msk z nx := by
  unfold execPwrRoleWrite; refine done_follows ?_
  repeat' first
    | with_reducible assumption | (intro _) | with_reducible apply State.writeOwn_follows (within hmsk (by decide))
    | with_reducible apply State.pwrRoleWritten_follows (within hmsk (by decide)) | with_reducible apply State.flag_follows
    | with_reducible apply Follows.ite | split | dsimp only

theorem State.vbProtect_follows {msk : Nat} (hmsk : msk ||| 131074 = msk) {z s : State} (h : Follows msk z s) : Follows msk z
    (State.vbProtect s) := by
  unfold State.vbProtect
  repeat' first
    | with_reducible assumption | (intro _) | with_reducible apply State.svcUpdate_follows (within hmsk (by decide))
    | with_reducible apply State.raise_follows (within hmsk (by decide)) | with_reducible apply State.when_follows
    | with_reducible apply State.wr_follows | split | dsimp only

theorem execVbusFault_follows {msk : Nat} (hmsk : msk ||| 131074 = msk) {z s : State} (vbus : Nat) (ma : Int) (h : Follows msk z s) : ∃
    nx, execVbusFault vbus ma s = .next nx ∧ Follows msk z nx := by
  unfold execVbusFault; refine done_follows ?_
  repeat' first
    | with_reducible assumption | (intro _) | with_reducible apply State.vbProtect_follows (within hmsk (by decide))
    | with_reducible apply State.when_follows | with_reducible apply State.wr_follows | with_reducible apply State.flag_follows | split
    | dsimp only

theorem cmdVbClear_follows {msk : Nat} (hmsk : msk ||| 131072 = msk) {z t : State} (p : Sys2Proof.Path) (h : Follows msk z t) : Follows
    msk z ((cmdVbClear p).act t) := by
  unfold cmdVbClear; dsimp only
  repeat' first
    | with_reducible assumption | (intro _) | with_reducible apply State.svcUpdate_follows (within hmsk (by decide))
    | with_reducible apply State.wr_follows | with_reducible apply Follows.ite | split | dsimp only

theorem execVbClear_follows {msk : Nat} (hmsk : msk ||| 655387 = msk) {z s : State} (p : Sys2Proof.Path) (h : Follows msk z s) : ∃ nx,
    execVbClear p s = .next nx ∧ Follows msk z nx := by
  unfold execVbClear; refine done_follows ?_
  repeat' first
    | with_reducible assumption | (intro _) | with_reducible apply State.runCmd_follows (within hmsk (by decide))
    | with_reducible apply cmdVbClear_follows (within hmsk (by decide)) | split | dsimp only

theorem execOvpThrWrite_follows {msk : Nat} (hmsk : msk ||| 524315 = msk) {z s : State} (p : Sys2Proof.Path) (v : Nat) (h : Follows msk
    z s) : ∃ nx, execOvpThrWrite p v s = .next nx ∧ Follows msk z nx := by
  unfold execOvpThrWrite; refine done_follows ?_
  repeat' first
    | with_reducible assumption | (intro _) | with_reducible apply State.writeOwn_follows (within hmsk (by decide))
    | with_reducible apply State.wr_follows | with_reducible apply Follows.ite | split | dsimp only

end Sys2Proof.Machine
end

