-- ==== Sys2Proof/Laws/FolPower.lean ====
section
/-!
SUPPORT. `Follows` for the operations and meanings of `Power.lean`.
-/

namespace Sys2Proof.Machine

open Host (Outcome)

set_option linter.unusedTactic false
set_option linter.unreachableTactic false
set_option linter.unusedSimpArgs false
set_option linter.unusedVariables false

theorem State.modPw_follows {msk : Nat} (hmsk : msk ||| 8 = msk) {z s : State} (n : Nat) (f : LinkIdle → LinkIdle) (h : Follows msk z s)
    : Follows msk z (State.modPw s n f) := by
  unfold State.modPw
  repeat' first
    | with_reducible assumption | (intro _) | with_reducible apply State.modPort_follows (within hmsk (by decide)) | split | dsimp only

theorem State.sendIdleReq_follows {msk : Nat} (hmsk : msk ||| 8 = msk) {z s : State} (n : Nat) (power : Nat) (cycle : Nat) (h : Follows
    msk z s) : Follows msk z (State.sendIdleReq s n power cycle) := by
  unfold State.sendIdleReq
  repeat' first
    | with_reducible assumption | (intro _) | with_reducible apply State.modPw_follows (within hmsk (by decide))
    | with_reducible apply State.queueUnit_follows (within hmsk (by decide)) | split | dsimp only

theorem State.suspendLinks_follows {msk : Nat} (hmsk : msk ||| 8 = msk) {z s : State} (target : Nat) (h : Follows msk z s) : Follows msk
    z (State.suspendLinks s target) := by
  unfold State.suspendLinks
  repeat' first
    | with_reducible assumption | (intro _) | with_reducible apply State.sendIdleReq_follows (within hmsk (by decide))
    | with_reducible apply foldS_follows | with_reducible apply State.when_follows | split | dsimp only

theorem State.goIdle_follows {msk : Nat} (hmsk : msk ||| 8 = msk) {z s : State} (n : Nat) (h : Follows msk z s) : Follows msk z
    (State.goIdle s n) := by
  unfold State.goIdle
  repeat' first
    | with_reducible assumption | (intro _) | with_reducible apply State.modPw_follows (within hmsk (by decide)) | split | dsimp only

theorem execLinkIdleTimer_follows {msk : Nat} (hmsk : msk ||| 8 = msk) {z s : State} (n : Nat) (h : Follows msk z s) : ∃ nx,
    execLinkIdleTimer n s = .next nx ∧ Follows msk z nx := by
  unfold execLinkIdleTimer; refine done_follows ?_
  repeat' first
    | with_reducible assumption | (intro _) | with_reducible apply State.sendIdleReq_follows (within hmsk (by decide))
    | with_reducible apply State.when_follows | split | dsimp only

theorem execIdleReq_follows {msk : Nat} (hmsk : msk ||| 8 = msk) {z s : State} (n : Nat) (power : Nat) (cycle : Nat) (h : Follows msk z
    s) : ∃ nx, execIdleReq n power cycle s = .next nx ∧ Follows msk z nx := by
  unfold execIdleReq; refine done_follows ?_
  repeat' first
    | with_reducible assumption | (intro _) | with_reducible apply State.modPw_follows (within hmsk (by decide))
    | with_reducible apply State.queueUnit_follows (within hmsk (by decide))
    | with_reducible apply State.goIdle_follows (within hmsk (by decide)) | with_reducible apply State.when_follows
    | with_reducible apply Follows.ite | split | dsimp only

theorem State.answerIdle_follows {msk : Nat} (hmsk : msk ||| 8 = msk) {z s : State} (n : Nat) (h : Follows msk z s) : Follows msk z
    (State.answerIdle s n) := by
  unfold State.answerIdle
  repeat' first
    | with_reducible assumption | (intro _) | with_reducible apply State.goIdle_follows (within hmsk (by decide))
    | with_reducible apply State.queueUnit_follows (within hmsk (by decide)) | with_reducible apply State.when_follows | split
    | dsimp only

theorem execIdleAck_follows {msk : Nat} (hmsk : msk ||| 8 = msk) {z s : State} (n : Nat) (power : Nat) (cycle : Nat) (h : Follows msk z
    s) : ∃ nx, execIdleAck n power cycle s = .next nx ∧ Follows msk z nx := by
  unfold execIdleAck; refine done_follows ?_
  repeat' first
    | with_reducible assumption | (intro _) | with_reducible apply State.modPw_follows (within hmsk (by decide))
    | with_reducible apply State.goIdle_follows (within hmsk (by decide)) | with_reducible apply State.when_follows
    | with_reducible apply Follows.ite | split | dsimp only

theorem execLinkSuspend_follows {msk : Nat} (hmsk : msk ||| 8 = msk) {z s : State} (n : Nat) (h : Follows msk z s) : ∃ nx,
    execLinkSuspend n s = .next nx ∧ Follows msk z nx := by
  unfold execLinkSuspend; refine done_follows ?_
  repeat' first
    | with_reducible assumption | (intro _) | with_reducible apply State.modPw_follows (within hmsk (by decide))
    | with_reducible apply State.when_follows | split | dsimp only

theorem State.lull_follows {msk : Nat} (hmsk : msk ||| 8 = msk) {z s : State} (n : Nat) (h : Follows msk z s) : Follows msk z
    (State.lull s n) := by
  unfold State.lull
  repeat' first
    | with_reducible assumption | (intro _) | with_reducible apply State.sendIdleReq_follows (within hmsk (by decide))
    | with_reducible apply State.when_follows | split | dsimp only

theorem execLinkResume_follows {msk : Nat} (hmsk : msk ||| 335 = msk) {z s : State} (n : Nat) (ok : Bool) (h : Follows msk z s) : ∃ nx,
    execLinkResume n ok s = .next nx ∧ Follows msk z nx := by
  unfold execLinkResume; refine done_follows ?_
  repeat' first
    | with_reducible assumption | (intro _) | with_reducible apply State.linkDown_follows (within hmsk (by decide))
    | with_reducible apply State.raise_follows (within hmsk (by decide))
    | with_reducible apply State.retrain_follows (within hmsk (by decide))
    | with_reducible apply State.modPw_follows (within hmsk (by decide))
    | with_reducible apply State.lull_follows (within hmsk (by decide)) | with_reducible apply State.when_follows
    | with_reducible apply Follows.ite | split | dsimp only

theorem State.retDiscard_follows {msk : Nat} (hmsk : msk ||| 330 = msk) {z s : State} (target : Nat) (h : Follows msk z s) : Follows msk
    z (State.retDiscard s target) := by
  unfold State.retDiscard
  repeat' first
    | with_reducible assumption | (intro _) | with_reducible apply State.release_follows (within hmsk (by decide))
    | with_reducible apply State.raise_follows (within hmsk (by decide))
    | with_reducible apply State.removeFrame_follows (within hmsk (by decide)) | with_reducible apply foldS_follows
    | with_reducible apply State.inc_follows | split | dsimp only

theorem State.keepBanks_follows {msk : Nat} {z s : State} (target : Nat) (h : Follows msk z s) : Follows msk z (State.keepBanks s
    target) := by
  unfold State.keepBanks
  repeat' first
    | with_reducible assumption | (intro _) | with_reducible apply foldS_follows | with_reducible apply State.when_follows
    | with_reducible apply State.setBit_follows | with_reducible apply Follows.ite | split | dsimp only

theorem State.doms3Off_follows {msk : Nat} (hmsk : msk ||| 1 = msk) {z s : State} (keep : List Nat) (h : Follows msk z s) : Follows msk
    z (State.doms3Off s keep) := by
  unfold State.doms3Off
  repeat' first
    | with_reducible assumption | (intro _) | with_reducible apply State.setDomainUp_follows
    | with_reducible apply State.setDom_follows (within hmsk (by decide)) | with_reducible apply foldS_follows | split | dsimp only

theorem State.enterState_follows {msk : Nat} (hmsk : msk ||| 347 = msk) {z s : State} (target : Nat) (h : Follows msk z s) : Follows msk
    z (State.enterState s target) := by
  unfold State.enterState
  repeat' first
    | with_reducible assumption | (intro _) | with_reducible apply State.modPwr_follows (within hmsk (by decide))
    | with_reducible apply State.raise_follows (within hmsk (by decide))
    | with_reducible apply State.lull_follows (within hmsk (by decide))
    | with_reducible apply State.doms3Off_follows (within hmsk (by decide)) | with_reducible apply State.keepBanks_follows
    | with_reducible apply State.retDiscard_follows (within hmsk (by decide))
    | with_reducible apply State.vRequest_follows (within hmsk (by decide)) | with_reducible apply State.wr_follows
    | with_reducible apply foldS_follows | with_reducible apply State.when_follows | with_reducible apply Follows.ite | split | dsimp only

theorem State.entryDropped_follows {msk : Nat} (hmsk : msk ||| 24 = msk) {z s : State} (h : Follows msk z s) : Follows msk z
    (State.entryDropped s) := by
  unfold State.entryDropped
  repeat' first
    | with_reducible assumption | (intro _) | with_reducible apply State.resumeLink_follows (within hmsk (by decide))
    | with_reducible apply State.modPw_follows (within hmsk (by decide))
    | with_reducible apply State.modPwr_follows (within hmsk (by decide)) | with_reducible apply foldS_follows | split | dsimp only

theorem State.targetWritten_follows {msk : Nat} (hmsk : msk ||| 524635 = msk) {z s : State} (t : Nat) (h : Follows msk z s) : Follows
    msk z (State.targetWritten s t) := by
  unfold State.targetWritten
  repeat' first
    | with_reducible assumption | (intro _) | with_reducible apply State.enterState_follows (within hmsk (by decide))
    | with_reducible apply State.suspendLinks_follows (within hmsk (by decide))
    | with_reducible apply State.modPwr_follows (within hmsk (by decide))
    | with_reducible apply State.entryDropped_follows (within hmsk (by decide))
    | with_reducible apply State.raise_follows (within hmsk (by decide))
    | with_reducible apply State.vRequest_follows (within hmsk (by decide))
    | with_reducible apply State.exitBegin_follows (within hmsk (by decide))
    | with_reducible apply State.enterStep_follows (within hmsk (by decide)) | with_reducible apply State.wr_follows
    | with_reducible apply State.when_follows | with_reducible apply Follows.ite | split | dsimp only

theorem execTargetWrite_follows {msk : Nat} (hmsk : msk ||| 524635 = msk) {z s : State} (p : Sys2Proof.Path) (t : Nat) (h : Follows msk
    z s) : ∃ nx, execTargetWrite p t s = .next nx ∧ Follows msk z nx := by
  unfold execTargetWrite; refine done_follows ?_
  repeat' first
    | with_reducible assumption | (intro _) | with_reducible apply State.writeOwn_follows (within hmsk (by decide))
    | with_reducible apply State.targetWritten_follows (within hmsk (by decide)) | with_reducible apply Follows.ite | split | dsimp only

theorem execEntryTimeout_follows {msk : Nat} (hmsk : msk ||| 26 = msk) {z s : State} (h : Follows msk z s) : ∃ nx, execEntryTimeout s =
    .next nx ∧ Follows msk z nx := by
  unfold execEntryTimeout; refine done_follows ?_
  repeat' first
    | with_reducible assumption | (intro _) | with_reducible apply State.entryDropped_follows (within hmsk (by decide))
    | with_reducible apply State.raise_follows (within hmsk (by decide)) | with_reducible apply State.when_follows
    | with_reducible apply State.wr_follows | with_reducible apply State.incSat_follows | split | dsimp only

theorem execWakeEvent_follows {msk : Nat} (hmsk : msk ||| 524315 = msk) {z s : State} (cause : Nat) (h : Follows msk z s) : ∃ nx,
    execWakeEvent cause s = .next nx ∧ Follows msk z nx := by
  unfold execWakeEvent; refine done_follows ?_
  repeat' first
    | with_reducible assumption | (intro _) | with_reducible apply State.wakeBy_follows (within hmsk (by decide))
    | with_reducible apply State.when_follows | split | dsimp only

theorem execWakePin_follows {msk : Nat} (hmsk : msk ||| 524315 = msk) {z s : State} (h : Follows msk z s) : ∃ nx, execWakePin s = .next
    nx ∧ Follows msk z nx := by
  unfold execWakePin; refine done_follows ?_
  repeat' first
    | with_reducible assumption | (intro _) | with_reducible apply State.wakeBy_follows (within hmsk (by decide)) | split | dsimp only

theorem execStateExitComplete_follows {msk : Nat} (hmsk : msk ||| 524635 = msk) {z s : State} (h : Follows msk z s) : ∃ nx,
    execStateExitComplete s = .next nx ∧ Follows msk z nx := by
  unfold execStateExitComplete; refine done_follows ?_
  repeat' first
    | with_reducible assumption | (intro _) | with_reducible apply State.modPwr_follows (within hmsk (by decide))
    | with_reducible apply State.raise_follows (within hmsk (by decide))
    | with_reducible apply State.modPw_follows (within hmsk (by decide))
    | with_reducible apply State.vRequest_follows (within hmsk (by decide))
    | with_reducible apply State.targetWritten_follows (within hmsk (by decide)) | with_reducible apply State.when_follows
    | with_reducible apply State.wr_follows | with_reducible apply State.incSat_follows | with_reducible apply foldS_follows
    | with_reducible apply Follows.ite | split | dsimp only

theorem execAlarmFire_follows {msk : Nat} (hmsk : msk ||| 524315 = msk) {z s : State} (h : Follows msk z s) : ∃ nx, execAlarmFire s =
    .next nx ∧ Follows msk z nx := by
  unfold execAlarmFire; refine done_follows ?_
  repeat' first
    | with_reducible assumption | (intro _) | with_reducible apply State.wakeBy_follows (within hmsk (by decide))
    | with_reducible apply State.raise_follows (within hmsk (by decide)) | with_reducible apply State.when_follows
    | with_reducible apply State.flag_follows | split | dsimp only

theorem execVigilSample_follows {msk : Nat} (hmsk : msk ||| 524315 = msk) {z s : State} (cause : Nat) (h : Follows msk z s) : ∃ nx,
    execVigilSample cause s = .next nx ∧ Follows msk z nx := by
  unfold execVigilSample; refine done_follows ?_
  repeat' first
    | with_reducible assumption | (intro _) | with_reducible apply State.wakeBy_follows (within hmsk (by decide))
    | with_reducible apply State.when_follows | split | dsimp only

theorem execDomainIdleOff_follows {msk : Nat} (hmsk : msk ||| 1 = msk) {z s : State} (d : Nat) (h : Follows msk z s) : ∃ nx,
    execDomainIdleOff d s = .next nx ∧ Follows msk z nx := by
  unfold execDomainIdleOff; refine done_follows ?_
  repeat' first
    | with_reducible assumption | (intro _) | with_reducible apply State.domOffReq_follows (within hmsk (by decide))
    | with_reducible apply State.when_follows | split | dsimp only

theorem execVreqWrite_follows {msk : Nat} (hmsk : msk ||| 524315 = msk) {z s : State} (p : Sys2Proof.Path) (v : Nat) (h : Follows msk z
    s) : ∃ nx, execVreqWrite p v s = .next nx ∧ Follows msk z nx := by
  unfold execVreqWrite; refine done_follows ?_
  repeat' first
    | with_reducible assumption | (intro _) | with_reducible apply State.writeOwn_follows (within hmsk (by decide))
    | with_reducible apply State.vRequest_follows (within hmsk (by decide)) | with_reducible apply State.wr_follows | split | dsimp only

theorem execPmbusPoll_follows {msk : Nat} (hmsk : msk ||| 18 = msk) {z s : State} (status : Nat) (pg0 : Bool) (held : Bool) (err : Nat)
    (h : Follows msk z s) : ∃ nx, execPmbusPoll status pg0 held err s = .next nx ∧ Follows msk z nx := by
  unfold execPmbusPoll; refine done_follows ?_
  repeat' first
    | with_reducible assumption | (intro _) | with_reducible apply State.vFail_follows (within hmsk (by decide))
    | with_reducible apply State.modPwr_follows (within hmsk (by decide))
    | with_reducible apply State.vEnd_follows (within hmsk (by decide))
    | with_reducible apply State.raise_follows (within hmsk (by decide)) | with_reducible apply State.when_follows
    | with_reducible apply State.wr_follows | with_reducible apply State.flag_follows | with_reducible apply Follows.ite | split
    | dsimp only

theorem execVreqTimeout_follows {msk : Nat} (hmsk : msk ||| 18 = msk) {z s : State} (h : Follows msk z s) : ∃ nx, execVreqTimeout s =
    .next nx ∧ Follows msk z nx := by
  unfold execVreqTimeout; refine done_follows ?_
  repeat' first
    | with_reducible assumption | (intro _) | with_reducible apply State.vFail_follows (within hmsk (by decide))
    | with_reducible apply State.when_follows | split | dsimp only

theorem execVminDeclWrite_follows {msk : Nat} (hmsk : msk ||| 524315 = msk) {z s : State} (p : Sys2Proof.Path) (v : Nat) (h : Follows
    msk z s) : ∃ nx, execVminDeclWrite p v s = .next nx ∧ Follows msk z nx := by
  unfold execVminDeclWrite; refine done_follows ?_
  repeat' first
    | with_reducible assumption | (intro _) | with_reducible apply State.writeOwn_follows (within hmsk (by decide))
    | with_reducible apply State.wr_follows | split | dsimp only

theorem State.boostShow_follows {msk : Nat} {z s : State} (h : Follows msk z s) : Follows msk z (State.boostShow s) := by
  unfold State.boostShow
  repeat' first
    | with_reducible assumption | (intro _) | with_reducible apply State.flag_follows | split | dsimp only

theorem execBoostTick_follows {msk : Nat} (hmsk : msk ||| 18 = msk) {z s : State} (h : Follows msk z s) : ∃ nx, execBoostTick s = .next
    nx ∧ Follows msk z nx := by
  unfold execBoostTick; refine done_follows ?_
  repeat' first
    | with_reducible assumption | (intro _) | with_reducible apply State.modPwr_follows (within hmsk (by decide))
    | with_reducible apply State.boostShow_follows | with_reducible apply State.powerRecord_follows (within hmsk (by decide))
    | with_reducible apply State.raise_follows (within hmsk (by decide))
    | with_reducible apply State.vRequest_follows (within hmsk (by decide)) | with_reducible apply State.wr_follows
    | with_reducible apply State.when_follows | with_reducible apply Follows.ite | split | dsimp only

theorem execThermalHot_follows {msk : Nat} (hmsk : msk ||| 18 = msk) {z s : State} (h : Follows msk z s) : ∃ nx, execThermalHot s =
    .next nx ∧ Follows msk z nx := by
  unfold execThermalHot; refine done_follows ?_
  repeat' first
    | with_reducible assumption | (intro _) | with_reducible apply State.powerRecord_follows (within hmsk (by decide))
    | with_reducible apply State.raise_follows (within hmsk (by decide))
    | with_reducible apply State.vRequest_follows (within hmsk (by decide)) | with_reducible apply State.when_follows
    | with_reducible apply State.flag_follows | split | dsimp only

theorem execTjUpdate_follows {msk : Nat} (hmsk : msk ||| 2 = msk) {z s : State} (t0 : Int) (t1 : Int) (t2 : Int) (t3 : Int) (h : Follows
    msk z s) : ∃ nx, execTjUpdate t0 t1 t2 t3 s = .next nx ∧ Follows msk z nx := by
  unfold execTjUpdate; refine done_follows ?_
  repeat' first
    | with_reducible assumption | (intro _) | with_reducible apply State.boostShow_follows
    | with_reducible apply State.raise_follows (within hmsk (by decide)) | with_reducible apply foldS_follows
    | with_reducible apply State.wr_follows | with_reducible apply State.when_follows | with_reducible apply State.flag_follows
    | simp only [LFollows.pair_iff] | with_reducible refine LFollows.of_eq ?_ (by with_reducible assumption)
    | simp only [RFollows.pair_iff] | with_reducible refine RFollows.of_eq ?_ (by with_reducible assumption)
    | with_reducible apply foldl_fst_follows | with_reducible apply foldl_snd_follows | with_reducible apply foldl_follows
    | with_reducible refine LFollows.fst (foldl_fst_follows _ _ ?_ ?_) | with_reducible refine RFollows.snd (foldl_snd_follows _ _ ?_ ?_)
    | with_reducible exact LFollows.fst (by with_reducible assumption) | with_reducible exact RFollows.snd (by with_reducible assumption)
    | split | dsimp only

end Sys2Proof.Machine
end

