-- ==== Sys2Proof/Laws/FolStationOps.lean ====
section
/-!
SUPPORT. `Follows` for the operations and meanings of `StationOps.lean`.
-/

namespace Sys2Proof.Machine

open Host (Outcome)

set_option linter.unusedTactic false
set_option linter.unreachableTactic false
set_option linter.unusedSimpArgs false
set_option linter.unusedVariables false

theorem State.modStn_follows {msk : Nat} (hmsk : msk ||| 32768 = msk) {z s : State} (f : StationS → StationS) (h : Follows msk z s) :
    Follows msk z (State.modStn s f) := by
  unfold State.modStn
  repeat' first
    | with_reducible assumption | (intro _) | simp only [Follows.stn_iff (within hmsk (by decide))] | split | dsimp only

theorem State.matchFrame_follows {msk : Nat} (hmsk : msk ||| 32768 = msk) {z s : State} (port : Option Nat) (b : List Sys2Proof.Byte)
    (endQ : Nat) (h : Follows msk z s) : Follows msk z (State.matchFrame s port b endQ) := by
  unfold State.matchFrame
  repeat' first
    | with_reducible assumption | (intro _) | with_reducible apply State.modStn_follows (within hmsk (by decide))
    | with_reducible apply Follows.ite | split | dsimp only

theorem State.dupNote_follows {msk : Nat} (hmsk : msk ||| 32768 = msk) {z s : State} (lre : Nat) (mac : Nat) (seq : Nat) (port : Nat) (h
    : Follows msk z s) : Follows msk z (State.dupNote s lre mac seq port) := by
  unfold State.dupNote
  repeat' first
    | with_reducible assumption | (intro _) | with_reducible apply State.modStn_follows (within hmsk (by decide))
    | with_reducible apply State.when_follows | with_reducible apply State.inc_follows | with_reducible apply Follows.ite | split
    | dsimp only

theorem State.nodeSeen_follows {msk : Nat} (hmsk : msk ||| 32770 = msk) {z s : State} (lre : Nat) (b : List Sys2Proof.Byte) (h : Follows
    msk z s) : Follows msk z (State.nodeSeen s lre b) := by
  unfold State.nodeSeen
  repeat' first
    | with_reducible assumption | (intro _) | with_reducible apply State.modStn_follows (within hmsk (by decide))
    | with_reducible apply State.raise_follows (within hmsk (by decide)) | with_reducible apply State.when_follows
    | with_reducible apply Follows.ite | split | dsimp only

theorem State.lreSeq_follows {msk : Nat} (hmsk : msk ||| 32768 = msk) {z s : State} (lre : Nat) (h : Follows msk z s) : RFollows msk z
    (State.lreSeq s lre) := by
  unfold State.lreSeq
  repeat' first
    | with_reducible assumption | (intro _) | with_reducible apply State.modStn_follows (within hmsk (by decide))
    | simp only [RFollows.pair_iff] | with_reducible refine RFollows.of_eq ?_ (by with_reducible assumption) | split | dsimp only

theorem State.ethSend_follows {msk : Nat} {z s : State} (port : Nat) (tc : Nat) (b : List Sys2Proof.Byte) (h : Follows msk z s) :
    Follows msk z (State.ethSend s port tc b) := by
  unfold State.ethSend
  repeat' first
    | with_reducible assumption | (intro _) | with_reducible apply State.when_follows | with_reducible apply State.emit_follows
    | with_reducible apply State.inc_follows | split | dsimp only

theorem State.ethBegin_follows {msk : Nat} {z s : State} (port : Nat) (h : Follows msk z s) : Follows msk z (State.ethBegin s port) := by
  unfold State.ethBegin
  repeat' first
    | with_reducible assumption | (intro _) | with_reducible apply State.when_follows | with_reducible apply State.wr_follows | split
    | dsimp only

theorem State.ethOff_follows {msk : Nat} (hmsk : msk ||| 2 = msk) {z s : State} (port : Nat) (h : Follows msk z s) : Follows msk z
    (State.ethOff s port) := by
  unfold State.ethOff
  repeat' first
    | with_reducible assumption | (intro _) | with_reducible apply State.raise_follows (within hmsk (by decide))
    | with_reducible apply State.wr_follows | with_reducible apply State.flag_follows | with_reducible apply State.when_follows | split
    | dsimp only

theorem State.lreStart_follows {msk : Nat} (hmsk : msk ||| 32768 = msk) {z s : State} (lre : Nat) (c : Sys2Proof.Cell) (h : Follows msk
    z s) : Follows msk z (State.lreStart s lre c) := by
  unfold State.lreStart
  repeat' first
    | with_reducible assumption | (intro _) | with_reducible apply State.lreSeq_follows (within hmsk (by decide))
    | with_reducible apply State.modStn_follows (within hmsk (by decide)) | with_reducible apply State.when_follows
    | with_reducible apply State.emit_follows | simp only [RFollows.pair_iff]
    | with_reducible refine RFollows.of_eq ?_ (by with_reducible assumption)
    | with_reducible refine RFollows.snd (State.lreSeq_follows (within hmsk (by decide)) _ ?_) | with_reducible apply Follows.ite | split
    | dsimp only

theorem State.ethCell_follows {msk : Nat} {z s : State} (port : Nat) (ctx : Nat) (c : Sys2Proof.Cell) (h : Follows msk z s) : Follows
    msk z (State.ethCell s port ctx c) := by
  unfold State.ethCell
  repeat' first
    | with_reducible assumption | (intro _) | with_reducible apply State.emit_follows | with_reducible apply State.when_follows
    | with_reducible apply State.inc_follows | with_reducible apply Follows.ite | split | dsimp only

theorem State.fcsCell_follows {msk : Nat} (hmsk : msk ||| 256 = msk) {z s : State} (pt : Nat) (chg : Bool) (c : Sys2Proof.Cell) (h :
    Follows msk z s) : Follows msk z (State.fcsCell s pt chg c) := by
  unfold State.fcsCell
  repeat' first
    | with_reducible assumption | (intro _) | simp only [Follows.gird_iff (within hmsk (by decide))]
    | with_reducible apply State.when_follows | with_reducible apply State.emit_follows | simp only [LFollows.pair_iff]
    | with_reducible refine LFollows.of_eq ?_ (by with_reducible assumption) | simp only [RFollows.pair_iff]
    | with_reducible refine RFollows.of_eq ?_ (by with_reducible assumption) | with_reducible apply foldl_fst_follows
    | with_reducible apply foldl_snd_follows | with_reducible apply foldl_follows
    | with_reducible refine LFollows.fst (foldl_fst_follows _ _ ?_ ?_) | with_reducible refine RFollows.snd (foldl_snd_follows _ _ ?_ ?_)
    | with_reducible exact LFollows.fst (by with_reducible assumption) | with_reducible exact RFollows.snd (by with_reducible assumption)
    | with_reducible apply Follows.ite | with_reducible apply LFollows.ite | split | dsimp only

theorem State.ethOut_follows {msk : Nat} (hmsk : msk ||| 33024 = msk) {z s : State} (pt : Nat) (ctx : Nat) (sub : Nat) (marked : Bool)
    (c : Sys2Proof.Cell) (h : Follows msk z s) : Follows msk z (State.ethOut s pt ctx sub marked c) := by
  unfold State.ethOut
  repeat' first
    | with_reducible assumption | (intro _) | with_reducible apply State.fcsCell_follows (within hmsk (by decide))
    | with_reducible apply State.lreStart_follows (within hmsk (by decide)) | with_reducible apply State.ethCell_follows
    | with_reducible apply State.when_follows | with_reducible apply Follows.ite | split | dsimp only

theorem State.stnCell_follows {msk : Nat} (hmsk : msk ||| 32768 = msk) {z s : State} (c : Sys2Proof.Cell) (h : Follows msk z s) :
    Follows msk z (State.stnCell s c) := by
  unfold State.stnCell
  repeat' first
    | with_reducible assumption | (intro _) | with_reducible apply State.modStn_follows (within hmsk (by decide))
    | with_reducible apply State.matchFrame_follows (within hmsk (by decide)) | with_reducible apply Follows.ite | split | dsimp only

theorem State.stageEntry_follows {msk : Nat} (hmsk : msk ||| 32770 = msk) {z s : State} (kind : Nat) (b : List Sys2Proof.Byte) (h :
    Follows msk z s) : Follows msk z (State.stageEntry s kind b) := by
  unfold State.stageEntry
  repeat' first
    | with_reducible assumption | (intro _) | with_reducible apply State.raise_follows (within hmsk (by decide))
    | with_reducible apply State.modStn_follows (within hmsk (by decide)) | with_reducible apply State.inc_follows
    | with_reducible apply Follows.ite | split | dsimp only

theorem State.stageEvent_follows {msk : Nat} (hmsk : msk ||| 32770 = msk) {z s : State} (typ : Nat) (sub : Nat) (stamp : Nat) (st : Nat)
    (sq : Nat) (status : Nat) (h : Follows msk z s) : Follows msk z (State.stageEvent s typ sub stamp st sq status) := by
  unfold State.stageEvent
  repeat' first
    | with_reducible assumption | (intro _) | with_reducible apply State.stageEntry_follows (within hmsk (by decide))
    | with_reducible apply State.modStn_follows (within hmsk (by decide)) | with_reducible apply Follows.ite | split | dsimp only

end Sys2Proof.Machine
end

