-- ==== Sys2Proof/Laws/FolSched.lean ====
section
/-!
SUPPORT. `Follows` for the operations and meanings of `Sched.lean`.
-/

namespace Sys2Proof.Machine

open Host (Outcome)

set_option linter.unusedTactic false
set_option linter.unreachableTactic false
set_option linter.unusedSimpArgs false
set_option linter.unusedVariables false

theorem State.owe_follows {msk : Nat} (hmsk : msk ||| 514 = msk) {z s : State} (n : Nat) (g : Nat × Nat) (h : Follows msk z s) : Follows
    msk z (State.owe s n g) := by
  unfold State.owe
  repeat' first
    | with_reducible assumption | (intro _) | simp only [Follows.sch_iff (within hmsk (by decide))]
    | with_reducible apply State.raise_follows (within hmsk (by decide)) | with_reducible apply State.inc_follows
    | with_reducible apply Follows.ite | split | dsimp only

theorem State.offerOwed_follows {msk : Nat} (hmsk : msk ||| 842 = msk) {z s : State} (n : Nat) (ecc : Sys2Proof.Tbl Nat) (x3 : List (Nat
    × Nat)) (x4 : List (Nat × Nat)) (h : Follows msk z s) : LFollows msk z (State.offerOwed s n ecc x3 x4) := by
  induction x4 generalizing s x3 with
  | nil =>
    unfold State.offerOwed
    repeat' first
      | with_reducible assumption | (intro _) | simp only [Follows.sch_iff (within hmsk (by decide))]
      | with_reducible refine LFollows.fst (ih _ ?_) | with_reducible apply State.offer_follows (within hmsk (by decide))
      | simp only [LFollows.pair_iff] | with_reducible refine LFollows.of_eq ?_ (by with_reducible assumption)
      | with_reducible refine LFollows.fst (State.offer_follows (within hmsk (by decide)) _ _ _ _ ?_) | with_reducible apply Follows.ite
      | with_reducible apply LFollows.ite | split | dsimp only
  | cons y l ih =>
    unfold State.offerOwed
    repeat' first
      | with_reducible assumption | (intro _) | simp only [Follows.sch_iff (within hmsk (by decide))] | with_reducible apply ih
      | with_reducible refine LFollows.fst (ih _ ?_) | with_reducible apply State.offer_follows (within hmsk (by decide))
      | simp only [LFollows.pair_iff] | with_reducible refine LFollows.of_eq ?_ (by with_reducible assumption)
      | with_reducible refine LFollows.fst (State.offer_follows (within hmsk (by decide)) _ _ _ _ ?_) | with_reducible apply Follows.ite
      | with_reducible apply LFollows.ite | split | dsimp only

theorem State.fillShared_follows {msk : Nat} (hmsk : msk ||| 330 = msk) {z s : State} (n : Nat) (d : Nat) (ecc : Sys2Proof.Tbl Nat) (h :
    Follows msk z s) : LFollows msk z (State.fillShared s n d ecc) := by
  unfold State.fillShared
  repeat' first
    | with_reducible assumption | (intro _) | with_reducible apply State.offerFirst_follows (within hmsk (by decide))
    | simp only [LFollows.pair_iff] | with_reducible refine LFollows.of_eq ?_ (by with_reducible assumption)
    | with_reducible refine LFollows.fst (State.offerFirst_follows (within hmsk (by decide)) _ _ _ _ ?_)
    | with_reducible apply Follows.ite | with_reducible apply LFollows.ite | split | dsimp only

theorem State.fillRest_follows {msk : Nat} (hmsk : msk ||| 842 = msk) {z s : State} (n : Nat) (d : Nat) (ecc : Sys2Proof.Tbl Nat)
    (tried7 : Bool) (h : Follows msk z s) : LFollows msk z (State.fillRest s n d ecc tried7) := by
  unfold State.fillRest
  repeat' first
    | with_reducible assumption | (intro _) | with_reducible apply State.offerOwed_follows (within hmsk (by decide))
    | with_reducible apply State.offer_follows (within hmsk (by decide))
    | with_reducible apply State.fillShared_follows (within hmsk (by decide)) | simp only [LFollows.pair_iff]
    | with_reducible refine LFollows.of_eq ?_ (by with_reducible assumption)
    | with_reducible refine LFollows.fst (State.offerOwed_follows (within hmsk (by decide)) _ _ _ _ ?_)
    | with_reducible refine LFollows.fst (State.offer_follows (within hmsk (by decide)) _ _ _ _ ?_)
    | with_reducible refine LFollows.fst (State.fillShared_follows (within hmsk (by decide)) _ _ _ ?_) | with_reducible apply Follows.ite
    | with_reducible apply LFollows.ite | split | dsimp only

theorem State.fillSlot_follows {msk : Nat} (hmsk : msk ||| 842 = msk) {z s : State} (n : Nat) (d : Nat) (ecc : Sys2Proof.Tbl Nat) (h :
    Follows msk z s) : LFollows msk z (State.fillSlot s n d ecc) := by
  unfold State.fillSlot
  repeat' first
    | with_reducible assumption | (intro _) | with_reducible apply State.offer_follows (within hmsk (by decide))
    | with_reducible apply State.owe_follows (within hmsk (by decide))
    | with_reducible apply State.fillRest_follows (within hmsk (by decide)) | with_reducible apply State.when_follows
    | simp only [LFollows.pair_iff] | with_reducible refine LFollows.of_eq ?_ (by with_reducible assumption)
    | with_reducible refine LFollows.fst (State.offer_follows (within hmsk (by decide)) _ _ _ _ ?_)
    | with_reducible refine LFollows.fst (State.fillRest_follows (within hmsk (by decide)) _ _ _ _ ?_) | with_reducible apply Follows.ite
    | with_reducible apply LFollows.ite | split | dsimp only

theorem execFillSlot_follows {msk : Nat} (hmsk : msk ||| 842 = msk) {z s : State} (n : Nat) (d : Nat) (ecc : Sys2Proof.Tbl Nat) (h :
    Follows msk z s) : ∃ nx, execFillSlot n d ecc s = .next nx ∧ Follows msk z nx := by
  unfold execFillSlot; refine done_follows ?_
  repeat' first
    | with_reducible assumption | (intro _) | with_reducible apply State.fillSlot_follows (within hmsk (by decide))
    | with_reducible apply State.sendSlot_follows | with_reducible apply State.when_follows | simp only [LFollows.pair_iff]
    | with_reducible refine LFollows.of_eq ?_ (by with_reducible assumption)
    | with_reducible refine LFollows.fst (State.fillSlot_follows (within hmsk (by decide)) _ _ _ ?_) | split | dsimp only

theorem State.unitPick_follows {msk : Nat} (hmsk : msk ||| 330 = msk) {z s : State} (n : Nat) (ecc : Sys2Proof.Tbl Nat) (x3 : List Nat)
    (h : Follows msk z s) : LFollows msk z (State.unitPick s n ecc x3) := by
  induction x3 generalizing s with
  | nil =>
    unfold State.unitPick
    repeat' first
      | with_reducible assumption | (intro _) | with_reducible refine LFollows.fst (ih ?_)
      | with_reducible apply State.charge_follows (within hmsk (by decide)) | with_reducible apply State.countOut_follows
      | with_reducible apply State.modPort_follows (within hmsk (by decide))
      | with_reducible apply State.takeCell_follows (within hmsk (by decide)) | with_reducible apply State.inc_follows
      | simp only [LFollows.pair_iff] | with_reducible refine LFollows.of_eq ?_ (by with_reducible assumption)
      | with_reducible refine LFollows.fst (State.takeCell_follows (within hmsk (by decide)) _ _ _ ?_ ?_) | with_reducible apply Follows.ite
      | with_reducible apply LFollows.ite | split | dsimp only
  | cons y l ih =>
    unfold State.unitPick
    repeat' first
      | with_reducible assumption | (intro _) | with_reducible apply ih | with_reducible refine LFollows.fst (ih ?_)
      | with_reducible apply State.charge_follows (within hmsk (by decide)) | with_reducible apply State.countOut_follows
      | with_reducible apply State.modPort_follows (within hmsk (by decide))
      | with_reducible apply State.takeCell_follows (within hmsk (by decide)) | with_reducible apply State.inc_follows
      | simp only [LFollows.pair_iff] | with_reducible refine LFollows.of_eq ?_ (by with_reducible assumption)
      | with_reducible refine LFollows.fst (State.takeCell_follows (within hmsk (by decide)) _ _ _ ?_ ?_) | with_reducible apply Follows.ite
      | with_reducible apply LFollows.ite | split | dsimp only

theorem execUnitPositionFill_follows {msk : Nat} (hmsk : msk ||| 330 = msk) {z s : State} (n : Nat) (ecc : Sys2Proof.Tbl Nat) (h :
    Follows msk z s) : ∃ nx, execUnitPositionFill n ecc s = .next nx ∧ Follows msk z nx := by
  unfold execUnitPositionFill; refine done_follows ?_
  repeat' first
    | with_reducible assumption | (intro _) | with_reducible apply State.modPort_follows (within hmsk (by decide))
    | with_reducible apply State.sendSlot_follows | with_reducible apply State.unitPick_follows (within hmsk (by decide))
    | with_reducible apply State.when_follows | simp only [LFollows.pair_iff]
    | with_reducible refine LFollows.of_eq ?_ (by with_reducible assumption)
    | with_reducible refine LFollows.fst (State.unitPick_follows (within hmsk (by decide)) _ _ _ ?_) | with_reducible apply Follows.ite
    | with_reducible apply LFollows.ite | split | dsimp only

theorem execLocalRefill1040_follows {msk : Nat} (hmsk : msk ||| 64 = msk) {z s : State} (n : Nat) (h : Follows msk z s) : ∃ nx,
    execLocalRefill1040 n s = .next nx ∧ Follows msk z nx := by
  unfold execLocalRefill1040; refine done_follows ?_
  repeat' first
    | with_reducible assumption | (intro _) | with_reducible apply State.refillCtx_follows (within hmsk (by decide))
    | with_reducible apply State.when_follows | with_reducible apply foldS_follows | split | dsimp only

theorem State.mgmtUnit_follows {msk : Nat} (hmsk : msk ||| 330 = msk) {z s : State} (n : Nat) (h : Follows msk z s) : LFollows msk z
    (State.mgmtUnit s n) := by
  unfold State.mgmtUnit
  repeat' first
    | with_reducible assumption | (intro _) | with_reducible apply State.takeCell_follows (within hmsk (by decide))
    | with_reducible apply State.countOut_follows | with_reducible apply State.charge_follows (within hmsk (by decide))
    | with_reducible apply State.inc_follows | simp only [LFollows.pair_iff]
    | with_reducible refine LFollows.of_eq ?_ (by with_reducible assumption)
    | with_reducible refine LFollows.fst (State.takeCell_follows (within hmsk (by decide)) _ _ _ ?_ ?_) | with_reducible apply Follows.ite
    | with_reducible apply LFollows.ite | split | dsimp only

theorem execControlSlotSend_follows {msk : Nat} (hmsk : msk ||| 330 = msk) {z s : State} (n : Nat) (j : Nat) (h : Follows msk z s) : ∃
    nx, execControlSlotSend n j s = .next nx ∧ Follows msk z nx := by
  unfold execControlSlotSend; refine done_follows ?_
  repeat' first
    | with_reducible assumption | (intro _) | with_reducible apply State.modTm_follows (within hmsk (by decide))
    | with_reducible apply State.fillUnits_follows (within hmsk (by decide))
    | with_reducible apply State.mgmtUnit_follows (within hmsk (by decide)) | with_reducible apply State.when_follows
    | with_reducible apply State.emit_follows | simp only [LFollows.pair_iff]
    | with_reducible refine LFollows.of_eq ?_ (by with_reducible assumption) | simp only [RFollows.pair_iff]
    | with_reducible refine RFollows.of_eq ?_ (by with_reducible assumption)
    | with_reducible refine RFollows.snd (State.fillUnits_follows (within hmsk (by decide)) _ _ ?_)
    | with_reducible refine LFollows.fst (State.mgmtUnit_follows (within hmsk (by decide)) _ ?_) | with_reducible apply Follows.ite
    | with_reducible apply LFollows.ite | split | dsimp only

theorem State.adapterOut_follows {msk : Nat} (hmsk : msk ||| 34048 = msk) {z s : State} (pt : Nat) (tc : Nat) (x : Sent) (h : Follows
    msk z s) : Follows msk z (State.adapterOut s pt tc x) := by
  unfold State.adapterOut
  repeat' first
    | with_reducible assumption | (intro _) | simp only [Follows.gird_iff (within hmsk (by decide))]
    | with_reducible apply State.countOut_follows | with_reducible apply State.npNote_follows (within hmsk (by decide))
    | with_reducible apply State.ethOut_follows (within hmsk (by decide))
    | with_reducible apply State.stnCell_follows (within hmsk (by decide)) | with_reducible apply State.when_follows
    | with_reducible apply State.inc_follows | with_reducible apply State.emit_follows | with_reducible apply Follows.ite | split
    | dsimp only

theorem State.underrun_follows {msk : Nat} (hmsk : msk ||| 330 = msk) {z s : State} (pt : Nat) (tc : Nat) (h : Follows msk z s) :
    Follows msk z (State.underrun s pt tc) := by
  unfold State.underrun
  repeat' first
    | with_reducible assumption | (intro _) | simp only [Follows.gird_iff (within hmsk (by decide))]
    | with_reducible apply State.removeFrame_follows (within hmsk (by decide))
    | with_reducible apply State.discardCells_follows (within hmsk (by decide))
    | with_reducible apply State.addDrop_follows (within hmsk (by decide)) | with_reducible apply State.emit_follows
    | with_reducible apply State.inc_follows | with_reducible apply State.when_follows | split | dsimp only

theorem State.adapterPick_follows {msk : Nat} (hmsk : msk ||| 330 = msk) {z s : State} (pt : Nat) (ecc : Sys2Proof.Tbl Nat) (x3 : List
    Nat) (h : Follows msk z s) : LFollows msk z (State.adapterPick s pt ecc x3) := by
  induction x3 generalizing s with
  | nil =>
    unfold State.adapterPick
    repeat' first
      | with_reducible assumption | (intro _) | with_reducible refine LFollows.fst (ih ?_)
      | with_reducible apply State.takeCell_follows (within hmsk (by decide)) | simp only [LFollows.pair_iff]
      | with_reducible refine LFollows.of_eq ?_ (by with_reducible assumption)
      | with_reducible refine LFollows.fst (State.takeCell_follows (within hmsk (by decide)) _ _ _ ?_ ?_) | split | dsimp only
  | cons y l ih =>
    unfold State.adapterPick
    repeat' first
      | with_reducible assumption | (intro _) | with_reducible apply ih | with_reducible refine LFollows.fst (ih ?_)
      | with_reducible apply State.takeCell_follows (within hmsk (by decide)) | simp only [LFollows.pair_iff]
      | with_reducible refine LFollows.of_eq ?_ (by with_reducible assumption)
      | with_reducible refine LFollows.fst (State.takeCell_follows (within hmsk (by decide)) _ _ _ ?_ ?_) | split | dsimp only

theorem State.openLost_follows {msk : Nat} (hmsk : msk ||| 256 = msk) {z s : State} (pt : Nat) (h : Follows msk z s) : Follows msk z
    (State.openLost s pt) := by
  unfold State.openLost
  repeat' first
    | with_reducible assumption | (intro _) | simp only [Follows.gird_iff (within hmsk (by decide))]
    | with_reducible apply State.emit_follows | with_reducible apply State.inc_follows | with_reducible apply State.when_follows
    | with_reducible apply Follows.ite | split | dsimp only

theorem execAdapterTxOpportunity_follows {msk : Nat} (hmsk : msk ||| 34122 = msk) {z s : State} (pt : Nat) (ecc : Sys2Proof.Tbl Nat) (h
    : Follows msk z s) : ∃ nx, execAdapterTxOpportunity pt ecc s = .next nx ∧ Follows msk z nx := by
  unfold execAdapterTxOpportunity; refine done_follows ?_
  repeat' first
    | with_reducible assumption | (intro _) | with_reducible apply State.openLost_follows (within hmsk (by decide))
    | with_reducible apply State.takeCell_follows (within hmsk (by decide))
    | with_reducible apply State.adapterOut_follows (within hmsk (by decide))
    | with_reducible apply State.underrun_follows (within hmsk (by decide))
    | with_reducible apply State.adapterPick_follows (within hmsk (by decide)) | with_reducible apply State.when_follows
    | simp only [LFollows.pair_iff] | with_reducible refine LFollows.of_eq ?_ (by with_reducible assumption)
    | with_reducible refine LFollows.fst (State.takeCell_follows (within hmsk (by decide)) _ _ _ ?_ ?_)
    | with_reducible refine LFollows.fst (State.adapterPick_follows (within hmsk (by decide)) _ _ _ ?_) | with_reducible apply Follows.ite
    | with_reducible apply LFollows.ite | split | dsimp only

theorem State.mtrLoad_follows {msk : Nat} {z s : State} (p : Sys2Proof.Path) (h : Follows msk z s) : Follows msk z (State.mtrLoad s p)
    := by
  unfold State.mtrLoad
  repeat' first
    | with_reducible assumption | (intro _) | with_reducible apply foldS_follows | with_reducible apply State.wr_follows | split
    | dsimp only

theorem cmdMtrLoad_follows {msk : Nat} {z t : State} (p : Sys2Proof.Path) (h : Follows msk z t) : Follows msk z ((cmdMtrLoad p).act t)
    := by
  unfold cmdMtrLoad; dsimp only
  repeat' first
    | with_reducible assumption | (intro _) | with_reducible apply State.mtrLoad_follows | split | dsimp only

theorem execMtrLoad_follows {msk : Nat} (hmsk : msk ||| 524315 = msk) {z s : State} (p : Sys2Proof.Path) (h : Follows msk z s) : ∃ nx,
    execMtrLoad p s = .next nx ∧ Follows msk z nx := by
  unfold execMtrLoad; refine done_follows ?_
  repeat' first
    | with_reducible assumption | (intro _) | with_reducible apply State.runCmd_follows (within hmsk (by decide))
    | with_reducible apply cmdMtrLoad_follows | split | dsimp only

theorem State.mtrCommit_follows {msk : Nat} (hmsk : msk ||| 514 = msk) {z s : State} (p : Sys2Proof.Path) (h : Follows msk z s) :
    Follows msk z (State.mtrCommit s p) := by
  unfold State.mtrCommit
  repeat' first
    | with_reducible assumption | (intro _) | simp only [Follows.sch_iff (within hmsk (by decide))]
    | with_reducible apply State.capture_follows (within hmsk (by decide)) | with_reducible apply State.wr_follows
    | with_reducible apply State.setWord_follows | with_reducible apply Follows.ite | split | dsimp only

theorem cmdMtrCommit_follows {msk : Nat} (hmsk : msk ||| 514 = msk) {z t : State} (p : Sys2Proof.Path) (h : Follows msk z t) : Follows
    msk z ((cmdMtrCommit p).act t) := by
  unfold cmdMtrCommit; dsimp only
  repeat' first
    | with_reducible assumption | (intro _) | with_reducible apply State.mtrCommit_follows (within hmsk (by decide)) | split | dsimp only

theorem execMtrCommit_follows {msk : Nat} (hmsk : msk ||| 524827 = msk) {z s : State} (p : Sys2Proof.Path) (h : Follows msk z s) : ∃ nx,
    execMtrCommit p s = .next nx ∧ Follows msk z nx := by
  unfold execMtrCommit; refine done_follows ?_
  repeat' first
    | with_reducible assumption | (intro _) | with_reducible apply State.runCmd_follows (within hmsk (by decide))
    | with_reducible apply cmdMtrCommit_follows (within hmsk (by decide)) | split | dsimp only

theorem State.mtrClrCnt_follows {msk : Nat} {z s : State} (p : Sys2Proof.Path) (h : Follows msk z s) : Follows msk z (State.mtrClrCnt s
    p) := by
  unfold State.mtrClrCnt
  repeat' first
    | with_reducible assumption | (intro _) | with_reducible apply State.wr_follows | split | dsimp only

theorem cmdMtrClrCnt_follows {msk : Nat} {z t : State} (p : Sys2Proof.Path) (h : Follows msk z t) : Follows msk z ((cmdMtrClrCnt p).act
    t) := by
  unfold cmdMtrClrCnt; dsimp only
  repeat' first
    | with_reducible assumption | (intro _) | with_reducible apply State.mtrClrCnt_follows | split | dsimp only

theorem execMtrClrCnt_follows {msk : Nat} (hmsk : msk ||| 524315 = msk) {z s : State} (p : Sys2Proof.Path) (h : Follows msk z s) : ∃ nx,
    execMtrClrCnt p s = .next nx ∧ Follows msk z nx := by
  unfold execMtrClrCnt; refine done_follows ?_
  repeat' first
    | with_reducible assumption | (intro _) | with_reducible apply State.runCmd_follows (within hmsk (by decide))
    | with_reducible apply cmdMtrClrCnt_follows | split | dsimp only

theorem State.cfgChange_follows {msk : Nat} (hmsk : msk ||| 512 = msk) {z s : State} (l : Nat) (h : Follows msk z s) : Follows msk z
    (State.cfgChange s l) := by
  unfold State.cfgChange
  repeat' first
    | with_reducible assumption | (intro _) | with_reducible apply State.modGcl_follows (within hmsk (by decide))
    | with_reducible apply State.flag_follows | with_reducible apply Follows.ite | split | dsimp only

theorem cmdCfgChange_follows {msk : Nat} (hmsk : msk ||| 512 = msk) {z t : State} (l : Nat) (h : Follows msk z t) : Follows msk z
    ((cmdCfgChange l).act t) := by
  unfold cmdCfgChange; dsimp only
  repeat' first
    | with_reducible assumption | (intro _) | with_reducible apply State.cfgChange_follows (within hmsk (by decide)) | split | dsimp only

theorem execCfgChange_follows {msk : Nat} (hmsk : msk ||| 524827 = msk) {z s : State} (p : Sys2Proof.Path) (l : Nat) (h : Follows msk z
    s) : ∃ nx, execCfgChange p l s = .next nx ∧ Follows msk z nx := by
  unfold execCfgChange; refine done_follows ?_
  repeat' first
    | with_reducible assumption | (intro _) | with_reducible apply State.runCmd_follows (within hmsk (by decide))
    | with_reducible apply cmdCfgChange_follows (within hmsk (by decide)) | with_reducible apply State.when_follows | split | dsimp only

theorem execConfigChangeTime_follows {msk : Nat} (hmsk : msk ||| 514 = msk) {z s : State} (l : Nat) (h : Follows msk z s) : ∃ nx,
    execConfigChangeTime l s = .next nx ∧ Follows msk z nx := by
  unfold execConfigChangeTime; refine done_follows ?_
  repeat' first
    | with_reducible assumption | (intro _) | with_reducible apply State.gclInstall_follows (within hmsk (by decide))
    | with_reducible apply State.when_follows | split | dsimp only

theorem execGateEntryChange_follows {msk : Nat} (hmsk : msk ||| 514 = msk) {z s : State} (l : Nat) (h : Follows msk z s) : ∃ nx,
    execGateEntryChange l s = .next nx ∧ Follows msk z nx := by
  unfold execGateEntryChange; refine done_follows ?_
  repeat' first
    | with_reducible assumption | (intro _) | with_reducible apply State.modGcl_follows (within hmsk (by decide))
    | with_reducible apply State.gclEnter_follows (within hmsk (by decide)) | with_reducible apply State.when_follows
    | with_reducible apply Follows.ite | split | dsimp only

end Sys2Proof.Machine
end

