-- ==== Sys2Proof/Laws/FolTime.lean ====
section
/-!
SUPPORT. `Follows` for the operations and meanings of `Time.lean`.
-/

namespace Sys2Proof.Machine

open Host (Outcome)

set_option linter.unusedTactic false
set_option linter.unreachableTactic false
set_option linter.unusedSimpArgs false
set_option linter.unusedVariables false

theorem State.rangeCycle_follows {msk : Nat} (hmsk : msk ||| 10 = msk) {z s : State} (n : Nat) (m : Sys2Proof.CycleMsg) (h : Follows msk
    z s) : Follows msk z (State.rangeCycle s n m) := by
  unfold State.rangeCycle
  repeat' first
    | with_reducible assumption | (intro _) | with_reducible apply State.rangingUpdate_follows (within hmsk (by decide))
    | with_reducible apply State.modTm_follows (within hmsk (by decide)) | with_reducible apply State.wrS_follows
    | with_reducible apply Follows.ite | split | dsimp only

theorem State.noteFarEpoch_follows {msk : Nat} (hmsk : msk ||| 8 = msk) {z s : State} (n : Nat) (epoch : Nat) (h : Follows msk z s) :
    Follows msk z (State.noteFarEpoch s n epoch) := by
  unfold State.noteFarEpoch
  repeat' first
    | with_reducible assumption | (intro _) | with_reducible apply State.modEp_follows (within hmsk (by decide)) | split | dsimp only

theorem execCycleMsg_follows {msk : Nat} (hmsk : msk ||| 335 = msk) {z s : State} (n : Nat) (m : Sys2Proof.CycleMsg) (h : Follows msk z
    s) : ∃ nx, execCycleMsg n m s = .next nx ∧ Follows msk z nx := by
  unfold execCycleMsg; refine done_follows ?_
  repeat' first
    | with_reducible assumption | (intro _) | with_reducible apply State.modEp_follows (within hmsk (by decide))
    | with_reducible apply State.rangeCycle_follows (within hmsk (by decide))
    | with_reducible apply State.noteFarEpoch_follows (within hmsk (by decide))
    | with_reducible apply State.settleMaster_follows (within hmsk (by decide)) | with_reducible apply State.showTimeValid_follows
    | with_reducible apply State.measurement_follows (within hmsk (by decide))
    | with_reducible apply State.modTime_follows (within hmsk (by decide))
    | with_reducible apply State.linkUp_follows (within hmsk (by decide)) | with_reducible apply State.when_follows
    | with_reducible apply Follows.ite | split | dsimp only

theorem execTimeLoRead_follows {msk : Nat} (hmsk : msk ||| 524315 = msk) {z s : State} (p : Sys2Proof.Path) (h : Follows msk z s) : ∃
    nx, execTimeLoRead p s = .next nx ∧ Follows msk z nx := by
  unfold execTimeLoRead; refine done_follows ?_
  repeat' first
    | with_reducible assumption | (intro _) | with_reducible apply State.readOwn_follows (within hmsk (by decide))
    | with_reducible apply State.wr_follows | split | dsimp only

theorem execSourceMeasurement_follows {msk : Nat} (hmsk : msk ||| 6 = msk) {z s : State} (off : Int) (interval : Nat) (h : Follows msk z
    s) : ∃ nx, execSourceMeasurement off interval s = .next nx ∧ Follows msk z nx := by
  unfold execSourceMeasurement; refine done_follows ?_
  repeat' first
    | with_reducible assumption | (intro _) | with_reducible apply State.measurement_follows (within hmsk (by decide))
    | with_reducible apply State.modTime_follows (within hmsk (by decide)) | with_reducible apply State.when_follows | split | dsimp only

theorem execPpsEdge_follows {msk : Nat} (hmsk : msk ||| 4 = msk) {z s : State} (rising : Bool) (q : Nat) (h : Follows msk z s) : ∃ nx,
    execPpsEdge rising q s = .next nx ∧ Follows msk z nx := by
  unfold execPpsEdge; refine done_follows ?_
  repeat' first
    | with_reducible assumption | (intro _) | with_reducible apply State.modTime_follows (within hmsk (by decide))
    | with_reducible apply State.when_follows | split | dsimp only

theorem execTodSentence_follows {msk : Nat} (hmsk : msk ||| 6 = msk) {z s : State} (uart : Nat) (b : List Sys2Proof.Byte) (endQ : Nat)
    (h : Follows msk z s) : ∃ nx, execTodSentence uart b endQ s = .next nx ∧ Follows msk z nx := by
  unfold execTodSentence; refine done_follows ?_
  repeat' first
    | with_reducible assumption | (intro _) | with_reducible apply State.measurement_follows (within hmsk (by decide))
    | with_reducible apply State.modTime_follows (within hmsk (by decide)) | with_reducible apply State.when_follows
    | with_reducible apply Follows.ite | split | dsimp only

theorem State.irigNoUtc_follows {msk : Nat} (hmsk : msk ||| 6 = msk) {z s : State} (h : Follows msk z s) : Follows msk z
    (State.irigNoUtc s) := by
  unfold State.irigNoUtc
  repeat' first
    | with_reducible assumption | (intro _) | with_reducible apply State.srcState_follows (within hmsk (by decide))
    | with_reducible apply State.modTime_follows (within hmsk (by decide)) | with_reducible apply State.when_follows
    | with_reducible apply State.wr_follows | split | dsimp only

theorem execIrigFrame_follows {msk : Nat} (hmsk : msk ||| 6 = msk) {z s : State} (q : Nat) (doy : Nat) (sod : Nat) (year : Option Nat)
    (ofsMin : Int) (li59 : Bool) (li61 : Bool) (h : Follows msk z s) : ∃ nx, execIrigFrame q doy sod year ofsMin li59 li61 s = .next nx
    ∧ Follows msk z nx := by
  unfold execIrigFrame; refine done_follows ?_
  repeat' first
    | with_reducible assumption | (intro _) | with_reducible apply State.irigNoUtc_follows (within hmsk (by decide))
    | with_reducible apply State.measurement_follows (within hmsk (by decide))
    | with_reducible apply State.modTime_follows (within hmsk (by decide)) | with_reducible apply State.when_follows
    | with_reducible apply State.flag_follows | with_reducible apply Follows.ite | split | dsimp only

theorem execInputLost_follows {msk : Nat} (hmsk : msk ||| 6 = msk) {z s : State} (cause : Nat) (h : Follows msk z s) : ∃ nx,
    execInputLost cause s = .next nx ∧ Follows msk z nx := by
  unfold execInputLost; refine done_follows ?_
  repeat' first
    | with_reducible assumption | (intro _) | with_reducible apply State.inputLost_follows (within hmsk (by decide))
    | with_reducible apply State.modTime_follows (within hmsk (by decide)) | with_reducible apply State.when_follows | split | dsimp only

theorem execHoldoverExpiry_follows {msk : Nat} (hmsk : msk ||| 6 = msk) {z s : State} (h : Follows msk z s) : ∃ nx, execHoldoverExpiry s
    = .next nx ∧ Follows msk z nx := by
  unfold execHoldoverExpiry; refine done_follows ?_
  repeat' first
    | with_reducible assumption | (intro _) | with_reducible apply State.srcState_follows (within hmsk (by decide))
    | with_reducible apply State.when_follows | split | dsimp only

theorem execHoldValidExpiry_follows {msk : Nat} (hmsk : msk ||| 4 = msk) {z s : State} (h : Follows msk z s) : ∃ nx, execHoldValidExpiry
    s = .next nx ∧ Follows msk z nx := by
  unfold execHoldValidExpiry; refine done_follows ?_
  repeat' first
    | with_reducible assumption | (intro _) | with_reducible apply State.showTimeValid_follows
    | with_reducible apply State.modTime_follows (within hmsk (by decide)) | with_reducible apply State.when_follows | split | dsimp only

theorem execRtcUpdate_follows {msk : Nat} (hmsk : msk ||| 4 = msk) {z s : State} (h : Follows msk z s) : ∃ nx, execRtcUpdate s = .next
    nx ∧ Follows msk z nx := by
  unfold execRtcUpdate; refine done_follows ?_
  repeat' first
    | with_reducible assumption | (intro _) | with_reducible apply State.modTime_follows (within hmsk (by decide))
    | with_reducible apply State.when_follows | split | dsimp only

theorem State.foutArm_follows {msk : Nat} (hmsk : msk ||| 34 = msk) {z s : State} (k : Nat) (h : Follows msk z s) : Follows msk z
    (State.foutArm s k) := by
  unfold State.foutArm
  repeat' first
    | with_reducible assumption | (intro _) | simp only [Follows.evi_iff (within hmsk (by decide))]
    | with_reducible apply State.foutLate_follows (within hmsk (by decide)) | with_reducible apply State.flag_follows
    | with_reducible apply State.when_follows | split | dsimp only

theorem cmdFoutArm_follows {msk : Nat} (hmsk : msk ||| 34 = msk) {z t : State} (k : Nat) (h : Follows msk z t) : Follows msk z
    ((cmdFoutArm k).act t) := by
  unfold cmdFoutArm; dsimp only
  repeat' first
    | with_reducible assumption | (intro _) | with_reducible apply State.foutArm_follows (within hmsk (by decide))
    | with_reducible apply Follows.ite | split | dsimp only

theorem execFoutArm_follows {msk : Nat} (hmsk : msk ||| 524347 = msk) {z s : State} (p : Sys2Proof.Path) (k : Nat) (h : Follows msk z s)
    : ∃ nx, execFoutArm p k s = .next nx ∧ Follows msk z nx := by
  unfold execFoutArm; refine done_follows ?_
  repeat' first
    | with_reducible assumption | (intro _) | with_reducible apply State.runCmd_follows (within hmsk (by decide))
    | with_reducible apply cmdFoutArm_follows (within hmsk (by decide)) | with_reducible apply State.when_follows | split | dsimp only

theorem execFoutAction_follows {msk : Nat} (hmsk : msk ||| 34 = msk) {z s : State} (k : Nat) (h : Follows msk z s) : ∃ nx,
    execFoutAction k s = .next nx ∧ Follows msk z nx := by
  unfold execFoutAction; refine done_follows ?_
  repeat' first
    | with_reducible assumption | (intro _) | simp only [Follows.evi_iff (within hmsk (by decide))]
    | with_reducible apply State.foutAct_follows (within hmsk (by decide))
    | with_reducible apply State.drive_follows (within hmsk (by decide)) | with_reducible apply State.when_follows
    | with_reducible apply Follows.ite | split | dsimp only

theorem execFoutPulseEnd_follows {msk : Nat} (hmsk : msk ||| 32 = msk) {z s : State} (k : Nat) (h : Follows msk z s) : ∃ nx,
    execFoutPulseEnd k s = .next nx ∧ Follows msk z nx := by
  unfold execFoutPulseEnd; refine done_follows ?_
  repeat' first
    | with_reducible assumption | (intro _) | simp only [Follows.evi_iff (within hmsk (by decide))]
    | with_reducible apply State.drive_follows (within hmsk (by decide)) | with_reducible apply State.when_follows | split | dsimp only

theorem cmdStepCmdSet_follows {msk : Nat} (hmsk : msk ||| 4 = msk) {z t : State} (h : Follows msk z t) : Follows msk z
    ((cmdStepCmdSet).act t) := by
  unfold cmdStepCmdSet; dsimp only
  repeat' first
    | with_reducible assumption | (intro _) | with_reducible apply State.startStep_follows (within hmsk (by decide))
    | with_reducible apply Follows.ite | split | dsimp only

theorem execStepCmdSet_follows {msk : Nat} (hmsk : msk ||| 524319 = msk) {z s : State} (p : Sys2Proof.Path) (h : Follows msk z s) : ∃
    nx, execStepCmdSet p s = .next nx ∧ Follows msk z nx := by
  unfold execStepCmdSet; refine done_follows ?_
  repeat' first
    | with_reducible assumption | (intro _) | with_reducible apply State.runCmd_follows (within hmsk (by decide))
    | with_reducible apply cmdStepCmdSet_follows (within hmsk (by decide)) | split | dsimp only

theorem execStepNotice_follows {msk : Nat} (hmsk : msk ||| 4 = msk) {z s : State} (n : Nat) (cycle : Nat) (delta : Int) (h : Follows msk
    z s) : ∃ nx, execStepNotice n cycle delta s = .next nx ∧ Follows msk z nx := by
  unfold execStepNotice; refine done_follows ?_
  repeat' first
    | with_reducible assumption | (intro _) | with_reducible apply State.showStep_follows (within hmsk (by decide))
    | with_reducible apply State.when_follows | split | dsimp only

theorem State.movePort_follows {msk : Nat} (hmsk : msk ||| 8 = msk) {z s : State} (n : Nat) (sCyc : Nat) (k : Int) (h : Follows msk z s)
    : Follows msk z (State.movePort s n sCyc k) := by
  unfold State.movePort
  repeat' first
    | with_reducible assumption | (intro _) | with_reducible apply State.modEp_follows (within hmsk (by decide))
    | with_reducible apply State.modTr_follows (within hmsk (by decide))
    | with_reducible apply State.modLk_follows (within hmsk (by decide)) | with_reducible apply State.when_follows
    | with_reducible apply State.wr_follows | with_reducible apply Follows.ite | split | dsimp only

theorem execStepTaken_follows {msk : Nat} (hmsk : msk ||| 558 = msk) {z s : State} (h : Follows msk z s) : ∃ nx, execStepTaken s = .next
    nx ∧ Follows msk z nx := by
  unfold execStepTaken; refine done_follows ?_
  repeat' first
    | with_reducible assumption | (intro _) | with_reducible apply State.setTime_follows (within hmsk (by decide))
    | with_reducible apply State.modTime_follows (within hmsk (by decide))
    | with_reducible apply State.movePort_follows (within hmsk (by decide))
    | with_reducible apply State.timeStepped_follows (within hmsk (by decide))
    | with_reducible apply State.raise_follows (within hmsk (by decide)) | with_reducible apply foldS_follows
    | with_reducible apply State.wr_follows | with_reducible apply State.flag_follows | split | dsimp only

theorem State.cycleOfPort_follows {msk : Nat} (hmsk : msk ||| 522 = msk) {z s : State} (n : Nat) (h : Follows msk z s) : Follows msk z
    (State.cycleOfPort s n) := by
  unfold State.cycleOfPort
  repeat' first
    | with_reducible assumption | (intro _) | with_reducible apply State.dropOwed_follows (within hmsk (by decide))
    | with_reducible apply State.modEp_follows (within hmsk (by decide)) | with_reducible apply State.when_follows
    | with_reducible apply Follows.ite | split | dsimp only

theorem State.cycleBoundary_follows {msk : Nat} (hmsk : msk ||| 590 = msk) {z s : State} (h : Follows msk z s) : Follows msk z
    (State.cycleBoundary s) := by
  unfold State.cycleBoundary
  repeat' first
    | with_reducible assumption | (intro _) | with_reducible apply State.countTo_follows (within hmsk (by decide))
    | with_reducible apply State.modTime_follows (within hmsk (by decide))
    | with_reducible apply State.cycleOfPort_follows (within hmsk (by decide))
    | with_reducible apply State.refillCtx_follows (within hmsk (by decide))
    | with_reducible apply State.stepRelease_follows (within hmsk (by decide))
    | with_reducible apply State.splitWait_follows (within hmsk (by decide))
    | with_reducible apply State.ctxEntries_follows (within hmsk (by decide)) | with_reducible apply foldS_follows
    | with_reducible apply Follows.ite | split | dsimp only

end Sys2Proof.Machine
end

