-- ==== Sys2Proof/Laws/FolStation.lean ====
section
/-!
SUPPORT. `Follows` for the operations and meanings of `Station.lean`.
-/

namespace Sys2Proof.Machine

open Host (Outcome)

set_option linter.unusedTactic false
set_option linter.unreachableTactic false
set_option linter.unusedSimpArgs false
set_option linter.unusedVariables false

theorem execEthLinkChange_follows {msk : Nat} (hmsk : msk ||| 2 = msk) {z s : State} (port : Nat) (link : Bool) (an : Bool) (speed :
    Nat) (h : Follows msk z s) : ∃ nx, execEthLinkChange port link an speed s = .next nx ∧ Follows msk z nx := by
  unfold execEthLinkChange; refine done_follows ?_
  repeat' first
    | with_reducible assumption | (intro _) | with_reducible apply State.raise_follows (within hmsk (by decide))
    | with_reducible apply State.when_follows | with_reducible apply State.flag_follows | with_reducible apply State.wr_follows
    | with_reducible apply Follows.ite | split | dsimp only

theorem State.hsrForward_follows {msk : Nat} {z s : State} (port : Nat) (b : List Sys2Proof.Byte) (seen : Option DupEntry) (h : Follows
    msk z s) : Follows msk z (State.hsrForward s port b seen) := by
  unfold State.hsrForward
  repeat' first
    | with_reducible assumption | (intro _) | with_reducible apply State.ethSend_follows | with_reducible apply State.when_follows
    | with_reducible apply Follows.ite | split | dsimp only

theorem State.lreRx_follows {msk : Nat} (hmsk : msk ||| 32770 = msk) {z s : State} (port : Nat) (b : List Sys2Proof.Byte) (h : Follows
    msk z s) : LFollows msk z (State.lreRx s port b) := by
  unfold State.lreRx
  repeat' first
    | with_reducible assumption | (intro _) | with_reducible apply State.nodeSeen_follows (within hmsk (by decide))
    | with_reducible apply State.raise_follows (within hmsk (by decide))
    | with_reducible apply State.dupNote_follows (within hmsk (by decide)) | with_reducible apply State.hsrForward_follows
    | with_reducible apply State.inc_follows | with_reducible apply State.when_follows | simp only [LFollows.pair_iff]
    | with_reducible refine LFollows.of_eq ?_ (by with_reducible assumption) | with_reducible apply Follows.ite
    | with_reducible apply LFollows.ite | split | dsimp only

theorem State.ethPass_follows {msk : Nat} (hmsk : msk ||| 37706 = msk) {z s : State} (port : Nat) (data : List Sys2Proof.Byte) (ns :
    Nat) (stamp : Nat) (endQ : Nat) (bad : Option Nat) (h : Follows msk z s) : Follows msk z (State.ethPass s port data ns stamp endQ
    bad) := by
  unfold State.ethPass
  repeat' first
    | with_reducible assumption | (intro _) | with_reducible apply State.matchFrame_follows (within hmsk (by decide))
    | with_reducible apply State.ingress_follows (within hmsk (by decide)) | with_reducible apply State.when_follows
    | with_reducible apply Follows.ite | split | dsimp only

theorem State.ethTake_follows {msk : Nat} (hmsk : msk ||| 37706 = msk) {z s : State} (port : Nat) (data : List Sys2Proof.Byte) (ns :
    Nat) (stamp : Nat) (endQ : Nat) (bad : Option Nat) (h : Follows msk z s) : Follows msk z (State.ethTake s port data ns stamp endQ
    bad) := by
  unfold State.ethTake
  repeat' first
    | with_reducible assumption | (intro _) | with_reducible apply State.lreRx_follows (within hmsk (by decide))
    | with_reducible apply State.ethPass_follows (within hmsk (by decide)) | with_reducible apply State.inc_follows
    | simp only [LFollows.pair_iff] | with_reducible refine LFollows.of_eq ?_ (by with_reducible assumption)
    | with_reducible refine LFollows.fst (State.lreRx_follows (within hmsk (by decide)) _ _ ?_) | with_reducible apply Follows.ite
    | with_reducible apply LFollows.ite | split | dsimp only

theorem execEthFrameRx_follows {msk : Nat} (hmsk : msk ||| 37706 = msk) {z s : State} (port : Nat) (data : List Sys2Proof.Byte) (fcsOk :
    Bool) (ns : Nat) (stamp : Nat) (endQ : Nat) (cut : Nat) (h : Follows msk z s) : ∃ nx, execEthFrameRx port data fcsOk ns stamp endQ
    cut s = .next nx ∧ Follows msk z nx := by
  unfold execEthFrameRx; refine done_follows ?_
  repeat' first
    | with_reducible assumption | (intro _) | with_reducible apply State.ethTake_follows (within hmsk (by decide))
    | with_reducible apply State.when_follows | with_reducible apply State.inc_follows | with_reducible apply Follows.ite | split
    | dsimp only

theorem execTxUnderrun_follows {msk : Nat} (hmsk : msk ||| 330 = msk) {z s : State} (port : Nat) (h : Follows msk z s) : ∃ nx,
    execTxUnderrun port s = .next nx ∧ Follows msk z nx := by
  unfold execTxUnderrun; refine done_follows ?_
  repeat' first
    | with_reducible assumption | (intro _) | with_reducible apply State.openLost_follows (within hmsk (by decide))
    | with_reducible apply State.underrun_follows (within hmsk (by decide)) | with_reducible apply State.when_follows
    | with_reducible apply Follows.ite | split | dsimp only

theorem execSupervisionSend_follows {msk : Nat} (hmsk : msk ||| 32768 = msk) {z s : State} (lre : Nat) (h : Follows msk z s) : ∃ nx,
    execSupervisionSend lre s = .next nx ∧ Follows msk z nx := by
  unfold execSupervisionSend; refine done_follows ?_
  repeat' first
    | with_reducible assumption | (intro _) | with_reducible apply State.lreSeq_follows (within hmsk (by decide))
    | with_reducible apply State.ethSend_follows | with_reducible apply State.when_follows | with_reducible apply foldS_follows
    | simp only [RFollows.pair_iff] | with_reducible refine RFollows.of_eq ?_ (by with_reducible assumption)
    | with_reducible refine RFollows.snd (State.lreSeq_follows (within hmsk (by decide)) _ ?_) | split | dsimp only

theorem execNodeForget_follows {msk : Nat} (hmsk : msk ||| 32770 = msk) {z s : State} (lre : Nat) (mac : Nat) (h : Follows msk z s) : ∃
    nx, execNodeForget lre mac s = .next nx ∧ Follows msk z nx := by
  unfold execNodeForget; refine done_follows ?_
  repeat' first
    | with_reducible assumption | (intro _) | with_reducible apply State.raise_follows (within hmsk (by decide))
    | with_reducible apply State.modStn_follows (within hmsk (by decide)) | with_reducible apply State.when_follows | split | dsimp only

theorem execPtpEventMessage_follows {msk : Nat} (hmsk : msk ||| 32768 = msk) {z s : State} (port : Nat) (tx : Bool) (typ : Nat) (seq :
    Nat) (raw : Nat) (t2 : Nat) (t3 : Nat) (rx : Option Nat) (h : Follows msk z s) : ∃ nx, execPtpEventMessage port tx typ seq raw t2 t3
    rx s = .next nx ∧ Follows msk z nx := by
  unfold execPtpEventMessage; refine done_follows ?_
  repeat' first
    | with_reducible assumption | (intro _) | with_reducible apply State.modStn_follows (within hmsk (by decide))
    | with_reducible apply State.when_follows | with_reducible apply State.emit_follows | with_reducible apply State.wr_follows
    | with_reducible apply Follows.ite | split | dsimp only

theorem execFollowUpSend_follows {msk : Nat} (hmsk : msk ||| 32768 = msk) {z s : State} (port : Nat) (h : Follows msk z s) : ∃ nx,
    execFollowUpSend port s = .next nx ∧ Follows msk z nx := by
  unfold execFollowUpSend; refine done_follows ?_
  repeat' first
    | with_reducible assumption | (intro _) | with_reducible apply State.modStn_follows (within hmsk (by decide))
    | with_reducible apply State.when_follows | with_reducible apply State.emit_follows | split | dsimp only

theorem State.putUtc_follows {msk : Nat} {z s : State} (u : Sys2Proof.UtcInfo) (h : Follows msk z s) : Follows msk z (State.putUtc s u)
    := by
  unfold State.putUtc
  repeat' first
    | with_reducible assumption | (intro _) | with_reducible apply State.wrS_follows | with_reducible apply State.flag_follows | split
    | dsimp only

theorem execAnnounceReceived_follows {msk : Nat} (hmsk : msk ||| 32770 = msk) {z s : State} (port : Nat) (states : Nat) (gm : Nat × Option
    Sys2Proof.UtcInfo) (h : Follows msk z s) : ∃ nx, execAnnounceReceived port states gm s = .next nx ∧ Follows msk z nx := by
  unfold execAnnounceReceived; refine done_follows ?_
  repeat' first
    | with_reducible assumption | (intro _) | with_reducible apply State.raise_follows (within hmsk (by decide))
    | with_reducible apply State.modStn_follows (within hmsk (by decide)) | with_reducible apply State.putUtc_follows
    | with_reducible apply State.when_follows | with_reducible apply State.wr_follows | split | dsimp only

theorem State.subSmall_follows {msk : Nat} {z s : State} (i : Nat) (k : Nat) (h : Follows msk z s) : Follows msk z (State.subSmall s i
    k) := by
  unfold State.subSmall
  repeat' first
    | with_reducible assumption | (intro _) | with_reducible apply State.inc_follows | split | dsimp only

theorem State.pinDrive_follows {msk : Nat} (hmsk : msk ||| 34 = msk) {z s : State} (i : Nat) (all : List Sys2Proof.Byte) (h : Follows
    msk z s) : Follows msk z (State.pinDrive s i all) := by
  unfold State.pinDrive
  repeat' first
    | with_reducible assumption | (intro _) | with_reducible apply State.drive_follows (within hmsk (by decide))
    | with_reducible apply State.raise_follows (within hmsk (by decide)) | with_reducible apply State.subSmall_follows
    | with_reducible apply foldS_follows | with_reducible apply State.setBit_follows | split | dsimp only

theorem State.setExpiry_follows {msk : Nat} (hmsk : msk ||| 32768 = msk) {z s : State} (i : Nat) (q : Nat) (h : Follows msk z s) :
    Follows msk z (State.setExpiry s i q) := by
  unfold State.setExpiry
  repeat' first
    | with_reducible assumption | (intro _) | with_reducible apply State.modStn_follows (within hmsk (by decide)) | split | dsimp only

theorem State.gooseAccept_follows {msk : Nat} (hmsk : msk ||| 32802 = msk) {z s : State} (i : Nat) (st : Nat) (sq : Nat) (tal : Nat) (q
    : Nat) (fresh : Bool) (all : List Sys2Proof.Byte) (h : Follows msk z s) : Follows msk z (State.gooseAccept s i st sq tal q fresh
    all) := by
  unfold State.gooseAccept
  repeat' first
    | with_reducible assumption | (intro _) | with_reducible apply State.setExpiry_follows (within hmsk (by decide))
    | with_reducible apply State.pinDrive_follows (within hmsk (by decide))
    | with_reducible apply State.stageEvent_follows (within hmsk (by decide)) | with_reducible apply State.setBit_follows
    | with_reducible apply State.wr_follows | with_reducible apply State.when_follows | split | dsimp only

theorem State.gooseFrame_follows {msk : Nat} (hmsk : msk ||| 32802 = msk) {z s : State} (i : Nat) (b : List Sys2Proof.Byte) (q : Nat) (h
    : Follows msk z s) : Follows msk z (State.gooseFrame s i b q) := by
  unfold State.gooseFrame
  repeat' first
    | with_reducible assumption | (intro _) | with_reducible apply State.subSmall_follows
    | with_reducible apply State.gooseAccept_follows (within hmsk (by decide)) | with_reducible apply State.inc_follows
    | with_reducible apply State.when_follows | with_reducible apply Follows.ite | split | dsimp only

theorem State.takeMatched_follows {msk : Nat} (hmsk : msk ||| 32768 = msk) {z s : State} (sv : Bool) (h : Follows msk z s) : PFollows
    msk z (State.takeMatched s sv) := by
  unfold State.takeMatched
  repeat' first
    | with_reducible assumption | (intro _) | with_reducible apply State.modStn_follows (within hmsk (by decide))
    | with_reducible refine PFollows.get ?_ (by with_reducible assumption)
    | with_reducible refine PFollows.get' ?_ (by with_reducible assumption) | with_reducible apply PFollows.some
    | with_reducible apply PFollows.none | split | dsimp only

theorem execGooseFrameMatched_follows {msk : Nat} (hmsk : msk ||| 32802 = msk) {z s : State} (h : Follows msk z s) : ∃ nx,
    execGooseFrameMatched s = .next nx ∧ Follows msk z nx := by
  unfold execGooseFrameMatched; refine done_follows ?_
  repeat' first
    | with_reducible assumption | (intro _) | with_reducible apply State.takeMatched_follows (within hmsk (by decide))
    | with_reducible apply State.gooseFrame_follows (within hmsk (by decide))
    | with_reducible refine PFollows.get ?_ (by with_reducible assumption)
    | with_reducible refine PFollows.get' ?_ (by with_reducible assumption) | split | dsimp only

theorem State.svFrame_follows {msk : Nat} (hmsk : msk ||| 32770 = msk) {z s : State} (i : Nat) (b : List Sys2Proof.Byte) (q : Nat) (h :
    Follows msk z s) : Follows msk z (State.svFrame s i b q) := by
  unfold State.svFrame
  repeat' first
    | with_reducible assumption | (intro _) | with_reducible apply State.subSmall_follows
    | with_reducible apply State.setExpiry_follows (within hmsk (by decide))
    | with_reducible apply State.stageEvent_follows (within hmsk (by decide)) | with_reducible apply State.when_follows
    | with_reducible apply State.inc_follows | with_reducible apply State.setBit_follows | with_reducible apply State.wr_follows
    | simp only [LFollows.pair_iff] | with_reducible refine LFollows.of_eq ?_ (by with_reducible assumption)
    | simp only [RFollows.pair_iff] | with_reducible refine RFollows.of_eq ?_ (by with_reducible assumption)
    | with_reducible apply foldl_fst_follows | with_reducible apply foldl_snd_follows | with_reducible apply foldl_follows
    | with_reducible refine LFollows.fst (foldl_fst_follows _ _ ?_ ?_) | with_reducible refine RFollows.snd (foldl_snd_follows _ _ ?_ ?_)
    | with_reducible exact LFollows.fst (by with_reducible assumption) | with_reducible exact RFollows.snd (by with_reducible assumption)
    | split | dsimp only

theorem execSvFrameMatched_follows {msk : Nat} (hmsk : msk ||| 32770 = msk) {z s : State} (h : Follows msk z s) : ∃ nx,
    execSvFrameMatched s = .next nx ∧ Follows msk z nx := by
  unfold execSvFrameMatched; refine done_follows ?_
  repeat' first
    | with_reducible assumption | (intro _) | with_reducible apply State.takeMatched_follows (within hmsk (by decide))
    | with_reducible apply State.svFrame_follows (within hmsk (by decide))
    | with_reducible refine PFollows.get ?_ (by with_reducible assumption)
    | with_reducible refine PFollows.get' ?_ (by with_reducible assumption) | split | dsimp only

theorem execTalExpiry_follows {msk : Nat} (hmsk : msk ||| 32802 = msk) {z s : State} (i : Nat) (h : Follows msk z s) : ∃ nx,
    execTalExpiry i s = .next nx ∧ Follows msk z nx := by
  unfold execTalExpiry; refine done_follows ?_
  repeat' first
    | with_reducible assumption | (intro _) | with_reducible apply State.modStn_follows (within hmsk (by decide))
    | with_reducible apply State.raise_follows (within hmsk (by decide))
    | with_reducible apply State.eventBit_follows (within hmsk (by decide))
    | with_reducible apply State.stageEvent_follows (within hmsk (by decide))
    | with_reducible apply State.drive_follows (within hmsk (by decide)) | with_reducible apply State.when_follows
    | with_reducible apply State.setBit_follows | with_reducible apply foldS_follows | with_reducible apply Follows.ite | split
    | dsimp only

theorem State.pubSend_follows {msk : Nat} (hmsk : msk ||| 32768 = msk) {z s : State} (i : Nat) (h : Follows msk z s) : Follows msk z
    (State.pubSend s i) := by
  unfold State.pubSend
  repeat' first
    | with_reducible assumption | (intro _) | with_reducible apply State.ethSend_follows
    | with_reducible apply State.lreSeq_follows (within hmsk (by decide)) | with_reducible apply foldS_follows
    | with_reducible apply State.emit_follows | with_reducible apply State.inc_follows | simp only [RFollows.pair_iff]
    | with_reducible refine RFollows.of_eq ?_ (by with_reducible assumption)
    | with_reducible refine RFollows.snd (State.lreSeq_follows (within hmsk (by decide)) _ ?_) | split | dsimp only

theorem State.pubChanges_follows {msk : Nat} (hmsk : msk ||| 32768 = msk) {z s : State} (l : List (Nat × Bool)) (q : Nat) (valid : Bool)
    (h : Follows msk z s) : Follows msk z (State.pubChanges s l q valid) := by
  unfold State.pubChanges
  repeat' first
    | with_reducible assumption | (intro _) | with_reducible apply State.pubSend_follows (within hmsk (by decide))
    | with_reducible apply State.modStn_follows (within hmsk (by decide)) | with_reducible apply State.when_follows
    | with_reducible apply foldS_follows | with_reducible apply State.wr_follows | simp only [LFollows.pair_iff]
    | with_reducible refine LFollows.of_eq ?_ (by with_reducible assumption) | simp only [RFollows.pair_iff]
    | with_reducible refine RFollows.of_eq ?_ (by with_reducible assumption) | with_reducible apply foldl_fst_follows
    | with_reducible apply foldl_snd_follows | with_reducible apply foldl_follows
    | with_reducible refine LFollows.fst (foldl_fst_follows _ _ ?_ ?_) | with_reducible refine RFollows.snd (foldl_snd_follows _ _ ?_ ?_)
    | with_reducible exact LFollows.fst (by with_reducible assumption) | with_reducible exact RFollows.snd (by with_reducible assumption)
    | with_reducible apply Follows.ite | with_reducible apply LFollows.ite | split | dsimp only

theorem execPublicationRepeat_follows {msk : Nat} (hmsk : msk ||| 32768 = msk) {z s : State} (i : Nat) (h : Follows msk z s) : ∃ nx,
    execPublicationRepeat i s = .next nx ∧ Follows msk z nx := by
  unfold execPublicationRepeat; refine done_follows ?_
  repeat' first
    | with_reducible assumption | (intro _) | with_reducible apply State.pubSend_follows (within hmsk (by decide))
    | with_reducible apply State.modStn_follows (within hmsk (by decide)) | with_reducible apply State.when_follows
    | with_reducible apply State.wr_follows | with_reducible apply Follows.ite | split | dsimp only

theorem State.stnLoad_follows {msk : Nat} {z s : State} (p : Sys2Proof.Path) (h : Follows msk z s) : Follows msk z (State.stnLoad s p)
    := by
  unfold State.stnLoad
  repeat' first
    | with_reducible assumption | (intro _) | with_reducible apply foldS_follows | with_reducible apply State.wr_follows
    | with_reducible apply State.when_follows | split | dsimp only

theorem cmdStnLoad_follows {msk : Nat} {z t : State} (p : Sys2Proof.Path) (h : Follows msk z t) : Follows msk z ((cmdStnLoad p).act t)
    := by
  unfold cmdStnLoad; dsimp only
  repeat' first
    | with_reducible assumption | (intro _) | with_reducible apply State.stnLoad_follows | split | dsimp only

theorem execStnLoad_follows {msk : Nat} (hmsk : msk ||| 524315 = msk) {z s : State} (p : Sys2Proof.Path) (h : Follows msk z s) : ∃ nx,
    execStnLoad p s = .next nx ∧ Follows msk z nx := by
  unfold execStnLoad; refine done_follows ?_
  repeat' first
    | with_reducible assumption | (intro _) | with_reducible apply State.runCmd_follows (within hmsk (by decide))
    | with_reducible apply cmdStnLoad_follows | split | dsimp only

theorem State.stnCommit_follows {msk : Nat} (hmsk : msk ||| 32768 = msk) {z s : State} (p : Sys2Proof.Path) (h : Follows msk z s) :
    Follows msk z (State.stnCommit s p) := by
  unfold State.stnCommit
  repeat' first
    | with_reducible assumption | (intro _) | with_reducible apply State.modStn_follows (within hmsk (by decide))
    | with_reducible apply State.wr_follows | with_reducible apply foldS_follows | with_reducible apply State.when_follows
    | with_reducible apply State.setWord_follows | with_reducible apply Follows.ite | split | dsimp only

theorem cmdStnCommit_follows {msk : Nat} (hmsk : msk ||| 32768 = msk) {z t : State} (p : Sys2Proof.Path) (h : Follows msk z t) : Follows
    msk z ((cmdStnCommit p).act t) := by
  unfold cmdStnCommit; dsimp only
  repeat' first
    | with_reducible assumption | (intro _) | with_reducible apply State.stnCommit_follows (within hmsk (by decide)) | split | dsimp only

theorem execStnCommit_follows {msk : Nat} (hmsk : msk ||| 557083 = msk) {z s : State} (p : Sys2Proof.Path) (h : Follows msk z s) : ∃ nx,
    execStnCommit p s = .next nx ∧ Follows msk z nx := by
  unfold execStnCommit; refine done_follows ?_
  repeat' first
    | with_reducible assumption | (intro _) | with_reducible apply State.runCmd_follows (within hmsk (by decide))
    | with_reducible apply cmdStnCommit_follows (within hmsk (by decide)) | split | dsimp only

theorem State.stnClr_follows {msk : Nat} {z s : State} (p : Sys2Proof.Path) (h : Follows msk z s) : Follows msk z (State.stnClr s p) := by
  unfold State.stnClr
  repeat' first
    | with_reducible assumption | (intro _) | with_reducible apply State.wr_follows | with_reducible apply foldS_follows
    | with_reducible apply Follows.ite | split | dsimp only

theorem cmdStnClrCnt_follows {msk : Nat} {z t : State} (p : Sys2Proof.Path) (h : Follows msk z t) : Follows msk z ((cmdStnClrCnt p).act
    t) := by
  unfold cmdStnClrCnt; dsimp only
  repeat' first
    | with_reducible assumption | (intro _) | with_reducible apply State.stnClr_follows | split | dsimp only

theorem execStnClrCnt_follows {msk : Nat} (hmsk : msk ||| 524315 = msk) {z s : State} (p : Sys2Proof.Path) (h : Follows msk z s) : ∃ nx,
    execStnClrCnt p s = .next nx ∧ Follows msk z nx := by
  unfold execStnClrCnt; refine done_follows ?_
  repeat' first
    | with_reducible assumption | (intro _) | with_reducible apply State.runCmd_follows (within hmsk (by decide))
    | with_reducible apply cmdStnClrCnt_follows | split | dsimp only

theorem State.setScribe_follows {msk : Nat} (hmsk : msk ||| 2 = msk) {z s : State} (v : Nat) (h : Follows msk z s) : Follows msk z
    (State.setScribe s v) := by
  unfold State.setScribe
  repeat' first
    | with_reducible assumption | (intro _) | with_reducible apply State.raise_follows (within hmsk (by decide))
    | with_reducible apply State.wr_follows | with_reducible apply Follows.ite | split | dsimp only

theorem execScribeSeal_follows {msk : Nat} (hmsk : msk ||| 32768 = msk) {z s : State} (h : Follows msk z s) : ∃ nx, execScribeSeal s =
    .next nx ∧ Follows msk z nx := by
  unfold execScribeSeal; refine done_follows ?_
  repeat' first
    | with_reducible assumption | (intro _) | with_reducible apply State.modStn_follows (within hmsk (by decide))
    | with_reducible apply State.when_follows | with_reducible apply State.emit_follows | split | dsimp only

theorem execScribeWriteDone_follows {msk : Nat} (hmsk : msk ||| 32770 = msk) {z s : State} (ok : Bool) (h : Follows msk z s) : ∃ nx,
    execScribeWriteDone ok s = .next nx ∧ Follows msk z nx := by
  unfold execScribeWriteDone; refine done_follows ?_
  repeat' first
    | with_reducible assumption | (intro _) | with_reducible apply State.modStn_follows (within hmsk (by decide))
    | with_reducible apply State.raise_follows (within hmsk (by decide)) | with_reducible apply State.applyRwp_follows
    | with_reducible apply State.wr_follows | with_reducible apply State.inc_follows | with_reducible apply State.when_follows
    | with_reducible apply Follows.ite | split | dsimp only

theorem execScribeStart_follows {msk : Nat} (hmsk : msk ||| 32768 = msk) {z s : State} (last : Option (Nat × Nat)) (h : Follows msk z s)
    : ∃ nx, execScribeStart last s = .next nx ∧ Follows msk z nx := by
  unfold execScribeStart; refine done_follows ?_
  repeat' first
    | with_reducible assumption | (intro _) | with_reducible apply State.modStn_follows (within hmsk (by decide))
    | with_reducible apply State.when_follows | split | dsimp only

theorem execScribeHandover_follows {msk : Nat} (hmsk : msk ||| 32770 = msk) {z s : State} (phase : Nat) (queueFound : Bool) (h : Follows
    msk z s) : ∃ nx, execScribeHandover phase queueFound s = .next nx ∧ Follows msk z nx := by
  unfold execScribeHandover; refine done_follows ?_
  repeat' first
    | with_reducible assumption | (intro _) | with_reducible apply State.modStn_follows (within hmsk (by decide))
    | with_reducible apply State.setScribe_follows (within hmsk (by decide)) | with_reducible apply State.when_follows
    | with_reducible apply State.emit_follows | with_reducible apply Follows.ite | split | dsimp only

theorem execScribeTakeOwnership_follows {msk : Nat} (hmsk : msk ||| 32770 = msk) {z s : State} (h : Follows msk z s) : ∃ nx,
    execScribeTakeOwnership s = .next nx ∧ Follows msk z nx := by
  unfold execScribeTakeOwnership; refine done_follows ?_
  repeat' first
    | with_reducible assumption | (intro _) | with_reducible apply State.modStn_follows (within hmsk (by decide))
    | with_reducible apply State.setScribe_follows (within hmsk (by decide)) | with_reducible apply State.when_follows
    | with_reducible apply State.emit_follows | split | dsimp only

end Sys2Proof.Machine
end

