-- ==== Sys2Proof/Laws/FolUsb.lean ====
section
/-!
SUPPORT. `Follows` for the operations and meanings of `Usb.lean`.
-/

namespace Sys2Proof.Machine

open Host (Outcome)

set_option linter.unusedTactic false
set_option linter.unreachableTactic false
set_option linter.unusedSimpArgs false
set_option linter.unusedVariables false

theorem State.usbStall_follows {msk : Nat} {z s : State} (h : Follows msk z s) : Follows msk z (State.usbStall s) := by
  unfold State.usbStall
  repeat' first
    | with_reducible assumption | (intro _) | with_reducible apply State.emit_follows | split | dsimp only

theorem execAcmData_follows {msk : Nat} {z s : State} (data : List Sys2Proof.Byte) (h : Follows msk z s) : ∃ nx, execAcmData data s =
    .next nx ∧ Follows msk z nx := by
  unfold execAcmData; refine done_follows ?_
  repeat' first
    | with_reducible assumption | (intro _) | with_reducible apply State.when_follows | with_reducible apply State.emit_follows
    | with_reducible apply Follows.ite | split | dsimp only

theorem execSetLineCoding_follows {msk : Nat} {z s : State} (baud : Nat) (stop : Nat) (parity : Nat) (bits : Nat) (h : Follows msk z s)
    : ∃ nx, execSetLineCoding baud stop parity bits s = .next nx ∧ Follows msk z nx := by
  unfold execSetLineCoding; refine done_follows ?_
  repeat' first
    | with_reducible assumption | (intro _) | with_reducible apply State.usbStall_follows | with_reducible apply State.when_follows
    | with_reducible apply State.wr_follows | with_reducible apply State.flag_follows | with_reducible apply Follows.ite | split
    | dsimp only

theorem execSetControlLineState_follows {msk : Nat} {z s : State} (rts : Bool) (h : Follows msk z s) : ∃ nx, execSetControlLineState rts
    s = .next nx ∧ Follows msk z nx := by
  unfold execSetControlLineState; refine done_follows ?_
  repeat' first
    | with_reducible assumption | (intro _) | with_reducible apply State.when_follows | with_reducible apply State.emit_follows | split
    | dsimp only

theorem execDfuUpload_follows {msk : Nat} {z s : State} (h : Follows msk z s) : ∃ nx, execDfuUpload s = .next nx ∧ Follows msk z nx := by
  unfold execDfuUpload; refine done_follows ?_
  repeat' first
    | with_reducible assumption | (intro _) | with_reducible apply State.usbStall_follows | with_reducible apply State.when_follows
    | split | dsimp only

theorem execUsbBusReset_follows {msk : Nat} (hmsk : msk ||| 16386 = msk) {z s : State} (u1 : Bool) (ctrl : Bool) (hs : Bool) (h :
    Follows msk z s) : ∃ nx, execUsbBusReset u1 ctrl hs s = .next nx ∧ Follows msk z nx := by
  unfold execUsbBusReset; refine done_follows ?_
  repeat' first
    | with_reducible assumption | (intro _) | with_reducible apply State.applyRwp_follows
    | with_reducible apply State.raise_follows (within hmsk (by decide))
    | with_reducible apply State.modUsb_follows (within hmsk (by decide))
    | with_reducible apply State.dropDeferred_follows (within hmsk (by decide)) | with_reducible apply State.when_follows
    | with_reducible apply State.inc_follows | with_reducible apply State.flag_follows | with_reducible apply foldS_follows
    | with_reducible apply State.wr_follows | with_reducible apply Follows.ite | split | dsimp only

theorem execRemoteWakeSignal_follows {msk : Nat} (hmsk : msk ||| 16384 = msk) {z s : State} (u1 : Bool) (lineK : Bool) (hostK : Bool) (h
    : Follows msk z s) : ∃ nx, execRemoteWakeSignal u1 lineK hostK s = .next nx ∧ Follows msk z nx := by
  unfold execRemoteWakeSignal; refine done_follows ?_
  repeat' first
    | with_reducible assumption | (intro _) | with_reducible apply State.modUsb_follows (within hmsk (by decide))
    | with_reducible apply State.when_follows | with_reducible apply State.inc_follows | with_reducible apply State.emit_follows
    | with_reducible apply Follows.ite | split | dsimp only

theorem execUsbdSuspendChange_follows {msk : Nat} (hmsk : msk ||| 16386 = msk) {z s : State} (suspended : Bool) (addr : Nat) (cfg :
    Bool) (rwake : Bool) (h : Follows msk z s) : ∃ nx, execUsbdSuspendChange suspended addr cfg rwake s = .next nx ∧ Follows msk z nx :=
    by
  unfold execUsbdSuspendChange; refine done_follows ?_
  repeat' first
    | with_reducible assumption | (intro _) | with_reducible apply State.modUsb_follows (within hmsk (by decide))
    | with_reducible apply State.raise_follows (within hmsk (by decide)) | with_reducible apply State.when_follows
    | with_reducible apply State.flag_follows | with_reducible apply State.wr_follows | with_reducible apply Follows.ite | split
    | dsimp only

theorem execPhyPortChange_follows {msk : Nat} (hmsk : msk ||| 21322 = msk) {z s : State} (phy : Nat) (dev : Bool) (speed : Nat)
    (overcurrent : Bool) (power : Bool) (h : Follows msk z s) : ∃ nx, execPhyPortChange phy dev speed overcurrent power s = .next nx ∧
    Follows msk z nx := by
  unfold execPhyPortChange; refine done_follows ?_
  repeat' first
    | with_reducible assumption | (intro _) | with_reducible apply State.sendPhyStatus_follows (within hmsk (by decide))
    | with_reducible apply State.raise_follows (within hmsk (by decide))
    | with_reducible apply State.phyForget_follows (within hmsk (by decide)) | with_reducible apply State.when_follows
    | with_reducible apply State.wr_follows | with_reducible apply Follows.ite | split | dsimp only

theorem execPortStatusMsg_follows {msk : Nat} (hmsk : msk ||| 21322 = msk) {z s : State} (port : Nat) (msg : List Sys2Proof.Byte) (h :
    Follows msk z s) : ∃ nx, execPortStatusMsg port msg s = .next nx ∧ Follows msk z nx := by
  unfold execPortStatusMsg; refine done_follows ?_
  repeat' first
    | with_reducible assumption | (intro _) | with_reducible apply State.modUsb_follows (within hmsk (by decide))
    | with_reducible apply State.portChg_follows (within hmsk (by decide))
    | with_reducible apply State.portUpdate_follows (within hmsk (by decide)) | with_reducible apply State.when_follows
    | with_reducible apply State.wr_follows | with_reducible apply State.flag_follows | with_reducible apply Follows.ite | split
    | dsimp only

theorem execPortReset_follows {msk : Nat} (hmsk : msk ||| 21322 = msk) {z s : State} (atCrown : Bool) (r : Sys2Proof.ResetOf) (h : Follows
    msk z s) : ∃ nx, execPortReset atCrown r s = .next nx ∧ Follows msk z nx := by
  unfold execPortReset; refine done_follows ?_
  repeat' first
    | with_reducible assumption | (intro _) | with_reducible apply State.modUsb_follows (within hmsk (by decide))
    | with_reducible apply State.dropDeferred_follows (within hmsk (by decide))
    | with_reducible apply State.hubMsg_follows (within hmsk (by decide))
    | with_reducible apply State.phyForget_follows (within hmsk (by decide))
    | with_reducible apply State.sendPhyStatus_follows (within hmsk (by decide)) | with_reducible apply State.when_follows
    | with_reducible apply State.inc_follows | with_reducible apply State.flag_follows | with_reducible apply State.wr_follows
    | with_reducible apply State.emit_follows | with_reducible apply Follows.ite | split | dsimp only

theorem State.portsCmd_follows {msk : Nat} (hmsk : msk ||| 4938 = msk) {z s : State} (ports : List Nat) (cmd : Nat) (susp : Bool) (h :
    Follows msk z s) : Follows msk z (State.portsCmd s ports cmd susp) := by
  unfold State.portsCmd
  repeat' first
    | with_reducible assumption | (intro _) | with_reducible apply State.hubMsg_follows (within hmsk (by decide))
    | with_reducible apply foldS_follows | with_reducible apply State.flag_follows | split | dsimp only

theorem execHubSuspend_follows {msk : Nat} (hmsk : msk ||| 21322 = msk) {z s : State} (atCrown : Bool) (n : Nat) (rwake : Bool) (h :
    Follows msk z s) : ∃ nx, execHubSuspend atCrown n rwake s = .next nx ∧ Follows msk z nx := by
  unfold execHubSuspend; refine done_follows ?_
  repeat' first
    | with_reducible assumption | (intro _) | with_reducible apply State.portsCmd_follows (within hmsk (by decide))
    | with_reducible apply State.modUsb_follows (within hmsk (by decide))
    | with_reducible apply State.raise_follows (within hmsk (by decide)) | with_reducible apply State.when_follows
    | with_reducible apply State.flag_follows | with_reducible apply State.emit_follows | with_reducible apply State.wr_follows
    | with_reducible apply Follows.ite | split | dsimp only

theorem execHostResume_follows {msk : Nat} (hmsk : msk ||| 21322 = msk) {z s : State} (atCrown : Bool) (n : Nat) (h : Follows msk z s) :
    ∃ nx, execHostResume atCrown n s = .next nx ∧ Follows msk z nx := by
  unfold execHostResume; refine done_follows ?_
  repeat' first
    | with_reducible assumption | (intro _) | with_reducible apply State.portsCmd_follows (within hmsk (by decide))
    | with_reducible apply State.modUsb_follows (within hmsk (by decide)) | with_reducible apply State.when_follows
    | with_reducible apply State.flag_follows | with_reducible apply State.emit_follows | with_reducible apply State.wr_follows
    | with_reducible apply Follows.ite | split | dsimp only

theorem execPavilionRemoteWake_follows {msk : Nat} (hmsk : msk ||| 21322 = msk) {z s : State} (atCrown : Bool) (n : Nat) (h : Follows
    msk z s) : ∃ nx, execPavilionRemoteWake atCrown n s = .next nx ∧ Follows msk z nx := by
  unfold execPavilionRemoteWake; refine done_follows ?_
  repeat' first
    | with_reducible assumption | (intro _) | with_reducible apply State.raise_follows (within hmsk (by decide))
    | with_reducible apply State.portChg_follows (within hmsk (by decide))
    | with_reducible apply State.modUsb_follows (within hmsk (by decide))
    | with_reducible apply State.phyMsg_follows (within hmsk (by decide)) | with_reducible apply State.when_follows
    | with_reducible apply Follows.ite | split | dsimp only

theorem execHostTransaction_follows {msk : Nat} (hmsk : msk ||| 21322 = msk) {z s : State} (port : Nat) (addr : Nat) (ep : Nat) (typ :
    Nat) (kind : Nat) (toggle : Bool) (data : List Sys2Proof.Byte) (h : Follows msk z s) : ∃ nx, execHostTransaction port addr ep typ
    kind toggle data s = .next nx ∧ Follows msk z nx := by
  unfold execHostTransaction; refine done_follows ?_
  repeat' first
    | with_reducible assumption | (intro _) | with_reducible apply State.hostAns_follows
    | with_reducible apply State.modUsb_follows (within hmsk (by decide))
    | with_reducible apply State.periodicIn_follows (within hmsk (by decide))
    | with_reducible apply State.isoOut_follows (within hmsk (by decide))
    | with_reducible apply State.deferNew_follows (within hmsk (by decide))
    | with_reducible apply State.deferToken_follows (within hmsk (by decide))
    | with_reducible apply State.fromResult_follows (within hmsk (by decide)) | with_reducible apply State.deferNak_follows
    | with_reducible apply State.dropTag_follows (within hmsk (by decide)) | with_reducible apply State.when_follows
    | with_reducible apply State.inc_follows | with_reducible apply Follows.ite | split | dsimp only

theorem execUsbTransactionRequest_follows {msk : Nat} (hmsk : msk ||| 21322 = msk) {z s : State} (phy : Nat) (msg : List Sys2Proof.Byte)
    (resp : Nat) (rdata : List Sys2Proof.Byte) (ifEps : List Nat) (h : Follows msk z s) : ∃ nx, execUsbTransactionRequest phy msg resp
    rdata ifEps s = .next nx ∧ Follows msk z nx := by
  unfold execUsbTransactionRequest; refine done_follows ?_
  repeat' first
    | with_reducible assumption | (intro _) | with_reducible apply State.modUsb_follows (within hmsk (by decide))
    | with_reducible apply State.tryPhy_follows (within hmsk (by decide)) | with_reducible apply State.when_follows
    | with_reducible apply Follows.ite | split | dsimp only

theorem execPavilionRepeat_follows {msk : Nat} (hmsk : msk ||| 21322 = msk) {z s : State} (i : Nat) (resp : Nat) (rdata : List
    Sys2Proof.Byte) (ifEps : List Nat) (h : Follows msk z s) : ∃ nx, execPavilionRepeat i resp rdata ifEps s = .next nx ∧ Follows msk z
    nx := by
  unfold execPavilionRepeat; refine done_follows ?_
  repeat' first
    | with_reducible assumption | (intro _) | with_reducible apply State.tryPhy_follows (within hmsk (by decide))
    | with_reducible apply State.when_follows | split | dsimp only

theorem execPeriodicPoll_follows {msk : Nat} (hmsk : msk ||| 21322 = msk) {z s : State} (i : Nat) (resp : Nat) (rdata : List
    Sys2Proof.Byte) (h : Follows msk z s) : ∃ nx, execPeriodicPoll i resp rdata s = .next nx ∧ Follows msk z nx := by
  unfold execPeriodicPoll; refine done_follows ?_
  repeat' first
    | with_reducible assumption | (intro _) | with_reducible apply State.result_follows (within hmsk (by decide))
    | with_reducible apply State.setToggle_follows (within hmsk (by decide))
    | with_reducible apply State.modUsb_follows (within hmsk (by decide)) | with_reducible apply State.when_follows
    | with_reducible apply State.emit_follows | with_reducible apply Follows.ite | split | dsimp only

theorem execUsbResult_follows {msk : Nat} (hmsk : msk ||| 16386 = msk) {z s : State} (port : Nat) (msg : List Sys2Proof.Byte) (h :
    Follows msk z s) : ∃ nx, execUsbResult port msg s = .next nx ∧ Follows msk z nx := by
  unfold execUsbResult; refine done_follows ?_
  repeat' first
    | with_reducible assumption | (intro _) | with_reducible apply State.dropTag_follows (within hmsk (by decide))
    | with_reducible apply State.raise_follows (within hmsk (by decide))
    | with_reducible apply State.modUsb_follows (within hmsk (by decide)) | with_reducible apply State.when_follows
    | with_reducible apply State.inc_follows | with_reducible apply Follows.ite | split | dsimp only

theorem execDeferStale_follows {msk : Nat} (hmsk : msk ||| 21322 = msk) {z s : State} (tag : Nat) (h : Follows msk z s) : ∃ nx,
    execDeferStale tag s = .next nx ∧ Follows msk z nx := by
  unfold execDeferStale; refine done_follows ?_
  repeat' first
    | with_reducible assumption | (intro _) | with_reducible apply State.hubMsg_follows (within hmsk (by decide))
    | with_reducible apply State.modUsb_follows (within hmsk (by decide)) | with_reducible apply State.when_follows
    | with_reducible apply Follows.ite | split | dsimp only

theorem execAbortDevice_follows {msk : Nat} (hmsk : msk ||| 21322 = msk) {z s : State} (phy : Nat) (msg : List Sys2Proof.Byte) (h :
    Follows msk z s) : ∃ nx, execAbortDevice phy msg s = .next nx ∧ Follows msk z nx := by
  unfold execAbortDevice; refine done_follows ?_
  repeat' first
    | with_reducible assumption | (intro _) | with_reducible apply State.result_follows (within hmsk (by decide))
    | with_reducible apply State.modUsb_follows (within hmsk (by decide)) | with_reducible apply State.when_follows | split | dsimp only

theorem execHostSof_follows {msk : Nat} (hmsk : msk ||| 21322 = msk) {z s : State} (frame : Nat) (stampNs : Nat) (h : Follows msk z s) :
    ∃ nx, execHostSof frame stampNs s = .next nx ∧ Follows msk z nx := by
  unfold execHostSof; refine done_follows ?_
  repeat' first
    | with_reducible assumption | (intro _) | with_reducible apply State.wrS_follows
    | with_reducible apply State.raise_follows (within hmsk (by decide))
    | with_reducible apply State.modUsb_follows (within hmsk (by decide))
    | with_reducible apply State.sendFnOfs_follows (within hmsk (by decide)) | with_reducible apply State.when_follows
    | with_reducible apply State.wr_follows | with_reducible apply State.inc_follows | with_reducible apply foldS_follows
    | with_reducible apply Follows.ite | split | dsimp only

theorem execFnOfsMsg_follows {msk : Nat} (hmsk : msk ||| 2 = msk) {z s : State} (msg : List Sys2Proof.Byte) (h : Follows msk z s) : ∃
    nx, execFnOfsMsg msg s = .next nx ∧ Follows msk z nx := by
  unfold execFnOfsMsg; refine done_follows ?_
  repeat' first
    | with_reducible assumption | (intro _) | with_reducible apply State.raise_follows (within hmsk (by decide))
    | with_reducible apply State.when_follows | with_reducible apply State.inc_follows | with_reducible apply State.wr_follows
    | with_reducible apply Follows.ite | split | dsimp only

end Sys2Proof.Machine
end

