-- ==== Sys2Proof/Laws/FolEvents.lean ====
section
/-!
SUPPORT. `Follows` for the operations and meanings of `Events.lean`.
-/

namespace Sys2Proof.Machine

open Host (Outcome)

set_option linter.unusedTactic false
set_option linter.unreachableTactic false
set_option linter.unusedSimpArgs false
set_option linter.unusedVariables false

theorem State.modEvi_follows {msk : Nat} (hmsk : msk ||| 32 = msk) {z s : State} (f : EviS → EviS) (h : Follows msk z s) : Follows msk z
    (State.modEvi s f) := by
  unfold State.modEvi
  repeat' first
    | with_reducible assumption | (intro _) | simp only [Follows.evi_iff (within hmsk (by decide))] | split | dsimp only

theorem State.showEvi_follows {msk : Nat} {z s : State} (h : Follows msk z s) : Follows msk z (State.showEvi s) := by
  unfold State.showEvi
  repeat' first
    | with_reducible assumption | (intro _) | with_reducible apply State.wr_follows | with_reducible apply State.setWord_follows | split
    | dsimp only

theorem State.eviPush_follows {msk : Nat} (hmsk : msk ||| 34 = msk) {z s : State} (e : EviEntry) (h : Follows msk z s) : Follows msk z
    (State.eviPush s e) := by
  unfold State.eviPush
  repeat' first
    | with_reducible assumption | (intro _) | with_reducible apply State.raise_follows (within hmsk (by decide))
    | with_reducible apply State.showEvi_follows | with_reducible apply State.modEvi_follows (within hmsk (by decide))
    | with_reducible apply State.incSat_follows | with_reducible apply Follows.ite | split | dsimp only

theorem State.modIn_follows {msk : Nat} (hmsk : msk ||| 32 = msk) {z s : State} (i : Nat) (f : EviIn → EviIn) (h : Follows msk z s) :
    Follows msk z (State.modIn s i f) := by
  unfold State.modIn
  repeat' first
    | with_reducible assumption | (intro _) | with_reducible apply State.modEvi_follows (within hmsk (by decide)) | split | dsimp only

theorem State.eviFires_follows {msk : Nat} (hmsk : msk ||| 2 = msk) {z s : State} (i : Nat) (level : Bool) (h : Follows msk z s) :
    Follows msk z (State.eviFires s i level) := by
  unfold State.eviFires
  repeat' first
    | with_reducible assumption | (intro _) | with_reducible apply State.sourceFires_follows (within hmsk (by decide))
    | with_reducible apply Follows.ite | split | dsimp only

theorem State.eviAccept_follows {msk : Nat} (hmsk : msk ||| 557115 = msk) {z s : State} (i : Nat) (level : Bool) (at_ : Nat × Bool)
    (bounce : Bool) (raw : Bool) (h : Follows msk z s) : Follows msk z (State.eviAccept s i level at_ bounce raw) := by
  unfold State.eviAccept
  repeat' first
    | with_reducible assumption | (intro _) | with_reducible apply State.eviPush_follows (within hmsk (by decide))
    | with_reducible apply State.eviFires_follows (within hmsk (by decide))
    | with_reducible apply State.stageEvent_follows (within hmsk (by decide))
    | with_reducible apply State.wakeBy_follows (within hmsk (by decide)) | with_reducible apply State.setBit_follows
    | with_reducible apply State.when_follows | split | dsimp only

theorem State.eviPublish_follows {msk : Nat} (hmsk : msk ||| 32768 = msk) {z s : State} (old : State) (ins : List Nat) (at_ : Nat ×
    Bool) (h : Follows msk z s) : Follows msk z (State.eviPublish s old ins at_) := by
  unfold State.eviPublish
  repeat' first
    | with_reducible assumption | (intro _) | with_reducible apply State.pubChanges_follows (within hmsk (by decide))
    | with_reducible apply State.when_follows | split | dsimp only

theorem State.eviEdge_follows {msk : Nat} (hmsk : msk ||| 557115 = msk) {z s : State} (i : Nat) (level : Bool) (at_ : Nat × Bool) (h :
    Follows msk z s) : Follows msk z (State.eviEdge s i level at_) := by
  unfold State.eviEdge
  repeat' first
    | with_reducible assumption | (intro _) | with_reducible apply State.modIn_follows (within hmsk (by decide))
    | with_reducible apply State.eviAccept_follows (within hmsk (by decide))
    | with_reducible apply State.raise_follows (within hmsk (by decide)) | with_reducible apply State.setBit_follows
    | with_reducible apply State.when_follows | with_reducible apply State.inc_follows | with_reducible apply Follows.ite | split
    | dsimp only

theorem execEviEdge_follows {msk : Nat} (hmsk : msk ||| 557115 = msk) {z s : State} (edges : List (Nat × Bool)) (q : Nat) (h : Follows
    msk z s) : ∃ nx, execEviEdge edges q s = .next nx ∧ Follows msk z nx := by
  unfold execEviEdge; refine done_follows ?_
  repeat' first
    | with_reducible assumption | (intro _) | with_reducible apply State.eviEdge_follows (within hmsk (by decide))
    | with_reducible apply State.eviPublish_follows (within hmsk (by decide)) | with_reducible apply foldS_follows | split | dsimp only

theorem State.candAccept_follows {msk : Nat} (hmsk : msk ||| 557115 = msk) {z s : State} (i : Nat) (h : Follows msk z s) : Follows msk z
    (State.candAccept s i) := by
  unfold State.candAccept
  repeat' first
    | with_reducible assumption | (intro _) | with_reducible apply State.eviAccept_follows (within hmsk (by decide))
    | with_reducible apply State.modIn_follows (within hmsk (by decide)) | with_reducible apply Follows.ite | split | dsimp only

theorem execEviGlitchEnd_follows {msk : Nat} (hmsk : msk ||| 557115 = msk) {z s : State} (ins : List Nat) (h : Follows msk z s) : ∃ nx,
    execEviGlitchEnd ins s = .next nx ∧ Follows msk z nx := by
  unfold execEviGlitchEnd; refine done_follows ?_
  repeat' first
    | with_reducible assumption | (intro _) | with_reducible apply State.eviPublish_follows (within hmsk (by decide))
    | with_reducible apply State.candAccept_follows (within hmsk (by decide)) | with_reducible apply foldS_follows | split | dsimp only

theorem State.debounceEnd_follows {msk : Nat} (hmsk : msk ||| 557115 = msk) {z s : State} (at_ : Nat) (i : Nat) (h : Follows msk z s) :
    Follows msk z (State.debounceEnd s at_ i) := by
  unfold State.debounceEnd
  repeat' first
    | with_reducible assumption | (intro _) | with_reducible apply State.modIn_follows (within hmsk (by decide))
    | with_reducible apply State.candAccept_follows (within hmsk (by decide)) | with_reducible apply State.when_follows | split
    | dsimp only

theorem execEviDebounceEnd_follows {msk : Nat} (hmsk : msk ||| 557115 = msk) {z s : State} (ins : List Nat) (at_ : Nat) (h : Follows msk
    z s) : ∃ nx, execEviDebounceEnd ins at_ s = .next nx ∧ Follows msk z nx := by
  unfold execEviDebounceEnd; refine done_follows ?_
  repeat' first
    | with_reducible assumption | (intro _) | with_reducible apply State.eviPublish_follows (within hmsk (by decide))
    | with_reducible apply State.debounceEnd_follows (within hmsk (by decide)) | with_reducible apply foldS_follows | split | dsimp only

theorem execEviFifoRead_follows {msk : Nat} (hmsk : msk ||| 524347 = msk) {z s : State} (p : Sys2Proof.Path) (h : Follows msk z s) : ∃
    nx, execEviFifoRead p s = .next nx ∧ Follows msk z nx := by
  unfold execEviFifoRead; refine done_follows ?_
  repeat' first
    | with_reducible assumption | (intro _) | with_reducible apply State.readOwn_follows (within hmsk (by decide))
    | with_reducible apply State.showEvi_follows | with_reducible apply State.modEvi_follows (within hmsk (by decide)) | split
    | dsimp only

theorem State.cycleBegins_follows {msk : Nat} (hmsk : msk ||| 4943 = msk) {z s : State} (h : Follows msk z
    s) : Follows msk z (State.cycleBegins s) := by
  unfold State.cycleBegins
  repeat' first
    | with_reducible assumption | (intro _) | with_reducible apply State.retryHeld_follows (within hmsk (by decide))
    | with_reducible apply State.pavilionSof_follows | with_reducible apply State.cycleBoundary_follows (within hmsk (by decide))
    | with_reducible apply State.treeNews_follows (within hmsk (by decide)) | with_reducible apply State.modChip_follows (within hmsk (by decide))
    | with_reducible apply State.answerIdle_follows (within hmsk (by decide))
    | with_reducible apply State.suspendLinks_follows (within hmsk (by decide)) | with_reducible apply foldS_follows
    | with_reducible apply State.when_follows | split | dsimp only

theorem State.ctxHooks_follows {msk : Nat} (hmsk : msk ||| 21322 = msk) {z s : State} (h : Follows msk z s) : Follows msk z
    (State.ctxHooks s) := by
  unfold State.ctxHooks
  repeat' first
    | with_reducible assumption | (intro _) | with_reducible apply State.portsUpdate_follows (within hmsk (by decide))
    | with_reducible apply State.dpiHpd_follows | split | dsimp only

theorem State.ctxFaultAll_follows {msk : Nat} (hmsk : msk ||| 22346 = msk) {z s : State} (c : Nat) (cause : Nat) (h : Follows msk z s) :
    Follows msk z (State.ctxFaultAll s c cause) := by
  unfold State.ctxFaultAll
  repeat' first
    | with_reducible assumption | (intro _) | with_reducible apply State.ctxHooks_follows (within hmsk (by decide))
    | with_reducible apply State.dmaCtxFault_follows (within hmsk (by decide))
    | with_reducible apply State.farCtxFault_follows (within hmsk (by decide))
    | with_reducible apply State.ctxFault_follows (within hmsk (by decide)) | split | dsimp only

theorem execContextStartComplete_follows {msk : Nat} (hmsk : msk ||| 21322 = msk) {z s : State} (c : Nat) (h : Follows msk z s) : ∃ nx,
    execContextStartComplete c s = .next nx ∧ Follows msk z nx := by
  unfold execContextStartComplete; refine done_follows ?_
  repeat' first
    | with_reducible assumption | (intro _) | with_reducible apply State.encCheck_follows (within hmsk (by decide))
    | with_reducible apply State.ctxHooks_follows (within hmsk (by decide))
    | with_reducible apply State.ctxSetLife_follows (within hmsk (by decide))
    | with_reducible apply State.freshBuckets_follows (within hmsk (by decide))
    | with_reducible apply State.resetSeq_follows (within hmsk (by decide)) | with_reducible apply State.when_follows | split | dsimp only

theorem execContextStopComplete_follows {msk : Nat} (hmsk : msk ||| 21450 = msk) {z s : State} (c : Nat) (h : Follows msk z s) : ∃ nx,
    execContextStopComplete c s = .next nx ∧ Follows msk z nx := by
  unfold execContextStopComplete; refine done_follows ?_
  repeat' first
    | with_reducible assumption | (intro _) | with_reducible apply State.ctxHooks_follows (within hmsk (by decide))
    | with_reducible apply State.ctxStopped_follows (within hmsk (by decide)) | with_reducible apply State.when_follows | split
    | dsimp only

theorem execContextFault_follows {msk : Nat} (hmsk : msk ||| 22346 = msk) {z s : State} (c : Nat) (h : Follows msk z s) : ∃ nx,
    execContextFault c s = .next nx ∧ Follows msk z nx := by
  unfold execContextFault; refine done_follows ?_
  repeat' first
    | with_reducible assumption | (intro _) | with_reducible apply State.ctxFaultAll_follows (within hmsk (by decide))
    | with_reducible apply State.when_follows | split | dsimp only

theorem execRetransmitTimeout_follows {msk : Nat} (hmsk : msk ||| 22346 = msk) {z s : State} (c : Nat) (h : Follows msk z s) : ∃ nx,
    execRetransmitTimeout c s = .next nx ∧ Follows msk z nx := by
  unfold execRetransmitTimeout; refine done_follows ?_
  repeat' first
    | with_reducible assumption | (intro _) | with_reducible apply State.ctxFaultAll_follows (within hmsk (by decide))
    | with_reducible apply State.startReplay_follows (within hmsk (by decide)) | with_reducible apply State.when_follows
    | with_reducible apply State.inc_follows | with_reducible apply Follows.ite | split | dsimp only

theorem execResyncTimeout_follows {msk : Nat} (hmsk : msk ||| 22346 = msk) {z s : State} (c : Nat) (h : Follows msk z s) : ∃ nx,
    execResyncTimeout c s = .next nx ∧ Follows msk z nx := by
  unfold execResyncTimeout; refine done_follows ?_
  repeat' first
    | with_reducible assumption | (intro _) | with_reducible apply State.ctxFaultAll_follows (within hmsk (by decide))
    | with_reducible apply State.when_follows | split | dsimp only

end Sys2Proof.Machine
end

