-- ==== Sys2Proof/Laws/FolSecurity.lean ====
section
/-!
SUPPORT. `Follows` for the operations and meanings of `Security.lean`.
-/

namespace Sys2Proof.Machine

open Host (Outcome)

set_option linter.unusedTactic false
set_option linter.unreachableTactic false
set_option linter.unusedSimpArgs false
set_option linter.unusedVariables false

theorem State.modSec_follows {msk : Nat} (hmsk : msk ||| 262144 = msk) {z s : State} (f : SecS → SecS) (h : Follows msk z s) : Follows
    msk z (State.modSec s f) := by
  unfold State.modSec
  repeat' first
    | with_reducible assumption | (intro _) | simp only [Follows.sec_iff (within hmsk (by decide))] | split | dsimp only

theorem State.random_follows {msk : Nat} {z s : State} (n : Nat) (h : Follows msk z s) : RFollows msk z (State.random s n) := by
  unfold State.random
  repeat' first
    | with_reducible assumption | (intro _) | with_reducible apply State.freshVal_follows | simp only [RFollows.pair_iff]
    | with_reducible refine RFollows.of_eq ?_ (by with_reducible assumption)
    | with_reducible refine RFollows.snd (State.freshVal_follows ?_) | split | dsimp only

theorem State.showKey_follows {msk : Nat} {z s : State} (n : Nat) (h : Follows msk z s) : Follows msk z (State.showKey s n) := by
  unfold State.showKey
  repeat' first
    | with_reducible assumption | (intro _) | with_reducible apply State.wr_follows | with_reducible apply Follows.ite | split
    | dsimp only

theorem execKeysBeacon_follows {msk : Nat} (hmsk : msk ||| 559 = msk) {z s : State} (n : Nat) (cert : List Sys2Proof.Byte) (eph : List
    Sys2Proof.Byte) (beacons : List Sys2Proof.Byte) (sig : List Sys2Proof.Byte) (h : Follows msk z s) : ∃ nx, execKeysBeacon n cert eph
    beacons sig s = .next nx ∧ Follows msk z nx := by
  unfold execKeysBeacon; refine done_follows ?_
  repeat' first
    | with_reducible assumption | (intro _) | with_reducible apply State.random_follows
    | with_reducible apply State.modLk_follows (within hmsk (by decide)) | with_reducible apply State.showKey_follows
    | with_reducible apply State.enterCycle_follows (within hmsk (by decide))
    | with_reducible apply State.trainFail_follows (within hmsk (by decide)) | with_reducible apply State.when_follows
    | with_reducible apply State.emit_follows | with_reducible apply State.flag_follows | simp only [RFollows.pair_iff]
    | with_reducible refine RFollows.of_eq ?_ (by with_reducible assumption)
    | with_reducible refine RFollows.snd (State.random_follows _ ?_) | with_reducible apply Follows.ite | split | dsimp only

theorem State.startReplace_follows {msk : Nat} (hmsk : msk ||| 8 = msk) {z s : State} (n : Nat) (init : Bool) (h : Follows msk z s) :
    Follows msk z (State.startReplace s n init) := by
  unfold State.startReplace
  repeat' first
    | with_reducible assumption | (intro _) | with_reducible apply State.modLk_follows (within hmsk (by decide))
    | with_reducible apply State.when_follows | with_reducible apply Follows.ite | split | dsimp only

theorem State.abandonKey_follows {msk : Nat} (hmsk : msk ||| 8 = msk) {z s : State} (n : Nat) (h : Follows msk z s) : Follows msk z
    (State.abandonKey s n) := by
  unfold State.abandonKey
  repeat' first
    | with_reducible assumption | (intro _) | with_reducible apply State.showKey_follows
    | with_reducible apply State.modLk_follows (within hmsk (by decide)) | split | dsimp only

theorem State.keyFail_follows {msk : Nat} (hmsk : msk ||| 335 = msk) {z s : State} (n : Nat) (h : Follows msk z s) : Follows msk z
    (State.keyFail s n) := by
  unfold State.keyFail
  repeat' first
    | with_reducible assumption | (intro _) | with_reducible apply State.raise_follows (within hmsk (by decide))
    | with_reducible apply State.retrain_follows (within hmsk (by decide)) | split | dsimp only

theorem cmdLinkRotate_follows {msk : Nat} (hmsk : msk ||| 8 = msk) {z t : State} (n : Nat) (h : Follows msk z t) : Follows msk z
    ((cmdLinkRotate n).act t) := by
  unfold cmdLinkRotate; dsimp only
  repeat' first
    | with_reducible assumption | (intro _) | with_reducible apply State.startReplace_follows (within hmsk (by decide)) | split
    | dsimp only

theorem execLinkRotate_follows {msk : Nat} (hmsk : msk ||| 524315 = msk) {z s : State} (p : Sys2Proof.Path) (n : Nat) (h : Follows msk z
    s) : ∃ nx, execLinkRotate p n s = .next nx ∧ Follows msk z nx := by
  unfold execLinkRotate; refine done_follows ?_
  repeat' first
    | with_reducible assumption | (intro _) | with_reducible apply State.runCmd_follows (within hmsk (by decide))
    | with_reducible apply cmdLinkRotate_follows (within hmsk (by decide)) | with_reducible apply State.when_follows | split | dsimp only

theorem execKeyRotationDue_follows {msk : Nat} (hmsk : msk ||| 8 = msk) {z s : State} (n : Nat) (h : Follows msk z s) : ∃ nx,
    execKeyRotationDue n s = .next nx ∧ Follows msk z nx := by
  unfold execKeyRotationDue; refine done_follows ?_
  repeat' first
    | with_reducible assumption | (intro _) | with_reducible apply State.startReplace_follows (within hmsk (by decide))
    | with_reducible apply State.when_follows | split | dsimp only

theorem execKeyReplacementRetry_follows {msk : Nat} (hmsk : msk ||| 8 = msk) {z s : State} (n : Nat) (h : Follows msk z s) : ∃ nx,
    execKeyReplacementRetry n s = .next nx ∧ Follows msk z nx := by
  unfold execKeyReplacementRetry; refine done_follows ?_
  repeat' first
    | with_reducible assumption | (intro _) | with_reducible apply State.startReplace_follows (within hmsk (by decide))
    | with_reducible apply State.when_follows | split | dsimp only

theorem execKeyAgeLimit_follows {msk : Nat} (hmsk : msk ||| 335 = msk) {z s : State} (n : Nat) (h : Follows msk z s) : ∃ nx,
    execKeyAgeLimit n s = .next nx ∧ Follows msk z nx := by
  unfold execKeyAgeLimit; refine done_follows ?_
  repeat' first
    | with_reducible assumption | (intro _) | with_reducible apply State.keyFail_follows (within hmsk (by decide))
    | with_reducible apply State.when_follows | split | dsimp only

theorem execNextReady_follows {msk : Nat} (hmsk : msk ||| 8 = msk) {z s : State} (n : Nat) (gen : Nat) (eph : List Sys2Proof.Byte)
    (farInit : Bool) (h : Follows msk z s) : ∃ nx, execNextReady n gen eph farInit s = .next nx ∧ Follows msk z nx := by
  unfold execNextReady; refine done_follows ?_
  repeat' first
    | with_reducible assumption | (intro _) | with_reducible apply State.modLk_follows (within hmsk (by decide))
    | with_reducible apply State.startReplace_follows (within hmsk (by decide)) | with_reducible apply State.random_follows
    | with_reducible apply State.showKey_follows | with_reducible apply State.queueUnit_follows (within hmsk (by decide))
    | with_reducible apply State.when_follows | simp only [RFollows.pair_iff]
    | with_reducible refine RFollows.of_eq ?_ (by with_reducible assumption)
    | with_reducible refine RFollows.snd (State.random_follows _ ?_) | split | dsimp only

theorem execKatChal_follows {msk : Nat} (hmsk : msk ||| 8 = msk) {z s : State} (n : Nat) (data : Nat) (h : Follows msk z s) : ∃ nx,
    execKatChal n data s = .next nx ∧ Follows msk z nx := by
  unfold execKatChal; refine done_follows ?_
  repeat' first
    | with_reducible assumption | (intro _) | with_reducible apply State.queueUnit_follows (within hmsk (by decide))
    | with_reducible apply State.when_follows | split | dsimp only

theorem execKatResp_follows {msk : Nat} (hmsk : msk ||| 8 = msk) {z s : State} (n : Nat) (data : Nat) (h : Follows msk z s) : ∃ nx,
    execKatResp n data s = .next nx ∧ Follows msk z nx := by
  unfold execKatResp; refine done_follows ?_
  repeat' first
    | with_reducible assumption | (intro _) | with_reducible apply State.abandonKey_follows (within hmsk (by decide))
    | with_reducible apply State.modLk_follows (within hmsk (by decide)) | with_reducible apply State.when_follows
    | with_reducible apply Follows.ite | split | dsimp only

theorem execKeySwitchMsg_follows {msk : Nat} (hmsk : msk ||| 8 = msk) {z s : State} (n : Nat) (gen : Nat) (w : Nat) (h : Follows msk z
    s) : ∃ nx, execKeySwitchMsg n gen w s = .next nx ∧ Follows msk z nx := by
  unfold execKeySwitchMsg; refine done_follows ?_
  repeat' first
    | with_reducible assumption | (intro _) | with_reducible apply State.modLk_follows (within hmsk (by decide))
    | with_reducible apply State.when_follows | split | dsimp only

theorem execSwitchAck_follows {msk : Nat} (hmsk : msk ||| 8 = msk) {z s : State} (n : Nat) (gen : Nat) (w : Nat) (h : Follows msk z s) :
    ∃ nx, execSwitchAck n gen w s = .next nx ∧ Follows msk z nx := by
  unfold execSwitchAck; refine done_follows ?_
  repeat' first
    | with_reducible assumption | (intro _) | with_reducible apply State.modLk_follows (within hmsk (by decide))
    | with_reducible apply State.when_follows | split | dsimp only

theorem execOldReleased_follows {msk : Nat} (hmsk : msk ||| 8 = msk) {z s : State} (n : Nat) (gen : Nat) (h : Follows msk z s) : ∃ nx,
    execOldReleased n gen s = .next nx ∧ Follows msk z nx := by
  unfold execOldReleased; refine done_follows ?_
  repeat' first
    | with_reducible assumption | (intro _) | with_reducible apply State.modLk_follows (within hmsk (by decide))
    | with_reducible apply State.when_follows | split | dsimp only

theorem execKeySwitchCycle_follows {msk : Nat} (hmsk : msk ||| 8 = msk) {z s : State} (n : Nat) (h : Follows msk z s) : ∃ nx,
    execKeySwitchCycle n s = .next nx ∧ Follows msk z nx := by
  unfold execKeySwitchCycle; refine done_follows ?_
  repeat' first
    | with_reducible assumption | (intro _) | with_reducible apply State.showKey_follows
    | with_reducible apply State.modLk_follows (within hmsk (by decide)) | with_reducible apply State.when_follows
    | with_reducible apply Follows.ite | split | dsimp only

theorem execKeyReleaseCycle_follows {msk : Nat} (hmsk : msk ||| 335 = msk) {z s : State} (n : Nat) (h : Follows msk z s) : ∃ nx,
    execKeyReleaseCycle n s = .next nx ∧ Follows msk z nx := by
  unfold execKeyReleaseCycle; refine done_follows ?_
  repeat' first
    | with_reducible assumption | (intro _) | with_reducible apply State.showKey_follows
    | with_reducible apply State.modLk_follows (within hmsk (by decide))
    | with_reducible apply State.keyFail_follows (within hmsk (by decide)) | with_reducible apply State.when_follows
    | with_reducible apply Follows.ite | split | dsimp only

theorem execKeyLateSwitch_follows {msk : Nat} (hmsk : msk ||| 8 = msk) {z s : State} (n : Nat) (h : Follows msk z s) : ∃ nx,
    execKeyLateSwitch n s = .next nx ∧ Follows msk z nx := by
  unfold execKeyLateSwitch; refine done_follows ?_
  repeat' first
    | with_reducible assumption | (intro _) | with_reducible apply State.showKey_follows
    | with_reducible apply State.modLk_follows (within hmsk (by decide)) | with_reducible apply State.when_follows | split | dsimp only

theorem State.tamperRecord_follows {msk : Nat} (hmsk : msk ||| 2 = msk) {z s : State} (h : Follows msk z s) : Follows msk z
    (State.tamperRecord s) := by
  unfold State.tamperRecord
  repeat' first
    | with_reducible assumption | (intro _) | with_reducible apply State.sysRecord_follows (within hmsk (by decide))
    | with_reducible apply State.raise_follows (within hmsk (by decide)) | split | dsimp only

theorem State.zeroise_follows {msk : Nat} (hmsk : msk ||| 262479 = msk) {z s : State} (src : Nat) (h : Follows msk z s) : Follows msk z
    (State.zeroise s src) := by
  unfold State.zeroise
  repeat' first
    | with_reducible assumption | (intro _) | with_reducible apply State.modSec_follows (within hmsk (by decide))
    | with_reducible apply State.tamperRecord_follows (within hmsk (by decide))
    | with_reducible apply State.retrain_follows (within hmsk (by decide))
    | with_reducible apply State.modLk_follows (within hmsk (by decide)) | with_reducible apply State.when_follows
    | with_reducible apply State.wr_follows | with_reducible apply State.incSat_follows | with_reducible apply State.flag_follows
    | with_reducible apply foldS_follows | with_reducible apply Follows.ite | split | dsimp only

theorem execTamperEvent_follows {msk : Nat} (hmsk : msk ||| 262479 = msk) {z s : State} (src : Nat) (h : Follows msk z s) : ∃ nx,
    execTamperEvent src s = .next nx ∧ Follows msk z nx := by
  unfold execTamperEvent; refine done_follows ?_
  repeat' first
    | with_reducible assumption | (intro _) | with_reducible apply State.zeroise_follows (within hmsk (by decide))
    | with_reducible apply State.when_follows | split | dsimp only

theorem execMeshCheck_follows {msk : Nat} (hmsk : msk ||| 262479 = msk) {z s : State} (mismatch : Bool) (h : Follows msk z s) : ∃ nx,
    execMeshCheck mismatch s = .next nx ∧ Follows msk z nx := by
  unfold execMeshCheck; refine done_follows ?_
  repeat' first
    | with_reducible assumption | (intro _) | with_reducible apply State.modSec_follows (within hmsk (by decide))
    | with_reducible apply State.zeroise_follows (within hmsk (by decide)) | with_reducible apply State.when_follows | split | dsimp only

theorem execTamperCfgWrite_follows {msk : Nat} (hmsk : msk ||| 524315 = msk) {z s : State} (p : Sys2Proof.Path) (v : Nat) (h : Follows
    msk z s) : ∃ nx, execTamperCfgWrite p v s = .next nx ∧ Follows msk z nx := by
  unfold execTamperCfgWrite; refine done_follows ?_
  repeat' first
    | with_reducible assumption | (intro _) | with_reducible apply State.writeOwn_follows (within hmsk (by decide))
    | with_reducible apply State.wr_follows | with_reducible apply Follows.ite | split | dsimp only

theorem State.modSlot_follows {msk : Nat} (hmsk : msk ||| 262144 = msk) {z s : State} (i : Nat) (f : KeySlot → KeySlot) (h : Follows msk
    z s) : Follows msk z (State.modSlot s i f) := by
  unfold State.modSlot
  repeat' first
    | with_reducible assumption | (intro _) | with_reducible apply State.modSec_follows (within hmsk (by decide)) | split | dsimp only

theorem State.authEnd_follows {msk : Nat} (hmsk : msk ||| 262144 = msk) {z s : State} (result : Nat) (h : Follows msk z s) : Follows msk
    z (State.authEnd s result) := by
  unfold State.authEnd
  repeat' first
    | with_reducible assumption | (intro _) | with_reducible apply State.modSec_follows (within hmsk (by decide))
    | with_reducible apply State.wr_follows | split | dsimp only

theorem cmdKsLoadNext_follows {msk : Nat} (hmsk : msk ||| 262144 = msk) {z t : State} (h : Follows msk z t) : Follows msk z
    ((cmdKsLoadNext).act t) := by
  unfold cmdKsLoadNext; dsimp only
  repeat' first
    | with_reducible assumption | (intro _) | with_reducible apply State.authEnd_follows (within hmsk (by decide))
    | with_reducible apply State.modSlot_follows (within hmsk (by decide)) | with_reducible apply State.wr_follows
    | with_reducible apply Follows.ite | split | dsimp only

theorem execKsLoadNext_follows {msk : Nat} (hmsk : msk ||| 786459 = msk) {z s : State} (p : Sys2Proof.Path) (h : Follows msk z s) : ∃
    nx, execKsLoadNext p s = .next nx ∧ Follows msk z nx := by
  unfold execKsLoadNext; refine done_follows ?_
  repeat' first
    | with_reducible assumption | (intro _) | with_reducible apply State.runCmd_follows (within hmsk (by decide))
    | with_reducible apply cmdKsLoadNext_follows (within hmsk (by decide)) | split | dsimp only

theorem cmdKsSwitch_follows {msk : Nat} (hmsk : msk ||| 262144 = msk) {z t : State} (h : Follows msk z t) : Follows msk z
    ((cmdKsSwitch).act t) := by
  unfold cmdKsSwitch; dsimp only
  repeat' first
    | with_reducible assumption | (intro _) | with_reducible apply State.modSlot_follows (within hmsk (by decide))
    | with_reducible apply State.authEnd_follows (within hmsk (by decide)) | with_reducible apply State.wr_follows
    | with_reducible apply Follows.ite | split | dsimp only

theorem execKsSwitch_follows {msk : Nat} (hmsk : msk ||| 786459 = msk) {z s : State} (p : Sys2Proof.Path) (h : Follows msk z s) : ∃ nx,
    execKsSwitch p s = .next nx ∧ Follows msk z nx := by
  unfold execKsSwitch; refine done_follows ?_
  repeat' first
    | with_reducible assumption | (intro _) | with_reducible apply State.runCmd_follows (within hmsk (by decide))
    | with_reducible apply cmdKsSwitch_follows (within hmsk (by decide)) | split | dsimp only

theorem cmdKsErase_follows {msk : Nat} (hmsk : msk ||| 262144 = msk) {z t : State} (h : Follows msk z t) : Follows msk z
    ((cmdKsErase).act t) := by
  unfold cmdKsErase; dsimp only
  repeat' first
    | with_reducible assumption | (intro _) | with_reducible apply State.modSlot_follows (within hmsk (by decide))
    | with_reducible apply State.authEnd_follows (within hmsk (by decide)) | with_reducible apply State.wr_follows | split | dsimp only

theorem execKsErase_follows {msk : Nat} (hmsk : msk ||| 786459 = msk) {z s : State} (p : Sys2Proof.Path) (h : Follows msk z s) : ∃ nx,
    execKsErase p s = .next nx ∧ Follows msk z nx := by
  unfold execKsErase; refine done_follows ?_
  repeat' first
    | with_reducible assumption | (intro _) | with_reducible apply State.runCmd_follows (within hmsk (by decide))
    | with_reducible apply cmdKsErase_follows (within hmsk (by decide)) | split | dsimp only

theorem cmdKsEraseAll_follows {msk : Nat} (hmsk : msk ||| 262144 = msk) {z t : State} (h : Follows msk z t) : Follows msk z
    ((cmdKsEraseAll).act t) := by
  unfold cmdKsEraseAll; dsimp only
  repeat' first
    | with_reducible assumption | (intro _) | with_reducible apply State.modSec_follows (within hmsk (by decide))
    | with_reducible apply State.authEnd_follows (within hmsk (by decide)) | with_reducible apply State.wr_follows
    | with_reducible apply State.flag_follows | with_reducible apply Follows.ite | split | dsimp only

theorem execKsEraseAll_follows {msk : Nat} (hmsk : msk ||| 786459 = msk) {z s : State} (p : Sys2Proof.Path) (h : Follows msk z s) : ∃
    nx, execKsEraseAll p s = .next nx ∧ Follows msk z nx := by
  unfold execKsEraseAll; refine done_follows ?_
  repeat' first
    | with_reducible assumption | (intro _) | with_reducible apply State.runCmd_follows (within hmsk (by decide))
    | with_reducible apply cmdKsEraseAll_follows (within hmsk (by decide)) | split | dsimp only

theorem execKeyRetired_follows {msk : Nat} (hmsk : msk ||| 262144 = msk) {z s : State} (i : Nat) (h : Follows msk z s) : ∃ nx,
    execKeyRetired i s = .next nx ∧ Follows msk z nx := by
  unfold execKeyRetired; refine done_follows ?_
  repeat' first
    | with_reducible assumption | (intro _) | with_reducible apply State.modSlot_follows (within hmsk (by decide))
    | with_reducible apply State.when_follows | with_reducible apply Follows.ite | split | dsimp only

theorem cmdMrExtGo_follows {msk : Nat} {z t : State} (h : Follows msk z t) : Follows msk z ((cmdMrExtGo).act t) := by
  unfold cmdMrExtGo; dsimp only
  repeat' first
    | with_reducible assumption | (intro _) | with_reducible apply State.mrExtend_follows | split | dsimp only

theorem execMrExtGo_follows {msk : Nat} (hmsk : msk ||| 524315 = msk) {z s : State} (p : Sys2Proof.Path) (h : Follows msk z s) : ∃ nx,
    execMrExtGo p s = .next nx ∧ Follows msk z nx := by
  unfold execMrExtGo; refine done_follows ?_
  repeat' first
    | with_reducible assumption | (intro _) | with_reducible apply State.runCmd_follows (within hmsk (by decide))
    | with_reducible apply cmdMrExtGo_follows | split | dsimp only

theorem cmdAttGo_follows {msk : Nat} (hmsk : msk ||| 262144 = msk) {z t : State} (h : Follows msk z t) : Follows msk z ((cmdAttGo).act
    t) := by
  unfold cmdAttGo; dsimp only
  repeat' first
    | with_reducible assumption | (intro _) | with_reducible apply State.modSec_follows (within hmsk (by decide))
    | with_reducible apply State.flag_follows | with_reducible apply Follows.ite | split | dsimp only

theorem execAttGo_follows {msk : Nat} (hmsk : msk ||| 786459 = msk) {z s : State} (p : Sys2Proof.Path) (h : Follows msk z s) : ∃ nx,
    execAttGo p s = .next nx ∧ Follows msk z nx := by
  unfold execAttGo; refine done_follows ?_
  repeat' first
    | with_reducible assumption | (intro _) | with_reducible apply State.runCmd_follows (within hmsk (by decide))
    | with_reducible apply cmdAttGo_follows (within hmsk (by decide)) | split | dsimp only

theorem execAttDone_follows {msk : Nat} (hmsk : msk ||| 2 = msk) {z s : State} (h : Follows msk z s) : ∃ nx, execAttDone s = .next nx ∧
    Follows msk z nx := by
  unfold execAttDone; refine done_follows ?_
  repeat' first
    | with_reducible assumption | (intro _) | with_reducible apply State.raise_follows (within hmsk (by decide))
    | with_reducible apply State.when_follows | with_reducible apply foldS_follows | with_reducible apply State.wr_follows
    | with_reducible apply State.flag_follows | split | dsimp only

theorem execDrbgHealthFail_follows {msk : Nat} {z s : State} (h : Follows msk z s) : ∃ nx, execDrbgHealthFail s = .next nx ∧ Follows msk
    z nx := by
  unfold execDrbgHealthFail; refine done_follows ?_
  repeat' first
    | with_reducible assumption | (intro _) | with_reducible apply State.flag_follows | split | dsimp only

theorem execChallengeRead_follows {msk : Nat} (hmsk : msk ||| 786459 = msk) {z s : State} (p : Sys2Proof.Path) (h : Follows msk z s) : ∃
    nx, execChallengeRead p s = .next nx ∧ Follows msk z nx := by
  unfold execChallengeRead; refine done_follows ?_
  repeat' first
    | with_reducible assumption | (intro _) | with_reducible apply State.gate_follows (within hmsk (by decide))
    | with_reducible apply State.reject_follows (within hmsk (by decide)) | with_reducible apply State.random_follows
    | with_reducible apply State.readBack_follows (within hmsk (by decide))
    | with_reducible apply State.modSec_follows (within hmsk (by decide)) | with_reducible apply foldS_follows
    | with_reducible apply State.wr_follows | simp only [RFollows.pair_iff]
    | with_reducible refine RFollows.of_eq ?_ (by with_reducible assumption)
    | with_reducible refine RFollows.snd (State.random_follows _ ?_) | with_reducible apply Follows.ite | split | dsimp only

theorem cmdAuthSubmit_follows {msk : Nat} (hmsk : msk ||| 262146 = msk) {z t : State} (h : Follows msk z t) : Follows msk z
    ((cmdAuthSubmit).act t) := by
  unfold cmdAuthSubmit; dsimp only
  repeat' first
    | with_reducible assumption | (intro _) | with_reducible apply State.modSec_follows (within hmsk (by decide))
    | with_reducible apply State.authEnd_follows (within hmsk (by decide))
    | with_reducible apply State.sysRecord_follows (within hmsk (by decide))
    | with_reducible apply State.raise_follows (within hmsk (by decide)) | with_reducible apply State.wr_follows
    | with_reducible apply State.when_follows | with_reducible apply State.flag_follows | with_reducible apply Follows.ite | split
    | dsimp only

theorem execAuthSubmit_follows {msk : Nat} (hmsk : msk ||| 786459 = msk) {z s : State} (p : Sys2Proof.Path) (h : Follows msk z s) : ∃
    nx, execAuthSubmit p s = .next nx ∧ Follows msk z nx := by
  unfold execAuthSubmit; refine done_follows ?_
  repeat' first
    | with_reducible assumption | (intro _) | with_reducible apply State.runCmd_follows (within hmsk (by decide))
    | with_reducible apply cmdAuthSubmit_follows (within hmsk (by decide)) | split | dsimp only

theorem cmdAuthClose_follows {msk : Nat} (hmsk : msk ||| 262144 = msk) {z t : State} (h : Follows msk z t) : Follows msk z
    ((cmdAuthClose).act t) := by
  unfold cmdAuthClose; dsimp only
  repeat' first
    | with_reducible assumption | (intro _) | with_reducible apply State.authEnd_follows (within hmsk (by decide))
    | with_reducible apply Follows.ite | split | dsimp only

theorem execAuthClose_follows {msk : Nat} (hmsk : msk ||| 786459 = msk) {z s : State} (p : Sys2Proof.Path) (h : Follows msk z s) : ∃ nx,
    execAuthClose p s = .next nx ∧ Follows msk z nx := by
  unfold execAuthClose; refine done_follows ?_
  repeat' first
    | with_reducible assumption | (intro _) | with_reducible apply State.runCmd_follows (within hmsk (by decide))
    | with_reducible apply cmdAuthClose_follows (within hmsk (by decide)) | split | dsimp only

theorem execAuthExpiry_follows {msk : Nat} (hmsk : msk ||| 262144 = msk) {z s : State} (h : Follows msk z s) : ∃ nx, execAuthExpiry s =
    .next nx ∧ Follows msk z nx := by
  unfold execAuthExpiry; refine done_follows ?_
  repeat' first
    | with_reducible assumption | (intro _) | with_reducible apply State.authEnd_follows (within hmsk (by decide))
    | with_reducible apply State.when_follows | split | dsimp only

theorem execOtpDataWrite_follows {msk : Nat} (hmsk : msk ||| 786459 = msk) {z s : State} (p : Sys2Proof.Path) (v : Nat) (h : Follows msk
    z s) : ∃ nx, execOtpDataWrite p v s = .next nx ∧ Follows msk z nx := by
  unfold execOtpDataWrite; refine done_follows ?_
  repeat' first
    | with_reducible assumption | (intro _) | with_reducible apply State.writeOwn_follows (within hmsk (by decide))
    | with_reducible apply State.modSec_follows (within hmsk (by decide)) | with_reducible apply State.inc_follows | split | dsimp only

theorem cmdOtpProgram_follows {msk : Nat} (hmsk : msk ||| 262144 = msk) {z t : State} (h : Follows msk z t) : Follows msk z
    ((cmdOtpProgram).act t) := by
  unfold cmdOtpProgram; dsimp only
  repeat' first
    | with_reducible assumption | (intro _) | with_reducible apply State.authEnd_follows (within hmsk (by decide))
    | with_reducible apply State.modSec_follows (within hmsk (by decide)) | with_reducible apply Follows.ite | split | dsimp only

theorem execOtpProgram_follows {msk : Nat} (hmsk : msk ||| 786459 = msk) {z s : State} (p : Sys2Proof.Path) (h : Follows msk z s) : ∃
    nx, execOtpProgram p s = .next nx ∧ Follows msk z nx := by
  unfold execOtpProgram; refine done_follows ?_
  repeat' first
    | with_reducible assumption | (intro _) | with_reducible apply State.runCmd_follows (within hmsk (by decide))
    | with_reducible apply cmdOtpProgram_follows (within hmsk (by decide)) | split | dsimp only

end Sys2Proof.Machine
end

