-- ==== Sys2Proof/Laws/FolSieve.lean ====
section
/-!
SUPPORT. `Follows` for the operations and meanings of `Sieve.lean`.
-/

namespace Sys2Proof.Machine

open Host (Outcome)

set_option linter.unusedTactic false
set_option linter.unreachableTactic false
set_option linter.unusedSimpArgs false
set_option linter.unusedVariables false

theorem execSieveRun_follows {msk : Nat} (hmsk : msk ||| 4938 = msk) {z s : State} (e : Nat) (f : Nat × Nat) (h : Follows msk z s) : ∃ nx,
    execSieveRun e f s = .next nx ∧ Follows msk z nx := by
  unfold execSieveRun; refine done_follows ?_
  repeat' first
    | with_reducible assumption | (intro _) | with_reducible apply State.modFac_follows (within hmsk (by decide))
    | with_reducible apply State.toContext_follows (within hmsk (by decide)) | with_reducible apply State.when_follows | split
    | dsimp only

theorem State.svPut_follows {msk : Nat} (hmsk : msk ||| 4938 = msk) {z s : State} (e : Nat) (r : SvRun) (h : Follows msk z s) : Follows
    msk z (State.svPut s e r) := by
  unfold State.svPut
  repeat' first
    | with_reducible assumption | (intro _) | with_reducible apply State.modFac_follows (within hmsk (by decide))
    | with_reducible apply State.svRelease_follows (within hmsk (by decide)) | with_reducible apply State.wr_follows
    | with_reducible apply Follows.ite | split | dsimp only

theorem State.svStep_follows {msk : Nat} (hmsk : msk ||| 4938 = msk) {z s : State} (e : Nat) (op : Nat) (f : State → SvRun → SvWord →
    State × SvRun) (h : Follows msk z s) (hf : ∀ t x y, Follows msk z t → LFollows msk z (f t x y)) : Follows msk z (State.svStep s e op
    f) := by
  unfold State.svStep
  repeat' first
    | with_reducible assumption | (intro _) | with_reducible refine LFollows.fst (hf _ _ _ ?_) | with_reducible apply hf
    | with_reducible apply State.svPut_follows (within hmsk (by decide)) | with_reducible apply State.when_follows
    | simp only [LFollows.pair_iff] | with_reducible refine LFollows.of_eq ?_ (by with_reducible assumption) | split | dsimp only

theorem svLoad_follows {msk : Nat} (hmsk : msk ||| 2 = msk) {z s : State} (n : Nat) (r : SvRun) (i : SvWord) (h : Follows msk z s) :
    LFollows msk z (svLoad n s r i) := by
  unfold svLoad
  repeat' first
    | with_reducible assumption | (intro _) | with_reducible apply State.sieveOob_follows (within hmsk (by decide))
    | simp only [LFollows.pair_iff] | with_reducible refine LFollows.of_eq ?_ (by with_reducible assumption)
    | with_reducible apply Follows.ite | with_reducible apply LFollows.ite | split | dsimp only

theorem svAlu_follows {msk : Nat} {z s : State} (f : Nat → Nat → Nat) (r : SvRun) (i : SvWord) (h : Follows msk z s) : LFollows msk z
    (svAlu f s r i) := by
  unfold svAlu
  repeat' first
    | with_reducible assumption | (intro _) | simp only [LFollows.pair_iff]
    | with_reducible refine LFollows.of_eq ?_ (by with_reducible assumption) | with_reducible apply Follows.ite
    | with_reducible apply LFollows.ite | split | dsimp only

theorem execSieveLdb_follows {msk : Nat} (hmsk : msk ||| 4938 = msk) {z s : State} (e : Nat) (h : Follows msk z s) : ∃ nx, execSieveLdb
    e s = .next nx ∧ Follows msk z nx := by
  unfold execSieveLdb; refine done_follows ?_
  repeat' first
    | with_reducible assumption | (intro _) | with_reducible apply State.svStep_follows (within hmsk (by decide))
    | with_reducible apply svLoad_follows (within hmsk (by decide)) | simp only [LFollows.pair_iff]
    | with_reducible refine LFollows.of_eq ?_ (by with_reducible assumption)
    | with_reducible refine LFollows.fst (svLoad_follows (within hmsk (by decide)) _ _ _ ?_) | split | dsimp only

theorem execSieveLdh_follows {msk : Nat} (hmsk : msk ||| 4938 = msk) {z s : State} (e : Nat) (h : Follows msk z s) : ∃ nx, execSieveLdh
    e s = .next nx ∧ Follows msk z nx := by
  unfold execSieveLdh; refine done_follows ?_
  repeat' first
    | with_reducible assumption | (intro _) | with_reducible apply State.svStep_follows (within hmsk (by decide))
    | with_reducible apply svLoad_follows (within hmsk (by decide)) | simp only [LFollows.pair_iff]
    | with_reducible refine LFollows.of_eq ?_ (by with_reducible assumption)
    | with_reducible refine LFollows.fst (svLoad_follows (within hmsk (by decide)) _ _ _ ?_) | split | dsimp only

theorem execSieveLdw_follows {msk : Nat} (hmsk : msk ||| 4938 = msk) {z s : State} (e : Nat) (h : Follows msk z s) : ∃ nx, execSieveLdw
    e s = .next nx ∧ Follows msk z nx := by
  unfold execSieveLdw; refine done_follows ?_
  repeat' first
    | with_reducible assumption | (intro _) | with_reducible apply State.svStep_follows (within hmsk (by decide))
    | with_reducible apply svLoad_follows (within hmsk (by decide)) | simp only [LFollows.pair_iff]
    | with_reducible refine LFollows.of_eq ?_ (by with_reducible assumption)
    | with_reducible refine LFollows.fst (svLoad_follows (within hmsk (by decide)) _ _ _ ?_) | split | dsimp only

theorem execSieveAnd_follows {msk : Nat} (hmsk : msk ||| 4938 = msk) {z s : State} (e : Nat) (h : Follows msk z s) : ∃ nx, execSieveAnd
    e s = .next nx ∧ Follows msk z nx := by
  unfold execSieveAnd; refine done_follows ?_
  repeat' first
    | with_reducible assumption | (intro _) | with_reducible apply State.svStep_follows (within hmsk (by decide))
    | with_reducible apply svAlu_follows | simp only [LFollows.pair_iff]
    | with_reducible refine LFollows.of_eq ?_ (by with_reducible assumption) | with_reducible refine LFollows.fst (svAlu_follows _ _ _ ?_)
    | split | dsimp only

theorem execSieveOr_follows {msk : Nat} (hmsk : msk ||| 4938 = msk) {z s : State} (e : Nat) (h : Follows msk z s) : ∃ nx, execSieveOr e
    s = .next nx ∧ Follows msk z nx := by
  unfold execSieveOr; refine done_follows ?_
  repeat' first
    | with_reducible assumption | (intro _) | with_reducible apply State.svStep_follows (within hmsk (by decide))
    | with_reducible apply svAlu_follows | simp only [LFollows.pair_iff]
    | with_reducible refine LFollows.of_eq ?_ (by with_reducible assumption) | with_reducible refine LFollows.fst (svAlu_follows _ _ _ ?_)
    | split | dsimp only

theorem execSieveXor_follows {msk : Nat} (hmsk : msk ||| 4938 = msk) {z s : State} (e : Nat) (h : Follows msk z s) : ∃ nx, execSieveXor
    e s = .next nx ∧ Follows msk z nx := by
  unfold execSieveXor; refine done_follows ?_
  repeat' first
    | with_reducible assumption | (intro _) | with_reducible apply State.svStep_follows (within hmsk (by decide))
    | with_reducible apply svAlu_follows | simp only [LFollows.pair_iff]
    | with_reducible refine LFollows.of_eq ?_ (by with_reducible assumption) | with_reducible refine LFollows.fst (svAlu_follows _ _ _ ?_)
    | split | dsimp only

theorem execSieveAdd_follows {msk : Nat} (hmsk : msk ||| 4938 = msk) {z s : State} (e : Nat) (h : Follows msk z s) : ∃ nx, execSieveAdd
    e s = .next nx ∧ Follows msk z nx := by
  unfold execSieveAdd; refine done_follows ?_
  repeat' first
    | with_reducible assumption | (intro _) | with_reducible apply State.svStep_follows (within hmsk (by decide))
    | with_reducible apply svAlu_follows | simp only [LFollows.pair_iff]
    | with_reducible refine LFollows.of_eq ?_ (by with_reducible assumption) | with_reducible refine LFollows.fst (svAlu_follows _ _ _ ?_)
    | split | dsimp only

theorem execSieveSub_follows {msk : Nat} (hmsk : msk ||| 4938 = msk) {z s : State} (e : Nat) (h : Follows msk z s) : ∃ nx, execSieveSub
    e s = .next nx ∧ Follows msk z nx := by
  unfold execSieveSub; refine done_follows ?_
  repeat' first
    | with_reducible assumption | (intro _) | with_reducible apply State.svStep_follows (within hmsk (by decide))
    | with_reducible apply svAlu_follows | simp only [LFollows.pair_iff]
    | with_reducible refine LFollows.of_eq ?_ (by with_reducible assumption) | with_reducible refine LFollows.fst (svAlu_follows _ _ _ ?_)
    | split | dsimp only

theorem execSieveShl_follows {msk : Nat} (hmsk : msk ||| 4938 = msk) {z s : State} (e : Nat) (h : Follows msk z s) : ∃ nx, execSieveShl
    e s = .next nx ∧ Follows msk z nx := by
  unfold execSieveShl; refine done_follows ?_
  repeat' first
    | with_reducible assumption | (intro _) | with_reducible apply State.svStep_follows (within hmsk (by decide))
    | with_reducible apply svAlu_follows | simp only [LFollows.pair_iff]
    | with_reducible refine LFollows.of_eq ?_ (by with_reducible assumption) | with_reducible refine LFollows.fst (svAlu_follows _ _ _ ?_)
    | split | dsimp only

theorem execSieveShr_follows {msk : Nat} (hmsk : msk ||| 4938 = msk) {z s : State} (e : Nat) (h : Follows msk z s) : ∃ nx, execSieveShr
    e s = .next nx ∧ Follows msk z nx := by
  unfold execSieveShr; refine done_follows ?_
  repeat' first
    | with_reducible assumption | (intro _) | with_reducible apply State.svStep_follows (within hmsk (by decide))
    | with_reducible apply svAlu_follows | simp only [LFollows.pair_iff]
    | with_reducible refine LFollows.of_eq ?_ (by with_reducible assumption) | with_reducible refine LFollows.fst (svAlu_follows _ _ _ ?_)
    | split | dsimp only

theorem execSieveCmp_follows {msk : Nat} (hmsk : msk ||| 4938 = msk) {z s : State} (e : Nat) (h : Follows msk z s) : ∃ nx, execSieveCmp
    e s = .next nx ∧ Follows msk z nx := by
  unfold execSieveCmp; refine done_follows ?_
  repeat' first
    | with_reducible assumption | (intro _) | with_reducible apply State.svStep_follows (within hmsk (by decide))
    | simp only [LFollows.pair_iff] | with_reducible refine LFollows.of_eq ?_ (by with_reducible assumption)
    | with_reducible apply Follows.ite | with_reducible apply LFollows.ite | split | dsimp only

theorem svBranch_follows {msk : Nat} {z s : State} (c : Nat → Bool) (r : SvRun) (i : SvWord) (h : Follows msk z s) : LFollows msk z
    (svBranch c s r i) := by
  unfold svBranch
  repeat' first
    | with_reducible assumption | (intro _) | simp only [LFollows.pair_iff]
    | with_reducible refine LFollows.of_eq ?_ (by with_reducible assumption) | with_reducible apply Follows.ite
    | with_reducible apply LFollows.ite | split | dsimp only

theorem execSieveBeq_follows {msk : Nat} (hmsk : msk ||| 4938 = msk) {z s : State} (e : Nat) (h : Follows msk z s) : ∃ nx, execSieveBeq
    e s = .next nx ∧ Follows msk z nx := by
  unfold execSieveBeq; refine done_follows ?_
  repeat' first
    | with_reducible assumption | (intro _) | with_reducible apply State.svStep_follows (within hmsk (by decide))
    | with_reducible apply svBranch_follows | simp only [LFollows.pair_iff]
    | with_reducible refine LFollows.of_eq ?_ (by with_reducible assumption)
    | with_reducible refine LFollows.fst (svBranch_follows _ _ _ ?_) | split | dsimp only

theorem execSieveBne_follows {msk : Nat} (hmsk : msk ||| 4938 = msk) {z s : State} (e : Nat) (h : Follows msk z s) : ∃ nx, execSieveBne
    e s = .next nx ∧ Follows msk z nx := by
  unfold execSieveBne; refine done_follows ?_
  repeat' first
    | with_reducible assumption | (intro _) | with_reducible apply State.svStep_follows (within hmsk (by decide))
    | with_reducible apply svBranch_follows | simp only [LFollows.pair_iff]
    | with_reducible refine LFollows.of_eq ?_ (by with_reducible assumption)
    | with_reducible refine LFollows.fst (svBranch_follows _ _ _ ?_) | split | dsimp only

theorem execSieveBgt_follows {msk : Nat} (hmsk : msk ||| 4938 = msk) {z s : State} (e : Nat) (h : Follows msk z s) : ∃ nx, execSieveBgt
    e s = .next nx ∧ Follows msk z nx := by
  unfold execSieveBgt; refine done_follows ?_
  repeat' first
    | with_reducible assumption | (intro _) | with_reducible apply State.svStep_follows (within hmsk (by decide))
    | with_reducible apply svBranch_follows | simp only [LFollows.pair_iff]
    | with_reducible refine LFollows.of_eq ?_ (by with_reducible assumption)
    | with_reducible refine LFollows.fst (svBranch_follows _ _ _ ?_) | split | dsimp only

theorem execSieveBlt_follows {msk : Nat} (hmsk : msk ||| 4938 = msk) {z s : State} (e : Nat) (h : Follows msk z s) : ∃ nx, execSieveBlt
    e s = .next nx ∧ Follows msk z nx := by
  unfold execSieveBlt; refine done_follows ?_
  repeat' first
    | with_reducible assumption | (intro _) | with_reducible apply State.svStep_follows (within hmsk (by decide))
    | with_reducible apply svBranch_follows | simp only [LFollows.pair_iff]
    | with_reducible refine LFollows.of_eq ?_ (by with_reducible assumption)
    | with_reducible refine LFollows.fst (svBranch_follows _ _ _ ?_) | split | dsimp only

theorem execSieveJmp_follows {msk : Nat} (hmsk : msk ||| 4938 = msk) {z s : State} (e : Nat) (h : Follows msk z s) : ∃ nx, execSieveJmp
    e s = .next nx ∧ Follows msk z nx := by
  unfold execSieveJmp; refine done_follows ?_
  repeat' first
    | with_reducible assumption | (intro _) | with_reducible apply State.svStep_follows (within hmsk (by decide))
    | with_reducible apply svBranch_follows | simp only [LFollows.pair_iff]
    | with_reducible refine LFollows.of_eq ?_ (by with_reducible assumption)
    | with_reducible refine LFollows.fst (svBranch_follows _ _ _ ?_) | split | dsimp only

theorem execSieveLkp_follows {msk : Nat} (hmsk : msk ||| 4938 = msk) {z s : State} (e : Nat) (h : Follows msk z s) : ∃ nx, execSieveLkp
    e s = .next nx ∧ Follows msk z nx := by
  unfold execSieveLkp; refine done_follows ?_
  repeat' first
    | with_reducible assumption | (intro _) | with_reducible apply State.svStep_follows (within hmsk (by decide))
    | simp only [LFollows.pair_iff] | with_reducible refine LFollows.of_eq ?_ (by with_reducible assumption) | split | dsimp only

theorem execSieveSettc_follows {msk : Nat} (hmsk : msk ||| 4938 = msk) {z s : State} (e : Nat) (h : Follows msk z s) : ∃ nx,
    execSieveSettc e s = .next nx ∧ Follows msk z nx := by
  unfold execSieveSettc; refine done_follows ?_
  repeat' first
    | with_reducible assumption | (intro _) | with_reducible apply State.svStep_follows (within hmsk (by decide))
    | simp only [LFollows.pair_iff] | with_reducible refine LFollows.of_eq ?_ (by with_reducible assumption)
    | with_reducible apply Follows.ite | with_reducible apply LFollows.ite | split | dsimp only

theorem execSieveSettun_follows {msk : Nat} (hmsk : msk ||| 4938 = msk) {z s : State} (e : Nat) (h : Follows msk z s) : ∃ nx,
    execSieveSettun e s = .next nx ∧ Follows msk z nx := by
  unfold execSieveSettun; refine done_follows ?_
  repeat' first
    | with_reducible assumption | (intro _) | with_reducible apply State.svStep_follows (within hmsk (by decide))
    | with_reducible apply State.sieveOob_follows (within hmsk (by decide)) | simp only [LFollows.pair_iff]
    | with_reducible refine LFollows.of_eq ?_ (by with_reducible assumption) | with_reducible apply Follows.ite
    | with_reducible apply LFollows.ite | split | dsimp only

theorem execSieveMark_follows {msk : Nat} (hmsk : msk ||| 4938 = msk) {z s : State} (e : Nat) (h : Follows msk z s) : ∃ nx,
    execSieveMark e s = .next nx ∧ Follows msk z nx := by
  unfold execSieveMark; refine done_follows ?_
  repeat' first
    | with_reducible assumption | (intro _) | with_reducible apply State.svStep_follows (within hmsk (by decide))
    | simp only [LFollows.pair_iff] | with_reducible refine LFollows.of_eq ?_ (by with_reducible assumption) | split | dsimp only

theorem execSieveMeter_follows {msk : Nat} (hmsk : msk ||| 4938 = msk) {z s : State} (e : Nat) (h : Follows msk z s) : ∃ nx,
    execSieveMeter e s = .next nx ∧ Follows msk z nx := by
  unfold execSieveMeter; refine done_follows ?_
  repeat' first
    | with_reducible assumption | (intro _) | with_reducible apply State.svStep_follows (within hmsk (by decide))
    | with_reducible apply State.sieveOob_follows (within hmsk (by decide))
    | with_reducible apply State.meter_follows (within hmsk (by decide)) | simp only [LFollows.pair_iff]
    | with_reducible refine LFollows.of_eq ?_ (by with_reducible assumption)
    | with_reducible refine LFollows.fst (State.meter_follows (within hmsk (by decide)) _ _ _ ?_) | with_reducible apply Follows.ite
    | with_reducible apply LFollows.ite | split | dsimp only

theorem execSieveDrop_follows {msk : Nat} (hmsk : msk ||| 4938 = msk) {z s : State} (e : Nat) (h : Follows msk z s) : ∃ nx,
    execSieveDrop e s = .next nx ∧ Follows msk z nx := by
  unfold execSieveDrop; refine done_follows ?_
  repeat' first
    | with_reducible assumption | (intro _) | with_reducible apply State.svStep_follows (within hmsk (by decide))
    | simp only [LFollows.pair_iff] | with_reducible refine LFollows.of_eq ?_ (by with_reducible assumption) | split | dsimp only

theorem execSieveCopyhost_follows {msk : Nat} (hmsk : msk ||| 4938 = msk) {z s : State} (e : Nat) (h : Follows msk z s) : ∃ nx,
    execSieveCopyhost e s = .next nx ∧ Follows msk z nx := by
  unfold execSieveCopyhost; refine done_follows ?_
  repeat' first
    | with_reducible assumption | (intro _) | with_reducible apply State.svStep_follows (within hmsk (by decide))
    | with_reducible apply State.sieveOob_follows (within hmsk (by decide))
    | with_reducible apply State.copyLost_follows (within hmsk (by decide)) | simp only [LFollows.pair_iff]
    | with_reducible refine LFollows.of_eq ?_ (by with_reducible assumption) | with_reducible apply Follows.ite
    | with_reducible apply LFollows.ite | split | dsimp only

theorem execSieveStamp_follows {msk : Nat} (hmsk : msk ||| 4938 = msk) {z s : State} (e : Nat) (h : Follows msk z s) : ∃ nx,
    execSieveStamp e s = .next nx ∧ Follows msk z nx := by
  unfold execSieveStamp; refine done_follows ?_
  repeat' first
    | with_reducible assumption | (intro _) | with_reducible apply State.svStep_follows (within hmsk (by decide))
    | with_reducible apply State.sieveOob_follows (within hmsk (by decide)) | simp only [LFollows.pair_iff]
    | with_reducible refine LFollows.of_eq ?_ (by with_reducible assumption) | with_reducible apply Follows.ite
    | with_reducible apply LFollows.ite | split | dsimp only

theorem execSieveCount_follows {msk : Nat} (hmsk : msk ||| 4938 = msk) {z s : State} (e : Nat) (h : Follows msk z s) : ∃ nx,
    execSieveCount e s = .next nx ∧ Follows msk z nx := by
  unfold execSieveCount; refine done_follows ?_
  repeat' first
    | with_reducible assumption | (intro _) | with_reducible apply State.svStep_follows (within hmsk (by decide))
    | with_reducible apply State.sieveOob_follows (within hmsk (by decide)) | with_reducible apply State.inc_follows
    | simp only [LFollows.pair_iff] | with_reducible refine LFollows.of_eq ?_ (by with_reducible assumption)
    | with_reducible apply Follows.ite | with_reducible apply LFollows.ite | split | dsimp only

theorem execSieveAccept_follows {msk : Nat} (hmsk : msk ||| 4938 = msk) {z s : State} (e : Nat) (h : Follows msk z s) : ∃ nx,
    execSieveAccept e s = .next nx ∧ Follows msk z nx := by
  unfold execSieveAccept; refine done_follows ?_
  repeat' first
    | with_reducible assumption | (intro _) | with_reducible apply State.svStep_follows (within hmsk (by decide))
    | simp only [LFollows.pair_iff] | with_reducible refine LFollows.of_eq ?_ (by with_reducible assumption) | split | dsimp only

theorem State.imemNext_follows {msk : Nat} {z s : State} (h : Follows msk z s) : Follows msk z (State.imemNext s) := by
  unfold State.imemNext
  repeat' first
    | with_reducible assumption | (intro _) | with_reducible apply State.inc_follows | split | dsimp only

theorem execImemDataAccess_follows {msk : Nat} (hmsk : msk ||| 528411 = msk) {z s : State} (p : Sys2Proof.Path) (w : Option Nat) (h :
    Follows msk z s) : ∃ nx, execImemDataAccess p w s = .next nx ∧ Follows msk z nx := by
  unfold execImemDataAccess; refine done_follows ?_
  repeat' first
    | with_reducible assumption | (intro _) | with_reducible apply State.writeOwn_follows (within hmsk (by decide))
    | with_reducible apply State.imemNext_follows | with_reducible apply State.modFac_follows (within hmsk (by decide))
    | with_reducible apply State.readOwn_follows (within hmsk (by decide)) | with_reducible apply Follows.ite | split | dsimp only

theorem State.progCommit_follows {msk : Nat} (hmsk : msk ||| 2 = msk) {z s : State} (p : Sys2Proof.Path) (h : Follows msk z s) : Follows
    msk z (State.progCommit s p) := by
  unfold State.progCommit
  repeat' first
    | with_reducible assumption | (intro _) | with_reducible apply State.capture_follows (within hmsk (by decide))
    | with_reducible apply State.raise_follows (within hmsk (by decide)) | with_reducible apply State.mrExtend_follows
    | with_reducible apply State.wr_follows | with_reducible apply State.flag_follows | with_reducible apply Follows.ite | split
    | dsimp only

theorem cmdProgCommit_follows {msk : Nat} (hmsk : msk ||| 2 = msk) {z t : State} (p : Sys2Proof.Path) (h : Follows msk z t) : Follows
    msk z ((cmdProgCommit p).act t) := by
  unfold cmdProgCommit; dsimp only
  repeat' first
    | with_reducible assumption | (intro _) | with_reducible apply State.progCommit_follows (within hmsk (by decide)) | split | dsimp only

theorem execProgCommit_follows {msk : Nat} (hmsk : msk ||| 524315 = msk) {z s : State} (p : Sys2Proof.Path) (h : Follows msk z s) : ∃
    nx, execProgCommit p s = .next nx ∧ Follows msk z nx := by
  unfold execProgCommit; refine done_follows ?_
  repeat' first
    | with_reducible assumption | (intro _) | with_reducible apply State.runCmd_follows (within hmsk (by decide))
    | with_reducible apply cmdProgCommit_follows (within hmsk (by decide)) | split | dsimp only

theorem State.progOff_follows {msk : Nat} {z s : State} (n : Nat) (h : Follows msk z s) : Follows msk z (State.progOff s n) := by
  unfold State.progOff
  repeat' first
    | with_reducible assumption | (intro _) | with_reducible apply State.mrExtend_follows | with_reducible apply State.flag_follows
    | split | dsimp only

theorem State.progDisable_follows {msk : Nat} {z s : State} (p : Sys2Proof.Path) (h : Follows msk z s) : Follows msk z
    (State.progDisable s p) := by
  unfold State.progDisable
  repeat' first
    | with_reducible assumption | (intro _) | with_reducible apply State.progOff_follows | with_reducible apply State.wr_follows | split
    | dsimp only

theorem cmdProgDisable_follows {msk : Nat} {z t : State} (p : Sys2Proof.Path) (h : Follows msk z t) : Follows msk z ((cmdProgDisable
    p).act t) := by
  unfold cmdProgDisable; dsimp only
  repeat' first
    | with_reducible assumption | (intro _) | with_reducible apply State.progDisable_follows | split | dsimp only

theorem execProgDisable_follows {msk : Nat} (hmsk : msk ||| 524315 = msk) {z s : State} (p : Sys2Proof.Path) (h : Follows msk z s) : ∃
    nx, execProgDisable p s = .next nx ∧ Follows msk z nx := by
  unfold execProgDisable; refine done_follows ?_
  repeat' first
    | with_reducible assumption | (intro _) | with_reducible apply State.runCmd_follows (within hmsk (by decide))
    | with_reducible apply cmdProgDisable_follows | split | dsimp only

theorem State.progClr_follows {msk : Nat} {z s : State} (p : Sys2Proof.Path) (h : Follows msk z s) : Follows msk z (State.progClr s p)
    := by
  unfold State.progClr
  repeat' first
    | with_reducible assumption | (intro _) | with_reducible apply foldS_follows | with_reducible apply State.wr_follows | split
    | dsimp only

theorem cmdProgClrCnt_follows {msk : Nat} {z t : State} (p : Sys2Proof.Path) (h : Follows msk z t) : Follows msk z ((cmdProgClrCnt
    p).act t) := by
  unfold cmdProgClrCnt; dsimp only
  repeat' first
    | with_reducible assumption | (intro _) | with_reducible apply State.progClr_follows | split | dsimp only

theorem execProgClrCnt_follows {msk : Nat} (hmsk : msk ||| 524315 = msk) {z s : State} (p : Sys2Proof.Path) (h : Follows msk z s) : ∃
    nx, execProgClrCnt p s = .next nx ∧ Follows msk z nx := by
  unfold execProgClrCnt; refine done_follows ?_
  repeat' first
    | with_reducible assumption | (intro _) | with_reducible apply State.runCmd_follows (within hmsk (by decide))
    | with_reducible apply cmdProgClrCnt_follows | split | dsimp only

theorem State.tblLoad_follows {msk : Nat} {z s : State} (p : Sys2Proof.Path) (h : Follows msk z s) : Follows msk z (State.tblLoad s p)
    := by
  unfold State.tblLoad
  repeat' first
    | with_reducible assumption | (intro _) | with_reducible apply State.wr_follows | with_reducible apply State.flag_follows | split
    | dsimp only

theorem cmdTblLoad_follows {msk : Nat} {z t : State} (p : Sys2Proof.Path) (h : Follows msk z t) : Follows msk z ((cmdTblLoad p).act t)
    := by
  unfold cmdTblLoad; dsimp only
  repeat' first
    | with_reducible assumption | (intro _) | with_reducible apply State.tblLoad_follows | split | dsimp only

theorem execTblLoad_follows {msk : Nat} (hmsk : msk ||| 524315 = msk) {z s : State} (p : Sys2Proof.Path) (h : Follows msk z s) : ∃ nx,
    execTblLoad p s = .next nx ∧ Follows msk z nx := by
  unfold execTblLoad; refine done_follows ?_
  repeat' first
    | with_reducible assumption | (intro _) | with_reducible apply State.runCmd_follows (within hmsk (by decide))
    | with_reducible apply cmdTblLoad_follows | split | dsimp only

theorem State.tblCommit_follows {msk : Nat} (hmsk : msk ||| 4098 = msk) {z s : State} (p : Sys2Proof.Path) (h : Follows msk z s) :
    Follows msk z (State.tblCommit s p) := by
  unfold State.tblCommit
  repeat' first
    | with_reducible assumption | (intro _) | with_reducible apply State.capture_follows (within hmsk (by decide))
    | with_reducible apply State.raise_follows (within hmsk (by decide))
    | with_reducible apply State.modFac_follows (within hmsk (by decide)) | with_reducible apply State.wr_follows
    | with_reducible apply Follows.ite | split | dsimp only

theorem cmdTblCommit_follows {msk : Nat} (hmsk : msk ||| 4098 = msk) {z t : State} (p : Sys2Proof.Path) (h : Follows msk z t) : Follows
    msk z ((cmdTblCommit p).act t) := by
  unfold cmdTblCommit; dsimp only
  repeat' first
    | with_reducible assumption | (intro _) | with_reducible apply State.tblCommit_follows (within hmsk (by decide)) | split | dsimp only

theorem execTblCommit_follows {msk : Nat} (hmsk : msk ||| 528411 = msk) {z s : State} (p : Sys2Proof.Path) (h : Follows msk z s) : ∃ nx,
    execTblCommit p s = .next nx ∧ Follows msk z nx := by
  unfold execTblCommit; refine done_follows ?_
  repeat' first
    | with_reducible assumption | (intro _) | with_reducible apply State.runCmd_follows (within hmsk (by decide))
    | with_reducible apply cmdTblCommit_follows (within hmsk (by decide)) | split | dsimp only

theorem execStepsMaxRead_follows {msk : Nat} (hmsk : msk ||| 524315 = msk) {z s : State} (p : Sys2Proof.Path) (h : Follows msk z s) : ∃
    nx, execStepsMaxRead p s = .next nx ∧ Follows msk z nx := by
  unfold execStepsMaxRead; refine done_follows ?_
  repeat' first
    | with_reducible assumption | (intro _) | with_reducible apply State.readOwn_follows (within hmsk (by decide))
    | with_reducible apply State.wr_follows | split | dsimp only

end Sys2Proof.Machine
end

