-- ==== Sys2Proof/Laws/FolResetOps.lean ====
section
/-!
SUPPORT. `Follows` for the operations and meanings of `ResetOps.lean`.
-/

namespace Sys2Proof.Machine

open Host (Outcome)

set_option linter.unusedTactic false
set_option linter.unreachableTactic false
set_option linter.unusedSimpArgs false
set_option linter.unusedVariables false

theorem State.foutLow_follows {msk : Nat} (hmsk : msk ||| 32 = msk) {z s : State} (h : Follows msk z s) : Follows msk z (State.foutLow
    s) := by
  unfold State.foutLow
  repeat' first
    | with_reducible assumption | (intro _) | with_reducible apply State.modEvi_follows (within hmsk (by decide))
    | with_reducible apply foldS_follows | with_reducible apply State.emit_follows | split | dsimp only

theorem State.dropAccesses_follows {msk : Nat} {z s : State} (h : Follows msk z s) : Follows msk z (State.dropAccesses s) := by
  unfold State.dropAccesses
  repeat' first
    | with_reducible assumption | (intro _) | with_reducible apply foldS_follows | with_reducible apply State.emit_follows | split
    | dsimp only

/-- A reset of words keeps their canonical form. -/
theorem wordsWf_resetWords (keep : Nat → Nat) {m : Tbl Word} (h : wordsWf m = true) : wordsWf (resetWords keep m) = true := by
  rw [wordsWf_iff] at h ⊢
  constructor
  · refine (List.pairwise_filterMap).2 (h.1.imp ?_)
    intro a b hab x hx y hy
    dsimp only at hx hy
    split at hx
    · cases hx
    · split at hy
      · cases hy
      · cases hx; cases hy; exact hab
  · intro e he
    obtain ⟨a, -, ha⟩ := List.mem_filterMap.1 he
    dsimp only at ha
    split at ha
    · cases ha
    · next hne => cases ha; simpa using hne

theorem Follows.to_reset {msk c : Nat} (hmsk : msk ||| c = msk) {a s t : State} (h : Follows msk a s) (keep : Nat → Nat)
    (h1 : t.words = resetWords keep s.words) (h2 : t.pending = s.pending) (h3 : t.out = s.out) (h4 : t.fresh = s.fresh)
    (h5 : ∀ q : Part, c.testBit q.bit = false → q.same s t) : Follows msk a t :=
  ⟨h2.trans h.pending, by rw [h3]; exact h.out, by rw [h4]; exact h.fresh,
    fun w => by rw [h1]; exact wordsWf_resetWords keep (h.words w), fun q hq =>
    Part.same_trans (h.parts q hq) (h5 q (by
      have := congrArg (Nat.testBit · q.bit) hmsk
      simpa [hq] using this))⟩

theorem State.warmReset_follows {msk : Nat} (hmsk : msk ||| 983039 = msk) {z s : State} (h : Follows msk z s) :
    Follows msk z (State.warmReset s) := by
  have k : Follows msk z s.dropAccesses.foutLow := State.foutLow_follows (within hmsk (by decide)) (State.dropAccesses_follows h)
  unfold State.warmReset
  dsimp only
  with_reducible refine State.wr_follows (State.showEvi_follows ?_) _ _
  generalize s.dropAccesses.foutLow = u at k ⊢
  exact Follows.to_reset hmsk k warmKeep rfl rfl rfl rfl (fun q hq => by cases q <;> first | rfl | exact absurd hq (by decide))

theorem State.loseD0_follows {msk : Nat} (hmsk : msk ||| 983039 = msk) {z s : State} (vbat : Bool) (rtc : Option Nat)
    (h : Follows msk z s) : Follows msk z (State.loseD0 s vbat rtc) :=
  Follows.to_reset hmsk (State.foutLow_follows (within hmsk (by decide)) (State.dropAccesses_follows h)) (coldKeep vbat) rfl rfl rfl rfl
    (by intro q hq; cases q <;> first | rfl | exact absurd hq (by decide))

theorem State.coldStart_follows {msk : Nat} (hmsk : msk ||| 983039 = msk) {z s : State} (vbat : Bool) (rtc : Option Nat) (h : Follows
    msk z s) : Follows msk z (State.coldStart s vbat rtc) := by
  unfold State.coldStart
  repeat' first
    | with_reducible assumption | (intro _) | with_reducible apply State.loseD0_follows (within hmsk (by decide))
    | with_reducible apply State.modTime_follows (within hmsk (by decide)) | split | dsimp only

theorem State.ctxErase_follows {msk : Nat} (hmsk : msk ||| 458 = msk) {z s : State} (c : Nat) (h : Follows msk z s) : Follows msk z
    (State.ctxErase s c) := by
  unfold State.ctxErase
  repeat' first
    | with_reducible assumption | (intro _)
    | simp only [Follows.ctxs_iff (within hmsk (by decide)), Follows.quar_iff (within hmsk (by decide)), Follows.ctxs_quar_iff (within hmsk (by decide))]
    | with_reducible apply State.modCtx_follows (within hmsk (by decide))
    | with_reducible apply State.flushCtx_follows (within hmsk (by decide)) | split | dsimp only

theorem State.blockHidden_follows {msk : Nat} (hmsk : msk ||| 524287 = msk) {z s : State} (page : Nat) (h : Follows msk z s) : Follows
    msk z (State.blockHidden s page) := by
  unfold State.blockHidden
  repeat' first
    | with_reducible assumption | (intro _)
    | simp only [Follows.recd_iff (within hmsk (by decide)), Follows.ctxs_iff (within hmsk (by decide)), Follows.gird_iff (within hmsk (by decide)), Follows.sch_iff (within hmsk (by decide)), Follows.bzl_iff (within hmsk (by decide)), Follows.ctxs_gird_iff (within hmsk (by decide))]
    | with_reducible apply State.modPwr_follows (within hmsk (by decide))
    | with_reducible apply State.modSvc_follows (within hmsk (by decide))
    | with_reducible apply State.modTime_follows (within hmsk (by decide))
    | with_reducible apply State.modTm_follows (within hmsk (by decide))
    | with_reducible apply State.modEvi_follows (within hmsk (by decide))
    | with_reducible apply State.foutLow_follows (within hmsk (by decide))
    | with_reducible apply State.modSec_follows (within hmsk (by decide))
    | with_reducible apply State.modFac_follows (within hmsk (by decide)) | with_reducible apply State.showKept_follows
    | with_reducible apply State.ctxErase_follows (within hmsk (by decide))
    | with_reducible apply State.enterDetect_follows (within hmsk (by decide))
    | with_reducible apply State.dropLink_follows (within hmsk (by decide))
    | with_reducible apply State.leaveTree_follows (within hmsk (by decide))
    | with_reducible apply State.modTr_follows (within hmsk (by decide))
    | with_reducible apply State.modEp_follows (within hmsk (by decide))
    | with_reducible apply State.modBrg_follows (within hmsk (by decide))
    | with_reducible apply State.modDma_follows (within hmsk (by decide))
    | with_reducible apply State.modDp_follows (within hmsk (by decide))
    | with_reducible apply State.modUsb_follows (within hmsk (by decide))
    | with_reducible apply State.modStn_follows (within hmsk (by decide)) | with_reducible apply foldS_follows
    | with_reducible apply Follows.ite | split | dsimp only

theorem State.showBanks_follows {msk : Nat} (hmsk : msk ||| 258 = msk) {z s : State} (h : Follows msk z s) : Follows msk z
    (State.showBanks s) := by
  unfold State.showBanks
  repeat' first
    | with_reducible assumption | (intro _) | with_reducible apply State.showPool_follows (within hmsk (by decide))
    | with_reducible apply State.notePool_follows (within hmsk (by decide)) | with_reducible apply State.wr_follows
    | with_reducible apply Follows.ite | split | dsimp only

theorem State.blockReset_follows {msk : Nat} (hmsk : msk ||| 1048575 = msk) {z s : State} (page : Nat) (h : Follows msk z s) : Follows
    msk z (State.blockReset s page) := by
  unfold State.blockReset
  dsimp only
  have k : Follows msk z (s.when (page == 12) fun s =>
      foldS ((List.range 32).filter (fun n => s.on (SIEVE_PROG_ACT_EN n))) (fun s n => s.progOff n) s) :=
    State.when_follows h _ fun t ht => foldS_follows _ _ (fun u x hu => State.progOff_follows _ hu) ht
  generalize State.when _ _ _ = u at k ⊢
  have k2 := State.blockHidden_follows (within hmsk (by decide)) page k
  generalize u.blockHidden page = v at k2 ⊢
  have k3 : Follows msk z { v with words := resetWords (blockKeep page) v.words } :=
    Follows.to_reset (c := 0) (Nat.or_zero _) k2 (blockKeep page) rfl rfl rfl rfl (fun q _ => by cases q <;> rfl)
  generalize ({ v with words := resetWords (blockKeep page) v.words } : State) = x at k3 ⊢
  repeat' first
    | with_reducible assumption | (intro _) | with_reducible apply State.when_follows | with_reducible apply State.wr_follows
    | with_reducible apply State.orUpdate_follows (within hmsk (by decide)) | with_reducible apply State.svcUpdate_follows (within hmsk (by decide))
    | with_reducible apply State.showBanks_follows (within hmsk (by decide)) | with_reducible apply State.showEvi_follows
    | with_reducible apply State.ctxHooks_follows (within hmsk (by decide)) | with_reducible apply State.dpaltHpd_follows (within hmsk (by decide))

theorem State.softReset_follows {msk : Nat} (hmsk : msk ||| 1048575 = msk) {z s : State} (page : Nat) (h : Follows msk z s) : Follows
    msk z (State.softReset s page) := by
  unfold State.softReset
  repeat' first
    | with_reducible assumption | (intro _) | with_reducible apply State.blockReset_follows (within hmsk (by decide))
    | with_reducible apply State.setLife_follows (within hmsk (by decide)) | with_reducible apply State.intReport_follows
    | with_reducible apply State.flag_follows | with_reducible apply State.when_follows | with_reducible apply Follows.ite | split
    | dsimp only

theorem State.banksLost_follows {msk : Nat} (hmsk : msk ||| 328 = msk) {z s : State} (d : Nat) (h : Follows msk z s) : Follows msk z
    (State.banksLost s d) := by
  unfold State.banksLost
  repeat' first
    | with_reducible assumption | (intro _) | simp only [Follows.ctxs_iff (within hmsk (by decide))]
    | with_reducible apply State.unlinkFrame_follows (within hmsk (by decide))
    | with_reducible apply State.release_follows (within hmsk (by decide)) | with_reducible apply foldS_follows
    | with_reducible apply Follows.ite | split | dsimp only

theorem State.domLost_follows {msk : Nat} (hmsk : msk ||| 1048575 = msk) {z s : State} (d : Nat) (h : Follows msk z s) : Follows msk z
    (State.domLost s d) := by
  unfold State.domLost
  repeat' first
    | with_reducible assumption | (intro _) | with_reducible apply State.setDomainUp_follows
    | with_reducible apply State.setLife_follows (within hmsk (by decide))
    | with_reducible apply State.blockReset_follows (within hmsk (by decide))
    | with_reducible apply State.showBanks_follows (within hmsk (by decide))
    | with_reducible apply State.banksLost_follows (within hmsk (by decide)) | with_reducible apply State.setEng_follows
    | with_reducible apply State.clearMailbox_follows (within hmsk (by decide)) | with_reducible apply foldS_follows
    | with_reducible apply State.when_follows | with_reducible apply Follows.ite | split | dsimp only

theorem State.domReady_follows {msk : Nat} (hmsk : msk ||| 259 = msk) {z s : State} (d : Nat) (h : Follows msk z s) : Follows msk z
    (State.domReady s d) := by
  unfold State.domReady
  repeat' first
    | with_reducible assumption | (intro _) | with_reducible apply State.setDomainUp_follows
    | with_reducible apply State.setDom_follows (within hmsk (by decide))
    | with_reducible apply State.setLife_follows (within hmsk (by decide))
    | with_reducible apply State.showBanks_follows (within hmsk (by decide)) | with_reducible apply State.setEng_follows
    | with_reducible apply foldS_follows | with_reducible apply State.when_follows | with_reducible apply Follows.ite | split | dsimp only

theorem State.domReset_follows {msk : Nat} (hmsk : msk ||| 1048575 = msk) {z s : State} (d : Nat) (h : Follows msk z s) : Follows msk z
    (State.domReset s d) := by
  unfold State.domReset
  repeat' first
    | with_reducible assumption | (intro _) | with_reducible apply State.domLost_follows (within hmsk (by decide))
    | with_reducible apply State.softReset_follows (within hmsk (by decide)) | with_reducible apply foldS_follows | split | dsimp only

end Sys2Proof.Machine
end

