-- ==== Sys2Proof/Laws/FolBootOps.lean ====
section
/-!
SUPPORT. `Follows` for the operations and meanings of `BootOps.lean`.
-/

namespace Sys2Proof.Machine

open Host (Outcome)

set_option linter.unusedTactic false
set_option linter.unreachableTactic false
set_option linter.unusedSimpArgs false
set_option linter.unusedVariables false

theorem State.setCount_follows {msk : Nat} {z s : State} (n : Nat) (v : Nat) (h : Follows msk z s) : Follows msk z (State.setCount s n
    v) := by
  unfold State.setCount
  repeat' first
    | with_reducible assumption | (intro _) | with_reducible apply State.wr_follows | with_reducible apply Follows.ite | split
    | dsimp only

theorem State.clearCounts_follows {msk : Nat} {z s : State} (h : Follows msk z s) : Follows msk z (State.clearCounts s) := by
  unfold State.clearCounts
  repeat' first
    | with_reducible assumption | (intro _) | with_reducible apply State.setCount_follows | with_reducible apply State.wr_follows | split
    | dsimp only

theorem State.setRateSteps_follows {msk : Nat} {z s : State} (v : Nat) (h : Follows msk z s) : Follows msk z (State.setRateSteps s v) :=
    by
  unfold State.setRateSteps
  repeat' first
    | with_reducible assumption | (intro _) | with_reducible apply State.wr_follows | split | dsimp only

theorem State.clearAlt_follows {msk : Nat} {z s : State} (n : Nat) (h : Follows msk z s) : Follows msk z (State.clearAlt s n) := by
  unfold State.clearAlt
  repeat' first
    | with_reducible assumption | (intro _) | with_reducible apply State.setRateSteps_follows
    | with_reducible apply State.setFlagBit_follows | with_reducible apply State.when_follows | with_reducible apply State.setBit_follows
    | split | dsimp only

theorem State.altNext_follows {msk : Nat} (hmsk : msk ||| 2 = msk) {z s : State} (n : Nat) (h : Follows msk z s) : Follows msk z
    (State.altNext s n) := by
  unfold State.altNext
  repeat' first
    | with_reducible assumption | (intro _) | with_reducible apply State.setCount_follows | with_reducible apply State.setFlagBit_follows
    | with_reducible apply State.setRateSteps_follows | with_reducible apply State.raise_follows (within hmsk (by decide))
    | with_reducible apply State.setBit_follows | with_reducible apply State.when_follows | with_reducible apply Follows.ite | split
    | dsimp only

theorem State.tunnelsDown_follows {msk : Nat} (hmsk : msk ||| 21455 = msk) {z s : State} (h : Follows msk z s) : Follows msk z
    (State.tunnelsDown s) := by
  unfold State.tunnelsDown
  repeat' first
    | with_reducible assumption | (intro _) | with_reducible apply State.setLife_follows (within hmsk (by decide))
    | with_reducible apply State.enterDetect_follows (within hmsk (by decide))
    | with_reducible apply State.dropLink_follows (within hmsk (by decide))
    | with_reducible apply State.leaveTree_follows (within hmsk (by decide))
    | with_reducible apply State.pcieDetect_follows (within hmsk (by decide))
    | with_reducible apply State.ctxHooks_follows (within hmsk (by decide))
    | with_reducible apply State.ctxSetLife_follows (within hmsk (by decide))
    | with_reducible apply State.ctxErase_follows (within hmsk (by decide)) | with_reducible apply foldS_follows
    | with_reducible apply State.when_follows | split | dsimp only

theorem State.loaderEnter_follows {msk : Nat} (hmsk : msk ||| 545743 = msk) {z s : State} (fromRun : Bool) (h : Follows msk z s) :
    Follows msk z (State.loaderEnter s fromRun) := by
  unfold State.loaderEnter
  repeat' first
    | with_reducible assumption | (intro _) | with_reducible apply State.raise_follows (within hmsk (by decide))
    | with_reducible apply State.modBoot_follows (within hmsk (by decide))
    | with_reducible apply State.tunnelsDown_follows (within hmsk (by decide))
    | with_reducible apply State.domRequest_follows (within hmsk (by decide)) | with_reducible apply State.flag_follows
    | with_reducible apply State.wr_follows | with_reducible apply foldS_follows | split | dsimp only

theorem State.noteFail_follows {msk : Nat} (hmsk : msk ||| 524288 = msk) {z s : State} (n : Nat) (code : Nat) (h : Follows msk z s) :
    Follows msk z (State.noteFail s n code) := by
  unfold State.noteFail
  repeat' first
    | with_reducible assumption | (intro _) | with_reducible apply State.modBoot_follows (within hmsk (by decide))
    | with_reducible apply State.setFlagBit_follows | with_reducible apply State.wr_follows | with_reducible apply Follows.ite | split
    | dsimp only

theorem State.countFail_follows {msk : Nat} (hmsk : msk ||| 2 = msk) {z s : State} (n : Nat) (h : Follows msk z s) : Follows msk z
    (State.countFail s n) := by
  unfold State.countFail
  repeat' first
    | with_reducible assumption | (intro _) | with_reducible apply State.altNext_follows (within hmsk (by decide))
    | with_reducible apply State.setCount_follows | with_reducible apply Follows.ite | split | dsimp only

theorem State.bootFail_follows {msk : Nat} (hmsk : msk ||| 983039 = msk) {z s : State} (n : Nat) (code : Nat) (h : Follows msk z s) :
    Follows msk z (State.bootFail s n code) := by
  unfold State.bootFail
  repeat' first
    | with_reducible assumption | (intro _) | with_reducible apply State.raise_follows (within hmsk (by decide))
    | with_reducible apply State.warmReset_follows (within hmsk (by decide))
    | with_reducible apply State.sysRecord_follows (within hmsk (by decide))
    | with_reducible apply State.noteFail_follows (within hmsk (by decide))
    | with_reducible apply State.loaderEnter_follows (within hmsk (by decide))
    | with_reducible apply State.ledgerUpdate_follows (within hmsk (by decide))
    | with_reducible apply State.countFail_follows (within hmsk (by decide)) | with_reducible apply Follows.ite | split | dsimp only

theorem State.watchdogReset_follows {msk : Nat} (hmsk : msk ||| 983039 = msk) {z s : State} (h : Follows msk z s) : Follows msk z
    (State.watchdogReset s) := by
  unfold State.watchdogReset
  repeat' first
    | with_reducible assumption | (intro _) | with_reducible apply State.bootFail_follows (within hmsk (by decide))
    | with_reducible apply State.incSat_follows | split | dsimp only

theorem State.ledgerLoad_follows {msk : Nat} (hmsk : msk ||| 524288 = msk) {z s : State} (h : Follows msk z s) : Follows msk z
    (State.ledgerLoad s) := by
  unfold State.ledgerLoad
  repeat' first
    | with_reducible assumption | (intro _) | with_reducible apply State.modBoot_follows (within hmsk (by decide))
    | with_reducible apply State.setFlags_follows | with_reducible apply State.wr_follows | split | dsimp only

theorem State.recorderStart_follows {msk : Nat} (hmsk : msk ||| 2 = msk) {z s : State} (h : Follows msk z s) : Follows msk z
    (State.recorderStart s) := by
  unfold State.recorderStart
  repeat' first
    | with_reducible assumption | (intro _) | simp only [Follows.recd_iff (within hmsk (by decide))]
    | with_reducible apply State.putRecord_follows (within hmsk (by decide)) | with_reducible apply State.wr_follows
    | with_reducible apply foldS_follows | simp only [LFollows.pair_iff]
    | with_reducible refine LFollows.of_eq ?_ (by with_reducible assumption) | simp only [RFollows.pair_iff]
    | with_reducible refine RFollows.of_eq ?_ (by with_reducible assumption) | with_reducible apply foldl_fst_follows
    | with_reducible apply foldl_snd_follows | with_reducible apply foldl_follows
    | with_reducible refine LFollows.fst (foldl_fst_follows _ _ ?_ ?_) | with_reducible refine RFollows.snd (foldl_snd_follows _ _ ?_ ?_)
    | with_reducible exact LFollows.fst (by with_reducible assumption) | with_reducible exact RFollows.snd (by with_reducible assumption)
    | with_reducible apply Follows.ite | with_reducible apply LFollows.ite | split | dsimp only

end Sys2Proof.Machine
end

