-- ==== Sys2Proof/Laws/FolRails.lean ====
section
/-!
SUPPORT. `Follows` for the operations and meanings of `Rails.lean`.
-/

namespace Sys2Proof.Machine

open Host (Outcome)

set_option linter.unusedTactic false
set_option linter.unreachableTactic false
set_option linter.unusedSimpArgs false
set_option linter.unusedVariables false

theorem State.rsCommit_follows {msk : Nat} (hmsk : msk ||| 18 = msk) {z s : State} (p : Sys2Proof.Path) (h : Follows msk z s) : Follows
    msk z (State.rsCommit s p) := by
  unfold State.rsCommit
  repeat' first
    | with_reducible assumption | (intro _) | with_reducible apply State.raise_follows (within hmsk (by decide))
    | with_reducible apply State.capture_follows (within hmsk (by decide))
    | with_reducible apply State.modPwr_follows (within hmsk (by decide)) | with_reducible apply State.clearAlt_follows
    | with_reducible apply State.wr_follows | simp only [LFollows.pair_iff]
    | with_reducible refine LFollows.of_eq ?_ (by with_reducible assumption) | simp only [RFollows.pair_iff]
    | with_reducible refine RFollows.of_eq ?_ (by with_reducible assumption) | with_reducible apply foldl_fst_follows
    | with_reducible apply foldl_snd_follows | with_reducible apply foldl_follows
    | with_reducible refine LFollows.fst (foldl_fst_follows _ _ ?_ ?_) | with_reducible refine RFollows.snd (foldl_snd_follows _ _ ?_ ?_)
    | with_reducible exact LFollows.fst (by with_reducible assumption) | with_reducible exact RFollows.snd (by with_reducible assumption)
    | split | dsimp only

theorem cmdRsCommit_follows {msk : Nat} (hmsk : msk ||| 18 = msk) {z t : State} (p : Sys2Proof.Path) (h : Follows msk z t) : Follows msk
    z ((cmdRsCommit p).act t) := by
  unfold cmdRsCommit; dsimp only
  repeat' first
    | with_reducible assumption | (intro _) | with_reducible apply State.rsCommit_follows (within hmsk (by decide)) | split | dsimp only

theorem execRsCommit_follows {msk : Nat} (hmsk : msk ||| 524315 = msk) {z s : State} (p : Sys2Proof.Path) (h : Follows msk z s) : ∃ nx,
    execRsCommit p s = .next nx ∧ Follows msk z nx := by
  unfold execRsCommit; refine done_follows ?_
  repeat' first
    | with_reducible assumption | (intro _) | with_reducible apply State.runCmd_follows (within hmsk (by decide))
    | with_reducible apply cmdRsCommit_follows (within hmsk (by decide)) | split | dsimp only

theorem State.rsLoad_follows {msk : Nat} (hmsk : msk ||| 16 = msk) {z s : State} (h : Follows msk z s) : Follows msk z (State.rsLoad s)
    := by
  unfold State.rsLoad
  repeat' first
    | with_reducible assumption | (intro _) | with_reducible apply State.modPwr_follows (within hmsk (by decide))
    | with_reducible apply State.wr_follows | split | dsimp only

theorem cmdRsLoad_follows {msk : Nat} (hmsk : msk ||| 16 = msk) {z t : State} (h : Follows msk z t) : Follows msk z ((cmdRsLoad).act t)
    := by
  unfold cmdRsLoad; dsimp only
  repeat' first
    | with_reducible assumption | (intro _) | with_reducible apply State.rsLoad_follows (within hmsk (by decide)) | split | dsimp only

theorem execRsLoad_follows {msk : Nat} (hmsk : msk ||| 524315 = msk) {z s : State} (p : Sys2Proof.Path) (h : Follows msk z s) : ∃ nx,
    execRsLoad p s = .next nx ∧ Follows msk z nx := by
  unfold execRsLoad; refine done_follows ?_
  repeat' first
    | with_reducible assumption | (intro _) | with_reducible apply State.runCmd_follows (within hmsk (by decide))
    | with_reducible apply cmdRsLoad_follows (within hmsk (by decide)) | split | dsimp only

theorem State.rsNext_follows {msk : Nat} {z s : State} (h : Follows msk z s) : Follows msk z (State.rsNext s) := by
  unfold State.rsNext
  repeat' first
    | with_reducible assumption | (intro _) | with_reducible apply State.inc_follows | with_reducible apply State.wr_follows | split
    | dsimp only

theorem execRsDataAccess_follows {msk : Nat} (hmsk : msk ||| 524315 = msk) {z s : State} (p : Sys2Proof.Path) (w : Option Nat) (h :
    Follows msk z s) : ∃ nx, execRsDataAccess p w s = .next nx ∧ Follows msk z nx := by
  unfold execRsDataAccess; refine done_follows ?_
  repeat' first
    | with_reducible assumption | (intro _) | with_reducible apply State.writeOwn_follows (within hmsk (by decide))
    | with_reducible apply State.rsNext_follows | with_reducible apply State.modPwr_follows (within hmsk (by decide))
    | with_reducible apply State.readOwn_follows (within hmsk (by decide)) | split | dsimp only

theorem State.modScript_follows {msk : Nat} (hmsk : msk ||| 16 = msk) {z s : State} (f : Script → Script) (h : Follows msk z s) :
    Follows msk z (State.modScript s f) := by
  unfold State.modScript
  repeat' first
    | with_reducible assumption | (intro _) | with_reducible apply State.modPwr_follows (within hmsk (by decide)) | split | dsimp only

theorem State.scriptStart_follows {msk : Nat} (hmsk : msk ||| 16 = msk) {z s : State} (copy : Nat) (h : Follows msk z s) : Follows msk z
    (State.scriptStart s copy) := by
  unfold State.scriptStart
  repeat' first
    | with_reducible assumption | (intro _) | with_reducible apply State.mrExtend_follows
    | with_reducible apply State.modPwr_follows (within hmsk (by decide)) | with_reducible apply State.wr_follows
    | with_reducible apply State.flag_follows | split | dsimp only

theorem State.scriptEnd_follows {msk : Nat} (hmsk : msk ||| 983039 = msk) {z s : State} (failed : Bool) (h : Follows msk z s) : Follows
    msk z (State.scriptEnd s failed) := by
  unfold State.scriptEnd
  repeat' first
    | with_reducible assumption | (intro _) | with_reducible apply State.modPwr_follows (within hmsk (by decide))
    | with_reducible apply State.bootFail_follows (within hmsk (by decide))
    | with_reducible apply State.raise_follows (within hmsk (by decide))
    | with_reducible apply State.domRequest_follows (within hmsk (by decide))
    | with_reducible apply State.enterStep_follows (within hmsk (by decide)) | with_reducible apply State.flag_follows
    | with_reducible apply foldS_follows | with_reducible apply Follows.ite | split | dsimp only

theorem State.scriptGo_follows {msk : Nat} (hmsk : msk ||| 983039 = msk) {z s : State} (pc : Nat) (h : Follows msk z s) : Follows msk z
    (State.scriptGo s pc) := by
  unfold State.scriptGo
  repeat' first
    | with_reducible assumption | (intro _) | with_reducible apply State.modScript_follows (within hmsk (by decide))
    | with_reducible apply State.scriptEnd_follows (within hmsk (by decide)) | with_reducible apply Follows.ite | split | dsimp only

theorem State.scriptFail_follows {msk : Nat} (hmsk : msk ||| 983039 = msk) {z s : State} (c : Script) (h : Follows msk z s) : Follows
    msk z (State.scriptFail s c) := by
  unfold State.scriptFail
  repeat' first
    | with_reducible assumption | (intro _) | with_reducible apply State.scriptGo_follows (within hmsk (by decide))
    | with_reducible apply State.modScript_follows (within hmsk (by decide))
    | with_reducible apply State.scriptEnd_follows (within hmsk (by decide)) | split | dsimp only

theorem State.scriptRun_follows {msk : Nat} {z s : State} (op : Nat) (f : State → Script → Nat → State) (h : Follows msk z s) (hf : ∀ t
    x y, Follows msk z t → Follows msk z (f t x y)) : Follows msk z (State.scriptRun s op f) := by
  unfold State.scriptRun
  repeat' first
    | with_reducible assumption | (intro _) | with_reducible apply hf | with_reducible apply State.wr_follows
    | simp only [LFollows.pair_iff] | with_reducible refine LFollows.of_eq ?_ (by with_reducible assumption)
    | with_reducible apply Follows.ite | with_reducible apply LFollows.ite | split | dsimp only

theorem State.scriptNext_follows {msk : Nat} (hmsk : msk ||| 983039 = msk) {z s : State} (c : Script) (ok : Bool) (h : Follows msk z s)
    : Follows msk z (State.scriptNext s c ok) := by
  unfold State.scriptNext
  repeat' first
    | with_reducible assumption | (intro _) | with_reducible apply State.scriptGo_follows (within hmsk (by decide))
    | with_reducible apply State.scriptFail_follows (within hmsk (by decide)) | with_reducible apply Follows.ite | split | dsimp only

theorem execRailEnd_follows {msk : Nat} (hmsk : msk ||| 983039 = msk) {z s : State} (h : Follows msk z s) : ∃ nx, execRailEnd s = .next
    nx ∧ Follows msk z nx := by
  unfold execRailEnd; refine done_follows ?_
  repeat' first
    | with_reducible assumption | (intro _) | with_reducible apply State.scriptRun_follows
    | with_reducible apply State.scriptEnd_follows (within hmsk (by decide)) | split | dsimp only

theorem execWaitUs_follows {msk : Nat} (hmsk : msk ||| 16 = msk) {z s : State} (h : Follows msk z s) : ∃ nx, execWaitUs s = .next nx ∧
    Follows msk z nx := by
  unfold execWaitUs; refine done_follows ?_
  repeat' first
    | with_reducible assumption | (intro _) | with_reducible apply State.scriptRun_follows
    | with_reducible apply State.modScript_follows (within hmsk (by decide)) | split | dsimp only

theorem execWaitUsDone_follows {msk : Nat} (hmsk : msk ||| 983039 = msk) {z s : State} (h : Follows msk z s) : ∃ nx, execWaitUsDone s =
    .next nx ∧ Follows msk z nx := by
  unfold execWaitUsDone; refine done_follows ?_
  repeat' first
    | with_reducible assumption | (intro _) | with_reducible apply State.scriptGo_follows (within hmsk (by decide))
    | with_reducible apply Follows.ite | split | dsimp only

theorem execPmbWrite_follows {msk : Nat} (hmsk : msk ||| 983039 = msk) {z s : State} (ok : Bool) (h : Follows msk z s) : ∃ nx,
    execPmbWrite ok s = .next nx ∧ Follows msk z nx := by
  unfold execPmbWrite; refine done_follows ?_
  repeat' first
    | with_reducible assumption | (intro _) | with_reducible apply State.scriptRun_follows
    | with_reducible apply State.scriptNext_follows (within hmsk (by decide)) | with_reducible apply State.emit_follows
    | with_reducible apply Follows.ite | split | dsimp only

theorem execPmbExpect_follows {msk : Nat} (hmsk : msk ||| 983039 = msk) {z s : State} (ok : Bool) (h : Follows msk z s) : ∃ nx,
    execPmbExpect ok s = .next nx ∧ Follows msk z nx := by
  unfold execPmbExpect; refine done_follows ?_
  repeat' first
    | with_reducible assumption | (intro _) | with_reducible apply State.scriptRun_follows
    | with_reducible apply State.scriptNext_follows (within hmsk (by decide)) | split | dsimp only

theorem execPinSet_follows {msk : Nat} (hmsk : msk ||| 983039 = msk) {z s : State} (h : Follows msk z s) : ∃ nx, execPinSet s = .next nx
    ∧ Follows msk z nx := by
  unfold execPinSet; refine done_follows ?_
  repeat' first
    | with_reducible assumption | (intro _) | with_reducible apply State.scriptRun_follows
    | with_reducible apply State.scriptGo_follows (within hmsk (by decide))
    | with_reducible apply State.modPwr_follows (within hmsk (by decide)) | with_reducible apply State.emit_follows
    | with_reducible apply Follows.ite | split | dsimp only

theorem execPinWait_follows {msk : Nat} (hmsk : msk ||| 983039 = msk) {z s : State} (ok : Bool) (h : Follows msk z s) : ∃ nx,
    execPinWait ok s = .next nx ∧ Follows msk z nx := by
  unfold execPinWait; refine done_follows ?_
  repeat' first
    | with_reducible assumption | (intro _) | with_reducible apply State.scriptRun_follows
    | with_reducible apply State.scriptNext_follows (within hmsk (by decide)) | split | dsimp only

theorem execAdcCheck_follows {msk : Nat} (hmsk : msk ||| 983039 = msk) {z s : State} (reading : Nat) (h : Follows msk z s) : ∃ nx,
    execAdcCheck reading s = .next nx ∧ Follows msk z nx := by
  unfold execAdcCheck; refine done_follows ?_
  repeat' first
    | with_reducible assumption | (intro _) | with_reducible apply State.scriptRun_follows
    | with_reducible apply State.scriptNext_follows (within hmsk (by decide)) | split | dsimp only

theorem execBranchFail_follows {msk : Nat} (hmsk : msk ||| 983039 = msk) {z s : State} (h : Follows msk z s) : ∃ nx, execBranchFail s =
    .next nx ∧ Follows msk z nx := by
  unfold execBranchFail; refine done_follows ?_
  repeat' first
    | with_reducible assumption | (intro _) | with_reducible apply State.scriptRun_follows
    | with_reducible apply State.scriptGo_follows (within hmsk (by decide))
    | with_reducible apply State.modScript_follows (within hmsk (by decide)) | with_reducible apply Follows.ite | split | dsimp only

theorem execRailScriptTimeout_follows {msk : Nat} (hmsk : msk ||| 983039 = msk) {z s : State} (h : Follows msk z s) : ∃ nx,
    execRailScriptTimeout s = .next nx ∧ Follows msk z nx := by
  unfold execRailScriptTimeout; refine done_follows ?_
  repeat' first
    | with_reducible assumption | (intro _) | with_reducible apply State.scriptEnd_follows (within hmsk (by decide))
    | with_reducible apply State.when_follows | split | dsimp only

end Sys2Proof.Machine
end

