-- ==== Sys2Proof/Laws/FolBoot.lean ====
section
/-!
SUPPORT. `Follows` for the operations and meanings of `Boot.lean`.
-/

namespace Sys2Proof.Machine

open Host (Outcome)

set_option linter.unusedTactic false
set_option linter.unreachableTactic false
set_option linter.unusedSimpArgs false
set_option linter.unusedVariables false

theorem State.railsOff_follows {msk : Nat} (hmsk : msk ||| 16 = msk) {z s : State} (h : Follows msk z s) : Follows msk z (State.railsOff
    s) := by
  unfold State.railsOff
  repeat' first
    | with_reducible assumption | (intro _) | with_reducible apply State.modPwr_follows (within hmsk (by decide))
    | with_reducible apply foldS_follows | with_reducible apply State.emit_follows | split | dsimp only

theorem State.otpFields_follows {msk : Nat} (hmsk : msk ||| 32768 = msk) {z s : State} (h : Follows msk z s) : Follows msk z
    (State.otpFields s) := by
  unfold State.otpFields
  repeat' first
    | with_reducible assumption | (intro _) | with_reducible apply State.modStn_follows (within hmsk (by decide))
    | with_reducible apply State.wr_follows | split | dsimp only

theorem State.straps_follows {msk : Nat} (hmsk : msk ||| 3 = msk) {z s : State} (role : Nat) (sel : Nat) (h : Follows msk z s) : Follows
    msk z (State.straps s role sel) := by
  unfold State.straps
  repeat' first
    | with_reducible assumption | (intro _) | simp only [Follows.chip_iff (within hmsk (by decide))]
    | with_reducible apply State.becomeCrown_follows (within hmsk (by decide))
    | with_reducible apply State.sysRecord_follows (within hmsk (by decide)) | with_reducible apply State.when_follows
    | with_reducible apply State.wr_follows | with_reducible apply Follows.ite | split | dsimp only

theorem execBootB1AonUp_follows {msk : Nat} (hmsk : msk ||| 819219 = msk) {z s : State} (x : Nat × Nat) (y : Nat × Nat) (z' : Nat × Nat)
    (h : Follows msk z s) : ∃ nx, execBootB1AonUp x y z' s = .next nx ∧ Follows msk z nx := by
  unfold execBootB1AonUp; refine done_follows ?_
  repeat' first
    | with_reducible assumption | (intro _) | with_reducible apply State.enterStep_follows (within hmsk (by decide))
    | with_reducible apply State.ledgerLoad_follows (within hmsk (by decide))
    | with_reducible apply State.modBoot_follows (within hmsk (by decide))
    | with_reducible apply State.recorderStart_follows (within hmsk (by decide))
    | with_reducible apply State.tamperRecord_follows (within hmsk (by decide))
    | with_reducible apply State.modSec_follows (within hmsk (by decide))
    | with_reducible apply State.straps_follows (within hmsk (by decide))
    | with_reducible apply State.otpFields_follows (within hmsk (by decide))
    | with_reducible apply State.railsOff_follows (within hmsk (by decide))
    | with_reducible apply State.ledgerUpdate_follows (within hmsk (by decide)) | with_reducible apply State.when_follows
    | with_reducible apply State.flag_follows | with_reducible apply State.inc_follows | with_reducible apply Follows.ite | split
    | dsimp only

theorem execBootB2Rails_follows {msk : Nat} (hmsk : msk ||| 983039 = msk) {z s : State} (mode : Nat) (h : Follows msk z s) : ∃ nx,
    execBootB2Rails mode s = .next nx ∧ Follows msk z nx := by
  unfold execBootB2Rails; refine done_follows ?_
  repeat' first
    | with_reducible assumption | (intro _) | with_reducible apply State.enterStep_follows (within hmsk (by decide))
    | with_reducible apply State.scriptStart_follows (within hmsk (by decide))
    | with_reducible apply State.scriptEnd_follows (within hmsk (by decide)) | with_reducible apply State.when_follows
    | with_reducible apply State.wr_follows | split | dsimp only

theorem execBootB3Keys_follows {msk : Nat} (hmsk : msk ||| 983039 = msk) {z s : State} (ok : Bool) (h : Follows msk z s) : ∃ nx,
    execBootB3Keys ok s = .next nx ∧ Follows msk z nx := by
  unfold execBootB3Keys; refine done_follows ?_
  repeat' first
    | with_reducible assumption | (intro _) | with_reducible apply State.bootFail_follows (within hmsk (by decide))
    | with_reducible apply State.modSec_follows (within hmsk (by decide))
    | with_reducible apply State.loaderEnter_follows (within hmsk (by decide))
    | with_reducible apply State.enterStep_follows (within hmsk (by decide)) | with_reducible apply State.when_follows
    | with_reducible apply State.flag_follows | with_reducible apply Follows.ite | split | dsimp only

theorem execBootB4Image_follows {msk : Nat} (hmsk : msk ||| 983039 = msk) {z s : State} (h : Follows msk z s) : ∃ nx, execBootB4Image s
    = .next nx ∧ Follows msk z nx := by
  unfold execBootB4Image; refine done_follows ?_
  repeat' first
    | with_reducible assumption | (intro _) | with_reducible apply State.loaderEnter_follows (within hmsk (by decide))
    | with_reducible apply State.bootFail_follows (within hmsk (by decide))
    | with_reducible apply State.modFac_follows (within hmsk (by decide)) | with_reducible apply State.mrExtend_follows
    | with_reducible apply State.enterStep_follows (within hmsk (by decide)) | with_reducible apply State.when_follows
    | with_reducible apply State.wr_follows | with_reducible apply Follows.ite | split | dsimp only

theorem execBootB5Engines_follows {msk : Nat} (hmsk : msk ||| 983039 = msk) {z s : State} (bad : List Nat) (h : Follows msk z s) : ∃ nx,
    execBootB5Engines bad s = .next nx ∧ Follows msk z nx := by
  unfold execBootB5Engines; refine done_follows ?_
  repeat' first
    | with_reducible assumption | (intro _) | with_reducible apply State.bootFail_follows (within hmsk (by decide))
    | with_reducible apply State.engStart_follows | with_reducible apply State.ledgerUpdate_follows (within hmsk (by decide))
    | with_reducible apply State.enterStep_follows (within hmsk (by decide)) | with_reducible apply State.when_follows
    | with_reducible apply foldS_follows | with_reducible apply Follows.ite | split | dsimp only

theorem execEngineLoadDone_follows {msk : Nat} (hmsk : msk ||| 2 = msk) {z s : State} (e : Nat) (ok : Bool) (h : Follows msk z s) : ∃
    nx, execEngineLoadDone e ok s = .next nx ∧ Follows msk z nx := by
  unfold execEngineLoadDone; refine done_follows ?_
  repeat' first
    | with_reducible assumption | (intro _) | with_reducible apply State.engStart_follows
    | with_reducible apply State.engHalt_follows (within hmsk (by decide)) | with_reducible apply State.when_follows
    | with_reducible apply Follows.ite | split | dsimp only

theorem execBootB7Links_follows {msk : Nat} (hmsk : msk ||| 524288 = msk) {z s : State} (quiet : List Nat) (h : Follows msk z s) : ∃ nx,
    execBootB7Links quiet s = .next nx ∧ Follows msk z nx := by
  unfold execBootB7Links; refine done_follows ?_
  repeat' first
    | with_reducible assumption | (intro _) | with_reducible apply State.modBoot_follows (within hmsk (by decide))
    | with_reducible apply State.when_follows | split | dsimp only

theorem execBootB8Running_follows {msk : Nat} (hmsk : msk ||| 524288 = msk) {z s : State} (h : Follows msk z s) : ∃ nx,
    execBootB8Running s = .next nx ∧ Follows msk z nx := by
  unfold execBootB8Running; refine done_follows ?_
  repeat' first
    | with_reducible assumption | (intro _) | with_reducible apply State.enterStep_follows (within hmsk (by decide))
    | with_reducible apply State.clearCounts_follows | with_reducible apply State.when_follows | split | dsimp only

theorem execBootStepTimeout_follows {msk : Nat} (hmsk : msk ||| 983039 = msk) {z s : State} (h : Follows msk z s) : ∃ nx,
    execBootStepTimeout s = .next nx ∧ Follows msk z nx := by
  unfold execBootStepTimeout; refine done_follows ?_
  repeat' first
    | with_reducible assumption | (intro _) | with_reducible apply State.bootFail_follows (within hmsk (by decide))
    | with_reducible apply State.when_follows | with_reducible apply Follows.ite | split | dsimp only

theorem execOpSecondsTick_follows {msk : Nat} {z s : State} (h : Follows msk z s) : ∃ nx, execOpSecondsTick s = .next nx ∧ Follows msk z
    nx := by
  unfold execOpSecondsTick; refine done_follows ?_
  repeat' first
    | with_reducible assumption | (intro _) | with_reducible apply State.when_follows | with_reducible apply State.inc_follows | split
    | dsimp only

theorem cmdClrCnt_follows {msk : Nat} {z t : State} (h : Follows msk z t) : Follows msk z ((cmdClrCnt).act t) := by
  unfold cmdClrCnt; dsimp only
  repeat' first
    | with_reducible assumption | (intro _) | with_reducible apply State.clearCounts_follows | split | dsimp only

theorem execClrCnt_follows {msk : Nat} (hmsk : msk ||| 524315 = msk) {z s : State} (p : Sys2Proof.Path) (h : Follows msk z s) : ∃ nx,
    execClrCnt p s = .next nx ∧ Follows msk z nx := by
  unfold execClrCnt; refine done_follows ?_
  repeat' first
    | with_reducible assumption | (intro _) | with_reducible apply State.runCmd_follows (within hmsk (by decide))
    | with_reducible apply cmdClrCnt_follows | split | dsimp only

theorem State.resetAlt_follows {msk : Nat} {z s : State} (mask : Nat) (h : Follows msk z s) : Follows msk z (State.resetAlt s mask) := by
  unfold State.resetAlt
  repeat' first
    | with_reducible assumption | (intro _) | with_reducible apply State.clearAlt_follows | with_reducible apply foldS_follows | split
    | dsimp only

theorem execResetAlt_follows {msk : Nat} (hmsk : msk ||| 524315 = msk) {z s : State} (p : Sys2Proof.Path) (mask : Nat) (h : Follows msk
    z s) : ∃ nx, execResetAlt p mask s = .next nx ∧ Follows msk z nx := by
  unfold execResetAlt; refine done_follows ?_
  repeat' first
    | with_reducible assumption | (intro _) | with_reducible apply State.writeOwn_follows (within hmsk (by decide))
    | with_reducible apply State.resetAlt_follows | split | dsimp only

theorem cmdRbAdvance_follows {msk : Nat} (hmsk : msk ||| 262144 = msk) {z t : State} (h : Follows msk z t) : Follows msk z
    ((cmdRbAdvance).act t) := by
  unfold cmdRbAdvance; dsimp only
  repeat' first
    | with_reducible assumption | (intro _) | with_reducible apply State.modSec_follows (within hmsk (by decide))
    | with_reducible apply State.wr_follows | with_reducible apply Follows.ite | split | dsimp only

theorem execRbAdvance_follows {msk : Nat} (hmsk : msk ||| 786459 = msk) {z s : State} (p : Sys2Proof.Path) (h : Follows msk z s) : ∃ nx,
    execRbAdvance p s = .next nx ∧ Follows msk z nx := by
  unfold execRbAdvance; refine done_follows ?_
  repeat' first
    | with_reducible assumption | (intro _) | with_reducible apply State.runCmd_follows (within hmsk (by decide))
    | with_reducible apply cmdRbAdvance_follows (within hmsk (by decide)) | split | dsimp only

theorem State.cfgProgram_follows {msk : Nat} (hmsk : msk ||| 524288 = msk) {z s : State} (v : Nat) (h : Follows msk z s) : Follows msk z
    (State.cfgProgram s v) := by
  unfold State.cfgProgram
  repeat' first
    | with_reducible assumption | (intro _) | with_reducible apply State.modBoot_follows (within hmsk (by decide))
    | with_reducible apply State.when_follows | with_reducible apply State.inc_follows | split | dsimp only

theorem execCfgDataWrite_follows {msk : Nat} (hmsk : msk ||| 524315 = msk) {z s : State} (p : Sys2Proof.Path) (v : Nat) (h : Follows msk
    z s) : ∃ nx, execCfgDataWrite p v s = .next nx ∧ Follows msk z nx := by
  unfold execCfgDataWrite; refine done_follows ?_
  repeat' first
    | with_reducible assumption | (intro _) | with_reducible apply State.writeOwn_follows (within hmsk (by decide))
    | with_reducible apply State.cfgProgram_follows (within hmsk (by decide)) | split | dsimp only

theorem cmdCfgCommit_follows {msk : Nat} {z t : State} (h : Follows msk z t) : Follows msk z ((cmdCfgCommit).act t) := by
  unfold cmdCfgCommit; dsimp only
  repeat' first
    | with_reducible assumption | (intro _) | with_reducible apply State.clearAlt_follows | with_reducible apply State.wr_follows
    | with_reducible apply Follows.ite | split | dsimp only

theorem execCfgCommit_follows {msk : Nat} (hmsk : msk ||| 524315 = msk) {z s : State} (p : Sys2Proof.Path) (h : Follows msk z s) : ∃ nx,
    execCfgCommit p s = .next nx ∧ Follows msk z nx := by
  unfold execCfgCommit; refine done_follows ?_
  repeat' first
    | with_reducible assumption | (intro _) | with_reducible apply State.runCmd_follows (within hmsk (by decide))
    | with_reducible apply cmdCfgCommit_follows | split | dsimp only

theorem cmdCfgErase_follows {msk : Nat} (hmsk : msk ||| 524288 = msk) {z t : State} (h : Follows msk z t) : Follows msk z
    ((cmdCfgErase).act t) := by
  unfold cmdCfgErase; dsimp only
  repeat' first
    | with_reducible assumption | (intro _) | with_reducible apply State.modBoot_follows (within hmsk (by decide)) | split | dsimp only

theorem execCfgErase_follows {msk : Nat} (hmsk : msk ||| 524315 = msk) {z s : State} (p : Sys2Proof.Path) (h : Follows msk z s) : ∃ nx,
    execCfgErase p s = .next nx ∧ Follows msk z nx := by
  unfold execCfgErase; refine done_follows ?_
  repeat' first
    | with_reducible assumption | (intro _) | with_reducible apply State.runCmd_follows (within hmsk (by decide))
    | with_reducible apply cmdCfgErase_follows (within hmsk (by decide)) | split | dsimp only

theorem State.updStart_follows {msk : Nat} (hmsk : msk ||| 524288 = msk) {z s : State} (h : Follows msk z s) : Follows msk z
    (State.updStart s) := by
  unfold State.updStart
  repeat' first
    | with_reducible assumption | (intro _) | with_reducible apply State.modBoot_follows (within hmsk (by decide))
    | with_reducible apply State.wr_follows | split | dsimp only

theorem State.updFail_follows {msk : Nat} (hmsk : msk ||| 524290 = msk) {z s : State} (reason : Nat) (h : Follows msk z s) : Follows msk
    z (State.updFail s reason) := by
  unfold State.updFail
  repeat' first
    | with_reducible assumption | (intro _) | with_reducible apply State.modBoot_follows (within hmsk (by decide))
    | with_reducible apply State.raise_follows (within hmsk (by decide)) | with_reducible apply State.wr_follows | split | dsimp only

theorem State.updStage_follows {msk : Nat} (hmsk : msk ||| 524288 = msk) {z s : State} (d : List Sys2Proof.Byte) (h : Follows msk z s) :
    LFollows msk z (State.updStage s d) := by
  unfold State.updStage
  repeat' first
    | with_reducible assumption | (intro _) | with_reducible apply State.modBoot_follows (within hmsk (by decide))
    | with_reducible apply State.wr_follows | simp only [LFollows.pair_iff]
    | with_reducible refine LFollows.of_eq ?_ (by with_reducible assumption) | with_reducible apply Follows.ite
    | with_reducible apply LFollows.ite | split | dsimp only

theorem State.updWrite_follows {msk : Nat} (hmsk : msk ||| 524288 = msk) {z s : State} (h : Follows msk z s) : Follows msk z
    (State.updWrite s) := by
  unfold State.updWrite
  repeat' first
    | with_reducible assumption | (intro _) | with_reducible apply State.ledgerUpdate_follows (within hmsk (by decide))
    | with_reducible apply State.setFlagBit_follows | with_reducible apply State.modBoot_follows (within hmsk (by decide))
    | with_reducible apply State.wr_follows | split | dsimp only

theorem State.dfuSet_follows {msk : Nat} (hmsk : msk ||| 524288 = msk) {z s : State} (st : Nat) (status : Nat) (h : Follows msk z s) :
    Follows msk z (State.dfuSet s st status) := by
  unfold State.dfuSet
  repeat' first
    | with_reducible assumption | (intro _) | with_reducible apply State.modBoot_follows (within hmsk (by decide))
    | with_reducible apply State.emit_follows | split | dsimp only

theorem execImageWriteDone_follows {msk : Nat} (hmsk : msk ||| 983039 = msk) {z s : State} (ok : Bool) (erase : Bool) (h : Follows msk z
    s) : ∃ nx, execImageWriteDone ok erase s = .next nx ∧ Follows msk z nx := by
  unfold execImageWriteDone; refine done_follows ?_
  repeat' first
    | with_reducible assumption | (intro _) | with_reducible apply State.modBoot_follows (within hmsk (by decide))
    | with_reducible apply State.setCount_follows | with_reducible apply State.clearAlt_follows
    | with_reducible apply State.setFlagBit_follows | with_reducible apply State.ledgerUpdate_follows (within hmsk (by decide))
    | with_reducible apply State.raise_follows (within hmsk (by decide))
    | with_reducible apply State.warmReset_follows (within hmsk (by decide))
    | with_reducible apply State.dfuSet_follows (within hmsk (by decide))
    | with_reducible apply State.updFail_follows (within hmsk (by decide))
    | with_reducible apply State.levelFall_follows (within hmsk (by decide)) | with_reducible apply State.when_follows
    | with_reducible apply State.wr_follows | with_reducible apply Follows.ite | split | dsimp only

theorem execDfuDetach_follows {msk : Nat} (hmsk : msk ||| 545743 = msk) {z s : State} (h : Follows msk z s) : ∃ nx, execDfuDetach s =
    .next nx ∧ Follows msk z nx := by
  unfold execDfuDetach; refine done_follows ?_
  repeat' first
    | with_reducible assumption | (intro _) | with_reducible apply State.usbStall_follows
    | with_reducible apply State.loaderEnter_follows (within hmsk (by decide))
    | with_reducible apply State.modUsb_follows (within hmsk (by decide)) | with_reducible apply State.when_follows
    | with_reducible apply State.emit_follows | with_reducible apply Follows.ite | split | dsimp only

theorem State.dfuBlock_follows {msk : Nat} (hmsk : msk ||| 524290 = msk) {z s : State} (block : Nat) (d : List Sys2Proof.Byte) (h :
    Follows msk z s) : Follows msk z (State.dfuBlock s block d) := by
  unfold State.dfuBlock
  repeat' first
    | with_reducible assumption | (intro _) | with_reducible apply State.modBoot_follows (within hmsk (by decide))
    | with_reducible apply State.updStart_follows (within hmsk (by decide))
    | with_reducible apply State.dfuSet_follows (within hmsk (by decide))
    | with_reducible apply State.updFail_follows (within hmsk (by decide))
    | with_reducible apply State.updStage_follows (within hmsk (by decide)) | with_reducible apply State.when_follows
    | simp only [LFollows.pair_iff] | with_reducible refine LFollows.of_eq ?_ (by with_reducible assumption)
    | with_reducible refine LFollows.fst (State.updStage_follows (within hmsk (by decide)) _ ?_) | with_reducible apply Follows.ite
    | with_reducible apply LFollows.ite | split | dsimp only

theorem execDfuDnload_follows {msk : Nat} (hmsk : msk ||| 524290 = msk) {z s : State} (block : Nat) (d : List Sys2Proof.Byte) (h :
    Follows msk z s) : ∃ nx, execDfuDnload block d s = .next nx ∧ Follows msk z nx := by
  unfold execDfuDnload; refine done_follows ?_
  repeat' first
    | with_reducible assumption | (intro _) | with_reducible apply State.dfuSet_follows (within hmsk (by decide))
    | with_reducible apply State.updWrite_follows (within hmsk (by decide))
    | with_reducible apply State.updFail_follows (within hmsk (by decide))
    | with_reducible apply State.dfuBlock_follows (within hmsk (by decide)) | with_reducible apply State.when_follows
    | with_reducible apply State.inc_follows | with_reducible apply Follows.ite | split | dsimp only

theorem execDfuClrstatus_follows {msk : Nat} (hmsk : msk ||| 524288 = msk) {z s : State} (h : Follows msk z s) : ∃ nx, execDfuClrstatus
    s = .next nx ∧ Follows msk z nx := by
  unfold execDfuClrstatus; refine done_follows ?_
  repeat' first
    | with_reducible assumption | (intro _) | with_reducible apply State.modBoot_follows (within hmsk (by decide))
    | with_reducible apply State.dfuSet_follows (within hmsk (by decide)) | with_reducible apply State.when_follows
    | with_reducible apply State.wr_follows | split | dsimp only

theorem cmdLoaderEnter_follows {msk : Nat} (hmsk : msk ||| 545743 = msk) {z t : State} (h : Follows msk z t) : Follows msk z
    ((cmdLoaderEnter).act t) := by
  unfold cmdLoaderEnter; dsimp only
  repeat' first
    | with_reducible assumption | (intro _) | with_reducible apply State.loaderEnter_follows (within hmsk (by decide))
    | with_reducible apply State.when_follows | split | dsimp only

theorem execLoaderEnter_follows {msk : Nat} (hmsk : msk ||| 545759 = msk) {z s : State} (p : Sys2Proof.Path) (h : Follows msk z s) : ∃
    nx, execLoaderEnter p s = .next nx ∧ Follows msk z nx := by
  unfold execLoaderEnter; refine done_follows ?_
  repeat' first
    | with_reducible assumption | (intro _) | with_reducible apply State.runCmd_follows (within hmsk (by decide))
    | with_reducible apply cmdLoaderEnter_follows (within hmsk (by decide)) | split | dsimp only

theorem execLoaderIdleTimeout_follows {msk : Nat} (hmsk : msk ||| 983039 = msk) {z s : State} (h : Follows msk z s) : ∃ nx,
    execLoaderIdleTimeout s = .next nx ∧ Follows msk z nx := by
  unfold execLoaderIdleTimeout; refine done_follows ?_
  repeat' first
    | with_reducible assumption | (intro _) | with_reducible apply State.warmReset_follows (within hmsk (by decide))
    | with_reducible apply State.when_follows | split | dsimp only

theorem State.uartFrame_follows {msk : Nat} (hmsk : msk ||| 524288 = msk) {z s : State} (typ : Nat) (seq : Nat) (act : State → State ×
    List Sys2Proof.Byte) (h : Follows msk z s) (hact : ∀ t, Follows msk z t → LFollows msk z (act t)) : Follows msk z (State.uartFrame s
    typ seq act) := by
  unfold State.uartFrame
  repeat' first
    | with_reducible assumption | (intro _) | with_reducible refine LFollows.fst (hact _ ?_) | with_reducible apply hact
    | with_reducible apply State.modBoot_follows (within hmsk (by decide)) | with_reducible apply State.when_follows
    | with_reducible apply State.emit_follows | simp only [LFollows.pair_iff]
    | with_reducible refine LFollows.of_eq ?_ (by with_reducible assumption) | split | dsimp only

theorem execSvcUartGapTimeout_follows {msk : Nat} {z s : State} (h : Follows msk z s) : ∃ nx, execSvcUartGapTimeout s = .next nx ∧
    Follows msk z nx := by
  unfold execSvcUartGapTimeout; refine done_follows ?_
  repeat' first
    | with_reducible assumption | (intro _) | split | dsimp only

theorem execConsole_follows {msk : Nat} (hmsk : msk ||| 524288 = msk) {z s : State} (seq : Nat) (text : List Sys2Proof.Byte) (h :
    Follows msk z s) : ∃ nx, execConsole seq text s = .next nx ∧ Follows msk z nx := by
  unfold execConsole; refine done_follows ?_
  repeat' first
    | with_reducible assumption | (intro _) | with_reducible apply State.uartFrame_follows (within hmsk (by decide))
    | with_reducible apply State.emit_follows | simp only [LFollows.pair_iff]
    | with_reducible refine LFollows.of_eq ?_ (by with_reducible assumption) | split | dsimp only

theorem execUpdStart_follows {msk : Nat} (hmsk : msk ||| 545743 = msk) {z s : State} (seq : Nat) (len : Nat) (h : Follows msk z s) : ∃
    nx, execUpdStart seq len s = .next nx ∧ Follows msk z nx := by
  unfold execUpdStart; refine done_follows ?_
  repeat' first
    | with_reducible assumption | (intro _) | with_reducible apply State.uartFrame_follows (within hmsk (by decide))
    | with_reducible apply State.loaderEnter_follows (within hmsk (by decide))
    | with_reducible apply State.modBoot_follows (within hmsk (by decide))
    | with_reducible apply State.updStart_follows (within hmsk (by decide)) | with_reducible apply State.when_follows
    | simp only [LFollows.pair_iff] | with_reducible refine LFollows.of_eq ?_ (by with_reducible assumption)
    | with_reducible apply Follows.ite | with_reducible apply LFollows.ite | split | dsimp only

theorem execUpdData_follows {msk : Nat} (hmsk : msk ||| 524290 = msk) {z s : State} (seq : Nat) (off : Nat) (d : List Sys2Proof.Byte) (h
    : Follows msk z s) : ∃ nx, execUpdData seq off d s = .next nx ∧ Follows msk z nx := by
  unfold execUpdData; refine done_follows ?_
  repeat' first
    | with_reducible assumption | (intro _) | with_reducible apply State.uartFrame_follows (within hmsk (by decide))
    | with_reducible apply State.updStage_follows (within hmsk (by decide))
    | with_reducible apply State.updFail_follows (within hmsk (by decide)) | simp only [LFollows.pair_iff]
    | with_reducible refine LFollows.of_eq ?_ (by with_reducible assumption)
    | with_reducible refine LFollows.fst (State.updStage_follows (within hmsk (by decide)) _ ?_) | with_reducible apply Follows.ite
    | with_reducible apply LFollows.ite | split | dsimp only

theorem execUpdEnd_follows {msk : Nat} (hmsk : msk ||| 524290 = msk) {z s : State} (seq : Nat) (h : Follows msk z s) : ∃ nx, execUpdEnd
    seq s = .next nx ∧ Follows msk z nx := by
  unfold execUpdEnd; refine done_follows ?_
  repeat' first
    | with_reducible assumption | (intro _) | with_reducible apply State.uartFrame_follows (within hmsk (by decide))
    | with_reducible apply State.updWrite_follows (within hmsk (by decide))
    | with_reducible apply State.updFail_follows (within hmsk (by decide)) | simp only [LFollows.pair_iff]
    | with_reducible refine LFollows.of_eq ?_ (by with_reducible assumption) | with_reducible apply Follows.ite
    | with_reducible apply LFollows.ite | split | dsimp only

theorem execUpdStatus_follows {msk : Nat} (hmsk : msk ||| 524288 = msk) {z s : State} (seq : Nat) (h : Follows msk z s) : ∃ nx,
    execUpdStatus seq s = .next nx ∧ Follows msk z nx := by
  unfold execUpdStatus; refine done_follows ?_
  repeat' first
    | with_reducible assumption | (intro _) | with_reducible apply State.uartFrame_follows (within hmsk (by decide))
    | simp only [LFollows.pair_iff] | with_reducible refine LFollows.of_eq ?_ (by with_reducible assumption) | split | dsimp only

theorem execEnterLoader_follows {msk : Nat} (hmsk : msk ||| 545743 = msk) {z s : State} (seq : Nat) (h : Follows msk z s) : ∃ nx,
    execEnterLoader seq s = .next nx ∧ Follows msk z nx := by
  unfold execEnterLoader; refine done_follows ?_
  repeat' first
    | with_reducible assumption | (intro _) | with_reducible apply State.uartFrame_follows (within hmsk (by decide))
    | with_reducible apply State.loaderEnter_follows (within hmsk (by decide)) | with_reducible apply State.when_follows
    | simp only [LFollows.pair_iff] | with_reducible refine LFollows.of_eq ?_ (by with_reducible assumption) | split | dsimp only

end Sys2Proof.Machine
end

