-- ==== Sys2Proof/Laws/FolRecorder.lean ====
section
/-!
SUPPORT. `Follows` for the operations and meanings of `Recorder.lean`.
-/

namespace Sys2Proof.Machine

open Host (Outcome)

set_option linter.unusedTactic false
set_option linter.unreachableTactic false
set_option linter.unusedSimpArgs false
set_option linter.unusedVariables false

theorem State.modRec_follows {msk : Nat} (hmsk : msk ||| 2 = msk) {z s : State} (f : Recorder → Recorder) (h : Follows msk z s) :
    Follows msk z (State.modRec s f) := by
  unfold State.modRec
  repeat' first
    | with_reducible assumption | (intro _) | simp only [Follows.recd_iff (within hmsk (by decide))] | split | dsimp only

theorem State.startTrig_follows {msk : Nat} (hmsk : msk ||| 2 = msk) {z s : State} (h : Follows msk z s) : Follows msk z
    (State.startTrig s) := by
  unfold State.startTrig
  repeat' first
    | with_reducible assumption | (intro _) | with_reducible apply State.modRec_follows (within hmsk (by decide))
    | with_reducible apply State.when_follows | split | dsimp only

theorem State.fireSlot_follows {msk : Nat} (hmsk : msk ||| 2 = msk) {z s : State} (t : Trig) (h : Follows msk z s) : Follows msk z
    (State.fireSlot s t) := by
  unfold State.fireSlot
  repeat' first
    | with_reducible assumption | (intro _) | with_reducible apply State.modRec_follows (within hmsk (by decide))
    | with_reducible apply State.raise_follows (within hmsk (by decide))
    | with_reducible apply State.startTrig_follows (within hmsk (by decide)) | with_reducible apply State.inc_follows
    | with_reducible apply State.when_follows | with_reducible apply Follows.ite | split | dsimp only

theorem execTriggerFire_follows {msk : Nat} (hmsk : msk ||| 2 = msk) {z s : State} (h : Follows msk z s) : ∃ nx, execTriggerFire s =
    .next nx ∧ Follows msk z nx := by
  unfold execTriggerFire; refine done_follows ?_
  repeat' first
    | with_reducible assumption | (intro _) | with_reducible apply State.fireSlot_follows (within hmsk (by decide))
    | with_reducible apply State.modRec_follows (within hmsk (by decide)) | split | dsimp only

theorem cmdRecFire_follows {msk : Nat} (hmsk : msk ||| 2 = msk) {z t : State} (slot : Nat) (h : Follows msk z t) : Follows msk z
    ((cmdRecFire slot).act t) := by
  unfold cmdRecFire; dsimp only
  repeat' first
    | with_reducible assumption | (intro _) | with_reducible apply State.fireSlot_follows (within hmsk (by decide))
    | with_reducible apply State.when_follows | with_reducible apply State.freshVal_follows | simp only [RFollows.pair_iff]
    | with_reducible refine RFollows.of_eq ?_ (by with_reducible assumption)
    | with_reducible refine RFollows.snd (State.freshVal_follows ?_) | split | dsimp only

theorem execRecFire_follows {msk : Nat} (hmsk : msk ||| 524315 = msk) {z s : State} (p : Sys2Proof.Path) (slot : Nat) (h : Follows msk z
    s) : ∃ nx, execRecFire p slot s = .next nx ∧ Follows msk z nx := by
  unfold execRecFire; refine done_follows ?_
  repeat' first
    | with_reducible assumption | (intro _) | with_reducible apply State.runCmd_follows (within hmsk (by decide))
    | with_reducible apply cmdRecFire_follows (within hmsk (by decide)) | with_reducible apply State.when_follows | split | dsimp only

theorem execTriggerHoldoffEnd_follows {msk : Nat} (hmsk : msk ||| 2 = msk) {z s : State} (t : Nat) (h : Follows msk z s) : ∃ nx,
    execTriggerHoldoffEnd t s = .next nx ∧ Follows msk z nx := by
  unfold execTriggerHoldoffEnd; refine done_follows ?_
  repeat' first
    | with_reducible assumption | (intro _) | with_reducible apply State.modRec_follows (within hmsk (by decide)) | split | dsimp only

theorem execSnapshotReadTimeout_follows {msk : Nat} (hmsk : msk ||| 2 = msk) {z s : State} (e : Nat) (h : Follows msk z s) : ∃ nx,
    execSnapshotReadTimeout e s = .next nx ∧ Follows msk z nx := by
  unfold execSnapshotReadTimeout; refine done_follows ?_
  repeat' first
    | with_reducible assumption | (intro _) | with_reducible apply State.modRec_follows (within hmsk (by decide))
    | with_reducible apply Follows.ite | split | dsimp only

theorem State.runEnd_follows {msk : Nat} (hmsk : msk ||| 2 = msk) {z s : State} (h : Follows msk z s) : Follows msk z (State.runEnd s)
    := by
  unfold State.runEnd
  repeat' first
    | with_reducible assumption | (intro _) | with_reducible apply State.modRec_follows (within hmsk (by decide))
    | with_reducible apply State.startTrig_follows (within hmsk (by decide))
    | with_reducible apply State.enterRing_follows (within hmsk (by decide)) | with_reducible apply foldS_follows | split | dsimp only

theorem State.recordWritten_follows {msk : Nat} (hmsk : msk ||| 2 = msk) {z s : State} (h : Follows msk z s) : Follows msk z
    (State.recordWritten s) := by
  unfold State.recordWritten
  repeat' first
    | with_reducible assumption | (intro _) | with_reducible apply State.enterRing_follows (within hmsk (by decide))
    | with_reducible apply State.modRec_follows (within hmsk (by decide))
    | with_reducible apply State.runEnd_follows (within hmsk (by decide)) | with_reducible apply Follows.ite | split | dsimp only

theorem State.chainGo_follows {msk : Nat} (hmsk : msk ||| 2 = msk) {z s : State} (h : Follows msk z s) : Follows msk z (State.chainGo s)
    := by
  unfold State.chainGo
  repeat' first
    | with_reducible assumption | (intro _) | with_reducible apply State.modRec_follows (within hmsk (by decide)) | split | dsimp only

theorem execRecordWritten_follows {msk : Nat} (hmsk : msk ||| 2 = msk) {z s : State} (h : Follows msk z s) : ∃ nx, execRecordWritten s =
    .next nx ∧ Follows msk z nx := by
  unfold execRecordWritten; refine done_follows ?_
  repeat' first
    | with_reducible assumption | (intro _) | with_reducible apply State.recordWritten_follows (within hmsk (by decide)) | split
    | dsimp only

theorem execChainContinuation_follows {msk : Nat} (hmsk : msk ||| 2 = msk) {z s : State} (h : Follows msk z s) : ∃ nx,
    execChainContinuation s = .next nx ∧ Follows msk z nx := by
  unfold execChainContinuation; refine done_follows ?_
  repeat' first
    | with_reducible assumption | (intro _) | with_reducible apply State.chainGo_follows (within hmsk (by decide)) | split | dsimp only

theorem State.flushReq_follows {msk : Nat} (hmsk : msk ||| 2 = msk) {z s : State} (h : Follows msk z s) : Follows msk z (State.flushReq
    s) := by
  unfold State.flushReq
  repeat' first
    | with_reducible assumption | (intro _) | with_reducible apply State.modRec_follows (within hmsk (by decide))
    | with_reducible apply State.when_follows | split | dsimp only

theorem execFlushTimer_follows {msk : Nat} (hmsk : msk ||| 2 = msk) {z s : State} (h : Follows msk z s) : ∃ nx, execFlushTimer s = .next
    nx ∧ Follows msk z nx := by
  unfold execFlushTimer; refine done_follows ?_
  repeat' first
    | with_reducible assumption | (intro _) | with_reducible apply State.flushReq_follows (within hmsk (by decide))
    | with_reducible apply State.when_follows | split | dsimp only

theorem cmdRecFlush_follows {msk : Nat} (hmsk : msk ||| 2 = msk) {z t : State} (h : Follows msk z t) : Follows msk z ((cmdRecFlush).act
    t) := by
  unfold cmdRecFlush; dsimp only
  repeat' first
    | with_reducible assumption | (intro _) | with_reducible apply State.flushReq_follows (within hmsk (by decide)) | split | dsimp only

theorem execRecFlush_follows {msk : Nat} (hmsk : msk ||| 524315 = msk) {z s : State} (p : Sys2Proof.Path) (h : Follows msk z s) : ∃ nx,
    execRecFlush p s = .next nx ∧ Follows msk z nx := by
  unfold execRecFlush; refine done_follows ?_
  repeat' first
    | with_reducible assumption | (intro _) | with_reducible apply State.runCmd_follows (within hmsk (by decide))
    | with_reducible apply cmdRecFlush_follows (within hmsk (by decide)) | split | dsimp only

theorem execFlushRecordDone_follows {msk : Nat} (hmsk : msk ||| 32770 = msk) {z s : State} (fails : Nat) (h : Follows msk z s) : ∃ nx,
    execFlushRecordDone fails s = .next nx ∧ Follows msk z nx := by
  unfold execFlushRecordDone; refine done_follows ?_
  repeat' first
    | with_reducible assumption | (intro _) | with_reducible apply State.modRec_follows (within hmsk (by decide))
    | with_reducible apply State.raise_follows (within hmsk (by decide))
    | with_reducible apply State.stageEntry_follows (within hmsk (by decide)) | with_reducible apply State.when_follows
    | with_reducible apply State.inc_follows | with_reducible apply State.wr_follows | with_reducible apply Follows.ite | split
    | dsimp only

theorem State.finishRuns_follows {msk : Nat} (hmsk : msk ||| 2 = msk) {z s : State} (h : Follows msk z s) : Follows msk z
    (State.finishRuns s) := by
  unfold State.finishRuns
  repeat' first
    | with_reducible assumption | (intro _) | with_reducible apply State.recordWritten_follows (within hmsk (by decide))
    | with_reducible apply State.chainGo_follows (within hmsk (by decide)) | with_reducible apply foldS_follows | split | dsimp only

theorem State.recClear_follows {msk : Nat} (hmsk : msk ||| 262146 = msk) {z s : State} (a : Auth) (h : Follows msk z s) : Follows msk z
    (State.recClear s a) := by
  unfold State.recClear
  repeat' first
    | with_reducible assumption | (intro _) | with_reducible apply State.finishRuns_follows (within hmsk (by decide))
    | with_reducible apply State.modRec_follows (within hmsk (by decide))
    | with_reducible apply State.enterRing_follows (within hmsk (by decide))
    | with_reducible apply State.startTrig_follows (within hmsk (by decide))
    | with_reducible apply State.raise_follows (within hmsk (by decide))
    | with_reducible apply State.authEnd_follows (within hmsk (by decide)) | with_reducible apply State.wr_follows
    | simp only [LFollows.pair_iff] | with_reducible refine LFollows.of_eq ?_ (by with_reducible assumption)
    | simp only [RFollows.pair_iff] | with_reducible refine RFollows.of_eq ?_ (by with_reducible assumption)
    | with_reducible apply foldl_fst_follows | with_reducible apply foldl_snd_follows | with_reducible apply foldl_follows
    | with_reducible refine LFollows.fst (foldl_fst_follows _ _ ?_ ?_) | with_reducible refine RFollows.snd (foldl_snd_follows _ _ ?_ ?_)
    | with_reducible exact LFollows.fst (by with_reducible assumption) | with_reducible exact RFollows.snd (by with_reducible assumption)
    | split | dsimp only

theorem cmdRecClear_follows {msk : Nat} (hmsk : msk ||| 262146 = msk) {z t : State} (h : Follows msk z t) : Follows msk z
    ((cmdRecClear).act t) := by
  unfold cmdRecClear; dsimp only
  repeat' first
    | with_reducible assumption | (intro _) | with_reducible apply State.recClear_follows (within hmsk (by decide))
    | with_reducible apply Follows.ite | split | dsimp only

theorem execRecClear_follows {msk : Nat} (hmsk : msk ||| 786459 = msk) {z s : State} (p : Sys2Proof.Path) (h : Follows msk z s) : ∃ nx,
    execRecClear p s = .next nx ∧ Follows msk z nx := by
  unfold execRecClear; refine done_follows ?_
  repeat' first
    | with_reducible assumption | (intro _) | with_reducible apply State.runCmd_follows (within hmsk (by decide))
    | with_reducible apply cmdRecClear_follows (within hmsk (by decide)) | split | dsimp only

theorem execClearEraseDone_follows {msk : Nat} (hmsk : msk ||| 2 = msk) {z s : State} (h : Follows msk z s) : ∃ nx, execClearEraseDone s
    = .next nx ∧ Follows msk z nx := by
  unfold execClearEraseDone; refine done_follows ?_
  repeat' first
    | with_reducible assumption | (intro _) | with_reducible apply State.flushReq_follows (within hmsk (by decide))
    | with_reducible apply State.modRec_follows (within hmsk (by decide)) | with_reducible apply State.when_follows
    | with_reducible apply State.wr_follows | split | dsimp only

end Sys2Proof.Machine
end

