-- ==== Sys2Proof/Laws/FolProng.lean ====
section
/-!
SUPPORT. `Follows` for the operations and meanings of `Prong.lean`.
-/

namespace Sys2Proof.Machine

open Host (Outcome)

set_option linter.unusedTactic false
set_option linter.unreachableTactic false
set_option linter.unusedSimpArgs false
set_option linter.unusedVariables false

theorem State.pageStart_follows {msk : Nat} (hmsk : msk ||| 3 = msk) {z s : State} (p : Nat) (h : Follows msk z s) : Follows msk z
    (State.pageStart s p) := by
  unfold State.pageStart
  repeat' first
    | with_reducible assumption | (intro _) | with_reducible apply State.domRequest_follows (within hmsk (by decide))
    | with_reducible apply State.setLife_follows (within hmsk (by decide)) | with_reducible apply foldS_follows | split | dsimp only

theorem State.functionEnded_follows {msk : Nat} (hmsk : msk ||| 64367 = msk) {z s : State} (p : Nat) (h : Follows msk z s) : Follows msk
    z (State.functionEnded s p) := by
  unfold State.functionEnded
  repeat' first
    | with_reducible assumption | (intro _) | with_reducible apply State.srcState_follows (within hmsk (by decide))
    | with_reducible apply State.foutLow_follows (within hmsk (by decide))
    | with_reducible apply State.linkDown_follows (within hmsk (by decide))
    | with_reducible apply State.enterDetect_follows (within hmsk (by decide))
    | with_reducible apply State.dropLink_follows (within hmsk (by decide))
    | with_reducible apply State.leaveTree_follows (within hmsk (by decide))
    | with_reducible apply State.pcieDetect_follows (within hmsk (by decide))
    | with_reducible apply State.chQuit_follows (within hmsk (by decide))
    | with_reducible apply State.ctxHooks_follows (within hmsk (by decide)) | with_reducible apply State.dpiDown_follows
    | with_reducible apply State.hubOff_follows (within hmsk (by decide))
    | with_reducible apply State.dpoOff_follows (within hmsk (by decide))
    | with_reducible apply State.usbdUpdate_follows (within hmsk (by decide))
    | with_reducible apply State.ethOff_follows (within hmsk (by decide))
    | with_reducible apply State.modStn_follows (within hmsk (by decide))
    | with_reducible apply State.setScribe_follows (within hmsk (by decide)) | with_reducible apply foldS_follows
    | with_reducible apply Follows.ite | split | dsimp only

theorem State.foutWritten_follows {msk : Nat} (hmsk : msk ||| 32 = msk) {z s : State} (k : Nat) (h : Follows msk z s) : Follows msk z
    (State.foutWritten s k) := by
  unfold State.foutWritten
  repeat' first
    | with_reducible assumption | (intro _) | with_reducible apply State.drive_follows (within hmsk (by decide))
    | with_reducible apply State.when_follows | split | dsimp only

theorem State.functionBegins_follows {msk : Nat} (hmsk : msk ||| 21355 = msk) {z s : State} (p : Nat) (h : Follows msk z s) : Follows
    msk z (State.functionBegins s p) := by
  unfold State.functionBegins
  repeat' first
    | with_reducible assumption | (intro _) | with_reducible apply State.enterDetect_follows (within hmsk (by decide))
    | with_reducible apply State.eviHold_follows (within hmsk (by decide))
    | with_reducible apply State.foutPassed_follows (within hmsk (by decide))
    | with_reducible apply State.foutWritten_follows (within hmsk (by decide)) | with_reducible apply State.gpioOut_follows
    | with_reducible apply State.ctxHooks_follows (within hmsk (by decide))
    | with_reducible apply State.dpaltHpd_follows (within hmsk (by decide))
    | with_reducible apply State.usbdUpdate_follows (within hmsk (by decide)) | with_reducible apply State.ethBegin_follows
    | with_reducible apply State.setScribe_follows (within hmsk (by decide)) | with_reducible apply State.wr_follows
    | with_reducible apply foldS_follows | with_reducible apply State.emit_follows | with_reducible apply Follows.ite | split | dsimp only

theorem State.functionStops_follows {msk : Nat} (hmsk : msk ||| 334 = msk) {z s : State} (p : Nat) (h : Follows msk z s) : Follows msk z
    (State.functionStops s p) := by
  unfold State.functionStops
  repeat' first
    | with_reducible assumption | (intro _) | with_reducible apply State.modEp_follows (within hmsk (by decide))
    | with_reducible apply State.enterDetect_follows (within hmsk (by decide))
    | with_reducible apply State.dropLink_follows (within hmsk (by decide))
    | with_reducible apply State.srcState_follows (within hmsk (by decide)) | with_reducible apply Follows.ite | split | dsimp only

theorem State.enable_follows {msk : Nat} (hmsk : msk ||| 3 = msk) {z s : State} (p : Nat) (h : Follows msk z s) : Follows msk z
    (State.enable s p) := by
  unfold State.enable
  repeat' first
    | with_reducible assumption | (intro _) | with_reducible apply State.pageStart_follows (within hmsk (by decide))
    | with_reducible apply State.flag_follows | with_reducible apply Follows.ite | split | dsimp only

theorem State.disable_follows {msk : Nat} (hmsk : msk ||| 334 = msk) {z s : State} (p : Nat) (h : Follows msk z s) : Follows msk z
    (State.disable s p) := by
  unfold State.disable
  repeat' first
    | with_reducible assumption | (intro _) | with_reducible apply State.functionStops_follows (within hmsk (by decide))
    | with_reducible apply State.setLife_follows (within hmsk (by decide)) | with_reducible apply State.flag_follows
    | with_reducible apply Follows.ite | split | dsimp only

theorem State.headerWrite_follows {msk : Nat} (hmsk : msk ||| 524315 = msk) {z s : State} (p : Sys2Proof.Path) (page : Nat) (off : Nat)
    (v : Nat) (act : State → State) (h : Follows msk z s) (hact : ∀ t, Follows msk z t → Follows msk z (act t)) : Follows msk z
    (State.headerWrite s p page off v act) := by
  unfold State.headerWrite
  repeat' first
    | with_reducible assumption | (intro _) | with_reducible apply hact
    | with_reducible apply State.gate_follows (within hmsk (by decide))
    | with_reducible apply State.wrote_follows (within hmsk (by decide))
    | with_reducible apply State.writeOwn_follows (within hmsk (by decide)) | simp only [LFollows.pair_iff]
    | with_reducible refine LFollows.of_eq ?_ (by with_reducible assumption) | with_reducible apply Follows.ite
    | with_reducible apply LFollows.ite | split | dsimp only

theorem execPgEnable_follows {msk : Nat} (hmsk : msk ||| 524315 = msk) {z s : State} (p : Sys2Proof.Path) (page : Nat) (h : Follows msk
    z s) : ∃ nx, execPgEnable p page s = .next nx ∧ Follows msk z nx := by
  unfold execPgEnable; refine done_follows ?_
  repeat' first
    | with_reducible assumption | (intro _) | with_reducible apply State.headerWrite_follows (within hmsk (by decide))
    | with_reducible apply State.enable_follows (within hmsk (by decide)) | split | dsimp only

theorem execPgDisable_follows {msk : Nat} (hmsk : msk ||| 524639 = msk) {z s : State} (p : Sys2Proof.Path) (page : Nat) (h : Follows msk
    z s) : ∃ nx, execPgDisable p page s = .next nx ∧ Follows msk z nx := by
  unfold execPgDisable; refine done_follows ?_
  repeat' first
    | with_reducible assumption | (intro _) | with_reducible apply State.headerWrite_follows (within hmsk (by decide))
    | with_reducible apply State.disable_follows (within hmsk (by decide)) | split | dsimp only

theorem execFunctionStartComplete_follows {msk : Nat} (hmsk : msk ||| 21355 = msk) {z s : State} (u : Nat) (h : Follows msk z s) : ∃ nx,
    execFunctionStartComplete u s = .next nx ∧ Follows msk z nx := by
  unfold execFunctionStartComplete; refine done_follows ?_
  repeat' first
    | with_reducible assumption | (intro _) | with_reducible apply State.chStarted_follows
    | with_reducible apply State.functionBegins_follows (within hmsk (by decide))
    | with_reducible apply State.setLife_follows (within hmsk (by decide)) | with_reducible apply State.when_follows
    | with_reducible apply Follows.ite | split | dsimp only

theorem execFunctionStopComplete_follows {msk : Nat} (hmsk : msk ||| 64367 = msk) {z s : State} (u : Nat) (h : Follows msk z s) : ∃ nx,
    execFunctionStopComplete u s = .next nx ∧ Follows msk z nx := by
  unfold execFunctionStopComplete; refine done_follows ?_
  repeat' first
    | with_reducible assumption | (intro _) | with_reducible apply State.chStop_follows (within hmsk (by decide))
    | with_reducible apply State.functionEnded_follows (within hmsk (by decide))
    | with_reducible apply State.pageStart_follows (within hmsk (by decide))
    | with_reducible apply State.setLife_follows (within hmsk (by decide)) | with_reducible apply State.when_follows
    | with_reducible apply State.flag_follows | with_reducible apply Follows.ite | split | dsimp only

theorem execRwpSafePointApply_follows {msk : Nat} {z s : State} (page : Nat) (sub : Nat) (h : Follows msk z s) : ∃ nx,
    execRwpSafePointApply page sub s = .next nx ∧ Follows msk z nx := by
  unfold execRwpSafePointApply; refine done_follows ?_
  repeat' first
    | with_reducible assumption | (intro _) | with_reducible apply State.applyFields_follows | with_reducible apply State.chSafe_follows
    | with_reducible apply State.applyRwp_follows | with_reducible apply State.ethBegin_follows | with_reducible apply State.when_follows
    | with_reducible apply Follows.ite | split | dsimp only

theorem execDomainSwitchOn_follows {msk : Nat} (hmsk : msk ||| 1 = msk) {z s : State} (d : Nat) (h : Follows msk z s) : ∃ nx,
    execDomainSwitchOn d s = .next nx ∧ Follows msk z nx := by
  unfold execDomainSwitchOn; refine done_follows ?_
  repeat' first
    | with_reducible assumption | (intro _) | with_reducible apply State.domRequest_follows (within hmsk (by decide))
    | with_reducible apply State.when_follows | split | dsimp only

theorem execDomainSwitchOff_follows {msk : Nat} (hmsk : msk ||| 1 = msk) {z s : State} (d : Nat) (h : Follows msk z s) : ∃ nx,
    execDomainSwitchOff d s = .next nx ∧ Follows msk z nx := by
  unfold execDomainSwitchOff; refine done_follows ?_
  repeat' first
    | with_reducible assumption | (intro _) | with_reducible apply State.domOffReq_follows (within hmsk (by decide))
    | with_reducible apply State.when_follows | split | dsimp only

theorem State.releaseHeld_follows {msk : Nat} (hmsk : msk ||| 1 = msk) {z s : State} (d : Nat) (h : Follows msk z s) : Follows msk z
    (State.releaseHeld s d) := by
  unfold State.releaseHeld
  repeat' first
    | with_reducible assumption | (intro _) | with_reducible apply State.domFall_follows (within hmsk (by decide))
    | with_reducible apply foldS_follows | with_reducible apply State.when_follows | split | dsimp only

theorem execDomainOffComplete_follows {msk : Nat} (hmsk : msk ||| 1048575 = msk) {z s : State} (d : Nat) (h : Follows msk z s) : ∃ nx,
    execDomainOffComplete d s = .next nx ∧ Follows msk z nx := by
  unfold execDomainOffComplete; refine done_follows ?_
  repeat' first
    | with_reducible assumption | (intro _) | with_reducible apply State.setDom_follows (within hmsk (by decide))
    | with_reducible apply State.domLost_follows (within hmsk (by decide))
    | with_reducible apply State.releaseHeld_follows (within hmsk (by decide))
    | with_reducible apply State.domRequest_follows (within hmsk (by decide)) | with_reducible apply State.when_follows | split
    | dsimp only

theorem State.beginWaiting_follows {msk : Nat} (hmsk : msk ||| 1 = msk) {z s : State} (h : Follows msk z s) : Follows msk z
    (State.beginWaiting s) := by
  unfold State.beginWaiting
  repeat' first
    | with_reducible assumption | (intro _) | with_reducible apply State.domBegin_follows (within hmsk (by decide))
    | with_reducible apply foldS_follows | with_reducible apply State.when_follows | split | dsimp only

theorem State.domainUp_follows {msk : Nat} (hmsk : msk ||| 259 = msk) {z s : State} (d : Nat) (h : Follows msk z s) : Follows msk z
    (State.domainUp s d) := by
  unfold State.domainUp
  repeat' first
    | with_reducible assumption | (intro _) | with_reducible apply State.beginWaiting_follows (within hmsk (by decide))
    | with_reducible apply State.domReady_follows (within hmsk (by decide))
    | with_reducible apply State.domFall_follows (within hmsk (by decide)) | with_reducible apply State.when_follows | split | dsimp only

theorem State.cutDomains_follows {msk : Nat} (hmsk : msk ||| 1048575 = msk) {z s : State} (l : List Nat) (h : Follows msk z s) : Follows
    msk z (State.cutDomains s l) := by
  unfold State.cutDomains
  repeat' first
    | with_reducible assumption | (intro _) | with_reducible apply State.setDom_follows (within hmsk (by decide))
    | with_reducible apply State.domReset_follows (within hmsk (by decide)) | with_reducible apply foldS_follows | split | dsimp only

theorem State.softRstWrite_follows {msk : Nat} (hmsk : msk ||| 1048575 = msk) {z s : State} (page : Nat) (stuck : Bool) (h : Follows msk
    z s) : Follows msk z (State.softRstWrite s page stuck) := by
  unfold State.softRstWrite
  repeat' first
    | with_reducible assumption | (intro _) | with_reducible apply State.softReset_follows (within hmsk (by decide))
    | with_reducible apply State.functionEnded_follows (within hmsk (by decide))
    | with_reducible apply State.modChip_follows (within hmsk (by decide)) | with_reducible apply State.when_follows
    | with_reducible apply State.flag_follows | split | dsimp only

theorem execSoftRst_follows {msk : Nat} (hmsk : msk ||| 1048575 = msk) {z s : State} (p : Sys2Proof.Path) (page : Nat) (stuck : Bool) (h
    : Follows msk z s) : ∃ nx, execSoftRst p page stuck s = .next nx ∧ Follows msk z nx := by
  unfold execSoftRst; refine done_follows ?_
  repeat' first
    | with_reducible assumption | (intro _) | with_reducible apply State.headerWrite_follows (within hmsk (by decide))
    | with_reducible apply State.softRstWrite_follows (within hmsk (by decide)) | split | dsimp only

theorem execDomainCycle_follows {msk : Nat} (hmsk : msk ||| 1048575 = msk) {z s : State} (page : Nat) (h : Follows msk z s) : ∃ nx,
    execDomainCycle page s = .next nx ∧ Follows msk z nx := by
  unfold execDomainCycle; refine done_follows ?_
  repeat' first
    | with_reducible assumption | (intro _) | with_reducible apply State.modChip_follows (within hmsk (by decide))
    | with_reducible apply State.setDom_follows (within hmsk (by decide))
    | with_reducible apply State.functionEnded_follows (within hmsk (by decide))
    | with_reducible apply State.domReset_follows (within hmsk (by decide)) | with_reducible apply State.when_follows
    | with_reducible apply foldS_follows | split | dsimp only

theorem State.stallEnd_follows {msk : Nat} (hmsk : msk ||| 3075 = msk) {z s : State} (page : Nat) (h : Follows msk z s) : Follows msk z
    (State.stallEnd s page) := by
  unfold State.stallEnd
  repeat' first
    | with_reducible assumption | (intro _) | with_reducible apply State.modChip_follows (within hmsk (by decide))
    | with_reducible apply State.modBrg_follows (within hmsk (by decide))
    | with_reducible apply State.modDma_follows (within hmsk (by decide))
    | with_reducible apply State.rejectAcc_follows (within hmsk (by decide)) | with_reducible apply State.when_follows
    | with_reducible apply foldS_follows | split | dsimp only

theorem execStallDetect_follows {msk : Nat} (hmsk : msk ||| 24395 = msk) {z s : State} (page : Nat) (h : Follows msk z s) : ∃ nx,
    execStallDetect page s = .next nx ∧ Follows msk z nx := by
  unfold execStallDetect; refine done_follows ?_
  repeat' first
    | with_reducible assumption | (intro _) | with_reducible apply State.raise_follows (within hmsk (by decide))
    | with_reducible apply State.functionFault_follows (within hmsk (by decide))
    | with_reducible apply State.finalRecord_follows (within hmsk (by decide))
    | with_reducible apply State.sysRecord_follows (within hmsk (by decide))
    | with_reducible apply State.stallEnd_follows (within hmsk (by decide))
    | with_reducible apply State.ctxFaultAll_follows (within hmsk (by decide)) | with_reducible apply State.when_follows
    | with_reducible apply State.flag_follows | with_reducible apply foldS_follows | with_reducible apply Follows.ite | split | dsimp only

theorem execWatchdogExpiry_follows {msk : Nat} (hmsk : msk ||| 983039 = msk) {z s : State} (h : Follows msk z s) : ∃ nx,
    execWatchdogExpiry s = .next nx ∧ Follows msk z nx := by
  unfold execWatchdogExpiry; refine done_follows ?_
  repeat' first
    | with_reducible assumption | (intro _) | with_reducible apply State.modChip_follows (within hmsk (by decide))
    | with_reducible apply State.watchdogReset_follows (within hmsk (by decide)) | with_reducible apply State.when_follows
    | with_reducible apply Follows.ite | split | dsimp only

theorem State.thermalCut_follows {msk : Nat} (hmsk : msk ||| 1048575 = msk) {z s : State} (h : Follows msk z s) : Follows msk z
    (State.thermalCut s) := by
  unfold State.thermalCut
  repeat' first
    | with_reducible assumption | (intro _) | with_reducible apply State.modChip_follows (within hmsk (by decide))
    | with_reducible apply State.cutDomains_follows (within hmsk (by decide)) | split | dsimp only

theorem State.mgmtEnd_follows {msk : Nat} (hmsk : msk ||| 540673 = msk) {z s : State} (r : MgmtRun) (h : Follows msk z s) : Follows msk
    z (State.mgmtEnd s r) := by
  unfold State.mgmtEnd
  repeat' first
    | with_reducible assumption | (intro _) | with_reducible apply State.modChip_follows (within hmsk (by decide))
    | with_reducible apply State.modUsb_follows (within hmsk (by decide))
    | with_reducible apply State.modBoot_follows (within hmsk (by decide)) | with_reducible apply State.inc_follows
    | with_reducible apply State.emit_follows | split | dsimp only

theorem State.rstNow_follows {msk : Nat} (hmsk : msk ||| 983039 = msk) {z s : State} (h : Follows msk z s) : Follows msk z (State.rstNow
    s) := by
  unfold State.rstNow
  repeat' first
    | with_reducible assumption | (intro _) | with_reducible apply State.warmReset_follows (within hmsk (by decide))
    | with_reducible apply State.mgmtEnd_follows (within hmsk (by decide)) | with_reducible apply State.when_follows | split | dsimp only

theorem State.rstDue_follows {msk : Nat} (hmsk : msk ||| 983039 = msk) {z s : State} (h : Follows msk z s) : Follows msk z (State.rstDue
    s) := by
  unfold State.rstDue
  repeat' first
    | with_reducible assumption | (intro _) | with_reducible apply State.rstNow_follows (within hmsk (by decide))
    | with_reducible apply State.when_follows | split | dsimp only

theorem execFinalCommitEnd_follows {msk : Nat} (hmsk : msk ||| 1048575 = msk) {z s : State} (h : Follows msk z s) : ∃ nx,
    execFinalCommitEnd s = .next nx ∧ Follows msk z nx := by
  unfold execFinalCommitEnd; refine done_follows ?_
  repeat' first
    | with_reducible assumption | (intro _) | simp only [Follows.recd_iff (within hmsk (by decide))]
    | with_reducible apply State.enterRing_follows (within hmsk (by decide))
    | with_reducible apply State.modChip_follows (within hmsk (by decide))
    | with_reducible apply State.thermalCut_follows (within hmsk (by decide))
    | with_reducible apply State.watchdogReset_follows (within hmsk (by decide))
    | with_reducible apply State.rstDue_follows (within hmsk (by decide)) | with_reducible apply State.when_follows
    | with_reducible apply foldS_follows | with_reducible apply Follows.ite | split | dsimp only

theorem execBrownout_follows {msk : Nat} (hmsk : msk ||| 524307 = msk) {z s : State} (vor : Nat) (vbus : Nat) (byVbus : Bool) (h :
    Follows msk z s) : ∃ nx, execBrownout vor vbus byVbus s = .next nx ∧ Follows msk z nx := by
  unfold execBrownout; refine done_follows ?_
  repeat' first
    | with_reducible assumption | (intro _) | with_reducible apply State.raise_follows (within hmsk (by decide))
    | with_reducible apply State.finalRecord_follows (within hmsk (by decide))
    | with_reducible apply State.vAbandon_follows (within hmsk (by decide))
    | with_reducible apply State.ledgerUpdate_follows (within hmsk (by decide))
    | with_reducible apply State.noteFail_follows (within hmsk (by decide)) | with_reducible apply State.when_follows
    | with_reducible apply State.flag_follows | with_reducible apply Follows.ite | split | dsimp only

theorem execThermalShutdown_follows {msk : Nat} (hmsk : msk ||| 3 = msk) {z s : State} (h : Follows msk z s) : ∃ nx, execThermalShutdown
    s = .next nx ∧ Follows msk z nx := by
  unfold execThermalShutdown; refine done_follows ?_
  repeat' first
    | with_reducible assumption | (intro _) | with_reducible apply State.finalRecord_follows (within hmsk (by decide))
    | with_reducible apply State.modChip_follows (within hmsk (by decide)) | with_reducible apply State.when_follows
    | with_reducible apply State.flag_follows | with_reducible apply State.incSat_follows | split | dsimp only

theorem State.thermalDue_follows {msk : Nat} (hmsk : msk ||| 1048575 = msk) {z s : State} (h : Follows msk z s) : Follows msk z
    (State.thermalDue s) := by
  unfold State.thermalDue
  repeat' first
    | with_reducible assumption | (intro _) | with_reducible apply State.thermalCut_follows (within hmsk (by decide))
    | with_reducible apply State.when_follows | split | dsimp only

theorem execThermalRestart_follows {msk : Nat} (hmsk : msk ||| 524291 = msk) {z s : State} (t : Int) (h : Follows msk z s) : ∃ nx,
    execThermalRestart t s = .next nx ∧ Follows msk z nx := by
  unfold execThermalRestart; refine done_follows ?_
  repeat' first
    | with_reducible assumption | (intro _) | with_reducible apply State.raise_follows (within hmsk (by decide))
    | with_reducible apply State.enterStep_follows (within hmsk (by decide))
    | with_reducible apply State.modChip_follows (within hmsk (by decide)) | with_reducible apply State.when_follows | split | dsimp only

theorem execStateEntry_follows {msk : Nat} (hmsk : msk ||| 1048575 = msk) {z s : State} (wake : Nat) (h : Follows msk z s) : ∃ nx,
    execStateEntry wake s = .next nx ∧ Follows msk z nx := by
  unfold execStateEntry; refine done_follows ?_
  repeat' first
    | with_reducible assumption | (intro _) | with_reducible apply State.enterState_follows (within hmsk (by decide))
    | with_reducible apply State.srcState_follows (within hmsk (by decide))
    | with_reducible apply State.domReset_follows (within hmsk (by decide))
    | with_reducible apply State.wakeBy_follows (within hmsk (by decide)) | with_reducible apply State.when_follows
    | with_reducible apply State.wr_follows | with_reducible apply foldS_follows | with_reducible apply Follows.ite | split | dsimp only

theorem execD2PowerLoss_follows {msk : Nat} (hmsk : msk ||| 1048575 = msk) {z s : State} (vbat : Bool)
    (h : Follows msk z s) : ∃ nx, execD2PowerLoss vbat s = .next nx ∧ Follows msk z nx := by
  unfold execD2PowerLoss
  refine ⟨_, rfl, State.when_follows h _ fun s h => ?_⟩
  have k := State.loseD0_follows (within hmsk (by decide)) vbat (if vbat then s.time.rtc else none) h
  generalize s.loseD0 vbat (if vbat then s.time.rtc else none) = u at k ⊢
  dsimp only
  with_reducible apply State.modChip_follows (within hmsk (by decide))
  with_reducible apply foldS_follows
  · exact fun t p ht => State.setWord_follows ht _ _
  · with_reducible apply State.setDom_follows (within hmsk (by decide))
    with_reducible apply State.setDom_follows (within hmsk (by decide))
    refine Follows.to_reset hmsk k _ (by with_reducible rfl) (by with_reducible rfl) (by with_reducible rfl) (by with_reducible rfl) ?_
    exact fun q hq => by cases q <;> first | rfl | exact absurd hq (by decide)

theorem execColdStart_follows {msk : Nat} (hmsk : msk ||| 983039 = msk) {z s : State} (rtc : Option Nat) (vbat : Bool) (h : Follows msk
    z s) : ∃ nx, execColdStart rtc vbat s = .next nx ∧ Follows msk z nx := by
  unfold execColdStart; refine done_follows ?_
  repeat' first
    | with_reducible assumption | (intro _) | with_reducible apply State.coldStart_follows (within hmsk (by decide))
    | with_reducible apply State.when_follows | split | dsimp only

end Sys2Proof.Machine
end

