-- ==== Sys2Proof/Laws/FolTunnels.lean ====
section
/-!
SUPPORT. `Follows` for the operations and meanings of `Tunnels.lean`.
-/

namespace Sys2Proof.Machine

open Host (Outcome)

set_option linter.unusedTactic false
set_option linter.unreachableTactic false
set_option linter.unusedSimpArgs false
set_option linter.unusedVariables false

theorem State.tunLast_follows {msk : Nat} {z s : State} (p : Sys2Proof.Path) (cmd : Nat) (h : Follows msk z s) : Follows msk z
    (State.tunLast s p cmd) := by
  unfold State.tunLast
  repeat' first
    | with_reducible assumption | (intro _) | with_reducible apply State.wr_follows | split | dsimp only

theorem State.showCarats_follows {msk : Nat} {z s : State} (c : Nat) (h : Follows msk z s) : Follows msk z (State.showCarats s c) := by
  unfold State.showCarats
  repeat' first
    | with_reducible assumption | (intro _) | with_reducible apply State.wr_follows | split | dsimp only

theorem State.tunLoad_follows {msk : Nat} {z s : State} (p : Sys2Proof.Path) (h : Follows msk z s) : Follows msk z (State.tunLoad s p)
    := by
  unfold State.tunLoad
  repeat' first
    | with_reducible assumption | (intro _) | with_reducible apply State.showCarats_follows | with_reducible apply State.tunLast_follows
    | with_reducible apply foldS_follows | with_reducible apply State.wr_follows | split | dsimp only

theorem cmdTunLoad_follows {msk : Nat} {z t : State} (p : Sys2Proof.Path) (h : Follows msk z t) : Follows msk z ((cmdTunLoad p).act t)
    := by
  unfold cmdTunLoad; dsimp only
  repeat' first
    | with_reducible assumption | (intro _) | with_reducible apply State.tunLoad_follows | split | dsimp only

theorem execTunLoad_follows {msk : Nat} (hmsk : msk ||| 524315 = msk) {z s : State} (p : Sys2Proof.Path) (h : Follows msk z s) : ∃ nx,
    execTunLoad p s = .next nx ∧ Follows msk z nx := by
  unfold execTunLoad; refine done_follows ?_
  repeat' first
    | with_reducible assumption | (intro _) | with_reducible apply State.runCmd_follows (within hmsk (by decide))
    | with_reducible apply cmdTunLoad_follows | split | dsimp only

theorem State.ctxRwp_follows {msk : Nat} {z s : State} (c : Nat) (h : Follows msk z s) : Follows msk z (State.ctxRwp s c) := by
  unfold State.ctxRwp
  repeat' first
    | with_reducible assumption | (intro _) | with_reducible apply State.applyFields_follows | with_reducible apply State.when_follows
    | split | dsimp only

theorem State.commitApply_follows {msk : Nat} (hmsk : msk ||| 458 = msk) {z s : State} (c : Nat) (w : List Nat) (h : Follows msk z s) :
    Follows msk z (State.commitApply s c w) := by
  unfold State.commitApply
  repeat' first
    | with_reducible assumption | (intro _) | with_reducible apply State.applyFields_follows | with_reducible apply State.ctxRwp_follows
    | with_reducible apply State.ctxWriteEn_follows (within hmsk (by decide)) | with_reducible apply State.wr_follows
    | with_reducible apply State.setWord_follows | with_reducible apply foldS_follows | with_reducible apply State.when_follows
    | with_reducible apply Follows.ite | split | dsimp only

theorem State.tunCommit_follows {msk : Nat} (hmsk : msk ||| 458 = msk) {z s : State} (p : Sys2Proof.Path) (h : Follows msk z s) :
    Follows msk z (State.tunCommit s p) := by
  unfold State.tunCommit
  repeat' first
    | with_reducible assumption | (intro _) | with_reducible apply State.tunLast_follows
    | with_reducible apply State.commitApply_follows (within hmsk (by decide))
    | with_reducible apply State.capture_follows (within hmsk (by decide))
    | with_reducible apply State.raise_follows (within hmsk (by decide)) | with_reducible apply State.wr_follows | split | dsimp only

theorem cmdTunCommit_follows {msk : Nat} (hmsk : msk ||| 458 = msk) {z t : State} (p : Sys2Proof.Path) (h : Follows msk z t) : Follows
    msk z ((cmdTunCommit p).act t) := by
  unfold cmdTunCommit; dsimp only
  repeat' first
    | with_reducible assumption | (intro _) | with_reducible apply State.tunCommit_follows (within hmsk (by decide)) | split | dsimp only

theorem execTunCommit_follows {msk : Nat} (hmsk : msk ||| 524763 = msk) {z s : State} (p : Sys2Proof.Path) (h : Follows msk z s) : ∃ nx,
    execTunCommit p s = .next nx ∧ Follows msk z nx := by
  unfold execTunCommit; refine done_follows ?_
  repeat' first
    | with_reducible assumption | (intro _) | with_reducible apply State.runCmd_follows (within hmsk (by decide))
    | with_reducible apply cmdTunCommit_follows (within hmsk (by decide)) | split | dsimp only

theorem State.tunRebase_follows {msk : Nat} (hmsk : msk ||| 330 = msk) {z s : State} (p : Sys2Proof.Path) (h : Follows msk z s) :
    Follows msk z (State.tunRebase s p) := by
  unfold State.tunRebase
  repeat' first
    | with_reducible assumption | (intro _) | with_reducible apply State.tunLast_follows
    | with_reducible apply State.dropBase_follows (within hmsk (by decide)) | with_reducible apply State.when_follows | split | dsimp only

theorem cmdTunRebase_follows {msk : Nat} (hmsk : msk ||| 330 = msk) {z t : State} (p : Sys2Proof.Path) (h : Follows msk z t) : Follows
    msk z ((cmdTunRebase p).act t) := by
  unfold cmdTunRebase; dsimp only
  repeat' first
    | with_reducible assumption | (intro _) | with_reducible apply State.tunRebase_follows (within hmsk (by decide)) | split | dsimp only

theorem execTunRebase_follows {msk : Nat} (hmsk : msk ||| 524635 = msk) {z s : State} (p : Sys2Proof.Path) (h : Follows msk z s) : ∃ nx,
    execTunRebase p s = .next nx ∧ Follows msk z nx := by
  unfold execTunRebase; refine done_follows ?_
  repeat' first
    | with_reducible assumption | (intro _) | with_reducible apply State.runCmd_follows (within hmsk (by decide))
    | with_reducible apply cmdTunRebase_follows (within hmsk (by decide)) | split | dsimp only

theorem State.tunClrCnt_follows {msk : Nat} {z s : State} (p : Sys2Proof.Path) (h : Follows msk z s) : Follows msk z (State.tunClrCnt s
    p) := by
  unfold State.tunClrCnt
  repeat' first
    | with_reducible assumption | (intro _) | with_reducible apply State.tunLast_follows | with_reducible apply foldS_follows
    | with_reducible apply State.setWord_follows | split | dsimp only

theorem cmdTunClrCnt_follows {msk : Nat} {z t : State} (p : Sys2Proof.Path) (h : Follows msk z t) : Follows msk z ((cmdTunClrCnt p).act
    t) := by
  unfold cmdTunClrCnt; dsimp only
  repeat' first
    | with_reducible assumption | (intro _) | with_reducible apply State.tunClrCnt_follows | split | dsimp only

theorem execTunClrCnt_follows {msk : Nat} (hmsk : msk ||| 524315 = msk) {z s : State} (p : Sys2Proof.Path) (h : Follows msk z s) : ∃ nx,
    execTunClrCnt p s = .next nx ∧ Follows msk z nx := by
  unfold execTunClrCnt; refine done_follows ?_
  repeat' first
    | with_reducible assumption | (intro _) | with_reducible apply State.runCmd_follows (within hmsk (by decide))
    | with_reducible apply cmdTunClrCnt_follows | split | dsimp only

theorem execQuarantineEnd_follows {msk : Nat} (hmsk : msk ||| 458 = msk) {z s : State} (port : Nat) (ltn : Nat) (h : Follows msk z s) :
    ∃ nx, execQuarantineEnd port ltn s = .next nx ∧ Follows msk z nx := by
  unfold execQuarantineEnd; refine done_follows ?_
  repeat' first
    | with_reducible assumption | (intro _) | simp only [Follows.quar_iff (within hmsk (by decide))]
    | with_reducible apply State.encCheck_follows (within hmsk (by decide)) | with_reducible apply State.when_follows
    | with_reducible apply foldS_follows | split | dsimp only

theorem execTwinSplitWaitEnd_follows {msk : Nat} (hmsk : msk ||| 64 = msk) {z s : State} (c : Nat) (h : Follows msk z s) : ∃ nx,
    execTwinSplitWaitEnd c s = .next nx ∧ Follows msk z nx := by
  unfold execTwinSplitWaitEnd; refine done_follows ?_
  repeat' first
    | with_reducible assumption | (intro _) | with_reducible apply State.modCtx_follows (within hmsk (by decide))
    | with_reducible apply State.when_follows | split | dsimp only

theorem execStopDrainTimeout_follows {msk : Nat} (hmsk : msk ||| 330 = msk) {z s : State} (c : Nat) (h : Follows msk z s) : ∃ nx,
    execStopDrainTimeout c s = .next nx ∧ Follows msk z nx := by
  unfold execStopDrainTimeout; refine done_follows ?_
  repeat' first
    | with_reducible assumption | (intro _) | with_reducible apply State.ctxDiscard_follows (within hmsk (by decide))
    | with_reducible apply State.when_follows | split | dsimp only

theorem execMergeBaseTimeout_follows {msk : Nat} (hmsk : msk ||| 330 = msk) {z s : State} (c : Nat) (h : Follows msk z s) : ∃ nx,
    execMergeBaseTimeout c s = .next nx ∧ Follows msk z nx := by
  unfold execMergeBaseTimeout; refine done_follows ?_
  repeat' first
    | with_reducible assumption | (intro _) | with_reducible apply State.dropBase_follows (within hmsk (by decide))
    | with_reducible apply State.when_follows | split | dsimp only

theorem execOpenFrameTimeout_follows {msk : Nat} (hmsk : msk ||| 330 = msk) {z s : State} (c : Nat) (h : Follows msk z s) : ∃ nx,
    execOpenFrameTimeout c s = .next nx ∧ Follows msk z nx := by
  unfold execOpenFrameTimeout; refine done_follows ?_
  repeat' first
    | with_reducible assumption | (intro _) | with_reducible apply State.closeRx_follows (within hmsk (by decide))
    | with_reducible apply State.when_follows | split | dsimp only

theorem execCmHoldExpiry_follows {msk : Nat} {z s : State} (c : Nat) (h : Follows msk z s) : ∃ nx, execCmHoldExpiry c s = .next nx ∧
    Follows msk z nx := by
  unfold execCmHoldExpiry; refine done_follows ?_
  repeat' first
    | with_reducible assumption | (intro _) | with_reducible apply State.when_follows | with_reducible apply State.flag_follows | split
    | dsimp only

theorem State.originEntry_follows {msk : Nat} (hmsk : msk ||| 328 = msk) {z s : State} (c : Nat) (e : Sys2Proof.AckEntry) (h : Follows
    msk z s) : Follows msk z (State.originEntry s c e) := by
  unfold State.originEntry
  repeat' first
    | with_reducible assumption | (intro _) | with_reducible apply State.modCtx_follows (within hmsk (by decide))
    | with_reducible apply State.freeAcked_follows (within hmsk (by decide)) | with_reducible apply State.when_follows
    | with_reducible apply State.wr_follows | simp only [LFollows.pair_iff]
    | with_reducible refine LFollows.of_eq ?_ (by with_reducible assumption)
    | with_reducible refine LFollows.fst (State.freeAcked_follows (within hmsk (by decide)) _ _ ?_) | split | dsimp only

theorem State.ackEntry_follows {msk : Nat} (hmsk : msk ||| 330 = msk) {z s : State} (n : Nat) (e : Sys2Proof.AckEntry) (h : Follows msk
    z s) : Follows msk z (State.ackEntry s n e) := by
  unfold State.ackEntry
  repeat' first
    | with_reducible assumption | (intro _) | with_reducible apply State.noCtx_follows (within hmsk (by decide))
    | with_reducible apply State.originEntry_follows (within hmsk (by decide))
    | with_reducible apply State.relayAck_follows (within hmsk (by decide)) | with_reducible apply State.when_follows
    | with_reducible apply State.inc_follows | with_reducible apply Follows.ite | split | dsimp only

theorem execAckMsg_follows {msk : Nat} (hmsk : msk ||| 330 = msk) {z s : State} (n : Nat) (entries : List Sys2Proof.AckEntry) (h :
    Follows msk z s) : ∃ nx, execAckMsg n entries s = .next nx ∧ Follows msk z nx := by
  unfold execAckMsg; refine done_follows ?_
  repeat' first
    | with_reducible assumption | (intro _) | with_reducible apply State.ackEntry_follows (within hmsk (by decide))
    | with_reducible apply State.when_follows | with_reducible apply foldS_follows | split | dsimp only

theorem execMgmtMsg_follows {msk : Nat} (hmsk : msk ||| 331 = msk) {z s : State} (n : Nat) (seq : Nat) (m : Sys2Proof.MgmtFrame) (h :
    Follows msk z s) : ∃ nx, execMgmtMsg n seq m s = .next nx ∧ Follows msk z nx := by
  unfold execMgmtMsg; refine done_follows ?_
  repeat' first
    | with_reducible assumption | (intro _) | with_reducible apply State.ctxReceive_follows (within hmsk (by decide))
    | with_reducible apply State.modChip_follows (within hmsk (by decide)) | with_reducible apply State.when_follows | split | dsimp only

theorem State.cellOpened_follows {msk : Nat} (hmsk : msk ||| 330 = msk) {z s : State} (n : Nat) (slot : Nat) (cycno : Nat) (cell :
    Sys2Proof.Cell) (trailer : Nat) (r : Option Sys2Proof.Cell) (selErr : Bool) (h : Follows msk z s) : Follows msk z (State.cellOpened
    s n slot cycno cell trailer r selErr) := by
  unfold State.cellOpened
  repeat' first
    | with_reducible assumption | (intro _) | with_reducible apply State.modLk_follows (within hmsk (by decide))
    | with_reducible apply State.slotValid_follows (within hmsk (by decide))
    | with_reducible apply State.noCtx_follows (within hmsk (by decide))
    | with_reducible apply State.ctxReceive_follows (within hmsk (by decide)) | with_reducible apply State.when_follows
    | with_reducible apply State.inc_follows | with_reducible apply Follows.ite | split | dsimp only

theorem execCellReceived_follows {msk : Nat} (hmsk : msk ||| 330 = msk) {z s : State} (n : Nat) (slot : Nat) (cycno : Nat) (cell :
    Sys2Proof.Cell) (trailer : Nat) (voided : Bool) (corr : Nat) (uncorr : Nat) (syncErr : Nat) (h : Follows msk z s) : ∃ nx,
    execCellReceived n slot cycno cell trailer voided corr uncorr syncErr s = .next nx ∧ Follows msk z nx := by
  unfold execCellReceived; refine done_follows ?_
  repeat' first
    | with_reducible assumption | (intro _) | with_reducible apply State.fecCount_follows (within hmsk (by decide))
    | with_reducible apply State.cellOpened_follows (within hmsk (by decide)) | with_reducible apply State.when_follows
    | with_reducible apply State.inc_follows | with_reducible apply Follows.ite | split | dsimp only

end Sys2Proof.Machine
end

