-- ==== Sys2Proof/Laws/FolWrites.lean ====
section
/-!
SUPPORT. `Follows` for the operations and meanings of `Writes.lean`.
-/

namespace Sys2Proof.Machine

open Host (Outcome)

set_option linter.unusedTactic false
set_option linter.unreachableTactic false
set_option linter.unusedSimpArgs false
set_option linter.unusedVariables false

theorem State.clearCapture_follows {msk : Nat} {z s : State} (page : Nat) (h : Follows msk z s) : Follows msk z (State.clearCapture s
    page) := by
  unfold State.clearCapture
  repeat' first
    | with_reducible assumption | (intro _) | with_reducible apply State.putCapture_follows | split | dsimp only

theorem State.isrWritten_follows {msk : Nat} (hmsk : msk ||| 2 = msk) {z s : State} (page : Nat) (v : Nat) (h : Follows msk z s) :
    Follows msk z (State.isrWritten s page v) := by
  unfold State.isrWritten
  repeat' first
    | with_reducible assumption | (intro _) | with_reducible apply State.setInt_follows (within hmsk (by decide))
    | with_reducible apply State.clearCapture_follows | with_reducible apply State.sendMsix_follows
    | with_reducible apply State.when_follows | split | dsimp only

theorem State.headerWritten_follows {msk : Nat} (hmsk : msk ||| 1048575 = msk) {z s : State} (page : Nat) (off : Nat) (v : Nat) (h :
    Follows msk z s) : Follows msk z (State.headerWritten s page off v) := by
  unfold State.headerWritten
  repeat' first
    | with_reducible assumption | (intro _) | with_reducible apply State.softRstWrite_follows (within hmsk (by decide))
    | with_reducible apply State.enable_follows (within hmsk (by decide))
    | with_reducible apply State.disable_follows (within hmsk (by decide))
    | with_reducible apply State.isrWritten_follows (within hmsk (by decide))
    | with_reducible apply State.setInt_follows (within hmsk (by decide))
    | with_reducible apply State.setIsr_follows (within hmsk (by decide)) | with_reducible apply Follows.ite | split | dsimp only

theorem State.storeWord_follows {msk : Nat} {z s : State} (p : Sys2Proof.Path) (a : Nat) (v : Nat) (h : Follows msk z s) : Follows msk z
    (State.storeWord s p a v) := by
  unfold State.storeWord
  repeat' first
    | with_reducible assumption | (intro _) | with_reducible apply State.setWord_follows | with_reducible apply Follows.ite | split
    | dsimp only

theorem State.semWritten_follows {msk : Nat} {z s : State} (n : Nat) (v : Nat) (h : Follows msk z s) : Follows msk z (State.semWritten s
    n v) := by
  unfold State.semWritten
  repeat' first
    | with_reducible assumption | (intro _) | with_reducible apply State.when_follows | with_reducible apply State.wr_follows
    | with_reducible apply State.flag_follows | split | dsimp only

theorem State.wdtStart_follows {msk : Nat} (hmsk : msk ||| 1 = msk) {z s : State} (h : Follows msk z s) : Follows msk z (State.wdtStart
    s) := by
  unfold State.wdtStart
  repeat' first
    | with_reducible assumption | (intro _) | with_reducible apply State.modChip_follows (within hmsk (by decide)) | split | dsimp only

theorem State.eviWritten_follows {msk : Nat} (hmsk : msk ||| 33 = msk) {z s : State} (old : State) (i : Nat) (h : Follows msk z s) :
    Follows msk z (State.eviWritten s old i) := by
  unfold State.eviWritten
  repeat' first
    | with_reducible assumption | (intro _) | with_reducible apply State.modIn_follows (within hmsk (by decide))
    | with_reducible apply State.eviHold_follows (within hmsk (by decide)) | with_reducible apply State.when_follows
    | with_reducible apply State.setBit_follows | split | dsimp only

theorem State.tcWritten_follows {msk : Nat} (hmsk : msk ||| 152394 = msk) {z s : State} (old : State) (h : Follows msk z s) : Follows
    msk z (State.tcWritten s old) := by
  unfold State.tcWritten
  repeat' first
    | with_reducible assumption | (intro _) | with_reducible apply State.setDataRole_follows (within hmsk (by decide))
    | with_reducible apply State.ccShow_follows (within hmsk (by decide))
    | with_reducible apply State.pwrRoleWritten_follows (within hmsk (by decide)) | with_reducible apply State.when_follows
    | with_reducible apply State.wr_follows | split | dsimp only

theorem State.wordWritten_follows {msk : Nat} (hmsk : msk ||| 1047423 = msk) {z s : State} (old : State) (p : Sys2Proof.Path) (a : Nat)
    (v : Nat) (h : Follows msk z s) : Follows msk z (State.wordWritten s old p a v) := by
  unfold State.wordWritten
  repeat' first
    | with_reducible assumption | (intro _) | with_reducible apply State.intReport_follows
    | with_reducible apply State.wdtStart_follows (within hmsk (by decide))
    | with_reducible apply State.modChip_follows (within hmsk (by decide)) | with_reducible apply State.semWritten_follows
    | with_reducible apply State.targetWritten_follows (within hmsk (by decide))
    | with_reducible apply State.vRequest_follows (within hmsk (by decide)) | with_reducible apply State.rsNext_follows
    | with_reducible apply State.modPwr_follows (within hmsk (by decide))
    | with_reducible apply State.limitCheck_follows (within hmsk (by decide))
    | with_reducible apply State.feedEnWritten_follows (within hmsk (by decide))
    | with_reducible apply State.orUpdate_follows (within hmsk (by decide))
    | with_reducible apply State.tcWritten_follows (within hmsk (by decide))
    | with_reducible apply State.ccShow_follows (within hmsk (by decide))
    | with_reducible apply State.sinkOk_follows (within hmsk (by decide))
    | with_reducible apply State.vbProtect_follows (within hmsk (by decide))
    | with_reducible apply State.svcUpdate_follows (within hmsk (by decide))
    | with_reducible apply State.srcWritten_follows (within hmsk (by decide)) | with_reducible apply State.showTimeValid_follows
    | with_reducible apply State.eviWritten_follows (within hmsk (by decide))
    | with_reducible apply State.foutWritten_follows (within hmsk (by decide)) | with_reducible apply State.gpioOut_follows
    | with_reducible apply State.modSec_follows (within hmsk (by decide))
    | with_reducible apply State.cfgProgram_follows (within hmsk (by decide)) | with_reducible apply State.setFlags_follows
    | with_reducible apply State.imemNext_follows | with_reducible apply State.modFac_follows (within hmsk (by decide))
    | with_reducible apply State.notePool_follows (within hmsk (by decide))
    | with_reducible apply State.raise_follows (within hmsk (by decide)) | with_reducible apply State.showDigests_follows
    | with_reducible apply State.resumeAct_follows (within hmsk (by decide))
    | with_reducible apply State.chWriteEn_follows (within hmsk (by decide)) | with_reducible apply State.showChan_follows
    | with_reducible apply State.cameoForced_follows (within hmsk (by decide))
    | with_reducible apply State.dpaltEntered_follows (within hmsk (by decide))
    | with_reducible apply State.dpaltHpd_follows (within hmsk (by decide))
    | with_reducible apply State.portsUpdate_follows (within hmsk (by decide))
    | with_reducible apply State.modStn_follows (within hmsk (by decide)) | with_reducible apply State.when_follows
    | with_reducible apply State.inc_follows | with_reducible apply State.flag_follows | with_reducible apply Follows.ite | split
    | dsimp only

/-- What every command of a list leaves. -/
def CmdsFollow (msk : Nat) (l : List Cmd) : Prop := ∀ c ∈ l, ∀ z t, Follows msk z t → Follows msk z (c.act t)

theorem CmdsFollow.nil {msk : Nat} : CmdsFollow msk [] := fun _ h => by cases h

theorem CmdsFollow.cons {msk : Nat} {c : Cmd} {l : List Cmd} (h : ∀ z t, Follows msk z t → Follows msk z (c.act t)) (k : CmdsFollow msk
    l) :
    CmdsFollow msk (c :: l) := by
  intro d hd
  rcases List.mem_cons.1 hd with rfl | hd
  · exact h
  · exact k d hd

theorem CmdsFollow.ite {msk : Nat} {l m : List Cmd} {c : Prop} [Decidable c] (h : CmdsFollow msk l) (k : CmdsFollow msk m) :
    CmdsFollow msk (if c then l else m) := by
  by_cases hc : c
  · rwa [if_pos hc]
  · rwa [if_neg hc]

theorem wordCmds_follow {msk : Nat} (hmsk : msk ||| 1047551 = msk) (p : Path) (a v : Nat) : CmdsFollow msk (wordCmds p a v) := by
  unfold wordCmds
  repeat' first | with_reducible apply CmdsFollow.ite | with_reducible apply CmdsFollow.nil | with_reducible apply CmdsFollow.cons
  all_goals (intro z t h; first
      | with_reducible exact cmdAttGo_follows (within hmsk (by decide)) h
      | with_reducible exact cmdAuthClose_follows (within hmsk (by decide)) h
      | with_reducible exact cmdAuthSubmit_follows (within hmsk (by decide)) h
      | with_reducible exact cmdCableReset_follows (within hmsk (by decide)) _ h
      | with_reducible exact cmdCameoCommit_follows (within hmsk (by decide)) h
      | with_reducible exact cmdCfgChange_follows (within hmsk (by decide)) _ h | with_reducible exact cmdCfgCommit_follows h
      | with_reducible exact cmdCfgErase_follows (within hmsk (by decide)) h | with_reducible exact cmdClrCnt_follows h
      | with_reducible exact cmdDpaltIrqHpd_follows h | with_reducible exact cmdEngRestart_follows (within hmsk (by decide)) _ h
      | with_reducible exact cmdEpochCheck_follows (within hmsk (by decide)) _ h
      | with_reducible exact cmdEpochReq_follows (within hmsk (by decide)) _ h
      | with_reducible exact cmdEpochWithdraw_follows (within hmsk (by decide)) _ h
      | with_reducible exact cmdFoutArm_follows (within hmsk (by decide)) _ h
      | with_reducible exact cmdHardReset_follows (within hmsk (by decide)) _ h
      | with_reducible exact cmdHsClear_follows (within hmsk (by decide)) h
      | with_reducible exact cmdHsOff_follows (within hmsk (by decide)) h
      | with_reducible exact cmdHsOn_follows (within hmsk (by decide)) h
      | with_reducible exact cmdInvGo_follows (within hmsk (by decide)) h
      | with_reducible exact cmdKsErase_follows (within hmsk (by decide)) h
      | with_reducible exact cmdKsEraseAll_follows (within hmsk (by decide)) h
      | with_reducible exact cmdKsLoadNext_follows (within hmsk (by decide)) h
      | with_reducible exact cmdKsSwitch_follows (within hmsk (by decide)) h
      | with_reducible exact cmdLinkRetrain_follows (within hmsk (by decide)) _ h
      | with_reducible exact cmdLinkRotate_follows (within hmsk (by decide)) _ h
      | with_reducible exact cmdLoaderEnter_follows (within hmsk (by decide)) h
      | with_reducible exact cmdMbxAck_follows (within hmsk (by decide)) _ h
      | with_reducible exact cmdMbxRing_follows (within hmsk (by decide)) _ h | with_reducible exact cmdMrExtGo_follows h
      | with_reducible exact cmdMtrClrCnt_follows _ h | with_reducible exact cmdMtrCommit_follows (within hmsk (by decide)) _ h
      | with_reducible exact cmdMtrLoad_follows _ h | with_reducible exact cmdOtpProgram_follows (within hmsk (by decide)) h
      | with_reducible exact cmdPcieRetrain_follows (within hmsk (by decide)) h | with_reducible exact cmdProgClrCnt_follows _ h
      | with_reducible exact cmdProgCommit_follows (within hmsk (by decide)) _ h
      | with_reducible exact cmdProgDisable_follows _ h | with_reducible exact cmdRbAdvance_follows (within hmsk (by decide)) h
      | with_reducible exact cmdRecClear_follows (within hmsk (by decide)) h
      | with_reducible exact cmdRecFire_follows (within hmsk (by decide)) _ h
      | with_reducible exact cmdRecFlush_follows (within hmsk (by decide)) h
      | with_reducible exact cmdRsCommit_follows (within hmsk (by decide)) _ h
      | with_reducible exact cmdRsLoad_follows (within hmsk (by decide)) h
      | with_reducible exact cmdStepCmdSet_follows (within hmsk (by decide)) h | with_reducible exact cmdStnClrCnt_follows _ h
      | with_reducible exact cmdStnCommit_follows (within hmsk (by decide)) _ h | with_reducible exact cmdStnLoad_follows _ h
      | with_reducible exact cmdSwapReq_follows (within hmsk (by decide)) _ h
      | with_reducible exact cmdTblCommit_follows (within hmsk (by decide)) _ h | with_reducible exact cmdTblLoad_follows _ h
      | with_reducible exact cmdTunClrCnt_follows _ h | with_reducible exact cmdTunCommit_follows (within hmsk (by decide)) _ h
      | with_reducible exact cmdTunLoad_follows _ h | with_reducible exact cmdTunRebase_follows (within hmsk (by decide)) _ h
      | with_reducible exact cmdVbClear_follows (within hmsk (by decide)) _ h
      | (dsimp only; with_reducible exact State.pdSend_follows (within hmsk (by decide)) h)
      | (dsimp only; with_reducible exact State.resetAlt_follows _ h))

theorem State.wordStored_follows {msk : Nat} (hmsk : msk ||| 1047551 = msk) {z s : State} (p : Path) (a v : Nat) (h : Follows msk z s) :
    Follows msk z (State.wordStored s p a v) := by
  have key : ∀ (l : List Cmd) (t : State), CmdsFollow msk l → Follows msk z t → Follows msk z (foldS l (fun s c => c.act s) t) := by
    intro l
    induction l with
    | nil => exact fun t _ ht => ht
    | cons c l ih => exact fun t hl ht => ih _ (fun d hd => hl d (List.mem_cons_of_mem _ hd)) (hl c List.mem_cons_self z t ht)
  exact key _ _ (fun c hc => wordCmds_follow (within hmsk (by decide)) p a v c (List.mem_of_mem_filter hc))
    (State.wordWritten_follows (within hmsk (by decide)) _ _ _ _ (State.storeWord_follows _ _ _ h))

theorem State.writeWord_follows {msk : Nat} (hmsk : msk ||| 1048575 = msk) {z s : State} (p : Sys2Proof.Path) (a : Nat) (v : Nat) (h :
    Follows msk z s) : Follows msk z (State.writeWord s p a v) := by
  unfold State.writeWord
  repeat' first
    | with_reducible assumption | (intro _) | with_reducible apply State.gate_follows (within hmsk (by decide))
    | with_reducible apply State.wrote_follows (within hmsk (by decide))
    | with_reducible apply State.applied_follows (within hmsk (by decide))
    | with_reducible apply State.headerWritten_follows (within hmsk (by decide))
    | with_reducible apply State.reject_follows (within hmsk (by decide))
    | with_reducible apply State.wordStored_follows (within hmsk (by decide)) | with_reducible apply Follows.ite | split | dsimp only

end Sys2Proof.Machine
end

