-- ==== Sys2Proof/Laws/FolAccess.lean ====
section
/-!
SUPPORT. `Follows` for the operations and meanings of `Access.lean`.
-/

namespace Sys2Proof.Machine

open Host (Outcome)

set_option linter.unusedTactic false
set_option linter.unreachableTactic false
set_option linter.unusedSimpArgs false
set_option linter.unusedVariables false

theorem after_follows {msk : Nat} {z s : State} (o : Outcome State Fault Refusal) (h : Follows msk z s)
    (k : ∃ t, o = .next t ∧ Follows msk z t) : Follows msk z (after s o) := by
  obtain ⟨t, rfl, ht⟩ := k
  exact ht

theorem State.semRead_follows {msk : Nat} (hmsk : msk ||| 524315 = msk) {z s : State} (p : Sys2Proof.Path) (n : Nat) (h : Follows msk z
    s) : Follows msk z (State.semRead s p n) := by
  unfold State.semRead
  repeat' first
    | with_reducible assumption | (intro _) | with_reducible apply State.readOwn_follows (within hmsk (by decide))
    | with_reducible apply State.when_follows | with_reducible apply State.wr_follows | with_reducible apply State.flag_follows | split
    | dsimp only

theorem State.readAccess_follows {msk : Nat} (hmsk : msk ||| 924731 = msk) {z s : State} (p : Sys2Proof.Path) (a : Nat) (h : Follows msk
    z s) : Follows msk z (State.readAccess s p a) := by
  unfold State.readAccess
  repeat' first
    | with_reducible assumption | (intro _) | with_reducible apply State.gate_follows (within hmsk (by decide))
    | with_reducible apply State.readBack_follows (within hmsk (by decide))
    | with_reducible apply State.semRead_follows (within hmsk (by decide)) | with_reducible apply after_follows
    | with_reducible apply execTimeLoRead_follows (within hmsk (by decide))
    | with_reducible apply execEviFifoRead_follows (within hmsk (by decide))
    | with_reducible apply execEnergyLoRead_follows (within hmsk (by decide))
    | with_reducible apply execPdRxPop_follows (within hmsk (by decide))
    | with_reducible apply execRsDataAccess_follows (within hmsk (by decide))
    | with_reducible apply execChallengeRead_follows (within hmsk (by decide))
    | with_reducible apply execImemDataAccess_follows (within hmsk (by decide))
    | with_reducible apply execStepsMaxRead_follows (within hmsk (by decide))
    | with_reducible apply execPerfRead_follows (within hmsk (by decide))
    | with_reducible apply execFenceRead_follows (within hmsk (by decide))
    | with_reducible apply execErrorFifoPop_follows (within hmsk (by decide))
    | with_reducible apply execInvSyncRead_follows (within hmsk (by decide))
    | with_reducible apply execFaultFifoPop_follows (within hmsk (by decide)) | with_reducible apply foldS_follows
    | with_reducible apply State.wr_follows | with_reducible apply Follows.ite | split | dsimp only

theorem State.access_follows {msk : Nat} (hmsk : msk ||| 1048575 = msk) {z s : State} (x : Acc) (h : Follows msk z s) : Follows msk z
    (State.access s x) := by
  unfold State.access
  repeat' first
    | with_reducible assumption | (intro _) | with_reducible apply State.writeWord_follows (within hmsk (by decide))
    | with_reducible apply State.readAccess_follows (within hmsk (by decide)) | with_reducible apply Follows.ite | split | dsimp only

theorem State.perform_follows {msk : Nat} (hmsk : msk ||| 1048575 = msk) {z s : State} (x : Acc) (h : Follows msk z s) : Follows msk z
    (State.perform s x) := by
  unfold State.perform
  repeat' first
    | with_reducible assumption | (intro _) | with_reducible apply State.rstDue_follows (within hmsk (by decide))
    | with_reducible apply State.access_follows (within hmsk (by decide)) | split | dsimp only

theorem execRegisterWrite_follows {msk : Nat} (hmsk : msk ||| 1048575 = msk) {z s : State} (p : Sys2Proof.Path) (a : Nat) (v : Nat) (h :
    Follows msk z s) : ∃ nx, execRegisterWrite p a v s = .next nx ∧ Follows msk z nx := by
  unfold execRegisterWrite; refine done_follows ?_
  repeat' first
    | with_reducible assumption | (intro _) | with_reducible apply State.perform_follows (within hmsk (by decide)) | split | dsimp only

theorem execPgIfrWrite_follows {msk : Nat} (hmsk : msk ||| 1048575 = msk) {z s : State} (p : Sys2Proof.Path) (page : Nat) (v : Nat) (h :
    Follows msk z s) : ∃ nx, execPgIfrWrite p page v s = .next nx ∧ Follows msk z nx := by
  unfold execPgIfrWrite; refine done_follows ?_
  repeat' first
    | with_reducible assumption | (intro _) | with_reducible apply State.perform_follows (within hmsk (by decide)) | split | dsimp only

theorem execSemRead_follows {msk : Nat} (hmsk : msk ||| 524315 = msk) {z s : State} (p : Sys2Proof.Path) (n : Nat) (h : Follows msk z s)
    : ∃ nx, execSemRead p n s = .next nx ∧ Follows msk z nx := by
  unfold execSemRead; refine done_follows ?_
  repeat' first
    | with_reducible assumption | (intro _) | with_reducible apply State.semRead_follows (within hmsk (by decide))
    | with_reducible apply State.when_follows | split | dsimp only

theorem execSemRelease_follows {msk : Nat} (hmsk : msk ||| 1048575 = msk) {z s : State} (p : Sys2Proof.Path) (n : Nat) (h : Follows msk
    z s) : ∃ nx, execSemRelease p n s = .next nx ∧ Follows msk z nx := by
  unfold execSemRelease; refine done_follows ?_
  repeat' first
    | with_reducible assumption | (intro _) | with_reducible apply State.perform_follows (within hmsk (by decide))
    | with_reducible apply State.when_follows | split | dsimp only

theorem execSysRst_follows {msk : Nat} (hmsk : msk ||| 1048575 = msk) {z s : State} (p : Sys2Proof.Path) (v : Nat) (h : Follows msk z s)
    : ∃ nx, execSysRst p v s = .next nx ∧ Follows msk z nx := by
  unfold execSysRst; refine done_follows ?_
  repeat' first
    | with_reducible assumption | (intro _) | with_reducible apply State.perform_follows (within hmsk (by decide)) | split | dsimp only

theorem execWdtKick_follows {msk : Nat} (hmsk : msk ||| 1048575 = msk) {z s : State} (p : Sys2Proof.Path) (v : Nat) (h : Follows msk z
    s) : ∃ nx, execWdtKick p v s = .next nx ∧ Follows msk z nx := by
  unfold execWdtKick; refine done_follows ?_
  repeat' first
    | with_reducible assumption | (intro _) | with_reducible apply State.perform_follows (within hmsk (by decide)) | split | dsimp only

theorem execRemoteIntUpdate_follows {msk : Nat} {z s : State} (n : Nat) (cond : Bool) (h : Follows msk z s) : ∃ nx, execRemoteIntUpdate
    n cond s = .next nx ∧ Follows msk z nx := by
  unfold execRemoteIntUpdate; refine done_follows ?_
  repeat' first
    | with_reducible assumption | (intro _) | with_reducible apply State.when_follows | with_reducible apply State.setBit_follows
    | with_reducible apply State.emit_follows | split | dsimp only

theorem State.remoteSend_follows {msk : Nat} (hmsk : msk ||| 1 = msk) {z s : State} (chip : Nat) (x : Acc) (h : Follows msk z s) :
    Follows msk z (State.remoteSend s chip x) := by
  unfold State.remoteSend
  repeat' first
    | with_reducible assumption | (intro _) | with_reducible apply State.modChip_follows (within hmsk (by decide))
    | with_reducible apply State.when_follows | with_reducible apply State.emit_follows | split | dsimp only

theorem State.unreachable_follows {msk : Nat} (hmsk : msk ||| 3 = msk) {z s : State} (x : Acc) (h : Follows msk z s) : Follows msk z
    (State.unreachable s x) := by
  unfold State.unreachable
  repeat' first
    | with_reducible assumption | (intro _) | with_reducible apply State.complete_follows (within hmsk (by decide))
    | with_reducible apply State.capture_follows (within hmsk (by decide)) | with_reducible apply Follows.ite | split | dsimp only

theorem State.route_follows {msk : Nat} (hmsk : msk ||| 1048575 = msk) {z s : State} (p : Sys2Proof.Path) (addr : Nat) (w : Bool) (data
    : Nat) (note : Acc → State → State) (h : Follows msk z s) (hnote : ∀ x t, Follows msk z t → Follows msk z (note x t)) : Follows msk
    z (State.route s p addr w data note) := by
  unfold State.route
  repeat' first
    | with_reducible assumption | (intro _) | with_reducible apply hnote
    | with_reducible apply State.complete_follows (within hmsk (by decide))
    | with_reducible apply State.capture_follows (within hmsk (by decide))
    | with_reducible apply State.access_follows (within hmsk (by decide))
    | with_reducible apply State.remoteSend_follows (within hmsk (by decide)) | simp only [LFollows.pair_iff]
    | with_reducible refine LFollows.of_eq ?_ (by with_reducible assumption) | with_reducible apply Follows.ite
    | with_reducible apply LFollows.ite | split | dsimp only

theorem execRemoteAccess_follows {msk : Nat} (hmsk : msk ||| 1048575 = msk) {z s : State} (p : Sys2Proof.Path) (n : Nat) (off : Nat) (w
    : Option Nat) (h : Follows msk z s) : ∃ nx, execRemoteAccess p n off w s = .next nx ∧ Follows msk z nx := by
  unfold execRemoteAccess; refine done_follows ?_
  repeat' first
    | with_reducible assumption | (intro _) | with_reducible apply State.remoteSend_follows (within hmsk (by decide))
    | with_reducible apply State.unreachable_follows (within hmsk (by decide))
    | with_reducible apply State.rstDue_follows (within hmsk (by decide))
    | with_reducible apply State.route_follows (within hmsk (by decide)) | with_reducible apply State.when_follows
    | with_reducible apply Follows.ite | split | dsimp only

theorem execRemoteAgentAccess_follows {msk : Nat} (hmsk : msk ||| 1048575 = msk) {z s : State} (from_ : Nat) (id : Nat) (addr : Nat) (w
    : Option Nat) (h : Follows msk z s) : ∃ nx, execRemoteAgentAccess from_ id addr w s = .next nx ∧ Follows msk z nx := by
  unfold execRemoteAgentAccess; refine done_follows ?_
  repeat' first
    | with_reducible assumption | (intro _) | with_reducible apply State.perform_follows (within hmsk (by decide))
    | with_reducible apply State.modChip_follows (within hmsk (by decide)) | with_reducible apply State.when_follows | split | dsimp only

theorem execMspiRequest_follows {msk : Nat} (hmsk : msk ||| 1048575 = msk) {z s : State} (bytes : List Sys2Proof.Byte) (h : Follows msk
    z s) : ∃ nx, execMspiRequest bytes s = .next nx ∧ Follows msk z nx := by
  unfold execMspiRequest; refine done_follows ?_
  repeat' first
    | with_reducible assumption | (intro _) | with_reducible apply State.modChip_follows (within hmsk (by decide))
    | with_reducible apply State.rstDue_follows (within hmsk (by decide))
    | with_reducible apply State.route_follows (within hmsk (by decide)) | with_reducible apply State.when_follows
    | with_reducible apply State.emit_follows | with_reducible apply State.incSat_follows | with_reducible apply State.freshVal_follows
    | simp only [RFollows.pair_iff] | with_reducible refine RFollows.of_eq ?_ (by with_reducible assumption)
    | with_reducible refine RFollows.snd (State.freshVal_follows ?_) | with_reducible apply Follows.ite | split | dsimp only

theorem execMspiDeselectEarly_follows {msk : Nat} {z s : State} (h : Follows msk z s) : ∃ nx, execMspiDeselectEarly s = .next nx ∧
    Follows msk z nx := by
  unfold execMspiDeselectEarly; refine done_follows ?_
  repeat' first
    | with_reducible assumption | (intro _) | split | dsimp only

theorem State.modRun_follows {msk : Nat} (hmsk : msk ||| 1 = msk) {z s : State} (f : MgmtRun → MgmtRun) (h : Follows msk z s) : Follows
    msk z (State.modRun s f) := by
  unfold State.modRun
  repeat' first
    | with_reducible assumption | (intro _) | with_reducible apply State.modChip_follows (within hmsk (by decide)) | split | dsimp only

theorem State.mgmtRecord_follows {msk : Nat} (hmsk : msk ||| 1048575 = msk) {z s : State} (r : List Sys2Proof.Byte) (h : Follows msk z
    s) : Follows msk z (State.mgmtRecord s r) := by
  unfold State.mgmtRecord
  repeat' first
    | with_reducible assumption | (intro _) | with_reducible apply State.route_follows (within hmsk (by decide))
    | with_reducible apply State.modRun_follows (within hmsk (by decide)) | with_reducible apply State.freshVal_follows
    | simp only [RFollows.pair_iff] | with_reducible refine RFollows.of_eq ?_ (by with_reducible assumption)
    | with_reducible refine RFollows.snd (State.freshVal_follows ?_) | with_reducible apply Follows.ite | split | dsimp only

theorem State.mgmtSteps_follows {msk : Nat} (hmsk : msk ||| 1048575 = msk) {z s : State} (x0 : Nat) (h : Follows msk z s) : Follows msk
    z (State.mgmtSteps x0 s) := by
  induction x0 generalizing s with
  | zero =>
    unfold State.mgmtSteps
    repeat' first
      | with_reducible assumption | (intro _)
      | with_reducible apply State.mgmtEnd_follows (within hmsk (by decide))
      | with_reducible apply State.mgmtRecord_follows (within hmsk (by decide)) | with_reducible apply Follows.ite | split | dsimp only
  | succ n ih =>
    unfold State.mgmtSteps
    repeat' first
      | with_reducible assumption | (intro _) | with_reducible apply ih
      | with_reducible apply State.mgmtEnd_follows (within hmsk (by decide))
      | with_reducible apply State.mgmtRecord_follows (within hmsk (by decide)) | with_reducible apply Follows.ite | split | dsimp only

theorem State.mgmtGo_follows {msk : Nat} (hmsk : msk ||| 1048575 = msk) {z s : State} (h : Follows msk z s) : Follows msk z
    (State.mgmtGo s) := by
  unfold State.mgmtGo
  repeat' first
    | with_reducible assumption | (intro _) | with_reducible apply State.rstDue_follows (within hmsk (by decide))
    | with_reducible apply State.mgmtSteps_follows (within hmsk (by decide)) | split | dsimp only

theorem execMgmtPipeTransfer_follows {msk : Nat} (hmsk : msk ||| 1048575 = msk) {z s : State} (data : List Sys2Proof.Byte) (read : Bool)
    (h : Follows msk z s) : ∃ nx, execMgmtPipeTransfer data read s = .next nx ∧ Follows msk z nx := by
  unfold execMgmtPipeTransfer; refine done_follows ?_
  repeat' first
    | with_reducible assumption | (intro _) | with_reducible apply State.modUsb_follows (within hmsk (by decide))
    | with_reducible apply State.mgmtGo_follows (within hmsk (by decide))
    | with_reducible apply State.modChip_follows (within hmsk (by decide)) | with_reducible apply State.when_follows | split | dsimp only

theorem execSvcMgmt_follows {msk : Nat} (hmsk : msk ||| 1048575 = msk) {z s : State} (seq : Nat) (data : List Sys2Proof.Byte) (h :
    Follows msk z s) : ∃ nx, execSvcMgmt seq data s = .next nx ∧ Follows msk z nx := by
  unfold execSvcMgmt; refine done_follows ?_
  repeat' first
    | with_reducible assumption | (intro _) | with_reducible apply State.uartFrame_follows (within hmsk (by decide))
    | with_reducible apply State.mgmtGo_follows (within hmsk (by decide))
    | with_reducible apply State.modChip_follows (within hmsk (by decide)) | with_reducible apply State.when_follows
    | with_reducible apply State.emit_follows | simp only [LFollows.pair_iff]
    | with_reducible refine LFollows.of_eq ?_ (by with_reducible assumption) | with_reducible apply Follows.ite
    | with_reducible apply LFollows.ite | split | dsimp only

theorem State.remoteEnd_follows {msk : Nat} (hmsk : msk ||| 1048575 = msk) {z s : State} (id : Nat) (act : Acc → State → State) (h :
    Follows msk z s) (hact : ∀ x t, Follows msk z t → Follows msk z (act x t)) : Follows msk z (State.remoteEnd s id act) := by
  unfold State.remoteEnd
  repeat' first
    | with_reducible assumption | (intro _) | with_reducible apply hact
    | with_reducible apply State.mgmtGo_follows (within hmsk (by decide))
    | with_reducible apply State.modChip_follows (within hmsk (by decide)) | simp only [LFollows.pair_iff]
    | with_reducible refine LFollows.of_eq ?_ (by with_reducible assumption) | split | dsimp only

theorem execRemoteAnswer_follows {msk : Nat} (hmsk : msk ||| 1048575 = msk) {z s : State} (id : Nat) (code : Nat) (data : Nat) (h :
    Follows msk z s) : ∃ nx, execRemoteAnswer id code data s = .next nx ∧ Follows msk z nx := by
  unfold execRemoteAnswer; refine done_follows ?_
  repeat' first
    | with_reducible assumption | (intro _) | with_reducible apply State.remoteEnd_follows (within hmsk (by decide))
    | with_reducible apply State.complete_follows (within hmsk (by decide)) | with_reducible apply Follows.ite | split | dsimp only

theorem execRemoteAccessTimeout_follows {msk : Nat} (hmsk : msk ||| 1048575 = msk) {z s : State} (id : Nat) (h : Follows msk z s) : ∃
    nx, execRemoteAccessTimeout id s = .next nx ∧ Follows msk z nx := by
  unfold execRemoteAccessTimeout; refine done_follows ?_
  repeat' first
    | with_reducible assumption | (intro _) | with_reducible apply State.remoteEnd_follows (within hmsk (by decide))
    | with_reducible apply State.unreachable_follows (within hmsk (by decide)) | split | dsimp only

theorem State.takeStalled_follows {msk : Nat} (hmsk : msk ||| 1 = msk) {z s : State} (sel : Acc → Bool) (h : Follows msk z s) : RFollows
    msk z (State.takeStalled s sel) := by
  unfold State.takeStalled
  repeat' first
    | with_reducible assumption | (intro _) | with_reducible apply State.modChip_follows (within hmsk (by decide))
    | simp only [RFollows.pair_iff] | with_reducible refine RFollows.of_eq ?_ (by with_reducible assumption) | split | dsimp only

theorem State.goOn_follows {msk : Nat} (hmsk : msk ||| 1048575 = msk) {z s : State} (sel : Acc → Bool) (h : Follows msk z s) : Follows
    msk z (State.goOn s sel) := by
  unfold State.goOn
  repeat' first
    | with_reducible assumption | (intro _) | with_reducible apply State.takeStalled_follows (within hmsk (by decide))
    | with_reducible apply State.mgmtGo_follows (within hmsk (by decide))
    | with_reducible apply State.perform_follows (within hmsk (by decide)) | with_reducible apply foldS_follows
    | simp only [RFollows.pair_iff] | with_reducible refine RFollows.of_eq ?_ (by with_reducible assumption)
    | with_reducible refine RFollows.snd (State.takeStalled_follows (within hmsk (by decide)) _ ?_) | split | dsimp only

theorem execDomainUp_follows {msk : Nat} (hmsk : msk ||| 1048575 = msk) {z s : State} (d : Nat) (h : Follows msk z s) : ∃ nx,
    execDomainUp d s = .next nx ∧ Follows msk z nx := by
  unfold execDomainUp; refine done_follows ?_
  repeat' first
    | with_reducible assumption | (intro _) | with_reducible apply State.goOn_follows (within hmsk (by decide))
    | with_reducible apply State.domainUp_follows (within hmsk (by decide)) | with_reducible apply State.when_follows | split | dsimp only

theorem execDomainWakeAccess_follows {msk : Nat} (hmsk : msk ||| 1048575 = msk) {z s : State} (p : Sys2Proof.Path) (a : Nat) (w : Option
    Nat) (h : Follows msk z s) : ∃ nx, execDomainWakeAccess p a w s = .next nx ∧ Follows msk z nx := by
  unfold execDomainWakeAccess; refine done_follows ?_
  repeat' first
    | with_reducible assumption | (intro _) | with_reducible apply State.perform_follows (within hmsk (by decide))
    | with_reducible apply State.when_follows | split | dsimp only

theorem State.wakeEnd_follows {msk : Nat} (hmsk : msk ||| 1048575 = msk) {z s : State} (x : Acc) (h : Follows msk z s) : Follows msk z
    (State.wakeEnd s x) := by
  unfold State.wakeEnd
  repeat' first
    | with_reducible assumption | (intro _) | with_reducible apply State.perform_follows (within hmsk (by decide))
    | with_reducible apply State.rejectAcc_follows (within hmsk (by decide)) | with_reducible apply Follows.ite | split | dsimp only

theorem execDomainWakeTimeout_follows {msk : Nat} (hmsk : msk ||| 1048575 = msk) {z s : State} (d : Nat) (h : Follows msk z s) : ∃ nx,
    execDomainWakeTimeout d s = .next nx ∧ Follows msk z nx := by
  unfold execDomainWakeTimeout; refine done_follows ?_
  repeat' first
    | with_reducible assumption | (intro _) | with_reducible apply State.takeStalled_follows (within hmsk (by decide))
    | with_reducible apply State.mgmtGo_follows (within hmsk (by decide))
    | with_reducible apply State.wakeEnd_follows (within hmsk (by decide)) | with_reducible apply State.when_follows
    | with_reducible apply foldS_follows | simp only [RFollows.pair_iff]
    | with_reducible refine RFollows.of_eq ?_ (by with_reducible assumption)
    | with_reducible refine RFollows.snd (State.takeStalled_follows (within hmsk (by decide)) _ ?_) | split | dsimp only

theorem execFenceComplete_follows {msk : Nat} (hmsk : msk ||| 1048575 = msk) {z s : State} (h : Follows msk z s) : ∃ nx,
    execFenceComplete s = .next nx ∧ Follows msk z nx := by
  unfold execFenceComplete; refine done_follows ?_
  repeat' first
    | with_reducible assumption | (intro _) | with_reducible apply State.goOn_follows (within hmsk (by decide))
    | with_reducible apply State.fenceComplete_follows (within hmsk (by decide)) | split | dsimp only

theorem execFenceTimeout_follows {msk : Nat} (hmsk : msk ||| 1048575 = msk) {z s : State} (h : Follows msk z s) : ∃ nx, execFenceTimeout
    s = .next nx ∧ Follows msk z nx := by
  unfold execFenceTimeout; refine done_follows ?_
  repeat' first
    | with_reducible assumption | (intro _) | with_reducible apply State.goOn_follows (within hmsk (by decide))
    | with_reducible apply State.fenceTimeout_follows (within hmsk (by decide)) | split | dsimp only

theorem execInvSyncComplete_follows {msk : Nat} (hmsk : msk ||| 1048575 = msk) {z s : State} (late : Bool) (h : Follows msk z s) : ∃ nx,
    execInvSyncComplete late s = .next nx ∧ Follows msk z nx := by
  unfold execInvSyncComplete; refine done_follows ?_
  repeat' first
    | with_reducible assumption | (intro _) | with_reducible apply State.goOn_follows (within hmsk (by decide))
    | with_reducible apply State.invSyncComplete_follows (within hmsk (by decide)) | split | dsimp only

theorem State.cfgUp_follows {msk : Nat} (hmsk : msk ||| 1048575 = msk) {z s : State} (d : Nat) (h : Follows msk z s) : Follows msk z
    (State.cfgUp s d) := by
  unfold State.cfgUp
  repeat' first
    | with_reducible assumption | (intro _) | with_reducible apply State.setDom_follows (within hmsk (by decide))
    | with_reducible apply State.domLost_follows (within hmsk (by decide))
    | with_reducible apply State.domainUp_follows (within hmsk (by decide)) | with_reducible apply State.when_follows | split | dsimp only

theorem State.cfgWake_follows {msk : Nat} (hmsk : msk ||| 1048575 = msk) {z s : State} (page : Nat) (h : Follows msk z s) : Follows msk
    z (State.cfgWake s page) := by
  unfold State.cfgWake
  repeat' first
    | with_reducible assumption | (intro _) | with_reducible apply State.cfgUp_follows (within hmsk (by decide))
    | with_reducible apply State.goOn_follows (within hmsk (by decide)) | with_reducible apply foldS_follows
    | with_reducible apply Follows.ite | split | dsimp only

theorem State.cfgFail_follows {msk : Nat} (hmsk : msk ||| 983039 = msk) {z s : State} (i : Nat) (h : Follows msk z s) : Follows msk z
    (State.cfgFail s i) := by
  unfold State.cfgFail
  repeat' first
    | with_reducible assumption | (intro _) | with_reducible apply State.bootFail_follows (within hmsk (by decide))
    | with_reducible apply State.wr_follows | split | dsimp only

theorem State.cfgWrite_follows {msk : Nat} (hmsk : msk ||| 1048575 = msk) {z s : State} (a : Nat) (v : Nat) (h : Follows msk z s) :
    RFollows msk z (State.cfgWrite s a v) := by
  unfold State.cfgWrite
  repeat' first
    | with_reducible assumption | (intro _) | with_reducible apply State.cfgWake_follows (within hmsk (by decide))
    | with_reducible apply State.access_follows (within hmsk (by decide))
    | with_reducible apply State.rstDue_follows (within hmsk (by decide))
    | with_reducible apply State.rejectAcc_follows (within hmsk (by decide))
    | with_reducible apply State.modChip_follows (within hmsk (by decide)) | simp only [RFollows.pair_iff]
    | with_reducible refine RFollows.of_eq ?_ (by with_reducible assumption) | split | dsimp only

theorem State.cfgApply_follows {msk : Nat} (hmsk : msk ||| 1048575 = msk) {z s : State} (x0 : List Nat) (h : Follows msk z s) : Follows
    msk z (State.cfgApply x0 s) := by
  induction x0 generalizing s with
  | nil =>
    unfold State.cfgApply
    repeat' first
      | with_reducible assumption | (intro _)
      | with_reducible apply State.cfgFail_follows (within hmsk (by decide))
      | with_reducible apply State.cfgWrite_follows (within hmsk (by decide))
      | with_reducible apply State.enterStep_follows (within hmsk (by decide)) | simp only [RFollows.pair_iff]
      | with_reducible refine RFollows.of_eq ?_ (by with_reducible assumption)
      | with_reducible refine RFollows.snd (State.cfgWrite_follows (within hmsk (by decide)) _ _ ?_) | with_reducible apply Follows.ite
      | split | dsimp only
  | cons y l ih =>
    unfold State.cfgApply
    repeat' first
      | with_reducible assumption | (intro _) | with_reducible apply ih
      | with_reducible apply State.cfgFail_follows (within hmsk (by decide))
      | with_reducible apply State.cfgWrite_follows (within hmsk (by decide))
      | with_reducible apply State.enterStep_follows (within hmsk (by decide)) | simp only [RFollows.pair_iff]
      | with_reducible refine RFollows.of_eq ?_ (by with_reducible assumption)
      | with_reducible refine RFollows.snd (State.cfgWrite_follows (within hmsk (by decide)) _ _ ?_) | with_reducible apply Follows.ite
      | split | dsimp only

theorem execBootB6Configuration_follows {msk : Nat} (hmsk : msk ||| 1048575 = msk) {z s : State} (h : Follows msk z s) : ∃ nx,
    execBootB6Configuration s = .next nx ∧ Follows msk z nx := by
  unfold execBootB6Configuration; refine done_follows ?_
  repeat' first
    | with_reducible assumption | (intro _) | with_reducible apply State.enterStep_follows (within hmsk (by decide))
    | with_reducible apply State.mrExtend_follows | with_reducible apply State.bootFail_follows (within hmsk (by decide))
    | with_reducible apply State.cfgApply_follows (within hmsk (by decide)) | with_reducible apply State.when_follows
    | with_reducible apply State.wr_follows | with_reducible apply Follows.ite | split | dsimp only

theorem State.timeDue_follows {msk : Nat} (hmsk : msk ||| 1048575 = msk) {z s : State} (h : Follows msk z s) : Follows msk z
    (State.timeDue s) := by
  unfold State.timeDue
  repeat' first
    | with_reducible assumption | (intro _) | with_reducible apply State.mgmtGo_follows (within hmsk (by decide))
    | with_reducible apply State.glintsDue_follows (within hmsk (by decide))
    | with_reducible apply State.thermalDue_follows (within hmsk (by decide)) | split | dsimp only

theorem State.tick_follows {msk : Nat} (hmsk : msk ||| 1048575 = msk) {z s : State} (h : Follows msk z s) : Follows msk z (State.tick s)
    := by
  unfold State.tick
  repeat' first
    | with_reducible assumption | (intro _) | with_reducible apply State.timeDue_follows (within hmsk (by decide))
    | with_reducible apply State.pass_follows (within hmsk (by decide)) | with_reducible apply State.when_follows | split | dsimp only

theorem execCycleBoundary_follows {msk : Nat} (hmsk : msk ||| 1048575 = msk) {z s : State} (h : Follows msk z s) : ∃ nx, execCycleBoundary
    s = .next nx ∧ Follows msk z nx := by
  unfold execCycleBoundary; refine done_follows ?_
  repeat' first
    | with_reducible assumption | (intro _) | with_reducible apply State.timeDue_follows (within hmsk (by decide))
    | with_reducible apply State.cycleBegins_follows (within hmsk (by decide)) | split | dsimp only

end Sys2Proof.Machine
end

