-- ==== Sys2Proof/Laws/FolDispatch.lean ====
section
/-!
SUPPORT. `Follows` for the operations and meanings of `Dispatch.lean`.
-/

namespace Sys2Proof.Machine

open Host (Outcome)

set_option linter.unusedTactic false
set_option linter.unreachableTactic false
set_option linter.unusedSimpArgs false
set_option linter.unusedVariables false

/-- What every command leaves. -/
theorem exec_follows (c : Instr) {msk : Nat} (hmsk : msk ||| maskOf (touches c) = msk) {z s : State} (h : Follows msk z s) :
    ∃ t, exec c s = .next t ∧ Follows msk z t := by
  cases c with
  | coldStart rtc vbat => exact execColdStart_follows hmsk rtc vbat h
  | registerWrite p a v => exact execRegisterWrite_follows hmsk p a v h
  | rwpSafePointApply page sub => exact execRwpSafePointApply_follows page sub h
  | pgEnable p page => exact execPgEnable_follows hmsk p page h
  | pgDisable p page => exact execPgDisable_follows hmsk p page h
  | functionStartComplete u => exact execFunctionStartComplete_follows hmsk u h
  | functionStopComplete u => exact execFunctionStopComplete_follows hmsk u h
  | softRst p page stuck => exact execSoftRst_follows hmsk p page stuck h
  | domainCycle page => exact execDomainCycle_follows hmsk page h
  | stallDetect page => exact execStallDetect_follows hmsk page h
  | domainSwitchOn d => exact execDomainSwitchOn_follows hmsk d h
  | domainSwitchOff d => exact execDomainSwitchOff_follows hmsk d h
  | domainOffComplete d => exact execDomainOffComplete_follows hmsk d h
  | pgIfrWrite p page v => exact execPgIfrWrite_follows hmsk p page v h
  | remoteIntUpdate n cond => exact execRemoteIntUpdate_follows n cond h
  | semRead p n => exact execSemRead_follows hmsk p n h
  | semRelease p n => exact execSemRelease_follows hmsk p n h
  | sysRst p v => exact execSysRst_follows hmsk p v h
  | wdtKick p v => exact execWdtKick_follows hmsk p v h
  | watchdogExpiry => exact execWatchdogExpiry_follows hmsk h
  | mspiRequest bytes => exact execMspiRequest_follows hmsk bytes h
  | mspiDeselectEarly => exact execMspiDeselectEarly_follows h
  | remoteAccess p n off w => exact execRemoteAccess_follows hmsk p n off w h
  | remoteAgentAccess from_ id addr w => exact execRemoteAgentAccess_follows hmsk from_ id addr w h
  | remoteAnswer id code data => exact execRemoteAnswer_follows hmsk id code data h
  | remoteAccessTimeout id => exact execRemoteAccessTimeout_follows hmsk id h
  | domainWakeAccess p a w => exact execDomainWakeAccess_follows hmsk p a w h
  | domainWakeTimeout d => exact execDomainWakeTimeout_follows hmsk d h
  | terminationSense n pair0 pair1 => exact execTerminationSense_follows hmsk n pair0 pair1 h
  | glintRecognised n => exact execGlintRecognised_follows hmsk n h
  | activityRecognised n => exact execActivityRecognised_follows hmsk n h
  | trainingTimeout n => exact execTrainingTimeout_follows hmsk n h
  | failBeaconEnd n => exact execFailBeaconEnd_follows hmsk n h
  | holdoffExpiry n => exact execHoldoffExpiry_follows hmsk n h
  | speedBeacon n rates ceil keysMode strap => exact execSpeedBeacon_follows hmsk n rates ceil keysMode strap h
  | rateChangeDone n => exact execRateChangeDone_follows hmsk n h
  | eqReq n lane preset => exact execEqReq_follows hmsk n lane preset h
  | eqAck n lane preset => exact execEqAck_follows hmsk n lane preset h
  | eqPresetMeasured n lane eye => exact execEqPresetMeasured_follows hmsk n lane eye h
  | eqAdaptDone n eye0 eye1 => exact execEqAdaptDone_follows hmsk n eye0 eye1 h
  | eqDone n preset0 preset1 => exact execEqDone_follows hmsk n preset0 preset1 h
  | lockDone n swapped inverted skew => exact execLockDone_follows hmsk n swapped inverted skew h
  | rangeMeasurement n => exact execRangeMeasurement_follows hmsk n h
  | rangeBeacon n index response valid t1 t2 t3 arrival => exact execRangeBeacon_follows hmsk n index response valid t1 t2 t3 arrival h
  | roleBeacon n b => exact execRoleBeacon_follows hmsk n b h
  | parkedBeaconTimer n => exact execParkedBeaconTimer_follows n h
  | keysBeacon n cert eph beacons sig => exact execKeysBeacon_follows hmsk n cert eph beacons sig h
  | failBeacon n cause st => exact execFailBeacon_follows hmsk n cause st h
  | linkLoss n cause => exact execLinkLoss_follows hmsk n cause h
  | linkRetrain p n => exact execLinkRetrain_follows hmsk p n h
  | portStopping n => exact execPortStopping_follows hmsk n h
  | swapReq p n => exact execSwapReq_follows hmsk p n h
  | roleSwapReqMsg n cyc unit sent => exact execRoleSwapReqMsg_follows hmsk n cyc unit sent h
  | roleSwapResend n => exact execRoleSwapResend_follows hmsk n h
  | roleAccept n cyc => exact execRoleAccept_follows hmsk n cyc h
  | roleRefuse n => exact execRoleRefuse_follows hmsk n h
  | roleSwap n links => exact execRoleSwap_follows hmsk n links h
  | creditUnit n freed => exact execCreditUnit_follows hmsk n freed h
  | unitPositionFill n ecc => exact execUnitPositionFill_follows hmsk n ecc h
  | localRefill1040 n => exact execLocalRefill1040_follows hmsk n h
  | cycleBoundary => exact execCycleBoundary_follows hmsk h
  | fillSlot n d ecc => exact execFillSlot_follows hmsk n d ecc h
  | controlSlotSend n j => exact execControlSlotSend_follows hmsk n j h
  | controlSlotReceived n j nmsg keysel epoch cycno payload trailer arrival fec => exact execControlSlotReceived_follows hmsk n j nmsg keysel epoch cycno payload trailer arrival fec h
  | cycleMsg n m => exact execCycleMsg_follows hmsk n m h
  | cellReceived n slot cycno cell trailer voided corr uncorr syncErr => exact execCellReceived_follows hmsk n slot cycno cell trailer voided corr uncorr syncErr h
  | allotPropose n a => exact execAllotPropose_follows hmsk n a h
  | allotAccept n a => exact execAllotAccept_follows hmsk n a h
  | allotRefuse n a reason => exact execAllotRefuse_follows hmsk n a reason h
  | allotWithdraw n a => exact execAllotWithdraw_follows hmsk n a h
  | ackMsg n entries => exact execAckMsg_follows hmsk n entries h
  | cmHoldExpiry c => exact execCmHoldExpiry_follows c h
  | mgmtMsg n seq m => exact execMgmtMsg_follows hmsk n seq m h
  | idleReq n power cycle => exact execIdleReq_follows hmsk n power cycle h
  | idleAck n power cycle => exact execIdleAck_follows hmsk n power cycle h
  | wakeReq n cycle => exact execWakeReq_follows hmsk n cycle h
  | stateReport n power => exact execStateReport_follows hmsk n power h
  | epochCheck p n => exact execEpochCheck_follows hmsk p n h
  | epochReq p n => exact execEpochReq_follows hmsk p n h
  | epochChecksDone n => exact execEpochChecksDone_follows hmsk n h
  | epochWithdraw p n => exact execEpochWithdraw_follows hmsk p n h
  | epochAnswerTimeout n => exact execEpochAnswerTimeout_follows hmsk n h
  | epochSwap n => exact execEpochSwap_follows hmsk n h
  | epochLateSwap n => exact execEpochLateSwap_follows hmsk n h
  | epochSettleEnd n => exact execEpochSettleEnd_follows hmsk n h
  | epochSplit n => exact execEpochSplit_follows hmsk n h
  | tunLoad p => exact execTunLoad_follows hmsk p h
  | tunCommit p => exact execTunCommit_follows hmsk p h
  | tunRebase p => exact execTunRebase_follows hmsk p h
  | tunClrCnt p => exact execTunClrCnt_follows hmsk p h
  | quarantineEnd port ltn => exact execQuarantineEnd_follows hmsk port ltn h
  | twinSplitWaitEnd c => exact execTwinSplitWaitEnd_follows hmsk c h
  | contextStartComplete c => exact execContextStartComplete_follows hmsk c h
  | resyncTimeout c => exact execResyncTimeout_follows hmsk c h
  | stopDrainTimeout c => exact execStopDrainTimeout_follows hmsk c h
  | contextStopComplete c => exact execContextStopComplete_follows hmsk c h
  | contextFault c => exact execContextFault_follows hmsk c h
  | retransmitTimeout c => exact execRetransmitTimeout_follows hmsk c h
  | mergeBaseTimeout c => exact execMergeBaseTimeout_follows hmsk c h
  | openFrameTimeout c => exact execOpenFrameTimeout_follows hmsk c h
  | framePresented point sub firstNs stamp data => exact execFramePresented_follows hmsk point sub firstNs stamp data h
  | incTailFallback q c id => exact execIncTailFallback_follows hmsk q c id h
  | scrubVisit q c id idx => exact execScrubVisit_follows hmsk q c id idx h
  | ageHoldEnd => exact execAgeHoldEnd_follows h
  | descriptorEccFlush replay idx => exact execDescriptorEccFlush_follows hmsk replay idx h
  | perfUpdate now => exact execPerfUpdate_follows now h
  | perfRead p => exact execPerfRead_follows hmsk p h
  | adapterTxOpportunity pt ecc => exact execAdapterTxOpportunity_follows hmsk pt ecc h
  | mtrLoad p => exact execMtrLoad_follows hmsk p h
  | mtrCommit p => exact execMtrCommit_follows hmsk p h
  | mtrClrCnt p => exact execMtrClrCnt_follows hmsk p h
  | cfgChange p l => exact execCfgChange_follows hmsk p l h
  | configChangeTime l => exact execConfigChangeTime_follows hmsk l h
  | gateEntryChange l => exact execGateEntryChange_follows hmsk l h
  | timeLoRead p => exact execTimeLoRead_follows hmsk p h
  | sourceMeasurement off interval => exact execSourceMeasurement_follows hmsk off interval h
  | ppsEdge rising q => exact execPpsEdge_follows hmsk rising q h
  | todSentence uart b endQ => exact execTodSentence_follows hmsk uart b endQ h
  | irigFrame q doy sod year ofsMin li59 li61 => exact execIrigFrame_follows hmsk q doy sod year ofsMin li59 li61 h
  | inputLost cause => exact execInputLost_follows hmsk cause h
  | holdoverExpiry => exact execHoldoverExpiry_follows hmsk h
  | holdValidExpiry => exact execHoldValidExpiry_follows hmsk h
  | rtcUpdate => exact execRtcUpdate_follows hmsk h
  | stepCmdSet p => exact execStepCmdSet_follows hmsk p h
  | stepNotice n cycle delta => exact execStepNotice_follows hmsk n cycle delta h
  | stepTaken => exact execStepTaken_follows hmsk h
  | eviEdge edges q => exact execEviEdge_follows hmsk edges q h
  | eviGlitchEnd ins => exact execEviGlitchEnd_follows hmsk ins h
  | eviDebounceEnd ins at_ => exact execEviDebounceEnd_follows hmsk ins at_ h
  | eviFifoRead p => exact execEviFifoRead_follows hmsk p h
  | foutArm p k => exact execFoutArm_follows hmsk p k h
  | foutAction k => exact execFoutAction_follows hmsk k h
  | foutPulseEnd k => exact execFoutPulseEnd_follows hmsk k h
  | vdpContextChange c => exact execVdpContextChange_follows hmsk c h
  | farbusRequest write tun addr be data reqId tag => exact execFarbusRequest_follows hmsk write tun addr be data reqId tag h
  | farbusTransaction => exact execFarbusTransaction_follows hmsk h
  | farbusTransactionEnd remote cause addr time data => exact execFarbusTransactionEnd_follows hmsk remote cause addr time data h
  | readyTimeout addr => exact execReadyTimeout_follows hmsk addr h
  | prefetchExpiry w => exact execPrefetchExpiry_follows hmsk w h
  | atomicOp tun addr op width operand compare reqId tag => exact execAtomicOp_follows hmsk tun addr op width operand compare reqId tag h
  | mrdlk tun addr be reqId tag => exact execMrdlk_follows hmsk tun addr be reqId tag h
  | unlock reqId => exact execUnlock_follows hmsk reqId h
  | lockTimeout => exact execLockTimeout_follows hmsk h
  | fenceRead p => exact execFenceRead_follows hmsk p h
  | fenceComplete => exact execFenceComplete_follows hmsk h
  | fenceTimeout => exact execFenceTimeout_follows hmsk h
  | errorFifoPop p => exact execErrorFifoPop_follows hmsk p h
  | lsioMessage kind unit op tag arg data status rdata => exact execLsioMessage_follows hmsk kind unit op tag arg data status rdata h
  | gpioEdge pin level => exact execGpioEdge_follows hmsk pin level h
  | uartRx unit data => exact execUartRx_follows hmsk unit data h
  | pcieRetrain p => exact execPcieRetrain_follows hmsk p h
  | invGo p => exact execInvGo_follows hmsk p h
  | invalidationDone => exact execInvalidationDone_follows hmsk h
  | invSyncRead p => exact execInvSyncRead_follows hmsk p h
  | invSyncComplete late => exact execInvSyncComplete_follows hmsk late h
  | walkReadComplete c err entry => exact execWalkReadComplete_follows hmsk c err entry h
  | walkTimeout c => exact execWalkTimeout_follows hmsk c h
  | descriptorFetch c d => exact execDescriptorFetch_follows hmsk c d h
  | dmaCellBoundary t2h bytes => exact execDmaCellBoundary_follows hmsk t2h bytes h
  | dmaTailWrite p r v => exact execDmaTailWrite_follows hmsk p r v h
  | resumeRetry p c => exact execResumeRetry_follows hmsk p c h
  | resumeSkip p c => exact execResumeSkip_follows hmsk p c h
  | resumeStop p c => exact execResumeStop_follows hmsk p c h
  | faultFifoPop p => exact execFaultFifoPop_follows hmsk p h
  | dmaChannelDisable p c => exact execDmaChannelDisable_follows hmsk p c h
  | dpiLineCapture line t dsc fec stamp ns symErr data => exact execDpiLineCapture_follows hmsk line t dsc fec stamp ns symErr data h
  | dpoCellArrival c => exact execDpoCellArrival_follows hmsk c h
  | dpoLinePlayout phase ppm late => exact execDpoLinePlayout_follows hmsk phase ppm late h
  | dpoFrameStart => exact execDpoFrameStart_follows hmsk h
  | cameoTimeout => exact execCameoTimeout_follows hmsk h
  | cameoForce p v => exact execCameoForce_follows hmsk p v h
  | cameoCommit p => exact execCameoCommit_follows hmsk p h
  | auxRequest i2c read addr len data => exact execAuxRequest_follows hmsk i2c read addr len data h
  | auxAnswer status data => exact execAuxAnswer_follows hmsk status data h
  | auxFwdTimeout => exact execAuxFwdTimeout_follows hmsk h
  | monitorHpdChange atDpi level irq dpcd edid => exact execMonitorHpdChange_follows hmsk atDpi level irq dpcd edid h
  | dpaltEntered p v => exact execDpaltEntered_follows hmsk p v h
  | dpaltSettleEnd => exact execDpaltSettleEnd_follows hmsk h
  | dpaltIrqHpd p => exact execDpaltIrqHpd_follows hmsk p h
  | mgmtPipeTransfer data read => exact execMgmtPipeTransfer_follows hmsk data read h
  | acmData data => exact execAcmData_follows data h
  | setLineCoding baud stop parity bits => exact execSetLineCoding_follows baud stop parity bits h
  | setControlLineState rts => exact execSetControlLineState_follows rts h
  | dfuDetach => exact execDfuDetach_follows hmsk h
  | dfuUpload => exact execDfuUpload_follows h
  | dfuDnload block d => exact execDfuDnload_follows hmsk block d h
  | dfuClrstatus => exact execDfuClrstatus_follows hmsk h
  | usbBusReset u1 ctrl hs => exact execUsbBusReset_follows hmsk u1 ctrl hs h
  | remoteWakeSignal u1 lineK hostK => exact execRemoteWakeSignal_follows hmsk u1 lineK hostK h
  | phyPortChange phy dev speed overcurrent power => exact execPhyPortChange_follows hmsk phy dev speed overcurrent power h
  | hostTransaction port addr ep typ kind toggle data => exact execHostTransaction_follows hmsk port addr ep typ kind toggle data h
  | usbTransactionRequest phy msg resp rdata ifEps => exact execUsbTransactionRequest_follows hmsk phy msg resp rdata ifEps h
  | pavilionRepeat idx resp rdata ifEps => exact execPavilionRepeat_follows hmsk idx resp rdata ifEps h
  | usbResult port msg => exact execUsbResult_follows hmsk port msg h
  | deferStale tag => exact execDeferStale_follows hmsk tag h
  | abortDevice phy msg => exact execAbortDevice_follows hmsk phy msg h
  | periodicPoll idx resp rdata => exact execPeriodicPoll_follows hmsk idx resp rdata h
  | hostSof frame stampNs => exact execHostSof_follows hmsk frame stampNs h
  | fnOfsMsg msg => exact execFnOfsMsg_follows hmsk msg h
  | portReset atCrown r => exact execPortReset_follows hmsk atCrown r h
  | portStatusMsg port msg => exact execPortStatusMsg_follows hmsk port msg h
  | hubSuspend atCrown n rwake => exact execHubSuspend_follows hmsk atCrown n rwake h
  | hostResume atCrown n => exact execHostResume_follows hmsk atCrown n h
  | pavilionRemoteWake atCrown n => exact execPavilionRemoteWake_follows hmsk atCrown n h
  | ethFrameRx port data fcsOk ns stamp endQ cut => exact execEthFrameRx_follows hmsk port data fcsOk ns stamp endQ cut h
  | txUnderrun port => exact execTxUnderrun_follows hmsk port h
  | supervisionSend lre => exact execSupervisionSend_follows hmsk lre h
  | nodeForget lre mac => exact execNodeForget_follows hmsk lre mac h
  | ptpEventMessage port tx typ seq raw t2 t3 rx => exact execPtpEventMessage_follows hmsk port tx typ seq raw t2 t3 rx h
  | followUpSend port => exact execFollowUpSend_follows hmsk port h
  | gooseFrameMatched => exact execGooseFrameMatched_follows hmsk h
  | svFrameMatched => exact execSvFrameMatched_follows hmsk h
  | talExpiry idx => exact execTalExpiry_follows hmsk idx h
  | publicationRepeat idx => exact execPublicationRepeat_follows hmsk idx h
  | stnLoad p => exact execStnLoad_follows hmsk p h
  | stnCommit p => exact execStnCommit_follows hmsk p h
  | stnClrCnt p => exact execStnClrCnt_follows hmsk p h
  | scribeSeal => exact execScribeSeal_follows hmsk h
  | scribeWriteDone ok => exact execScribeWriteDone_follows hmsk ok h
  | scribeStart last => exact execScribeStart_follows hmsk last h
  | scribeHandover phase queueFound => exact execScribeHandover_follows hmsk phase queueFound h
  | scribeTakeOwnership => exact execScribeTakeOwnership_follows hmsk h
  | engineCrash e cause => exact execEngineCrash_follows hmsk e cause h
  | engineWatchdog e => exact execEngineWatchdog_follows hmsk e h
  | engineReloaded e read same => exact execEngineReloaded_follows hmsk e read same h
  | engineServicesReady e => exact execEngineServicesReady_follows hmsk e h
  | engRestart p e => exact execEngRestart_follows hmsk p e h
  | mbxRing p e => exact execMbxRing_follows hmsk p e h
  | mailboxTake e => exact execMailboxTake_follows hmsk e h
  | mailboxResponse e => exact execMailboxResponse_follows hmsk e h
  | mbxAck p e => exact execMbxAck_follows hmsk p e h
  | mbxPing e => exact execMbxPing_follows hmsk e h
  | mbxVersion e => exact execMbxVersion_follows hmsk e h
  | mbxLoad e m => exact execMbxLoad_follows hmsk e m h
  | unknownMailboxCommand e => exact execUnknownMailboxCommand_follows hmsk e h
  | diagnosticCommand e answer => exact execDiagnosticCommand_follows hmsk e answer h
  | sieveRun e f => exact execSieveRun_follows hmsk e f h
  | sieveLdb e => exact execSieveLdb_follows hmsk e h
  | sieveLdh e => exact execSieveLdh_follows hmsk e h
  | sieveLdw e => exact execSieveLdw_follows hmsk e h
  | sieveAnd e => exact execSieveAnd_follows hmsk e h
  | sieveOr e => exact execSieveOr_follows hmsk e h
  | sieveXor e => exact execSieveXor_follows hmsk e h
  | sieveAdd e => exact execSieveAdd_follows hmsk e h
  | sieveSub e => exact execSieveSub_follows hmsk e h
  | sieveShl e => exact execSieveShl_follows hmsk e h
  | sieveShr e => exact execSieveShr_follows hmsk e h
  | sieveCmp e => exact execSieveCmp_follows hmsk e h
  | sieveBeq e => exact execSieveBeq_follows hmsk e h
  | sieveBne e => exact execSieveBne_follows hmsk e h
  | sieveBgt e => exact execSieveBgt_follows hmsk e h
  | sieveBlt e => exact execSieveBlt_follows hmsk e h
  | sieveJmp e => exact execSieveJmp_follows hmsk e h
  | sieveLkp e => exact execSieveLkp_follows hmsk e h
  | sieveSettc e => exact execSieveSettc_follows hmsk e h
  | sieveSettun e => exact execSieveSettun_follows hmsk e h
  | sieveMark e => exact execSieveMark_follows hmsk e h
  | sieveMeter e => exact execSieveMeter_follows hmsk e h
  | sieveDrop e => exact execSieveDrop_follows hmsk e h
  | sieveCopyhost e => exact execSieveCopyhost_follows hmsk e h
  | sieveStamp e => exact execSieveStamp_follows hmsk e h
  | sieveCount e => exact execSieveCount_follows hmsk e h
  | sieveAccept e => exact execSieveAccept_follows hmsk e h
  | imemDataAccess p w => exact execImemDataAccess_follows hmsk p w h
  | progCommit p => exact execProgCommit_follows hmsk p h
  | progDisable p => exact execProgDisable_follows hmsk p h
  | progClrCnt p => exact execProgClrCnt_follows hmsk p h
  | tblCommit p => exact execTblCommit_follows hmsk p h
  | tblLoad p => exact execTblLoad_follows hmsk p h
  | stepsMaxRead p => exact execStepsMaxRead_follows hmsk p h
  | seatPinChange pinB low => exact execSeatPinChange_follows hmsk pinB low h
  | seatQualified => exact execSeatQualified_follows hmsk h
  | seatLost => exact execSeatLost_follows hmsk h
  | fseatPinChange n low => exact execFseatPinChange_follows n low h
  | feedQualified n => exact execFeedQualified_follows hmsk n h
  | feedWithdrawal n => exact execFeedWithdrawal_follows hmsk n h
  | inputValidityChange aux mv fwd => exact execInputValidityChange_follows hmsk aux mv fwd h
  | reverseVoltage aux => exact execReverseVoltage_follows hmsk aux h
  | hsRampEnd => exact execHsRampEnd_follows hmsk h
  | fetGateCheck reached => exact execFetGateCheck_follows hmsk reached h
  | fetShort => exact execFetShort_follows hmsk h
  | senseOverLimit vsns fet => exact execSenseOverLimit_follows hmsk vsns fet h
  | faultTimerExpiry e => exact execFaultTimerExpiry_follows hmsk e h
  | fastTrip vsns e expiry => exact execFastTrip_follows hmsk vsns e expiry h
  | pgQualified vin => exact execPgQualified_follows hmsk vin h
  | coolOffEnd => exact execCoolOffEnd_follows hmsk h
  | retryCountReset => exact execRetryCountReset_follows h
  | hsClear p => exact execHsClear_follows hmsk p h
  | hsOn p => exact execHsOn_follows hmsk p h
  | hsOff p => exact execHsOff_follows hmsk p h
  | hsCfgWrite p w v => exact execHsCfgWrite_follows hmsk p w v h
  | monitorAverage samples => exact execMonitorAverage_follows hmsk samples h
  | energyLoRead p => exact execEnergyLoRead_follows hmsk p h
  | brownout vor vbus byVbus => exact execBrownout_follows hmsk vor vbus byVbus h
  | finalCommitEnd => exact execFinalCommitEnd_follows hmsk h
  | thermalShutdown => exact execThermalShutdown_follows hmsk h
  | thermalRestart t => exact execThermalRestart_follows hmsk t h
  | tamperEvent src => exact execTamperEvent_follows hmsk src h
  | meshCheck mismatch => exact execMeshCheck_follows hmsk mismatch h
  | tamperCfgWrite p v => exact execTamperCfgWrite_follows hmsk p v h
  | ccAttach cc2 rp vbus => exact execCcAttach_follows hmsk cc2 rp vbus h
  | drpToggle => exact execDrpToggle_follows hmsk h
  | sinkDetach vbus => exact execSinkDetach_follows hmsk vbus h
  | sourceDetach => exact execSourceDetach_follows hmsk h
  | rpChange rp => exact execRpChange_follows hmsk rp h
  | bezelPowerUp vbus rp cc2 => exact execBezelPowerUp_follows hmsk vbus rp cc2 h
  | serviceLevelChange => exact execServiceLevelChange_follows hmsk h
  | mainPwr => exact execMainPwr_follows hmsk h
  | srcEnWrite p en => exact execSrcEnWrite_follows hmsk p en h
  | pdMessageRx sop msg crcOk early => exact execPdMessageRx_follows hmsk sop msg crcOk early h
  | pdRxPop p => exact execPdRxPop_follows hmsk p h
  | pdSend p v => exact execPdSend_follows hmsk p v h
  | pdCaDelayEnd => exact execPdCaDelayEnd_follows hmsk h
  | goodcrcTimeout => exact execGoodcrcTimeout_follows hmsk h
  | hardResetRx => exact execHardResetRx_follows hmsk h
  | hardReset p => exact execHardReset_follows hmsk p h
  | cableReset p => exact execCableReset_follows hmsk p h
  | swapHoldWrite p v => exact execSwapHoldWrite_follows hmsk p v h
  | swapHoldExpiry => exact execSwapHoldExpiry_follows h
  | pwrRoleWrite p src => exact execPwrRoleWrite_follows hmsk p src h
  | vbusFault vbus ma => exact execVbusFault_follows hmsk vbus ma h
  | vbClear p => exact execVbClear_follows hmsk p h
  | ovpThrWrite p v => exact execOvpThrWrite_follows hmsk p v h
  | targetWrite p t => exact execTargetWrite_follows hmsk p t h
  | stateEntry wake => exact execStateEntry_follows hmsk wake h
  | entryTimeout => exact execEntryTimeout_follows hmsk h
  | wakeEvent cause => exact execWakeEvent_follows hmsk cause h
  | stateExitComplete => exact execStateExitComplete_follows hmsk h
  | wakePin => exact execWakePin_follows hmsk h
  | alarmFire => exact execAlarmFire_follows hmsk h
  | domainIdleOff d => exact execDomainIdleOff_follows hmsk d h
  | linkIdleTimer n => exact execLinkIdleTimer_follows hmsk n h
  | linkSuspend n => exact execLinkSuspend_follows hmsk n h
  | linkResume n ok => exact execLinkResume_follows hmsk n ok h
  | vigilSample cause => exact execVigilSample_follows hmsk cause h
  | vreqWrite p v => exact execVreqWrite_follows hmsk p v h
  | pmbusPoll status pg0 held err => exact execPmbusPoll_follows hmsk status pg0 held err h
  | vreqTimeout => exact execVreqTimeout_follows hmsk h
  | vminDeclWrite p v => exact execVminDeclWrite_follows hmsk p v h
  | boostTick => exact execBoostTick_follows hmsk h
  | thermalHot => exact execThermalHot_follows hmsk h
  | rsCommit p => exact execRsCommit_follows hmsk p h
  | rsLoad p => exact execRsLoad_follows hmsk p h
  | rsDataAccess p w => exact execRsDataAccess_follows hmsk p w h
  | railEnd => exact execRailEnd_follows hmsk h
  | waitUs => exact execWaitUs_follows hmsk h
  | waitUsDone => exact execWaitUsDone_follows hmsk h
  | pmbWrite ok => exact execPmbWrite_follows hmsk ok h
  | pmbExpect ok => exact execPmbExpect_follows hmsk ok h
  | pinSet => exact execPinSet_follows hmsk h
  | pinWait ok => exact execPinWait_follows hmsk ok h
  | adcCheck reading => exact execAdcCheck_follows hmsk reading h
  | branchFail => exact execBranchFail_follows hmsk h
  | railScriptTimeout => exact execRailScriptTimeout_follows hmsk h
  | ksLoadNext p => exact execKsLoadNext_follows hmsk p h
  | ksSwitch p => exact execKsSwitch_follows hmsk p h
  | ksErase p => exact execKsErase_follows hmsk p h
  | ksEraseAll p => exact execKsEraseAll_follows hmsk p h
  | keyRetired idx => exact execKeyRetired_follows hmsk idx h
  | linkRotate p n => exact execLinkRotate_follows hmsk p n h
  | keyRotationDue n => exact execKeyRotationDue_follows hmsk n h
  | keyReplacementRetry n => exact execKeyReplacementRetry_follows hmsk n h
  | keyAgeLimit n => exact execKeyAgeLimit_follows hmsk n h
  | nextReady n gen eph farInit => exact execNextReady_follows hmsk n gen eph farInit h
  | katChal n data => exact execKatChal_follows hmsk n data h
  | katResp n data => exact execKatResp_follows hmsk n data h
  | keySwitchMsg n gen w => exact execKeySwitchMsg_follows hmsk n gen w h
  | switchAck n gen w => exact execSwitchAck_follows hmsk n gen w h
  | oldReleased n gen => exact execOldReleased_follows hmsk n gen h
  | keySwitchCycle n => exact execKeySwitchCycle_follows hmsk n h
  | keyReleaseCycle n => exact execKeyReleaseCycle_follows hmsk n h
  | keyLateSwitch n => exact execKeyLateSwitch_follows hmsk n h
  | mrExtGo p => exact execMrExtGo_follows hmsk p h
  | attGo p => exact execAttGo_follows hmsk p h
  | attDone => exact execAttDone_follows hmsk h
  | challengeRead p => exact execChallengeRead_follows hmsk p h
  | authSubmit p => exact execAuthSubmit_follows hmsk p h
  | authClose p => exact execAuthClose_follows hmsk p h
  | authExpiry => exact execAuthExpiry_follows hmsk h
  | otpDataWrite p v => exact execOtpDataWrite_follows hmsk p v h
  | otpProgram p => exact execOtpProgram_follows hmsk p h
  | drbgHealthFail => exact execDrbgHealthFail_follows h
  | bootB1AonUp x y z' => exact execBootB1AonUp_follows hmsk x y z' h
  | bootB2Rails mode => exact execBootB2Rails_follows hmsk mode h
  | bootB3Keys ok => exact execBootB3Keys_follows hmsk ok h
  | bootB4Image => exact execBootB4Image_follows hmsk h
  | bootB5Engines bad => exact execBootB5Engines_follows hmsk bad h
  | bootB6Configuration => exact execBootB6Configuration_follows hmsk h
  | bootB7Links quiet => exact execBootB7Links_follows hmsk quiet h
  | bootB8Running => exact execBootB8Running_follows hmsk h
  | bootStepTimeout => exact execBootStepTimeout_follows hmsk h
  | clrCnt p => exact execClrCnt_follows hmsk p h
  | resetAlt p mask => exact execResetAlt_follows hmsk p mask h
  | rbAdvance p => exact execRbAdvance_follows hmsk p h
  | loaderEnter p => exact execLoaderEnter_follows hmsk p h
  | loaderIdleTimeout => exact execLoaderIdleTimeout_follows hmsk h
  | cfgDataWrite p v => exact execCfgDataWrite_follows hmsk p v h
  | cfgCommit p => exact execCfgCommit_follows hmsk p h
  | cfgErase p => exact execCfgErase_follows hmsk p h
  | imageWriteDone ok erase => exact execImageWriteDone_follows hmsk ok erase h
  | svcUartGapTimeout => exact execSvcUartGapTimeout_follows h
  | svcMgmt seq data => exact execSvcMgmt_follows hmsk seq data h
  | console seq text => exact execConsole_follows hmsk seq text h
  | updStart seq len => exact execUpdStart_follows hmsk seq len h
  | updData seq off d => exact execUpdData_follows hmsk seq off d h
  | updEnd seq => exact execUpdEnd_follows hmsk seq h
  | updStatus seq => exact execUpdStatus_follows hmsk seq h
  | enterLoader seq => exact execEnterLoader_follows hmsk seq h
  | triggerFire => exact execTriggerFire_follows hmsk h
  | recFire p slot => exact execRecFire_follows hmsk p slot h
  | snapshotReadTimeout e => exact execSnapshotReadTimeout_follows hmsk e h
  | recordWritten => exact execRecordWritten_follows hmsk h
  | chainContinuation => exact execChainContinuation_follows hmsk h
  | triggerHoldoffEnd t => exact execTriggerHoldoffEnd_follows hmsk t h
  | flushTimer => exact execFlushTimer_follows hmsk h
  | recFlush p => exact execRecFlush_follows hmsk p h
  | flushRecordDone fails => exact execFlushRecordDone_follows hmsk fails h
  | recClear p => exact execRecClear_follows hmsk p h
  | clearEraseDone => exact execClearEraseDone_follows hmsk h
  | domainUp d => exact execDomainUp_follows hmsk d h
  | d2PowerLoss vbat => exact execD2PowerLoss_follows hmsk vbat h
  | ethLinkChange port link an speed => exact execEthLinkChange_follows hmsk port link an speed h
  | pcieLinkChange active ltssm rate cfg => exact execPcieLinkChange_follows hmsk active ltssm rate cfg h
  | dpLinkTraining dpo phase lanes rate fec => exact execDpLinkTraining_follows hmsk dpo phase lanes rate fec h
  | i2cStretchTimeout unit tag arg => exact execI2cStretchTimeout_follows hmsk unit tag arg h
  | tjUpdate t0 t1 t2 t3 => exact execTjUpdate_follows hmsk t0 t1 t2 t3 h
  | announceReceived port states gm => exact execAnnounceReceived_follows hmsk port states gm h
  | opSecondsTick => exact execOpSecondsTick_follows h
  | engineLoadDone e ok => exact execEngineLoadDone_follows hmsk e ok h
  | usbdSuspendChange suspended addr cfg rwake => exact execUsbdSuspendChange_follows hmsk suspended addr cfg rwake h

end Sys2Proof.Machine
end

