-- ==== Sys2Proof/Laws/FolStep.lean ====
section
/-!
SUPPORT. `Follows` for the operations and meanings of `Step.lean`.
-/

namespace Sys2Proof.Machine

open Host (Outcome)

set_option linter.unusedTactic false
set_option linter.unreachableTactic false
set_option linter.unusedSimpArgs false
set_option linter.unusedVariables false

/-- What a step leaves, with the command at the front taken out of the queue. -/
theorem step_follows (s : State) :
    ∃ t, step s = .next t ∧ Follows 1048575 { s with pending := s.pending.tail } t := by
  unfold step
  split
  · next h =>
    exact ⟨_, rfl, State.tick_follows (by decide)
      ⟨by rw [h]; rfl, List.prefix_refl _, le_refl _, id, fun p _ => by cases p <;> rfl⟩⟩
  · next c rest h =>
    rw [h]
    exact exec_follows c (full_maskOf _) (Follows.refl _ _)

end Sys2Proof.Machine
end

