-- ==== Sys2Proof/Tests/Slice0.lean ====
section
/-!
SUPPORT. Tests: ill-formed commands that the check refuses, small tests whose expected results come from the spec's text, and for each
statement a state and operands that meet the hypotheses of each of its clauses together, at boundary values of their ranges.
-/

set_option Elab.async false

namespace Sys2Proof.Machine

/-! ## Setters that only the witnesses use -/

/-- Change the girdle's part. -/
def State.modGird (s : State) (f : GirdleS → GirdleS) : State := { s with gird := f s.gird }

/-- Change the scheduler's part. -/
def State.modSch (s : State) (f : SchedS → SchedS) : State := { s with sch := f s.sch }

/-- Set the identifiers in quarantine. -/
def State.quarS (s : State) (l : List Quar) : State := { s with quar := l }

/-- Set the LIFE of pages to OFF. -/
def State.lifeOffs (s : State) (l : List Nat) : State := foldS l (fun s p => s.wr (PG_STATE_LIFE p) 0) s

end Sys2Proof.Machine

namespace Sys2Proof.Tests

open Sys2Proof Sys2Proof.Machine
open Host (Outcome)

/-! ## Well-formed commands -/

/-- A page number beyond the pages, a domain beyond D15, a port beyond 2, a lane beyond 1, a context beyond 255, a channel beyond 31, an
engine beyond 15, a value wider than a word, an address beyond the register space, and the other indices out of range are refused. -/
theorem test_illFormed_refused :
    ([.pgEnable .pcie 64, .domainSwitchOn 16, .trainingTimeout 3, .eqReq 0 2 0, .contextStartComplete 256, .dmaChannelDisable .pcie 32,
      .engineReloaded 16 true true, .sysRst .pcie (2 ^ 32), .registerWrite .pcie 262144 0, .registerWrite .pcie 0x64 (2 ^ 32),
      .semRead .pcie 32, .remoteIntUpdate 15 true, .functionStartComplete 96, .foutArm .pcie 8, .cfgChange .pcie 7, .recFire .pcie 64,
      .targetWrite .pcie 8, .fillSlot 0 3840 []] : List Instr).all (fun c => !c.wf) = true := by decide

/-- The largest index of each kind is accepted. -/
theorem test_largestIndex_accepted :
    ([.pgEnable .pcie 63, .domainSwitchOn 15, .trainingTimeout 2, .eqReq 2 1 0, .contextStartComplete 255, .dmaChannelDisable .pcie 31,
      .engineReloaded 15 true true, .sysRst .pcie (2 ^ 32 - 1), .registerWrite .pcie 262143 0, .semRead .pcie 31,
      .functionStartComplete 95] : List Instr).all (fun c => c.wf) = true := by decide

/-! ## A small state -/

/-- Words of a chip that is up: every page enabled and ON, every engine RUNNING. -/
def upWords : Tbl Word :=
  (List.range 39).flatMap (fun n => [(0x1000 * n + 8, 1#32)] ++
    (if [0, 1, 2, 3, 4, 5, 10].contains n then [] else [(0x1000 * n + 12, 18#32)]) ++
    (if n = 11 then (List.range 16).map (fun e => (0xB104 + 16 * e, 2#32)) else []))

/-- A chip that is up: all domains on, time 1,000 s. -/
def up : State :=
  { State.reset with
    words := upWords
    time := { State.reset.time with sec := 1000, begun := 8000000 }
    chip := { State.reset.chip with doms := (List.range 16).map (fun d => (d, ⟨.on, false, false⟩)) } }

/-- The same without register words. -/
def bare : State := { up with words := [] }

/-- The next state of a command, or the state itself. -/
def after (c : Outcome State Fault Refusal) (s : State) : State :=
  match c with
  | .next t => t
  | _ => s

/-! ## Values from the spec -/

theorem test_reset_wf : State.reset.wf = true := by decide +kernel

theorem test_up_wf : up.wf = true := by decide +kernel

/-- Bringing up the core rail (`17_power_states.md`): 0.80 V with the exponent −9 is 410. -/
theorem test_voutValue : voutValue 0x17 20 = 410 := by decide

/-- The girdle limits of R92. -/
theorem test_girdleLimit : girdleLimit 0 = 20000 ∧ girdleLimit 19 = 20000 ∧ girdleLimit 20 = 32000 ∧ girdleLimit 40 = 41250 := by decide

/-- Words of program 4 of the GOOSE example (`14_facets_and_sieve.md`): LDH s1, [12]; LDH s1, [s2 + 12]; CMP s1, #0x8100; BNE +3. -/
theorem test_sieveWords : svDecode 0x0880000C = ⟨opLdh, 1, 0, false, 12⟩ ∧ svDecode 0x08A8000C = ⟨opLdh, 1, 2, true, 12⟩ ∧
    svDecode 0x3C808100 = ⟨opCmp, 1, 0, false, 0x8100⟩ ∧ svDecode 0x44000003 = ⟨opBne, 0, 0, false, 3⟩ := by decide

/-- The rest of that program: LKP s4, s3, #1; SETTUN s4; SETTC #7; COUNT #0x10; ACCEPT. -/
theorem test_sieveWords_actions : svDecode 0x62300001 = ⟨opLkp, 4, 3, false, 1⟩ ∧ svDecode 0x84480000 = ⟨opSettun, 0, 4, true, 0⟩ ∧
    svDecode 0x80000007 = ⟨opSettc, 0, 0, false, 7⟩ ∧ (svDecode 0x9C000010).op = opCount ∧ (svDecode 0xA0000000).op = opAccept := by
  decide

/-- A read of a free semaphore takes it for the reader's path (R44). -/
theorem test_semRead_takes :
    let t := after (execSemRead .mspi 31 up) up
    t.on (SYS_SEM_HELD 31) = true ∧ t.rd (SYS_SEM_IF 31) = Path.mspi.num := by decide +kernel

/-- A release by another path frees it (R44). -/
theorem test_semRelease_frees :
    (after (execSemRelease .pcie 31 ((up.flag (SYS_SEM_HELD 31) true).wr (SYS_SEM_IF 31) 2)) up).on (SYS_SEM_HELD 31) = false := by
  decide +kernel

/-- Re-enable during a stop (`02_register_pages.md`): the stop goes on with EN_PENDING. -/
theorem test_enable_duringStop :
    let t := after (execPgEnable .pcie 17 (up.wr (PG_STATE_LIFE 17) lifeStopping)) up
    t.rd (PG_STATE_LIFE 17) = 3 ∧ t.on (PG_STATE_EN_PENDING 17) = true := by decide +kernel

/-- A cold start performs step 0 with D0 up. -/
theorem test_coldStart_step : let t := after (execColdStart none false State.reset) State.reset
    t.step_ = 0 ∧ t.chip.d0Up = true := by decide +kernel

/-- A tick of an idle block takes one nanosecond. -/
theorem test_tick_nanosecond : (after (step bare) bare).time.ns = 1 := by decide +kernel

/-- A command at the front of the queue leaves the rest of the queue. -/
theorem test_step_takesFront : (after (step { bare with pending := [.mspiDeselectEarly, .opSecondsTick] }) bare).pending = [.opSecondsTick] := by
  decide +kernel

/-! ## Lemmas for the witnesses -/

theorem digest_modEp (s : State) (n : Nat) (f : Epoch → Epoch) (t m : Nat) : (s.modEp n f).digest t m = s.digest t m := rfl

theorem native_modEp (s : State) (n : Nat) (f : Epoch → Epoch) (m : Nat) : (s.modEp n f).native m = s.native m := rfl

theorem epochDiffers (d : Nat) (h : (up.goT 0 tActive).digest txSh 0 = d) :
    ∃ (s : State) (n : Nat) (l : LastChange), s.native n = true ∧
      (s.ep n).lateDue = true ∧ (s.ep n).split = false ∧ (s.ep n).last = some l ∧ l.swapped = false ∧ s.digest txSh n ≠ l.digTx :=
  ⟨(up.goT 0 tActive).modEp 0 (fun e => { e with lateDue := true, split := false, last := some ⟨7999000, d + 1, 0, false⟩ }), 0,
    ⟨7999000, d + 1, 0, false⟩, by rw [native_modEp]; decide +kernel, by rw [State.modEp_ep], by rw [State.modEp_ep],
    by rw [State.modEp_ep], rfl, by rw [digest_modEp, h]; exact (Nat.lt_succ_self d).ne⟩

/-! ## Witnesses -/

/-- A state with a command waiting, and one whose queue is empty. -/
theorem witness_StepRunsFront : ∃ s : State, s.pending = [] := ⟨up, rfl⟩

/-- Two canonical states, their steps, and next states that read the same. -/
theorem witness_StepKeepsCanonicalWords :
    ∃ s t : State, s.wf = true ∧ step s = .next t ∧ ∀ a, t.word a = t.word a :=
  ⟨bare, bare.tick, by decide +kernel, rfl, fun _ => rfl⟩

/-- A command that answers a next state and leaves a part that it does not touch. -/
theorem witness_FramesByPart :
    ∃ (c : Instr) (s t : State) (p : Part), exec c s = .next t ∧ p ∉ touches c :=
  ⟨.mspiDeselectEarly, up, up, .boot, rfl, by decide⟩

theorem witness_RegisterAccessCommands :
    (∃ (s : State) (p : Path) (a : Nat) (v : Nat), Reaches s p (wordAddr a) ∧ wordAddr a / 0x1000 < 39 ∧ 0x40 ≤ wordAddr a % 0x1000
      ∧ rowsAt (wordAddr a) ≠ [] ∧ s.writeCode p (wordAddr a) (v % 2 ^ 32) = 0) ∧
    (∃ (s : State) (p : Path) (a : Nat) (v : Nat) (c : Nat), Reaches s p (wordAddr a) ∧ wordAddr a / 0x1000 < 39 ∧ 0x40 ≤ wordAddr a
      % 0x1000 ∧ rowsAt (wordAddr a) ≠ [] ∧ s.writeCode p (wordAddr a) (v % 2 ^ 32) = c ∧ c ≠ 0) ∧
    (∃ (s : State) (p : Path) (a : Nat), Reaches s p (wordAddr a) ∧ wordAddr a / 0x1000 < 39 ∧ 0x40 ≤ wordAddr a % 0x1000 ∧ rowsAt
      (wordAddr a) = []) ∧
    (∃ (s : State) (p : Path) (a : Nat), Reaches s p 0 ∧ 39 ≤ wordAddr a / 0x1000) ∧
    (∃ (s : State) (p : Path) (a : Nat), Reaches s p (wordAddr a) ∧ wordAddr a / 0x1000 < 39 ∧ wordAddr a % 0x1000 < 0x40 ∧ headerRw
      (wordAddr a % 0x1000) = false) ∧
    (∃ (s : State) (p : Path) (n : Nat), Reaches s p (0x1000 * n + 0x18) ∧ n < 39) ∧
    (∃ (s : State) (p : Path) (n : Nat), n < 32 ∧ Reaches s p (SYS_SEM_HELD n).addr ∧ s.on (SYS_SEM_HELD n) = false) ∧
    (∃ (s : State) (p : Path) (n : Nat), n < 32 ∧ Reaches s p (SYS_SEM_HELD n).addr ∧ s.on (SYS_SEM_HELD n) = true) ∧
    (∃ (s : State) (p : Path) (n : Nat), n < 32 ∧ Reaches s p (SYS_SEM_HELD n).addr ∧ s.chip.rstHeld = none) ∧
    (∃ (s : State) (p : Path) (v : Nat), Reaches s p SYS_RST_KEY.addr ∧ v % 2 ^ 17 = 0x15A5A ∧ s.chip.finalRun = false ∧ v < 2 ^ 17) ∧
    (∃ (s : State) (p : Path) (v : Nat), Reaches s p SYS_RST_KEY.addr ∧ v % 2 ^ 17 ≠ 0x15A5A) ∧
    (∃ (s : State) (p : Path), Reaches s p SYS_WDT_KICK.addr ∧ s.on SYS_WDT_CTRL_EN = true ∧ s.chip.rstHeld = none) ∧
    (∃ (s : State) (p : Path) (v : Nat), Reaches s p SYS_WDT_KICK.addr ∧ v % 2 ^ 32 ≠ 0xC3C3) ∧
    (∃ (s : State) (n : Nat), s.crown = true ∧ 1 ≤ n ∧ n ≤ 14 ∧ s.chip.d0Up = true) :=
  ⟨⟨up, Path.pcie, 0x64, 4294967301, by unfold Reaches; decide +kernel⟩,
   ⟨up, Path.pcie, 0x60, 1, 2, by unfold Reaches; decide +kernel⟩,
   ⟨up, Path.pcie, 0x0FFC, by unfold Reaches; decide +kernel⟩,
   ⟨up, Path.pcie, 0x27000, by unfold Reaches; decide +kernel⟩,
   ⟨up, Path.pcie, 4294967301, by unfold Reaches; decide +kernel⟩,
   ⟨up, Path.pcie, 38, by unfold Reaches; decide +kernel⟩,
   ⟨(up).flag (SYS_SEM_HELD 31) false, Path.pcie, 31, by unfold Reaches; decide +kernel⟩,
   ⟨(up).flag (SYS_SEM_HELD 31) true, Path.pcie, 31, by unfold Reaches; decide +kernel⟩,
   ⟨(up).modChip (fun zz => { zz with rstHeld := none }), Path.pcie, 31, by unfold Reaches; decide +kernel⟩,
   ⟨(up).modChip (fun zz => { zz with finalRun := false }), Path.pcie, 0x15A5A, by unfold Reaches; decide +kernel⟩,
   ⟨up, Path.pcie, 4294967301, by unfold Reaches; decide +kernel⟩,
   ⟨((up).flag SYS_WDT_CTRL_EN true).modChip (fun zz => { zz with rstHeld := none }), Path.pcie, by unfold Reaches; decide +kernel⟩,
   ⟨up, Path.pcie, 4294967301, by unfold Reaches; decide +kernel⟩,
   ⟨((up).flag SYS_TREE_POS_CROWN true).modChip (fun zz => { zz with d0Up := true }), 14, by decide +kernel⟩⟩

theorem witness_RemoteAndManagementCommands_a :
    (∃ (s : State) (n : Nat), s.chip.d0Up = true ∧ s.crown = true ∧ n < 4 ∧ s.on (SYS_REMWIN_EN n) = true ∧ s.chip.tree.any (fun e
      => e.1 == s.rd (SYS_REMWIN_CHIP n)) = true) ∧
    (∃ (s : State) (n : Nat), s.chip.d0Up = true ∧ s.crown = true ∧ n < 4 ∧ s.on (SYS_REMWIN_EN n) = false) ∧
    (∃ (s : State) (p : Path) (n : Nat), s.chip.d0Up = true ∧ (p = .mspi ∨ p = .service) ∧ n < 16) ∧
    (∃ (s : State), s.engUp 5 = true) ∧
    (∃ (s : State) (i : Nat) (r : RemAcc), s.chip.remote.find? (fun r => r.id == i) = some r) ∧
    (∃ (s : State) (i : Nat), s.chip.remote.find? (fun r => r.id == i) = none) ∧
    (∃ (s : State), s.engUp 5 = true ∧ s.chip.d0Up = true) ∧
    (∃ (s : State) (b : List Byte), s.chip.d0Up = true ∧ 10 < b.length ∧ beNat ((b.drop 9).take 1) ≠ crc8 (b.take 9)) ∧
    (∃ (s : State) (b : List Byte), s.chip.d0Up = true ∧ b.length = 10 ∧ beNat ((b.drop 9).take 1) ≠ crc8 (b.take 9)) ∧
    (∃ (s : State) (b : List Byte), s.chip.d0Up = true ∧ 10 ≤ b.length ∧ beNat ((b.drop 9).take 1) = crc8 (b.take 9) ∧ (beNat
      ((b.take 9).take 1) = 2 ∨ beNat ((b.take 9).take 1) = 3)) ∧
    (∃ (b : List Byte), b.length < 10) ∧
    (∃ (s : State) (d : List Byte), s.iface 0 = true ∧ s.on USBD_STATUS_SUSPENDED = false ∧ s.chip.mgmt = [] ∧ mgmtWhole d = true) ∧
    (∃ (s : State) (d : List Byte), s.uartUp = true ∧ s.boot.uartLast = none ∧ mgmtWhole d = false) ∧
    (∃ (s : State) (d : List Byte), s.uartUp = true ∧ s.boot.uartLast = none ∧ mgmtWhole d = true ∧ s.chip.mgmt = []) :=
  ⟨⟨(((((up).modChip (fun zz => { zz with d0Up := true })).flag SYS_TREE_POS_CROWN true).flag (SYS_REMWIN_EN 0) true).modChip (fun r
     => { r with tree := [(3, (0, 0, 0))] })).wr (SYS_REMWIN_CHIP 0) 3, 0, by decide +kernel⟩,
   ⟨(((up).modChip (fun zz => { zz with d0Up := true })).flag SYS_TREE_POS_CROWN true).flag (SYS_REMWIN_EN 3) false, 3,
     by decide +kernel⟩,
   ⟨(up).modChip (fun zz => { zz with d0Up := true }), Path.mspi, 15, by decide +kernel⟩,
   ⟨up, by decide +kernel⟩,
   ⟨(up).modChip (fun r => { r with remote := [(⟨1, 3, ⟨.pcie, 0x40, false, 7⟩⟩ : RemAcc)] }), 1, (⟨1, 3, ⟨.pcie, 0x40, false, 7⟩⟩ :
     RemAcc), by decide +kernel⟩,
   ⟨up, 4294967301, by decide +kernel⟩,
   ⟨(up).modChip (fun zz => { zz with d0Up := true }), by decide +kernel⟩,
   ⟨(up).modChip (fun zz => { zz with d0Up := true }), (List.replicate 11 1 : List Byte), by decide +kernel⟩,
   ⟨(up).modChip (fun zz => { zz with d0Up := true }), (List.replicate 10 1 : List Byte), by decide +kernel⟩,
   ⟨(up).modChip (fun zz => { zz with d0Up := true }), ([2, 0, 0, 0, 100, 0, 0, 0, 5, 202, 0, 0, 0] : List Byte), by decide +kernel⟩,
   ⟨(List.replicate 9 1 : List Byte), by decide +kernel⟩,
   ⟨(((up).flag USBD_STATUS_SUSPENDED false).modChip (fun zz => { zz with mgmt := [] })).wr USBD_STATUS_STATE 3, (List.replicate 16
     0 : List Byte), by decide +kernel⟩,
   ⟨(up).modBoot (fun zz => { zz with uartLast := none }), ([] : List Byte), by decide +kernel⟩,
   ⟨((up).modBoot (fun zz => { zz with uartLast := none })).modChip (fun zz => { zz with mgmt := [] }), (List.replicate 16 0 : List
     Byte), by decide +kernel⟩⟩

theorem witness_RemoteAndManagementCommands_b :
    (∃ (s : State) (d : Nat), (s.dom d).phase = .rising ∧ s.chip.d0Up = true) ∧
    (∃ (s : State) (p : Path) (a : Nat), s.chip.d0Up = true ∧ wordAddr a / 0x1000 < 39 ∧ 0x40 ≤ wordAddr a % 0x1000 ∧ (s.open_
      (wordAddr a / 0x1000)).any (fun y => y.path == p) = false ∧ s.on (PG_STATE_DOMAIN_UP (wordAddr a / 0x1000)) = false ∧ s.on
      (PG_STATE_WEDGED (wordAddr a / 0x1000)) = false) ∧
    (∃ (s : State) (d : Nat), s.domOn d = false) ∧
    (∃ (s : State), s.step_ = 6 ∧ s.on BOOT_STATUS_LOADER = false ∧ s.svc.reduced = false ∧ (s.altOn 6 = true ∨ s.rd
      BOOT_STATUS_BOOTSEL = 2)) ∧
    (∃ (s : State), s.step_ = 6 ∧ s.on BOOT_STATUS_LOADER = false ∧ s.svc.reduced = false ∧ s.altOn 6 = false ∧ s.rd
      BOOT_STATUS_BOOTSEL ≠ 2 ∧ s.cfgCount = none) ∧
    (∃ (s : State) (n : Nat), s.step_ = 6 ∧ s.on BOOT_STATUS_LOADER = false ∧ s.svc.reduced = false ∧ s.altOn 6 = false ∧ s.rd
      BOOT_STATUS_BOOTSEL ≠ 2 ∧ s.cfgCount = some n) :=
  ⟨⟨((up).setDom 4294967301 { phase := .rising }).modChip (fun zz => { zz with d0Up := true }), 4294967301, by decide +kernel⟩,
   ⟨(((up).modChip (fun zz => { zz with d0Up := true })).flag (PG_STATE_DOMAIN_UP (wordAddr 0x1040 / 0x1000)) false).flag
     (PG_STATE_WEDGED (wordAddr 0x1040 / 0x1000)) false, Path.pcie, 0x1040, by decide +kernel⟩,
   ⟨(up).setDom 3 { phase := .off }, 3, by decide +kernel⟩,
   ⟨((((up).wr BOOT_STATUS_STEP 6).flag BOOT_STATUS_LOADER false).modSvc (fun zz => { zz with reduced := false })).setBit
     BOOT_STATUS_ALT 3 true, by decide +kernel⟩,
   ⟨((((up).wr BOOT_STATUS_STEP 6).flag BOOT_STATUS_LOADER false).modSvc (fun zz => { zz with reduced := false })).wr
     BOOT_STATUS_BOOTSEL (2+1), by decide +kernel⟩,
   ⟨(((((up).wr BOOT_STATUS_STEP 6).flag BOOT_STATUS_LOADER false).modSvc (fun zz => { zz with reduced := false })).wr
     BOOT_STATUS_BOOTSEL (2+1)).modBoot (fun b =>
     { b with cfg := [(0,0x57434647),(1,1),(2,0),(3,0),(4,0x64),(5,1),(6,1032361356)] }), 1, by decide +kernel⟩⟩

theorem witness_LaneTrainingCompletes :
    (∃ (s : State) (n : Nat), s.inT n tDetect = true ∧ s.mode1040 n = false) ∧
    (∃ (s : State) (n : Nat), s.inT n tDetect = true ∧ s.mode1040 n = false ∧ (s.tr n).pairWarned = false) ∧
    (∃ (s : State) (n : Nat), s.training n = true ∧ s.tstate n ≠ tParked ∧ s.tstate n ≠ tCycle) ∧
    (∃ (s : State) (n : Nat) (r : Nat), s.inT n tSpeed = true ∧ (s.tr n).chosen = some r ∧ r < 3) ∧
    (∃ (s : State) (n : Nat), s.inT n tEqualize = true) ∧
    (∃ (s : State) (n : Nat) (lane : Nat), s.inT n tEqualize = true ∧ lane ≠ 0) ∧
    (∃ (s : State) (n : Nat) (eye : Nat) (p : Nat), s.inT n tEqualize = true ∧ (s.tr n).run0 = some p ∧ p < 15 ∧ eye < 256 ∧ (s.tr
      n).best0.1 < eye) ∧
    (∃ (s : State) (n : Nat), s.inT n tEqualize = true ∧ s.mode1040 n = false ∧ s.on (LNK_CTRL_FIXED_EQ n).inForce = false ∧ (s.tr
      n).sweep0 = true ∧ (s.tr n).sweep1 = true ∧ (s.tr n).eqSelf = false ∧ 77 ≤ s.rd (LNK_EQ_EYE0 n) ∧ 77 ≤ s.rd (LNK_EQ_EYE1 n) ∧
      (s.tr n).eqFar = false) ∧
    (∃ (s : State) (n : Nat), s.inT n tEqualize = true ∧ (s.tr n).eqSelf = true ∧ (s.tr n).asked = true) ∧
    (∃ (s : State) (n : Nat), s.inT n tEqualize = true ∧ (s.tr n).eqSelf = true ∧ (s.tr n).asked = false) ∧
    (∃ (s : State) (n : Nat), s.inT n tDetect = true ∧ s.mode1040 n = true) :=
  ⟨⟨((up).goT 2 tDetect).flag (LNK_STATUS_MODE1040 2) false, 2, by decide +kernel⟩,
   ⟨(((up).goT 2 tDetect).flag (LNK_STATUS_MODE1040 2) false).modTr 2 (fun zz => { zz with pairWarned := false }), 2,
     by decide +kernel⟩,
   ⟨(up).goT 2 tSpeed, 2, by decide +kernel⟩,
   ⟨((up).goT 2 tSpeed).modTr 2 (fun zz => { zz with chosen := some 2 }), 2, 2, by decide +kernel⟩,
   ⟨(up).goT 2 tEqualize, 2, by decide +kernel⟩,
   ⟨(up).goT 2 tEqualize, 2, 1, by decide +kernel⟩,
   ⟨((up).goT 2 tEqualize).modTr 2 (fun zz => { zz with run0 := some 1 }), 2, 255, 1, by decide +kernel⟩,
   ⟨(((((((((up).goT 2 tEqualize).flag (LNK_STATUS_MODE1040 2) false).flag (LNK_CTRL_FIXED_EQ 2).inForce false).modTr 2 (fun zz =>
     { zz with sweep0 := true })).modTr 2 (fun zz => { zz with sweep1 := true })).modTr 2 (fun zz =>
     { zz with eqSelf := false })).wr (LNK_EQ_EYE0 2) 77).wr (LNK_EQ_EYE1 2) 77).modTr 2 (fun zz => { zz with eqFar := false }), 2,
     by decide +kernel⟩,
   ⟨(((up).goT 2 tEqualize).modTr 2 (fun zz => { zz with eqSelf := true })).modTr 2 (fun zz => { zz with asked := true }), 2,
     by decide +kernel⟩,
   ⟨(((up).goT 2 tEqualize).modTr 2 (fun zz => { zz with eqSelf := true })).modTr 2 (fun zz => { zz with asked := false }), 2,
     by decide +kernel⟩,
   ⟨((up).goT 2 tDetect).flag (LNK_STATUS_MODE1040 2) true, 2, by decide +kernel⟩⟩

theorem witness_TrainingFailureRecorded :
    (∃ (s : State) (n : Nat), s.training n = true ∧ s.tstate n ≠ tParked ∧ s.tstate n ≠ tCycle) ∧
    (∃ (s : State) (n : Nat) (cause : Nat) (st : Nat), s.training n = true ∧ cause < 256 ∧ st < 16) ∧
    (∃ (s : State) (n : Nat) (rates : Nat), s.inT n tSpeed = true ∧ (s.tr n).chosen = none ∧ rates % 8 = 0) ∧
    (∃ (s : State) (n : Nat) (skew : Nat), s.inT n tLock = true ∧ s.mode1040 n = false ∧ 64 < skew) ∧
    (∃ (s : State) (n : Nat), s.inT n tEqualize = true ∧ s.mode1040 n = false ∧ s.on (LNK_CTRL_FIXED_EQ n).inForce = false ∧ (s.tr
      n).sweep0 = true ∧ (s.tr n).sweep1 = true ∧ (s.tr n).eqSelf = false ∧ s.rd (LNK_EQ_EYE0 n) < 77) :=
  ⟨⟨(up).goT 2 tSpeed, 2, by decide +kernel⟩,
   ⟨(up).goT 2 tSpeed, 2, 255, 15, by decide +kernel⟩,
   ⟨((up).goT 0 tSpeed).modTr 0 (fun zz => { zz with chosen := none }), 0, 0, by decide +kernel⟩,
   ⟨((up).goT 2 tLock).flag (LNK_STATUS_MODE1040 2) false, 2, 65, by decide +kernel⟩,
   ⟨((((((up).goT 2 tEqualize).flag (LNK_STATUS_MODE1040 2) false).flag (LNK_CTRL_FIXED_EQ 2).inForce false).modTr 2 (fun zz =>
     { zz with sweep0 := true })).modTr 2 (fun zz => { zz with sweep1 := true })).modTr 2 (fun zz => { zz with eqSelf := false }),
     2, by decide +kernel⟩⟩

theorem witness_RangingAndRoles_first :
    (∃ (s : State) (n : Nat) (skew : Nat), s.inT n tLock = true ∧ s.mode1040 n = false ∧ skew ≤ 64) ∧
    (∃ (s : State) (n : Nat), s.inT n tLock = true ∧ s.mode1040 n = true) ∧
    (∃ (s : State) (n : Nat), s.inT n tRange = true ∧ (s.tr n).rangeSent < 64) ∧
    (∃ (s : State) (n : Nat), s.inT n tRange = true) ∧
    (∃ (s : State) (n : Nat) (i : Nat), s.inT n tRange = true ∧ i < 63) ∧
    (∃ (s : State) (n : Nat), s.inT n tRange = true ∧ 48 ≤ (s.tr n).rangeVals.length ∧ spread (s.tr n).rangeVals ≤ 64) ∧
    (∃ (s : State) (n : Nat), s.inT n tParked = true ∧ (s.tr n).parkedAs = some (s.ownRole n)) ∧
    (∃ (s : State) (n : Nat) (b : RoleBeacon), s.inT n tRole = true ∧ decideRole (s.ownRole n) b = (.parked, false, false)) ∧
    (∃ (s : State) (n : Nat) (b : RoleBeacon), s.inT n tRole = true ∧ b.unitId = s.chip.unitId) ∧
    (∃ (s : State) (n : Nat), s.inT n tParked = true ∧ (s.tr n).parkedAs ≠ some (s.ownRole n)) ∧
    (∃ (s : State) (n : Nat) (b : RoleBeacon) (twin : Bool) (second : Bool), s.inT n tRole = true ∧ decideRole (s.ownRole n) b =
      (.parent, twin, second)) ∧
    (∃ (s : State) (n : Nat) (b : RoleBeacon) (twin : Bool) (second : Bool), s.inT n tRole = true ∧ decideRole (s.ownRole n) b =
      (.child, twin, second)) :=
  ⟨⟨((up).goT 2 tLock).flag (LNK_STATUS_MODE1040 2) false, 2, 64, by decide +kernel⟩,
   ⟨((up).goT 2 tLock).flag (LNK_STATUS_MODE1040 2) true, 2, by decide +kernel⟩,
   ⟨((up).goT 2 tRange).modTr 0 (fun r => { r with rangeSent := 63 }), 2, by decide +kernel⟩,
   ⟨(up).goT 2 tRange, 2, by decide +kernel⟩,
   ⟨(up).goT 2 tRange, 2, 62, by decide +kernel⟩,
   ⟨((up).goT 0 tRange).modTr 0 (fun r => { r with rangeVals := List.replicate 48 7 }), 0, by decide +kernel⟩,
   ⟨(((up).goT 0 tParked) |> (fun zq_ => State.modTr zq_ 0 (fun r_ => { r_ with parkedAs := some (State.ownRole zq_ 0) }))), 0,
     by decide +kernel⟩,
   ⟨(((up).goT 2 tRole).modChip (fun r => { r with strap := 2, role := 2, unitId := 9 })).wr SYS_TREE_POS_UP_PORT 3, 2, (⟨5, 0x3160,
     2, 2, false, 1, 0, 0, 0, 0⟩ : RoleBeacon), by decide +kernel⟩,
   ⟨(up).goT 2 tRole, 2, (⟨0, 0x3160, 0, 0, false, 0, 0, 0, 0, 0⟩ : RoleBeacon), by decide +kernel⟩,
   ⟨(up).goT 0 tParked, 0, by decide +kernel⟩,
   ⟨(((up).goT 2 tRole).modChip (fun r => { r with strap := 1, role := 1, unitId := 9 })).wr SYS_TREE_POS_UP_PORT 3, 2, (⟨5, 0x3160,
     2, 2, false, 1, 0, 0, 0, 0⟩ : RoleBeacon), false, false, by decide +kernel⟩,
   ⟨(((up).goT 2 tRole).modChip (fun r => { r with strap := 2, role := 2, unitId := 9 })).wr SYS_TREE_POS_UP_PORT 3, 2, (⟨5, 0x3160,
     1, 1, false, 1, 0, 5, 0, 0⟩ : RoleBeacon), false, false, by decide +kernel⟩⟩

theorem witness_RangingAndRoles_second :
    (∃ (s : State) (n : Nat), s.native n = true ∧ (s.tr n).swapResend = true) ∧
    (∃ (s : State) (n : Nat) (cyc : Nat) (sent : Nat), s.native n = true ∧ (s.tr n).swap = none ∧ s.swapRefusal n cyc sent = 0) ∧
    (∃ (s : State) (n : Nat) (cyc : Nat) (sent : Nat), s.native n = true ∧ (s.tr n).swap = none ∧ s.swapRefusal n cyc sent ≠ 0) ∧
    (∃ (s : State) (n : Nat) (c : Nat) (sent : Nat), s.native n = true ∧ (s.tr n).swap = some ⟨c, sent, true, false⟩) ∧
    (∃ (s : State) (n : Nat) (w : Swap), s.native n = true ∧ (s.tr n).swap = some w ∧ w.accepted = true ∧ cycGe s.cycle w.cycle =
      true ∧ s.stepMoves w.cycle = false ∧ s.crown = true) ∧
    (∃ (s : State) (n : Nat) (w : Swap), s.native n = true ∧ (s.tr n).swap = some w ∧ w.accepted = true ∧ cycGe s.cycle w.cycle =
      true ∧ s.stepMoves w.cycle = false ∧ s.crown = false) ∧
    (∃ (s : State) (p : Path) (n : Nat), s.native n = true ∧ (s.tr n).swap = none ∧ s.managerDown n = false ∧ Reaches s p
      (LNK_ROLE_CTRL_SWAP_REQ n).addr) ∧
    (∃ (s : State) (n : Nat) (c : Nat) (own : Nat) (sent : Nat), s.native n = true ∧ (s.tr n).swap = some ⟨c, own, true, false⟩ ∧
      own ≠ sent ∧ cycLater own sent = false) :=
  ⟨⟨(((up) |> (fun zq => State.flag (State.goT zq 2 tActive) (LNK_STATUS_MODE1040 2) false))).modTr 2 (fun zz =>
     { zz with swapResend := true }), 2, by decide +kernel⟩,
   ⟨(((((up) |> (fun zq => State.flag (State.goT zq 0 tActive) (LNK_STATUS_MODE1040 0) false))).modTr 0 (fun zz =>
     { zz with swap := none })).flag SYS_TREE_POS_CROWN true).flag (LNK_STATUS_PARENT 0) true, 0, 8000004, 8000000,
     by decide +kernel⟩,
   ⟨(((up) |> (fun zq => State.flag (State.goT zq 2 tActive) (LNK_STATUS_MODE1040 2) false))).modTr 2 (fun zz =>
     { zz with swap := none }), 2, 4294967301, 4294967301, by decide +kernel⟩,
   ⟨(((up) |> (fun zq => State.flag (State.goT zq 2 tActive) (LNK_STATUS_MODE1040 2) false))).modTr 2 (fun zz =>
     { zz with swap := some ⟨4294967301, 4294967301, true, false⟩ }), 2, 4294967301, 4294967301, by decide +kernel⟩,
   ⟨((((up) |> (fun zq => State.flag (State.goT zq 2 tActive) (LNK_STATUS_MODE1040 2) false))).modTr 2 (fun zz =>
     { zz with swap := some ((⟨8000000, 1, true, true⟩ : Swap)) })).flag SYS_TREE_POS_CROWN true, 2, (⟨8000000, 1, true, true⟩ :
     Swap), by decide +kernel⟩,
   ⟨((((up) |> (fun zq => State.flag (State.goT zq 2 tActive) (LNK_STATUS_MODE1040 2) false))).modTr 2 (fun zz =>
     { zz with swap := some ((⟨8000000, 1, true, true⟩ : Swap)) })).flag SYS_TREE_POS_CROWN false, 2, (⟨8000000, 1, true, true⟩ :
     Swap), by decide +kernel⟩,
   ⟨(((up) |> (fun zq => State.flag (State.goT zq 2 tActive) (LNK_STATUS_MODE1040 2) false))).modTr 2 (fun zz =>
     { zz with swap := none }), Path.pcie, 2, by unfold Reaches; decide +kernel⟩,
   ⟨(((up) |> (fun zq => State.flag (State.goT zq 2 tActive) (LNK_STATUS_MODE1040 2) false))).modTr 2 (fun zz =>
     { zz with swap := some ⟨20, 5, true, false⟩ }), 2, 20, 5, 9, by decide +kernel⟩⟩

theorem witness_LinkEventsComplete :
    (∃ (s : State) (n : Nat), n < 3 ∧ s.mode1040 n = false ∧ s.rd PWR_PS_STATUS_STATE = 0 ∧ s.on BOOT_STATUS_HALT = false ∧ s.domOn
      (6 + n) = true ∧ s.inT n tGlint = true) ∧
    (∃ (s : State) (n : Nat), n < 3 ∧ s.rd PWR_PS_STATUS_STATE = 0 ∧ s.on BOOT_STATUS_HALT = false ∧ s.domOn (6 + n) = true ∧
      s.pwr.entryPending = false) ∧
    (∃ (s : State) (n : Nat), n < 3 ∧ (s.tr n).failing = true ∧ (s.tr n).toHoldoff = true ∧ s.isOn (lnkPage n) = true) ∧
    (∃ (s : State) (n : Nat), n < 3 ∧ (s.tr n).failing = true ∧ (s.tr n).toHoldoff = false) ∧
    (∃ (s : State) (n : Nat), s.inT n tHoldoff = true) ∧
    (∃ (s : State) (n : Nat) (rates : Nat) (ceil : Nat) (km : Nat) (r : Nat), s.inT n tSpeed = true ∧ (s.tr n).chosen = none ∧
      commonRate (rates % 8) (min ceil (s.ownCeiling n)) = some r ∧ s.rd (LNK_CTRL_KEYS_MODE n).inForce = 0 ∧ km ≠ 2) ∧
    (∃ (s : State) (n : Nat) (cause : Nat), s.active n = true ∧ s.mode1040 n = false ∧ 1 ≤ cause ∧ cause ≤ 3 ∧ (s.port
      n).pw.suspended = false) ∧
    (∃ (s : State) (n : Nat), s.active n = true ∧ s.mode1040 n = false ∧ 8 ≤ (s.ep n).missed ∧ (s.port n).pw.suspended = false) ∧
    (∃ (s : State) (p : Path) (n : Nat), s.active n = true ∧ Reaches s p (LNK_CTRL_RETRAIN n).addr) ∧
    (∃ (s : State) (n : Nat), s.native n = true) ∧
    (∃ (s : State) (n : Nat) (freed : List Nat), s.active n = true ∧ s.mode1040 n = true ∧ freed.length = 8) :=
  ⟨⟨((((up).flag (LNK_STATUS_MODE1040 2) false).wr PWR_PS_STATUS_STATE (0)).flag BOOT_STATUS_HALT false).goT 2 tGlint, 2,
     by decide +kernel⟩,
   ⟨(((up).wr PWR_PS_STATUS_STATE (0)).flag BOOT_STATUS_HALT false).modPwr (fun zz => { zz with entryPending := false }), 2,
     by decide +kernel⟩,
   ⟨((up).modTr 2 (fun zz => { zz with failing := true })).modTr 2 (fun zz => { zz with toHoldoff := true }), 2, by decide +kernel⟩,
   ⟨((up).modTr 2 (fun zz => { zz with failing := true })).modTr 2 (fun zz => { zz with toHoldoff := false }), 2, by decide +kernel⟩,
   ⟨(up).goT 2 tHoldoff, 2, by decide +kernel⟩,
   ⟨(((((up).goT 2 tSpeed).modTr 2 (fun zz => { zz with chosen := none })).wr (LNK_CTRL_KEYS_MODE 2).inForce (0)).wr
     (LNK_CTRL_MAX_SPEED 0).inForce 2).wr (LNK_FAIL_CEILING 0) 2, 2, 7, 2, 4294967301, 2, by decide +kernel⟩,
   ⟨(((up).goT 2 tActive).flag (LNK_STATUS_MODE1040 2) false).modPort 2 (fun zz =>
     { zz with pw := { zz.pw with suspended := false } }), 2, 3, by decide +kernel⟩,
   ⟨((((up).goT 0 tActive).flag (LNK_STATUS_MODE1040 0) false).modPort 0 (fun zz =>
     { zz with pw := { zz.pw with suspended := false } })).modEp 0 (fun r => { r with missed := 8 }), 0, by decide +kernel⟩,
   ⟨(up).goT 2 tActive, Path.pcie, 2, by unfold Reaches; decide +kernel⟩,
   ⟨((up) |> (fun zq => State.flag (State.goT zq 2 tActive) (LNK_STATUS_MODE1040 2) false)), 2, by decide +kernel⟩,
   ⟨((up).goT 2 tActive).flag (LNK_STATUS_MODE1040 2) true, 2, (List.replicate 8 3 : List Nat), by decide +kernel⟩⟩

theorem witness_EpochChangeCommands_first :
    (∃ (s : State) (p : Path) (n : Nat), n < 3 ∧ Reaches s p (CYC_EPOCH_CTRL_CHECK n).addr) ∧
    (∃ (s : State) (p : Path) (n : Nat), n < 3 ∧ Reaches s p (CYC_EPOCH_CTRL_REQ n).addr) ∧
    (∃ (s : State) (p : Path) (n : Nat), n < 3 ∧ Reaches s p (CYC_EPOCH_CTRL_WITHDRAW n).addr ∧ s.withdrawChk n = 0) ∧
    (∃ (s : State) (n : Nat) (c : Change), n < 3 ∧ (s.ep n).change = some c ∧ c.proposer = true ∧ c.sent = false ∧ s.epochChecks n
      true none = 0) ∧
    (∃ (s : State) (n : Nat) (c : Change), n < 3 ∧ (s.ep n).change = some c ∧ c.proposer = true ∧ c.sent = true ∧ c.accepted = false
      ∧ cycGe s.cycle (cycSub c.body.swap 1) = true) ∧
    (∃ (s : State) (n : Nat) (a : Allot) (c : Change), s.native n = true ∧ (s.ep n).change = some c ∧ c.proposer = true ∧ c.sent =
      true ∧ sameProposal c.body a = true) ∧
    (∃ (s : State) (n : Nat) (a : Allot) (c : Change), s.native n = true ∧ (s.ep n).change = some c ∧ c.proposer = true ∧ c.sent =
      true ∧ c.accepted = false ∧ sameProposal c.body a = true) ∧
    (∃ (s : State) (n : Nat) (a : Allot) (c : Change), s.native n = true ∧ (s.ep n).change = some c ∧ c.proposer = false ∧
      sameProposal c.body a = true) ∧
    (∃ (s : State) (n : Nat) (l : LastChange), n < 3 ∧ (s.ep n).last = some l ∧ cycLater s.cycle (cycAdd l.swap 8) = true) ∧
    (∃ (s : State) (n : Nat) (c : Change), n < 3 ∧ (s.ep n).change = some c ∧ c.proposer = true ∧ c.sent = false ∧ s.epochChecks n
      true none ≠ 0) ∧
    (∃ (s : State) (p : Path) (n : Nat), n < 3 ∧ (s.ep n).change = none ∧ Reaches s p (CYC_EPOCH_CTRL_REQ n).addr) ∧
    (∃ (s : State) (p : Path) (n : Nat), n < 3 ∧ Reaches s p (CYC_EPOCH_CTRL_WITHDRAW n).addr ∧ s.withdrawChk n ≠ 0) :=
  ⟨⟨up, Path.pcie, 2, by unfold Reaches; decide +kernel⟩,
   ⟨up, Path.pcie, 2, by unfold Reaches; decide +kernel⟩,
   ⟨(up).modEp 0 (fun r => { r with change := some (⟨true, (⟨1, 8000001, 1, 2, 3, 4, 7999990⟩ : Allot), false, false⟩ : Change) }),
     Path.pcie, 0, by unfold Reaches; decide +kernel⟩,
   ⟨((up).modEp 0 (fun zz =>
     { zz with change := some ((⟨true, (⟨1, 8000001, 1, 2, 3, 4, 7999990⟩ : Allot), false, false⟩ : Change)) })).goT 0 tActive, 0,
     (⟨true, (⟨1, 8000001, 1, 2, 3, 4, 7999990⟩ : Allot), false, false⟩ : Change), by decide +kernel⟩,
   ⟨(up).modEp 2 (fun zz =>
     { zz with change := some ((⟨true, (⟨1, 8000001, 1, 2, 3, 4, 7999990⟩ : Allot), true, false⟩ : Change)) }), 2, (⟨true, (⟨1,
     8000001, 1, 2, 3, 4, 7999990⟩ : Allot), true, false⟩ : Change), by decide +kernel⟩,
   ⟨(((up) |> (fun zq => State.flag (State.goT zq 2 tActive) (LNK_STATUS_MODE1040 2) false))).modEp 2 (fun zz =>
     { zz with change := some ((⟨true, (⟨1, 8000001, 1, 2, 3, 4, 7999990⟩ : Allot), true, false⟩ : Change)) }), 2, (⟨1, 8000001, 1,
     2, 3, 4, 7999990⟩ : Allot), (⟨true, (⟨1, 8000001, 1, 2, 3, 4, 7999990⟩ : Allot), true, false⟩ : Change), by decide +kernel⟩,
   ⟨(((up) |> (fun zq => State.flag (State.goT zq 2 tActive) (LNK_STATUS_MODE1040 2) false))).modEp 2 (fun zz =>
     { zz with change := some ((⟨true, (⟨1, 8000001, 1, 2, 3, 4, 7999990⟩ : Allot), true, false⟩ : Change)) }), 2, (⟨1, 8000001, 1,
     2, 3, 4, 7999990⟩ : Allot), (⟨true, (⟨1, 8000001, 1, 2, 3, 4, 7999990⟩ : Allot), true, false⟩ : Change), by decide +kernel⟩,
   ⟨(((up) |> (fun zq => State.flag (State.goT zq 2 tActive) (LNK_STATUS_MODE1040 2) false))).modEp 2 (fun zz =>
     { zz with change := some ((⟨false, (⟨1, 8000001, 1, 2, 3, 4, 7999990⟩ : Allot), false, false⟩ : Change)) }), 2, (⟨1, 8000001,
     1, 2, 3, 4, 7999990⟩ : Allot), (⟨false, (⟨1, 8000001, 1, 2, 3, 4, 7999990⟩ : Allot), false, false⟩ : Change),
     by decide +kernel⟩,
   ⟨(up).modEp 2 (fun zz => { zz with last := some ((⟨7999990, 1, 2, true⟩ : LastChange)) }), 2, (⟨7999990, 1, 2, true⟩ :
     LastChange), by decide +kernel⟩,
   ⟨((up).goT 0 tDetect).modEp 0 (fun r_ =>
     { r_ with change := some (⟨true, (⟨1, 8000001, 1, 2, 3, 4, 7999990⟩ : Allot), false, false⟩ : Change) }), 0, (⟨true, (⟨1,
     8000001, 1, 2, 3, 4, 7999990⟩ : Allot), false, false⟩ : Change), by decide +kernel⟩,
   ⟨(up).modEp 2 (fun zz => { zz with change := none }), Path.pcie, 2, by unfold Reaches; decide +kernel⟩,
   ⟨up, Path.pcie, 2, by unfold Reaches; decide +kernel⟩⟩

theorem witness_EpochChangeCommands_second :
    (∃ (s : State) (n : Nat) (a : Allot), s.native n = true ∧ (s.ep n).answered ≠ some a.prop ∧ (s.ep n).change = none) ∧
    (∃ (s : State) (n : Nat) (a : Allot) (c : Change), s.native n = true ∧ (s.ep n).answered ≠ some a.prop ∧ (s.ep n).change = some
      c ∧ c.proposer = true ∧ c.sent = true ∧ c.accepted = false ∧ s.on (LNK_STATUS_PARENT n) = true) ∧
    (∃ (s : State) (n : Nat) (a : Allot) (c : Change), s.native n = true ∧ (s.ep n).answered ≠ some a.prop ∧ (s.ep n).change = some
      c ∧ c.proposer = true ∧ c.sent = true ∧ c.accepted = false ∧ s.on (LNK_STATUS_PARENT n) = false) ∧
    (∃ (s : State) (n : Nat) (c : Change), s.native n = true ∧ (s.ep n).change = some c ∧ c.accepted = true ∧ cycGe s.cycle
      c.body.swap = true ∧ s.stepMoves c.body.swap = false) ∧
    (∃ (s : State) (n : Nat) (l : LastChange), s.native n = true ∧ (s.ep n).lateDue = true ∧ (s.ep n).split = false ∧ (s.ep n).last
      = some l ∧ l.swapped = false ∧ s.digest txSh n = l.digTx ∧ s.digest rxSh n = l.digRx) ∧
    (∃ (s : State) (n : Nat) (l : LastChange), s.native n = true ∧ (s.ep n).lateDue = true ∧ (s.ep n).split = false ∧ (s.ep n).last
      = some l ∧ l.swapped = false ∧ s.digest txSh n ≠ l.digTx) ∧
    (∃ (s : State) (n : Nat), s.native n = true ∧ (s.ep n).split = false ∧ (s.ep n).farEpoch = some ((s.rd (CYC_STATUS_ACT_EPOCH n)
      + 1) % 256) ∧ (s.ep n).last = none ∧ (s.ep n).change = none) :=
  ⟨⟨(((up) |> (fun zq => State.flag (State.goT zq 2 tActive) (LNK_STATUS_MODE1040 2) false))).modEp 2 (fun zz =>
     { zz with change := none }), 2, (⟨1, 8000001, 1, 2, 3, 4, 7999990⟩ : Allot), by decide +kernel⟩,
   ⟨((((up) |> (fun zq => State.flag (State.goT zq 2 tActive) (LNK_STATUS_MODE1040 2) false))).modEp 2 (fun zz =>
     { zz with change := some ((⟨true, (⟨1, 8000001, 1, 2, 3, 4, 7999990⟩ : Allot), true, false⟩ : Change)) })).flag
     (LNK_STATUS_PARENT 2) true, 2, (⟨1, 8000001, 1, 2, 3, 4, 7999990⟩ : Allot), (⟨true, (⟨1, 8000001, 1, 2, 3, 4, 7999990⟩ :
     Allot), true, false⟩ : Change), by decide +kernel⟩,
   ⟨((((up) |> (fun zq => State.flag (State.goT zq 2 tActive) (LNK_STATUS_MODE1040 2) false))).modEp 2 (fun zz =>
     { zz with change := some ((⟨true, (⟨1, 8000001, 1, 2, 3, 4, 7999990⟩ : Allot), true, false⟩ : Change)) })).flag
     (LNK_STATUS_PARENT 2) false, 2, (⟨1, 8000001, 1, 2, 3, 4, 7999990⟩ : Allot), (⟨true, (⟨1, 8000001, 1, 2, 3, 4, 7999990⟩ :
     Allot), true, false⟩ : Change), by decide +kernel⟩,
   ⟨(((up) |> (fun zq => State.flag (State.goT zq 2 tActive) (LNK_STATUS_MODE1040 2) false))).modEp 2 (fun zz =>
     { zz with change := some ((⟨true, (⟨1, 8000000, 1, 2, 3, 4, 7999990⟩ : Allot), true, true⟩ : Change)) }), 2, (⟨true, (⟨1,
     8000000, 1, 2, 3, 4, 7999990⟩ : Allot), true, true⟩ : Change), by decide +kernel⟩,
   ⟨(((((up) |> (fun zq => State.flag (State.goT zq 0 tActive) (LNK_STATUS_MODE1040 0) false))).modEp 0 (fun zz =>
     { zz with lateDue := true })).modEp 0 (fun zz => { zz with split := false })).modEp 0 (fun zz =>
     { zz with last := some ((⟨7999000, ((up) |> (fun zq => State.flag (State.goT zq 0 tActive) (LNK_STATUS_MODE1040 0) false)).digest txSh 0, ((up) |> (fun zq => State.flag (State.goT zq 0 tActive) (LNK_STATUS_MODE1040 0) false)).digest rxSh 0, false⟩ : LastChange)) }),
     0, (⟨7999000, ((up) |> (fun zq => State.flag (State.goT zq 0 tActive) (LNK_STATUS_MODE1040 0) false)).digest txSh 0, ((up) |>
     (fun zq => State.flag (State.goT zq 0 tActive) (LNK_STATUS_MODE1040 0) false)).digest rxSh 0, false⟩ : LastChange),
     by decide +kernel, by decide +kernel, by decide +kernel, by rw [State.modEp_ep], rfl, by simp only [digest_modEp], by simp only
     [digest_modEp]⟩,
   epochDiffers _ rfl,
   ⟨((up).goT 0 tActive).modEp 0 (fun r_ => { r_ with farEpoch := some 1 }), 0, by decide +kernel⟩⟩

/-- `recv` of the statement ControlSlotCommandsComplete. -/
abbrev controlSlotCommandsComplete_recv (s : State) (n : Nat) : Prop := n < 3 ∧ (s.tstate n = tCycle ∨ s.tstate n = tActive) ∧ s.on
  (LNK_STATUS_MODE1040 n) = false

theorem witness_ControlSlotCommandsComplete :
    (∃ (s : State) (n : Nat), controlSlotCommandsComplete_recv s n) ∧
    (∃ (s : State) (n : Nat) (j : Nat) (m : Nat) (k : Nat) (e : Nat) (c : Nat) (pl : List Byte) (tr : Nat) (co : Nat) (un : Nat),
      controlSlotCommandsComplete_recv s n ∧ (s.fecCount n co un).openCtl n j m k e c (pad128 pl) tr = (false, false) ∧ (s.fecCount
      n co un).verifiesNext n (61 * j) c k (beBytes 8 (ctlHeader j m k e c) ++ pad128 pl) [] tr = false) ∧
    (∃ (s : State) (n : Nat) (j : Nat) (m : Nat) (k : Nat) (e : Nat) (c : Nat) (pl : List Byte) (tr : Nat) (ar : Nat) (co : Nat) (un
      : Nat), controlSlotCommandsComplete_recv s n ∧ (s.fecCount n co un).openCtl n j m k e c (pad128 pl) tr = (true, false) ∧ c ≠
      (s.fecCount n co un).arrivalCycle n ar) ∧
    (∃ (s : State) (n : Nat) (j : Nat) (m : Nat) (k : Nat) (e : Nat) (c : Nat) (pl : List Byte) (tr : Nat) (ar : Nat) (co : Nat) (un
      : Nat), controlSlotCommandsComplete_recv s n ∧ (s.fecCount n co un).openCtl n j m k e c (pad128 pl) tr = (true, false) ∧ c =
      (s.fecCount n co un).arrivalCycle n ar) ∧
    (∃ (s : State) (n : Nat) (c : Nat), s.native n = true ∧ cycGe s.cycle c = true) ∧
    (∃ (s : State) (n : Nat), s.native n = true) :=
  ⟨⟨(up).goT 0 tActive, 0, by decide +kernel⟩,
   ⟨(up).goT 0 tActive, 0, 0, 0, 0, 0, 5, ([] : List Byte), 0, 1, 0, by decide +kernel⟩,
   ⟨(up).goT 0 tActive, 0, 0, 0, 0, 0, 5, ([] : List Byte), (crcTrailer (beBytes 8 (ctlHeader 0 0 0 0 5) ++ pad128 [])), 0, 1, 0,
     by decide +kernel⟩,
   ⟨(up).goT 0 tActive, 0, 0, 0, 0, 0, 5, ([] : List Byte), (crcTrailer (beBytes 8 (ctlHeader 0 0 0 0 5) ++ pad128 [])), 2500000, 1,
     0, by decide +kernel⟩,
   ⟨((up) |> (fun zq => State.flag (State.goT zq 2 tActive) (LNK_STATUS_MODE1040 2) false)), 2, 4294967301, by decide +kernel⟩,
   ⟨((up) |> (fun zq => State.flag (State.goT zq 2 tActive) (LNK_STATUS_MODE1040 2) false)), 2, by decide +kernel⟩⟩

theorem witness_ContextWindowAndTimers_first :
    (∃ (s : State) (p : Path), Reaches s p TUN_CMD_LOAD.addr) ∧
    (∃ (s : State) (p : Path), Reaches s p TUN_CMD_COMMIT.addr) ∧
    (∃ (s : State) (p : Path), Reaches s p TUN_CMD_REBASE.addr) ∧
    (∃ (s : State) (p : Path), Reaches s p TUN_CMD_CLR_CNT.addr) ∧
    (∃ (s : State) (p : Path), (s.tunLast p 2).commitCheck (s.tunSel p) ((List.range 32).map (fun k => s.rd (winWord p k))) = none) ∧
    (∃ (k : Nat), k < 14) ∧
    (∃ (s : State) (p : Path) (k : Nat) (r : Nat), (s.tunLast p 2).commitCheck (s.tunSel p) ((List.range 32).map (fun k => s.rd
      (winWord p k))) = some (k, r)) ∧
    (∃ (k : Nat), k < 32 ∧ k ≠ 7) :=
  ⟨⟨up, Path.pcie, by unfold Reaches; decide +kernel⟩,
   ⟨up, Path.pcie, by unfold Reaches; decide +kernel⟩,
   ⟨up, Path.pcie, by unfold Reaches; decide +kernel⟩,
   ⟨up, Path.pcie, by unfold Reaches; decide +kernel⟩,
   ⟨(((((up).wr (TUN_SEL_CTX.onPath .mspi) 6).wr (winWord .mspi 2) 4).wr (winWord .mspi 8) 0x10000).wr (winWord .mspi 10) 16).wr
     (winWord .mspi 11) 1, Path.mspi, by decide +kernel⟩,
   ⟨13, by decide +kernel⟩,
   ⟨up, Path.mspi, 0, 8, by decide +kernel⟩,
   ⟨31, by decide +kernel⟩⟩

theorem witness_ContextWindowAndTimers_second :
    (∃ (s : State) (port : Nat) (ltn : Nat) (q : Quar), q ∈ s.quar ∧ q.port = port ∧ q.ltn = ltn ∧ cycGe s.cycle q.upTo = true) ∧
    (∃ (s : State) (c : Nat), s.ctxLife c = lifeStarting ∧ s.twin c = 1 ∧ (s.ctx c).splitFrom.any (fun x => cycGe s.cycle (cycAdd x
      9)) = true) ∧
    (∃ (s : State) (c : Nat), s.ctxLife c = lifeStopping ∧ (s.ctx c).drained = false ∧ cycGe s.cycle (cycAdd (s.ctx c).since (s.rd
      (CTX_STOP_STOP_TO c))) = true) ∧
    (∃ (s : State) (c : Nat), s.ctxLife c = lifeOn ∧ s.twin c = 2 ∧ s.on (CTX_STATE_BASE c) = true ∧ cycGe s.cycle (cycAdd (s.ctx
      c).lastRx 8) = true) ∧
    (∃ (s : State) (c : Nat), s.ctxLife c = lifeOn ∧ s.isEnd c = true ∧ s.reliable c = false ∧ s.twin c ≠ 2 ∧ (s.ctx c).rx.isSome =
      true ∧ cycGe s.cycle (cycAdd (s.ctx c).lastRx 8) = true) ∧
    (∃ (s : State) (c : Nat), s.on (CTX_STATE_CM_HOLD c) = true ∧ (s.ctx c).holdDue = false ∧ cycLater s.cycle (s.ctx c).holdEnd =
      true) :=
  ⟨⟨(up).quarS [(⟨1, 1, 1, 7999999⟩ : Quar)], 1, 1, (⟨1, 1, 1, 7999999⟩ : Quar), by decide +kernel⟩,
   ⟨(((up).wr (CTX_STATE_LIFE 1) lifeStarting).wr (CTX_MODE_TWIN 1) 1).modCtx 1 (fun r => { r with splitFrom := some 7999000 }), 1,
     by decide +kernel⟩,
   ⟨((up).wr (CTX_STATE_LIFE 4294967301) lifeStopping).modCtx 4294967301 (fun zz => { zz with drained := false }), 4294967301,
     by decide +kernel⟩,
   ⟨(((up).wr (CTX_STATE_LIFE 4294967301) lifeOn).wr (CTX_MODE_TWIN 4294967301) 2).flag (CTX_STATE_BASE 4294967301) true,
     4294967301, by decide +kernel⟩,
   ⟨(((((up).wr (CTX_STATE_LIFE 1) lifeOn).flag (CTX_MODE_RELIABLE 1) false).flag (ptV 1 2) true).wr (ptPoint 1 2) 3).modCtx 1 (fun
     r => { r with rx := some { id := 1 } }), 1, by decide +kernel⟩,
   ⟨((up).flag (CTX_STATE_CM_HOLD 4294967301) true).modCtx 4294967301 (fun zz => { zz with holdDue := false }), 4294967301,
     by decide +kernel⟩⟩

theorem witness_LinkCellsComplete :
    (∃ (s : State) (n : Nat), s.active n = true) ∧
    (∃ (s : State) (n : Nat) (slot : Nat) (cyc : Nat) (cell : Cell) (tr : Nat), s.verifiesNext n slot cyc cell.keysel (beBytes 8
      (cellHeader cell)) (pad128 cell.payload) tr = false) ∧
    (∃ (s : State) (n : Nat) (cyc : Nat) (c : Cell) (x : Nat) (w : Nat), c.ltn ≠ 0xFF ∧ (s.slotValid n cyc).on (PG_STATE_WEDGED 13)
      = false ∧ (s.slotValid n cyc).ctxByRx n c.ltn = some (x, w) ∧ (s.slotValid n cyc).on (LNK_STATUS_MODE1040 n) = false) ∧
    (∃ (s : State) (n : Nat) (cyc : Nat) (c : Cell), c.ltn ≠ 0xFF ∧ (s.slotValid n cyc).on (PG_STATE_WEDGED 13) = false ∧
      (s.slotValid n cyc).ctxByRx n c.ltn = none) ∧
    (∃ (s : State) (n : Nat) (d : List Byte), s.native n = true ∧ 1 ≤ d.length ∧ d.length ≤ 28 ∧ s.on (PG_STATE_WEDGED 13) = false) :=
  ⟨⟨(up).goT 2 tActive, 2, by decide +kernel⟩,
   ⟨up, 2, 4294967301, 4294967301, ({} : Cell), 4294967301, by decide +kernel⟩,
   ⟨(((((up).wr (CTX_STATE_LIFE 6) 2).flag (ptV 6 0) true).wr (ptPoint 6 0) 0).wr (ptLtn 6 0) 5).wr (ptLtn 6 0).inForce 5, 0, 0,
     ({ ltn := 5 } : Cell), 6, 0, by decide +kernel⟩,
   ⟨bare, 2, 4294967301, ({ ltn := 5 } : Cell), by decide +kernel⟩,
   ⟨(((up) |> (fun zq => State.flag (State.goT zq 2 tActive) (LNK_STATUS_MODE1040 2) false))).flag (PG_STATE_WEDGED 13) false, 2,
     (List.replicate 28 1 : List Byte), by decide +kernel⟩⟩

theorem witness_GirdleCommandsComplete :
    (∃ (pt : Nat), flowPoint pt = true ∧ pt ≠ 3) ∧
    (∃ (s : State) (q : Nat) (c : Nat) (id : Nat) (f : QFrame) (x : TailSt), s.findFrame q c id = some f ∧ f.tail = some x ∧ x.seq =
      none ∧ cycGe s.cycle (cycAdd x.since 8) = true) ∧
    (∃ (s : State) (q : Nat) (c : Nat) (id : Nat) (i : Nat) (f : QFrame) (x : QCell), s.findFrame q c id = some f ∧ f.cells[i]? =
      some x ∧ f.tail = none ∧ s.aged c x.cell = true) ∧
    (∃ (i : Nat), i < 128) ∧
    (∃ (i : Nat), i < 256) ∧
    (∃ (s : State) (v : Nat), s.domOn 3 = true ∧ v < 65536) ∧
    (∃ (s : State) (p : Path), Reaches s p GRD_PERF_NOW.addr ∧ s.rd GRD_PERF_NOW ≠ 0) :=
  ⟨⟨4, by decide +kernel⟩,
   ⟨(up).modGird (fun zz =>
     { zz with queues := [(1, [({ ctx := 6, eg := 1, id := 0, tc := 0, age := 0, tw := false, cells := [], tail := some (⟨1, none, 4, 7999000⟩ : TailSt) } : QFrame)])] }),
     1, 6, 0,
     ({ ctx := 6, eg := 1, id := 0, tc := 0, age := 0, tw := false, cells := [], tail := some (⟨1, none, 4, 7999000⟩ : TailSt) } :
     QFrame), (⟨1, none, 4, 7999000⟩ : TailSt), by decide +kernel⟩,
   ⟨((up).modGird (fun zz =>
     { zz with queues := [(1, [({ ctx := 6, eg := 1, id := 0, tc := 0, age := 0, tw := false, cells := [({ cell := {}, buf := 0 } : QCell)], tail := none } : QFrame)])] })).wr
     (GRD_AGE_TC_LIMIT 0) 0, 1, 6, 0, 0,
     ({ ctx := 6, eg := 1, id := 0, tc := 0, age := 0, tw := false, cells := [({ cell := {}, buf := 0 } : QCell)], tail := none } :
     QFrame), ({ cell := {}, buf := 0 } : QCell), by decide +kernel⟩,
   ⟨127, by decide +kernel⟩,
   ⟨255, by decide +kernel⟩,
   ⟨up, 65535, by decide +kernel⟩,
   ⟨(up).wr GRD_PERF_NOW (0+1), Path.pcie, by unfold Reaches; decide +kernel⟩⟩

theorem witness_SlotCommandsComplete :
    (∃ (s : State) (n : Nat) (d : Nat) (ecc : Tbl Nat) (t : State) (x : Sent), s.sendsSlots n = true ∧ s.native n = true ∧ (s.port
      n).pw.idle = false ∧ d < s.dSlots n ∧ s.fillSlot n d ecc = (t, some x)) ∧
    (∃ (s : State) (n : Nat) (d : Nat) (ecc : Tbl Nat) (t : State), s.sendsSlots n = true ∧ s.native n = true ∧ (s.port n).pw.idle =
      false ∧ d < s.dSlots n ∧ s.fillSlot n d ecc = (t, none)) ∧
    (∃ (s : State) (n : Nat), s.active n = true ∧ s.on (LNK_STATUS_MODE1040 n) = true ∧ s.time.gap = false ∧ 15 ≤ (s.port
      n).since1040) ∧
    (∃ (s : State) (n : Nat) (ecc : Tbl Nat) (t : State), s.active n = true ∧ s.on (LNK_STATUS_MODE1040 n) = true ∧ s.time.gap =
      false ∧ (s.port n).since1040 < 15 ∧ (s.modPort n (fun p => { p with since1040 := p.since1040 + 1 })).unitPick n ecc [7, 6, 5,
      4, 3, 2, 1, 0] = (t, none)) ∧
    (∃ (s : State) (n : Nat), s.active n = true ∧ s.on (LNK_STATUS_MODE1040 n) = true) ∧
    (∃ (s : State) (n : Nat), s.sendsSlots n = true ∧ s.tstate n = tCycle) ∧
    (∃ (s : State) (pt : Nat) (ecc : Tbl Nat) (tc : Nat) (t : State) (x : Sent), (pt = 3 ∨ pt = 4 ∨ pt = 5 ∨ 10 ≤ pt ∧ pt ≤ 13) ∧
      tget? s.gird.openAt pt = some tc ∧ s.openThere pt tc = true ∧ s.takeCell (8 * pt + tc) ecc (fun s _ _ => (s, true)) = (t, some
      x)) ∧
    (∃ (s : State) (pt : Nat) (tc : Nat), (pt = 3 ∨ pt = 4 ∨ pt = 5 ∨ 10 ≤ pt ∧ pt ≤ 13) ∧ tget? s.gird.openAt pt = some tc ∧
      s.openThere pt tc = false) ∧
    (∃ (s : State) (pt : Nat) (ecc : Tbl Nat) (tc : Nat) (t : State) (x : Sent), (pt = 3 ∨ pt = 4 ∨ pt = 5 ∨ 10 ≤ pt ∧ pt ≤ 13) ∧
      tget? s.gird.openAt pt = none ∧ s.adapterPick pt ecc [7, 6, 5, 4, 3, 2, 1, 0] = (t, some (tc, x))) :=
  ⟨⟨(((((((bare).wr (PG_STATE_LIFE 16) 2).wr (PG_STATE_LIFE 13) 2).wr (PG_STATE_LIFE 14) 2) |> (fun zq => State.flag (State.goT zq 0
     tActive) (LNK_STATUS_MODE1040 0) false))).modPort 0 (fun zz => { zz with pw := { zz.pw with idle := false } })).modGird (fun zz
     =>
     { zz with queues := [(3, [({ ctx := 6, eg := 0, id := 0, tc := 3, age := 0, tw := false, cells := [{ cell := { fs := true, ls := true, tc := 3, age := 5411904, fill := 9, payload := List.replicate 128 1 }, buf := 0 }], lsStored := true } : QFrame)])], bufs := [(0, { refs := 1 })] }),
     0, 959, ([] : Tbl Nat), (((((((((bare).wr (PG_STATE_LIFE 16) 2).wr (PG_STATE_LIFE 13) 2).wr (PG_STATE_LIFE 14) 2) |> (fun zq =>
     State.flag (State.goT zq 0 tActive) (LNK_STATUS_MODE1040 0) false))).modPort 0 (fun zz =>
     { zz with pw := { zz.pw with idle := false } })).modGird (fun zz =>
     { zz with queues := [(3, [({ ctx := 6, eg := 0, id := 0, tc := 3, age := 0, tw := false, cells := [{ cell := { fs := true, ls := true, tc := 3, age := 5411904, fill := 9, payload := List.replicate 128 1 }, buf := 0 }], lsStored := true } : QFrame)])], bufs := [(0, { refs := 1 })] })).fillSlot
     0 959 []).1, ((((((((((bare).wr (PG_STATE_LIFE 16) 2).wr (PG_STATE_LIFE 13) 2).wr (PG_STATE_LIFE 14) 2) |> (fun zq =>
     State.flag (State.goT zq 0 tActive) (LNK_STATUS_MODE1040 0) false))).modPort 0 (fun zz =>
     { zz with pw := { zz.pw with idle := false } })).modGird (fun zz =>
     { zz with queues := [(3, [({ ctx := 6, eg := 0, id := 0, tc := 3, age := 0, tw := false, cells := [{ cell := { fs := true, ls := true, tc := 3, age := 5411904, fill := 9, payload := List.replicate 128 1 }, buf := 0 }], lsStored := true } : QFrame)])], bufs := [(0, { refs := 1 })] })).fillSlot
     0 959 []).2.getD ⟨0, 0, 0, {}, false, false⟩), by decide +kernel⟩,
   ⟨((((((bare).wr (PG_STATE_LIFE 16) 2).wr (PG_STATE_LIFE 13) 2).wr (PG_STATE_LIFE 14) 2) |> (fun zq => State.flag (State.goT zq 0
     tActive) (LNK_STATUS_MODE1040 0) false))).modPort 0 (fun zz => { zz with pw := { zz.pw with idle := false } }), 0, 0, ([] : Tbl
     Nat), ((((((((bare).wr (PG_STATE_LIFE 16) 2).wr (PG_STATE_LIFE 13) 2).wr (PG_STATE_LIFE 14) 2) |> (fun zq => State.flag
     (State.goT zq 0 tActive) (LNK_STATUS_MODE1040 0) false))).modPort 0 (fun zz =>
     { zz with pw := { zz.pw with idle := false } })).fillSlot 0 0 []).1, by decide +kernel⟩,
   ⟨((((up).goT 0 tActive).flag (LNK_STATUS_MODE1040 0) true).modTime (fun zz => { zz with gap := false })).modPort 0 (fun r =>
     { r with since1040 := 15 }), 0, by decide +kernel⟩,
   ⟨((((up).goT 0 tActive).flag (LNK_STATUS_MODE1040 0) true).modTime (fun zz => { zz with gap := false })).modPort 0 (fun r =>
     { r with since1040 := 14 }), 0, ([] : Tbl Nat), (((((((up).goT 0 tActive).flag (LNK_STATUS_MODE1040 0) true).modTime (fun zz =>
     { zz with gap := false })).modPort 0 (fun r => { r with since1040 := 14 })).modPort 0 (fun p =>
     { p with since1040 := p.since1040 + 1 })).unitPick 0 [] [7, 6, 5, 4, 3, 2, 1, 0]).1, by decide +kernel⟩,
   ⟨((up).goT 2 tActive).flag (LNK_STATUS_MODE1040 2) true, 2, by decide +kernel⟩,
   ⟨(up).goT 2 tCycle, 2, by decide +kernel⟩,
   ⟨((up).modGird (fun zz =>
     { zz with queues := [(8 * 10 + 3, [({ ctx := 6, eg := 0, id := 0, tc := 3, age := 0, tw := false, cells := [{ cell := { fs := true, ls := true, tc := 3, age := 5411904, fill := 9, payload := List.replicate 128 1 }, buf := 0 }], lsStored := true, started := true } : QFrame)])], bufs := [(0, { refs := 1 })] })).modGird
     (fun zz => { zz with openAt := [(10, 3)] }), 10, ([] : Tbl Nat), 3, ((((up).modGird (fun zz =>
     { zz with queues := [(8 * 10 + 3, [({ ctx := 6, eg := 0, id := 0, tc := 3, age := 0, tw := false, cells := [{ cell := { fs := true, ls := true, tc := 3, age := 5411904, fill := 9, payload := List.replicate 128 1 }, buf := 0 }], lsStored := true, started := true } : QFrame)])], bufs := [(0, { refs := 1 })] })).modGird
     (fun zz => { zz with openAt := [(10, 3)] })).takeCell (8 * 10 + 3) [] (fun s _ _ => (s, true))).1, (((((up).modGird (fun zz =>
     { zz with queues := [(8 * 10 + 3, [({ ctx := 6, eg := 0, id := 0, tc := 3, age := 0, tw := false, cells := [{ cell := { fs := true, ls := true, tc := 3, age := 5411904, fill := 9, payload := List.replicate 128 1 }, buf := 0 }], lsStored := true, started := true } : QFrame)])], bufs := [(0, { refs := 1 })] })).modGird
     (fun zz => { zz with openAt := [(10, 3)] })).takeCell (8 * 10 + 3) [] (fun s _ _ => (s, true))).2.getD ⟨0, 0, 0, {}, false,
     false⟩), by decide +kernel⟩,
   ⟨(up).modGird (fun zz => { zz with openAt := [(13, 7)] }), 13, 7, by decide +kernel⟩,
   ⟨(up).modGird (fun zz =>
     { zz with queues := [(8 * 10 + 3, [({ ctx := 6, eg := 0, id := 0, tc := 3, age := 0, tw := false, cells := [{ cell := { fs := true, ls := true, tc := 3, age := 5411904, fill := 9, payload := List.replicate 128 1 }, buf := 0 }], lsStored := true } : QFrame)])], bufs := [(0, { refs := 1 })] }),
     10, ([] : Tbl Nat), 3, (((up).modGird (fun zz =>
     { zz with queues := [(8 * 10 + 3, [({ ctx := 6, eg := 0, id := 0, tc := 3, age := 0, tw := false, cells := [{ cell := { fs := true, ls := true, tc := 3, age := 5411904, fill := 9, payload := List.replicate 128 1 }, buf := 0 }], lsStored := true } : QFrame)])], bufs := [(0, { refs := 1 })] })).adapterPick
     10 [] [7, 6, 5, 4, 3, 2, 1, 0]).1, ((((up).modGird (fun zz =>
     { zz with queues := [(8 * 10 + 3, [({ ctx := 6, eg := 0, id := 0, tc := 3, age := 0, tw := false, cells := [{ cell := { fs := true, ls := true, tc := 3, age := 5411904, fill := 9, payload := List.replicate 128 1 }, buf := 0 }], lsStored := true } : QFrame)])], bufs := [(0, { refs := 1 })] })).adapterPick
     10 [] [7, 6, 5, 4, 3, 2, 1, 0]).2.getD (0, ⟨0, 0, 0, {}, false, false⟩)).2, by decide +kernel⟩⟩

theorem witness_MeterAndGateCommands :
    (∃ (s : State) (p : Path), Reaches s p SCH_MTR_CMD_LOAD.addr) ∧
    (∃ (s : State) (p : Path), Reaches s p SCH_MTR_CMD_COMMIT.addr) ∧
    (∃ (s : State) (p : Path), Reaches s p SCH_MTR_CMD_CLR_CNT.addr) ∧
    (∃ (s : State) (p : Path) (l : Nat), l < 7 ∧ Reaches s p (SCH_GCL_CTRL_CFG_CHANGE l).addr ∧ s.on (SCH_GCL_CTRL_CFG_PENDING l) =
      false ∧ s.rd (SCH_ADMIN_CYCLE_NS l) ≠ 0) ∧
    (∃ (s : State) (p : Path) (l : Nat), l < 7 ∧ Reaches s p (SCH_GCL_CTRL_CFG_CHANGE l).addr ∧ s.on (SCH_GCL_CTRL_CFG_PENDING l) =
      false ∧ s.rd (SCH_ADMIN_CYCLE_NS l) = 0) ∧
    (∃ (s : State) (l : Nat) (g : Gcl) (t : Nat), l < 7 ∧ (s.gcl l).pending = some (g, t) ∧ t ≤ s.now) ∧
    (∃ (s : State) (l : Nat) (g : Gcl), l < 7 ∧ (s.gcl l).oper = some g ∧ g.cycleNs ≠ 0 ∧ (s.gcl l).until_ ≤ s.now ∧ (s.gcl
      l).pending = none) ∧
    (∃ (s : State) (p : Path) (k : Nat) (r : Nat), mtrCheck (fun k => s.rd (mtrWin p k)) = some (k, r)) ∧
    (∃ (s : State) (p : Path), mtrCheck (fun k => s.rd (mtrWin p k)) = none) ∧
    (∃ (k : Nat), k < 8) :=
  ⟨⟨up, Path.pcie, by unfold Reaches; decide +kernel⟩,
   ⟨up, Path.pcie, by unfold Reaches; decide +kernel⟩,
   ⟨up, Path.pcie, by unfold Reaches; decide +kernel⟩,
   ⟨((up).flag (SCH_GCL_CTRL_CFG_PENDING 6) false).wr (SCH_ADMIN_CYCLE_NS 6) (0+1), Path.pcie, 6, by unfold Reaches; decide +kernel⟩,
   ⟨((up).flag (SCH_GCL_CTRL_CFG_PENDING 6) false).wr (SCH_ADMIN_CYCLE_NS 6) (0), Path.pcie, 6, by unfold Reaches; decide +kernel⟩,
   ⟨(up).modGcl 6 (fun zz => { zz with pending := some (((⟨[(255, 3125)], 100000, 0, 0⟩ : Gcl)), 1000000000000) }), 6, (⟨[(255,
     3125)], 100000, 0, 0⟩ : Gcl), 1000000000000, by decide +kernel⟩,
   ⟨((up).modGcl 6 (fun zz => { zz with oper := some ((⟨[(255, 3125)], 100000, 0, 0⟩ : Gcl)) })).modGcl 6 (fun zz =>
     { zz with pending := none }), 6, (⟨[(255, 3125)], 100000, 0, 0⟩ : Gcl), by decide +kernel⟩,
   ⟨((up).wr (mtrWin .mspi 0) 5).wr (mtrWin .mspi 1) 4, Path.mspi, 1, 2, by decide +kernel⟩,
   ⟨(((up).wr (mtrWin .mspi 0) 5).wr (mtrWin .mspi 1) 6).wr (mtrWin .mspi 2) 0x00010001, Path.mspi, by decide +kernel⟩,
   ⟨7, by decide +kernel⟩⟩

theorem witness_TimeSourceCommands :
    (∃ (s : State) (n : Nat) (m : CycleMsg), n < 3 ∧ s.tstate n = tActive ∧ s.on (LNK_STATUS_MODE1040 n) = false ∧ m.cycno ≠
      s.arrivalCycle n m.arrival) ∧
    (∃ (s : State) (n : Nat) (m : CycleMsg), n < 3 ∧ s.tstate n = tActive ∧ s.on (LNK_STATUS_MODE1040 n) = false ∧ m.cycno =
      s.arrivalCycle n m.arrival) ∧
    (∃ (s : State) (p : Path), Reaches s p TIME_LO.addr) ∧
    (∃ (s : State), 1 ≤ s.rd TIME_SRC_CTRL_SRC ∧ s.rd TIME_SRC_CTRL_SRC ≤ 3 ∧ ((s.rd TIME_SRC_CTRL_SRC = 1 → s.ptpFeeds = true))) ∧
    (∃ (s : State), s.rd TIME_SRC_CTRL_SRC = 3) ∧
    (∃ (s : State) (b : List Byte) (e : Nat) (q : Nat) (m : Nat) (sec : Nat), s.rd TIME_SRC_CTRL_SRC = 3 ∧ s.time.pps = some (q, m)
      ∧ s.todSecond b = some sec ∧ q + 400000000 ≤ e ∧ e ≤ q + 3600000000) ∧
    (∃ (s : State), s.rd TIME_SRC_CTRL_SRC = 2 ∧ s.isOn 6 = true ∧ s.on TIME_UTC_OFS_VALID = false) ∧
    (∃ (s : State), s.rd TIME_SRC_CTRL_SRC = 2 ∧ s.on TIME_UTC_OFS_VALID = true ∧ s.on TIME_IRIG_CTRL_EXT_1344 = false) ∧
    (∃ (s : State) (c : Nat), s.isOn 6 = true ∧ c < 16) ∧
    (∃ (s : State), s.rd TIME_SRC_STATUS_STATE = stHoldover ∧ 60 * s.rd TIME_HOLD_HOLD_MAX ≤ s.holdSecs) ∧
    (∃ (s : State), s.rd TIME_SRC_STATUS_STATE = stHoldover ∧ s.rd TIME_HOLD_HOLD_VALID ≤ s.holdSecs) ∧
    (∃ (s : State), s.on TIME_SRC_STATUS_TIME_VALID = true) ∧
    (∃ (s : State) (n : Nat) (m : CycleMsg), n < 3 ∧ s.tstate n = tCycle ∧ s.on (LNK_STATUS_MODE1040 n) = false ∧ m.cycno =
      s.arrivalCycle n m.arrival ∧ (s.ep n).okCount = 15) :=
  ⟨⟨((up).goT 2 tActive).flag (LNK_STATUS_MODE1040 2) false, 2,
     ({ cycno := 6, epoch := 0, timeMaster := false, timeValid := false, rxValid := false, txStamp := 0, rxStamp := 0, rxCycno := 0, pend := 0, pendEpoch := 0, pendCycle := 0, arrival := 2500000 }
     : CycleMsg), by decide +kernel⟩,
   ⟨((up).goT 2 tActive).flag (LNK_STATUS_MODE1040 2) false, 2,
     ({ cycno := 5, epoch := 0, timeMaster := false, timeValid := false, rxValid := false, txStamp := 0, rxStamp := 0, rxCycno := 0, pend := 0, pendEpoch := 0, pendCycle := 0, arrival := 2500000 }
     : CycleMsg), by decide +kernel⟩,
   ⟨up, Path.pcie, by unfold Reaches; decide +kernel⟩,
   ⟨((up).wr TIME_SRC_CTRL_SRC 1).wr TIME_SRC_CTRL_SRC 3, by decide +kernel⟩,
   ⟨(up).wr TIME_SRC_CTRL_SRC (3), by decide +kernel⟩,
   ⟨((((up).wr TIME_SRC_CTRL_SRC (3)).modTime (fun zz => { zz with pps := some (1000, 900) })).wr TIME_PPS_CTRL_TOD_FMT 0).modTime
     (fun r => { r with pps := some (1000, 900) }), ([36, 87, 84, 79, 68, 44, 53, 44, 48, 44, 48, 42, 49, 49, 13, 10] : List Byte),
     400001000, 1000, 900, 5, by decide +kernel⟩,
   ⟨((up).wr TIME_SRC_CTRL_SRC (2)).flag TIME_UTC_OFS_VALID false, by decide +kernel⟩,
   ⟨(((up).wr TIME_SRC_CTRL_SRC (2)).flag TIME_UTC_OFS_VALID true).flag TIME_IRIG_CTRL_EXT_1344 false, by decide +kernel⟩,
   ⟨up, 15, by decide +kernel⟩,
   ⟨(((up).wr TIME_SRC_STATUS_STATE (stHoldover)).modTime (fun r => { r with ran := 2000000000000000, holdAt := 0 })).wr
     TIME_HOLD_HOLD_MAX 1, by decide +kernel⟩,
   ⟨(((up).wr TIME_SRC_STATUS_STATE (stHoldover)).modTime (fun r => { r with ran := 2000000000000000, holdAt := 0 })).wr
     TIME_HOLD_HOLD_VALID 1, by decide +kernel⟩,
   ⟨(up).flag TIME_SRC_STATUS_TIME_VALID true, by decide +kernel⟩,
   ⟨(((((up).goT 2 tCycle).flag (LNK_STATUS_MODE1040 2) false).modEp 2 (fun zz => { zz with okCount := 15 })).modEp 2 (fun r =>
     { r with okCount := 15 })).goT 2 tCycle, 2,
     ({ cycno := 5, epoch := 0, timeMaster := false, timeValid := false, rxValid := false, txStamp := 0, rxStamp := 0, rxCycno := 0, pend := 0, pendEpoch := 0, pendCycle := 0, arrival := 2500000 }
     : CycleMsg), by decide +kernel⟩⟩

theorem witness_OutputAndStepCommands :
    (∃ (s : State) (p : Path) (k : Nat), k < 8 ∧ Reaches s p (EVI_FOUT_CTRL_ARM k).addr ∧ s.rd (EVI_FOUT_CTRL_MODE k) ≠ 4) ∧
    (∃ (s : State) (p : Path) (k : Nat), k < 8 ∧ Reaches s p (EVI_FOUT_CTRL_ARM k).addr ∧ s.rd (EVI_FOUT_CTRL_MODE k) = 4) ∧
    (∃ (s : State) (k : Nat), k < 8 ∧ s.isOn 7 = true ∧ s.rd (EVI_FOUT_CTRL_MODE k) = 1 ∧ s.on (EVI_FOUT_CTRL_ARM k) = true ∧
      s.foutTime k ≤ s.now) ∧
    (∃ (s : State) (k : Nat), k < 8 ∧ s.evi.pulsing.contains k = true) ∧
    (∃ (s : State) (p : Path), Reaches s p TIME_STEP_CMD_SET.addr ∧ s.timeRoot = true) ∧
    (∃ (s : State) (p : Path), Reaches s p TIME_STEP_CMD_SET.addr ∧ s.timeRoot = false) ∧
    (∃ (s : State) (n : Nat), s.native n = true ∧ s.bit TIME_LINK_TM_ST_FOLLOW n = true) ∧
    (∃ (s : State) (r : StepReq) (c : Nat) (at_ : Nat), s.time.step = some r ∧ r.cycle = some c ∧ s.stepAt c = some at_) ∧
    (∃ (s : State) (k : Nat), k < 8 ∧ s.isOn 7 = true ∧ s.rd (EVI_FOUT_CTRL_MODE k) = 3 ∧ s.rd (EVI_FOUT_T_NS k) ≤ s.time.ns) :=
  ⟨⟨((up).wr (EVI_FOUT_CTRL_MODE 7) (4+1)).wr (EVI_FOUT_CTRL_MODE 7) 1, Path.pcie, 7, by unfold Reaches; decide +kernel⟩,
   ⟨(up).wr (EVI_FOUT_CTRL_MODE 7) (4), Path.pcie, 7, by unfold Reaches; decide +kernel⟩,
   ⟨((up).wr (EVI_FOUT_CTRL_MODE 7) (1)).flag (EVI_FOUT_CTRL_ARM 7) true, 7, by decide +kernel⟩,
   ⟨(up).modEvi (fun r => { r with pulsing := [7] }), 7, by decide +kernel⟩,
   ⟨(up).wr TIME_SRC_CTRL_SRC 1, Path.pcie, by unfold Reaches; decide +kernel⟩,
   ⟨up, Path.pcie, by unfold Reaches; decide +kernel⟩,
   ⟨(((up) |> (fun zq => State.flag (State.goT zq 2 tActive) (LNK_STATUS_MODE1040 2) false))).setBit TIME_LINK_TM_ST_FOLLOW 2 true,
     2, by decide +kernel⟩,
   ⟨(up).modTime (fun zz => { zz with step := some ((⟨some 8000001, 5, true⟩ : StepReq)) }), (⟨some 8000001, 5, true⟩ : StepReq),
     8000001, 1000000125000, by decide +kernel⟩,
   ⟨((up).wr (EVI_FOUT_CTRL_MODE 7) (3)).wr (EVI_FOUT_T_NS 7) 0, 7, by decide +kernel⟩⟩

theorem witness_EventInputCommands :
    (∃ (s : State) (i : Nat) (level : Bool), i < 16 ∧ s.eviOn i = true ∧ s.domOn 11 = true ∧ 0 < s.rd (EVI_CFG_GLITCH i) ∧ (s.eviIn
      i).window = false ∧ (s.eviIn i).cand = none ∧ (level != s.on (EVI_CFG_INVERT i)) ≠ s.bit EVI_LEVEL_ACC i) ∧
    (∃ (i : Nat), i < 16) ∧
    (∃ (s : State) (i : Nat), i < 16 ∧ (s.eviIn i).window = true ∧ (s.eviIn i).last = none ∧ s.bit EVI_LEVEL_RAW i = s.bit
      EVI_LEVEL_ACC i) ∧
    (∃ (s : State) (p : Path), Reaches s p EVI_FIFO_LO.addr) ∧
    (∃ (s : State) (i : Nat) (level : Bool), i < 16 ∧ s.eviOn i = true ∧ s.domOn 11 = true ∧ s.rd (EVI_CFG_GLITCH i) = 0 ∧ s.rd
      (EVI_CFG_DEBOUNCE i) = 0 ∧ (level != s.on (EVI_CFG_INVERT i)) ≠ s.bit EVI_LEVEL_ACC i) ∧
    (∃ (s : State) (i : Nat) (x : (Nat × Bool) × Bool), i < 16 ∧ s.eviOn i = true ∧ (s.eviIn i).cand = some x) :=
  ⟨⟨(((((((up).wr (EVI_CFG_GLITCH 15) (0+1)).modIn 15 (fun zz => { zz with window := false })).modIn 15 (fun zz =>
     { zz with cand := none })).setBit EVI_LEVEL_ACC 15 false).flag (EVI_CFG_EN 15) true).flag (EVI_CFG_INVERT 15) false).wr
     (EVI_CFG_GLITCH 15) 1, 15, true, by decide +kernel⟩,
   ⟨15, by decide +kernel⟩,
   ⟨((((up).modIn 15 (fun zz => { zz with window := true })).modIn 15 (fun zz => { zz with last := none })).setBit EVI_LEVEL_RAW 15
     false).setBit EVI_LEVEL_ACC 15 false, 15, by decide +kernel⟩,
   ⟨up, Path.pcie, by unfold Reaches; decide +kernel⟩,
   ⟨((((((up).wr (EVI_CFG_GLITCH 15) (0)).wr (EVI_CFG_DEBOUNCE 15) (0)).setBit EVI_LEVEL_ACC 15 false).flag (EVI_CFG_EN 15)
     true).flag (EVI_CFG_INVERT 15) false).wr (EVI_CFG_GLITCH 15) 0, 15, true, by decide +kernel⟩,
   ⟨((((up).modIn 15 (fun zz => { zz with cand := some (((7, true), false)) })).setBit EVI_LEVEL_RAW 15 true).flag (EVI_CFG_EN 15)
     true).modIn 15 (fun _ => { cand := some ((7, true), false) }), 15, ((7, true), false), by decide +kernel⟩⟩

theorem witness_ContextLifeCommands :
    (∃ (s : State) (c : Nat), c < 256 ∧ (s.encCheck c).startReady c = true) ∧
    (∃ (s : State) (c : Nat), c < 256 ∧ s.stopReady c = true) ∧
    (∃ (s : State) (c : Nat), c < 256 ∧ 1 ≤ s.ctxLife c ∧ s.ctxLife c ≤ 3) ∧
    (∃ (s : State) (c : Nat) (k : Kept) (r : List Kept), c < 256 ∧ s.ctxLife c = lifeOn ∧ (s.ctx c).kept = k :: r ∧ k.queued = false
      ∧ cycGe s.cycle (cycAdd k.sent 3) = true ∧ s.rd (CTX_RETRY_RETRIES c) < 8) ∧
    (∃ (s : State) (c : Nat) (k : Kept) (r : List Kept), c < 256 ∧ s.ctxLife c = lifeOn ∧ (s.ctx c).kept = k :: r ∧ k.queued = false
      ∧ cycGe s.cycle (cycAdd k.sent 3) = true ∧ 8 ≤ s.rd (CTX_RETRY_RETRIES c)) ∧
    (∃ (s : State) (c : Nat), c < 256 ∧ s.ctxLife c = lifeStarting ∧ s.reliable c = true ∧ s.isOrigin c = true ∧ (s.ctx c).resynced
      = false ∧ cycGe s.cycle (cycAdd (s.ctx c).since 16) = true) :=
  ⟨⟨(up).wr (CTX_STATE_LIFE 255) lifeStarting, 255, by decide +kernel⟩,
   ⟨(up).wr (CTX_STATE_LIFE 255) lifeStopping, 255, by decide +kernel⟩,
   ⟨(up).wr (CTX_STATE_LIFE 255) lifeOn, 255, by decide +kernel⟩,
   ⟨((((up).wr (CTX_STATE_LIFE 6) lifeOn).modCtx 6 (fun zz =>
     { zz with kept := (({ cell := {}, buf := 0, q := 1, frame := 0, eg := 0, sent := 1 } : Kept)) :: ([]) })).modCtx 6 (fun r =>
     { r with kept := [({ cell := {}, buf := 0, q := 1, frame := 0, eg := 0, sent := 1 } : Kept)] })).wr (CTX_RETRY_RETRIES 6) 7, 6,
     ({ cell := {}, buf := 0, q := 1, frame := 0, eg := 0, sent := 1 } : Kept), [], by decide +kernel⟩,
   ⟨(((((up).wr (CTX_STATE_LIFE 6) lifeOn).modCtx 6 (fun zz =>
     { zz with kept := (({ cell := {}, buf := 0, q := 1, frame := 0, eg := 0, sent := 1 } : Kept)) :: ([]) })).wr (CTX_RETRY_RETRIES
     6) 8).modCtx 6 (fun r => { r with kept := [({ cell := {}, buf := 0, q := 1, frame := 0, eg := 0, sent := 1 } : Kept)] })).wr
     (CTX_RETRY_RETRIES 6) 8, 6, ({ cell := {}, buf := 0, q := 1, frame := 0, eg := 0, sent := 1 } : Kept), [], by decide +kernel⟩,
   ⟨(((((up).wr (CTX_STATE_LIFE 6) lifeStarting).flag (CTX_MODE_RELIABLE 6) true).modCtx 6 (fun zz =>
     { zz with resynced := false })).flag (ptV 6 0) true).wr (ptPoint 6 0) 4, 6, by decide +kernel⟩⟩

theorem witness_PcieAndFarBusRequests :
    (∃ (s : State) (p : Path), Reaches s p PCIE_CTRL_RETRAIN.addr) ∧
    (∃ (s : State) (l : Nat) (g : Nat) (w : Nat), s.domOn 9 = true ∧ s.on PCIE_STATUS_DL_ACTIVE = false ∧ l < 64 ∧ l ≠ 0 ∧ g < 4 ∧ w
      < 4) ∧
    (∃ (s : State) (c : Nat), 1 ≤ c ∧ c ≤ 14 ∧ s.vdpUp c = false ∧ s.vdpReady c = true) ∧
    (∃ (s : State) (addr : Nat) (be : List Bool) (w : Nat), s.domOn 9 = true ∧ be.length ≤ 4096 ∧ s.fn0Sleeps = false ∧ s.theWindow
      addr = some w) ∧
    (∃ (s : State) (addr : Nat) (be : List Bool), s.domOn 9 = true ∧ be.length ≤ 4096 ∧ s.theWindow addr = none) ∧
    (∃ (s : State) (addr : Nat) (op : Nat) (width : Nat) (w : Nat), s.domOn 9 = true ∧ s.fn0Sleeps = false ∧ (width = 32 ∨ width =
      64) ∧ op ≤ 2 ∧ s.theWindow addr = some w ∧ s.on (LPB_W_ATTR_ATOMIC w) = true) ∧
    (∃ (s : State) (width : Nat), s.domOn 9 = true ∧ width ≠ 32 ∧ width ≠ 64) ∧
    (∃ (s : State) (addr : Nat) (w : Nat), s.domOn 9 = true ∧ s.fn0Sleeps = false ∧ s.theWindow addr = some w ∧ s.on
      (LPB_W_ATTR_LOCK w) = true) ∧
    (∃ (s : State) (addr : Nat) (w : Nat), s.domOn 9 = true ∧ s.theWindow addr = some w ∧ s.on (LPB_W_ATTR_LOCK w) = false) ∧
    (∃ (s : State) (l : Nat) (g : Nat) (w : Nat), s.domOn 9 = true ∧ s.on PCIE_STATUS_DL_ACTIVE = true ∧ l < 64 ∧ l ≠ 0 ∧ g < 4 ∧ w
      < 4) :=
  ⟨⟨up, Path.pcie, by unfold Reaches; decide +kernel⟩,
   ⟨(up).flag PCIE_STATUS_DL_ACTIVE false, 63, 3, 3, by decide +kernel⟩,
   ⟨(((((up).flag (PCIE_VDP_CTX_EN 14) true).wr (PCIE_VDP_CTX_UP_CTX 14) 6).wr (PCIE_VDP_CTX_DOWN_CTX 14) 6).wr (CTX_MODE_TYPE 6)
     1).wr (CTX_STATE_LIFE 6) lifeOn, 14, by decide +kernel⟩,
   ⟨(up).flag (LPB_W_ATTR_EN 1) true, 0, ([true, true] : List Bool), 1, by decide +kernel⟩,
   ⟨up, 0, ([true, true] : List Bool), by decide +kernel⟩,
   ⟨(((up).flag (LPB_W_ATTR_ATOMIC 1) true).flag (LPB_W_ATTR_EN 1) true).flag (LPB_W_ATTR_ATOMIC 1) true, 0, 2, 64, 1,
     by decide +kernel⟩,
   ⟨up, 16, by decide +kernel⟩,
   ⟨((up).flag (LPB_W_ATTR_LOCK 1) true).flag (LPB_W_ATTR_EN 1) true, 0, 1, by decide +kernel⟩,
   ⟨((up).flag (LPB_W_ATTR_LOCK 1) false).flag (LPB_W_ATTR_EN 1) true, 0, 1, by decide +kernel⟩,
   ⟨(up).flag PCIE_STATUS_DL_ACTIVE true, 63, 3, 3, by decide +kernel⟩⟩

theorem witness_FarBusTransactions :
    (∃ (s : State) (b : FarBurst) (x : Nat × Nat × Nat) (r : List (Nat × Nat × Nat)) (l : List FarBurst), s.isOn 25 = true ∧
      s.brg.cur = none ∧ s.brg.queue = b :: l ∧ s.farMay b = true ∧ b.kind < 2 ∧ b.beats = x :: r) ∧
    (∃ (s : State) (b : FarBurst), s.brg.cur = some b) ∧
    (∃ (s : State) (b : FarBurst) (a : Nat), s.brg.cur = some b ∧ s.on (LPB_CS_TIM_READY_EN b.cs).inForce = true ∧ b.beats.any (fun
      x => x.1 == a) = true) ∧
    (∃ (s : State) (b : FarBurst) (no : Nat), tget? s.brg.remote no = some b ∧ b.kind = 0) ∧
    (∃ (s : State) (b : FarBurst) (r : Nat), s.brg.lock = some b ∧ b.kind = 3 ∧ b.reqId = r ∧ s.brg.cur = none ∧ s.brg.queue = [] ∧
      s.brg.remote = [] ∧ s.brg.held = []) ∧
    (∃ (s : State), s.brg.lock = none ∧ s.brg.cur = none ∧ s.brg.queue = [] ∧ s.brg.remote = [] ∧ s.brg.held = []) ∧
    (∃ (s : State) (b : FarBurst), s.brg.lock = some b ∧ b.kind = 3 ∧ b.ctx ≠ 0) ∧
    (∃ (s : State) (p : Path), Reaches s p LPB_FENCE_FAILS.addr ∧ s.postedOut = []) ∧
    (∃ (s : State) (p : Path), Reaches s p LPB_FENCE_FAILS.addr ∧ s.postedOut ≠ []) ∧
    (∃ (s : State) (p : Path) (r : List (Path × List Nat)), s.brg.fence = (p, []) :: r) ∧
    (∃ (s : State) (p : Path) (l : List Nat) (r : List (Path × List Nat)), s.brg.fence = (p, l) :: r) ∧
    (∃ (s : State) (p : Path), Reaches s p LPB_ERRF_TS_LO.addr) ∧
    (∃ (s : State) (b : FarBurst) (no : Nat), s.brg.lock = none ∧ s.brg.cur = none ∧ s.brg.queue = [] ∧ s.brg.remote = [] ∧
      s.brg.held = [(no, b)] ∧ b.kind = 3) :=
  ⟨⟨((up).modBrg (fun zz => { zz with cur := none })).modBrg (fun zz =>
     { zz with queue := (({ no := 1, kind := 0, cs := 0, ctx := 0, win := 0, reqId := 1, tag := 0, write := false, beats := [(0, 3, 0)] } : FarBurst)) :: ([]) }),
     ({ no := 1, kind := 0, cs := 0, ctx := 0, win := 0, reqId := 1, tag := 0, write := false, beats := [(0, 3, 0)] } : FarBurst),
     (0, 3, 0), [], [], by decide +kernel⟩,
   ⟨(up).modBrg (fun zz =>
     { zz with cur := some (({ no := 1, kind := 0, cs := 0, ctx := 0, win := 0, reqId := 1, tag := 0, write := false, beats := [(0, 3, 0)] } : FarBurst)) }),
     ({ no := 1, kind := 0, cs := 0, ctx := 0, win := 0, reqId := 1, tag := 0, write := false, beats := [(0, 3, 0)] } : FarBurst),
     by decide +kernel⟩,
   ⟨(((up).modBrg (fun zz =>
     { zz with cur := some (({ no := 1, kind := 0, cs := 0, ctx := 0, win := 0, reqId := 1, tag := 0, write := false, beats := [(0, 3, 0)] } : FarBurst)) })).modBrg
     (fun r =>
     { r with cur := some ({ no := 1, kind := 0, cs := 0, ctx := 0, win := 0, reqId := 1, tag := 0, write := false, beats := [(0, 3, 0)] } : FarBurst), lock := none, queue := [], remote := [], held := [] })).flag
     (LPB_CS_TIM_READY_EN 0).inForce true,
     ({ no := 1, kind := 0, cs := 0, ctx := 0, win := 0, reqId := 1, tag := 0, write := false, beats := [(0, 3, 0)] } : FarBurst),
     0, by decide +kernel⟩,
   ⟨(up).modBrg (fun r =>
     { r with remote := [(1, ({ no := 1, kind := 0, cs := 0, ctx := 0, win := 0, reqId := 1, tag := 0, write := false, beats := [(0, 3, 0)] } : FarBurst))] }),
     ({ no := 1, kind := 0, cs := 0, ctx := 0, win := 0, reqId := 1, tag := 0, write := false, beats := [(0, 3, 0)] } : FarBurst),
     1, by decide +kernel⟩,
   ⟨((((((up).modBrg (fun zz =>
     { zz with lock := some (({ no := 1, kind := 3, cs := 0, ctx := 0, win := 0, reqId := 1, tag := 0, write := false, beats := [(0, 3, 0)] } : FarBurst)) })).modBrg
     (fun zz => { zz with cur := none })).modBrg (fun zz => { zz with queue := [] })).modBrg (fun zz =>
     { zz with remote := [] })).modBrg (fun zz => { zz with held := [] })).modBrg (fun r =>
     { r with cur := none, lock := some ({ no := 1, kind := 3, cs := 0, ctx := 0, win := 0, reqId := 1, tag := 0, write := false, beats := [(0, 3, 0)] } : FarBurst), queue := [], remote := [], held := [] }),
     ({ no := 1, kind := 3, cs := 0, ctx := 0, win := 0, reqId := 1, tag := 0, write := false, beats := [(0, 3, 0)] } : FarBurst),
     1, by decide +kernel⟩,
   ⟨((((((up).modBrg (fun zz => { zz with lock := none })).modBrg (fun zz => { zz with cur := none })).modBrg (fun zz =>
     { zz with queue := [] })).modBrg (fun zz => { zz with remote := [] })).modBrg (fun zz => { zz with held := [] })).modBrg (fun r
     => { r with cur := none, lock := none, queue := [], remote := [], held := [] }), by decide +kernel⟩,
   ⟨(up).modBrg (fun zz =>
     { zz with lock := some (({ no := 1, kind := 3, cs := 0, ctx := 5, win := 0, reqId := 1, tag := 0, write := false, beats := [(0, 3, 0)] } : FarBurst)) }),
     ({ no := 1, kind := 3, cs := 0, ctx := 5, win := 0, reqId := 1, tag := 0, write := false, beats := [(0, 3, 0)] } : FarBurst),
     by decide +kernel⟩,
   ⟨up, Path.pcie, by unfold Reaches; decide +kernel⟩,
   ⟨(up).modBrg (fun r =>
     { r with cur := some ({ no := 1, kind := 0, cs := 0, ctx := 0, win := 0, reqId := 1, tag := 0, write := false, beats := [(0, 3, 0)] } : FarBurst) }),
     Path.pcie, by unfold Reaches; decide +kernel⟩,
   ⟨(up).modBrg (fun zz => { zz with fence := ((Path.pcie), []) :: ([]) }), Path.pcie, [], by decide +kernel⟩,
   ⟨(up).modBrg (fun zz => { zz with fence := ((Path.pcie), ([1])) :: ([]) }), Path.pcie, [1], [], by decide +kernel⟩,
   ⟨up, Path.pcie, by unfold Reaches; decide +kernel⟩,
   ⟨((((((up).modBrg (fun zz => { zz with lock := none })).modBrg (fun zz => { zz with cur := none })).modBrg (fun zz =>
     { zz with queue := [] })).modBrg (fun zz => { zz with remote := [] })).modBrg (fun zz =>
     { zz with held := [(4, (({ no := 1, kind := 3, cs := 0, ctx := 0, win := 0, reqId := 1, tag := 0, write := false, beats := [(0, 3, 0)] } : FarBurst)))] })).modBrg
     (fun r =>
     { r with cur := none, lock := none, queue := [], remote := [], held := [(4, ({ no := 1, kind := 3, cs := 0, ctx := 0, win := 0, reqId := 1, tag := 0, write := false, beats := [(0, 3, 0)] } : FarBurst))] }),
     ({ no := 1, kind := 3, cs := 0, ctx := 0, win := 0, reqId := 1, tag := 0, write := false, beats := [(0, 3, 0)] } : FarBurst),
     4, by decide +kernel⟩⟩

theorem witness_LowSpeedUnitCommands :
    (∃ (s : State) (k : Nat) (u : Nat), s.domOn 9 = true ∧ unitExists k u = true ∧ s.unitOn k u = false) ∧
    (∃ (s : State) (d : List Byte), s.domOn 9 = true ∧ s.isOn 26 = true ∧ d.length = 4) ∧
    (∃ (s : State) (p : Nat), p < 32 ∧ s.isOn 26 = true ∧ s.bit LSIO_GPIO_EVEN p = false) ∧
    (∃ (s : State) (u : Nat) (d : List Byte), s.unitOn 1 u = true ∧ d.length ≤ 256 ∧ ((s.raise 26 1).lsioSend 1 u 2 0 0 0 d).isOn 29
      = false) ∧
    (∃ (s : State) (u : Nat), s.unitOn 2 u = true) ∧
    (∃ (s : State) (k : Nat) (u : Nat), s.domOn 9 = true ∧ unitExists k u = false) ∧
    (∃ (s : State) (u : Nat), s.domOn 9 = true ∧ s.unitOn 1 u = true) ∧
    (∃ (s : State), s.domOn 9 = true ∧ s.isOn 26 = true) :=
  ⟨⟨up, 1, 3, by decide +kernel⟩,
   ⟨up, ([1, 2, 3, 4] : List Byte), by decide +kernel⟩,
   ⟨(up).setBit LSIO_GPIO_EVEN 31 false, 31, by decide +kernel⟩,
   ⟨(((bare).wr (PG_STATE_LIFE 26) 2).wr (PG_STATE_LIFE 29) 0).flag (LSIO_UART_CFG_EN 1).inForce true, 1, (List.replicate 256 0 :
     List Byte), by decide +kernel⟩,
   ⟨(up).flag (LSIO_I2C_CFG_EN 1).inForce true, 1, by decide +kernel⟩,
   ⟨up, 4, 1, by decide +kernel⟩,
   ⟨((up).wr (PG_STATE_LIFE 26) 2).flag (LSIO_UART_CFG_EN 3).inForce true, 3, by decide +kernel⟩,
   ⟨up, by decide +kernel⟩⟩

theorem witness_TranslationCommands :
    (∃ (s : State) (p : Path), Reaches s p ATU_INV_CTRL_GO.addr ∧ s.crown = true) ∧
    (∃ (s : State) (p : Path), Reaches s p ATU_INV_CTRL_GO.addr ∧ s.crown = false) ∧
    (∃ (s : State) (i : Inval) (r : List Inval), s.dma.inv = i :: r ∧ i.epoch < 65536) ∧
    (∃ (s : State) (p : Path), Reaches s p ATU_INV_SYNC_EPOCH.addr ∧ s.crown = true ∧ s.syncReady (s.rd ATU_INV_EPOCH_ISSUED) =
      true) ∧
    (∃ (s : State) (p : Path), Reaches s p ATU_INV_SYNC_EPOCH.addr ∧ s.crown = true ∧ s.syncReady (s.rd ATU_INV_EPOCH_ISSUED) =
      false) ∧
    (∃ (s : State) (p : Path) (e : Nat) (r : List (Path × Nat)), s.dma.sync = (p, e) :: r ∧ s.syncReady e = true) ∧
    (∃ (s : State) (c : Nat) (w : Walk), (s.chan c).walk = some w ∧ s.walkOvertaken w 4096 = false ∧ s.rd (ATU_ROOT_LO_MODE w.asid)
      = 1 ∧ w.level = 1) ∧
    (∃ (s : State) (c : Nat) (w : Walk), (s.chan c).walk = some w ∧ s.walkOvertaken w 4096 = false ∧ s.walkOvertaken w (2 ^ 21) =
      false ∧ s.rd (ATU_ROOT_LO_MODE w.asid) = 1) ∧
    (∃ (s : State) (c : Nat) (w : Walk), (s.chan c).walk = some w ∧ s.walkOvertaken w 4096 = false ∧ s.rd (ATU_ROOT_LO_MODE w.asid)
      = 1) ∧
    (∃ (s : State) (p : Path), Reaches s p (ATU_FF_REC 7).addr) ∧
    (∃ (s : State) (c : Nat) (w : Walk) (k : Nat), (s.chan c).walk = some w ∧ s.walkOvertaken w 4096 = false ∧ s.rd
      (ATU_ROOT_LO_MODE w.asid) = 1 ∧ s.chAsid c = w.asid ∧ w.level = 3 ∧ w.write = true ∧ k < 2 ^ 36) ∧
    (∃ (s : State) (c : Nat) (w : Walk), (s.chan c).walk = some w ∧ w.marked = true ∧ s.rd (ATU_ROOT_LO_MODE w.asid) = 1) :=
  ⟨⟨(up).flag SYS_TREE_POS_CROWN true, Path.pcie, by unfold Reaches; decide +kernel⟩,
   ⟨(up).flag SYS_TREE_POS_CROWN false, Path.pcie, by unfold Reaches; decide +kernel⟩,
   ⟨(up).modDma (fun zz => { zz with inv := ((⟨65535, 0, 0, 0, 0⟩ : Inval)) :: ([]) }), (⟨65535, 0, 0, 0, 0⟩ : Inval), [],
     by decide +kernel⟩,
   ⟨(up).flag SYS_TREE_POS_CROWN true, Path.pcie, by unfold Reaches; decide +kernel⟩,
   ⟨(((up).flag SYS_TREE_POS_CROWN true).wr ATU_INV_EPOCH_ISSUED 5).wr ATU_INV_EPOCH_DONE 4, Path.pcie,
     by unfold Reaches; decide +kernel⟩,
   ⟨(up).modDma (fun zz => { zz with sync := ((Path.pcie), 0) :: ([]) }), Path.pcie, 0, [], by decide +kernel⟩,
   ⟨(((up).modChan 31 (fun zz => { zz with walk := some ((⟨0, 0x1000, false, true, 1, 5, false, false⟩ : Walk)) })).modChan 31 (fun
     r => { r with walk := some (⟨0, 0x1000, false, true, 1, 5, false, false⟩ : Walk) })).wr (ATU_ROOT_LO_MODE 0) 1, 31, (⟨0,
     0x1000, false, true, 1, 5, false, false⟩ : Walk), by decide +kernel⟩,
   ⟨(((up).modChan 31 (fun zz => { zz with walk := some ((⟨0, 0x1000, false, true, 1, 5, false, false⟩ : Walk)) })).modChan 31 (fun
     r => { r with walk := some (⟨0, 0x1000, false, true, 1, 5, false, false⟩ : Walk) })).wr (ATU_ROOT_LO_MODE 0) 1, 31, (⟨0,
     0x1000, false, true, 1, 5, false, false⟩ : Walk), by decide +kernel⟩,
   ⟨(((up).modChan 31 (fun zz => { zz with walk := some ((⟨0, 0x1000, false, true, 1, 5, false, false⟩ : Walk)) })).modChan 31 (fun
     r => { r with walk := some (⟨0, 0x1000, false, true, 1, 5, false, false⟩ : Walk) })).wr (ATU_ROOT_LO_MODE 0) 1, 31, (⟨0,
     0x1000, false, true, 1, 5, false, false⟩ : Walk), by decide +kernel⟩,
   ⟨up, Path.pcie, by unfold Reaches; decide +kernel⟩,
   ⟨((((up).modChan 31 (fun zz => { zz with walk := some ((⟨0, 0x1234, true, false, 3, 5, false, false⟩ : Walk)) })).modChan 31 (fun
     r => { r with walk := some (⟨0, 0x1234, true, false, 3, 5, false, false⟩ : Walk) })).wr (ATU_ROOT_LO_MODE 0) 1).wr
     (DMA_CH_CTRL_ASID 31).inForce 0, 31, (⟨0, 0x1234, true, false, 3, 5, false, false⟩ : Walk), 2^36-1, by decide +kernel⟩,
   ⟨(((up).modChan 31 (fun zz => { zz with walk := some ((⟨0, 0x1000, false, true, 2, 5, true, false⟩ : Walk)) })).modChan 31 (fun r
     => { r with walk := some (⟨0, 0x1000, false, true, 2, 5, true, false⟩ : Walk) })).wr (ATU_ROOT_LO_MODE 0) 1, 31, (⟨0, 0x1000,
     false, true, 2, 5, true, false⟩ : Walk), by decide +kernel⟩⟩

theorem witness_DmaChannelCommands :
    (∃ (s : State) (p : Path) (c : Nat) (v : Nat), c < 32 ∧ Reaches s p (DMA_TAIL c).addr ∧ s.crown = true ∧ s.isRing c = false ∧ v
      % 65536 < s.chSize c) ∧
    (∃ (s : State) (p : Path) (c : Nat) (v : Nat), c < 32 ∧ Reaches s p (DMA_TAIL c).addr ∧ s.crown = true ∧ s.isRing c = false ∧
      s.chSize c ≤ v % 65536) ∧
    (∃ (s : State) (p : Path) (c : Nat), c < 32 ∧ Reaches s p (DMA_CH_CTRL_EN c).addr ∧ s.crown = true ∧ s.isRing c = false) ∧
    (∃ (s : State) (p : Path) (c : Nat), c < 32 ∧ Reaches s p ATU_RESUME_CHAN.addr ∧ s.crown = true ∧ s.on (DMA_CH_STATE_HALT c) =
      true) ∧
    (∃ (s : State) (p : Path) (c : Nat), c < 32 ∧ Reaches s p ATU_RESUME_CHAN.addr ∧ s.on (DMA_CH_STATE_HALT c) = false) ∧
    (∃ (s : State) (c : Nat) (d : List Byte) (x : Xl), c < 32 ∧ s.crown = true ∧ s.isOn 24 = true ∧ s.chOn c = true ∧ s.on
      (DMA_CH_STATE_HALT c) = false ∧ d.length = 32 ∧ (s.chan c).inFrame = true ∧ (s.chan c).full = [] ∧ (s.chan c).descs = [] ∧
      (s.chan c).wb = [] ∧ s.chT2h c = true ∧ (s.chan c).skip = none ∧ s.rd (DMA_HEAD c) < s.chSize c ∧ s.rd (DMA_HEAD c) ≠ s.rd
      (DMA_TAIL c) ∧ s.theXl c (s.ringIova c (s.rd (DMA_HEAD c))) false = some x) ∧
    (∃ (s : State) (c : Nat) (n : Nat), c < 32 ∧ s.crown = true ∧ s.isOn 24 = true ∧ s.on (PG_STATE_WEDGED 24) = false ∧ s.chOn c =
      true ∧ s.chT2h c = false ∧ s.on (DMA_CH_STATE_HALT c) = false ∧ ((∀ x : Nat, x < 32 → x ≠ c → s.rd (DMA_CH_STATE_LIFE x) =
      lifeOff)) ∧ ((∀ x : Nat, x < 32 → (s.chan x).wb = [])) ∧ (s.chan c).h2tNext = some n ∧ s.cellReady c false = true) ∧
    (∃ (s : State), s.crown = true ∧ s.isOn 24 = true ∧ s.on (PG_STATE_WEDGED 24) = false ∧ ((∀ x : Nat, x < 32 → s.rd
      (DMA_CH_STATE_LIFE x) = lifeOff)) ∧ ((∀ x : Nat, x < 32 → (s.chan x).wb = [])) ∧ s.gird.queues = []) ∧
    (∃ (s : State) (c : Nat) (v : Nat), 16 ≤ c ∧ c < 32 ∧ Reaches s .pcie (DMA_TAIL c).addr ∧ s.crown = true ∧ s.on DMA_NIC_CTRL_EN
      = true ∧ v % 65536 < s.chSize c) ∧
    (∃ (s : State) (c : Nat), s.rd (DMA_CH_STATE_LIFE c) = lifeOn ∧ s.on (DMA_CH_STATE_HALT c) = false ∧ s.on (DMA_CH_STATE_WAIT c)
      = false) ∧
    (∃ (s : State) (c : Nat), (s.chan c).failed = none) :=
  ⟨⟨((up).flag SYS_TREE_POS_CROWN true).wr (DMA_RING_SIZE_LOG2 31).inForce 12, Path.pcie, 31, 0x10FFF,
     by unfold Reaches; decide +kernel⟩,
   ⟨((up).flag SYS_TREE_POS_CROWN true).wr (DMA_RING_SIZE_LOG2 31).inForce 12, Path.pcie, 31, 4096,
     by unfold Reaches; decide +kernel⟩,
   ⟨(up).flag SYS_TREE_POS_CROWN true, Path.pcie, 31, by unfold Reaches; decide +kernel⟩,
   ⟨((up).flag SYS_TREE_POS_CROWN true).flag (DMA_CH_STATE_HALT 31) true, Path.pcie, 31, by unfold Reaches; decide +kernel⟩,
   ⟨(up).flag (DMA_CH_STATE_HALT 31) false, Path.pcie, 31, by unfold Reaches; decide +kernel⟩,
   ⟨(((((((((((((up).flag SYS_TREE_POS_CROWN true).wr (DMA_CH_STATE_LIFE 31) 2).flag (DMA_CH_STATE_HALT 31) false).modChan 31 (fun
     zz => { zz with inFrame := true })).modChan 31 (fun zz => { zz with full := [] })).modChan 31 (fun zz =>
     { zz with descs := [] })).modChan 31 (fun zz => { zz with wb := [] })).modChan 31 (fun zz => { zz with skip := none })).wr
     (DMA_CH_CTRL_DIR 31).inForce 1).wr (DMA_RING_SIZE_LOG2 31).inForce 5).wr (DMA_TAIL 31) 1).wr (ATU_ROOT_LO_MODE 0) 1).modChan 31
     (fun r => { r with inFrame := true, xl := [{ page := 0, bus := 0x5000, write := false }] }), 31, (List.replicate 32 0 : List
     Byte), ({ page := 0, bus := 0x5000, write := false } : Xl), by decide +kernel⟩,
   ⟨((((((((((((((((((((((((((((((((((((up).flag SYS_TREE_POS_CROWN true).wr (DMA_CH_STATE_LIFE 31) 2).wr (DMA_CH_CTRL_DIR
     31).inForce 0).wr (ATU_ROOT_LO_MODE 0) 1).modChan 31 (fun r_ =>
     { r_ with descs := [{ idx := 0, buf := 0x5000, len := 10, sof := true, eof := true, irq := false, stamp := false }], xl := [{ page := 0x5000, bus := 0x9000, write := false }] })).wr
     (DMA_CH_STATE_LIFE 0) 0).wr (DMA_CH_STATE_LIFE 1) 0).wr (DMA_CH_STATE_LIFE 2) 0).wr (DMA_CH_STATE_LIFE 3) 0).wr
     (DMA_CH_STATE_LIFE 4) 0).wr (DMA_CH_STATE_LIFE 5) 0).wr (DMA_CH_STATE_LIFE 6) 0).wr (DMA_CH_STATE_LIFE 7) 0).wr
     (DMA_CH_STATE_LIFE 8) 0).wr (DMA_CH_STATE_LIFE 9) 0).wr (DMA_CH_STATE_LIFE 10) 0).wr (DMA_CH_STATE_LIFE 11) 0).wr
     (DMA_CH_STATE_LIFE 12) 0).wr (DMA_CH_STATE_LIFE 13) 0).wr (DMA_CH_STATE_LIFE 14) 0).wr (DMA_CH_STATE_LIFE 15) 0).wr
     (DMA_CH_STATE_LIFE 16) 0).wr (DMA_CH_STATE_LIFE 17) 0).wr (DMA_CH_STATE_LIFE 18) 0).wr (DMA_CH_STATE_LIFE 19) 0).wr
     (DMA_CH_STATE_LIFE 20) 0).wr (DMA_CH_STATE_LIFE 21) 0).wr (DMA_CH_STATE_LIFE 22) 0).wr (DMA_CH_STATE_LIFE 23) 0).wr
     (DMA_CH_STATE_LIFE 24) 0).wr (DMA_CH_STATE_LIFE 25) 0).wr (DMA_CH_STATE_LIFE 26) 0).wr (DMA_CH_STATE_LIFE 27) 0).wr
     (DMA_CH_STATE_LIFE 28) 0).wr (DMA_CH_STATE_LIFE 29) 0).wr (DMA_CH_STATE_LIFE 30) 0, 31, 10, by decide +kernel⟩,
   ⟨(((((((((((((((((((((((((((((((((((up).flag SYS_TREE_POS_CROWN true).flag (PG_STATE_WEDGED 24) false).modGird (fun zz =>
     { zz with queues := [] })).wr (DMA_CH_STATE_LIFE 0) 0).wr (DMA_CH_STATE_LIFE 1) 0).wr (DMA_CH_STATE_LIFE 2) 0).wr
     (DMA_CH_STATE_LIFE 3) 0).wr (DMA_CH_STATE_LIFE 4) 0).wr (DMA_CH_STATE_LIFE 5) 0).wr (DMA_CH_STATE_LIFE 6) 0).wr
     (DMA_CH_STATE_LIFE 7) 0).wr (DMA_CH_STATE_LIFE 8) 0).wr (DMA_CH_STATE_LIFE 9) 0).wr (DMA_CH_STATE_LIFE 10) 0).wr
     (DMA_CH_STATE_LIFE 11) 0).wr (DMA_CH_STATE_LIFE 12) 0).wr (DMA_CH_STATE_LIFE 13) 0).wr (DMA_CH_STATE_LIFE 14) 0).wr
     (DMA_CH_STATE_LIFE 15) 0).wr (DMA_CH_STATE_LIFE 16) 0).wr (DMA_CH_STATE_LIFE 17) 0).wr (DMA_CH_STATE_LIFE 18) 0).wr
     (DMA_CH_STATE_LIFE 19) 0).wr (DMA_CH_STATE_LIFE 20) 0).wr (DMA_CH_STATE_LIFE 21) 0).wr (DMA_CH_STATE_LIFE 22) 0).wr
     (DMA_CH_STATE_LIFE 23) 0).wr (DMA_CH_STATE_LIFE 24) 0).wr (DMA_CH_STATE_LIFE 25) 0).wr (DMA_CH_STATE_LIFE 26) 0).wr
     (DMA_CH_STATE_LIFE 27) 0).wr (DMA_CH_STATE_LIFE 28) 0).wr (DMA_CH_STATE_LIFE 29) 0).wr (DMA_CH_STATE_LIFE 30) 0).wr
     (DMA_CH_STATE_LIFE 31) 0, by decide +kernel⟩,
   ⟨((up).flag SYS_TREE_POS_CROWN true).flag DMA_NIC_CTRL_EN true, 31, 0, by unfold Reaches; decide +kernel⟩,
   ⟨(((up).wr (DMA_CH_STATE_LIFE 31) (lifeOn)).flag (DMA_CH_STATE_HALT 31) false).flag (DMA_CH_STATE_WAIT 31) false, 31,
     by decide +kernel⟩,
   ⟨(up).modChan 31 (fun zz => { zz with failed := none }), 31, by decide +kernel⟩⟩

theorem witness_DisplaySourceAndSink :
    (∃ (s : State) (line : Nat) (t : DpTiming) (dsc : Bool) (fec : Bool), s.isOn 27 = true ∧ s.on DPI_STATUS_TRAINED = true ∧
      dpSupported t dsc fec = true ∧ line ≠ 0) ∧
    (∃ (s : State) (c : Cell), s.isOn 28 = true ∧ s.dp.tim = none ∧ c.fs = true ∧ c.inc = false ∧ c.ls = true ∧ byteAt c.payload 0 ≠
      2) ∧
    (∃ (s : State) (t : DpTiming) (l : DpLine), s.isOn 28 = true ∧ s.dp.tim = some t ∧ s.dpoFits t = true ∧ s.rd DPO_STATUS_MODE ≠
      dpCameo ∧ s.dp.next = none ∧ s.dp.held.find? (fun l => l.line == 0) = some l) ∧
    (∃ (s : State) (t : DpTiming) (f : Nat) (n : Nat), s.isOn 28 = true ∧ s.dp.tim = some t ∧ s.dpoFits t = true ∧ s.rd
      DPO_STATUS_MODE ≠ dpCameo ∧ s.dp.next = some (f, n + 1) ∧ s.dp.held = [] ∧ s.dp.blackFrame = false) ∧
    (∃ (s : State), s.isOn 28 = true ∧ s.dp.commit = false ∧ (s.applyRwp 28).rd DPO_STATUS_MODE = dpCameo ∧ (s.applyRwp
      28).cameoMayLeave = false) ∧
    (∃ (s : State), s.isOn 28 = true ∧ s.dp.commit = false ∧ (s.applyRwp 28).rd DPO_STATUS_MODE = dpCameo ∧ (s.applyRwp
      28).cameoMayLeave = true) ∧
    (∃ (s : State), s.isOn 28 = true ∧ s.rd DPO_STATUS_MODE ≠ dpCameo ∧ s.dp.forceOff = none) ∧
    (∃ (s : State) (p : Path), Reaches s p DPO_CAMEO_CMD_FORCE.addr) ∧
    (∃ (s : State) (p : Path), Reaches s p DPO_CAMEO_CMD_COMMIT.addr) ∧
    (∃ (s : State), s.isOn 27 = true) ∧
    (∃ (s : State) (l : Nat) (r : Nat), s.isOn 28 = true ∧ s.dp.tim = none ∧ l < 4 ∧ r < 4) ∧
    (∃ (s : State), s.isOn 27 = true ∧ s.on DPI_STATUS_TRAINED = true) ∧
    (∃ (s : State) (t : DpTiming) (f : Nat), s.isOn 28 = true ∧ s.dp.tim = some t ∧ s.dpoFits t = true ∧ s.rd DPO_STATUS_MODE ≠
      dpCameo ∧ s.dp.next = some (f, 0) ∧ s.dp.held = []) ∧
    (∃ (s : State) (l : Nat) (r : Nat), s.isOn 27 = true ∧ l < 4 ∧ r < 4) :=
  ⟨⟨(up).flag DPI_STATUS_TRAINED true, 7, (⟨100, 80, 10, 5, 100, 80, 10, 5, 1, 0x80, 0, 0⟩ : DpTiming), false, false,
     by decide +kernel⟩,
   ⟨(up).modDp (fun zz => { zz with tim := none }), ({ fs := true, ls := true, payload := [1] } : Cell), by decide +kernel⟩,
   ⟨((((((up).modDp (fun zz => { zz with tim := some ((⟨100, 80, 10, 5, 100, 80, 10, 5, 1, 0x80, 0, 0⟩ : DpTiming)) })).wr
     DPO_STATUS_MODE (dpCameo+1)).modDp (fun zz => { zz with next := none })).modDp (fun r =>
     { r with held := [(⟨0, 1, 0, 4, []⟩ : DpLine)] })).modDp (fun r => { r with trained := true })).wr DPO_STATUS_LANES 0, (⟨100,
     80, 10, 5, 100, 80, 10, 5, 1, 0x80, 0, 0⟩ : DpTiming), (⟨0, 1, 0, 4, []⟩ : DpLine), by decide +kernel⟩,
   ⟨(((((((up).modDp (fun zz => { zz with tim := some ((⟨100, 80, 10, 5, 100, 80, 10, 5, 1, 0x80, 0, 0⟩ : DpTiming)) })).wr
     DPO_STATUS_MODE (dpCameo+1)).modDp (fun zz => { zz with next := some (1, 4 + 1) })).modDp (fun zz =>
     { zz with held := [] })).modDp (fun zz => { zz with blackFrame := false })).modDp (fun r => { r with trained := true })).wr
     DPO_STATUS_LANES 0, (⟨100, 80, 10, 5, 100, 80, 10, 5, 1, 0x80, 0, 0⟩ : DpTiming), 1, 4, by decide +kernel⟩,
   ⟨((up).modDp (fun zz => { zz with commit := false })).wr DPO_STATUS_MODE dpCameo, by decide +kernel⟩,
   ⟨(((((up).modDp (fun zz => { zz with commit := false })).wr DPO_STATUS_MODE dpCameo).modDp (fun r =>
     { r with line0 := true, tim := some (⟨100, 80, 10, 5, 100, 80, 10, 5, 1, 0x80, 0, 0⟩ : DpTiming) })).modDp (fun r =>
     { r with trained := true })).wr DPO_STATUS_LANES 0, by decide +kernel⟩,
   ⟨((up).wr DPO_STATUS_MODE (dpCameo+1)).modDp (fun zz => { zz with forceOff := none }), by decide +kernel⟩,
   ⟨up, Path.pcie, by unfold Reaches; decide +kernel⟩,
   ⟨up, Path.pcie, by unfold Reaches; decide +kernel⟩,
   ⟨up, by decide +kernel⟩,
   ⟨(up).modDp (fun zz => { zz with tim := none }), 3, 3, by decide +kernel⟩,
   ⟨(up).flag DPI_STATUS_TRAINED true, by decide +kernel⟩,
   ⟨((((((up).modDp (fun zz => { zz with tim := some ((⟨100, 80, 10, 5, 100, 80, 10, 5, 1, 0x80, 0, 0⟩ : DpTiming)) })).wr
     DPO_STATUS_MODE (dpCameo+1)).modDp (fun zz => { zz with next := some (65535, 0) })).modDp (fun zz =>
     { zz with held := [] })).modDp (fun r => { r with trained := true })).wr DPO_STATUS_LANES 0, (⟨100, 80, 10, 5, 100, 80, 10, 5,
     1, 0x80, 0, 0⟩ : DpTiming), 65535, by decide +kernel⟩,
   ⟨up, 3, 3, by decide +kernel⟩⟩

theorem witness_DisplayAuxAndAltMode :
    (∃ (s : State) (a : Nat) (d : List Byte), s.isOn 27 = true ∧ 0x100 ≤ a ∧ a + max 1 d.length ≤ 0x300 ∧ d.length ≤ 16) ∧
    (∃ (s : State) (a : Nat) (n : Nat), s.isOn 27 = true ∧ n ≤ 16 ∧ 0x300 ≤ a ∧ s.dp.fwd = none ∧ s.engUp 10 = true) ∧
    (∃ (s : State) (r : AuxReq), s.dp.fwd = some r ∧ s.dp.ans = none ∧ s.dp.nack = false ∧ s.engUp 10 = true) ∧
    (∃ (s : State) (r : AuxReq), s.dp.fwd = some r ∧ s.dp.ans = none ∧ s.dp.nack = false) ∧
    (∃ (s : State) (l : Bool), s.isOn 28 = true ∧ s.rd DPO_DPALT_STATUS_MUX_SEL = 0 ∧ s.on DPO_STATUS_HPD_IN ≠ l) ∧
    (∃ (s : State), s.domOn 10 = true ∧ s.engUp 10 = true) ∧
    (∃ (s : State) (p : Path), Reaches s p DPO_DPALT_CTRL_ENTERED.addr ∧ s.on SVC_TC_STATUS_ATTACHED = true) ∧
    (∃ (s : State) (p : Path), Reaches s p DPO_DPALT_CTRL_ENTERED.addr ∧ s.on SVC_TC_STATUS_ATTACHED = false) ∧
    (∃ (s : State), s.rd DPO_DPALT_STATUS_MUX_SEL ≠ 0 ∧ s.dp.settled = false) ∧
    (∃ (s : State) (p : Path), Reaches s p DPO_DPALT_CTRL_IRQ_HPD.addr ∧ s.dp.settled = true ∧ s.on DPO_STATUS_HPD_IN = true) :=
  ⟨⟨up, 0x2F0, (List.replicate 16 7 : List Byte), by decide +kernel⟩,
   ⟨(up).modDp (fun zz => { zz with fwd := none }), 0x300, 16, by decide +kernel⟩,
   ⟨(((up).modDp (fun zz => { zz with fwd := some ((⟨false, true, 0x300, 1, []⟩ : AuxReq)) })).modDp (fun zz =>
     { zz with ans := none })).modDp (fun zz => { zz with nack := false }), (⟨false, true, 0x300, 1, []⟩ : AuxReq),
     by decide +kernel⟩,
   ⟨(((up).modDp (fun zz => { zz with fwd := some ((⟨false, true, 0x300, 1, []⟩ : AuxReq)) })).modDp (fun zz =>
     { zz with ans := none })).modDp (fun zz => { zz with nack := false }), (⟨false, true, 0x300, 1, []⟩ : AuxReq),
     by decide +kernel⟩,
   ⟨((up).wr DPO_DPALT_STATUS_MUX_SEL (0)).flag DPO_STATUS_HPD_IN (!true), true, by decide +kernel⟩,
   ⟨up, by decide +kernel⟩,
   ⟨(up).flag SVC_TC_STATUS_ATTACHED true, Path.pcie, by unfold Reaches; decide +kernel⟩,
   ⟨(up).flag SVC_TC_STATUS_ATTACHED false, Path.pcie, by unfold Reaches; decide +kernel⟩,
   ⟨((up).wr DPO_DPALT_STATUS_MUX_SEL (0+1)).modDp (fun zz => { zz with settled := false }), by decide +kernel⟩,
   ⟨((up).modDp (fun zz => { zz with settled := true })).flag DPO_STATUS_HPD_IN true, Path.pcie, by unfold Reaches; decide +kernel⟩⟩

theorem witness_UsbFunctionCommands :
    (∃ (s : State) (r : Nat), s.iface 1 = true ∧ s.rd USBD_CTRL_ACM_ROUTE = r ∧ r ≤ 3 ∧ s.isOn 26 = true ∧ s.on (LSIO_UART_CFG_EN
      r).inForce = true) ∧
    (∃ (s : State), s.iface 1 = true ∧ 3 < s.rd USBD_CTRL_ACM_ROUTE) ∧
    (∃ (s : State) (p : Nat), s.iface 1 = true ∧ s.rd USBD_CTRL_ACM_ROUTE ≤ 3 ∧ 2 < p) ∧
    (∃ (s : State) (b : Nat) (r : Nat), s.iface 1 = true ∧ s.rd USBD_CTRL_ACM_ROUTE = r ∧ r ≤ 3 ∧ b ≠ 0 ∧ 5 ≤ baudDiv b ∧ baudDiv b
      ≤ 55556) ∧
    (∃ (s : State), s.iface 1 = true ∧ s.rd USBD_CTRL_ACM_ROUTE ≤ 3) ∧
    (∃ (s : State), s.iface 2 = true) ∧
    (∃ (s : State), s.isOn 29 = true ∧ 1 ≤ s.rd USBD_STATUS_STATE ∧ s.usb.left = false) ∧
    (∃ (s : State) (v : Bool), s.isOn 29 = true ∧ 3 ≤ s.rd USBD_STATUS_STATE ∧ s.on USBD_STATUS_SUSPENDED ≠ v) ∧
    (∃ (s : State), s.mayWake false = true) ∧
    (∃ (s : State) (f : Nat) (x : Nat), s.crown = true ∧ s.isOn 30 = true ∧ (f % 2048 + 2048 - (x + 62500) / 125000 % 2 ^ 32 / 8 %
      2048) % 2048 = s.rd USBH_FN_OFS_OFS) ∧
    (∃ (s : State) (m : List Byte), s.isOn 30 = true ∧ s.crown = false ∧ byteAt m 0 = 5 ∧ beNat ((m.drop 8).take 4) % 2048 ≠ s.rd
      USBH_FN_OFS_OFS) ∧
    (∃ (s : State), s.mayWake true = true) :=
  ⟨⟨(((((up).wr USBD_CTRL_ACM_ROUTE (3)).flag (LSIO_UART_CFG_EN 3).inForce true).wr USBD_STATUS_STATE 3).wr USBD_CTRL_ACM_ROUTE
     3).flag (LSIO_UART_CFG_EN 3).inForce true, 3, by decide +kernel⟩,
   ⟨(((up).wr USBD_CTRL_ACM_ROUTE (3+1)).wr USBD_STATUS_STATE 3).wr USBD_CTRL_ACM_ROUTE 4, by decide +kernel⟩,
   ⟨((up).wr USBD_STATUS_STATE 3).wr USBD_CTRL_ACM_ROUTE 3, 3, by decide +kernel⟩,
   ⟨(((up).wr USBD_CTRL_ACM_ROUTE (3)).wr USBD_STATUS_STATE 3).wr USBD_CTRL_ACM_ROUTE 3, 9600, 3, by decide +kernel⟩,
   ⟨((up).wr USBD_STATUS_STATE 3).wr USBD_CTRL_ACM_ROUTE 3, by decide +kernel⟩,
   ⟨(up).wr USBD_STATUS_STATE 3, by decide +kernel⟩,
   ⟨((up).wr USBD_STATUS_STATE 1).modUsb (fun zz => { zz with left := false }), by decide +kernel⟩,
   ⟨(((up).wr USBD_STATUS_STATE 3).flag USBD_STATUS_SUSPENDED (!true)).wr USBD_STATUS_STATE 3, true, by decide +kernel⟩,
   ⟨((((up).flag USBD_STATUS_SUSPENDED true).flag USBD_STATUS_RWAKE true).modUsb (fun r =>
     { r with fnSusp := 0, hubSusp := 0, hubWake := true, hubRwake := true })).modTime (fun r => { r with ran := 5000000 }),
     by decide +kernel⟩,
   ⟨((up).flag SYS_TREE_POS_CROWN true).wr USBH_FN_OFS_OFS 5, 5, 0, by decide +kernel⟩,
   ⟨((up).flag SYS_TREE_POS_CROWN false).wr USBH_FN_OFS_OFS 9, ([5, 0, 0, 0] : List Byte), by decide +kernel⟩,
   ⟨(((up).flag USBH_HUB_STATUS_SUSPENDED true).modUsb (fun r =>
     { r with fnSusp := 0, hubSusp := 0, hubWake := true, hubRwake := true })).modTime (fun r => { r with ran := 5000000 }),
     by decide +kernel⟩⟩

theorem witness_UsbHubPortCommands :
    (∃ (s : State) (u : Nat), ((u = 0 ∧ s.on SVC_TC_STATUS_DATA_ROLE = true) ∨ (2 ≤ u ∧ u ≤ 5)) ∧ s.isOn 30 = true) ∧
    (∃ (s : State) (p : Nat) (m : List Byte), s.crown = true ∧ s.isOn 30 = true ∧ 1 ≤ p ∧ p ≤ 15 ∧ byteAt m 0 = 4) ∧
    (∃ (s : State) (p : Nat), s.crown = true ∧ s.isOn 30 = true ∧ 1 ≤ p ∧ p ≤ 15 ∧ s.on (USBH_PORT_ST_CONNECTED p) = true ∧
      s.usb.deferred = []) ∧
    (∃ (s : State) (n : Nat), s.isOn 30 = true ∧ n ≤ 5 ∧ n ≠ 1 ∧ bitsOf (s.rd (USBH_LPORT_ST n)) 5 5 = 0) ∧
    (∃ (s : State) (n : Nat), s.isOn 30 = true ∧ n ≤ 5 ∧ n ≠ 1) ∧
    (∃ (s : State) (n : Nat), s.isOn 30 = true ∧ n ≤ 5 ∧ n ≠ 1 ∧ bitsOf (s.rd (USBH_LPORT_ST n)) 7 7 = 1) ∧
    (∃ (s : State), s.isOn 30 = true ∧ s.crown = true ∧ s.mappedPorts = []) ∧
    (∃ (s : State) (n : Nat), s.isOn 30 = true ∧ s.crown = true ∧ 1 ≤ n ∧ n ≤ 15 ∧ s.usb.hubRwake = true ∧ s.on
      USBH_HUB_STATUS_SUSPENDED = true) ∧
    (∃ (s : State) (n : Nat), s.isOn 30 = true ∧ n ≤ 5 ∧ n ≠ 1 ∧ bitsOf (s.rd (USBH_LPORT_ST n)) 5 5 = 1) ∧
    (∃ (s : State) (n : Nat), s.isOn 30 = true ∧ s.crown = true ∧ 1 ≤ n ∧ n ≤ 15 ∧ s.on USBH_HUB_STATUS_SUSPENDED = false) :=
  ⟨⟨up, 5, by decide +kernel⟩,
   ⟨(up).flag SYS_TREE_POS_CROWN true, 15, ([4, 0, 0, 0, 0, 0, 0, 0, 0, 0, 0, 32] : List Byte), by decide +kernel⟩,
   ⟨((((up).flag SYS_TREE_POS_CROWN true).flag (USBH_PORT_ST_CONNECTED 15) true).modUsb (fun zz => { zz with deferred := [] })).flag
     (USBH_PORT_ST_CONNECTED 15) true, 15, by decide +kernel⟩,
   ⟨up, 5, by decide +kernel⟩,
   ⟨up, 5, by decide +kernel⟩,
   ⟨(up).wr (USBH_LPORT_ST 5) 128, 5, by decide +kernel⟩,
   ⟨(up).flag SYS_TREE_POS_CROWN true, by decide +kernel⟩,
   ⟨(((up).flag SYS_TREE_POS_CROWN true).modUsb (fun zz => { zz with hubRwake := true })).flag USBH_HUB_STATUS_SUSPENDED true, 15,
     by decide +kernel⟩,
   ⟨(up).wr (USBH_LPORT_ST 5) 32, 5, by decide +kernel⟩,
   ⟨((up).flag SYS_TREE_POS_CROWN true).flag USBH_HUB_STATUS_SUSPENDED false, 15, by decide +kernel⟩⟩

theorem witness_UsbTransactionCommands :
    (∃ (s : State) (p : Nat) (k : Nat), s.crown = true ∧ s.isOn 30 = true ∧ 1 ≤ p ∧ p ≤ 15 ∧ k ≤ 9 ∧ s.usb.absent = [] ∧ s.on
      (USBH_PORT_ST_CONNECTED p) = false) ∧
    (∃ (s : State) (p : Nat), s.crown = true ∧ s.isOn 30 = true ∧ 1 ≤ p ∧ p ≤ 15 ∧ s.usb.absent = [] ∧ s.on (USBH_PORT_ST_CONNECTED
      p) = true ∧ s.on (USBH_PORT_ST_ENABLED p) = true ∧ s.engUp 9 = true) ∧
    (∃ (s : State) (u : Nat) (m : List Byte) (r : Nat), s.isOn 30 = true ∧ byteAt m 0 = 1 ∧ u ≤ 5 ∧ u ≠ 1 ∧ r ≤ 3 ∧ (phyTrOf u
      m).typ = 2 ∧ s.usb.run.any (fun x => x.sameEp (phyTrOf u m)) = false) ∧
    (∃ (s : State) (u : Nat) (m : List Byte) (r : Nat), s.isOn 30 = true ∧ byteAt m 0 = 1 ∧ u ≤ 5 ∧ u ≠ 1 ∧ r ≤ 3 ∧ (phyTrOf u
      m).typ = 3 ∧ (phyTrOf u m).kind = 1) ∧
    (∃ (s : State) (i : Nat) (r : Nat) (x : PhyTr), s.isOn 30 = true ∧ r ≤ 3 ∧ s.usb.run[i]? = some x ∧ (s.usb.run.take i).any (fun
      y => y.sameEp x) = false) ∧
    (∃ (s : State) (i : Nat) (x : Periodic), s.isOn 30 = true ∧ s.usb.sched[i]? = some x ∧ x.isIn = true) ∧
    (∃ (s : State) (p : Nat) (m : List Byte) (d : Deferred), s.crown = true ∧ s.isOn 30 = true ∧ byteAt m 0 = 2 ∧ byteAt m 3 / 16 =
      0 ∧ s.usb.deferred.find? (fun d => d.port == p && d.tag == halfAt m 6) = some d ∧ d.res = none) ∧
    (∃ (s : State) (g : Nat) (d : Deferred), s.usb.deferred.find? (fun d => d.tag == g) = some d ∧ d.res = none ∧ d.abandoned =
      false) ∧
    (∃ (s : State) (u : Nat) (m : List Byte) (r : PhyTr), s.isOn 30 = true ∧ byteAt m 0 = 6 ∧ s.usb.run.find? (fun r => r.phy == u
      && r.tag == halfAt m 6) = some r) :=
  ⟨⟨(((up).flag SYS_TREE_POS_CROWN true).modUsb (fun zz => { zz with absent := [] })).flag (USBH_PORT_ST_CONNECTED 15) false, 15, 9,
     by decide +kernel⟩,
   ⟨((((up).flag SYS_TREE_POS_CROWN true).modUsb (fun zz => { zz with absent := [] })).flag (USBH_PORT_ST_CONNECTED 15) true).flag
     (USBH_PORT_ST_ENABLED 15) true, 15, by decide +kernel⟩,
   ⟨up, 5, ([1, 1, 18, 0, 0, 0, 0, 7] : List Byte), 3, by decide +kernel⟩,
   ⟨up, 5, ([1, 1, 27, 0, 0, 0, 0, 7] : List Byte), 3, by decide +kernel⟩,
   ⟨(up).modUsb (fun r =>
     { r with run := [({ phy := 5, tag := 7, addr := 1, ep := 1, typ := 2, kind := 1, mark := 0, data := [] } : PhyTr)] }), 0, 3,
     ({ phy := 5, tag := 7, addr := 1, ep := 1, typ := 2, kind := 1, mark := 0, data := [] } : PhyTr), by decide +kernel⟩,
   ⟨(up).modUsb (fun r => { r with sched := [({ port := 5, addr := 1, ep := 1, typ := 3, isIn := true, tag := 7 } : Periodic)] }),
     0, ({ port := 5, addr := 1, ep := 1, typ := 3, isIn := true, tag := 7 } : Periodic), by decide +kernel⟩,
   ⟨((up).flag SYS_TREE_POS_CROWN true).modUsb (fun r =>
     { r with deferred := [({ tag := 7, port := 15, addr := 1, ep := 1, typ := 2, kind := 1 } : Deferred)] }), 15, ([2, 1, 18, 0, 0,
     0, 0, 7] : List Byte), ({ tag := 7, port := 15, addr := 1, ep := 1, typ := 2, kind := 1 } : Deferred), by decide +kernel⟩,
   ⟨(up).modUsb (fun r => { r with deferred := [({ tag := 7, port := 15, addr := 1, ep := 1, typ := 2, kind := 1 } : Deferred)] }),
     7, ({ tag := 7, port := 15, addr := 1, ep := 1, typ := 2, kind := 1 } : Deferred), by decide +kernel⟩,
   ⟨(up).modUsb (fun r =>
     { r with run := [({ phy := 5, tag := 7, addr := 1, ep := 1, typ := 2, kind := 1, mark := 0, data := [] } : PhyTr)] }), 5, ([6,
     1, 18, 0, 0, 0, 0, 7] : List Byte), ({ phy := 5, tag := 7, addr := 1, ep := 1, typ := 2, kind := 1, mark := 0, data := [] } :
     PhyTr), by decide +kernel⟩⟩

theorem witness_EthernetPortCommands :
    (∃ (s : State) (k : Nat), k < 4 ∧ s.isOn (31 + k) = true) ∧
    (∃ (s : State) (k : Nat) (d : List Byte), k < 4 ∧ s.ethUp k = true ∧ d.length < 64) ∧
    (∃ (s : State) (k : Nat) (d : List Byte), k < 4 ∧ s.ethUp k = true ∧ 64 ≤ d.length ∧ d.length ≤ (s.inc (ETH_RX_FRAMES k)).rd
      (ETH_CTRL_MAX_LEN k).inForce) ∧
    (∃ (d : List Byte), halfAt d 12 = 0x8808) ∧
    (∃ (s : State) (k : Nat) (tc : Nat) (f : QFrame) (r : List QFrame), k < 4 ∧ tget? s.gird.openAt (6 + k) = some tc ∧ s.queue (8 *
      (6 + k) + tc) = f :: r ∧ f.started = true ∧ f.cells = []) ∧
    (∃ (s : State) (x : Nat), x < 2 ∧ s.lreMode (2 * x) ≠ 0 ∧ s.rd (FAC_ENG_STATE_STATE 7) = 2 ∧ s.ethUp (2 * x) = true ∧ s.ethUp (2
      * x + 1) = true) ∧
    (∃ (s : State) (x : Nat) (m : Nat) (q : Nat), s.rd (FAC_ENG_STATE_STATE 7) = 2 ∧ (x, m, q) ∈ s.stn.nodes ∧ q + 60000000000 ≤
      s.elapsed) ∧
    (∃ (s : State) (k : Nat), k < 4 ∧ s.isOn 37 = true ∧ s.on PTP_CTRL_ONE_STEP.inForce = false) ∧
    (∃ (s : State) (k : Nat) (q : Nat) (r : Nat × Nat × Nat × Nat), k < 4 ∧ s.isOn 37 = true ∧ s.stn.ptpTx.find? (fun e => e.1 == k
      && e.2.1 == 2 && e.2.2.1 == q) = some r) ∧
    (∃ (s : State) (k : Nat) (e : Nat × Nat × Nat × Nat), k ∈ s.stn.followUp ∧ s.rd (FAC_ENG_STATE_STATE 3) = 2 ∧ s.stn.ptpTx.find?
      (fun e => e.1 == k && e.2.1 == 0) = some e) ∧
    (∃ (s : State) (k : Nat), k < 4 ∧ s.isOn 37 = true ∧ s.rd (FAC_ENG_STATE_STATE 3) = 2) ∧
    (∃ (s : State) (k : Nat) (tc : Nat), k < 4 ∧ tget? s.gird.openAt (6 + k) = some tc ∧ s.openThere (6 + k) tc = false) ∧
    (∃ (s : State) (k : Nat), k < 4 ∧ s.isOn 37 = true ∧ s.rd (FAC_ENG_STATE_STATE 3) = 2 ∧ s.rd TIME_SRC_CTRL_SRC = 1 ∧ s.rd
      PTP_PORT_ST < 65536) :=
  ⟨⟨up, 3, by decide +kernel⟩,
   ⟨(up).flag (ETH_STATUS_LINK 3) true, 3, (List.replicate 63 0 : List Byte), by decide +kernel⟩,
   ⟨((up).flag (ETH_STATUS_LINK 3) true).wr (ETH_CTRL_MAX_LEN 3).inForce 1522, 3, (List.replicate 1522 0 : List Byte),
     by decide +kernel⟩,
   ⟨(List.replicate 12 0 ++ [0x88, 0x08] : List Byte), by decide +kernel⟩,
   ⟨(up).modGird (fun zz =>
     { zz with queues := [(8 * 9 + 3, [({ ctx := 6, eg := 0, id := 0, tc := 3, age := 0, tw := false, cells := [], started := true } : QFrame)])], openAt := [(9, 3)] }),
     3, 3, ({ ctx := 6, eg := 0, id := 0, tc := 3, age := 0, tw := false, cells := [], started := true } : QFrame), [],
     by decide +kernel⟩,
   ⟨((((up).wr (FAC_ENG_STATE_STATE 7) (2)).wr (RED_LRE_CTRL_MODE 1).inForce 1).flag (ETH_STATUS_LINK 3) true).flag (ETH_STATUS_LINK
     2) true, 1, by decide +kernel⟩,
   ⟨(((up).wr (FAC_ENG_STATE_STATE 7) (2)).modTime (fun r => { r with ran := 60000000006 })).modStn (fun r =>
     { r with nodes := [(1, 5, 6)] }), 1, 5, 6, by decide +kernel⟩,
   ⟨(up).flag PTP_CTRL_ONE_STEP.inForce false, 3, by decide +kernel⟩,
   ⟨(up).modStn (fun r => { r with ptpTx := [(3, 2, 9, 4)] }), 3, 9, (3, 2, 9, 4), by decide +kernel⟩,
   ⟨((up).wr (FAC_ENG_STATE_STATE 3) (2)).modStn (fun r => { r with followUp := [3], ptpTx := [(3, 0, 9, 4)] }), 3, (3, 0, 9, 4),
     by decide +kernel⟩,
   ⟨(up).wr (FAC_ENG_STATE_STATE 3) (2), 3, by decide +kernel⟩,
   ⟨(up).modGird (fun zz => { zz with openAt := [(9, 3)] }), 3, 3, by decide +kernel⟩,
   ⟨((up).wr (FAC_ENG_STATE_STATE 3) (2)).wr TIME_SRC_CTRL_SRC (1), 3, by decide +kernel⟩⟩

theorem witness_SubscriptionsAndPublications :
    (∃ (s : State) (i : Nat) (b : List Byte) (q : Nat) (u : State), s.takeMatched false = some ((i, b, q), u)) ∧
    (∃ (s : State) (i : Nat) (b : List Byte) (q : Nat) (u : State), s.takeMatched true = some ((i, b, q), u)) ∧
    (∃ (sN : Nat), sN < 0xFFFFFFFF) ∧
    (∃ (qN : Nat), qN < 0xFFFFFFFF) ∧
    (∃ (qN : Nat) (sq : Nat), qN + 1 < sq) ∧
    (∃ (qN : Nat) (sq : Nat), sq ≤ qN ∧ (sq ≠ 1 ∨ qN < 0xFFFFFFFF)) ∧
    (∃ (sN : Nat) (st : Nat) (sq : Nat), st ≠ sN ∧ (sq ≠ 0 ∨ st ≠ (if sN ≥ 0xFFFFFFFF then 1 else sN + 1))) ∧
    (∃ (s : State) (i : Nat) (q : Nat), i < 512 ∧ s.isOn 36 = true ∧ tget? s.stn.expiry i = some q ∧ q ≤ s.nowQ + 3) ∧
    (∃ (s : State) (i : Nat) (p : PubS), i < 32 ∧ s.isOn 36 = true ∧ s.on (PUB_EN i) = true ∧ tget? s.stn.pubs i = some p ∧ s.rd
      (PUB_STSQ i 1) < 0xFFFFFFFF) ∧
    (∃ (s : State) (p : Path), Reaches s p STN_CMD_LOAD.addr) ∧
    (∃ (s : State) (p : Path), Reaches s p STN_CMD_COMMIT.addr) ∧
    (∃ (s : State) (p : Path), Reaches s p STN_CMD_CLR_CNT.addr) ∧
    (∃ (s : State) (p : Path), s.winPub p = false ∧ s.subReason p ≠ 0) ∧
    (∃ (s : State) (p : Path), s.winPub p = true ∧ s.pubReason p ≠ 0) :=
  ⟨⟨(up).modStn (fun r => { r with matched := [(5, (List.replicate 12 0 ++ [0x88, 0xB8] : List Byte), 9)] }), 5, (List.replicate 12
     0 ++ [0x88, 0xB8] : List Byte), 9, (((up).modStn (fun r =>
     { r with matched := [(5, (List.replicate 12 0 ++ [0x88, 0xB8] : List Byte), 9)] })).modStn (fun t =>
     { t with matched := [] })), by decide +kernel⟩,
   ⟨(up).modStn (fun r => { r with matched := [(5, (List.replicate 12 0 ++ [0x88, 0xBA] : List Byte), 9)] }), 5, (List.replicate 12
     0 ++ [0x88, 0xBA] : List Byte), 9, (((up).modStn (fun r =>
     { r with matched := [(5, (List.replicate 12 0 ++ [0x88, 0xBA] : List Byte), 9)] })).modStn (fun t =>
     { t with matched := [] })), by decide +kernel⟩,
   ⟨4294967294, by decide +kernel⟩,
   ⟨4294967294, by decide +kernel⟩,
   ⟨5, 7, by decide +kernel⟩,
   ⟨5, 5, by decide +kernel⟩,
   ⟨4294967295, 1, 1, by decide +kernel⟩,
   ⟨(up).modStn (fun r => { r with expiry := [(511, 5)] }), 511, 5, by decide +kernel⟩,
   ⟨((((up).flag (PUB_EN 31) true).modStn (fun r => { r with pubs := [(31, {})] })).flag (PUB_EN 31) true).wr (PUB_STSQ 31 1)
     0xFFFFFFFE, 31, ({} : PubS), by decide +kernel⟩,
   ⟨up, Path.pcie, by unfold Reaches; decide +kernel⟩,
   ⟨up, Path.pcie, by unfold Reaches; decide +kernel⟩,
   ⟨up, Path.pcie, by unfold Reaches; decide +kernel⟩,
   ⟨(up).wr (stnWin .pcie 0) 0x40000000, Path.pcie, by decide +kernel⟩,
   ⟨(up).modStn (fun r => { r with selPub := [Path.pcie.num] }), Path.pcie, by decide +kernel⟩⟩

theorem witness_ScribeCommands :
    (∃ (s : State), s.rd NVS_STATUS_STATE = 1 ∧ s.stn.stage ≠ []) ∧
    (∃ (s : State) (n : Nat) (m : Nat) (l : List Nat), s.stn.inFlight = n :: m :: l) ∧
    (∃ (s : State), s.rd NVS_STATUS_STATE = 1) ∧
    (∃ (s : State), s.rd NVS_STATUS_STATE = 2 ∧ s.stn.inFlight = []) ∧
    (∃ (s : State), (s.rd NVS_STATUS_STATE = 3 ∨ s.rd NVS_STATUS_STATE = 4)) ∧
    (∃ (s : State), s.isOn 38 = true ∧ 2 ≤ s.rd NVS_STATUS_STATE) :=
  ⟨⟨((up).wr NVS_STATUS_STATE (1)).modStn (fun r => { r with stage := [(1, [])] }), by decide +kernel⟩,
   ⟨(up).modStn (fun zz => { zz with inFlight := 1 :: 2 :: ([]) }), 1, 2, [], by decide +kernel⟩,
   ⟨(up).wr NVS_STATUS_STATE (1), by decide +kernel⟩,
   ⟨((up).wr NVS_STATUS_STATE (2)).modStn (fun zz => { zz with inFlight := [] }), by decide +kernel⟩,
   ⟨(up).wr NVS_STATUS_STATE 3, by decide +kernel⟩,
   ⟨(up).wr NVS_STATUS_STATE 2, by decide +kernel⟩⟩

theorem witness_EngineCommandsComplete :
    (∃ (s : State) (e : Nat) (c : Nat), s.engAlive e = true ∧ 2 ≤ c ∧ c ≤ 5) ∧
    (∃ (s : State) (e : Nat), e < 16 ∧ s.engUp e = true) ∧
    (∃ (s : State) (e : Nat), e < 16 ∧ s.engState e = engReloading) ∧
    (∃ (s : State) (e : Nat) (rd : Bool) (sm : Bool), e < 16 ∧ s.engState e = engReloading ∧ (rd && sm) = false) ∧
    (∃ (s : State) (e : Nat), e < 16 ∧ s.engUp e = true ∧ s.on (FAC_ENG_STATE_DEGRADED e) = true) ∧
    (∃ (s : State) (p : Path) (e : Nat), e < 16 ∧ Reaches s p (FAC_ENG_CTRL_RESTART e).addr ∧ s.engState e ≠ engLoading ∧ s.engState
      e ≠ engReloading) ∧
    (∃ (s : State) (e : Nat), s.engState e = engRunning) ∧
    (∃ (s : State) (p : Path) (e : Nat), e < 16 ∧ Reaches s p (FAC_ENG_CTRL_RESTART e).addr ∧ s.engState e = engReloading) ∧
    (∃ (s : State) (p : Path) (e : Nat), e < 16 ∧ Reaches s p (FAC_DB_RING e).addr ∧ s.on (FAC_DB_BUSY e) = false) ∧
    (∃ (s : State) (p : Path) (e : Nat), e < 16 ∧ Reaches s p (FAC_DB_RING e).addr ∧ s.on (FAC_DB_BUSY e) = true) ∧
    (∃ (s : State) (e : Nat), e < 16 ∧ s.engUp e = true ∧ s.on (FAC_DB_BUSY e) = true ∧ (s.eng e).req = none) ∧
    (∃ (s : State) (e : Nat) (r : List Nat) (l : List (List Nat)), e < 16 ∧ (s.eng e).resp = r :: l ∧ s.on (FAC_DB_READY e) = false) ∧
    (∃ (s : State) (p : Path) (e : Nat), e < 16 ∧ Reaches s p (FAC_DB_ACK e).addr ∧ s.on (FAC_DB_READY e) = true) ∧
    (∃ (s : State) (e : Nat), (s.eng e).crashAt ≠ some s.elapsed) :=
  ⟨⟨up, 15, 5, by decide +kernel⟩,
   ⟨up, 15, by decide +kernel⟩,
   ⟨(up).wr (FAC_ENG_STATE_STATE 15) engReloading, 15, by decide +kernel⟩,
   ⟨(up).wr (FAC_ENG_STATE_STATE 15) engReloading, 15, true, false, by decide +kernel⟩,
   ⟨(up).flag (FAC_ENG_STATE_DEGRADED 15) true, 15, by decide +kernel⟩,
   ⟨up, Path.pcie, 15, by unfold Reaches; decide +kernel⟩,
   ⟨(up).wr (FAC_ENG_STATE_STATE 1) engRunning, 1, by decide +kernel⟩,
   ⟨(up).wr (FAC_ENG_STATE_STATE 15) engReloading, Path.pcie, 15, by unfold Reaches; decide +kernel⟩,
   ⟨(up).flag (FAC_DB_BUSY 15) false, Path.pcie, 15, by unfold Reaches; decide +kernel⟩,
   ⟨(up).flag (FAC_DB_BUSY 15) true, Path.pcie, 15, by unfold Reaches; decide +kernel⟩,
   ⟨((up).flag (FAC_DB_BUSY 15) true).modEng 15 (fun zz => { zz with req := none }), 15, by decide +kernel⟩,
   ⟨((up).modEng 15 (fun zz => { zz with resp := (([1] : List Nat)) :: ([]) })).flag (FAC_DB_READY 15) false, 15, ([1] : List Nat),
     [], by decide +kernel⟩,
   ⟨(up).flag (FAC_DB_READY 15) true, Path.pcie, 15, by unfold Reaches; decide +kernel⟩,
   ⟨up, 15, by decide +kernel⟩⟩

/-- `asks` of the statement MailboxCommandsAnswered. -/
abbrev mailboxCommandsAnswered_asks (s : State) (e cmd len : Nat) (q : List Nat) : Prop := e < 16 ∧ s.engUp e = true ∧ (s.eng e).req
  = some q ∧ bitsOf ((q[0]?).getD 0) 31 24 = cmd ∧ reqLen q = len

theorem witness_MailboxCommandsAnswered :
    (∃ (s : State) (e : Nat) (n : Nat) (q : List Nat), mailboxCommandsAnswered_asks s e 1 n q ∧ n ≤ 15) ∧
    (∃ (s : State) (e : Nat) (n : Nat) (q : List Nat), mailboxCommandsAnswered_asks s e 1 n q ∧ 15 < n) ∧
    (∃ (s : State) (e : Nat) (q : List Nat), mailboxCommandsAnswered_asks s e 2 0 q) ∧
    (∃ (s : State) (e : Nat) (n : Nat) (q : List Nat), mailboxCommandsAnswered_asks s e 2 n q ∧ n ≠ 0) ∧
    (∃ (s : State) (e : Nat) (u : Nat) (q : List Nat), mailboxCommandsAnswered_asks s e 3 0 q ∧ u < 256) ∧
    (∃ (s : State) (e : Nat) (n : Nat) (q : List Nat), mailboxCommandsAnswered_asks s e 3 n q ∧ n ≠ 0) ∧
    (∃ (s : State) (e : Nat) (c : Nat) (n : Nat) (q : List Nat), mailboxCommandsAnswered_asks s e c n q ∧ ((c = 0 ∨ 4 ≤ c ∧ c <
      64))) ∧
    (∃ (s : State) (e : Nat) (c : Nat) (n : Nat) (q : List Nat), mailboxCommandsAnswered_asks s e c n q ∧ 64 ≤ c ∧ c < 256 ∧ s.on
      SEC_STATUS_DEBUG_UNLOCKED = false) ∧
    (∃ (s : State) (e : Nat) (c : Nat) (n : Nat) (q : List Nat), mailboxCommandsAnswered_asks s e c n q ∧ 64 ≤ c ∧ c < 256 ∧ s.on
      SEC_STATUS_DEBUG_UNLOCKED = true) :=
  ⟨⟨(up).modEng 15 (fun r => { r with req := some ([17108736] : List Nat) }), 15, 15, ([17108736] : List Nat), by decide +kernel⟩,
   ⟨(up).modEng 15 (fun r => { r with req := some ([17108992] : List Nat) }), 15, 16, ([17108992] : List Nat), by decide +kernel⟩,
   ⟨(up).modEng 15 (fun r => { r with req := some ([33882112] : List Nat) }), 15, ([33882112] : List Nat), by decide +kernel⟩,
   ⟨(up).modEng 15 (fun r => { r with req := some ([33882368] : List Nat) }), 15, 1, ([33882368] : List Nat), by decide +kernel⟩,
   ⟨(up).modEng 15 (fun r => { r with req := some ([50659328] : List Nat) }), 15, 255, ([50659328] : List Nat), by decide +kernel⟩,
   ⟨(up).modEng 15 (fun r => { r with req := some ([50659584] : List Nat) }), 15, 1, ([50659584] : List Nat), by decide +kernel⟩,
   ⟨(up).modEng 15 (fun r => { r with req := some ([1057292288] : List Nat) }), 15, 63, 0, ([1057292288] : List Nat),
     by decide +kernel⟩,
   ⟨((up).flag SEC_STATUS_DEBUG_UNLOCKED false).modEng 15 (fun r => { r with req := some ([4278518528] : List Nat) }), 15, 255, 3,
     ([4278518528] : List Nat), by decide +kernel⟩,
   ⟨((up).flag SEC_STATUS_DEBUG_UNLOCKED true).modEng 15 (fun r => { r with req := some ([1074070272] : List Nat) }), 15, 64, 3,
     ([1074070272] : List Nat), by decide +kernel⟩⟩

/-- `runs` of the statement SieveAluInstructions. -/
abbrev sieveAluInstructions_runs (s : State) (e op : Nat) (r : SvRun) (i : SvWord) : Prop := s.sieveUp = true ∧ tget? s.fac.runs e =
  some r ∧ r.ovr = none ∧ (r.prog[r.pc]?).map svDecode = some i ∧ i.op = op

/-- `addr` of the statement SieveAluInstructions. -/
abbrev sieveAluInstructions_addr (r : SvRun) (i : SvWord) : Nat := (i.imm % 256 + (if i.r then r.reg i.rs else 0)) % 2 ^ 32

theorem witness_SieveAluInstructions_a :
    (∃ (s : State) (e : Nat) (r : SvRun) (i : SvWord), sieveAluInstructions_runs s e opLdb r i ∧ sieveAluInstructions_addr r i + 1 ≤
      min r.len 256) ∧
    (∃ (s : State) (e : Nat) (r : SvRun) (i : SvWord), sieveAluInstructions_runs s e opLdh r i ∧ sieveAluInstructions_addr r i + 2 ≤
      min r.len 256) ∧
    (∃ (s : State) (e : Nat) (r : SvRun) (i : SvWord), sieveAluInstructions_runs s e opLdw r i ∧ sieveAluInstructions_addr r i + 4 ≤
      min r.len 256) ∧
    (∃ (s : State) (e : Nat) (r : SvRun) (i : SvWord), sieveAluInstructions_runs s e opLdb r i ∧ min r.len 256 <
      sieveAluInstructions_addr r i + 1) ∧
    (∃ (s : State) (e : Nat) (r : SvRun) (i : SvWord), sieveAluInstructions_runs s e opLdh r i ∧ min r.len 256 <
      sieveAluInstructions_addr r i + 2) ∧
    (∃ (s : State) (e : Nat) (r : SvRun) (i : SvWord), sieveAluInstructions_runs s e opLdw r i ∧ min r.len 256 <
      sieveAluInstructions_addr r i + 4) ∧
    (∃ (s : State) (e : Nat) (r : SvRun) (i : SvWord), sieveAluInstructions_runs s e opAnd r i) ∧
    (∃ (s : State) (e : Nat) (r : SvRun) (i : SvWord), sieveAluInstructions_runs s e opOr r i) ∧
    (∃ (s : State) (e : Nat) (r : SvRun) (i : SvWord), sieveAluInstructions_runs s e opXor r i) ∧
    (∃ (s : State) (e : Nat) (r : SvRun) (i : SvWord), sieveAluInstructions_runs s e opAdd r i) ∧
    (∃ (s : State) (e : Nat) (r : SvRun) (i : SvWord), sieveAluInstructions_runs s e opSub r i) ∧
    (∃ (s : State) (e : Nat) (r : SvRun) (i : SvWord), sieveAluInstructions_runs s e opShl r i) ∧
    (∃ (s : State) (e : Nat) (r : SvRun) (i : SvWord), sieveAluInstructions_runs s e opShr r i) ∧
    (∃ (s : State) (e : Nat) (r : SvRun) (i : SvWord), sieveAluInstructions_runs s e opCmp r i) :=
  ⟨⟨(up).modFac (fun zz =>
     { zz with runs := [(0, ({ frame := { point := 4, sub := 0, ns := 0, stamp := 0, data := List.replicate 300 9 }, prog := [84934911, 0, 0, 0], len := 300, regs := [0, 7, 3, 0, 0, 0, 0, 0] } : SvRun))] }),
     0,
     ({ frame := { point := 4, sub := 0, ns := 0, stamp := 0, data := List.replicate 300 9 }, prog := [84934911, 0, 0, 0], len := 300, regs := [0, 7, 3, 0, 0, 0, 0, 0] }
     : SvRun), (svDecode 84934911), by decide +kernel⟩,
   ⟨(up).modFac (fun zz =>
     { zz with runs := [(0, ({ frame := { point := 4, sub := 0, ns := 0, stamp := 0, data := List.replicate 300 9 }, prog := [152043774, 0, 0, 0], len := 300, regs := [0, 7, 3, 0, 0, 0, 0, 0] } : SvRun))] }),
     0,
     ({ frame := { point := 4, sub := 0, ns := 0, stamp := 0, data := List.replicate 300 9 }, prog := [152043774, 0, 0, 0], len := 300, regs := [0, 7, 3, 0, 0, 0, 0, 0] }
     : SvRun), (svDecode 152043774), by decide +kernel⟩,
   ⟨(up).modFac (fun zz =>
     { zz with runs := [(0, ({ frame := { point := 4, sub := 0, ns := 0, stamp := 0, data := List.replicate 300 9 }, prog := [219152636, 0, 0, 0], len := 300, regs := [0, 7, 3, 0, 0, 0, 0, 0] } : SvRun))] }),
     0,
     ({ frame := { point := 4, sub := 0, ns := 0, stamp := 0, data := List.replicate 300 9 }, prog := [219152636, 0, 0, 0], len := 300, regs := [0, 7, 3, 0, 0, 0, 0, 0] }
     : SvRun), (svDecode 219152636), by decide +kernel⟩,
   ⟨(up).modFac (fun zz =>
     { zz with runs := [(0, ({ frame := { point := 4, sub := 0, ns := 0, stamp := 0, data := List.replicate 300 9 }, prog := [85459198], len := 300, regs := [0, 7, 3, 0, 0, 0, 0, 0] } : SvRun))] }),
     0,
     ({ frame := { point := 4, sub := 0, ns := 0, stamp := 0, data := List.replicate 300 9 }, prog := [85459198], len := 300, regs := [0, 7, 3, 0, 0, 0, 0, 0] }
     : SvRun), (svDecode 85459198), by decide +kernel⟩,
   ⟨(up).modFac (fun zz =>
     { zz with runs := [(0, ({ frame := { point := 4, sub := 0, ns := 0, stamp := 0, data := List.replicate 300 9 }, prog := [152043775, 0, 0, 0], len := 300, regs := [0, 7, 3, 0, 0, 0, 0, 0] } : SvRun))] }),
     0,
     ({ frame := { point := 4, sub := 0, ns := 0, stamp := 0, data := List.replicate 300 9 }, prog := [152043775, 0, 0, 0], len := 300, regs := [0, 7, 3, 0, 0, 0, 0, 0] }
     : SvRun), (svDecode 152043775), by decide +kernel⟩,
   ⟨(up).modFac (fun zz =>
     { zz with runs := [(0, ({ frame := { point := 4, sub := 0, ns := 0, stamp := 0, data := List.replicate 300 9 }, prog := [219152637, 0, 0, 0], len := 300, regs := [0, 7, 3, 0, 0, 0, 0, 0] } : SvRun))] }),
     0,
     ({ frame := { point := 4, sub := 0, ns := 0, stamp := 0, data := List.replicate 300 9 }, prog := [219152637, 0, 0, 0], len := 300, regs := [0, 7, 3, 0, 0, 0, 0, 0] }
     : SvRun), (svDecode 219152637), by decide +kernel⟩,
   ⟨(up).modFac (fun zz =>
     { zz with runs := [(0, ({ frame := { point := 4, sub := 0, ns := 0, stamp := 0, data := List.replicate 300 9 }, prog := [554696705, 0, 0, 0], len := 300, regs := [0, 7, 3, 0, 0, 0, 0, 0] } : SvRun))] }),
     0,
     ({ frame := { point := 4, sub := 0, ns := 0, stamp := 0, data := List.replicate 300 9 }, prog := [554696705, 0, 0, 0], len := 300, regs := [0, 7, 3, 0, 0, 0, 0, 0] }
     : SvRun), (svDecode 554696705), by decide +kernel⟩,
   ⟨(up).modFac (fun zz =>
     { zz with runs := [(0, ({ frame := { point := 4, sub := 0, ns := 0, stamp := 0, data := List.replicate 300 9 }, prog := [621805569, 0, 0, 0], len := 300, regs := [0, 7, 3, 0, 0, 0, 0, 0] } : SvRun))] }),
     0,
     ({ frame := { point := 4, sub := 0, ns := 0, stamp := 0, data := List.replicate 300 9 }, prog := [621805569, 0, 0, 0], len := 300, regs := [0, 7, 3, 0, 0, 0, 0, 0] }
     : SvRun), (svDecode 621805569), by decide +kernel⟩,
   ⟨(up).modFac (fun zz =>
     { zz with runs := [(0, ({ frame := { point := 4, sub := 0, ns := 0, stamp := 0, data := List.replicate 300 9 }, prog := [688914433, 0, 0, 0], len := 300, regs := [0, 7, 3, 0, 0, 0, 0, 0] } : SvRun))] }),
     0,
     ({ frame := { point := 4, sub := 0, ns := 0, stamp := 0, data := List.replicate 300 9 }, prog := [688914433, 0, 0, 0], len := 300, regs := [0, 7, 3, 0, 0, 0, 0, 0] }
     : SvRun), (svDecode 688914433), by decide +kernel⟩,
   ⟨(up).modFac (fun zz =>
     { zz with runs := [(0, ({ frame := { point := 4, sub := 0, ns := 0, stamp := 0, data := List.replicate 300 9 }, prog := [756547589], len := 300, regs := [0, 7, 3, 0, 0, 0, 0, 0] } : SvRun))] }),
     0,
     ({ frame := { point := 4, sub := 0, ns := 0, stamp := 0, data := List.replicate 300 9 }, prog := [756547589], len := 300, regs := [0, 7, 3, 0, 0, 0, 0, 0] }
     : SvRun), (svDecode 756547589), by decide +kernel⟩,
   ⟨(up).modFac (fun zz =>
     { zz with runs := [(0, ({ frame := { point := 4, sub := 0, ns := 0, stamp := 0, data := List.replicate 300 9 }, prog := [823132169, 0, 0, 0], len := 300, regs := [0, 7, 3, 0, 0, 0, 0, 0] } : SvRun))] }),
     0,
     ({ frame := { point := 4, sub := 0, ns := 0, stamp := 0, data := List.replicate 300 9 }, prog := [823132169, 0, 0, 0], len := 300, regs := [0, 7, 3, 0, 0, 0, 0, 0] }
     : SvRun), (svDecode 823132169), by decide +kernel⟩,
   ⟨(up).modFac (fun zz =>
     { zz with runs := [(0, ({ frame := { point := 4, sub := 0, ns := 0, stamp := 0, data := List.replicate 300 9 }, prog := [890241055, 0, 0, 0], len := 300, regs := [0, 7, 3, 0, 0, 0, 0, 0] } : SvRun))] }),
     0,
     ({ frame := { point := 4, sub := 0, ns := 0, stamp := 0, data := List.replicate 300 9 }, prog := [890241055, 0, 0, 0], len := 300, regs := [0, 7, 3, 0, 0, 0, 0, 0] }
     : SvRun), (svDecode 890241055), by decide +kernel⟩,
   ⟨(up).modFac (fun zz =>
     { zz with runs := [(0, ({ frame := { point := 4, sub := 0, ns := 0, stamp := 0, data := List.replicate 300 9 }, prog := [957349921, 0, 0, 0], len := 300, regs := [0, 7, 3, 0, 0, 0, 0, 0] } : SvRun))] }),
     0,
     ({ frame := { point := 4, sub := 0, ns := 0, stamp := 0, data := List.replicate 300 9 }, prog := [957349921, 0, 0, 0], len := 300, regs := [0, 7, 3, 0, 0, 0, 0, 0] }
     : SvRun), (svDecode 957349921), by decide +kernel⟩,
   ⟨(up).modFac (fun zz =>
     { zz with runs := [(0, ({ frame := { point := 4, sub := 0, ns := 0, stamp := 0, data := List.replicate 300 9 }, prog := [1024458759, 0, 0, 0], len := 300, regs := [0, 7, 3, 0, 0, 0, 0, 0] } : SvRun))] }),
     0,
     ({ frame := { point := 4, sub := 0, ns := 0, stamp := 0, data := List.replicate 300 9 }, prog := [1024458759, 0, 0, 0], len := 300, regs := [0, 7, 3, 0, 0, 0, 0, 0] }
     : SvRun), (svDecode 1024458759), by decide +kernel⟩⟩

theorem witness_SieveAluInstructions_b :
    (∃ (s : State) (e : Nat) (r : SvRun) (i : SvWord) (v : Nat), sieveAluInstructions_runs s e opLkp r i ∧ s.lookup (i.imm % 16)
      (r.reg i.rs) = some v) ∧
    (∃ (s : State) (e : Nat) (r : SvRun) (i : SvWord), sieveAluInstructions_runs s e opLkp r i ∧ s.lookup (i.imm % 16) (r.reg i.rs)
      = none) :=
  ⟨⟨((up).modFac (fun zz =>
     { zz with runs := [(0, ({ frame := { point := 4, sub := 0, ns := 0, stamp := 0, data := List.replicate 300 9 }, prog := [1628438530, 0, 0, 0], len := 300, regs := [0, 7, 3, 0, 0, 0, 0, 0] } : SvRun))] })).modFac
     (fun zz => { zz with entries := [(0, (true, 2, 7, 99))] }), 0,
     ({ frame := { point := 4, sub := 0, ns := 0, stamp := 0, data := List.replicate 300 9 }, prog := [1628438530, 0, 0, 0], len := 300, regs := [0, 7, 3, 0, 0, 0, 0, 0] }
     : SvRun), (svDecode 1628438530), 99, by decide +kernel⟩,
   ⟨(up).modFac (fun zz =>
     { zz with runs := [(0, ({ frame := { point := 4, sub := 0, ns := 0, stamp := 0, data := List.replicate 300 9 }, prog := [1628438530, 0, 0, 0], len := 300, regs := [0, 7, 3, 0, 0, 0, 0, 0] } : SvRun))] }),
     0,
     ({ frame := { point := 4, sub := 0, ns := 0, stamp := 0, data := List.replicate 300 9 }, prog := [1628438530, 0, 0, 0], len := 300, regs := [0, 7, 3, 0, 0, 0, 0, 0] }
     : SvRun), (svDecode 1628438530), by decide +kernel⟩⟩

/-- `runs` of the statement SieveBranchesAndActions. -/
abbrev sieveBranchesAndActions_runs (s : State) (e op : Nat) (r : SvRun) (i : SvWord) : Prop := s.sieveUp = true ∧ tget? s.fac.runs
  e = some r ∧ r.ovr = none ∧ (r.prog[r.pc]?).map svDecode = some i ∧ i.op = op

theorem witness_SieveBranchesAndActions_a :
    (∃ (s : State) (e : Nat) (r : SvRun) (i : SvWord), sieveBranchesAndActions_runs s e opBeq r i) ∧
    (∃ (s : State) (e : Nat) (r : SvRun) (i : SvWord), sieveBranchesAndActions_runs s e opBne r i) ∧
    (∃ (s : State) (e : Nat) (r : SvRun) (i : SvWord), sieveBranchesAndActions_runs s e opBgt r i) ∧
    (∃ (s : State) (e : Nat) (r : SvRun) (i : SvWord), sieveBranchesAndActions_runs s e opBlt r i) ∧
    (∃ (s : State) (e : Nat) (r : SvRun) (i : SvWord), sieveBranchesAndActions_runs s e opJmp r i) ∧
    (∃ (s : State) (e : Nat) (r : SvRun) (i : SvWord), sieveBranchesAndActions_runs s e opSettc r i) ∧
    (∃ (s : State) (e : Nat) (r : SvRun) (i : SvWord), sieveBranchesAndActions_runs s e opSettun r i ∧ r.tooBig i = false) ∧
    (∃ (s : State) (e : Nat) (r : SvRun) (i : SvWord), sieveBranchesAndActions_runs s e opMark r i) ∧
    (∃ (s : State) (e : Nat) (r : SvRun) (i : SvWord), sieveBranchesAndActions_runs s e opCopyhost r i ∧ r.tooBig i = false ∧
      r.copies.length < 2) ∧
    (∃ (s : State) (e : Nat) (r : SvRun) (i : SvWord), sieveBranchesAndActions_runs s e opStamp r i ∧ r.operand i ≤ 248 ∧ (r.operand
      i + 8 ≤ (if 6 ≤ r.frame.point ∧ r.frame.point ≤ 9 then r.len - 4 else r.len))) ∧
    (∃ (s : State) (e : Nat) (r : SvRun) (i : SvWord), sieveBranchesAndActions_runs s e opCount r i ∧ r.tooBig i = false) ∧
    (∃ (s : State) (e : Nat) (r : SvRun) (i : SvWord) (u : State) (m : Metered), sieveBranchesAndActions_runs s e opMeter r i ∧
      r.tooBig i = false ∧ s.meter (r.operand i) r.frame.ns r.frame.preYellow = (u, m) ∧ m.drop = false ∧ r.pc + 1 < r.prog.length) ∧
    (∃ (s : State) (e : Nat) (r : SvRun) (i : SvWord) (u : State) (m : Metered), sieveBranchesAndActions_runs s e opMeter r i ∧
      r.tooBig i = false ∧ s.meter (r.operand i) r.frame.ns r.frame.preYellow = (u, m)) ∧
    (∃ (s : State) (e : Nat) (r : SvRun) (i : SvWord), sieveBranchesAndActions_runs s e opSettun r i ∧ r.tooBig i = true) :=
  ⟨⟨(up).modFac (fun zz =>
     { zz with runs := [(0, ({ frame := { point := 4, sub := 0, ns := 0, stamp := 0, data := List.replicate 300 9 }, prog := [1091567619, 0, 0, 0], len := 300, regs := [0, 7, 3, 0, 0, 0, 0, 0] } : SvRun))] }),
     0,
     ({ frame := { point := 4, sub := 0, ns := 0, stamp := 0, data := List.replicate 300 9 }, prog := [1091567619, 0, 0, 0], len := 300, regs := [0, 7, 3, 0, 0, 0, 0, 0] }
     : SvRun), (svDecode 1091567619), by decide +kernel⟩,
   ⟨(up).modFac (fun zz =>
     { zz with runs := [(0, ({ frame := { point := 4, sub := 0, ns := 0, stamp := 0, data := List.replicate 300 9 }, prog := [1158676483, 0, 0, 0], len := 300, regs := [0, 7, 3, 0, 0, 0, 0, 0] } : SvRun))] }),
     0,
     ({ frame := { point := 4, sub := 0, ns := 0, stamp := 0, data := List.replicate 300 9 }, prog := [1158676483, 0, 0, 0], len := 300, regs := [0, 7, 3, 0, 0, 0, 0, 0] }
     : SvRun), (svDecode 1158676483), by decide +kernel⟩,
   ⟨(up).modFac (fun zz =>
     { zz with runs := [(0, ({ frame := { point := 4, sub := 0, ns := 0, stamp := 0, data := List.replicate 300 9 }, prog := [1225785347, 0, 0, 0], len := 300, regs := [0, 7, 3, 0, 0, 0, 0, 0] } : SvRun))] }),
     0,
     ({ frame := { point := 4, sub := 0, ns := 0, stamp := 0, data := List.replicate 300 9 }, prog := [1225785347, 0, 0, 0], len := 300, regs := [0, 7, 3, 0, 0, 0, 0, 0] }
     : SvRun), (svDecode 1225785347), by decide +kernel⟩,
   ⟨(up).modFac (fun zz =>
     { zz with runs := [(0, ({ frame := { point := 4, sub := 0, ns := 0, stamp := 0, data := List.replicate 300 9 }, prog := [1292894211, 0, 0, 0], len := 300, regs := [0, 7, 3, 0, 0, 0, 0, 0] } : SvRun))] }),
     0,
     ({ frame := { point := 4, sub := 0, ns := 0, stamp := 0, data := List.replicate 300 9 }, prog := [1292894211, 0, 0, 0], len := 300, regs := [0, 7, 3, 0, 0, 0, 0, 0] }
     : SvRun), (svDecode 1292894211), by decide +kernel⟩,
   ⟨(up).modFac (fun zz =>
     { zz with runs := [(0, ({ frame := { point := 4, sub := 0, ns := 0, stamp := 0, data := List.replicate 300 9 }, prog := [1360003075], len := 300, regs := [0, 7, 3, 0, 0, 0, 0, 0] } : SvRun))] }),
     0,
     ({ frame := { point := 4, sub := 0, ns := 0, stamp := 0, data := List.replicate 300 9 }, prog := [1360003075], len := 300, regs := [0, 7, 3, 0, 0, 0, 0, 0] }
     : SvRun), (svDecode 1360003075), by decide +kernel⟩,
   ⟨(up).modFac (fun zz =>
     { zz with runs := [(0, ({ frame := { point := 4, sub := 0, ns := 0, stamp := 0, data := List.replicate 300 9 }, prog := [2165309445, 0, 0, 0], len := 300, regs := [0, 7, 3, 0, 0, 0, 0, 0] } : SvRun))] }),
     0,
     ({ frame := { point := 4, sub := 0, ns := 0, stamp := 0, data := List.replicate 300 9 }, prog := [2165309445, 0, 0, 0], len := 300, regs := [0, 7, 3, 0, 0, 0, 0, 0] }
     : SvRun), (svDecode 2165309445), by decide +kernel⟩,
   ⟨(up).modFac (fun zz =>
     { zz with runs := [(0, ({ frame := { point := 4, sub := 0, ns := 0, stamp := 0, data := List.replicate 300 9 }, prog := [2232418313, 0, 0, 0], len := 300, regs := [0, 7, 3, 0, 0, 0, 0, 0] } : SvRun))] }),
     0,
     ({ frame := { point := 4, sub := 0, ns := 0, stamp := 0, data := List.replicate 300 9 }, prog := [2232418313, 0, 0, 0], len := 300, regs := [0, 7, 3, 0, 0, 0, 0, 0] }
     : SvRun), (svDecode 2232418313), by decide +kernel⟩,
   ⟨(up).modFac (fun zz =>
     { zz with runs := [(0, ({ frame := { point := 4, sub := 0, ns := 0, stamp := 0, data := List.replicate 300 9 }, prog := [2299527168], len := 300, regs := [0, 7, 3, 0, 0, 0, 0, 0] } : SvRun))] }),
     0,
     ({ frame := { point := 4, sub := 0, ns := 0, stamp := 0, data := List.replicate 300 9 }, prog := [2299527168], len := 300, regs := [0, 7, 3, 0, 0, 0, 0, 0] }
     : SvRun), (svDecode 2299527168), by decide +kernel⟩,
   ⟨(up).modFac (fun zz =>
     { zz with runs := [(0, ({ frame := { point := 4, sub := 0, ns := 0, stamp := 0, data := List.replicate 300 9 }, prog := [2500853763, 0, 0, 0], len := 300, regs := [0, 7, 3, 0, 0, 0, 0, 0] } : SvRun))] }),
     0,
     ({ frame := { point := 4, sub := 0, ns := 0, stamp := 0, data := List.replicate 300 9 }, prog := [2500853763, 0, 0, 0], len := 300, regs := [0, 7, 3, 0, 0, 0, 0, 0] }
     : SvRun), (svDecode 2500853763), by decide +kernel⟩,
   ⟨(up).modFac (fun zz =>
     { zz with runs := [(0, ({ frame := { point := 4, sub := 0, ns := 0, stamp := 0, data := List.replicate 300 9 }, prog := [2567962872, 0, 0, 0], len := 300, regs := [0, 7, 3, 0, 0, 0, 0, 0] } : SvRun))] }),
     0,
     ({ frame := { point := 4, sub := 0, ns := 0, stamp := 0, data := List.replicate 300 9 }, prog := [2567962872, 0, 0, 0], len := 300, regs := [0, 7, 3, 0, 0, 0, 0, 0] }
     : SvRun), (svDecode 2567962872), by decide +kernel⟩,
   ⟨(up).modFac (fun zz =>
     { zz with runs := [(0, ({ frame := { point := 4, sub := 0, ns := 0, stamp := 0, data := List.replicate 300 9 }, prog := [2635071491], len := 300, regs := [0, 7, 3, 0, 0, 0, 0, 0] } : SvRun))] }),
     0,
     ({ frame := { point := 4, sub := 0, ns := 0, stamp := 0, data := List.replicate 300 9 }, prog := [2635071491], len := 300, regs := [0, 7, 3, 0, 0, 0, 0, 0] }
     : SvRun), (svDecode 2635071491), by decide +kernel⟩,
   ⟨(up).modFac (fun zz =>
     { zz with runs := [(0, ({ frame := { point := 4, sub := 0, ns := 0, stamp := 0, data := List.replicate 300 9 }, prog := [2366636035, 0, 0, 0], len := 300, regs := [0, 7, 3, 0, 0, 0, 0, 0] } : SvRun))] }),
     0,
     ({ frame := { point := 4, sub := 0, ns := 0, stamp := 0, data := List.replicate 300 9 }, prog := [2366636035, 0, 0, 0], len := 300, regs := [0, 7, 3, 0, 0, 0, 0, 0] }
     : SvRun), (svDecode 2366636035), (((up).modFac (fun zz =>
     { zz with runs := [(0, ({ frame := { point := 4, sub := 0, ns := 0, stamp := 0, data := List.replicate 300 9 }, prog := [2366636035, 0, 0, 0], len := 300, regs := [0, 7, 3, 0, 0, 0, 0, 0] } : SvRun))] })).meter
     3 0 false).1, (((up).modFac (fun zz =>
     { zz with runs := [(0, ({ frame := { point := 4, sub := 0, ns := 0, stamp := 0, data := List.replicate 300 9 }, prog := [2366636035, 0, 0, 0], len := 300, regs := [0, 7, 3, 0, 0, 0, 0, 0] } : SvRun))] })).meter
     3 0 false).2, by decide +kernel⟩,
   ⟨(up).modFac (fun zz =>
     { zz with runs := [(0, ({ frame := { point := 4, sub := 0, ns := 0, stamp := 0, data := List.replicate 300 9 }, prog := [2366636035, 0, 0, 0], len := 300, regs := [0, 7, 3, 0, 0, 0, 0, 0] } : SvRun))] }),
     0,
     ({ frame := { point := 4, sub := 0, ns := 0, stamp := 0, data := List.replicate 300 9 }, prog := [2366636035, 0, 0, 0], len := 300, regs := [0, 7, 3, 0, 0, 0, 0, 0] }
     : SvRun), (svDecode 2366636035), (((up).modFac (fun zz =>
     { zz with runs := [(0, ({ frame := { point := 4, sub := 0, ns := 0, stamp := 0, data := List.replicate 300 9 }, prog := [2366636035, 0, 0, 0], len := 300, regs := [0, 7, 3, 0, 0, 0, 0, 0] } : SvRun))] })).meter
     3 0 false).1, (((up).modFac (fun zz =>
     { zz with runs := [(0, ({ frame := { point := 4, sub := 0, ns := 0, stamp := 0, data := List.replicate 300 9 }, prog := [2366636035, 0, 0, 0], len := 300, regs := [0, 7, 3, 0, 0, 0, 0, 0] } : SvRun))] })).meter
     3 0 false).2, by decide +kernel⟩,
   ⟨(up).modFac (fun zz =>
     { zz with runs := [(0, ({ frame := { point := 4, sub := 0, ns := 0, stamp := 0, data := List.replicate 300 9 }, prog := [2232942601], len := 300, regs := [0, 256, 3, 0, 0, 0, 0, 0] } : SvRun))] }),
     0,
     ({ frame := { point := 4, sub := 0, ns := 0, stamp := 0, data := List.replicate 300 9 }, prog := [2232942601], len := 300, regs := [0, 256, 3, 0, 0, 0, 0, 0] }
     : SvRun), (svDecode 2232942601), by decide +kernel⟩⟩

theorem witness_SieveBranchesAndActions_b :
    (∃ (s : State) (e : Nat) (r : SvRun) (i : SvWord), sieveBranchesAndActions_runs s e opCopyhost r i ∧ r.tooBig i = false ∧ 2 ≤
      r.copies.length) ∧
    (∃ (s : State) (e : Nat) (r : SvRun) (i : SvWord), sieveBranchesAndActions_runs s e opDrop r i) ∧
    (∃ (s : State) (e : Nat) (r : SvRun) (i : SvWord), sieveBranchesAndActions_runs s e opAccept r i) :=
  ⟨⟨(up).modFac (fun zz =>
     { zz with runs := [(0, ({ frame := { point := 4, sub := 0, ns := 0, stamp := 0, data := List.replicate 300 9 }, prog := [2500853763, 0, 0, 0], len := 300, copies := [1, 2], regs := [0, 7, 3, 0, 0, 0, 0, 0] } : SvRun))] }),
     0,
     ({ frame := { point := 4, sub := 0, ns := 0, stamp := 0, data := List.replicate 300 9 }, prog := [2500853763, 0, 0, 0], len := 300, copies := [1, 2], regs := [0, 7, 3, 0, 0, 0, 0, 0] }
     : SvRun), (svDecode 2500853763), by decide +kernel⟩,
   ⟨(up).modFac (fun zz =>
     { zz with runs := [(0, ({ frame := { point := 4, sub := 0, ns := 0, stamp := 0, data := List.replicate 300 9 }, prog := [2433744897, 0, 0, 0], len := 300, regs := [0, 7, 3, 0, 0, 0, 0, 0] } : SvRun))] }),
     0,
     ({ frame := { point := 4, sub := 0, ns := 0, stamp := 0, data := List.replicate 300 9 }, prog := [2433744897, 0, 0, 0], len := 300, regs := [0, 7, 3, 0, 0, 0, 0, 0] }
     : SvRun), (svDecode 2433744897), by decide +kernel⟩,
   ⟨(up).modFac (fun zz =>
     { zz with runs := [(0, ({ frame := { point := 4, sub := 0, ns := 0, stamp := 0, data := List.replicate 300 9 }, prog := [2702180353, 0, 0, 0], len := 300, regs := [0, 7, 3, 0, 0, 0, 0, 0] } : SvRun))] }),
     0,
     ({ frame := { point := 4, sub := 0, ns := 0, stamp := 0, data := List.replicate 300 9 }, prog := [2702180353, 0, 0, 0], len := 300, regs := [0, 7, 3, 0, 0, 0, 0, 0] }
     : SvRun), (svDecode 2702180353), by decide +kernel⟩⟩

theorem witness_SieveLoadingCommands :
    (∃ (s : State) (e : Nat) (f : SvFrame) (l : List SvFrame) (n : Nat), s.sieveUp = true ∧ e < 24 ∧ tget? s.fac.runs e = none ∧
      s.fac.wait = f :: l ∧ s.boundProg f.point = some n) ∧
    (∃ (s : State) (p : Path) (v : Nat), Reaches s p SIEVE_IMEM_DATA.addr ∧ s.imemUsed (s.rd SIEVE_IMEM_ADDR_ADDR) = false ∧ 0 < v ∧
      v < 2 ^ 32) ∧
    (∃ (s : State) (p : Path), Reaches s p SIEVE_IMEM_DATA.addr ∧ s.imemUsed (s.rd SIEVE_IMEM_ADDR_ADDR) = true) ∧
    (∃ (s : State) (p : Path), Reaches s p SIEVE_IMEM_DATA.addr) ∧
    (∃ (s : State) (p : Path), Reaches s p SIEVE_PROG_CMD_COMMIT.addr) ∧
    (∃ (s : State) (p : Path), Reaches s p SIEVE_PROG_CMD_DISABLE.addr) ∧
    (∃ (s : State) (p : Path), Reaches s p SIEVE_PROG_CMD_CLR_CNT.addr) ∧
    (∃ (s : State) (p : Path), Reaches s p SIEVE_TBL_CMD_LOAD.addr) ∧
    (∃ (s : State) (p : Path), Reaches s p SIEVE_TBL_CMD_COMMIT.addr) ∧
    (∃ (s : State) (p : Path), Reaches s p SIEVE_STEPS_MAX.addr) ∧
    (∃ (s : State) (p : Path), (s.progCheck (s.rd (SIEVE_PROG_SEL_PROG.onPath p)) (s.rd (SIEVE_PROG_DEF_BASE.onPath p)) (s.rd
      (SIEVE_PROG_DEF_LEN.onPath p))).1 ≠ 0) ∧
    (∃ (s : State) (p : Path) (n : Nat), s.rd (SIEVE_PROG_SEL_PROG.onPath p) = n ∧ n < 32 ∧ (s.progCheck n (s.rd
      (SIEVE_PROG_DEF_BASE.onPath p)) (s.rd (SIEVE_PROG_DEF_LEN.onPath p))).1 = 0) :=
  ⟨⟨((((up).modFac (fun zz =>
     { zz with wait := (({ point := 4, sub := 0, ns := 0, stamp := 0, data := [1, 2] } : SvFrame)) :: ([]) })).flag (SIEVE_BIND_EN
     4) true).wr (SIEVE_BIND_PROG 4) 31).flag (SIEVE_PROG_ACT_EN 31) true, 23,
     ({ point := 4, sub := 0, ns := 0, stamp := 0, data := [1, 2] } : SvFrame), [], 31, by decide +kernel⟩,
   ⟨up, Path.pcie, 4294967295, by unfold Reaches; decide +kernel⟩,
   ⟨((up).flag (SIEVE_PROG_ACT_EN 1) true).wr (SIEVE_PROG_ACT_LEN 1) 1, Path.pcie, by unfold Reaches; decide +kernel⟩,
   ⟨up, Path.pcie, by unfold Reaches; decide +kernel⟩,
   ⟨up, Path.pcie, by unfold Reaches; decide +kernel⟩,
   ⟨up, Path.pcie, by unfold Reaches; decide +kernel⟩,
   ⟨up, Path.pcie, by unfold Reaches; decide +kernel⟩,
   ⟨up, Path.pcie, by unfold Reaches; decide +kernel⟩,
   ⟨up, Path.pcie, by unfold Reaches; decide +kernel⟩,
   ⟨up, Path.pcie, by unfold Reaches; decide +kernel⟩,
   ⟨up, Path.pcie, by decide +kernel⟩,
   ⟨(((((up).wr (SIEVE_PROG_SEL_PROG.onPath (Path.pcie)) (31)).wr (SIEVE_PROG_SEL_PROG.onPath .pcie) 31).wr
     (SIEVE_PROG_DEF_LEN.onPath .pcie) 1).wr (SIEVE_PROG_DEF_BASE.onPath .pcie) 4095).modFac (fun zz =>
     { zz with imem := [(4095, 2684354560)] }), Path.pcie, 31, by decide +kernel⟩⟩

theorem witness_SeatingFeedAndMonitorCommands :
    (∃ (s : State) (b : Bool) (l : Bool), s.domOn 2 = true ∧ s.on (if b then BZL_STATUS_SEAT_B_LOW else BZL_STATUS_SEAT_A_LOW) ≠ l) ∧
    (∃ (s : State), s.domOn 2 = true ∧ s.on BZL_STATUS_SEAT_A_LOW = true ∧ s.on BZL_STATUS_SEAT_B_LOW = true ∧ s.on
      BZL_STATUS_SEATED = false ∧ s.rd BZL_STATUS_HS_STATE ≠ 1) ∧
    (∃ (s : State), s.domOn 2 = true ∧ s.on BZL_STATUS_SEAT_A_LOW = true ∧ s.on BZL_STATUS_SEAT_B_LOW = true ∧ s.on
      BZL_STATUS_SEATED = false ∧ s.rd BZL_STATUS_HS_STATE = 1) ∧
    (∃ (s : State), s.domOn 2 = true ∧ s.on BZL_STATUS_SEATED = true ∧ (s.on BZL_STATUS_SEAT_A_LOW = false ∨ s.on
      BZL_STATUS_SEAT_B_LOW = false)) ∧
    (∃ (s : State) (n : Nat), s.domOn 2 = true ∧ n < 3) ∧
    (∃ (s : State) (n : Nat), s.domOn 2 = true ∧ n < 3 ∧ s.bit BZL_STATUS_FSEAT_LOW n = true ∧ s.bit BZL_FEED_CTRL_EN n = true) ∧
    (∃ (s : State) (n : Nat), s.domOn 2 = true ∧ n < 3 ∧ s.bit BZL_STATUS_FSEAT_LOW n = false) ∧
    (∃ (s : State) (n : Nat), s.domOn 2 = true ∧ n < 3 ∧ s.bit BZL_STATUS_FSEAT_LOW n = true ∧ s.bit BZL_FEED_CTRL_EN n = false) ∧
    (∃ (s : State), s.domOn 2 = true) ∧
    (∃ (s : State) (l : List (Nat × Nat × Nat)), s.domOn 2 = true ∧ l.length = 2 ^ s.rd BZL_MON_CFG_AVG ∧ meanOf (l.map (·.1)) <
      655360 ∧ meanOf (l.map (·.2.1)) < 655360) ∧
    (∃ (s : State) (p : Path), Reaches s p BZL_ENERGY_LO.addr) :=
  ⟨⟨(up).flag (if true then BZL_STATUS_SEAT_B_LOW else BZL_STATUS_SEAT_A_LOW) (!true), true, true, by decide +kernel⟩,
   ⟨((((up).flag BZL_STATUS_SEAT_A_LOW true).flag BZL_STATUS_SEAT_B_LOW true).flag BZL_STATUS_SEATED false).wr BZL_STATUS_HS_STATE
     (1+1), by decide +kernel⟩,
   ⟨((((up).flag BZL_STATUS_SEAT_A_LOW true).flag BZL_STATUS_SEAT_B_LOW true).flag BZL_STATUS_SEATED false).wr BZL_STATUS_HS_STATE
     (1), by decide +kernel⟩,
   ⟨(up).flag BZL_STATUS_SEATED true, by decide +kernel⟩,
   ⟨up, 2, by decide +kernel⟩,
   ⟨((up).setBit BZL_STATUS_FSEAT_LOW 2 true).setBit BZL_FEED_CTRL_EN 2 true, 2, by decide +kernel⟩,
   ⟨(up).setBit BZL_STATUS_FSEAT_LOW 2 false, 2, by decide +kernel⟩,
   ⟨((up).setBit BZL_STATUS_FSEAT_LOW 2 true).setBit BZL_FEED_CTRL_EN 2 false, 2, by decide +kernel⟩,
   ⟨up, by decide +kernel⟩,
   ⟨(up).wr BZL_MON_CFG_AVG 0, ([(655359, 655359, 3)] : List (Nat × Nat × Nat)), by decide +kernel⟩,
   ⟨up, Path.pcie, by unfold Reaches; decide +kernel⟩⟩

theorem witness_HotSwapStageCommands_a :
    (∃ (s : State), s.domOn 2 = true ∧ s.rd BZL_STATUS_HS_STATE = 2) ∧
    (∃ (s : State), s.domOn 2 = true ∧ s.rd BZL_STATUS_HS_STATE = 2 ∧ s.bzl.ramped = true) ∧
    (∃ (s : State), s.domOn 2 = true ∧ s.hsActive = false ∧ s.on BZL_FLT_CAUSE_FET_SHORT = false) ∧
    (∃ (s : State) (v : Nat) (f : Nat), s.domOn 2 = true ∧ s.rd BZL_STATUS_HS_STATE = 4 ∧ (s.rd BZL_HS_CFG0_ILIM * 250 < v ∨ s.rd
      BZL_HS_CFG1_PLIM * 1000 < f)) ∧
    (∃ (s : State) (e : Nat), s.domOn 2 = true ∧ s.hsActive = true ∧ s.on BZL_STATUS_FLT_TMR = true ∧ e < 2 ^ 32) ∧
    (∃ (s : State) (v : Nat), s.domOn 2 = true ∧ s.hsActive = true ∧ 3 * (s.rd BZL_HS_CFG0_ILIM * 250) ≤ v) ∧
    (∃ (s : State) (v : Nat), s.domOn 2 = true ∧ s.rd BZL_STATUS_HS_STATE = 3 ∧ s.on BZL_STATUS_SEATED = true ∧ s.on
      BZL_STATUS_FLT_TMR = false ∧ s.rd BZL_HS_CFG1_PG_THR * 250 < v) ∧
    (∃ (s : State), s.domOn 2 = true ∧ s.rd BZL_STATUS_HS_STATE = 5 ∧ s.on BZL_STATUS_SEATED = true) ∧
    (∃ (s : State), s.domOn 2 = true ∧ s.on BZL_STATUS_PG = true) ∧
    (∃ (s : State) (p : Path), Reaches s p BZL_HS_CMD_CLEAR.addr ∧ s.rd BZL_STATUS_HS_STATE ≠ 7) ∧
    (∃ (s : State) (p : Path), Reaches s p BZL_HS_CMD_CLEAR.addr ∧ s.rd BZL_STATUS_HS_STATE = 7) ∧
    (∃ (s : State) (p : Path), Reaches s p BZL_HS_CMD_ON.addr ∧ s.rd BZL_STATUS_HS_STATE = 0 ∧ s.bzl.latched = 0) ∧
    (∃ (s : State) (p : Path), Reaches s p BZL_HS_CMD_ON.addr ∧ s.rd BZL_STATUS_HS_STATE = 7) ∧
    (∃ (s : State) (p : Path), Reaches s p BZL_HS_CMD_OFF.addr ∧ s.rd BZL_STATUS_HS_STATE ≠ 7) :=
  ⟨⟨(up).wr BZL_STATUS_HS_STATE (2), by decide +kernel⟩,
   ⟨((up).wr BZL_STATUS_HS_STATE (2)).modBzl (fun zz => { zz with ramped := true }), by decide +kernel⟩,
   ⟨(up).flag BZL_FLT_CAUSE_FET_SHORT false, by decide +kernel⟩,
   ⟨(up).wr BZL_STATUS_HS_STATE (4), 60000, 7, by decide +kernel⟩,
   ⟨(((up).flag BZL_STATUS_FLT_TMR true).wr BZL_STATUS_HS_STATE 3).flag BZL_STATUS_FLT_TMR true, 4294967295, by decide +kernel⟩,
   ⟨(up).wr BZL_STATUS_HS_STATE 3, 10000000, by decide +kernel⟩,
   ⟨((((up).wr BZL_STATUS_HS_STATE (3)).flag BZL_STATUS_SEATED true).flag BZL_STATUS_FLT_TMR false).wr BZL_STATUS_HS_STATE 3, 70000,
     by decide +kernel⟩,
   ⟨((up).wr BZL_STATUS_HS_STATE (5)).flag BZL_STATUS_SEATED true, by decide +kernel⟩,
   ⟨(up).flag BZL_STATUS_PG true, by decide +kernel⟩,
   ⟨(up).wr BZL_STATUS_HS_STATE (7+1), Path.pcie, by unfold Reaches; decide +kernel⟩,
   ⟨(up).wr BZL_STATUS_HS_STATE (7), Path.pcie, by unfold Reaches; decide +kernel⟩,
   ⟨((up).wr BZL_STATUS_HS_STATE (0)).modBzl (fun zz => { zz with latched := 0 }), Path.pcie, by unfold Reaches; decide +kernel⟩,
   ⟨(up).wr BZL_STATUS_HS_STATE (7), Path.pcie, by unfold Reaches; decide +kernel⟩,
   ⟨(up).wr BZL_STATUS_HS_STATE (7+1), Path.pcie, by unfold Reaches; decide +kernel⟩⟩

theorem witness_HotSwapStageCommands_b :
    (∃ (s : State) (p : Path), Reaches s p BZL_HS_CMD_OFF.addr ∧ s.rd BZL_STATUS_HS_STATE = 7) ∧
    (∃ (s : State) (p : Path) (v : Nat), Reaches s p BZL_HS_CFG0_ILIM.addr ∧ hsCfgBad 0 v = false) ∧
    (∃ (s : State) (p : Path) (v : Nat), Reaches s p BZL_HS_CFG0_ILIM.addr ∧ hsCfgBad 0 v = true) ∧
    (∃ (s : State) (p : Path) (v : Nat), Reaches s p BZL_HS_CFG1_PLIM.addr ∧ hsCfgBad 1 v = false) ∧
    (∃ (s : State) (p : Path) (v : Nat), Reaches s p BZL_HS_CFG1_PLIM.addr ∧ hsCfgBad 1 v = true) :=
  ⟨⟨(up).wr BZL_STATUS_HS_STATE (7), Path.pcie, by unfold Reaches; decide +kernel⟩,
   ⟨up, Path.pcie, 0x11400, by unfold Reaches; decide +kernel⟩,
   ⟨up, Path.pcie, 0, by unfold Reaches; decide +kernel⟩,
   ⟨up, Path.pcie, 0x1010010, by unfold Reaches; decide +kernel⟩,
   ⟨up, Path.pcie, 0, by unfold Reaches; decide +kernel⟩⟩

theorem witness_TypeCAndLevelCommands :
    (∃ (s : State) (rp : Nat) (v : Nat), s.domOn 2 = true ∧ s.on SVC_TC_STATUS_ATTACHED = false ∧ s.tcState = 1 ∧ rp % 4 ≠ 0 ∧ 367 <
      v ∧ v < 65536) ∧
    (∃ (s : State), s.domOn 2 = true ∧ s.on SVC_TC_STATUS_ATTACHED = false ∧ s.tcState = 4 ∧ s.rd SVC_TC_CTRL_MODE ≠ 2) ∧
    (∃ (s : State), s.domOn 2 = true ∧ s.rd SVC_TC_CTRL_MODE = 2 ∧ (s.tcState = 1 ∨ s.tcState = 4)) ∧
    (∃ (s : State) (v : Nat), s.domOn 2 = true ∧ s.tcState = 3 ∧ s.on SVC_TC_CTRL_SWAP_HOLD = false ∧ v < 367) ∧
    (∃ (s : State), s.domOn 2 = true ∧ s.tcState = 6) ∧
    (∃ (s : State) (rp : Nat), s.domOn 2 = true ∧ s.tcState = 3 ∧ s.rd SVC_TC_STATUS_RP_SEEN ≠ rp % 4) ∧
    (∃ (s : State) (v : Nat), s.svc.up = false ∧ 367 < v ∧ v < 65536) ∧
    (∃ (s : State), s.domOn 2 = true ∧ s.on SVC_TC_STATUS_DEAD_BATT = true ∧ s.svc.level < s.allowedLevel) ∧
    (∃ (s : State), s.domOn 2 = true ∧ s.on SVC_TC_STATUS_DEAD_BATT = true ∧ s.mainValid = true) ∧
    (∃ (s : State) (p : Path) (e : Bool), Reaches s p SVC_VB_CTRL_SRC_EN.addr ∧ s.policyChk p = 0 ∧ (e = false ∨ s.on
      SVC_TC_STATUS_DEAD_BATT = false)) ∧
    (∃ (s : State) (p : Path), Reaches s p SVC_VB_CTRL_SRC_EN.addr ∧ s.on SVC_TC_STATUS_DEAD_BATT = true) ∧
    (∃ (s : State) (p : Path), Reaches s p SVC_TC_CTRL_SWAP_HOLD.addr ∧ s.policyChk p = 0) ∧
    (∃ (s : State), s.domOn 2 = true) ∧
    (∃ (s : State) (p : Path) (v : Bool), Reaches s p SVC_TC_CTRL_PWR_ROLE.addr ∧ s.policyChk p = 0 ∧ (v = false ∨ s.on
      SVC_TC_STATUS_DEAD_BATT = false)) :=
  ⟨⟨((up).flag SVC_TC_STATUS_ATTACHED false).wr SVC_TC_STATUS_STATE 1, 3, 65535, by decide +kernel⟩,
   ⟨(((up).flag SVC_TC_STATUS_ATTACHED false).wr SVC_TC_STATUS_STATE 4).wr SVC_TC_CTRL_MODE (2+1), by decide +kernel⟩,
   ⟨(up).wr SVC_TC_CTRL_MODE (2), by decide +kernel⟩,
   ⟨((up).wr SVC_TC_STATUS_STATE 3).flag SVC_TC_CTRL_SWAP_HOLD false, 366, by decide +kernel⟩,
   ⟨(up).wr SVC_TC_STATUS_STATE 6, by decide +kernel⟩,
   ⟨(up).wr SVC_TC_STATUS_STATE 3, 2, by decide +kernel⟩,
   ⟨(up).modSvc (fun zz => { zz with up := false }), 65535, by decide +kernel⟩,
   ⟨(((up).flag SVC_TC_STATUS_DEAD_BATT true).wr SVC_SINK_LIMIT_MA 1000).wr SVC_SINK_LIMIT_MV 5000, by decide +kernel⟩,
   ⟨((up).flag SVC_TC_STATUS_DEAD_BATT true).flag BZL_STATUS_LINE_OK true, by decide +kernel⟩,
   ⟨up, Path.pcie, true, by unfold Reaches; decide +kernel⟩,
   ⟨(up).flag SVC_TC_STATUS_DEAD_BATT true, Path.pcie, by unfold Reaches; decide +kernel⟩,
   ⟨up, Path.pcie, by unfold Reaches; decide +kernel⟩,
   ⟨up, by decide +kernel⟩,
   ⟨up, Path.pcie, true, by unfold Reaches; decide +kernel⟩⟩

/-- `hears` of the statement PdAndVbusCommands. -/
abbrev pdAndVbusCommands_hears (s : State) (k : Nat) (m : List Byte) : Prop := s.domOn 2 = true ∧ s.on SVC_PD_CTRL_RX_EN = true ∧
  s.on SVC_TC_STATUS_ATTACHED = true ∧ k < 3 ∧ s.bit SVC_PD_CTRL_SOP_MASK k = true ∧ m.length ≤ 30 ∧ s.svc.tx = none

theorem witness_PdAndVbusCommands_a :
    (∃ (s : State) (k : Nat) (m : List Byte), pdAndVbusCommands_hears s k m) ∧
    (∃ (s : State) (k : Nat) (m : List Byte), pdAndVbusCommands_hears s k m ∧ pdControl (leNat (m.take 2)) ≠ 1 ∧ pdControl (leNat
      (m.take 2)) ≠ 13 ∧ tget? s.svc.lastRx k ≠ some (bitsOf (leNat (m.take 2)) 11 9) ∧ s.svc.fifo.length < 4) ∧
    (∃ (s : State) (k : Nat) (m : List Byte), pdAndVbusCommands_hears s k m ∧ pdControl (leNat (m.take 2)) ≠ 1 ∧ pdControl (leNat
      (m.take 2)) ≠ 13 ∧ tget? s.svc.lastRx k = some (bitsOf (leNat (m.take 2)) 11 9)) ∧
    (∃ (s : State) (p : Path), Reaches s p (SVC_RX_BUF 7).addr) ∧
    (∃ (s : State) (p : Path) (v : Nat), Reaches s p SVC_TX_CTRL_SEND.addr ∧ txCtrlBad v = false ∧ s.policyChk p = 0 ∧ s.rd
      SVC_TX_STATUS_RESULT ≠ 1) ∧
    (∃ (s : State) (p : Path) (v : Nat), Reaches s p SVC_TX_CTRL_SEND.addr ∧ txCtrlBad v = false ∧ s.rd SVC_TX_STATUS_RESULT = 1) ∧
    (∃ (s : State) (p : Path) (v : Nat), Reaches s p SVC_TX_CTRL_SEND.addr ∧ txCtrlBad v = true) ∧
    (∃ (s : State) (k : Nat) (m : List Byte), s.svc.caWait = true ∧ s.svc.tx = some (k, m)) ∧
    (∃ (s : State) (k : Nat) (m : List Byte), s.svc.caWait = false ∧ s.svc.tx = some (k, m) ∧ s.rd SVC_TX_STATUS_ATTEMPTS ≤ s.rd
      SVC_PD_CTRL_RETRIES) ∧
    (∃ (s : State) (k : Nat) (m : List Byte), s.svc.caWait = false ∧ s.svc.tx = some (k, m) ∧ s.rd SVC_PD_CTRL_RETRIES < s.rd
      SVC_TX_STATUS_ATTEMPTS) ∧
    (∃ (s : State), s.domOn 2 = true ∧ s.on SVC_TC_STATUS_ATTACHED = true) ∧
    (∃ (s : State) (p : Path), Reaches s p SVC_PD_CTRL_HARD_RESET.addr ∧ s.policyChk p = 0) ∧
    (∃ (s : State) (p : Path), Reaches s p SVC_PD_CTRL_CABLE_RESET.addr ∧ s.policyChk p = 0) ∧
    (∃ (s : State) (v : Nat), s.domOn 2 = true ∧ v < 65536 ∧ s.rd SVC_VB_CFG_OVP_THR * 10 < v) :=
  ⟨⟨(((up).flag SVC_PD_CTRL_RX_EN true).flag SVC_TC_STATUS_ATTACHED true).setBit SVC_PD_CTRL_SOP_MASK 2 true, 2, ([0x42, 0x06] :
     List Byte), by decide +kernel⟩,
   ⟨(((up).flag SVC_PD_CTRL_RX_EN true).flag SVC_TC_STATUS_ATTACHED true).setBit SVC_PD_CTRL_SOP_MASK 2 true, 2, ([0x42, 0x06] :
     List Byte), by decide +kernel⟩,
   ⟨((((up).modSvc (fun r => { r with lastRx := [(2, 3)] })).flag SVC_PD_CTRL_RX_EN true).flag SVC_TC_STATUS_ATTACHED true).setBit
     SVC_PD_CTRL_SOP_MASK 2 true, 2, ([0x42, 0x06] : List Byte), by decide +kernel⟩,
   ⟨up, Path.pcie, by unfold Reaches; decide +kernel⟩,
   ⟨(up).wr SVC_TX_STATUS_RESULT (1+1), Path.pcie, 0x1E04, by unfold Reaches; decide +kernel⟩,
   ⟨(up).wr SVC_TX_STATUS_RESULT (1), Path.pcie, 0x1E04, by unfold Reaches; decide +kernel⟩,
   ⟨up, Path.pcie, 0, by unfold Reaches; decide +kernel⟩,
   ⟨((up).modSvc (fun zz => { zz with caWait := true })).modSvc (fun zz =>
     { zz with tx := some (2, (([0x42, 0x06] : List Byte))) }), 2, ([0x42, 0x06] : List Byte), by decide +kernel⟩,
   ⟨((up).modSvc (fun zz => { zz with caWait := false })).modSvc (fun zz =>
     { zz with tx := some (2, (([0x42, 0x06] : List Byte))) }), 2, ([0x42, 0x06] : List Byte), by decide +kernel⟩,
   ⟨((((up).modSvc (fun zz => { zz with caWait := false })).modSvc (fun zz =>
     { zz with tx := some (2, (([0x42, 0x06] : List Byte))) })).wr SVC_TX_STATUS_ATTEMPTS 3).wr SVC_PD_CTRL_RETRIES 2, 2, ([0x42,
     0x06] : List Byte), by decide +kernel⟩,
   ⟨(up).flag SVC_TC_STATUS_ATTACHED true, by decide +kernel⟩,
   ⟨up, Path.pcie, by unfold Reaches; decide +kernel⟩,
   ⟨up, Path.pcie, by unfold Reaches; decide +kernel⟩,
   ⟨up, 65535, by decide +kernel⟩⟩

theorem witness_PdAndVbusCommands_b :
    (∃ (s : State) (p : Path), Reaches s p SVC_VB_CTRL_CLEAR.addr ∧ s.policyChk p = 0 ∧ s.vbCond = (false, false, false)) ∧
    (∃ (s : State) (p : Path) (v : Nat), Reaches s p SVC_VB_CFG_OVP_THR.addr ∧ s.ovpBad (v % 256) = false) ∧
    (∃ (s : State) (p : Path) (v : Nat), Reaches s p SVC_VB_CFG_OVP_THR.addr ∧ s.ovpBad (v % 256) = true) :=
  ⟨⟨up, Path.pcie, by unfold Reaches; decide +kernel⟩,
   ⟨up, Path.pcie, 220, by unfold Reaches; decide +kernel⟩,
   ⟨up, Path.pcie, 54, by unfold Reaches; decide +kernel⟩⟩

theorem witness_LinkIdleAndLadderCommands_a :
    (∃ (s : State) (n : Nat), s.native n = true ∧ s.rd PWR_LIDLE_US ≠ 0 ∧ s.txEmpty n = true ∧ (s.port n).pw.idle = false ∧ (s.port
      n).pw.suspended = false) ∧
    (∃ (s : State) (n : Nat) (w : Nat), s.native n = true ∧ 2 ≤ w ∧ s.portBusy n = false) ∧
    (∃ (s : State) (n : Nat) (w : Nat), s.native n = true ∧ 2 ≤ w ∧ s.portBusy n = true) ∧
    (∃ (s : State) (n : Nat) (w : Nat), s.native n = true ∧ w < 2 ∧ s.txEmpty n = false) ∧
    (∃ (s : State) (n : Nat) (c : Nat) (x : Nat), s.native n = true ∧ (s.port n).pw.req = some (x, c) ∧ 2 ≤ x) ∧
    (∃ (s : State) (n : Nat) (c : Nat), s.native n = true ∧ (s.port n).pw.applyAt = some c ∧ cycGe s.cycle c = true) ∧
    (∃ (s : State) (n : Nat), s.native n = true ∧ (s.port n).pw.suspended = true ∧ (s.port n).pw.resuming = true ∧ s.domOn (6 + n) =
      true ∧ (s.lk n).cur = none ∧ s.rd PWR_PS_STATUS_STATE ≠ 1) ∧
    (∃ (s : State) (n : Nat), s.native n = true ∧ (s.port n).pw.suspended = true ∧ (s.port n).pw.resuming = true) ∧
    (∃ (s : State) (p : Path) (t : Nat), Reaches s p PWR_PS_CTRL_TARGET.addr ∧ t % 8 ≤ 5) ∧
    (∃ (s : State) (p : Path) (t : Nat), Reaches s p PWR_PS_CTRL_TARGET.addr ∧ 5 < t % 8) ∧
    (∃ (s : State), s.pwr.entryPending = true) ∧
    (∃ (s : State), s.pwr.exiting = true ∧ s.pwr.domsAtEntry.all s.domOn = true ∧ s.rd PWR_PS_CTRL_TARGET = 0) ∧
    (∃ (c : Nat), 1 ≤ c ∧ c ≤ 9) ∧
    (∃ (s : State), s.on PWR_ALARM_CTRL_ARM = true ∧ s.rd PWR_ALARM_S * 1000000000 + s.rd PWR_ALARM_NS ≤ s.now) :=
  ⟨⟨(((((up) |> (fun zq => State.flag (State.goT zq 2 tActive) (LNK_STATUS_MODE1040 2) false))).wr PWR_LIDLE_US (0+1)).modPort 2
     (fun zz => { zz with pw := { zz.pw with idle := false } })).modPort 2 (fun zz =>
     { zz with pw := { zz.pw with suspended := false } }), 2, by decide +kernel⟩,
   ⟨((up) |> (fun zq => State.flag (State.goT zq 2 tActive) (LNK_STATUS_MODE1040 2) false)), 2, 2, by decide +kernel⟩,
   ⟨(((up) |> (fun zq => State.flag (State.goT zq 0 tActive) (LNK_STATUS_MODE1040 0) false))).wr (SEC_LINK_KEY_PHASE 0) 2, 0, 2,
     by decide +kernel⟩,
   ⟨(((up) |> (fun zq => State.flag (State.goT zq 0 tActive) (LNK_STATUS_MODE1040 0) false))).modGird (fun zz =>
     { zz with queues := [(0, [({ ctx := 6, eg := 1, id := 0, tc := 0, age := 0, tw := false, cells := [], tail := none } : QFrame)])] }),
     0, 1, by decide +kernel⟩,
   ⟨(((up) |> (fun zq => State.flag (State.goT zq 2 tActive) (LNK_STATUS_MODE1040 2) false))).modPort 2 (fun zz =>
     { zz with pw := { zz.pw with req := some (2, 5) } }), 2, 5, 2, by decide +kernel⟩,
   ⟨(((up) |> (fun zq => State.flag (State.goT zq 2 tActive) (LNK_STATUS_MODE1040 2) false))).modPort 2 (fun zz =>
     { zz with pw := { zz.pw with applyAt := some 4294967301 } }), 2, 4294967301, by decide +kernel⟩,
   ⟨((((((up) |> (fun zq => State.flag (State.goT zq 2 tActive) (LNK_STATUS_MODE1040 2) false))).modPort 2 (fun zz =>
     { zz with pw := { zz.pw with suspended := true } })).modPort 2 (fun zz =>
     { zz with pw := { zz.pw with resuming := true } })).modLk 2 (fun zz => { zz with cur := none })).wr PWR_PS_STATUS_STATE (1+1),
     2, by decide +kernel⟩,
   ⟨((((up) |> (fun zq => State.flag (State.goT zq 2 tActive) (LNK_STATUS_MODE1040 2) false))).modPort 2 (fun zz =>
     { zz with pw := { zz.pw with suspended := true } })).modPort 2 (fun zz => { zz with pw := { zz.pw with resuming := true } }),
     2, by decide +kernel⟩,
   ⟨up, Path.pcie, 5, by unfold Reaches; decide +kernel⟩,
   ⟨up, Path.pcie, 6, by unfold Reaches; decide +kernel⟩,
   ⟨(up).modPwr (fun zz => { zz with entryPending := true }), by decide +kernel⟩,
   ⟨((up).modPwr (fun zz => { zz with exiting := true })).wr PWR_PS_CTRL_TARGET (0), by decide +kernel⟩,
   ⟨9, by decide +kernel⟩,
   ⟨(up).flag PWR_ALARM_CTRL_ARM true, by decide +kernel⟩⟩

theorem witness_LinkIdleAndLadderCommands_b :
    (∃ (s : State) (c : Nat), s.rd PWR_PS_STATUS_STATE = 4 ∧ c ∈ [1, 2, 3, 4, 7, 9] ∧ ((c = 7 → s.pwr.lineAtEntry = false))) ∧
    (∃ (s : State) (d : Nat), 3 ≤ d ∧ d ≤ 15 ∧ s.rd PWR_PS_STATUS_STATE = 0 ∧ s.domOn d = true ∧ s.bit PWR_KEEP d = false ∧ ((d = 3
      → ∀ c : Nat, c < 256 → s.ctxLife c = lifeOff)) ∧ ((d = 11 → s.eviHolds = false)) ∧ ((d = 13 → ∀ e : Nat, e < 8 → s.engState e
      = engOff)) ∧ ((d = 14 → ∀ e : Nat, e < 8 → s.engState (8 + e) = engOff)) ∧ ((d = 15 → ∀ n : Nat, n < 3 → s.on
      (LNK_STATUS_KEYS_ON n) = false)) ∧ ((∀ p ∈ domFunctions d, s.lifeImpl p = true → s.rd (PG_STATE_LIFE p) = lifeOff))) ∧
    (∃ (s : State) (c : Nat), s.rd PWR_PS_STATUS_STATE = 3 ∧ s.pwr.exiting = false ∧ wakeEnabled s c = true ∧ c < 256) ∧
    (∃ (s : State) (t : Nat), 2 ≤ t ∧ t ≤ 5 ∧ s.rd PWR_PS_STATUS_STATE < t ∧ s.pwr.exiting = false) ∧
    (∃ (s : State), s.rd PWR_PS_STATUS_STATE = 0 ∧ s.pwr.exiting = false) ∧
    (∃ (s : State), s.pwr.entryPending = true ∧ s.pwr.exiting = false) :=
  ⟨⟨(up).wr PWR_PS_STATUS_STATE (4), 9, by decide +kernel⟩,
   ⟨(((((((((((up).wr PWR_PS_STATUS_STATE (0)).setBit PWR_KEEP 14 false).lifeOffs (domFunctions 14)).wr (FAC_ENG_STATE_STATE 8)
     0).wr (FAC_ENG_STATE_STATE 9) 0).wr (FAC_ENG_STATE_STATE 10) 0).wr (FAC_ENG_STATE_STATE 11) 0).wr (FAC_ENG_STATE_STATE 12)
     0).wr (FAC_ENG_STATE_STATE 13) 0).wr (FAC_ENG_STATE_STATE 14) 0).wr (FAC_ENG_STATE_STATE 15) 0, 14, by decide +kernel⟩,
   ⟨(((up).wr PWR_PS_STATUS_STATE (3)).modPwr (fun zz => { zz with exiting := false })).setBit PWR_WAKE_EN_SRC 7 true, 9,
     by decide +kernel⟩,
   ⟨(up).modPwr (fun zz => { zz with exiting := false }), 5, by decide +kernel⟩,
   ⟨((up).wr PWR_PS_STATUS_STATE (0)).modPwr (fun zz => { zz with exiting := false }), by decide +kernel⟩,
   ⟨((up).modPwr (fun zz => { zz with entryPending := true })).modPwr (fun zz => { zz with exiting := false }), by decide +kernel⟩⟩

theorem witness_CoreVoltageAndThermalCommands_a :
    (∃ (s : State) (p : Path) (v : Nat), Reaches s p PMB_VREQ.addr ∧ s.vreqChk (v % 64) = 0) ∧
    (∃ (s : State) (p : Path) (v : Nat), Reaches s p PMB_VREQ.addr ∧ s.vreqChk (v % 64) ≠ 0) ∧
    (∃ (s : State) (v : Nat), s.rd PWR_VMIN_DECL ≤ v ∧ v ≤ 40 ∧ 20 < v ∧ s.on PMB_BOOST_ALLOWED = false) ∧
    (∃ (s : State) (v : Nat), s.rd PWR_VMIN_DECL < v ∧ v ≤ 40 ∧ s.on THM_STATUS_HOT = true) ∧
    (∃ (s : State) (v : Nat), s.on PMB_VSTAT_BUSY = false ∧ v < 64) ∧
    (∃ (s : State), s.on PMB_VSTAT_BUSY = true) ∧
    (∃ (s : State), s.on PMB_VSTAT_BUSY = true ∧ s.pwr.vHeld = none) ∧
    (∃ (s : State) (e : Nat), s.on PMB_VSTAT_BUSY = true ∧ (e = 4 ∨ e = 5)) ∧
    (∃ (s : State), s.rd PMB_VSTAT_ATTEMPTS < 2) ∧
    (∃ (s : State) (e : Nat), 2 ≤ s.rd PMB_VSTAT_ATTEMPTS ∧ s.pwr.vHeld = none ∧ e < 256) ∧
    (∃ (s : State) (p : Path) (v : Nat), Reaches s p PWR_VMIN_DECL.addr ∧ s.vminChk (v % 64) = 0) ∧
    (∃ (s : State) (p : Path) (v : Nat), Reaches s p PWR_VMIN_DECL.addr ∧ s.vminChk (v % 64) = 1) ∧
    (∃ (s : State), s.rd PMB_VSTAT_VNOW ≤ 20 ∧ s.pwr.bucket ≤ 10800000) ∧
    (∃ (s : State), 20 < s.rd PMB_VSTAT_VNOW ∧ s.pwr.bucket ≤ 10800000) :=
  ⟨⟨up, Path.pcie, 20, by unfold Reaches; decide +kernel⟩,
   ⟨up, Path.pcie, 41, by unfold Reaches; decide +kernel⟩,
   ⟨(up).flag PMB_BOOST_ALLOWED false, 40, by decide +kernel⟩,
   ⟨((up).flag THM_STATUS_HOT true).flag THM_STATUS_HOT true, 40, by decide +kernel⟩,
   ⟨(up).flag PMB_VSTAT_BUSY false, 63, by decide +kernel⟩,
   ⟨(up).flag PMB_VSTAT_BUSY true, by decide +kernel⟩,
   ⟨((up).flag PMB_VSTAT_BUSY true).modPwr (fun zz => { zz with vHeld := none }), by decide +kernel⟩,
   ⟨(up).flag PMB_VSTAT_BUSY true, 5, by decide +kernel⟩,
   ⟨up, by decide +kernel⟩,
   ⟨((up).wr PMB_VSTAT_ATTEMPTS 2).modPwr (fun zz => { zz with vHeld := none }), 255, by decide +kernel⟩,
   ⟨up, Path.pcie, 40, by unfold Reaches; decide +kernel⟩,
   ⟨up, Path.pcie, 41, by unfold Reaches; decide +kernel⟩,
   ⟨up, by decide +kernel⟩,
   ⟨(up).wr PMB_VSTAT_VNOW (20+1), by decide +kernel⟩⟩

theorem witness_CoreVoltageAndThermalCommands_b :
    (∃ (s : State), s.on THM_STATUS_HOT = false ∧ ((s.rd THM_CFG_HOT * 16 : Nat) : Int) ≤ s.tj) ∧
    (∃ (a : Nat) (b : Nat) (c : Nat) (d : Nat), a < 4096 ∧ b < 4096 ∧ c < 4096 ∧ d < 4096) :=
  ⟨⟨((up).flag THM_STATUS_HOT false).wr THM_TJ_MAX_T 3000, by decide +kernel⟩,
   ⟨4095, 4095, 4095, 4095, by decide +kernel⟩⟩

/-- `runs` of the statement RailScriptCommands. -/
abbrev railScriptCommands_runs (s : State) (c : Script) (w : Nat) (op : Nat) : Prop := s.pwr.script = some c ∧ c.waiting = false ∧
  (c.words[c.pc]?).getD 0 = w ∧ bitsOf w 31 28 = op

theorem witness_RailScriptCommands_a :
    (∃ (s : State) (p : Path), Reaches s p PMB_RS_CMD_COMMIT.addr) ∧
    (∃ (s : State) (p : Path), Reaches s p PMB_RS_CMD_LOAD.addr) ∧
    (∃ (s : State) (p : Path), Reaches s p PMB_RS_DATA.addr) ∧
    (∃ (s : State) (i : Nat), (List.range 128).find? (fun i => rsReason i (s.rsWord i) != 0) = some i) ∧
    (∃ (s : State) (c : Script) (w : Nat), railScriptCommands_runs s c w 0) ∧
    (∃ (s : State) (c : Script) (w : Nat), railScriptCommands_runs s c w 1) ∧
    (∃ (s : State) (c : Script), s.pwr.script = some c ∧ c.waiting = true ∧ c.pc < 127) ∧
    (∃ (s : State) (c : Script) (w : Nat), railScriptCommands_runs s c w 2 ∧ c.pc < 127) ∧
    (∃ (s : State) (c : Script) (w : Nat), railScriptCommands_runs s c w 3 ∧ c.pc < 127) ∧
    (∃ (s : State) (c : Script) (w : Nat), railScriptCommands_runs s c w 3) ∧
    (∃ (s : State) (c : Script) (w : Nat), railScriptCommands_runs s c w 4 ∧ c.pc < 127) ∧
    (∃ (s : State) (c : Script) (w : Nat), railScriptCommands_runs s c w 5 ∧ c.pc < 127) ∧
    (∃ (s : State) (c : Script) (w : Nat), railScriptCommands_runs s c w 5) ∧
    (∃ (s : State) (c : Script) (w : Nat) (r : Nat), railScriptCommands_runs s c w 6 ∧ bitsOf w 23 12 ≤ r ∧ r ≤ bitsOf w 11 0 ∧ c.pc
      < 127) :=
  ⟨⟨up, Path.pcie, by unfold Reaches; decide +kernel⟩,
   ⟨up, Path.pcie, by unfold Reaches; decide +kernel⟩,
   ⟨up, Path.pcie, by unfold Reaches; decide +kernel⟩,
   ⟨(up).modPwr (fun zz => { zz with rsWin := [(5, 0x80000000)] }), 5, by decide +kernel⟩,
   ⟨(up).modPwr (fun zz => { zz with script := some ({ words := List.replicate 126 0 ++ [1, 0], pc := 126 } : Script) }),
     ({ words := List.replicate 126 0 ++ [1, 0], pc := 126 } : Script), 1, by decide +kernel⟩,
   ⟨(up).modPwr (fun zz => { zz with script := some ({ words := List.replicate 126 0 ++ [268435461, 0], pc := 126 } : Script) }),
     ({ words := List.replicate 126 0 ++ [268435461, 0], pc := 126 } : Script), 268435461, by decide +kernel⟩,
   ⟨(up).modPwr (fun zz =>
     { zz with script := some (({ words := List.replicate 126 0 ++ [0, 0], pc := 126, waiting := true } : Script)) }),
     ({ words := List.replicate 126 0 ++ [0, 0], pc := 126, waiting := true } : Script), by decide +kernel⟩,
   ⟨(up).modPwr (fun zz => { zz with script := some ({ words := List.replicate 126 0 ++ [553779972, 0], pc := 126 } : Script) }),
     ({ words := List.replicate 126 0 ++ [553779972, 0], pc := 126 } : Script), 553779972, by decide +kernel⟩,
   ⟨(up).modPwr (fun zz => { zz with script := some ({ words := List.replicate 126 0 ++ [805306375, 0], pc := 126 } : Script) }),
     ({ words := List.replicate 126 0 ++ [805306375, 0], pc := 126 } : Script), 805306375, by decide +kernel⟩,
   ⟨(up).modPwr (fun zz => { zz with script := some ({ words := List.replicate 126 0 ++ [805306375, 0], pc := 126 } : Script) }),
     ({ words := List.replicate 126 0 ++ [805306375, 0], pc := 126 } : Script), 805306375, by decide +kernel⟩,
   ⟨(up).modPwr (fun zz => { zz with script := some ({ words := List.replicate 126 0 ++ [1191182337, 0], pc := 126 } : Script) }),
     ({ words := List.replicate 126 0 ++ [1191182337, 0], pc := 126 } : Script), 1191182337, by decide +kernel⟩,
   ⟨(up).modPwr (fun zz => { zz with script := some ({ words := List.replicate 126 0 ++ [1342177280, 0], pc := 126 } : Script) }),
     ({ words := List.replicate 126 0 ++ [1342177280, 0], pc := 126 } : Script), 1342177280, by decide +kernel⟩,
   ⟨(up).modPwr (fun zz => { zz with script := some ({ words := List.replicate 126 0 ++ [1342177280, 0], pc := 126 } : Script) }),
     ({ words := List.replicate 126 0 ++ [1342177280, 0], pc := 126 } : Script), 1342177280, by decide +kernel⟩,
   ⟨(up).modPwr (fun zz => { zz with script := some ({ words := List.replicate 126 0 ++ [1610653716, 0], pc := 126 } : Script) }),
     ({ words := List.replicate 126 0 ++ [1610653716, 0], pc := 126 } : Script), 1610653716, 20, by decide +kernel⟩⟩

theorem witness_RailScriptCommands_b :
    (∃ (s : State) (c : Script) (w : Nat) (r : Nat), railScriptCommands_runs s c w 6 ∧ (r < bitsOf w 23 12 ∨ bitsOf w 11 0 < r)) ∧
    (∃ (s : State) (c : Script) (w : Nat), railScriptCommands_runs s c w 7 ∧ c.fail = true) ∧
    (∃ (s : State) (c : Script) (w : Nat), railScriptCommands_runs s c w 7 ∧ c.fail = false ∧ c.pc < 127) ∧
    (∃ (s : State) (c : Script), s.pwr.script = some c) ∧
    (∃ (s : State) (c : Script) (i : Nat), s.pwr.script = some c ∧ (List.range 128).find? (fun i => decide (i > c.pc) && bitsOf
      ((c.words[i]?).getD 0) 31 28 == 7) = some i) :=
  ⟨⟨(up).modPwr (fun zz => { zz with script := some ({ words := List.replicate 126 0 ++ [1610653716, 0], pc := 126 } : Script) }),
     ({ words := List.replicate 126 0 ++ [1610653716, 0], pc := 126 } : Script), 1610653716, 21, by decide +kernel⟩,
   ⟨(up).modPwr (fun zz =>
     { zz with script := some ({ words := List.replicate 126 0 ++ [1879048319, 0], pc := 126, fail := true } : Script) }),
     ({ words := List.replicate 126 0 ++ [1879048319, 0], pc := 126, fail := true } : Script), 1879048319, by decide +kernel⟩,
   ⟨(up).modPwr (fun zz => { zz with script := some ({ words := List.replicate 126 0 ++ [1879048319, 0], pc := 126 } : Script) }),
     ({ words := List.replicate 126 0 ++ [1879048319, 0], pc := 126 } : Script), 1879048319, by decide +kernel⟩,
   ⟨(up).modPwr (fun zz => { zz with script := some (({ words := List.replicate 126 0 ++ [0, 0], pc := 126 } : Script)) }),
     ({ words := List.replicate 126 0 ++ [0, 0], pc := 126 } : Script), by decide +kernel⟩,
   ⟨(up).modPwr (fun zz => { zz with script := some (({ words := List.replicate 126 0 ++ [1879048192, 0], pc := 3 } : Script)) }),
     ({ words := List.replicate 126 0 ++ [1879048192, 0], pc := 3 } : Script), 126, by decide +kernel⟩⟩

theorem witness_LinkKeyCommands_a :
    (∃ (s : State) (n : Nat), s.inT n tKeys = true) ∧
    (∃ (s : State) (p : Path) (n : Nat), n < 3 ∧ Reaches s p SEC_LINK_ROT_ROTATE.addr) ∧
    (∃ (s : State) (n : Nat), s.native n = true ∧ s.on (LNK_STATUS_PARENT n) = true ∧ s.rd SEC_LINK_ROT_HOURS * 28800000 ≤ s.keyAge
      n) ∧
    (∃ (s : State) (n : Nat), s.native n = true ∧ (s.lk n).retry = true) ∧
    (∃ (s : State) (n : Nat), s.native n = true ∧ s.on (LNK_STATUS_KEYS_ON n) = true ∧ 2764800000 ≤ s.keyAge n) ∧
    (∃ (s : State) (n : Nat), s.mayReplace n = true) ∧
    (∃ (s : State) (n : Nat) (k : KeyPair), s.native n = true ∧ (s.lk n).cur = some k ∧ (s.lk n).since.isSome = true ∧ (s.lk n).next
      = none) ∧
    (∃ (s : State) (n : Nat) (k : KeyPair), s.native n = true ∧ (s.lk n).next = some k) ∧
    (∃ (s : State) (n : Nat) (k : KeyPair) (c : Nat), s.native n = true ∧ (s.lk n).next = some k ∧ (s.lk n).kat = some c ∧ (s.lk
      n).initiator = true) ∧
    (∃ (s : State) (n : Nat) (k : KeyPair) (w : Nat), s.native n = true ∧ (s.lk n).initiator = false ∧ (s.lk n).next = some k ∧
      k.gen < 256 ∧ cycLater w s.cycle = true) ∧
    (∃ (s : State) (n : Nat) (k : KeyPair) (w : Nat), s.native n = true ∧ (s.lk n).initiator = true ∧ (s.lk n).next = some k ∧ k.gen
      < 256 ∧ (s.lk n).w = some w ∧ cycLater (cycSub w 2) s.cycle = true) ∧
    (∃ (s : State) (n : Nat) (k : KeyPair) (w : Nat), s.native n = true ∧ (s.lk n).next = some k ∧ k.gen < 256 ∧ (s.lk n).w = some
      w) ∧
    (∃ (s : State) (n : Nat) (k : KeyPair) (w : Nat), s.native n = true ∧ (s.lk n).next = some k ∧ (s.lk n).w = some w ∧ (s.lk
      n).switches = true ∧ cycGe s.cycle w = true ∧ s.stepMoves w = false) ∧
    (∃ (s : State) (n : Nat) (k : KeyPair) (w : Nat), s.native n = true ∧ (s.lk n).next = some k ∧ (s.lk n).w = some w ∧ (s.lk
      n).switches = true ∧ (s.lk n).relFar = true ∧ cycGe s.cycle (cycAdd w 8) = true) :=
  ⟨⟨(up).goT 2 tKeys, 2, by decide +kernel⟩,
   ⟨up, Path.pcie, 2, by unfold Reaches; decide +kernel⟩,
   ⟨(((((up) |> (fun zq => State.flag (State.goT zq 0 tActive) (LNK_STATUS_MODE1040 0) false))).flag (LNK_STATUS_PARENT 0)
     true).modLk 0 (fun r => { r with cur := some ⟨1, 2, 255, 8000000 + 2 ^ 32 - 36000000⟩ })).wr SEC_LINK_ROT_HOURS 1, 0,
     by decide +kernel⟩,
   ⟨(((up) |> (fun zq => State.flag (State.goT zq 2 tActive) (LNK_STATUS_MODE1040 2) false))).modLk 2 (fun zz =>
     { zz with retry := true }), 2, by decide +kernel⟩,
   ⟨((((up) |> (fun zq => State.flag (State.goT zq 0 tActive) (LNK_STATUS_MODE1040 0) false))).flag (LNK_STATUS_KEYS_ON 0)
     true).modLk 0 (fun r => { r with cur := some ⟨1, 2, 255, 8000000 + 2 ^ 32 - 2764800000⟩ }), 0, by decide +kernel⟩,
   ⟨((((up).goT 0 tActive).flag (LNK_STATUS_KEYS_ON 0) true).modLk 0 (fun r => { r with cur := some ⟨1, 2, 255, 0⟩ })).flag
     SEC_STATUS_DRBG_OK true, 0, by decide +kernel⟩,
   ⟨(((((up) |> (fun zq => State.flag (State.goT zq 0 tActive) (LNK_STATUS_MODE1040 0) false))).modLk 0 (fun zz =>
     { zz with cur := some ((⟨1, 2, 255, 0⟩ : KeyPair)) })).modLk 0 (fun zz => { zz with next := none })).modLk 0 (fun r =>
     { r with since := some 5 }), 0, (⟨1, 2, 255, 0⟩ : KeyPair), by decide +kernel⟩,
   ⟨(((up) |> (fun zq => State.flag (State.goT zq 2 tActive) (LNK_STATUS_MODE1040 2) false))).modLk 2 (fun zz =>
     { zz with next := some ((⟨1, 2, 255, 0⟩ : KeyPair)) }), 2, (⟨1, 2, 255, 0⟩ : KeyPair), by decide +kernel⟩,
   ⟨(((((up) |> (fun zq => State.flag (State.goT zq 2 tActive) (LNK_STATUS_MODE1040 2) false))).modLk 2 (fun zz =>
     { zz with next := some ((⟨1, 2, 255, 0⟩ : KeyPair)) })).modLk 2 (fun zz => { zz with kat := some 9 })).modLk 2 (fun zz =>
     { zz with initiator := true }), 2, (⟨1, 2, 255, 0⟩ : KeyPair), 9, by decide +kernel⟩,
   ⟨((((up) |> (fun zq => State.flag (State.goT zq 2 tActive) (LNK_STATUS_MODE1040 2) false))).modLk 2 (fun zz =>
     { zz with initiator := false })).modLk 2 (fun zz => { zz with next := some ((⟨1, 2, 255, 0⟩ : KeyPair)) }), 2, (⟨1, 2, 255, 0⟩
     : KeyPair), 9000000, by decide +kernel⟩,
   ⟨(((((up) |> (fun zq => State.flag (State.goT zq 2 tActive) (LNK_STATUS_MODE1040 2) false))).modLk 2 (fun zz =>
     { zz with initiator := true })).modLk 2 (fun zz => { zz with next := some ((⟨1, 2, 255, 0⟩ : KeyPair)) })).modLk 2 (fun zz =>
     { zz with w := some 9000000 }), 2, (⟨1, 2, 255, 0⟩ : KeyPair), 9000000, by decide +kernel⟩,
   ⟨((((up) |> (fun zq => State.flag (State.goT zq 2 tActive) (LNK_STATUS_MODE1040 2) false))).modLk 2 (fun zz =>
     { zz with next := some ((⟨1, 2, 255, 0⟩ : KeyPair)) })).modLk 2 (fun zz => { zz with w := some 9000000 }), 2, (⟨1, 2, 255, 0⟩ :
     KeyPair), 9000000, by decide +kernel⟩,
   ⟨((up).goT 0 tActive).modLk 0 (fun r_ =>
     { r_ with next := some ⟨1, 2, 255, 0⟩, w := some 8000000, switches := true, cur := some ⟨3, 4, 254, 0⟩ }), 0, (⟨1, 2, 255, 0⟩ :
     KeyPair), 8000000, by decide +kernel⟩,
   ⟨((((((up) |> (fun zq => State.flag (State.goT zq 2 tActive) (LNK_STATUS_MODE1040 2) false))).modLk 2 (fun zz =>
     { zz with next := some ((⟨1, 2, 255, 0⟩ : KeyPair)) })).modLk 2 (fun zz => { zz with w := some 7999992 })).modLk 2 (fun zz =>
     { zz with switches := true })).modLk 2 (fun zz => { zz with relFar := true }), 2, (⟨1, 2, 255, 0⟩ : KeyPair), 7999992,
     by decide +kernel⟩⟩

theorem witness_LinkKeyCommands_b :
    (∃ (s : State) (n : Nat) (w : Nat), s.native n = true ∧ (s.lk n).w = some w ∧ ((s.lk n).switches = false ∨ (s.lk n).relFar =
      false) ∧ cycGe s.cycle (cycAdd w 8) = true) ∧
    (∃ (s : State) (n : Nat), s.native n = true ∧ (s.lk n).lateDue = true ∧ (s.lk n).switches = false) :=
  ⟨⟨((((up) |> (fun zq => State.flag (State.goT zq 2 tActive) (LNK_STATUS_MODE1040 2) false))).modLk 2 (fun zz =>
     { zz with w := some 7999992 })).modLk 0 (fun r => { r with switches := false }), 2, 7999992, by decide +kernel⟩,
   ⟨((((up) |> (fun zq => State.flag (State.goT zq 2 tActive) (LNK_STATUS_MODE1040 2) false))).modLk 2 (fun zz =>
     { zz with lateDue := true })).modLk 2 (fun zz => { zz with switches := false }), 2, by decide +kernel⟩⟩

theorem witness_TamperAndKeyStoreCommands :
    (∃ (s : State) (x : Nat), x &&& s.armed ≠ 0) ∧
    (∃ (s : State), s.sec.meshMiss = true ∧ s.armed.testBit 4 = true) ∧
    (∃ (s : State) (p : Path) (v : Nat), Reaches s p SEC_TAMPER_CFG_ARM.addr ∧ (s.disarms v = false ∨ s.mayDisarm = true)) ∧
    (∃ (s : State) (p : Path) (v : Nat), Reaches s p SEC_TAMPER_CFG_ARM.addr ∧ s.disarms v = true ∧ s.mayDisarm = false) ∧
    (∃ (s : State) (p : Path), Reaches s p SEC_KS_CMD_LOAD_NEXT.addr ∧ s.secReady = true ∧ s.on SEC_STATUS_TAMPER = false ∧
      s.sec.kek = true ∧ (s.slot s.ksSel).st ≠ 3) ∧
    (∃ (s : State) (p : Path), Reaches s p SEC_KS_CMD_LOAD_NEXT.addr ∧ s.ksChk s.ksBytes ≠ 0) ∧
    (∃ (s : State) (p : Path), Reaches s p SEC_KS_CMD_SWITCH.addr ∧ s.secReady = true ∧ s.on SEC_STATUS_TAMPER = false ∧ (s.slot
      s.ksSel).st = 2) ∧
    (∃ (s : State) (p : Path), Reaches s p SEC_KS_CMD_ERASE.addr ∧ s.secReady = true ∧ s.on SEC_STATUS_TAMPER = false) ∧
    (∃ (s : State) (p : Path), Reaches s p SEC_KS_CMD_ERASE_ALL.addr ∧ s.secReady = true) ∧
    (∃ (s : State), s.sec.tamperAt ≠ some s.elapsed) ∧
    (∃ (s : State) (k : Nat) (y : Nat), (s.slot s.ksSel).next = some (k, y)) ∧
    (∃ (s : State) (i : Nat), i < 32 ∧ (s.slot i).st = 3 ∧ (s.slot i).eraseDue = false) ∧
    (∃ (s : State) (i : Nat), i < 32 ∧ (s.slot i).st = 3 ∧ (s.slot i).eraseDue = true) :=
  ⟨⟨(up).wr SEC_TAMPER_CFG_ARM 8, 0x80, by decide +kernel⟩,
   ⟨((up).modSec (fun zz => { zz with meshMiss := true })).wr SEC_TAMPER_CFG_ARM 1, by decide +kernel⟩,
   ⟨up, Path.pcie, 0xFF, by unfold Reaches; decide +kernel⟩,
   ⟨(up).wr SEC_TAMPER_CFG_ARM 8, Path.pcie, 0, by unfold Reaches; decide +kernel⟩,
   ⟨(((up).flag SEC_STATUS_TAMPER false).modSec (fun zz => { zz with kek := true })).flag SEC_STATUS_KEK_OK true, Path.pcie,
     by unfold Reaches; decide +kernel⟩,
   ⟨up, Path.pcie, by unfold Reaches; decide +kernel⟩,
   ⟨((up).flag SEC_STATUS_KEK_OK true).modSlot 0 (fun r_ => { r_ with st := 2 }), Path.pcie, by unfold Reaches; decide +kernel⟩,
   ⟨((up).flag SEC_STATUS_TAMPER false).flag SEC_STATUS_KEK_OK true, Path.pcie, by unfold Reaches; decide +kernel⟩,
   ⟨(up).flag SEC_STATUS_KEK_OK true, Path.pcie, by unfold Reaches; decide +kernel⟩,
   ⟨up, by decide +kernel⟩,
   ⟨(up).modSlot 0 (fun r_ => { r_ with next := some (5, 2) }), 5, 2, by decide +kernel⟩,
   ⟨((up).modSlot 31 (fun zz => { zz with st := 3 })).modSlot 31 (fun zz => { zz with eraseDue := false }), 31, by decide +kernel⟩,
   ⟨((up).modSlot 31 (fun zz => { zz with st := 3 })).modSlot 31 (fun zz => { zz with eraseDue := true }), 31, by decide +kernel⟩⟩

theorem witness_AttestationAndAuthorisationCommands :
    (∃ (s : State) (p : Path), Reaches s p SEC_MR_EXT_CMD_GO.addr) ∧
    (∃ (s : State) (p : Path), Reaches s p SEC_ATT_CMD_GO.addr ∧ s.secReady = true ∧ s.on SEC_ATT_STATUS_BUSY = false ∧ s.on
      SEC_STATUS_DRBG_OK = true) ∧
    (∃ (s : State) (p : Path), Reaches s p SEC_ATT_CMD_GO.addr ∧ (s.secReady = false ∨ s.on SEC_ATT_STATUS_BUSY = true ∨ s.on
      SEC_STATUS_DRBG_OK = false)) ∧
    (∃ (s : State), s.on SEC_ATT_STATUS_BUSY = true) ∧
    (∃ (s : State) (p : Path), Reaches s p (SEC_CHALLENGE 0).addr ∧ (s.secReady = false ∨ s.on SEC_STATUS_DRBG_OK = false)) ∧
    (∃ (s : State) (p : Path), Reaches s p (SEC_CHALLENGE 0).addr ∧ s.secReady = true ∧ s.on SEC_STATUS_DRBG_OK = true) ∧
    (∃ (s : State) (p : Path), Reaches s p SEC_AUTH_CMD_SUBMIT.addr ∧ s.secReady = true) ∧
    (∃ (s : State) (p : Path), Reaches s p SEC_AUTH_CMD_CLOSE.addr ∧ s.secReady = true) ∧
    (∃ (s : State) (a : Auth), s.sec.auth = some a) ∧
    (∃ (r : Nat), r < 8) ∧
    (∃ (s : State) (p : Path), Reaches s p SEC_OTP_DATA.addr) ∧
    (∃ (s : State) (p : Path) (a : Auth), Reaches s p SEC_OTP_CMD_PROGRAM.addr ∧ s.secReady = true ∧ s.authFor 3 = some a) ∧
    (∃ (s : State) (p : Path), Reaches s p SEC_OTP_CMD_PROGRAM.addr ∧ s.secReady = true ∧ s.authFor 3 = none) :=
  ⟨⟨up, Path.pcie, by unfold Reaches; decide +kernel⟩,
   ⟨(((up).flag SEC_ATT_STATUS_BUSY false).flag SEC_STATUS_DRBG_OK true).flag SEC_STATUS_KEK_OK true, Path.pcie,
     by unfold Reaches; decide +kernel⟩,
   ⟨up, Path.pcie, by unfold Reaches; decide +kernel⟩,
   ⟨(up).flag SEC_ATT_STATUS_BUSY true, by decide +kernel⟩,
   ⟨up, Path.pcie, by unfold Reaches; decide +kernel⟩,
   ⟨((up).flag SEC_STATUS_DRBG_OK true).flag SEC_STATUS_KEK_OK true, Path.pcie, by unfold Reaches; decide +kernel⟩,
   ⟨(up).flag SEC_STATUS_KEK_OK true, Path.pcie, by unfold Reaches; decide +kernel⟩,
   ⟨(up).flag SEC_STATUS_KEK_OK true, Path.pcie, by unfold Reaches; decide +kernel⟩,
   ⟨(up).modSec (fun zz => { zz with auth := some ((⟨1, 0, 0, []⟩ : Auth)) }), (⟨1, 0, 0, []⟩ : Auth), by decide +kernel⟩,
   ⟨7, by decide +kernel⟩,
   ⟨up, Path.pcie, by unfold Reaches; decide +kernel⟩,
   ⟨((up).flag SEC_STATUS_KEK_OK true).modSec (fun r => { r with auth := some (⟨3, 0, 0, []⟩ : Auth) }), Path.pcie, (⟨3, 0, 0, []⟩ :
     Auth), by unfold Reaches; decide +kernel⟩,
   ⟨(up).flag SEC_STATUS_KEK_OK true, Path.pcie, by unfold Reaches; decide +kernel⟩⟩

theorem witness_StartUpStepCommands_a :
    (∃ (s : State), s.chip.d0Up = true ∧ s.boot.b1 = false ∧ s.step_ = 1 ∧ s.boot.cold = false ∧ s.svc.reduced = false ∧ s.on
      BOOT_STATUS_HALT = false) ∧
    (∃ (s : State) (m : Nat), s.step_ = 2 ∧ s.on BOOT_STATUS_HALT = false ∧ s.chip.thermalOff = false ∧ s.pwr.script = none ∧ m %
      256 / 32 = 0) ∧
    (∃ (s : State), s.step_ = 3 ∧ s.on BOOT_STATUS_LOADER = false ∧ s.on BOOT_STATUS_NO_KEYS = false) ∧
    (∃ (s : State), s.step_ = 3 ∧ s.on BOOT_STATUS_LOADER = false ∧ s.on BOOT_STATUS_NO_KEYS = false ∧ s.rd BOOT_STATUS_BOOTSEL ≠ 1) ∧
    (∃ (s : State), s.step_ = 4 ∧ s.on BOOT_STATUS_LOADER = false ∧ s.altOn 4 = true) ∧
    (∃ (s : State), s.step_ = 4 ∧ s.on BOOT_STATUS_LOADER = false ∧ s.altOn 4 = false ∧ s.imageCheck ≠ 0) ∧
    (∃ (s : State) (h : List Byte) (p : List Byte), s.step_ = 4 ∧ s.on BOOT_STATUS_LOADER = false ∧ s.altOn 4 = false ∧ s.boot.image
      = some (h, p)) ∧
    (∃ (s : State) (l : List Nat), s.step_ = 5 ∧ s.on BOOT_STATUS_LOADER = false ∧ s.domOn 13 = true ∧ s.domOn 14 = true ∧
      s.enginesToLoad.all s.engUp = false ∧ s.enginesToLoad.any l.contains = true) ∧
    (∃ (s : State) (l : List Nat), s.step_ = 5 ∧ s.on BOOT_STATUS_LOADER = false ∧ s.domOn 13 = true ∧ s.domOn 14 = true ∧
      s.enginesToLoad.all s.engUp = false ∧ s.enginesToLoad.any l.contains = false ∧ s.svc.reduced = false) ∧
    (∃ (s : State) (e : Nat), e < 16 ∧ s.engState e = engLoading) ∧
    (∃ (s : State) (l : List Nat), s.step_ = 7 ∧ s.portSettled l 0 = true ∧ s.portSettled l 1 = true ∧ s.portSettled l 2 = true) ∧
    (∃ (s : State), s.step_ = 7 ∧ s.boot.settled = true) ∧
    (∃ (s : State), s.stepRuns = true) ∧
    (∃ (s : State), s.chip.d0Up = true) :=
  ⟨⟨((((((up).modChip (fun zz => { zz with d0Up := true })).modBoot (fun zz => { zz with b1 := false })).wr BOOT_STATUS_STEP
     1).modBoot (fun zz => { zz with cold := false })).modSvc (fun zz => { zz with reduced := false })).flag BOOT_STATUS_HALT false,
     by decide +kernel⟩,
   ⟨((((up).wr BOOT_STATUS_STEP 2).flag BOOT_STATUS_HALT false).modChip (fun zz => { zz with thermalOff := false })).modPwr (fun zz
     => { zz with script := none }), 31, by decide +kernel⟩,
   ⟨(((up).wr BOOT_STATUS_STEP 3).flag BOOT_STATUS_LOADER false).flag BOOT_STATUS_NO_KEYS false, by decide +kernel⟩,
   ⟨((((up).wr BOOT_STATUS_STEP 3).flag BOOT_STATUS_LOADER false).flag BOOT_STATUS_NO_KEYS false).wr BOOT_STATUS_BOOTSEL (1+1),
     by decide +kernel⟩,
   ⟨(((up).wr BOOT_STATUS_STEP 4).flag BOOT_STATUS_LOADER false).setBit BOOT_STATUS_ALT 2 true, by decide +kernel⟩,
   ⟨((up).wr BOOT_STATUS_STEP 4).flag BOOT_STATUS_LOADER false, by decide +kernel⟩,
   ⟨(((up).wr BOOT_STATUS_STEP 4).flag BOOT_STATUS_LOADER false).modBoot (fun zz =>
     { zz with image := some ((([1] : List Byte)), (([2] : List Byte))) }), ([1] : List Byte), ([2] : List Byte), by decide +kernel⟩,
   ⟨(((up).wr BOOT_STATUS_STEP 5).flag BOOT_STATUS_LOADER false).wr (FAC_ENG_STATE_STATE 15) 1, ([15] : List Nat),
     by decide +kernel⟩,
   ⟨((((up).wr BOOT_STATUS_STEP 5).flag BOOT_STATUS_LOADER false).modSvc (fun zz => { zz with reduced := false })).wr
     (FAC_ENG_STATE_STATE 15) 1, ([] : List Nat), by decide +kernel⟩,
   ⟨(up).wr (FAC_ENG_STATE_STATE 15) engLoading, 15, by decide +kernel⟩,
   ⟨(up).wr BOOT_STATUS_STEP 7, ([0, 1, 2] : List Nat), by decide +kernel⟩,
   ⟨((up).wr BOOT_STATUS_STEP 7).modBoot (fun zz => { zz with settled := true }), by decide +kernel⟩,
   ⟨((up).wr BOOT_STATUS_STEP 7).flag BOOT_STATUS_LOADER false, by decide +kernel⟩,
   ⟨(up).modChip (fun zz => { zz with d0Up := true }), by decide +kernel⟩⟩

theorem witness_StartUpStepCommands_b :
    (∃ (s : State) (p : Path), Reaches s p BOOT_LEDGER_CMD_CLR_CNT.addr) ∧
    (∃ (s : State) (p : Path), Reaches s p BOOT_LEDGER_CMD_RESET_ALT.addr) ∧
    (∃ (s : State) (p : Path), Reaches s p BOOT_RB_ADVANCE.addr ∧ s.step_ = 8 ∧ s.on BOOT_STATUS_LOADER = false) ∧
    (∃ (s : State) (p : Path), Reaches s p BOOT_RB_ADVANCE.addr ∧ s.step_ ≠ 8) ∧
    (∃ (s : State) (p : Path), Reaches s p BOOT_CFG_DATA.addr) ∧
    (∃ (s : State), s.rd BOOT_CFG_ADDR < 12288) ∧
    (∃ (s : State) (p : Path), Reaches s p BOOT_CFG_CMD_COMMIT.addr ∧ s.cfgCount.isSome = true) ∧
    (∃ (s : State) (p : Path), Reaches s p BOOT_CFG_CMD_ERASE.addr) :=
  ⟨⟨up, Path.pcie, by unfold Reaches; decide +kernel⟩,
   ⟨up, Path.pcie, by unfold Reaches; decide +kernel⟩,
   ⟨((up).wr BOOT_STATUS_STEP 8).flag BOOT_STATUS_LOADER false, Path.pcie, by unfold Reaches; decide +kernel⟩,
   ⟨up, Path.pcie, by unfold Reaches; decide +kernel⟩,
   ⟨up, Path.pcie, by unfold Reaches; decide +kernel⟩,
   ⟨(up).wr BOOT_CFG_ADDR 12287, by decide +kernel⟩,
   ⟨(up).modBoot (fun b => { b with cfg := [(0,0x57434647),(1,1),(2,0),(3,0),(4,0x64),(5,1),(6,1032361356)] }), Path.pcie,
     by unfold Reaches; decide +kernel⟩,
   ⟨up, Path.pcie, by unfold Reaches; decide +kernel⟩⟩

/-- `anew` of the statement LoaderAndUpdateCommands. -/
abbrev loaderAndUpdateCommands_anew (s : State) (q : Nat) : Prop := s.uartUp = true ∧ s.boot.uartLast.filter (fun l => l.1 == q) =
  none

theorem witness_LoaderAndUpdateCommands_a :
    (∃ (s : State) (p : Path), Reaches s p BOOT_LOADER_CMD_ENTER.addr) ∧
    (∃ (s : State), s.on BOOT_STATUS_LOADER = true ∧ s.boot.fromRun = true ∧ s.rd BOOT_UPD_STATUS_PHASE = 0) ∧
    (∃ (s : State), s.iface 2 = true ∧ s.usb.resetAt ≠ some s.elapsed ∧ s.svc.reduced = true ∧ s.svc.level < 2) ∧
    (∃ (s : State), s.iface 2 = true ∧ s.usb.resetAt ≠ some s.elapsed ∧ s.svc.reduced = false) ∧
    (∃ (s : State), s.on BOOT_STATUS_LOADER = true ∧ s.boot.dfuState ≠ 10 ∧ ((s.inc USBD_DFU_BLOCKS).updBusy = false ∨ s.boot.dfu =
      true)) ∧
    (∃ (s : State), s.on BOOT_STATUS_LOADER = true ∧ s.boot.dfuState ≠ 10 ∧ s.boot.dfu = true ∧ s.updWhole = true) ∧
    (∃ (s : State) (b : Nat) (d : List Byte), s.boot.dfu = true ∧ (b ≠ s.boot.dfuNext ∨ 4096 < d.length)) ∧
    (∃ (s : State), s.on BOOT_STATUS_LOADER = true ∧ s.rd BOOT_UPD_STATUS_PHASE ≠ 3 ∧ s.boot.uart = none) ∧
    (∃ (s : State), s.rd BOOT_UPD_STATUS_PHASE = 3 ∧ s.boot.attempt = 1) ∧
    (∃ (s : State), s.rd BOOT_UPD_STATUS_PHASE = 3 ∧ s.boot.attempt = 2) ∧
    (∃ (s : State), s.rd BOOT_UPD_STATUS_PHASE = 3 ∧ 1 ≤ s.boot.attempt) ∧
    (∃ (s : State) (q : Nat), loaderAndUpdateCommands_anew s q) ∧
    (∃ (s : State) (q : Nat) (a : Byte) (l : List Byte), s.uartUp = true ∧ s.boot.uartLast = some (q, a :: l)) ∧
    (∃ (s : State) (q : Nat) (n : Nat), loaderAndUpdateCommands_anew s q ∧ s.updBusy = false ∧ s.svc.reduced = false ∧ 512 < n ∧ n ≤
      8389120 ∧ s.on BOOT_STATUS_LOADER = true) :=
  ⟨⟨up, Path.pcie, by unfold Reaches; decide +kernel⟩,
   ⟨(((up).flag BOOT_STATUS_LOADER true).modBoot (fun zz => { zz with fromRun := true })).wr BOOT_UPD_STATUS_PHASE (0),
     by decide +kernel⟩,
   ⟨(((up).modSvc (fun zz => { zz with reduced := true })).wr USBD_STATUS_STATE 3).modSvc (fun r => { r with level := 1 }),
     by decide +kernel⟩,
   ⟨((up).modSvc (fun zz => { zz with reduced := false })).wr USBD_STATUS_STATE 3, by decide +kernel⟩,
   ⟨(up).flag BOOT_STATUS_LOADER true, by decide +kernel⟩,
   ⟨(((up).flag BOOT_STATUS_LOADER true).modBoot (fun zz => { zz with dfu := true })).modBoot (fun r =>
     { r with staged := List.replicate 512 0 }), by decide +kernel⟩,
   ⟨(up).modBoot (fun zz => { zz with dfu := true }), 5, ([1, 2, 3] : List Byte), by decide +kernel⟩,
   ⟨(((up).flag BOOT_STATUS_LOADER true).wr BOOT_UPD_STATUS_PHASE (3+1)).modBoot (fun zz => { zz with uart := none }),
     by decide +kernel⟩,
   ⟨((up).wr BOOT_UPD_STATUS_PHASE (3)).modBoot (fun zz => { zz with attempt := 1 }), by decide +kernel⟩,
   ⟨((up).wr BOOT_UPD_STATUS_PHASE (3)).modBoot (fun zz => { zz with attempt := 2 }), by decide +kernel⟩,
   ⟨((up).wr BOOT_UPD_STATUS_PHASE (3)).modBoot (fun r => { r with attempt := 1 }), by decide +kernel⟩,
   ⟨up, 4, by decide +kernel⟩,
   ⟨(up).modBoot (fun zz => { zz with uartLast := some (4, ((1 : Byte)) :: (([2] : List Byte))) }), 4, (1 : Byte), ([2] : List
     Byte), by decide +kernel⟩,
   ⟨((up).modSvc (fun zz => { zz with reduced := false })).flag BOOT_STATUS_LOADER true, 4, 8389120, by decide +kernel⟩⟩

theorem witness_LoaderAndUpdateCommands_b :
    (∃ (s : State) (q : Nat), loaderAndUpdateCommands_anew s q ∧ s.updBusy = true) ∧
    (∃ (s : State) (q : Nat) (o : Nat) (d : List Byte) (n : Nat), loaderAndUpdateCommands_anew s q ∧ s.boot.uart = some n ∧ d ≠ [] ∧
      d.length ≤ 1016 ∧ o = s.boot.staged.length ∧ (s.updStage d).2 = 0 ∧ s.boot.staged.length + d.length ≤ n) ∧
    (∃ (s : State) (q : Nat) (o : Nat) (d : List Byte) (n : Nat), loaderAndUpdateCommands_anew s q ∧ s.boot.uart = some n ∧ d ≠ [] ∧
      d.length ≤ 1016 ∧ o ≠ s.boot.staged.length) ∧
    (∃ (s : State) (q : Nat) (n : Nat), loaderAndUpdateCommands_anew s q ∧ s.boot.uart = some n ∧ s.updWhole = true) :=
  ⟨⟨(up).wr BOOT_UPD_STATUS_PHASE 2, 4, by decide +kernel⟩,
   ⟨(up).modBoot (fun zz => { zz with uart := some 1000 }), 4, 0, (List.replicate 500 1 : List Byte), 1000, by decide +kernel⟩,
   ⟨(up).modBoot (fun zz => { zz with uart := some 1000 }), 4, 7, ([1, 2, 3] : List Byte), 1000, by decide +kernel⟩,
   ⟨((up).modBoot (fun zz => { zz with uart := some 512 })).modBoot (fun r => { r with staged := List.replicate 512 0 }), 4, 512,
     by decide +kernel⟩⟩

theorem witness_RecorderCommands_a :
    (∃ (s : State) (x : Trig) (l : List Trig), s.recd.due = x :: l) ∧
    (∃ (s : State), s.recd.due = []) ∧
    (∃ (s : State) (x : Trig), x.slot ∈ s.recd.holdoff) ∧
    (∃ (s : State) (x : Trig), x.slot ∉ s.recd.holdoff ∧ 16 ≤ s.recd.queue.length) ∧
    (∃ (s : State) (x : Trig), x.slot < 64 ∧ x.slot ∉ s.recd.holdoff ∧ s.recd.queue.length < 16 ∧ s.recd.run.isSome = true) ∧
    (∃ (s : State) (p : Path) (k : Nat), k < 64 ∧ Reaches s p REC_CMD_FIRE.addr) ∧
    (∃ (s : State) (p : Path), Reaches s p REC_CMD_FLUSH.addr) ∧
    (∃ (s : State) (p : Path) (a : Auth), Reaches s p REC_CMD_CLEAR.addr ∧ s.rd REC_STATUS_CLR_PHASE ≠ 1 ∧ s.authFor 1 = some a) ∧
    (∃ (s : State) (p : Path), Reaches s p REC_CMD_CLEAR.addr ∧ s.rd REC_STATUS_CLR_PHASE = 1) ∧
    (∃ (s : State) (p : Path), Reaches s p REC_CMD_CLEAR.addr ∧ s.rd REC_STATUS_CLR_PHASE ≠ 1 ∧ s.authFor 1 = none) ∧
    (∃ (s : State) (x : RecRun) (k : Nat) (w : Nat) (v : Option Nat), s.recd.run = some x ∧ x.next = none ∧ x.vals[k]? = some (w,
      v)) ∧
    (∃ (s : State) (x : RecRun) (n : Nat), s.recd.run = some x ∧ x.next = none ∧ s.chainNext x = some n) ∧
    (∃ (s : State) (x : RecRun), s.recd.run = some x ∧ x.next = none ∧ s.chainNext x = none) ∧
    (∃ (s : State) (x : RecRun) (n : Nat), s.recd.run = some x ∧ x.next = some n) :=
  ⟨⟨(up).modRec (fun zz => { zz with due := ((⟨63, 9, 1000, true, 7⟩ : Trig)) :: ([]) }), (⟨63, 9, 1000, true, 7⟩ : Trig), [],
     by decide +kernel⟩,
   ⟨(up).modRec (fun zz => { zz with due := [] }), by decide +kernel⟩,
   ⟨(up).modRec (fun r => { r with holdoff := [63] }), (⟨63, 9, 1000, true, 7⟩ : Trig), by decide +kernel⟩,
   ⟨(up).modRec (fun r => { r with queue := List.replicate 16 (⟨63, 9, 1000, true, 7⟩ : Trig) }), (⟨63, 9, 1000, true, 7⟩ : Trig),
     by decide +kernel⟩,
   ⟨(up).modRec (fun r =>
     { r with queue := List.replicate 15 (⟨63, 9, 1000, true, 7⟩ : Trig), run := some ({ trig := (⟨63, 9, 1000, true, 7⟩ : Trig), lst := 63 } : RecRun) }),
     (⟨63, 9, 1000, true, 7⟩ : Trig), by decide +kernel⟩,
   ⟨up, Path.pcie, 63, by unfold Reaches; decide +kernel⟩,
   ⟨up, Path.pcie, by unfold Reaches; decide +kernel⟩,
   ⟨((up).wr REC_STATUS_CLR_PHASE (1+1)).modSec (fun r => { r with auth := some (⟨1, 0, 0, []⟩ : Auth) }), Path.pcie, (⟨1, 0, 0, []⟩
     : Auth), by unfold Reaches; decide +kernel⟩,
   ⟨(up).wr REC_STATUS_CLR_PHASE (1), Path.pcie, by unfold Reaches; decide +kernel⟩,
   ⟨(up).wr REC_STATUS_CLR_PHASE (1+1), Path.pcie, by unfold Reaches; decide +kernel⟩,
   ⟨(up).modRec (fun zz =>
     { zz with run := some (({ trig := (⟨63, 9, 1000, true, 7⟩ : Trig), lst := 63, vals := [(5, none)] } : RecRun)) }),
     ({ trig := (⟨63, 9, 1000, true, 7⟩ : Trig), lst := 63, vals := [(5, none)] } : RecRun), 0, 5, (none : Option Nat),
     by decide +kernel⟩,
   ⟨(((up).modRec (fun zz => { zz with run := some (({ trig := (⟨63, 9, 1000, true, 7⟩ : Trig), lst := 63 } : RecRun)) })).flag
     (REC_TRG_HOLD_CHAIN_EN 63) true).wr (REC_TRG_HOLD_NEXT 63) 6, ({ trig := (⟨63, 9, 1000, true, 7⟩ : Trig), lst := 63 } :
     RecRun), 6, by decide +kernel⟩,
   ⟨(up).modRec (fun zz => { zz with run := some (({ trig := (⟨63, 9, 1000, true, 7⟩ : Trig), lst := 63 } : RecRun)) }),
     ({ trig := (⟨63, 9, 1000, true, 7⟩ : Trig), lst := 63 } : RecRun), by decide +kernel⟩,
   ⟨(up).modRec (fun zz =>
     { zz with run := some (({ trig := (⟨63, 9, 1000, true, 7⟩ : Trig), lst := 63, next := some 6 } : RecRun)) }),
     ({ trig := (⟨63, 9, 1000, true, 7⟩ : Trig), lst := 63, next := some 6 } : RecRun), 6, by decide +kernel⟩⟩

theorem witness_RecorderCommands_b :
    (∃ (s : State), s.recd.flushTimer = true) ∧
    (∃ (s : State) (n : Nat) (r : Rec) (f : Nat), s.recd.flushTo = some n ∧ s.flushNext = some r ∧ s.mayFlush = true ∧ 2 ≤ f) ∧
    (∃ (s : State) (n : Nat) (r : Rec) (f : Nat), s.recd.flushTo = some n ∧ s.flushNext = some r ∧ s.mayFlush = true ∧ f < 2) ∧
    (∃ (s : State), s.rd REC_STATUS_CLR_PHASE = 1 ∧ s.engUp 6 = true) :=
  ⟨⟨(up).modRec (fun zz => { zz with flushTimer := true }), by decide +kernel⟩,
   ⟨((((up).modRec (fun zz => { zz with flushTo := some 1 })).modRec (fun r =>
     { r with flushTo := some 1, ring := [(0, ({ seq := 0, typ := 1, flags := 0, opSec := 0, cycles := 0, time := 0, trigId := 0, source := 0, snap := [] } : Rec))] })).wr
     REC_HEAD_SEQ 1).wr REC_FLUSHED_SEQ 0, 1,
     ({ seq := 0, typ := 1, flags := 0, opSec := 0, cycles := 0, time := 0, trigId := 0, source := 0, snap := [] } : Rec), 2,
     by decide +kernel⟩,
   ⟨((((up).modRec (fun zz => { zz with flushTo := some 1 })).modRec (fun r =>
     { r with flushTo := some 1, ring := [(0, ({ seq := 0, typ := 1, flags := 0, opSec := 0, cycles := 0, time := 0, trigId := 0, source := 0, snap := [] } : Rec))] })).wr
     REC_HEAD_SEQ 1).wr REC_FLUSHED_SEQ 0, 1,
     ({ seq := 0, typ := 1, flags := 0, opSec := 0, cycles := 0, time := 0, trigId := 0, source := 0, snap := [] } : Rec), 1,
     by decide +kernel⟩,
   ⟨(up).wr REC_STATUS_CLR_PHASE (1), by decide +kernel⟩⟩

theorem witness_LifeCycleAndDomainCommands_a :
    (∃ (s : State) (p : Path) (n : Nat), n < 39 ∧ Reaches s p (0x1000 * n + 8)) ∧
    (∃ (s : State) (p : Path) (n : Nat), 39 ≤ n ∧ Reaches s p 0) ∧
    (∃ (s : State) (n : Nat), s.lifeImpl n = true ∧ s.rd (PG_STATE_LIFE n) = lifeOff) ∧
    (∃ (s : State) (n : Nat), s.lifeImpl n = true ∧ s.rd (PG_STATE_LIFE n) = lifeStopping) ∧
    (∃ (s : State) (n : Nat), s.lifeImpl n = true ∧ s.rd (PG_STATE_LIFE n) = lifeOn) ∧
    (∃ (s : State) (n : Nat), n < 39 ∧ s.startOk n = true) ∧
    (∃ (c : Nat), c < 32) ∧
    (∃ (s : State) (n : Nat), n < 39 ∧ s.rd (PG_STATE_LIFE n) = lifeStopping ∧ (s.functionEnded n).on (PG_STATE_EN_PENDING n) =
      false) ∧
    (∃ (s : State) (n : Nat), n < 39 ∧ s.rd (PG_STATE_LIFE n) = lifeStopping ∧ (s.functionEnded n).on (PG_STATE_EN_PENDING n) =
      true) ∧
    (∃ (s : State), s.brg.cur = none) ∧
    (∃ (d : Nat), d < 16) ∧
    (∃ (d : Nat), 3 ≤ d ∧ d < 16) ∧
    (∃ (s : State) (d : Nat), (s.dom d).phase = .on ∧ s.domHasDependants d = true) ∧
    (∃ (s : State) (d : Nat), (s.dom d).phase = .on ∧ s.domHasDependants d = false) :=
  ⟨⟨up, Path.pcie, 38, by unfold Reaches; decide +kernel⟩,
   ⟨up, Path.pcie, 39, by unfold Reaches; decide +kernel⟩,
   ⟨(up).wr (PG_STATE_LIFE 16) (lifeOff), 16, by decide +kernel⟩,
   ⟨(up).wr (PG_STATE_LIFE 16) (lifeStopping), 16, by decide +kernel⟩,
   ⟨(up).wr (PG_STATE_LIFE 16) (lifeOn), 16, by decide +kernel⟩,
   ⟨(up).wr (PG_STATE_LIFE 16) 1, 16, by decide +kernel⟩,
   ⟨31, by decide +kernel⟩,
   ⟨(up).wr (PG_STATE_LIFE 16) (lifeStopping), 16, by decide +kernel⟩,
   ⟨((up).wr (PG_STATE_LIFE 16) (lifeStopping)).flag (PG_STATE_EN_PENDING 16) true, 16, by decide +kernel⟩,
   ⟨(up).modBrg (fun zz => { zz with cur := none }), by decide +kernel⟩,
   ⟨15, by decide +kernel⟩,
   ⟨15, by decide +kernel⟩,
   ⟨(up).setDom 3 { phase := .on }, 3, by decide +kernel⟩,
   ⟨(up).setDom 15 { phase := .on }, 15, by decide +kernel⟩⟩

theorem witness_LifeCycleAndDomainCommands_b :
    (∃ (s : State) (d : Nat), (s.dom d).phase = .falling ∧ s.domHasDependants d = false ∧ (s.dom d).onPending = false) ∧
    (∃ (s : State) (d : Nat), (s.dom d).phase = .falling ∧ s.domHasDependants d = false ∧ (s.dom d).onPending = true) ∧
    (∃ (s : State) (n : Nat), s.chip.softRst.contains n = true ∧ s.on (PG_STATE_WEDGED n) = true ∧ ((∀ d ∈ pageDoms n, 3 ≤ d ∧
      s.domOn d = true))) ∧
    (∃ (s : State) (n : Nat), n < 39 ∧ (n < 12 ∨ 15 < n) ∧ s.on (PG_STATE_DOMAIN_UP n) = true ∧ s.on (PG_STATE_WEDGED n) = false) ∧
    (∃ (s : State) (n : Nat), (n = 12 ∨ n = 14 ∨ n = 15) ∧ s.on (PG_STATE_DOMAIN_UP n) = true ∧ s.on (PG_STATE_WEDGED n) = false) ∧
    (∃ (s : State), s.pwr.entryPending = true ∧ s.entryBlock (s.rd PWR_PS_CTRL_TARGET) ≠ 0) ∧
    (∃ (s : State), s.pwr.entryPending = true ∧ s.entryBlock (s.rd PWR_PS_CTRL_TARGET) = 0 ∧ s.rd PWR_PS_CTRL_TARGET ≠ 5) :=
  ⟨⟨(up).setDom 15 { phase := .falling }, 15, by decide +kernel⟩,
   ⟨(up).setDom 15 ⟨.falling, true, false⟩, 15, by decide +kernel⟩,
   ⟨((up).flag (PG_STATE_WEDGED 16) true).modChip (fun r => { r with softRst := [16] }), 16, by decide +kernel⟩,
   ⟨((up).flag (PG_STATE_DOMAIN_UP 38) true).flag (PG_STATE_WEDGED 38) false, 38, by decide +kernel⟩,
   ⟨((up).flag (PG_STATE_DOMAIN_UP 15) true).flag (PG_STATE_WEDGED 15) false, 15, by decide +kernel⟩,
   ⟨((up).modPwr (fun zz => { zz with entryPending := true })).flag (FAC_DB_BUSY 0) true, by decide +kernel⟩,
   ⟨((up).modPwr (fun zz => { zz with entryPending := true })).wr PWR_PS_CTRL_TARGET (5+1), by decide +kernel⟩⟩

theorem witness_ResetAndProngCommands :
    (∃ (s : State), s.on SYS_WDT_CTRL_EN = true ∧ s.chip.d0Up = true ∧ s.chip.finalRun = false) ∧
    (∃ (s : State), s.on SYS_WDT_CTRL_EN = true ∧ s.chip.d0Up = true ∧ s.chip.finalRun = true) ∧
    (∃ (s : State), s.chip.finalRun = true ∧ s.recd.run = none ∧ s.chip.thermalWait = none ∧ s.chip.wdtHeld = true) ∧
    (∃ (s : State), s.chip.finalRun = true ∧ s.recd.run = none ∧ s.chip.thermalWait = none ∧ s.chip.wdtHeld = false ∧ s.chip.rstHeld
      = some .mspi) ∧
    (∃ (s : State) (x : Nat), s.chip.finalRun = true ∧ s.recd.run = none ∧ s.chip.thermalWait = some x ∧ s.chip.wdtHeld = false ∧
      s.chip.rstHeld = none) ∧
    (∃ (s : State) (v : Nat), s.domOn 2 = true ∧ s.chip.d0Up = true ∧ v < 500 * s.rd BZL_OR_CTRL_BROWN_V) ∧
    (∃ (s : State) (b : Nat), s.domOn 2 = true ∧ s.chip.d0Up = true ∧ b < 4400) ∧
    (∃ (s : State), 2080 < s.tj ∧ s.chip.thermalOff = false ∧ s.chip.d0Up = true) ∧
    (∃ (s : State) (x : Int), s.chip.thermalOff = true ∧ s.chip.thermalWait = none ∧ s.chip.d0Up = true ∧ x < 1840) ∧
    (∃ (s : State), s.unsupplied = true) ∧
    (∃ (s : State), s.domOn 2 = true) :=
  ⟨⟨(((up).flag SYS_WDT_CTRL_EN true).modChip (fun zz => { zz with d0Up := true })).modChip (fun zz =>
     { zz with finalRun := false }), by decide +kernel⟩,
   ⟨(((up).flag SYS_WDT_CTRL_EN true).modChip (fun zz => { zz with d0Up := true })).modChip (fun zz =>
     { zz with finalRun := true }), by decide +kernel⟩,
   ⟨((((up).modChip (fun zz => { zz with finalRun := true })).modRec (fun zz => { zz with run := none })).modChip (fun zz =>
     { zz with thermalWait := none })).modChip (fun zz => { zz with wdtHeld := true }), by decide +kernel⟩,
   ⟨(((((up).modChip (fun zz => { zz with finalRun := true })).modRec (fun zz => { zz with run := none })).modChip (fun zz =>
     { zz with thermalWait := none })).modChip (fun zz => { zz with wdtHeld := false })).modChip (fun zz =>
     { zz with rstHeld := some .mspi }), by decide +kernel⟩,
   ⟨(((((up).modChip (fun zz => { zz with finalRun := true })).modRec (fun zz => { zz with run := none })).modChip (fun zz =>
     { zz with thermalWait := some 4294967301 })).modChip (fun zz => { zz with wdtHeld := false })).modChip (fun zz =>
     { zz with rstHeld := none }), 4294967301, by decide +kernel⟩,
   ⟨((up).modChip (fun zz => { zz with d0Up := true })).wr BZL_OR_CTRL_BROWN_V 1, 499, by decide +kernel⟩,
   ⟨(up).modChip (fun zz => { zz with d0Up := true }), 4399, by decide +kernel⟩,
   ⟨(((up).modChip (fun zz => { zz with thermalOff := false })).modChip (fun zz => { zz with d0Up := true })).wr THM_TJ_MAX_T 2081,
     by decide +kernel⟩,
   ⟨(((up).modChip (fun zz => { zz with thermalOff := true })).modChip (fun zz => { zz with thermalWait := none })).modChip (fun zz
     => { zz with d0Up := true }), 1839, by decide +kernel⟩,
   ⟨up, by decide +kernel⟩,
   ⟨up, by decide +kernel⟩⟩

theorem witness_LowerMinimumRejected :
    ∃ (s : State) (p : Path) (v : Nat), Reaches s p PWR_VMIN_DECL.addr ∧ v % 64 < s.rd PWR_VMIN_DECL ∧ girdleLimit (v % 64) <
      s.chipLoad :=
  ⟨((((bare).setWord (PG_STATE_LIFE 1).addr 18).goT 0 tActive).wr PWR_VMIN_DECL 20).modEp 0 (fun zz =>
     { zz with change := some (⟨true, ⟨1, 8000001, 3, 4, 16000, 16000, 7999990⟩, true, false⟩ : Change) }), Path.pcie, 19,
     by unfold Reaches; decide +kernel⟩

theorem witness_DomainOnDuringSwitchOff :
    (∃ (s : State) (d : Nat), d < 16 ∧ s.chip.thermalOff = false ∧ (s.dom d).phase = .falling) ∧
    (∃ (s : State) (d : Nat), d < 16 ∧ s.chip.thermalOff = false ∧ (s.dom d).phase = .falling ∧ s.domHasDependants d = false ∧
      (s.dom d).onPending = true) ∧
    (∃ (s : State) (d : Nat), d < 16 ∧ s.chip.d0Up = true ∧ (s.dom d).phase = .rising ∧ (s.dom d).offHeld = false ∧ s.chip.stalled =
      [] ∧ s.chip.mgmt = [] ∧ s.chip.rstHeld = none) ∧
    (∃ (s : State) (n : Nat), s.lifeImpl n = true ∧ s.rd (PG_STATE_LIFE n) = lifeStopping) :=
  ⟨⟨((up).modChip (fun zz => { zz with thermalOff := false })).setDom 15 { phase := .falling }, 15, by decide +kernel⟩,
   ⟨(((up).modChip (fun zz => { zz with thermalOff := false })).setDom 15 { phase := .falling }).setDom 15
     { phase := .falling, onPending := true }, 15, by decide +kernel⟩,
   ⟨(((((up).modChip (fun zz => { zz with d0Up := true })).setDom 15 { phase := .rising }).modChip (fun zz =>
     { zz with stalled := [] })).modChip (fun zz => { zz with mgmt := [] })).modChip (fun zz => { zz with rstHeld := none }), 15,
     by decide +kernel⟩,
   ⟨(up).wr (PG_STATE_LIFE 25) (lifeStopping), 25, by decide +kernel⟩⟩

theorem witness_RestartCrashesEngine :
    (∃ (s : State) (p : Path) (e : Nat), e < 16 ∧ Reaches s p (FAC_ENG_CTRL_RESTART e).addr ∧ (s.engState e = engRunning ∨
      s.engState e = engHalted)) ∧
    (∃ (e : Nat), e < 16) ∧
    (∃ (s : State) (p : Path) (e : Nat), e < 16 ∧ Reaches s p (FAC_ENG_CTRL_RESTART e).addr ∧ (s.engState e = engLoading ∨
      s.engState e = engReloading)) :=
  ⟨⟨up, Path.pcie, 15, by unfold Reaches; decide +kernel⟩,
   ⟨15, by decide +kernel⟩,
   ⟨(up).setEng 15 engLoading, Path.pcie, 15, by unfold Reaches; decide +kernel⟩⟩

theorem witness_OvpThresholdRejected :
    (∃ (s : State) (p : Path) (v : Nat), Reaches s p SVC_VB_CFG_OVP_THR.addr ∧ v % 256 * 10 < s.rd SVC_VB_STATUS_VBUS + 50) ∧
    (∃ (s : State) (p : Path) (v : Nat), Reaches s p SVC_VB_CFG_OVP_THR.addr ∧ s.rd SVC_VB_STATUS_VBUS + 50 ≤ v % 256 * 10 ∧ 55 ≤ v
      % 256 ∧ v % 256 ≤ 220) :=
  ⟨⟨(up).wr SVC_VB_STATUS_VBUS 541, Path.pcie, 59, by unfold Reaches; decide +kernel⟩,
   ⟨(up).wr SVC_VB_STATUS_VBUS 2150, Path.pcie, 220, by unfold Reaches; decide +kernel⟩⟩

theorem witness_OneTransferAtATime :
    (∃ (s : State) (q : Nat), s.uartUp = true ∧ s.boot.uartLast.filter (fun l => l.1 == q) = none ∧ s.updBusy = true) ∧
    (∃ (s : State), s.on BOOT_STATUS_LOADER = true ∧ s.boot.dfuState ≠ 10 ∧ s.updBusy = true ∧ s.boot.dfu = false) :=
  ⟨⟨(up).wr BOOT_UPD_STATUS_PHASE 1, 4, by decide +kernel⟩,
   ⟨(((up).flag BOOT_STATUS_LOADER true).modBoot (fun zz => { zz with dfu := false })).wr BOOT_UPD_STATUS_PHASE 3,
     by decide +kernel⟩⟩

end Sys2Proof.Tests
end

section
/-!
PROOFS. What R22 asks of a power domain and of a function whose switch-on is requested during its switch-off.
-/

namespace Sys2Proof.Machine

/-! ## What leaves the chip's part alone -/

/-- The mask of all parts but the chip's. -/
def allButChip : Nat := 0xFFFFE

theorem Follows.chip_eq {s t : State} (h : Follows allButChip s t) : t.chip = s.chip := h.parts .chip rfl

@[simp] theorem State.setDomainUp_chip (s : State) (d : Nat) (v : Bool) : (s.setDomainUp d v).chip = s.chip :=
  (State.setDomainUp_follows d v (Follows.refl _ s)).chip_eq

/-- The reset of the sieve, which loses its store with D3. -/
theorem State.blockReset_sieve_follows {z s : State} (h : Follows allButChip z s) : Follows allButChip z (s.blockReset 12) := by
  have programsOff : Follows allButChip z
      (foldS ((List.range 32).filter (fun n => s.on (SIEVE_PROG_ACT_EN n))) (fun t n => t.progOff n) s) :=
    foldS_follows _ _ (fun _ n ht => State.progOff_follows n ht) h
  have hidden := State.modFac_follows rfl (fun t => { eng := t.eng, digest := t.digest, held := t.held }) programsOff
  exact Follows.to_reset (c := 0) rfl hidden (blockKeep 12) rfl rfl rfl rfl (fun q _ => by cases q <;> rfl)

/-- A domain that has gone off: only its blocks and their registers change. -/
theorem State.domLost_chip (s : State) (d : Nat) : (s.domLost d).chip = s.chip := by
  have pagesOff : Follows allButChip s (foldS ((domPages d).filter lifeFollows) (fun t p => t.setLife p lifeOff) (s.setDomainUp d false)) :=
    foldS_follows _ _ (fun _ p ht => State.setLife_follows rfl p lifeOff ht) (State.setDomainUp_follows d false (Follows.refl _ s))
  have sieve := State.when_follows pagesOff (d == 3) (f := (·.blockReset 12)) fun _ ht => State.blockReset_sieve_follows ht
  have banks := State.when_follows sieve (d == 4 || d == 5) (f := fun t => (t.banksLost d).showBanks) fun _ ht =>
    State.showBanks_follows rfl (State.banksLost_follows rfl d ht)
  exact (foldS_follows _ _ (fun _ e ht => State.setEng_follows e engOff (State.clearMailbox_follows rfl e ht)) banks).chip_eq

/-- A domain that has come up is on; of the chip's part only its entry changes. -/
theorem State.domReady_chip (s : State) (d : Nat) : (s.domReady d).chip = (s.setDom d ⟨.on, false, (s.dom d).offHeld⟩).chip := by
  have ready := State.setDomainUp_follows d true (Follows.refl allButChip (s.setDom d ⟨.on, false, (s.dom d).offHeld⟩))
  have pages := foldS_follows ((domPages d).filter lifeFollows)
    (fun t p => t.setLife p (if t.on (PG_STATE_WEDGED p) then lifeFault else if t.on (PG_STATE_DOMAIN_UP p) then lifeOn else lifeOff))
    (fun _ p ht => State.setLife_follows rfl p _ ht) ready
  have banks := State.when_follows pages (d == 4 || d == 5) (f := (·.showBanks)) fun _ ht => State.showBanks_follows rfl ht
  exact (State.when_follows banks _ fun _ ht => foldS_follows _ _ (fun _ e hu => State.setEng_follows e engLoading hu) ht).chip_eq

/-! ## The entry of a domain -/

theorem foldS_induct {α : Type} {P : State → Prop} {l : List α} {f : State → α → State} {s : State} (h : P s)
    (hf : ∀ t, ∀ x ∈ l, P t → P (f t x)) : P (foldS l f s) :=
  List.foldlRecOn l f h fun t ht x hx => hf t x hx ht

theorem State.dom_of_chip {s t : State} (h : t.chip = s.chip) (d : Nat) : t.dom d = s.dom d := by
  unfold State.dom; rw [h]

@[simp] theorem State.setDom_dom_self (s : State) (d : Nat) (v : DomSt) : (s.setDom d v).dom d = v := tget_tset_self ..

theorem State.setDom_dom_ne (s : State) {d e : Nat} (v : DomSt) (h : e ≠ d) : (s.setDom d v).dom e = s.dom e := tget_tset_ne _ _ _ _ _ h

@[simp] theorem State.domLost_dom (s : State) (d e : Nat) : (s.domLost d).dom e = s.dom e := State.dom_of_chip (s.domLost_chip d) e

@[simp] theorem State.domReady_dom_self (s : State) (d : Nat) : (s.domReady d).dom d = ⟨.on, false, (s.dom d).offHeld⟩ :=
  (State.dom_of_chip (s.domReady_chip d) d).trans (s.setDom_dom_self d _)

/-- Of the chip's part, `t` differs from `s` in the entries of the domains `l` only. -/
structure OnlyDoms (l : List Nat) (s t : State) : Prop where
  /-- what is not a domain's entry is as it was -/
  chip : t.chip = { s.chip with doms := t.chip.doms }
  /-- the entries of the other domains are as they were -/
  kept : ∀ e, e ∉ l → t.dom e = s.dom e

namespace OnlyDoms

variable {l : List Nat} {s t u : State}

theorem refl (l : List Nat) (s : State) : OnlyDoms l s s := ⟨rfl, fun _ _ => rfl⟩

theorem trans (h : OnlyDoms l s t) (k : OnlyDoms l t u) : OnlyDoms l s u :=
  ⟨k.chip.trans (by rw [h.chip]), fun e he => (k.kept e he).trans (h.kept e he)⟩

theorem mono {l' : List Nat} (h : OnlyDoms l s t) (hl : l ⊆ l') : OnlyDoms l' s t :=
  ⟨h.chip, fun e he => h.kept e (fun k => he (hl k))⟩

theorem of_chip_eq {t' : State} (h : OnlyDoms l s t) (hc : t'.chip = t.chip) : OnlyDoms l s t' :=
  ⟨by rw [hc]; exact h.chip, fun e he => (State.dom_of_chip hc e).trans (h.kept e he)⟩

theorem setDom (s : State) (d : Nat) (v : DomSt) : OnlyDoms [d] s (s.setDom d v) :=
  ⟨rfl, fun _ he => s.setDom_dom_ne v (by simpa using he)⟩

theorem ite {c : Prop} [Decidable c] (h : OnlyDoms l s t) (k : OnlyDoms l s u) : OnlyDoms l s (if c then t else u) := by
  split
  · exact h
  · exact k

theorem when (s : State) (c : Bool) {f : State → State} (h : OnlyDoms l s (f s)) : OnlyDoms l s (s.when c f) :=
  OnlyDoms.ite h (OnlyDoms.refl l s)

/-- A loop over domains in which each turn changes the entry of its own domain. -/
theorem loop (l : List Nat) {f : State → Nat → State} (s : State) (hf : ∀ t e, OnlyDoms [e] t (f t e)) :
    OnlyDoms l s (foldS l f s) :=
  foldS_induct (OnlyDoms.refl l s) fun t e he ht => ht.trans ((hf t e).mono (by simpa using he))

theorem thermalOff (h : OnlyDoms l s t) : t.chip.thermalOff = s.chip.thermalOff := by rw [h.chip]

theorem stalled (h : OnlyDoms l s t) : t.chip.stalled = s.chip.stalled := by rw [h.chip]

theorem mgmt (h : OnlyDoms l s t) : t.chip.mgmt = s.chip.mgmt := by rw [h.chip]

theorem rstHeld (h : OnlyDoms l s t) : t.chip.rstHeld = s.chip.rstHeld := by rw [h.chip]

end OnlyDoms

theorem State.domBegin_onlyDoms (s : State) (d : Nat) : OnlyDoms [d] s (s.domBegin d) := OnlyDoms.setDom s d _

theorem State.domRequestOne_onlyDoms (s : State) (d : Nat) : OnlyDoms [d] s (s.domRequestOne d) := by
  unfold State.domRequestOne
  refine OnlyDoms.ite (OnlyDoms.refl _ s) ?_
  cases (s.dom d).phase
  case off => exact s.domBegin_onlyDoms d
  case falling => exact OnlyDoms.setDom s d _
  case on => exact OnlyDoms.setDom s d _
  case waiting => exact OnlyDoms.refl _ s
  case rising => exact OnlyDoms.refl _ s

theorem State.domFall_onlyDoms (s : State) (d : Nat) : OnlyDoms [d] s (s.domFall d) :=
  (OnlyDoms.setDom s d _).of_chip_eq (State.setDomainUp_chip _ d false)

theorem State.domReady_onlyDoms (s : State) (d : Nat) : OnlyDoms [d] s (s.domReady d) :=
  (OnlyDoms.setDom s d _).of_chip_eq (s.domReady_chip d)

theorem State.releaseHeld_onlyDoms (s : State) (d : Nat) : OnlyDoms (domPrereqs d) s (s.releaseHeld d) :=
  OnlyDoms.loop _ s (fun t e => OnlyDoms.when t _ (t.domFall_onlyDoms e))

theorem State.beginWaiting_onlyDoms (s : State) : OnlyDoms (List.range 16) s s.beginWaiting :=
  OnlyDoms.loop _ s (fun t e => OnlyDoms.when t _ (t.domBegin_onlyDoms e))

/-- Only a domain that waits begins to rise. -/
theorem State.beginWaiting_dom (s : State) {d : Nat} (h : (s.dom d).phase ≠ .waiting) : s.beginWaiting.dom d = s.dom d := by
  unfold State.beginWaiting
  refine foldS_induct (P := fun t => t.dom d = s.dom d) rfl fun t e _ ht => ?_
  by_cases hed : d = e
  · have notWaiting : ((t.dom e).phase == .waiting) = false := by rw [← hed, ht]; exact beq_false_of_ne h
    simpa only [notWaiting, Bool.false_and, State.when_false] using ht
  · exact ((OnlyDoms.when t _ (t.domBegin_onlyDoms e)).kept d (by simpa using hed)).trans ht

/-! ## A request to switch on (R20, R22) -/

/-- What a request makes of a domain's entry; `ready` tells that the prerequisites are on. -/
def DomSt.requested (v : DomSt) (ready : Bool) : DomSt :=
  match v.phase with
  | .off => { v with phase := if ready then .rising else .waiting, offHeld := false }
  | .falling => { v with onPending := true }
  | .on => { v with offHeld := false }
  | .waiting => v
  | .rising => v

theorem DomSt.requested_idem (v : DomSt) (ready : Bool) : (v.requested ready).requested ready = v.requested ready := by
  obtain ⟨phase, onPending, offHeld⟩ := v
  cases phase
  case off => cases ready <;> rfl
  all_goals rfl

/-- A request switches nothing on at once, nor off. -/
theorem DomSt.requested_on (v : DomSt) (ready : Bool) : ((v.requested ready).phase == .on) = (v.phase == .on) := by
  obtain ⟨phase, onPending, offHeld⟩ := v
  cases phase
  case off => cases ready <;> rfl
  all_goals rfl

theorem State.domRequestOne_dom_self (s : State) (d : Nat) (h : s.chip.thermalOff = false) :
    (s.domRequestOne d).dom d = (s.dom d).requested ((domPrereqs d).all s.domOn) := by
  unfold State.domRequestOne DomSt.requested
  rw [h, Bool.false_and, if_neg Bool.false_ne_true]
  cases hp : (s.dom d).phase
  case off => simp only [State.domBegin, State.setDom_dom_self]
  case falling => simp only [State.setDom_dom_self, hp]
  case on => simp only [State.setDom_dom_self, hp]
  case waiting => rfl
  case rising => rfl

theorem State.domRequestOne_domOn (s : State) (d e : Nat) (h : s.chip.thermalOff = false) : (s.domRequestOne d).domOn e = s.domOn e := by
  unfold State.domOn
  by_cases hed : e = d
  · rw [hed, s.domRequestOne_dom_self d h, DomSt.requested_on]
  · rw [(s.domRequestOne_onlyDoms d).kept e (by simpa using hed)]

/-- The prerequisites of a domain, deepest first, as a request takes them. -/
def domDeepPrereqs (d : Nat) : List Nat :=
  ((domPrereqs d).flatMap domPrereqs).flatMap domPrereqs ++ (domPrereqs d).flatMap domPrereqs ++ domPrereqs d

/-- A request of one domain, if it is not on. -/
def State.requestOff (s : State) (d : Nat) : State := if s.domOn d then s else s.domRequestOne d

/-- The prerequisites of a domain are requested. -/
def State.requestPrereqs (s : State) (d : Nat) : State := foldS (domDeepPrereqs d) State.requestOff s

theorem State.domRequest_eq (s : State) (d : Nat) : s.domRequest d = ((s.requestPrereqs d).requestOff d).domRequestOne d := by
  change (foldS (domDeepPrereqs d ++ [d]) State.requestOff s).domRequestOne d = _
  rw [foldS, List.foldl_append]; rfl

theorem not_mem_domPrereqs : ∀ d < 16, d ∉ domPrereqs d := by decide

theorem not_mem_domDeepPrereqs : ∀ d < 16, d ∉ domDeepPrereqs d := by decide

theorem State.requestOff_onlyDoms (s : State) (d : Nat) : OnlyDoms [d] s (s.requestOff d) :=
  OnlyDoms.ite (OnlyDoms.refl _ s) (s.domRequestOne_onlyDoms d)

theorem State.requestOff_domOn (s : State) (d e : Nat) (h : s.chip.thermalOff = false) : (s.requestOff d).domOn e = s.domOn e := by
  unfold State.requestOff; split
  · rfl
  · exact s.domRequestOne_domOn d e h

theorem State.requestPrereqs_onlyDoms (s : State) (d : Nat) : OnlyDoms (domDeepPrereqs d) s (s.requestPrereqs d) :=
  OnlyDoms.loop _ s State.requestOff_onlyDoms

/-- The requests of the prerequisites change nothing of what is on. -/
theorem State.requestPrereqs_domOn (s : State) (d e : Nat) (h : s.chip.thermalOff = false) : (s.requestPrereqs d).domOn e = s.domOn e := by
  refine (foldS_induct (P := fun t => t.chip.thermalOff = false ∧ t.domOn e = s.domOn e) ⟨h, rfl⟩ ?_).2
  rintro t x - ⟨hth, hon⟩
  exact ⟨(t.requestOff_onlyDoms x).thermalOff.trans hth, (t.requestOff_domOn x e hth).trans hon⟩

/-- What a request to switch on makes of the domain itself (R20, R22). -/
theorem State.domRequest_dom_self (s : State) {d : Nat} (hd : d < 16) (h : s.chip.thermalOff = false) :
    (s.domRequest d).dom d = (s.dom d).requested ((domPrereqs d).all s.domOn) := by
  rw [State.domRequest_eq]
  have hself : (s.requestPrereqs d).dom d = s.dom d := (s.requestPrereqs_onlyDoms d).kept d (not_mem_domDeepPrereqs d hd)
  have hon : (s.requestPrereqs d).domOn = s.domOn := funext fun e => s.requestPrereqs_domOn d e h
  have hth : (s.requestPrereqs d).chip.thermalOff = false := (s.requestPrereqs_onlyDoms d).thermalOff.trans h
  generalize s.requestPrereqs d = u at hself hon hth
  unfold State.requestOff; split
  · rw [u.domRequestOne_dom_self d hth, hself, hon]
  · have hon' : (u.domRequestOne d).domOn = u.domOn := funext fun e => u.domRequestOne_domOn d e hth
    rw [State.domRequestOne_dom_self _ d ((u.domRequestOne_onlyDoms d).thermalOff.trans hth), u.domRequestOne_dom_self d hth, hon',
      DomSt.requested_idem, hself, hon]

/-! ## The commands -/

theorem exec_domainSwitchOn (d : Nat) (s : State) : exec (.domainSwitchOn d) s = execDomainSwitchOn d s := rfl

theorem exec_domainOffComplete (d : Nat) (s : State) : exec (.domainOffComplete d) s = execDomainOffComplete d s := rfl

theorem exec_domainUp (d : Nat) (s : State) : exec (.domainUp d) s = execDomainUp d s := rfl

/-- A request during the switch-off is kept, and the switch-off goes on. -/
theorem domainSwitchOn_of_falling {s : State} {d : Nat} (hd : d < 16) (hth : s.chip.thermalOff = false)
    (hp : (s.dom d).phase = .falling) :
    Yields (.domainSwitchOn d) s fun t => (t.dom d).phase = .falling ∧ (t.dom d).onPending = true := by
  have hexec : exec (.domainSwitchOn d) s = .next (s.domRequest d) := by
    simp only [exec_domainSwitchOn, execDomainSwitchOn, hd, decide_true, State.when_true]
  refine ⟨_, hexec, ?_⟩
  dsimp only
  rw [s.domRequest_dom_self hd hth, DomSt.requested, hp]
  exact ⟨rfl, rfl⟩

/-- A switch-off that completes with a request kept. -/
theorem domainOffComplete_of_onPending {s : State} {d : Nat} (hp : (s.dom d).phase = .falling) (hdep : s.domHasDependants d = false)
    (hon : (s.dom d).onPending = true) :
    exec (.domainOffComplete d) s = .next ((((s.domLost d).setDom d { phase := .off }).domRequest d).releaseHeld d) := by
  simp only [exec_domainOffComplete, execDomainOffComplete, hp, hdep, hon, beq_self_eq_true, Bool.not_false, Bool.and_self, State.when_true]

/-- A domain that was switching off was not on, so its end changes nothing of what is on. -/
theorem State.switchedOff_domOn {s : State} {d : Nat} (hp : (s.dom d).phase = .falling) :
    ((s.domLost d).setDom d { phase := .off }).domOn = s.domOn := by
  funext e
  unfold State.domOn
  by_cases he : e = d
  · rw [he, State.setDom_dom_self, hp]; rfl
  · rw [State.setDom_dom_ne _ _ he, State.domLost_dom]

/-- The kept request takes effect as the switch-off completes: the domain rises, or waits for its prerequisites. -/
theorem domainOffComplete_begins {s : State} {d : Nat} (hd : d < 16) (hth : s.chip.thermalOff = false)
    (hp : (s.dom d).phase = .falling) (hdep : s.domHasDependants d = false) (hon : (s.dom d).onPending = true) :
    Yields (.domainOffComplete d) s fun t => (t.dom d).phase = if (domPrereqs d).all s.domOn then .rising else .waiting := by
  refine ⟨_, domainOffComplete_of_onPending hp hdep hon, ?_⟩
  dsimp only
  have hth' : ((s.domLost d).setDom d { phase := .off }).chip.thermalOff = false := by
    rw [(OnlyDoms.setDom _ d _).thermalOff, s.domLost_chip, hth]
  rw [(State.releaseHeld_onlyDoms _ d).kept d (not_mem_domPrereqs d hd), State.domRequest_dom_self _ hd hth', State.setDom_dom_self,
    State.switchedOff_domOn hp]
  rfl

/-- With no access stalled, no management record and no reset held, nothing goes on as a domain comes up. -/
theorem State.goOn_of_idle {s : State} (hst : s.chip.stalled = []) (hm : s.chip.mgmt = []) (hr : s.chip.rstHeld = none)
    (sel : Acc → Bool) : s.goOn sel = s := by
  have taken : s.takeStalled sel = ([], s) := by
    rw [State.takeStalled, State.modChip, hst]
    simp only [List.filter_nil]
    rw [← hst]
  have left : s.mgmtLeft = 0 := by rw [State.mgmtLeft, hm]; rfl
  have held : s.rstReady = false := by rw [State.rstReady, hr]; rfl
  rw [State.goOn, taken]
  change s.mgmtGo = s
  rw [State.mgmtGo, left, State.mgmtSteps, State.rstDue, held, State.when_false]

theorem State.domainUp_of_not_offHeld {s : State} {d : Nat} (hoff : (s.dom d).offHeld = false) :
    s.domainUp d = (s.domReady d).beginWaiting := by
  have still : ((s.domReady d).beginWaiting.dom d).offHeld = false := by
    rw [State.beginWaiting_dom _ (by simp), State.domReady_dom_self, hoff]
  simp only [State.domainUp, still, Bool.false_and, State.when_false]

/-- A domain that rises with no switch-off held comes on. -/
theorem domainUp_comes_on {s : State} {d : Nat} (hd : d < 16) (h0 : s.chip.d0Up = true) (hp : (s.dom d).phase = .rising)
    (hoff : (s.dom d).offHeld = false) (hst : s.chip.stalled = []) (hm : s.chip.mgmt = []) (hr : s.chip.rstHeld = none) :
    Yields (.domainUp d) s fun t => (t.dom d).phase = .on := by
  have only : OnlyDoms (List.range 16) s (s.domReady d).beginWaiting :=
    ((s.domReady_onlyDoms d).mono (by simpa using hd)).trans (State.beginWaiting_onlyDoms _)
  have hexec : exec (.domainUp d) s = .next (s.domReady d).beginWaiting := by
    simp only [exec_domainUp, execDomainUp, hp, h0, beq_self_eq_true, Bool.and_self, State.when_true, State.domainUp_of_not_offHeld hoff,
      State.goOn_of_idle (only.stalled.trans hst) (only.mgmt.trans hm) (only.rstHeld.trans hr)]
  refine ⟨_, hexec, ?_⟩
  dsimp only
  rw [State.beginWaiting_dom _ (by simp), State.domReady_dom_self]

/-- A start that is requested while the function stops sets EN_PENDING beside EN, and nothing else. -/
theorem State.enable_of_stopping {s : State} {n : Nat} (hi : s.lifeImpl n = true) (hl : s.rd (PG_STATE_LIFE n) = lifeStopping) :
    s.enable n = (s.flag (PG_CTRL_EN n) true).flag (PG_STATE_EN_PENDING n) true := by
  have hcrown : (s.flag (PG_CTRL_EN n) true).crown = s.crown :=
    State.on_flag_ne _ _ _ _ (by simp only [SYS_TREE_POS_CROWN, PG_CTRL_EN]; omega)
  have himpl : (s.flag (PG_CTRL_EN n) true).lifeImpl n = true := by
    rw [State.lifeImpl, hcrown]; exact hi
  have hlife : (s.flag (PG_CTRL_EN n) true).rd (PG_STATE_LIFE n) = lifeStopping := by
    rw [State.rd_flag_ne _ _ _ _ (by simp [PG_STATE_LIFE, PG_CTRL_EN]), hl]
  simp [State.enable, himpl, hlife, lifeStopping, lifeOff]

/-- The function keeps stopping, with EN_PENDING set. -/
theorem State.enable_keeps_stopping {s : State} {n : Nat} (hi : s.lifeImpl n = true) (hl : s.rd (PG_STATE_LIFE n) = lifeStopping) :
    (s.enable n).rd (PG_STATE_LIFE n) = lifeStopping ∧ (s.enable n).on (PG_STATE_EN_PENDING n) = true := by
  rw [State.enable_of_stopping hi hl]
  constructor
  · rw [State.rd_flag_disj _ (PG_STATE_EN_PENDING n) (PG_STATE_LIFE n) _ rfl (by simp [PG_STATE_EN_PENDING]) (by simp [PG_STATE_LIFE])
      (by simp [PG_STATE_LIFE, PG_STATE_EN_PENDING]), State.rd_flag_ne _ _ _ _ (by simp [PG_STATE_LIFE, PG_CTRL_EN]), hl]
  · exact State.on_flag_self _ _ _ rfl (by simp [PG_STATE_EN_PENDING])

/-- Settles O57: a request during a switch-off is kept and takes effect as the switch-off completes (R22). -/
theorem domainOnDuringSwitchOff : Obligations.DomainOnDuringSwitchOff :=
  ⟨fun _ _ => domainSwitchOn_of_falling, fun _ _ => domainOffComplete_begins, fun _ _ => domainUp_comes_on,
    fun _ _ => State.enable_keeps_stopping⟩

end Sys2Proof.Machine
end

section
/-!
PROOFS. What R94 asks of a write that lowers the declared minimum core voltage.
-/

namespace Sys2Proof.Machine

/-! ## The words that a rejected access writes (R36) -/

/-- The words of a page's header that capture a rejected access: PG_ISR, PG_ERRCAP and PG_ERRVAL. -/
def captureWords (page : Nat) : List Nat := [(PG_ISR page).addr, (PG_ERRCAP_CODE page).addr, (PG_ERRVAL page).addr]

@[simp] theorem State.noteReject_word (s : State) (page code path word data a : Nat) :
    (s.noteReject page code path word data).word a = s.word a := by
  unfold State.noteReject; split <;> rfl

theorem State.putCapture_word (s : State) (page code path word data : Nat) {a : Nat} (hcap : a ≠ (PG_ERRCAP_CODE page).addr)
    (hval : a ≠ (PG_ERRVAL page).addr) : (s.putCapture page code path word data).word a = s.word a := by
  rw [State.putCapture, State.word_wr_ne _ _ _ _ hval, State.word_wr_ne _ (PG_ERRCAP_WORD page) _ _ hcap,
    State.word_wr_ne _ (PG_ERRCAP_MORE page) _ _ hcap, State.word_wr_ne _ (PG_ERRCAP_IF page) _ _ hcap, State.word_wr_ne _ _ _ _ hcap]

theorem State.capture_sameWords (s : State) (page : Nat) (p : Path) (code word data : Nat) :
    SameWords (captureWords page) s (s.capture page p code word data) := by
  intro a ha
  obtain ⟨hisr, hcap, hval⟩ : a ≠ (PG_ISR page).addr ∧ a ≠ (PG_ERRCAP_CODE page).addr ∧ a ≠ (PG_ERRVAL page).addr := by
    simpa [captureWords] using ha
  rw [State.capture, State.raise_word _ _ _ _ hisr]
  split
  · rw [State.word_flag_ne _ (PG_ERRCAP_MORE page) _ _ hcap, State.noteReject_word]
  · rw [State.putCapture_word _ _ _ _ _ _ hcap hval, State.noteReject_word]

theorem State.reject_sameWords (s : State) (p : Path) (a code data : Nat) :
    SameWords (captureWords (a / 0x1000)) s (s.reject p a code data) :=
  s.capture_sameWords (a / 0x1000) p code (a % 0x1000 / 4) data

/-- A field outside the capture words of the page reads as before the rejected write. -/
theorem State.reject_rd (s : State) (p : Path) (a code data : Nat) {g : Fld} (h : g.addr ∉ captureWords (a / 0x1000)) :
    (s.reject p a code data).rd g = s.rd g := by
  rw [State.rd, State.reject_sameWords s p a code data g.addr h, State.rd]

/-! ## The declared minimum (R94) -/

theorem exec_vminDeclWrite (p : Path) (v : Nat) (s : State) : exec (.vminDeclWrite p v) s = execVminDeclWrite p v s := by rfl

/-- A lower minimum whose girdle limit the guaranteed load exceeds fails the check. -/
theorem State.vminChk_of_load_exceeds {s : State} {v : Nat} (hlow : v < s.rd PWR_VMIN_DECL) (hload : girdleLimit v < s.chipLoad) :
    s.vminChk v = 1 :=
  if_pos (.inr ⟨hlow, hload⟩)

/-- A write whose check fails with a code is rejected with that code. -/
theorem execVminDeclWrite_rejected {s : State} {p : Path} {v : Nat} (h : Reaches s p PWR_VMIN_DECL.addr)
    (hchk : s.vminChk (v % 64) ≠ 0) :
    execVminDeclWrite p v s = .next (s.reject p PWR_VMIN_DECL.addr (s.vminChk (v % 64)) v) := by
  rw [execVminDeclWrite, State.writeOwn_rejected h hchk, done]

/-- Settles O56: the check refuses the lower minimum with code 1, and the capture of the rejected write leaves VMIN_DECL alone (R94). -/
theorem lowerMinimumRejected : Obligations.LowerMinimumRejected := by
  intro s p v hreach hlow hload
  have hchk : s.vminChk (v % 64) = 1 := State.vminChk_of_load_exceeds hlow hload
  have hexec : exec (.vminDeclWrite p v) s = .next (s.reject p PWR_VMIN_DECL.addr 1 v) := by
    rw [exec_vminDeclWrite, execVminDeclWrite_rejected hreach (by rw [hchk]; decide), hchk]
  exact ⟨_, hexec, rfl, s.reject_rd p _ 1 v (by decide)⟩

end Sys2Proof.Machine
end

section
/-!
PROOFS. What R347 asks of a write of the over-voltage threshold.
-/

namespace Sys2Proof.Machine

/-! ## The check of a new OVP_THR (R347) -/

/-- The threshold in steps of 0.1 V is ten times as many steps of 10 mV, and 0.5 V is 50 of them. -/
theorem State.ovpBad_of_below_vbus {s : State} {v : Nat} (hlow : v * 10 < s.rd SVC_VB_STATUS_VBUS + 50) : s.ovpBad v = true :=
  decide_eq_true (.inr (.inr hlow))

theorem State.ovpBad_of_in_range {s : State} {v : Nat} (hvbus : s.rd SVC_VB_STATUS_VBUS + 50 ≤ v * 10) (hmin : 55 ≤ v)
    (hmax : v ≤ 220) : s.ovpBad v = false :=
  decide_eq_false (by omega)

/-! ## The write of OVP_THR -/

theorem exec_ovpThrWrite (p : Path) (v : Nat) (s : State) : exec (.ovpThrWrite p v) s = execOvpThrWrite p v s := by rfl

/-- A threshold that fails the check is rejected with code 1. -/
theorem execOvpThrWrite_rejected {s : State} {p : Path} {v : Nat} (h : Reaches s p SVC_VB_CFG_OVP_THR.addr)
    (hbad : s.ovpBad (v % 256) = true) :
    execOvpThrWrite p v s = .next (s.reject p SVC_VB_CFG_OVP_THR.addr 1
      (SVC_VB_CFG_OVP_THR.put v (s.word SVC_VB_CFG_OVP_THR.addr)).toNat) := by
  rw [execOvpThrWrite, State.writeOwn_rejected h (by simp [hbad]), if_pos hbad, done]

/-- A threshold that passes the check is stored. -/
theorem execOvpThrWrite_accepted {s : State} {p : Path} {v : Nat} (h : Reaches s p SVC_VB_CFG_OVP_THR.addr)
    (hok : s.ovpBad (v % 256) = false) :
    execOvpThrWrite p v s = .next (accepted s (s.wr SVC_VB_CFG_OVP_THR v) p SVC_VB_CFG_OVP_THR.addr) := by
  rw [execOvpThrWrite, State.writeOwn_accepted h (by simp [hok]), done]

/-- Settles O59: the check refuses a threshold below VBUS + 0.5 V and passes one at or above it in 5.5 V to 22.0 V; the capture of the
rejected write leaves OVP_THR alone (R347). -/
theorem ovpThresholdRejected : Obligations.OvpThresholdRejected := by
  constructor
  · intro s p v hreach hlow
    have hexec := execOvpThrWrite_rejected hreach (State.ovpBad_of_below_vbus hlow)
    exact ⟨_, (exec_ovpThrWrite p v s).trans hexec, s.reject_rd p _ 1 _ (by decide), rfl⟩
  · intro s p v hreach hvbus hmin hmax
    rw [exec_ovpThrWrite, execOvpThrWrite_accepted hreach (State.ovpBad_of_in_range hvbus hmin hmax)]

end Sys2Proof.Machine
end

section
/-!
PROOFS. What R407 asks of a transfer that begins while another is under way.
-/

namespace Sys2Proof.Machine

/-! ## An answered frame of the service UART (R406) -/

/-- The answer to a frame is kept, for a frame that repeats its SEQ, and sent. -/
def State.uartAnswer (s : State) (typ seq : Nat) (a : List Byte) : State :=
  (s.modBoot (fun b => { b with uartLast := some (seq, beBytes 1 (128 + typ) ++ a) })).emit (.svcUart (128 + typ) seq a)

/-- A frame with a new SEQ is executed and answered. -/
theorem State.uartFrame_of_new {s : State} {seq : Nat} (hup : s.uartUp = true)
    (hnew : s.boot.uartLast.filter (fun l => l.1 == seq) = none) (typ : Nat) (act : State → State × List Byte) :
    s.uartFrame typ seq act = (act s).1.uartAnswer typ seq (act s).2 := by
  rw [State.uartFrame, hup, State.when_true, hnew]; rfl

@[simp] theorem State.uartAnswer_word (s : State) (typ seq : Nat) (a : List Byte) (b : Nat) :
    (s.uartAnswer typ seq a).word b = s.word b := rfl

@[simp] theorem State.uartAnswer_out (s : State) (typ seq : Nat) (a : List Byte) :
    (s.uartAnswer typ seq a).out = s.out ++ [.svcUart (128 + typ) seq a] := rfl

@[simp] theorem State.uartAnswer_boot (s : State) (typ seq : Nat) (a : List Byte) :
    (s.uartAnswer typ seq a).boot = { s.boot with uartLast := some (seq, beBytes 1 (128 + typ) ++ a) } := rfl

/-! ## UPD_START and DFU_DNLOAD during a transfer (R407) -/

theorem exec_updStart (q n : Nat) (s : State) : exec (.updStart q n) s = execUpdStart q n s := by rfl

theorem exec_dfuDnload (b : Nat) (d : List Byte) (s : State) : exec (.dfuDnload b d) s = execDfuDnload b d s := by rfl

/-- Whatever length it announces, an UPD_START during a transfer only answers busy. -/
theorem execUpdStart_busy {s : State} {q : Nat} (hup : s.uartUp = true)
    (hnew : s.boot.uartLast.filter (fun l => l.1 == q) = none) (hbusy : s.updBusy = true) (n : Nat) :
    execUpdStart q n s = .next (s.uartAnswer 0x10 q [5]) := by
  rw [execUpdStart, State.uartFrame_of_new hup hnew, hbusy, Bool.true_or, if_pos rfl, done]

@[simp] theorem State.dfuSet_word (s : State) (st status a : Nat) : (s.dfuSet st status).word a = s.word a := rfl

@[simp] theorem State.dfuSet_out (s : State) (st status : Nat) : (s.dfuSet st status).out = s.out ++ [.dfu st status] := rfl

@[simp] theorem State.dfuSet_boot (s : State) (st status : Nat) :
    (s.dfuSet st status).boot = { s.boot with dfuState := st, dfuStatus := status } := rfl

/-- The phase of the transfer is not in the word of a counter. -/
theorem State.updBusy_inc {s : State} {f : Fld} (h : BOOT_UPD_STATUS_PHASE.addr ≠ f.addr) : (s.inc f).updBusy = s.updBusy := by
  rw [State.updBusy, State.rd_inc_ne _ _ _ _ h, State.updBusy]

/-- A DFU download that is not the transfer under way is counted and ends in dfuERROR with errNOTDONE. -/
theorem execDfuDnload_busy {s : State} (hload : s.on BOOT_STATUS_LOADER = true) (hstate : s.boot.dfuState ≠ 10)
    (hbusy : s.updBusy = true) (hdfu : s.boot.dfu = false) (b : Nat) (d : List Byte) :
    execDfuDnload b d s = .next ((s.inc USBD_DFU_BLOCKS).dfuSet 10 9) := by
  have hserved : (s.on BOOT_STATUS_LOADER && s.boot.dfuState != 10) = true := by simp [hload, hstate]
  have hother : ((s.inc USBD_DFU_BLOCKS).updBusy && !(s.inc USBD_DFU_BLOCKS).boot.dfu) = true := by
    rw [State.updBusy_inc (by decide), State.inc_boot, hbusy, hdfu]; rfl
  rw [execDfuDnload, hserved, State.when_true, if_pos hother, done]

/-- Settles O60: over either transport the command that begins a transfer ends with its answer, before it touches what is staged
(R407). -/
theorem oneTransferAtATime : Obligations.OneTransferAtATime := by
  constructor
  · intro s q n hup hnew hbusy
    have hexec := (exec_updStart q n s).trans (execUpdStart_busy hup hnew hbusy n)
    exact ⟨_, hexec, s.uartAnswer_out 0x10 q [5], fun a _ => s.uartAnswer_word 0x10 q [5] a, s.uartAnswer_boot 0x10 q [5]⟩
  · intro s b d hload hstate hbusy hdfu
    have hexec := (exec_dfuDnload b d s).trans (execDfuDnload_busy hload hstate hbusy hdfu b d)
    refine ⟨_, hexec, by rw [State.dfuSet_out, State.inc_out], fun a ha => ?_, by rw [State.dfuSet_boot, State.inc_boot]⟩
    rw [State.dfuSet_word, State.word_inc_ne s _ _ _ (List.ne_of_not_mem_cons ha)]

end Sys2Proof.Machine
end

section
/-!
PROOFS. What every step and every command keeps, and the state after reset.
-/

namespace Sys2Proof.Machine

/-! ## Canonical stores are determined by what they read (R8) -/

theorem tget?_of_mem {α : Type} {t : Tbl α} (ht : Rising t) {e : Nat × α} (he : e ∈ t) : tget? t e.1 = some e.2 := by
  induction t with
  | nil => cases he
  | cons x t ih =>
    obtain ⟨hx, ht⟩ := List.pairwise_cons.1 ht
    rcases List.mem_cons.1 he with rfl | he
    · simp [tget?]
    · have hlt := hx e he
      have hne : (x.1 == e.1) = false := beq_false_of_ne (Nat.ne_of_lt hlt)
      have := ih ht he
      simpa [tget?, List.find?_cons, hne] using this

theorem mem_of_tget? {α : Type} {t : Tbl α} {k : Nat} {v : α} (h : tget? t k = some v) : (k, v) ∈ t := by
  obtain ⟨e, he, rfl⟩ := Option.map_eq_some_iff.1 h
  have hk : e.1 = k := by simpa using List.find?_some he
  exact hk ▸ List.mem_of_find?_eq_some he

/-- What a canonical store lists is what it reads differently from reset. -/
theorem mem_iff_wget {m : Tbl Word} (hm : wordsWf m = true) (e : Nat × Word) : e ∈ m ↔ wget m e.1 = e.2 ∧ e.2 ≠ dflt e.1 := by
  obtain ⟨hrise, hdflt⟩ := (wordsWf_iff m).1 hm
  constructor
  · intro he
    exact ⟨by rw [wget, tget, tget?_of_mem hrise he, Option.getD_some], hdflt e he⟩
  · rintro ⟨hget, hne⟩
    cases hfind : tget? m e.1 with
    | none => exact absurd (by rw [← hget, wget, tget, hfind, Option.getD_none]) hne
    | some v =>
      have hv : v = e.2 := by rw [← hget, wget, tget, hfind, Option.getD_some]
      have hmem := mem_of_tget? hfind
      rwa [hv] at hmem

theorem Rising.eq_of_mem_iff {α : Type} {t u : Tbl α} (ht : Rising t) (hu : Rising u) (h : ∀ e, e ∈ t ↔ e ∈ u) : t = u := by
  have hperm : t.Perm u :=
    (List.perm_ext_iff_of_nodup (ht.imp fun hlt he => absurd (he ▸ hlt) (lt_irrefl _))
      (hu.imp fun hlt he => absurd (he ▸ hlt) (lt_irrefl _))).2 h
  exact hperm.eq_of_pairwise (fun a b _ _ hab hba => absurd (lt_trans hab hba) (lt_irrefl _)) ht hu

/-- Canonical stores that read the same are the same data. -/
theorem words_eq_of_wget {m n : Tbl Word} (hm : wordsWf m = true) (hn : wordsWf n = true) (h : ∀ a, wget m a = wget n a) : m = n :=
  ((wordsWf_iff m).1 hm).1.eq_of_mem_iff ((wordsWf_iff n).1 hn).1 fun e => by
    rw [mem_iff_wget hm, mem_iff_wget hn, h]

/-! ## Every step -/

theorem step_keeps_wf {s t : State} (hs : s.wf = true) (h : step s = .next t) : t.wf = true := by
  obtain ⟨t', ht', hfol⟩ := step_follows s
  obtain rfl : t' = t := by rw [h] at ht'; exact (Host.Outcome.next.inj ht').symm
  exact hfol.words hs

/-- Settles O4: each step goes through the operations that keep the store canonical, and a canonical store is determined by its
readings. -/
theorem stepKeepsCanonicalWords : Obligations.StepKeepsCanonicalWords :=
  ⟨fun _ _ => step_keeps_wf, fun _ _ _ _ hs hs' h h' hread =>
    words_eq_of_wget (step_keeps_wf hs h) (step_keeps_wf hs' h') hread⟩

/-- Settles O3: a step leaves what `step_follows` says. -/
theorem everyStepCompletes : Obligations.EveryStepCompletes := by
  intro s
  obtain ⟨t, ht, hfol⟩ := step_follows s
  exact ⟨t, ht, hfol.pending, hfol.out, hfol.fresh⟩

/-- Settles O5: what a command leaves, for the mask of the parts that it touches. -/
theorem framesByPart : Obligations.FramesByPart := by
  intro c s t h
  obtain ⟨t', ht', hfol⟩ := exec_follows c (Nat.or_self _) (Follows.refl (maskOf (touches c)) s)
  obtain rfl : t' = t := by rw [h] at ht'; exact (Host.Outcome.next.inj ht').symm
  exact ⟨hfol.pending, fun p hp => hfol.parts p (maskOf_testBit hp)⟩

/-! ## The front of the queue, and reset -/

theorem step_cons (c : Instr) (s : State) (rest : List Instr) :
    step { s with pending := c :: rest } = exec c { s with pending := rest } := rfl

theorem step_of_idle {s : State} (h : s.pending = []) : step s = .next s.tick := by
  rw [step, h]

/-- Settles O1: the two branches of a step. -/
theorem stepRunsFront : Obligations.StepRunsFront :=
  ⟨step_cons, fun _ => step_of_idle⟩

theorem State.reset_word (a : Nat) : State.reset.word a = dflt a := rfl

theorem State.reset_rd (f : Fld) : State.reset.rd f = f.get (dflt f.addr) := rfl

/-- No page has an interrupt, an enabled interrupt or an enabled function at reset. -/
theorem State.reset_header : ∀ n, n < 39 → (State.reset.word (PG_ISR n).addr).toNat = 0 ∧ (State.reset.word (PG_IER n).addr).toNat = 0 ∧
    State.reset.on (PG_CTRL_EN n) = false := by
  simp only [State.on, State.reset_word, State.reset_rd]
  decide +kernel

/-- Settles O2: at reset no word is listed, so every field reads the default of its word. -/
theorem resetState : Obligations.ResetState := by
  refine ⟨rfl, rfl, rfl, ?_⟩
  simp only [State.reset_rd]
  refine ⟨by decide +kernel, by decide +kernel, by decide +kernel, by decide +kernel, by decide +kernel, by decide +kernel,
    by decide +kernel, by decide +kernel, by decide +kernel, by decide +kernel, by decide +kernel, by decide +kernel, by decide +kernel,
    by decide +kernel, by decide +kernel, by decide +kernel, by decide +kernel, by decide +kernel, by decide +kernel, by decide +kernel,
    by decide +kernel, State.reset_header⟩

end Sys2Proof.Machine
end

section
/-!
PROOFS. Reading a field after a write to another: one check of the two fields, which evaluation decides where the addresses are numbers or
the bits are disjoint; and the frame of the register words.
-/

namespace Sys2Proof

/-! ## Fields that a write does not mix -/

/-- Two fields of disjoint bits, or of different words. -/
def Fld.apart (f g : Fld) : Bool :=
  (decide (f.lo ≤ f.hi) && decide (g.hi < 32) && (decide (g.hi < f.lo) || decide (f.hi < g.lo))) || g.addr != f.addr

/-- The bits of a field lie in a word. -/
def Fld.fits (f : Fld) : Bool := decide (f.lo ≤ f.hi) && decide (f.hi < 32)

theorem Fld.apart_iff (f g : Fld) :
    f.apart g = true ↔ (f.lo ≤ f.hi ∧ g.hi < 32 ∧ (g.hi < f.lo ∨ f.hi < g.lo)) ∨ g.addr ≠ f.addr := by
  simp [Fld.apart, and_assoc]

theorem Fld.fits_iff (f : Fld) : f.fits = true ↔ f.lo ≤ f.hi ∧ f.hi < 32 := by
  simp [Fld.fits]

/-- The field is one bit of a word. -/
def Fld.oneBit (f : Fld) : Bool := f.lo == f.hi && decide (f.hi < 32)

theorem Fld.oneBit_iff (f : Fld) : f.oneBit = true ↔ f.lo = f.hi ∧ f.hi < 32 := by
  simp [Fld.oneBit]

/-- Fields of different words are apart. -/
theorem Fld.apart_of_addr_ne {f g : Fld} (h : g.addr ≠ f.addr) : f.apart g = true := (Fld.apart_iff f g).2 (.inr h)

/-- Addresses at different offsets from one base. -/
theorem Fld.addr_ne_of_base {f g : Fld} {a b k : Nat} (hf : f.addr = a + k) (hg : g.addr = b + k) (h : a ≠ b) : f.addr ≠ g.addr := by
  rw [hf, hg]
  exact fun he => h (Nat.add_right_cancel he)

theorem Fld.apart_lt {f g : Fld} {a b k : Nat} (hf : f.addr = a) (hg : g.addr = b + k) (h : a < b) : f.apart g = true :=
  Fld.apart_of_addr_ne (by omega)

theorem Fld.apart_gt {f g : Fld} {a b k : Nat} (hf : f.addr = a + k) (hg : g.addr = b) (h : b < a) : f.apart g = true :=
  Fld.apart_of_addr_ne (by omega)

end Sys2Proof

namespace Sys2Proof.Machine

theorem State.rd_wr_apart (s : State) (f g : Fld) (v : Nat) (h : f.apart g = true) : (s.wr f v).rd g = s.rd g := by
  rcases (Fld.apart_iff f g).1 h with ⟨hlo, h32, hbits⟩ | hne
  · by_cases ha : g.addr = f.addr
    · exact State.rd_wr_disj s f g v ha hlo h32 hbits
    · exact State.rd_wr_ne s f g v ha
  · exact State.rd_wr_ne s f g v hne

theorem State.rd_wr_fits (s : State) (f : Fld) (v : Nat) (h : f.fits = true) : (s.wr f v).rd f = v % 2 ^ f.width :=
  State.rd_wr_self s f v ((Fld.fits_iff f).1 h).1 ((Fld.fits_iff f).1 h).2

theorem State.on_wr_apart (s : State) (f g : Fld) (v : Nat) (h : f.apart g = true) : (s.wr f v).on g = s.on g := by
  rw [State.on, State.rd_wr_apart s f g v h, State.on]

theorem State.bit_wr_apart (s : State) (f g : Fld) (v b : Nat) (h : f.apart g = true) : (s.wr f v).bit g b = s.bit g b := by
  rw [State.bit, State.rd_wr_apart s f g v h, State.bit]

theorem State.rd_flag_apart (s : State) (f g : Fld) (v : Bool) (h : f.apart g = true) : (s.flag f v).rd g = s.rd g :=
  State.rd_wr_apart s f g _ h

theorem State.on_flag_apart (s : State) (f g : Fld) (v : Bool) (h : f.apart g = true) : (s.flag f v).on g = s.on g :=
  State.on_wr_apart s f g _ h

theorem State.on_flag_one (s : State) (f : Fld) (b : Bool) (h : f.oneBit = true) : (s.flag f b).on f = b :=
  State.on_flag_self s f b ((Fld.oneBit_iff f).1 h).1 ((Fld.oneBit_iff f).1 h).2

theorem State.rd_flag_fits (s : State) (f : Fld) (v : Bool) (h : f.fits = true) : (s.flag f v).rd f = v.toNat % 2 ^ f.width :=
  State.rd_wr_fits s f _ h

theorem State.rd_inc_apart (s : State) (f g : Fld) (n : Nat) (h : f.apart g = true) : (s.inc f n).rd g = s.rd g :=
  State.rd_wr_apart s f g _ h

theorem State.on_inc_apart (s : State) (f g : Fld) (n : Nat) (h : f.apart g = true) : (s.inc f n).on g = s.on g :=
  State.on_wr_apart s f g _ h

theorem State.rd_inc_fits (s : State) (f : Fld) (n : Nat) (h : f.fits = true) : (s.inc f n).rd f = (s.rd f + n) % 2 ^ f.width :=
  State.rd_wr_fits s f _ h

theorem State.rd_incSat_apart (s : State) (f g : Fld) (h : f.apart g = true) : (s.incSat f).rd g = s.rd g :=
  State.rd_wr_apart s f g _ h

theorem State.rd_setBit_apart (s : State) (f g : Fld) (b : Nat) (v : Bool) (h : f.apart g = true) : (s.setBit f b v).rd g = s.rd g :=
  State.rd_wr_apart s f g _ h

theorem State.on_setBit_apart (s : State) (f g : Fld) (b : Nat) (v : Bool) (h : f.apart g = true) : (s.setBit f b v).on g = s.on g :=
  State.on_wr_apart s f g _ h

theorem State.bit_setBit_apart (s : State) (f g : Fld) (b c : Nat) (v : Bool) (h : f.apart g = true) :
    (s.setBit f b v).bit g c = s.bit g c :=
  State.bit_wr_apart s f g _ c h


theorem State.when_of {c : Bool} (s : State) (f : State → State) (h : c = true) : s.when c f = f s := by rw [h, State.when_true]

theorem State.when_of_not {c : Bool} (s : State) (f : State → State) (h : c = false) : s.when c f = s := by rw [h, State.when_false]

theorem State.rd_raise_apart (s : State) (p b : Nat) (g : Fld) (h : (PG_ISR p).apart g = true) : (s.raise p b).rd g = s.rd g := by
  rcases (Fld.apart_iff _ g).1 h with ⟨_, h32, hbits⟩ | hne
  · have hwidth : g.width = 0 := by
      simp only [PG_ISR] at hbits
      unfold Fld.width
      omega
    simp only [State.rd, Fld.get, hwidth, pow_zero, Nat.mod_one]
  · exact State.raise_rd s p b g hne

theorem State.on_raise_apart (s : State) (p b : Nat) (g : Fld) (h : (PG_ISR p).apart g = true) : (s.raise p b).on g = s.on g := by
  rw [State.on, State.rd_raise_apart s p b g h, State.on]

theorem State.bit_raise_apart (s : State) (p b : Nat) (g : Fld) (c : Nat) (h : (PG_ISR p).apart g = true) :
    (s.raise p b).bit g c = s.bit g c := by
  rw [State.bit, State.rd_raise_apart s p b g h, State.bit]

theorem State.on_iff_rd (s : State) (f : Fld) : s.on f = true ↔ s.rd f = 1 := beq_iff_eq

theorem State.on_of_rd_zero {s : State} {f : Fld} (h : s.rd f = 0) : s.on f = false := by rw [State.on, h]; rfl

theorem State.rd_lt (s : State) (f : Fld) : s.rd f < 2 ^ f.width := Nat.mod_lt _ (Nat.two_pow_pos _)

/-- A field reads from its word alone. -/
theorem State.rd_of_word {s t : State} {f : Fld} (h : t.word f.addr = s.word f.addr) : t.rd f = s.rd f := by
  rw [State.rd, h, State.rd]

theorem State.on_of_word {s t : State} {f : Fld} (h : t.word f.addr = s.word f.addr) : t.on f = s.on f := by
  rw [State.on, State.rd_of_word h, State.on]

theorem State.capture_rd (s : State) (page : Nat) (p : Path) (code word data : Nat) {g : Fld} (h : g.addr ∉ captureWords page) :
    (s.capture page p code word data).rd g = s.rd g :=
  State.rd_of_word (s.capture_sameWords page p code word data _ h)

theorem State.rd_setWord_ne (s : State) (a : Nat) (v : Word) {g : Fld} (h : g.addr ≠ a) : (s.setWord a v).rd g = s.rd g :=
  State.rd_of_word (s.word_setWord_ne a _ v h)

theorem State.bit_setBit_self (s : State) (f : Fld) (b : Nat) (v : Bool) (hb : b < f.width) (h : f.fits = true) :
    (s.setBit f b v).bit f b = v := by
  have hlt : 2 ^ b < 2 ^ f.width := Nat.pow_lt_pow_right Nat.one_lt_two hb
  rw [State.setBit, State.bit, State.rd_wr_fits _ _ _ h, Nat.testBit_mod_two_pow, decide_eq_true hb, Bool.true_and]
  cases v
  · rw [if_neg Bool.false_ne_true, Nat.mod_eq_of_lt hlt, Nat.sub_sub, Nat.add_comm 1, Nat.testBit_and, Nat.testBit_two_pow_sub_succ hlt,
      Nat.testBit_two_pow_self, Bool.not_true, Bool.and_false, Bool.and_false]
  · rw [if_pos rfl, Nat.testBit_or, Nat.testBit_two_pow_self, Bool.or_true]

/-! ## A change of the parts leaves the registers -/

section Parts
variable (s : State) (pe : List Instr) (ou : List Out) (fr : Nat) (ch : Chip) (re : Recorder) (ti : TimeS) (po : Tbl Port) (pw : PowerS)
  (ev : EviS) (cx : Tbl CtxS) (qu : List Quar) (gi : GirdleS) (sc : SchedS) (br : BridgeS) (dm : DmaS) (fa : FacetS) (dp : DisplayS)
  (us : UsbS) (st : StationS) (bz : BezelS) (sv : ServiceS) (se : SecS) (bo : BootS)

@[simp] theorem State.mk_word (a : Nat) :
    (State.mk s.words pe ou fr ch re ti po pw ev cx qu gi sc br dm fa dp us st bz sv se bo).word a = s.word a := rfl

@[simp] theorem State.mk_rd (f : Fld) :
    (State.mk s.words pe ou fr ch re ti po pw ev cx qu gi sc br dm fa dp us st bz sv se bo).rd f = s.rd f := rfl

@[simp] theorem State.mk_on (f : Fld) :
    (State.mk s.words pe ou fr ch re ti po pw ev cx qu gi sc br dm fa dp us st bz sv se bo).on f = s.on f := rfl

@[simp] theorem State.mk_bit (f : Fld) (b : Nat) :
    (State.mk s.words pe ou fr ch re ti po pw ev cx qu gi sc br dm fa dp us st bz sv se bo).bit f b = s.bit f b := rfl

end Parts

/-! ## The frame of the register words, operation by operation -/

section SameWords
variable {l l' : List Nat} {s t u : State}

theorem SameWords.refl (l : List Nat) (s : State) : SameWords l s s := fun _ _ => rfl

theorem SameWords.of_word (h : SameWords l s t) (hw : ∀ a, u.word a = t.word a) : SameWords l s u :=
  fun a ha => (hw a).trans (h a ha)

theorem SameWords.trans (h : SameWords l s t) (h' : SameWords l t u) : SameWords l s u := fun a ha => (h' a ha).trans (h a ha)

theorem SameWords.mono (h : SameWords l s t) (hl : ∀ a, a ∈ l → a ∈ l') : SameWords l' s t := fun a ha => h a (mt (hl a) ha)

theorem SameWords.setWord (h : SameWords l s t) {a : Nat} (ha : a ∈ l) (v : Word) : SameWords l s (t.setWord a v) := fun b hb =>
  (State.word_setWord_ne t a b v fun he => hb (he ▸ ha)).trans (h b hb)

theorem SameWords.wr (h : SameWords l s t) {f : Fld} (hf : f.addr ∈ l) (v : Nat) : SameWords l s (t.wr f v) := h.setWord hf _

theorem SameWords.flag (h : SameWords l s t) {f : Fld} (hf : f.addr ∈ l) (v : Bool) : SameWords l s (t.flag f v) := h.setWord hf _

theorem SameWords.inc (h : SameWords l s t) {f : Fld} (hf : f.addr ∈ l) (n : Nat) : SameWords l s (t.inc f n) := h.setWord hf _

theorem SameWords.incSat (h : SameWords l s t) {f : Fld} (hf : f.addr ∈ l) : SameWords l s (t.incSat f) := h.setWord hf _

theorem SameWords.setBit (h : SameWords l s t) {f : Fld} (hf : f.addr ∈ l) (b : Nat) (v : Bool) : SameWords l s (t.setBit f b v) :=
  h.setWord hf _

theorem SameWords.raise (h : SameWords l s t) {p : Nat} (hp : (PG_ISR p).addr ∈ l) (b : Nat) : SameWords l s (t.raise p b) := fun a ha =>
  (State.raise_word t p b a fun he => ha (he ▸ hp)).trans (h a ha)

theorem SameWords.capture (h : SameWords l s t) {page : Nat} (hp : ∀ a, a ∈ captureWords page → a ∈ l) (p : Path) (code word data : Nat) :
    SameWords l s (t.capture page p code word data) :=
  h.trans ((t.capture_sameWords page p code word data).mono hp)

theorem SameWords.when (h : SameWords l s t) {F : State → State} (c : Bool) (hF : SameWords l s t → SameWords l s (F t)) :
    SameWords l s (t.when c F) := by
  cases c
  · exact h
  · exact hF h

theorem SameWords.ite (c : Prop) [Decidable c] (ht : SameWords l s t) (hu : SameWords l s u) : SameWords l s (if c then t else u) := by
  split
  · exact ht
  · exact hu

theorem SameWords.bit (h : SameWords l s t) {g : Fld} (hg : g.addr ∉ l) (b : Nat) : t.bit g b = s.bit g b := by
  rw [State.bit, State.rd_of_word (h _ hg), State.bit]

theorem SameWords.rd (h : SameWords l s t) {g : Fld} (hg : g.addr ∉ l) : t.rd g = s.rd g := State.rd_of_word (h _ hg)

theorem SameWords.on (h : SameWords l s t) {g : Fld} (hg : g.addr ∉ l) : t.on g = s.on g := State.on_of_word (h _ hg)

/-- A fold changes only the words that its steps change. -/
theorem SameWords.foldS {α : Type} {F : State → α → State} {xs : List α} (h : SameWords l s t)
    (hF : ∀ u x, x ∈ xs → SameWords l s u → SameWords l s (F u x)) : SameWords l s (foldS xs F t) := by
  induction xs generalizing t with
  | nil => exact h
  | cons x xs ih =>
    exact ih (hF t x List.mem_cons_self h) fun u y hy => hF u y (List.mem_cons_of_mem _ hy)

end SameWords

/-! ## What a record of the ring changes (R409, R419) -/

/-- The recorder's words that a record changes when it enters the ring. -/
def ringWords : List Nat := [(PG_ISR 8).addr, REC_HEAD_SEQ.addr, REC_OLDEST_SEQ.addr, REC_FLUSHED_SEQ.addr, REC_OVERRUN.addr]

theorem State.enterRing_sameWords (s : State) (r : Rec) : SameWords ringWords s (s.enterRing r) := by
  intro a ha
  obtain ⟨hisr, hhead, hold, hflush, hover⟩ : a ≠ (PG_ISR 8).addr ∧ a ≠ REC_HEAD_SEQ.addr ∧ a ≠ REC_OLDEST_SEQ.addr ∧
      a ≠ REC_FLUSHED_SEQ.addr ∧ a ≠ REC_OVERRUN.addr := by
    simpa [ringWords] using ha
  unfold State.enterRing
  extract_lets n pos r s1 lw recd s2 s3
  have hs1 : s1.word a = s.word a := by
    simp only [s1]
    split
    · rfl
    · rw [State.when_word _ _ _ _ (by rw [State.raise_word _ _ _ _ hisr, State.word_inc_ne _ _ _ _ hover, State.word_wr_ne _ _ _ _ hflush]),
        State.when_word _ _ _ _ (State.word_wr_ne _ _ _ _ hold)]
  have hs2 : s2.word a = s1.word a := by simp only [s2, recd, State.mk_word]
  rw [State.when_word _ _ _ _ (State.mk_word ..), State.raise_word _ _ _ _ hisr, State.word_wr_ne _ _ _ _ hhead, hs2, hs1]

theorem State.sysRecord_sameWords (s : State) (typ trig source : Nat) (idx : List Nat) :
    SameWords ringWords s (s.sysRecord typ trig source idx) := by
  unfold State.sysRecord State.putRecord
  split
  · exact .refl _ _
  · exact s.enterRing_sameWords _

/-! ## Requests of domains, steps of a start and wake events: the pages that they write -/

@[simp] theorem State.domRequestOne_word (s : State) (d a : Nat) : (s.domRequestOne d).word a = s.word a := by
  unfold State.domRequestOne State.domBegin
  split
  · rfl
  · cases (s.dom d).phase <;> simp only [State.setDom_word]

theorem foldS_word {α : Type} {F : State → α → State} (xs : List α) (s : State) (a : Nat) (hF : ∀ u x, (F u x).word a = u.word a) :
    (foldS xs F s).word a = s.word a :=
  foldS_induct (P := fun t => t.word a = s.word a) rfl fun u x _ hu => (hF u x).trans hu

@[simp] theorem State.domRequest_word (s : State) (d a : Nat) : (s.domRequest d).word a = s.word a := by
  rw [State.domRequest, State.domRequestOne_word, foldS_word]
  intro u e
  split
  · rfl
  · exact State.domRequestOne_word u e a

@[simp] theorem State.resumeLink_word (s : State) (n a : Nat) : (s.resumeLink n).word a = s.word a :=
  State.when_word _ _ _ _ (by simp)

@[simp] theorem State.exitBegin_word (s : State) (a : Nat) : s.exitBegin.word a = s.word a := by
  rw [State.exitBegin, foldS_word _ _ _ fun u n => u.resumeLink_word n a]
  dsimp only
  rw [foldS_word _ _ _ fun u d => u.domRequest_word d a, State.mk_word]

@[simp] theorem State.ledgerUpdate_word (s : State) (a : Nat) : s.ledgerUpdate.word a = s.word a := by
  simp only [State.ledgerUpdate, State.modBoot_word]

/-- A step of a start writes page BOOT alone. -/
theorem State.enterStep_word (s : State) (n : Nat) {a : Nat} (h : a / 0x1000 ≠ 10) : (s.enterStep n).word a = s.word a := by
  have hstep : s.step_ < 16 := s.rd_lt _
  have hms : a ≠ (BOOT_STEP_MS s.step_).addr := by simp only [BOOT_STEP_MS]; omega
  have hstatus : a ≠ BOOT_STATUS_STEP.addr := fun he => h (he ▸ rfl)
  unfold State.enterStep
  dsimp only
  rw [State.when_word _ _ _ _ (State.ledgerUpdate_word _ _), State.modBoot_word, State.word_wr_ne _ _ _ _ hstatus,
    State.when_word _ _ _ _ (State.word_wr_ne _ _ _ _ hms)]

/-- The end of HALT writes page BOOT alone. -/
theorem State.haltEnd_word (s : State) {a : Nat} (h : a / 0x1000 ≠ 10) : s.haltEnd.word a = s.word a := by
  have hflags : a ≠ BOOT_LEDGER_LAST_FLAGS.addr := fun he => h (he ▸ rfl)
  have hstatus : a ≠ BOOT_STATUS_HALT.addr := fun he => h (he ▸ rfl)
  rw [State.haltEnd, State.enterStep_word _ _ h]
  simp only [State.setFlagBit, State.setFlags]
  rw [State.word_flag_ne _ BOOT_STATUS_NO_KEYS _ _ hstatus, State.word_flag_ne _ _ _ _ hstatus, State.word_wr_ne _ _ _ _ hflags]

theorem State.ite_word {c : Prop} [Decidable c] {s t u : State} {a : Nat} (ht : t.word a = s.word a) (hu : u.word a = s.word a) :
    (if c then t else u).word a = s.word a := by
  split
  · exact ht
  · exact hu

/-- A wake event writes the pages PWR and BOOT alone. -/
theorem State.wakeBy_word (s : State) (cause : Nat) {a : Nat} (h1 : a / 0x1000 ≠ 1) (h10 : a / 0x1000 ≠ 10) :
    (s.wakeBy cause).word a = s.word a := by
  have hstatus : a ≠ PWR_PS_STATUS_WAKE_CAUSE.addr := fun he => h1 (he ▸ rfl)
  have hctrl : a ≠ PWR_PS_CTRL_TARGET.addr := fun he => h1 (he ▸ rfl)
  have hisr : a ≠ (PG_ISR 1).addr := fun he => h1 (he ▸ rfl)
  unfold State.wakeBy
  dsimp only
  split
  · rw [State.when_word _ _ _ _ (State.mk_word ..), State.when_word _ _ _ _ (State.haltEnd_word _ h10)]
  · refine State.ite_word rfl (State.ite_word ?_ rfl)
    rw [State.raise_word _ _ _ _ hisr, State.exitBegin_word, State.mk_word, State.when_word _ _ _ _ (State.enterStep_word _ _ h10),
      State.word_wr_ne _ _ _ _ hctrl, State.word_wr_ne _ _ _ _ hstatus]

theorem State.wakeBy_rd (s : State) (cause : Nat) {g : Fld} (h1 : g.addr / 0x1000 ≠ 1) (h10 : g.addr / 0x1000 ≠ 10) :
    (s.wakeBy cause).rd g = s.rd g :=
  State.rd_of_word (s.wakeBy_word cause h1 h10)

theorem State.wakeBy_on (s : State) (cause : Nat) {g : Fld} (h1 : g.addr / 0x1000 ≠ 1) (h10 : g.addr / 0x1000 ≠ 10) :
    (s.wakeBy cause).on g = s.on g :=
  State.on_of_word (s.wakeBy_word cause h1 h10)

/-! ## Windows: a fold that writes one field after the other -/

section Window
variable {α : Type} {F : α → Fld} {v : State → α → Nat} {k : α}

/-- The fold leaves a field that is apart from those that it writes. -/
theorem foldS_wr_rd_apart (xs : List α) (s : State) {g : Fld} (h : ∀ x ∈ xs, (F x).apart g = true) :
    (foldS xs (fun s x => s.wr (F x) (v s x)) s).rd g = s.rd g := by
  induction xs generalizing s with
  | nil => rfl
  | cons x xs ih =>
    exact (ih _ fun y hy => h y (List.mem_cons_of_mem _ hy)).trans (State.rd_wr_apart s _ g _ (h x List.mem_cons_self))

/-- Each field holds the value that was written to it, where that value does not depend on the words that the fold writes. -/
theorem foldS_wr_rd_mem (xs : List α) (s : State) (hnd : xs.Nodup) (hk : k ∈ xs) (hfit : (F k).fits = true)
    (hap : ∀ x ∈ xs, x ≠ k → (F x).apart (F k) = true)
    (hv : ∀ t, SameWords (xs.map fun x => (F x).addr) s t → v t k = v s k) :
    (foldS xs (fun s x => s.wr (F x) (v s x)) s).rd (F k) = v s k % 2 ^ (F k).width := by
  induction xs generalizing s with
  | nil => cases hk
  | cons x xs ih =>
    obtain ⟨hx, hnd⟩ := List.nodup_cons.1 hnd
    change (foldS xs _ (s.wr (F x) (v s x))).rd (F k) = _
    by_cases hkx : x = k
    · subst hkx
      rw [foldS_wr_rd_apart xs _ fun y hy => hap y (List.mem_cons_of_mem _ hy) fun he => hx (he ▸ hy), State.rd_wr_fits s _ _ hfit]
    · have hfirst : SameWords ((x :: xs).map fun x => (F x).addr) s (s.wr (F x) (v s x)) :=
        (SameWords.refl _ s).wr List.mem_cons_self _
      rw [ih _ hnd ((List.mem_cons.1 hk).resolve_left (Ne.symm hkx)) (fun y hy => hap y (List.mem_cons_of_mem _ hy)) fun t ht => ?_,
        hv _ hfirst]
      rw [hv t (hfirst.trans (ht.mono fun _ => List.mem_cons_of_mem _)), hv _ hfirst]

end Window

theorem State.mrExtend_rd (s : State) (r : Nat) (x : List Byte) {g : Fld} (h : ∀ k, k < 12 → (SEC_MR r k).apart g = true) :
    (s.mrExtend r x).rd g = s.rd g :=
  foldS_wr_rd_apart _ s fun k hk => h k (List.mem_range.1 hk)

theorem State.mrExtend_fac (s : State) (r : Nat) (x : List Byte) : (s.mrExtend r x).fac = s.fac :=
  (State.mrExtend_follows r x (Follows.refl 0 s)).parts .fac rfl

end Sys2Proof.Machine
end

section
/-!
PROOFS. The words that a frame changes on its way into the queues of the girdle: those of the contexts and meters, the pages GRD and
SCH, and the counters of frames without a context.
-/

namespace Sys2Proof.Machine

/-- A word of a context, its state apart, or of a meter, of the pages GRD and SCH, or a counter of what found no context or no room. With `w` a word of any
page after GRD at which a counter of a queue may stand: a run of the sieve or a frame in arrival may hold any class. -/
def FlowWord (w : Bool) (a : Nat) : Prop :=
  (0x200000 ≤ a ∧ a % 128 ≠ 4) ∨ a / 0x1000 = 13 ∨ a / 0x1000 = 14 ∨ (31 ≤ a / 0x1000 ∧ a / 0x1000 ≤ 34) ∨ a = (PG_ISR 12).addr ∨
    a = SIEVE_NO_CTX.addr ∨ a = SIEVE_COPY_LOST.addr ∨ (w = true ∧ 13 ≤ a / 0x1000 ∧ a % 32 ≠ 8)

/-- The words of flows are the only ones that differ. -/
def FlowsOnly (w : Bool) (s t : State) : Prop := ∀ a, ¬ FlowWord w a → t.word a = s.word a

section FlowsOnly
variable {w : Bool} {s t u : State}

theorem FlowsOnly.refl (s : State) : FlowsOnly w s s := fun _ _ => rfl

theorem FlowsOnly.trans (h : FlowsOnly w s t) (k : FlowsOnly w t u) : FlowsOnly w s u := fun a ha => (k a ha).trans (h a ha)

theorem FlowsOnly.of_word (h : ∀ a, t.word a = s.word a) : FlowsOnly w s t := fun a _ => h a

theorem FlowsOnly.inc (h : FlowsOnly w s t) {f : Fld} (hf : FlowWord w f.addr) (n : Nat) : FlowsOnly w s (t.inc f n) := fun a ha =>
  (State.word_inc_ne t f n a fun he => ha (he ▸ hf)).trans (h a ha)

theorem FlowsOnly.wr (h : FlowsOnly w s t) {f : Fld} (hf : FlowWord w f.addr) (v : Nat) : FlowsOnly w s (t.wr f v) := fun a ha =>
  (State.word_wr_ne t f v a fun he => ha (he ▸ hf)).trans (h a ha)

theorem FlowsOnly.raise (h : FlowsOnly w s t) {p : Nat} (hp : FlowWord w (PG_ISR p).addr) (b : Nat) : FlowsOnly w s (t.raise p b) := fun a ha =>
  (State.raise_word t p b a fun he => ha (he ▸ hp)).trans (h a ha)

theorem FlowsOnly.when (h : FlowsOnly w s t) (c : Bool) {F : State → State} (hF : ∀ u, FlowsOnly w u (F u)) : FlowsOnly w s (t.when c F) := by
  cases c
  · exact h
  · exact h.trans (hF t)

theorem FlowsOnly.ite {c : Prop} [Decidable c] (ht : c → FlowsOnly w s t) (hu : ¬ c → FlowsOnly w s u) : FlowsOnly w s (if c then t else u) := by
  split
  · exact ht ‹_›
  · exact hu ‹_›

theorem FlowsOnly.foldS {α : Type} {F : State → α → State} {xs : List α} (h : FlowsOnly w s t) (hF : ∀ u, ∀ x ∈ xs, FlowsOnly w u (F u x)) :
    FlowsOnly w s (foldS xs F t) :=
  foldS_induct (P := FlowsOnly w s) h fun u x hx hu => hu.trans (hF u x hx)

theorem FlowsOnly.rd (h : FlowsOnly w s t) {g : Fld} (hg : ¬ FlowWord w g.addr) : t.rd g = s.rd g := State.rd_of_word (h _ hg)

theorem FlowsOnly.on (h : FlowsOnly w s t) {g : Fld} (hg : ¬ FlowWord w g.addr) : t.on g = s.on g := State.on_of_word (h _ hg)

end FlowsOnly

/-! ## Words of flows -/

section Flows
variable {w : Bool}

theorem flowWord_grd {a : Nat} (h : a / 0x1000 = 13) : FlowWord w a := .inr (.inl h)

/-- The counters of a queue stand in page GRD, and those of a queue that is none above it. -/
theorem flowWord_top {a q : Nat} (hq : w = true ∨ q < 128) (h13 : 13 ≤ a / 0x1000) (h8 : a % 32 ≠ 8) (ha : q < 128 → a / 0x1000 = 13) :
    FlowWord w a :=
  hq.elim (fun hw => .inr (.inr (.inr (.inr (.inr (.inr (.inr ⟨hw, h13, h8⟩))))))) fun hq => flowWord_grd (ha hq)

theorem flowWord_isr13 : FlowWord w (PG_ISR 13).addr := .inr (.inl rfl)

theorem flowWord_isr14 : FlowWord w (PG_ISR 14).addr := .inr (.inr (.inl rfl))

theorem flowWord_isr12 : FlowWord w (PG_ISR 12).addr := .inr (.inr (.inr (.inr (.inl rfl))))

/-! ## What changes no word -/

@[simp] theorem State.setQueue_word (s : State) (q : Nat) (l : List QFrame) (a : Nat) : (s.setQueue q l).word a = s.word a :=
  State.mk_word ..

@[simp] theorem State.modFrame_word (s : State) (q c id : Nat) (f : QFrame → QFrame) (a : Nat) : (s.modFrame q c id f).word a = s.word a :=
  State.setQueue_word ..

@[simp] theorem State.release_word (s : State) (buf a : Nat) : (s.release buf).word a = s.word a := by
  unfold State.release
  split
  · rfl
  · refine State.ite_word ?_ (State.mk_word ..)
    dsimp only
    split
    · rw [State.modPort_word, State.mk_word]
    · exact State.mk_word ..

@[simp] theorem State.applyRelink_word (s : State) (q c a : Nat) : (s.applyRelink q c).word a = s.word a := by
  simp only [State.applyRelink, State.mk_word, State.setQueue_word, State.modCtx_word]

@[simp] theorem State.removeFrame_word (s : State) (q c id a : Nat) : (s.removeFrame q c id).word a = s.word a := by
  unfold State.removeFrame State.relinkDue State.unlinkFrame
  refine (State.when_word _ _ _ _ ?_).trans (State.setQueue_word ..)
  exact foldS_word _ _ _ fun u e => u.applyRelink_word q e.2 a

@[simp] theorem State.addDrop_word (s : State) (q c id cause a : Nat) : (s.addDrop q c id cause).word a = s.word a :=
  State.mk_word ..

@[simp] theorem State.delDrop_word (s : State) (q c id a : Nat) : (s.delDrop q c id).word a = s.word a := State.mk_word ..

@[simp] theorem State.putCell_word (s : State) (q c eg id : Nat) (x : QCell) (a : Nat) : (s.putCell q c eg id x).word a = s.word a := by
  unfold State.putCell
  split
  · exact State.modFrame_word ..
  · exact State.setQueue_word ..

@[simp] theorem State.endIdle_word (s : State) (n a : Nat) : (s.endIdle n).word a = s.word a := by
  refine (State.when_word _ _ _ _ ?_).trans (State.when_word _ _ _ _ ?_)
  · exact State.resumeLink_word ..
  · exact State.modPort_word ..

@[simp] theorem State.useAside_word (s : State) (q a : Nat) : (s.useAside q).word a = s.word a := State.mk_word ..

@[simp] theorem State.notePool_word (s : State) (a : Nat) : s.notePool.word a = s.word a := State.mk_word ..

theorem State.alloc_word {s t : State} {retPref : Bool} {refs b : Nat} {src : Option (Nat × Nat)} (h : s.alloc retPref refs src = some (b, t))
    (a : Nat) : t.word a = s.word a := by
  unfold State.alloc at h
  dsimp only at h
  generalize List.findSome? _ _ = x at h
  cases x with
  | none => cases h
  | some y =>
    obtain ⟨b', i⟩ := y
    obtain ⟨-, rfl⟩ := Prod.mk.inj (Option.some.inj h)
    exact State.mk_word ..

theorem State.meterColour_word (s : State) (m t : Nat) (preYellow : Bool) (a : Nat) : (s.meterColour m t preYellow).1.word a = s.word a := by
  simp only [State.meterColour]
  generalize (1000000000 : Nat) = bit
  split
  · exact State.mk_word ..
  · split
    · exact State.mk_word ..
    · exact State.mk_word ..

/-! ## Drops, refusals and arrivals at a queue -/

section Queue
variable {q : Nat}

theorem flowWord_dropFull (hq : w = true ∨ q < 128) : FlowWord w (GRD_DROP_FULL (q / 8)).addr := 
  flowWord_top hq (by simp only [GRD_DROP_FULL]; omega) (by simp only [GRD_DROP_FULL]; omega) (by simp only [GRD_DROP_FULL]; omega)

theorem flowWord_dropAge (hq : w = true ∨ q < 128) : FlowWord w (GRD_DROP_AGE (q / 8)).addr := 
  flowWord_top hq (by simp only [GRD_DROP_AGE]; omega) (by simp only [GRD_DROP_AGE]; omega) (by simp only [GRD_DROP_AGE]; omega)

theorem flowWord_incOut (hq : w = true ∨ q < 128) : FlowWord w (GRD_INC_OUT (q / 8)).addr := 
  flowWord_top hq (by simp only [GRD_INC_OUT]; omega) (by simp only [GRD_INC_OUT]; omega) (by simp only [GRD_INC_OUT]; omega)

theorem flowWord_cmMarked (hq : w = true ∨ q < 128) : FlowWord w (GRD_CM_MARKED (q / 8)).addr := 
  flowWord_top hq (by simp only [GRD_CM_MARKED]; omega) (by simp only [GRD_CM_MARKED]; omega) (by simp only [GRD_CM_MARKED]; omega)

theorem State.countDrop_flow (s : State) (c cause n : Nat) (hq : w = true ∨ q < 128) : FlowsOnly w s (s.countDrop q c cause n) :=
  .ite (fun _ => .refl s) fun _ => .ite (fun _ => ((FlowsOnly.refl s).inc (flowWord_dropFull hq) n).raise flowWord_isr13 1) fun _ =>
    .ite (fun _ => .refl s) fun _ => ((FlowsOnly.refl s).inc (flowWord_dropAge hq) n).inc (.inl (by simp only [CTX_DROP_AGE]; omega)) n

theorem State.countInc_flow (s : State) (c : Nat) (hq : w = true ∨ q < 128) : FlowsOnly w s (s.countInc q c) :=
  (((FlowsOnly.refl s).inc (flowWord_incOut hq) 1).inc (.inl (by simp only [CTX_DROP_INC]; omega)) 1).raise flowWord_isr13 3

theorem State.discardCells_flow (s : State) (f : QFrame) (cause : Nat) (hq : w = true ∨ q < 128) : FlowsOnly w s (s.discardCells q f cause) :=
  FlowsOnly.trans (.of_word fun a => by
    rw [State.modCtx_word, State.modFrame_word]
    exact foldS_word _ _ _ fun u x => u.release_word x.buf a) (State.countDrop_flow _ _ _ _ hq)

theorem State.beginTail_flow (s : State) (f : QFrame) (cause : Nat) (extraLs : Bool) (extraSeq : Nat) (hq : w = true ∨ q < 128) :
    FlowsOnly w s (s.beginTail q f cause extraLs extraSeq) := by
  refine (s.discardCells_flow f cause hq).trans ?_
  unfold State.beginTail
  refine .ite (fun _ => .ite (fun _ => ?_) fun _ => ?_) fun _ => ?_
  · refine ((FlowsOnly.refl _).wr ?_ _).trans (.of_word fun a => State.modFrame_word ..)
    exact .inl (by simp only [CTX_SEQ_TX_NEXT]; omega)
  · exact .of_word fun a => (State.when_word _ _ _ _ (State.addDrop_word ..)).trans (State.removeFrame_word ..)
  · exact .of_word fun a => State.modFrame_word ..

theorem State.refuse_flow (s : State) (c id : Nat) (cell : Cell) (hq : w = true ∨ q < 128) : FlowsOnly w s (s.refuse q c id cell) := by
  have hfull : FlowsOnly w s ((s.inc (GRD_DROP_FULL (q / 8))).raise 13 1) :=
    ((FlowsOnly.refl s).inc (flowWord_dropFull hq) 1).raise flowWord_isr13 1
  have hdrop (u : State) : FlowsOnly w u (u.when (!cell.ls) (·.addDrop q c id 1)) :=
    .of_word fun a => State.when_word _ _ _ _ (State.addDrop_word ..)
  refine hfull.trans ?_
  unfold State.refuse
  refine .ite (fun _ => .refl _) fun _ => ?_
  split
  · exact hdrop _
  · refine .ite (fun _ => State.beginTail_flow _ _ _ _ _ hq) fun _ => ?_
    exact ((State.discardCells_flow _ _ _ hq).trans (.of_word fun a => State.removeFrame_word ..)).trans (hdrop _)

theorem State.heldArrival_flow {s t : State} {c id : Nat} {cell : Cell} (h : s.heldArrival q c id cell = some t) (hq : w = true ∨ q < 128) :
    FlowsOnly w s t := by
  unfold State.heldArrival at h
  dsimp only at h
  split at h
  · obtain rfl := Option.some.inj h
    exact (s.countDrop_flow _ _ _ hq).when _ fun u => .of_word fun a => State.delDrop_word ..
  · split at h
    · split at h
      · obtain rfl := Option.some.inj h
        exact (s.countDrop_flow _ _ _ hq).trans (.of_word fun a => State.modFrame_word ..)
      · split at h
        · split at h
          · cases h
          · obtain rfl := Option.some.inj h
            exact ((s.discardCells_flow _ _ hq).trans (.of_word fun a => State.removeFrame_word ..)).trans (State.countInc_flow _ _ hq)
        · cases h
    · split at h
      · obtain rfl := Option.some.inj h
        exact s.countInc_flow _ hq
      · cases h

end Queue

/-! ## Storing cells -/

theorem State.showPool_flow (s : State) : FlowsOnly w s s.showPool :=
  FlowsOnly.when (.of_word s.notePool_word) _ fun u => (FlowsOnly.refl u).raise flowWord_isr13 0

theorem State.link_flow (s : State) (buf : Nat) (d : Dest) (hq : w = true ∨ d.q < 128) : FlowsOnly w s (s.link buf d) := by
  unfold State.link
  refine FlowsOnly.when (FlowsOnly.trans (t := s.when (s.markFor d.q) (·.inc (GRD_CM_MARKED (d.q / 8)))) ?_
    (.of_word fun a => State.putCell_word ..)) _ fun u => .of_word fun a => u.endIdle_word _ a
  exact (FlowsOnly.refl s).when _ fun u => (FlowsOnly.refl u).inc (flowWord_cmMarked hq) 1

/-- A destination is admitted or refused. -/
theorem State.admitOrRefuse_flow (u : State) (c room : Bool) (l : List Dest) (no : Bool) (d : Dest) (hq : w = true ∨ d.q < 128) :
    FlowsOnly w u (if c then (u.when room (·.useAside d.q), l ++ [d], no) else (u.refuse d.q d.ctx d.id d.cell, l, true)).1 ∧
      ∀ e, e ∈ (if c then (u.when room (·.useAside d.q), l ++ [d], no) else (u.refuse d.q d.ctx d.id d.cell, l, true)).2.1 → e ∈ l ∨ e = d := by
  cases c
  · exact ⟨State.refuse_flow _ _ _ _ hq, fun e he => .inl he⟩
  · exact ⟨(FlowsOnly.refl u).when _ fun u => .of_word fun a => u.useAside_word _ a, fun e he => by simpa using he⟩

/-- The destinations that are admitted are among those that were presented. -/
theorem State.admitDest_flow (src : Option (Nat × Nat)) (room : Bool) (a : State × List Dest × Bool) (d : Dest) (hq : w = true ∨ d.q < 128) :
    FlowsOnly w a.1 (State.admitDest src room a d).1 ∧ ∀ e, e ∈ (State.admitDest src room a d).2.1 → e ∈ a.2.1 ∨ e = d := by
  unfold State.admitDest
  split
  · next t ht => exact ⟨State.heldArrival_flow ht hq, fun e he => .inl he⟩
  · dsimp only
    split
    · next f _ =>
      obtain ⟨hflow, hmem⟩ := State.admitOrRefuse_flow (if d.cell.inc then a.1.discardCells d.q f 3 else a.1) _ room a.2.1 a.2.2 d hq
      exact ⟨(FlowsOnly.ite (fun _ => a.1.discardCells_flow _ _ hq) fun _ => .refl _).trans hflow, hmem⟩
    · exact State.admitOrRefuse_flow _ _ _ _ _ d hq

/-- The destinations stay below the queues of the girdle through a fold of arrivals. -/
theorem State.admitDests_flow (src : Option (Nat × Nat)) (room : Bool) (ds : List Dest) (a : State × List Dest × Bool)
    (hds : ∀ d ∈ ds, w = true ∨ d.q < 128) (ha : ∀ d ∈ a.2.1, w = true ∨ d.q < 128) :
    FlowsOnly w a.1 (ds.foldl (State.admitDest src room) a).1 ∧ ∀ d ∈ (ds.foldl (State.admitDest src room) a).2.1, w = true ∨ d.q < 128 := by
  induction ds generalizing a with
  | nil => exact ⟨.refl _, ha⟩
  | cons d ds ih =>
    have hd := hds d List.mem_cons_self
    obtain ⟨hflow, hmem⟩ := State.admitDest_flow src room a d hd
    obtain ⟨hflow', hq⟩ := ih (State.admitDest src room a d) (fun e he => hds e (List.mem_cons_of_mem _ he)) fun e he => by
      rcases hmem e he with h | rfl
      · exact ha e h
      · exact hd
    exact ⟨hflow.trans hflow', hq⟩

theorem State.store_flow (s : State) (ds : List Dest) (src : Option (Nat × Nat)) (room : Bool) (hds : ∀ d ∈ ds, w = true ∨ d.q < 128) :
    FlowsOnly w s (s.store ds src room).1 := by
  obtain ⟨hflow, hq⟩ := State.admitDests_flow src room ds (s, [], false) hds (by simp)
  unfold State.store
  generalize ds.foldl (State.admitDest src room) (s, [], false) = a at hflow hq ⊢
  obtain ⟨u, ok, no⟩ := a
  refine hflow.trans ?_
  dsimp only
  split
  · exact .refl _
  · split
    · exact (FlowsOnly.refl u).foldS fun v d hd => v.refuse_flow _ _ _ (hq d hd)
    · next buf v hv =>
      have halloc : FlowsOnly w u v := .of_word fun a => (State.alloc_word hv a).trans (u.notePool_word a)
      exact (halloc.foldS fun w d hd => w.link_flow buf d (hq d hd)).trans (State.showPool_flow _)

/-! ## Flows of a frame -/

/-- A queue of a context's egress is one of the girdle's. -/
theorem State.targets_lt (s : State) (c : Nat) {tc : Nat} (htc : w = true ∨ tc < 8) : ∀ e ∈ s.targets c tc, w = true ∨ e.1 < 128 := by
  intro e he
  unfold State.targets at he
  obtain ⟨k, -, rfl⟩ := List.mem_map.1 he
  have hp : s.rd (ptPoint c (2 + k)) < 16 := s.rd_lt _
  exact htc.imp_right fun htc => by dsimp only; omega

/-- A cell of a flow: its number, and its copies in the queues of its context. -/
def State.numberCell (i : Nat) (a : State × List Dest) (e : Nat × Flow) : State × List Dest :=
  match e.2.cells[i]? with
  | none => a
  | some x =>
    let c := e.2.ctx
    let qs := a.1.targets c e.2.tc
    let (x, s) :=
      if a.1.reliable c && qs.all (fun e => e.1 < 24) then (x, a.1)
      else ({ x with seq := a.1.rd (CTX_SEQ_TX_NEXT c) }, a.1.inc (CTX_SEQ_TX_NEXT c))
    let s := (s.inc (CTX_CELLS_IN c)).when x.fs (·.inc (CTX_FRAMES_IN c))
    (s, a.2 ++ qs.map (fun q => ⟨c, e.1, q.1, q.2, x⟩))

theorem State.numberCells_eq (s : State) (i : Nat) (l : List (Nat × Flow)) :
    s.numberCells i l = l.foldl (State.numberCell i) (s, []) := rfl

theorem State.numberCell_flow (i : Nat) (a : State × List Dest) (e : Nat × Flow) (he : w = true ∨ e.2.tc < 8) :
    FlowsOnly w a.1 (State.numberCell i a e).1 ∧ ∀ d ∈ (State.numberCell i a e).2, d ∈ a.2 ∨ w = true ∨ d.q < 128 := by
  have hseq : FlowWord w (CTX_SEQ_TX_NEXT e.2.ctx).addr := .inl (by simp only [CTX_SEQ_TX_NEXT]; omega)
  have hin : FlowWord w (CTX_CELLS_IN e.2.ctx).addr := .inl (by simp only [CTX_CELLS_IN]; omega)
  have hframes : FlowWord w (CTX_FRAMES_IN e.2.ctx).addr := .inl (by simp only [CTX_FRAMES_IN]; omega)
  unfold State.numberCell
  split
  · exact ⟨.refl _, fun d hd => .inl hd⟩
  · dsimp only
    refine ⟨FlowsOnly.when (FlowsOnly.inc ?_ hin _) _ fun u => (FlowsOnly.refl u).inc hframes _, fun d hd => ?_⟩
    · split
      · exact .refl _
      · exact (FlowsOnly.refl _).inc hseq _
    · rcases List.mem_append.1 hd with hd | hd
      · exact .inl hd
      · obtain ⟨q, hq, rfl⟩ := List.mem_map.1 hd
        exact .inr (State.targets_lt _ _ he q hq)

/-- The cells of the flows are numbered, and their copies go to the queues of their contexts. -/
theorem State.numberCells_flow (i : Nat) (l : List (Nat × Flow)) (s : State) (hl : ∀ e ∈ l, w = true ∨ e.2.tc < 8) :
    FlowsOnly w s (s.numberCells i l).1 ∧ ∀ d ∈ (s.numberCells i l).2, w = true ∨ d.q < 128 := by
  rw [State.numberCells_eq]
  refine List.foldlRecOn (motive := fun a : State × List Dest => FlowsOnly w s a.1 ∧ ∀ d ∈ a.2, w = true ∨ d.q < 128) l _
    ⟨.refl s, by simp⟩ fun a ⟨hflow, hds⟩ e he => ?_
  obtain ⟨hone, hmem⟩ := State.numberCell_flow i a e (hl e he)
  exact ⟨hflow.trans hone, fun d hd => (hmem d hd).elim (hds d) id⟩

/-- The flows with the identities of their frames. -/
def State.tagFlow (a : List (Nat × Flow) × State) (f : Flow) : List (Nat × Flow) × State :=
  (a.1 ++ [(a.2.newFrame.1, f)], a.2.newFrame.2)

theorem State.tagFlows_spec (l : List Flow) (s : State) : (∀ a, (l.foldl State.tagFlow ([], s)).2.word a = s.word a) ∧
    ∀ e ∈ (l.foldl State.tagFlow ([], s)).1, e.2 ∈ l := by
  refine List.foldlRecOn (motive := fun b : List (Nat × Flow) × State => (∀ a, b.2.word a = s.word a) ∧ ∀ e ∈ b.1, e.2 ∈ l) l _
    ⟨fun _ => rfl, by simp⟩ fun b ⟨hword, hmem⟩ f hf => ⟨fun a => (State.mk_word ..).trans (hword a), fun e he => ?_⟩
  rcases List.mem_append.1 he with he | he
  · exact hmem e he
  · rwa [List.mem_singleton.1 he]

theorem State.storeFlows_flow (s : State) (l : List Flow) (room : Bool) (hl : ∀ f ∈ l, w = true ∨ f.tc < 8) :
    FlowsOnly w s (s.storeFlows l room) := by
  obtain ⟨hword, hmem⟩ := State.tagFlows_spec l s
  change FlowsOnly w s (foldS _ (fun u i => (State.store (u.numberCells i _).1 _ none room).1) _)
  refine (FlowsOnly.of_word hword).foldS fun u i _ => ?_
  obtain ⟨hflow, hq⟩ := State.numberCells_flow (w := w) i _ u fun e he => hl e.2 (hmem e he)
  exact hflow.trans (State.store_flow _ _ _ _ hq)

theorem State.present_flow (s : State) (l : List Flow) (hl : ∀ f ∈ l, w = true ∨ f.tc < 8) : FlowsOnly w s (s.present l) :=
  FlowsOnly.trans (.of_word fun _ => State.mk_word ..) (State.storeFlows_flow _ l true hl)

theorem State.deliver_flow (s : State) (f : SvFrame) (l : List Flow) (hl : ∀ f ∈ l, w = true ∨ f.tc < 8) :
    FlowsOnly w s (s.deliver f l) :=
  .ite (fun _ => s.present_flow l hl) fun _ => s.storeFlows_flow l false hl

/-! ## A frame becomes a flow -/

theorem State.eventBit_word (s : State) (f : Fld) (b a : Nat) (h : a ≠ f.addr) : (s.eventBit f b).word a = s.word a := by
  rw [State.eventBit, State.noteBits_word, State.setBit, State.word_wr_ne _ _ _ _ h]

theorem State.meter_flow (s : State) {m : Nat} (t : Nat) (preYellow : Bool) (hm : m < 256) :
    FlowsOnly w s (s.meter m t preYellow).1 ∧ ∀ k ∈ (s.meter m t preYellow).2.tc, k < 8 := by
  have hred : FlowWord w (SCH_MTR_RED (m / 32)).addr := .inr (.inr (.inl (by simp only [SCH_MTR_RED]; omega)))
  have hword := s.meterColour_word m t preYellow
  unfold State.meter
  generalize s.meterColour m t preYellow = x at hword ⊢
  obtain ⟨u, col⟩ := x
  split
  · exact ⟨.refl _, by simp⟩
  · dsimp only at hword ⊢
    refine ⟨FlowsOnly.trans (.of_word hword) (FlowsOnly.when (FlowsOnly.inc (.refl _) ?_ 1) _ fun v => FlowsOnly.raise ?_ flowWord_isr14 3),
      fun k hk => ?_⟩
    · refine .inl ?_
      split_ifs <;> simp only [MTR_GREEN, MTR_YELLOW, MTR_RED] <;> omega
    · exact fun a ha => v.eventBit_word _ _ _ fun he => ha (he ▸ hred)
    · rw [Option.mem_def, Option.ite_none_right_eq_some, Option.some.injEq] at hk
      obtain ⟨-, rfl⟩ := hk
      refine Nat.lt_of_lt_of_eq (State.rd_lt _ _) ?_
      split_ifs <;> rfl

/-- The meter of a flow that begins at its context, where one is assigned. -/
def State.meterOf (s : State) (f : SvFrame) (c : Nat) (cm : Bool) : State × Metered :=
  if s.on (CTX_METER_MEN c) && s.isOrigin c then s.meter (s.rd (CTX_METER_MIDX c)) f.ns cm else (s, {})

theorem State.originFlow_eq (s : State) (f : SvFrame) (data : List Byte) (c tc : Nat) (cm : Bool) : s.originFlow f data c tc cm =
    if s.on (PG_STATE_WEDGED 13) then (s, none)
    else if s.ctxLife c ≠ lifeOn then (s.when f.bad.isNone (·.inc (CTX_DROP_STOP c) (max 1 ((data.length + 127) / 128))), none)
    else if f.bad = some 0 ∨ (f.bad.isSome ∧ s.storeForward c tc) then (s, none)
    else
      let (u, m) := s.meterOf f c cm
      if m.drop then (u, none)
      else if u.storeForward c (m.tc.getD tc) && f.bad.isSome then (u, none)
      else if u.storeForward c (m.tc.getD tc) && max 1 ((data.length + 127) / 128) > 128 then (u.inc (CTX_DROP_INC c), none)
      else (u, some ⟨c, m.tc.getD tc, f.cells data (m.tc.getD tc) (cm || m.mark) (u.twin c == 1)⟩) := rfl

theorem State.originFlow_flow (s : State) (f : SvFrame) (data : List Byte) (c : Nat) {tc : Nat} (cm : Bool) (htc : w = true ∨ tc < 8) :
    FlowsOnly w s (s.originFlow f data c tc cm).1 ∧ ∀ x ∈ (s.originFlow f data c tc cm).2, w = true ∨ x.tc < 8 := by
  have hstop : FlowWord w (CTX_DROP_STOP c).addr := .inl (by simp only [CTX_DROP_STOP]; omega)
  have hinc : FlowWord w (CTX_DROP_INC c).addr := .inl (by simp only [CTX_DROP_INC]; omega)
  obtain ⟨hmeter, hmtc⟩ : FlowsOnly w s (s.meterOf f c cm).1 ∧ ∀ k ∈ (s.meterOf f c cm).2.tc, k < 8 := by
    unfold State.meterOf
    split
    · exact s.meter_flow _ _ (s.rd_lt _)
    · exact ⟨.refl _, by simp⟩
  rw [State.originFlow_eq]
  generalize s.meterOf f c cm = x at hmeter hmtc ⊢
  obtain ⟨u, m⟩ := x
  have htc' : w = true ∨ m.tc.getD tc < 8 := by
    obtain ⟨drop, mark, tc', colour⟩ := m
    cases tc' with
    | none => exact htc
    | some k => exact .inr (hmtc k rfl)
  dsimp only at hmeter ⊢
  split
  · exact ⟨.refl _, by simp⟩
  split
  · exact ⟨(FlowsOnly.refl s).when _ fun v => (FlowsOnly.refl v).inc hstop _, by simp⟩
  split
  · exact ⟨.refl _, by simp⟩
  split
  · exact ⟨hmeter, by simp⟩
  split
  · exact ⟨hmeter, by simp⟩
  split
  · exact ⟨hmeter.inc hinc _, by simp⟩
  · refine ⟨hmeter, fun x hx => ?_⟩
    obtain rfl := Option.some.inj hx
    exact htc'

theorem State.unrouted_flow (s : State) (f : SvFrame) : FlowsOnly w s (s.unrouted f) := by
  refine .ite (fun hp => (FlowsOnly.refl s).inc ?_ 1) fun _ => ((FlowsOnly.refl s).inc ?_ 1).raise flowWord_isr12 3
  · exact .inr (.inr (.inr (.inl (by simp only [ETH_NO_TUN]; omega))))
  · exact .inr (.inr (.inr (.inr (.inr (.inl rfl)))))

theorem State.modeTc_lt (s : State) (c : Nat) : s.modeTc c < 8 := s.rd_lt _

theorem State.toContext_flow (s : State) (f : SvFrame) : FlowsOnly w s (s.toContext f) := by
  unfold State.toContext
  split
  · exact s.unrouted_flow f
  · next c _ =>
    obtain ⟨hflow, htc⟩ := s.originFlow_flow (w := w) f f.data c false (.inr (s.modeTc_lt c))
    exact .ite (fun _ => hflow.trans (State.deliver_flow _ _ _ fun x hx => htc x (Option.mem_toList.1 hx))) fun _ => .of_word fun a =>
      State.modFac_word ..

/-- A frame that enters at a point changes words of flows alone. -/
theorem State.ingress_flow (s : State) (f : SvFrame) : FlowsOnly w s (s.ingress f) :=
  .ite (fun _ => .of_word fun _ => State.modFac_word ..) fun _ =>
    .ite (fun _ => .of_word fun _ => State.modFac_word ..) fun _ => s.toContext_flow f

/-! ## What a run of the sieve applies -/

theorem State.copyFlow_flow (f : SvFrame) (data : List Byte) (cm : Bool) (a : State × List Flow) (c : Nat) :
    FlowsOnly true a.1 (State.copyFlow f data cm a c).1 := by
  unfold State.copyFlow
  split
  · exact ((FlowsOnly.refl _).inc (.inr (.inr (.inr (.inr (.inr (.inr (.inl rfl))))))) 1).raise flowWord_isr12 2
  · exact (State.originFlow_flow _ _ _ _ _ (.inl rfl)).1

theorem State.ownFlow_flow (s : State) (r : SvRun) : FlowsOnly true s (s.ownFlow r).1 := by
  unfold State.ownFlow
  split
  · exact .refl _
  · split
    · exact s.unrouted_flow _
    · exact (s.originFlow_flow _ _ _ _ (.inl rfl)).1

theorem State.svApply_flow {s t : State} {r : SvRun} (h : s.svApply r = some t) : FlowsOnly true s t := by
  have hcopies (f : SvFrame) (data : List Byte) (cm : Bool) (cs : List Nat) (a : State × List Flow) :
      FlowsOnly true a.1 (cs.foldl (State.copyFlow f data cm) a).1 := by
    induction cs generalizing a with
    | nil => exact .refl _
    | cons c cs ih => exact (State.copyFlow_flow f data cm a c).trans (ih _)
  unfold State.svApply at h
  dsimp only at h
  rw [Option.ite_none_right_eq_some, Option.some.injEq] at h
  obtain ⟨-, rfl⟩ := h
  exact ((s.ownFlow_flow r).trans (hcopies _ _ _ _ _)).trans (State.deliver_flow _ _ _ fun _ _ => .inl rfl)

theorem State.svRelease_flow (point : Nat) (l : List Nat) (s : State) : FlowsOnly true s (s.svRelease point l) := by
  induction l generalizing s with
  | nil => exact .refl s
  | cons e l ih =>
    unfold State.svRelease
    split
    · exact ih s
    · refine .ite (fun _ => ih s) fun _ => .ite (fun _ => .refl s) fun _ => ?_
      split
      · exact .refl s
      · next t ht => exact ((State.svApply_flow ht).trans (.of_word fun _ => State.modFac_word ..)).trans (ih _)

/-- A step of a run changes words of flows and the measure of the steps. -/
theorem State.svPut_rd (s : State) (e : Nat) (r : SvRun) {g : Fld} (hg : ¬ FlowWord true g.addr) (hmax : SIEVE_STEPS_MAX.apart g = true) :
    (s.svPut e r).rd g = s.rd g := by
  unfold State.svPut
  extract_lets q u v
  split
  · rw [(State.svRelease_flow _ _ _).rd hg, State.rd_wr_apart _ _ _ _ hmax, State.modFac_rd]
  · exact State.modFac_rd ..

end Flows

end Sys2Proof.Machine
end

section
/-!
PROOFS. The meter window and the gate control lists.
-/

namespace Sys2Proof.Machine

open Host (Outcome)

/-! ## The meter window (R171) -/

theorem State.mtrSel_lt (s : State) (p : Path) : s.mtrSel p < 256 := s.rd_lt _

theorem State.mtrClrCnt_counters (s : State) (p : Path) : (s.mtrClrCnt p).rd (MTR_GREEN (s.mtrSel p)) = 0 ∧
    (s.mtrClrCnt p).rd (MTR_YELLOW (s.mtrSel p)) = 0 ∧ (s.mtrClrCnt p).rd (MTR_RED (s.mtrSel p)) = 0 := by
  have hp : p.num < 4 := by cases p <;> decide
  refine ⟨?_, ?_, ?_⟩ <;>
    simp (disch := first | exact id rfl | (refine id (Fld.apart_of_addr_ne ?_); simp only [Fld.onPath, MTR_GREEN, MTR_YELLOW, MTR_RED, SCH_MTR_STATUS_LAST_MTR]; omega)) only [State.mtrClrCnt, State.rd_wr_apart, State.rd_wr_fits, Nat.zero_mod]

theorem State.mtrLoad_rd (s : State) (p : Path) {k : Nat} (hk : k < 8) :
    (s.mtrLoad p).rd (mtrWin p k) = (s.word (0x220000 + 0x20 * s.mtrSel p + 4 * k)).toNat := by
  have hp : p.num < 4 := by cases p <;> decide
  simp only [State.mtrLoad]
  rw [State.rd_wr_apart _ _ _ _ (Fld.apart_of_addr_ne _), foldS_wr_rd_mem (List.range 8) s List.nodup_range (List.mem_range.2 hk) rfl (fun j hj hne => Fld.apart_of_addr_ne ?_) (fun t ht => ?_)]
  · exact Nat.mod_eq_of_lt (s.word _).isLt
  · simp only [mtrWin, Fld.onPath, SCH_MTR_WIN]; omega
  · rw [ht]
    intro hmem
    obtain ⟨j, hj8, hj⟩ := List.mem_map.1 hmem
    have := List.mem_range.1 hj8
    simp only [mtrWin, Fld.onPath, SCH_MTR_WIN] at hj
    omega
  · simp only [mtrWin, Fld.onPath, SCH_MTR_WIN, SCH_MTR_STATUS_LAST_MTR]; omega

theorem mtrCheck_reason_lt {w : Nat → Nat} {k r : Nat} (h : mtrCheck w = some (k, r)) : r < 256 := by
  simp only [mtrCheck] at h
  split_ifs at h <;> injection h with h <;> injection h <;> omega

theorem State.mtrCommit_fails (s : State) (p : Path) {k r : Nat} (h : mtrCheck (fun k => s.rd (mtrWin p k)) = some (k, r)) :
    (s.mtrCommit p).rd (SCH_MTR_STATUS_REASON.onPath p) = r ∧ SameWords [(SCH_MTR_STATUS_REASON.onPath p).addr, (PG_ISR 14).addr,
      (PG_ERRCAP_CODE 14).addr, (PG_ERRVAL 14).addr] s (s.mtrCommit p) := by
  have hp : p.num < 4 := by cases p <;> decide
  simp only [State.mtrCommit, h]
  constructor
  · rw [State.capture_rd, State.rd_wr_fits _ _ _ rfl]
    · exact Nat.mod_eq_of_lt (mtrCheck_reason_lt h)
    · simp only [captureWords, SCH_MTR_STATUS_REASON, Fld.onPath, PG_ISR, PG_ERRCAP_CODE, PG_ERRVAL, List.mem_cons, List.not_mem_nil,
        or_false]
      omega
  · intro a ha
    have hreason := List.ne_of_not_mem_cons ha
    have hcapture : a ∉ captureWords 14 := List.not_mem_of_not_mem_cons ha
    rw [State.capture_sameWords _ _ _ _ _ _ a hcapture, State.word_wr_ne _ _ _ _ hreason,
      State.word_wr_ne _ (SCH_MTR_STATUS_LAST_MTR.onPath p) _ _ hreason]

theorem State.mtrCommit_passes (s : State) (p : Path) (h : mtrCheck (fun k => s.rd (mtrWin p k)) = none) :
    (s.mtrCommit p).rd (SCH_MTR_STATUS_REASON.onPath p) = 0 ∧
    (s.mtrCommit p).rd (MTR_CIR_RATE (s.mtrSel p)) = s.rd (mtrWin p 0) % 2 ^ 27 := by
  have hm := s.mtrSel_lt p
  have hp : p.num < 4 := by cases p <;> decide
  have hrate : (MTR_CIR_RATE (s.mtrSel p)).addr ≠ (SCH_MTR_STATUS_REASON.onPath p).addr := by
    simp only [Fld.onPath, MTR_CIR_RATE, SCH_MTR_STATUS_REASON]; omega
  simp only [State.mtrCommit, h]
  refine ⟨State.rd_wr_fits _ _ _ rfl, ?_⟩
  rw [State.rd_wr_ne _ _ _ _ hrate, State.mk_rd, State.rd_setWord_ne, State.rd_setWord_ne, State.rd_wr_ne, State.rd_wr_fits _ _ _ rfl]
  · rfl
  all_goals simp only [MTR_CIR_RATE, MTR_PIR_RATE]; omega

/-! ## The gate control lists (R165, R166) -/

theorem State.cfgChange_pending (s : State) (l : Nat) :
    (s.cfgChange l).on (SCH_GCL_CTRL_CFG_PENDING l) = true ∧ ((s.cfgChange l).gcl l).pending.isSome = true := by
  simp only [State.cfgChange, State.flag_gcl, State.modGcl_gcl, Option.isSome_some, and_true]
  exact State.on_flag_one _ _ _ rfl

theorem State.cfgChk_of_idle {s : State} {l : Nat} (hpend : s.on (SCH_GCL_CTRL_CFG_PENDING l) = false) :
    s.cfgChk l = if s.rd (SCH_ADMIN_CYCLE_NS l) = 0 then 1 else 0 := by
  simp [State.cfgChk, hpend]

theorem execCfgChange_eq {l : Nat} (hl : l < 7) (p : Path) (s : State) : exec (.cfgChange p l) s = .next (s.runCmd p (cmdCfgChange l)) := by
  change execCfgChange p l s = _
  rw [execCfgChange, decide_eq_true hl, State.when_true]

theorem cfgChange_addr_mod {l : Nat} (hl : l < 7) : (SCH_GCL_CTRL_CFG_CHANGE l).addr % 0x40000 = (SCH_GCL_CTRL_CFG_CHANGE l).addr := by
  simp only [SCH_GCL_CTRL_CFG_CHANGE]; omega

theorem execConfigChangeTime_due {s : State} {l t : Nat} {g : Gcl} (hl : l < 7) (hg : (s.gcl l).pending = some (g, t)) (ht : t ≤ s.now) :
    exec (.configChangeTime l) s = .next (s.gclInstall l) := by
  change execConfigChangeTime l s = _
  simp [execConfigChangeTime, hl, hg, ht]

theorem execGateEntryChange_idle {s : State} {l : Nat} {g : Gcl} (hl : l < 7) (hg : (s.gcl l).oper = some g) (hcyc : g.cycleNs ≠ 0)
    (hu : (s.gcl l).until_ ≤ s.now) (hpend : (s.gcl l).pending = none) : exec (.gateEntryChange l) s = .next (s.gclEnter l g) := by
  change execGateEntryChange l s = _
  simp only [execGateEntryChange, hg]
  rw [State.when_of _ _ (by simp [hl, hcyc, hu]), hpend]

theorem State.overrun_gcl (s : State) (l gates : Nat) : ∃ f, (s.overrun l gates).gcl l = { s.gcl l with cut := f } := by
  simp only [State.overrun]
  generalize List.isEmpty _ = b
  cases b <;> simp

theorem State.gclEnter_lists (s : State) (l : Nat) (g : Gcl) : ((s.gclEnter l g).gcl l).oper = (s.gcl l).oper ∧
    ((s.gclEnter l g).gcl l).pending = (s.gcl l).pending := by
  unfold State.gclEnter
  split
  · exact ⟨rfl, rfl⟩
  · dsimp only
    split
    · exact ⟨rfl, rfl⟩
    · next i gt e _ =>
      generalize hu : State.modGcl _ _ _ = u
      obtain ⟨f, hf⟩ := u.overrun_gcl l gt
      rw [hf, ← hu]
      simp

theorem gclEnter_pending_notMem {l : Nat} (hl : l < 7) :
    (SCH_GCL_CTRL_CFG_PENDING l).addr ∉ [(SCH_OPER_STATUS_GATES l).addr, (SCH_OVERRUN l).addr, (PG_ISR 14).addr] := by
  simp only [SCH_GCL_CTRL_CFG_PENDING, SCH_OPER_STATUS_GATES, SCH_OVERRUN, PG_ISR, List.mem_cons, List.not_mem_nil, or_false]
  omega

/-- What entering an entry of a list changes: its status, the overrun counter and the page's interrupts. -/
theorem State.gclEnter_sameWords (s : State) (l : Nat) (g : Gcl) :
    SameWords [(SCH_OPER_STATUS_GATES l).addr, (SCH_OVERRUN l).addr, (PG_ISR 14).addr] s (s.gclEnter l g) := by
  intro a ha
  simp only [List.mem_cons, List.not_mem_nil, or_false, not_or] at ha
  obtain ⟨hstatus, hover, hisr⟩ := ha
  unfold State.gclEnter State.overrun
  split
  · rfl
  · dsimp only
    split
    · rfl
    · rw [State.when_word _ _ _ _ (by rw [State.raise_word _ _ _ _ hisr, State.word_inc_ne _ _ _ _ hover])]
      simp only [State.modGcl_word]
      rw [State.word_wr_ne _ (SCH_OPER_STATUS_ENTRY l) _ _ hstatus, State.word_wr_ne _ _ _ _ hstatus]

theorem State.gclInstall_effect {s : State} {l t : Nat} {g : Gcl} (hl : l < 7) (hg : (s.gcl l).pending = some (g, t)) :
    ((s.gclInstall l).gcl l).oper = some g ∧ ((s.gclInstall l).gcl l).pending = none ∧
      (s.gclInstall l).on (SCH_GCL_CTRL_CFG_PENDING l) = false := by
  simp only [State.gclInstall, hg, State.gclEnter_lists, (State.gclEnter_sameWords _ l g).on (gclEnter_pending_notMem hl)]
  refine ⟨by simp, by simp, ?_⟩
  have hisr : (PG_ISR 14).apart (SCH_GCL_CTRL_CFG_PENDING l) = true := Fld.apart_of_addr_ne (by
    simp only [SCH_GCL_CTRL_CFG_PENDING, PG_ISR]; omega)
  rw [State.on_wr_apart _ _ _ _ (Fld.apart_of_addr_ne (Fld.addr_ne_of_base rfl rfl (by decide))),
    State.on_wr_apart _ _ _ _ (Fld.apart_of_addr_ne (Fld.addr_ne_of_base rfl rfl (by decide))),
    State.on_flag_apart _ _ _ _ (Fld.apart_of_addr_ne (Fld.addr_ne_of_base rfl rfl (by decide))),
    State.on_raise_apart _ _ _ _ hisr, State.on_flag_one _ _ _ rfl]

/-- Settles O18: each command by what it runs, each effect by the words that it writes. -/
theorem meterAndGateCommands : Obligations.MeterAndGateCommands := by
  refine ⟨fun s p h => congrArg Outcome.next (State.runCmd_accepted (c := cmdMtrLoad p) h rfl rfl rfl),
    fun s p h => congrArg Outcome.next (State.runCmd_accepted (c := cmdMtrCommit p) h rfl rfl rfl),
    fun s p h => congrArg Outcome.next (State.runCmd_accepted (c := cmdMtrClrCnt p) h rfl rfl rfl), fun s p l hl h hpend hcyc => ?_, fun s p l hl h hpend hcyc => ?_,
    State.mtrClrCnt_counters, State.cfgChange_pending, fun s l g t hl hg ht => execConfigChangeTime_due hl hg ht,
    fun s l g => execGateEntryChange_idle, fun s p k r => s.mtrCommit_fails p, State.mtrCommit_passes, fun s p _ => s.mtrLoad_rd p, fun s l g t hl hg ht =>
    ⟨_, execConfigChangeTime_due hl hg ht, State.gclInstall_effect hl hg⟩⟩
  · rw [execCfgChange_eq hl, State.runCmd_accepted h (cfgChange_addr_mod hl) ((State.cfgChk_of_idle hpend).trans (if_neg hcyc)) rfl]
    rfl
  · rw [execCfgChange_eq hl, State.runCmd_rejected h (cfgChange_addr_mod hl) Nat.one_ne_zero ((State.cfgChk_of_idle hpend).trans (if_pos hcyc))]
    rfl
end Sys2Proof.Machine
end

section
/-!
PROOFS. The facet engines: crashes, reloads, mailboxes.
-/

namespace Sys2Proof.Machine

open Host (Outcome)

/-! ## The state of an engine (R294, R295) -/

theorem engState_notMem_ringWords (e : Nat) : (FAC_ENG_STATE_STATE e).addr ∉ ringWords := by
  simp only [ringWords, FAC_ENG_STATE_STATE, PG_ISR, REC_HEAD_SEQ, REC_OLDEST_SEQ, REC_FLUSHED_SEQ, REC_OVERRUN, List.mem_cons,
    List.not_mem_nil, or_false]
  omega

/-- A record of an engine leaves the word of its state. -/
theorem State.engRecord_state (s : State) (e cause : Nat) :
    (s.engRecord e cause).rd (FAC_ENG_STATE_STATE e) = s.rd (FAC_ENG_STATE_STATE e) ∧
      (s.engRecord e cause).rd (FAC_ENG_STATE_LAST_CAUSE e) = s.rd (FAC_ENG_STATE_LAST_CAUSE e) :=
  ⟨(s.sysRecord_sameWords _ _ _ _).rd (engState_notMem_ringWords e), (s.sysRecord_sameWords _ _ _ _).rd (engState_notMem_ringWords e)⟩

theorem State.engHalt_state (s : State) (e cause : Nat) (hc : cause < 256) :
    (s.engHalt e cause).engState e = engHalted ∧ (s.engHalt e cause).rd (FAC_ENG_STATE_LAST_CAUSE e) = cause := by
  simp only [State.engHalt, State.engState, State.engRecord_state]
  simp (disch := first | exact id rfl | exact Fld.apart_lt rfl rfl (by decide) | exact Fld.apart_gt rfl rfl (by decide) | fail) only
    [State.setEng, State.rd_raise_apart, State.rd_wr_apart, State.rd_setBit_apart, State.rd_wr_fits]
  exact ⟨rfl, Nat.mod_eq_of_lt hc⟩

/-- A RESTART forgets the crashes that count. -/
theorem State.engCrash_restart (s : State) (e : Nat) : ∃ (u : State) (t : Option Nat), s.engCrash e 6 =
    ((((u.wr (FAC_ENG_STATE_LAST_CAUSE e) 6).setEng e engReloading).raise 11 0).engRecord e 6).modEng e
      (fun x => { x with crashes := [], crashAt := t }) :=
  ⟨_, _, rfl⟩

theorem State.engCrash_restart_state (s : State) (e : Nat) : (s.engCrash e 6).engState e = engReloading ∧
    (s.engCrash e 6).rd (FAC_ENG_STATE_LAST_CAUSE e) = 6 ∧ ((s.engCrash e 6).eng e).crashes = [] := by
  obtain ⟨u, t, hu⟩ := s.engCrash_restart e
  simp only [hu, State.engState, State.modEng_rd, State.modEng_eng, State.engRecord_state]
  simp (disch := first | exact id rfl | exact Fld.apart_lt rfl rfl (by decide) | exact Fld.apart_gt rfl rfl (by decide) | fail) only
    [State.setEng, State.rd_raise_apart, State.rd_wr_apart, State.rd_setBit_apart, State.rd_wr_fits]
  exact ⟨rfl, rfl, trivial⟩

/-! ## RESTART (R298) -/

theorem execEngRestart_eq {e : Nat} (he : e < 16) (p : Path) (s : State) : exec (.engRestart p e) s = .next (s.runCmd p (cmdEngRestart e)) :=
  congrArg Outcome.next (State.when_of s _ (decide_eq_true he))

theorem engRestart_addr_mod {e : Nat} (he : e < 16) : (FAC_ENG_CTRL_RESTART e).addr % 0x40000 = (FAC_ENG_CTRL_RESTART e).addr := by
  simp only [FAC_ENG_CTRL_RESTART]; omega

theorem execEngRestart_accepted {s t : State} {p : Path} {e : Nat} (he : e < 16) (h : Reaches s p (FAC_ENG_CTRL_RESTART e).addr)
    (hs : ¬ (s.engState e = engLoading ∨ s.engState e = engReloading)) (ht : (cmdEngRestart e).act s = t) :
    exec (.engRestart p e) s = .next (accepted s t p (FAC_ENG_CTRL_RESTART e).addr) := by
  rw [execEngRestart_eq he, State.runCmd_accepted h (engRestart_addr_mod he) (if_neg hs) ht]

theorem execEngRestart_rejected {s : State} {p : Path} {e : Nat} (he : e < 16) (h : Reaches s p (FAC_ENG_CTRL_RESTART e).addr)
    (hs : s.engState e = engLoading ∨ s.engState e = engReloading) :
    exec (.engRestart p e) s = .next (s.reject p (FAC_ENG_CTRL_RESTART e).addr 3
      ((s.word (FAC_ENG_CTRL_RESTART e).addr).toNat ||| 2 ^ (FAC_ENG_CTRL_RESTART e).lo)) := by
  rw [execEngRestart_eq he, State.runCmd_rejected h (engRestart_addr_mod he) (by decide) (if_pos hs)]
  rfl

theorem cmdEngRestart_crashes {s : State} {e : Nat} (hs : s.engState e = engRunning ∨ s.engState e = engHalted) :
    (cmdEngRestart e).act s = s.engCrash e 6 := by
  simp only [cmdEngRestart]
  exact State.when_of s _ (by simpa using hs)

/-- What a rejected RESTART captures is not the state of an engine. -/
theorem State.reject_engState (s : State) (p : Path) (e data : Nat) :
    (s.reject p (FAC_ENG_CTRL_RESTART e).addr 3 data).engState e = s.engState e := by
  refine State.reject_rd s p _ _ _ ?_
  simp only [captureWords, FAC_ENG_STATE_STATE, FAC_ENG_CTRL_RESTART, PG_ISR, PG_ERRCAP_CODE, PG_ERRVAL, List.mem_cons, List.not_mem_nil,
    or_false]
  omega

/-- Settles O58: RESTART is the crash of cause 6, and its check refuses it during a load. -/
theorem restartCrashesEngine : Obligations.RestartCrashesEngine := by
  refine ⟨fun s p e he h hs => execEngRestart_accepted he h ?_ (cmdEngRestart_crashes hs), fun s e _ => s.engCrash_restart_state e,
    fun s p e he h hs => ⟨_, execEngRestart_rejected he h hs, s.reject_engState p e _, rfl⟩⟩
  rcases hs with hs | hs <;> rw [hs] <;> decide

/-! ## Services and the mailbox (R299) -/

theorem State.servicesReady_effect (s : State) {e : Nat} (he : e < 16) :
    ((s.setDegraded e false).raise 11 2).on (FAC_ENG_STATE_DEGRADED e) = false ∧
      ((s.setDegraded e false).raise 11 2).bit FAC_ENG_SUMMARY_DEGRADED e = false := by
  simp (disch := first | exact id rfl | exact Fld.apart_lt rfl rfl (by decide) | exact Fld.apart_gt rfl rfl (by decide) | fail) only
    [State.setDegraded, State.on_raise_apart, State.bit_raise_apart, State.on_setBit_apart, State.on_flag_one]
  exact ⟨trivial, State.bit_setBit_self _ _ _ _ he rfl⟩

theorem State.setReady_eng (s : State) (e k : Nat) (b : Bool) : (s.setReady e b).eng k = s.eng k := by
  cases b <;> simp [State.setReady]

theorem State.setReady_on (s : State) (e : Nat) (b : Bool) : (s.setReady e b).on (FAC_DB_READY e) = b := by
  cases b <;>
    simp (disch := first | exact id rfl | exact Fld.apart_lt rfl rfl (by decide) | exact Fld.apart_gt rfl rfl (by decide) | fail) only
      [State.setReady, State.when_true, State.when_false, State.on_raise_apart, State.on_setBit_apart, State.on_flag_one]

/-- The engine's next response is written and shown ready. -/
theorem State.writeOut_ready {s : State} {e : Nat} {r : List Nat} {l : List (List Nat)} (hr : (s.eng e).resp = r :: l)
    (hready : s.on (FAC_DB_READY e) = false) :
    ((s.writeOut e).eng e).resp = l ∧ (s.writeOut e).on (FAC_DB_READY e) = true := by
  rw [State.writeOut, hr]
  simp only [hready, Bool.false_eq_true, if_false, State.setReady_eng, State.setReady_on, State.modEng_eng, and_self]

theorem execMbxRing_eq {e : Nat} (he : e < 16) (p : Path) (s : State) : exec (.mbxRing p e) s = .next (s.runCmd p (cmdMbxRing e)) :=
  congrArg Outcome.next (State.when_of s _ (decide_eq_true he))

theorem mbxRing_addr_mod {e : Nat} (he : e < 16) : (FAC_DB_RING e).addr % 0x40000 = (FAC_DB_RING e).addr := by
  simp only [FAC_DB_RING]; omega

theorem execMbxAck_eq {e : Nat} (he : e < 16) (p : Path) (s : State) : exec (.mbxAck p e) s = .next (s.runCmd p (cmdMbxAck e)) :=
  congrArg Outcome.next (State.when_of s _ (decide_eq_true he))

theorem execMailboxTake_eq {s : State} {e : Nat} (he : e < 16) (hup : s.engUp e = true) (hbusy : s.on (FAC_DB_BUSY e) = true)
    (hreq : (s.eng e).req = none) :
    exec (.mailboxTake e) s = .next ((s.modEng e (fun t => { t with req := some (s.mbxIn e) })).flag (FAC_DB_BUSY e) false) :=
  congrArg Outcome.next (State.when_of s _ (by simp [he, hup, hbusy, hreq]))

theorem execEngineReloaded_eq {s : State} {e : Nat} (he : e < 16) (hs : s.engState e = engReloading) (rd sm : Bool) :
    exec (.engineReloaded e rd sm) s = .next (if rd && sm then (s.engStart e).notice e else s.engHalt e 7) :=
  congrArg Outcome.next (State.when_of s _ (by simp [he, hs]))

/-- Settles O36: each command by its condition, each effect by the words that it writes. -/
theorem engineCommandsComplete : Obligations.EngineCommandsComplete := by
  refine ⟨fun s e c hal h2 h5 => congrArg Outcome.next (State.when_of s _ (by simp [hal, h2, h5])),
    fun s e he hup => congrArg Outcome.next (State.when_of s _ (by simp [he, hup])), fun s e he hs => execEngineReloaded_eq he hs true true,
    fun s e rd sm he hs hbad => ⟨_, (execEngineReloaded_eq he hs rd sm).trans (congrArg _ (if_neg (by simp [hbad]))), rfl, s.engHalt_state e 7 (by decide)⟩,
    fun s e he hup hdeg => ⟨_, congrArg Outcome.next (State.when_of s _ (by simp [he, hup, hdeg])), (s.servicesReady_effect he).1,
      (s.servicesReady_effect he).2, State.raise_bit _ _ _ (by decide)⟩,
    fun s p e he h hl hr => execEngRestart_accepted he h (not_or.2 ⟨hl, hr⟩) rfl, fun s e hs => cmdEngRestart_crashes (.inl hs),
    fun s p e he h hs => execEngRestart_rejected he h (.inr hs), fun s p e he h hbusy => ?_, fun s p e he h hbusy => ?_,
    fun s e he hup hbusy hreq => ⟨_, execMailboxTake_eq he hup hbusy hreq, by simp, State.on_flag_one _ _ _ rfl⟩,
    fun s e r l he hr hready => ⟨_, congrArg Outcome.next (State.when_of s _ (decide_eq_true he)), State.writeOut_ready hr hready⟩,
    fun s p e he h hready => ?_, fun s e hcrash => if_neg hcrash⟩
  · rw [execMbxRing_eq he, State.runCmd_accepted h (mbxRing_addr_mod he) (by simp [cmdMbxRing, hbusy]) rfl]
    rfl
  · rw [execMbxRing_eq he, State.runCmd_rejected h (mbxRing_addr_mod he) (by decide) (if_pos hbusy)]
    rfl
  · rw [execMbxAck_eq he, State.runCmd_accepted h (by simp only [cmdMbxAck, FAC_DB_ACK]; omega) rfl
      (by simp only [cmdMbxAck]; exact State.when_of s _ hready)]

end Sys2Proof.Machine
end

section
/-!
PROOFS. What a running engine answers to a mailbox command (R300).
-/

namespace Sys2Proof.Machine

open Host (Outcome)

/-- The command, the length and the tag stand in the first word of a request. -/
theorem State.mbxReq_of {s : State} {e c lo hi : Nat} {q : List Nat} (he : e < 16) (hup : s.engUp e = true) (hreq : (s.eng e).req = some q)
    (hc : bitsOf ((q[0]?).getD 0) 31 24 = c) (hlo : lo ≤ c) (hhi : c ≤ hi) : s.mbxReq e lo hi = some q := by
  rw [State.mbxReq, if_pos ⟨he, hup⟩, hreq, Option.filter_some, hc, if_pos (by simp [hlo, hhi])]

/-- An answer takes the request, stands behind the responses that wait, and changes no register. -/
theorem State.answer_effect {s : State} {e : Nat} {q : List Nat} (hreq : (s.eng e).req = some q) (status : Nat) (data : List Nat) :
    ((s.answer e status data).eng e).req = none ∧ SameWords [] s (s.answer e status data) ∧
      ((s.answer e status data).eng e).resp = (s.eng e).resp ++
        [mbxHeader (bitsOf ((q[0]?).getD 0) 31 24) (bitsOf ((q[0]?).getD 0) 23 16) data.length status :: data] := by
  simp only [State.answer, hreq, State.modEng_eng, true_and, and_true]
  exact fun a _ => State.modEng_word ..

section
variable {s : State} {e n : Nat} {q : List Nat}

theorem execMbxPing_of (hreq : s.mbxReq e 1 1 = some q) : exec (.mbxPing e) s =
    .next (if reqLen q > 15 then s.answer e 1 [] else s.answer e 0 ((q.drop 1).take (reqLen q))) := by
  change execMbxPing e s = _
  rw [execMbxPing, hreq]

theorem execMbxVersion_of (hreq : s.mbxReq e 2 2 = some q) : exec (.mbxVersion e) s =
    .next (if reqLen q ≠ 0 then s.answer e 1 [] else s.answer e 0 ([s.rd (FAC_ENG_INFO_FW_VER e), s.rd BOOT_IMG_INFO_RB_INDEX] ++
      (List.range 12).map (fun k => (tget 0 s.fac.digest e).toNat / 2 ^ (32 * (11 - k)) % 2 ^ 32))) := by
  change execMbxVersion e s = _
  rw [execMbxVersion, hreq]

theorem execMbxLoad_of (hreq : s.mbxReq e 3 3 = some q) (m : Nat × Nat) : exec (.mbxLoad e m) s =
    .next (if reqLen q ≠ 0 then s.answer e 1 [] else (s.wr (FAC_ENG_INFO_LOAD e) m.1).answer e 0 [m.1, m.2 % 2 ^ 32]) := by
  change execMbxLoad e m s = _
  rw [execMbxLoad, hreq]

theorem execUnknownMailboxCommand_of {c : Nat} (hreq : s.mbxReq e 0 0x3F = some q) (hq : bitsOf ((q[0]?).getD 0) 31 24 = c)
    (hc : c = 0 ∨ 4 ≤ c) : exec (.unknownMailboxCommand e) s = .next (s.answer e 2 []) := by
  change execUnknownMailboxCommand e s = _
  rw [execUnknownMailboxCommand, hreq]
  exact congrArg Outcome.next (State.when_of s _ (by simpa [hq] using hc))

theorem execDiagnosticCommand_of (hreq : s.mbxReq e 0x40 0xFF = some q) (a : List Nat) : exec (.diagnosticCommand e a) s =
    .next (if s.on SEC_STATUS_DEBUG_UNLOCKED then s.answer e (a.headD 0 % 256) ((a.drop 1).take 15) else s.answer e 2 []) := by
  change execDiagnosticCommand e a s = _
  rw [execDiagnosticCommand, hreq]

end

/-- Settles O37: each command answers the request that it names. -/
theorem mailboxCommandsAnswered : Obligations.MailboxCommandsAnswered := by
  refine ⟨fun s e n q h hn => ?_, fun s e n q h hn => ?_, fun s e q h => ?_, fun s e n q h hn => ?_, fun s e u m q h hu => ?_,
    fun s e n u m q h hn => ?_, fun s e c n q h hc => ?_, fun s e c n q a h h64 h256 hlock => ?_,
    fun s e c n q a h h64 h256 hlock => ?_⟩ <;> obtain ⟨he, hup, hreq, hcmd, hlen⟩ := h
  · refine ⟨_, (execMbxPing_of (State.mbxReq_of he hup hreq hcmd le_rfl le_rfl)).trans (congrArg _ (if_neg (by omega))), ?_⟩
    rw [hlen]
    exact State.answer_effect hreq _ _
  · exact ⟨_, (execMbxPing_of (State.mbxReq_of he hup hreq hcmd le_rfl le_rfl)).trans (congrArg _ (if_pos (by omega))),
      State.answer_effect hreq _ _⟩
  · exact ⟨_, (execMbxVersion_of (State.mbxReq_of he hup hreq hcmd le_rfl le_rfl)).trans (congrArg _ (if_neg (by omega))),
      State.answer_effect hreq _ _⟩
  · exact ⟨_, (execMbxVersion_of (State.mbxReq_of he hup hreq hcmd le_rfl le_rfl)).trans (congrArg _ (if_pos (by omega))),
      State.answer_effect hreq _ _⟩
  · have hreq' : ((s.wr (FAC_ENG_INFO_LOAD e) u).eng e).req = some q := (congrArg EngS.req (State.wr_eng s _ u e)).trans hreq
    refine ⟨_, (execMbxLoad_of (State.mbxReq_of he hup hreq hcmd le_rfl le_rfl) (u, m)).trans (congrArg _ (if_neg (by omega))),
      State.answer_effect hreq' _ _, ?_⟩
    rw [State.rd_of_word ((State.answer_effect hreq' _ _).2.1 _ List.not_mem_nil), State.rd_wr_fits _ _ _ rfl]
    exact Nat.mod_eq_of_lt hu
  · exact ⟨_, (execMbxLoad_of (State.mbxReq_of he hup hreq hcmd le_rfl le_rfl) (u, m)).trans (congrArg _ (if_pos (by omega))),
      State.answer_effect hreq _ _⟩
  · exact ⟨_, execUnknownMailboxCommand_of (State.mbxReq_of he hup hreq hcmd (by omega) (by omega)) hcmd (by omega),
      State.answer_effect hreq _ _⟩
  · exact ⟨_, (execDiagnosticCommand_of (State.mbxReq_of he hup hreq hcmd (by omega) (by omega)) a).trans
      (congrArg _ (if_neg (by simp [hlock]))), State.answer_effect hreq _ _⟩
  · exact ⟨_, (execDiagnosticCommand_of (State.mbxReq_of he hup hreq hcmd (by omega) (by omega)) a).trans
      (congrArg _ (if_pos hlock)), State.answer_effect hreq _ _⟩

end Sys2Proof.Machine
end

section
/-!
PROOFS. The instructions of the sieve (R302–R305).
-/

namespace Sys2Proof.Machine

open Host (Outcome)

/-! ## One instruction of a run -/

/-- The run with its next instruction behind it and one more step counted. -/
def SvRun.advanced (r : SvRun) : SvRun := { r with pc := r.pc + 1, steps := r.steps + 1 }

/-- The run of an evaluator stands before the instruction. -/
def State.svAt (s : State) (e op : Nat) (r : SvRun) (i : SvWord) : Prop :=
  s.sieveUp = true ∧ tget? s.fac.runs e = some r ∧ r.ovr = none ∧ (r.prog[r.pc]?).map svDecode = some i ∧ i.op = op

/-- What a run leaves that has executed an instruction without an action of its own. -/
def State.svLeft (s t : State) (e : Nat) (r : SvRun) : Prop :=
  if r.pc < r.prog.length then tget? t.fac.runs e = some r ∧ SameWords [] s t else t = s.svPut e { r with ovr := some false }

theorem State.svStep_at {s : State} {e op : Nat} {r : SvRun} {i : SvWord} (h : s.svAt e op r i)
    (f : State → SvRun → SvWord → State × SvRun) :
    s.svStep e op f = (f s r.advanced i).1.svPut e (f s r.advanced i).2 := by
  obtain ⟨hup, hrun, hovr, hword, hop⟩ := h
  obtain ⟨w, hw, hi⟩ := Option.map_eq_some_iff.1 hword
  rw [State.svStep, State.when_of _ _ hup]
  simp only [hrun, hw, hi]
  rw [State.when_of _ _ (by simp [hovr, hop])]
  rfl

theorem State.svPut_left (s : State) (e : Nat) {q : SvRun} (hq : q.ovr = none) : s.svLeft (s.svPut e q) e q := by
  rw [State.svLeft]
  split
  · next hlt =>
    have hpc : ¬ (q.pc ≥ q.prog.length) := Nat.not_le.2 hlt
    simp only [State.svPut, hq, hpc, decide_false, Bool.and_false, Bool.false_eq_true, if_false, Option.isSome_none]
    exact ⟨tget?_tset_self .., fun a _ => rfl⟩
  · next hge =>
    have hpc : q.pc ≥ q.prog.length := Nat.not_lt.1 hge
    simp only [State.svPut, hq, hpc, decide_true, Bool.and_self, if_true, Option.isNone_none, Option.isNone_some, Bool.false_and,
      Bool.false_eq_true, if_false, Option.isSome_some]

/-- An instruction that leaves the run without a verdict. -/
theorem State.svStep_left {s : State} {e op : Nat} {r : SvRun} {i : SvWord} (h : s.svAt e op r i)
    {f : State → SvRun → SvWord → State × SvRun} {u : State} {q : SvRun} (hf : f s r.advanced i = (u, q)) (hq : q.ovr = r.ovr) :
    u.svLeft (s.svStep e op f) e q := by
  rw [State.svStep_at h, hf]
  exact u.svPut_left e (hq.trans h.2.2.1)

/-! ## Arithmetic, loads and lookups (R304) -/

theorem svLoad_inside {n : Nat} {r : SvRun} {i : SvWord} (s : State)
    (h : (i.imm % 256 + (if i.r then r.reg i.rs else 0)) % 2 ^ 32 + n ≤ min r.len 256) :
    svLoad n s r.advanced i = (s, r.advanced.setReg i.rd
      (beNat ((r.frame.data.drop ((i.imm % 256 + (if i.r then r.reg i.rs else 0)) % 2 ^ 32)).take n))) :=
  if_neg (Nat.not_lt.2 h)

theorem svLoad_outside {n : Nat} {r : SvRun} {i : SvWord} (s : State)
    (h : min r.len 256 < (i.imm % 256 + (if i.r then r.reg i.rs else 0)) % 2 ^ 32 + n) :
    svLoad n s r.advanced i = (s.sieveOob, r.advanced.setReg i.rd 0) :=
  if_pos h

/-- Settles O38: each instruction is the step of its opcode. -/
theorem sieveAluInstructions : Obligations.SieveAluInstructions := by
  refine ⟨fun s e r i h ha => ⟨_, rfl, State.svStep_left h (svLoad_inside s ha) rfl⟩,
    fun s e r i h ha => ⟨_, rfl, State.svStep_left h (svLoad_inside s ha) rfl⟩,
    fun s e r i h ha => ⟨_, rfl, State.svStep_left h (svLoad_inside s ha) rfl⟩,
    fun s e r i h ha => ⟨_, rfl, State.svStep_left h (svLoad_outside s ha) rfl⟩,
    fun s e r i h ha => ⟨_, rfl, State.svStep_left h (svLoad_outside s ha) rfl⟩,
    fun s e r i h ha => ⟨_, rfl, State.svStep_left h (svLoad_outside s ha) rfl⟩,
    fun s e r i h => ⟨_, rfl, State.svStep_left h rfl rfl⟩, fun s e r i h => ⟨_, rfl, State.svStep_left h rfl rfl⟩,
    fun s e r i h => ⟨_, rfl, State.svStep_left h rfl rfl⟩, fun s e r i h => ⟨_, rfl, State.svStep_left h rfl rfl⟩,
    fun s e r i h => ⟨_, rfl, State.svStep_left h rfl rfl⟩, fun s e r i h => ⟨_, rfl, State.svStep_left h rfl rfl⟩,
    fun s e r i h => ⟨_, rfl, State.svStep_left h rfl rfl⟩, fun s e r i h => ⟨_, rfl, State.svStep_left h rfl rfl⟩,
    fun s e r i v h hv => ⟨_, rfl, State.svStep_left (u := s) (q := { r.advanced.setReg i.rd v with result := 1 }) h ?_ rfl⟩,
    fun s e r i h hv => ⟨_, rfl, State.svStep_left (u := s) (q := { r.advanced.setReg i.rd 0 with result := 3 }) h ?_ rfl⟩⟩
  · have : s.lookup (i.imm % 16) (r.advanced.reg i.rs) = some v := hv
    simp only [this]
  · have : s.lookup (i.imm % 16) (r.advanced.reg i.rs) = none := hv
    simp only [this]

end Sys2Proof.Machine
end

section
/-!
PROOFS. The branches and actions of the sieve (R304, R305).
-/

namespace Sys2Proof.Machine

open Host (Outcome)

/-- Where a branch leads: `pc + IMM[7:0]` of the branch itself, or the next instruction. -/
theorem svBranch_advanced (c : Nat → Bool) (s : State) (r : SvRun) (i : SvWord) :
    svBranch c s r.advanced i = (s, if c r.result then { r.advanced with pc := r.pc + i.imm % 256 } else r.advanced) := by
  simp only [svBranch, SvRun.advanced, Nat.add_sub_cancel]

theorem State.svStep_branch {s : State} {e op : Nat} {r : SvRun} {i : SvWord} (h : s.svAt e op r i) (c : Nat → Bool) :
    s.svLeft (s.svStep e op (svBranch c)) e (if c r.result then { r.advanced with pc := r.pc + i.imm % 256 } else r.advanced) :=
  State.svStep_left h (svBranch_advanced c s r i) (by split <;> rfl)

/-- A verdict ends the run. -/
theorem State.svStep_verdict {s : State} {e op : Nat} {r : SvRun} {i : SvWord} (h : s.svAt e op r i) (b : Bool) :
    s.svStep e op (fun s r _ => (s, { r with ovr := some b })) = s.svPut e { r.advanced with ovr := some b } :=
  State.svStep_at h _

/-- What METER leaves of the run (R305). -/
def SvRun.metered (r : SvRun) (i : SvWord) (m : Metered) : SvRun :=
  let q := r.advanced.setReg i.rd (m.colour.getD 0)
  let q := if m.mark then { q with cm := true } else q
  let q := if m.tc.isSome then { q with tc := m.tc, fixed := true } else q
  if m.drop then { q with ovr := some true } else q

theorem execSieveMeter_at {s u : State} {e : Nat} {r : SvRun} {i : SvWord} {m : Metered} (h : s.svAt e opMeter r i)
    (hbig : r.tooBig i = false) (hm : s.meter (r.operand i) r.frame.ns r.frame.preYellow = (u, m)) :
    exec (.sieveMeter e) s = .next (u.svPut e (r.metered i m)) := by
  refine congrArg Outcome.next ((State.svStep_at h _).trans ?_)
  have hbig' : r.advanced.tooBig i = false := hbig
  have hm' : s.meter (r.advanced.operand i) r.advanced.frame.ns r.advanced.frame.preYellow = (u, m) := hm
  simp only [hbig', hm', Bool.false_eq_true, if_false, SvRun.metered]
  obtain ⟨drop, mark, tc, colour⟩ := m
  cases tc <;> rfl

/-- METER that does not drop leaves the run with its mark and its remark. -/
theorem SvRun.metered_kept (r : SvRun) (i : SvWord) {m : Metered} (hdrop : m.drop = false) :
    (r.metered i m).pc = r.pc + 1 ∧ (r.metered i m).prog = r.prog ∧ (r.metered i m).ovr = r.ovr ∧ (r.metered i m).cm = (r.cm || m.mark) ∧
      (m.tc ≠ none → (r.metered i m).tc = m.tc) := by
  obtain ⟨drop, mark, tc, colour⟩ := m
  obtain rfl : drop = false := hdrop
  cases mark <;> cases tc <;> simp [SvRun.metered, SvRun.advanced, SvRun.setReg]

theorem State.svLeft_run {s t : State} {e : Nat} {q : SvRun} (h : s.svLeft t e q) (hpc : q.pc < q.prog.length) :
    tget? t.fac.runs e = some q := by
  rw [State.svLeft, if_pos hpc] at h
  exact h.1

/-- COUNT counts: what the end of its run applies leaves the counters. -/
theorem State.svCount_rd (s : State) (e : Nat) {r : SvRun} {i : SvWord} (hbig : r.tooBig i = false) :
    ((s.inc (SIEVE_CNT (r.operand i))).svPut e r.advanced).rd (SIEVE_CNT (r.operand i)) = (s.rd (SIEVE_CNT (r.operand i)) + 1) % 2 ^ 32 := by
  have hop : r.operand i ≤ 255 := by
    simp only [SvRun.tooBig, Bool.and_eq_false_iff, decide_eq_false_iff_not, Nat.not_lt] at hbig
    unfold SvRun.operand
    split
    · next hr => exact hbig.resolve_left (ne_false_of_eq_true hr)
    · omega
  rw [State.svPut_rd _ _ _ ?_ (Fld.apart_of_addr_ne ?_), State.rd_inc_fits _ _ _ rfl]
  · rfl
  · simp only [FlowWord, SIEVE_CNT, PG_ISR, SIEVE_NO_CTX, SIEVE_COPY_LOST]
    omega
  · simp only [SIEVE_CNT, SIEVE_STEPS_MAX]
    omega

/-- Settles O39: each instruction is the step of its opcode. -/
theorem sieveBranchesAndActions : Obligations.SieveBranchesAndActions := by
  refine ⟨fun s e r i h => ⟨_, rfl, State.svStep_branch h (· == 1)⟩,
    fun s e r i h => ⟨_, rfl, State.svStep_branch h (· != 1)⟩, fun s e r i h => ⟨_, rfl, State.svStep_branch h (· == 2)⟩,
    fun s e r i h => ⟨_, rfl, State.svStep_branch h (· == 3)⟩, fun s e r i h => ⟨_, rfl, State.svStep_branch h (fun _ => true)⟩,
    fun s e r i h => ⟨_, rfl, State.svStep_left h rfl (by dsimp only; split <;> rfl)⟩,
    fun s e r i h hbig => ⟨_, rfl, State.svStep_left h (if_neg (ne_true_of_eq_false hbig)) (by dsimp only; split <;> rfl)⟩,
    fun s e r i h => ⟨_, rfl, State.svStep_left h rfl rfl⟩,
    fun s e r i h hbig hcp => ⟨_, rfl, State.svStep_left h ((if_neg (ne_true_of_eq_false hbig)).trans (if_neg (Nat.not_le.2 hcp))) rfl⟩,
    fun s e r i h h248 hlim => ⟨_, rfl, State.svStep_left h (if_neg ?_) rfl⟩,
    fun s e r i h hbig => ⟨_, rfl, State.svStep_left h (if_neg (ne_true_of_eq_false hbig)) rfl, ?_⟩,
    fun s e r i u m h hbig hm hdrop hpc => ?_, fun s e r i u m h hbig hm => execSieveMeter_at h hbig hm,
    fun s e r i h hbig => ⟨_, rfl, State.svStep_left h (if_pos hbig) rfl⟩,
    fun s e r i h hbig hcp => ⟨_, rfl, State.svStep_left h ((if_neg (ne_true_of_eq_false hbig)).trans (if_pos hcp)) rfl⟩,
    fun s e r i h => congrArg Outcome.next (State.svStep_verdict h true),
    fun s e r i h => congrArg Outcome.next (State.svStep_verdict h false)⟩
  · have hlim' : (r.advanced.operand i + 8 > if 6 ≤ r.advanced.frame.point && r.advanced.frame.point ≤ 9 then r.advanced.len - 4
        else r.advanced.len) ↔ False := by
      simp only [Bool.and_eq_true, decide_eq_true_eq, iff_false, Nat.not_lt]
      exact hlim
    have h248' : r.advanced.operand i ≤ 248 := h248
    simp only [hlim', Nat.not_lt.2 h248', decide_false, Bool.and_false, Bool.or_self, Bool.false_eq_true, not_false_eq_true]
  · rw [State.svStep_at h, if_neg (ne_true_of_eq_false (b := r.advanced.tooBig i) hbig)]
    exact State.svCount_rd s e hbig
  · obtain ⟨hpc', hprog, hovr, hcm, htc⟩ := r.metered_kept i hdrop
    have hrun := State.svLeft_run (u.svPut_left e (q := r.metered i m) (hovr.trans h.2.2.1)) (by rw [hpc', hprog]; exact hpc)
    refine ⟨_, execSieveMeter_at h hbig hm, ?_, ?_, fun hne => ?_⟩ <;> rw [hrun, Option.map_some]
    · rw [hpc']
    · rw [hcm]
    · rw [htc hne]

end Sys2Proof.Machine
end

section
/-!
PROOFS. Starting a run of the sieve, and loading its programs and tables (R302–R309).
-/

namespace Sys2Proof.Machine

open Host (Outcome)

/-- The run that a frame starts on a program: at its first instruction, with the length in R6 and the point in R7 (R302). -/
def State.newRun (s : State) (f : SvFrame) (n len : Nat) : SvRun :=
  { frame := f, base := s.rd (SIEVE_PROG_ACT_BASE n), len := len,
    prog := (List.range (s.rd (SIEVE_PROG_ACT_LEN n))).map (fun k => tget 0 s.fac.imem (s.rd (SIEVE_PROG_ACT_BASE n) + k)),
    regs := [0, 0, 0, 0, 0, 0, min len 65535, f.point * 65536 + f.sub % 65536] }

theorem execSieveRun_first {s : State} {e n : Nat} {f : SvFrame} {l : List SvFrame} (hup : s.sieveUp = true) (he : e < 24)
    (hfree : tget? s.fac.runs e = none) (hwait : s.fac.wait = f :: l) (hprog : s.boundProg f.point = some n) (st : Nat) :
    exec (.sieveRun e (0, st)) s = .next ((s.modFac (fun t => { t with wait := t.wait.eraseIdx 0 })).modFac
      (fun t => { t with runs := tset t.runs e (s.newRun f n (f.runLength st)), order := t.order ++ [e] })) := by
  have hbound : (s.modFac (fun t => { t with wait := t.wait.eraseIdx 0 })).boundProg f.point = some n := hprog
  have h0 : s.fac.wait[0]? = some f := by rw [hwait]; rfl
  refine congrArg Outcome.next ((State.when_of s _ (by simp [hup, he, hfree])).trans ?_)
  simp only [h0]
  refine (State.when_of s _ (by simp)).trans ?_
  simp only [hbound]
  rfl

theorem State.progCommit_failed (s : State) (p : Path)
    (h : (s.progCheck (s.rd (SIEVE_PROG_SEL_PROG.onPath p)) (s.rd (SIEVE_PROG_DEF_BASE.onPath p)) (s.rd (SIEVE_PROG_DEF_LEN.onPath p))).1 ≠ 0) :
    s.progCommit p = ((((s.wr (SIEVE_PROG_STATUS_LAST_PROG.onPath p) (s.rd (SIEVE_PROG_SEL_PROG.onPath p))).wr (SIEVE_PROG_STATUS_INDEX.onPath p)
      (s.progCheck (s.rd (SIEVE_PROG_SEL_PROG.onPath p)) (s.rd (SIEVE_PROG_DEF_BASE.onPath p)) (s.rd (SIEVE_PROG_DEF_LEN.onPath p))).2).wr
      (SIEVE_PROG_STATUS_REASON.onPath p)
      (s.progCheck (s.rd (SIEVE_PROG_SEL_PROG.onPath p)) (s.rd (SIEVE_PROG_DEF_BASE.onPath p)) (s.rd (SIEVE_PROG_DEF_LEN.onPath p))).1).raise 12 0).capture
      12 p 1 (wIdx SIEVE_PROG_CMD_COMMIT % 1024) 1 :=
  if_pos h

/-- A program is enabled in its place, and the measurement that follows is of another page. -/
theorem State.progEnable_effect (u : State) (n len base : Nat) (x : List Byte) :
    (State.mrExtend (((u.flag (SIEVE_PROG_ACT_EN n) true).wr (SIEVE_PROG_ACT_LEN n) len).wr (SIEVE_PROG_ACT_BASE n) base) 1 x).on
        (SIEVE_PROG_ACT_EN n) = true ∧
      (State.mrExtend (((u.flag (SIEVE_PROG_ACT_EN n) true).wr (SIEVE_PROG_ACT_LEN n) len).wr (SIEVE_PROG_ACT_BASE n) base) 1 x).rd
        (SIEVE_PROG_ACT_LEN n) = len % 2 ^ 9 ∧
      (State.mrExtend (((u.flag (SIEVE_PROG_ACT_EN n) true).wr (SIEVE_PROG_ACT_LEN n) len).wr (SIEVE_PROG_ACT_BASE n) base) 1 x).rd
        (SIEVE_PROG_ACT_BASE n) = base % 2 ^ 12 := by
  have hmr (t : State) (g : Fld) (hg : g.addr = (SIEVE_PROG_ACT_EN n).addr) : (t.mrExtend 1 x).rd g = t.rd g :=
    State.mrExtend_rd _ _ _ fun k hk => Fld.apart_of_addr_ne (by rw [hg]; simp only [SEC_MR, SIEVE_PROG_ACT_EN]; omega)
  rw [State.on, hmr _ _ rfl, hmr _ (SIEVE_PROG_ACT_LEN n) rfl, hmr _ (SIEVE_PROG_ACT_BASE n) rfl]
  simp (disch := exact id rfl) only [State.rd_wr_apart, State.rd_wr_fits, State.flag]
  exact ⟨rfl, rfl, rfl⟩

theorem State.progCommit_enabled {s : State} {p : Path} {n : Nat} (hsel : s.rd (SIEVE_PROG_SEL_PROG.onPath p) = n)
    (h : (s.progCheck n (s.rd (SIEVE_PROG_DEF_BASE.onPath p)) (s.rd (SIEVE_PROG_DEF_LEN.onPath p))).1 = 0) :
    (s.progCommit p).on (SIEVE_PROG_ACT_EN n) = true ∧ (s.progCommit p).rd (SIEVE_PROG_ACT_LEN n) = s.rd (SIEVE_PROG_DEF_LEN.onPath p) ∧
      (s.progCommit p).rd (SIEVE_PROG_ACT_BASE n) = s.rd (SIEVE_PROG_DEF_BASE.onPath p) ∧ (s.progCommit p).fac.imem = s.fac.imem := by
  simp only [State.progCommit, hsel, h, ne_eq, not_true_eq_false, if_false]
  obtain ⟨hen, hlen, hbase⟩ := State.progEnable_effect _ n (s.rd (SIEVE_PROG_DEF_LEN.onPath p)) (s.rd (SIEVE_PROG_DEF_BASE.onPath p)) _
  refine ⟨hen, hlen.trans (Nat.mod_eq_of_lt (s.rd_lt _)), hbase.trans (Nat.mod_eq_of_lt (s.rd_lt _)), ?_⟩
  simp only [State.mrExtend_fac, State.wr_fac, State.flag_fac]

/-- Settles O40: each command by what it runs, and what a run and a COMMIT leave. -/
theorem sieveLoadingCommands : Obligations.SieveLoadingCommands := by
  refine ⟨fun s e f l n st hup he hfree hwait hprog => ?_, fun s p v h hused h0 hv => ?_, fun s p v h hused => ?_,
    fun s p h => congrArg Outcome.next (State.readOwn_reaches h),
    fun s p h => congrArg Outcome.next (State.runCmd_accepted (c := cmdProgCommit p) h rfl rfl rfl),
    fun s p h => congrArg Outcome.next (State.runCmd_accepted (c := cmdProgDisable p) h rfl rfl rfl),
    fun s p h => congrArg Outcome.next (State.runCmd_accepted (c := cmdProgClrCnt p) h rfl rfl rfl),
    fun s p h => congrArg Outcome.next (State.runCmd_accepted (c := cmdTblLoad p) h rfl rfl rfl),
    fun s p h => congrArg Outcome.next (State.runCmd_accepted (c := cmdTblCommit p) h rfl rfl rfl),
    fun s p h => congrArg Outcome.next (State.readOwn_reaches h), State.progCommit_failed,
    fun s p n hsel _ h => State.progCommit_enabled hsel h⟩
  · refine ⟨_, execSieveRun_first hup he hfree hwait hprog st, ?_⟩
    simp only [State.modFac_fac, tget?_tset_self, Option.map_some, hwait, List.eraseIdx_zero, List.tail_cons, State.newRun, true_and]
    exact fun a _ => rfl
  · refine congrArg Outcome.next ((State.writeOwn_accepted h (by simp [hused])).trans ?_)
    simp only [Nat.mod_eq_of_lt hv, (Nat.ne_of_gt h0), if_false]
  · refine congrArg Outcome.next ((State.writeOwn_rejected h (by simp [hused])).trans ?_)
    simp only [hused, if_true]

end Sys2Proof.Machine
end

section
/-!
PROOFS. The seating, the feeds, the ideal-diode OR and the monitor of the bezel.
-/

namespace Sys2Proof.Machine

open Host (Outcome)

/-! ## What the bezel's operations leave -/

/-- The switches of the service port follow in one word. -/
theorem State.svcUpdate_word (s : State) {a : Nat} (h : a ≠ SVC_TC_STATUS_STATE.addr) : s.svcUpdate.word a = s.word a := by
  unfold State.svcUpdate State.ccShow
  rw [State.when_word _ _ _ _ (by simp), State.word_flag_ne _ SVC_TC_STATUS_SRC_SW _ _ h, State.word_flag_ne _ SVC_TC_STATUS_SNK_SW _ _ h,
    State.when_word _ _ _ _ (by simp), State.word_flag_ne _ SVC_TC_STATUS_DEAD_BATT _ _ h]

theorem State.svcUpdate_rd (s : State) {g : Fld} (h : g.addr ≠ SVC_TC_STATUS_STATE.addr) : s.svcUpdate.rd g = s.rd g :=
  State.rd_of_word (s.svcUpdate_word h)

theorem State.svcUpdate_on (s : State) {g : Fld} (h : g.addr ≠ SVC_TC_STATUS_STATE.addr) : s.svcUpdate.on g = s.on g :=
  State.on_of_word (s.svcUpdate_word h)

@[simp] theorem State.svcUpdate_bzl (s : State) : s.svcUpdate.bzl = s.bzl :=
  (State.svcUpdate_follows (msk := 131072) rfl (Follows.refl 131072 s)).parts .bzl rfl

@[simp] theorem State.wakeBy_bzl (s : State) (cause : Nat) : (s.wakeBy cause).bzl = s.bzl :=
  (State.wakeBy_follows (msk := 524315) rfl cause (Follows.refl 524315 s)).parts .bzl rfl

/-- What PG's change leaves: fields of other bits and other words, where it shows what it was set to. -/
theorem State.pgSet_on (s : State) (b : Bool) : (s.pgSet b).on BZL_STATUS_PG = b := by
  unfold State.pgSet
  split
  · assumption
  · rw [State.svcUpdate_on _ (by decide), State.on_raise_apart _ _ _ _ rfl, State.on_flag_one _ _ _ rfl]

theorem State.pgSet_rd_apart (s : State) (b : Bool) {g : Fld} (hpg : BZL_STATUS_PG.apart g = true) (hisr : (PG_ISR 3).apart g = true)
    (hsvc : g.addr ≠ SVC_TC_STATUS_STATE.addr) : (s.pgSet b).rd g = s.rd g := by
  unfold State.pgSet
  split
  · rfl
  · rw [State.svcUpdate_rd _ hsvc, State.rd_raise_apart _ _ _ _ hisr, State.rd_flag_apart _ _ _ _ hpg]

theorem State.hsEnter_rd_apart (s : State) (st : Nat) {g : Fld} (hst : BZL_STATUS_HS_STATE.apart g = true)
    (hflt : BZL_STATUS_FAULT.apart g = true) (hcnt : BZL_HS_CNT_STARTS.apart g = true) (hisr : (PG_ISR 3).apart g = true)
    (hlife : (PG_STATE_LIFE 3).apart g = true) : (s.hsEnter st).rd g = s.rd g := by
  have hset (t : State) (v : Nat) : (t.setLife 3 v).rd g = t.rd g := by
    unfold State.setLife
    split
    · rfl
    · rw [State.rd_raise_apart _ _ _ _ hisr, State.rd_wr_apart _ _ _ _ hlife]
  unfold State.hsEnter
  rw [hset, State.rd_flag_apart _ _ _ _ hflt, State.rd_wr_apart _ _ _ _ hst]
  generalize (st == 4 && s.rd BZL_STATUS_HS_STATE != 4) = c
  cases c
  · rfl
  · rw [State.when_true, State.rd_incSat_apart _ _ _ hcnt]

theorem State.hsEnter_state (s : State) {st : Nat} (h : st < 8) : (s.hsEnter st).rd BZL_STATUS_HS_STATE = st := by
  unfold State.hsEnter
  rw [State.setLife_rd _ _ _ _ (by decide) (by decide), State.rd_flag_apart _ _ _ _ rfl, State.rd_wr_fits _ _ _ rfl]
  exact Nat.mod_eq_of_lt h

@[simp] theorem State.hsEnter_bzl (s : State) (st : Nat) : (s.hsEnter st).bzl = s.bzl :=
  (State.hsEnter_follows (msk := 2) rfl st (Follows.refl 2 s)).parts .bzl rfl

theorem State.lineEn_bit (s : State) {n : Nat} (hn : n < 3) (b : Bool) : (s.lineEn n b).bit BZL_STATUS_LINE_EN n = b := by
  unfold State.lineEn
  split
  · assumption
  · rw [State.bit_raise_apart _ _ _ _ _ rfl, State.bit_setBit_self _ _ _ _ hn rfl]

theorem State.lineEn_bit_apart (s : State) (n : Nat) (b : Bool) {g : Fld} (k : Nat) (hen : BZL_STATUS_LINE_EN.apart g = true)
    (hisr : (PG_ISR 3).apart g = true) : (s.lineEn n b).bit g k = s.bit g k := by
  unfold State.lineEn
  split
  · rfl
  · rw [State.bit_raise_apart _ _ _ _ _ hisr, State.bit_setBit_apart _ _ _ _ _ _ hen]

/-! ## The seat (R312, R317) -/

theorem execSeatQualified_eq {s : State} (h2 : s.domOn 2 = true) (ha : s.on BZL_STATUS_SEAT_A_LOW = true)
    (hb : s.on BZL_STATUS_SEAT_B_LOW = true) (hseat : s.on BZL_STATUS_SEATED = false) :
    exec .seatQualified s = .next (((s.flag BZL_STATUS_SEATED true).raise 3 0).when (s.rd BZL_STATUS_HS_STATE == 1) (·.hsStart)) := by
  refine congrArg Outcome.next ((State.when_of s _ (by simp [h2, ha, hb, hseat])).trans ?_)
  dsimp only
  rw [State.rd_raise_apart _ _ _ _ rfl, State.rd_flag_apart _ _ _ _ rfl]

theorem State.seated_effect (s : State) : ((s.flag BZL_STATUS_SEATED true).raise 3 0).on BZL_STATUS_SEATED = true ∧
    (((s.flag BZL_STATUS_SEATED true).raise 3 0).word (PG_ISR 3).addr).getLsbD 0 = true ∧
    ((s.flag BZL_STATUS_SEATED true).raise 3 0).rd BZL_STATUS_HS_STATE = s.rd BZL_STATUS_HS_STATE := by
  refine ⟨?_, State.raise_bit _ _ _ (by decide), ?_⟩
  · rw [State.on_raise_apart _ _ _ _ rfl, State.on_flag_one _ _ _ rfl]
  · rw [State.rd_raise_apart _ _ _ _ rfl, State.rd_flag_apart _ _ _ _ rfl]

/-- A start of a seated card ramps. -/
theorem State.hsStart_seated {s : State} (h : s.on BZL_STATUS_SEATED = true) : s.hsStart.on BZL_STATUS_SEATED = true ∧
    s.hsStart.rd BZL_STATUS_HS_STATE = 2 ∧ s.hsStart.bzl.ramped = false := by
  simp only [State.hsStart, h, if_true, State.modBzl_on, State.modBzl_rd, State.modBzl_bzl, and_true]
  refine ⟨?_, State.hsEnter_state _ (by decide)⟩
  rw [State.on, State.hsEnter_rd_apart _ _ rfl rfl rfl rfl rfl]
  exact h

/-- What the loss of the seat leaves before the stage enters its state. -/
def State.unseated (s : State) : State := (((s.flag BZL_STATUS_SEATED false).raise 3 0).gateDown).clearCauses.wr BZL_FLT_CAUSE_RETRIES 0

theorem State.clearCauses_effect (s : State) : s.clearCauses.rd BZL_FLT_CAUSE_BREAKER = 0 ∧ s.clearCauses.bzl.latched = 0 := by
  simp only [State.clearCauses, State.modBzl_rd, State.modBzl_bzl, and_true]
  generalize decide (State.rd _ BZL_FLT_CAUSE_FIRST < 4) = c
  cases c <;> simp (disch := exact id rfl) only [State.when_true, State.when_false, State.rd_wr_apart, State.rd_wr_fits, Nat.zero_mod]

theorem State.clearCauses_rd_ne (s : State) {g : Fld} (h : g.addr ≠ BZL_FLT_CAUSE_FIRST.addr) : s.clearCauses.rd g = s.rd g := by
  refine State.rd_of_word ?_
  simp only [State.clearCauses, State.modBzl_word]
  rw [State.when_word _ _ _ _ (State.word_wr_ne _ _ _ _ h), State.word_wr_ne _ BZL_FLT_CAUSE_PLIMIT _ _ h,
    State.word_wr_ne _ BZL_FLT_CAUSE_BREAKER _ _ h, State.word_wr_ne _ BZL_FLT_CAUSE_FAST_TRIP _ _ h]

theorem State.unseated_effect (s : State) : s.unseated.rd BZL_STATUS_SEATED = 0 ∧ s.unseated.rd BZL_STATUS_PG = 0 ∧
    s.unseated.rd BZL_STATUS_FLT_TMR = 0 ∧ s.unseated.rd BZL_FLT_CAUSE_RETRIES = 0 ∧ s.unseated.rd BZL_FLT_CAUSE_BREAKER = 0 ∧
    s.unseated.bzl.latched = 0 := by
  have hpg (u : State) : (u.pgSet false).rd BZL_STATUS_PG = 0 := by
    have h := u.pgSet_on false
    have hlt := (u.pgSet false).rd_lt BZL_STATUS_PG
    simp only [State.on, beq_eq_false_iff_ne, ne_eq] at h
    simp only [Fld.width, BZL_STATUS_PG] at hlt h ⊢
    omega
  simp only [State.unseated, State.wr_bzl, State.clearCauses_effect, and_true]
  rw [State.rd_wr_apart _ _ _ _ rfl, State.rd_wr_apart _ _ _ _ rfl, State.rd_wr_apart _ _ _ _ rfl, State.rd_wr_fits _ _ _ rfl,
    State.rd_wr_apart _ _ _ _ rfl, (State.clearCauses_effect _).1, State.clearCauses_rd_ne _ (by decide),
    State.clearCauses_rd_ne _ (by decide), State.clearCauses_rd_ne _ (by decide)]
  simp only [State.gateDown, State.timerStop, State.modBzl_rd]
  rw [State.rd_flag_apart _ _ _ _ rfl, State.rd_flag_apart _ _ _ _ rfl, State.rd_flag_fits _ _ _ rfl, hpg,
    State.pgSet_rd_apart _ _ rfl rfl (by decide), State.rd_raise_apart _ _ _ _ rfl, State.rd_flag_fits _ _ _ rfl]
  exact ⟨rfl, rfl, rfl, rfl, trivial⟩

theorem execSeatLost_eq {s : State} (h2 : s.domOn 2 = true) (hseat : s.on BZL_STATUS_SEATED = true)
    (hpin : s.on BZL_STATUS_SEAT_A_LOW = false ∨ s.on BZL_STATUS_SEAT_B_LOW = false) :
    exec .seatLost s = .next (s.unseated.when (s.unseated.rd BZL_STATUS_HS_STATE != 0 && !s.unseated.fetFault) (·.hsEnter 1)) :=
  congrArg Outcome.next ((State.when_of s _ (by rcases hpin with h | h <;> simp [h2, hseat, h])).trans (by dsimp only [State.unseated]))

theorem State.unseated_stage (s : State) (c : Bool) {g : Fld} (hst : BZL_STATUS_HS_STATE.apart g = true)
    (hflt : BZL_STATUS_FAULT.apart g = true) (hcnt : BZL_HS_CNT_STARTS.apart g = true) (hisr : (PG_ISR 3).apart g = true)
    (hlife : (PG_STATE_LIFE 3).apart g = true) : (s.when c (·.hsEnter 1)).rd g = s.rd g := by
  cases c
  · rfl
  · rw [State.when_true, State.hsEnter_rd_apart s 1 hst hflt hcnt hisr hlife]

/-! ## The feeds (R314) -/

theorem execFeedWithdrawal_eq {s : State} {n : Nat} (h2 : s.domOn 2 = true) (hn : n < 3)
    (h : (s.bit BZL_STATUS_FSEAT_LOW n && s.bit BZL_FEED_CTRL_EN n) = false) :
    exec (.feedWithdrawal n) s = .next ((s.lineEn n false).when (!s.bit BZL_STATUS_FSEAT_LOW n) (·.setBit BZL_STATUS_FEED_SEATED n false)) :=
  congrArg Outcome.next (State.when_of s _ (by simp [h2, hn, h]))

theorem execFeedQualified_eq {s : State} {n : Nat} (h2 : s.domOn 2 = true) (hn : n < 3) (hpin : s.bit BZL_STATUS_FSEAT_LOW n = true)
    (hen : s.bit BZL_FEED_CTRL_EN n = true) :
    exec (.feedQualified n) s = .next ((s.setBit BZL_STATUS_FEED_SEATED n true).lineEn n true) :=
  congrArg Outcome.next ((State.when_of s _ (by simp [h2, hn, hpin])).trans (State.when_of _ _ hen))

/-! ## The ideal-diode OR (R315) -/

/-- The events that follow the OR's update leave the bezel's status word and its part. -/
theorem State.orEvents_on (u : State) (chg main wake : Bool) {g : Fld} (h3 : (PG_ISR 3).apart g = true) (hg : g.addr = BZL_STATUS_SEATED.addr) :
    ((u.when chg (fun s => ((s.raise 3 7).when main (·.raise 4 8)).svcUpdate)).when wake (·.wakeBy 7)).on g = u.on g := by
  have h4 : (PG_ISR 4).apart g = true := Fld.apart_of_addr_ne (by rw [hg]; decide)
  have hs : g.addr ≠ SVC_TC_STATUS_STATE.addr := by rw [hg]; decide
  have hw1 : g.addr / 0x1000 ≠ 1 := by rw [hg]; decide
  have hw10 : g.addr / 0x1000 ≠ 10 := by rw [hg]; decide
  cases chg <;> cases main <;> cases wake <;>
    simp only [State.when_true, State.when_false, State.wakeBy_on _ _ hw1 hw10, State.svcUpdate_on _ hs, State.on_raise_apart _ _ _ _ h3,
      State.on_raise_apart _ _ _ _ h4]

theorem State.orEvents_bzl (u : State) (chg main wake : Bool) :
    ((u.when chg (fun s => ((s.raise 3 7).when main (·.raise 4 8)).svcUpdate)).when wake (·.wakeBy 7)).bzl = u.bzl := by
  cases chg <;> cases main <;> cases wake <;> simp

/-- What of the bezel the update of the OR leaves and shows, whatever event and wake follow. -/
theorem State.orUpdate_effect (s : State) : s.orUpdate.bzl = s.bzl ∧
    s.orUpdate.on BZL_STATUS_LINE_OK = s.orValid (s.on BZL_STATUS_LINE_OK) s.bzl.lineMv ∧
    s.orUpdate.on BZL_STATUS_AUX_OK = s.orValid (s.on BZL_STATUS_AUX_OK) s.bzl.auxMv ∧
    (s.bzl.lineFwd = false → s.orUpdate.on BZL_STATUS_LINE_ON = false) ∧
    (s.bzl.auxFwd = false → s.orUpdate.on BZL_STATUS_AUX_ON = false) := by
  unfold State.orUpdate
  dsimp only
  rw [State.orEvents_bzl, State.orEvents_on (g := BZL_STATUS_LINE_OK) _ _ _ _ rfl rfl,
    State.orEvents_on (g := BZL_STATUS_AUX_OK) _ _ _ _ rfl rfl, State.orEvents_on (g := BZL_STATUS_LINE_ON) _ _ _ _ rfl rfl,
    State.orEvents_on (g := BZL_STATUS_AUX_ON) _ _ _ _ rfl rfl]
  simp (disch := exact id rfl) only [State.flag_bzl, State.on_flag_apart, State.on_flag_one, true_and]
  exact ⟨fun hl => by simp [hl], fun ha => by simp [ha]⟩

/-! ## The monitor (R329) -/

theorem State.fitOr_fits {w v : Nat} (u : State) (h : v < 2 ^ w) : u.fitOr w v = (v, u) := if_pos h

theorem State.fitOr_bzl (u : State) (w v : Nat) : (u.fitOr w v).2.bzl = u.bzl := by
  unfold State.fitOr
  split <;> rfl

theorem State.raiseWhen_rd (u : State) (c : Bool) {g : Fld} (h : (PG_ISR 3).apart g = true) : (u.when c (·.raise 3 8)).rd g = u.rd g :=
  u.when_rd c _ g fun t => t.rd_raise_apart 3 8 g h

theorem State.raiseWhen_bzl (u : State) (c : Bool) : (u.when c (·.raise 3 8)).bzl = u.bzl := by
  cases c <;> simp

theorem execMonitorAverage_yields {s : State} {l : List (Nat × Nat × Nat)} (h2 : s.domOn 2 = true)
    (hl : l.length = 2 ^ s.rd BZL_MON_CFG_AVG) (hvor : meanOf (l.map (·.1)) < 655360) (hvin : meanOf (l.map (·.2.1)) < 655360) :
    Yields (.monitorAverage l) s fun t => t.rd BZL_MON_V_VOR = meanOf (l.map (·.1)) / 10 ∧
      t.rd BZL_MON_V_VIN_MAIN = meanOf (l.map (·.2.1)) / 10 ∧
      t.bzl.energy = (s.bzl.energy + (s.bzl.energyPj + (l.map s.samplePj).sum) / 1000000) % 2 ^ 64 := by
  have hvor' : meanOf (l.map (·.1)) / 10 < 2 ^ 16 := by omega
  have hvin' : meanOf (l.map (·.2.1)) / 10 < 2 ^ 16 := by omega
  refine ⟨_, congrArg Outcome.next (State.when_of s _ (by simp [h2, hl])), ?_⟩
  simp (disch := exact id rfl) only [State.fitOr_fits _ hvor', State.fitOr_fits _ hvin', State.modBzl_rd, State.modBzl_bzl,
    State.raiseWhen_rd, State.raiseWhen_bzl, State.rd_wr_apart, State.rd_wr_fits, State.wr_bzl, State.fitOr_bzl, and_true]
  exact ⟨Nat.mod_eq_of_lt hvor', Nat.mod_eq_of_lt hvin'⟩

/-- Settles O41: each command by its condition, each effect by the fields that it writes. -/
theorem seatingFeedAndMonitorCommands : Obligations.SeatingFeedAndMonitorCommands := by
  refine ⟨fun s b l h2 hl => congrArg Outcome.next (State.when_of s _ (by simp [h2, hl])), fun s h2 ha hb hseat hst => ?_,
    fun s h2 ha hb hseat hst => ?_, fun s h2 hseat hpin => ?_, fun s n l h2 hn => ?_, fun s n h2 hn hpin hen => ?_,
    fun s n h2 hn hpin => ?_, fun s n h2 hn hpin hen => ?_, fun s mv f h2 => ?_, fun s mv f h2 => ?_, fun s h2 => ?_, fun s h2 => ?_,
    fun s mv => ?_, fun s l => execMonitorAverage_yields, fun s p h => congrArg Outcome.next (State.readOwn_reaches h)⟩
  · refine ⟨_, (execSeatQualified_eq h2 ha hb hseat).trans (congrArg _ (State.when_of_not _ _ (by simpa using hst))), s.seated_effect⟩
  · refine ⟨_, (execSeatQualified_eq h2 ha hb hseat).trans (congrArg _ (State.when_of _ _ (by simpa using hst))),
      State.hsStart_seated s.seated_effect.1⟩
  · obtain ⟨hs, hpg, htmr, hret, hbrk, hlat⟩ := s.unseated_effect
    refine ⟨_, execSeatLost_eq h2 hseat hpin, ?_⟩
    generalize (s.unseated.rd BZL_STATUS_HS_STATE != 0 && !s.unseated.fetFault) = c
    refine ⟨State.on_of_rd_zero ?_, State.on_of_rd_zero ?_, State.on_of_rd_zero ?_, ?_, ?_, ?_⟩
    · rw [State.unseated_stage _ _ rfl rfl rfl rfl rfl, hs]
    · rw [State.unseated_stage _ _ rfl rfl rfl rfl rfl, hpg]
    · rw [State.unseated_stage _ _ rfl rfl rfl rfl rfl, htmr]
    · rw [State.unseated_stage _ _ rfl rfl rfl rfl rfl, hret]
    · rw [State.unseated_stage _ _ rfl rfl rfl rfl rfl, hbrk]
    · cases c <;> simp [hlat]
  · refine ⟨_, congrArg Outcome.next (State.when_of s _ (by simp [h2, hn])), State.bit_setBit_self _ _ _ _ hn rfl, fun a ha => ?_⟩
    exact State.word_setBit_ne _ _ _ _ _ (List.ne_of_not_mem_cons ha)
  · refine ⟨_, execFeedQualified_eq h2 hn hpin hen, ?_, State.lineEn_bit _ hn true⟩
    rw [State.lineEn_bit_apart _ _ _ _ rfl rfl, State.bit_setBit_self _ _ _ _ hn rfl]
  · refine ⟨_, (execFeedWithdrawal_eq h2 hn (by simp [hpin])).trans (congrArg _ (State.when_of _ _ (by simp [hpin]))),
      State.bit_setBit_self _ _ _ _ hn rfl, ?_⟩
    rw [State.bit_setBit_apart _ _ _ _ _ _ rfl, State.lineEn_bit _ hn]
  · refine ⟨_, (execFeedWithdrawal_eq h2 hn (by simp [hen])).trans (congrArg _ (State.when_of_not _ _ (by simp [hpin]))),
      State.lineEn_bit_apart _ _ _ _ rfl rfl, State.lineEn_bit _ hn false⟩
  · obtain ⟨hbzl, hline, -⟩ := State.orUpdate_effect (s.modBzl (fun b => { b with lineMv := mv, lineFwd := f }))
    exact ⟨_, congrArg Outcome.next (State.when_of s _ h2), congrArg BezelS.lineMv hbzl, hline,
      (congrArg BezelS.auxMv hbzl).trans rfl⟩
  · obtain ⟨hbzl, -, haux, -⟩ := State.orUpdate_effect (s.modBzl (fun b => { b with auxMv := mv, auxFwd := f }))
    exact ⟨_, congrArg Outcome.next (State.when_of s _ h2), congrArg BezelS.auxMv hbzl, haux,
      (congrArg BezelS.lineMv hbzl).trans rfl⟩
  · obtain ⟨hbzl, -, -, hon, -⟩ := State.orUpdate_effect (s.modBzl (fun b => { b with lineFwd := false }))
    exact ⟨_, congrArg Outcome.next (State.when_of s _ h2), hon rfl, (congrArg BezelS.lineMv hbzl).trans rfl⟩
  · obtain ⟨hbzl, -, -, -, hon⟩ := State.orUpdate_effect (s.modBzl (fun b => { b with auxFwd := false }))
    exact ⟨_, congrArg Outcome.next (State.when_of s _ h2), hon rfl, (congrArg BezelS.auxMv hbzl).trans rfl⟩
  · simp [State.orValid]

end Sys2Proof.Machine
end

section
/-!
PROOFS. The hot-swap stage of the bezel.
-/

namespace Sys2Proof.Machine

open Host (Outcome)

/-! ## What the stage's operations leave -/

theorem State.gateDown_rd_apart (s : State) {g : Fld} (hpg : BZL_STATUS_PG.apart g = true) (htmr : BZL_STATUS_FLT_TMR.apart g = true)
    (hisr : (PG_ISR 3).apart g = true) (hsvc : g.addr ≠ SVC_TC_STATUS_STATE.addr) : s.gateDown.rd g = s.rd g := by
  simp only [State.gateDown, State.timerStop, State.modBzl_rd]
  rw [State.rd_flag_apart _ _ _ _ htmr, State.pgSet_rd_apart _ _ hpg hisr hsvc]

theorem State.gateDown_off (s : State) : s.gateDown.rd BZL_STATUS_PG = 0 ∧ s.gateDown.rd BZL_STATUS_FLT_TMR = 0 := by
  simp only [State.gateDown, State.timerStop, State.modBzl_rd]
  rw [State.rd_flag_apart _ _ _ _ rfl, State.rd_flag_fits _ _ _ rfl]
  refine ⟨?_, rfl⟩
  have h := (s.pgSet false).rd_lt BZL_STATUS_PG
  have hoff := s.pgSet_on false
  simp only [State.on, beq_eq_false_iff_ne] at hoff
  exact Nat.lt_one_iff.1 (Nat.lt_of_le_of_ne (Nat.lt_succ_iff.1 h) hoff)

theorem State.setCause_rd_apart (s : State) (k : Nat) {g : Fld} (hfirst : BZL_FLT_CAUSE_FIRST.apart g = true)
    (hk : Fld.apart ⟨BZL_FLT_CAUSE_FAST_TRIP.addr, k, k⟩ g = true) : (s.setCause k).rd g = s.rd g := by
  rw [State.setCause, State.rd_wr_apart _ _ _ _ hk]
  exact s.when_rd _ _ g fun t => t.rd_wr_apart _ g _ hfirst

theorem State.setCause_on (s : State) {k : Nat} (hk : k < 32) : (s.setCause k).on ⟨BZL_FLT_CAUSE_FAST_TRIP.addr, k, k⟩ = true := by
  refine (State.on_iff_rd _ _).2 ?_
  rw [State.setCause, State.rd_wr_fits _ _ _ (by simp [Fld.fits, hk])]
  simp [Fld.width]

@[simp] theorem State.setCause_bzl (s : State) (k : Nat) : (s.setCause k).bzl = s.bzl := by
  unfold State.setCause
  generalize (s.rd BZL_FLT_CAUSE_FIRST == 0) = c
  cases c <;> simp

theorem State.powerRecord_rd (s : State) (page bit : Nat) {g : Fld} (h : g.addr ∉ ringWords) : (s.powerRecord page bit).rd g = s.rd g :=
  (s.sysRecord_sameWords _ _ _ _).rd h

@[simp] theorem State.powerRecord_bzl (s : State) (page bit : Nat) : (s.powerRecord page bit).bzl = s.bzl :=
  (State.sysRecord_follows (msk := 2) rfl _ _ _ _ (Follows.refl 2 s)).parts .bzl rfl

theorem State.hsEnter_fault (s : State) (st : Nat) : (s.hsEnter st).on BZL_STATUS_FAULT = decide (st ≥ 5) := by
  unfold State.hsEnter
  rw [State.on, State.setLife_rd _ _ _ _ (by decide) (by decide)]
  exact State.on_flag_one _ _ _ rfl

/-! ## Faults (R318, R319, R320, R323) -/

/-- The causes that a trip latches: its own, and that of a limit that expires with it. -/
def State.causesSet (s : State) (k : Nat) (also : Option Nat) : State :=
  match also with
  | some j => (s.gateDown.setCause k).setCause j
  | none => s.gateDown.setCause k

theorem State.causesSet_rd_apart (s : State) {k : Nat} {also : Option Nat} (hk : k < 3) (halso : ∀ j, also = some j → j < 3) {g : Fld}
    (hfirst : BZL_FLT_CAUSE_FIRST.apart g = true) (hbits : ∀ i, i < 3 → Fld.apart ⟨BZL_FLT_CAUSE_FAST_TRIP.addr, i, i⟩ g = true) :
    (s.causesSet k also).rd g = s.gateDown.rd g := by
  cases also with
  | none => rw [State.causesSet, State.setCause_rd_apart _ _ hfirst (hbits k hk)]
  | some j => rw [State.causesSet, State.setCause_rd_apart _ _ hfirst (hbits j (halso j rfl)), State.setCause_rd_apart _ _ hfirst (hbits k hk)]

theorem State.causesSet_on (s : State) {k : Nat} {also : Option Nat} (hk : k < 3) (halso : ∀ j, also = some j → j < 3) :
    (s.causesSet k also).on ⟨BZL_FLT_CAUSE_FAST_TRIP.addr, k, k⟩ = true := by
  cases also with
  | none => exact State.setCause_on _ (by omega)
  | some j =>
    have hj := halso j rfl
    by_cases hjk : j = k
    · subst hjk
      exact State.setCause_on _ (by omega)
    · rw [State.causesSet, State.on, State.setCause_rd_apart]
      · exact State.setCause_on _ (by omega)
      · simp only [Fld.apart_iff, BZL_FLT_CAUSE_FIRST]; omega
      · simp only [Fld.apart_iff]; omega

theorem State.limitCause_lt {s : State} {j : Nat} (h : s.limitCause = some j) : j < 3 := by
  unfold State.limitCause at h
  split at h
  · injection h with h
    subst h
    split <;> decide
  · cases h

/-- The state that a fault enters: cool-off while retries remain (R323). -/
def State.faultState (s : State) : Nat := if s.rd BZL_FLT_CAUSE_RETRIES < s.rd BZL_HS_CFG2_RETRIES then 5 else 6

/-- The fields of the configuration and of the retries are not among those that a cause sets. -/
theorem State.faultState_of_rd {s u : State} (hr : u.rd BZL_FLT_CAUSE_RETRIES = s.rd BZL_FLT_CAUSE_RETRIES)
    (hc : u.rd BZL_HS_CFG2_RETRIES = s.rd BZL_HS_CFG2_RETRIES) : u.faultState = s.faultState := by
  rw [State.faultState, hr, hc, State.faultState]

theorem State.faultState_lt (s : State) : s.faultState < 8 := by
  unfold State.faultState
  split <;> decide

/-- The stage before it enters the state of its fault. -/
def State.tripped (s : State) (k : Nat) (also : Option Nat) (e : Nat) : State :=
  (((s.causesSet k also).incSat BZL_HS_CNT_FAULTS).wr BZL_FET_E e).raise 3 2

theorem State.tripped_rd (s : State) (k : Nat) (also : Option Nat) (e : Nat) {g : Fld} (hcnt : BZL_HS_CNT_FAULTS.apart g = true)
    (he : BZL_FET_E.apart g = true) (hisr : (PG_ISR 3).apart g = true) : (s.tripped k also e).rd g = (s.causesSet k also).rd g := by
  rw [State.tripped, State.rd_raise_apart _ _ _ _ hisr, State.rd_wr_apart _ _ _ _ he, State.rd_incSat_apart _ _ _ hcnt]

theorem State.fitOr_rd (u : State) (w v : Nat) (g : Fld) : (u.fitOr w v).2.rd g = u.rd g := by
  unfold State.fitOr
  split <;> rfl

/-- The stage before it enters the state of a fault with the energy `e`, which FET_E shows where it fits (log entry 76). -/
def State.faulted (s : State) (k : Nat) (also : Option Nat) (e : Nat) : State := (s.fitOr 32 e).2.tripped k also (s.fitOr 32 e).1

theorem State.hsFault_eq (s : State) (k : Nat) (also : Option Nat) (e : Nat) : s.hsFault k also e =
    (((s.faulted k also e).hsEnter (s.faulted k also e).faultState).modBzl
      (fun b => { b with latched := (s.faulted k also e).faultState, coolUs := (s.faulted k also e).coolOff e })).powerRecord 3 2 := by
  cases also <;> rfl

theorem State.hsFault_rd_apart (s : State) (k : Nat) (also : Option Nat) (e : Nat) {g : Fld} (hring : g.addr ∉ ringWords)
    (hst : BZL_STATUS_HS_STATE.apart g = true) (hflt : BZL_STATUS_FAULT.apart g = true) (hcnt : BZL_HS_CNT_STARTS.apart g = true)
    (hisr : (PG_ISR 3).apart g = true) (hlife : (PG_STATE_LIFE 3).apart g = true) :
    (s.hsFault k also e).rd g = (s.faulted k also e).rd g := by
  rw [State.hsFault_eq, State.powerRecord_rd _ _ _ hring, State.modBzl_rd, State.hsEnter_rd_apart _ _ hst hflt hcnt hisr hlife]

section
variable {s : State} {k e : Nat} {also : Option Nat}

/-- The retries and their limit are not among the fields that a trip writes. -/
theorem State.faulted_kept (hk : k < 3) (halso : ∀ j, also = some j → j < 3) {g : Fld} (hcnt : BZL_HS_CNT_FAULTS.apart g = true)
    (he : BZL_FET_E.apart g = true) (hisr : (PG_ISR 3).apart g = true) (hfirst : BZL_FLT_CAUSE_FIRST.apart g = true)
    (hbits : ∀ i, i < 3 → Fld.apart ⟨BZL_FLT_CAUSE_FAST_TRIP.addr, i, i⟩ g = true) (hpg : BZL_STATUS_PG.apart g = true)
    (htmr : BZL_STATUS_FLT_TMR.apart g = true) (hsvc : g.addr ≠ SVC_TC_STATUS_STATE.addr) : (s.faulted k also e).rd g = s.rd g := by
  rw [State.faulted, State.tripped_rd _ _ _ _ hcnt he hisr, State.causesSet_rd_apart _ hk halso hfirst hbits,
    State.gateDown_rd_apart _ hpg htmr hisr hsvc, State.fitOr_rd]

theorem State.faulted_faultState (hk : k < 3) (halso : ∀ j, also = some j → j < 3) : (s.faulted k also e).faultState = s.faultState :=
  State.faultState_of_rd (State.faulted_kept hk halso rfl rfl rfl rfl (by decide) rfl rfl (by decide))
    (State.faulted_kept hk halso rfl rfl rfl rfl (by decide) rfl rfl (by decide))

theorem State.faulted_coolOff (hk : k < 3) (halso : ∀ j, also = some j → j < 3) (x : Nat) :
    (s.faulted k also e).coolOff x = s.coolOff x := by
  rw [State.coolOff, State.faulted_kept hk halso rfl rfl rfl rfl (by decide) rfl rfl (by decide),
    State.faulted_kept hk halso rfl rfl rfl rfl (by decide) rfl rfl (by decide), State.coolOff]

theorem State.hsFault_state (hk : k < 3) (halso : ∀ j, also = some j → j < 3) :
    (s.hsFault k also e).rd BZL_STATUS_HS_STATE = s.faultState := by
  rw [State.hsFault_eq, State.powerRecord_rd _ _ _ (by decide), State.modBzl_rd, State.faulted_faultState hk halso,
    State.hsEnter_state _ s.faultState_lt]

theorem State.hsFault_off (hk : k < 3) (halso : ∀ j, also = some j → j < 3) :
    (s.hsFault k also e).on BZL_STATUS_PG = false ∧ (s.hsFault k also e).on BZL_STATUS_FLT_TMR = false := by
  constructor <;> refine State.on_of_rd_zero ?_
  · rw [State.hsFault_rd_apart _ _ _ _ (by decide) rfl rfl rfl rfl rfl, State.faulted, State.tripped_rd _ _ _ _ rfl rfl rfl,
      State.causesSet_rd_apart _ hk halso rfl (by decide), (State.gateDown_off _).1]
  · rw [State.hsFault_rd_apart _ _ _ _ (by decide) rfl rfl rfl rfl rfl, State.faulted, State.tripped_rd _ _ _ _ rfl rfl rfl,
      State.causesSet_rd_apart _ hk halso rfl (by decide), (State.gateDown_off _).2]

theorem State.hsFault_energy (he : e < 2 ^ 32) (hk : k < 3) (halso : ∀ j, also = some j → j < 3) :
    (s.hsFault k also e).rd BZL_FET_E = e ∧ (s.hsFault k also e).bzl.coolUs = s.coolOff e := by
  constructor
  · rw [State.hsFault_rd_apart _ _ _ _ (by decide) rfl rfl rfl rfl rfl, State.faulted, State.fitOr_fits _ he, State.tripped, State.rd_raise_apart _ _ _ _ rfl,
      State.rd_wr_fits _ _ _ rfl]
    exact Nat.mod_eq_of_lt he
  · rw [State.hsFault_eq, State.powerRecord_bzl, State.modBzl_bzl, State.faulted_coolOff hk halso]

theorem State.hsFault_cause (hk : k < 3) (halso : ∀ j, also = some j → j < 3) :
    (s.hsFault k also e).on ⟨BZL_FLT_CAUSE_FAST_TRIP.addr, k, k⟩ = true := by
  have hap {f : Fld} (hf : BZL_FLT_CAUSE_FAST_TRIP.addr ≠ f.addr) : f.apart ⟨BZL_FLT_CAUSE_FAST_TRIP.addr, k, k⟩ = true :=
    Fld.apart_of_addr_ne hf
  have hring : BZL_FLT_CAUSE_FAST_TRIP.addr ∉ ringWords := by decide
  rw [State.on, State.hsFault_rd_apart (g := ⟨BZL_FLT_CAUSE_FAST_TRIP.addr, k, k⟩) _ _ _ _ hring (hap (by decide)) (hap (by decide))
      (hap (by decide)) (hap (by decide)) (hap (by decide)), State.faulted, State.tripped_rd _ _ _ _ (hap (by decide)) (hap (by decide)) (hap (by decide))]
  exact State.causesSet_on _ hk halso

end

/-! ## FET faults, limits and qualification -/

theorem State.hsFetFault_effect (s : State) {k : Nat} (hk : k = 3 ∨ k = 4) : (s.hsFetFault k).rd BZL_STATUS_HS_STATE = 7 ∧
    (s.hsFetFault k).on BZL_STATUS_FAULT = true ∧ (s.hsFetFault k).on ⟨BZL_FLT_CAUSE_FAST_TRIP.addr, k, k⟩ = true := by
  have hring : BZL_FLT_CAUSE_FAST_TRIP.addr ∉ ringWords := by decide
  simp only [State.hsFetFault]
  refine ⟨?_, ?_, ?_⟩
  · rw [State.powerRecord_rd _ _ _ (by decide), State.hsEnter_state _ (by decide)]
  · rw [State.on, State.powerRecord_rd _ _ _ (by decide)]
    exact State.hsEnter_fault _ 7
  · rw [State.on, State.powerRecord_rd (g := ⟨BZL_FLT_CAUSE_FAST_TRIP.addr, k, k⟩) _ _ _ hring]
    rcases hk with rfl | rfl <;>
    · rw [State.hsEnter_rd_apart _ _ rfl rfl rfl rfl rfl, State.rd_raise_apart _ _ _ _ rfl, State.rd_incSat_apart _ _ _ rfl]
      exact State.setCause_on _ (by decide)

theorem State.limitCheck_over {s : State} (hact : s.hsActive = true) (hlim : s.limitOf ≠ 0) (h4 : s.rd BZL_STATUS_HS_STATE = 4) :
    s.limitCheck = ((((s.modBzl (fun b => { b with limit := s.limitOf })).flag BZL_STATUS_FLT_TMR true).pgSet false).hsEnter 3) := by
  rw [State.limitCheck, State.when_of _ _ hact, if_neg hlim, State.when_of]
  simp (disch := exact id rfl) only [State.rd_flag_apart, State.modBzl_rd, h4, beq_self_eq_true]

@[simp] theorem State.pgSet_bzl (s : State) (b : Bool) : (s.pgSet b).bzl = s.bzl := by
  unfold State.pgSet
  split <;> simp

/-- Settles O42: each command by its condition, each effect by the fields that it writes. -/
theorem hotSwapStageCommands : Obligations.HotSwapStageCommands := by
  refine ⟨fun s h2 hst => ⟨_, congrArg Outcome.next (State.when_of s _ (by simp [h2, hst])), rfl, fun a _ => rfl⟩, fun s h2 hst hr => ?_,
    fun s h2 hst hr => ?_, fun s h2 hact hsh => ?_, fun s v f h2 hst hlim => ?_, fun s e h2 hact htmr he => ?_, fun s v e x h2 hact hv => ?_,
    fun s v h2 hst hseat htmr hv => ?_, fun s h2 hst hseat => ?_, fun s h2 hpg => ?_, fun s p h h7 => ?_, fun s p h h7 => ?_,
    fun s p h h0 hl => ?_, fun s p h h7 => ?_, fun s p h h7 => ?_, fun s p h h7 => ?_, fun s p v h hbad => ?_, fun s p v h hbad => ?_,
    fun s p v h hbad => ?_, fun s p v h hbad => ?_⟩
  · exact ⟨_, congrArg Outcome.next ((State.when_of s _ (by simp [h2, hst, hr])).trans (if_pos rfl)), State.hsEnter_state _ (by decide),
      State.hsEnter_fault _ 3⟩
  · exact ⟨_, congrArg Outcome.next ((State.when_of s _ (by simp [h2, hst, hr])).trans (if_neg Bool.false_ne_true)),
      s.hsFetFault_effect (.inl rfl)⟩
  · exact ⟨_, congrArg Outcome.next (State.when_of s _ (by simp [h2, hact, hsh])), s.hsFetFault_effect (.inr rfl)⟩
  · have hact : (s.modBzl (fun b => { b with vsns := v, fet := f })).hsActive = true := by simp [State.hsActive, hst]
    have hover : (s.modBzl (fun b => { b with vsns := v, fet := f })).limitOf ≠ 0 := by
      simp only [State.limitOf, State.modBzl_bzl, State.modBzl_rd]
      split_ifs <;> omega
    refine ⟨_, congrArg Outcome.next ((State.when_of s _ (by simp [h2, State.hsActive, hst])).trans
      (State.limitCheck_over hact hover hst)), State.hsEnter_state _ (by decide), ?_, ?_, ?_, ?_⟩
    · rw [State.on, State.hsEnter_rd_apart _ _ rfl rfl rfl rfl rfl, State.pgSet_rd_apart _ _ rfl rfl (by decide)]
      exact State.on_flag_one _ _ _ rfl
    · rw [State.on, State.hsEnter_rd_apart _ _ rfl rfl rfl rfl rfl]
      exact State.pgSet_on _ _
    · simp
    · simp
  · have hcause : s.limitCause = some (if s.bzl.limit = 2 then 2 else 1) := by simp [State.limitCause, htmr]
    have hk : (if s.bzl.limit = 2 then 2 else 1) < 3 := by split <;> decide
    have hexec : exec (.faultTimerExpiry e) s = .next (s.hsFault (if s.bzl.limit = 2 then 2 else 1) none e) :=
      congrArg Outcome.next ((State.when_of s _ (by simp [h2, hact])).trans (by rw [hcause]))
    refine ⟨_, hexec, State.hsFault_state hk (by simp), (State.hsFault_off hk (by simp)).1, (State.hsFault_off hk (by simp)).2,
      (State.hsFault_energy he hk (by simp)).1, (State.hsFault_energy he hk (by simp)).2, ?_⟩
    have hon := State.hsFault_cause (s := s) (e := e) hk (also := none) (by simp)
    split <;> rename_i hlim <;> simp only [hlim, if_true, if_false] at hon <;> exact hon
  · have halso : ∀ j, (if x then s.limitCause else none) = some j → j < 3 := by
      cases x
      · simp
      · exact fun j => State.limitCause_lt
    exact ⟨_, congrArg Outcome.next (State.when_of s _ (by simp [h2, hact, hv])), State.hsFault_state (by decide) halso,
      (State.hsFault_off (by decide) halso).1, State.hsFault_cause (by decide) halso⟩
  · refine ⟨_, congrArg Outcome.next (State.when_of s _ (by simp [h2, hst, hseat, htmr, hv])), ?_, State.pgSet_on _ _, ?_⟩
    · rw [State.pgSet_rd_apart _ _ rfl rfl (by decide), State.hsEnter_state _ (by decide)]
    · rw [State.on, State.pgSet_rd_apart _ _ rfl rfl (by decide)]
      exact State.hsEnter_fault _ 4
  · have hseat' : (s.inc BZL_FLT_CAUSE_RETRIES).on BZL_STATUS_SEATED = true := by rw [State.on_inc_apart _ _ _ _ rfl, hseat]
    refine ⟨_, congrArg Outcome.next (State.when_of s _ (by simp [h2, hst, hseat])), ?_, ?_, State.raise_bit _ _ _ (by decide)⟩
    · rw [State.rd_raise_apart _ _ _ _ rfl, (State.hsStart_seated hseat').2.1]
    · rw [State.rd_raise_apart _ _ _ _ rfl, State.hsStart, State.modBzl_rd, State.hsEnter_rd_apart _ _ rfl rfl rfl rfl rfl,
        State.rd_inc_fits _ _ _ rfl]
      rfl
  · exact ⟨_, congrArg Outcome.next (State.when_of s _ (by simp [h2, hpg])), State.rd_wr_fits _ _ _ rfl,
      fun a ha => State.word_wr_ne _ _ _ _ (List.ne_of_not_mem_cons ha)⟩
  · exact congrArg Outcome.next (State.runCmd_accepted (c := cmdHsClear) h rfl (by simp [cmdHsClear, fetChk, State.fetFault, h7]) (by
      simp only [cmdHsClear]))
  · exact congrArg Outcome.next (State.runCmd_rejected (c := cmdHsClear) h rfl (by decide) (by simp [cmdHsClear, fetChk, State.fetFault, h7]))
  · exact congrArg Outcome.next (State.runCmd_accepted (c := cmdHsOn) h rfl (by simp [cmdHsOn, fetChk, State.fetFault, h0]) (by
      simp only [cmdHsOn]; rw [State.when_of _ _ (by simp [h0]), if_pos hl]))
  · exact congrArg Outcome.next (State.runCmd_rejected (c := cmdHsOn) h rfl (by decide) (by simp [cmdHsOn, fetChk, State.fetFault, h7]))
  · exact congrArg Outcome.next (State.runCmd_accepted (c := cmdHsOff) h rfl rfl (by
      simp only [cmdHsOff]; rw [State.when_of _ _ (by simp [State.fetFault, h7])]))
  · exact congrArg Outcome.next (State.runCmd_accepted (c := cmdHsOff) h rfl rfl (by
      simp only [cmdHsOff]; rw [State.when_of_not _ _ (by simp [State.fetFault, h7])]))
  · exact congrArg Outcome.next (State.writeOwn_accepted h (by simp [hbad]))
  · exact congrArg Outcome.next ((State.writeOwn_rejected h (by simp [hbad])).trans (by simp [hbad]))
  · exact congrArg Outcome.next (State.writeOwn_accepted h (by simp [hbad]))
  · exact congrArg Outcome.next ((State.writeOwn_rejected h (by simp [hbad])).trans (by simp [hbad]))

end Sys2Proof.Machine
end

section
/-!
PROOFS. The attach and detach of the service port, its roles and its service levels.
-/

namespace Sys2Proof.Machine

open Host (Outcome)

/-! ## A conditional change, read through -/

theorem State.rd_when (s : State) (c : Bool) (f : State → State) (g : Fld) :
    (s.when c f).rd g = if c then (f s).rd g else s.rd g := by cases c <;> rfl

/-! ## Words that the operations of the port leave -/

theorem State.usbdUpdate_word (s : State) {a : Nat} (h : a / 0x1000 ≠ 29) : s.usbdUpdate.word a = s.word a := by
  have hisr : a ≠ (PG_ISR 29).addr := fun he => h (he ▸ rfl)
  have hst : a ≠ USBD_STATUS_STATE.addr := fun he => h (he ▸ rfl)
  unfold State.usbdUpdate
  dsimp only
  refine State.ite_word ?_ (State.ite_word ?_ rfl) <;> rw [State.raise_word _ _ _ _ hisr]
  · exact State.word_wr_ne _ _ _ _ hst
  · rw [State.word_flag_ne _ USBD_STATUS_SUSPENDED _ _ hst, State.word_flag_ne _ USBD_STATUS_RWAKE _ _ hst,
      State.word_wr_ne _ USBD_STATUS_ADDRESS _ _ hst, State.word_wr_ne _ USBD_STATUS_SPEED _ _ hst, State.word_wr_ne _ _ _ _ hst]

/-- A PHY that is gone changes its port word, page USBH and words of flows. -/
theorem State.phyGone_flow {u : Nat} (s : State) {a : Nat} (h30 : a / 0x1000 ≠ 30) (hu : a ≠ (USBH_LPORT_ST u).addr)
    (hflow : ¬ FlowWord false a) : (s.phyGone u).word a = s.word a := by
  have hisr : a ≠ (PG_ISR 30).addr := fun he => h30 (he ▸ rfl)
  refine State.when_word _ _ _ _ ?_
  rw [State.sendPhyStatus, State.phyMsg, State.usbUp, State.ingress_flow _ _ a hflow, State.raise_word _ _ _ _ hisr, State.word_wr_ne _ _ _ _ hu]
  exact State.mk_word ..

/-- The pages up to that of the service port hold no word of a flow. -/
theorem not_flowWord_of_low {a : Nat} (h : a / 0x1000 ≤ 4) : ¬ FlowWord false a := by
  simp only [FlowWord, PG_ISR, SIEVE_NO_CTX, SIEVE_COPY_LOST, Bool.false_eq_true, false_and, or_false]
  omega

theorem State.phyGone_word (s : State) {a : Nat} (h : a / 0x1000 ≤ 4) : (s.phyGone 0).word a = s.word a :=
  s.phyGone_flow (by omega) (by simp only [USBH_LPORT_ST]; omega) (not_flowWord_of_low h)

theorem State.setDataRole_rd (s : State) (dfp : Bool) {g : Fld} (hst : SVC_TC_STATUS_DATA_ROLE.apart g = true)
    (hctrl : SVC_TC_CTRL_DATA_ROLE.apart g = true) (hpage : g.addr / 0x1000 ≤ 4) : (s.setDataRole dfp).rd g = s.rd g := by
  rw [State.setDataRole, State.rd_of_word (State.usbdUpdate_word _ (by omega)),
    State.when_rd _ _ _ _ fun u => State.rd_of_word (u.phyGone_word hpage), State.rd_flag_apart _ _ _ _ hctrl, State.rd_flag_apart _ _ _ _ hst]

theorem State.setDataRole_on (s : State) (dfp : Bool) : (s.setDataRole dfp).on SVC_TC_STATUS_DATA_ROLE = dfp := by
  rw [State.setDataRole, State.on_of_word (State.usbdUpdate_word _ (by decide)), State.on,
    State.when_rd _ _ _ _ fun u => State.rd_of_word (u.phyGone_word (by decide)), State.rd_flag_apart _ _ _ _ rfl]
  exact State.on_flag_one _ _ _ rfl

@[simp] theorem State.setDataRole_svc (s : State) (dfp : Bool) : (s.setDataRole dfp).svc = s.svc :=
  (State.setDataRole_follows (msk := 21322) rfl dfp (Follows.refl 21322 s)).parts .svc rfl

/-- The switches and the dead battery are the only bits of the port's word that an update changes. -/
theorem State.svcUpdate_rd_apart (s : State) {g : Fld} (hdead : SVC_TC_STATUS_DEAD_BATT.apart g = true)
    (hsnk : SVC_TC_STATUS_SNK_SW.apart g = true) (hsrc : SVC_TC_STATUS_SRC_SW.apart g = true) : s.svcUpdate.rd g = s.rd g := by
  unfold State.svcUpdate State.ccShow
  rw [State.when_rd _ _ _ _ fun u => (by simp), State.rd_flag_apart _ _ _ _ hsrc, State.rd_flag_apart _ _ _ _ hsnk,
    State.when_rd _ _ _ _ fun u => (by simp), State.rd_flag_apart _ _ _ _ hdead]

/-! ## Attach (R333, R335) -/

/-- The port's words before the data role follows. -/
def State.attachShown (s : State) (src cc2 : Bool) (rp : Nat) : State :=
  let s := ((s.wr SVC_TC_STATUS_STATE (if src then tcSrc else tcSnk)).flag SVC_TC_STATUS_ORIENT cc2).flag SVC_TC_STATUS_ATTACHED true
  ((s.flag SVC_TC_STATUS_PWR_ROLE src).flag SVC_TC_CTRL_PWR_ROLE src).wr SVC_TC_STATUS_RP_SEEN (if src then 0 else rp)

theorem State.svcAttach_eq (s : State) (src cc2 : Bool) (rp : Nat) : s.svcAttach src cc2 rp =
    ((((((s.attachShown src cc2 rp).setDataRole src).incSat SVC_EVT_CNT_ATTACHES).raise 4 0).svcUpdate).wakeBy 3) := rfl

/-- What the attach leaves of the port's words, but the data role and what follows from the update. -/
theorem State.svcAttach_rd (s : State) (src cc2 : Bool) (rp : Nat) {g : Fld} (hst : SVC_TC_STATUS_DATA_ROLE.apart g = true)
    (hctrl : SVC_TC_CTRL_DATA_ROLE.apart g = true) (hpage : g.addr / 0x1000 = 4) (hcnt : SVC_EVT_CNT_ATTACHES.apart g = true)
    (hisr : (PG_ISR 4).apart g = true) (hdead : SVC_TC_STATUS_DEAD_BATT.apart g = true)
    (hsnk : SVC_TC_STATUS_SNK_SW.apart g = true) (hsrc : SVC_TC_STATUS_SRC_SW.apart g = true) :
    (s.svcAttach src cc2 rp).rd g = (s.attachShown src cc2 rp).rd g := by
  rw [State.svcAttach_eq, State.wakeBy_rd _ _ (by omega) (by omega), State.svcUpdate_rd_apart _ hdead hsnk hsrc,
    State.rd_raise_apart _ _ _ _ hisr, State.rd_incSat_apart _ _ _ hcnt, State.setDataRole_rd _ _ hst hctrl (by omega)]

theorem State.svcAttach_dataRole (s : State) (src cc2 : Bool) (rp : Nat) : (s.svcAttach src cc2 rp).on SVC_TC_STATUS_DATA_ROLE = src := by
  rw [State.svcAttach_eq, State.wakeBy_on _ _ (by decide) (by decide), State.on, State.svcUpdate_rd_apart _ rfl rfl rfl,
    State.rd_raise_apart _ _ _ _ rfl, State.rd_incSat_apart _ _ _ rfl]
  exact State.setDataRole_on _ _

theorem State.svcAttach_raised (s : State) (src cc2 : Bool) (rp : Nat) :
    ((s.svcAttach src cc2 rp).word (PG_ISR 4).addr).getLsbD 0 = true := by
  rw [State.svcAttach_eq, State.wakeBy_word _ _ (by decide) (by decide), State.svcUpdate_word _ (by decide)]
  exact State.raise_bit _ _ _ (by decide)

@[simp] theorem State.ccShow_word (s : State) (a : Nat) : s.ccShow.word a = s.word a := State.when_word _ _ _ _ (by simp)

theorem State.attachShown_effect (s : State) (src cc2 : Bool) (rp : Nat) :
    (s.attachShown src cc2 rp).rd SVC_TC_STATUS_STATE = (if src then 6 else 3) ∧
      (s.attachShown src cc2 rp).rd SVC_TC_STATUS_ATTACHED = 1 ∧ (s.attachShown src cc2 rp).rd SVC_TC_STATUS_ORIENT = cc2.toNat ∧
      (s.attachShown src cc2 rp).rd SVC_TC_STATUS_PWR_ROLE = src.toNat ∧
      (s.attachShown src cc2 rp).rd SVC_TC_STATUS_RP_SEEN = (if src then 0 else rp) % 4 := by
  simp (disch := exact id rfl) only [State.attachShown, State.rd_wr_apart, State.rd_flag_apart, State.rd_wr_fits, State.rd_flag_fits]
  cases src <;> cases cc2 <;> exact ⟨rfl, rfl, rfl, rfl, rfl⟩

theorem State.on_of_rd {s : State} {f : Fld} {b : Bool} (h : s.rd f = b.toNat) : s.on f = b := by
  rw [State.on, h]; cases b <;> rfl

/-- What an attach shows. -/
theorem State.svcAttach_effect (s : State) (src cc2 : Bool) (rp : Nat) :
    (s.svcAttach src cc2 rp).rd SVC_TC_STATUS_STATE = (if src then 6 else 3) ∧
      (s.svcAttach src cc2 rp).on SVC_TC_STATUS_ATTACHED = true ∧ (s.svcAttach src cc2 rp).on SVC_TC_STATUS_ORIENT = cc2 ∧
      (s.svcAttach src cc2 rp).on SVC_TC_STATUS_PWR_ROLE = src ∧ (s.svcAttach src cc2 rp).on SVC_TC_STATUS_DATA_ROLE = src ∧
      (s.svcAttach src cc2 rp).rd SVC_TC_STATUS_RP_SEEN = (if src then 0 else rp) % 4 := by
  obtain ⟨hst, hatt, hor, hrole, hrp⟩ := s.attachShown_effect src cc2 rp
  refine ⟨?_, State.on_of_rd ?_, State.on_of_rd ?_, State.on_of_rd ?_, s.svcAttach_dataRole src cc2 rp, ?_⟩ <;>
    rw [State.svcAttach_rd _ _ _ _ rfl rfl rfl rfl rfl rfl rfl rfl] <;> assumption

/-! ## Detach (R334) -/

theorem State.showRx_rd (s : State) {g : Fld} (hstat : g.addr ≠ SVC_RX_STAT_VALID.addr) (hbuf : ∀ k < 8, g.addr ≠ (SVC_RX_BUF k).addr) :
    s.showRx.rd g = s.rd g := by
  unfold State.showRx
  dsimp only
  rw [foldS_wr_rd_apart _ _ fun k hk => Fld.apart_of_addr_ne (hbuf k (List.mem_range.1 hk)), State.rd_wr_ne _ SVC_RX_STAT_SOP _ _ hstat,
    State.rd_wr_ne _ SVC_RX_STAT_LEN _ _ hstat, State.rd_wr_ne _ SVC_RX_STAT_COUNT _ _ hstat, State.rd_flag_ne _ _ _ _ hstat]

/-- The display of the Alternate Mode changes page DPO alone. -/
theorem State.dpaltRelease_word (s : State) {a : Nat} (h : a / 0x1000 ≠ 28) : s.dpaltRelease.word a = s.word a := by
  have hisr : a ≠ (PG_ISR 28).addr := fun he => h (he ▸ rfl)
  have hst : a ≠ DPO_STATUS_LOCKED.addr := fun he => h (he ▸ rfl)
  have hmux : a ≠ DPO_DPALT_STATUS_MUX_SEL.addr := fun he => h (he ▸ rfl)
  have hresync (u : State) : u.dpoResync.word a = u.word a := by
    unfold State.dpoResync State.dpoMode
    rw [State.modDp_word, State.word_wr_ne _ DPO_STATUS_MODE _ _ hst, State.when_word]
    rw [State.raise_word _ _ _ _ hisr, State.word_flag_ne _ _ _ _ hst]
  have hrefit (u : State) : u.dpoRefit.word a = u.word a := by
    unfold State.dpoRefit
    split
    · rfl
    · dsimp only
      rw [State.when_word _ _ _ _ (hresync _), State.when_word _ _ _ _ (State.raise_word _ _ _ _ hisr), State.word_flag_ne _ DPO_STATUS_FIT_FAIL _ _ hst]
  have hhpd (u : State) : (u.dpoHpd false).word a = u.word a := by
    unfold State.dpoHpd
    refine State.ite_word rfl ?_
    rw [State.emit_word, State.raise_word _ _ _ _ hisr, State.word_flag_ne _ DPO_STATUS_HPD_IN _ _ hst]
  have hlink (u : State) : (u.dpoLink false 0 0 false).word a = u.word a := by
    unfold State.dpoLink
    dsimp only
    rw [hrefit, State.word_wr_ne _ DPO_STATUS_RATE _ _ hst, State.word_wr_ne _ DPO_STATUS_LANES _ _ hst,
      State.word_flag_ne _ DPO_STATUS_FEC _ _ hst, State.modDp_word]
  unfold State.dpaltRelease
  refine State.ite_word rfl ?_
  dsimp only
  rw [hhpd, hlink, State.modDp_word, State.emit_word, State.raise_word _ _ _ _ hisr, State.word_wr_ne _ _ _ _ hmux]

/-- The registers of an unattached port. -/
def State.detachRegs (s : State) : State :=
  let s := ((s.wr SVC_TC_STATUS_STATE s.tcIdle).flag SVC_TC_STATUS_ATTACHED false).flag SVC_TC_STATUS_ORIENT false
  let s := ((s.wr SVC_VB_FLT_OVP 0).wr SVC_VB_FLT_OCP 0).wr SVC_VB_FLT_RCP 0
  ((s.wr SVC_SINK_LIMIT_MV 0).wr SVC_SINK_LIMIT_MA 0).wr SVC_TC_STATUS_RP_SEEN 0

/-- The port whose message store and transmission are gone. -/
def State.detachShown (s : State) : State :=
  (s.detachRegs.pdClear.when s.detachRegs.pdClear.svc.tx.isSome (·.txEnd 6)).modSvc (fun v => { v with sinkNg := false })

theorem State.svcDetach_eq (s : State) :
    s.svcDetach = (((s.detachShown.usbdUpdate).svcUpdate).raise 4 1).dpaltRelease.phyGone 0 := by
  simp only [State.svcDetach, State.detachShown, State.detachRegs]

theorem State.txEnd_rd (s : State) (r : Nat) {g : Fld} (hres : SVC_TX_STATUS_RESULT.apart g = true) (hisr : (PG_ISR 4).apart g = true) :
    (s.txEnd r).rd g = s.rd g := by
  rw [State.txEnd, State.rd_raise_apart _ _ _ _ hisr, State.modSvc_rd, State.rd_wr_apart _ _ _ _ hres]

theorem State.detachShown_rd (s : State) {g : Fld} (hstat : g.addr ≠ SVC_RX_STAT_VALID.addr) (hbuf : ∀ k < 8, g.addr ≠ (SVC_RX_BUF k).addr)
    (hres : SVC_TX_STATUS_RESULT.apart g = true) (hisr : (PG_ISR 4).apart g = true) : s.detachShown.rd g = s.detachRegs.rd g := by
  rw [State.detachShown, State.modSvc_rd, State.when_rd _ _ _ _ fun u => u.txEnd_rd 6 hres hisr, State.pdClear, State.showRx_rd _ hstat hbuf,
    State.modSvc_rd]

theorem State.pdClear_svc (s : State) : s.pdClear.svc.fifo = [] := by
  rw [State.pdClear, (State.showRx_follows (msk := 0) (Follows.refl 0 _)).parts .svc rfl, State.modSvc_svc]

theorem State.txEnd_svc (s : State) (r : Nat) : (s.txEnd r).svc.fifo = s.svc.fifo ∧ (s.txEnd r).svc.tx = none := by
  simp only [State.txEnd, State.raise_svc, State.modSvc_svc, State.wr_svc, and_self]

theorem State.detachShown_svc (s : State) : s.detachShown.svc.fifo = [] ∧ s.detachShown.svc.tx = none := by
  rw [State.detachShown]
  generalize s.detachRegs = u
  simp only [State.modSvc_svc]
  cases htx : u.pdClear.svc.tx with
  | none =>
    rw [Option.isSome_none, State.when_false]
    exact ⟨u.pdClear_svc, htx⟩
  | some x =>
    rw [Option.isSome_some, State.when_true, (State.txEnd_svc _ 6).1]
    exact ⟨u.pdClear_svc, (State.txEnd_svc _ 6).2⟩

/-- The registers of the port and the lower pages, as an update and the release of the Alternate Mode leave them. -/
theorem State.svcDetach_word (s : State) {a : Nat} (h : a / 0x1000 ≤ 4) :
    s.svcDetach.word a = (((s.detachShown.usbdUpdate).svcUpdate).raise 4 1).word a := by
  rw [State.svcDetach_eq, State.phyGone_word _ h, State.dpaltRelease_word _ (by omega)]

theorem State.svcDetach_rd (s : State) {g : Fld} (hpage : g.addr / 0x1000 ≤ 4) (hdead : SVC_TC_STATUS_DEAD_BATT.apart g = true)
    (hsnk : SVC_TC_STATUS_SNK_SW.apart g = true) (hsrc : SVC_TC_STATUS_SRC_SW.apart g = true) (hstat : g.addr ≠ SVC_RX_STAT_VALID.addr)
    (hbuf : ∀ k < 8, g.addr ≠ (SVC_RX_BUF k).addr) (hres : SVC_TX_STATUS_RESULT.apart g = true) (hisr : (PG_ISR 4).apart g = true) :
    s.svcDetach.rd g = s.detachRegs.rd g := by
  rw [State.rd_of_word (s.svcDetach_word hpage), State.rd_raise_apart _ _ _ _ hisr, State.svcUpdate_rd_apart _ hdead hsnk hsrc,
    State.rd_of_word (State.usbdUpdate_word _ (by omega)), State.detachShown_rd _ hstat hbuf hres hisr]

/-- An update changes the pulls shown and the mark of reduced power alone. -/
theorem State.svcUpdate_svc {α : Type} (s : State) (p : ServiceS → α) (hred : ∀ v : ServiceS, p { v with reduced := true } = p v)
    (hcc : ∀ (v : ServiceS) c, p { v with cc := c } = p v) : p s.svcUpdate.svc = p s.svc := by
  have hshow (u : State) : p u.ccShow.svc = p u.svc := by
    unfold State.ccShow
    generalize (u.svc.cc != u.ccPulls) = c
    cases c
    · rfl
    · rw [State.when_true, State.emit_svc, State.modSvc_svc, hcc]
  have hdead (u : State) (c : Bool) : p (u.when c (·.modSvc (fun v => { v with reduced := true }))).svc = p u.svc := by
    cases c
    · rfl
    · exact hred u.svc
  unfold State.svcUpdate
  dsimp only
  rw [hshow, State.flag_svc, State.flag_svc, hdead, State.flag_svc]

theorem State.svcDetach_svc (s : State) : s.svcDetach.svc.fifo = [] ∧ s.svcDetach.svc.tx = none := by
  obtain ⟨hfifo, htx⟩ := s.detachShown_svc
  have hrelease (u : State) : u.dpaltRelease.svc = u.svc := (State.dpaltRelease_follows (msk := 8194) rfl (Follows.refl _ u)).parts .svc rfl
  have hgone (u : State) : (u.phyGone 0).svc = u.svc := (State.phyGone_follows (msk := 21322) rfl 0 (Follows.refl _ u)).parts .svc rfl
  have husbd (u : State) : u.usbdUpdate.svc = u.svc := (State.usbdUpdate_follows (msk := 2) rfl (Follows.refl _ u)).parts .svc rfl
  rw [State.svcDetach_eq, hgone, hrelease, State.raise_svc, State.svcUpdate_svc _ ServiceS.fifo (fun _ => rfl) (fun _ _ => rfl),
    State.svcUpdate_svc _ ServiceS.tx (fun _ => rfl) (fun _ _ => rfl), husbd]
  exact ⟨hfifo, htx⟩

/-- The switches close in the attached states alone. -/
theorem State.svcUpdate_switches {s : State} (hsnk : s.tcState ≠ 3) (hsrc : s.tcState ≠ 6) :
    s.svcUpdate.on SVC_TC_STATUS_SNK_SW = false ∧ s.svcUpdate.on SVC_TC_STATUS_SRC_SW = false := by
  have hsnk' : (s.tcState == tcSnk) = false := beq_false_of_ne hsnk
  have hsrc' : (s.tcState == tcSrc) = false := beq_false_of_ne hsrc
  have hst (b : Bool) : (s.flag SVC_TC_STATUS_DEAD_BATT b).tcState = s.tcState := State.rd_flag_apart _ _ _ _ rfl
  have hst' (u : State) (b : Bool) : (u.flag SVC_TC_STATUS_SNK_SW b).tcState = u.tcState := State.rd_flag_apart _ _ _ _ rfl
  unfold State.svcUpdate
  simp only [hsnk', Bool.false_and, State.when_false, hst, hst', hsrc', State.on_of_word (State.ccShow_word _ _)]
  rw [State.on_flag_apart _ _ _ _ rfl, State.on_flag_one _ _ _ rfl, State.on_flag_one _ _ _ rfl]
  exact ⟨rfl, rfl⟩

theorem State.detachRegs_effect (s : State) : s.detachRegs.rd SVC_TC_STATUS_ATTACHED = 0 ∧ s.detachRegs.rd SVC_SINK_LIMIT_MA = 0 ∧
    s.detachRegs.tcState ≠ 3 ∧ s.detachRegs.tcState ≠ 6 ∧ s.detachRegs.rd SVC_VB_STATUS_VBUS = s.rd SVC_VB_STATUS_VBUS := by
  simp (disch := exact id rfl) only [State.detachRegs, State.tcState, State.rd_wr_apart, State.rd_flag_apart, State.rd_wr_fits, State.rd_flag_fits]
  refine ⟨rfl, rfl, ?_, ?_, trivial⟩ <;> unfold State.tcIdle <;> split <;> decide

theorem State.svcDetach_effect (s : State) : s.svcDetach.on SVC_TC_STATUS_ATTACHED = false ∧ s.svcDetach.rd SVC_SINK_LIMIT_MA = 0 ∧
    s.svcDetach.rd SVC_VB_STATUS_VBUS = s.rd SVC_VB_STATUS_VBUS ∧ s.svcDetach.on SVC_TC_STATUS_SNK_SW = false ∧
    s.svcDetach.on SVC_TC_STATUS_SRC_SW = false ∧ (s.svcDetach.word (PG_ISR 4).addr).getLsbD 1 = true := by
  obtain ⟨hatt, hma, hsnk, hsrc, hvbus⟩ := s.detachRegs_effect
  have hstate : s.detachShown.usbdUpdate.tcState = s.detachRegs.tcState := by
    rw [State.tcState, State.rd_of_word (State.usbdUpdate_word _ (by decide)), State.detachShown_rd _ (by decide) (by decide) rfl rfl,
      State.tcState]
  obtain ⟨hsnksw, hsrcsw⟩ := State.svcUpdate_switches (hstate ▸ hsnk) (hstate ▸ hsrc)
  have hsw {g : Fld} (hpage : g.addr / 0x1000 ≤ 4) (hisr : (PG_ISR 4).apart g = true) :
      s.svcDetach.on g = s.detachShown.usbdUpdate.svcUpdate.on g := by
    rw [State.on_of_word (s.svcDetach_word hpage), State.on_raise_apart _ _ _ _ hisr]
  refine ⟨State.on_of_rd_zero ?_, ?_, ?_, (hsw (by decide) rfl).trans hsnksw, (hsw (by decide) rfl).trans hsrcsw, ?_⟩
  · rw [State.svcDetach_rd _ (by decide) rfl rfl rfl (by decide) (by decide) rfl rfl, hatt]
  · rw [State.svcDetach_rd _ (by decide) rfl rfl rfl (by decide) (by decide) rfl rfl, hma]
  · rw [State.svcDetach_rd _ (by decide) rfl rfl rfl (by decide) (by decide) rfl rfl, hvbus]
  · rw [State.svcDetach_word _ (by decide)]
    exact State.raise_bit _ _ _ (by decide)

/-! ## Power-up of the bezel (R335) -/

theorem State.setDom_domOn_of_phase (s : State) (d : Nat) {v : DomSt} (h : v.phase = (s.dom d).phase) (e : Nat) :
    (s.setDom d v).domOn e = s.domOn e := by
  unfold State.domOn
  by_cases he : e = d
  · rw [he, State.setDom_dom_self, h]
  · rw [State.setDom_dom_ne _ _ he]

/-- A request ends no domain. -/
theorem State.domRequestOne_keepsOn (s : State) (d e : Nat) : (s.domRequestOne d).domOn e = s.domOn e := by
  unfold State.domRequestOne
  split
  · rfl
  · cases hph : (s.dom d).phase <;> dsimp only
    case off =>
      unfold State.domBegin State.domOn
      by_cases he : e = d
      · rw [he, State.setDom_dom_self, hph]
        split <;> rfl
      · rw [State.setDom_dom_ne _ _ he]
    case on => exact s.setDom_domOn_of_phase d (v := { s.dom d with offHeld := false }) rfl e
    case falling => exact s.setDom_domOn_of_phase d (v := { s.dom d with onPending := true }) rfl e

theorem State.domRequest_keepsOn (s : State) (d e : Nat) : (s.domRequest d).domOn e = s.domOn e := by
  rw [State.domRequest, State.domRequestOne_keepsOn]
  refine foldS_induct (P := fun t => t.domOn e = s.domOn e) rfl fun u x _ hu => ?_
  split
  · exact hu
  · rw [State.domRequestOne_keepsOn, hu]

theorem State.domOn_of_chip {s t : State} (h : t.chip = s.chip) (e : Nat) : t.domOn e = s.domOn e := by
  rw [State.domOn, State.dom_of_chip h, State.domOn]

theorem State.exitBegin_keepsOn (s : State) (e : Nat) : s.exitBegin.domOn e = s.domOn e := by
  have hresume (u : State) (n : Nat) : (u.resumeLink n).domOn e = u.domOn e :=
    State.domOn_of_chip ((State.resumeLink_follows (msk := 8) rfl n (Follows.refl _ u)).parts .chip rfl) e
  unfold State.exitBegin
  refine foldS_induct (P := fun t => t.domOn e = s.domOn e) ?_ fun u n _ hu => (hresume u n).trans hu
  exact foldS_induct (P := fun t => t.domOn e = s.domOn e) rfl fun u d _ hu => (u.domRequest_keepsOn d e).trans hu

theorem State.ite_keepsOn {c : Prop} [Decidable c] {s t u : State} {e : Nat} (ht : t.domOn e = s.domOn e) (hu : u.domOn e = s.domOn e) :
    (if c then t else u).domOn e = s.domOn e := by
  split
  · exact ht
  · exact hu

/-- A wake event ends no domain. -/
theorem State.wakeBy_keepsOn (s : State) (cause e : Nat) : (s.wakeBy cause).domOn e = s.domOn e := by
  have hstep (u : State) (n : Nat) : (u.enterStep n).domOn e = u.domOn e :=
    State.domOn_of_chip ((State.enterStep_follows (msk := 524288) rfl n (Follows.refl _ u)).parts .chip rfl) e
  have hhalt (u : State) : u.haltEnd.domOn e = u.domOn e :=
    State.domOn_of_chip ((State.haltEnd_follows (msk := 524288) rfl (Follows.refl _ u)).parts .chip rfl) e
  have hstep2 (u : State) (c : Bool) : (u.when c (·.enterStep 2)).domOn e = u.domOn e := by
    cases c
    · rfl
    · rw [State.when_true, hstep]
  have hhalt' (u : State) (c : Bool) : (u.when c (·.haltEnd)).domOn e = u.domOn e := by
    cases c
    · rfl
    · rw [State.when_true, hhalt]
  have hpend (u : State) (c : Bool) :
      (u.when c (fun s => { s with pwr := { s.pwr with wakePend := true } })).domOn e = u.domOn e := by
    cases c <;> rfl
  have hwoken (u : State) : ({ u with pwr := { u.pwr with woken := true, entryPending := false } } : State).domOn e = u.domOn e := rfl
  have hwr (u : State) (f : Fld) (v : Nat) : (u.wr f v).domOn e = u.domOn e := State.domOn_of_chip (State.wr_chip ..) e
  unfold State.wakeBy
  dsimp only
  refine State.ite_keepsOn ?_ (State.ite_keepsOn rfl (State.ite_keepsOn ?_ rfl))
  · rw [hpend, hhalt']
  · rw [State.domOn_of_chip (State.raise_chip ..), State.exitBegin_keepsOn, hwoken, hstep2, hwr, hwr]

/-- An attach ends no domain and keeps the part of the port's state that the pulls do not show. -/
theorem State.svcAttach_keepsOn (s : State) (src cc2 : Bool) (rp e : Nat) : (s.svcAttach src cc2 rp).domOn e = s.domOn e := by
  rw [State.svcAttach_eq, State.wakeBy_keepsOn, State.domOn_of_chip ((State.svcUpdate_follows (msk := 131072) rfl (Follows.refl _ _)).parts .chip rfl),
    State.domOn_of_chip (State.raise_chip ..), State.domOn_of_chip (State.incSat_chip ..),
    State.domOn_of_chip ((State.setDataRole_follows (msk := 21322) rfl src (Follows.refl _ _)).parts .chip rfl)]
  exact State.domOn_of_chip (by simp only [State.attachShown, State.wr_chip, State.flag_chip]) e

theorem State.svcAttach_up (s : State) (src cc2 : Bool) (rp : Nat) : (s.svcAttach src cc2 rp).svc.up = s.svc.up := by
  rw [State.svcAttach_eq, (State.wakeBy_follows (msk := 524315) rfl 3 (Follows.refl _ _)).parts .svc rfl,
    State.svcUpdate_svc _ ServiceS.up (fun _ => rfl) (fun _ _ => rfl), State.raise_svc, State.incSat_svc, State.setDataRole_svc]
  simp only [State.attachShown, State.wr_svc, State.flag_svc]

/-- A sink whose main supply is missing or not yet qualified runs on a dead battery (R338). -/
theorem State.svcUpdate_dead (s : State) : s.svcUpdate.on SVC_TC_STATUS_DEAD_BATT =
    (s.tcState == tcSnk && (!s.mainValid || (s.on SVC_TC_STATUS_DEAD_BATT && !s.on BZL_STATUS_PG))) := by
  unfold State.svcUpdate
  dsimp only
  rw [State.on_of_word (State.ccShow_word _ _), State.on_flag_apart _ _ _ _ rfl, State.on_flag_apart _ _ _ _ rfl, State.on,
    State.when_rd _ _ _ _ fun u => State.modSvc_rd ..]
  exact State.on_flag_one _ _ _ rfl

theorem State.powerRecord_svc (s : State) (page bit : Nat) : (s.powerRecord page bit).svc = s.svc :=
  (State.sysRecord_follows (msk := 2) rfl _ _ _ _ (Follows.refl 2 s)).parts .svc rfl

/-- The requests that follow a risen level (R337). -/
theorem State.levelRise_svc (s : State) (c : Bool) (l : List Nat) :
    (s.when c (foldS l (fun s d => s.domRequest d))).svc = s.svc := by
  cases c
  · rfl
  · rw [State.when_true]
    exact foldS_induct (P := fun t => t.svc = s.svc) rfl fun u d _ hu =>
      ((State.domRequest_follows (msk := 1) rfl d (Follows.refl 1 u)).parts .svc rfl).trans hu

/-- The chip as the bezel's power finds it. -/
def State.bezelUp (s : State) (v : Nat) : State :=
  let s := ((s.setDom 2 ⟨.on, false, false⟩).setDom 0 ⟨.on, false, false⟩).setDomainUp 2 true
  let s := { s with chip := { s.chip with d0Up := true } }
  let s := (s.modSvc (fun v => { v with up := true })).setLife 4 lifeOn
  (s.wr SVC_VB_STATUS_VBUS v).flag SVC_TC_STATUS_VBUS_OK (decide (v > 475))

theorem State.bezelUp_effect (s : State) (v : Nat) : (s.bezelUp v).svc.up = true ∧ (s.bezelUp v).domOn 2 = true ∧
    (s.bezelUp v).on SVC_TC_STATUS_VBUS_OK = decide (v > 475) := by
  have hup (u : State) : (u.setDomainUp 2 true).svc = u.svc ∧ (u.setDomainUp 2 true).chip = u.chip :=
    ⟨(State.setDomainUp_follows (msk := 0) 2 true (Follows.refl 0 u)).parts .svc rfl,
      (State.setDomainUp_follows (msk := 0) 2 true (Follows.refl 0 u)).parts .chip rfl⟩
  have hlife (u : State) : (u.setLife 4 lifeOn).svc = u.svc ∧ (u.setLife 4 lifeOn).chip = u.chip :=
    ⟨(State.setLife_follows (msk := 2) rfl 4 _ (Follows.refl 2 u)).parts .svc rfl,
      (State.setLife_follows (msk := 2) rfl 4 _ (Follows.refl 2 u)).parts .chip rfl⟩
  refine ⟨?_, ?_, State.on_flag_one _ _ _ rfl⟩
  · simp only [State.bezelUp, State.flag_svc, State.wr_svc, (hlife _).1, State.modSvc_svc]
  · have hd0 (u : State) : ({ u with chip := { u.chip with d0Up := true } } : State).domOn 2 = u.domOn 2 := rfl
    simp only [State.bezelUp]
    rw [State.domOn_of_chip (State.flag_chip ..), State.domOn_of_chip (State.wr_chip ..), State.domOn_of_chip (hlife _).2,
      State.domOn_of_chip (State.modSvc_chip ..), hd0, State.domOn_of_chip (hup _).2, State.domOn, State.setDom_dom_ne _ _ (by decide),
      State.setDom_dom_self]
    rfl

/-- Settles O43: each command by its condition, each effect by the fields that it writes. -/
theorem typeCAndLevelCommands : Obligations.TypeCAndLevelCommands := by
  refine ⟨fun s c rp v h2 hatt hst hrp hv hv' => ?_, fun s c v h2 hatt hst hmode => ?_, fun s h2 hmode hst => ?_,
    fun s v h2 hst hhold hv => ?_, fun s h2 hst => ?_, fun s rp h2 hst hrp => ?_, fun s v rp c hup hv hv' => ?_, fun s h2 hdead hlev => ?_,
    fun s h2 hdead hmain => ?_, fun s p e h hpol he => ?_, fun s p h hdead => ?_, fun s p v h hpol => ?_, fun s h2 => ?_,
    fun s p v h hpol he => ?_⟩
  · have hexec : exec (.ccAttach c rp v) s =
        .next (((s.wr SVC_VB_STATUS_VBUS v).flag SVC_TC_STATUS_VBUS_OK (decide (v > 475))).svcAttach false c (rp % 4)).ccShow := by
      refine congrArg Outcome.next (congrArg State.ccShow ((State.when_of s _ (by simp [h2, hatt])).trans ?_))
      simp (disch := exact id rfl) only [State.tcState, State.rd_flag_apart, State.rd_wr_apart]
      rw [if_pos hrp, if_pos (.inl hst), if_pos hv]
    obtain ⟨hstate, hon, hor, hrole, hdata, hseen⟩ :=
      ((s.wr SVC_VB_STATUS_VBUS v).flag SVC_TC_STATUS_VBUS_OK (decide (v > 475))).svcAttach_effect false c (rp % 4)
    refine ⟨_, hexec, ?_⟩
    simp only [State.rd_of_word (State.ccShow_word _ _), State.on_of_word (State.ccShow_word _ _), State.ccShow_word]
    exact ⟨hstate, hon, hor, hrole, hdata, hseen.trans (Nat.mod_mod _ 4), State.svcAttach_raised ..⟩
  · have hexec : exec (.ccAttach c 0 v) s =
        .next (((s.wr SVC_VB_STATUS_VBUS v).flag SVC_TC_STATUS_VBUS_OK (decide (v > 475))).svcAttach true c 0).ccShow := by
      refine congrArg Outcome.next (congrArg State.ccShow ((State.when_of s _ (by simp [h2, hatt])).trans ?_))
      simp (disch := exact id rfl) only [State.tcState, State.rd_flag_apart, State.rd_wr_apart]
      rw [if_neg (by simp), if_pos (.inl hst), if_neg (fun h => hmode h.1)]
    obtain ⟨hstate, hon, hor, hrole, hdata, -⟩ :=
      ((s.wr SVC_VB_STATUS_VBUS v).flag SVC_TC_STATUS_VBUS_OK (decide (v > 475))).svcAttach_effect true c 0
    refine ⟨_, hexec, ?_⟩
    simp only [State.rd_of_word (State.ccShow_word _ _), State.on_of_word (State.ccShow_word _ _)]
    exact ⟨hstate, hon, hor, hrole, hdata⟩
  · refine ⟨_, congrArg Outcome.next (State.when_of s _ (by rcases hst with h | h <;> simp [h2, hmode, h])), ?_, fun a ha => ?_⟩
    · rw [State.tcState, State.rd_of_word (State.ccShow_word _ _), State.rd_wr_fits _ _ _ rfl]
      split <;> rfl
    · rw [State.ccShow_word, State.word_wr_ne _ _ _ _ (List.ne_of_not_mem_cons ha)]
  · obtain ⟨hatt, hma, hvbus, hsnk, -, hisr⟩ := ((s.wr SVC_VB_STATUS_VBUS v).flag SVC_TC_STATUS_VBUS_OK false).svcDetach_effect
    obtain ⟨hfifo, htx⟩ := ((s.wr SVC_VB_STATUS_VBUS v).flag SVC_TC_STATUS_VBUS_OK false).svcDetach_svc
    refine ⟨_, congrArg Outcome.next (State.when_of s _ (by simp [h2, hst, tcSnk, hhold, hv])), hatt, hvbus.trans ?_, hma, hfifo, htx, hsnk, hisr⟩
    rw [State.rd_flag_apart _ _ _ _ rfl, State.rd_wr_fits _ _ _ rfl]
    exact Nat.mod_eq_of_lt (Nat.lt_trans hv (by decide))
  · obtain ⟨hatt, -, -, -, hsrc, hisr⟩ := s.svcDetach_effect
    obtain ⟨hfifo, htx⟩ := s.svcDetach_svc
    exact ⟨_, congrArg Outcome.next (State.when_of s _ (by simp [h2, hst, tcSrc])), hatt, hsrc, hfifo, htx, hisr⟩
  · refine ⟨_, congrArg Outcome.next (State.when_of s _ (by simp [h2, hst, tcSnk, hrp])), ?_, State.raise_bit _ _ _ (by decide)⟩
    rw [State.rd_raise_apart _ _ _ _ rfl, State.rd_wr_fits _ _ _ rfl]
    rfl
  · obtain ⟨hstate, hon, -⟩ := (s.bezelUp v).svcAttach_effect false c rp
    obtain ⟨hsvc, hdom, hok⟩ := s.bezelUp_effect v
    refine ⟨_, congrArg Outcome.next ((State.when_of s _ (by simp [hup])).trans (if_pos hv)),
      (State.svcAttach_up ..).trans hsvc, (State.svcAttach_keepsOn ..).trans hdom, hstate, hon, Eq.trans ?_ hok⟩
    rw [State.on, State.svcAttach_rd _ _ _ _ rfl rfl rfl rfl rfl rfl rfl rfl]
    simp (disch := exact id rfl) only [State.attachShown, State.rd_wr_apart, State.rd_flag_apart]
    rfl
  · refine ⟨_, congrArg Outcome.next ((State.when_of s _ (by simp [h2, hdead, Nat.ne_of_gt hlev])).trans (if_pos hlev)), ?_⟩
    dsimp only
    rw [State.levelRise_svc, State.powerRecord_svc, State.modSvc_svc]
  · refine ⟨_, congrArg Outcome.next (State.when_of s _ (by simp [h2, hdead, hmain])), ?_, ?_⟩
    · rw [State.svcUpdate_word _ (by decide)]
      exact State.raise_bit _ _ _ (by decide)
    · rw [State.svcUpdate_dead]
      have hstate : (s.raise 4 8).tcState = s.tcState := State.rd_raise_apart _ _ _ _ rfl
      have hvalid : (s.raise 4 8).mainValid = s.mainValid := by
        simp (disch := exact id rfl) only [State.mainValid, State.on_raise_apart]
      rw [hstate, hvalid, State.on_raise_apart _ _ _ _ rfl, State.on_raise_apart _ _ _ _ rfl, hdead, hmain]
      rfl
  · refine congrArg Outcome.next (State.writeOwn_accepted h ?_)
    rcases he with rfl | hdead
    · exact hpol
    · simp [hdead, hpol]
  · refine congrArg Outcome.next ((State.writeOwn_rejected h (by simp [hdead])).trans (by simp [hdead]))
  · exact congrArg Outcome.next (State.writeOwn_accepted h hpol)
  · exact ⟨_, congrArg Outcome.next (State.when_of s _ h2), State.on_flag_one _ _ _ rfl,
      fun a ha => State.word_flag_ne _ _ _ _ (List.ne_of_not_mem_cons ha)⟩
  · refine congrArg Outcome.next (State.writeOwn_accepted h ?_)
    rcases he with rfl | hdead
    · exact hpol
    · simp [hdead, hpol]

end Sys2Proof.Machine
end

section
/-!
PROOFS. The PD messages, the resets and the VBUS protection of the service port.
-/

namespace Sys2Proof.Machine

open Host (Outcome)

/-! ## The message store -/

theorem State.showRx_count (s : State) : s.showRx.rd SVC_RX_STAT_COUNT = s.svc.fifo.length % 8 := by
  unfold State.showRx
  dsimp only
  rw [foldS_wr_rd_apart _ _ fun k hk => Fld.apart_of_addr_ne (by simp only [SVC_RX_BUF, SVC_RX_STAT_COUNT]; omega)]
  rw [State.rd_wr_apart _ _ _ _ rfl, State.rd_wr_apart _ _ _ _ rfl, State.rd_wr_fits _ _ _ rfl]
  rfl

theorem State.showRx_svc (s : State) : s.showRx.svc = s.svc := (State.showRx_follows (msk := 0) (Follows.refl 0 s)).parts .svc rfl

theorem foldS_out {α : Type} {F : State → α → State} (xs : List α) (s : State) (hF : ∀ u x, (F u x).out = u.out) :
    (foldS xs F s).out = s.out :=
  foldS_induct (P := fun t => t.out = s.out) rfl fun u x _ hu => (hF u x).trans hu

theorem State.showRx_out (s : State) : s.showRx.out = s.out := by
  unfold State.showRx
  dsimp only
  rw [foldS_out _ _ fun u k => State.wr_out ..]
  simp only [State.wr_out, State.flag_out]

/-- What stands in the output stays there when an interrupt is raised. -/
theorem State.mem_raise_out {s : State} {o : Out} (p b : Nat) (h : o ∈ s.out) : o ∈ (s.raise p b).out :=
  (State.raise_follows (msk := 2) rfl p b (Follows.refl 2 s)).out.subset h

section Heard
variable {s : State} {k : Nat} {m : List Byte}

/-- A message that the port hears, before what it is. -/
theorem execPdMessageRx_heard (ok e : Bool) (h2 : s.domOn 2 = true) (hen : s.on SVC_PD_CTRL_RX_EN = true)
    (hatt : s.on SVC_TC_STATUS_ATTACHED = true) (hk : k < 3) (hsop : s.bit SVC_PD_CTRL_SOP_MASK k = true) (hlen : m.length ≤ 30)
    (htx : s.svc.tx = none) : exec (.pdMessageRx k m ok e) s = .next (if !ok then s.inc SVC_RX_CRC_ERR
      else if pdControl (leNat (m.take 2)) = 1 then s
      else
        let u := s.when (pdControl (leNat (m.take 2)) == 13)
          (·.modSvc (fun v => { v with lastRx := tdel v.lastRx k, txId := tdel v.txId k }))
        let id := bitsOf (leNat (m.take 2)) 11 9
        if tget? u.svc.lastRx k = some id then (u.emit (.pdTx k (u.goodCrc id))).inc SVC_RX_DUP
        else if u.svc.fifo.length ≥ 4 then (u.flag SVC_RX_STAT_OVF true).raise 4 7
        else ((u.emit (.pdTx k (u.goodCrc id))).modSvc (fun v =>
          { v with fifo := v.fifo ++ [(k, m)], lastRx := tset v.lastRx k id })).showRx.raise 4 2) := by
  refine congrArg Outcome.next ((State.when_of s _ (by simp [h2, hen, hatt, hk, hsop, hlen])).trans ?_)
  dsimp only
  rw [State.when_of_not s (State.txEnd · 4) (by simp [htx]), htx]

end Heard

/-! ## VBUS protection (R346, R347) -/

/-- What an update shows while a fault of VBUS is latched. -/
theorem State.svcUpdate_fault {s : State} (h : s.vbFault = true) :
    s.svcUpdate.on SVC_TC_STATUS_SNK_SW = false ∧ s.svcUpdate.on SVC_TC_STATUS_SRC_SW = false := by
  have hflag (u : State) (b : Bool) : (u.flag SVC_TC_STATUS_DEAD_BATT b).vbFault = u.vbFault ∧
      (u.flag SVC_TC_STATUS_SNK_SW b).vbFault = u.vbFault := by
    constructor <;> simp (disch := exact id rfl) only [State.vbFault, State.on_flag_apart]
  have hwhen (u : State) (c : Bool) : (u.when c (·.modSvc (fun v => { v with reduced := true }))).vbFault = u.vbFault := by
    cases c <;> rfl
  unfold State.svcUpdate
  simp only [(hflag _ _).1, (hflag _ _).2, hwhen, h, Bool.not_true, Bool.and_false, Bool.false_and, State.on_of_word (State.ccShow_word _ _)]
  rw [State.on_flag_apart _ _ _ _ rfl, State.on_flag_one _ _ _ rfl, State.on_flag_one _ _ _ rfl]
  exact ⟨rfl, rfl⟩

/-- The faults that the conditions latch. -/
def State.vbLatched (s : State) : State :=
  ((s.when s.vbCond.1 (·.wr SVC_VB_FLT_OVP 1)).when s.vbCond.2.1 (·.wr SVC_VB_FLT_OCP 1)).when s.vbCond.2.2 (·.wr SVC_VB_FLT_RCP 1)

theorem State.vbLatched_rd (s : State) {g : Fld} (h : g.addr ≠ SVC_VB_FLT_OVP.addr) : s.vbLatched.rd g = s.rd g := by
  simp only [State.vbLatched, State.rd_when, State.rd_wr_ne _ SVC_VB_FLT_OVP _ _ h, State.rd_wr_ne _ SVC_VB_FLT_OCP _ _ h,
    State.rd_wr_ne _ SVC_VB_FLT_RCP _ _ h, ite_self]

theorem State.vbLatched_ovp {s : State} (h : s.vbCond.1 = true) : s.vbLatched.on SVC_VB_FLT_OVP = true := by
  rw [State.on_iff_rd]
  simp (disch := exact id rfl) only [State.vbLatched, State.rd_when, State.rd_wr_apart, ite_self, h, State.rd_wr_fits, if_true]
  rfl

theorem State.vbProtect_eq (s : State) : s.vbProtect = s.vbLatched.when
    ((s.vbCond.1 && !s.on SVC_VB_FLT_OVP) || (s.vbCond.2.1 && !s.on SVC_VB_FLT_OCP) || (s.vbCond.2.2 && !s.on SVC_VB_FLT_RCP))
    (fun s => (s.raise 4 5).svcUpdate) := rfl

theorem State.protected_rd (s : State) {g : Fld} (hsvc : g.addr ≠ SVC_TC_STATUS_STATE.addr) (hisr : (PG_ISR 4).apart g = true) (c : Bool) :
    (s.when c (fun s => (s.raise 4 5).svcUpdate)).rd g = s.rd g :=
  State.when_rd _ _ _ _ fun _ => (State.svcUpdate_rd _ hsvc).trans (State.rd_raise_apart _ _ _ _ hisr)

theorem State.vbProtect_over {s : State} (h : s.vbCond.1 = true) : s.vbProtect.rd SVC_VB_STATUS_VBUS = s.rd SVC_VB_STATUS_VBUS ∧
    s.vbProtect.on SVC_VB_FLT_OVP = true ∧ (s.on SVC_VB_FLT_OVP = false → s.vbProtect.on SVC_TC_STATUS_SNK_SW = false ∧
      s.vbProtect.on SVC_TC_STATUS_SRC_SW = false ∧ (s.vbProtect.word (PG_ISR 4).addr).getLsbD 5 = true) := by
  rw [State.vbProtect_eq]
  refine ⟨?_, ?_, fun hnew => ?_⟩
  · rw [State.protected_rd _ (by decide) rfl, State.vbLatched_rd _ (by decide)]
  · rw [State.on, State.protected_rd _ (by decide) rfl]
    exact State.vbLatched_ovp h
  · rw [State.when_of _ _ (by simp [h, hnew])]
    have hfault : (s.vbLatched.raise 4 5).vbFault = true := by
      simp (disch := exact id rfl) only [State.vbFault, State.on_raise_apart, State.vbLatched_ovp h, Bool.true_or]
    refine ⟨(State.svcUpdate_fault hfault).1, (State.svcUpdate_fault hfault).2, ?_⟩
    rw [State.svcUpdate_word _ (by decide)]
    exact State.raise_bit _ _ _ (by decide)

theorem State.vbCond_over {s : State} (h : s.rd SVC_VB_CFG_OVP_THR * 10 < s.rd SVC_VB_STATUS_VBUS) : s.vbCond.1 = true :=
  decide_eq_true h

/-! ## A hard reset (R343) -/

theorem State.pdClear_part {α : Type} (s : State) (p : ServiceS → α) (h : ∀ v : ServiceS, p { v with fifo := [], lastRx := [], txId := [] } = p v) :
    p s.pdClear.svc = p s.svc := by
  rw [State.pdClear, State.showRx_svc, State.modSvc_svc, h]

theorem State.pdClear_empty (s : State) : s.pdClear.svc.fifo = [] ∧ s.pdClear.svc.lastRx = [] ∧ s.pdClear.svc.txId = [] := by
  simp only [State.pdClear, State.showRx_svc, State.modSvc_svc, and_self]

theorem State.txGone (s : State) (r : Nat) : (s.when s.svc.tx.isSome (·.txEnd r)).svc.tx = none := by
  cases htx : s.svc.tx with
  | none => exact htx
  | some x =>
    rw [Option.isSome_some, State.when_true]
    exact (State.txEnd_svc s r).2

/-- Settles O44: each command by its condition, each effect by the parts that it changes. -/
theorem pdAndVbusCommands : Obligations.PdAndVbusCommands := by
  refine ⟨fun s k m e h => ?_, fun s k m e h h1 h13 hid hlen => ?_, fun s k m e h h1 h13 hid => ?_, fun s p h => ?_,
    fun s p v h hbad hpol hres => ?_, fun s p v h hbad hres => ?_, fun s p v h hbad => ?_, fun s k m hca htx => ?_,
    fun s k m hca htx hatt => ?_, fun s k m hca htx hatt => ?_, fun s h2 hatt => ?_, fun s p h hpol => ?_, fun s p h hpol => ?_,
    fun s v m h2 hv hthr => ?_, fun s p h hpol hcond => ?_, fun s p v h hbad => ?_, fun s p v h hbad => ?_⟩
  · obtain ⟨h2, hen, hatt, hk, hsop, hlen, htx⟩ := h
    exact execPdMessageRx_heard false e h2 hen hatt hk hsop hlen htx
  · obtain ⟨h2, hen, hatt, hk, hsop, hle, htx⟩ := h
    have hexec := execPdMessageRx_heard true e h2 hen hatt hk hsop hle htx
    rw [State.when_of_not _ _ (beq_false_of_ne h13), if_neg (by decide), if_neg h1] at hexec
    dsimp only at hexec
    rw [if_neg hid, if_neg (Nat.not_le.2 hlen)] at hexec
    refine ⟨_, hexec, ?_, ?_, ?_, State.raise_bit _ _ _ (by decide)⟩
    · rw [State.raise_svc, State.showRx_svc, State.modSvc_svc, State.emit_svc]
    · refine State.mem_raise_out _ _ ?_
      rw [State.showRx_out, State.modSvc_out, State.emit_out]
      exact List.mem_append_right _ List.mem_cons_self
    · rw [State.rd_raise_apart _ _ _ _ rfl, State.showRx_count, State.modSvc_svc, State.emit_svc, List.length_append]
      exact Nat.mod_eq_of_lt (by simp only [List.length_cons, List.length_nil]; omega)
  · obtain ⟨h2, hen, hatt, hk, hsop, hle, htx⟩ := h
    have hexec := execPdMessageRx_heard true e h2 hen hatt hk hsop hle htx
    rw [State.when_of_not _ _ (beq_false_of_ne h13), if_neg (by decide), if_neg h1] at hexec
    dsimp only at hexec
    rwa [if_pos hid] at hexec
  · exact congrArg Outcome.next (State.readOwn_reaches h)
  · exact congrArg Outcome.next (State.writeOwn_accepted h (by simp [hbad, hpol, hres]))
  · exact congrArg Outcome.next ((State.writeOwn_rejected h (by simp [hbad, hres])).trans (by simp [hbad, hres]))
  · exact congrArg Outcome.next ((State.writeOwn_rejected h (by simp [hbad])).trans (by simp [hbad]))
  · refine ⟨_, congrArg Outcome.next (State.when_of s _ hca), ?_⟩
    simp [State.pdTransmit, htx]
  · refine ⟨_, congrArg Outcome.next ((State.when_of s _ (by simp [hca, htx])).trans (if_pos hatt)), ?_⟩
    simp [State.pdTransmit, htx]
  · refine ⟨_, congrArg Outcome.next ((State.when_of s _ (by simp [hca, htx])).trans (if_neg (Nat.not_le.2 hatt))),
      (State.txEnd_svc _ 3).2, ?_, State.raise_bit _ _ _ (by decide)⟩
    rw [State.txEnd, State.rd_raise_apart _ _ _ _ rfl, State.modSvc_rd, State.rd_wr_fits _ _ _ rfl]
    rfl
  · obtain ⟨hfifo, hlast, hid⟩ := (s.when s.svc.tx.isSome (·.txEnd 7)).pdClear_empty
    refine ⟨_, congrArg Outcome.next (State.when_of s _ (by simp [h2, hatt])), ?_, ?_, ?_, ?_, State.raise_bit _ _ _ (by decide)⟩ <;>
      rw [State.raise_svc, State.incSat_svc]
    · exact hfifo
    · rw [State.pdClear_part _ ServiceS.tx fun _ => rfl]
      exact s.txGone 7
    · exact hid
    · exact hlast
  · exact congrArg Outcome.next (State.runCmd_accepted (c := cmdHardReset p) h rfl hpol rfl)
  · exact congrArg Outcome.next (State.runCmd_accepted (c := cmdCableReset p) h rfl hpol rfl)
  · have hrd (g : Fld) (hvbus : SVC_VB_STATUS_VBUS.addr ≠ g.addr) (hok : SVC_TC_STATUS_VBUS_OK.addr ≠ g.addr) :
        (((s.wr SVC_VB_STATUS_VBUS v).wr SVC_VB_STATUS_MA (m % 65536).toNat).flag SVC_TC_STATUS_VBUS_OK (decide (v > 475))).rd g = s.rd g := by
      rw [State.rd_flag_ne _ _ _ _ hok.symm, State.rd_wr_ne _ SVC_VB_STATUS_MA _ _ hvbus.symm, State.rd_wr_ne _ _ _ _ hvbus.symm]
    have hvbus : (((s.wr SVC_VB_STATUS_VBUS v).wr SVC_VB_STATUS_MA (m % 65536).toNat).flag SVC_TC_STATUS_VBUS_OK (decide (v > 475))).rd
        SVC_VB_STATUS_VBUS = v := by
      rw [State.rd_flag_apart _ _ _ _ rfl, State.rd_wr_apart _ _ _ _ rfl, State.rd_wr_fits _ _ _ rfl]
      exact Nat.mod_eq_of_lt hv
    obtain ⟨hkept, hovp, hnew⟩ := State.vbProtect_over (State.vbCond_over (by rw [hvbus, hrd _ (by decide) (by decide)]; exact hthr))
    refine ⟨_, congrArg Outcome.next (State.when_of s _ h2), hkept.trans hvbus, hovp, fun h => hnew ?_⟩
    rw [State.on, hrd _ (by decide) (by decide)]
    exact h
  · exact congrArg Outcome.next (State.runCmd_accepted (c := cmdVbClear p) h rfl (by simp [cmdVbClear, hcond, hpol]) rfl)
  · exact congrArg Outcome.next (State.writeOwn_accepted h (by simp [hbad]))
  · exact congrArg Outcome.next ((State.writeOwn_rejected h (by simp [hbad])).trans (by simp [hbad]))

end Sys2Proof.Machine
end

section
/-!
PROOFS. The idle links, the power-state ladder, the wake events and the domains on demand.
-/

namespace Sys2Proof.Machine

open Host (Outcome)

/-! ## Operations on the links' idle state -/

/-- A raised bit stays set when another one is raised. -/
theorem State.raise_keepsBit {s : State} {p k : Nat} (b : Nat) (h : (s.word (PG_ISR p).addr).getLsbD k = true) :
    ((s.raise p b).word (PG_ISR p).addr).getLsbD k = true := by
  unfold State.raise
  rw [State.raiseMask_isr, BitVec.getLsbD_or, h, Bool.true_or]

theorem State.word_incSat_ne (s : State) (f : Fld) (a : Nat) (h : a ≠ f.addr) : (s.incSat f).word a = s.word a := State.word_wr_ne s f _ a h

@[simp] theorem State.modPw_port (s : State) (n : Nat) (f : LinkIdle → LinkIdle) : ((s.modPw n f).port n).pw = f (s.port n).pw := by
  rw [State.modPw, State.modPort_port]

@[simp] theorem State.modPw_ep (s : State) (n : Nat) (f : LinkIdle → LinkIdle) : (s.modPw n f).ep n = s.ep n := by
  rw [State.ep, State.modPw, State.modPort_port, State.ep]

@[simp] theorem State.queueUnit_pw (s : State) (n : Nat) (u : CtlUnit) : ((s.queueUnit n u).port n).pw = (s.port n).pw := by
  rw [State.queueUnit, State.modEp, State.modPort_port]

@[simp] theorem State.queueUnit_ep (s : State) (n : Nat) (u : CtlUnit) : ((s.queueUnit n u).ep n).units = (s.ep n).units ++ [u] := by
  rw [State.ep, State.queueUnit, State.modEp, State.modPort_port, State.ep]

@[simp] theorem State.queueUnit_word (s : State) (n : Nat) (u : CtlUnit) (a : Nat) : (s.queueUnit n u).word a = s.word a := State.modEp_word ..

@[simp] theorem State.sendIdleReq_word (s : State) (n power cycle a : Nat) : (s.sendIdleReq n power cycle).word a = s.word a := by
  rw [State.sendIdleReq, State.modPw_word, State.queueUnit_word]

@[simp] theorem State.entryDropped_word (s : State) (a : Nat) : s.entryDropped.word a = s.word a := by
  rw [State.entryDropped, foldS_word _ _ _ fun u n => by rw [State.resumeLink_word, State.modPw_word], State.modPwr_word]

theorem foldS_pwr {α : Type} {F : State → α → State} (xs : List α) (s : State) (hF : ∀ u x, (F u x).pwr = u.pwr) :
    (foldS xs F s).pwr = s.pwr :=
  foldS_induct (P := fun t => t.pwr = s.pwr) rfl fun u x _ hu => (hF u x).trans hu

theorem State.resumeLink_pwr (s : State) (n : Nat) : (s.resumeLink n).pwr = s.pwr :=
  (State.resumeLink_follows (msk := 8) rfl n (Follows.refl 8 s)).parts .pwr rfl

theorem State.entryDropped_pending (s : State) : s.entryDropped.pwr.entryPending = false := by
  rw [State.entryDropped, foldS_pwr _ _ fun u n => by rw [State.resumeLink_pwr, State.modPw_pwr], State.modPwr_pwr]

@[simp] theorem State.suspendLinks_word (s : State) (t a : Nat) : (s.suspendLinks t).word a = s.word a :=
  foldS_word _ _ _ fun u n => State.when_word _ _ _ _ (by simp)

theorem State.suspendLinks_pwr (s : State) (t : Nat) : (s.suspendLinks t).pwr = s.pwr :=
  (State.suspendLinks_follows (msk := 8) rfl t (Follows.refl 8 s)).parts .pwr rfl

@[simp] theorem State.lull_word (s : State) (n a : Nat) : (s.lull n).word a = s.word a := State.when_word _ _ _ _ (by simp)

/-- A request of a core voltage writes page PMB alone. -/
theorem State.vRequest_word (s : State) (code : Nat) {a : Nat} (h : a / 0x1000 ≠ 2) : (s.vRequest code).word a = s.word a := by
  have hst : a ≠ PMB_VSTAT_BUSY.addr := fun he => h (he ▸ rfl)
  have hcnt : a ≠ PMB_CNT_REQUESTS.addr := fun he => h (he ▸ rfl)
  unfold State.vRequest
  refine State.ite_word (State.modPwr_word ..) ?_
  dsimp only
  rw [State.voutWrite, State.emit_word, State.modPwr_word, State.word_wr_ne _ PMB_VSTAT_ATTEMPTS _ _ hst, State.word_flag_ne _ _ _ _ hst,
    State.word_wr_ne _ PMB_VSTAT_VTARGET _ _ hst, State.word_incSat_ne _ _ _ hcnt]

/-! ## Wake events (R352) -/

/-- A chip asleep that a cause wakes, before its exit begins. -/
def State.woken (s : State) (c : Nat) : State :=
  (((s.wr PWR_PS_STATUS_WAKE_CAUSE c).wr PWR_PS_CTRL_TARGET 0).when (s.rd PWR_PS_STATUS_STATE == 5) (·.enterStep 2)).modPwr
    (fun p => { p with woken := true, entryPending := false })

theorem State.wakeBy_eq (s : State) (c : Nat) : s.wakeBy c =
    if s.rd PWR_PS_STATUS_STATE = 0 then
      (s.when (s.on BOOT_STATUS_HALT && (c == 5 || c == 7)) (·.haltEnd)).when
        ((s.when (s.on BOOT_STATUS_HALT && (c == 5 || c == 7)) (·.haltEnd)).pwr.entryPending &&
          wakeEnabled (s.when (s.on BOOT_STATUS_HALT && (c == 5 || c == 7)) (·.haltEnd)) c)
        (·.modPwr (fun p => { p with wakePend := true }))
    else if s.pwr.exiting then s
    else if (if s.rd PWR_PS_STATUS_STATE = 5 then c == 5 || c == 7 || c == 8 else wakeEnabled s c) then (s.woken c).exitBegin.raise 1 2
    else s := by
  simp only [State.wakeBy, State.woken, State.modPwr]

theorem State.woken_rd_apart (s : State) (c : Nat) {g : Fld} (hcause : PWR_PS_STATUS_WAKE_CAUSE.apart g = true)
    (ht : PWR_PS_CTRL_TARGET.apart g = true) (h10 : g.addr / 0x1000 ≠ 10) : (s.woken c).rd g = s.rd g := by
  rw [State.woken, State.modPwr_rd, State.when_rd _ _ _ _ fun v => State.rd_of_word (v.enterStep_word 2 h10),
    State.rd_wr_apart _ _ _ _ ht, State.rd_wr_apart _ _ _ _ hcause]

/-- What a wake event leaves of page PWR. -/
theorem State.wakeBy_rd_apart (s : State) (c : Nat) {g : Fld} (hcause : PWR_PS_STATUS_WAKE_CAUSE.apart g = true)
    (ht : PWR_PS_CTRL_TARGET.apart g = true) (hisr : (PG_ISR 1).apart g = true) (h10 : g.addr / 0x1000 ≠ 10) :
    (s.wakeBy c).rd g = s.rd g := by
  rw [State.wakeBy_eq]
  split
  · rw [State.when_rd _ _ _ _ fun _ => State.modPwr_rd .., State.when_rd _ _ _ _ fun v => State.rd_of_word (v.haltEnd_word h10)]
  · simp only [apply_ite (State.rd · g)]
    rw [State.rd_raise_apart _ _ _ _ hisr, State.rd_of_word (State.exitBegin_word _ _), State.woken_rd_apart _ _ hcause ht h10]
    simp only [ite_self]

/-- A wake event raises its bit and clears none. -/
theorem State.wakeBy_keepsBit {s : State} (c : Nat) {k : Nat} (h : (s.word (PG_ISR 1).addr).getLsbD k = true) :
    ((s.wakeBy c).word (PG_ISR 1).addr).getLsbD k = true := by
  have hcause : (PG_ISR 1).addr ≠ PWR_PS_STATUS_WAKE_CAUSE.addr := by decide
  have ht : (PG_ISR 1).addr ≠ PWR_PS_CTRL_TARGET.addr := by decide
  have hwoken : (s.woken c).exitBegin.word (PG_ISR 1).addr = s.word (PG_ISR 1).addr := by
    rw [State.exitBegin_word, State.woken, State.modPwr_word, State.when_word _ _ _ _ (State.enterStep_word _ 2 (by decide)),
      State.word_wr_ne _ _ _ _ ht, State.word_wr_ne _ _ _ _ hcause]
  rw [State.wakeBy_eq]
  split
  · rw [State.when_word _ _ _ _ (State.modPwr_word ..), State.when_word _ _ _ _ (State.haltEnd_word _ (by decide))]
    exact h
  · split
    · exact h
    · refine iteInduction (motive := fun t : State => (t.word (PG_ISR 1).addr).getLsbD k = true) (fun _ => ?_) fun _ => h
      exact State.raise_keepsBit 2 (by rw [hwoken]; exact h)

theorem State.exitBegin_pwr (s : State) : s.exitBegin.pwr = { s.pwr with exiting := true } := by
  unfold State.exitBegin
  rw [foldS_pwr _ _ fun u n => u.resumeLink_pwr n]
  dsimp only
  rw [foldS_pwr _ _ fun u d => (State.domRequest_follows (msk := 1) rfl d (Follows.refl 1 u)).parts .pwr rfl]

/-- A cause that is enabled starts the exit from S3 (R352). -/
theorem State.wakeBy_exits {s : State} {c : Nat} (h3 : s.rd PWR_PS_STATUS_STATE = 3) (hex : s.pwr.exiting = false)
    (hen : wakeEnabled s c = true) : s.wakeBy c = (s.woken c).exitBegin.raise 1 2 := by
  rw [State.wakeBy_eq, if_neg (by rw [h3]; decide), if_neg (by simp [hex]), if_pos (by rw [h3]; exact hen)]

/-! ## States of the ladder -/

/-- S1 is entered at once (R350). -/
theorem State.enterState_one (s : State) : (s.enterState 1).rd PWR_PS_STATUS_STATE = 1 ∧ (s.enterState 1).rd PWR_PS_STATUS_RESULT = 1 ∧
    ((s.enterState 1).word (PG_ISR 1).addr).getLsbD 0 = true := by
  have hlull (u : State) (a : Nat) : (foldS [0, 1, 2] (fun s n => s.lull n) u).word a = u.word a := foldS_word _ _ _ fun v n => v.lull_word n a
  unfold State.enterState
  dsimp only
  rw [if_pos rfl, State.rd_of_word (hlull _ _), State.rd_of_word (hlull _ _), hlull, State.rd_raise_apart _ _ _ _ rfl,
    State.rd_raise_apart _ _ _ _ rfl]
  refine ⟨?_, ?_, State.raise_bit _ _ _ (by decide)⟩
  · rw [State.rd_wr_apart _ _ _ _ rfl, State.rd_wr_apart _ _ _ _ rfl, State.rd_wr_fits _ _ _ rfl]
    rfl
  · rw [State.rd_wr_apart _ _ _ _ rfl, State.rd_wr_fits _ _ _ rfl]
    rfl

theorem execAlarmFire_due {s : State} (harm : s.on PWR_ALARM_CTRL_ARM = true)
    (hnow : s.rd PWR_ALARM_S * 1000000000 + s.rd PWR_ALARM_NS ≤ s.now) :
    exec .alarmFire s = .next (((s.flag PWR_ALARM_CTRL_ARM false).raise 1 4).wakeBy 6) := by
  change execAlarmFire s = _
  rw [execAlarmFire, decide_eq_true hnow, harm]
  rfl

theorem execLinkResume_ok {s : State} {n : Nat} (hn : s.native n = true) (hsus : (s.port n).pw.suspended = true)
    (hres : (s.port n).pw.resuming = true) (hdom : s.domOn (6 + n) = true) (hcur : (s.lk n).cur = none)
    (hst : s.rd PWR_PS_STATUS_STATE ≠ 1) :
    exec (.linkResume n true) s = .next (s.modPw n (fun w => { w with suspended := false, resuming := false })) := by
  change execLinkResume n true s = _
  rw [execLinkResume, State.when_of _ _ (by simp [hn, hsus, hres, hdom]), hcur]
  dsimp only [Option.any_none]
  rw [if_neg (by decide), if_neg (by decide), State.when_of_not _ _ (beq_false_of_ne hst), done]

theorem execLinkResume_lost {s : State} {n : Nat} (hn : s.native n = true) (hsus : (s.port n).pw.suspended = true)
    (hres : (s.port n).pw.resuming = true) :
    exec (.linkResume n false) s = .next (s.linkDown n 4) := by
  change execLinkResume n false s = _
  rw [execLinkResume, State.when_of _ _ (by simp [hn, hsus, hres])]
  rfl

/-- An entry that does not begin in time (R350). -/
def State.entryBlocked (s : State) : State :=
  let s := s.wr PWR_PS_STATUS_BLOCK (s.entryBlock (s.rd PWR_PS_CTRL_TARGET))
  (((s.wr PWR_PS_STATUS_RESULT 2).wr PWR_PS_CTRL_TARGET (s.rd PWR_PS_STATUS_STATE)).incSat PWR_PS_CNT_BLOCKED).raise 1 1

theorem State.entryBlocked_effect (s : State) : s.entryBlocked.rd PWR_PS_STATUS_RESULT = 2 ∧
    s.entryBlocked.rd PWR_PS_CTRL_TARGET = s.rd PWR_PS_STATUS_STATE ∧ s.entryBlocked.rd PWR_PS_STATUS_STATE = s.rd PWR_PS_STATUS_STATE := by
  have hst : s.rd PWR_PS_STATUS_STATE < 8 := s.rd_lt _
  simp (disch := exact id rfl) only [State.entryBlocked, State.rd_raise_apart, State.rd_incSat_apart, State.rd_wr_apart, State.rd_wr_fits]
  exact ⟨rfl, Nat.mod_eq_of_lt hst, trivial⟩

/-- The state that an exit leaves, before what S3 and S4 ask of the core voltage. -/
def State.exited (s : State) : State :=
  let s := (s.wr PWR_PS_STATUS_RESULT (if s.pwr.woken then 3 else 1)).modPwr (fun p => { p with exiting := false, woken := false, wakePend := false })
  let s := ((s.wr PWR_PS_STATUS_STATE 0).incSat PWR_PS_CNT_WAKES).raise 1 0
  foldS [0, 1, 2] (fun s n => s.modPw n (fun w => { w with idle := false })) s

theorem State.exited_effect (s : State) : s.exited.pwr.exiting = false ∧ s.exited.rd PWR_PS_STATUS_STATE = 0 ∧
    s.exited.rd PWR_PS_STATUS_RESULT = (if s.pwr.woken then 3 else 1) ∧ (s.exited.word (PG_ISR 1).addr).getLsbD 0 = true := by
  have hidle (u : State) (a : Nat) : (foldS [0, 1, 2] (fun s n => s.modPw n (fun w => { w with idle := false })) u).word a = u.word a :=
    foldS_word _ _ _ fun v n => State.modPw_word ..
  simp only [State.exited]
  rw [foldS_pwr _ _ fun u n => State.modPw_pwr .., State.rd_of_word (hidle _ _), State.rd_of_word (hidle _ _), hidle]
  refine ⟨by simp, ?_, ?_, State.raise_bit _ _ _ (by decide)⟩
  · rw [State.rd_raise_apart _ _ _ _ rfl, State.rd_incSat_apart _ _ _ rfl, State.rd_wr_fits _ _ _ rfl]
    rfl
  · rw [State.rd_raise_apart _ _ _ _ rfl, State.rd_incSat_apart _ _ _ rfl, State.rd_wr_apart _ _ _ _ rfl, State.modPwr_rd,
      State.rd_wr_fits _ _ _ rfl]
    split <;> rfl

theorem State.vRequest_exiting (s : State) (code : Nat) : (s.vRequest code).pwr.exiting = s.pwr.exiting := by
  unfold State.vRequest
  split
  · rfl
  · simp only [State.voutWrite, State.emit_pwr, State.modPwr_pwr, State.wr_pwr, State.flag_pwr, State.incSat_pwr]

/-- What the request of the former voltage leaves. -/
theorem State.exited_request (s : State) (c : Bool) (v : Nat) : (s.when c (·.vRequest v)).pwr.exiting = s.pwr.exiting ∧
    ∀ a, a / 0x1000 ≠ 2 → (s.when c (·.vRequest v)).word a = s.word a := by
  cases c
  · exact ⟨rfl, fun _ _ => rfl⟩
  · rw [State.when_true]
    exact ⟨s.vRequest_exiting v, fun a ha => s.vRequest_word v ha⟩

theorem execEntryTimeout_waiting {s : State} (h : s.pwr.entryPending = true) : exec .entryTimeout s = .next s.entryBlocked.entryDropped := by
  change execEntryTimeout s = _
  simp only [execEntryTimeout, State.when_of _ _ h, done, State.entryBlocked]

theorem execStateExitComplete_awake {s : State} (hex : s.pwr.exiting = true) (hall : s.pwr.domsAtEntry.all s.domOn = true)
    (ht : s.rd PWR_PS_CTRL_TARGET = 0) : exec .stateExitComplete s =
      .next (s.exited.when (s.rd PWR_PS_STATUS_STATE == 3 || s.rd PWR_PS_STATUS_STATE == 4) (·.vRequest s.exited.pwr.vBefore)) := by
  change execStateExitComplete s = _
  simp only [execStateExitComplete, hex, hall, Bool.and_self, State.when_true, ht, bne_self_eq_false, State.when_false, done, State.exited]

/-- Settles O45: each command by its condition, each effect by the parts that it changes. -/
theorem linkIdleAndLadderCommands : Obligations.LinkIdleAndLadderCommands := by
  refine ⟨fun s n hn hus hq hid hsus => ?_, fun s n w c hn hw hbusy => ?_, fun s n w c hn hw hbusy => ?_, fun s n w c hn hw hq => ?_,
    fun s n w c x hn hreq hx => ?_, fun s n c hn happ hge => ?_, fun s n hn hsus hres hdom hcur hst => ?_, fun s n hn hsus hres => ?_,
    fun s p t h ht => ?_, fun s p t h ht => ?_, fun s hent => ?_, fun s hex hall ht => ?_, fun s c h1 h9 => ?_, fun s => rfl,
    fun s harm hnow => ?_, fun s c h4 hc hline => ?_, fun s d h3 h15 hst hon hkeep hc3 hc11 hc13 hc14 hc15 hfun => ?_,
    fun s c h3 hex hen hc => ?_, fun s t h2 h5 hst hex => ?_, fun s hst hex => ?_, fun s hent hex => ?_⟩
  · refine ⟨_, congrArg Outcome.next (State.when_of s _ (by simp [hn, hus, hq, hid, hsus])), ?_, ?_, fun a _ => State.sendIdleReq_word ..⟩
    · rw [State.sendIdleReq, State.modPw_port]
    · rw [State.sendIdleReq, State.modPw_ep, State.queueUnit_ep]
  · refine ⟨_, congrArg Outcome.next ((State.when_of s _ hn).trans ((if_pos hw).trans (if_neg (by simp [hbusy])))), ?_, fun a _ => ?_⟩
    · rw [State.modPw_port]
    · rw [State.modPw_word, State.queueUnit_word]
  · exact congrArg Outcome.next ((State.when_of s _ hn).trans ((if_pos hw).trans (if_pos hbusy)))
  · exact ⟨_, congrArg Outcome.next ((State.when_of s _ hn).trans ((if_neg (Nat.not_le.2 hw)).trans (if_neg (by simp [hq])))),
      by rw [State.modPw_port], fun a _ => State.modPw_word ..⟩
  · have hexec : exec (.idleAck n w c) s = .next (((s.modPw n (fun v => { v with farPower := w })).modPw n
        (fun v => { v with req := none })).modPw n (fun v => { v with applyAt := some c })) := by
      refine congrArg Outcome.next ((State.when_of s _ hn).trans ?_)
      dsimp only
      rw [State.modPw_port]
      simp only [hreq, ge_iff_le, if_pos hx, beq_self_eq_true, State.when_true]
    exact ⟨_, hexec, by simp, by simp, by simp, fun a _ => by simp⟩
  · have hexec : exec (.linkSuspend n) s =
        .next (s.modPw n (fun w => { w with applyAt := none, suspended := true, resuming := false, idle := false })) := by
      refine congrArg Outcome.next ((State.when_of s _ hn).trans ?_)
      rw [happ]
      exact State.when_of _ _ hge
    exact ⟨_, hexec, by simp, by simp, fun a _ => by simp⟩
  · exact ⟨_, execLinkResume_ok hn hsus hres hdom hcur hst, by simp, by simp, fun a _ => by simp⟩
  · exact execLinkResume_lost hn hsus hres
  · exact congrArg Outcome.next (State.writeOwn_accepted h (if_neg (Nat.not_lt.2 ht)))
  · exact congrArg Outcome.next ((State.writeOwn_rejected h (by simp [ht])).trans (by simp [ht]))
  · obtain ⟨hres, ht, hst⟩ := s.entryBlocked_effect
    refine ⟨_, execEntryTimeout_waiting hent, State.entryDropped_pending _, ?_, ?_, ?_, ?_⟩
    · exact (State.rd_of_word (State.entryDropped_word _ _)).trans hres
    · exact (State.rd_of_word (State.entryDropped_word _ _)).trans ht
    · exact (State.rd_of_word (State.entryDropped_word _ _)).trans hst
    · rw [State.entryDropped_word]
      exact State.raise_bit _ _ _ (by decide)
  · obtain ⟨hexit, hst, hres, hisr⟩ := s.exited_effect
    obtain ⟨hpwr, hword⟩ := s.exited.exited_request (s.rd PWR_PS_STATUS_STATE == 3 || s.rd PWR_PS_STATUS_STATE == 4) s.exited.pwr.vBefore
    refine ⟨_, execStateExitComplete_awake hex hall ht, hpwr.trans hexit, (State.rd_of_word (hword _ (by decide))).trans hst,
      (State.rd_of_word (hword _ (by decide))).trans hres, ?_⟩
    rw [hword _ (by decide)]
    exact hisr
  · exact congrArg Outcome.next (State.when_of s _ (by simp [h1, h9]))
  · refine ⟨_, execAlarmFire_due harm hnow, ?_, State.wakeBy_keepsBit 6 (State.raise_bit _ _ _ (by decide))⟩
    rw [State.on, State.wakeBy_rd_apart _ _ rfl rfl rfl (by decide), State.rd_raise_apart _ _ _ _ rfl]
    exact State.on_flag_one _ _ _ rfl
  · refine congrArg Outcome.next (State.when_of s _ ?_)
    have hline' : (c != 7 || !s.pwr.lineAtEntry) = true := by
      by_cases h7 : c = 7
      · simp [hline h7]
      · simp [h7]
    simp only [h4, hline', List.contains_eq_mem, hc, decide_true, beq_self_eq_true, Bool.and_self]
  · refine congrArg Outcome.next (State.when_of s _ ?_)
    have hctx : (d == 3 && (List.range 256).any (fun c => s.ctxLife c != lifeOff)) = false := by
      by_cases hd : d = 3
      · simpa [hd] using hc3 hd
      · simp [hd]
    have hevi : (d == 11 && s.eviHolds) = false := by
      by_cases hd : d = 11
      · simp [hc11 hd]
      · simp [hd]
    have heng : (domEngines d).all (fun e => s.engState e == engOff) = true := by
      unfold domEngines
      split
      · next hd => simpa using hc13 hd
      · split
        · next hd => simpa [Nat.add_comm] using hc14 hd
        · rfl
    have hkeys : (d == 15 && (List.range 3).any (fun n => s.on (LNK_STATUS_KEYS_ON n))) = false := by
      by_cases hd : d = 15
      · simpa [hd] using hc15 hd
      · simp [hd]
    have hall : (domFunctions d).all (fun p => !s.lifeImpl p || s.rd (PG_STATE_LIFE p) == lifeOff) = true := by
      refine List.all_eq_true.2 fun p hp => ?_
      cases himpl : s.lifeImpl p
      · rfl
      · simp [hfun p hp himpl]
    simp only [h3, h15, hst, hon, hkeep, hctx, hevi, heng, hkeys, hall, and_self, decide_true, beq_self_eq_true, Bool.not_false, Bool.and_self]
  · rw [State.wakeBy_exits h3 hex hen]
    have hword (g : Fld) (h : (PG_ISR 1).apart g = true) : ((s.woken c).exitBegin.raise 1 2).rd g = (s.woken c).rd g := by
      rw [State.rd_raise_apart _ _ _ _ h, State.rd_of_word (State.exitBegin_word _ _)]
    have hwoken (g : Fld) (h10 : g.addr / 0x1000 ≠ 10) :
        (s.woken c).rd g = ((s.wr PWR_PS_STATUS_WAKE_CAUSE c).wr PWR_PS_CTRL_TARGET 0).rd g := by
      rw [State.woken, State.modPwr_rd, State.when_rd _ _ _ _ fun v => State.rd_of_word (v.enterStep_word 2 h10)]
    refine ⟨by rw [State.raise_pwr, State.exitBegin_pwr], ?_, ?_, State.raise_bit _ _ _ (by decide)⟩
    · rw [hword _ rfl, hwoken _ (by decide), State.rd_wr_apart _ _ _ _ rfl, State.rd_wr_fits _ _ _ rfl]
      exact Nat.mod_eq_of_lt hc
    · rw [hword _ rfl, hwoken _ (by decide), State.rd_wr_fits _ _ _ rfl]
      rfl
  · have hst' : (s.wr PWR_PS_CTRL_TARGET t).rd PWR_PS_STATUS_STATE = s.rd PWR_PS_STATUS_STATE := State.rd_wr_apart _ _ _ _ rfl
    have hwritten : s.targetWritten t = (((s.wr PWR_PS_CTRL_TARGET t).modPwr (fun p => { p with entryPending := true, wakePend := false })).suspendLinks t) := by
      unfold State.targetWritten
      dsimp only
      rw [State.wr_pwr, hex, if_neg (by decide), hst', if_pos hst, if_neg (by omega)]
    rw [hwritten]
    refine ⟨by rw [State.suspendLinks_pwr, State.modPwr_pwr], ?_, ?_⟩ <;> rw [State.rd_of_word (State.suspendLinks_word _ _ _), State.modPwr_rd]
    · rw [State.rd_wr_fits _ _ _ rfl]
      exact Nat.mod_eq_of_lt (Nat.lt_of_le_of_lt h5 (by decide))
    · exact hst'
  · have hst' : (s.wr PWR_PS_CTRL_TARGET 1).rd PWR_PS_STATUS_STATE = s.rd PWR_PS_STATUS_STATE := State.rd_wr_apart _ _ _ _ rfl
    have hwritten : s.targetWritten 1 = (s.wr PWR_PS_CTRL_TARGET 1).enterState 1 := by
      unfold State.targetWritten
      dsimp only
      rw [State.wr_pwr, hex, if_neg (by decide), hst', if_pos (by rw [hst]; decide), if_pos rfl]
    rw [hwritten]
    exact State.enterState_one _
  · have hst' : (s.wr PWR_PS_CTRL_TARGET (s.rd PWR_PS_STATUS_STATE)).rd PWR_PS_STATUS_STATE = s.rd PWR_PS_STATUS_STATE :=
      State.rd_wr_apart _ _ _ _ rfl
    have hwritten : s.targetWritten (s.rd PWR_PS_STATUS_STATE) = (s.wr PWR_PS_CTRL_TARGET (s.rd PWR_PS_STATUS_STATE)).entryDropped := by
      unfold State.targetWritten
      dsimp only
      rw [State.wr_pwr, hex, if_neg (by decide), hst', if_neg (Nat.lt_irrefl _), if_pos rfl, hent, State.when_true]
    rw [hwritten]
    exact State.entryDropped_pending _

end Sys2Proof.Machine
end

section
/-!
PROOFS. The core voltage, the boost and the thermal limits.
-/

namespace Sys2Proof.Machine

open Host (Outcome)

/-! ## Requests of a voltage (R359, R360) -/

theorem State.vreqChk_range (s : State) (v : Nat) : s.vreqChk v = 1 ↔ 40 < v ∨ v < s.rd PWR_VMIN_DECL := by
  unfold State.vreqChk
  split_ifs <;> simp_all

/-- The request is in flight with its first attempt. -/
theorem State.vRequest_effect {s : State} {v : Nat} (hbusy : s.on PMB_VSTAT_BUSY = false) (hv : v < 64) :
    (s.vRequest v).rd PMB_VSTAT_VTARGET = v ∧ (s.vRequest v).on PMB_VSTAT_BUSY = true ∧ (s.vRequest v).rd PMB_VSTAT_ATTEMPTS = 1 := by
  unfold State.vRequest
  rw [if_neg (by simp [hbusy])]
  simp (disch := exact id rfl) only [State.voutWrite, State.emit_rd, State.emit_on, State.modPwr_rd, State.modPwr_on, State.rd_wr_apart,
    State.on_wr_apart, State.rd_flag_apart, State.rd_wr_fits, State.on_flag_one, true_and]
  exact ⟨Nat.mod_eq_of_lt hv, rfl⟩

theorem State.vEnd_none {s : State} (h : s.pwr.vHeld = none) : s.vEnd = s.flag PMB_VSTAT_BUSY false := by
  simp only [State.vEnd, State.flag_pwr, h]

theorem State.powerRecord_pwr (s : State) (page bit : Nat) : (s.powerRecord page bit).pwr = s.pwr :=
  (State.sysRecord_follows (msk := 2) rfl _ _ _ _ (Follows.refl 2 s)).parts .pwr rfl

/-- The poll of a request that has done what was asked. -/
def State.vReached (s : State) : State :=
  let s := (s.wr PMB_STATUS_LAST 0).modPwr (fun p => { p with vErr := 1 })
  let v := s.rd PMB_VSTAT_VTARGET
  (((s.wr PMB_VSTAT_VNOW v).flag PMB_BOOST_ACTIVE (decide (v > 20))).flag PMB_VSTAT_FAIL false).raise 2 0

theorem execPmbusPoll_done {s : State} (h : s.on PMB_VSTAT_BUSY = true) : exec (.pmbusPoll 0 true true 0) s = .next s.vReached.vEnd := by
  change execPmbusPoll 0 true true 0 s = _
  rw [execPmbusPoll, State.when_of _ _ h, if_neg (by decide)]
  simp only [Nat.zero_mod, ne_eq, not_true_eq_false, if_false, Bool.not_true, Bool.false_eq_true, beq_self_eq_true, Bool.and_self,
    State.when_true, done, State.vReached]

theorem State.vReached_effect (s : State) : s.vReached.rd PMB_VSTAT_VNOW = s.rd PMB_VSTAT_VTARGET ∧ s.vReached.on PMB_VSTAT_FAIL = false ∧
    s.vReached.on PMB_BOOST_ACTIVE = decide (20 < s.rd PMB_VSTAT_VTARGET) := by
  have hv : s.rd PMB_VSTAT_VTARGET < 64 := s.rd_lt _
  simp (disch := exact id rfl) only [State.vReached, State.rd_raise_apart, State.on_raise_apart, State.rd_flag_apart, State.on_flag_apart,
    State.on_flag_one, State.rd_wr_fits, State.modPwr_rd, State.rd_wr_apart, true_and]
  exact ⟨Nat.mod_eq_of_lt hv, trivial⟩

/-- The second failure ends the request with its cause (R359). -/
def State.vFailed (s : State) (cause : Nat) : State :=
  (((((s.voutWrite (s.rd PMB_VSTAT_VNOW)).flag PMB_VSTAT_FAIL true).wr PMB_VSTAT_LAST_ERR cause).incSat PMB_CNT_FAILS).raise 2 1).powerRecord 2 1

theorem State.vFail_second {s : State} {e : Nat} (h : 2 ≤ s.rd PMB_VSTAT_ATTEMPTS) (hheld : s.pwr.vHeld = none) :
    s.vFail e = (s.vFailed e).flag PMB_VSTAT_BUSY false := by
  unfold State.vFail
  rw [if_neg (Nat.not_lt.2 h)]
  refine State.vEnd_none ?_
  simp only [State.powerRecord_pwr, State.raise_pwr, State.incSat_pwr, State.wr_pwr, State.flag_pwr, State.voutWrite, State.emit_pwr, hheld]

theorem State.vFailed_effect {s : State} {e : Nat} (he : e < 256) : (s.vFailed e).rd PMB_VSTAT_FAIL = 1 ∧
    (s.vFailed e).rd PMB_VSTAT_LAST_ERR = e ∧ (s.vFailed e).rd PMB_VSTAT_VNOW = s.rd PMB_VSTAT_VNOW := by
  have hring (u : State) (g : Fld) (h : g.addr ∉ ringWords) : (u.powerRecord 2 1).rd g = u.rd g := u.powerRecord_rd 2 1 h
  simp only [State.vFailed]
  rw [hring _ _ (by decide), hring _ _ (by decide), hring _ _ (by decide)]
  simp (disch := exact id rfl) only [State.rd_raise_apart, State.rd_incSat_apart, State.rd_wr_apart, State.rd_flag_fits, State.rd_wr_fits,
    State.rd_flag_apart, State.voutWrite, State.emit_rd, and_true]
  exact ⟨rfl, Nat.mod_eq_of_lt he⟩

/-! ## The boost (R363) -/

/-- What an end of the boost leaves. -/
theorem State.boostEnd_effect (s : State) (c : Bool) :
    (s.when c fun s => ((s.vRequest 20).raise 2 2).powerRecord 2 2).pwr.bucket = s.pwr.bucket ∧
      (s.when c fun s => ((s.vRequest 20).raise 2 2).powerRecord 2 2).rd PMB_BOOST_BUCKET = s.rd PMB_BOOST_BUCKET := by
  have hbucket (u : State) : (u.vRequest 20).pwr.bucket = u.pwr.bucket := by
    unfold State.vRequest
    split
    · rfl
    · simp only [State.voutWrite, State.emit_pwr, State.modPwr_pwr, State.wr_pwr, State.flag_pwr, State.incSat_pwr]
  have hrd (u : State) : (u.vRequest 20).rd PMB_BOOST_BUCKET = u.rd PMB_BOOST_BUCKET := by
    unfold State.vRequest
    split
    · rfl
    · simp (disch := exact id rfl) only [State.voutWrite, State.emit_rd, State.modPwr_rd, State.rd_wr_apart, State.rd_flag_apart, State.rd_incSat_apart]
  cases c
  · exact ⟨rfl, rfl⟩
  · rw [State.when_true, State.powerRecord_pwr, State.raise_pwr, hbucket, State.powerRecord_rd _ _ _ (by decide),
      State.rd_raise_apart _ _ _ _ rfl, hrd]
    exact ⟨rfl, rfl⟩

/-- The bucket and its register after a millisecond. -/
def State.bucketShown (s : State) (b : Nat) : State :=
  ((s.modPwr (fun p => { p with bucket := b })).wr PMB_BOOST_BUCKET (b / 1800)).boostShow

theorem State.bucketShown_effect (s : State) {b : Nat} (hb : b / 1800 < 2 ^ 16) : (s.bucketShown b).pwr.bucket = b ∧
    (s.bucketShown b).rd PMB_BOOST_BUCKET = b / 1800 := by
  unfold State.bucketShown State.boostShow
  rw [State.flag_pwr, State.wr_pwr, State.modPwr_pwr, State.rd_flag_apart _ _ _ _ rfl, State.rd_wr_fits _ _ _ rfl]
  exact ⟨rfl, Nat.mod_eq_of_lt hb⟩

/-- The bucket after a millisecond (R363). -/
def State.boostBucket (s : State) : Nat :=
  if s.rd PMB_VSTAT_VNOW > 20 then s.pwr.bucket - 9 * (s.rd PMB_VSTAT_VNOW - 20) else min 10800000 (s.pwr.bucket + 20)

theorem execBoostTick_eq (s : State) : ∃ c, exec .boostTick s =
    .next ((s.bucketShown s.boostBucket).when c fun s => ((s.vRequest 20).raise 2 2).powerRecord 2 2) := by
  change ∃ c, execBoostTick s = _
  simp only [execBoostTick, done, State.bucketShown, State.boostBucket]
  exact ⟨_, rfl⟩

theorem boostTick_yields (s : State) (hb : s.boostBucket / 1800 < 2 ^ 16) : Yields .boostTick s fun t =>
    t.pwr.bucket = s.boostBucket ∧ t.rd PMB_BOOST_BUCKET = s.boostBucket / 1800 := by
  obtain ⟨c, hexec⟩ := execBoostTick_eq s
  obtain ⟨hpwr, hrd⟩ := (s.bucketShown s.boostBucket).boostEnd_effect c
  obtain ⟨hpwr', hrd'⟩ := s.bucketShown_effect hb
  exact ⟨_, hexec, hpwr.trans hpwr', hrd.trans hrd'⟩

/-! ## Temperatures (R364) -/

theorem signed16_natCast {a : Nat} (h : a < 4096) : signed16 ((a : Int) % 65536).toNat = a := by
  unfold signed16
  omega

theorem toNat_natCast {a : Nat} (h : a < 4096) : ((a : Int) % 65536).toNat = a := by omega

/-- The sensors' words and the highest one, as an update writes them. -/
def State.tjShown (s : State) (ts : List Int) (hi : Int) : State :=
  let s := foldS (ts.zip [0, 1, 2, 3]) (fun s (e : Int × Nat) => s.wr (THM_TJ e.2) (e.1 % 65536).toNat) s
  ((s.wr THM_TJ_MAX_T (hi % 65536).toNat).wr THM_TJ_MAX_SENSOR (ts.findIdx (fun t => t == hi))).boostShow

/-- What an update shows of the sensors. -/
theorem State.tjShown_effect (s : State) {a b c d : Nat} (ha : a < 4096) (hb : b < 4096) (hc : c < 4096) (hd : d < 4096) {m : Nat} (hm : m < 4096) :
    (s.tjShown [(a : Int), b, c, d] m).rd (THM_TJ 0) = a ∧ (s.tjShown [(a : Int), b, c, d] m).rd (THM_TJ 1) = b ∧
      (s.tjShown [(a : Int), b, c, d] m).rd (THM_TJ 2) = c ∧ (s.tjShown [(a : Int), b, c, d] m).rd (THM_TJ 3) = d ∧
      (s.tjShown [(a : Int), b, c, d] m).rd THM_TJ_MAX_T = m ∧ (s.tjShown [(a : Int), b, c, d] m).rd THM_CFG_WARN = s.rd THM_CFG_WARN := by
  simp only [State.tjShown, State.boostShow, foldS, List.zip_cons_cons, List.zip_nil_left, List.foldl_cons, List.foldl_nil, toNat_natCast ha,
    toNat_natCast hb, toNat_natCast hc, toNat_natCast hd, toNat_natCast hm]
  have hfit {v : Nat} (hv : v < 4096) : v % 2 ^ 16 = v := Nat.mod_eq_of_lt (Nat.lt_trans hv (by decide))
  simp (disch := exact id rfl) only [State.rd_flag_apart, State.rd_wr_apart, State.rd_wr_fits, and_true]
  exact ⟨hfit ha, hfit hb, hfit hc, hfit hd, hfit hm⟩

theorem execTjUpdate_eq (s : State) {a b c d : Nat} (ha : a < 4096) (hb : b < 4096) (hc : c < 4096) (hd : d < 4096) :
    ∃ r e, exec (.tjUpdate a b c d) s =
      .next ((((s.tjShown [(a : Int), b, c, d] (max (max a b) (max c d) : Nat)).when r (·.raise 5 0)).flag THM_STATUS_WARN
        (decide (((max (max a b) (max c d) : Nat) : Int) ≥
          ((s.tjShown [(a : Int), b, c, d] (max (max a b) (max c d) : Nat)).rd THM_CFG_WARN * 16 : Nat)))).when e
          (·.flag THM_STATUS_HOT false)) := by
  have hhi : [(a : Int), b, c, d].foldl max (-32768) = ((max (max a b) (max c d) : Nat) : Int) := by
    simp only [List.foldl_cons, List.foldl_nil]
    omega
  change ∃ r e, execTjUpdate a b c d s = _
  simp only [execTjUpdate, List.map_cons, List.map_nil, signed16_natCast ha, signed16_natCast hb, signed16_natCast hc, signed16_natCast hd, hhi,
    done, State.tjShown]
  exact ⟨_, _, rfl⟩

/-- Settles O46: each command by its condition, each effect by the fields that it writes. -/
theorem coreVoltageAndThermalCommands : Obligations.CoreVoltageAndThermalCommands := by
  refine ⟨fun s p v h hchk => congrArg Outcome.next (State.writeOwn_accepted h hchk), fun s p v h hchk =>
      congrArg Outcome.next (State.writeOwn_rejected h hchk), fun s v => s.vreqChk_range v, fun s v hmin h40 h20 hbst => ?_,
    fun s v hmin h40 hhot => ?_, fun s v hbusy hv => State.vRequest_effect hbusy hv, fun s v hbusy => if_pos hbusy, fun s hbusy hheld => ?_,
    fun s st g h e hbusy he => congrArg Outcome.next ((State.when_of s _ hbusy).trans (if_pos he)),
    fun s hbusy => congrArg Outcome.next (State.when_of s _ hbusy), fun s e hatt => ?_, fun s e hatt hheld he => ?_,
    fun s p v h hchk => congrArg Outcome.next (State.writeOwn_accepted h hchk), fun s p v h hchk => ?_, fun s hv hb => ?_, fun s hv hb => ?_,
    fun s hhot htj => ?_, fun s a b c d ha hb hc hd => ?_⟩
  · simp only [State.vreqChk, Nat.not_lt.2 h40, Nat.not_lt.2 hmin, or_self, if_false, gt_iff_lt, h20, hbst, Bool.not_false, and_self, if_true]
  · simp only [State.vreqChk, Nat.not_lt.2 h40, Nat.not_lt.2 (Nat.le_of_lt hmin), or_self, if_false, gt_iff_lt, hmin, hhot, and_self, if_true,
      ite_self]
  · obtain ⟨hnow, hfail, hact⟩ := s.vReached_effect
    have hheld' : s.vReached.pwr.vHeld = none := by
      simp only [State.vReached, State.raise_pwr, State.flag_pwr, State.wr_pwr, State.modPwr_pwr, hheld]
    refine ⟨_, execPmbusPoll_done hbusy, ?_⟩
    rw [State.vEnd_none hheld']
    dsimp only
    rw [State.on_flag_one _ _ _ rfl, State.rd_flag_apart _ _ _ _ rfl, State.on_flag_apart _ _ _ _ rfl,
      State.on_flag_apart _ _ _ _ rfl, State.word_flag_ne _ _ _ _ (by decide)]
    exact ⟨rfl, hnow, hfail, hact, State.raise_bit _ _ _ (by decide)⟩
  · unfold State.vFail
    rw [if_pos hatt, State.voutWrite, State.emit_rd, State.modPwr_rd, State.rd_wr_fits _ _ _ rfl, State.emit_on, State.modPwr_on,
      State.on_wr_apart _ _ _ _ rfl]
    exact ⟨rfl, rfl⟩
  · obtain ⟨hfail, herr, hnow⟩ := State.vFailed_effect (s := s) he
    rw [State.vFail_second hatt hheld, State.on_flag_one _ _ _ rfl, State.on_flag_apart _ _ _ _ rfl, State.rd_flag_apart _ _ _ _ rfl,
      State.rd_flag_apart _ _ _ _ rfl]
    exact ⟨rfl, (State.on_iff_rd _ _).2 hfail, herr, hnow⟩
  · exact congrArg Outcome.next ((State.writeOwn_rejected h (by simp [hchk])).trans (by rw [hchk]))
  · have hbucket : s.boostBucket = min 10800000 (s.pwr.bucket + 20) := if_neg (Nat.not_lt.2 hv)
    have hyields := boostTick_yields s (by rw [hbucket]; omega)
    rwa [hbucket] at hyields
  · have hbucket : s.boostBucket = s.pwr.bucket - 9 * (s.rd PMB_VSTAT_VNOW - 20) := if_pos hv
    have hyields := boostTick_yields s (by rw [hbucket]; omega)
    rwa [hbucket] at hyields
  · have hword (u : State) (a : Nat) (h : a ∉ ringWords) : (u.powerRecord 5 1).word a = u.word a := u.sysRecord_sameWords _ _ _ _ a h
    refine ⟨_, congrArg Outcome.next (State.when_of s _ (by rw [hhot, decide_eq_true htj]; rfl)), ?_, ?_⟩
    · rw [State.on, State.powerRecord_rd _ _ _ (by decide), State.rd_raise_apart _ _ _ _ rfl, State.rd_of_word (State.vRequest_word _ _ (by decide))]
      exact State.on_flag_one _ _ _ rfl
    · rw [hword _ _ (by decide)]
      exact State.raise_bit _ _ _ (by decide)
  · have hm : max (max a b) (max c d) < 4096 := by omega
    obtain ⟨h0, h1, h2, h3, hmax, hwarn⟩ := s.tjShown_effect ha hb hc hd hm
    obtain ⟨r, e, hexec⟩ := execTjUpdate_eq s ha hb hc hd
    refine ⟨_, hexec, ?_⟩
    generalize s.tjShown [(a : Int), b, c, d] (max (max a b) (max c d) : Nat) = u at h0 h1 h2 h3 hmax hwarn
    have hkept (g : Fld) (hhot : THM_STATUS_HOT.apart g = true) (hst : THM_STATUS_WARN.apart g = true) (hisr : (PG_ISR 5).apart g = true)
        (v : Bool) : (((u.when r (·.raise 5 0)).flag THM_STATUS_WARN v).when e (·.flag THM_STATUS_HOT false)).rd g = u.rd g := by
      rw [State.when_rd _ _ _ _ fun w => State.rd_flag_apart _ _ _ _ hhot, State.rd_flag_apart _ _ _ _ hst,
        State.when_rd _ _ _ _ fun w => State.rd_raise_apart _ _ _ _ hisr]
    refine ⟨(hkept _ rfl rfl rfl _).trans h0, (hkept _ rfl rfl rfl _).trans h1, (hkept _ rfl rfl rfl _).trans h2,
      (hkept _ rfl rfl rfl _).trans h3, (hkept _ rfl rfl rfl _).trans hmax, ?_⟩
    rw [State.on, State.when_rd _ _ _ _ fun w => State.rd_flag_apart _ _ _ _ rfl, hwarn]
    refine (State.on_flag_one _ _ _ rfl).trans ?_
    simp only [ge_iff_le, Nat.cast_le]

end Sys2Proof.Machine
end

section
/-!
PROOFS. The rail-script window and the entries of a running script.
-/

namespace Sys2Proof.Machine

open Host (Outcome)

/-! ## The present entry of a running script -/

/-- The script's present entry is `w`, of the opcode, and the script does not wait. -/
def State.scriptAt (s : State) (c : Script) (w op : Nat) : Prop :=
  s.pwr.script = some c ∧ c.waiting = false ∧ (c.words[c.pc]?).getD 0 = w ∧ bitsOf w 31 28 = op

section Entry
variable {s : State} {c : Script} {w op : Nat}

theorem State.scriptRun_at (h : s.scriptAt c w op) (f : State → Script → Nat → State) :
    s.scriptRun op f = f (s.wr PMB_RS_RUN_LAST_INDEX c.pc) c w := by
  obtain ⟨hscript, hwait, hw, hop⟩ := h
  simp only [State.scriptRun, hscript, hw, hop, hwait, Bool.not_false, and_self, if_true]

theorem State.modScript_script (hs : s.pwr.script = some c) (f : Script → Script) : (s.modScript f).pwr.script = some (f c) := by
  rw [State.modScript, State.modPwr_pwr, hs, Option.map_some]

theorem State.scriptGo_inside (hs : s.pwr.script = some c) {pc : Nat} (hpc : pc < 128) :
    (s.scriptGo pc).pwr.script = some { c with pc := pc, waiting := false } := by
  rw [State.scriptGo, if_pos hpc, State.modScript_script hs]

/-- The script goes on with the entry after the present one. -/
theorem State.scriptGo_next (hs : s.pwr.script = some c) (hwait : c.waiting = false) (hpc : c.pc < 127) :
    (s.scriptGo (c.pc + 1)).pwr.script = some { c with pc := c.pc + 1 } := by
  rw [State.scriptGo_inside hs (Nat.succ_lt_succ hpc), ← hwait]

theorem State.scriptGo_out {pc : Nat} (hpc : pc < 128) : (s.scriptGo pc).out = s.out := by
  rw [State.scriptGo, if_pos hpc, State.modScript, State.modPwr_out]

end Entry

theorem State.scriptNext_ok (s : State) (c : Script) : s.scriptNext c true = s.scriptGo (c.pc + 1) := by rw [State.scriptNext, if_pos rfl]

theorem State.scriptNext_failed (s : State) (c : Script) : s.scriptNext c false = s.scriptFail c := by
  rw [State.scriptNext, if_neg Bool.false_ne_true]

/-! ## The window -/

/-- A COMMIT whose check fails shows the first bad entry and its reason (R366). -/
theorem State.rsCommit_bad {s : State} {i : Nat} (p : Path)
    (h : (List.range 128).find? (fun i => rsReason i (s.rsWord i) != 0) = some i) :
    s.rsCommit p = (((s.wr PMB_RS_STATUS_INDEX i).wr PMB_RS_STATUS_REASON (rsReason i (s.rsWord i))).capture 2 p 1
      (PMB_RS_CMD_COMMIT.addr % 0x1000 / 4) 1).raise 2 3 := by
  simp only [State.rsCommit, h]

theorem rsReason_lt (i w : Nat) : rsReason i w < 5 := by
  unfold rsReason
  dsimp only
  split_ifs <;> decide

/-- Settles O47: each entry is the step of its opcode. -/
theorem railScriptCommands : Obligations.RailScriptCommands := by
  refine ⟨fun s p h => congrArg Outcome.next (State.runCmd_accepted (c := cmdRsCommit p) h rfl rfl rfl),
    fun s p h => congrArg Outcome.next (State.runCmd_accepted (c := cmdRsLoad) h rfl rfl rfl),
    fun s p v h => congrArg Outcome.next (State.writeOwn_accepted h rfl), fun s p h => congrArg Outcome.next (State.readOwn_reaches h),
    fun s p i hfind => ?_, fun s c w h => congrArg Outcome.next (State.scriptRun_at h _), fun s c w h => ?_, fun s c hs hw hpc => ?_,
    fun s c w h hpc => ?_, fun s c w h hpc => ?_, fun s c w h => ?_, fun s c w h hpc => ?_, fun s c w h hpc => ?_, fun s c w h => ?_,
    fun s c w r h hlo hhi hpc => ?_, fun s c w r h hout => ?_, fun s c w h hfail => ?_, fun s c w h hfail hpc => ?_, fun s c hs => ?_,
    fun s c i hs hfind => ?_⟩
  · have hi : i < 128 := List.mem_range.1 (List.mem_of_find?_eq_some hfind)
    rw [State.rsCommit_bad p hfind, State.rd_raise_apart _ _ _ _ rfl, State.rd_raise_apart _ _ _ _ rfl,
      State.capture_rd _ _ _ _ _ _ (by decide), State.capture_rd _ _ _ _ _ _ (by decide), State.rd_wr_apart _ _ _ _ rfl,
      State.rd_wr_fits _ _ _ rfl, State.rd_wr_fits _ _ _ rfl, State.raise_pwr]
    refine ⟨Nat.mod_eq_of_lt hi, Nat.mod_eq_of_lt (Nat.lt_trans (rsReason_lt _ _) (by decide)), ?_, State.raise_bit _ _ _ (by decide)⟩
    rw [(State.capture_follows (msk := 2) rfl _ _ _ _ _ (Follows.refl 2 _)).parts .pwr rfl, State.wr_pwr, State.wr_pwr]
  · refine ⟨_, congrArg Outcome.next (State.scriptRun_at h _), State.modScript_script h.1 _, State.rd_wr_fits _ _ _ rfl, fun a ha => ?_⟩
    exact (State.modPwr_word ..).trans (State.word_wr_ne _ _ _ _ (List.ne_of_not_mem_cons ha))
  · have hexec : exec .waitUsDone s = .next (s.scriptGo (c.pc + 1)) := by
      change execWaitUsDone s = _
      simp only [execWaitUsDone, hs, hw, if_true, done]
    refine ⟨_, hexec, State.scriptGo_inside hs (Nat.succ_lt_succ hpc), fun a _ => ?_⟩
    rw [State.scriptGo, if_pos (Nat.succ_lt_succ hpc)]
    exact State.modPwr_word ..
  · refine ⟨_, congrArg Outcome.next ((State.scriptRun_at h _).trans (State.scriptNext_ok _ _)), State.scriptGo_next ?_ h.2.1 hpc,
      State.scriptGo_out (Nat.succ_lt_succ hpc)⟩
    exact h.1
  · refine ⟨_, congrArg Outcome.next ((State.scriptRun_at h _).trans (State.scriptNext_ok _ _)), State.scriptGo_next ?_ h.2.1 hpc⟩
    exact h.1
  · exact congrArg Outcome.next ((State.scriptRun_at h _).trans (State.scriptNext_failed _ _))
  · refine ⟨_, congrArg Outcome.next (State.scriptRun_at h _), State.scriptGo_next ?_ h.2.1 hpc, State.scriptGo_out (Nat.succ_lt_succ hpc)⟩
    exact h.1
  · refine ⟨_, congrArg Outcome.next ((State.scriptRun_at h _).trans (State.scriptNext_ok _ _)), State.scriptGo_next ?_ h.2.1 hpc⟩
    exact h.1
  · exact congrArg Outcome.next ((State.scriptRun_at h _).trans (State.scriptNext_failed _ _))
  · have hin : decide (bitsOf w 23 12 ≤ r ∧ r ≤ bitsOf w 11 0) = true := decide_eq_true ⟨hlo, hhi⟩
    refine ⟨_, congrArg Outcome.next ((State.scriptRun_at h _).trans (by rw [hin, State.scriptNext_ok])), State.scriptGo_next ?_ h.2.1 hpc⟩
    exact h.1
  · have hin : decide (bitsOf w 23 12 ≤ r ∧ r ≤ bitsOf w 11 0) = false := decide_eq_false (by omega)
    exact congrArg Outcome.next ((State.scriptRun_at h _).trans (by rw [hin, State.scriptNext_failed]))
  · have hs : ((s.wr PMB_RS_RUN_LAST_INDEX c.pc).modScript (fun c => { c with fail := false })).pwr.script = some { c with fail := false } :=
      State.modScript_script h.1 _
    have hpc : bitsOf w 6 0 < 128 := Nat.mod_lt _ (by decide)
    refine ⟨_, congrArg Outcome.next ((State.scriptRun_at h _).trans (if_pos hfail)), ?_⟩
    dsimp only
    rw [State.scriptGo_inside hs hpc, ← h.2.1]
  · refine ⟨_, congrArg Outcome.next ((State.scriptRun_at h _).trans (if_neg (ne_true_of_eq_false hfail))), State.scriptGo_next ?_ h.2.1 hpc⟩
    exact h.1
  · exact congrArg Outcome.next (State.when_of s _ (by rw [hs]; rfl))
  · have hi : i < 128 := List.mem_range.1 (List.mem_of_find?_eq_some hfind)
    simp only [State.scriptFail, hfind]
    rw [State.scriptGo_inside (State.modScript_script hs _) hi]

end Sys2Proof.Machine
end

section
/-!
PROOFS. Words that a shift of the time leaves; the agreement and the replacement of a link's keys.
-/

namespace Sys2Proof.Machine

open Host (Outcome)

/-! ## What a step or an alignment of the time leaves: the words from page TUN on -/

section After
variable {a : Nat}

theorem State.overrun_word (s : State) {l : Nat} (gates : Nat) (hl : l < 7) (h : a / 0x1000 ≠ 14) : (s.overrun l gates).word a = s.word a := by
  have hisr : a ≠ (PG_ISR 14).addr := by simp only [PG_ISR]; omega
  have hover : a ≠ (SCH_OVERRUN l).addr := by simp only [SCH_OVERRUN]; omega
  unfold State.overrun
  exact (State.when_word _ _ _ _ ((State.raise_word _ _ _ _ hisr).trans (State.word_inc_ne _ _ _ _ hover))).trans (State.modGcl_word ..)

theorem State.gclEnter_word (s : State) {l : Nat} (g : Gcl) (hl : l < 7) (h : a / 0x1000 ≠ 14) : (s.gclEnter l g).word a = s.word a := by
  have hst : a ≠ (SCH_OPER_STATUS_GATES l).addr := by simp only [SCH_OPER_STATUS_GATES]; omega
  unfold State.gclEnter
  refine State.ite_word rfl ?_
  dsimp only
  split
  · rfl
  · rw [State.overrun_word _ _ hl h, State.modGcl_word, State.word_wr_ne _ (SCH_OPER_STATUS_ENTRY l) _ _ hst, State.word_wr_ne _ _ _ _ hst]

theorem State.gclInstall_word (s : State) {l : Nat} (hl : l < 7) (h : a / 0x1000 ≠ 14) : (s.gclInstall l).word a = s.word a := by
  have hisr : a ≠ (PG_ISR 14).addr := by simp only [PG_ISR]; omega
  have hctrl : a ≠ (SCH_GCL_CTRL_CFG_PENDING l).addr := by simp only [SCH_GCL_CTRL_CFG_PENDING]; omega
  have hst : a ≠ (SCH_OPER_STATUS_VALID l).addr := by simp only [SCH_OPER_STATUS_VALID]; omega
  have hns : a ≠ (SCH_OPER_CYCLE_NS l).addr := by simp only [SCH_OPER_CYCLE_NS]; omega
  unfold State.gclInstall
  split
  · rfl
  · dsimp only
    rw [State.gclEnter_word _ _ hl h, State.word_wr_ne _ _ _ _ hns, State.word_wr_ne _ (SCH_OPER_STATUS_LEN l) _ _ hst, State.word_flag_ne _ _ _ _ hst,
      State.raise_word _ _ _ _ hisr, State.word_flag_ne _ _ _ _ hctrl, State.modGcl_word]

theorem State.gclStep_word (s : State) {l : Nat} (hl : l < 7) (h : a / 0x1000 ≠ 14) : (s.gclStep l).word a = s.word a := by
  unfold State.gclStep
  refine State.ite_word (s.gclInstall_word hl h) ?_
  split
  · rfl
  · exact State.ite_word rfl (State.modGcl_word ..)

theorem State.drive_word (s : State) (k : Nat) (v : Bool) : (s.drive k v).word a = s.word a := by
  rw [State.drive, State.emit_word, State.mk_word]

theorem State.foutPassed_word (s : State) {j : Nat} (hj : j < 8) (h : a / 0x1000 ≠ 7) : (s.foutPassed j).word a = s.word a := by
  have hisr : a ≠ (PG_ISR 7).addr := by simp only [PG_ISR]; omega
  have hctrl : a ≠ (EVI_FOUT_CTRL_ARM j).addr := by simp only [EVI_FOUT_CTRL_ARM]; omega
  refine State.when_word _ _ _ _ ?_
  unfold State.foutLate State.foutAct
  dsimp only
  rw [State.when_word _ _ _ _ (State.mk_word ..), State.raise_word _ _ _ _ hisr, State.word_flag_ne _ _ _ _ hctrl, State.drive_word,
    State.raise_word _ _ _ _ hisr, State.word_flag_ne _ (EVI_FOUT_CTRL_LATE j) _ _ hctrl]

theorem foldS_word_mem {α : Type} {F : State → α → State} (xs : List α) (s : State) (hF : ∀ u, ∀ x ∈ xs, (F u x).word a = u.word a) :
    (foldS xs F s).word a = s.word a :=
  foldS_induct (P := fun t => t.word a = s.word a) rfl fun u x hx hu => (hF u x hx).trans hu

theorem State.timeStepped_keeps (s : State) (h7 : a / 0x1000 ≠ 7) (h14 : a / 0x1000 ≠ 14) :
    s.timeStepped.word a = (s.flag GRD_STATUS_AGE_HOLD true).word a := by
  unfold State.timeStepped
  dsimp only
  rw [foldS_word_mem _ _ fun u j hj => u.foutPassed_word (List.mem_range.1 hj) h7,
    foldS_word_mem _ _ fun u l hl => u.gclStep_word (List.mem_range.1 hl) h14]

theorem State.timeStepped_word (s : State) (h : 0xF000 ≤ a) : s.timeStepped.word a = s.word a := by
  have hhold : a ≠ GRD_STATUS_AGE_HOLD.addr := by simp only [GRD_STATUS_AGE_HOLD]; omega
  rw [State.timeStepped_keeps _ (by omega) (by omega), State.word_flag_ne _ _ _ _ hhold]

theorem State.showStep_word (s : State) (r : StepReq) (h : 0xF000 ≤ a) : (s.showStep r).word a = s.word a := by
  have hst : a ≠ TIME_STEP_STATUS_PENDING.addr := by simp only [TIME_STEP_STATUS_PENDING]; omega
  have hcyc : a ≠ TIME_STEP_CYCLE.addr := by simp only [TIME_STEP_CYCLE]; omega
  have hlo : a ≠ TIME_STEP_DELTA_LO.addr := by simp only [TIME_STEP_DELTA_LO]; omega
  have hhi : a ≠ TIME_STEP_DELTA_HI.addr := by simp only [TIME_STEP_DELTA_HI]; omega
  unfold State.showStep
  dsimp only
  rw [State.modTime_word, State.word_wr_ne _ _ _ _ hhi, State.word_wr_ne _ _ _ _ hlo]
  split
  · rw [State.word_wr_ne _ _ _ _ hcyc, State.word_flag_ne _ _ _ _ hst]
  · rw [State.word_flag_ne _ _ _ _ hst]

theorem State.startStep_word (s : State) (delta : Int) (h : 0xF000 ≤ a) : (s.startStep delta).word a = s.word a := by
  unfold State.startStep State.scheduleStep
  refine State.ite_word ?_ ?_
  · rw [State.modTime_word, State.showStep_word _ _ h]
  · dsimp only
    rw [State.when_word _ _ _ _ (State.emit_word ..), State.showStep_word _ _ h]

theorem State.alignTime_word (s : State) (n : Nat) (h : 0xF000 ≤ a) : (s.alignTime n).word a = s.word a := by
  unfold State.alignTime
  refine State.ite_word (State.ite_word ?_ (State.startStep_word _ _ h)) rfl
  dsimp only
  rw [State.timeStepped_word _ h, State.modTime_word, State.setTime, State.mk_word]

end After

theorem State.alignTime_lk (s : State) (n m : Nat) : (s.alignTime n).lk m = s.lk m := by
  rw [State.lk, State.port, (State.alignTime_follows (msk := 550) rfl n (Follows.refl 550 s)).parts .ports rfl, ← State.port, ← State.lk]

/-! ## Entry into the cycle (R376) -/

/-- What an entry into the cycle leaves of the link's status: every field but the state. -/
theorem State.enterCycle_rd (s : State) {n : Nat} (hn : n < 3) {g : Fld} (hst : (LNK_STATUS_TSTATE n).apart g = true)
    (hg : g.addr = 0x10044 + 0x1000 * n) : (s.enterCycle n).rd g = s.rd g := by
  have htbl (u : State) (dst : Nat) : (u.clearTable dst n).word g.addr = u.word g.addr :=
    foldS_word _ _ _ fun v m => State.word_setWord_ne _ _ _ _ (by omega)
  have hsh (u : State) : (foldS (List.range 32) (fun s w => s.setWord (0x13180 + 0x1000 * n + 4 * w) 0) u).word g.addr = u.word g.addr :=
    foldS_word _ _ _ fun v m => State.word_setWord_ne _ _ _ _ (by omega)
  have hcyc : g.addr ≠ (CYC_STATUS_ACT_EPOCH n).addr := by simp only [CYC_STATUS_ACT_EPOCH]; omega
  have hdig (u : State) : (u.showDigests n).word g.addr = u.word g.addr := by
    rw [State.showDigests, State.word_wr_ne _ (CYC_DIGEST_RX_ACT n) _ _ (by simp only [CYC_DIGEST_RX_ACT]; omega),
      State.word_wr_ne _ (CYC_DIGEST_TX_ACT n) _ _ (by simp only [CYC_DIGEST_TX_ACT]; omega),
      State.word_wr_ne _ (CYC_DIGEST_RX_SH n) _ _ (by simp only [CYC_DIGEST_RX_SH]; omega),
      State.word_wr_ne _ _ _ _ (by simp only [CYC_DIGEST_TX_SH]; omega)]
  have hmaster : g.addr ≠ TIME_LINK_TM_ST_MASTER.addr := by simp only [TIME_LINK_TM_ST_MASTER]; omega
  have hmode : g.addr ≠ (timeMode n).inForce.addr := by
    unfold timeMode
    split_ifs <;> simp only [Fld.inForce, TIME_LINK_TM_MODE0, TIME_LINK_TM_MODE1, TIME_LINK_TM_MODE2] <;> omega
  unfold State.enterCycle
  dsimp only
  rw [State.rd_of_word (State.alignTime_word _ n (by omega)), State.rd_of_word (hdig _), State.rd_of_word (State.word_setBit_ne _ _ _ _ _ hmaster),
    State.rd_of_word (State.modEp_word ..), State.rd_of_word (State.word_wr_ne _ _ _ _ hcyc), State.rd_of_word (hsh _),
    State.rd_of_word (htbl _ _), State.rd_of_word (htbl _ _), State.applyFields, foldS, List.foldl_cons, List.foldl_nil,
    State.rd_wr_ne _ _ _ _ hmode, State.rd_wr_apart _ _ _ _ hst]

theorem State.enterCycle_lk (s : State) (n : Nat) : (s.enterCycle n).lk n = s.lk n := by
  have htbl (u : State) (dst : Nat) : (u.clearTable dst n).lk n = u.lk n :=
    foldS_induct (P := fun t => t.lk n = u.lk n) rfl fun v m _ hv => (State.setWord_lk ..).trans hv
  have hsh (u : State) : (foldS (List.range 32) (fun s w => s.setWord (0x13180 + 0x1000 * n + 4 * w) 0) u).lk n = u.lk n :=
    foldS_induct (P := fun t => t.lk n = u.lk n) rfl fun v m _ hv => (State.setWord_lk ..).trans hv
  have hep (u : State) (f : Epoch → Epoch) : (u.modEp n f).lk n = u.lk n := by
    rw [State.lk, State.modEp, State.modPort_port, State.lk]
  unfold State.enterCycle
  dsimp only
  rw [State.alignTime_lk, State.showDigests, State.wr_lk, State.wr_lk, State.wr_lk, State.wr_lk, State.setBit_lk, hep, State.wr_lk, hsh, htbl, htbl,
    State.applyFields, foldS, List.foldl_cons, List.foldl_nil, State.wr_lk, State.wr_lk]

@[simp] theorem State.showKey_lk (s : State) (n m : Nat) : (s.showKey n).lk m = s.lk m := by
  rw [State.showKey, State.wr_lk, State.wr_lk]

theorem State.showKey_rd (s : State) (n : Nat) {g : Fld} (h : g.addr ≠ (SEC_LINK_KEY_GEN n).addr) : (s.showKey n).rd g = s.rd g := by
  rw [State.showKey, State.rd_wr_ne _ (SEC_LINK_KEY_PHASE n) _ _ h, State.rd_wr_ne _ _ _ _ h]

/-- From its cycle on, a switch is shown as phase 3. -/
theorem State.showKey_switching {s : State} {n w : Nat} {k : KeyPair} (hcur : (s.lk n).cur.isSome = true) (hnext : (s.lk n).next = some k)
    (hsw : (s.lk n).switches = true) (hw : (s.lk n).w = some w) (hge : cycGe s.cycle w = true) :
    (s.showKey n).rd (SEC_LINK_KEY_PHASE n) = 3 := by
  obtain ⟨c, hc⟩ := Option.isSome_iff_exists.1 hcur
  have hany : (s.lk n).w.any (fun w => cycGe s.cycle w) = true := by rw [hw, Option.any_some, hge]
  have hshow : s.showKey n = (s.wr (SEC_LINK_KEY_GEN n) (((s.lk n).cur.map (·.gen)).getD 0)).wr (SEC_LINK_KEY_PHASE n) 3 := by
    unfold State.showKey
    dsimp only
    rw [hc, hnext, hsw, hany]
    rfl
  rw [hshow, State.rd_wr_fits _ _ _ rfl]
  rfl

/-! ## The keys of a link (R376, R377) -/

/-- The own part of the key agreement, as the state sends it. -/
def keysSent (b e : List Byte) (r : BitVec 384) : List Nat :=
  (ownCert ++ Config.pubKey r ++ Config.sign Config.deviceKey (b ++ Config.pubKey r ++ e)).map (·.toNat)

/-- The far end's message verifies against the certificate's root, its unit and its key. -/
def State.keysGood (s : State) (n : Nat) (c e b g : List Byte) (r : BitVec 384) : Prop :=
  Config.certRootOk c = true ∧ Config.certUnit c = s.farUnit n ∧ Config.verify (Config.certKey c) (b ++ e ++ Config.pubKey r) g = true ∧
    s.on SEC_STATUS_DRBG_OK = true

/-- The state that has sent its own part. -/
def State.keysAnswered (s : State) (n : Nat) (b e : List Byte) : State :=
  (s.random 48).2.emit (.beacon n 7 (keysSent b e (BitVec.ofNat 384 (s.random 48).1)))

theorem State.keysAnswered_pair (s : State) (n m gen : Nat) (b e : List Byte) (z : BitVec 384) :
    (s.keysAnswered n b e).derivePair m gen z = s.derivePair m gen z := by
  simp only [State.keysAnswered, State.random, State.derivePair, State.farUnit, State.cycle, State.now, State.emit_on, State.freshVal_on,
    State.emit_chip, State.freshVal_chip, State.emit_rd, State.freshVal_rd, State.emit_time, State.freshVal_time]

/-- A message of the far end, judged on the state that has sent its own part. -/
theorem execKeysBeacon_eq {s : State} {n : Nat} (c e b g : List Byte) (hin : s.inT n tKeys = true) :
    exec (.keysBeacon n c e b g) s = .next
      (if Config.certRootOk c && Config.certUnit c == s.farUnit n &&
          Config.verify (Config.certKey c) (b ++ e ++ Config.pubKey (BitVec.ofNat 384 (s.random 48).1)) g && s.on SEC_STATUS_DRBG_OK then
        ((((s.keysAnswered n b e).modLk n (fun _ => { cur := some (s.derivePair n 0 (Config.ecdh (BitVec.ofNat 384 (s.random 48).1) e)) })).flag
          (LNK_STATUS_KEYS_ON n) true).enterCycle n).showKey n
      else (s.keysAnswered n b e).trainFail n 9 tKeys) := by
  have hfar : (s.keysAnswered n b e).farUnit n = s.farUnit n := by
    simp only [State.keysAnswered, State.random, State.farUnit, State.emit_rd, State.freshVal_rd]
  have hon : (s.keysAnswered n b e).on SEC_STATUS_DRBG_OK = s.on SEC_STATUS_DRBG_OK := by
    simp only [State.keysAnswered, State.random, State.emit_on, State.freshVal_on]
  rw [← hfar, ← hon, ← s.keysAnswered_pair n n 0 b e]
  change execKeysBeacon n c e b g s = _
  rw [execKeysBeacon, State.when_of _ _ hin]
  rfl

theorem State.keysGood_iff (s : State) (n : Nat) (c e b g : List Byte) (r : BitVec 384) : s.keysGood n c e b g r ↔
    (Config.certRootOk c && Config.certUnit c == s.farUnit n && Config.verify (Config.certKey c) (b ++ e ++ Config.pubKey r) g &&
      s.on SEC_STATUS_DRBG_OK) = true := by
  simp only [State.keysGood, Bool.and_eq_true, beq_iff_eq, and_assoc]

theorem State.keysAccepted_effect (s : State) {n : Nat} (hn : n < 3) (k : KeyPair) (o : Out) (ho : o ∈ s.out) :
    o ∈ ((((s.modLk n (fun _ => { cur := some k })).flag (LNK_STATUS_KEYS_ON n) true).enterCycle n).showKey n).out ∧
      (((((s.modLk n (fun _ => { cur := some k })).flag (LNK_STATUS_KEYS_ON n) true).enterCycle n).showKey n).lk n).cur = some k ∧
      ((((s.modLk n (fun _ => { cur := some k })).flag (LNK_STATUS_KEYS_ON n) true).enterCycle n).showKey n).on (LNK_STATUS_KEYS_ON n) =
        true := by
  refine ⟨?_, ?_, ?_⟩
  · refine (State.showKey_follows (msk := 558) n (State.enterCycle_follows (msk := 558) rfl n (Follows.refl 558 _))).out.subset ?_
    rw [State.flag_out, State.modLk_out]
    exact ho
  · rw [State.showKey_lk, State.enterCycle_lk, State.flag_lk, State.modLk_lk]
  · rw [State.on, State.showKey_rd _ _ (by simp only [LNK_STATUS_KEYS_ON, SEC_LINK_KEY_GEN]; omega),
      State.enterCycle_rd _ hn (Fld.apart_iff _ _ |>.2 (.inl ⟨by simp [LNK_STATUS_TSTATE], by simp [LNK_STATUS_KEYS_ON], .inr (by simp [LNK_STATUS_TSTATE, LNK_STATUS_KEYS_ON])⟩)) rfl]
    exact State.on_flag_one _ _ _ rfl

theorem State.inT_lt {s : State} {n t : Nat} (h : s.inT n t = true) : n < 3 := by
  simp only [State.inT, Bool.and_eq_true, decide_eq_true_eq] at h
  exact h.1.1.1

/-! ## The replacement of a key (R379, R381) -/

theorem State.queueUnit_lk (s : State) (n : Nat) (u : CtlUnit) : (s.queueUnit n u).lk n = s.lk n := by
  rw [State.lk, State.queueUnit, State.modEp, State.modPort_port, State.lk]

/-- The free values that a ready message takes, and the pair and the challenge that it makes of them. -/
def State.readyTaken (s : State) (n gen : Nat) (e : List Byte) : State :=
  ((s.random 48).2.random 16).2.modLk n (fun t => { t with
    next := some (((s.random 48).2.random 16).2.derivePair n gen (Config.ecdh (BitVec.ofNat 384 (s.random 48).1) e))
    readyFar := true
    kat := some ((s.random 48).2.random 16).1 })

theorem execNextReady_due {s : State} {n : Nat} {k : KeyPair} (e : List Byte) (hn : s.native n = true) (hcur : (s.lk n).cur = some k)
    (hsince : (s.lk n).since.isSome = true) (hnext : (s.lk n).next = none) : exec (.nextReady n (k.gen + 1) e false) s =
      .next ((((s.readyTaken n ((k.gen + 1) % 256) e).queueUnit n (.key 1 ((k.gen + 1) % 256) 0 0)).queueUnit n
        (.key 2 ((k.gen + 1) % 256) 0 ((s.random 48).2.random 16).1)).showKey n) := by
  change execNextReady n (k.gen + 1) e false s = _
  simp only [execNextReady, hn, State.when_true, Bool.false_and, Bool.and_false, State.when_false, hcur, hsince, hnext, Option.map_some,
    Option.getD_some, beq_self_eq_true, Option.isNone_none, Bool.and_self, done, State.readyTaken]

/-- Settles O48: each command by its condition, each effect by the parts that it changes. -/
theorem linkKeyCommands : Obligations.LinkKeyCommands := by
  refine ⟨fun s n c e b g hin => ?_, fun s p n hn h => ?_, fun s n hn hpar hage => ?_, fun s n hn hre => ?_, fun s n hn hon hage => ?_,
    fun s n b hmay => ?_, fun s n k e hn hcur hsince hnext => ?_, fun s n d k hn hnext => ?_, fun s n d k c hn hnext hkat hini => ?_,
    fun s n k w hn hini hnext hgen hlater => ?_, fun s n k w hn hini hnext hgen hw hlater => ?_, fun s n k w hn hnext hgen hw => ?_,
    fun s n k w hn hnext hw hsw hge hmove => ?_, fun s n k w hn hnext hw hsw hrel hge => ?_, fun s n w hn hw hor hge => ?_,
    fun s n hn hlate hsw => ?_⟩
  · have hexec := execKeysBeacon_eq c e b g hin
    have hgood := s.keysGood_iff n c e b g (BitVec.ofNat 384 (s.random 48).1)
    refine ⟨_, hexec, fun h => ?_, fun h => ?_⟩
    · rw [if_pos (hgood.1 h)]
      refine State.keysAccepted_effect _ (State.inT_lt hin) _ _ ?_
      rw [State.keysAnswered, State.emit_out]
      exact List.mem_append_right _ List.mem_cons_self
    · rw [if_neg (fun hg => h (hgood.2 hg))]
      simp only [State.keysAnswered, keysSent]
  · exact congrArg Outcome.next ((State.when_of s _ (decide_eq_true hn)).trans
      (State.runCmd_accepted (c := cmdLinkRotate n) h rfl rfl rfl))
  · change execKeyRotationDue n s = _
    rw [execKeyRotationDue, hn, hpar, decide_eq_true hage, Bool.and_self, Bool.and_self, State.when_true, done]
  · exact congrArg Outcome.next (State.when_of s _ (by simp [hn, hre]))
  · change execKeyAgeLimit n s = _
    rw [execKeyAgeLimit, hn, hon, decide_eq_true hage, Bool.and_self, Bool.and_self, State.when_true, done]
  · simp only [State.startReplace, hmay, if_true, State.modLk_lk, and_self]
  · refine ⟨_, execNextReady_due e hn hcur hsince hnext, ?_⟩
    simp only [State.showKey_lk, State.queueUnit_lk, State.readyTaken, State.modLk_lk, Option.map_some, State.derivePair, Nat.mod_mod,
      Option.isSome_some, true_and]
    refine ⟨hcur, ?_⟩
    rw [State.showKey, State.wr_fresh, State.wr_fresh, State.queueUnit, State.modEp_fresh, State.queueUnit, State.modEp_fresh, State.modLk_fresh]
    rfl
  · change execKatChal n d s = _
    simp only [execKatChal, hn, State.when_true, hnext, done]
  · have hexec : exec (.katResp n d) s = .next (if (Config.aes256 k.rx (BitVec.ofNat 128 c)).toNat ≠ d then s.abandonKey n
        else s.modLk n (fun t => { t with katOk := true, kat := none, w := if t.initiator then some (cycAdd s.cycle 8) else t.w })) := by
      change execKatResp n d s = _
      simp only [execKatResp, hn, State.when_true, hnext, hkat, done]
    refine ⟨_, hexec, fun h => if_pos h, fun h => ?_⟩
    rw [if_neg (not_not_intro h)]
    simp only [State.modLk_lk, hini, if_true, true_and]
    exact fun a _ => State.modLk_word ..
  · refine ⟨_, congrArg Outcome.next (State.when_of s _ (by simp [hn, hini, hnext, hlater, Nat.mod_eq_of_lt hgen])), by simp, by simp,
      fun a _ => State.modLk_word ..⟩
  · refine ⟨_, congrArg Outcome.next (State.when_of s _ (by simp [hn, hini, hnext, hlater, hw, Nat.mod_eq_of_lt hgen])), by simp, by simp,
      fun a _ => State.modLk_word ..⟩
  · refine ⟨_, congrArg Outcome.next (State.when_of s _ (by simp [hn, hnext, hw, Nat.mod_eq_of_lt hgen])), by simp,
      fun a _ => State.modLk_word ..⟩
  · have hany : (s.lk n).w.any (fun w => cycGe s.cycle w && !s.stepMoves w) = true := by
      rw [hw, Option.any_some, hge, hmove]
      rfl
    refine ⟨_, congrArg Outcome.next (State.when_of s _ (by rw [hn, hany]; rfl)), ?_, fun hcur => ?_⟩
    · rw [State.showKey_lk, State.modLk_lk, hnext, Option.map_some, if_pos hsw, hw, Option.getD_some]
    · refine State.showKey_switching (k := { k with first := w }) ?_ ?_ ?_ ?_ hge <;> rw [State.modLk_lk]
      · exact hcur
      · rw [hnext, Option.map_some, if_pos hsw, hw, Option.getD_some]
      · exact hsw
      · exact hw
  · have hany : (s.lk n).w.any (fun w => cycGe s.cycle (cycAdd w 8)) = true := by rw [hw, Option.any_some, hge]
    have hexec : exec (.keyReleaseCycle n) s =
        .next ((s.modLk n (fun t => { cur := t.next.map (fun x => { x with first := t.w.getD x.first }) })).showKey n) := by
      change execKeyReleaseCycle n s = _
      simp only [execKeyReleaseCycle, hn, hany, hsw, hrel, hnext, Option.isSome_some, Bool.and_self, State.when_true, if_true, done]
    exact ⟨_, hexec, by simp [hnext, hw], by simp, by simp⟩
  · have hany : (s.lk n).w.any (fun w => cycGe s.cycle (cycAdd w 8)) = true := by rw [hw, Option.any_some, hge]
    refine congrArg Outcome.next ((State.when_of s _ (by rw [hn, hany]; rfl)).trans (if_neg ?_))
    rcases hor with h | h <;> simp [h]
  · exact ⟨_, congrArg Outcome.next (State.when_of s _ (by simp [hn, hlate, hsw])), by simp, by simp⟩

end Sys2Proof.Machine
end

section
/-!
PROOFS. The words that a link changes when it goes down: its status and role, those of its cycle, its fixed contexts, its tree position
and the time that it carried.
-/

namespace Sys2Proof.Machine

/-! ## The time source -/

section Time
variable {a : Nat}

theorem State.srcState_word (s : State) (v : Nat) (h : a / 0x1000 ≠ 6) : (s.srcState v).word a = s.word a := by
  have hst : a ≠ TIME_SRC_STATUS_STATE.addr := fun he => h (he ▸ rfl)
  have hisr : a ≠ (PG_ISR 6).addr := fun he => h (he ▸ rfl)
  have hfreq : a ≠ TIME_FREQ.addr := fun he => h (he ▸ rfl)
  have hshow (u : State) : u.showTimeValid.word a = u.word a := State.word_flag_ne _ TIME_SRC_STATUS_TIME_VALID _ _ hst
  have hchanged : (((s.when (s.rd TIME_SRC_STATUS_STATE == stHoldover)
      (fun s => s.wr TIME_SRC_STATUS_HOLD_S (min 65535 s.holdSecs))).wr TIME_SRC_STATUS_STATE v).raise 6 0).word a = s.word a := by
    rw [State.raise_word _ _ _ _ hisr, State.word_wr_ne _ _ _ _ hst, State.when_word _ _ _ _ (State.word_wr_ne _ TIME_SRC_STATUS_HOLD_S _ _ hst)]
  unfold State.srcState
  refine State.ite_word (hshow s) ?_
  dsimp only
  rw [hshow]
  refine State.ite_word ?_ (State.ite_word ?_ (State.ite_word ?_ ?_)) <;> try rw [State.modTime_word, hchanged]
  rw [State.raise_word _ _ _ _ hisr, State.modTime_word, State.wrS, State.word_wr_ne _ _ _ _ hfreq,
    State.word_wr_ne _ TIME_SRC_STATUS_HOLD_S _ _ hst, hchanged]

theorem State.inputLost_word (s : State) (cause : Nat) (h : a / 0x1000 ≠ 6) : (s.inputLost cause).word a = s.word a := by
  have hst : a ≠ TIME_SRC_STATUS_STATE.addr := fun he => h (he ▸ rfl)
  have hcause : (s.wr TIME_SRC_STATUS_CAUSE cause).word a = s.word a := State.word_wr_ne _ TIME_SRC_STATUS_CAUSE _ _ hst
  exact State.ite_word ((State.srcState_word _ _ h).trans hcause) (State.ite_word ((State.srcState_word _ _ h).trans hcause) hcause)

theorem State.showInputs_word (s : State) (l : List Nat) (h : a / 0x1000 ≠ 6) : (s.showInputs l).word a = s.word a := by
  have hst : a ≠ TIME_SRC_STATUS_STATE.addr := fun he => h (he ▸ rfl)
  have hfol : a ≠ TIME_LINK_TM_ST_FOLLOW.addr := fun he => h (he ▸ rfl)
  have hisr : a ≠ (PG_ISR 6).addr := fun he => h (he ▸ rfl)
  unfold State.showInputs
  dsimp only
  refine (State.when_word _ _ _ _ ?_).trans ?_
  · rw [State.inputLost_word _ _ h, State.modTime_word]
  rw [State.word_flag_ne _ TIME_SRC_STATUS_ROOT _ _ hst,
    State.word_wr_ne _ _ _ _ hfol, State.modTime_word, State.when_word _ _ _ _ (State.raise_word _ _ _ _ hisr)]

end Time

/-! ## The fixed contexts -/

section Contexts
variable {a : Nat}

theorem State.ctxSetLife_word (s : State) {c : Nat} (v : Nat) (hc : c < 256) (h15 : a / 0x1000 ≠ 15) (h : a < 0x200000) :
    (s.ctxSetLife c v).word a = s.word a := by
  have hlife : a ≠ (CTX_STATE_LIFE c).addr := by simp only [CTX_STATE_LIFE]; omega
  have hevt : a ≠ (TUN_CTX_EVT (c / 32)).addr := by simp only [TUN_CTX_EVT]; omega
  have hfault : a ≠ (TUN_CTX_FAULT (c / 32)).addr := by simp only [TUN_CTX_FAULT]; omega
  have hcount : a ≠ TUN_COUNT_ON_N.addr := fun he => h15 (he ▸ rfl)
  have hisr : a ≠ (PG_ISR 15).addr := fun he => h15 (he ▸ rfl)
  unfold State.ctxSetLife
  refine State.ite_word rfl ?_
  dsimp only
  rw [State.raise_word _ _ _ _ hisr, State.word_wr_ne _ TUN_COUNT_FAULT_N _ _ hcount, State.word_wr_ne _ _ _ _ hcount,
    State.word_setBit_ne _ _ _ _ _ hfault, State.eventBit_word _ _ _ _ hevt, State.word_wr_ne _ _ _ _ hlife]

theorem State.dropFixed_word (s : State) (c : Nat) (h : a < 0x200000) : (s.dropFixed c).word a = s.word a := by
  unfold State.dropFixed
  dsimp only
  rw [State.mk_word]
  exact State.word_inc_ne _ _ _ _ (by simp only [CTX_DROP_STOP]; omega)

theorem State.fixedContexts_word (s : State) {n : Nat} (up : Bool) (hn : n < 3) (h15 : a / 0x1000 ≠ 15) (h : a < 0x200000) :
    (s.fixedContexts n up).word a = s.word a := by
  refine foldS_word_mem _ _ fun u c hc => State.ite_word rfl ?_
  have hc' : c < 256 := by
    simp only [List.mem_cons, List.not_mem_nil, or_false] at hc
    omega
  dsimp only
  rw [State.ctxSetLife_word _ _ hc' h15 h, State.when_word _ _ _ _ (State.mk_word ..),
    State.word_wr_ne _ ⟨0x200004 + 0x80 * c, 5, 4⟩ _ _ (by dsimp only; omega), State.word_setWord_ne _ _ _ _ (by omega),
    State.word_setWord_ne _ _ _ _ (by omega), State.word_setWord_ne _ _ _ _ (by omega), State.dropFixed_word _ _ h]

@[simp] theorem State.dropOldLtns_word (s : State) (n : Nat) : (s.dropOldLtns n).word a = s.word a := State.mk_word ..

end Contexts

/-! ## The link's own words -/

section Link
variable {n a : Nat}

/-- The words that a link's going down changes, but for its status, role and cycle. -/
theorem State.dropLink_word (s : State) (hn : n < 3) (h6 : a / 0x1000 ≠ 6) (h15 : a / 0x1000 ≠ 15) (h : a < 0x200000)
    (hst : a ≠ 0x10044 + 0x1000 * n) (hrole : a ≠ 0x1005C + 0x1000 * n) (hcyc : a ≠ 0x13040 + 0x1000 * n) (hkey : a ≠ 0x90C4 + 4 * n) :
    (s.dropLink n).word a = s.word a := by
  have hconf : a ≠ TIME_LINK_TM_ST_CONFLICT.addr := fun he => h6 (he ▸ rfl)
  unfold State.dropLink
  dsimp only
  rw [State.mk_word, State.modPort_word, State.word_wr_ne _ (SEC_LINK_KEY_PHASE n) _ _ hkey, State.word_flag_ne _ (CYC_STATUS_TIME_MASTER n) _ _ hcyc,
    State.word_setBit_ne _ TIME_LINK_TM_ST_MASTER _ _ _ hconf, State.word_setBit_ne _ _ _ _ _ hconf, State.showInputs_word _ _ h6,
    State.word_flag_ne _ (LNK_ROLE_CTRL_SWAP_PENDING n) _ _ hrole, State.word_wr_ne _ (LNK_STATUS_SKEW_UI n) _ _ hst,
    State.word_wr_ne _ (LNK_STATUS_RX_INV n) _ _ hst, State.word_flag_ne _ (LNK_STATUS_LANES_SWAPPED n) _ _ hst,
    State.word_flag_ne _ (LNK_STATUS_KEYS_ON n) _ _ hst, State.word_wr_ne _ (CYC_STATUS_PROPOSER n) _ _ hcyc,
    State.word_wr_ne _ (CYC_STATUS_PEND n) _ _ hcyc, State.word_wr_ne _ (CYC_STATUS_DATA_SLOTS n) _ _ hcyc, State.dropOldLtns_word,
    State.fixedContexts_word _ _ hn h15 h]

theorem State.leaveTree_word (s : State) (hpos : a ≠ 0x60) (hst : a ≠ 0x10044 + 0x1000 * n) : (s.leaveTree n).word a = s.word a := by
  simp only [State.leaveTree, State.showChips]
  rw [State.word_wr_ne _ SYS_TREE_POS_CHIPS _ _ hpos]
  refine (State.when_word _ _ _ _ ?_).trans ((State.when_word _ _ _ _ (State.mk_word ..)).trans ((State.when_word _ _ _ _ ?_).trans ?_))
  · rw [State.mk_word]
    exact State.word_flag_ne _ SYS_TREE_POS_CROWN _ _ hpos
  · rw [State.mk_word, State.word_wr_ne _ SYS_TREE_POS_CHIP _ _ hpos, State.word_wr_ne _ SYS_TREE_POS_DEPTH _ _ hpos,
      State.word_wr_ne _ SYS_TREE_POS_UP_PORT _ _ hpos]
  rw [State.word_flag_ne _ (LNK_STATUS_PARENT n) _ _ hst, State.word_flag_ne _ (LNK_STATUS_CHILD_EXCESS n) _ _ hst,
    State.word_setBit_ne _ SYS_TREE_POS_EXCESS _ _ _ hpos, State.word_setBit_ne _ SYS_TREE_POS_TWIN_PORTS _ _ _ hpos]

theorem State.applyFields_word (s : State) (l : List Fld) (h : a < 0x100000) : (s.applyFields l).word a = s.word a :=
  foldS_word _ _ _ fun u f => State.word_wr_ne _ _ _ _ (by simp only [Fld.inForce]; omega)

theorem State.enterDetect_word (s : State) (h : a < 0x100000) (hst : a ≠ 0x10044 + 0x1000 * n) : (s.enterDetect n).word a = s.word a := by
  simp only [State.enterDetect, State.modTr_word]
  rw [State.word_flag_ne _ (LNK_STATUS_MODE1040 n) _ _ hst, State.word_wr_ne _ (LNK_STATUS_TSTATE n) _ _ hst, State.applyRwp,
    State.applyFields_word _ _ h]

theorem State.linkDown_word (s : State) (cause : Nat) (hn : n < 3) (hpos : a ≠ 0x60) (h6 : a / 0x1000 ≠ 6) (h15 : a / 0x1000 ≠ 15)
    (hlnk : a / 0x1000 ≠ 16 + n) (h : a < 0x100000) (hcyc : a ≠ 0x13040 + 0x1000 * n) (hkey : a ≠ 0x90C4 + 4 * n) :
    (s.linkDown n cause).word a = s.word a := by
  have hst : a ≠ 0x10044 + 0x1000 * n := by omega
  have hfail : a ≠ (LNK_FAIL_CEILING n).addr := by simp only [LNK_FAIL_CEILING]; omega
  have hisr : a ≠ (PG_ISR (lnkPage n)).addr := by simp only [PG_ISR, lnkPage]; omega
  simp only [State.linkDown]
  rw [State.raise_word _ _ _ _ hisr, State.when_word _ _ _ _ (State.word_wr_ne _ _ _ _ hfail), State.enterDetect_word _ h hst,
    State.dropLink_word _ hn h6 h15 (by omega) hst (by omega) hcyc hkey, State.leaveTree_word _ hpos hst,
    State.word_wr_ne _ (LNK_STATUS_TSTATE n) _ _ hst, State.word_wr_ne _ (LNK_STATUS_LAST_DOWN n) _ _ hst]

theorem State.retrain_word (s : State) (hn : n < 3) (hpos : a ≠ 0x60) (h6 : a / 0x1000 ≠ 6) (h15 : a / 0x1000 ≠ 15)
    (hlnk : a / 0x1000 ≠ 16 + n) (h : a < 0x100000) (hcyc : a ≠ 0x13040 + 0x1000 * n) (hkey : a ≠ 0x90C4 + 4 * n) :
    (s.retrain n).word a = s.word a := by
  have hst : a ≠ 0x10044 + 0x1000 * n := by omega
  unfold State.retrain
  refine State.ite_word (s.linkDown_word 5 hn hpos h6 h15 hlnk h hcyc hkey) (State.when_word _ _ _ _ ?_)
  rw [State.enterDetect_word _ h hst, State.dropLink_word _ hn h6 h15 (by omega) hst (by omega) hcyc hkey, State.leaveTree_word _ hpos hst]

end Link

end Sys2Proof.Machine
end

section
/-!
PROOFS. The tamper events and the key store.
-/

namespace Sys2Proof.Machine

open Host (Outcome)

/-! ## Zeroisation (R371) -/

/-- The state whose keys are gone, before the links with keys retrain. -/
def State.keysGone (s : State) (src : Nat) : State :=
  let first := !s.on SEC_STATUS_TAMPER
  let s := s.modSec (fun t =>
    { t with slots := (List.range 32).map (fun i => (i, { zeroised := true })), kek := false, tamperAt := some s.elapsed })
  let now := if s.chip.d0Up then s.time.sec else s.time.rtc.getD 0
  let s := s.when first (fun s => (s.wr SEC_TAMPER_LOG_FIRST src).wr SEC_TAMPER_TIME (now % 2 ^ 32))
  let s := (s.flag SEC_STATUS_TAMPER true).incSat SEC_TAMPER_LOG_COUNT
  if s.chip.d0Up && !s.boot.cold then s.tamperRecord else s.modSec (fun t => { t with tamperDue := true })

/-- A link whose keys are gone retrains if it used them. -/
def State.linkKeysGone (s : State) (n : Nat) : State :=
  if s.on (LNK_STATUS_KEYS_ON n) then (s.modLk n (fun _ => {})).retrain n else s.modLk n (fun _ => {})

theorem State.zeroise_eq (s : State) (src : Nat) : s.zeroise src = foldS [0, 1, 2] State.linkKeysGone (s.keysGone src) := by
  simp only [State.zeroise, State.keysGone]
  rfl

theorem State.linkKeysGone_sec (s : State) (n : Nat) : (s.linkKeysGone n).sec = s.sec := by
  unfold State.linkKeysGone
  split
  · rw [(State.retrain_follows (msk := 335) rfl n (Follows.refl 335 _)).parts .sec rfl, State.modLk_sec]
  · rw [State.modLk_sec]

theorem State.linkKeysGone_word (s : State) {n : Nat} (hn : n < 3) : (s.linkKeysGone n).word SEC_STATUS_TAMPER.addr = s.word SEC_STATUS_TAMPER.addr := by
  unfold State.linkKeysGone
  refine State.ite_word ?_ (State.modLk_word ..)
  rw [State.retrain_word _ hn (by decide) (by decide) (by decide) (by simp only [SEC_STATUS_TAMPER]; omega) (by decide)
    (by simp only [SEC_STATUS_TAMPER]; omega) (by simp only [SEC_STATUS_TAMPER]; omega), State.modLk_word]

/-- The last part of a zeroisation: the record of the event, or its note for step B1. -/
def State.tamperNoted (s : State) : State :=
  if s.chip.d0Up && !s.boot.cold then s.tamperRecord else s.modSec (fun t => { t with tamperDue := true })

theorem State.tamperNoted_effect (s : State) : s.tamperNoted.sec.kek = s.sec.kek ∧ s.tamperNoted.sec.slots = s.sec.slots ∧
    s.tamperNoted.rd SEC_STATUS_TAMPER = s.rd SEC_STATUS_TAMPER := by
  unfold State.tamperNoted
  split
  · have hsec : s.tamperRecord.sec = s.sec := by
      rw [State.tamperRecord, (State.sysRecord_follows (msk := 2) rfl _ _ _ _ (Follows.refl 2 _)).parts .sec rfl, State.raise_sec]
    rw [hsec, State.tamperRecord, (State.sysRecord_sameWords _ _ _ _ _).rd (by decide), State.rd_raise_apart _ _ _ _ rfl]
    exact ⟨rfl, rfl, rfl⟩
  · rw [State.modSec_sec, State.modSec_rd]
    exact ⟨rfl, rfl, rfl⟩

/-- The log of the first event. -/
def State.firstTamper (s : State) (src now : Nat) : State := (s.wr SEC_TAMPER_LOG_FIRST src).wr SEC_TAMPER_TIME (now % 2 ^ 32)

/-- The security state without its keys. -/
def SecS.keysErased (t : SecS) (at_ : Nat) : SecS :=
  { t with slots := (List.range 32).map (fun i => (i, { zeroised := true })), kek := false, tamperAt := some at_ }

theorem State.keysGone_eq (s : State) (src : Nat) : ∃ first now, s.keysGone src =
    ((((s.modSec (·.keysErased s.elapsed)).when first (·.firstTamper src now)).flag SEC_STATUS_TAMPER true).incSat SEC_TAMPER_LOG_COUNT).tamperNoted :=
  ⟨_, _, by simp only [State.keysGone, State.tamperNoted, State.firstTamper, SecS.keysErased]; rfl⟩

theorem State.keysGone_sec (s : State) (src : Nat) : (s.keysGone src).sec.kek = false ∧
    (s.keysGone src).sec.slots = (List.range 32).map (fun i => (i, { zeroised := true })) := by
  have hfirst (u : State) (c : Bool) (v : Nat) : (u.when c (·.firstTamper src v)).sec = u.sec := by
    cases c
    · rfl
    · rw [State.when_true, State.firstTamper, State.wr_sec, State.wr_sec]
  obtain ⟨first, now, h⟩ := s.keysGone_eq src
  obtain ⟨hkek, hslots, -⟩ := State.tamperNoted_effect
    ((((s.modSec (·.keysErased s.elapsed)).when first (·.firstTamper src now)).flag SEC_STATUS_TAMPER true).incSat SEC_TAMPER_LOG_COUNT)
  rw [h, hkek, hslots, State.incSat_sec, State.flag_sec, hfirst, State.modSec_sec]
  exact ⟨rfl, rfl⟩

theorem State.keysGone_tamper (s : State) (src : Nat) : (s.keysGone src).rd SEC_STATUS_TAMPER = 1 := by
  obtain ⟨first, now, h⟩ := s.keysGone_eq src
  rw [h, (State.tamperNoted_effect _).2.2, State.rd_incSat_apart _ _ _ rfl, State.rd_flag_fits _ _ _ rfl]
  rfl

/-- An event latches the tamper, and no key is left. -/
theorem State.zeroise_effect (s : State) (src : Nat) : (s.zeroise src).on SEC_STATUS_TAMPER = true ∧ (s.zeroise src).sec.kek = false ∧
    ∀ i, i < 32 → (s.zeroise src).slot i = { zeroised := true } := by
  obtain ⟨hkek, hslots⟩ := s.keysGone_sec src
  have hsec : (s.zeroise src).sec = (s.keysGone src).sec := by
    rw [State.zeroise_eq]
    exact foldS_induct (P := fun t => t.sec = (s.keysGone src).sec) rfl fun u n _ hu => (u.linkKeysGone_sec n).trans hu
  refine ⟨(State.on_iff_rd _ _).2 ?_, by rw [hsec, hkek], fun i hi => ?_⟩
  · rw [State.zeroise_eq, State.rd_of_word (foldS_word_mem _ _ fun u n hn => u.linkKeysGone_word (by
      simp only [List.mem_cons, List.not_mem_nil, or_false] at hn; omega)), State.keysGone_tamper]
  · rw [State.slot, hsec, hslots]
    interval_cases i <;> rfl

/-! ## The key store (R373, R374) -/

theorem State.authEnd_slot (s : State) (r i : Nat) : (s.authEnd r).slot i = s.slot i := by
  rw [State.authEnd, State.wr_slot, State.wr_slot, State.wr_slot]
  rfl

/-- A command of the key store with its key and no tamper latched is decided by its authorisation. -/
theorem State.ksChk_of_ready {s : State} {d : List Byte} (hr : s.secReady = true) (ht : s.on SEC_STATUS_TAMPER = false) :
    s.ksChk d = if s.ksAuth d then 0 else 6 := by
  simp [State.ksChk, hr, ht]

/-- A command bit that an authorisation decides is accepted with it and rejected with code 6 without it. -/
theorem State.runCmd_authorised {s : State} {p : Path} {c : Cmd} {a : Nat} {ok : Bool} (h : Reaches s p a) (ha : c.fld.addr % 0x40000 = a)
    (hc : c.chk s = if ok then 0 else 6) :
    s.runCmd p c = if ok then accepted s (c.act s) p a else s.reject p a 6 ((s.word a).toNat ||| 2 ^ c.fld.lo) := by
  cases ok
  · exact State.runCmd_rejected h ha (by decide) hc
  · exact State.runCmd_accepted h ha hc rfl

theorem cmdKsLoadNext_chk {s : State} (hr : s.secReady = true) (ht : s.on SEC_STATUS_TAMPER = false) (hk : s.sec.kek = true)
    (hs : (s.slot s.ksSel).st ≠ 3) : cmdKsLoadNext.chk s = if s.ksAuth s.ksBytes then 0 else 6 := by
  simp only [cmdKsLoadNext, State.ksChk_of_ready hr ht, hk]
  cases s.ksAuth s.ksBytes <;> simp [hs]

theorem cmdKsSwitch_chk {s : State} (hr : s.secReady = true) (ht : s.on SEC_STATUS_TAMPER = false) (hs : (s.slot s.ksSel).st = 2) :
    cmdKsSwitch.chk s = if s.ksAuth (beBytes 1 s.ksSel) then 0 else 6 := by
  simp only [cmdKsSwitch, State.ksChk_of_ready hr ht, hs]
  cases s.ksAuth (beBytes 1 s.ksSel) <;> simp

/-- The security state after an ERASE_ALL that by_ authorised. -/
def SecS.slotsErased (t : SecS) (by_ : Nat) : SecS :=
  { t with disarm := some by_, slots := t.slots.filterMap (fun (e : Nat × KeySlot) =>
      if e.2.st = 3 then some (e.1, { e.2 with eraseDue := true, zeroised := false }) else none) }

theorem cmdKsEraseAll_act (s : State) : cmdKsEraseAll.act s =
    let t := (s.authEnd 6).modSec (·.slotsErased s.sec.authBy)
    (t.flag SEC_STATUS_TAMPER (t.on SEC_STATUS_TAMPER && t.sec.tamperAt == some t.elapsed)).wr SEC_KS_STATUS_REASON 0 := by
  simp only [cmdKsEraseAll, SecS.slotsErased]

/-- ERASE_ALL clears the latch of an earlier instant, and uses its authorisation up. -/
theorem cmdKsEraseAll_effect (s : State) (h : s.sec.tamperAt ≠ some s.elapsed) : (cmdKsEraseAll.act s).on SEC_STATUS_TAMPER = false ∧
    (cmdKsEraseAll.act s).sec.auth = none ∧ (cmdKsEraseAll.act s).rd SEC_KS_STATUS_REASON = 0 := by
  have hsec : ((s.authEnd 6).modSec (·.slotsErased s.sec.authBy)).sec =
      ({ s.sec with auth := none, disarm := none } : SecS).slotsErased s.sec.authBy := by
    rw [State.modSec_sec, State.authEnd, State.wr_sec, State.wr_sec, State.wr_sec, State.modSec_sec]
  have hnow : ((s.authEnd 6).modSec (·.slotsErased s.sec.authBy)).elapsed = s.elapsed := by
    rw [State.elapsed, State.modSec_time, State.authEnd, State.wr_time, State.wr_time, State.wr_time, State.modSec_time, State.elapsed]
  rw [cmdKsEraseAll_act]
  dsimp only
  generalize (s.authEnd 6).modSec (·.slotsErased s.sec.authBy) = t at hsec hnow ⊢
  refine ⟨?_, by rw [State.wr_sec, State.flag_sec, hsec]; rfl, by rw [State.rd_wr_fits _ _ _ rfl]; rfl⟩
  rw [State.on_wr_apart _ _ _ _ rfl, State.on_flag_one _ _ _ rfl, hsec, hnow]
  exact Bool.and_eq_false_imp.2 fun _ => beq_eq_false_iff_ne.2 h

/-- A retirement changes only the slot. -/
theorem State.keyRetired_exec {s : State} {i : Nat} (hi : i < 32) (h : (s.slot i).st = 3) : exec (.keyRetired i) s =
    .next (s.modSlot i (fun t => if t.eraseDue then { zeroised := t.zeroised } else { t with former := none, st := 1, gen := (t.gen + 1) % 256 })) :=
  congrArg Outcome.next (State.when_of s _ (by simp [hi, h]))

/-- Settles O49: a source, a write and a key command take the branch of what is armed, ready and authorised. -/
theorem tamperAndKeyStoreCommands : Obligations.TamperAndKeyStoreCommands := by
  unfold Obligations.TamperAndKeyStoreCommands
  refine ⟨?_, State.zeroise_effect, ?_, ?_, ?_, ?_, ?_, ?_, ?_, ?_, ?_, cmdKsEraseAll_effect, ?_, ?_, ?_⟩
  case _ =>
    intro s x hx
    exact congrArg Outcome.next (State.when_of s _ (by simpa using hx))
  case _ =>
    intro s hmiss harmed
    exact congrArg Outcome.next (State.when_of _ _ (by rw [hmiss, harmed]; rfl))
  case _ =>
    intro s
    refine ⟨s.modSec (fun t => { t with meshMiss := false }), rfl, ?_⟩
    exact ⟨by rw [State.modSec_sec], fun a _ => State.modSec_word ..⟩
  case _ =>
    intro s p v h hok
    exact congrArg Outcome.next (State.writeOwn_accepted h (by rcases hok with hd | hd <;> simp [hd]))
  case _ =>
    intro s p v h hd hno
    exact congrArg Outcome.next ((State.writeOwn_rejected h (by simp [hd, hno])).trans (by simp [hd, hno]))
  case _ =>
    intro s p h hr ht hk hs
    refine (congrArg Outcome.next (State.runCmd_authorised (c := cmdKsLoadNext) h rfl (cmdKsLoadNext_chk hr ht hk hs))).trans ?_
    rfl
  case _ =>
    intro s p h hne
    exact congrArg Outcome.next (State.runCmd_rejected (c := cmdKsLoadNext) h rfl hne (if_pos hne))
  case _ =>
    intro s p h hr ht hs
    refine (congrArg Outcome.next (State.runCmd_authorised (c := cmdKsSwitch) h rfl (cmdKsSwitch_chk hr ht hs))).trans ?_
    rfl
  case _ =>
    intro s p h hr ht
    refine (congrArg Outcome.next (State.runCmd_authorised (c := cmdKsErase) h rfl (State.ksChk_of_ready hr ht))).trans ?_
    rfl
  case _ =>
    intro s p h hr
    refine (congrArg Outcome.next (State.runCmd_authorised (c := cmdKsEraseAll) (ok := s.ksAuth [0xFF]) h rfl (by simp [cmdKsEraseAll, hr]))).trans ?_
    rfl
  case _ =>
    intro s k y hnext
    have hslot : (cmdKsSwitch.act s).slot s.ksSel =
        { s.slot s.ksSel with former := some (s.slot s.ksSel).key, key := k, typ := y, next := none, st := 3 } := by
      simp only [cmdKsSwitch, State.wr_slot]
      rw [State.modSlot_slot, State.authEnd_slot, hnext]
    rw [hslot]
    exact ⟨rfl, rfl, rfl, rfl⟩
  case _ =>
    intro s i hi hst hdue
    refine ⟨_, State.keyRetired_exec hi hst, ?_⟩
    dsimp only
    rw [State.modSlot_slot, hdue]
    exact ⟨rfl, rfl, rfl, rfl, fun a _ => State.modSlot_word ..⟩
  case _ =>
    intro s i hi hst hdue
    refine ⟨_, State.keyRetired_exec hi hst, ?_⟩
    dsimp only
    rw [State.modSlot_slot, hdue]
    exact ⟨rfl, fun a _ => State.modSlot_word ..⟩

end Sys2Proof.Machine
end

section
/-!
PROOFS. Measurement, attestation and signed authorisation.
-/

namespace Sys2Proof.Machine

open Host (Outcome)

/-! ## Attestation (R384, R385) -/

theorem beNat_lt (l : List Byte) : beNat l < 256 ^ l.length := by
  unfold beNat
  induction l using List.reverseRecOn with
  | nil => simp
  | append_singleton xs x ih =>
    have hx : x.toNat < 256 := x.isLt
    rw [List.foldl_append, List.length_append, List.length_singleton, Nat.pow_succ]
    simp only [List.foldl_cons, List.foldl_nil]
    omega

theorem beNat_word (l : List Byte) : beNat (l.take 4) % 2 ^ 32 = beNat (l.take 4) := by
  refine Nat.mod_eq_of_lt ((beNat_lt _).trans_le ?_)
  calc 256 ^ (l.take 4).length ≤ 256 ^ 4 := Nat.pow_le_pow_right (by decide) (List.length_take_le ..)
    _ = 2 ^ 32 := by decide

/-- The words of ATT_BUF take the bytes of a list. -/
def State.attShown (s : State) (b : List Byte) : State :=
  foldS (List.range 138) (fun s k => s.wr (SEC_ATT_BUF k) (beNat ((b.drop (4 * k)).take 4))) s

theorem State.attShown_rd (s : State) (b : List Byte) {k : Nat} (hk : k < 138) : (s.attShown b).rd (SEC_ATT_BUF k) = beNat ((b.drop (4 * k)).take 4) := by
  rw [State.attShown, foldS_wr_rd_mem (F := SEC_ATT_BUF) (v := fun _ k => beNat ((b.drop (4 * k)).take 4)) _ s List.nodup_range
    (List.mem_range.2 hk) (by simp [SEC_ATT_BUF, Fld.fits]) (fun x _ hx => by simp [Fld.apart, SEC_ATT_BUF]; omega) (fun _ _ => rfl)]
  exact beNat_word _

/-- The state after the signing of a statement. -/
def State.attSigned (s : State) : State :=
  (((s.attShown (s.sec.att ++ (Config.sign Config.deviceKey s.sec.att ++ List.replicate 96 0).take 96)).flag SEC_ATT_STATUS_BUSY false).flag
    SEC_ATT_STATUS_DONE true).raise 9 1

theorem State.attDone_exec {s : State} (h : s.on SEC_ATT_STATUS_BUSY = true) : exec .attDone s = .next s.attSigned := by
  change execAttDone s = _
  simp only [execAttDone, h, State.when_true, done, State.attSigned, State.attShown]

theorem State.attSigned_effect (s : State) : s.attSigned.on SEC_ATT_STATUS_BUSY = false ∧ s.attSigned.on SEC_ATT_STATUS_DONE = true ∧
    (s.attSigned.word (PG_ISR 9).addr).getLsbD 1 = true ∧ ∀ k, k < 138 → s.attSigned.rd (SEC_ATT_BUF k) =
      beNat (((s.sec.att ++ (Config.sign Config.deviceKey s.sec.att ++ List.replicate 96 0).take 96).drop (4 * k)).take 4) := by
  unfold State.attSigned
  refine ⟨?_, ?_, State.raise_bit _ _ _ (by decide), fun k hk => ?_⟩
  · rw [State.on_raise_apart _ _ _ _ rfl, State.on_flag_apart _ _ _ _ rfl, State.on_flag_one _ _ _ rfl]
  · rw [State.on_raise_apart _ _ _ _ rfl, State.on_flag_one _ _ _ rfl]
  · rw [State.rd_raise_apart _ _ _ _ (by simp [Fld.apart, SEC_ATT_BUF, PG_ISR]; omega),
      State.rd_flag_apart _ _ _ _ (by simp [Fld.apart, SEC_ATT_BUF, SEC_ATT_STATUS_DONE]; omega),
      State.rd_flag_apart _ _ _ _ (by simp [Fld.apart, SEC_ATT_BUF, SEC_ATT_STATUS_BUSY]; omega), State.attShown_rd _ _ hk]

/-! ## Challenges and tokens (R386, R387) -/

/-- The words of a new challenge. -/
def State.newChallenge (s : State) : List Nat := (List.range 8).map (fun k => (s.random 32).1 / 2 ^ (32 * (7 - k)) % 2 ^ 32)

theorem State.readBack_fresh (s : State) (p : Path) (a v : Nat) : (s.readBack p a v).fresh = s.fresh := by
  rw [State.readBack, State.complete]

/-- The words of CHALLENGE take a new challenge. -/
def State.challengeShown (s : State) : State :=
  foldS (s.newChallenge.zip (List.range 8)) (fun s (e : Nat × Nat) => s.wr (SEC_CHALLENGE e.2) e.1) (s.random 32).2

theorem State.challengeShown_parts (s : State) : s.challengeShown.fresh = s.fresh + 1 ∧ s.challengeShown.elapsed = s.elapsed :=
  foldS_induct (P := fun t => t.fresh = s.fresh + 1 ∧ t.elapsed = s.elapsed) ⟨rfl, rfl⟩ fun _ _ _ hu =>
    ⟨(State.wr_fresh ..).trans hu.1, (congrArg TimeS.ran (State.wr_time ..)).trans hu.2⟩

theorem State.challengeRead_exec {s : State} {p : Path} (h : Reaches s p (SEC_CHALLENGE 0).addr) (hr : s.secReady = true)
    (hd : s.on SEC_STATUS_DRBG_OK = true) :
    exec (.challengeRead p) s = .next ((s.challengeShown.modSec (fun t => { t with chal := some (s.newChallenge, s.elapsed) })).readBack p
      (SEC_CHALLENGE 0).addr (s.newChallenge.headD 0)) := by
  rw [← s.challengeShown_parts.2]
  change execChallengeRead p s = _
  simp only [execChallengeRead, State.gate_reaches (x := ⟨p, (SEC_CHALLENGE 0).addr, false, 0⟩) h, hr, hd, Bool.not_true, Bool.false_eq_true,
    or_self, if_false, done, State.challengeShown, State.newChallenge]

theorem State.tokenResult_lt (s : State) : s.tokenResult < 8 := by
  unfold State.tokenResult
  dsimp only
  repeat' split
  all_goals decide

/-- What the end of an authorisation shows (R387). -/
theorem State.authEnd_effect (s : State) {r : Nat} (hr : r < 8) : (s.authEnd r).sec.auth = none ∧ (s.authEnd r).rd SEC_AUTH_STATUS_OP = 0 ∧
    (s.authEnd r).rd SEC_AUTH_STATUS_SECONDS = 0 ∧ (s.authEnd r).rd SEC_AUTH_STATUS_RESULT = r := by
  unfold State.authEnd
  refine ⟨by rw [State.wr_sec, State.wr_sec, State.wr_sec, State.modSec_sec], ?_, ?_, ?_⟩
  · rw [State.rd_wr_apart _ _ _ _ rfl, State.rd_wr_apart _ _ _ _ rfl, State.rd_wr_fits _ _ _ rfl]
    rfl
  · rw [State.rd_wr_apart _ _ _ _ rfl, State.rd_wr_fits _ _ _ rfl]
    rfl
  · rw [State.rd_wr_fits _ _ _ rfl]
    exact Nat.mod_eq_of_lt hr

/-! ## SUBMIT (R386, R387) -/

/-- An authorisation of an operation opens, or debug is unlocked. -/
def State.authOpened (s : State) (t : List Byte) : State :=
  if byteAt t 4 = 4 then s.flag SEC_STATUS_DEBUG_UNLOCKED true
  else (s.wr SEC_AUTH_STATUS_SECONDS 60).modSec (fun u =>
    { u with authBy := s.elapsed + 60000000000, auth := some ⟨byteAt t 4, byteAt t 5, beNat ((t.drop 48).take 48), (t.drop 96).take 96⟩ })

/-- What a token that passes does. -/
def State.tokenPassed (s : State) (t : List Byte) : State :=
  let s := ((((s.wr SEC_AUTH_STATUS_OP (byteAt t 4)).wr SEC_AUTH_STATUS_KEY (byteAt t 5)).when (byteAt t 4 == 3)
    (·.modSec (fun u => { u with otpStage := [] }))).authOpened t).sysRecord 0x0B (byteAt t 4) (byteAt t 5) [wIdx SEC_AUTH_STATUS_OP]
  if byteAt t 4 = 4 then (s.wr SEC_AUTH_STATUS_OP 0).wr SEC_AUTH_STATUS_RESULT 1 else s

theorem cmdAuthSubmit_act (s : State) : cmdAuthSubmit.act s =
    (if s.tokenResult ≠ 1 then (s.authEnd s.tokenResult).modSec (fun u => { u with chal := none })
      else ((s.authEnd s.tokenResult).modSec (fun u => { u with chal := none })).tokenPassed s.token).raise 9 2 := by
  simp only [cmdAuthSubmit, State.tokenPassed, State.authOpened]

theorem State.sysRecord_sec (s : State) (a b c : Nat) (l : List Nat) : (s.sysRecord a b c l).sec = s.sec :=
  (State.sysRecord_follows (msk := 2) rfl _ _ _ _ (Follows.refl 2 _)).parts .sec rfl

theorem State.tokenPassed_chal (s : State) (t : List Byte) : (s.tokenPassed t).sec.chal = s.sec.chal := by
  have hopen (u : State) : (u.authOpened t).sec.chal = u.sec.chal := by
    unfold State.authOpened
    split
    · rw [State.flag_sec]
    · rw [State.modSec_sec, State.wr_sec]
  have hstage (u : State) (c : Bool) : (u.when c (·.modSec (fun u => { u with otpStage := [] }))).sec.chal = u.sec.chal := by
    cases c
    · rfl
    · rw [State.when_true, State.modSec_sec]
  unfold State.tokenPassed
  dsimp only
  split
  · rw [State.wr_sec, State.wr_sec, State.sysRecord_sec, hopen, hstage, State.wr_sec, State.wr_sec]
  · rw [State.sysRecord_sec, hopen, hstage, State.wr_sec, State.wr_sec]

/-- An operation other than the unlocking of debug is open for 60 s. -/
theorem State.tokenPassed_opens (s : State) {t : List Byte} (h : byteAt t 4 ≠ 4) : (s.tokenPassed t).sec.auth.map (·.op) = some (byteAt t 4) ∧
    (s.tokenPassed t).rd SEC_AUTH_STATUS_SECONDS = 60 := by
  unfold State.tokenPassed
  rw [if_neg h]
  unfold State.authOpened
  rw [if_neg h]
  refine ⟨?_, ?_⟩
  · rw [State.sysRecord_sec, State.modSec_sec]
    rfl
  · rw [(State.sysRecord_sameWords _ _ _ _ _).rd (by decide), State.modSec_rd, State.rd_wr_fits _ _ _ rfl]
    rfl

theorem cmdAuthSubmit_chal (s : State) : (cmdAuthSubmit.act s).sec.chal = none := by
  rw [cmdAuthSubmit_act, State.raise_sec]
  split
  · rw [State.modSec_sec]
  · rw [State.tokenPassed_chal, State.modSec_sec]

theorem cmdAuthSubmit_fails {s : State} (h : s.tokenResult ≠ 1) : (cmdAuthSubmit.act s).sec.auth = none ∧
    (cmdAuthSubmit.act s).rd SEC_AUTH_STATUS_RESULT = s.tokenResult ∧ (cmdAuthSubmit.act s).rd SEC_AUTH_STATUS_OP = 0 := by
  obtain ⟨hauth, hop, -, hres⟩ := s.authEnd_effect s.tokenResult_lt
  rw [cmdAuthSubmit_act, if_pos h, State.raise_sec, State.rd_raise_apart _ _ _ _ rfl, State.rd_raise_apart _ _ _ _ rfl, State.modSec_sec,
    State.modSec_rd, State.modSec_rd]
  exact ⟨hauth, hres, hop⟩

theorem cmdAuthSubmit_passes {s : State} (h : s.tokenResult = 1) (hop : byteAt s.token 4 ≠ 4) :
    (cmdAuthSubmit.act s).sec.auth.map (·.op) = some (byteAt s.token 4) ∧ (cmdAuthSubmit.act s).rd SEC_AUTH_STATUS_SECONDS = 60 := by
  rw [cmdAuthSubmit_act, if_neg (not_not_intro h), State.raise_sec, State.rd_raise_apart _ _ _ _ rfl]
  exact State.tokenPassed_opens _ hop

/-! ## PROGRAM (R387) -/

theorem cmdOtpProgram_chk {s : State} {a : Auth} (hr : s.secReady = true) (ha : s.authFor 3 = some a) : cmdOtpProgram.chk s =
    if decide (a.digest = (Config.sha384 (s.sec.otpStage.flatMap (fun e => beBytes 4 e.1 ++ beBytes 4 e.2))).toNat) then 0 else 6 := by
  simp [cmdOtpProgram, hr, ha]

/-- Settles O50: each command takes the branch of readiness and of the authorisation; a use voids what it used. -/
theorem attestationAndAuthorisationCommands : Obligations.AttestationAndAuthorisationCommands := by
  unfold Obligations.AttestationAndAuthorisationCommands
  refine ⟨?_, ?_, ?_, ?_, ?_, ?_, ?_, ?_, ?_, ?_, ?_, ?_, ?_, ?_, ?_⟩
  case _ =>
    intro s p h
    exact congrArg Outcome.next (State.runCmd_accepted (c := cmdMrExtGo) h rfl rfl rfl)
  case _ =>
    intro s p h hr hb hd
    exact congrArg Outcome.next (State.runCmd_accepted (c := cmdAttGo) h rfl (by simp [cmdAttGo, hr, hb, hd]) rfl)
  case _ =>
    intro s p h hno
    exact congrArg Outcome.next (State.runCmd_rejected (c := cmdAttGo) h rfl (by decide)
      (if_pos (by rcases hno with hn | hn | hn <;> simp [hn])))
  case _ =>
    intro s hb
    exact ⟨_, State.attDone_exec hb, s.attSigned_effect⟩
  case _ =>
    intro s
    exact ⟨s.flag SEC_STATUS_DRBG_OK false, rfl, State.on_flag_one _ _ _ rfl, (SameWords.refl _ s).flag List.mem_cons_self _⟩
  case _ =>
    intro s p h hno
    change execChallengeRead p s = _
    rw [execChallengeRead, State.gate_reaches (x := ⟨p, (SEC_CHALLENGE 0).addr, false, 0⟩) h,
      if_pos (by rcases hno with hn | hn <;> simp [hn])]
  case _ =>
    intro s p h hr hd
    refine ⟨_, State.challengeRead_exec h hr hd, ?_⟩
    dsimp only
    rw [State.readBack_fresh, (State.readBack_follows (msk := 1) rfl _ _ _ (Follows.refl 1 _)).parts .sec rfl, State.modSec_fresh,
      State.modSec_sec]
    exact ⟨s.challengeShown_parts.1, rfl⟩
  case _ =>
    intro s p h hr
    exact congrArg Outcome.next (State.runCmd_accepted (c := cmdAuthSubmit) h rfl (if_pos hr) rfl)
  case _ =>
    intro s
    exact ⟨cmdAuthSubmit_fails, fun h => cmdAuthSubmit_passes h.1 h.2, cmdAuthSubmit_chal s⟩
  case _ =>
    intro s p h hr
    exact congrArg Outcome.next (State.runCmd_accepted (c := cmdAuthClose) h rfl (if_pos hr) rfl)
  case _ =>
    intro s a ha
    exact congrArg Outcome.next (State.when_of s _ (by simp [ha]))
  case _ =>
    intro s r hr
    exact s.authEnd_effect hr
  case _ =>
    intro s p v h
    exact congrArg Outcome.next (State.writeOwn_accepted h rfl)
  case _ =>
    intro s p a h hr ha
    refine (congrArg Outcome.next (State.runCmd_authorised (c := cmdOtpProgram) h rfl (cmdOtpProgram_chk hr ha))).trans ?_
    simp only [decide_eq_true_eq]
    rfl
  case _ =>
    intro s p h hr hno
    exact congrArg Outcome.next (State.runCmd_rejected (c := cmdOtpProgram) h rfl (by decide) (by simp [cmdOtpProgram, hr, hno]))

end Sys2Proof.Machine
end

section
/-!
PROOFS. The steps of a start, the ledger's commands and the configuration region.
-/

namespace Sys2Proof.Machine

open Host (Outcome)

/-- What the guarded change keeps, the guard keeps. -/
theorem State.when_keeps {α : Sort _} (p : State → α) {s : State} {c : Bool} {f : State → State} (h : p (f s) = p s) : p (s.when c f) = p s := by
  cases c
  · rfl
  · exact h

/-! ## The step in progress (R391) -/

/-- The times and the number of a step are shown. -/
def State.stepShown (s : State) (n ms : Nat) : State :=
  (s.when (decide (s.step_ < n)) (·.wr (BOOT_STEP_MS s.step_) ms)).wr BOOT_STATUS_STEP n

/-- The milliseconds of the step in progress. -/
def State.stepMs (s : State) : Nat := min ((s.elapsed - s.boot.stepAt) / 1000000) 65535

/-- What a step shows, with the ledger's update. -/
theorem State.enterStep_eq (s : State) (n : Nat) : s.enterStep n =
    ((s.stepShown n s.stepMs).modBoot (fun b => { b with
      stepAt := (s.when (decide (s.step_ < n)) (·.wr (BOOT_STEP_MS s.step_) s.stepMs)).elapsed })).when (decide (n ≥ 2)) (·.ledgerUpdate) := by
  rw [State.enterStep, State.stepShown, State.stepMs]

/-- A step of a start shows its number, and changes no field of page BOOT but that and the times of the steps. -/
theorem State.enterStep_rd (s : State) (n : Nat) {g : Fld} (hstep : BOOT_STATUS_STEP.apart g = true)
    (hms : ∀ k, k < 16 → (BOOT_STEP_MS k).apart g = true) : (s.enterStep n).rd g = s.rd g := by
  have hlt : s.step_ < 16 := s.rd_lt BOOT_STATUS_STEP
  rw [s.enterStep_eq, State.when_keeps (·.rd g) (f := State.ledgerUpdate) (State.rd_of_word (State.ledgerUpdate_word _ _)), State.modBoot_rd, State.stepShown,
    State.rd_wr_apart _ _ _ _ hstep, State.when_keeps (·.rd g) (f := (·.wr _ _)) (State.rd_wr_apart _ _ _ _ (hms _ hlt))]

theorem State.enterStep_step (s : State) {n : Nat} (hn : n < 16) : (s.enterStep n).step_ = n := by
  rw [State.step_, s.enterStep_eq, State.when_keeps (·.rd BOOT_STATUS_STEP) (State.rd_of_word (State.ledgerUpdate_word _ _)), State.modBoot_rd,
    State.stepShown, State.rd_wr_fits _ _ _ rfl]
  exact Nat.mod_eq_of_lt hn

theorem State.ledgerUpdate_b1 (s : State) : s.ledgerUpdate.boot.b1 = s.boot.b1 := by
  unfold State.ledgerUpdate
  rw [State.modBoot_boot, State.modBoot_boot]
  generalize State.ledgerBody _ = r
  cases s.boot.inB <;> simp only [Bool.false_eq_true, if_true, if_false] <;> split <;> rfl

theorem State.enterStep_b1 (s : State) (n : Nat) : (s.enterStep n).boot.b1 = s.boot.b1 := by
  rw [s.enterStep_eq, State.when_keeps (·.boot.b1) (State.ledgerUpdate_b1 _), State.modBoot_boot, State.stepShown, State.wr_boot,
    State.when_keeps (·.boot) (f := (·.wr _ _)) (State.wr_boot ..)]

/-! ## B1: the straps (R391, R396) -/

/-- The crown that a strap makes changes no word but TREE_POS. -/
theorem State.becomeCrown_word (s : State) {a : Nat} (h : a ≠ SYS_TREE_POS_CROWN.addr) : s.becomeCrown.word a = s.word a := by
  rw [State.becomeCrown, State.showChips, State.word_wr_ne _ SYS_TREE_POS_CHIPS _ _ h, State.mk_word,
    State.word_wr_ne _ SYS_TREE_POS_UP_PORT _ _ h, State.word_wr_ne _ SYS_TREE_POS_DEPTH _ _ h,
    State.word_wr_ne _ SYS_TREE_POS_CHIP _ _ h, State.word_flag_ne _ _ _ _ h]

/-- The crown is the root of its own tree. -/
def State.rooted (s : State) : State := { s with chip := { s.chip with role := 1, crownId := s.chip.unitId, tree := [] } }

theorem State.rooted_ids (s : State) : s.rooted.chip.strap = s.chip.strap ∧ s.rooted.chip.unitId = s.chip.unitId := ⟨rfl, rfl⟩

theorem State.becomeCrown_ids (s : State) : s.becomeCrown.chip.strap = s.chip.strap ∧ s.becomeCrown.chip.unitId = s.chip.unitId := by
  have h : s.becomeCrown = (((((s.flag SYS_TREE_POS_CROWN true).wr SYS_TREE_POS_CHIP 0).wr SYS_TREE_POS_DEPTH 0).wr
      SYS_TREE_POS_UP_PORT 3).rooted).showChips := by simp only [State.becomeCrown, State.rooted]
  rw [h, State.showChips, State.wr_chip, (State.rooted_ids _).1, (State.rooted_ids _).2, State.wr_chip, State.wr_chip, State.wr_chip,
    State.flag_chip]
  exact ⟨rfl, rfl⟩

/-- The strap of the role is kept. -/
def State.roleStrapped (s : State) (role : Nat) : State :=
  { s with chip := { s.chip with strap := role % 4, role := if role % 4 = 2 then 2 else 0 } }

/-- The record of a strap that is reserved. -/
def State.strapNoted (s : State) : State := s.sysRecord 9 0x0100 0x0A01 [wIdx BOOT_STATUS_STEP]

theorem State.straps_eq (s : State) (role sel : Nat) : s.straps role sel =
    (((((s.roleStrapped role).wr BOOT_STATUS_BOOTSEL sel).when (role % 4 == 1) (·.becomeCrown)).when (role % 4 == 3) (·.strapNoted)).when
      (sel % 4 == 3) (·.strapNoted)) := by
  simp only [State.straps, State.roleStrapped, State.strapNoted]

theorem State.strapNoted_chip (s : State) : s.strapNoted.chip = s.chip :=
  (State.sysRecord_follows (msk := 2) rfl 9 0x0100 0x0A01 [wIdx BOOT_STATUS_STEP] (Follows.refl 2 s)).parts .chip rfl

theorem State.strapNoted_rd (s : State) {g : Fld} (h : g.addr / 0x1000 = 10) : s.strapNoted.rd g = s.rd g :=
  (State.sysRecord_sameWords _ _ _ _ _).rd fun hm => by
    simp only [ringWords, List.mem_cons, List.not_mem_nil, or_false] at hm
    rcases hm with hm | hm | hm | hm | hm <;> rw [hm] at h <;> exact absurd h (by decide)

theorem State.straps_svc (s : State) (role sel : Nat) : (s.straps role sel).svc = s.svc :=
  (State.straps_follows (msk := 3) rfl role sel (Follows.refl 3 s)).parts .svc rfl

theorem State.straps_ids (s : State) (role sel : Nat) : (s.straps role sel).chip.strap = role % 4 ∧
    (s.straps role sel).chip.unitId = s.chip.unitId := by
  have hnote {α : Type} (p : Chip → α) (u : State) (c : Bool) : p (u.when c (·.strapNoted)).chip = p u.chip :=
    State.when_keeps (fun t => p t.chip) (f := State.strapNoted) (congrArg p u.strapNoted_chip)
  rw [State.straps_eq, hnote Chip.strap, hnote Chip.strap, hnote Chip.unitId, hnote Chip.unitId,
    State.when_keeps (·.chip.strap) (f := State.becomeCrown) (State.becomeCrown_ids _).1,
    State.when_keeps (·.chip.unitId) (f := State.becomeCrown) (State.becomeCrown_ids _).2, State.wr_chip]
  exact ⟨rfl, rfl⟩

/-- The straps show BOOTSEL, and change no other field of page BOOT. -/
theorem State.straps_rd_wr (s : State) (role sel : Nat) {g : Fld} (h : g.addr / 0x1000 = 10) :
    (s.straps role sel).rd g = ((s.roleStrapped role).wr BOOT_STATUS_BOOTSEL sel).rd g := by
  have hcrown : g.addr ≠ SYS_TREE_POS_CROWN.addr := fun he => by rw [he] at h; exact absurd h (by decide)
  rw [State.straps_eq, State.when_keeps (·.rd g) (f := State.strapNoted) (State.strapNoted_rd _ h),
    State.when_keeps (·.rd g) (f := State.strapNoted) (State.strapNoted_rd _ h),
    State.when_keeps (·.rd g) (f := State.becomeCrown) (State.rd_of_word (State.becomeCrown_word _ hcrown))]

theorem State.straps_rd (s : State) (role sel : Nat) {g : Fld} (hsel : BOOT_STATUS_BOOTSEL.apart g = true) (h : g.addr / 0x1000 = 10) :
    (s.straps role sel).rd g = s.rd g := by
  rw [State.straps_rd_wr _ _ _ h, State.rd_wr_apart _ _ _ _ hsel]
  rfl

theorem State.straps_bootsel (s : State) (role sel : Nat) : (s.straps role sel).rd BOOT_STATUS_BOOTSEL = sel % 4 := by
  rw [State.straps_rd_wr _ _ _ rfl, State.rd_wr_fits _ _ _ rfl]
  rfl

/-- The fields from OTP stand in other pages, but for the rollback floor. -/
theorem State.otpFields_rd (s : State) {g : Fld} (h : g.addr / 0x1000 = 10) (hfloor : g.addr ≠ BOOT_RB_FLOOR.addr) :
    s.otpFields.rd g = s.rd g := by
  have hne (f : Fld) (hf : f.addr / 0x1000 ≠ 10) : g.addr ≠ f.addr := fun he => hf (he ▸ h)
  refine State.rd_of_word ?_
  unfold State.otpFields
  dsimp only
  rw [State.modStn_word, State.word_wr_ne _ _ _ _ (hne _ (by decide)), State.word_wr_ne _ _ _ _ (hne _ (by decide)),
    State.word_wr_ne _ _ _ _ (hne _ (by decide)), State.word_wr_ne _ _ _ _ (hne _ (by decide)),
    State.word_wr_ne _ _ _ _ (hne _ (by decide)), State.word_wr_ne _ _ _ _ hfloor]

/-- The straps and the fields from OTP, at the end of B1. -/
def State.aonUp (s : State) (role sel : Nat) : State := (s.otpFields.straps role sel).modBoot (fun b => { b with b1 := true })

theorem State.bootB1_exec {s : State} (x y z : Nat × Nat) (hd0 : s.chip.d0Up = true) (hb1 : s.boot.b1 = false) (hstep : s.step_ = 1)
    (hcold : s.boot.cold = false) (hred : s.svc.reduced = false) (hhalt : s.on BOOT_STATUS_HALT = false) :
    exec (.bootB1AonUp x y z) s = .next ((s.aonUp (majority x.1 y.1 z.1) (majority x.2 y.2 z.2)).enterStep 2) := by
  have hhalt' : (s.aonUp (majority x.1 y.1 z.1) (majority x.2 y.2 z.2)).on BOOT_STATUS_HALT = false := by
    rw [State.on, State.aonUp, State.modBoot_rd, State.straps_rd _ _ _ rfl rfl, State.otpFields_rd _ rfl (by decide)]
    exact hhalt
  have hred' : (s.aonUp (majority x.1 y.1 z.1) (majority x.2 y.2 z.2)).svc.reduced = false := by
    have hsvc : s.otpFields.svc = s.svc := (State.otpFields_follows (msk := 32768) rfl (Follows.refl 32768 s)).parts .svc rfl
    rw [State.aonUp, State.modBoot_svc, State.straps_svc, hsvc, hred]
  change execBootB1AonUp x y z s = _
  simp only [execBootB1AonUp, hd0, hb1, hstep, hcold, Bool.not_false, Bool.and_true, beq_self_eq_true, Bool.true_or, State.when_true,
    State.when_false, show ((1 : Nat) == 0) = false from rfl]
  simp only [State.aonUp] at hhalt' hred' ⊢
  simp only [hhalt', hred', Bool.false_eq_true, if_false, false_and, done]

/-- B1 ends with the straps sampled and B2 in progress. -/
theorem State.bootB1_effect (s : State) (role sel : Nat) : ((s.aonUp role sel).enterStep 2).boot.b1 = true ∧
    ((s.aonUp role sel).enterStep 2).step_ = 2 ∧ ((s.aonUp role sel).enterStep 2).rd BOOT_STATUS_BOOTSEL = sel % 4 ∧
    ((s.aonUp role sel).enterStep 2).chip.strap = role % 4 ∧ ((s.aonUp role sel).enterStep 2).chip.unitId = s.chip.unitId := by
  have hchip : ((s.aonUp role sel).enterStep 2).chip = (s.otpFields.straps role sel).chip := by
    rw [(State.enterStep_follows (msk := 524288) rfl 2 (Follows.refl 524288 _)).parts .chip rfl, State.aonUp, State.modBoot_chip]
  have hotp : s.otpFields.chip = s.chip := (State.otpFields_follows (msk := 32768) rfl (Follows.refl 32768 s)).parts .chip rfl
  refine ⟨?_, State.enterStep_step _ (by decide), ?_, ?_, ?_⟩
  · rw [State.enterStep_b1, State.aonUp, State.modBoot_boot]
  · rw [State.enterStep_rd _ _ rfl fun k _ => by simp [Fld.apart, BOOT_STEP_MS, BOOT_STATUS_BOOTSEL], State.aonUp, State.modBoot_rd,
      State.straps_bootsel]
  · rw [hchip, (State.straps_ids _ _ _).1]
  · rw [hchip, (State.straps_ids _ _ _).2, hotp]

/-! ## B2 and B3 (R368, R397) -/

theorem State.bootB2_exec {s : State} {m : Nat} (hstep : s.step_ = 2) (hhalt : s.on BOOT_STATUS_HALT = false) (hth : s.chip.thermalOff = false)
    (hscr : s.pwr.script = none) (hm : m % 256 / 32 = 0) :
    exec (.bootB2Rails m) s = .next ((s.wr PMB_VOUT_MODE m).scriptStart ((s.wr PMB_VOUT_MODE m).altOn 2).toNat) := by
  change execBootB2Rails m s = _
  simp only [execBootB2Rails, hstep, hhalt, hth, hscr, hm, beq_self_eq_true, Bool.true_or, Bool.not_false, Bool.and_true, Option.isNone_none,
    State.when_true, show ((2 : Nat) == 1) = false from rfl, show ((0 : Nat) != 0) = false from rfl, State.when_false, done]

/-- The keys of a good PUF result are there. -/
def State.keysUp (s : State) : State :=
  (((s.flag SEC_STATUS_KEK_OK true).modSec (fun t => { t with kek := true })).flag SEC_STATUS_HELPER_BACKUP
    (((s.flag SEC_STATUS_KEK_OK true).modSec (fun t => { t with kek := true })).altOn 3)).flag SEC_STATUS_DRBG_OK true

theorem State.keysUp_rd (s : State) {g : Fld} (h : g.addr ≠ SEC_STATUS_KEK_OK.addr) : s.keysUp.rd g = s.rd g := by
  refine State.rd_of_word ?_
  rw [State.keysUp, State.word_flag_ne _ SEC_STATUS_DRBG_OK _ _ h, State.word_flag_ne _ SEC_STATUS_HELPER_BACKUP _ _ h, State.modSec_word,
    State.word_flag_ne _ _ _ _ h]

theorem State.bootB3_exec {s : State} (hstep : s.step_ = 3) (hload : s.on BOOT_STATUS_LOADER = false) (hkeys : s.on BOOT_STATUS_NO_KEYS = false)
    (hsel : s.rd BOOT_STATUS_BOOTSEL ≠ 1) : exec (.bootB3Keys true) s = .next (s.keysUp.enterStep 4) := by
  have hsel' : s.keysUp.rd BOOT_STATUS_BOOTSEL ≠ 1 := by rwa [State.keysUp_rd _ (by decide)]
  change execBootB3Keys true s = _
  simp only [State.keysUp] at hsel' ⊢
  simp only [execBootB3Keys, hstep, hload, hkeys, hsel', beq_self_eq_true, Bool.not_false, Bool.not_true, Bool.and_true, Bool.true_and,
    Bool.false_eq_true, if_false, State.when_true, done]

theorem State.bootB3_effect (s : State) : (s.keysUp.enterStep 4).on SEC_STATUS_KEK_OK = true ∧ (s.keysUp.enterStep 4).on SEC_STATUS_DRBG_OK = true ∧
    (s.keysUp.enterStep 4).sec.kek = true ∧ (s.keysUp.enterStep 4).step_ = 4 := by
  refine ⟨?_, ?_, ?_, State.enterStep_step _ (by decide)⟩
  · rw [State.on_of_word (State.enterStep_word _ _ (by decide)), State.keysUp, State.on_flag_apart _ _ _ _ rfl,
      State.on_flag_apart _ _ _ _ rfl, State.modSec_on, State.on_flag_one _ _ _ rfl]
  · rw [State.on_of_word (State.enterStep_word _ _ (by decide)), State.keysUp, State.on_flag_one _ _ _ rfl]
  · rw [(State.enterStep_follows (msk := 524288) rfl 4 (Follows.refl 524288 _)).parts .sec rfl, State.keysUp, State.flag_sec, State.flag_sec,
      State.modSec_sec]

/-! ## B4 (R398) -/

theorem State.bootB4_fails {s : State} (hstep : s.step_ = 4) (hload : s.on BOOT_STATUS_LOADER = false) (halt : s.altOn 4 = false)
    (h : s.imageCheck ≠ 0) : exec .bootB4Image s = .next (s.bootFail 4 s.imageCheck) := by
  change execBootB4Image s = _
  rw [execBootB4Image, State.when_of _ _ (by simp [hstep, hload])]
  dsimp only
  rw [if_neg (by simp [halt]), if_pos h]

/-- MR0 and the digests take an image. -/
def State.imageMeasured (s : State) (h p : List Byte) : State :=
  (s.mrExtend 0 (h ++ bytes384 (Config.sha384 p))).modFac (fun t => { t with
    digest := (List.range 16).zip ((wsiSegs h).map (fun e => Config.sha384 ((p.drop e.1).take e.2))) })

/-- The image's fields are shown. -/
def State.imageShown (s : State) (h : List Byte) : State :=
  (((s.wr BOOT_IMG_VERSION (beAt h 12 4)).wr BOOT_IMG_INFO_RB_INDEX (beAt h 16 1)).wr BOOT_IMG_INFO_KEY_IDX (beAt h 7 1)).wr
    BOOT_IMG_INFO_BINDING (beAt h 6 1)

theorem State.bootB4_passes {s : State} {h p : List Byte} (hstep : s.step_ = 4) (hload : s.on BOOT_STATUS_LOADER = false)
    (halt : s.altOn 4 = false) (himg : s.boot.image = some (h, p)) (hchk : s.imageCheck = 0) :
    exec .bootB4Image s = .next (((s.imageMeasured h p).imageShown h).enterStep 5) := by
  change execBootB4Image s = _
  rw [execBootB4Image, State.when_of _ _ (by simp [hstep, hload])]
  dsimp only
  rw [if_neg (by simp [halt]), if_neg (by simp [hchk]), himg]
  simp only [done, State.imageMeasured, State.imageShown]

theorem State.imageShown_effect (s : State) (h : List Byte) : ((s.imageShown h).enterStep 5).step_ = 5 ∧
    ((s.imageShown h).enterStep 5).rd BOOT_IMG_VERSION = beAt h 12 4 % 2 ^ 32 ∧
    ((s.imageShown h).enterStep 5).rd BOOT_IMG_INFO_RB_INDEX = beAt h 16 1 % 64 := by
  refine ⟨State.enterStep_step _ (by decide), ?_, ?_⟩
  · rw [State.enterStep_rd _ _ rfl fun k _ => by simp [Fld.apart, BOOT_STEP_MS, BOOT_IMG_VERSION]; omega, State.imageShown,
      State.rd_wr_apart _ _ _ _ rfl, State.rd_wr_apart _ _ _ _ rfl, State.rd_wr_apart _ _ _ _ rfl, State.rd_wr_fits _ _ _ rfl]
    rfl
  · rw [State.enterStep_rd _ _ rfl fun k _ => by simp [Fld.apart, BOOT_STEP_MS, BOOT_IMG_INFO_RB_INDEX]; omega, State.imageShown,
      State.rd_wr_apart _ _ _ _ rfl, State.rd_wr_apart _ _ _ _ rfl, State.rd_wr_fits _ _ _ rfl]
    rfl

/-! ## The configuration region (R400) -/

theorem State.cfgProgram_cfgWord {s : State} (v : Nat) (h : s.rd BOOT_CFG_ADDR < 12288) :
    (s.cfgProgram v).cfgWord (s.rd BOOT_CFG_ADDR) = s.cfgWord (s.rd BOOT_CFG_ADDR) &&& (v % 2 ^ 32) := by
  unfold State.cfgProgram
  dsimp only
  rw [decide_eq_true h, State.when_true, State.cfgWord, State.inc_boot, State.modBoot_boot]
  exact tget_tset_self ..

/-- The engines of step B5 run, and B6 follows. -/
theorem State.bootB5_exec {s : State} {l : List Nat} (hstep : s.step_ = 5) (hload : s.on BOOT_STATUS_LOADER = false) (h13 : s.domOn 13 = true)
    (h14 : s.domOn 14 = true) (hup : s.enginesToLoad.all s.engUp = false) (hgood : s.enginesToLoad.any l.contains = false)
    (hred : s.svc.reduced = false) :
    exec (.bootB5Engines l) s = .next ((foldS s.enginesToLoad (fun s e => s.engStart e) s).enterStep 6) := by
  have hsvc : (foldS s.enginesToLoad (fun s e => s.engStart e) s).svc = s.svc :=
    (foldS_follows (m := 0) _ _ (fun _ e hu => State.engStart_follows e hu) (Follows.refl 0 s)).parts .svc rfl
  change execBootB5Engines l s = _
  rw [execBootB5Engines]
  dsimp only
  rw [State.when_of _ _ (by simp [hstep, hload, h13, h14, hup]), if_neg (by rw [hgood]; exact Bool.false_ne_true), hsvc, hred]
  rfl

/-- Settles O51: a step of the start does its work or fails with its code; the ledger commands do their operation. -/
theorem startUpStepCommands : Obligations.StartUpStepCommands := by
  unfold Obligations.StartUpStepCommands
  refine ⟨?_, ?_, ?_, ?_, ?_, ?_, ?_, ?_, ?_, ?_, ?_, ?_, ?_, ?_, ?_, ?_, ?_, ?_, ?_, ?_, ?_, ?_, ?_⟩
  case _ =>
    intro s x y z hd0 hb1 hstep hcold hred hhalt
    exact ⟨_, State.bootB1_exec x y z hd0 hb1 hstep hcold hred hhalt, s.bootB1_effect _ _⟩
  case _ =>
    intro s m hstep hhalt hth hscr hm
    exact State.bootB2_exec hstep hhalt hth hscr hm
  case _ =>
    intro s hstep hload hkeys
    change execBootB3Keys false s = _
    rw [execBootB3Keys, State.when_of _ _ (by simp [hstep, hload])]
    dsimp only
    rw [if_pos (by simp [hkeys])]
  case _ =>
    intro s hstep hload hkeys hsel
    exact ⟨_, State.bootB3_exec hstep hload hkeys hsel, s.bootB3_effect⟩
  case _ =>
    intro s hstep hload halt
    change execBootB4Image s = _
    rw [execBootB4Image, State.when_of _ _ (by simp [hstep, hload])]
    dsimp only
    rw [if_pos halt]
  case _ =>
    intro s hstep hload halt h
    exact State.bootB4_fails hstep hload halt h
  case _ =>
    intro s h p hstep hload halt himg
    by_cases hchk : s.imageCheck = 0
    · exact ⟨_, State.bootB4_passes hstep hload halt himg hchk, fun _ => (s.imageMeasured h p).imageShown_effect h⟩
    · exact ⟨_, State.bootB4_fails hstep hload halt hchk, fun h0 => absurd h0 hchk⟩
  case _ =>
    intro s l hstep hload h13 h14 hup hbad
    change execBootB5Engines l s = _
    rw [execBootB5Engines]
    dsimp only
    rw [State.when_of _ _ (by simp [hstep, hload, h13, h14, hup]), if_pos hbad]
  case _ =>
    intro s l hstep hload h13 h14 hup hgood hred
    exact State.bootB5_exec hstep hload h13 h14 hup hgood hred
  case _ =>
    intro s e he hst
    exact congrArg Outcome.next (State.when_of s _ (by simp [he, hst]))
  case _ =>
    intro s e he hst
    refine congrArg Outcome.next ((State.when_of s _ (by simp [he, hst])).trans ?_)
    rw [if_neg Bool.false_ne_true]
  case _ =>
    intro s l hstep h0 h1 h2
    refine ⟨_, congrArg Outcome.next (State.when_of s _ (by simp [hstep, h0, h1, h2])), ?_⟩
    exact ⟨by rw [State.modBoot_boot], fun a _ => State.modBoot_word ..⟩
  case _ =>
    intro s hstep hset
    exact congrArg Outcome.next (State.when_of s _ (by simp [hstep, hset]))
  case _ =>
    intro s h
    exact congrArg Outcome.next (State.when_of s _ h)
  case _ =>
    intro s hd0
    refine ⟨_, congrArg Outcome.next (State.when_of s _ hd0), ?_⟩
    exact ⟨State.rd_inc_fits _ _ _ rfl, (SameWords.refl _ s).inc List.mem_cons_self _⟩
  case _ =>
    intro s p h
    exact congrArg Outcome.next (State.runCmd_accepted (c := cmdClrCnt) h rfl rfl rfl)
  case _ =>
    intro s p m h
    exact congrArg Outcome.next (State.writeOwn_accepted h rfl)
  case _ =>
    intro s p h hstep hload
    exact congrArg Outcome.next (State.runCmd_accepted (c := cmdRbAdvance) h rfl (if_pos ⟨hstep, by simp [hload]⟩) rfl)
  case _ =>
    intro s p h hstep
    exact congrArg Outcome.next (State.runCmd_rejected (c := cmdRbAdvance) h rfl (by decide) (if_neg fun hc => hstep hc.1))
  case _ =>
    intro s p v h
    exact congrArg Outcome.next (State.writeOwn_accepted h rfl)
  case _ =>
    intro s v h
    exact State.cfgProgram_cfgWord v h
  case _ =>
    intro s p h hc
    exact congrArg Outcome.next (State.runCmd_accepted (c := cmdCfgCommit) h rfl rfl (if_pos hc))
  case _ =>
    intro s p h
    exact congrArg Outcome.next (State.runCmd_accepted (c := cmdCfgErase) h rfl rfl rfl)

end Sys2Proof.Machine
end

section
/-!
PROOFS. The words that the flushing of contexts changes, and that the end of every tunnel leaves page BOOT alone.
-/

namespace Sys2Proof.Machine

/-! ## Flushing a context (R111, R112) -/

theorem State.faultFrame_flow (s : State) (q : Nat) (f : QFrame) : FlowsOnly true s (s.faultFrame q f) := by
  have hinc : FlowsOnly true s (s.inc (CTX_DROP_STOP f.ctx) (f.cells.filter (fun x => !x.kept)).length) :=
    (FlowsOnly.refl s).inc (.inl (by simp only [CTX_DROP_STOP]; omega)) _
  unfold State.faultFrame
  exact ((hinc.trans (.of_word fun a => State.modFrame_word ..)).trans (State.discardCells_flow _ _ _ (.inl rfl))).trans
    (.of_word fun a => State.removeFrame_word ..)

theorem State.stopFrame_flow (s : State) (q : Nat) (f : QFrame) : FlowsOnly true s (s.stopFrame q f) := by
  have hinc : FlowsOnly true s (s.inc (CTX_DROP_STOP f.ctx) (f.cells.filter (fun x => !x.kept)).length) :=
    (FlowsOnly.refl s).inc (.inl (by simp only [CTX_DROP_STOP]; omega)) _
  unfold State.stopFrame
  refine .ite (fun _ => .refl s) fun _ => .ite (fun _ => ?_) fun _ => ?_
  · exact ((hinc.trans (.of_word fun a => State.modFrame_word ..)).trans (State.beginTail_flow _ _ _ _ _ (.inl rfl))).trans
      (.of_word fun a => State.modFrame_word ..)
  · exact (hinc.trans (State.discardCells_flow _ _ _ (.inl rfl))).trans (.of_word fun a => State.removeFrame_word ..)

/-- The discards and re-links of a context are forgotten. -/
def State.flushNotes (s : State) (c : Nat) (tails : Bool) : State :=
  { s with gird := { s.gird with drops := s.gird.drops.filter (fun d => d.ctx != c),
                                 relink := if tails then s.gird.relink else s.gird.relink.filter (fun e => e.2 != c) } }

/-- The queued frames of a context stop or fault. -/
def State.flushFrames (s : State) (c : Nat) (tails : Bool) : State :=
  foldS (s.gird.queues.map (·.1)) (fun s q =>
    foldS ((s.queue q).filter (fun f => f.ctx == c)) (fun s f => if tails then s.stopFrame q f else s.faultFrame q f) s) s

/-- What a context receives is given up. -/
def State.flushRx (s : State) (c : Nat) : State :=
  let held := match (s.ctx c).rx with | some r => r.held.length | none => 0
  (s.inc (CTX_DROP_STOP c) held).modCtx c (fun t => { t with rx := none, headless := false })

/-- The kept cells of a context are given up. -/
def State.flushKept (s : State) (c : Nat) : State :=
  let ks := (s.ctx c).kept
  let s := foldS ks (fun s k => s.release k.buf) s
  (((s.inc (CTX_DROP_STOP c) ks.length).modCtx c (fun t => { t with kept := [] }))).showKept c

theorem State.flushCtx_eq (s : State) (c : Nat) (tails : Bool) : s.flushCtx c tails =
    let t := ((s.flushNotes c tails).flushFrames c tails).flushRx c
    if tails then t else t.flushKept c := by
  simp only [State.flushCtx, State.flushNotes, State.flushFrames, State.flushRx, State.flushKept] <;> rfl

theorem State.flushFrames_flow (s : State) (c : Nat) (tails : Bool) : FlowsOnly true s (s.flushFrames c tails) :=
  (FlowsOnly.refl s).foldS fun v q _ => (FlowsOnly.refl v).foldS fun w f _ =>
    .ite (fun _ => w.stopFrame_flow q f) fun _ => w.faultFrame_flow q f

theorem State.flushRx_flow (s : State) (c : Nat) : FlowsOnly true s (s.flushRx c) :=
  ((FlowsOnly.refl s).inc (f := CTX_DROP_STOP c) (.inl (by simp only [CTX_DROP_STOP]; omega)) _).trans (.of_word fun _ => State.modCtx_word ..)

theorem State.flushKept_flow (s : State) (c : Nat) : FlowsOnly true s (s.flushKept c) := by
  have hrel : FlowsOnly true s (foldS (s.ctx c).kept (fun s k => s.release k.buf) s) :=
    .of_word fun a => foldS_word _ _ _ fun u k => u.release_word k.buf a
  unfold State.flushKept
  refine ((hrel.inc (f := CTX_DROP_STOP c) (.inl (by simp only [CTX_DROP_STOP]; omega)) _).trans (.of_word fun _ => State.modCtx_word ..)).wr ?_ _
  exact .inl (by simp only [CTX_ACKST_OUTSTANDING]; omega)

theorem State.flushCtx_flow (s : State) (c : Nat) (tails : Bool) : FlowsOnly true s (s.flushCtx c tails) := by
  have hnotes : FlowsOnly true s (s.flushNotes c tails) := .of_word fun a => State.mk_word ..
  have hrx := (hnotes.trans (State.flushFrames_flow _ c tails)).trans (State.flushRx_flow _ c)
  rw [State.flushCtx_eq]
  exact .ite (fun _ => hrx) fun _ => hrx.trans (State.flushKept_flow _ c)

theorem State.ctxErase_flow (s : State) (c : Nat) : FlowsOnly true s (s.ctxErase c) := by
  unfold State.ctxErase
  exact ((s.flushCtx_flow c false).trans (.of_word fun a => State.modCtx_word ..)).trans (.of_word fun a => State.mk_word ..)

/-! ## What follows the contexts -/

/-- A word of a page before GRD, but for two of page 12: no flow changes it. -/
theorem not_flowWord_of_page {a : Nat} (h : a / 0x1000 < 12) : ¬ FlowWord true a := by
  simp only [FlowWord, PG_ISR, SIEVE_NO_CTX, SIEVE_COPY_LOST]
  omega

theorem State.portDown_word (s : State) (p : Nat) {a : Nat} (h : a / 0x1000 < 12) : (s.portDown p).word a = s.word a := by
  have hst : a ≠ (USBH_PORT_ST_CONNECTED p).addr := by simp only [USBH_PORT_ST_CONNECTED]; omega
  have hdrop : a ≠ USBH_STALE_DROP.addr := by simp only [USBH_STALE_DROP]; omega
  unfold State.portDown
  dsimp only
  rw [State.word_wr_ne _ (USBH_PORT_ST_SPEED p) _ _ hst, State.word_flag_ne _ (USBH_PORT_ST_SUSPEND p) _ _ hst,
    State.word_flag_ne _ (USBH_PORT_ST_ENABLED p) _ _ hst, State.word_flag_ne _ _ _ _ hst, State.dropDeferred]
  rw [State.modUsb_word, State.word_inc_ne _ _ _ _ hdrop]
  exact foldS_word _ _ _ fun u d => State.emit_word ..

theorem State.portUpdate_word (s : State) (p : Nat) {a : Nat} (h : a / 0x1000 < 12) : (s.portUpdate p).word a = s.word a := by
  have hst : a ≠ (USBH_PORT_ST_CONNECTED p).addr := by simp only [USBH_PORT_ST_CONNECTED]; omega
  have hisr : a ≠ (PG_ISR 30).addr := by simp only [PG_ISR]; omega
  have hraise (u : State) (c : Bool) : (u.when c (·.raise 30 5)).word a = u.word a := State.when_word _ _ _ _ (State.raise_word _ _ _ _ hisr)
  unfold State.portUpdate
  dsimp only
  refine State.ite_word (hraise s _) ?_
  rw [State.portChg, State.emit_word, State.raise_word _ _ _ _ hisr]
  refine State.ite_word ?_ ((State.portDown_word _ _ h).trans (hraise s _))
  exact ((State.ingress_flow _ _ a (not_flowWord_of_page h)).trans (State.word_flag_ne _ _ _ _ hst)).trans (hraise s _)

theorem State.ctxHooks_word (s : State) {a : Nat} (h : a / 0x1000 < 12) : s.ctxHooks.word a = s.word a := by
  have hhpd : a ≠ DPI_STATUS_HPD_OUT.addr := by simp only [DPI_STATUS_HPD_OUT]; omega
  have hdpi : s.dpiHpd.word a = s.word a := by
    unfold State.dpiHpd
    exact State.ite_word rfl ((State.emit_word ..).trans (State.word_flag_ne _ _ _ _ hhpd))
  rw [State.ctxHooks, State.portsUpdate]
  refine (State.when_word _ _ _ _ ?_).trans hdpi
  exact foldS_word _ _ _ fun u p => u.portUpdate_word p h

/-! ## The end of every tunnel -/

theorem State.pcieDetect_word (s : State) {a : Nat} (h : a / 0x1000 ≠ 22) (hlow : a < 0x100000) : s.pcieDetect.word a = s.word a := by
  have hst : a ≠ PCIE_STATUS_LTSSM.addr := fun he => h (he ▸ rfl)
  have hisr : a ≠ (PG_ISR 22).addr := fun he => h (he ▸ rfl)
  unfold State.pcieDetect
  dsimp only
  rw [State.when_word _ _ _ _ (State.raise_word _ _ _ _ hisr), State.applyRwp, State.applyFields_word _ _ hlow,
    State.word_flag_ne _ PCIE_STATUS_DL_ACTIVE _ _ hst, State.word_wr_ne _ _ _ _ hst]

/-- When every tunnel ends, page BOOT stays. -/
theorem State.tunnelsDown_word (s : State) {a : Nat} (h : a / 0x1000 = 10) : s.tunnelsDown.word a = s.word a := by
  have hlife (u : State) {p : Nat} (v : Nat) (hp : p ≠ 10) : (u.setLife p v).word a = u.word a :=
    State.setLife_word _ _ _ _ (by simp only [PG_ISR]; omega) (by simp only [PG_STATE_LIFE]; omega)
  unfold State.tunnelsDown
  dsimp only
  rw [State.ctxHooks_word _ (by omega)]
  refine (foldS_word_mem _ _ fun u c hc => ?_).trans ((State.when_word _ _ _ _ ?_).trans (foldS_word_mem _ _ fun u n hn => ?_))
  · have hc' : c < 256 := by
      obtain ⟨k, hk, rfl⟩ := List.mem_map.1 (List.mem_filter.1 hc).1
      have := List.mem_range.1 hk
      omega
    rw [State.ctxSetLife_word _ _ hc' (by omega) (by omega), State.ctxErase_flow _ _ a (not_flowWord_of_page (by omega))]
  · rw [hlife _ _ (by decide), State.pcieDetect_word _ (by omega) (by omega)]
  · have hn' : n < 3 := by
      simp only [List.mem_cons, List.not_mem_nil, or_false] at hn
      omega
    refine State.when_word _ _ _ _ ?_
    rw [hlife _ _ (by simp only [lnkPage]; omega), State.enterDetect_word _ (by omega) (by omega),
      State.dropLink_word _ hn' (by omega) (by omega) (by omega) (by omega) (by omega) (by omega) (by omega),
      State.leaveTree_word _ (by omega) (by omega)]

end Sys2Proof.Machine
end

section
/-!
PROOFS. The lapidary loader, DFU, the service UART and the write of an image.
-/

namespace Sys2Proof.Machine

open Host (Outcome)

/-! ## Frames of the service UART (R406) -/

/-- The answer of a frame is sent, and kept for its repetition. -/
def State.uartAnswered (s : State) (typ q : Nat) (a : List Byte) : State :=
  (s.modBoot (fun b => { b with uartLast := some (q, beBytes 1 typ ++ a) })).emit (.svcUart typ q a)

theorem State.uartFrame_new {s : State} {typ q : Nat} {act : State → State × List Byte} (hup : s.uartUp = true)
    (hnew : s.boot.uartLast.filter (fun l => l.1 == q) = none) :
    s.uartFrame typ q act = (act s).1.uartAnswered (128 + typ) q (act s).2 := by
  rw [State.uartFrame, State.when_of _ _ hup]
  dsimp only
  rw [hnew]
  rfl

theorem State.uartFrame_repeated {s : State} {typ q : Nat} {act : State → State × List Byte} {a : Byte} {l : List Byte}
    (hup : s.uartUp = true) (hlast : s.boot.uartLast = some (q, a :: l)) : s.uartFrame typ q act = s.emit (.svcUart a.toNat q l) := by
  have hfilter : s.boot.uartLast.filter (fun l => l.1 == q) = some (q, a :: l) := by
    rw [hlast, Option.filter_some, if_pos (beq_self_eq_true q)]
  rw [State.uartFrame, State.when_of _ _ hup]
  dsimp only
  rw [hfilter]

theorem State.uartAnswered_word (s : State) (typ q : Nat) (a : List Byte) (b : Nat) : (s.uartAnswered typ q a).word b = s.word b := by
  rw [State.uartAnswered, State.emit_word, State.modBoot_word]

theorem State.uartAnswered_rd (s : State) (typ q : Nat) (a : List Byte) (g : Fld) : (s.uartAnswered typ q a).rd g = s.rd g :=
  State.rd_of_word (s.uartAnswered_word typ q a _)

theorem State.uartAnswered_out (s : State) (typ q : Nat) (a : List Byte) : (s.uartAnswered typ q a).out = s.out ++ [.svcUart typ q a] := by
  rw [State.uartAnswered, State.emit_out, State.modBoot_out]

theorem State.mem_uartAnswered_out (s : State) (typ q : Nat) (a : List Byte) : .svcUart typ q a ∈ (s.uartAnswered typ q a).out := by
  rw [State.uartAnswered_out]
  exact List.mem_append_right _ (List.mem_singleton_self _)

theorem State.uartAnswered_boot (s : State) (typ q : Nat) (a : List Byte) :
    (s.uartAnswered typ q a).boot = { s.boot with uartLast := some (q, beBytes 1 typ ++ a) } := by
  rw [State.uartAnswered, State.emit_boot, State.modBoot_boot]

/-! ## Entering the loader (R402) -/

theorem State.loaderEnter_on (s : State) (fromRun : Bool) : (s.loaderEnter fromRun).on BOOT_STATUS_LOADER = true := by
  have hword : (s.loaderEnter fromRun).rd BOOT_STATUS_LOADER = (((s.flag BOOT_STATUS_LOADER true).raise 10 4).wr BOOT_UPD_STATUS_PHASE 0).rd
      BOOT_STATUS_LOADER := by
    unfold State.loaderEnter
    dsimp only
    rw [State.rd_of_word (foldS_word _ _ _ fun u d => u.domRequest_word d _), State.modBoot_rd,
      State.rd_of_word (State.tunnelsDown_word _ rfl), State.rd_wr_apart _ _ _ _ rfl]
  rw [State.on_iff_rd, hword, State.rd_wr_apart _ _ _ _ rfl, State.rd_raise_apart _ _ _ _ rfl, State.rd_flag_fits _ _ _ rfl]
  rfl

theorem State.loaderOn (s : State) : (s.when (!s.on BOOT_STATUS_LOADER) (·.loaderEnter true)).on BOOT_STATUS_LOADER = true := by
  cases h : s.on BOOT_STATUS_LOADER
  · exact s.loaderEnter_on true
  · exact h

/-! ## Staging (R403) -/

theorem State.updStart_effect (s : State) : s.updStart.rd BOOT_UPD_STATUS_PHASE = 1 ∧ s.updStart.boot.staged = [] ∧ s.updStart.out = s.out := by
  unfold State.updStart
  refine ⟨?_, by rw [State.modBoot_boot], by rw [State.modBoot_out, State.wr_out, State.wr_out, State.wr_out]⟩
  rw [State.modBoot_rd, State.rd_wr_apart _ _ _ _ rfl, State.rd_wr_apart _ _ _ _ rfl, State.rd_wr_fits _ _ _ rfl]
  rfl

theorem State.updStage_effect (s : State) (d : List Byte) : (s.updStage d).1.boot.staged = s.boot.staged ++ d ∧
    (s.updStage d).1.out = s.out ∧ (s.updStage d).1.rd BOOT_UPD_BYTES = (s.boot.staged.length + d.length) % 2 ^ BOOT_UPD_BYTES.width := by
  unfold State.updStage
  dsimp only
  refine ⟨by rw [State.wr_boot, State.modBoot_boot], by rw [State.wr_out, State.modBoot_out], ?_⟩
  rw [State.rd_wr_fits _ _ _ rfl, State.modBoot_boot, List.length_append]

theorem State.updFail_effect (s : State) (r : Nat) : (s.updFail r).rd BOOT_UPD_STATUS_PHASE = 5 ∧
    (s.updFail r).rd BOOT_UPD_STATUS_REASON = r % 256 := by
  unfold State.updFail
  rw [State.modBoot_rd, State.modBoot_rd, State.rd_raise_apart _ _ _ _ rfl, State.rd_raise_apart _ _ _ _ rfl, State.rd_wr_apart _ _ _ _ rfl,
    State.rd_wr_fits _ _ _ rfl, State.rd_wr_fits _ _ _ rfl]
  exact ⟨rfl, rfl⟩

theorem State.updWrite_effect (s : State) : s.updWrite.rd BOOT_UPD_STATUS_PHASE = 3 ∧ s.updWrite.boot.image = none ∧
    s.updWrite.boot.attempt = 1 := by
  unfold State.updWrite
  dsimp only
  rw [State.modBoot_rd, State.rd_wr_fits _ _ _ rfl, State.modBoot_boot]
  exact ⟨rfl, rfl, rfl⟩

/-! ## DFU (R405) -/

/-- The staged image of a DFU transfer is discarded. -/
def State.dfuCleared (s : State) : State :=
  (((s.wr BOOT_UPD_STATUS_PHASE 0).modBoot (fun b => { b with staged := [] })).modBoot (fun b => { b with dfu := false, dfuNext := 0 })).dfuSet 2 0

theorem State.dfuClrstatus_exec {s : State} (hload : s.on BOOT_STATUS_LOADER = true) (hph : s.rd BOOT_UPD_STATUS_PHASE ≠ 3)
    (huart : s.boot.uart = none) : exec .dfuClrstatus s = .next s.dfuCleared := by
  change execDfuClrstatus s = _
  rw [execDfuClrstatus, State.when_of _ _ (by simp [hload, hph])]
  dsimp only
  rw [huart, Option.isNone_none, State.when_true]
  rfl

theorem State.dfuCleared_effect (s : State) : s.dfuCleared.rd BOOT_UPD_STATUS_PHASE = 0 ∧ s.dfuCleared.boot.staged = [] ∧
    s.dfuCleared.boot.dfuState = 2 ∧ s.dfuCleared.boot.dfuStatus = 0 ∧ s.dfuCleared.boot.dfu = false := by
  unfold State.dfuCleared State.dfuSet
  rw [State.emit_rd, State.emit_boot, State.modBoot_rd, State.modBoot_rd, State.modBoot_rd, State.rd_wr_fits _ _ _ rfl, State.modBoot_boot,
    State.modBoot_boot, State.modBoot_boot]
  exact ⟨rfl, rfl, rfl, rfl, rfl⟩

theorem State.imageWriteDone_when {s : State} (hph : s.rd BOOT_UPD_STATUS_PHASE = 3) (hatt : 1 ≤ s.boot.attempt) :
    (s.rd BOOT_UPD_STATUS_PHASE == 3 && decide (s.boot.attempt ≥ 1)) = true := by
  rw [hph, decide_eq_true hatt]
  rfl

/-! ## Transfers over the service UART (R406) -/

/-- The first answer to a transfer of a length: whether it begins. -/
theorem State.updStart_exec {s : State} {q n : Nat} (hup : s.uartUp = true) (hnew : s.boot.uartLast.filter (fun l => l.1 == q) = none)
    (hbusy : s.updBusy = false) (hred : s.svc.reduced = false) (h512 : 512 < n) (hn : n ≤ 8389120) (hload : s.on BOOT_STATUS_LOADER = true) :
    exec (.updStart q n) s = .next ((s.updStart.modBoot (fun b => { b with uart := some n })).uartAnswered 0x90 q [0]) := by
  refine congrArg Outcome.next ((State.uartFrame_new hup hnew).trans ?_)
  dsimp only
  rw [if_neg (by simp [hbusy, hred]), if_neg (by omega), hload, Bool.not_true, State.when_false]

theorem State.updStart_busy {s : State} {q n : Nat} (hup : s.uartUp = true) (hnew : s.boot.uartLast.filter (fun l => l.1 == q) = none)
    (hbusy : s.updBusy = true) : exec (.updStart q n) s = .next (s.uartAnswered 0x90 q [5]) := by
  refine congrArg Outcome.next ((State.uartFrame_new hup hnew).trans ?_)
  dsimp only
  rw [if_pos (by simp [hbusy])]

theorem State.updData_exec {s : State} {q n : Nat} {d : List Byte} (hup : s.uartUp = true)
    (hnew : s.boot.uartLast.filter (fun l => l.1 == q) = none) (hn : s.boot.uart = some n) (hd : d ≠ []) (hlen : d.length ≤ 1016)
    (hok : (s.updStage d).2 = 0) (hfit : s.boot.staged.length + d.length ≤ n) :
    exec (.updData q s.boot.staged.length d) s = .next ((s.updStage d).1.uartAnswered 0x91 q [0]) := by
  have hstaged : (s.updStage d).1.boot.staged.length = s.boot.staged.length + d.length := by
    rw [(s.updStage_effect d).1, List.length_append]
  have hbad : ¬ (d.isEmpty = true ∨ d.length > 1016) := by
    rintro (h | h)
    · exact hd (List.isEmpty_iff.1 h)
    · omega
  refine congrArg Outcome.next ((State.uartFrame_new hup hnew).trans ?_)
  rw [hn]
  dsimp only
  rw [if_neg hbad, if_neg (not_not_intro rfl), if_neg (not_not_intro hok), if_neg (by rw [hstaged]; omega)]

theorem State.updData_misplaced {s : State} {q o n : Nat} {d : List Byte} (hup : s.uartUp = true)
    (hnew : s.boot.uartLast.filter (fun l => l.1 == q) = none) (hn : s.boot.uart = some n) (hd : d ≠ []) (hlen : d.length ≤ 1016)
    (ho : o ≠ s.boot.staged.length) : exec (.updData q o d) s = .next (s.uartAnswered 0x91 q [2]) := by
  have hbad : ¬ (d.isEmpty = true ∨ d.length > 1016) := by
    rintro (h | h)
    · exact hd (List.isEmpty_iff.1 h)
    · omega
  refine congrArg Outcome.next ((State.uartFrame_new hup hnew).trans ?_)
  rw [hn]
  dsimp only
  rw [if_neg hbad, if_pos ho]

theorem State.updEnd_exec {s : State} {q n : Nat} (hup : s.uartUp = true) (hnew : s.boot.uartLast.filter (fun l => l.1 == q) = none)
    (hn : s.boot.uart = some n) (hwhole : s.updWhole = true) : exec (.updEnd q) s =
      .next (if s.stagedOk then s.updWrite.uartAnswered 0x92 q [0] else (s.updFail 0xB).uartAnswered 0x92 q [3]) := by
  refine congrArg Outcome.next ((State.uartFrame_new hup hnew).trans ?_)
  rw [hn]
  dsimp only
  rw [if_neg (by simp [hwhole])]
  cases s.stagedOk
  · rw [if_neg Bool.false_ne_true, if_neg Bool.false_ne_true]
  · rw [if_pos rfl, if_pos rfl]

/-- Settles O52: a block, a frame and a write of the image take the branch of the phase of the update. -/
theorem loaderAndUpdateCommands : Obligations.LoaderAndUpdateCommands := by
  unfold Obligations.LoaderAndUpdateCommands
  refine ⟨?_, ?_, ?_, ?_, ?_, ?_, ?_, ?_, ?_, ?_, ?_, ?_, ?_, ?_, ?_, ?_, ?_, ?_, ?_, ?_, ?_⟩
  case _ =>
    intro s p h
    exact congrArg Outcome.next (State.runCmd_accepted (c := cmdLoaderEnter) h rfl rfl rfl)
  case _ =>
    intro s hload hrun hph
    change execLoaderIdleTimeout s = _
    rw [execLoaderIdleTimeout, hload, hrun, hph]
    by_cases hchk : s.imageCheck = 0
    · rw [if_pos hchk, State.when_of _ _ (by simp [hchk])]
    · rw [if_neg hchk, State.when_of_not _ _ (by simp [hchk])]
  case _ =>
    intro s hif hreset hred hlev
    change execDfuDetach s = _
    rw [execDfuDetach, State.when_of _ _ (by simp [hif, hreset]), if_pos (by simp [hred, hlev])]
  case _ =>
    intro s hif hreset hred
    change execDfuDetach s = _
    rw [execDfuDetach, State.when_of _ _ (by simp [hif, hreset]), if_neg (by simp [hred])]
  case _ =>
    intro s b x d hload hst hfree
    change execDfuDnload b (x :: d) s = _
    rw [execDfuDnload, State.when_of _ _ (by simp [hload, hst])]
    dsimp only
    rw [if_neg (by rcases hfree with hf | hf <;> simp [hf]), if_neg (by simp)]
  case _ =>
    intro s b hload hst hdfu hwhole
    have hwhole' : (s.inc USBD_DFU_BLOCKS).updWhole = true := by rwa [State.updWhole, State.inc_boot, ← State.updWhole]
    change execDfuDnload b [] s = _
    rw [execDfuDnload, State.when_of _ _ (by simp [hload, hst])]
    dsimp only
    rw [if_neg (by simp [hdfu]), if_pos List.isEmpty_nil, if_pos (by rw [State.inc_boot, hdfu, hwhole']; rfl)]
  case _ =>
    intro s b d hdfu hbad
    unfold State.dfuBlock
    rw [hdfu, Bool.not_true, State.when_false]
    dsimp only
    rw [if_pos hbad]
  case _ =>
    intro s hload hph huart
    exact ⟨_, State.dfuClrstatus_exec hload hph huart, s.dfuCleared_effect⟩
  case _ =>
    intro s e hph hatt
    refine ⟨s.modBoot (fun b => { b with attempt := 2 }), ?_, by rw [State.modBoot_boot], by rw [State.modBoot_boot],
      fun a _ => State.modBoot_word ..⟩
    change execImageWriteDone false e s = _
    rw [execImageWriteDone, State.when_of _ _ (State.imageWriteDone_when hph hatt.ge)]
    dsimp only
    rw [if_neg Bool.false_ne_true, if_pos hatt]
  case _ =>
    intro s e hph hatt
    change execImageWriteDone false e s = _
    rw [execImageWriteDone, State.when_of _ _ (State.imageWriteDone_when hph (by omega))]
    dsimp only
    rw [if_neg Bool.false_ne_true, if_neg (by omega)]
  case _ =>
    intro s e hph hatt
    change execImageWriteDone true e s = _
    rw [execImageWriteDone, State.when_of _ _ (State.imageWriteDone_when hph hatt)]
    dsimp only
    rw [if_pos rfl]
  case _ =>
    intro s
    rfl
  case _ =>
    intro s q x ⟨hup, hnew⟩
    refine ⟨(s.emit (.unitTx 5 0 0 x)).uartAnswered 0x82 q [0], congrArg Outcome.next (State.uartFrame_new hup hnew), ?_, ?_, fun a _ => ?_⟩
    · rw [State.uartAnswered_out, State.emit_out, List.append_assoc]
      rfl
    · rw [State.uartAnswered_boot]
      rfl
    · rw [State.uartAnswered_word, State.emit_word]
  case _ =>
    intro s q x a l hup hlast
    exact congrArg Outcome.next (State.uartFrame_repeated hup hlast)
  case _ =>
    intro s q n ⟨hup, hnew⟩ hbusy hred h512 hn hload
    obtain ⟨hphase, hstaged, hout⟩ := s.updStart_effect
    refine ⟨_, State.updStart_exec hup hnew hbusy hred h512 hn hload, ?_⟩
    dsimp only
    rw [State.uartAnswered_boot, State.uartAnswered_rd, State.uartAnswered_out, State.modBoot_boot, State.modBoot_rd, State.modBoot_out]
    exact ⟨rfl, hstaged, hphase, by rw [hout]⟩
  case _ =>
    intro s q n ⟨hup, hnew⟩ hbusy
    exact ⟨_, State.updStart_busy hup hnew hbusy, State.uartAnswered_out .., fun a _ => State.uartAnswered_word ..⟩
  case _ =>
    intro s q o d n ⟨hup, hnew⟩ hn hd hlen ho hok hfit
    subst ho
    obtain ⟨hstaged, hout, hbytes⟩ := s.updStage_effect d
    refine ⟨_, State.updData_exec hup hnew hn hd hlen hok hfit, ?_⟩
    dsimp only
    rw [State.uartAnswered_boot, State.uartAnswered_rd, State.uartAnswered_out]
    exact ⟨hstaged, by rw [hout], hbytes⟩
  case _ =>
    intro s q o d n ⟨hup, hnew⟩ hn hd hlen ho
    refine ⟨_, State.updData_misplaced hup hnew hn hd hlen ho, ?_, State.uartAnswered_out .., fun a _ => State.uartAnswered_word ..⟩
    rw [State.uartAnswered_boot]
  case _ =>
    intro s q n ⟨hup, hnew⟩ hn hwhole
    refine ⟨_, State.updEnd_exec hup hnew hn hwhole, ?_⟩
    cases s.stagedOk
    · rw [if_neg Bool.false_ne_true, if_neg Bool.false_ne_true]
      obtain ⟨hphase, hreason⟩ := s.updFail_effect 0xB
      exact ⟨by rw [State.uartAnswered_rd, hphase], by rw [State.uartAnswered_rd, hreason], State.mem_uartAnswered_out ..⟩
    · rw [if_pos rfl, if_pos rfl]
      obtain ⟨hphase, himage, hattempt⟩ := s.updWrite_effect
      exact ⟨by rw [State.uartAnswered_rd, hphase], by rw [State.uartAnswered_boot]; exact himage,
        by rw [State.uartAnswered_boot]; exact hattempt, State.mem_uartAnswered_out ..⟩
  case _ =>
    intro s q ⟨hup, hnew⟩
    refine ⟨_, congrArg Outcome.next (State.uartFrame_new hup hnew), fun a _ => State.uartAnswered_word .., State.uartAnswered_out ..⟩
  case _ =>
    intro s q ⟨hup, hnew⟩
    refine ⟨_, congrArg Outcome.next (State.uartFrame_new hup hnew), ?_, State.mem_uartAnswered_out ..⟩
    rw [State.on_of_word (State.uartAnswered_word ..)]
    exact s.loaderOn

end Sys2Proof.Machine
end

section
/-!
PROOFS. The event recorder: triggers, chains, flush and clear.
-/

namespace Sys2Proof.Machine

open Host (Outcome)

/-! ## What an interrupt bit changes in the recorder (R412) -/

/-- A recorder that differs only in the bits of the instant and the sources that have fired. -/
def Recorder.sameBut (r q : Recorder) : Prop := ∃ i d, r = { q with inst := i, due := d }

theorem State.isrFires_recd (s : State) (p : Nat) (w : Word) : ∃ d, (s.isrFires p w).recd = { s.recd with due := d } := by
  unfold State.isrFires
  split
  · exact ⟨s.recd.due, rfl⟩
  · exact ⟨_, rfl⟩

theorem State.sendMsix_recd (s : State) (p : Nat) : (s.sendMsix p).recd = s.recd := by
  unfold State.sendMsix State.when
  split
  · rw [State.emit_recd]
  · rfl

theorem State.intReport_recd (s old : State) : (s.intReport old).recd = s.recd := by
  unfold State.intReport State.when
  split
  · rw [State.emit_recd]
  · rfl

theorem State.raise_recd (s : State) (p b : Nat) : (s.raise p b).recd.sameBut s.recd := by
  have hset (u : State) (a : Nat) (v : Word) : ∃ d, (u.setInt p a v).recd = { u.recd with due := d } := by
    unfold State.setInt
    dsimp only
    rw [State.intReport_recd, State.when_keeps (·.recd) (f := (·.sendMsix p)) (State.sendMsix_recd _ p)]
    unfold State.when
    split
    · obtain ⟨d, hd⟩ := (u.setWord a v).isrFires_recd p (v &&& ~~~ u.word a)
      exact ⟨d, by rw [hd, State.setWord_recd]⟩
    · exact ⟨u.recd.due, by rw [State.setWord_recd]⟩
  obtain ⟨d, hd⟩ := hset (s.noteBits (PG_ISR p).addr (2 ^ b)) (PG_ISR p).addr
    ((s.noteBits (PG_ISR p).addr (2 ^ b)).word (PG_ISR p).addr ||| BitVec.ofNat 32 (2 ^ b))
  exact ⟨_, d, hd⟩

theorem State.raise_queue (s : State) (p b : Nat) : (s.raise p b).recd.queue = s.recd.queue := by
  obtain ⟨i, d, h⟩ := s.raise_recd p b
  rw [h]

theorem State.raise_flash (s : State) (p b : Nat) : (s.raise p b).recd.flash = s.recd.flash := by
  obtain ⟨i, d, h⟩ := s.raise_recd p b
  rw [h]

theorem State.modRec_flash (s : State) {f : Recorder → Recorder} (h : ∀ r, (f r).flash = r.flash) : (s.modRec f).recd.flash = s.recd.flash := by
  rw [State.modRec_recd, h]

/-! ## Triggers (R415) -/

/-- A trigger's HOLDOFF begins where its slot has one. -/
def State.holdoffStarts (s : State) (t : Trig) : State :=
  s.when (s.rd (REC_TRG_HOLD_HOLDOFF t.slot) != 0) (·.modRec (fun r => { r with holdoff := r.holdoff ++ [t.slot] }))

theorem State.holdoffStarts_word (s : State) (t : Trig) (a : Nat) : (s.holdoffStarts t).word a = s.word a :=
  State.when_word _ _ _ _ (State.modRec_word ..)

theorem State.holdoffStarts_recd (s : State) (t : Trig) : (s.holdoffStarts t).recd.queue = s.recd.queue ∧
    (s.holdoffStarts t).recd.run = s.recd.run ∧ (s.rd (REC_TRG_HOLD_HOLDOFF t.slot) ≠ 0 → t.slot ∈ (s.holdoffStarts t).recd.holdoff) := by
  unfold State.holdoffStarts State.when
  by_cases h : s.rd (REC_TRG_HOLD_HOLDOFF t.slot) = 0
  · rw [if_neg (by simp [h])]
    exact ⟨rfl, rfl, fun hne => absurd h hne⟩
  · rw [if_pos (by simp [h]), State.modRec_recd]
    exact ⟨rfl, rfl, fun _ => List.mem_append_right _ (List.mem_singleton_self _)⟩

theorem State.fireSlot_suppressed (s : State) {t : Trig} (h : t.slot ∈ s.recd.holdoff) : s.fireSlot t = s.inc (REC_SUPPRESSED t.slot) :=
  if_pos (List.contains_iff_mem.2 h)

theorem State.fireSlot_lost {s : State} {t : Trig} (h : t.slot ∉ s.recd.holdoff) (hfull : 16 ≤ s.recd.queue.length) :
    s.fireSlot t = ((s.holdoffStarts t).inc REC_TRG_LOST).raise 8 3 := by
  unfold State.fireSlot
  rw [if_neg (by rwa [List.contains_iff_mem])]
  dsimp only
  rw [← State.holdoffStarts, if_pos (by rw [(s.holdoffStarts_recd t).1]; exact hfull)]

/-- A trigger that fires while a chain runs is queued. -/
theorem State.fireSlot_queued {s : State} {t : Trig} (h : t.slot ∉ s.recd.holdoff) (hroom : s.recd.queue.length < 16)
    (hrun : s.recd.run.isSome = true) :
    s.fireSlot t = ((s.holdoffStarts t).inc (REC_FIRED t.slot)).modRec (fun r => { r with queue := r.queue ++ [t] }) := by
  obtain ⟨x, hx⟩ := Option.isSome_iff_exists.1 hrun
  obtain ⟨hqueue, hrun', -⟩ := s.holdoffStarts_recd t
  unfold State.fireSlot
  rw [if_neg (by rwa [List.contains_iff_mem])]
  dsimp only
  rw [← State.holdoffStarts, if_neg (by rw [hqueue]; omega), State.startTrig, State.modRec_recd, State.inc_recd, hrun', hx]

/-! ## Records (R413) -/

/-- An entry of a record that is not read. -/
def missEntry (e : Nat) (l : List (Nat × Option Nat)) : List (Nat × Option Nat) :=
  (List.range l.length).zip l |>.map (fun (y : Nat × Nat × Option Nat) => if y.1 = e then (y.2.1, none) else y.2)

theorem missEntry_get {l : List (Nat × Option Nat)} {k w : Nat} {v : Option Nat} (h : l[k]? = some (w, v)) :
    (missEntry k l)[k]? = some (w, none) := by
  have hk : k < l.length := (List.getElem?_eq_some_iff.1 h).1
  have hzip : ((List.range l.length).zip l)[k]? = some (k, w, v) := List.getElem?_zip_eq_some.2 ⟨List.getElem?_range hk, h⟩
  rw [missEntry, List.getElem?_map, hzip]
  exact congrArg some (if_pos rfl)

theorem State.snapshotReadTimeout_exec {s : State} {x : RecRun} (k : Nat) (hrun : s.recd.run = some x) (hnext : x.next = none) :
    exec (.snapshotReadTimeout k) s = .next (s.modRec (fun r => { r with run := some { x with vals := missEntry k x.vals } })) := by
  change execSnapshotReadTimeout k s = _
  rw [execSnapshotReadTimeout, State.modRec, hrun, Option.map_some, if_neg (by rw [hnext]; exact Bool.false_ne_true)]
  rfl

/-! ## Flushing and clearing (R417, R418, R423) -/

/-- A flush that has failed twice. -/
def State.flushFailed (s : State) : State :=
  ((s.inc REC_FLUSH_ERR).raise 8 5).modRec (fun x => { x with flushTo := none, flushTimer := true })

/-- The record is in the flash, and FLUSHED follows. -/
def State.recordFlushed (s : State) (r : Rec) : State :=
  ((s.modRec (fun x => { x with flash := flashPut x.flash r })).wr REC_FLUSHED_SEQ (seqNext r.seq)).raise 8 1

/-- What follows a record that is in the flash: the scribe takes it, and the flush goes on or ends. -/
def State.flushGoesOn (s : State) (r : Rec) (last : Bool) : State :=
  let s := s.when (!s.crown && s.on REC_CTRL_SCRIBE) (·.stageEntry 1 (recBytes r))
  let s := s.when last (·.modRec (fun x => { x with flushTo := none }))
  s.modRec (fun x => { x with flushTimer := !s.waiting.isEmpty })

theorem State.flushRecordDone_fails {s : State} {n f : Nat} {r : Rec} (hto : s.recd.flushTo = some n) (hnext : s.flushNext = some r)
    (hmay : s.mayFlush = true) (hf : 2 ≤ f) : exec (.flushRecordDone f) s = .next s.flushFailed := by
  change execFlushRecordDone f s = _
  rw [execFlushRecordDone, hto, hnext]
  dsimp only
  rw [State.when_of _ _ hmay, if_pos hf]
  rfl

theorem State.flushRecordDone_passes {s : State} {n f : Nat} {r : Rec} (hto : s.recd.flushTo = some n) (hnext : s.flushNext = some r)
    (hmay : s.mayFlush = true) (hf : f < 2) : exec (.flushRecordDone f) s = .next ((s.recordFlushed r).flushGoesOn r
      (decide (seqDist (s.rd REC_FLUSHED_SEQ) (seqNext r.seq) ≥ seqDist (s.rd REC_FLUSHED_SEQ) n))) := by
  change execFlushRecordDone f s = _
  rw [execFlushRecordDone, hto, hnext]
  dsimp only
  rw [State.when_of _ _ hmay, if_neg (by omega)]
  simp only [State.flushGoesOn, State.recordFlushed, done]

theorem State.flushFailed_effect (s : State) : s.flushFailed.rd REC_FLUSH_ERR = (s.rd REC_FLUSH_ERR + 1) % 2 ^ 32 ∧
    s.flushFailed.recd.flushTo = none ∧ s.flushFailed.recd.flash = s.recd.flash ∧ (s.flushFailed.word (PG_ISR 8).addr).getLsbD 5 = true := by
  unfold State.flushFailed
  refine ⟨?_, ?_, ?_, ?_⟩
  · rw [State.modRec_rd, State.rd_raise_apart _ _ _ _ rfl, State.rd_inc_fits _ _ _ rfl]
    rfl
  · rw [State.modRec_recd]
  · refine (State.modRec_flash _ ?_).trans ((State.raise_flash _ _ _).trans (by rw [State.inc_recd]))
    exact fun _ => rfl
  · rw [State.modRec_word]
    exact State.raise_bit _ _ _ (by decide)

theorem State.stageEntry_word (s : State) (kind : Nat) (b : List Byte) {a : Nat} (h : a / 0x1000 ≠ 38) : (s.stageEntry kind b).word a = s.word a := by
  have hlost : a ≠ NVS_LOST.addr := fun he => h (he ▸ rfl)
  have hisr : a ≠ (PG_ISR 38).addr := fun he => h (he ▸ rfl)
  unfold State.stageEntry
  refine State.ite_word rfl (State.ite_word ?_ (State.modStn_word ..))
  rw [State.raise_word _ _ _ _ hisr, State.word_inc_ne _ _ _ _ hlost]

theorem State.stageEntry_flash (s : State) (kind : Nat) (b : List Byte) : (s.stageEntry kind b).recd.flash = s.recd.flash := by
  unfold State.stageEntry
  split
  · rfl
  · split
    · rw [State.raise_flash, State.inc_recd]
    · rw [State.modStn_recd]

theorem State.flushGoesOn_word (s : State) (r : Rec) (last : Bool) {a : Nat} (h : a / 0x1000 ≠ 38) : (s.flushGoesOn r last).word a = s.word a := by
  unfold State.flushGoesOn
  dsimp only
  rw [State.modRec_word, State.when_word _ _ _ _ (State.modRec_word ..)]
  exact State.when_word _ _ (·.stageEntry 1 (recBytes r)) _ (State.stageEntry_word _ _ _ h)

theorem State.flushGoesOn_flash (s : State) (r : Rec) (last : Bool) : (s.flushGoesOn r last).recd.flash = s.recd.flash := by
  have hlast (u : State) : (u.when last (·.modRec (fun x => { x with flushTo := none }))).recd.flash = u.recd.flash := by
    cases last
    · rfl
    · rw [State.when_true, State.modRec_recd]
  unfold State.flushGoesOn
  dsimp only
  rw [State.modRec_recd, hlast]
  exact State.when_keeps (·.recd.flash) (f := (·.stageEntry 1 (recBytes r))) (State.stageEntry_flash ..)

theorem State.recordFlushed_effect (s : State) (r : Rec) : (s.recordFlushed r).recd.flash = flashPut s.recd.flash r ∧
    (s.recordFlushed r).rd REC_FLUSHED_SEQ = seqNext r.seq % 2 ^ 32 ∧ ((s.recordFlushed r).word (PG_ISR 8).addr).getLsbD 1 = true := by
  unfold State.recordFlushed
  refine ⟨by rw [State.raise_flash, State.wr_recd, State.modRec_recd], ?_, State.raise_bit _ _ _ (by decide)⟩
  rw [State.rd_raise_apart _ _ _ _ rfl, State.rd_wr_fits _ _ _ rfl]
  rfl

theorem State.clearEraseDone_effect (s : State) : (((s.modRec (fun x => { x with flash := [] })).wr REC_STATUS_CLR_PHASE 2).flushReq).recd.flash = [] ∧
    (((s.modRec (fun x => { x with flash := [] })).wr REC_STATUS_CLR_PHASE 2).flushReq).rd REC_STATUS_CLR_PHASE = 2 := by
  have hflush (u : State) : u.flushReq.recd.flash = u.recd.flash ∧ u.flushReq.rd REC_STATUS_CLR_PHASE = u.rd REC_STATUS_CLR_PHASE := by
    unfold State.flushReq State.when
    split
    · rw [State.modRec_recd, State.modRec_rd]
      exact ⟨rfl, rfl⟩
    · exact ⟨rfl, rfl⟩
  rw [(hflush _).1, (hflush _).2, State.wr_recd, State.modRec_recd, State.rd_wr_fits _ _ _ rfl]
  exact ⟨rfl, rfl⟩

/-- Settles O53: a firing is served, counted, lost or queued as HOLDOFF and the chain say; a record goes on to the ring and to the flash. -/
theorem recorderCommands : Obligations.RecorderCommands := by
  unfold Obligations.RecorderCommands
  refine ⟨?_, ?_, ?_, ?_, ?_, ?_, ?_, ?_, ?_, ?_, ?_, ?_, ?_, ?_, ?_, ?_, ?_, ?_, ?_⟩
  case _ =>
    intro s x l h
    change execTriggerFire s = _
    rw [execTriggerFire, h]
  case _ =>
    intro s h
    change execTriggerFire s = _
    rw [execTriggerFire, h]
  case _ =>
    intro s x h
    exact s.fireSlot_suppressed h
  case _ =>
    intro s x h hfull
    rw [State.fireSlot_lost h hfull]
    refine ⟨?_, by rw [State.raise_queue, State.inc_recd, (s.holdoffStarts_recd x).1], State.raise_bit _ _ _ (by decide)⟩
    rw [State.rd_raise_apart _ _ _ _ rfl, State.rd_inc_fits _ _ _ rfl, State.rd_of_word (s.holdoffStarts_word x _)]
    rfl
  case _ =>
    intro s x _ h hroom hrun
    obtain ⟨hqueue, -, hhold⟩ := s.holdoffStarts_recd x
    rw [State.fireSlot_queued h hroom hrun, State.modRec_recd, State.inc_recd]
    exact ⟨by rw [hqueue], hhold⟩
  case _ =>
    intro s p k hk h
    exact congrArg Outcome.next ((State.when_of s _ (decide_eq_true hk)).trans (State.runCmd_accepted (c := cmdRecFire k) h rfl rfl rfl))
  case _ =>
    intro s p h
    exact congrArg Outcome.next (State.runCmd_accepted (c := cmdRecFlush) h rfl rfl rfl)
  case _ =>
    intro s p a h hph ha
    exact congrArg Outcome.next (State.runCmd_accepted (c := cmdRecClear) h rfl (by simp [cmdRecClear, hph, ha]) (by simp [cmdRecClear, ha]))
  case _ =>
    intro s p h hph
    exact congrArg Outcome.next (State.runCmd_rejected (c := cmdRecClear) h rfl (by decide) (if_pos hph))
  case _ =>
    intro s p h hph hno
    exact congrArg Outcome.next (State.runCmd_rejected (c := cmdRecClear) h rfl (by decide) (by simp [cmdRecClear, hph, hno]))
  case _ =>
    intro s k
    refine ⟨_, rfl, ?_⟩
    dsimp only
    rw [State.modRec_recd]
    exact ⟨by simp, fun j hj => by simp [hj], fun a _ => State.modRec_word ..⟩
  case _ =>
    intro s x k w v hrun hnext hval
    refine ⟨_, State.snapshotReadTimeout_exec k hrun hnext, ?_, fun a _ => State.modRec_word ..⟩
    rw [State.modRec_recd, Option.map_some, missEntry_get hval]
  case _ =>
    intro s x n hrun hnext hchain
    change execRecordWritten s = _
    rw [execRecordWritten, State.recordWritten, hrun]
    dsimp only
    rw [if_neg (by simp [hnext]), if_pos (by rw [hchain]; rfl), hchain]
  case _ =>
    intro s x hrun hnext hchain
    change execRecordWritten s = _
    rw [execRecordWritten, State.recordWritten, hrun]
    dsimp only
    rw [if_neg (by simp [hnext]), if_neg (by rw [hchain]; exact Bool.false_ne_true)]
  case _ =>
    intro s x n hrun hnext
    refine ⟨s.modRec (fun r =>
      { r with run := some { x with lst := n, pos := x.pos + 1, used := x.used ++ [n], vals := s.readList n, next := none } }), ?_,
      by rw [State.modRec_recd], fun a _ => State.modRec_word ..⟩
    change execChainContinuation s = _
    rw [execChainContinuation, State.chainGo, hrun]
    dsimp only
    rw [hnext]
  case _ =>
    intro s h
    exact congrArg Outcome.next (State.when_of s _ h)
  case _ =>
    intro s n r f hto hnext hmay hf
    exact ⟨_, State.flushRecordDone_fails hto hnext hmay hf, s.flushFailed_effect⟩
  case _ =>
    intro s n r f hto hnext hmay hf
    obtain ⟨hflash, hseq, hbit⟩ := s.recordFlushed_effect r
    refine ⟨_, State.flushRecordDone_passes hto hnext hmay hf, ?_, ?_, ?_⟩
    · rw [State.flushGoesOn_flash, hflash]
    · rw [State.rd_of_word (State.flushGoesOn_word _ _ _ (by decide)), hseq]
    · rw [State.flushGoesOn_word _ _ _ (by decide), hbit]
  case _ =>
    intro s hph heng
    exact ⟨_, congrArg Outcome.next (State.when_of s _ (by rw [hph, heng]; rfl)), s.clearEraseDone_effect⟩

end Sys2Proof.Machine
end

section
/-!
PROOFS. The end of a function and the reset of a block keep the chip's hidden state, such as the states of the power domains, but for
its place in the tree.
-/

namespace Sys2Proof.Machine

/-! ## The chip without its place in the tree -/

/-- The chip's hidden state without its place in the tree.  A definition of its own, so that two states are compared before either is
evaluated. -/
def State.chipKept (s : State) : Chip := { s.chip with role := 0, crownId := 0, tree := [], joining := [] }

theorem State.chipKept_of_chip {s t : State} (h : t.chip = s.chip) : t.chipKept = s.chipKept := by
  rw [State.chipKept, h, State.chipKept]

theorem State.doms_of_chipKept {s t : State} (h : t.chipKept = s.chipKept) : t.chip.doms = s.chip.doms :=
  have h' : t.chipKept.doms = s.chipKept.doms := congrArg Chip.doms h
  h'

theorem State.dom_of_chipKept {s t : State} (h : t.chipKept = s.chipKept) (d : Nat) : t.dom d = s.dom d := by
  rw [State.dom, State.dom, State.doms_of_chipKept h]

theorem State.chipKept_of_follows {s t : State} (h : Follows 1048574 s t) : t.chipKept = s.chipKept := State.chipKept_of_chip (h.parts .chip rfl)

theorem State.ite_chipKept {c : Prop} [Decidable c] {s t u : State} (ht : t.chipKept = s.chipKept) (hu : u.chipKept = s.chipKept) :
    (if c then t else u).chipKept = s.chipKept := by
  split
  · exact ht
  · exact hu

theorem foldS_chipKept {α : Type} {F : State → α → State} (xs : List α) (s : State) (hF : ∀ u, ∀ x ∈ xs, (F u x).chipKept = u.chipKept) :
    (foldS xs F s).chipKept = s.chipKept :=
  foldS_induct (P := fun t => t.chipKept = s.chipKept) rfl fun u x hx hu => (hF u x hx).trans hu

theorem State.mk_chipKept {s : State} {w : Tbl Word} {pe ou fr re ti po pw ev cx qu gi sc br dm fa dp us st bz sv se bo} :
    (State.mk w pe ou fr s.chip re ti po pw ev cx qu gi sc br dm fa dp us st bz sv se bo).chipKept = s.chipKept := rfl

theorem State.wr_chipKept (s : State) (f : Fld) (v : Nat) : (s.wr f v).chipKept = s.chipKept := State.chipKept_of_chip (State.wr_chip ..)

theorem State.flag_chipKept (s : State) (f : Fld) (b : Bool) : (s.flag f b).chipKept = s.chipKept := State.chipKept_of_chip (State.flag_chip ..)

theorem State.setBit_chipKept (s : State) (f : Fld) (k : Nat) (b : Bool) : (s.setBit f k b).chipKept = s.chipKept :=
  State.chipKept_of_chip (State.setBit_chip ..)

theorem State.raise_chipKept (s : State) (p b : Nat) : (s.raise p b).chipKept = s.chipKept := State.chipKept_of_chip (State.raise_chip ..)

theorem State.modTr_chipKept (s : State) (n : Nat) (f : Train → Train) : (s.modTr n f).chipKept = s.chipKept :=
  State.chipKept_of_chip (State.modTr_chip ..)

/-! ## Links that leave the tree -/

/-- A chip without an upstream port knows no crown. -/
def State.crownForgotten (s : State) : State := { s with chip := { s.chip with crownId := 0 } }

/-- The crown's tree without what hangs on a port. -/
def State.treePruned (s : State) (n : Nat) : State :=
  { s with chip := { s.chip with
    tree := treeWithout s.chip.tree 0 n, joining := s.chip.joining.filter (fun e => !(e.1 == 0 && e.2.1 == n)) } }

/-- A chip that is no crown any more. -/
def State.roleGivenUp (s : State) : State := { s.flag SYS_TREE_POS_CROWN false with chip := { s.chip with role := 0, crownId := 0, tree := [] } }

theorem State.crownForgotten_chipKept (s : State) : s.crownForgotten.chipKept = s.chipKept := rfl

theorem State.treePruned_chipKept (s : State) (n : Nat) : (s.treePruned n).chipKept = s.chipKept := rfl

theorem State.roleGivenUp_chipKept (s : State) : s.roleGivenUp.chipKept = s.chipKept := rfl

/-- The first part of leaving the tree: the port's bits and the upstream position. -/
def State.portLeft (s : State) (n : Nat) : State :=
  let s := (s.setBit SYS_TREE_POS_TWIN_PORTS n false).setBit SYS_TREE_POS_EXCESS n false
  let s := (s.flag (LNK_STATUS_CHILD_EXCESS n) false).flag (LNK_STATUS_PARENT n) false
  s.when (!s.crown && s.rd SYS_TREE_POS_UP_PORT == n) (fun s =>
    (((s.wr SYS_TREE_POS_UP_PORT 3).wr SYS_TREE_POS_DEPTH 0).wr SYS_TREE_POS_CHIP 0).crownForgotten)

theorem State.portLeft_chipKept (s : State) (n : Nat) : (s.portLeft n).chipKept = s.chipKept := by
  unfold State.portLeft
  dsimp only
  refine (State.when_keeps State.chipKept ?_).trans ?_
  · rw [State.crownForgotten_chipKept, State.wr_chipKept, State.wr_chipKept, State.wr_chipKept]
  · rw [State.flag_chipKept, State.flag_chipKept, State.setBit_chipKept, State.setBit_chipKept]

theorem State.leaveTree_eq (s : State) (n : Nat) : s.leaveTree n =
    let s := s.portLeft n
    let s := s.when s.crown (·.treePruned n)
    (s.when ((s.chip.strap == 0 || s.chip.strap == 3) && !((List.range 3).any (fun m => m != n && s.roleHeld m))) (·.roleGivenUp)).showChips := by
  simp only [State.leaveTree, State.portLeft, State.treePruned, State.roleGivenUp, State.crownForgotten]

theorem State.leaveTree_chipKept (s : State) (n : Nat) : (s.leaveTree n).chipKept = s.chipKept := by
  rw [State.leaveTree_eq]
  dsimp only
  rw [State.showChips, State.wr_chipKept, State.when_keeps State.chipKept (State.roleGivenUp_chipKept _),
    State.when_keeps State.chipKept (f := (·.treePruned n)) (State.treePruned_chipKept _ n), State.portLeft_chipKept]

theorem State.dropLink_chipKept (s : State) (n : Nat) : (s.dropLink n).chipKept = s.chipKept :=
  State.chipKept_of_follows (State.dropLink_follows rfl n (Follows.refl 1048574 s))

theorem State.enterDetect_chipKept (s : State) (n : Nat) : (s.enterDetect n).chipKept = s.chipKept :=
  State.chipKept_of_follows (State.enterDetect_follows rfl n (Follows.refl 1048574 s))

theorem State.linkDown_chipKept (s : State) (n cause : Nat) : (s.linkDown n cause).chipKept = s.chipKept := by
  simp only [State.linkDown]
  rw [State.raise_chipKept]
  refine (State.when_keeps State.chipKept (State.wr_chipKept ..)).trans ?_
  rw [State.enterDetect_chipKept, State.dropLink_chipKept, State.leaveTree_chipKept, State.wr_chipKept, State.wr_chipKept]

/-! ## The end of a function (R39) -/

theorem State.functionEnded_chipKept (s : State) (p : Nat) : (s.functionEnded p).chipKept = s.chipKept := by
  have r := Follows.refl 1048574 s
  have hstn (f : StationS → StationS) : (s.modStn f).chipKept = s.chipKept := State.chipKept_of_follows (State.modStn_follows rfl f r)
  unfold State.functionEnded
  refine State.ite_chipKept (State.chipKept_of_follows (State.srcState_follows rfl _ r))
    (State.ite_chipKept (State.chipKept_of_follows (State.foutLow_follows rfl r))
    (State.ite_chipKept (State.ite_chipKept (s.linkDown_chipKept _ _) ?_)
    (State.ite_chipKept (State.chipKept_of_follows (State.pcieDetect_follows rfl r))
    (State.ite_chipKept (State.chipKept_of_follows (foldS_follows _ _ (fun _ c hu => State.chQuit_follows rfl c hu) r))
    (State.ite_chipKept (State.chipKept_of_follows (State.ctxHooks_follows rfl (State.dpiDown_follows r)))
    (State.ite_chipKept (State.chipKept_of_follows (State.hubOff_follows rfl r))
    (State.ite_chipKept (State.chipKept_of_follows (State.dpoOff_follows rfl r))
    (State.ite_chipKept (State.chipKept_of_follows (State.usbdUpdate_follows rfl r))
    (State.ite_chipKept (State.chipKept_of_follows (State.ethOff_follows rfl _ r))
    (State.ite_chipKept (hstn _) (State.ite_chipKept (hstn _)
    (State.ite_chipKept (State.chipKept_of_follows (State.setScribe_follows rfl _ r)) rfl))))))))))))
  rw [State.enterDetect_chipKept, State.dropLink_chipKept, State.leaveTree_chipKept]

/-! ## The reset of a block (R19, R22) -/

theorem State.blockHidden_chipKept (s : State) (n : Nat) : (s.blockHidden n).chipKept = s.chipKept := by
  have ite {c : Prop} [Decidable c] {t u : State} := State.ite_chipKept (c := c) (s := s) (t := t) (u := u)
  have htm (u : State) : (foldS [0, 1, 2] (fun s n => s.modTm n (fun _ => {})) u).chipKept = u.chipKept :=
    foldS_chipKept _ _ fun v k _ => State.chipKept_of_chip (State.modTm_chip ..)
  have hfout : s.foutLow.chipKept = s.chipKept := State.chipKept_of_follows (State.foutLow_follows rfl (Follows.refl 1048574 s))
  have hkept (u : State) : (foldS (List.range 256) (fun s c => s.showKept c) u).chipKept = u.chipKept :=
    foldS_chipKept _ _ fun v k _ => State.wr_chipKept ..
  have herase : (foldS ((List.range 250).map (· + 6)) (fun s c => s.ctxErase c) s).chipKept = s.chipKept :=
    foldS_chipKept _ _ fun v k _ => State.chipKept_of_follows (State.ctxErase_follows rfl k (Follows.refl 1048574 v))
  have hleft (m : Nat) : (((((s.leaveTree m).dropLink m).enterDetect m)).modTr m (fun _ => {})).chipKept = s.chipKept := by
    rw [State.modTr_chipKept, State.enterDetect_chipKept, State.dropLink_chipKept, State.leaveTree_chipKept]
  unfold State.blockHidden
  exact ite rfl (ite rfl (ite rfl (ite rfl (ite (htm _) (ite hfout (ite rfl (ite rfl (ite rfl (ite rfl (ite (hkept _) (ite rfl (ite herase
    (ite (hleft _) (ite rfl (ite rfl (ite rfl (ite rfl (ite rfl (ite rfl (ite rfl (ite rfl (ite rfl (ite rfl (ite rfl (ite rfl (ite rfl
    rfl))))))))))))))))))))))))))

/-- The chip is kept by the reset of a block, but for the ideal-diode OR, which may take the whole chip down. -/
theorem State.blockReset_chipKept (s : State) {n : Nat} (h : n ≠ 3) : (s.blockReset n).chipKept = s.chipKept := by
  have hprog (u : State) : (u.when (n == 12) (fun s =>
      foldS ((List.range 32).filter (fun n => s.on (SIEVE_PROG_ACT_EN n))) (fun s n => s.progOff n) s)).chipKept = u.chipKept :=
    State.when_keeps State.chipKept (foldS_chipKept _ _ fun v k _ => State.chipKept_of_follows (State.progOff_follows k (Follows.refl 1048574 v)))
  unfold State.blockReset
  dsimp only
  rw [show (n == 3) = false from beq_false_of_ne h, State.when_false]
  refine (State.when_keeps State.chipKept ?_).trans ((State.when_keeps State.chipKept ?_).trans ((State.when_keeps State.chipKept ?_).trans
    ((State.when_keeps State.chipKept ?_).trans ((State.when_keeps State.chipKept ?_).trans ?_))))
  · exact State.chipKept_of_follows (State.dpaltHpd_follows rfl (Follows.refl 1048574 _))
  · exact State.chipKept_of_follows (State.ctxHooks_follows rfl (Follows.refl 1048574 _))
  · exact State.chipKept_of_follows (State.showEvi_follows (Follows.refl 1048574 _))
  · exact State.chipKept_of_follows (State.showBanks_follows rfl (Follows.refl 1048574 _))
  · exact State.chipKept_of_follows (State.svcUpdate_follows rfl (State.wr_follows (Follows.refl 1048574 _) _ _))
  · rw [State.mk_chipKept, State.blockHidden_chipKept, hprog]

theorem State.setLife_chipKept (s : State) (p v : Nat) : (s.setLife p v).chipKept = s.chipKept :=
  State.chipKept_of_follows (State.setLife_follows rfl p v (Follows.refl 1048574 s))

theorem State.softReset_chipKept (s : State) {n : Nat} (h : n ≠ 3) : (s.softReset n).chipKept = s.chipKept := by
  have hflags : ((((s.blockReset n).flag (PG_CTRL_EN n) false).flag (PG_STATE_WEDGED n) false).flag (PG_STATE_EN_PENDING n) false).chipKept =
      s.chipKept := by rw [State.flag_chipKept, State.flag_chipKept, State.flag_chipKept, State.blockReset_chipKept _ h]
  unfold State.softReset
  dsimp only
  refine (State.when_keeps State.chipKept ?_).trans ?_
  · exact State.chipKept_of_follows (State.intReport_follows _ (Follows.refl 1048574 _))
  · exact State.ite_chipKept ((State.setLife_chipKept ..).trans hflags)
      (State.ite_chipKept ((State.setLife_chipKept ..).trans hflags) ((State.setLife_chipKept ..).trans hflags))

theorem State.domLost_chipKept (s : State) (d : Nat) : (s.domLost d).chipKept = s.chipKept := by
  unfold State.domLost
  dsimp only
  refine (foldS_chipKept _ _ fun u e _ => ?_).trans ((State.when_keeps State.chipKept ?_).trans ((State.when_keeps State.chipKept ?_).trans
    ((foldS_chipKept _ _ fun u p _ => State.setLife_chipKept ..).trans ?_)))
  · exact State.chipKept_of_follows (State.setEng_follows _ _ (State.clearMailbox_follows rfl e (Follows.refl 1048574 u)))
  · exact State.chipKept_of_follows (State.showBanks_follows rfl (State.banksLost_follows rfl d (Follows.refl 1048574 _)))
  · exact State.blockReset_chipKept _ (by decide)
  · exact State.chipKept_of_follows (State.setDomainUp_follows d false (Follows.refl 1048574 s))

/-- Page BZL hangs on D2 alone. -/
theorem not_bzl_of_domPages {d p : Nat} (hd : d ≠ 2) (hp : p ∈ domPages d) : p ≠ 3 := by
  rintro rfl
  have hmem := List.contains_iff_mem.1 (List.mem_filter.1 hp).2
  exact hd (List.mem_singleton.1 hmem)

theorem State.domReset_chipKept (s : State) {d : Nat} (h : d ≠ 2) : (s.domReset d).chipKept = s.chipKept := by
  rw [State.domReset, State.domLost_chipKept]
  exact foldS_chipKept _ _ fun u p hp => State.softReset_chipKept _ (not_bzl_of_domPages h hp)

end Sys2Proof.Machine
end

section
/-!
PROOFS. Life cycles, soft resets, stalls, power domains and the entry into a power state.
-/

namespace Sys2Proof.Machine

open Host (Outcome)

/-! ## Writes of a page header (R9, R38) -/

theorem State.headerWrite_accepted {s : State} {p : Path} {n off v : Nat} {act : State → State} (hn : n < 39)
    (h : Reaches s p (0x1000 * n + off)) : s.headerWrite p n off v act = accepted s (act s) p (0x1000 * n + off) := by
  rw [State.headerWrite, if_neg (by omega)]
  exact State.writeOwn_accepted h rfl

/-- A write to a reserved page completes and has no effect. -/
theorem State.headerWrite_reserved {s : State} {p : Path} {n off v : Nat} {act : State → State} (hn : 39 ≤ n) (h : Reaches s p 0) :
    s.headerWrite p n off v act = s.wrote p (0x1000 * n + off) := by
  rw [State.headerWrite, if_pos hn, State.gate_reaches (x := ⟨p, 0, true, v⟩) h]

/-! ## Life cycles (R38, R39) -/

theorem State.flag_en_life (s : State) (n : Nat) (b : Bool) : (s.flag (PG_CTRL_EN n) b).rd (PG_STATE_LIFE n) = s.rd (PG_STATE_LIFE n) :=
  State.rd_flag_apart _ _ _ _ (by simp [Fld.apart, PG_CTRL_EN, PG_STATE_LIFE])

theorem State.flag_en_crown (s : State) (n : Nat) (b : Bool) : (s.flag (PG_CTRL_EN n) b).crown = s.crown :=
  State.on_flag_apart _ _ _ _ (by simp [Fld.apart, PG_CTRL_EN, SYS_TREE_POS_CROWN])

theorem State.flag_en_lifeImpl (s : State) (n : Nat) (b : Bool) : (s.flag (PG_CTRL_EN n) b).lifeImpl n = s.lifeImpl n := by
  rw [State.lifeImpl, State.flag_en_crown, State.lifeImpl]

/-- A write of EN of a page that has a life cycle is judged by the page's state. -/
theorem State.enable_eq {s : State} {n : Nat} (h : s.lifeImpl n = true) : s.enable n =
    if s.rd (PG_STATE_LIFE n) = lifeOff then (s.flag (PG_CTRL_EN n) true).pageStart n
    else if s.rd (PG_STATE_LIFE n) = lifeStopping then (s.flag (PG_CTRL_EN n) true).flag (PG_STATE_EN_PENDING n) true
    else s.flag (PG_CTRL_EN n) true := by
  unfold State.enable
  dsimp only
  rw [State.flag_en_lifeImpl, h, State.flag_en_life, if_neg (by decide)]

theorem State.disable_of_on {s : State} {n : Nat} (h : s.lifeImpl n = true) (hon : s.rd (PG_STATE_LIFE n) = lifeOn) :
    s.disable n = ((s.flag (PG_CTRL_EN n) false).setLife n lifeStopping).functionStops n := by
  unfold State.disable
  dsimp only
  rw [State.flag_en_lifeImpl, h, State.flag_en_life, hon, if_neg (by decide), if_neg (by decide), if_pos (.inr (.inl rfl))]

theorem State.functionStopComplete_when {s : State} {n : Nat} (hn : n < 39) (h : s.rd (PG_STATE_LIFE n) = lifeStopping) :
    exec (.functionStopComplete n) s = .next (if (s.functionEnded n).on (PG_STATE_EN_PENDING n) then
      ((s.functionEnded n).flag (PG_STATE_EN_PENDING n) false).pageStart n else (s.functionEnded n).setLife n lifeOff) := by
  change execFunctionStopComplete n s = _
  rw [execFunctionStopComplete, if_neg (by omega), State.when_of _ _ (by rw [decide_eq_true hn, h]; rfl)]

/-! ## Power domains (R19–R22) -/

/-- A domain that goes off and is wanted again. -/
def cycling : DomSt := { phase := .falling, onPending := true }

/-- A domain is cycled: its blocks pass through OFF. -/
def State.domCycled (s : State) (d : Nat) : State :=
  (foldS (domPages d) (fun s p => s.functionEnded p) (s.domReset d)).setDom d cycling

theorem State.setDom_dom (s : State) (d e : Nat) (v : DomSt) : (s.setDom d v).dom e = if e = d then v else s.dom e := by
  rw [State.dom, State.setDom]
  dsimp only
  split
  next h => rw [h, tget_tset_self]
  next h => rw [tget_tset_ne _ _ _ _ _ h, State.dom]

theorem State.domCycled_dom (s : State) {d : Nat} (e : Nat) (h : d ≠ 2) : (s.domCycled d).dom e = if e = d then cycling else s.dom e := by
  have hkept : (foldS (domPages d) (fun s p => s.functionEnded p) (s.domReset d)).chipKept = s.chipKept :=
    (foldS_chipKept _ _ fun u p _ => u.functionEnded_chipKept p).trans (s.domReset_chipKept h)
  rw [State.domCycled, State.setDom_dom, State.dom_of_chipKept hkept]

theorem foldS_domCycled_dom (l : List Nat) (s : State) (hl : ∀ d ∈ l, d ≠ 2) (e : Nat) :
    (foldS l (fun s d => s.domCycled d) s).dom e = if e ∈ l then cycling else s.dom e := by
  induction l generalizing s with
  | nil => exact (if_neg List.not_mem_nil).symm
  | cons d l ih =>
    refine (ih (s.domCycled d) fun x hx => hl x (List.mem_cons_of_mem _ hx)).trans ?_
    rw [State.domCycled_dom s e (hl d List.mem_cons_self)]
    by_cases hmem : e ∈ l
    · rw [if_pos hmem, if_pos (List.mem_cons_of_mem _ hmem)]
    · by_cases hed : e = d
      · rw [if_neg hmem, if_pos hed, if_pos (List.mem_cons.2 (.inl hed))]
      · rw [if_neg hmem, if_neg hed, if_neg (by simp [hed, hmem])]

/-- The pages whose domains are cycled are forgotten among those that stay wedged. -/
def State.wedgeForgotten (s : State) (l : List Nat) : State :=
  s.modChip (fun c => { c with softRst := c.softRst.filter (fun x => !(l.contains (pageDom x))) })

theorem State.domainCycle_exec {s : State} {n : Nat} (hrst : s.chip.softRst.contains n = true) (hw : s.on (PG_STATE_WEDGED n) = true)
    (hd : ∀ d ∈ pageDoms n, 3 ≤ d ∧ s.domOn d = true) :
    exec (.domainCycle n) s = .next (foldS (s.cycled n) (fun s d => s.domCycled d) (s.wedgeForgotten (s.cycled n))) := by
  have hall : (pageDoms n).all (fun d => decide (d ≥ 3) && s.domOn d) = true :=
    List.all_eq_true.2 fun d hmem => by rw [decide_eq_true (hd d hmem).1, (hd d hmem).2]; rfl
  change execDomainCycle n s = _
  rw [execDomainCycle, State.when_of _ _ (by rw [hrst, hw, hall]; rfl)]
  rfl

theorem State.cycled_ne {s : State} {n : Nat} (hd : ∀ d ∈ pageDoms n, 3 ≤ d ∧ s.domOn d = true) : ∀ d ∈ s.cycled n, d ≠ 2 := by
  rintro d hmem rfl
  rcases List.mem_append.1 (List.mem_filter.1 hmem).1 with h | h
  · exact absurd (List.mem_filter.1 h).1 (by decide)
  · exact absurd (hd 2 h).1 (by decide)

theorem State.mem_cycled {s : State} {n d : Nat} (hmem : d ∈ pageDoms n) (hon : s.domOn d = true) : d ∈ s.cycled n :=
  List.mem_filter.2 ⟨List.mem_append_right _ hmem, by rw [State.domRises, hon]; rfl⟩

/-! ## Stalls (R17) -/

/-- A block is wedged, and its function in FAULT. -/
def State.wedged (s : State) (n : Nat) : State := ((s.flag (PG_STATE_WEDGED n) true).functionFault n).raise n 31

theorem State.stallDetect_exec {s : State} {n : Nat} (hn : n < 39) (h13 : n ≠ 13) (hup : s.on (PG_STATE_DOMAIN_UP n) = true)
    (hw : s.on (PG_STATE_WEDGED n) = false) : exec (.stallDetect n) s = .next ((if 12 ≤ n ∧ n ≤ 15 then
      (s.wedged n).finalRecord 4 n (256 * n + 31) [wIdx (PG_STATE_LIFE n), wIdx (PG_ERRCAP_CODE n)]
      else (s.wedged n).sysRecord 4 n (256 * n + 31) [wIdx (PG_STATE_LIFE n), wIdx (PG_ERRCAP_CODE n)]).stallEnd n) := by
  change execStallDetect n s = _
  rw [execStallDetect, State.when_of _ _ (by rw [decide_eq_true hn, hup, hw]; rfl)]
  dsimp only
  rw [State.when_of_not _ _ (beq_false_of_ne h13), ← State.wedged]

/-- Settles O54: each request of a life cycle, a domain or a power state takes the branch of what it finds. -/
theorem lifeCycleAndDomainCommands : Obligations.LifeCycleAndDomainCommands := by
  unfold Obligations.LifeCycleAndDomainCommands
  refine ⟨?_, ?_, ?_, ?_, ?_, ?_, ?_, ?_, ?_, ?_, ?_, ?_, ?_, ?_, ?_, ?_, ?_, ?_, ?_, ?_, ?_, ?_, ?_, ?_⟩
  case _ =>
    intro s p n hn h
    exact congrArg Outcome.next (State.headerWrite_accepted hn h)
  case _ =>
    intro s p n hn h
    exact congrArg Outcome.next (State.headerWrite_accepted hn h)
  case _ =>
    intro s p n k hn h
    exact congrArg Outcome.next (State.headerWrite_accepted hn h)
  case _ =>
    intro s p n hn h
    exact ⟨congrArg Outcome.next (State.headerWrite_reserved hn h), congrArg Outcome.next (State.headerWrite_reserved hn h)⟩
  case _ =>
    intro s n himpl hoff
    rw [State.enable_eq himpl, if_pos hoff, State.pageStart]
  case _ =>
    intro s n himpl hstop
    rw [State.enable_eq himpl, if_neg (by rw [hstop]; decide), if_pos hstop]
  case _ =>
    intro s n himpl hon
    exact State.disable_of_on himpl hon
  case _ =>
    intro s n hn hok
    change execFunctionStartComplete n s = _
    rw [execFunctionStartComplete, if_neg (by omega), State.when_of _ _ (by rw [decide_eq_true hn, hok]; rfl)]
  case _ =>
    intro s c hc
    change execFunctionStartComplete (64 + c) s = _
    rw [execFunctionStartComplete, if_pos (by omega), State.when_of _ _ (decide_eq_true (by omega)), Nat.add_sub_cancel_left]
  case _ =>
    intro s n hn hstop hpend
    rw [State.functionStopComplete_when hn hstop, if_neg (by rw [hpend]; decide)]
  case _ =>
    intro s n hn hstop hpend
    rw [State.functionStopComplete_when hn hstop, if_pos hpend]
  case _ =>
    intro s k hcur
    change execRwpSafePointApply 25 k s = _
    rw [execRwpSafePointApply, if_neg (by decide), if_neg (by decide), if_pos rfl, State.when_of _ _ (by rw [hcur]; rfl)]
  case _ =>
    intro s k
    change execRwpSafePointApply 26 k s = _
    rw [execRwpSafePointApply, if_neg (by decide), if_neg (by decide), if_neg (by decide), if_neg (by decide), if_neg (by decide),
      if_neg (by decide), State.when_of _ _ (by decide)]
  case _ =>
    intro s d hd
    exact congrArg Outcome.next (State.when_of s _ (decide_eq_true hd))
  case _ =>
    intro s d h3 hd
    exact congrArg Outcome.next (State.when_of s _ (decide_eq_true ⟨h3, hd⟩))
  case _ =>
    intro s d hon hdep
    rw [State.domOffReq, hon]
    exact if_pos hdep
  case _ =>
    intro s d hon hdep
    rw [State.domOffReq, hon]
    exact if_neg (by rw [hdep]; decide)
  case _ =>
    intro s d hfall hdep hpend
    change execDomainOffComplete d s = _
    rw [execDomainOffComplete, State.when_of _ _ (by rw [hfall, hdep]; rfl)]
    dsimp only
    rw [hpend, State.when_false]
  case _ =>
    intro s d hfall hdep hpend
    change execDomainOffComplete d s = _
    rw [execDomainOffComplete, State.when_of _ _ (by rw [hfall, hdep]; rfl)]
    dsimp only
    rw [hpend, State.when_true]
  case _ =>
    intro s n hrst hw hd
    refine ⟨_, State.domainCycle_exec hrst hw hd, fun d hmem => ?_⟩
    rw [foldS_domCycled_dom _ _ (State.cycled_ne hd), if_pos (State.mem_cycled hmem (hd d hmem).2)]
    exact ⟨rfl, rfl⟩
  case _ =>
    intro s n hn hpage hup hw
    rw [State.stallDetect_exec hn (by omega) hup hw, if_neg (by omega), State.wedged]
  case _ =>
    intro s n hpage hup hw
    rw [State.stallDetect_exec (by omega) (by omega) hup hw, if_pos (by omega), State.wedged]
  case _ =>
    intro s w hpend hblock
    change execStateEntry w s = _
    rw [execStateEntry, State.when_of _ _ hpend]
    exact congrArg Outcome.next (if_pos hblock)
  case _ =>
    intro s hpend hblock h5
    change execStateEntry 0 s = _
    rw [execStateEntry, State.when_of _ _ hpend]
    dsimp only
    rw [if_neg (not_not_intro hblock), State.when_of_not _ _ (beq_false_of_ne h5), State.when_of_not _ _ (by decide)]

end Sys2Proof.Machine
end

section
/-!
PROOFS. Watchdog, brown-out, thermal shutdown, power loss and starts.
-/

namespace Sys2Proof.Machine

open Host (Outcome)

/-! ## Words after a reset (R7) -/

/-- A word of the reset store is the reset of some word, or the value of an unlisted address. -/
theorem wget_resetWords (keep : Nat → Nat) (m : Tbl Word) (a : Nat) :
    wget (resetWords keep m) a = dflt a ∨ ∃ w, wget (resetWords keep m) a = resetWord a (keep a) w := by
  cases hfind : (resetWords keep m).find? (fun e => e.1 == a) with
  | none => exact .inl (by rw [wget, tget, tget?, hfind]; rfl)
  | some e =>
    obtain ⟨x, -, hx⟩ := List.mem_filterMap.1 (List.mem_of_find?_eq_some hfind)
    have hkey : e.1 = a := by simpa using List.find?_some hfind
    dsimp only at hx
    split at hx
    · cases hx
    · have hval := Option.some.inj hx
      refine .inr ⟨x.2, ?_⟩
      rw [wget, tget, tget?, hfind, ← hkey, ← hval]
      rfl

theorem resetWord_zero (a : Nat) (w : Word) : resetWord a 0 w = dflt a := by
  rw [resetWord, BitVec.and_zero, BitVec.zero_or, show ~~~(BitVec.ofNat 32 0) = BitVec.allOnes 32 from rfl, BitVec.and_allOnes]

/-- A word that keeps nothing reads as reset. -/
theorem wget_resetWords_zero {keep : Nat → Nat} (m : Tbl Word) {a : Nat} (h : keep a = 0) : wget (resetWords keep m) a = dflt a := by
  rcases wget_resetWords keep m a with hd | ⟨w, hw⟩
  · exact hd
  · rw [hw, h, resetWord_zero]

theorem coldKeep_step (d1 : Bool) : coldKeep d1 BOOT_STATUS_STEP.addr = 0 := by
  cases d1 <;> decide

theorem dflt_step : BOOT_STATUS_STEP.get (dflt BOOT_STATUS_STEP.addr) = 0 := by decide

/-! ## What a reset forgets first -/

/-- The accesses in progress and the outputs' pulses end. -/
def State.dropped (s : State) : State := s.dropAccesses.foutLow

theorem State.dropped_follows (s : State) : Follows 32 s s.dropped :=
  State.foutLow_follows rfl (State.dropAccesses_follows (Follows.refl 32 s))

theorem State.dropped_recd (s : State) : s.dropped.recd = s.recd := s.dropped_follows.parts .recd rfl

theorem State.dropped_time (s : State) : s.dropped.time = s.time := s.dropped_follows.parts .time rfl

theorem State.dropped_bzl (s : State) : s.dropped.bzl = s.bzl := s.dropped_follows.parts .bzl rfl

theorem State.dropped_sec (s : State) : s.dropped.sec = s.sec := s.dropped_follows.parts .sec rfl

theorem State.dropped_boot (s : State) : s.dropped.boot = s.boot := s.dropped_follows.parts .boot rfl

/-! ## Warm reset (R7) -/

/-- What a warm reset keeps. -/
def State.warmKept (s : State) : State :=
  { words := resetWords warmKeep s.words
    pending := s.pending, out := s.out, fresh := s.fresh
    chip := { unitId := s.chip.unitId, finalRun := s.chip.finalRun, thermalOff := s.chip.thermalOff }
    recd := { s.recd with flushTo := none }
    time := { sec := s.time.sec, ns := s.time.ns, begun := s.time.begun, ran := s.time.ran, everSet := s.time.everSet, rtc := s.time.rtc }
    pwr := { rsStore := s.pwr.rsStore, railEn := s.pwr.railEn }
    evi := { fifo := s.evi.fifo, seq := s.evi.seq }
    dp := { shown := s.dp.shown, played := s.dp.played }
    bzl := s.bzl
    svc := { s.svc with reduced := s.on SVC_TC_STATUS_DEAD_BATT }
    sec := { slots := s.sec.slots, otp := s.sec.otp, rbRaised := s.sec.rbRaised }
    boot := { s.boot.keepFlash with cold := false, stepAt := s.elapsed, failAt := s.boot.failAt } }

theorem State.warmReset_eq (s : State) : s.warmReset = s.dropped.warmKept.showEvi.wr BOOT_STATUS_STEP 1 := by
  simp only [State.warmReset, State.warmKept, State.dropped]

theorem State.warmKept_parts (s : State) : s.warmKept.time.sec = s.time.sec ∧ s.warmKept.time.ns = s.time.ns ∧ s.warmKept.bzl = s.bzl ∧
    s.warmKept.sec.slots = s.sec.slots ∧ s.warmKept.recd.ring = s.recd.ring ∧ s.warmKept.ctxs = [] ∧ s.warmKept.fac.runs = [] ∧
    s.warmKept.evi.fout = 0 :=
  ⟨rfl, rfl, rfl, rfl, rfl, rfl, rfl, rfl⟩

/-- A warm reset keeps time, bezel, key store and ring, and starts at B1. -/
theorem State.warmReset_effect (s : State) : s.warmReset.step_ = 1 ∧ s.warmReset.time.sec = s.time.sec ∧ s.warmReset.time.ns = s.time.ns ∧
    s.warmReset.bzl = s.bzl ∧ s.warmReset.sec.slots = s.sec.slots ∧ s.warmReset.recd.ring = s.recd.ring ∧ s.warmReset.ctxs = [] ∧
    s.warmReset.fac.runs = [] ∧ s.warmReset.evi.fout = 0 := by
  have hshow := (State.showEvi_follows (msk := 0) (Follows.refl 0 s.dropped.warmKept)).parts
  obtain ⟨hsec, hns, hbzl, hslots, hring, hctxs, hruns, hfout⟩ := s.dropped.warmKept_parts
  rw [State.warmReset_eq]
  refine ⟨State.rd_wr_fits _ _ _ rfl, ?_, ?_, ?_, ?_, ?_, ?_, ?_, ?_⟩
  · rw [State.wr_time, hshow .time rfl, hsec, State.dropped_time]
  · rw [State.wr_time, hshow .time rfl, hns, State.dropped_time]
  · rw [State.wr_bzl, hshow .bzl rfl, hbzl, State.dropped_bzl]
  · rw [State.wr_sec, hshow .sec rfl, hslots, State.dropped_sec]
  · rw [State.wr_recd, hshow .recd rfl, hring, State.dropped_recd]
  · rw [State.wr_ctxs, hshow .ctxs rfl, hctxs]
  · rw [State.wr_fac, hshow .fac rfl, hruns]
  · rw [State.wr_evi, hshow .evi rfl, hfout]

/-! ## Losing D0 and D2 (R13, R391) -/

/-- What stays when D0 loses power. -/
def State.coldKept (s : State) (vbat : Bool) (rtc : Option Nat) : State :=
  { words := resetWords (coldKeep vbat) s.words
    pending := s.pending, out := s.out, fresh := s.fresh
    recd := { flash := s.recd.flash, lastWords := if vbat then s.recd.lastWords else [] }
    time := { rtc := rtc }
    pwr := { rsStore := s.pwr.rsStore }
    bzl := s.bzl
    svc := { s.svc with reduced := s.on SVC_TC_STATUS_DEAD_BATT }
    sec := { slots := if vbat then s.sec.slots else [], otp := s.sec.otp, rbRaised := s.sec.rbRaised,
             tamperDue := vbat && s.sec.tamperDue }
    boot := { s.boot.keepFlash with seq := 0, lost := !vbat }
    chip := { unitId := s.chip.unitId } }

theorem State.loseD0_eq (s : State) (vbat : Bool) (rtc : Option Nat) : s.loseD0 vbat rtc = s.dropped.coldKept vbat rtc := by
  simp only [State.loseD0, State.coldKept, State.dropped]

theorem State.coldKept_parts (s : State) (vbat : Bool) (rtc : Option Nat) : (s.coldKept vbat rtc).time.ns = 0 ∧ (s.coldKept vbat rtc).boot.b1 = false ∧
    (s.coldKept vbat rtc).recd.ring = [] ∧ (s.coldKept vbat rtc).recd.flash = s.recd.flash ∧ (s.coldKept vbat rtc).bzl = s.bzl ∧
    (s.coldKept vbat rtc).sec.slots = (if vbat then s.sec.slots else []) ∧ (s.coldKept vbat rtc).boot.image = s.boot.image ∧
    (s.coldKept vbat rtc).chip.d0Up = true :=
  ⟨rfl, rfl, rfl, rfl, rfl, rfl, rfl, rfl⟩

theorem State.coldKept_step (s : State) (vbat : Bool) (rtc : Option Nat) : (s.coldKept vbat rtc).step_ = 0 := by
  rw [State.step_, State.rd, State.word, State.coldKept]
  dsimp only
  rw [wget_resetWords_zero _ (coldKeep_step vbat), dflt_step]

theorem State.coldStart_effect (s : State) (vbat : Bool) (rtc : Option Nat) : (s.coldStart vbat rtc).time.sec = rtc.getD 0 ∧
    (s.coldStart vbat rtc).time.ns = 0 ∧ (s.coldStart vbat rtc).time.everSet = rtc.isSome ∧ (s.coldStart vbat rtc).boot.b1 = false ∧
    (s.coldStart vbat rtc).recd.ring = [] ∧ (s.coldStart vbat rtc).recd.flash = s.recd.flash ∧ (s.coldStart vbat rtc).bzl = s.bzl ∧
    (s.coldStart vbat rtc).sec.slots = (if vbat then s.sec.slots else []) ∧ (s.coldStart vbat rtc).step_ = 0 ∧
    (s.coldStart vbat rtc).chip.d0Up = true := by
  obtain ⟨hns, hb1, hring, hflash, hbzl, hslots, -, hup⟩ := s.dropped.coldKept_parts vbat rtc
  have hstep := s.dropped.coldKept_step vbat rtc
  have hstart : s.coldStart vbat rtc = (s.dropped.coldKept vbat rtc).modTime
      (fun t => { t with sec := rtc.getD 0, begun := rtc.getD 0 * 8000, everSet := rtc.isSome }) := by
    rw [State.coldStart, State.loseD0_eq]
  rw [hstart]
  generalize s.dropped.coldKept vbat rtc = t at hns hb1 hring hflash hbzl hslots hup hstep ⊢
  rw [State.modTime_time, State.modTime_boot, State.modTime_recd, State.modTime_bzl, State.modTime_sec, State.modTime_chip, State.step_,
    State.modTime_rd]
  exact ⟨rfl, hns, rfl, hb1, hring, by rw [hflash, State.dropped_recd], by rw [hbzl, State.dropped_bzl],
    by rw [hslots, State.dropped_sec], hstep, hup⟩

/-- The bezel die and the service port without a supply. -/
def State.bezelLost (s : State) (keep : Nat → Nat) : State := { s with words := resetWords keep s.words, bzl := {}, svc := {} }

/-- D0 and D2 are off, and no page is powered. -/
def State.unpowered (s : State) : State :=
  (foldS (List.range 39) (fun t p => t.setWord (PG_STATE_LIFE p).addr 0) ((s.setDom 0 { phase := .off }).setDom 2 { phase := .off })).modChip
    (fun c => { c with d0Up := false })

/-- The bits that D1 keeps with VBAT: the tamper's words and its latch. -/
def bezelKeep (vbat : Bool) (a : Nat) : Nat :=
  if vbat then
    if a = SEC_TAMPER_CFG_ARM.addr ∨ a = SEC_TAMPER_LOG_FIRST.addr ∨ a = SEC_TAMPER_TIME.addr then allBits
    else if a = SEC_STATUS_TAMPER.addr then 8 else 0
  else 0

theorem bezelKeep_eq (vbat : Bool) : bezelKeep vbat = fun a =>
    if vbat then
      (if a = SEC_TAMPER_CFG_ARM.addr ∨ a = SEC_TAMPER_LOG_FIRST.addr ∨ a = SEC_TAMPER_TIME.addr then allBits
        else if a = SEC_STATUS_TAMPER.addr then 8 else 0)
    else 0 := rfl

theorem State.d2PowerLoss_exec {s : State} (b : Bool) (h : s.unsupplied = true) : exec (.d2PowerLoss b) s =
    .next (((s.loseD0 b (if b then s.time.rtc else none)).bezelLost (bezelKeep b)).unpowered) := by
  refine congrArg Outcome.next ?_
  rw [State.when_of s _ h]
  rw [State.bezelLost, State.unpowered, bezelKeep_eq]

theorem State.bezelLost_parts (s : State) (keep : Nat → Nat) : (s.bezelLost keep).bzl = {} ∧ (s.bezelLost keep).svc = {} ∧
    (s.bezelLost keep).sec = s.sec ∧ (s.bezelLost keep).recd = s.recd ∧ (s.bezelLost keep).boot = s.boot :=
  ⟨rfl, rfl, rfl, rfl, rfl⟩

theorem State.unpowered_follows (s : State) : Follows 1 s s.unpowered := by
  have hdoms : Follows 1 s ((s.setDom 0 { phase := .off }).setDom 2 { phase := .off }) :=
    State.setDom_follows rfl _ _ (State.setDom_follows rfl _ _ (Follows.refl 1 s))
  exact State.modChip_follows rfl _ (foldS_follows _ _ (fun _ _ h => State.setWord_follows h _ _) hdoms)

theorem foldS_setWord_chip (l : List Nat) (F : Nat → Nat) (v : Word) (s : State) :
    (foldS l (fun t p => t.setWord (F p) v) s).chip = s.chip :=
  foldS_induct (P := fun t => t.chip = s.chip) (Eq.refl s.chip) fun u p _ hu => (State.setWord_chip u (F p) v).trans hu

theorem State.unpowered_doms (s : State) : s.unpowered.chip.d0Up = false ∧ s.unpowered.domOn 2 = false ∧ s.unpowered.domOn 0 = false := by
  have hdom (e : Nat) : s.unpowered.dom e = ((s.setDom 0 { phase := .off }).setDom 2 { phase := .off }).dom e := by
    rw [State.dom, State.unpowered, State.modChip_chip, foldS_setWord_chip, State.dom]
  refine ⟨by rw [State.unpowered, State.modChip_chip], ?_, ?_⟩
  · rw [State.domOn, hdom, State.setDom_dom, if_pos rfl]
    rfl
  · rw [State.domOn, hdom, State.setDom_dom, if_neg (by decide), State.setDom_dom, if_pos rfl]
    rfl

/-! ## The end of a final commit (R30–R32) -/

/-- The final records enter the ring. -/
def State.committed (s : State) : State :=
  (foldS (s.recd.final.map (·.2)) (fun s r => s.enterRing r) { s with recd := { s.recd with final := [] } }).modChip
    (fun c => { c with finalRun := false, wdtHeld := false })

theorem State.committed_chip (s : State) : s.committed.chip = { s.chip with finalRun := false, wdtHeld := false } := by
  have hstart : Follows 2 s ({ s with recd := { s.recd with final := [] } } : State) := (Follows.recd_iff rfl).2 (Follows.refl 2 s)
  have hring := (foldS_follows (s.recd.final.map (·.2)) (fun s r => s.enterRing r) (fun _ r h => State.enterRing_follows rfl r h) hstart).parts
  rw [State.committed, State.modChip_chip, hring .chip rfl]

theorem State.finalCommitEnd_exec {s : State} (hfinal : s.chip.finalRun = true) (hrun : s.recd.run = none) : exec .finalCommitEnd s =
    .next (if s.chip.wdtHeld then (s.committed.when s.committed.chip.thermalWait.isSome (·.thermalCut)).watchdogReset
      else (s.committed.when s.committed.chip.thermalWait.isSome (·.thermalCut)).rstDue) := by
  have hstart : Follows 2 s ({ s with recd := { s.recd with final := [] } } : State) := (Follows.recd_iff rfl).2 (Follows.refl 2 s)
  have hring := (foldS_follows (s.recd.final.map (·.2)) (fun s r => s.enterRing r) (fun _ r h => State.enterRing_follows rfl r h) hstart).parts
  change execFinalCommitEnd s = _
  rw [execFinalCommitEnd, State.when_of _ _ (by rw [hfinal, hrun]; rfl)]
  dsimp only
  rw [hring .chip rfl]
  rfl

theorem State.setDom_rstHeld (s : State) (d : Nat) (v : DomSt) : (s.setDom d v).chip.rstHeld = s.chip.rstHeld := rfl

theorem State.domReset_rstHeld (s : State) {d : Nat} (h : d ≠ 2) : (s.domReset d).chip.rstHeld = s.chip.rstHeld := by
  have hkept : (s.domReset d).chipKept.rstHeld = s.chipKept.rstHeld := congrArg Chip.rstHeld (s.domReset_chipKept h)
  generalize s.domReset d = t at hkept ⊢
  exact hkept

theorem State.cutDomains_rstHeld (s : State) {l : List Nat} (h : 2 ∉ l) : (s.cutDomains l).chip.rstHeld = s.chip.rstHeld := by
  rw [State.cutDomains]
  refine foldS_induct (P := fun t => t.chip.rstHeld = s.chip.rstHeld) (Eq.refl s.chip.rstHeld) fun u d hd hu => ?_
  rw [State.setDom_rstHeld, State.domReset_rstHeld _ (fun h2 => h (h2 ▸ hd)), hu]

theorem State.noWait_rstHeld (s : State) : (s.modChip (fun c => { c with thermalWait := none })).chip.rstHeld = s.chip.rstHeld := by
  rw [State.modChip_chip]

theorem State.thermalCut_rstHeld (s : State) : s.thermalCut.chip.rstHeld = s.chip.rstHeld := by
  rw [State.thermalCut, State.noWait_rstHeld, State.cutDomains_rstHeld s (l := upperDoms) (by decide)]

/-! ## Final records (R31, R330) -/

theorem State.finalRecord_word (s : State) (typ trig source : Nat) (idx : List Nat) (a : Nat) :
    (s.finalRecord typ trig source idx).word a = s.word a := by
  rw [State.finalRecord, State.mk_word]

theorem State.finalRecord_finalRun (s : State) (typ trig source : Nat) (idx : List Nat) :
    (s.finalRecord typ trig source idx).chip.finalRun = true := rfl

theorem State.noteFail_word (s : State) (n code : Nat) {a : Nat} (h : a / 0x1000 ≠ 10) : (s.noteFail n code).word a = s.word a := by
  have hwr (u : State) (f : Fld) (v : Nat) (hf : f.addr / 0x1000 = 10) : (u.wr f v).word a = u.word a :=
    State.word_wr_ne _ _ _ _ (fun he => h (he ▸ hf))
  unfold State.noteFail
  dsimp only
  refine State.ite_word (State.modBoot_word ..) ?_
  simp only [State.setFlagBit, State.setFlags]
  have hstatus : a ≠ BOOT_STATUS_HALT.addr := fun he => h (he ▸ rfl)
  rw [State.word_flag_ne _ BOOT_STATUS_NO_KEYS _ _ hstatus, State.word_flag_ne _ _ _ _ hstatus,
    hwr _ _ _ rfl, hwr _ _ _ rfl, hwr _ _ _ rfl, hwr _ _ _ rfl, hwr _ _ _ rfl, State.modBoot_word]

/-- What follows from a brown-out: the voltage request ends, and a step of a start is noted in the ledger. -/
def State.brownEnded (s : State) (n : Nat) : State :=
  s.vAbandon.when (decide (2 ≤ n ∧ n ≤ 7)) (fun s => (s.noteFail n 0x20).ledgerUpdate)

/-- The record of a brown-out (R330). -/
def State.brownRecorded (s : State) : State :=
  ((s.flag BZL_STATUS_BROWNOUT true).raise 3 5).finalRecord 2 0 0x0300
    [wIdx BZL_STATUS_BROWNOUT, wIdx BZL_FLT_CAUSE_FIRST, wIdx BZL_MON_V_VOR, wIdx BZL_MON_I_MA, wIdx PMB_VSTAT_VNOW]

theorem State.brownout_exec {s : State} {vor vbus : Nat} {byVbus : Bool} (h2 : s.domOn 2 = true) (hup : s.chip.d0Up = true)
    (hlow : (if byVbus then decide (vbus < 4400) else decide (vor < 500 * s.rd BZL_OR_CTRL_BROWN_V)) = true) :
    exec (.brownout vor vbus byVbus) s = .next (s.brownRecorded.brownEnded s.brownRecorded.brownStep) := by
  change execBrownout vor vbus byVbus s = _
  rw [execBrownout, State.when_of _ _ (by rw [h2, hup, hlow]; rfl)]
  rfl

theorem State.brownEnded_word (s : State) (n : Nat) {a : Nat} (h10 : a / 0x1000 ≠ 10) : (s.brownEnded n).word a = s.vAbandon.word a := by
  rw [State.brownEnded]
  refine State.when_word _ _ _ _ ?_
  rw [State.ledgerUpdate_word, State.noteFail_word _ _ _ h10]

theorem State.vAbandon_word (s : State) {a : Nat} (h : a ≠ PMB_VSTAT_BUSY.addr) : s.vAbandon.word a = s.word a := by
  rw [State.vAbandon]
  refine State.when_word _ _ _ _ ?_
  rw [State.modPwr_word, State.word_wr_ne _ PMB_VSTAT_LAST_ERR _ _ h, State.word_flag_ne _ _ _ _ h]

theorem State.vAbandon_idle (s : State) : s.vAbandon.on PMB_VSTAT_BUSY = false := by
  rw [State.vAbandon]
  by_cases h : s.on PMB_VSTAT_BUSY = true
  · rw [State.when_of _ _ h, State.modPwr_on, State.on_wr_apart _ _ _ _ rfl, State.on_flag_one _ _ _ rfl]
  · rw [State.when_of_not _ _ (Bool.eq_false_iff.2 h), Bool.eq_false_iff.2 h]

theorem State.brownEnded_finalRun (s : State) (n : Nat) : (s.brownEnded n).chip.finalRun = s.chip.finalRun := by
  rw [State.brownEnded]
  have habandon : s.vAbandon.chip = s.chip := (State.vAbandon_follows (msk := 16) rfl (Follows.refl 16 s)).parts .chip rfl
  refine (State.when_keeps (·.chip.finalRun) (f := fun s => (s.noteFail n 0x20).ledgerUpdate) ?_).trans (by rw [habandon])
  rw [(State.ledgerUpdate_follows (msk := 524288) rfl
    (State.noteFail_follows (msk := 524288) rfl n 0x20 (Follows.refl 524288 s.vAbandon))).parts .chip rfl]

theorem State.brownRecorded_effect (s : State) : s.brownRecorded.on BZL_STATUS_BROWNOUT = true ∧ s.brownRecorded.chip.finalRun = true ∧
    (s.brownRecorded.word (PG_ISR 3).addr).getLsbD 5 = true := by
  rw [State.brownRecorded]
  refine ⟨?_, State.finalRecord_finalRun .., ?_⟩
  · rw [State.on_of_word (State.finalRecord_word ..), State.on_raise_apart _ _ _ _ rfl, State.on_flag_one _ _ _ rfl]
  · rw [State.finalRecord_word]
    exact State.raise_bit _ _ _ (by decide)

/-- After a brown-out its flag stands, the final commit runs, no voltage request is in flight and the interrupt is raised. -/
theorem State.brownout_effect (s : State) (n : Nat) : (s.brownRecorded.brownEnded n).on BZL_STATUS_BROWNOUT = true ∧
    (s.brownRecorded.brownEnded n).chip.finalRun = true ∧ (s.brownRecorded.brownEnded n).on PMB_VSTAT_BUSY = false ∧
    ((s.brownRecorded.brownEnded n).word (PG_ISR 3).addr).getLsbD 5 = true := by
  obtain ⟨hflag, hrun, hisr⟩ := s.brownRecorded_effect
  refine ⟨?_, ?_, ?_, ?_⟩
  · rw [State.on_of_word (State.brownEnded_word _ _ (by decide)), State.on_of_word (State.vAbandon_word _ (by decide)), hflag]
  · rw [State.brownEnded_finalRun, hrun]
  · rw [State.on_of_word (State.brownEnded_word _ _ (by decide)), State.vAbandon_idle]
  · rw [State.brownEnded_word _ _ (by decide), State.vAbandon_word _ (by decide), hisr]

/-! ## Thermal shutdown and restart (R31, R33) -/

/-- The record of a thermal shutdown and its registers. -/
def State.shutdownShown (s : State) : State :=
  ((s.finalRecord 3 0 0x0500 ([wIdx THM_TJ_MAX_T] ++ (List.range 4).map (fun k => wIdx (THM_TJ k)))).incSat THM_SHUT_CNT).flag
    THM_STATUS_SHUTDOWN_SEEN true

theorem State.thermalShutdown_exec {s : State} (htj : 2080 < s.tj) (hoff : s.chip.thermalOff = false) (hup : s.chip.d0Up = true) :
    exec .thermalShutdown s = .next (s.shutdownShown.modChip
      (fun c => { c with thermalOff := true, thermalWait := some (s.shutdownShown.elapsed + 100000) })) :=
  congrArg Outcome.next (State.when_of s _ (by rw [hoff, hup, decide_eq_true htj]; rfl))

theorem State.shutdownShown_time (s : State) : s.shutdownShown.elapsed = s.elapsed := by
  rw [State.shutdownShown, State.elapsed, State.flag_time, State.incSat_time, State.elapsed]
  rfl

theorem State.shutdownShown_finalRun (s : State) : s.shutdownShown.chip.finalRun = true := by
  rw [State.shutdownShown, State.flag_chip, State.incSat_chip, State.finalRecord_finalRun]

theorem State.thermalRestart_exec {s : State} {x : Int} (hoff : s.chip.thermalOff = true) (hwait : s.chip.thermalWait = none)
    (hup : s.chip.d0Up = true) (hx : x < 1840) : exec (.thermalRestart x) s =
    .next (((s.modChip (fun c => { c with thermalOff := false })).enterStep 2).raise 5 2) :=
  congrArg Outcome.next (State.when_of s _ (by rw [hoff, hwait, hup, decide_eq_true hx]; rfl))

/-! ## The obligation -/

/-- A waiting warm reset that no service-port record asked for happens at once. -/
theorem State.rstDue_mspi {s : State} (hheld : s.chip.rstHeld = some .mspi) (hfinal : s.chip.finalRun = false) : s.rstDue = s.warmReset := by
  rw [State.rstDue, State.when_of _ _ (by rw [State.rstReady, hheld, hfinal]; rfl), State.rstNow]
  cases hm : s.chip.mgmt with
  | nil => rfl
  | cons r rs => exact congrArg State.warmReset (State.when_of_not _ _ (by rw [hheld]; rfl))

theorem State.rstDue_none {s : State} (hheld : s.chip.rstHeld = none) : s.rstDue = s := by
  rw [State.rstDue, State.when_of_not _ _ (by rw [State.rstReady, hheld]; rfl)]

/-- Settles O55: watchdog, final commit, brown-out, thermal shutdown, power loss, the starts. -/
theorem resetAndProngCommands : Obligations.ResetAndProngCommands := by
  unfold Obligations.ResetAndProngCommands
  refine ⟨?_, ?_, ?_, ?_, ?_, ?_, ?_, ?_, ?_, ?_, ?_, ?_⟩
  case _ =>
    intro s hen hup hfinal
    refine congrArg Outcome.next ((State.when_of s _ (by rw [hen, hup]; rfl)).trans ?_)
    rw [hfinal, if_neg Bool.false_ne_true]
  case _ =>
    intro s hen hup hfinal
    refine congrArg Outcome.next ((State.when_of s _ (by rw [hen, hup]; rfl)).trans ?_)
    rw [hfinal, if_pos rfl]
  case _ =>
    intro s hfinal hrun hwait hheld
    rw [State.finalCommitEnd_exec hfinal hrun, if_pos hheld, State.when_of_not _ _ (by rw [s.committed_chip, hwait]; rfl)]
    rfl
  case _ =>
    intro s hfinal hrun hwait hheld hrst
    rw [State.finalCommitEnd_exec hfinal hrun, hheld, if_neg Bool.false_ne_true,
      State.when_of_not _ _ (by rw [s.committed_chip, hwait]; rfl), State.rstDue_mspi (by rw [s.committed_chip, hrst]) (by rw [s.committed_chip])]
    rfl
  case _ =>
    intro s x hfinal hrun hwait hheld hrst
    rw [State.finalCommitEnd_exec hfinal hrun, hheld, if_neg Bool.false_ne_true,
      State.when_of _ _ (by rw [s.committed_chip, hwait]; rfl), State.rstDue_none (by rw [State.thermalCut_rstHeld, s.committed_chip, hrst])]
    rfl
  case _ =>
    intro s v b h2 hup hlow
    exact ⟨_, State.brownout_exec h2 hup (by rw [if_neg Bool.false_ne_true, decide_eq_true hlow]), State.brownout_effect ..⟩
  case _ =>
    intro s v b h2 hup hlow
    obtain ⟨hflag, hrun, -, -⟩ := s.brownout_effect s.brownRecorded.brownStep
    exact ⟨_, State.brownout_exec h2 hup (by rw [if_pos rfl, decide_eq_true hlow]), hflag, hrun⟩
  case _ =>
    intro s htj hoff hup
    refine ⟨_, State.thermalShutdown_exec htj hoff hup, ?_, ?_, ?_, ?_⟩
    · rw [State.modChip_chip]
    · rw [State.modChip_chip, State.shutdownShown_time]
    · rw [State.modChip_chip, State.shutdownShown_finalRun]
    · rw [State.modChip_on, State.shutdownShown, State.on_flag_one _ _ _ rfl]
  case _ =>
    intro s x hoff hwait hup hx
    refine ⟨_, State.thermalRestart_exec hoff hwait hup hx, ?_, ?_, State.raise_bit _ _ _ (by decide)⟩
    · rw [State.raise_chip, (State.enterStep_follows (msk := 524288) rfl 2 (Follows.refl 524288 _)).parts .chip rfl, State.modChip_chip]
    · rw [State.step_, State.rd_raise_apart _ _ _ _ rfl]
      exact State.enterStep_step _ (by decide)
  case _ =>
    intro s b hun
    refine ⟨_, State.d2PowerLoss_exec b hun, ?_⟩
    rw [State.loseD0_eq]
    obtain ⟨-, -, hring, hflash, -, hslots, himage, -⟩ := s.dropped.coldKept_parts b (if b then s.time.rtc else none)
    generalize s.dropped.coldKept b (if b then s.time.rtc else none) = t at hring hflash hslots himage ⊢
    obtain ⟨hbzl, hsvc, hsec, hrecd, hboot⟩ := t.bezelLost_parts (bezelKeep b)
    obtain ⟨hup, hd2, hd0⟩ := (t.bezelLost (bezelKeep b)).unpowered_doms
    have hparts := (t.bezelLost (bezelKeep b)).unpowered_follows.parts
    refine ⟨hup, hd2, hd0, ?_, ?_, ?_, ?_, ?_, ?_⟩
    · rw [hparts .bzl rfl, hbzl]
    · rw [hparts .svc rfl, hsvc]
    · rw [hparts .sec rfl, hsec, hslots, State.dropped_sec]
    · rw [hparts .recd rfl, hrecd, hflash, State.dropped_recd]
    · rw [hparts .recd rfl, hrecd, hring]
    · rw [hparts .boot rfl, hboot, himage, State.dropped_boot]
  case _ =>
    intro s r b h2
    exact ⟨_, congrArg Outcome.next (State.when_of s _ h2), s.coldStart_effect b r⟩
  case _ =>
    exact State.warmReset_effect

end Sys2Proof.Machine
end

section
/-!
PROOFS. A training failure records its cause and its state (R69).
-/

namespace Sys2Proof.Machine

open Host (Outcome)

/-! ## The training state of a port -/

/-- Functions that leave the links alone keep the training state of each port. -/
theorem State.tr_of_ports {s t : State} (h : t.ports = s.ports) (n : Nat) : t.tr n = s.tr n := by
  rw [State.tr, State.port, h, State.tr, State.port]

theorem State.leaveTree_ports (s : State) (n : Nat) : (s.leaveTree n).ports = s.ports :=
  (State.leaveTree_follows (msk := 1) rfl n (Follows.refl 1 s)).parts .ports rfl

/-! ## The steps of a failure (R69) -/

/-- The cause, the state and the rate in LNK_FAIL, the count, the interrupt and the FAIL beacon. -/
def State.failNoted (s : State) (n cause st : Nat) : State :=
  (((((s.wr (LNK_FAIL_CAUSE n) cause).wr (LNK_FAIL_STATE n) st).wr (LNK_FAIL_SPEED n)
    (s.rd (LNK_STATUS_SPEED n))).inc (LNK_TRAIN_CNT_FAIL n)).raise (lnkPage n) 2).emit
    (.beacon n 8 [cause, st])

/-- The third counted failure in a row lowers the ceiling. -/
def State.failThird (s : State) (n ceil : Nat) : State :=
  if ceil > 0 then ((s.wr (LNK_FAIL_CEILING n) (ceil - 1)).wr (LNK_FAIL_COUNT n) 0).raise (lnkPage n) 3
  else s.wr (LNK_FAIL_COUNT n) 3

/-- A counted failure is counted. -/
def State.failCounted (s : State) (n cause st ceil : Nat) : State :=
  if countedCause cause st then
    if s.rd (LNK_FAIL_COUNT n) + 1 ≥ 3 then s.failThird n ceil else s.inc (LNK_FAIL_COUNT n)
  else s

/-- The port is failing, and where it goes after the beacon. -/
def State.failMarked (s : State) (n : Nat) (hold reset : Bool) : State :=
  s.modTr n (fun t => { t with failing := true, toHoldoff := hold, ceilReset := reset })

/-- A failure late in training leaves the tree, and one of the roles or of the tree is a fault of the port. -/
def State.failLeft (s : State) (n cause : Nat) : State :=
  (s.when (s.tstate n == tRole || s.tstate n == tKeys || s.tstate n == tCycle || s.tstate n == tParked) (fun s => s.leaveTree n)).when
    (cause == 7 || cause == 8) (fun s => s.functionFault (lnkPage n))

theorem State.trainFail_eq (s : State) (n cause st : Nat) : s.trainFail n cause st =
    (((s.failNoted n cause st).failCounted n cause st (s.rd (LNK_FAIL_CEILING n))).failMarked n
      (!countedCause cause st || (decide ((s.failNoted n cause st).rd (LNK_FAIL_COUNT n) + 1 ≥ 3) && s.rd (LNK_FAIL_CEILING n) == 0))
      (countedCause cause st && decide ((s.failNoted n cause st).rd (LNK_FAIL_COUNT n) + 1 ≥ 3) && s.rd (LNK_FAIL_CEILING n) == 0)).failLeft
      n cause := by
  unfold State.trainFail
  dsimp only
  rw [← State.failNoted]
  generalize s.failNoted n cause st = u
  simp only [State.failCounted, State.failThird, State.failMarked, State.failLeft]

section Kept
variable (s : State) (n cause st ceil : Nat) {g : Fld}

/-- The count and the ceiling of the failures stand apart from their cause and state. -/
theorem State.failCounted_rd (hceil : (LNK_FAIL_CEILING n).apart g = true) (hcount : (LNK_FAIL_COUNT n).apart g = true)
    (hisr : (PG_ISR (lnkPage n)).apart g = true) : (s.failCounted n cause st ceil).rd g = s.rd g := by
  unfold State.failCounted State.failThird
  split
  · split
    · split
      · rw [State.rd_raise_apart _ _ _ _ hisr, State.rd_wr_apart _ _ _ _ hcount, State.rd_wr_apart _ _ _ _ hceil]
      · rw [State.rd_wr_apart _ _ _ _ hcount]
    · rw [State.rd_inc_apart _ _ _ _ hcount]
  · rfl

theorem State.failCounted_follows : Follows 2 s (s.failCounted n cause st ceil) := by
  have r := Follows.refl 2 s
  unfold State.failCounted State.failThird
  split
  · split
    · split
      · exact State.raise_follows rfl _ _ (State.wr_follows (State.wr_follows r _ _) _ _)
      · exact State.wr_follows r _ _
    · exact State.inc_follows r _ _
  · exact r

theorem State.failLeft_word {a : Nat} (hpos : a ≠ 0x60) (hst : a ≠ 0x10044 + 0x1000 * n) (hlife : a ≠ (PG_STATE_LIFE (lnkPage n)).addr)
    (hisr : a ≠ (PG_ISR (lnkPage n)).addr) : (s.failLeft n cause).word a = s.word a := by
  have hleft : (s.when (s.tstate n == tRole || s.tstate n == tKeys || s.tstate n == tCycle || s.tstate n == tParked)
      (fun s => s.leaveTree n)).word a = s.word a := State.when_word _ _ _ _ (s.leaveTree_word hpos hst)
  rw [State.failLeft]
  refine (State.when_word _ _ _ _ ?_).trans hleft
  rw [State.functionFault, State.word_flag_ne _ (PG_STATE_EN_PENDING (lnkPage n)) _ _ hlife]
  exact State.setLife_word _ _ _ _ hisr hlife

theorem State.failLeft_ports : (s.failLeft n cause).ports = s.ports := by
  rw [State.failLeft]
  refine (State.when_keeps (·.ports) (f := fun s => s.functionFault (lnkPage n)) ?_).trans
    (State.when_keeps (·.ports) (f := fun s => s.leaveTree n) (State.leaveTree_ports s n))
  exact (State.functionFault_follows (msk := 2) rfl _ (Follows.refl 2 _)).parts .ports rfl

theorem State.failLeft_out : s.out <+: (s.failLeft n cause).out := by
  have hleft : Follows 3 s (s.failLeft n cause) := by
    rw [State.failLeft]
    exact State.when_follows (State.when_follows (Follows.refl 3 s) _ (fun _ h => State.leaveTree_follows rfl n h)) _
      (fun _ h => State.functionFault_follows rfl _ h)
  exact hleft.out

end Kept

/-- What a failure leaves: its cause and state in LNK_FAIL, the FAIL beacon sent, the port failing, no output taken back. -/
def State.Failed (s t : State) (n cause st : Nat) : Prop :=
  t.rd (LNK_FAIL_CAUSE n) = cause ∧ t.rd (LNK_FAIL_STATE n) = st ∧ Out.beacon n 8 [cause, st] ∈ t.out ∧
    (t.tr n).failing = true ∧ s.out <+: t.out

theorem lnkIsr_apart (n : Nat) {g : Fld} (h : g.addr = 0x10048 + 0x1000 * n) : (PG_ISR (lnkPage n)).apart g = true :=
  Fld.apart_of_addr_ne (by rw [h]; simp only [PG_ISR, lnkPage]; omega)

theorem State.failNoted_cause (s : State) (n cause st : Nat) (h : cause < 256) : (s.failNoted n cause st).rd (LNK_FAIL_CAUSE n) = cause := by
  rw [State.failNoted, State.emit_rd, State.rd_raise_apart _ _ _ _ (lnkIsr_apart n rfl),
    State.rd_inc_apart _ _ _ _ (Fld.apart_of_addr_ne (by simp only [LNK_FAIL_CAUSE, LNK_TRAIN_CNT_FAIL]; omega)),
    State.rd_wr_apart _ _ _ _ rfl, State.rd_wr_apart _ _ _ _ rfl, State.rd_wr_fits _ _ _ rfl]
  exact Nat.mod_eq_of_lt h

theorem State.failNoted_state (s : State) (n cause st : Nat) (h : st < 16) : (s.failNoted n cause st).rd (LNK_FAIL_STATE n) = st := by
  rw [State.failNoted, State.emit_rd, State.rd_raise_apart _ _ _ _ (lnkIsr_apart n rfl),
    State.rd_inc_apart _ _ _ _ (Fld.apart_of_addr_ne (by simp only [LNK_FAIL_STATE, LNK_TRAIN_CNT_FAIL]; omega)),
    State.rd_wr_apart _ _ _ _ rfl, State.rd_wr_fits _ _ _ rfl]
  exact Nat.mod_eq_of_lt h

theorem State.failLeft_fail (s : State) (n cause : Nat) {g : Fld} (h : g.addr = 0x10048 + 0x1000 * n) :
    (s.failLeft n cause).rd g = s.rd g := by
  refine State.rd_of_word (s.failLeft_word n cause ?_ ?_ ?_ ?_) <;> rw [h]
  · omega
  · omega
  · simp only [PG_STATE_LIFE, lnkPage]; omega
  · simp only [PG_ISR, lnkPage]; omega

theorem State.trainFail_failed (s : State) (n : Nat) {cause st : Nat} (hcause : cause < 256) (hst : st < 16) :
    s.Failed (s.trainFail n cause st) n cause st := by
  have hnoted : Follows 2 s (s.failNoted n cause st) :=
    State.emit_follows (State.raise_follows rfl _ _ (State.inc_follows (State.wr_follows (State.wr_follows (State.wr_follows
      (Follows.refl 2 s) _ _) _ _) _ _) _ _)) _
  rw [State.trainFail_eq]
  refine ⟨?_, ?_, ?_, ?_, ?_⟩
  · rw [State.failLeft_fail _ _ _ rfl, State.failMarked, State.modTr_rd, State.failCounted_rd _ _ _ _ _ rfl rfl (lnkIsr_apart n rfl),
      State.failNoted_cause _ _ _ _ hcause]
  · rw [State.failLeft_fail _ _ _ rfl, State.failMarked, State.modTr_rd, State.failCounted_rd _ _ _ _ _ rfl rfl (lnkIsr_apart n rfl),
      State.failNoted_state _ _ _ _ hst]
  · refine (State.failLeft_out _ n cause).subset ?_
    rw [State.failMarked, State.modTr_out]
    refine (State.failCounted_follows _ n cause st _).out.subset ?_
    rw [State.failNoted, State.emit_out]
    exact List.mem_append_right _ List.mem_cons_self
  · rw [State.tr_of_ports (State.failLeft_ports _ n cause), State.failMarked, State.modTr_tr]
  · have hcounted := (State.failCounted_follows (s.failNoted n cause st) n cause st (s.rd (LNK_FAIL_CEILING n))).out
    have hleft := State.failLeft_out (((s.failNoted n cause st).failCounted n cause st (s.rd (LNK_FAIL_CEILING n))).failMarked n
      (!countedCause cause st || (decide ((s.failNoted n cause st).rd (LNK_FAIL_COUNT n) + 1 ≥ 3) && s.rd (LNK_FAIL_CEILING n) == 0))
      (countedCause cause st && decide ((s.failNoted n cause st).rd (LNK_FAIL_COUNT n) + 1 ≥ 3) && s.rd (LNK_FAIL_CEILING n) == 0)) n cause
    exact (hnoted.out.trans hcounted).trans hleft

/-- A port is in one state of training at a time. -/
theorem State.inT_other {s : State} {n a b : Nat} (h : s.inT n a = true) (hne : a ≠ b) : s.inT n b = false := by
  rw [State.inT, Bool.and_eq_true, Bool.and_eq_true, beq_iff_eq] at h
  obtain ⟨⟨-, ht⟩, -⟩ := h
  rw [State.inT, ht, beq_eq_false_iff_ne.2 hne, Bool.and_false, Bool.false_and]

/-- Settles O9: each training failure records its cause and its state and is announced. -/
theorem trainingFailureRecorded : Obligations.TrainingFailureRecorded := by
  unfold Obligations.TrainingFailureRecorded
  refine ⟨?_, ?_, ?_, ?_, ?_⟩
  case _ =>
    intro s n htr hpark hcyc
    refine ⟨_, congrArg Outcome.next (State.when_of s _ (by rw [htr, bne_iff_ne.2 hpark]; rfl)), ?_⟩
    dsimp only
    rw [if_neg (fun h => hcyc h.1)]
    exact s.trainFail_failed n (by decide) (s.rd_lt (LNK_STATUS_TSTATE n))
  case _ =>
    intro s n cause st htr hcause hst
    exact ⟨_, congrArg Outcome.next (State.when_of s _ htr), s.trainFail_failed n hcause hst⟩
  case _ =>
    intro s n rates ceil km strap hin hchosen hrates
    have hglint : s.inT n tGlint = false := State.inT_other hin (by decide)
    have hnone : commonRate (rates % 8) (min ceil ((s.wr (LNK_PEER_INFO_STRAP n) strap).ownCeiling n)) = none := by
      rw [hrates, commonRate]
      simp
    refine ⟨(s.wr (LNK_PEER_INFO_STRAP n) strap).trainFail n 2 tSpeed, ?_,
      (s.wr (LNK_PEER_INFO_STRAP n) strap).trainFail_failed n (by decide) (by decide)⟩
    refine congrArg Outcome.next ?_
    rw [if_neg (by rw [hglint]; exact Bool.false_ne_true), State.when_of _ _ (by rw [hin, hchosen]; rfl)]
    dsimp only
    rw [hnone]
  case _ =>
    intro s n sw inv skew hin h1040 hskew
    refine ⟨_, congrArg Outcome.next (State.when_of s _ hin), ?_⟩
    dsimp only
    rw [h1040, if_neg Bool.false_ne_true, if_pos hskew]
    exact s.trainFail_failed n (by decide) (by decide)
  case _ =>
    intro s n e0 e1 hin h1040 hfix h0 h1 hself heye
    have hbelow : eyeBelowMargin (s.rd (LNK_EQ_EYE0 n)) = true := decide_eq_true (by omega)
    refine ⟨_, congrArg Outcome.next (State.when_of s _ (by rw [hin, h0, h1, hself]; rfl)), ?_⟩
    dsimp only
    rw [State.when_of_not _ _ (by rw [h1040, hfix]; rfl), if_pos (by rw [hbelow]; rfl)]
    exact s.trainFail_failed n (by decide) (by decide)

end Sys2Proof.Machine
end

section
/-!
PROOFS. The DMA channels take their commands (R223, R226, R230, R231).
-/

namespace Sys2Proof.Machine

open Host (Outcome)

/-! ## What the work for a channel leaves alone -/

/-- The channel's count of cells and the channel served last are the same. -/
def CellsKept (c : Nat) (s t : State) : Prop := t.word (DMA_CH_CELLS c).addr = s.word (DMA_CH_CELLS c).addr ∧ t.dma.lastH = s.dma.lastH

namespace CellsKept
variable {c : Nat} {s t u : State}

theorem refl (c : Nat) (s : State) : CellsKept c s s := ⟨rfl, rfl⟩

theorem trans (h : CellsKept c s t) (k : CellsKept c t u) : CellsKept c s u := ⟨k.1.trans h.1, k.2.trans h.2⟩

theorem wr (h : CellsKept c s t) (f : Fld) (v : Nat) (hf : (DMA_CH_CELLS c).addr ≠ f.addr) : CellsKept c s (t.wr f v) :=
  h.trans ⟨State.word_wr_ne _ _ _ _ hf, by rw [State.wr_dma]⟩

theorem flag (h : CellsKept c s t) (f : Fld) (v : Bool) (hf : (DMA_CH_CELLS c).addr ≠ f.addr) : CellsKept c s (t.flag f v) :=
  h.wr f v.toNat hf

theorem inc (h : CellsKept c s t) (f : Fld) (n : Nat) (hf : (DMA_CH_CELLS c).addr ≠ f.addr) : CellsKept c s (t.inc f n) := h.wr f _ hf

theorem raise (h : CellsKept c s t) (p b : Nat) (hf : (DMA_CH_CELLS c).addr ≠ (PG_ISR p).addr) : CellsKept c s (t.raise p b) :=
  h.trans ⟨State.raise_word _ _ _ _ hf, by rw [State.raise_dma]⟩

theorem emit (h : CellsKept c s t) (o : Out) : CellsKept c s (t.emit o) := h.trans ⟨State.emit_word .., by rw [State.emit_dma]⟩

/-- The DMA's data may change but for the channel served last. -/
theorem modDma (h : CellsKept c s t) (f : DmaS → DmaS) (hf : (f t.dma).lastH = t.dma.lastH) : CellsKept c s (t.modDma f) :=
  h.trans ⟨State.modDma_word .., by rw [State.modDma_dma, hf]⟩

theorem modChan (h : CellsKept c s t) (k : Nat) (f : Chan → Chan) : CellsKept c s (t.modChan k f) := h.modDma _ rfl

theorem ite {p : Prop} [Decidable p] (ht : p → CellsKept c s t) (hu : ¬ p → CellsKept c s u) : CellsKept c s (if p then t else u) := by
  split
  · exact ht ‹_›
  · exact hu ‹_›

theorem when {f : State → State} (h : CellsKept c s t) (b : Bool) (hf : ∀ v, CellsKept c s v → CellsKept c s (f v)) :
    CellsKept c s (t.when b f) := by
  rw [State.when]
  exact ite (fun _ => hf t h) fun _ => h

theorem foldS {α : Type} {F : State → α → State} {l : List α} (h : CellsKept c s t)
    (hF : ∀ v, ∀ x ∈ l, CellsKept c s v → CellsKept c s (F v x)) : CellsKept c s (foldS l F t) :=
  foldS_induct h hF

end CellsKept

section Kept
variable {c : Nat} {s t : State}

theorem State.showChan_kept (h : CellsKept c s t) : CellsKept c s (t.showChan c) := by
  unfold State.showChan
  exact (h.wr _ _ (by simp only [DMA_CH_CELLS, DMA_CUR]; omega)).flag _ _ (by simp only [DMA_CH_CELLS, DMA_CH_STATE_WAIT]; omega)

theorem State.headPast_kept (h : CellsKept c s t) (d : Desc) (r : List (Desc × Nat × Nat)) : CellsKept c s (t.headPast c d r) :=
  (h.modChan _ _).wr _ _ (by simp only [DMA_CH_CELLS, DMA_HEAD]; omega)

theorem State.descIrq_kept (h : CellsKept c s t) : CellsKept c s (t.descIrq c) := by
  have hbit : CellsKept c s (t.eventBit DMA_DESC_IRQ c) :=
    h.trans ⟨State.eventBit_word _ _ _ _ (by simp only [DMA_CH_CELLS, DMA_DESC_IRQ]; omega),
      congrArg DmaS.lastH ((State.eventBit_follows (msk := 2) rfl DMA_DESC_IRQ c (Follows.refl 2 t)).parts .dma rfl)⟩
  unfold State.descIrq
  exact .ite (fun _ => hbit.emit _) fun _ => hbit.raise _ _ (by simp only [DMA_CH_CELLS, PG_ISR]; omega)

theorem State.halt_kept (h : CellsKept c s t) (cause : Nat) : CellsKept c s (t.halt c cause) := by
  unfold State.halt
  exact ((((h.flag _ _ (by simp only [DMA_CH_CELLS, DMA_CH_STATE_HALT]; omega)).wr _ _
    (by simp only [DMA_CH_CELLS, DMA_CH_STATE_CAUSE]; omega)).wr _ _ (by simp only [DMA_CH_CELLS, DMA_HALT_MAP]; omega)).raise _ _
    (by simp only [DMA_CH_CELLS, PG_ISR]; omega))

theorem State.showFf_kept (h : CellsKept c s t) : CellsKept c s t.showFf := by
  unfold State.showFf
  exact (h.wr _ _ (by simp only [DMA_CH_CELLS, ATU_FF_STAT_COUNT]; omega)).foldS fun v k hk hv =>
    hv.wr _ _ (by have := List.mem_range.1 hk; simp only [DMA_CH_CELLS, ATU_FF_REC]; omega)

theorem State.faultRecord_kept (h : CellsKept c s t) (r : List Byte) : CellsKept c s (t.faultRecord r) := by
  have hinc : CellsKept c s (t.inc ATU_FAULTS) := h.inc _ _ (by simp only [DMA_CH_CELLS, ATU_FAULTS]; omega)
  unfold State.faultRecord
  dsimp only
  refine .ite (fun _ => (hinc.emit _).wr _ _ (by simp only [DMA_CH_CELLS, ATU_FQ_TAIL_INDEX]; omega)) fun _ => .ite (fun _ => ?_) fun _ => ?_
  · exact State.showFf_kept (hinc.modDma _ rfl)
  · exact (hinc.wr _ _ (by simp only [DMA_CH_CELLS, ATU_FF_STAT_LOST]; omega)).raise _ _ (by simp only [DMA_CH_CELLS, PG_ISR]; omega)

theorem State.xlFault_kept (h : CellsKept c s t) (iova cause level : Nat) (write desc : Bool) (epoch : Nat) :
    CellsKept c s (t.xlFault c iova cause level write desc epoch) := by
  unfold State.xlFault
  exact .ite (fun _ => h.modChan _ _) fun _ =>
    (State.faultRecord_kept (State.halt_kept (h.modChan _ _) _) _).raise _ _ (by simp only [DMA_CH_CELLS, PG_ISR]; omega)

theorem State.startWalk_kept (h : CellsKept c s t) (iova : Nat) (write desc : Bool) : CellsKept c s (t.startWalk c iova write desc) := by
  unfold State.startWalk
  exact ((h.inc _ _ (by simp only [DMA_CH_CELLS, ATU_TLB_MISS]; omega)).modChan _ _).emit _

theorem State.xlate_kept (h : CellsKept c s t) (iova : Nat) (write desc : Bool) : CellsKept c s (t.xlate c iova write desc) := by
  unfold State.xlate
  refine .ite (fun _ => h) fun _ => .ite (fun _ => State.xlFault_kept h ..) fun _ => .ite (fun _ => State.xlFault_kept h ..) fun _ =>
    .ite (fun _ => h.modChan _ _) fun _ => ?_
  split
  · exact State.startWalk_kept h ..
  · have hhit := (h.inc ATU_TLB_HIT 1 (by simp only [DMA_CH_CELLS, ATU_TLB_HIT]; omega)).modDma
      (fun d => { d with tlb := d.tlb.erase ‹_› ++ [‹_›] }) rfl
    exact .ite (fun _ => hhit.modChan _ _) fun _ => State.xlFault_kept hhit ..

theorem State.wbFlush_kept (fuel : Nat) : ∀ {t : State}, CellsKept c s t → CellsKept c s (t.wbFlush c fuel) := by
  induction fuel with
  | zero => exact fun h => h
  | succ fuel ih =>
    intro t h
    rw [State.wbFlush]
    split
    · exact h
    · have hx := State.xlate_kept h (t.ringIova c (‹Desc›).idx) true true
      refine .ite (fun _ => ih (State.showChan_kept (State.headPast_kept h ..))) fun _ => ?_
      dsimp only
      split
      · exact hx
      · exact ih (State.showChan_kept ((State.headPast_kept (hx.emit _) ..).when _ fun _ hv => State.descIrq_kept hv))

theorem State.retire_kept (h : CellsKept c s t) (d : Desc) (flags ts : Nat) : CellsKept c s (t.retire c d flags ts) :=
  State.wbFlush_kept _ (h.modChan _ _)

theorem State.skipFrame_kept (h : CellsKept c s t) (code : Nat) : CellsKept c s (t.skipFrame c code) :=
  (h.modChan _ _).foldS fun _ _ _ hv => State.retire_kept hv ..

theorem State.prepH2t_kept (h : CellsKept c s t) : CellsKept c s (t.prepH2t c) := by
  unfold State.prepH2t
  split
  · exact h
  · exact h.foldS fun _ _ _ hv => State.xlate_kept hv ..

theorem State.applyFields_kept (h : CellsKept c s t) (hc : c < 32) (l : List Fld) : CellsKept c s (t.applyFields l) :=
  h.trans ⟨State.applyFields_word _ _ (by simp only [DMA_CH_CELLS]; omega),
    congrArg DmaS.lastH ((State.applyFields_follows (msk := 0) l (Follows.refl 0 t)).parts .dma rfl)⟩

theorem State.chSafe_kept (h : CellsKept c s t) (hc : c < 32) (k : Nat) : CellsKept c s (t.chSafe k) :=
  h.when _ fun _ hv => State.applyFields_kept hv hc _

theorem State.ingress_kept (h : CellsKept c s t) (hc : c < 32) (f : SvFrame) : CellsKept c s (t.ingress f) :=
  h.trans ⟨State.ingress_flow (w := false) t f _ (by
      simp only [FlowWord, DMA_CH_CELLS, PG_ISR, SIEVE_NO_CTX, SIEVE_COPY_LOST, Bool.false_eq_true, false_and, or_false]
      omega),
    congrArg DmaS.lastH ((State.ingress_follows (msk := 4938) rfl f (Follows.refl 4938 t)).parts .dma rfl)⟩

end Kept

/-! ## Writes of a channel's registers (R223, R230, R231, R233) -/

theorem chanChk_channel {s : State} {p : Path} {c : Nat} (hcrown : s.crown = true) (hring : s.isRing c = false) : chanChk p c s = 0 := by
  rw [chanChk, hcrown, hring]
  rfl

theorem resumeChk_halted {s : State} {c : Nat} (hcrown : s.crown = true) (hhalt : s.on (DMA_CH_STATE_HALT c) = true) : resumeChk c s = 0 := by
  rw [resumeChk, hcrown, hhalt]
  rfl

theorem resumeChk_running {s : State} {c : Nat} (hhalt : s.on (DMA_CH_STATE_HALT c) = false) : resumeChk c s = 3 := by
  rw [resumeChk, hhalt]
  split <;> rfl

/-- A channel that is ON and neither halted nor waits is STOPPING after EN = 0. -/
theorem State.chWriteEn_stopping {s : State} {c : Nat} (hon : s.rd (DMA_CH_STATE_LIFE c) = lifeOn) (hhalt : s.on (DMA_CH_STATE_HALT c) = false)
    (hwait : s.on (DMA_CH_STATE_WAIT c) = false) :
    (s.chWriteEn c false).rd (DMA_CH_STATE_LIFE c) = lifeStopping ∧ (s.chWriteEn c false).on (DMA_CH_CTRL_EN c) = false := by
  have hword {g : Fld} (hg : g.addr = 0x18104 + 0x40 * c) : (DMA_CH_CTRL_EN c).apart g = true :=
    Fld.apart_of_addr_ne (by rw [hg]; simp only [DMA_CH_CTRL_EN]; omega)
  have hback (g : Fld) (hg : g.addr = 0x18104 + 0x40 * c) : g.apart (DMA_CH_CTRL_EN c) = true :=
    Fld.apart_of_addr_ne (by rw [hg]; simp only [DMA_CH_CTRL_EN]; omega)
  have hlife : (s.flag (DMA_CH_CTRL_EN c) false).rd (DMA_CH_STATE_LIFE c) = lifeOn := by rw [State.rd_flag_apart _ _ _ _ (hword rfl), hon]
  have heq : s.chWriteEn c false = ((s.flag (DMA_CH_CTRL_EN c) false).flag (DMA_CH_STATE_EN_PENDING c) false).wr (DMA_CH_STATE_LIFE c) lifeStopping := by
    rw [State.chWriteEn]
    dsimp only
    rw [hlife, if_neg Bool.false_ne_true, if_neg (by decide), State.when_of_not]
    rw [State.on_wr_apart _ _ _ _ rfl, State.on_flag_apart _ _ _ _ rfl, State.on_flag_apart _ _ _ _ (hword rfl), hhalt, State.on_wr_apart _ _ _ _ rfl,
      State.on_flag_apart _ _ _ _ rfl, State.on_flag_apart _ _ _ _ (hword rfl), hwait]
    rfl
  rw [heq]
  refine ⟨State.rd_wr_fits _ _ _ rfl, ?_⟩
  rw [State.on_wr_apart _ _ _ _ (hback _ rfl), State.on_flag_apart _ _ _ _ (hback _ rfl), State.on_flag_one _ _ _ rfl]

/-- A RETRY with no failed access ends the halt alone. -/
theorem State.resumeRetry_idle {s : State} {c : Nat} (hnone : (s.chan c).failed = none) : (s.resumeRetry c).on (DMA_CH_STATE_HALT c) = false ∧
    (s.resumeRetry c).bit DMA_HALT_MAP c = false ∧ SameWords [(DMA_CH_STATE_HALT c).addr, DMA_HALT_MAP.addr] s (s.resumeRetry c) := by
  have hapart : DMA_HALT_MAP.apart (DMA_CH_STATE_HALT c) = true := Fld.apart_of_addr_ne (by simp only [DMA_CH_STATE_HALT, DMA_HALT_MAP]; omega)
  have heq : s.resumeRetry c = s.unhalt c := by
    rw [State.resumeRetry, hnone]
  rw [heq, State.unhalt]
  refine ⟨?_, ?_, ?_⟩
  · rw [State.modChan_on, State.setBit, State.on_wr_apart _ _ _ _ hapart, State.on_flag_one _ _ _ rfl]
  · rw [State.bit, State.modChan_rd]
    by_cases hc : c < 32
    · exact State.bit_setBit_self (s.flag (DMA_CH_STATE_HALT c) false) DMA_HALT_MAP c false hc rfl
    · exact Nat.testBit_lt_two_pow (Nat.lt_of_lt_of_le (State.rd_lt _ DMA_HALT_MAP) (Nat.pow_le_pow_right (by decide) (Nat.le_of_not_lt hc)))
  · exact (((SameWords.refl _ s).flag List.mem_cons_self _).setBit (List.mem_cons_of_mem _ List.mem_cons_self) _ _).of_word
      fun _ => State.modChan_word ..

/-! ## Reading a descriptor (R223) -/

theorem State.faultRecord_chan (s : State) (r : List Byte) (c : Nat) : (s.faultRecord r).chan c = s.chan c := by
  have hff (u : State) : u.showFf.chan c = u.chan c := by
    rw [State.showFf]
    exact foldS_induct (P := fun t => t.chan c = u.chan c) (by rw [State.wr_chan]) fun v k _ hv => by rw [State.wr_chan, hv]
  have hmod (u : State) (rs : List Byte) : (u.modDma (fun d => { d with ff := d.ff ++ [rs] })).chan c = u.chan c := rfl
  unfold State.faultRecord
  dsimp only
  split
  · rw [State.wr_chan, State.emit_chan, State.inc_chan]
  · split
    · rw [hff, hmod, State.inc_chan]
    · rw [State.raise_chan, State.incSat_chan, State.inc_chan]

theorem State.halt_chan (s : State) (k cause c : Nat) : (s.halt k cause).chan c = s.chan c := by
  rw [State.halt, State.raise_chan, State.setBit_chan, State.wr_chan, State.flag_chan]

theorem State.xlFault_descs (s : State) (c iova cause level : Nat) (write desc : Bool) (epoch : Nat) :
    ((s.xlFault c iova cause level write desc epoch).chan c).descs = (s.chan c).descs := by
  unfold State.xlFault
  dsimp only
  split
  · rw [State.modChan_chan]
  · rw [State.raise_chan, State.faultRecord_chan, State.halt_chan, State.modChan_chan]

theorem ite_descs {p : Prop} [Decidable p] {t u : State} {c : Nat} {l : List Desc} (ht : (t.chan c).descs = l) (hu : (u.chan c).descs = l) :
    ((if p then t else u).chan c).descs = l := by
  split
  · exact ht
  · exact hu

theorem State.xlate_descs (s : State) (c iova : Nat) (write desc : Bool) : ((s.xlate c iova write desc).chan c).descs = (s.chan c).descs := by
  have hkeep (u : State) (x : Xl) : ((u.keepXl c x).chan c).descs = (u.chan c).descs := by rw [State.keepXl, State.modChan_chan]
  have htouch (u : State) (e : TlbE) : (u.tlbTouch e).chan c = u.chan c := rfl
  unfold State.xlate
  dsimp only
  split
  · rfl
  · split
    · exact State.xlFault_descs ..
    · split
      · exact State.xlFault_descs ..
      · split
        · exact hkeep ..
        · split
          · rw [State.startWalk, State.emit_chan, State.modChan_chan, State.inc_chan]
          · refine ite_descs ?_ ?_
            · rw [hkeep, htouch, State.inc_chan]
            · rw [State.xlFault_descs, htouch, State.inc_chan]

/-- A translation at hand is not fetched again. -/
theorem State.xlate_atHand {s : State} {c iova : Nat} {write : Bool} {x : Xl} (h : s.theXl c iova write = some x) (desc : Bool) :
    s.xlate c iova write desc = s := by
  rw [State.xlate, State.hasXl, h]
  exact if_pos rfl

/-- The descriptor that 32 bytes hold. -/
def descOf (idx : Nat) (d : List Byte) : Desc :=
  let ctl := leNat ((d.drop 12).take 4)
  { idx := idx, buf := leNat (d.take 8), len := leNat ((d.drop 8).take 4) % 2 ^ 17, sof := ctl.testBit 0, eof := ctl.testBit 1,
    irq := ctl.testBit 2, stamp := ctl.testBit 3 }

/-- A descriptor that has been read is held, and its page is translated. -/
def State.descHeld (s : State) (c : Nat) (a : Nat) (tr : Xl) (x : Desc) : State :=
  let s := (s.emit (.hostRead (tr.bus + a % 4096) 32 tr.ns)).modChan c (fun t => { t with descs := t.descs ++ [x], xl := [] })
  ((if s.chT2h c then s.prepT2hPage c else s.prepH2t c)).showChan c

theorem State.chSafe_inFrame {s : State} {c : Nat} (h : (s.chan c).inFrame = true) : s.chSafe c = s := by
  rw [State.chSafe, State.when_of_not _ _ (by rw [h]; rfl)]

theorem State.descriptorFetch_exec {s : State} {c : Nat} {d : List Byte} {x : Xl} (hc : c < 32) (hcrown : s.crown = true)
    (hon24 : s.isOn 24 = true) (hon : s.chOn c = true) (hhalt : s.on (DMA_CH_STATE_HALT c) = false) (hlen : d.length = 32)
    (hframe : (s.chan c).inFrame = true) (hfull : (s.chan c).full = []) (hdescs : (s.chan c).descs = []) (hwb : (s.chan c).wb = [])
    (ht2h : s.chT2h c = true) (hskip : (s.chan c).skip = none) (hsize : s.rd (DMA_HEAD c) < s.chSize c)
    (hne : s.rd (DMA_HEAD c) ≠ s.rd (DMA_TAIL c)) (hx : s.theXl c (s.ringIova c (s.rd (DMA_HEAD c))) false = some x) :
    exec (.descriptorFetch c d) s =
      .next (s.descHeld c (s.ringIova c (s.rd (DMA_HEAD c))) x (descOf (s.rd (DMA_HEAD c)) d)) := by
  have hleft : decide ((s.chan c).left < 128) = true := by
    rw [Chan.left, hdescs]
    rfl
  have hnext : (s.rd (DMA_HEAD c) + 0 + 0 + 0) % s.chSize c = s.rd (DMA_HEAD c) := Nat.mod_eq_of_lt hsize
  refine congrArg Outcome.next ((State.when_of s _ ?_).trans ?_)
  · rw [decide_eq_true hc, hcrown, hon24, hon, hhalt, hlen]
    rfl
  · dsimp only
    rw [State.chSafe_inFrame hframe, hwb, ht2h, hleft, hfull, hdescs]
    simp only [List.length_nil, List.isEmpty_nil, Bool.and_self, Bool.not_true, Bool.false_eq_true, if_false, if_true, hnext, hne, State.xlate_atHand hx, hx,
      State.emit_chan, hskip]
    rfl

theorem State.showChan_chan (s : State) (k c : Nat) : (s.showChan k).chan c = s.chan c := by
  rw [State.showChan, State.flag_chan, State.wr_chan]

theorem State.prepT2hPage_descs (s : State) (c : Nat) : ((s.prepT2hPage c).chan c).descs = (s.chan c).descs := by
  unfold State.prepT2hPage
  split
  · exact State.xlate_descs ..
  · rfl

theorem State.prepH2t_descs (s : State) (c : Nat) : ((s.prepH2t c).chan c).descs = (s.chan c).descs := by
  unfold State.prepH2t
  split
  · rfl
  · exact foldS_induct (P := fun t => (t.chan c).descs = (s.chan c).descs) rfl fun v a _ hv => (State.xlate_descs v c a false false).trans hv

/-- The descriptor is held behind those before it, and it was read. -/
theorem State.descHeld_effect (s : State) (c a : Nat) (tr : Xl) (x : Desc) : ((s.descHeld c a tr x).chan c).descs = (s.chan c).descs ++ [x] ∧
    Out.hostRead (tr.bus + a % 4096) 32 tr.ns ∈ (s.descHeld c a tr x).out := by
  have hread : Out.hostRead (tr.bus + a % 4096) 32 tr.ns ∈ ((s.emit (.hostRead (tr.bus + a % 4096) 32 tr.ns)).modChan c
      (fun t => { t with descs := t.descs ++ [x], xl := [] })).out := by
    rw [State.modChan_out, State.emit_out]
    exact List.mem_append_right _ List.mem_cons_self
  have hheld : (((s.emit (.hostRead (tr.bus + a % 4096) 32 tr.ns)).modChan c
      (fun t => { t with descs := t.descs ++ [x], xl := [] })).chan c).descs = (s.chan c).descs ++ [x] := by
    rw [State.modChan_chan, State.emit_chan]
  unfold State.descHeld
  dsimp only
  generalize (s.emit (.hostRead (tr.bus + a % 4096) 32 tr.ns)).modChan c (fun t => { t with descs := t.descs ++ [x], xl := [] }) = u at hread hheld ⊢
  rw [State.showChan_chan]
  refine ⟨ite_descs ((State.prepT2hPage_descs ..).trans hheld) ((State.prepH2t_descs ..).trans hheld), ?_⟩
  have hprep : Follows 2050 u (if u.chT2h c then u.prepT2hPage c else u.prepH2t c) :=
    Follows.ite (State.prepT2hPage_follows rfl c (Follows.refl 2050 u)) (State.prepH2t_follows rfl c (Follows.refl 2050 u))
  exact (State.showChan_follows c hprep).out.subset hread

/-! ## A cell boundary (R226) -/

/-- The fields of the channels between frames are in force and the write-backs are made. -/
def State.boundaryBegun (s : State) : State :=
  foldS (List.range 32) (fun s c => (s.chSafe c).when (!(s.chan c).wb.isEmpty) (·.wbFlush c (s.chan c).wb.length)) s

/-- The candidates' pages are translated. -/
def State.boundaryPages (s : State) (t2h : Bool) (cands : List Nat) : State :=
  foldS cands (fun s c => match s.nextPieces c t2h with
    | some ps => s.xlateAll c t2h false (ps.flatMap (fun (e : Nat × Nat) => pagesOf e.1 e.2))
    | none => s) s

/-- The channels that another one goes before show it. -/
def State.boundaryShown (s : State) (t2h : Bool) (served : Option Nat) : State :=
  foldS ((List.range 32).filter (fun c => s.chT2h c == t2h)) (fun s x =>
    s.flag (DMA_CH_STATE_PREEMPTED x) (served.any (· != x) && s.candidate x t2h)) s

/-- The channel that is served commits its cell. -/
def State.boundaryServed (s : State) (t2h : Bool) (bytes : List Byte) (served : Option Nat) : State :=
  match served with
  | none => s
  | some c =>
    let s := s.modDma (fun d => if t2h then { d with lastT := c } else { d with lastH := c })
    if t2h then match s.t2hHead c with
      | some (q, _) => (s.commitT2h c q).prepT2h c
      | none => s
    else s.commitH2t c bytes

theorem State.dmaCellBoundary_exec {s u : State} {t2h : Bool} {bytes : List Byte} {cands : List Nat} (hcrown : s.crown = true)
    (hon : s.isOn 24 = true) (hwedge : s.on (PG_STATE_WEDGED 24) = false) (hforeign : s.when t2h (·.dropForeign) = s)
    (hstops : s.chStops t2h = s) (hbegun : s.boundaryBegun = u) (hcands : (List.range 32).filter (fun c => u.candidate c t2h) = cands)
    (hpages : u.boundaryPages t2h cands = u) : exec (.dmaCellBoundary t2h bytes) s =
      .next ((u.boundaryShown t2h (u.pick t2h (cands.filter (fun c => u.candidate c t2h && u.cellReady c t2h)))).boundaryServed t2h bytes
        (u.pick t2h (cands.filter (fun c => u.candidate c t2h && u.cellReady c t2h)))) := by
  have hb : foldS (List.range 32) (fun s c => (s.chSafe c).when (!(s.chan c).wb.isEmpty) (·.wbFlush c (s.chan c).wb.length)) s = u := hbegun
  refine congrArg Outcome.next ?_
  rw [hcrown, Bool.true_and, hforeign, State.when_of _ _ (by rw [Bool.true_and, hon, hwedge]; rfl)]
  dsimp only
  rw [hstops, hb, hcands]
  have hp : foldS cands (fun s c => match s.nextPieces c t2h with
    | some ps => s.xlateAll c t2h false (ps.flatMap (fun (e : Nat × Nat) => pagesOf e.1 e.2))
    | none => s) u = u := hpages
  generalize hv : foldS cands _ u = v
  have hvu : v = u := hv.symm.trans hp
  rw [hvu]
  generalize u.pick t2h (cands.filter (fun c => u.candidate c t2h && u.cellReady c t2h)) = served
  rfl

theorem State.chStops_none {s : State} {t2h : Bool} (h : ∀ x : Nat, x < 32 → s.rd (DMA_CH_STATE_LIFE x) ≠ lifeStopping) : s.chStops t2h = s := by
  have hnone : (List.range 32).filter (fun c => s.rd (DMA_CH_STATE_LIFE c) == lifeStopping && s.chT2h c == t2h) = [] :=
    List.filter_eq_nil_iff.2 fun x hx => by
      rw [beq_eq_false_iff_ne.2 (h x (List.mem_range.1 hx))]
      exact Bool.false_ne_true
  rw [State.chStops, hnone]
  rfl

theorem State.pick_nil (s : State) (t2h : Bool) : s.pick t2h [] = none := by
  rw [State.pick]
  rfl

theorem State.pick_one (s : State) (t2h : Bool) (c : Nat) : s.pick t2h [c] = some c := by
  have hall : ([c].filter (fun x => s.rd (DMA_CH_CTRL_TC x).inForce ==
      [c].foldl (fun a x => max a (s.rd (DMA_CH_CTRL_TC x).inForce)) 0)) = [c] := by simp
  rw [State.pick, hall]
  cases h : decide (c > if t2h then s.dma.lastT else s.dma.lastH) <;> simp_all

theorem State.chSafe_word (s : State) (x : Nat) {a : Nat} (h : a < 0x118100 + 0x40 * x ∨ 0x118114 + 0x40 * x ≤ a) : (s.chSafe x).word a = s.word a := by
  refine State.when_word _ _ _ _ ?_
  rw [State.applyFields, chRwpOn]
  simp only [foldS, List.foldl_cons, List.foldl_nil]
  rw [State.word_wr_ne _ _ _ _ (by simp only [Fld.inForce, DMA_RING_SIZE_LOG2]; omega),
    State.word_wr_ne _ _ _ _ (by simp only [Fld.inForce, DMA_RING_HI_ADDR]; omega),
    State.word_wr_ne _ _ _ _ (by simp only [Fld.inForce, DMA_RING_LO_ADDR]; omega),
    State.word_wr_ne _ _ _ _ (by simp only [Fld.inForce, DMA_CH_CTRL_TC]; omega),
    State.word_wr_ne _ _ _ _ (by simp only [Fld.inForce, DMA_CH_CTRL_ASID]; omega)]

/-- The safe points of the channels between frames change nothing but fields in force. -/
theorem State.boundaryBegun_quiet {s : State} (hwb : ∀ x : Nat, x < 32 → (s.chan x).wb = []) :
    Follows 0 s s.boundaryBegun ∧ s.boundaryBegun.out = s.out ∧ (∀ a, a < 0x100000 → s.boundaryBegun.word a = s.word a) ∧
      ∀ c, c < 32 → (!(s.chan c).inFrame && (s.chan c).descs.isEmpty) = false → ∀ a, 0x118100 + 0x40 * c ≤ a → a < 0x118140 + 0x40 * c →
        s.boundaryBegun.word a = s.word a := by
  have hstep (t : State) (x : Nat) (hx : x < 32) (ht : Follows 0 s t) :
      (t.chSafe x).when (!(t.chan x).wb.isEmpty) (·.wbFlush x (t.chan x).wb.length) = t.chSafe x := by
    have hchan : t.chan x = s.chan x := by rw [State.chan, ht.parts .dma rfl, State.chan]
    rw [State.when_of_not _ _ (by rw [hchan, hwb x hx]; rfl)]
  have hsafe (t : State) (x : Nat) (ht : Follows 0 s t) : Follows 0 s (t.chSafe x) :=
    State.when_follows ht _ fun _ hv => State.applyFields_follows _ hv
  have hout (t : State) (x : Nat) : (t.chSafe x).out = t.out :=
    State.when_keeps (·.out) (f := (·.applyFields (chRwpOn x)))
      (foldS_induct (P := fun v => v.out = t.out) rfl fun v f _ hv => by rw [State.wr_out, hv])
  rw [State.boundaryBegun]
  refine foldS_induct (P := fun t => Follows 0 s t ∧ t.out = s.out ∧ (∀ a, a < 0x100000 → t.word a = s.word a) ∧
    ∀ c, c < 32 → (!(s.chan c).inFrame && (s.chan c).descs.isEmpty) = false → ∀ a, 0x118100 + 0x40 * c ≤ a → a < 0x118140 + 0x40 * c →
      t.word a = s.word a) ⟨Follows.refl 0 s, rfl, fun _ _ => rfl, fun _ _ _ _ _ _ => rfl⟩ ?_
  rintro t x hx ⟨hf, ho, hlow, hown⟩
  rw [hstep t x (List.mem_range.1 hx) hf]
  refine ⟨hsafe t x hf, (hout t x).trans ho, fun a ha => (t.chSafe_word x (by omega)).trans (hlow a ha), fun c hc hbusy a h1 h2 => ?_⟩
  refine Eq.trans ?_ (hown c hc hbusy a h1 h2)
  by_cases hxc : x = c
  · have hchan : t.chan c = s.chan c := by rw [State.chan, hf.parts .dma rfl, State.chan]
    rw [hxc, State.chSafe, State.when_of_not _ _ (by rw [hchan, hbusy])]
  · exact t.chSafe_word x (by omega)

theorem State.boundaryShown_quiet (s : State) (t2h : Bool) (served : Option Nat) : Follows 0 s (s.boundaryShown t2h served) ∧
    (s.boundaryShown t2h served).out = s.out ∧ ∀ c, CellsKept c s (s.boundaryShown t2h served) :=
  ⟨foldS_follows _ _ (fun _ _ h => State.flag_follows h _ _) (Follows.refl 0 s),
    foldS_induct (P := fun t => t.out = s.out) rfl fun v x _ hv => by rw [State.flag_out, hv],
    fun c => (CellsKept.refl c s).foldS fun v x _ hv => hv.flag _ _ (by simp only [DMA_CH_CELLS, DMA_CH_STATE_PREEMPTED]; omega)⟩

theorem State.dropForeign_empty {s : State} (h : s.gird.queues = []) : s.dropForeign = s := by
  have hq (q : Nat) : s.queue q = [] := by
    rw [State.queue, h]
    rfl
  rw [State.dropForeign]
  exact foldS_induct (P := fun t => t = s) rfl fun t tc _ ht => by rw [ht, hq]

/-- A channel that is OFF is not served. -/
theorem State.candidate_off {s : State} {c : Nat} (h : s.rd (DMA_CH_STATE_LIFE c) = lifeOff) (t2h : Bool) : s.candidate c t2h = false := by
  rw [State.candidate, State.chOn, h]
  rfl

/-! ## The H2T engine commits a cell (R226) -/

/-- The bytes of a cell are read, and its count goes up. -/
def State.h2tRead (s : State) (c : Nat) (bytes : List Byte) : State :=
  let n := (s.chan c).h2tNext.getD 0
  let b := (bytes ++ List.replicate n 0).take n
  let ps := pieces n (s.chan c).descs
  let s := foldS ps (fun s (e : Nat × Nat) => foldS (pagesOf e.1 e.2) (fun s a =>
    s.emit (.hostRead ((s.hasXl c a false).getD 0) (min (e.1 + e.2) ((a / 4096 + 1) * 4096) - a) ((s.theXl c a false).any (·.ns)))) s) s
  s.modChan c (fun t => { t with descs := advance n t.descs, data := t.data ++ b, xl := [], inFrame := true })

/-- What follows the count: a frame too long is skipped, a whole one enters, else the next cell's pages are translated. -/
def State.h2tGoesOn (s : State) (c : Nat) : State :=
  let ch := s.chan c
  if ch.data.length > 16384 then (s.skipFrame c 1).showChan c
  else if ch.left = 0 && ch.descs.getLast?.any (·.eof) then
    let s := s.ingress { point := 3, sub := s.chSub c, ns := s.now, stamp := s.now64, data := ch.data }
    let s := s.modChan c (fun t => { t with descs := [], data := [], inFrame := false })
    let ds := ch.descs
    let ts := s.now64
    let s := foldS ds (fun s d => s.retire c d (doneFlags true false 0) ts) s
    ((s.inc (DMA_CH_FRAMES c)).showChan c).chSafe c
  else (s.prepH2t c).showChan c

theorem State.commitH2t_eq (s : State) (c : Nat) (bytes : List Byte) :
    s.commitH2t c bytes = ((s.h2tRead c bytes).inc (DMA_CH_CELLS c)).h2tGoesOn c := rfl

theorem State.h2tRead_kept (s : State) (c : Nat) (bytes : List Byte) : CellsKept c s (s.h2tRead c bytes) :=
  ((CellsKept.refl c s).foldS fun _ _ _ hv => hv.foldS fun _ _ _ hw => hw.emit _).modChan _ _

theorem State.h2tGoesOn_kept {c : Nat} (hc : c < 32) (s : State) : CellsKept c s (s.h2tGoesOn c) := by
  have r := CellsKept.refl c s
  unfold State.h2tGoesOn
  dsimp only
  refine .ite (fun _ => State.showChan_kept (State.skipFrame_kept r 1)) fun _ =>
    .ite (fun _ => State.chSafe_kept (State.showChan_kept (.inc (.foldS ((State.ingress_kept r hc _).modChan _ _)
      fun _ _ _ hv => State.retire_kept hv ..) _ _ ?_)) hc c) fun _ => State.showChan_kept (State.prepH2t_kept r)
  simp only [DMA_CH_CELLS, DMA_CH_FRAMES]
  omega

theorem State.commitH2t_cells {s : State} {c : Nat} (hc : c < 32) (bytes : List Byte) :
    (s.commitH2t c bytes).rd (DMA_CH_CELLS c) = (s.rd (DMA_CH_CELLS c) + 1) % 2 ^ 32 ∧ (s.commitH2t c bytes).dma.lastH = s.dma.lastH := by
  obtain ⟨hread, hlast⟩ := s.h2tRead_kept c bytes
  obtain ⟨hword, hsame⟩ := State.h2tGoesOn_kept hc ((s.h2tRead c bytes).inc (DMA_CH_CELLS c))
  rw [State.commitH2t_eq, State.rd_of_word hword, State.rd_inc_fits _ _ _ rfl, State.rd_of_word hread, hsame, State.inc_dma, hlast]
  exact ⟨rfl, rfl⟩

/-! ## The obligation -/

theorem State.rd_lifeOn {s : State} {c : Nat} (h : s.chOn c = true) : s.rd (DMA_CH_STATE_LIFE c) = lifeOn := beq_iff_eq.1 h

theorem filter_range_one {p : Nat → Bool} {c n : Nat} (hc : c < n) (h : ∀ x, x < n → p x = (x == c)) : (List.range n).filter p = [c] := by
  rw [List.filter_congr fun x hx => h x (List.mem_range.1 hx), List.filter_beq,
    List.count_eq_one_of_mem List.nodup_range (List.mem_range.2 hc)]
  rfl

theorem State.nextPieces_h2t (s : State) (c : Nat) :
    s.nextPieces c false = (s.chan c).h2tNext.map (fun n => pieces n (s.chan c).descs) := rfl

/-- A channel whose cell is ready has all the pages that it needs. -/
theorem State.boundaryPages_ready {s : State} {c : Nat} (h : s.cellReady c false = true) : s.boundaryPages false [c] = s := by
  rw [State.boundaryPages, foldS, List.foldl_cons, List.foldl_nil]
  rw [State.cellReady] at h
  cases hps : s.nextPieces c false with
  | none => rfl
  | some ps =>
    rw [hps] at h
    dsimp only at h ⊢
    obtain ⟨hall, -⟩ := Bool.and_eq_true_iff.1 h
    refine foldS_induct (P := fun t => t = s) rfl fun t a ha ht => ?_
    obtain ⟨e, he, hae⟩ := List.mem_flatMap.1 ha
    have hsome := List.all_eq_true.1 (List.all_eq_true.1 hall e he) a hae
    rw [State.hasXl, Option.isSome_map] at hsome
    obtain ⟨x, hx⟩ := Option.isSome_iff_exists.1 hsome
    rw [ht, State.xlate_atHand hx]

theorem State.boundaryServed_h2t (s : State) (bytes : List Byte) (c : Nat) :
    s.boundaryServed false bytes (some c) = (s.modDma (fun d => { d with lastH := c })).commitH2t c bytes := rfl

/-- At a boundary where one H2T channel is ON and its cell is ready, that channel commits its cell. -/
theorem State.dmaCellBoundary_one {s : State} {c n : Nat} {b : List Byte} (hc : c < 32) (hcrown : s.crown = true) (hon24 : s.isOn 24 = true)
    (hwedge : s.on (PG_STATE_WEDGED 24) = false) (hon : s.chOn c = true) (ht2h : s.chT2h c = false)
    (hhalt : s.on (DMA_CH_STATE_HALT c) = false) (hoff : ∀ x : Nat, x < 32 → x ≠ c → s.rd (DMA_CH_STATE_LIFE x) = lifeOff)
    (hwb : ∀ x : Nat, x < 32 → (s.chan x).wb = []) (hnext : (s.chan c).h2tNext = some n) (hready : s.cellReady c false = true) :
    exec (.dmaCellBoundary false b) s = .next (((s.boundaryBegun.boundaryShown false (some c)).modDma (fun d => { d with lastH := c })).commitH2t c b) := by
  obtain ⟨hq, hout, hlow, hown⟩ := State.boundaryBegun_quiet hwb
  have hdescs : (s.chan c).descs.isEmpty = false := by
    cases hd : (s.chan c).descs with
    | nil => rw [Chan.h2tNext, Chan.left, hd] at hnext; cases hnext
    | cons d r => rfl
  have hbusy : (!(s.chan c).inFrame && (s.chan c).descs.isEmpty) = false := by rw [hdescs, Bool.and_false]
  have hlife (x : Nat) (hx : x < 32) : s.boundaryBegun.rd (DMA_CH_STATE_LIFE x) = s.rd (DMA_CH_STATE_LIFE x) :=
    State.rd_of_word (hlow _ (by simp only [DMA_CH_STATE_LIFE]; omega))
  have hchan (x : Nat) : s.boundaryBegun.chan x = s.chan x := by rw [State.chan, hq.parts .dma rfl, State.chan]
  have hring : s.boundaryBegun.isRing c = s.isRing c := by rw [State.isRing, State.on_of_word (hlow _ (by decide)), State.isRing]
  have hdir : s.boundaryBegun.chT2h c = s.chT2h c := by
    rw [State.chT2h, hring, State.rd_of_word (hown c hc hbusy _ (by simp only [Fld.inForce, DMA_CH_CTRL_DIR]; omega)
      (by simp only [Fld.inForce, DMA_CH_CTRL_DIR]; omega)), State.chT2h]
  have hcand : s.boundaryBegun.candidate c false = true := by
    rw [State.candidate, State.chOn, hlife c hc, State.rd_lifeOn hon, hdir, ht2h, State.on_of_word (hlow _ (by simp only [DMA_CH_STATE_HALT]; omega)), hhalt,
      hchan, hwb c hc, hdescs]
    rfl
  have hcands : (List.range 32).filter (fun x => s.boundaryBegun.candidate x false) = [c] :=
    filter_range_one hc fun x hx => by
      by_cases hxc : x = c
      · rw [hxc, hcand, beq_self_eq_true]
      · rw [State.candidate_off ((hlife x hx).trans (hoff x hx hxc)), beq_eq_false_iff_ne.2 hxc]
  have hrdy : s.boundaryBegun.cellReady c false = true := by
    have hxl (a : Nat) : s.boundaryBegun.hasXl c a false = s.hasXl c a false := by
      have hok (x : Xl) : s.boundaryBegun.xlOk c x = s.xlOk c x := by
        have hasid : s.boundaryBegun.rd (DMA_CH_CTRL_ASID c).inForce = s.rd (DMA_CH_CTRL_ASID c).inForce :=
          State.rd_of_word (hown c hc hbusy _ (by simp only [Fld.inForce, DMA_CH_CTRL_ASID]; omega)
            (by simp only [Fld.inForce, DMA_CH_CTRL_ASID]; omega))
        have hlt : s.rd (DMA_CH_CTRL_ASID c).inForce < 2 ^ 5 := s.rd_lt _
        rw [State.xlOk, hasid, State.rd_of_word (hlow _ (by simp only [ATU_ROOT_LO_MODE]; omega)), State.xlOk]
      rw [State.hasXl, State.theXl, hchan, State.hasXl, State.theXl]
      simp only [hok]
    have hfac : s.boundaryBegun.fac = s.fac := hq.parts .fac rfl
    rw [State.cellReady, State.nextPieces_h2t] at hready
    rw [State.cellReady, State.nextPieces_h2t, hchan, hfac, State.chSub, hring]
    simp only [hxl]
    exact hready
  have hpages : s.boundaryBegun.boundaryPages false [c] = s.boundaryBegun := State.boundaryPages_ready hrdy
  rw [State.dmaCellBoundary_exec hcrown hon24 hwedge (State.when_of_not _ _ rfl) (State.chStops_none fun x hx => ?_) rfl hcands hpages]
  · rw [List.filter_cons_of_pos (by rw [hcand, hrdy]; rfl), List.filter_nil, State.pick_one, State.boundaryServed_h2t]
  · by_cases hxc : x = c
    · rw [hxc, State.rd_lifeOn hon]
      decide
    · rw [hoff x hx hxc]
      decide

theorem State.boundaryPages_nil (s : State) (t2h : Bool) : s.boundaryPages t2h [] = s := rfl

theorem State.boundaryServed_none (s : State) (t2h : Bool) (bytes : List Byte) : s.boundaryServed t2h bytes none = s := rfl

/-- At a boundary where every channel is OFF and no frame is queued no channel is served. -/
theorem State.dmaCellBoundary_idle {s : State} {t2h : Bool} {b : List Byte} (hcrown : s.crown = true) (hon24 : s.isOn 24 = true)
    (hwedge : s.on (PG_STATE_WEDGED 24) = false) (hoff : ∀ x : Nat, x < 32 → s.rd (DMA_CH_STATE_LIFE x) = lifeOff)
    (hwb : ∀ x : Nat, x < 32 → (s.chan x).wb = []) (hqueues : s.gird.queues = []) :
    exec (.dmaCellBoundary t2h b) s = .next (s.boundaryBegun.boundaryShown t2h none) := by
  obtain ⟨-, -, hlow, -⟩ := State.boundaryBegun_quiet hwb
  have hcands : (List.range 32).filter (fun x => s.boundaryBegun.candidate x t2h) = [] :=
    List.filter_eq_nil_iff.2 fun x hx => by
      have hlt := List.mem_range.1 hx
      have hlife := State.rd_of_word (f := DMA_CH_STATE_LIFE x) (hlow _ (by simp only [DMA_CH_STATE_LIFE]; omega))
      rw [State.candidate_off (hlife.trans (hoff x hlt))]
      exact Bool.false_ne_true
  have hstops : s.chStops t2h = s := State.chStops_none fun x hx => by
    rw [hoff x hx]
    decide
  have hforeign : s.when t2h (·.dropForeign) = s := by rw [State.when, State.dropForeign_empty hqueues, ite_self]
  rw [State.dmaCellBoundary_exec hcrown hon24 hwedge hforeign hstops rfl hcands (State.boundaryPages_nil ..), List.filter_nil, State.pick_nil,
    State.boundaryServed_none]

/-- Settles O27: the DMA channels take their commands. -/
theorem dmaChannelCommands : Obligations.DmaChannelCommands := by
  unfold Obligations.DmaChannelCommands
  refine ⟨?_, ?_, ?_, ?_, ?_, ?_, ?_, ?_, ?_, ?_, ?_, ?_, ?_⟩
  case _ =>
    intro s p c v hc hr hcrown hring hv
    refine congrArg Outcome.next ((State.when_of s _ (decide_eq_true hc)).trans (State.writeOwn_accepted hr ?_))
    dsimp only
    rw [if_neg Bool.false_ne_true, chanChk_channel hcrown hring, if_neg (by decide), if_neg (Nat.not_le.2 hv)]
  case _ =>
    intro s p c v hc hr hcrown hring hv
    have hchk : (if (if false = true then !(s.crown && s.isRing c && p == .pcie) else chanChk p c s != 0) = true then 3
        else if v % 65536 ≥ s.chSize c then 1 else 0) = 1 := by
      rw [if_neg Bool.false_ne_true, chanChk_channel hcrown hring, if_neg (by decide), if_pos hv]
    refine congrArg Outcome.next ((State.when_of s _ (decide_eq_true hc)).trans ((State.writeOwn_rejected hr ?_).trans ?_))
    · exact ne_of_eq_of_ne hchk (by decide)
    · exact congrArg (s.reject p (DMA_TAIL c).addr · v) hchk
  case _ =>
    intro s p c hc hr hcrown hring
    exact congrArg Outcome.next ((State.when_of s _ (decide_eq_true hc)).trans (State.writeOwn_accepted hr (chanChk_channel hcrown hring)))
  case _ =>
    intro s p c hc hr hcrown hhalt
    exact congrArg Outcome.next ((State.when_of s _ (decide_eq_true hc)).trans (State.writeOwn_accepted hr (resumeChk_halted hcrown hhalt)))
  case _ =>
    intro s p c hc hr hcrown hhalt
    exact congrArg Outcome.next ((State.when_of s _ (decide_eq_true hc)).trans (State.writeOwn_accepted hr (resumeChk_halted hcrown hhalt)))
  case _ =>
    intro s p c hc hr hcrown hhalt
    exact congrArg Outcome.next ((State.when_of s _ (decide_eq_true hc)).trans (State.writeOwn_accepted hr (resumeChk_halted hcrown hhalt)))
  case _ =>
    intro s p c hc hr hhalt
    have hchk : resumeChk c s = 3 := resumeChk_running hhalt
    refine congrArg Outcome.next ((State.when_of s _ (decide_eq_true hc)).trans ((State.writeOwn_rejected hr ?_).trans ?_))
    · rw [hchk]
      decide
    · rw [hchk, Nat.zero_mul, Nat.zero_add]
  case _ =>
    intro s c d x hc hcrown hon24 hon hhalt hlen hframe hfull hdescs hwb ht2h hskip hsize hne hx
    obtain ⟨hheld, hread⟩ := s.descHeld_effect c (s.ringIova c (s.rd (DMA_HEAD c))) x (descOf (s.rd (DMA_HEAD c)) d)
    refine ⟨_, State.descriptorFetch_exec hc hcrown hon24 hon hhalt hlen hframe hfull hdescs hwb ht2h hskip hsize hne hx, ?_, ?_, hread⟩
    · rw [hheld, hdescs]
      rfl
    · rw [hheld, hdescs]
      rfl
  case _ =>
    intro s c b n hc hcrown hon24 hwedge hon ht2h hhalt hoff hwb hnext hready
    obtain ⟨hq, -, hlow, -⟩ := State.boundaryBegun_quiet hwb
    obtain ⟨-, -, hshown⟩ := s.boundaryBegun.boundaryShown_quiet false (some c)
    obtain ⟨hcells, hlast⟩ := State.commitH2t_cells (s := (s.boundaryBegun.boundaryShown false (some c)).modDma (fun d => { d with lastH := c })) hc b
    refine ⟨_, State.dmaCellBoundary_one hc hcrown hon24 hwedge hon ht2h hhalt hoff hwb hnext hready, ?_, ?_⟩
    · rw [hcells, State.rd_of_word (State.modDma_word ..), State.rd_of_word (hshown c).1,
        State.rd_of_word (hlow _ (by simp only [DMA_CH_CELLS]; omega))]
    · rw [hlast, State.modDma_dma]
  case _ =>
    intro s t2h b hcrown hon24 hwedge hoff hwb hqueues
    obtain ⟨hq, hout, -, -⟩ := State.boundaryBegun_quiet hwb
    obtain ⟨hshown, hsout, -⟩ := s.boundaryBegun.boundaryShown_quiet t2h none
    refine ⟨_, State.dmaCellBoundary_idle hcrown hon24 hwedge hoff hwb hqueues, ?_, ?_, ?_⟩
    · rw [hsout, hout]
    · rw [hshown.parts .gird rfl, hq.parts .gird rfl]
    · rw [hshown.parts .dma rfl, hq.parts .dma rfl]
  case _ =>
    intro s c v h16 hc hr hcrown hnic hv
    have hring : s.isRing c = true := by rw [State.isRing, decide_eq_true h16, hnic]; rfl
    refine congrArg Outcome.next ((State.when_of s _ (decide_eq_true hc)).trans (State.writeOwn_accepted hr ?_))
    dsimp only
    rw [if_pos rfl, hcrown, hring, if_neg (by decide), if_neg (Nat.not_le.2 hv)]
  case _ =>
    exact fun s c => State.chWriteEn_stopping
  case _ =>
    exact fun s c => State.resumeRetry_idle

end Sys2Proof.Machine
end

section
/-!
PROOFS. Register writes, semaphores, SYS_RST, the watchdog kick and REMOTE_INT.
-/

namespace Sys2Proof.Machine

open Host (Outcome)

/-! ## What an accepted write leaves (R9, R388) -/

/-- The record of a watched write changes the recorder's words and page 9's interrupt word alone. -/
theorem State.applied_word (s t : State) (p : Path) (a : Nat) {b : Nat} (hring : b ∉ ringWords) (h9 : b ≠ (PG_ISR 9).addr) :
    (s.applied t p a).word b = t.word b := by
  unfold State.applied
  split
  · rfl
  · rw [State.raise_word _ _ _ _ h9, State.putRecord]
    split
    · rw [State.mk_word]
    · exact State.enterRing_sameWords _ _ _ hring

theorem State.complete_word (s : State) (p : Path) (a : Nat) (w : Bool) (code data b : Nat) : (s.complete p a w code data).word b = s.word b := by
  rw [State.complete, State.mk_word]

theorem accepted_word (s t : State) (p : Path) (a : Nat) {b : Nat} (hring : b ∉ ringWords) (h9 : b ≠ (PG_ISR 9).addr) :
    (accepted s t p a).word b = t.word b := by
  rw [accepted, State.wrote, State.complete_word, State.applied_word _ _ _ _ hring h9]

theorem State.complete_rstHeld (s : State) (p : Path) (a : Nat) (w : Bool) (code data : Nat) :
    (s.complete p a w code data).chip.rstHeld = s.chip.rstHeld := rfl

theorem State.complete_finalRun (s : State) (p : Path) (a : Nat) (w : Bool) (code data : Nat) :
    (s.complete p a w code data).chip.finalRun = s.chip.finalRun := rfl

theorem State.complete_wdtEnd (s : State) (p : Path) (a : Nat) (w : Bool) (code data : Nat) :
    (s.complete p a w code data).chip.wdtEnd = s.chip.wdtEnd := rfl

theorem State.applied_chip (s t : State) (p : Path) (a : Nat) : (s.applied t p a).chip = t.chip :=
  (State.applied_follows (msk := 2) rfl s p a (Follows.refl 2 t)).parts .chip rfl

theorem accepted_rstHeld (s t : State) (p : Path) (a : Nat) : (accepted s t p a).chip.rstHeld = t.chip.rstHeld := by
  rw [accepted, State.wrote, State.complete_rstHeld, State.applied_chip]

theorem accepted_finalRun (s t : State) (p : Path) (a : Nat) : (accepted s t p a).chip.finalRun = t.chip.finalRun := by
  rw [accepted, State.wrote, State.complete_finalRun, State.applied_chip]

theorem accepted_wdtEnd (s t : State) (p : Path) (a : Nat) : (accepted s t p a).chip.wdtEnd = t.chip.wdtEnd := by
  rw [accepted, State.wrote, State.complete_wdtEnd, State.applied_chip]

theorem pathReport_done (p : Path) (w : Bool) (data : Nat) : pathReport p w 0 data = .complete p 0 data := if_neg fun h => h.2 rfl

theorem accepted_complete (s t : State) (p : Path) (a : Nat) : Out.complete p 0 0 ∈ (accepted s t p a).out := by
  rw [accepted, State.wrote, State.complete, pathReport_done]
  exact List.mem_append_left _ (List.mem_append_right _ List.mem_cons_self)

/-! ## A write of a word (R9, R10, R35–R37) -/

section Write
variable {s : State} {p : Path} {a v : Nat}

theorem State.writeWord_own (h : Reaches s p a) (hpage : a / 0x1000 < 39) (ho : 0x40 ≤ a % 0x1000) : s.writeWord p a v =
    if (rowsAt a).isEmpty then s.wrote p a
    else if s.writeCode p a v ≠ 0 then s.reject p a (s.writeCode p a v) v
    else accepted s (s.wordStored p a v) p a := by
  unfold State.writeWord
  dsimp only
  rw [if_neg (Nat.not_le.2 hpage), if_neg (Nat.not_lt.2 ho), State.gate_reaches (x := ⟨p, a, true, v⟩) h]
  rfl

theorem State.writeWord_stored (h : Reaches s p a) (hpage : a / 0x1000 < 39) (ho : 0x40 ≤ a % 0x1000) (hrows : (rowsAt a).isEmpty = false)
    (hcode : s.writeCode p a v = 0) : s.writeWord p a v = accepted s (s.wordStored p a v) p a := by
  rw [State.writeWord_own h hpage ho, hrows, if_neg Bool.false_ne_true, if_neg fun hne => hne hcode]

theorem State.writeWord_rejected (h : Reaches s p a) (hpage : a / 0x1000 < 39) (ho : 0x40 ≤ a % 0x1000) (hrows : (rowsAt a).isEmpty = false)
    {c : Nat} (hcode : s.writeCode p a v = c) (hc : c ≠ 0) : s.writeWord p a v = s.reject p a c v := by
  rw [State.writeWord_own h hpage ho, hrows, if_neg Bool.false_ne_true, hcode, if_pos hc]

theorem State.writeWord_undefined (h : Reaches s p a) (hpage : a / 0x1000 < 39) (ho : 0x40 ≤ a % 0x1000) (hrows : rowsAt a = []) :
    s.writeWord p a v = s.wrote p a := by
  rw [State.writeWord_own h hpage ho, hrows]
  rfl

theorem State.writeWord_reserved (h : Reaches s p 0) (hpage : 39 ≤ a / 0x1000) : s.writeWord p a v = s.wrote p a := by
  unfold State.writeWord
  dsimp only
  rw [if_pos hpage, State.gate_reaches (x := ⟨p, 0, true, v⟩) h]

theorem State.writeWord_header (h : Reaches s p a) (hpage : a / 0x1000 < 39) (ho : a % 0x1000 < 0x40) : s.writeWord p a v =
    if headerRw (a % 0x1000) then accepted s (s.headerWritten (a / 0x1000) (a % 0x1000) v) p a else s.reject p a 2 v := by
  unfold State.writeWord
  dsimp only
  rw [if_neg (Nat.not_le.2 hpage), if_pos ho, State.gate_reaches (x := ⟨p, a, true, v⟩) h]
  rfl

end Write

theorem State.perform_write (s : State) (p : Path) (a v : Nat) : s.perform (writeAcc p a v) = (s.writeWord p (wordAddr a) (v % 2 ^ 32)).rstDue := rfl

theorem wordAddr_of_lt {a : Nat} (h : a < 0x40000) (h4 : a % 4 = 0) : wordAddr a = a := by
  rw [wordAddr]
  omega

/-! ## The words of page SYS that act on a write (R7, R44, R46, R47) -/

/-- What the register table says of a write of a value to a word. -/
def rowsTake (a v : Nat) : Bool :=
  !(rowsAt a).isEmpty && !(writableRows a).isEmpty && !(writableRows a).any (fun r => r.bad v) && !(writableRows a).any (fun r => r.ty == .rwe)

theorem rowsTake_sem : ∀ n, n < 32 → rowsTake (0x100 + 4 * n) 0 = true := by decide

theorem rowsTake_rst : rowsTake 0x68 0x15A5A = true := by decide

theorem rowsTake_kick : rowsTake 0x70 0xC3C3 = true := by decide

theorem rows_rst : (rowsAt 0x68).isEmpty = false ∧ (writableRows 0x68).isEmpty = false ∧ (writableRows 0x68).any (fun r => r.ty == .rwe) = false := by
  decide

theorem rows_kick : (rowsAt 0x70).isEmpty = false ∧ (writableRows 0x70).isEmpty = false ∧ (writableRows 0x70).any (fun r => r.ty == .rwe) = false := by
  decide

/-- A write of page SYS that its table takes has the code of the word's own rule. -/
theorem State.writeCode_sys {s : State} {p : Path} {a v : Nat} (ha : a / 0x1000 = 0) (hrows : rowsTake a v = true) :
    s.writeCode p a v = s.tiedCode p a v := by
  simp only [rowsTake, Bool.and_eq_true, Bool.not_eq_true'] at hrows
  obtain ⟨⟨⟨-, hwritable⟩, hbad⟩, hrwe⟩ := hrows
  have habsent : s.absentWord a = false := by
    rw [State.absentWord, ha]
    rfl
  have hcmds : cmdsOf p a v = [] := by
    rw [cmdsOf, wordCmds]
    dsimp only
    rw [ha]
    rfl
  rw [State.writeCode, habsent, hwritable, hbad, hrwe, hcmds]
  by_cases h : s.tiedCode p a v = 0
  · rw [h]
    rfl
  · simp [h]

/-- A write that the word's own rule refuses with code 1 has code 1. -/
theorem State.writeCode_one {s : State} {p : Path} {a v : Nat} (ha : a / 0x1000 = 0) (hwritable : (writableRows a).isEmpty = false)
    (hrwe : (writableRows a).any (fun r => r.ty == .rwe) = false) (htied : s.tiedCode p a v = 1) : s.writeCode p a v = 1 := by
  have habsent : s.absentWord a = false := by
    rw [State.absentWord, ha]
    rfl
  rw [State.writeCode, habsent, hwritable, hrwe, htied]
  simp

theorem State.wordStored_sys {s : State} {p : Path} {a v : Nat} (ha : a / 0x1000 = 0) :
    s.wordStored p a v = (s.storeWord p a v).wordWritten s p a v := by
  have hcmds : cmdsOf p a v = [] := by
    rw [cmdsOf, wordCmds]
    dsimp only
    rw [ha]
    rfl
  rw [State.wordStored, hcmds]
  rfl

/-- A write of 0 to a semaphore is a write of its own. -/
theorem State.semWrite_exec {s : State} {p : Path} {n : Nat} (hn : n < 32) (h : Reaches s p (SYS_SEM_HELD n).addr) (hrst : s.chip.rstHeld = none) :
    exec (.semRelease p n) s = .next (accepted s ((s.flag (SYS_SEM_HELD n) false).wr (SYS_SEM_IF n) 0) p (0x100 + 4 * n)) := by
  have haddr : wordAddr (0x100 + 4 * n) = 0x100 + 4 * n := wordAddr_of_lt (by omega) (by omega)
  have hpage : (0x100 + 4 * n) / 0x1000 = 0 := by omega
  have hoff : (0x100 + 4 * n) % 0x1000 = 0x100 + 4 * n := by omega
  have hrows := rowsTake_sem n hn
  have hsome : (rowsAt (0x100 + 4 * n)).isEmpty = false := by
    simp only [rowsTake, Bool.and_eq_true, Bool.not_eq_true'] at hrows
    exact hrows.1.1.1
  have hcode : s.writeCode p (0x100 + 4 * n) 0 = 0 := by
    rw [State.writeCode_sys hpage hrows, State.tiedCode]
    dsimp only
    rw [hpage, hoff, if_pos rfl, if_neg (by simp only [SYS_WDT_CTRL_EN]; omega), if_neg (by simp only [SYS_WDT_KICK]; omega),
      if_neg (by simp only [SYS_RST_KEY]; omega), if_neg (by omega)]
  have hport : dataPort (0x100 + 4 * n) = true := by
    simp only [dataPort, Bool.or_eq_true, Bool.and_eq_true, decide_eq_true_eq]
    omega
  have hstored : s.wordStored p (0x100 + 4 * n) 0 = (s.flag (SYS_SEM_HELD n) false).wr (SYS_SEM_IF n) 0 := by
    rw [State.wordStored_sys hpage, State.storeWord, hport, if_pos rfl, State.wordWritten]
    dsimp only
    rw [hpage, hoff, if_pos rfl, if_neg (by omega), if_neg (by omega), if_neg (by omega), if_neg (by omega), if_pos (by omega),
      show (0x100 + 4 * n - 0x100) / 4 = n by omega]
    exact State.when_of _ _ rfl
  refine congrArg Outcome.next ((State.when_of s _ (decide_eq_true hn)).trans ?_)
  rw [State.perform_write, haddr, Nat.zero_mod, State.writeWord_stored (a := 0x100 + 4 * n) h (by omega) (by omega) hsome hcode, hstored]
  exact State.rstDue_none (by rw [accepted_rstHeld, State.wr_chip, State.flag_chip, hrst])

/-! ### SYS_RST (R7, R46) -/

theorem State.warmKept_chip (s : State) : s.warmKept.chip.rstHeld = none ∧ s.warmKept.out = s.out := ⟨rfl, rfl⟩

theorem State.warmReset_out (s : State) : s.warmReset.chip.rstHeld = none ∧ s.out <+: s.warmReset.out := by
  obtain ⟨hheld, hout⟩ := s.dropped.warmKept_chip
  have hshow := State.showEvi_follows (msk := 0) (Follows.refl 0 s.dropped.warmKept)
  rw [State.warmReset_eq]
  generalize s.dropped.warmKept = t at hheld hout hshow ⊢
  refine ⟨?_, ?_⟩
  · rw [State.wr_chip, hshow.parts .chip rfl, hheld]
  · rw [State.wr_out]
    exact s.dropped_follows.out.trans (hout ▸ hshow.out)

/-- A reset that waits and that no final commit holds back happens at once. -/
theorem State.rstDue_held {s : State} {q : Path} (hheld : s.chip.rstHeld = some q) (hfinal : s.chip.finalRun = false) :
    s.rstDue.step_ = 1 ∧ s.rstDue.chip.rstHeld = none ∧ s.out <+: s.rstDue.out := by
  obtain ⟨u, hu, hout⟩ : ∃ u : State, s.rstDue = u.warmReset ∧ s.out <+: u.out := by
    rw [State.rstDue, State.when_of _ _ (by rw [State.rstReady, hheld, hfinal]; rfl), State.rstNow]
    refine ⟨_, rfl, ?_⟩
    cases s.chip.mgmt with
    | nil => exact List.prefix_rfl
    | cons r rs => exact (State.when_follows (m := 1048575) (Follows.refl _ s) _ fun _ h => State.mgmtEnd_follows rfl r h).out
  obtain ⟨hstep, -⟩ := u.warmReset_effect
  obtain ⟨hnone, hpre⟩ := u.warmReset_out
  rw [hu]
  exact ⟨hstep, hnone, hout.trans hpre⟩

theorem State.storeWord_chip (s : State) (p : Path) (a v : Nat) : (s.storeWord p a v).chip = s.chip :=
  (State.storeWord_follows (msk := 0) p a v (Follows.refl 0 s)).parts .chip rfl

theorem State.storeWord_time (s : State) (p : Path) (a v : Nat) : (s.storeWord p a v).time = s.time :=
  (State.storeWord_follows (msk := 0) p a v (Follows.refl 0 s)).parts .time rfl

theorem State.tiedCode_rst (s : State) (p : Path) (v : Nat) : s.tiedCode p 0x68 v = if v % 2 ^ 17 = 0x15A5A then 0 else 1 := rfl

theorem State.tiedCode_kick (s : State) (p : Path) (v : Nat) : s.tiedCode p 0x70 v = if v = 0xC3C3 then 0 else 1 := rfl

/-- A kick stores into its own word alone. -/
theorem State.storeWord_kick_word (s : State) (p : Path) (v : Nat) {b : Nat} (h : b ≠ 0x70) : (s.storeWord p 0x70 v).word b = s.word b := by
  have hport : dataPort 0x70 = false := by decide
  have hhidden : hiddenData 0x70 = false := by decide
  have haddr : pathAddr p 0x70 = 0x70 := if_neg (by decide)
  unfold State.storeWord
  dsimp only
  rw [hport, if_neg Bool.false_ne_true, hhidden, if_neg Bool.false_ne_true, haddr]
  exact State.word_setWord_ne _ _ _ _ h

theorem State.sysRst_exec {s : State} {p : Path} (h : Reaches s p SYS_RST_KEY.addr) : exec (.sysRst p 0x15A5A) s =
    .next (accepted s ((s.storeWord p 0x68 0x15A5A).modChip (fun c => { c with rstHeld := some p })) p 0x68).rstDue := by
  obtain ⟨hsome, -, -⟩ := rows_rst
  refine congrArg Outcome.next ?_
  rw [State.perform_write, wordAddr_of_lt (by decide) (by decide), show 0x15A5A % 2 ^ 32 = 0x15A5A from rfl,
    State.writeWord_stored (a := SYS_RST_KEY.addr) h (by decide) (by decide) hsome
      ((State.writeCode_sys (by decide) rowsTake_rst).trans (s.tiedCode_rst p 0x15A5A)),
    State.wordStored_sys (by decide)]
  rfl

theorem State.sysRst_rejected {s : State} {p : Path} {v : Nat} (h : Reaches s p SYS_RST_KEY.addr) (hv : v % 2 ^ 17 ≠ 0x15A5A) :
    exec (.sysRst p v) s = .next (s.reject p SYS_RST_KEY.addr 1 (v % 2 ^ 32)).rstDue := by
  obtain ⟨hsome, hwritable, hrwe⟩ := rows_rst
  have htied : s.tiedCode p 0x68 (v % 2 ^ 32) = 1 := (s.tiedCode_rst p _).trans (if_neg (by omega))
  refine congrArg Outcome.next ?_
  rw [State.perform_write, wordAddr_of_lt (by decide) (by decide)]
  exact congrArg State.rstDue (State.writeWord_rejected h (by decide) (by decide) hsome
    (State.writeCode_one (by decide) hwritable hrwe htied) (by decide))

theorem State.wdtKick_exec {s : State} {p : Path} (h : Reaches s p SYS_WDT_KICK.addr) : exec (.wdtKick p 0xC3C3) s =
    .next (accepted s ((s.storeWord p 0x70 0xC3C3).when ((s.storeWord p 0x70 0xC3C3).on SYS_WDT_CTRL_EN) (·.wdtStart)) p 0x70).rstDue := by
  obtain ⟨hsome, -, -⟩ := rows_kick
  refine congrArg Outcome.next ?_
  rw [State.perform_write, wordAddr_of_lt (by decide) (by decide), show 0xC3C3 % 2 ^ 32 = 0xC3C3 from rfl,
    State.writeWord_stored (a := SYS_WDT_KICK.addr) h (by decide) (by decide) hsome
      ((State.writeCode_sys (by decide) rowsTake_kick).trans (s.tiedCode_kick p 0xC3C3)),
    State.wordStored_sys (by decide)]
  rfl

theorem State.wdtKick_rejected {s : State} {p : Path} {v : Nat} (h : Reaches s p SYS_WDT_KICK.addr) (hv : v % 2 ^ 32 ≠ 0xC3C3) :
    exec (.wdtKick p v) s = .next (s.reject p SYS_WDT_KICK.addr 1 (v % 2 ^ 32)).rstDue := by
  obtain ⟨hsome, hwritable, hrwe⟩ := rows_kick
  have htied : s.tiedCode p 0x70 (v % 2 ^ 32) = 1 := (s.tiedCode_kick p _).trans (if_neg hv)
  refine congrArg Outcome.next ?_
  rw [State.perform_write, wordAddr_of_lt (by decide) (by decide)]
  exact congrArg State.rstDue (State.writeWord_rejected h (by decide) (by decide) hsome
    (State.writeCode_one (by decide) hwritable hrwe htied) (by decide))

theorem State.wdtStart_end (s : State) : s.wdtStart.chip.wdtEnd = s.elapsed + s.rd SYS_WDT_CTRL_PERIOD_MS * 1000000 ∧
    s.wdtStart.chip.rstHeld = s.chip.rstHeld := by
  rw [State.wdtStart, State.modChip_chip]
  exact ⟨rfl, rfl⟩

/-! ## The obligation -/

/-- Settles O6: register writes, semaphores, SYS_RST, the watchdog kick and REMOTE_INT. -/
theorem registerAccessCommands : Obligations.RegisterAccessCommands := by
  unfold Obligations.RegisterAccessCommands
  refine ⟨?_, ?_, ?_, ?_, ?_, ?_, ?_, ?_, ?_, ?_, ?_, ?_, ?_, ?_⟩
  case _ =>
    intro s p a v hr hpage ho hrows hcode
    exact congrArg Outcome.next (congrArg State.rstDue (State.writeWord_stored hr hpage ho (List.isEmpty_eq_false_iff.2 hrows) hcode))
  case _ =>
    intro s p a v c hr hpage ho hrows hcode hc
    exact congrArg Outcome.next (congrArg State.rstDue (State.writeWord_rejected hr hpage ho (List.isEmpty_eq_false_iff.2 hrows) hcode hc))
  case _ =>
    intro s p a v hr hpage ho hrows
    exact congrArg Outcome.next (congrArg State.rstDue (State.writeWord_undefined hr hpage ho hrows))
  case _ =>
    intro s p a v hr hpage
    exact congrArg Outcome.next (congrArg State.rstDue (State.writeWord_reserved hr hpage))
  case _ =>
    intro s p a v hr hpage ho hrw
    refine congrArg Outcome.next (congrArg State.rstDue ((State.writeWord_header hr hpage ho).trans ?_))
    exact if_neg (by rw [hrw]; exact Bool.false_ne_true)
  case _ =>
    intro s p n v hr hn
    have hpage : (0x1000 * n + 0x18) / 0x1000 = n := by omega
    have hoff : (0x1000 * n + 0x18) % 0x1000 = 0x18 := by omega
    refine congrArg Outcome.next ?_
    rw [State.perform_write, wordAddr_of_lt (by omega) (by omega), State.writeWord_header hr (by omega) (by omega), hpage, hoff]
    rfl
  case _ =>
    intro s p n hn hr hfree
    refine congrArg Outcome.next ((State.when_of s _ (decide_eq_true hn)).trans ((State.readOwn_reaches hr).trans ?_))
    rw [State.when_of _ _ (by rw [hfree]; rfl)]
  case _ =>
    intro s p n hn hr htaken
    refine congrArg Outcome.next ((State.when_of s _ (decide_eq_true hn)).trans ((State.readOwn_reaches hr).trans ?_))
    rw [State.when_of_not _ _ (by rw [htaken]; rfl)]
  case _ =>
    intro s p n hn hr hrst
    have hring : 0x100 + 4 * n ∉ ringWords := by
      simp only [ringWords, PG_ISR, REC_HEAD_SEQ, REC_OLDEST_SEQ, REC_FLUSHED_SEQ, REC_OVERRUN, List.mem_cons, List.not_mem_nil, or_false]
      omega
    have h9 : 0x100 + 4 * n ≠ (PG_ISR 9).addr := by
      simp only [PG_ISR]
      omega
    refine ⟨_, State.semWrite_exec hn hr hrst, ?_, ?_, accepted_complete ..⟩
    · rw [State.on_of_word (accepted_word _ _ _ _ hring h9), State.on_wr_apart _ _ _ _ rfl, State.on_flag_one _ _ _ rfl]
    · rw [State.rd_of_word (accepted_word _ _ _ _ hring h9), State.rd_wr_fits _ _ _ rfl]
      rfl
  case _ =>
    intro s p v hr hkey hfinal hv
    rw [show v = 0x15A5A by omega]
    have hheld : (accepted s ((s.storeWord p 0x68 0x15A5A).modChip (fun c => { c with rstHeld := some p })) p 0x68).chip.rstHeld = some p := by
      rw [accepted_rstHeld, State.modChip_chip]
    have hfree : (accepted s ((s.storeWord p 0x68 0x15A5A).modChip (fun c => { c with rstHeld := some p })) p 0x68).chip.finalRun = false := by
      rw [accepted_finalRun, State.modChip_chip, State.storeWord_chip, hfinal]
    obtain ⟨hstep, hnone, hout⟩ := State.rstDue_held hheld hfree
    exact ⟨_, State.sysRst_exec hr, hstep, hnone, hout.subset (accepted_complete ..)⟩
  case _ =>
    exact fun s p v hr hv => State.sysRst_rejected hr hv
  case _ =>
    intro s p hr hen hrst
    have hkept : (s.storeWord p 0x70 0xC3C3).on SYS_WDT_CTRL_EN = true := by
      rw [State.on_of_word (s.storeWord_kick_word p _ (by decide)), hen]
    obtain ⟨hend, hheld⟩ := (s.storeWord p 0x70 0xC3C3).wdtStart_end
    have hexec := State.wdtKick_exec hr
    rw [State.when_of _ _ hkept, State.rstDue_none (by rw [accepted_rstHeld, hheld, State.storeWord_chip, hrst])] at hexec
    refine ⟨_, hexec, ?_, accepted_complete ..⟩
    rw [accepted_wdtEnd, hend, State.elapsed, State.storeWord_time, State.rd_of_word (s.storeWord_kick_word p _ (by decide)), State.elapsed]
  case _ =>
    exact fun s p v hr hv => State.wdtKick_rejected hr hv
  case _ =>
    intro s n c hcrown h1 h14 hup
    refine ⟨_, congrArg Outcome.next (State.when_of s _ (by rw [hcrown, hup, decide_eq_true ⟨h1, h14⟩]; rfl)), ?_⟩
    dsimp only
    refine ⟨?_, ?_⟩
    · rw [State.bit, State.when_keeps (·.rd SYS_REMOTE_INT) (f := (·.emit _)) (State.emit_rd ..)]
      exact State.bit_setBit_self _ _ _ _ (by simp only [Fld.width, SYS_REMOTE_INT]; omega) rfl
    · exact ((SameWords.refl _ s).setBit List.mem_cons_self _ _).when _ fun h => h.of_word fun _ => State.emit_word ..

end Sys2Proof.Machine
end

section
/-!
PROOFS. Remote, framed and stalled accesses, management records and step B6.
-/

namespace Sys2Proof.Machine

open Host (Outcome)

/-! ## Requests over the tree (R48–R50) -/

theorem State.remoteSend_effect {s : State} (c : Nat) (x : Acc) (h : s.engUp 5 = true) :
    (s.remoteSend c x).chip.remote = s.chip.remote ++ [⟨s.chip.remoteNext, c, x⟩] ∧
      Out.mgmt c 3 [s.chip.remoteNext, x.addr, x.isWrite.toNat, x.data] ∈ (s.remoteSend c x).out := by
  rw [State.remoteSend, State.when_of _ _ h, State.emit_chip, State.modChip_chip, State.emit_out]
  exact ⟨rfl, List.mem_append_right _ List.mem_cons_self⟩

theorem State.remoteEnd_found {s : State} {i : Nat} {r : RemAcc} (h : s.chip.remote.find? (fun r => r.id == i) = some r)
    (act : Acc → State → State) : s.remoteEnd i act =
      (act r.acc (s.modChip (fun c => { c with remote := c.remote.filter (fun e => e.id != i) }))).mgmtGo := by
  rw [State.remoteEnd, h]

theorem State.remoteEnd_none {s : State} {i : Nat} (h : s.chip.remote.find? (fun r => r.id == i) = none) (act : Acc → State → State) :
    s.remoteEnd i act = s := by
  rw [State.remoteEnd, h]

/-! ## MSPI frames (R51, R52) -/

/-- The controller clocks no response of an earlier request any more. -/
def State.mspiCut (s : State) : State := s.modChip (fun c => { c with mspi := c.mspi.map (fun e => (e.1, false)) })

/-- A frame with a bad CRC is counted, and answered with 0xE0 where its response is clocked. -/
theorem State.mspiRequest_bad {s : State} {b : List Byte} (hup : s.chip.d0Up = true) (hlen : 10 ≤ b.length)
    (hcrc : beNat ((b.drop 9).take 1) ≠ crc8 (b.take 9)) : exec (.mspiRequest b) s =
    .next ((s.mspiCut.incSat SYS_MSPI_CRCERR).when (decide (10 < b.length)) (·.emit (.mspi (mspiFrame 0xE0 0)))) := by
  refine congrArg Outcome.next ((State.when_of s _ (by rw [hup, decide_eq_true hlen]; rfl)).trans ?_)
  dsimp only
  rw [if_pos hcrc]
  rfl

theorem State.mspiCut_counted (s : State) : (s.mspiCut.incSat SYS_MSPI_CRCERR).rd SYS_MSPI_CRCERR = min 65535 (s.rd SYS_MSPI_CRCERR + 1) ∧
    SameWords [SYS_MSPI_CRCERR.addr] s (s.mspiCut.incSat SYS_MSPI_CRCERR) ∧ (s.mspiCut.incSat SYS_MSPI_CRCERR).out = s.out := by
  refine ⟨?_, ((SameWords.refl _ s).of_word fun _ => State.modChip_word ..).incSat List.mem_cons_self, ?_⟩
  · rw [State.incSat, State.rd_wr_fits _ _ _ rfl, State.mspiCut, State.modChip_rd]
    have hlt : s.rd SYS_MSPI_CRCERR < 2 ^ 16 := s.rd_lt _
    change (if s.rd SYS_MSPI_CRCERR + 1 < 2 ^ 16 then s.rd SYS_MSPI_CRCERR + 1 else s.rd SYS_MSPI_CRCERR) % 2 ^ 16 = _
    split <;> omega
  · rw [State.incSat_out, State.mspiCut, State.modChip_out]

/-! ## Domains on demand (R53) -/

theorem State.perform_stalled {s : State} {p : Path} {a w : Nat} (hup : s.chip.d0Up = true) (hpage : wordAddr a / 0x1000 < 39)
    (ho : 0x40 ≤ wordAddr a % 0x1000) (hopen : (s.open_ (wordAddr a / 0x1000)).any (fun y => y.path == p) = false)
    (hdom : s.on (PG_STATE_DOMAIN_UP (wordAddr a / 0x1000)) = false) (hwedge : s.on (PG_STATE_WEDGED (wordAddr a / 0x1000)) = false) :
    s.perform (writeAcc p a w) = (s.stall (writeAcc p a w)).rstDue := by
  refine congrArg State.rstDue ?_
  change s.writeWord p (wordAddr a) (w % 2 ^ 32) = _
  unfold State.writeWord
  dsimp only
  rw [if_neg (Nat.not_le.2 hpage), if_neg (Nat.not_lt.2 ho), State.gate]
  dsimp only
  rw [hup, hopen, hdom, hwedge, if_neg (Nat.not_lt.2 ho)]
  rfl

/-! ## The obligation -/

/-- Settles O7: remote, framed and stalled accesses, management records and step B6. -/
theorem remoteAndManagementCommands : Obligations.RemoteAndManagementCommands := by
  unfold Obligations.RemoteAndManagementCommands
  refine ⟨?_, ?_, ?_, ?_, ?_, ?_, ?_, ?_, ?_, ?_, ?_, ?_, ?_, ?_, ?_, ?_, ?_, ?_, ?_, ?_, ?_, ?_⟩
  case _ =>
    intro s n o w hup hcrown hn hen htree
    refine congrArg Outcome.next ((State.when_of s _ hup).trans ((State.when_of s _ (by rw [hcrown, decide_eq_true hn]; rfl)).trans ?_))
    dsimp only
    rw [if_pos (by rw [hen, htree]; rfl)]
  case _ =>
    intro s n o w hup hcrown hn hen
    refine congrArg Outcome.next ((State.when_of s _ hup).trans ((State.when_of s _ (by rw [hcrown, decide_eq_true hn]; rfl)).trans ?_))
    dsimp only
    rw [if_neg (by rw [hen]; exact Bool.false_ne_true)]
  case _ =>
    rintro s p n o w hup (rfl | rfl) hn
    · exact congrArg Outcome.next ((State.when_of s _ hup).trans (State.when_of s _ (decide_eq_true hn)))
    · exact congrArg Outcome.next ((State.when_of s _ hup).trans (State.when_of s _ (decide_eq_true hn)))
  case _ =>
    exact fun s c x h => s.remoteSend_effect c x h
  case _ =>
    exact fun s i c d r h => congrArg Outcome.next (State.remoteEnd_found h _)
  case _ =>
    exact fun s i r h => congrArg Outcome.next (State.remoteEnd_found h _)
  case _ =>
    exact fun s i c d h => congrArg Outcome.next (State.remoteEnd_none h _)
  case _ =>
    exact fun s f i a w heng hup => congrArg Outcome.next (State.when_of s _ (by rw [heng, hup]; rfl))
  case _ =>
    intro s b hup hlen hcrc
    obtain ⟨hcount, hwords, hout⟩ := s.mspiCut_counted
    refine ⟨_, State.mspiRequest_bad hup (Nat.le_of_lt hlen) hcrc, ?_⟩
    rw [State.when_of _ _ (decide_eq_true hlen)]
    refine ⟨by rw [State.emit_rd, hcount], hwords.of_word fun _ => State.emit_word .., by rw [State.emit_out, hout]⟩
  case _ =>
    intro s b hup hlen hcrc
    refine ⟨_, State.mspiRequest_bad hup (Nat.le_of_eq hlen.symm) hcrc, ?_⟩
    rw [State.when_of_not _ _ (decide_eq_false (by omega))]
    exact s.mspiCut_counted
  case _ =>
    intro s b hup hlen hcrc hop
    refine congrArg Outcome.next ((State.when_of s _ (by rw [hup, decide_eq_true hlen]; rfl)).trans ?_)
    dsimp only
    rw [if_neg (not_not_intro hcrc), if_pos hop]
  case _ =>
    exact fun s b hlen => congrArg Outcome.next (State.when_of_not s _ (by rw [decide_eq_false (Nat.not_le.2 hlen), Bool.and_false]))
  case _ =>
    exact fun s => rfl
  case _ =>
    intro s d hif hsusp hmgmt hwhole
    refine congrArg Outcome.next ((State.when_of s _ (by rw [hif, hsusp, hmgmt]; rfl)).trans (State.when_of _ _ hwhole))
  case _ =>
    intro s q d hup hlast hwhole
    have hnew : s.boot.uartLast.filter (fun l => l.1 == q) = none := by rw [hlast]; rfl
    refine ⟨_, congrArg Outcome.next ((if_pos (by rw [hwhole]; rfl)).trans (State.uartFrame_new hup hnew)), ?_, ?_⟩
    · exact State.uartAnswered_out ..
    · exact (SameWords.refl _ s).of_word fun b => s.uartAnswered_word _ q [1] b
  case _ =>
    intro s q d hup hlast hwhole hmgmt
    refine congrArg Outcome.next ?_
    rw [hwhole, if_neg (by decide), State.when_of _ _ hup, hlast, hmgmt]
    rfl
  case _ =>
    exact fun s d hrise hup => congrArg Outcome.next (State.when_of s _ (by rw [hrise, hup]; rfl))
  case _ =>
    intro s p a w hup hpage ho hopen hdom hwedge
    refine congrArg Outcome.next ((State.when_of s _ ?_).trans (State.perform_stalled hup hpage ho hopen hdom hwedge))
    exact Bool.and_eq_true_iff.2 ⟨decide_eq_true hpage, (congrArg (!·) hdom).trans rfl⟩
  case _ =>
    exact fun s d hoff => congrArg Outcome.next (State.when_of s _ (by rw [hoff]; rfl))
  case _ =>
    intro s hstep hload hred halt
    refine congrArg Outcome.next ((State.when_of s _ (by rw [hstep, hload, hred]; rfl)).trans (if_pos halt))
  case _ =>
    intro s hstep hload hred halt hsel hcount
    refine congrArg Outcome.next ((State.when_of s _ (by rw [hstep, hload, hred]; rfl)).trans ?_)
    rw [if_neg (by rw [halt]; rintro (h | h); exacts [Bool.false_ne_true h, hsel h]), hcount]
  case _ =>
    intro s n hstep hload hred halt hsel hcount
    refine congrArg Outcome.next ((State.when_of s _ (by rw [hstep, hload, hred]; rfl)).trans ?_)
    rw [if_neg (by rw [halt]; rintro (h | h); exacts [Bool.false_ne_true h, hsel h]), hcount]

end Sys2Proof.Machine
end

section
/-!
PROOFS. The training commands of a port from DETECT to the end of EQUALIZE (R64–R67).
-/

namespace Sys2Proof.Machine

open Host (Outcome)

/-! ## The state of training in LNK_STATUS -/

theorem State.goT_tstate (s : State) (n : Nat) {t : Nat} (ht : t < 16) : (s.goT n t).rd (LNK_STATUS_TSTATE n) = t :=
  (State.rd_wr_fits _ _ _ rfl).trans (Nat.mod_eq_of_lt ht)

theorem State.tstate_of_inT {s : State} {n t : Nat} (h : s.inT n t = true) : s.rd (LNK_STATUS_TSTATE n) = t := by
  rw [State.inT, Bool.and_eq_true, Bool.and_eq_true, beq_iff_eq] at h
  obtain ⟨⟨-, ht⟩, -⟩ := h
  exact ht

/-- What EQUALIZE begins with: LNK_EQ.TX_PRESET in use, neither end done. -/
def Train.equalizing (t : Train) (p : Nat) (fixed : Bool) : Train :=
  { t with run0 := none, run1 := none, best0 := (0, 0), best1 := (0, 0), sweep0 := fixed, sweep1 := fixed, eqSelf := false, eqFar := false,
           asked := false, txPreset1 := p }

/-- The port is in EQUALIZE with a preset in use. -/
def State.equalizing (s : State) (n p : Nat) (fixed : Bool) : State :=
  ((s.goT n tEqualize).wr (LNK_STATUS_TX_PRESET n) p).modTr n (fun t => t.equalizing p fixed)

theorem State.enterEqualize_eq (s : State) (n : Nat) : ∃ fixed : Bool, s.enterEqualize n =
    if fixed then s.equalizing n (s.rd (LNK_EQ_TX_PRESET n).inForce) fixed
    else ((s.equalizing n (s.rd (LNK_EQ_TX_PRESET n).inForce) fixed).emit (.beacon n 2 [0, 0])).emit (.beacon n 2 [1, 0]) :=
  ⟨_, rfl⟩

/-- The begin of EQUALIZE: LNK_STATUS shows it and the preset, and neither end is done. -/
theorem State.enterEqualize_effect (s : State) (n : Nat) : (s.enterEqualize n).rd (LNK_STATUS_TSTATE n) = tEqualize ∧
    ((s.enterEqualize n).tr n).eqSelf = false ∧ ((s.enterEqualize n).tr n).eqFar = false ∧
    (s.enterEqualize n).rd (LNK_STATUS_TX_PRESET n) = s.rd (LNK_EQ_TX_PRESET n).inForce ∧
    (s.enterEqualize n).rd (LNK_STATUS_SPEED n) = s.rd (LNK_STATUS_SPEED n) ∧
    SameWords [(LNK_STATUS_TSTATE n).addr, (LNK_STATUS_TX_PRESET n).addr] s (s.enterEqualize n) := by
  obtain ⟨fixed, heq⟩ := s.enterEqualize_eq n
  generalize hp : s.rd (LNK_EQ_TX_PRESET n).inForce = p at heq
  have hlt : p < 2 ^ 4 := hp ▸ s.rd_lt _
  have hwords : SameWords [(LNK_STATUS_TSTATE n).addr, (LNK_STATUS_TX_PRESET n).addr] s (s.equalizing n p fixed) :=
    (((SameWords.refl _ s).wr List.mem_cons_self _).wr (List.mem_cons_of_mem _ List.mem_cons_self) _).of_word fun _ => State.modTr_word ..
  have hbegun : (s.equalizing n p fixed).rd (LNK_STATUS_TSTATE n) = tEqualize ∧ ((s.equalizing n p fixed).tr n).eqSelf = false ∧
      ((s.equalizing n p fixed).tr n).eqFar = false ∧ (s.equalizing n p fixed).rd (LNK_STATUS_TX_PRESET n) = p ∧
      (s.equalizing n p fixed).rd (LNK_STATUS_SPEED n) = s.rd (LNK_STATUS_SPEED n) := by
    rw [State.equalizing, State.modTr_tr, State.modTr_rd, State.modTr_rd, State.modTr_rd, State.rd_wr_apart _ _ _ _ rfl,
      State.goT_tstate _ _ (by decide), State.rd_wr_fits _ _ _ rfl, State.rd_wr_apart _ _ _ _ rfl, State.goT, State.rd_wr_apart _ _ _ _ rfl]
    exact ⟨rfl, rfl, rfl, Nat.mod_eq_of_lt hlt, rfl⟩
  obtain ⟨ht, hself, hfar, hpreset, hspeed⟩ := hbegun
  rw [heq]
  split
  · exact ⟨ht, hself, hfar, hpreset, hspeed, hwords⟩
  · simp only [State.emit_rd, State.emit_tr]
    exact ⟨ht, hself, hfar, hpreset, hspeed, hwords.of_word fun _ => by rw [State.emit_word, State.emit_word]⟩

theorem State.tryLock_of {s : State} {n : Nat} (hself : (s.tr n).eqSelf = true) (hfar : (s.tr n).eqFar = true) : s.tryLock n = s.goT n tLock :=
  State.when_of _ _ (by rw [hself, hfar]; rfl)

theorem State.tryLock_of_not {s : State} {n : Nat} (hfar : (s.tr n).eqFar = false) : s.tryLock n = s :=
  State.when_of_not _ _ (by rw [hfar, Bool.and_false])

theorem State.goT_rd (s : State) (n t : Nat) {g : Fld} (h : (LNK_STATUS_TSTATE n).apart g = true) : (s.goT n t).rd g = s.rd g :=
  State.rd_wr_apart _ _ _ _ h

/-- One terminated pair is recorded as cause 4. -/
def State.pairNoted (s : State) (n : Nat) : State :=
  ((s.wr (LNK_FAIL_CAUSE n) 4).wr (LNK_FAIL_STATE n) tDetect).modTr n (fun t => { t with pairWarned := true })

theorem State.pairNoted_effect (s : State) (n : Nat) : (s.pairNoted n).rd (LNK_FAIL_CAUSE n) = 4 ∧ (s.pairNoted n).rd (LNK_FAIL_STATE n) = tDetect ∧
    ((s.pairNoted n).tr n).pairWarned = true ∧ SameWords [(LNK_FAIL_CAUSE n).addr] s (s.pairNoted n) := by
  refine ⟨?_, ?_, ?_, ?_⟩
  · rw [State.pairNoted, State.modTr_rd, State.rd_wr_apart _ _ _ _ rfl, State.rd_wr_fits _ _ _ rfl]
    rfl
  · rw [State.pairNoted, State.modTr_rd, State.rd_wr_fits _ _ _ rfl]
    rfl
  · rw [State.pairNoted, State.modTr_tr]
  · have hmem : (LNK_FAIL_STATE n).addr ∈ [(LNK_FAIL_CAUSE n).addr] := by simp [LNK_FAIL_STATE, LNK_FAIL_CAUSE]
    exact (((SameWords.refl _ s).wr List.mem_cons_self _).wr hmem _).of_word fun _ => State.modTr_word ..

/-! ## The obligation -/

/-- Settles O8: the training commands from DETECT to the end of EQUALIZE. -/
theorem laneTrainingCompletes : Obligations.LaneTrainingCompletes := by
  unfold Obligations.LaneTrainingCompletes
  refine ⟨?_, ?_, ?_, ?_, ?_, ?_, ?_, ?_, ?_, ?_, ?_, ?_⟩
  case _ =>
    intro s n hin h1040
    refine ⟨_, congrArg Outcome.next (State.when_of s _ hin), ?_⟩
    dsimp only
    rw [h1040, if_neg Bool.false_ne_true, Bool.and_self, if_pos rfl, State.modTr_rd, State.emit_rd, State.goT_tstate _ _ (by decide), State.modTr_out, State.emit_out]
    exact ⟨rfl, List.mem_append_right _ List.mem_cons_self, ((SameWords.refl _ s).wr List.mem_cons_self _).of_word fun _ => by
      rw [State.modTr_word, State.emit_word, State.goT]⟩
  case _ =>
    intro s n hin h1040 hwarn
    refine ⟨s.pairNoted n, ?_, s.pairNoted_effect n⟩
    refine congrArg Outcome.next ((State.when_of s _ hin).trans ?_)
    rw [h1040, if_neg Bool.false_ne_true, Bool.and_false, if_neg Bool.false_ne_true]
    exact State.when_of _ _ (by rw [hwarn]; rfl)
  case _ =>
    intro s n htr hpark hcyc
    refine congrArg Outcome.next ((State.when_of s _ (by rw [htr, bne_iff_ne.2 hpark]; rfl)).trans ?_)
    exact congrArg (fun c => s.trainFail n c (s.tstate n)) (if_neg fun h => hcyc h.1)
  case _ =>
    intro s n r hin hchosen hr
    obtain ⟨ht, hself, hfar, hpreset, hspeed, hwords⟩ := (s.wr (LNK_STATUS_SPEED n) r).enterEqualize_effect n
    refine ⟨(s.wr (LNK_STATUS_SPEED n) r).enterEqualize n, ?_, ?_, ht, hself, hfar, ?_, ?_⟩
    · refine congrArg Outcome.next ((State.when_of s _ hin).trans ?_)
      rw [hchosen]
    · rw [hspeed, State.rd_wr_fits _ _ _ rfl]
      exact Nat.mod_eq_of_lt (show r < 4 by omega)
    · rw [hpreset, State.rd_wr_apart _ _ _ _ (Fld.apart_of_addr_ne (by simp only [Fld.inForce, LNK_EQ_TX_PRESET, LNK_STATUS_SPEED]; omega))]
    · exact ((SameWords.refl _ s).wr List.mem_cons_self _).trans hwords
  case _ =>
    intro s n preset hin
    refine ⟨_, congrArg Outcome.next (State.when_of s _ hin), ?_⟩
    dsimp only
    rw [if_pos rfl, State.emit_rd, State.modTr_rd, State.rd_wr_fits _ _ _ rfl, State.emit_out]
    exact ⟨Nat.mod_mod _ _, List.mem_append_right _ List.mem_cons_self, ((SameWords.refl _ s).wr List.mem_cons_self _).of_word fun _ => by
      rw [State.emit_word, State.modTr_word]⟩
  case _ =>
    intro s n lane preset hin hlane
    refine ⟨_, congrArg Outcome.next (State.when_of s _ hin), ?_⟩
    dsimp only
    rw [if_neg hlane, State.emit_tr, State.modTr_tr, State.modTr_tr, State.emit_out]
    exact ⟨rfl, List.mem_append_right _ List.mem_cons_self, (SameWords.refl _ s).of_word fun _ => by
      rw [State.emit_word, State.modTr_word, State.modTr_word]⟩
  case _ =>
    intro s n preset hin
    refine ⟨_, congrArg Outcome.next (State.when_of s _ hin), ?_, (SameWords.refl _ s).of_word fun _ => State.modTr_word ..⟩
    rw [State.modTr_tr, if_pos rfl]
  case _ =>
    intro s n eye p hin hrun hp heye hbest
    have hbetter : betterEye (s.tr n).best0 (eye % 256) p = (eye, p) := by
      rw [betterEye, Nat.mod_eq_of_lt heye, if_pos (.inl hbest)]
    refine ⟨_, congrArg Outcome.next (State.when_of s _ hin), ?_⟩
    dsimp only
    rw [if_pos rfl, hrun]
    dsimp only
    rw [hbetter, State.when_of _ _ (decide_eq_true hp), State.emit_rd, State.rd_wr_fits _ _ _ rfl, State.emit_tr, State.wr_tr, State.modTr_tr,
      State.emit_out]
    exact ⟨Nat.mod_eq_of_lt heye, rfl, List.mem_append_right _ List.mem_cons_self,
      (((SameWords.refl _ s).of_word fun _ => State.modTr_word ..).wr List.mem_cons_self _).of_word fun _ => State.emit_word ..⟩
  case _ =>
    intro s n e0 e1 hin h1040 hfix h0 h1 hself he0 he1 hfar
    have heye0 : eyeBelowMargin (s.rd (LNK_EQ_EYE0 n)) = false := decide_eq_false (by omega)
    have heye1 : eyeBelowMargin (s.rd (LNK_EQ_EYE1 n)) = false := decide_eq_false (by omega)
    have htst : s.tstate n = tEqualize := State.tstate_of_inT hin
    refine ⟨_, congrArg Outcome.next (State.when_of s _ (by rw [hin, h0, h1, hself]; rfl)), ?_⟩
    dsimp only
    rw [State.when_of_not _ _ (by rw [h1040, hfix]; rfl), heye0, heye1, Bool.false_and, Bool.or_false, if_neg Bool.false_ne_true,
      State.tryLock_of_not (by rw [State.emit_tr, State.modTr_tr, hfar, h1040]; rfl), State.emit_tr, State.modTr_tr, State.emit_out, State.emit_rd, State.modTr_rd]
    exact ⟨rfl, List.mem_append_right _ List.mem_cons_self, htst⟩
  case _ =>
    intro s n p0 p1 hin hself hasked
    refine ⟨_, congrArg Outcome.next (State.when_of s _ hin), ?_⟩
    dsimp only
    rw [State.when_of _ _ hasked, State.tryLock_of (by rw [State.modTr_tr, State.modTr_tr, State.wr_tr, hself]) (by rw [State.modTr_tr]),
      State.goT_rd _ _ _ rfl, State.modTr_rd, State.modTr_rd, State.rd_wr_fits _ _ _ rfl, State.goT_tstate _ _ (by decide), State.goT, State.wr_tr,
      State.modTr_tr, State.modTr_tr]
    exact ⟨rfl, rfl, rfl⟩
  case _ =>
    intro s n p0 p1 hin hself hasked
    refine ⟨_, congrArg Outcome.next (State.when_of s _ hin), ?_⟩
    dsimp only
    rw [State.when_of_not _ _ hasked, State.tryLock_of (by rw [State.modTr_tr, hself]) (by rw [State.modTr_tr]), State.goT_rd _ _ _ rfl, State.modTr_rd,
      State.goT_tstate _ _ (by decide), State.goT, State.wr_tr, State.modTr_tr]
    exact ⟨rfl, rfl, rfl⟩
  case _ =>
    intro s n pair1 hin h1040
    obtain ⟨ht, -, -, -, hspeed, -⟩ := (s.wr (LNK_STATUS_SPEED n) 1).enterEqualize_effect n
    refine ⟨(s.wr (LNK_STATUS_SPEED n) 1).enterEqualize n, ?_, ?_, ht⟩
    · refine congrArg Outcome.next ((State.when_of s _ hin).trans ?_)
      rw [h1040, if_pos rfl, State.when_true]
    · rw [hspeed, State.rd_wr_fits _ _ _ rfl]
      rfl

end Sys2Proof.Machine
end

section
/-!
PROOFS. LOCK, RANGE, ROLE and the role swaps of a link (R68, R71–R73).
-/

namespace Sys2Proof.Machine

open Host (Outcome)

/-! ## Link units and the training state -/

@[simp] theorem State.queueUnit_tr (s : State) (n : Nat) (u : CtlUnit) : (s.queueUnit n u).tr n = s.tr n := by
  rw [State.tr, State.queueUnit, State.modEp, State.modPort_port, State.tr]

theorem State.native_lt {s : State} {n : Nat} (h : s.native n = true) : n < 3 := by
  rw [State.native, State.active, Bool.and_eq_true, Bool.and_eq_true, decide_eq_true_eq] at h
  obtain ⟨⟨hn, -⟩, -⟩ := h
  exact hn

/-! ## LOCK, RANGE and ROLE (R68, R71) -/

theorem State.enterRole_effect (s : State) (n : Nat) : (s.enterRole n).rd (LNK_STATUS_TSTATE n) = tRole ∧
    Out.roleBeacon n (s.ownRole n) 0 ∈ (s.enterRole n).out ∧ SameWords [(LNK_STATUS_TSTATE n).addr] s (s.enterRole n) := by
  have hown : (s.goT n tRole).ownRole n = s.ownRole n := by
    have hpos {g : Fld} (hg : g.addr = 0x60) : (LNK_STATUS_TSTATE n).apart g = true := Fld.apart_of_addr_ne (by rw [hg]; simp only [LNK_STATUS_TSTATE]; omega)
    rw [State.ownRole, State.crown, State.goT_rd _ _ _ (hpos rfl), State.goT_rd _ _ _ (hpos rfl), State.goT_rd _ _ _ (hpos rfl),
      State.goT_rd _ _ _ (hpos rfl), State.goT, State.on_wr_apart _ _ _ _ (hpos rfl), State.wr_chip, State.ownRole, State.crown]
  rw [State.enterRole, hown, State.emit_rd, State.goT_tstate _ _ (by decide), State.emit_out]
  exact ⟨rfl, List.mem_append_right _ List.mem_cons_self, ((SameWords.refl _ s).wr List.mem_cons_self _).of_word fun _ => State.emit_word ..⟩

/-- The lanes as LOCK found them, and RANGE begun afresh. -/
def State.locked (s : State) (n : Nat) (swapped : Bool) (inverted skew : Nat) : State :=
  (((((s.flag (LNK_STATUS_LANES_SWAPPED n) swapped).wr (LNK_STATUS_RX_INV n) inverted).wr (LNK_STATUS_SKEW_UI n) skew).goT n tRange).modTr n
    (fun t => { t with rangeSent := 0, rangeVals := [] })).modTm n (fun t => { t with rangeOfs := [] })

theorem State.locked_effect (s : State) (n : Nat) (swapped : Bool) (inverted : Nat) {skew : Nat} (h : skew ≤ 64) :
    (s.locked n swapped inverted skew).rd (LNK_STATUS_TSTATE n) = tRange ∧ (s.locked n swapped inverted skew).on (LNK_STATUS_LANES_SWAPPED n) = swapped ∧
    (s.locked n swapped inverted skew).rd (LNK_STATUS_RX_INV n) = inverted % 4 ∧ (s.locked n swapped inverted skew).rd (LNK_STATUS_SKEW_UI n) = skew ∧
    ((s.locked n swapped inverted skew).tr n).rangeSent = 0 ∧ ((s.locked n swapped inverted skew).tr n).rangeVals = [] ∧
    SameWords [(LNK_STATUS_TSTATE n).addr] s (s.locked n swapped inverted skew) := by
  have hmem {f : Fld} (hf : f.addr = (LNK_STATUS_TSTATE n).addr) : f.addr ∈ [(LNK_STATUS_TSTATE n).addr] := List.mem_singleton.2 hf
  rw [State.locked]
  refine ⟨?_, ?_, ?_, ?_, ?_, ?_, ?_⟩
  · rw [State.modTm_rd, State.modTr_rd, State.goT_tstate _ _ (by decide)]
  · rw [State.modTm_on, State.modTr_on, State.goT, State.on_wr_apart _ _ _ _ rfl, State.on_wr_apart _ _ _ _ rfl, State.on_wr_apart _ _ _ _ rfl,
      State.on_flag_one _ _ _ rfl]
  · rw [State.modTm_rd, State.modTr_rd, State.goT_rd _ _ _ rfl, State.rd_wr_apart _ _ _ _ rfl, State.rd_wr_fits _ _ _ rfl]
    rfl
  · rw [State.modTm_rd, State.modTr_rd, State.goT_rd _ _ _ rfl, State.rd_wr_fits _ _ _ rfl]
    exact Nat.mod_eq_of_lt (show skew < 128 by omega)
  · rw [State.modTm_tr, State.modTr_tr]
  · rw [State.modTm_tr, State.modTr_tr]
  · exact (((((SameWords.refl _ s).flag (f := LNK_STATUS_LANES_SWAPPED n) (hmem rfl) _).wr (f := LNK_STATUS_RX_INV n) (hmem rfl) _).wr
      (f := LNK_STATUS_SKEW_UI n) (hmem rfl) _).wr (hmem rfl) _).of_word fun _ => by rw [State.modTm_word, State.modTr_word, State.goT]

theorem decideRole_same {own far : RoleBeacon} (h : own.unitId = far.unitId) : decideRole own far = (.fail 7, false, false) := if_pos h

/-- A ROLE beacon in ROLE is shown and kept, and decided as R71 says. -/
theorem State.roleBeacon_exec {s : State} {n : Nat} {b : RoleBeacon} (hin : s.inT n tRole = true) : exec (.roleBeacon n b) s =
    .next (match decideRole (s.ownRole n) b with
      | (.fail c, _, _) => ((s.showPeer n b).modTr n (fun t => { t with farRole := some b })).trainFail n c tRole
      | (.parked, _, _) => ((((s.showPeer n b).modTr n (fun t => { t with farRole := some b })).goT n tParked).modTr n
          (fun t => { t with parkedAs := some (s.ownRole n) })).emit (.roleBeacon n (s.ownRole n) 3)
      | (.parent, twin, second) => ((((s.showPeer n b).modTr n (fun t => { t with farRole := some b })).asParent n twin second).emit
          (.roleBeacon n (s.ownRole n) 1)).afterRole n
      | (.child, twin, second) => ((((s.showPeer n b).modTr n (fun t => { t with farRole := some b })).asChild n twin second b).emit
          (.roleBeacon n (s.ownRole n) 2)).afterRole n) := by
  have hrole : s.tstate n = tRole := State.tstate_of_inT hin
  have hpark : s.when (s.tstate n == tParked) (·.enterRole n) = s := State.when_of_not _ _ (by rw [hrole]; rfl)
  refine congrArg Outcome.next ((State.when_of s _ (by rw [hin]; rfl)).trans ?_)
  dsimp only
  rw [hpark] <;> rfl

/-! ## Role swaps (R72, R73) -/

theorem State.sendSwapReq_effect (s : State) (n : Nat) : ((s.sendSwapReq n).tr n).swap = some ⟨cycAdd s.cycle 4, s.cycle, true, false⟩ ∧
    ((s.sendSwapReq n).tr n).swapResend = false ∧ (s.sendSwapReq n).on (LNK_ROLE_CTRL_SWAP_PENDING n) = true ∧
    ((s.sendSwapReq n).ep n).units = (s.ep n).units ++ [.role 1 0 (cycAdd s.cycle 4) s.chip.unitId s.cycle] ∧
    SameWords [(LNK_ROLE_CTRL_SWAP_PENDING n).addr] s (s.sendSwapReq n) := by
  rw [State.sendSwapReq, State.flag_tr, State.modTr_tr, State.on_flag_one _ _ _ rfl, State.flag_ep, State.modTr_ep, State.queueUnit_ep]
  exact ⟨rfl, rfl, rfl, rfl, SameWords.flag (t := (s.queueUnit n _).modTr n _) ((SameWords.refl _ s).of_word fun _ => by
    rw [State.modTr_word, State.queueUnit_word]) List.mem_cons_self _⟩

/-- A far request that nothing refuses is accepted and pending. -/
def State.swapAccepted (s : State) (n cyc sent : Nat) : State :=
  ((s.queueUnit n (.role 2 0 cyc s.chip.unitId sent)).modTr n (fun t => { t with swap := some ⟨cyc, sent, false, true⟩ })).flag
    (LNK_ROLE_CTRL_SWAP_PENDING n) true

theorem State.swapAccepted_effect (s : State) (n cyc sent : Nat) : ((s.swapAccepted n cyc sent).tr n).swap = some ⟨cyc, sent, false, true⟩ ∧
    (s.swapAccepted n cyc sent).on (LNK_ROLE_CTRL_SWAP_PENDING n) = true ∧
    ((s.swapAccepted n cyc sent).ep n).units = (s.ep n).units ++ [.role 2 0 cyc s.chip.unitId sent] ∧
    SameWords [(LNK_ROLE_CTRL_SWAP_PENDING n).addr] s (s.swapAccepted n cyc sent) := by
  rw [State.swapAccepted, State.flag_tr, State.modTr_tr, State.on_flag_one _ _ _ rfl, State.flag_ep, State.modTr_ep, State.queueUnit_ep]
  exact ⟨rfl, rfl, rfl, SameWords.flag (t := (s.queueUnit n _).modTr n _) ((SameWords.refl _ s).of_word fun _ => by
    rw [State.modTr_word, State.queueUnit_word]) List.mem_cons_self _⟩

/-- Two requests of one cycle: both are abandoned, and the lower unit ID sends again. -/
def State.swapCollided (s : State) (n : Nat) (again : Bool) : State :=
  (((s.wr (LNK_ROLE_CTRL_LAST_RESULT n) 2).inc (LNK_ROLE_CNT_COLLIDE n)).modTr n (fun t => { t with swap := none, swapResend := again })).flag
    (LNK_ROLE_CTRL_SWAP_PENDING n) again

theorem cntWord_apart (n : Nat) {f g : Fld} (hf : f.addr = 0x10094 + 0x1000 * n) (hg : g.addr = 0x1005C + 0x1000 * n) :
    f.apart g = true ∧ g.apart f = true :=
  ⟨Fld.apart_of_addr_ne (by omega), Fld.apart_of_addr_ne (by omega)⟩

theorem State.swapCollided_effect (s : State) (n : Nat) (again : Bool) : (s.swapCollided n again).rd (LNK_ROLE_CTRL_LAST_RESULT n) = 2 ∧
    ((s.swapCollided n again).tr n).swap = none ∧ ((s.swapCollided n again).tr n).swapResend = again ∧
    (s.swapCollided n again).on (LNK_ROLE_CTRL_SWAP_PENDING n) = again ∧
    (s.swapCollided n again).rd (LNK_ROLE_CNT_COLLIDE n) = (s.rd (LNK_ROLE_CNT_COLLIDE n) + 1) % 65536 := by
  rw [State.swapCollided]
  refine ⟨?_, ?_, ?_, State.on_flag_one _ _ _ rfl, ?_⟩
  · rw [State.rd_flag_apart _ _ _ _ rfl, State.modTr_rd, State.rd_inc_apart _ _ _ _ (cntWord_apart n rfl rfl).1, State.rd_wr_fits _ _ _ rfl]
    rfl
  · rw [State.flag_tr, State.modTr_tr]
  · rw [State.flag_tr, State.modTr_tr]
  · rw [State.rd_flag_apart _ _ _ _ (cntWord_apart n rfl rfl).2, State.modTr_rd, State.rd_inc_fits _ _ _ rfl,
      State.rd_wr_apart _ _ _ _ (cntWord_apart n rfl rfl).2]
    rfl

/-- A refused request ends with LAST_RESULT 3. -/
def State.swapRefused (s : State) (n : Nat) : State :=
  ((s.wr (LNK_ROLE_CTRL_LAST_RESULT n) 3).modTr n (fun t => { t with swap := none })).flag (LNK_ROLE_CTRL_SWAP_PENDING n) false

theorem State.swapRefused_effect (s : State) (n : Nat) : ((s.swapRefused n).tr n).swap = none ∧ (s.swapRefused n).rd (LNK_ROLE_CTRL_LAST_RESULT n) = 3 ∧
    (s.swapRefused n).on (LNK_ROLE_CTRL_SWAP_PENDING n) = false ∧ SameWords [(LNK_ROLE_CTRL_LAST_RESULT n).addr] s (s.swapRefused n) := by
  rw [State.swapRefused]
  refine ⟨?_, ?_, State.on_flag_one _ _ _ rfl, ?_⟩
  · rw [State.flag_tr, State.modTr_tr]
  · rw [State.rd_flag_apart _ _ _ _ rfl, State.modTr_rd, State.rd_wr_fits _ _ _ rfl]
    rfl
  · have hmem : (LNK_ROLE_CTRL_SWAP_PENDING n).addr ∈ [(LNK_ROLE_CTRL_LAST_RESULT n).addr] := List.mem_singleton.2 rfl
    exact (((SameWords.refl _ s).wr List.mem_cons_self _).of_word fun _ => State.modTr_word ..).flag hmem _

/-- The crown becomes a pavilion below the port. -/
def State.crownHandedOver (s : State) (n far : Nat) : State :=
  let s := ((((s.flag SYS_TREE_POS_CROWN false).wr SYS_TREE_POS_UP_PORT n).wr SYS_TREE_POS_DEPTH 1).wr SYS_TREE_POS_CHIP 0).flag (LNK_STATUS_PARENT n) false
  { s with chip := { s.chip with role := 2, crownId := far, tree := [], joining := [] } }

/-- A pavilion becomes the crown. -/
def State.crownTaken (s : State) (n : Nat) (links : List TreeLink) : State := (s.becomeCrown.flag (LNK_STATUS_PARENT n) true).numberAll links

/-- A swap that is done is shown. -/
def State.swapShown (s : State) (n : Nat) : State :=
  ((((s.showChips.wr (LNK_ROLE_CTRL_LAST_RESULT n) 1).inc (LNK_ROLE_CNT_SWAP n)).modTr n (fun t => { t with swap := none })).flag
    (LNK_ROLE_CTRL_SWAP_PENDING n) false).raise (lnkPage n) 4

theorem State.roleSwap_exec {s : State} {n : Nat} {links : List TreeLink} {w : Swap} (hnat : s.native n = true) (hw : (s.tr n).swap = some w)
    (hacc : w.accepted = true) (hge : cycGe s.cycle w.cycle = true) (hmove : s.stepMoves w.cycle = false) : exec (.roleSwap n links) s =
    .next ((if s.crown then s.crownHandedOver n (s.rd (LNK_PEER_ID_LO n) + 2 ^ 32 * s.rd (LNK_PEER_ID_HI n)) else s.crownTaken n links).swapShown n) := by
  refine congrArg Outcome.next ((State.when_of s _ hnat).trans ?_)
  rw [hw]
  exact State.when_of _ _ (by rw [hacc, hge, hmove]; rfl)

theorem State.swapShown_result (s : State) (n : Nat) : (s.swapShown n).rd (LNK_ROLE_CTRL_LAST_RESULT n) = 1 ∧
    (s.swapShown n).on (LNK_ROLE_CTRL_SWAP_PENDING n) = false ∧ ((s.swapShown n).tr n).swap = none := by
  have hisr {g : Fld} (hg : g.addr = 0x1005C + 0x1000 * n) : (PG_ISR (lnkPage n)).apart g = true :=
    Fld.apart_of_addr_ne (by rw [hg]; simp only [PG_ISR, lnkPage]; omega)
  rw [State.swapShown]
  refine ⟨?_, ?_, ?_⟩
  · rw [State.rd_raise_apart _ _ _ _ (hisr rfl), State.rd_flag_apart _ _ _ _ rfl, State.modTr_rd, State.rd_inc_apart _ _ _ _ (cntWord_apart n rfl rfl).1,
      State.rd_wr_fits _ _ _ rfl]
    rfl
  · rw [State.on_raise_apart _ _ _ _ (hisr rfl), State.on_flag_one _ _ _ rfl]
  · rw [State.raise_tr, State.flag_tr, State.modTr_tr]

/-- Showing a swap writes no field of SYS_TREE_POS but CHIPS. -/
theorem State.swapShown_pos (s : State) (n : Nat) {g : Fld} (hg : g.addr = 0x60) (hchips : SYS_TREE_POS_CHIPS.apart g = true) :
    (s.swapShown n).rd g = s.rd g := by
  rw [State.swapShown, State.rd_raise_apart _ _ _ _ (Fld.apart_of_addr_ne (by rw [hg]; simp only [PG_ISR, lnkPage]; omega)),
    State.rd_flag_apart _ _ _ _ (Fld.apart_of_addr_ne (by rw [hg]; simp only [LNK_ROLE_CTRL_SWAP_PENDING]; omega)), State.modTr_rd,
    State.rd_inc_apart _ _ _ _ (Fld.apart_of_addr_ne (by rw [hg]; simp only [LNK_ROLE_CNT_SWAP]; omega)),
    State.rd_wr_apart _ _ _ _ (Fld.apart_of_addr_ne (by rw [hg]; simp only [LNK_ROLE_CTRL_LAST_RESULT]; omega)), State.showChips,
    State.rd_wr_apart _ _ _ _ hchips]

theorem lnkParent_apart (n : Nat) {g : Fld} (hg : g.addr = 0x60) : (LNK_STATUS_PARENT n).apart g = true :=
  Fld.apart_of_addr_ne (by rw [hg]; simp only [LNK_STATUS_PARENT]; omega)

theorem State.crownHandedOver_pos (s : State) {n : Nat} (far : Nat) (hn : n < 3) : (s.crownHandedOver n far).on SYS_TREE_POS_CROWN = false ∧
    (s.crownHandedOver n far).rd SYS_TREE_POS_CHIP = 0 ∧ (s.crownHandedOver n far).rd SYS_TREE_POS_DEPTH = 1 ∧
    (s.crownHandedOver n far).rd SYS_TREE_POS_UP_PORT = n := by
  rw [State.crownHandedOver]
  refine ⟨?_, ?_, ?_, ?_⟩
  · rw [State.mk_on, State.on_flag_apart _ _ _ _ (lnkParent_apart n rfl), State.on_wr_apart _ _ _ _ rfl, State.on_wr_apart _ _ _ _ rfl,
      State.on_wr_apart _ _ _ _ rfl, State.on_flag_one _ _ _ rfl]
  · rw [State.mk_rd, State.rd_flag_apart _ _ _ _ (lnkParent_apart n rfl), State.rd_wr_fits _ _ _ rfl]
    rfl
  · rw [State.mk_rd, State.rd_flag_apart _ _ _ _ (lnkParent_apart n rfl), State.rd_wr_apart _ _ _ _ rfl, State.rd_wr_fits _ _ _ rfl]
    rfl
  · rw [State.mk_rd, State.rd_flag_apart _ _ _ _ (lnkParent_apart n rfl), State.rd_wr_apart _ _ _ _ rfl, State.rd_wr_apart _ _ _ _ rfl,
      State.rd_wr_fits _ _ _ rfl]
    exact Nat.mod_eq_of_lt (show n < 4 by omega)

theorem State.becomeCrown_pos (s : State) : s.becomeCrown.on SYS_TREE_POS_CROWN = true ∧ s.becomeCrown.rd SYS_TREE_POS_CHIP = 0 ∧
    s.becomeCrown.rd SYS_TREE_POS_DEPTH = 0 ∧ s.becomeCrown.rd SYS_TREE_POS_UP_PORT = 3 := by
  rw [State.becomeCrown]
  dsimp only
  rw [State.showChips]
  refine ⟨?_, ?_, ?_, ?_⟩
  · rw [State.on_wr_apart _ _ _ _ rfl, State.mk_on, State.on_wr_apart _ _ _ _ rfl, State.on_wr_apart _ _ _ _ rfl, State.on_wr_apart _ _ _ _ rfl,
      State.on_flag_one _ _ _ rfl]
  · rw [State.rd_wr_apart _ _ _ _ rfl, State.mk_rd, State.rd_wr_apart _ _ _ _ rfl, State.rd_wr_apart _ _ _ _ rfl, State.rd_wr_fits _ _ _ rfl]
    rfl
  · rw [State.rd_wr_apart _ _ _ _ rfl, State.mk_rd, State.rd_wr_apart _ _ _ _ rfl, State.rd_wr_fits _ _ _ rfl]
    rfl
  · rw [State.rd_wr_apart _ _ _ _ rfl, State.mk_rd, State.rd_wr_fits _ _ _ rfl]
    rfl

/-- The numbers given to the chips of the tree show in EXCESS and CHIPS alone. -/
theorem State.numberAll_pos (s : State) (links : List TreeLink) {g : Fld} (hex : SYS_TREE_POS_EXCESS.apart g = true)
    (hchips : SYS_TREE_POS_CHIPS.apart g = true) : (s.numberAll links).rd g = s.rd g := by
  have hone (u : State) (l : TreeLink) : (u.numberOne l).rd g = u.rd g := by
    unfold State.numberOne
    split
    · rw [State.emit_rd, State.mk_rd]
    · rw [State.emit_rd]
      exact State.when_keeps (·.rd g) (f := (·.setBit SYS_TREE_POS_EXCESS l.2.1 true)) (State.rd_setBit_apart _ _ _ _ _ hex)
  rw [State.numberAll, State.showChips, State.rd_wr_apart _ _ _ _ hchips]
  exact foldS_induct (P := fun t => t.rd g = s.rd g) rfl fun u l _ hu => (hone u l).trans hu

theorem State.crownTaken_pos (s : State) (n : Nat) (links : List TreeLink) {g : Fld} (hg : g.addr = 0x60) (hex : SYS_TREE_POS_EXCESS.apart g = true)
    (hchips : SYS_TREE_POS_CHIPS.apart g = true) : (s.crownTaken n links).rd g = s.becomeCrown.rd g := by
  rw [State.crownTaken, State.numberAll_pos _ _ hex hchips, State.rd_flag_apart _ _ _ _ (lnkParent_apart n hg)]

/-! ## The obligation -/

/-- Settles O10: LOCK, RANGE, ROLE and the role-swap messages. -/
theorem rangingAndRoles : Obligations.RangingAndRoles := by
  unfold Obligations.RangingAndRoles
  refine ⟨⟨?_, ?_, ?_, ?_, ?_, ?_, ?_, ?_, ?_, ?_, ?_, ?_⟩, ?_, ?_, ?_, ?_, ?_, ?_, ?_, ?_, ?_, ?_⟩
  case _ =>
    intro s n sw inv skew hin h1040 hskew
    refine ⟨s.locked n sw inv skew, ?_, s.locked_effect n sw inv hskew⟩
    refine congrArg Outcome.next ((State.when_of s _ hin).trans ?_)
    rw [h1040, if_neg Bool.false_ne_true, if_neg (by omega)]
    rfl
  case _ =>
    intro s n sw inv skew hin h1040
    refine ⟨s.enterRole n, ?_, s.enterRole_effect n⟩
    refine congrArg Outcome.next ((State.when_of s _ hin).trans ?_)
    rw [h1040, if_pos rfl]
  case _ =>
    intro s n hin hsent
    refine ⟨_, congrArg Outcome.next (State.when_of s _ (by rw [hin, decide_eq_true hsent]; rfl)), ?_⟩
    dsimp only
    rw [State.modTr_tr, State.emit_tr, State.modTr_out, State.emit_out]
    exact ⟨rfl, List.mem_append_right _ List.mem_cons_self, (SameWords.refl _ s).of_word fun _ => by rw [State.modTr_word, State.emit_word]⟩
  case _ =>
    intro s n i v t1 t2 t3 t4 hin
    refine ⟨_, congrArg Outcome.next ((State.when_of s _ hin).trans (if_pos rfl)), ?_, (SameWords.refl _ s).of_word fun _ => State.emit_word ..⟩
    rw [State.emit_out]
    exact List.mem_append_right _ List.mem_cons_self
  case _ =>
    intro s n i t1 t2 t3 t4 hin hi
    refine ⟨_, congrArg Outcome.next (State.when_of s _ hin), ?_⟩
    dsimp only
    rw [Bool.not_true, if_neg Bool.false_ne_true, State.when_of_not _ _ (beq_eq_false_iff_ne.2 (by omega)), State.when_true, State.modTm_tr, State.modTr_tr]
    exact ⟨rfl, (SameWords.refl _ s).of_word fun _ => by rw [State.modTm_word, State.modTr_word]⟩
  case _ =>
    intro s n t1 t2 t3 t4 hin hlen hspread
    refine congrArg Outcome.next ((State.when_of s _ hin).trans ?_)
    dsimp only
    rw [Bool.not_true, if_neg Bool.false_ne_true, State.when_false, State.when_of _ _ (beq_self_eq_true 63), if_neg (by omega)]
  case _ =>
    intro s n hin hsame
    refine ⟨_, congrArg Outcome.next ((State.when_of s _ hin).trans (if_pos hsame)), ?_, (SameWords.refl _ s).of_word fun _ => State.emit_word ..⟩
    rw [State.emit_out]
    exact List.mem_append_right _ List.mem_cons_self
  case _ =>
    intro s n b hin hdec
    have hexec := State.roleBeacon_exec (b := b) hin
    rw [hdec] at hexec
    refine ⟨_, hexec, ?_⟩
    dsimp only
    rw [State.emit_rd, State.modTr_rd, State.goT_tstate _ _ (by decide), State.emit_out, State.emit_tr, State.modTr_tr, State.goT, State.wr_tr, State.modTr_tr]
    exact ⟨rfl, List.mem_append_right _ List.mem_cons_self, rfl, rfl⟩
  case _ =>
    intro s n b hin hunit
    rw [State.roleBeacon_exec hin, decideRole_same (own := s.ownRole n) hunit.symm]
  case _ =>
    intro s n hin hchanged
    exact ⟨s.enterRole n, congrArg Outcome.next ((State.when_of s _ hin).trans (if_neg hchanged)), s.enterRole_effect n⟩
  case _ =>
    intro s n b twin second hin hdec
    rw [State.roleBeacon_exec hin, hdec]
  case _ =>
    intro s n b twin second hin hdec
    rw [State.roleBeacon_exec hin, hdec]
  case _ =>
    intro s n hnat hresend
    exact ⟨_, congrArg Outcome.next (State.when_of s _ (by rw [hnat, hresend]; rfl)), s.sendSwapReq_effect n⟩
  case _ =>
    intro s n cyc unit sent hnat hswap hrefuse
    refine ⟨s.swapAccepted n cyc sent, ?_, s.swapAccepted_effect n cyc sent⟩
    refine congrArg Outcome.next ((State.when_of s _ hnat).trans ?_)
    rw [hswap]
    exact if_pos hrefuse
  case _ =>
    intro s n cyc unit sent hnat hswap hrefuse
    refine ⟨s.queueUnit n (.role 3 (s.swapRefusal n cyc sent) cyc s.chip.unitId sent), ?_, ?_, (SameWords.refl _ s).of_word fun _ => State.queueUnit_word ..,
      State.queueUnit_ep ..⟩
    · refine congrArg Outcome.next ((State.when_of s _ hnat).trans ?_)
      rw [hswap]
      exact if_neg hrefuse
    · rw [State.queueUnit_tr, hswap]
  case _ =>
    intro s n cyc unit c sent hnat hswap
    refine ⟨s.swapCollided n (decide (s.chip.unitId < unit)), ?_, s.swapCollided_effect n _⟩
    refine congrArg Outcome.next ((State.when_of s _ hnat).trans ?_)
    rw [hswap]
    dsimp only
    rw [if_neg (by decide), if_pos rfl, State.inc_chip, State.wr_chip, State.swapCollided]
  case _ =>
    intro s n c sent hnat hswap
    refine ⟨s.modTr n (fun t => { t with swap := some ⟨c, sent, true, true⟩ }), ?_, ?_, (SameWords.refl _ s).of_word fun _ => State.modTr_word ..⟩
    · refine congrArg Outcome.next ((State.when_of s _ hnat).trans ?_)
      rw [hswap]
      exact State.when_of _ _ (by simp)
    · rw [State.modTr_tr]
  case _ =>
    intro s n c sent hnat hswap
    refine ⟨s.swapRefused n, ?_, s.swapRefused_effect n⟩
    refine congrArg Outcome.next ((State.when_of s _ hnat).trans ?_)
    rw [hswap]
    exact State.when_of _ _ rfl
  case _ =>
    intro s n links w hnat hw hacc hge hmove hcrown
    obtain ⟨hc, hchip, hdepth, hup⟩ := s.crownHandedOver_pos (s.rd (LNK_PEER_ID_LO n) + 2 ^ 32 * s.rd (LNK_PEER_ID_HI n)) (State.native_lt hnat)
    have hexec := State.roleSwap_exec (links := links) hnat hw hacc hge hmove
    rw [hcrown, if_pos rfl] at hexec
    obtain ⟨hres, hpend, hswap⟩ := State.swapShown_result (s.crownHandedOver n (s.rd (LNK_PEER_ID_LO n) + 2 ^ 32 * s.rd (LNK_PEER_ID_HI n))) n
    refine ⟨_, hexec, ?_, ?_, ?_, ?_, hres, hpend, hswap⟩
    · rw [State.on, State.swapShown_pos _ n rfl rfl, ← State.on, hc]
    · rw [State.swapShown_pos _ n rfl rfl, hchip]
    · rw [State.swapShown_pos _ n rfl rfl, hdepth]
    · rw [State.swapShown_pos _ n rfl rfl, hup]
  case _ =>
    intro s n links w hnat hw hacc hge hmove hcrown
    obtain ⟨hc, hchip, hdepth, hup⟩ := s.becomeCrown_pos
    have hexec := State.roleSwap_exec (links := links) hnat hw hacc hge hmove
    rw [hcrown, if_neg Bool.false_ne_true] at hexec
    obtain ⟨hres, hpend, hswap⟩ := State.swapShown_result (s.crownTaken n links) n
    refine ⟨_, hexec, ?_, ?_, ?_, ?_, hres, hpend, hswap⟩
    · rw [State.on, State.swapShown_pos _ n rfl rfl, State.crownTaken_pos _ n links rfl rfl rfl, ← State.on, hc]
    · rw [State.swapShown_pos _ n rfl rfl, State.crownTaken_pos _ n links rfl rfl rfl, hchip]
    · rw [State.swapShown_pos _ n rfl rfl, State.crownTaken_pos _ n links rfl rfl rfl, hdepth]
    · rw [State.swapShown_pos _ n rfl rfl, State.crownTaken_pos _ n links rfl rfl rfl, hup]
  case _ =>
    intro s p n hnat hswap hman hr
    have hn : n < 3 := State.native_lt hnat
    refine congrArg Outcome.next ((State.when_of s _ (decide_eq_true hn)).trans ?_)
    refine State.runCmd_accepted (c := cmdSwapReq n) hr (Nat.mod_eq_of_lt (by simp only [cmdSwapReq, LNK_ROLE_CTRL_SWAP_REQ]; omega)) rfl ?_
    change s.swapReq n = _
    rw [State.swapReq, hnat, hswap, hman]
    rfl
  case _ =>
    intro s n cyc unit c own sent hnat hswap hne hlater
    refine ⟨s.queueUnit n (.role 3 3 cyc s.chip.unitId sent), ?_, ?_, (SameWords.refl _ s).of_word fun _ => State.queueUnit_word .., State.queueUnit_ep ..⟩
    · refine congrArg Outcome.next ((State.when_of s _ hnat).trans ?_)
      rw [hswap]
      dsimp only
      rw [if_neg (by decide), if_neg hne, hlater, if_neg Bool.false_ne_true]
    · rw [State.queueUnit_tr]

end Sys2Proof.Machine
end

section
/-!
PROOFS. Wake, loss, stop and retry events of a port (R60, R62, R63, R66, R69, R74, R75).
-/

namespace Sys2Proof.Machine

open Host (Outcome)

/-! ## Wakes in S0 (R62, R63) -/

/-- In S0 without HALT a wake event changes no more than that an entry is taken back. -/
theorem State.wakeBy_running {s : State} (c : Nat) (h0 : s.rd PWR_PS_STATUS_STATE = 0) (hhalt : s.on BOOT_STATUS_HALT = false) :
    s.wakeBy c = s.when (s.pwr.entryPending && wakeEnabled s c) (·.modPwr (fun p => { p with wakePend := true })) := by
  rw [State.wakeBy_eq, if_pos h0, State.when_of_not s _ (by rw [hhalt]; rfl)]

theorem State.resumeLink_tr (s : State) (k n : Nat) : (s.resumeLink k).tr n = s.tr n := by
  rw [State.resumeLink]
  refine State.when_keeps (·.tr n) (f := fun s => (s.emit (.glint k)).modPort k (fun p => { p with pw := { p.pw with resuming := true } })) ?_
  by_cases h : n = k
  · rw [h, State.tr, State.modPort_port, State.tr]
    rfl
  · rw [State.tr, State.modPort_port_ne _ _ h, State.tr]
    rfl

/-- A port's place in training depends on its registers and its own data. -/
theorem State.inT_of {s t : State} {n k : Nat} (hlife : t.rd (PG_STATE_LIFE (lnkPage n)) = s.rd (PG_STATE_LIFE (lnkPage n)))
    (ht : t.rd (LNK_STATUS_TSTATE n) = s.rd (LNK_STATUS_TSTATE n)) (htr : t.tr n = s.tr n) : t.inT n k = s.inT n k := by
  rw [State.inT, State.isOn, State.tstate, hlife, ht, htr, State.inT, State.isOn, State.tstate]

theorem State.glintSeen_effect (s : State) (n : Nat) : (s.glintSeen n).rd (LNK_STATUS_TSTATE n) = tSpeed ∧ Out.glint n ∈ (s.glintSeen n).out ∧
    (s.glintSeen n).rd (LNK_WAKE_CNT_GLINT n) = s.rd (LNK_WAKE_CNT_GLINT n) := by
  have hcnt {f : Fld} (hf : f.addr = 0x10044 + 0x1000 * n) : f.apart (LNK_WAKE_CNT_GLINT n) = true :=
    Fld.apart_of_addr_ne (by rw [hf]; simp only [LNK_WAKE_CNT_GLINT]; omega)
  rw [State.glintSeen, State.enterSpeed]
  refine ⟨?_, ?_, ?_⟩
  · rw [State.emit_rd, State.rd_wr_apart _ _ _ _ rfl, State.goT_tstate _ _ (by decide)]
  · rw [State.emit_out, State.wr_out, State.goT, State.wr_out, State.emit_out]
    exact List.mem_append_left _ (List.mem_append_right _ List.mem_cons_self)
  · rw [State.emit_rd, State.rd_wr_apart _ _ _ _ (hcnt rfl), State.goT_rd _ _ _ (hcnt rfl), State.emit_rd]

theorem State.glintRaised_rd (s : State) (n : Nat) {g : Fld} (hcnt : (LNK_WAKE_CNT_GLINT n).apart g = true)
    (hisr : (PG_ISR (lnkPage n)).apart g = true) : ((s.inc (LNK_WAKE_CNT_GLINT n)).raise (lnkPage n) 6).rd g = s.rd g := by
  rw [State.rd_raise_apart _ _ _ _ hisr, State.rd_inc_apart _ _ _ _ hcnt]

/-- A counted glint, in the state before the port answers it. -/
def State.glintCounted (s : State) (n : Nat) : State :=
  (((s.inc (LNK_WAKE_CNT_GLINT n)).raise (lnkPage n) 6).wakeBy 2).resumeLink n

/-- What a glint in S0 leaves of the port: its count is up, and it is where it was in training. -/
theorem State.glintCounted_effect {s : State} {n : Nat} (h0 : s.rd PWR_PS_STATUS_STATE = 0) (hhalt : s.on BOOT_STATUS_HALT = false) :
    (((s.inc (LNK_WAKE_CNT_GLINT n)).raise (lnkPage n) 6).wakeBy 2).chip = s.chip ∧
      (s.glintCounted n).rd (LNK_WAKE_CNT_GLINT n) = (s.rd (LNK_WAKE_CNT_GLINT n) + 1) % 65536 ∧ ∀ k, (s.glintCounted n).inT n k = s.inT n k := by
  have hsmall {g : Fld} (hg : g.addr < 0x10000) : (LNK_WAKE_CNT_GLINT n).apart g = true ∧ (PG_ISR (lnkPage n)).apart g = true :=
    ⟨Fld.apart_of_addr_ne (by simp only [LNK_WAKE_CNT_GLINT]; omega), Fld.apart_of_addr_ne (by simp only [PG_ISR, lnkPage]; omega)⟩
  have hstate : ((s.inc (LNK_WAKE_CNT_GLINT n)).raise (lnkPage n) 6).rd PWR_PS_STATUS_STATE = 0 := by
    rw [s.glintRaised_rd n (hsmall (by decide)).1 (hsmall (by decide)).2, h0]
  have hrun : ((s.inc (LNK_WAKE_CNT_GLINT n)).raise (lnkPage n) 6).on BOOT_STATUS_HALT = false := by
    rw [State.on, s.glintRaised_rd n (hsmall (by decide)).1 (hsmall (by decide)).2, ← State.on, hhalt]
  have hwake := State.wakeBy_running 2 hstate hrun
  have hword (a : Nat) : (s.glintCounted n).word a = ((s.inc (LNK_WAKE_CNT_GLINT n)).raise (lnkPage n) 6).word a := by
    rw [State.glintCounted, State.resumeLink_word, hwake]
    exact State.when_word _ _ _ _ (State.modPwr_word ..)
  have htr : (s.glintCounted n).tr n = s.tr n := by
    rw [State.glintCounted, State.resumeLink_tr, hwake]
    refine (State.when_keeps (·.tr n) (f := (·.modPwr (fun p => { p with wakePend := true }))) (State.tr_of_ports (State.modPwr_ports ..) n)).trans ?_
    rw [State.raise_tr, State.inc_tr]
  refine ⟨?_, ?_, fun k => State.inT_of ?_ ?_ htr⟩
  · rw [hwake]
    refine (State.when_keeps (·.chip) (f := (·.modPwr (fun p => { p with wakePend := true }))) (State.modPwr_chip ..)).trans ?_
    rw [State.raise_chip, State.inc_chip]
  · rw [State.rd_of_word (hword _), State.rd_raise_apart _ _ _ _ (Fld.apart_of_addr_ne (by simp only [PG_ISR, lnkPage, LNK_WAKE_CNT_GLINT]; omega)),
      State.rd_inc_fits _ _ _ rfl]
    rfl
  · rw [State.rd_of_word (hword _)]
    exact s.glintRaised_rd n (Fld.apart_of_addr_ne (by simp only [PG_STATE_LIFE, lnkPage, LNK_WAKE_CNT_GLINT]; omega))
      (Fld.apart_of_addr_ne (by simp only [PG_STATE_LIFE, lnkPage, PG_ISR]; omega))
  · rw [State.rd_of_word (hword _)]
    exact s.glintRaised_rd n (Fld.apart_of_addr_ne (by simp only [LNK_STATUS_TSTATE, LNK_WAKE_CNT_GLINT]; omega))
      (Fld.apart_of_addr_ne (by simp only [LNK_STATUS_TSTATE, lnkPage, PG_ISR]; omega))

theorem State.glintRecognised_exec {s : State} {n : Nat} (hn : n < 3) (h1040 : s.mode1040 n = false) (h0 : s.rd PWR_PS_STATUS_STATE = 0)
    (hhalt : s.on BOOT_STATUS_HALT = false) (hdom : s.domOn (6 + n) = true) (hin : s.inT n tGlint = true) :
    exec (.glintRecognised n) s = .next ((s.glintCounted n).glintSeen n) := by
  obtain ⟨hchip, -, hplace⟩ := State.glintCounted_effect (n := n) h0 hhalt
  refine congrArg Outcome.next ((State.when_of s _ (by rw [decide_eq_true hn, h1040]; rfl)).trans ?_)
  dsimp only
  rw [State.when_of_not (((s.inc (LNK_WAKE_CNT_GLINT n)).raise (lnkPage n) 6).wakeBy 2) _ (by rw [State.domOn_of_chip hchip, hdom]; rfl)]
  exact State.when_of _ _ ((hplace tGlint).trans hin)

/-- Activity that wakes nothing is counted alone. -/
theorem State.activityRecognised_exec {s : State} {n : Nat} (hn : n < 3) (h0 : s.rd PWR_PS_STATUS_STATE = 0) (hhalt : s.on BOOT_STATUS_HALT = false)
    (hdom : s.domOn (6 + n) = true) (hpend : s.pwr.entryPending = false) :
    exec (.activityRecognised n) s = .next (s.inc (LNK_WAKE_CNT_ACTIVITY n)) := by
  have hsmall {g : Fld} (hg : g.addr < 0x10000) : (LNK_WAKE_CNT_ACTIVITY n).apart g = true :=
    Fld.apart_of_addr_ne (by simp only [LNK_WAKE_CNT_ACTIVITY]; omega)
  have hwake : (s.inc (LNK_WAKE_CNT_ACTIVITY n)).wakeBy 1 = s.inc (LNK_WAKE_CNT_ACTIVITY n) := by
    rw [State.wakeBy_running 1 (by rw [State.rd_inc_apart _ _ _ _ (hsmall (by decide)), h0])
      (by rw [State.on_inc_apart _ _ _ _ (hsmall (by decide)), hhalt])]
    exact State.when_of_not _ _ (by rw [State.inc_pwr, hpend]; rfl)
  refine congrArg Outcome.next ((State.when_of s _ (decide_eq_true hn)).trans ?_)
  rw [hwake]
  exact State.when_of_not _ _ (by rw [State.domOn_of_chip (State.inc_chip ..), hdom]; rfl)

/-! ## The end of HOLDOFF (R69) -/

/-- What DETECT begins with: the field in force and the state in LNK_STATUS. -/
theorem State.enterDetect_tstate (s : State) (n : Nat) : (s.enterDetect n).rd (LNK_STATUS_TSTATE n) = tDetect := by
  rw [State.enterDetect, State.modTr_rd, State.rd_flag_apart _ _ _ _ rfl, State.rd_wr_fits _ _ _ rfl]
  rfl

theorem State.enterDetect_failing (s : State) (n : Nat) : ((s.enterDetect n).tr n).failing = false := by
  rw [State.enterDetect, State.modTr_tr]

/-- HOLDOFF ends: the port is in DETECT, and where the ceiling was at its lowest it is raised and the count is 0. -/
def State.holdoffOver (s : State) (n : Nat) (reset : Bool) : State :=
  ((s.enterDetect n).modTr n (fun t => { t with ceilReset := false })).when reset
    (fun s => (s.wr (LNK_FAIL_CEILING n) (s.rd (LNK_CTRL_MAX_SPEED n).inForce)).wr (LNK_FAIL_COUNT n) 0)

theorem State.holdoffOver_effect (s : State) (n : Nat) (reset : Bool) : (s.holdoffOver n reset).rd (LNK_STATUS_TSTATE n) = tDetect ∧
    ((s.holdoffOver n reset).tr n).ceilReset = false ∧ ((s.holdoffOver n reset).tr n).failing = false ∧
    (reset = true → (s.holdoffOver n reset).rd (LNK_FAIL_COUNT n) = 0) := by
  have hfail {f : Fld} (hf : f.addr = 0x10048 + 0x1000 * n) : f.apart (LNK_STATUS_TSTATE n) = true :=
    Fld.apart_of_addr_ne (by rw [hf]; simp only [LNK_STATUS_TSTATE]; omega)
  have hdetect := s.enterDetect_tstate n
  have hfresh := s.enterDetect_failing n
  rw [State.holdoffOver]
  generalize s.enterDetect n = u at hdetect hfresh ⊢
  cases reset with
  | false =>
    rw [State.when_false, State.modTr_rd, State.modTr_tr]
    exact ⟨hdetect, rfl, hfresh, fun h => absurd h Bool.false_ne_true⟩
  | true =>
    rw [State.when_true, State.rd_wr_apart _ _ _ _ (hfail rfl), State.rd_wr_apart _ _ _ _ (hfail rfl), State.wr_tr, State.wr_tr, State.modTr_rd,
      State.modTr_tr, State.rd_wr_fits _ _ _ rfl]
    exact ⟨hdetect, rfl, hfresh, fun _ => rfl⟩

/-! ## SPEED (R66) -/

theorem State.ownKeys_off {s : State} {n : Nat} (h : s.rd (LNK_CTRL_KEYS_MODE n).inForce = 0) : s.ownKeys n = 0 := by
  rw [State.ownKeys, h, ite_self]

/-- With keys off here and not required there, a SPEED beacon with a common rate chooses it, without keys. -/
theorem State.speedBeacon_exec {s : State} {n rates ceil km strap r : Nat} (hin : s.inT n tSpeed = true) (hchosen : (s.tr n).chosen = none)
    (hrate : commonRate (rates % 8) (min ceil (s.ownCeiling n)) = some r) (hkeys : s.rd (LNK_CTRL_KEYS_MODE n).inForce = 0) (hkm : km ≠ 2) :
    exec (.speedBeacon n rates ceil km strap) s =
      .next ((s.wr (LNK_PEER_INFO_STRAP n) strap).modTr n (fun t => { t with chosen := some r, keysUse := false })) := by
  have hpeer {g : Fld} (hg : g.addr ≠ 0x10058 + 0x1000 * n) : (LNK_PEER_INFO_STRAP n).apart g = true := Fld.apart_of_addr_ne hg
  have hmode : (s.wr (LNK_PEER_INFO_STRAP n) strap).rd (LNK_CTRL_KEYS_MODE n).inForce = 0 := by
    rw [State.rd_wr_apart _ _ _ _ (hpeer (by simp only [Fld.inForce, LNK_CTRL_KEYS_MODE]; omega)), hkeys]
  have hceil : (s.wr (LNK_PEER_INFO_STRAP n) strap).ownCeiling n = s.ownCeiling n := by
    rw [State.ownCeiling, State.rd_wr_apart _ _ _ _ (hpeer (by simp only [Fld.inForce, LNK_CTRL_MAX_SPEED]; omega)),
      State.rd_wr_apart _ _ _ _ (hpeer (by simp only [LNK_FAIL_CEILING]; omega)), State.ownCeiling]
  have hglint : s.inT n tGlint = false := State.inT_other hin (by decide)
  refine congrArg Outcome.next ?_
  rw [if_neg (by rw [hglint]; exact Bool.false_ne_true), State.when_of _ _ (by rw [hin, hchosen]; rfl)]
  dsimp only
  rw [hceil, hrate]
  dsimp only
  rw [State.ownKeys_off hmode, hmode, if_neg (by simp [hkm])]
  rfl

/-! ## The obligation -/

/-- Settles O11: wake, loss, stop and retry events of a port. -/
theorem linkEventsComplete : Obligations.LinkEventsComplete := by
  unfold Obligations.LinkEventsComplete
  refine ⟨?_, ?_, ?_, ?_, ?_, ?_, ?_, ?_, ?_, ?_, ?_⟩
  case _ =>
    intro s n hn h1040 h0 hhalt hdom hin
    obtain ⟨-, hcount, -⟩ := State.glintCounted_effect (n := n) h0 hhalt
    obtain ⟨ht, hout, hkept⟩ := (s.glintCounted n).glintSeen_effect n
    exact ⟨_, State.glintRecognised_exec hn h1040 h0 hhalt hdom hin, hkept.trans hcount, ht, hout⟩
  case _ =>
    intro s n hn h0 hhalt hdom hpend
    refine ⟨_, State.activityRecognised_exec hn h0 hhalt hdom hpend, ?_, (SameWords.refl _ s).inc List.mem_cons_self _, State.inc_out ..⟩
    rw [State.rd_inc_fits _ _ _ rfl]
    rfl
  case _ =>
    intro s n hn hfail hhold hon
    refine congrArg Outcome.next ((State.when_of s _ (by rw [decide_eq_true hn, hfail]; rfl)).trans ?_)
    exact State.when_of _ _ (by rw [hhold, hon]; rfl)
  case _ =>
    intro s n hn hfail hhold
    refine congrArg Outcome.next ((State.when_of s _ (by rw [decide_eq_true hn, hfail]; rfl)).trans ?_)
    exact State.when_of_not _ _ (by rw [hhold]; rfl)
  case _ =>
    intro s n hin
    exact ⟨s.holdoffOver n (s.tr n).ceilReset, congrArg Outcome.next (State.when_of s _ hin), s.holdoffOver_effect n _⟩
  case _ =>
    intro s n rates ceil km strap r hin hchosen hrate hkeys hkm
    refine ⟨_, State.speedBeacon_exec hin hchosen hrate hkeys hkm, ?_⟩
    dsimp only
    rw [State.modTr_tr, State.modTr_rd, State.rd_wr_fits _ _ _ rfl]
    exact ⟨rfl, rfl, rfl⟩
  case _ =>
    intro s n cause hact h1040 h1 h3 hsusp
    refine congrArg Outcome.next (State.when_of s _ ?_)
    rw [hact, h1040, hsusp, decide_eq_true h1, decide_eq_true (Nat.le_succ_of_le h3), bne_iff_ne.2 (show cause ≠ 4 by omega)]
    rfl
  case _ =>
    intro s n hact h1040 hmiss hsusp
    refine congrArg Outcome.next (State.when_of s _ ?_)
    rw [hact, h1040, hsusp, decide_eq_true hmiss]
    rfl
  case _ =>
    intro s p n hact hr
    have hn : n < 3 := by
      rw [State.active, Bool.and_eq_true, decide_eq_true_eq] at hact
      exact hact.1
    refine congrArg Outcome.next ((State.when_of s _ (decide_eq_true hn)).trans ?_)
    refine State.runCmd_accepted (c := cmdLinkRetrain n) hr (Nat.mod_eq_of_lt (by simp only [cmdLinkRetrain, LNK_CTRL_RETRAIN]; omega)) rfl ?_
    exact if_pos hact
  case _ =>
    intro s n hnat
    refine ⟨_, congrArg Outcome.next (State.when_of s _ hnat), ?_, (SameWords.refl _ s).of_word fun _ => State.modTr_word ..⟩
    rw [State.modTr_tr]
  case _ =>
    intro s n freed hact h1040 hlen
    refine ⟨_, congrArg Outcome.next (State.when_of s _ (by rw [hact, h1040, hlen]; rfl)), ?_, (SameWords.refl _ s).of_word fun _ => State.modPort_word ..⟩
    rw [State.modPort_port]

end Sys2Proof.Machine
end

section
/-!
PROOFS. Epoch changes of a link (R91–R98).
-/

namespace Sys2Proof.Machine

open Host (Outcome)

/-! ## The words of page CYC that an epoch change shows -/

section Words
variable (s : State) (n : Nat)

theorem State.place_word {a : Nat} (hplace : a ≠ 0x13064 + 0x1000 * n) (hisr : a ≠ (PG_ISR (cycPage n)).addr) : (s.place n).word a = s.word a := by
  have hplan (u : State) (r : Except Nat (Tbl Nat)) : (u.showPlan n r).word a = u.word a := by
    unfold State.showPlan
    split
    · rw [State.word_wr_ne _ (CYC_PLACE_STATUS_FAIL_LTN n) _ _ hplace, State.word_flag_ne _ (CYC_PLACE_STATUS_FAIL n) _ _ hplace]
    · rw [State.raise_word _ _ _ _ hisr, State.word_wr_ne _ (CYC_PLACE_STATUS_FAIL_LTN n) _ _ hplace,
        State.word_flag_ne _ (CYC_PLACE_STATUS_FAIL n) _ _ hplace]
  rw [State.place, hplan, State.word_wr_ne _ (CYC_PLACE_STATUS_SHARED n) _ _ hplace, State.word_flag_ne _ (CYC_PLACE_STATUS_VALID n) _ _ hplace]

theorem State.place_ep (k : Nat) : (s.place n).ep k = s.ep k := by
  have hplan (u : State) (r : Except Nat (Tbl Nat)) : (u.showPlan n r).ep k = u.ep k := by
    unfold State.showPlan
    split
    · rw [State.wr_ep, State.flag_ep]
    · rw [State.raise_ep, State.wr_ep, State.flag_ep]
  rw [State.place, hplan, State.wr_ep, State.flag_ep]

theorem State.showPend_ep (k : Nat) : (s.showPend n).ep k = s.ep k := by
  rw [State.showPend, State.flag_ep, State.wr_ep]

theorem State.showPend_word {a : Nat} (h : a ≠ 0x13040 + 0x1000 * n) : (s.showPend n).word a = s.word a := by
  rw [State.showPend, State.word_flag_ne _ (CYC_STATUS_PROPOSER n) _ _ h, State.word_wr_ne _ (CYC_STATUS_PEND n) _ _ h]

theorem State.showPend_change {c : Change} (h : (s.ep n).change = some c) : (s.showPend n).rd (CYC_STATUS_PEND n) = if c.accepted then 2 else 1 := by
  rw [State.showPend, h, State.rd_flag_apart _ _ _ _ rfl, State.rd_wr_fits _ _ _ rfl]
  cases c.accepted <;> rfl

theorem State.showPend_sameWords : SameWords [(CYC_STATUS_PEND n).addr] s (s.showPend n) := by
  have hmem : (CYC_STATUS_PROPOSER n).addr ∈ [(CYC_STATUS_PEND n).addr] := List.mem_singleton.2 rfl
  rw [State.showPend]
  exact ((SameWords.refl _ s).wr List.mem_cons_self _).flag hmem _

theorem State.epochResult_result {r : Nat} (x : Nat) (h : r < 16) : (s.epochResult n r x).rd (CYC_EPOCH_STATUS_RESULT n) = r := by
  rw [State.epochResult, State.rd_wr_apart _ _ _ _ rfl, State.rd_wr_fits _ _ _ rfl]
  exact Nat.mod_eq_of_lt h

theorem State.epochResult_reason (r x : Nat) : (s.epochResult n r x).rd (CYC_EPOCH_STATUS_REASON n) = x % 256 := by
  rw [State.epochResult, State.rd_wr_fits _ _ _ rfl]
  rfl

theorem State.epochResult_word (r x : Nat) {a : Nat} (h : a ≠ 0x1304C + 0x1000 * n) : (s.epochResult n r x).word a = s.word a := by
  rw [State.epochResult, State.word_wr_ne _ (CYC_EPOCH_STATUS_REASON n) _ _ h, State.word_wr_ne _ (CYC_EPOCH_STATUS_RESULT n) _ _ h]

theorem State.epochResult_ep (r x k : Nat) : (s.epochResult n r x).ep k = s.ep k := by
  rw [State.epochResult, State.wr_ep, State.wr_ep]

theorem State.epochRefused_ep (r x k : Nat) : (s.epochRefused n r x).ep k = s.ep k := by
  rw [State.epochRefused, State.raise_ep, State.inc_ep, State.epochResult_ep]

theorem cycIsr_apart {g : Fld} {k : Nat} (hg : g.addr = 0x13000 + k + 0x1000 * n) (hk : 0x10 < k) : (PG_ISR (cycPage n)).apart g = true :=
  Fld.apart_of_addr_ne (by rw [hg]; simp only [PG_ISR, cycPage]; omega)

/-- A refusal shows its result and reason and is counted. -/
theorem State.epochRefused_effect {r : Nat} (x : Nat) (h : r < 16) : (s.epochRefused n r x).rd (CYC_EPOCH_STATUS_RESULT n) = r ∧
    (s.epochRefused n r x).rd (CYC_EPOCH_STATUS_REASON n) = x % 256 ∧
    (s.epochRefused n r x).rd (CYC_EPOCH_CNT_REFUSED n) = (s.rd (CYC_EPOCH_CNT_REFUSED n) + 1) % 65536 := by
  have hcnt {g : Fld} (hg : g.addr = 0x1304C + 0x1000 * n) : (CYC_EPOCH_CNT_REFUSED n).apart g = true :=
    Fld.apart_of_addr_ne (by rw [hg]; simp only [CYC_EPOCH_CNT_REFUSED]; omega)
  rw [State.epochRefused]
  refine ⟨?_, ?_, ?_⟩
  · rw [State.rd_raise_apart _ _ _ _ (cycIsr_apart (k := 0x4C) n rfl (by decide)), State.rd_inc_apart _ _ _ _ (hcnt rfl), State.epochResult_result _ _ _ h]
  · rw [State.rd_raise_apart _ _ _ _ (cycIsr_apart (k := 0x4C) n rfl (by decide)), State.rd_inc_apart _ _ _ _ (hcnt rfl), State.epochResult_reason]
  · rw [State.rd_raise_apart _ _ _ _ (cycIsr_apart (k := 0x6C) n rfl (by decide)), State.rd_inc_fits _ _ _ rfl,
      State.rd_of_word (s.epochResult_word n r x (by simp only [CYC_EPOCH_CNT_REFUSED]; omega))]
    rfl

theorem State.enterSplit_effect : ((s.enterSplit n).ep n).split = true ∧ (s.enterSplit n).rd (CYC_EPOCH_STATUS_RESULT n) = 6 ∧
    (s.enterSplit n).rd (CYC_LATE_CNT_SPLIT n) = (s.rd (CYC_LATE_CNT_SPLIT n) + 1) % 65536 := by
  rw [State.enterSplit]
  refine ⟨?_, ?_, ?_⟩
  · rw [State.raise_ep, State.inc_ep, State.epochResult_ep, State.modEp_ep]
  · rw [State.rd_raise_apart _ _ _ _ (cycIsr_apart (k := 0x4C) n rfl (by decide)),
      State.rd_inc_apart _ _ _ _ (Fld.apart_of_addr_ne (by simp only [CYC_LATE_CNT_SPLIT, CYC_EPOCH_STATUS_RESULT]; omega)),
      State.epochResult_result _ _ _ (by decide)]
  · rw [State.rd_raise_apart _ _ _ _ (cycIsr_apart (k := 0x74) n rfl (by decide)), State.rd_inc_fits _ _ _ rfl,
      State.rd_of_word (State.epochResult_word _ n 6 0 (by simp only [CYC_LATE_CNT_SPLIT]; omega)), State.modEp_rd]
    rfl

end Words

/-- The codes of the checks go up to 8. -/
theorem State.epochChecks_le (s : State) (n : Nat) (own : Bool) (prop : Option (Allot × Nat)) : s.epochChecks n own prop ≤ 8 := by
  unfold State.epochChecks
  cases prop with
  | none =>
    dsimp only
    split_ifs <;> decide
  | some x =>
    obtain ⟨a, rcv⟩ := x
    dsimp only
    split_ifs <;> decide

theorem State.dropChange_change (s : State) (n : Nat) (c : Change) : ((s.dropChange n c).ep n).change = none := by
  rw [State.dropChange, State.modEp_ep]

/-! ## Commands of EPOCH_CTRL (R91, R95) -/

theorem State.epochCheck_effect (s : State) (n : Nat) : (s.epochCheck n).on (CYC_EPOCH_STATUS_CHECK_VALID n) = true ∧
    (s.epochCheck n).rd (CYC_EPOCH_STATUS_CHECK_CODE n) = (s.place n).epochChecks n false none % 128 := by
  rw [State.epochCheck]
  refine ⟨State.on_flag_one _ _ _ rfl, ?_⟩
  rw [State.rd_flag_apart _ _ _ _ rfl, State.rd_wr_fits _ _ _ rfl]
  rfl

/-- The plan placed and the next epoch shown. -/
def State.epochShown (s : State) (n : Nat) : State :=
  ((s.flag (CYC_EPOCH_STATUS_CHECK_VALID n) false).place n).wr (CYC_EPOCH_STATUS_EPOCH n)
    (((s.flag (CYC_EPOCH_STATUS_CHECK_VALID n) false).rd (CYC_STATUS_ACT_EPOCH n) + 1) % 256)

/-- The change that a request has in hand, once the next epoch is shown. -/
def State.ownChange (u : State) (n e : Nat) : Change :=
  ⟨true, ⟨e, 0, u.digest txSh n, u.digest rxSh n, u.caratTotal txSh n, u.caratTotal rxSh n, 0⟩, false, false⟩

theorem State.epochReq_eq (s : State) (n : Nat) : s.epochReq n =
    if ((s.epochShown n).ep n).change.isSome then (s.epochShown n).epochRefused n 2 ((s.epochShown n).epochChecks n false none)
    else ((s.epochShown n).modEp n (fun e => { e with change := some ((s.epochShown n).ownChange n
      (((s.flag (CYC_EPOCH_STATUS_CHECK_VALID n) false).rd (CYC_STATUS_ACT_EPOCH n) + 1) % 256)) })).showPend n := by
  unfold State.epochReq State.ownChange State.epochShown
  rfl

theorem State.epochReq_idle {s : State} {n : Nat} (h : (s.ep n).change = none) : ∃ c : Change, c.proposer = true ∧ c.sent = false ∧ c.accepted = false ∧
    s.epochReq n = ((s.epochShown n).modEp n (fun e => { e with change := some c })).showPend n := by
  have hidle : ((s.epochShown n).ep n).change = none := by
    rw [State.epochShown, State.wr_ep, State.place_ep, State.flag_ep, h]
  refine ⟨_, ?_, ?_, ?_, (State.epochReq_eq s n).trans (if_neg (by rw [hidle]; exact Bool.false_ne_true))⟩ <;> rfl

/-- A request with no change in hand shows the next epoch, withdraws the validity of the last check and has its change in hand. -/
theorem State.epochReq_effect {s : State} {n : Nat} (h : (s.ep n).change = none) :
    (s.epochReq n).rd (CYC_EPOCH_STATUS_EPOCH n) = (s.rd (CYC_STATUS_ACT_EPOCH n) + 1) % 256 ∧
    (s.epochReq n).on (CYC_EPOCH_STATUS_CHECK_VALID n) = false ∧
    ∃ c : Change, ((s.epochReq n).ep n).change = some c ∧ c.proposer = true ∧ c.sent = false ∧ c.accepted = false := by
  obtain ⟨c, hprop, hsent, hacc, heq⟩ := State.epochReq_idle h
  have hact : (s.flag (CYC_EPOCH_STATUS_CHECK_VALID n) false).rd (CYC_STATUS_ACT_EPOCH n) = s.rd (CYC_STATUS_ACT_EPOCH n) :=
    State.rd_flag_apart _ _ _ _ (Fld.apart_of_addr_ne (by simp only [CYC_STATUS_ACT_EPOCH, CYC_EPOCH_STATUS_CHECK_VALID]; omega))
  have hword : (s.epochReq n).word (0x1304C + 0x1000 * n) = (s.epochShown n).word (0x1304C + 0x1000 * n) := by
    rw [heq, State.showPend_word _ _ (by omega), State.modEp_word]
  refine ⟨?_, ?_, c, ?_, hprop, hsent, hacc⟩
  · rw [State.rd_of_word (f := CYC_EPOCH_STATUS_EPOCH n) hword, State.epochShown, State.rd_wr_fits _ _ _ rfl, hact]
    exact Nat.mod_mod _ _
  · rw [State.on_of_word (f := CYC_EPOCH_STATUS_CHECK_VALID n) hword, State.epochShown, State.on_wr_apart _ _ _ _ rfl,
      State.on_of_word (State.place_word _ n (by simp only [CYC_EPOCH_STATUS_CHECK_VALID]; omega)
        (by simp only [CYC_EPOCH_STATUS_CHECK_VALID, PG_ISR, cycPage]; omega)), State.on_flag_one _ _ _ rfl]
  · rw [heq, State.showPend_ep, State.modEp_ep]

theorem accepted_ep (s t : State) (p : Path) (a n : Nat) : (accepted s t p a).ep n = t.ep n := by
  have hports : (accepted s t p a).ports = t.ports := by
    rw [accepted]
    exact ((State.wrote_follows (msk := 3) rfl p a (State.applied_follows (msk := 3) rfl s p a (Follows.refl 3 t))).parts .ports rfl)
  rw [State.ep, State.port, hports, State.ep, State.port]

/-! ## The proposer's checks (R95 steps 3 and 4) -/

/-- The proposal with its swap cycle. -/
def State.epochProposed (s : State) (n : Nat) (c : Change) : State :=
  (((s.modEp n (fun e => { e with change := some { c with sent := true, body := { c.body with swap := cycAdd s.cycle (s.rd (CYC_EPOCH_CTRL_LEAD n)), prop := s.cycle } } })).wr
    (CYC_SWAP_CYCLE n) (cycAdd s.cycle (s.rd (CYC_EPOCH_CTRL_LEAD n)))).epochResult n 0 0).showPend n

theorem State.epochChecksDone_exec {s : State} {n : Nat} {c : Change} (hn : n < 3) (hc : (s.ep n).change = some c) (hprop : c.proposer = true)
    (hsent : c.sent = false) : exec (.epochChecksDone n) s = .next (if s.epochChecks n true none ≠ 0 then
      ((s.modEp n (fun e => { e with change := none })).epochRefused n 2 (s.epochChecks n true none)).showPend n else s.epochProposed n c) := by
  refine congrArg Outcome.next ((State.when_of s _ (decide_eq_true hn)).trans ?_)
  rw [hc]
  exact State.when_of _ _ (by rw [hprop, hsent]; rfl)

theorem cycAdd_lt (a n : Nat) : cycAdd a n < 2 ^ 32 := Nat.mod_lt _ (by decide)

theorem State.epochProposed_effect (s : State) (n : Nat) (c : Change) : ((s.epochProposed n c).ep n).change =
      some { c with sent := true, body := { c.body with swap := cycAdd s.cycle (s.rd (CYC_EPOCH_CTRL_LEAD n)), prop := s.cycle } } ∧
    (s.epochProposed n c).rd (CYC_EPOCH_STATUS_RESULT n) = 0 ∧ (s.epochProposed n c).rd (CYC_EPOCH_STATUS_REASON n) = 0 ∧
    (s.epochProposed n c).rd (CYC_SWAP_CYCLE n) = cycAdd s.cycle (s.rd (CYC_EPOCH_CTRL_LEAD n)) ∧
    (s.epochProposed n c).rd (CYC_STATUS_PEND n) = if c.accepted then 2 else 1 := by
  rw [State.epochProposed]
  refine ⟨?_, ?_, ?_, ?_, ?_⟩
  · rw [State.showPend_ep, State.epochResult_ep, State.wr_ep, State.modEp_ep]
  · rw [State.rd_of_word (State.showPend_word _ n (by simp only [CYC_EPOCH_STATUS_RESULT]; omega)), State.epochResult_result _ _ _ (by decide)]
  · rw [State.rd_of_word (State.showPend_word _ n (by simp only [CYC_EPOCH_STATUS_REASON]; omega)), State.epochResult_reason]
  · rw [State.rd_of_word (State.showPend_word _ n (by simp only [CYC_SWAP_CYCLE]; omega)),
      State.rd_of_word (State.epochResult_word _ n 0 0 (by simp only [CYC_SWAP_CYCLE]; omega)), State.rd_wr_fits _ _ _ rfl]
    exact Nat.mod_eq_of_lt (cycAdd_lt _ _)
  · exact State.showPend_change _ n (c := { c with sent := true, body := _ }) (by rw [State.epochResult_ep, State.wr_ep, State.modEp_ep])

/-- A change that ends with a refusal shown. -/
def State.changeRefused (s : State) (n r x : Nat) : State := ((s.modEp n (fun e => { e with change := none })).epochRefused n r x).showPend n

theorem State.changeRefused_effect (s : State) (n : Nat) {r : Nat} (x : Nat) (h : r < 16) : ((s.changeRefused n r x).ep n).change = none ∧
    (s.changeRefused n r x).rd (CYC_EPOCH_STATUS_RESULT n) = r ∧ (s.changeRefused n r x).rd (CYC_EPOCH_STATUS_REASON n) = x % 256 ∧
    (s.changeRefused n r x).rd (CYC_EPOCH_CNT_REFUSED n) = (s.rd (CYC_EPOCH_CNT_REFUSED n) + 1) % 65536 := by
  obtain ⟨hres, hreason, hcnt⟩ := (s.modEp n (fun e => { e with change := none })).epochRefused_effect n x h
  rw [State.changeRefused]
  refine ⟨?_, ?_, ?_, ?_⟩
  · rw [State.showPend_ep, State.epochRefused_ep, State.modEp_ep]
  · rw [State.rd_of_word (State.showPend_word _ n (by simp only [CYC_EPOCH_STATUS_RESULT]; omega)), hres]
  · rw [State.rd_of_word (State.showPend_word _ n (by simp only [CYC_EPOCH_STATUS_REASON]; omega)), hreason]
  · rw [State.rd_of_word (State.showPend_word _ n (by simp only [CYC_EPOCH_CNT_REFUSED]; omega)), hcnt, State.modEp_rd]

theorem ctrlAddr_mod {n : Nat} (h : n < 3) : (0x13048 + 0x1000 * n) % 0x40000 = 0x13048 + 0x1000 * n := Nat.mod_eq_of_lt (by omega)

theorem State.withdrawChk_cases (s : State) (n : Nat) : s.withdrawChk n = 0 ∨ s.withdrawChk n = 3 := by
  rw [State.withdrawChk]
  cases (s.ep n).change with
  | none => exact .inr rfl
  | some c =>
    dsimp only
    split_ifs
    · exact .inr rfl
    · exact .inl rfl

theorem State.epochReq_exec {s : State} {p : Path} {n : Nat} (hn : n < 3) (h : Reaches s p (CYC_EPOCH_CTRL_REQ n).addr) :
    exec (.epochReq p n) s = .next (accepted s (s.epochReq n) p (CYC_EPOCH_CTRL_REQ n).addr) :=
  congrArg Outcome.next ((State.when_of s _ (decide_eq_true hn)).trans (State.runCmd_accepted (c := cmdEpochReq n) h (ctrlAddr_mod hn) rfl rfl))

/-- The words of page CYC lie outside the ring and the recorder's interrupt word. -/
theorem accepted_cycWord (s t : State) (p : Path) (a : Nat) {n : Nat} (h : n < 3) :
    (accepted s t p a).word (0x1304C + 0x1000 * n) = t.word (0x1304C + 0x1000 * n) := by
  obtain rfl | rfl | rfl : n = 0 ∨ n = 1 ∨ n = 2 := by omega
  · exact accepted_word _ _ _ _ (by decide) (by decide)
  · exact accepted_word _ _ _ _ (by decide) (by decide)
  · exact accepted_word _ _ _ _ (by decide) (by decide)

/-! ## Answers of the far end (R95 steps 5 and 6, R96) -/

/-- The own proposal stands against one of the far end, which is answered with a refusal. -/
def State.proposalKept (s : State) (n : Nat) (a : Allot) : State :=
  (((s.modEp n (fun e => { e with answered := some a.prop })).queueUnit n (.allot 3 0x0A a)).inc (CYC_EPOCH_CNT_REFUSED n)).raise (cycPage n) 1

theorem State.queueUnit_eps (s : State) (n : Nat) (u : CtlUnit) : ((s.queueUnit n u).ep n).change = (s.ep n).change ∧
    ((s.queueUnit n u).ep n).answered = (s.ep n).answered := by
  rw [State.queueUnit, State.modEp_ep]
  exact ⟨rfl, rfl⟩

theorem State.proposalKept_effect (s : State) (n : Nat) (a : Allot) : ((s.proposalKept n a).ep n).change = (s.ep n).change ∧
    ((s.proposalKept n a).ep n).units = (s.ep n).units ++ [.allot 3 0x0A a] ∧ ((s.proposalKept n a).ep n).answered = some a.prop := by
  obtain ⟨hchange, hans⟩ := (s.modEp n (fun e => { e with answered := some a.prop })).queueUnit_eps n (.allot 3 0x0A a)
  rw [State.proposalKept, State.raise_ep, State.inc_ep]
  refine ⟨?_, ?_, ?_⟩
  · rw [hchange, State.modEp_ep]
  · rw [State.queueUnit_ep, State.modEp_ep]
  · rw [hans, State.modEp_ep]

theorem State.proposes_of {s : State} {n : Nat} {a : Allot} (hnat : s.native n = true) (hans : (s.ep n).answered ≠ some a.prop) :
    (s.native n && (s.ep n).answered != some a.prop) = true := by
  rw [hnat, Bool.true_and]
  exact bne_iff_ne.2 hans

theorem State.allotPropose_mine {s : State} {n : Nat} {a : Allot} {c : Change} (hnat : s.native n = true) (hans : (s.ep n).answered ≠ some a.prop)
    (hc : (s.ep n).change = some c) (hprop : c.proposer = true) (hsent : c.sent = true) (hacc : c.accepted = false) :
    exec (.allotPropose n a) s = .next (if s.on (LNK_STATUS_PARENT n) then s.proposalKept n a
      else ((s.modEp n (fun e => { e with change := none })).epochRefused n 3 0x0A).answerProposal n a) := by
  refine congrArg Outcome.next ((State.when_of s _ (State.proposes_of hnat hans)).trans ?_)
  rw [hc]
  exact if_pos (by rw [hprop, hsent, hacc]; rfl)

/-! ## The end of an accepted change and of its settling (R95 step 8, R97, R98) -/

/-- The own change confirmed. -/
def State.changeAccepted (s : State) (n : Nat) (c : Change) : State :=
  (s.modEp n (fun e => { e with change := some { c with accepted := true } })).showPend n

/-- The change of the far end withdrawn. -/
def State.changeWithdrawn (s : State) (n : Nat) (c : Change) : State := ((s.dropChange n c).epochResult n 4 0).showPend n

/-- The last swap forgotten. -/
def State.swapForgotten (s : State) (n : Nat) : State :=
  ((s.modEp n (fun e => { e with last := none, lateDue := false })).dropOldLtns n).showPend n

theorem State.dropOldLtns_ep (s : State) (n k : Nat) : (s.dropOldLtns n).ep k = s.ep k := by
  rw [State.ep, State.port, State.ep, State.port, State.dropOldLtns]

theorem State.swapForgotten_effect (s : State) (n : Nat) : ((s.swapForgotten n).ep n).last = none ∧ ((s.swapForgotten n).ep n).lateDue = false ∧
    SameWords [(CYC_STATUS_PEND n).addr] s (s.swapForgotten n) := by
  have hep : (s.swapForgotten n).ep n = { s.ep n with last := none, lateDue := false } := by
    rw [State.swapForgotten, State.showPend_ep, State.dropOldLtns_ep, State.modEp_ep]
  refine ⟨by rw [hep], by rw [hep], ?_⟩
  rw [State.swapForgotten]
  refine SameWords.trans (t := (s.modEp n (fun e => { e with last := none, lateDue := false })).dropOldLtns n) ?_ (State.showPend_sameWords _ n)
  exact (SameWords.refl _ s).of_word fun w => by rw [State.dropOldLtns_word, State.modEp_word]

theorem State.epochLateSwap_exec {s : State} {n : Nat} {l : LastChange} (hnat : s.native n = true) (hdue : (s.ep n).lateDue = true)
    (hsplit : (s.ep n).split = false) (hl : (s.ep n).last = some l) (hsw : l.swapped = false) :
    exec (.epochLateSwap n) s = .next (if s.digest txSh n = l.digTx ∧ s.digest rxSh n = l.digRx then
      (((s.modEp n (fun e => { e with last := some { l with swapped := true }, lateDue := false, change := none })).swapPlans n 5).inc
        (CYC_LATE_CNT_LATE n)).raise (cycPage n) 2 else s.enterSplit n) := by
  refine congrArg Outcome.next ((State.when_of s _ (by rw [hnat, hdue, hsplit]; rfl)).trans ?_)
  rw [hl]
  exact if_neg (by rw [hsw]; exact Bool.false_ne_true)

/-- Settles O12: each command and message of an epoch change is the rule of its case; the words that it shows are read with the lemmas above. -/
theorem epochChangeCommands : Obligations.EpochChangeCommands := by
  unfold Obligations.EpochChangeCommands
  refine ⟨⟨?_, ?_, ?_, ?_, ?_, ?_, ?_, ?_, ?_, ?_, ?_, ?_, ?_⟩, ⟨?_, ?_, ?_, ?_, ?_, ?_, ?_⟩⟩
  case refine_1 =>
    intro s p n hn h
    exact congrArg Outcome.next ((State.when_of s _ (decide_eq_true hn)).trans
      (State.runCmd_accepted (c := cmdEpochCheck n) h (ctrlAddr_mod hn) rfl rfl))
  case refine_2 =>
    intro s n
    exact s.epochCheck_effect n
  case refine_3 =>
    intro s p n hn h
    exact State.epochReq_exec hn h
  case refine_4 =>
    intro s p n hn h hchk
    exact congrArg Outcome.next ((State.when_of s _ (decide_eq_true hn)).trans
      (State.runCmd_accepted (c := cmdEpochWithdraw n) h (ctrlAddr_mod hn) hchk rfl))
  case refine_5 =>
    intro s n c hn hc hprop hsent hchk
    refine ⟨s.epochProposed n c, ?_, s.epochProposed_effect n c⟩
    rw [State.epochChecksDone_exec hn hc hprop hsent, if_neg (not_not_intro hchk)]
  case refine_6 =>
    intro s n c hn hc hprop hsent hacc hge
    refine congrArg Outcome.next ((State.when_of s _ (decide_eq_true hn)).trans ?_)
    rw [hc]
    exact State.when_of _ _ (by rw [hprop, hsent, hacc, hge]; rfl)
  case refine_7 =>
    intro s n a c hnat hc hprop hsent hsame
    have hexec : exec (.allotAccept n a) s = .next (s.changeAccepted n c) := by
      refine congrArg Outcome.next ((State.when_of s _ hnat).trans ?_)
      rw [hc]
      exact State.when_of _ _ (by rw [hprop, hsent, hsame]; rfl)
    refine ⟨_, hexec, ?_, ?_, ?_⟩
    · rw [State.changeAccepted, State.showPend_ep, State.modEp_ep]
    · exact State.showPend_change _ n (c := { c with accepted := true }) (by rw [State.modEp_ep])
    · exact ((SameWords.refl _ s).of_word fun w => State.modEp_word ..).trans (State.showPend_sameWords _ n)
  case refine_8 =>
    intro s n a c r hnat hc hprop hsent hacc hsame
    have hexec : exec (.allotRefuse n a r) s = .next (s.changeRefused n 3 r) := by
      refine congrArg Outcome.next ((State.when_of s _ hnat).trans ?_)
      rw [hc]
      exact State.when_of _ _ (by rw [hprop, hsent, hacc, hsame]; rfl)
    exact ⟨_, hexec, s.changeRefused_effect n r (by decide)⟩
  case refine_9 =>
    intro s n a c hnat hc hprop hsame
    have hexec : exec (.allotWithdraw n a) s = .next (s.changeWithdrawn n c) := by
      refine congrArg Outcome.next ((State.when_of s _ hnat).trans ?_)
      rw [hc]
      exact State.when_of _ _ (by rw [hprop, hsame]; rfl)
    refine ⟨_, hexec, ?_, ?_⟩
    · rw [State.changeWithdrawn, State.showPend_ep, State.epochResult_ep, State.dropChange_change]
    · rw [State.changeWithdrawn, State.rd_of_word (State.showPend_word _ n (by simp only [CYC_EPOCH_STATUS_RESULT]; omega)),
        State.epochResult_result _ _ _ (by decide)]
  case refine_10 =>
    intro s n l hn hl hlater
    have hexec : exec (.epochSettleEnd n) s = .next (s.swapForgotten n) := by
      refine congrArg Outcome.next ((State.when_of s _ (decide_eq_true hn)).trans ?_)
      rw [hl]
      exact State.when_of _ _ hlater
    exact ⟨_, hexec, s.swapForgotten_effect n⟩
  case refine_11 =>
    intro s n c hn hc hprop hsent hchk
    obtain ⟨hnone, hres, hreason, hcnt⟩ := s.changeRefused_effect n (s.epochChecks n true none) (r := 2) (by decide)
    refine ⟨s.changeRefused n 2 (s.epochChecks n true none), ?_, hnone, hres, ?_, hcnt⟩
    · rw [State.epochChecksDone_exec hn hc hprop hsent, if_pos hchk, State.changeRefused]
    · rw [hreason]
      exact Nat.mod_eq_of_lt (Nat.lt_of_le_of_lt (s.epochChecks_le n true none) (by decide))
  case refine_12 =>
    intro s p n c hn hnone h
    obtain ⟨hepoch, hvalid, d, hd, hkind⟩ := State.epochReq_effect hnone
    have hword := accepted_cycWord s (s.epochReq n) p (CYC_EPOCH_CTRL_REQ n).addr hn
    refine ⟨_, State.epochReq_exec hn h, accepted_complete _ _ _ _, ?_, ?_, ?_, ?_⟩
    · rw [State.rd_of_word (f := CYC_EPOCH_STATUS_EPOCH n) hword, hepoch]
    · rw [State.on_of_word (f := CYC_EPOCH_STATUS_CHECK_VALID n) hword, hvalid]
    · rw [accepted_ep, hd]
      rintro heq
      obtain rfl := Option.some.inj heq
      exact hkind
    · rw [accepted_ep, hd]
      exact Option.some_ne_none d
  case refine_13 =>
    intro s p n hn h hchk
    have hcode : s.withdrawChk n = 3 := (s.withdrawChk_cases n).resolve_left hchk
    exact congrArg Outcome.next ((State.when_of s _ (decide_eq_true hn)).trans
      (State.runCmd_rejected (c := cmdEpochWithdraw n) h (ctrlAddr_mod hn) (by decide) hcode))
  case refine_14 =>
    intro s n a hnat hans hnone
    refine congrArg Outcome.next ((State.when_of s _ (State.proposes_of hnat hans)).trans ?_)
    rw [hnone]
  case refine_15 =>
    intro s n a c hnat hans hc hprop hsent hacc hpar
    refine ⟨s.proposalKept n a, ?_, ?_⟩
    · rw [State.allotPropose_mine hnat hans hc hprop hsent hacc, if_pos hpar]
    · rw [← hc]
      exact s.proposalKept_effect n a
  case refine_16 =>
    intro s n a c hnat hans hc hprop hsent hacc hpar
    rw [State.allotPropose_mine hnat hans hc hprop hsent hacc, if_neg (by rw [hpar]; exact Bool.false_ne_true)]
  case refine_17 =>
    intro s n c hnat hc hacc hge hmoves
    refine congrArg Outcome.next ((State.when_of s _ hnat).trans ?_)
    rw [hc]
    exact State.when_of _ _ (by rw [hacc, hge, hmoves]; rfl)
  case refine_18 =>
    intro s n l hnat hdue hsplit hl hsw htx hrx
    rw [State.epochLateSwap_exec hnat hdue hsplit hl hsw, if_pos ⟨htx, hrx⟩]
  case refine_19 =>
    intro s n l hnat hdue hsplit hl hsw htx
    refine ⟨s.enterSplit n, ?_, s.enterSplit_effect n⟩
    rw [State.epochLateSwap_exec hnat hdue hsplit hl hsw, if_neg fun h => htx h.1]
  case refine_20 =>
    intro s n hnat hsplit hfar hlast hnone
    obtain ⟨hspl, hres, -⟩ := s.enterSplit_effect n
    refine ⟨s.enterSplit n, ?_, hspl, hres⟩
    refine congrArg Outcome.next ((State.when_of s _ (by rw [hnat, hsplit]; rfl)).trans ?_)
    rw [hfar, hlast, hnone]
    exact State.when_of _ _ (by dsimp only; rw [beq_self_eq_true]; rfl)

end Sys2Proof.Machine
end

section
/-!
PROOFS. A received control slot and the wake, state and acknowledgement messages (R57, R81, R117, R352).
-/

namespace Sys2Proof.Machine

open Host (Outcome)

/-! ## The outcome of error correction (R57) -/

/-- A field into which its own value is written leaves the word as it is. -/
theorem Fld.put_get (f : Fld) (w : Word) (h : f.fits = true) : f.put (f.get w) w = w := by
  obtain ⟨hle, hhi⟩ := (Fld.fits_iff f).1 h
  refine BitVec.eq_of_getLsbD_eq fun i hi => ?_
  rw [← BitVec.testBit_toNat, ← BitVec.testBit_toNat, Fld.put_testBit _ _ _ _ hle hi, Fld.get_testBit, Fld.width_def]
  split
  · next hin =>
    rw [decide_eq_true (by omega), Bool.true_and, Nat.add_sub_cancel' hin.1]
  · rfl

theorem State.inc_zero_word (s : State) (f : Fld) (h : f.fits = true) (a : Nat) : (s.inc f 0).word a = s.word a := by
  rw [State.inc, State.wr, State.word_setWord]
  split
  · next ha =>
    subst ha
    exact Fld.put_get f _ h
  · rfl

theorem State.fecCount_none_word (s : State) (n co a : Nat) : (s.fecCount n co 0).word a = (s.inc (LNK_FEC_CORR n) co).word a := by
  rw [State.fecCount, State.when_of_not _ _ (bne_self_eq_false 0), State.inc_zero_word _ _ rfl]

/-- A slot that the link receives in CYCLE or ACTIVE. -/
theorem State.receives_of {s : State} {n : Nat}
    (h : n < 3 ∧ (s.tstate n = tCycle ∨ s.tstate n = tActive) ∧ s.on (LNK_STATUS_MODE1040 n) = false) :
    (decide (n < 3) && (s.tstate n == tCycle || s.tstate n == tActive) && !s.on (LNK_STATUS_MODE1040 n)) = true := by
  obtain ⟨hn, hst, h1040⟩ := h
  rw [decide_eq_true hn, h1040]
  obtain hst | hst := hst <;> rw [hst] <;> rfl

/-! ## The slot (R81) -/

section Slot
variable {s : State} {n j m k e c tr ar co un : Nat} {pl : List Byte}

theorem State.controlSlot_void (h : n < 3 ∧ (s.tstate n = tCycle ∨ s.tstate n = tActive) ∧ s.on (LNK_STATUS_MODE1040 n) = false) :
    exec (.controlSlotReceived n j m k e c pl tr ar ⟨true, co, un⟩) s = .next ((s.fecCount n co un).inc (LNK_CELLS_VOID n)) :=
  congrArg Outcome.next (State.when_of s _ (State.receives_of h))

theorem State.controlSlot_unverified (h : n < 3 ∧ (s.tstate n = tCycle ∨ s.tstate n = tActive) ∧ s.on (LNK_STATUS_MODE1040 n) = false)
    (hopen : (s.fecCount n co un).openCtl n j m k e c (pad128 pl) tr = (false, false))
    (hnext : (s.fecCount n co un).verifiesNext n (61 * j) c k (beBytes 8 (ctlHeader j m k e c) ++ pad128 pl) [] tr = false) :
    exec (.controlSlotReceived n j m k e c pl tr ar ⟨false, co, un⟩) s = .next (((s.fecCount n co un).inc (CYC_CTRL_BAD n)).raise (cycPage n) 4) := by
  refine congrArg Outcome.next ((State.when_of s _ (State.receives_of h)).trans ?_)
  generalize s.fecCount n co un = u at hopen hnext
  dsimp only
  rw [hopen, hnext, if_neg Bool.false_ne_true, State.when_of_not _ _ rfl, State.when_of_not _ _ rfl]
  exact if_pos rfl

theorem State.controlSlot_mismatched (h : n < 3 ∧ (s.tstate n = tCycle ∨ s.tstate n = tActive) ∧ s.on (LNK_STATUS_MODE1040 n) = false)
    (hopen : (s.fecCount n co un).openCtl n j m k e c (pad128 pl) tr = (true, false)) (hc : c ≠ (s.fecCount n co un).arrivalCycle n ar) :
    exec (.controlSlotReceived n j m k e c pl tr ar ⟨false, co, un⟩) s =
      .next ((((s.fecCount n co un).modEp n (fun e => { e with mismatch := true })).inc (CYC_CTRL_BAD n)).raise (cycPage n) 4) := by
  refine congrArg Outcome.next ((State.when_of s _ (State.receives_of h)).trans ?_)
  generalize s.fecCount n co un = u at hopen hc
  dsimp only
  rw [hopen, if_neg Bool.false_ne_true]
  exact (if_neg Bool.false_ne_true).trans (if_pos hc)

theorem State.controlSlot_valid (h : n < 3 ∧ (s.tstate n = tCycle ∨ s.tstate n = tActive) ∧ s.on (LNK_STATUS_MODE1040 n) = false)
    (hopen : (s.fecCount n co un).openCtl n j m k e c (pad128 pl) tr = (true, false)) (hc : c = (s.fecCount n co un).arrivalCycle n ar) :
    exec (.controlSlotReceived n j m k e c pl tr ar ⟨false, co, un⟩) s = .next ((s.fecCount n co un).slotValid n c) := by
  refine congrArg Outcome.next ((State.when_of s _ (State.receives_of h)).trans ?_)
  generalize s.fecCount n co un = u at hopen hc
  dsimp only
  rw [hopen, if_neg Bool.false_ne_true]
  exact (if_neg Bool.false_ne_true).trans (if_neg (not_not_intro hc))

end Slot

/-- Settles O13: each slot takes the branch of its outcome; a voided slot without an uncorrectable pair writes two counters only. -/
theorem controlSlotCommandsComplete : Obligations.ControlSlotCommandsComplete := by
  unfold Obligations.ControlSlotCommandsComplete
  dsimp only
  refine ⟨?_, ?_, ?_, ?_, ?_, ?_, ?_, ?_⟩
  case refine_1 =>
    intro s n j m k e c pl tr ar co un h
    exact State.controlSlot_void h
  case refine_2 =>
    intro s n j m k e c pl tr ar co h
    have hvoid : (s.fecCount n co 0).rd (LNK_CELLS_VOID n) = s.rd (LNK_CELLS_VOID n) := by
      rw [State.rd_of_word (s.fecCount_none_word n co _)]
      exact State.rd_inc_apart _ _ _ _ (Fld.apart_of_addr_ne (by simp only [LNK_CELLS_VOID, LNK_FEC_CORR]; omega))
    refine ⟨_, State.controlSlot_void h, ?_, ?_, ?_⟩
    · rw [State.rd_inc_fits _ _ _ rfl, hvoid]
      rfl
    · rw [State.rd_inc_apart _ _ _ _ (Fld.apart_of_addr_ne (by simp only [LNK_CELLS_VOID, LNK_FEC_CORR]; omega)),
        State.rd_of_word (s.fecCount_none_word n co _), State.rd_inc_fits _ _ _ rfl]
      rfl
    · have hcorr : SameWords [(LNK_CELLS_VOID n).addr, (LNK_FEC_CORR n).addr] s (s.inc (LNK_FEC_CORR n) co) :=
        (SameWords.refl _ s).inc (List.mem_cons_of_mem _ (List.mem_singleton.2 rfl)) co
      exact (hcorr.of_word (s.fecCount_none_word n co)).inc List.mem_cons_self 1
  case refine_3 =>
    intro s n j m k e c pl tr ar co un h hopen hnext
    exact State.controlSlot_unverified h hopen hnext
  case refine_4 =>
    intro s n j m k e c pl tr ar co un h hopen hc
    exact State.controlSlot_mismatched h hopen hc
  case refine_5 =>
    intro s n j m k e c pl tr ar co un h hopen hc
    exact State.controlSlot_valid h hopen hc
  case refine_6 =>
    intro s n c hnat hge
    exact congrArg Outcome.next (State.when_of s _ (by rw [hnat, hge]; rfl))
  case refine_7 =>
    intro s n p hnat
    refine ⟨_, congrArg Outcome.next (State.when_of s _ hnat), ?_, ?_⟩
    · rw [State.modPort_port]
    · exact (SameWords.refl _ s).of_word fun w => State.modPort_word ..
  case refine_8 =>
    intro s n es hnat
    exact congrArg Outcome.next (State.when_of s _ hnat)

end Sys2Proof.Machine
end

section
/-!
PROOFS. The context window and the waits of a context (R105–R111, R118, R122, R123).
-/

namespace Sys2Proof.Machine

open Host (Outcome)

/-! ## Bits that stay raised, and words that are cleared -/

/-- A bit of an interrupt register stays when another one is raised. -/
theorem State.raise_isr_of (s : State) {p b k : Nat} (h : (s.word (PG_ISR p).addr).getLsbD k = true) :
    ((s.raise p b).word (PG_ISR p).addr).getLsbD k = true := by
  rw [State.raise, State.raiseMask_isr, BitVec.getLsbD_or, h, Bool.true_or]

/-- A capture leaves the bits of the interrupt register raised. -/
theorem State.capture_isr_of (s : State) {page k : Nat} (p : Path) (code word data : Nat) (h : (s.word (PG_ISR page).addr).getLsbD k = true) :
    ((s.capture page p code word data).word (PG_ISR page).addr).getLsbD k = true := by
  have hcode : (PG_ISR page).addr ≠ (PG_ERRCAP_CODE page).addr := by simp only [PG_ISR, PG_ERRCAP_CODE]; omega
  have hval : (PG_ISR page).addr ≠ (PG_ERRVAL page).addr := by simp only [PG_ISR, PG_ERRVAL]; omega
  have hnote : (s.noteReject page code p.num word data).word (PG_ISR page).addr = s.word (PG_ISR page).addr := by
    unfold State.noteReject
    exact State.ite_word rfl (State.mk_word ..)
  rw [State.capture]
  refine State.raise_isr_of _ ?_
  rw [State.ite_word (s := s), h]
  · rw [State.word_flag_ne _ (PG_ERRCAP_MORE page) _ _ hcode, hnote]
  · rw [State.putCapture, State.word_wr_ne _ _ _ _ hval, State.word_wr_ne _ (PG_ERRCAP_WORD page) _ _ hcode,
      State.word_wr_ne _ (PG_ERRCAP_MORE page) _ _ hcode, State.word_wr_ne _ (PG_ERRCAP_IF page) _ _ hcode, State.word_wr_ne _ _ _ _ hcode, hnote]

/-- Each word that a fold writes holds the value afterwards. -/
theorem foldS_setWord_mem {α : Type} (A : α → Nat) (v : Word) (xs : List α) (s : State) {k : α} (hk : k ∈ xs) :
    (foldS xs (fun s x => s.setWord (A x) v) s).word (A k) = v := by
  induction xs generalizing s with
  | nil => cases hk
  | cons x xs ih =>
    obtain rfl | hk := List.mem_cons.1 hk
    · change (foldS xs _ (s.setWord (A k) v)).word (A k) = v
      exact foldS_induct (P := fun t => t.word (A k) = v) (State.word_setWord_self ..) fun u y _ hu => by
        rw [State.word_setWord, hu, ite_self]
    · exact ih _ hk

/-! ## The window (R106, R107) -/

theorem path_num_lt (p : Path) : p.num < 4 := by cases p <;> decide

section Window
variable (s : State) (p : Path)

theorem State.tunLast_effect {cmd : Nat} (h : cmd < 16) : (s.tunLast p cmd).rd (TUN_STATUS_LAST_CMD.onPath p) = cmd ∧
    (s.tunLast p cmd).rd (TUN_STATUS_LAST_CTX.onPath p) = s.tunSel p := by
  rw [State.tunLast]
  refine ⟨?_, ?_⟩
  · rw [State.rd_wr_fits _ _ _ rfl]
    exact Nat.mod_eq_of_lt h
  · rw [State.rd_wr_apart _ _ _ _ rfl, State.rd_wr_fits _ _ _ rfl]
    exact Nat.mod_eq_of_lt (State.rd_lt _ _)

theorem State.tunLast_word {cmd a : Nat} (h : a ≠ (TUN_STATUS_LAST_CMD.onPath p).addr) : (s.tunLast p cmd).word a = s.word a := by
  rw [State.tunLast, State.word_wr_ne _ _ _ _ h, State.word_wr_ne _ (TUN_STATUS_LAST_CTX.onPath p) _ _ h]

/-- The window filled with the words of a context. -/
def State.windowFilled (c : Nat) : State :=
  foldS (List.range 32) (fun s k => s.wr (winWord p k) (s.word (0x200000 + 0x80 * c + 4 * k)).toNat) s

theorem State.tunLoad_eq : s.tunLoad p = ((s.showCarats (s.tunSel p)).windowFilled p (s.tunSel p)).tunLast p 1 := by
  rw [State.tunLoad, State.windowFilled]

theorem winWord_addr (k : Nat) : (winWord p k).addr = 0x0F100 + 4 * k + 0x40000 * p.num := rfl

theorem State.windowFilled_rd (c : Nat) {k : Nat} (hk : k < 32) :
    (s.windowFilled p c).rd (winWord p k) = (s.word (0x200000 + 0x80 * c + 4 * k)).toNat := by
  have hp := path_num_lt p
  rw [State.windowFilled, foldS_wr_rd_mem (v := fun s k => (s.word (0x200000 + 0x80 * c + 4 * k)).toNat) _ _ List.nodup_range (List.mem_range.2 hk) rfl]
  · exact Nat.mod_eq_of_lt (s.word _).isLt
  · exact fun x _ hx => Fld.apart_of_addr_ne (by rw [winWord_addr, winWord_addr]; omega)
  · refine fun t ht => congrArg BitVec.toNat (ht _ fun hmem => ?_)
    obtain ⟨x, hx, ha⟩ := List.mem_map.1 hmem
    rw [winWord_addr] at ha
    have := List.mem_range.1 hx
    omega

theorem State.windowFilled_word (c : Nat) {a : Nat} (h : ∀ k < 32, a ≠ (winWord p k).addr) : (s.windowFilled p c).word a = s.word a :=
  foldS_word_mem _ _ fun u k hk => State.word_wr_ne u _ _ _ (h k (List.mem_range.1 hk))

theorem State.showCarats_word (c : Nat) {a : Nat} (h : a ≠ 0x20001C + 0x80 * c) : (s.showCarats c).word a = s.word a := by
  rw [State.showCarats, State.word_wr_ne _ (CTX_CARATS_B c) _ _ h, State.word_wr_ne _ (CTX_CARATS_A c) _ _ h]

theorem State.tunLoad_sel : ((s.showCarats (s.tunSel p)).windowFilled p (s.tunSel p)).tunSel p = s.tunSel p := by
  have hp := path_num_lt p
  have haddr : (TUN_SEL_CTX.onPath p).addr = 0x0F040 + 0x40000 * p.num := rfl
  refine State.rd_of_word ?_
  rw [State.windowFilled_word _ _ _ fun k _ => by rw [winWord_addr, haddr]; omega, State.showCarats_word _ _ (by rw [haddr]; omega)]

theorem State.tunLoad_words {k : Nat} (hk : k < 32) (h7 : k ≠ 7) :
    (s.tunLoad p).rd (winWord p k) = (s.word (0x200000 + 0x80 * s.tunSel p + 4 * k)).toNat := by
  have haddr : (TUN_STATUS_LAST_CMD.onPath p).addr = 0x0F048 + 0x40000 * p.num := rfl
  rw [State.tunLoad_eq, State.rd_of_word (State.tunLast_word _ _ (by rw [haddr, winWord_addr]; omega)), State.windowFilled_rd _ _ _ hk,
    State.showCarats_word _ _ (by omega)]

end Window

/-! ## REBASE -/

theorem State.closeRx_flow (s : State) (c : Nat) : FlowsOnly true s (s.closeRx c) := by
  unfold State.closeRx
  split
  · exact .refl s
  · next r _ =>
    have hrx : FlowsOnly true s (s.modCtx c (fun t => { t with rx := none })) := .of_word fun a => State.modCtx_word ..
    refine .ite (fun _ => hrx.when _ fun u => (FlowsOnly.refl u).inc (.inl (by simp only [CTX_DROP_INC]; omega)) 1) fun _ => ?_
    exact hrx.trans (State.store_flow _ _ _ _ fun d _ => .inl rfl)

theorem not_flowWord_tunStatus (p : Path) : ¬ FlowWord true (TUN_STATUS_LAST_CMD.onPath p).addr := by
  unfold FlowWord
  cases p <;> decide

theorem State.dropBase_status (s : State) (c : Nat) (p : Path) :
    (s.dropBase c).word (TUN_STATUS_LAST_CMD.onPath p).addr = s.word (TUN_STATUS_LAST_CMD.onPath p).addr := by
  have hp := path_num_lt p
  have haddr : (TUN_STATUS_LAST_CMD.onPath p).addr = 0x0F048 + 0x40000 * p.num := rfl
  rw [State.dropBase, State.closeRx_flow _ _ _ (not_flowWord_tunStatus p), State.word_flag_ne _ _ _ _ (by rw [haddr]; simp only [CTX_STATE_BASE]; omega)]

theorem State.tunRebase_effect (s : State) (p : Path) : (s.tunRebase p).rd (TUN_STATUS_LAST_CMD.onPath p) = 4 ∧
    (s.tunRebase p).rd (TUN_STATUS_LAST_CTX.onPath p) = s.tunSel p := by
  have hword : (s.tunRebase p).word (TUN_STATUS_LAST_CMD.onPath p).addr = (s.tunLast p 4).word (TUN_STATUS_LAST_CMD.onPath p).addr := by
    rw [State.tunRebase]
    exact State.when_keeps (fun t => t.word (TUN_STATUS_LAST_CMD.onPath p).addr) (f := (·.dropBase (s.tunSel p))) (State.dropBase_status _ _ p)
  obtain ⟨hcmd, hctx⟩ := s.tunLast_effect p (cmd := 4) (by decide)
  exact ⟨(State.rd_of_word hword).trans hcmd, (State.rd_of_word (f := TUN_STATUS_LAST_CTX.onPath p) hword).trans hctx⟩

/-! ## COMMIT -/

theorem foldl_min_le (l : List Nat) (a : Nat) : l.foldl min a ≤ a := by
  induction l generalizing a with
  | nil => exact Nat.le_refl a
  | cons x l ih => exact (ih (min a x)).trans (Nat.min_le_left a x)

/-- A reason is shown in the eight bits of REASON. -/
theorem State.commitCheck_lt {s : State} {c k r : Nat} {w : List Nat} (h : s.commitCheck c w = some (k, r)) : r < 256 := by
  unfold State.commitCheck at h
  split at h
  · cases h
    decide
  · obtain ⟨e, -, he⟩ := Option.map_eq_some_iff.1 h
    cases he
    exact Nat.lt_of_le_of_lt (foldl_min_le _ _) (by decide)

/-- The window's words, as COMMIT takes them. -/
theorem State.tunCommit_passed {s : State} {p : Path} (h : (s.tunLast p 2).commitCheck (s.tunSel p) ((List.range 32).map (fun k => s.rd (winWord p k))) = none) :
    s.tunCommit p = ((s.tunLast p 2).commitApply (s.tunSel p) ((List.range 32).map (fun k => s.rd (winWord p k)))).wr (TUN_STATUS_REASON.onPath p) 0 := by
  rw [State.tunCommit]
  rw [h]

theorem State.tunCommit_failed {s : State} {p : Path} {k r : Nat}
    (h : (s.tunLast p 2).commitCheck (s.tunSel p) ((List.range 32).map (fun k => s.rd (winWord p k))) = some (k, r)) :
    s.tunCommit p = (((s.tunLast p 2).wr (TUN_STATUS_REASON.onPath p) r).raise 15 1).capture 15 p (commitCode r) ((0x100 + 4 * k) / 4)
      (((List.range 32).map (fun k => s.rd (winWord p k)))[k]?.getD 0) := by
  rw [State.tunCommit]
  rw [h]

theorem tunStatus_apart (p : Path) : (TUN_STATUS_REASON.onPath p).addr ∉ captureWords 15 ∧ (TUN_STATUS_REASON.onPath p).addr ≠ (PG_ISR 15).addr := by
  cases p <;> decide

/-! ## Waits of a context (R105, R110, R111, R118, R122, R123) -/

/-- The fold over the contexts after pairs have left quarantine leaves the quarantine as it is. -/
theorem State.encChecks_quar (s : State) :
    (foldS (List.range 256) (fun s c => s.when (s.ctxLife c == lifeStarting) (·.encCheck c)) s).quar = s.quar :=
  (foldS_follows _ _ (fun u c hu => State.when_follows hu _ fun y hy => State.encCheck_follows (msk := 330) rfl c hy) (Follows.refl 330 s)).parts .quar rfl

/-- The quarantine without the pairs that are due. -/
def State.quarEnded (s : State) (port ltn : Nat) : State :=
  foldS (List.range 256) (fun s c => s.when (s.ctxLife c == lifeStarting) (·.encCheck c))
    { s with quar := s.quar.filter (fun q => !(q.port == port && q.ltn == ltn && cycGe s.cycle q.upTo)) }

theorem State.quarEnded_quar (s : State) (port ltn : Nat) :
    (s.quarEnded port ltn).quar = s.quar.filter (fun q => !(q.port == port && q.ltn == ltn && cycGe s.cycle q.upTo)) := by
  rw [State.quarEnded, State.encChecks_quar]

/-- Settles O14: the window commands are command writes whose effect is read word by word; each wait ends with the rule of its case. -/
theorem contextWindowAndTimers : Obligations.ContextWindowAndTimers := by
  unfold Obligations.ContextWindowAndTimers
  refine ⟨⟨?_, ?_, ?_, ?_, ?_, ?_, ?_, ?_, ?_, ?_⟩, ⟨?_, ?_, ?_, ?_, ?_, ?_⟩⟩
  case refine_1 => exact fun s p h => congrArg Outcome.next (State.runCmd_accepted (c := cmdTunLoad p) h rfl rfl rfl)
  case refine_2 => exact fun s p h => congrArg Outcome.next (State.runCmd_accepted (c := cmdTunCommit p) h rfl rfl rfl)
  case refine_3 => exact fun s p h => congrArg Outcome.next (State.runCmd_accepted (c := cmdTunRebase p) h rfl rfl rfl)
  case refine_4 => exact fun s p h => congrArg Outcome.next (State.runCmd_accepted (c := cmdTunClrCnt p) h rfl rfl rfl)
  case refine_5 =>
    intro s p
    rw [State.tunLoad_eq]
    obtain ⟨hcmd, hctx⟩ := State.tunLast_effect ((s.showCarats (s.tunSel p)).windowFilled p (s.tunSel p)) p (cmd := 1) (by decide)
    exact ⟨hcmd, hctx.trans (s.tunLoad_sel p)⟩
  case refine_6 =>
    intro s p h
    rw [State.tunCommit_passed h, State.rd_wr_fits _ _ _ rfl]
    exact Nat.zero_mod _
  case refine_7 =>
    intro s p k hk
    exact foldS_setWord_mem (fun k => 0x200040 + 0x80 * s.tunSel p + 4 * k) 0 _ _ (List.mem_range.2 hk)
  case refine_8 =>
    intro s p k r h
    obtain ⟨hcap, hisr⟩ := tunStatus_apart p
    rw [State.tunCommit_failed h]
    refine ⟨?_, State.capture_isr_of _ _ _ _ _ (State.raise_bit _ _ _ (by decide))⟩
    rw [State.capture_rd _ _ _ _ _ _ hcap, State.raise_rd _ _ _ _ hisr, State.rd_wr_fits _ _ _ rfl]
    exact Nat.mod_eq_of_lt (State.commitCheck_lt h)
  case refine_9 => exact fun s p => s.tunRebase_effect p
  case refine_10 => exact fun s p k hk h7 => s.tunLoad_words p hk h7
  case refine_11 =>
    intro s port ltn q hq hport hltn hcyc
    have hdue : (q.port == port && q.ltn == ltn && cycGe s.cycle q.upTo) = true := by
      rw [hport, hltn, hcyc, beq_self_eq_true, beq_self_eq_true]
      rfl
    refine ⟨s.quarEnded port ltn, ?_, ?_, ?_⟩
    · exact congrArg Outcome.next (State.when_of s _ (List.any_eq_true.2 ⟨q, hq, hdue⟩))
    · rw [State.quarEnded_quar, List.mem_filter, hdue]
      exact fun h => Bool.false_ne_true h.2
    · intro r hr hne
      rw [State.quarEnded_quar, List.mem_filter]
      refine ⟨hr, ?_⟩
      obtain hne | hne := hne
      · rw [beq_false_of_ne hne]
        rfl
      · rw [beq_false_of_ne hne, Bool.and_false]
        rfl
  case refine_12 =>
    intro s c hlife htwin hsplit
    refine ⟨_, congrArg Outcome.next (State.when_of s _ (by rw [hlife, htwin, hsplit]; rfl)), ?_, ?_⟩
    · rw [State.modCtx_ctx]
    · exact (SameWords.refl _ s).of_word fun w => State.modCtx_word ..
  case refine_13 =>
    intro s c hlife hdr hcyc
    refine ⟨_, congrArg Outcome.next (State.when_of s _ (by rw [hlife, hdr, hcyc]; rfl)), rfl, ?_⟩
    rw [State.ctxDiscard, State.modCtx_ctx]
  case refine_14 =>
    intro s c hlife htwin hbase hcyc
    exact congrArg Outcome.next (State.when_of s _ (by rw [hlife, htwin, hbase, hcyc]; rfl))
  case refine_15 =>
    intro s c hlife hend hrel htwin hrx hcyc
    have hne : (s.twin c != 2) = true := bne_iff_ne.2 htwin
    exact congrArg Outcome.next (State.when_of s _ (by rw [hlife, hend, hrel, hne, hrx, hcyc]; rfl))
  case refine_16 =>
    intro s c hhold hdue hlater
    refine ⟨_, congrArg Outcome.next (State.when_of s _ (by rw [hhold, hdue, hlater]; rfl)), ?_, ?_⟩
    · exact State.on_flag_one _ _ _ rfl
    · exact (SameWords.refl _ s).flag List.mem_cons_self _

end Sys2Proof.Machine
end

section
/-!
PROOFS. Cells that arrive on an active link (R57, R83, R104, R146).
-/

namespace Sys2Proof.Machine

open Host (Outcome)

/-- The error correction of a cell counted. -/
def State.cellCounted (s : State) (n corr uncorr syncErr : Nat) : State := (s.fecCount n corr uncorr).inc (LNK_SYNC_ERR n) syncErr

section Cell
variable {s : State} {n slot cyc tr co un sy : Nat} {cell : Cell}

theorem State.cellReceived_void (h : s.active n = true) : exec (.cellReceived n slot cyc cell tr true co un sy) s =
    .next ((s.cellCounted n co un sy).inc (LNK_CELLS_VOID n)) := by
  refine congrArg Outcome.next ((State.when_of s _ h).trans ?_)
  rw [← State.cellCounted]
  exact if_pos rfl

theorem State.cellReceived_opened (h : s.active n = true) : exec (.cellReceived n slot cyc cell tr false co un sy) s =
    .next ((s.cellCounted n co un sy).cellOpened n slot cyc cell tr ((s.cellCounted n co un sy).openCell n slot cyc cell tr).1
      ((s.cellCounted n co un sy).openCell n slot cyc cell tr).2) := by
  refine congrArg Outcome.next ((State.when_of s _ h).trans ?_)
  rw [← State.cellCounted]
  exact if_neg Bool.false_ne_true

/-- A cell that verifies under no key is counted as bad. -/
theorem State.cellOpened_bad (s : State)
    (h : s.verifiesNext n slot cyc cell.keysel (beBytes 8 (cellHeader cell)) (pad128 cell.payload) tr = false) :
    s.cellOpened n slot cyc cell tr none false = s.inc (CYC_CELL_BAD n) := by
  rw [State.cellOpened, h, State.when_of_not _ _ rfl, State.when_of_not _ _ rfl]

/-- A verified cell of a held or an unheld LTN. -/
theorem State.cellOpened_verified (s : State) {c : Cell} (hltn : c.ltn ≠ 0xFF) (hwedged : (s.slotValid n cyc).on (PG_STATE_WEDGED 13) = false) :
    s.cellOpened n slot cyc cell tr (some c) false = match (s.slotValid n cyc).ctxByRx n c.ltn with
      | none => (s.slotValid n cyc).noCtx n
      | some (x, w) => (s.slotValid n cyc).ctxReceive n x w c (if (s.slotValid n cyc).on (LNK_STATUS_MODE1040 n) then some (n, c.tc) else none) := by
  have hgo : ¬ (c.ltn = 0xFF ∨ (s.slotValid n cyc).on (PG_STATE_WEDGED 13) = true) := by
    rw [hwedged]
    exact fun h => h.elim hltn Bool.false_ne_true
  rw [State.cellOpened]
  exact if_neg hgo

end Cell

/-- Settles O15: a cell takes the branch of what its slot turned out to be. -/
theorem linkCellsComplete : Obligations.LinkCellsComplete := by
  unfold Obligations.LinkCellsComplete
  dsimp only
  refine ⟨?_, ?_, ?_, ?_, ?_, ?_⟩
  case refine_1 => exact fun s n slot cyc cell tr co un sy h => State.cellReceived_void h
  case refine_2 => exact fun s n slot cyc cell tr co un sy h => State.cellReceived_opened h
  case refine_3 =>
    intro s n slot cyc cell tr h
    rw [State.cellOpened_bad s h, State.rd_inc_fits _ _ _ rfl]
    rfl
  case refine_4 =>
    intro s n slot cyc cell tr c x w hltn hwedged hctx h1040
    rw [State.cellOpened_verified s hltn hwedged, hctx, h1040]
    rfl
  case refine_5 =>
    intro s n slot cyc cell tr c hltn hwedged hctx
    rw [State.cellOpened_verified s hltn hwedged, hctx]
    rfl
  case refine_6 =>
    intro s n sq d w hnat hlo hhi hwedged
    exact congrArg Outcome.next (State.when_of s _ (by rw [hnat, decide_eq_true hlo, decide_eq_true hhi, hwedged]; rfl))

end Sys2Proof.Machine
end

section
/-!
PROOFS. Events of the girdle (R128, R130, R137–R139, R145).
-/

namespace Sys2Proof.Machine

open Host (Outcome)

/-- Settles O16: each event acts on the frame, queue or reading that it names. -/
theorem girdleCommandsComplete : Obligations.GirdleCommandsComplete := by
  unfold Obligations.GirdleCommandsComplete
  refine ⟨?_, ?_, ?_, ?_, ?_, ?_, ?_, ?_⟩
  case refine_1 =>
    intro s pt sub ns st d hpt h3
    refine congrArg Outcome.next ((State.when_of s _ hpt).trans ?_)
    dsimp only
    rw [if_neg h3]
  case refine_2 =>
    intro s q c id f x hf hx hseq hcyc
    change Outcome.next _ = _
    rw [hf]
    dsimp only
    rw [hx]
    exact congrArg Outcome.next (State.when_of s _ (by rw [hseq, hcyc]; rfl))
  case refine_3 =>
    intro s q c id i f x hf hx htail haged
    change Outcome.next _ = _
    rw [hf]
    dsimp only
    rw [hx]
    exact congrArg Outcome.next (State.when_of s _ (by rw [htail, haged]; rfl))
  case refine_4 =>
    intro s
    exact ⟨_, rfl, State.on_flag_one _ _ _ rfl, (SameWords.refl _ s).flag List.mem_cons_self _⟩
  case refine_5 => exact fun s i hi => congrArg Outcome.next (State.when_of s _ (decide_eq_true hi))
  case refine_6 => exact fun s i hi => congrArg Outcome.next (State.when_of s _ (decide_eq_true hi))
  case refine_7 =>
    intro s v h3 hv
    have hmin : min v (s.rd GRD_PERF_MIN) < 65536 := Nat.lt_of_le_of_lt (Nat.min_le_left ..) hv
    refine ⟨_, congrArg Outcome.next (State.when_of s _ (by rw [h3, decide_eq_true hv]; rfl)), ?_, ?_, ?_⟩
    · rw [State.rd_wr_apart _ _ _ _ rfl, State.rd_wr_fits _ _ _ rfl]
      exact Nat.mod_eq_of_lt hv
    · rw [State.rd_wr_fits _ _ _ rfl]
      exact Nat.mod_eq_of_lt hmin
    · exact ((SameWords.refl _ s).wr (f := GRD_PERF_NOW) List.mem_cons_self v).wr (f := GRD_PERF_MIN) (List.mem_singleton.2 rfl) _
  case refine_8 =>
    intro s p h h0
    refine congrArg Outcome.next ((State.readOwn_reaches h).trans ?_)
    rw [if_neg h0]

end Sys2Proof.Machine
end

section
/-!
PROOFS. What a slot, a unit position, a control slot and an adapter opportunity send (R75, R151, R156, R157).
-/

namespace Sys2Proof.Machine

open Host (Outcome)

/-! ## Data slots and unit positions -/

section Slots
variable {s t : State} {n d : Nat} {ecc : Tbl Nat}

theorem State.fills_of (hsend : s.sendsSlots n = true) (hnat : s.native n = true) (hidle : (s.port n).pw.idle = false) (hd : d < s.dSlots n) :
    (s.sendsSlots n && s.native n && !(s.port n).pw.idle && decide (d < s.dSlots n)) = true := by
  rw [hsend, hnat, hidle, decide_eq_true hd]
  rfl

theorem State.unitPosition_of (hact : s.active n = true) (h1040 : s.on (LNK_STATUS_MODE1040 n) = true) (hgap : s.time.gap = false) :
    (s.active n && s.on (LNK_STATUS_MODE1040 n) && !s.time.gap) = true := by
  rw [hact, h1040, hgap]
  rfl

theorem State.sendSlot_out (s : State) (n i : Nat) (c : Cell) : Out.slot n i (s.sealCell n i c).1 (s.sealCell n i c).2 ∈ (s.sendSlot n i c).out :=
  List.mem_append_right _ List.mem_cons_self

end Slots

/-! ## Control slot 0 -/

theorem controlSlots_pos (v : Nat) : 0 < controlSlots v := by
  rw [controlSlots]
  split_ifs <;> decide

/-- The stamp of a CYCLE message kept. -/
def State.cycleStamped (s : State) (n : Nat) : State :=
  s.modTm n (fun t => { t with tx := (((s.cycleMsg n).cycno, stampQ (s.cycleMsg n).txStamp) :: t.tx).take 4 })

theorem State.cycle_not_active {s : State} {n : Nat} (h : s.tstate n = tCycle) : s.active n = false := by
  rw [State.active, h]
  exact Bool.and_false _

/-- The control slot with the units that it carries. -/
def State.ctlSlotSent (u : State) (n j : Nat) (units : List CtlUnit) : State :=
  u.emit (.ctlSlot n j (u.sealCtl n j units.length (u.rd (CYC_STATUS_ACT_EPOCH n)) (pad128 (units.flatMap unitBytes))).1 (u.rd (CYC_STATUS_ACT_EPOCH n)) u.cycle units
    (u.sealCtl n j units.length (u.rd (CYC_STATUS_ACT_EPOCH n)) (pad128 (units.flatMap unitBytes))).2)

/-- In CYCLE a control slot 0 carries no more than the CYCLE message. -/
theorem State.controlSlotSend_cycle {s : State} {n : Nat} (hsend : s.sendsSlots n = true) (h : s.tstate n = tCycle) :
    exec (.controlSlotSend n 0) s = .next ((s.cycleStamped n).ctlSlotSent n 0 [.cycle (s.cycleMsg n)]) := by
  have hgo : (s.sendsSlots n && decide (0 < controlSlots (s.rd (LNK_STATUS_SPEED n))) && (!(s.port n).pw.idle || (0 : Nat) == 0)) = true := by
    rw [hsend, decide_eq_true (controlSlots_pos _)]
    exact Bool.or_true _
  have hact : (s.cycleStamped n).active n = false := State.cycle_not_active (s := s.cycleStamped n) h
  refine congrArg Outcome.next ((State.when_of s _ hgo).trans ?_)
  dsimp only
  rw [State.when_of s _ (beq_self_eq_true (0 : Nat)), if_pos rfl, ← State.cycleStamped]
  generalize s.cycleStamped n = u at hact
  rw [hact, if_neg Bool.false_ne_true]
  dsimp only
  rw [hact, Bool.false_and, if_neg Bool.false_ne_true]
  rw [State.ctlSlotSent, ← List.append_nil [CtlUnit.cycle (s.cycleMsg n)]] <;> rfl

theorem unitBytes_single (m : CtlUnit) : [m].flatMap unitBytes = unitBytes m := List.append_nil _

/-! ## Adapter opportunities (R157) -/

theorem State.opportunity_of (s : State) {pt : Nat} (h : pt = 3 ∨ pt = 4 ∨ pt = 5 ∨ 10 ≤ pt ∧ pt ≤ 13) :
    (decide (3 ≤ pt) && decide (pt ≤ 13) && (decide (pt < 6) || decide (pt > 9) || s.ethUp (pt - 6))) = true := by
  have hside : (decide (pt < 6) || decide (pt > 9)) = true := by
    rw [Bool.or_eq_true, decide_eq_true_eq, decide_eq_true_eq]
    omega
  rw [hside, decide_eq_true (by omega), decide_eq_true (by omega)]
  rfl

/-- Settles O17: each opportunity sends the cell that its pick names, and idle fill where it names none. -/
theorem slotCommandsComplete : Obligations.SlotCommandsComplete := by
  unfold Obligations.SlotCommandsComplete
  dsimp only
  refine ⟨?_, ?_, ?_, ?_, ?_, ?_, ?_, ?_, ?_⟩
  case refine_1 =>
    intro s n d ecc t x hsend hnat hidle hd hpick
    refine congrArg Outcome.next ((State.when_of s _ (State.fills_of hsend hnat hidle hd)).trans ?_)
    rw [hpick]
  case refine_2 =>
    intro s n d ecc t hsend hnat hidle hd hpick
    refine congrArg Outcome.next ((State.when_of s _ (State.fills_of hsend hnat hidle hd)).trans ?_)
    rw [hpick]
  case refine_3 =>
    intro s n ecc hact h1040 hgap hcount
    refine ⟨_, congrArg Outcome.next ((State.when_of s _ (State.unitPosition_of hact h1040 hgap)).trans (if_pos hcount)), ?_, ?_⟩
    · rw [State.modPort_port]
    · rw [State.modPort_out]
      exact s.sendSlot_out n 0 (s.creditUnit n)
  case refine_4 =>
    intro s n ecc t hact h1040 hgap hcount hpick
    refine congrArg Outcome.next ((State.when_of s _ (State.unitPosition_of hact h1040 hgap)).trans ((if_neg (Nat.not_le.2 hcount)).trans ?_))
    dsimp only
    rw [hpick]
  case refine_5 =>
    intro s n hact h1040
    exact congrArg Outcome.next (State.when_of s _ (by rw [hact, h1040]; rfl))
  case refine_6 =>
    intro s n hsend hst
    refine ⟨_, State.controlSlotSend_cycle hsend hst, ?_⟩
    rw [State.ctlSlotSent, unitBytes_single, State.cycleStamped]
    rfl
  case refine_7 =>
    intro s pt ecc tc t x hpt hopen hthere htake
    refine congrArg Outcome.next ((State.when_of s _ (s.opportunity_of hpt)).trans ?_)
    rw [hopen]
    dsimp only
    rw [hthere, htake, if_neg (by decide)]
  case refine_8 =>
    intro s pt ecc tc hpt hopen hthere
    refine congrArg Outcome.next ((State.when_of s _ (s.opportunity_of hpt)).trans ?_)
    rw [hopen]
    dsimp only
    rw [hthere, if_pos (by decide)]
  case refine_9 =>
    intro s pt ecc tc t x hpt hopen hpick
    refine congrArg Outcome.next ((State.when_of s _ (s.opportunity_of hpt)).trans ?_)
    rw [hopen]
    dsimp only
    rw [hpick]

end Sys2Proof.Machine
end

section
/-!
PROOFS. CYCLE messages, local sources and the ends of holdover (R89, R172–R174, R178–R181).
-/

namespace Sys2Proof.Machine

open Host (Outcome)

/-! ## The source state machine (R178) -/

theorem State.showTimeValid_rd (s : State) {g : Fld} (h : TIME_SRC_STATUS_TIME_VALID.apart g = true) : s.showTimeValid.rd g = s.rd g :=
  State.rd_flag_apart _ _ _ _ h

/-- The registers of a state that is entered. -/
def State.srcEntered (s : State) (v : Nat) : State :=
  ((s.when (s.rd TIME_SRC_STATUS_STATE == stHoldover) (fun s => s.wr TIME_SRC_STATUS_HOLD_S (min 65535 s.holdSecs))).wr TIME_SRC_STATUS_STATE v).raise 6 0

/-- HOLDOVER begins with the mean frequency held. -/
def State.holdBegun (s : State) (m : Int) : State :=
  (((s.wr TIME_SRC_STATUS_HOLD_S 0).wrS TIME_FREQ m).modTime (fun t => { t with heldMean := m, holdOk := true, holdAt := s.elapsed })).raise 6 3

/-- What a state begins with. -/
def State.srcBegun (s : State) (v : Nat) : State :=
  if v = stHoldover then s.holdBegun (meanFreq s.time.means s.time.heldMean)
  else if v = stLocked then s.modTime (fun t => { t with lockedOnce := true, stepRun := 0, means := [] })
  else if v = stFree then s.modTime (fun t => { t with lockedOnce := false, lockRun := 0 })
  else s.modTime (fun t => { t with lockRun := 0, stepRun := 0 })

theorem State.srcState_eq (s : State) (v : Nat) : s.srcState v =
    if s.rd TIME_SRC_STATUS_STATE = v then s.showTimeValid else ((s.srcEntered v).srcBegun v).showTimeValid := by
  rw [State.srcState]
  rfl

theorem State.srcEntered_state (s : State) {v : Nat} (hv : v < 8) : (s.srcEntered v).rd TIME_SRC_STATUS_STATE = v := by
  rw [State.srcEntered, State.rd_raise_apart _ _ _ _ rfl, State.rd_wr_fits _ _ _ rfl]
  exact Nat.mod_eq_of_lt hv

theorem State.srcEntered_cause (s : State) (v : Nat) : (s.srcEntered v).rd TIME_SRC_STATUS_CAUSE = s.rd TIME_SRC_STATUS_CAUSE := by
  rw [State.srcEntered, State.rd_raise_apart _ _ _ _ rfl, State.rd_wr_apart _ _ _ _ rfl]
  exact State.when_keeps (fun t => t.rd TIME_SRC_STATUS_CAUSE) (f := fun s => s.wr TIME_SRC_STATUS_HOLD_S (min 65535 s.holdSecs))
    (State.rd_wr_apart _ _ _ _ rfl)

/-- The beginning of a state leaves a field of the status word but HOLD_S. -/
theorem State.srcBegun_rd (s : State) (v : Nat) {g : Fld} (hhold : TIME_SRC_STATUS_HOLD_S.apart g = true) (hg : g.addr = 0x06050) :
    (s.srcBegun v).rd g = s.rd g := by
  have hfreq : TIME_FREQ.apart g = true := Fld.apart_of_addr_ne (by rw [hg]; decide)
  have hisr : (PG_ISR 6).apart g = true := Fld.apart_of_addr_ne (by rw [hg]; decide)
  unfold State.srcBegun
  split_ifs
  · rw [State.holdBegun, State.rd_raise_apart _ _ _ _ hisr, State.modTime_rd, State.wrS, State.rd_wr_apart _ _ _ _ hfreq, State.rd_wr_apart _ _ _ _ hhold]
  · exact State.modTime_rd ..
  · exact State.modTime_rd ..
  · exact State.modTime_rd ..

theorem State.srcState_state (s : State) {v : Nat} (hv : v < 8) : (s.srcState v).rd TIME_SRC_STATUS_STATE = v := by
  rw [State.srcState_eq]
  split
  · next h => exact (s.showTimeValid_rd rfl).trans h
  · rw [State.showTimeValid_rd _ rfl, State.srcBegun_rd _ _ rfl rfl, State.srcEntered_state _ hv]

theorem State.srcState_cause (s : State) (v : Nat) : (s.srcState v).rd TIME_SRC_STATUS_CAUSE = s.rd TIME_SRC_STATUS_CAUSE := by
  rw [State.srcState_eq]
  split
  · exact s.showTimeValid_rd rfl
  · rw [State.showTimeValid_rd _ rfl, State.srcBegun_rd _ _ rfl rfl, State.srcEntered_cause]

theorem State.showTimeValid_present (s : State) : s.showTimeValid.time.srcPresent = s.time.srcPresent := by
  rw [State.showTimeValid, State.flag_time]

theorem State.srcEntered_present (s : State) (v : Nat) : (s.srcEntered v).time.srcPresent = s.time.srcPresent := by
  rw [State.srcEntered, State.raise_time, State.wr_time]
  exact State.when_keeps (fun t => t.time.srcPresent) (f := fun s => s.wr TIME_SRC_STATUS_HOLD_S (min 65535 s.holdSecs)) (by rw [State.wr_time])

theorem State.holdBegun_present (s : State) (m : Int) : (s.holdBegun m).time.srcPresent = s.time.srcPresent := by
  rw [State.holdBegun, State.raise_time, State.modTime_time, State.wrS, State.wr_time, State.wr_time]

theorem State.srcBegun_present (s : State) (v : Nat) : (s.srcBegun v).time.srcPresent = s.time.srcPresent := by
  unfold State.srcBegun
  split_ifs
  · exact s.holdBegun_present _
  · rw [State.modTime_time]
  · rw [State.modTime_time]
  · rw [State.modTime_time]

theorem State.srcState_present (s : State) (v : Nat) : (s.srcState v).time.srcPresent = s.time.srcPresent := by
  rw [State.srcState_eq]
  split
  · exact s.showTimeValid_present
  · rw [State.showTimeValid_present, State.srcBegun_present, State.srcEntered_present]

theorem State.irigNoUtc_effect {s : State} (h : s.isOn 6 = true) : s.irigNoUtc.rd TIME_SRC_STATUS_CAUSE = 3 ∧
    s.irigNoUtc.rd TIME_SRC_STATUS_STATE = stAcquiring ∧ s.irigNoUtc.time.srcPresent = false := by
  rw [State.irigNoUtc, State.when_of s _ h]
  refine ⟨?_, State.srcState_state _ (by decide), ?_⟩
  · rw [State.srcState_cause, State.modTime_rd, State.rd_wr_fits _ _ _ rfl]
    rfl
  · rw [State.srcState_present, State.modTime_time]

/-- In HOLDOVER, once its time of validity has gone, the time is not valid. -/
theorem State.timeValidNow_holdover {s : State} (h : s.rd TIME_SRC_STATUS_STATE = stHoldover) (hok : s.time.holdOk = false) :
    s.timeValidNow = false := by
  rw [State.timeValidNow, h, hok]
  rfl

/-! ## CYCLE messages (R89, R97) -/

section Cycle
variable {s : State} {n : Nat}

theorem State.rangingUpdate_ep (s : State) (n d k : Nat) (hk : k = n) : (s.rangingUpdate n d).ep k = s.ep k := by
  subst hk
  unfold State.rangingUpdate
  cases (s.tm k).reseed with
  | none =>
    dsimp only
    split_ifs
    · rw [State.raise_ep, State.modTm_ep, State.inc_ep]
    · rw [State.modTm_ep, State.inc_ep]
    · rw [State.wr_ep, State.modTm_ep]
  | some l =>
    dsimp only
    split_ifs
    · rw [State.wr_ep, State.modTm_ep]
    · rw [State.modTm_ep]

theorem State.rangingUpdate_word (s : State) (d : Nat) {a : Nat} (hn : n < 3) (h6 : a / 0x1000 ≠ 6) : (s.rangingUpdate n d).word a = s.word a := by
  have hdelay : a ≠ (TIME_DELAY n).addr := by simp only [TIME_DELAY]; omega
  have hrej : a ≠ (TIME_RANGE_REJ n).addr := by simp only [TIME_RANGE_REJ]; omega
  have hisr : a ≠ (PG_ISR 6).addr := fun he => h6 (he ▸ rfl)
  unfold State.rangingUpdate
  cases (s.tm n).reseed with
  | none =>
    dsimp only
    split_ifs
    · rw [State.raise_word _ _ _ _ hisr, State.modTm_word, State.word_inc_ne _ _ _ _ hrej]
    · rw [State.modTm_word, State.word_inc_ne _ _ _ _ hrej]
    · rw [State.word_wr_ne _ _ _ _ hdelay, State.modTm_word]
  | some l =>
    dsimp only
    split_ifs
    · rw [State.word_wr_ne _ _ _ _ hdelay, State.modTm_word]
    · rw [State.modTm_word]

/-- The ranging filter takes a message whose stamps fit. -/
theorem State.rangeCycle_keeps {α : Type} (P : State → α) (m : CycleMsg) (hrange : ∀ u d, P (State.rangingUpdate u n d) = P u)
    (hlofs : ∀ u i, P (State.wrS u (TIME_LOFS n) i) = P u) (htm : ∀ u f, P (State.modTm u n f) = P u) : P (s.rangeCycle n m) = P s := by
  have hfilt : P (match (s.tm n).tx.find? (fun (e : Nat × Nat) => e.1 == m.rxCycno) with
      | some (_, t1) =>
        if m.rxValid && m.rxCycno == cycSub m.cycno 1 then
          let d : Int := (((m.arrival : Int) - t1) - ((stampQ m.txStamp : Int) - stampQ m.rxStamp)).tdiv 2
          s.rangingUpdate n d.toNat
        else s
      | none => s) = P s := by
    split
    · split
      · exact hrange _ _
      · rfl
    · rfl
  unfold State.rangeCycle
  exact (htm _ _).trans ((hlofs _ _).trans hfilt)

/-- What a CYCLE message of the right cycle counts before the time master is settled. -/
def State.cycleCounted (s : State) (n : Nat) (m : CycleMsg) : State :=
  ((s.modEp n (fun e => { e with okCount := e.okCount + 1, missed := 0, gotThis := true })).noteFarEpoch n m.epoch).rangeCycle n m

/-- A port that the chip's time follows takes the message as a measurement. -/
def State.cycleMeasured (s : State) (n : Nat) (m : CycleMsg) : State :=
  s.when (s.bit TIME_LINK_TM_ST_FOLLOW n) (fun s =>
    ((s.modTime (fun t => { t with inValid := m.timeValid, srcPresent := true })).measurement (s.rdS (TIME_LOFS n)) 125000 true).showTimeValid)

/-- A CYCLE message of the right cycle, before the port may become ACTIVE. -/
def State.cycleTaken (s : State) (n : Nat) (m : CycleMsg) : State := ((s.cycleCounted n m).settleMaster n m.timeMaster).cycleMeasured n m

theorem State.cycleMsg_exec {m : CycleMsg} (hn : n < 3) (hst : s.tstate n = tCycle ∨ s.tstate n = tActive) (h1040 : s.on (LNK_STATUS_MODE1040 n) = false)
    (hcyc : m.cycno = s.arrivalCycle n m.arrival) : exec (.cycleMsg n m) s =
      .next ((s.cycleTaken n m).when ((s.cycleTaken n m).tstate n == tCycle && decide (((s.cycleTaken n m).ep n).okCount ≥ 16)) (·.linkUp n)) := by
  refine congrArg Outcome.next ((State.when_of s _ (State.receives_of ⟨hn, hst, h1040⟩)).trans ?_)
  exact if_neg (not_not_intro hcyc)

theorem State.ep_of_ports {s t : State} (h : t.ports = s.ports) (k : Nat) : t.ep k = s.ep k := by
  rw [State.ep, State.port, h, State.ep, State.port]

theorem State.cycleCounted_ep (m : CycleMsg) : ((s.cycleCounted n m).ep n).okCount = (s.ep n).okCount + 1 ∧ ((s.cycleCounted n m).ep n).missed = 0 ∧
    ((s.cycleCounted n m).ep n).gotThis = true ∧ ((s.cycleCounted n m).ep n).farEpoch = some m.epoch := by
  rw [State.cycleCounted, State.rangeCycle_keeps (fun t => t.ep n) m (fun u d => u.rangingUpdate_ep n d n rfl)
    (fun u i => by rw [State.wrS, State.wr_ep]) fun u f => State.modTm_ep .., State.noteFarEpoch, State.modEp_ep, State.modEp_ep]
  exact ⟨rfl, rfl, rfl, rfl⟩

theorem State.cycleTaken_ep (m : CycleMsg) : (s.cycleTaken n m).ep n = (s.cycleCounted n m).ep n := by
  have hsettle (u : State) : (u.settleMaster n m.timeMaster).ports = u.ports :=
    (State.settleMaster_follows (msk := 6) rfl n m.timeMaster (Follows.refl 6 u)).parts .ports rfl
  have hmeasured (u : State) : (u.cycleMeasured n m).ports = u.ports :=
    (State.when_follows (Follows.refl 6 u) _ fun y hy => State.showTimeValid_follows (State.measurement_follows (msk := 6) rfl _ _ _
      (State.modTime_follows (msk := 6) rfl _ hy))).parts .ports rfl
  exact State.ep_of_ports ((hmeasured _).trans (hsettle _)) n

theorem State.settleMaster_word (s : State) (far : Bool) {a : Nat} (h6 : a / 0x1000 ≠ 6) (hcyc : a ≠ 0x13040 + 0x1000 * n) :
    (s.settleMaster n far).word a = s.word a := by
  have hconf : a ≠ TIME_LINK_TM_ST_CONFLICT.addr := fun he => h6 (he ▸ rfl)
  have hisr : a ≠ (PG_ISR 6).addr := fun he => h6 (he ▸ rfl)
  rw [State.settleMaster, State.showInput, State.showInputs_word _ _ h6, State.word_flag_ne _ (CYC_STATUS_TIME_MASTER n) _ _ hcyc,
    State.word_setBit_ne _ TIME_LINK_TM_ST_MASTER _ _ _ hconf, State.word_setBit_ne _ _ _ _ _ hconf]
  exact State.when_word _ _ _ _ (State.raise_word _ _ _ _ hisr)

theorem State.servo_word (s : State) (off : Int) (interval : Nat) (link : Bool) {a : Nat} (h6 : a / 0x1000 ≠ 6) :
    (s.servo off interval link).word a = s.word a := by
  have hfreq : a ≠ TIME_FREQ.addr := fun he => h6 (he ▸ rfl)
  have hwr (u : State) (i : Int) : (u.wrS TIME_FREQ i).word a = u.word a := State.word_wr_ne _ _ _ _ hfreq
  unfold State.servo
  exact State.ite_word (hwr _ _) (State.ite_word (hwr _ _) ((State.modTime_word ..).trans (hwr _ _)))

theorem State.measurement_word (s : State) (off : Int) (interval : Nat) (link : Bool) {a : Nat} (h : 0xF000 ≤ a) :
    (s.measurement off interval link).word a = s.word a := by
  have h6 : a / 0x1000 ≠ 6 := by omega
  have hofs : a ≠ TIME_OFFSET.addr := fun he => h6 (he ▸ rfl)
  have hst : a ≠ TIME_SRC_STATUS_TIME_VALID.addr := fun he => h6 (he ▸ rfl)
  have hbegun (c : Bool) : ((s.wrS TIME_OFFSET off).when c (·.srcState stAcquiring)).word a = s.word a :=
    (State.when_word _ _ _ _ (State.srcState_word _ _ h6)).trans (State.word_wr_ne _ _ _ _ hofs)
  have hstep (u : State) (c : Bool) (delta : Int) : (u.when c (·.startStep delta)).word a = u.word a :=
    State.when_word _ _ _ _ (State.startStep_word _ _ h)
  have hservo (u : State) : (u.servo off interval link).word a = u.word a := u.servo_word off interval link h6
  unfold State.measurement
  refine State.ite_word rfl ?_
  dsimp only
  refine State.ite_word (State.ite_word ((hstep _ _ _).trans ((State.modTime_word ..).trans (hbegun _))) (State.ite_word (State.ite_word ?_ ?_) ?_))
    (State.ite_word (State.ite_word ?_ ?_) ?_)
  · exact (State.srcState_word _ _ h6).trans ((hservo _).trans (hbegun _))
  · exact (State.modTime_word ..).trans ((hservo _).trans (hbegun _))
  · exact (State.modTime_word ..).trans ((hservo _).trans (hbegun _))
  · exact (hstep _ _ _).trans ((State.srcState_word _ _ h6).trans (hbegun _))
  · exact (State.modTime_word ..).trans (hbegun _)
  · exact (State.word_flag_ne _ _ _ _ hst).trans ((State.modTime_word ..).trans ((hservo _).trans ((State.modTime_word ..).trans (hbegun _))))

theorem State.cycleMeasured_word (s : State) (n : Nat) (m : CycleMsg) {a : Nat} (h : 0xF000 ≤ a) : (s.cycleMeasured n m).word a = s.word a := by
  have hst : a ≠ TIME_SRC_STATUS_TIME_VALID.addr := fun he => absurd h (he ▸ by decide)
  exact State.when_word _ _ _ _ ((State.word_flag_ne _ _ _ _ hst).trans ((State.measurement_word _ _ _ _ h).trans (State.modTime_word ..)))

theorem State.cycleTaken_tstate (m : CycleMsg) (hn : n < 3) : (s.cycleTaken n m).tstate n = s.tstate n := by
  have haddr : (LNK_STATUS_TSTATE n).addr = 0x10044 + 0x1000 * n := rfl
  have h6 : (LNK_STATUS_TSTATE n).addr / 0x1000 ≠ 6 := by rw [haddr]; omega
  have hlofs : (LNK_STATUS_TSTATE n).addr ≠ (TIME_LOFS n).addr := by rw [haddr]; simp only [TIME_LOFS]; omega
  have hcounted : (s.cycleCounted n m).word (LNK_STATUS_TSTATE n).addr = s.word (LNK_STATUS_TSTATE n).addr := by
    rw [State.cycleCounted, State.rangeCycle_keeps (fun t => t.word (LNK_STATUS_TSTATE n).addr) m (fun u d => u.rangingUpdate_word d hn h6)
      (fun u i => State.word_wr_ne _ _ _ _ hlofs) fun u f => State.modTm_word .., State.noteFarEpoch, State.modEp_word, State.modEp_word]
  refine State.rd_of_word ?_
  rw [State.cycleTaken, State.cycleMeasured_word _ _ _ (by rw [haddr]; omega), State.settleMaster_word _ _ h6 (by rw [haddr]; omega), hcounted]

/-- A link that comes up is ACTIVE. -/
theorem State.linkUp_tstate (s : State) (hn : n < 3) : (s.linkUp n).tstate n = tActive := by
  have haddr : (LNK_STATUS_TSTATE n).addr = 0x10044 + 0x1000 * n := rfl
  have h6 : (LNK_STATUS_TSTATE n).addr / 0x1000 ≠ 6 := by rw [haddr]; omega
  have hslots : (LNK_STATUS_TSTATE n).addr ≠ (CYC_STATUS_DATA_SLOTS n).addr := by rw [haddr]; simp only [CYC_STATUS_DATA_SLOTS]; omega
  have hfail : (LNK_STATUS_TSTATE n).addr ≠ (LNK_FAIL_COUNT n).addr := by rw [haddr]; simp only [LNK_FAIL_COUNT]; omega
  have hisr : (LNK_STATUS_TSTATE n).addr ≠ (PG_ISR (lnkPage n)).addr := by rw [haddr]; simp only [PG_ISR, lnkPage]; omega
  have hok : (LNK_STATUS_TSTATE n).addr ≠ (LNK_TRAIN_CNT_OK n).addr := by rw [haddr]; simp only [LNK_TRAIN_CNT_OK]; omega
  have hjoin (u : State) (k : Nat) : (u.noteJoin k).word (LNK_STATUS_TSTATE n).addr = u.word (LNK_STATUS_TSTATE n).addr :=
    State.when_word _ _ _ _ (State.mk_word ..)
  have hword : (s.linkUp n).word (LNK_STATUS_TSTATE n).addr = (s.wr (LNK_STATUS_TSTATE n) tActive).word (LNK_STATUS_TSTATE n).addr := by
    rw [State.linkUp, State.showInput, State.showInputs_word _ _ h6, hjoin, State.fixedContexts_word _ true hn (by rw [haddr]; omega) (by rw [haddr]; omega),
      State.modPort_word, State.word_wr_ne _ _ _ _ hslots, State.word_wr_ne _ _ _ _ hfail, State.raise_word _ _ _ _ hisr, State.word_inc_ne _ _ _ _ hok]
  exact (State.rd_of_word hword).trans (State.rd_wr_fits _ _ _ rfl)

end Cycle

/-! ## Local sources (R178, R180, R181) -/

section Sources
variable {s : State}

theorem State.fed_of (h1 : 1 ≤ s.rd TIME_SRC_CTRL_SRC) (h3 : s.rd TIME_SRC_CTRL_SRC ≤ 3) (hptp : s.rd TIME_SRC_CTRL_SRC = 1 → s.ptpFeeds = true) :
    (decide (1 ≤ s.rd TIME_SRC_CTRL_SRC) && decide (s.rd TIME_SRC_CTRL_SRC ≤ 3) && (s.rd TIME_SRC_CTRL_SRC != 1 || s.ptpFeeds)) = true := by
  have hfeeds : (s.rd TIME_SRC_CTRL_SRC != 1 || s.ptpFeeds) = true := by
    by_cases h : s.rd TIME_SRC_CTRL_SRC = 1
    · rw [hptp h, Bool.or_true]
    · rw [bne_iff_ne.2 h, Bool.true_or]
  rw [decide_eq_true h1, decide_eq_true h3, hfeeds]
  rfl

/-- A sentence that ends in the window after the edge labels its second. -/
theorem State.todSentence_exec {b : List Byte} {e q m sec : Nat} (h3 : s.rd TIME_SRC_CTRL_SRC = 3) (hpps : s.time.pps = some (q, m))
    (hsec : s.todSecond b = some sec) (hlo : q + 400000000 ≤ e) (hhi : e ≤ q + 3600000000) :
    exec (.todSentence (s.rd TIME_SRC_CTRL_TOD_UART) b e) s = .next
      ((s.modTime (fun t => { t with pps := none, srcPresent := true })).measurement (offsetFrom m sec) 1000000000 false) := by
  refine congrArg Outcome.next ((State.when_of s _ (by rw [h3, beq_self_eq_true, beq_self_eq_true]; rfl)).trans ?_)
  rw [hpps, hsec]
  exact if_pos (by rw [decide_eq_true hlo, decide_eq_true hhi]; rfl)

/-- A frame is measured against the second that it and the UTC offset give. -/
theorem State.irigFrame_exec {q doy sod y : Nat} {o : Int} {a b : Bool} (h2 : s.rd TIME_SRC_CTRL_SRC = 2) (hutc : s.on TIME_UTC_OFS_VALID = true)
    (hext : s.on TIME_IRIG_CTRL_EXT_1344 = false) : exec (.irigFrame q doy sod (some y) o a b) s = .next
      ((s.modTime (fun t => { t with srcPresent := true })).measurement
        (offsetFrom (q - 4 * s.rd TIME_IRIG_CTRL_COMP) (s.utcToTai (86400 * civilDays y 1 1 + (86400 * (doy - 1) + sod)))) 1000000000 false) := by
  refine congrArg Outcome.next ((State.when_of s _ (by rw [h2]; rfl)).trans ?_)
  refine (if_neg (by rw [hutc]; exact Bool.false_ne_true)).trans ?_
  dsimp only
  rw [hext, State.when_of_not _ _ rfl, if_neg Bool.false_ne_true, Int.sub_zero, Int.toNat_natCast]
  rfl

end Sources

/-- Settles O19: a CYCLE message counts before anything that may follow from it, and no rule that follows touches what it counted; the
other clauses are the branch of their case. -/
theorem timeSourceCommands : Obligations.TimeSourceCommands := by
  unfold Obligations.TimeSourceCommands
  refine ⟨?_, ?_, ?_, ?_, ?_, ?_, ?_, ?_, ?_, ?_, ?_, ?_, ?_⟩
  case refine_1 =>
    intro s n m hn hst h1040 hcyc
    refine ⟨_, congrArg Outcome.next ((State.when_of s _ (State.receives_of ⟨hn, .inr hst, h1040⟩)).trans (if_pos hcyc)), ?_, ?_⟩
    · rw [State.modEp_ep]
    · exact (SameWords.refl _ s).of_word fun w => State.modEp_word ..
  case refine_2 =>
    intro s n m hn hst h1040 hcyc
    have hup : ((s.cycleTaken n m).tstate n == tCycle && decide (((s.cycleTaken n m).ep n).okCount ≥ 16)) = false := by
      rw [State.cycleTaken_tstate m hn, hst]
      rfl
    refine ⟨s.cycleTaken n m, ?_, ?_⟩
    · rw [State.cycleMsg_exec hn (.inr hst) h1040 hcyc, State.when_of_not _ _ hup]
    · dsimp only
      rw [State.cycleTaken_ep]
      exact State.cycleCounted_ep m
  case refine_3 => exact fun s p h => congrArg Outcome.next (State.readOwn_reaches h)
  case refine_4 =>
    intro s off i h1 h3 hptp
    exact congrArg Outcome.next (State.when_of s _ (State.fed_of h1 h3 hptp))
  case refine_5 =>
    intro s q h3
    refine ⟨_, congrArg Outcome.next (State.when_of s _ (by rw [h3, beq_self_eq_true, beq_self_eq_true]; rfl)), ?_, ?_⟩
    · rw [State.modTime_time]
    · exact (SameWords.refl _ s).of_word fun w => State.modTime_word ..
  case refine_6 => exact fun s b e q m sec h3 hpps hsec hlo hhi => State.todSentence_exec h3 hpps hsec hlo hhi
  case refine_7 =>
    intro s q doy sod y o a b h2 hon hutc
    refine ⟨s.irigNoUtc, ?_, State.irigNoUtc_effect hon⟩
    exact congrArg Outcome.next ((State.when_of s _ (by rw [h2]; rfl)).trans (if_pos (by rw [hutc]; rfl)))
  case refine_8 => exact fun s q doy sod y o a b h2 hutc hext => State.irigFrame_exec h2 hutc hext
  case refine_9 =>
    intro s c hon hc
    exact congrArg Outcome.next (State.when_of s _ (by rw [hon, decide_eq_true hc]; rfl))
  case refine_10 =>
    intro s hst hold
    refine ⟨_, congrArg Outcome.next (State.when_of s _ (by rw [hst, decide_eq_true (GE.ge.le hold)]; rfl)), rfl, ?_⟩
    exact State.srcState_state _ (by decide)
  case refine_11 =>
    intro s hst hold
    refine ⟨_, congrArg Outcome.next (State.when_of s _ (by rw [hst, decide_eq_true (GE.ge.le hold)]; rfl)), ?_, ?_⟩
    · rw [State.showTimeValid, State.timeValidNow_holdover (by rw [State.modTime_rd, hst]) (by rw [State.modTime_time])]
      exact State.on_flag_one _ _ _ rfl
    · exact ((SameWords.refl _ s).of_word fun w => State.modTime_word ..).flag List.mem_cons_self _
  case refine_12 =>
    intro s hvalid
    refine ⟨_, congrArg Outcome.next (State.when_of s _ hvalid), ?_, ?_⟩
    · rw [State.modTime_time]
    · exact (SameWords.refl _ s).of_word fun w => State.modTime_word ..
  case refine_13 =>
    intro s n m hn hst h1040 hcyc hcount
    obtain ⟨hok, -, -, -⟩ := State.cycleCounted_ep (s := s) (n := n) m
    have hup : ((s.cycleTaken n m).tstate n == tCycle && decide (((s.cycleTaken n m).ep n).okCount ≥ 16)) = true := by
      rw [State.cycleTaken_tstate m hn, hst, State.cycleTaken_ep, hok, hcount]
      rfl
    refine ⟨(s.cycleTaken n m).linkUp n, ?_, State.linkUp_tstate _ hn⟩
    rw [State.cycleMsg_exec hn (.inl hst) h1040 hcyc, State.when_of _ _ hup]

end Sys2Proof.Machine
end

section
/-!
PROOFS. Timed outputs, steps of the time and cycle boundaries (R76, R185, R186, R194).
-/

namespace Sys2Proof.Machine

open Host (Outcome)

/-! ## Timed outputs (R194) -/

section Fout
variable {s : State} {k : Nat}

theorem foutCtrl_mod (hk : k < 8) : (0x07100 + 0x10 * k) % 0x40000 = 0x07100 + 0x10 * k := Nat.mod_eq_of_lt (by omega)

theorem State.drive_out (s : State) (k : Nat) (v : Bool) : Out.fout k v ∈ (s.drive k v).out := List.mem_append_right _ List.mem_cons_self

/-- An output in the modes 1 and 2 that acts: LEVEL is driven, and it is no longer armed. -/
def State.foutDriven (s : State) (k : Nat) : State := ((s.drive k (s.on (EVI_FOUT_CTRL_LEVEL k))).flag (EVI_FOUT_CTRL_ARM k) false).raise 7 2

theorem foutIsr_apart (k : Nat) {g : Fld} (hg : g.addr = 0x07100 + 0x10 * k) : (PG_ISR 7).apart g = true :=
  Fld.apart_of_addr_ne (by rw [hg]; simp only [PG_ISR]; omega)

theorem State.foutAct_once (h1 : s.rd (EVI_FOUT_CTRL_MODE k) = 1) : s.foutAct k = s.foutDriven k := by
  have hmode : (s.foutDriven k).rd (EVI_FOUT_CTRL_MODE k) = 1 := by
    rw [State.foutDriven, State.rd_raise_apart _ _ _ _ (foutIsr_apart k rfl), State.rd_flag_apart _ _ _ _ rfl, State.rd_of_word (State.drive_word s _ _), h1]
  rw [State.foutAct]
  exact State.when_of_not _ _ (by rw [← State.foutDriven, hmode]; rfl)

theorem State.foutDriven_effect (s : State) (k : Nat) : (s.foutDriven k).on (EVI_FOUT_CTRL_ARM k) = false ∧
    Out.fout k (s.on (EVI_FOUT_CTRL_LEVEL k)) ∈ (s.foutDriven k).out ∧ ((s.foutDriven k).word (PG_ISR 7).addr).getLsbD 2 = true := by
  rw [State.foutDriven]
  refine ⟨?_, ?_, State.raise_bit _ _ _ (by decide)⟩
  · rw [State.on_raise_apart _ _ _ _ (foutIsr_apart k rfl), State.on_flag_one _ _ _ rfl]
  · refine (State.raise_follows (msk := 2) rfl 7 2 (Follows.refl 2 _)).out.subset ?_
    rw [State.flag_out]
    exact s.drive_out k _

/-- A pulse of an output that begins. -/
def State.pulseBegun (s : State) (k : Nat) : State :=
  let s := s.drive k (s.on (EVI_FOUT_CTRL_LEVEL k))
  { s with evi := { s.evi with pulsing := s.evi.pulsing.filter (· != k) ++ [k] } }

/-- A pulse of an output that ends. -/
def State.pulseEnded (s : State) (k : Nat) : State :=
  let s := s.drive k (!s.on (EVI_FOUT_CTRL_LEVEL k))
  { s with evi := { s.evi with pulsing := s.evi.pulsing.filter (· != k) } }

theorem State.pulseBegun_effect (s : State) (k : Nat) : Out.fout k (s.on (EVI_FOUT_CTRL_LEVEL k)) ∈ (s.pulseBegun k).out ∧
    (s.pulseBegun k).evi.pulsing.contains k = true ∧ SameWords [] s (s.pulseBegun k) := by
  refine ⟨s.drive_out k _, ?_, (SameWords.refl _ s).of_word fun w => (State.mk_word ..).trans (s.drive_word k _)⟩
  exact List.contains_iff_mem.2 (List.mem_append_right _ List.mem_cons_self)

theorem State.pulseEnded_effect (s : State) (k : Nat) : Out.fout k (!s.on (EVI_FOUT_CTRL_LEVEL k)) ∈ (s.pulseEnded k).out ∧
    (s.pulseEnded k).evi.pulsing.contains k = false ∧ SameWords [] s (s.pulseEnded k) := by
  refine ⟨s.drive_out k _, ?_, (SameWords.refl _ s).of_word fun w => (State.mk_word ..).trans (s.drive_word k _)⟩
  refine Bool.eq_false_iff.2 fun h => ?_
  exact bne_iff_ne.1 (List.mem_filter.1 (List.contains_iff_mem.1 h)).2 rfl

theorem State.foutAction_once (hk : k < 8) (hon : s.isOn 7 = true) (h1 : s.rd (EVI_FOUT_CTRL_MODE k) = 1) (harm : s.on (EVI_FOUT_CTRL_ARM k) = true)
    (hdue : s.foutTime k ≤ s.now) : exec (.foutAction k) s = .next (s.foutDriven k) := by
  refine congrArg Outcome.next ((State.when_of s _ (by rw [decide_eq_true hk, hon]; rfl)).trans ?_)
  dsimp only
  rw [if_pos (.inl h1), if_pos harm, State.when_of _ _ (decide_eq_true hdue), State.foutAct_once h1]

theorem State.foutAction_pulse (hk : k < 8) (hon : s.isOn 7 = true) (h3 : s.rd (EVI_FOUT_CTRL_MODE k) = 3)
    (hdue : s.rd (EVI_FOUT_T_NS k) ≤ s.time.ns) : exec (.foutAction k) s = .next (s.pulseBegun k) := by
  refine congrArg Outcome.next ((State.when_of s _ (by rw [decide_eq_true hk, hon]; rfl)).trans ?_)
  refine (if_neg (by rw [h3]; decide)).trans ?_
  exact State.when_of _ _ (by rw [h3, decide_eq_true hdue]; rfl)

end Fout

/-! ## Steps (R185, R186) -/

/-- The time moved by a step, before the port's cycles follow it. -/
def State.stepMade (s : State) (new : Nat) : State :=
  (s.setTime new).modTime (fun x => { x with step := none, gap := true, begun := (new + 124999) / 125000 - 1 })

/-- A step taken at a cycle, by a number of cycles. -/
def State.stepEnded (s : State) (c new : Nat) (k : Int) : State :=
  let s := foldS [0, 1, 2] (fun s n => s.movePort n c k) (s.stepMade new)
  let s := (s.flag TIME_STEP_STATUS_PENDING false).wr TIME_STEP_STATUS_COUNT (s.rd TIME_STEP_STATUS_COUNT + 1)
  (s.raise 6 1).timeStepped

theorem State.stepTaken_exec {s : State} {r : StepReq} {c at_ : Nat} (hr : s.time.step = some r) (hc : r.cycle = some c) (hat : s.stepAt c = some at_) :
    exec .stepTaken s = .next (s.stepEnded c ((at_ : Int) + r.delta).toNat (stepCycles r.delta)) := by
  change Outcome.next _ = _
  rw [hr]
  dsimp only
  rw [hc]
  dsimp only
  rw [hat]
  rfl

theorem State.stepEnded_time (s : State) (c new : Nat) (k : Int) : (s.stepEnded c new k).time = (s.stepMade new).time := by
  have hports : (foldS [0, 1, 2] (fun s n => s.movePort n c k) (s.stepMade new)).time = (s.stepMade new).time :=
    (foldS_follows _ _ (fun u n hu => State.movePort_follows (msk := 8) rfl n c k hu) (Follows.refl 8 _)).parts .time rfl
  have hpassed (u : State) : u.timeStepped.time = u.time := (State.timeStepped_follows (msk := 546) rfl (Follows.refl 546 u)).parts .time rfl
  rw [State.stepEnded, hpassed, State.raise_time, State.wr_time, State.flag_time, hports]

theorem State.stepEnded_pending (s : State) (c new : Nat) (k : Int) : (s.stepEnded c new k).on TIME_STEP_STATUS_PENDING = false := by
  rw [State.stepEnded, State.on_of_word (State.timeStepped_keeps _ (by decide) (by decide)), State.on_flag_apart _ _ _ _ rfl,
    State.on_raise_apart _ _ _ _ rfl, State.on_wr_apart _ _ _ _ rfl, State.on_flag_one _ _ _ rfl]

theorem State.stepEnded_hold (s : State) (c new : Nat) (k : Int) : (s.stepEnded c new k).on GRD_STATUS_AGE_HOLD = true := by
  rw [State.stepEnded, State.on_of_word (State.timeStepped_keeps _ (by decide) (by decide)), State.on_flag_one _ _ _ rfl]

/-! ## Cycle boundaries (R76) -/

theorem State.showStep_time (s : State) (r : StepReq) : (s.showStep r).time = { s.time with step := some r } := by
  have hcyc (u : State) : (match r.cycle with | some c => u.wr TIME_STEP_CYCLE c | none => u).time = u.time := by
    split
    · exact State.wr_time ..
    · rfl
  rw [State.showStep, State.modTime_time, State.wr_time, State.wr_time]
  exact congrArg (fun t : TimeS => { t with step := some r }) ((hcyc _).trans (State.flag_time ..))

theorem State.stepRelease_time (s : State) : s.stepRelease.time.gap = s.time.gap ∧ s.stepRelease.time.begun = s.time.begun := by
  have hsched (u : State) (d : Int) : (u.scheduleStep d).time.gap = u.time.gap ∧ (u.scheduleStep d).time.begun = u.time.begun := by
    have htime : ∃ r, (u.scheduleStep d).time = { u.time with step := some r } :=
      ⟨_, (State.when_keeps (fun t => t.time) (f := (·.emit (.stepNotice (cycAdd u.cycle (if u.aloneInScope then 1 else 16)) d)))
        (State.emit_time ..)).trans (State.showStep_time ..)⟩
    obtain ⟨r, hr⟩ := htime
    rw [hr]
    exact ⟨rfl, rfl⟩
  unfold State.stepRelease
  split
  · next r _ =>
    cases hcond : (r.cycle.isNone && r.own && !s.time.stepWait.any (fun e => s.encLinks.contains e)) with
    | true =>
      rw [State.when_of _ _ rfl]
      exact hsched s r.delta
    | false =>
      rw [State.when_of_not _ _ rfl]
      exact ⟨rfl, rfl⟩
  · exact ⟨rfl, rfl⟩

/-- A cycle that has begun: the gap has ended, and the time is not before its first instant. -/
def State.boundaryPassed (s : State) : State :=
  let k := s.time.begun + 1
  let s := if s.now < k * 125000 then (s.modTime (fun t => { t with ran := t.ran + (k * 125000 - s.now) })).countTo (k * 125000) else s
  s.modTime (fun t => { t with begun := max k (s.now / 125000), gap := false })

theorem State.boundaryPassed_time (s : State) : s.boundaryPassed.time.gap = false ∧ s.time.begun + 1 ≤ s.boundaryPassed.time.begun := by
  rw [State.boundaryPassed, State.modTime_time]
  exact ⟨rfl, Nat.le_max_left ..⟩

/-- What the ports and the contexts do at a boundary. -/
def State.boundaryWork (s : State) : State :=
  let s := foldS [0, 1, 2] (fun s n => s.cycleOfPort n) s
  let s := foldS (List.range 256) (fun s c => s.refillCtx c (fun n => !s.on (LNK_STATUS_MODE1040 n))) s
  foldS (List.range 256) (fun s c => (s.ctxEntries c).splitWait c) s

theorem State.cycleBoundary_eq (s : State) : s.cycleBoundary = s.boundaryPassed.boundaryWork.stepRelease := by
  rw [State.cycleBoundary]
  rfl

theorem State.boundaryWork_time (s : State) : s.boundaryWork.time = s.time := by
  have hports : Follows 586 s (foldS [0, 1, 2] (fun s n => s.cycleOfPort n) s) :=
    foldS_follows _ _ (fun u n hu => State.cycleOfPort_follows (msk := 586) rfl n hu) (Follows.refl 586 s)
  have hrefill (u : State) (hu : Follows 586 s u) :
      Follows 586 s (foldS (List.range 256) (fun s c => s.refillCtx c (fun n => !s.on (LNK_STATUS_MODE1040 n))) u) :=
    foldS_follows _ _ (fun v c hv => State.refillCtx_follows (msk := 586) rfl c _ hv) hu
  have hwait (u : State) (hu : Follows 586 s u) : Follows 586 s (foldS (List.range 256) (fun s c => (s.ctxEntries c).splitWait c) u) :=
    foldS_follows _ _ (fun v c hv => State.splitWait_follows (msk := 586) rfl c (State.ctxEntries_follows (msk := 586) rfl c hv)) hu
  exact (hwait _ (hrefill _ hports)).parts .time rfl

/-- The keys of the far end as the news tells them. -/
def State.farKeysTold (s : State) (w : TreeNews) : State :=
  match w.keys with
  | some l => s.modTime (fun t => { t with farKeys := l })
  | none => s

/-- The tree without the chips that left, for a crown. -/
def State.treeLeft (s : State) (w : TreeNews) : State :=
  { s with chip := { s.chip with tree := w.left.foldl (fun t (e : Nat × Nat) => treeWithout t e.1 e.2) s.chip.tree, joining := [] } }

/-- The tree as the news makes it. -/
def State.treeMade (s : State) (w : TreeNews) : State :=
  if s.crown then (s.treeLeft w).numberAll (s.chip.joining ++ w.joined)
  else
    match w.told with
    | some t => s.treeTold t
    | none => s

theorem State.treeNews_eq (s : State) (w : TreeNews) : s.treeNews w = (s.farKeysTold w).treeMade w := by
  rw [State.treeNews, State.treeMade, State.farKeysTold] <;> rfl

theorem State.treeMade_time (s : State) (w : TreeNews) : (s.treeMade w).time = s.time := by
  have hleft : (s.treeLeft w).time = s.time := rfl
  unfold State.treeMade
  split
  · exact ((State.numberAll_follows (msk := 1) rfl _ (Follows.refl 1 _)).parts .time rfl).trans hleft
  · split
    · exact (State.treeTold_follows (msk := 1) rfl _ (Follows.refl 1 s)).parts .time rfl
    · rfl

theorem State.treeNews_begun (s : State) (w : TreeNews) : (s.treeNews w).time.begun = s.time.begun := by
  rw [State.treeNews_eq, State.treeMade_time, State.farKeysTold]
  split
  · rw [State.modTime_time]
  · rfl

/-- What follows the boundary in a cycle that begins leaves the time alone. -/
def State.boundaryFollows (s : State) : State :=
  let s := foldS [0, 1, 2] (fun s n => s.answerIdle n) s.pavilionSof.retryHeld
  s.when s.pwr.entryPending (fun s => s.suspendLinks (s.rd PWR_PS_CTRL_TARGET))

theorem State.boundaryFollows_time (s : State) : s.boundaryFollows.time = s.time := by
  have hheld : Follows 4938 s s.pavilionSof.retryHeld := State.retryHeld_follows (msk := 4938) rfl (State.pavilionSof_follows (Follows.refl 4938 s))
  have hidle : Follows 4938 s (foldS [0, 1, 2] (fun s n => s.answerIdle n) s.pavilionSof.retryHeld) :=
    foldS_follows _ _ (fun u n hu => State.answerIdle_follows (msk := 4938) rfl n hu) hheld
  rw [State.boundaryFollows]
  generalize foldS [0, 1, 2] (fun s n => s.answerIdle n) s.pavilionSof.retryHeld = u at hidle ⊢
  have hlinks : Follows 4938 s (u.when u.pwr.entryPending (fun s => s.suspendLinks (s.rd PWR_PS_CTRL_TARGET))) :=
    State.when_follows hidle _ fun y hy => State.suspendLinks_follows (msk := 4938) rfl _ hy
  exact hlinks.parts .time rfl

theorem State.cycleBegins_eq (s : State) : s.cycleBegins =
    ((s.modChip (fun c => { c with news := {} })).treeNews s.chip.news).cycleBoundary.boundaryFollows := by
  rw [State.cycleBegins]
  rfl

theorem State.cycleBegins_time (s : State) : s.cycleBegins.time.gap = false ∧ s.time.begun + 1 ≤ s.cycleBegins.time.begun := by
  have hnews : ((s.modChip (fun c => { c with news := {} })).treeNews s.chip.news).time.begun = s.time.begun :=
    (State.treeNews_begun _ _).trans (congrArg TimeS.begun (State.modChip_time ..))
  rw [State.cycleBegins_eq, State.boundaryFollows_time, ← hnews]
  generalize (s.modChip (fun c => { c with news := {} })).treeNews s.chip.news = u
  obtain ⟨hgap, hbegun⟩ := u.boundaryPassed.boundaryWork.stepRelease_time
  rw [State.cycleBoundary_eq, hgap, hbegun, State.boundaryWork_time]
  exact u.boundaryPassed_time

/-- Settles O20: each output, step and boundary does the work of its rule; the work of a boundary leaves the time that has begun. -/
theorem outputAndStepCommands : Obligations.OutputAndStepCommands := by
  unfold Obligations.OutputAndStepCommands
  refine ⟨?_, ?_, ?_, ?_, ?_, ?_, ?_, ?_, ?_, ?_, ?_⟩
  case refine_1 =>
    intro s p k hk h hmode
    exact congrArg Outcome.next ((State.when_of s _ (decide_eq_true hk)).trans
      (State.runCmd_accepted (c := cmdFoutArm k) h (foutCtrl_mod hk) (if_neg hmode) rfl))
  case refine_2 =>
    intro s p k hk h hmode
    exact congrArg Outcome.next ((State.when_of s _ (decide_eq_true hk)).trans
      (State.runCmd_rejected (c := cmdFoutArm k) h (foutCtrl_mod hk) (by decide) (if_pos hmode)))
  case refine_3 => exact fun s k hk hon h1 harm hdue => ⟨_, State.foutAction_once hk hon h1 harm hdue, s.foutDriven_effect k⟩
  case refine_4 =>
    intro s k hk hpulse
    exact ⟨s.pulseEnded k, congrArg Outcome.next (State.when_of s _ (by rw [decide_eq_true hk, hpulse]; rfl)), s.pulseEnded_effect k⟩
  case refine_5 =>
    intro s p h hroot
    exact congrArg Outcome.next (State.runCmd_accepted (c := cmdStepCmdSet) h rfl (if_pos hroot) rfl)
  case refine_6 =>
    intro s p h hroot
    exact congrArg Outcome.next (State.runCmd_rejected (c := cmdStepCmdSet) h rfl (by decide) (if_neg (by rw [hroot]; exact Bool.false_ne_true)))
  case refine_7 =>
    intro s n c d hnat hfollow
    exact congrArg Outcome.next (State.when_of s _ (by rw [hnat, hfollow]; rfl))
  case refine_8 =>
    intro s r c at_ hr hc hat
    refine ⟨_, State.stepTaken_exec hr hc hat, ?_, ?_, State.stepEnded_pending .., State.stepEnded_hold ..⟩
    · rw [State.stepEnded_time, State.stepMade, State.modTime_time]
    · rw [State.stepEnded_time, State.stepMade, State.modTime_time]
  case refine_9 => exact fun s => rfl
  case refine_10 => exact fun s => s.cycleBegins_time
  case refine_11 => exact fun s k hk hon h3 hdue => ⟨_, State.foutAction_pulse hk hon h3 hdue, s.pulseBegun_effect k⟩

end Sys2Proof.Machine
end

section
/-!
PROOFS. Event inputs: edges, filters, windows and the FIFO (R190, R193).
-/

namespace Sys2Proof.Machine

open Host (Outcome)

/-! ## What an accepted edge leaves -/

theorem State.showEvi_word (s : State) {a : Nat} (h : a = 0x07040) : s.showEvi.word a = s.word a := by
  have hcount : a ≠ EVI_FIFO_STAT_COUNT.addr := by rw [h]; decide
  have hinfo : a ≠ EVI_FIFO_INFO_SEQ.addr := by rw [h]; decide
  have hhi : a ≠ EVI_FIFO_HI.addr := by rw [h]; decide
  have hlo : a ≠ EVI_FIFO_LO.addr := by rw [h]; decide
  unfold State.showEvi
  dsimp only
  split
  · rw [State.word_wr_ne _ _ _ _ hlo, State.word_wr_ne _ _ _ _ hhi, State.word_setWord_ne _ _ _ _ hinfo, State.word_wr_ne _ _ _ _ hcount]
  · rw [State.word_wr_ne _ _ _ _ hlo, State.word_wr_ne _ _ _ _ hhi, State.word_setWord_ne _ _ _ _ hinfo, State.word_wr_ne _ _ _ _ hcount]

theorem State.showEvi_ins (s : State) : s.showEvi.evi = s.evi := by
  unfold State.showEvi
  dsimp only
  split
  · rw [State.wr_evi, State.wr_evi, State.setWord_evi, State.wr_evi]
  · rw [State.wr_evi, State.wr_evi, State.setWord_evi, State.wr_evi]

theorem State.eviPush_word (s : State) (e : EviEntry) {a : Nat} (h : a = 0x07040) : (s.eviPush e).word a = s.word a := by
  have hisr : a ≠ (PG_ISR 7).addr := by rw [h]; decide
  have hlost : a ≠ EVI_FIFO_STAT_LOST.addr := by rw [h]; decide
  unfold State.eviPush
  refine State.ite_word ?_ ?_
  · rw [State.raise_word _ _ _ _ hisr]
    exact State.word_setWord_ne _ _ _ _ hlost
  · rw [State.raise_word _ _ _ _ hisr, State.showEvi_word _ h]
    exact State.mk_word ..

theorem State.eviPush_ins (s : State) (e : EviEntry) : (s.eviPush e).evi.ins = s.evi.ins := by
  unfold State.eviPush
  split
  · rw [State.raise_evi, State.incSat_evi]
  · rw [State.raise_evi, State.showEvi_ins]
    rfl

theorem State.stageEvent_word (s : State) (typ sub stamp st sq status : Nat) {a : Nat} (h : a / 0x1000 ≠ 38) :
    (s.stageEvent typ sub stamp st sq status).word a = s.word a := by
  unfold State.stageEvent
  refine State.ite_word rfl ?_
  exact (State.stageEntry_word _ _ _ h).trans (State.modStn_word ..)

theorem State.eviFires_word (s : State) (i : Nat) (level : Bool) (a : Nat) : (s.eviFires i level).word a = s.word a := by
  unfold State.eviFires
  exact State.ite_word rfl (State.mk_word ..)

section Accept
variable (s : State) (i : Nat) (level : Bool) (at_ : Nat × Bool) (bounce raw : Bool)

/-- The accepted level stands in LEVEL, whatever the entry and the events do. -/
theorem State.eviAccept_level : (s.eviAccept i level at_ bounce raw).word 0x07040 = (s.setBit EVI_LEVEL_ACC i level).word 0x07040 := by
  rw [State.eviAccept, State.when_word _ _ (·.wakeBy 4) _ (State.wakeBy_word _ _ (by decide) (by decide)), State.eviFires_word,
    State.stageEvent_word _ _ _ _ _ _ _ (by decide)]
  exact State.when_word _ _ _ _ (State.eviPush_word _ _ rfl)

theorem State.eviAccept_ins : (s.eviAccept i level at_ bounce raw).evi.ins = s.evi.ins := by
  have hwake (u : State) : (u.wakeBy 4).evi = u.evi := (State.wakeBy_follows (msk := 524315) rfl 4 (Follows.refl 524315 u)).parts .evi rfl
  have hfires (u : State) : (u.eviFires i level).evi = u.evi := (State.eviFires_follows (msk := 2) rfl i level (Follows.refl 2 u)).parts .evi rfl
  have hstage (u : State) (a b c d e f : Nat) : (u.stageEvent a b c d e f).evi = u.evi :=
    (State.stageEvent_follows (msk := 32770) rfl a b c d e f (Follows.refl 32770 u)).parts .evi rfl
  rw [State.eviAccept]
  refine (State.when_keeps (·.evi.ins) (f := (·.wakeBy 4)) (congrArg EviS.ins (hwake _))).trans ?_
  rw [hfires, hstage]
  refine (State.when_keeps (·.evi.ins) (f := (·.eviPush _)) (State.eviPush_ins _ _)).trans ?_
  rw [State.setBit_evi]

theorem State.eviAccept_acc (hi : i < 16) : (s.eviAccept i level at_ bounce raw).bit EVI_LEVEL_ACC i = level := by
  rw [State.bit, State.rd_of_word (f := EVI_LEVEL_ACC) (s.eviAccept_level i level at_ bounce raw)]
  exact State.bit_setBit_self s EVI_LEVEL_ACC i level hi rfl

end Accept

/-! ## What the publications leave -/

theorem State.ethSend_word (s : State) (port tc : Nat) (b : List Byte) {a : Nat} (h : a < 0x10000) : (s.ethSend port tc b).word a = s.word a := by
  have hframes : a ≠ (ETH_TX_FRAMES port).addr := by simp only [ETH_TX_FRAMES]; omega
  exact State.when_word _ _ _ _ ((State.emit_word ..).trans (State.word_inc_ne _ _ _ _ hframes))

theorem State.pubSend_word (s : State) (i : Nat) {a : Nat} (h : a < 0x10000) : (s.pubSend i).word a = s.word a := by
  have hsent : a ≠ (PUB_SENT i).addr := by simp only [PUB_SENT]; omega
  rw [State.pubSend, State.word_inc_ne _ _ _ _ hsent]
  refine (foldS_word _ _ _ fun u x => ?_).trans (foldS_word _ _ _ fun u k => u.ethSend_word k 7 _ h)
  dsimp only
  rw [State.ethSend_word _ _ _ _ h, State.emit_word, State.ethSend_word _ _ _ _ h, State.emit_word]
  exact State.modStn_word ..

theorem State.pubChanges_word (s : State) (l : List (Nat × Bool)) (q : Nat) (valid : Bool) {a : Nat} (h : a < 0x10000) :
    (s.pubChanges l q valid).word a = s.word a := by
  refine State.when_word _ _ _ _ (foldS_word _ _ _ fun u i => ?_)
  have hst : a ≠ (PUB_STSQ i 0).addr := by simp only [PUB_STSQ]; omega
  have hsq : a ≠ (PUB_STSQ i 1).addr := by simp only [PUB_STSQ]; omega
  dsimp only
  refine State.ite_word rfl ?_
  split
  · rfl
  · rw [State.pubSend_word _ _ h, State.modStn_word, State.word_wr_ne _ _ _ _ hsq, State.word_wr_ne _ _ _ _ hst]

section Publish
variable (s old : State) (ins : List Nat) (at_ : Nat × Bool)

theorem State.eviPublish_word {a : Nat} (h : a < 0x10000) : (s.eviPublish old ins at_).word a = s.word a :=
  State.when_word _ _ _ _ (State.pubChanges_word _ _ _ _ h)

theorem State.eviPublish_evi : (s.eviPublish old ins at_).evi = s.evi :=
  (State.when_follows (Follows.refl 32768 s) _ fun y hy => State.pubChanges_follows (msk := 32768) rfl _ _ _ hy).parts .evi rfl

/-- Nothing is published where no accepted level has changed. -/
theorem State.eviPublish_same (i : Nat) (h : s.bit EVI_LEVEL_ACC i = old.bit EVI_LEVEL_ACC i) : s.eviPublish old [i] at_ = s := by
  rw [State.eviPublish, List.filter_cons_of_neg (by rw [h, bne_self_eq_false]; exact Bool.false_ne_true)]
  exact State.when_of_not _ _ rfl

end Publish

/-! ## Candidates, windows and acceptances (R190) -/

section Input
variable {s : State} {i : Nat} {level : Bool} {at_ : Nat × Bool}

theorem State.modIn_bit (s : State) (i : Nat) (f : EviIn → EviIn) (g : Fld) (b : Nat) : (s.modIn i f).bit g b = s.bit g b := State.mk_bit ..

theorem State.eviIn_of_ins {t : State} (h : t.evi.ins = s.evi.ins) (i : Nat) : t.eviIn i = s.eviIn i := by
  rw [State.eviIn, h, State.eviIn]

theorem State.rawShown_rd (v : Bool) {g : Fld} (h : g.addr ≠ 0x07040) : (s.setBit EVI_LEVEL_RAW i v).rd g = s.rd g :=
  State.rd_setBit_apart _ _ _ _ _ (Fld.apart_of_addr_ne h)

theorem eviCfg_addr {g : Fld} (hg : g.addr = 0x07080 + 0x4 * i) : g.addr ≠ 0x07040 := by omega

theorem State.rawShown_on (v : Bool) (h : s.eviOn i = true) : (s.setBit EVI_LEVEL_RAW i v).eviOn i = true := by
  rw [State.eviOn, State.isOn, State.rawShown_rd v (by decide), State.on, State.rawShown_rd v (eviCfg_addr rfl)]
  exact h

theorem State.rawShown_acc (v : Bool) : (s.setBit EVI_LEVEL_RAW i v).bit EVI_LEVEL_ACC i = s.bit EVI_LEVEL_ACC i := State.bit_setBit_apart _ _ _ _ _ _ rfl

theorem State.rawShown_dom (v : Bool) (h : s.domOn 11 = true) : (s.setBit EVI_LEVEL_RAW i v).domOn 11 = true :=
  (State.domOn_of_chip (State.setBit_chip ..) 11).trans h

theorem State.rawShown_in (v : Bool) : (s.setBit EVI_LEVEL_RAW i v).eviIn i = s.eviIn i := State.eviIn_of_ins (congrArg EviS.ins (State.setBit_evi ..)) i

/-- An edge on an input with a glitch filter becomes a candidate. -/
theorem State.eviEdge_candidate (hon : s.eviOn i = true) (h11 : s.domOn 11 = true) (hg : 0 < s.rd (EVI_CFG_GLITCH i)) (hwin : (s.eviIn i).window = false)
    (hcand : (s.eviIn i).cand = none) (hlv : (level != s.on (EVI_CFG_INVERT i)) ≠ s.bit EVI_LEVEL_ACC i) :
    s.eviEdge i level at_ = (s.setBit EVI_LEVEL_RAW i (level != s.on (EVI_CFG_INVERT i))).modIn i (fun t => { t with cand := some (at_, false) }) := by
  have hon' := State.rawShown_on (level != s.on (EVI_CFG_INVERT i)) hon
  have h11' := State.rawShown_dom (i := i) (level != s.on (EVI_CFG_INVERT i)) h11
  have hg' := Nat.lt_of_lt_of_eq hg (State.rawShown_rd (i := i) (level != s.on (EVI_CFG_INVERT i)) (eviCfg_addr (g := EVI_CFG_GLITCH i) rfl)).symm
  have hin' := State.rawShown_in (s := s) (i := i) (level != s.on (EVI_CFG_INVERT i))
  have hacc' := State.rawShown_acc (s := s) (i := i) (level != s.on (EVI_CFG_INVERT i))
  rw [State.eviEdge]
  dsimp only
  generalize s.setBit EVI_LEVEL_RAW i (level != s.on (EVI_CFG_INVERT i)) = r at *
  rw [hon', h11', hin', hwin, hcand, hacc', beq_false_of_ne (Nat.ne_of_gt hg'), if_neg (by decide),
    if_neg (by rw [Bool.false_and]; decide), if_neg (by decide)]
  dsimp only
  rw [if_neg hlv, if_neg (Nat.ne_of_gt hg')]

/-- An edge on an input without filter is accepted at once. -/
theorem State.eviEdge_accepted (hon : s.eviOn i = true) (h11 : s.domOn 11 = true) (hg : s.rd (EVI_CFG_GLITCH i) = 0) (hd : s.rd (EVI_CFG_DEBOUNCE i) = 0)
    (hlv : (level != s.on (EVI_CFG_INVERT i)) ≠ s.bit EVI_LEVEL_ACC i) :
    s.eviEdge i level at_ = ((s.setBit EVI_LEVEL_RAW i (level != s.on (EVI_CFG_INVERT i))).modIn i (fun _ => {})).eviAccept i
      (level != s.on (EVI_CFG_INVERT i)) at_ false false := by
  have hon' := State.rawShown_on (level != s.on (EVI_CFG_INVERT i)) hon
  have h11' := State.rawShown_dom (i := i) (level != s.on (EVI_CFG_INVERT i)) h11
  have hg' := (State.rawShown_rd (i := i) (level != s.on (EVI_CFG_INVERT i)) (eviCfg_addr (g := EVI_CFG_GLITCH i) rfl)).trans hg
  have hd' := (State.rawShown_rd (i := i) (level != s.on (EVI_CFG_INVERT i)) (eviCfg_addr (g := EVI_CFG_DEBOUNCE i) rfl)).trans hd
  have hacc' := State.rawShown_acc (s := s) (i := i) (level != s.on (EVI_CFG_INVERT i))
  rw [State.eviEdge]
  dsimp only
  generalize s.setBit EVI_LEVEL_RAW i (level != s.on (EVI_CFG_INVERT i)) = r at *
  rw [hon', h11', hg', hd', hacc', if_neg (by decide), if_pos (by decide)]
  exact State.when_of _ _ (bne_iff_ne.2 hlv)

theorem State.debounceEnd_back {q : Nat} (hwin : (s.eviIn i).window = true) (hsame : s.bit EVI_LEVEL_RAW i = s.bit EVI_LEVEL_ACC i) :
    s.debounceEnd q i = s.modIn i (fun _ => {}) := by
  rw [State.debounceEnd, State.when_of _ _ hwin]
  refine State.when_of_not _ _ ?_
  rw [State.modIn_bit, State.modIn_bit, hsame, bne_self_eq_false, Bool.and_false]

theorem State.candAccept_effect {x : (Nat × Bool) × Bool} (hi : i < 16) (hon : s.eviOn i = true) (hcand : (s.eviIn i).cand = some x) :
    (s.candAccept i).bit EVI_LEVEL_ACC i = s.bit EVI_LEVEL_RAW i ∧ ((s.candAccept i).eviIn i).cand = none := by
  obtain ⟨te, b⟩ := x
  have heq : s.candAccept i = (s.eviAccept i (s.bit EVI_LEVEL_RAW i) te b false).modIn i (fun _ =>
      { window := decide ((s.eviAccept i (s.bit EVI_LEVEL_RAW i) te b false).rd (EVI_CFG_DEBOUNCE i) >
          if b then 0 else (s.eviAccept i (s.bit EVI_LEVEL_RAW i) te b false).rd (EVI_CFG_GLITCH i)) }) := by
    rw [State.candAccept, hcand]
    exact if_neg (by rw [hon]; exact Bool.false_ne_true)
  rw [heq, State.modIn_bit, State.modIn_eviIn, State.eviAccept_acc _ _ _ _ _ _ hi]
  exact ⟨rfl, rfl⟩

/-! ## The commands -/

theorem foldS_single {α : Type} (x : α) (f : State → α → State) (s : State) : foldS [x] f s = f s x := rfl

theorem inputs_one (hi : i < 16) : (List.range 16).filter [i].contains = [i] :=
  filter_range_one hi fun x _ => by
    rw [List.contains_cons, List.contains_nil, Bool.or_false]

theorem edges_one (hi : i < 16) : (List.range 16).filter (fun x => [(i, level)].any (fun e => e.1 == x)) = [i] :=
  filter_range_one hi fun x _ => by
    rw [List.any_cons, List.any_nil, Bool.or_false, Bool.beq_comm]

theorem edge_found : ((([(i, level)].find? (fun e => e.1 == i)).map (·.2)).getD false) = level := by
  rw [List.find?_cons_of_pos (p := fun e => e.1 == i) (a := (i, level)) (beq_self_eq_true i)]
  rfl

theorem State.eviEdge_exec (hi : i < 16) (q : Nat) :
    exec (.eviEdge [(i, level)] q) s = .next ((s.eviEdge i level (s.edgeAt q)).eviPublish s [i] (s.edgeAt q)) := by
  change execEviEdge [(i, level)] q s = _
  rw [execEviEdge, edges_one hi, foldS_single, edge_found]

theorem State.eviGlitchEnd_exec (hi : i < 16) : exec (.eviGlitchEnd [i]) s =
    .next ((s.candAccept i).eviPublish s [i] (((s.eviIn i).cand.map (·.1)).getD (s.edgeAt s.nowQ))) := by
  change execEviGlitchEnd [i] s = _
  rw [execEviGlitchEnd, inputs_one hi, foldS_single]
  cases hc : (s.eviIn i).cand with
  | none =>
    rw [List.filterMap_cons_none (f := fun i => (s.eviIn i).cand) hc]
    rfl
  | some x =>
    rw [List.filterMap_cons_some (f := fun i => (s.eviIn i).cand) hc]
    rfl

end Input

/-- Settles O21: an edge becomes a candidate or is accepted; what an acceptance sets off leaves the level and the input's state. -/
theorem eventInputCommands : Obligations.EventInputCommands := by
  unfold Obligations.EventInputCommands
  refine ⟨?_, ?_, ?_, ?_, ?_, ?_⟩
  case refine_1 =>
    intro s i level q hi hon h11 hg hwin hcand hlv
    have hacc : ((s.setBit EVI_LEVEL_RAW i (level != s.on (EVI_CFG_INVERT i))).modIn i (fun t => { t with cand := some (s.edgeAt q, false) })).bit
        EVI_LEVEL_ACC i = s.bit EVI_LEVEL_ACC i := by
      rw [State.modIn_bit, State.rawShown_acc]
    refine ⟨_, State.eviEdge_exec hi q, ?_⟩
    rw [State.eviEdge_candidate hon h11 hg hwin hcand hlv, State.eviPublish_same _ _ _ i hacc]
    refine ⟨?_, ?_, ?_⟩
    · rw [State.modIn_eviIn]
    · rw [State.modIn_bit]
      exact State.bit_setBit_self _ _ _ _ hi rfl
    · exact ((SameWords.refl _ s).setBit List.mem_cons_self _ _).of_word fun w => State.mk_word ..
  case refine_2 => exact fun s i hi => State.eviGlitchEnd_exec hi
  case refine_3 =>
    intro s i q hi hwin hlast hsame
    have hexec : exec (.eviDebounceEnd [i] q) s = .next (s.modIn i (fun _ => {})) := by
      change execEviDebounceEnd [i] q s = _
      rw [execEviDebounceEnd, inputs_one hi, foldS_single, State.debounceEnd_back hwin hsame, State.eviPublish_same _ _ _ i (State.modIn_bit ..)]
    exact ⟨_, hexec, State.modIn_eviIn .., (SameWords.refl _ s).of_word fun w => State.mk_word ..⟩
  case refine_4 => exact fun s p h => congrArg Outcome.next (State.readOwn_reaches h)
  case refine_5 =>
    intro s i level q hi hon h11 hg hd hlv
    refine ⟨_, State.eviEdge_exec hi q, ?_, ?_⟩
    · rw [State.bit, State.rd_of_word (f := EVI_LEVEL_ACC) (State.eviPublish_word _ _ _ _ (by decide)), State.eviEdge_accepted hon h11 hg hd hlv]
      exact State.eviAccept_acc _ _ _ _ _ _ hi
    · rw [State.eviIn_of_ins (congrArg EviS.ins (State.eviPublish_evi ..)), State.eviEdge_accepted hon h11 hg hd hlv,
        State.eviIn_of_ins (State.eviAccept_ins ..), State.modIn_eviIn]
  case refine_6 =>
    intro s i x hi hon hcand
    obtain ⟨hacc, hnone⟩ := State.candAccept_effect hi hon hcand
    refine ⟨_, State.eviGlitchEnd_exec hi, ?_, ?_⟩
    · rw [State.bit, State.rd_of_word (f := EVI_LEVEL_ACC) (State.eviPublish_word _ _ _ _ (by decide))]
      exact hacc
    · rw [State.eviIn_of_ins (congrArg EviS.ins (State.eviPublish_evi ..)), hnone]

end Sys2Proof.Machine
end

section
/-!
PROOFS. Ends, faults and timeouts of a context (R110–R112, R116, R117).
-/

namespace Sys2Proof.Machine

open Host (Outcome)

/-! ## What follows a change of a context leaves the state of every context -/

section Kept
variable {c : Nat}

/-- The word with MODE and STATE of a context. -/
theorem ctxState_notFlow (hc : c < 256) : ¬ FlowWord false (0x200004 + 0x80 * c) := by
  simp only [FlowWord, PG_ISR, SIEVE_NO_CTX, SIEVE_COPY_LOST, Bool.false_eq_true, false_and, or_false]
  omega

theorem State.portUpdate_state (s : State) {p : Nat} (hp : p < 16) (hc : c < 256) :
    (s.portUpdate p).word (0x200004 + 0x80 * c) = s.word (0x200004 + 0x80 * c) := by
  have hst : 0x200004 + 0x80 * c ≠ (USBH_PORT_ST_CONNECTED p).addr := by simp only [USBH_PORT_ST_CONNECTED]; omega
  have hisr : 0x200004 + 0x80 * c ≠ (PG_ISR 30).addr := by simp only [PG_ISR]; omega
  have hdrop : 0x200004 + 0x80 * c ≠ USBH_STALE_DROP.addr := by simp only [USBH_STALE_DROP]; omega
  have hraise (u : State) (b : Bool) : (u.when b (·.raise 30 5)).word (0x200004 + 0x80 * c) = u.word (0x200004 + 0x80 * c) :=
    State.when_word _ _ _ _ (State.raise_word _ _ _ _ hisr)
  have hdown (u : State) : (u.portDown p).word (0x200004 + 0x80 * c) = u.word (0x200004 + 0x80 * c) := by
    unfold State.portDown
    dsimp only
    rw [State.word_wr_ne _ (USBH_PORT_ST_SPEED p) _ _ hst, State.word_flag_ne _ (USBH_PORT_ST_SUSPEND p) _ _ hst,
      State.word_flag_ne _ (USBH_PORT_ST_ENABLED p) _ _ hst, State.word_flag_ne _ _ _ _ hst, State.dropDeferred]
    rw [State.modUsb_word, State.word_inc_ne _ _ _ _ hdrop]
    exact foldS_word _ _ _ fun u d => State.emit_word ..
  unfold State.portUpdate
  dsimp only
  refine State.ite_word (hraise s _) ?_
  rw [State.portChg, State.emit_word, State.raise_word _ _ _ _ hisr]
  refine State.ite_word ?_ ((hdown _).trans (hraise s _))
  exact ((State.ingress_flow _ _ _ (ctxState_notFlow hc)).trans (State.word_flag_ne _ _ _ _ hst)).trans (hraise s _)

theorem State.ctxHooks_state (s : State) (hc : c < 256) : s.ctxHooks.word (0x200004 + 0x80 * c) = s.word (0x200004 + 0x80 * c) := by
  have hhpd : 0x200004 + 0x80 * c ≠ DPI_STATUS_HPD_OUT.addr := by simp only [DPI_STATUS_HPD_OUT]; omega
  have hdpi : s.dpiHpd.word (0x200004 + 0x80 * c) = s.word (0x200004 + 0x80 * c) := by
    unfold State.dpiHpd
    exact State.ite_word rfl ((State.emit_word ..).trans (State.word_flag_ne _ _ _ _ hhpd))
  rw [State.ctxHooks, State.portsUpdate]
  refine (State.when_word _ _ _ _ ?_).trans hdpi
  refine foldS_word_mem _ _ fun u p hp => u.portUpdate_state ?_ hc
  obtain ⟨k, hk, rfl⟩ := List.mem_map.1 hp
  have := List.mem_range.1 hk
  omega

theorem State.aerError_word (s : State) (fn bit : Nat) (hdr : List Nat) {a : Nat} (h : a ≠ (PG_ISR 22).addr) :
    (s.aerError fn bit hdr).word a = s.word a := by
  unfold State.aerError
  refine State.ite_word (State.modBrg_word ..) (State.ite_word ?_ ?_)
  · exact (State.emit_word ..).trans (State.modBrg_word ..)
  · exact (State.emit_word ..).trans ((State.raise_word _ _ _ _ h).trans (State.modBrg_word ..))

theorem State.showErrf_word (s : State) {a : Nat} (h : a / 0x1000 ≠ 25) : s.showErrf.word a = s.word a := by
  have hst : a ≠ LPB_ERRF_STAT_COUNT.addr := fun he => h (he ▸ rfl)
  have haddr : a ≠ LPB_ERRF_ADDR.addr := fun he => h (he ▸ rfl)
  have hinfo : a ≠ LPB_ERRF_INFO_CHIP.addr := fun he => h (he ▸ rfl)
  have hhi : a ≠ LPB_ERRF_TS_HI.addr := fun he => h (he ▸ rfl)
  have hlo : a ≠ LPB_ERRF_TS_LO.addr := fun he => h (he ▸ rfl)
  have hcause : a ≠ LPB_ERRF_CAUSE_CAUSE.addr := fun he => h (he ▸ rfl)
  unfold State.showErrf
  dsimp only
  split
  · rw [State.word_wr_ne _ _ _ _ hcause, State.word_wr_ne _ _ _ _ hlo, State.word_wr_ne _ _ _ _ hhi, State.word_setWord_ne _ _ _ _ hinfo,
      State.word_wr_ne _ _ _ _ haddr, State.word_wr_ne _ _ _ _ hst]
  · rw [State.word_wr_ne _ _ _ _ hcause, State.word_wr_ne _ _ _ _ hlo, State.word_wr_ne _ _ _ _ hhi, State.word_wr_ne _ LPB_ERRF_INFO_KIND _ _ hinfo,
      State.word_wr_ne _ LPB_ERRF_INFO_CHIP _ _ hinfo, State.word_wr_ne _ LPB_ERRF_INFO_CTX _ _ hinfo, State.word_wr_ne _ LPB_ERRF_INFO_REQ_ID _ _ hinfo,
      State.word_setWord_ne _ _ _ _ hinfo, State.word_wr_ne _ _ _ _ haddr, State.word_wr_ne _ _ _ _ hst]

theorem State.logFail_word (s : State) (b : FarBurst) (addr cause time : Nat) {a : Nat} (h : a / 0x1000 ≠ 25) (h22 : a ≠ (PG_ISR 22).addr) :
    (s.logFail b addr cause time).word a = s.word a := by
  have hlost : a ≠ LPB_ERRF_STAT_LOST.addr := fun he => h (he ▸ rfl)
  have hfails : a ≠ LPB_FENCE_FAILS.addr := fun he => h (he ▸ rfl)
  have hisr : a ≠ (PG_ISR 25).addr := fun he => h (he ▸ rfl)
  unfold State.logFail
  dsimp only
  generalize hu : (if s.brg.errf.length ≥ 16 then (s.incSat LPB_ERRF_STAT_LOST).raise 25 2
    else (s.modBrg (fun t => { t with errf := t.errf ++ [⟨addr, b.chip, b.ctx, b.reqId, b.kind, cause, time⟩] })).showErrf) = u
  have hlog : u.word a = s.word a := by
    rw [← hu]
    refine State.ite_word ((State.raise_word _ _ _ _ hisr).trans ?_) ((State.showErrf_word _ h).trans (State.modBrg_word ..))
    exact State.word_setWord_ne _ _ _ _ hlost
  refine State.ite_word ?_ ((State.raise_word _ _ _ _ hisr).trans hlog)
  refine (State.when_word _ _ _ _ (State.aerError_word _ _ _ _ h22)).trans ((State.raise_word _ _ _ _ hisr).trans (Eq.trans ?_ hlog))
  exact State.word_setWord_ne _ _ _ _ hfails

theorem State.farCtxFault_state (s : State) (d : Nat) (hc : c < 256) : (s.farCtxFault d).word (0x200004 + 0x80 * c) = s.word (0x200004 + 0x80 * c) := by
  have hca : 0x200004 + 0x80 * c ≠ PCIE_CA_SENT.addr := by simp only [PCIE_CA_SENT]; omega
  rw [State.farCtxFault, foldS_word _ _ _ fun u b => ?_]
  · exact State.modBrg_word ..
  · unfold State.farLost
    refine State.ite_word (State.logFail_word _ _ _ _ _ (by omega) (by simp only [PG_ISR]; omega)) ?_
    exact (State.emit_word ..).trans (State.word_inc_ne _ _ _ _ hca)

theorem State.dmaCtxFault_state (s : State) (d : Nat) (hc : c < 256) : (s.dmaCtxFault d).word (0x200004 + 0x80 * c) = s.word (0x200004 + 0x80 * c) := by
  rw [State.dmaCtxFault]
  refine foldS_word_mem _ _ fun u x hx => State.when_word _ _ _ _ ?_
  have hx32 : x < 32 := List.mem_range.1 (List.mem_filter.1 hx).1
  have hst : 0x200004 + 0x80 * c ≠ (DMA_CH_STATE_HALT x).addr := by simp only [DMA_CH_STATE_HALT]; omega
  have hmap : 0x200004 + 0x80 * c ≠ DMA_HALT_MAP.addr := by simp only [DMA_HALT_MAP]; omega
  have hisr : 0x200004 + 0x80 * c ≠ (PG_ISR 24).addr := by simp only [PG_ISR]; omega
  rw [State.halt, State.raise_word _ _ _ _ hisr, State.word_setBit_ne _ _ _ _ _ hmap, State.word_wr_ne _ (DMA_CH_STATE_CAUSE x) _ _ hst,
    State.word_flag_ne _ _ _ _ hst]

end Kept

/-! ## The life of a context -/

section Life
variable (s : State) {c : Nat}

/-- A context takes the life it is given. -/
theorem State.ctxSetLife_life {v : Nat} (hc : c < 256) (hv : v < 8) : (s.ctxSetLife c v).ctxLife c = v := by
  have haddr : (CTX_STATE_LIFE c).addr = 0x200004 + 0x80 * c := rfl
  have hevt : (CTX_STATE_LIFE c).addr ≠ (TUN_CTX_EVT (c / 32)).addr := by rw [haddr]; simp only [TUN_CTX_EVT]; omega
  have hfault : (CTX_STATE_LIFE c).addr ≠ (TUN_CTX_FAULT (c / 32)).addr := by rw [haddr]; simp only [TUN_CTX_FAULT]; omega
  have hcount : (CTX_STATE_LIFE c).addr ≠ TUN_COUNT_ON_N.addr := by rw [haddr]; simp only [TUN_COUNT_ON_N]; omega
  have hisr : (CTX_STATE_LIFE c).addr ≠ (PG_ISR 15).addr := by rw [haddr]; simp only [PG_ISR]; omega
  by_cases h : s.rd (CTX_STATE_LIFE c) = v
  · rw [State.ctxSetLife, if_pos h]
    exact h
  · rw [State.ctxSetLife, if_neg h]
    refine (State.rd_of_word (s := s.wr (CTX_STATE_LIFE c) v) ?_).trans ((State.rd_wr_fits _ _ _ rfl).trans (Nat.mod_eq_of_lt hv))
    dsimp only
    rw [State.raise_word _ _ _ _ hisr, State.word_wr_ne _ TUN_COUNT_FAULT_N _ _ hcount, State.word_wr_ne _ _ _ _ hcount,
      State.word_setBit_ne _ _ _ _ _ hfault, State.eventBit_word _ _ _ _ hevt]

theorem State.ctxFault_effect (cause : Nat) (hc : c < 256) : (s.ctxFault c cause).ctxLife c = lifeFault ∧
    (s.ctxFault c cause).rd (CTX_STATE_CAUSE c) = cause % 256 := by
  have hcyc : ∀ g : Fld, g.addr = 0x200004 + 0x80 * c → (CTX_FAULT_CYCLE c).apart g = true := fun g hg =>
    Fld.apart_of_addr_ne (by rw [hg]; simp only [CTX_FAULT_CYCLE]; omega)
  rw [State.ctxFault]
  refine ⟨?_, ?_⟩
  · rw [State.ctxLife, State.rd_wr_apart _ _ _ _ (hcyc _ rfl), State.rd_wr_apart _ _ _ _ rfl, State.rd_flag_apart _ _ _ _ rfl]
    exact State.ctxSetLife_life _ hc (by decide)
  · rw [State.rd_wr_apart _ _ _ _ (hcyc _ rfl), State.rd_wr_fits _ _ _ rfl]
    rfl

theorem State.ctxFaultAll_effect (cause : Nat) (hc : c < 256) : (s.ctxFaultAll c cause).ctxLife c = lifeFault ∧
    (s.ctxFaultAll c cause).rd (CTX_STATE_CAUSE c) = cause % 256 := by
  have hword : (s.ctxFaultAll c cause).word (0x200004 + 0x80 * c) = (s.ctxFault c cause).word (0x200004 + 0x80 * c) := by
    rw [State.ctxFaultAll, State.ctxHooks_state _ hc, State.dmaCtxFault_state _ _ hc, State.farCtxFault_state _ _ hc]
  obtain ⟨hlife, hcause⟩ := s.ctxFault_effect cause hc
  exact ⟨(State.rd_of_word (f := CTX_STATE_LIFE c) hword).trans hlife, (State.rd_of_word (f := CTX_STATE_CAUSE c) hword).trans hcause⟩

/-- A context that starts is ON. -/
def State.ctxStarted (c : Nat) : State := (((((s.encCheck c).resetSeq c).freshBuckets c).ctxSetLife c lifeOn)).ctxHooks

theorem State.ctxStarted_life (hc : c < 256) : (s.ctxStarted c).ctxLife c = lifeOn := by
  rw [State.ctxStarted, State.ctxLife, State.rd_of_word (f := CTX_STATE_LIFE c) (State.ctxHooks_state _ hc)]
  exact State.ctxSetLife_life _ hc (by decide)

end Life

/-! ## Replays (R117) -/

theorem State.retransmits_of {s : State} {c : Nat} {k : Kept} {r : List Kept} (hc : c < 256) (hlife : s.ctxLife c = lifeOn)
    (hkept : (s.ctx c).kept = k :: r) (hq : k.queued = false) (hcyc : cycGe s.cycle (cycAdd k.sent 3) = true) :
    exec (.retransmitTimeout c) s = .next (if s.rd (CTX_RETRY_RETRIES c) ≥ 8 then s.ctxFaultAll c 1
      else (s.inc (CTX_RETRY_RETRIES c)).startReplay c) := by
  refine congrArg Outcome.next (State.when_of s _ ?_)
  rw [hkept, hlife, decide_eq_true hc, List.head?_cons, Option.any_some, hq, hcyc]
  rfl

/-- Settles O22: each event acts where its condition holds; what follows a change of life leaves the word with LIFE and CAUSE. -/
theorem contextLifeCommands : Obligations.ContextLifeCommands := by
  unfold Obligations.ContextLifeCommands
  refine ⟨?_, ?_, ?_, ?_, ?_, ?_⟩
  case refine_1 =>
    intro s c hc hready
    refine ⟨s.ctxStarted c, ?_, rfl, s.ctxStarted_life hc⟩
    exact congrArg Outcome.next ((State.when_of s _ (decide_eq_true hc)).trans (State.when_of _ _ hready))
  case refine_2 =>
    intro s c hc hready
    exact congrArg Outcome.next (State.when_of s _ (by rw [decide_eq_true hc, hready]; rfl))
  case refine_3 =>
    intro s c hc h1 h3
    refine ⟨s.ctxFaultAll c 4, ?_, rfl, s.ctxFaultAll_effect 4 hc⟩
    exact congrArg Outcome.next (State.when_of s _ (by rw [decide_eq_true hc, decide_eq_true h1, decide_eq_true h3]; rfl))
  case refine_4 =>
    intro s c k r hc hlife hkept hq hcyc hlt
    rw [State.retransmits_of hc hlife hkept hq hcyc, if_neg (Nat.not_le.2 hlt)]
  case refine_5 =>
    intro s c k r hc hlife hkept hq hcyc hge
    rw [State.retransmits_of hc hlife hkept hq hcyc, if_pos hge]
  case refine_6 =>
    intro s c hc hlife hrel horg hres hcyc
    exact congrArg Outcome.next (State.when_of s _ (by rw [decide_eq_true hc, hlife, hrel, horg, hres, hcyc]; rfl))

end Sys2Proof.Machine
end

section
/-!
PROOFS. Requests to the PCIe port and the far-bus bridge (R197, R199, R206–R209).
-/

namespace Sys2Proof.Machine

open Host (Outcome)

section PcieLink
variable {s : State}

/-- The words of the PCIe link after a change that leaves Detect apart. -/
def State.pcieShown (s : State) (active : Bool) (l g w : Nat) : State :=
  (((s.wr PCIE_STATUS_LTSSM l).wr PCIE_STATUS_GEN (min g (s.rd PCIE_CTRL_MAX_GEN.inForce))).wr PCIE_STATUS_WIDTH
    (min w (s.rd PCIE_CTRL_MAX_WIDTH.inForce))).flag PCIE_STATUS_DL_ACTIVE active

theorem State.pcieShown_effect (s : State) (active : Bool) {l g w : Nat} (hl : l < 64) (hg : g < 4) (hw : w < 4) :
    (s.pcieShown active l g w).rd PCIE_STATUS_LTSSM = l ∧
    (s.pcieShown active l g w).rd PCIE_STATUS_GEN = min g (s.rd PCIE_CTRL_MAX_GEN.inForce) ∧
    (s.pcieShown active l g w).rd PCIE_STATUS_WIDTH = min w (s.rd PCIE_CTRL_MAX_WIDTH.inForce) ∧
    (s.pcieShown active l g w).on PCIE_STATUS_DL_ACTIVE = active := by
  have hgen : min g (s.rd PCIE_CTRL_MAX_GEN.inForce) < 4 := Nat.lt_of_le_of_lt (Nat.min_le_left ..) hg
  have hwidth : min w (s.rd PCIE_CTRL_MAX_WIDTH.inForce) < 4 := Nat.lt_of_le_of_lt (Nat.min_le_left ..) hw
  rw [State.pcieShown]
  refine ⟨?_, ?_, ?_, State.on_flag_one _ _ _ rfl⟩
  · rw [State.rd_flag_apart _ _ _ _ rfl, State.rd_wr_apart _ _ _ _ rfl, State.rd_wr_apart _ _ _ _ rfl, State.rd_wr_fits _ _ _ rfl]
    exact Nat.mod_eq_of_lt hl
  · rw [State.rd_flag_apart _ _ _ _ rfl, State.rd_wr_apart _ _ _ _ rfl, State.rd_wr_fits _ _ _ rfl]
    exact Nat.mod_eq_of_lt hgen
  · rw [State.rd_flag_apart _ _ _ _ rfl, State.rd_wr_fits _ _ _ rfl]
    exact Nat.mod_eq_of_lt hwidth

theorem State.pcieLinkChange_exec {active : Bool} {l g w : Nat} (h9 : s.domOn 9 = true) (hl : l ≠ 0) :
    exec (.pcieLinkChange active l (g, w) []) s = .next
      (((s.pcieShown active l g w).when (active && !s.on PCIE_STATUS_DL_ACTIVE) (·.raise 22 0)).when
        (s.on PCIE_STATUS_DL_ACTIVE && !active) (·.raise 22 1)) := by
  have hwidth : ((s.wr PCIE_STATUS_LTSSM l).wr PCIE_STATUS_GEN (min g (s.rd PCIE_CTRL_MAX_GEN.inForce))).rd PCIE_CTRL_MAX_WIDTH.inForce =
      s.rd PCIE_CTRL_MAX_WIDTH.inForce := by
    rw [State.rd_wr_apart _ _ _ _ rfl, State.rd_wr_apart _ _ _ _ rfl]
  have hgen : (s.wr PCIE_STATUS_LTSSM l).rd PCIE_CTRL_MAX_GEN.inForce = s.rd PCIE_CTRL_MAX_GEN.inForce := State.rd_wr_apart _ _ _ _ rfl
  refine congrArg Outcome.next ((State.when_of s _ h9).trans ?_)
  dsimp only
  rw [State.when_of_not s _ (beq_false_of_ne hl), hwidth, ← State.pcieShown]
  rfl

theorem pcieIsr_apart {g : Fld} (hg : g.addr = 0x16044) : (PG_ISR 22).apart g = true := Fld.apart_of_addr_ne (by rw [hg]; decide)

end PcieLink

/-! ## Requests of the host (R206–R209) -/

section Host
variable {s : State} {addr r g w : Nat} {be : List Bool}

/-- The burst of an atomic. -/
def State.atomBurst (s : State) (w addr op width x cmp r g : Nat) : FarBurst :=
  { s.winBurst w 2 r g false with beats := toBeats (s.farAddr w addr) (List.replicate (width / 8) true) [], atom := some (op, width, x, cmp) }

theorem State.atomicOp_exec {op width x cmp : Nat} (h9 : s.domOn 9 = true) (hfn : s.fn0Sleeps = false) (hwidth : width = 32 ∨ width = 64) (hop : op ≤ 2)
    (hwin : s.theWindow addr = some w) (hatom : s.on (LPB_W_ATTR_ATOMIC w) = true)
    (hroom : s.farRoom (s.atomBurst w addr op width x cmp r g).chip true 2 (s.atomBurst w addr op width x cmp r g).beats.length = true) :
    exec (.atomicOp none addr op width x cmp r g) s = .next ((s.ghostWrite w).farQueue (s.atomBurst w addr op width x cmp r g)) := by
  refine congrArg Outcome.next ((State.when_of s _ h9).trans ?_)
  refine (if_neg (by omega)).trans ?_
  dsimp only
  rw [hfn, if_neg Bool.false_ne_true, hwin]
  dsimp only
  rw [hatom, if_neg (by decide), ← State.atomBurst]
  exact State.when_of _ _ hroom

/-- The burst of a locked read. -/
def State.lockBurst (s : State) (w addr : Nat) (be : List Bool) (r g : Nat) : FarBurst :=
  { s.winBurst w 3 r g false with beats := toBeats (s.farAddr w addr) be [] }

theorem State.mrdlk_exec (h9 : s.domOn 9 = true) (hfn : s.fn0Sleeps = false) (hwin : s.theWindow addr = some w) (hlock : s.on (LPB_W_ATTR_LOCK w) = true)
    (hroom : s.farRoom (s.lockBurst w addr be r g).chip true 3 (s.lockBurst w addr be r g).beats.length = true) :
    exec (.mrdlk none addr be r g) s = .next (s.farQueue (s.lockBurst w addr be r g)) := by
  refine congrArg Outcome.next ((State.when_of s _ h9).trans ?_)
  dsimp only
  rw [hfn, if_neg Bool.false_ne_true, hwin]
  dsimp only
  rw [hlock, if_neg (by decide), ← State.lockBurst]
  exact State.when_of _ _ hroom

theorem State.mrdlk_unlocked (h9 : s.domOn 9 = true) (hwin : s.theWindow addr = some w) (hlock : s.on (LPB_W_ATTR_LOCK w) = false) :
    exec (.mrdlk none addr be r g) s = .next (s.cplUr r g) := by
  refine congrArg Outcome.next ((State.when_of s _ h9).trans ?_)
  dsimp only
  rw [hwin]
  cases s.fn0Sleeps with
  | true => rw [if_pos rfl]
  | false =>
    rw [if_neg Bool.false_ne_true]
    dsimp only
    rw [hlock]
    rfl

/-- The burst of a write. -/
def State.writeBurst (s : State) (w addr : Nat) (be : List Bool) (data : List Byte) (r g : Nat) : FarBurst :=
  { s.winBurst w 0 r g true with beats := toBeats (s.farAddr w addr) be data, hdr := hostHdr (s.pcieFn 1).cfg.bar2 addr be r g }

theorem State.farHost (hbe : be.length ≤ 4096) (h9 : s.domOn 9 = true) (f : State → State) : s.when (s.domOn 9 && decide (be.length ≤ 4096)) f = f s :=
  State.when_of _ _ (by rw [h9, decide_eq_true hbe]; exact Bool.true_and true)

/-- What a host's request does in its window, where it hits one. -/
def State.hostHit (s : State) (write : Bool) (addr : Nat) (be : List Bool) (data : List Byte) (r g : Nat) : State :=
  let kind := if write then 0 else 1
  let hdr := hostHdr (s.pcieFn 1).cfg.bar2 addr be r g
  match s.theWindow addr with
  | none =>
    if write then
      s.logFail { no := 0, kind := 0, cs := 0, ctx := 0, win := 0, reqId := r, tag := g, write := true, beats := [], hdr := hdr }
        addr 5 s.now64
    else s.cplUr r g
  | some w =>
    let b := { s.winBurst w kind r g write with beats := toBeats (s.farAddr w addr) be data, hdr := hdr }
    s.when (s.farRoom b.chip true kind b.beats.length) fun s =>
      if write then (s.ghostWrite w).farQueue b
      else if s.on (LPB_W_ATTR_PF w) && b.chip == 0 && !b.beats.isEmpty then s.pfRead b
      else s.farQueue b

theorem State.hostHit_write {data : List Byte} (hwin : s.theWindow addr = some w)
    (hroom : s.farRoom (s.writeBurst w addr be data r g).chip true 0 (s.writeBurst w addr be data r g).beats.length = true) :
    s.hostHit true addr be data r g = (s.ghostWrite w).farQueue (s.writeBurst w addr be data r g) := by
  unfold State.hostHit
  rw [hwin]
  exact State.when_of _ _ hroom

theorem State.hostHit_none {data : List Byte} (hwin : s.theWindow addr = none) : s.hostHit false addr be data r g = s.cplUr r g := by
  unfold State.hostHit
  rw [hwin]
  rfl

theorem State.farbusRequest_hit (write : Bool) {data : List Byte} (h9 : s.domOn 9 = true) (hbe : be.length ≤ 4096) (hfn : s.fn0Sleeps = false) :
    exec (.farbusRequest write none addr be data r g) s = .next (s.hostHit write addr be data r g) :=
  congrArg Outcome.next ((State.farHost hbe h9 _).trans (if_neg (by rw [hfn]; exact Bool.false_ne_true)))

theorem State.farbusRead_asleep {data : List Byte} (h9 : s.domOn 9 = true) (hbe : be.length ≤ 4096) (hfn : s.fn0Sleeps = true) :
    exec (.farbusRequest false none addr be data r g) s = .next (s.cplUr r g) :=
  congrArg Outcome.next ((State.farHost hbe h9 _).trans ((if_pos hfn).trans (State.when_of _ _ rfl)))

theorem State.farbusWrite_exec {data : List Byte} (h9 : s.domOn 9 = true) (hbe : be.length ≤ 4096) (hfn : s.fn0Sleeps = false)
    (hwin : s.theWindow addr = some w)
    (hroom : s.farRoom (s.writeBurst w addr be data r g).chip true 0 (s.writeBurst w addr be data r g).beats.length = true) :
    exec (.farbusRequest true none addr be data r g) s = .next ((s.ghostWrite w).farQueue (s.writeBurst w addr be data r g)) :=
  (State.farbusRequest_hit true h9 hbe hfn).trans (congrArg Outcome.next (State.hostHit_write hwin hroom))

theorem State.farbusRead_unhit {data : List Byte} (h9 : s.domOn 9 = true) (hbe : be.length ≤ 4096) (hwin : s.theWindow addr = none) :
    exec (.farbusRequest false none addr be data r g) s = .next (s.cplUr r g) := by
  cases hfn : s.fn0Sleeps with
  | true => exact State.farbusRead_asleep h9 hbe hfn
  | false => exact (State.farbusRequest_hit false h9 hbe hfn).trans (congrArg Outcome.next (State.hostHit_none hwin))

end Host

/-- Settles O23: a link change shows its words and raises the bit of the data link; a request is queued or completed as its window says. -/
theorem pcieAndFarBusRequests : Obligations.PcieAndFarBusRequests := by
  unfold Obligations.PcieAndFarBusRequests
  dsimp only
  refine ⟨?_, ?_, ?_, ?_, ?_, ?_, ?_, ?_, ?_, ?_, ?_⟩
  case refine_1 => exact fun s p h => congrArg Outcome.next (State.runCmd_accepted (c := cmdPcieRetrain) h rfl rfl rfl)
  case refine_2 =>
    intro s l g w h9 hdl hl h0 hg hw
    obtain ⟨hst, hgen, hwidth, hact⟩ := s.pcieShown_effect true hl hg hw
    refine ⟨(s.pcieShown true l g w).raise 22 0, ?_, ?_, ?_, ?_, ?_, State.raise_bit _ _ _ (by decide)⟩
    · rw [State.pcieLinkChange_exec h9 h0, hdl]
      exact congrArg Outcome.next ((State.when_of_not _ _ rfl).trans (State.when_of _ _ rfl))
    · rw [State.rd_raise_apart _ _ _ _ (pcieIsr_apart rfl), hst]
    · rw [State.rd_raise_apart _ _ _ _ (pcieIsr_apart rfl), hgen]
    · rw [State.rd_raise_apart _ _ _ _ (pcieIsr_apart rfl), hwidth]
    · rw [State.on_raise_apart _ _ _ _ (pcieIsr_apart rfl), hact]
  case refine_3 =>
    intro s c h1 h14 hdown hready
    have hexec : exec (.vdpContextChange c) s = .next (((s.setBit PCIE_VDP_STATUS_UP (c - 1) true).raise 22 2).emit (.pcieMsg 2 c)) := by
      refine congrArg Outcome.next ((State.when_of s _ (decide_eq_true h14)).trans ((if_neg (by omega)).trans ?_))
      dsimp only
      rw [hdown, hready, if_neg Bool.false_ne_true]
      exact State.when_of_not _ _ rfl
    refine ⟨_, hexec, ?_, List.mem_append_right _ List.mem_cons_self,
      (congrArg (BitVec.getLsbD · 2) (State.emit_word ..)).trans (State.raise_bit _ _ _ (by decide))⟩
    have hbit : (((s.setBit PCIE_VDP_STATUS_UP (c - 1) true).raise 22 2).emit (.pcieMsg 2 c)).bit PCIE_VDP_STATUS_UP (c - 1) = true := by
      rw [State.bit, State.emit_rd]
      exact (State.bit_raise_apart _ _ _ _ _ (Fld.apart_of_addr_ne (by decide))).trans
        (State.bit_setBit_self _ _ _ _ (by simp only [Fld.width_def, PCIE_VDP_STATUS_UP]; omega) rfl)
    exact (if_neg (by omega)).trans hbit
  case refine_4 => exact fun s addr be data r g w h9 hbe hfn hwin hroom => State.farbusWrite_exec h9 hbe hfn hwin hroom
  case refine_5 => exact fun s addr be data r g h9 hbe hwin => State.farbusRead_unhit h9 hbe hwin
  case refine_6 => exact fun s addr op width x cmp r g w h9 hfn hwidth hop hwin hatom hroom => State.atomicOp_exec h9 hfn hwidth hop hwin hatom hroom
  case refine_7 =>
    intro s tun addr op width x cmp r g h9 h32 h64
    exact congrArg Outcome.next ((State.when_of s _ h9).trans (if_pos (.inl ⟨h32, h64⟩)))
  case refine_8 => exact fun s addr be r g w h9 hfn hwin hlock hroom => State.mrdlk_exec h9 hfn hwin hlock hroom
  case refine_9 => exact fun s addr be r g w h9 hwin hlock => State.mrdlk_unlocked h9 hwin hlock
  case refine_10 =>
    intro s r g
    refine ⟨by rw [State.cplUr, State.emit_out, State.inc_out], ?_⟩
    rw [State.cplUr, State.emit_rd]
    exact State.rd_inc_fits _ _ _ rfl
  case refine_11 =>
    intro s l g w h9 hdl hl h0 hg hw
    obtain ⟨hst, -, -, hact⟩ := s.pcieShown_effect false hl hg hw
    refine ⟨(s.pcieShown false l g w).raise 22 1, ?_, ?_, ?_, State.raise_bit _ _ _ (by decide)⟩
    · rw [State.pcieLinkChange_exec h9 h0, hdl]
      exact congrArg Outcome.next ((State.when_of _ _ rfl).trans (congrArg (State.raise · 22 1) (State.when_of_not _ _ rfl)))
    · rw [State.rd_raise_apart _ _ _ _ (pcieIsr_apart rfl), hst]
    · rw [State.on_raise_apart _ _ _ _ (pcieIsr_apart rfl), hact]

end Sys2Proof.Machine
end

section
/-!
PROOFS. Far-bus transactions, their ends and timeouts, FENCE and the error FIFO (R203–R214).
-/

namespace Sys2Proof.Machine

open Host (Outcome)

section FarBus
variable {s : State}

/-! ## A burst that starts and one that ends (R203, R205) -/

/-- A burst in progress, with its first beat on the bus. -/
def State.farStarted (s : State) (b : FarBurst) (l : List FarBurst) (a : Nat) : State :=
  (s.modBrg (fun t => { t with queue := l, cur := some b })).emit (.farbus b.cs s.brg.lock.isSome b.write a)

theorem State.farbusTransaction_exec {b : FarBurst} {x : Nat × Nat × Nat} {r : List (Nat × Nat × Nat)} {l : List FarBurst} (hon : s.isOn 25 = true)
    (hcur : s.brg.cur = none) (hqueue : s.brg.queue = b :: l) (hmay : s.farMay b = true) (hkind : b.kind < 2) (hbeats : b.beats = x :: r) :
    exec .farbusTransaction s = .next (s.farStarted b l x.1) := by
  have hfind : s.brg.queue.find? s.farMay = some b := by
    rw [hqueue, List.find?_cons_of_pos hmay]
  have hnone : s.brg.queue.takeWhile (fun x => !s.farMay x) = [] := by
    rw [hqueue, List.takeWhile_cons_of_neg (by rw [hmay]; decide)]
  refine congrArg Outcome.next ((State.when_of s _ (by rw [hon, hcur]; rfl)).trans ?_)
  dsimp only
  rw [hfind, hnone]
  dsimp only
  rw [if_neg (by omega), hbeats]
  dsimp only [List.head?_cons]
  rw [if_neg (by omega), State.farStarted]
  simp only [State.modBrg, hqueue, List.length_nil, List.eraseIdx_cons_zero]

theorem State.farStarted_effect (s : State) (b : FarBurst) (l : List FarBurst) (a : Nat) : (s.farStarted b l a).brg.cur = some b ∧
    (s.farStarted b l a).brg.queue = l ∧ Out.farbus b.cs s.brg.lock.isSome b.write a ∈ (s.farStarted b l a).out ∧ SameWords [] s (s.farStarted b l a) :=
  ⟨rfl, rfl, List.mem_append_right _ List.mem_cons_self,
    (SameWords.refl _ s).of_word fun w => (State.emit_word ..).trans (State.modBrg_word ..)⟩

/-- A remote posted write that has ended is forgotten. -/
theorem State.farAnswered_posted (s : State) (no : Nat) {b : FarBurst} (a tm : Nat) (d : List Nat) (hkind : b.kind = 0) :
    s.farAnswered no b false 0 a tm d = s.modBrg (fun t => { t with remote := tdel t.remote no }) := by
  rw [State.farAnswered, if_pos rfl, hkind]
  rfl

/-! ## Prefetched beats (R207) -/

theorem State.ghost_effect (s : State) (w : Nat) : tget? (s.ghost w).brg.pf w = none ∧
    (s.ghost w).rd LPB_GHOST_CNT = (s.rd LPB_GHOST_CNT + (tget [] s.brg.pf w).length) % 2 ^ 32 := by
  have hbrg (u : State) (l : List (Nat × Nat)) : (u.ghosts w l).brg = u.brg :=
    (State.ghosts_follows (msk := 2) rfl w l (Follows.refl 2 u)).parts .brg rfl
  have hcount (u : State) (l : List (Nat × Nat)) : (u.ghosts w l).rd LPB_GHOST_CNT = (u.rd LPB_GHOST_CNT + l.length) % 2 ^ 32 := by
    unfold State.ghosts
    cases hl : l.getLast? with
    | none =>
      rw [List.getLast?_eq_none_iff.1 hl]
      exact (Nat.mod_eq_of_lt (State.rd_lt u LPB_GHOST_CNT)).symm
    | some e =>
      dsimp only
      rw [State.rd_raise_apart _ _ _ _ rfl, State.rd_wr_apart _ _ _ _ rfl, State.rd_wr_apart _ _ _ _ rfl, State.rd_inc_fits _ _ _ rfl]
      rfl
  rw [State.ghost]
  refine ⟨?_, ?_⟩
  · rw [hbrg, State.modBrg_brg]
    exact tget?_tdel_self ..
  · rw [hcount, State.modBrg_rd]

/-! ## Locks (R209, R214) -/

/-- An UNLOCK of a requester that has nothing on its way at this chip. -/
theorem State.unlock_exec {r : Nat} (hcur : s.brg.cur = none) (hqueue : s.brg.queue = []) : exec (.unlock r) s = .next ((s.lockEnd r).unlockRemote r) := by
  change execUnlock r s = _
  rw [execUnlock, hcur, hqueue]
  rfl

/-- No request of another chip's bus has to be unlocked. -/
theorem State.unlockRemote_none {r : Nat} (hremote : s.brg.remote = []) (hheld : s.brg.held = []) :
    s.unlockRemote r = s.modBrg (fun t => { t with held := [] }) := by
  rw [State.unlockRemote, hremote, hheld]
  simp only [State.modBrg, hheld, List.filter_nil, List.nil_append, List.map_nil]
  rfl

theorem State.lockEnd_free {r : Nat} (hlock : s.brg.lock = none) : s.lockEnd r = s := by
  rw [State.lockEnd, hlock]
  exact State.when_of_not _ _ rfl

theorem State.lockEnd_mine {b : FarBurst} {r : Nat} (hlock : s.brg.lock = some b) (hkind : b.kind = 3) (hreq : b.reqId = r) :
    s.lockEnd r = s.modBrg (fun t => { t with lock := none }) := by
  rw [State.lockEnd, hlock]
  exact State.when_of _ _ (by rw [Option.any_some, hkind, hreq, beq_self_eq_true, beq_self_eq_true, Bool.true_and])

/-- The UNLOCK that follows a locked read to another chip. -/
def unlockOf (b : FarBurst) : FarBurst := { b with kind := 4, beats := [], atom := none }

theorem State.unlockRemote_held {b : FarBurst} {no : Nat} (hremote : s.brg.remote = []) (hheld : s.brg.held = [(no, b)]) (hkind : b.kind = 3) :
    s.unlockRemote b.reqId = ((s.modBrg (fun t => { t with held := [] })).emit (.farReq (unlockOf b))).lpbCarry (unlockOf b) := by
  have hmine : ([b].filter (fun x => x.kind == 3 && x.reqId == b.reqId)) = [b] :=
    List.filter_cons_of_pos (by rw [hkind, beq_self_eq_true, beq_self_eq_true, Bool.true_and])
  have hrest : ([(no, b)].filter (fun e => e.2.reqId != b.reqId)) = [] :=
    List.filter_cons_of_neg (by rw [bne_self_eq_false]; exact Bool.false_ne_true)
  rw [State.unlockRemote]
  simp only [State.modBrg, hremote, hheld, List.nil_append, List.map_cons, List.map_nil, hmine, hrest]
  rfl

theorem State.lpbCarry_keeps (u : State) (b : FarBurst) : (u.lpbCarry b).brg = u.brg ∧ u.out <+: (u.lpbCarry b).out := by
  have h : Follows 4938 u (u.lpbCarry b) := State.lpbCarry_follows (msk := 4938) rfl b (Follows.refl 4938 u)
  exact ⟨h.parts .brg rfl, h.out⟩

/-! ## LOCK_TIMEOUT -/

/-- The lock raised and LOCK_TO. -/
def State.lockLost (s : State) : State := (s.modBrg (fun t => { t with lock := none })).raise 25 4

theorem isr25_notFlow : ¬ FlowWord false (PG_ISR 25).addr := by
  unfold FlowWord
  decide

theorem State.farAnswer_keeps (u : State) (b : FarBurst) (more : Bool) (cause addr : Nat) (d : List Nat) :
    (u.farAnswer b more cause addr d).brg = u.brg ∧ Out.farAns b.ctx b.tag more cause addr u.now64 d ∈ (u.farAnswer b more cause addr d).out ∧
    (u.farAnswer b more cause addr d).word (PG_ISR 25).addr = u.word (PG_ISR 25).addr := by
  have h := State.ingress_follows (msk := 4938) rfl { point := 4, sub := b.cs, ns := u.now, stamp := u.now64, data := Config.lpbAnswer b.tag more cause addr u.now64 d }
    (Follows.refl 4938 (u.emit (.farAns b.ctx b.tag more cause addr u.now64 d)))
  rw [State.farAnswer]
  refine ⟨(h.parts .brg rfl).trans (State.emit_brg ..), h.out.subset (List.mem_append_right _ List.mem_cons_self), ?_⟩
  exact (State.ingress_flow (w := false) _ _ _ isr25_notFlow).trans (State.emit_word ..)

theorem State.lockTimeout_exec {b : FarBurst} (hlock : s.brg.lock = some b) (hkind : b.kind = 3) (hctx : b.ctx ≠ 0) :
    exec .lockTimeout s = .next (s.lockLost.farAnswer b false 3 (((b.beats.head?).map (·.1)).getD 0) []) := by
  change Outcome.next _ = _
  rw [hlock]
  dsimp only
  rw [State.when_of _ _ (by rw [hkind]; rfl), if_pos hctx, State.lockLost]

theorem State.lockLost_now64 (s : State) : s.lockLost.now64 = s.now64 := by
  rw [State.now64, State.now64, State.now, State.now, State.lockLost, State.raise_time, State.modBrg_time]

end FarBus

/-- Settles O24: each transaction, end or timeout takes the branch of its burst; the answers that it sends leave the bridge as it then is. -/
theorem farBusTransactions : Obligations.FarBusTransactions := by
  unfold Obligations.FarBusTransactions
  refine ⟨?_, ?_, ?_, ?_, ?_, ?_, ?_, ?_, ?_, ?_, ?_, ?_, ?_, ?_, ?_⟩
  case refine_1 =>
    intro s b x r l hon hcur hqueue hmay hkind hbeats
    exact ⟨_, State.farbusTransaction_exec hon hcur hqueue hmay hkind hbeats, s.farStarted_effect b l x.1⟩
  case refine_2 =>
    intro s b a d tm hcur
    change Outcome.next _ = _
    rw [hcur]
    exact congrArg Outcome.next (State.when_of s _ rfl)
  case refine_3 =>
    intro s b a d tm hcur hready hbeat
    change Outcome.next _ = _
    rw [hcur]
    exact congrArg Outcome.next (State.when_of s _ (by rw [hready, hbeat]; rfl))
  case refine_4 =>
    intro s b no a d tm hb hkind
    have hexec : exec (.farbusTransactionEnd (some (no, false)) 0 a tm d) s = .next (s.modBrg (fun t => { t with remote := tdel t.remote no })) := by
      change Outcome.next _ = _
      dsimp only
      rw [hb]
      exact congrArg Outcome.next (s.farAnswered_posted no a tm d hkind)
    exact ⟨_, hexec, rfl, (SameWords.refl _ s).of_word fun w => State.modBrg_word ..⟩
  case refine_5 =>
    intro s b a hcur hready hbeat
    change Outcome.next _ = _
    rw [hcur]
    exact congrArg Outcome.next (State.when_of s _ (by rw [hready, hbeat]; rfl))
  case refine_6 => exact fun s w => ⟨s.ghost w, rfl, s.ghost_effect w⟩
  case refine_7 =>
    intro s b r hlock hkind hreq hcur hqueue hremote hheld
    refine ⟨_, State.unlock_exec hcur hqueue, ?_⟩
    rw [State.lockEnd_mine hlock hkind hreq,
      State.unlockRemote_none (s := s.modBrg (fun t => { t with lock := none })) hremote hheld]
    exact ⟨rfl, (SameWords.refl _ s).of_word fun w => (State.modBrg_word ..).trans (State.modBrg_word ..)⟩
  case refine_8 =>
    intro s r hlock hcur hqueue hremote hheld
    refine ⟨_, State.unlock_exec hcur hqueue, ?_⟩
    rw [State.lockEnd_free hlock, State.unlockRemote_none hremote hheld]
    refine ⟨?_, rfl, (SameWords.refl _ s).of_word fun w => State.modBrg_word ..⟩
    rw [State.modBrg_brg, ← hheld]
  case refine_9 =>
    intro s b hlock hkind hctx
    obtain ⟨hbrg, hout, hisr⟩ := s.lockLost.farAnswer_keeps b false 3 (((b.beats.head?).map (·.1)).getD 0) []
    refine ⟨_, State.lockTimeout_exec hlock hkind hctx, ?_, ?_, ?_⟩
    · rw [hbrg, State.lockLost, State.raise_brg, State.modBrg_brg]
    · rw [← s.lockLost_now64]
      exact hout
    · rw [hisr]
      exact State.raise_bit _ _ _ (by decide)
  case refine_10 =>
    intro s p h hnone
    refine congrArg Outcome.next ((State.gate_reaches (x := ⟨p, 0x19044, false, 0⟩) h _).trans ?_)
    dsimp only
    rw [hnone]
    rfl
  case refine_11 =>
    intro s p h hsome
    have hexec : exec (.fenceRead p) s = .next (s.modBrg (fun t => { t with fence := t.fence ++ [(p, s.postedOut)] })) := by
      refine congrArg Outcome.next ((State.gate_reaches (x := ⟨p, 0x19044, false, 0⟩) h _).trans ?_)
      exact if_neg (by rw [List.isEmpty_iff]; exact hsome)
    exact ⟨_, hexec, rfl, (SameWords.refl _ s).of_word fun w => State.modBrg_word ..⟩
  case refine_12 =>
    intro s p r hfence
    have hdone : s.fenceComplete = (s.modBrg (fun t => { t with fence := r })).fenceAnswer p false := by
      rw [State.fenceComplete, hfence]
      exact State.when_of _ _ rfl
    exact congrArg (fun t : State => Outcome.next (t.goOn (fun x => x.addr / 0x1000 == 25))) hdone
  case refine_13 =>
    intro s p l r hfence
    have hdone : s.fenceTimeout = (s.modBrg (fun t => { t with fence := r })).fenceAnswer p true := by
      rw [State.fenceTimeout, hfence]
    exact congrArg (fun t : State => Outcome.next (t.goOn (fun x => x.addr / 0x1000 == 25))) hdone
  case refine_14 => exact fun s p h => congrArg Outcome.next (State.readOwn_reaches h)
  case refine_15 =>
    intro s b no hlock hcur hqueue hremote hheld hkind
    obtain ⟨hbrg, hout⟩ := ((s.modBrg (fun t => { t with held := [] })).emit (.farReq (unlockOf b))).lpbCarry_keeps (unlockOf b)
    refine ⟨_, State.unlock_exec hcur hqueue, ?_⟩
    rw [State.lockEnd_free hlock, State.unlockRemote_held hremote hheld hkind]
    refine ⟨hout.subset (List.mem_append_right _ List.mem_cons_self), ?_⟩
    rw [hbrg, State.emit_brg, State.modBrg_brg]

end Sys2Proof.Machine
end

section
/-!
PROOFS. The low-speed units (R213).
-/

namespace Sys2Proof.Machine

open Host (Outcome)

section LowSpeed
variable {s : State} {k u op g a st : Nat} {d rd : List Byte}

theorem State.unitOn_exists (h : s.unitOn k u = true) : unitExists k u = true := by
  rw [State.unitOn, Bool.and_eq_true, Bool.and_eq_true] at h
  exact h.1.1

/-- The GPIO unit has no enable of its own. -/
theorem State.gpioUnit_on (h : s.isOn 26 = true) : s.unitOn 4 0 = true := by
  rw [State.unitOn, h]
  rfl

theorem State.lsioMessage_exec (h9 : s.domOn 9 = true) : exec (.lsioMessage k u op g a d st rd) s = .next (s.lsioRun k u op g a d st rd) :=
  congrArg Outcome.next (State.when_of s _ h9)

theorem State.lsioRun_absent (hno : unitExists k u = false) : s.lsioRun k u op g a d st rd = s.lsioSend k u op g 4 a [] :=
  if_pos (by rw [hno]; rfl)

theorem State.lsioRun_off (hex : unitExists k u = true) (hoff : s.unitOn k u = false) :
    s.lsioRun k u op g a d st rd = s.lsioSend k u op g 3 a [] :=
  (if_neg (by rw [hex]; exact Bool.false_ne_true)).trans (if_pos (by rw [hoff]; rfl))

theorem State.lsioRun_uart (hon : s.unitOn 1 u = true) : s.lsioRun 1 u 1 g a d st rd = (s.emit (.unitTx 1 u a d)).lsioSend 1 u 1 g 0 a [] := by
  rw [State.lsioRun, State.unitOn_exists hon, hon, if_neg (by decide), if_neg (by decide), if_pos ⟨rfl, rfl⟩]

theorem State.lsioRun_gpioOut (hon : s.isOn 26 = true) (hd : d.length = 4) :
    s.lsioRun 4 0 1 g a d st rd = (s.wr LSIO_GPIO_OUT (beNat d)).gpioOut.lsioSend 4 0 1 g 0 a [] := by
  rw [State.lsioRun, State.unitOn_exists (State.gpioUnit_on hon), State.gpioUnit_on hon, if_neg (by decide), if_neg (by decide),
    if_neg (by omega), if_neg (by omega), if_neg (by omega), if_neg (by omega), if_pos ⟨rfl, rfl, hd⟩]

theorem State.lsioRun_gpioIn (hon : s.isOn 26 = true) :
    s.lsioRun 4 0 2 g a d st rd = s.lsioSend 4 0 2 g 0 a (beBytes 4 (s.rd LSIO_GPIO_IN)) := by
  rw [State.lsioRun, State.unitOn_exists (State.gpioUnit_on hon), State.gpioUnit_on hon, if_neg (by decide), if_neg (by decide),
    if_neg (by omega), if_neg (by omega), if_neg (by omega), if_neg (by omega), if_neg (by omega), if_pos ⟨rfl, rfl⟩]

/-- The words after an edge of a GPIO input. -/
def State.gpioShown (s : State) (p : Nat) (l : Bool) : State := ((s.setBit LSIO_GPIO_IN p l).eventBit LSIO_GPIO_EDGE p).raise 26 0

theorem State.eventBit_bit_self (s : State) (f : Fld) {p : Nat} (hp : p < f.width) (hf : f.fits = true) : (s.eventBit f p).bit f p = true := by
  rw [State.bit, State.eventBit, State.rd_of_word (f := f) (State.noteBits_word ..)]
  exact State.bit_setBit_self _ _ _ _ hp hf

theorem State.eventBit_bit_apart (s : State) (f g : Fld) (p b : Nat) (h : f.apart g = true) : (s.eventBit f p).bit g b = s.bit g b := by
  rw [State.bit, State.eventBit, State.rd_of_word (f := g) (State.noteBits_word ..)]
  exact State.bit_setBit_apart _ _ _ _ _ _ h

theorem gpioEdge_apart : LSIO_GPIO_EDGE.apart LSIO_GPIO_IN = true ∧ LSIO_GPIO_EDGE.apart LSIO_GPIO_EVEN = true ∧
    LSIO_GPIO_IN.apart LSIO_GPIO_EVEN = true := by decide

theorem State.gpioShown_effect (s : State) {p : Nat} (l : Bool) (hp : p < 32) : (s.gpioShown p l).bit LSIO_GPIO_IN p = l ∧
    (s.gpioShown p l).bit LSIO_GPIO_EDGE p = true ∧ ((s.gpioShown p l).word (PG_ISR 26).addr).getLsbD 0 = true ∧
    (s.gpioShown p l).bit LSIO_GPIO_EVEN p = s.bit LSIO_GPIO_EVEN p := by
  obtain ⟨hin, hev, hinev⟩ := gpioEdge_apart
  rw [State.gpioShown]
  refine ⟨?_, ?_, State.raise_bit _ _ _ (by decide), ?_⟩
  · rw [State.bit_raise_apart _ _ _ _ _ rfl, State.eventBit_bit_apart _ _ _ _ _ hin]
    exact State.bit_setBit_self _ _ _ _ hp rfl
  · rw [State.bit_raise_apart _ _ _ _ _ rfl]
    exact State.eventBit_bit_self _ _ hp rfl
  · rw [State.bit_raise_apart _ _ _ _ _ rfl, State.eventBit_bit_apart _ _ _ _ _ hev]
    exact State.bit_setBit_apart _ _ _ _ _ _ hinev

end LowSpeed

/-- Settles O25: each message takes the branch of its unit, kind and operation; an edge, received data and a held clock raise their bits. -/
theorem lowSpeedUnitCommands : Obligations.LowSpeedUnitCommands := by
  unfold Obligations.LowSpeedUnitCommands
  refine ⟨?_, ?_, ?_, ?_, ?_, ?_, ?_, ?_⟩
  case refine_1 => exact fun s k u op g a d st rd h9 hex hoff => (State.lsioMessage_exec h9).trans (congrArg _ (State.lsioRun_off hex hoff))
  case refine_2 => exact fun s g a d st rd h9 hon hd => (State.lsioMessage_exec h9).trans (congrArg _ (State.lsioRun_gpioOut hon hd))
  case refine_3 =>
    intro s p l hp hon heven
    obtain ⟨hin, hedge, hisr, hev⟩ := s.gpioShown_effect l hp
    refine ⟨s.gpioShown p l, ?_, hin, hedge, hisr⟩
    refine congrArg Outcome.next ((State.when_of s _ (by rw [hon, decide_eq_true hp]; rfl)).trans ?_)
    exact State.when_of_not _ _ (hev.trans heven)
  case refine_4 =>
    intro s u d hon hd h29
    refine congrArg Outcome.next ((State.when_of s _ (by rw [hon, decide_eq_true hd]; rfl)).trans ?_)
    exact State.when_of_not _ _ (by rw [h29]; rfl)
  case refine_5 => exact fun s u g a hon => congrArg Outcome.next (State.when_of s _ hon)
  case refine_6 => exact fun s k u op g a d st rd h9 hno => (State.lsioMessage_exec h9).trans (congrArg _ (State.lsioRun_absent hno))
  case refine_7 => exact fun s u g a d st rd h9 hon => (State.lsioMessage_exec h9).trans (congrArg _ (State.lsioRun_uart hon))
  case refine_8 => exact fun s g a d st rd h9 hon => (State.lsioMessage_exec h9).trans (congrArg _ (State.lsioRun_gpioIn hon))

end Sys2Proof.Machine
end

section
/-!
PROOFS. Invalidations, walks and the fault FIFO (R215–R229).
-/

namespace Sys2Proof.Machine

open Host (Outcome)

section Translation
variable {s : State} {c e : Nat} {w : Walk}

/-! ## Invalidations (R220) -/

theorem State.invGo_effect (s : State) : s.invGo.rd ATU_INV_EPOCH_ISSUED = (s.rd ATU_INV_EPOCH_ISSUED + 1) % 65536 ∧
    SameWords [ATU_INV_EPOCH_ISSUED.addr] s s.invGo := by
  have hlt : (s.rd ATU_INV_EPOCH_ISSUED + 1) % 65536 < 65536 := Nat.mod_lt _ (by decide)
  rw [State.invGo]
  refine ⟨?_, ?_⟩
  · rw [State.modDma_rd, State.rd_wr_fits _ _ _ rfl]
    exact Nat.mod_eq_of_lt hlt
  · exact ((SameWords.refl _ s).wr (f := ATU_INV_EPOCH_ISSUED) List.mem_cons_self _).of_word fun a => State.modDma_word ..

/-- The state after an invalidation is done, before its interrupt. -/
def State.invDone (s : State) (i : Inval) (r : List Inval) : State :=
  (s.modDma (fun d =>
    { d with inv := r, tlb := d.tlb.filter (fun e => !i.covers e.asid e.page e.size),
             chans := d.chans.map (fun (e : Nat × Chan) =>
               (e.1, { e.2 with
                 walk := e.2.walk.map (fun w => if epochLater i.epoch w.epoch then
                   { w with marked := w.marked || i.covers w.asid (w.iova / 4096 * 4096) 4096,
                            markedBig := w.markedBig || i.covers w.asid (w.iova / 2 ^ 21 * 2 ^ 21) (2 ^ 21) } else w),
                 xl := e.2.xl.map (fun x =>
                   { x with stale := x.stale || x.ent.any (fun p => i.covers (s.rd (DMA_CH_CTRL_ASID e.1).inForce) p.1 p.2) }) })) })).wr
    ATU_INV_EPOCH_DONE i.epoch

theorem State.invalidationDone_exec {i : Inval} {r : List Inval} (h : s.dma.inv = i :: r) :
    exec .invalidationDone s = .next ((s.invDone i r).raise 23 2) := by
  change execInvalidationDone s = _
  rw [execInvalidationDone, h]
  rfl

theorem State.invDone_dma (s : State) (i : Inval) (r : List Inval) : (s.invDone i r).dma.inv = r ∧
    (s.invDone i r).dma.tlb = s.dma.tlb.filter (fun e => !i.covers e.asid e.page e.size) := by
  rw [State.invDone, State.wr_dma]
  exact ⟨rfl, rfl⟩

theorem State.invDone_epoch (s : State) (i : Inval) (r : List Inval) (h : i.epoch < 65536) : (s.invDone i r).rd ATU_INV_EPOCH_DONE = i.epoch := by
  rw [State.invDone, State.rd_wr_fits _ _ _ rfl]
  exact Nat.mod_eq_of_lt h

/-! ## Walks (R217, R218, R220) -/

theorem State.walkOvertaken_marked (h : w.marked = true) (size : Nat) : s.walkOvertaken w size = true := by
  rw [State.walkOvertaken, h]
  rfl

theorem State.walkReadComplete_error (hwalk : (s.chan c).walk = some w) (hover : s.walkOvertaken w 4096 = false)
    (hbig : s.walkOvertaken w (2 ^ 21) = false) (hmode : s.rd (ATU_ROOT_LO_MODE w.asid) = 1) :
    exec (.walkReadComplete c true e) s = .next (s.xlFault c w.iova 3 w.level w.write w.desc w.epoch) := by
  have hsize : s.walkOvertaken w (if w.level == 2 && e.testBit 3 then 2 ^ 21 else 4096) = false := by
    split
    · exact hbig
    · exact hover
  change execWalkReadComplete c true e s = _
  rw [execWalkReadComplete, hwalk]
  refine congrArg Outcome.next ?_
  dsimp only
  rw [hsize, if_neg Bool.false_ne_true, if_neg (not_not.2 hmode)]
  exact if_pos rfl

/-- What a read that ends well does with an entry that is well formed and no 2 MiB leaf. -/
def State.walkEntry (s : State) (c : Nat) (w : Walk) (e : Nat) : State :=
  if !e.testBit 0 then s.xlFault c w.iova 1 w.level w.write w.desc w.epoch
  else if w.level == 3 || (w.level == 2 && e.testBit 3) then
    if (if w.write then !e.testBit 2 else !e.testBit 1) then s.xlFault c w.iova 2 w.level w.write w.desc w.epoch
    else
      let big := w.level == 2
      let page := if big then w.iova / 2 ^ 21 * 2 ^ 21 else w.iova / 4096 * 4096
      let x : TlbE := ⟨w.asid, page, big, bitsOf e 47 12 * 4096, e.testBit 1, e.testBit 2, e.testBit 4, e.testBit 5⟩
      ((s.modChan c (fun t => { t with walk := none })).tlbFill x).keepXl c (x.xl w.iova w.write)
  else
    let idx := if w.level = 1 then w.iova / 2 ^ 21 % 4096 else w.iova / 4096 % 512
    (s.modChan c (fun t => { t with walk := some { w with level := w.level + 1 } })).emit (.hostRead (bitsOf e 47 12 * 4096 + 8 * idx) 8 false)

theorem State.walkReadComplete_entry (hwalk : (s.chan c).walk = some w) (hover : s.walkOvertaken w 4096 = false)
    (hmode : s.rd (ATU_ROOT_LO_MODE w.asid) = 1) (h3 : e.testBit 3 = false) (hhi : bitsOf e 63 48 = 0) (hlo : bitsOf e 11 6 = 0) :
    exec (.walkReadComplete c false e) s = .next (s.walkEntry c w e) := by
  have hsize : s.walkOvertaken w (if w.level == 2 && e.testBit 3 then 2 ^ 21 else 4096) = false := by
    rw [h3, Bool.and_false, if_neg Bool.false_ne_true]
    exact hover
  have hwell : ¬ (bitsOf e 63 48 ≠ 0 ∨ bitsOf e 11 6 ≠ 0 ∨ (w.level = 1 ∧ e.testBit 3 = true) ∨
      (w.level = 2 ∧ e.testBit 3 = true ∧ bitsOf e 20 12 ≠ 0)) := by
    rw [h3]
    simp [hhi, hlo]
  change execWalkReadComplete c false e s = _
  rw [execWalkReadComplete, hwalk]
  refine congrArg Outcome.next ?_
  dsimp only
  rw [hsize, if_neg Bool.false_ne_true, if_neg (not_not.2 hmode), if_neg Bool.false_ne_true, if_neg hwell, State.walkEntry]

theorem State.walkEntry_table (hlevel : w.level = 1) : s.walkEntry c w 1 =
    (s.modChan c (fun t => { t with walk := some { w with level := 2 } })).emit (.hostRead (8 * (w.iova / 2 ^ 21 % 4096)) 8 false) := by
  have hread : bitsOf 1 47 12 * 4096 + 8 * (w.iova / 2 ^ 21 % 4096) = 8 * (w.iova / 2 ^ 21 % 4096) := Nat.zero_add _
  rw [State.walkEntry, if_neg (by decide), hlevel, if_neg (by decide)]
  dsimp only
  rw [if_pos rfl, hread]

theorem State.walkEntry_invalid : s.walkEntry c w 0 = s.xlFault c w.iova 1 w.level w.write w.desc w.epoch := if_pos (by decide)

/-- The entry of the buffer for a writable 4 KiB page. -/
def leafEntry (w : Walk) (k : Nat) : TlbE := ⟨w.asid, w.iova / 4096 * 4096, false, 4096 * k, true, true, false, false⟩

/-- The bits of a writable level-3 leaf to frame k. -/
theorem leaf_bits {k : Nat} (hk : k < 2 ^ 36) : bitsOf (4096 * k + 7) 63 48 = 0 ∧ bitsOf (4096 * k + 7) 11 6 = 0 ∧
    bitsOf (4096 * k + 7) 47 12 * 4096 = 4096 * k := by
  simp only [bitsOf]
  omega

theorem leaf_testBit (k b : Nat) (hb : b < 12) : (4096 * k + 7).testBit b = Nat.testBit 7 b := by
  rw [show 4096 * k + 7 = 2 ^ 12 * k + 7 from rfl, Nat.testBit_two_pow_mul_add _ (by decide), if_pos hb]

theorem State.walkEntry_leaf {k : Nat} (hlevel : w.level = 3) (hwrite : w.write = true) (hk : k < 2 ^ 36) : s.walkEntry c w (4096 * k + 7) =
    ((s.modChan c (fun t => { t with walk := none })).tlbFill (leafEntry w k)).keepXl c ((leafEntry w k).xl w.iova true) := by
  obtain ⟨-, -, hframe⟩ := leaf_bits hk
  rw [State.walkEntry, leaf_testBit k 0 (by decide), leaf_testBit k 1 (by decide), leaf_testBit k 2 (by decide), leaf_testBit k 3 (by decide),
    leaf_testBit k 4 (by decide), leaf_testBit k 5 (by decide), hframe, hlevel, hwrite, if_neg (by decide), if_pos (by decide), if_pos rfl, if_neg (by decide)]
  rfl

/-- A translation that is kept is the one that the channel then has. -/
theorem State.keepXl_hasXl (s : State) (c : Nat) (x : Xl) {iova : Nat} (hpage : x.page = iova / 4096 * 4096) (hok : s.xlOk c x = true) :
    (s.keepXl c x).hasXl c iova x.write = some (x.bus + iova % 4096) := by
  have hok' : (s.keepXl c x).xlOk c x = true := by
    rw [State.xlOk, State.keepXl, State.modChan_rd, State.modChan_rd]
    exact hok
  have hnew : (x.page == iova / 4096 * 4096 && x.write == x.write && (s.keepXl c x).xlOk c x) = true := by
    rw [hpage, hok', beq_self_eq_true, beq_self_eq_true]
    rfl
  have hold : ((s.chan c).xl.filter (fun y => !(y.page == x.page && y.write == x.write))).find?
      (fun y => y.page == iova / 4096 * 4096 && y.write == x.write && (s.keepXl c x).xlOk c y) = none := by
    refine List.find?_eq_none.2 fun y hy => ?_
    have hne := (List.mem_filter.1 hy).2
    rw [hpage] at hne
    rw [Bool.not_eq_true, Bool.and_eq_false_imp]
    intro hsame
    rw [hsame] at hne
    exact absurd hne Bool.false_ne_true
  have hlist : ((s.keepXl c x).chan c).xl = (s.chan c).xl.filter (fun y => !(y.page == x.page && y.write == x.write)) ++ [x] := by
    rw [State.keepXl, State.modChan_chan]
  rw [State.hasXl, State.theXl, hlist, List.find?_append, hold, Option.none_or]
  exact congrArg (Option.map (fun y => y.bus + iova % 4096)) (List.find?_cons_of_pos (p := fun y => y.page == iova / 4096 * 4096 && y.write == x.write && (s.keepXl c x).xlOk c y) hnew)

theorem State.keepXl_walk (s : State) (c : Nat) (x : Xl) : ((s.keepXl c x).chan c).walk = (s.chan c).walk := by
  rw [State.keepXl, State.modChan_chan]

theorem State.tlbFill_chan (s : State) (x : TlbE) (c : Nat) : (s.tlbFill x).chan c = s.chan c := by
  rw [State.tlbFill, State.modDma, State.chan, State.chan]

/-- A walk started again after an invalidation. -/
theorem State.walkRedo_eq (hmode : s.rd (ATU_ROOT_LO_MODE w.asid) = 1) :
    s.walkRedo c w = ((s.inc ATU_WALK_REDO).startWalk c w.iova w.write w.desc).wr ATU_TLB_MISS (s.rd ATU_TLB_MISS) := by
  rw [State.walkRedo, if_pos hmode]

theorem State.startWalk_word (s : State) (c iova a : Nat) (write desc : Bool) : (s.startWalk c iova write desc).word a = (s.inc ATU_TLB_MISS).word a := by
  rw [State.startWalk]
  exact (State.emit_word ..).trans (State.modChan_word ..)

theorem State.startWalk_level (s : State) (c iova : Nat) (write desc : Bool) : ((s.startWalk c iova write desc).chan c).walk.map (·.level) = some 1 := by
  have h : (s.startWalk c iova write desc).dma =
      ((s.inc ATU_TLB_MISS).modChan c (fun t => { t with walk := some ⟨s.chAsid c, iova, write, desc, 1, s.rd ATU_INV_EPOCH_ISSUED, false, false⟩ })).dma :=
    State.emit_dma ..
  rw [State.chan, h, ← State.chan, State.modChan_chan]
  rfl

/-- A field that takes back its former value leaves the word as it was. -/
theorem Fld.put_get_put (f : Fld) (v : Nat) (w : Word) (h : f.fits = true) : f.put (f.get w) (f.put v w) = w := by
  obtain ⟨hle, hhi⟩ := (Fld.fits_iff f).1 h
  refine BitVec.eq_of_getLsbD_eq fun i hi => ?_
  rw [← BitVec.testBit_toNat, ← BitVec.testBit_toNat, Fld.put_testBit _ _ _ _ hle hi, Fld.put_testBit _ _ _ _ hle hi, Fld.get_testBit, Fld.width_def]
  split
  · next hin =>
    rw [decide_eq_true (by omega), Bool.true_and, Nat.add_sub_cancel' hin.1]
  · rfl

/-- A count taken back leaves every word as it was. -/
theorem State.inc_back_word {s t : State} {f : Fld} {n : Nat} (h : f.fits = true) (hword : ∀ a, t.word a = (s.inc f n).word a) (a : Nat) :
    (t.wr f (s.rd f)).word a = s.word a := by
  rw [State.wr, State.word_setWord, hword, hword, State.inc, State.wr, State.word_setWord, State.word_setWord, if_pos rfl]
  split
  · next ha =>
    subst ha
    exact Fld.put_get_put f _ _ h
  · rfl

end Translation

/-- Settles O26: an invalidation marks and removes what it covers; a walk goes on, ends or starts again as the entry that was read says. -/
theorem translationCommands : Obligations.TranslationCommands := by
  unfold Obligations.TranslationCommands
  refine ⟨?_, ?_, ?_, ?_, ?_, ?_, ?_, ?_, ?_, ?_, ?_, ?_, ?_, ?_⟩
  case refine_1 => exact fun s p h hcrown => congrArg Outcome.next (State.runCmd_accepted (c := cmdInvGo) h rfl (if_pos hcrown) rfl)
  case refine_2 =>
    exact fun s p h hcrown => congrArg Outcome.next (State.runCmd_rejected (c := cmdInvGo) h rfl (by decide) (if_neg (by rw [hcrown]; exact Bool.false_ne_true)))
  case refine_3 =>
    intro s i r hinv hepoch
    obtain ⟨hrest, htlb⟩ := s.invDone_dma i r
    refine ⟨_, State.invalidationDone_exec hinv, ?_, ?_, ?_⟩
    · rw [State.raise_dma, hrest]
    · rw [State.rd_raise_apart _ _ _ _ rfl, s.invDone_epoch i r hepoch]
    · intro x hx
      rw [State.raise_dma, htlb] at hx
      obtain ⟨hmem, hcov⟩ := List.mem_filter.1 hx
      rw [Bool.not_eq_true'] at hcov
      exact ⟨hmem, hcov⟩
  case refine_4 =>
    intro s p h hcrown hready
    refine congrArg Outcome.next ((State.gate_reaches (x := ⟨p, 0x17098, false, 0⟩) h _).trans ?_)
    exact (if_neg (by rw [hcrown]; exact Bool.false_ne_true)).trans (if_pos hready)
  case refine_5 =>
    intro s p h hcrown hready
    have hexec : exec (.invSyncRead p) s = .next (s.modDma (fun d => { d with sync := d.sync ++ [(p, s.rd ATU_INV_EPOCH_ISSUED)] })) := by
      refine congrArg Outcome.next ((State.gate_reaches (x := ⟨p, 0x17098, false, 0⟩) h _).trans ?_)
      exact (if_neg (by rw [hcrown]; exact Bool.false_ne_true)).trans (if_neg (by rw [hready]; exact Bool.false_ne_true))
    exact ⟨_, hexec, rfl, (SameWords.refl _ s).of_word fun a => State.modDma_word ..⟩
  case refine_6 =>
    intro s p e r hsync hready
    have hdone : s.invSyncComplete false = (s.modDma (fun d => { d with sync := r })).readBack p ATU_INV_SYNC_EPOCH.addr e := by
      rw [State.invSyncComplete, hsync]
      exact if_pos hready
    exact congrArg (fun t : State => Outcome.next (t.goOn (fun x => x.addr / 0x1000 == 23))) hdone
  case refine_7 =>
    intro s c w hwalk hover hmode hlevel
    refine ⟨_, (State.walkReadComplete_entry hwalk hover hmode (by decide) (by decide) (by decide)).trans
      (congrArg Outcome.next (State.walkEntry_table hlevel)), ?_, List.mem_append_right _ List.mem_cons_self, ?_⟩
    · rw [State.chan, State.emit_dma, ← State.chan, State.modChan_chan]
    · exact (SameWords.refl _ s).of_word fun a => (State.emit_word ..).trans (State.modChan_word ..)
  case refine_8 => exact fun s c w e hwalk hover hbig hmode => State.walkReadComplete_error hwalk hover hbig hmode
  case refine_9 =>
    exact fun s c w hwalk hover hmode => (State.walkReadComplete_entry hwalk hover hmode (by decide) (by decide) (by decide)).trans
      (congrArg Outcome.next State.walkEntry_invalid)
  case refine_10 =>
    intro s c w hwalk hover hmode
    change execWalkTimeout c s = _
    rw [execWalkTimeout, hwalk]
    refine congrArg Outcome.next ?_
    dsimp only
    rw [hover, if_neg Bool.false_ne_true, if_neg (not_not.2 hmode)]
  case refine_11 => exact fun s p h => congrArg Outcome.next (State.readOwn_reaches h)
  case refine_12 => exact State.invGo_effect
  case refine_13 =>
    intro s c w k hwalk hover hmode hasid hlevel hwrite hk
    obtain ⟨hhi, hlo, -⟩ := leaf_bits hk
    refine ⟨_, (State.walkReadComplete_entry hwalk hover hmode (leaf_testBit k 3 (by decide)) hhi hlo).trans
      (congrArg Outcome.next (State.walkEntry_leaf hlevel hwrite hk)), ?_, ?_, ?_⟩
    · rw [State.keepXl_walk, State.tlbFill_chan, State.modChan_chan]
    · refine (State.keepXl_hasXl _ c ((leafEntry w k).xl w.iova true) rfl ?_)
      rw [State.xlOk, State.tlbFill, State.modDma_rd, State.modDma_rd, State.modChan_rd, State.modChan_rd, ← State.chAsid, hasid, hmode]
      rfl
    · exact (SameWords.refl _ s).of_word fun a => (State.modChan_word ..).trans ((State.modDma_word ..).trans (State.modChan_word ..))
  case refine_14 =>
    intro s c w e hwalk hmarked hmode
    have hexec : exec (.walkReadComplete c false e) s =
        .next (((s.inc ATU_WALK_REDO).startWalk c w.iova w.write w.desc).wr ATU_TLB_MISS (s.rd ATU_TLB_MISS)) := by
      change execWalkReadComplete c false e s = _
      rw [execWalkReadComplete, hwalk]
      refine congrArg Outcome.next ?_
      dsimp only
      rw [State.walkOvertaken_marked hmarked, if_pos rfl, State.walkRedo_eq hmode]
    have hword (a : Nat) : (((s.inc ATU_WALK_REDO).startWalk c w.iova w.write w.desc).wr ATU_TLB_MISS (s.rd ATU_TLB_MISS)).word a =
        (s.inc ATU_WALK_REDO).word a := by
      have hmiss : (s.inc ATU_WALK_REDO).rd ATU_TLB_MISS = s.rd ATU_TLB_MISS := State.rd_inc_apart _ _ _ _ rfl
      rw [← hmiss]
      exact State.inc_back_word rfl (fun b => State.startWalk_word ..) a
    refine ⟨_, hexec, ?_, ?_, ?_⟩
    · rw [State.chan, State.wr_dma, ← State.chan]
      exact State.startWalk_level ..
    · exact (State.rd_of_word (f := ATU_WALK_REDO) (hword _)).trans (State.rd_inc_fits _ _ _ rfl)
    · exact ((SameWords.refl _ s).inc (f := ATU_WALK_REDO) List.mem_cons_self _).of_word hword

end Sys2Proof.Machine
end

section
/-!
PROOFS. The display sink and source (R234–R243).
-/

namespace Sys2Proof.Machine

open Host (Outcome)

section Sink
variable {s : State}

/-- The words of a captured line, before its count. -/
def State.lineShown (s : State) (dsc fec : Bool) (e : Nat) : State :=
  (((s.flag DPI_STATUS_VIDEO true).flag DPI_STATUS_DSC dsc).flag DPI_STATUS_FEC fec).inc DPI_SYM_ERR e

theorem State.lineShown_dp (s : State) (dsc fec : Bool) (e : Nat) : (s.lineShown dsc fec e).dp = s.dp := by
  rw [State.lineShown, State.inc_dp, State.flag_dp, State.flag_dp, State.flag_dp]

theorem State.dpiLineCapture_exec {line st ns e : Nat} {t : DpTiming} {dsc fec : Bool} {d : List Byte} (h27 : s.isOn 27 = true)
    (htrained : s.on DPI_STATUS_TRAINED = true) (hsup : dpSupported t dsc fec = true) (hline : line ≠ 0) :
    exec (.dpiLineCapture line t dsc fec st ns e d) s = .next (((s.lineShown dsc fec e).inc DPI_LINES_OUT).dpiFrame ns st
      (dpHeader 1 (2 * dsc.toNat) line s.dp.frame d.length st ++ d)) := by
  refine congrArg Outcome.next ((State.when_of s _ (by rw [h27, htrained, hsup]; rfl)).trans ?_)
  dsimp only
  rw [← State.lineShown, beq_false_of_ne hline, State.when_of_not _ _ rfl, State.lineShown_dp, Bool.toNat_false, Nat.zero_add]

/-! ## The link of the sink (R234) -/

/-- The words after training, before the interrupt. -/
def State.dpiUp (s : State) (l r : Nat) (fec : Bool) : State :=
  (((s.wr DPI_STATUS_LANES (min l (s.rd DPI_CTRL_MAX_LANES.inForce))).wr DPI_STATUS_RATE (min r (s.rd DPI_CTRL_MAX_RATE.inForce))).flag
    DPI_STATUS_TRAINED true).flag DPI_STATUS_FEC fec

theorem State.dpiTrained_exec {l r : Nat} {fec : Bool} (h27 : s.isOn 27 = true) :
    exec (.dpLinkTraining false 1 l r fec) s = .next ((s.dpiUp l r fec).raise 27 0) := by
  refine congrArg Outcome.next ((State.when_of s _ (by rw [if_neg Bool.false_ne_true, h27]; rfl)).trans ?_)
  refine (if_neg Bool.false_ne_true).trans ((if_neg (by decide)).trans ((if_pos rfl).trans ?_))
  rw [State.dpiUp]

theorem State.dpiUp_effect (s : State) (l r : Nat) (fec : Bool) :
    (s.dpiUp l r fec).on DPI_STATUS_TRAINED = true ∧ (s.dpiUp l r fec).on DPI_STATUS_FEC = fec := by
  rw [State.dpiUp]
  exact ⟨(State.on_flag_apart _ _ _ _ rfl).trans (State.on_flag_one _ _ _ rfl), State.on_flag_one _ _ _ rfl⟩

theorem State.dpiUp_words (s : State) {l r : Nat} (fec : Bool) (hl : l < 4) (hr : r < 4) :
    (s.dpiUp l r fec).rd DPI_STATUS_LANES = min l (s.rd DPI_CTRL_MAX_LANES.inForce) ∧
    (s.dpiUp l r fec).rd DPI_STATUS_RATE = min r (s.rd DPI_CTRL_MAX_RATE.inForce) := by
  have hlanes : min l (s.rd DPI_CTRL_MAX_LANES.inForce) < 4 := Nat.lt_of_le_of_lt (Nat.min_le_left ..) hl
  have hrate : min r (s.rd DPI_CTRL_MAX_RATE.inForce) < 4 := Nat.lt_of_le_of_lt (Nat.min_le_left ..) hr
  rw [State.dpiUp]
  refine ⟨?_, ?_⟩
  · rw [State.rd_flag_apart _ _ _ _ rfl, State.rd_flag_apart _ _ _ _ rfl, State.rd_wr_apart _ _ _ _ rfl, State.rd_wr_fits _ _ _ rfl]
    exact Nat.mod_eq_of_lt hlanes
  · rw [State.rd_flag_apart _ _ _ _ rfl, State.rd_flag_apart _ _ _ _ rfl, State.rd_wr_fits _ _ _ rfl]
    exact Nat.mod_eq_of_lt hrate

theorem State.dpiLost_exec {l r : Nat} {fec : Bool} (h27 : s.isOn 27 = true) (htrained : s.on DPI_STATUS_TRAINED = true) :
    exec (.dpLinkTraining false 2 l r fec) s = .next (s.dpiDown.raise 27 1) := by
  refine congrArg Outcome.next ((State.when_of s _ (by rw [if_neg Bool.false_ne_true, h27]; rfl)).trans ?_)
  refine (if_neg Bool.false_ne_true).trans ((if_neg (by decide)).trans ((if_neg (by decide)).trans ?_))
  exact State.when_of s _ htrained

theorem State.dpiDown_effect (s : State) : s.dpiDown.on DPI_STATUS_TRAINED = false ∧ s.dpiDown.on DPI_STATUS_VIDEO = false := by
  rw [State.dpiDown]
  refine ⟨?_, ?_⟩
  · rw [State.on_flag_apart _ _ _ _ rfl, State.on_flag_apart _ _ _ _ rfl, State.on_flag_apart _ _ _ _ rfl]
    exact State.on_flag_one _ _ _ rfl
  · rw [State.on_flag_apart _ _ _ _ rfl, State.on_flag_apart _ _ _ _ rfl]
    exact State.on_flag_one _ _ _ rfl

theorem dpiIsr_apart {g : Fld} (hg : g.addr = 0x1B044) : (PG_ISR 27).apart g = true := Fld.apart_of_addr_ne (by rw [hg]; decide)

end Sink

section Source
variable {s : State}

/-! ## Cells before any timing (R239) -/

theorem State.dpoPrune_untimed (htim : s.dp.tim = none) : s.dpoPrune = s := by
  rw [State.dpoPrune, htim]
  exact ite_self _

/-- The display part after the last cell of a line that no timing places. -/
theorem State.dpoLine_untimed {c : Cell} (htim : s.dp.tim = none) (hls : c.ls = true) :
    (s.dpoLine c).dp.held = s.dp.held ∧ (s.dpoLine c).dp.rx = .none ∧ (s.dpoLine c).dp.cameoDue = false := by
  simp only [State.dpoLine, State.modDp_dp, htim, hls, if_true, and_self]

/-! ## Lines (R238, R239) -/

/-- A playout with a timing that fits and no cameo screen. -/
theorem State.dpoLinePlayout_none {t : DpTiming} {l : DpLine} {ph pp : Int} {late : List (Nat × List Byte)} (h28 : s.isOn 28 = true)
    (htim : s.dp.tim = some t) (hfits : s.dpoFits t = true) (hmode : s.rd DPO_STATUS_MODE ≠ dpCameo) (hnext : s.dp.next = none)
    (hheld : s.dp.held.find? (fun l => l.line == 0) = some l) : exec (.dpoLinePlayout ph pp late) s = .next (s.dpoPlay t l ph pp late) := by
  refine congrArg Outcome.next ((State.when_of s _ h28).trans ?_)
  rw [htim]
  refine (State.when_of s _ (by rw [hfits, bne_iff_ne.2 hmode]; rfl)).trans ?_
  rw [hnext]
  dsimp only
  rw [hheld]

theorem State.dpoLinePlayout_missing {t : DpTiming} {f n : Nat} {ph pp : Int} {late : List (Nat × List Byte)} (h28 : s.isOn 28 = true)
    (htim : s.dp.tim = some t) (hfits : s.dpoFits t = true) (hmode : s.rd DPO_STATUS_MODE ≠ dpCameo) (hnext : s.dp.next = some (f, n))
    (hheld : s.dp.held = []) : exec (.dpoLinePlayout ph pp late) s = .next (
      ((if s.dp.blackFrame || n == 0 then (s.emit (.dpLine 2 n [])).dpoMode dpBlack
        else (s.inc DPO_CONCEAL_LOST).emit (.dpLine 1 n s.dp.last)).modDp
        (fun d => { d with next := some (dpAfter t (f, n)), blackFrame := s.dp.blackFrame || n == 0 })).dpoPhase t ph pp) := by
  refine congrArg Outcome.next ((State.when_of s _ h28).trans ?_)
  rw [htim]
  refine (State.when_of s _ (by rw [hfits, bne_iff_ne.2 hmode]; rfl)).trans ?_
  rw [hnext]
  dsimp only
  rw [hheld, List.find?_nil]

theorem State.dpoCellArrival_line {c : Cell} (h28 : s.isOn 28 = true) (htim : s.dp.tim = none) (hfs : c.fs = true) (hinc : c.inc = false)
    (htype : byteAt c.payload 0 ≠ 2) : exec (.dpoCellArrival c) s = .next (s.dpoLine c) := by
  refine congrArg Outcome.next ((State.when_of s _ h28).trans ?_)
  dsimp only
  rw [State.dpoPrune_untimed htim, if_pos (by rw [hfs, hinc]; rfl), if_neg htype]

/-! ## The cameo screen (R243) -/

theorem State.applyRwp_dp (s : State) (page : Nat) : (s.applyRwp page).dp = s.dp :=
  (State.applyRwp_follows (msk := 0) page (Follows.refl 0 s)).parts .dp rfl

theorem State.dpoFrameStart_cameo (h28 : s.isOn 28 = true) (hcommit : s.dp.commit = false)
    (hmode : (s.applyRwp 28).rd DPO_STATUS_MODE = dpCameo) : exec .dpoFrameStart s =
      .next (if (s.applyRwp 28).cameoMayLeave then ((s.applyRwp 28).raise 28 1).dpoResync else (s.applyRwp 28).cameoFrame) := by
  refine congrArg Outcome.next ((State.when_of s _ h28).trans ?_)
  dsimp only
  rw [State.applyRwp_dp, hcommit, State.when_of_not _ _ rfl, if_pos hmode]

/-! ## The link of the source (R234) -/

/-- The words of a link of the source that has come up. -/
def State.dpoUp (s : State) (l r : Nat) : State :=
  (((s.modDp (fun d => { d with trained := true })).flag DPO_STATUS_FEC false).wr DPO_STATUS_LANES l).wr DPO_STATUS_RATE r

theorem State.dpoUp_dp (s : State) (l r : Nat) : (s.dpoUp l r).dp = { s.dp with trained := true } := by
  rw [State.dpoUp, State.wr_dp, State.wr_dp, State.flag_dp, State.modDp_dp]

theorem State.dpoTrained_exec {l r : Nat} (h28 : s.isOn 28 = true) (htim : s.dp.tim = none) :
    exec (.dpLinkTraining true 1 l r false) s = .next (s.dpoUp l r) := by
  refine congrArg Outcome.next ((State.when_of s _ (by rw [if_pos rfl, h28]; rfl)).trans ((if_pos rfl).trans ((if_neg (by decide)).trans ?_)))
  have htim' : (s.dpoUp l r).dp.tim = none := by
    rw [State.dpoUp_dp]
    exact htim
  have hrefit : (s.dpoUp l r).dpoRefit = s.dpoUp l r := by
    rw [State.dpoRefit, htim']
  exact hrefit

theorem State.dpoUp_words (s : State) {l r : Nat} (hl : l < 4) (hr : r < 4) :
    (s.dpoUp l r).rd DPO_STATUS_LANES = l ∧ (s.dpoUp l r).rd DPO_STATUS_RATE = r := by
  rw [State.dpoUp]
  refine ⟨?_, ?_⟩
  · rw [State.rd_wr_apart _ _ _ _ rfl, State.rd_wr_fits _ _ _ rfl]
    exact Nat.mod_eq_of_lt hl
  · rw [State.rd_wr_fits _ _ _ rfl]
    exact Nat.mod_eq_of_lt hr

end Source

/-- Settles O28: a captured line, a cell, a line played out, a frame start and a link training take the branch of the display's state. -/
theorem displaySourceAndSink : Obligations.DisplaySourceAndSink := by
  unfold Obligations.DisplaySourceAndSink
  refine ⟨?_, ?_, ?_, ?_, ?_, ?_, ?_, ?_, ?_, ?_, ?_, ?_, ?_, ?_⟩
  case refine_1 => exact fun s line t dsc fec st ns e d h27 htrained hsup hline => State.dpiLineCapture_exec h27 htrained hsup hline
  case refine_2 =>
    exact fun s c h28 htim hfs hinc hls htype => ⟨_, State.dpoCellArrival_line h28 htim hfs hinc htype, State.dpoLine_untimed htim hls⟩
  case refine_3 => exact fun s t l ph pp late h28 htim hfits hmode hnext hheld => State.dpoLinePlayout_none h28 htim hfits hmode hnext hheld
  case refine_4 =>
    intro s t f n ph pp late h28 htim hfits hmode hnext hheld hblack
    have hn : (s.dp.blackFrame || n + 1 == 0) = false := by
      rw [hblack, beq_false_of_ne (Nat.succ_ne_zero n)]
      rfl
    rw [State.dpoLinePlayout_missing h28 htim hfits hmode hnext hheld, hn, if_neg Bool.false_ne_true]
  case refine_5 =>
    intro s h28 hcommit hmode hleave
    rw [State.dpoFrameStart_cameo h28 hcommit hmode, hleave, if_neg Bool.false_ne_true]
  case refine_6 =>
    intro s h28 hcommit hmode hleave
    rw [State.dpoFrameStart_cameo h28 hcommit hmode, if_pos hleave]
  case refine_7 =>
    intro s h28 hmode hforce
    have hexec : exec .cameoTimeout s = .next (s.modDp (fun d => { d with cameoDue := true })) :=
      congrArg Outcome.next (State.when_of s _ (by rw [h28, bne_iff_ne.2 hmode, hforce]; rfl))
    exact ⟨_, hexec, rfl, (SameWords.refl _ s).of_word fun a => State.modDp_word ..⟩
  case refine_8 => exact fun s p v h => congrArg Outcome.next (State.writeOwn_accepted h rfl)
  case refine_9 => exact fun s p h => congrArg Outcome.next (State.runCmd_accepted (c := cmdCameoCommit) h rfl rfl rfl)
  case refine_10 =>
    intro s l r fec h27
    obtain ⟨htrained, hfec⟩ := s.dpiUp_effect l r fec
    refine ⟨_, State.dpiTrained_exec h27, ?_, ?_, State.raise_bit _ _ _ (by decide)⟩
    · rw [State.on_raise_apart _ _ _ _ (dpiIsr_apart rfl), htrained]
    · rw [State.on_raise_apart _ _ _ _ (dpiIsr_apart rfl), hfec]
  case refine_11 =>
    intro s l r h28 htim hl hr
    exact ⟨_, State.dpoTrained_exec h28 htim, by rw [State.dpoUp_dp], s.dpoUp_words hl hr⟩
  case refine_12 =>
    intro s l r fec h27 htrained
    obtain ⟨hdown, hvideo⟩ := s.dpiDown_effect
    refine ⟨_, State.dpiLost_exec h27 htrained, ?_, ?_, State.raise_bit _ _ _ (by decide)⟩
    · rw [State.on_raise_apart _ _ _ _ (dpiIsr_apart rfl), hdown]
    · rw [State.on_raise_apart _ _ _ _ (dpiIsr_apart rfl), hvideo]
  case refine_13 =>
    intro s t f ph pp late h28 htim hfits hmode hnext hheld
    have hblack : (s.dp.blackFrame || (0 : Nat) == 0) = true := Bool.or_true _
    rw [State.dpoLinePlayout_missing h28 htim hfits hmode hnext hheld, hblack, if_pos rfl]
  case refine_14 =>
    intro s l r fec h27 hl hr
    obtain ⟨hlanes, hrate⟩ := s.dpiUp_words fec hl hr
    refine ⟨_, State.dpiTrained_exec h27, ?_, ?_⟩
    · rw [State.rd_raise_apart _ _ _ _ (dpiIsr_apart rfl), hlanes]
    · rw [State.rd_raise_apart _ _ _ _ (dpiIsr_apart rfl), hrate]

end Sys2Proof.Machine
end

section
/-!
PROOFS. AUX requests, hot plug and DisplayPort Alternate Mode (R240, R241, R246).
-/

namespace Sys2Proof.Machine

open Host (Outcome)

section Aux
variable {s : State}

/-- A request that is forwarded to the source and deferred at the host. -/
def State.auxForwarded (s : State) (r : AuxReq) : State :=
  (((s.modDp (fun d => { d with fwd := none, ans := none, nack := false })).modDp (fun d => { d with fwd := some r })).emit (.auxReq r)).auxDefer

theorem State.auxForward_first {r : AuxReq} (hfwd : s.dp.fwd = none) (h10 : s.engUp 10 = true) : s.auxForward r = s.auxForwarded r := by
  rw [State.auxForward, if_neg (by rw [hfwd]; exact nofun), if_neg (by rw [hfwd]; exact Bool.false_ne_true)]
  dsimp only
  rw [State.auxForwarded]
  exact congrArg State.auxDefer (State.when_of _ _ h10)

theorem State.auxForwarded_effect (s : State) (r : AuxReq) : (s.auxForwarded r).dp.fwd = some r ∧ Out.auxAns 2 [] ∈ (s.auxForwarded r).out ∧
    Out.auxReq r ∈ (s.auxForwarded r).out :=
  ⟨rfl, List.mem_append_right _ List.mem_cons_self, List.mem_append_left _ (List.mem_append_right _ List.mem_cons_self)⟩

theorem State.auxAnswer_exec {st : Nat} {d : List Byte} {r : AuxReq} (hfwd : s.dp.fwd = some r) (hans : s.dp.ans = none) (hnack : s.dp.nack = false)
    (h10 : s.engUp 10 = true) : exec (.auxAnswer st d) s = .next (s.modDp (fun x => { x with ans := some (st % 3, d) })) :=
  congrArg Outcome.next (State.when_of s _ (by rw [hfwd, hans, hnack, h10]; rfl))

/-- A level of the monitor's HPD that changes. -/
theorem State.dpoHpd_change {l : Bool} (h : s.on DPO_STATUS_HPD_IN ≠ l) :
    s.dpoHpd l = ((s.flag DPO_STATUS_HPD_IN l).raise 28 3).emit (.mgmt 0 1 [l.toNat]) := if_neg h

end Aux

/-- Settles O29: a request, an answer and a hot-plug event take the branch of the display's state. -/
theorem displayAuxAndAltMode : Obligations.DisplayAuxAndAltMode := by
  unfold Obligations.DisplayAuxAndAltMode
  refine ⟨?_, ?_, ?_, ?_, ?_, ?_, ?_, ?_, ?_, ?_⟩
  case refine_1 =>
    intro s a d h27 hlo hhi hlen
    refine congrArg Outcome.next ((State.when_of s _ (by rw [h27, decide_eq_true hlen]; rfl)).trans ((if_neg Bool.false_ne_true).trans ?_))
    exact (if_pos (by rw [decide_eq_true hhi, decide_eq_true (show a ≥ 0x100 from hlo)]; rfl)).trans (if_neg Bool.false_ne_true)
  case refine_2 =>
    intro s a n h27 hn ha hfwd h10
    have hexec : exec (.auxRequest false true a n []) s = .next (s.auxForwarded ⟨false, true, a, n, []⟩) := by
      refine congrArg Outcome.next ((State.when_of s _ (by rw [h27, decide_eq_true hn]; rfl)).trans ((if_neg Bool.false_ne_true).trans ?_))
      exact (if_neg (by rw [decide_eq_false (show ¬ a + max 1 n ≤ 0x300 by omega)]; exact Bool.false_ne_true)).trans (State.auxForward_first hfwd h10)
    exact ⟨_, hexec, s.auxForwarded_effect _⟩
  case refine_3 =>
    exact fun s st d r hfwd hans hnack h10 => ⟨_, State.auxAnswer_exec hfwd hans hnack h10, rfl, (SameWords.refl _ s).of_word fun a => State.modDp_word ..⟩
  case refine_4 => exact fun s r hfwd hans hnack => congrArg Outcome.next (State.when_of s _ (by rw [hfwd, hans, hnack]; rfl))
  case refine_5 =>
    intro s l d e h28 hmux hne
    have hexec : exec (.monitorHpdChange false l false d e) s = .next (((s.flag DPO_STATUS_HPD_IN l).raise 28 3).emit (.mgmt 0 1 [l.toNat])) :=
      congrArg Outcome.next ((if_pos rfl).trans ((State.when_of s _ (by rw [h28, hmux]; rfl)).trans
        ((if_neg Bool.false_ne_true).trans (State.dpoHpd_change hne))))
    refine ⟨_, hexec, ?_, List.mem_append_right _ List.mem_cons_self⟩
    rw [State.emit_on, State.on_raise_apart _ _ _ _ rfl]
    exact State.on_flag_one _ _ _ rfl
  case refine_6 =>
    intro s l d e h10 heng
    exact congrArg Outcome.next ((if_neg Bool.false_ne_true).trans ((State.when_of s _ (by rw [h10, heng]; rfl)).trans (if_neg Bool.false_ne_true)))
  case refine_7 =>
    exact fun s p v h hatt => congrArg Outcome.next (State.writeOwn_accepted h (if_neg (by rw [hatt, Bool.not_true, Bool.and_false]; exact Bool.false_ne_true)))
  case refine_8 =>
    intro s p h hatt
    have hchk : (if (true && !s.on SVC_TC_STATUS_ATTACHED) = true then 3 else 0) = 3 := if_pos (by rw [hatt]; rfl)
    have hrej := State.writeOwn_rejected (v := (DPO_DPALT_CTRL_ENTERED.put true.toNat (s.word DPO_DPALT_CTRL_ENTERED.addr)).toNat)
      (chk := fun s => if (true && !s.on SVC_TC_STATUS_ATTACHED) = true then 3 else 0) (act := (·.dpaltEntered true)) h (by rw [hchk]; decide)
    rw [hchk] at hrej
    exact congrArg Outcome.next hrej
  case refine_9 => exact fun s hmux hsettled => congrArg Outcome.next (State.when_of s _ (by rw [bne_iff_ne.2 hmux, hsettled]; rfl))
  case refine_10 =>
    intro s p h hsettled hin
    have hact : cmdDpaltIrqHpd.act s = s.emit (.mgmt 0 2 []) :=
      State.when_of (c := s.dp.settled && s.on DPO_STATUS_HPD_IN) s (fun u => u.emit (.mgmt 0 2 [])) (by rw [hsettled, hin]; rfl)
    exact congrArg Outcome.next (State.runCmd_accepted h rfl rfl hact)

end Sys2Proof.Machine
end

section
/-!
PROOFS. The service function and the frame timing of USB (R252–R263).
-/

namespace Sys2Proof.Machine

open Host (Outcome)

section Function
variable {s : State}

/-! ## The console (R252) -/

/-- The words of a line coding that is taken. -/
def State.lineCoded (s : State) (r d p : Nat) (two seven : Bool) : State :=
  (((s.wr (LSIO_UART_CFG_DIV r) d).wr (LSIO_UART_CFG_PARITY r) p).flag (LSIO_UART_CFG_STOP2 r) two).flag (LSIO_UART_CFG_BITS7 r) seven

theorem uartCfg_apart {r : Nat} (hr : r ≤ 3) : (LSIO_UART_CFG_PARITY r).apart (LSIO_UART_CFG_DIV r) = true ∧
    (LSIO_UART_CFG_STOP2 r).apart (LSIO_UART_CFG_DIV r) = true ∧ (LSIO_UART_CFG_BITS7 r).apart (LSIO_UART_CFG_DIV r) = true ∧
    (LSIO_UART_CFG_STOP2 r).apart (LSIO_UART_CFG_PARITY r) = true ∧ (LSIO_UART_CFG_BITS7 r).apart (LSIO_UART_CFG_PARITY r) = true ∧
    (LSIO_UART_CFG_BITS7 r).apart (LSIO_UART_CFG_STOP2 r) = true := by
  revert r
  decide

theorem State.lineCoded_effect (s : State) {r d p : Nat} (two seven : Bool) (hr : r ≤ 3) (hd : d ≤ 55556) (hp : p < 4) :
    (s.lineCoded r d p two seven).rd (LSIO_UART_CFG_DIV r) = d ∧ (s.lineCoded r d p two seven).rd (LSIO_UART_CFG_PARITY r) = p ∧
    (s.lineCoded r d p two seven).on (LSIO_UART_CFG_STOP2 r) = two ∧ (s.lineCoded r d p two seven).on (LSIO_UART_CFG_BITS7 r) = seven := by
  obtain ⟨hpd, hsd, hbd, hsp, hbp, hbs⟩ := uartCfg_apart hr
  have hd' : d < 2 ^ 23 := by omega
  rw [State.lineCoded]
  refine ⟨?_, ?_, ?_, State.on_flag_one _ _ _ rfl⟩
  · rw [State.rd_flag_apart _ _ _ _ hbd, State.rd_flag_apart _ _ _ _ hsd, State.rd_wr_apart _ _ _ _ hpd, State.rd_wr_fits _ _ _ rfl]
    exact Nat.mod_eq_of_lt hd'
  · rw [State.rd_flag_apart _ _ _ _ hbp, State.rd_flag_apart _ _ _ _ hsp, State.rd_wr_fits _ _ _ rfl]
    exact Nat.mod_eq_of_lt hp
  · rw [State.on_flag_apart _ _ _ _ hbs]
    exact State.on_flag_one _ _ _ rfl

theorem State.setLineCoding_taken {b r : Nat} (h1 : s.iface 1 = true) (hroute : s.rd USBD_CTRL_ACM_ROUTE = r) (hr : r ≤ 3) (hb : b ≠ 0)
    (hlo : 5 ≤ baudDiv b) (hhi : baudDiv b ≤ 55556) : exec (.setLineCoding b 2 1 7) s = .next (s.lineCoded r (baudDiv b) 1 true true) := by
  refine congrArg Outcome.next ((State.when_of s _ h1).trans ?_)
  dsimp only
  rw [hroute, if_neg (by omega), if_neg (by omega)]
  rfl

theorem State.setLineCoding_stalled {b st p n : Nat} (h1 : s.iface 1 = true) (hroute : s.rd USBD_CTRL_ACM_ROUTE ≤ 3) (hp : 2 < p) :
    exec (.setLineCoding b st p n) s = .next (s.emit (.usbFn 4)) := by
  refine congrArg Outcome.next ((State.when_of s _ h1).trans ?_)
  dsimp only
  rw [if_neg (by omega), if_pos (by omega), State.usbStall]

/-! ## Bus reset and suspend (R254, R255) -/

/-- The words of a bus reset of the service function. -/
def State.fnReset (s : State) (sp : Nat) : State :=
  ((((((s.inc USBD_BUS_RESETS).raise 29 2).wr USBD_STATUS_STATE 3).wr USBD_STATUS_ADDRESS 0).flag USBD_STATUS_RWAKE false).flag
    USBD_STATUS_SUSPENDED false).wr USBD_STATUS_SPEED sp

theorem State.fnReset_effect (s : State) {sp : Nat} (hsp : sp < 4) : (s.fnReset sp).rd USBD_STATUS_STATE = 3 ∧
    (s.fnReset sp).rd USBD_STATUS_ADDRESS = 0 ∧ (s.fnReset sp).on USBD_STATUS_RWAKE = false ∧ (s.fnReset sp).on USBD_STATUS_SUSPENDED = false ∧
    (s.fnReset sp).rd USBD_STATUS_SPEED = sp := by
  rw [State.fnReset]
  refine ⟨?_, ?_, ?_, ?_, ?_⟩
  · rw [State.rd_wr_apart _ _ _ _ rfl, State.rd_flag_apart _ _ _ _ rfl, State.rd_flag_apart _ _ _ _ rfl, State.rd_wr_apart _ _ _ _ rfl,
      State.rd_wr_fits _ _ _ rfl]
    exact Nat.mod_eq_of_lt (by decide)
  · rw [State.rd_wr_apart _ _ _ _ rfl, State.rd_flag_apart _ _ _ _ rfl, State.rd_flag_apart _ _ _ _ rfl, State.rd_wr_fits _ _ _ rfl]
    exact Nat.zero_mod _
  · rw [State.on_wr_apart _ _ _ _ rfl, State.on_flag_apart _ _ _ _ rfl]
    exact State.on_flag_one _ _ _ rfl
  · rw [State.on_wr_apart _ _ _ _ rfl]
    exact State.on_flag_one _ _ _ rfl
  · rw [State.rd_wr_fits _ _ _ rfl]
    exact Nat.mod_eq_of_lt hsp

/-- What the service function forgets at a bus reset. -/
def State.fnRestarted (s : State) : State :=
  s.modUsb (fun u => { u with resetAt := some s.elapsed, mgmtWait := false,
                              ifaces := s.rd USBD_CTRL_MGMT_EN + 2 * s.rd USBD_CTRL_ACM_EN + 4 * s.rd USBD_CTRL_DFU_EN })

theorem State.usbBusReset_exec {hs : Bool} (h29 : s.isOn 29 = true) (hstate : 1 ≤ s.rd USBD_STATUS_STATE) (hleft : s.usb.left = false) :
    exec (.usbBusReset false false hs) s = .next (s.fnReset (if hs && !s.on USBD_CTRL_FS_ONLY then 3 else 2)).fnRestarted := by
  have hfs : ((((((s.inc USBD_BUS_RESETS).raise 29 2).wr USBD_STATUS_STATE 3).wr USBD_STATUS_ADDRESS 0).flag USBD_STATUS_RWAKE false).flag
      USBD_STATUS_SUSPENDED false).on USBD_CTRL_FS_ONLY = s.on USBD_CTRL_FS_ONLY := by
    rw [State.on_flag_apart _ _ _ _ rfl, State.on_flag_apart _ _ _ _ rfl, State.on_wr_apart _ _ _ _ rfl, State.on_wr_apart _ _ _ _ rfl,
      State.on_raise_apart _ _ _ _ rfl, State.on_inc_apart _ _ _ _ rfl]
  rw [State.fnReset, ← hfs]
  exact congrArg Outcome.next ((if_neg Bool.false_ne_true).trans (State.when_of s _ (by rw [h29, decide_eq_true hstate, hleft]; rfl)))

/-- The words of a suspend or resume of the service function. -/
def State.fnSuspended (s : State) (v : Bool) (a : Nat) (c w : Bool) : State :=
  (((s.flag USBD_STATUS_SUSPENDED v).wr USBD_STATUS_ADDRESS a).flag USBD_STATUS_RWAKE w).wr USBD_STATUS_STATE
    (if a % 128 = 0 then 3 else if c then 5 else 4)

theorem State.fnSuspended_effect (s : State) (v : Bool) (a : Nat) (c w : Bool) : (s.fnSuspended v a c w).on USBD_STATUS_SUSPENDED = v ∧
    (s.fnSuspended v a c w).rd USBD_STATUS_ADDRESS = a % 128 ∧ (s.fnSuspended v a c w).on USBD_STATUS_RWAKE = w ∧
    (s.fnSuspended v a c w).rd USBD_STATUS_STATE = (if a % 128 = 0 then 3 else if c then 5 else 4) := by
  have hst : (if a % 128 = 0 then 3 else if c then 5 else 4) < 16 := by
    split
    · decide
    · split <;> decide
  rw [State.fnSuspended]
  refine ⟨?_, ?_, ?_, ?_⟩
  · rw [State.on_wr_apart _ _ _ _ rfl, State.on_flag_apart _ _ _ _ rfl, State.on_wr_apart _ _ _ _ rfl]
    exact State.on_flag_one _ _ _ rfl
  · rw [State.rd_wr_apart _ _ _ _ rfl, State.rd_flag_apart _ _ _ _ rfl]
    exact State.rd_wr_fits _ _ _ rfl
  · rw [State.on_wr_apart _ _ _ _ rfl]
    exact State.on_flag_one _ _ _ rfl
  · rw [State.rd_wr_fits _ _ _ rfl]
    exact Nat.mod_eq_of_lt hst

theorem usbdIsr_apart {g : Fld} (hg : g.addr = 0x1D044) : (PG_ISR 29).apart g = true := Fld.apart_of_addr_ne (by rw [hg]; decide)

/-- The instant of a suspend is kept. -/
def State.suspendNoted (s : State) (v : Bool) : State := s.when v (fun s => s.modUsb (fun u => { u with fnSusp := s.elapsed }))

/-! ## Frames (R263) -/

/-- The words of a start of frame of the host. -/
def State.sofShown (s : State) (f : Nat) (ph : Int) : State := (s.wr USBH_HUB_STATUS_FRAME f).wrS USBH_SOF_PHASE ph

theorem State.sofShown_effect (s : State) (f : Nat) (ph : Int) : (s.sofShown f ph).rd USBH_HUB_STATUS_FRAME = f % 2048 ∧
    (s.sofShown f ph).rd USBH_FN_OFS_OFS = s.rd USBH_FN_OFS_OFS := by
  rw [State.sofShown, State.wrS]
  refine ⟨?_, ?_⟩
  · rw [State.rd_wr_apart _ _ _ _ rfl]
    exact State.rd_wr_fits _ _ _ rfl
  · rw [State.rd_wr_apart _ _ _ _ rfl, State.rd_wr_apart _ _ _ _ rfl]

/-- A frame offset that is taken over. -/
def State.slipped (s : State) (o : Nat) : State := ((s.wr USBH_FN_OFS_OFS o).inc USBH_FN_SLIP).raise 30 3

theorem State.slipped_effect (s : State) {o : Nat} (ho : o < 2048) : (s.slipped o).rd USBH_FN_OFS_OFS = o ∧
    (s.slipped o).rd USBH_FN_SLIP = (s.rd USBH_FN_SLIP + 1) % 2 ^ 32 ∧ ((s.slipped o).word (PG_ISR 30).addr).getLsbD 3 = true := by
  rw [State.slipped]
  refine ⟨?_, ?_, State.raise_bit _ _ _ (by decide)⟩
  · rw [State.rd_raise_apart _ _ _ _ rfl, State.rd_inc_apart _ _ _ _ rfl, State.rd_wr_fits _ _ _ rfl]
    exact Nat.mod_eq_of_lt ho
  · rw [State.rd_raise_apart _ _ _ _ rfl, State.rd_inc_fits _ _ _ rfl, State.rd_wr_apart _ _ _ _ rfl]
    rfl

end Function

/-- Settles O30: each request of the host and each change of the bus takes the branch of its operands. -/
theorem usbFunctionCommands : Obligations.UsbFunctionCommands := by
  unfold Obligations.UsbFunctionCommands
  refine ⟨?_, ?_, ?_, ?_, ?_, ?_, ?_, ?_, ?_, ?_, ?_, ?_, ?_⟩
  case refine_1 =>
    intro s d r h1 hroute hr h26 hen
    refine ⟨_, congrArg Outcome.next ((State.when_of s _ h1).trans ((if_pos (by rw [hroute]; exact hr)).trans
      (State.when_of s _ (by rw [h26, hroute, hen]; rfl)))), ?_⟩
    dsimp only
    rw [hroute]
  case refine_2 => exact fun s d h1 hroute => ⟨_, congrArg Outcome.next ((State.when_of s _ h1).trans (if_neg (by omega))), rfl⟩
  case refine_3 => exact fun s b st p n h1 hroute hp => ⟨_, State.setLineCoding_stalled h1 hroute hp, rfl⟩
  case refine_4 =>
    exact fun s b r h1 hroute hr hb hlo hhi =>
      ⟨_, State.setLineCoding_taken h1 hroute hr hb hlo hhi, s.lineCoded_effect true true hr hhi (by decide)⟩
  case refine_5 =>
    exact fun s v h1 hroute => ⟨_, congrArg Outcome.next (State.when_of s _ (by rw [h1, decide_eq_true hroute]; rfl)), rfl⟩
  case refine_6 => exact fun s h2 => ⟨_, congrArg Outcome.next (State.when_of s _ h2), rfl⟩
  case refine_7 =>
    intro s hs h29 hstate hleft
    have hsp : (if hs && !s.on USBD_CTRL_FS_ONLY then 3 else 2) < 4 := by split <;> decide
    refine ⟨_, State.usbBusReset_exec h29 hstate hleft, ?_⟩
    simp only [State.fnRestarted, State.modUsb_rd, State.modUsb_on]
    exact s.fnReset_effect hsp
  case refine_8 =>
    intro s v a c w h29 hstate hne
    obtain ⟨hsus, haddr, hwake, hst⟩ := (s.suspendNoted v).fnSuspended_effect v a c w
    have hexec : exec (.usbdSuspendChange v a c w) s = .next (((s.suspendNoted v).fnSuspended v a c w).raise 29 (if v then 3 else 4)) :=
      congrArg Outcome.next (State.when_of s _ (by rw [h29, decide_eq_true hstate, bne_iff_ne.2 hne]; rfl))
    refine ⟨_, hexec, ?_, ?_, ?_, ?_⟩
    · rw [State.on_raise_apart _ _ _ _ (usbdIsr_apart rfl), hsus]
    · rw [State.rd_raise_apart _ _ _ _ (usbdIsr_apart rfl), haddr]
    · rw [State.on_raise_apart _ _ _ _ (usbdIsr_apart rfl), hwake]
    · rw [State.rd_raise_apart _ _ _ _ (usbdIsr_apart rfl), hst]
  case refine_9 =>
    exact fun s hwake => ⟨_, congrArg Outcome.next ((State.when_of s _ hwake).trans ((if_neg Bool.false_ne_true).trans (State.when_of_not _ _ rfl))), rfl⟩
  case refine_10 => exact fun s hk hwake => ⟨_, congrArg Outcome.next ((State.when_of s _ hwake).trans (if_pos rfl)), rfl⟩
  case refine_11 =>
    intro s f x hcrown h30 hofs
    obtain ⟨hframe, hkept⟩ := s.sofShown_effect f ((x : Int) - ((x + 62500) / 125000 * 125000 : Nat))
    refine ⟨_, congrArg Outcome.next ((State.when_of s _ (by rw [hcrown, h30]; rfl)).trans (if_pos (hofs.trans hkept.symm))), hframe, hkept⟩
  case refine_12 =>
    intro s m h30 hcrown hm hne
    have hlt : beNat ((m.drop 8).take 4) % 2048 < 2048 := Nat.mod_lt _ (by decide)
    exact ⟨_, congrArg Outcome.next ((State.when_of s _ (by rw [h30, hcrown, hm]; rfl)).trans (if_neg hne)), s.slipped_effect hlt⟩
  case refine_13 =>
    intro s hwake
    have hexec : exec (.remoteWakeSignal true false false) s = .next ((s.modUsb (fun u => { u with hubWake := false })).emit (.usbFn 3)) :=
      congrArg Outcome.next ((State.when_of s _ hwake).trans ((if_neg Bool.false_ne_true).trans (State.when_of_not _ _ rfl)))
    exact ⟨_, hexec, List.mem_append_right _ List.mem_cons_self, rfl,
      (SameWords.refl _ s).of_word fun a => (State.emit_word ..).trans (State.modUsb_word ..)⟩

end Sys2Proof.Machine
end

section
/-!
PROOFS. The ports of the split hub (R256, R265, R267).
-/

namespace Sys2Proof.Machine

open Host (Outcome)

section HubPort
variable {s : State} {n p : Nat}

theorem State.phyForget_rd (s : State) (n : Nat) (f : Fld) : (s.phyForget n).rd f = s.rd f := State.modUsb_rd ..

theorem all_filter_self {α : Type} (l : List α) (f : α → Bool) : (l.filter f).all f = true :=
  List.all_eq_true.2 fun _ h => (List.mem_filter.1 h).2

/-! ## Devices (R256) -/

theorem State.phyPortChange_exec {u sp : Nat} {d oc pw : Bool} (hu : (u = 0 ∧ s.on SVC_TC_STATUS_DATA_ROLE = true) ∨ (2 ≤ u ∧ u ≤ 5))
    (h30 : s.isOn 30 = true) : exec (.phyPortChange u d sp oc pw) s = .next ((((s.wr (USBH_LPORT_ST u) (portWord (if d then sp else 0) oc
      (bitsOf (s.rd (USBH_LPORT_ST u)) 7 7 == 1 && d)
      (d && bitsOf (s.rd (USBH_LPORT_ST u)) 6 6 == 1 && bitsOf (s.rd (USBH_LPORT_ST u)) 5 5 == 1) d pw)).when (!d) (·.phyForget u)).raise 30 0).sendPhyStatus u) := by
  have hport : ((u == 0 && s.on SVC_TC_STATUS_DATA_ROLE) || (decide (2 ≤ u) && decide (u ≤ 5))) = true := by
    obtain ⟨rfl, hrole⟩ | ⟨hlo, hhi⟩ := hu
    · rw [hrole]
      rfl
    · rw [decide_eq_true hlo, decide_eq_true hhi]
      exact Bool.or_true _
  exact congrArg Outcome.next (State.when_of s _ (by rw [hport, h30]; rfl))

theorem hubPort_apart (hp : p ≤ 15) : (USBH_PORT_ST_POWER p).apart (USBH_PORT_ST_OVERCURRENT p) = true ∧
    (USBH_PORT_ST_SUSPEND p).apart (USBH_PORT_ST_OVERCURRENT p) = true ∧ (USBH_PORT_ST_SUSPEND p).apart (USBH_PORT_ST_POWER p) = true ∧
    (USBH_PORT_ST_SPEED p).apart (USBH_PORT_ST_OVERCURRENT p) = true ∧ (USBH_PORT_ST_SPEED p).apart (USBH_PORT_ST_POWER p) = true ∧
    (USBH_PORT_ST_ENABLED p).apart (USBH_PORT_ST_OVERCURRENT p) = true ∧ (USBH_PORT_ST_ENABLED p).apart (USBH_PORT_ST_POWER p) = true := by
  revert p
  decide

/-- The port that the status of a device names, once the hub has taken note of the device. -/
def State.hubDevice (s : State) (p w : Nat) : State :=
  ((s.modUsb (fun u => { u with dev := u.dev.filter (· != p) ++ (if bitsOf w 5 5 == 1 then [p] else []) })).portUpdate p).portChg p

/-- The over-current, power and suspend state of a port. -/
def State.hubShown (s : State) (p w : Nat) : State :=
  ((s.wr (USBH_PORT_ST_OVERCURRENT p) (bitsOf w 8 8)).wr (USBH_PORT_ST_POWER p) (bitsOf w 4 4)).wr (USBH_PORT_ST_SUSPEND p) (bitsOf w 7 7)

/-- The speed of a port, and whether it is enabled and no longer resetting. -/
def State.hubEnabled (s : State) (p w : Nat) : State :=
  let up := s.on (USBH_PORT_ST_CONNECTED p)
  let s := s.wr (USBH_PORT_ST_SPEED p) (if up then bitsOf w 10 9 else 0)
  let done_ := up && s.usb.resetting.contains p
  (s.flag (USBH_PORT_ST_ENABLED p) (up && bitsOf w 6 6 == 1)).modUsb (fun u =>
    { u with resetting := if done_ then u.resetting.filter (· != p) else u.resetting })

theorem State.portStatusMsg_exec {m : List Byte} (hcrown : s.crown = true) (h30 : s.isOn 30 = true) (h1 : 1 ≤ p) (h15 : p ≤ 15)
    (hm : byteAt m 0 = 4) : exec (.portStatusMsg p m) s =
      .next (((s.hubDevice p (beNat ((m.drop 8).take 4))).hubShown p (beNat ((m.drop 8).take 4))).hubEnabled p (beNat ((m.drop 8).take 4))) :=
  congrArg Outcome.next (State.when_of s _ (by rw [hcrown, h30, decide_eq_true h1, decide_eq_true h15, hm]; rfl))

theorem bitsOf_one (w b : Nat) : bitsOf w b b % 2 = bitsOf w b b := by
  rw [bitsOf, Nat.add_sub_cancel_left, Nat.pow_one, Nat.mod_mod]

theorem State.hubEnabled_on (s : State) (p w : Nat) (f : Fld) (hspeed : (USBH_PORT_ST_SPEED p).apart f = true)
    (hen : (USBH_PORT_ST_ENABLED p).apart f = true) : (s.hubEnabled p w).on f = s.on f := by
  rw [State.hubEnabled, State.modUsb_on, State.on_flag_apart _ _ _ _ hen, State.on_wr_apart _ _ _ _ hspeed]

theorem State.hubShown_on (s : State) (w : Nat) (hp : p ≤ 15) : (s.hubShown p w).on (USBH_PORT_ST_OVERCURRENT p) = (bitsOf w 8 8 == 1) ∧
    (s.hubShown p w).on (USBH_PORT_ST_POWER p) = (bitsOf w 4 4 == 1) := by
  obtain ⟨hpo, hso, hsp, -⟩ := hubPort_apart hp
  have hone (u : State) (f : Fld) (b : Nat) (hf : f.fits = true) (hw : f.width = 1) : (u.wr f (bitsOf w b b)).on f = (bitsOf w b b == 1) := by
    rw [State.on, State.rd_wr_fits _ _ _ hf, hw, Nat.pow_one, bitsOf_one]
  rw [State.hubShown]
  refine ⟨?_, ?_⟩
  · rw [State.on_wr_apart _ _ _ _ hso, State.on_wr_apart _ _ _ _ hpo]
    exact hone _ _ _ rfl rfl
  · rw [State.on_wr_apart _ _ _ _ hsp]
    exact hone _ _ _ rfl rfl

/-! ## Resets (R265) -/

theorem State.portReset_crown {hs : Bool} {sp : Nat} (hcrown : s.crown = true) (h30 : s.isOn 30 = true) (h1 : 1 ≤ p) (h15 : p ≤ 15)
    (hconn : s.on (USBH_PORT_ST_CONNECTED p) = true) (hdef : s.usb.deferred = []) :
    exec (.portReset true ⟨p, hs, sp⟩) s = .next ((((s.dropDeferred (· == p)).flag (USBH_PORT_ST_ENABLED p) false).modUsb
      (fun u => { u with resetting := u.resetting.filter (· != p) ++ [p] })).hubMsg p
        (usbMsg 3 0 0 false 0 0 ((s.dropDeferred (· == p)).on USBH_HUB_STATUS_HOST_HS) 0 (beBytes 4 4))) := by
  have hapart : (USBH_PORT_ST_ENABLED p).apart USBH_HUB_STATUS_HOST_HS = true :=
    Fld.apart_of_addr_ne (by simp only [USBH_PORT_ST_ENABLED, USBH_HUB_STATUS_HOST_HS]; omega)
  refine congrArg Outcome.next ((State.when_of s _ h30).trans ((if_pos rfl).trans
    ((State.when_of s _ (by rw [hcrown, decide_eq_true h1, decide_eq_true h15, hconn]; rfl)).trans ?_)))
  dsimp only
  rw [hdef, List.filter_nil, State.when_of_not (c := !(List.isEmpty ([] : List Deferred))) _ _ rfl, State.modUsb_on, State.on_flag_apart _ _ _ _ hapart]

theorem State.portReset_phy {hs : Bool} {sp : Nat} (h30 : s.isOn 30 = true) (h5 : n ≤ 5) (hn : n ≠ 1) :
    exec (.portReset false ⟨n, hs, sp⟩) s = .next ((((s.phyForget n).when (bitsOf (s.rd (USBH_LPORT_ST n)) 5 5 == 1) (fun t =>
      t.wr (USBH_LPORT_ST n) (portWord (if sp = 3 ∧ !hs then 2 else sp) (bitsOf (s.rd (USBH_LPORT_ST n)) 8 8 == 1) false true true
        (bitsOf (s.rd (USBH_LPORT_ST n)) 4 4 == 1)))).emit (.usbPhy n 2 0)).sendPhyStatus n) := by
  refine congrArg Outcome.next ((State.when_of s _ h30).trans ((if_neg Bool.false_ne_true).trans
    ((State.when_of s _ (by rw [decide_eq_true h5, bne_iff_ne.2 hn]; rfl)).trans ?_)))
  dsimp only
  rw [State.phyForget_rd]

theorem State.phyForget_effect (s : State) (n : Nat) : (s.phyForget n).usb.run.all (·.phy != n) = true ∧
    (s.phyForget n).usb.sched.all (·.port != n) = true ∧ SameWords [] s (s.phyForget n) :=
  ⟨all_filter_self .., all_filter_self .., (SameWords.refl _ s).of_word fun _ => State.modUsb_word ..⟩

/-! ## Suspend and resume (R267) -/

/-- A word of a local port is written and a signal driven. -/
theorem State.lport_effect (s : State) (n v k : Nat) : ((s.wr (USBH_LPORT_ST n) v).emit (.usbPhy n k 0)).rd (USBH_LPORT_ST n) = v % 2 ^ 32 ∧
    Out.usbPhy n k 0 ∈ ((s.wr (USBH_LPORT_ST n) v).emit (.usbPhy n k 0)).out ∧
    SameWords [(USBH_LPORT_ST n).addr] s ((s.wr (USBH_LPORT_ST n) v).emit (.usbPhy n k 0)) := by
  refine ⟨?_, List.mem_append_right _ List.mem_cons_self, ?_⟩
  · rw [State.emit_rd]
    exact State.rd_wr_fits _ _ _ rfl
  · exact ((SameWords.refl _ s).wr (f := USBH_LPORT_ST n) List.mem_cons_self _).of_word fun a => State.emit_word ..

theorem hubIsr_apart : (PG_ISR 30).apart USBH_HUB_STATUS_SUSPENDED = true := by decide

theorem State.remoteWake_exec (h30 : s.isOn 30 = true) (hcrown : s.crown = true) (h1 : 1 ≤ n) (h15 : n ≤ 15) :
    exec (.pavilionRemoteWake true n) s = .next (((s.portChg n).raise 30 2).when (s.usb.hubRwake && s.on USBH_HUB_STATUS_SUSPENDED)
      (·.modUsb (fun u => { u with hubWake := true }))) := by
  have hsus : ((s.portChg n).raise 30 2).on USBH_HUB_STATUS_SUSPENDED = s.on USBH_HUB_STATUS_SUSPENDED := by
    rw [State.on_raise_apart _ _ _ _ hubIsr_apart, State.portChg, State.emit_on, State.on_raise_apart _ _ _ _ hubIsr_apart]
  have husb : ((s.portChg n).raise 30 2).usb = s.usb := by
    rw [State.raise_usb, State.portChg, State.emit_usb, State.raise_usb]
  refine congrArg Outcome.next ((State.when_of s _ h30).trans ((if_pos rfl).trans
    ((State.when_of s _ (by rw [hcrown, decide_eq_true h1, decide_eq_true h15]; rfl)).trans ?_)))
  dsimp only
  rw [hsus, husb]

end HubPort

/-- Settles O31: a change, a reset and a power command of a port take the branch of the side and of the port's word. -/
theorem usbHubPortCommands : Obligations.UsbHubPortCommands := by
  unfold Obligations.UsbHubPortCommands
  refine ⟨?_, ?_, ?_, ?_, ?_, ?_, ?_, ?_, ?_, ?_, ?_⟩
  case refine_1 => exact fun s u d sp oc pw hu h30 => State.phyPortChange_exec hu h30
  case refine_2 =>
    intro s p m hcrown h30 h1 h15 hm
    obtain ⟨-, -, -, hspo, hspp, heno, henp⟩ := hubPort_apart h15
    obtain ⟨hoc, hpow⟩ := (s.hubDevice p (beNat ((m.drop 8).take 4))).hubShown_on (beNat ((m.drop 8).take 4)) h15
    exact ⟨_, State.portStatusMsg_exec hcrown h30 h1 h15 hm, (State.hubEnabled_on _ _ _ _ hspo heno).trans hoc,
      (State.hubEnabled_on _ _ _ _ hspp henp).trans hpow⟩
  case refine_3 => exact fun s p hs sp hcrown h30 h1 h15 hconn hdef => State.portReset_crown hcrown h30 h1 h15 hconn hdef
  case refine_4 =>
    intro s n hs sp h30 h5 hn hconn
    rw [State.portReset_phy h30 h5 hn, hconn, State.when_of_not (c := (0 : Nat) == 1) _ _ rfl]
  case refine_5 =>
    intro s n w h30 h5 hn
    refine ⟨_, congrArg Outcome.next ((State.when_of s _ h30).trans ((if_neg Bool.false_ne_true).trans
      (State.when_of s _ (by rw [decide_eq_true h5, bne_iff_ne.2 hn]; rfl)))), s.lport_effect n _ 3⟩
  case refine_6 =>
    intro s n h30 h5 hn hsus
    refine ⟨_, congrArg Outcome.next ((State.when_of s _ h30).trans ((if_neg Bool.false_ne_true).trans
      (State.when_of s _ (by rw [decide_eq_true h5, bne_iff_ne.2 hn, hsus]; rfl)))), s.lport_effect n _ 4⟩
  case refine_7 =>
    intro s w h30 hcrown hports
    refine congrArg Outcome.next ((State.when_of s _ h30).trans ((if_pos rfl).trans ((State.when_of s _ (by rw [hcrown]; rfl)).trans ((if_pos rfl).trans ?_))))
    rw [hports]
    rfl
  case refine_8 =>
    intro s n h30 hcrown h1 h15 hwake hsus
    exact ⟨_, (State.remoteWake_exec h30 hcrown h1 h15).trans (congrArg Outcome.next (State.when_of _ _ (by rw [hwake, hsus]; rfl))), rfl⟩
  case refine_9 =>
    intro s n hs sp h30 h5 hn hconn
    rw [State.portReset_phy h30 h5 hn, hconn, State.when_of (c := (1 : Nat) == 1) _ _ rfl]
  case refine_10 => exact State.phyForget_effect
  case refine_11 =>
    intro s n h30 hcrown h1 h15 hsus
    exact ⟨_, (State.remoteWake_exec h30 hcrown h1 h15).trans
      (congrArg Outcome.next (State.when_of_not _ _ (by rw [hsus]; exact Bool.and_false _))), rfl⟩

end Sys2Proof.Machine
end

section
/-!
PROOFS. Transactions through the split hub (R258–R262).
-/

namespace Sys2Proof.Machine

open Host (Outcome)

section Transaction
variable {s : State} {p a e g : Nat} {d : List Byte}

theorem State.hostAsks {k : Nat} (hcrown : s.crown = true) (h30 : s.isOn 30 = true) (h1 : 1 ≤ p) (h15 : p ≤ 15) (hk : k ≤ 9) :
    (s.crown && s.isOn 30 && decide (1 ≤ p) && decide (p ≤ 15) && decide (k ≤ 9)) = true := by
  rw [hcrown, h30, decide_eq_true h1, decide_eq_true h15, decide_eq_true hk]
  rfl

theorem State.hostTransaction_unconnected {ty k : Nat} {b : Bool} (hcrown : s.crown = true) (h30 : s.isOn 30 = true) (h1 : 1 ≤ p) (h15 : p ≤ 15)
    (hk : k ≤ 9) (habs : s.usb.absent = []) (hconn : s.on (USBH_PORT_ST_CONNECTED p) = false) :
    exec (.hostTransaction p a e ty k b d) s = .next (s.hostAns p a e 5 false []) := by
  refine congrArg Outcome.next ((State.when_of s _ (State.hostAsks hcrown h30 h1 h15 hk)).trans ?_)
  refine (if_neg (by rw [habs]; exact Bool.false_ne_true)).trans (if_pos ?_)
  rw [hconn]
  rfl

theorem State.hostTransaction_setup {b : Bool} (hcrown : s.crown = true) (h30 : s.isOn 30 = true) (h1 : 1 ≤ p) (h15 : p ≤ 15)
    (habs : s.usb.absent = []) (hconn : s.on (USBH_PORT_ST_CONNECTED p) = true) (hen : s.on (USBH_PORT_ST_ENABLED p) = true)
    (h9 : s.engUp 9 = true) : exec (.hostTransaction p a e 0 0 b d) s = .next (((s.modUsb (fun u => { u with
      deferred := u.deferred.filter (fun d => !(d.port == p && d.addr == a && d.ep == e)) })).deferNew p a e 0 0 b d).hostAns p a e 0 false []) := by
  refine congrArg Outcome.next ((State.when_of s _ (State.hostAsks hcrown h30 h1 h15 (by decide))).trans ?_)
  refine (if_neg (by rw [habs]; exact Bool.false_ne_true)).trans ((if_neg (by rw [hconn, hen]; exact Bool.false_ne_true)).trans ?_)
  refine (if_neg (by rw [h9]; exact Bool.false_ne_true)).trans ((if_neg (by decide)).trans ((if_neg (by decide)).trans ((if_neg (by decide)).trans ?_)))
  exact if_pos rfl

/-! ## The pavilion's bus (R258, R262) -/

theorem State.pavilionTakes {u r op : Nat} {m : List Byte} (h30 : s.isOn 30 = true) (hm : byteAt m 0 = op) (hu : u ≤ 5) (hn : u ≠ 1) (hr : r ≤ 3) :
    (s.isOn 30 && byteAt m 0 == op && decide (u ≤ 5) && u != 1 && decide (r ≤ 3)) = true := by
  rw [h30, hm, beq_self_eq_true, decide_eq_true hu, bne_iff_ne.2 hn, decide_eq_true hr]
  rfl

theorem State.usbRequest_run {u r : Nat} {m : List Byte} {l : List Nat} (h30 : s.isOn 30 = true) (hm : byteAt m 0 = 1) (hu : u ≤ 5) (hn : u ≠ 1)
    (hr : r ≤ 3) (htyp : (phyTrOf u m).typ = 2) (hfirst : s.usb.run.any (fun x => x.sameEp (phyTrOf u m)) = false) :
    exec (.usbTransactionRequest u m r d l) s = .next (s.tryPhy (phyTrOf u m) r d l) := by
  refine congrArg Outcome.next ((State.when_of s _ (State.pavilionTakes h30 hm hu hn hr)).trans ?_)
  exact (if_neg (by omega)).trans ((if_neg (by omega)).trans (if_neg (by rw [hfirst]; exact Bool.false_ne_true)))

/-- The schedule of the pavilion with a periodic IN endpoint joined. -/
def State.scheduled (s : State) (u : Nat) (r : PhyTr) : State :=
  s.modUsb (fun t => { t with sched := t.sched.filter (fun x => !(x.port == u && x.tag == r.tag)) ++
                                        [⟨u, r.addr, r.ep, r.typ, true, r.tag, [], false, false⟩] })

theorem State.usbRequest_periodic {u r : Nat} {m : List Byte} {l : List Nat} (h30 : s.isOn 30 = true) (hm : byteAt m 0 = 1) (hu : u ≤ 5)
    (hn : u ≠ 1) (hr : r ≤ 3) (htyp : (phyTrOf u m).typ = 3) (hkind : (phyTrOf u m).kind = 1) :
    exec (.usbTransactionRequest u m r d l) s = .next (s.scheduled u (phyTrOf u m)) :=
  congrArg Outcome.next ((State.when_of s _ (State.pavilionTakes h30 hm hu hn hr)).trans (if_pos ⟨.inr htyp, hkind⟩))

theorem State.pavilionRepeat_exec {i r : Nat} {l : List Nat} {x : PhyTr} (h30 : s.isOn 30 = true) (hr : r ≤ 3) (hx : s.usb.run[i]? = some x)
    (hfirst : (s.usb.run.take i).any (fun y => y.sameEp x) = false) : exec (.pavilionRepeat i r d l) s = .next (s.tryPhy x r d l) := by
  refine congrArg Outcome.next ((State.when_of s _ (by rw [h30, decide_eq_true hr]; rfl)).trans ?_)
  rw [hx]
  exact State.when_of s _ (by rw [hfirst]; rfl)

theorem State.periodicPoll_exec {i : Nat} {x : Periodic} (h30 : s.isOn 30 = true) (hx : s.usb.sched[i]? = some x) (hin : x.isIn = true) :
    exec (.periodicPoll i 1 d) s = .next (s.emit (.usbTok x.port x.addr x.ep 1 (s.toggle x.port x.addr (x.ep + 16)) [])) := by
  refine congrArg Outcome.next ((State.when_of s _ (by rw [h30]; rfl)).trans ?_)
  rw [hx]
  dsimp only
  rw [hin, if_pos rfl, if_neg (by decide), if_pos rfl]
  rfl

/-! ## Results and aborts (R260) -/

/-- The result of a deferred transaction, held under its tag. -/
def State.resultHeld (s : State) (m : List Byte) : State :=
  s.modUsb (fun u => { u with deferred := u.deferred.map (fun (x : Deferred) =>
    if x.tag = halfAt m 6 then { x with res := some (0, byteAt m 3 % 2 == 1, (m.drop 8).take (halfAt m 4)), abandoned := false } else x) })

theorem State.usbResult_exec {m : List Byte} {x : Deferred} (hcrown : s.crown = true) (h30 : s.isOn 30 = true) (hm : byteAt m 0 = 2)
    (hcode : byteAt m 3 / 16 = 0) (hx : s.usb.deferred.find? (fun d => d.port == p && d.tag == halfAt m 6) = some x) (hres : x.res = none) :
    exec (.usbResult p m) s = .next (s.resultHeld m) := by
  refine congrArg Outcome.next ((State.when_of s _ (by rw [hcrown, h30, hm]; rfl)).trans ?_)
  dsimp only
  rw [hx, hcode]
  dsimp only
  rw [hres]
  refine (if_neg (by decide)).trans ((if_neg (by decide)).trans ((if_neg (by decide)).trans ?_))
  rfl

theorem State.deferStale_exec {x : Deferred} (hx : s.usb.deferred.find? (fun d => d.tag == g) = some x) (hres : x.res = none)
    (hab : x.abandoned = false) : exec (.deferStale g) s = .next ((s.modUsb (fun u => { u with deferred := u.deferred.map (fun (x : Deferred) =>
      if x.tag = g then { x with abandoned := true } else x) })).hubMsg x.port (usbMsg 6 x.addr x.ep (x.kind == 1) x.typ 0 false g [])) := by
  change execDeferStale g s = _
  rw [execDeferStale, hx]
  exact congrArg Outcome.next (State.when_of s _ (by rw [hres, hab]; rfl))

theorem State.abortDevice_exec {u : Nat} {m : List Byte} {r : PhyTr} (h30 : s.isOn 30 = true) (hm : byteAt m 0 = 6)
    (hr : s.usb.run.find? (fun r => r.phy == u && r.tag == halfAt m 6) = some r) : exec (.abortDevice u m) s =
      .next ((s.modUsb (fun x => { x with run := x.run.filter (fun y => !(y.phy == u && y.tag == r.tag)) })).result r 4 false []) := by
  refine congrArg Outcome.next ((State.when_of s _ (by rw [h30, hm]; rfl)).trans ?_)
  rw [hr]

end Transaction

/-- Settles O32: a transaction takes the branch of its port, its endpoint and what is held for it. -/
theorem usbTransactionCommands : Obligations.UsbTransactionCommands := by
  unfold Obligations.UsbTransactionCommands
  refine ⟨?_, ?_, ?_, ?_, ?_, ?_, ?_, ?_, ?_⟩
  case refine_1 => exact fun s p a e ty k g d hcrown h30 h1 h15 hk habs hconn => State.hostTransaction_unconnected hcrown h30 h1 h15 hk habs hconn
  case refine_2 => exact fun s p a e g d hcrown h30 h1 h15 habs hconn hen h9 => State.hostTransaction_setup hcrown h30 h1 h15 habs hconn hen h9
  case refine_3 => exact fun s u m r d l h30 hm hu hn hr htyp hfirst => State.usbRequest_run h30 hm hu hn hr htyp hfirst
  case refine_4 =>
    intro s u m r d l h30 hm hu hn hr htyp hkind
    refine ⟨_, State.usbRequest_periodic h30 hm hu hn hr htyp hkind, (SameWords.refl _ s).of_word fun a => State.modUsb_word .., ?_⟩
    rw [State.scheduled, htyp, State.modUsb_usb]
  case refine_5 => exact fun s i r d l x h30 hr hx hfirst => State.pavilionRepeat_exec h30 hr hx hfirst
  case refine_6 => exact fun s i d x h30 hx hin => ⟨_, State.periodicPoll_exec h30 hx hin, rfl⟩
  case refine_7 =>
    exact fun s p m d hcrown h30 hm hcode hd hres =>
      ⟨_, State.usbResult_exec hcrown h30 hm hcode hd hres, (SameWords.refl _ s).of_word fun a => State.modUsb_word .., rfl⟩
  case refine_8 => exact fun s g d hd hres hab => State.deferStale_exec hd hres hab
  case refine_9 => exact fun s u m r h30 hm hr => State.abortDevice_exec h30 hm hr

end Sys2Proof.Machine
end

section
/-!
PROOFS. Ethernet ports, redundancy and PTP (R173, R270–R280, R445).
-/

namespace Sys2Proof.Machine

open Host (Outcome)

section Ethernet
variable {s : State} {k ns st q c : Nat} {d : List Byte}

/-! ## The link (R270) -/

/-- The words of a link. -/
def State.linkShown (s : State) (k : Nat) (l a : Bool) (v : Nat) : State :=
  ((s.flag (ETH_STATUS_LINK k) l).flag (ETH_STATUS_AN_DONE k) a).wr (ETH_STATUS_SPEED k) v

/-- The interrupts of a link change. -/
def State.linkRaised (s : State) (k : Nat) (up down an : Bool) : State :=
  ((s.when up (·.raise (31 + k) 0)).when down (·.raise (31 + k) 1)).when an (·.raise (31 + k) 2)

theorem ethStatus_apart (hk : k < 4) : (ETH_STATUS_AN_DONE k).apart (ETH_STATUS_LINK k) = true ∧
    (ETH_STATUS_SPEED k).apart (ETH_STATUS_LINK k) = true ∧ (ETH_STATUS_SPEED k).apart (ETH_STATUS_AN_DONE k) = true := by
  revert k
  decide

theorem State.linkShown_effect (s : State) (l a : Bool) (v : Nat) (hk : k < 4) : (s.linkShown k l a v).on (ETH_STATUS_LINK k) = l ∧
    (s.linkShown k l a v).on (ETH_STATUS_AN_DONE k) = a ∧ (s.linkShown k l a v).rd (ETH_STATUS_SPEED k) = v % 4 := by
  obtain ⟨hal, hsl, hsa⟩ := ethStatus_apart hk
  rw [State.linkShown]
  refine ⟨?_, ?_, State.rd_wr_fits _ _ _ rfl⟩
  · rw [State.on_wr_apart _ _ _ _ hsl, State.on_flag_apart _ _ _ _ hal]
    exact State.on_flag_one _ _ _ rfl
  · rw [State.on_wr_apart _ _ _ _ hsa]
    exact State.on_flag_one _ _ _ rfl

theorem State.linkRaised_rd (s : State) (up down an : Bool) {f : Fld} (hf : f.addr = 0x1F048 + 0x1000 * k) :
    (s.linkRaised k up down an).rd f = s.rd f := by
  have hne : (PG_ISR (31 + k)).apart f = true := Fld.apart_of_addr_ne (by rw [hf]; simp only [PG_ISR]; omega)
  have hraise (u : State) (b : Bool) (i : Nat) : (u.when b (·.raise (31 + k) i)).rd f = u.rd f := by
    cases b with
    | true => exact State.rd_raise_apart _ _ _ _ hne
    | false => rfl
  rw [State.linkRaised, hraise, hraise, hraise]

theorem linkUp_of (l a : Bool) (mode : Nat) : (l && (decide (mode < 2) || (a && decide (mode ≥ 2)))) = (l && (decide (mode < 2) || a)) := by
  by_cases h : mode < 2
  · rw [decide_eq_true h, Bool.true_or, Bool.true_or]
  · rw [decide_eq_true (show mode ≥ 2 by omega), Bool.and_true]

theorem State.ethLinkChange_exec {l a : Bool} {v : Nat} (hk : k < 4) (hon : s.isOn (31 + k) = true) :
    ∃ up down an, exec (.ethLinkChange k l a v) s = .next ((s.linkShown k (l && (decide (s.rd (ETH_CTRL_MODE k).inForce < 2) || a))
      (a && decide (2 ≤ s.rd (ETH_CTRL_MODE k).inForce)) (if s.rd (ETH_CTRL_MODE k).inForce = 3 then v else 3)).linkRaised k up down an) := by
  rw [← linkUp_of]
  exact ⟨_, _, _, congrArg Outcome.next (State.when_of s _ (by rw [hon, decide_eq_true hk]; rfl))⟩

/-! ## Frames (R271, R445) -/

theorem State.ethRx_when (hk : k < 4) (hup : s.ethUp k = true) (f : State → State) : s.when (decide (k < 4) && s.ethUp k) f = f s :=
  State.when_of s _ (by rw [hup, decide_eq_true hk]; rfl)

theorem State.ethFrameRx_short {ok : Bool} (hk : k < 4) (hup : s.ethUp k = true) (hd : d.length < 64) :
    exec (.ethFrameRx k d ok ns st q c) s = .next ((s.inc (ETH_RX_FRAMES k)).inc (ETH_LEN_ERR k)) :=
  congrArg Outcome.next ((State.ethRx_when hk hup _).trans (if_pos hd))

theorem State.ethFrameRx_taken (ok : Bool) (hk : k < 4) (hup : s.ethUp k = true) (hd : 64 ≤ d.length)
    (hmax : d.length ≤ (s.inc (ETH_RX_FRAMES k)).rd (ETH_CTRL_MAX_LEN k).inForce) : exec (.ethFrameRx k d ok ns st q c) s =
      .next ((if ok then s.inc (ETH_RX_FRAMES k) else (s.inc (ETH_RX_FRAMES k)).inc (ETH_FCS_ERR k)).ethTake k d ns st q
        (if !ok then some c else none)) := by
  have hlong : decide (d.length > (s.inc (ETH_RX_FRAMES k)).rd (ETH_CTRL_MAX_LEN k).inForce) = false := decide_eq_false (by omega)
  refine congrArg Outcome.next ((State.ethRx_when hk hup _).trans ((if_neg (by omega)).trans ?_))
  dsimp only
  rw [hlong, if_neg Bool.false_ne_true, Bool.false_or]

theorem State.txUnderrun_when (hk : k < 4) (f : State → State) : s.when (decide (k < 4)) f = f s := State.when_of s _ (decide_eq_true hk)

/-! ## Supervision frames and nodes (R277) -/

theorem State.ethSend_word_ne (s : State) (p tc : Nat) (b : List Byte) {a : Nat} (h : a ≠ (ETH_TX_FRAMES p).addr) :
    (s.ethSend p tc b).word a = s.word a :=
  State.when_word _ _ _ _ ((State.emit_word ..).trans (State.word_inc_ne _ _ _ _ h))

theorem State.ethSend_count {p tc : Nat} {b : List Byte} (hup : s.ethUp p = true) :
    (s.ethSend p tc b).rd (ETH_TX_FRAMES p) = (s.rd (ETH_TX_FRAMES p) + 1) % 2 ^ 32 := by
  rw [State.ethSend, State.when_of s _ hup, State.emit_rd]
  exact State.rd_inc_fits _ _ _ rfl

theorem State.ethUp_of_word {t : State} {p : Nat} (h : ∀ a, a % 0x1000 ≠ 0x64 → t.word a = s.word a) (hp : p < 4) : t.ethUp p = s.ethUp p := by
  have hlife : t.isOn (31 + p) = s.isOn (31 + p) := by
    rw [State.isOn, State.rd_of_word (f := PG_STATE_LIFE (31 + p)) (h _ (by simp only [PG_STATE_LIFE]; omega)), State.isOn]
  rw [State.ethUp, State.ethUp, hlife, State.on_of_word (f := ETH_STATUS_LINK p) (h _ (by simp only [ETH_STATUS_LINK]; omega))]

theorem State.ethSend_stn (s : State) (p tc : Nat) (b : List Byte) : (s.ethSend p tc b).stn = s.stn :=
  (State.ethSend_follows (msk := 0) p tc b (Follows.refl 0 s)).parts .stn rfl

/-- The sequence number of an LRE is taken. -/
def State.seqTaken (s : State) (x : Nat) : State :=
  s.modStn (fun t => { t with redSeq := tset t.redSeq x ((tget 0 s.stn.redSeq x + 1) % 65536) })

/-- The frame that a supervision sends goes out on both ports of its LRE. -/
theorem State.supervisionSend_exec {x : Nat} (hx : x < 2) (hmode : s.lreMode (2 * x) ≠ 0) (h7 : s.rd (FAC_ENG_STATE_STATE 7) = 2) :
    ∃ b₁ b₂, exec (.supervisionSend x) s = .next (((s.seqTaken x).ethSend (2 * x) 1 b₁).ethSend (2 * x + 1) 1 b₂) :=
  ⟨_, _, congrArg Outcome.next (State.when_of s _ (by rw [decide_eq_true hx, bne_iff_ne.2 hmode, h7]; rfl))⟩

theorem State.supervised_effect (s : State) {x : Nat} (b₁ b₂ : List Byte) (hx : x < 2) (hup : s.ethUp (2 * x) = true)
    (hup' : s.ethUp (2 * x + 1) = true) :
    let t := ((s.seqTaken x).ethSend (2 * x) 1 b₁).ethSend (2 * x + 1) 1 b₂
    t.rd (ETH_TX_FRAMES (2 * x)) = (s.rd (ETH_TX_FRAMES (2 * x)) + 1) % 2 ^ 32 ∧
      t.rd (ETH_TX_FRAMES (2 * x + 1)) = (s.rd (ETH_TX_FRAMES (2 * x + 1)) + 1) % 2 ^ 32 ∧
      tget 0 t.stn.redSeq x = (tget 0 s.stn.redSeq x + 1) % 65536 ∧
      SameWords [(ETH_TX_FRAMES (2 * x)).addr, (ETH_TX_FRAMES (2 * x + 1)).addr] s t := by
  have hseq (a : Nat) : (s.seqTaken x).word a = s.word a := State.modStn_word ..
  have hfirst (a : Nat) (ha : a % 0x1000 ≠ 0x64) : ((s.seqTaken x).ethSend (2 * x) 1 b₁).word a = s.word a :=
    (State.ethSend_word_ne _ _ _ _ (by simp only [ETH_TX_FRAMES]; omega)).trans (hseq a)
  have hupSeq : (s.seqTaken x).ethUp (2 * x) = true := (State.ethUp_of_word (fun a _ => hseq a) (by omega)).trans hup
  have hup₁ : ((s.seqTaken x).ethSend (2 * x) 1 b₁).ethUp (2 * x + 1) = true := (State.ethUp_of_word hfirst (by omega)).trans hup'
  intro t
  refine ⟨?_, ?_, ?_, ?_⟩
  · have hother : t.rd (ETH_TX_FRAMES (2 * x)) = ((s.seqTaken x).ethSend (2 * x) 1 b₁).rd (ETH_TX_FRAMES (2 * x)) :=
      State.rd_of_word (f := ETH_TX_FRAMES (2 * x)) (State.ethSend_word_ne _ _ _ _ (by simp only [ETH_TX_FRAMES]; omega))
    rw [hother, State.ethSend_count hupSeq, State.rd_of_word (f := ETH_TX_FRAMES (2 * x)) (hseq _)]
  · have hbefore : ((s.seqTaken x).ethSend (2 * x) 1 b₁).rd (ETH_TX_FRAMES (2 * x + 1)) = s.rd (ETH_TX_FRAMES (2 * x + 1)) :=
      State.rd_of_word (f := ETH_TX_FRAMES (2 * x + 1))
        ((State.ethSend_word_ne _ _ _ _ (by simp only [ETH_TX_FRAMES]; omega)).trans (hseq _))
    rw [State.ethSend_count hup₁, hbefore]
  · rw [State.ethSend_stn, State.ethSend_stn, State.seqTaken, State.modStn_stn]
    exact tget_tset_self ..
  · intro a ha
    rw [List.mem_cons, List.mem_singleton, not_or] at ha
    exact (State.ethSend_word_ne _ _ _ _ ha.2).trans ((State.ethSend_word_ne _ _ _ _ ha.1).trans (hseq a))

theorem State.nodeForget_exec {x m q : Nat} (h7 : s.rd (FAC_ENG_STATE_STATE 7) = 2) (hmem : (x, m, q) ∈ s.stn.nodes)
    (hold : q + 60000000000 ≤ s.elapsed) : exec (.nodeForget x m) s =
      .next ((s.modStn (fun t => { t with nodes := t.nodes.filter (fun e => !(e.1 == x && e.2.1 == m)) })).raise 35 0) := by
  have hany : s.stn.nodes.any (fun e => e.1 == x && e.2.1 == m && decide (e.2.2 + 60000000000 ≤ s.elapsed)) = true :=
    List.any_eq_true.2 ⟨_, hmem, by rw [beq_self_eq_true, beq_self_eq_true, decide_eq_true hold]; rfl⟩
  exact congrArg Outcome.next (State.when_of s _ (by rw [h7, hany]; rfl))

/-! ## PTP (R279, R280) -/

/-- The stamp of a two-step Sync is kept, and its Follow_Up due. -/
def State.syncStamped (s : State) (k q st : Nat) : State :=
  (s.modStn (fun t => { t with ptpTx := t.ptpTx.filter (fun e => !(e.1 == k && e.2.1 == 0)) ++ [(k, 0, q, st)] })).modStn
    (fun t => { t with followUp := t.followUp.filter (· != k) ++ [k] })

theorem State.ptpSync_exec {raw a b r : Nat} (hk : k < 4) (h37 : s.isOn 37 = true) (htwo : s.on PTP_CTRL_ONE_STEP.inForce = false) :
    exec (.ptpEventMessage k true 0 q raw a b (some r)) s = .next ((s.syncStamped k q (raw + s.rd (PTP_TXDLY k))).emit
      (.ptp k 0 q (raw + s.rd (PTP_TXDLY k))
        (if s.rd PTP_CTRL_TYPE.inForce = 2 then ((raw + s.rd (PTP_TXDLY k) : Nat) : Int) - r else 0) s.clockClass)) := by
  refine congrArg Outcome.next ((State.when_of s _ (by rw [h37, decide_eq_true hk]; rfl)).trans ((if_pos rfl).trans ?_))
  dsimp only
  rw [State.modStn_on, htwo, State.when_of (c := (0 : Nat) == 0 && !false) _ _ rfl]
  rfl

theorem State.ptpPdelay_exec {raw a b : Nat} {r : Nat × Nat × Nat × Nat} (hk : k < 4) (h37 : s.isOn 37 = true)
    (hr : s.stn.ptpTx.find? (fun e => e.1 == k && e.2.1 == 2 && e.2.2.1 == q) = some r) :
    exec (.ptpEventMessage k false 3 q raw a b none) s =
      .next (s.wr (PTP_PDELAY k) (((raw - s.rd (PTP_RXDLY k) - r.2.2.2) - (b - a)) / 2)) := by
  refine congrArg Outcome.next ((State.when_of s _ (by rw [h37, decide_eq_true hk]; rfl)).trans ((if_neg Bool.false_ne_true).trans
    ((State.when_of s _ rfl).trans ?_)))
  rw [hr]

theorem State.followUpSend_exec {e : Nat × Nat × Nat × Nat} (hk : k ∈ s.stn.followUp) (h3 : s.rd (FAC_ENG_STATE_STATE 3) = 2)
    (he : s.stn.ptpTx.find? (fun e => e.1 == k && e.2.1 == 0) = some e) : exec (.followUpSend k) s =
      .next ((s.modStn (fun t => { t with followUp := t.followUp.filter (· != k) })).emit (.ptp k 8 e.2.2.1 e.2.2.2 0 s.clockClass)) := by
  refine congrArg Outcome.next ((State.when_of s _ (by rw [List.contains_iff_mem.2 hk, h3]; rfl)).trans ?_)
  dsimp only
  rw [State.modStn_stn]
  dsimp only
  rw [he]
  rfl

/-! ## Announce messages (R173, R280) -/

/-- The port states and the grandmaster after an Announce. -/
def State.announced (s : State) (st : Nat) (g : Nat) : State :=
  (s.when (s.rd PTP_PORT_ST != st % 65536) (fun s => (s.wr PTP_PORT_ST (st % 65536)).raise 37 0)).when
    ((s.when (s.rd PTP_PORT_ST != st % 65536) (fun s => (s.wr PTP_PORT_ST (st % 65536)).raise 37 0)).stn.gm != g)
    (fun s => (s.modStn (fun t => { t with gm := g })).raise 37 1)

theorem State.announceReceived_exec {st g : Nat} {u : Option UtcInfo} (hk : k < 4) (h37 : s.isOn 37 = true) (h3 : s.rd (FAC_ENG_STATE_STATE 3) = 2) :
    exec (.announceReceived k st (g, u)) s = .next (match u with
      | some u => (s.announced st g).when ((s.announced st g).rd TIME_SRC_CTRL_SRC == 1) (·.putUtc u)
      | none => s.announced st g) := by
  refine congrArg Outcome.next ((State.when_of s _ (by rw [h37, decide_eq_true hk, h3]; rfl)).trans ?_)
  cases u <;> rfl

theorem State.announced_same (s : State) (h : s.rd PTP_PORT_ST < 65536) : s.announced (s.rd PTP_PORT_ST) s.stn.gm = s := by
  rw [State.announced, Nat.mod_eq_of_lt h, State.when_of_not s _ (bne_self_eq_false _), State.when_of_not s _ (bne_self_eq_false _)]

theorem State.announced_effect (s : State) (st g : Nat) : (s.announced st g).rd PTP_PORT_ST = st % 65536 ∧ (s.announced st g).stn.gm = g := by
  have hst (u : State) : (u.when (u.rd PTP_PORT_ST != st % 65536) (fun s => (s.wr PTP_PORT_ST (st % 65536)).raise 37 0)).rd PTP_PORT_ST = st % 65536 := by
    by_cases h : u.rd PTP_PORT_ST = st % 65536
    · rw [h, State.when_of_not u _ (bne_self_eq_false _), h]
    · rw [State.when_of u _ (bne_iff_ne.2 h), State.rd_raise_apart _ _ _ _ rfl, State.rd_wr_fits _ _ _ rfl]
      have hlt : st % 65536 < 65536 := Nat.mod_lt _ (by decide)
      exact Nat.mod_eq_of_lt (Nat.lt_trans hlt (by decide))
  rw [State.announced]
  have hkeep := hst s
  generalize s.when (s.rd PTP_PORT_ST != st % 65536) (fun s => (s.wr PTP_PORT_ST (st % 65536)).raise 37 0) = t at hkeep ⊢
  by_cases h : t.stn.gm = g
  · rw [State.when_of_not t _ (by rw [h]; exact bne_self_eq_false _)]
    exact ⟨hkeep, h⟩
  · rw [State.when_of t _ (bne_iff_ne.2 h)]
    refine ⟨?_, ?_⟩
    · rw [State.rd_raise_apart _ _ _ _ rfl, State.modStn_rd]
      exact hkeep
    · rw [State.raise_stn, State.modStn_stn]

theorem State.putUtc_effect (s : State) (u : UtcInfo) : (s.putUtc u).on TIME_UTC_OFS_VALID = u.valid ∧ (s.putUtc u).on TIME_UTC_OFS_LI59 = u.li59 ∧
    (s.putUtc u).on TIME_UTC_OFS_LI61 = u.li61 ∧ SameWords [TIME_UTC_OFS_VALID.addr] s (s.putUtc u) := by
  rw [State.putUtc, State.wrS]
  refine ⟨?_, ?_, State.on_flag_one _ _ _ rfl, ?_⟩
  · rw [State.on_flag_apart _ _ _ _ rfl, State.on_flag_apart _ _ _ _ rfl]
    exact State.on_flag_one _ _ _ rfl
  · rw [State.on_flag_apart _ _ _ _ rfl]
    exact State.on_flag_one _ _ _ rfl
  · exact ((((SameWords.refl _ s).wr (f := TIME_UTC_OFS_OFFSET) List.mem_cons_self _).flag (f := TIME_UTC_OFS_VALID) List.mem_cons_self _).flag
      (f := TIME_UTC_OFS_LI59) List.mem_cons_self _).flag (f := TIME_UTC_OFS_LI61) List.mem_cons_self _

end Ethernet

/-- Settles O33: a link change, a frame, a supervision and a PTP message take the branch of the port's state and of the message. -/
theorem ethernetPortCommands : Obligations.EthernetPortCommands := by
  unfold Obligations.EthernetPortCommands
  refine ⟨?_, ?_, ?_, ?_, ?_, ?_, ?_, ?_, ?_, ?_, ?_, ?_, ?_, ?_⟩
  case refine_1 =>
    intro s k l a v hk hon
    obtain ⟨up, down, an, hexec⟩ := State.ethLinkChange_exec (l := l) (a := a) (v := v) hk hon
    obtain ⟨hlink, han, hspeed⟩ := s.linkShown_effect (l && (decide (s.rd (ETH_CTRL_MODE k).inForce < 2) || a))
      (a && decide (2 ≤ s.rd (ETH_CTRL_MODE k).inForce)) (if s.rd (ETH_CTRL_MODE k).inForce = 3 then v else 3) hk
    refine ⟨_, hexec, ?_, ?_, ?_⟩
    · rw [State.on, State.linkRaised_rd _ _ _ _ rfl, ← State.on, hlink]
    · rw [State.on, State.linkRaised_rd _ _ _ _ rfl, ← State.on, han]
    · rw [State.linkRaised_rd _ _ _ _ rfl, hspeed]
      split <;> rfl
  case refine_2 => exact fun s k d ok ns st q c hk hup hd => State.ethFrameRx_short hk hup hd
  case refine_3 => exact fun s k d ns st q c hk hup hd hmax => State.ethFrameRx_taken true hk hup hd hmax
  case refine_4 => exact fun s k d ns st q c hk hup hd hmax => State.ethFrameRx_taken false hk hup hd hmax
  case refine_5 => exact fun s k d ns st q htype => (if_neg nofun).trans (if_pos htype)
  case refine_6 =>
    intro s k tc f r hk hopen hqueue hstarted hcells
    have hthere : s.openThere (6 + k) tc = true := by
      rw [State.openThere, hqueue]
      exact hstarted
    refine congrArg Outcome.next ((State.txUnderrun_when hk _).trans ?_)
    rw [hopen]
    dsimp only
    rw [hthere, if_neg (c := (!true) = true) (by decide), hqueue]
    dsimp only
    rw [hcells]
    exact State.when_of s _ rfl
  case refine_7 =>
    intro s x hx hmode h7 hup hup'
    obtain ⟨b₁, b₂, hexec⟩ := State.supervisionSend_exec hx hmode h7
    exact ⟨_, hexec, s.supervised_effect b₁ b₂ hx hup hup'⟩
  case refine_8 =>
    intro s x m q h7 hmem hold
    refine ⟨_, State.nodeForget_exec h7 hmem hold, ?_, State.raise_bit _ _ _ (by decide)⟩
    rw [State.raise_stn, State.modStn_stn]
  case refine_9 =>
    intro s k q raw a b r hk h37 htwo
    refine ⟨_, State.ptpSync_exec hk h37 htwo, List.mem_append_right _ List.mem_cons_self, List.mem_append_right _ List.mem_cons_self, rfl, ?_⟩
    exact (SameWords.refl _ s).of_word fun w => (State.emit_word ..).trans ((State.modStn_word ..).trans (State.modStn_word ..))
  case refine_10 => exact fun s k q raw a b r hk h37 hr => State.ptpPdelay_exec hk h37 hr
  case refine_11 =>
    exact fun s k e hk h3 he => ⟨_, State.followUpSend_exec hk h3 he, rfl, rfl,
      (SameWords.refl _ s).of_word fun w => (State.emit_word ..).trans (State.modStn_word ..)⟩
  case refine_12 => exact fun s k st g hk h37 h3 => ⟨_, State.announceReceived_exec hk h37 h3, s.announced_effect st g⟩
  case refine_13 =>
    intro s k tc hk hopen hthere
    refine congrArg Outcome.next ((State.txUnderrun_when hk _).trans ?_)
    rw [hopen]
    exact if_pos (by rw [hthere]; rfl)
  case refine_14 =>
    intro s k u hk h37 h3 hsrc hst
    refine ⟨_, State.announceReceived_exec hk h37 h3, ?_⟩
    dsimp only
    rw [s.announced_same hst, State.when_of s _ (by rw [hsrc]; rfl)]
    exact s.putUtc_effect u

end Sys2Proof.Machine
end

section
/-!
PROOFS. Subscriptions and publications of the station services (R283–R288).
-/

namespace Sys2Proof.Machine

open Host (Outcome)

/-! ## The numbers of a GOOSE frame (R283) -/

section Goose
variable {sN qN st sq : Nat}

/-- The number after n: it wraps from 0xFFFFFFFF to 1. -/
def gooseNext (n : Nat) : Nat := if n ≥ 0xFFFFFFFF then 1 else n + 1

theorem gooseCheck_based : gooseCheck true sN qN st sq =
    if st = gooseNext sN ∧ sq = 0 then (true, true, none)
    else if st = sN ∧ sq = gooseNext qN then (true, false, none)
    else if st = sN ∧ sq > qN then (true, false, some 0)
    else if st = sN then (false, false, some 1)
    else (true, true, some 2) := by
  rw [gooseCheck, if_neg (c := (!true) = true) (by decide)]
  rfl

theorem gooseNext_of_lt {n : Nat} (h : n < 0xFFFFFFFF) : gooseNext n = n + 1 := if_neg (by omega)

theorem gooseNext_ne (n : Nat) : n ≠ gooseNext n := by
  unfold gooseNext
  split <;> omega

theorem gooseCheck_new (h : st = gooseNext sN) : gooseCheck true sN qN st 0 = (true, true, none) :=
  gooseCheck_based.trans (if_pos ⟨h, rfl⟩)

/-- A frame of the state that the base has. -/
theorem gooseCheck_same : gooseCheck true sN qN sN sq =
    if sq = gooseNext qN then (true, false, none) else if sq > qN then (true, false, some 0) else (false, false, some 1) := by
  rw [gooseCheck_based, if_neg fun h => gooseNext_ne sN h.1]
  simp only [true_and, if_true]

theorem gooseCheck_jump (hst : st ≠ sN) (hnew : sq ≠ 0 ∨ st ≠ gooseNext sN) : gooseCheck true sN qN st sq = (true, true, some 2) := by
  rw [gooseCheck_based, if_neg fun h => hnew.elim (· h.2) (· h.1), if_neg fun h => hst h.1, if_neg fun h => hst h.1, if_neg hst]

end Goose

section Station
variable {s : State} {i : Nat} {p : Path}

/-! ## Expiry (R283) -/

theorem State.bit_setBit_ne (s : State) (f : Fld) {b c : Nat} (v : Bool) (h : f.fits = true) (hc : c < f.width) (hb : b < f.width) (hne : c ≠ b) :
    (s.setBit f b v).bit f c = s.bit f c := by
  have hlt : 2 ^ b < 2 ^ f.width := Nat.pow_lt_pow_right Nat.one_lt_two hb
  rw [State.setBit, State.bit, State.rd_wr_fits _ _ _ h, Nat.testBit_mod_two_pow, decide_eq_true hc, Bool.true_and, State.bit]
  cases v
  · rw [if_neg Bool.false_ne_true, Nat.mod_eq_of_lt hlt, Nat.sub_sub, Nat.add_comm 1, Nat.testBit_and, Nat.testBit_two_pow_sub_succ hlt,
      decide_eq_true hc, Nat.testBit_two_pow_of_ne hne.symm, Bool.not_false, Bool.and_true, Bool.and_true]
  · rw [if_pos rfl, Nat.testBit_or, Nat.testBit_two_pow_of_ne hne.symm, Bool.or_false]

theorem State.stageEvent_expiry (s : State) (typ sub stamp st sq status : Nat) : (s.stageEvent typ sub stamp st sq status).stn.expiry = s.stn.expiry := by
  have hentry (u : State) (k : Nat) (b : List Byte) : (u.stageEntry k b).stn.expiry = u.stn.expiry := by
    unfold State.stageEntry
    split
    · rfl
    · split
      · rw [State.raise_stn, State.inc_stn]
      · rfl
  unfold State.stageEvent
  split
  · rfl
  · exact hentry ..

/-- A subscription that has expired, before its event. -/
def State.expired (s : State) (i : Nat) : State :=
  ((((s.modStn (fun t => { t with expiry := tdel t.expiry i })).setBit (SUB_STATUS i) subBase false).setBit (SUB_STATUS i) subTalExp true).eventBit
    (STN_SUB_EVT (i / 32)) (i % 32)).raise 36 0

theorem State.expired_status (s : State) (hi : i < 512) : (s.expired i).bit (SUB_STATUS i) subBase = false ∧
    (s.expired i).bit (SUB_STATUS i) subTalExp = true := by
  have hisr : (PG_ISR 36).apart (SUB_STATUS i) = true := Fld.apart_of_addr_ne (by simp only [PG_ISR, SUB_STATUS]; omega)
  have hevt : (STN_SUB_EVT (i / 32)).apart (SUB_STATUS i) = true := Fld.apart_of_addr_ne (by simp only [STN_SUB_EVT, SUB_STATUS]; omega)
  have hbase : subBase < (SUB_STATUS i).width := Nat.lt_of_lt_of_eq (by decide : _ < 32) rfl
  have htal : subTalExp < (SUB_STATUS i).width := Nat.lt_of_lt_of_eq (by decide : _ < 32) rfl
  rw [State.expired]
  refine ⟨?_, ?_⟩
  · rw [State.bit_raise_apart _ _ _ _ _ hisr, State.eventBit_bit_apart _ _ _ _ _ hevt, State.bit_setBit_ne _ _ _ rfl hbase htal (by decide)]
    exact State.bit_setBit_self _ _ _ _ hbase rfl
  · rw [State.bit_raise_apart _ _ _ _ _ hisr, State.eventBit_bit_apart _ _ _ _ _ hevt]
    exact State.bit_setBit_self _ _ _ _ htal rfl

theorem State.expired_event (s : State) (hi : i < 512) : (s.expired i).bit (STN_SUB_EVT (i / 32)) (i % 32) = true := by
  have hisr : (PG_ISR 36).apart (STN_SUB_EVT (i / 32)) = true := Fld.apart_of_addr_ne (by simp only [PG_ISR, STN_SUB_EVT]; omega)
  rw [State.expired, State.bit_raise_apart _ _ _ _ _ hisr]
  exact State.eventBit_bit_self _ _ (Nat.mod_lt _ (by decide)) rfl

theorem State.expired_expiry (s : State) (i : Nat) : tget? (s.expired i).stn.expiry i = none := by
  have heb (u : State) (f : Fld) (b : Nat) : (u.eventBit f b).stn = u.stn := rfl
  rw [State.expired, State.raise_stn, heb, State.setBit_stn, State.setBit_stn, State.modStn_stn]
  exact tget?_tdel_self ..

/-- What an expiry does after its words: its event is staged, and the outputs that its members hold go to their safe level. -/
def State.expiryActs (s : State) (i q : Nat) : State :=
  let s := s.stageEvent (if s.on (SUB_KIND i) then 3 else 2) i (stamp64 q) (s.rd (SUB_LAST i 0)) (s.rd (SUB_LAST i 1)) (s.rd (SUB_STATUS i))
  s.when (!s.on (SUB_KIND i)) fun s => foldS (List.range 16) (fun s m =>
    let w := s.rd (SUB_MEMBER i m)
    s.when (bitsOf w 31 31 == 1 && bitsOf w 29 29 == 1) (·.drive (bitsOf w 18 16) (bitsOf w 28 28 == 1))) s

theorem State.talExpiry_exec {q : Nat} (h36 : s.isOn 36 = true) (hexp : tget? s.stn.expiry i = some q) (hq : q ≤ s.nowQ + 3) :
    exec (.talExpiry i) s = .next ((s.expired i).expiryActs i q) := by
  change execTalExpiry i s = _
  rw [execTalExpiry, hexp]
  exact congrArg Outcome.next (State.when_of s _ (by rw [h36, decide_eq_true hq]; rfl))

theorem State.expiryActs_word (s : State) (i q : Nat) {a : Nat} (h : a / 0x1000 ≠ 38) : (s.expiryActs i q).word a = s.word a := by
  rw [State.expiryActs]
  refine (State.when_word _ _ _ _ ?_).trans (State.stageEvent_word _ _ _ _ _ _ _ h)
  exact foldS_word _ _ _ fun u m => State.when_word _ _ _ _ (State.drive_word ..)

theorem State.expiryActs_expiry (s : State) (i q : Nat) : (s.expiryActs i q).stn.expiry = s.stn.expiry := by
  have hdrive (u : State) (k : Nat) (v : Bool) : (u.drive k v).stn.expiry = u.stn.expiry := rfl
  rw [State.expiryActs]
  refine (State.when_keeps (·.stn.expiry) ?_).trans (State.stageEvent_expiry ..)
  exact foldS_induct (P := fun u => u.stn.expiry = _) rfl fun u m _ hu => (State.when_keeps (·.stn.expiry) (hdrive ..)).trans hu

/-! ## Publications (R288) and the window (R285, R286) -/

theorem State.publicationRepeat_exec {x : PubS} (hi : i < 32) (h36 : s.isOn 36 = true) (hen : s.on (PUB_EN i) = true)
    (hx : tget? s.stn.pubs i = some x) (hsq : s.rd (PUB_STSQ i 1) < 0xFFFFFFFF) :
    exec (.publicationRepeat i) s = .next (((s.wr (PUB_STSQ i 1) (s.rd (PUB_STSQ i 1) + 1)).modStn
      (fun t => { t with pubs := tset t.pubs i { x with k := x.k + 1 } })).pubSend i) := by
  refine congrArg Outcome.next ((State.when_of s _ (by rw [decide_eq_true hi, h36, hen]; rfl)).trans ?_)
  rw [hx]
  dsimp only
  rw [if_neg (Nat.not_le.2 hsq)]

/-- A commit shows the reason that its checks give, and does nothing else unless it is 0. -/
theorem State.stnCommit_failed {r : Nat} (hreason : (if s.winPub p then s.pubReason p else s.subReason p) = r) (hr : r ≠ 0) :
    s.stnCommit p = s.wr (STN_STATUS_REASON.onPath p) r := by
  rw [State.stnCommit, hreason, if_pos hr]

end Station

/-- Settles O34: the check of a GOOSE frame follows its numbers; an expiry, a repetition and a window command do their operation. -/
theorem subscriptionsAndPublications : Obligations.SubscriptionsAndPublications := by
  unfold Obligations.SubscriptionsAndPublications
  refine ⟨?_, ?_, ?_, ?_, ?_, ?_, ?_, ?_, ?_, ?_, ?_, ?_, ?_, ?_, ?_, ?_⟩
  case refine_1 =>
    intro s i b q u h
    change execGooseFrameMatched s = _
    rw [execGooseFrameMatched, h] <;> rfl
  case refine_2 =>
    intro s i b q u h
    change execSvFrameMatched s = _
    rw [execSvFrameMatched, h] <;> rfl
  case refine_3 =>
    intro sN qN st sq
    rw [gooseCheck, if_pos (c := (!false) = true) rfl]
  case refine_4 => exact fun sN qN h => gooseCheck_new (gooseNext_of_lt h).symm
  case refine_5 => exact fun qN => gooseCheck_new rfl
  case refine_6 => exact fun sN qN h => gooseCheck_same.trans (if_pos (gooseNext_of_lt h).symm)
  case refine_7 =>
    intro sN qN sq h
    have hne : sq ≠ gooseNext qN := by
      unfold gooseNext
      split <;> omega
    exact gooseCheck_same.trans ((if_neg hne).trans (if_pos (by omega)))
  case refine_8 =>
    intro sN qN sq h hwrap
    have hne : sq ≠ gooseNext qN := by
      unfold gooseNext
      split <;> omega
    exact gooseCheck_same.trans ((if_neg hne).trans (if_neg (by omega)))
  case refine_9 => exact fun sN qN st sq hst hnew => gooseCheck_jump hst hnew
  case refine_10 =>
    intro s i q hi h36 hexp hq
    obtain ⟨hbase, htal⟩ := s.expired_status hi
    have hevt := s.expired_event hi
    refine ⟨_, State.talExpiry_exec h36 hexp hq, ?_, ?_, ?_, ?_, ?_⟩
    · rw [State.bit, State.rd_of_word (f := SUB_STATUS i) (State.expiryActs_word _ _ _ (by simp only [SUB_STATUS]; omega))]
      exact hbase
    · rw [State.bit, State.rd_of_word (f := SUB_STATUS i) (State.expiryActs_word _ _ _ (by simp only [SUB_STATUS]; omega))]
      exact htal
    · rw [State.bit, State.rd_of_word (f := STN_SUB_EVT (i / 32)) (State.expiryActs_word _ _ _ (by simp only [STN_SUB_EVT]; omega))]
      exact hevt
    · rw [State.expiryActs_word _ _ _ (by decide)]
      exact State.raise_bit _ _ _ (by decide)
    · rw [State.expiryActs_expiry]
      exact s.expired_expiry i
  case refine_11 => exact fun s i p hi h36 hen hp hsq => State.publicationRepeat_exec hi h36 hen hp hsq
  case refine_12 => exact fun s p h => congrArg Outcome.next (State.runCmd_accepted (c := cmdStnLoad p) h rfl rfl rfl)
  case refine_13 => exact fun s p h => congrArg Outcome.next (State.runCmd_accepted (c := cmdStnCommit p) h rfl rfl rfl)
  case refine_14 => exact fun s p h => congrArg Outcome.next (State.runCmd_accepted (c := cmdStnClrCnt p) h rfl rfl rfl)
  case refine_15 => exact fun s p hwin hr => State.stnCommit_failed (if_neg (by rw [hwin]; exact Bool.false_ne_true)) hr
  case refine_16 => exact fun s p hwin hr => State.stnCommit_failed (if_pos hwin) hr

end Sys2Proof.Machine
end

section
/-!
PROOFS. The scribe (R290, R291).
-/

namespace Sys2Proof.Machine

open Host (Outcome)

section Scribe
variable {s : State}

/-! ## Blocks (R290) -/

/-- A sealed block: what is staged goes into it, and the next block follows. -/
def State.blockSealed (s : State) : State :=
  s.modStn (fun t =>
    { t with stage := t.stage.drop 63, blockSeq := (s.stn.blockSeq + 1) % 2 ^ 32,
             blockPos := (s.stn.blockPos + 1) % max 1 (s.rd NVS_RING_LEN.inForce), inFlight := t.inFlight ++ [s.stn.blockSeq] })

theorem State.blockSealed_recTime (s : State) : s.blockSealed.recTime = s.recTime := rfl

theorem State.scribeSeal_exec (hst : s.rd NVS_STATUS_STATE = 1) (hstage : s.stn.stage ≠ []) : exec .scribeSeal s =
    .next (s.blockSealed.emit (.nvme (s.rd NVS_RING_START_LO.inForce + 2 ^ 32 * s.rd NVS_RING_START_HI.inForce + Config.lbaPerBlock * s.stn.blockPos)
      (logBlock s.stn.blockSeq s.recTime s.chip.unitId (s.stn.stage.take 63)))) := by
  have hsome : s.stn.stage.isEmpty = false := List.isEmpty_eq_false_iff.2 hstage
  rw [← s.blockSealed_recTime]
  exact congrArg Outcome.next (State.when_of s _ (by rw [hst, hsome]; rfl))

/-- A write that has ended leaves the rest on its way. -/
theorem State.scribeWriteDone_exec {ok : Bool} {n m : Nat} {l : List Nat} (h : s.stn.inFlight = n :: m :: l) : exec (.scribeWriteDone ok) s =
    .next (if ok then (s.modStn (fun t => { t with inFlight := m :: l })).wr NVS_BLOCK_SEQ n
      else ((s.modStn (fun t => { t with inFlight := m :: l })).inc NVS_WRITE_ERR).raise 38 1) := by
  change execScribeWriteDone ok s = _
  rw [execScribeWriteDone, h]
  exact congrArg Outcome.next (State.when_of_not _ _ rfl)

theorem State.scribeStart_some (n k : Nat) (hst : s.rd NVS_STATUS_STATE = 1) : exec (.scribeStart (some (n, k))) s =
    .next (s.modStn (fun t => { t with blockSeq := (n + 1) % 2 ^ 32, blockPos := (k + 1) % max 1 (s.rd NVS_RING_LEN.inForce) })) :=
  congrArg Outcome.next (State.when_of s _ (by rw [hst]; rfl))

theorem State.scribeStart_none (hst : s.rd NVS_STATUS_STATE = 1) :
    exec (.scribeStart none) s = .next (s.modStn (fun t => { t with blockSeq := 1, blockPos := 0 })) :=
  congrArg Outcome.next (State.when_of s _ (by rw [hst]; rfl))

/-! ## The owner of the controller (R291) -/

theorem State.setScribe_rd (s : State) {v : Nat} (hv : v < 8) : (s.setScribe v).rd NVS_STATUS_STATE = v := by
  unfold State.setScribe
  split
  · assumption
  · rw [State.rd_raise_apart _ _ _ _ rfl, State.rd_wr_fits _ _ _ rfl]
    exact Nat.mod_eq_of_lt hv

theorem State.setScribe_out (s : State) (v : Nat) : s.out <+: (s.setScribe v).out := (State.setScribe_follows (msk := 2) rfl v (Follows.refl 2 s)).out

/-- The state that the queue pair gives. -/
theorem queueState_lt (f : Bool) : (if f then 3 else 4) < 8 := by cases f <;> decide

end Scribe

/-- Settles O35: a seal, a completion, a start and a handover of the scribe do their operation in its state. -/
theorem scribeCommands : Obligations.ScribeCommands := by
  unfold Obligations.ScribeCommands
  refine ⟨?_, ?_, ?_, ?_, ?_, ?_, ?_, ?_, ?_⟩
  case refine_1 =>
    exact fun s hst hstage => ⟨_, State.scribeSeal_exec hst hstage, rfl, rfl, rfl, rfl, rfl,
      (SameWords.refl _ s).of_word fun a => (State.emit_word ..).trans (State.modStn_word ..)⟩
  case refine_2 =>
    intro s n m l h
    refine ⟨_, (State.scribeWriteDone_exec h).trans (congrArg Outcome.next (if_pos rfl)), ?_, State.rd_wr_fits _ _ _ rfl, ?_⟩
    · rw [State.wr_stn, State.modStn_stn]
    · exact ((SameWords.refl _ s).of_word fun a => State.modStn_word ..).wr (f := NVS_BLOCK_SEQ) List.mem_cons_self _
  case refine_3 =>
    intro s n m l h
    refine ⟨_, (State.scribeWriteDone_exec h).trans (congrArg Outcome.next (if_neg Bool.false_ne_true)), ?_, ?_, State.raise_bit _ _ _ (by decide)⟩
    · rw [State.raise_stn, State.inc_stn, State.modStn_stn]
    · rw [State.rd_raise_apart _ _ _ _ rfl, State.rd_inc_fits _ _ _ rfl, State.modStn_rd]
      rfl
  case refine_4 =>
    exact fun s n k hst => ⟨_, State.scribeStart_some n k hst, rfl, rfl, (SameWords.refl _ s).of_word fun a => State.modStn_word ..⟩
  case refine_5 => exact fun s hst => ⟨_, State.scribeStart_none hst, rfl, rfl, (SameWords.refl _ s).of_word fun a => State.modStn_word ..⟩
  case refine_6 =>
    intro s f hst
    have hexec : exec (.scribeHandover 0 f) s = .next ((s.setScribe 2).modStn (fun t => { t with handover := true })) :=
      congrArg Outcome.next ((if_pos rfl).trans (State.when_of s _ (by rw [hst]; rfl)))
    refine ⟨_, hexec, ?_, rfl⟩
    rw [State.modStn_rd]
    exact s.setScribe_rd (by decide)
  case refine_7 =>
    intro s f hst hnone
    have hexec : exec (.scribeHandover 1 f) s =
        .next (((s.emit (.scribe 2)).setScribe (if f then 3 else 4)).modStn (fun t => { t with handover := false })) :=
      congrArg Outcome.next ((if_neg (by decide)).trans ((if_pos rfl).trans (State.when_of s _ (by rw [hst, hnone]; rfl))))
    refine ⟨_, hexec, ?_, rfl, ?_⟩
    · rw [State.modStn_rd]
      exact State.setScribe_rd _ (queueState_lt f)
    · rw [State.modStn_out]
      exact (State.setScribe_out ..).subset (List.mem_append_right _ List.mem_cons_self)
  case refine_8 =>
    intro s f hst
    have howned : (s.rd NVS_STATUS_STATE == 3 || s.rd NVS_STATUS_STATE == 4) = true := by
      obtain hst | hst := hst <;> rw [hst] <;> rfl
    have hexec : exec (.scribeHandover 2 f) s = .next (s.setScribe (if f then 3 else 4)) :=
      congrArg Outcome.next ((if_neg (by decide)).trans ((if_neg (by decide)).trans (State.when_of s _ howned)))
    exact ⟨_, hexec, s.setScribe_rd (queueState_lt f)⟩
  case refine_9 =>
    intro s h38 hst
    have hexec : exec .scribeTakeOwnership s =
        .next (((s.setScribe 1).emit (.scribe 1)).modStn (fun t => { t with handover := false, inFlight := [] })) :=
      congrArg Outcome.next (State.when_of s _ (by rw [decide_eq_true (show s.rd NVS_STATUS_STATE ≥ 2 from hst), h38]; rfl))
    refine ⟨_, hexec, ?_, rfl, rfl, List.mem_append_right _ List.mem_cons_self⟩
    rw [State.modStn_rd, State.emit_rd]
    exact s.setScribe_rd (by decide)

end Sys2Proof.Machine
end
